-- ==== Sys2Proof/Word.lean ====
section
/-!
DEFINITION. Words, bytes and the plain types that the operands of commands are made of.
-/

namespace Sys2Proof

/-- A byte; multi-byte fields are little-endian (R7). -/
abbrev Byte := BitVec 8

/-- A run of bytes, the lowest address first. -/
abbrev Bytes := List (BitVec 8)

/-- A register or descriptor word of 64 bits (R427). -/
abbrev Word64 := BitVec 64

/-- An FP32 bit pattern (IEEE binary32). -/
abbrev F32 := BitVec 32

/-- A key: table handle in [63:48], row in [47:0] (R150). -/
abbrev Key := BitVec 64

/-- A sparse map by number; a number not listed has the default its reader names. -/
abbrev SMap (α : Type) := List (Nat × α)

/-- The paths of R395, over which registers and mailbox commands arrive. -/
inductive Path where
  | fn0 | fn1 | i3c | dbg
  deriving DecidableEq, Repr

/-- The members of the family (R2). -/
inductive Member where
  | ce8 | ce16 | ce32 | ce64 | ce128
  deriving DecidableEq, Repr

/-- The roles of R397. -/
inductive Role where
  | none | operator | installer | maker
  deriving DecidableEq, Repr

/-- What a range read from outside gave: the bytes before its first faulting byte, and the fault's status (Table 24),
0 when the whole range was read, with the device-virtual address of the first byte that faulted (R105). -/
structure Feed where
  data   : Bytes
  status : BitVec 8 := 0
  addr   : Word64 := 0
  deriving DecidableEq, Repr

/-- What a read of one row's record from its backing gave; status 0 when it was read, `tries` how often its NVMe Read was issued again
(R130, R336, R337). -/
structure RowSrc where
  data   : Bytes
  status : BitVec 8 := 0
  tries  : Nat := 0
  deriving DecidableEq, Repr

/-- One row of a run of rows read from a backing. -/
structure RowFetch where
  row : Nat
  src : RowSrc
  deriving DecidableEq, Repr

/-- How a write-back ends: its status, 0 where it succeeds, and how often its NVMe Write was issued again (R336, R454). -/
structure Tried where
  status : BitVec 8 := 0
  tries  : Nat := 0
  deriving DecidableEq, Repr

/-- How the write-back of one row ends (R454). -/
structure RowFail where
  row    : Nat
  status : BitVec 8
  tries  : Nat := 0
  deriving DecidableEq, Repr

/-- How write-backs end that a command makes room with, by the row's key; one not listed succeeds at once (R276, R336, R454). -/
abbrev WbFails := List (BitVec 64 × Tried)

/-- The inputs one descriptor of a window takes in: key list, offsets or bag identifiers, weights (R171, R174). -/
structure WinFeed where
  keys : Feed
  offs : Feed
  wgt  : Feed
  deriving DecidableEq, Repr

/-- One ring slot's 64 bytes as read, with the extension block that EXT_PTR names, if any (R53, R98). -/
structure Slot where
  raw : Bytes
  ext : Bytes := []
  deriving DecidableEq, Repr

/-- One ATS translation returned by the host: page of 2^log2 bytes at an IOVA, with its permissions and the host physical address
of its first byte (R99). -/
structure Xlate where
  port : Nat
  iova : Nat
  log2 : Nat
  r    : Bool
  w    : Bool
  hpa  : Nat := 0
  deriving DecidableEq, Repr

/-- The answer to a page request group (R103). -/
inductive PageResp where
  | success | invalid | failure
  deriving DecidableEq, Repr

/-- A remote contribution message (Table 65). -/
structure ContribMsg where
  key    : Key
  epoch  : BitVec 32
  elem0  : Nat
  data   : List F32
  last   : Bool
  batch  : BitVec 32
  sender : BitVec 16
  msgs   : Nat
  deriving DecidableEq, Repr

/-- An inbound fabric message that Larlyn marks in error (R411): a request that is no contribution, a response, or a contribution, with what
it names. -/
inductive BadMsg where
  | request
  | response
  | contrib (m : ContribMsg)
  deriving DecidableEq, Repr

/-- One namespace as a drive's Identify data describes it (R331, Table 11). -/
structure NsInfo where
  nsid   : Nat
  nguid  : Nat
  blocks : Nat
  fmtOk  : Bool
  deriving DecidableEq, Repr

/-- What an attach finds on a drive (R331, R332). -/
structure DriveInfo where
  port    : Nat
  nvmOk   : Bool
  qMax    : Nat
  qFail   : Bool
  timeout : Bool
  vwc     : Bool
  nss     : List NsInfo
  most    : Nat := 0                -- its largest transfer in blocks, 0 where it names none (R334)
  deriving DecidableEq, Repr

/-- Check failures that a command's work meets (R408, R410): how often in a row a beat fails its CRC; lane residue mismatches of one
computation, in its lanes and in its output stage; failed checks in a row of what it reads on die, two of each source; and failed checks in
a row of a landing block, or, of a read-modify-write of a row that has a pillow entry (`store`), of its merge entry. -/
structure Errs where
  crc   : Nat := 0
  lane  : Nat := 0
  out   : Nat := 0
  store : Nat := 0
  land  : Nat := 0
  deriving DecidableEq, Repr

/-- A row as it arrives (R408): what the read of its backing gave, and the checks that fail on its way. -/
structure Arrival where
  row  : RowSrc
  errs : Errs := {}
  deriving DecidableEq, Repr

/-- The drain of a tile: the first fault that its writes meet, by its offset in the result, and the checks that fail (R205, Table 29). -/
structure TileEnd where
  fault : Option (Nat × BitVec 8) := none
  errs  : Errs := {}
  deriving DecidableEq, Repr

/-- A round that begins: its window, and the spool rows that fail their check (R205). -/
structure RoundBegin where
  win : Nat
  bad : List (Key × Nat) := []
  deriving DecidableEq, Repr

/-- A write of CRH_RING_CMD: the path, and the field RING (R51). -/
structure RingWrite where
  path : Path
  ring : Nat
  deriving DecidableEq, Repr

/-- A descriptor that emits a trace point, and whether the trace collector can take the record (R35). -/
structure Traced where
  id    : Nat
  taken : Bool
  deriving DecidableEq, Repr

/-- What Larlyn gives a fabric port that trains: NODE, and the credits of its request and response channels (R23, R436). -/
structure FabLink where
  node : BitVec 16
  oreq : Nat
  orsp : Nat
  deriving DecidableEq, Repr

/-- A common command code of both forms: whether it is direct, and its value of n bits (R34). -/
structure Ccc (n : Nat) where
  direct : Bool
  val    : BitVec n
  deriving DecidableEq, Repr

/-- The hand-over of the front end: whether the engine that failed then passes its test, and the queued descriptors that fail their check in
both engines (R419, Table 118). -/
structure Takeover where
  passes : Bool
  lost   : List Nat := []
  deriving DecidableEq, Repr

/-- The outcome of a channel's test (R311): the mismatches found, and the first failing tier, bank and line. -/
structure TgRes where
  errors : Nat := 0
  tier   : Nat := 0
  bank   : Nat := 0
  line   : Nat := 0
  deriving DecidableEq, Repr

/-- What a Steta core's access reaches (R380, Table 106): a core's private SRAM, a 32 KiB part of a shared SRAM window, the fuse interface, the
credential store, the write path of the authority block, the BAR0 blocks of a role, or no region at all. -/
inductive MpuAccess where
  | own (core : Nat)
  | shared (win part : Nat) (write : Bool)
  | fuses
  | credentials
  | authority
  | bar0 (role : Nat)
  | outside
  deriving DecidableEq, Repr

/-- An access that a memory protection unit judges: where the core ran, and what it reached for. -/
structure MpuHit where
  pc     : Word64
  access : MpuAccess
  deriving DecidableEq, Repr

/-- The bank that a repair is for, and whether it can be read, so that it is copied (R314). -/
structure BankAim where
  bank       : Nat
  unreadable : Bool := false
  deriving DecidableEq, Repr

/-- What the margin check finds of a logical channel (Tables 83 and 84): nothing, a margin below its limit, a channel that cannot be read,
or the failure of the spare that receives its copy. -/
inductive ChanFinding where
  | good | low | unreadable | spareFailed
  deriving DecidableEq, Repr

/-- What a scrub pass finds on a channel (R319, Table 118): a line of a logical bank that fails its check, with whether it fails again; a
row's twin, or a table's directory entry, that fails twice, with whether the entry's second copy fails too. -/
inductive ScrubFind where
  | line (tier bank line : Nat) (persists : Bool)
  | twin (tbl ver row : Nat)
  | directory (tbl : Nat) (second : Bool)
  deriving DecidableEq, Repr

/-- What the host writes to a function as it enumerates it (R26): configuration registers, by offset, those of the CXL device DVSEC and of
the CXL.cache capability among them; and entries of the MSI-X table, by vector, each with its address and data. -/
structure FnSetup where
  config : List (Nat × BitVec 32) := []
  msix   : List (Nat × Nat × BitVec 32) := []
  deriving DecidableEq, Repr

/-- A function-level reset of the function of a host port, and what the host then writes to it. -/
structure FnReset where
  port : Nat
  fn   : FnSetup := {}
  deriving DecidableEq, Repr

/-- A message that comes in on a fabric port. -/
structure OnPort (α : Type) where
  port : Nat
  val  : α
  deriving DecidableEq, Repr

/-- What a host or flash port trained to (Table 129): width code, rate code, CXL.cache in service on a host port; whether it runs in
flit mode, which is the 256-byte mode on a host port (Tables 8 and 10); into how many links a flash port is bifurcated; and what the host
writes to the function of a host port as it enumerates it. -/
structure LinkRes where
  up    : Bool
  width : Nat
  rate  : Nat
  cache : Bool
  flit  : Bool := true
  links : Nat := 1
  fn    : FnSetup := {}
  deriving DecidableEq, Repr

/-- What the start-up sequence (Table 100) meets outside the model: whether PLL_AON locks (R363); which images verify (signature and digests, R388),
whether the cores start and Ground store trains, the fabric node, what each port trains to, whether the boot flash switches to
8D-8D-8D (R33), the outbound request and response credits with which Larlyn initialises each fabric port (R41), and the physical
channels that fail their start-up test (R311); whether Larlyn grants the steps in which the slice groups are un-gated at once (R368).
Where the ports do not all train, the lists name those that have. -/
structure Startup where
  sigA    : Bool
  sigB    : Bool
  sigR    : Bool
  cores   : Bool
  gsOk    : Bool
  node    : BitVec 16
  cxl     : List LinkRes
  pcie    : List LinkRes
  portsOk : Bool
  readyMs : Nat
  octal   : Bool := true
  credits : List (Nat × Nat) := []
  badChs  : List (Nat × TgRes) := []
  bcrBad  : Bool := false
  aonLock : Bool := true
  grants  : Bool := true
  deriving DecidableEq, Repr

/-- The completion of an NVMe command (Table 88). -/
inductive NvmeOutcome where
  | success | retryable | fatalStatus | unrecovered | controllerFatal
  deriving DecidableEq, Repr

end Sys2Proof
end

