-- ==== Sys2Proof/Syntax.lean ====
section
/-!
DEFINITION. The commands of the block, one constructor for each row of spec/opcode_table.json, in the table's order.
Operands: `p` is the path of a register write or mailbox command (R395); `ring` and `cpl` number rings; `id` is the model's
number of a descriptor that has been read from a ring; data read from outside the block comes with the command that carries it.
Log entry 1.
-/

namespace Sys2Proof

/-- One constructor per row of the table. -/
inductive Instr where
  -- ring commands (R51, R450); `entry` is the ring's table entry as read from host memory (R45)
  | enable (p : Path) (ring : Nat) (entry : Bytes)
  | disable (p : Path) (ring : Nat)
  | pause (p : Path) (ring : Nat)
  | resume (p : Path) (ring : Nat) (entry : Bytes)
  | reset (p : Path) (ring : Nat)
  | dumpAll (p : RingWrite)
  | dumpOne (p : Path) (ring : Nat)
  -- announcements (R60 to R66)
  | eyeletSnoop (port line : Nat)
  | eyeletLineReturn (line : Nat) (words : List Word64)
  | ringOverrunRecordWrite (cpl : Nat)
  | bar2DoorbellWrite (off size : Nat) (val : Word64)
  | bar2ReadBack (off size : Nat)
  | nearRingAnnouncement (ring : OnPort Nat) (idx : BitVec 32)
  -- front end and completions
  | ringTurn (ring : Nat)
  | descriptorReadReturn (ring : Nat) (slots : List Slot)
  | completionReserve (cpl : Nat)
  | completionRecordWrite (id : Nat)
  | modTimeExpiry (ring : Nat)
  -- descriptors of Table 20
  | nop (id : Nat)
  | marker (id : Traced)
  | fenceOrder (id : Nat)
  | fenceVisible (id : Nat)
  | wait (id : Nat)
  | waitTimeout (id : Nat)
  | gatherPool (id : Nat)
  | gatherSeq (id : Nat)
  | scatterGradLists (id : Nat) (grad : Feed)
  | scatterGradRows (id : Nat) (grad : Feed)
  | apply (id : Nat)
  | setEpoch (id : Nat)
  | flush (id : Nat) (fails : List RowFail)
  | tableLoadOpen (id : Nat)
  | tableLoadFill (id : Nat) (src : Feed)
  | tablePinFromBacking (id : Nat) (rows : List RowFetch)
  | tablePinFromSrc (id : Nat) (src : Feed)
  | tableEvictRows (id : Nat) (fails : List RowFail)
  | tableEvictUnpin (id : Nat) (fails : List RowFail)
  | tableEvictVersion (id : Nat)
  | tableSwitchForward (id : Nat)
  | tableSwitchAny (id : Nat)
  | rowList (id : Nat)
  | rowRange (id : Nat) (rows : List RowFetch) (fails : WbFails)
  | xlate (id : Nat)
  | sequential (id : Nat)
  | normal (id : Nat)
  | willneed (id : Nat) (rows : List RowFetch)
  | dontneed (id : Nat) (fails : List RowFail)
  | bulkSpill (id : Nat)
  | bulkFill (id : Nat)
  | bulkBurst (id : Nat) (src : Feed) (dstFault : Option Nat)
  -- ports
  | hostLinkDown (port : Nat)
  | functionLevelReset (port : FnReset)
  | hostPortTraining (port : Nat) (res : LinkRes)
  | fabricPortTraining (port : Nat) (link : FabLink)
  | fabricPortDrain (port : Nat)
  -- contexts and translation
  | ctxCfgWrite (p : Path) (off size : Nat) (val : Word64)
  | inval (p : Path) (val : Word64)
  | invalDrain (p : Path) (val : Word64)
  | mirrorReadReturn (ctx : Nat) (block : Bytes)
  | atsTranslationCompletion (id : Nat) (xs : List Xlate)
  | pageResponse (id : Nat) (code : PageResp) (xs : List Xlate)
  | pageResponseTimeout (id : Nat)
  | parkEntryFree (ring : Nat)
  | invalidateRequest (port tag pasid iova len : Nat)
  | invalidateDrained (port tag : Nat)
  | invalAbort (port tag : Nat)
  | xlateDriverRetry (which port : Nat) (iova : Word64) (ok : Bool)
  | dmaTimeout (id : Nat) (done : Nat) (addr : Word64)
  -- tables
  | define (p : Path) (img : Feed)
  | delete (p : Path)
  | bands (p : Path) (img : Feed)
  | partCfgWrite (p : Path) (off size : Nat) (val : Word64)
  | retirement (tbl ver : Nat) (fails : List RowFail)
  | retirementSweep (tbl ver : Nat)
  | retireRetry (tbl ver : Nat) (fails : List RowFail)
  | retireStalled (tbl ver : Nat)
  | regrade (tbl ver row : Nat) (src : RowSrc) (fails : WbFails)
  -- bobbinet
  | windowStart (feeds : List (Nat × WinFeed))
  | packWaitExpiry
  | windowComplete (sorter : Nat) (parity : Bool)
  | imapFull
  | runAheadScan (id : Nat) (keys : Feed) (rows : List (Key × RowSrc)) (fails : WbFails)
  | imapRel (p : Path) (val : Word64)
  -- pooling
  | spoolGrant
  | spoolFull
  | roundStart (r : RoundBegin)
  | tilePositionsGrant (id : Nat)
  | bobbinGrant (win : Nat) (key : Key) (ver : Nat)
  | rowDelivery (win : Nat) (key : Key) (ver : Nat) (src : Arrival) (fails : WbFails)
  | tileDrain (win id pos tile : Nat) (drain : TileEnd)
  | tileRel (p : Path) (val : Word64)
  | load (p : Path) (img : Feed)
  | swap (p : Path)
  -- updates
  | pillowReserve
  | pillowFull (id : Nat)
  | remoteContribution (port : Nat) (msg : ContribMsg)
  | batchDiscard (sender : BitVec 16) (batch : BitVec 32)
  | batchAck (batch : OnPort (BitVec 32)) (accepted late dropped rejected : Nat)
  | remoteAckTimeout (batch : BitVec 32)
  | mergeEvict (group : Nat)
  | couchingRmw (tbl ver row : Nat) (src : Arrival) (fails : WbFails)
  | tier2RmwRetry (tbl ver row : Nat) (src : RowSrc) (expired : Bool) (fails : WbFails)
  | wbAgeExpiry (tbl ver row : Nat) (res : Tried)
  | writeBack (tbl ver row : Nat) (res : Tried)
  | twinFull (tbl ver row : Nat)
  | twinSpaceGrant (tbl ver row : Nat) (fails : WbFails)
  | commit (p : Path) (val : Word64)
  -- cache and skew
  | cacheWayGrant (tbl ver row : Nat) (fails : WbFails)
  | agingSweep
  | loadIntervalEnd
  | migrationPublish (tbl ver row : Nat) (fails : WbFails)
  | replicationPublish (tbl ver row : Nat) (fails : WbFails)
  -- Ground store
  | bankAccess (ch : Nat)
  | refreshBurst (pch : Nat)
  | thermalSample (temps : List Nat) (su : Startup)
  | retentionStep (pch : Nat)
  | retentionStepEnd (pch : Nat)
  | thermalTrip
  | bankStuck (ch tier bank : Nat)
  | wcRetire (ch : Nat)
  | rowRepair (ch tier bank row : Nat)
  | bankRepair (ch tier : Nat) (bank : BankAim)
  | replace (p : Path) (lch : Nat) (readable : Bool)
  | fold (p : Path) (lch : Nat) (readable : Bool) (fails : WbFails)
  | unfold (p : Path) (lch : Nat)
  | retrain (p : Path) (pch : Nat) (res : Option TgRes)
  | test (p : Path) (pch : Nat) (errors tier bank line : Nat)
  | retire (p : Path) (pch : Nat)
  | channelSwitch (lch : Nat) (res : Option TgRes)
  | marginCheck (lch : Nat) (found : ChanFinding)
  | scrub (ch : Nat) (found : List ScrubFind)
  -- flash
  | autoAttach (drive : Nat) (info : DriveInfo)
  | nvmeSlotGrant (drive : Nat)
  | nvmeCompletion (drive tag : Nat) (res : NvmeOutcome) (data : Bytes)
  | nvmeCmdTimeout (drive tag : Nat)
  | abortTimeout (drive tag : Nat)
  | driveRemoval (drive : Nat)
  -- flow and counters
  | flowStall (id : Nat)
  | counterClear (p : Path) (val : Word64)
  | subtract (p : Path) (val : Word64)
  | counterLowRead (p : Path) (off : Nat)
  -- clocks, power and resets
  | pllFault (domain : Nat) (su : Startup)
  | referenceFault (stopped : Bool)
  | refLossTimeout (su : Startup)
  | pllAonFault (locked : Bool) (us : Nat) (su : Startup)
  | pmhRaise (target : Nat) (su : Startup)
  | pmhLower (target : Nat)
  | pmhEnterStandby
  | pmhLeaveStandby (target : Nat)
  | pmhOff (fails : WbFails)
  | pmhEmergAssert
  | pmhEmergRelease
  | pmhStepGnt
  | sliceGroupGate (group : Nat)
  | powerGood (su : Startup)
  | blockResetCmd (p : Path) (su : Startup)
  | tapReset
  -- Steta
  | coreWatchdogExpiry (core : Nat) (pc : Word64) (restarted : Bool) (su : Startup)
  | mpuFault (core : Nat) (hit : MpuHit) (restarted : Bool) (su : Startup)
  | voltageSample (mv : List Nat)
  | plogProgram
  | activationHealthWatch (healthy : Bool)
  | activationDeferEnd (sigOk : Bool)
  | sessionTimeout (p : Path)
  | lockoutEnd (p : Path)
  | getHealth (p : Path) (req : Feed)
  | readSensors (p : Path) (req : Feed)
  | logPos (p : Path) (req : Feed)
  | plogRead (p : Path) (req : Feed) (page : Nat)
  | auditRead (p : Path) (req : Feed) (aseq : Nat)
  | auditHead (p : Path) (req : Feed)
  | coreRestart (p : Path) (req : Feed) (core : Nat) (restarted : Bool) (su : Startup)
  | authChallenge (p : Path) (req : Feed)
  | authResponse (p : Path) (req : Feed) (role : Role) (keyIdx : Nat) (sigOk : Bool)
  | authEnd (p : Path) (req : Feed)
  | imgStage (p : Path) (req : Feed) (off : Nat) (chunk : Bytes) (last : Bool)
  | imgActivate (p : Path) (req : Feed) (sigOk : Bool)
  | imgCommit (p : Path) (req : Feed)
  | imgRevert (p : Path) (req : Feed)
  | driveAttach (p : Path) (req : Feed) (drive : Nat) (info : DriveInfo)
  | driveDetach (p : Path) (req : Feed) (drive : Nat) (fails : WbFails)
  | enrolInstaller (p : Path) (req : Feed) (off : Nat) (chunk : Bytes) (last : Bool) (key : Bytes) (count : BitVec 32) (tokenOk : Bool)
  | enrolOperator (p : Path) (req : Feed) (idx : Nat) (key : Bytes)
  | revokeOperator (p : Path) (req : Feed) (idx : Nat)
  | setLimit (p : Path) (req : Feed) (limits : BitVec 8)
  | debugOpen (p : Path) (req : Feed)
  | debugClose (p : Path) (req : Feed)
  | fuseProgram (p : Path) (req : Feed) (revoke : BitVec 4)
  | returnDiag (p : Path) (req : Feed)
  -- I3C
  | entdaa (addr : BitVec 7)
  | setdasa (addr : BitVec 7)
  | rstdaa
  | enec (events : Ccc 8)
  | disec (events : Ccc 8)
  | getpid
  | getbcr
  | getdcr
  | getstatus
  | getmwl
  | getmrl
  | setmwl (len : Ccc 16)
  | setmrl (len : Ccc 16)
  | rstact (action : Ccc 8)
  | i3cPrivateRead
  -- reliability
  | rowRecovery (tbl ver row : Nat) (masterBad twinBad : Bool) (src : RowSrc)
  | sliceSpared (pos : Nat)
  | qxHandover (us : Nat) (take : Takeover) (su : Startup)
  | inboundFabricError (port : Nat) (msg : BadMsg)
  | query (p : Path) (val : Word64)
  | poisonClear (p : Path) (val : Word64)
  | eventWrite
  | eyeletBaseWrite (p : Path) (off size : Nat) (val : Word64)
  | authorityWrite (p : Path) (off size : Nat) (val : Word64)
  | registerWrite (p : Path) (off size : Nat) (val : Word64)
  | powerLoss
  | referenceReturn (us : Nat)
  | controllerResetComplete (drive : Nat) (ok : Bool)
  | fabricCreditReturn (port : Nat) (resp : Bool) (n : Nat)
  | priCapabilityEnable (port : Nat)
  | reservedStateRequest (target : Nat)
  | doubleFault (core : Nat) (pc : Word64) (restarted : Bool) (su : Startup)
  deriving DecidableEq, Repr

end Sys2Proof
end

