-- ==== Sys2Proof/Decode.lean ====
section
/-!
DEFINITION. The commands that a word spells by the table's bits. Not one row of spec/opcode_table.json gives bits, so no word
spells a command: commands reach the block over its buses and pins (log entry 1).
-/

namespace Sys2Proof

/-- The command that a word spells: none, for no row of the table gives bits. -/
def decodeTableWord (_nbits _w : Nat) : Option Instr := none

end Sys2Proof
end

