-- ==== Sys2Proof/Config.lean ====
section
/-!
DEFINITION. The values the spec leaves open and that no effect of the model may fix: constants with no body, so that a claim
holds whatever they are. Each is named in the assumption log.
-/

namespace Sys2Proof.Config

/-- SHA-384, which the spec names and does not define (R398). Log entry 4. -/
opaque sha384 : Bytes → BitVec 384

/-- Whether the binary64 evaluation of R252 takes B raised to the step t up, where binary64 does not hold it (B and t). Log entry 5. -/
opaque powStep : BitVec 32 → Nat → Bool

/-- The severity that the log copy of an event carries (R382 gives the field, no rule its value), by event code. Log entry 6. -/
opaque eventSeverity : Nat → BitVec 3

/-- The CORE field of the log copy that the hardware event path makes of an event, by event code (R382). Log entry 6. -/
opaque eventCore : Nat → BitVec 3

/-- The SEV field of the log records that carry an audit record (R383 writes them whatever it is). Log entry 6. -/
opaque auditSeverity : BitVec 3

/-- A nonce, by the count of nonces given (R395). Log entry 7. -/
opaque nonce : Nat → BitVec 384

/-- Bytes that the spec leaves open, by the model's counter of them: elements of a gradient that a batch or key list does not carry
(R241), mailbox response layouts (R401), a restarted core's program counter (R392), GETSTATUS (R34). Log entry 8. -/
opaque freeByte : Nat → BitVec 8

/-- I3C register values that the spec leaves to the part: provisioned identifier, BCR, DCR (R34), by which. Log entry 9. -/
opaque i3cValue : Nat → BitVec 48

/-- The message code of a log record, or the identifier of a trace point, that no rule gives (R382, R385), by the model's name of
it: 0 LOG_OVERRUN, 1 audit, 2 MARKER's trace point, 3 port training, 4 rail out of tolerance, 5 crash record, 6 rows lost at OFF,
7 core retired, 8 boot flash left in 1S-1S-1S, 9 thermal sensor, 10 clock, 11 retention monitor. Log entry 10. -/
opaque logCode : Nat → BitVec 16

/-- Inbound credits that a fabric port grants as it comes into service, of the response channel or of the request channel; no rule
gives their number (R23, R41). Log entry 92. -/
opaque fabGrant : Bool → Nat

/-- The AER status bits that an error of a host function sets (R28): 0 for a completion timeout (log entry 145). -/
opaque aerBits : Nat → BitVec 32

/-- A slice group was quiet, so that its next issue is a soft start (R369), as a row block opens on it or a row reaches it: by window, group
and the block's or the row's number. No command tells the time for which a slice has issued nothing. Log entry 62. -/
opaque groupQuiet : Nat → Nat → Nat → Bool

/-- The code of the event that the store core writes for a channel trigger while AUTO_REPAIR is off (R319): Table 86 has none. Log entry 45. -/
opaque repairEvent : Nat

/-- Mismatched words that a test reads from lines which were not written under its own CRH_GS_TG_CFG: the configuration read under, and the one
that they were written under, if any. The spec gives neither PRBS31's polynomial nor the random addresses (R311; log entry 115). -/
opaque wrongWords : BitVec 64 → Option (BitVec 64) → Nat

/-- What an instruction of the test access port selects, by its bits, 0 identification, 1 bypass, 2 boundary scan, 3 an instrument network (R36
gives no encoding). Log entry 122. -/
opaque tapDecode : List Bool → Nat

/-- The bits that the test access port captures: of its instruction register under 4, else of the register that an instruction selects, by
the same numbers. Log entry 122. -/
opaque tapCapture : Nat → List Bool

/-- The 64-bit argument of MARKER's trace point, of its ring, SEQ and COUNT: R58 has it carry all three, and no rule lays them out in the one
64-bit word of R385. Log entry 135. -/
opaque markerArg : Nat → BitVec 32 → BitVec 32 → BitVec 64

/-- The rotation of a descriptor's slice positions in a packed window, by descriptor (R183 gives it no value). Log entry 11. -/
opaque rotation : Nat → Nat

end Sys2Proof.Config
end

