-- ==== Sys2Proof/Machine/Figures.lean ====
section
/-!
DEFINITION. The figures of Table 1, by member, and the architecture constants of Table 2 (R2, R3).
-/

namespace Sys2Proof.Machine

/-- CRH_ID.MEMBER (R434). -/
def Member.code : Member → Nat
  | .ce8 => 0 | .ce16 => 1 | .ce32 => 2 | .ce64 => 3 | .ce128 => 4

/-- Active slices S, which is also the active channel count C (Table 1). -/
def Member.slices : Member → Nat
  | .ce8 => 8 | .ce16 => 16 | .ce32 => 32 | .ce64 => 64 | .ce128 => 128

/-- Physical slices and physical channels (Table 1). -/
def Member.phys : Member → Nat
  | .ce8 => 9 | .ce16 => 17 | .ce32 => 34 | .ce64 => 66 | .ce128 => 132

/-- log2 of the active channel count, c of R267. -/
def Member.log2C : Member → Nat
  | .ce8 => 3 | .ce16 => 4 | .ce32 => 5 | .ce64 => 6 | .ce128 => 7

def Member.sorters : Member → Nat
  | .ce8 => 1 | .ce16 => 1 | .ce32 => 2 | .ce64 => 2 | .ce128 => 4

/-- Channel groups, which is also the number of slice groups and of couching pipes. -/
def Member.groups : Member → Nat
  | .ce8 => 1 | .ce16 => 2 | .ce32 => 4 | .ce64 => 8 | .ce128 => 16

def Member.tiers : Member → Nat
  | .ce8 => 4 | .ce16 => 4 | .ce32 => 8 | .ce64 => 8 | .ce128 => 8

/-- Usable Ground store in 16 MiB units (Table 1, CRH_CAP2.GS_USABLE). -/
def Member.usable : Member → Nat
  | .ce8 => 45 | .ce16 => 90 | .ce32 => 360 | .ce64 => 720 | .ce128 => 1440

def Member.fabPorts : Member → Nat
  | .ce8 => 1 | .ce16 => 2 | .ce32 => 2 | .ce64 => 4 | .ce128 => 4

def Member.cxlPorts : Member → Nat
  | .ce8 => 1 | .ce16 => 1 | .ce32 => 2 | .ce64 => 2 | .ce128 => 2

def Member.pciePorts : Member → Nat
  | .ce8 => 1 | .ce16 => 1 | .ce32 => 1 | .ce64 => 2 | .ce128 => 2

def Member.drives : Member → Nat
  | .ce8 => 8 | .ce16 => 8 | .ce32 => 8 | .ce64 => 16 | .ce128 => 16

def Member.nvmeSlots : Member → Nat
  | .ce8 => 8192 | .ce16 => 8192 | .ce32 => 16384 | .ce64 => 32768 | .ce128 => 32768

/-- Rings, descriptor and completion together (Table 1, R43). -/
def Member.rings : Member → Nat
  | .ce8 => 8192 | .ce16 => 16384 | .ce32 => 32768 | .ce64 => 65536 | .ce128 => 131072

def Member.msix : Member → Nat
  | .ce8 => 256 | .ce16 => 512 | .ce32 => 1024 | .ce64 => 2048 | .ce128 => 2048

def Member.bobbins : Member → Nat
  | .ce8 => 1024 | .ce16 => 2048 | .ce32 => 4096 | .ce64 => 6144 | .ce128 => 8192

def Member.replMax : Member → Nat
  | .ce8 => 1 | .ce16 => 2 | .ce32 => 4 | .ce64 => 8 | .ce128 => 16

def Member.domains : Member → Nat
  | .ce8 => 20 | .ce16 => 22 | .ce32 => 25 | .ce64 => 32 | .ce128 => 40

/-- Pockets per channel, NP of Table 77. -/
def Member.pockets : Member → Nat
  | .ce8 => 23040 | .ce16 => 23040 | .ce32 => 46080 | .ce64 => 46080 | .ce128 => 46080

/-- Bobbin grant per slice and round, G of R185. -/
def Member.grant : Member → Nat
  | .ce64 => 96 | .ce128 => 64 | _ => 128

/-- PCI device identification (Table 127). -/
def Member.device : Member → Nat
  | .ce8 => 0x7C08 | .ce16 => 0x7C10 | .ce32 => 0x7C20 | .ce64 => 0x7C40 | .ce128 => 0x7C80

/-- Reset value of CRH_PART_CFG.SCRATCH: one eighth of usable, rounded up (R127). -/
def Member.scratch0 (m : Member) : Nat := (Member.usable m + 7) / 8

/-- Reset value of WIN_UNITS and of SPOOL_UNITS: one third of the reset SCRATCH, rounded down (R168, R206). -/
def Member.win0 (m : Member) : Nat := Member.scratch0 m / 3

/-- Reset of CRH_PWR_STAT.GATED: every slice group of the member is gated (R376). -/
def Member.gated0 (m : Member) : List Nat := List.range (Member.groups m)

end Sys2Proof.Machine
end

