-- ==== Sys2Proof/Machine/State.lean ====
section
/-!
DEFINITION. The state of the block as plain data: registers, rings, queues, caches, Ground store, engines, management, and the
commands that wait. The state after reset is `State.reset`: the moment of power-on, before POWER_GOOD (R373, Table 102).
-/

namespace Sys2Proof.Machine

/-- Why a step stops with a fault. The spec names no condition in which the block stops without an effect, so there is none. -/
inductive Fault where
  deriving DecidableEq, Repr

/-- Why a command has no meaning. -/
inductive Refusal where
  /-- Raised only by an arm of `exec` whose command has no meaning yet; it stops the run, which is safe. -/
  | notModelled (mnemonic : String)
  deriving DecidableEq, Repr

/-! ## Rings, descriptors, completions (chapter 3) -/

/-- Ring types (Table 16, TYPE). -/
inductive RingType where
  | hostDesc | nearDesc | hostCpl | nearCpl
  deriving DecidableEq, Repr

/-- Ring states (Table 17). -/
inductive RingState where
  | disabled | active | paused | pausedHost | error | draining | portDown
  deriving DecidableEq, Repr

/-- The live state of one ring: its entry's fields (Table 16), its indices and what hangs on it (R45, R71, R75). -/
structure Ring where
  state     : RingState := .disabled
  hostFrom  : RingState := .disabled
  typ       : RingType := .hostDesc
  base      : Nat := 0
  log2      : Nat := 6
  home      : Nat := 0
  ord       : Bool := false
  dbMode    : Bool := false
  stripeOk  : Bool := false
  inOrder   : Bool := false
  ctx       : Nat := 0
  cplRing   : Nat := 0
  vector    : Nat := 0
  irqEn     : Bool := false
  modCount  : Nat := 0
  modTime   : Nat := 0
  weight    : Nat := 0
  consWb    : Nat := 0
  idx       : BitVec 32 := 0       -- CONS_IDX, or PROD_IDX of a completion ring
  pub       : BitVec 32 := 0       -- last index software published
  nextSeq   : BitVec 32 := 0
  doneSeq   : BitVec 32 := 0
  doneAhead : List (BitVec 32) := []  -- completed SEQ values above an open one (R82)
  errSeq    : BitVec 32 := 0
  errStatus : BitVec 8 := 0
  resv      : Nat := 0             -- completion slots reserved (R71)
  wbSince   : Nat := 0             -- slots consumed since CONS_IDX was last written (R46)
  turn      : Nat := 0             -- slots of the read in flight (R452); 0 is none
  turnAt    : List Nat := []       -- fabric ports by which a near ring's reads in flight left (R24, R66)
  half      : Option (Bytes × Bytes) := none  -- first slot of a picot whose second slot is being read, with its extension (R452)
  unsig     : Nat := 0             -- records since the last interrupt (R75)
  unseen    : Nat := 0             -- LU7: descriptors whose results are not yet known visible (R79)
  deriving DecidableEq, Repr

/-- A held eyelet line (R60, R61): the port it is held through, whether its copy is valid, its words as last read, the IOVA of the
line in the array it was taken from (R59), and whether a snoop caused the re-read in flight (R62). -/
structure EyeLine where
  port    : Nat
  valid   : Bool
  words   : List Word64
  addr    : Nat := 0
  snooped : Bool := false
  fresh   : List Nat := []         -- words to be compared with the index held for their ring, not with the word last read (R52)
  deriving DecidableEq, Repr

/-- Where a descriptor stands. -/
inductive Stage where
  | queued        -- read and queued, no completion space yet (R450)
  | headWait      -- reserved; waits at its ring head for a park entry (R102)
  | parked        -- waits in the fault park (R102)
  | ready         -- past the front end; its opcode's command may run it
  | window        -- in the window queue or on a sorter
  | pooling       -- its window is sorted; rows are fetched and pooled
  | reserve       -- waits in the couching intake queue for pillow space (R243)
  | scatter       -- holds its pillow reservation
  | remote        -- local contributions accepted; waits for batch acknowledgements (R244)
  | applying      -- an APPLY whose rows are not all written (R251)
  | bulk          -- in the bulk mover (R326)
  | filling       -- its NVMe Writes or Flushes have not completed (R142, R335)
  | waiting       -- a FENCE, WAIT or SWITCH whose condition does not hold yet
  | finished      -- its outcome is settled; its record is not yet written
  | heldRec       -- finished, and its record is held for a lost port (R85)
  | replay        -- marked for replay (R86)
  deriving DecidableEq, Repr

/-- The kinds of range of Table 29, and the address whose segment an ADVISE needs (R113). -/
inductive RangeKind where
  | input | result | bulkSrc | bulkDst | xlate | advise
  deriving DecidableEq, Repr

/-- A piece of a pricked range within one segment (R95): its offset and length, the target address of its first byte, and the
segment's rights and PINNED bit. -/
structure Piece where
  off    : Nat
  len    : Nat
  target : Nat
  sg     : Nat                      -- the segment's number
  r      : Bool
  w      : Bool
  pinned : Bool
  deriving DecidableEq, Repr

/-- One pricked range (R98): its virtual start and length; once its segments are found, its pieces and whether they are FABRIC;
how many of its pages the transfer has passed (R100), or PREFETCH XLATE has translated; the offsets of pages that came back without
their permission, and of those that a page request has named (R103); and where its first faulting byte lies, with the fault's
status, once known (R105). -/
structure Range where
  kind   : RangeKind
  va     : Word64
  len    : Nat
  seg    : Bool := false            -- its segments have been found
  pieces : List Piece := []
  fabric : Bool := false
  upto   : Nat := 0
  sent   : Nat := 0                 -- bytes that the transfer has passed, in address order
  lack   : List Nat := []
  pri    : List Nat := []
  miss   : Bool := false            -- its segment look-up has missed (R114)
  asked  : List Nat := []           -- PREFETCH XLATE: offsets of pages that have been asked for (R114)
  known  : Bool := false
  fault  : Option (Nat × BitVec 8) := none
  deriving DecidableEq, Repr

/-- A descriptor that has been read from its ring. -/
structure Desc where
  id      : Nat
  ring    : Nat
  raw     : Bytes
  ext     : Bytes := []
  stage   : Stage := .queued
  resv    : Nat := 0               -- completion slots it holds (R71)
  ties    : Bool := false          -- TIES_EVEN as queued (R89, R193)
  clsS    : Bool := false          -- class S context
  ranges  : List Range := []
  waited  : Bool := false          -- counted in CPL_SPACE_WAIT
  mirror  : Bool := false          -- waits for its context's mirror block (R96)
  seen    : Bool := false          -- that block has been read for it, and its segments are in the cache
  ats     : Bool := false          -- waits for an ATS translation completion
  askR    : Nat := 0               -- the range whose pages that request names
  askP    : List Nat := []         -- the offsets of those pages
  ioOther : Bool := false          -- CXL.io result writes have gone to the other port (R78)
  stamp   : Nat := 0               -- admission stamp (R156)
  bank    : Bool := false          -- rescale bank bound (R215)
  bound   : Bool := false          -- it is bound to that bank
  binds   : List (Nat × Nat) := [] -- versions it references, as (table, version) (R137)
  status  : BitVec 8 := 0
  flags   : BitVec 16 := 0
  ver     : BitVec 16 := 0
  digest  : BitVec 32 := 0
  done    : Nat := 0
  detail  : Nat := 0
  info    : Word64 := 0
  inl     : Bytes := []            -- inline result
  need    : Nat := 0               -- bytes a waiting reservation asks for
  lost    : Nat := 0               -- contributions not confirmed or lost
  fwd     : Nat := 0               -- contributions forwarded
  late    : Nat := 0               -- contributions taken in late
  rejects : Nat := 0               -- contributions a home refused
  overflow : Bool := false         -- an OVERFLOW event reached it (R194)
  sat     : Nat := 0               -- saturated elements (R225)
  under   : Nat := 0               -- underflowed elements (R225)
  wide    : Nat := 0               -- bags written wide (R224)
  ranged  : Bool := false          -- a class S bag met the scale-range condition
  stalled : Nat := 0               -- the wait point at which FLOW_STALL was written for it, 0 none (R351)
  told    : Bool := false          -- its 1 ms event has been written
  pillowed : Bool := false         -- counted in PILLOW_WAIT
  listed  : Bool := false          -- a scatter had claimed the lists it kept as it was marked for replay (R86, R236)
  deriving DecidableEq, Repr

/-- The queue front end: rings, eyelet lines, announced rings, held overrun records, descriptors, fault park. -/
structure FrontEnd where
  rings     : SMap Ring := []
  lines     : SMap EyeLine := []
  announced : List Nat := []
  overruns  : List Nat := []       -- descriptor rings whose RING_OVERRUN record is held, in order raised (R451)
  descs     : List Desc := []      -- oldest first
  nextId    : Nat := 0
  park      : List Nat := []       -- fault park, at most 256 (R102)
  stamp     : Nat := 0             -- next admission stamp
  deriving DecidableEq, Repr

/-! ## Contexts and translation (chapter 4) -/

/-- A segment-cache entry (R96, Table 26), most recently used first in its list. -/
structure SegEntry where
  ctx    : Nat
  seg    : Nat
  start  : Nat
  len    : Nat
  base   : Nat
  r      : Bool
  w      : Bool
  a      : Bool
  fabric : Bool
  pinned : Bool
  beneath : List (Nat × Nat × Nat) := []  -- lower-numbered valid segments that overlap it: number, start, length (R92)
  deriving DecidableEq, Repr

/-- A translation-cache entry (R99). -/
structure XEntry where
  port  : Nat
  pasid : Nat
  iova  : Nat
  log2  : Nat
  r     : Bool
  w     : Bool
  hpa   : Nat := 0                 -- host physical address of its first byte
  pins  : List Nat := []           -- descriptors that pin it
  stale : Bool := false            -- marked by an Invalidate Request (R108)
  old   : Bool := false            -- dropped by EN or a hand-over, and kept for the descriptors that pin it (R90, R419)
  ahead : Bool := false            -- filled by run-ahead (R111)
  deriving DecidableEq, Repr

/-- An Invalidate Request at work (R108): which descriptors still have transfers through stale entries. -/
structure Inval where
  port  : Nat
  tag   : Nat
  pasid : Nat
  iova  : Nat
  len   : Nat
  waits : List Nat
  deriving DecidableEq, Repr

/-- An advised sequential range (R113), oldest first in its list. -/
structure Advised where
  ctx   : Nat
  va    : Nat
  len   : Nat
  ended : Bool := false            -- its run-ahead stopped at a dropped page (R111)
  deriving DecidableEq, Repr

/-- A translation run-ahead request in flight (R111). -/
structure Ahead where
  id    : Nat
  ctx   : Nat
  port  : Nat
  pasid : Nat
  va    : Nat
  iova  : Nat
  pages : Nat
  needR : Bool
  needW : Bool
  deriving DecidableEq, Repr

/-- Translation state. -/
structure Translation where
  segs      : List SegEntry := []
  xc        : List XEntry := []
  pri       : List (Nat × Nat) := []  -- page requests outstanding: (descriptor, count)
  priStop   : List Nat := []       -- functions on which page requests are stopped (R103)
  invals    : List Inval := []
  advised   : List Advised := []
  ahead     : List Ahead := []
  drvFault  : List Nat := []       -- driver structures whose translation fails (R107): 0 ring table, 1 eyelet array, 2 mirror, 3 + k ring k
  drain     : Option (Nat × Nat × List Nat) := none  -- INVAL_DRAIN: context, mask, descriptors waited for (R97)
  mirror    : List (Nat × Nat) := []  -- contexts whose mirror block read is in flight, with its port
  mirrorOld : List (Nat × Nat) := []  -- reads before an INVAL, whose blocks are discarded as they return (R97)
  deriving DecidableEq, Repr

/-! ## Tables (chapter 5) -/

/-- Grades (Table 33). -/
inductive Grade where
  | fp32 | bf16 | fp8 | int8 | int4
  deriving DecidableEq, Repr

/-- Update rules (Table 34). -/
inductive Rule where
  | none | add | sgd | momentum | adagradRow | adagradElem | adam
  deriving DecidableEq, Repr

/-- A popularity band (Table 32). -/
structure Band where
  thresh : Nat
  grade  : Grade
  direct : Bool
  deriving DecidableEq, Repr

/-- Version states (Table 36); a retired version is not listed. -/
inductive VerState where
  | staged | current | retiring
  deriving DecidableEq, Repr

/-- A live version (R134): its backing, and how far its retirement has gone (R138). -/
structure Version where
  ver      : Nat
  state    : VerState
  base     : Nat := 0              -- tier-1 backing IOVA, or first block of tier 2 (R125, R142)
  nsid     : Nat := 0
  begun    : Bool := false         -- it has begun to retire (R136)
  swept    : Bool := false         -- step 2 of R138 is done
  written  : Nat := 0              -- rows written back by its retirement (R149)
  flush    : Bool := false         -- its retirement waits for a Flush (R335)
  stalled  : Bool := false         -- RETIRE_STALLED written
  poisoned : Bool := false         -- the whole version is poisoned (R416)
  deriving DecidableEq, Repr

/-- A defined table (Table 32), its live versions and its apply epoch A (R232). -/
structure Table where
  rows     : Nat
  dim      : Nat
  grade    : Grade
  upd      : Bool
  rule     : Rule
  gimp32   : Bool
  backTier : Nat
  readAny  : Bool
  skew     : Nat
  ctx      : Nat
  bands    : List Band
  next     : Option (List Band) := none -- bands that a BANDS has given, in force from the next aging period (R146)
  versions : List Version := []
  dirBad   : Bool := false         -- both copies of its directory entry failed (Table 118)
  deriving DecidableEq, Repr

/-- A pinned extent (R128): rows first to first + count − 1 at a byte offset of the pinned partition, and those placed. -/
structure Extent where
  tbl    : Nat
  ver    : Nat
  first  : Nat
  count  : Nat
  grade  : Grade
  off    : Nat
  placed : List Nat := []
  dirty  : List Nat := []          -- placed rows whose master record is dirty
  torn   : List Nat := []          -- rows placed until their bank's contents went, to be recovered from backing (R302)
  deriving DecidableEq, Repr

/-- A regrade that waits in its couching pipe (R133). -/
structure Regrade where
  key  : Key
  ver  : Nat
  band : Nat
  deriving DecidableEq, Repr

/-- Tables state. -/
structure Tables where
  tables   : SMap Table := []
  epochs   : SMap (BitVec 32) := []   -- apply epochs A by table (R232)
  extents  : List Extent := []
  regrades : List Regrade := []
  cache    : List Nat := []            -- handles whose records the table cache holds, most recently used first, at most 2,048 (R116)
  deriving DecidableEq, Repr

/-! ## Bobbinet, pooling, quantiser (chapters 6 to 8) -/

/-- A pair list entry (Table 44). -/
structure Pair where
  u    : Nat
  bag  : Nat
  mult : Nat
  deriving DecidableEq, Repr

/-- A descriptor inside a window: the tables as they stood at its admission (R152, R156), then its keys with their bags and
weights as taken in, then its lists (R160 to R162). -/
structure Member' where
  id    : Nat
  snap  : SMap Table := []
  fwd   : SMap Word64 := []         -- forward entries as they stood then (R263)
  count : Nat := 0                  -- COUNT
  keys  : List (Option Key) := []   -- widened keys in key-list order; none is the null key
  bags  : List Nat := []            -- bag of each key
  wgts  : List F32 := []
  uniq  : List Key := []
  uver  : List Nat := []            -- bound version of each unique row
  pairs : List Pair := []
  inv   : List (Option Nat) := []   -- pair of each key position; none is NULL
  seen  : Bool := false             -- the run-ahead scanner has read its keys (R166)
  deriving DecidableEq, Repr

/-- A window in the window queue or on a sorter (R154, R157). -/
structure Window where
  wid       : Nat
  packed    : Bool
  members   : List Member'
  reserved  : Bool := false         -- its window-area reservation is made (R158)
  passed    : Nat := 0              -- later windows started ahead of it (R157)
  restarted : Bool := false         -- restarted once after a parity error (R167)
  retake    : Bool := false         -- its key lists are to be taken in again for that
  told      : Bool := false         -- IMAP_FULL written
  waited    : Bool := false         -- counted in RESV_WAIT
  deriving DecidableEq, Repr

/-- A row in staging or spool: the copy read, its grade, and whether a later round needs it from the spool (R185 to R187). -/
structure Staged where
  key   : Key
  ver   : Nat
  grade : Grade
  data  : Bytes
  deriving DecidableEq, Repr

/-- A drained tile's sums, bag by bag; the flag tells an infinity that came from an overflowing rounding (R194). -/
structure Part where
  pos  : Nat
  tile : Nat
  sums : List (List (F32 × Bool))
  deriving DecidableEq, Repr

/-- A descriptor being pooled. -/
structure Pooled where
  mem    : Member'
  log2k  : Nat := 0                 -- split of its bags (R183)
  pos0   : Option Nat := none       -- first position of a named tile, once granted (R199)
  rot    : Nat := 0                 -- rotation of its positions in a packed window (R183)
  drained : List (Nat × Nat) := []  -- tiles drained, by position and tile
  parts  : List Part := []          -- drained parts of split bags
  wrote  : Nat := 0                 -- result bytes delivered so far
  cut    : Option (Nat × BitVec 8) := none  -- fault on DST: first byte not written, status
  failed : List (Key × BitVec 8) := []      -- unique rows that could not be read (R337)
  closed : Bool := false            -- it no longer pools (reset, aborted or failed)
  deriving DecidableEq, Repr

/-- What a bobbin waits on (R12): the (channel, bank) pairs that hold a copy in Ground store, a host port, or a landed block. -/
inductive Wait where
  | bank (at' : List (Nat × Nat))
  | port (p : Nat)
  | drive                            -- its tier-2 block has not landed (R13)
  deriving DecidableEq, Repr

/-- A row that a window has asked for: its version, what its bobbin waits on, the slice position whose grant it takes, the copy
read when its bobbin issued, if that is in Ground store, and the way it is read from (R130, R186); in which cap's queue it waits, 1 a bank's,
2 a channel's, 3 a port's (R346); and how often it is fetched again after an error, which is a recovery and not a fetch (R205, R350). -/
structure Ask where
  key : Key
  ver : Nat
  on  : Wait
  pos : Nat := 0
  got : Option (Grade × Bytes) := none
  way : Option (Nat × Nat × Nat) := none
  held : Nat := 0
  again : Nat := 0
  deriving DecidableEq, Repr

/-- A row that a round needs: its version, the slice positions that need it, ascending, and its planned size (R185). -/
structure Need where
  key  : Key
  ver  : Nat
  poss : List Nat
  size : Nat
  deriving DecidableEq, Repr

/-- A sorted window: spool, rounds and rows (R185 to R188). -/
structure PWin where
  wid     : Nat
  members : List Pooled
  slices  : Nat                     -- slice positions it is placed over
  spool   : Nat := 0                -- bytes it needs
  placed  : Bool := false           -- its rounds and its spool are planned
  granted : Bool := false           -- its spool is reserved
  passed  : Nat := 0
  told    : Bool := false           -- SPOOL_FULL written
  waited  : Bool := false           -- counted in SPOOL_WAIT
  packed  : Bool := false
  plan    : List (List Need) := []  -- the rows of each round, in fetch order
  round   : Nat := 0                -- rounds begun
  asked   : List Ask := []          -- rows whose bobbins have issued, not yet delivered
  capped  : List Ask := []          -- rows that wait for a bobbin, in fetch order (R346)
  staged  : List Staged := []
  deriving DecidableEq, Repr

/-- A tile that holds a hoop of a slice, from its row block's admission to its drain (R14, R184, R195). -/
structure Hoop where
  pos  : Nat
  wid  : Nat
  id   : Nat
  tile : Nat
  deriving DecidableEq, Repr

/-- A set of kept lists (R164), named by ring and SEQ. -/
structure Kept where
  ring     : Nat
  seq      : BitVec 32
  ctx      : Nat
  dim      : Nat
  bags     : Nat
  pool     : Nat
  epoch    : BitVec 32
  chain    : Bool                    -- the lookup belonged to a held-tile chain (R238)
  weighted : Bool
  uniq     : List Key
  uver     : List Nat
  pairs    : List Pair
  inv      : List (Option Nat)       -- inverse map
  nbag     : List Nat                -- non-null keys of each bag
  coefs    : List F32
  bytes    : Nat                     -- window area it holds
  claimed  : Option Nat := none      -- the scatter that claimed it (R236)
  release  : Bool := false           -- CRH_IMAP_REL waits for that scatter (R167)
  deriving DecidableEq, Repr

/-- A named tile (R196 to R200): its owner, and what it holds between the descriptors of a chain. -/
structure NamedTile where
  owner  : Nat
  held   : Bool := false
  bags   : Nat := 0
  dim    : Nat := 0
  pool   : Nat := 0
  acc    : List (List (F32 × Bool)) := []
  counts : List Nat := []
  digest : BitVec 32 := 0
  pos    : Option Nat := none
  release : Bool := false            -- CRH_TILE_REL waits for the descriptor pooling (R200)
  broken : Bool := false             -- its hoop was lost: the next descriptor fails (Table 118)
  deriving DecidableEq, Repr

/-- Bobbinet and pooling state. -/
structure SortPool where
  open'    : Option Window := none
  queue    : List Window := []       -- window queue, at most 256
  sorters  : SMap Window := []       -- by sorter
  pwins    : List PWin := []         -- in the order in which their sorts completed
  kept     : List Kept := []
  tiles    : SMap NamedTile := []
  hoops    : List Hoop := []         -- hoops that tiles hold, in the order in which the tiles opened; a held tile's is not listed
  nextWid  : Nat := 0
  scanned  : List Key := []          -- most recently scanned keys, at most 4,096 (R166)
  raRows   : List (Key × Nat) := []  -- run-ahead rows that landed and no window has fetched yet
  resvd    : SMap Nat := []          -- window area reserved, by descriptor
  deriving DecidableEq, Repr

/-- A class S context's drift window (R226). -/
structure Drift where
  elems    : Nat := 0
  sat      : Nat := 0
  under    : Nat := 0
  satTold  : Bool := false
  underTold : Bool := false
  win      : Nat := 0x18
  satLim   : Nat := 0x400
  underLim : Nat := 0x10000
  deriving DecidableEq, Repr

/-- Rescale banks (R215) and drift windows. -/
structure Quant where
  bankA    : List F32 := List.replicate 1024 0x3F800000#32
  bankB    : List F32 := List.replicate 1024 0x3F800000#32
  active   : Bool := false           -- false: bank A is active
  shadowOk : Bool := false           -- SHADOW_VALID
  loading  : Option Bytes := none    -- a LOAD that waits for descriptors bound to the shadow bank (R216)
  drift    : SMap Drift := []
  deriving DecidableEq, Repr

/-! ## Updates (chapter 9) -/

/-- A merge-cache or pillow entry: the sums of one (table, version, row, epoch) (R232). -/
structure Entry where
  tbl   : Nat
  ver   : Nat
  row   : Nat
  epoch : BitVec 32
  sums  : List F32
  n     : Nat                        -- contributions merged in it
  lostN : Nat := 0                   -- contributions that were lost with its sums (R261)
  late  : Bool                       -- it took in a contribution late
  deriving DecidableEq, Repr

/-- A dirty master record's twin (R256, R268): the logical channel it lies on and its bytes. -/
structure Twin where
  key  : Key
  ver  : Nat
  ch   : Nat
  data : Bytes
  n    : Nat := 0                    -- contributions applied to the record since its last write-back (R261)
  deriving DecidableEq, Repr

/-- An optimiser parameter set (R252). -/
structure PSet where
  lr  : F32 := 0
  wd  : F32 := 0
  b1  : F32 := 0
  b2  : F32 := 0
  eps : F32 := 0
  deriving DecidableEq, Repr

/-- An APPLY at work (R249, R251): the rows still to be written, with the derived values it read at its start (R252). -/
structure Apply where
  id     : Nat
  tbl    : Nat
  epoch  : BitVec 32
  rows   : List (Nat × Nat)          -- (version, row)
  lr     : F32
  wdlr   : F32                       -- LRWD
  b1     : F32
  b2     : F32
  eps    : F32
  c1     : F32
  c2     : F32
  lrt    : F32
  ties   : Bool
  done   : Nat := 0
  contribs : Nat := 0
  nonfin : Nat := 0
  first  : Option (Nat × Nat) := none -- first row with an infinity or NaN
  lost   : Nat := 0
  late   : Bool := false
  deriving DecidableEq, Repr

/-- A batch arriving from a peer (R241). -/
structure InBatch where
  sender : BitVec 16
  batch  : BitVec 32
  msgs   : List ContribMsg           -- in arrival order
  taken  : Nat := 0                  -- messages, from the first, that have left the intake with their pillow entries reserved (R345)
  resv   : Nat := 0                  -- bytes of pillow reserved for them
  whole  : Nat := 0                  -- MSGS of its LAST message, 0 before it arrives
  port   : Nat := 0
  bad    : Bool := false             -- one of its messages was dropped in error
  deriving DecidableEq, Repr

/-- A batch sent to a home (R241), not yet acknowledged. -/
structure OutBatch where
  batch : BitVec 32
  id    : Nat
  count : Nat
  node  : BitVec 16
  ports : List Nat := []             -- fabric ports by which its messages have left
  deriving DecidableEq, Repr

/-- A read-modify-write that waits for twin space (R258) or for a way or data area (R278). -/
structure RmwWait where
  tbl  : Nat
  ver  : Nat
  row  : Nat
  data : Bytes                       -- the backing record it read
  way  : Bool                        -- waits for a way, else for twin space
  told : Bool := false
  deriving DecidableEq, Repr

/-- Update state. -/
structure Updates where
  merge   : List Entry := []
  pillow  : List Entry := []
  intake  : List Nat := []           -- scatters that wait for pillow space, in queue order (R243)
  sorted  : List Member' := []       -- ROWS-form scatters with their lists, from the end of their sort to their completion (R239)
  resv    : SMap Nat := []           -- pillow bytes reserved, by descriptor
  applies : List Apply := []
  twins   : List Twin := []
  oldTwins : List Twin := []         -- twins of migrated rows, while bobbins read the rows' old slots (R284)
  psets   : SMap PSet := []
  inb     : List InBatch := []
  inq     : List (BitVec 16 × BitVec 32) := []  -- remote intake: the batch of each message it holds, in arrival order (R345)
  outb    : List OutBatch := []
  nextBatch : BitVec 32 := 0
  waits   : List RmwWait := []
  wbFailed : List (Key × Nat) := []  -- master records whose last write-back failed (R276, R454)
  deriving DecidableEq, Repr

/-! ## Row cache and skew (chapter 10) -/

inductive WayKind where
  | master | read | ghost
  deriving DecidableEq, Repr

/-- A way that is not FREE (Table 72); its slot's bytes lie in Ground store. -/
structure Way where
  ch     : Nat
  set    : Nat
  way    : Nat
  key    : Key
  ver    : Nat
  freq   : Nat
  pocket : Nat := 0
  slot   : Nat := 0
  grade  : Grade := .fp32
  kind   : WayKind
  dirty  : Bool := false
  dn     : Bool := false
  repl   : Nat := 0
  size   : Nat := 0                  -- slot size in bytes; 0 for a ghost
  readers : Nat := 0                 -- bobbins reading its slot (R276)
  band   : Nat := 0                  -- the band in which the row stands, in the ways of its copies (R129)
  leaving : Nat := 0                 -- dropped while bobbins read its slot (R284, R287): 1 to be freed, 2 to become a ghost
  deriving DecidableEq, Repr

/-- What a redirect entry says (R284, R285). -/
inductive RedirKind where
  | migrated (target : Nat)
  | replicated (h n : Nat)
  deriving DecidableEq, Repr

/-- A redirect entry (R289). -/
structure Redir where
  key  : Key
  ver  : Nat
  kind : RedirKind
  low  : Nat := 0                    -- consecutive intervals in which n was the smaller `lowN` (R288)
  lowN : Nat := 0
  deriving DecidableEq, Repr

/-- A migration or replication whose copies are being written (R284, R285). -/
structure Move where
  key  : Key
  ver  : Nat
  kind : RedirKind
  deriving DecidableEq, Repr

/-- A tracker entry (R282). -/
structure Track where
  ch    : Nat
  key   : Key
  ver   : Nat
  lines : Nat
  deriving DecidableEq, Repr

/-- A channel's load (R281): this interval's lines and bank cycles, and the last interval's figures. -/
structure Load where
  lines    : Nat := 0
  banks    : SMap Nat := []          -- bank cycles used, by bank
  lastLines : Nat := 0
  lastBusy : Nat := 0
  hot      : Bool := false
  run      : Nat := 0                -- HOT_RUN
  deriving DecidableEq, Repr

/-- Cache and skew state. -/
structure Cache where
  ways     : List Way := []
  heads    : List (Nat × Nat × Bool) := []  -- head cache: (channel, set, changed), most recent first (R272)
  reclaim  : SMap Nat := []          -- reclaim pointer, by channel (R277)
  sketch   : SMap Nat := []          -- 4-bit counters, keyed by group, row and index (R274)
  tracker  : List Track := []
  loads    : SMap Load := []
  redir    : List Redir := []
  moves    : List Move := []
  refused  : Nat := 0                -- actions refused since the last REDIR_FULL
  fullTold : Bool := false           -- REDIR_FULL written in this aging period
  ctlNow   : Word64 := 0x640021#64   -- CRH_CACHE_CTL as in force since the last aging sweep (R292; log entry 113)
  skewNow  : Word64 := 0x410324B960A01#64  -- CRH_SKEW_CTL as in force in this interval (R292; log entry 113)
  deriving DecidableEq, Repr

/-! ## Ground store (chapter 11) -/

/-- Physical channel states (Table 81). -/
inductive PhysState where
  | absent | training | active | copyOut | spare | copyIn | offline | failed
  deriving DecidableEq, Repr

/-- A physical channel. -/
structure Phys where
  state   : PhysState := .absent
  band    : Nat := 0                 -- band that temperature gives
  step    : Bool := false            -- a retention step is in force (R305)
  throttle : Nat := 0
  temp    : Nat := 0                 -- group temperature in quarter degrees
  tgErrors : Nat := 0                -- CRH_GS_TG_STAT
  tgDone  : Bool := false
  tgPass  : Bool := false
  tgTier  : Nat := 0
  tgBank  : Nat := 0
  tgLine  : Nat := 0
  fill    : Option Word64 := none    -- CRH_GS_TG_CFG, its direction apart, under which a test wrote the channel's lines (R311)
  row     : Nat := 0                 -- the array row that its next burst refreshes (R303)
  deriving DecidableEq, Repr

/-- A request in a bank queue (R301), oldest first in its list. `bank` is tier × 30 + logical bank. -/
structure Req where
  ch    : Nat
  bank  : Nat
  line  : Nat
  write : Bool
  born  : Nat                        -- the channel's clock when it arrived
  bobbin : Bool                      -- counts against the caps of R12
  deriving DecidableEq, Repr

/-- A channel's scheduler (R301): its clock, direction, runs, busy banks and due refresh burst. -/
structure Sched where
  clock   : Nat := 0
  writing : Bool := false
  batch   : Nat := 0
  tier    : Nat := 0
  run     : Nat := 0
  busy    : SMap Nat := []           -- bank to the clock at which it is free
  free    : Nat := 0                 -- the clock at which the channel is free
  burst   : Nat := 0                 -- the clock of its last burst
  ival    : Nat := 1066              -- the burst interval in force since then (Table 79)
  deriving DecidableEq, Repr

/-- A write-combining entry (R308): one line, its mask of 8-byte words, oldest first in its list. -/
structure WcEntry where
  ch   : Nat
  bank : Nat
  line : Nat
  mask : BitVec 32
  born : Nat
  out  : Bool := false               -- its read-merge-write is queued (R309)
  deriving DecidableEq, Repr

/-- A channel action in progress (R315, R317, R318). -/
structure ChCopy where
  lch  : Nat
  op   : Nat                         -- 1 REPLACE, 2 FOLD, 3 UNFOLD
  pch  : Nat                         -- the physical channel copied to (REPLACE, UNFOLD)
  readable : Bool := true            -- f's old channel can be read, so that there is a copy
  done : Nat := 0                    -- the copy pointer: lines of f, in pocket order, whose copying has begun (R315, R320)
  deriving DecidableEq, Repr

/-- Ground store state: contents by logical address, channels, maps, queues, repair. -/
structure Ground where
  mem     : List Host.Cell := []     -- pinned and cached records, by logical address (canonical)
  phys    : SMap Phys := []          -- physical channels
  lmap    : SMap Nat := []           -- logical to physical channel
  folded  : List Nat := []           -- folded logical channels (R317)
  lost    : List Nat := []           -- logical channels in FAILED (R420)
  bankMap : SMap Nat := []           -- (physical channel, tier, logical bank) to physical bank (R296)
  rowMap  : SMap Nat := []           -- (physical channel, tier, physical bank, array row) to spare row
  rowUsed : SMap Nat := []           -- spare rows used, by (physical channel, tier, physical bank)
  bankUsed : SMap Nat := []          -- spare banks used, by (physical channel, tier)
  lostBanks : List Nat := []         -- (logical channel, tier, bank) marked lost (R302)
  queues  : List Req := []
  scheds  : SMap Sched := []
  wc      : List WcEntry := []
  wcWait  : List WcEntry := []       -- partial writes that wait for an entry (R308)
  copies  : List ChCopy := []
  due     : List (Nat × Bool) := []  -- channel actions triggered while core 3 was down: the channel, and whether it can be read (R302)
  retests : SMap Nat := []           -- logical channel to the physical channel that it left, which is to be retrained and tested (R315)
  deriving DecidableEq, Repr

/-! ## Bulk and flash (chapter 12) -/

/-- A bulk descriptor in the bulk mover (R326): the bytes moved so far, and the burst size it was handed over with. -/
structure Bulk where
  id    : Nat
  moved : Nat := 0
  burst : Nat
  deriving DecidableEq, Repr

/-- An NVMe admin command (Table 11): Identify of a structure (1 the controller, 2 its namespaces, 0 a namespace), Set Features of the number
of I/O queues, and Create and Delete of an I/O queue, by its number and its entries. -/
inductive AdminCmd where
  | identify (cns nsid : Nat)
  | setQueues (n : Nat)
  | createCq (queue size : Nat)
  | createSq (queue size : Nat)
  | deleteSq (queue : Nat)
  | deleteCq (queue : Nat)
  deriving DecidableEq, Repr

/-- Drive states (CRH_FL_DRV_STAT.STATE). -/
inductive DriveState where
  | absent | attaching | ready | refused | resetting | down
  deriving DecidableEq, Repr

/-- A drive. -/
structure Drive where
  state  : DriveState := .absent
  port   : Nat := 0
  nss    : List Nat := []            -- block namespace indices attached
  queues : Nat := 0                  -- I/O queue pairs
  qsize  : Nat := 0                  -- entries of each (R331)
  most   : Nat := 0                  -- its largest transfer in blocks, 0 where it names none (R334)
  nextQ  : Nat := 0                  -- the queue that takes the next command (R333)
  used   : Nat := 0                  -- slots held
  reason : Nat := 0
  fails  : Nat := 0                  -- failed controller resets in a row
  vwc    : Bool := false
  deriving DecidableEq, Repr

/-- A block namespace (R331). -/
structure Ns where
  drive  : Nat
  nguid  : Nat
  nsid   : Nat
  blocks : Nat
  valid  : Bool
  deriving DecidableEq, Repr

/-- What an NVMe command is for: the rows of a window, a FILL or FLUSH descriptor, a version's retirement, or a step that it began and
ended in (log entry 80). -/
inductive CmdFor where
  | window (wid : Nat)
  | desc (id : Nat)
  | retire (tbl ver : Nat)
  | step
  deriving DecidableEq, Repr

/-- An NVMe command (R332). `rows` are the rows it reads or writes, and `data` is a Write's data by row: a record, or none for what the
block holds as read from the drive. -/
structure NvCmd where
  tag    : Nat := 0
  drive  : Nat
  kind   : Nat                       -- 0 Read, 1 Write, 2 Flush
  ns     : Nat
  lba    : Nat
  blocks : Nat
  rows   : List (Key × Nat)
  own    : CmdFor
  data   : List (Nat × Option Bytes) := []
  issued : Bool := false             -- holds a slot
  waited : Bool := false             -- counted in FL_SLOT_WAIT
  tries  : Nat := 0
  aborting : Bool := false
  deriving DecidableEq, Repr

/-- A block that has landed for a window, in a landing block of the reserve (R334). -/
structure Landed where
  wid  : Nat
  ns   : Nat
  lba  : Nat
  data : Bytes
  deriving DecidableEq, Repr

/-- Bulk and flash state. -/
structure Flash where
  bulk    : List Bulk := []
  drives  : SMap Drive := []
  nss     : SMap Ns := []
  cmds    : List NvCmd := []
  nextTag : Nat := 0
  landed  : List Landed := []
  deriving DecidableEq, Repr

/-! ## Telemetry: counters, events, logs (chapters 13, 15, 16) -/

/-- A counter (R352). -/
structure Counter where
  count : Nat := 0
  half  : Bool := false
  sat   : Bool := false
  deriving DecidableEq, Repr

/-- An event: its code, its source ring, bytes 8 to 31 of its record (R69). -/
structure Event where
  code : BitVec 32
  ring : Option Nat := none
  data : Bytes                       -- 24 bytes
  deriving DecidableEq, Repr

/-- A log record (Table 108). -/
structure LogRec where
  ts   : BitVec 48
  core : Nat
  kind : Nat
  sev  : BitVec 3
  code : BitVec 16
  lseq : BitVec 32
  args : Bytes
  deriving DecidableEq, Repr

/-- Counters, event queue, logs, and the timestamp they carry. -/
structure Telem where
  ts       : BitVec 48 := 0
  counters : SMap Counter := []      -- by BAR0 offset
  latch    : List (Path × Nat × BitVec 32) := []  -- upper halves latched (R446)
  evtRing  : Word64 := 0             -- CRH_EVT_RING
  evq      : List Event := []        -- event queue, at most 256 (R424)
  logBase  : Word64 := 0x18          -- CRH_LOG_BASE
  logProd  : BitVec 32 := 0
  logCons  : BitVec 32 := 0
  logCtl   : Word64 := 0x11          -- CRH_LOG_CTL
  logUp    : Bool := false           -- the log core runs
  lseq     : BitVec 32 := 0
  lostLogs : Nat := 0                -- records dropped since space last returned (R383)
  ring     : List LogRec := []       -- records written to the host log ring, newest first
  waiting  : List LogRec := []       -- records that wait in windows 11 and 12 for the log core
  plogWait : List LogRec := []       -- records that wait to be programmed (R384)
  plog     : List LogRec := []       -- persistent log, newest first
  ibiOn    : Bool := false           -- the I3C target may raise in-band interrupts (R34)
  ibis     : List (BitVec 16) := []  -- in-band interrupts raised, newest first (R402)
  deriving DecidableEq, Repr

/-! ## Ports, clocks, power (chapters 2, 14) -/

/-- Fabric port status (Table 7). -/
inductive FabStatus where
  | absent | training | present | draining
  deriving DecidableEq, Repr

/-- A host or flash port (Table 129); a flash port's flit mode stands in `cache`, and `links` is its bifurcation (Table 10). -/
structure Port where
  up    : Bool := false
  width : Nat := 0
  rate  : Nat := 0
  cache : Bool := false
  links : Nat := 1
  deriving DecidableEq, Repr

/-- What a host function holds beside its header (R26, R28, Table 102): configuration registers as the host has written them, the entries of
its MSI-X table, and its AER status. -/
structure HostFn where
  config : SMap (BitVec 32) := []
  msix   : SMap (Nat × BitVec 32) := []
  aer    : BitVec 32 := 0
  deriving DecidableEq, Repr

/-- A fabric port: status, outbound credits returned by Larlyn (Table 6), and inbound request credits withheld (R23, R345). -/
structure Fab where
  status : FabStatus := .absent
  oreq   : Nat := 0
  orsp   : Nat := 0
  owed   : Nat := 0
  deriving DecidableEq, Repr

/-- The states of the test access port (IEEE 1149.1, R36). -/
inductive TapState where
  | testLogicReset | runTestIdle | selectDr | captureDr | shiftDr | exit1Dr | pauseDr | exit2Dr | updateDr
  | selectIr | captureIr | shiftIr | exit1Ir | pauseIr | exit2Ir | updateIr
  deriving DecidableEq, Repr

/-- What the test access port's instruction selects (R36): identification, bypass, boundary scan, an instrument network. -/
inductive TapInstr where
  | ident | bypass | boundary | instrument
  deriving DecidableEq, Repr

/-- The JTAG test port: its state, its instruction, and the bits of the instruction register and of the register that the instruction
selects, the next to leave on TDO first. -/
structure Tap where
  st    : TapState := .testLogicReset
  instr : TapInstr := .ident
  ir    : List Bool := []
  dr    : List Bool := []
  deriving DecidableEq, Repr

/-- How a message leaves the block (R22, R76, R101, R106, R107): on a fabric port, or on a host port under a PASID, as a translated
request or as an untranslated one. -/
inductive Route where
  | fabric (port : Nat)
  | host (port pasid : Nat) (translated : Bool)
  deriving DecidableEq, Repr

/-- How a write leaves (Tables 6 and 9, R28): a fabric message, a full line by ItoMWr or WOWrInvF, or a CXL.io write with or without
relaxed ordering. -/
inductive WKind where
  | message | itoMWr | wowrInvF | io (relaxed : Bool)
  deriving DecidableEq, Repr

/-- What the block sends out, in order. -/
inductive Output where
  | record (ring slot : Nat) (bytes : Bytes) (route : Route) (kind : WKind)  -- a completion record header or PAD, 32 bytes (R69)
  | payload (ring slot : Nat) (bytes : Bytes) (route : Route) (kind : WKind) -- the payload slots of an inline record (R68)
  | entry (ring : Nat) (bytes : Bytes) (addr : Nat) (route : Route)     -- bytes 32 to 63 of a ring table entry (R46)
  | cons (ring : Nat) (addr : Nat) (idx : BitVec 32) (route : Route)    -- CONS_IDX written (R46)
  | msix (port vector addr : Nat) (data : BitVec 32)  -- R75, with the address and data of the vector's table entry
  | rdShared (port line addr : Nat)                   -- Table 9
  | cleanEvict (port line addr : Nat)
  | snoopRsp (port line : Nat)                        -- R27
  | descRead (ring : Nat) (idx : BitVec 32) (slots addr : Nat) (route : Route)
  | mirrorRead (ctx addr : Nat) (route : Route)       -- R91, R96
  | atsReq (id : Nat) (port pasid iova pages : Nat)
  | pageReq (id port pasid : Nat) (pages : List (Nat × Bool × Bool × Bool))  -- a group: IOVA, read, write, last of each page (R103)
  | invalDone (port tag : Nat)                        -- R108
  | result (id : Nat) (addr : Nat) (bytes : Bytes) (route : Route) (kind : WKind)  -- result, spill or fill bytes written
  | flushRead (id port : Nat)                         -- zero-length read (R78)
  | read (id addr len : Nat) (route : Route)          -- source bytes read: key lists, weights, offsets, extension blocks, gradients, FILL
      -- and PIN sources, and bulk sources (R101, R326)
  | openBytes (id first len : Nat)                    -- bytes of a bulk destination that may or may not have been written (R328)
  | rowRead (key : Key) (ver : Nat) (addr : Nat) (route : Route)      -- tier-1 row read (R106)
  | rowWrite (key : Key) (ver : Nat) (addr : Nat) (bytes : Bytes) (route : Route)  -- tier-1 write-back (R256)
  | flash (drive tag kind ns lba blocks queue : Nat) (prp : List Nat)  -- NVMe command submitted, with its PRP list: the bytes of scratch that
      -- its blocks go to or come from (R333); queue 0 is the drive's admin queue
  | admin (drive : Nat) (cmd : AdminCmd)              -- an NVMe admin command (R32, R331)
  | blockWrite (drive tag ns lba : Nat) (rows : List (Nat × Option Bytes))  -- the data of an NVMe Write, row by row: a record that Ground
      -- store holds, or none for what the block held as it was read from the drive (R256)
  | contrib (port : Nat) (node : BitVec 16) (msg : ContribMsg) (bytes : Bytes)     -- R241, with its bytes (Table 65)
  | ack (port : Nat) (node : BitVec 16) (batch : BitVec 32) (accepted late dropped rejected : Nat) (bytes : Bytes)  -- Table 66
  | credit (port : Nat) (resp : Bool) (n : Nat)       -- inbound credits granted (R23)
  | fabStatus (port : Nat) (status : FabStatus)       -- Table 7
  | trace (head arg : Word64)                         -- a trace point's two words (R385)
  | regValue (off : Nat) (val : Word64)               -- a value read over BAR0
  | dbgDenied                                         -- the closed debug bus answers (R35)
  | backValue (ring : Nat) (val : Word64)             -- a visibility read-back's value (R65)
  | pmhAck (state : Nat)
  | stepReq                                           -- PMH_STEP_REQ raised
  | mbxWrite (addr : Nat) (bytes : Bytes) (route : Route)  -- a mailbox response, written over the path's buffer (R400)
  | i3c (bytes : Bytes)                               -- bytes the I3C target answers
  | i3cNak
  deriving DecidableEq, Repr

/-- Power states (Table 99). -/
inductive PState where
  | off | standby | p2 | p1 | p0
  deriving DecidableEq, Repr

/-- Ports, clocks, power and start-up. -/
structure Power where
  step     : Nat := 1                -- CRH_BOOT_STAT.STEP
  ready    : Bool := false
  fail     : Nat := 0
  readyMs  : Nat := 0
  lastReset : Nat := 0
  selvedge : Bool := true            -- the selvedge cells hold the boundary idle (R40)
  rails    : Bool := false           -- power-good has been seen
  tripped  : Bool := false           -- held in reset after a thermal trip
  pstate   : PState := .off
  held     : List Nat := []          -- PMH requests held, by target (R37, R367)
  closing  : Bool := false           -- an exchange to STANDBY is open until the descriptors in flight have completed (R365)
  off      : Option WbFails := none  -- an exchange to OFF is open until the fabric ports have drained (R24, R365), with the write-backs that fail
  raise    : Option (Nat × Startup) := none  -- a request that leaves OFF, held under PMH_EMERG (R367)
  waits    : Option (Startup × Bool) := none -- a start-up that waits for the reference, or for the grants of step 8 (R368, R375)
  byOff    : Bool := false           -- the block is in OFF after a PMH exchange (R365)
  emerg    : Bool := false
  stepReq  : Bool := false           -- PMH_STEP_REQ
  gated    : List Nat := []          -- gated slice groups, ascending
  refOk    : Bool := false
  refDrift : Bool := false
  refGone  : Bool := false           -- the reference is stopped
  refOff   : Bool := false           -- the reference is more than 500 ppm off (R362)
  aonBad   : Bool := false           -- PLL_AON has not locked (R363)
  aonOsc   : Bool := false           -- the always-on domain runs on the oscillator (R363)
  sp0      : Option Nat := none      -- domain served by PLL_SP0
  sp1      : Option Nat := none
  cxl      : SMap Port := []
  fns      : SMap HostFn := []       -- the functions of the host ports
  pcie     : SMap Port := []
  fab      : SMap Fab := []
  node     : Option (BitVec 16) := none
  fabOut   : List Output := []       -- outbound fabric requests that wait for a credit, oldest first (R17, R22, R195)
  fabRsp   : List Output := []       -- outbound fabric responses that wait for a credit, oldest first
  octal    : Bool := false           -- the boot flash runs in 8D-8D-8D (R33)
  tap      : Tap := {}
  cxlEnum  : Bool := false           -- the host functions have enumerated (R431)
  deriving DecidableEq, Repr

/-! ## Steta (chapter 15) -/

/-- Core states (CRH_STETA_STAT). -/
inductive CoreState where
  | off | boot | run | restart | retired
  deriving DecidableEq, Repr

/-- A boot control record (Table 109). -/
structure Bcr where
  gen    : BitVec 32
  active : Bool                      -- true: slot B
  trial  : Bool
  tries  : Nat
  prev   : Bool
  deriving DecidableEq, Repr

/-- An image: the fields of Table 111 that R388 checks, its length, and the chunks that IMG_STAGE has put into the slot. A slot that Steta has
not written yet has a header that passes (log entry 61). -/
structure Image where
  magic  : BitVec 32 := 0x475A4D4F
  fmt    : BitVec 16 := 1
  svn    : Nat := 0
  keyIdx : Nat := 0                  -- maker key hash that its public key matches, 4 for none
  len    : Nat := 12288
  body   : SMap Bytes := []          -- header, sections and what lies between, by offset (R387, R390)
  deriving DecidableEq, Repr

/-- An audit record (Table 112); PREV is computed from the record before it. -/
structure Audit where
  aseq   : Nat
  ts     : BitVec 48
  role   : Nat
  path   : Nat
  key    : Nat
  result : Nat
  action : Nat
  target : Nat
  data   : Bytes
  prev   : BitVec 384
  shipped : Bool                     -- written to the host log ring (R399)
  handed : Bool := true              -- the log core has taken its copy (R398)
  deriving DecidableEq, Repr

/-- A session on a path (R395). -/
structure Session where
  role : Role
  key  : Nat
  deriving DecidableEq, Repr

/-- A firmware action held by an emergency (R391): 0 activation, 1 commit. -/
structure Deferred where
  kind  : Nat
  since : BitVec 48
  deriving DecidableEq, Repr

/-- What a mailbox response says (Table 114). -/
inductive Says where
  | nothing
  | health (cores : List CoreState) (spareRole step spareSlices spareChs spareBanks : Nat) (emergency : Bool)
  | sensors (temps volts : List Nat) (refOk : Bool) (plls canaries : List Nat)  -- PLLs and canary sets that have failed, by number
  | logPos (prod cons : BitVec 32) (dropped page : Nat)
  | pages (recs : List LogRec)
  | audits (recs : List Audit)
  | head (aseq : Nat) (digest : BitVec 384)
  | nonce (n : BitVec 384)
  | diag (crashes : List (Nat × Word64 × Nat)) (retired : List Nat) (rowMap bankMap lmap : SMap Nat)
  deriving DecidableEq, Repr

/-- The last mailbox or I3C response of a path (R400, R402): its RESULT, what it says, and its bytes. -/
structure Reply where
  result : Nat
  body   : Says
  data   : Bytes
  deriving DecidableEq, Repr

/-- Steta state. -/
structure Steta where
  cores    : SMap CoreState := []
  times    : SMap (List (BitVec 48)) := []   -- restarts of each core, newest first (R394)
  spareRole : Nat := 7
  down     : List Nat := []          -- roles that stay down (R394)
  slotB    : Bool := false           -- running slot
  trial    : Bool := false
  recovery : Bool := false
  bcr      : Option Bcr := none      -- governing boot control record
  bcrOld   : Option Bcr := none      -- the other boot control record (R386)
  imgA     : Image := {}
  imgB     : Image := {}
  imgR     : Image := {}
  staging  : SMap Bytes := []        -- staging area, chunks by offset
  staged   : Bool := false           -- the inactive slot is programmed with the staged image
  watch    : Bool := false           -- an activation is under its 1 s watch (R390 step 4)
  deferred : Option Deferred := none
  audit    : List Audit := []        -- newest first
  aseq     : Nat := 0
  auditTold : Bool := false          -- AUDIT_FULL written
  instKey  : Option Bytes := none
  tokenCnt : Option (BitVec 32) := none
  token    : SMap Bytes := []        -- chunks of an enrolment token, by offset (R396)
  opKeys   : SMap Bytes := []
  sessions : List (Path × Session) := []
  nonces   : Nat := 0
  asked    : List Path := []         -- paths with a nonce outstanding
  refusals : List (Path × BitVec 48) := []   -- refused responses, newest first
  lockout  : List Path := []
  debug    : Nat := 0
  policy   : Word64 := 0             -- CRH_AUTH_POLICY in force
  flashPol : Word64 := 0             -- installer-limits area of boot flash
  makerCtl : Word64 := 0
  authWait : List (Path × Nat × Nat × Word64) := []  -- authority writes that wait for core 0
  waitCore : List Nat := []          -- commands that wait with GO at 1 for their serving core (R432), by register and path
  crashes  : List (Nat × Word64 × Nat) := []  -- crash records: core, pc, cause
  replies  : List (Path × Reply) := []
  temps    : List Nat := []          -- latest thermal readings, quarter degrees
  volts    : List Nat := []          -- latest voltage readings, mV
  lowRail  : SMap Nat := []          -- by rail, the consecutive samples in which it was out of tolerance
  deriving DecidableEq, Repr

/-- Fuses (R42, R388, R437). -/
structure Fuses where
  absent  : Bool := false
  member  : Member := .ce128
  stepping : BitVec 8 := 0x10
  serialLo : Word64 := 0
  serialHi : Word64 := 0
  svn     : Nat := 0                 -- anti-rollback counter C
  revoked : BitVec 4 := 0
  keyHash : List (BitVec 384) := List.replicate 4 0   -- maker key hashes
  fabMhz  : Nat := 2000
  deriving DecidableEq, Repr

/-- The I3C target (R34, R402). -/
structure I3c where
  dyn    : Option (BitVec 7) := none
  ibi    : BitVec 8 := 0             -- in-band interrupt events enabled
  mwl    : BitVec 16 := 256
  mrl    : BitVec 16 := 256
  rst    : BitVec 8 := 0
  deriving DecidableEq, Repr

/-! ## Reliability (chapter 16) -/

/-- Reliability state. -/
structure Rel where
  poison   : List (Nat × Nat × Nat) := []   -- (table, version, row)
  sliceMap : SMap Nat := []          -- position to physical slice, where not the identity
  sliceUsed : Nat := 0               -- spare slices brought in or spent
  lostPos  : List Nat := []          -- positions lost with no spare
  hits     : SMap (List (BitVec 48)) := []  -- when a position's slice met its latest detections, at most 15 (R418)
  retiring : List Nat := []          -- positions whose slice is retired and takes no new row block (R418)
  engine   : Bool := false           -- QX_ENGINE
  standby  : Bool := true            -- QX_STANDBY
  reduced  : Bool := false
  deriving DecidableEq, Repr

/-- The whole block. -/
structure State where
  pending : List Instr := []
  fuses   : Fuses := {}
  regs    : SMap Word64 := []          -- shared registers by BAR0 offset; one not listed holds its reset value
  pregs   : SMap Word64 := []          -- SEL, STAGE and PATH registers, keyed by path and offset (R429)
  lows    : SMap (BitVec 32) := []     -- lower halves last written, by path and offset (R428)
  ctxCfg  : SMap Word64 := []          -- CRH_CTX_CFG by context
  updCfg  : SMap Word64 := []          -- CRH_UPD_CFG by table
  fwdCfg  : SMap Word64 := []          -- CRH_FWD_CFG by entry
  drvCfg  : SMap Word64 := []          -- CRH_FL_DRV_CFG by drive
  fe      : FrontEnd := {}
  xl      : Translation := {}
  tb      : Tables := {}
  sp      : SortPool := {}
  qz      : Quant := {}
  up      : Updates := {}
  ch      : Cache := {}
  gs      : Ground := {}
  fl      : Flash := {}
  tel     : Telem := {}
  pw      : Power := {}
  st      : Steta := {}
  i3      : I3c := {}
  rl      : Rel := {}
  free    : Nat := 0                   -- the MODEL's own field: counts the free values taken
  out     : List Output := []          -- newest first
  deriving DecidableEq, Repr

/-- The block at power-on, before POWER_GOOD: every register at its reset value, every ring DISABLED, nothing in Ground store,
the selvedge cells clamped, and every slice group of the member gated (R40, R373, R376, R433). -/
def State.reset : State :=
  { pw := { gated := Member.gated0 .ce128 },
    st := { policy := 0x98, flashPol := 0x98 } }

end Sys2Proof.Machine
end

