-- ==== Sys2Proof/Machine/Base.lean ====
section
/-!
DEFINITION. Small helpers: sparse maps, little-endian bytes (R7), bit fields, modular indices (R44, R355).
-/

namespace Sys2Proof.Machine

/-! ## Sparse maps, kept in rising key order -/

def mget {α : Type} : SMap α → Nat → Option α
  | [], _ => none
  | (j, v) :: t, k => if j = k then some v else mget t k

def mgetD {α : Type} (m : SMap α) (k : Nat) (d : α) : α := (mget m k).getD d

def mset {α : Type} : SMap α → Nat → α → SMap α
  | [], k, v => [(k, v)]
  | (j, w) :: t, k, v =>
    if j = k then (k, v) :: t else if k < j then (k, v) :: (j, w) :: t else (j, w) :: mset t k v

def mdel {α : Type} : SMap α → Nat → SMap α
  | [], _ => []
  | (j, w) :: t, k => if j = k then mdel t k else (j, w) :: mdel t k

/-- Apply a function at one key, where the map lists it. -/
def mmod {α : Type} (m : SMap α) (k : Nat) (f : α → α) : SMap α :=
  match mget m k with
  | some v => mset m k (f v)
  | none => m

/-- Apply a function to every value. -/
def mmap {α : Type} (m : SMap α) (f : Nat → α → α) : SMap α := m.map fun (k, v) => (k, f k v)

/-! ## Association by path -/

def Path.num : Path → Nat
  | .fn0 => 0 | .fn1 => 1 | .i3c => 2 | .dbg => 3

/-- The key under which a register held per path is stored. -/
def pkey (p : Path) (off : Nat) : Nat := Path.num p * 0x1000000 + off

def pget {α : Type} : List (Path × α) → Path → Option α
  | [], _ => none
  | (q, v) :: t, p => if q = p then some v else pget t p

def pdel {α : Type} (l : List (Path × α)) (p : Path) : List (Path × α) := l.filter fun e => e.1 ≠ p

def pset {α : Type} (l : List (Path × α)) (p : Path) (v : α) : List (Path × α) := (p, v) :: pdel l p

/-! ## Bytes -/

/-- The n low bytes of a number, lowest first. -/
def leBytes : Nat → Nat → Bytes
  | 0, _ => []
  | n + 1, v => BitVec.ofNat 8 v :: leBytes n (v / 256)

/-- The number that bytes spell, lowest first. -/
def ofLE : Bytes → Nat
  | [] => 0
  | b :: t => b.toNat + 256 * ofLE t

/-- The field of `n` bytes at offset `off`; bytes that are not there read as zero. -/
def field (b : Bytes) (off n : Nat) : Nat := ofLE ((b.drop off).take n)

/-- `n` bytes at `off`, padded with zeros. -/
def slice (b : Bytes) (off n : Nat) : Bytes :=
  let t := (b.drop off).take n
  t ++ List.replicate (n - t.length) 0

/-- Overwrite bytes at an offset. -/
def patch (b : Bytes) (off : Nat) (v : Bytes) : Bytes :=
  b.take off ++ v.take (b.length - off) ++ b.drop (off + v.length)

/-- Bits [lo + n − 1 : lo] of a word. -/
def bitf {w : Nat} (v : BitVec w) (lo n : Nat) : Nat := v.toNat / 2 ^ lo % 2 ^ n

def bitb {w : Nat} (v : BitVec w) (i : Nat) : Bool := v.getLsbD i

/-- A word with bits [lo + n − 1 : lo] set to x. -/
def putf (v : Word64) (lo n x : Nat) : Word64 :=
  BitVec.ofNat 64 (v.toNat - bitf v lo n * 2 ^ lo + x % 2 ^ n * 2 ^ lo)

def b2n (b : Bool) : Nat := if b then 1 else 0

/-- A field value at a bit, for words built field by field. -/
def atBit (x n lo : Nat) : Nat := x % 2 ^ n * 2 ^ lo

/-- A count that sticks at the largest value of `n` bits (R355). -/
def stick (x n : Nat) : Nat := min x (2 ^ n - 1)

/-- x / y rounded up; y of 0 gives 0. -/
def ceilDiv (x y : Nat) : Nat := if y = 0 then 0 else (x + y - 1) / y

/-- Clamp between two bounds. -/
def clampN (x lo hi : Nat) : Nat := max lo (min x hi)

def isMod (m : Nat) (x : Nat) : Bool := x % m == 0

/-- The first entry of a list for which `f` answers, with the answer. -/
def firstSome {α β : Type} (f : α → Option β) : List α → Option β
  | [] => none
  | a :: t => match f a with
    | some b => some b
    | none => firstSome f t

/-- Update the first entry that passes. -/
def updFirst {α : Type} (p : α → Bool) (f : α → α) : List α → List α
  | [] => []
  | a :: t => if p a then f a :: t else a :: updFirst p f t

/-- Remove the first entry that passes. -/
def delFirst {α : Type} (p : α → Bool) : List α → List α
  | [] => []
  | a :: t => if p a then t else a :: delFirst p t

/-- The position of the first entry that passes. -/
def posOf {α : Type} (p : α → Bool) : List α → Option Nat
  | [] => none
  | a :: t => if p a then some 0 else (posOf p t).map (· + 1)

/-- Split a list into runs of n (n of 0 gives none); the fuel is the list's length. -/
def chunks {α : Type} (n : Nat) : Nat → List α → List (List α)
  | 0, _ => []
  | _ + 1, [] => []
  | f + 1, l => if n = 0 then [] else l.take n :: chunks n f (l.drop n)

/-- Add up a list. -/
def sumBy {α : Type} (f : α → Nat) : List α → Nat
  | [] => 0
  | a :: t => f a + sumBy f t

/-- Insert in rising order. -/
def insSorted {α : Type} (le : α → α → Bool) (x : α) : List α → List α
  | [] => [x]
  | a :: t => if le a x then a :: insSorted le x t else x :: a :: t

/-- Sort in rising order; equal entries keep their order. -/
def sortBy {α : Type} (le : α → α → Bool) : List α → List α
  | [] => []
  | a :: t => (sortBy le t) |> insSorted (fun x y => le x y && !(le y x)) a

/-- Keep the first of each run of repeats anywhere in the list. -/
def dedup {α : Type} [DecidableEq α] : List α → List α
  | [] => []
  | a :: t => a :: (dedup t).filter (fun b => b ≠ a)

end Sys2Proof.Machine
end

