-- ==== Sys2Proof/Machine/Regs.lean ====
section
/-!
DEFINITION. The registers of Table 125: offset, kind, the mask of their RW bits, the mask of RW fields that span bit 32 (R428),
and their reset values where these do not depend on the member.
-/

namespace Sys2Proof.Machine

/-- The kinds of R429. -/
inductive RegKind where
  | stat | cfg | cmd | sel | stage | path
  deriving DecidableEq, Repr

/-- One register of Table 125. -/
structure RegRow where
  off   : Nat
  kind  : RegKind
  rw    : Nat
  span  : Nat
  reset : Nat
  deriving DecidableEq, Repr

def Reg.id : Nat := 0x0
def Reg.cap0 : Nat := 0x8
def Reg.cap1 : Nat := 0x10
def Reg.cap2 : Nat := 0x18
def Reg.capLive : Nat := 0x20
def Reg.serialLo : Nat := 0x28
def Reg.serialHi : Nat := 0x30
def Reg.bootStat : Nat := 0x10000
def Reg.pwrCtl : Nat := 0x10008
def Reg.pwrStat : Nat := 0x10010
def Reg.resetCmd : Nat := 0x10018
def Reg.clkStat : Nat := 0x10020
def Reg.portStat : Nat := 0x10028
def Reg.hostArb : Nat := 0x10100
def Reg.flowCtl : Nat := 0x10108
def Reg.ctxSel : Nat := 0x20000
def Reg.ctxCfg : Nat := 0x20008
def Reg.ctxStat : Nat := 0x20010
def Reg.xlateCtl : Nat := 0x20018
def Reg.ringTblBase : Nat := 0x30000
def Reg.eyeletBase : Nat := 0x30008
def Reg.drvPasid : Nat := 0x30010
def Reg.ringCmd : Nat := 0x30018
def Reg.segmBase : Nat := 0x40000
def Reg.segInval : Nat := 0x40008
def Reg.tblSel : Nat := 0x50000
def Reg.tblCmd : Nat := 0x50008
def Reg.tblImg : Nat := 0x50010
def Reg.tblStat : Nat := 0x50018
def Reg.partCfg : Nat := 0x50020
def Reg.partStat : Nat := 0x50028
def Reg.regradeCtl : Nat := 0x50030
def Reg.gsCtl : Nat := 0x60000
def Reg.gsSel : Nat := 0x60008
def Reg.gsPstat : Nat := 0x60010
def Reg.gsLstat : Nat := 0x60018
def Reg.gsCmd : Nat := 0x60020
def Reg.gsTgCfg : Nat := 0x60028
def Reg.gsTgStat : Nat := 0x60030
def Reg.gsSpares : Nat := 0x60038
def Reg.cacheCtl : Nat := 0x70000
def Reg.skewCtl : Nat := 0x70008
def Reg.chSel : Nat := 0x70010
def Reg.chLoad : Nat := 0x70018
def Reg.skewStat : Nat := 0x70020
def Reg.cacheStat : Nat := 0x70028
def Reg.sortCtl : Nat := 0x80000
def Reg.sortArea : Nat := 0x80008
def Reg.sortStat : Nat := 0x80010
def Reg.imapRel : Nat := 0x80018
def Reg.poolCtl : Nat := 0x80020
def Reg.poolStat : Nat := 0x80028
def Reg.tileRel : Nat := 0x80030
def Reg.rscAddr : Nat := 0x90000
def Reg.rscCmd : Nat := 0x90008
def Reg.rscStat : Nat := 0x90010
def Reg.qdriftCtl : Nat := 0x90018
def Reg.qdriftLim : Nat := 0x90020
def Reg.qdriftSel : Nat := 0x90028
def Reg.qdriftStat : Nat := 0x90030
def Reg.updSel : Nat := 0xA0000
def Reg.updCfg : Nat := 0xA0008
def Reg.updStat : Nat := 0xA0010
def Reg.optSel : Nat := 0xA0018
def Reg.optA : Nat := 0xA0020
def Reg.optB : Nat := 0xA0028
def Reg.optC : Nat := 0xA0030
def Reg.cplCtl : Nat := 0xA0038
def Reg.cplStat : Nat := 0xA0040
def Reg.fwdSel : Nat := 0xA0048
def Reg.fwdCfg : Nat := 0xA0050
def Reg.flCtl : Nat := 0xB0000
def Reg.flSel : Nat := 0xB0008
def Reg.flDrvCfg : Nat := 0xB0010
def Reg.flDrvStat : Nat := 0xB0018
def Reg.flNsSel : Nat := 0xB0020
def Reg.flNsStat : Nat := 0xB0028
def Reg.flNsSize : Nat := 0xB0030
def Reg.evtRing : Nat := 0xC0000
def Reg.errCtl : Nat := 0xC0008
def Reg.health : Nat := 0xC0010
def Reg.poisonKey : Nat := 0xC0018
def Reg.poisonCmd : Nat := 0xC0020
def Reg.poisonStat : Nat := 0xC0028
def Reg.cntCmd : Nat := 0xD0000
def Reg.cntData : Nat := 0xD0008
def Reg.mbxBuf : Nat := 0xE0000
def Reg.mbxCmd : Nat := 0xE0008
def Reg.logBase : Nat := 0xE0010
def Reg.logIdx : Nat := 0xE0018
def Reg.logCtl : Nat := 0xE0020
def Reg.traceEn : Nat := 0xE0028
def Reg.stetaStat : Nat := 0xE0030
def Reg.authStat : Nat := 0xF0000
def Reg.authPolicy : Nat := 0xF0008
def Reg.makerCtl : Nat := 0xF0010
def Reg.fuseStat : Nat := 0xF0018

/-- Block 0x0000_0000 of Table 124. -/
def Reg.rows0 : List RegRow :=
  [⟨0x0, .stat, 0x0, 0x0, 0x100000000001EC4⟩,
   ⟨0x8, .stat, 0x0, 0x0, 0x0⟩,
   ⟨0x10, .stat, 0x0, 0x0, 0x0⟩,
   ⟨0x18, .stat, 0x0, 0x0, 0x0⟩,
   ⟨0x20, .stat, 0x0, 0x0, 0x3800000⟩,
   ⟨0x28, .stat, 0x0, 0x0, 0x0⟩,
   ⟨0x30, .stat, 0x0, 0x0, 0x0⟩]

/-- Block 0x0001_0000 of Table 124. -/
def Reg.rows1 : List RegRow :=
  [⟨0x10000, .stat, 0x0, 0x0, 0x1⟩,
   ⟨0x10008, .cfg, 0xFFFFF, 0x0, 0x80064⟩,
   ⟨0x10010, .stat, 0x0, 0x0, 0x0⟩,
   ⟨0x10018, .cmd, 0x0, 0x0, 0x0⟩,
   ⟨0x10020, .stat, 0x0, 0x0, 0xFFFF00⟩,
   ⟨0x10028, .stat, 0x0, 0x0, 0x0⟩,
   ⟨0x10100, .cfg, 0x3FFFF, 0x0, 0x22468⟩,
   ⟨0x10108, .cfg, 0xFFFF, 0x0, 0x3E8⟩]

/-- Block 0x0002_0000 of Table 124. -/
def Reg.rows2 : List RegRow :=
  [⟨0x20000, .sel, 0xFFF, 0x0, 0x0⟩,
   ⟨0x20008, .cfg, 0xFFFFF0000000F, 0x0, 0x0⟩,
   ⟨0x20010, .stat, 0x0, 0x0, 0x0⟩,
   ⟨0x20018, .cfg, 0x3FFFFF, 0x0, 0x3003E8⟩]

/-- Block 0x0003_0000 of Table 124. -/
def Reg.rows3 : List RegRow :=
  [⟨0x30000, .cfg, 0x1FFFFFFFFFFFFC0, 0x1FFFFFFFFFFFFC0, 0x0⟩,
   ⟨0x30008, .cfg, 0x1FFFFFFFFFFF001, 0x1FFFFFFFFFFF000, 0x0⟩,
   ⟨0x30010, .cfg, 0xFFFFF, 0x0, 0x0⟩,
   ⟨0x30018, .cmd, 0x80F1FFFF, 0x0, 0x0⟩]

/-- Block 0x0004_0000 of Table 124. -/
def Reg.rows4 : List RegRow :=
  [⟨0x40000, .cfg, 0x1FFFFFFFFFFF001, 0x1FFFFFFFFFFF000, 0x0⟩,
   ⟨0x40008, .cmd, 0x87FFFF0FFF, 0x0, 0x0⟩]

/-- Block 0x0005_0000 of Table 124. -/
def Reg.rows5 : List RegRow :=
  [⟨0x50000, .sel, 0xFFFF, 0x0, 0x0⟩,
   ⟨0x50008, .cmd, 0x80000007, 0x0, 0x0⟩,
   ⟨0x50010, .stage, 0x1FFFFFFFFFFFF80, 0x1FFFFFFFFFFFF80, 0x0⟩,
   ⟨0x50018, .stat, 0x0, 0x0, 0x0⟩,
   ⟨0x50020, .cfg, 0xFFF0FFF, 0x0, 0x0⟩,
   ⟨0x50028, .stat, 0x0, 0x0, 0x0⟩,
   ⟨0x50030, .cfg, 0xFFFF01, 0x0, 0x41001⟩]

/-- Block 0x0006_0000 of Table 124. -/
def Reg.rows6 : List RegRow :=
  [⟨0x60000, .cfg, 0xFF7F0FFF3F3F, 0x0, 0x183204002020⟩,
   ⟨0x60008, .sel, 0x7FFF, 0x0, 0x0⟩,
   ⟨0x60010, .stat, 0x0, 0x0, 0xFF⟩,
   ⟨0x60018, .stat, 0x0, 0x0, 0x0⟩,
   ⟨0x60020, .cmd, 0x80000FFF, 0x0, 0x0⟩,
   ⟨0x60028, .stage, 0xFFFFFFFF1F3F, 0xFFFFFFFF0000, 0x10000⟩,
   ⟨0x60030, .stat, 0x0, 0x0, 0x0⟩,
   ⟨0x60038, .stat, 0x0, 0x0, 0x0⟩]

/-- Block 0x0007_0000 of Table 124. -/
def Reg.rows7 : List RegRow :=
  [⟨0x70000, .cfg, 0xFFFF00F1, 0x0, 0x640021⟩,
   ⟨0x70008, .cfg, 0xFF1FFFFFFFFF01, 0x0, 0x410324B960A01⟩,
   ⟨0x70010, .sel, 0x7F, 0x0, 0x0⟩,
   ⟨0x70018, .stat, 0x0, 0x0, 0x0⟩,
   ⟨0x70020, .stat, 0x0, 0x0, 0x0⟩,
   ⟨0x70028, .stat, 0x0, 0x0, 0x0⟩]

/-- Block 0x0008_0000 of Table 124. -/
def Reg.rows8 : List RegRow :=
  [⟨0x80000, .cfg, 0xFFFF0FFFFFFF, 0x0, 0x400000A4040⟩,
   ⟨0x80008, .cfg, 0xFFF, 0x0, 0x0⟩,
   ⟨0x80010, .stat, 0x0, 0x0, 0x0⟩,
   ⟨0x80018, .cmd, 0xFFFFFFFF8001FFFF, 0x0, 0x0⟩,
   ⟨0x80020, .cfg, 0xFFFF000FFF01, 0x0, 0x10000000001⟩,
   ⟨0x80028, .stat, 0x0, 0x0, 0x0⟩,
   ⟨0x80030, .cmd, 0x80000FFF, 0x0, 0x0⟩]

/-- Block 0x0009_0000 of Table 124. -/
def Reg.rows9 : List RegRow :=
  [⟨0x90000, .stage, 0x1FFFFFFFFFFF000, 0x1FFFFFFFFFFF000, 0x0⟩,
   ⟨0x90008, .cmd, 0x80000003, 0x0, 0x0⟩,
   ⟨0x90010, .stat, 0x0, 0x0, 0x0⟩,
   ⟨0x90018, .cfg, 0x3F, 0x0, 0x18⟩,
   ⟨0x90020, .cfg, 0xFFFFFFFFFFFFFFFF, 0x0, 0x1000000000400⟩,
   ⟨0x90028, .sel, 0xFFF, 0x0, 0x0⟩,
   ⟨0x90030, .stat, 0x0, 0x0, 0x0⟩]

/-- Block 0x000A_0000 of Table 124. -/
def Reg.rowsA : List RegRow :=
  [⟨0xA0000, .sel, 0xFFFF, 0x0, 0x0⟩,
   ⟨0xA0008, .cfg, 0xFF03FF, 0x0, 0x0⟩,
   ⟨0xA0010, .stat, 0x0, 0x0, 0x0⟩,
   ⟨0xA0018, .sel, 0xFF, 0x0, 0x0⟩,
   ⟨0xA0020, .stage, 0xFFFFFFFFFFFFFFFF, 0x0, 0x0⟩,
   ⟨0xA0028, .stage, 0xFFFFFFFFFFFFFFFF, 0x0, 0x0⟩,
   ⟨0xA0030, .stage, 0xFFFFFFFF, 0x0, 0x0⟩,
   ⟨0xA0038, .cfg, 0xFFFFFFFFFF, 0x0, 0x1000644B32⟩,
   ⟨0xA0040, .stat, 0x0, 0x0, 0x0⟩,
   ⟨0xA0048, .sel, 0x3F, 0x0, 0x0⟩,
   ⟨0xA0050, .cfg, 0x1FFFFFFFFFFFF, 0x0, 0x0⟩]

/-- Block 0x000B_0000 of Table 124. -/
def Reg.rowsB : List RegRow :=
  [⟨0xB0000, .cfg, 0x1FFFFFF, 0x0, 0x1810032⟩,
   ⟨0xB0008, .sel, 0xF, 0x0, 0x0⟩,
   ⟨0xB0010, .cfg, 0x7FFFFFFFFF, 0x0, 0x1010000400⟩,
   ⟨0xB0018, .stat, 0x0, 0x0, 0x0⟩,
   ⟨0xB0020, .sel, 0x3F, 0x0, 0x0⟩,
   ⟨0xB0028, .stat, 0x0, 0x0, 0x0⟩,
   ⟨0xB0030, .stat, 0x0, 0x0, 0x0⟩]

/-- Block 0x000C_0000 of Table 124. -/
def Reg.rowsC : List RegRow :=
  [⟨0xC0000, .cfg, 0x3FFFF, 0x0, 0x0⟩,
   ⟨0xC0008, .cfg, 0xF, 0x0, 0x4⟩,
   ⟨0xC0010, .stat, 0x0, 0x0, 0x10000⟩,
   ⟨0xC0018, .stage, 0xFFFFFFFFFFFFFFFF, 0xFFFFFFFFFFFFFFFF, 0x0⟩,
   ⟨0xC0020, .cmd, 0x8003FFFF, 0x0, 0x0⟩,
   ⟨0xC0028, .stat, 0x0, 0x0, 0x0⟩]

/-- Block 0x000D_0000 of Table 124. -/
def Reg.rowsD : List RegRow :=
  [⟨0xD0000, .cmd, 0x8000FFFF, 0x0, 0x0⟩,
   ⟨0xD0008, .stage, 0xFFFFFFFFFFFF, 0xFFFFFFFFFFFF, 0x0⟩]

/-- Block 0x000E_0000 of Table 124. -/
def Reg.rowsE : List RegRow :=
  [⟨0xE0000, .path, 0x1FFFFFFFFFFF000, 0x1FFFFFFFFFFF000, 0x0⟩,
   ⟨0xE0008, .path, 0x801FFFFF, 0x0, 0x0⟩,
   ⟨0xE0010, .cfg, 0x1FFFFFFFFFFF03F, 0x1FFFFFFFFFFF000, 0x18⟩,
   ⟨0xE0018, .cfg, 0xFFFFFFFF00000000, 0x0, 0x0⟩,
   ⟨0xE0020, .cfg, 0x13F, 0x0, 0x11⟩,
   ⟨0xE0028, .cfg, 0xFFFFFFFFFFFFFFFF, 0xFFFFFFFFFFFFFFFF, 0x0⟩,
   ⟨0xE0030, .stat, 0x0, 0x0, 0xE00000⟩]

/-- Block 0x000F_0000 of Table 124. -/
def Reg.rowsF : List RegRow :=
  [⟨0xF0000, .stat, 0x0, 0x0, 0x5⟩,
   ⟨0xF0008, .cfg, 0xFF, 0x0, 0x0⟩,
   ⟨0xF0010, .cfg, 0x3, 0x0, 0x0⟩,
   ⟨0xF0018, .stat, 0x0, 0x0, 0x0⟩]

/-- Table 125. -/
def Reg.rows : List RegRow :=
  Reg.rows0 ++ Reg.rows1 ++ Reg.rows2 ++ Reg.rows3 ++ Reg.rows4 ++ Reg.rows5 ++ Reg.rows6 ++ Reg.rows7 ++
    Reg.rows8 ++ Reg.rows9 ++ Reg.rowsA ++ Reg.rowsB ++ Reg.rowsC ++ Reg.rowsD ++ Reg.rowsE ++ Reg.rowsF

def Reg.find (off : Nat) : List RegRow → Option RegRow
  | [] => none
  | r :: t => if r.off = off then some r else Reg.find off t

/-- The register at an offset, if Table 125 lists one. -/
def regAt (off : Nat) : Option RegRow := Reg.find off Reg.rows

/-- The reset value of a register that holds a value of its own, the member's where its Reset column says so (R433). -/
def regReset (m : Member) (off : Nat) : Word64 :=
  let base := match regAt off with
    | some r => r.reset
    | none => 0
  BitVec.ofNat 64 (base +
    (if off = Reg.partCfg then atBit (Member.scratch0 m) 12 16
     else if off = Reg.sortArea then atBit (Member.win0 m) 12 0
     else if off = Reg.poolCtl then atBit (Member.win0 m) 12 8
     else 0))

/-- Where a register keeps its value: per path, under a selector's index, in a part of State of its own, or shared (R429). -/
def regGet (s : State) (p : Path) (off : Nat) : Word64 :=
  let m := s.fuses.member
  let own := fun (o : Nat) => mgetD s.pregs (pkey p o) (regReset m o)
  if off = Reg.ctxCfg then mgetD s.ctxCfg (bitf (own Reg.ctxSel) 0 12) 0
  else if off = Reg.updCfg then mgetD s.updCfg (bitf (own Reg.updSel) 0 16) 0
  else if off = Reg.fwdCfg then mgetD s.fwdCfg (bitf (own Reg.fwdSel) 0 6) 0
  else if off = Reg.flDrvCfg then mgetD s.drvCfg (bitf (own Reg.flSel) 0 4) (regReset m off)
  else if off = Reg.evtRing then s.tel.evtRing
  else if off = Reg.logBase then s.tel.logBase
  else if off = Reg.logIdx then BitVec.ofNat 64 (s.tel.logProd.toNat + s.tel.logCons.toNat * 2 ^ 32)
  else if off = Reg.logCtl then s.tel.logCtl
  else if off = Reg.authPolicy then s.st.policy
  else if off = Reg.makerCtl then s.st.makerCtl
  else match regAt off with
    | some r => match r.kind with
      | .sel => own off
      | .stage => own off
      | .path => own off
      | _ => mgetD s.regs off (regReset m off)
    | none => 0

/-- Store a register's value where it is kept. -/
def regPut (s : State) (p : Path) (off : Nat) (v : Word64) : State :=
  let m := s.fuses.member
  let own := fun (o : Nat) => mgetD s.pregs (pkey p o) (regReset m o)
  if off = Reg.ctxCfg then { s with ctxCfg := mset s.ctxCfg (bitf (own Reg.ctxSel) 0 12) v }
  else if off = Reg.updCfg then { s with updCfg := mset s.updCfg (bitf (own Reg.updSel) 0 16) v }
  else if off = Reg.fwdCfg then { s with fwdCfg := mset s.fwdCfg (bitf (own Reg.fwdSel) 0 6) v }
  else if off = Reg.flDrvCfg then { s with drvCfg := mset s.drvCfg (bitf (own Reg.flSel) 0 4) v }
  else if off = Reg.evtRing then { s with tel := { s.tel with evtRing := v } }
  else if off = Reg.logBase then { s with tel := { s.tel with logBase := v } }
  else if off = Reg.logIdx then { s with tel := { s.tel with logCons := BitVec.ofNat 32 (v.toNat / 2 ^ 32) } }
  else if off = Reg.logCtl then { s with tel := { s.tel with logCtl := v } }
  else if off = Reg.authPolicy then { s with st := { s.st with policy := v } }
  else if off = Reg.makerCtl then { s with st := { s.st with makerCtl := v } }
  else match regAt off with
    | some r => match r.kind with
      | .sel => { s with pregs := mset s.pregs (pkey p off) v }
      | .stage => { s with pregs := mset s.pregs (pkey p off) v }
      | .path => { s with pregs := mset s.pregs (pkey p off) v }
      | _ => { s with regs := mset s.regs off v }
    | none => s

/-- Shared configuration registers, read by the block itself. -/
def State.cfg (s : State) (off : Nat) : Word64 := mgetD s.regs off (regReset s.fuses.member off)

/-- A per-path register. -/
def State.own (s : State) (p : Path) (off : Nat) : Word64 := mgetD s.pregs (pkey p off) (regReset s.fuses.member off)

/-- Bits of `new` where the mask has ones, of `old` elsewhere. -/
def mergeBits (old new mask : Nat) : Nat := (old &&& (0xFFFFFFFFFFFFFFFF ^^^ mask)) ||| (new &&& mask)

/-- The value a register takes from a write of 8 bytes, or of 4 bytes to one half (R428): RW bits only; an RW field that spans
bit 32 changes at an upper-half write alone, with the lower half the same path last wrote. -/
def regMerge (r : RegRow) (old : Word64) (low : BitVec 32) (upper : Bool) (size : Nat) (val : Word64) : Word64 :=
  let o := old.toNat
  let v := val.toNat
  if size = 8 then BitVec.ofNat 64 (mergeBits o v r.rw)
  else if upper then
    let comb := v % 2 ^ 32 * 2 ^ 32 + low.toNat
    BitVec.ofNat 64 (mergeBits o comb ((r.rw &&& 0xFFFFFFFF00000000) ||| r.span))
  else BitVec.ofNat 64 (mergeBits o (v % 2 ^ 32) (r.rw &&& 0xFFFFFFFF &&& (0xFFFFFFFFFFFFFFFF ^^^ r.span)))

end Sys2Proof.Machine
end

