-- ==== Sys2Proof/Machine/Counters.lean ====
section
/-!
DEFINITION. The BAR0 offsets of the counters of the counter window (R447, Table 130), by name.
-/

namespace Sys2Proof.Machine

/-! Table 131 -/

def Ctr.regIgnored : Nat := 0xD0100
def Ctr.regDenied : Nat := 0xD0108
def Ctr.idleSnoop : Nat := 0xD0110
def Ctr.bar2Ignored : Nat := 0xD0118
def Ctr.announceIgnored : Nat := 0xD0120
def Ctr.consAhead : Nat := 0xD0128
def Ctr.portDegraded : Nat := 0xD0130
def Ctr.pmhCapped : Nat := 0xD0138
/-! Table 31 -/

def Ctr.segcHit : Nat := 0xD0200
def Ctr.segcMiss : Nat := 0xD0208
def Ctr.xcHit : Nat := 0xD0210
def Ctr.xcMiss : Nat := 0xD0218
def Ctr.atsReq : Nat := 0xD0220
def Ctr.priReq : Nat := 0xD0228
def Ctr.priRefused : Nat := 0xD0230
def Ctr.priTimeout : Nat := 0xD0238
def Ctr.invalRcvd : Nat := 0xD0240
def Ctr.invalAbort : Nat := 0xD0248
def Ctr.raDropNoseg : Nat := 0xD0250
def Ctr.raDropRights : Nat := 0xD0258
def Ctr.raDropUnmapped : Nat := 0xD0260
def Ctr.raDropRefused : Nat := 0xD0268
def Ctr.parkFull : Nat := 0xD0270
def Ctr.cfgIgnored : Nat := 0xD0278
def Ctr.tier1Refused : Nat := 0xD0280
/-! Table 40 -/

def Ctr.verSwitch : Nat := 0xD0300
def Ctr.verRetired : Nat := 0xD0308
def Ctr.regradeNarrow : Nat := 0xD0310
def Ctr.regradeWide : Nat := 0xD0318
def Ctr.regradeAbandon : Nat := 0xD0320
def Ctr.fillRows : Nat := 0xD0328
def Ctr.pinRows : Nat := 0xD0330
def Ctr.evictWriteback : Nat := 0xD0338
def Ctr.sweepPockets : Nat := 0xD0340
/-! Table 47 -/

def Ctr.winStarted : Nat := 0xD0400
def Ctr.winSpilled : Nat := 0xD0408
def Ctr.winPacked : Nat := 0xD0410
def Ctr.descPacked : Nat := 0xD0418
def Ctr.keysIn : Nat := 0xD0420
def Ctr.keysNull : Nat := 0xD0428
def Ctr.rowsUnique : Nat := 0xD0430
def Ctr.keyFail : Nat := 0xD0438
def Ctr.sortRestart : Nat := 0xD0440
def Ctr.resvWait : Nat := 0xD0448
def Ctr.raIssued : Nat := 0xD0450
def Ctr.raUsed : Nat := 0xD0458
def Ctr.raDup : Nat := 0xD0460
def Ctr.keptWrap : Nat := 0xD0468
/-! Table 57 -/

def Ctr.pairsPooled : Nat := 0xD0500
def Ctr.bagsWritten : Nat := 0xD0508
def Ctr.bagsSplit : Nat := 0xD0510
def Ctr.brideDeliver : Nat := 0xD0518
def Ctr.roundsExtra : Nat := 0xD0520
def Ctr.spoolWrite : Nat := 0xD0528
def Ctr.spoolRead : Nat := 0xD0530
def Ctr.spoolWait : Nat := 0xD0538
def Ctr.tilesDrained : Nat := 0xD0540
def Ctr.tilesHeld : Nat := 0xD0548
def Ctr.tileBusy : Nat := 0xD0550
def Ctr.overflowDesc : Nat := 0xD0558
def Ctr.spoolSplit : Nat := 0xD0560
/-! Table 63 -/

def Ctr.encRows : Nat := 0xD0600
def Ctr.encSat : Nat := 0xD0608
def Ctr.encNonfinite : Nat := 0xD0610
def Ctr.outHeaded : Nat := 0xD0618
def Ctr.rerunBags : Nat := 0xD0620
def Ctr.outSat : Nat := 0xD0628
def Ctr.outUnder : Nat := 0xD0630
def Ctr.outRange : Nat := 0xD0638
def Ctr.outNonfinite : Nat := 0xD0640
def Ctr.driftEvents : Nat := 0xD0648
def Ctr.rscSwaps : Nat := 0xD0650
/-! Table 71 -/

def Ctr.scatters : Nat := 0xD0700
def Ctr.contribAccepted : Nat := 0xD0708
def Ctr.contribFolded : Nat := 0xD0710
def Ctr.contribLate : Nat := 0xD0718
def Ctr.contribDropped : Nat := 0xD0720
def Ctr.contribLost : Nat := 0xD0728
def Ctr.fwdOut : Nat := 0xD0730
def Ctr.fwdIn : Nat := 0xD0738
def Ctr.fwdRejected : Nat := 0xD0740
def Ctr.applies : Nat := 0xD0748
def Ctr.rowsApplied : Nat := 0xD0750
def Ctr.rowsNonfinite : Nat := 0xD0758
def Ctr.mergeEvict : Nat := 0xD0760
def Ctr.pillowWait : Nat := 0xD0768
def Ctr.writebacks : Nat := 0xD0770
def Ctr.twinWait : Nat := 0xD0778
/-! Table 76 -/

def Ctr.headHit : Nat := 0xD0800
def Ctr.headMiss : Nat := 0xD0808
def Ctr.rowHit : Nat := 0xD0810
def Ctr.rowMiss : Nat := 0xD0818
def Ctr.admitted : Nat := 0xD0820
def Ctr.admitDeclined : Nat := 0xD0828
def Ctr.admitForced : Nat := 0xD0830
def Ctr.admitWait : Nat := 0xD0838
def Ctr.evicted : Nat := 0xD0840
def Ctr.evictDirty : Nat := 0xD0848
def Ctr.reclaimed : Nat := 0xD0850
def Ctr.agingSweeps : Nat := 0xD0858
def Ctr.hotIntervals : Nat := 0xD0860
def Ctr.migratedRows : Nat := 0xD0868
def Ctr.replAdded : Nat := 0xD0870
def Ctr.replDropped : Nat := 0xD0878
def Ctr.replicaReads : Nat := 0xD0880
def Ctr.redirRefused : Nat := 0xD0888
/-! Table 85 -/

def Ctr.gsLinesRead : Nat := 0xD0900
def Ctr.gsLinesWritten : Nat := 0xD0908
def Ctr.wcMerges : Nat := 0xD0910
def Ctr.wcRmw : Nat := 0xD0918
def Ctr.refreshBursts : Nat := 0xD0920
def Ctr.bandRaises : Nat := 0xD0928
def Ctr.throttleClocks : Nat := 0xD0930
def Ctr.retentionSteps : Nat := 0xD0938
def Ctr.bankStuck : Nat := 0xD0940
def Ctr.rowRepairs : Nat := 0xD0948
def Ctr.bankRepairs : Nat := 0xD0950
def Ctr.chReplaced : Nat := 0xD0958
def Ctr.chFolded : Nat := 0xD0960
def Ctr.heldReplayed : Nat := 0xD0968
def Ctr.scrubPasses : Nat := 0xD0970
/-! Table 90 -/

def Ctr.bulkDesc : Nat := 0xD0A00
def Ctr.bulkSpillBytes : Nat := 0xD0A08
def Ctr.bulkFillBytes : Nat := 0xD0A10
def Ctr.bulkStriped : Nat := 0xD0A18
def Ctr.flReads : Nat := 0xD0A20
def Ctr.flWrites : Nat := 0xD0A28
def Ctr.flBlocksRead : Nat := 0xD0A30
def Ctr.flBlocksWritten : Nat := 0xD0A38
def Ctr.flCoalesced : Nat := 0xD0A40
def Ctr.flSlotWait : Nat := 0xD0A48
def Ctr.flRetries : Nat := 0xD0A50
def Ctr.flReadErr : Nat := 0xD0A58
def Ctr.flWriteErr : Nat := 0xD0A60
def Ctr.flTimeout : Nat := 0xD0A68
def Ctr.flLateCpl : Nat := 0xD0A70
def Ctr.flCtrlReset : Nat := 0xD0A78
/-! Table 96 -/

def Ctr.flowStalls : Nat := 0xD0B00
def Ctr.cplSpaceWait : Nat := 0xD0B08
def Ctr.bankCapWait : Nat := 0xD0B10
def Ctr.chanCapWait : Nat := 0xD0B18
def Ctr.portCapWait : Nat := 0xD0B20
def Ctr.agePromoted : Nat := 0xD0B28
def Ctr.remoteHold : Nat := 0xD0B30
/-! Table 104 -/

def Ctr.pllSpared : Nat := 0xD0C00
def Ctr.refFaults : Nat := 0xD0C08
def Ctr.ungateSteps : Nat := 0xD0C10
def Ctr.softStarts : Nat := 0xD0C18
def Ctr.emergEntries : Nat := 0xD0C20
def Ctr.pstateChanges : Nat := 0xD0C28
def Ctr.pmhReserved : Nat := 0xD0C30
/-! Table 116 -/

def Ctr.coreRestarts : Nat := 0xD0D00
def Ctr.mpuFaults : Nat := 0xD0D08
def Ctr.logRecords : Nat := 0xD0D10
def Ctr.logDropped : Nat := 0xD0D18
def Ctr.traceDropped : Nat := 0xD0D20
def Ctr.mbxCommands : Nat := 0xD0D28
def Ctr.authFailed : Nat := 0xD0D30
def Ctr.auditRecords : Nat := 0xD0D38
/-! Table 123 -/

def Ctr.parGs : Nat := 0xD0E00
def Ctr.parSram : Nat := 0xD0E08
def Ctr.crcFail : Nat := 0xD0E10
def Ctr.residueFail : Nat := 0xD0E18
def Ctr.recReread : Nat := 0xD0E20
def Ctr.recCopy : Nat := 0xD0E28
def Ctr.recBacking : Nat := 0xD0E30
def Ctr.recRecompute : Nat := 0xD0E38
def Ctr.dataErrors : Nat := 0xD0E40
def Ctr.rowsPoisoned : Nat := 0xD0E48
def Ctr.poisonHits : Nat := 0xD0E50
def Ctr.slicesSpared : Nat := 0xD0E58
def Ctr.qxHandovers : Nat := 0xD0E60
def Ctr.evtDropped : Nat := 0xD0E68
def Ctr.inboundBad : Nat := 0xD0E70

/-- The windows of Table 130: first and last offset of each group of counters. -/
def Ctr.groups : List (Nat × Nat) :=
  [(0xD0100, 0xD0138),
   (0xD0200, 0xD0280),
   (0xD0300, 0xD0340),
   (0xD0400, 0xD0468),
   (0xD0500, 0xD0560),
   (0xD0600, 0xD0650),
   (0xD0700, 0xD0778),
   (0xD0800, 0xD0888),
   (0xD0900, 0xD0970),
   (0xD0A00, 0xD0A78),
   (0xD0B00, 0xD0B30),
   (0xD0C00, 0xD0C30),
   (0xD0D00, 0xD0D38),
   (0xD0E00, 0xD0E70)]

/-- The offset holds a counter. -/
def Ctr.isCounter (off : Nat) : Bool := off % 8 == 0 && Ctr.groups.any fun g => g.1 ≤ off && off ≤ g.2

/-- Every counter's offset. -/
def Ctr.all : List Nat := Ctr.groups.flatMap fun g => (List.range ((g.2 - g.1) / 8 + 1)).map fun i => g.1 + 8 * i

end Sys2Proof.Machine
end

