-- ==== Sys2Proof/Machine/Tele.lean ====
section
/-!
DEFINITION. Telemetry as one operation that touches nothing but `tel`: counters (R352, R353), the event queue (R424), the host
log ring and the persistent log (R382 to R384).
-/

namespace Sys2Proof.Machine

/-- One thing that telemetry is told. -/
inductive TelOp where
  | count (off n : Nat)
  | event (e : Event)
  | log (core kind : Nat) (sev : BitVec 3) (code : BitVec 16) (args : Bytes)
  | put (r : LogRec)
  | drain
  deriving DecidableEq, Repr

/-- Bytes 8 to 31 of an EVENT record from (offset in the record, bytes, value) fields. -/
def evData : List (Nat × Nat × Nat) → Bytes
  | [] => List.replicate 24 0
  | (off, n, v) :: t => patch (evData t) (off - 8) (leBytes n v)

/-- An event with no source ring. -/
def mkEvent (code : Nat) (fields : List (Nat × Nat × Nat)) : TelOp :=
  .event { code := BitVec.ofNat 32 code, ring := none, data := evData fields }

/-- An event with a source ring. -/
def ringEvent (code ring : Nat) (fields : List (Nat × Nat × Nat)) : TelOp :=
  .event { code := BitVec.ofNat 32 code, ring := some ring, data := evData fields }

/-- Counts of the always-on clock in 1 minute, in 10 minutes and in 1 hour (R359: 10 ns a count). -/
def minute1 : Nat := 6000000000
def minute10 : Nat := 60000000000
def hour1 : Nat := 360000000000

/-- A time lies within n counts before now. -/
def Telem.within (t : Telem) (then' : BitVec 48) (n : Nat) : Bool := decide ((t.ts - then').toNat ≤ n)

/-- The largest COUNT (R352). -/
def countMax : Nat := 0xFFFFFFFFFFFF

/-- Count n more on a counter: COUNT sticks, HALF and SAT are set (R352). -/
def Counter.plus (c : Counter) (n : Nat) : Counter :=
  { count := min (c.count + n) countMax
    half := c.half || decide (c.count + n ≥ 2 ^ 47)
    sat := c.sat || decide (c.count + n > countMax) }

/-- The events of a count: each once until its bit is cleared (R353). -/
def Counter.events (off : Nat) (c c' : Counter) : List TelOp :=
  (if c'.half && !c.half then [mkEvent 0xD01 [(8, 4, off)]] else []) ++
  (if c'.sat && !c.sat then [mkEvent 0xD02 [(8, 4, off)]] else [])

def Telem.countOf (t : Telem) (off : Nat) : Counter := mgetD t.counters off {}

def Telem.logEn (t : Telem) : Bool := bitb t.logBase 0

/-- log2 of the host log ring's records; values outside 10 to 20 act as the nearer bound (R400). -/
def Telem.logLog2 (t : Telem) : Nat := clampN (bitf t.logBase 1 5) 10 20

/-- Records that may still be written to the host log ring (R383). -/
def Telem.logSpace (t : Telem) : Nat := 2 ^ t.logLog2 - (t.logProd - t.logCons).toNat

def Telem.minSev (t : Telem) : Nat := bitf t.logCtl 0 3

def Telem.plogSev (t : Telem) : Nat := max 2 (bitf t.logCtl 3 3)

/-- The persistent log, newest record first, with records after it: 4,096 pages of 64 records, filled one after the other; a new page takes
the place of the oldest one whole (R384, Table 110). -/
def keepPages (l : List LogRec) : List LogRec := l.take (l.length - 64 * ceilDiv (l.length - 262144) 64)

/-- Put a record among those that wait to be programmed; a CRIT record or a full page is programmed at once (R384). -/
def Telem.persist (t : Telem) (r : LogRec) (on : Bool) : Telem :=
  let w := if on then t.plogWait ++ [r] else t.plogWait
  let now := on && (r.sev == 5#3 || decide (w.length ≥ 64))
  { t with
    plogWait := if now then [] else w
    plog := if now then keepPages (w.reverse ++ t.plog) else t.plog }

/-- Program the records that wait (R384). -/
def Telem.program (t : Telem) : Telem :=
  { t with plogWait := [], plog := keepPages (t.plogWait.reverse ++ t.plog) }

/-- Write a record to the host log ring and advance PROD (R383). -/
def Telem.ringPut (t : Telem) (r : LogRec) : Telem :=
  { t with ring := r :: t.ring, logProd := t.logProd + 1 }

/-- The log core takes one record (R383); it answers the counts that follow. -/
def Telem.take (t : Telem) (r : LogRec) : Telem × List TelOp :=
  let audit := decide (r.kind ≥ 2)
  let toRing := t.logEn && (audit || decide (t.minSev ≤ r.sev.toNat))
  let toPlog := audit || decide (t.plogSev ≤ r.sev.toNat)
  let r0 := { r with lseq := t.lseq }
  let t1 := { t with lseq := t.lseq + 1 }
  if !toRing then (t1.persist r0 toPlog, [])
  else if t.logSpace = 0 then
    ({ t1.persist r0 toPlog with lostLogs := t.lostLogs + 1 }, [.count Ctr.logDropped 1])
  else if t.lostLogs = 0 then ((t1.ringPut r0).persist r0 toPlog, [.count Ctr.logRecords 1])
  else
    -- the first record after space returns is LOG_OVERRUN
    let o : LogRec := { ts := t.ts, core := 5, kind := 0, sev := 3, code := Sys2Proof.Config.logCode 0, lseq := t.lseq,
                        args := leBytes 8 t.lostLogs ++ List.replicate 40 0 }
    let r1 := { r with lseq := t.lseq + 1 }
    let t2 : Telem := { ((t1.ringPut o).persist o (decide (t.plogSev ≤ 3))) with lseq := t.lseq + 2, lostLogs := 0 }
    if t2.logSpace = 0 then
      ({ t2.persist r1 toPlog with lostLogs := 1 }, [.count Ctr.logRecords 1, .count Ctr.logDropped 1])
    else ((t2.ringPut r1).persist r1 toPlog, [.count Ctr.logRecords 2])

/-- Records of one writer waiting in windows 11 and 12; the hardware event path is writer 7 (Table 106). -/
def Telem.waitingOf (t : Telem) (kind core : Nat) : Nat :=
  (t.waiting.filter fun r => if kind = 1 then r.kind == 1 else r.kind != 1 && r.core == core).length

/-- One telemetry operation, and what it leads to. -/
def Telem.op (t : Telem) : TelOp → Telem × List TelOp
  | .count off n =>
    let c := t.countOf off
    let c' := c.plus n
    if n = 0 then (t, []) else ({ t with counters := mset t.counters off c' }, Counter.events off c c')
  | .event e =>
    let copy : TelOp := .log (Sys2Proof.Config.eventCore e.code.toNat).toNat 1 (Sys2Proof.Config.eventSeverity e.code.toNat)
      (BitVec.ofNat 16 e.code.toNat) (e.data ++ List.replicate 24 0)
    let t1 := { t with ibis := if t.ibiOn then BitVec.ofNat 16 e.code.toNat :: t.ibis else t.ibis }
    if bitb t.evtRing 17 then
      if t.evq.length ≥ 256 then (t1, [copy, .count Ctr.evtDropped 1])
      else ({ t1 with evq := t.evq ++ [e] }, [copy])
    else (t1, [copy])
  | .log core kind sev code args =>
    let r : LogRec := { ts := t.ts, core := core, kind := kind, sev := sev, code := code, lseq := 0, args := args }
    if t.logUp then t.take r
    else if t.waitingOf kind core ≥ 512 then ({ t with lseq := t.lseq + 1 }, [.count Ctr.logDropped 1])
    else ({ t with waiting := t.waiting ++ [r] }, [])
  | .put r => t.take r
  | .drain => ({ t with waiting := [] }, t.waiting.map .put)

/-- Run operations in order, each with what it leads to before the next; the fuel bounds the whole. -/
def Telem.run : Nat → List TelOp → Telem → Telem
  | 0, _, t => t
  | _ + 1, [], t => t
  | f + 1, o :: ops, t =>
    let r := t.op o
    Telem.run f (r.2 ++ ops) r.1

/-- Tell telemetry. -/
def State.tell (s : State) (ops : List TelOp) : State := { s with tel := Telem.run 20000 ops s.tel }

/-- Count once on a counter. -/
def State.count (s : State) (off : Nat) : State := s.tell [.count off 1]

/-- Count n on a counter. -/
def State.countN (s : State) (off n : Nat) : State := s.tell [.count off n]

/-- Send out. -/
def State.send (s : State) (o : Output) : State := { s with out := o :: s.out }

def State.sendAll (s : State) (os : List Output) : State := { s with out := os.reverse ++ s.out }

/-- The count a counter holds. -/
def State.counter (s : State) (off : Nat) : Nat := (s.tel.countOf off).count

end Sys2Proof.Machine
end

