-- ==== Sys2Proof/Machine/Upd.lean ====
section
/-!
DEFINITION. One update for each part of the state, so that what a meaning leaves alone can be read from its shape.
-/

namespace Sys2Proof.Machine

def State.onFe (s : State) (f : FrontEnd → FrontEnd) : State := { s with fe := f s.fe }
def State.onXl (s : State) (f : Translation → Translation) : State := { s with xl := f s.xl }
def State.onTb (s : State) (f : Tables → Tables) : State := { s with tb := f s.tb }
def State.onSp (s : State) (f : SortPool → SortPool) : State := { s with sp := f s.sp }
def State.onQz (s : State) (f : Quant → Quant) : State := { s with qz := f s.qz }
def State.onUp (s : State) (f : Updates → Updates) : State := { s with up := f s.up }
def State.onCh (s : State) (f : Cache → Cache) : State := { s with ch := f s.ch }
def State.onGs (s : State) (f : Ground → Ground) : State := { s with gs := f s.gs }
def State.onFl (s : State) (f : Flash → Flash) : State := { s with fl := f s.fl }
def State.onTel (s : State) (f : Telem → Telem) : State := { s with tel := f s.tel }
def State.onPw (s : State) (f : Power → Power) : State := { s with pw := f s.pw }
def State.onSt (s : State) (f : Steta → Steta) : State := { s with st := f s.st }
def State.onI3 (s : State) (f : I3c → I3c) : State := { s with i3 := f s.i3 }
def State.onRl (s : State) (f : Rel → Rel) : State := { s with rl := f s.rl }
def State.onFuses (s : State) (f : Fuses → Fuses) : State := { s with fuses := f s.fuses }

/-- Run a state change for each entry of a list, in order. -/
def State.forEach {α : Type} (f : State → α → State) : List α → State → State
  | [], s => s
  | a :: t, s => State.forEach f t (f s a)

end Sys2Proof.Machine
end

