-- ==== Sys2Proof/Machine/Auth.lean ====
section
/-!
DEFINITION. Authority: the rights of a path (R395, R397), the audit log (R398, R399), and the gate through which every register
write and every register command passes (R430, R431, R432, R444).
-/

namespace Sys2Proof.Machine

def Role.num : Role → Nat
  | .none => 0 | .operator => 1 | .installer => 2 | .maker => 3

/-- The rights held on a path (R395): a host function's BAR0 gives operator rights without a session, and the debug path at level FULL writes with
maker rights (R440). -/
def State.rights (s : State) (p : Path) : Nat :=
  let sess := match pget s.st.sessions p with
    | some e => Role.num e.role
    | none => 0
  match p with
  | .fn0 => max 1 sess
  | .fn1 => max 1 sess
  | .i3c => sess
  | .dbg => if s.st.debug = 2 then 3 else sess

/-! ## Audit log -/

/-- The 128 bytes of an audit record (Table 112). -/
def Audit.bytes (a : Audit) : Bytes :=
  leBytes 8 a.aseq ++ leBytes 6 a.ts.toNat ++ leBytes 1 a.role ++ leBytes 1 a.path ++ leBytes 1 a.key ++ leBytes 1 a.result ++
  leBytes 2 a.action ++ leBytes 8 a.target ++ slice a.data 0 52 ++ leBytes 48 a.prev.toNat

/-- Records the audit log holds (Table 110). -/
def auditCap : Nat := 32768

/-- The oldest record would be overwritten and has not been written to the host log ring (R399). -/
def State.auditFull (s : State) : Bool :=
  decide (s.st.audit.length ≥ auditCap) && !(s.st.audit.getLast?.map (·.shipped)).getD true

/-- The device serial of R395. -/
def State.serial (s : State) : Bytes := leBytes 8 s.fuses.serialLo.toNat ++ leBytes 8 s.fuses.serialHi.toNat

/-- The log core can write the three records of an audit record now (R383). -/
def Telem.auditRoom (t : Telem) : Bool :=
  t.logUp && t.logEn && decide (t.logSpace ≥ 3 + (if t.lostLogs = 0 then 0 else 1))

/-- The records AUDIT_A, AUDIT_B and AUDIT_C of an audit record (R383). -/
def auditLogs (a : Audit) : List TelOp :=
  let b := a.bytes
  let sev := Sys2Proof.Config.auditSeverity
  let code := Sys2Proof.Config.logCode 1
  [.log 0 2 sev code (slice b 0 48), .log 0 3 sev code (slice b 48 48), .log 0 4 sev code (slice b 96 32 ++ List.replicate 16 0)]

/-- Make an audit record (R398), and hand the log core its copy, where that core runs; where the audit log is full the record is refused, with
one AUDIT_FULL event (R399). -/
def State.auditAdd (s : State) (role path key result action target : Nat) (data : Bytes) : State :=
  if s.auditFull then
    if s.st.auditTold then s
    else { s with st := { s.st with auditTold := true } }.tell [mkEvent 0xF09 []]
  else
    let prev := match s.st.audit with
      | [] => Sys2Proof.Config.sha384 s.serial
      | a :: _ => Sys2Proof.Config.sha384 a.bytes
    let a : Audit := { aseq := s.st.aseq, ts := s.tel.ts, role := role, path := path, key := key, result := result,
                       action := action, target := target, data := slice data 0 52, prev := prev, shipped := s.tel.auditRoom,
                       handed := s.tel.logUp }
    let keep := if s.st.audit.length ≥ auditCap then s.st.audit.dropLast else s.st.audit
    { s with st := { s.st with audit := a :: keep, aseq := s.st.aseq + 1, auditTold := false } }.tell
      ((if s.tel.logUp then auditLogs a else []) ++ [TelOp.count Ctr.auditRecords 1])

/-- The log core runs again: it takes the copies of the audit records that were made without it, oldest first (R393, R398; log entry 14). -/
def State.handAudits (s : State) : State :=
  State.forEach (fun s (a : Audit) =>
    let mark := fun (x : Audit) => if x.aseq = a.aseq then { x with handed := true, shipped := s.tel.auditRoom } else x
    (s.onSt fun t => { t with audit := t.audit.map mark }).tell (auditLogs a)) (s.st.audit.reverse.filter fun a => !a.handed) s

/-- The key index of a path's session, 0xFF for none. -/
def State.sessKey (s : State) (p : Path) : Nat :=
  match pget s.st.sessions p with
  | some e => e.key
  | none => 0xFF

/-- An audit record of a register write (Table 112: ACTION 0x8000 plus the block number). -/
def State.auditReg (s : State) (p : Path) (off result : Nat) (val : Word64) : State :=
  s.auditAdd (s.rights p - 1) (Path.num p) (s.sessKey p) result (0x8000 + off / 0x10000) off (leBytes 8 val.toNat)

/-- An audit record that the hardware makes: a spare brought into service, a closure, an abandoned activation. -/
def State.auditHw (s : State) (action target : Nat) : State := s.auditAdd 3 4 0xFF 0 action target []

/-- A reset of its path ends a session (R395); the end is audited (R398). -/
def State.endSession (s : State) (p : Path) : State :=
  match pget s.st.sessions p with
  | none => s
  | some e => ({ s with st := { s.st with sessions := pdel s.st.sessions p } }).auditAdd 3 (Path.num p) e.key 0 0x12 0 []

/-! ## The gate of register writes -/

/-- What becomes of a write before its own effect. -/
inductive Gate where
  | absent    -- the path reaches no register
  | shut      -- the debug access bus is closed (R35)
  | ignored   -- ignored and counted in REG_IGNORED
  | denied    -- not made for want of rights
  | open'     -- made
  deriving DecidableEq, Repr

/-- The function of a host port has enumerated and can be reached (R26, R431): function 1 is there where the member has port 1. -/
def State.fnUp (s : State) (p : Path) : Bool :=
  let n := if p = .fn1 then 1 else 0
  s.pw.cxlEnum && decide (n < Member.cxlPorts s.fuses.member) && (mgetD s.pw.cxl n {}).up

/-- R431, R440, R444: `least` is the least role (Table 128). -/
def State.gate (s : State) (p : Path) (off least : Nat) : Gate :=
  let blk := off / 0x10000
  match p with
  | .i3c => .absent
  | .dbg =>
    if s.st.debug = 0 then .shut
    else if blk ≠ 0xE && blk ≠ 0xF && !s.pw.ready then .ignored
    else if s.st.debug = 2 then .open'
    else if off = Reg.traceEn || off = Reg.logCtl then .open'
    else .denied
  | _ =>
    if !(s.fnUp p) then .absent
    else if blk ≠ 0xE && blk ≠ 0xF && !s.pw.ready then .ignored
    else if s.rights p < least then .denied
    else .open'

/-- An access over the closed debug bus is answered with access denied, once the boundary is released (R35, Table 5). -/
def State.shutOut (s : State) : State := if s.pw.selvedge then s else s.send .dbgDenied

/-- A write ignored (R427 to R431). -/
def State.ignoreWrite (s : State) : State := s.count Ctr.regIgnored

/-- A write or command not made for want of authority (R397, R444). -/
def State.denyWrite (s : State) (p : Path) (off : Nat) (val : Word64) : State :=
  (s.auditReg p off 3 val).count Ctr.regDenied

/-- A role's core runs, or the spare runs the role (R379, R394). -/
def State.roleUp (s : State) (r : Nat) : Bool :=
  mgetD s.st.cores r .off == .run || (s.st.spareRole == r && mgetD s.st.cores 6 .off == .run)

/-- The log record of a sensor that the health core reads outside its limit (R381; log entry 54). -/
def State.logSensor (s : State) (code i v : Nat) : State :=
  if s.roleUp 1 then s.tell [.log 1 0 4 (Sys2Proof.Config.logCode code) (leBytes 8 i ++ leBytes 8 v ++ List.replicate 32 0)] else s

/-- The key under which a command that waits for its core is noted. -/
def waitKey (p : Path) (off : Nat) : Nat :=
  if off = Reg.mbxCmd then pkey p off else off

/-- RESULT of a command register whose GO is bit 31 and whose RESULT is bits [39:32]. -/
def State.finish (s : State) (p : Path) (off result : Nat) : State :=
  regPut s p off (putf (putf (regGet s p off) 31 1 0) 32 8 result)

/-- Set a further field of a command register. -/
def State.cmdField (s : State) (p : Path) (off lo n x : Nat) : State :=
  regPut s p off (putf (regGet s p off) lo n x)

/-- Start a register command (R430, R432): pass the gate, refuse while GO reads 1, hold with GO at 1 while the serving core does
not run, else store the command's fields with GO at 1 and RESULT 0 and run it. `go` is GO's bit, `core` the serving core's role;
`audited` commands, and all on the debug path, make an audit record first and are refused when none can be made (R399, R444). -/
def State.command (s : State) (p : Path) (off go least : Nat) (audited : Bool) (core : Option Nat) (val : Word64)
    (run : State → State) : State :=
  match s.gate p off least with
  | .absent => s
  | .shut => s.shutOut
  | .ignored => s.ignoreWrite
  | .denied => s.denyWrite p off val
  | .open' =>
    let old := regGet s p off
    let rw := match regAt off with
      | some r => r.rw
      | none => 0
    let new := BitVec.ofNat 64 (mergeBits old.toNat val.toNat rw &&& (rw ||| 2 ^ go))
    let waiting := s.st.waitCore.contains (waitKey p off)
    if bitb old go && !(waiting && old == new) then s.ignoreWrite
    else
      let up := match core with
        | some r => s.roleUp r
        | none => true
      if !up then { (regPut s p off new) with st := { s.st with waitCore := waitKey p off :: s.st.waitCore.erase (waitKey p off) } }
      else if (audited || p == .dbg) && s.auditFull then s.auditReg p off 8 val
      else
        let s1 := { s with st := { s.st with waitCore := s.st.waitCore.erase (waitKey p off) } }
        let s2 := if audited || p = .dbg then s1.auditReg p off 0 val else s1
        run (regPut s2 p off new)

/-! ## Register writes (R427, R428, R444) -/

/-- An access of 8 bytes at an 8-byte boundary, or of 4 bytes at a 4-byte boundary (R428). -/
def accessFits (off size : Nat) : Bool := (size == 8 && off % 8 == 0) || (size == 4 && off % 4 == 0)

/-- A write to register `reg`: through the gate, with what R428 makes of its size; `apply` takes the state, the value the register
held and the value that its RW fields take. A write on the debug path makes an audit record first (Table 128). -/
def State.regWrite (s : State) (p : Path) (off size : Nat) (val : Word64) (reg least : Nat)
    (apply : State → Word64 → Word64 → State) : State :=
  if off / 8 * 8 ≠ reg then s
  else match s.gate p reg least with
    | .absent => s
    | .shut => s.shutOut
    | .ignored => s.ignoreWrite
    | .denied => s.denyWrite p reg val
    | .open' =>
      match regAt reg with
      | none => s.ignoreWrite
      | some row =>
        if !(accessFits off size) then s.ignoreWrite
        else if p = .dbg && s.auditFull then s.auditReg p reg 8 val
        else
          let upper := off % 8 == 4
          let old := regGet s p reg
          let low := mgetD s.lows (pkey p reg) (BitVec.ofNat 32 old.toNat)
          let new := regMerge row old low upper size val
          let s1 := if upper then s else { s with lows := mset s.lows (pkey p reg) (BitVec.ofNat 32 val.toNat) }
          let s2 := if p = .dbg then s1.auditReg p reg 0 val else s1
          apply s2 old new

end Sys2Proof.Machine
end

