-- ==== Sys2Proof/Machine/Flags.lean ====
section
/-!
DEFINITION. The status codes of Table 24, the FLAGS of Table 23, and the bytes of completion and EVENT records (R67 to R70).
-/

namespace Sys2Proof.Machine

/-! ## Status codes (Table 24) -/

def St.ok : BitVec 8 := 0x00
def St.badOpcode : BitVec 8 := 0x10
def St.badFormat : BitVec 8 := 0x11
def St.seqMismatch : BitVec 8 := 0x12
def St.badContext : BitVec 8 := 0x13
def St.badTable : BitVec 8 := 0x14
def St.versionGone : BitVec 8 := 0x15
def St.ringOverrun : BitVec 8 := 0x16
def St.segMiss : BitVec 8 := 0x20
def St.rights : BitVec 8 := 0x21
def St.pageFault : BitVec 8 := 0x22
def St.segStraddle : BitVec 8 := 0x23
def St.xlateAbort : BitVec 8 := 0x24
def St.dmaTimeout : BitVec 8 := 0x25
def St.tileBusy : BitVec 8 := 0x30
def St.windowOverflow : BitVec 8 := 0x31
def St.badKey : BitVec 8 := 0x32
def St.waitTimeout : BitVec 8 := 0x33
def St.waitAborted : BitVec 8 := 0x34
def St.tierUnreachable : BitVec 8 := 0x35
def St.flashError : BitVec 8 := 0x36
def St.straggler : BitVec 8 := 0x40
def St.unrecoverable : BitVec 8 := 0x41
def St.dataError : BitVec 8 := 0x50
def St.poisoned : BitVec 8 := 0x51
def St.resetAbort : BitVec 8 := 0x60

/-- Reads in error that a host input with this status stands for: it was read twice, and its data came back bad both times (R411). -/
def badReads (st : BitVec 8) : Nat := if st = St.dataError then 2 else 0

/-! ## FLAGS (Table 23) -/

def Fl.overflow : Nat := 0
def Fl.rerunWide : Nat := 1
def Fl.scaleSat : Nat := 2
def Fl.late : Nat := 3
def Fl.partial' : Nat := 4
def Fl.replayed : Nat := 5
def Fl.striped : Nat := 6
def Fl.inlineSpill : Nat := 7

/-- A FLAGS word with one more bit, where the condition holds. -/
def withFlag (f : BitVec 16) (bit : Nat) (on : Bool) : BitVec 16 :=
  if on then f ||| BitVec.ofNat 16 (2 ^ bit) else f

/-! ## Records (Table 22) -/

/-- KIND values. -/
def Kind.normal : Nat := 0
def Kind.inline' : Nat := 1
def Kind.event : Nat := 2
def Kind.pad : Nat := 3

/-- The phase of the slot at a producer index: 1 on even passes (R67). -/
def phaseAt (idx size : Nat) : Bool := idx / size % 2 == 0

/-- Bytes 0 to 7 of a header: SEQ or event code, RING, PHASE, KIND, NORING, STATUS. -/
def recHead (seq ring : Nat) (phase : Bool) (kind : Nat) (noring : Bool) (status : BitVec 8) : Bytes :=
  leBytes 4 seq ++
  leBytes 4 (atBit (if noring then 0 else ring) 17 0 + atBit (b2n phase) 1 17 + atBit kind 2 18 + atBit (b2n noring) 1 20 +
    atBit status.toNat 8 24)

/-- A completion record header (Table 22). -/
def recBytes (seq ring : Nat) (phase : Bool) (kind : Nat) (status : BitVec 8) (flags ver : BitVec 16) (digest : BitVec 32)
    (done detail : Nat) (info : Word64) : Bytes :=
  recHead seq ring phase kind false status ++ leBytes 2 flags.toNat ++ leBytes 2 ver.toNat ++ leBytes 4 digest.toNat ++
  leBytes 4 done ++ leBytes 4 detail ++ leBytes 8 info.toNat

/-- An EVENT record (R69): the code, the source ring if any, and bytes 8 to 31. -/
def eventBytes (e : Event) (phase : Bool) : Bytes :=
  recHead e.code.toNat (e.ring.getD 0) phase Kind.event e.ring.isNone 0 ++ slice e.data 0 24

/-- A PAD record (R68). -/
def padBytes (phase : Bool) : Bytes := recHead 0 0 phase Kind.pad true 0 ++ List.replicate 24 0

end Sys2Proof.Machine
end

