-- ==== Sys2Proof/Machine/Operands.lean ====
section
/-!
DEFINITION. The fields of a descriptor (Tables 18, 19, 37, 48, 49, 51, 64, 86), of a ring table entry (Table 16), of a table
image (Table 32) and of a segment mirror entry (Table 26).
-/

namespace Sys2Proof.Machine

/-! ## Descriptor (Table 18) -/

def Desc.opc (d : Desc) : Nat := field d.raw 0 1
def Desc.flg (d : Desc) : Nat := field d.raw 1 1
def Desc.ctx (d : Desc) : Nat := field d.raw 2 2 % 4096
def Desc.mode (d : Desc) : Nat := field d.raw 2 2 / 4096
def Desc.seq (d : Desc) : BitVec 32 := BitVec.ofNat 32 (field d.raw 4 4)
def Desc.tbl (d : Desc) : Nat := field d.raw 8 2
def Desc.verField (d : Desc) : Nat := field d.raw 10 2
def Desc.epoch (d : Desc) : BitVec 32 := BitVec.ofNat 32 (field d.raw 12 4)
def Desc.src (d : Desc) : Nat := field d.raw 16 8
def Desc.dst (d : Desc) : Nat := field d.raw 24 8
def Desc.count (d : Desc) : Nat := field d.raw 32 4
def Desc.bags (d : Desc) : Nat := field d.raw 36 4
def Desc.tile (d : Desc) : Nat := field d.raw 40 2 % 4096
def Desc.pool (d : Desc) : Nat := field d.raw 40 2 / 4096
def Desc.outfmt (d : Desc) : Nat := field d.raw 42 2 % 16
def Desc.rescale (d : Desc) : Nat := field d.raw 42 2 / 16
def Desc.aux (d : Desc) : Nat := field d.raw 40 8

/-- FLG bits (Table 19). -/
def Desc.flag (d : Desc) (i : Nat) : Bool := Desc.flg d / 2 ^ i % 2 == 1
def Desc.picot (d : Desc) : Bool := Desc.flag d 0
def Desc.irq (d : Desc) : Bool := Desc.flag d 1
def Desc.inline' (d : Desc) : Bool := Desc.flag d 2
def Desc.hasExt (d : Desc) : Bool := Desc.flag d 3
def Desc.quiet (d : Desc) : Bool := Desc.flag d 4
def Desc.stripe (d : Desc) : Bool := Desc.flag d 5
def Desc.hold (d : Desc) : Bool := Desc.flag d 6

def Desc.extPtr (d : Desc) : Nat := field d.raw 48 8
def Desc.extLen (d : Desc) : Nat := field d.raw 56 4

/-- Slots a descriptor of these bytes takes. -/
def Desc.slots (d : Desc) : Nat := if d.raw.length > 64 then 2 else 1

/-- Completion slots to reserve (R71). -/
def Desc.cplNeed (d : Desc) : Nat := if Desc.inline' d then 5 else 1

/-! ### Gather (Tables 48, 49, 51) -/

def Desc.key32 (d : Desc) : Bool := Desc.mode d % 2 == 1
def Desc.bagfmt (d : Desc) : Nat := Desc.mode d / 2 % 4
def Desc.weighted (d : Desc) : Bool := Desc.mode d / 8 == 1
def Desc.offs (d : Desc) : Nat := field d.ext 0 8
def Desc.wgt (d : Desc) : Nat := field d.ext 8 8
def Desc.keyBytes (d : Desc) : Nat := if Desc.key32 d then 4 else 8
/-- Bytes of inline payload (R175): 16, or 80 in picot form. -/
def Desc.payload (d : Desc) : Bytes := d.raw.drop 48

/-! ### Scatter and apply (Table 64, R248) -/

def Desc.rowsForm (d : Desc) : Bool := Desc.mode d / 2 % 2 == 1
def Desc.gbf16 (d : Desc) : Bool := Desc.mode d / 4 % 2 == 1
def Desc.lring (d : Desc) : Nat := field d.raw 48 4 % 2 ^ 17
def Desc.lseq (d : Desc) : BitVec 32 := BitVec.ofNat 32 (field d.raw 52 4)
def Desc.gradPtr (d : Desc) : Nat := field d.raw 48 8
def Desc.lr (d : Desc) : F32 := BitVec.ofNat 32 (field d.raw 48 4)
def Desc.stepT (d : Desc) : Nat := field d.raw 52 4

/-! ### Table operations (Table 37) -/

/-- Payload bytes 48 to 55, bits [47:0]: LBA_BASE or FIRST_ROW. -/
def Desc.row0 (d : Desc) : Nat := field d.raw 48 8 % 2 ^ 48
def Desc.byte56 (d : Desc) : Nat := field d.raw 56 1
/-- SRC[47:0] as a row index (R112, R113). -/
def Desc.srcRow (d : Desc) : Nat := Desc.src d % 2 ^ 48

/-! ### WAIT (R84) -/

def Desc.waitRing (d : Desc) : Nat := field d.raw 16 4 % 2 ^ 17
def Desc.waitSeq (d : Desc) : BitVec 32 := BitVec.ofNat 32 (field d.raw 20 4)

/-! ## Ring table entry (Table 16) -/

def RingType.isCpl : RingType → Bool
  | .hostCpl => true | .nearCpl => true | _ => false

def RingType.isHost : RingType → Bool
  | .hostDesc => true | .hostCpl => true | _ => false

def ringTypeOf : Nat → RingType
  | 0 => .hostDesc | 1 => .nearDesc | 2 => .hostCpl | _ => .nearCpl

def RingType.num : RingType → Nat
  | .hostDesc => 0 | .nearDesc => 1 | .hostCpl => 2 | .nearCpl => 3

/-- Table 17. -/
def RingState.num : RingState → Nat
  | .disabled => 0 | .active => 1 | .paused => 2 | .pausedHost => 3 | .error => 4 | .draining => 5 | .portDown => 6

/-- Bytes 0 to 31 of an entry laid over a ring's live state. -/
def Ring.configure (r : Ring) (b : Bytes) : Ring :=
  let b9 := field b 9 1
  let v := field b 16 2
  let ord := b9 / 8 % 2 == 1
  { r with
    base := field b 0 8 % 2 ^ 57
    log2 := field b 8 1 % 32
    typ := ringTypeOf (b9 % 4)
    home := b9 / 4 % 2
    ord := ord
    dbMode := b9 / 16 % 2 == 1
    stripeOk := b9 / 32 % 2 == 1
    inOrder := b9 / 64 % 2 == 1 || ord
    ctx := field b 10 2 % 4096
    cplRing := field b 12 4 % 2 ^ 17
    vector := v % 2 ^ 11
    irqEn := v / 2 ^ 15 == 1
    modCount := field b 18 1
    modTime := field b 20 2
    weight := field b 22 1 % 16
    consWb := field b 24 8 }

/-- The starting indices of bytes 32 to 39, taken at ENABLE (R45). The consumer index of a completion ring, which R45 does not name,
starts equal to PROD_IDX, so that the ring is empty (log entry 97). -/
def Ring.start (r : Ring) (b : Bytes) : Ring :=
  let i := BitVec.ofNat 32 (field b 32 4)
  let n := BitVec.ofNat 32 (field b 36 4)
  let desc := !(RingType.isCpl r.typ)
  { r with
    idx := i
    pub := i
    nextSeq := if desc then n else 0
    doneSeq := if desc then n - 1 else 0
    doneAhead := []
    errSeq := 0
    errStatus := 0
    resv := 0
    wbSince := 0
    turn := 0
    turnAt := []
    half := none
    unsig := 0
    unseen := 0 }

/-- A ring with no descriptor read in flight. -/
def Ring.noTurn (r : Ring) : Ring := { r with turn := 0, turnAt := [], half := none }

/-- Slots of a ring. -/
def Ring.size (r : Ring) : Nat := 2 ^ r.log2

/-- A descriptor ring's slots published and not yet consumed, or a completion ring's slots in use (R44). -/
def Ring.ahead (r : Ring) : Nat := (r.pub - r.idx).toNat
def Ring.used (r : Ring) : Nat := (r.idx - r.pub).toNat

/-- Space of a completion ring (R71). -/
def Ring.space (r : Ring) : Nat := Ring.size r - Ring.used r - r.resv

def Ring.isCpl (r : Ring) : Bool := RingType.isCpl r.typ
def Ring.isHost (r : Ring) : Bool := RingType.isHost r.typ

/-- Bytes 32 to 63 of an entry as DUMP_ONE and DUMP_ALL write them (R46). -/
def Ring.dump (r : Ring) : Bytes :=
  leBytes 4 r.idx.toNat ++ leBytes 4 r.nextSeq.toNat ++ leBytes 4 r.doneSeq.toNat ++ leBytes 1 (RingState.num r.state) ++
  leBytes 1 (if r.state = .pausedHost then RingState.num r.hostFrom else 0) ++ leBytes 2 0 ++ leBytes 4 r.errSeq.toNat ++
  leBytes 1 r.errStatus.toNat ++ List.replicate 11 0

/-! ## Segment mirror entry (Table 26) -/

/-- The entry for segment `seg` of a 512-byte mirror block, valid ones only; and whether its TARGET is invalid. TARGET of an entry with V at 0
is not looked at, and 2 or 3 there does not count in CFG_IGNORED: R91 says only that 2 and 3 count (DESIGN CHOICE). -/
def mirrorEntry (ctx seg : Nat) (block : Bytes) : Option SegEntry × Bool :=
  let b := block.drop (32 * seg)
  let f := field b 24 2
  let target := f / 16 % 4
  if f % 2 = 0 then (none, false)
  else if target ≥ 2 then (none, true)
  else
    (some { ctx := ctx, seg := seg, start := field b 0 8, len := field b 8 8 % 2 ^ 58, base := field b 16 8 % 2 ^ 57,
            r := f / 2 % 2 == 1, w := f / 4 % 2 == 1, a := f / 8 % 2 == 1, fabric := target == 1,
            pinned := f / 64 % 2 == 1 }, false)

/-! ## Table image (Table 32) -/

def gradeOf : Nat → Option Grade
  | 0 => some .fp32 | 1 => some .bf16 | 2 => some .fp8 | 3 => some .int8 | 4 => some .int4 | _ => none

def Grade.num : Grade → Nat
  | .fp32 => 0 | .bf16 => 1 | .fp8 => 2 | .int8 => 3 | .int4 => 4

/-- Grade a is wider than grade b (R118). -/
def Grade.wider (a b : Grade) : Bool := decide (Grade.num a < Grade.num b)

def ruleOf : Nat → Option Rule
  | 0 => some .none | 1 => some .add | 2 => some .sgd | 3 => some .momentum | 4 => some .adagradRow | 5 => some .adagradElem
  | 6 => some .adam | _ => none

/-- The raw fields of an image. -/
def img_rows (b : Bytes) : Nat := field b 0 8
def img_dim (b : Bytes) : Nat := field b 8 2
def img_b10 (b : Bytes) : Nat := field b 10 1
def img_b11 (b : Bytes) : Nat := field b 11 1
def img_nbands (b : Bytes) : Nat := img_b11 b / 64 + 1
def img_band (b : Bytes) (i : Nat) : Nat := field b (16 + 2 * i) 2

def bandOf (w : Nat) : Band :=
  { thresh := w % 256, grade := (gradeOf (w / 256 % 8)).getD .fp32, direct := w / 2048 % 2 == 1 }

def img_bands (b : Bytes) : List Band := (List.range (img_nbands b)).map fun i => bandOf (img_band b i)

end Sys2Proof.Machine
end

