-- ==== Sys2Proof/Machine/Float.lean ====
section
/-!
DEFINITION. The arithmetic of R189 to R194, R209 to R214, R218 to R225, R252 to R254: exact values on naturals and integers,
then one rounding, ties away from zero or ties to even (`ties` true).
-/

namespace Sys2Proof.Machine

/-- What a float's bits stand for: (−1)^neg × m × 2^e, an infinity, or a NaN. -/
inductive FVal where
  | nan
  | inf (neg : Bool)
  | fin (neg : Bool) (m : Nat) (e : Int)
  deriving DecidableEq, Repr

/-- The quiet NaN that every NaN result is (R194). -/
def qnan : F32 := 0x7FC00000#32

/-- num / den to the nearest natural: ties away from zero, or to even. -/
def roundDiv (ties : Bool) (num den : Nat) : Nat :=
  let q := num / den
  let r := 2 * (num % den)
  if r < den then q
  else if r = den then (if ties then q + q % 2 else q + 1)
  else q + 1

/-- The magnitude bits of num / den × 2^e in a format of p significand bits whose least place is 2^qmin, with no upper bound
on the exponent. -/
def encodeMag (ties : Bool) (p : Nat) (qmin : Int) (num den : Nat) (e : Int) : Nat :=
  if num = 0 then 0 else
  let k : Int := (Nat.log2 num : Int) - (Nat.log2 den : Int)
  -- floor of log2 (num / den) is k or k − 1
  let ge : Bool := if k ≥ 0 then decide (den * 2 ^ k.toNat ≤ num) else decide (den ≤ num * 2 ^ (-k).toNat)
  let top : Int := (if ge then k else k - 1) + e
  let q : Int := max (top - ((p : Int) - 1)) qmin
  let sh : Int := e - q
  let m := if sh ≥ 0 then roundDiv ties (num * 2 ^ sh.toNat) den else roundDiv ties num (den * 2 ^ (-sh).toNat)
  (q - qmin).toNat * 2 ^ (p - 1) + m

/-- The value that binary32 bits stand for. -/
def fval (b : F32) : FVal :=
  let n := b.toNat
  let neg := b.getLsbD 31
  let ex : Nat := n / 2 ^ 23 % 256
  let fr : Nat := n % 2 ^ 23
  if ex = 255 then (if fr = 0 then .inf neg else .nan)
  else if ex = 0 then .fin neg fr (-149)
  else .fin neg (fr + 2 ^ 23) ((ex : Int) - 150)

def f32Inf (neg : Bool) : F32 := if neg then 0xFF800000#32 else 0x7F800000#32

def f32Zero (neg : Bool) : F32 := if neg then 0x80000000#32 else 0x00000000#32

/-- Round num / den × 2^e to binary32; the flag says that a finite value became an infinity. -/
def roundF (ties neg : Bool) (num den : Nat) (e : Int) : F32 × Bool :=
  let b := encodeMag ties 24 (-149) num den e
  if b ≥ 0x7F800000 then (f32Inf neg, true)
  else (BitVec.ofNat 32 (b + (if neg then 0x80000000 else 0)), false)

/-- a × 2^ea as an integer at exponent e, with e at most ea. -/
def alignTo (neg : Bool) (m : Nat) (ea e : Int) : Int :=
  let x : Int := (m * 2 ^ (ea - e).toNat : Nat)
  if neg then -x else x

/-- The exact sum of two finite values: sign, magnitude, exponent; an exact zero is positive unless both are negative zeros. -/
def exactAdd (na : Bool) (ma : Nat) (ea : Int) (nb : Bool) (mb : Nat) (eb : Int) : Bool × Nat × Int :=
  let e := min ea eb
  let x := alignTo na ma ea e + alignTo nb mb eb e
  if x = 0 then (na && nb && ma == 0 && mb == 0, 0, e) else (decide (x < 0), x.natAbs, e)

/-- FP32 add with one rounding; the flag tells an overflowing rounding. -/
def faddO (ties : Bool) (a b : F32) : F32 × Bool :=
  match fval a, fval b with
  | .nan, _ => (qnan, false)
  | _, .nan => (qnan, false)
  | .inf x, .inf y => if x = y then (f32Inf x, false) else (qnan, false)
  | .inf x, .fin _ _ _ => (f32Inf x, false)
  | .fin _ _ _, .inf y => (f32Inf y, false)
  | .fin na ma ea, .fin nb mb eb =>
    let r := exactAdd na ma ea nb mb eb
    if r.2.1 = 0 then (f32Zero r.1, false) else roundF ties r.1 r.2.1 1 r.2.2

/-- FP32 multiply with one rounding. -/
def fmulO (ties : Bool) (a b : F32) : F32 × Bool :=
  match fval a, fval b with
  | .nan, _ => (qnan, false)
  | _, .nan => (qnan, false)
  | .inf x, .inf y => (f32Inf (x != y), false)
  | .inf x, .fin y m _ => if m = 0 then (qnan, false) else (f32Inf (x != y), false)
  | .fin x m _, .inf y => if m = 0 then (qnan, false) else (f32Inf (x != y), false)
  | .fin na ma ea, .fin nb mb eb =>
    if ma * mb = 0 then (f32Zero (na != nb), false) else roundF ties (na != nb) (ma * mb) 1 (ea + eb)

/-- FP32 divide with one rounding. -/
def fdivO (ties : Bool) (a b : F32) : F32 × Bool :=
  match fval a, fval b with
  | .nan, _ => (qnan, false)
  | _, .nan => (qnan, false)
  | .inf _, .inf _ => (qnan, false)
  | .inf x, .fin y _ _ => (f32Inf (x != y), false)
  | .fin x _ _, .inf y => (f32Zero (x != y), false)
  | .fin na ma ea, .fin nb mb eb =>
    if mb = 0 then (if ma = 0 then (qnan, false) else (f32Inf (na != nb), false))
    else if ma = 0 then (f32Zero (na != nb), false)
    else roundF ties (na != nb) ma mb (ea - eb)

def fneg (a : F32) : F32 := a ^^^ 0x80000000#32
def fadd (ties : Bool) (a b : F32) : F32 := (faddO ties a b).1
def fsub (ties : Bool) (a b : F32) : F32 := (faddO ties a (fneg b)).1
def fmul (ties : Bool) (a b : F32) : F32 := (fmulO ties a b).1
def fdiv (ties : Bool) (a b : F32) : F32 := (fdivO ties a b).1

/-- Floor of the square root, bit by bit from 2^(n − 1). -/
def isqrtAux (x : Nat) : Nat → Nat → Nat
  | 0, r => r
  | i + 1, r => let c := r + 2 ^ i; if c * c ≤ x then isqrtAux x i c else isqrtAux x i r

def isqrt (x : Nat) : Nat := isqrtAux x (Nat.log2 x / 2 + 1) 0

/-- The square root of num / den × 2^e (e even) to 80 places, as a numerator over 2 with a sticky low bit, and its exponent. -/
def sqrtParts (num den : Nat) (e : Int) : Nat × Int :=
  let k : Nat := 160
  let x := num * 2 ^ (2 * k)
  let r := isqrt (x / den)
  (2 * r + (if r * r * den = x then 0 else 1), e / 2 - (k : Int))

/-- FP32 square root with one rounding. -/
def fsqrt (ties : Bool) (a : F32) : F32 :=
  match fval a with
  | .nan => qnan
  | .inf neg => if neg then qnan else f32Inf false
  | .fin neg m e =>
    if m = 0 then f32Zero neg else if neg then qnan else
    let me := if e % 2 = 0 then (m, e) else (2 * m, e - 1)
    let p := sqrtParts me.1 1 me.2
    (roundF ties false p.1 2 p.2).1

/-- A natural number as FP32, rounded once. -/
def fofNat (ties : Bool) (n : Nat) : F32 := if n = 0 then 0#32 else (roundF ties false n 1 0).1

/-- 1 / n rounded once, n positive (R192). -/
def finvNat (ties : Bool) (n : Nat) : F32 := (roundF ties false 1 n 0).1

/-- 1 / √n rounded once, n positive (R192). -/
def finvSqrtNat (ties : Bool) (n : Nat) : F32 :=
  let p := sqrtParts 1 n 0
  (roundF ties false p.1 2 p.2).1

def fIsNaN (a : F32) : Bool := match fval a with | .nan => true | _ => false
def fIsInf (a : F32) : Bool := match fval a with | .inf _ => true | _ => false
def fFinite (a : F32) : Bool := match fval a with | .fin _ _ _ => true | _ => false

/-- The magnitude bits, which order finite magnitudes. -/
def fmag (a : F32) : Nat := a.toNat % 2 ^ 31

def fIsZero (a : F32) : Bool := fmag a == 0

/-- A normal finite number (R215: an entry that is zero, subnormal, infinite or NaN is refused). -/
def fNormal (a : F32) : Bool := let ex := a.toNat / 2 ^ 23 % 256; ex != 0 && ex != 255

/-- An order on finite values: sign and magnitude as one integer. -/
def fkey (a : F32) : Int := if a.getLsbD 31 then -(fmag a : Int) else (fmag a : Int)

/-! ## Values with the provenance of their infinities (R194) -/

/-- An FP32 value, whether it is an infinity that came from an overflowing rounding, and whether OVERFLOW has arisen in it. -/
structure FO where
  v    : F32
  infO : Bool
  ev   : Bool
  deriving DecidableEq, Repr

def FO.ofF (v : F32) : FO := ⟨v, false, false⟩

/-- Add with R194's OVERFLOW rule. -/
def foAdd (ties : Bool) (a b : FO) : FO :=
  let r := faddO ties a.v b.v
  let clash := fIsInf a.v && fIsInf b.v && a.v != b.v && (a.infO || b.infO)
  ⟨r.1, fIsInf r.1 && (r.2 || a.infO || b.infO), a.ev || b.ev || r.2 || clash⟩

/-- Multiply with R194's OVERFLOW rule. -/
def foMul (ties : Bool) (a b : FO) : FO :=
  let r := fmulO ties a.v b.v
  ⟨r.1, fIsInf r.1 && (r.2 || a.infO || b.infO), a.ev || b.ev || r.2⟩

/-! ## Grades (R209 to R213) -/

/-- Bytes of one element of an encoding; INT4 packs two in a byte. -/
def gradeBytes (g : Grade) (dim : Nat) : Nat :=
  match g with
  | .fp32 => 4 * dim | .bf16 => 2 * dim | .fp8 => dim | .int8 => dim + 8 | .int4 => (dim + 1) / 2 + 8

/-- A grade's width in bits, for narrower and wider. -/
def gradeBits : Grade → Nat
  | .fp32 => 32 | .bf16 => 16 | .fp8 => 8 | .int8 => 8 | .int4 => 4

/-- FP32 to BF16 (R209); the flag tells a finite value that became an infinity. -/
def toBf16 (ties : Bool) (a : F32) : BitVec 16 × Bool :=
  let s := if a.getLsbD 31 then 0x8000 else 0
  match fval a with
  | .nan => (BitVec.ofNat 16 (0x7FC0 + s), false)
  | .inf _ => (BitVec.ofNat 16 (0x7F80 + s), false)
  | .fin _ m e =>
    let b := encodeMag ties 8 (-133) m 1 e
    if b ≥ 0x7F80 then (BitVec.ofNat 16 (0x7F80 + s), true) else (BitVec.ofNat 16 (b + s), false)

def ofBf16 (x : Nat) : F32 := BitVec.ofNat 32 (x % 65536 * 65536)

/-- The E4M3 magnitude of a finite value, rounded with no upper bound on the exponent. -/
def e4m3Mag (ties : Bool) (m : Nat) (e : Int) : Nat := encodeMag ties 4 (-9) m 1 e

/-- FP32 to stored FP8 (R210); the flag tells a clamp. -/
def toFp8 (ties : Bool) (a : F32) : Byte × Bool :=
  let s := if a.getLsbD 31 then 0x80 else 0
  match fval a with
  | .nan => (BitVec.ofNat 8 (0x7F + s), false)
  | .inf _ => (BitVec.ofNat 8 (0x7E + s), true)
  | .fin _ m e =>
    let b := e4m3Mag ties m e
    if b > 0x7E then (BitVec.ofNat 8 (0x7E + s), true) else (BitVec.ofNat 8 (b + s), false)

/-- FP8 to FP32, exact (R210). -/
def ofFp8 (b : Byte) : F32 :=
  let n := b.toNat
  let neg := b.getLsbD 7
  let ex : Nat := n / 8 % 16
  let fr : Nat := n % 8
  if n % 128 = 127 then (if neg then 0xFFC00000#32 else qnan)
  else if ex = 0 then (if fr = 0 then f32Zero neg else (roundF false neg fr 1 (-9)).1)
  else (roundF false neg (8 + fr) 1 ((ex : Int) - 10)).1

/-- x as an exact signed ratio: sign, numerator, exponent of two; a non-finite value gives zero. -/
def finParts (a : F32) : Bool × Nat × Int :=
  match fval a with
  | .fin neg m e => (neg, m, e)
  | _ => (false, 0, 0)

/-- round (num / den × 2^e) to an integer magnitude. -/
def roundInt (ties : Bool) (num den : Nat) (e : Int) : Nat :=
  if e ≥ 0 then roundDiv ties (num * 2 ^ e.toNat) den else roundDiv ties num (den * 2 ^ (-e).toNat)

/-- A finite exact value's sign, magnitude and exponent; zero for any other. -/
def FVal.parts : FVal → Bool × Nat × Int
  | .fin neg m e => (neg, m, e)
  | _ => (false, 0, 0)

/-- Finite values in order. -/
def FVal.lt : FVal → FVal → Bool
  | .fin a m e, .fin b n f => decide (alignTo a m e (min e f) < alignTo b n f (min e f))
  | _, _ => false

/-- The exact product. -/
def FVal.times : FVal → FVal → FVal
  | .nan, _ => .nan
  | _, .nan => .nan
  | .inf a, .inf b => .inf (a != b)
  | .inf a, .fin b m _ => if m = 0 then .nan else .inf (a != b)
  | .fin a m _, .inf b => if m = 0 then .nan else .inf (a != b)
  | .fin a m e, .fin b n f => .fin (a != b) (m * n) (e + f)

/-- round (x / scale) to an integer, scale positive and finite. -/
def quotInt (ties : Bool) (x : FVal) (scale : F32) : Int :=
  let a := x.parts
  let b := finParts scale
  if b.2.1 = 0 then 0 else
  let n : Int := roundInt ties a.2.1 b.2.1 (a.2.2 - b.2.2)
  if a.1 then -n else n

def minFin : List FVal → FVal → FVal
  | [], acc => acc
  | a :: t, acc => minFin t (if a.lt acc then a else acc)

def maxFin : List FVal → FVal → FVal
  | [], acc => acc
  | a :: t, acc => maxFin t (if acc.lt a then a else acc)

def clampI (x : Int) (lo hi : Int) : Int := max lo (min x hi)

/-- One INT code (R212). -/
def intCode (ties : Bool) (Q : Nat) (scale : F32) (zp : Nat) (x : FVal) : Nat :=
  match x with
  | .nan => zp
  | .inf neg => if neg then 0 else Q
  | .fin _ _ _ => (clampI (quotInt ties x scale + zp) 0 Q).toNat

/-- SCALE and ZP of a row (R212). -/
def intMeta (ties : Bool) (Q : Nat) (xs : List FVal) : F32 × Nat :=
  let b := (minFin xs (.fin false 0 0)).parts
  let a := (maxFin xs (.fin false 0 0)).parts
  if b.2.1 = 0 && a.2.1 = 0 then (0x3F800000#32, 0) else
  let d := exactAdd a.1 a.2.1 a.2.2 (!b.1) b.2.1 b.2.2
  let s := (roundF ties false d.2.1 Q d.2.2).1
  let s := if fIsZero s then 0x00000001#32 else s
  (s, (clampI (quotInt ties (.fin (!b.1) b.2.1 b.2.2) s) 0 Q).toNat)

def pack4 : List Nat → Bytes
  | [] => []
  | [a] => [BitVec.ofNat 8 (a % 16)]
  | a :: b :: t => BitVec.ofNat 8 (a % 16 + b % 16 * 16) :: pack4 t

def unpack4 : Bytes → List Nat
  | [] => []
  | b :: t => b.toNat % 16 :: b.toNat / 16 :: unpack4 t

/-- The encoding of a row's exact values into INT8 or INT4 (R212). -/
def encodeInt (ties : Bool) (g : Grade) (xs : List FVal) : Bytes :=
  if g = .int4 then
    let m := intMeta ties 15 xs
    pack4 (xs.map (intCode ties 15 m.1 m.2)) ++ leBytes 4 m.1.toNat ++ leBytes 4 m.2
  else
    let m := intMeta ties 255 xs
    xs.map (fun x => BitVec.ofNat 8 (intCode ties 255 m.1 m.2 x)) ++ leBytes 4 m.1.toNat ++ leBytes 4 m.2

/-- The encoding of a row's values into a grade, with the ENC_SAT count of its elements. -/
def encodeRow (ties : Bool) (g : Grade) (xs : List F32) : Bytes × Nat :=
  match g with
  | .fp32 => (xs.flatMap fun x => leBytes 4 x.toNat, 0)
  | .bf16 => (xs.flatMap fun x => leBytes 2 (toBf16 ties x).1.toNat, 0)
  | .fp8 => (xs.map fun x => (toFp8 ties x).1, (xs.filter fun x => (toFp8 ties x).2).length)
  | .int8 => (encodeInt ties .int8 (xs.map fval), 0)
  | .int4 => (encodeInt ties .int4 (xs.map fval), 0)

/-- Words of n bytes each; the fuel is the count. -/
def leWords (n : Nat) : Nat → Bytes → List Nat
  | 0, _ => []
  | c + 1, b => ofLE (b.take n) :: leWords n c (b.drop n)

/-- The operands that a stored copy presents to the multiplier (R189, R214): element operands, exact, and the copy's scale where
it is INT8 or INT4. -/
def operandsOf (g : Grade) (dim : Nat) (b : Bytes) : List F32 × Option F32 :=
  match g with
  | .fp32 => ((leWords 4 dim b).map (BitVec.ofNat 32 ·), none)
  | .bf16 => ((leWords 2 dim b).map ofBf16, none)
  | .fp8 => ((leWords 1 dim b).map fun x => ofFp8 (BitVec.ofNat 8 x), none)
  | .int8 =>
    let zp := field b (dim + 4) 1
    ((leWords 1 dim b).map fun q => intOperand q zp, some (BitVec.ofNat 32 (field b dim 4)))
  | .int4 =>
    let n := (dim + 1) / 2
    let zp := field b (n + 4) 1
    (((unpack4 (b.take n)).take dim).map fun q => intOperand q zp, some (BitVec.ofNat 32 (field b n 4)))
where
  /-- q − ZP as FP32, exact. -/
  intOperand (q zp : Nat) : F32 :=
    if q ≥ zp then fofNat false (q - zp) else fneg (fofNat false (zp - q))

/-- The FP32 values that a copy in FP32, BF16 or FP8 stands for (exact); for INT8 and INT4 the value SCALE × (q − ZP), rounded. -/
def valuesOf (ties : Bool) (g : Grade) (dim : Nat) (b : Bytes) : List F32 :=
  match operandsOf g dim b with
  | (xs, none) => xs
  | (xs, some s) => xs.map (fmul ties s)

/-- The exact values of a copy: SCALE × (q − ZP), not rounded, for INT8 and INT4 (R212). -/
def exactOf (g : Grade) (dim : Nat) (b : Bytes) : List FVal :=
  match operandsOf g dim b with
  | (xs, none) => xs.map fval
  | (xs, some s) => xs.map fun x => (fval s).times (fval x)

/-- A row stored in one grade, encoded into another (R209 to R212), with the ENC_SAT count of its elements. -/
def encodeFrom (ties : Bool) (src g : Grade) (dim : Nat) (b : Bytes) : Bytes × Nat :=
  if g = .int8 || g = .int4 then (encodeInt ties g (exactOf src dim b), 0) else encodeRow ties g (valuesOf ties src dim b)

/-! ## binary64, for LRT alone (R252). Log entry 5. -/

def roundD (neg : Bool) (num den : Nat) (e : Int) : BitVec 64 :=
  let b := encodeMag true 53 (-1074) num den e
  if b ≥ 0x7FF0000000000000 then (if neg then 0xFFF0000000000000#64 else 0x7FF0000000000000#64)
  else BitVec.ofNat 64 (b + (if neg then 2 ^ 63 else 0))

def dval (b : BitVec 64) : FVal :=
  let n := b.toNat
  let neg := b.getLsbD 63
  let ex : Nat := n / 2 ^ 52 % 2048
  let fr : Nat := n % 2 ^ 52
  if ex = 2047 then (if fr = 0 then .inf neg else .nan)
  else if ex = 0 then .fin neg fr (-1074)
  else .fin neg (fr + 2 ^ 52) ((ex : Int) - 1075)

def dnan : BitVec 64 := 0x7FF8000000000000#64
def dInf (neg : Bool) : BitVec 64 := if neg then 0xFFF0000000000000#64 else 0x7FF0000000000000#64
def dZero (neg : Bool) : BitVec 64 := if neg then BitVec.ofNat 64 (2 ^ 63) else 0#64

/-- FP32 widened to binary64, exact. -/
def dOfF (a : F32) : BitVec 64 :=
  match fval a with
  | .nan => dnan
  | .inf n => dInf n
  | .fin n m e => if m = 0 then dZero n else roundD n m 1 e

/-- 1 − x in binary64. -/
def dOneMinus (x : BitVec 64) : BitVec 64 :=
  match dval x with
  | .nan => dnan
  | .inf n => dInf (!n)
  | .fin n m e =>
    let r := exactAdd false 1 0 (!n) m e
    if r.2.1 = 0 then dZero false else roundD r.1 r.2.1 1 r.2.2

def dSqrt (x : BitVec 64) : BitVec 64 :=
  match dval x with
  | .nan => dnan
  | .inf n => if n then dnan else dInf false
  | .fin n m e =>
    if m = 0 then dZero n else if n then dnan else
    let me := if e % 2 = 0 then (m, e) else (2 * m, e - 1)
    let p := sqrtParts me.1 1 me.2
    roundD false p.1 2 p.2

def dMul (x y : BitVec 64) : BitVec 64 :=
  match dval x, dval y with
  | .nan, _ => dnan
  | _, .nan => dnan
  | .inf a, .inf b => dInf (a != b)
  | .inf a, .fin b m _ => if m = 0 then dnan else dInf (a != b)
  | .fin a m _, .inf b => if m = 0 then dnan else dInf (a != b)
  | .fin a m e, .fin b n f => if m * n = 0 then dZero (a != b) else roundD (a != b) (m * n) 1 (e + f)

def dDiv (x y : BitVec 64) : BitVec 64 :=
  match dval x, dval y with
  | .nan, _ => dnan
  | _, .nan => dnan
  | .inf _, .inf _ => dnan
  | .inf a, .fin b _ _ => dInf (a != b)
  | .fin a _ _, .inf b => dZero (a != b)
  | .fin a m e, .fin b n f =>
    if n = 0 then (if m = 0 then dnan else dInf (a != b))
    else if m = 0 then dZero (a != b) else roundD (a != b) m n (e - f)

/-- binary64 to FP32, one rounding. -/
def dToF (ties : Bool) (x : BitVec 64) : F32 :=
  match dval x with
  | .nan => qnan
  | .inf n => f32Inf n
  | .fin n m e => if m = 0 then f32Zero n else (roundF ties n m 1 e).1

/-- The sign of m × 2^e less the magnitude that binary64 bits stand for: 0 where they are equal. -/
def dCmp (m : Nat) (e : Int) (x : BitVec 64) : Int :=
  match dval x with
  | .fin _ n f => alignTo false m e (min e f) - alignTo false n f (min e f)
  | _ => -1

/-- m × 2^e, m not 0, in binary64: exact where binary64 holds it, else one of its two neighbours, the upper one where `up` says so. -/
def dNear (neg : Bool) (m : Nat) (e : Int) (up : Bool) : BitVec 64 :=
  let x := roundD neg m 1 e
  let c := dCmp m e x
  if c = 0 then x else if c < 0 then (if up then x else x - 1) else if up then x + 1 else x

/-- B^t in binary64: exact where binary64 holds it, else one of the two values beside it; which is the free value `Config.powStep` (log
entry 5). -/
def dPow (b : F32) (t : Nat) : BitVec 64 :=
  match fval b with
  | .nan => if t = 0 then 0x3FF0000000000000#64 else dnan
  | .inf n => if t = 0 then 0x3FF0000000000000#64 else dInf (n && t % 2 == 1)
  | .fin n m e =>
    if m ^ t = 0 then dZero (n && t % 2 == 1) else dNear (n && t % 2 == 1) (m ^ t) (e * t) (Sys2Proof.Config.powStep b t)

/-- LRT (R252). -/
def lrtOf (ties : Bool) (lr b1 b2 : F32) (t : Nat) : F32 :=
  dToF ties (dDiv (dMul (dOfF lr) (dSqrt (dOneMinus (dPow b2 t)))) (dOneMinus (dPow b1 t)))

end Sys2Proof.Machine
end

