-- ==== Sys2Proof/Machine/Tabs.lean ====
section
/-!
DEFINITION. Tables, versions, record sizes and partitions: what R116 to R139 say of them, as functions of the state.
-/

namespace Sys2Proof.Machine

def State.table (s : State) (h : Nat) : Option Table := mget s.tb.tables h

def State.setTable (s : State) (h : Nat) (t : Table) : State :=
  { s with tb := { s.tb with tables := mset s.tb.tables h t } }

/-- A context's configuration (R88). -/
def State.ctx (s : State) (c : Nat) : Word64 := mgetD s.ctxCfg c 0
def State.ctxEn (s : State) (c : Nat) : Bool := bitb (s.ctx c) 0
def State.ctxS (s : State) (c : Nat) : Bool := bitb (s.ctx c) 1
def State.ctxTies (s : State) (c : Nat) : Bool := bitb (s.ctx c) 2
def State.ctxPri (s : State) (c : Nat) : Bool := bitb (s.ctx c) 3
def State.ctxPasid (s : State) (c : Nat) : Nat := bitf (s.ctx c) 32 20

/-- Live versions named ver. -/
def Table.ver? (t : Table) (v : Nat) : Option Version := t.versions.find? fun x => x.ver == v

def Table.current (t : Table) : Option Version := t.versions.find? fun x => x.state == .current
def Table.staged (t : Table) : Option Version := t.versions.find? fun x => x.state == .staged

/-- A version that a descriptor may bind by name: live, and not begun to retire (R136). -/
def Table.bindable (t : Table) (v : Nat) : Bool :=
  match t.ver? v with
  | some x => !x.begun
  | none => false

/-- Change one version. -/
def Table.onVer (t : Table) (v : Nat) (f : Version → Version) : Table :=
  { t with versions := t.versions.map fun x => if x.ver = v then f x else x }

/-- A context may look rows up (R121). -/
def Table.readable (t : Table) (c : Nat) : Bool := t.ctx == c || t.readAny

/-! ## Keys (R150) -/

def keyOf (h row : Nat) : Key := BitVec.ofNat 64 (h % 65536 * 2 ^ 48 + row % 2 ^ 48)
def keyTbl (k : Key) : Nat := k.toNat / 2 ^ 48
def keyRow (k : Key) : Nat := k.toNat % 2 ^ 48
def nullKey : Key := 0xFFFFFFFFFFFFFFFF#64

/-! ## Records (R119, R122, R123, R185) -/

/-- Gimp words of a rule, and their bytes. -/
def Table.gimpRows (t : Table) : Nat :=
  match t.rule with
  | .momentum => 1 | .adagradElem => 1 | .adam => 2 | _ => 0

def Table.gimpBytes (t : Table) : Nat :=
  match t.rule with
  | .adagradRow => 4
  | _ => Table.gimpRows t * t.dim * (if t.gimp32 then 4 else 2)

/-- The source record: SRC_GRADE, with the gimp area if UPD is 1. -/
def Table.srcBytes (t : Table) : Nat := gradeBytes t.grade t.dim + (if t.upd then Table.gimpBytes t else 0)

def roundUp (x m : Nat) : Nat := (x + m - 1) / m * m

def slotOf (len : Nat) : Nat := roundUp len 16

/-- The slot of a copy in a grade; the master record's where it is in SRC_GRADE of an updatable table. -/
def Table.copyBytes (t : Table) (g : Grade) (master : Bool) : Nat :=
  gradeBytes g t.dim + (if master then Table.gimpBytes t else 0)

/-- BSTRIDE (R123). -/
def Table.bstride (t : Table) : Nat :=
  let b := roundUp (Table.srcBytes t) 64
  if t.backTier = 2 && b > 4096 then roundUp b 4096 else b

/-- Rows in one 4 KiB block on tier 2 (R123); 0 where a row takes whole blocks. -/
def Table.rpb (t : Table) : Nat := if Table.bstride t > 4096 then 0 else 4096 / Table.bstride t

/-- The block and the byte within it at which a row starts on tier 2 (R123). -/
def Table.rowBlock (t : Table) (base row : Nat) : Nat × Nat :=
  let b := Table.bstride t
  if b > 4096 then (base + row * b / 4096, 0) else (base + row / (4096 / b), row % (4096 / b) * b)

/-- Blocks that one row takes. -/
def Table.rowBlocks (t : Table) : Nat := if Table.bstride t > 4096 then Table.bstride t / 4096 else 1

/-- The planned staged size of a row (R185). -/
def Table.planned (t : Table) : Nat := slotOf (gradeBytes t.grade t.dim)

/-- Bags in one hoop tile (R184). -/
def bptOf (dim : Nat) : Nat := 65536 / (dim * 4)

/-! ## Partitions (R127, R168, R206, R233) -/

def unitBytes : Nat := 16777216

def State.pinUnits (s : State) : Nat := bitf (s.cfg Reg.partCfg) 0 12
def State.scratchUnits (s : State) : Nat := bitf (s.cfg Reg.partCfg) 16 12
def State.winUnits (s : State) : Nat := bitf (s.cfg Reg.sortArea) 0 12
def State.spoolUnits (s : State) : Nat := bitf (s.cfg Reg.poolCtl) 8 12
def State.cacheUnits (s : State) : Nat := Member.usable s.fuses.member - s.pinUnits - s.scratchUnits

/-- The reserve of R233, in units. -/
def State.reserveUnits (s : State) : Nat := ceilDiv s.scratchUnits 16

/-- The update area of R233, in units. -/
def State.updUnits (s : State) : Nat := s.scratchUnits - s.winUnits - s.spoolUnits - s.reserveUnits

/-- The pillow's share of the update area, in bytes (R233). -/
def State.pillowShare (s : State) : Nat :=
  let pct := clampN (bitf (s.cfg Reg.cplCtl) 0 8) 1 100
  s.updUnits * unitBytes * pct / 100

/-- Slice positions in service, S′ (R420). -/
def State.slicesNow (s : State) : Nat := Member.slices s.fuses.member - s.rl.lostPos.length

/-- Set when any table is defined. -/
def State.anyTable (s : State) : Bool := !s.tb.tables.isEmpty

/-! ## References (R137, R259) -/

def bindCount (tbl ver : Nat) (l : List (Nat × Nat)) : Nat := (l.filter fun b => b == (tbl, ver)).length

/-- Descriptors admitted and not yet taken in, whose stamp finds the version current (R156). -/
def State.stamped (s : State) (tbl ver : Nat) : Nat :=
  let ws := s.sp.open'.toList ++ s.sp.queue
  ((ws.flatMap (·.members)).filter fun m => ((mget m.snap tbl).bind Table.current).any fun v => v.ver == ver).length

/-- A version's references: descriptors not yet completed that bound it, descriptors admitted while it was current and not yet
taken in, kept lists that name it, table operations in flight, and pillow or merge entries. -/
def State.refs (s : State) (tbl ver : Nat) : Nat :=
  (s.fe.descs.filter fun d => d.binds.contains (tbl, ver)).length + s.stamped tbl ver +
  (s.sp.kept.filter fun k => (List.zip k.uniq k.uver).any fun e => keyTbl e.1 == tbl && e.2 == ver).length +
  (s.up.pillow.filter fun e => e.tbl == tbl && e.ver == ver).length +
  (s.up.merge.filter fun e => e.tbl == tbl && e.ver == ver).length +
  (s.up.applies.filter fun a => a.tbl == tbl && a.rows.any fun r => r.1 == ver).length

/-- A version has retired or is retiring: no regrade, no caching of it (R133). -/
def State.verBegun (s : State) (tbl ver : Nat) : Bool :=
  match s.table tbl with
  | some t => match t.ver? ver with
    | some v => v.begun
    | none => true
  | none => true

/-- An update or encoding of a table's rows rounds under its owner context's rule (R213, R252). -/
def State.tblTies (s : State) (t : Table) : Bool := s.ctxTies t.ctx

/-- A version newer than another (R139). -/
def verNewer (u v : Nat) : Bool := let d := (u + 65536 - v) % 65536; decide (1 ≤ d ∧ d ≤ 32767)

/-- Forward entry of a handle: the lowest-numbered enabled one (R240, R263): remote handle and node. -/
def State.forward (s : State) (h : Nat) : Option (Nat × BitVec 16) :=
  firstSome (fun e =>
    let v := e.2
    if bitb v 48 && bitf v 0 16 == h then some (bitf v 16 16, BitVec.ofNat 16 (bitf v 32 16)) else none) s.fwdCfg

/-- A poisoned row, or a row of a version poisoned as a whole (R413, R416). -/
def State.rowPoisoned (s : State) (tbl ver row : Nat) : Bool := s.rl.poison.contains (tbl, ver, row)

def State.verPoisoned (s : State) (tbl ver : Nat) : Bool :=
  match s.table tbl with
  | some t => (t.ver? ver).any (·.poisoned)
  | none => false

end Sys2Proof.Machine
end

