-- ==== Sys2Proof/Machine/Check.lean ====
section
/-!
DEFINITION. The checks that complete a descriptor with a status found as it is queued (R55, R56, R58, R71, R73, R84, R121, R147,
R153, R182, R197, R227, R235, R264, R325), and the ranges it names (R98).
-/

namespace Sys2Proof.Machine

/-- A failed check: status and DETAIL. -/
abbrev Fail := BitVec 8 × Nat

/-- The first failing check of a list. -/
def firstFail : List (Bool × BitVec 8 × Nat) → Option Fail
  | [] => none
  | (bad, st, det) :: t => if bad then some (st, det) else firstFail t

/-- The opcodes of Table 20. -/
def opcodes : List Nat := [0x00, 0x01, 0x02, 0x03, 0x04, 0x10, 0x11, 0x12, 0x13, 0x18, 0x19, 0x20, 0x21, 0x30, 0x31, 0x32]

/-- Bytes of one output row (R180, R219). -/
def orowOf (outfmt dim : Nat) (clsS : Bool) : Nat :=
  if outfmt = 0 then dim * 4 else if outfmt = 1 then dim * 2
  else if clsS then 16 + dim else 16 + dim * 4

/-- Result bytes of a gather; a descriptor that ends holding its tile writes none (R180). -/
def gatherBytes (d : Desc) (dim : Nat) : Nat :=
  if d.hold then 0 else d.bags * orowOf d.outfmt dim d.clsS

/-- The extension block's contents (R174, Table 52 value 8): a pointer is missing, or an unused one is not 0. -/
def extBad (d : Desc) : Bool :=
  (d.bagfmt != 0 && d.offs == 0) || (d.bagfmt == 0 && d.offs != 0) ||
  (d.weighted && d.wgt == 0 && d.src != 0) || (!d.weighted && d.wgt != 0)

/-- Checks of a gather (R182, R227, R153), with the table's DIM. -/
def gatherCheck (s : State) (d : Desc) (dim : Nat) : Option Fail :=
  let seq := d.opc == 2
  let pay := if d.hasExt then 0 else if d.picot then 80 else 16
  firstFail
    [(d.bagfmt == 3 || (d.src == 0 && d.bagfmt != 0) || (seq && d.bagfmt != 0), St.badFormat, 1),
     ((d.bagfmt == 0 && !(d.bags == 0 && d.count == 0) && (d.bags == 0 || d.count % d.bags != 0)) || (seq && d.bags != d.count),
       St.badFormat, 2),
     ((d.src == 0 && decide (d.count * (d.keyBytes + (if d.weighted then 4 else 0)) > pay)) ||
       (d.inline' && d.dst == 0 && decide (gatherBytes d dim > 64)), St.badFormat, 5),
     (decide (d.pool ≥ 4) || (seq && d.pool != 0), St.badFormat, 6),
     (d.pool == 3 && d.outfmt != 0, St.badFormat, 7),
     ((d.hasExt && d.extLen != 64) || (!d.hasExt && d.src != 0 && (d.weighted || d.bagfmt != 0)), St.badFormat, 8),
     ((seq && d.tile != 0) || (d.hold && (d.tile == 0 || seq)), St.badFormat, 9),
     (d.tile != 0 && decide (d.bags > s.slicesNow * bptOf dim), St.badFormat, 10),
     (decide (d.outfmt > 5), St.badFormat, 16),
     (d.pool != 3 && d.rescale != 0 && decide (d.rescale > 1024 ∨ d.rescale - 1 + dim > 1024), St.badFormat, 17),
     (decide (d.count > 1048576 ∨ d.bags > 1048576), St.windowOverflow, 0)]

/-- The kept lists of lookup (LRING, LSEQ), unclaimed (R236). -/
def State.keptOf (s : State) (ring : Nat) (seq : BitVec 32) : Option Kept :=
  s.sp.kept.find? fun k => k.ring == ring && k.seq == seq && k.claimed.isNone

/-- Checks of SCATTER_GRAD found as it is queued (R235, R236, R264, R153). -/
def scatterCheck (s : State) (d : Desc) : Option Fail :=
  let form := d.picot || d.hasExt || d.inline' || d.stripe || d.hold || decide (d.mode ≥ 8) || (!d.rowsForm && d.key32)
  if form then some (St.badFormat, 1)
  else if d.rowsForm then
    match s.table d.tbl with
    | none => some (St.badTable, 0)
    | some t =>
      if t.ctx != d.ctx then some (St.badTable, 0)
      else if t.dirBad then some (St.dataError, 0)
      else firstFail [(d.count == 0, St.badFormat, 3), (decide (d.count > 1048576), St.windowOverflow, 0)]
  else match s.keptOf d.lring d.lseq with
    | none => some (St.badFormat, 2)
    | some k => if d.count = k.bags then none else some (St.badFormat, 3)

/-- Checks of UPDATE_APPLY found as it is queued (R248, R264). A field that R248 says shall be 0 and that is not is no cause that R264 lists;
it is answered with FORM, DETAIL 1 (log entry 118). The AUX word is reserved as a whole, and no action is taken on it (R8, R53). -/
def applyCheck (s : State) (d : Desc) : Option Fail :=
  match s.table d.tbl with
  | none => some (St.badTable, 0)
  | some t =>
    if t.ctx != d.ctx then some (St.badTable, 0)
    else if t.dirBad then some (St.dataError, 0)
    else firstFail
      [(decide (d.mode ≥ 3) || d.verField != 0 || d.src != 0 || d.dst != 0 || d.count != 0 || d.bags != 0 ||
          (d.mode == 2 && d.epoch != 0), St.badFormat, 1),
       (!t.upd, St.badFormat, 7),
       (d.mode == 0 && (if t.rule = .adam then d.stepT == 0 else d.stepT != 0), St.badFormat, 8)]

/-- Modes of a table opcode (R142 to R145). -/
def tableModes (opc : Nat) : Nat := if opc = 0x13 then 3 else 2

/-- A TABLE_LOAD OPEN of a version is queued and has not run. -/
def State.opening (s : State) (tbl ver : Nat) : Bool :=
  s.fe.descs.any fun e => e.opc == 0x11 && e.mode == 0 && e.tbl == tbl && e.verField == ver && e.status == St.ok &&
    e.stage != .finished && e.stage != .heldRec

/-- Checks of a table operation found as it is queued: the table, VER_ZERO, BAD_MODE, a version begun to retire, and one that is
not live and that no OPEN queued before is to open (R121, R136, R147; log entry 25). -/
def tableOpCheck (s : State) (d : Desc) : Option Fail :=
  match s.table d.tbl with
  | none => some (St.badTable, 0)
  | some t =>
    if t.ctx != d.ctx then some (St.badTable, 0)
    else if t.dirBad then some (St.dataError, 0)
    else firstFail
      [(d.verField == 0, St.badFormat, 1),
       (decide (d.mode ≥ tableModes d.opc), St.badFormat, 14),
       (!(d.opc == 0x11 && d.mode == 0) && (t.ver? d.verField).any (·.begun), St.badFormat, 3),
       (!(d.opc == 0x11 && d.mode == 0) && (t.ver? d.verField).isNone && !(s.opening d.tbl d.verField), St.versionGone, 0)]

/-- A descriptor that looks rows up of TBL needs it defined and readable (R121). -/
def readCheck (s : State) (d : Desc) : Option Fail :=
  match s.table d.tbl with
  | none => some (St.badTable, 0)
  | some t => if !(t.readable d.ctx) then some (St.badTable, 0) else if t.dirBad then some (St.dataError, 0) else none

/-- Checks of a bulk descriptor (R324, R325). -/
def bulkCheck (d : Desc) : Option Fail :=
  firstFail
    [(d.mode != 0 || d.flg % 128 &&& 0x4D != 0 || d.tbl != 0 || d.verField != 0 || d.epoch != 0 || d.bags != 0 || d.aux != 0 ||
        field d.raw 48 16 != 0, St.badFormat, 1),
     (d.src % 64 != 0 || d.dst % 64 != 0 || d.count % 64 != 0 || d.count == 0, St.badFormat, 2)]

/-- Checks of a WAIT's target (R84). -/
def waitCheck (s : State) (d : Desc) : Option Fail :=
  if d.waitRing ≥ Member.rings s.fuses.member then some (St.badFormat, 0)
  else
    let r := mgetD s.fe.rings d.waitRing {}
    if r.state = .disabled || r.state = .draining then some (St.waitAborted, 0)
    else if Ring.isCpl r then some (St.badFormat, 0)
    else none

/-- A named tile owned by another ring (R197). -/
def tileBusy (s : State) (d : Desc) : Bool :=
  (d.opc == 1) && d.tile != 0 && (match mget s.sp.tiles d.tile with
    | some t => t.owner != d.ring
    | none => false)

/-- The check that fails first among those of R71, apart from SEQ_MISMATCH and the picot's place. -/
def Desc.queueCheck (s : State) (d : Desc) (ringCtx : Nat) : Option Fail :=
  if !(opcodes.contains d.opc) then some (St.badOpcode, 0)
  else if d.picot && d.hasExt then some (St.badFormat, if d.opc = 3 || d.opc = 0x20 || d.opc = 0x21 then 1 else 0)
  else if (decide (d.ring ≥ 128) && d.ctx != ringCtx) || !(s.ctxEn d.ctx) then some (St.badContext, 0)
  else match d.opc with
    | 0x01 | 0x02 =>
      match readCheck s d with
      | some f => some f
      | none =>
        match gatherCheck s d (((s.table d.tbl).map (·.dim)).getD 8) with
        | some f => some f
        | none => if tileBusy s d then some (St.tileBusy, 0) else none
    | 0x03 => scatterCheck s d
    | 0x04 => applyCheck s d
    | 0x10 | 0x11 | 0x12 | 0x13 => tableOpCheck s d
    | 0x18 =>
      if d.mode ≥ 3 then some (St.badFormat, 0)
      else if d.mode = 1 then readCheck s d
      else if d.mode = 0 && d.count > 1048576 then some (St.windowOverflow, 0)
      else none
    | 0x19 =>
      if d.mode ≥ 4 then some (St.badFormat, 0)
      else if d.mode ≥ 2 then readCheck s d
      else none
    | 0x20 | 0x21 => bulkCheck d
    | 0x30 => if d.mode ≥ 2 then some (St.badFormat, 0) else none
    | 0x31 => waitCheck s d
    | _ => none

/-- The gradient source's stride (Table 64). -/
def gradStride (d : Desc) (dim : Nat) : Nat := dim * (if d.gbf16 then 2 else 4)

/-- Words of a gather's offsets or identifiers (Table 51). -/
def Desc.offWords (d : Desc) : Nat := if d.bagfmt = 1 then d.bags + 1 else if d.bagfmt = 2 then d.count else 0

/-- A range to prick: none where its length is zero (R98). -/
def mkRange (k : RangeKind) (va len : Nat) : List Range :=
  if len = 0 then [] else [{ kind := k, va := BitVec.ofNat 64 va, len := len }]

/-- Kept lists that this scatter has claimed. -/
def State.claimedBy (s : State) (id : Nat) : Option Kept := s.sp.kept.find? fun k => k.claimed == some id

/-- The ranges a descriptor names, as its opcode uses them (R98, Table 27). -/
def Desc.namedRanges (s : State) (d : Desc) : List Range :=
  let dim := ((s.table d.tbl).map (·.dim)).getD 0
  match d.opc with
  | 0x01 | 0x02 =>
    let out := gatherBytes d dim
    (if d.hasExt then mkRange .input d.extPtr d.extLen else []) ++
    (if d.src = 0 then [] else mkRange .input d.src (d.count * d.keyBytes)) ++
    (if d.hasExt then mkRange .input d.offs (4 * d.offWords) else []) ++
    (if d.hasExt && d.weighted && d.src != 0 then mkRange .input d.wgt (4 * d.count) else []) ++
    (if d.inline' && (d.dst == 0 || out ≤ 64) then [] else mkRange .result d.dst out)
  | 0x03 =>
    if d.rowsForm then
      mkRange .input d.src (d.count * d.keyBytes) ++ mkRange .input d.gradPtr (d.count * gradStride d dim)
    else mkRange .input d.src (d.count * gradStride d (((s.claimedBy d.id).map (·.dim)).getD 0))
  | 0x11 => if d.mode = 1 then mkRange .bulkSrc d.src (d.count * ((s.table d.tbl).map Table.bstride).getD 0) else []
  | 0x12 => if d.mode = 1 then mkRange .bulkSrc d.src (d.count * ((s.table d.tbl).map Table.bstride).getD 0) else []
  | 0x18 => if d.mode = 0 then mkRange .input d.src (d.count * 8) else if d.mode = 2 then mkRange .xlate d.src d.count else []
  | 0x19 => if d.mode ≤ 1 then mkRange .advise d.src 1 else []
  | 0x20 => mkRange .bulkSrc d.src d.count ++ mkRange .bulkDst d.dst d.count
  | 0x21 => mkRange .bulkSrc d.src d.count ++ mkRange .bulkDst d.dst d.count
  | _ => []

end Sys2Proof.Machine
end

