-- ==== Sys2Proof/Machine/Front.lean ====
section
/-!
DEFINITION. What the queue front end shares: rings, ports, eyelet lines, record slots and interrupts, new indices, and the end of
a descriptor (chapter 3).
-/

namespace Sys2Proof.Machine

/-! ## Rings, descriptors, ports -/

def State.ring (s : State) (k : Nat) : Ring := mgetD s.fe.rings k {}

def State.setRing (s : State) (k : Nat) (r : Ring) : State := s.onFe fun f => { f with rings := mset f.rings k r }

def State.onRing (s : State) (k : Nat) (f : Ring → Ring) : State := s.setRing k (f (s.ring k))

def State.desc (s : State) (id : Nat) : Option Desc := s.fe.descs.find? fun d => d.id == id

def State.setDesc (s : State) (d : Desc) : State :=
  s.onFe fun f => { f with descs := f.descs.map fun x => if x.id = d.id then d else x }

def State.onDesc (s : State) (id : Nat) (f : Desc → Desc) : State :=
  s.onFe fun e => { e with descs := e.descs.map fun x => if x.id = id then f x else x }

/-- Descriptors of a ring, oldest first. -/
def State.ringDescs (s : State) (k : Nat) : List Desc := s.fe.descs.filter fun d => d.ring == k

def State.cxlPort (s : State) (p : Nat) : Port := mgetD s.pw.cxl p {}

/-- CXL host port p is up (R29). -/
def State.cxlUp (s : State) (p : Nat) : Bool := decide (p < Member.cxlPorts s.fuses.member) && (s.cxlPort p).up

/-- CXL.cache is in service on host port p (R27). -/
def State.cxlCache (s : State) (p : Nat) : Bool := s.cxlUp p && (s.cxlPort p).cache

/-- CRH_DRV_PASID (R52, R107). -/
def State.drvPasid (s : State) : Nat := bitf (s.cfg Reg.drvPasid) 0 20

/-- The route of traffic of the driver's structures on a host port (R107). -/
def State.drvRoute (s : State) (p : Nat) : Route := .host p s.drvPasid false

/-- The translation of a driver structure fails (R107): 0 the ring table, 1 the eyelet array, 2 the segment mirror, 3 + k ring k. -/
def State.drvFails (s : State) (which : Nat) : Bool := s.xl.drvFault.contains which

/-! ## Outbound fabric requests (R17, R22, R23) -/

def State.fabPort (s : State) (n : Nat) : Fab := mgetD s.pw.fab n {}

/-- A fabric port in service. -/
def State.fabUp (s : State) (n : Nat) : Bool := (s.fabPort n).status == .present

/-- Any fabric port in service. -/
def State.fabAny (s : State) : Bool := (List.range (Member.fabPorts s.fuses.member)).any s.fabUp

/-- The port that a message of the outbound request channel is offered to: the lowest-numbered one in service that holds a credit
(log entry 93). -/
def State.fabFirst (s : State) : Option Nat :=
  (List.range (Member.fabPorts s.fuses.member)).find? fun n => s.fabUp n && decide (0 < (s.fabPort n).oreq)

/-- A message as it leaves on a port. -/
def Output.onPort (p : Nat) : Output → Output
  | .record k i b _ w => .record k i b (.fabric p) w
  | .payload k i b _ w => .payload k i b (.fabric p) w
  | .cons k a i _ => .cons k a i (.fabric p)
  | .descRead k i n a _ => .descRead k i n a (.fabric p)
  | .result id a b _ w => .result id a b (.fabric p) w
  | .contrib _ node m b => .contrib p node m b
  | .read id a n _ => .read id a n (.fabric p)
  | o => o

/-- The port by which a descriptor read of a near ring, or a message of a batch, left is noted: a response is to come by it (R24). What a
read of source bytes asks for comes with its command: gradients and bulk sources over the inbound request channel, the rest over the
inbound response channel, whose credit is granted again (R23, Table 6; log entry 92). -/
def State.noteLeave (s : State) (p : Nat) : Output → State
  | .descRead k _ _ _ _ => s.onFe fun f => { f with rings := mmod f.rings k fun r => { r with turnAt := p :: r.turnAt } }
  | .contrib _ _ m _ => s.onUp fun u =>
      { u with outb := u.outb.map fun b => if b.batch = m.batch then { b with ports := p :: b.ports } else b }
  | .read id _ _ _ => s.send (.credit p ((s.desc id).all fun d => d.opc != 3 && d.opc != 0x20) 1)
  | _ => s

/-- A message leaves on port p: one credit is spent. -/
def State.fabLeave (s : State) (p : Nat) (o : Output) : State :=
  ((s.onPw fun w => { w with fab := mmod w.fab p fun f => { f with oreq := f.oreq - 1 } }).noteLeave p o).send (o.onPort p)

/-- A message of the outbound request channel leaves at once where no other waits and a port holds a credit; else it waits. -/
def State.fabSend (s : State) (o : Output) : State :=
  match s.pw.fabOut, s.fabFirst with
  | [], some p => s.fabLeave p o
  | l, _ => s.onPw fun w => { w with fabOut := l ++ [o] }

/-- Messages in order. -/
def State.fabSendAll (s : State) (l : List Output) : State := State.forEach State.fabSend l s

/-- The waiting messages leave, in order, as far as credits go; the fuel is their number. -/
def State.fabPump : Nat → State → State
  | 0, s => s
  | n + 1, s =>
    match s.pw.fabOut, s.fabFirst with
    | o :: t, some p => State.fabPump n ((s.onPw fun w => { w with fabOut := t }).fabLeave p o)
    | _, _ => s

/-! ## Outbound fabric responses, and a port that drains (R23, R24) -/

/-- The port of a response. -/
def Output.ackPort : Output → Option Nat
  | .ack p _ _ _ _ _ _ _ => some p
  | _ => none

/-- A fabric port that still returns responses. -/
def State.fabAnswers (s : State) (p : Nat) : Bool := s.fabUp p || (s.fabPort p).status == .draining

/-- The port by which the response to a request that came on port p leaves: p, or another port in service where p has left service. -/
def State.rspPort (s : State) (p : Nat) : Nat :=
  if s.fabAnswers p then p else ((List.range (Member.fabPorts s.fuses.member)).find? s.fabAnswers).getD p

/-- A message of the outbound response channel leaves where its port holds a response credit; else it waits. -/
def State.rspSend (s : State) (p : Nat) (o : Output) : State :=
  if (s.fabPort p).orsp = 0 then s.onPw fun w => { w with fabRsp := w.fabRsp ++ [o] }
  else (s.onPw fun w => { w with fab := mmod w.fab p fun f => { f with orsp := f.orsp - 1 } }).send o

/-- The waiting responses leave, as far as credits go. -/
def State.rspPump (s : State) : State :=
  State.forEach (fun s o => s.rspSend ((Output.ackPort o).getD 0) o) s.pw.fabRsp (s.onPw fun w => { w with fabRsp := [] })

/-- Responses outstanding on a fabric port, in either direction (R24): descriptor reads that have not returned, batches that have not been
acknowledged, and acknowledgements due for batches that have arrived whole. -/
def State.fabBusy (s : State) (p : Nat) : Bool :=
  (s.fe.rings.any fun e => e.2.turnAt.contains p) ||
  (s.up.inb.any fun b => b.port == p && b.whole != 0 && decide (b.whole ≤ b.msgs.length) && !b.bad) ||
  (s.up.outb.any fun b => b.ports.contains p) || s.pw.fabRsp.any fun o => Output.ackPort o == some p

/-- A draining port with no outstanding response shows ABSENT (R24). -/
def State.fabRest (s : State) (p : Nat) : State :=
  if (s.fabPort p).status == .draining && !(s.fabBusy p) then
    (s.onPw fun w => { w with fab := mset w.fab p {} }).send (.fabStatus p .absent)
  else s

/-- Draining ports that may show ABSENT now do. -/
def State.fabSettle (s : State) : State := State.forEach State.fabRest (List.range (Member.fabPorts s.fuses.member)) s

/-- A near completion ring has no home port (R449). -/
def Ring.homed (r : Ring) : Bool := r.typ != .nearCpl

/-- The entry of a ring in the ring table (R45). -/
def State.entryAddr (s : State) (k : Nat) : Nat := bitf (s.cfg Reg.ringTblBase) 6 51 * 64 + 64 * k

/-- The front end passes descriptors: in an ACTIVE power state, with no exchange to STANDBY open (R365). -/
def State.passing (s : State) : Bool :=
  (s.pw.pstate == .p0 || s.pw.pstate == .p1 || s.pw.pstate == .p2) && !s.pw.closing

/-! ## Eyelet lines (R59 to R61) -/

def State.eyeletOn (s : State) : Bool := bitb (s.cfg Reg.eyeletBase) 0

/-- A ring whose eyelet word Criholt tracks (R60). -/
def Ring.tracked (r : Ring) : Bool :=
  Ring.isHost r && !r.dbMode && (r.state == .active || r.state == .paused || r.state == .error)

/-- The rings of a line. -/
def lineRings (line : Nat) : List Nat := (List.range 8).map fun i => 8 * line + i

/-- The port through which a line is needed, if it is (R60, R61). -/
def State.lineNeeded (s : State) (line : Nat) : Option Nat :=
  if s.eyeletOn then
    ((lineRings line).find? fun k => Ring.tracked (s.ring k)).map fun k => (s.ring k).home
  else none

/-- The IOVA of a line of the eyelet array (R59). -/
def State.lineAddr (s : State) (line : Nat) : Nat := bitf (s.cfg Reg.eyeletBase) 12 45 * 4096 + 64 * line

/-- The IOVA of ring k's eyelet word (R59). -/
def State.wordAddr (s : State) (k : Nat) : Nat := s.lineAddr (k / 8) + 8 * (k % 8)

/-- RdShared of a held line, while the array can be translated (R60, R107). -/
def State.readLine (s : State) (line : Nat) (l : EyeLine) : State :=
  if s.drvFails 1 then s else s.send (.rdShared l.port line l.addr)

/-- Take a line through port p, its words as last read being `ws`. -/
def State.takeLine (s : State) (line p : Nat) (ws : List Word64) : State :=
  let l : EyeLine := { port := p, valid := false, words := ws, addr := s.lineAddr line }
  (s.onFe fun f => { f with lines := mset f.lines line l }).readLine line l

/-- Take or release a line, as its rings now need it; a line whose rings have moved to another HOME_PORT is released on the old port
and taken through the new one (R61). -/
def State.fitLine (s : State) (line : Nat) : State :=
  match s.lineNeeded line, mget s.fe.lines line with
  | some p, none => s.takeLine line p []
  | some p, some l => if l.port = p then s else (s.send (.cleanEvict l.port line l.addr)).takeLine line p l.words
  | none, some l => (s.onFe fun f => { f with lines := mdel f.lines line }).send (.cleanEvict l.port line l.addr)
  | none, none => s

/-- A ring changed its state: its line follows. -/
def State.fitRing (s : State) (k : Nat) : State :=
  if Ring.isHost (s.ring k) && !(s.ring k).dbMode then s.fitLine (k / 8) else s

/-! ## Records and interrupts (R67, R68, R75) -/

/-- The route of a completion ring's records, until a fabric port takes those of a near one (R67, R76). -/
def State.cplRoute (s : State) (c : Nat) : Route :=
  if (s.ring c).typ = .hostCpl then s.drvRoute (s.ring c).home else .fabric 0

/-- How a record of 32 bytes is written: on a host ring by CXL.io, with relaxed ordering where the record is that of a descriptor ring in LU7
ordering mode, `ord` (R77, R79; log entry 91). -/
def State.recKind (s : State) (c : Nat) (ord : Bool) : WKind := if (s.ring c).typ = .hostCpl then .io ord else .message

/-- How the payload of an inline record is written: a full 64-byte line by ItoMWr where CXL.cache is in service (Table 9; log
entry 91). -/
def State.payKind (s : State) (c slot : Nat) (ord : Bool) : WKind :=
  let r := s.ring c
  if r.typ = .hostCpl && s.cxlCache r.home && (r.base + 32 * slot) % 64 == 0 then .itoMWr else s.recKind c ord

/-- The message that writes one slot. -/
def State.recOut (s : State) (c slot : Nat) (ord : Bool) (b : Bytes) : Output := .record c slot b (s.cplRoute c) (s.recKind c ord)

/-- The message that writes the payload slots of an inline record. -/
def State.payOut (s : State) (c slot : Nat) (ord : Bool) (b : Bytes) : Output :=
  .payload c slot b (s.cplRoute c) (s.payKind c slot ord)

/-- Send what ring c's traffic carries: over the fabric for a near ring. -/
def State.ringSend (s : State) (near : Bool) (o : Output) : State := if near then s.fabSend o else s.send o

/-- Write one record slot and advance the producer index. -/
def State.putSlot (s : State) (c : Nat) (ord : Bool) (b : Bool → Bytes) : State :=
  let r := s.ring c
  let i := r.idx.toNat
  (s.setRing c { r with idx := r.idx + 1 }).ringSend (r.typ == .nearCpl)
    (s.recOut c (i % Ring.size r) ord (b (phaseAt i (Ring.size r))))

/-- The function of a host port. -/
def State.hostFn (s : State) (p : Nat) : HostFn := mgetD s.pw.fns p {}

/-- Raise the vector of a host completion ring, with what its table entry holds (log entry 145). -/
def State.irq (s : State) (c : Nat) : State :=
  let r := s.ring c
  let e := mgetD (s.hostFn r.home).msix r.vector (0, 0)
  (s.setRing c { r with unsig := 0 }).send (.msix r.home r.vector e.1 e.2)

/-- One more record is written to ring c; interrupt at MOD_COUNT, or at once where `now` says so (R75). -/
def State.signal (s : State) (c : Nat) (now : Bool) : State :=
  let r := s.ring c
  if r.typ = .hostCpl && r.irqEn then
    if now || decide (r.unsig + 1 ≥ max 1 r.modCount) then s.irq c else s.setRing c { r with unsig := r.unsig + 1 }
  else s

/-- n PAD records. -/
def State.putPads (s : State) (c : Nat) (ord : Bool) : Nat → State
  | 0 => s
  | n + 1 => State.putPads (s.putSlot c ord padBytes) c ord n

/-- Slots left before a ring's end. -/
def Ring.toEnd (r : Ring) : Nat := Ring.size r - r.idx.toNat % Ring.size r

/-- Write an inline record (R68): PADs to the end where fewer than three slots remain, the payload slots, then the header. -/
def State.putInline (s : State) (c : Nat) (ord : Bool) (payload : Bytes) (b : Bool → Bytes) : State :=
  let r := s.ring c
  let s1 := if Ring.toEnd r < 3 then s.putPads c ord (Ring.toEnd r) else s
  let r1 := s1.ring c
  let i := r1.idx.toNat
  let at' := i % Ring.size r1
  let near := r1.typ == .nearCpl
  ((s1.setRing c { r1 with idx := r1.idx + 3 }).ringSend near (s1.payOut c (at' + 1) ord (slice payload 0 64))).ringSend near
    (s1.recOut c at' ord (b (phaseAt i (Ring.size r1))))

/-- Held RING_OVERRUN records of a completion ring (R451). -/
def State.heldFor (s : State) (c : Nat) : List Nat := s.fe.overruns.filter fun k => (s.ring k).cplRing == c

/-- A completion ring to which records may be written now. -/
def State.cplLive (s : State) (c : Nat) : Bool :=
  let r := s.ring c
  Ring.isCpl r && r.state != .pausedHost && r.state != .disabled && r.state != .portDown && !(s.drvFails (3 + c))

/-- Write ring k's RING_OVERRUN record (R63). -/
def State.writeOverrun (s : State) (k : Nat) : State :=
  let r := s.ring k
  (s.putSlot r.cplRing r.ord fun ph => recBytes r.errSeq.toNat k ph Kind.normal St.ringOverrun 0 0 0 0 0 0).signal r.cplRing true

/-- Ring k met a RING_OVERRUN (R63, R451): it enters ERROR; its record is written, or held while there is no free slot. A ring in
PAUSED_HOST, whose state R87 keeps, stays there and has ERROR in HOST_FROM (log entry 94). -/
def State.raiseOverrun (s : State) (k : Nat) : State :=
  let r := s.ring k
  let r1 := { r with errSeq := r.nextSeq, errStatus := St.ringOverrun }
  let s1 := s.setRing k (if r.state = .pausedHost then { r1 with hostFrom := .error } else { r1 with state := .error })
  let s2 := s1.onFe fun f => { f with announced := f.announced.erase k }
  if s2.cplLive r.cplRing && decide (Ring.space (s2.ring r.cplRing) ≥ 1) && (s2.heldFor r.cplRing).isEmpty then s2.writeOverrun k
  else s2.onFe fun f => { f with overruns := f.overruns ++ [k] }

/-! ## New indices (R44, R60, R63, R64, R66) -/

/-- Mark a ring announced, where it has slots to read and no read in flight. -/
def State.announce (s : State) (k : Nat) : State :=
  let r := s.ring k
  if r.state = .active && r.turn == 0 && r.pub != r.idx && !(s.fe.announced.contains k) then
    s.onFe fun f => { f with announced := f.announced ++ [k] }
  else s

/-- A consumer index lies ahead of the producer index: by half the index range or less (log entry 16). -/
def consAhead (idx v : BitVec 32) : Bool := v != idx && decide ((v - idx).toNat < 2 ^ 31)

/-- Software published a new index for ring k. A ring in PAUSED_HOST or PORT_DOWN takes it, as the state it left would (log entry 95). -/
def State.newIndex (s : State) (k : Nat) (v : BitVec 32) : State :=
  let r := s.ring k
  if Ring.isCpl r then
    if r.state = .disabled then s
    else if consAhead r.idx v then s.count Ctr.consAhead
    else s.setRing k { r with pub := v }
  else
    let st := if r.state = .pausedHost then r.hostFrom else r.state
    if st = .disabled || st = .error || st = .draining then s
    else if decide ((v - r.idx).toNat > Ring.size r) then s.raiseOverrun k
    else (s.setRing k { r with pub := v }).announce k

/-- Compare a tracked ring's word of a line that is held already with the index held for it, at once or, where the line is being
read again, as it returns (R52, R61). -/
def State.adoptWord (s : State) (k : Nat) : State :=
  match mget s.fe.lines (k / 8) with
  | none => s
  | some l =>
    let w := BitVec.ofNat 32 (((l.words[k % 8]?).getD 0).toNat)
    if !(Ring.tracked (s.ring k)) then s
    else if l.valid then (if w != (s.ring k).pub then s.newIndex k w else s)
    else s.onFe fun f => { f with lines := mset f.lines (k / 8) { l with fresh := k % 8 :: l.fresh } }

/-! ## The consumer index (R46) -/

/-- The message that writes CONS_IDX. -/
def State.consOut (s : State) (k : Nat) : Output :=
  let r := s.ring k
  if r.typ = .nearDesc then .cons k r.consWb r.idx (.fabric 0) else .cons k (s.entryAddr k + 32) r.idx (s.drvRoute r.home)

/-- Write CONS_IDX where the driver reads it: not while the ring table of a host ring cannot be translated (R107). -/
def State.writeCons (s : State) (k : Nat) : State :=
  let r := s.ring k
  if r.typ != .nearDesc && s.drvFails 0 then s
  else (s.setRing k { r with wbSince := 0 }).ringSend (r.typ == .nearDesc) (s.consOut k)

/-- n slots of ring k are consumed. -/
def State.consume (s : State) (k n : Nat) : State :=
  let r := s.ring k
  let s1 := s.setRing k { r with idx := r.idx + BitVec.ofNat 32 n, wbSince := r.wbSince + n }
  let r1 := s1.ring k
  if r1.wbSince ≥ 64 || r1.idx == r1.pub then s1.writeCons k else s1

/-! ## The end of a descriptor -/

/-- Settle a descriptor's outcome; its record is written by COMPLETION_RECORD_WRITE. -/
def State.settle (s : State) (id : Nat) (f : Desc → Desc) : State :=
  (s.onDesc id fun d => { f d with stage := .finished }).onFe fun e => { e with park := e.park.erase id }

/-- Settle with a status, DETAIL, DONE and INFO. -/
def State.endDesc (s : State) (id : Nat) (st : BitVec 8) (detail done : Nat) (info : Word64) : State :=
  s.settle id fun d => { d with status := st, detail := detail, done := done, info := info }

/-- Settle with OK and a count in DONE. -/
def State.endOk (s : State) (id done : Nat) : State := s.endDesc id St.ok 0 done 0

end Sys2Proof.Machine
end

