-- ==== Sys2Proof/Machine/Prick.lean ====
section
/-!
DEFINITION. Pricking: segments (R92 to R96), the translation cache (R99, R100), page requests and faults (R102 to R105), and the
fault park. A descriptor's ranges are pricked in the order it names them (log entry 21).
-/

namespace Sys2Proof.Machine

/-! ## Segments -/

/-- The lowest-numbered cached segment of a context that holds an address (R92). -/
def segFind (segs : List SegEntry) (ctx a : Nat) : Option SegEntry :=
  (segs.filter fun e => e.ctx == ctx && decide (e.start ≤ a ∧ a < e.start + e.len)).foldl
    (fun best e => match best with
      | none => some e
      | some b => if e.seg < b.seg then some e else some b) none

/-- A lower-numbered segment that holds an address of a cached one is not in the cache (R92; log entry 96). -/
def SegEntry.hidden (segs : List SegEntry) (e : SegEntry) (a : Nat) : Bool :=
  e.beneath.any fun o => decide (o.2.1 ≤ a ∧ a < o.2.1 + o.2.2) && !(segs.any fun f => f.ctx == e.ctx && f.seg == o.1)

/-- Table 27. -/
def segRights (k : RangeKind) (e : SegEntry) : Bool :=
  match k with
  | .input => e.r
  | .bulkSrc => e.r
  | .result => e.w
  | .bulkDst => e.w
  | .xlate => e.r || e.w
  | .advise => true

/-- What a walk of a range's segments finds. -/
inductive Walk where
  | need
  | found (pieces : List Piece) (fabric : Bool) (fault : Option (Nat × BitVec 8))
  deriving DecidableEq, Repr

/-- Bytes from address a to the end of segment e, or to where a lower-numbered segment that overlaps it begins (R92; log entry 96). -/
def segRoom (e : SegEntry) (a : Nat) : Nat :=
  (e.beneath.filter fun o => decide (a < o.2.1)).foldl (fun m o => min m (o.2.1 - a)) (e.start + e.len - a)

/-- Walk a range from offset `off` (R92, R93, R95); `on` is CRH_SEGM_BASE.EN, `whole` says the context's segments are all in the
cache. The fuel is the number of pieces into which 16 segments can cut a range, and one more. -/
def walkRange (segs : List SegEntry) (on whole : Bool) (ctx : Nat) (k : RangeKind) (va len : Nat) :
    Nat → Nat → List Piece → Walk
  | 0, off, acc => .found acc.reverse false (some (off, St.segMiss))
  | fuel + 1, off, acc =>
    if off ≥ len then .found acc.reverse false none
    else
      let a := va + off
      if a ≥ 2 ^ 64 || !on then .found acc.reverse false (some (off, St.segMiss))
      else match segFind segs ctx a with
        | none => if whole then .found acc.reverse false (some (off, St.segMiss)) else .need
        | some e =>
          let room := segRoom e a
          if !whole && e.hidden segs a then .need
          else if k = .advise then
            .found [{ off := 0, len := room, target := e.base + (a - e.start), sg := e.seg, r := e.r, w := e.w, pinned := e.pinned }]
              e.fabric none
          else if e.fabric && off != 0 then .found acc.reverse false (some (off, St.segStraddle))
          else if !(segRights k e) then .found acc.reverse e.fabric (some (off, St.rights))
          else
            let p : Piece := { off := off, len := min (len - off) room, target := e.base + (a - e.start), sg := e.seg, r := e.r, w := e.w,
                               pinned := e.pinned }
            if e.fabric then .found [p] true (if len ≤ room then none else some (room, St.segStraddle))
            else walkRange segs on whole ctx k va len fuel (off + p.len) (p :: acc)

/-- Keep the entries that a walk used most recently at the front (R96). -/
def segTouch (segs : List SegEntry) (ctx va len : Nat) : List SegEntry :=
  let used := fun (e : SegEntry) => e.ctx == ctx && decide (e.start < va + len ∧ va < e.start + e.len)
  segs.filter used ++ segs.filter fun e => !used e

/-- Put one entry in the segment cache; the one used least recently of 512 gives way (R96). -/
def Translation.putSeg (x : Translation) (e : SegEntry) : Translation :=
  let l := x.segs.filter fun f => !(f.ctx == e.ctx && f.seg == e.seg)
  { x with segs := e :: (if l.length ≥ 512 then l.dropLast else l) }

/-! ## Translation cache -/

/-- A page that a range needs: its first byte's offset in the range and how many bytes of the range lie in it, its port and IOVA,
and the permissions. -/
structure PageRef where
  off    : Nat
  len    : Nat := 4096
  port   : Nat
  iova   : Nat
  r      : Bool
  w      : Bool
  pinned : Bool
  deriving DecidableEq, Repr

/-- The port that carries a page: the home port, or by bit 12 of the address where the descriptor is striped (R78, R101). -/
def stripePort (home : Nat) (stripe : Bool) (a : Nat) : Nat :=
  if stripe && a / 4096 % 2 != home then 1 - home else home

/-- Whether a descriptor's results are striped (R78, R101): FLG.STRIPE, STRIPE_OK, and a second host port that is up. -/
def State.striped (s : State) (d : Desc) : Bool :=
  let r := s.ring d.ring
  d.stripe && r.stripeOk && s.cxlUp 0 && s.cxlUp 1

/-- A bulk descriptor (R324). -/
def Desc.isBulk (d : Desc) : Bool := d.opc == 0x20 || d.opc == 0x21

/-- The rate that a host port has reached, in units that cancel: lanes times transfers (Table 129). -/
def Port.speed (p : Port) : Nat := 2 ^ (p.width + p.rate)

/-- N_HOME of R327: stripes of 16 that the home port takes; half rounds up (log entry 58). -/
def State.homeStripes (s : State) (home : Nat) : Nat :=
  let h := (s.cxlPort home).speed
  let t := h + (s.cxlPort (1 - home)).speed
  clampN ((32 * h + t) / (2 * t)) 1 15

/-- The port that carries a byte of a bulk descriptor's host range (R327). -/
def State.bulkPort (s : State) (d : Desc) (a : Nat) : Nat :=
  let home := (s.ring d.ring).home
  if !(d.stripe && (s.ring d.ring).stripeOk) then home
  else if s.cxlUp 0 && s.cxlUp 1 then
    let p := s.cxlPort home
    let q := s.cxlPort (1 - home)
    if p.width = q.width && p.rate = q.rate then stripePort home true a
    else if a / 4096 % 16 < s.homeStripes home then home else 1 - home
  else if s.cxlUp home || !(s.cxlUp (1 - home)) then home
  else 1 - home

/-- The port that carries the byte at address a of a range (R76, R78, R101, R327). -/
def State.portFor (s : State) (d : Desc) (r : Range) (a : Nat) : Nat :=
  if d.isBulk then s.bulkPort d a
  else stripePort (s.ring d.ring).home (s.striped d && r.kind == .result) a

/-- The pages of a range, in address order. -/
def Range.pages (port : Nat → Nat) (r : Range) : List PageRef :=
  r.pieces.flatMap fun p =>
    let first := p.target / 4096
    let n := (p.target + p.len - 1) / 4096 - first + 1
    (List.range n).map fun i =>
      let off := if i = 0 then p.off else p.off + (i * 4096 - p.target % 4096)
      { off := off, len := min (p.off + p.len) (p.off + ((i + 1) * 4096 - p.target % 4096)) - off, port := port (r.va.toNat + off),
        iova := (first + i) * 4096,
        r := (match r.kind with | .input => true | .bulkSrc => true | .xlate => p.r | _ => false),
        w := (match r.kind with | .result => true | .bulkDst => true | .xlate => p.w | _ => false),
        pinned := p.pinned }

def XEntry.covers (e : XEntry) (pasid : Nat) (g : PageRef) : Bool :=
  e.port == g.port && e.pasid == pasid && e.iova / 2 ^ e.log2 == g.iova / 2 ^ e.log2 && !e.stale && !e.old

def XEntry.suffices (e : XEntry) (pasid : Nat) (g : PageRef) : Bool :=
  e.covers pasid g && (e.r || !g.r) && (e.w || !g.w)

/-- An entry that a descriptor has pinned translates a page for it, also where EN or a hand-over has dropped it since (R90, R419). -/
def XEntry.gives (e : XEntry) (id pasid : Nat) (g : PageRef) : Bool :=
  e.pins.contains id && XEntry.suffices { e with old := false } pasid g

/-- An entry that a descriptor may use for a page: one that it has pinned, or one that the cache holds for any. -/
def XEntry.usable (e : XEntry) (id pasid : Nat) (g : PageRef) : Bool := e.gives id pasid g || e.suffices pasid g

/-- Go through pages for a descriptor until `room` entries are counted: those hit, each once, and one for each page missed. -/
def scanPages (xc : List XEntry) (id pasid : Nat) : Nat → List PageRef → List XEntry → List PageRef → List XEntry × List PageRef
  | _, [], hits, miss => (hits, miss.reverse)
  | room, g :: t, hits, miss =>
    match xc.find? fun e => e.usable id pasid g with
    | some e =>
      if hits.contains e then scanPages xc id pasid room t hits miss
      else match room with
        | 0 => (hits, miss.reverse)
        | n + 1 => scanPages xc id pasid n t (e :: hits) miss
    | none => match room with
      | 0 => (hits, miss.reverse)
      | n + 1 => scanPages xc id pasid n t hits (g :: miss)

/-- Entries pinned now. -/
def Translation.pinned (x : Translation) : Nat := (x.xc.filter fun e => !e.pins.isEmpty).length

/-- Use entries: move them to the front, pinned by a descriptor where one is given. -/
def Translation.useX (x : Translation) (hits : List XEntry) (pin : Option Nat) : Translation :=
  let f := fun (e : XEntry) => match pin with
    | some id => { e with ahead := false, pins := if e.pins.contains id then e.pins else id :: e.pins }
    | none => { e with ahead := false }
  { x with xc := (x.xc.filter fun e => hits.contains e).map f ++ x.xc.filter fun e => !(hits.contains e) }

/-- Drop the unpinned entry used least recently. -/
def dropLru : List XEntry → List XEntry
  | [] => []
  | e :: t => if (dropLru t).length < t.length then e :: dropLru t else if e.pins.isEmpty then t else e :: t

/-- Fill one entry (R99). -/
def Translation.fillX (x : Translation) (e : XEntry) : Translation :=
  let same := fun (g : XEntry) => g.port == e.port && g.pasid == e.pasid && g.iova == e.iova && g.log2 == e.log2 && !g.stale && !g.old
  let old := (x.xc.filter same).flatMap (·.pins)
  let l := x.xc.filter fun g => !same g
  { x with xc := { e with pins := dedup (e.pins ++ old) } :: (if l.length ≥ 4096 then dropLru l else l) }

/-- An entry stays unless it was kept for descriptors that pin it, and none does any more. -/
def XEntry.stays (e : XEntry) : Bool := !(e.old && e.pins.isEmpty)

/-- Release a descriptor's pins. -/
def Translation.unpin (x : Translation) (id : Nat) : Translation :=
  { x with xc := (x.xc.map fun e => { e with pins := e.pins.erase id }).filter XEntry.stays }

/-- Entries leave the cache, but for those that descriptors pin: these are kept for them, and translate nothing for others (R90,
R419). -/
def Translation.retire (x : Translation) (p : XEntry → Bool) : Translation :=
  { x with xc := (x.xc.map fun e => if p e then { e with old := true } else e).filter XEntry.stays }

/-! ## Requests to the host -/

/-- Runs of adjoining pages of one port. -/
def pageRuns : List PageRef → List (Nat × Nat × Nat)
  | [] => []
  | g :: t => match pageRuns t with
    | (p, i, n) :: l => if p = g.port ∧ i = g.iova + 4096 then (p, g.iova, n + 1) :: l else (g.port, g.iova, 1) :: (p, i, n) :: l
    | [] => [(g.port, g.iova, 1)]

/-- Send ATS translation requests. -/
def State.sendAts (s : State) (id pasid : Nat) (miss : List PageRef) : State :=
  let runs := pageRuns miss
  (s.sendAll (runs.map fun r => .atsReq id r.1 pasid r.2.1 r.2.2)).countN Ctr.atsReq runs.length

/-- Page requests outstanding on a function (R28). -/
def State.priOut (s : State) (port : Nat) : Nat :=
  sumBy (fun e => match s.desc e.1 with
    | some d => if (s.ring d.ring).home = port then e.2 else 0
    | none => 0) s.xl.pri

/-! ## The park (R102) -/

/-- A descriptor's pricking cannot finish now: it enters the park, or waits at its ring head while the park is full. -/
def State.park (s : State) (d : Desc) : State :=
  if d.stage != .queued then s.setDesc d
  else if s.fe.park.length < 256 then
    (s.setDesc { d with stage := .parked }).onFe fun f => { f with park := f.park ++ [d.id] }
  else (s.setDesc { d with stage := .headWait }).count Ctr.parkFull

/-- A descriptor leaves the front end, its pricking done. -/
def State.pass (s : State) (d : Desc) : State :=
  (s.setDesc { d with stage := if d.stage = .queued || d.stage = .parked || d.stage = .headWait then .ready else d.stage }).onFe
    fun f => { f with park := f.park.erase d.id }

/-! ## Leaving what a descriptor is in -/

/-- Take away the sorted windows that have no descriptor left and no row outstanding, with the tier-2 rows that landed for them
and the hoops of descriptors that have left. -/
def State.tidyWins (s : State) : State :=
  let s1 := s.onSp fun x =>
    let ws := x.pwins.filter fun w => !(w.members.isEmpty && w.asked.isEmpty)
    { x with pwins := ws, hoops := x.hoops.filter fun h => ws.any fun w => w.wid == h.wid && w.members.any fun p => p.mem.id == h.id }
  s1.onFl fun f => { f with landed := f.landed.filter fun e => s1.sp.pwins.any fun w => w.wid == e.wid }

/-- A sorted window without one of its descriptors: with none left it begins no further round, and waits for what it has asked. -/
def PWin.without (w : PWin) (id : Nat) : PWin :=
  let ms := w.members.filter fun m => m.mem.id != id
  if ms.isEmpty then { w with members := [], capped := [], plan := w.plan.take w.round } else { w with members := ms }

/-- Take a descriptor out of the windows, poolings, updates and bulk movement it is in (R167, R205). -/
def State.abandon (s : State) (id : Nat) : State :=
  let dropW := fun (w : Window) => { w with members := w.members.filter fun m => m.id != id }
  let s1 := s.onSp fun x =>
    { x with
      open' := (x.open'.map dropW).bind fun w => if w.members.isEmpty then none else some w
      queue := (x.queue.map dropW).filter fun w => !w.members.isEmpty
      sorters := (x.sorters.map fun e => (e.1, dropW e.2)).filter fun e => !e.2.members.isEmpty
      pwins := x.pwins.map fun w => w.without id }
  let s2 := s1.onFl fun x => { x with bulk := x.bulk.filter fun b => b.id != id }
  (s2.onUp fun x =>
    { x with intake := x.intake.erase id
             sorted := x.sorted.filter fun m => m.id != id }).tidyWins

/-! ## Faults (R104, R105) -/

/-- The DONE of a descriptor that a range's fault keeps from running; none where it runs up to the fault (Table 29). A computing
descriptor with several input ranges counts the bytes before the fault in the range that faults, and in no other: the spec does not say
which it means (DESIGN CHOICE). -/
def Range.stops (r : Range) : Option Nat :=
  match r.fault with
  | none => none
  | some (off, st) =>
    if r.fabric || st == St.segStraddle then some 0
    else match r.kind with
      | .input => some off
      | .xlate => some off
      | .advise => some 0
      | _ => if off = 0 then some 0 else none

/-- The same for a descriptor: a TABLE_PIN FROM_SRC makes its extent even where its source faults at once (R453). -/
def Desc.stopsAt (d : Desc) (r : Range) : Option Nat :=
  if d.opc = 0x12 && !r.fabric && (r.fault.map (·.2)) != some St.segStraddle then none else Range.stops r

/-- The device-virtual address of a range's first faulting byte. -/
def Range.faultVa (r : Range) : Word64 :=
  match r.fault with
  | some (off, _) => r.va + BitVec.ofNat 64 off
  | none => 0

/-- The range of a descriptor whose fault keeps it from running. -/
def Desc.stopRange (d : Desc) : Option Range := d.ranges.find? fun r => (d.stopsAt r).isSome

/-- The outcome of a descriptor that a fault keeps from running. -/
def State.stopFault (s : State) (d : Desc) : State :=
  match d.stopRange with
  | some r =>
    (s.setDesc d).endDesc d.id ((r.fault.map (·.2)).getD St.pageFault) 0 ((d.stopsAt r).getD 0) r.faultVa
  | none => s

/-! ## Run-ahead of translations (R110, R111) -/

/-- The advised range of a context that holds the bytes from lo to hi (R111). -/
def State.advisedAt (s : State) (ctx lo hi : Nat) : Option Advised :=
  s.xl.advised.find? fun g => g.ctx == ctx && decide (g.va ≤ lo ∧ hi < g.va + g.len)

/-- Entries that hold run-ahead translations, and pages asked for. -/
def State.aheadCount (s : State) : Nat := (s.xl.xc.filter (·.ahead)).length + sumBy (·.pages) s.xl.ahead

/-- Start a run-ahead beyond the end of a pricked host range. -/
def State.runAhead (s : State) (d : Desc) (r : Range) : State :=
  let dist := bitf (s.cfg Reg.xlateCtl) 16 5
  let last := r.va.toNat + r.len - 1
  if r.fabric || r.len = 0 || dist = 0 || r.fault.isSome then s
  else match s.advisedAt d.ctx r.va.toNat last with
    | none => s
    | some g =>
      let s1 := s.onXl fun x => { x with advised := x.advised.map fun h => if h = g then { h with ended := false } else h }
      let a := (last / 4096 + 1) * 4096
      if a ≥ g.va + g.len then s1
      else match segFind s1.xl.segs d.ctx a with
        | none => s1.count Ctr.raDropNoseg
        | some e =>
          let needW := r.kind == .result || r.kind == .bulkDst
          if e.fabric then s1
          else if (needW && !e.w) || (!needW && !e.r) then s1.count Ctr.raDropRights
          else
            let stop := min (g.va + g.len) (e.start + e.len)
            let room := 1024 - s1.aheadCount
            let home := (s1.ring d.ring).home
            let pasid := s1.ctxPasid d.ctx
            let all := (List.range (min dist (min room (ceilDiv (stop - a) 4096)))).map fun i =>
              ({ off := i, port := home, iova := (e.base + (a - e.start)) / 4096 * 4096 + 4096 * i, r := !needW, w := needW,
                 pinned := true } : PageRef)
            let miss := all.filter fun q => !(s1.xl.xc.any fun x => x.suffices pasid q)
            match miss with
            | [] => s1
            | q :: _ =>
              let id := s1.fe.nextId
              let n := (miss.getLast?.map fun z => (z.iova - q.iova) / 4096 + 1).getD 1
              let h : Ahead := { id := id, ctx := d.ctx, port := home, pasid := pasid, va := a + 4096 * q.off, iova := q.iova,
                                 pages := n, needR := !needW, needW := needW }
              (((s1.onFe fun f => { f with nextId := id + 1 }).onXl fun x => { x with ahead := x.ahead ++ [h] }).send
                (.atsReq id home pasid q.iova n)).count Ctr.atsReq

/-! ## One range -/

/-- What pricking one range led to. -/
inductive Pricked where
  | done (s : State) (r : Range)     -- known
  | wait (s : State) (d : Desc)      -- the descriptor waits
  deriving Repr

/-- A descriptor with one range replaced, by its place. -/
def Desc.setRange (d : Desc) (i : Nat) (r : Range) : Desc := { d with ranges := d.ranges.set i r }

/-- The IOVA of a context's block in the segment mirror (R91). -/
def State.mirrorAddr (s : State) (c : Nat) : Nat := bitf (s.cfg Reg.segmBase) 12 45 * 4096 + 512 * c

/-- Read a context's mirror block on a port, while the mirror can be translated (R96, R107). -/
def State.readMirror (s : State) (c port : Nat) : State :=
  if s.drvFails 2 then s else s.send (.mirrorRead c (s.mirrorAddr c) (s.drvRoute port))

/-- A context's mirror block is being read. -/
def State.mirrorOut (s : State) (c : Nat) : Bool := s.xl.mirror.any fun m => m.1 == c

/-- A segment miss: the context's block is read on the port, unless its read is in flight. -/
def State.askMirror (s : State) (c port : Nat) : State :=
  if s.mirrorOut c then s else (s.onXl fun x => { x with mirror := x.mirror ++ [(c, port)] }).readMirror c port

/-- The mirror is present (R96). -/
def State.mirrorOn (s : State) : Bool := bitb (s.cfg Reg.segmBase) 0

/-- Find a range's segments. The look-up of a range that finds every segment in the cache is a hit, one that does not is a miss, counted
once for the range (R114). While the home port is down the mirror cannot be read, and the descriptor waits. -/
def State.prickSeg (s : State) (d : Desc) (i : Nat) (r : Range) : Pricked :=
  if r.seg then .done s r
  else
    let home := (s.ring d.ring).home
    match walkRange s.xl.segs s.mirrorOn d.seen d.ctx r.kind r.va.toNat r.len 33 0 [] with
    | .need =>
      let s1 := s.countN Ctr.segcMiss (b2n !r.miss)
      if s.cxlUp home then .wait (s1.askMirror d.ctx home) ({ d with mirror := true }.setRange i { r with miss := true })
      else .wait s1 (d.setRange i { r with miss := true })
    | .found ps fab flt =>
      let s1 := s.onXl fun x => { x with segs := segTouch x.segs d.ctx r.va.toNat r.len }
      let missed := (flt.map (·.2)) == some St.segMiss
      let s2 := if r.miss then s1 else s1.count (if missed then Ctr.segcMiss else Ctr.segcHit)
      let r1 := { r with seg := true, pieces := ps, fabric := fab, fault := flt }
      .done s2 { r1 with known := fab || r.kind == .advise || (Range.stops r1).isSome }

/-- Where a range's transfer ends: at its first faulting byte, or its end. -/
def Range.stopOff (r : Range) : Nat := ((r.fault.map (·.1)).getD r.len)

/-- The pages of a range up to where it ends that the transfer has not passed and that have not been refused (R99, R100, R103). -/
def State.pagesOf (s : State) (d : Desc) (r : Range) : List PageRef :=
  ((r.pages (s.portFor d r)).drop r.upto).filter fun g => decide (g.off < r.stopOff) && !(r.lack.contains g.off)

/-- How many entries a descriptor may still pin (R99). -/
def State.roomOf (s : State) (d : Desc) : Nat := 32 - (s.xl.xc.filter fun e => e.pins.contains d.id).length

/-- Entries that a descriptor has pinned count no more against its 32. -/
def scanDesc (s : State) (d : Desc) (r : Range) : List XEntry × List PageRef :=
  scanPages s.xl.xc d.id (s.ctxPasid d.ctx) (s.roomOf d) (s.pagesOf d r) (s.xl.xc.filter fun e => e.pins.contains d.id) []

/-- The pages of a page request group, the last of them marked (R103). -/
def groupOf : List PageRef → List (Nat × Bool × Bool × Bool)
  | [] => []
  | [g] => [(g.iova, g.r, g.w, true)]
  | g :: t => (g.iova, g.r, g.w, false) :: groupOf t

/-- Pages that came back without their permission (R103, R104): a page request group, a wait, or, at the first of them, the fault. The
access faults at once where one of them lies in a PINNED segment, and where a page request has named one of them already. That a range
which lacks both PINNED pages and others faults at its first lacking page, be it one of the others and no page request sent for it, is the
model's choice: R103 and R104 do not order the two (DESIGN CHOICE). A page request waits while its port is down. -/
def State.prickLack (s : State) (d : Desc) (i : Nat) (r : Range) : Pricked :=
  let home := (s.ring d.ring).home
  let first := r.lack.foldl min (r.lack.headD 0)
  let asked := (r.pages (s.portFor d r)).filter fun (g : PageRef) => r.lack.contains g.off
  if asked.any (·.pinned) || !(s.ctxPri d.ctx) || s.xl.priStop.contains home || r.lack.any r.pri.contains then
    .done s { r with fault := some (max first r.sent, St.pageFault), known := true }
  else
    let n := asked.length
    if s.priOut home + n > 512 || !(s.cxlUp home) then .wait s (d.setRange i r)
    else
      let s1 := s.onXl fun x => { x with pri := x.pri ++ [(d.id, n)] }
      let s2 := (s1.send (.pageReq d.id home (s.ctxPasid d.ctx) (groupOf asked))).countN Ctr.priReq n
      .wait s2 ({ d with askR := i }.setRange i { r with pri := r.pri ++ r.lack })

/-- An ATS request for pages of the i-th range, each a miss of the cache (R114): the descriptor waits for its completion; it waits too, and
nothing is sent, while a port that it needs is down. -/
def State.askPages (s : State) (d : Desc) (i : Nat) (r : Range) (miss : List PageRef) : Pricked :=
  if miss.all fun g => s.cxlUp g.port then
    .wait ((s.countN Ctr.xcMiss miss.length).sendAts d.id (s.ctxPasid d.ctx) miss)
      ({ d with ats := true, askR := i, askP := miss.map PageRef.off }.setRange i r)
  else .wait s (d.setRange i r)

/-- Entries that the answers a descriptor waits for may fill and pin: the pages it has asked for, and those it may ask for again (R99). -/
def Desc.toPin (d : Desc) : Nat :=
  (if d.ats && (d.ranges[d.askR]?.map Range.kind) != some .xlate then d.askP.length else 0) +
    sumBy (fun r => if r.kind == .xlate || r.known then 0 else r.lack.length) d.ranges

/-- Entries pinned now, or to be pinned as answers come (R99). -/
def State.pinsDue (s : State) : Nat := s.xl.pinned + sumBy Desc.toPin s.fe.descs

/-- Translate a range whose segments are found. An entry newly pinned is a hit (R114). A second range of 32 pages or fewer, of a descriptor
whose earlier ranges hold its 32 entries, leaves the front end untranslated and is translated as they are released: R99 and R100 conflict
there, and the model holds to R99 (DESIGN CHOICE). -/
def State.prickXlate (s : State) (d : Desc) (i : Nat) (r : Range) : Pricked :=
  let pasid := s.ctxPasid d.ctx
  if r.known then .done s r
  else if !r.lack.isEmpty then s.prickLack d i r
  else if r.kind = .xlate then
    let rest := s.pagesOf d r
    let lead := rest.takeWhile fun g => s.xl.xc.any fun e => e.suffices pasid g
    let miss := ((rest.drop lead.length).filter fun g => !(s.xl.xc.any fun e => e.suffices pasid g)).take 32
    let hits := lead.filterMap fun g => s.xl.xc.find? fun e => e.suffices pasid g
    let s1 := (s.onXl fun x => x.useX hits none)
    let s2 := s1.countN Ctr.xcHit (lead.filter fun g => !(r.asked.contains g.off)).length
    let r1 := { r with upto := r.upto + lead.length }
    if miss.isEmpty then .done s2 { r1 with known := true } else s2.askPages d i { r1 with asked := miss.map PageRef.off } miss
  else
    let (hits, miss) := scanDesc s d r
    let new := hits.filter fun e => !(e.pins.contains d.id)
    let fresh' := new.filter (·.pins.isEmpty)
    if s.pinsDue + fresh'.length + miss.length > 3584 then .wait s (d.setRange i r)
    else
      let s1 := (s.countN Ctr.xcHit new.length).onXl fun x => x.useX new (some d.id)
      if miss.isEmpty then .done s1 { r with known := true } else s1.askPages d i r miss

/-- Prick one range. -/
def State.prickRange (s : State) (d : Desc) (i : Nat) (r : Range) : Pricked :=
  match s.prickSeg d i r with
  | .wait s1 d1 => .wait s1 d1
  | .done s1 r1 => s1.prickXlate d i r1

/-! ## A descriptor -/

/-- A gather's extension block may be read, and is not of the form R174 asks for (Table 52, value 8). -/
def Desc.extFails (d : Desc) (i : Nat) (r : Range) : Bool :=
  d.hasExt && i == 0 && r.fault.isNone && (d.opc == 1 || d.opc == 2) && extBad d

/-- The descriptor has not left the front end. -/
def Desc.inFront (d : Desc) : Bool := d.stage == .queued || d.stage == .parked || d.stage == .headWait

/-- Prick a descriptor's ranges from the i-th on; the fuel is their number and one more. A fault that keeps the descriptor from going on
ends it, and takes it out of what it is in where it has left the front end (R105). Translations run ahead of a range as the descriptor is
pricked at the front end, and not again as its transfer goes on (R111). -/
def State.prickFrom (s : State) (d : Desc) : Nat → Nat → State
  | 0, _ => s.pass d
  | fuel + 1, i =>
    match d.ranges[i]? with
    | none => s.pass d
    | some r =>
      if r.known then
        (if (d.stopsAt r).isSome && d.inFront then s.stopFault d else State.prickFrom s d fuel (i + 1))
      else match s.prickRange d i r with
        | .wait s1 d1 => s1.park { d1 with seen := false }
        | .done s1 r1 =>
          let d1 := d.setRange i r1
          if d.extFails i r1 then (s1.setDesc d1).endDesc d.id St.badFormat 8 0 0
          else if (d1.stopsAt r1).isSome then (if d.inFront then s1 else s1.abandon d.id).stopFault d1
          else State.prickFrom (if d.inFront then s1.runAhead d r1 else s1) d1 fuel (i + 1)

/-- A descriptor waits for an answer from the host. -/
def State.asking (s : State) (d : Desc) : Bool := d.mirror || d.ats || s.xl.pri.any fun e => e.1 == d.id

/-- A range of a bulk descriptor lies in the wrong kind of segment for its opcode: a spill reads FABRIC and writes HOST, a fill the reverse
(R325, Table 86). -/
def Desc.misdirected (d : Desc) : Bool :=
  d.isBulk && d.ranges.any fun r =>
    r.seg && (r.fault.filter fun f => f.1 == 0 && f.2 == St.segMiss).isNone && r.fabric != ((d.opc == 0x20) == (r.kind == .bulkSrc))

/-- Find the segments of one range of a bulk descriptor; the flag says that it waits for them. -/
def State.bulkSeg (s : State) (d : Desc) (i : Nat) : State × Desc × Bool :=
  match d.ranges[i]? with
  | none => (s, d, false)
  | some r => match s.prickSeg d i r with
    | .wait s1 d1 => (s1, d1, true)
    | .done s1 r1 => (s1, d.setRange i r1, false)

/-- Prick a descriptor's ranges. The segments of both ranges of a bulk descriptor are found first, so that a range of the wrong kind is told
before one that lacks a right or a page (R325). -/
def State.prickAll (s : State) (d : Desc) : State :=
  if d.isBulk && d.inFront then
    let a := s.bulkSeg d 0
    let b := if a.2.2 then a else a.1.bulkSeg a.2.1 1
    if b.2.1.misdirected then (b.1.setDesc b.2.1).endDesc d.id St.badFormat 3 0 0
    else if b.2.2 then b.1.park { b.2.1 with seen := false }
    else b.1.prickFrom b.2.1 (d.ranges.length + 1) 0
  else s.prickFrom d (d.ranges.length + 1) 0

/-- Prick a descriptor, or go on with its pricking. -/
def State.prick (s : State) (id : Nat) : State :=
  match s.desc id with
  | none => s
  | some d => if s.asking d || d.stage == .finished then s else s.prickAll d

/-- Pages of a descriptor's ranges are still to be translated, and its pricking waits for pins or for page requests. -/
def Desc.pricking (d : Desc) : Bool :=
  d.stage == .parked || d.stage == .headWait ||
    (d.stage != .queued && d.stage != .finished && d.stage != .heldRec && d.stage != .replay && d.ranges.any fun r => !r.known)

/-- Go on with the descriptors whose pricking waits for pins or for page requests, oldest first. -/
def State.retryParked (s : State) : State :=
  State.forEach State.prick ((s.fe.descs.filter Desc.pricking).map (·.id)) s

/-- A page size that the host returns and Criholt holds: 4 KiB, 2 MiB or 1 GiB (R28, R99). -/
def pageLog (n : Nat) : Bool := n == 12 || n == 21 || n == 30

/-- Take in what an ATS translation request answered for the pages it named: pages with their permission fill entries, pinned unless the
range is PREFETCH XLATE's; the others lack it (R99, R103). -/
def State.takeXlates (s : State) (d : Desc) (xs : List Xlate) : State :=
  match d.ranges[d.askR]? with
  | none => s.setDesc { d with ats := false }
  | some r =>
    let pasid := s.ctxPasid d.ctx
    let miss := (r.pages (s.portFor d r)).filter fun g => d.askP.contains g.off
    let pins := if r.kind = .xlate then [] else [d.id]
    let give := fun (g : PageRef) => xs.find? fun x =>
      x.port == g.port && pageLog x.log2 && x.iova / 2 ^ x.log2 == g.iova / 2 ^ x.log2 && (x.r || !g.r) && (x.w || !g.w)
    let s1 := State.forEach (fun s g => match give g with
      | some x => s.onXl fun t => t.fillX { port := x.port, pasid := pasid, iova := x.iova / 2 ^ x.log2 * 2 ^ x.log2,
                                            log2 := x.log2, r := x.r, w := x.w, hpa := x.hpa / 2 ^ x.log2 * 2 ^ x.log2, pins := pins }
      | none => s) miss s
    let lack := (miss.filter fun g => (give g).isNone).map (·.off)
    let got := (miss.filter fun g => (give g).isSome).map (·.off)
    s1.setDesc ({ d with ats := false, askP := [] }.setRange d.askR
      { r with lack := r.lack ++ lack, pri := r.pri.filter fun o => !(got.contains o) })

/-! ## Progressive translation (R100, R101) -/

/-- The entry that a descriptor has pinned for a page; none may be used once it is stale (R108). -/
def State.pageEntry (s : State) (d : Desc) (g : PageRef) : Option XEntry := s.xl.xc.find? fun e => e.gives d.id (s.ctxPasid d.ctx) g

/-- The host physical address of an IOVA of a descriptor's range on a port. -/
def State.hpaOf (s : State) (d : Desc) (port iova : Nat) : Nat :=
  match s.xl.xc.find? fun e => e.pins.contains d.id && e.port == port && e.pasid == s.ctxPasid d.ctx &&
      e.iova / 2 ^ e.log2 == iova / 2 ^ e.log2 with
  | some e => e.hpa + (iova - e.iova)
  | none => iova

/-- Reads of n bytes from address a, cut at multiples of `cut` bytes; the fuel is n. -/
def cutReads (cut : Nat) : Nat → Nat → Nat → List (Nat × Nat)
  | 0, _, _ => []
  | f + 1, a, n => if n = 0 then [] else
    let m := min n (cut - a % cut)
    (a, m) :: cutReads cut f (a + m) (n - m)

/-- The reads of bytes lo to hi of a host source range: translated requests, page by page, a bulk descriptor's of at most 512 bytes (R101,
R326). -/
def State.hostReads (s : State) (d : Desc) (r : Range) (lo hi : Nat) : List Output :=
  (r.pages (s.portFor d r)).flatMap fun g =>
    let a := max lo g.off
    let n := min hi (g.off + g.len) - a
    let at' := s.hpaOf d g.port ((r.pieces.find? fun p => decide (p.off ≤ a ∧ a < p.off + p.len)).elim g.iova fun p => p.target + (a - p.off))
    (cutReads (if d.isBulk then 512 else 4096) n at' n).map fun q => .read d.id q.1 q.2 (.host g.port (s.ctxPasid d.ctx) true)

/-- The reads of bytes lo to hi of a FABRIC source range: messages of at most 512 bytes (R22, R326). -/
def fabReads (d : Desc) (r : Range) (lo hi : Nat) : List Output :=
  let at' := ((r.pieces.head?.map Piece.target).getD 0) + lo
  (cutReads 512 (hi - lo) at' (hi - lo)).map fun q => .read d.id q.1 q.2 (.fabric 0)

/-- Every page of the bytes from lo to hi of a host range is translated (R100). -/
def State.covered (s : State) (d : Desc) (r : Range) (lo hi : Nat) : Bool :=
  r.fabric || (r.pages (s.portFor d r)).all fun g =>
    decide (min hi (Range.stopOff r) ≤ g.off ∨ g.off + g.len ≤ lo) || (s.pageEntry d g).isSome

/-- The bytes of a range up to its first page that the transfer has not passed and that is not translated. -/
def State.coveredTo (s : State) (d : Desc) (r : Range) : Nat :=
  match ((r.pages (s.portFor d r)).drop r.upto).find? fun (g : PageRef) => decide (g.off < Range.stopOff r) && (s.pageEntry d g).isNone with
  | some g => max r.sent g.off
  | none => Range.stopOff r

/-- A range whose transfer has passed `n` bytes: the pages wholly before them are done with. -/
def Range.passTo (port : Nat → Nat) (n : Nat) (r : Range) : Range :=
  { r with sent := max r.sent n
           upto := max r.upto ((r.pages port).takeWhile fun (g : PageRef) => decide (g.off + g.len ≤ n)).length }

/-- A range whose pages are translated beside its transfer: host memory, its segments found, and no fault that stops it. -/
def Range.opens (r : Range) : Bool := r.seg && !r.fabric && (Range.stops r).isNone && r.kind != .advise && r.kind != .xlate

/-- The transfers of the kinds have passed these bytes (R100): entries that no page still to come uses are released, and the pages that
follow are translated. -/
def State.passBytes (s : State) (id : Nat) (upTo : Desc → Range → Option Nat) : State :=
  match s.desc id with
  | none => s
  | some d =>
    let go := fun (r : Range) => match (if r.opens then upTo d r else none) with
      | some n => r.passTo (s.portFor d r) n
      | none => r
    let rs := d.ranges.map fun r => let q := go r; if q.opens then { q with known := false } else q
    let d1 := { d with ranges := rs }
    let want := rs.flatMap fun r => if r.opens then s.pagesOf d1 r else []
    let pasid := s.ctxPasid d.ctx
    let reads := d.ranges.flatMap fun r =>
      if r.kind == .input || (r.kind == .bulkSrc && !d.isBulk) then s.hostReads d r r.sent (min (go r).sent (Range.stopOff r)) else []
    let s1 := ((s.sendAll reads).setDesc d1).onXl fun x =>
      { x with xc := (x.xc.map fun e =>
          if want.any fun g => e.gives id pasid g then e else { e with pins := e.pins.erase id }).filter XEntry.stays }
    (s1.prick id).retryParked

/-- A descriptor's inputs are to be read once more from their first bytes (R167): their pages are translated again. -/
def State.readAnew (s : State) (id : Nat) : State :=
  let back := fun (r : Range) => if r.kind == .input && r.opens then { r with sent := 0, upto := 0, known := false } else r
  (s.onDesc id fun d => { d with ranges := d.ranges.map back }).prick id

/-- Every input of a descriptor is translated to its end, or to its first faulting byte, so that its transfer can finish. -/
def State.inputsIn (s : State) (d : Desc) : Bool :=
  d.ranges.all fun r => !(r.kind == .input || r.kind == .bulkSrc) || !r.opens || s.coveredTo d r == Range.stopOff r

/-- The transfer of a descriptor's inputs goes as far as their translations do, and waits (R100). -/
def State.readOn (s : State) (id : Nat) : State :=
  s.passBytes id fun d r => if r.kind = .input || r.kind = .bulkSrc then some (s.coveredTo d r) else none

/-- The inputs of a descriptor have been read, those in FABRIC segments among them: their translations are released. -/
def State.inputsDone (s : State) (id : Nat) : State :=
  let fab := match s.desc id with
    | none => []
    | some d => d.ranges.flatMap fun r => if r.fabric && (r.kind == .input || r.kind == .bulkSrc) then fabReads d r 0 r.len else []
  (s.fabSendAll fab).passBytes id fun _ r => if r.kind = .input || r.kind = .bulkSrc then some r.len else none

end Sys2Proof.Machine
end

