-- ==== Sys2Proof/Machine/Queue.lean ====
section
/-!
DEFINITION. Completion space (R71, R451), the writing of a descriptor's record and what follows from it (R68, R72, R75, R82, R84,
R137, R164, R196, R450), and the emptying of a ring (R51, R167, R200).
-/

namespace Sys2Proof.Machine

/-! ## Reservation (R71, R450, R451) -/

/-- Descriptors that the bulk mover holds (R326). -/
def bulkCap : Nat := 64

/-- A bulk descriptor that waits at the front end of its ring for the bulk mover, which is full (R326). -/
def State.bulkWaits (s : State) (d : Desc) : Bool :=
  decide (bulkCap ≤ s.fl.bulk.length) && d.stage == .ready && (d.opc == 0x20 || d.opc == 0x21)

/-- A descriptor before this one in its ring keeps it from reserving: one that has not reserved yet, one that waits for a park
entry at the ring's head (R102), a FENCE or WAIT whose condition does not hold yet (R83, R84), or one that waits for the bulk mover. -/
def State.heldBack (s : State) (d : Desc) : Bool :=
  (s.ringDescs d.ring).any fun e =>
    decide (e.id < d.id) && (e.stage == .queued || e.stage == .headWait || s.bulkWaits e ||
      (e.stage == .waiting && (e.opc == 0x30 || e.opc == 0x31)))

/-- Free slots of a completion ring that no reservation and no held RING_OVERRUN record has a claim on. -/
def State.freeFor (s : State) (c : Nat) : Nat := Ring.space (s.ring c) - (s.heldFor c).length

/-- A reserved descriptor goes on: an outcome found as it was queued ends it, a FENCE or WAIT waits, any other is pricked. -/
def State.letIn (s : State) (id : Nat) : State :=
  match s.desc id with
  | none => s
  | some d =>
    if d.status != St.ok then s.settle id fun x => x
    else if d.opc = 0x30 || d.opc = 0x31 then s.onDesc id fun x => { x with stage := .waiting }
    else s.prick id

/-- Reserve a queued descriptor's completion space, where its turn has come and there is room. -/
def State.reserveOne (s : State) (id : Nat) : State :=
  match s.desc id with
  | none => s
  | some d =>
    let c := (s.ring d.ring).cplRing
    if d.stage != .queued || d.resv != 0 || s.heldBack d || (s.ring d.ring).state == .pausedHost || !s.passing then s
    else if d.cplNeed ≤ s.freeFor c then
      ((s.onRing c fun r => { r with resv := r.resv + d.cplNeed }).onDesc id fun x => { x with resv := d.cplNeed }).letIn id
    else if d.waited then s
    else (s.onDesc id fun x => { x with waited := true }).count Ctr.cplSpaceWait

/-- Reserve for the queued descriptors that complete into ring c, oldest first. -/
def State.reserveAll (s : State) (c : Nat) : State :=
  State.forEach State.reserveOne
    ((s.fe.descs.filter fun d => d.stage == .queued && (s.ring d.ring).cplRing == c).map (·.id)) s

/-- A gather that takes no sorter binds its rescale bank as it is queued (R215). -/
def Desc.bindsQueued (d : Desc) : Bool := (d.opc == 1 || d.opc == 2) && d.count == 0

/-- A descriptor as it starts again (R86). -/
def Desc.again (s : State) (d : Desc) : Desc :=
  { d with ranges := { d with ranges := [] }.namedRanges s, mirror := false, seen := false, ats := false, ioOther := false, status := St.ok,
           flags := withFlag 0 Fl.replayed true, ver := 0, digest := 0, done := 0, detail := 0, info := 0, inl := [],
           bank := if d.bindsQueued then s.qz.active else d.bank, bound := d.bindsQueued,
           need := 0, lost := 0, fwd := 0, late := 0, rejects := 0, overflow := false, sat := 0, under := 0, wide := 0,
           ranged := false, stage := .queued }

/-! ## DONE_SEQ and those that wait for it (R82, R84) -/

/-- Advance DONE_SEQ over the completed values that follow it; the fuel is their number. -/
def advance : Nat → BitVec 32 → List (BitVec 32) → BitVec 32 × List (BitVec 32)
  | 0, d, l => (d, l)
  | f + 1, d, l => if l.contains (d + 1) then advance f (d + 1) (l.erase (d + 1)) else (d, l)

/-- A SEQ of a ring completed. -/
def Ring.doneSeqAt (r : Ring) (q : BitVec 32) : Ring :=
  let l := q :: r.doneAhead
  let a := advance l.length r.doneSeq l
  { r with doneSeq := a.1, doneAhead := a.2 }

/-- DONE_SEQ d has reached q (R84). -/
def seqReached (d q : BitVec 32) : Bool := decide ((d - q).toNat < 2 ^ 31)

/-- WAITs that wait on a ring. -/
def State.waitsOn (s : State) (k : Nat) : List Desc :=
  s.fe.descs.filter fun d => d.stage == .waiting && d.opc == 0x31 && d.waitRing == k

/-- Complete a WAIT or FENCE, and let the descriptors behind it reserve. -/
def State.endWait (s : State) (id : Nat) (st : BitVec 8) : State :=
  match s.desc id with
  | none => s
  | some d => (s.endDesc id st 0 0 0).reserveAll (s.ring d.ring).cplRing

/-- Complete the WAITs whose condition holds now. -/
def State.wakeWaits (s : State) (k : Nat) : State :=
  State.forEach (fun s d => if seqReached (s.ring k).doneSeq d.waitSeq then s.endWait d.id St.ok else s) (s.waitsOn k) s

/-- WAITs on a ring that hold no reservation yet. -/
def State.waitsQueued (s : State) (k : Nat) : List Desc :=
  s.fe.descs.filter fun d => d.stage == .queued && d.opc == 0x31 && d.status == St.ok && d.waitRing == k

/-- A ring was reset or disabled: the WAITs on it are aborted (R84), those still queued as soon as they have their reservation. -/
def State.abortWaits (s : State) (k : Nat) : State :=
  State.forEach (fun s d => s.endWait d.id St.waitAborted) (s.waitsOn k)
    (State.forEach (fun s d => s.onDesc d.id fun x => { x with status := St.waitAborted }) (s.waitsQueued k) s)

/-! ## Kept lists and named tiles -/

/-- Release kept lists (R164). -/
def State.dropKept (s : State) (p : Kept → Bool) : State := s.onSp fun x => { x with kept := x.kept.filter fun k => !p k }

/-- Release kept lists for CRH_IMAP_REL: at once, or, where a scatter uses them, when that completes (R164, Table 46). -/
def State.freeKept (s : State) (p : Kept → Bool) : State :=
  (s.dropKept fun k => p k && k.claimed.isNone).onSp fun x =>
    { x with kept := x.kept.map fun k => if p k then { k with release := true } else k }

/-- A descriptor of the owner ring that names the tile is queued and has not completed (R196). -/
def State.tileWanted (s : State) (ring tile except : Nat) : Bool :=
  s.fe.descs.any fun e => e.opc == 1 && e.tile == tile && e.ring == ring && e.id != except && e.status != St.tileBusy

/-- Ownership of a tile ends, unless a later descriptor of its ring keeps it (R196). -/
def State.endTile (s : State) (tile except : Nat) : State :=
  match mget s.sp.tiles tile with
  | none => s
  | some t =>
    if s.tileWanted t.owner tile except then s.onSp fun x => { x with tiles := mset x.tiles tile { owner := t.owner } }
    else s.onSp fun x => { x with tiles := mdel x.tiles tile }

/-- What a completed gather does to the named tile (R196, R198, R200): ownership ends unless it ended holding the tile; a release
that waited for it takes effect; a chain that did not begin leaves no positions. One refused for its shape leaves a held tile, and what an
earlier descriptor pools for, unchanged (R198, R199). -/
def State.tileDone (s : State) (d : Desc) : State :=
  if d.opc != 1 || d.tile = 0 then s
  else match mget s.sp.tiles d.tile with
    | none => s
    | some t =>
      if t.owner != d.ring || d.status == St.tileBusy then s
      else if d.status == St.badFormat && d.detail == 10 then
        if t.held || d.hold || s.tileWanted t.owner d.tile d.id then s else s.endTile d.tile d.id
      else
        let s1 := if t.release then s.finish .fn0 Reg.tileRel 0 else s
        if !d.hold || t.release then s1.endTile d.tile d.id
        else if t.held then s1
        else s1.onSp fun x => { x with tiles := mset x.tiles d.tile { t with pos := none } }

/-! ## The rescale bank that a LOAD waits for (R216) -/

/-- The bank that new descriptors do not bind. -/
def State.shadowRefs (s : State) : Nat := (s.fe.descs.filter fun d => d.bound && d.bank != s.qz.active).length

/-- The 1,024 entries of a rescale table. -/
def rscEntries (b : Bytes) : List F32 := (List.range 1024).map fun i => BitVec.ofNat 32 (field b (4 * i) 4)

/-- Write the shadow bank once no descriptor is bound to it, and finish the LOAD. -/
def State.endLoad (s : State) : State :=
  match s.qz.loading with
  | none => s
  | some b =>
    if s.shadowRefs ≠ 0 then s
    else
      let t := rscEntries b
      let q := s.qz
      let q1 := if q.active then { q with bankA := t, loading := none, shadowOk := true }
                else { q with bankB := t, loading := none, shadowOk := true }
      { s with qz := q1 }.finish .fn0 Reg.rscCmd 0

/-! ## A descriptor leaves the block -/

/-- A DRAINING ring whose descriptors have completed and whose held records are written goes to DISABLED (R450); its kept lists
and held tiles go (R164, R200). A WAIT on it that is waiting as DISABLE makes it DRAINING waits on, and is aborted here, as the ring reaches
DISABLED: R84 says only that the ring is reset or disabled (DESIGN CHOICE). -/
def State.disableRing (s : State) (k : Nat) : State :=
  let s1 := (s.onRing k fun r => { Ring.noTurn r with state := .disabled, hostFrom := .disabled }).onFe fun f =>
    { f with announced := f.announced.erase k, overruns := f.overruns.erase k }
  let s2 := s1.dropKept fun x => x.ring == k
  let s3 := if s2.sp.tiles.any fun t => t.2.owner == k && t.2.release then s2.finish .fn0 Reg.tileRel 0 else s2
  let s4 := s3.onSp fun x => { x with tiles := x.tiles.filter fun t => t.2.owner != k }
  (s4.abortWaits k).fitRing k

def State.drained (s : State) (k : Nat) : State :=
  let r := s.ring k
  if r.state = .draining && (s.ringDescs k).isEmpty && !(s.fe.overruns.contains k) then
    let s1 := s.disableRing k
    -- the DISABLE that waited for it is done
    let v := s1.cfg Reg.ringCmd
    if bitb v 31 && bitf v 0 17 == k && bitf v 20 4 == 2 then s1.finish .fn0 Reg.ringCmd 0 else s1
  else s

/-- INVAL_DRAIN waits for one descriptor fewer (R97); its RESULT is bits [47:40] and GO bit 39. -/
def State.drainInval (s : State) (id : Nat) : State :=
  match s.xl.drain with
  | none => s
  | some (c, m, l) =>
    let l1 := l.erase id
    if l1.isEmpty then
      let s1 := s.onXl fun x => { x with drain := none }
      regPut s1 .fn0 Reg.segInval (putf (putf (regGet s1 .fn0 Reg.segInval) 39 1 0) 40 8 0)
    else s.onXl fun x => { x with drain := some (c, m, l1) }

/-- Take a descriptor away: its reservation, its pins, the lists it claimed, its tile, and what waits for them. -/
def State.leave (s : State) (d : Desc) : State :=
  let c := (s.ring d.ring).cplRing
  let s1 := (s.onRing c fun r => { r with resv := r.resv - d.resv }).onFe fun f =>
    { f with descs := f.descs.filter fun x => x.id != d.id, park := f.park.erase d.id }
  let s2 := s1.onXl fun x =>
    { x.unpin d.id with
      pri := x.pri.filter fun e => e.1 != d.id
      invals := x.invals.map fun i => { i with waits := i.waits.erase d.id } }
  let s3 := s2.dropKept fun x => x.claimed == some d.id
  let s4 := s3.onSp fun x => { x with resvd := mdel x.resvd d.id }
  let s5 := s4.onUp fun x =>
    { x with resv := mdel x.resv d.id, intake := x.intake.erase d.id, sorted := x.sorted.filter fun m => m.id != d.id }
  ((s5.tileDone d).drainInval d.id).endLoad

/-- What may go on once a descriptor has left: reservations of its completion ring, and parked descriptors. -/
def State.goOn (s : State) (d : Desc) : State :=
  ((s.reserveAll (s.ring d.ring).cplRing).retryParked).drained d.ring

/-! ## The record (R67 to R72, R82, R84) -/

/-- A record is written: always, but for FLG.QUIET with OK and no flag (R72). -/
def Desc.needsRecord (d : Desc) : Bool := !d.quiet || d.status != St.ok || d.flags != 0

/-- Write the record of a finished descriptor. -/
def State.putRecord (s : State) (d : Desc) : State :=
  let c := (s.ring d.ring).cplRing
  let inl := !d.inl.isEmpty && d.status == St.ok
  let hd := fun (kind : Nat) (ph : Bool) =>
    recBytes d.seq.toNat d.ring ph kind d.status d.flags d.ver d.digest d.done d.detail d.info
  let ord := (s.ring d.ring).ord
  let s1 := if inl then s.putInline c ord d.inl (hd Kind.inline') else s.putSlot c ord (hd Kind.normal)
  s1.signal c (d.irq || d.status != St.ok)

/-- The descriptor's SEQ counts as completed, unless it failed its SEQ check (R57, R82). -/
def State.doneSeq (s : State) (d : Desc) : State :=
  if d.status = St.seqMismatch then s else (s.onRing d.ring fun r => Ring.doneSeqAt r d.seq).wakeWaits d.ring

/-- Results of a descriptor of an LU7 ring may not be visible yet (R79). -/
def State.noteUnseen (s : State) (d : Desc) : State :=
  if (s.ring d.ring).ord then s.onRing d.ring fun r => { r with unseen := r.unseen + 1 } else s

/-- Its record may be written now: on an IN_ORDER ring, no earlier descriptor of the ring is left (R82). -/
def State.recordTurn (s : State) (d : Desc) : Bool :=
  !(s.ring d.ring).inOrder || !((s.ringDescs d.ring).any fun e => decide (e.id < d.id))

/-- A descriptor that completes counts among its kind (R265, R341). -/
def State.countDone (s : State) (d : Desc) : State :=
  s.tell [.count Ctr.scatters (b2n (d.opc == 3)), .count Ctr.applies (b2n (d.opc == 4 && d.mode == 0)),
    .count Ctr.bulkDesc (b2n d.isBulk), .count Ctr.bulkStriped (b2n (d.isBulk && bitb d.flags Fl.striped))]

/-- CXL.io result writes on the other port are flushed by a zero-length read there before the flag (R78). -/
def State.flushOther (s : State) (d : Desc) : State :=
  if d.ioOther then s.send (.flushRead d.id (1 - (s.ring d.ring).home)) else s

/-- Write a finished descriptor's record, and what follows. -/
def State.finishRecord (s : State) (d : Desc) : State :=
  let s0 := (s.flushOther d).tell [.count Ctr.dataErrors (b2n (d.status == St.dataError)), .count Ctr.poisonHits (b2n (d.status == St.poisoned)),
    .count Ctr.overflowDesc (b2n (bitb d.flags Fl.overflow)), .count Ctr.tileBusy (b2n (d.status == St.tileBusy))]
  let s1 := (if d.needsRecord then s0.putRecord d else s0).countDone d
  (((s1.noteUnseen d).leave d).doneSeq d).goOn d

/-! ## RESET of a ring (R51, R167, R200, R450) -/

/-- Abort a descriptor in flight with RESET_ABORT, where its completion ring is live. -/
def State.abortOne (s : State) (d : Desc) : State :=
  let e := { d with status := St.resetAbort, flags := d.flags &&& 0x20, inl := [], done := 0, detail := 0, info := 0, digest := 0 }
  let live := d.resv != 0 && d.stage != .heldRec && s.cplLive (s.ring d.ring).cplRing
  let s1 := if live then (s.putRecord e).countDone d else s
  let s2 := s1.leave e
  if d.resv != 0 then (s2.onRing d.ring fun r => Ring.doneSeqAt r d.seq) else s2

/-- Empty a ring: discard what is not in flight, abort what is, and disable it. -/
def State.resetRing (s : State) (k : Nat) : State :=
  let ds := s.ringDescs k
  let s1 := State.forEach (fun s d => (s.abandon d.id).abortOne d) ds s
  let s2 := s1.disableRing k
  (s2.reserveAll (s.ring k).cplRing).retryParked

end Sys2Proof.Machine
end

