-- ==== Sys2Proof/Machine/Crc.lean ====
section
/-!
DEFINITION. CRC-32C as R204 takes it: reflected, polynomial 0x1EDC_6F41, final exclusive or with 0xFFFF_FFFF.
-/

namespace Sys2Proof.Machine

/-- The polynomial with its bits reflected. -/
def crcPoly : Nat := 0x82F63B78

/-- Shift n bits out of the register. -/
def crcBits : Nat → Nat → Nat
  | 0, c => c
  | n + 1, c => crcBits n (if c % 2 = 1 then (c / 2) ^^^ crcPoly else c / 2)

/-- Run bytes through the register. -/
def crcRun : Bytes → Nat → Nat
  | [], c => c
  | b :: t, c => crcRun t (crcBits 8 (c ^^^ b.toNat))

/-- CRC-32C of bytes from an initial register value, with the final exclusive or. -/
def crc32c (init : BitVec 32) (b : Bytes) : BitVec 32 :=
  BitVec.ofNat 32 (crcRun b init.toNat) ^^^ 0xFFFFFFFF#32

/-- The placement hash H of a row (R267). -/
def placeHash (k : Key) : Nat := (crc32c 0xFFFFFFFF#32 (leBytes 8 k.toNat)).toNat

end Sys2Proof.Machine
end

