-- ==== Sys2Proof/Machine/Ops.lean ====
section
/-!
DEFINITION. The named operations over Ground store's bytes: a list of (address, byte) pairs in one canonical form, addresses
strictly rising, no entry equal to what an unlisted address reads as. An address is the linear byte address of a pocket's byte
(R295, R298; log entry 19); an address nothing has written reads as zero (log entry 20).
-/

namespace Sys2Proof.Machine

/-- What an address that nothing has written reads as (log entry 20). -/
def Memory.empty : Byte := 0

/-- The byte at an address. -/
def Memory.read : List Host.Cell → Nat → Byte
  | [], _ => Memory.empty
  | (a, v) :: t, k => if a = k then v else Memory.read t k

/-- Write one byte, keeping the canonical form. -/
def Memory.write : List Host.Cell → Nat → Byte → List Host.Cell
  | [], k, v => if v = Memory.empty then [] else [(k, v)]
  | (a, w) :: t, k, v =>
    if a = k then (if v = Memory.empty then t else (k, v) :: t)
    else if k < a then (if v = Memory.empty then (a, w) :: t else (k, v) :: (a, w) :: t)
    else (a, w) :: Memory.write t k v

/-- Every address of the list is above k. -/
def Memory.above (k : Nat) : List Host.Cell → Bool
  | [] => true
  | (a, _) :: t => decide (k < a) && Memory.above k t

/-- The canonical form. -/
def Memory.wf : List Host.Cell → Bool
  | [] => true
  | (a, v) :: t => v != Memory.empty && Memory.above a t && Memory.wf t

end Sys2Proof.Machine
end

