-- ==== Sys2Proof/Machine/Store.lean ====
section
/-!
DEFINITION. Where copies lie (R267 to R272, R297 to R299, R317), how they are read and written, popularity (R273, R274), and what
an access leaves on the channel (R281, R282, R301, R308).
-/

namespace Sys2Proof.Machine

/-! ## Geometry (R267, R297, R298) -/

def State.chans (s : State) : Nat := Member.slices s.fuses.member

def State.pinPockets (s : State) : Nat := s.pinUnits * 4096 / s.chans
def State.scratchPockets (s : State) : Nat := s.scratchUnits * 4096 / s.chans

/-- P: pockets of a channel in the cache partition. -/
def State.cachePockets (s : State) : Nat := Member.pockets s.fuses.member - s.pinPockets - s.scratchPockets

/-- The linear address of a byte of a pocket. -/
def State.gsAddr (s : State) (lc pocket byte : Nat) : Nat := (lc * Member.pockets s.fuses.member + pocket) * 4096 + byte

/-- The fold term of R298; the fuel is the number of bits of q. -/
def foldTerm (c : Nat) : Nat → Nat → Nat
  | 0, _ => 0
  | f + 1, x => if x = 0 then 0 else (x % c) ^^^ foldTerm c f (x / c)

/-- The logical channel, pocket and byte of byte o of a partition that begins at pocket `base` (R298). -/
def State.spread (s : State) (base o : Nat) : Nat × Nat × Nat :=
  let c := s.chans
  let g := o / 4096
  let q := g / c
  ((g % c) ^^^ foldTerm c 64 q, base + q, o % 4096)

/-- The address of a byte of the pinned partition. -/
def State.pinAddr (s : State) (o : Nat) : Nat :=
  let p := s.spread 0 o
  s.gsAddr p.1 p.2.1 p.2.2

/-- Read n bytes of the pinned partition. -/
def State.readPin (s : State) (o n : Nat) : Bytes := (List.range n).map fun i => Memory.read s.gs.mem (s.pinAddr (o + i))

/-- Write bytes of the pinned partition. -/
def State.writePin (s : State) (o : Nat) : Bytes → State
  | [] => s
  | b :: t => State.writePin (s.onGs fun g => { g with mem := Memory.write g.mem (s.pinAddr o) b }) (o + 1) t

/-! ## Folded channels (R317) -/

def State.foldedCh (s : State) (ch : Nat) : Bool := s.gs.folded.contains ch

/-- Another channel of ch's group is folded or is being folded, so that ch is one of its donors. -/
def State.donor (s : State) (ch : Nat) : Bool :=
  (s.gs.folded.any fun f => f != ch && f / 8 == ch / 8) ||
  s.gs.copies.any fun c => c.op == 2 && c.lch != ch && c.lch / 8 == ch / 8

/-- k of R317. -/
def State.foldSets (s : State) : Nat := ceilDiv (s.pinPockets + s.scratchPockets) 7

/-- Sets that a channel serves as themselves; a FAILED logical channel holds no pockets (Table 120). -/
def State.setsOf (s : State) (ch : Nat) : Nat :=
  if s.gs.lost.contains ch then 0 else if s.donor ch then s.cachePockets - s.foldSets else s.cachePockets

/-- The channel and set that serve a placement. -/
def State.served (s : State) (ch set : Nat) : Nat × Nat :=
  let c := if s.foldedCh ch then ch ^^^ 1 else ch
  let n := s.setsOf c
  (c, if n ≤ set then set % max 1 n else set)

/-! ## Placement of a row (R267) -/

def State.homeCh (s : State) (k : Key) : Nat := placeHash k % s.chans

def State.setIdx (s : State) (k : Key) : Nat :=
  placeHash k / s.chans * s.cachePockets / 2 ^ (32 - Member.log2C s.fuses.member)

def State.homeGroup (s : State) (k : Key) : Nat := s.homeCh k / 8

/-- The row's set on a channel, as served. -/
def State.setOn (s : State) (ch : Nat) (k : Key) : Nat × Nat := s.served ch (s.setIdx k)

/-- The channel that a twin goes to instead of a FAILED one (Table 120): the next of its own group, or in a CE-8 of its half;
the fuel counts the channels of a group. -/
def State.stepTwin (s : State) : Nat → Nat → Nat
  | 0, f => f
  | n + 1, f =>
    let h := if s.fuses.member = .ce8 then 4 else 8
    if s.gs.lost.contains f then State.stepTwin s n (h * (f / h) + (f + 1) % h) else f

/-- The twin's channel (R268), as served. The step past FAILED channels of R420 is taken before the channel is served on another for a FOLD
(R317): where the channel that serves it is FAILED, the twin stays there. The spec orders neither before the other (DESIGN CHOICE; log
entry 46). -/
def State.twinCh (s : State) (ch : Nat) : Nat := (s.served (s.stepTwin 8 ((ch + s.chans / 2) % s.chans)) 0).1

/-! ## Ways -/

/-- Ways of one set, by rising way number. -/
def State.waysIn (s : State) (ch set : Nat) : List Way := s.ch.ways.filter fun w => w.ch == ch && w.set == set

/-- Copies of a row of a version, ghosts and ways that are to be freed apart. -/
def State.copiesOf (s : State) (k : Key) (ver : Nat) : List Way :=
  s.ch.ways.filter fun w => w.key == k && w.ver == ver && w.kind != .ghost && w.leaving == 0

def Way.live (w : Way) : Bool := w.kind != .ghost

def State.masterWay (s : State) (k : Key) (ver : Nat) : Option Way := (s.copiesOf k ver).find? fun w => w.kind == .master

def State.redir (s : State) (k : Key) (ver : Nat) : Option Redir := s.ch.redir.find? fun r => r.key == k && r.ver == ver

/-- The channel that holds replica 0 of a row (R271, R285). -/
def State.rowCh (s : State) (k : Key) (ver : Nat) : Nat :=
  match s.redir k ver with
  | some r => match r.kind with
    | .migrated t => t
    | .replicated h _ => h
  | none => s.homeCh k

def State.setWays (s : State) (ws : List Way) : State := s.onCh fun c => { c with ways := ws }

/-- Ways are listed by channel, set and way number. -/
def Way.le (a b : Way) : Bool := decide ((a.ch * 65536 + a.set) * 16 + a.way ≤ (b.ch * 65536 + b.set) * 16 + b.way)

/-- Put a way in its place, taking away what stood there. -/
def State.putWay (s : State) (w : Way) : State :=
  s.setWays (insSorted Way.le w (s.ch.ways.filter fun x => !(x.ch == w.ch && x.set == w.set && x.way == w.way)))

def State.dropWay (s : State) (w : Way) : State :=
  s.setWays (s.ch.ways.filter fun x => !(x.ch == w.ch && x.set == w.set && x.way == w.way))

/-- Free a way: at once, or, where bobbins still read its slot, once they have their data (R284, R287). -/
def State.freeWay (s : State) (w : Way) : State :=
  if w.readers = 0 then s.dropWay w else s.putWay { w with leaving := 1, dirty := false, dn := false }

def State.onWays (s : State) (p : Way → Bool) (f : Way → Way) : State :=
  s.setWays (s.ch.ways.map fun w => if p w then f w else w)

/-! ## Slots (R269) -/

/-- Data areas that a slot of this size spans. -/
def spanOf (size : Nat) : Nat := ceilDiv size 3840

/-- The address of byte j of a way's slot: data areas lie after the head line of their pockets. -/
def State.slotAddr (s : State) (w : Way) (j : Nat) : Nat :=
  let base := s.pinPockets + s.scratchPockets
  if w.size ≤ 3840 then s.gsAddr w.ch (base + w.pocket) (256 + w.slot * w.size + j)
  else s.gsAddr w.ch (base + w.pocket + j / 3840) (256 + j % 3840)

def State.readSlot (s : State) (w : Way) (n : Nat) : Bytes := (List.range n).map fun j => Memory.read s.gs.mem (s.slotAddr w j)

def State.writeSlotAt (s : State) (w : Way) (j : Nat) : Bytes → State
  | [] => s
  | b :: t => State.writeSlotAt (s.onGs fun g => { g with mem := Memory.write g.mem (s.slotAddr w j) b }) w (j + 1) t

/-! ## Accesses (R281, R282, R299, R301, R308) -/

/-- The bank, counted over the tiers, and the bank line of line i of a pocket (R299). -/
def State.bankLine (s : State) (pocket i : Nat) : Nat × Nat :=
  let t := Member.tiers s.fuses.member
  ((pocket / 30 % t) * 30 + pocket % 30, 16 * (pocket / (30 * t)) + i)

/-- Donor number i of folded channel f: the other channels of its group, ascending. -/
def donorCh (f i : Nat) : Nat := if f / 8 * 8 + i < f then f / 8 * 8 + i else f / 8 * 8 + i + 1

/-- The donor, and its pocket, to which FOLD copies a pinned or scratch pocket of f (R317). -/
def State.donorPlace (s : State) (f pocket : Nat) : Nat × Nat :=
  (donorCh f (pocket % 7), s.pinPockets + s.scratchPockets + (s.cachePockets - s.foldSets) + pocket / 7)

/-- The channel and pocket that serve a pocket of a logical channel: a folded channel's pinned and scratch pockets lie on its donors,
its cache pockets on f XOR 1 (R317). -/
def State.pocketAt (s : State) (ch pocket : Nat) : Nat × Nat :=
  if !(s.foldedCh ch) then (ch, pocket)
  else if pocket < s.pinPockets + s.scratchPockets then s.donorPlace ch pocket
  else (ch ^^^ 1, pocket)

def State.clockOf (s : State) (ch : Nat) : Nat := (mgetD s.gs.scheds ch {}).clock

/-- Queue a request at a bank of a channel; of a bank marked lost a read is answered as a detected error, and a write is discarded
(R302). -/
def State.askRaw (s : State) (ch bank line : Nat) (write bobbin : Bool) : State :=
  if s.gs.lostBanks.contains (ch * 256 + bank) then s.countN Ctr.parGs (b2n !write)
  else s.onGs fun g =>
    { g with queues := g.queues ++ [{ ch := ch, bank := bank, line := line, write := write, born := s.clockOf ch, bobbin := bobbin }] }

/-! ## Copies of a channel (R315, R317, R318, R320) -/

/-- The pocket and line in which a request's bank line lies (R299). -/
def State.reqPocket (s : State) (bank line : Nat) : Nat × Nat :=
  (30 * (Member.tiers s.fuses.member * (line / 16) + bank / 30) + bank % 30, line % 16)

/-- The pocket of folded channel f that a donor's pocket holds, if it holds one (R317). -/
def State.heldPocket (s : State) (f ch pocket : Nat) : Option Nat :=
  let base := s.pinPockets + s.scratchPockets + (s.cachePockets - s.foldSets)
  if ch = f || ch / 8 ≠ f / 8 || pocket < base then none
  else some ((pocket - base) * 7 + (if ch < f then ch % 8 else ch % 8 - 1))

/-- The line of f, in pocket order, that a bank line of a channel holds while a copy of f runs: f's own under REPLACE and FOLD, a donor's under
UNFOLD. -/
def State.copiedLine (s : State) (c : ChCopy) (ch bank line : Nat) : Option Nat :=
  let p := s.reqPocket bank line
  if c.op = 3 then (s.heldPocket c.lch ch p.1).map fun i => 16 * i + p.2
  else if ch = c.lch then some (16 * p.1 + p.2) else none

/-- Lines that a copy of a whole channel, or of its pinned and scratch pockets, moves. -/
def State.copyLines (s : State) (op : Nat) : Nat :=
  16 * (if op = 1 then Member.pockets s.fuses.member else s.pinPockets + s.scratchPockets)

/-- Line x of f is written to where a copy takes it: a donor's bank under FOLD, else the channel in COPY_IN, which serves nothing yet. -/
def State.writeTo (s : State) (c : ChCopy) (x : Nat) : State :=
  if c.op = 2 then
    let q := s.donorPlace c.lch (x / 16)
    let b := s.bankLine q.2 (x % 16)
    s.askRaw q.1 b.1 b.2 true false
  else s.count Ctr.gsLinesWritten

/-- A write behind the pointer of a copy goes to both places (R315, R317, R320). -/
def State.dualWrite (s : State) (ch bank line : Nat) : State :=
  State.forEach (fun s (c : ChCopy) =>
    match s.copiedLine c ch bank line with
    | some x => if c.readable && decide (x < min c.done (s.copyLines c.op)) then s.writeTo c x else s
    | none => s) s.gs.copies s

/-- Queue a request at a bank; a write to a line that a copy has passed goes to its new place as well. -/
def State.askBank (s : State) (ch bank line : Nat) (write bobbin : Bool) : State :=
  let s1 := s.askRaw ch bank line write bobbin
  if write then s1.dualWrite ch bank line else s1

/-- Queue a request for line i of a pocket. -/
def State.ask (s : State) (ch pocket i : Nat) (write bobbin : Bool) : State :=
  let p := s.pocketAt ch pocket
  let b := s.bankLine p.2 i
  s.askBank p.1 b.1 b.2 write bobbin

/-- A pocket lies in a bank marked lost. -/
def State.lostPocket (s : State) (ch pocket : Nat) : Bool :=
  let p := s.pocketAt ch pocket
  s.gs.lostBanks.contains (p.1 * 256 + (s.bankLine p.2 0).1)

/-- The 8-byte words of line i that bytes [a, b) of a pocket cover, as a mask. -/
def lineMask (a b i : Nat) : BitVec 32 :=
  BitVec.ofNat 32 (sumBy (fun j => if a ≤ 256 * i + 8 * j ∧ 256 * i + 8 * j + 8 ≤ b then 2 ^ j else 0) (List.range 32))

/-- Retire a partial entry by read-merge-write: the line is read and written in its bank, and the entry is in use until its write has
issued (R309); in a bank marked lost it is free at once (R302). -/
def State.retireWc (s : State) (e : WcEntry) : State :=
  let lost := s.gs.lostBanks.contains (e.ch * 256 + e.bank)
  let s1 := s.onGs fun g => { g with wc := if lost then g.wc.filter (fun x => x != e) else g.wc.map fun x => if x = e then { x with out := true } else x }
  ((s1.askBank e.ch e.bank e.line false false).askBank e.ch e.bank e.line true false).count Ctr.wcRmw

/-- The oldest write-combining entry of a channel that does not retire yet. -/
def State.oldestWc (s : State) (ch : Nat) : Option WcEntry := s.gs.wc.find? fun e => e.ch == ch && !e.out

/-- Write-combining entries of a channel in use. -/
def State.wcUsed (s : State) (ch : Nat) : Nat := (s.gs.wc.filter fun e => e.ch == ch).length

/-- When occupancy reaches 48 entries, the oldest retires (R309). -/
def State.trimWc (s : State) (ch : Nat) : State :=
  if s.wcUsed ch < 48 then s
  else match s.oldestWc ch with
    | some e => s.retireWc e
    | none => s

/-- An entry is for a line. -/
def WcEntry.is (e : WcEntry) (ch bank line : Nat) : Bool := e.ch == ch && e.bank == bank && e.line == line

/-- Put a partial write of a line in the write-combining buffer (R308): it merges into the line's entry, and a mask that becomes full
leaves as a full line (R309); a new line waits for an entry when all 64 are in use. -/
def State.combine (s : State) (ch bank line : Nat) (mask : BitVec 32) : State :=
  match s.gs.wc.find? fun e => e.is ch bank line with
  | some e =>
    let m := e.mask ||| mask
    let s1 := s.count Ctr.wcMerges
    if m = 0xFFFFFFFF#32 then (s1.onGs fun g => { g with wc := g.wc.filter fun x => !(x.is ch bank line) }).askBank ch bank line true false
    else s1.onGs fun g => { g with wc := g.wc.map fun x => if x.is ch bank line then { x with mask := m } else x }
  | none =>
    let e : WcEntry := { ch := ch, bank := bank, line := line, mask := mask, born := s.clockOf ch }
    if 64 ≤ s.wcUsed ch then s.onGs fun g => { g with wcWait := g.wcWait ++ [e] }
    else (s.onGs fun g => { g with wc := g.wc ++ [e] }).trimWc ch

/-- The oldest partial write that waits on a channel takes an entry, where one is free (R308). -/
def State.wcNext (s : State) (ch : Nat) : State :=
  match s.gs.wcWait.find? fun e => e.ch == ch with
  | none => s
  | some e =>
    if 64 ≤ s.wcUsed ch && !(s.gs.wc.any fun x => x.is e.ch e.bank e.line) then s
    else (s.onGs fun g => { g with wcWait := g.wcWait.erase e }).combine e.ch e.bank e.line e.mask

/-- A request has issued: the write of a retiring entry's line frees the entry (R308, R309). -/
def State.wcFree (s : State) (r : Req) : State :=
  (if r.write then s.onGs fun g => { g with wc := g.wc.filter fun e => !(e.out && e.is r.ch r.bank r.line) } else s).wcNext r.ch

/-- Note a write of bytes [a, b) of a pocket: full lines go to the bank queue and free an entry of the line, others combine. -/
def State.noteWrite (s : State) (ch pocket a b : Nat) : State :=
  State.forEach (fun s i =>
    let m := lineMask a b i
    let p := s.pocketAt ch pocket
    let k := s.bankLine p.2 i
    if m = 0 then s
    else if m = 0xFFFFFFFF#32 then
      (s.onGs fun g => { g with wc := g.wc.filter (fun e => !(e.is p.1 k.1 k.2)), wcWait := g.wcWait.filter fun e => !(e.is p.1 k.1 k.2) }).askBank
        p.1 k.1 k.2 true false
    else s.combine p.1 k.1 k.2 m) (List.range 16) s

/-- Note a bobbin's or another reader's read of bytes [a, b) of a pocket, line by line; it answers with the lines read. -/
def State.noteRead (s : State) (ch pocket a b : Nat) (bobbin : Bool) : State :=
  State.forEach (fun s i => if a < 256 * (i + 1) ∧ 256 * i < b then s.ask ch pocket i false bobbin else s) (List.range 16) s

def linesOf (a b : Nat) : Nat := ((List.range 16).filter fun i => a < 256 * (i + 1) ∧ 256 * i < b).length

/-- The parts of a slot, pocket by pocket: pocket, first byte, end. -/
def State.slotParts (s : State) (w : Way) (n : Nat) : List (Nat × Nat × Nat) :=
  let base := s.pinPockets + s.scratchPockets
  if w.size ≤ 3840 then [(base + w.pocket, 256 + w.slot * w.size, 256 + w.slot * w.size + n)]
  else (List.range (spanOf n)).map fun i => (base + w.pocket + i, 256, 256 + min 3840 (n - 3840 * i))

/-- Add lines to a row's tracker entry (R282). -/
def State.track (s : State) (ch : Nat) (k : Key) (ver lines : Nat) : State :=
  let mine := s.ch.tracker.filter fun t => t.ch == ch
  let is := fun (t : Track) => t.ch == ch && t.key == k && t.ver == ver
  s.onCh fun c =>
    if mine.any is then { c with tracker := c.tracker.map fun t => if is t then { t with lines := t.lines + lines } else t }
    else if mine.length < 16 then { c with tracker := c.tracker ++ [{ ch := ch, key := k, ver := ver, lines := lines }] }
    else
      let least := mine.foldl (fun m t => min m t.lines) ((mine.head?.map (·.lines)).getD 0)
      let put := fun (t : Track) => ({ ch := ch, key := k, ver := ver, lines := t.lines + lines } : Track)
      let new := updFirst (fun (t : Track) => t.ch == ch && t.lines == least) put c.tracker
      { c with tracker := new }

/-- A read of a cached copy, by a bobbin or by what else reads it: its lines count for the row (R282). -/
def State.readCopy (s : State) (w : Way) (n : Nat) (bobbin : Bool) : State :=
  let ps := s.slotParts w n
  (State.forEach (fun s (p : Nat × Nat × Nat) => s.noteRead w.ch p.1 p.2.1 p.2.2 bobbin) ps s).track w.ch w.key w.ver
    (sumBy (fun p => linesOf p.2.1 p.2.2) ps)

/-- Write a way's slot. -/
def State.writeSlot (s : State) (w : Way) (b : Bytes) : State :=
  State.forEach (fun s (p : Nat × Nat × Nat) => s.noteWrite w.ch p.1 p.2.1 p.2.2) (s.slotParts w (slotOf b.length)) (s.writeSlotAt w 0 b)

/-- The granules of a run of a partition that begins at pocket `base`: channel, pocket, first byte, end (R298). -/
def State.spreadParts (s : State) (base o n : Nat) : List (Nat × Nat × Nat × Nat) :=
  (List.range (ceilDiv (o % 4096 + n) 4096)).map fun i =>
    let a := if i = 0 then o else (o / 4096 + i) * 4096
    let e := min (o + n) ((o / 4096 + i + 1) * 4096)
    let p := s.spread base a
    (p.1, p.2.1, p.2.2, p.2.2 + (e - a))

/-- The granules of a run of the pinned partition. -/
def State.pinParts (s : State) (o n : Nat) : List (Nat × Nat × Nat × Nat) := s.spreadParts 0 o n

/-- Write a record into the pinned partition. -/
def State.writePinned (s : State) (o : Nat) (b : Bytes) : State :=
  State.forEach (fun s (p : Nat × Nat × Nat × Nat) => s.noteWrite p.1 p.2.1 p.2.2.1 p.2.2.2) (s.pinParts o (slotOf b.length)) (s.writePin o b)

/-- Note a read of the pinned partition. -/
def State.notePinned (s : State) (o n : Nat) (bobbin : Bool) : State :=
  State.forEach (fun s (p : Nat × Nat × Nat × Nat) => s.noteRead p.1 p.2.1 p.2.2.1 p.2.2.2 bobbin) (s.pinParts o n) s

/-! ## The scratch partition (R297, R298)

Its uses take their lines like any other access (R281, R301). Where in its area a thing lies the spec leaves open: the model takes a
granule that a number of the thing gives (log entry 105). -/

/-- The bytes of scratch before an area, and its length: 0 the window area, 1 the spool area, 2 the update area, 3 the reserve. -/
def State.scratchArea (s : State) (area : Nat) : Nat × Nat :=
  let u := [s.winUnits, s.spoolUnits, s.updUnits, s.reserveUnits]
  (((u.take area).foldl (· + ·) 0) * unitBytes, ((u[area]?).getD 0) * unitBytes)

/-- The byte of scratch at which the thing numbered x of an area begins. -/
def State.scratchAt (s : State) (area x : Nat) : Nat :=
  let a := s.scratchArea area
  a.1 + x % max 1 (a.2 / 4096) * 4096

/-- Note an access to n bytes of the thing numbered x of a scratch area. -/
def State.noteScratch (s : State) (area x n : Nat) (write : Bool) : State :=
  State.forEach (fun s (p : Nat × Nat × Nat × Nat) =>
    if write then s.noteWrite p.1 p.2.1 p.2.2.1 p.2.2.2 else s.noteRead p.1 p.2.1 p.2.2.1 p.2.2.2 false)
    (s.spreadParts s.pinPockets (s.scratchAt area x) n) s

/-- Entries of the table cache (R116). -/
def tableCache : Nat := 2048

/-- The table cache holds a table's record, as the one used last; the entry used longest ago gives way (DESIGN CHOICE; log entry 146). -/
def State.cacheTable (s : State) (h : Nat) : State := s.onTb fun x => { x with cache := (h :: x.cache.erase h).take tableCache }

/-- A table's record is looked up (R116): a miss in the table cache reads it from the directory in the reserve of scratch. -/
def State.seeTable (s : State) (h : Nat) : State :=
  (if s.tb.cache.contains h then s else s.noteScratch 3 h 128 false).cacheTable h

/-- A table's record is written to the directory. -/
def State.writeTable (s : State) (h : Nat) : State := (s.noteScratch 3 h 128 true).cacheTable h

/-- Note an access to n bytes of a row's twin, which lies on channel ch (R268). -/
def State.noteTwin (s : State) (k : Key) (ch n : Nat) (write : Bool) : State :=
  State.forEach (fun s i =>
    let p := s.pinPockets + (placeHash k + i) % max 1 s.scratchPockets
    let e := min 4096 (n - 4096 * i)
    if write then s.noteWrite ch p 0 e else s.noteRead ch p 0 e false) (List.range (ceilDiv n 4096)) s

/-! ## Lines that an action moves (R281, R302, R313, R314, R319) -/

/-- How many numbers p with a ≤ p < b leave r over when divided by m. -/
def countMod (m r a b : Nat) : Nat := (b + (m - 1 - r)) / m - (a + (m - 1 - r)) / m

/-- Add the lines that something other than the queues takes on a channel: by bank, how many. -/
def State.addLoad (s : State) (ch : Nat) (l : List (Nat × Nat)) : State :=
  let x := mgetD s.ch.loads ch {}
  let y := l.foldl (fun (y : Load) e => { y with lines := y.lines + e.2, banks := mset y.banks e.1 (mgetD y.banks e.1 0 + e.2) }) x
  s.onCh fun c => { c with loads := mset c.loads ch y }

/-- The lines of pockets [a, b) of a channel, by bank (R299). -/
def State.pocketLines (s : State) (a b : Nat) : List (Nat × Nat) :=
  let m := 30 * Member.tiers s.fuses.member
  (List.range m).filterMap fun r =>
    let n := 16 * countMod m r a b
    if n = 0 then none else some (r, n)

/-! ## Heads (R272) -/

/-- A channel's head is looked up: found among its 512, or read; `changed` marks it. -/
def State.touchHead (s : State) (ch set : Nat) (changed : Bool) : State :=
  let is := fun (h : Nat × Nat × Bool) => h.1 == ch && h.2.1 == set
  let was := (s.ch.heads.find? is).map fun h => h.2.2
  let rest := s.ch.heads.filter fun h => !is h
  let mine := rest.filter fun h => h.1 == ch
  let last := mine.getLast?
  let rest1 := if mine.length ≥ 512 then (match last with
    | some l => rest.filter fun h => h != l
    | none => rest) else rest
  let pocket := s.pinPockets + s.scratchPockets + set
  let s1 := s.onCh fun c => { c with heads := (ch, set, changed || was.getD false) :: rest1 }
  let s2 := match was with
    | some _ => s1.count Ctr.headHit
    | none => (s1.count Ctr.headMiss).noteRead ch pocket 0 256 false
  match last with
  | some l => if mine.length ≥ 512 && l.2.2 then s2.noteWrite ch (s.pinPockets + s.scratchPockets + l.2.1) 0 256 else s2
  | none => s2

/-- The head that a channel has looked up last. -/
def State.lastHead (s : State) (ch : Nat) : Option Nat := (s.ch.heads.find? fun h => h.1 == ch).map fun h => h.2.1

/-- A head is changed in the head cache. The head that the channel has looked up last is in use, and its change takes no look-up of its own;
another is looked up now (R272, R293; log entry 19). -/
def State.markHead (s : State) (ch set : Nat) : State :=
  let is := fun (h : Nat × Nat × Bool) => h.1 == ch && h.2.1 == set
  if s.lastHead ch = some set then s.onCh fun c => { c with heads := (ch, set, true) :: c.heads.filter fun h => !is h }
  else s.touchHead ch set true

/-- A head is read before a slot of its set, where it is not the one that the channel has looked up last (R272). -/
def State.seeHead (s : State) (ch set : Nat) : State := if s.lastHead ch = some set then s else s.touchHead ch set false

/-- A sweep reads the heads of a channel's sets, but for those that `skip` names, which it looks up as it changes them: the heads in the
head cache are found there, each other takes an access (R272, R279, R280, R281; log entry 19). -/
def State.sweepHeads (s : State) (skip : List (Nat × Nat)) (ch : Nat) : State :=
  let n := s.setsOf ch
  if n = 0 || s.foldedCh ch then s
  else
    let held := (s.ch.heads.filter fun h => h.1 == ch && decide (h.2.1 < n)).map fun h => h.2.1
    let out := dedup (held ++ (skip.filter fun x => x.1 == ch).map (·.2))
    let base := s.pinPockets + s.scratchPockets
    let m := 30 * Member.tiers s.fuses.member
    let l := mgetD s.ch.loads ch {}
    let banks := (List.range m).filterMap fun r =>
      let c := mgetD l.banks r 0 + countMod m r base (base + n) - (out.filter fun i => (base + i) % m == r).length
      if c = 0 then none else some (r, c)
    let reads := n - out.length
    (s.onCh fun c => { c with loads := mset c.loads ch { l with lines := l.lines + reads, banks := banks } }).tell
      [.count Ctr.headHit held.length, .count Ctr.headMiss reads, .count Ctr.gsLinesRead reads]

/-! ## Popularity (R273, R274) -/

/-- The four counter keys of a row in its group's sketch. -/
def State.sketchKeys (s : State) (k : Key) : List Nat :=
  let h := placeHash k
  let h2 := placeHash (~~~k)
  let g := s.homeGroup k
  [(g * 4) * 65536 + h % 65536, (g * 4 + 1) * 65536 + h / 65536, (g * 4 + 2) * 65536 + h2 % 65536, (g * 4 + 3) * 65536 + h2 / 65536]

/-- The sketch's estimate: the least of the four counters. -/
def State.estimate (s : State) (k : Key) : Nat :=
  match s.sketchKeys k with
  | [] => 0
  | a :: t => t.foldl (fun m i => min m (mgetD s.ch.sketch i 0)) (mgetD s.ch.sketch a 0)

/-- Add 1 to those of the four counters that equal the least; each sticks at 15. -/
def State.bumpSketch (s : State) (k : Key) : State :=
  let e := s.estimate k
  s.onCh fun c =>
    { c with sketch := (s.sketchKeys k).foldl (fun m i =>
        if mgetD m i 0 = e then mset m i (min 15 (e + 1)) else m) c.sketch }

/-- The way that holds a row's popularity: replica 0, the MASTER way first, then a ghost of the home set. -/
def State.freqWay (s : State) (k : Key) : Option Way :=
  let mine := s.ch.ways.filter fun w => w.key == k && w.repl == 0 && w.leaving == 0
  match mine.find? fun w => w.kind == .master with
  | some w => some w
  | none => match mine.find? fun w => w.kind == .read with
    | some w => some w
    | none => mine.find? fun w => w.kind == .ghost && (w.ch, w.set) == s.setOn (s.homeCh k) k

/-- A row's popularity. -/
def State.popularity (s : State) (k : Key) : Nat :=
  match s.freqWay k with
  | some w => w.freq
  | none => s.estimate k

/-- A fetch by a lookup window or a PREFETCH counts (R273). -/
def State.bump (s : State) (k : Key) : State :=
  let s1 := match s.freqWay k with
    | some w => (s.putWay { w with freq := min 255 (w.freq + 1) }).markHead w.ch w.set
    | none => s
  s1.bumpSketch k

/-! ## Bands (R129) -/

/-- The band that a popularity gives. -/
def bandFor (bs : List Band) (pop : Nat) : Nat := (posOf (fun b => decide (b.thresh ≤ pop)) bs).getD 0

def bandAt (t : Table) (i : Nat) : Band := (t.bands[i]?).getD { thresh := 0, grade := t.grade, direct := false }

/-- Move a row through the bands at an aging period, with hysteresis; the fuel is the number of bands. -/
def bandMove (bs : List Band) (hyst pop : Nat) : Nat → Nat → Nat
  | 0, b => b
  | f + 1, b =>
    match (if b = 0 then none else bs[b - 1]?) with
    | some up => if up.thresh + hyst ≤ pop then bandMove bs hyst pop f (b - 1) else
      (match bs[b]? with
       | some q => if pop < q.thresh - hyst then bandMove bs hyst pop f (b + 1) else b
       | none => b)
    | none => match bs[b]? with
      | some q => if pop < q.thresh - hyst then bandMove bs hyst pop f (b + 1) else b
      | none => b

/-! ## Extents (R128) -/

/-- Records in an extent are master records in an updatable table. -/
def Extent.slot (e : Extent) (t : Table) : Nat := slotOf (t.copyBytes e.grade t.upd)

def Extent.has (e : Extent) (tbl ver row : Nat) : Bool :=
  e.tbl == tbl && e.ver == ver && decide (e.first ≤ row ∧ row < e.first + e.count)

/-- The extent that holds a placed row. -/
def State.placed (s : State) (tbl ver row : Nat) : Option Extent :=
  s.tb.extents.find? fun e => e.has tbl ver row && e.placed.contains row

/-- The extent that covers a row, placed or not. -/
def State.extentOf (s : State) (tbl ver row : Nat) : Option Extent := s.tb.extents.find? fun e => e.has tbl ver row

def Extent.rowOff (e : Extent) (t : Table) (row : Nat) : Nat := e.off + (row - e.first) * e.slot t

def State.onExtent (s : State) (e : Extent) (f : Extent → Extent) : State :=
  s.onTb fun t => { t with extents := t.extents.map fun x => if x.tbl = e.tbl ∧ x.ver = e.ver ∧ x.first = e.first then f x else x }

/-! ## Finding a copy (R130, R271, R286) -/

/-- Where a lookup finds a row. -/
inductive Found where
  | pinned (e : Extent)
  | way (w : Way)
  | backing
  deriving DecidableEq, Repr

/-- The way that a lookup reads on a channel: a READ way, else the MASTER way. -/
def State.wayOn (s : State) (ch : Nat) (k : Key) (ver : Nat) : Option Way :=
  let c := s.setOn ch k
  let mine := (s.waysIn c.1 c.2).filter fun w => w.key == k && w.ver == ver && w.leaving == 0
  match mine.find? fun w => w.kind == .read with
  | some w => some w
  | none => mine.find? fun w => w.kind == .master

/-- A bobbin waits on a channel. -/
def Wait.usesCh (ch : Nat) : Wait → Bool
  | .bank l => l.any fun b => b.1 == ch
  | _ => false

/-- Bobbins that wait on a resource. -/
def State.waitingOn (s : State) (p : Wait → Bool) : Nat := sumBy (fun (w : PWin) => (w.asked.filter fun a => p a.on).length) s.sp.pwins

/-- The replica whose channel has the fewest outstanding bobbins, the lowest k among equals (R286). -/
def State.replicaOf (s : State) (k : Key) (ver h n : Nat) : Option Way :=
  let cand := (List.range n).filterMap fun i => s.wayOn ((h + 8 * i) % s.chans) k ver
  let load := fun (w : Way) => s.waitingOn fun x => x.usesCh w.ch
  cand.foldl (fun best w => match best with
    | none => some w
    | some b => if load w < load b then some w else some b) none

/-- Find the copy of a row of a version. -/
def State.find (s : State) (k : Key) (ver : Nat) : Found :=
  match s.placed (keyTbl k) ver (keyRow k) with
  | some e => .pinned e
  | none =>
    let w := match s.redir k ver with
      | some r => match r.kind with
        | .migrated t => s.wayOn t k ver
        | .replicated h n => s.replicaOf k ver h n
      | none => s.wayOn (s.homeCh k) k ver
    match w with
    | some x => .way x
    | none => .backing

/-- A row has a copy in Ground store. -/
def State.inStore (s : State) (k : Key) (ver : Nat) : Bool :=
  match s.find k ver with
  | .backing => false
  | _ => true

/-- The master record's bytes, where one is in Ground store. -/
def State.masterBytes (s : State) (t : Table) (k : Key) (ver : Nat) : Option Bytes :=
  match s.placed (keyTbl k) ver (keyRow k) with
  | some e => some (s.readPin (e.rowOff t (keyRow k)) t.srcBytes)
  | none => (s.masterWay k ver).map fun w => s.readSlot w t.srcBytes

/-- The channel on which a row's master record lies, placed or cached; its home channel where there is none. -/
def State.masterCh (s : State) (t : Table) (k : Key) (ver : Nat) : Nat :=
  match s.placed (keyTbl k) ver (keyRow k) with
  | some e => (s.spread 0 (e.rowOff t (keyRow k))).1
  | none => ((s.masterWay k ver).map (·.ch)).getD (s.homeCh k)

/-- The owning pipe of a row: its master record's channel group, else the group that its placement hash gives (R234). -/
def State.pipeOf (s : State) (k : Key) (ver : Nat) : Nat :=
  match s.table (keyTbl k) with
  | some t => s.masterCh t k ver / 8
  | none => s.homeGroup k

/-- Note the read of a row's master record where it lies, its head before it (R272, R281, R282). -/
def State.noteMaster (s : State) (t : Table) (k : Key) (ver : Nat) : State :=
  match s.placed (keyTbl k) ver (keyRow k) with
  | some e => s.notePinned (e.rowOff t (keyRow k)) t.srcBytes false
  | none => match s.masterWay k ver with
    | some w => (s.touchHead w.ch w.set false).readCopy w t.srcBytes false
    | none => s

/-- A master record is dirty. -/
def State.isDirty (s : State) (k : Key) (ver : Nat) : Bool :=
  match s.placed (keyTbl k) ver (keyRow k) with
  | some e => e.dirty.contains (keyRow k)
  | none => (s.masterWay k ver).any (·.dirty)

/-- The backing address of a row: an IOVA on tier 1, block × 4,096 plus byte on tier 2 (R123). -/
def Table.rowAddr (t : Table) (v : Version) (row : Nat) : Nat :=
  if t.backTier = 2 then (t.rowBlock v.base row).1 * 4096 + (t.rowBlock v.base row).2 else v.base + row * t.bstride

end Sys2Proof.Machine
end

