-- ==== Sys2Proof/Machine/FrontEnd.lean ====
section
/-!
DEFINITION. The queue front end: turns, descriptor reads, reservations, records (R46, R52 to R58, R67 to R75, R452), and the
descriptors that the front end itself carries out: NOP, MARKER, FENCE, WAIT (R83, R84).
-/

namespace Sys2Proof.Machine

/-! ## Turns (R452) -/

/-- Descriptors that the queued descriptor store holds, those in the park and those that wait for their command among them, or that a read in
flight will bring (R15). -/
def State.queuedNow (s : State) : Nat :=
  (s.fe.descs.filter fun d => d.stage == .queued || d.stage == .headWait || d.stage == .parked || d.stage == .ready).length + sumBy (fun (e : Nat × Ring) => e.2.turn) s.fe.rings

/-- The slots that a ring's turn reads: WEIGHT × 64 bytes, as far as the ring has them (R452). -/
def turnSlots (r : Ring) : Nat := min (max 1 r.weight) (Ring.ahead r)

/-- A ring may take a turn: the 2,048 queued descriptors leave room for it (R15), it is ACTIVE with slots to read, no read in
flight, no descriptor of it is held at its head or waits for the bulk mover (R326), the power state lets descriptors pass, a near ring has a
fabric port in service (R21), and a host ring can be translated (R107). -/
def State.mayTurn (s : State) (k : Nat) : Bool :=
  let r := s.ring k
  decide (s.queuedNow + turnSlots r ≤ 2048) && s.passing && r.state == .active && r.turn == 0 && r.pub != r.idx &&
    (Ring.isHost r || s.fabAny) && !(s.drvFails (3 + k)) &&
    !((s.ringDescs k).any fun d => d.stage == .queued || d.stage == .headWait || s.bulkWaits d)

/-- Split n slots from index i into reads of at most 512 bytes that do not wrap; the fuel is n. -/
def readsOf (size : Nat) : Nat → Nat → Nat → List (Nat × Nat)
  | 0, _, _ => []
  | f + 1, i, n =>
    if n = 0 then []
    else
      let m := min n (min 8 (size - i % size))
      (i, m) :: readsOf size f (i + m) (n - m)

/-- The message that reads `n` slots of ring k from index i: over the fabric for a near ring, else on the home port (R66, R76). -/
def State.readOut (s : State) (k i n : Nat) : Output :=
  let r := s.ring k
  .descRead k (BitVec.ofNat 32 i) n (r.base + 64 * (i % Ring.size r)) (if Ring.isHost r then s.drvRoute r.home else .fabric 0)

/-- Read `n` slots of ring k from index i. -/
def State.readSlots (s : State) (k i n : Nat) : State :=
  let os := (readsOf (Ring.size (s.ring k)) n i n).map fun q => s.readOut k q.1 q.2
  if Ring.isHost (s.ring k) then s.sendAll os else s.fabSendAll os

/-- RING_TURN (R63, R452): the first announced ring that may turn reads up to WEIGHT × 64 bytes. -/
def State.ringTurn (s : State) (k : Nat) : State :=
  if (s.fe.announced.find? fun j => s.mayTurn j) = some k then
    let r := s.ring k
    let n := turnSlots r
    let s1 := (s.setRing k { r with turn := n }).onFe fun f => { f with announced := f.announced.erase k }
    s1.readSlots k r.idx.toNat n
  else s

/-- RING_TURN. -/
def execRingTurn (ring : Nat) (s : State) : Host.Outcome State Fault Refusal := .next (s.ringTurn ring)

/-! ## Queuing one descriptor -/

/-- Release the kept lists that an older descriptor with this SEQ left (R164), whether a scatter uses them or not (log entry 35). -/
def State.keptWrap (s : State) (k : Nat) (q : BitVec 32) : State :=
  let p := fun (x : Kept) => x.ring == k && x.seq == q
  if s.sp.kept.any p then (s.dropKept p).countN Ctr.keptWrap (s.sp.kept.filter p).length else s

/-- A LISTS-form scatter claims the kept lists that it names (R236). -/
def State.claimLists (s : State) (d : Desc) : State :=
  if d.opc != 3 || d.rowsForm then s
  else
    let named := fun (k : Kept) => k.ring == d.lring && k.seq == d.lseq && k.claimed.isNone
    s.onSp fun x => { x with kept := updFirst named (fun k => { k with claimed := some d.id }) x.kept }

/-- A live version that has not begun to retire: a table operation that names it binds it as it is queued (R136). -/
def State.bindable (s : State) (tbl ver : Nat) : Bool :=
  (s.table tbl).any fun t => t.versions.any fun v => v.ver == ver && !v.begun

/-- What a descriptor that passed its checks takes as it is queued: a free named tile (R196), kept lists (R236), the version a
table operation names (R136), the active rescale bank for a gather that takes no sorter (R215); then its ranges (R98). -/
def State.takeOn (s : State) (d : Desc) : State :=
  let s1 := if d.opc = 1 && d.tile != 0 && (mget s.sp.tiles d.tile).isNone then
      s.onSp fun x => { x with tiles := mset x.tiles d.tile { owner := d.ring } }
    else s
  let s2 := s1.claimLists d
  let d1 := if d.opc = 0x10 || d.opc = 0x11 || d.opc = 0x12 || d.opc = 0x13 then
      { d with binds := [(d.tbl, d.verField)], ver := if s.bindable d.tbl d.verField then d.verField else 0 }
    else if d.bindsQueued then { d with bank := s.qz.active, bound := true }
    else d
  s2.onFe fun f => { f with descs := f.descs ++ [{ d1 with ranges := d1.namedRanges s2 }] }

/-- A descriptor whose checks look its table up. -/
def Desc.looksUp (d : Desc) : Bool :=
  d.opc == 1 || d.opc == 2 || (d.opc == 3 && d.rowsForm) || d.opc == 4 || (decide (0x10 ≤ d.opc) && decide (d.opc ≤ 0x13)) ||
    (d.opc == 0x18 && d.mode == 1) || (d.opc == 0x19 && decide (2 ≤ d.mode))

/-- Queue one descriptor read from ring k; `last` says it is a picot that begins in the ring's last slot (R55, R57, R71). -/
def State.queueOne (s : State) (k : Nat) (raw ext : Bytes) (last : Bool) : State :=
  let r := s.ring k
  let d0 : Desc := { id := s.fe.nextId, ring := k, raw := raw, ext := ext }
  let d := { d0 with ties := s.ctxTies d0.ctx, clsS := s.ctxS d0.ctx }
  let s1 := s.onFe fun f => { f with nextId := f.nextId + 1 }
  let fail := fun (s : State) (st : BitVec 8) (det : Nat) =>
    s.onFe fun f => { f with descs := f.descs ++ [{ d with status := st, detail := det }] }
  if d.seq ≠ r.nextSeq then
    fail (((s1.setRing k { r with state := .error, errSeq := d.seq, errStatus := St.seqMismatch }).onFe
      fun f => { f with announced := f.announced.erase k }).fitRing k) St.seqMismatch 0
  else
    let s0 := (s1.setRing k { r with nextSeq := r.nextSeq + 1 }).keptWrap k d.seq
    let s2 := if d.looksUp && !last then s0.seeTable d.tbl else s0
    -- one that fails a check holds the lists it names to its completion, which releases them (R164)
    if last then fail (s2.claimLists d) St.badFormat (if d.opc = 3 || d.isBulk then 1 else 0)
    else match Desc.queueCheck s2 d r.ctx with
      | some (st, det) =>
        fail (s2.claimLists d) st det
      | none => s2.takeOn d

/-! ## DESCRIPTOR_READ_RETURN -/

/-- FLG.PICOT of a slot as read. -/
def slotPicot (x : Slot) : Bool := field x.raw 1 1 % 2 == 1

/-- The next slot of ring k as read (R55, R452): the second slot of a picot whose first one has been read, the first slot of one whose
second slot is published, or a descriptor of one slot. A picot that begins in the ring's last slot takes only that one. -/
def State.takeRead (s : State) (k : Nat) (x : Slot) : State :=
  let r := s.ring k
  let last := r.idx.toNat % Ring.size r == Ring.size r - 1
  if r.state ≠ .active || Ring.ahead r = 0 then s
  else match r.half with
    | some h => ((s.setRing k { r with half := none }).queueOne k (h.1 ++ slice x.raw 0 64) h.2 false).consume k 2
    | none =>
      if slotPicot x && !last then
        (if Ring.ahead r < 2 then s else s.setRing k { r with half := some (slice x.raw 0 64, x.ext) })
      else (s.queueOne k (slice x.raw 0 64) x.ext (slotPicot x && last)).consume k 1

/-- The turn of ring k ends, unless it has read the first slot of a picot: then it reads the second one too (R452). -/
def State.endTurn (s : State) (k : Nat) : State :=
  let r := s.ring k
  if r.half.isSome && r.state == .active then
    (s.setRing k { r with turn := 1, turnAt := [] }).readSlots k (r.idx.toNat + 1) 1
  else (s.setRing k (Ring.noTurn r)).announce k

/-- The inbound response credits of a near ring's reads are granted again (R23). -/
def State.grantReads (s : State) (k : Nat) : State :=
  s.sendAll ((s.ring k).turnAt.map fun p => .credit p true 1)

/-- DESCRIPTOR_READ_RETURN (R46, R52 to R58, R71): the turn's read returns. -/
def State.readReturn (s : State) (k : Nat) (slots : List Slot) : State :=
  let r := s.ring k
  if r.turn = 0 then s
  else
    let s1 := State.forEach (fun s x => s.takeRead k x) (slots.take r.turn) (s.grantReads k)
    ((s1.endTurn k).reserveAll r.cplRing).fabSettle

/-! ## COMPLETION_RESERVE -/

/-- COMPLETION_RESERVE (R71, R450): the descriptors that wait for space of a completion ring reserve it, in ring order. -/
def execCompletionReserve (cpl : Nat) (s : State) : Host.Outcome State Fault Refusal :=
  .next (if Ring.isCpl (s.ring cpl) then s.reserveAll cpl else s)

/-! ## COMPLETION_RECORD_WRITE -/

/-- Fabric result writes of a descriptor still wait for a credit, so that they cannot have been acknowledged (R77). -/
def State.writesWait (s : State) (d : Desc) : Bool :=
  s.pw.fabOut.any fun o => match o with
    | .result id _ _ _ _ => id == d.id
    | _ => false

/-- COMPLETION_RECORD_WRITE (R67 to R82): a finished descriptor's record is written, or held while its completion ring's port is
lost (R85). -/
def State.recordWrite (s : State) (id : Nat) : State :=
  match s.desc id with
  | none => s
  | some d =>
    if d.stage ≠ .finished || !(s.recordTurn d) || s.writesWait d || s.drvFails (3 + (s.ring d.ring).cplRing) then s
    else if s.cplLive (s.ring d.ring).cplRing then s.finishRecord d
    else s.setDesc { d with stage := .heldRec }

/-! ## MOD_TIME_EXPIRY -/

/-- MOD_TIME_EXPIRY (R75): the oldest unsignalled record of a host completion ring has waited MOD_TIME. -/
def State.modTime (s : State) (k : Nat) : State :=
  let r := s.ring k
  if r.typ = .hostCpl && r.irqEn && r.modTime != 0 && r.unsig != 0 && s.cplLive k then s.irq k else s

/-- MOD_TIME_EXPIRY. -/
def execModTimeExpiry (ring : Nat) (s : State) : Host.Outcome State Fault Refusal := .next (s.modTime ring)

/-! ## NOP and MARKER -/

/-- The command runs a descriptor that is past the front end: its opcode and mode are these, and nothing is awaited for it. -/
def State.readyFor (s : State) (id opc : Nat) (mode : Nat → Bool) : Option Desc :=
  match s.desc id with
  | none => none
  | some d => if d.stage == .ready && d.opc == opc && mode d.mode && !(s.asking d) then some d else none

/-- NOP completes with OK (R58). -/
def execNop (id : Nat) (s : State) : Host.Outcome State Fault Refusal :=
  .next (match s.readyFor id 0x00 fun _ => true with
    | none => s
    | some d => s.endOk d.id 0)

/-- The first word of a trace point: TS in [47:0], the identifier in [63:48] (R385). -/
def traceHead (ts : BitVec 48) (id : BitVec 16) : Word64 := id ++ ts

/-- MARKER's trace point: emitted while its group's bit in CRH_TRACE_EN is 1, and logged with TRACE_TO_LOG (R385). A record that the
collector cannot take is dropped and counted (R35). -/
def State.markerPoint (s : State) (d : Desc) (taken : Bool) : State :=
  let code := Sys2Proof.Config.logCode 2
  if bitb (s.cfg Reg.traceEn) (code.toNat / 1024) then
    let s1 := if taken then s.send (.trace (traceHead s.tel.ts code) (Sys2Proof.Config.markerArg d.ring d.seq (BitVec.ofNat 32 d.count))) else s.count Ctr.traceDropped
    if bitb s.tel.logCtl 8 then
      s1.tell [.log (Sys2Proof.Config.eventCore 0).toNat 0 0 code
        (leBytes 4 d.ring ++ leBytes 4 d.seq.toNat ++ leBytes 4 d.count ++ List.replicate 36 0)]
    else s1
  else s

/-- MARKER completes with OK and emits a trace point (R58). -/
def execMarker (id : Traced) (s : State) : Host.Outcome State Fault Refusal :=
  .next (match s.readyFor id.id 0x32 fun _ => true with
    | none => s
    | some d => (s.markerPoint d id.taken).endOk d.id 0)

/-! ## FENCE (R83) -/

/-- A FENCE's condition: every earlier descriptor of its ring has completed and its record has been written. -/
def State.fenceOpen (s : State) (d : Desc) : Bool := !((s.ringDescs d.ring).any fun e => decide (e.id < d.id))

/-- A waiting descriptor of an opcode and mode. -/
def State.waitingFor (s : State) (id opc : Nat) (mode : Nat → Bool) : Option Desc :=
  match s.desc id with
  | none => none
  | some d => if d.stage == .waiting && d.opc == opc && mode d.mode then some d else none

/-- FENCE with MODE ORDER. -/
def execFenceOrder (id : Nat) (s : State) : Host.Outcome State Fault Refusal :=
  .next (match s.waitingFor id 0x30 (· == 0) with
    | none => s
    | some d => if s.fenceOpen d then s.endWait id St.ok else s)

/-- FENCE with MODE VISIBLE: the results are also visible on every path (R83). -/
def execFenceVisible (id : Nat) (s : State) : Host.Outcome State Fault Refusal :=
  .next (match s.waitingFor id 0x30 (· == 1) with
    | none => s
    | some d => if s.fenceOpen d then (s.onRing d.ring fun r => { r with unseen := 0 }).endWait id St.ok else s)

/-! ## WAIT (R84) -/

/-- WAIT completes with OK once the target ring's DONE_SEQ has reached the named SEQ. -/
def execWait (id : Nat) (s : State) : Host.Outcome State Fault Refusal :=
  .next (match s.waitingFor id 0x31 fun _ => true with
    | none => s
    | some d => if seqReached (s.ring d.waitRing).doneSeq d.waitSeq then s.endWait id St.ok else s)

/-- WAIT's timeout in COUNT passes before its condition holds. -/
def execWaitTimeout (id : Nat) (s : State) : Host.Outcome State Fault Refusal :=
  .next (match s.waitingFor id 0x31 fun _ => true with
    | none => s
    | some d =>
      if seqReached (s.ring d.waitRing).doneSeq d.waitSeq then s.endWait id St.ok
      else if d.count = 0 then s else s.endWait id St.waitTimeout)

end Sys2Proof.Machine
end

