-- ==== Sys2Proof/Machine/Nvme.lean ====
section
/-!
DEFINITION. The commands that go to the drives: namespaces and drives (R331), command slots (R332), submission (R333, R335), landing blocks
(R334), and commands that begin and end within one step (R336).
-/

namespace Sys2Proof.Machine

/-! ## Drives and namespaces (R331) -/

def State.drive (s : State) (d : Nat) : Drive := mgetD s.fl.drives d {}

def State.onDrive (s : State) (d : Nat) (f : Drive → Drive) : State :=
  s.onFl fun x => { x with drives := mset x.drives d (f (mgetD x.drives d {})) }

/-- An attached drive owns its slots. -/
def Drive.attached (d : Drive) : Bool := d.state == .ready || d.state == .resetting

/-- The drive of a block namespace. -/
def State.driveOf (s : State) (nsid : Nat) : Nat := ((mget s.fl.nss nsid).map (·.drive)).getD 0

/-- A block namespace that its drive holds, and the drive is READY. -/
def State.nsReady (s : State) (i : Nat) : Bool :=
  match mget s.fl.nss i with
  | some n => match mget s.fl.drives n.drive with
    | some d => n.valid && d.state == .ready && d.nss.contains i
    | none => false
  | none => false

/-- The drive of a namespace reports a volatile write cache (R335). -/
def State.volatile (s : State) (nsid : Nat) : Bool := (s.drive (s.driveOf nsid)).vwc

/-! ## Slots (R332, R340) -/

/-- CRH_FL_DRV_CFG of a drive. -/
def State.drvCfgOf (s : State) (d : Nat) : Word64 := mgetD s.drvCfg d (regReset s.fuses.member Reg.flDrvCfg)

def State.drvRsv (s : State) (d : Nat) : Nat := bitf (s.drvCfgOf d) 0 16

/-- CAP below RSV acts as RSV. -/
def State.drvCap (s : State) (d : Nat) : Nat := max (s.drvRsv d) (bitf (s.drvCfgOf d) 16 16)

/-- The slots that the attached drives own. -/
def State.rsvSum (s : State) : Nat := sumBy (fun e => if Drive.attached e.2 then s.drvRsv e.1 else 0) s.fl.drives

/-- Slots of the shared pool that are held. -/
def State.poolUsed (s : State) : Nat := sumBy (fun e => e.2.used - s.drvRsv e.1) s.fl.drives

/-- A slot for one more command of a drive. -/
def State.slotFree (s : State) (d : Nat) : Bool :=
  let u := (s.drive d).used
  decide (u < s.drvRsv d) ||
    (decide (u < s.drvCap d) && decide (s.poolUsed + s.rsvSum < Member.nvmeSlots s.fuses.member))

/-- CRH_FL_CTL.RETRY. -/
def State.flRetry (s : State) : Nat := bitf (s.cfg Reg.flCtl) 16 4

/-! ## Landing blocks in scratch (R233, R333, R334) -/

/-- The number of a landing block (log entry 105). -/
def landNo (ns lba : Nat) : Nat := placeHash (BitVec.ofNat 64 (ns * 2 ^ 48 + lba))

/-- Note an access to bytes [a, b) of a landing block. -/
def State.noteLand (s : State) (ns lba a b : Nat) (write bobbin : Bool) : State :=
  State.forEach (fun s (p : Nat × Nat × Nat × Nat) =>
    if write then s.noteWrite p.1 p.2.1 p.2.2.1 p.2.2.2 else s.noteRead p.1 p.2.1 p.2.2.1 p.2.2.2 bobbin)
    (s.spreadParts s.pinPockets (s.scratchAt 3 (landNo ns lba) + a) (b - a)) s

/-- A command's PRP list: the bytes of the scratch partition at which its blocks lie, one entry a block (R32, R333). -/
def State.prpList (s : State) (c : NvCmd) : List Nat := (List.range c.blocks).map fun i => s.scratchAt 3 (landNo c.ns (c.lba + i))

/-- The blocks of a Write are laid in scratch, and the drive reads them from there (Table 11). -/
def State.stageWrite (s : State) (c : NvCmd) : State :=
  State.forEach (fun s i => (s.noteLand c.ns (c.lba + i) 0 4096 true false).noteLand c.ns (c.lba + i) 0 4096 false false) (List.range c.blocks) s

/-! ## Submission (R333) -/

/-- A command joins its drive's queue; it takes a slot as NVME_SLOT_GRANT gives it one (R332). -/
def State.queueCmd (s : State) (c : NvCmd) : State :=
  s.onFl fun f => { f with nextTag := f.nextTag + 1, cmds := f.cmds ++ [{ c with tag := f.nextTag }] }

/-- A command is outstanding for its owner. -/
def State.cmdOut (s : State) (o : CmdFor) : Bool := s.fl.cmds.any fun c => c.own == o

/-- Queue a Flush of a namespace's drive, where that reports a volatile write cache and none is queued for the owner (R335). -/
def State.flushNs (s : State) (nsid : Nat) (o : CmdFor) : State :=
  if s.volatile nsid && !(s.fl.cmds.any fun c => c.own == o && c.kind == 2 && c.drive == s.driveOf nsid) then
    s.queueCmd { drive := s.driveOf nsid, kind := 2, ns := nsid, lba := 0, blocks := 0, rows := [], own := o }
  else s

/-- Place an NVMe command on its drive's queues, round robin (R333). The I/O queues count from 1. -/
def State.sendCmd (s : State) (c : NvCmd) : State :=
  let x := s.drive c.drive
  let n := max 1 x.queues
  (s.onDrive c.drive fun y => { y with nextQ := (y.nextQ + 1) % n }).send
    (.flash c.drive c.tag c.kind c.ns c.lba c.blocks (x.nextQ % n + 1) (s.prpList c))

/-- Submit a command to its drive; a Write with its data. -/
def State.submit (s : State) (c : NvCmd) : State :=
  let s1 := s.sendCmd c
  if c.kind = 1 then (s1.stageWrite c).send (.blockWrite c.drive c.tag c.ns c.lba c.data) else s1

/-- Send an Abort of a command over its drive's admin queue (R336). -/
def State.sendAbort (s : State) (c : NvCmd) : State := s.send (.flash c.drive c.tag 3 c.ns c.lba c.blocks 0 [])

/-- What a command that has succeeded counts. -/
def NvCmd.counts (c : NvCmd) : List TelOp :=
  [.count Ctr.flReads (b2n (c.kind == 0)), .count Ctr.flBlocksRead (if c.kind = 0 then c.blocks else 0),
   .count Ctr.flWrites (b2n (c.kind == 1)), .count Ctr.flBlocksWritten (if c.kind = 1 then c.blocks else 0)]

/-- What a Read or a Write that has failed counts. -/
def NvCmd.failCounts (c : NvCmd) : List TelOp := [.count Ctr.flReadErr (b2n (c.kind == 0)), .count Ctr.flWriteErr (b2n (c.kind == 1))]

/-- A command that begins and ends within one step: it takes its slot and gives it up in it, waiting for one where none is free, and it is
submitted again for each reissue that its outcome cost. One that has timed out keeps its slot until its Abort has completed (R332, R336;
log entry 80). -/
def State.wholeCmd (s : State) (c : NvCmd) (r : Tried) : State :=
  let n := min r.tries s.flRetry
  let c1 : NvCmd := { c with tag := s.fl.nextTag, own := .step, rows := [], issued := true }
  let s0 := (s.onFl fun f => { f with nextTag := f.nextTag + 1 }).countN Ctr.flSlotWait (b2n !(s.slotFree c.drive))
  let s1 := (State.forEach (fun s _ => s.submit c1) (List.range (n + 1)) s0).countN Ctr.flRetries n
  if r.status = St.ok then s1.tell c1.counts
  else if r.status = St.dmaTimeout then
    ((((s1.onFl fun f => { f with cmds := f.cmds ++ [{ c1 with aborting := true }] }).onDrive c.drive fun d =>
      { d with used := d.used + 1 }).sendAbort c1).count Ctr.flTimeout).tell c1.failCounts
  else s1.tell c1.failCounts

/-! ## Landing blocks (R233, R334) -/

/-- The blocks of a row, each with the bytes of it that the row takes (R123). -/
def Table.rowLands (t : Table) (base row : Nat) : List (Nat × Nat × Nat) :=
  let b := t.rowBlock base row
  (List.range t.rowBlocks).map fun i => (b.1 + i, if i = 0 then b.2 else 0, min 4096 (b.2 + t.srcBytes - 4096 * i))

/-- The block of a window in a landing block. -/
def State.landAt (s : State) (wid ns lba : Nat) : Option Landed := s.fl.landed.find? fun e => e.wid == wid && e.ns == ns && e.lba == lba

/-- The namespace and the blocks of a row of a version on tier 2, with the bytes that the row takes of each. -/
def State.landsOf (s : State) (k : Key) (ver : Nat) : Nat × List (Nat × Nat × Nat) :=
  match s.table (keyTbl k) with
  | none => (0, [])
  | some t => match t.ver? ver with
    | none => (0, [])
    | some v => if t.backTier = 2 then (v.nsid, t.rowLands v.base (keyRow k)) else (0, [])

/-- A window's row all of whose blocks have landed. -/
def State.landedRow (s : State) (wid : Nat) (k : Key) (ver : Nat) : Option Bytes :=
  let l := s.landsOf k ver
  let got := l.2.filterMap fun b => (s.landAt wid l.1 b.1).map fun e => slice e.data b.2.1 (b.2.2 - b.2.1)
  if l.2.isEmpty || got.length ≠ l.2.length then none else some got.flatten

/-- Landing blocks that are held: of the Reads that windows have issued, and of the blocks that have landed (R334, Table 88). -/
def State.landingUsed (s : State) : Nat :=
  sumBy (fun (c : NvCmd) => if c.issued && c.kind == 0 then c.blocks else 0) s.fl.cmds + s.fl.landed.length

/-- Landing blocks for a Read: they lie in the reserve (R233, R334). -/
def State.landingFree (s : State) (c : NvCmd) : Bool :=
  c.kind != 0 || decide (s.landingUsed + c.blocks ≤ s.reserveUnits * unitBytes / 4096)

end Sys2Proof.Machine
end

