-- ==== Sys2Proof/Machine/Place.lean ====
section
/-!
DEFINITION. What brings copies into the cache partition and takes them out: write-back (R256, R454, R106, R336), dropping a row
(R280, R287), replacement (R276), slots and reclaim (R269, R277), admission (R275, R278), twins (R268), encoding (R130, R228).
-/

namespace Sys2Proof.Machine

/-- How a command's operand has a row's write-back end. -/
def failOf (fails : WbFails) (k : Key) : Tried := ((fails.find? fun e => e.1 == k).map (·.2)).getD {}

/-! ## Backings (R126, R130, R331) -/

/-- The first CXL host port that is up carries tier-1 row traffic in events (log entry 24). -/
def State.rowPort (s : State) : Nat := if s.cxlUp 0 then 0 else 1

/-- Whether a version's backing can be reached at all: OK, or TIER_UNREACHABLE. -/
def State.backStatus (s : State) (t : Table) (v : Version) : BitVec 8 :=
  if t.backTier = 1 then (if s.cxlUp 0 || s.cxlUp 1 then St.ok else St.tierUnreachable)
  else if t.backTier = 2 then (if s.nsReady v.nsid then St.ok else St.tierUnreachable)
  else St.tierUnreachable

/-- The route of a table's tier-1 row traffic: untranslated, under its context's PASID (R106). -/
def State.rowRoute (s : State) (t : Table) : Route := .host s.rowPort (s.ctxPasid t.ctx) false

/-- Ask a row of its backing: a host-port read on tier 1, an NVMe Read of its blocks on tier 2 (R106, R255, R332). -/
def State.fetchBacking (s : State) (t : Table) (v : Version) (k : Key) (r : Tried) : State :=
  if t.backTier = 2 then
    s.wholeCmd { drive := s.driveOf v.nsid, kind := 0, ns := v.nsid, lba := (t.rowBlock v.base (keyRow k)).1, blocks := t.rowBlocks,
                 rows := [], own := .step } r
  else s.send (.rowRead k v.ver (t.rowAddr v (keyRow k)) (s.rowRoute t))

/-- What a read of a row from its backing gives, with what it counts; `asked` says that a bobbin has asked for it already. One whose data
comes back bad is issued once more, and fails when it does so again (R28, R106, R336, R411). -/
def State.readBacking (s : State) (t : Table) (v : Version) (k : Key) (src : RowSrc) (asked : Bool) : State × RowSrc :=
  let b := s.backStatus t v
  if b ≠ St.ok then (s, { data := [], status := b })
  else
    let s1 := if asked then s else s.fetchBacking t v k { status := src.status, tries := src.tries }
    if src.status = St.ok then (s1, { src with data := slice src.data 0 t.srcBytes })
    else if src.status = St.dataError then
      ((s1.fetchBacking t v k {}).countN Ctr.inboundBad 2, { data := [], status := St.dataError })
    else if t.backTier = 1 then
      if src.status = St.dmaTimeout then (s1, { data := [], status := St.dmaTimeout })
      else (s1.count Ctr.tier1Refused, { data := [], status := St.tierUnreachable })
    else (s1, { data := [], status := src.status })

/-- The status with which a table operation names a row that its backing did not give or take (R143, R144, R250, R453). -/
def backFail (t : Table) (st : BitVec 8) : BitVec 8 :=
  if t.backTier = 2 && st != St.tierUnreachable then St.flashError else St.tierUnreachable

/-! ## Encoding (R130, R209 to R214, R228) -/

/-- The read copy in grade g of a row whose source record is given, with what its encoding counts. -/
def State.encCopy (s : State) (t : Table) (record : Bytes) (g : Grade) : State × Bytes :=
  if g = t.grade then (s, slice record 0 (gradeBytes t.grade t.dim))
  else
    let e := encodeFrom (s.tblTies t) t.grade g t.dim record
    let odd := (g == .fp8 || g == .int8 || g == .int4) && (exactOf t.grade t.dim record).any fun x => match x with
      | .fin _ _ _ => false
      | _ => true
    (s.tell [.count Ctr.encRows 1, .count Ctr.encSat e.2, .count Ctr.encNonfinite (b2n odd)], e.1)

/-! ## Dropping copies (R276, R280, R287) -/

/-- Free the redirect entry of a row of a version. -/
def State.dropRedir (s : State) (k : Key) (ver : Nat) : State :=
  s.onCh fun c => { c with redir := c.redir.filter fun r => !(r.key == k && r.ver == ver) }

/-- A row's replicas beyond replica 0. -/
def State.replicasOf (s : State) (k : Key) (ver : Nat) : List Way := (s.copiesOf k ver).filter fun w => w.repl != 0

/-- Drop some ways; one whose slot a bobbin still reads is freed once that has its data (R284, R287). -/
def State.dropWays (s : State) (l : List Way) : State := State.forEach (fun s w => (s.freeWay w).markHead w.ch w.set) l s

/-- The ghost that a way becomes. -/
def Way.asGhost (w : Way) : Way := { ch := w.ch, set := w.set, way := w.way, key := w.key, ver := 0, freq := w.freq, kind := .ghost }

/-- Leave a ghost in a way that has been dropped, where no other way of the key is left in its set; at once, or when the way is freed. -/
def State.leaveGhost (s : State) (w : Way) : State :=
  if w.readers != 0 then s.putWay { w with leaving := 2, dirty := false, dn := false }
  else if (s.waysIn w.ch w.set).any fun x => x.key == w.key then s
  else s.putWay w.asGhost

/-- The way of replica 0 that holds a copy's popularity in its set: the MASTER way before the READ way. -/
def State.mainWay (s : State) (k : Key) (ver : Nat) : Option Way :=
  let l := (s.copiesOf k ver).filter fun w => w.repl == 0
  match l.find? fun w => w.kind == .master with
  | some w => some w
  | none => l.head?

/-- The regrade that waits for a row is abandoned (R133). -/
def State.dropRegrade (s : State) (p : Regrade → Bool) : State :=
  (s.onTb fun x => { x with regrades := x.regrades.filter fun r => !p r }).countN Ctr.regradeAbandon (s.tb.regrades.filter p).length

/-- Drop every copy of a row of a version, its replicas and its redirect entry (R287); `ghost` keeps its popularity. -/
def State.dropRow (s : State) (k : Key) (ver : Nat) (ghost : Bool) : State :=
  match s.mainWay k ver with
  | none => s
  | some w =>
    let n := (s.replicasOf k ver).length
    let s1 := (((s.dropWays (s.copiesOf k ver)).dropRedir k ver).countN Ctr.replDropped n).dropRegrade fun r => r.key == k && r.ver == ver
    let s2 := s1.onUp fun u =>
      { u with twins := u.twins.filter fun x => !(x.key == k && x.ver == ver)
               wbFailed := u.wbFailed.filter fun x => !(x.1 == k && x.2 == ver) }
    if ghost then s2.leaveGhost w else s2

/-- Drop a row's replicas with k of n or more, n at least 1; with none left, its redirect entry is freed, or names its channel
(R287, R288). -/
def State.dropReplicas (s : State) (k : Key) (ver n : Nat) : State :=
  let l := (s.replicasOf k ver).filter fun w => decide (n ≤ w.repl)
  let s1 := (s.dropWays l).countN Ctr.replDropped l.length
  let fit := fun (r : Redir) =>
    if r.key == k && r.ver == ver then
      (match r.kind with
        | .replicated h m =>
          if n ≤ 1 then (if h = s.homeCh k then none else some { r with kind := RedirKind.migrated h, low := 0 })
          else some { r with kind := RedirKind.replicated h (min m n), low := 0 }
        | .migrated _ => some r)
    else some r
  s1.onCh fun c => { c with redir := c.redir.filterMap fit }

/-! ## Write-back (R256, R257, R454) -/

/-- Set or clear DIRTY of a row's MASTER way; its head changes. -/
def State.setDirty (s : State) (k : Key) (ver : Nat) (on : Bool) : State :=
  match s.masterWay k ver with
  | some w => if w.dirty = on then s else (s.putWay { w with dirty := on }).markHead w.ch w.set
  | none => s

/-- Mark a row's master record clean and release its twin. -/
def State.clean (s : State) (k : Key) (ver : Nat) : State :=
  let s1 := match s.placed (keyTbl k) ver (keyRow k) with
    | some e => s.onExtent e fun x => { x with dirty := x.dirty.filter fun r => r != keyRow k }
    | none => s.setDirty k ver false
  s1.onUp fun u =>
    { u with twins := u.twins.filter fun x => !(x.key == k && x.ver == ver)
             wbFailed := u.wbFailed.filter fun x => !(x.1 == k && x.2 == ver) }

/-- The band in which a row stands: as admission or a regrade has put it, where it is cached, else that of its popularity (R129). A
BANDS that leaves fewer bands puts it in the last. -/
def State.bandOf (s : State) (t : Table) (k : Key) (ver : Nat) : Nat :=
  match s.mainWay k ver with
  | some w => min w.band (t.bands.length - 1)
  | none => bandFor t.bands (s.popularity k)

/-- Put the copies of a row in a band. -/
def State.setBand (s : State) (k : Key) (ver b : Nat) : State :=
  s.onWays (fun w => w.key == k && w.ver == ver && w.kind != .ghost) fun w => { w with band := b }

/-- A cached master record of a DIRECT band goes once it is clean (R130, R255). -/
def State.dropDirect (s : State) (t : Table) (k : Key) (ver : Nat) : State :=
  if (s.placed (keyTbl k) ver (keyRow k)).isNone && (bandAt t (s.bandOf t k ver)).direct then s.dropRow k ver true else s

/-- The rows of one tier-2 block, or a row alone (R256). -/
def blockRows (t : Table) (row : Nat) : List Nat :=
  if t.backTier = 2 && t.rpb > 1 then (List.range t.rpb).map fun i => row / t.rpb * t.rpb + i else [row]

/-- A dirty record that a write-back may take (R414). -/
def State.mayWrite (s : State) (k : Key) (ver : Nat) : Bool := s.isDirty k ver && !(s.rowPoisoned (keyTbl k) ver (keyRow k))

/-- A write-back fails: the record stays dirty and twinned (R454), with the event of its tier (R106, R336). -/
def State.failWrite (s : State) (t : Table) (v : Version) (k : Key) (status : BitVec 8) (tried : Bool) : State :=
  let s1 := s.onUp fun u => { u with wbFailed := (k, v.ver) :: u.wbFailed.filter fun x => !(x.1 == k && x.2 == v.ver) }
  if !tried then s1
  else if t.backTier = 1 then
    s1.tell [.count Ctr.tier1Refused 1, mkEvent 0x404 [(8, 4, t.ctx), (12, 4, s.rowPort), (24, 8, t.rowAddr v (keyRow k))]]
  else
    let d := s.driveOf v.nsid
    if status = St.flashError then
      s1.tell [mkEvent 0xC04 [(8, 4, d), (12, 4, (s.drive d).port), (16, 4, v.nsid), (24, 8, (t.rowBlock v.base (keyRow k)).1)]]
    else s1

/-- The data of a Write of the blocks of a row: each row of the block as `new` gives it, else from Ground store where that holds its
master record, else from the block as an NVMe Read brings it (R256). -/
def State.blockData (s : State) (t : Table) (v : Version) (k : Key) (new : Nat → Option Bytes) : List (Nat × Option Bytes) :=
  ((blockRows t (keyRow k)).filter fun r => decide (r < t.rows)).map fun r =>
    (r, (new r).or (s.masterBytes t (keyOf (keyTbl k) r) v.ver))

/-- The NVMe Read that a Write of a block needs whose rows Ground store does not all hold. -/
def State.readBlock (s : State) (t : Table) (v : Version) (lba : Nat) (rows : List (Nat × Option Bytes)) : State :=
  if rows.any fun r => r.2.isNone then
    s.wholeCmd { drive := s.driveOf v.nsid, kind := 0, ns := v.nsid, lba := lba, blocks := t.rowBlocks, rows := [], own := .step } {}
  else s

/-- The NVMe Write of a row's whole blocks: each row of the block from Ground store where that holds its master record, and from the
block as an NVMe Read brings it otherwise (R256, R335). -/
def State.writeBlock (s : State) (t : Table) (v : Version) (k : Key) (r : Tried) : State :=
  let d := s.driveOf v.nsid
  let lba := (t.rowBlock v.base (keyRow k)).1
  let rows := s.blockData t v k fun _ => none
  let s0 := State.forEach (fun s (r : Nat × Option Bytes) => s.noteMaster t (keyOf (keyTbl k) r.1) v.ver) rows s
  (s0.readBlock t v lba rows).wholeCmd
    { drive := d, kind := 1, ns := v.nsid, lba := lba, blocks := t.rowBlocks, rows := [], own := .step, data := rows } r

/-- Write a dirty master record back; the flag says that it is clean now. A tier-2 Write takes the whole block, with every dirty
record of it that Ground store holds (R256, R335). -/
def State.writeBackRow (s : State) (t : Table) (v : Version) (k : Key) (res : Tried) : State × Bool :=
  if !(s.mayWrite k v.ver) then (s, true)
  else
    let b := s.backStatus t v
    if b ≠ St.ok then (s.failWrite t v k b false, false)
    else if res.status ≠ St.ok then
      ((if t.backTier = 2 then s.writeBlock t v k res else s).failWrite t v k res.status true, false)
    else
      let rows := (blockRows t (keyRow k)).filter fun r => s.mayWrite (keyOf (keyTbl k) r) v.ver
      let s1 := if t.backTier = 2 then s.writeBlock t v k res
        else (s.noteMaster t k v.ver).send
          (.rowWrite k v.ver (t.rowAddr v (keyRow k)) ((s.masterBytes t k v.ver).getD []) (s.rowRoute t))
      (State.forEach (fun s r =>
        let q := keyOf (keyTbl k) r
        ((s.count Ctr.writebacks).clean q v.ver).dropDirect t q v.ver) rows s1, true)

/-! ## Choosing a way (R275, R276) -/

/-- The ways of a set by number: none is FREE. -/
def State.wayAt (s : State) (ch set n : Nat) : Option Way := (s.waysIn ch set).find? fun w => w.way == n

/-- The popularity that stands for a way: a READ way's is its MASTER way's, where there is one in the set. -/
def State.wayFreq (s : State) (w : Way) : Nat :=
  match (s.waysIn w.ch w.set).find? fun x => x.kind == .master && x.key == w.key with
  | some m => m.freq
  | none => w.freq

/-- A live way that R276 may choose. -/
def State.eligible (s : State) (w : Way) : Bool :=
  w.live && w.readers == 0 && !(w.kind == .read && w.repl != 0) &&
  !(w.kind == .master &&
    (s.up.wbFailed.contains (w.key, w.ver) || (w.dirty && s.rowPoisoned (keyTbl w.key) w.ver (keyRow w.key)) ||
     (s.waysIn w.ch w.set).any fun x => x.key == w.key && x.ver == w.ver && x.live && x.readers != 0))

/-- The least of a list under a figure, the first among equals. -/
def leastBy {α : Type} (f : α → Nat) : List α → Option α
  | [] => none
  | a :: t => match leastBy f t with
    | none => some a
    | some b => if f a ≤ f b then some a else some b

/-- What R276 chooses in a set for a row of a version: a way number, with the live way that must go first. The copies that the row
itself is being given are no candidates. -/
def State.chooseWay (s : State) (ch set : Nat) (k : Key) (ver : Nat) : Option (Nat × Option Way) :=
  let ws := s.waysIn ch set
  match ws.find? fun w => w.kind == .ghost && w.key == k with
  | some g => some (g.way, none)
  | none => match (List.range 16).find? fun i => !(ws.any fun w => w.way == i) with
    | some i => some (i, none)
    | none => match ws.find? fun w => w.kind == .ghost with
      | some g => some (g.way, none)
      | none =>
        let l := ws.filter fun w => s.eligible w && !(w.key == k && w.ver == ver)
        match l.find? (·.dn) with
        | some w => some (w.way, some w)
        | none => (leastBy s.wayFreq l).map fun w => (w.way, some w)

/-- The set has a FREE way or a ghost. -/
def State.roomIn (s : State) (ch set : Nat) : Bool :=
  let ws := s.waysIn ch set
  decide (ws.length < 16) || ws.any fun w => w.kind == .ghost

/-- Take a chosen live way's copies out, writing a dirty record back first (R276); the flag says that the way is free now.
`ghost` makes the way a ghost (R277). -/
def State.evictWay (s : State) (w : Way) (fails : WbFails) (ghost : Bool) : State × Bool :=
  let mark := fun (s : State) => if ghost then s.putWay w.asGhost else s
  match s.table (keyTbl w.key) with
  | none => ((s.dropWay w).markHead w.ch w.set, true)
  | some t =>
    if w.kind = .read && t.upd then (mark (((s.dropWay w).markHead w.ch w.set).count Ctr.evicted), true)
    else
      let dirty := s.isDirty w.key w.ver
      let r := match t.ver? w.ver with
        | some v => s.writeBackRow t v w.key (failOf fails w.key)
        | none => (s, true)
      if !r.2 then (r.1, false)
      else
        let n := max 1 (s.copiesOf w.key w.ver).length
        (mark ((r.1.dropRow w.key w.ver false).tell [.count Ctr.evicted n, .count Ctr.evictDirty (b2n dirty)]), true)

/-! ## Slots and data areas (R269, R277) -/

/-- The live ways whose slots lie in a data area. -/
def State.areaWays (s : State) (ch p : Nat) : List Way :=
  s.ch.ways.filter fun w => w.ch == ch && w.live && decide (w.pocket ≤ p ∧ p < w.pocket + spanOf w.size)

/-- A data area takes slots: its bank is not lost (log entry 57). -/
def State.areaSound (s : State) (ch p : Nat) : Bool := !(s.lostPocket ch (s.pinPockets + s.scratchPockets + p))

/-- The lowest free slot in an area of a class. -/
def freeSlot (used : List Nat) (n : Nat) : Option Nat := (List.range n).find? fun i => !(used.contains i)

/-- A free slot of the class on a channel, in the lowest area that has one. -/
def State.classSlot (s : State) (ch size : Nat) : Option (Nat × Nat) :=
  if size > 3840 then none
  else
    let mine := s.ch.ways.filter fun w => w.ch == ch && w.live && w.size == size
    let pockets := sortBy (fun a b => decide (a ≤ b)) ((dedup (mine.map (·.pocket))).filter (s.areaSound ch))
    firstSome (fun p =>
      (freeSlot ((mine.filter fun w => w.pocket == p).map (·.slot)) (3840 / size)).map fun i => (p, i)) pockets

/-- The lowest run of `n` free areas from pocket p on; the fuel is the number of pockets left. -/
def State.freeRun (s : State) (ch n limit : Nat) : Nat → Nat → Option Nat
  | 0, _ => none
  | f + 1, p =>
    if p + n > limit then none
    else if (List.range n).all fun i => (s.areaWays ch (p + i)).isEmpty && s.areaSound ch (p + i) then some p
    else State.freeRun s ch n limit f (p + 1)

/-- A slot without displacing anything. -/
def State.openSlot (s : State) (ch size : Nat) : Option (Nat × Nat) :=
  match s.classSlot ch size with
  | some r => some r
  | none => (s.freeRun ch (max 1 (spanOf size)) (s.setsOf ch) (s.setsOf ch) 0).map fun p => (p, 0)

/-- A data area, or run of areas, whose copies may all be dropped: for a row of popularity `pop`, or whatever theirs where none. -/
def State.reclaimable (s : State) (ch p n : Nat) (pop : Option Nat) (k : Key) (ver : Nat) : Bool :=
  (List.range n).all fun i => s.areaSound ch (p + i) && (s.areaWays ch (p + i)).all fun w =>
    s.eligible w && !(w.key == k && w.ver == ver) && (match pop with
      | some q => decide (s.popularity w.key < q)
      | none => true)

/-- Empty an area; the flag says that it is empty now. -/
def State.emptyArea (s : State) (l : List Way) (fails : WbFails) : State × Bool :=
  match l with
  | [] => (s, true)
  | w :: t =>
    if (s.ch.ways.any fun x => x.ch == w.ch && x.set == w.set && x.way == w.way && x.key == w.key && x.live) then
      let r := s.evictWay w fails true
      if r.2 then State.emptyArea r.1 t fails else (r.1, false)
    else State.emptyArea s t fails

/-- Examine up to 16 areas from the reclaim pointer (R277); the fuel counts them. -/
def State.reclaimFrom (s : State) (ch n : Nat) (pop : Option Nat) (k : Key) (ver : Nat) (fails : WbFails) :
    Nat → Nat → State × Option Nat
  | 0, p => (s.onCh fun c => { c with reclaim := mset c.reclaim ch p }, none)
  | f + 1, p0 =>
    let p := if p0 + n > s.setsOf ch then 0 else p0
    let step := fun (s : State) => s.onCh fun c => { c with reclaim := mset c.reclaim ch (p + n) }
    if s.reclaimable ch p n pop k ver then
      let r := s.emptyArea ((List.range n).flatMap fun i => s.areaWays ch (p + i)) fails
      if r.2 then ((step r.1).countN Ctr.reclaimed n, some p) else State.reclaimFrom r.1 ch n pop k ver fails f (p + n)
    else State.reclaimFrom s ch n pop k ver fails f (p + n)

/-- A slot of a size: a free one of the class, a free area, or a reclaimed one where `pop` and `reclaim` allow. -/
def State.takeSlot (s : State) (ch size : Nat) (reclaim : Bool) (pop : Option Nat) (k : Key) (ver : Nat) (fails : WbFails) :
    State × Option (Nat × Nat) :=
  match s.openSlot ch size with
  | some r => (s, some r)
  | none =>
    if !reclaim || s.setsOf ch < max 1 (spanOf size) then (s, none)
    else
      let r := s.reclaimFrom ch (max 1 (spanOf size)) pop k ver fails 16 (mgetD s.ch.reclaim ch 0)
      (r.1, r.2.map fun p => (p, 0))

/-! ## Placing one copy -/

/-- How a copy comes in: under the popularity test (R275), past it (R278), or only where nothing is displaced (WILLNEED). -/
inductive Entry' where
  | tested (pop : Nat)
  | forced
  | spare
  deriving DecidableEq, Repr

/-- Reserve a way for a row in a set, evicting under R276; the fuel bounds the choices. -/
def State.takeWay (s : State) (ch set : Nat) (k : Key) (ver : Nat) (e : Entry') (fails : WbFails) : Nat → State × Option Nat
  | 0 => (s, none)
  | f + 1 =>
    match s.chooseWay ch set k ver with
    | none => (s, none)
    | some (i, none) => (s, some i)
    | some (i, some w) =>
      let may := match e with
        | .tested pop => decide (s.wayFreq w < pop)
        | .forced => true
        | .spare => false
      if !may then (s, none)
      else
        let r := s.evictWay w fails false
        if r.2 then (r.1, some i) else State.takeWay r.1 ch set k ver e fails f

/-- Place one copy of a row in the set its index names on a channel, whose head is looked up; the flag says whether a way and a slot
could be had. -/
def State.placeCopy (s : State) (ch : Nat) (k : Key) (ver : Nat) (kind : WayKind) (g : Grade) (b : Bytes) (freq repl : Nat)
    (e : Entry') (fails : WbFails) : State × Bool :=
  let at' := s.setOn ch k
  let size := slotOf b.length
  if s.setsOf at'.1 = 0 || s.lostPocket at'.1 (s.pinPockets + s.scratchPockets + at'.2) then (s, false)
  else
  let r := (s.touchHead at'.1 at'.2 false).takeWay at'.1 at'.2 k ver e fails 17
  match r.2 with
  | none => (r.1, false)
  | some i =>
    let pop := match e with
      | .tested q => some q
      | _ => none
    let q := r.1.takeSlot at'.1 size (e != .spare) pop k ver fails
    match q.2 with
    | none => (q.1, false)
    | some (p, sl) =>
      let w : Way := { ch := at'.1, set := at'.2, way := i, key := k, ver := ver, freq := freq, pocket := p, slot := sl, grade := g,
                       kind := kind, repl := repl, size := size }
      (((q.1.putWay w).writeSlot w b).markHead at'.1 at'.2, true)

/-- Bring a row's copies in on channel ch (R130, R131, R255): the master record of an updatable table, and a read copy where the
band's grade is narrower or the table is read-only. Where it cannot be done, the row has no copy; what was displaced or failed to be
written back for it stays so. -/
def State.bringIn (s : State) (t : Table) (k : Key) (ver : Nat) (record : Bytes) (e : Entry') (fails : WbFails) : State × Bool :=
  let ch := s.homeCh k
  let pop := s.popularity k
  let b := bandFor t.bands pop
  let band := bandAt t b
  let m := if t.upd then s.placeCopy ch k ver .master t.grade (slice record 0 t.srcBytes) pop 0 e fails else (s, true)
  if !m.2 then m
  else if t.upd && (band.grade == t.grade || band.direct) then (m.1.setBand k ver b, true)
  else
    let r := m.1.placeCopy ch k ver .read band.grade (m.1.encCopy t record band.grade).2 (if t.upd then 0 else pop) 0 e fails
    if r.2 then ((r.1.encCopy t record band.grade).1.setBand k ver b, true) else (r.1.dropWays (r.1.copiesOf k ver), false)

/-- Consider a row that a lookup read from its backing (R275). -/
def State.admitLookup (s : State) (t : Table) (k : Key) (ver : Nat) (record : Bytes) (fails : WbFails) : State :=
  let pop := s.popularity k
  let at' := s.setOn (s.homeCh k) k
  if !(bitb s.ch.ctlNow 0) || (bandAt t (bandFor t.bands pop)).direct || s.inStore k ver then s
  else
    let ok := !(s.roomIn at'.1 at'.2) || decide (bitf s.ch.ctlNow 4 4 ≤ pop)
    let r := if ok then s.bringIn t k ver record (.tested pop) fails else (s, false)
    r.1.count (if r.2 then Ctr.admitted else Ctr.admitDeclined)

/-- Bring a row in past the popularity test (R112, R166, R278). -/
def State.admitForced (s : State) (t : Table) (k : Key) (ver : Nat) (record : Bytes) (fails : WbFails) : State :=
  let r := s.bringIn t k ver record .forced fails
  r.1.count (if r.2 then Ctr.admitForced else Ctr.admitDeclined)

/-! ## Twins (R233, R256, R258, R268) -/

/-- Bytes that a twin takes of the update area: its slot (R123). -/
def Twin.bytes (x : Twin) : Nat := slotOf x.data.length

/-- 4 KiB granules of the update area. -/
def granules (n : Nat) : Nat := ceilDiv n 4096

/-- A row of a version has a slot that is to be freed once bobbins have read it. -/
def State.stillRead (s : State) (k : Key) (ver : Nat) : Bool := s.ch.ways.any fun w => w.key == k && w.ver == ver && w.leaving != 0

/-- The old twin of a migrated row whose old slots have been freed is released. -/
def State.tidyTwins (s : State) (k : Key) (ver : Nat) : State :=
  if s.stillRead k ver then s else s.onUp fun u => { u with oldTwins := u.oldTwins.filter fun x => !(x.key == k && x.ver == ver) }

/-- Bytes of the twins, with those of migrated rows whose old slots bobbins still read (R284). -/
def State.twinBytes (s : State) : Nat :=
  sumBy Twin.bytes s.up.twins + sumBy Twin.bytes (s.up.oldTwins.filter fun x => s.stillRead x.key x.ver)

/-- Bytes of the update area that twins take. -/
def State.twinUsed (s : State) : Nat := granules s.twinBytes * 4096

def Twin.is (x : Twin) (k : Key) (ver : Nat) : Bool := x.key == k && x.ver == ver

/-- A row's twin. -/
def State.twinOf (s : State) (k : Key) (ver : Nat) : Option Twin := s.up.twins.find? fun x => x.is k ver

/-- Write a master record's twin. -/
def State.putTwin (s : State) (k : Key) (ver ch : Nat) (b : Bytes) : State :=
  let n := ((s.twinOf k ver).map (·.n)).getD 0
  (s.noteTwin k ch (slotOf b.length) true).onUp fun u =>
    { u with twins := { key := k, ver := ver, ch := ch, data := b, n := n } :: u.twins.filter fun x => !(x.is k ver) }

/-- Contributions that a record holds beyond its last write-back. -/
def State.addTwinN (s : State) (k : Key) (ver n : Nat) : State :=
  s.onUp fun u => { u with twins := u.twins.map fun x => if x.is k ver then { x with n := x.n + n } else x }

end Sys2Proof.Machine
end

