-- ==== Sys2Proof/Machine/Poison.lean ====
section
/-!
DEFINITION. The poison list (R413 to R416).
-/

namespace Sys2Proof.Machine

/-- Entries of the poison list (R413). -/
def poisonCap : Nat := 65536

/-- Poison a row: an entry with its event, or, with the list full, its whole version with POISON_FULL (R413, R416). -/
def State.poisonRow (s : State) (h ver row : Nat) : State :=
  if s.rowPoisoned h ver row then s
  else if s.rl.poison.length < poisonCap then
    (s.onRl fun r => { r with poison := r.poison ++ [(h, ver, row)] }).tell
      [.count Ctr.rowsPoisoned 1, mkEvent 0x1001 [(8, 2, h), (10, 2, ver), (24, 8, (keyOf h row).toNat)]]
  else match s.table h with
    | none => s
    | some t =>
      if (t.ver? ver).any (·.poisoned) then s
      else (s.setTable h (t.onVer ver fun v => { v with poisoned := true })).tell [mkEvent 0x1005 [(8, 2, h), (10, 2, ver)]]

/-- A read of a row from its backing. A row whose data comes back bad twice on tier 1, or whose block cannot be read on tier 2, has
unreadable backing: with no copy in Ground store it becomes poisoned (R337, R411, Table 118; log entry 117). -/
def State.readRow (s : State) (t : Table) (v : Version) (k : Key) (src : RowSrc) (asked : Bool := false) : State × RowSrc :=
  let q := s.readBacking t v k src asked
  let bad := if t.backTier = 2 then St.flashError else St.dataError
  if q.2.status = bad && !(s.inStore k v.ver) then (q.1.poisonRow (keyTbl k) v.ver (keyRow k), q.2) else q

end Sys2Proof.Machine
end

