-- ==== Sys2Proof/Machine/TableOps.lean ====
section
/-!
DEFINITION. The table operations: TABLE_LOAD (R125, R142), TABLE_PIN (R143, R453), TABLE_EVICT (R144), TABLE_SWITCH (R145).
-/

namespace Sys2Proof.Machine

/-- DETAIL values of BAD_FORMAT for table operations (Table 39). -/
def TblDet.verInUse : Nat := 2
def TblDet.verState : Nat := 3
def TblDet.liveLimit : Nat := 4
def TblDet.backRange : Nat := 5
def TblDet.pinRange : Nat := 6
def TblDet.pinOverlap : Nat := 7
def TblDet.pinLimit : Nat := 8
def TblDet.rowRange : Nat := 9
def TblDet.grade : Nat := 10
def TblDet.notNewer : Nat := 11
def TblDet.uncovered : Nat := 12
def TblDet.noBacking : Nat := 13

/-- A table operation fails with BAD_FORMAT and changes nothing (R147). -/
def State.tblFail (s : State) (d : Desc) (detail : Nat) : State := s.endDesc d.id St.badFormat detail 0 0

/-- A table operation ends, and its record carries its version. -/
def State.tblEnd (s : State) (d : Desc) (st : BitVec 8) (detail done : Nat) (info : Word64) (cut : Bool) : State :=
  s.settle d.id fun x =>
    { x with status := st, detail := detail, done := done, info := info, ver := BitVec.ofNat 16 d.verField,
             flags := withFlag x.flags Fl.partial' cut }

/-- Run a table operation that is past the front end, on its table and its version; one whose version is still to be opened by
an OPEN queued before it waits (log entry 25), and one whose version is not live ends with VERSION_GONE (R136). -/
def State.tableOp (s : State) (id opc mode : Nat) (run : State → Desc → Table → Version → State) : State :=
  match s.readyFor id opc (· == mode) with
  | none => s
  | some d =>
    match s.table d.tbl with
    | none => s.endDesc id St.badTable 0 0 0
    | some t =>
      match t.ver? d.verField with
      | some v => run s d t v
      | none => if s.opening d.tbl d.verField then s else s.endDesc id St.versionGone 0 0 0

/-- What a command's source feed gives of a range whose fault pricking knows already (R105). -/
def Desc.clip (d : Desc) (k : RangeKind) (n : Nat) (f : Feed) : Feed :=
  match (d.ranges.filter fun r => r.kind == k)[n]? with
  | none => f
  | some r =>
    let g : Feed := { f with data := f.data.take r.len }
    match r.fault with
    | none => g
    | some (off, st) =>
      if off ≤ g.data.length then { data := g.data.take off, status := st, addr := r.va + BitVec.ofNat 64 off }
      else g

/-- The record of row i of a source at stride BSTRIDE. -/
def srcRecord (t : Table) (b : Bytes) (i : Nat) : Bytes := slice b (i * t.bstride) t.srcBytes

/-! ## TABLE_LOAD OPEN (R125, R142) -/

/-- The tier-1 backing's segment: none where the context's segments must be read first; else a failure, or the IOVA. -/
def State.backingSeg (s : State) (seen : Bool) (t : Table) (a : Nat) : Option (BitVec 8 × Nat × Nat) :=
  match (if s.mirrorOn then segFind s.xl.segs t.ctx a else none) with
  | none => if s.mirrorOn && !seen then none else some (St.segMiss, 0, 0)
  | some e =>
    if e.fabric || !e.pinned || decide (e.start + e.len < a + t.rows * t.bstride) then some (St.badFormat, TblDet.backRange, 0)
    else if !e.r || (t.upd && (!e.w || !e.a)) then some (St.rights, 0, 0)
    else some (St.ok, 0, e.base + (a - e.start))

/-- Add a STAGED version. -/
def State.addVersion (s : State) (h : Nat) (t : Table) (v : Version) : State :=
  s.setTable h { t with versions := t.versions ++ [v] }

/-- Blocks that a tier-2 version takes (R123). -/
def Table.blocks (t : Table) : Nat := if t.rpb = 0 then t.rows * t.rowBlocks else ceilDiv t.rows t.rpb

/-- TABLE_LOAD OPEN. A tier-2 backing that cannot be reached, which an NSID above 63 never can, answers TIER_UNREACHABLE before its range
is looked at (log entry 104). -/
def State.loadOpen (s : State) (d : Desc) (t : Table) : State :=
  let n := d.verField
  let fin := fun (s : State) => s.tblEnd d St.ok 0 0 0 false
  if (t.ver? n).isSome then s.tblFail d TblDet.verInUse
  else if t.versions.length ≥ 4 || t.staged.isSome then s.tblFail d TblDet.liveLimit
  else if t.backTier = 1 then
    match s.backingSeg (d.seen && d.ctx == t.ctx) t d.src with
    | none => (s.askMirror t.ctx (s.ring d.ring).home).setDesc { d with mirror := true }
    | some (st, det, iova) =>
      if st ≠ St.ok then s.endDesc d.id st det 0 (if st = St.badFormat then 0 else BitVec.ofNat 64 d.src)
      else fin (s.addVersion d.tbl t { ver := n, state := .staged, base := iova })
  else if t.backTier = 2 then
    let ns := d.byte56
    if !(s.nsReady ns) then s.endDesc d.id St.tierUnreachable 0 0 0
    else if ns > 63 || decide (((mget s.fl.nss ns).map (·.blocks)).getD 0 < d.row0 + t.blocks) then s.tblFail d TblDet.backRange
    else fin (s.addVersion d.tbl t { ver := n, state := .staged, base := d.row0, nsid := ns })
  else fin (s.addVersion d.tbl t { ver := n, state := .staged })

/-- TABLE_LOAD OPEN. -/
def execTableLoadOpen (id : Nat) (s : State) : Host.Outcome State Fault Refusal :=
  .next (match s.readyFor id 0x11 (· == 0) with
    | none => s
    | some d => match s.table d.tbl with
      | none => s.endDesc id St.badTable 0 0 0
      | some t => s.loadOpen d t)

/-! ## Placing rows in extents (R128, R143) -/

/-- Take a poison entry out (R415). -/
def State.unpoison (s : State) (tbl ver row : Nat) : State :=
  s.onRl fun r => { r with poison := r.poison.filter fun p => p != (tbl, ver, row) }

/-- Write a source record into an extent's slot, in its grade. -/
def State.storeRow (s : State) (t : Table) (e : Extent) (row : Nat) (record : Bytes) : State :=
  if t.upd then s.writePinned (e.rowOff t row) (slice record 0 t.srcBytes)
  else
    let c := s.encCopy t record e.grade
    c.1.writePinned (e.rowOff t row) c.2

/-- A row that is torn from its extent goes back in place with the record that its backing has given, where its banks take writes
(R302, R408, R409). -/
def State.mend (s : State) (t : Table) (k : Key) (ver : Nat) (record : Bytes) : State × Bool :=
  match s.extentOf (keyTbl k) ver (keyRow k) with
  | none => (s, false)
  | some e =>
    let row := keyRow k
    if !(e.torn.contains row) || (s.pinParts (e.rowOff t row) (e.slot t)).any (fun p => s.lostPocket p.1 p.2.1) then (s, false)
    else (((s.storeRow t e row record).onExtent e fun x =>
      { x with placed := x.placed ++ [row], torn := x.torn.filter fun r => r != row }).count Ctr.recBacking, true)

/-- Place a row that its extent does not hold yet: a cached master record moves in with its dirty state and its twin, and every
other Ground store copy of the row goes (R143). -/
def State.placeRow (s : State) (t : Table) (e : Extent) (row : Nat) (record : Bytes) : State :=
  let k := keyOf e.tbl row
  let m := s.masterWay k e.ver
  let data := match m with
    | some w => s.readSlot w t.srcBytes
    | none => record
  let dirty := (m.map (·.dirty)).getD false
  let s1 := (s.dropRow k e.ver true).storeRow t e row data
  let s2 := s1.onExtent e fun x =>
    { x with placed := x.placed ++ [row], dirty := if dirty then x.dirty ++ [row] else x.dirty, torn := x.torn.filter fun r => r != row }
  let n := ((s.twinOf k e.ver).map (·.n)).getD 0
  let s3 := if dirty then (s2.putTwin k e.ver (s2.twinCh (s2.spread 0 (e.rowOff t row)).1) data).addTwinN k e.ver n else s2
  s3.count Ctr.pinRows

/-! ## TABLE_LOAD FILL (R142) -/

/-- Write one record of a FILL to the extent that holds the row. Over a placed row whose master record is dirty, the record of a tier-2 table
is clean at once, as its Write takes it to the backing too, and that of a tier-1 table stays dirty with a new twin, to be written back; the
spec has no rule for a FILL over a dirty record (DESIGN CHOICE; log entry 103). -/
def State.fillRow (s : State) (t : Table) (v : Version) (h row : Nat) (record : Bytes) : State :=
  let k := keyOf h row
  match s.extentOf h v.ver row with
  | none => s
  | some e =>
    let s3 := s.unpoison h v.ver row
    if e.placed.contains row then
      let dirty := s3.isDirty k v.ver
      let s4 := s3.storeRow t e row record
      if dirty && t.backTier = 2 then s4.clean k v.ver
      else if dirty then s4.putTwin k v.ver (s4.twinCh (s4.masterCh t k v.ver)) record
      else s4
    else
      let s4 := (s3.dropRow k v.ver true).placeRow t e row record
      s4

/-- The rows first to first + n − 1, one for each block, or run of blocks, that they lie in. -/
def Table.blockLeads (t : Table) (first n : Nat) : List Nat :=
  ((List.range n).map (first + ·)).filter fun r => r == first || decide (t.rpb ≤ 1) || r % t.rpb == 0

/-- Queue the NVMe Write of one block of a FILL whose records of rows first to first + n − 1 are `src` (R142, R335). -/
def State.fillBlock (s : State) (d : Desc) (t : Table) (v : Version) (first n : Nat) (src : Bytes) (lead : Nat) : State :=
  let k := keyOf d.tbl lead
  let lba := (t.rowBlock v.base lead).1
  let new := fun r => if first ≤ r && decide (r < first + n) then some (srcRecord t src (r - first)) else none
  let rows := s.blockData t v k new
  let mine := (rows.filter fun r => decide (first ≤ r.1 ∧ r.1 < first + n)).map fun r => (keyOf d.tbl r.1, v.ver)
  (s.readBlock t v lba rows).queueCmd
    { drive := s.driveOf v.nsid, kind := 1, ns := v.nsid, lba := lba, blocks := t.rowBlocks, rows := mine, own := .desc d.id, data := rows }

/-- A FILL whose Writes are queued waits for them (R142). -/
def State.fillWait (s : State) (id : Nat) : State :=
  if s.cmdOut (.desc id) then s.onDesc id fun x => { x with stage := .filling } else s

/-- TABLE_LOAD FILL: records go into the extents at once, and to a tier-2 backing by NVMe Writes, one for each block, after which it
completes, with FLASH_ERROR where one of them failed (log entry 103). -/
def State.loadFill (s : State) (d : Desc) (t : Table) (v : Version) (src : Feed) : State :=
  let first := d.row0
  if v.state ≠ .staged then s.tblFail d TblDet.verState
  else if first + d.count > t.rows then s.tblFail d TblDet.rowRange
  else if t.backTier = 2 && !(s.nsReady v.nsid) then s.endDesc d.id St.tierUnreachable 0 0 0
  else
    let f := d.clip .bulkSrc 0 src
    let n := min d.count (f.data.length / t.bstride)
    let s1 := State.forEach (fun s i => s.fillRow t v d.tbl (first + i) (srcRecord t f.data i)) (List.range n) (s.inputsDone d.id)
    let s2 := s1.countN Ctr.fillRows n
    let s3 := if t.backTier = 2 then State.forEach (fun s r => s.fillBlock d t v first n f.data r) (t.blockLeads first n) s2 else s2
    (if n = d.count then s3.tblEnd d St.ok 0 n 0 false
     else (s3.countN Ctr.inboundBad (badReads f.status)).tblEnd d (if f.status = St.ok then St.pageFault else f.status) 0 n f.addr
       (decide (f.data.length ≠ 0))).fillWait d.id

/-- TABLE_LOAD FILL. -/
def execTableLoadFill (id : Nat) (src : Feed) (s : State) : Host.Outcome State Fault Refusal :=
  .next (s.tableOp id 0x11 1 fun s d t v => if s.inputsIn d then s.loadFill d t v src else s.readOn d.id)

/-! ## TABLE_PIN (R143, R453) -/

/-- The first check of a TABLE_PIN that fails, by the values of Table 39. -/
def State.pinCheck (s : State) (d : Desc) (t : Table) (v : Version) : Option Nat :=
  let g := gradeOf (d.byte56 % 8)
  let slot := slotOf (t.copyBytes (g.getD t.grade) t.upd)
  let first := d.row0
  let size := d.count * slot
  let overlaps := fun (e : Extent) =>
    let bytes := match s.table e.tbl with
      | some u => e.count * e.slot u
      | none => 0
    d.count != 0 &&
      (decide (d.dst < e.off + bytes ∧ e.off < d.dst + size) ||
        (e.tbl == d.tbl && e.ver == v.ver && decide (first < e.first + e.count ∧ e.first < first + d.count)))
  firstSome (fun c => if c.1 then some c.2 else none)
    [(v.begun, TblDet.verState),
     (d.dst % 4096 != 0 || decide (d.dst + size > s.pinUnits * unitBytes), TblDet.pinRange),
     (s.tb.extents.any overlaps, TblDet.pinOverlap),
     (decide (s.tb.extents.length ≥ 16384) || decide ((s.tb.extents.filter fun e => e.tbl == d.tbl && e.ver == v.ver).length ≥ 256),
       TblDet.pinLimit),
     (d.count == 0 || decide (first + d.count > t.rows), TblDet.rowRange),
     ((match g with
       | none => true
       | some x => x.wider t.grade || (t.upd && x != t.grade)), TblDet.grade),
     (d.mode == 0 && t.backTier == 0, TblDet.noBacking)]

/-- The extent that a TABLE_PIN makes, with no row placed. -/
def Desc.extent (d : Desc) (t : Table) : Extent :=
  { tbl := d.tbl, ver := d.verField, first := d.row0, count := d.count, grade := (gradeOf (d.byte56 % 8)).getD t.grade, off := d.dst }

/-- Make the extent. -/
def State.addExtent (s : State) (e : Extent) : State := s.onTb fun t => { t with extents := t.extents ++ [e] }

/-- What a read of a row from the backing answers in a command's operand; a row that is not given could not be read. -/
def fetchOf (rows : List RowFetch) (row : Nat) : RowSrc :=
  ((rows.find? fun r => r.row == row).map (·.src)).getD { data := [], status := St.tierUnreachable }

/-- Place a run of rows from the backing; the answer gives the rows that could not be placed, with their status. -/
def State.pinBacking (s : State) (t : Table) (v : Version) (e : Extent) (rows : List RowFetch) : List Nat → State × List (Nat × BitVec 8)
  | [] => (s, [])
  | r :: l =>
    if (s.masterWay (keyOf e.tbl r) e.ver).isSome then State.pinBacking (s.placeRow t e r []) t v e rows l
    else
      let q := s.readRow t v (keyOf e.tbl r) (fetchOf rows r)
      if q.2.status = St.ok then State.pinBacking (q.1.placeRow t e r q.2.data) t v e rows l
      else
        let z := State.pinBacking q.1 t v e rows l
        (z.1, (r, q.2.status) :: z.2)

/-- TABLE_PIN FROM_BACKING. -/
def State.pinFromBacking (s : State) (d : Desc) (t : Table) (v : Version) (rows : List RowFetch) : State :=
  match s.pinCheck d t v with
  | some det => s.tblFail d det
  | none =>
    let e := d.extent t
    let r := (s.addExtent e).pinBacking t v e rows ((List.range d.count).map fun i => d.row0 + i)
    match r.2 with
    | [] => r.1.tblEnd d St.ok 0 d.count 0 false
    | (row, st) :: _ => r.1.tblEnd d (backFail t st) r.2.length (d.count - r.2.length) (keyOf d.tbl row) false

/-- TABLE_PIN FROM_BACKING. -/
def execTablePinFromBacking (id : Nat) (rows : List RowFetch) (s : State) : Host.Outcome State Fault Refusal :=
  .next (s.tableOp id 0x12 0 fun s d t v => s.pinFromBacking d t v rows)

/-- TABLE_PIN FROM_SRC. -/
def State.pinFromSrc (s : State) (d : Desc) (t : Table) (v : Version) (src : Feed) : State :=
  match s.pinCheck d t v with
  | some det => s.tblFail d det
  | none =>
    let e := d.extent t
    let f := d.clip .bulkSrc 0 src
    let n := min d.count (f.data.length / t.bstride)
    let s1 := State.forEach (fun s i =>
      (s.placeRow t e (d.row0 + i) (srcRecord t f.data i)).unpoison d.tbl v.ver (d.row0 + i)) (List.range n) ((s.inputsDone d.id).addExtent e)
    if n = d.count then s1.tblEnd d St.ok 0 n 0 false
    else (s1.countN Ctr.inboundBad (badReads f.status)).tblEnd d (if f.status = St.ok then St.pageFault else f.status) 0 n f.addr
      (decide (f.data.length ≠ 0))

/-- TABLE_PIN FROM_SRC. -/
def execTablePinFromSrc (id : Nat) (src : Feed) (s : State) : Host.Outcome State Fault Refusal :=
  .next (s.tableOp id 0x12 1 fun s d t v => if s.inputsIn d then s.pinFromSrc d t v src else s.readOn d.id)

/-! ## TABLE_EVICT (R144) -/

/-- How a command's operand has the write-back of a row of one version end. -/
def rowFail (fails : List RowFail) (row : Nat) : Tried :=
  ((fails.find? fun f => f.row == row).map fun f => { status := f.status, tries := f.tries }).getD {}

/-- Write back the dirty records among rows; the answer gives those that failed. -/
def State.flushRows (s : State) (t : Table) (v : Version) (h : Nat) (fails : List RowFail) : List Nat → State × List (Nat × BitVec 8)
  | [] => (s, [])
  | r :: l =>
    let st := rowFail fails r
    let q := s.writeBackRow t v (keyOf h r) st
    let z := State.flushRows q.1 t v h fails l
    if q.2 then z else (z.1, (r, if s.backStatus t v = St.ok then st.status else s.backStatus t v) :: z.2)

/-- The rows of a version that have copies in the cache, ascending. -/
def State.cachedRows (s : State) (h ver : Nat) : List Nat :=
  sortBy (fun a b => decide (a ≤ b))
    (dedup ((s.ch.ways.filter fun w => w.live && w.leaving == 0 && keyTbl w.key == h && w.ver == ver).map fun w => keyRow w.key))

/-- Count the rows that were written back since s0 (Table 40). -/
def State.countEvict (s s0 : State) : State :=
  s.countN Ctr.evictWriteback (s.counter Ctr.writebacks - s0.counter Ctr.writebacks)

/-- The outcome of an eviction some of whose write-backs failed. -/
def State.evictEnd (s : State) (d : Desc) (t : Table) (failed : List (Nat × BitVec 8)) : State :=
  match failed with
  | [] => s.tblEnd d St.ok 0 0 0 false
  | (_, st) :: _ => s.tblEnd d (backFail t st) failed.length 0 0 false

/-- TABLE_EVICT ROWS. -/
def State.evictRows (s : State) (d : Desc) (t : Table) (v : Version) (fails : List RowFail) : State :=
  if d.row0 + d.count > t.rows then s.tblFail d TblDet.rowRange
  else
    let rows := (s.cachedRows d.tbl v.ver).filter fun r => decide (d.row0 ≤ r ∧ r < d.row0 + d.count) && !(s.rowPoisoned d.tbl v.ver r)
    let q := s.flushRows t v d.tbl fails rows
    let s1 := State.forEach (fun s r => if q.2.any fun f => f.1 == r then s else s.dropRow (keyOf d.tbl r) v.ver true) rows q.1
    (s1.countEvict s).evictEnd d t q.2

/-- TABLE_EVICT ROWS. -/
def execTableEvictRows (id : Nat) (fails : List RowFail) (s : State) : Host.Outcome State Fault Refusal :=
  .next (s.tableOp id 0x13 0 fun s d t v => s.evictRows d t v fails)

/-- Release an extent, with the twins of its rows. -/
def State.dropExtent (s : State) (e : Extent) : State :=
  (s.onTb fun t => { t with extents := t.extents.filter fun x => !(x.tbl == e.tbl && x.ver == e.ver && x.first == e.first) }).onUp
    fun u => { u with twins := u.twins.filter fun x => !(x.ver == e.ver && keyTbl x.key == e.tbl && e.placed.contains (keyRow x.key)) }

/-- TABLE_EVICT UNPIN. -/
def State.evictUnpin (s : State) (d : Desc) (t : Table) (v : Version) (fails : List RowFail) : State :=
  match s.extentOf d.tbl v.ver d.row0 with
  | none => s.tblFail d TblDet.rowRange
  | some e =>
    if t.backTier = 0 && v.state = .current then s.tblFail d TblDet.uncovered
    else
      let q := s.flushRows t v d.tbl fails (sortBy (fun a b => decide (a ≤ b)) e.dirty)
      let s1 := if q.2.isEmpty then q.1.dropExtent e else q.1
      (s1.countEvict s).evictEnd d t q.2

/-- TABLE_EVICT UNPIN. -/
def execTableEvictUnpin (id : Nat) (fails : List RowFail) (s : State) : Host.Outcome State Fault Refusal :=
  .next (s.tableOp id 0x13 1 fun s d t v => s.evictUnpin d t v fails)

/-- Change a version of table h. -/
def State.onVersion (s : State) (h ver : Nat) (f : Version → Version) : State :=
  match s.table h with
  | some t => s.setTable h (t.onVer ver f)
  | none => s

/-- TABLE_EVICT VERSION: a STAGED or RETIRING version goes to RETIRING. -/
def execTableEvictVersion (id : Nat) (s : State) : Host.Outcome State Fault Refusal :=
  .next (s.tableOp id 0x13 2 fun s d _ v =>
    if v.state = .current || v.begun then s.tblFail d TblDet.verState
    else (s.onVersion d.tbl v.ver fun x => { x with state := .retiring }).tblEnd d St.ok 0 0 0 false)

/-! ## TABLE_SWITCH (R126, R139, R145) -/

/-- The pinned extents of a version cover every row, and every row is placed (R126). -/
def State.allPinned (s : State) (h : Nat) (t : Table) (ver : Nat) : Bool :=
  let es := s.tb.extents.filter fun e => e.tbl == h && e.ver == ver
  es.all (fun e => decide (e.placed.length ≥ e.count)) && decide (sumBy (·.count) es ≥ t.rows)

/-- A TABLE_LOAD or TABLE_PIN naming a version is in flight. -/
def State.loading (s : State) (h ver : Nat) : Bool :=
  s.fe.descs.any fun e => (e.opc == 0x11 || e.opc == 0x12) && e.tbl == h && e.verField == ver && (e.status == St.ok || e.stage == .filling) &&
    e.stage != .finished && e.stage != .heldRec

/-- A descriptor that enters the bobbinet: a gather, a ROWS-form scatter, PREFETCH ROW_LIST. -/
def Desc.sorted (d : Desc) : Bool := d.opc == 1 || d.opc == 2 || (d.opc == 3 && d.rowsForm) || (d.opc == 0x18 && d.mode == 0)

/-- An earlier descriptor of the ring that enters the bobbinet has not been admitted. -/
def State.unadmitted (s : State) (d : Desc) : Bool :=
  (s.ringDescs d.ring).any fun e => decide (e.id < d.id) && e.sorted &&
    (e.stage == .queued || e.stage == .headWait || e.stage == .parked || e.stage == .ready || e.stage == .replay)

/-- A descriptor behind a TABLE_SWITCH of its ring that has not made its change may not be admitted yet. -/
def State.switchAhead (s : State) (d : Desc) : Bool :=
  (s.ringDescs d.ring).any fun e => decide (e.id < d.id) && e.opc == 0x10 && e.status == St.ok && e.stage != .finished && e.stage != .heldRec

/-- The first check of a switch that fails. -/
def State.switchCheck (s : State) (h : Nat) (t : Table) (v : Version) (any : Bool) : Option Nat :=
  firstSome (fun c => if c.1 then some c.2 else none)
    [(v.begun || !(v.state == .staged || (any && v.state == .retiring)), TblDet.verState),
     (!any && (match t.current with
       | some c => !(verNewer v.ver c.ver)
       | none => false), TblDet.notNewer),
     (t.backTier == 0 && !(s.allPinned h t v.ver), TblDet.uncovered)]

/-- TABLE_SWITCH: it waits for loads and pins of VER and for earlier lookups of its ring, and then makes its change. -/
def State.switchTo (s : State) (d : Desc) (t : Table) (v : Version) (any : Bool) : State :=
  if s.loading d.tbl v.ver || s.unadmitted d then s
  else match s.switchCheck d.tbl t v any with
    | some det => s.tblFail d det
    | none =>
      let old := (t.current.map (·.ver)).getD 0
      let new := t.versions.map fun x =>
        if x.ver = v.ver then { x with state := VerState.current } else if x.ver = old then { x with state := VerState.retiring } else x
      (((s.setTable d.tbl { t with versions := new }).count Ctr.verSwitch).tblEnd d St.ok old 0 0 false)

/-- TABLE_SWITCH FORWARD. -/
def execTableSwitchForward (id : Nat) (s : State) : Host.Outcome State Fault Refusal :=
  .next (s.tableOp id 0x10 0 fun s d t v => s.switchTo d t v false)

/-- TABLE_SWITCH ANY. -/
def execTableSwitchAny (id : Nat) (s : State) : Host.Outcome State Fault Refusal :=
  .next (s.tableOp id 0x10 1 fun s d t v => s.switchTo d t v true)

end Sys2Proof.Machine
end

