-- ==== Sys2Proof/Machine/Advice.lean ====
section
/-!
DEFINITION. PREFETCH ROW_RANGE and XLATE (R112) and ADVISE (R113, R278). PREFETCH ROW_LIST goes through the bobbinet.
-/

namespace Sys2Proof.Machine

/-! ## Bringing rows in (R112) -/

/-- A PREFETCH of one row of a version: 0 where it is complete, with or without being brought, else the status of its failure. -/
def State.bringRow (s : State) (t : Table) (v : Version) (k : Key) (src : RowSrc) (fails : WbFails) : State × BitVec 8 :=
  let row := keyRow k
  let direct := fun (s : State) => (bandAt t (bandFor t.bands (s.popularity k))).direct
  if s.rowPoisoned (keyTbl k) v.ver row || v.poisoned then (s, St.poisoned)
  else if s.inStore k v.ver || direct s then (s, St.ok)
  else
    let q := s.readRow t v k src
    if q.2.status ≠ St.ok then (q.1, q.2.status)
    else
      let s1 := (q.1.count Ctr.rowMiss).bump k
      if direct s1 then (s1, St.ok) else (s1.admitForced t k v.ver q.2.data fails, St.ok)

/-- Bring in a run of keys; the answer gives those not brought, in order. -/
def State.bringRows (s : State) (t : Table) (v : Version) (rows : List RowFetch) (fails : WbFails) : List Key → State × List (Key × BitVec 8)
  | [] => (s, [])
  | k :: l =>
    let q := s.bringRow t v k (fetchOf rows (keyRow k)) fails
    let z := State.bringRows q.1 t v rows fails l
    if q.2 = St.ok then z else (z.1, (k, q.2) :: z.2)

/-- The status of a PREFETCH for a row that was not brought: TIER_UNREACHABLE or FLASH_ERROR, and POISONED for a poisoned row (R112, R415). -/
def State.prefetchFail (s : State) (k : Key) (st : BitVec 8) : BitVec 8 :=
  if st = St.poisoned then st else ((s.table (keyTbl k)).map fun t => backFail t st).getD St.tierUnreachable

/-- The end of a PREFETCH of n rows (R112). -/
def State.prefetchEnd (s : State) (id n : Nat) (bad : List (Key × BitVec 8)) : State :=
  match bad with
  | [] => s.endOk id n
  | (k, st) :: _ => s.endDesc id (s.prefetchFail k st) bad.length (n - bad.length) k

/-! ## PREFETCH -/

/-- PREFETCH ROW_RANGE. -/
def State.rowRange (s : State) (d : Desc) (rows : List RowFetch) (fails : WbFails) : State :=
  match s.table d.tbl with
  | none => s.endDesc d.id St.badTable 0 0 0
  | some t =>
    if d.srcRow + d.count > t.rows then s.endDesc d.id St.badKey 3 0 (BitVec.ofNat 64 (t.rows - d.srcRow))
    else match t.current with
      | none => s.endDesc d.id St.versionGone 0 0 0
      | some v =>
        let q := s.bringRows t v rows fails ((List.range d.count).map fun i => keyOf d.tbl (d.srcRow + i))
        q.1.prefetchEnd d.id d.count q.2

/-- PREFETCH ROW_RANGE. -/
def execRowRange (id : Nat) (rows : List RowFetch) (fails : WbFails) (s : State) : Host.Outcome State Fault Refusal :=
  .next (match s.readyFor id 0x18 (· == 1) with
    | none => s
    | some d => s.rowRange d rows fails)

/-- PREFETCH XLATE: pricking has translated its range. -/
def execXlate (id : Nat) (s : State) : Host.Outcome State Fault Refusal :=
  .next (match s.readyFor id 0x18 (· == 2) with
    | none => s
    | some d => s.endOk id d.count)

/-! ## ADVISE (R113) -/

/-- The bytes from SRC to the end of its segment. -/
def Desc.advRoom (d : Desc) : Nat := ((d.ranges.head?.bind fun r => r.pieces.head?).map (·.len)).getD 0

/-- Record an advised range; a 65th replaces the oldest. -/
def Translation.advise (x : Translation) (g : Advised) : Translation :=
  { x with advised := (if x.advised.length ≥ 64 then x.advised.drop 1 else x.advised) ++ [g] }

/-- ADVISE SEQUENTIAL. -/
def execSequential (id : Nat) (s : State) : Host.Outcome State Fault Refusal :=
  .next (match s.readyFor id 0x19 (· == 0) with
    | none => s
    | some d =>
      let g : Advised := { ctx := d.ctx, va := d.src, len := min d.count d.advRoom }
      (s.onXl fun x => x.advise g).endOk id 0)

/-- ADVISE NORMAL: the context's advised ranges that overlap COUNT bytes at SRC go. -/
def execNormal (id : Nat) (s : State) : Host.Outcome State Fault Refusal :=
  .next (match s.readyFor id 0x19 (· == 1) with
    | none => s
    | some d =>
      (s.onXl fun x => { x with advised := x.advised.filter fun g =>
        !(g.ctx == d.ctx && decide (g.va < d.src + d.count ∧ d.src < g.va + g.len)) }).endOk id 0)

/-- The rows that an ADVISE names, clipped to the table's ROWS: first and end. -/
def Desc.advRows (d : Desc) (t : Table) : Nat × Nat := (d.srcRow, min (d.srcRow + d.count) t.rows)

/-- Bring one row into free room (R278). -/
def State.spareRow (s : State) (t : Table) (v : Version) (k : Key) (src : RowSrc) : State :=
  if s.inStore k v.ver || s.rowPoisoned (keyTbl k) v.ver (keyRow k) || (bandAt t (bandFor t.bands (s.popularity k))).direct then s
  else
    let q := s.readRow t v k src
    if q.2.status ≠ St.ok then q.1
    else
      let r := q.1.bringIn t k v.ver q.2.data .spare []
      if r.2 then r.1.count Ctr.admitForced else r.1

/-- ADVISE WILLNEED: the rows that come in are the command's. -/
def execWillneed (id : Nat) (rows : List RowFetch) (s : State) : Host.Outcome State Fault Refusal :=
  .next (match s.readyFor id 0x19 (· == 2) with
    | none => s
    | some d => match s.table d.tbl with
      | none => s.endDesc id St.badTable 0 0 0
      | some t => match t.current with
        | none => s.endDesc id St.versionGone 0 0 0
        | some v =>
          let r := d.advRows t
          let mine := rows.filter fun f => decide (r.1 ≤ f.row ∧ f.row < r.2)
          (State.forEach (fun s f => s.spareRow t v (keyOf d.tbl f.row) f.src) mine s).endOk id 0)

/-- DONTNEED of one version's rows: dirty records are written back, and replicas dropped (R287). -/
def State.dontneedVer (s : State) (h : Nat) (t : Table) (v : Version) (first last : Nat) (fails : List RowFail) : State :=
  let keys := (s.ch.ways.filter fun w => w.live && keyTbl w.key == h && w.ver == v.ver).map fun w => keyRow w.key
  let pinned := (s.tb.extents.filter fun e => e.tbl == h && e.ver == v.ver).flatMap (·.dirty)
  let rows := (sortBy (fun a b => decide (a ≤ b)) (dedup (keys ++ pinned))).filter fun r => decide (first ≤ r ∧ r < last)
  let q := s.flushRows t v h fails rows
  State.forEach (fun s r => s.dropReplicas (keyOf h r) v.ver 1) (rows.filter fun r => !(q.1.replicasOf (keyOf h r) v.ver).isEmpty) q.1

/-- ADVISE DONTNEED. -/
def execDontneed (id : Nat) (fails : List RowFail) (s : State) : Host.Outcome State Fault Refusal :=
  .next (match s.readyFor id 0x19 (· == 3) with
    | none => s
    | some d => match s.table d.tbl with
      | none => s.endDesc id St.badTable 0 0 0
      | some t =>
        let r := d.advRows t
        let s1 := State.forEach (fun s v => s.dontneedVer d.tbl t v r.1 r.2 fails) t.versions s
        let named := fun (w : Way) => keyTbl w.key == d.tbl && decide (r.1 ≤ keyRow w.key ∧ keyRow w.key < r.2)
        let s2 := State.forEach (fun s w => s.markHead w.ch w.set) (s1.ch.ways.filter named) s1
        (s2.onWays named fun w => { w with dn := true, freq := 0 }).endOk id 0)

end Sys2Proof.Machine
end

