-- ==== Sys2Proof/Machine/Announce.lean ====
section
/-!
DEFINITION. Announcements: eyelets, the BAR2 window, near rings (R59 to R66, R445, R451).
-/

namespace Sys2Proof.Machine

/-- The index that an eyelet word carries. -/
def wordIdx (w : Word64) : BitVec 32 := BitVec.ofNat 32 w.toNat

/-! ## Eyelets -/

/-- EYELET_SNOOP (R27, R60, Table 21): a snoop is answered; a held line that was valid is marked invalid and re-taken. -/
def State.snoop (s : State) (port line : Nat) : State :=
  if !(s.cxlCache port) then s
  else
    let s1 := s.send (.snoopRsp port line)
    match mget s.fe.lines line with
    | none => s1
    | some l =>
      if l.port = port && l.valid then
        (s1.onFe fun f => { f with lines := mset f.lines line { l with valid := false, snooped := true } }).readLine line l
      else s1

/-- EYELET_SNOOP. -/
def execEyeletSnoop (port line : Nat) (s : State) : Host.Outcome State Fault Refusal := .next (s.snoop port line)

/-- Take in word i of a line: a tracked ring's changed word is a new index (R60). The word of a line newly taken, and of a ring that
resumed while the line was being read, is compared with the index held for the ring (R52). -/
def State.takeWord (s : State) (line : Nat) (l : EyeLine) (new : List Word64) (i : Nat) : State :=
  let k := 8 * line + i
  let r := s.ring k
  let w := wordIdx ((new[i]?).getD 0)
  let was := if l.words.isEmpty || l.fresh.contains i then r.pub else wordIdx ((l.words[i]?).getD 0)
  if Ring.tracked r && w != was then s.newIndex k w else s

/-- EYELET_LINE_RETURN (R60, R62, R63). -/
def State.lineReturn (s : State) (line : Nat) (words : List Word64) : State :=
  match mget s.fe.lines line with
  | none => s
  | some l =>
    if l.valid then s
    else
      let ws := words.take 8
      let s1 := s.onFe fun f =>
        { f with lines := mset f.lines line { l with valid := true, words := ws, snooped := false, fresh := [] } }
      let s2 := if l.snooped && l.words == ws then s1.count Ctr.idleSnoop else s1
      State.forEach (fun s i => s.takeWord line l ws i) (List.range 8) s2

/-- EYELET_LINE_RETURN. -/
def execEyeletLineReturn (line : Nat) (words : List Word64) (s : State) : Host.Outcome State Fault Refusal :=
  .next (s.lineReturn line words)

/-! ## Held RING_OVERRUN records (R451) -/

/-- Write the first RING_OVERRUN record held for completion ring c, where a slot is free. -/
def State.overrunRecord (s : State) (c : Nat) : State :=
  match s.heldFor c with
  | [] => s
  | k :: _ =>
    if s.cplLive c && decide (Ring.space (s.ring c) ≥ 1) then
      (s.onFe fun f => { f with overruns := f.overruns.erase k }).writeOverrun k
    else s

/-- RING_OVERRUN_RECORD_WRITE. -/
def execRingOverrunRecordWrite (cpl : Nat) (s : State) : Host.Outcome State Fault Refusal := .next (s.overrunRecord cpl)

/-! ## The BAR2 window (R64, R65, R445) -/

/-- A write that carries an index: 8 bytes, or 4 bytes to the low half, of a ring the member has. -/
def bar2Carries (m : Member) (off size : Nat) : Bool :=
  off % 8 == 0 && (size == 8 || size == 4) && decide (off / 8 < Member.rings m)

/-- BAR2 can be reached through the function of either port (R26). -/
def State.barUp (s : State) : Bool := s.fnUp .fn0 || s.fnUp .fn1

/-- BAR2_DOORBELL_WRITE (R64). -/
def State.doorbell (s : State) (off size : Nat) (val : Word64) : State :=
  let k := off / 8
  let r := s.ring k
  if !s.barUp then s
  else if bar2Carries s.fuses.member off size && Ring.isHost r && r.dbMode && r.state != .disabled then s.newIndex k (wordIdx val)
  else s.count Ctr.bar2Ignored

/-- BAR2_DOORBELL_WRITE. -/
def execBar2DoorbellWrite (off size : Nat) (val : Word64) (s : State) : Host.Outcome State Fault Refusal :=
  .next (s.doorbell off size val)

/-- The value of a BAR2 word (R65). -/
def Ring.backWord (r : Ring) : Word64 :=
  BitVec.ofNat 64 (r.doneSeq.toNat + atBit (RingState.num r.state) 3 32 + atBit (b2n (r.state != .disabled)) 1 63)

/-- A read of 4 or 8 bytes of a word that serves a ring. -/
def bar2Reads (m : Member) (off size : Nat) : Bool :=
  (size == 8 && off % 8 == 0 || size == 4 && off % 4 == 0) && decide (off / 8 < Member.rings m)

/-- BAR2_READ_BACK (R65, R445): results of the ring's completed descriptors are visible when the value returns. -/
def State.readBack (s : State) (off size : Nat) : State :=
  let k := off / 8
  let r := s.ring k
  if !s.barUp then s
  else if bar2Reads s.fuses.member off size then
    let v := Ring.backWord r
    let v := if size = 8 then v else if off % 8 = 0 then BitVec.ofNat 64 (bitf v 0 32) else BitVec.ofNat 64 (bitf v 32 32)
    (s.setRing k { r with unseen := 0 }).send (.backValue k v)
  else s.send (.backValue k 0)

/-- BAR2_READ_BACK. -/
def execBar2ReadBack (off size : Nat) (s : State) : Host.Outcome State Fault Refusal := .next (s.readBack off size)

/-! ## Near rings (R66) -/

/-- NEAR_RING_ANNOUNCEMENT (R66), on a fabric port in service (R21), whose credit returns (R23). An announcement for a DISABLED near ring,
which Table 17 ignores, is
counted like one for a ring that is not near (log entry 101). -/
def State.nearAnnounce (s0 : State) (port k : Nat) (v : BitVec 32) : State :=
  let r := s0.ring k
  let s := s0.send (.credit port false 1)
  if !(s0.fabUp port) then s0
  else if decide (k < Member.rings s.fuses.member) && !(Ring.isHost r) && r.state != .disabled then s.newIndex k v
  else s.count Ctr.announceIgnored

/-- NEAR_RING_ANNOUNCEMENT. -/
def execNearRingAnnouncement (ring : OnPort Nat) (idx : BitVec 32) (s : State) : Host.Outcome State Fault Refusal :=
  .next (s.nearAnnounce ring.port ring.val idx)

end Sys2Proof.Machine
end

