-- ==== Sys2Proof/Machine/Authority.lean ====
section
/-!
DEFINITION. CRH_EYELET_BASE (R52) and the authority block: CRH_AUTH_POLICY and CRH_MAKER_CTL (R437, R438, R440).
-/

namespace Sys2Proof.Machine

/-! ## CRH_EYELET_BASE (R52) -/

/-- Lines that some ring of the block belongs to, or that are held, ascending. -/
def State.linesNamed (s : State) : List Nat :=
  sortBy (fun a b => decide (a ≤ b)) (dedup (s.fe.rings.map (fun e => e.1 / 8) ++ s.fe.lines.map (·.1)))

/-- The held lines are taken in a new array before the old array's are released; each word is compared with its ring's index. -/
def State.moveLines (s : State) : State :=
  let l := s.fe.lines
  (State.forEach (fun s e => s.takeLine e.1 e.2.port []) l s).sendAll (l.map fun e => .cleanEvict e.2.port e.1 e.2.addr)

/-- EYELET_BASE_WRITE: a new array, or eyelet tracking on or off. -/
def State.eyeletWrite (s : State) (p : Path) (off size : Nat) (val : Word64) : State :=
  s.regWrite p off size val Reg.eyeletBase 1 fun s old new =>
    let s1 := regPut s p Reg.eyeletBase new
    if bitb old 0 && bitb new 0 then (if old = new then s1 else s1.moveLines)
    else State.forEach State.fitLine s1.linesNamed s1

/-- EYELET_BASE_WRITE. -/
def execEyeletBaseWrite (p : Path) (off size : Nat) (val : Word64) (s : State) : Host.Outcome State Fault Refusal :=
  .next (s.eyeletWrite p off size val)

/-! ## The authority block (R438) -/

/-- The highest debug level that DEBUG_ALLOWED grants: 3 acts as 2 (R437). -/
def debugAllowed (policy : Word64) : Nat := min 2 (bitf policy 5 2)

/-- Close the debug access bus; the closure is audited (R440). -/
def State.closeDebug (s : State) : State := (s.onSt fun t => { t with debug := 0 }).auditHw 0x800F Reg.authPolicy

/-- A new CRH_AUTH_POLICY is stored in boot flash and applied; a bus open above the new DEBUG_ALLOWED closes. -/
def State.setPolicy (s : State) (v : Word64) : State :=
  let s1 := s.onSt fun t => { t with policy := v, flashPol := v }
  if debugAllowed v < s1.st.debug then s1.closeDebug else s1

/-- What the test access port's instruction selects while maker authority has not opened it (R36, JTAG_OPEN of CRH_MAKER_CTL):
identification, where it was boundary scan or an instrument network. -/
def Tap.under (t : Tap) (opened : Bool) : Tap :=
  if opened || t.instr == .ident || t.instr == .bypass then t else { t with instr := .ident }

/-- The next state of the test access port at a rising edge of TCK, by TMS (IEEE 1149.1, R36). -/
def TapState.next (tms : Bool) : TapState → TapState
  | .testLogicReset => if tms then .testLogicReset else .runTestIdle
  | .runTestIdle => if tms then .selectDr else .runTestIdle
  | .selectDr => if tms then .selectIr else .captureDr
  | .captureDr => if tms then .exit1Dr else .shiftDr
  | .shiftDr => if tms then .exit1Dr else .shiftDr
  | .exit1Dr => if tms then .updateDr else .pauseDr
  | .pauseDr => if tms then .exit2Dr else .pauseDr
  | .exit2Dr => if tms then .updateDr else .shiftDr
  | .updateDr => if tms then .selectDr else .runTestIdle
  | .selectIr => if tms then .testLogicReset else .captureIr
  | .captureIr => if tms then .exit1Ir else .shiftIr
  | .shiftIr => if tms then .exit1Ir else .shiftIr
  | .exit1Ir => if tms then .updateIr else .pauseIr
  | .pauseIr => if tms then .exit2Ir else .pauseIr
  | .exit2Ir => if tms then .updateIr else .shiftIr
  | .updateIr => if tms then .selectDr else .runTestIdle

/-- What an instruction selects, by its number in Config. -/
def TapInstr.ofNum : Nat → TapInstr
  | 0 => .ident | 2 => .boundary | 3 => .instrument | _ => .bypass

def TapInstr.num : TapInstr → Nat
  | .ident => 0 | .bypass => 1 | .boundary => 2 | .instrument => 3

/-- TDO while the port shifts; it is high-impedance in every other state. -/
def Tap.tdo (t : Tap) : Option Bool :=
  match t.st with
  | .shiftDr => t.dr.head?
  | .shiftIr => t.ir.head?
  | _ => none

/-- One rising edge of TCK: the action of the state that it leaves, then the next state; `opened` is JTAG_OPEN (R36; log entry 122). -/
def Tap.clock (opened tms tdi : Bool) (t : Tap) : Tap :=
  let a : Tap := match t.st with
    | .captureDr => { t with dr := if t.instr = .bypass then [false] else Sys2Proof.Config.tapCapture t.instr.num }
    | .shiftDr => { t with dr := t.dr.drop 1 ++ [tdi] }
    | .captureIr => { t with ir := Sys2Proof.Config.tapCapture 4 }
    | .shiftIr => { t with ir := t.ir.drop 1 ++ [tdi] }
    | .updateIr => ({ t with instr := .ofNum (Sys2Proof.Config.tapDecode t.ir) } : Tap).under opened
    | _ => t
  let n := a.st.next tms
  if n = .testLogicReset then { st := n } else { a with st := n }

/-- Five edges of TCK with TMS high, whatever stands on TDI: Test-Logic-Reset from every state, as TRST# has it (R373). -/
def Tap.reset (t : Tap) : Tap := (List.range 5).foldl (fun t _ => t.clock false true false) t

/-- The test access port follows JTAG_OPEN. -/
def State.tapFit (s : State) : State := s.onPw fun w => { w with tap := w.tap.under (bitb s.st.makerCtl 0) }

/-- One authority write is audited and applied, or refused with AUDIT_FULL (R399, R438); the debug path's record is made already. -/
def State.authApply (s : State) (p : Path) (reg : Nat) (val : Word64) (run : State → State) : State :=
  if p = .dbg then run s
  else if s.auditFull then s.auditReg p reg 8 val
  else run (s.auditReg p reg 0 val)

/-- Core 0 carries out one write. -/
def State.authRun (s : State) (p : Path) (off size : Nat) (val : Word64) : State :=
  if off / 8 * 8 = Reg.authPolicy then
    s.regWrite p off size val Reg.authPolicy 2 fun s _ new => s.authApply p Reg.authPolicy new fun s => s.setPolicy new
  else if off / 8 * 8 = Reg.makerCtl then
    s.regWrite p off size val Reg.makerCtl 3 fun s _ new => s.authApply p Reg.makerCtl new fun s => (regPut s p Reg.makerCtl new).tapFit
  else s

/-- AUTHORITY_WRITE: core 0 carries it out at once, or it waits while core 0 restarts, up to 16 of them (R438). -/
def State.authWrite (s : State) (p : Path) (off size : Nat) (val : Word64) : State :=
  let reg := off / 8 * 8
  if reg ≠ Reg.authPolicy && reg ≠ Reg.makerCtl then s
  else if s.gate p reg 1 = .absent then s
  else if s.gate p reg 1 = .shut then s.shutOut
  else if s.roleUp 0 then s.authRun p off size val
  else if s.st.authWait.length < 16 then s.onSt fun t => { t with authWait := t.authWait ++ [(p, off, size, val)] }
  else s.ignoreWrite

/-- The authority writes that waited for core 0, in the order in which they arrived. -/
def State.authDrain (s : State) : State :=
  State.forEach (fun s w => s.authRun w.1 w.2.1 w.2.2.1 w.2.2.2) s.st.authWait (s.onSt fun t => { t with authWait := [] })

/-- AUTHORITY_WRITE. -/
def execAuthorityWrite (p : Path) (off size : Nat) (val : Word64) (s : State) : Host.Outcome State Fault Refusal :=
  .next (s.authWrite p off size val)

end Sys2Proof.Machine
end

