-- ==== Sys2Proof/Machine/Contexts.lean ====
section
/-!
DEFINITION. Contexts and segments: CRH_CTX_CFG (R88 to R90, R229), CRH_SEG_INVAL (R96, R97), and the mirror (R91, R96).
-/

namespace Sys2Proof.Machine

/-! ## CRH_CTX_CFG -/

/-- The bits of CLASS, PRI_EN and PASID, which change only while EN is 0 (R89). -/
def ctxHeld : Nat := 0xFFFFF0000000A

/-- The value that a write leaves in CRH_CTX_CFG, and whether it tried to change a held field (R89). -/
def ctxTake (old new : Word64) : Word64 × Bool :=
  if bitb old 0 && decide (old.toNat &&& ctxHeld ≠ new.toNat &&& ctxHeld) then
    (BitVec.ofNat 64 (mergeBits new.toNat old.toNat ctxHeld), true)
  else (new, false)

/-- A context's drift window starts afresh with the settings in force (R229). -/
def State.freshDrift (s : State) : Drift :=
  { win := clampN (bitf (s.cfg Reg.qdriftCtl) 0 6) 16 40, satLim := bitf (s.cfg Reg.qdriftLim) 0 32,
    underLim := bitf (s.cfg Reg.qdriftLim) 32 32 }

/-- Setting EN to 1 drops the context's segment-cache entries and its PASID's translation-cache entries, of which those that descriptors
pin serve these to their completion (R90), and restarts its drift window (R229). -/
def State.enterCtx (s : State) (c : Nat) : State :=
  let pasid := s.ctxPasid c
  let s1 := s.onXl fun x => { x.retire (fun e => e.pasid == pasid) with segs := x.segs.filter fun e => e.ctx != c }
  s1.onQz fun q => { q with drift := mset q.drift c s1.freshDrift }

/-- CTX_CFG_WRITE (R88, R89, R90). -/
def State.ctxWrite (s : State) (p : Path) (off size : Nat) (val : Word64) : State :=
  s.regWrite p off size val Reg.ctxCfg 1 fun s old new =>
    let c := bitf (s.own p Reg.ctxSel) 0 12
    let t := ctxTake old new
    let s1 := if t.2 then s.count Ctr.cfgIgnored else s
    let s2 := { s1 with ctxCfg := mset s1.ctxCfg c t.1 }
    if bitb t.1 0 && !(bitb old 0) then s2.enterCtx c else s2

/-- CTX_CFG_WRITE. -/
def execCtxCfgWrite (p : Path) (off size : Nat) (val : Word64) (s : State) : Host.Outcome State Fault Refusal :=
  .next (s.ctxWrite p off size val)

/-! ## CRH_SEG_INVAL (R96, R97) -/

/-- GO is bit 39, RESULT bits [47:40]. -/
def State.invalDone (s : State) (p : Path) (result : Nat) : State :=
  regPut s p Reg.segInval (putf (putf (regGet s p Reg.segInval) 39 1 0) 40 8 result)

/-- Drop a context's cached entries of the segments in a mask; a mirror read in flight is made again, and the block that it had asked for
is discarded (R97). -/
def State.dropSegs (s : State) (c mask : Nat) : State :=
  let s1 := s.onXl fun x =>
    { x with segs := x.segs.filter fun e => !(e.ctx == c && mask / 2 ^ e.seg % 2 == 1) }
  match s1.xl.mirror.find? fun m => m.1 == c with
  | some m => if s1.drvFails 2 then s1 else (s1.onXl fun x => { x with mirrorOld := x.mirrorOld ++ [m] }).readMirror c m.2
  | none => s1

/-- INVAL and INVAL_DRAIN start alike: OP and GO are written. -/
def State.segCmd (s : State) (p : Path) (op : Nat) (val : Word64) (run : State → Nat → Nat → State) : State :=
  s.command p Reg.segInval 39 1 false none (putf (putf val 32 3 op) 39 1 1) fun s =>
    let v := regGet s p Reg.segInval
    let c := bitf v 0 12
    if !(s.ctxEn c) then s.invalDone p 2 else run s c (bitf v 16 16)

/-- INVAL: what is pricked from now on uses the new entries. -/
def execInval (p : Path) (val : Word64) (s : State) : Host.Outcome State Fault Refusal :=
  .next (s.segCmd p 1 val fun s c mask => (s.dropSegs c mask).invalDone p 0)

/-- Descriptors pricked against one of a context's segments in a mask. -/
def State.pricked (s : State) (c mask : Nat) : List Nat :=
  (s.fe.descs.filter fun d => d.resv != 0 && d.ctx == c && d.ranges.any fun r => r.pieces.any fun q => mask / 2 ^ q.sg % 2 == 1).map (·.id)

/-- INVAL_DRAIN: also waits until every descriptor pricked against an old entry has completed. -/
def execInvalDrain (p : Path) (val : Word64) (s : State) : Host.Outcome State Fault Refusal :=
  .next (s.segCmd p 2 val fun s c mask =>
    let s1 := s.dropSegs c mask
    let w := s1.pricked c mask
    if w.isEmpty then s1.invalDone p 0 else s1.onXl fun x => { x with drain := some (c, mask, w) })

/-! ## The mirror block (R91, R96, R102) -/

/-- The lower-numbered of some segments that overlap one of them (R92). -/
def SegEntry.under (gs : List SegEntry) (g : SegEntry) : SegEntry :=
  let low := gs.filter fun f => decide (f.seg < g.seg ∧ f.start < g.start + g.len ∧ g.start < f.start + f.len)
  { g with beneath := low.map fun f => (f.seg, f.start, f.len) }

/-- Fill the segment cache from a mirror block, and count invalid TARGET values. -/
def State.fillSegs (s : State) (c : Nat) (block : Bytes) : State :=
  let all := (List.range 16).map fun i => mirrorEntry c i block
  let es := all.map fun e => (e.1.map fun g => g.under (all.filterMap (·.1)), e.2)
  let s1 := s.onXl fun x => { x with segs := x.segs.filter fun e => e.ctx != c }
  let s2 := State.forEach (fun s e => match e.1 with
    | some g => s.onXl fun x => x.putSeg g
    | none => s) es s1
  s2.countN Ctr.cfgIgnored (es.filter (·.2)).length

/-- MIRROR_READ_RETURN: the block fills entries, and the descriptors that wait for it are pricked on. One that was read before an INVAL is
discarded (R97). -/
def State.mirrorReturn (s : State) (c : Nat) (block : Bytes) : State :=
  if s.xl.mirrorOld.any fun m => m.1 == c then s.onXl fun x => { x with mirrorOld := x.mirrorOld.eraseP (fun m => m.1 == c) }
  else if !(s.mirrorOut c) then s
  else
    let s1 := (s.onXl fun x => { x with mirror := x.mirror.filter fun m => m.1 != c }).fillSegs c block
    let ds := s1.fe.descs.filter fun d => d.mirror && d.ctx == c
    let s2 := s1.onFe fun f =>
      { f with descs := f.descs.map fun d => if d.mirror && d.ctx == c then { d with mirror := false, seen := true } else d }
    State.forEach (fun s d => s.prick d.id) ds s2

/-- MIRROR_READ_RETURN. -/
def execMirrorReadReturn (ctx : Nat) (block : Bytes) (s : State) : Host.Outcome State Fault Refusal :=
  .next (s.mirrorReturn ctx block)

end Sys2Proof.Machine
end

