-- ==== Sys2Proof/Machine/Output.lean ====
section
/-!
DEFINITION. The output stage of one bag: output formats, headers, saturation, underflow and scale range (R218 to R225).
-/

namespace Sys2Proof.Machine

/-- Output formats (Table 59). -/
inductive OutFmt where
  | fp32 | bf16 | fp8Bag | int8Bag | fp8Cal | int8Cal
  deriving DecidableEq, Repr

def outFmtOf : Nat → OutFmt
  | 0 => .fp32 | 1 => .bf16 | 2 => .fp8Bag | 3 => .int8Bag | 4 => .fp8Cal | _ => .int8Cal

def OutFmt.isBag : OutFmt → Bool
  | .fp8Bag => true | .int8Bag => true | _ => false

def OutFmt.isFp8 : OutFmt → Bool
  | .fp8Bag => true | .fp8Cal => true | _ => false

def OutFmt.headed : OutFmt → Bool
  | .fp32 => false | .bf16 => false | _ => true

/-- Qmax as FP32: 448 or 127. -/
def OutFmt.qmax (f : OutFmt) : F32 := if f.isFp8 then 0x43E00000#32 else 0x42FE0000#32

/-- One element's code, whether it saturated and whether it underflowed, taken as a CAL conversion (R221, R222, R225). -/
structure Code where
  byte  : Byte
  sat   : Bool
  under : Bool
  deriving DecidableEq, Repr

/-- A finite value to E4M3; an underflowed element is code 0 (R225; log entry 70). -/
def fp8Code (ties : Bool) (v : F32) : Code :=
  let neg := v.getLsbD 31
  let p := finParts v
  let b := e4m3Mag ties p.2.1 p.2.2
  let sign := if neg then 0x80 else 0
  if b > 0x7E then ⟨BitVec.ofNat 8 (0x7E + sign), true, false⟩
  else if b = 0 && !(fIsZero v) then ⟨0, false, true⟩
  else ⟨BitVec.ofNat 8 (b + sign), false, false⟩

/-- A finite value to a signed integer of magnitude 127 at most; it saturates where its rounding passes 127 (R222; log entry 114). -/
def int8Code (ties : Bool) (v : F32) : Code :=
  let p := finParts v
  let n := roundInt ties p.2.1 1 p.2.2
  let m := min n 127
  ⟨BitVec.ofNat 8 (if p.1 then (256 - m) % 256 else m), decide (n > 127), n == 0 && !(fIsZero v)⟩

/-- The code of an element of a BAG format: the plain conversion, which keeps the sign of a zero (R210, R220). -/
def bagByte (f : OutFmt) (ties : Bool) (v : F32) : Byte := if f.isFp8 then (toFp8 ties v).1 else (int8Code ties v).byte

def codeOf (f : OutFmt) (ties : Bool) (v : F32) : Code := if f.isFp8 then fp8Code ties v else int8Code ties v

/-- A 16-byte header (Table 60). -/
def outHead (scale : F32) (wide sat under range : Bool) : Bytes :=
  leBytes 4 scale.toNat ++ leBytes 4 (b2n wide + 2 * b2n sat + 4 * b2n under + 8 * b2n range) ++ List.replicate 8 0

/-- One bag as written: its bytes, and what it counts. -/
structure OutRow where
  bytes  : Bytes
  wide   : Bool := false
  sat    : Nat := 0                -- saturated elements
  under  : Nat := 0                -- underflowed elements
  range  : Bool := false           -- it met the scale-range condition
  nonfin : Bool := false           -- written under R223
  ov     : Bool := false           -- a BF16 result rounded past the range (R218)
  elems  : List (Bool × Bool) := []  -- each element's saturation and underflow, for headed formats
  deriving DecidableEq, Repr

def f32One : F32 := 0x3F800000#32

def subnormalOrZero (a : F32) : Bool := a.toNat / 2 ^ 23 % 256 == 0

/-- The largest magnitude of a list, as a positive value. -/
def maxMag : List F32 → F32
  | [] => 0#32
  | a :: t => let m := maxMag t; if fmag m < fmag a then a &&& 0x7FFFFFFF#32 else m

/-- The largest finite FP32 value. -/
def f32Max : F32 := 0x7F7FFFFF#32

/-- A headed row of finite values. -/
def headedRow (f : OutFmt) (ties clsS : Bool) (vs : List F32) : OutRow :=
  let wideBytes := outHead f32One true false false false ++ vs.flatMap fun v => leBytes 4 v.toNat
  if f.isBag then
    let m := maxMag vs
    let none' := vs.map fun _ => (false, false)
    if fIsZero m then { bytes := outHead 0#32 false false false false ++ vs.map (fun _ => 0), elems := none' }
    else
      let scale := fdiv ties m f.qmax
      let q := fdivO ties f.qmax m
      let r := if fIsInf q.1 then f32Max else q.1
      let range := subnormalOrZero scale
      if range && !clsS then { bytes := wideBytes, wide := true, range := true, elems := none' }
      else
        { bytes := outHead scale false false false range ++ vs.map (fun v => bagByte f ties (fmul ties v r))
          range := range, elems := none' }
  else
    let cs := vs.map (codeOf f ties)
    let sat := (cs.filter (·.sat)).length
    let under := (cs.filter (·.under)).length
    let live := (vs.filter fun v => !fIsZero v).length
    let range := live != 0 && under == live
    let es := cs.map fun c => (c.sat, c.under)
    if !clsS && (sat != 0 || range) then { bytes := wideBytes, wide := true, sat := sat, under := under, range := range, elems := es }
    else
      { bytes := outHead f32One false (clsS && sat != 0) (clsS && under != 0) (clsS && range) ++ cs.map (·.byte)
        sat := sat, under := under, range := range, elems := es }

/-- One bag's rescaled values as its output row. -/
def outRow (f : OutFmt) (ties clsS : Bool) (vs : List F32) : OutRow :=
  match f with
  | .fp32 => { bytes := vs.flatMap fun v => leBytes 4 v.toNat }
  | .bf16 => { bytes := vs.flatMap fun v => leBytes 2 (toBf16 ties v).1.toNat, ov := vs.any fun v => (toBf16 ties v).2 }
  | f =>
    if vs.any fun v => !fFinite v then
      { bytes := outHead qnan false false false false ++ vs.map (fun _ => 0), nonfin := true, elems := vs.map fun _ => (false, false) }
    else headedRow f ties clsS vs

end Sys2Proof.Machine
end

