-- ==== Sys2Proof/Machine/Windows.lean ====
section
/-!
DEFINITION. The bobbinet up to the sort: admission (R153 to R156), windows (R157, R158), intake and its checks (R150 to R152, R171 to
R178, R239), and the lists (R160 to R163).
-/

namespace Sys2Proof.Machine

/-! ## Settings (R168) -/

def State.packDesc (s : State) : Nat := clampN (bitf (s.cfg Reg.sortCtl) 0 8) 1 64
def State.packKeys (s : State) : Nat := min (bitf (s.cfg Reg.sortCtl) 8 8) 64 * 64

/-- Keys that one window may hold on die (R154, R159). -/
def dieKeys : Nat := 262144

/-- Entries of the window queue (R157). -/
def windowCap : Nat := 256

/-! ## Admission -/

/-- A packable descriptor (R154). -/
def State.packable (s : State) (d : Desc) : Bool :=
  (d.opc == 1 || d.opc == 2) && decide (s.packDesc ≠ 1) && decide (s.packKeys ≠ 0 ∧ d.count ≤ s.packKeys)

def Window.keyCount (w : Window) : Nat := sumBy (·.count) w.members

/-- Close the open packed window: it waits in the order in which its first descriptor was admitted. -/
def SortPool.close (x : SortPool) : SortPool :=
  match x.open' with
  | none => x
  | some w => { x with open' := none, queue := insSorted (fun a b => decide (a.wid ≤ b.wid)) w x.queue }

/-- A packable descriptor joins the open window, where it fits (R154). -/
def SortPool.joins (x : SortPool) (n : Nat) : Bool :=
  match x.open' with
  | some w => decide (w.keyCount + n ≤ dieKeys)
  | none => false

/-- Room in the window queue for one more window. -/
def SortPool.room (x : SortPool) : Bool := decide (x.queue.length + x.open'.toList.length < windowCap)

/-- Put a descriptor into a window; the flag says that the window queue had room (R154, R157). -/
def State.enterWindow (s : State) (m : Member') (pack : Bool) : State × Bool :=
  let x := s.sp
  if !x.room then (s, false)
  else if pack && x.joins m.count then
    let o := x.open'.map fun w => { w with members := w.members ++ [m] }
    let x1 := { x with open' := o }
    let full := (x1.open'.map fun w => decide (s.packDesc ≤ w.members.length)).getD false
    ({ s with sp := if full then x1.close else x1 }, true)
  else
    let w : Window := { wid := x.nextWid, packed := pack, members := [m] }
    if pack then ({ s with sp := { x.close with open' := some w, nextWid := x.nextWid + 1 } }, true)
    else ({ s with sp := { x with queue := x.queue ++ [w], nextWid := x.nextWid + 1 } }, true)

/-- Bind a descriptor to the active rescale bank (R215). -/
def State.bindBank (s : State) (id : Nat) : State := s.onDesc id fun d => { d with bank := s.qz.active, bound := true }

/-- VER names a version of TBL: a lookup's or a ROWS-form scatter's (R136). -/
def Desc.namesVer (d : Desc) : Bool := d.opc != 0x18 && d.verField != 0

/-- A descriptor that needs slices is admitted while a slice group is gated: PMH_STEP_REQ is raised (R368). -/
def State.wakeSlices (s : State) (d : Desc) : State :=
  if (d.opc = 1 || d.opc = 2) && !s.pw.gated.isEmpty && !s.pw.stepReq then (s.onPw fun w => { w with stepReq := true }).send .stepReq else s

/-- Admit a descriptor to the bobbinet: its stamp, the tables as they stand, and the version VER names (R156). -/
def State.admitWindow (s : State) (d : Desc) : State :=
  let m : Member' := { id := d.id, snap := s.tb.tables, fwd := s.fwdCfg, count := d.count }
  let r := s.enterWindow m (s.packable d)
  if !r.2 then s
  else
    let stamp := s.fe.stamp
    let s1 := r.1.onFe fun f => { f with stamp := stamp + 1 }
    let s2 := s1.onDesc d.id fun x =>
      { x with stage := .window, stamp := stamp, binds := if d.namesVer then [(d.tbl, d.verField)] else [] }
    (if d.opc = 1 || d.opc = 2 then s2.bindBank d.id else s2).wakeSlices d

/-- A version named in VER cannot be bound (R136). -/
def State.verGone (s : State) (d : Desc) : Bool :=
  d.namesVer && !((s.table d.tbl).any fun t => t.bindable d.verField)

/-! ## Keys (R150, R151, R175) -/

/-- 32-bit keys of TBL. PREFETCH uses 64-bit keys always. -/
def Desc.narrowKeys (d : Desc) : Bool := d.key32 && d.opc != 0x18

def Desc.keyWidth (d : Desc) : Nat := if d.narrowKeys then 4 else 8

/-- One widened key; none is the null key. -/
def Desc.widen (d : Desc) (w : Nat) : Option Key :=
  if d.narrowKeys then (if w = 0xFFFFFFFF then none else some (keyOf d.tbl w))
  else if w = nullKey.toNat then none else some (BitVec.ofNat 64 w)

/-- Keys given inline (R175). -/
def Desc.inlineKeys (d : Desc) : Bool := (d.opc == 1 || d.opc == 2) && d.src == 0

/-- A weighted gather. -/
def Desc.hasWeights (d : Desc) : Bool := (d.opc == 1 || d.opc == 2) && d.weighted

/-- The bag format that places keys: one bag for PREFETCH ROW_LIST, one for each key in a GATHER_SEQ and a scatter. -/
def Desc.bagOf (d : Desc) (i : Nat) : Nat :=
  if d.opc = 0x18 then 0
  else if d.opc = 1 then (if d.bags = 0 then 0 else i / (d.count / d.bags))
  else i

/-- Bags that a descriptor's pairs lie in. -/
def Desc.bagCount (d : Desc) : Nat := if d.opc = 0x18 then 1 else if d.opc = 1 then d.bags else d.count

/-- The bytes from which keys, offsets or identifiers, and weights come. -/
def Desc.keyFeed (d : Desc) (f : WinFeed) : Feed :=
  if d.inlineKeys then { data := d.payload } else d.clip .input (if d.hasExt then 1 else 0) f.keys

def Desc.offFeed (d : Desc) (f : WinFeed) : Feed := d.clip .input 2 f.offs

def Desc.wgtFeed (d : Desc) (f : WinFeed) : Feed :=
  if d.inlineKeys then { data := d.payload.drop (d.count * d.keyWidth) }
  else d.clip .input (2 + (if d.offWords = 0 then 0 else 1)) f.wgt

/-! ## Checks (R152, R176, R178, R239) -/

/-- Why intake stops a descriptor: status, DETAIL, DONE and INFO, and whether R152 counts it. -/
structure Stop where
  status : BitVec 8
  detail : Nat := 0
  done   : Nat := 0
  info   : Word64 := 0
  key    : Bool := false
  bad    : Bool := false             -- a host input came back bad on both reads (R411)
  deriving DecidableEq, Repr

/-- The version of a table that a descriptor binds (R156); 0 is none. -/
def Desc.verOf (d : Desc) (snap : SMap Table) (h : Nat) : Nat :=
  if d.namesVer && h == d.tbl then d.verField
  else (((mget snap h).bind Table.current).map (·.ver)).getD 0

/-- A handle with an enabled forward entry, for a scatter (R239). -/
def Member'.forwards (m : Member') (d : Desc) (h : Nat) : Bool :=
  d.opc == 3 && m.fwd.any fun e => bitb e.2 48 && bitf e.2 0 16 == h

/-- The check of key i (Table 41, R178, R239). -/
def keyCheck (d : Desc) (m : Member') (dim : Nat) (i : Nat) (k : Option Key) : Option Stop :=
  match k with
  | none => none
  | some k =>
    let h := keyTbl k
    let pos := BitVec.ofNat 64 i
    if m.forwards d h then none
    else match mget m.snap h with
      | none => some { status := St.badKey, detail := 1, info := pos, key := true }
      | some t =>
        if !(if d.opc = 3 then t.ctx == d.ctx else t.readable d.ctx) then
          some { status := St.badKey, detail := 2, info := pos, key := true }
        else if d.opc = 3 && !t.upd then some { status := St.badFormat, detail := 7, info := pos }
        else if keyRow k ≥ t.rows then some { status := St.badKey, detail := 3, info := pos, key := true }
        else if d.verOf m.snap h = 0 then some { status := St.versionGone, detail := 4, info := pos, key := true }
        else if t.dirBad then some { status := St.dataError, info := k }
        else if (d.opc = 1 || d.opc = 2) && t.dim ≠ dim then some { status := St.badFormat, detail := 11, info := pos }
        else none

/-- What intake has taken: keys and bags in key-list order, or why it stopped after how many keys. -/
structure Intake where
  keys : List (Option Key) := []
  bags : List Nat := []
  stop : Option Stop := none
  deriving DecidableEq, Repr

/-- The fault of an input range, as intake meets it (Table 29). -/
def inputStop (f : Feed) : Stop :=
  { status := if f.status = St.ok then St.pageFault else f.status, done := f.data.length, info := f.addr, bad := f.status == St.dataError }

/-- Take keys from position i on, n of them, each placed by `bag` and checked; `word` is the check that comes just before key i. -/
def takeKeys (d : Desc) (m : Member') (dim : Nat) (kf : Feed) (word : Nat → Option Stop) (bag : Nat → Nat) :
    Nat → Nat → Bytes → Intake → Intake
  | 0, _, _, acc => acc
  | n + 1, i, b, acc =>
    if acc.stop.isSome then acc
    else match word i with
      | some st => { acc with stop := some st }
      | none =>
        if b.length < d.keyWidth then { acc with stop := some (inputStop kf) }
        else
          let k := d.widen (ofLE (b.take d.keyWidth))
          match keyCheck d m dim i k with
          | some st => { acc with stop := some st }
          | none => takeKeys d m dim kf word bag n (i + 1) (b.drop d.keyWidth)
              { acc with keys := k :: acc.keys, bags := bag i :: acc.bags }

/-- A word of an offsets or identifiers feed; none where the feed ends before it. -/
def wordAt (f : Feed) (i : Nat) : Option Nat := if f.data.length < 4 * i + 4 then none else some (field f.data (4 * i) 4)

/-- The check of a bag identifier (R176). -/
def idCheck (d : Desc) (f : Feed) (i : Nat) : Option Stop :=
  match wordAt f i with
  | none => some (inputStop f)
  | some w => if w < d.bags then none else some { status := St.badFormat, detail := 4, info := BitVec.ofNat 64 i }

/-- The check of offset word b against the word before it (R176). -/
def offCheck (d : Desc) (f : Feed) (prev b : Nat) : Option Stop :=
  match wordAt f b with
  | none => some (inputStop f)
  | some w =>
    if d.count < w || w < prev || (b == 0 && w != 0) || (b == d.bags && w != d.count) then
      some { status := St.badFormat, detail := 3, info := BitVec.ofNat 64 b }
    else none

/-- Take keys bag by bag, word b + 1 being checked before the first key of bag b (R176); the fuel counts the bags. -/
def takeOffsets (d : Desc) (m : Member') (dim : Nat) (kf off : Feed) : Nat → Nat → Bytes → Intake → Intake
  | 0, _, _, acc => acc
  | n + 1, b, bytes, acc =>
    if acc.stop.isSome then acc
    else
      let lo := (wordAt off b).getD 0
      match offCheck d off lo (b + 1) with
      | some st => { acc with stop := some st }
      | none =>
        let hi := (wordAt off (b + 1)).getD 0
        let acc1 := takeKeys d m dim kf (fun _ => none) (fun _ => b) (hi - lo) lo bytes acc
        takeOffsets d m dim kf off n (b + 1) (bytes.drop ((hi - lo) * d.keyWidth)) acc1

/-- Intake of one descriptor's keys (R152, R176). -/
def intakeOf (d : Desc) (m : Member') (dim : Nat) (f : WinFeed) : Intake :=
  let kf := d.keyFeed f
  let off := d.offFeed f
  let r :=
    if d.opc = 1 && d.bagfmt = 1 then
      (match offCheck d off 0 0 with
       | some st => { stop := some st }
       | none => takeOffsets d m dim kf off d.bags 0 kf.data {})
    else if d.opc = 1 && d.bagfmt = 2 then
      takeKeys d m dim kf (idCheck d off) (fun i => (wordAt off i).getD 0) d.count 0 kf.data {}
    else takeKeys d m dim kf (fun _ => none) d.bagOf d.count 0 kf.data {}
  { r with keys := r.keys.reverse, bags := r.bags.reverse }

/-- A descriptor's weights, after its keys. -/
def weightsOf (d : Desc) (f : WinFeed) : List F32 × Option Stop :=
  if !d.hasWeights then ([], none)
  else
    let w := d.wgtFeed f
    let n := w.data.length / 4
    if n < d.count then ([], some (inputStop w)) else ((leWords 4 d.count w.data).map (BitVec.ofNat 32 ·), none)

/-! ## Reservation (R158) -/

/-- Window area that a descriptor's window reserves for it. A packed window's reservation is rounded up to 4 KiB granules descriptor by
descriptor, not once for the window: R158 says only that reservations are made in granules (DESIGN CHOICE; log entry 33). -/
def resvBytes (d : Desc) (spill : Bool) : Nat :=
  granules ((if d.hasWeights then 24 else 20) * d.count + (if spill then 8 * d.count else 0)) * 4096

def State.winUsed (s : State) : Nat := sumBy (·.2) s.sp.resvd + sumBy (·.bytes) s.sp.kept

def Window.spills (w : Window) : Bool := decide (dieKeys < w.keyCount)

/-- A window's descriptors with their members. -/
def State.descsOf (s : State) (ms : List Member') : List (Desc × Member') := ms.filterMap fun m => (s.desc m.id).map fun d => (d, m)

def State.windowNeed (s : State) (w : Window) : Nat := sumBy (fun e => resvBytes e.1 w.spills) (s.descsOf w.members)

/-- Lists that would be kept (R164): a class T gather with a key of a table with UPD 1. -/
def keepsLists (d : Desc) (snap : SMap Table) (keys : List (Option Key)) : Bool :=
  (d.opc == 1 || d.opc == 2) && !d.clsS && keys.any fun k => match k with
    | some k => (mget snap (keyTbl k)).any (·.upd)
    | none => false

/-- Sets of lists kept, or to be kept by windows that have started. -/
def State.keptCount (s : State) : Nat :=
  s.sp.kept.length + ((s.sp.sorters.flatMap fun w => w.2.members).filter fun m => match s.desc m.id with
    | some d => keepsLists d m.snap m.keys
    | none => false).length

/-- Keys of a feed, unchecked. -/
def rawKeys (d : Desc) (f : WinFeed) : List (Option Key) :=
  let b := (d.keyFeed f).data
  (leWords d.keyWidth (min d.count (b.length / d.keyWidth)) b).map d.widen

/-- What a command brings of a descriptor's keys, offsets and weights. -/
def feedOf (feeds : List (Nat × WinFeed)) (id : Nat) : WinFeed :=
  ((feeds.find? fun f => f.1 == id).map (·.2)).getD ⟨{ data := [] }, { data := [] }, { data := [] }⟩

/-- A window's reservation can be made now (R157, R158, R164). -/
def State.canReserve (s : State) (w : Window) (feeds : List (Nat × WinFeed)) : Bool :=
  let keepers := ((s.descsOf w.members).filter fun e => keepsLists e.1 e.2.snap (rawKeys e.1 (feedOf feeds e.1.id))).length
  decide (s.winUsed + s.windowNeed w ≤ s.winUnits * unitBytes) && decide (keepers = 0 ∨ s.keptCount + keepers ≤ 65536)

/-- Make a window's reservation, descriptor by descriptor. -/
def State.reserveWindow (s : State) (w : Window) : State :=
  s.onSp fun x =>
    { x with
      resvd := (s.descsOf w.members).foldl (fun r e => mset r e.1.id (resvBytes e.1 w.spills)) x.resvd
      queue := x.queue.map fun v => if v.wid = w.wid then { v with reserved := true } else v }

/-! ## Starting a window (R157) -/

/-- The lowest-numbered free sorter. -/
def State.freeSorter (s : State) : Option Nat :=
  (List.range (Member.sorters s.fuses.member)).find? fun k => (mget s.sp.sorters k).isNone

/-- A window that may start: the head, or a later one while at most 64 have started ahead of a head that cannot reserve. -/
def State.nextWindow (s : State) (feeds : List (Nat × WinFeed)) : Option Window :=
  match s.sp.queue with
  | [] => none
  | h :: t =>
    if h.reserved || s.canReserve h feeds then some h
    else if h.passed < 64 then t.find? fun w => w.reserved || s.canReserve w feeds
    else none

/-- A descriptor leaves its window with an outcome found at intake. -/
def State.intakeFail (s : State) (d : Desc) (st : Stop) : State :=
  ((s.endDesc d.id st.status st.detail st.done st.info).countN Ctr.keyFail (b2n st.key)).countN Ctr.inboundBad (2 * b2n st.bad)

/-- Take one descriptor in: its keys are checked, and it binds the versions of the tables its keys name (R152, R156). -/
def State.intakeOne (s : State) (d : Desc) (m : Member') (f : WinFeed) : State × Option Member' :=
  let dim := ((mget m.snap d.tbl).map (·.dim)).getD 0
  let r := intakeOf d m dim f
  let w := weightsOf d f
  let nulls := (r.keys.filter (·.isNone)).length
  let s1 := (s.countN Ctr.keysIn r.keys.length).countN Ctr.keysNull nulls
  match r.stop.or w.2 with
  | some st => (s1.intakeFail d st, none)
  | none =>
    let hs := dedup (r.keys.filterMap fun k => k.map keyTbl)
    let local' := hs.filter fun h => !(m.forwards d h)
    let bs := dedup ((if d.namesVer then [(d.tbl, d.verField)] else []) ++ local'.map fun h => (h, d.verOf m.snap h))
    let ver := if d.opc = 0x18 then 0 else if d.namesVer then d.verField
      else if local'.contains d.tbl then d.verOf m.snap d.tbl else 0
    ((State.forEach State.seeTable hs s1).onDesc d.id fun x => { x with binds := bs, ver := BitVec.ofNat 16 ver },
     some { m with keys := r.keys, bags := r.bags, wgts := w.1 })

/-- Take a window's descriptors in, in order; those that stop are not in the answer. -/
def State.intakeAll (s : State) (feeds : List (Nat × WinFeed)) : List Member' → State × List Member'
  | [] => (s, [])
  | m :: t =>
    let r := match s.desc m.id with
      | some d =>
        let q := s.intakeOne d m (feedOf feeds m.id)
        (q.1.inputsDone m.id, q.2)
      | none => (s, none)
    let z := State.intakeAll r.1 feeds t
    (z.1, r.2.toList ++ z.2)

/-- Start a window on a sorter: its keys are taken in, and what is left of it is sorted. -/
def State.startWindow (s : State) (w : Window) (sorter : Nat) (feeds : List (Nat × WinFeed)) : State :=
  let s1 := if w.reserved then s else s.reserveWindow w
  let s2 := s1.onSp fun x =>
    { x with queue := match x.queue with
        | [] => []
        | h :: t => if h.wid = w.wid then t else { h with passed := h.passed + 1 } :: t.filter fun v => v.wid != w.wid }
  let s3 := s2.tell [.count Ctr.winStarted 1, .count Ctr.winSpilled (b2n w.spills), .count Ctr.winPacked (b2n w.packed),
    .count Ctr.descPacked (if w.packed then w.members.length else 0)]
  let r := s3.intakeAll feeds w.members
  if r.2.isEmpty then r.1
  else r.1.onSp fun x => { x with sorters := mset x.sorters sorter { w with members := r.2, reserved := true } }

/-- A window that restarts after a parity error is taken in again, once its key lists are translated to their ends (R167). -/
def State.takeAgain (s : State) (k : Nat) (feeds : List (Nat × WinFeed)) : State :=
  match (mget s.sp.sorters k).filter (·.retake) with
  | none => s
  | some w =>
    let ds := s.descsOf w.members
    if ds.all fun e => s.inputsIn e.1 then
      let r := s.intakeAll feeds w.members
      r.1.onSp fun x =>
        { x with sorters := if r.2.isEmpty then mdel x.sorters k else mset x.sorters k { w with members := r.2, retake := false } }
    else State.forEach (fun s (e : Desc × Member') => s.readOn e.1.id) ds s

/-- The next window starts on a sorter, once its key lists are translated to their ends (R100). -/
def State.startNext (s : State) (w : Window) (sorter : Nat) (feeds : List (Nat × WinFeed)) : State :=
  let ds := s.descsOf w.members
  if ds.all fun e => s.inputsIn e.1 then s.startWindow w sorter feeds
  else State.forEach (fun s (e : Desc × Member') => s.readOn e.1.id) ds s

/-- The head of the window queue makes its reservation as soon as it can; with a sorter free, the next window starts on it (R157). -/
def State.startHead (s : State) (feeds : List (Nat × WinFeed)) : State :=
  match s.sp.queue with
  | [] => s
  | h :: _ =>
    let s1 := if h.reserved || h.waited || s.canReserve h feeds then s
      else (s.onSp fun x => { x with queue := x.queue.map fun v => if v.wid = h.wid then { v with waited := true } else v }).count Ctr.resvWait
    match s1.freeSorter, s1.nextWindow feeds with
    | some k, some w => s1.startNext w k feeds
    | none, _ => if !h.reserved && s1.canReserve h feeds then s1.reserveWindow h else s1
    | _, none => s1

/-- WINDOW_START: windows that restart are taken in again, and the next window starts. -/
def State.windowStart (s : State) (feeds : List (Nat × WinFeed)) : State :=
  (State.forEach (fun s k => s.takeAgain k feeds) (s.sp.sorters.map (·.1)) s).startHead feeds

/-- WINDOW_START. -/
def execWindowStart (feeds : List (Nat × WinFeed)) (s : State) : Host.Outcome State Fault Refusal := .next (s.windowStart feeds)

/-- PACK_WAIT_EXPIRY (R154): the open window closes while a sorter is free. -/
def execPackWaitExpiry (s : State) : Host.Outcome State Fault Refusal :=
  .next (if s.freeSorter.isSome then s.onSp SortPool.close else s)

/-- IMAP_FULL (R170): the head window has waited 1 ms for its reservation; once per head window. -/
def State.imapFull (s : State) : State :=
  match s.sp.queue with
  | [] => s
  | h :: _ =>
    if h.reserved || h.told || !h.waited then s
    else
      let d := (h.members.head?.bind fun m => s.desc m.id)
      let ring := (d.map (·.ring)).getD 0
      (s.onSp fun x => { x with queue := x.queue.map fun v => if v.wid = h.wid then { v with told := true } else v }).tell
        [ringEvent 0x601 ring [(8, 4, ring), (12, 4, (d.map fun d => d.seq.toNat).getD 0), (16, 8, s.windowNeed h)]]

/-- IMAP_FULL. -/
def execImapFull (s : State) : Host.Outcome State Fault Refusal := .next s.imapFull

/-! ## Lists (R160 to R163) -/

/-- Insert into an ascending list of numbers without repeats. -/
def insUniq (x : Nat) : List Nat → List Nat
  | [] => [x]
  | a :: t => if x = a then a :: t else if x < a then x :: a :: t else a :: insUniq x t

/-- The unique-row list: distinct keys, ascending (R160). -/
def uniqOf (keys : List (Option Key)) : List Key :=
  (keys.foldl (fun l k => match k with
    | some k => insUniq k.toNat l
    | none => l) []).map (BitVec.ofNat 64 ·)

/-- Add one key to the pair list, ordered by bag and unique index (R161). -/
def insPair (u bag : Nat) : List Pair → List Pair
  | [] => [⟨u, bag, 1⟩]
  | p :: t =>
    if p.u = u ∧ p.bag = bag then { p with mult := p.mult + 1 } :: t
    else if bag < p.bag ∨ (bag = p.bag ∧ u < p.u) then ⟨u, bag, 1⟩ :: p :: t
    else p :: insPair u bag t

def uIndex (uniq : List Key) (k : Key) : Nat := (posOf (· == k) uniq).getD 0

def pairsOf (uniq : List Key) : List (Option Key) → List Nat → List Pair → List Pair
  | some k :: ks, b :: bs, acc => pairsOf uniq ks bs (insPair (uIndex uniq k) b acc)
  | none :: ks, _ :: bs, acc => pairsOf uniq ks bs acc
  | _, _, acc => acc

/-- The inverse map (R162). -/
def invOf (uniq : List Key) (ps : List Pair) (keys : List (Option Key)) (bags : List Nat) : List (Option Nat) :=
  (List.zip keys bags).map fun e => match e.1 with
    | none => none
    | some k => posOf (fun (p : Pair) => p.u == uIndex uniq k && p.bag == e.2) ps

/-- A descriptor's lists. -/
def Member'.lists (m : Member') (d : Desc) : Member' :=
  let u := uniqOf m.keys
  let p := pairsOf u m.keys m.bags []
  { m with uniq := u, uver := u.map fun k => d.verOf m.snap (keyTbl k), pairs := p, inv := invOf u p m.keys m.bags }

/-- The coefficients a of a descriptor's pairs, before any row scale (R189). -/
def coefsOf (d : Desc) (m : Member') : List FO :=
  if d.hasWeights then
    (List.range m.pairs.length).map fun i =>
      let ws := (List.zip m.inv m.wgts).filterMap fun e => if e.1 = some i then some e.2 else none
      match ws with
      | [] => FO.ofF 0#32
      | w :: t => t.foldl (fun a x => foAdd d.ties a (FO.ofF x)) (FO.ofF w)
  else m.pairs.map fun p => FO.ofF (fofNat false p.mult)

/-- Bytes that a set of lists takes (R160 to R164). -/
def Member'.listBytes (m : Member') (d : Desc) : Nat :=
  granules (8 * m.uniq.length + 8 * m.pairs.length + 4 * m.keys.length + (if d.hasWeights then 4 * m.pairs.length else 0)) * 4096

/-- Non-null keys of each bag. -/
def bagKeys (d : Desc) (m : Member') : List Nat :=
  (List.range d.bagCount).map fun b => sumBy (fun (p : Pair) => if p.bag = b then p.mult else 0) m.pairs

end Sys2Proof.Machine
end

