-- ==== Sys2Proof/Machine/Rounds.lean ====
section
/-!
DEFINITION. From sorted lists to fetched rows: placement (R183, R184, R199), rounds (R185), spool (R188), bobbins and their caps
(R12, R186, R346), and the fetch of one row (R130, R271, R273, R275).
-/

namespace Sys2Proof.Machine

/-! ## Placement -/

/-- One tile of a descriptor: slice position, number within the position, bags [lo, hi), and its part of a split bag. -/
structure TileRef where
  pos  : Nat
  tile : Nat
  lo   : Nat
  hi   : Nat
  part : Nat := 0
  k    : Nat := 1
  deriving DecidableEq, Repr

/-- log2 k of R183 for B bags and P pairs over S positions. -/
def State.splitLog (s : State) (S B P : Nat) : Nat :=
  let c := s.cfg Reg.poolCtl
  if !(bitb c 0) || B = 0 then 0
  else
    let m := min (S / B) (min (P / max 1 (bitf c 32 16)) 128)
    if m = 0 then 0 else Nat.log2 m

/-- DIM of a descriptor's table, as it stood at admission. -/
def Member'.dim (m : Member') (d : Desc) : Nat := ((mget m.snap d.tbl).map (·.dim)).getD 8

/-- Tiles of bags [lo, hi) at a position. -/
def tileRun (pos lo hi bpt : Nat) : List TileRef :=
  (List.range (ceilDiv (hi - lo) bpt)).map fun t => { pos := pos, tile := t, lo := lo + t * bpt, hi := min hi (lo + (t + 1) * bpt) }

/-- The tiles of a gather (R183, R184, R199). -/
def Pooled.tiles (p : Pooled) (d : Desc) (S : Nat) : List TileRef :=
  let B := d.bags
  let bpt := bptOf (p.mem.dim d)
  if d.opc = 1 && d.tile != 0 then
    (List.range (ceilDiv B bpt)).map fun i => { pos := p.pos0.getD 0 + i, tile := 0, lo := i * bpt, hi := min B ((i + 1) * bpt) }
  else if p.log2k = 0 then
    (List.range S).flatMap fun s => tileRun ((s + p.rot) % S) (s * B / S) ((s + 1) * B / S) bpt
  else
    let k := 2 ^ p.log2k
    (List.range B).flatMap fun b => (List.range k).map fun j =>
      { pos := (b * k + j + p.rot) % S, tile := 0, lo := b, hi := b + 1, part := j, k := k }

/-- The pairs of a tile, in pair-list order, each with its index in the pair list. -/
def TileRef.pairs (t : TileRef) (ps : List Pair) : List (Nat × Pair) :=
  let mine := (List.zip (List.range ps.length) ps).filter fun e => decide (t.lo ≤ e.2.bag ∧ e.2.bag < t.hi)
  if t.k = 1 then mine
  else
    let m := mine.length
    let a := t.part * m / t.k
    (mine.drop a).take ((t.part + 1) * m / t.k - a)

/-! ## Rounds (R185) -/

/-- One pair's row, as a slice meets it. -/
structure Item where
  key  : Key
  ver  : Nat
  size : Nat
  deriving DecidableEq, Repr

/-- The row of a unique index. -/
def Member'.row (m : Member') (u : Nat) : Key × Nat := ((m.uniq[u]?).getD 0, (m.uver[u]?).getD 0)

/-- The planned size of a row (R185). -/
def Member'.planned (m : Member') (k : Key) : Nat := ((mget m.snap (keyTbl k)).map Table.planned).getD 0

def Member'.item (m : Member') (u : Nat) : Item := { key := (m.row u).1, ver := (m.row u).2, size := m.planned (m.row u).1 }

/-- Staging of one round, in bytes (R14). -/
def stageBytes : Nat := 1048576

/-- Cut a slice's rows, in order, into rounds; `cur` is the round being filled and `bytes` its planned bytes. -/
def cutRounds : List Item → List Item → Nat → List (List Item)
  | [], cur, _ => if cur.isEmpty then [] else [cur]
  | x :: t, cur, bytes =>
    if cur.any fun y => y.key == x.key && y.ver == x.ver then cutRounds t cur bytes
    else if stageBytes < bytes + x.size then cur :: cutRounds t [x] x.size
    else cutRounds t (cur ++ [x]) (bytes + x.size)

/-- The rows that position pos takes, in order, over the members of a window. -/
def State.sliceItems (s : State) (w : PWin) (pos : Nat) : List Item :=
  w.members.flatMap fun p => match s.desc p.mem.id with
    | none => []
    | some d => ((p.tiles d w.slices).filter fun t => t.pos == pos).flatMap fun t => (t.pairs p.mem.pairs).map fun e => p.mem.item e.2.u

/-- Note that a position needs a row in a round. -/
def addNeed (x : Item) (pos : Nat) : List Need → List Need
  | [] => [{ key := x.key, ver := x.ver, poss := [pos], size := x.size }]
  | n :: t => if n.key = x.key ∧ n.ver = x.ver then { n with poss := n.poss ++ [pos] } :: t else n :: addNeed x pos t

/-- A row backed on tier 1, for the order of fetching (R186). -/
def State.tier1Row (s : State) (k : Key) : Bool := ((s.table (keyTbl k)).map (·.backTier)) == some 1

/-- Fetch order: tier-1 rows first, each group in ascending key order. -/
def State.fetchOrder (s : State) (l : List Need) : List Need :=
  let le := fun (a b : Need) => decide (a.key.toNat * 65536 + a.ver ≤ b.key.toNat * 65536 + b.ver)
  let t1 := l.filter fun n => s.tier1Row n.key && !(s.inStore n.key n.ver)
  sortBy le t1 ++ sortBy le (l.filter fun n => !(t1.contains n))

/-- The plan of a window: the rows of each round with the positions that need them. -/
def State.planOf (s : State) (w : PWin) : List (List Need) :=
  let per := (List.range w.slices).map fun pos => (pos, cutRounds (s.sliceItems w pos) [] 0)
  let rounds := per.foldl (fun m e => max m e.2.length) 0
  (List.range rounds).map fun r =>
    s.fetchOrder (per.foldl (fun l e => ((e.2[r]?).getD []).foldl (fun l x => addNeed x e.1 l) l) [])

/-- The plan of a PREFETCH ROW_LIST: one round that names every row and stages none. -/
def State.prefetchPlan (s : State) (m : Member') : List (List Need) :=
  if m.uniq.isEmpty then []
  else [s.fetchOrder ((List.zip m.uniq m.uver).map fun e => { key := e.1, ver := e.2, poss := [], size := 0 })]

/-! ## Spool (R187, R188) -/

def sameRow (k : Key) (v : Nat) (n : Need) : Bool := n.key == k && n.ver == v

/-- A row is needed in a round after the first r. -/
def PWin.later (w : PWin) (r : Nat) (k : Key) (v : Nat) : Bool := (w.plan.drop r).any fun l => l.any (sameRow k v)

/-- The spool that a plan needs: the planned bytes of rows that a later round also needs, in granules. -/
def spoolNeed : List (List Need) → List (Key × Nat) → Nat
  | [], _ => 0
  | l :: t, seen =>
    let new := l.filter fun n => !(seen.contains (n.key, n.ver)) && t.any fun m => m.any (sameRow n.key n.ver)
    sumBy (·.size) new + spoolNeed t (new.map (fun n => (n.key, n.ver)) ++ seen)

/-- A row failed for the window. -/
def PWin.hasFailed (w : PWin) (k : Key) (ver : Nat) : Bool :=
  w.members.any fun p => (List.zip p.mem.uniq p.mem.uver).contains (k, ver) && p.failed.any fun f => f.1 == k

/-- A window still has rows to fetch. -/
def PWin.fetching (w : PWin) : Bool := decide (w.round < w.plan.length) || !w.asked.isEmpty || !w.capped.isEmpty

def State.spoolArea (s : State) : Nat := s.spoolUnits * unitBytes

/-- Spool reserved now; it is released when a window's last round ends. -/
def State.spoolUsed (s : State) : Nat := sumBy (fun (w : PWin) => if w.granted && w.fetching then w.spool else 0) s.sp.pwins

def State.pwin (s : State) (wid : Nat) : Option PWin := s.sp.pwins.find? fun w => w.wid == wid

def State.onPwin (s : State) (wid : Nat) (f : PWin → PWin) : State :=
  s.onSp fun x => { x with pwins := x.pwins.map fun w => if w.wid = wid then f w else w }

def State.onPooled (s : State) (wid id : Nat) (f : Pooled → Pooled) : State :=
  s.onPwin wid fun w => { w with members := w.members.map fun p => if p.mem.id = id then f p else p }

/-- Every named tile of a window has its positions. -/
def State.positioned (s : State) (w : PWin) : Bool :=
  w.members.all fun p => match s.desc p.mem.id with
    | some d => !(d.opc == 1 && d.tile != 0) || p.pos0.isSome
    | none => true

/-! ## Tier-2 reads (R334) -/

/-- Rows of a run of rows that are read from tier-2 blocks: not poisoned, with no copy in Ground store, their namespace READY. -/
def State.tier2Rows (s : State) (rows : List (Key × Nat)) : List (Key × Nat) :=
  rows.filter fun e =>
    let l := s.landsOf e.1 e.2
    !l.2.isEmpty && s.nsReady l.1 && !(s.inStore e.1 e.2) && !(s.rowPoisoned (keyTbl e.1) e.2 (keyRow e.1)) && !(s.verPoisoned (keyTbl e.1) e.2)

def State.coalesce (s : State) : Nat := clampN (bitf (s.cfg Reg.flCtl) 20 4) 1 8

/-- The most blocks that one Read of a namespace takes: COALESCE, and its drive's largest transfer. -/
def State.readMost (s : State) (ns : Nat) : Nat :=
  let m := (s.drive (s.driveOf ns)).most
  if m = 0 then s.coalesce else min s.coalesce m

/-- Gather blocks, each named once, into Reads: a block that follows on the last block of a Read of its namespace joins it, where that has
room (R334). A Read is its namespace, its first block and how many it takes. -/
def mergeReads (most : Nat → Nat) : List (Nat × Nat) → List (Nat × Nat × Nat) → List (Nat × Nat × Nat)
  | [], acc => acc
  | (ns, b) :: t, acc =>
    let meets := fun (c : Nat × Nat × Nat) => c.1 == ns && c.2.1 + c.2.2 == b && decide (c.2.2 < most ns)
    if acc.any meets then mergeReads most t (updFirst meets (fun c => (c.1, c.2.1, c.2.2 + 1)) acc) else mergeReads most t (acc ++ [(ns, b, 1)])

/-- Queue the NVMe Reads of a window for the blocks of rows that it has not read or asked for yet, each block once, in ascending U; they take
slots as NVME_SLOT_GRANT gives them (R334). -/
def State.readRows (s : State) (wid : Nat) (rows : List (Key × Nat)) : State :=
  let le := fun (a b : Key × Nat) => decide (a.1.toNat * 65536 + a.2 ≤ b.1.toNat * 65536 + b.2)
  let rows := sortBy le (s.tier2Rows (dedup rows))
  let asked := fun (ns b : Nat) => (s.landAt wid ns b).isSome ||
    s.fl.cmds.any fun c => c.own == .window wid && c.kind == 0 && !c.aborting && c.ns == ns && decide (c.lba ≤ b ∧ b < c.lba + c.blocks)
  let blocks := dedup (rows.flatMap fun e =>
    let l := s.landsOf e.1 e.2
    (l.2.filter fun b => !(asked l.1 b.1)).map fun b => (l.1, b.1))
  let cmds := mergeReads s.readMost blocks []
  let s1 := State.forEach (fun s (c : Nat × Nat × Nat) =>
    let mine := rows.filter fun e =>
      let l := s.landsOf e.1 e.2
      l.1 == c.1 && l.2.any fun b => decide (c.2.1 ≤ b.1 ∧ b.1 < c.2.1 + c.2.2)
    s.queueCmd { drive := s.driveOf c.1, kind := 0, ns := c.1, lba := c.2.1, blocks := c.2.2, rows := mine, own := .window wid }) cmds s
  s1.countN Ctr.flCoalesced (sumBy (fun (c : Nat × Nat × Nat) => if c.2.2 < 2 then 0 else c.2.2) cmds)

/-- Queue the NVMe Reads of a window's tier-2 rows. -/
def State.askTier2 (s : State) (w : PWin) : State := s.readRows w.wid (w.plan.flatten.map fun n => (n.key, n.ver))

/-- Slice groups that hold positions. -/
def groupsOf (poss : List Nat) : List Nat := dedup (poss.map (· / 8))

/-- Work reaches slice positions: those of their groups that had been quiet resume (R369, R377). -/
def State.softStart (s : State) (wid : Nat) (poss : List Nat) (n : Nat) : State :=
  s.countN Ctr.softStarts (sumBy (fun g => b2n (Config.groupQuiet wid g n)) (groupsOf poss))

/-! ## Bobbins (R12, R346) -/

/-- A bobbin waits on a bank, named by its channel and number. -/
def Wait.usesBank (b : Nat × Nat) : Wait → Bool
  | .bank l => l.contains b
  | _ => false

/-- Two rows need one resource: in the queue of a bank (1), of a channel (2) or of a host port (3). -/
def Wait.meets (q : Nat) (a b : Wait) : Bool :=
  match a, b with
  | .bank l, .bank m => if q = 2 then l.any fun x => m.any fun y => x.1 == y.1 else l.any m.contains
  | .port p, .port q => p == q
  | _, _ => false

/-- Which cap a bobbin would break: 0 none, 1 the bank's, 2 the channel's, 3 the port's. -/
def State.overCap (s : State) (on : Wait) : Nat :=
  match on with
  | .bank l =>
    if l.any fun b => decide (s.waitingOn (fun x => x.usesBank b) ≥ 64) then 1
    else if l.any fun b => decide (s.waitingOn (fun x => x.usesCh b.1) ≥ 512) then 2 else 0
  | .port p => if s.waitingOn (fun x => x == .port p) ≥ 2048 then 3 else 0
  | .drive => 0

/-- Slice positions that a window's rows need. -/
def PWin.poss (w : PWin) : List Nat := dedup (w.plan.flatMap fun l => l.flatMap (·.poss))

/-- The staging that a window's rounds take at a slice position, at most (R185). -/
def PWin.stageAt (w : PWin) (pos : Nat) : Nat :=
  (w.plan.map fun l => sumBy (fun (n : Need) => if n.poss.contains pos then n.size else 0) l).foldl max 0

/-- The bobbins of the grants that a window needs, one grant for each slice (R185). -/
def State.grants (s : State) (w : PWin) : Nat := Member.grant s.fuses.member * w.poss.length

/-- Bobbins that PREFETCH rows hold; they take none of a grant. -/
def State.preAsked (s : State) : Nat := sumBy (fun (w : PWin) => if w.poss.isEmpty then w.asked.length else 0) s.sp.pwins

/-- Bobbins reserved by the windows that have begun and still fetch (R14, R185; log entry 32). -/
def State.granted (s : State) : Nat := sumBy (fun w => if w.round != 0 && w.fetching then s.grants w else 0) s.sp.pwins

/-- A bobbin is free (R15): one of the position's grant (R185), or for a PREFETCH row one that is in no grant. -/
def State.grantFree (s : State) (w : PWin) (need : Need) : Bool :=
  decide (s.waitingOn (fun _ => true) < Member.bobbins s.fuses.member) &&
    (if need.poss.isEmpty then decide (s.preAsked + s.granted < Member.bobbins s.fuses.member)
     else decide ((w.asked.filter fun a => a.pos == need.poss.headD 0).length < Member.grant s.fuses.member))

/-- The banks in which pockets of channels lie, as they are served (R299, R317). -/
def State.banksOf (s : State) (l : List (Nat × Nat)) : Wait :=
  .bank (dedup (l.map fun p =>
    let q := s.pocketAt p.1 p.2
    (q.1, (s.bankLine q.2 0).1)))

/-- The pockets of scratch in which the bytes of a tier-2 row's landing blocks lie (log entry 105). -/
def State.landPockets (s : State) (k : Key) (ver : Nat) : List (Nat × Nat) :=
  let l := s.landsOf k ver
  l.2.map fun b =>
    let p := s.spread s.pinPockets (s.scratchAt 3 (landNo l.1 b.1))
    (p.1, p.2.1)

/-- A bobbin reads a row from its landing blocks. -/
def State.readLanding (s : State) (k : Key) (ver : Nat) : State :=
  let l := s.landsOf k ver
  State.forEach (fun s (b : Nat × Nat × Nat) => s.noteLand l.1 b.1 b.2.1 b.2.2 false true) l.2 s

/-- What the bobbin of a row waits on, or the status with which the row fails at once (R126, R130, R331). -/
def State.rowWait (s : State) (k : Key) (ver : Nat) : Wait ⊕ BitVec 8 :=
  match s.table (keyTbl k) with
  | none => .inr St.versionGone
  | some t =>
    match s.find k ver with
    | .pinned e =>
      .inl (s.banksOf ((s.pinParts (e.rowOff t (keyRow k)) (gradeBytes e.grade t.dim)).map fun p => (p.1, p.2.1)))
    | .way w => .inl (s.banksOf ((s.slotParts w (gradeBytes w.grade t.dim)).map fun p => (w.ch, p.1)))
    | .backing =>
      match t.ver? ver with
      | none => .inr St.versionGone
      | some v =>
        if s.backStatus t v ≠ St.ok then .inr (s.backStatus t v)
        else if t.backTier = 2 then .inl .drive else .inl (.port s.rowPort)

/-- A row fails for the members of a window that name it (R337, R414). -/
def State.rowFails (s : State) (wid : Nat) (k : Key) (ver : Nat) (st : BitVec 8) : State :=
  s.onPwin wid fun w =>
    { w with members := w.members.map fun p =>
        if (List.zip p.mem.uniq p.mem.uver).contains (k, ver) && !(p.failed.any fun f => f.1 == k)
        then { p with failed := p.failed ++ [(k, st)] } else p }

/-- Count a read by a replica (R293). -/
def State.noteReplica (s : State) (w : Way) : State := s.countN Ctr.replicaReads (b2n (w.repl != 0))

/-- A row that a bobbin fetches counts toward its popularity (R273), and a row that run-ahead brought in is used (R166). -/
def State.noteFetch (s : State) (k : Key) (ver : Nat) : State :=
  let s1 := s.bump k
  if s1.sp.raRows.contains (k, ver) then (s1.onSp fun x => { x with raRows := x.raRows.erase (k, ver) }).count Ctr.raUsed else s1

/-- A bobbin issues (R130, R186, R271): the copy that exists is read, or the backing is asked. A row that is fetched again after an error is
no further fetch (R205). -/
def State.issue (s : State) (w : PWin) (a : Ask) : State :=
  match s.table (keyTbl a.key) with
  | none => s
  | some t =>
    let put := fun (s : State) (b : Ask) => s.onPwin w.wid fun x => { x with asked := x.asked ++ [b] }
    let first := a.again == 0
    let fetched := fun (s : State) => if first then s.noteFetch a.key a.ver else s
    match s.find a.key a.ver with
    | .pinned e =>
      let n := gradeBytes e.grade t.dim
      let o := e.rowOff t (keyRow a.key)
      put (fetched (s.notePinned o n true)) { a with got := some (e.grade, s.readPin o n) }
    | .way y =>
      let n := gradeBytes y.grade t.dim
      let s1 := ((s.touchHead y.ch y.set false).readCopy y n true).noteReplica y
      let mine := fun (z : Way) => z.ch == y.ch && z.set == y.set && z.way == y.way
      let s2 := (s1.onWays mine fun z => { z with readers := z.readers + 1 }).countN Ctr.rowHit (b2n first)
      put (fetched s2) { a with got := some (y.grade, s.readSlot y n), way := some (y.ch, y.set, y.way) }
    | .backing =>
      let at' := s.setOn (s.rowCh a.key a.ver) a.key
      let s1 := fetched ((s.touchHead at'.1 at'.2 false).countN Ctr.rowMiss (b2n first))
      let addr := ((t.ver? a.ver).map fun v => t.rowAddr v (keyRow a.key)).getD 0
      let s2 :=
        if t.backTier = 2 then s1.readLanding a.key a.ver
        else if t.backTier = 1 then s1.send (.rowRead a.key a.ver addr (s.rowRoute t))
        else s1
      put s2 a

/-- Rows of a window that still need their landing blocks: not staged, not failed, and not taken from a copy that a bobbin reads. -/
def PWin.needsLanding (w : PWin) : List (Key × Nat) :=
  (dedup (w.plan.flatten.map fun n => (n.key, n.ver))).filter fun e =>
    !(w.staged.any fun r => r.key == e.1 && r.ver == e.2) && !(w.hasFailed e.1 e.2)

/-- A landing block is free once every row of its window that needs it has been staged or has failed (R334). -/
def State.freeLanded (s : State) (wid : Nat) : State :=
  match s.pwin wid with
  | none => s
  | some w =>
    let need := w.needsLanding.flatMap fun e =>
      let l := s.landsOf e.1 e.2
      l.2.map fun b => (l.1, b.1)
    s.onFl fun f => { f with landed := f.landed.filter fun x => x.wid != wid || need.contains (x.ns, x.lba) }

/-- What a row's bobbin waits on; a row whose block has landed is read as a Ground store row (R334). -/
def State.rowWaitIn (s : State) (wid : Nat) (k : Key) (ver : Nat) : Wait ⊕ BitVec 8 :=
  if (s.landedRow wid k ver).isSome && !(s.inStore k ver) then .inl (s.banksOf (s.landPockets k ver)) else s.rowWait k ver

/-- Rows that wait for a bobbin, window by window in the order in which their sorts completed, each window's in fetch order (R346). -/
def State.cappedAll (s : State) : List (Nat × Ask) := s.sp.pwins.flatMap fun w => w.capped.map fun a => (w.wid, a)

/-- The cap that keeps a row from its bobbin: the one it would break, or that of a row before it in the same queue (R346). -/
def State.capOf (s : State) (on : Wait) (before : List (Nat × Ask)) : Nat :=
  if s.overCap on ≠ 0 then s.overCap on
  else ((before.find? fun b => b.2.held != 0 && b.2.on.meets b.2.held on).map fun b => b.2.held).getD 0

/-- Count a row that comes to wait in a cap's queue (R357). -/
def State.noteCap (s : State) (c : Nat) : State :=
  s.tell [.count Ctr.bankCapWait (b2n (c == 1)), .count Ctr.chanCapWait (b2n (c == 2)), .count Ctr.portCapWait (b2n (c == 3))]

/-- A row of a round takes its bobbin, or waits for one (R346); a row that cannot be read fails. -/
def State.askRow (s : State) (wid : Nat) (need : Need) (again : Nat) : State :=
  match s.pwin wid with
  | none => s
  | some w =>
    let h := keyTbl need.key
    if s.rowPoisoned h need.ver (keyRow need.key) || s.verPoisoned h need.ver then s.rowFails wid need.key need.ver St.poisoned
    else match s.rowWaitIn wid need.key need.ver with
      | .inr st => s.rowFails wid need.key need.ver st
      | .inl on =>
        let a : Ask := { key := need.key, ver := need.ver, on := on, pos := need.poss.headD 0, again := again }
        let wait := fun (s : State) (c : Nat) => s.onPwin wid fun x => { x with capped := x.capped ++ [{ a with held := c }] }
        if on = .drive then (wait s 0).readRows wid [(need.key, need.ver)]
        else
          let c := s.capOf on ((s.sp.pwins.takeWhile fun v => v.wid != wid).flatMap (fun v => v.capped.map fun b => (v.wid, b)) ++
            w.capped.map fun b => (wid, b))
          if c = 0 && s.grantFree w need then s.issue w a else wait (s.noteCap c) c

end Sys2Proof.Machine
end

