-- ==== Sys2Proof/Machine/Sums.lean ====
section
/-!
DEFINITION. Pooling arithmetic: coefficients, sums, the combining tree, the mode factor, the rescale (R189 to R192, R217), and the
reduction-order digest (R204).
-/

namespace Sys2Proof.Machine

/-- An accumulator of DIM values. -/
abbrev Acc := List FO

def accZero (dim : Nat) : Acc := List.replicate dim (FO.ofF 0#32)

/-- acc[e] := round(acc[e] + round(c × v[e])) for each element (R190). -/
def addRow (ties : Bool) (c : FO) : List F32 → Acc → Acc
  | v :: vs, a :: as => foAdd ties a (foMul ties c (FO.ofF v)) :: addRow ties c vs as
  | _, as => as

/-- The coefficient c of a pair whose a is given, for a copy (R189). -/
def coefFor (ties : Bool) (a : FO) (scale : Option F32) : FO :=
  match scale with
  | none => a
  | some x => foMul ties a (FO.ofF x)

/-- A staged row's operands. -/
def Staged.operands (r : Staged) (dim : Nat) : List F32 × Option F32 := operandsOf r.grade dim r.data

/-- Add pairs, in order, to a bag's accumulator: `as` are the coefficients of the pair list, `rows` the staged rows. -/
def sumPairs (ties : Bool) (dim : Nat) (m : Member') (as : List FO) (rows : List Staged) : List (Nat × Pair) → Acc → Acc
  | [], acc => acc
  | (i, p) :: t, acc =>
    let r := m.row p.u
    match rows.find? fun x => x.key == r.1 && x.ver == r.2 with
    | none => sumPairs ties dim m as rows t acc
    | some x =>
      let o := x.operands dim
      sumPairs ties dim m as rows t (addRow ties (coefFor ties ((as[i]?).getD (FO.ofF 0#32)) o.2) o.1 acc)

/-- An accumulator as a held tile or a drained part keeps it. -/
def Acc.keep (a : Acc) : List (F32 × Bool) := a.map fun x => (x.v, x.infO)

def Acc.load (l : List (F32 × Bool)) : Acc := l.map fun x => ⟨x.1, x.2, false⟩

/-- An OVERFLOW event reached it (R194). -/
def Acc.ovf (a : Acc) : Bool := a.any (·.ev)

/-! ## The combining tree (R191) -/

def addAcc (ties : Bool) (a b : Acc) : Acc := List.zipWith (foAdd ties) a b

/-- One level of the tree. -/
def treeLevel (ties : Bool) : List Acc → List Acc
  | a :: b :: t => addAcc ties a b :: treeLevel ties t
  | l => l

/-- log2 k levels. -/
def treeSum (ties : Bool) : Nat → List Acc → Acc
  | 0, l => l.headD []
  | n + 1, l => treeSum ties n (treeLevel ties l)

/-! ## Factor and rescale (R192, R217) -/

/-- f of Table 50; a bag without keys has none (R179). -/
def modeFactor (ties : Bool) (pool n : Nat) : Option F32 :=
  if n = 0 then none
  else if pool = 1 then some (finvNat ties n)
  else if pool = 2 then some (finvSqrtNat ties n)
  else none

/-- v[e] := round(v[e] × entry) from entry i on. -/
def rescaleFrom (ties : Bool) (bank : List F32) : Nat → Acc → Acc
  | _, [] => []
  | i, v :: t => foMul ties v (FO.ofF ((bank[i]?).getD f32One)) :: rescaleFrom ties bank (i + 1) t

/-- Steps 2 and 3 of the output stage for a bag of n keys. -/
def bagResult (d : Desc) (bank : List F32) (n : Nat) (sum : Acc) : Acc :=
  let s1 := match modeFactor d.ties d.pool n with
    | none => sum
    | some f => sum.map fun v => foMul d.ties v (FO.ofF f)
  if d.pool = 3 || d.rescale = 0 then s1 else rescaleFrom d.ties bank (d.rescale - 1) s1

/-! ## Digest (R204) -/

/-- One record (Table 55). -/
def digestRec (bag log2k : Nat) (ties cont : Bool) (pairs : Nat) : Bytes :=
  leBytes 4 (atBit bag 20 0 + atBit log2k 3 20 + atBit (b2n ties) 1 23 + atBit (b2n cont) 1 24) ++ leBytes 4 pairs

/-- The records of a descriptor's bags that have pairs, in ascending bag order. -/
def digestRecs (log2k : Nat) (ties cont : Bool) (bags : Nat) (ps : List Pair) : Bytes :=
  (List.range bags).flatMap fun b =>
    let n := (ps.filter fun p => p.bag == b).length
    if n = 0 then [] else digestRec b log2k ties cont n

/-- DIGEST, from that of the chain's previous descriptor where there is one. -/
def digestOf (prev : Option (BitVec 32)) (recs : Bytes) : BitVec 32 :=
  crc32c (match prev with
    | none => 0xFFFFFFFF#32
    | some x => x ^^^ 0xFFFFFFFF#32) recs

end Sys2Proof.Machine
end

