-- ==== Sys2Proof/Machine/Drain.lean ====
section
/-!
DEFINITION. The output stage and the end of a gather: writing bag results (R180, R192, R218 to R225), drift windows (R226), tile drains
(R191, R195), held tiles (R198), failed rows (R337, R414), and what completes a descriptor of a sorted window (R181).
-/

namespace Sys2Proof.Machine

/-! ## Drift windows (R226) -/

/-- Count one element; the answer gives the kinds that reached their limit, with their counts. `fresh` is the next window. -/
def Drift.take (x fresh : Drift) (sat : Bool) (units : Nat) : Drift × List (Nat × Nat) :=
  let y := { x with elems := x.elems + 1, sat := stick (x.sat + b2n sat) 32, under := stick (x.under + units) 32 }
  let hs := !y.satTold && y.satLim != 0 && decide (y.satLim ≤ y.sat)
  let hu := !y.underTold && y.underLim != 0 && decide (y.underLim ≤ y.under)
  let z := { y with satTold := y.satTold || hs, underTold := y.underTold || hu }
  (if 2 ^ z.win ≤ z.elems then fresh else z, (if hs then [(0, y.sat)] else []) ++ (if hu then [(1, y.under)] else []))

/-- Count a row's elements; `unit` is 1 for a BAG row in the scale-range condition, counted with its last element. -/
def Drift.takeRow (fresh : Drift) (unit : Nat) : List (Bool × Bool) → Drift → List (Nat × Nat) → Drift × List (Nat × Nat)
  | [], x, hits => (x, hits)
  | e :: t, x, hits =>
    let r := x.take fresh e.1 (b2n e.2 + (if t.isEmpty then unit else 0))
    Drift.takeRow fresh unit t r.1 (hits ++ r.2)

/-- The elements of a headed row that lie whole within its first n bytes. -/
def OutRow.within (r : OutRow) (n : Nat) : Nat :=
  if r.elems.isEmpty then 0 else min r.elems.length ((n - 16) / ((r.bytes.length - 16) / r.elems.length))

/-- A class S descriptor's headed row counts in its context's drift window, as far as its elements are written: n bytes of it. -/
def State.driftRow (s : State) (d : Desc) (f : OutFmt) (r : OutRow) (n : Nat) : State :=
  let k := r.within n
  if !d.clsS || !f.headed || k = 0 then s
  else
    let fresh := s.freshDrift
    let unit := b2n (f.isBag && r.range && k == r.elems.length)
    let q := Drift.takeRow fresh unit (r.elems.take k) (mgetD s.qz.drift d.ctx fresh) []
    let s1 := s.onQz fun z => { z with drift := mset z.drift d.ctx q.1 }
    s1.tell (q.2.flatMap fun h =>
      [mkEvent 0x801 [(8, 4, d.ctx), (12, 4, h.1), (16, 4, h.2), (20, 4, d.rescale), (24, 4, d.ring), (28, 4, d.seq.toNat)],
       TelOp.count Ctr.driftEvents 1])

/-! ## Writing result bytes (R78, R180, R219, Table 29) -/

/-- The result is delivered inline (R73, R180). -/
def Desc.inlineOut (d : Desc) (dim : Nat) : Bool := d.inline' && (d.dst == 0 || decide (gatherBytes d dim ≤ 64))

def Desc.outRange (d : Desc) : Option Range := d.ranges.find? fun r => r.kind == .result

/-- Where a result stops: the first byte not written, with its fault's status. -/
def minCut : Option (Nat × BitVec 8) → Option (Nat × BitVec 8) → Option (Nat × BitVec 8)
  | none, b => b
  | a, none => a
  | some a, some b => if a.1 ≤ b.1 then some a else some b

def Pooled.cutOf (p : Pooled) (d : Desc) : Option (Nat × BitVec 8) := minCut p.cut ((d.outRange.map (·.fault)).getD none)

/-- Cut bytes at offset `off` of a range into the runs that lie in one piece of it and, in host memory, in one 4 KiB page of IOVAs and in
one 4 KiB stripe (R78, R99): the offset, the target address, and the bytes; the fuel is the number of bytes. -/
def writeRuns (r : Range) : Nat → Nat → Bytes → List (Nat × Nat × Bytes)
  | 0, _, _ => []
  | f + 1, off, b =>
    if b.isEmpty then []
    else match r.pieces.find? fun p => decide (p.off ≤ off ∧ off < p.off + p.len) with
      | none => []
      | some p =>
        let a := p.target + (off - p.off)
        let room := p.off + p.len - off
        let n := min b.length (if r.fabric then room else min room (min (4096 - a % 4096) (4096 - (r.va.toNat + off) % 4096)))
        (off, a, b.take n) :: writeRuns r f (off + n) (b.drop n)

/-- The bytes of one fabric message (R22). -/
def msgBytes : Nat := 512

/-- Bytes at an address as complete fabric messages (R22); the fuel is the number of bytes. -/
def msgCuts (a : Nat) : Nat → Bytes → List (Nat × Bytes)
  | 0, _ => []
  | f + 1, b => if b.isEmpty then [] else (a, b.take msgBytes) :: msgCuts (a + msgBytes) f (b.drop msgBytes)

/-- Bytes at an address as the part before the first full 64-byte line, the full lines, and the rest; the flag marks full lines. -/
def lineCuts (a : Nat) (b : Bytes) : List (Nat × Bytes × Bool) :=
  let h := min b.length ((64 - a % 64) % 64)
  let n := (b.length - h) / 64 * 64
  [(a, b.take h, false), (a + h, slice b h n, true), (a + h + n, b.drop (h + n), false)].filter fun c => !c.2.1.isEmpty

/-- How result bytes are written on a host port (Tables 9 and 10, R28, R78; log entry 91). -/
def State.writeKind (s : State) (home port : Nat) (full : Bool) : WKind :=
  if full && s.cxlCache port then (if port = home then .itoMWr else .wowrInvF) else .io true

/-- The messages that write bytes at offset `off` of a descriptor's range, its host bytes as translated requests (R101). -/
def State.writeOuts (s : State) (d : Desc) (r : Range) (off : Nat) (b : Bytes) : List Output :=
  (writeRuns r b.length off b).flatMap fun w =>
    if r.fabric then (msgCuts w.2.1 w.2.2.length w.2.2).map fun m => .result d.id m.1 m.2 (.fabric 0) .message
    else
      let p := s.portFor d r (r.va.toNat + w.1)
      (lineCuts w.2.1 w.2.2).map fun c =>
        .result d.id (s.hpaOf d p c.1) c.2.1 (.host p (s.ctxPasid d.ctx) true) (s.writeKind (s.ring d.ring).home p c.2.2)

/-- A CXL.io write on a port other than the home port. -/
def Output.ioAway (home : Nat) : Output → Bool
  | .result _ _ _ (.host p _ _) (.io _) => p != home
  | _ => false

/-- Write bytes at offset `off` of a descriptor's range. -/
def State.putBytes (s : State) (d : Desc) (r : Range) (off : Nat) (b : Bytes) : State :=
  let l := s.writeOuts d r off b
  if r.fabric then s.fabSendAll l
  else if l.any (Output.ioAway (s.ring d.ring).home) then (s.sendAll l).onDesc d.id fun x => { x with ioOther := true }
  else s.sendAll l

/-- Write result bytes at offset `off` of a descriptor's result, up to the byte at which it stops. -/
def State.writeResult (s : State) (d : Desc) (dim : Nat) (cut : Option (Nat × BitVec 8)) (off : Nat) (b : Bytes) : State :=
  if d.inlineOut dim then s.onDesc d.id fun x => { x with inl := patch x.inl off b }
  else match d.outRange with
    | none => s
    | some r => s.putBytes d r off (match cut with
      | none => b
      | some c => b.take (c.1 - off))

/-! ## One bag -/

/-- The rescale bank that a descriptor bound (R215). -/
def State.bankFor (s : State) (d : Desc) : List F32 := if d.bank then s.qz.bankB else s.qz.bankA

/-- The held values from which a descriptor of a chain starts (R198). -/
def State.heldTile (s : State) (d : Desc) : Option NamedTile :=
  if d.opc = 1 && d.tile != 0 then (mget s.sp.tiles d.tile).filter fun t => t.held && t.owner == d.ring else none

/-- Non-null keys of bag b, over the chain (R173). -/
def State.bagKeysOf (s : State) (d : Desc) (m : Member') (b : Nat) : Nat :=
  sumBy (fun (p : Pair) => if p.bag = b then p.mult else 0) m.pairs + ((((s.heldTile d).map (·.counts)).getD [])[b]?).getD 0

/-- The accumulator from which bag b starts. -/
def State.startAcc (s : State) (d : Desc) (dim b : Nat) : Acc :=
  match (s.heldTile d).bind fun t => t.acc[b]? with
  | some l => Acc.load l
  | none => accZero dim

/-- The sum of the pairs of bag b in a tile. -/
def State.tileSum (s : State) (w : PWin) (p : Pooled) (d : Desc) (t : TileRef) (b : Nat) : Acc :=
  let dim := p.mem.dim d
  sumPairs d.ties dim p.mem (coefsOf d p.mem) w.staged ((t.pairs p.mem.pairs).filter fun e => e.2.bag == b) (s.startAcc d dim b)

/-- Bag b leaves the output stage: its row is counted, where a fault does not keep it from being written whole, and written (R192, R207,
R224, R225, R230). -/
def State.putBag (s : State) (p : Pooled) (d : Desc) (cut : Option (Nat × BitVec 8)) (b : Nat) (sum : Acc) : State :=
  let dim := p.mem.dim d
  let vs := bagResult d (s.bankFor d) (s.bagKeysOf d p.mem b) sum
  let f := outFmtOf d.outfmt
  let r := outRow f d.ties d.clsS (vs.map (·.v))
  let o := orowOf d.outfmt dim d.clsS
  let w := match cut with
    | none => true
    | some c => decide ((b + 1) * o ≤ c.1)
  let s1 := s.tell
    [.count Ctr.bagsWritten (b2n w), .count Ctr.outHeaded (b2n (w && f.headed)), .count Ctr.rerunBags (b2n (w && r.wide)),
     .count Ctr.outSat (if d.clsS then r.sat else 0), .count Ctr.outUnder r.under,
     .count Ctr.outRange (b2n r.range), .count Ctr.outNonfinite (b2n (w && r.nonfin))]
  let s2 := s1.onDesc d.id fun x =>
    { x with overflow := x.overflow || Acc.ovf vs || r.ov
             wide := x.wide + b2n (w && r.wide)
             sat := if d.clsS then x.sat + r.sat else x.sat
             under := if d.clsS then x.under + r.under else x.under
             ranged := x.ranged || (d.clsS && r.range) }
  let upTo := match cut with
    | none => r.bytes.length
    | some c => min r.bytes.length (c.1 - b * o)
  (s2.driftRow d f r upTo).writeResult d dim cut (b * o) r.bytes

/-! ## The end of a gather (R181, R204) -/

/-- DIGEST of a descriptor's pooling. -/
def State.gatherDigest (s : State) (p : Pooled) (d : Desc) : BitVec 32 :=
  let h := s.heldTile d
  digestOf (h.map (·.digest)) (digestRecs p.log2k d.ties h.isSome d.bags p.mem.pairs)

/-- Both host ports carry stripes of the first n bytes of a result (R70, R78). -/
def State.bothPorts (s : State) (d : Desc) (n : Nat) : Bool :=
  match d.outRange with
  | none => false
  | some r => s.striped d && !r.fabric && decide (0 < n) && r.va.toNat / 4096 != (r.va.toNat + n - 1) / 4096

/-- A descriptor whose results have all drained completes. -/
def State.endGather (s : State) (p : Pooled) (d : Desc) : State :=
  let dim := p.mem.dim d
  let inl := d.inlineOut dim
  let total := gatherBytes d dim
  let cut := if inl then none else p.cutOf d
  let n := (cut.map (·.1)).getD total
  let u := p.mem.uniq.length
  let dig := s.gatherDigest p d
  let both := !inl && s.bothPorts d n
  s.settle d.id fun x =>
    let sat := x.clsS && (x.sat != 0 || x.under != 0 || x.ranged)
    let f0 := withFlag (withFlag (withFlag x.flags Fl.overflow x.overflow) Fl.rerunWide (x.wide != 0)) Fl.scaleSat sat
    let f1 := withFlag (withFlag (withFlag f0 Fl.partial' cut.isSome) Fl.striped both) Fl.inlineSpill (d.inline' && !inl)
    let info := if sat then BitVec.ofNat 64 (stick x.sat 32 + stick x.under 32 * 2 ^ 32) else BitVec.ofNat 64 x.wide
    match cut with
    | some (off, st) =>
      { x with status := st, flags := f1, digest := dig, done := off, detail := 0,
               info := ((d.outRange.map (·.va)).getD 0) + BitVec.ofNat 64 off, inl := [] }
    | none => { x with status := St.ok, flags := f1, digest := dig, done := total, detail := u, info := info }

/-! ## Slices that are retired (R418) -/

/-- A slice position's slice has met detections: n more, or a failure that retires it at once. At SLICE_LIM detections within one hour it
is retired. -/
def State.sliceFound (s : State) (pos n : Nat) (atOnce : Bool) : State :=
  if n = 0 then s
  else
    let old := (mgetD s.rl.hits pos []).filter fun t => s.tel.within t hour1
    let now := (List.replicate (min n 15) s.tel.ts ++ old).take 15
    let out := atOnce || decide (max 1 (bitf (s.cfg Reg.errCtl) 0 4) ≤ now.length)
    s.onRl fun r =>
      { r with hits := mset r.hits pos now
               retiring := if out && !(r.retiring.contains pos) then r.retiring ++ [pos] else r.retiring }

/-! ## Draining a tile (R191, R195) -/

/-- A tile may drain: the tiles before it at its position have drained. -/
def Pooled.tileTurn (p : Pooled) (tiles : List TileRef) (t : TileRef) : Bool :=
  !(p.drained.contains (t.pos, t.tile)) &&
  tiles.all fun q => q.pos != t.pos || decide (t.tile ≤ q.tile) || p.drained.contains (q.pos, q.tile)

/-- The parts of bag b in part order, once all k have drained. -/
def Pooled.allParts (p : Pooled) (tiles : List TileRef) (b : Nat) : Option (List Acc) :=
  let mine := tiles.filter fun q => q.lo == b
  let got := mine.filterMap fun q => (p.parts.find? fun x => x.pos == q.pos && x.tile == q.tile).map fun x => Acc.load (x.sums.headD [])
  if got.length = mine.length then some got else none

/-- Fabric messages may be sent now: none waits for a credit, and a port holds one (R195). -/
def State.fabReady (s : State) : Bool := s.pw.fabOut.isEmpty && s.fabFirst.isSome

/-- Result bytes lo to hi of a descriptor may be written now: a FABRIC result needs a credit (R195), a host result the translations of
its pages (R100). -/
def State.canWrite (s : State) (d : Desc) (dim lo hi : Nat) : Bool :=
  d.inlineOut dim || (match d.outRange with
    | none => true
    | some r => if r.fabric then s.fabReady else s.covered d r lo hi)

/-- The result bytes before the first that a tile still to drain writes: the transfer has passed them (R100). -/
def State.resultTo (d : Desc) (dim : Nat) (p : Pooled) (tiles : List TileRef) : Nat :=
  let o := orowOf d.outfmt dim d.clsS
  (tiles.filter fun t => !(p.drained.contains (t.pos, t.tile))).foldl (fun m t => min m (t.lo * o)) (gatherBytes d dim)

/-- The hoop of a tile that has drained is free. -/
def State.freeHoop (s : State) (h : Hoop) : State := s.onSp fun x => { x with hoops := x.hoops.erase h }

/-- A fault of the command that lies within the bytes that a tile writes. -/
def tileFault (d : Desc) (dim : Nat) (t : TileRef) (fault : Option (Nat × BitVec 8)) : Option (Nat × BitVec 8) :=
  let o := orowOf d.outfmt dim d.clsS
  fault.filter fun c => decide (t.lo * o ≤ c.1 ∧ c.1 < t.hi * o) && c.2 != St.ok && !(d.inlineOut dim) &&
    !((d.outRange.map (·.fabric)).getD false)

/-- Drain one tile: a whole bag's row goes to the output stage, a part waits for the others of its bag. -/
def State.drainTile (s : State) (w : PWin) (p : Pooled) (d : Desc) (tiles : List TileRef) (t : TileRef)
    (fault : Option (Nat × BitVec 8)) : State :=
  let dim := p.mem.dim d
  let p0 := { p with drained := (t.pos, t.tile) :: p.drained, cut := minCut p.cut (tileFault d dim t fault) }
  let cut := p0.cutOf d
  let bags := (List.range (t.hi - t.lo)).map (t.lo + ·)
  let sums := bags.map fun b => (b, s.tileSum w p d t b)
  let s1 := (s.tell [.count Ctr.pairsPooled (t.pairs p.mem.pairs).length, .count Ctr.tilesDrained 1]).onDesc d.id fun x =>
    { x with overflow := x.overflow || sums.any fun e => Acc.ovf e.2 }
  let p1 := if t.k = 1 then p0 else { p0 with parts := p0.parts ++ [{ pos := t.pos, tile := t.tile, sums := sums.map fun e => Acc.keep e.2 }] }
  let s2 := s1.onPooled w.wid d.id fun _ => p1
  let s3 :=
    if t.k = 1 then (State.forEach (fun s (e : Nat × Acc) => s.putBag p1 d cut e.1 e.2) sums s2, t.hi - t.lo)
    else match p1.allParts tiles t.lo with
      | none => (s2, 0)
      | some l => ((s2.putBag p1 d cut t.lo (treeSum d.ties p1.log2k l)).count Ctr.bagsSplit, 1)
  let o := orowOf d.outfmt dim d.clsS
  let s4 := s3.1.onPooled w.wid d.id fun x => { x with wrote := min ((cut.map (·.1)).getD (gatherBytes d dim)) (x.wrote + s3.2 * o) }
  let upTo := State.resultTo d dim p1 tiles
  (s4.freeHoop { pos := t.pos, wid := w.wid, id := d.id, tile := t.tile }).passBytes d.id fun _ r =>
    if r.kind == .result then some upTo else none

end Sys2Proof.Machine
end

