-- ==== Sys2Proof/Machine/Settle.lean ====
section
/-!
DEFINITION. How the descriptors of a sorted window end: failed rows (R337, R414, R416), holding a tile (R198), PREFETCH ROW_LIST (R112);
and the drain of a tile (R195).
-/

namespace Sys2Proof.Machine

/-- Every row of a descriptor is staged or has failed. -/
def Pooled.resolved (w : PWin) (p : Pooled) : Bool :=
  (List.zip p.mem.uniq p.mem.uver).all fun e =>
    (w.staged.any fun r => r.key == e.1 && r.ver == e.2) || p.failed.any fun f => f.1 == e.1

/-- A lookup some of whose rows failed (R337, R414, R416). -/
def State.failGather (s : State) (d : Desc) (p : Pooled) : State :=
  match firstSome (fun k => (p.failed.find? fun f => f.1 == k)) p.mem.uniq with
  | none => s
  | some (k, st) =>
    let ver := (p.mem.row (uIndex p.mem.uniq k)).2
    let n := if st = St.poisoned then
        (if s.verPoisoned (keyTbl k) ver then 0 else (p.failed.filter fun f => f.2 == St.poisoned).length)
      else p.failed.length
    s.endDesc d.id st n 0 k

/-- A descriptor ends holding its tile: its accumulators and key counts stay (R198). -/
def State.holdDone (s : State) (w : PWin) (p : Pooled) (d : Desc) : State :=
  let tiles := p.tiles d w.slices
  let sums := tiles.flatMap fun t => ((List.range (t.hi - t.lo)).map (t.lo + ·)).map fun b => s.tileSum w p d t b
  let counts := (List.range d.bags).map fun b => s.bagKeysOf d p.mem b
  let dig := s.gatherDigest p d
  let ovf := sums.any Acc.ovf
  let old := mgetD s.sp.tiles d.tile { owner := d.ring }
  let new : NamedTile := { old with held := true, bags := d.bags, dim := p.mem.dim d, pool := d.pool, acc := sums.map Acc.keep,
                                    counts := counts, digest := dig, pos := p.pos0 }
  let s1 := (s.onSp fun x => { x with tiles := mset x.tiles d.tile new }).tell
    [.count Ctr.pairsPooled p.mem.pairs.length, .count Ctr.tilesHeld 1]
  s1.settle d.id fun x =>
    { x with flags := withFlag x.flags Fl.overflow (x.overflow || ovf), digest := dig, detail := p.mem.uniq.length, done := 0 }

/-! ## Hoops (R14, R184, R195) -/

/-- The row blocks of one tile that has pairs: the rounds in which it pools first and last (R185). -/
structure Block where
  id    : Nat
  tile  : TileRef
  first : Nat
  last  : Nat
  deriving DecidableEq, Repr

/-- The blocks of tiles in order, each with its rows; `seen` are the rows that the tiles before it take at each position. -/
def blocksFrom : List (Nat × TileRef × List Item) → SMap (List Item) → List Block
  | [], _ => []
  | (id, t, xs) :: l, seen =>
    let b := mgetD seen t.pos []
    let n := fun (ys : List Item) => (cutRounds (b ++ ys) [] 0).length - 1
    { id := id, tile := t, first := n (xs.take 1), last := n xs } :: blocksFrom l (mset seen t.pos (b ++ xs))

/-- The blocks of a window, in the order in which each slice takes them. -/
def State.blocks (s : State) (w : PWin) : List Block :=
  blocksFrom (w.members.flatMap fun p => match s.desc p.mem.id with
    | none => []
    | some d =>
      if d.opc = 0x18 then []
      else (p.tiles d w.slices).filterMap fun t =>
        let xs := (t.pairs p.mem.pairs).map fun e => p.mem.item e.2.u
        if xs.isEmpty then none else some (d.id, t, xs)) []

/-- Slice positions that a named tile holds. -/
def NamedTile.poss (t : NamedTile) : List Nat :=
  match t.pos with
  | none => []
  | some p => (List.range (ceilDiv t.bags (bptOf t.dim))).map (p + ·)

/-- Hoops that are taken at a slice: two at most (R15). -/
def State.hoopsAt (s : State) (pos : Nat) : Nat :=
  (s.sp.hoops.filter fun h => h.pos == pos).length + (s.sp.tiles.filter fun e => e.2.held && e.2.poss.contains pos).length

/-- A block has been admitted: its tile holds a hoop or has drained. A chain that goes on from a held tile has that tile's hoop, and a
descriptor with a failed row pools no more. -/
def State.admitted (s : State) (w : PWin) (b : Block) : Bool :=
  match w.members.find? fun p => p.mem.id == b.id with
  | none => true
  | some p =>
    !p.failed.isEmpty || p.drained.contains (b.tile.pos, b.tile.tile) ||
      ((s.desc b.id).any fun d => (s.heldTile d).isSome) ||
      s.sp.hoops.contains { pos := b.tile.pos, wid := w.wid, id := b.id, tile := b.tile.tile }

/-- Admit a block whose round has begun, where its slice has a hoop free, is not gated and is not retired (R14, R195, R368, R418). -/
def State.openBlock (w : PWin) (s : State) (b : Block) : State :=
  if s.admitted w b || decide (w.round ≤ b.first) || decide (2 ≤ s.hoopsAt b.tile.pos) || s.pw.gated.contains (b.tile.pos / 8) ||
    s.rl.retiring.contains b.tile.pos then s
  else (s.onSp fun x => { x with hoops := x.hoops ++ [{ pos := b.tile.pos, wid := w.wid, id := b.id, tile := b.tile.tile }] }).softStart w.wid
    [b.tile.pos] b.id

/-- Admit what can be admitted, window by window; a descriptor with a failed row gives its hoops up. -/
def State.letTiles (s : State) : State :=
  let ok := fun (h : Hoop) => s.sp.pwins.any fun w => w.wid == h.wid && w.members.any fun p => p.mem.id == h.id && p.failed.isEmpty
  State.forEach (fun s (w : PWin) => State.forEach (State.openBlock w) (s.blocks w) s) s.sp.pwins
    (s.onSp fun x => { x with hoops := x.hoops.filter ok })

/-- Every block of the rounds that have begun has been admitted. -/
def State.blocksIn (s : State) (w : PWin) : Bool := (s.blocks w).all fun b => decide (w.round ≤ b.first) || s.admitted w b

/-- The tiles of a descriptor that pool have their hoops. -/
def State.tilesOpen (s : State) (w : PWin) (id : Nat) : Bool := (s.blocks w).all fun b => b.id != id || s.admitted w b

/-! ## The members of a window -/

/-- A member of a sorted window ends, where it can: the flag says that it has. -/
def State.settleMember (s : State) (w : PWin) (p : Pooled) : State × Bool :=
  match s.desc p.mem.id with
  | none => (s, true)
  | some d =>
    if d.opc = 0x18 then
      if w.granted && decide (w.plan.length ≤ w.round) && w.asked.isEmpty && w.capped.isEmpty then
        (s.prefetchEnd d.id p.mem.uniq.length (p.mem.uniq.filterMap fun k => p.failed.find? fun f => f.1 == k), true)
      else (s, false)
    else if !w.granted || !(p.resolved w) then (s, false)
    else if !p.failed.isEmpty then (s.failGather d p, true)
    else if d.hold then (if s.tilesOpen w d.id then (s.holdDone w p d, true) else (s, false))
    else if (p.tiles d w.slices).all fun t => p.drained.contains (t.pos, t.tile) then (s.endGather p d, true)
    else (s, false)

/-- End the members of a window that can end. -/
def State.settleWin (s : State) (wid : Nat) : State :=
  match s.pwin wid with
  | none => s.tidyWins
  | some w =>
    (State.forEach (fun s p =>
      let r := s.settleMember w p
      if r.2 then r.1.onPwin wid fun x => x.without p.mem.id else s) w.members s).tidyWins

/-! ## TILE_DRAIN (R191, R195) -/

/-- End what can end, in every window. -/
def State.settleAll (s : State) : State := State.forEach State.settleWin (s.sp.pwins.map (·.wid)) s

/-- Every row of a tile's pairs is staged, and the last round in which it pools has begun. -/
def State.tilePooled (s : State) (w : PWin) (p : Pooled) (t : TileRef) : Bool :=
  ((t.pairs p.mem.pairs).all fun e =>
    let r := p.mem.row e.2.u
    w.staged.any fun x => x.key == r.1 && x.ver == r.2) &&
  (s.blocks w).all fun b => b.id != p.mem.id || b.tile != t || decide (b.last < w.round)

/-- A tile's hoop is the one to drain at its slice: the first that opened of its window's hoops there, so that a tile does not wait for one
of another window whose rows are held up (R17). A tile without pairs, or of a chain that goes on from a held tile, waits for no hoop of
another. -/
def State.hoopTurn (s : State) (w : PWin) (p : Pooled) (d : Desc) (t : TileRef) : Bool :=
  (t.pairs p.mem.pairs).isEmpty || (s.heldTile d).isSome ||
    (s.sp.hoops.find? fun h => h.pos == t.pos && h.wid == w.wid) == some { pos := t.pos, wid := w.wid, id := d.id, tile := t.tile }

/-- A tile may drain: it has closed after its last add, no row of its descriptor has failed, it is its turn at its slice, its slice is not
gated (R368), and its results may be written. -/
def State.mayDrain (s : State) (w : PWin) (p : Pooled) (d : Desc) (tiles : List TileRef) (t : TileRef) : Bool :=
  let o := orowOf d.outfmt (p.mem.dim d) d.clsS
  d.opc != 0x18 && !d.hold && w.granted && p.failed.isEmpty && s.tilePooled w p t && p.tileTurn tiles t && s.hoopTurn w p d t &&
    !(s.pw.gated.contains (t.pos / 8)) && s.canWrite d (p.mem.dim d) (t.lo * o) (t.hi * o)

/-- What a tile meets on its slice: residue mismatches of its row blocks and of its output stage, the first of each computed again, and
words of its hoop that fail their check, read again once and then pooled again from the tile's first pair (R205, R408, R410, Table 118).
A slice is retired by a row block that fails twice and by a word that fails on both reads (R418). -/
def State.tellErrs (s : State) (pos : Nat) (e : Errs) : State :=
  (s.tell [.count Ctr.residueFail (e.lane + e.out), .count Ctr.parSram (min e.store 4), .count Ctr.recReread (b2n (e.store == 1 || e.store == 3)),
    .count Ctr.recRecompute (b2n (e.lane != 0) + b2n (e.out != 0) + b2n (decide (2 ≤ e.store)))]).sliceFound pos (e.lane + e.store)
    (decide (2 ≤ e.lane ∨ 2 ≤ e.store))

/-- A tile cannot be drained for its errors: a computation has failed twice, or its hoop has failed after it was pooled again. A hoop that
a chain goes on from cannot be pooled again. -/
def State.lostTile (s : State) (d : Desc) (e : Errs) : Bool :=
  decide (2 ≤ e.lane ∨ 2 ≤ e.out ∨ (if (s.heldTile d).isSome then 2 else 4) ≤ e.store)

/-- A second error in a computation ends the descriptor with DATA_ERROR, and no more of its result is written (R205, R412). -/
def State.spoilt (s : State) (id : Nat) : State := (s.abandon id).endDesc id St.dataError 0 0 0

/-- TILE_DRAIN (R191, R195): a closed tile drains through the output stage, and its hoop is free for the next. -/
def State.tileDrain (s : State) (wid id pos tile : Nat) (fault : Option (Nat × BitVec 8)) (errs : Errs) : State :=
  let s0 := s.letTiles
  match s0.pwin wid, s0.desc id with
  | some w, some d =>
    match w.members.find? fun p => p.mem.id == id with
    | none => s0
    | some p =>
      let tiles := p.tiles d w.slices
      match tiles.find? fun t => t.pos == pos && t.tile == tile with
      | none => s0
      | some t =>
        if !(s0.mayDrain w p d tiles t) then s0
        else
          let s1 := s0.tellErrs pos errs
          ((if s0.lostTile d errs then s1.spoilt id else s1.drainTile w p d tiles t fault).letTiles).settleAll
  | _, _ => s0

/-- TILE_DRAIN. -/
def execTileDrain (win id pos tile : Nat) (drain : TileEnd) (s : State) : Host.Outcome State Fault Refusal :=
  .next (s.tileDrain win id pos tile drain.fault drain.errs)

end Sys2Proof.Machine
end

