-- ==== Sys2Proof/Machine/Pillow.lean ====
section
/-!
DEFINITION. Apply epochs, the merge caches and the pillow (R232 to R234), pillow reservations (R243), and the acceptance of a
contribution (R242, R244, R247).
-/

namespace Sys2Proof.Machine

/-! ## Epochs (R232) -/

/-- A of a table. -/
def State.epochOf (s : State) (h : Nat) : BitVec 32 := mgetD s.tb.epochs h 0

/-- Epoch e is more than 15 ahead of A (R244). -/
def tooFarAhead (a e : BitVec 32) : Bool := decide (15 < (e - a).toNat ∧ (e - a).toNat < 2 ^ 31)

/-- How a contribution is taken (Table 67). -/
inductive Taken where
  | held | folded | late | dropped
  deriving DecidableEq, Repr

/-- Table 67, for an epoch that is not too far ahead. -/
def takenAs (a e : BitVec 32) (lag : Nat) (drop : Bool) : Taken :=
  if (e - a).toNat < 2 ^ 31 then .held
  else if (a - e).toNat ≤ lag then .folded
  else if drop then .dropped
  else .late

/-- CRH_UPD_CFG of a table. -/
def State.updOf (s : State) (h : Nat) : Word64 := mgetD s.updCfg h 0

/-! ## Space (R232, R233) -/

/-- Bytes of an entry of DIM sums. -/
def entryBytes (dim : Nat) : Nat := 16 + 4 * dim

def Entry.bytes (e : Entry) : Nat := entryBytes e.sums.length

/-- Bytes of the pillow held or reserved, in whole granules: by scatters, and by messages that have left the remote intake (R243, R345). -/
def State.pillowUsed (s : State) : Nat :=
  granules (sumBy Entry.bytes s.up.pillow + sumBy Entry.bytes s.up.merge) * 4096 + sumBy (fun e => e.2) s.up.resv +
    sumBy (fun (b : InBatch) => granules b.resv * 4096) s.up.inb

/-- The update area in bytes. -/
def State.updBytes (s : State) : Nat := s.updUnits * unitBytes

/-- n more bytes of the pillow may be taken. -/
def State.pillowRoom (s : State) (n : Nat) : Bool :=
  decide (s.pillowUsed + n ≤ s.pillowShare ∧ s.pillowUsed + n ≤ s.updBytes - s.twinUsed)

/-- A twin of n bytes finds space: the area less what the pillow holds. -/
def State.twinRoom (s : State) (n : Nat) : Bool :=
  decide (granules (s.twinBytes + slotOf n) * 4096 + s.pillowUsed ≤ s.updBytes)

/-! ## Entries (R232, R234) -/

def Entry.is (e : Entry) (tbl ver row : Nat) (epoch : BitVec 32) : Bool :=
  e.tbl == tbl && e.ver == ver && e.row == row && e.epoch == epoch

def Entry.same (a b : Entry) : Bool := a.is b.tbl b.ver b.row b.epoch

/-- Two entries of one row and epoch as one; each add rounds. An entry that has lost its sums adds none. -/
def Entry.join (ties : Bool) (a b : Entry) : Entry :=
  { a with sums := if a.n = 0 then b.sums else if b.n = 0 then a.sums else List.zipWith (fadd ties) a.sums b.sums
           n := a.n + b.n, lostN := a.lostN + b.lostN, late := a.late || b.late }

/-- The rounding rule of a table's updates: its owner context's (R253). -/
def State.updTies (s : State) (h : Nat) : Bool := ((s.table h).map fun t => s.tblTies t).getD false

/-- Put an entry into a list of entries, joining it to the entry of its row and epoch. -/
def putEntry (ties : Bool) (e : Entry) (l : List Entry) : List Entry :=
  if l.any (Entry.same e) then l.map fun x => if Entry.same e x then x.join ties e else x else l ++ [e]

/-- The group of an entry's owning pipe. -/
def State.entryGroup (s : State) (e : Entry) : Nat := s.pipeOf (keyOf e.tbl e.row) e.ver

/-- Note an access to an entry of the pillow in the update area (R232, R301; log entry 105). -/
def State.notePillow (s : State) (e : Entry) (write : Bool) : State :=
  s.noteScratch 2 (placeHash (keyOf e.tbl e.row) + e.epoch.toNat) e.bytes write

/-- Entries of one group's merge cache (R232). -/
def mergeCap : Nat := 4096

/-- The oldest merge-cache entry of a group goes to the pillow. -/
def State.mergeEvict (s : State) (group : Nat) : State :=
  match s.up.merge.find? fun e => s.entryGroup e == group with
  | none => s
  | some e =>
    ((s.notePillow e true).onUp fun u =>
        { u with merge := delFirst (Entry.same e) u.merge, pillow := putEntry (s.updTies e.tbl) e u.pillow }).count
      Ctr.mergeEvict

/-- MERGE_EVICT. -/
def execMergeEvict (group : Nat) (s : State) : Host.Outcome State Fault Refusal := .next (s.mergeEvict group)

/-- Merge a contribution in its owning pipe's merge cache; a full one first gives up its oldest entry. -/
def State.mergeIn (s : State) (e : Entry) : State :=
  let g := s.entryGroup e
  let full := !(s.up.merge.any (Entry.same e)) && decide (mergeCap ≤ (s.up.merge.filter fun x => s.entryGroup x == g).length)
  let s1 := if full then s.mergeEvict g else s
  s1.onUp fun u => { u with merge := putEntry (s.updTies e.tbl) e u.merge }

/-! ## Acceptance (R244, R247) -/

/-- Take one contribution in. -/
def State.acceptOne (s : State) (k : Key) (ver : Nat) (epoch : BitVec 32) (v : List F32) : State × Taken :=
  let h := keyTbl k
  let a := s.epochOf h
  let c := s.updOf h
  let w := takenAs a epoch (bitf c 0 8) (bitb c 8)
  let e : Entry := { tbl := h, ver := ver, row := keyRow k, epoch := if w = .held then epoch else a, sums := v, n := 1,
                     late := w == .late }
  match w with
  | .held => ((s.mergeIn e).count Ctr.contribAccepted, w)
  | .folded => ((s.mergeIn e).count Ctr.contribFolded, w)
  | .late => ((s.mergeIn e).count Ctr.contribLate, w)
  | .dropped => (s.count Ctr.contribDropped, w)

/-- What became of a run of contributions: accepted, late, dropped. -/
structure Tally where
  done : Nat := 0
  late : Nat := 0
  drop : Nat := 0
  deriving DecidableEq, Repr

def Tally.add (t : Tally) : Taken → Tally
  | .held => { t with done := t.done + 1 }
  | .folded => { t with done := t.done + 1 }
  | .late => { t with done := t.done + 1, late := t.late + 1 }
  | .dropped => { t with drop := t.drop + 1 }

/-- A contribution: its row, the version it is bound to, its values. -/
structure Contrib where
  key : Key
  ver : Nat
  val : List F32
  deriving DecidableEq, Repr

/-- Take contributions in, in order. -/
def State.acceptAll (s : State) (epoch : BitVec 32) (t : Tally) : List Contrib → State × Tally
  | [] => (s, t)
  | c :: l =>
    let r := s.acceptOne c.key c.ver epoch c.val
    State.acceptAll r.1 epoch (t.add r.2) l

/-! ## Reservations (R243) -/

/-- Rows of a scatter that are not forwarded. -/
def State.ownRows (s : State) (d : Desc) : List Key :=
  if d.rowsForm then
    match s.up.sorted.find? fun m => m.id == d.id with
    | none => []
    | some m => m.uniq.filter fun k => !(m.forwards d (keyTbl k))
  else ((s.claimedBy d.id).map (·.uniq)).getD []

/-- Bytes of a scatter's reservation: an entry for each of its rows. -/
def State.scatterNeed (s : State) (d : Desc) : Nat :=
  sumBy (fun k => entryBytes (((s.table (keyTbl k)).map (·.dim)).getD 0)) (s.ownRows d)

/-- The scatter at the head of the couching intake queue reserves, where it can; the flag says that it has left the queue. -/
def State.reserveHead (s : State) : State × Bool :=
  match s.up.intake with
  | [] => (s, false)
  | id :: t =>
    match s.desc id with
    | none => (s.onUp fun u => { u with intake := t }, true)
    | some d =>
      let need := s.scatterNeed d
      let n := granules need * 4096
      if s.pillowShare < n then
        ((s.onUp fun u => { u with intake := t }).endDesc id St.windowOverflow 2 0 (BitVec.ofNat 64 need), true)
      else if s.pillowRoom n then
        ((s.onUp fun u => { u with intake := t, resv := mset u.resv id n }).onDesc id fun x => { x with stage := .scatter, need := n }, true)
      else (s, false)

/-- Reserve for the head, and those behind it, while they can; the fuel is the queue's length. -/
def State.reserveScatters (s : State) : Nat → State
  | 0 => s
  | f + 1 =>
    let r := s.reserveHead
    if r.2 then State.reserveScatters r.1 f else r.1

/-- Count the scatters that wait now, once each. -/
def State.noteWaits (s : State) : State :=
  let ids := (s.fe.descs.filter fun d => d.stage == .reserve && !d.pillowed && s.up.intake.contains d.id).map (·.id)
  State.forEach (fun s id => match s.desc id with
    | some d => (s.onDesc id fun x => { x with need := granules (s.scatterNeed d) * 4096, pillowed := true }).count Ctr.pillowWait
    | none => s) ids s

def intakeLe (a b : Nat) : Bool := decide (a ≤ b)

/-- A scatter joins the couching intake queue, which is in the order in which scatters were queued, and reserves if it can. -/
def State.enterIntake (s : State) (id : Nat) : State :=
  let s1 := (s.onUp fun u => { u with intake := insSorted intakeLe id u.intake }).onDesc id fun x => { x with stage := .reserve }
  (s1.reserveScatters s1.up.intake.length).noteWaits

/-- PILLOW_FULL: a scatter has waited 1 ms; once per scatter. -/
def State.pillowFull (s : State) (id : Nat) : State :=
  match s.desc id with
  | none => s
  | some d =>
    if d.stage == .reserve && s.up.intake.contains id && !d.told then
      (s.onDesc id fun x => { x with told := true }).tell
        [ringEvent 0x901 d.ring [(8, 4, d.ring), (12, 4, d.seq.toNat), (16, 8, d.need)]]
    else s

/-- PILLOW_FULL. -/
def execPillowFull (id : Nat) (s : State) : Host.Outcome State Fault Refusal := .next (s.pillowFull id)

end Sys2Proof.Machine
end

