-- ==== Sys2Proof/Machine/Spool.lean ====
section
/-!
DEFINITION. Sorted windows: named-tile positions (R199), planning, spool (R188), and the commands TILE_POSITIONS_GRANT, SPOOL_GRANT,
SPOOL_FULL (R208), TILE_REL (R200).
-/

namespace Sys2Proof.Machine

/-! ## Named-tile positions (R199) -/

/-- The lowest run of c consecutive positions that hold no named tile. -/
def State.freePos (s : State) (c : Nat) : Option Nat :=
  let used := s.sp.tiles.flatMap fun e => e.2.poss
  (List.range (s.slicesNow + 1 - c)).find? fun p => (List.range c).all fun i => !(used.contains (p + i))

/-- Give a gather its tile's positions: those of the chain it continues, else free ones, where there are any. -/
def State.grantTile (s : State) (wid : Nat) (p : Pooled) : State :=
  match s.desc p.mem.id with
  | none => s
  | some d =>
    if d.opc != 1 || d.tile = 0 || p.pos0.isSome then s
    else
      let t := mgetD s.sp.tiles d.tile { owner := d.ring }
      match (if t.held then t.pos else none).or (s.freePos (ceilDiv d.bags (bptOf (p.mem.dim d)))) with
      | none => s
      | some q =>
        let t1 : NamedTile := if t.held then t else { t with pos := some q, bags := d.bags, dim := p.mem.dim d, pool := d.pool }
        (s.onSp fun x => { x with tiles := mset x.tiles d.tile t1 }).onPooled wid d.id fun y => { y with pos0 := some q }

/-! ## Spool (R187, R188) -/

/-- A window whose row blocks lie on a gated slice group: PMH_STEP_REQ is raised (R368), where the group was gated after the window's
descriptors had been admitted. -/
def State.wakeGroups (s : State) (w : PWin) : State :=
  if !s.pw.stepReq && w.poss.any fun p => s.pw.gated.contains (p / 8) then (s.onPw fun x => { x with stepReq := true }).send .stepReq else s

/-- Reserve a window's spool; its tier-2 rows are asked for. -/
def State.grantSpool (s : State) (wid : Nat) : State :=
  match s.pwin wid with
  | none => s
  | some w => (((s.onPwin wid fun x => { x with granted := true }).wakeGroups w).askTier2 w).settleWin wid

def State.spoolFits (s : State) (w : PWin) : Bool := decide (s.spoolUsed + w.spool ≤ s.spoolArea)

/-- Windows that wait for spool, in the order in which their sorts completed. -/
def State.spoolQueue (s : State) : List PWin := s.sp.pwins.filter fun w => w.placed && !w.granted

/-- A planned window takes its spool at once, or waits behind those that wait. -/
def State.trySpool (s : State) (wid : Nat) : State :=
  match s.pwin wid with
  | none => s
  | some w =>
    if w.spool = 0 || ((s.spoolQueue.all fun v => v.wid == wid) && s.spoolFits w) then s.grantSpool wid
    else (s.onPwin wid fun x => { x with waited := true }).count Ctr.spoolWait

/-- The plan of a window. -/
def State.windowPlan (s : State) (w : PWin) : List (List Need) :=
  match w.members with
  | [p] => (match s.desc p.mem.id with
    | some d => if d.opc = 0x18 then s.prefetchPlan p.mem else s.planOf w
    | none => [])
  | _ => s.planOf w

/-- Plan a window that has its positions, as it stands now. -/
def State.planWin (s : State) (w : PWin) : PWin :=
  let plan := s.windowPlan w
  { w with plan := plan, spool := granules (spoolNeed plan []) * 4096, placed := true }

/-- Place a window of one descriptor. -/
def State.placeOne (s : State) (wid : Nat) : State :=
  match s.pwin wid with
  | none => s
  | some w =>
    if w.placed || !(s.positioned w) then s
    else
      let v := s.planWin w
      let s1 := s.onPwin wid fun _ => v
      if s.spoolArea < v.spool then
        match v.members.head? with
        | some p => (s1.abandon p.mem.id).endDesc p.mem.id St.windowOverflow 1 0 (BitVec.ofNat 64 (spoolNeed v.plan []))
        | none => s1
      else s1.trySpool wid

/-- A packed window's descriptors as windows of their own, numbered from n. -/
def PWin.split (w : PWin) (n : Nat) : List PWin :=
  (List.zip (List.range w.members.length) w.members).map fun e =>
    { wid := n + e.1, members := [{ e.2 with rot := 0 }], slices := w.slices }

/-- A member of a window names a tile. -/
def State.namesTile (s : State) (p : Pooled) : Bool := (s.desc p.mem.id).any fun d => d.opc == 1 && d.tile != 0

/-- A packed window waits as one for the positions of a chain that it begins. Where others of its descriptors name tiles too, whose positions
that chain might wait for, those that wait go on as windows of their own (R155, R199; log entry 106). -/
def State.partChains (s : State) (wid : Nat) : State :=
  match s.pwin wid with
  | none => s
  | some w =>
    let late := w.members.filter fun p => !(s.positioned { w with members := [p] })
    if w.placed || late.isEmpty || (w.members.filter s.namesTile).length ≤ 1 then s
    else
      let n := s.sp.nextWid
      let own := ({ w with members := late } : PWin).split n
      let rest := w.members.filter fun p => !(late.any fun q => q.mem.id == p.mem.id)
      s.onSp fun x =>
        { x with
          nextWid := n + own.length
          pwins := x.pwins.flatMap fun y => if y.wid = wid then (if rest.isEmpty then [] else [{ y with members := rest }]) ++ own else [y] }

/-- Place a window once it has its positions: its rounds and spool are planned; a packed window that needs more than the whole
spool area is split back into its descriptors. -/
def State.placeWin (s : State) (wid : Nat) : State :=
  match s.pwin wid with
  | none => s
  | some w =>
    match w.members with
    | _ :: _ :: _ =>
      if w.placed || !(s.positioned w) then s
      else
        let v := s.planWin w
        if s.spoolArea < v.spool then
          let n := s.sp.nextWid
          let parts := w.split n
          let s1 := s.onSp fun x =>
            { x with nextWid := n + parts.length, pwins := x.pwins.flatMap fun y => if y.wid = wid then parts else [y] }
          State.forEach (fun s (y : PWin) => s.placeOne y.wid) parts (s1.count Ctr.spoolSplit)
        else (s.onPwin wid fun _ => v).trySpool wid
    | _ => s.placeOne wid

/-- A window whose sort is done. -/
def State.addPwin (s : State) (w : PWin) : State :=
  let s1 := s.onSp fun x => { x with pwins := x.pwins ++ [w] }
  ((State.forEach (fun s p => s.grantTile w.wid p) w.members s1).partChains w.wid).placeWin w.wid

/-! ## Commands -/

/-- SPOOL_GRANT (R188): the head of the waiting windows takes its spool, or a later one while at most 64 have passed it. -/
def State.spoolGrant (s : State) : State :=
  match s.spoolQueue with
  | [] => s
  | h :: t =>
    if s.spoolFits h then s.grantSpool h.wid
    else if h.passed < 64 then
      match t.find? fun w => s.spoolFits w with
      | none => s
      | some w => (s.onPwin h.wid fun x => { x with passed := x.passed + 1 }).grantSpool w.wid
    else s

/-- SPOOL_GRANT. -/
def execSpoolGrant (s : State) : Host.Outcome State Fault Refusal := .next s.spoolGrant

/-- SPOOL_FULL (R208): the head window has waited 1 ms; once per head window. -/
def State.spoolFull (s : State) : State :=
  match s.spoolQueue with
  | [] => s
  | h :: _ =>
    if h.told then s
    else
      let d := h.members.head?.bind fun p => s.desc p.mem.id
      let ring := (d.map (·.ring)).getD 0
      (s.onPwin h.wid fun x => { x with told := true }).tell
        [ringEvent 0x701 ring [(8, 4, ring), (12, 4, (d.map fun d => d.seq.toNat).getD 0), (16, 8, h.spool)]]

/-- SPOOL_FULL. -/
def execSpoolFull (s : State) : Host.Outcome State Fault Refusal := .next s.spoolFull

/-- TILE_POSITIONS_GRANT (R199): a sorted descriptor that begins a chain goes on once its positions are free. -/
def State.tileGrant (s : State) (id : Nat) : State :=
  match s.sp.pwins.find? fun w => w.members.any fun p => p.mem.id == id && p.pos0.isNone with
  | none => s
  | some w => match w.members.find? fun p => p.mem.id == id with
    | none => s
    | some p => (s.grantTile w.wid p).placeWin w.wid

/-- TILE_POSITIONS_GRANT. -/
def execTilePositionsGrant (id : Nat) (s : State) : Host.Outcome State Fault Refusal := .next (s.tileGrant id)

/-- A descriptor of a tile's chain is pooling. -/
def State.chainPooling (s : State) (owner tile : Nat) : Bool :=
  s.fe.descs.any fun d => d.opc == 1 && d.tile == tile && d.ring == owner && d.stage == .pooling

/-- TILE_REL (R196, R200): the named tile is released, at once or when the chain's descriptor that is pooling completes. -/
def State.tileRel (s : State) (p : Path) (val : Word64) : State :=
  s.command p Reg.tileRel 31 1 false none (BitVec.ofNat 64 (val.toNat ||| 2 ^ 31)) fun s =>
    let n := bitf val 0 12
    match (if n = 0 then none else mget s.sp.tiles n) with
    | none => s.finish p Reg.tileRel 0
    | some t =>
      if s.chainPooling t.owner n then s.onSp fun x => { x with tiles := mset x.tiles n { t with release := true } }
      else (s.endTile n s.fe.nextId).finish p Reg.tileRel 0

/-- TILE_REL. -/
def execTileRel (p : Path) (val : Word64) (s : State) : Host.Outcome State Fault Refusal := .next (s.tileRel p val)

end Sys2Proof.Machine
end

