-- ==== Sys2Proof/Machine/Sorting.lean ====
section
/-!
DEFINITION. The descriptors that enter the bobbinet (R171 to R182, R196 to R199, R112), the end of a sort (R158 to R164, R167, R239), row
run-ahead (R166), and CRH_IMAP_REL (R168).
-/

namespace Sys2Proof.Machine

/-! ## Admission -/

/-- An earlier descriptor of the ring that names the same tile has not completed (R197). -/
def State.earlierTile (s : State) (d : Desc) : Bool :=
  d.opc == 1 && d.tile != 0 && (s.ringDescs d.ring).any fun e => decide (e.id < d.id) && e.opc == 1 && e.tile == d.tile

/-- Zero bytes of an inline result, and the pooling stage: a descriptor begins to be pooled. -/
def State.startPooling (s : State) (id dim : Nat) : State :=
  s.onDesc id fun d =>
    { d with stage := .pooling, inl := if d.inlineOut dim then List.replicate (gatherBytes d dim) 0 else [] }

/-- A gather with COUNT 0: it takes no sorter, and its results are zero (R179). -/
def State.emptyGather (s : State) (d : Desc) : State :=
  let m : Member' := { id := d.id, snap := s.tb.tables, fwd := s.fwdCfg, count := 0 }
  let n := s.sp.nextWid
  let s1 := ((if d.bound then s else s.bindBank d.id).startPooling d.id (m.dim d)).onDesc d.id fun x =>
    { x with binds := if d.namesVer then [(d.tbl, d.verField)] else [], ver := BitVec.ofNat 16 d.verField }
  (((s1.inputsDone d.id).onSp fun x => { x with nextWid := n + 1 }).addPwin { wid := n, members := [{ mem := m }], slices := s.slicesNow }).wakeSlices d

/-- Run a gather that is past the front end: it waits for a TABLE_SWITCH ahead of it (R145) and for its tile's turn (R197). -/
def State.gather (s : State) (d : Desc) : State :=
  if s.switchAhead d || s.earlierTile d then s
  else if s.verGone d then s.endDesc d.id St.versionGone 0 0 0
  else
    let dim := ((s.table d.tbl).map (·.dim)).getD 8
    let t := if d.opc = 1 && d.tile != 0 then (mget s.sp.tiles d.tile).filter fun t => t.owner == d.ring else none
    if t.any (·.broken) then
      (s.onSp fun x => { x with tiles := mset x.tiles d.tile { owner := d.ring } }).endDesc d.id St.dataError 0 0 0
    else if t.any fun t => t.held && (t.bags != d.bags || t.dim != dim || t.pool != d.pool) then s.endDesc d.id St.badFormat 10 0 0
    else if d.count = 0 then s.emptyGather d
    else s.admitWindow d

/-- GATHER_POOL (R171 to R182). -/
def execGatherPool (id : Nat) (s : State) : Host.Outcome State Fault Refusal :=
  .next (match s.readyFor id 0x01 fun _ => true with
    | none => s
    | some d => s.gather d)

/-- GATHER_SEQ (R177). -/
def execGatherSeq (id : Nat) (s : State) : Host.Outcome State Fault Refusal :=
  .next (match s.readyFor id 0x02 fun _ => true with
    | none => s
    | some d => s.gather d)

/-- PREFETCH ROW_LIST enters the bobbinet (R112). -/
def execRowList (id : Nat) (s : State) : Host.Outcome State Fault Refusal :=
  .next (match s.readyFor id 0x18 (· == 0) with
    | none => s
    | some d => if s.switchAhead d then s else if d.count = 0 then s.endOk id 0 else s.admitWindow d)

/-! ## WINDOW_COMPLETE -/

/-- A set of lists to keep, as the lookup leaves it (R164). -/
def keptSet (d : Desc) (m : Member') (chain : Bool) (bytes : Nat) : Kept :=
  { ring := d.ring, seq := d.seq, ctx := d.ctx, dim := m.dim d, bags := d.bags, pool := d.pool, epoch := d.epoch, chain := chain,
    weighted := d.weighted, uniq := m.uniq, uver := m.uver, pairs := m.pairs, inv := m.inv, nbag := bagKeys d m,
    coefs := if d.weighted then (coefsOf d m).map (·.v) else [], bytes := bytes }

/-- The lookup belongs to a held-tile chain (R238). -/
def State.inChain (s : State) (d : Desc) : Bool := d.hold || (s.heldTile d).isSome

/-- What one descriptor's lists become; the answer is its part of the sorted window. Spill space is released now, and the space that the
descriptor does not use with its completion (R158); lists kept hold their own. -/
def State.sortOne (s : State) (d : Desc) (m0 : Member') (rot : Nat) : State × Option Pooled :=
  let m := m0.lists d
  let s1 := s.countN Ctr.rowsUnique m.uniq.length
  let bytes := m.listBytes d
  let keep := keepsLists d m.snap m.keys && !d.listed
  let s2 := s1.onSp fun x =>
    { x with resvd := mset x.resvd d.id (resvBytes d false - (if keep then bytes else 0))
             kept := if keep then x.kept ++ [keptSet d m (s.inChain d) bytes] else x.kept }
  if d.opc = 3 then
    ((s2.onUp fun u => { u with sorted := u.sorted ++ [m] }).enterIntake d.id, none)
  else if d.opc = 0x18 then (s2.onDesc d.id fun x => { x with stage := .pooling }, some { mem := m })
  else
    let k := if d.tile = 0 then s.splitLog s.slicesNow d.bags m.pairs.length else 0
    (s2.startPooling d.id (m.dim d), some { mem := m, log2k := k, rot := rot })

/-- Sort a window's descriptors, in order. -/
def State.sortAll (s : State) (packed : Bool) : List Member' → State × List Pooled
  | [] => (s, [])
  | m :: t =>
    let r := match s.desc m.id with
      | none => (s, none)
      | some d => s.sortOne d m (if packed then Sys2Proof.Config.rotation d.id else 0)
    let z := State.sortAll r.1 packed t
    (z.1, r.2.toList ++ z.2)

/-- A window of a sorter fails a parity check: it restarts once from its key lists, which WINDOW_START takes in again, and a second error
ends its descriptors (R167, Table 118). -/
def State.sortParity (s : State) (k : Nat) (w : Window) : State :=
  let s1 := s.count Ctr.parSram
  if w.restarted then
    let s2 := s1.onSp fun x => { x with sorters := mdel x.sorters k }
    State.forEach (fun s (m : Member') => s.endDesc m.id St.dataError 0 0 0) w.members s2
  else
    State.forEach (fun s (m : Member') => s.readAnew m.id) w.members
      ((s1.onSp fun x => { x with sorters := mset x.sorters k { w with restarted := true, retake := true } }).tell
        [.count Ctr.sortRestart 1, .count Ctr.recRecompute 1])

/-- Note what a descriptor's sort takes of the window area: its lists, and, of a window that spills, its runs, which are written and read
again (R158, R159, R301). -/
def State.noteLists (s : State) (spills : Bool) (m : Member') : State :=
  match s.desc m.id with
  | none => s
  | some d =>
    let s1 := s.noteScratch 0 m.id (m.listBytes d) true
    if spills then (s1.noteScratch 0 m.id (8 * d.count) true).noteScratch 0 m.id (8 * d.count) false else s1

/-- WINDOW_COMPLETE (R158 to R164): the lists are emitted, the sorter is free, and the window goes on to fetch. -/
def State.sortDone (s : State) (k : Nat) (parity : Bool) : State :=
  match mget s.sp.sorters k with
  | none => s
  | some w =>
    if w.retake then s
    else if parity then s.sortParity k w
    else
      let s1 := s.onSp fun x => { x with sorters := mdel x.sorters k }
      let q0 := s1.sortAll (w.packed && decide (2 ≤ w.members.length)) w.members
      let q := (State.forEach (fun s (p : Pooled) => s.noteLists w.spills p.mem) q0.2 q0.1, q0.2)
      if q.2.isEmpty then q.1
      else q.1.addPwin { wid := w.wid, members := q.2, slices := s.slicesNow, packed := decide (2 ≤ q.2.length) }

/-- WINDOW_COMPLETE. -/
def execWindowComplete (sorter : Nat) (parity : Bool) (s : State) : Host.Outcome State Fault Refusal :=
  .next (s.sortDone sorter parity)

/-! ## Row run-ahead (R166) -/

/-- Keys scanned in each descriptor. -/
def State.raKeys (s : State) : Nat := bitf (s.cfg Reg.sortCtl) 32 16 * 64

/-- Count a dropped run-ahead under its cause (R110, R111). -/
def State.raDrop (s : State) (st : BitVec 8) : State :=
  s.count (if st = St.segMiss then Ctr.raDropNoseg else if st = St.rights then Ctr.raDropRights
    else if st = St.pageFault then Ctr.raDropUnmapped else Ctr.raDropRefused)

/-- A key goes to the front of the 4,096 most recently scanned. -/
def SortPool.scan (x : SortPool) (k : Key) : SortPool := { x with scanned := (k :: x.scanned.erase k).take 4096 }

/-- Scan one key under the version that its descriptor binds, against its table as it stands: the flag says whether the scan goes on. -/
def State.scanKey (s : State) (d : Desc) (m : Member') (rows : List (Key × RowSrc)) (fails : WbFails) (k : Key) : State × Bool :=
  let h := keyTbl k
  let ver := d.verOf m.snap h
  let s1 := s.onSp fun x => x.scan k
  match s.table h with
  | none => (s1, true)
  | some t =>
    match t.ver? ver with
    | none => (s1, true)
    | some v =>
      if t.backTier ≠ 1 || decide (t.rows ≤ keyRow k) || !(t.readable d.ctx) then (s1, true)
      else if s.sp.scanned.contains k then (s1.count Ctr.raDup, true)
      else
        if (s1.extentOf h ver (keyRow k)).isSome || s1.inStore k ver || s1.rowPoisoned h ver (keyRow k) ||
            (bandAt t (bandFor t.bands (s1.popularity k))).direct then (s1, true)
        else
          let src := ((rows.find? fun r => r.1 == k).map (·.2)).getD { data := [], status := St.tierUnreachable }
          if s1.backStatus t v ≠ St.ok then (s1.count Ctr.raDropRefused, false)
          else
            let q := (s1.count Ctr.raIssued).readRow t v k src
            if q.2.status ≠ St.ok then (q.1.raDrop src.status, false)
            else
              let r := q.1.admitForced t k ver q.2.data fails
              (if r.inStore k ver then r.onSp fun x => { x with raRows := (k, ver) :: x.raRows.filter fun e => e != (k, ver) } else r, true)

/-- Scan keys in order. -/
def State.scanKeys (s : State) (d : Desc) (m : Member') (rows : List (Key × RowSrc)) (fails : WbFails) : List (Option Key) → State
  | [] => s
  | none :: t => State.scanKeys s d m rows fails t
  | some k :: t =>
    let r := s.scanKey d m rows fails k
    if r.2 then State.scanKeys r.1 d m rows fails t else r.1

/-- The next descriptor that the scanner reads, in the order of the window queue. -/
def SortPool.nextScan (x : SortPool) : Option Member' := (x.queue.flatMap (·.members)).find? fun m => !m.seen

/-- The scanner has read a descriptor. -/
def SortPool.scanDone (x : SortPool) (id : Nat) : SortPool :=
  { x with queue := x.queue.map fun w => { w with members := w.members.map fun m => if m.id = id then { m with seen := true } else m } }

/-- RUN_AHEAD_SCAN: the scanner reads the first keys of the next descriptor whose window has not started. -/
def State.runAheadScan (s : State) (id : Nat) (keys : Feed) (rows : List (Key × RowSrc)) (fails : WbFails) : State :=
  match s.desc id, s.sp.nextScan.filter fun m => m.id == id with
  | some d, some m =>
    if !(bitb (s.cfg Reg.xlateCtl) 21) || s.raKeys = 0 then s
    else
      let f : WinFeed := { keys := keys, offs := { data := [] }, wgt := { data := [] } }
      let n := min s.raKeys d.count
      let ks := (rawKeys d f).take n
      let s1 := (s.onSp fun x => x.scanDone id).scanKeys d m rows fails ks
      if ks.length < n then (s1.countN Ctr.inboundBad (badReads (d.keyFeed f).status)).raDrop (d.keyFeed f).status else s1
  | _, _ => s

/-- RUN_AHEAD_SCAN. -/
def execRunAheadScan (id : Nat) (keys : Feed) (rows : List (Key × RowSrc)) (fails : WbFails) (s : State) : Host.Outcome State Fault Refusal :=
  .next (s.runAheadScan id keys rows fails)

/-! ## CRH_IMAP_REL (R167, R168) -/

/-- IMAP_REL: the kept lists of a ring's lookups up to a SEQ go; those that a scatter uses go when it completes. GO clears at once even then:
Table 46 has that release take effect with the scatter, and R168 has GO read 1 until the release is done, within 10 µs, which that completion
need not be (DESIGN CHOICE; log entry 35). -/
def State.imapRel (s : State) (p : Path) (val : Word64) : State :=
  s.command p Reg.imapRel 31 1 false none (BitVec.ofNat 64 (val.toNat ||| 2 ^ 31)) fun s =>
    let ring := bitf val 0 17
    let seq := BitVec.ofNat 32 (bitf val 32 32)
    let named := fun (k : Kept) => k.ring == ring && seqReached seq k.seq
    (s.freeKept named).cmdField p Reg.imapRel 31 1 0

/-- IMAP_REL. -/
def execImapRel (p : Path) (val : Word64) (s : State) : Host.Outcome State Fault Refusal := .next (s.imapRel p val)

end Sys2Proof.Machine
end

