-- ==== Sys2Proof/Machine/Scatter.lean ====
section
/-!
DEFINITION. SCATTER_GRAD (R235 to R239, R243, R244, R246): its contributions, their acceptance, and the batches it sends (R240, R241,
R245).
-/

namespace Sys2Proof.Machine

/-! ## Gradient source (R235) -/

/-- Row j of a gradient source of `dim` values a row, widened to FP32. -/
def gradRow (bf16 : Bool) (dim : Nat) (b : Bytes) (j : Nat) : List F32 :=
  if bf16 then (leWords 2 dim (slice b (j * dim * 2) (dim * 2))).map ofBf16
  else (leWords 4 dim (slice b (j * dim * 4) (dim * 4))).map (BitVec.ofNat 32 ·)

/-- A free FP32 value, by the model's counter (log entry 8). -/
def freeF32 (n : Nat) : F32 := BitVec.ofNat 32 (ofLE ((List.range 4).map fun i => Sys2Proof.Config.freeByte (n + i)))

/-- A vector cut to DIM elements; elements that nothing gives are free values. -/
def fitDim (n dim : Nat) (v : List F32) : List F32 :=
  (v.take dim) ++ (List.range (dim - v.length)).map fun i => freeF32 (n + 4 * i)

/-- Fit the vectors of contributions to their tables, taking free values where elements are missing. -/
def State.fitAll (s : State) : List Contrib → State × List Contrib
  | [] => (s, [])
  | c :: l =>
    let dim := ((s.table (keyTbl c.key)).map (·.dim)).getD c.val.length
    let v := fitDim s.free dim c.val
    let z := State.fitAll { s with free := s.free + 4 * (dim - c.val.length) } l
    (z.1, { c with val := v } :: z.2)

/-! ## Contributions -/

/-- acc[e] := round(acc[e] + round(t × g[e])) (R237). -/
def addScaled (ties : Bool) (t : F32) (acc g : List F32) : List F32 :=
  List.zipWith (fun a x => fadd ties a (fmul ties t x)) acc g

/-- f_b of R237: 1 in a held-tile chain and under every mode but MEAN and SQRTN (R238). -/
def Kept.factor (k : Kept) (ties : Bool) (bag : Nat) : F32 :=
  if k.chain then f32One else (modeFactor ties k.pool ((k.nbag[bag]?).getD 0)).getD f32One

/-- The coefficient a of pair i. -/
def Kept.coef (k : Kept) (i mult : Nat) : F32 := if k.weighted then (k.coefs[i]?).getD 0 else fofNat false mult

/-- The contribution of unique row u of a lookup's lists (R237). -/
def Kept.rowSum (k : Kept) (ties : Bool) (grad : Nat → List F32) (u : Nat) : List F32 :=
  let mine := (List.zip (List.range k.pairs.length) k.pairs).filter fun e => e.2.u == u
  mine.foldl (fun acc e => addScaled ties (fmul ties (k.coef e.1 e.2.mult) (k.factor ties e.2.bag)) acc (grad e.2.bag))
    (List.replicate k.dim 0)

/-- The contributions of a LISTS-form scatter: one for each unique row of a table with UPD 1. -/
def State.listContribs (s : State) (d : Desc) (k : Kept) (b : Bytes) : List Contrib :=
  (List.zip (List.range k.uniq.length) (List.zip k.uniq k.uver)).filterMap fun e =>
    if (s.table (keyTbl e.2.1)).any (·.upd) then
      some { key := e.2.1, ver := e.2.2, val := k.rowSum d.ties (gradRow d.gbf16 k.dim b) e.1 }
    else none

/-- The contribution of unique row u of a ROWS-form scatter: the sum of the gradient rows of its keys, in key order (R239). -/
def Member'.rowSum (m : Member') (ties : Bool) (grad : Nat → List F32) (u : Nat) : List F32 :=
  let at' := (List.range m.inv.length).filter fun i => ((m.inv[i]?).getD none).any fun p => (m.pairs[p]?).any fun q => q.u == u
  match at' with
  | [] => []
  | i :: t => t.foldl (fun acc j => List.zipWith (fadd ties) acc (grad j)) (grad i)

/-- The contributions of a ROWS-form scatter, forwarded ones among them. -/
def rowContribs (d : Desc) (m : Member') (dim : Nat) (b : Bytes) : List Contrib :=
  (List.zip (List.range m.uniq.length) (List.zip m.uniq m.uver)).map fun e =>
    { key := e.2.1, ver := e.2.2, val := m.rowSum d.ties (gradRow d.gbf16 dim b) e.1 }

/-! ## Batches (R241) -/

/-- Elements that one message carries. -/
def msgElems : Nat := 112

/-- The messages of one contribution from element e on; the fuel is the number of elements. -/
def msgsOf (k : Key) (epoch batch : BitVec 32) (sender : BitVec 16) : Nat → Nat → List F32 → List ContribMsg
  | 0, _, _ => []
  | f + 1, e, v =>
    if v.isEmpty then []
    else
      ({ key := k, epoch := epoch, elem0 := e, data := v.take msgElems, last := false, batch := batch, sender := sender,
         msgs := 0 } : ContribMsg) :: msgsOf k epoch batch sender f (e + msgElems) (v.drop msgElems)

/-- LAST and MSGS go into a batch's last message. -/
def closeBatch (n : Nat) : List ContribMsg → List ContribMsg
  | [] => []
  | [m] => [{ m with last := true, msgs := n }]
  | m :: t => m :: closeBatch n t

/-- The bytes of a contribution message (Table 65). -/
def ContribMsg.bytes (m : ContribMsg) : Bytes :=
  let d := m.data.flatMap fun x => leBytes 4 x.toNat
  leBytes 8 m.key.toNat ++ leBytes 4 m.epoch.toNat ++ leBytes 2 m.elem0 ++ leBytes 1 m.data.length ++ leBytes 1 (b2n m.last) ++
    leBytes 4 m.batch.toNat ++ leBytes 4 m.sender.toNat ++ leBytes 4 m.msgs ++ leBytes 4 0 ++ d ++ List.replicate (480 - d.length) 0

/-- Send the contributions of one home as one batch. -/
def State.sendBatch (s : State) (id : Nat) (epoch : BitVec 32) (node : BitVec 16) (cs : List Contrib) : State :=
  let b := s.up.nextBatch
  let ms := cs.flatMap fun c => msgsOf c.key epoch b (s.pw.node.getD 0) c.val.length 0 c.val
  let s1 := s.onUp fun u => { u with nextBatch := b + 1, outb := u.outb ++ [{ batch := b, id := id, count := cs.length, node := node }] }
  (s1.fabSendAll ((closeBatch ms.length ms).map fun m => .contrib 0 node m (ContribMsg.bytes m))).countN Ctr.fwdOut cs.length

/-- The home of a handle in a scatter's forward entries: the lowest-numbered enabled one (R240, R263). -/
def Member'.home (m : Member') (h : Nat) : Option (Nat × BitVec 16) :=
  firstSome (fun e =>
    if bitb e.2 48 && bitf e.2 0 16 == h then some (bitf e.2 16 16, BitVec.ofNat 16 (bitf e.2 32 16)) else none) m.fwd

/-- A forwarded contribution under its remote handle, with its home. -/
def Member'.forwardOf (m : Member') (c : Contrib) : Option (BitVec 16 × Contrib) :=
  (m.home (keyTbl c.key)).map fun h => (h.2, { c with key := keyOf h.1 (keyRow c.key) })

/-- Send forwarded contributions, one batch to each home. -/
def State.sendForwards (s : State) (id : Nat) (epoch : BitVec 32) (fs : List (BitVec 16 × Contrib)) : State :=
  State.forEach (fun s n => s.sendBatch id epoch n ((fs.filter fun f => f.1 == n).map (·.2))) (dedup (fs.map (·.1))) s

/-! ## Completion (R246) -/

/-- A scatter whose batches are all accounted for completes. -/
def State.endScatter (s : State) (id : Nat) : State :=
  match s.desc id with
  | none => s
  | some d =>
    if s.up.outb.any fun b => b.id == id then s.onDesc id fun x => { x with stage := .remote }
    else
      s.settle id fun x =>
        let st := if d.lost ≠ 0 then St.unrecoverable else if d.detail ≠ 0 then St.straggler
          else if d.rejects ≠ 0 then St.badTable else St.ok
        { x with status := st, flags := withFlag x.flags Fl.late (d.late != 0), detail := d.detail + d.lost, digest := 0,
                 info := BitVec.ofNat 64 (stick d.late 32 + stick d.fwd 32 * 2 ^ 32) }

/-- The reservation of a scatter ends. -/
def State.endReserve (s : State) (id : Nat) : State := s.onUp fun u => { u with resv := mdel u.resv id }

/-- Accept a scatter's local contributions and send its forwarded ones (R244, R247). -/
def State.accept (s : State) (d : Desc) (epoch : BitVec 32) (own : List Contrib) (fs : List (BitVec 16 × Contrib)) : State :=
  if own.any fun c => tooFarAhead (s.epochOf (keyTbl c.key)) epoch then (s.endReserve d.id).endDesc d.id St.badFormat 4 0 0
  else
    let q := (s.endReserve d.id).fitAll own
    let r := q.1.acceptAll epoch {} q.2
    let s1 := r.1.onDesc d.id fun x =>
      { x with done := r.2.done, detail := r.2.drop, late := r.2.late, fwd := fs.length, lost := 0, rejects := 0 }
    (s1.sendForwards d.id epoch fs).endScatter d.id

/-- The gradient range of a scatter as read: none where it was read whole, else how it stops (Table 29). -/
def scatterStop (need : Nat) (f : Feed) : Option Stop := if f.data.length < need then some (inputStop f) else none

/-- A scatter whose source stops ends with nothing accepted (R86). -/
def State.scatterFault (s : State) (d : Desc) (st : Stop) : State :=
  ((s.endReserve d.id).endDesc d.id st.status st.detail st.done st.info).countN Ctr.inboundBad (2 * b2n st.bad)

/-- A scatter that holds its reservation reads its gradient and accepts. A forwarded contribution waits until the block's own node is known
(R436). One whose lists have gone meanwhile, with their ring's reset or DISABLE or with the wrap of its SEQ (R164), has none to read, and ends
as one that finds none kept (R236): the spec gives it no outcome (DESIGN CHOICE; log entry 35). -/
def State.runScatter (s : State) (d : Desc) (grad : Feed) : State :=
  if !(s.inputsIn d) then s.readOn d.id
  else if d.rowsForm then
    match s.up.sorted.find? fun m => m.id == d.id with
    | none => s
    | some m =>
      let dim := m.dim d
      let f := d.clip .input 1 grad
      match scatterStop (d.count * gradStride d dim) f with
      | some st => s.scatterFault d st
      | none =>
        let cs := rowContribs d m dim f.data
        let fs := cs.filterMap m.forwardOf
        if !fs.isEmpty && s.pw.node.isNone then s
        else (s.inputsDone d.id).accept d d.epoch (cs.filter fun c => !(m.forwards d (keyTbl c.key))) fs
  else
    match s.claimedBy d.id with
    | none => s.scatterFault d { status := St.badFormat, detail := 2 }
    | some k =>
      let f := d.clip .input 0 grad
      match scatterStop (d.count * gradStride d k.dim) f with
      | some st => s.scatterFault d st
      | none => (s.inputsDone d.id).accept d k.epoch (s.listContribs d k f.data) []

/-- A scatter of a form that holds its reservation. -/
def State.reservedFor (s : State) (id : Nat) (rows : Bool) : Option Desc :=
  (s.desc id).filter fun d => d.stage == .scatter && d.opc == 3 && d.rowsForm == rows

/-- SCATTER_GRAD_LISTS: past the front end it reserves; with its reservation it reads its gradient. -/
def State.scatterLists (s : State) (id : Nat) (grad : Feed) : State :=
  let s1 := match s.readyFor id 0x03 (fun m => m / 2 % 2 == 0) with
    | some _ => s.enterIntake id
    | none => s
  match s1.reservedFor id false with
  | some d => s1.runScatter d grad
  | none => s1

/-- SCATTER_GRAD_LISTS. -/
def execScatterGradLists (id : Nat) (grad : Feed) (s : State) : Host.Outcome State Fault Refusal := .next (s.scatterLists id grad)

/-- SCATTER_GRAD_ROWS: past the front end it enters the bobbinet as a GATHER_SEQ would; sorted and with its reservation, it reads its
gradient. -/
def State.scatterRows (s : State) (id : Nat) (grad : Feed) : State :=
  match s.readyFor id 0x03 (fun m => m / 2 % 2 == 1) with
  | some d =>
    if s.switchAhead d then s else if s.verGone d then s.endDesc d.id St.versionGone 0 0 0 else s.admitWindow d
  | none => match s.reservedFor id true with
    | some d => s.runScatter d grad
    | none => s

/-- SCATTER_GRAD_ROWS. -/
def execScatterGradRows (id : Nat) (grad : Feed) (s : State) : Host.Outcome State Fault Refusal := .next (s.scatterRows id grad)

/-! ## Acknowledgements (R241, R245) -/

/-- The figures of a batch's acknowledgement count in its scatter; one for no batch outstanding is ignored. -/
def State.takeAck (s : State) (batch : BitVec 32) (accepted late dropped rejected : Nat) : State :=
  match s.up.outb.find? fun b => b.batch == batch with
  | none => s
  | some b =>
    let s1 := ((s.onUp fun u => { u with outb := u.outb.filter fun x => x.batch != batch }).countN Ctr.fwdRejected rejected).fabSettle
    let s2 := s1.onDesc b.id fun x =>
      if x.stage == .remote then { x with done := x.done + accepted, late := x.late + late, detail := x.detail + dropped,
                                          rejects := x.rejects + rejected }
      else x
    if (s2.desc b.id).any fun d => d.stage == .remote then s2.endScatter b.id else s2

/-- BATCH_ACK: a response that comes in on a port that still takes responses (R21, R24); its credit is granted again (R23). -/
def State.batchAck (s : State) (port : Nat) (batch : BitVec 32) (accepted late dropped rejected : Nat) : State :=
  if s.fabAnswers port then (s.send (.credit port true 1)).takeAck batch accepted late dropped rejected else s

/-- REMOTE_ACK_TIMEOUT: the batch's contributions are not confirmed, and the scatter completes (R245). -/
def State.ackTimeout (s : State) (batch : BitVec 32) : State :=
  match s.up.outb.find? fun b => b.batch == batch with
  | none => s
  | some b =>
    let s1 := ((s.onUp fun u => { u with outb := u.outb.filter fun x => x.batch != batch }).countN Ctr.contribLost b.count).fabSettle
    let s2 := s1.onDesc b.id fun x => if x.stage == .remote then { x with lost := x.lost + b.count } else x
    if (s2.desc b.id).any fun d => d.stage == .remote then s2.endScatter b.id else s2

end Sys2Proof.Machine
end

