-- ==== Sys2Proof/Machine/Remote.lean ====
section
/-!
DEFINITION. Remote contributions at their home (R241, R242, R245, R247, R345, R411), and PILLOW_RESERVE.
-/

namespace Sys2Proof.Machine

/-- Messages that the remote intake holds (R345). -/
def remoteCap : Nat := 4096

/-- Messages in the remote intake. -/
def State.remoteHeld (s : State) : Nat := s.up.inq.length

def InBatch.is (b : InBatch) (sender : BitVec 16) (batch : BitVec 32) : Bool := b.sender == sender && b.batch == batch

/-- Every message of a batch has arrived. -/
def InBatch.complete (b : InBatch) : Bool := b.whole != 0 && decide (b.whole ≤ b.msgs.length) && !b.bad

/-- Messages with, for each, how many of the same key, epoch and first element came before it: a batch may hold several contributions to one
row, and that number tells them apart. -/
def tagMsgs : List ContribMsg → List ContribMsg → List (ContribMsg × Nat)
  | [], _ => []
  | m :: t, before =>
    (m, (before.filter fun x => x.key == m.key && x.epoch == m.epoch && x.elem0 == m.elem0).length) :: tagMsgs t (m :: before)

/-- The contributions of a batch as key, epoch and number among those of the same row, in the order in which their first messages
arrived. -/
def InBatch.names (b : InBatch) : List (Key × BitVec 32 × Nat) := dedup ((tagMsgs b.msgs []).map fun m => (m.1.key, m.1.epoch, m.2))

/-- Element e of a contribution, where a message of the batch carries it. -/
def InBatch.elem (b : InBatch) (n : Key × BitVec 32 × Nat) (e : Nat) : Option F32 :=
  (tagMsgs b.msgs []).foldl (fun r m =>
    if m.1.key == n.1 && m.1.epoch == n.2.1 && m.2 == n.2.2 && decide (m.1.elem0 ≤ e) then (m.1.data[e - m.1.elem0]?).or r else r) none

/-- Why a remote contribution is refused (Table 66, R242, Table 67). -/
def State.refusesRemote (s : State) (n : Key × BitVec 32 × Nat) : Bool :=
  match s.table (keyTbl n.1) with
  | none => true
  | some t =>
    !t.upd || !(bitb (s.updOf (keyTbl n.1)) 9) || decide (t.rows ≤ keyRow n.1) || t.current.isNone ||
    tooFarAhead (s.epochOf (keyTbl n.1)) n.2.1

/-- Bytes of pillow that the next message of a batch in the intake asks for: an entry, where it is the first message of a contribution that
is not refused. -/
def State.remoteNeed (s : State) (b : InBatch) : Nat :=
  let old := dedup (((tagMsgs b.msgs []).take b.taken).map fun m => (m.1.key, m.1.epoch, m.2))
  match (tagMsgs b.msgs [])[b.taken]? with
  | none => 0
  | some m =>
    let n := (m.1.key, m.1.epoch, m.2)
    if old.contains n || s.refusesRemote n then 0 else entryBytes (((s.table (keyTbl n.1)).map (·.dim)).getD 0)

/-- Every message of a batch has arrived, and has its pillow entries reserved. -/
def InBatch.ripe (b : InBatch) : Bool := b.complete && b.taken == b.msgs.length

/-- The values of a remote contribution; elements that no message carries are free values (log entry 8). -/
def State.remoteVal (s : State) (b : InBatch) (n : Key × BitVec 32 × Nat) : State × List F32 :=
  let dim := ((s.table (keyTbl n.1)).map (·.dim)).getD 0
  ({ s with free := s.free + 4 * dim },
   (List.range dim).map fun e => (b.elem n e).getD (freeF32 (s.free + 4 * e)))

/-- Take one remote contribution: it binds the current version (R242). -/
def State.takeRemote (s : State) (b : InBatch) (n : Key × BitVec 32 × Nat) : State × Taken :=
  let v := s.remoteVal b n
  let ver := (((s.table (keyTbl n.1)).bind Table.current).map (·.ver)).getD 0
  v.1.acceptOne n.1 ver n.2.1 v.2

/-- Take a batch's contributions in order: the tally, and those refused. -/
def State.takeAll (s : State) (b : InBatch) : List (Key × BitVec 32 × Nat) → Tally → Nat → State × Tally × Nat
  | [], t, r => (s, t, r)
  | n :: l, t, r =>
    if s.refusesRemote n then State.takeAll s b l t (r + 1)
    else
      let q := s.takeRemote b n
      State.takeAll q.1 b l (t.add q.2) r

/-! ## Inbound request credits (R23, R245, R345) -/

/-- The remote intake is full. -/
def State.intakeFull (s : State) : Bool := decide (remoteCap ≤ s.remoteHeld)

/-- A message has come in on a port: its credit returns, or is withheld while the intake is full; each time that it fills is counted. -/
def State.oweCredit (s : State) (port : Nat) (before : Bool) : State :=
  if s.intakeFull then
    (s.onPw fun w => { w with fab := mmod w.fab port fun f => { f with owed := f.owed + 1 } }).countN Ctr.remoteHold (b2n (!before))
  else s.send (.credit port false 1)

/-- A port in service has its withheld credits returned. -/
def State.payCredit (s : State) (port : Nat) : State :=
  let n := (s.fabPort port).owed
  if n = 0 || !(s.fabUp port) then s
  else (s.onPw fun w => { w with fab := mmod w.fab port fun f => { f with owed := 0 } }).send (.credit port false n)

/-- Withheld credits return once the intake has space. -/
def State.payCredits (s : State) : State :=
  if s.intakeFull then s else State.forEach State.payCredit (List.range (Member.fabPorts s.fuses.member)) s

/-! ## Acceptance -/

/-- The bytes of an acknowledgement (Table 66). -/
def ackBytes (batch : BitVec 32) (accepted late dropped rejected : Nat) : Bytes :=
  leBytes 4 batch.toNat ++ leBytes 4 accepted ++ leBytes 4 late ++ leBytes 4 dropped ++ leBytes 4 rejected ++ List.replicate 44 0

/-- Accept a whole batch and acknowledge it. -/
def State.acceptBatch (s : State) (b : InBatch) : State :=
  let s1 := (s.onUp fun u => { u with inb := u.inb.filter fun x => !(x.is b.sender b.batch) }).countN Ctr.fwdIn b.names.length
  let q := s1.takeAll b b.names {} 0
  let p := q.1.rspPort b.port
  (((q.1.countN Ctr.fwdRejected q.2.2).rspSend p (.ack p b.sender b.batch q.2.1.done q.2.1.late q.2.1.drop q.2.2
    (ackBytes b.batch q.2.1.done q.2.1.late q.2.1.drop q.2.2))).payCredits).fabSettle

/-- The message at the head of the remote intake leaves it with its pillow entry reserved, where there is room (R345); those behind it wait
for it. A batch that is whole then is accepted. -/
def State.takeHead (s : State) : State :=
  match s.up.inq with
  | [] => s
  | q :: t =>
    match s.up.inb.find? fun b => b.is q.1 q.2 && !b.bad with
    | none => s.onUp fun u => { u with inq := t }
    | some b =>
      let n := b.resv + s.remoteNeed b
      if s.pillowRoom ((granules n - granules b.resv) * 4096) then
        let b1 := { b with taken := b.taken + 1, resv := n }
        let s1 := s.onUp fun u => { u with inq := t, inb := u.inb.map fun x => if x.is q.1 q.2 then b1 else x }
        if b1.ripe then s1.acceptBatch b1 else s1.payCredits
      else s

/-- Messages leave the remote intake in arrival order, as far as there is pillow space. -/
def State.drainIntake (s : State) : State := State.forEach (fun s _ => s.takeHead) s.up.inq s

/-- PILLOW_RESERVE (R243, R345): pillow space has freed, and those that wait for it reserve. -/
def State.pillowReserve (s : State) : State := (s.reserveScatters s.up.intake.length).drainIntake

/-- A message enters its batch. -/
def InBatch.put (b : InBatch) (m : ContribMsg) : InBatch :=
  { b with msgs := b.msgs ++ [m], whole := if m.last then m.msgs else b.whole }

/-- A message goes behind those in the intake. -/
def State.addMsg (s : State) (port : Nat) (m : ContribMsg) : State :=
  let s1 := s.onUp fun u => { u with inq := u.inq ++ [(m.sender, m.batch)] }
  if s.up.inb.any fun b => b.is m.sender m.batch then
    s1.onUp fun u => { u with inb := u.inb.map fun b => if b.is m.sender m.batch then b.put m else b }
  else
    let b : InBatch := { sender := m.sender, batch := m.batch, msgs := [], port := port }
    s1.onUp fun u => { u with inb := u.inb ++ [b.put m] }

/-- A batch is discarded whole (R241). -/
def State.discardBatch (s : State) (sender : BitVec 16) (batch : BitVec 32) : State :=
  (((s.onUp fun u =>
      { u with inb := u.inb.filter fun b => !(b.is sender batch)
               inq := u.inq.filter fun q => q != (sender, batch) }).drainIntake).payCredits).count Ctr.inboundBad

/-- REMOTE_CONTRIBUTION: a message enters the remote intake, unless that is full, when the withheld credits hold it back (R245, R345); it
leaves it as soon as its pillow entry is reserved. -/
def State.remoteMsg (s : State) (port : Nat) (m : ContribMsg) : State :=
  if !(s.fabUp port) then s
  else if s.intakeFull then s
  else if s.up.inb.any fun b => b.is m.sender m.batch && b.bad then s.oweCredit port true
  else
    ((s.addMsg port m).oweCredit port false).drainIntake

/-- BATCH_DISCARD: a batch that is not whole in time; one that a message in error has discarded already is forgotten. -/
def State.batchDiscard (s : State) (sender : BitVec 16) (batch : BitVec 32) : State :=
  match s.up.inb.find? fun b => b.is sender batch with
  | none => s
  | some b =>
    if b.bad then s.onUp fun u => { u with inb := u.inb.filter fun x => !(x.is sender batch) }
    else if b.complete then s
    else s.discardBatch sender batch

end Sys2Proof.Machine
end

