-- ==== Sys2Proof/Machine/Versions.lean ====
section
/-!
DEFINITION. Retirement (R136 to R138, R149, R280) and regrades (R132, R133).
-/

namespace Sys2Proof.Machine

/-! ## Retirement (R138) -/

/-- Table and version, where the version is live. -/
def State.version (s : State) (h ver : Nat) : Option (Table × Version) :=
  (s.table h).bind fun t => (t.ver? ver).map fun v => (t, v)

/-- Rows of a version whose master record is dirty, ascending; write-back passes over poisoned ones (R414). -/
def State.dirtyRows (s : State) (h ver : Nat) : List Nat :=
  let cached := (s.ch.ways.filter fun w => w.kind == .master && w.dirty && keyTbl w.key == h && w.ver == ver).map fun w => keyRow w.key
  let pinned := (s.tb.extents.filter fun e => e.tbl == h && e.ver == ver).flatMap (·.dirty)
  (sortBy (fun a b => decide (a ≤ b)) (dedup (cached ++ pinned))).filter fun r => !(s.rowPoisoned h ver r)

/-- Step 1: write back what is dirty, count the rows written, and flush a drive that it wrote (R335). -/
def State.retireWrite (s : State) (h : Nat) (t : Table) (v : Version) (fails : List RowFail) : State :=
  let q := (s.flushRows t v h fails (s.dirtyRows h v.ver)).1
  let n := q.counter Ctr.writebacks - s.counter Ctr.writebacks
  let due := t.backTier = 2 && s.volatile v.nsid && (v.flush || n ≠ 0)
  let q1 := if due then q.flushNs v.nsid (.retire h v.ver) else q
  (q1.countEvict s).onVersion h v.ver fun x => { x with written := x.written + n, flush := due }

/-- Data areas, or spans of them, named by channel and first pocket, that hold a copy of a version. -/
def State.areasOf (s : State) (h ver : Nat) : List (Nat × Nat) :=
  dedup ((s.ch.ways.filter fun w => w.live && keyTbl w.key == h && w.ver == ver).map fun w => (w.ch, w.pocket))

/-- A migration or replication of a row of a version runs: it completes before the sweep frees its result (Table 75). -/
def State.verMoving (s : State) (h ver : Nat) : Bool := s.ch.moves.any fun m => keyTbl m.key == h && m.ver == ver

/-- Step 2: drop every row tagged with the version, and count the data areas left free (R280, Table 40). -/
def State.sweep (s : State) (h ver : Nat) : State :=
  let areas := s.areasOf h ver
  let mine := (s.ch.ways.filter fun w => keyTbl w.key == h && w.ver == ver).map fun w => (w.ch, w.set)
  let s0 := State.forEach (fun s c => s.sweepHeads (dedup mine) c) (List.range s.chans) s
  let at' := fun r => (s.mainWay (keyOf h r) ver).elim (0, 0) fun w => (w.ch, w.set)
  let rows := sortBy (fun a b => decide ((at' a).1 * 2 ^ 20 + (at' a).2 ≤ (at' b).1 * 2 ^ 20 + (at' b).2)) (s.cachedRows h ver)
  let s1 := State.forEach (fun s r => s.dropRow (keyOf h r) ver true) rows s0
  let s2 := s1.onCh fun c => { c with redir := c.redir.filter fun r => !(keyTbl r.key == h && r.ver == ver) }
  (s2.countN Ctr.sweepPockets (areas.filter fun a => (s2.areaWays a.1 a.2).isEmpty).length).onVersion h ver fun x => { x with swept := true }

/-- Steps 3 and 4: the extents go, the number is free, and VERSION_RETIRED is written. -/
def State.retireEnd (s : State) (h : Nat) (v : Version) : State :=
  let s1 := State.forEach State.dropExtent (s.tb.extents.filter fun e => e.tbl == h && e.ver == v.ver) s
  let s2 := match s1.table h with
    | some t => s1.setTable h { t with versions := t.versions.filter fun x => x.ver != v.ver }
    | none => s1
  let s3 := (s2.dropRegrade fun r => keyTbl r.key == h && r.ver == v.ver).onRl fun r => { r with poison := r.poison.filter fun p => !(p.1 == h && p.2.1 == v.ver) }
  s3.tell [.count Ctr.verRetired 1, mkEvent 0x501 [(8, 2, h), (10, 2, v.ver), (12, 4, v.written)]]

/-- RETIREMENT goes as far as it can: it begins when the version's reference count is 0, and steps 2 to 4 follow once nothing is
dirty. -/
def State.retire (s : State) (h ver : Nat) (fails : List RowFail) : State :=
  match s.version h ver with
  | none => s
  | some (t, v) =>
    if v.state ≠ .retiring || (!v.begun && s.refs h ver != 0) then s
    else
      let s1 := if v.begun then s
        else (s.onVersion h ver fun x => { x with begun := true }).retireWrite h t { v with begun := true } fails
      if !((s1.dirtyRows h ver).isEmpty) || ((s1.version h ver).any fun e => e.2.flush) || s1.verMoving h ver then s1
      else
        let s2 := if v.swept then s1 else s1.sweep h ver
        match s2.version h ver with
        | some (_, w) => s2.retireEnd h w
        | none => s2

/-- RETIREMENT. -/
def execRetirement (tbl ver : Nat) (fails : List RowFail) (s : State) : Host.Outcome State Fault Refusal := .next (s.retire tbl ver fails)

/-- RETIREMENT_SWEEP: step 2, once a retirement has begun and step 1 is done. -/
def execRetirementSweep (tbl ver : Nat) (s : State) : Host.Outcome State Fault Refusal :=
  .next (match s.version tbl ver with
    | some (_, v) => if v.begun && !v.swept && !v.flush && (s.dirtyRows tbl ver).isEmpty && !(s.verMoving tbl ver) then s.sweep tbl ver
      else s
    | none => s)

/-- RETIRE_RETRY: step 1 again, for the rows that are still dirty, or for a Flush that failed. -/
def execRetireRetry (tbl ver : Nat) (fails : List RowFail) (s : State) : Host.Outcome State Fault Refusal :=
  .next (match s.version tbl ver with
    | some (t, v) =>
      if v.begun && !(s.cmdOut (.retire tbl ver)) && (v.flush || !((s.dirtyRows tbl ver).isEmpty)) then s.retireWrite tbl t v fails else s
    | none => s)

/-- RETIRE_STALLED: step 1 has failed for 1 s; one event with the rows that still wait. -/
def execRetireStalled (tbl ver : Nat) (s : State) : Host.Outcome State Fault Refusal :=
  .next (match s.version tbl ver with
    | some (_, v) =>
      let n := (s.dirtyRows tbl ver).length
      if v.begun && !v.stalled && n ≠ 0 then
        (s.onVersion tbl ver fun x => { x with stalled := true }).tell [mkEvent 0x502 [(8, 2, tbl), (10, 2, ver), (12, 4, n)]]
      else s
    | none => s)

/-! ## Regrades (R133) -/

/-- Rewrite a way's copy in another grade, in a free slot of its channel, and switch its way to it. -/
def State.rewriteWay (s : State) (w : Way) (g : Grade) (b : Bytes) (fails : WbFails) : State × Bool :=
  let size := slotOf b.length
  let r := s.takeSlot w.ch size true (some (s.popularity w.key)) w.key w.ver fails
  match r.2 with
  | none => (s, false)
  | some (p, sl) =>
    let w1 := { w with pocket := p, slot := sl, grade := g, size := size }
    (((r.1.putWay w1).writeSlot w1 b).markHead w.ch w.set, true)

/-- Rewrite several ways, all or none. -/
def State.rewriteWays (s : State) (g : Grade) (b : Bytes) (fails : WbFails) : List Way → State × Bool
  | [] => (s, true)
  | w :: t =>
    let r := s.rewriteWay w g b fails
    if r.2 then State.rewriteWays r.1 g b fails t else (s, false)

/-- A regrade is given up: the row keeps its copy. -/
def State.regradeStop (s : State) : State := s.count Ctr.regradeAbandon

/-- The source-grade record of a row for its regrade: its master record, its copy where that is in SRC_GRADE, else its backing. -/
def State.regradeSrc (s : State) (t : Table) (v : Version) (k : Key) (w : Way) (src : RowSrc) : State × Option Bytes :=
  match s.masterWay k v.ver with
  | some m => (s.noteMaster t k v.ver, some (s.readSlot m t.srcBytes))
  | none =>
    if w.grade = t.grade then ((s.touchHead w.ch w.set false).readCopy w t.srcBytes false, some (s.readSlot w t.srcBytes))
    else
      let q := s.readRow t v k src
      (q.1, if q.2.status = St.ok then some q.2.data else none)

/-- Replace a row's copies with copies in grade g. -/
def State.regradeTo (s : State) (t : Table) (k : Key) (ver : Nat) (g old : Grade) (record : Bytes) (fails : WbFails) : State :=
  let c := s.encCopy t record g
  let reps := c.1.replicasOf k ver
  let reads := (c.1.copiesOf k ver).filter fun w => w.kind == .read && w.repl == 0
  let r :=
    if t.upd && g = t.grade then
      -- the master record alone serves (R131); its replicas take its data
      (c.1.dropWays reads).rewriteWays g c.2 fails reps
    else if t.upd && reads.isEmpty then
      let q := c.1.placeCopy ((c.1.masterWay k ver).map (·.ch) |>.getD (c.1.rowCh k ver)) k ver .read g c.2 0 0 .forced fails
      if q.2 then q.1.rewriteWays g c.2 fails reps else (s, false)
    else c.1.rewriteWays g c.2 fails (reads ++ reps)
  if r.2 then r.1.count (if old.wider g then Ctr.regradeNarrow else Ctr.regradeWide) else s.regradeStop

/-- The state after a regrade, its row in the band where the regrade was not abandoned: the count of those that were is as before. -/
def State.intoBand (s : State) (stops : Nat) (k : Key) (ver b : Nat) : State :=
  if s.counter Ctr.regradeAbandon = stops then s.setBand k ver b else s

/-- REGRADE of a queued row, in its couching pipe. -/
def State.regradeRow (s : State) (k : Key) (ver : Nat) (src : RowSrc) (fails : WbFails) : State :=
  match s.tb.regrades.find? fun r => r.key == k && r.ver == ver with
  | none => s
  | some q =>
    if !(bitb (s.cfg Reg.regradeCtl) 0) then s
    else
      let s0 := s.onTb fun x => { x with regrades := x.regrades.filter fun r => !(r.key == k && r.ver == ver) }
      match s0.version (keyTbl k) ver with
      | none => s0.regradeStop
      | some (t, v) =>
        match s0.mainWay k ver with
        | none => s0.regradeStop
        | some w =>
          let b := bandAt t q.band
          let lookup := (s0.copiesOf k ver).find? fun x => x.kind == .read && x.repl == 0
          let old := (lookup.map (·.grade)).getD w.grade
          if v.begun || (s0.placed (keyTbl k) ver (keyRow k)).isSome then s0.regradeStop
          else if b.direct then
            let r := s0.writeBackRow t v k (failOf fails k)
            if r.2 && !(s0.rowPoisoned (keyTbl k) ver (keyRow k)) then (r.1.dropRow k ver true).count Ctr.regradeWide
            else r.1.regradeStop
          else if old = b.grade then s0.setBand k ver q.band
          else
            let f := s0.regradeSrc t v k w src
            match f.2 with
            | none => f.1.regradeStop
            | some record => (f.1.regradeTo t k ver b.grade old record fails).intoBand (f.1.counter Ctr.regradeAbandon) k ver q.band

/-- REGRADE. -/
def execRegrade (tbl ver row : Nat) (src : RowSrc) (fails : WbFails) (s : State) : Host.Outcome State Fault Refusal :=
  .next (s.regradeRow (keyOf tbl row) ver src fails)

end Sys2Proof.Machine
end

