-- ==== Sys2Proof/Machine/Couch.lean ====
section
/-!
DEFINITION. UPDATE_APPLY (R248 to R252), the read-modify-write and its rules (R253 to R255, R258, R278, R338), write-back (R256, R257,
R454), and CRH_OPT_SEL.COMMIT (R263, R430).
-/

namespace Sys2Proof.Machine

/-! ## Derived values (R252) -/

/-- 1.0 in FP32. -/
def fone : F32 := 0x3F800000#32

/-- An apply of a table as it starts: its parameter set read once, the rounding rule as its descriptor was queued (R89). -/
def State.newApply (s : State) (d : Desc) (t : Table) (rows : List (Nat × Nat)) : Apply :=
  let p := mgetD s.up.psets (bitf (s.updOf d.tbl) 16 8) {}
  let ties := d.ties
  let lr := if fIsZero d.lr then p.lr else d.lr
  { id := d.id, tbl := d.tbl, epoch := s.epochOf d.tbl, rows := rows, lr := lr, wdlr := fmul ties lr p.wd, b1 := p.b1, b2 := p.b2,
    eps := p.eps, c1 := fsub ties fone p.b1, c2 := fsub ties fone p.b2,
    lrt := if t.rule = .adam then lrtOf ties lr p.b1 p.b2 d.stepT else 0, ties := ties }

/-! ## Update rules (Table 68) -/

/-- (w − c × q) − LRWD × w. -/
def Apply.step (a : Apply) (w c q : F32) : F32 := fsub a.ties (fsub a.ties w (fmul a.ties c q)) (fmul a.ties a.wdlr w)

/-- √s + EPS. -/
def Apply.root (a : Apply) (x : F32) : F32 := fadd a.ties (fsqrt a.ties x) a.eps

/-- Lane sums of squares (R253): lane l takes elements l, l + 64, … in that order; the fuel is the number of runs of 64. -/
def laneSquares (ties : Bool) : Nat → List F32 → List F32 → List F32
  | 0, acc, _ => acc
  | f + 1, acc, g =>
    let now := g.take 64
    let sums := List.zipWith (fun a x => fadd ties a (fmul ties x x)) acc now
    laneSquares ties f (sums ++ acc.drop now.length) (g.drop 64)

/-- One level of the binary tree over the lanes. -/
def pairSums (ties : Bool) : List F32 → List F32
  | a :: b :: t => fadd ties a b :: pairSums ties t
  | l => l

/-- log2 64 levels. -/
def treeF (ties : Bool) : Nat → List F32 → F32
  | 0, l => l.headD 0
  | n + 1, l => treeF ties n (pairSums ties l)

/-- G of ADAGRAD_ROW. -/
def sumSquares (ties : Bool) (g : List F32) : F32 :=
  treeF ties 6 (laneSquares ties (g.length / 64 + 1) (List.replicate 64 0) g)

/-- Table 68: the new data and the new gimp words. -/
def Apply.rule (a : Apply) (r : Rule) (dim : Nat) (w gimp g : List F32) : List F32 × List F32 :=
  let z := a.ties
  match r with
  | .none => (w, gimp)
  | .add => (List.zipWith (fadd z) w g, [])
  | .sgd => (List.zipWith (fun x y => a.step x a.lr y) w g, [])
  | .momentum =>
    let m := List.zipWith (fun m y => fadd z (fmul z a.b1 m) y) gimp g
    (List.zipWith (fun x m => a.step x a.lr m) w m, m)
  | .adagradRow =>
    let s := fadd z (gimp.headD 0) (fdiv z (sumSquares z g) (fofNat z dim))
    let q := a.root s
    (List.zipWith (fun x y => a.step x a.lr (fdiv z y q)) w g, [s])
  | .adagradElem =>
    let ss := List.zipWith (fun s y => fadd z s (fmul z y y)) gimp g
    let qs := List.zipWith (fun y s => fdiv z y (a.root s)) g ss
    (List.zipWith (fun x q => a.step x a.lr q) w qs, ss)
  | .adam =>
    let ms := List.zipWith (fun m y => fadd z (fmul z a.b1 m) (fmul z a.c1 y)) (gimp.take dim) g
    let vs := List.zipWith (fun v y => fadd z (fmul z a.b2 v) (fmul z a.c2 (fmul z y y))) (gimp.drop dim) g
    let qs := List.zipWith (fun m v => fdiv z m (a.root v)) ms vs
    (List.zipWith (fun x q => a.step x a.lrt q) w qs, ms ++ vs)

/-- The gimp words of a master record, widened. -/
def Table.gimpOf (t : Table) (record : Bytes) : List F32 :=
  let b := record.drop (gradeBytes t.grade t.dim)
  if t.rule = .adagradRow then [if t.gimp32 then BitVec.ofNat 32 (field b 0 4) else ofBf16 (field b 0 2)]
  else
    let n := Table.gimpRows t * t.dim
    if t.gimp32 then (leWords 4 n b).map (BitVec.ofNat 32 ·) else (leWords 2 n b).map ofBf16

/-- Gimp words rounded to their format; the scalar of ADAGRAD_ROW takes 4 bytes in either (R119). -/
def Table.gimpBack (t : Table) (ties : Bool) (g : List F32) : Bytes :=
  if t.gimp32 then g.flatMap fun x => leBytes 4 x.toNat
  else g.flatMap fun x => leBytes (if t.rule = .adagradRow then 4 else 2) (toBf16 ties x).1.toNat

/-- The values of a master record hold an infinity or a NaN. -/
def Table.oddRecord (t : Table) (ties : Bool) (record : Bytes) : Bool :=
  (valuesOf ties t.grade t.dim record).any (fun x => !fFinite x) || (t.gimpOf record).any fun x => !fFinite x

/-- The new master record of a row with merged contribution g (R253, R254). -/
def Apply.record (a : Apply) (t : Table) (record : Bytes) (g : List F32) : Bytes :=
  let r := a.rule t.rule t.dim (valuesOf a.ties t.grade t.dim record) (t.gimpOf record) g
  (encodeRow a.ties t.grade r.1).1 ++ t.gimpBack a.ties r.2

/-! ## An apply (R249, R251) -/

/-- A scatter of the same ring, queued earlier and naming the table, holds a pillow reservation. -/
def State.scatterAhead (s : State) (d : Desc) : Bool :=
  (s.ringDescs d.ring).any fun e => decide (e.id < d.id) && e.opc == 3 && e.stage == .scatter &&
    ((e.rowsForm && e.tbl == d.tbl) || (s.ownRows e).any fun k => keyTbl k == d.tbl)

/-- The entries of a table. -/
def State.entriesOf (s : State) (h : Nat) : List Entry := (s.up.pillow ++ s.up.merge).filter fun e => e.tbl == h

def State.onApply (s : State) (id : Nat) (f : Apply → Apply) : State :=
  s.onUp fun u => { u with applies := u.applies.map fun a => if a.id = id then f a else a }

/-- An apply whose rows are all written or lost completes (R251). -/
def State.endApply (s : State) (id : Nat) : State :=
  match s.up.applies.find? fun a => a.id == id with
  | none => s
  | some a =>
    if !a.rows.isEmpty then s
    else
      let s1 := s.onUp fun u => { u with applies := u.applies.filter fun x => x.id != id }
      s1.settle id fun x =>
        { x with status := if a.lost = 0 then St.ok else St.unrecoverable
                 flags := withFlag (withFlag x.flags Fl.overflow (a.nonfin != 0)) Fl.late a.late
                 done := a.done, detail := a.lost, info := BitVec.ofNat 64 (stick a.contribs 32 + stick a.nonfin 32 * 2 ^ 32) }

/-- Start an apply: A advances, and every accepted contribution of epoch A to the table is to be applied. -/
def State.startApply (s : State) (d : Desc) (t : Table) : State :=
  let a := s.epochOf d.tbl
  let rows := dedup (((s.entriesOf d.tbl).filter fun e => e.epoch == a).map fun e => (e.ver, e.row))
  let s1 := s.onUp fun u => { u with applies := u.applies ++ [s.newApply d t rows] }
  let s2 := s1.onTb fun x => { x with epochs := mset x.epochs d.tbl (a + 1) }
  (s2.onDesc d.id fun x => { x with stage := .applying }).endApply d.id

/-- Run an UPDATE_APPLY that is past the front end on its table. -/
def State.update (s : State) (id mode : Nat) (run : State → Desc → Table → State) : State :=
  match s.readyFor id 0x04 (· == mode) with
  | none => s
  | some d => match s.table d.tbl with
    | none => s.endDesc id St.badTable 0 0 0
    | some t => run s d t

/-- APPLY (R249). -/
def execApply (id : Nat) (s : State) : Host.Outcome State Fault Refusal :=
  .next (s.update id 0 fun s d t =>
    if s.scatterAhead d then s
    else if d.epoch ≠ s.epochOf d.tbl then s.endDesc d.id St.badFormat 5 0 0
    else s.startApply d t)

/-- SET_EPOCH (R250). -/
def execSetEpoch (id : Nat) (s : State) : Host.Outcome State Fault Refusal :=
  .next (s.update id 1 fun s d _ =>
    if (s.entriesOf d.tbl).isEmpty then (s.onTb fun x => { x with epochs := mset x.epochs d.tbl d.epoch }).endOk d.id 0
    else s.endDesc d.id St.badFormat 6 0 0)

/-- Write back every dirty record of some versions, and flush what was written; the answer gives the failures' statuses. -/
def State.flushVers (s : State) (id h : Nat) (t : Table) (fails : List RowFail) : List Version → State × List (BitVec 8)
  | [] => (s, [])
  | v :: l =>
    let q := s.flushRows t v h fails (s.dirtyRows h v.ver)
    let wrote := q.1.counter Ctr.writebacks != s.counter Ctr.writebacks
    let s1 := if wrote && t.backTier = 2 then q.1.flushNs v.nsid (.desc id) else q.1
    let z := State.flushVers s1 id h t fails l
    (z.1, q.2.map (·.2) ++ z.2)

/-- FLUSH (R250, R335): it completes once its Flush commands have. -/
def State.flushTable (s : State) (d : Desc) (t : Table) (fails : List RowFail) : State :=
  let q := s.flushVers d.id d.tbl t fails t.versions
  (match q.2 with
   | [] => q.1.endOk d.id 0
   | st :: _ => q.1.endDesc d.id (backFail t st) q.2.length 0 0).fillWait d.id

/-- FLUSH. -/
def execFlush (id : Nat) (fails : List RowFail) (s : State) : Host.Outcome State Fault Refusal :=
  .next (s.update id 2 fun s d t => s.flushTable d t fails)

/-! ## The read-modify-write (R253, R255) -/

/-- The oldest apply that still has a row to write. -/
def State.applyOf (s : State) (h ver row : Nat) : Option Apply := s.up.applies.find? fun a => a.tbl == h && a.rows.contains (ver, row)

/-- The merged contribution of a row: merge and pillow sums (R253). -/
def State.mergedOf (s : State) (a : Apply) (ver row : Nat) : Option Entry :=
  let p := s.up.pillow.find? fun e => e.is a.tbl ver row a.epoch
  let m := s.up.merge.find? fun e => e.is a.tbl ver row a.epoch
  match p, m with
  | some x, some y => some (x.join a.ties y)
  | some x, none => some x
  | none, y => y

/-- The row leaves an apply, with its entries. -/
def State.rowLeaves (s : State) (a : Apply) (ver row : Nat) (f : Apply → Apply) : State :=
  let keep := fun (e : Entry) => !(e.is a.tbl ver row a.epoch)
  let s1 := s.onUp fun u => { u with pillow := u.pillow.filter keep, merge := u.merge.filter keep,
                                     waits := u.waits.filter fun w => !(w.tbl == a.tbl && w.ver == ver && w.row == row) }
  (s1.onApply a.id fun x => f { x with rows := x.rows.filter fun r => r != (ver, row) }).endApply a.id

/-- UPDATE_LOST for n contributions of a row, with their count (R260, R266). -/
def State.tellLost (s : State) (h ver row n : Nat) : State :=
  if n = 0 then s
  else s.tell [.count Ctr.contribLost n, mkEvent 0x902 [(8, 2, h), (10, 2, ver), (12, 4, n), (24, 8, (keyOf h row).toNat)]]

/-- A row's contributions are lost (R260). -/
def State.loseRow (s : State) (a : Apply) (ver row : Nat) : State :=
  let e := s.mergedOf a ver row
  let n := (e.map (·.n)).getD 0
  let before := (e.map (·.lostN)).getD 0
  (s.tellLost a.tbl ver row n).rowLeaves a ver row fun x => { x with lost := x.lost + n + before }

/-- Mark a row's master record dirty; a cached one's head changes. -/
def State.markDirty (s : State) (k : Key) (ver : Nat) : State :=
  match s.placed (keyTbl k) ver (keyRow k) with
  | some e => s.onExtent e fun x => { x with dirty := if x.dirty.contains (keyRow k) then x.dirty else x.dirty ++ [keyRow k] }
  | none => s.setDirty k ver true

/-- Write a row's master record where it lies, in the cache partition once its head is read (R272). -/
def State.writeMaster (s : State) (t : Table) (k : Key) (ver : Nat) (b : Bytes) : State :=
  match s.placed (keyTbl k) ver (keyRow k) with
  | some e => s.writePinned (e.rowOff t (keyRow k)) b
  | none => match s.masterWay k ver with
    | some w => (s.seeHead w.ch w.set).writeSlot w b
    | none => s

/-- Write a row's read copies and replicas anew from its master record; the row is encoded once for each grade that they have
(R212, R255). -/
def State.writeReads (s : State) (t : Table) (k : Key) (ver : Nat) (b : Bytes) : State :=
  let reads := (s.copiesOf k ver).filter fun w => w.kind == .read
  State.forEach (fun s g =>
    let c := s.encCopy t b g
    State.forEach (fun s w => (s.seeHead w.ch w.set).writeSlot w c.2) (reads.filter fun w => w.grade == g) c.1) (dedup (reads.map (·.grade))) s

/-- What a written row counts in its apply, with its events (R254). -/
def State.rowWritten (s : State) (a : Apply) (t : Table) (ver row : Nat) (e : Entry) (b : Bytes) : State :=
  let odd := t.oddRecord a.ties b
  let first := odd && a.first.isNone
  let ev := if first then
      [mkEvent 0x903 [(8, 2, a.tbl), (10, 2, ver), (12, 4, a.epoch.toNat), (24, 8, (keyOf a.tbl row).toNat)]]
    else []
  (s.tell ([TelOp.count Ctr.rowsApplied 1, TelOp.count Ctr.rowsNonfinite (b2n odd)] ++ ev)).rowLeaves a ver row fun x =>
    { x with done := x.done + 1, contribs := x.contribs + e.n, lost := x.lost + e.lostN, nonfin := x.nonfin + b2n odd, late := x.late || e.late
             first := if first then some (ver, row) else x.first }

/-- A read-modify-write waits, for twin space or for a way; counted once. -/
def State.rmwWaits (s : State) (h ver row : Nat) (data : Bytes) (way : Bool) : State :=
  let same := fun (w : RmwWait) => w.tbl == h && w.ver == ver && w.row == row
  if s.up.waits.any fun w => same w && w.way == way then s
  else
    (s.onUp fun u => { u with waits := u.waits.filter (fun w => !same w) ++
        [{ tbl := h, ver := ver, row := row, data := data, way := way }] }).count (if way then Ctr.admitWait else Ctr.twinWait)

/-- A row has no place in the cache partition: its channel is FAILED (R420). -/
def State.homeless (s : State) (k : Key) : Bool := s.setsOf (s.setOn (s.homeCh k) k).1 == 0

/-- A new master record goes straight to its backing, as that of a DIRECT band would with its write-back (R255, R420); the flag says that the
backing took it. -/
def State.writeThrough (s : State) (t : Table) (v : Version) (k : Key) (b : Bytes) (res : Tried) : State × Bool :=
  let st := if s.backStatus t v ≠ St.ok then s.backStatus t v else res.status
  if s.backStatus t v ≠ St.ok then (s, false)
  else if t.backTier = 2 then
    let lba := (t.rowBlock v.base (keyRow k)).1
    let rows := s.blockData t v k fun r => if r = keyRow k then some b else none
    (((s.readBlock t v lba rows).wholeCmd
      { drive := s.driveOf v.nsid, kind := 1, ns := v.nsid, lba := lba, blocks := t.rowBlocks, rows := [], own := .step, data := rows }
      res).countN Ctr.writebacks (b2n (st == St.ok)), st == St.ok)
  else if st = St.ok then
    ((s.send (.rowWrite k v.ver (t.rowAddr v (keyRow k)) b (s.rowRoute t))).count Ctr.writebacks, true)
  else (s.count Ctr.tier1Refused, false)

/-- A row whose channel is FAILED is applied in its backing; where the backing does not take it, its contributions wait (R347, R420; DESIGN
CHOICE, log entry 42). -/
def State.rmwThrough (s : State) (a : Apply) (t : Table) (k : Key) (ver : Nat) (e : Entry) (old : Bytes) (fails : WbFails) : State :=
  let new := a.record t old e.sums
  match t.ver? ver with
  | none => s
  | some v =>
    let q := s.writeThrough t v k new (failOf fails k)
    if q.2 then
      (State.forEach (fun s x => s.notePillow x false) (s.up.pillow.filter fun x => x.is a.tbl ver (keyRow k) a.epoch) q.1).rowWritten
        a t ver (keyRow k) e new
    else q.1.rmwWaits (keyTbl k) ver (keyRow k) old true

/-- Apply a row whose master record is `old`: held in Ground store, or read from its backing and admitted now (R255, R258, R278). -/
def State.rmwWrite (s : State) (a : Apply) (t : Table) (k : Key) (ver : Nat) (old : Bytes) (fails : WbFails) : State :=
  let h := keyTbl k
  let row := keyRow k
  match s.mergedOf a ver row with
  | none => s.rowLeaves a ver row fun x => x
  | some e =>
    let held := (s.masterBytes t k ver).isSome
    if e.n = 0 then s.loseRow a ver row
    else if !held && s.homeless k && (s.extentOf h ver row).isNone then s.rmwThrough a t k ver e old fails
    else if !(s.isDirty k ver) && !(s.twinRoom old.length) then s.rmwWaits h ver row (if held then [] else old) false
    else
      let new := a.record t old e.sums
      let m := if held then (((s.noteMaster t k ver).writeMaster t k ver new).writeReads t k ver new, true) else s.mend t k ver new
      let q := if m.2 then m else s.bringIn t k ver new .forced fails
      if !q.2 then q.1.rmwWaits h ver row old true
      else
        let s1 := State.forEach (fun s x => s.notePillow x false) (s.up.pillow.filter fun x => x.is a.tbl ver row a.epoch)
          (if m.2 then q.1 else q.1.count Ctr.admitForced)
        let s2 := (s1.markDirty k ver).putTwin k ver (s1.twinCh (s1.masterCh t k ver)) new |>.addTwinN k ver e.n
        s2.rowWritten a t ver row e new

/-- One row of an apply in its owning pipe. A row that must be read from a backing that fails keeps its contributions, and is read
again, until its time has run out (R338). -/
def State.rmwRow (s : State) (a : Apply) (t : Table) (v : Version) (k : Key) (src : RowSrc) (expired : Bool) (fails : WbFails) : State :=
  if s.rowPoisoned (keyTbl k) v.ver (keyRow k) || v.poisoned then s.loseRow a v.ver (keyRow k)
  else match s.masterBytes t k v.ver with
    | some old => s.rmwWrite a t k v.ver old fails
    | none =>
      -- a tier-2 row is read again until its time has run out, and only a tier-1 row that reads bad is given up at once (R338, R411)
      let q := if t.backTier = 2 then s.readBacking t v k src false else s.readRow t v k src
      if q.2.status = St.ok then q.1.rmwWrite a t k v.ver q.2.data fails
      else if expired || q.1.rowPoisoned (keyTbl k) v.ver (keyRow k) then q.1.loseRow a v.ver (keyRow k)
      else q.1

/-- A read-modify-write of a row waits. -/
def State.rmwWaiting (s : State) (h ver row : Nat) : Option RmwWait :=
  s.up.waits.find? fun w => w.tbl == h && w.ver == ver && w.row == row

/-- An entry of some that has failed its check twice: its contributions are lost (R261). -/
def loseIn (here : Entry → Bool) (l : List Entry) : List Entry :=
  l.map fun e => if here e then { e with n := 0, lostN := e.lostN + e.n } else e

/-- A row's pillow entry has failed its check twice. -/
def State.losePillow (s : State) (a : Apply) (ver row : Nat) : State :=
  let here := fun (e : Entry) => e.is a.tbl ver row a.epoch
  match s.up.pillow.find? here with
  | some e => (s.onUp fun u => { u with pillow := loseIn here u.pillow }).tellLost a.tbl ver row e.n
  | none => s

/-- A row's merge entry has failed its check twice. -/
def State.loseMerge (s : State) (a : Apply) (ver row : Nat) : State :=
  let here := fun (e : Entry) => e.is a.tbl ver row a.epoch
  match s.up.merge.find? here with
  | some e => (s.onUp fun u => { u with merge := loseIn here u.merge }).tellLost a.tbl ver row e.n
  | none => s

/-- What the checks of a read-modify-write find (R261, R408, R410): beats that fail their CRC are resent, a residue mismatch has the row
computed again from the values already read, and a pillow or merge entry that fails its check is read again, once (log entry 111). -/
def State.rmwErrs (s : State) (a : Apply) (ver row : Nat) (e : Errs) : State :=
  let pillow := s.up.pillow.any fun x => x.is a.tbl ver row a.epoch
  let merge := s.up.merge.any fun x => x.is a.tbl ver row a.epoch
  let p := if pillow then min e.store 2 else 0
  let m := if merge then min (if pillow then e.land else e.store) 2 else 0
  let s1 := s.tell [.count Ctr.crcFail (min e.crc 3), .count Ctr.residueFail e.lane, .count Ctr.recRecompute e.lane,
    .count Ctr.parGs p, .count Ctr.parSram m, .count Ctr.recReread (b2n (e.crc != 0) + b2n (p != 0) + b2n (m != 0))]
  let s2 := if p = 2 then s1.losePillow a ver row else s1
  if m = 2 then s2.loseMerge a ver row else s2

/-- COUCHING_RMW; a beat that fails its CRC three times leaves the row to be read again (R410). -/
def State.couchingRmw (s : State) (h ver row : Nat) (src : RowSrc) (expired : Bool) (fails : WbFails) (errs : Errs) : State :=
  match s.applyOf h ver row, s.version h ver with
  | some a, some (t, v) =>
    if (s.rmwWaiting h ver row).isSome then s
    else
      let s1 := s.rmwErrs a ver row errs
      if 3 ≤ errs.crc then s1 else s1.rmwRow a t v (keyOf h row) src expired fails
  | _, _ => s

/-- COUCHING_RMW. -/
def execCouchingRmw (tbl ver row : Nat) (src : Arrival) (fails : WbFails) (s : State) : Host.Outcome State Fault Refusal :=
  .next (s.couchingRmw tbl ver row src.row false fails src.errs)

/-- TIER2_RMW_RETRY (R338). -/
def execTier2RmwRetry (tbl ver row : Nat) (src : RowSrc) (expired : Bool) (fails : WbFails) (s : State) :
    Host.Outcome State Fault Refusal := .next (s.couchingRmw tbl ver row src expired fails {})

/-- A read-modify-write of a row waits no more. -/
def State.endRmwWait (s : State) (h ver row : Nat) : State :=
  s.onUp fun u => { u with waits := u.waits.filter fun w => !(w.tbl == h && w.ver == ver && w.row == row) }

/-- A read-modify-write that waits is tried again with what it read. One whose record Ground store held as it began to wait, and holds no more,
goes back to COUCHING_RMW, which reads the backing. -/
def State.rmwAgain (s : State) (h ver row : Nat) (way : Bool) (fails : WbFails) : State :=
  match s.rmwWaiting h ver row, s.applyOf h ver row, s.version h ver with
  | some w, some a, some (t, v) =>
    if w.way ≠ way then s
    else if s.rowPoisoned h ver row || v.poisoned then s.loseRow a ver row
    else match s.masterBytes t (keyOf h row) ver with
      | some b => s.rmwWrite a t (keyOf h row) ver b fails
      | none => if w.data.isEmpty then s.endRmwWait h ver row else s.rmwWrite a t (keyOf h row) ver w.data fails
  | _, _, _ => s

/-- TWIN_SPACE_GRANT (R258). -/
def execTwinSpaceGrant (tbl ver row : Nat) (fails : WbFails) (s : State) : Host.Outcome State Fault Refusal :=
  .next (s.rmwAgain tbl ver row false fails)

/-- CACHE_WAY_GRANT (R278). -/
def execCacheWayGrant (tbl ver row : Nat) (fails : WbFails) (s : State) : Host.Outcome State Fault Refusal :=
  .next (s.rmwAgain tbl ver row true fails)

/-- TWIN_FULL: a wait for twin space has lasted 1 ms; once per wait (R258, R266). -/
def State.twinFull (s : State) (h ver row : Nat) : State :=
  match s.rmwWaiting h ver row with
  | none => s
  | some w =>
    if w.way || w.told then s
    else
      let n := (s.up.waits.filter fun x => !x.way && x.tbl == h && x.ver == ver).length
      (s.onUp fun u => { u with waits := u.waits.map fun x => if x = w then { x with told := true } else x }).tell
        [mkEvent 0x904 [(8, 2, h), (10, 2, ver), (12, 4, n), (24, 8, (keyOf h row).toNat)]]

/-- TWIN_FULL. -/
def execTwinFull (tbl ver row : Nat) (s : State) : Host.Outcome State Fault Refusal := .next (s.twinFull tbl ver row)

/-! ## Write-back (R256, R257, R454) -/

/-- Write one dirty record back. -/
def State.writeBackOne (s : State) (h ver row : Nat) (res : Tried) : State :=
  match s.version h ver with
  | some (t, v) => (s.writeBackRow t v (keyOf h row) res).1
  | none => s

/-- WB_AGE_EXPIRY. -/
def execWbAgeExpiry (tbl ver row : Nat) (res : Tried) (s : State) : Host.Outcome State Fault Refusal :=
  .next (s.writeBackOne tbl ver row res)

/-- The twins fill more than TWIN_HIGH percent of the space left to them (R257). -/
def State.twinsHigh (s : State) : Bool :=
  decide (bitf (s.cfg Reg.cplCtl) 8 8 * (s.updBytes - s.pillowUsed) < 100 * s.twinUsed)

/-- A write-back of a record is due whatever its age: the twins are high, WB_AGE is 0, or its last write-back failed and is to be tried
again (R257, R263, R336, R454). -/
def State.wbDue (s : State) (k : Key) (ver : Nat) : Bool :=
  s.twinsHigh || bitf (s.cfg Reg.cplCtl) 16 16 == 0 || s.up.wbFailed.contains (k, ver)

/-- WRITE_BACK: the triggers of R257 that have no command of their own (log entry 110). -/
def execWriteBack (tbl ver row : Nat) (res : Tried) (s : State) : Host.Outcome State Fault Refusal :=
  .next (if s.wbDue (keyOf tbl row) ver then s.writeBackOne tbl ver row res else s)

/-! ## Parameter sets (R263, R430) -/

/-- The staged values of a path as a parameter set. -/
def State.stagedSet (s : State) (p : Path) : PSet :=
  let w := fun (off lo : Nat) => BitVec.ofNat 32 (bitf (s.own p off) lo 32)
  { lr := w Reg.optA 0, wd := w Reg.optA 32, b1 := w Reg.optB 0, b2 := w Reg.optB 32, eps := w Reg.optC 0 }

/-- CRH_OPT_SEL: PSET is stored, and COMMIT copies the staged values of the path into it. -/
def State.optSel (s : State) (p : Path) (off size : Nat) (val : Word64) : State :=
  s.regWrite p off size val Reg.optSel 1 fun s _ new =>
    let s1 := regPut s p Reg.optSel new
    if off = Reg.optSel && bitb val 8 then s1.onUp fun u => { u with psets := mset u.psets (bitf new 0 8) (s1.stagedSet p) } else s1

/-- COMMIT: a write of CRH_OPT_SEL with COMMIT set. -/
def execCommit (p : Path) (val : Word64) (s : State) : Host.Outcome State Fault Refusal :=
  .next (s.optSel p Reg.optSel 8 (val ||| 0x100))

end Sys2Proof.Machine
end

