-- ==== Sys2Proof/Machine/Skew.lean ====
section
/-!
DEFINITION. Aging (R279), load measurement (R281, R282), migration and replication (R283 to R290).
-/

namespace Sys2Proof.Machine

/-! ## Aging (R279) -/

/-- A row's copy is not what its band b asks for: of another grade, or, for a DIRECT band, there at all, but for a dirty master record,
which goes at its write-back (R130, R131, R133, R146). -/
def State.offBand (s : State) (t : Table) (w : Way) (b : Nat) : Bool :=
  let read := (s.copiesOf w.key w.ver).find? fun x => x.kind == .read && x.repl == 0
  if (bandAt t b).direct then !(s.isDirty w.key w.ver) else ((read.map (·.grade)).getD w.grade) != (bandAt t b).grade

/-- Queue the regrade that a row's popularity, or a new BANDS, calls for (R129, R132, R133, R146). -/
def State.ageRow (s : State) (w : Way) : State :=
  match s.table (keyTbl w.key) with
  | none => s
  | some t =>
    let now := s.bandOf t w.key w.ver
    let hyst := bitf (s.cfg Reg.regradeCtl) 16 8
    let b := bandMove t.bands hyst w.freq t.bands.length now
    let dup := s.tb.regrades.any fun r => r.key == w.key && r.ver == w.ver
    if (b = now && !(s.offBand t w b)) || dup || !(bitb (s.cfg Reg.regradeCtl) 0) || s.verBegun (keyTbl w.key) w.ver then s
    else s.onTb fun x => { x with regrades := x.regrades ++ [{ key := w.key, ver := w.ver, band := b }] }

/-- A way whose FREQ is halved: replica 0 and ghosts; a ghost whose FREQ becomes 0 is freed. -/
def Way.halve (w : Way) : Option Way :=
  if w.kind = .ghost then (if w.freq / 2 = 0 then none else some { w with freq := w.freq / 2 })
  else if w.repl = 0 then some { w with freq := w.freq / 2 }
  else some w

/-- Write the changed heads of the head caches back to their pockets, and those that a sweep has changed as they passed through (log
entry 19). -/
def State.writeHeads (s : State) (passed : List (Nat × Nat)) : State :=
  let base := s.pinPockets + s.scratchPockets
  let held := (s.ch.heads.filter fun h => h.2.2).map fun h => (h.1, h.2.1)
  let s1 := State.forEach (fun s (h : Nat × Nat) => s.noteWrite h.1 (base + h.2) 0 256) (held ++ passed) s
  s1.onCh fun c => { c with heads := c.heads.map fun h => (h.1, h.2.1, false) }

/-- The bands that BANDS has given are in force (R146). -/
def Table.newBands (t : Table) : Table := { t with bands := t.next.getD t.bands, next := none }

/-- A way whose halving changes its head (R279). -/
def Way.ages (w : Way) : Bool := w.kind == .ghost || (w.repl == 0 && w.freq != 0)

/-- AGING_SWEEP: the sketches and every popularity are halved, and band moves happen: every head is read. A ghost has no copy to
regrade. The setting of CRH_CACHE_CTL is in force from now on (R292), and so are the bands that BANDS has given: the sweep begins the aging
period (R146; DEDUCED, log entry 113). -/
def State.agingSweep (s0 : State) : State :=
  let s := s0.onTb fun x => { x with tables := x.tables.map fun e => (e.1, Table.newBands e.2) }
  let mains := s.ch.ways.filter fun w => w.live && w.repl == 0 && s.mainWay w.key w.ver == some w
  let s1 := State.forEach State.ageRow mains (State.forEach (fun s c => s.sweepHeads [] c) (List.range s.chans) s)
  let changed := dedup ((s.ch.ways.filter Way.ages).map fun w => (w.ch, w.set))
  let s2 := s1.onCh fun c =>
    { c with
      sketch := (c.sketch.map fun e => (e.1, e.2 / 2)).filter fun e => e.2 != 0
      ways := c.ways.filterMap Way.halve
      heads := c.heads.map fun h => (h.1, h.2.1, h.2.2 || changed.contains (h.1, h.2.1))
      fullTold := false
      ctlNow := s.cfg Reg.cacheCtl }
  (s2.writeHeads (changed.filter fun x => !(s.ch.heads.any fun h => h.1 == x.1 && h.2.1 == x.2))).count Ctr.agingSweeps

/-- AGING_SWEEP. -/
def execAgingSweep (s : State) : Host.Outcome State Fault Refusal := .next s.agingSweep

/-! ## Settings (R292): those in force in the interval -/

/-- Store clocks of an interval. -/
def State.intClocks (s : State) : Nat := max 1 (bitf s.ch.skewNow 8 8) * 15000

def State.hotPct (s : State) : Nat := max 100 (bitf s.ch.skewNow 16 8)

def State.bankHot (s : State) : Nat := clampN (bitf s.ch.skewNow 24 8) 1 100

def State.replBank (s : State) : Nat := clampN (bitf s.ch.skewNow 32 8) 2 100

def State.migRows (s : State) : Nat := bitf s.ch.skewNow 48 8

/-- REPL_CAP (R285). -/
def State.replCap (s : State) : Nat := min (clampN (bitf s.ch.skewNow 40 5) 1 16) (Member.replMax s.fuses.member)

/-! ## Measuring load (R281) -/

/-- BANK_BUSY of a channel's interval. -/
def Load.busy (x : Load) (clocks : Nat) : Nat := min 100 (x.banks.foldl (fun m e => max m e.2) 0 * 16 * 100 / clocks)

def State.loadOf (s : State) (ch : Nat) : Load := mgetD s.ch.loads ch {}

/-- LINES of all channels in the interval. -/
def State.allLines (s : State) : Nat := sumBy (fun c => (s.loadOf c).lines) (List.range s.chans)

/-- A channel's figures for the interval that ends. -/
def State.measure (s : State) (total ch : Nat) : State :=
  let x := s.loadOf ch
  let busy := x.busy s.intClocks
  let hot := decide (s.bankHot ≤ busy) || decide (s.hotPct * total ≤ x.lines * 100 * s.chans)
  let run := if hot then x.run + 1 else 0
  let y : Load := { lines := 0, banks := [], lastLines := x.lines, lastBusy := busy, hot := hot, run := run }
  let s1 := (s.onCh fun c => { c with loads := mset c.loads ch y }).countN Ctr.hotIntervals (b2n hot)
  if hot && run % 16 == 0 then s1.tell [mkEvent 0xA01 [(8, 4, ch), (12, 4, busy), (16, 8, x.lines)]] else s1

/-! ## The redirect table (R289) -/

/-- Entries in use, with those that moves in progress will take. -/
def State.redirUsed (s : State) : Nat :=
  s.ch.redir.length + (s.ch.moves.filter fun m => !(s.ch.redir.any fun r => r.key == m.key && r.ver == m.ver)).length

def redirCap : Nat := 65536

/-- An action is refused for want of a redirect entry. -/
def State.redirRefuse (s : State) : State :=
  let s1 := (s.onCh fun c => { c with refused := c.refused + 1 }).count Ctr.redirRefused
  if s1.ch.fullTold then s1
  else (s1.onCh fun c => { c with refused := 0, fullTold := true }).tell [mkEvent 0xA02 [(8, 4, s1.ch.refused)]]

/-- Begin a move: its copies are written by its publication. -/
def State.beginMove (s : State) (k : Key) (ver : Nat) (kind : RedirKind) : State × Bool :=
  if (s.redir k ver).isNone && decide (redirCap ≤ s.redirUsed) then (s.redirRefuse, false)
  else (s.onCh fun c => { c with moves := c.moves ++ [{ key := k, ver := ver, kind := kind }] }, true)

/-! ## Choosing actions (R283 to R285) -/

/-- The smallest power of two n with T / n at most REPL_BANK / 2, at most `cap`; T is lines × 1,600 / clocks percent; the fuel bounds
the doublings. -/
def copiesFor (lines clocks bank cap : Nat) : Nat → Nat → Nat
  | 0, n => min n cap
  | f + 1, n => if lines * 3200 ≤ n * bank * clocks || cap ≤ n then min n cap else copiesFor lines clocks bank cap f (2 * n)

/-- Lines of a row over every tracker (R282). -/
def State.trackedLines (s : State) (k : Key) (ver : Nat) : Nat :=
  sumBy (fun (t : Track) => if t.key == k && t.ver == ver then t.lines else 0) s.ch.tracker

def Redir.isRepl (r : Redir) : Bool :=
  match r.kind with
  | .replicated _ _ => true
  | .migrated _ => false

/-- A tracked row that an action may take. -/
def State.movable (s : State) (k : Key) (ver : Nat) : Bool :=
  match s.version (keyTbl k) ver with
  | none => false
  | some (t, v) =>
    t.skew != 0 && v.state != .retiring && !v.begun && (s.placed (keyTbl k) ver (keyRow k)).isNone && (s.mainWay k ver).isSome &&
    !((bandAt t (s.bandOf t k ver)).direct) && !((s.redir k ver).any (·.isRepl)) &&
    !(s.ch.moves.any fun m => m.key == k && m.ver == ver)

/-- Rows that each channel has been given as a target in this interval. -/
abbrev Given := SMap Nat

/-- The migration target: the least LINES among channels that are neither hot nor the source, and that may take a row more. -/
def State.moveTarget (s : State) (given : Given) (src : Nat) : Option Nat :=
  leastBy (fun c => (s.loadOf c).lastLines)
    ((List.range s.chans).filter fun c => c != src && !((s.loadOf c).hot) && decide (mgetD given c 0 < s.migRows) &&
      !(s.gs.lost.contains c))

/-- What is done with one tracked row of a hot channel: whether an action was taken, and what its target has been given. -/
def State.actOn (s : State) (given : Given) (src : Nat) (x : Track) : State × Given × Bool :=
  if !(s.movable x.key x.ver) then (s, given, false)
  else
    let skew := ((s.table (keyTbl x.key)).map (·.skew)).getD 0
    if skew = 2 && decide (s.replBank * s.intClocks < x.lines * 1600) && decide (2 ≤ s.replCap) then
      let n := max 2 (copiesFor x.lines s.intClocks s.replBank s.replCap 5 1)
      let r := s.beginMove x.key x.ver (.replicated (s.rowCh x.key x.ver) n)
      (r.1, given, r.2)
    else if s.migRows = 0 then (s, given, false)
    else match s.moveTarget given src with
      | none => (s, given, false)
      | some c =>
        let r := s.beginMove x.key x.ver (.migrated c)
        (r.1, if r.2 then mset given c (mgetD given c 0 + 1) else given, r.2)

/-- Act on a hot channel's tracked rows in descending count; `left` is how many actions it may still take. -/
def State.actAll (s : State) (given : Given) (src : Nat) : Nat → List Track → State × Given
  | _, [] => (s, given)
  | 0, _ => (s, given)
  | left + 1, x :: l =>
    let r := s.actOn given src x
    State.actAll r.1 r.2.1 src (if r.2.2 then left else left + 1) l

/-- The hot channels in ascending order. -/
def State.actHot (s : State) (given : Given) : List Nat → State
  | [] => s
  | c :: l =>
    if (s.loadOf c).hot then
      let rows := sortBy (fun (a b : Track) => decide (b.lines ≤ a.lines)) (s.ch.tracker.filter fun t => t.ch == c)
      let r := s.actAll given c (if s.migRows = 0 then 16 else s.migRows) rows
      State.actHot r.1 r.2 l
    else State.actHot s given l

/-! ## Adjusting replicas (R288) -/

/-- Recompute n for one replicated row. -/
def State.adjust (s : State) (r : Redir) : State :=
  match r.kind with
  | .migrated _ => s
  | .replicated h n =>
    let m := copiesFor (s.trackedLines r.key r.ver) s.intClocks s.replBank s.replCap 5 1
    let put := fun (low lowN : Nat) => s.onCh fun c =>
      { c with redir := c.redir.map fun x => if x.key == r.key && x.ver == r.ver then { x with low := low, lowN := lowN } else x }
    if m = n then put 0 0
    else if n < m then
      (if s.ch.moves.any fun x => x.key == r.key && x.ver == r.ver then put 0 0
       else ((put 0 0).beginMove r.key r.ver (.replicated h m)).1)
    else
      let low := if r.lowN = m then r.low + 1 else 1
      if 8 ≤ low then s.dropReplicas r.key r.ver m else put low m

/-- LOAD_INTERVAL_END (R281 to R283, R288): the figures are taken, replicas are adjusted, actions are chosen, the trackers are
cleared, and the next interval has the setting of CRH_SKEW_CTL. -/
def State.intervalEnd (s : State) : State :=
  let total := s.allLines
  let s1 := State.forEach (fun s c => s.measure total c) (List.range s.chans) s
  let s2 :=
    if bitb s1.ch.skewNow 0 then
      (State.forEach State.adjust s1.ch.redir s1).actHot [] (List.range s.chans)
    else s1
  s2.onCh fun c => { c with tracker := [], skewNow := s.cfg Reg.skewCtl }

/-- LOAD_INTERVAL_END. -/
def execLoadIntervalEnd (s : State) : Host.Outcome State Fault Refusal := .next s.intervalEnd

/-! ## Publication (R284, R285) -/

def State.moveOf (s : State) (k : Key) (ver : Nat) (repl : Bool) : Option Move :=
  s.ch.moves.find? fun m => m.key == k && m.ver == ver && (match m.kind with
    | .replicated _ _ => repl
    | .migrated _ => !repl)

def State.endMove (s : State) (k : Key) (ver : Nat) : State :=
  s.onCh fun c => { c with moves := c.moves.filter fun m => !(m.key == k && m.ver == ver) }

/-- Publish a redirect entry in place of the row's older one. -/
def State.putRedir (s : State) (k : Key) (ver : Nat) (kind : RedirKind) : State :=
  s.onCh fun c => { c with redir := (c.redir.filter fun r => !(r.key == k && r.ver == ver)) ++ [{ key := k, ver := ver, kind := kind }] }

/-- Write copies of a row's ways on another channel, the head of each looked up before its slot; the flag says that each could be had. -/
def State.copyWays (s : State) (ch : Nat) (fails : WbFails) : List Way → State × Bool
  | [] => (s, true)
  | w :: l =>
    let b := s.readSlot w w.size
    let t := s.table (keyTbl w.key)
    let n := (t.map fun t => t.copyBytes w.grade (w.kind == .master && t.upd)).getD w.size
    let r := ((s.seeHead w.ch w.set).readCopy w n false).placeCopy ch w.key w.ver w.kind w.grade (b.take n) w.freq 0 .forced fails
    if r.2 then State.copyWays r.1 ch fails l else r

/-- MIGRATION_PUBLISH (R284): the copies are written on the target, the redirect entry is published, and the old copies go, each once its
bobbins have read it; the old twin keeps its space until then. -/
def State.migrate (s : State) (k : Key) (ver : Nat) (fails : WbFails) : State :=
  match s.moveOf k ver false with
  | none => s
  | some m =>
    let s0 := s.endMove k ver
    let old := (s0.copiesOf k ver).filter fun w => w.repl == 0
    match m.kind, s0.mainWay k ver with
    | .migrated c, some w =>
      let dirty := s0.isDirty k ver
      let r := (s0.touchHead w.ch w.set false).copyWays c fails old
      let stood := fun (x : Way) => old.any fun y => y.ch == x.ch && y.set == x.set && y.way == x.way
      if !r.2 then (r.1.dropWays ((r.1.copiesOf k ver).filter fun x => x.repl == 0 && !(stood x))).count Ctr.admitDeclined
      else
        let s1 := (r.1.dropWays old).putRedir k ver (.migrated c)
        let was := fun (x : Way) => old.any fun y => y.kind == x.kind && y.dn
        let s2 := s1.onWays (fun x => x.key == k && x.ver == ver && x.kind != .ghost && x.repl == 0 && x.leaving == 0) fun x =>
          { x with dirty := dirty && x.kind == .master, dn := was x }
        let s2 := s2.setBand k ver w.band
        let s3 := match s2.twinOf k ver with
          | some t =>
            if dirty then
              (s2.putTwin k ver (s2.twinCh c) t.data).onUp fun u => { u with oldTwins := t :: u.oldTwins.filter fun x => !(x.is k ver) }
            else s2
          | none => s2
        s3.tell [.count Ctr.migratedRows 1, .count Ctr.admitForced 1]
    | _, _ => s0

/-- MIGRATION_PUBLISH. -/
def execMigrationPublish (tbl ver row : Nat) (fails : WbFails) (s : State) : Host.Outcome State Fault Refusal :=
  .next (s.migrate (keyOf tbl row) ver fails)

/-- Place replicas with the given values of k; the flag says that each could be had. -/
def State.addReplicas (s : State) (k : Key) (ver h : Nat) (g : Grade) (b : Bytes) (fails : WbFails) : List Nat → State × Bool
  | [] => (s, true)
  | i :: l =>
    let r := s.placeCopy ((h + 8 * i) % s.chans) k ver .read g b 0 i .forced fails
    if r.2 then State.addReplicas r.1 k ver h g b fails l else r

/-- The grade and bytes of a row's replicas: its band's grade, encoded from the master record, in an updatable table; the copy of replica 0 in
a read-only one (R285). -/
def State.replicaData (s : State) (t : Table) (k : Key) (ver : Nat) : State × Option (Grade × Bytes) :=
  let mine := (s.copiesOf k ver).filter fun w => w.repl == 0
  let rd := mine.find? fun w => w.kind == .read
  match s.masterWay k ver with
  | some m =>
    let g := (bandAt t (s.bandOf t k ver)).grade
    let c := (s.noteMaster t k ver).encCopy t (s.readSlot m t.srcBytes) g
    (c.1, some (g, c.2))
  | none => match rd with
    | some w => ((s.touchHead w.ch w.set false).readCopy w (gradeBytes w.grade t.dim) false, some (w.grade, s.readSlot w (gradeBytes w.grade t.dim)))
    | none => (s, none)

/-- REPLICATION_PUBLISH (R285, R288): the new replicas are written, and the redirect entry is published. -/
def State.replicate (s : State) (k : Key) (ver : Nat) (fails : WbFails) : State :=
  match s.moveOf k ver true, s.table (keyTbl k) with
  | some m, some t =>
    let s0 := s.endMove k ver
    match m.kind with
    | .migrated _ => s0
    | .replicated h n =>
      let have' := (s0.replicasOf k ver).map (·.repl)
      let new := (List.range n).filter fun i => i != 0 && !(have'.contains i)
      let d := s0.replicaData t k ver
      match d.2 with
      | none => s0
      | some (g, b) =>
        let r := d.1.addReplicas k ver h g b fails new
        if r.2 then (r.1.putRedir k ver (.replicated h n)).tell [.count Ctr.replAdded new.length, .count Ctr.admitForced 1]
        else (r.1.dropWays ((r.1.replicasOf k ver).filter fun w => new.contains w.repl)).count Ctr.admitDeclined
  | _, _ => s

/-- REPLICATION_PUBLISH. -/
def execReplicationPublish (tbl ver row : Nat) (fails : WbFails) (s : State) : Host.Outcome State Fault Refusal :=
  .next (s.replicate (keyOf tbl row) ver fails)

end Sys2Proof.Machine
end

