-- ==== Sys2Proof/Machine/Banks.lean ====
section
/-!
DEFINITION. A channel's scheduler (R300, R301), refresh (R303), the write-combining buffer's age limit (R309), retention steps (R305),
stuck banks (R302), and row and bank repair (R313, R314, R319), with what a failed repair leads to (Tables 83 and 120).
-/

namespace Sys2Proof.Machine

/-! ## Channels (R296, R312) -/

def State.phys (s : State) (p : Nat) : Phys := mgetD s.gs.phys p {}

def State.onPhys (s : State) (p : Nat) (f : Phys → Phys) : State := s.onGs fun g => { g with phys := mset g.phys p (f (s.phys p)) }

/-- The physical channel that serves a logical channel; none while it is folded or FAILED. -/
def State.pchOf (s : State) (l : Nat) : Option Nat :=
  if s.chans ≤ l || s.gs.folded.contains l || s.gs.lost.contains l then none else some (mgetD s.gs.lmap l l)

/-- The logical channel that a physical channel serves. -/
def State.lchOf (s : State) (p : Nat) : Option Nat := (List.range s.chans).find? fun l => s.pchOf l == some p

/-- Physical channels in SPARE, ascending. -/
def State.spareChs (s : State) : List Nat :=
  (List.range (Member.phys s.fuses.member)).filter fun p => (s.phys p).state == .spare

def State.tiers (s : State) : Nat := Member.tiers s.fuses.member

def noCh : Nat := 0xFFFFFFFF

/-- A Ground store event (R323). -/
def State.gsEvent (s : State) (code : Nat) (lch : Option Nat) (pch kind tier bank row : Nat) : TelOp :=
  mkEvent code [(8, 4, lch.getD noCh), (12, 4, pch), (16, 4, kind), (20, 4, (s.phys pch).temp / 4),
    (24, 8, tier % 8 + bank % 32 * 8 + row % 512 * 256)]

/-- The hardware's audit record of a spare brought into service (R398; log entry 56). -/
def State.auditSpare (s : State) (target : Nat) : State := s.auditHw 0x8006 target

/-! ## The scheduler (R300, R301) -/

def State.sched (s : State) (ch : Nat) : Sched := mgetD s.gs.scheds ch {}

def State.setSched (s : State) (ch : Nat) (c : Sched) : State := s.onGs fun g => { g with scheds := mset g.scheds ch c }

/-- The refresh band in force: temperature's, and one step above it under a retention step, up to 4 (R305). -/
def Phys.eff (p : Phys) : Nat := min 4 (p.band + b2n p.step)

/-- The burst interval of a band (Table 79). -/
def burstEvery : Nat → Nat
  | 0 => 1066 | 1 => 533 | 2 => 266 | 3 => 133 | _ => 66

/-- Turnaround clocks (Table 78). -/
def State.turnCost (s : State) (toWrite : Bool) : Nat :=
  if s.tiers = 4 then (if toWrite then 6 else 8) else (if toWrite then 7 else 10)

/-- The level of R366 that the Ground store throttle of a channel sets: 8 for one access in two, 12 for one in four. -/
def Phys.level (p : Phys) : Nat := if p.throttle = 0 then 0 else if p.throttle = 1 then 8 else 12

/-- EMERG_LVL while PMH_EMERG is asserted (R366). -/
def State.emergLevel (s : State) : Nat := if s.pw.emerg then bitf (s.cfg Reg.pwrCtl) 16 4 else 0

/-- A level n lets 16 - n of every 16 clocks issue (R366), evenly spaced. -/
def throttleOpen (level clock : Nat) : Bool := decide (clock * (16 - level) % 16 < 16 - level)

/-- Requests of a channel that may issue by order: the oldest of each access line (R301). -/
def lineHeads : List Req → List Req → List Req
  | [], acc => acc.reverse
  | r :: t, acc => lineHeads t (if acc.any fun a => a.bank == r.bank && a.line == r.line then acc else r :: acc)

/-- The requests of the banks, each with whether its bank's queue holds it: the oldest 64 of each bank. Those behind them wait to enter
(R301; log entry 44). -/
def queueMark : List Req → SMap Nat → List (Req × Bool)
  | [], _ => []
  | r :: t, n =>
    let i := r.ch * 256 + r.bank
    let k := mgetD n i 0
    if k < 64 then (r, true) :: queueMark t (mset n i (k + 1)) else (r, false) :: queueMark t n

/-- The requests that the queues hold. -/
def queueHeld (l : List Req) : List Req := ((queueMark l []).filter (·.2)).map (·.1)

/-- A bank is free at the channel's clock. -/
def Sched.bankFree (c : Sched) (bank : Nat) : Bool := decide (mgetD c.busy bank 0 ≤ c.clock)

/-- Issue one access. -/
def State.issueReq (s : State) (c : Sched) (r : Req) : State :=
  let c1 := { c with batch := c.batch + 1, run := c.run + 1, busy := mset c.busy r.bank (c.clock + 16) }
  let s1 := (s.onGs fun g => { g with queues := delFirst (fun x => x == r) g.queues }).setSched r.ch c1
  let l := mgetD s1.ch.loads r.ch {}
  let l1 := { l with lines := l.lines + 1, banks := mset l.banks r.bank (mgetD l.banks r.bank 0 + 1) }
  ((s1.onCh fun x => { x with loads := mset x.loads r.ch l1 }).count (if r.write then Ctr.gsLinesWritten else Ctr.gsLinesRead)).wcFree r

/-- Take up a request: turn the direction or change the tier for it, which costs idle clocks, or issue it; `aged` says that it goes
first by its age. -/
def State.takeReq (s : State) (c : Sched) (r : Req) (aged : Bool) : State :=
  if r.write ≠ c.writing then
    s.setSched r.ch { c with writing := r.write, batch := 0, free := c.clock + s.turnCost r.write }
  else if r.bank / 30 ≠ c.tier then s.setSched r.ch { c with tier := r.bank / 30, run := 0 }
  else (s.issueReq c r).countN Ctr.agePromoted (b2n aged)

/-- Rules 2 to 4 of R301, in one clock in which the channel may issue. -/
def State.schedule (s : State) (ch : Nat) (c : Sched) : State :=
  let mine := queueHeld (s.gs.queues.filter fun r => r.ch == ch)
  let ready := (lineHeads mine []).filter fun r => c.bankFree r.bank
  match ready.find? fun r => decide (r.born + 4096 ≤ c.clock) with
  | some r => s.takeReq c r true
  | none =>
    let other := mine.any fun r => r.write != c.writing
    let here := ready.filter fun r => r.write == c.writing
    if other && (here.isEmpty || decide (max 1 (bitf (s.cfg Reg.gsCtl) 0 6) ≤ c.batch)) then
      s.setSched ch { c with writing := !c.writing, batch := 0, free := c.clock + s.turnCost (!c.writing) }
    else
      let same := here.filter fun r => r.bank / 30 == c.tier
      let pick := if c.run < max 1 (bitf (s.cfg Reg.gsCtl) 8 6) && !same.isEmpty then same.head? else here.head?
      match pick with
      | none => s.setSched ch c
      | some r => s.takeReq (if c.run < max 1 (bitf (s.cfg Reg.gsCtl) 8 6) then c else { c with run := 0 }) r false

/-- COPY_PCT, as it acts (R321). -/
def State.copyPct (s : State) : Nat := max 10 (min 90 (bitf (s.cfg Reg.gsCtl) 32 7))

/-- The channel, bank and bank line from which a copy reads its next line: f's own, or a donor's under UNFOLD. -/
def State.copyFrom (s : State) (c : ChCopy) : Nat × Nat × Nat :=
  let q := if c.op = 3 then s.donorPlace c.lch (c.done / 16) else (c.lch, c.done / 16)
  let b := s.bankLine q.2 (c.done % 16)
  (q.1, b.1, b.2)

/-- The copy that takes a line of a channel in one of its clocks: COPY_PCT of them, evenly spaced, while the store core runs and the line's
bank has room for the request (R301, R315, R320). -/
def State.copyNow (s : State) (ch clock : Nat) : Option ChCopy :=
  if s.copyPct ≤ clock * s.copyPct % 100 || !(s.roleUp 3) then none
  else s.gs.copies.find? fun c =>
    let p := s.copyFrom c
    c.readable && decide (c.done < s.copyLines c.op) && p.1 == ch &&
      decide ((s.gs.queues.filter fun r => r.ch == ch && r.bank == p.2.1).length < 64)

/-- A copy's next line is read, and written where the copy takes it. -/
def State.copyStep (s : State) (ch clock : Nat) : State :=
  match s.copyNow ch clock with
  | none => s
  | some c =>
    let p := s.copyFrom c
    ((s.askRaw p.1 p.2.1 p.2.2 false false).writeTo c c.done).onGs fun g =>
      { g with copies := g.copies.map fun x => if x = c then { x with done := x.done + 1 } else x }

/-- One store clock of a channel. A due refresh burst goes first. -/
def State.bankClock (s : State) (ch p : Nat) : State :=
  let c0 := s.sched ch
  let c := { c0 with clock := c0.clock + 1 }
  let level := max (s.phys p).level s.emergLevel
  let s1 := s.countN Ctr.throttleClocks (b2n (level != 0))
  if c.clock < c.free || c.burst + c.ival ≤ c.clock || !(throttleOpen level c.clock) then s1.setSched ch c
  else (s1.copyStep ch c.clock).schedule ch c

/-- BANK_ACCESS: one store clock of a channel that serves a logical channel. -/
def execBankAccess (ch : Nat) (s : State) : Host.Outcome State Fault Refusal :=
  .next (match s.pchOf ch with
    | some p => s.bankClock ch p
    | none => s)

/-- The burst interval in force: a band's, shortened by one eighth while the always-on domain runs on the oscillator (R363). -/
def State.burstInt (s : State) (p : Nat) : Nat :=
  let n := burstEvery (s.phys p).eff
  if s.pw.aonOsc then n * 7 / 8 else n

/-- The scheduler of a physical channel: that of the logical channel it serves, or one of its own, of which only the refresh is in
use. -/
def State.schedOf (s : State) (p : Nat) : Nat := (s.lchOf p).getD (256 + p)

/-- A refresh burst of a scheduler (R303): it refreshes one array row in every bank, 384 bursts refresh each row once, it takes the
channel for 16 clocks, and the band then in force gives the next interval (R304). -/
def State.refresh (s : State) (k p : Nat) : State :=
  let c := s.sched k
  ((s.setSched k { c with free := max c.clock c.free + 16, burst := c.clock, ival := s.burstInt p }).onPhys p fun x =>
    { x with row := (x.row + 1) % 384 }).count Ctr.refreshBursts

/-- The burst of a physical channel, once its interval has passed. A channel that serves no logical channel takes no accesses, and its
clock is moved on to the burst. -/
def State.refreshDue (s : State) (p : Nat) : State :=
  let k := s.schedOf p
  let c := s.sched k
  match (s.phys p).state, s.lchOf p with
  | .absent, _ => s
  | .failed, _ => s
  | .training, _ => s
  | _, some _ => if c.burst + c.ival ≤ c.clock then s.refresh k p else s
  | _, none => (s.setSched k { c with clock := c.burst + c.ival }).refresh k p

/-- REFRESH_BURST of a physical channel. -/
def execRefreshBurst (pch : Nat) (s : State) : Host.Outcome State Fault Refusal := .next (s.refreshDue pch)

/-- WC_RETIRE (R309): the channel's oldest entry, once it has been held WC_AGE clocks. -/
def State.wcRetire (s : State) (ch : Nat) : State :=
  match s.oldestWc ch with
  | none => s
  | some e => if e.born + max 1 (bitf (s.cfg Reg.gsCtl) 16 12) ≤ s.clockOf ch then (s.retireWc e).wcNext ch else s

/-- WC_RETIRE. -/
def execWcRetire (ch : Nat) (s : State) : Host.Outcome State Fault Refusal := .next (s.wcRetire ch)

/-! ## What a channel or bank whose contents are gone costs (Tables 118 and 120) -/

/-- Bytes [a, b) of a pocket touch one of its lines that pass. -/
def partHit (hit : Nat → Nat → Bool) (pocket a b : Nat) : Bool :=
  (List.range 16).any fun i => decide (a < 256 * (i + 1) ∧ 256 * i < b) && hit pocket i

/-- A channel serves bytes of a pinned record, in a line that passes. -/
def State.pinHit (s : State) (ch o n : Nat) (hit : Nat → Nat → Bool) : Bool :=
  (s.pinParts o n).any fun p =>
    let q := s.pocketAt p.1 p.2.1
    q.1 == ch && partHit hit q.2 p.2.2.1 p.2.2.2

/-- The placed rows of an extent that have bytes on a channel, in a line that passes. -/
def State.rowsOn (s : State) (e : Extent) (ch : Nat) (hit : Nat → Nat → Bool) : List Nat :=
  match s.table e.tbl with
  | none => []
  | some t => e.placed.filter fun r => s.pinHit ch (e.rowOff t r) (e.slot t) hit

/-- The lines that lie in a bank, counted over the tiers. -/
def State.inBank (s : State) (bank pocket _i : Nat) : Bool := (s.bankLine pocket 0).1 == bank

/-! ## Repair (R302, R313, R314, R319) -/

/-- The pocket and the first of its lines that lie in an array row of a logical bank, 8 lines to a row: line i of a pocket at position r of
its bank lies in array row (16r + i) div 8 (R299). -/
def State.rowPocket (s : State) (tier bank row : Nat) : Nat × Nat :=
  (30 * (s.tiers * (8 * row / 16) + tier) + bank, 8 * row % 16)

/-- The array row of line i of a pocket (R299). -/
def State.arrayRow (s : State) (pocket i : Nat) : Nat := (s.bankLine pocket i).2 / 8

/-- A bank of a channel marked lost. -/
def State.lostBank (s : State) (ch bank : Nat) : Bool := s.gs.lostBanks.contains (ch * 256 + bank)

def tierKey (p tier : Nat) : Nat := p * 8 + tier
def bankKey (p tier bank : Nat) : Nat := tierKey p tier * 32 + bank

/-- The physical bank that serves a logical bank of a physical channel (R296). -/
def State.physBank (s : State) (p tier bank : Nat) : Nat := mgetD s.gs.bankMap (bankKey p tier bank) bank

/-- Spare banks left in a physical channel. -/
def State.spareBanks (s : State) (p : Nat) : Nat :=
  sumBy (fun t => 2 - mgetD s.gs.bankUsed (tierKey p t) 0) (List.range s.tiers)

/-- Spare rows left in a physical channel. -/
def State.spareRows (s : State) (p : Nat) : Nat :=
  sumBy (fun k => 16 - mgetD s.gs.rowUsed (bankKey p 0 0 + k) 0) (List.range (32 * s.tiers))

/-- SPARE_LOW, where the last spare of a kind has been brought in (R319). -/
def State.spareLow (s : State) (lch : Nat) (p kind left : Nat) : State :=
  if left = 0 then s.tell [s.gsEvent 0xB05 (some lch) p kind 0 0 0] else s

end Sys2Proof.Machine
end

