-- ==== Sys2Proof/Machine/Bulk.lean ====
section
/-!
DEFINITION. The bulk mover: BULK_SPILL and BULK_FILL (R324 to R328), burst by burst.
-/

namespace Sys2Proof.Machine

/-! ## Hand-over to the bulk mover -/

/-- Bytes of a burst: CRH_HOST_ARB.BURST, where 3 acts as 2. -/
def State.burstBytes (s : State) : Nat := 1024 * 2 ^ min 2 (bitf (s.cfg Reg.hostArb) 16 2)

def Desc.srcRange (d : Desc) : Option Range := d.ranges.find? fun r => r.kind == .bulkSrc
def Desc.dstRange (d : Desc) : Option Range := d.ranges.find? fun r => r.kind == .bulkDst

/-- FLG.STRIPE of a bulk descriptor is honoured (R327). -/
def State.bulkStripes (s : State) (d : Desc) : Bool := d.stripe && (s.ring d.ring).stripeOk

/-- A bulk descriptor past the front end is handed to the mover, where it holds fewer than 64; a striped one has STRIPED in its record
however it ends (R327). -/
def State.bulkStart (s : State) (id opc : Nat) : State :=
  match s.readyFor id opc fun _ => true with
  | none => s
  | some d =>
    if bulkCap ≤ s.fl.bulk.length then s
    else (s.onFl fun f => { f with bulk := f.bulk ++ [{ id := id, burst := s.burstBytes }] }).onDesc id fun x =>
      { x with stage := .bulk, flags := withFlag x.flags Fl.striped (s.bulkStripes d) }

/-- BULK_SPILL. -/
def execBulkSpill (id : Nat) (s : State) : Host.Outcome State Fault Refusal := .next (s.bulkStart id 0x20)

/-- BULK_FILL. -/
def execBulkFill (id : Nat) (s : State) : Host.Outcome State Fault Refusal := .next (s.bulkStart id 0x21)

/-! ## A burst -/

/-- The host range of a bulk descriptor. -/
def Desc.hostRange (d : Desc) : Option Range := if d.opc = 0x20 then d.dstRange else d.srcRange

/-- Bytes of the next burst: to the next multiple of BURST of the host address. -/
def Bulk.next (b : Bulk) (d : Desc) : Nat :=
  let a := ((d.hostRange.map Range.va).getD 0).toNat + b.moved
  min (d.count - b.moved) (b.burst - a % b.burst)

/-- A burst of n bytes may start: its fabric messages have a credit (R22, R23), and its host pages are translated (R100, R108). -/
def State.bulkMay (s : State) (d : Desc) (m n : Nat) : Bool :=
  s.fabReady && (d.hostRange.all fun r => s.covered d r m (m + n))

/-- The bytes moved so far: entries behind them are released, and the pages that follow are translated (R100). -/
def State.bulkPass (s : State) (id m : Nat) : State :=
  s.passBytes id fun _ r => if r.kind == .bulkSrc || r.kind == .bulkDst then some m else none

/-- Where a burst of n bytes at offset m of the ranges stops: the first byte not moved, with its status. A fault lies on the host
range: known from pricking, met by a fill's read, or met by a spill's write. -/
def Desc.bulkCut (d : Desc) (m n : Nat) (src : Feed) (dstFault : Option Nat) : Option (Nat × BitVec 8) :=
  let known := ((d.hostRange.map (·.fault)).getD none).filter fun c => decide (c.1 < m + n)
  let read := if d.opc = 0x21 && decide (src.data.length < n) then
      some (m + src.data.length, if src.status = St.ok then St.pageFault else src.status) else none
  let write := if d.opc = 0x20 then (dstFault.filter fun o => decide (m ≤ o ∧ o < m + n)).map fun o => (o, St.pageFault) else none
  minCut known (minCut read write)

/-- Write moved bytes at offset m of the destination. -/
def State.bulkWrite (s : State) (d : Desc) (m : Nat) (b : Bytes) : State :=
  match d.dstRange with
  | none => s
  | some r => s.putBytes d r m b

/-- A bulk descriptor ends: all its bytes are moved, or it stopped at a fault (R328, Table 29). -/
def State.bulkEnd (s : State) (d : Desc) (moved : Nat) (cut : Option (Nat × BitVec 8)) : State :=
  let s1 := (s.onFl fun f => { f with bulk := f.bulk.filter fun x => x.id != d.id }).countN Ctr.inboundBad (badReads ((cut.map (·.2)).getD St.ok))
  let va := (d.hostRange.map Range.va).getD 0
  let s2 := if cut.isSome then s1.send (.openBytes d.id moved (d.count - moved)) else s1
  s2.settle d.id fun x =>
    { x with status := (cut.map (·.2)).getD St.ok, detail := 0, done := moved
             info := (cut.map fun c => va + BitVec.ofNat 64 c.1).getD 0
             flags := withFlag x.flags Fl.partial' (cut.isSome && moved != 0) }

/-- The reads of a burst of n bytes at offset m: host reads of a fill, fabric messages of a spill (R326). -/
def State.bulkReads (s : State) (d : Desc) (m n : Nat) : State :=
  match d.srcRange with
  | none => s
  | some r => if r.fabric then s.fabSendAll (fabReads d r m (m + n)) else s.sendAll (s.hostReads d r m (min (m + n) (Range.stopOff r)))

/-- The burst of a descriptor in the mover may start. -/
def State.burstMay (s : State) (b : Bulk) : Bool := (s.desc b.id).any fun d => s.bulkMay d b.moved (b.next d)

/-- BULK_BURST: the descriptor whose turn it is moves its next burst, and goes to the end of the round; one whose burst may not start yet
is passed by (R326). -/
def State.bulkBurst (s : State) (id : Nat) (src : Feed) (dstFault : Option Nat) : State :=
  match s.fl.bulk.find? s.burstMay, s.desc id with
  | some b, some d =>
    let n := b.next d
    if b.id ≠ id || (d.opc == 0x20 && src.data.length < n) then s
    else
      let cut := d.bulkCut b.moved n src dstFault
      let k := min n ((cut.map fun c => c.1 - b.moved).getD n)
      let s1 := ((s.bulkReads d b.moved n).bulkWrite d b.moved (src.data.take k)).countN (if d.opc = 0x20 then Ctr.bulkSpillBytes else Ctr.bulkFillBytes) k
      let m := b.moved + k
      if cut.isSome || d.count ≤ m then s1.bulkEnd d m cut
      else (s1.onFl fun f => { f with bulk := (f.bulk.filter fun x => x.id != id) ++ [{ b with moved := m }] }).bulkPass id m
  | _, _ => s

/-- BULK_BURST. -/
def execBulkBurst (id : Nat) (src : Feed) (dstFault : Option Nat) (s : State) : Host.Outcome State Fault Refusal :=
  .next (s.bulkBurst id src dstFault)

end Sys2Proof.Machine
end

