-- ==== Sys2Proof/Machine/Channels.lean ====
section
/-!
DEFINITION. Channel actions: REPLACE, FOLD and UNFOLD with their switch (R315 to R318), RETRAIN, TEST and RETIRE (R311, R321), the
automatic actions of Table 83, and the state of Table 120 when FOLD is refused.
-/

namespace Sys2Proof.Machine

/-! ## RESULT of CRH_GS_CMD (R321) -/

def GsRes.badChannel : Nat := 2
def GsRes.wrongState : Nat := 3
def GsRes.noSpare : Nat := 4
def GsRes.noRoom : Nat := 5
def GsRes.testFail : Nat := 6
def GsRes.denied : Nat := 7

/-! ## Moving and dropping copies (R317, R318) -/

/-- A way still stands as it did. -/
def State.stands (s : State) (w : Way) : Bool := s.ch.ways.any fun x => x.ch == w.ch && x.set == w.set && x.way == w.way && x.key == w.key

/-- A dirty record whose write-back failed goes with the contributions that only it held (R261). -/
def State.loseMaster (s : State) (k : Key) (ver : Nat) : State :=
  s.tellLost (keyTbl k) ver (keyRow k) (((s.twinOf k ver).map (·.n)).getD 0)

/-- Drop the copies that a way stands for, writing a dirty master record back first; the flag says that it could be written. -/
def State.dropFor (s : State) (w : Way) (fails : WbFails) : State × Bool :=
  if !(s.stands w) then (s, true)
  else if w.leaving != 0 then (s.dropWay w, true)
  else match s.version (keyTbl w.key) w.ver with
    | none => ((s.dropWay w).markHead w.ch w.set, true)
    | some (t, v) =>
      if w.kind = .ghost then ((s.dropWay w).markHead w.ch w.set, true)
      else if w.kind = .read && w.repl != 0 then (s.dropReplicas w.key w.ver w.repl, true)
      else if w.kind = .read && t.upd then ((s.dropWay w).markHead w.ch w.set, true)
      else
        let r := s.writeBackRow t v w.key (failOf fails w.key)
        if r.2 then (r.1.dropRow w.key w.ver false, true) else (r.1, false)

/-- Drop for each of some ways; the flag says that every write-back succeeded. -/
def State.dropEach (s : State) (fails : WbFails) : List Way → State × Bool
  | [] => (s, true)
  | w :: l =>
    let r := s.dropFor w fails
    if r.2 then State.dropEach r.1 fails l else (r.1, false)

/-- Drop for a way; a record that cannot be written back is lost beyond its backing. -/
def State.dropOrLose (s : State) (w : Way) : State :=
  let r := s.dropFor w []
  if r.2 then r.1 else (r.1.loseMaster w.key w.ver).dropRow w.key w.ver false

/-- The logical channel that a way's row names for it (R267, R284, R285). -/
def State.wayCh (s : State) (w : Way) : Nat := (s.rowCh w.key w.ver + 8 * w.repl) % s.chans

/-- A way stands in a set, or its slot in areas, that no longer serve its row. -/
def State.misplaced (s : State) (w : Way) : Bool :=
  s.setOn (s.wayCh w) w.key != (w.ch, w.set) || (w.live && decide (s.setsOf w.ch < w.pocket + spanOf w.size))

/-- Move a master record to the set that now serves its row; where no way can be had, it is written back and dropped. -/
def State.moveMaster (s : State) (w : Way) (t : Table) : State :=
  let b := s.readSlot w t.srcBytes
  let own := (s.copiesOf w.key w.ver).filter fun x => x.repl == 0
  let r := ((s.readCopy w t.srcBytes false).dropWays own).placeCopy (s.rowCh w.key w.ver) w.key w.ver .master w.grade b w.freq 0 .forced []
  if r.2 then
    r.1.onWays (fun x => x.key == w.key && x.ver == w.ver && x.kind == WayKind.master)
      fun x => { x with dirty := w.dirty, dn := w.dn, band := w.band }
  else s.dropOrLose w

/-- One misplaced way: a master record moves, any other copy is dropped. `all` drops a moved row's replicas too (R318). -/
def State.rehouse (s : State) (all : Bool) (w : Way) : State :=
  if !(s.stands w && s.misplaced w) then s
  else if w.leaving != 0 then s.dropWay w
  else match s.table (keyTbl w.key) with
    | none => s.dropWay w
    | some t =>
      if w.kind = .master then (if all then s.dropReplicas w.key w.ver 1 else s).moveMaster w t else s.dropOrLose w

/-- Twins lie where their master records' channels put them (R268). -/
def State.settleTwins (s : State) : State :=
  s.onUp fun u =>
    { u with twins := u.twins.map fun x => match s.table (keyTbl x.key) with
        | some t => { x with ch := s.twinCh (s.masterCh t x.key x.ver) }
        | none => x }

/-- Copies go where the channels now in service serve them. -/
def State.rehouseAll (s : State) (all : Bool) : State :=
  (State.forEach (fun s w => s.rehouse all w) (s.ch.ways.filter s.misplaced) s).settleTwins

/-! ## Contents that are gone (R302, R315, Tables 118 and 120) -/

/-- A way's slot has bytes in a line that passes; a way's head is the first line of its set's pocket. -/
def State.slotIn (s : State) (w : Way) (hit : Nat → Nat → Bool) : Bool :=
  w.live && (s.slotParts w w.size).any fun p => partHit hit p.1 p.2.1 p.2.2

def State.headIn (s : State) (w : Way) (hit : Nat → Nat → Bool) : Bool := hit (s.pinPockets + s.scratchPockets + w.set) 0

/-- A dirty master record whose way or copy is gone is taken from its twin: in place, where the bank takes writes, or in a way of its own
choosing. -/
def State.masterFromTwin (s : State) (w : Way) (stay : Bool) : State :=
  let s1 := s.count Ctr.recCopy
  if stay then s1
  else match s.table (keyTbl w.key) with
    | some t => s1.moveMaster w t
    | none => s1.dropWay w

/-- One way whose head or slot is gone (Table 118): a head line's ways are dropped, and the dirty masters among them taken from their
twins; a clean row goes with its copies and is read from its backing when it is next asked for; a read copy of a master record that
stays is encoded again. `spared` says that the lines take writes again. -/
def State.wayGone (s : State) (hit : Nat → Nat → Bool) (spared : Bool) (w : Way) : State :=
  let head := s.headIn w hit
  if !(s.stands w) then s
  else if w.leaving != 0 || w.kind == .ghost then (if head then (s.dropWay w).markHead w.ch w.set else s)
  else if w.kind == .master && w.dirty then s.masterFromTwin w (spared && !head)
  else if w.kind == .read && w.repl != 0 then s.dropReplicas w.key w.ver w.repl
  else if w.kind == .read && ((s.table (keyTbl w.key)).any (·.upd)) then
    (if head || !spared then (s.dropWay w).markHead w.ch w.set else s.count Ctr.recCopy)
  else s.dropRow w.key w.ver false

/-- One placed row whose bytes are gone: a dirty one is taken from its twin, a clean one of a BACK_TIER 0 table has no other source and
becomes poisoned, and any other is to be recovered from its backing. -/
def State.pinGone (s : State) (e : Extent) (r : Nat) : State :=
  if (s.extentOf e.tbl e.ver r).any fun x => x.dirty.contains r then s.count Ctr.recCopy
  else if ((s.table e.tbl).map (·.backTier)) == some 0 then s.poisonRow e.tbl e.ver r
  else s.onExtent e fun x => { x with placed := x.placed.filter (fun y => y != r), torn := r :: x.torn.filter fun y => y != r }

/-- Contents of a channel, or of some of its lines, are gone. -/
def State.rebuild (s : State) (ch : Nat) (hit : Nat → Nat → Bool) (spared : Bool) : State :=
  let ways := s.ch.ways.filter fun w => w.ch == ch && (s.headIn w hit || s.slotIn w hit)
  let s1 := State.forEach (State.wayGone · hit spared ·) ways s
  State.forEach (fun s e => State.forEach (fun s r => s.pinGone e r) (s.rowsOn e ch hit) s) s1.tb.extents s1

/-! ## Bank repair (R302, R314) -/

/-- Bank repair onto a spare bank of the tier: the flag says that there was one. `copied` is false where the bank is stuck, so that
the spare enters service empty. -/
def State.bankRepairOn (s : State) (lch p tier bank : Nat) (copied : Bool) : State × Bool :=
  let used := mgetD s.gs.bankUsed (tierKey p tier) 0
  if 2 ≤ used then (s, false)
  else
    let pb := 30 + used
    let b := tier * 30 + bank
    let s1 := s.onGs fun g =>
      { g with bankMap := mset g.bankMap (bankKey p tier bank) pb
               bankUsed := mset g.bankUsed (tierKey p tier) (used + 1)
               lostBanks := g.lostBanks.filter fun x => x != lch * 256 + b }
    let n := if copied then 3072 else 0
    let s2 := (if copied then s1.addLoad lch [(b, n), (240 + 2 * tier + used, n)] else s1).tell
      [.count Ctr.gsLinesRead n, .count Ctr.gsLinesWritten n, .count Ctr.bankRepairs 1, s1.gsEvent 0xB04 (some lch) p 1 tier pb 0]
    let s3 := if copied then s2 else s2.rebuild lch (s2.inBank b) true
    ((s3.auditSpare (bankKey p tier pb)).spareLow lch p 1 (s3.spareBanks p), true)

/-! ## Requests of a channel that is switched (R316) -/

/-- The place to which a switch moves a bank line of a channel: what serves the pocket of a folded channel, or, from a donor's pocket, the
unfolded channel's own (R317, R318); a REPLACE moves none. -/
def State.movedTo (s : State) (c : ChCopy) (ch bank line : Nat) : Nat × Nat × Nat :=
  let p := s.reqPocket bank line
  let to' := if c.op = 2 && ch == c.lch then some (s.pocketAt ch p.1)
    else if c.op = 3 then (s.heldPocket c.lch ch p.1).map fun i => (c.lch, i)
    else none
  match to' with
  | none => (ch, bank, line)
  | some q => (q.1, s.bankLine q.2 p.2)

/-- A held request issues to its new placement, its wait counted anew on the clock there. -/
def State.moveReq (s : State) (c : ChCopy) (r : Req) : Req :=
  let q := s.movedTo c r.ch r.bank r.line
  if q = (r.ch, r.bank, r.line) then r else { r with ch := q.1, bank := q.2.1, line := q.2.2, born := s.clockOf q.1 }

def State.moveWc (s : State) (c : ChCopy) (e : WcEntry) : WcEntry :=
  let q := s.movedTo c e.ch e.bank e.line
  if q = (e.ch, e.bank, e.line) then e else { e with ch := q.1, bank := q.2.1, line := q.2.2, born := s.clockOf q.1 }

/-- A bank line of a channel is one of the channel that an action switches. -/
def State.switches (s : State) (c : ChCopy) (ch bank line : Nat) : Bool := (s.copiedLine c ch bank line).isSome

/-- Step 2 of a switch: the requests in the banks' queues complete on the old placement, and every write-combining entry retires there. What
waits to enter a queue or the buffer is held (R316; log entry 46). -/
def State.hold (s : State) (c : ChCopy) : State :=
  let q := queueMark s.gs.queues []
  let es := s.gs.wc.filter fun e => s.switches c e.ch e.bank e.line
  let mine := fun (x : Req × Bool) => s.switches c x.1.ch x.1.bank x.1.line
  let ends := fun (x : Req × Bool) => mine x && (x.2 || es.any fun e => e.out && e.is x.1.ch x.1.bank x.1.line)
  let issued := (q.filter ends).map (·.1)
  let rmw := es.filter fun e => !e.out
  let held := (q.filter fun x => mine x && !(ends x)).length + (s.gs.wcWait.filter fun e => s.switches c e.ch e.bank e.line).length
  let writes := (issued.filter (·.write)).length
  let s1 := s.onGs fun g =>
    { g with queues := (q.filter fun x => !(ends x)).map (·.1), wc := g.wc.filter fun e => !(s.switches c e.ch e.bank e.line) }
  let s2 := State.forEach (fun s (r : Req) => s.addLoad r.ch [(r.bank, 1)]) issued s1
  let s3 := State.forEach (fun s (e : WcEntry) => (s.addLoad e.ch [(e.bank, 2)]).dualWrite e.ch e.bank e.line) rmw s2
  s3.tell [.count Ctr.wcRmw rmw.length, .count Ctr.gsLinesRead (issued.length - writes + rmw.length),
    .count Ctr.gsLinesWritten (writes + rmw.length), .count Ctr.heldReplayed held]

/-- Step 4 of a switch: what was held goes to the new placement in arrival order, partial writes into the buffer there. -/
def State.replay (s : State) (c : ChCopy) (waits : List WcEntry) : State :=
  let s1 := s.onGs fun g => { g with queues := g.queues.map (s.moveReq c), wcWait := g.wcWait.map (s.moveWc c) }
  State.forEach (fun s (e : WcEntry) => s.wcNext (s.movedTo c e.ch e.bank e.line).1) waits s1

/-- A command of CRH_GS_CMD runs for an action. -/
def State.gsRuns (s : State) (lch op : Nat) : Bool :=
  let v := s.cfg Reg.gsCmd
  bitb v 31 && bitf v 0 8 == lch && bitf v 8 4 == op

/-- GO reads 0 with a RESULT for the command whose action has ended. -/
def State.gsEnd (s : State) (lch op res : Nat) : State := if s.gsRuns lch op then s.finish .fn0 Reg.gsCmd res else s

/-- The action of a command has ended with DONE. -/
def State.gsDone (s : State) (lch op : Nat) : State := s.gsEnd lch op 0

def State.endCopy (s : State) (lch : Nat) : State :=
  s.onGs fun g =>
    { g with copies := g.copies.filter fun c => c.lch != lch
             lostBanks := g.lostBanks.filter fun b => b / 256 != lch }

/-- The lines of a channel's pocket from line i on, by bank. -/
def State.restOf (s : State) (pocket i : Nat) : List (Nat × Nat) := if i % 16 = 0 then [] else [((s.bankLine pocket 0).1, 16 - i % 16)]

/-- What the rest of a copy takes of the channels' lines: REPLACE reads f, FOLD reads f and writes its donors, and UNFOLD reads them (R281,
R315, R317, R318). -/
def State.copyLoad (s : State) (c : ChCopy) : State :=
  let n := s.copyLines c.op / 16
  let base := s.pinPockets + s.scratchPockets + (s.cachePockets - s.foldSets)
  let d := ceilDiv c.done 16
  let at' := s.donorPlace c.lch (c.done / 16)
  let own := s.restOf (c.done / 16) c.done ++ s.pocketLines d n
  if c.op = 1 then s.addLoad c.lch own
  else
    let donors := State.forEach (fun s i =>
      s.addLoad (donorCh c.lch i) (s.pocketLines (base + countMod 7 i 0 d) (base + countMod 7 i 0 n))) (List.range 7)
      (s.addLoad at'.1 (s.restOf at'.2 c.done))
    if c.op = 2 then donors.addLoad c.lch own else donors

/-- The lines of a copy that are not copied yet are copied; the answer is the copy as it ends. -/
def State.copyRest (s : State) (c : ChCopy) : State × ChCopy :=
  let n := s.copyLines c.op
  let d := { c with done := max c.done n }
  if !c.readable then (s, c)
  else
    (((s.copyLoad c).tell [.count Ctr.gsLinesRead (n - c.done), .count Ctr.gsLinesWritten (n - c.done)]).onGs fun g =>
      { g with copies := g.copies.map fun x => if x.lch == c.lch then d else x }, d)

/-- A channel takes the outcome of a test: a failed one is never put in service (R311, R315). -/
def Phys.tested (x : Phys) (r : TgRes) (ok : PhysState) : Phys :=
  let pass := r.errors == 0
  { x with tgErrors := stick r.errors 32, tgDone := true, tgPass := pass, tgTier := if pass then 0 else r.tier % 8
           tgBank := if pass then 0 else r.bank % 32, tgLine := if pass then 0 else r.line % 4096
           state := if pass then ok else .failed }

/-- The lines that a test over every line of a channel reads and writes: the write-and-check pattern (R311, R322). -/
def State.tellTested (s : State) : Option TgRes → State
  | some _ => s.tell [.count Ctr.gsLinesRead (16 * Member.pockets s.fuses.member), .count Ctr.gsLinesWritten (16 * Member.pockets s.fuses.member)]
  | none => s

/-- A channel that has been retrained and then tested (R311, R315); `none` says that the retraining failed. -/
def Phys.retrained (x : Phys) : Option TgRes → Phys
  | some r => { x.tested r .spare with fill := none }
  | none => { x with state := .failed, fill := none }

/-- A channel that leaves service, with the throttle of the group it served; it is retrained and tested where that has been done,
else OFFLINE. -/
def Phys.leaves (x : Phys) : Option (Option TgRes) → Phys
  | some r => ({ x with throttle := 0 } : Phys).retrained r
  | none => { x with throttle := 0, state := .offline }

/-! ## Reduced states (R420, Table 120) -/

/-- The block runs in a reduced state (R420). -/
def State.reduce (s : State) (kind lost : Nat) : State :=
  (s.onRl fun r => { r with reduced := true }).tell [mkEvent 0x1004 [(8, 4, kind), (12, 4, lost)]]

/-- Logical channels that no physical channel of their own serves any more. -/
def State.lostChs (s : State) : Nat := s.gs.folded.length + s.gs.lost.length

/-- A channel has been folded: with no spare channel left, the block runs in the reduced state that Table 120 names. -/
def State.foldReduces (s : State) : State := if s.spareChs.isEmpty then s.reduce 1 s.lostChs else s

/-- A channel has been unfolded: the block runs in no reduced state where no part is lost any more. -/
def State.unfoldRestores (s : State) : State :=
  if s.gs.folded.isEmpty && s.gs.lost.isEmpty && s.rl.lostPos.isEmpty && s.rl.standby && s.st.down.isEmpty then
    s.onRl fun r => { r with reduced := false }
  else s

/-! ## The switch (R315 to R318) -/

/-- The new channel enters service. -/
def State.enterService (s : State) (lch pch kind : Nat) (spare : Bool) : State :=
  let s1 := s.onPhys pch fun x => { x with state := .active, fill := none }
  let s2 := if spare then (s1.auditSpare pch).spareLow lch pch 2 s1.spareChs.length else s1
  s2.tell [s2.gsEvent 0xB04 (some lch) pch kind 0 0 0]

/-- A temperature band holds for the group whose channel a physical channel now serves. -/
def State.joinGroup (s : State) (pch old : Nat) : State :=
  let o := s.phys old
  s.onPhys pch fun x => { x with band := o.band, throttle := o.throttle, temp := o.temp }

/-- REPLACE has copied: the spare serves f. The old channel enters OFFLINE, and is retrained and tested, now or by the next CHANNEL_SWITCH of
f (R315; log entry 46). -/
def State.switchReplace (s : State) (c : ChCopy) (old : Nat) (pass : Option (Option TgRes)) : State :=
  let f := c.lch
  let s1 := (s.joinGroup c.pch old).onGs fun g =>
    { g with lmap := mset g.lmap f c.pch, retests := if pass.isNone then mset g.retests f old else g.retests }
  let s2 := (s1.enterService f c.pch 2 true).onPhys old fun x => x.leaves pass
  ((s2.tellTested (pass.getD none)).count Ctr.chReplaced).gsDone f 1

/-- FOLD has copied: f's placements are served on f XOR 1 and its donors, and its channel is OFFLINE. -/
def State.switchFold (s : State) (c : ChCopy) (old : Nat) (waits : List WcEntry) : State :=
  let f := c.lch
  let s1 := (s.onGs fun g => { g with folded := insSorted (fun a b => decide (a ≤ b)) f g.folded }).onPhys old fun x =>
    { x.leaves none with tgDone := false, tgPass := false }
  let s2 := s1.replay c waits
  (((s2.rehouseAll false).tell
    [.count Ctr.chFolded 1, s2.gsEvent 0xB06 (some f) old 0 0 0 0, s2.gsEvent 0xB04 (some f) old 3 0 0 0]).foldReduces).gsDone f 2

/-- UNFOLD has copied: f is served by its new channel. -/
def State.switchUnfold (s : State) (c : ChCopy) (old : Nat) (waits : List WcEntry) : State :=
  let f := c.lch
  let near := mgetD s.gs.lmap (f ^^^ 1) (f ^^^ 1)
  let s1 := ((s.joinGroup c.pch near).replay c waits).onGs fun g =>
    { g with folded := g.folded.filter (fun x => x != f), lmap := mset g.lmap f c.pch }
  (((s1.enterService f c.pch 4 (c.pch != old)).rehouseAll true).unfoldRestores).gsDone f 3

/-- The switch of an action (R316): the last line is copied, the hold runs with a refresh burst that falls due, the map changes, and what
was held is replayed. -/
def State.switchCh (s : State) (c0 : ChCopy) (pass : Option (Option TgRes)) : State :=
  let f := c0.lch
  let old := mgetD s.gs.lmap f f
  let r := s.copyRest c0
  let c := r.2
  let s0 := r.1.hold c
  let waits := s0.gs.wcWait.filter fun e => s0.switches c e.ch e.bank e.line
  let s1 := (if c.op = 3 then s0 else s0.refreshDue old).endCopy f
  let s2 := if c.readable then s1 else s1.rebuild f (fun _ _ => true) true
  if c.op = 1 then (s2.switchReplace c old pass).replay c waits
  else if c.op = 2 then s2.switchFold c old waits
  else s2.switchUnfold c old waits

/-- The channel that a REPLACE with no copy left OFFLINE is retrained and tested (R315). -/
def State.retestOld (s : State) (f : Nat) (res : Option TgRes) : State :=
  match mget s.gs.retests f with
  | none => s
  | some p =>
    let s1 := s.onGs fun g => { g with retests := mdel g.retests f }
    if (s.phys p).state = .offline then (s1.onPhys p fun x => x.leaves (some res)).tellTested res else s1

/-- CHANNEL_SWITCH: while the store core does not run, the copy pauses (R320). With no copy, the outcome is that of the channel which the
last REPLACE left. -/
def execChannelSwitch (lch : Nat) (res : Option TgRes) (s : State) : Host.Outcome State Fault Refusal :=
  .next (if !(s.roleUp 3) then s
    else match s.gs.copies.find? fun c => c.lch == lch with
    | some c => s.switchCh c (some res)
    | none => s.retestOld lch res)

/-! ## Starting an action -/

/-- An action already runs on the channel. -/
def State.acting (s : State) (lch : Nat) : Bool := s.gs.copies.any fun c => c.lch == lch

/-- Start a copy onto a physical channel. -/
def State.startCopy (s : State) (c : ChCopy) (old : Option Nat) : State :=
  let s1 := s.onGs fun g => { g with copies := g.copies ++ [c] }
  let s2 := if c.op = 2 then s1 else s1.onPhys c.pch fun x => { x with state := .copyIn }
  match old with
  | some p => s2.onPhys p fun x => { x with state := .copyOut }
  | none => s2

/-- REPLACE (R315): the answer is the result that ends it at once, if one does. A channel that cannot be read is switched now. -/
def State.replaceCh (s : State) (f : Nat) (readable : Bool) : State × Option Nat :=
  if s.chans ≤ f then (s, some GsRes.badChannel)
  else match s.pchOf f with
    | none => (s, some GsRes.wrongState)
    | some p =>
      if s.acting f then (s, some GsRes.wrongState)
      else match s.spareChs with
        | [] => (s, some GsRes.noSpare)
        | q :: _ =>
          let c : ChCopy := { lch := f, op := 1, pch := q, readable := readable }
          let s1 := s.startCopy c (some p)
          if readable then (s1, none) else (s1.switchCh c none, none)

/-- FOLD (R317): the donors drop what their last k sets and areas hold, and the copy starts. -/
def State.foldCh (s : State) (f : Nat) (readable : Bool) (fails : WbFails) : State × Option Nat :=
  if s.chans ≤ f then (s, some GsRes.badChannel)
  else match s.pchOf f with
    | none => (s, some GsRes.wrongState)
    | some p =>
      if s.acting f || s.donor f then (s, some GsRes.wrongState)
      else if s.cachePockets < 2 * s.foldSets then (s, some GsRes.noRoom)
      else
        let s1 := s.startCopy { lch := f, op := 2, pch := p, readable := readable } (some p)
        let r := s1.dropEach fails (s1.ch.ways.filter fun w => w.ch / 8 == f / 8 && w.ch != f && s1.misplaced w)
        if r.2 then (r.1, none) else (s, some GsRes.noRoom)

/-- The channel that UNFOLD takes: the lowest SPARE, else f's own OFFLINE channel once it has passed its test. -/
def State.unfoldOnto (s : State) (f : Nat) : Option Nat :=
  match s.spareChs with
  | q :: _ => some q
  | [] =>
    let p := mgetD s.gs.lmap f f
    if (s.phys p).state = .offline && (s.phys p).tgPass then some p else none

/-- UNFOLD (R318). -/
def State.unfoldCh (s : State) (f : Nat) : State × Option Nat :=
  if s.chans ≤ f then (s, some GsRes.badChannel)
  else if !(s.foldedCh f) || s.acting f then (s, some GsRes.wrongState)
  else match s.unfoldOnto f with
    | none => (s, some GsRes.noSpare)
    | some q => (s.startCopy { lch := f, op := 3, pch := q } none, none)

/-! ## FOLD refused (R319, Table 120) -/

/-- Descriptors whose lists, spool or landing blocks lay on a lost channel complete with DATA_ERROR. -/
def State.areaUsers (s : State) : List Nat :=
  let wins := s.sp.pwins.filter fun w => (w.granted && w.fetching && w.spool != 0) || s.fl.landed.any fun e => e.wid == w.wid
  dedup ((s.sp.resvd.map (·.1)) ++ (wins.flatMap fun w => w.members.map fun p => p.mem.id))

/-- The rows of an extent that lay on a lost channel are read from backing, or are poisoned under BACK_TIER 0. -/
def State.losePinned (s : State) (f : Nat) (e : Extent) : State :=
  match s.table e.tbl with
  | none => s
  | some t =>
    let rows := s.rowsOn e f fun _ _ => true
    if t.backTier = 0 then State.forEach (fun s r => s.poisonRow e.tbl e.ver r) rows s
    else
      let one := fun (s : State) (r : Nat) =>
        let k := keyOf e.tbl r
        let q := match t.ver? e.ver with
          | some v => s.writeBackRow t v k {}
          | none => (s, true)
        let s1 := if q.2 then q.1 else q.1.loseMaster k e.ver
        (s1.clean k e.ver).onExtent e fun x => { x with placed := x.placed.filter fun y => y != r }
      State.forEach one rows s

/-- Entries of rows homed on a lost channel lose their sums (R261). -/
def State.loseEntries (s : State) (f : Nat) : State :=
  let on := fun (e : Entry) => s.rowCh (keyOf e.tbl e.row) e.ver == f
  let gone := s.up.pillow.filter on
  let s1 := s.onUp fun u =>
    { u with pillow := u.pillow.map fun e => if on e then { e with n := 0, lostN := e.lostN + e.n } else e }
  State.forEach (fun s e => s.tellLost e.tbl e.ver e.row e.n) gone s1

/-- A logical channel enters FAILED and holds no pockets. -/
def State.loseChannel (s : State) (f : Nat) : State :=
  match s.pchOf f with
  | none => s
  | some p =>
    let s1 := s.loseEntries f
    let s2 := State.forEach State.dropOrLose (s1.ch.ways.filter fun w => w.ch == f) s1
    let s3 := State.forEach (fun s e => s.losePinned f e) s2.tb.extents s2
    let s4 := (s3.endCopy f).onGs fun g =>
      { g with lost := insSorted (fun a b => decide (a ≤ b)) f g.lost
               queues := g.queues.filter (fun r => r.ch != f), wc := g.wc.filter (fun e => e.ch != f)
               wcWait := g.wcWait.filter fun e => e.ch != f }
    let s5 := (s4.onPhys p fun x => { x with state := .failed, throttle := 0 }).settleTwins
    let s6 := State.forEach (fun s id => (s.abandon id).endDesc id St.dataError 0 0 0) s5.areaUsers s5
    (s6.dropKept fun k => k.bytes != 0 && k.claimed.isNone).reduce 1 s6.lostChs

/-! ## Automatic actions (Table 83) -/

/-- AUTO_REPAIR (R319). -/
def State.autoRepair (s : State) : Bool := bitb s.st.policy 0

/-- The channel action that a trigger calls for: REPLACE, or FOLD when no spare is left; FOLD refused loses the channel. -/
def State.autoAction (s : State) (f : Nat) (readable : Bool) : State :=
  let r := s.replaceCh f readable
  match r.2 with
  | none => r.1
  | some _ =>
    let q := s.foldCh f readable []
    match q.2 with
    | none => q.1
    | some _ => s.loseChannel f

/-- A trigger of a channel action. The store core acts on it when it runs (R302); with AUTO_REPAIR off it writes an event and waits for
CRH_GS_CMD (R319; log entry 45). -/
def State.channelAction (s : State) (f : Nat) (readable : Bool) : State :=
  match s.pchOf f with
  | none => s
  | some p =>
    if s.acting f then s
    else if !(s.roleUp 3) then s.onGs fun g => { g with due := g.due.filter (fun e => e.1 != f) ++ [(f, readable)] }
    else if !(s.autoRepair) then s.tell [s.gsEvent Sys2Proof.Config.repairEvent (some f) p 0 0 0 0]
    else s.autoAction f readable

/-- The store core runs again: it starts the actions that were triggered meanwhile (R302), and switches the channels that could not be read
while a REPLACE of them ran (R320). -/
def State.runDue (s : State) : State :=
  let s1 := State.forEach (fun s (c : ChCopy) => if c.op = 1 && !c.readable then s.switchCh c none else s) s.gs.copies s
  State.forEach (fun s (e : Nat × Bool) => s.channelAction e.1 e.2) s1.gs.due (s1.onGs fun g => { g with due := [] })

/-! ## A channel that fails while an action runs (Table 84) -/

/-- A channel cannot be read (Table 83). A copy of it that runs is abandoned: the spare of a REPLACE is switched in empty, once the store
core runs, and a FOLD rebuilds what it would have copied. -/
def State.channelFails (s : State) (f : Nat) : State :=
  match s.gs.copies.find? fun c => c.lch == f with
  | none => s.channelAction f false
  | some c =>
    let d := { c with readable := false }
    let s1 := s.onGs fun g => { g with copies := g.copies.map fun x => if x.lch == f then d else x }
    if c.op = 1 && s.roleUp 3 then s1.switchCh d none else s1

/-- The channel that receives a copy fails. It enters FAILED, and the copy starts again on the next one; where there is none, the action
ends with NO_SPARE, and one that no command asked for goes on as Table 83 has it. -/
def State.spareFails (s : State) (f : Nat) : State :=
  match s.gs.copies.find? fun c => c.lch == f && c.op != 2 with
  | none => s
  | some c =>
    let s1 := s.onPhys c.pch fun x => { x with state := .failed }
    let old := mgetD s.gs.lmap f f
    match (if c.op = 1 then s1.spareChs.head? else s1.unfoldOnto f) with
    | some q => (s1.onGs fun g =>
        { g with copies := g.copies.map fun x => if x.lch == f then { x with pch := q, done := 0 } else x }).onPhys q fun x =>
        { x with state := .copyIn }
    | none =>
      let s2 := s1.endCopy f
      let s3 := if c.op = 1 then s2.onPhys old fun x => { x with state := .active } else s2
      if s.gsRuns f c.op then s3.gsEnd f c.op GsRes.noSpare
      else if c.op = 1 then s3.channelAction f c.readable
      else s3

/-! ## Repair triggers -/

/-- Bank repair, with a copy where the bank can be read; a tier whose spare banks are spent calls for a channel action. -/
def State.bankRepair (s : State) (lch p tier bank : Nat) (copied : Bool) : State :=
  let r := s.bankRepairOn lch p tier bank copied
  if r.2 then r.1 else s.channelAction lch true

/-- The numbers name a bank of a logical channel in service. -/
def State.bankThere (s : State) (ch tier bank : Nat) : Option Nat := if tier < s.tiers && bank < 30 then s.pchOf ch else none

/-- BANK_REPAIR. -/
def execBankRepair (ch tier : Nat) (bank : BankAim) (s : State) : Host.Outcome State Fault Refusal :=
  .next (match s.bankThere ch tier bank.bank with
    | some p => s.bankRepair ch p tier bank.bank (!bank.unreadable)
    | none => s)

/-- Row repair onto the bank's next spare row; when the bank's row repairs reach 16, the bank is repaired (R313, R319). -/
def State.rowRepair (s : State) (lch p tier bank row : Nat) : State :=
  let pb := s.physBank p tier bank
  let key := bankKey p tier pb
  let used := mgetD s.gs.rowUsed key 0
  if 16 ≤ used then s.bankRepair lch p tier bank true
  else
    let s1 := s.onGs fun g => { g with rowMap := mset g.rowMap (key * 512 + row) used, rowUsed := mset g.rowUsed key (used + 1) }
    let s2 := (s1.addLoad lch [(tier * 30 + bank, 16)]).tell [.count Ctr.gsLinesRead 8, .count Ctr.gsLinesWritten 8, .count Ctr.rowRepairs 1,
      s1.gsEvent 0xB04 (some lch) p 0 tier pb row]
    let s3 := (s2.auditSpare (key * 512 + row)).spareLow lch p 0 (s2.spareRows p)
    if used + 1 = 16 then s3.bankRepair lch p tier bank true else s3

/-- ROW_REPAIR. -/
def execRowRepair (ch tier bank row : Nat) (s : State) : Host.Outcome State Fault Refusal :=
  .next (match s.bankThere ch tier bank with
    | some p => if row < 384 then s.rowRepair ch p tier bank row else s
    | none => s)

/-- A bank is marked lost: the reads that it held are answered as detected errors, its writes are discarded, and the entries whose
read-merge-write they were are free (R302). -/
def State.markLost (s : State) (ch b : Nat) : State :=
  let mine := fun (r : Req) => r.ch == ch && r.bank == b
  let reads := (s.gs.queues.filter fun r => mine r && !r.write).length
  let waits := s.gs.wcWait.filter fun e => e.ch == ch
  let s1 := (s.countN Ctr.parGs reads).onGs fun g =>
    { g with lostBanks := (ch * 256 + b) :: g.lostBanks, queues := g.queues.filter (fun r => !(mine r)),
             wc := g.wc.filter fun e => !(e.ch == ch && e.bank == b && e.out) }
  State.forEach (fun s (_ : WcEntry) => s.wcNext ch) waits s1

/-- BANK_STUCK (R302): a bank with requests queued is declared stuck; it is mapped onto a spare, or marked lost. -/
def State.bankStuck (s : State) (ch p tier bank : Nat) : State :=
  let b := tier * 30 + bank
  if !(s.gs.queues.any fun r => r.ch == ch && r.bank == b) then s
  else
    let s1 := s.tell [.count Ctr.bankStuck 1, s.gsEvent 0xB03 (some ch) p 0 tier (s.physBank p tier bank) 0]
    let r := s1.bankRepairOn ch p tier bank false
    if r.2 then r.1
    else ((s1.rebuild ch (s1.inBank b) false).markLost ch b).channelAction ch true

/-- BANK_STUCK. -/
def execBankStuck (ch tier bank : Nat) (s : State) : Host.Outcome State Fault Refusal :=
  .next (match s.bankThere ch tier bank with
    | some p => s.bankStuck ch p tier bank
    | none => s)

/-- What the once-a-minute check finds of a logical channel's interface, or of the spare that it is copied onto: a margin below its limit
and a channel that cannot be read call for a channel action (Tables 83 and 84). -/
def State.marginFound (s : State) (lch : Nat) : ChanFinding → State
  | .good => s
  | .low => s.channelAction lch true
  | .unreadable => s.channelFails lch
  | .spareFailed => s.spareFails lch

/-- MARGIN_CHECK. -/
def execMarginCheck (lch : Nat) (found : ChanFinding) (s : State) : Host.Outcome State Fault Refusal := .next (s.marginFound lch found)

/-! ## Scrub (R319, Table 118) -/

/-- A line fails its check. An error that a second read clears is counted; one that persists has its array row repaired, and what lay in
the line is taken from its next source. -/
def State.scrubLine (s : State) (ch p tier bank line : Nat) (persists : Bool) : State :=
  let s1 := s.count Ctr.parGs
  if !persists then s1.count Ctr.recReread
  else
    let b := tier * 30 + bank
    ((s1.count Ctr.parGs).rowRepair ch p tier bank (line / 8)).rebuild ch (fun q i => s.bankLine q i == (b, line)) true

/-- A twin fails its check twice: it is written again from the master record. -/
def State.scrubTwin (s : State) (ch : Nat) (k : Key) (ver : Nat) : State :=
  match s.table (keyTbl k), s.twinOf k ver with
  | some t, some x =>
    if x.ch != ch then s
    else
      let s1 := s.countN Ctr.parGs 2
      let s2 := match s1.placed (keyTbl k) ver (keyRow k), s1.masterWay k ver with
        | some e, _ => s1.notePinned (e.rowOff t (keyRow k)) t.srcBytes false
        | none, some w => s1.readCopy w t.srcBytes false
        | none, none => s1
      (s2.noteTwin k ch (slotOf x.data.length) true).count Ctr.recCopy
  | _, _ => s

/-- A table directory entry fails its check twice: its second copy is used, and where that fails too, descriptors that name the table
complete with DATA_ERROR. -/
def State.scrubDir (s : State) (h : Nat) (second : Bool) : State :=
  match s.table h with
  | none => s
  | some t =>
    if second then (s.countN Ctr.parGs 4).setTable h { t with dirBad := true } else (s.countN Ctr.parGs 2).count Ctr.recCopy

/-- One finding of a scrub pass. -/
def State.scrubFound (s : State) (ch p : Nat) : ScrubFind → State
  | .line tier bank line persists =>
    if s.bankThere ch tier bank = some p && line < 3072 then s.scrubLine ch p tier bank line persists else s
  | .twin tbl ver row => s.scrubTwin ch (keyOf tbl row) ver
  | .directory tbl second => s.scrubDir tbl second

/-- SCRUB: a pass over a channel reads every line (R319). -/
def State.scrub (s : State) (ch p : Nat) (found : List ScrubFind) : State :=
  let s1 := (s.addLoad ch (s.pocketLines 0 (Member.pockets s.fuses.member))).tell
    [.count Ctr.gsLinesRead (16 * Member.pockets s.fuses.member), .count Ctr.scrubPasses 1]
  State.forEach (fun s f => s.scrubFound ch p f) found s1

/-- SCRUB, while SCRUB_H enables it and the store core runs. -/
def execScrub (ch : Nat) (found : List ScrubFind) (s : State) : Host.Outcome State Fault Refusal :=
  .next (match s.pchOf ch with
    | some p => if bitf (s.cfg Reg.gsCtl) 40 8 = 0 || !(s.roleUp 3) then s else s.scrub ch p found
    | none => s)

/-! ## Retention steps (R305) -/

/-- The group of logical channels that a physical channel serves in, and its temperature in an event. -/
def State.raiseStep (s : State) (p : Nat) : State :=
  if (s.phys p).eff = 4 then
    match s.lchOf p with
    | some l => s.channelAction l true
    | none => s
  else
    let s1 := s.onPhys p fun x => { x with step := true }
    s1.tell [.count Ctr.retentionSteps 1, .count Ctr.bandRaises (b2n ((s1.phys p).eff != (s.phys p).eff)),
      s1.gsEvent 0xB02 (s.lchOf p) p (s1.phys p).eff 0 0 0]

/-- RETENTION_STEP: a canary read of a channel failed, which the health core logs (R381); in band 4 that is a trigger for channel repair. -/
def execRetentionStep (pch : Nat) (s : State) : Host.Outcome State Fault Refusal :=
  .next (if (s.phys pch).state = .absent then s else (s.logSensor 11 pch 1).raiseStep pch)

/-- RETENTION_STEP_END: the step has lasted its 1 s. -/
def execRetentionStepEnd (pch : Nat) (s : State) : Host.Outcome State Fault Refusal :=
  .next (if (s.phys pch).step then s.onPhys pch fun x => { x with step := false } else s)

/-! ## CRH_GS_CMD (R321) -/

/-- A command of CRH_GS_CMD. OP 1 to 4 and 6 need installer rights, judged on the write that sets GO; without them GO reads 0 and
RESULT reads DENIED. `run` answers the result that ends the command at once, if one does. -/
def State.gsCommand (s : State) (p : Path) (op ch : Nat) (run : State → State × Option Nat) : State :=
  let val := BitVec.ofNat 64 (ch % 256 + op * 256 + 2 ^ 31)
  let inst := op != 5
  let go := fun (s : State) => s.command p Reg.gsCmd 31 1 inst (some 3) val fun s1 =>
    let r := run s1
    match r.2 with
    | some x => r.1.finish p Reg.gsCmd x
    | none => r.1
  match s.gate p Reg.gsCmd 1 with
  | .open' =>
    if inst && p != .dbg && decide (s.rights p < 2) && !(bitb (s.cfg Reg.gsCmd) 31) then
      let s1 := regPut s p Reg.gsCmd (BitVec.ofNat 64 (ch % 256 + op * 256))
      (s1.finish p Reg.gsCmd GsRes.denied).denyWrite p Reg.gsCmd val
    else go s
  | _ => go s

/-- REPLACE. -/
def execReplace (p : Path) (lch : Nat) (readable : Bool) (s : State) : Host.Outcome State Fault Refusal :=
  .next (s.gsCommand p 1 lch fun s => s.replaceCh (lch % 256) readable)

/-- FOLD. -/
def execFold (p : Path) (lch : Nat) (readable : Bool) (fails : WbFails) (s : State) : Host.Outcome State Fault Refusal :=
  .next (s.gsCommand p 2 lch fun s => s.foldCh (lch % 256) readable fails)

/-- UNFOLD. -/
def execUnfold (p : Path) (lch : Nat) (s : State) : Host.Outcome State Fault Refusal :=
  .next (s.gsCommand p 3 lch fun s => s.unfoldCh (lch % 256))

/-- A physical channel that OP 4 to 6 may act on: in SPARE or OFFLINE. -/
def State.idlePhys (s : State) (pch : Nat) (act : State × Option Nat) : State × Option Nat :=
  if Member.phys s.fuses.member ≤ pch then (s, some GsRes.badChannel)
  else if (s.phys pch).state = .spare || (s.phys pch).state = .offline then act
  else (s, some GsRes.wrongState)

/-- RETRAIN: the channel is retrained, and tested with the write-and-check pattern over every line (R311, R315). -/
def execRetrain (p : Path) (pch : Nat) (res : Option TgRes) (s : State) : Host.Outcome State Fault Refusal :=
  .next (s.gsCommand p 4 pch fun s =>
    s.idlePhys (pch % 256) ((s.onPhys (pch % 256) (Phys.retrained · res)).tellTested res,
      some (if (s.phys (pch % 256) |>.retrained res).state = .failed then GsRes.testFail else 0)))

/-- Lines that a test covers: 2^LOG2_LINES for 10 to 20, else every line of the channel, its spare banks and rows not among them (R321;
log entry 115). -/
def State.testLines (s : State) (cfg : Word64) : Nat :=
  let n := bitf cfg 8 5
  if 10 ≤ n ∧ n ≤ 20 then 2 ^ n else 16 * Member.pockets s.fuses.member

/-- Lines that a test reads and writes, as DIR has it: all of them read, or written, half and half, or written and then read. -/
def State.testRun (s : State) (cfg : Word64) : Nat × Nat :=
  let n := s.testLines cfg
  match bitf cfg 2 2 with
  | 0 => (n, 0) | 1 => (0, n) | 2 => (n / 2, n - n / 2) | _ => (n, n)

/-- A test's configuration, its direction apart: the addresses, the data and the seed. -/
def testFill (cfg : Word64) : Word64 := cfg &&& ~~~0xC#64

/-- What a test finds: one that only writes checks nothing. Lines that were not written under its configuration hold other words than it
expects, how many of them the spec does not say; WRITE_CHECK reads what it has written (R311; log entry 115). -/
def State.testFinds (s : State) (cfg : Word64) (pch : Nat) (r : TgRes) : TgRes :=
  let was := (s.phys pch).fill
  if (s.testRun cfg).1 = 0 then {}
  else if bitf cfg 2 2 = 3 || was == some (testFill cfg) then r
  else { r with errors := r.errors + Sys2Proof.Config.wrongWords (testFill cfg) was }

/-- TEST: the channel runs the traffic that the path's CRH_GS_TG_CFG sets, and CRH_GS_TG_STAT takes the outcome. -/
def State.testCh (s : State) (cfg : Word64) (pch : Nat) (r : TgRes) : State :=
  (s.onPhys pch fun x =>
    { x.tested (s.testFinds cfg pch r) x.state with fill := if (s.testRun cfg).2 = 0 then x.fill else some (testFill cfg) }).tell
    [.count Ctr.gsLinesRead (s.testRun cfg).1, .count Ctr.gsLinesWritten (s.testRun cfg).2]

/-- TEST. -/
def execTest (p : Path) (pch errors tier bank line : Nat) (s : State) : Host.Outcome State Fault Refusal :=
  .next (s.gsCommand p 5 pch fun s =>
    let r : TgRes := { errors := errors, tier := tier, bank := bank, line := line }
    let cfg := s.own p Reg.gsTgCfg
    s.idlePhys (pch % 256) (s.testCh cfg (pch % 256) r, some (if (s.testFinds cfg (pch % 256) r).errors = 0 then 0 else GsRes.testFail)))

/-- RETIRE. -/
def execRetire (p : Path) (pch : Nat) (s : State) : Host.Outcome State Fault Refusal :=
  .next (s.gsCommand p 6 pch fun s =>
    s.idlePhys (pch % 256) (s.onPhys (pch % 256) fun x => { x with state := .failed }, some 0))

end Sys2Proof.Machine
end

