-- ==== Sys2Proof/Machine/Ports.lean ====
section
/-!
DEFINITION. Host and fabric ports: loss of a host port (R85, R86, R374), training (R29, R41, R436), orderly shutdown (R24).
-/

namespace Sys2Proof.Machine

/-! ## Loss of a host port (R85) -/

/-- A ring that enters PAUSED_HOST at the loss of port p: a host ring homed there, or a ring whose completion ring is one. -/
def State.losesRing (s : State) (p k : Nat) : Bool :=
  let r := s.ring k
  let c := s.ring r.cplRing
  (r.state == .active || r.state == .paused || r.state == .error || r.state == .draining) &&
    ((Ring.isHost r && r.home == p) || (!(Ring.isCpl r) && c.typ == .hostCpl && c.state != .disabled && c.home == p))

/-- A ring enters PAUSED_HOST, and the state it left is kept in HOST_FROM. -/
def Ring.pauseHost (r : Ring) : Ring := { Ring.noTurn r with state := .pausedHost, hostFrom := r.state }

/-- A range of a descriptor has pages in host memory that go over port p. -/
def State.rangeOn (s : State) (p : Nat) (d : Desc) (r : Range) : Bool :=
  !r.fabric && (r.pages (s.portFor d r)).any fun g => g.port == p

/-- A descriptor has a host DMA in flight on port p: the bulk mover moves it over that port, or a transfer of it over that port has begun and
is not at its end. What only waits, or computes, has none (R85). A descriptor that has a tier-1 row fetch on the port as well is replayed,
and does not complete with TIER_UNREACHABLE: R85 asks for both, and one outcome excludes the other (DESIGN CHOICE). -/
def State.losesDesc (s : State) (p : Nat) (d : Desc) : Bool :=
  let begun := fun (r : Range) => decide (0 < r.sent ∧ r.sent < Range.stopOff r)
  d.resv != 0 && (match d.stage with
    | .bulk => d.ranges.any fun r => s.rangeOn p d r
    | .headWait => d.ranges.any fun r => s.rangeOn p d r && begun r
    | .parked => d.ranges.any fun r => s.rangeOn p d r && begun r
    | .ready => d.ranges.any fun r => s.rangeOn p d r && begun r
    | .window => d.ranges.any fun r => s.rangeOn p d r && begun r
    | .pooling => d.ranges.any fun r => s.rangeOn p d r && begun r
    | .reserve => d.ranges.any fun r => s.rangeOn p d r && begun r
    | .scatter => d.ranges.any fun r => s.rangeOn p d r && begun r
    | _ => false)

/-- What a descriptor has asked of a lost port is gone with it, and what it had translated through it: the pages still to come are pricked
again once the port is up. -/
def State.forgets (s : State) (p : Nat) (d : Desc) : Desc :=
  let home := (s.ring d.ring).home
  let asked := d.ats && ((d.ranges[d.askR]?.map fun r => s.rangeOn p d r).getD false)
  let lost := fun (r : Range) =>
    if !(s.rangeOn p d r) then r
    else if home = p then { r with known := r.known && !r.opens, lack := [], pri := r.pri.filter fun o => !(r.lack.contains o) }
    else { r with known := r.known && !r.opens }
  { d with ranges := d.ranges.map lost, ats := d.ats && !asked, askP := if asked then [] else d.askP
           mirror := d.mirror && !(s.xl.mirror.any fun m => m.1 == d.ctx && m.2 == p) }

/-- A descriptor on which the loss of port p has an effect, though it has no DMA in flight there. -/
def State.misses (s : State) (p : Nat) (d : Desc) : Bool :=
  d.stage != .finished && d.stage != .heldRec && d.stage != .replay &&
    ((s.ring d.ring).home == p || d.mirror || d.ranges.any fun r => s.rangeOn p d r)

/-- The descriptors that lose no DMA lose what they have asked of the port. -/
def State.forgetAsks (s : State) (p : Nat) : State :=
  let ds := s.fe.descs.filter fun d => s.misses p d
  let homes := (ds.filter fun d => (s.ring d.ring).home == p).map (·.id)
  (State.forEach (fun s d => s.setDesc (s.forgets p d)) ds s).onXl fun x => { x with pri := x.pri.filter fun e => !(homes.contains e.1) }

/-- Mark a descriptor for replay: what it has begun is dropped, the positions of a tile that its chain does not hold yet among it
(R86, R199), and the lists that it has kept, unless a scatter uses them (R164). -/
def State.markReplay (s : State) (d : Desc) : State :=
  let s1 := (s.abandon d.id).onXl fun x =>
    { x.unpin d.id with
      pri := x.pri.filter fun e => e.1 != d.id
      invals := x.invals.map fun i => { i with waits := i.waits.erase d.id } }
  let free := fun (t : NamedTile) => if t.owner = d.ring && !t.held then { t with pos := none } else t
  let mine := fun (k : Kept) => k.ring == d.ring && k.seq == d.seq
  let given := s1.sp.kept.any fun k => mine k && k.claimed.isSome
  let s2 := (s1.onUp fun x => { x with resv := mdel x.resv d.id }).onSp fun x =>
    { x with resvd := mdel x.resvd d.id
             kept := x.kept.filter fun k => !(mine k && k.claimed.isNone)
             tiles := if d.opc = 1 && d.tile ≠ 0 then mmod x.tiles d.tile free else x.tiles }
  (s2.onDesc d.id fun x =>
    { x with stage := .replay, mirror := false, seen := false, ats := false, listed := x.listed || given }).onFe fun f =>
    { f with park := f.park.erase d.id }

/-- A DISABLE that waits for a ring that has left DRAINING for PAUSED_HOST is done (log entry 22). -/
def State.freeRingCmd (s : State) (p : Nat) : State :=
  let v := s.cfg Reg.ringCmd
  if bitb v 31 && bitf v 20 4 == 2 && s.losesRing p (bitf v 0 17) then s.finish .fn0 Reg.ringCmd 0 else s

/-- A tier-1 read outstanding on a lost port: the row fails, unless Ground store holds it by now (R85). -/
def State.loseFetch (s : State) (wid : Nat) (a : Ask) : State :=
  let s1 := s.onPwin wid fun w => { w with asked := w.asked.erase a }
  if s.inStore a.key a.ver then s1.askRow wid { key := a.key, ver := a.ver, poss := [a.pos], size := 0 } 0
  else s1.rowFails wid a.key a.ver St.tierUnreachable

/-- The tier-1 reads outstanding on a lost port end. -/
def State.loseRows (s : State) (p : Nat) : State :=
  State.forEach (fun s (w : PWin) =>
    (State.forEach (fun s a => s.loseFetch w.wid a) (w.asked.filter fun a => a.on == .port p && a.got.isNone) s).settleWin w.wid)
    (s.sp.pwins.filter fun w => w.asked.any fun a => a.on == .port p && a.got.isNone) s

/-- A host port carries a descriptor's transfers: its home port, or for a bulk descriptor that may stripe the other one (R327). -/
def State.hostPath (s : State) (d : Desc) : Bool :=
  let r := s.ring d.ring
  s.cxlUp r.home || (d.isBulk && d.stripe && r.stripeOk && s.cxlUp (1 - r.home))

/-- Descriptors that are marked for replay and whose ring has not paused run again as soon as a port carries them: those of near rings,
and striped ones that lost the other port (R86; log entry 22). -/
def State.replayFree (s : State) : State :=
  (State.forEach (fun s d => (s.setDesc (d.again s)).letIn d.id)
    (s.fe.descs.filter fun d => d.stage == .replay && (s.ring d.ring).state != .pausedHost && s.hostPath d) s).endLoad

/-- Loss of host port p (R85). -/
def State.losePort (s : State) (p : Nat) : State :=
  let s0 := s.freeRingCmd p
  let ds := s0.fe.descs.filter fun d => s0.losesDesc p d
  let ks := (s0.fe.rings.map (·.1)).filter fun k => s0.losesRing p k
  let s1 := State.forgetAsks (p := p) (State.forEach State.markReplay ds s0)
  let s2 := State.forEach (fun s k => s.onRing k Ring.pauseHost) ks s1
  let s3 := s2.onFe fun f =>
    { f with announced := f.announced.filter fun k => !(ks.contains k)
             lines := f.lines.filter fun l => l.2.port != p }
  State.loseRows (p := p) (s3.onXl fun x =>
    { x with xc := x.xc.filter fun e => e.port != p
             invals := x.invals.filter fun i => i.port != p
             ahead := x.ahead.filter fun a => a.port != p
             priStop := x.priStop.filter fun q => q != p
             mirror := x.mirror.filter fun m => m.2 != p
             mirrorOld := x.mirrorOld.filter fun m => m.2 != p })

/-- HOST_LINK_DOWN (R85, R436): CACHE alone stays, which changes only at a training (R27, Table 129); the function is cleared (Table 102). -/
def State.linkDown (s : State) (p : Nat) : State :=
  if s.cxlUp p then
    ((((s.losePort p).onPw fun w => { w with cxl := mset w.cxl p { cache := (s.cxlPort p).cache }, fns := mdel w.fns p }).replayFree).retryParked)
  else s

/-- A function as the host has set it up. -/
def fnMade (f : FnSetup) : HostFn :=
  { config := f.config.foldl (fun m e => mset m e.1 e.2) [], msix := f.msix.foldl (fun m e => mset m e.1 e.2) [] }

/-- The function of a host port as a training leaves it (R26, Table 102). -/
def fnOf (res : LinkRes) : HostFn := fnMade res.fn

/-- FUNCTION_LEVEL_RESET (R85, R374): port p is taken as lost; its link stays up. Its function's configuration, MSI-X table and AER status
are cleared (Table 102), and the host sets it up anew. -/
def State.funcReset (s : State) (p : Nat) (f : FnSetup) : State :=
  if s.cxlUp p then
    ((((s.losePort p).onPw fun w => { w with fns := mset w.fns p (fnMade f) }).replayFree).retryParked).endSession (if p = 0 then .fn0 else .fn1)
  else s

/-! ## Training (R29, R41, R436) -/

/-- What a training leaves of a host port (Tables 8 and 129): x4 or wider, at 16, 32 or 64 GT/s in 256-byte flit mode. -/
def portOf (res : LinkRes) : Port :=
  if res.up && res.width ≠ 0 && decide (2 ≤ res.rate) && res.flit then
    { up := true, width := min res.width 3, rate := min res.rate 4, cache := res.cache }
  else {}

/-- What a training leaves of a flash root port (Tables 10 and 129): 64 GT/s in flit mode, or 32, 16 or 8 GT/s, whole or bifurcated. -/
def flashOf (res : LinkRes) : Port :=
  if res.up && res.width ≠ 0 && res.rate ≠ 0 then
    { up := true, width := min res.width 3, rate := min res.rate (if res.flit then 4 else 3), cache := res.flit,
      links := if res.links = 2 || res.links = 4 then res.links else 1 }
  else {}

/-- A training below x16 or below 64 GT/s. -/
def Port.degraded (q : Port) : Bool := q.up && (decide (q.width < 3) || decide (q.rate < 4))

/-- Count and log a degraded training (R29). -/
def State.noteTraining (s : State) (port : Nat) (q : Port) : State :=
  if q.degraded then
    s.tell [.count Ctr.portDegraded 1,
            .log (Sys2Proof.Config.eventCore 1).toNat 0 (Sys2Proof.Config.eventSeverity 1) (Sys2Proof.Config.logCode 3)
              (leBytes 4 port ++ leBytes 4 q.width ++ leBytes 4 q.rate ++ List.replicate 36 0)]
  else s

/-- The boundary is released: the selvedge cells hold it no more (R40, R41). -/
def State.released (s : State) : Bool := !s.pw.selvedge

/-- A port that is up trains again: its width and its rate may change, and nothing else does (R27, R339, R436); one that does not train has
gone down. -/
def State.hostRetrain (s : State) (p : Nat) (q : Port) : State :=
  if q.up then (s.onPw fun w => { w with cxl := mset w.cxl p { q with cache := (s.cxlPort p).cache } }).noteTraining p q
  else s.linkDown p

/-- HOST_PORT_TRAINING: a CXL host port trains, from down or anew. Descriptors that wait for a port that was down go on, or start again. -/
def State.hostTrain (s : State) (p : Nat) (res : LinkRes) : State :=
  let q := portOf res
  if !s.released || decide (p ≥ Member.cxlPorts s.fuses.member) then s
  else if s.cxlUp p then s.hostRetrain p q
  else
    let s1 := (s.onPw fun w =>
      { w with cxl := mset w.cxl p q, cxlEnum := w.cxlEnum || q.up, fns := mset w.fns p (fnOf res) }).noteTraining p q
    if q.up then s1.replayFree.retryParked else s1

/-- HOST_PORT_TRAINING. -/
def execHostPortTraining (port : Nat) (res : LinkRes) (s : State) : Host.Outcome State Fault Refusal :=
  .next (s.hostTrain port res)

/-! ## Fabric ports (R21, R23, R24, R41, R436) -/

/-- Inbound credits are granted on a fabric port, of the request channel or of the response channel; how many the spec leaves open (log
entry 92). -/
def State.fabGrant (s : State) (n : Nat) : State :=
  s.sendAll [.credit n false (Sys2Proof.Config.fabGrant false), .credit n true (Sys2Proof.Config.fabGrant true)]

/-- A training port whose outbound credits are initialised shows PRESENT (R41): it grants inbound credits, near rings with slots to read
are read (R24, log entry 99), and what has waited for a credit leaves. -/
def State.fabPresent (s : State) (n : Nat) : State :=
  let f := s.fabPort n
  if f.status == .training && decide (0 < f.oreq ∧ 0 < f.orsp) then
    let s1 := ((s.onPw fun w => { w with fab := mset w.fab n { f with status := .present } }).send (.fabStatus n .present)).fabGrant n
    let near := s1.fe.rings.filter fun e => e.2.typ == .nearDesc
    let s2 := State.forEach (fun s e => s.announce e.1) near s1
    State.fabPump s2.pw.fabOut.length s2
  else s

/-- A fabric port trains, its outbound credits initialised with these numbers. -/
def State.fabBegin (s : State) (n oreq orsp : Nat) : State :=
  ((s.onPw fun w => { w with fab := mset w.fab n { status := .training, oreq := oreq, orsp := orsp } }).send (.fabStatus n .training)).fabPresent n

/-- FABRIC_PORT_TRAINING: the first port that trains learns NODE, which is kept until block reset (R436). -/
def State.fabTrain (s : State) (n : Nat) (node : BitVec 16) (oreq orsp : Nat) : State :=
  if s.released && decide (n < Member.fabPorts s.fuses.member) && (s.fabPort n).status == .absent then
    (s.onPw fun w => { w with node := w.node.or (some node) }).fabBegin n oreq orsp
  else s

/-- FABRIC_PORT_TRAINING. -/
def execFabricPortTraining (port : Nat) (link : FabLink) (s : State) : Host.Outcome State Fault Refusal :=
  .next (s.fabTrain port link.node link.oreq link.orsp)

/-- FABRIC_PORT_DRAIN (R24): the port shows DRAINING, and ABSENT once every outstanding response has completed in both directions. -/
def State.fabDrain (s : State) (n : Nat) : State :=
  if s.fabUp n then
    ((s.onPw fun w => { w with fab := mmod w.fab n fun f => { f with status := .draining } }).send (.fabStatus n .draining)).fabSettle
  else s

/-- FABRIC_PORT_DRAIN. -/
def execFabricPortDrain (port : Nat) (s : State) : Host.Outcome State Fault Refusal := .next (s.fabDrain port)

/-- FABRIC_CREDIT_RETURN (R22, R23, R41, R195): Larlyn returns n outbound credits, of the request channel or of the response channel; a
training port has its credits initialised by them, and what has waited for a credit leaves. -/
def State.creditReturn (s : State) (n : Nat) (resp : Bool) (k : Nat) : State :=
  let f := s.fabPort n
  if f.status = .absent then s
  else
    let s1 := s.onPw fun w => { w with fab := mset w.fab n (if resp then { f with orsp := f.orsp + k } else { f with oreq := f.oreq + k }) }
    if f.status = .training then s1.fabPresent n
    else if resp then s1.rspPump.fabSettle
    else State.fabPump s1.pw.fabOut.length s1

end Sys2Proof.Machine
end

