-- ==== Sys2Proof/Machine/Drives.lean ====
section
/-!
DEFINITION. The NVMe engine and its drives: attach (R331), command slots (R332), command outcomes and drive loss (R336, R337).
-/

namespace Sys2Proof.Machine

/-- A flash event (R342). -/
def State.flEvent (s : State) (code d kind lba : Nat) : TelOp :=
  mkEvent code [(8, 4, d), (12, 4, (s.drive d).port), (16, 4, kind), (24, 8, lba)]

/-! ## Commands -/

def State.nvCmd (s : State) (d tag : Nat) : Option NvCmd := s.fl.cmds.find? fun c => c.drive == d && c.tag == tag

def State.onCmd (s : State) (c : NvCmd) (f : NvCmd → NvCmd) : State :=
  s.onFl fun x => { x with cmds := x.cmds.map fun e => if e.tag = c.tag then f e else e }

/-- A command gives up its slot. -/
def State.endCmd (s : State) (c : NvCmd) : State :=
  let s1 := s.onFl fun x => { x with cmds := x.cmds.filter fun e => e.tag != c.tag }
  if c.issued then s1.onDrive c.drive fun d => { d with used := d.used - 1 } else s1

/-- NVME_SLOT_GRANT: the oldest command that waits for its drive takes a slot, where one is free and a Read has its landing blocks. -/
def State.slotGrant (s : State) (d : Nat) : State :=
  match s.fl.cmds.find? fun c => c.drive == d && !c.issued with
  | none => s
  | some c =>
    if (s.drive d).state ≠ .ready || !(s.landingFree c) then s
    else if s.slotFree d then
      (((s.onCmd c fun e => { e with issued := true }).onDrive d fun x => { x with used := x.used + 1 }).submit c)
    else if c.waited then s
    else (s.onCmd c fun e => { e with waited := true }).count Ctr.flSlotWait

/-- NVME_SLOT_GRANT. -/
def execNvmeSlotGrant (drive : Nat) (s : State) : Host.Outcome State Fault Refusal := .next (s.slotGrant drive)

/-! ## Rows of a command -/

/-- A row of a Read fails for its window; a block that cannot be read poisons a row of which Ground store holds no copy (R337). -/
def State.failRow (s : State) (wid : Nat) (st : BitVec 8) (r : Key × Nat) : State :=
  let s1 := (s.rowFails wid r.1 r.2 st).onPwin wid fun w => { w with capped := w.capped.filter fun a => !(a.key == r.1 && a.ver == r.2) }
  if st = St.flashError && !(s1.inStore r.1 r.2) then s1.poisonRow (keyTbl r.1) r.2 (keyRow r.1) else s1

/-- A command for a descriptor has ended: after a FILL's last Write a Flush follows where the drive asks for one, and with none
outstanding the descriptor is done (R142, R335). -/
def State.cmdEnds (s : State) (c : NvCmd) (id : Nat) : State :=
  if s.cmdOut (.desc id) || !((s.desc id).any fun d => d.stage == .filling) then s
  else
    let s1 := if c.kind = 1 then s.flushNs c.ns (.desc id) else s
    if s1.cmdOut (.desc id) then s1 else s1.onDesc id fun x => { x with stage := .finished }

/-- A command that had timed out ends: a descriptor's counts no more. -/
def State.dropCmd (s : State) (c : NvCmd) : State :=
  match c.own with
  | .desc id => (s.endCmd c).cmdEnds c id
  | _ => s.endCmd c

/-- A failed Write or Flush of a descriptor: its status is the failure's, and the rows of the Write count in DONE no more (log entry
103). -/
def Desc.lostCmd (d : Desc) (c : NvCmd) (st : BitVec 8) : Desc :=
  if d.stage == .filling then { d with status := if d.status = St.ok then st else d.status, done := d.done - c.rows.length } else d

/-- A command fails with a status: a window's Read fails its rows, and the window goes on; a descriptor's Write or Flush counts in its
outcome; and a retirement's Flush stays due. -/
def State.failRows (s : State) (c : NvCmd) (st : BitVec 8) : State :=
  match c.own with
  | .window wid => ((State.forEach (fun s r => s.failRow wid st r) c.rows s).freeLanded wid).settleWin wid
  | .desc id => (s.onDesc id fun d => d.lostCmd c st).cmdEnds c id
  | .retire _ _ => s
  | .step => s

/-- The blocks of a Read of window `wid` land (R334). -/
def State.landBlocks (s : State) (wid : Nat) (c : NvCmd) (data : Bytes) : State :=
  if (s.pwin wid).isNone then s
  else State.forEach (fun s i =>
    (s.noteLand c.ns (c.lba + i) 0 4096 true false).onFl fun f =>
      { f with landed := f.landed ++ [{ wid := wid, ns := c.ns, lba := c.lba + i, data := slice data (i * 4096) 4096 }] }) (List.range c.blocks) s

/-- A Write has completed: its rows are poisoned no more (R415). -/
def State.writeDone (s : State) (c : NvCmd) (id : Nat) : State :=
  let s1 := (s.endCmd c).tell c.counts
  (State.forEach (fun s (r : Key × Nat) => s.unpoison (keyTbl r.1) r.2 (keyRow r.1)) c.rows s1).cmdEnds c id

/-- A command has succeeded: a Read's blocks land, a descriptor's Write or Flush is done, or a retirement's Flush is. -/
def State.readDone (s : State) (c : NvCmd) (data : Bytes) : State :=
  match c.own with
  | .window wid =>
    (((s.landBlocks wid c data).endCmd c).tell c.counts).freeLanded wid
  | .desc id => s.writeDone c id
  | .retire tbl ver => (s.endCmd c).onVersion tbl ver fun v => { v with flush := false }
  | .step => s.endCmd c

/-- A command fails with FLASH_ERROR; a Write with its event (R336). -/
def State.readFail (s : State) (c : NvCmd) : State :=
  let s1 := s.endCmd c
  (s1.tell (c.failCounts ++
    (if c.kind = 1 then [mkEvent 0xC04 [(8, 4, c.drive), (12, 4, (s1.drive c.drive).port), (16, 4, c.ns), (24, 8, c.lba)]] else []))).failRows
      c St.flashError

/-! ## Admin commands (R32, R331) -/

/-- The I/O queue pairs of a drive are created: its completion queues, each with its submission queue. -/
def State.createQueues (s : State) (d n size : Nat) : State :=
  (s.send (.admin d (.setQueues n))).sendAll ((List.range n).flatMap fun i => [.admin d (.createCq (i + 1) size), .admin d (.createSq (i + 1) size)])

/-- The I/O queue pairs of a drive are deleted. -/
def State.deleteQueues (s : State) (d : Nat) : State :=
  s.sendAll ((List.range (s.drive d).queues).flatMap fun i => [.admin d (.deleteSq (i + 1)), .admin d (.deleteCq (i + 1))])

/-! ## Controller resets and loss (R336) -/

/-- Every command of a drive fails, with TIER_UNREACHABLE, and those that had timed out end. -/
def State.failDrive (s : State) (d : Nat) : State :=
  let mine := s.fl.cmds.filter fun c => c.drive == d
  State.forEach (fun s c =>
    if c.aborting then s.dropCmd c else ((s.endCmd c).tell c.failCounts).failRows c St.tierUnreachable) mine s

/-- Every outstanding command of a drive fails with DMA_TIMEOUT, and keeps its slot and its landing blocks to the end of the reset; one that
still waits for a slot fails with TIER_UNREACHABLE. -/
def State.failOut (s : State) (d : Nat) : State :=
  let mine := s.fl.cmds.filter fun c => c.drive == d && !c.aborting
  State.forEach (fun s c =>
    if c.issued then ((s.onCmd c fun e => { e with aborting := true }).tell c.failCounts).failRows c St.dmaTimeout
    else ((s.endCmd c).tell c.failCounts).failRows c St.tierUnreachable) mine s

/-- The link core resets a drive's controller. -/
def State.resetDrive (s : State) (d : Nat) : State :=
  ((s.onDrive d fun x => { x with state := .resetting }).count Ctr.flCtrlReset).failOut d

/-- The slots and landing blocks of a drive's commands are free: its reset has ended, or it is gone (Table 88). -/
def State.dropOut (s : State) (d : Nat) : State :=
  State.forEach State.dropCmd (s.fl.cmds.filter fun c => c.drive == d && c.aborting) s

/-- A drive goes DOWN. -/
def State.driveDown (s : State) (d : Nat) : State :=
  let s1 := s.onDrive d fun x => { x with state := .down, used := 0, fails := 0 }
  (s1.tell [s1.flEvent 0xC03 d 0 0]).failDrive d

/-- DRIVE_REMOVAL: surprise removal, or the link goes down. -/
def execDriveRemoval (drive : Nat) (s : State) : Host.Outcome State Fault Refusal :=
  .next (match (s.drive drive).state with
    | .ready => s.driveDown drive
    | .resetting => s.driveDown drive
    | .attaching => s.driveDown drive
    | _ => s)

/-- CONTROLLER_RESET_COMPLETE: the queues that the reset took are created again; after three failed resets in a row the drive is DOWN. Resets
wait for the link core (R339). -/
def State.resetDone (s : State) (d : Nat) (ok : Bool) : State :=
  if (s.drive d).state ≠ .resetting || !(s.roleUp 4) then s
  else if ok then
    let s1 := (s.dropOut d).onDrive d fun x => { x with state := .ready, fails := 0, used := 0 }
    (s1.createQueues d (s1.drive d).queues (s1.drive d).qsize).tell [s1.flEvent 0xC01 d 0 0]
  else if 2 ≤ (s.drive d).fails then s.driveDown d
  else (s.onDrive d fun x => { x with fails := x.fails + 1 }).count Ctr.flCtrlReset

/-- CONTROLLER_RESET_COMPLETE. -/
def execControllerResetComplete (drive : Nat) (ok : Bool) (s : State) : Host.Outcome State Fault Refusal :=
  .next (s.resetDone drive ok)

/-! ## Outcomes (Table 88) -/

/-- NVME_COMPLETION. A completion after the timeout is discarded and counted, and ends the Abort (log entry 59); a controller fatal status
resets the controller whatever command the drive answers. -/
def State.nvmeDone (s : State) (d tag : Nat) (res : NvmeOutcome) (data : Bytes) : State :=
  if (s.drive d).state ≠ .ready then s
  else if res = .controllerFatal then s.resetDrive d
  else match s.nvCmd d tag with
  | none => s
  | some c =>
    if !c.issued then s
    else if c.aborting then (s.dropCmd c).count Ctr.flLateCpl
    else match res with
      | .success => s.readDone c data
      | .retryable =>
        if c.tries < s.flRetry then ((s.onCmd c fun e => { e with tries := e.tries + 1 }).submit c).count Ctr.flRetries else s.readFail c
      | .fatalStatus => s.readFail c
      | .unrecovered => s.readFail c
      | .controllerFatal => s.resetDrive d

/-- NVME_COMPLETION. -/
def execNvmeCompletion (drive tag : Nat) (res : NvmeOutcome) (data : Bytes) (s : State) : Host.Outcome State Fault Refusal :=
  .next (s.nvmeDone drive tag res data)

/-- NVME_CMD_TIMEOUT: an Abort is sent, the rows fail with DMA_TIMEOUT, and the slot and the landing blocks are held until the Abort
completes. -/
def State.cmdTimeout (s : State) (d tag : Nat) : State :=
  match s.nvCmd d tag with
  | none => s
  | some c =>
    if !c.issued || c.aborting then s
    else
      let s1 := (s.onCmd c fun e => { e with aborting := true }).sendAbort c
      ((s1.count Ctr.flTimeout).tell c.failCounts).failRows c St.dmaTimeout

/-- NVME_CMD_TIMEOUT. -/
def execNvmeCmdTimeout (drive tag : Nat) (s : State) : Host.Outcome State Fault Refusal := .next (s.cmdTimeout drive tag)

/-- ABORT_TIMEOUT: the controller is reset. -/
def State.abortTimeout (s : State) (d tag : Nat) : State :=
  match s.nvCmd d tag with
  | none => s
  | some c => if c.aborting && (s.drive d).state == .ready then s.resetDrive d else s

/-- ABORT_TIMEOUT. -/
def execAbortTimeout (drive tag : Nat) (s : State) : Host.Outcome State Fault Refusal := .next (s.abortTimeout drive tag)

/-! ## Attach (R331) -/

/-- Refusal reasons of CRH_FL_DRV_STAT. -/
def Refuse.noNvm : Nat := 1
def Refuse.lbaFormat : Nat := 2
def Refuse.nsLimit : Nat := 3
def Refuse.queueFail : Nat := 4
def Refuse.driveLimit : Nat := 5
def Refuse.slotBudget : Nat := 6
def Refuse.adminTimeout : Nat := 7

/-- The first reason to refuse a drive (log entry 60). -/
def State.attachCheck (s : State) (d : Nat) (i : DriveInfo) : Option Nat :=
  firstSome (fun c => if c.1 then some c.2 else none)
    [(i.timeout, Refuse.adminTimeout),
     (!i.nvmOk, Refuse.noNvm),
     (decide (Member.drives s.fuses.member ≤ (s.fl.drives.filter fun e => Drive.attached e.2 && e.1 != d).length), Refuse.driveLimit),
     (decide (4 < i.nss.length), Refuse.nsLimit),
     (!i.nss.isEmpty && i.nss.all (fun n => !n.fmtOk), Refuse.lbaFormat),
     (decide (Member.nvmeSlots s.fuses.member < s.rsvSum + s.drvRsv d), Refuse.slotBudget),
     (i.qFail, Refuse.queueFail)]

/-- The index of a namespace: the one kept against its NGUID, else the lowest never assigned. -/
def State.nsIndex (s : State) (nguid : Nat) : Option Nat :=
  match s.fl.nss.find? fun e => e.2.nguid == nguid with
  | some e => some e.1
  | none => (List.range 64).find? fun i => (mget s.fl.nss i).isNone

/-- Attach one namespace, or refuse it with its reason. -/
def State.attachNs (s : State) (d : Nat) (n : NsInfo) : State :=
  if !n.fmtOk then s.tell [s.flEvent 0xC02 d Refuse.lbaFormat 0]
  else match s.nsIndex n.nguid with
    | none => s.tell [s.flEvent 0xC02 d Refuse.nsLimit 0]
    | some i =>
      let e : Ns := { drive := d, nguid := n.nguid, nsid := n.nsid, blocks := n.blocks, valid := true }
      (s.onFl fun f => { f with nss := mset f.nss i e }).onDrive d fun x => { x with nss := x.nss ++ [i] }

/-- Queue pairs of a drive: NQ, 1 to 64. -/
def State.drvNq (s : State) (d : Nat) : Nat := clampN (bitf (s.drvCfgOf d) 32 7) 1 64

/-- The least power of two from n up. -/
def pow2Up (n : Nat) : Nat := if n ≤ 1 then 1 else 2 ^ (Nat.log2 (n - 1) + 1)

/-- Entries of each queue of a drive whose largest queue has qMax (R331). -/
def State.drvQsize (s : State) (d qMax : Nat) : Nat := min (pow2Up (ceilDiv (s.drvCap d) (s.drvNq d))) qMax

/-- Step 1 of an attach: the controller's Identify data, then those of its namespaces, unless the first is not answered. -/
def State.identify (s : State) (d : Nat) (i : DriveInfo) : State :=
  let s1 := s.send (.admin d (.identify 1 0))
  if i.timeout then s1 else (s1.send (.admin d (.identify 2 0))).sendAll (i.nss.map fun n => .admin d (.identify 0 n.nsid))

/-- A drive's attach steps run. -/
def State.attach (s0 : State) (d : Nat) (i : DriveInfo) : State :=
  let s := s0.identify d i
  let new : Drive := { state := .refused, port := i.port }
  match s.attachCheck d i with
  | some r =>
    let s1 := (if r = Refuse.queueFail then s.createQueues d (s.drvNq d) (s.drvQsize d i.qMax) else s).onDrive d fun _ => { new with reason := r }
    s1.tell [s1.flEvent 0xC02 d r 0]
  | none =>
    let s1 := (s.createQueues d (s.drvNq d) (s.drvQsize d i.qMax)).onDrive d fun _ =>
      { new with state := .ready, queues := s.drvNq d, qsize := s.drvQsize d i.qMax, vwc := i.vwc, most := i.most }
    let s2 := State.forEach (fun s n => s.attachNs d n) i.nss s1
    s2.tell [s2.flEvent 0xC01 d 0 0]

/-- A drive may be attached now: it is one of 16, is not attached, its port is up, and the link core runs. -/
def State.mayAttach (s : State) (d : Nat) (i : DriveInfo) : Bool :=
  decide (d < 16) && !(Drive.attached (s.drive d)) && decide (i.port < Member.pciePorts s.fuses.member) &&
    (mgetD s.pw.pcie i.port {}).up && s.roleUp 4

/-- What governs attach at link-up: CRH_FL_CTL.AUTO_ATTACH from READY on, AUTO_ATTACH_DEF before (R442). -/
def State.autoAttach (s : State) : Bool := if s.pw.ready then bitb (s.cfg Reg.flCtl) 24 else bitb s.st.policy 4

/-- AUTO_ATTACH. -/
def execAutoAttach (drive : Nat) (info : DriveInfo) (s : State) : Host.Outcome State Fault Refusal :=
  .next (if s.autoAttach && s.mayAttach drive info then s.attach drive info else s)

end Sys2Proof.Machine
end

