-- ==== Sys2Proof/Machine/Flow.lean ====
section
/-!
DEFINITION. Flow: the wait points and the stall watchdog (R348, R351), and the commands on the counters (R354).
-/

namespace Sys2Proof.Machine

/-! ## Wait points (Table 92) -/

/-- Where a descriptor that enters the bobbinet waits. -/
def State.poolWait (s : State) (d : Desc) : Nat :=
  match s.sp.pwins.find? fun w => w.members.any fun p => p.mem.id == d.id with
  | none => 0
  | some w =>
    if !w.placed then 5
    else if !w.granted then 4
    else if w.capped.any fun a => a.on != .drive then 6
    else if w.capped.any fun a => a.on == .drive then 7
    else if w.members.any fun p => p.mem.id == d.id && (p.tiles d w.slices).any fun t =>
        !(p.drained.contains (t.pos, t.tile)) && s.tilePooled w p t &&
          !(s.canWrite d (p.mem.dim d) (t.lo * orowOf d.outfmt (p.mem.dim d) d.clsS) (t.hi * orowOf d.outfmt (p.mem.dim d) d.clsS)) then
      (if d.outRange.any (·.fabric) then 8 else 2)
    else 0

/-- The descriptor's window stands in the window queue without its reservation. -/
def State.unreserved (s : State) (id : Nat) : Bool :=
  s.sp.queue.any fun w => !w.reserved && w.members.any fun m => m.id == id

/-- Where an APPLY waits: twin space or a way for one of its rows. -/
def State.applyWait (s : State) (d : Desc) : Nat :=
  let mine := s.up.waits.filter fun x => (s.up.applies.find? fun a => a.id == d.id).any fun a => a.tbl == x.tbl && a.rows.contains (x.ver, x.row)
  if mine.any fun x => !x.way then 11 else if mine.any (·.way) then 12 else 0

/-- Contributions of a descriptor still wait for outbound fabric credits. -/
def State.contribsWait (s : State) (id : Nat) : Bool :=
  s.pw.fabOut.any fun o => match o with
    | .contrib _ _ m _ => s.up.outb.any fun b => b.id == id && b.batch == m.batch
    | _ => false

/-- Where a descriptor stands that still reads: at its inputs' translations, else at `n`. -/
def State.readWait (s : State) (d : Desc) (n : Nat) : Nat := if s.inputsIn d then n else 2

/-- The wait point of Table 92 at which a descriptor stands, 0 for none (log entry 65). -/
def State.waitPoint (s : State) (d : Desc) : Nat :=
  let at' := match d.stage with
    | .queued =>
      if d.resv = 0 && !(s.heldBack d) && (s.ring d.ring).state != .pausedHost &&
          decide (s.freeFor (s.ring d.ring).cplRing < d.cplNeed) then 1 else 0
    | .headWait => 2
    | .parked => 2
    | .ready => s.readWait d (if d.sorted && !s.sp.room then 3 else 0)
    | .window => s.readWait d (if s.unreserved d.id then 3 else 0)
    | .pooling => s.poolWait d
    | .reserve => 10
    | .scatter => s.readWait d 9
    | .applying => s.applyWait d
    | .bulk => s.readWait d (if s.fabReady then 9 else 8)
    | .filling => 7
    | .waiting => if d.opc = 0x31 then 13 else 0
    | .remote => if s.contribsWait d.id then 8 else 14
    | _ => 0
  if at' ≠ 0 then at' else if s.xl.invals.any fun v => v.waits.contains d.id then 16 else 0

/-- CRH_FLOW_CTL.STALL_MS. -/
def State.stallMs (s : State) : Nat := bitf (s.cfg Reg.flowCtl) 0 16

/-- A stall at CPL_SPACE is told only of the first descriptor of its ring that waits there (R351). -/
def State.firstStalled (s : State) (d : Desc) (w : Nat) : Bool :=
  w != 1 || ((s.ringDescs d.ring).find? fun x => s.waitPoint x == 1).all fun x => x.id == d.id

/-- FLOW_STALL (R351, R358): a descriptor has waited STALL_MS where it stands; told once there. -/
def State.flowStall (s : State) (id : Nat) : State :=
  match s.desc id with
  | none => s
  | some d =>
    let w := s.waitPoint d
    if s.stallMs = 0 || w = 0 || d.stalled = w || !(s.firstStalled d w) then s
    else (s.onDesc id fun x => { x with stalled := w }).tell
      [ringEvent 0xD03 d.ring [(8, 4, d.ring), (12, 4, d.seq.toNat), (16, 4, w), (20, 4, s.stallMs)], .count Ctr.flowStalls 1]

/-- FLOW_STALL. -/
def execFlowStall (id : Nat) (s : State) : Host.Outcome State Fault Refusal := .next (s.flowStall id)

/-! ## CRH_CNT_CMD (R354) -/

def CntRes.done : Nat := 0
def CntRes.badOp : Nat := 1
def CntRes.badWord : Nat := 2
def CntRes.tooLarge : Nat := 3

/-- A CRH_CNT_CMD with an OP, started on a path; `run` takes ALL and the counter's offset. -/
def State.cntCmd (s : State) (p : Path) (op : Nat) (val : Word64) (run : State → Bool → Nat → State) : State :=
  let v := BitVec.ofNat 64 (bitf val 0 14 + atBit op 2 14 + 2 ^ 31)
  s.command p Reg.cntCmd 31 1 false none v fun s => run s (bitb val 13) (0xD0000 + 8 * bitf val 0 13)

def State.cntDone (s : State) (p : Path) (result : Nat) : State := s.finish p Reg.cntCmd result

/-- Set one counter. -/
def State.setCounter (s : State) (off : Nat) (c : Counter) : State := s.onTel fun t => { t with counters := mset t.counters off c }

/-- CLEAR: a counter, or every counter with ALL, goes back to 0 with HALF and SAT clear. -/
def State.counterClear (s : State) (p : Path) (val : Word64) : State :=
  s.cntCmd p 1 val fun s all off =>
    if all then (s.onTel fun t => { t with counters := [] }).cntDone p CntRes.done
    else if !(Ctr.isCounter off) then s.cntDone p CntRes.badWord
    else (s.onTel fun t => { t with counters := mdel t.counters off }).cntDone p CntRes.done

/-- COUNTER_CLEAR. -/
def execCounterClear (p : Path) (val : Word64) (s : State) : Host.Outcome State Fault Refusal := .next (s.counterClear p val)

/-- A counter less what software has taken: HALF clears below 2^47, SAT stays. -/
def Counter.less (c : Counter) (n : Nat) : Counter :=
  { c with count := c.count - n, half := c.half && decide (2 ^ 47 ≤ c.count - n) }

/-- SUBTRACT: the path's DATA comes off a counter; more than it holds changes nothing. -/
def State.counterSubtract (s : State) (p : Path) (val : Word64) : State :=
  s.cntCmd p 2 val fun s all off =>
    let n := bitf (s.own p Reg.cntData) 0 48
    if all then s.cntDone p CntRes.badOp
    else if !(Ctr.isCounter off) then s.cntDone p CntRes.badWord
    else if s.counter off < n then s.cntDone p CntRes.tooLarge
    else (s.setCounter off ((s.tel.countOf off).less n)).cntDone p CntRes.done

/-- SUBTRACT. -/
def execSubtract (p : Path) (val : Word64) (s : State) : Host.Outcome State Fault Refusal := .next (s.counterSubtract p val)

end Sys2Proof.Machine
end

