-- ==== Sys2Proof/Machine/Views.lean ====
section
/-!
DEFINITION. What a register read returns (R427 to R429, R434, R436, R437): the STAT registers as views of the state, by chapter, and
COUNTER_LOW_READ (R446).
-/

namespace Sys2Proof.Machine

/-- Units of 16 MiB that bytes take, rounded up. -/
def unitsUp (n : Nat) : Nat := ceilDiv n unitBytes

/-! ## Identification and capability (R434) -/

/-- The values in a host function's PCI configuration header (R435, Table 127): vendor, device, revision, class code, subsystem vendor
and subsystem. No command of the table reads the header (log entry 145); CRH_ID repeats the first three. -/
def State.pciHeader (s : State) : List Nat :=
  let device := Member.device s.fuses.member
  [0x1EC4, device, s.fuses.stepping.toNat, 0x120000, 0x1EC4, device]

def State.viewId (s : State) : Nat :=
  0x1EC4 + atBit (Member.device s.fuses.member) 16 16 + atBit s.fuses.stepping.toNat 8 32 + atBit (Member.code s.fuses.member) 3 40 +
    0x01 * 2 ^ 56

def viewCap0 (m : Member) : Nat :=
  atBit (Member.slices m) 8 0 + atBit (Member.phys m) 8 8 + atBit (Member.slices m) 8 16 + atBit (Member.phys m) 8 24 +
    atBit (Member.groups m) 5 32 + atBit (Member.tiers m) 4 40 + atBit (Member.sorters m) 3 44 + atBit (Member.fabPorts m) 3 48 +
    atBit (Member.cxlPorts m) 2 52 + atBit (Member.pciePorts m) 2 54

def viewCap1 (m : Member) : Nat :=
  atBit (Member.rings m) 18 0 + atBit (Member.msix m) 12 18 + atBit (Member.bobbins m) 14 32 + atBit (Member.nvmeSlots m) 16 48

def viewCap2 (m : Member) (fabMhz : Nat) : Nat :=
  atBit (Member.drives m) 5 0 + atBit (Member.replMax m) 5 8 + atBit (Member.usable m) 12 16 + atBit fabMhz 12 32 +
    atBit (Member.domains m) 6 48

/-- Spare slices unused. -/
def State.sliceSpares (s : State) : Nat := Member.phys s.fuses.member - Member.slices s.fuses.member - s.rl.sliceUsed

def State.pllsUsed (s : State) : Nat := b2n s.pw.sp0.isSome + b2n s.pw.sp1.isSome

/-- Spare channels as the registers show them: before the channels are trained, the member's (R321, R434). -/
def State.chSparesShown (s : State) : Nat :=
  let m := s.fuses.member
  if s.gs.phys.isEmpty then Member.phys m - Member.slices m else s.spareChs.length

def State.viewCapLive (s : State) : Nat :=
  atBit s.slicesNow 8 0 + atBit (s.chans - s.gs.lost.length) 8 8 + atBit s.sliceSpares 3 16 + atBit (stick s.chSparesShown 3) 3 19 +
    atBit (2 - s.pllsUsed) 2 22 +
    atBit (b2n (s.st.spareRole == 7 && mgetD s.st.cores 6 CoreState.off != .retired)) 1 24 + atBit (b2n s.rl.standby) 1 25

/-! ## Global control (R376, R436) -/

def PState.num : PState → Nat
  | .off => 0 | .standby => 1 | .p2 => 2 | .p1 => 3 | .p0 => 4

def State.viewBoot (s : State) : Nat :=
  atBit s.pw.step 4 0 + atBit (b2n s.pw.ready) 1 4 + atBit s.pw.fail 8 8 + atBit (stick s.pw.readyMs 16) 16 16 + atBit s.pw.lastReset 4 32

/-- The highest throttle level in force anywhere in the block (R366): a channel's counts while it serves. -/
def State.throttleLevel (s : State) : Nat :=
  (s.gs.phys.filter fun e => e.2.state == .active || e.2.state == .copyOut).foldl (fun m e => max m (Phys.level e.2)) s.emergLevel

def maskOf (l : List Nat) : Nat := sumBy (fun i => 2 ^ i) (dedup l)

def State.viewPwr (s : State) : Nat :=
  atBit (PState.num s.pw.pstate) 3 0 + atBit (b2n s.pw.emerg) 1 3 + atBit s.throttleLevel 4 4 + atBit (maskOf s.pw.gated) 16 8

def State.viewClk (s : State) : Nat :=
  atBit (b2n s.pw.refOk) 1 0 + atBit (b2n s.pw.refDrift) 1 1 + atBit s.pllsUsed 2 2 + atBit (s.pw.sp0.getD 0xFF) 8 8 +
    atBit (s.pw.sp1.getD 0xFF) 8 16

/-- Table 129. -/
def Port.byte (p : Port) : Nat := if p.up then 1 + atBit p.width 2 1 + atBit p.rate 3 3 + atBit (b2n p.cache) 1 6 else atBit (b2n p.cache) 1 6

def FabStatus.num : FabStatus → Nat
  | .absent => 0 | .training => 1 | .present => 2 | .draining => 3

def State.viewPorts (s : State) : Nat :=
  let c := fun n => atBit (Port.byte (mgetD s.pw.cxl n {})) 8 (8 * n)
  let e := fun n => atBit (Port.byte (mgetD s.pw.pcie n {})) 8 (16 + 8 * n)
  let f := fun n => atBit (FabStatus.num (mgetD s.pw.fab n {}).status) 2 (32 + 2 * n)
  c 0 + c 1 + e 0 + e 1 + sumBy f [0, 1, 2, 3] + atBit (((s.pw.node.map (·.toNat))).getD 0) 16 40

/-! ## Contexts and tables (R88, R116, R127) -/

/-- The context of a descriptor by number. -/
def State.ctxOf (s : State) (id : Nat) : Option Nat := (s.desc id).map Desc.ctx

def State.viewCtx (s : State) (c : Nat) : Nat :=
  atBit (stick (s.fe.park.filter fun id => s.ctxOf id == some c).length 9) 9 0 +
    atBit (stick (sumBy (fun e => if s.ctxOf e.1 == some c then e.2 else 0) s.xl.pri) 10) 10 9 +
    atBit (stick (s.xl.xc.filter fun e => e.pins.any fun id => s.ctxOf id == some c).length 13) 13 19

def State.viewTbl (s : State) (h : Nat) : Nat :=
  match s.table h with
  | none => 0
  | some t =>
    let v := fun (x : Option Version) => (x.map (·.ver)).getD 0
    1 + atBit t.versions.length 3 1 + atBit (v t.current) 16 16 + atBit (v t.staged) 16 32 +
      atBit (s.tb.extents.filter fun e => e.tbl == h).length 11 48

/-- Units of the pinned partition that an extent touches. -/
def State.extentUnits (s : State) (e : Extent) : List Nat :=
  match s.table e.tbl with
  | none => []
  | some t =>
    let last := (e.off + e.count * e.slot t - 1) / unitBytes
    (List.range (last + 1 - e.off / unitBytes)).map fun i => e.off / unitBytes + i

def State.viewPart (s : State) : Nat :=
  atBit (dedup (s.tb.extents.flatMap s.extentUnits)).length 12 0 + atBit s.cacheUnits 12 16 + atBit (stick s.tb.extents.length 15) 15 32

/-! ## Ground store (R321) -/

/-- Table 81. -/
def PhysState.num : PhysState → Nat
  | .absent => 0 | .training => 1 | .active => 2 | .copyOut => 3 | .spare => 4 | .copyIn => 5 | .offline => 6 | .failed => 7

def State.viewPch (s : State) (p : Nat) : Nat :=
  let x := s.phys p
  let l := if x.state = .active || x.state = .copyOut then s.lchOf p else none
  atBit (l.getD 0xFF) 8 0 + atBit x.state.num 3 8 + atBit x.eff 3 11 + atBit x.throttle 2 14 + atBit (stick (x.temp / 4) 8) 8 16 +
    atBit (stick (s.spareBanks p) 5) 5 24 + atBit (stick (s.spareRows p) 13) 13 32 +
    atBit (stick (s.gs.wc.filter fun e => some e.ch == l).length 7) 7 48

def State.viewLch (s : State) (l : Nat) : Nat := atBit ((s.pchOf l).getD 0xFF) 8 0 + atBit (b2n (s.gs.folded.contains l)) 1 8

def State.viewTest (s : State) (p : Nat) : Nat :=
  let x := s.phys p
  atBit (stick x.tgErrors 32) 32 0 + atBit (b2n x.tgDone) 1 32 + atBit (b2n x.tgPass) 1 33 + atBit x.tgTier 3 40 + atBit x.tgBank 5 43 +
    atBit x.tgLine 12 48

/-- CRH_GS_SPARES. -/
def State.viewSpares (s : State) : Nat :=
  atBit (stick s.chSparesShown 3) 3 0 + atBit s.gs.folded.length 8 3 +
    atBit (s.gs.phys.filter fun e => e.2.state == .failed).length 8 11

/-! ## Cache and skew (R292) -/

def State.viewLoad (s : State) (ch : Nat) : Nat :=
  let x := s.loadOf ch
  atBit (stick x.lastLines 32) 32 0 + atBit x.lastBusy 7 32 + atBit (b2n x.hot) 1 39 + atBit (stick x.run 16) 16 48

def State.viewSkew (s : State) : Nat :=
  atBit s.redirUsed 17 0 + atBit (s.ch.redir.filter Redir.isRepl).length 17 17 + atBit (s.ch.redir.filter fun r => !r.isRepl).length 17 34

/-- Data areas of a channel in which a slot lies. -/
def State.areasUsed (s : State) (ch : Nat) : Nat :=
  (dedup ((s.ch.ways.filter fun w => w.ch == ch && w.live).flatMap fun w => (List.range (spanOf w.size)).map (w.pocket + ·))).length

/-- Free data areas of the block; a channel that serves nothing has none. -/
def State.freeAreas (s : State) : Nat :=
  sumBy (fun ch => if s.foldedCh ch then 0 else s.setsOf ch - s.areasUsed ch) (List.range s.chans)

def State.viewCache (s : State) : Nat := atBit (stick s.freeAreas 24) 24 0 + atBit s.cachePockets 16 24

/-! ## Sort and pool, quantisation (R168, R206, R229) -/

def State.viewSort (s : State) : Nat :=
  atBit (Member.sorters s.fuses.member) 3 0 + atBit (maskOf (s.sp.sorters.map (·.1))) 4 3 +
    atBit (stick (s.sp.queue.length + s.sp.open'.toList.length) 9) 9 16 + atBit (stick (unitsUp s.winUsed) 12) 12 32 +
    atBit (stick s.sp.kept.length 17) 17 44

def State.viewPool (s : State) : Nat :=
  atBit (stick (s.sp.tiles.filter fun e => e.2.held).length 8) 8 0 + atBit (stick (unitsUp s.spoolUsed) 12) 12 16 +
    atBit (stick s.spoolQueue.length 8) 8 28

def State.viewRsc (s : State) : Nat :=
  atBit (b2n s.qz.active) 1 0 + atBit (b2n s.qz.shadowOk) 1 1 + atBit (stick s.shadowRefs 24) 24 2

def State.viewDrift (s : State) (c : Nat) : Nat :=
  let d := mgetD s.qz.drift c {}
  atBit (stick d.sat 32) 32 0 + atBit (stick d.under 32) 32 32

/-! ## Couching (R263) -/

def State.viewUpd (s : State) (h : Nat) : Nat :=
  (mgetD s.tb.epochs h 0).toNat + atBit (stick (s.entriesOf h).length 24) 24 32

def State.viewCpl (s : State) : Nat :=
  atBit s.updUnits 12 0 + atBit (stick (unitsUp s.pillowUsed) 12) 12 12 + atBit (stick (unitsUp s.twinUsed) 12) 12 24 +
    atBit (stick s.up.intake.length 12) 12 36

/-! ## Flash (R340) -/

def DriveState.num : DriveState → Nat
  | .absent => 0 | .attaching => 1 | .ready => 2 | .refused => 3 | .resetting => 4 | .down => 5

def State.viewDrive (s : State) (d : Nat) : Nat :=
  let x := s.drive d
  atBit x.state.num 3 0 + atBit x.port 1 3 + atBit x.nss.length 3 4 + atBit x.queues 7 7 + atBit (stick x.used 16) 16 14 +
    atBit x.reason 8 30

def State.viewNs (s : State) (i : Nat) : Nat :=
  match mget s.fl.nss i with
  | none => 0
  | some n => atBit n.drive 4 0 + atBit (b2n n.valid) 1 4 + atBit (b2n (s.nsReady i)) 1 5 + atBit n.nsid 32 32

def State.viewNsSize (s : State) (i : Nat) : Nat := atBit (((mget s.fl.nss i).map (·.blocks)).getD 0) 48 0

/-! ## Errors, Steta, authority (R424, R400, R437) -/

/-- A version is poisoned as a whole (R416). -/
def State.poisonOver (s : State) : Bool := s.tb.tables.any fun e => e.2.versions.any (·.poisoned)

def State.viewHealth (s : State) : Nat :=
  atBit s.sliceSpares 3 0 + atBit s.rl.lostPos.length 8 8 + atBit (b2n s.rl.standby) 1 16 + atBit (b2n s.rl.engine) 1 17 +
    atBit (b2n s.rl.reduced) 1 18 + atBit (b2n s.poisonOver) 1 19

def CoreState.num : CoreState → Nat
  | .off => 0 | .boot => 1 | .run => 2 | .restart => 3 | .retired => 4

/-- The running image. -/
def Steta.image (t : Steta) : Image := if t.recovery then t.imgR else if t.slotB then t.imgB else t.imgA

def State.viewSteta (s : State) : Nat :=
  sumBy (fun k => atBit (mgetD s.st.cores k CoreState.off).num 3 (3 * k)) (List.range 7) + atBit s.st.spareRole 3 21 +
    atBit (b2n s.st.slotB) 1 24 + atBit (b2n s.st.trial) 1 25 + atBit (b2n s.st.recovery) 1 26 + atBit s.fuses.svn 7 32 +
    atBit s.st.image.svn 7 40

def State.viewAuth (s : State) : Nat :=
  atBit (s.rights .fn0) 2 0 + atBit (s.rights .fn1) 2 2 + atBit (s.rights .i3c) 2 4 + atBit (s.rights .dbg) 2 6 +
    atBit (maskOf (s.st.lockout.map Path.num)) 4 8 + atBit s.st.debug 2 12 + atBit (b2n (!s.st.authWait.isEmpty)) 1 14 +
    atBit (b2n s.auditFull) 1 15 + atBit (b2n s.st.instKey.isSome) 1 16 + atBit (stick s.st.opKeys.length 5) 5 17

def State.viewFuse (s : State) : Nat :=
  atBit s.fuses.revoked.toNat 4 0 + atBit s.fuses.svn 7 4 + atBit (Member.code s.fuses.member) 3 12

/-! ## Reads -/

/-- The value of a STAT register, under the reading path's selectors. -/
def State.statValue (s : State) (p : Path) (off : Nat) : Nat :=
  let m := s.fuses.member
  let gs := s.own p Reg.gsSel
  if off = Reg.id then s.viewId
  else if off = Reg.cap0 then viewCap0 m
  else if off = Reg.cap1 then viewCap1 m
  else if off = Reg.cap2 then viewCap2 m s.fuses.fabMhz
  else if off = Reg.capLive then s.viewCapLive
  else if off = Reg.serialLo then s.fuses.serialLo.toNat
  else if off = Reg.serialHi then s.fuses.serialHi.toNat
  else if off = Reg.bootStat then s.viewBoot
  else if off = Reg.pwrStat then s.viewPwr
  else if off = Reg.clkStat then s.viewClk
  else if off = Reg.portStat then s.viewPorts
  else if off = Reg.ctxStat then s.viewCtx (bitf (s.own p Reg.ctxSel) 0 12)
  else if off = Reg.tblStat then s.viewTbl (bitf (s.own p Reg.tblSel) 0 16)
  else if off = Reg.partStat then s.viewPart
  else if off = Reg.gsPstat then s.viewPch (bitf gs 0 8)
  else if off = Reg.gsLstat then s.viewLch (bitf gs 8 7)
  else if off = Reg.gsTgStat then s.viewTest (bitf gs 0 8)
  else if off = Reg.gsSpares then s.viewSpares
  else if off = Reg.chLoad then s.viewLoad (bitf (s.own p Reg.chSel) 0 7)
  else if off = Reg.skewStat then s.viewSkew
  else if off = Reg.cacheStat then s.viewCache
  else if off = Reg.sortStat then s.viewSort
  else if off = Reg.poolStat then s.viewPool
  else if off = Reg.rscStat then s.viewRsc
  else if off = Reg.qdriftStat then s.viewDrift (bitf (s.own p Reg.qdriftSel) 0 12)
  else if off = Reg.updStat then s.viewUpd (bitf (s.own p Reg.updSel) 0 16)
  else if off = Reg.cplStat then s.viewCpl
  else if off = Reg.flDrvStat then s.viewDrive (bitf (s.own p Reg.flSel) 0 4)
  else if off = Reg.flNsStat then s.viewNs (bitf (s.own p Reg.flNsSel) 0 6)
  else if off = Reg.flNsSize then s.viewNsSize (bitf (s.own p Reg.flNsSel) 0 6)
  else if off = Reg.health then s.viewHealth
  else if off = Reg.poisonStat then s.rl.poison.length
  else if off = Reg.stetaStat then s.viewSteta
  else if off = Reg.authStat then s.viewAuth
  else if off = Reg.fuseStat then s.viewFuse
  else 0

/-- A counter's word (R352). -/
def Counter.word (c : Counter) : Nat := c.count + atBit (b2n c.half) 1 62 + atBit (b2n c.sat) 1 63

/-- The 64-bit word at an 8-byte aligned offset, as the reading path sees it; zero where there is no register (R427). -/
def State.readReg (s : State) (p : Path) (off : Nat) : Word64 :=
  if Ctr.isCounter off then BitVec.ofNat 64 (s.tel.countOf off).word
  else match regAt off with
    | none => 0
    | some r => if r.kind = .stat then BitVec.ofNat 64 (s.statValue p off) else regGet s p off

/-- The path's reads are answered (R402, R431, R440). -/
def State.mayRead (s : State) (p : Path) : Bool :=
  match p with
  | .i3c => false
  | .dbg => s.st.debug != 0
  | _ => s.fnUp p

/-- The upper half that a path's read of a counter's lower half has latched. -/
def Telem.latched (t : Telem) (p : Path) (off : Nat) : Option (BitVec 32) :=
  (t.latch.find? fun e => e.1 == p && e.2.1 == off).map fun e => e.2.2

def Telem.unlatch (t : Telem) (p : Path) (off : Nat) : List (Path × Nat × BitVec 32) := t.latch.filter fun e => !(e.1 == p && e.2.1 == off)

def State.answer (s : State) (off : Nat) (v : BitVec 32) : State := s.send (.regValue off (v.setWidth 64))

/-- COUNTER_LOW_READ (R446): a read of 4 bytes. A counter's lower half latches its upper half for the path; the path's next read of
that upper half takes the latch. Any other half is answered as it stands (R428). -/
def State.readHalf (s : State) (p : Path) (off : Nat) : State :=
  let reg := off / 8 * 8
  let w := s.readReg p reg
  let low := w.setWidth 32
  let high := BitVec.ofNat 32 (w.toNat / 2 ^ 32)
  if !(s.mayRead p) then (if p = .dbg then s.shutOut else s)
  else if off % 4 ≠ 0 then s.answer off 0
  else if off % 8 = 0 then
    let s1 := if Ctr.isCounter reg then s.onTel fun t => { t with latch := (p, reg, high) :: t.unlatch p reg } else s
    s1.answer off low
  else match s.tel.latched p reg with
    | some v => (s.onTel fun t => { t with latch := t.unlatch p reg }).answer off v
    | none => s.answer off high

/-- COUNTER_LOW_READ. -/
def execCounterLowRead (p : Path) (off : Nat) (s : State) : Host.Outcome State Fault Refusal := .next (s.readHalf p off)

end Sys2Proof.Machine
end

