-- ==== Sys2Proof/Machine/Reset.lean ====
section
/-!
DEFINITION. Resets and start-up: what a reset clears and keeps (R373, Table 102), image selection (R388, R389), and the sequence of
Table 100 (R372).
-/

namespace Sys2Proof.Machine

/-! ## What a reset keeps (Table 102) -/

/-- The repair map, with the channels that have FAILED and the logical channels that none serves (R296, R420). -/
def Ground.kept (g : Ground) : Ground :=
  { phys := g.phys.filterMap fun e => if e.2.state = .failed then some (e.1, { state := PhysState.failed }) else none
    lmap := g.lmap, folded := g.folded, lost := g.lost, bankMap := g.bankMap, rowMap := g.rowMap, rowUsed := g.rowUsed,
    bankUsed := g.bankUsed }

/-- The timestamp, the persistent log, and what has been written to host memory. -/
def Telem.kept (t : Telem) : Telem := { ts := t.ts, ring := t.ring, plog := t.plog, ibis := t.ibis }

/-- Boot flash: boot control record, slots, credentials, audit log, installer limits; and the cores that are retired (R394). -/
def Steta.kept (t : Steta) : Steta :=
  { cores := t.cores.filter fun e => e.2 == .retired
    bcr := t.bcr, bcrOld := t.bcrOld, imgA := t.imgA, imgB := t.imgB, imgR := t.imgR, staged := t.staged, audit := t.audit, aseq := t.aseq,
    instKey := t.instKey, tokenCnt := t.tokenCnt, opKeys := t.opKeys, nonces := t.nonces, policy := t.flashPol, flashPol := t.flashPol,
    crashes := t.crashes }

/-- Slices that spares replace, and positions lost (R418: a retired slice is never used again). -/
def Rel.kept (r : Rel) (folded lostChs : List Nat) : Rel :=
  { sliceMap := r.sliceMap, sliceUsed := r.sliceUsed, lostPos := r.lostPos, retiring := r.retiring
    reduced := !r.lostPos.isEmpty || !lostChs.isEmpty || (r.reduced && !folded.isEmpty) }

/-- A namespace index while no drive holds it: its NGUID alone, in boot flash (Table 102, R331). -/
def Ns.absent (n : Ns) : Ns := { drive := 0, nguid := n.nguid, nsid := 0, blocks := 0, valid := false }

/-- The block in reset: what Table 102 keeps, what the reference and PLL_AON do (the always-on domain is kept, R372), and every other field
at its reset value. -/
def State.cleared (s : State) : State :=
  { pending := s.pending, fuses := s.fuses, gs := s.gs.kept, fl := { nss := mmap s.fl.nss fun _ n => n.absent }, tel := s.tel.kept, st := s.st.kept,
    rl := s.rl.kept s.gs.folded s.gs.lost, free := s.free, out := s.out,
    pw := { rails := s.pw.rails, gated := Member.gated0 s.fuses.member, tap := s.pw.tap.under false, emerg := s.pw.emerg, held := s.pw.held,
            lastReset := s.pw.lastReset, refGone := s.pw.refGone, refOff := s.pw.refOff, aonBad := s.pw.aonBad, aonOsc := s.pw.aonOsc } }

/-! ## Image selection (R388, R389) -/

/-- An image verifies: the header checks and the anti-rollback counter; `sig` says that the public key's hash, the signature and the
section digests match (R388). -/
def Fuses.accepts (f : Fuses) (i : Image) (sig : Bool) : Bool :=
  i.magic == 0x475A4D4F && i.fmt == 1 && decide (i.keyIdx < 4) && !(f.revoked.getLsbD i.keyIdx) && sig &&
    decide (f.svn ≤ i.svn ∧ i.svn ≤ 64)

/-- The governing record as the ROM leaves it, the slot that it chooses (true: B), and whether that is a trial image. -/
def romRecord (b : Option Bcr) : Option Bcr × Bool × Bool :=
  match b with
  | none => (none, false, false)
  | some b =>
    if b.trial && decide (1 ≤ b.tries) then (some { b with gen := b.gen + 1, active := b.prev, trial := false }, b.prev, false)
    else if b.trial then (some { b with gen := b.gen + 1, tries := b.tries + 1 }, b.active, true)
    else (some b, b.active, false)

/-- The record that governs: the newer one, or the older one where the newer one's digest fails (R386, R389). -/
def Steta.governing (t : Steta) (bad : Bool) : Option Bcr := if bad then t.bcrOld else t.bcr

/-- The records as the ROM leaves them: a new one is written over the one that does not govern. -/
def Steta.romWrites (t : Steta) (bad : Bool) (b : Option Bcr) : Steta :=
  let g := t.governing bad
  { t with bcr := b, bcrOld := if b = g then (if bad then none else t.bcrOld) else g }

/-- What the ROM boots. -/
inductive Booted where
  | slot (b trial : Bool)
  | recovery
  | none
  deriving DecidableEq, Repr

def State.romBoots (s : State) (su : Startup) (want trial : Bool) : Booted :=
  let ok := fun (b : Bool) => if b then s.fuses.accepts s.st.imgB su.sigB else s.fuses.accepts s.st.imgA su.sigA
  if ok want then .slot want trial
  else if ok (!want) then .slot (!want) false
  else if s.fuses.accepts s.st.imgR su.sigR then .recovery
  else .none

/-! ## Step 4: the cores -/

/-- Every core that is not retired runs; core 6, unless it is retired itself, takes the role of the first retired core, and any further
one stays down (R394). -/
def State.startCores (s : State) : State :=
  let gone := (List.range 7).filter fun k => mgetD s.st.cores k CoreState.off == .retired
  let roles := gone.filter fun k => k != 6
  let spare := !(gone.contains 6)
  let down := if spare then roles.drop 1 else roles
  let cores := (List.range 7).map fun k =>
    (k, if gone.contains k then CoreState.retired else if k = 6 then (if roles.isEmpty then .off else .run) else .run)
  let s1 := (s.onSt fun t => { t with cores := cores, spareRole := if spare then roles.headD 7 else 7, down := down }).onTel fun t =>
    { t with logUp := !(down.contains 5) }
  if down.contains 5 then s1 else s1.handAudits

/-! ## Step 5: Ground store -/

/-- A channel as its training and its test leave it (R311): one that passes takes a state, one that fails is FAILED. CRH_GS_TG_STAT shows
the test. -/
def chTested (bad : List (Nat × TgRes)) (p : Nat) (good : PhysState) : Phys :=
  match bad.find? fun e => e.1 == p with
  | some e => if e.2.errors = 0 then Phys.tested {} {} good else Phys.tested {} e.2 good
  | none => Phys.tested {} {} good

/-- A channel in step 5: one that serves a logical channel trains and is tested, and is ACTIVE if it passes; a spare is still to train (R372). -/
def State.trainCh (s : State) (bad : List (Nat × TgRes)) (p : Nat) : Phys :=
  if (s.phys p).state == .failed then { state := .failed }
  else if (s.lchOf p).isSome then chTested bad p .active
  else { state := .training }

/-- A logical channel whose physical channel has failed: REPLACE or FOLD serves it, by the repair policy, and without either it holds no
pockets (R311, R319, Table 120; log entry 116). -/
def State.serveCh (s : State) (f : Nat) : State :=
  match s.pchOf f with
  | none => s
  | some p =>
    if (s.phys p).state != .failed then s
    else
      let s1 := s.channelAction f false
      match s1.gs.copies.find? fun c => c.lch == f with
      | some c => (s1.switchCh c none).onPhys p fun x => { x with state := .failed }
      | none => if s1.pchOf f == some p then s1.loseChannel f else s1.onPhys p fun x => { x with state := .failed }

/-- The lines that the tests of n channels write and read (R311, R322). -/
def State.tellLines (s : State) (n : Nat) : State :=
  s.tell [.count Ctr.gsLinesRead (n * (16 * Member.pockets s.fuses.member)), .count Ctr.gsLinesWritten (n * (16 * Member.pockets s.fuses.member))]

/-- Step 5: channels train and are tested, and no channel that fails enters service; each refreshes at the band 4 interval until its first
burst after step 6 (R304). -/
def State.trainGs (s : State) (bad : List (Nat × TgRes)) : State :=
  let ps := (List.range (Member.phys s.fuses.member)).map fun p => (p, s.trainCh bad p)
  let n := (ps.filter fun e => e.2.tgDone).length
  (s.tellLines n).onGs fun g => { g with phys := ps, scheds := (List.range s.chans).map fun l => (l, { ival := burstEvery 4 }) }

/-- After READY the spares train and are tested, and become SPARE (R311, R372); then the logical channels whose channel has failed its test
are served. -/
def State.trainSpares (s : State) (bad : List (Nat × TgRes)) : State :=
  State.forEach State.serveCh (List.range s.chans)
    ((s.tellLines (s.gs.phys.filter fun e => e.2.state == .training).length).onGs fun g => { g with phys := mmap g.phys fun p x => if x.state = .training then chTested bad p .spare else x })

/-! ## Step 7: ports -/

/-- Ports by number, as they trained; a member's missing ports train to nothing. -/
def trained (f : LinkRes → Port) (n : Nat) (rs : List LinkRes) : SMap Port := ((List.range n).zip rs).map fun e => (e.1, f e.2)

/-- The interfaces are released, and fabric ports train one after the other, with the credits that Larlyn gives each; where the sequence stops
in this step, only as far as the list of them goes, and one further, which stays in training. -/
def State.trainFab (s : State) (su : Startup) : State :=
  let n := Member.fabPorts s.fuses.member
  State.forEach (fun s n => s.fabBegin n ((su.credits[n]?).getD (0, 0)).1 ((su.credits[n]?).getD (0, 0)).2)
    (List.range (if su.portsOk then n else min n (su.credits.length + 1))) (s.onPw fun w => { w with selvedge := false, node := some su.node })

/-- Step 7: fabric ports, then CXL ports, then flash ports. -/
def State.trainPorts (s : State) (su : Startup) : State :=
  let m := s.fuses.member
  let cxl := trained portOf (Member.cxlPorts m) su.cxl
  let pcie := trained flashOf (Member.pciePorts m) su.pcie
  let s1 := (s.trainFab su).onPw fun w =>
    { w with cxl := cxl, pcie := pcie, cxlEnum := cxl.any fun e => e.2.up, fns := ((List.range cxl.length).zip su.cxl).map fun e => (e.1, fnOf e.2) }
  State.forEach (fun s e => s.noteTraining e.1 e.2) (cxl ++ pcie) s1

/-! ## The sequence (Table 100) -/

/-- Start-up stops in a step. -/
def State.stuck (s : State) (step fail : Nat) : State := s.onPw fun w => { w with step := step, fail := fail }

/-- An event of R378: its value, and the throttle level in force. -/
def State.pwrEvent (s : State) (code v : Nat) : TelOp := mkEvent code [(8, 4, v), (12, 4, s.throttleLevel)]

/-- An emergency is entered (R366, R367). -/
def State.enterEmerg (s : State) : State := s.tell [.count Ctr.emergEntries 1, s.pwrEvent 0xE03 1]

/-- Step 9: the block is READY in ACTIVE_P0, and its spare channels train. An emergency that Larlyn signals already is entered now (log
entry 62). -/
def State.goReady (s : State) (su : Startup) : State :=
  let s1 := (s.onPw fun w =>
    { w with step := 9, ready := true, fail := 0, readyMs := su.readyMs, pstate := .p0, gated := [], stepReq := false
             waits := none }).trainSpares su.badChs
  if s1.pw.emerg then s1.enterEmerg else s1

/-- Step 8 (R368): each gated slice group is un-gated in an exchange of PMH_STEP_REQ and PMH_STEP_GNT. Where the grants do not come at once,
start-up waits for each. -/
def State.stepEight (s : State) (su : Startup) : State :=
  if su.grants || s.pw.gated.isEmpty then
    ((s.sendAll (s.pw.gated.map fun _ => .stepReq)).countN Ctr.ungateSteps s.pw.gated.length).goReady su
  else ((s.onPw fun w => { w with stepReq := true, waits := some (su, false) }).send .stepReq).stuck 8 0

/-- Steps 5 to 9. -/
def State.startRest (s : State) (su : Startup) : State :=
  if !su.gsOk then s.stuck 5 3
  else
    let s1 := (s.trainGs su.badChs).trainPorts su
    if su.portsOk then s1.stepEight su else s1.stuck 7 4

/-- The boot flash switches to 8D-8D-8D, or stays in 1S-1S-1S, which is logged (R33). -/
def State.bootFlash (s : State) (ok : Bool) : State :=
  let s1 := s.onPw fun w => { w with octal := ok }
  if ok then s1 else s1.tell [.log 0 0 (Sys2Proof.Config.eventSeverity 8) (Sys2Proof.Config.logCode 8) (List.replicate 48 0)]

/-- Start-up from step 3, with the reference present; `hold` is RETURN_HOLD as it stood at the reset (R443). -/
def State.startOn (s : State) (su : Startup) (hold : Bool) : State :=
  let r := romRecord (s.st.governing su.bcrBad)
  let s1 := ((s.onSt fun t => t.romWrites su.bcrBad r.1).onPw fun w => { w with refOk := !w.refOff, waits := none }).bootFlash su.octal
  match s1.romBoots su r.2.1 r.2.2 with
  | .none => s1.stuck 3 1
  | .recovery =>
    let s2 := s1.onSt fun t => { t with recovery := true, slotB := false, trial := false }
    if su.cores then s2.startCores.stuck 4 1 else s2.stuck 4 2
  | .slot b trial =>
    let s2 := s1.onSt fun t => { t with recovery := false, slotB := b, trial := trial }
    if !su.cores then s2.stuck 4 2
    else if hold then s2.startCores.stuck 4 0
    else s2.startCores.startRest su

/-- Start-up from step 3: in step 2 it waits for PLL_AON to lock (R363), and with the reference stopped it waits for that (R375). -/
def State.startUp (s : State) (su : Startup) (hold : Bool) : State :=
  if s.pw.aonBad then s.stuck 2 0
  else if s.pw.refGone then (s.onPw fun w => { w with waits := some (su, hold) }).stuck 3 0
  else s.startOn su hold

/-! ## Resets -/

/-- A block reset with its cause (CRH_BOOT_STAT.LAST_RESET), and the start-up that follows. Firmware programs the waiting log records
before a reset that it causes (R384). -/
def State.blockReset (s : State) (cause : Nat) (firmware : Bool) (su : Startup) : State :=
  let hold := bitb s.st.makerCtl 1
  let s1 := if firmware then s.onTel Telem.program else s
  (s1.cleared.onPw fun w => { w with lastReset := cause }).startUp su hold

/-- Power-good on a block that is not fused absent: everything volatile starts afresh, the timestamp from 0. -/
def State.powerOn (s : State) (su : Startup) : State :=
  let c := s.cleared
  ((c.onTel fun t => { t with ts := 0 }).onPw fun w =>
    { w with rails := true, lastReset := 0, held := [], aonBad := !su.aonLock, aonOsc := w.refGone || !su.aonLock }).startUp su false

end Sys2Proof.Machine
end

