-- ==== Sys2Proof/Machine/Power.lean ====
section
/-!
DEFINITION. Clocks and power: clock faults (R361 to R363), the power-management handshake (R364 to R367, R439), slice gating (R368, R369),
resets (R372 to R376), and thermal samples and trips (R304, R306).
-/

namespace Sys2Proof.Machine

/-- The block is powered, not fused absent, and out of reset. -/
def State.awake (s : State) : Bool := s.pw.rails && !s.fuses.absent && !s.pw.tripped && !s.pw.byOff

/-! ## Power states (R364, R365, R439) -/

def pstateOf : Nat → PState
  | 1 => .standby | 2 => .p2 | 3 => .p1 | 4 => .p0 | _ => .off

/-- MAX_PSTATE: other values act as 4 (R437). -/
def State.maxPstate (s : State) : Nat :=
  let m := bitf s.st.policy 1 3
  if 1 ≤ m ∧ m ≤ 4 then m else 4

/-- Descriptors past the front end that are to complete before STANDBY. -/
def State.inFlight (s : State) : Bool :=
  s.fe.descs.any fun d => d.stage != .queued && d.stage != .headWait && d.stage != .heldRec && d.stage != .replay

/-- An exchange ends in a state: PMH_ACK, with its event and its count (R365, R378). In STANDBY the slices are power-gated. -/
def State.enterState (s : State) (t : Nat) : State :=
  let s1 := s.onPw fun w =>
    { w with pstate := pstateOf t, closing := false, gated := if t = 1 then Member.gated0 s.fuses.member else w.gated,
             stepReq := w.stepReq && t != 1 }
  (s1.tell [s1.pwrEvent 0xE04 t, .count Ctr.pstateChanges 1]).send (.pmhAck t)

/-- A request for a reserved state is acknowledged with no change (R365). -/
def State.reservedReq (s : State) : State := (s.count Ctr.pmhReserved).send (.pmhAck s.pw.pstate.num)

/-- Serve a request for STANDBY or an ACTIVE state; one above MAX_PSTATE is served as MAX_PSTATE and counted. STANDBY waits for the
descriptors in flight, and no further one passes meanwhile. -/
def State.serveState (s : State) (target : Nat) : State :=
  let s1 := if s.maxPstate < target then s.count Ctr.pmhCapped else s
  let t := min target s.maxPstate
  if t = 1 && s1.inFlight then s1.onPw fun w => { w with closing := true } else s1.enterState t

/-! ### OFF -/

/-- Write back what can be written back. -/
def State.writeAll (s : State) (fails : WbFails) : State :=
  let dirty := s.tb.tables.flatMap fun e => e.2.versions.flatMap fun v => (s.dirtyRows e.1 v.ver).map fun r => (e.1, v.ver, r)
  State.forEach (fun s (x : Nat × Nat × Nat) =>
    match s.version x.1 x.2.1 with
    | some (t, v) => (s.writeBackRow t v (keyOf x.1 x.2.2) (failOf fails (keyOf x.1 x.2.2))).1
    | none => s) dirty s

/-- Rows whose master record is dirty. -/
def State.dirtyCount (s : State) : Nat :=
  sumBy (fun e => sumBy (fun v => (s.dirtyRows e.1 v.ver).length) e.2.versions) s.tb.tables

/-- The record of the rows that OFF has lost, in the persistent log (R365). -/
def State.logLost (s : State) (n : Nat) : State :=
  if n = 0 then s
  else s.onTel fun t => ({ t with lseq := t.lseq + 1 }).persist
    { ts := t.ts, core := 5, kind := 0, sev := Sys2Proof.Config.eventSeverity 2, code := Sys2Proof.Config.logCode 6, lseq := t.lseq,
      args := leBytes 8 n ++ List.replicate 40 0 } true

/-- A fabric port is draining. -/
def State.anyDraining (s : State) : Bool :=
  (List.range (Member.fabPorts s.fuses.member)).any fun n => (s.fabPort n).status == .draining

/-- OFF is reached: dirty master records are written back, and the waiting log records are programmed; then PMH_ACK. -/
def State.enterOff (s : State) (fails : WbFails) : State :=
  let s2 := s.writeAll fails
  let s3 := (s2.logLost s2.dirtyCount).onTel Telem.program
  let up := (List.range (Member.fabPorts s.fuses.member)).filter fun n => (s3.fabPort n).status != .absent
  let s4 := (s3.sendAll (up.map fun n => .fabStatus n .absent)).tell [s3.pwrEvent 0xE04 0, .count Ctr.pstateChanges 1]
  (s4.send (.pmhAck 0)).cleared.onPw fun w => { w with byOff := true, held := [] }

/-- An exchange to OFF ends once every fabric port has drained (R24, R365). -/
def State.offEnd (s : State) : State :=
  match s.pw.off with
  | none => s
  | some fails => if s.anyDraining then s else s.enterOff fails

/-- OFF: each fabric port drains under R24, and the exchange is open until the last of them has. -/
def State.goOff (s : State) (fails : WbFails) : State :=
  ((State.forEach State.fabDrain (List.range (Member.fabPorts s.fuses.member)) s).onPw fun w => { w with off := some fails }).offEnd

/-! ### Requests -/

/-- An exchange on the handshake is open: to STANDBY or to OFF. -/
def State.exchanging (s : State) : Bool := s.pw.closing || s.pw.off.isSome

/-- Serve one request, or hold it: while another exchange is open, and, where it raises the operating point or leaves STANDBY, while
PMH_EMERG is asserted (R37, R367). -/
def State.pmhRequest (s : State) (target : Nat) (fails : WbFails) : State :=
  let hold := s.onPw fun w => { w with held := w.held ++ [target] }
  if !s.pw.ready || s.exchanging then hold
  else if s.pw.emerg && decide (s.pw.pstate.num < target) && decide (target ≤ 4) then hold
  else if 5 ≤ target then s.reservedReq
  else if target = 0 then s.goOff fails
  else s.serveState target

/-- Serve the requests that were held, in order, as far as they may be served now. -/
def State.serveHeld (s : State) : State :=
  State.forEach (fun s t => s.pmhRequest t []) s.pw.held (s.onPw fun w => { w with held := [] })

/-- The block is READY after a start-up: the held requests are served (R372). -/
def State.afterStart (s : State) : State := if s.pw.ready then s.serveHeld else s

/-- An open exchange ends where what it waited for has ended: the descriptors in flight, or the responses of the fabric ports; then the held
requests are served. -/
def State.endExchange (s : State) : State :=
  let s1 := s.fabSettle
  if s1.pw.off.isSome then s1.offEnd
  else if s1.pw.closing && !s1.inFlight then (s1.enterState 1).serveHeld
  else s1

/-- What a command that ends a descriptor or a response does to an exchange that was open before it (R365). -/
def State.rest (isOpen : Bool) (s : State) : State := if isOpen then s.endExchange else s

/-! ## Clock faults (R359, R361 to R363) -/

/-- A domain with a PLL of its own that a spare can replace, by its number in this member (R359, Table 97). -/
def State.hasPll (s : State) (d : Nat) : Bool :=
  let m := s.fuses.member
  let gs := 16 + Member.fabPorts m
  d == 7 || decide (9 ≤ d ∧ d ≤ 15) || decide (gs ≤ d ∧ d < gs + Member.groups m)

/-- A domain moves to a spare PLL; the hardware's audit record names it (R398). -/
def State.spared (s : State) (d : Nat) : State := (s.auditHw 0x8001 d).tell [s.pwrEvent 0xE02 d, .count Ctr.pllSpared 1]

/-- PLL_FAULT (R361): the lowest-numbered free spare PLL takes the domain; with none the block resets. -/
def State.pllFault (s : State) (d : Nat) (su : Startup) : State :=
  if !s.awake || !(s.hasPll d) then s
  else if s.pw.sp0.isNone then ((s.logSensor 10 d 0).onPw fun w => { w with sp0 := some d }).spared d
  else if s.pw.sp1.isNone then ((s.logSensor 10 d 0).onPw fun w => { w with sp1 := some d }).spared d
  else ((s.logSensor 10 d 0).blockReset 4 false su).afterStart

/-- PLL_FAULT. -/
def execPllFault (domain : Nat) (su : Startup) (s : State) : Host.Outcome State Fault Refusal := .next (s.pllFault domain su)

/-- The reference among the clock sensors: it has no PLL's number (log entry 54). -/
def refSensor : Nat := 0xFF

/-- REFERENCE_FAULT (R39, R362): a drift is told at once; a stop puts the PLLs in holdover and the always-on domain on the oscillator. While
the block is not in operation the clock monitor tells nothing, and the fault shows as the block starts. -/
def State.referenceFault (s : State) (stopped : Bool) : State :=
  if s.pw.refGone then s
  else
    let s0 := s.onPw fun w => { w with refGone := stopped, refOff := w.refOff || !stopped, aonOsc := w.aonOsc || stopped }
    if !s.awake then s0
    else
      let s1 := (s0.onPw fun w => { w with refOk := false, refDrift := true }).count Ctr.refFaults
      if stopped then s1.logSensor 10 refSensor 0 else s1.tell [s.pwrEvent 0xE01 0]

/-- REFERENCE_FAULT. -/
def execReferenceFault (stopped : Bool) (s : State) : Host.Outcome State Fault Refusal := .next (s.referenceFault stopped)

/-- The reference is good again. -/
def State.refGood (s : State) : State :=
  s.onPw fun w => { w with refGone := false, refOff := false, aonOsc := w.aonBad }

/-- REFERENCE_RETURN: within 1 ms the PLLs relock, and CLOCK_FAULT records the outage; a start-up that has waited for it goes on (R375). One
that had only drifted is good again (log entry 55). -/
def State.referenceReturn (s : State) (us : Nat) : State :=
  if !s.awake then s.refGood
  else if !s.pw.refGone then (if s.pw.refOff then s.refGood.onPw fun w => { w with refOk := true } else s)
  else if s.pw.step = 3 then
    match s.pw.waits with
    | some q => ((s.refGood.tell [s.pwrEvent 0xE01 us]).startOn q.1 q.2).afterStart
    | none => s.refGood
  else if 1000 < us then s
  else (s.refGood.onPw fun w => { w with refOk := true }).tell [s.pwrEvent 0xE01 us]

/-- REFERENCE_RETURN. -/
def execReferenceReturn (us : Nat) (s : State) : Host.Outcome State Fault Refusal := .next (s.referenceReturn us)

/-- REF_LOSS_TIMEOUT: a reference that has not returned within 1 ms resets the block. -/
def State.refLoss (s : State) (su : Startup) : State := if s.awake && s.pw.refGone then (s.blockReset 3 false su).afterStart else s

/-- REF_LOSS_TIMEOUT. -/
def execRefLossTimeout (su : Startup) (s : State) : Host.Outcome State Fault Refusal := .next (s.refLoss su)

/-- The burst intervals that run while the always-on domain is on the oscillator are one eighth shorter (R363; log entry 55). -/
def State.shortBursts (s : State) : State :=
  s.onGs fun g => { g with scheds := mmap g.scheds fun _ c => { c with ival := c.ival * 7 / 8 } }

/-- PLL_AON_FAULT (R363): a relock within 1 ms is recorded; else the block resets, and its start-up waits in step 2 until PLL_AON locks. -/
def State.pllAon (s : State) (locked : Bool) (us : Nat) (su : Startup) : State :=
  if !s.awake || s.pw.refGone then s
  else if s.pw.aonBad then
    if locked then ((s.onPw fun w => { w with aonBad := false, aonOsc := false }).startUp su false).afterStart else s
  else if locked then s.shortBursts.tell [s.pwrEvent 0xE01 us]
  else ((s.onPw fun w => { w with aonBad := true, aonOsc := true }).cleared.onPw fun w => { w with lastReset := 4 }).stuck 2 0

/-- PLL_AON_FAULT. -/
def execPllAonFault (locked : Bool) (us : Nat) (su : Startup) (s : State) : Host.Outcome State Fault Refusal :=
  .next (s.pllAon locked us su)

/-! ## The handshake's commands (R365 to R367) -/

/-- A request on the handshake: until READY, the time in reset after a trip included, and while an earlier exchange is open, it is held,
whatever the state that it will then meet (R37, R372); else `may` says whether the present state makes it the command's own. -/
def State.pmh (s : State) (target : Nat) (fails : WbFails) (may : Nat → Bool) : State :=
  if !s.pw.rails || s.fuses.absent || s.pw.byOff then s
  else if !s.pw.ready || s.exchanging then s.onPw fun w => { w with held := w.held ++ [target] }
  else if may s.pw.pstate.num then
    let r := s.pmhRequest target fails
    if r.exchanging || r.pw.byOff || s.pw.held.isEmpty then r else r.serveHeld
  else s

/-- The block leaves OFF through the start-up sequence, with cause PMH_OFF, and the exchange ends in the state asked for once it is READY. -/
def State.leaveOff (s : State) (target : Nat) (su : Startup) : State :=
  let r := (s.onPw fun w => { w with byOff := false, raise := none }).blockReset 6 false su
  if r.pw.ready then (r.pmhRequest target []).afterStart else r.onPw fun w => { w with held := target :: w.held }

/-- PMH_RAISE from OFF: held while PMH_EMERG is asserted (R367, R375). -/
def State.raiseOff (s : State) (target : Nat) (su : Startup) : State :=
  if s.pw.emerg then s.onPw fun w => { w with raise := some (target, su) } else s.leaveOff target su

/-- PMH_RAISE: a higher ACTIVE state. From OFF it starts the block again. -/
def execPmhRaise (target : Nat) (su : Startup) (s : State) : Host.Outcome State Fault Refusal :=
  .next (if s.pw.byOff then (if decide (1 ≤ target ∧ target ≤ 4) && s.pw.rails then s.raiseOff target su else s)
    else s.pmh target [] fun now => decide (2 ≤ now ∧ now < target ∧ target ≤ 4))

/-- PMH_LOWER. -/
def execPmhLower (target : Nat) (s : State) : Host.Outcome State Fault Refusal :=
  .next (s.pmh target [] fun now => decide (2 ≤ target ∧ target < now))

/-- PMH_ENTER_STANDBY. -/
def execPmhEnterStandby (s : State) : Host.Outcome State Fault Refusal := .next (s.pmh 1 [] fun now => decide (2 ≤ now))

/-- PMH_LEAVE_STANDBY. -/
def execPmhLeaveStandby (target : Nat) (s : State) : Host.Outcome State Fault Refusal :=
  .next (s.pmh target [] fun now => decide (now = 1 ∧ 2 ≤ target ∧ target ≤ 4))

/-- PMH_OFF. -/
def execPmhOff (fails : WbFails) (s : State) : Host.Outcome State Fault Refusal :=
  .next (s.pmh 0 fails fun _ => true)

/-- RESERVED_STATE_REQUEST. -/
def execReservedStateRequest (target : Nat) (s : State) : Host.Outcome State Fault Refusal :=
  .next (s.pmh target [] fun _ => decide (5 ≤ target ∧ target ≤ 7))

/-! ## Emergencies (R366, R367) -/

/-- PMH_EMERG is asserted: the block enters the emergency at once, or, asserted before READY, as it becomes READY. -/
def State.emergAssert (s : State) : State :=
  if s.pw.emerg then s
  else
    let s1 := s.onPw fun w => { w with emerg := true }
    if s.pw.ready then s1.enterEmerg else s1

/-- PMH_EMERG_ASSERT. -/
def execPmhEmergAssert (s : State) : Host.Outcome State Fault Refusal := .next s.emergAssert

/-- PMH_EMERG falls: what it held is served. -/
def State.emergRelease (s : State) : State :=
  if !s.pw.emerg then s
  else
    let s1 := s.onPw fun w => { w with emerg := false }
    if s.pw.ready then (s1.tell [s1.pwrEvent 0xE03 0]).afterStart
    else match s1.pw.raise with
      | some q => s1.leaveOff q.1 q.2
      | none => s1

/-- PMH_EMERG_RELEASE. -/
def execPmhEmergRelease (s : State) : Host.Outcome State Fault Refusal := .next s.emergRelease

/-! ## Slice groups (R368, R369) -/

/-- PMH_STEP_GNT: the lowest gated group is un-gated, and the next request is raised while groups are gated; with the last of step 8 the block
is READY (Table 100). -/
def State.stepGrant (s : State) : State :=
  if !s.pw.stepReq then s
  else match s.pw.gated with
    | [] => s.onPw fun w => { w with stepReq := false }
    | _ :: rest =>
      let s1 := (s.onPw fun w => { w with gated := rest, stepReq := !rest.isEmpty }).count Ctr.ungateSteps
      if !rest.isEmpty then s1.send .stepReq
      else match s.pw.waits with
        | some q => (s1.goReady q.1).afterStart
        | none => s1

/-- PMH_STEP_GNT. -/
def execPmhStepGnt (s : State) : Host.Outcome State Fault Refusal := .next s.stepGrant

/-- A tile of a block has not drained. -/
def PWin.undrained (w : PWin) (b : Block) : Bool :=
  w.members.any fun p => p.mem.id == b.id && !(p.drained.contains (b.tile.pos, b.tile.tile))

/-- A slice group is at work: a tile on it has not drained, or is held. -/
def State.groupWork (s : State) (g : Nat) : Bool :=
  (s.sp.pwins.any fun w => w.placed && (s.blocks w).any fun b => b.tile.pos / 8 == g && w.undrained b) ||
  s.sp.tiles.any fun e => e.2.held && e.2.poss.any fun x => x / 8 == g

/-- SLICE_GROUP_GATE (R369): a group has been quiet for GATE_IDLE µs, and each group above it that had been, is gated already. Others may be
at work. -/
def State.gateGroup (s : State) (g : Nat) : State :=
  if !s.passing || bitf (s.cfg Reg.pwrCtl) 0 16 = 0 || s.groupWork g || decide (Member.groups s.fuses.member ≤ g) || s.pw.gated.contains g then s
  else s.onPw fun w => { w with gated := insSorted (fun a b => decide (a ≤ b)) g w.gated }

/-- SLICE_GROUP_GATE. -/
def execSliceGroupGate (group : Nat) (s : State) : Host.Outcome State Fault Refusal := .next (s.gateGroup group)

/-! ## Resets (R42, R372, R373, R376) -/

/-- POWER_GOOD: the fuses are read; a fused-absent block stops, any other starts. -/
def execPowerGood (su : Startup) (s : State) : Host.Outcome State Fault Refusal :=
  .next (if s.pw.rails then s
    else if s.fuses.absent then s.onPw fun w => { w with rails := true, step := 1 }
    else (s.powerOn su).afterStart)

/-- BLOCK_RESET_CMD: BLOCK of CRH_RESET_CMD, with installer authority and an audit record (R376, R399, Table 128). -/
def State.resetBlock (s : State) (p : Path) (su : Startup) : State :=
  match s.gate p Reg.resetCmd 2 with
  | .absent => s
  | .shut => s.shutOut
  | .ignored => s.ignoreWrite
  | .denied => s.denyWrite p Reg.resetCmd 1
  | .open' => if s.auditFull then s.auditReg p Reg.resetCmd 8 1 else ((s.auditReg p Reg.resetCmd 0 1).blockReset 1 true su).afterStart

/-- BLOCK_RESET_CMD. -/
def execBlockResetCmd (p : Path) (su : Startup) (s : State) : Host.Outcome State Fault Refusal := .next (s.resetBlock p su)

/-- TAP_RESET: the JTAG port alone goes to Test-Logic-Reset, where its instruction is identification (R36, R373). -/
def execTapReset (s : State) : Host.Outcome State Fault Refusal := .next (s.onPw fun w => { w with tap := w.tap.reset })

/-- POWER_LOSS (R40): everything that boot flash and fuses do not keep is lost, and the boundary shows the idle state. -/
def execPowerLoss (s : State) : Host.Outcome State Fault Refusal :=
  .next (s.cleared.onPw fun w => { w with rails := false, held := [], tap := {}, aonBad := false, aonOsc := w.refGone })

/-! ## Temperatures (R304, R306) -/

/-- Upper bounds of bands 0 to 3, in quarter degrees (Table 79). -/
def bandTop : Nat → Nat
  | 0 => 240 | 1 => 300 | 2 => 360 | _ => 420

/-- The band of a temperature. -/
def bandOfTemp (t : Nat) : Nat := if t ≤ 240 then 0 else if t ≤ 300 then 1 else if t ≤ 360 then 2 else if t ≤ 420 then 3 else 4

/-- A lower band is entered only at least 3 °C below the lower bound of the band that is left; the fuel is the band. -/
def coolTo (t : Nat) : Nat → Nat
  | 0 => 0
  | b + 1 => if t + 12 ≤ bandTop b then coolTo t b else b + 1

/-- The band after a sample (R304). -/
def nextBand (b t : Nat) : Nat := if b < bandOfTemp t then bandOfTemp t else coolTo t b

/-- The throttle of a group (R306): 0, 1 up to 110 °C, 2 above. -/
def throttleOf (band t : Nat) : Nat := if band < 4 then 0 else if t ≤ 440 then 1 else 2

/-- Physical channels that belong to a group: those that serve its logical channels. -/
def State.groupChs (s : State) (g : Nat) : List Nat := ((List.range 8).map (8 * g + ·)).filterMap s.pchOf

/-- A sample of one group. -/
def State.groupSample (s : State) (g t : Nat) : State :=
  match s.groupChs g with
  | [] => s
  | p :: rest =>
    let x := s.phys p
    let b := nextBand x.band t
    let th := throttleOf b t
    let s1 := State.forEach (fun s q => s.onPhys q fun y => { y with band := b, throttle := th, temp := t }) (p :: rest) s
    s1.tell ([TelOp.count Ctr.bandRaises (b2n (decide (x.band < b)))] ++
      (if th = x.throttle then [] else [s1.gsEvent 0xB01 (some (8 * g)) p (s1.phys p).level 0 0 0]))

/-- A trip (R306): the block enters reset and stays there; waiting log records are lost (R384). -/
def State.trip (s : State) : State := s.cleared.onPw fun w => { w with tripped := true, lastReset := 2 }

/-- The limit of a thermal sensor in quarter degrees: 105 °C, above which Table 79 ends its retention bands and R306 throttles. R381 gives none
(DESIGN CHOICE; log entry 54). -/
def hotLimit : Nat := 420

/-- THERMAL_SAMPLE: every 100 µs; four sensors for each channel group, in quarter degrees. After a trip, start-up resumes once every
sensor reads below 100 °C (R373). -/
def State.thermalSample (s : State) (temps : List Nat) (su : Startup) : State :=
  if !s.pw.rails || s.fuses.absent || s.pw.byOff then s
  else if s.pw.tripped then
    if temps.all fun t => decide (t < 400) then ((s.onPw fun w => { w with tripped := false }).startUp su false).afterStart else s
  else if temps.any fun t => decide (460 ≤ t) then s.trip
  else
    let top := fun (g : Nat) => ((temps.drop (4 * g)).take 4).foldl max 0
    let hot := (List.range temps.length).filter fun i => decide (hotLimit < (temps[i]?).getD 0)
    let s1 := State.forEach (fun s i => s.logSensor 9 i ((temps[i]?).getD 0)) hot (s.onSt fun t => { t with temps := temps })
    State.forEach (fun s g => s.groupSample g (top g)) (List.range (min (Member.groups s.fuses.member) ((temps.length + 3) / 4))) s1

/-- THERMAL_SAMPLE. -/
def execThermalSample (temps : List Nat) (su : Startup) (s : State) : Host.Outcome State Fault Refusal := .next (s.thermalSample temps su)

/-- THERMAL_TRIP. -/
def execThermalTrip (s : State) : Host.Outcome State Fault Refusal := .next (if s.awake then s.trip else s)

end Sys2Proof.Machine
end

