-- ==== Sys2Proof/Machine/Translate.lean ====
section
/-!
DEFINITION. Translations: ATS completions, page responses (R99 to R105, R110, R111), invalidations (R108, R109), driver structures
(R107), the completion timeout of a host read (R28, R104), and PRI (R103).
-/

namespace Sys2Proof.Machine

/-- The events of R115: context, port, address. -/
def xlateEvent (code ctx port addr : Nat) : TelOp := mkEvent code [(8, 4, ctx), (12, 4, port), (24, 8, addr)]

/-! ## ATS_TRANSLATION_COMPLETION -/

/-- Fill run-ahead pages until one is dropped, in this request or in another of its advised range (R110, R111). -/
def State.fillAhead (s : State) (a : Ahead) (xs : List Xlate) : Nat → Nat → State
  | 0, _ => s
  | n + 1, i =>
    let iova := a.iova + 4096 * i
    let mine := fun (g : Advised) => g.ctx == a.ctx && decide (g.va ≤ a.va ∧ a.va < g.va + g.len)
    let refuse := fun (s : State) =>
      s.onXl fun x => { x with advised := x.advised.map fun g => if mine g then { g with ended := true } else g }
    if s.xl.advised.any fun g => mine g && g.ended then s
    else match xs.find? fun x => x.port == a.port && pageLog x.log2 && x.iova / 2 ^ x.log2 == iova / 2 ^ x.log2 with
    | none => refuse (s.count Ctr.raDropRefused)
    | some x =>
      if (a.needR && !x.r) || (a.needW && !x.w) then refuse (s.count Ctr.raDropUnmapped)
      else
        let e : XEntry := { port := x.port, pasid := a.pasid, iova := x.iova / 2 ^ x.log2 * 2 ^ x.log2, log2 := x.log2, r := x.r,
                            w := x.w, hpa := x.hpa / 2 ^ x.log2 * 2 ^ x.log2, ahead := true }
        let g : PageRef := { off := 0, port := a.port, iova := iova, r := a.needR, w := a.needW, pinned := true }
        let s1 := if s.xl.xc.any fun y => y.suffices a.pasid g then s else s.onXl fun t => t.fillX e
        State.fillAhead s1 a xs n (i + 1)

/-- ATS_TRANSLATION_COMPLETION: for a descriptor, or for a run-ahead. -/
def State.atsDone (s : State) (id : Nat) (xs : List Xlate) : State :=
  match s.xl.ahead.find? fun a => a.id == id with
  | some a => (s.onXl fun x => { x with ahead := x.ahead.filter fun b => b.id != id }).fillAhead a xs a.pages 0
  | none =>
    match s.desc id with
    | none => s
    | some d => if d.ats then (s.takeXlates d xs).prick id else s

/-- ATS_TRANSLATION_COMPLETION. -/
def execAtsTranslationCompletion (id : Nat) (xs : List Xlate) (s : State) : Host.Outcome State Fault Refusal :=
  .next (s.atsDone id xs)

/-! ## Page responses (R103) -/

/-- The access of a descriptor's page request faults: the pages that it named lack the permission, and no second request names them
(prickLack). -/
def State.priFault (s : State) (id : Nat) : State := s.prick id

/-- The pages are translated again after a Success response: those that still lack the permission make the access fault. -/
def State.priAgain (s : State) (id : Nat) (xs : List Xlate) : State :=
  match s.desc id with
  | none => s
  | some d =>
    match d.ranges[d.askR]? with
    | none => s
    | some r =>
      let d1 := { d.setRange d.askR { r with lack := [] } with askP := r.lack }
      let pages := (r.pages (s.portFor d r)).filter fun (g : PageRef) => r.lack.contains g.off
      let s1 := ((s.setDesc d1).countN Ctr.xcMiss pages.length).sendAts id (s.ctxPasid d.ctx) pages
      (s1.takeXlates d1 xs).prick id

/-- A page request group is answered or given up: it is outstanding no longer. -/
def State.priClose (s : State) (id : Nat) : State := s.onXl fun x => { x with pri := x.pri.filter fun e => e.1 != id }

/-- PAGE_RESPONSE. -/
def State.pageResp (s : State) (id : Nat) (code : PageResp) (xs : List Xlate) : State :=
  if !(s.xl.pri.any fun e => e.1 == id) then s
  else
    let s1 := s.priClose id
    let port := match s.desc id with
      | some d => (s.ring d.ring).home
      | none => 0
    let ctx := match s.desc id with
      | some d => d.ctx
      | none => 0
    let open' := (s.desc id).bind fun d => d.ranges[d.askR]?
    let addr := match open' with
      | some r => r.va.toNat + r.lack.foldl min (r.lack.headD 0)
      | none => 0
    (match code with
      | .success => s1.priAgain id xs
      | .invalid => (s1.count Ctr.priRefused).priFault id
      | .failure =>
        let s2 := (s1.count Ctr.priRefused).onXl fun x => { x with priStop := if x.priStop.contains port then x.priStop else port :: x.priStop }
        (s2.tell [xlateEvent 0x402 ctx port addr]).priFault id).retryParked

/-- PAGE_RESPONSE. -/
def execPageResponse (id : Nat) (code : PageResp) (xs : List Xlate) (s : State) : Host.Outcome State Fault Refusal :=
  .next (s.pageResp id code xs)

/-- PAGE_RESPONSE_TIMEOUT: no response within PRI_TMO ms. -/
def execPageResponseTimeout (id : Nat) (s : State) : Host.Outcome State Fault Refusal :=
  .next (if s.xl.pri.any fun e => e.1 == id then ((((s.priClose id).count Ctr.priTimeout).priFault id).retryParked) else s)

/-! ## The park (R102) -/

/-- PARK_ENTRY_FREE: the descriptor that waits at the ring's head enters the park, and its ring goes on. -/
def State.parkFree (s : State) (k : Nat) : State :=
  match (s.ringDescs k).find? fun d => d.stage == .headWait with
  | none => s
  | some d =>
    if s.fe.park.length ≥ 256 then s
    else
      let s1 := (s.setDesc { d with stage := .parked }).onFe fun f => { f with park := f.park ++ [d.id] }
      (s1.reserveAll (s.ring k).cplRing).announce k

/-- PARK_ENTRY_FREE. -/
def execParkEntryFree (ring : Nat) (s : State) : Host.Outcome State Fault Refusal := .next (s.parkFree ring)

/-! ## Invalidations (R108, R109) -/

/-- An entry overlaps a range of IOVAs. -/
def XEntry.overlaps (e : XEntry) (port pasid iova len : Nat) : Bool :=
  e.port == port && e.pasid == pasid && decide (e.iova < iova + len ∧ iova < e.iova + 2 ^ e.log2)

/-- Descriptors that may have a transfer in flight through an entry they pin (log entry 107). -/
def Desc.moving (d : Desc) : Bool :=
  d.stage == .window || d.stage == .pooling || d.stage == .bulk

/-- Prick again a descriptor that has pinned entries now stale, page by page as far as they are still to be used (R108 step 2). One that
waits for an answer of the host goes on when the answer is there. -/
def State.translateAgain (s : State) (id : Nat) : State :=
  (s.onDesc id fun d => { d with ranges := d.ranges.map fun r => if r.opens then { r with known := false } else r }).prick id

/-- INVALIDATE_REQUEST: overlapping entries become stale, and nothing is issued through them any more; the descriptors that pinned them
translate the pages still to come again; those that may have issued something through them are waited for too. The block works on up to
32 at once (R28); a further request is dropped, and nothing answers it (log entry 108). None comes on a port that is down: the selvedge
cells hold its inputs (R20, R40). -/
def State.invalRequest (s : State) (port tag pasid iova len : Nat) : State :=
  if decide (32 ≤ s.xl.invals.length) || !(s.cxlUp port) || s.pw.selvedge then s
  else
    let hit := s.xl.xc.filter fun e => e.overlaps port pasid iova len
    let ids := dedup (hit.flatMap (·.pins))
    let wait := ids.filter fun i => ((s.desc i).map Desc.moving).getD false
    let s1 := s.onXl fun x =>
      { x with xc := x.xc.map fun e =>
          if e.overlaps port pasid iova len then { e with stale := true, pins := e.pins.filter fun i => wait.contains i } else e
               invals := x.invals ++ [{ port := port, tag := tag, pasid := pasid, iova := iova, len := len, waits := wait }] }
    State.forEach State.translateAgain ids (s1.count Ctr.invalRcvd)

/-- INVALIDATE_REQUEST. -/
def execInvalidateRequest (port tag pasid iova len : Nat) (s : State) : Host.Outcome State Fault Refusal :=
  .next (s.invalRequest port tag pasid iova len)

/-- The Invalidate Completion is sent and the stale entries are freed; the descriptors that held them go on with their translations, for
which there is room again (R108). -/
def State.invalEnd (s : State) (v : Inval) : State :=
  let mine := fun (e : XEntry) => e.stale && e.overlaps v.port v.pasid v.iova v.len
  let ids := dedup ((s.xl.xc.filter mine).flatMap (·.pins))
  let s1 := (s.onXl fun x =>
    { x with xc := x.xc.filter fun e => !mine e
             invals := x.invals.filter fun i => !(i.port == v.port && i.tag == v.tag) }).send (.invalDone v.port v.tag)
  State.forEach State.translateAgain ids s1

/-- INVALIDATE_DRAINED: every request issued through a stale entry has drained. -/
def State.invalDrained (s : State) (port tag : Nat) : State :=
  match s.xl.invals.find? fun i => i.port == port && i.tag == tag with
  | none => s
  | some v => (s.invalEnd v).retryParked

/-- INVALIDATE_DRAINED. -/
def execInvalidateDrained (port tag : Nat) (s : State) : Host.Outcome State Fault Refusal := .next (s.invalDrained port tag)

/-- An entry that an invalidation has made stale holds a page that a descriptor has pinned. -/
def State.staleAt (s : State) (v : Inval) (d : Desc) (g : PageRef) : Bool :=
  s.xl.xc.any fun e => e.stale && e.pins.contains d.id && e.overlaps v.port v.pasid v.iova v.len &&
    (XEntry.covers { e with stale := false, old := false } (s.ctxPasid d.ctx) g)

/-- The range of a descriptor that an invalidation stops: the first with a page held by a stale entry; where those pages have all been
passed, the range whose transfer is under way. -/
def State.staleRange (s : State) (v : Inval) (d : Desc) : Option Range :=
  match d.ranges.find? fun r => r.opens && (r.pages (s.portFor d r)).any fun (g : PageRef) => s.staleAt v d g with
  | some r => some r
  | none => d.ranges.find? fun r => r.opens && decide (r.sent < Range.stopOff r)

/-- The transfers of the kind give part of their bytes where they are stopped (Table 29): results and bulk movement. -/
def RangeKind.gives (k : RangeKind) : Bool := k == .result || k == .bulkDst || k == .bulkSrc

/-- Stop a descriptor's transfers with a status (R109, R104); `part` says that DONE counts bytes delivered, not input bytes read. -/
def State.stopMoving (s : State) (id : Nat) (st : BitVec 8) (done : Nat) (addr : Word64) (part : Bool) : State :=
  (s.abandon id).settle id fun x =>
    { x with status := st, detail := 0, done := done, info := addr, inl := [],
             flags := withFlag x.flags Fl.partial' (part && decide (done > 0)) }

/-- A descriptor is stopped by an invalidation: the range that it stops gives DONE and the address (R109). -/
def State.invalDesc (v : Inval) (s : State) (id : Nat) : State :=
  match s.desc id with
  | none => s
  | some d => match s.staleRange v d with
    | none => s.stopMoving id St.xlateAbort 0 ((d.ranges.head?.map Range.va).getD 0) false
    | some r => s.stopMoving id St.xlateAbort r.sent (r.va + BitVec.ofNat 64 r.sent) r.kind.gives

/-- INVAL_ABORT: what has not drained within 100 µs is stopped with XLATE_ABORT. The event names the context of the first descriptor
that is stopped, where several are (log entry 109). -/
def State.invalStop (s : State) (port tag : Nat) : State :=
  match s.xl.invals.find? fun i => i.port == port && i.tag == tag with
  | none => s
  | some v =>
    if v.waits.isEmpty then s
    else
      let ctx := ((v.waits.head?.bind s.desc).map Desc.ctx).getD 0
      let s1 := State.forEach (State.invalDesc v) v.waits s
      (s1.invalEnd v).tell [.count Ctr.invalAbort 1, xlateEvent 0x403 ctx port v.iova]

/-- INVAL_ABORT. -/
def execInvalAbort (port tag : Nat) (s : State) : Host.Outcome State Fault Refusal := .next (s.invalStop port tag)

/-! ## Driver structures (R107) -/

/-- CONS_IDX of a host ring is due (R46). -/
def Ring.consDue (r : Ring) : Bool :=
  r.typ == .hostDesc && r.wbSince != 0 && (decide (64 ≤ r.wbSince) || r.idx == r.pub)

/-- What a driver structure has held up goes on: the consumer indices that are due, the lines and mirror blocks to be read, the turn of
a ring. -/
def State.driverBack (s : State) (which : Nat) : State :=
  if which = 0 then State.forEach (fun s k => if (s.ring k).consDue then s.writeCons k else s) (s.fe.rings.map (·.1)) s
  else if which = 1 then State.forEach (fun s e => if e.2.valid then s else s.readLine e.1 e.2) s.fe.lines s
  else if which = 2 then State.forEach (fun s m => s.readMirror m.1 m.2) s.xl.mirror s
  else s.announce (which - 3)

/-- XLATE_DRIVER_RETRY: a driver structure's translation is tried; it fails with one event, and the structure stands still, until one
succeeds. -/
def State.driverRetry (s : State) (which port : Nat) (iova : Word64) (ok : Bool) : State :=
  if ok then
    (if s.drvFails which then (s.onXl fun x => { x with drvFault := x.drvFault.filter fun w => w != which }).driverBack which else s)
  else if s.xl.drvFault.contains which then s
  else (s.onXl fun x => { x with drvFault := which :: x.drvFault }).tell [xlateEvent 0x401 0xFFFFFFFF port iova.toNat]

/-- XLATE_DRIVER_RETRY. -/
def execXlateDriverRetry (which port : Nat) (iova : Word64) (ok : Bool) (s : State) : Host.Outcome State Fault Refusal :=
  .next (s.driverRetry which port iova ok)

/-! ## DMA_TIMEOUT (R28, R104) -/

/-- A descriptor that reads host memory: it has a host source range and is past the front end, its outcome open. -/
def Desc.reads (d : Desc) : Bool :=
  (d.stage == .parked || d.stage == .ready || d.stage == .window || d.stage == .reserve || d.stage == .bulk) &&
    d.ranges.any fun r => !r.fabric && (r.kind == .input || r.kind == .bulkSrc)

/-- Bytes that a bulk descriptor has moved. -/
def State.bulkMoved (s : State) (id : Nat) : Nat := ((s.fl.bulk.find? fun b => b.id == id).map (·.moved)).getD 0

/-- The function of a host port sets the AER status bits of an error (R28; log entry 145). -/
def State.aerSet (s : State) (p kind : Nat) : State :=
  s.onPw fun w => { w with fns := mset w.fns p (let f := mgetD w.fns p {}; { f with aer := f.aer ||| Sys2Proof.Config.aerBits kind }) }

/-- DMA_TIMEOUT: a host read passes 50 ms; `done` bytes were read before `addr` (Table 29). -/
def State.dmaTimeout (s : State) (id done : Nat) (addr : Word64) : State :=
  match s.desc id with
  | none => s
  | some d =>
    if d.reads then
      let bulk := d.ranges.any fun r => r.kind == .bulkSrc
      (s.aerSet (s.ring d.ring).home 0).stopMoving id St.dmaTimeout (if bulk then s.bulkMoved id else done) addr bulk
    else s

/-- DMA_TIMEOUT. -/
def execDmaTimeout (id : Nat) (done : Nat) (addr : Word64) (s : State) : Host.Outcome State Fault Refusal :=
  .next (s.dmaTimeout id done addr)

/-! ## PRI (R103) -/

/-- PRI_CAPABILITY_ENABLE: page requests of the function resume. -/
def execPriCapabilityEnable (port : Nat) (s : State) : Host.Outcome State Fault Refusal :=
  .next ((s.onXl fun x => { x with priStop := x.priStop.filter fun q => q != port }).retryParked)

end Sys2Proof.Machine
end

