-- ==== Sys2Proof/Machine/Handover.lean ====
section
/-!
DEFINITION. The hand-over of the front end to the standby queue/translation engine (R419).
-/

namespace Sys2Proof.Machine

/-- Step 2: the standby's segment and translation caches are empty; an entry that a descriptor past the front end pins is kept for the
transfers in flight through it, and translates nothing further. -/
def Translation.emptied (x : Translation) (again : List Nat) : Translation :=
  let xc := x.xc.map fun e => { e with pins := e.pins.filter (fun i => !(again.contains i)) }
  { { x with xc := xc }.retire (fun _ => true) with segs := [], mirror := [], mirrorOld := [], ahead := [] }

/-- A descriptor whose pricking starts afresh. -/
def Desc.repricked (d : Desc) : Desc :=
  { d with mirror := false, seen := false, ats := false, ranges := d.ranges.map fun r => { kind := r.kind, va := r.va, len := r.len, pri := r.pri } }

/-- Step 3: every held eyelet line is taken again; its words are compared when it returns (R60). -/
def State.retakeLines (s : State) : State :=
  State.forEach (fun s e => s.readLine e.1 e.2) s.fe.lines
    (s.onFe fun f => { f with lines := mmap f.lines fun _ x => { x with valid := false, snooped := false } })

/-- Step 4: an outstanding Invalidate Request waits for every host request issued before the hand-over. -/
def State.holdInvals (s : State) : State :=
  let ids := (s.fe.descs.filter Desc.moving).map fun d => d.id
  s.onXl fun x => { x with invals := x.invals.map fun v => { v with waits := dedup (v.waits ++ ids) } }

/-- A descriptor that the front end holds, with its completion space reserved. -/
def Desc.queuedYet (d : Desc) : Bool := d.stage == .headWait || d.stage == .parked || d.stage == .ready

/-- Descriptors whose entries of the queued descriptor store fail their check in both engines end with DATA_ERROR (Table 118). -/
def State.loseQueued (s : State) (lost : List Nat) : State :=
  State.forEach (fun s id =>
    match s.desc id with
    | some d =>
      if d.queuedYet then ((s.countN Ctr.parSram 4).abandon id).endDesc id St.dataError 0 0 0
      else if d.stage == .queued && d.status = St.ok then (s.countN Ctr.parSram 4).onDesc id fun x => { x with status := St.dataError }
      else s
    | none => s) lost s

/-- The standby takes over; `passes` says that the failed engine then passes its test. -/
def State.handover (s : State) (us : Nat) (passes : Bool) : State :=
  let again := (s.fe.descs.filter fun d => d.stage == .parked || d.stage == .headWait).map fun d => d.id
  let s1 := (s.onXl fun x => x.emptied again).onFe fun f =>
    { f with descs := f.descs.map fun d => if again.contains d.id then d.repricked else d }
  let s2 := State.forEach State.prick again s1
  let s3 := s2.retakeLines.holdInvals.onRl fun r => { r with engine := !r.engine, standby := passes }
  let s4 := (s3.auditHw 0x800C (b2n s3.rl.engine)).tell [.count Ctr.qxHandovers 1, mkEvent 0x1003 [(8, 4, us)]]
  if passes then s4 else s4.reduce 2 1

/-- QX_HANDOVER: with no standby the fault resets the block (Table 120). -/
def State.qxFault (s : State) (us : Nat) (lost : List Nat) (passes : Bool) (su : Startup) : State :=
  if !s.awake || !s.pw.ready then s
  else if s.rl.standby then (s.loseQueued lost).handover us passes
  else (s.blockReset 5 false su).afterStart

/-- QX_HANDOVER. -/
def execQxHandover (us : Nat) (take : Takeover) (su : Startup) (s : State) : Host.Outcome State Fault Refusal :=
  .next (s.qxFault us take.lost take.passes su)

end Sys2Proof.Machine
end

