-- ==== Sys2Proof/Machine/Cores.lean ====
section
/-!
DEFINITION. Steta's cores: restart, retirement and hand-over (R392 to R394), MPU faults (R380), voltage samples (R381), and the
programming of the persistent log (R384).
-/

namespace Sys2Proof.Machine

/-! ## Restart causes, as the model numbers them (log entry 72) -/

def Cause.watchdog : Nat := 0
def Cause.mpu : Nat := 1
def Cause.double : Nat := 2
def Cause.command : Nat := 3
def Cause.activation : Nat := 4

/-- The role that a core holds (Table 105); core 6's is the one moved onto it. -/
def State.roleOf (s : State) (k : Nat) : Option Nat :=
  if k < 6 then some k else if k = 6 && decide (s.st.spareRole < 6) then some s.st.spareRole else none

def State.coreState (s : State) (k : Nat) : CoreState := mgetD s.st.cores k .off

def State.setCore (s : State) (k : Nat) (c : CoreState) : State := s.onSt fun t => { t with cores := mset t.cores k c }

/-- Step 1 and 2 of a restart: the core is halted, and its crash record is written. -/
def State.haltCore (s : State) (k cause : Nat) (pc : Word64) : State :=
  let s1 := s.setCore k .restart
  let s2 := s1.onSt fun t =>
    { t with times := mset t.times k (s.tel.ts :: mgetD t.times k []), crashes := (k, pc, cause) :: t.crashes }
  let s3 := if s.roleOf k = some 5 then s2.onTel fun t => { t with logUp := false } else s2
  s3.tell [.count Ctr.coreRestarts 1,
           .log k 0 4 (Sys2Proof.Config.logCode 5) (leBytes 8 pc.toNat ++ leBytes 8 cause ++ List.replicate 32 0)]

/-- A role's functions go on: log records and authority writes that waited are taken (R393), and channel actions that were triggered meanwhile start
(R302). -/
def State.roleBack (s : State) (r : Nat) : State :=
  if r = 5 then ((s.onTel fun t => { t with logUp := true }).tell [.drain]).handAudits
  else if r = 0 then s.authDrain
  else if r = 3 then s.runDue
  else s

/-- The ASEQ of the audit record that the command behind a restart makes next, in an event (R405). -/
def State.restartSeq (s : State) (cause : Nat) : Nat := if cause = Cause.command then s.st.aseq else 0

/-- Steps 3 and 4 of a restart: the core runs again. -/
def State.resumeCore (s : State) (k cause : Nat) : State :=
  let s1 := (s.setCore k .run).tell [mkEvent 0xF01 [(8, 4, k), (12, 4, cause), (16, 8, s.restartSeq cause)]]
  match s.roleOf k with
  | some r => s1.roleBack r
  | none => s1

/-- The record of a retirement, in the persistent log (R394). -/
def State.logRetired (s : State) (k : Nat) : State :=
  s.onTel fun t => ({ t with lseq := t.lseq + 1 }).persist
    { ts := t.ts, core := 1, kind := 0, sev := Sys2Proof.Config.eventSeverity 3, code := Sys2Proof.Config.logCode 7, lseq := t.lseq,
      args := leBytes 8 k ++ List.replicate 40 0 } true

/-- Core 6 takes a role. -/
def State.spareCore (s : State) (k r cause : Nat) : State :=
  let s1 := (((s.setCore 6 .run).onSt fun t => { t with spareRole := r }).roleBack r).auditHw 0x800E k
  s1.tell [mkEvent 0xF02 [(8, 4, k), (12, 4, cause), (16, 8, if s1.st.aseq = s.st.aseq then 0 else s.st.aseq)]]

/-- A role stays down. -/
def State.dropRole (s : State) (k r cause : Nat) : State :=
  let s1 := (s.onSt fun t => { t with down := r :: t.down, spareRole := if k = 6 then 7 else t.spareRole }).tell
    [mkEvent 0xF03 [(8, 4, k), (12, 4, cause), (16, 8, s.restartSeq cause)]]
  s1.reduce 3 s1.st.down.length

/-- A core is retired (R394). -/
def State.retireCore (s : State) (k cause : Nat) : State :=
  let s1 := (s.setCore k .retired).logRetired k
  match s.roleOf k with
  | none => s1
  | some r => if k < 6 && s.st.spareRole == 7 && s.coreState 6 != .retired then s1.spareCore k r cause else s1.dropRole k r cause

/-- The restarts of a core within the last 10 minutes. -/
def State.recentRestarts (s : State) (k : Nat) : Nat := ((mgetD s.st.times k []).filter fun t => s.tel.within t minute10).length

/-- A whole restart of a core: halted, then running again, or retired at the third within 10 minutes. -/
def State.cycleCore (s : State) (k cause : Nat) (pc : Word64) : State :=
  let s1 := s.haltCore k cause pc
  if k ≠ 0 && decide (3 ≤ s1.recentRestarts k) then s1.retireCore k cause else s1.resumeCore k cause

/-- A core that runs. -/
def State.coreRuns (s : State) (k : Nat) : Bool := s.awake && s.coreState k == .run

/-- A core restarts; `restarted` says that core 0 completes within 50 ms: the block resets where it does not. -/
def State.restartCore (s : State) (k cause : Nat) (pc : Word64) (restarted : Bool) (su : Startup) : State :=
  if !(s.coreRuns k) then s
  else if k = 0 && !restarted then ((s.haltCore k cause pc).blockReset 5 false su).afterStart
  else s.cycleCore k cause pc

/-- CORE_WATCHDOG_EXPIRY. -/
def execCoreWatchdogExpiry (core : Nat) (pc : Word64) (restarted : Bool) (su : Startup) (s : State) :
    Host.Outcome State Fault Refusal :=
  .next (s.restartCore core Cause.watchdog pc restarted su)

/-! ## Memory protection (R380, Table 106) -/

/-- The core that writes a shared SRAM window and the cores that read it, by role; of windows 11 and 12 each core writes its own part, and of
the last part the hardware event path is the writer. -/
def sharedWin (win part : Nat) : Option Nat × List Nat :=
  let all := [0, 1, 2, 3, 4, 5, 6]
  if win < 2 then (some 0, all)
  else if win = 2 then (some 0, [5])
  else if win = 3 then (some 1, all)
  else if win < 6 then (some 2, [1])
  else if win < 9 then (some 3, [1])
  else if win < 11 then (some 4, [1])
  else if win < 13 then (if (win - 11) * 4 + part < 7 then some ((win - 11) * 4 + part) else none, [5])
  else if win < 15 then (some 0, [0])
  else if win = 15 then (some 1, [0])
  else (none, [])

/-- A core's memory protection unit lets an access pass: its own private SRAM, the shared windows of its role (of windows 11 and 12, its own
number's part), and what core 0 alone reaches; a core writes the BAR0 blocks of its role. A core that holds no role is core 6 (log entry 147). -/
def mpuLets (core : Nat) (role : Option Nat) (a : MpuAccess) : Bool :=
  let me := role.getD 6
  match a with
  | .own k => k == core
  | .shared w p true => (sharedWin w p).1 == some (if w = 11 || w = 12 then core else me)
  | .shared w p false => (sharedWin w p).2.contains me || ((sharedWin w p).1 == some me && w != 11 && w != 12)
  | .fuses => me == 0
  | .credentials => me == 0
  | .authority => me == 0
  | .bar0 r => me == r
  | .outside => false

/-- MPU_FAULT (R380): an access outside a core's regions is not performed, and the core is restarted. One within them passes, and is no
fault. -/
def execMpuFault (core : Nat) (hit : MpuHit) (restarted : Bool) (su : Startup) (s : State) : Host.Outcome State Fault Refusal :=
  .next (if s.coreRuns core && !(mpuLets core (s.roleOf core) hit.access) then
    (s.count Ctr.mpuFaults).restartCore core Cause.mpu hit.pc restarted su else s)

/-- DOUBLE_FAULT. -/
def execDoubleFault (core : Nat) (pc : Word64) (restarted : Bool) (su : Startup) (s : State) : Host.Outcome State Fault Refusal :=
  .next (s.restartCore core Cause.double pc restarted su)

/-! ## Voltage (R381, Tables 14 and 107) -/

/-- The set point of VDD_CORE in a power state, in mV (Table 99). -/
def PState.coreMv : PState → Nat
  | .standby => 550 | .p2 => 550 | .p1 => 650 | _ => 750

/-- Nominal millivolts and tolerance in percent of the i-th voltage monitor: VDD_AON 1, VDD_CORE 5, VDD_GS 4, VPP_GS 2, VDD_SDS_LO 2,
VDD_SDS_HI 2. -/
def railOf (core i : Nat) : Nat × Nat :=
  if i = 0 then (750, 3) else if i < 6 then (core, 3) else if i < 10 then (800, 3) else if i < 12 then (1350, 5)
  else if i < 14 then (750, 2) else (1200, 3)

/-- A reading lies within its rail's tolerance. -/
def railOk (core i mv : Nat) : Bool :=
  let r := railOf core i
  decide (r.1 * (100 - r.2) ≤ 100 * mv ∧ 100 * mv ≤ r.1 * (100 + r.2))

/-- The rail of the i-th voltage monitor. -/
def railNo (i : Nat) : Nat := if i = 0 then 0 else if i < 6 then 1 else if i < 10 then 2 else if i < 12 then 3 else if i < 14 then 4 else 5

/-- The consecutive samples in which each rail was out of tolerance, after one more, of which `bad` lists the monitors. -/
def lowRails (was : SMap Nat) (bad : List Nat) : SMap Nat :=
  (List.range 6).filterMap fun r => if bad.any fun i => railNo i == r then some (r, mgetD was r 0 + 1) else none

/-- VOLTAGE_SAMPLE: a record of severity ERROR for each rail out of tolerance. -/
def State.voltageSample (s : State) (mv : List Nat) : State :=
  if !s.awake || !(s.roleUp 1) then s
  else
    let core := s.pw.pstate.coreMv
    let bad := (List.range (min 16 mv.length)).filter fun i => !(railOk core i ((mv[i]?).getD 0))
    (s.onSt fun t => { t with volts := mv.take 16, lowRail := lowRails t.lowRail bad }).tell
      (bad.map fun i => .log 1 0 4 (Sys2Proof.Config.logCode 4) (leBytes 8 i ++ leBytes 8 ((mv[i]?).getD 0) ++ List.replicate 32 0))

/-- VOLTAGE_SAMPLE. -/
def execVoltageSample (mv : List Nat) (s : State) : Host.Outcome State Fault Refusal := .next (s.voltageSample mv)

/-- An emergency of R391: PMH_EMERG, a channel group in band 4, or a rail out of tolerance for more than 100 µs. -/
def State.emergency (s : State) : Bool :=
  s.pw.emerg || (s.st.lowRail.any fun e => decide (10 < e.2)) || s.gs.phys.any fun e => decide (4 ≤ e.2.band) && (s.lchOf e.1).isSome

/-! ## The persistent log (R384) -/

/-- PLOG_PROGRAM: the log core programs the records that wait. -/
def execPlogProgram (s : State) : Host.Outcome State Fault Refusal :=
  .next (if s.awake && s.roleUp 5 then s.onTel Telem.program else s)

end Sys2Proof.Machine
end

