-- ==== Sys2Proof/Machine/Fetch.lean ====
section
/-!
DEFINITION. Rounds and the delivery of fetched rows (R185 to R187, R130, R275, R278, R12, R13).
-/

namespace Sys2Proof.Machine

/-! ## ROUND_START -/

/-- A window has begun, and its last round has not ended. -/
def State.midway (s : State) (v : PWin) : Bool :=
  v.round != 0 && (decide (v.round < v.plan.length) || !v.asked.isEmpty || !v.capped.isEmpty || !(s.blocksIn v))

/-- Other windows that have begun leave a window no room at its slices: staging at one of them, or bobbins for its grants (R14, R185; log entry
32). A window that has begun keeps both to its last round. -/
def State.slicesBusy (s : State) (w : PWin) : Bool :=
  let others := s.sp.pwins.filter fun v => v.wid != w.wid && s.midway v
  w.round == 0 && !w.poss.isEmpty &&
    ((w.poss.any fun p => decide (stageBytes < w.stageAt p + sumBy (fun v => v.stageAt p) others) &&
        others.any fun v => v.poss.contains p) ||
      (!others.isEmpty && decide (Member.bobbins s.fuses.member < s.preAsked + s.granted + s.grants w)))

/-- The tier-2 blocks that a round needs have landed, or their Reads have failed: until then the window reserves no row block (R343). A round
begins without a block whose Read finds no landing block free, since only its own rounds may free one (log entry 32). -/
def State.readsIn (s : State) (w : PWin) (l : List Need) : Bool :=
  s.fl.cmds.all fun c => c.own != .window w.wid || c.kind != 0 || c.aborting || (!c.issued && !(s.landingFree c)) ||
    !(c.rows.any fun r => l.any (sameRow r.1 r.2))

/-- The number of a window's spool row (log entry 105). -/
def spoolNo (wid : Nat) (k : Key) : Nat := wid + placeHash k

/-- Bytes of a row as it is staged. -/
def PWin.stagedBytes (w : PWin) (k : Key) (ver : Nat) : Nat :=
  ((w.staged.find? fun r => r.key == k && r.ver == ver).map (·.data.length)).getD 0

/-- A row of the round: from the spool where an earlier round fetched it, else through a bobbin. A row that a PREFETCH names and that
need not be brought takes none (R112). -/
def State.needRow (s : State) (wid : Nat) (bad : List (Key × Nat)) (n : Need) : State :=
  match s.pwin wid with
  | none => s
  | some w =>
    if w.staged.any fun r => r.key == n.key && r.ver == n.ver then
      (s.noteScratch 1 (spoolNo wid n.key) (w.stagedBytes n.key n.ver) false).tell
        [.count Ctr.spoolRead 1, .count Ctr.brideDeliver n.poss.length]
    else if w.hasFailed n.key n.ver then s
    else
      let direct := (s.table (keyTbl n.key)).any fun t => (bandAt t (bandFor t.bands (s.popularity n.key))).direct
      let lost := s.rowPoisoned (keyTbl n.key) n.ver (keyRow n.key) || s.verPoisoned (keyTbl n.key) n.ver
      if n.poss.isEmpty && !lost && (direct || s.inStore n.key n.ver) then s
      else s.askRow wid n (b2n (bad.contains (n.key, n.ver)))

/-- A spool row that fails its check is read again from its copy, as a recovery (R205, Table 118): at once from Ground store, else through a
bobbin from its backing. -/
def State.spoolBad (s : State) (wid : Nat) (r : Key × Nat) : State :=
  let gone := fun (s : State) => s.onPwin wid fun w => { w with staged := w.staged.filter fun x => !(x.key == r.1 && x.ver == r.2) }
  let new := fun (g : Grade) (b : Bytes) => s.onPwin wid fun w =>
    { w with staged := w.staged.map fun x => if x.key = r.1 && x.ver = r.2 then { x with grade := g, data := b } else x }
  match s.table (keyTbl r.1) with
  | none => s
  | some t =>
    (match s.find r.1 r.2 with
     | .pinned e => (new e.grade (s.readPin (e.rowOff t (keyRow r.1)) (gradeBytes e.grade t.dim))).count Ctr.recCopy
     | .way y => (new y.grade (s.readSlot y (gradeBytes y.grade t.dim))).count Ctr.recCopy
     | .backing => (gone s).count Ctr.recBacking)

/-- Rows of the round that lie in the spool and fail their check there. -/
def PWin.badRows (w : PWin) (l : List Need) (bad : List (Key × Nat)) : List (Key × Nat) :=
  bad.filter fun r => (l.any fun n => n.key == r.1 && n.ver == r.2) && w.staged.any fun x => x.key == r.1 && x.ver == r.2

/-- ROUND_START (R185): the next round of a window begins once every slice has finished the round before it: its rows are delivered and its
row blocks admitted. -/
def State.roundStart (s : State) (wid : Nat) (bad : List (Key × Nat)) : State :=
  let s0 := s.letTiles
  match s0.pwin wid with
  | none => s0
  | some w =>
    match w.plan[w.round]? with
    | none => s0
    | some l =>
      if !w.granted || !w.asked.isEmpty || !w.capped.isEmpty || !(s0.blocksIn w) || s0.slicesBusy w || !(s0.readsIn w l) then s0
      else
        let s1 := s0.onPwin wid fun x => { x with round := x.round + 1 }
        let s2 := State.forEach (fun s r => s.spoolBad wid r) (w.badRows l bad) (s1.countN Ctr.roundsExtra (b2n (w.round != 0)))
        ((State.forEach (fun s n => s.needRow wid bad n) l s2).letTiles).settleWin wid

/-- ROUND_START. -/
def execRoundStart (r : RoundBegin) (s : State) : Host.Outcome State Fault Refusal := .next (s.roundStart r.win r.bad)

/-! ## BOBBIN_GRANT -/

/-- BOBBIN_GRANT (R346): a row that waits takes a bobbin once its cap and its slice's grant allow, in fetch order; one whose copy has gone
since and whose backing cannot be reached fails. -/
def State.bobbinGrant (s : State) (wid : Nat) (k : Key) (ver : Nat) : State :=
  match s.pwin wid with
  | none => s
  | some w =>
    match w.capped.find? fun a => a.key == k && a.ver == ver with
    | none => s
    | some a =>
      let need := ((w.plan.drop (w.round - 1)).head?.bind fun l => l.find? (sameRow k ver)).getD
        { key := k, ver := ver, poss := [a.pos], size := 0 }
      let s1 := s.onPwin wid fun x => { x with capped := x.capped.erase a }
      match s.rowWaitIn wid k ver with
      | .inr st => (s1.rowFails wid k ver st).settleWin wid
      | .inl on =>
        if on = .drive then s
        else
          let c := s.capOf on (s.cappedAll.takeWhile fun b => b != (wid, a))
          if c = 0 && s.grantFree w need then s1.issue w { a with on := on, held := 0 }
          else if c = 0 || a.held = c && a.on == on then s
          else (s.noteCap c).onPwin wid fun x => { x with capped := x.capped.map fun b => if b = a then { b with on := on, held := c } else b }

/-- BOBBIN_GRANT. -/
def execBobbinGrant (win : Nat) (key : Key) (ver : Nat) (s : State) : Host.Outcome State Fault Refusal :=
  .next (s.bobbinGrant win key ver)

/-! ## ROW_DELIVERY -/

/-- A bobbin no longer reads its way; one that was dropped meanwhile is freed with its last reader (R284, R287). -/
def State.endRead (s : State) (a : Ask) : State :=
  match a.way with
  | none => s
  | some (ch, set, way) =>
    match s.ch.ways.find? fun w => w.ch == ch && w.set == set && w.way == way && w.key == a.key && w.ver == a.ver with
    | none => s
    | some w =>
      if w.leaving = 0 || decide (1 < w.readers) then s.putWay { w with readers := w.readers - 1 }
      else
        let s1 := ((s.dropWay w).markHead ch set).tidyTwins w.key w.ver
        if w.leaving = 2 then s1.leaveGhost { w with readers := 0, leaving := 0 } else s1

/-- A row read from its backing is considered for the cache: by a lookup under the admission test, by a PREFETCH past it. -/
def State.admitRow (s : State) (t : Table) (w : PWin) (a : Ask) (record : Bytes) (fails : WbFails) : State :=
  let prefetch := w.members.any fun p => (s.desc p.mem.id).any fun d => d.opc == 0x18
  let m := s.mend t a.key a.ver record
  if m.2 then m.1
  else if s.verBegun (keyTbl a.key) a.ver then s
  else if prefetch then
    (if (bandAt t (bandFor t.bands (s.popularity a.key))).direct || s.inStore a.key a.ver then s
     else s.admitForced t a.key a.ver record fails)
  else s.admitLookup t a.key a.ver record fails

/-- A row reaches the staging of every slice that needs it, and the spool where a later round needs it too. -/
def State.stageRow (s : State) (w : PWin) (a : Ask) (g : Grade) (b : Bytes) : State :=
  let now := (((w.plan.drop (w.round - 1)).head?.bind fun l => l.find? (sameRow a.key a.ver)).map (·.poss)).getD []
  let s1 := s.onPwin w.wid fun x =>
    { x with staged := x.staged ++ [{ key := a.key, ver := a.ver, grade := g, data := b }] }
  let s2 := if w.later w.round a.key a.ver then s1.noteScratch 1 (spoolNo w.wid a.key) b.length true else s1
  (s2.softStart w.wid now (placeHash a.key)).tell [.count Ctr.brideDeliver now.length, .count Ctr.spoolWrite (b2n (w.later w.round a.key a.ver))]

/-- The backing's answer for a row: a landed tier-2 block, or the command's tier-1 read. -/
def State.backingRow (s : State) (wid : Nat) (t : Table) (v : Version) (k : Key) (src : RowSrc) : State × RowSrc :=
  match (if t.backTier = 2 then s.landedRow wid k v.ver else none) with
  | some b => (s, { data := slice b 0 t.srcBytes })
  | none => s.readRow t v k src (t.backTier != 2)

/-- A beat of the row that fails its CRC is resent up to twice, and its source is read again after that; a staged word that fails its check
is read again, and the row is fetched again from its copy when it fails on both reads, which retires the slice (R408, R410, R418, Table
118). The answer says that the row is to be fetched again. -/
def State.beatErrs (s : State) (pos : Nat) (e : Errs) : State × Bool :=
  let fetch := e.store == 2 || e.store == 3
  ((s.tell [.count Ctr.crcFail (min e.crc 3), .count Ctr.parSram (min e.store 4), .count Ctr.recReread (b2n (e.crc != 0 || e.store == 1)),
    .count Ctr.recCopy (b2n fetch)]).sliceFound pos e.store (decide (2 ≤ e.store)), decide (3 ≤ e.crc) || fetch)

/-- A row that has failed its checks is fetched again, once (R350). -/
def State.fetchAgain (s : State) (wid : Nat) (a : Ask) : State :=
  s.onPwin wid fun w => { w with asked := w.asked.map fun x => if x = a then { a with again := a.again + 1 } else x }

/-- A landing block that fails its check is read again; failing on both reads, its block is read again from the drive, once (Table 118,
R350). The flag says that the row waits for that. -/
def State.landErrs (s : State) (wid : Nat) (a : Ask) (e : Errs) : State × Bool :=
  let drive := (e.land == 2 || e.land == 3) && a.again == 0
  let s1 := s.tell [.count Ctr.parGs (min e.land 4), .count Ctr.recReread (b2n (e.land == 1)), .count Ctr.recBacking (b2n drive)]
  if drive then
    let l := s.landsOf a.key a.ver
    (((s1.onFl fun f => { f with landed := f.landed.filter fun x => !(x.wid == wid && x.ns == l.1 && l.2.any fun b => b.1 == x.lba) }).onPwin wid
      fun w => { w with asked := w.asked.erase a, capped := w.capped ++ [{ a with on := .drive, again := 1 }] }).readRows wid [(a.key, a.ver)], true)
  else (s1, false)

/-- The row of a landing block, as its checks leave it: one that fails after it was read again from the drive fails with FLASH_ERROR. -/
def State.landed (s : State) (wid : Nat) (a : Ask) (e : Errs) : Bool :=
  (decide (4 ≤ e.land) || (decide (2 ≤ e.land) && a.again != 0)) && a.got.isNone && (s.landedRow wid a.key a.ver).isSome

/-- ROW_DELIVERY: a row that a bobbin holds returns. -/
def State.rowDelivery (s : State) (wid : Nat) (k : Key) (ver : Nat) (src : RowSrc) (fails : WbFails) (errs : Errs) : State :=
  match s.pwin wid with
  | none => s
  | some w =>
    match w.asked.find? fun a => a.key == k && a.ver == ver with
    | none => s
    | some a =>
      let s0 := s.beatErrs a.pos errs
      if s0.2 && a.again = 0 then s0.1.fetchAgain wid a
      else
      let sl := if !s0.2 && a.got.isNone && (s0.1.landedRow wid k ver).isSome then s0.1.landErrs wid a errs else (s0.1, false)
      if sl.2 then sl.1
      else
      let s1 := (sl.1.onPwin wid fun x => { x with asked := x.asked.erase a }).endRead a
      let s2 :=
        if s0.2 || 4 ≤ errs.store then s1.rowFails wid k ver St.dataError
        else if s1.landed wid a errs then s1.failRow wid St.flashError (k, ver)
        else match a.got with
        | some (g, b) => s1.stageRow w a g b
        | none =>
          match s1.table (keyTbl k) with
          | none => s1.rowFails wid k ver St.versionGone
          | some t =>
            match t.ver? ver with
            | none => s1.rowFails wid k ver St.versionGone
            | some v =>
              let q := s1.backingRow wid t v k src
              if q.2.status ≠ St.ok then q.1.rowFails wid k ver q.2.status
              else (q.1.stageRow w a t.grade (slice q.2.data 0 (gradeBytes t.grade t.dim))).admitRow t w a q.2.data fails
      (s2.freeLanded wid).settleWin wid

/-- ROW_DELIVERY. -/
def execRowDelivery (win : Nat) (key : Key) (ver : Nat) (src : Arrival) (fails : WbFails) (s : State) :
    Host.Outcome State Fault Refusal := .next (s.rowDelivery win key ver src.row fails src.errs)

end Sys2Proof.Machine
end

