-- ==== Sys2Proof/Machine/Firmware.lean ====
section
/-!
DEFINITION. Omziger images in boot flash: staging, activation, commit and revert, and what an emergency holds (R386, R387, R390, R391).
-/

namespace Sys2Proof.Machine

/-! ## Staging -/

/-- The slot that is not ACTIVE (true: B). -/
def Steta.inactive (t : Steta) : Bool := !((t.bcr.map (·.active)).getD false)

def Steta.slot (t : Steta) (b : Bool) : Image := if b then t.imgB else t.imgA

def Steta.setSlot (t : Steta) (b : Bool) (i : Image) : Steta := if b then { t with imgB := i } else { t with imgA := i }

/-- The bytes that chunks hold from an offset on, n of them; bytes that no chunk gives read as zero. -/
def stagedBytes (chunks : SMap Bytes) (off n : Nat) : Bytes :=
  chunks.foldl (fun b e =>
    let lo := max off e.1
    let hi := min (off + n) (e.1 + e.2.length)
    if lo < hi then patch b (lo - off) ((e.2.drop (lo - e.1)).take (hi - lo)) else b) (List.replicate n 0)

/-- The maker key hash that a public key matches, 4 for none (R388). -/
def Fuses.keyIndex (f : Fuses) (pub : Bytes) : Nat := (posOf (fun h => h == Sys2Proof.Config.sha384 pub) f.keyHash).getD 4

/-- A staged image, with the header fields of Table 111. -/
def imageOf (f : Fuses) (chunks : SMap Bytes) : Image :=
  let h := stagedBytes chunks 0 20
  { magic := BitVec.ofNat 32 (field h 0 4), fmt := BitVec.ofNat 16 (field h 4 2), svn := field h 8 1, len := field h 16 4,
    keyIdx := f.keyIndex (stagedBytes chunks 0x1000 1952), body := chunks }

/-- The last chunk: the inactive slot is programmed, unless the image's SVN is above 64 or below C. It answers the RESULT. -/
def State.programSlot (s : State) : State × Nat :=
  let i := imageOf s.fuses s.st.staging
  let s1 := s.onSt fun t => { t with staging := [] }
  if 64 < i.svn || i.svn < s.fuses.svn then (s1, 7)
  else (s1.onSt fun t => { t.setSlot t.inactive i with staged := true }, 0)

/-! ## Running slots -/

/-- Core 0 writes a boot control record over the older one: the generation is one above the governing record's (R386). -/
def Steta.writeBcr (t : Steta) (active trial : Bool) (prev : Bool) : Steta :=
  { t with bcrOld := t.bcr
           bcr := some { gen := (t.bcr.elim 0 (·.gen)) + 1, active := active, trial := trial, tries := 0, prev := prev } }

/-- The value of a program counter that a restart records where no fault gives one: free. -/
def State.freePc (s : State) : State × Word64 :=
  let b := (List.range 8).map fun i => Sys2Proof.Config.freeByte (s.free + i)
  ({ s with free := s.free + 8 }, BitVec.ofNat 64 (ofLE b))

/-- A core restarts onto its section of the slot in use. -/
def State.moveCore (s : State) (k : Nat) : State :=
  if s.coreRuns k then
    let q := s.freePc
    q.1.cycleCore k Cause.activation q.2
  else s

/-- Cores 1 to 5, core 6 if it holds a role, and core 0 last (R390). -/
def State.moveCores (s : State) : State := State.forEach State.moveCore [1, 2, 3, 4, 5, 6, 0] s

/-- An event of R405 about a slot: its image's SVN, and the ASEQ of a matching audit record where there is one. -/
def State.fwEvent (s : State) (code : Nat) (slot : Bool) (aseq : Option Nat) : TelOp :=
  mkEvent code [(8, 4, b2n slot), (12, 4, (s.st.slot slot).svn), (16, 8, aseq.getD 0)]

/-- The newest audit record of an action. -/
def State.auditOf (s : State) (action : Nat) : Option Nat := (s.st.audit.find? fun a => a.action == action).map (·.aseq)

/-! ## Activation (R390) -/

/-- Steps 1 to 3: the record, then the cores. -/
def State.runActivation (s : State) : State :=
  let new := s.st.inactive
  (s.onSt fun t =>
    { t.writeBcr new true (!new) with slotB := new, trial := true, recovery := false, watch := true, staged := false,
                                      deferred := none }).moveCores

/-- Verify the inactive slot, and activate it. It answers the RESULT. -/
def State.activate (s : State) (sigOk : Bool) : State × Nat :=
  if s.fuses.accepts (s.st.slot s.st.inactive) sigOk then (s.runActivation, 0)
  else (s.onSt fun t => { t with deferred := none }, 6)

/-- Step 4's revert: every core restarts onto the old slot. What an emergency holds goes with the trial (log entry 67). -/
def State.revert (s : State) (aseq : Option Nat) : State :=
  let old := (s.st.bcr.map (·.prev)).getD false
  let s1 := (s.onSt fun t => { t.writeBcr old false old with slotB := old, trial := false, watch := false, deferred := none }).moveCores
  s1.tell [s1.fwEvent 0xF07 old aseq]

/-- ACTIVATION_HEALTH_WATCH: the second after an activation has passed, or a core has not reported healthy. -/
def State.healthWatch (s : State) (healthy : Bool) : State :=
  if !s.awake || !s.st.watch then s
  else if healthy then
    let s1 := s.onSt fun t => { t with watch := false }
    s1.tell [s1.fwEvent 0xF06 s1.st.slotB (s1.auditOf 0x21)]
  else
    let s1 := s.auditHw 0x23 (b2n s.st.slotB)
    s1.revert (if s.auditFull then none else some s.st.aseq)

/-- ACTIVATION_HEALTH_WATCH. -/
def execActivationHealthWatch (healthy : Bool) (s : State) : Host.Outcome State Fault Refusal := .next (s.healthWatch healthy)

/-! ## Commit (R390) -/

/-- The trial ends, and C rises to the image's SVN by burning fuse steps. -/
def State.commitTrial (s : State) : State :=
  let svn := (s.st.slot s.st.slotB).svn
  (s.onSt fun t => { t.writeBcr t.slotB false t.slotB with trial := false, deferred := none }).onFuses fun f =>
    { f with svn := max f.svn (min svn 64) }

/-! ## What an emergency holds (R391) -/

/-- Hold an activation (0) or a commit (1); FW_DEFERRED is written, with the ASEQ of the command's own audit record, which follows. -/
def State.defer (s : State) (kind : Nat) : State :=
  let s1 := s.onSt fun t => { t with deferred := some { kind := kind, since := s.tel.ts } }
  s1.tell [s1.fwEvent 0xF04 (if kind = 0 then s1.st.inactive else s1.st.slotB) (some s1.st.aseq)]

/-- Ten minutes have passed in the emergency. -/
def State.abandonFw (s : State) (kind : Nat) : State :=
  let slot := if kind = 0 then s.st.inactive else s.st.slotB
  let aseq := if s.auditFull then none else some s.st.aseq
  let s1 := (s.onSt fun t => { t with deferred := none }).auditHw (if kind = 0 then 0x21 else 0x22) (b2n slot)
  s1.tell [s1.fwEvent 0xF05 slot aseq]

/-- What was held starts, with an audit record of its own; while none can be made it stays held (R398, R399; log entry 67). -/
def State.startHeld (s : State) (kind : Nat) (sigOk : Bool) : State :=
  let slot := if kind = 0 then s.st.inactive else s.st.slotB
  if s.auditFull then s.auditHw (0x21 + kind) (b2n slot)
  else if kind = 0 then (s.activate sigOk).1.auditAdd 3 4 0xFF (s.activate sigOk).2 0x21 (b2n slot) []
  else s.commitTrial.auditHw 0x22 (b2n slot)

/-- ACTIVATION_DEFER_END: no emergency has been present for 1 s, and what was held starts; or 10 minutes have passed. -/
def State.deferEnd (s : State) (sigOk : Bool) : State :=
  match s.st.deferred with
  | none => s
  | some d =>
    if !s.awake then s
    else if s.emergency then s.abandonFw d.kind
    else if s.auditFull && !(s.tel.within d.since minute10) then s.abandonFw d.kind
    else s.startHeld d.kind sigOk

/-- ACTIVATION_DEFER_END. -/
def execActivationDeferEnd (sigOk : Bool) (s : State) : Host.Outcome State Fault Refusal := .next (s.deferEnd sigOk)

end Sys2Proof.Machine
end

