-- ==== Sys2Proof/Machine/Mailbox.lean ====
section
/-!
DEFINITION. The mailbox (R400 to R402): how a command starts, waits for its core, is refused, audited and answered; and the commands of
Table 114.
-/

namespace Sys2Proof.Machine

/-! ## RESULT codes of CRH_MBX_CMD -/

def Mbx.done : Nat := 0
def Mbx.badOp : Nat := 1
def Mbx.badLen : Nat := 2
def Mbx.denied : Nat := 3
def Mbx.busy : Nat := 4
def Mbx.wrongState : Nat := 5
def Mbx.verifyFail : Nat := 6
def Mbx.rollback : Nat := 7
def Mbx.auditFull : Nat := 8
def Mbx.noSpare : Nat := 9
def Mbx.deferred : Nat := 10
def Mbx.readFault : Nat := 11

/-- A row of Table 114: the command's value, the least role on a path (0 where the command itself is the authority, or where no session
could otherwise be opened), the role of the core that serves it, R, and whether its use is audited (R398). -/
structure MbxRow where
  opc     : Nat
  least   : Nat
  core    : Nat
  inRec   : Bool
  audited : Bool
  deriving DecidableEq, Repr

/-! ## Responses -/

/-- The 64 bytes of a log record (Table 108). -/
def LogRec.bytes (r : LogRec) : Bytes :=
  leBytes 6 r.ts.toNat ++ leBytes 1 (atBit r.core 3 0 + atBit r.kind 4 4) ++ leBytes 1 r.sev.toNat ++ leBytes 2 r.code.toNat ++
  leBytes 2 0 ++ leBytes 4 r.lseq.toNat ++ slice r.args 0 48

/-- Bytes of a response whose layout the spec leaves open: as many as a free value says, up to the buffer, each free. -/
def State.freeReply (s : State) : State × Bytes :=
  let f := Sys2Proof.Config.freeByte
  let n := ((f s.free).toNat + 256 * (f (s.free + 1)).toNat) % 4097
  ({ s with free := s.free + 2 + n }, (List.range n).map fun i => f (s.free + 2 + i))

/-- The response bytes of what a command says. -/
def State.sayBytes (s : State) : Says → State × Bytes
  | .nothing => (s, [])
  | .nonce n => (s, leBytes 48 n.toNat)
  | .audits l => (s, l.flatMap Audit.bytes)
  | .pages l => (s, l.flatMap LogRec.bytes)
  | _ => s.freeReply

/-- A path's mailbox buffer: the address that CRH_MBX_BUF names, on the path's own host port (R400). -/
def State.mbxAddr (s : State) (p : Path) : Nat := bitf (regGet s p Reg.mbxBuf) 12 45 * 4096

/-- The response is written over the path's buffer; over I3C it is read from the target (R400, R402). -/
def State.mbxOut (s : State) (p : Path) (b : Bytes) : State :=
  if p = .i3c || b.isEmpty then s else s.send (.mbxWrite (s.mbxAddr p) b (s.drvRoute (if p = .fn1 then 1 else 0)))

/-- The command ends: RESULT and RLEN, GO reads 0, and the response stands in the path's buffer. -/
def State.reply (s : State) (p : Path) (result : Nat) (body : Says) : State :=
  let q := s.sayBytes body
  let s1 := ((q.1.mbxOut p q.2).cmdField p Reg.mbxCmd 40 13 q.2.length).finish p Reg.mbxCmd result
  (s1.onSt fun t => { t with replies := pset t.replies p { result := result, body := body, data := q.2 } }).count Ctr.mbxCommands

/-! ## Starting a command -/

/-- The I3C target answers, at its dynamic address or, until it has one, at the static address 0x52: core 1's role runs (R34, R393).
Private transfers are taken at either (log entry 112). -/
def State.i3cAnswers (s : State) : Bool := s.awake && s.roleUp 1

/-- The word that starts a command. -/
def mbxWord (opc len : Nat) : Word64 := BitVec.ofNat 64 (atBit opc 8 0 + atBit len 13 8 + 2 ^ 31)

/-- A private write starts a command on the I3C path (R402): not acknowledged while the target does not answer or a command runs;
it waits while its core does not run. -/
def State.i3cStart (s : State) (core : Nat) (val : Word64) (run : State → State) : State :=
  let key := waitKey .i3c Reg.mbxCmd
  let old := regGet s .i3c Reg.mbxCmd
  if !s.i3cAnswers || (bitb old 31 && !(s.st.waitCore.contains key && old == val)) then s.send .i3cNak
  else
    let s1 := regPut s .i3c Reg.mbxCmd val
    if s.roleUp core then run (s1.onSt fun t => { t with waitCore := t.waitCore.erase key, replies := pdel t.replies .i3c })
    else s1.onSt fun t => { t with waitCore := key :: t.waitCore.erase key, replies := pdel t.replies .i3c }

/-- A command reaches window 15 on its path (R401). -/
def State.mbxStart (s : State) (p : Path) (row : MbxRow) (len : Nat) (run : State → State) : State :=
  if p = .i3c then s.i3cStart row.core (mbxWord row.opc len) run
  else s.command p Reg.mbxCmd 31 1 false (some row.core) (mbxWord row.opc len) run

/-- Why a command is turned away before it is carried out: a recovery image or a held start-up accepts it not (R389, R443), the path's
rights, the length, over I3C that of the private write (R402), the request's buffer, the audit log (R399). -/
def State.mbxRefusal (s : State) (p : Path) (row : MbxRow) (req : Feed) : Option Nat :=
  if !row.inRec && decide (s.pw.step ≤ 4) then some Mbx.wrongState
  else if s.rights p < row.least then some Mbx.denied
  else if 4096 < req.data.length || (p == .i3c && decide (s.i3.mwl.toNat < 4 + req.data.length)) then some Mbx.badLen
  else if p ≠ .i3c && req.status != 0 then some Mbx.readFault
  else if row.audited && s.auditFull then some Mbx.auditFull
  else none

/-- The audit record of a command (Table 112), with the rights and the key that the path held when it was issued. -/
def State.auditMbx (s before : State) (p : Path) (row : MbxRow) (result target : Nat) (req : Feed) : State :=
  s.auditAdd (before.rights p - 1) (Path.num p) (before.sessKey p) result row.opc target req.data

/-- A mailbox command: `run` carries it out and answers its RESULT and what its response says. -/
def State.mailbox (s : State) (p : Path) (row : MbxRow) (req : Feed) (target : Nat) (run : State → State × Nat × Says) : State :=
  s.mbxStart p row req.data.length fun s =>
    match s.mbxRefusal p row req with
    | some r => ((if row.audited || r == Mbx.denied then s.auditMbx s p row r target req else s).countN Ctr.inboundBad
        (if r = Mbx.readFault then badReads req.status else 0)).reply p r .nothing
    | none =>
      let q := run s
      (if row.audited then q.1.auditMbx s p row q.2.1 target req else q.1).reply p q.2.1 q.2.2

/-- A command that reads. -/
def State.mbxRead (s : State) (p : Path) (opc core : Nat) (req : Feed) (body : State → Says) : State :=
  s.mailbox p { opc := opc, least := 1, core := core, inRec := true, audited := false } req 0 fun s => (s, Mbx.done, body s)

/-! ## Reads -/

/-- GET_HEALTH. -/
def execGetHealth (p : Path) (req : Feed) (s : State) : Host.Outcome State Fault Refusal :=
  .next (s.mbxRead p 0x01 1 req fun s =>
    .health ((List.range 7).map s.coreState) s.st.spareRole s.pw.step s.sliceSpares s.spareChs.length (2 - s.pllsUsed) s.emergency)

/-- READ_SENSORS: the reference's reading, the domains whose PLL lost lock, and the channels whose canaries failed (Table 107). -/
def execReadSensors (p : Path) (req : Feed) (s : State) : Host.Outcome State Fault Refusal :=
  .next (s.mbxRead p 0x02 1 req fun s => .sensors s.st.temps s.st.volts s.pw.refOk (s.pw.sp0.toList ++ s.pw.sp1.toList)
    ((List.range (Member.phys s.fuses.member)).filter fun p => (s.phys p).step))

/-- The newest page of the persistent log: pages of 64 records, counted from the oldest held. -/
def Telem.newestPage (t : Telem) : Nat := (t.plog.length - 1) / 64

/-- LOG_POS. -/
def execLogPos (p : Path) (req : Feed) (s : State) : Host.Outcome State Fault Refusal :=
  .next (s.mbxRead p 0x03 5 req fun s => .logPos s.tel.logProd s.tel.logCons (s.counter Ctr.logDropped) s.tel.newestPage)

/-- PLOG_READ: the records of one page. -/
def execPlogRead (p : Path) (req : Feed) (page : Nat) (s : State) : Host.Outcome State Fault Refusal :=
  .next (s.mbxRead p 0x04 5 req fun s => .pages ((s.tel.plog.reverse.drop (64 * page)).take 64))

/-- AUDIT_READ: the records from an ASEQ on that the buffer holds. -/
def execAuditRead (p : Path) (req : Feed) (aseq : Nat) (s : State) : Host.Outcome State Fault Refusal :=
  .next (s.mbxRead p 0x05 0 req fun s => .audits ((s.st.audit.reverse.filter fun a => decide (aseq ≤ a.aseq)).take 32))

/-- AUDIT_HEAD: the highest ASEQ and the SHA-384 of its record; with no record yet it says nothing. -/
def execAuditHead (p : Path) (req : Feed) (s : State) : Host.Outcome State Fault Refusal :=
  .next (s.mbxRead p 0x06 0 req fun s => match s.st.audit with
    | [] => .nothing
    | a :: _ => .head a.aseq (Sys2Proof.Config.sha384 a.bytes))

/-- RETURN_DIAG. -/
def execReturnDiag (p : Path) (req : Feed) (s : State) : Host.Outcome State Fault Refusal :=
  .next (s.mailbox p { opc := 0x51, least := 3, core := 1, inRec := true, audited := false } req 0 fun s =>
    (s, Mbx.done, .diag s.st.crashes ((List.range 7).filter fun k => s.coreState k == .retired) s.gs.rowMap s.gs.bankMap s.gs.lmap))

/-! ## CORE_RESTART -/

/-- CORE_RESTART (R392): a core that does not run cannot be restarted; a role that then stays down answers NO_SPARE. -/
def State.mbxRestart (s : State) (core : Nat) : State × Nat × Says :=
  if !(s.coreRuns core) then (s, Mbx.wrongState, .nothing)
  else
    let q := s.freePc
    let s1 := q.1.cycleCore core Cause.command q.2
    (s1, if s1.st.down.length = s.st.down.length then Mbx.done else Mbx.noSpare, .nothing)

/-- A core 0 that does not complete its restart resets the block, with the command audited and not answered (R394). -/
def State.mbxReset (s : State) (p : Path) (row : MbxRow) (req : Feed) (su : Startup) : State :=
  s.mbxStart p row req.data.length fun s =>
    match s.mbxRefusal p row req with
    | some r => ((s.auditMbx s p row r 0 req).countN Ctr.inboundBad (if r = Mbx.readFault then badReads req.status else 0)).reply p r .nothing
    | none =>
      let q := (s.auditMbx s p row Mbx.done 0 req).freePc
      q.1.restartCore 0 Cause.command q.2 false su

/-- CORE_RESTART. -/
def execCoreRestart (p : Path) (req : Feed) (core : Nat) (restarted : Bool) (su : Startup) (s : State) :
    Host.Outcome State Fault Refusal :=
  let row : MbxRow := { opc := 0x08, least := 1, core := 1, inRec := false, audited := true }
  .next (if core = 0 && !restarted then s.mbxReset p row req su else s.mailbox p row req core fun s => s.mbxRestart core)

/-! ## Sessions (R395, R441) -/

/-- A row served by core 0 and audited. -/
def mbxAuth (opc least : Nat) (inRec : Bool) : MbxRow := { opc := opc, least := least, core := 0, inRec := inRec, audited := true }

/-- AUTH_CHALLENGE: a nonce, unless the path refuses challenges. -/
def State.challenge (s : State) (p : Path) : State × Nat × Says :=
  if s.st.lockout.contains p then (s, Mbx.denied, .nothing)
  else (s.onSt fun t => { t with nonces := t.nonces + 1, asked := p :: t.asked.erase p }, Mbx.done,
        .nonce (Sys2Proof.Config.nonce s.st.nonces))

/-- AUTH_CHALLENGE: issued without a session, since none could be opened otherwise (log entry 73). -/
def execAuthChallenge (p : Path) (req : Feed) (s : State) : Host.Outcome State Fault Refusal :=
  .next (s.mailbox p (mbxAuth 0x10 0 true) req (Path.num p) fun s => s.challenge p)

/-- A key of a role is enrolled, or fused and not revoked. -/
def State.keyHeld (s : State) (role : Role) (k : Nat) : Bool :=
  match role with
  | .none => false
  | .operator => (mget s.st.opKeys k).isSome
  | .installer => s.st.instKey.isSome
  | .maker => decide (k < 4) && !(s.fuses.revoked.getLsbD k)

/-- A refused response: the third on a path within a minute locks the path, with an event that gives the ASEQ of the refusal's own audit
record, which follows (R395, R405). -/
def State.refuseSession (s : State) (p : Path) : State :=
  let s1 := (s.onSt fun t => { t with refusals := (p, s.tel.ts) :: t.refusals, asked := t.asked.erase p }).count Ctr.authFailed
  let n := (s1.st.refusals.filter fun e => e.1 == p && s1.tel.within e.2 minute1).length
  if n < 3 || s1.st.lockout.contains p then s1
  else (s1.onSt fun t => { t with lockout := p :: t.lockout }).tell [mkEvent 0xF08 [(8, 4, Path.num p), (16, 8, s.st.aseq)]]

/-- AUTH_RESPONSE: `sigOk` says that the signature over nonce, serial, path and role is good. -/
def State.openSession (s : State) (p : Path) (role : Role) (keyIdx : Nat) (sigOk : Bool) : State × Nat × Says :=
  if !(s.st.asked.contains p) then (s, Mbx.wrongState, .nothing)
  else if p = .i3c && role == .operator && !(bitb s.st.policy 7) then (s.refuseSession p, Mbx.denied, .nothing)
  else if !(s.keyHeld role keyIdx && sigOk) then (s.refuseSession p, Mbx.verifyFail, .nothing)
  else (s.onSt fun t => { t with sessions := pset t.sessions p { role := role, key := keyIdx }, asked := t.asked.erase p },
        Mbx.done, .nothing)

/-- AUTH_RESPONSE. -/
def execAuthResponse (p : Path) (req : Feed) (role : Role) (keyIdx : Nat) (sigOk : Bool) (s : State) :
    Host.Outcome State Fault Refusal :=
  .next (s.mailbox p (mbxAuth 0x11 0 true) req keyIdx fun s => s.openSession p role keyIdx sigOk)

/-- AUTH_END. -/
def State.mbxEnd (s : State) (p : Path) : State × Nat × Says :=
  if (pget s.st.sessions p).isNone then (s, Mbx.wrongState, .nothing)
  else (s.onSt fun t => { t with sessions := pdel t.sessions p }, Mbx.done, .nothing)

/-- AUTH_END. -/
def execAuthEnd (p : Path) (req : Feed) (s : State) : Host.Outcome State Fault Refusal :=
  .next (s.mailbox p (mbxAuth 0x12 1 true) req (Path.num p) fun s => s.mbxEnd p)

/-- SESSION_TIMEOUT: 15 minutes have passed without a command on the path. -/
def execSessionTimeout (p : Path) (s : State) : Host.Outcome State Fault Refusal := .next (s.endSession p)

/-- LOCKOUT_END: a minute after its lockout the path takes challenges again. -/
def execLockoutEnd (p : Path) (s : State) : Host.Outcome State Fault Refusal :=
  .next (s.onSt fun t =>
    { t with lockout := t.lockout.erase p
             refusals := if t.lockout.contains p then t.refusals.filter fun e => e.1 != p else t.refusals })

/-! ## Firmware -/

/-- IMG_STAGE: a chunk of at most 4,032 bytes within 16 MiB; the last programs the inactive slot. Not while an activation is held or
watched. -/
def State.stage (s : State) (off : Nat) (chunk : Bytes) (last : Bool) : State × Nat × Says :=
  if s.st.watch || s.st.deferred.isSome then (s, Mbx.busy, .nothing)
  else if 4032 < chunk.length || 0x1000000 < off + chunk.length then (s, Mbx.badLen, .nothing)
  else
    let s1 := s.onSt fun t => { t with staging := mset t.staging off chunk }
    if last then ((s1.programSlot).1, (s1.programSlot).2, .nothing) else (s1, Mbx.done, .nothing)

/-- IMG_STAGE. -/
def execImgStage (p : Path) (req : Feed) (off : Nat) (chunk : Bytes) (last : Bool) (s : State) : Host.Outcome State Fault Refusal :=
  .next (s.mailbox p (mbxAuth 0x20 2 true) req (b2n s.st.inactive) fun s => s.stage off chunk last)

/-- IMG_ACTIVATE: held in an emergency. -/
def State.mbxActivate (s : State) (sigOk : Bool) : State × Nat × Says :=
  if s.st.watch || s.st.deferred.isSome then (s, Mbx.busy, .nothing)
  else if !s.st.staged then (s, Mbx.wrongState, .nothing)
  else if s.emergency then (s.defer 0, Mbx.deferred, .nothing)
  else
    let q := s.activate sigOk
    (q.1, q.2, .nothing)

/-- IMG_ACTIVATE. -/
def execImgActivate (p : Path) (req : Feed) (sigOk : Bool) (s : State) : Host.Outcome State Fault Refusal :=
  .next (s.mailbox p (mbxAuth 0x21 2 true) req (b2n s.st.inactive) fun s => s.mbxActivate sigOk)

/-- IMG_COMMIT: held in an emergency. -/
def State.mbxCommit (s : State) : State × Nat × Says :=
  if s.st.watch || s.st.deferred.isSome then (s, Mbx.busy, .nothing)
  else if !s.st.trial then (s, Mbx.wrongState, .nothing)
  else if s.emergency then (s.defer 1, Mbx.deferred, .nothing)
  else (s.commitTrial, Mbx.done, .nothing)

/-- IMG_COMMIT. -/
def execImgCommit (p : Path) (req : Feed) (s : State) : Host.Outcome State Fault Refusal :=
  .next (s.mailbox p (mbxAuth 0x22 2 false) req (b2n s.st.slotB) fun s => s.mbxCommit)

/-- IMG_REVERT: step 4's revert at once. Its own audit record follows the event, with the ASEQ that the event gives. -/
def State.mbxRevert (s : State) : State × Nat × Says :=
  if !s.st.trial then (s, Mbx.wrongState, .nothing) else (s.revert (some s.st.aseq), Mbx.done, .nothing)

/-- IMG_REVERT. -/
def execImgRevert (p : Path) (req : Feed) (s : State) : Host.Outcome State Fault Refusal :=
  .next (s.mailbox p (mbxAuth 0x23 2 false) req (b2n s.st.slotB) fun s => s.mbxRevert)

/-! ## Drives (R331, Table 114) -/

/-- DRIVE_ATTACH: the steps of R331. -/
def State.mbxAttach (s : State) (d : Nat) (i : DriveInfo) : State × Nat × Says :=
  if !(s.mayAttach d i) then (s, Mbx.wrongState, .nothing)
  else
    let s1 := s.attach d i
    (s1, if (s1.drive d).state = .ready then Mbx.done else Mbx.wrongState, .nothing)

/-- DRIVE_ATTACH. -/
def execDriveAttach (p : Path) (req : Feed) (drive : Nat) (info : DriveInfo) (s : State) : Host.Outcome State Fault Refusal :=
  .next (s.mailbox p { opc := 0x30, least := 2, core := 4, inRec := false, audited := true } req drive fun s =>
    s.mbxAttach drive info)

/-- Versions whose backing lies on a drive. -/
def State.onDriveVersions (s : State) (d : Nat) : List (Nat × Nat) :=
  s.tb.tables.flatMap fun e =>
    (e.2.versions.filter fun v => e.2.backTier == 2 && (s.drive d).nss.contains v.nsid).map fun v => (e.1, v.ver)

/-- Write back a drive's dirty rows; the flag says that every one was written. -/
def State.saveDrive (s : State) (fails : WbFails) : List (Nat × Nat) → State × Bool
  | [] => (s, true)
  | (h, ver) :: l =>
    let step := fun (q : State × Bool) (r : Nat) =>
      if !q.2 then q
      else match q.1.version h ver with
        | none => q
        | some (t, v) => q.1.writeBackRow t v (keyOf h r) (failOf fails (keyOf h r))
    let q := (s.dirtyRows h ver).foldl step (s, true)
    if q.2 then State.saveDrive q.1 fails l else (q.1, false)

/-- Drop the cached rows of some versions. -/
def State.dropVersions (s : State) (l : List (Nat × Nat)) : State :=
  State.forEach (fun s x =>
    State.forEach (fun s r => s.dropRow (keyOf x.1 r) x.2 true) (s.cachedRows x.1 x.2) s) l s

/-- DRIVE_DETACH: rows are written back and dropped, then the drive is detached; a failed write-back leaves it attached. -/
def State.mbxDetach (s : State) (d : Nat) (fails : WbFails) : State × Nat × Says :=
  if !(Drive.attached (s.drive d)) then (s, Mbx.wrongState, .nothing)
  else
    let l := s.onDriveVersions d
    let q := s.saveDrive fails l
    if !q.2 then (q.1, Mbx.wrongState, .nothing)
    else ((((q.1.dropVersions l).failDrive d).deleteQueues d).onDrive d fun _ => {}, Mbx.done, .nothing)

/-- DRIVE_DETACH. -/
def execDriveDetach (p : Path) (req : Feed) (drive : Nat) (fails : WbFails) (s : State) :
    Host.Outcome State Fault Refusal :=
  .next (s.mailbox p { opc := 0x31, least := 2, core := 4, inRec := false, audited := true } req drive fun s =>
    s.mbxDetach drive fails)

/-! ## Keys (R396) -/

/-- ENROL_INSTALLER: chunks at the command's own offsets; the token is checked when its last chunk arrives: `tokenOk` says that its signature is
good under the running image's public key, whose fused hash is to be intact (R388, R396). -/
def State.enrol (s : State) (off : Nat) (chunk : Bytes) (last : Bool) (key : Bytes) (count : BitVec 32) (tokenOk : Bool) :
    State × Nat × Says :=
  let s1 := s.onSt fun t => { t with token := mset t.token off chunk }
  if !last then (s1, Mbx.done, .nothing)
  else
    let s2 := s1.onSt fun t => { t with token := [] }
    let newer := match s.st.tokenCnt with
      | none => true
      | some c => decide (c.toNat < count.toNat)
    if tokenOk && newer && s.keyHeld .maker s.st.image.keyIdx then (s2.onSt fun t => { t with instKey := some key, tokenCnt := some count }, Mbx.done, .nothing)
    else (s2, Mbx.verifyFail, .nothing)

/-- ENROL_INSTALLER. -/
def execEnrolInstaller (p : Path) (req : Feed) (off : Nat) (chunk : Bytes) (last : Bool) (key : Bytes) (count : BitVec 32)
    (tokenOk : Bool) (s : State) : Host.Outcome State Fault Refusal :=
  .next (s.mailbox p (mbxAuth 0x38 0 true) req 0 fun s => s.enrol off chunk last key count tokenOk)

/-- ENROL_OPERATOR: one of 16 indices. -/
def execEnrolOperator (p : Path) (req : Feed) (idx : Nat) (key : Bytes) (s : State) : Host.Outcome State Fault Refusal :=
  .next (s.mailbox p (mbxAuth 0x39 2 false) req idx fun s =>
    if 16 ≤ idx then (s, Mbx.wrongState, .nothing)
    else (s.onSt fun t => { t with opKeys := mset t.opKeys idx key }, Mbx.done, .nothing))

/-- REVOKE_OPERATOR. -/
def execRevokeOperator (p : Path) (req : Feed) (idx : Nat) (s : State) : Host.Outcome State Fault Refusal :=
  .next (s.mailbox p (mbxAuth 0x3A 2 false) req idx fun s =>
    if (mget s.st.opKeys idx).isNone then (s, Mbx.wrongState, .nothing)
    else (s.onSt fun t => { t with opKeys := mdel t.opKeys idx }, Mbx.done, .nothing))

/-! ## Limits, debug, fuses -/

/-- SET_LIMIT: the limits that Table 114 names, as CRH_AUTH_POLICY holds them; I3C_OPERATOR stays as it is. -/
def execSetLimit (p : Path) (req : Feed) (limits : BitVec 8) (s : State) : Host.Outcome State Fault Refusal :=
  .next (s.mailbox p (mbxAuth 0x3B 2 false) req Reg.authPolicy fun s =>
    (s.setPolicy (putf s.st.policy 0 7 (limits.toNat % 128)), Mbx.done, .nothing))

/-- DEBUG_OPEN: at the lower of the session's level and DEBUG_ALLOWED (R440). -/
def State.openDebug (s : State) (p : Path) : State × Nat × Says :=
  let level := min (s.rights p - 1) (debugAllowed s.st.policy)
  if level = 0 then (s, Mbx.denied, .nothing) else (s.onSt fun t => { t with debug := level }, Mbx.done, .nothing)

/-- DEBUG_OPEN. -/
def execDebugOpen (p : Path) (req : Feed) (s : State) : Host.Outcome State Fault Refusal :=
  .next (s.mailbox p (mbxAuth 0x40 2 false) req 0 fun s => s.openDebug p)

/-- DEBUG_CLOSE. -/
def execDebugClose (p : Path) (req : Feed) (s : State) : Host.Outcome State Fault Refusal :=
  .next (s.mailbox p (mbxAuth 0x41 1 true) req 0 fun s => (s.onSt fun t => { t with debug := 0 }, Mbx.done, .nothing))

/-- FUSE_PROGRAM: maker keys are revoked; a fuse is never restored. -/
def execFuseProgram (p : Path) (req : Feed) (revoke : BitVec 4) (s : State) : Host.Outcome State Fault Refusal :=
  .next (s.mailbox p (mbxAuth 0x50 3 false) req revoke.toNat fun s =>
    (s.onFuses fun f => { f with revoked := f.revoked ||| revoke }, Mbx.done, .nothing))

end Sys2Proof.Machine
end

