-- ==== Sys2Proof/Machine/I3cBus.lean ====
section
/-!
DEFINITION. The I3C target (R34, R402): the common command codes it supports, and the private read that returns a response. The
target answers only while core 1's role runs (R393). A direct command goes to the dynamic address.
-/

namespace Sys2Proof.Machine

/-- Change the target's own registers; whether it may raise in-band interrupts follows them. -/
def State.i3cSet (s : State) (f : I3c → I3c) : State :=
  let i := f s.i3
  (s.onI3 fun _ => i).onTel fun t => { t with ibiOn := i.dyn.isSome && i.ibi.getLsbD 0 }

/-- A broadcast command. -/
def State.i3cAll (s : State) (run : State → State) : State := if s.i3cAnswers then run s else s.send .i3cNak

/-- A direct command, to the dynamic address. -/
def State.i3cDirect (s : State) (run : State → State) : State := if s.i3cAnswers && s.i3.dyn.isSome then run s else s.send .i3cNak

/-- A command that has both forms. -/
def State.i3cCcc (s : State) (direct : Bool) (run : State → State) : State := if direct then s.i3cDirect run else s.i3cAll run

/-- The n low bytes of a number, highest first, as I3C sends them. -/
def beBytes (n v : Nat) : Bytes := (leBytes n v).reverse

/-- Bytes that identify the target in ENTDAA: its provisioned identifier, BCR and DCR. -/
def i3cIdent : Bytes :=
  beBytes 6 (Sys2Proof.Config.i3cValue 0).toNat ++ beBytes 1 (Sys2Proof.Config.i3cValue 1).toNat ++
    beBytes 1 (Sys2Proof.Config.i3cValue 2).toNat

/-- ENTDAA: a target without a dynamic address takes one. -/
def execEntdaa (addr : BitVec 7) (s : State) : Host.Outcome State Fault Refusal :=
  .next (s.i3cAll fun s =>
    if s.i3.dyn.isSome then s else (s.i3cSet fun i => { i with dyn := some addr }).send (.i3c i3cIdent))

/-- SETDASA: the target at static address 0x52 takes a dynamic address, where it has none. -/
def execSetdasa (addr : BitVec 7) (s : State) : Host.Outcome State Fault Refusal :=
  .next (s.i3cAll fun s => if s.i3.dyn.isSome then s.send .i3cNak else s.i3cSet fun i => { i with dyn := some addr })

/-- RSTDAA, a broadcast command: the dynamic address goes. -/
def execRstdaa (s : State) : Host.Outcome State Fault Refusal :=
  .next (s.i3cAll fun s => s.i3cSet fun i => { i with dyn := none })

/-- ENEC. -/
def execEnec (events : Ccc 8) (s : State) : Host.Outcome State Fault Refusal :=
  .next (s.i3cCcc events.direct fun s => s.i3cSet fun i => { i with ibi := i.ibi ||| events.val })

/-- DISEC. -/
def execDisec (events : Ccc 8) (s : State) : Host.Outcome State Fault Refusal :=
  .next (s.i3cCcc events.direct fun s => s.i3cSet fun i => { i with ibi := i.ibi &&& ~~~events.val })

/-- GETPID: 48 bits. -/
def execGetpid (s : State) : Host.Outcome State Fault Refusal :=
  .next (s.i3cDirect fun s => s.send (.i3c (beBytes 6 (Sys2Proof.Config.i3cValue 0).toNat)))

/-- GETBCR. -/
def execGetbcr (s : State) : Host.Outcome State Fault Refusal :=
  .next (s.i3cDirect fun s => s.send (.i3c (beBytes 1 (Sys2Proof.Config.i3cValue 1).toNat)))

/-- GETDCR. -/
def execGetdcr (s : State) : Host.Outcome State Fault Refusal :=
  .next (s.i3cDirect fun s => s.send (.i3c (beBytes 1 (Sys2Proof.Config.i3cValue 2).toNat)))

/-- GETSTATUS: two bytes, which the spec does not give: free values. -/
def execGetstatus (s : State) : Host.Outcome State Fault Refusal :=
  .next (s.i3cDirect fun s =>
    ({ s with free := s.free + 2 }).send (.i3c [Sys2Proof.Config.freeByte s.free, Sys2Proof.Config.freeByte (s.free + 1)]))

/-- GETMWL. -/
def execGetmwl (s : State) : Host.Outcome State Fault Refusal :=
  .next (s.i3cDirect fun s => s.send (.i3c (beBytes 2 s.i3.mwl.toNat)))

/-- GETMRL. -/
def execGetmrl (s : State) : Host.Outcome State Fault Refusal :=
  .next (s.i3cDirect fun s => s.send (.i3c (beBytes 2 s.i3.mrl.toNat)))

/-- SETMWL. -/
def execSetmwl (len : Ccc 16) (s : State) : Host.Outcome State Fault Refusal :=
  .next (s.i3cCcc len.direct fun s => s.i3cSet fun i => { i with mwl := len.val })

/-- SETMRL. -/
def execSetmrl (len : Ccc 16) (s : State) : Host.Outcome State Fault Refusal :=
  .next (s.i3cCcc len.direct fun s => s.i3cSet fun i => { i with mrl := len.val })

/-- RSTACT: the target's reset action is set. -/
def execRstact (action : Ccc 8) (s : State) : Host.Outcome State Fault Refusal :=
  .next (s.i3cCcc action.direct fun s => s.i3cSet fun i => { i with rst := action.val })

/-- The bytes of a private read: RESULT, a reserved byte, RLEN, and the response (R402). -/
def Reply.wire (r : Reply) : Bytes := leBytes 1 r.result ++ [0] ++ leBytes 2 r.data.length ++ r.data

/-- I3C_PRIVATE_READ: not acknowledged before the response is ready, and no longer than SETMRL has set (R34, R402). -/
def execI3cPrivateRead (s : State) : Host.Outcome State Fault Refusal :=
  .next (s.i3cAll fun s => match pget s.st.replies .i3c with
    | some r => s.send (.i3c (r.wire.take s.i3.mrl.toNat))
    | none => s.send .i3cNak)

end Sys2Proof.Machine
end

