-- ==== Sys2Proof/Machine/Images.lean ====
section
/-!
DEFINITION. The commands of CRH_TBL_CMD (R116, R117, R120) and writes of CRH_PART_CFG (R127).
-/

namespace Sys2Proof.Machine

/-! ## Checks of a table image (R117, R120) -/

/-- The byte offset of the first field that fails, of (byte offset, fails) pairs in byte order. -/
def firstBad : List (Nat × Bool) → Option Nat
  | [] => none
  | (off, bad) :: t => if bad then some off else firstBad t

/-- The bands of an image against a SRC_GRADE and a BACK_TIER; the bands count from `i`, `n` of them are left, `prev` is the
THRESH before. -/
def bandBads (b : Bytes) (src : Option Grade) (tier : Nat) : Nat → Nat → Option Nat → List (Nat × Bool)
  | 0, _, _ => []
  | n + 1, i, prev =>
    let w := img_band b i
    let th := w % 256
    let g := gradeOf (w / 256 % 8)
    let fall := match prev with
      | some p => decide (p ≤ th)
      | none => false
    let wide := match g, src with
      | some x, some y => x.wider y
      | _, _ => false
    [(16 + 2 * i, fall || (n == 0 && th != 0)),
     (17 + 2 * i, g.isNone || wide || (w / 2048 % 2 == 1 && (tier == 0 || g != src)) || w / 4096 != 0)] ++
    bandBads b src tier n (i + 1) (some th)

/-- The checks of DEFINE, field by field in byte order. -/
def defineBads (b : Bytes) : List (Nat × Bool) :=
  let g := gradeOf (img_b10 b % 8)
  let upd := img_b10 b / 8 % 2 == 1
  let rule := img_b10 b / 16
  let tier := img_b11 b / 2 % 4
  let rows := img_rows b % 2 ^ 49
  let dim := img_dim b % 2 ^ 11
  [(0, rows == 0 || decide (rows > 2 ^ 48)),
   (6, img_rows b / 2 ^ 49 % 2 ^ 7 != 0),
   (7, img_rows b / 2 ^ 56 != 0),
   (8, decide (dim < 8) || decide (dim > 1024) || dim % 8 != 0),
   (9, img_dim b / 2 ^ 11 != 0),
   (10, g.isNone || (upd && (!(g == some .fp32 || g == some .bf16) || rule == 0 || decide (rule > 6))) || (!upd && rule != 0)),
   (11, tier == 3 || (upd && tier == 0) || img_b11 b / 16 % 4 == 3),
   (13, field b 13 1 / 16 != 0), (14, field b 14 1 != 0), (15, field b 15 1 != 0)] ++
  bandBads b g tier (img_nbands b) 0 none ++
  (List.range 104).map fun i => (24 + i, field b (24 + i) 1 != 0)

/-- The table that an image defines. -/
def tableOf (b : Bytes) : Table :=
  { rows := img_rows b % 2 ^ 49
    dim := img_dim b % 2 ^ 11
    grade := (gradeOf (img_b10 b % 8)).getD .fp32
    upd := img_b10 b / 8 % 2 == 1
    rule := (ruleOf (img_b10 b / 16)).getD .none
    gimp32 := img_b11 b % 2 == 1
    backTier := img_b11 b / 2 % 4
    readAny := img_b11 b / 8 % 2 == 1
    skew := img_b11 b / 16 % 4
    ctx := field b 12 2 % 4096
    bands := img_bands b }

/-! ## Results of CRH_TBL_CMD (R116) -/

def TblRes.done : Nat := 0
def TblRes.badHandle : Nat := 2
def TblRes.badImage : Nat := 3
def TblRes.wrongState : Nat := 4
def TblRes.imgFault : Nat := 5

/-- Start a table command: OP and GO are written (R116, R430). -/
def State.tblCmd (s : State) (p : Path) (op : Nat) (run : State → Nat → State) : State :=
  s.command p Reg.tblCmd 31 1 false none (BitVec.ofNat 64 (op + 2 ^ 31)) fun s => run s (bitf (s.own p Reg.tblSel) 0 16)

/-- A table command is done, with RESULT and DETAIL. -/
def State.tblDone (s : State) (p : Path) (result detail : Nat) : State :=
  (s.finish p Reg.tblCmd result).cmdField p Reg.tblCmd 40 8 detail

/-- DEFINE of handle h with the image as read (R116, R120); a handle in use is answered before a fault of the image (log entry 119). -/
def State.defineTable (s : State) (p : Path) (h : Nat) (img : Feed) : State :=
  if (s.table h).isSome then s.tblDone p TblRes.badHandle 0
  else if img.status ≠ St.ok then (s.countN Ctr.inboundBad (badReads img.status)).tblDone p TblRes.imgFault 0
  else
    let b := slice img.data 0 128
    match firstBad (defineBads b) with
    | some off => s.tblDone p TblRes.badImage off
    | none => ((s.setTable h (tableOf b)).writeTable h).tblDone p TblRes.done 0

/-- DEFINE (R116, R117, R120). -/
def execDefine (p : Path) (img : Feed) (s : State) : Host.Outcome State Fault Refusal :=
  .next (s.tblCmd p 1 fun s h => s.defineTable p h img)

/-- A version of a table whose directory entry is lost goes with the table: nothing of it is written back, and what only its dirty
records hold is lost (Table 118; log entry 120). -/
def State.scrapVersion (s : State) (h : Nat) (v : Version) : State :=
  let lost := State.forEach (fun s r => (s.loseMaster (keyOf h r) v.ver).clean (keyOf h r) v.ver) (s.dirtyRows h v.ver) s
  (lost.sweep h v.ver).retireEnd h v

/-- A table's versions may go with it: its directory entry is lost, and nothing refers to them. -/
def State.scraps (s : State) (h : Nat) (t : Table) : Bool :=
  t.dirBad && t.versions.all fun v => s.refs h v.ver == 0 && !(s.verMoving h v.ver)

/-- DELETE of handle h; a table whose directory entry is lost takes no descriptor that could retire its versions, and they go with it. -/
def State.deleteTable (s : State) (p : Path) (h : Nat) : State :=
  match s.table h with
  | none => s.tblDone p TblRes.badHandle 0
  | some t =>
    if !t.versions.isEmpty && !(s.scraps h t) then s.tblDone p TblRes.wrongState 0
    else
      let s1 := State.forEach (fun s v => s.scrapVersion h v) t.versions s
      ((s1.noteScratch 3 h 128 true).onTb fun x => { x with tables := mdel x.tables h, cache := x.cache.erase h }).tblDone p TblRes.done 0

/-- DELETE (R116, R120). -/
def execDelete (p : Path) (s : State) : Host.Outcome State Fault Refusal :=
  .next (s.tblCmd p 2 fun s h => s.deleteTable p h)

/-- BANDS of handle h: NBANDS and the bands of the image alone (R116). They are in force from the next aging period (R146). -/
def State.bandsTable (s : State) (p : Path) (h : Nat) (img : Feed) : State :=
  match s.table h with
  | none => s.tblDone p TblRes.badHandle 0
  | some t =>
    if img.status ≠ St.ok then (s.countN Ctr.inboundBad (badReads img.status)).tblDone p TblRes.imgFault 0
    else
      let b := slice img.data 0 128
      match firstBad (bandBads b (some t.grade) t.backTier (img_nbands b) 0 none) with
      | some off => s.tblDone p TblRes.badImage off
      | none => ((s.setTable h { t with next := some (img_bands b) }).writeTable h).tblDone p TblRes.done 0

/-- BANDS (R116, R120, R146). -/
def execBands (p : Path) (img : Feed) (s : State) : Host.Outcome State Fault Refusal :=
  .next (s.tblCmd p 3 fun s h => s.bandsTable p h img)

/-! ## CRH_PART_CFG (R127) -/

/-- A write is taken only while no table is defined, with SCRATCH at least one eighth of usable and both within usable. -/
def State.partFits (s : State) (v : Word64) : Bool :=
  let u := Member.usable s.fuses.member
  !s.anyTable && decide (u ≤ 8 * bitf v 16 12 ∧ bitf v 0 12 + bitf v 16 12 ≤ u)

/-- PART_CFG_WRITE (R127). -/
def State.partWrite (s : State) (p : Path) (off size : Nat) (val : Word64) : State :=
  s.regWrite p off size val Reg.partCfg 1 fun s _ new =>
    if s.partFits new then regPut s p Reg.partCfg new else s.count Ctr.cfgIgnored

/-- PART_CFG_WRITE. -/
def execPartCfgWrite (p : Path) (off size : Nat) (val : Word64) (s : State) : Host.Outcome State Fault Refusal :=
  .next (s.partWrite p off size val)

end Sys2Proof.Machine
end

