-- ==== Sys2Proof/Machine/Recovery.lean ====
section
/-!
DEFINITION. Recovery of rows (R261, R408, R409, Table 118), slices retired onto spares (R418, Table 120), inbound fabric errors (R411), the
poison list's register (R415, R424), and the writing of EVENT records (R424).
-/

namespace Sys2Proof.Machine

/-! ## Row recovery (Table 118) -/

/-- The row has no good copy left: its copies go, the contributions that only its dirty record held are lost, and it is poisoned. -/
def State.rowGone (s : State) (t : Table) (k : Key) (ver : Nat) : State :=
  let s1 := if s.isDirty k ver then s.loseMaster k ver else s
  let s2 := match s1.placed (keyTbl k) ver (keyRow k) with
    | some e =>
      let c := s1.clean k ver
      if t.backTier = 0 then c else c.onExtent e fun x => { x with placed := x.placed.filter fun r => r != keyRow k }
    | none => s1.dropRow k ver false
  s2.poisonRow (keyTbl k) ver (keyRow k)

/-- Write a row's copies anew from a source record: the pinned slot, the master record with its read copies, or the copies of a
read-only row, which is encoded once for each grade (R212). -/
def State.writeCopies (s : State) (t : Table) (k : Key) (ver : Nat) (record : Bytes) : State :=
  match s.placed (keyTbl k) ver (keyRow k) with
  | some e => s.storeRow t e (keyRow k) record
  | none =>
    if t.upd then (s.writeMaster t k ver (slice record 0 t.srcBytes)).writeReads t k ver record
    else s.writeReads t k ver record

/-- A row whose Ground store copy failed twice is taken from its backing; what a dirty record alone held is lost (R261). -/
def State.recoverBacking (s : State) (t : Table) (v : Version) (k : Key) (src : RowSrc) : State :=
  let q := if t.backTier = 0 then (s, { data := [], status := St.tierUnreachable }) else s.readBacking t v k src false
  if q.2.status ≠ St.ok then q.1.rowGone t k v.ver
  else
    let s1 := if q.1.isDirty k v.ver then (q.1.loseMaster k v.ver).clean k v.ver else q.1
    (s1.writeCopies t k v.ver q.2.data).count Ctr.recBacking

/-- A dirty master record is taken from its twin. -/
def State.recoverTwin (s : State) (t : Table) (k : Key) (ver : Nat) (b : Bytes) : State :=
  ((s.noteTwin k (s.twinCh (s.masterCh t k ver)) (slotOf b.length) false).writeCopies t k ver b).count Ctr.recCopy

/-- A read copy or a replica is written again from the row's master record, or from another copy of the same bytes. -/
def State.recoverRead (s : State) (t : Table) (k : Key) (ver : Nat) : State :=
  let s1 := match s.masterWay k ver with
    | some w => if t.upd then s.writeReads t k ver (s.readSlot w t.srcBytes) else s
    | none => s
  s1.count Ctr.recCopy

/-- The channel, pocket and line in which a copy of a row begins: the placed record, the master record, or the copy that a lookup reads. -/
def State.copyBegins (s : State) (t : Table) (k : Key) (ver : Nat) (master : Bool) : Option (Nat × Nat × Nat) :=
  let at' := fun (w : Way) => ((s.slotParts w w.size).head?).map fun p => (w.ch, p.1, p.2.1 / 256)
  match s.find k ver, s.masterWay k ver with
  | .pinned e, _ =>
    let p := s.spread 0 (e.rowOff t (keyRow k))
    some (p.1, p.2.1, p.2.2 / 256)
  | .way w, m => at' (if master then m.getD w else w)
  | .backing, m => m.bind at'

/-- The array row of a line of a pocket is repaired: an error that a second read found again (R319). -/
def State.repairLine (s : State) (x : Option (Nat × Nat × Nat)) : State :=
  match x with
  | none => s
  | some (ch, pocket, i) =>
    let q := s.pocketAt ch pocket
    let b := s.bankLine q.2 i
    match s.pchOf q.1 with
    | some p => if s.lostBank q.1 b.1 then s else s.rowRepair q.1 p (b.1 / 30) (b.1 % 30) (b.2 / 8)
    | none => s

/-- ROW_RECOVERY (R409): a copy of a row has failed its check twice. `masterBad` says that the copy is the master record, the pinned
record or the only copy; `twinBad` that the twin has failed too; `src` is what the backing gives. The array rows in which the copies that
failed begin are repaired (R319; log entry 45). -/
def State.rowRecovery (s : State) (h ver row : Nat) (masterBad twinBad : Bool) (src : RowSrc) : State :=
  match s.version h ver with
  | none => s
  | some (t, v) =>
    let k := keyOf h row
    if s.rowPoisoned h ver row || !(s.inStore k ver) then s
    else
      let s1 := s.countN Ctr.parGs 2
      let own := s.copyBegins t k ver masterBad
      if !masterBad then (s1.recoverRead t k ver).repairLine own
      else match s1.twinOf k ver with
        | none => (s1.recoverBacking t v k src).repairLine own
        | some x =>
          if twinBad then
            (((s1.countN Ctr.parGs 2).recoverBacking t v k src).repairLine own).repairLine
              (some (x.ch, s.pinPockets + placeHash k % max 1 s.scratchPockets, 0))
          else (s1.recoverTwin t k ver x.data).repairLine own

/-- ROW_RECOVERY. -/
def execRowRecovery (tbl ver row : Nat) (masterBad twinBad : Bool) (src : RowSrc) (s : State) : Host.Outcome State Fault Refusal :=
  .next (s.rowRecovery tbl ver row masterBad twinBad src)

/-! ## Slices (R418, R420) -/

/-- Gathers with a row block on a slice position that is not drained. -/
def State.blocksOn (s : State) (pos : Nat) : List Nat :=
  s.sp.pwins.flatMap fun w =>
    if w.round = 0 then []
    else (w.members.filter fun p => (s.desc p.mem.id).any fun d =>
      !p.closed && (p.tiles d w.slices).any fun t => t.pos == pos && !(p.drained.contains (t.pos, t.tile))).map fun p => p.mem.id

/-- A held tile on a position loses its hoop: the chain is discarded (Table 118). -/
def NamedTile.loseAt (pos : Nat) (t : NamedTile) : NamedTile :=
  if t.held && t.poss.contains pos then { owner := t.owner, broken := true } else t

/-- A slice position is lost with no spare (Table 120). -/
def State.loseSlice (s : State) (pos : Nat) : State :=
  let s1 := State.forEach (fun s id => (s.abandon id).endDesc id St.dataError 0 0 0) (s.blocksOn pos) s
  let s2 := s1.onSp fun x => { x with tiles := mmap x.tiles fun _ t => t.loseAt pos }
  let s3 := s2.onRl fun r => { r with lostPos := r.lostPos ++ [pos], retiring := r.retiring.erase pos, hits := mdel r.hits pos }
  s3.reduce 0 s3.rl.lostPos.length

/-- SLICE_SPARED: at the end of the round, the lowest-numbered spare slice takes the position of a slice that is retired. -/
def State.sliceSpared (s : State) (pos : Nat) : State :=
  let m := s.fuses.member
  let n := Member.slices m + s.rl.sliceUsed
  if !(s.rl.retiring.contains pos) || s.rl.lostPos.contains pos then s
  else if Member.phys m ≤ n then s.loseSlice pos
  else
    ((s.onRl fun r =>
      { r with sliceMap := mset r.sliceMap pos n, sliceUsed := r.sliceUsed + 1, retiring := r.retiring.erase pos
               hits := mdel r.hits pos }).auditHw 0x800C pos).tell
      [.count Ctr.slicesSpared 1, mkEvent 0x1002 [(8, 4, pos), (12, 4, n)]]

/-- SLICE_SPARED. -/
def execSliceSpared (pos : Nat) (s : State) : Host.Outcome State Fault Refusal := .next (s.sliceSpared pos)

/-! ## Inbound fabric errors (R241, R411) -/

/-- A batch with a message dropped in error: it is discarded, and its messages leave the remote intake. -/
def State.markBad (s : State) (port : Nat) (m : ContribMsg) : State :=
  let b : InBatch := { sender := m.sender, batch := m.batch, msgs := [], port := port, bad := true }
  ((s.onUp fun u =>
    { u with inb := (u.inb.filter fun x => !(x.is m.sender m.batch)) ++ [b]
             inq := u.inq.filter fun q => q != (m.sender, m.batch) }).drainIntake).payCredits

/-- INBOUND_FABRIC_ERROR: the message is dropped and counted, and its credit returns (R23); a contribution's batch is discarded with it,
another message only drops. -/
def State.inboundBad (s : State) (port : Nat) (msg : BadMsg) : State :=
  match msg with
  | .request => if s.fabUp port then (s.send (.credit port false 1)).count Ctr.inboundBad else s
  | .response => if s.fabAnswers port then (s.send (.credit port true 1)).count Ctr.inboundBad else s
  | .contrib m =>
    if !(s.fabUp port) then s
    else
      let s1 := (s.oweCredit port true).count Ctr.inboundBad
      if s1.up.inb.any fun b => b.is m.sender m.batch && b.bad then s1 else (s1.count Ctr.inboundBad).markBad port m

/-! ## CRH_POISON_CMD (R415, R424) -/

def PoisonRes.done : Nat := 0
def PoisonRes.notFound : Nat := 2
def PoisonRes.wrongState : Nat := 3

/-- A CRH_POISON_CMD with an OP, started on a path; `run` takes the handle, version and row that the path's KEY and VER name. -/
def State.poisonCmd (s : State) (p : Path) (op : Nat) (audited : Bool) (val : Word64) (run : State → Nat → Nat → Nat → State) : State :=
  let v := BitVec.ofNat 64 (bitf val 0 16 + atBit op 2 16 + 2 ^ 31)
  s.command p Reg.poisonCmd 31 1 audited none v fun s =>
    let k := s.own p Reg.poisonKey
    run s (keyTbl k) (bitf val 0 16) (keyRow k)

/-- QUERY: FOUND says that the row is poisoned, alone or with its whole version. -/
def State.poisonQuery (s : State) (p : Path) (val : Word64) : State :=
  s.poisonCmd p 1 false val fun s h ver row =>
    (s.cmdField p Reg.poisonCmd 40 1 (b2n (s.rowPoisoned h ver row || s.verPoisoned h ver))).finish p Reg.poisonCmd PoisonRes.done

/-- QUERY. -/
def execQuery (p : Path) (val : Word64) (s : State) : Host.Outcome State Fault Refusal := .next (s.poisonQuery p val)

/-- CLEAR: a row of a table with a backing leaves the list. -/
def State.poisonClear (s : State) (p : Path) (val : Word64) : State :=
  s.poisonCmd p 2 true val fun s h ver row =>
    if !((s.table h).any fun t => t.backTier != 0) then s.finish p Reg.poisonCmd PoisonRes.wrongState
    else if !(s.rowPoisoned h ver row) then s.finish p Reg.poisonCmd PoisonRes.notFound
    else (s.unpoison h ver row).finish p Reg.poisonCmd PoisonRes.done

/-- POISON_CLEAR. -/
def execPoisonClear (p : Path) (val : Word64) (s : State) : Host.Outcome State Fault Refusal := .next (s.poisonClear p val)

/-! ## EVENT records (R69, R424) -/

/-- CRH_EVT_RING.RING. -/
def State.evtRing (s : State) : Nat := bitf s.tel.evtRing 0 17

/-- EVENT records can be written to the event ring now. -/
def State.evtOpen (s : State) : Bool :=
  let c := s.evtRing
  bitb s.tel.evtRing 17 && Ring.isCpl (s.ring c) && (s.ring c).state == .active && decide (0 < s.freeFor c)

/-- EVENT_WRITE: the oldest event of the queue goes out. -/
def State.eventWrite (s : State) : State :=
  match s.tel.evq with
  | [] => s
  | e :: t =>
    if s.evtOpen then (((s.onTel fun x => { x with evq := t }).putSlot s.evtRing false (eventBytes e)).signal s.evtRing false) else s

/-- EVENT_WRITE. -/
def execEventWrite (s : State) : Host.Outcome State Fault Refusal := .next s.eventWrite

end Sys2Proof.Machine
end

