-- ==== Sys2Proof/Machine/RegCmds.lean ====
section
/-!
DEFINITION. REGISTER_WRITE: a write to a register that has no row of its own in the command table, or that starts none of its commands
(R427 to R432, R444).
-/

namespace Sys2Proof.Machine

/-! ## Command registers -/

/-- Where a command register keeps GO and OP, and the OP values that have a row of their own; no OP field where n is 0. -/
structure CmdForm where
  off : Nat
  go  : Nat
  lo  : Nat := 0
  n   : Nat := 0
  ops : List Nat := []
  deriving DecidableEq, Repr

def cmdForms : List CmdForm :=
  [{ off := Reg.ringCmd, go := 31, lo := 20, n := 4, ops := [1, 2, 3, 4, 5, 6, 7] },
   { off := Reg.segInval, go := 39, lo := 32, n := 3, ops := [1, 2] },
   { off := Reg.tblCmd, go := 31, lo := 0, n := 3, ops := [1, 2, 3] },
   { off := Reg.gsCmd, go := 31, lo := 8, n := 4, ops := [1, 2, 3, 4, 5, 6] },
   { off := Reg.imapRel, go := 31 },
   { off := Reg.tileRel, go := 31 },
   { off := Reg.rscCmd, go := 31, lo := 0, n := 2, ops := [1, 2] },
   { off := Reg.poisonCmd, go := 31, lo := 16, n := 2, ops := [1, 2] },
   { off := Reg.cntCmd, go := 31, lo := 14, n := 2, ops := [1, 2] },
   { off := Reg.mbxCmd, go := 31, lo := 0, n := 8,
     ops := [0x01, 0x02, 0x03, 0x04, 0x05, 0x06, 0x08, 0x10, 0x11, 0x12, 0x20, 0x21, 0x22, 0x23, 0x30, 0x31, 0x38, 0x39, 0x3A, 0x3B,
             0x40, 0x41, 0x50, 0x51] }]

def cmdFormAt (reg : Nat) : Option CmdForm := cmdForms.find? fun c => c.off == reg

/-- The write covers bit i of the register. -/
def covers (off size i : Nat) : Bool := size == 8 || (off % 8 == 4) == decide (32 ≤ i)

/-- The bit i of the register that a write carries: a 4-byte write of the upper half carries bits 32 to 63. -/
def carried (off size : Nat) (val : Word64) (i : Nat) : Bool := if size = 8 || off % 8 = 0 then bitb val i else bitb val (i - 32)

/-- RESULT of a command register whose OP has no meaning: BAD_OP, with GO at 0. -/
def State.badOp (s : State) (p : Path) (c : CmdForm) (new : Word64) : State :=
  let s1 := regPut s p c.off (putf (putf new c.go 1 0) (if c.go = 39 then 40 else 32) 8 1)
  if c.off = Reg.mbxCmd then s1.count Ctr.mbxCommands else s1

/-- A write to a command register. One that sets GO with an OP of Table 125's commands is that command's own row. One that sets no GO
stores the fields, unless a command runs. -/
def State.cmdWrite (s : State) (p : Path) (off size : Nat) (val : Word64) (c : CmdForm) : State :=
  let sets := accessFits off size && covers off size c.go && carried off size val c.go
  s.regWrite p off size val c.off 1 fun s1 old new =>
    let op := bitf new c.lo c.n
    if bitb old c.go then s1.ignoreWrite
    else if !sets then regPut s1 p c.off new
    else if c.n = 0 || c.ops.contains op then s
    else s1.badOp p c new

/-! ## Registers with conditions -/

/-- CRH_SORT_AREA (R168). A write while a table is defined is counted in CFG_IGNORED as well, as one out of range is: the rule says only that
it takes no effect (DESIGN CHOICE). -/
def State.sortArea (s : State) (p : Path) (new : Word64) : State :=
  let n := bitf new 0 12
  if s.anyTable || n < 2 || bitf (s.cfg Reg.partCfg) 16 12 < 2 * n then s.count Ctr.cfgIgnored else regPut s p Reg.sortArea new

/-- CRH_POOL_CTL (R206): SPOOL_UNITS has conditions of its own. A new value of it while a table is defined is counted in CFG_IGNORED as well:
the rule says only that it takes no effect (DESIGN CHOICE). -/
def State.poolCtl (s : State) (p : Path) (old new : Word64) : State :=
  let n := bitf new 8 12
  let was := bitf old 8 12
  if (s.anyTable && n ≠ was) || n = 0 || 3 * bitf (s.cfg Reg.partCfg) 16 12 < 4 * (bitf (s.cfg Reg.sortArea) 0 12 + n) then
    (regPut s p Reg.poolCtl (putf new 8 12 was)).count Ctr.cfgIgnored
  else regPut s p Reg.poolCtl new

/-- The log core writes audit records that the host log ring had no space for, oldest first, as far as there is space (R383, R399). -/
def State.shipAudits (s : State) : State :=
  State.forEach (fun s a =>
    if s.tel.auditRoom then
      (s.onSt fun t => { t with audit := t.audit.map fun x => if x.aseq = a.aseq then { x with shipped := true } else x }).tell (auditLogs a)
    else s) (s.st.audit.reverse.filter fun a => a.handed && !a.shipped) s

/-- What a write of a register's RW fields does. -/
def State.regTake (s : State) (p : Path) (reg : Nat) (old new : Word64) : State :=
  if reg = Reg.sortArea then s.sortArea p new
  else if reg = Reg.poolCtl then s.poolCtl p old new
  else if reg = Reg.logIdx || reg = Reg.logBase then (regPut s p reg new).shipAudits
  else if (regAt reg).any (fun r => r.kind == .stat) then s
  else regPut s p reg new

/-! ## The write -/

/-- A write where there is no register. -/
def State.noReg (s : State) (p : Path) (off : Nat) (val : Word64) : State :=
  match s.gate p off 1 with
  | .absent => s
  | .shut => s.shutOut
  | .denied => s.denyWrite p off val
  | _ => s.ignoreWrite

/-- A write of a counter's word changes nothing: CRH_CNT_CMD alone changes a counter (R354, R447). -/
def State.counterWrite (s : State) (p : Path) (off size : Nat) (val : Word64) : State :=
  match s.gate p (off / 8 * 8) 1 with
  | .absent => s
  | .shut => s.shutOut
  | .denied => s.denyWrite p (off / 8 * 8) val
  | .ignored => s.ignoreWrite
  | .open' =>
    if !(accessFits off size) then s.ignoreWrite
    else if p = .dbg then s.auditReg p (off / 8 * 8) (if s.auditFull then 8 else 0) val
    else s

/-- CRH_RESET_CMD without BLOCK: audited, with no effect; with BLOCK it is BLOCK_RESET_CMD's own. -/
def State.resetReg (s : State) (p : Path) (off size : Nat) (val : Word64) : State :=
  if covers off size 0 && carried off size val 0 then s
  else s.regWrite p off size val Reg.resetCmd 2 fun s _ _ =>
    if p = .dbg then s else s.auditReg p Reg.resetCmd (if s.auditFull then 8 else 0) val

/-- REGISTER_WRITE. -/
def State.registerWrite (s : State) (p : Path) (off size : Nat) (val : Word64) : State :=
  let reg := off / 8 * 8
  if reg = Reg.ctxCfg then s.ctxWrite p off size val
  else if reg = Reg.partCfg then s.partWrite p off size val
  else if reg = Reg.optSel then s.optSel p off size val
  else if reg = Reg.eyeletBase then s.eyeletWrite p off size val
  else if reg = Reg.authPolicy || reg = Reg.makerCtl then s.authWrite p off size val
  else if reg = Reg.resetCmd then s.resetReg p off size val
  else match cmdFormAt reg with
    | some c => s.cmdWrite p off size val c
    | none =>
      if (regAt reg).isSome then s.regWrite p off size val reg 1 fun s old new => s.regTake p reg old new
      else if Ctr.isCounter reg then s.counterWrite p off size val
      else s.noReg p off val

/-- REGISTER_WRITE. -/
def execRegisterWrite (p : Path) (off size : Nat) (val : Word64) (s : State) : Host.Outcome State Fault Refusal :=
  .next (s.registerWrite p off size val)

end Sys2Proof.Machine
end

