-- ==== Sys2Proof/Machine/Rescale.lean ====
section
/-!
DEFINITION. The rescale banks: CRH_RSC_CMD LOAD and SWAP (R215, R216, R229).
-/

namespace Sys2Proof.Machine

/-- RESULT values of CRH_RSC_CMD. -/
def RscRes.done : Nat := 0
def RscRes.badEntry : Nat := 2
def RscRes.readFault : Nat := 3
def RscRes.wrongState : Nat := 4

/-- Start a command of CRH_RSC_CMD: OP and GO are written (R430). -/
def State.rscCmd (s : State) (p : Path) (op : Nat) (run : State → State) : State :=
  s.command p Reg.rscCmd 31 1 false none (BitVec.ofNat 64 (op + 2 ^ 31)) run

/-- A LOAD fails: the shadow bank is invalid. -/
def State.loadFails (s : State) (p : Path) (result index : Nat) : State :=
  ((s.onQz fun q => { q with shadowOk := false }).finish p Reg.rscCmd result).cmdField p Reg.rscCmd 40 10 index

/-- LOAD: the whole table is refused if any entry is zero, subnormal, infinite or NaN; else it goes to the shadow bank once no
descriptor is bound to that. -/
def State.rscLoad (s : State) (p : Path) (img : Feed) : State :=
  if img.status ≠ St.ok then (s.countN Ctr.inboundBad (badReads img.status)).loadFails p RscRes.readFault 0
  else
    let b := slice img.data 0 4096
    match posOf (fun x => !fNormal x) (rscEntries b) with
    | some i => s.loadFails p RscRes.badEntry i
    | none => (s.onQz fun q => { q with loading := some b }).endLoad

/-- LOAD. -/
def execLoad (p : Path) (img : Feed) (s : State) : Host.Outcome State Fault Refusal :=
  .next (s.rscCmd p 1 fun s => s.rscLoad p img)

/-- SWAP: the banks exchange, where a LOAD has succeeded since the last one. -/
def State.rscSwap (s : State) (p : Path) : State :=
  if s.qz.shadowOk then
    ((s.onQz fun q => { q with active := !q.active, shadowOk := false }).count Ctr.rscSwaps).finish p Reg.rscCmd RscRes.done
  else s.finish p Reg.rscCmd RscRes.wrongState

/-- SWAP. -/
def execSwap (p : Path) (s : State) : Host.Outcome State Fault Refusal := .next (s.rscCmd p 2 fun s => s.rscSwap p)

end Sys2Proof.Machine
end

