-- ==== Sys2Proof/Machine/Rings.lean ====
section
/-!
DEFINITION. The ring commands of CRH_RING_CMD (R45 to R51, R449, R450).
-/

namespace Sys2Proof.Machine

/-! ## Results of CRH_RING_CMD (R51) -/

def RingRes.done : Nat := 0
def RingRes.badOp : Nat := 1
def RingRes.badRing : Nat := 2
def RingRes.badEntry : Nat := 3
def RingRes.wrongState : Nat := 4

/-- A command reads or writes the ring table. -/
def usesTable (op : Nat) : Bool := op == 1 || op == 4 || op == 6 || op == 7

/-- Start a ring command: RING, OP and GO are written, core 2 serves it (R51, R432). One that needs the ring table makes no progress, with
GO at 1, while the table cannot be translated (R107). -/
def State.ringCmd (s : State) (p : Path) (ring op : Nat) (run : State → State) : State :=
  s.command p Reg.ringCmd 31 1 false (some 2) (BitVec.ofNat 64 (atBit ring 17 0 + atBit op 4 20 + 2 ^ 31)) fun s =>
    if usesTable op && s.drvFails 0 then s.onSt fun t => { t with waitCore := Reg.ringCmd :: t.waitCore.erase Reg.ringCmd } else run s

/-- The command is done. -/
def State.ringDone (s : State) (p : Path) (result : Nat) : State := s.finish p Reg.ringCmd result

/-! ## Entry checks -/

/-- R449, on an entry as read. -/
def State.entryBad (s : State) (r : Ring) : Bool :=
  let m := s.fuses.member
  r.base % 64 != 0 || decide (r.log2 < 6) || decide (r.log2 > 20) ||
  (Ring.homed r && decide (r.home ≥ Member.cxlPorts m)) ||
  (r.typ == .hostCpl && decide (r.vector ≥ Member.msix m)) ||
  (r.ord && r.stripeOk) ||
  (Ring.isHost r && !r.dbMode && s.cxlUp r.home && !(s.cxlCache r.home))

/-- The completion ring that a descriptor ring's entry names (R48, R49): the RESULT of ENABLE, DONE where it passes. -/
def State.cplBad (s : State) (k : Nat) (r : Ring) : Nat :=
  let c := s.ring r.cplRing
  if Ring.isCpl r then RingRes.done
  else if decide (r.cplRing ≥ Member.rings s.fuses.member) || r.cplRing == k then RingRes.badEntry
  else if c.state = .disabled || c.state = .draining then RingRes.wrongState
  else if !(Ring.isCpl c) then RingRes.badEntry
  else if r.typ = .hostDesc && c.typ = .hostCpl && r.home != c.home then RingRes.badEntry
  else RingRes.done

/-- Another ring of the eyelet line is held through another port (R61). -/
def State.lineClash (s : State) (k : Nat) (r : Ring) : Bool :=
  Ring.isHost r && !r.dbMode && (lineRings (k / 8)).any fun j =>
    let q := s.ring j
    j != k && Ring.isHost q && !q.dbMode && q.state != .disabled && q.home != r.home

/-- A live descriptor ring names completion ring k (R49). -/
def State.named (s : State) (k : Nat) : Bool :=
  s.fe.rings.any fun e => !(Ring.isCpl e.2) && e.2.state != .disabled && e.2.cplRing == k

/-- The home port is up, where the ring has one. -/
def State.homeUp (s : State) (r : Ring) : Bool := !(Ring.homed r) || s.cxlUp r.home

/-! ## ENABLE -/

/-- ENABLE of ring k with its entry as read (R45, R48, R49, R61, R449, R450). -/
def State.enableRing (s : State) (p : Path) (k : Nat) (entry : Bytes) : State :=
  let r := (s.ring k).configure entry
  if k ≥ Member.rings s.fuses.member then s.ringDone p RingRes.badRing
  else if (s.ring k).state ≠ .disabled then s.ringDone p RingRes.wrongState
  else if s.entryBad r then s.ringDone p RingRes.badEntry
  else if s.cplBad k r ≠ RingRes.done then s.ringDone p (s.cplBad k r)
  else if s.lineClash k r then s.ringDone p RingRes.badEntry
  else
    let r1 := { (r.start entry) with state := if s.homeUp r then .active else .portDown, hostFrom := .disabled }
    (((s.setRing k r1).fitRing k).adoptWord k).ringDone p RingRes.done

/-- ENABLE (R450). -/
def execEnable (p : Path) (ring : Nat) (entry : Bytes) (s : State) : Host.Outcome State Fault Refusal :=
  .next (s.ringCmd p ring 1 fun s => s.enableRing p ring entry)

/-! ## DISABLE -/

/-- Discard the queued descriptors of a ring that are not in flight; a claim of kept lists goes with them (R450). -/
def State.discardQueued (s : State) (k : Nat) : State :=
  let gone := (s.ringDescs k).filter fun d => d.resv == 0
  let ids := gone.map (·.id)
  let s1 := s.onFe fun f => { f with descs := f.descs.filter fun d => !(ids.contains d.id) }
  let s2 := s1.onSp fun x => { x with kept := x.kept.map fun q => match q.claimed with
    | some i => if ids.contains i then { q with claimed := none } else q
    | none => q }
  (s2.dropKept fun q => q.release && q.claimed.isNone).endLoad

/-- Descriptors of a ring whose window is being sorted, or has begun to pool. -/
def State.sorting (s : State) (k : Nat) : List Nat :=
  let ids := s.sp.sorters.flatMap fun e => e.2.members.map (·.id)
  let pools := (s.sp.pwins.filter fun w => w.round != 0).flatMap fun w => w.members.map (·.mem.id)
  ((s.ringDescs k).filter fun d => (ids.contains d.id && d.stage == .window) ||
    (pools.contains d.id && d.stage == .pooling && (d.opc == 1 || d.opc == 2))).map (·.id)

/-- DISABLE abandons the descriptors of the ring that are being sorted or pooled: they complete with RESET_ABORT (Tables 46 and 56;
log entry 100). -/
def State.abandonSorting (s : State) (k : Nat) : State :=
  State.forEach (fun s id => (s.abandon id).endDesc id St.resetAbort 0 0 0) (s.sorting k) s

/-- DISABLE of ring k (R450): DRAINING, then DISABLED once its descriptors have completed. -/
def State.stopRing (s : State) (p : Path) (k : Nat) : State :=
  let r := s.ring k
  if k ≥ Member.rings s.fuses.member then s.ringDone p RingRes.badRing
  else if !(r.state == .active || r.state == .paused || r.state == .portDown) then s.ringDone p RingRes.wrongState
  else if Ring.isCpl r && s.named k then s.ringDone p RingRes.wrongState
  else
    let s1 := (s.setRing k { Ring.noTurn r with state := .draining }).onFe fun f => { f with announced := f.announced.erase k }
    (((s1.fitRing k).discardQueued k).abandonSorting k).drained k

/-! ## PAUSE -/

/-- PAUSE of ring k. -/
def State.pauseRing (s : State) (p : Path) (k : Nat) : State :=
  if k ≥ Member.rings s.fuses.member then s.ringDone p RingRes.badRing
  else if (s.ring k).state ≠ .active then s.ringDone p RingRes.wrongState
  else
    let s1 := (s.onRing k fun r => { Ring.noTurn r with state := .paused }).onFe fun f => { f with announced := f.announced.erase k }
    s1.ringDone p RingRes.done

/-! ## RESUME -/

/-- Write the held records that can be written, in ring order (R86, R87). -/
def State.flushHeld (s : State) : State :=
  State.forEach (fun s d => if s.cplLive (s.ring d.ring).cplRing && (s.ring d.ring).state != .pausedHost then s.finishRecord d else s)
    (s.fe.descs.filter fun d => d.stage == .heldRec) s

/-- Run the descriptors of a ring that are marked for replay (R86). -/
def State.replayAll (s : State) (k : Nat) : State :=
  (State.forEach (fun s d => (s.setDesc (d.again s)).letIn d.id) ((s.ringDescs k).filter fun d => d.stage == .replay) s).endLoad

/-- The state to which RESUME returns a ring (R87, R450). -/
def Ring.resumed (r : Ring) : RingState :=
  if r.state = .pausedHost then (if r.hostFrom = .paused then .active else r.hostFrom) else .active

/-- RESUME of ring k with bytes 0 to 31 of its entry read again (R45, R87, R449, R450). Reservations that the ring's descriptors hold are
released from the completion ring that the new entry names (log entry 98). A ring in PORT_DOWN or PAUSED_HOST whose home port, by the entry
as read again, is not up ends with WRONG_STATE also where its entry breaks R449, since the state is looked at first (DESIGN CHOICE: the spec
gives no order). -/
def State.resumeRing (s : State) (p : Path) (k : Nat) (entry : Bytes) : State :=
  let old := s.ring k
  let r := old.configure entry
  if k ≥ Member.rings s.fuses.member then s.ringDone p RingRes.badRing
  else if !(old.state == .paused || ((old.state == .portDown || old.state == .pausedHost) && s.homeUp r)) then
    s.ringDone p RingRes.wrongState
  else if s.entryBad r then s.ringDone p RingRes.badEntry
  else
    let s1 := ((s.setRing k { r with state := Ring.resumed old, hostFrom := .disabled }).fitRing k).adoptWord k
    let s2 := if old.state = .pausedHost || old.state = .portDown then s1.flushHeld.replayAll k else s1
    let s3 := (s2.reserveAll (if Ring.isCpl r then k else r.cplRing)).announce k
    (s3.drained k).ringDone p RingRes.done

/-- RESUME (R450). -/
def execResume (p : Path) (ring : Nat) (entry : Bytes) (s : State) : Host.Outcome State Fault Refusal :=
  .next (s.ringCmd p ring 4 fun s => s.resumeRing p ring entry)

/-! ## RESET -/

/-- RESET of ring k (R49, R51, R450). -/
def State.resetCmd (s : State) (p : Path) (k : Nat) : State :=
  if k ≥ Member.rings s.fuses.member then s.ringDone p RingRes.badRing
  else if (s.ring k).state = .disabled then s.ringDone p RingRes.done
  else if Ring.isCpl (s.ring k) && s.named k then s.ringDone p RingRes.wrongState
  else (s.resetRing k).ringDone p RingRes.done

/-! ## DUMP_ALL and DUMP_ONE -/

/-- The message that writes bytes 32 to 63 of ring k's entry, on its HOME_PORT (R46; log entry 102). -/
def State.entryOut (s : State) (k : Nat) : Output :=
  .entry k (Ring.dump (s.ring k)) (s.entryAddr k + 32) (s.drvRoute (s.ring k).home)

/-- DUMP_ALL writes bytes 32 to 63 of every entry (R46, R51). -/
def execDumpAll (p : RingWrite) (s : State) : Host.Outcome State Fault Refusal :=
  .next (s.ringCmd p.path p.ring 6 fun s =>
    (s.sendAll ((List.range (Member.rings s.fuses.member)).map s.entryOut)).ringDone p.path RingRes.done)

/-- DUMP_ONE writes bytes 32 to 63 of one entry (R46, R51). -/
def execDumpOne (p : Path) (ring : Nat) (s : State) : Host.Outcome State Fault Refusal :=
  .next (s.ringCmd p ring 7 fun s =>
    if ring ≥ Member.rings s.fuses.member then s.ringDone p RingRes.badRing
    else (s.send (s.entryOut ring)).ringDone p RingRes.done)

end Sys2Proof.Machine
end

