-- ==== Sys2Proof/Machine/Rest.lean ====
section
/-!
DEFINITION. The commands with which the last descriptor in flight, or the last response of a fabric port, may end: with it ends an exchange
to STANDBY or to OFF that was open (R24, R365).
-/

namespace Sys2Proof.Machine

/-- DESCRIPTOR_READ_RETURN. -/
def execDescriptorReadReturn (ring : Nat) (slots : List Slot) (s : State) : Host.Outcome State Fault Refusal :=
  .next (State.rest s.exchanging (s.readReturn ring slots))

/-- COMPLETION_RECORD_WRITE. -/
def execCompletionRecordWrite (id : Nat) (s : State) : Host.Outcome State Fault Refusal :=
  .next (State.rest s.exchanging (s.recordWrite id))

/-- DISABLE (R450). -/
def execDisable (p : Path) (ring : Nat) (s : State) : Host.Outcome State Fault Refusal :=
  .next (State.rest s.exchanging (s.ringCmd p ring 2 fun s => s.stopRing p ring))

/-- PAUSE (R450). -/
def execPause (p : Path) (ring : Nat) (s : State) : Host.Outcome State Fault Refusal :=
  .next (State.rest s.exchanging (s.ringCmd p ring 3 fun s => s.pauseRing p ring))

/-- RESET (R450). -/
def execReset (p : Path) (ring : Nat) (s : State) : Host.Outcome State Fault Refusal :=
  .next (State.rest s.exchanging (s.ringCmd p ring 5 fun s => s.resetCmd p ring))

/-- HOST_LINK_DOWN. -/
def execHostLinkDown (port : Nat) (s : State) : Host.Outcome State Fault Refusal :=
  .next (State.rest s.exchanging (s.linkDown port))

/-- FUNCTION_LEVEL_RESET. -/
def execFunctionLevelReset (port : FnReset) (s : State) : Host.Outcome State Fault Refusal :=
  .next (State.rest s.exchanging (s.funcReset port.port port.fn))

/-- FABRIC_CREDIT_RETURN. -/
def execFabricCreditReturn (port : Nat) (resp : Bool) (n : Nat) (s : State) : Host.Outcome State Fault Refusal :=
  .next (State.rest s.exchanging (s.creditReturn port resp n))

/-- BATCH_ACK. -/
def execBatchAck (batch : OnPort (BitVec 32)) (accepted late dropped rejected : Nat) (s : State) : Host.Outcome State Fault Refusal :=
  .next (State.rest s.exchanging (s.batchAck batch.port batch.val accepted late dropped rejected))

/-- REMOTE_ACK_TIMEOUT. -/
def execRemoteAckTimeout (batch : BitVec 32) (s : State) : Host.Outcome State Fault Refusal :=
  .next (State.rest s.exchanging (s.ackTimeout batch))

/-- PILLOW_RESERVE. -/
def execPillowReserve (s : State) : Host.Outcome State Fault Refusal :=
  .next (State.rest s.exchanging s.pillowReserve)

/-- REMOTE_CONTRIBUTION. -/
def execRemoteContribution (port : Nat) (msg : ContribMsg) (s : State) : Host.Outcome State Fault Refusal :=
  .next (State.rest s.exchanging (s.remoteMsg port msg))

/-- BATCH_DISCARD. -/
def execBatchDiscard (sender : BitVec 16) (batch : BitVec 32) (s : State) : Host.Outcome State Fault Refusal :=
  .next (State.rest s.exchanging (s.batchDiscard sender batch))

/-- INBOUND_FABRIC_ERROR. -/
def execInboundFabricError (port : Nat) (msg : BadMsg) (s : State) : Host.Outcome State Fault Refusal :=
  .next (State.rest s.exchanging (s.inboundBad port msg))

end Sys2Proof.Machine
end

