-- ==== Sys2Proof/Machine/Dispatch.lean ====
section
/-!
DEFINITION. The one arm per command: each calls the command's meaning.
-/

namespace Sys2Proof.Machine

def exec (i : Instr) (s : State) : Host.Outcome State Fault Refusal :=
  match i with
  | .enable p ring entry => Sys2Proof.Machine.execEnable p ring entry s
  | .disable p ring => Sys2Proof.Machine.execDisable p ring s
  | .pause p ring => Sys2Proof.Machine.execPause p ring s
  | .resume p ring entry => Sys2Proof.Machine.execResume p ring entry s
  | .reset p ring => Sys2Proof.Machine.execReset p ring s
  | .dumpAll p => Sys2Proof.Machine.execDumpAll p s
  | .dumpOne p ring => Sys2Proof.Machine.execDumpOne p ring s
  | .eyeletSnoop port line => Sys2Proof.Machine.execEyeletSnoop port line s
  | .eyeletLineReturn line words => Sys2Proof.Machine.execEyeletLineReturn line words s
  | .ringOverrunRecordWrite cpl => Sys2Proof.Machine.execRingOverrunRecordWrite cpl s
  | .bar2DoorbellWrite off size val => Sys2Proof.Machine.execBar2DoorbellWrite off size val s
  | .bar2ReadBack off size => Sys2Proof.Machine.execBar2ReadBack off size s
  | .nearRingAnnouncement ring idx => Sys2Proof.Machine.execNearRingAnnouncement ring idx s
  | .ringTurn ring => Sys2Proof.Machine.execRingTurn ring s
  | .descriptorReadReturn ring slots => Sys2Proof.Machine.execDescriptorReadReturn ring slots s
  | .completionReserve cpl => Sys2Proof.Machine.execCompletionReserve cpl s
  | .completionRecordWrite id => Sys2Proof.Machine.execCompletionRecordWrite id s
  | .modTimeExpiry ring => Sys2Proof.Machine.execModTimeExpiry ring s
  | .nop id => Sys2Proof.Machine.execNop id s
  | .marker id => Sys2Proof.Machine.execMarker id s
  | .fenceOrder id => Sys2Proof.Machine.execFenceOrder id s
  | .fenceVisible id => Sys2Proof.Machine.execFenceVisible id s
  | .wait id => Sys2Proof.Machine.execWait id s
  | .waitTimeout id => Sys2Proof.Machine.execWaitTimeout id s
  | .gatherPool id => Sys2Proof.Machine.execGatherPool id s
  | .gatherSeq id => Sys2Proof.Machine.execGatherSeq id s
  | .scatterGradLists id grad => Sys2Proof.Machine.execScatterGradLists id grad s
  | .scatterGradRows id grad => Sys2Proof.Machine.execScatterGradRows id grad s
  | .apply id => Sys2Proof.Machine.execApply id s
  | .setEpoch id => Sys2Proof.Machine.execSetEpoch id s
  | .flush id fails => Sys2Proof.Machine.execFlush id fails s
  | .tableLoadOpen id => Sys2Proof.Machine.execTableLoadOpen id s
  | .tableLoadFill id src => Sys2Proof.Machine.execTableLoadFill id src s
  | .tablePinFromBacking id rows => Sys2Proof.Machine.execTablePinFromBacking id rows s
  | .tablePinFromSrc id src => Sys2Proof.Machine.execTablePinFromSrc id src s
  | .tableEvictRows id fails => Sys2Proof.Machine.execTableEvictRows id fails s
  | .tableEvictUnpin id fails => Sys2Proof.Machine.execTableEvictUnpin id fails s
  | .tableEvictVersion id => Sys2Proof.Machine.execTableEvictVersion id s
  | .tableSwitchForward id => Sys2Proof.Machine.execTableSwitchForward id s
  | .tableSwitchAny id => Sys2Proof.Machine.execTableSwitchAny id s
  | .rowList id => Sys2Proof.Machine.execRowList id s
  | .rowRange id rows fails => Sys2Proof.Machine.execRowRange id rows fails s
  | .xlate id => Sys2Proof.Machine.execXlate id s
  | .sequential id => Sys2Proof.Machine.execSequential id s
  | .normal id => Sys2Proof.Machine.execNormal id s
  | .willneed id rows => Sys2Proof.Machine.execWillneed id rows s
  | .dontneed id fails => Sys2Proof.Machine.execDontneed id fails s
  | .bulkSpill id => Sys2Proof.Machine.execBulkSpill id s
  | .bulkFill id => Sys2Proof.Machine.execBulkFill id s
  | .bulkBurst id src dstFault => Sys2Proof.Machine.execBulkBurst id src dstFault s
  | .hostLinkDown port => Sys2Proof.Machine.execHostLinkDown port s
  | .functionLevelReset port => Sys2Proof.Machine.execFunctionLevelReset port s
  | .hostPortTraining port res => Sys2Proof.Machine.execHostPortTraining port res s
  | .fabricPortTraining port link => Sys2Proof.Machine.execFabricPortTraining port link s
  | .fabricPortDrain port => Sys2Proof.Machine.execFabricPortDrain port s
  | .ctxCfgWrite p off size val => Sys2Proof.Machine.execCtxCfgWrite p off size val s
  | .inval p val => Sys2Proof.Machine.execInval p val s
  | .invalDrain p val => Sys2Proof.Machine.execInvalDrain p val s
  | .mirrorReadReturn ctx block => Sys2Proof.Machine.execMirrorReadReturn ctx block s
  | .atsTranslationCompletion id xs => Sys2Proof.Machine.execAtsTranslationCompletion id xs s
  | .pageResponse id code xs => Sys2Proof.Machine.execPageResponse id code xs s
  | .pageResponseTimeout id => Sys2Proof.Machine.execPageResponseTimeout id s
  | .parkEntryFree ring => Sys2Proof.Machine.execParkEntryFree ring s
  | .invalidateRequest port tag pasid iova len => Sys2Proof.Machine.execInvalidateRequest port tag pasid iova len s
  | .invalidateDrained port tag => Sys2Proof.Machine.execInvalidateDrained port tag s
  | .invalAbort port tag => Sys2Proof.Machine.execInvalAbort port tag s
  | .xlateDriverRetry which port iova ok => Sys2Proof.Machine.execXlateDriverRetry which port iova ok s
  | .dmaTimeout id done addr => Sys2Proof.Machine.execDmaTimeout id done addr s
  | .define p img => Sys2Proof.Machine.execDefine p img s
  | .delete p => Sys2Proof.Machine.execDelete p s
  | .bands p img => Sys2Proof.Machine.execBands p img s
  | .partCfgWrite p off size val => Sys2Proof.Machine.execPartCfgWrite p off size val s
  | .retirement tbl ver fails => Sys2Proof.Machine.execRetirement tbl ver fails s
  | .retirementSweep tbl ver => Sys2Proof.Machine.execRetirementSweep tbl ver s
  | .retireRetry tbl ver fails => Sys2Proof.Machine.execRetireRetry tbl ver fails s
  | .retireStalled tbl ver => Sys2Proof.Machine.execRetireStalled tbl ver s
  | .regrade tbl ver row src fails => Sys2Proof.Machine.execRegrade tbl ver row src fails s
  | .windowStart feeds => Sys2Proof.Machine.execWindowStart feeds s
  | .packWaitExpiry => Sys2Proof.Machine.execPackWaitExpiry s
  | .windowComplete sorter parity => Sys2Proof.Machine.execWindowComplete sorter parity s
  | .imapFull => Sys2Proof.Machine.execImapFull s
  | .runAheadScan id keys rows fails => Sys2Proof.Machine.execRunAheadScan id keys rows fails s
  | .imapRel p val => Sys2Proof.Machine.execImapRel p val s
  | .spoolGrant => Sys2Proof.Machine.execSpoolGrant s
  | .spoolFull => Sys2Proof.Machine.execSpoolFull s
  | .roundStart r => Sys2Proof.Machine.execRoundStart r s
  | .tilePositionsGrant id => Sys2Proof.Machine.execTilePositionsGrant id s
  | .bobbinGrant win key ver => Sys2Proof.Machine.execBobbinGrant win key ver s
  | .rowDelivery win key ver src fails => Sys2Proof.Machine.execRowDelivery win key ver src fails s
  | .tileDrain win id pos tile drain => Sys2Proof.Machine.execTileDrain win id pos tile drain s
  | .tileRel p val => Sys2Proof.Machine.execTileRel p val s
  | .load p img => Sys2Proof.Machine.execLoad p img s
  | .swap p => Sys2Proof.Machine.execSwap p s
  | .pillowReserve => Sys2Proof.Machine.execPillowReserve s
  | .pillowFull id => Sys2Proof.Machine.execPillowFull id s
  | .remoteContribution port msg => Sys2Proof.Machine.execRemoteContribution port msg s
  | .batchDiscard sender batch => Sys2Proof.Machine.execBatchDiscard sender batch s
  | .batchAck batch accepted late dropped rejected => Sys2Proof.Machine.execBatchAck batch accepted late dropped rejected s
  | .remoteAckTimeout batch => Sys2Proof.Machine.execRemoteAckTimeout batch s
  | .mergeEvict group => Sys2Proof.Machine.execMergeEvict group s
  | .couchingRmw tbl ver row src fails => Sys2Proof.Machine.execCouchingRmw tbl ver row src fails s
  | .tier2RmwRetry tbl ver row src expired fails => Sys2Proof.Machine.execTier2RmwRetry tbl ver row src expired fails s
  | .wbAgeExpiry tbl ver row status => Sys2Proof.Machine.execWbAgeExpiry tbl ver row status s
  | .writeBack tbl ver row status => Sys2Proof.Machine.execWriteBack tbl ver row status s
  | .twinFull tbl ver row => Sys2Proof.Machine.execTwinFull tbl ver row s
  | .twinSpaceGrant tbl ver row fails => Sys2Proof.Machine.execTwinSpaceGrant tbl ver row fails s
  | .commit p val => Sys2Proof.Machine.execCommit p val s
  | .cacheWayGrant tbl ver row fails => Sys2Proof.Machine.execCacheWayGrant tbl ver row fails s
  | .agingSweep => Sys2Proof.Machine.execAgingSweep s
  | .loadIntervalEnd => Sys2Proof.Machine.execLoadIntervalEnd s
  | .migrationPublish tbl ver row fails => Sys2Proof.Machine.execMigrationPublish tbl ver row fails s
  | .replicationPublish tbl ver row fails => Sys2Proof.Machine.execReplicationPublish tbl ver row fails s
  | .bankAccess ch => Sys2Proof.Machine.execBankAccess ch s
  | .refreshBurst pch => Sys2Proof.Machine.execRefreshBurst pch s
  | .thermalSample temps su => Sys2Proof.Machine.execThermalSample temps su s
  | .retentionStep pch => Sys2Proof.Machine.execRetentionStep pch s
  | .retentionStepEnd pch => Sys2Proof.Machine.execRetentionStepEnd pch s
  | .thermalTrip => Sys2Proof.Machine.execThermalTrip s
  | .bankStuck ch tier bank => Sys2Proof.Machine.execBankStuck ch tier bank s
  | .wcRetire ch => Sys2Proof.Machine.execWcRetire ch s
  | .rowRepair ch tier bank row => Sys2Proof.Machine.execRowRepair ch tier bank row s
  | .bankRepair ch tier bank => Sys2Proof.Machine.execBankRepair ch tier bank s
  | .replace p lch readable => Sys2Proof.Machine.execReplace p lch readable s
  | .fold p lch readable fails => Sys2Proof.Machine.execFold p lch readable fails s
  | .unfold p lch => Sys2Proof.Machine.execUnfold p lch s
  | .retrain p pch res => Sys2Proof.Machine.execRetrain p pch res s
  | .test p pch errors tier bank line => Sys2Proof.Machine.execTest p pch errors tier bank line s
  | .retire p pch => Sys2Proof.Machine.execRetire p pch s
  | .channelSwitch lch res => Sys2Proof.Machine.execChannelSwitch lch res s
  | .marginCheck lch found => Sys2Proof.Machine.execMarginCheck lch found s
  | .scrub ch found => Sys2Proof.Machine.execScrub ch found s
  | .autoAttach drive info => Sys2Proof.Machine.execAutoAttach drive info s
  | .nvmeSlotGrant drive => Sys2Proof.Machine.execNvmeSlotGrant drive s
  | .nvmeCompletion drive tag res data => Sys2Proof.Machine.execNvmeCompletion drive tag res data s
  | .nvmeCmdTimeout drive tag => Sys2Proof.Machine.execNvmeCmdTimeout drive tag s
  | .abortTimeout drive tag => Sys2Proof.Machine.execAbortTimeout drive tag s
  | .driveRemoval drive => Sys2Proof.Machine.execDriveRemoval drive s
  | .flowStall id => Sys2Proof.Machine.execFlowStall id s
  | .counterClear p val => Sys2Proof.Machine.execCounterClear p val s
  | .subtract p val => Sys2Proof.Machine.execSubtract p val s
  | .counterLowRead p off => Sys2Proof.Machine.execCounterLowRead p off s
  | .pllFault domain su => Sys2Proof.Machine.execPllFault domain su s
  | .referenceFault stopped => Sys2Proof.Machine.execReferenceFault stopped s
  | .refLossTimeout su => Sys2Proof.Machine.execRefLossTimeout su s
  | .pllAonFault locked us su => Sys2Proof.Machine.execPllAonFault locked us su s
  | .pmhRaise target su => Sys2Proof.Machine.execPmhRaise target su s
  | .pmhLower target => Sys2Proof.Machine.execPmhLower target s
  | .pmhEnterStandby => Sys2Proof.Machine.execPmhEnterStandby s
  | .pmhLeaveStandby target => Sys2Proof.Machine.execPmhLeaveStandby target s
  | .pmhOff fails => Sys2Proof.Machine.execPmhOff fails s
  | .pmhEmergAssert => Sys2Proof.Machine.execPmhEmergAssert s
  | .pmhEmergRelease => Sys2Proof.Machine.execPmhEmergRelease s
  | .pmhStepGnt => Sys2Proof.Machine.execPmhStepGnt s
  | .sliceGroupGate group => Sys2Proof.Machine.execSliceGroupGate group s
  | .powerGood su => Sys2Proof.Machine.execPowerGood su s
  | .blockResetCmd p su => Sys2Proof.Machine.execBlockResetCmd p su s
  | .tapReset => Sys2Proof.Machine.execTapReset s
  | .coreWatchdogExpiry core pc restarted su => Sys2Proof.Machine.execCoreWatchdogExpiry core pc restarted su s
  | .mpuFault core pc restarted su => Sys2Proof.Machine.execMpuFault core pc restarted su s
  | .voltageSample mv => Sys2Proof.Machine.execVoltageSample mv s
  | .plogProgram => Sys2Proof.Machine.execPlogProgram s
  | .activationHealthWatch healthy => Sys2Proof.Machine.execActivationHealthWatch healthy s
  | .activationDeferEnd sigOk => Sys2Proof.Machine.execActivationDeferEnd sigOk s
  | .sessionTimeout p => Sys2Proof.Machine.execSessionTimeout p s
  | .lockoutEnd p => Sys2Proof.Machine.execLockoutEnd p s
  | .getHealth p req => Sys2Proof.Machine.execGetHealth p req s
  | .readSensors p req => Sys2Proof.Machine.execReadSensors p req s
  | .logPos p req => Sys2Proof.Machine.execLogPos p req s
  | .plogRead p req page => Sys2Proof.Machine.execPlogRead p req page s
  | .auditRead p req aseq => Sys2Proof.Machine.execAuditRead p req aseq s
  | .auditHead p req => Sys2Proof.Machine.execAuditHead p req s
  | .coreRestart p req core restarted su => Sys2Proof.Machine.execCoreRestart p req core restarted su s
  | .authChallenge p req => Sys2Proof.Machine.execAuthChallenge p req s
  | .authResponse p req role keyIdx sigOk => Sys2Proof.Machine.execAuthResponse p req role keyIdx sigOk s
  | .authEnd p req => Sys2Proof.Machine.execAuthEnd p req s
  | .imgStage p req off chunk last => Sys2Proof.Machine.execImgStage p req off chunk last s
  | .imgActivate p req sigOk => Sys2Proof.Machine.execImgActivate p req sigOk s
  | .imgCommit p req => Sys2Proof.Machine.execImgCommit p req s
  | .imgRevert p req => Sys2Proof.Machine.execImgRevert p req s
  | .driveAttach p req drive info => Sys2Proof.Machine.execDriveAttach p req drive info s
  | .driveDetach p req drive fails => Sys2Proof.Machine.execDriveDetach p req drive fails s
  | .enrolInstaller p req off chunk last key count tokenOk => Sys2Proof.Machine.execEnrolInstaller p req off chunk last key count tokenOk s
  | .enrolOperator p req idx key => Sys2Proof.Machine.execEnrolOperator p req idx key s
  | .revokeOperator p req idx => Sys2Proof.Machine.execRevokeOperator p req idx s
  | .setLimit p req limits => Sys2Proof.Machine.execSetLimit p req limits s
  | .debugOpen p req => Sys2Proof.Machine.execDebugOpen p req s
  | .debugClose p req => Sys2Proof.Machine.execDebugClose p req s
  | .fuseProgram p req revoke => Sys2Proof.Machine.execFuseProgram p req revoke s
  | .returnDiag p req => Sys2Proof.Machine.execReturnDiag p req s
  | .entdaa addr => Sys2Proof.Machine.execEntdaa addr s
  | .setdasa addr => Sys2Proof.Machine.execSetdasa addr s
  | .rstdaa => Sys2Proof.Machine.execRstdaa s
  | .enec events => Sys2Proof.Machine.execEnec events s
  | .disec events => Sys2Proof.Machine.execDisec events s
  | .getpid => Sys2Proof.Machine.execGetpid s
  | .getbcr => Sys2Proof.Machine.execGetbcr s
  | .getdcr => Sys2Proof.Machine.execGetdcr s
  | .getstatus => Sys2Proof.Machine.execGetstatus s
  | .getmwl => Sys2Proof.Machine.execGetmwl s
  | .getmrl => Sys2Proof.Machine.execGetmrl s
  | .setmwl len => Sys2Proof.Machine.execSetmwl len s
  | .setmrl len => Sys2Proof.Machine.execSetmrl len s
  | .rstact action => Sys2Proof.Machine.execRstact action s
  | .i3cPrivateRead => Sys2Proof.Machine.execI3cPrivateRead s
  | .rowRecovery tbl ver row masterBad twinBad src => Sys2Proof.Machine.execRowRecovery tbl ver row masterBad twinBad src s
  | .sliceSpared pos => Sys2Proof.Machine.execSliceSpared pos s
  | .qxHandover us take su => Sys2Proof.Machine.execQxHandover us take su s
  | .inboundFabricError port msg => Sys2Proof.Machine.execInboundFabricError port msg s
  | .query p val => Sys2Proof.Machine.execQuery p val s
  | .poisonClear p val => Sys2Proof.Machine.execPoisonClear p val s
  | .eventWrite => Sys2Proof.Machine.execEventWrite s
  | .eyeletBaseWrite p off size val => Sys2Proof.Machine.execEyeletBaseWrite p off size val s
  | .authorityWrite p off size val => Sys2Proof.Machine.execAuthorityWrite p off size val s
  | .registerWrite p off size val => Sys2Proof.Machine.execRegisterWrite p off size val s
  | .powerLoss => Sys2Proof.Machine.execPowerLoss s
  | .referenceReturn us => Sys2Proof.Machine.execReferenceReturn us s
  | .controllerResetComplete drive ok => Sys2Proof.Machine.execControllerResetComplete drive ok s
  | .fabricCreditReturn port resp n => Sys2Proof.Machine.execFabricCreditReturn port resp n s
  | .priCapabilityEnable port => Sys2Proof.Machine.execPriCapabilityEnable port s
  | .reservedStateRequest target => Sys2Proof.Machine.execReservedStateRequest target s
  | .doubleFault core pc restarted su => Sys2Proof.Machine.execDoubleFault core pc restarted su s

end Sys2Proof.Machine
end

