-- ==== Sys2Proof/Machine/Step.lean ====
section
/-!
DEFINITION. One step: the command at the front of the queue, or an idle tick of the timestamp.
-/

namespace Sys2Proof.Machine

/-- The block with no command waiting: the 48-bit timestamp counter goes on by one (log entry 2). -/
def State.idle (s : State) : State := { s with tel := { s.tel with ts := s.tel.ts + 1 } }

/-- Take the command at the front of the queue and run it with the queue's rest; with none waiting, idle. -/
def step (s : State) : Host.Outcome State Fault Refusal :=
  match s.pending with
  | [] => .next s.idle
  | c :: rest => exec c { s with pending := rest }

/-- The command that a word spells put at the front of the queue; no word spells one, so the state is unchanged. -/
def State.withFetchWord (s : State) (nbits w : Nat) : State :=
  match decodeTableWord nbits w with
  | some c => { s with pending := c :: s.pending }
  | none => s

end Sys2Proof.Machine
end

