-- ==== Sys2Proof/Machine/Zones.lean ====
section
/-!
DEFINITION. The parts of the block's state, and what it means for a part to be unchanged: the terms in which frames are stated.
-/

namespace Sys2Proof.Machine

/-- The parts of the state: Ground store's bytes apart from what Steta and hardware keep of its channels. -/
inductive Zone where
  | pending | fuses | regs | pregs | lows | ctxCfg | updCfg | fwdCfg | drvCfg | fe | xl | tb | sp | qz | up | ch | gs | mem | fl | tel
  | pw | st | i3 | rl | free | out
  deriving DecidableEq, Repr

/-- A part is the same in two states. -/
def Zone.same (p : Zone) (s t : State) : Prop :=
  match p with
  | .pending => t.pending = s.pending
  | .fuses => t.fuses = s.fuses
  | .regs => t.regs = s.regs
  | .pregs => t.pregs = s.pregs
  | .lows => t.lows = s.lows
  | .ctxCfg => t.ctxCfg = s.ctxCfg
  | .updCfg => t.updCfg = s.updCfg
  | .fwdCfg => t.fwdCfg = s.fwdCfg
  | .drvCfg => t.drvCfg = s.drvCfg
  | .fe => t.fe = s.fe
  | .xl => t.xl = s.xl
  | .tb => t.tb = s.tb
  | .sp => t.sp = s.sp
  | .qz => t.qz = s.qz
  | .up => t.up = s.up
  | .ch => t.ch = s.ch
  | .gs => { t.gs with mem := [] } = { s.gs with mem := [] }
  | .mem => t.gs.mem = s.gs.mem
  | .fl => t.fl = s.fl
  | .tel => t.tel = s.tel
  | .pw => t.pw = s.pw
  | .st => t.st = s.st
  | .i3 => t.i3 = s.i3
  | .rl => t.rl = s.rl
  | .free => t.free = s.free
  | .out => t.out = s.out

/-- Every part outside the list is the same in two states. -/
def State.sameBut (l : List Zone) (s t : State) : Prop := ∀ p : Zone, l.contains p = false → p.same s t

/-- Every part that a block reset or a start-up takes to its reset state, or rebuilds (Table 102, R373). -/
def Zone.resets : List Zone :=
  [.regs, .pregs, .lows, .ctxCfg, .updCfg, .fwdCfg, .drvCfg, .fe, .xl, .tb, .sp, .qz, .up, .ch, .gs, .mem, .fl, .tel, .pw, .st, .i3, .rl]

/-- The parts that a command may change; it leaves every other part as it was. -/
def zonesOf : Instr → List Zone
  | .enable _ _ _ => [.regs, .fe, .up, .tel, .pw, .st, .out]
  | .disable _ _ => [.regs, .fe, .xl, .sp, .qz, .up, .fl, .tel, .st, .out]
  | .pause _ _ => [.regs, .fe, .tel, .st, .out]
  | .resume _ _ _ => [.regs, .fe, .xl, .sp, .qz, .up, .gs, .fl, .tel, .pw, .st, .out]
  | .reset _ _ => [.regs, .fe, .xl, .sp, .qz, .up, .fl, .tel, .pw, .st, .out]
  | .dumpAll _ => [.regs, .tel, .st, .out]
  | .dumpOne _ _ => [.regs, .tel, .st, .out]
  | .eyeletSnoop _ _ => [.fe, .out]
  | .eyeletLineReturn _ _ => [.fe, .up, .tel, .pw, .out]
  | .ringOverrunRecordWrite _ => [.fe, .up, .pw, .out]
  | .bar2DoorbellWrite _ _ _ => [.fe, .up, .tel, .pw, .out]
  | .bar2ReadBack _ _ => [.fe, .out]
  | .nearRingAnnouncement _ _ => [.fe, .up, .tel, .pw, .out]
  | .ringTurn _ => [.fe, .up, .pw, .out]
  | .descriptorReadReturn _ _ => [.fe, .xl, .tb, .sp, .up, .gs, .fl, .tel, .pw, .out]
  | .completionReserve _ => [.fe, .xl, .sp, .up, .fl, .tel, .out]
  | .completionRecordWrite _ => [.regs, .fe, .xl, .sp, .qz, .up, .fl, .tel, .pw, .out]
  | .modTimeExpiry _ => [.fe, .out]
  | .nop _ => [.fe]
  | .marker _ => [.fe, .tel, .out]
  | .fenceOrder _ => [.fe, .xl, .sp, .up, .fl, .tel, .out]
  | .fenceVisible _ => [.fe, .xl, .sp, .up, .fl, .tel, .out]
  | .wait _ => [.fe, .xl, .sp, .up, .fl, .tel, .out]
  | .waitTimeout _ => [.fe, .xl, .sp, .up, .fl, .tel, .out]
  | .gatherPool _ => [.regs, .fe, .xl, .sp, .up, .fl, .tel, .pw, .out]
  | .gatherSeq _ => [.regs, .fe, .xl, .sp, .up, .fl, .tel, .pw, .out]
  | .scatterGradLists _ _ => [.fe, .xl, .sp, .up, .gs, .fl, .tel, .pw, .free, .out]
  | .scatterGradRows _ _ => [.fe, .xl, .sp, .up, .gs, .fl, .tel, .pw, .free, .out]
  | .apply _ => [.fe, .tb, .up]
  | .setEpoch _ => [.fe, .tb]
  | .flush _ _ => [.fe, .tb, .up, .ch, .gs, .fl, .tel, .out]
  | .tableLoadOpen _ => [.fe, .xl, .tb, .out]
  | .tableLoadFill _ _ => [.fe, .xl, .tb, .sp, .up, .ch, .gs, .mem, .fl, .tel, .pw, .rl, .out]
  | .tablePinFromBacking _ _ => [.fe, .tb, .up, .ch, .gs, .mem, .fl, .tel, .rl, .out]
  | .tablePinFromSrc _ _ => [.fe, .xl, .tb, .sp, .up, .ch, .gs, .mem, .fl, .tel, .pw, .rl, .out]
  | .tableEvictRows _ _ => [.fe, .tb, .up, .ch, .gs, .fl, .tel, .out]
  | .tableEvictUnpin _ _ => [.fe, .tb, .up, .ch, .gs, .fl, .tel, .out]
  | .tableEvictVersion _ => [.fe, .tb]
  | .tableSwitchForward _ => [.fe, .tb, .tel]
  | .tableSwitchAny _ => [.fe, .tb, .tel]
  | .rowList _ => [.fe, .sp, .tel, .pw, .out]
  | .rowRange _ _ _ => [.fe, .tb, .up, .ch, .gs, .mem, .fl, .tel, .rl, .out]
  | .xlate _ => [.fe, .tel]
  | .sequential _ => [.fe, .xl, .tel]
  | .normal _ => [.fe, .xl, .tel]
  | .willneed _ _ => [.fe, .tb, .up, .ch, .gs, .mem, .fl, .tel, .rl, .out]
  | .dontneed _ _ => [.fe, .tb, .up, .ch, .gs, .fl, .tel, .out]
  | .bulkSpill _ => [.fe, .fl]
  | .bulkFill _ => [.fe, .fl]
  | .bulkBurst _ _ _ => [.fe, .xl, .sp, .up, .fl, .tel, .pw, .out]
  | .hostLinkDown _ => [.regs, .fe, .xl, .sp, .qz, .up, .ch, .gs, .fl, .tel, .pw, .out]
  | .functionLevelReset _ => [.regs, .fe, .xl, .sp, .qz, .up, .ch, .gs, .fl, .tel, .pw, .st, .out]
  | .hostPortTraining _ _ => [.regs, .fe, .xl, .sp, .qz, .up, .ch, .gs, .fl, .tel, .pw, .out]
  | .fabricPortTraining _ _ => [.fe, .up, .pw, .out]
  | .fabricPortDrain _ => [.pw, .out]
  | .ctxCfgWrite _ _ _ _ => [.lows, .ctxCfg, .xl, .qz, .tel, .st, .out]
  | .inval _ _ => [.regs, .xl, .tel, .st, .out]
  | .invalDrain _ _ => [.regs, .xl, .tel, .st, .out]
  | .mirrorReadReturn _ _ => [.fe, .xl, .sp, .up, .fl, .tel, .out]
  | .atsTranslationCompletion _ _ => [.fe, .xl, .sp, .up, .fl, .tel, .out]
  | .pageResponse _ _ _ => [.fe, .xl, .sp, .up, .fl, .tel, .out]
  | .pageResponseTimeout _ => [.fe, .xl, .sp, .up, .fl, .tel, .out]
  | .parkEntryFree _ => [.fe, .xl, .sp, .up, .fl, .tel, .out]
  | .invalidateRequest _ _ _ _ _ => [.fe, .xl, .sp, .up, .fl, .tel, .out]
  | .invalidateDrained _ _ => [.regs, .fe, .xl, .sp, .up, .fl, .tel, .out]
  | .invalAbort _ _ => [.regs, .fe, .xl, .sp, .up, .fl, .tel, .out]
  | .xlateDriverRetry _ _ _ _ => [.fe, .xl, .up, .tel, .pw, .out]
  | .dmaTimeout _ _ _ => [.fe, .sp, .up, .fl, .pw]
  | .define _ _ => [.regs, .tb, .gs, .tel, .st, .out]
  | .delete _ => [.regs, .tb, .up, .ch, .gs, .tel, .st, .rl, .out]
  | .bands _ _ => [.regs, .tb, .gs, .tel, .st, .out]
  | .partCfgWrite _ _ _ _ => [.regs, .lows, .tel, .st, .out]
  | .retirement _ _ _ => [.tb, .up, .ch, .gs, .fl, .tel, .rl, .out]
  | .retirementSweep _ _ => [.tb, .up, .ch, .gs, .tel]
  | .retireRetry _ _ _ => [.tb, .up, .ch, .gs, .fl, .tel, .rl, .out]
  | .retireStalled _ _ => [.tb, .tel]
  | .regrade _ _ _ _ _ => [.tb, .up, .ch, .gs, .mem, .fl, .tel, .rl, .out]
  | .windowStart _ => [.fe, .xl, .tb, .sp, .up, .gs, .fl, .tel, .pw, .out]
  | .packWaitExpiry => [.sp]
  | .windowComplete _ _ => [.regs, .fe, .xl, .sp, .up, .gs, .fl, .tel, .pw, .out]
  | .imapFull => [.sp, .tel]
  | .runAheadScan _ _ _ _ => [.tb, .sp, .up, .ch, .gs, .mem, .fl, .tel, .rl, .out]
  | .imapRel _ _ => [.regs, .sp, .tel, .st, .out]
  | .spoolGrant => [.regs, .fe, .xl, .sp, .up, .fl, .tel, .pw, .out]
  | .spoolFull => [.sp, .tel]
  | .roundStart _ => [.regs, .fe, .xl, .sp, .up, .ch, .gs, .fl, .tel, .out]
  | .tilePositionsGrant _ => [.regs, .fe, .xl, .sp, .up, .fl, .tel, .pw, .out]
  | .bobbinGrant _ _ _ => [.regs, .fe, .xl, .sp, .up, .ch, .gs, .fl, .tel, .out]
  | .rowDelivery _ _ _ _ _ => [.regs, .fe, .xl, .tb, .sp, .up, .ch, .gs, .mem, .fl, .tel, .rl, .out]
  | .tileDrain _ _ _ _ _ => [.regs, .fe, .xl, .sp, .qz, .up, .fl, .tel, .pw, .rl, .out]
  | .tileRel _ _ => [.regs, .sp, .tel, .st, .out]
  | .load _ _ => [.regs, .qz, .tel, .st, .out]
  | .swap _ => [.regs, .qz, .tel, .st, .out]
  | .pillowReserve => [.fe, .up, .gs, .tel, .pw, .free, .out]
  | .pillowFull _ => [.fe, .tel]
  | .remoteContribution _ _ => [.up, .gs, .tel, .pw, .free, .out]
  | .batchDiscard _ _ => [.up, .gs, .tel, .pw, .free, .out]
  | .batchAck _ _ _ _ _ => [.fe, .up, .tel, .pw, .out]
  | .remoteAckTimeout _ => [.fe, .up, .tel, .pw, .out]
  | .mergeEvict _ => [.up, .gs, .tel]
  | .couchingRmw _ _ _ _ _ => [.fe, .tb, .up, .ch, .gs, .mem, .fl, .tel, .rl, .out]
  | .tier2RmwRetry _ _ _ _ _ _ => [.fe, .tb, .up, .ch, .gs, .mem, .fl, .tel, .rl, .out]
  | .wbAgeExpiry _ _ _ _ => [.tb, .up, .ch, .gs, .fl, .tel, .out]
  | .writeBack _ _ _ _ => [.tb, .up, .ch, .gs, .fl, .tel, .out]
  | .twinFull _ _ _ => [.up, .tel]
  | .twinSpaceGrant _ _ _ _ => [.fe, .tb, .up, .ch, .gs, .mem, .fl, .tel, .out]
  | .commit _ _ => [.pregs, .lows, .up, .tel, .st, .out]
  | .cacheWayGrant _ _ _ _ => [.fe, .tb, .up, .ch, .gs, .mem, .fl, .tel, .out]
  | .agingSweep => [.tb, .ch, .gs, .tel]
  | .loadIntervalEnd => [.ch, .gs, .tel]
  | .migrationPublish _ _ _ _ => [.tb, .up, .ch, .gs, .mem, .fl, .tel, .out]
  | .replicationPublish _ _ _ _ => [.tb, .up, .ch, .gs, .mem, .fl, .tel, .out]
  | .bankAccess _ => [.ch, .gs, .tel, .free]
  | .refreshBurst _ => [.gs, .tel, .free]
  | .thermalSample _ _ => [.free, .out] ++ Zone.resets
  | .retentionStep _ => [.regs, .fe, .tb, .sp, .up, .ch, .gs, .mem, .fl, .tel, .st, .rl, .free, .out]
  | .retentionStepEnd _ => [.gs]
  | .thermalTrip => Zone.resets
  | .bankStuck _ _ _ => [.regs, .fe, .tb, .sp, .up, .ch, .gs, .mem, .fl, .tel, .st, .rl, .free, .out]
  | .wcRetire _ => [.gs, .tel]
  | .rowRepair _ _ _ _ => [.regs, .fe, .tb, .sp, .up, .ch, .gs, .mem, .fl, .tel, .st, .rl, .free, .out]
  | .bankRepair _ _ _ => [.regs, .fe, .tb, .sp, .up, .ch, .gs, .mem, .fl, .tel, .st, .rl, .free, .out]
  | .replace _ _ _ => [.regs, .tb, .up, .ch, .gs, .mem, .fl, .tel, .st, .rl, .free, .out]
  | .fold _ _ _ _ => [.regs, .tb, .up, .ch, .gs, .fl, .tel, .st, .out]
  | .unfold _ _ => [.regs, .gs, .tel, .st, .out]
  | .retrain _ _ _ => [.regs, .gs, .tel, .st, .out]
  | .test _ _ _ _ _ _ => [.regs, .gs, .tel, .st, .out]
  | .retire _ _ => [.regs, .gs, .tel, .st, .out]
  | .channelSwitch _ _ => [.regs, .tb, .up, .ch, .gs, .mem, .fl, .tel, .st, .rl, .free, .out]
  | .marginCheck _ _ => [.regs, .fe, .tb, .sp, .up, .ch, .gs, .mem, .fl, .tel, .st, .rl, .free, .out]
  | .scrub _ _ => [.regs, .fe, .tb, .sp, .up, .ch, .gs, .mem, .fl, .tel, .st, .rl, .free, .out]
  | .autoAttach _ _ => [.fl, .tel, .out]
  | .nvmeSlotGrant _ => [.gs, .fl, .tel, .out]
  | .nvmeCompletion _ _ _ _ => [.regs, .fe, .xl, .tb, .sp, .up, .ch, .gs, .fl, .tel, .rl, .out]
  | .nvmeCmdTimeout _ _ => [.regs, .fe, .xl, .tb, .sp, .up, .ch, .gs, .fl, .tel, .rl, .out]
  | .abortTimeout _ _ => [.regs, .fe, .xl, .tb, .sp, .up, .ch, .gs, .fl, .tel, .rl, .out]
  | .driveRemoval _ => [.regs, .fe, .xl, .tb, .sp, .up, .ch, .gs, .fl, .tel, .rl, .out]
  | .flowStall _ => [.fe, .tel]
  | .counterClear _ _ => [.regs, .tel, .st, .out]
  | .subtract _ _ => [.regs, .tel, .st, .out]
  | .counterLowRead _ _ => [.tel, .out]
  | .pllFault _ _ => [.free, .out] ++ Zone.resets
  | .referenceFault _ => [.tel, .pw]
  | .refLossTimeout _ => [.free, .out] ++ Zone.resets
  | .pllAonFault _ _ _ => [.free, .out] ++ Zone.resets
  | .pmhRaise _ _ => [.free, .out] ++ Zone.resets
  | .pmhLower _ => [.out] ++ Zone.resets
  | .pmhEnterStandby => [.out] ++ Zone.resets
  | .pmhLeaveStandby _ => [.out] ++ Zone.resets
  | .pmhOff _ => [.out] ++ Zone.resets
  | .pmhEmergAssert => [.tel, .pw]
  | .pmhEmergRelease => [.free, .out] ++ Zone.resets
  | .pmhStepGnt => [.free, .out] ++ Zone.resets
  | .sliceGroupGate _ => [.pw]
  | .powerGood _ => [.free, .out] ++ Zone.resets
  | .blockResetCmd _ _ => [.free, .out] ++ Zone.resets
  | .tapReset => [.pw]
  | .coreWatchdogExpiry _ _ _ _ => [.free, .out] ++ Zone.resets
  | .mpuFault _ _ _ _ => [.free, .out] ++ Zone.resets
  | .voltageSample _ => [.tel, .st]
  | .plogProgram => [.tel]
  | .activationHealthWatch _ => [.regs, .lows, .fe, .tb, .sp, .up, .ch, .gs, .mem, .fl, .tel, .pw, .st, .rl, .free, .out]
  | .activationDeferEnd _ => [.fuses, .regs, .lows, .fe, .tb, .sp, .up, .ch, .gs, .mem, .fl, .tel, .pw, .st, .rl, .free, .out]
  | .sessionTimeout _ => [.tel, .st]
  | .lockoutEnd _ => [.st]
  | .getHealth _ _ => [.pregs, .tel, .st, .free, .out]
  | .readSensors _ _ => [.pregs, .tel, .st, .free, .out]
  | .logPos _ _ => [.pregs, .tel, .st, .free, .out]
  | .plogRead _ _ _ => [.pregs, .tel, .st, .free, .out]
  | .auditRead _ _ _ => [.pregs, .tel, .st, .free, .out]
  | .auditHead _ _ => [.pregs, .tel, .st, .free, .out]
  | .coreRestart _ _ _ _ _ => [.free, .out] ++ Zone.resets
  | .authChallenge _ _ => [.pregs, .tel, .st, .free, .out]
  | .authResponse _ _ _ _ _ => [.pregs, .tel, .st, .free, .out]
  | .authEnd _ _ => [.pregs, .tel, .st, .free, .out]
  | .imgStage _ _ _ _ _ => [.pregs, .tel, .st, .free, .out]
  | .imgActivate _ _ _ => [.regs, .pregs, .lows, .fe, .tb, .sp, .up, .ch, .gs, .mem, .fl, .tel, .pw, .st, .rl, .free, .out]
  | .imgCommit _ _ => [.fuses, .pregs, .tel, .st, .free, .out]
  | .imgRevert _ _ => [.regs, .pregs, .lows, .fe, .tb, .sp, .up, .ch, .gs, .mem, .fl, .tel, .pw, .st, .rl, .free, .out]
  | .driveAttach _ _ _ _ => [.pregs, .fl, .tel, .st, .free, .out]
  | .driveDetach _ _ _ _ => [.regs, .pregs, .fe, .xl, .tb, .sp, .up, .ch, .gs, .fl, .tel, .st, .rl, .free, .out]
  | .enrolInstaller _ _ _ _ _ _ _ _ => [.pregs, .tel, .st, .free, .out]
  | .enrolOperator _ _ _ _ => [.pregs, .tel, .st, .free, .out]
  | .revokeOperator _ _ _ => [.pregs, .tel, .st, .free, .out]
  | .setLimit _ _ _ => [.pregs, .tel, .st, .free, .out]
  | .debugOpen _ _ => [.pregs, .tel, .st, .free, .out]
  | .debugClose _ _ => [.pregs, .tel, .st, .free, .out]
  | .fuseProgram _ _ _ => [.fuses, .pregs, .tel, .st, .free, .out]
  | .returnDiag _ _ => [.pregs, .tel, .st, .free, .out]
  | .entdaa _ => [.tel, .i3, .out]
  | .setdasa _ => [.tel, .i3, .out]
  | .rstdaa => [.tel, .i3, .out]
  | .enec _ => [.tel, .i3, .out]
  | .disec _ => [.tel, .i3, .out]
  | .getpid => [.out]
  | .getbcr => [.out]
  | .getdcr => [.out]
  | .getstatus => [.free, .out]
  | .getmwl => [.out]
  | .getmrl => [.out]
  | .setmwl _ => [.tel, .i3, .out]
  | .setmrl _ => [.tel, .i3, .out]
  | .rstact _ => [.tel, .i3, .out]
  | .i3cPrivateRead => [.out]
  | .rowRecovery _ _ _ _ _ _ => [.regs, .fe, .tb, .sp, .up, .ch, .gs, .mem, .fl, .tel, .st, .rl, .free, .out]
  | .sliceSpared _ => [.fe, .sp, .up, .fl, .tel, .st, .rl]
  | .qxHandover _ _ _ => [.free, .out] ++ Zone.resets
  | .inboundFabricError _ _ => [.up, .gs, .tel, .pw, .free, .out]
  | .query _ _ => [.regs, .tel, .st, .out]
  | .poisonClear _ _ => [.regs, .tel, .st, .rl, .out]
  | .eventWrite => [.fe, .up, .tel, .pw, .out]
  | .eyeletBaseWrite _ _ _ _ => [.regs, .lows, .fe, .tel, .st, .out]
  | .authorityWrite _ _ _ _ => [.lows, .tel, .pw, .st, .out]
  | .registerWrite _ _ _ _ => [.regs, .pregs, .lows, .ctxCfg, .updCfg, .fwdCfg, .drvCfg, .fe, .xl, .qz, .up, .tel, .pw, .st, .out]
  | .powerLoss => Zone.resets
  | .referenceReturn _ => [.free, .out] ++ Zone.resets
  | .controllerResetComplete _ _ => [.regs, .fe, .xl, .tb, .sp, .up, .ch, .gs, .fl, .tel, .rl, .out]
  | .fabricCreditReturn _ _ _ => [.fe, .up, .pw, .out]
  | .priCapabilityEnable _ => [.fe, .xl, .sp, .up, .fl, .tel, .out]
  | .reservedStateRequest _ => [.out] ++ Zone.resets
  | .doubleFault _ _ _ _ => [.free, .out] ++ Zone.resets

/-- The commands with which the last descriptor in flight, or the last response of a fabric port, may end (Machine/Rest.lean). -/
def mayRest : Instr → Bool
  | .disable _ _ => true
  | .pause _ _ => true
  | .reset _ _ => true
  | .descriptorReadReturn _ _ => true
  | .completionRecordWrite _ => true
  | .hostLinkDown _ => true
  | .functionLevelReset _ => true
  | .pillowReserve => true
  | .remoteContribution _ _ => true
  | .batchDiscard _ _ => true
  | .batchAck _ _ _ _ _ => true
  | .remoteAckTimeout _ => true
  | .inboundFabricError _ _ => true
  | .fabricCreditReturn _ _ _ => true
  | _ => false

/-- The parts that a command may change in a state: one with which an exchange to STANDBY or to OFF may end may change all of them while one is
open (R24, R365). -/
def zonesAt (s : State) (c : Instr) : List Zone := if s.exchanging && mayRest c then [.free, .out] ++ Zone.resets else zonesOf c

end Sys2Proof.Machine
end

