-- ==== Sys2Proof/Safety.lean ====
section
/-!
DEFINITION. What counts as a safe run, and the terms in which statements say when a command runs and how a descriptor has ended.
The spec names no condition in which the block stops with no effect, so a run is safe while every step answers a next state.
-/

namespace Sys2Proof

/-- A step from s answers a next state. -/
def Machine.State.runs (s : Machine.State) : Prop := ∃ t, Machine.step s = .next t

/-- n steps from s all answer next states, the last one being t. -/
def Machine.State.reaches : Nat → Machine.State → Machine.State → Prop
  | 0, s, t => s = t
  | n + 1, s, t => ∃ u, Machine.step s = .next u ∧ Machine.State.reaches n u t

/-- A register command that software starts now runs at once: the gate passes it, its GO reads 0, the core that serves it runs, and
an audit record can be made where it is audited, as every write on the debug path is (R430, R432, R444). -/
def Machine.State.starts (s : Machine.State) (p : Path) (off go least : Nat) (audited : Bool) (core : Option Nat) : Bool :=
  s.gate p off least == .open' && !(Machine.bitb (Machine.regGet s p off) go) && core.all s.roleUp && !((audited || p == .dbg) && s.auditFull)

/-- The descriptor's outcome is settled with this status; its record is not yet written (R77). -/
def Machine.State.ended (s : Machine.State) (id : Nat) (st : BitVec 8) : Prop :=
  (∃ d, d ∈ s.fe.descs ∧ d.id = id) ∧ ∀ d ∈ s.fe.descs, d.id = id → d.stage = .finished ∧ d.status = st

/-- A descriptor that is past the front end and that its opcode's command may run. -/
def Machine.State.readyDesc (s : Machine.State) (d : Machine.Desc) (opc : Nat) : Prop :=
  s.desc d.id = some d ∧ d.stage = .ready ∧ d.opc = opc ∧ s.asking d = false

/-- From s to t the event queue, where it is on and has room, takes an event of this code (R424). -/
def Machine.State.raised (s t : Machine.State) (code : Nat) : Prop :=
  Machine.bitb s.tel.evtRing 17 = true → s.tel.evq.length + 32 ≤ 256 →
    ∃ (l : List Machine.Event) (e : Machine.Event), t.tel.evq = s.tel.evq ++ l ∧ e ∈ l ∧ e.code = BitVec.ofNat 32 code

/-- A register write on this path is made: the gate passes it, and the audit record that the debug path makes first can be made
(R430, R444). -/
def Machine.State.writable (s : Machine.State) (p : Path) (reg least : Nat) : Bool :=
  s.gate p reg least == .open' && !(p == .dbg && s.auditFull)

/-- The row is one that apply a still has to write, of a live version, and neither it nor its version is poisoned (R249, R414). -/
def Machine.State.applies (s : Machine.State) (tbl ver row : Nat) (a : Machine.Apply) (t : Machine.Table) (v : Machine.Version) : Prop :=
  s.applyOf tbl ver row = some a ∧ s.version tbl ver = some (t, v) ∧ Machine.keyTbl (Machine.keyOf tbl row) = tbl ∧
  Machine.keyRow (Machine.keyOf tbl row) = row ∧ s.rowPoisoned tbl ver row = false ∧ v.poisoned = false

/-- No merge or pillow entry of the row for the epoch of apply a is left. -/
def Machine.State.rowDone (s : Machine.State) (a : Machine.Apply) (ver row : Nat) : Prop :=
  ∀ e ∈ s.up.merge ++ s.up.pillow, e.is a.tbl ver row a.epoch = false

/-- The row's master record has been written with these bytes: its twin holds them, and its contributions are gone (R255, R256). -/
def Machine.State.rowHolds (s : Machine.State) (a : Machine.Apply) (tbl ver row : Nat) (b : Bytes) : Prop :=
  s.rowDone a ver row ∧ ∃ x ∈ s.up.twins, x.key = Machine.keyOf tbl row ∧ x.ver = ver ∧ x.data = b

/-- A register command has ended with this RESULT: GO reads 0 (R430). -/
def Machine.State.doneAt (s : Machine.State) (p : Path) (off result : Nat) : Prop :=
  Machine.bitb (Machine.regGet s p off) 31 = false ∧ Machine.bitf (Machine.regGet s p off) 32 8 = result

/-- What the RW fields of a register take from a write: of its 8 bytes, or of one half (R427, R428). -/
def Machine.State.taken (s : Machine.State) (p : Path) (reg off size : Nat) (val : Word64) : Word64 :=
  match Machine.regAt reg with
  | some row =>
    Machine.regMerge row (Machine.regGet s p reg)
      (Machine.mgetD s.lows (Machine.pkey p reg) (BitVec.ofNat 32 (Machine.regGet s p reg).toNat)) (off % 8 == 4) size val
  | none => 0

/-- A write of 8 bytes, or of 4 bytes to one half, reaches this register and is made (R428, R430). -/
def Machine.State.hits (s : Machine.State) (p : Path) (reg least off size : Nat) : Prop :=
  off / 8 * 8 = reg ∧ Machine.accessFits off size = true ∧ s.writable p reg least = true

/-- A table operation past the front end, its table and its version live (R136, R147). -/
def Machine.State.readyTable (s : Machine.State) (d : Machine.Desc) (opc mode : Nat) (t : Machine.Table) (v : Machine.Version) : Prop :=
  s.readyDesc d opc ∧ d.mode = mode ∧ s.table d.tbl = some t ∧ t.ver? d.verField = some v

/-- The state in which a mailbox command that is sent now is carried out: a write on the debug path is audited first (R444). -/
def Machine.State.heard (s : Machine.State) (p : Path) (row : Machine.MbxRow) (req : Feed) : Machine.State :=
  if p = .dbg then s.auditReg p Machine.Reg.mbxCmd 0 (Machine.mbxWord row.opc req.data.length) else s

/-- A mailbox command of this row of Table 114 that is sent now on the path is carried out at once: it reaches window 15, its core runs,
and nothing turns it away (R399 to R402). -/
def Machine.State.mails (s : Machine.State) (p : Path) (row : Machine.MbxRow) (req : Feed) : Bool :=
  (if p = .i3c then s.i3cAnswers && !(Machine.bitb (Machine.regGet s p Machine.Reg.mbxCmd) 31) && s.roleUp row.core
   else s.starts p Machine.Reg.mbxCmd 31 1 false (some row.core)) &&
  ((s.heard p row req).mbxRefusal p row req).isNone

/-- The I3C target hears a common command code: a broadcast one while it answers, a direct one at its dynamic address (R34). -/
def Machine.State.i3cHears (s : Machine.State) (direct : Bool) : Bool := s.i3cAnswers && (!direct || s.i3.dyn.isSome)

/-- A message that was handed to a ring's or descriptor's outbound channel: over the fabric it has left on a port, or waits for a request
credit (R23, R66); on the host side it has left. -/
def Machine.State.carried (t : Machine.State) (near : Bool) (o : Machine.Output) : Prop :=
  if near then (∃ p, o.onPort p ∈ t.out) ∨ o ∈ t.pw.fabOut else o ∈ t.out

/-- A mailbox command has ended with this RESULT and this response in the path's buffer (R401, R402). -/
def Machine.State.replied (s : Machine.State) (p : Path) (result : Nat) (body : Machine.Says) : Prop :=
  s.doneAt p Machine.Reg.mbxCmd result ∧ ∃ x, Machine.pget s.st.replies p = some x ∧ x.result = result ∧ x.body = body

end Sys2Proof
end

