-- ==== Sys2Proof/WellFormed.lean ====
section
/-!
DEFINITION. Which terms of `Instr` are commands that can reach the block: numbers within the widths the spec gives them. The
member's own limits (how many rings, ports, channels it has) are checked where a command runs, not here.
-/

namespace Sys2Proof

/-- A ring number (R43). -/
def ringOk (r : Nat) : Bool := decide (r < 131072)

/-- An access to a register: 8 bytes at an 8-byte boundary or 4 at a 4-byte boundary, inside BAR0 (R26, R427). -/
def accessOk (off size : Nat) : Bool := (size == 4 || size == 8) && off % size == 0 && decide (off < 16777216)

/-- A row of a table's version: a handle of 16 bits, a version from 1, a row of 48 bits (R116, R134). -/
def rowOk (tbl ver row : Nat) : Bool := decide (tbl < 65536 ∧ 1 ≤ ver ∧ ver < 65536 ∧ row < 2 ^ 48)

/-- A ring table entry is 64 bytes (R45). -/
def entryOk (b : Bytes) : Bool := b.length == 64

/-- A ring slot is 64 bytes (R43), an extension block none or 64 (R174). -/
def slotOk (s : Slot) : Bool := s.raw.length == 64 && (s.ext.length == 0 || s.ext.length == 64)

/-- A port number of any kind (Table 5). -/
def portOk (p : Nat) : Bool := decide (p < 4)

/-- A channel number (Table 1). -/
def chanOk (c : Nat) : Bool := decide (c < 132)

/-- A line of a channel (R299), or a row or a table that a scrub finding names. -/
def scrubOk : ScrubFind → Bool
  | .line tier bank line _ => decide (tier < 8 ∧ bank < 30 ∧ line < 3072)
  | .twin tbl ver row => rowOk tbl ver row
  | .directory tbl _ => decide (tbl < 65536)

/-- A translated page (R99): a port, and a size from 4 KiB up. -/
def xlateOk (x : Xlate) : Bool := portOk x.port && (x.log2 == 12 || x.log2 == 21 || x.log2 == 30)

/-- A drive's index (Table 1, R331). -/
def driveOk (d : Nat) : Bool := decide (d < 16)

/-- A Steta core's number (R379). -/
def coreOk (c : Nat) : Bool := decide (c < 7)

/-- Whether a term is a command that can reach the block. -/
def Instr.wf : Instr → Bool
  | .enable _ ring entry => ringOk ring && entryOk entry
  | .disable _ ring => ringOk ring
  | .pause _ ring => ringOk ring
  | .resume _ ring entry => ringOk ring && entryOk entry
  | .reset _ ring => ringOk ring
  | .dumpAll p => ringOk p.ring
  | .dumpOne _ ring => ringOk ring
  | .eyeletSnoop port line => portOk port && decide (line < 16384)
  | .eyeletLineReturn line words => decide (line < 16384) && words.length == 8
  | .ringOverrunRecordWrite cpl => ringOk cpl
  | .bar2DoorbellWrite off size _ => decide (off < 1048576 ∧ 1 ≤ size ∧ size ≤ 64)
  | .bar2ReadBack off size => decide (off < 1048576 ∧ 1 ≤ size ∧ size ≤ 64)
  | .nearRingAnnouncement ring _ => portOk ring.port && ringOk ring.val
  | .ringTurn ring => ringOk ring
  | .descriptorReadReturn ring slots => ringOk ring && slots.all slotOk
  | .completionReserve cpl => ringOk cpl
  | .completionRecordWrite _ => true
  | .modTimeExpiry ring => ringOk ring
  | .nop _ => true
  | .marker _ => true
  | .fenceOrder _ => true
  | .fenceVisible _ => true
  | .wait _ => true
  | .waitTimeout _ => true
  | .gatherPool _ => true
  | .gatherSeq _ => true
  | .scatterGradLists _ _ => true
  | .scatterGradRows _ _ => true
  | .apply _ => true
  | .setEpoch _ => true
  | .flush _ _ => true
  | .tableLoadOpen _ => true
  | .tableLoadFill _ _ => true
  | .tablePinFromBacking _ _ => true
  | .tablePinFromSrc _ _ => true
  | .tableEvictRows _ _ => true
  | .tableEvictUnpin _ _ => true
  | .tableEvictVersion _ => true
  | .tableSwitchForward _ => true
  | .tableSwitchAny _ => true
  | .rowList _ => true
  | .rowRange _ _ _ => true
  | .xlate _ => true
  | .sequential _ => true
  | .normal _ => true
  | .willneed _ _ => true
  | .dontneed _ _ => true
  | .bulkSpill _ => true
  | .bulkFill _ => true
  | .bulkBurst _ _ _ => true
  | .hostLinkDown port => portOk port
  | .functionLevelReset port => portOk port.port
  | .hostPortTraining port _ => portOk port
  | .fabricPortTraining port _ => portOk port
  | .fabricPortDrain port => portOk port
  | .ctxCfgWrite _ off size _ => accessOk off size
  | .inval _ _ => true
  | .invalDrain _ _ => true
  | .mirrorReadReturn ctx block => decide (ctx < 4096) && block.length == 512
  | .atsTranslationCompletion _ xs => xs.all xlateOk
  | .pageResponse _ _ xs => xs.all xlateOk
  | .pageResponseTimeout _ => true
  | .parkEntryFree ring => ringOk ring
  | .invalidateRequest port tag pasid _ _ => portOk port && decide (tag < 32 ∧ pasid < 1048576)
  | .invalidateDrained port tag => portOk port && decide (tag < 32)
  | .invalAbort port tag => portOk port && decide (tag < 32)
  | .xlateDriverRetry which port _ _ => decide (which < 131075) && portOk port
  | .dmaTimeout _ _ _ => true
  | .define _ _ => true
  | .delete _ => true
  | .bands _ _ => true
  | .partCfgWrite _ off size _ => accessOk off size
  | .retirement tbl ver _ => rowOk tbl ver 0
  | .retirementSweep tbl ver => rowOk tbl ver 0
  | .retireRetry tbl ver _ => rowOk tbl ver 0
  | .retireStalled tbl ver => rowOk tbl ver 0
  | .regrade tbl ver row _ _ => rowOk tbl ver row
  | .windowStart _ => true
  | .packWaitExpiry => true
  | .windowComplete sorter _ => decide (sorter < 128)
  | .imapFull => true
  | .runAheadScan _ _ _ _ => true
  | .imapRel _ _ => true
  | .spoolGrant => true
  | .spoolFull => true
  | .roundStart _ => true
  | .tilePositionsGrant _ => true
  | .bobbinGrant _ _ ver => decide (1 ≤ ver ∧ ver < 65536)
  | .rowDelivery _ _ ver _ _ => decide (1 ≤ ver ∧ ver < 65536)
  | .tileDrain _ _ _ tile _ => decide (tile < 65536)
  | .tileRel _ _ => true
  | .load _ _ => true
  | .swap _ => true
  | .pillowReserve => true
  | .pillowFull _ => true
  | .remoteContribution port _ => portOk port
  | .batchDiscard _ _ => true
  | .batchAck batch _ _ _ _ => portOk batch.port
  | .remoteAckTimeout _ => true
  | .mergeEvict group => decide (group < 32)
  | .couchingRmw tbl ver row _ _ => rowOk tbl ver row
  | .tier2RmwRetry tbl ver row _ _ _ => rowOk tbl ver row
  | .wbAgeExpiry tbl ver row _ => rowOk tbl ver row
  | .writeBack tbl ver row _ => rowOk tbl ver row
  | .twinFull tbl ver row => rowOk tbl ver row
  | .twinSpaceGrant tbl ver row _ => rowOk tbl ver row
  | .commit _ _ => true
  | .cacheWayGrant tbl ver row _ => rowOk tbl ver row
  | .agingSweep => true
  | .loadIntervalEnd => true
  | .migrationPublish tbl ver row _ => rowOk tbl ver row
  | .replicationPublish tbl ver row _ => rowOk tbl ver row
  | .bankAccess ch => chanOk ch
  | .refreshBurst ch => chanOk ch
  | .thermalSample _ _ => true
  | .retentionStep pch => chanOk pch
  | .retentionStepEnd pch => chanOk pch
  | .thermalTrip => true
  | .bankStuck ch tier bank => chanOk ch && decide (tier < 8 ∧ bank < 30)
  | .wcRetire ch => chanOk ch
  | .rowRepair ch tier bank _ => chanOk ch && decide (tier < 8 ∧ bank < 32)
  | .bankRepair ch tier bank => chanOk ch && decide (tier < 8 ∧ bank.bank < 32)
  | .replace _ lch _ => chanOk lch
  | .fold _ lch _ _ => chanOk lch
  | .unfold _ lch => chanOk lch
  | .retrain _ pch _ => chanOk pch
  | .test _ pch _ _ _ _ => chanOk pch
  | .retire _ pch => chanOk pch
  | .channelSwitch lch _ => chanOk lch
  | .marginCheck lch _ => chanOk lch
  | .scrub ch found => chanOk ch && found.all scrubOk
  | .autoAttach drive _ => driveOk drive
  | .nvmeSlotGrant drive => driveOk drive
  | .nvmeCompletion drive _ _ _ => driveOk drive
  | .nvmeCmdTimeout drive _ => driveOk drive
  | .abortTimeout drive _ => driveOk drive
  | .driveRemoval drive => driveOk drive
  | .flowStall _ => true
  | .counterClear _ _ => true
  | .subtract _ _ => true
  | .counterLowRead _ off => accessOk off 4
  | .pllFault _ _ => true
  | .referenceFault _ => true
  | .refLossTimeout _ => true
  | .pllAonFault _ _ _ => true
  | .pmhRaise target _ => decide (target < 8)
  | .pmhLower target => decide (target < 8)
  | .pmhEnterStandby => true
  | .pmhLeaveStandby target => decide (target < 8)
  | .pmhOff _ => true
  | .pmhEmergAssert => true
  | .pmhEmergRelease => true
  | .pmhStepGnt => true
  | .sliceGroupGate _ => true
  | .powerGood _ => true
  | .blockResetCmd _ _ => true
  | .tapReset => true
  | .coreWatchdogExpiry core _ _ _ => coreOk core
  | .mpuFault core _ _ _ => coreOk core
  | .voltageSample _ => true
  | .plogProgram => true
  | .activationHealthWatch _ => true
  | .activationDeferEnd _ => true
  | .sessionTimeout _ => true
  | .lockoutEnd _ => true
  | .getHealth _ _ => true
  | .readSensors _ _ => true
  | .logPos _ _ => true
  | .plogRead _ _ _ => true
  | .auditRead _ _ _ => true
  | .auditHead _ _ => true
  | .coreRestart _ _ _ _ _ => true
  | .authChallenge _ _ => true
  | .authResponse _ _ _ _ _ => true
  | .authEnd _ _ => true
  | .imgStage _ _ off chunk _ => decide (off + chunk.length ≤ 4294967296)
  | .imgActivate _ _ _ => true
  | .imgCommit _ _ => true
  | .imgRevert _ _ => true
  | .driveAttach _ _ drive _ => driveOk drive
  | .driveDetach _ _ drive _ => driveOk drive
  | .enrolInstaller _ _ _ _ _ _ _ _ => true
  | .enrolOperator _ _ _ _ => true
  | .revokeOperator _ _ _ => true
  | .setLimit _ _ _ => true
  | .debugOpen _ _ => true
  | .debugClose _ _ => true
  | .fuseProgram _ _ _ => true
  | .returnDiag _ _ => true
  | .entdaa _ => true
  | .setdasa _ => true
  | .rstdaa => true
  | .enec _ => true
  | .disec _ => true
  | .getpid => true
  | .getbcr => true
  | .getdcr => true
  | .getstatus => true
  | .getmwl => true
  | .getmrl => true
  | .setmwl _ => true
  | .setmrl _ => true
  | .rstact _ => true
  | .i3cPrivateRead => true
  | .rowRecovery tbl ver row _ _ _ => rowOk tbl ver row
  | .sliceSpared _ => true
  | .qxHandover _ _ _ => true
  | .inboundFabricError port _ => portOk port
  | .query _ _ => true
  | .poisonClear _ _ => true
  | .eventWrite => true
  | .eyeletBaseWrite _ off size _ => accessOk off size
  | .authorityWrite _ off size _ => accessOk off size
  | .registerWrite _ off size _ => accessOk off size
  | .powerLoss => true
  | .referenceReturn _ => true
  | .controllerResetComplete drive _ => driveOk drive
  | .fabricCreditReturn port _ _ => portOk port
  | .priCapabilityEnable port => portOk port
  | .reservedStateRequest target => decide (target < 8)
  | .doubleFault core _ _ _ => coreOk core

end Sys2Proof
end

