-- ==== Sys2Proof/Certificates/Slice0/Obligations.lean ====
section
/-!
DEFINITION. The statements for the provers.
-/

open Sys2Proof Sys2Proof.Machine

/-! ## The machine as a whole -/

/-- A step takes the command at the front of the queue and runs it with the queue's rest. -/
def Obligations.StepRunsTheFrontCommand : Prop :=
  ∀ (c : Instr) (rest : List Instr) (s : State), step { s with pending := c :: rest } = exec c { s with pending := rest }

/-- With no command waiting, a step advances the timestamp by one and changes nothing else (log entry 2: the model's choice). -/
def Obligations.IdleStepAdvancesTheTimestamp : Prop :=
  ∀ s : State, s.pending = [] → ∃ t, step s = .next t ∧ t.tel.ts = s.tel.ts + 1 ∧ { t with tel := { t.tel with ts := s.tel.ts } } = s

/-- Every command leaves every part of the state that it may not change as it was: those it names or, where it may end a power exchange that
is open, those a reset rebuilds. -/
def Obligations.EveryCommandKeepsItsFrame : Prop :=
  ∀ (c : Instr) (s t : State), exec c s = .next t → State.sameBut (zonesAt s c) s t

/-- Ground store's bytes stay in canonical form whatever the command, from every state that has them so. -/
def Obligations.EveryStepKeepsGroundStoreCanonical : Prop :=
  ∀ s t : State, Memory.wf s.gs.mem = true → step s = .next t → Memory.wf t.gs.mem = true

/-- What the block has sent out is never taken back: a step only adds to it. -/
def Obligations.EveryStepOnlyAddsToTheOutput : Prop :=
  ∀ s t : State, step s = .next t → s.out <:+ t.out

/-- The anti-rollback counter never falls and stays within 64, and the fuses that revoke a key and identify the part are never
restored or changed. -/
def Obligations.FusesOnlyBurn : Prop :=
  ∀ s t : State, step s = .next t →
    s.fuses.svn ≤ t.fuses.svn ∧ (s.fuses.svn ≤ 64 → t.fuses.svn ≤ 64) ∧
    s.fuses.revoked &&& t.fuses.revoked = s.fuses.revoked ∧
    t.fuses.member = s.fuses.member ∧ t.fuses.keyHash = s.fuses.keyHash ∧ t.fuses.stepping = s.fuses.stepping ∧
    t.fuses.serialLo = s.fuses.serialLo ∧ t.fuses.serialHi = s.fuses.serialHi

/-- Commands come only from outside: a step takes one from the queue's front and adds none. -/
def Obligations.EveryStepTakesOneCommand : Prop :=
  ∀ s t : State, step s = .next t → t.pending = s.pending.tail

/-- Every command answers a next state in every state: none stops the block. -/
def Obligations.NoCommandStopsTheBlock : Prop :=
  ∀ (c : Instr) (s : State), ∃ t, exec c s = .next t

/-! ## Ring commands (R45 to R51, R449, R450) -/

/-- ENABLE of a DISABLED ring whose entry passes its checks: the ring takes its entry's fields and is ACTIVE, or PORT_DOWN where its
home port is down; no other ring changes. -/
def Obligations.EnableStartsTheRing : Prop :=
  ∀ (p : Path) (k : Nat) (entry : Bytes) (s : State),
    s.starts p Reg.ringCmd 31 1 false (some 2) = true → s.drvFails 0 = false → k < Member.rings s.fuses.member →
    (s.ring k).state = .disabled → s.entryBad ((s.ring k).configure entry) = false → s.cplBad k ((s.ring k).configure entry) = RingRes.done →
    s.lineClash k ((s.ring k).configure entry) = false → mget s.fe.lines (k / 8) = none →
    ∃ t, exec (.enable p k entry) s = .next t ∧
      (t.ring k).state = (if s.homeUp ((s.ring k).configure entry) then .active else .portDown) ∧
      (t.ring k).base = ((s.ring k).configure entry).base ∧ (t.ring k).log2 = ((s.ring k).configure entry).log2 ∧
      (t.ring k).cplRing = ((s.ring k).configure entry).cplRing ∧ (t.ring k).ctx = ((s.ring k).configure entry).ctx ∧
      ∀ j, j ≠ k → t.ring j = s.ring j

/-- DISABLE makes a live ring DRAINING while a descriptor of it is in flight, and DISABLED at once where no descriptor is left
anywhere; PAUSE makes an ACTIVE ring PAUSED; with no descriptor left, RESUME makes a PAUSED ring ACTIVE and RESET makes a ring
DISABLED. DUMP_ALL writes bytes 32 to 63 of every ring's entry, DUMP_ONE those of one, on the ring's home port (log entry 102: the
model's choice of the port), and neither changes a ring. -/
def Obligations.RingCommandsSetTheRingState : Prop :=
  (∀ (p : Path) (k : Nat) (s : State), s.starts p Reg.ringCmd 31 1 false (some 2) = true → k < Member.rings s.fuses.member →
    ((s.ring k).state = .active ∨ (s.ring k).state = .paused ∨ (s.ring k).state = .portDown) →
    (Ring.isCpl (s.ring k) && s.named k) = false →
    (∃ d ∈ s.fe.descs, d.ring = k ∧ d.resv ≠ 0) → s.exchanging = false → ∃ t, exec (.disable p k) s = .next t ∧ (t.ring k).state = .draining) ∧
  (∀ (p : Path) (k : Nat) (s : State), s.starts p Reg.ringCmd 31 1 false (some 2) = true → k < Member.rings s.fuses.member →
    ((s.ring k).state = .active ∨ (s.ring k).state = .paused ∨ (s.ring k).state = .portDown) →
    (Ring.isCpl (s.ring k) && s.named k) = false → s.fe.descs = [] → s.fe.overruns = [] →
    s.exchanging = false → ∃ t, exec (.disable p k) s = .next t ∧ (t.ring k).state = .disabled) ∧
  (∀ (p : Path) (k : Nat) (s : State), s.starts p Reg.ringCmd 31 1 false (some 2) = true → k < Member.rings s.fuses.member →
    (s.ring k).state = .active → s.exchanging = false → ∃ t, exec (.pause p k) s = .next t ∧ (t.ring k).state = .paused ∧ ∀ j, j ≠ k →
      t.ring j = s.ring j) ∧
  (∀ (p : Path) (k : Nat) (entry : Bytes) (s : State), s.starts p Reg.ringCmd 31 1 false (some 2) = true →
    s.drvFails 0 = false → k < Member.rings s.fuses.member → (s.ring k).state = .paused → s.entryBad ((s.ring k).configure entry) = false →
    s.fe.descs = [] → mget s.fe.lines (k / 8) = none →
    ∃ t, exec (.resume p k entry) s = .next t ∧ (t.ring k).state = .active ∧
      (t.ring k).base = ((s.ring k).configure entry).base ∧ ∀ j, j ≠ k → t.ring j = s.ring j) ∧
  (∀ (p : Path) (k : Nat) (s : State), s.starts p Reg.ringCmd 31 1 false (some 2) = true → k < Member.rings s.fuses.member →
    (s.ring k).state ≠ .disabled → (Ring.isCpl (s.ring k) && s.named k) = false → s.fe.descs = [] →
    s.exchanging = false → ∃ t, exec (.reset p k) s = .next t ∧ (t.ring k).state = .disabled) ∧
  (∀ (p : Path) (ring : Nat) (s : State), s.starts p Reg.ringCmd 31 1 false (some 2) = true → s.drvFails 0 = false →
    ∃ t, exec (.dumpAll ⟨p, ring⟩) s = .next t ∧ t.fe = s.fe ∧
      ∀ k, k < Member.rings s.fuses.member →
        Output.entry k (Ring.dump (s.ring k)) (s.entryAddr k + 32) (s.drvRoute (s.ring k).home) ∈ t.out) ∧
  (∀ (p : Path) (k : Nat) (s : State), s.starts p Reg.ringCmd 31 1 false (some 2) = true → s.drvFails 0 = false →
    k < Member.rings s.fuses.member →
    ∃ t, exec (.dumpOne p k) s = .next t ∧ t.fe = s.fe ∧
      t.out = .entry k (Ring.dump (s.ring k)) (s.entryAddr k + 32) (s.drvRoute (s.ring k).home) :: s.out)

/-! ## Announcements (R60 to R66, R445, R451) -/

/-- A snoop of a held eyelet line that can be translated is answered and marks the line invalid, and the line is read again at its
address; the returned line is held valid with its words. -/
def Obligations.EyeletLinesFollowTheHost : Prop :=
  (∀ (port line : Nat) (l : EyeLine) (s : State), s.cxlCache port = true → mget s.fe.lines line = some l → l.port = port → l.valid = true →
    s.drvFails 1 = false →
    ∃ t, exec (.eyeletSnoop port line) s = .next t ∧ mget t.fe.lines line = some { l with valid := false, snooped := true } ∧
      t.out = .rdShared port line l.addr :: .snoopRsp port line :: s.out) ∧
  (∀ (line : Nat) (words : List Word64) (l : EyeLine) (s : State), mget s.fe.lines line = some l → l.valid = false →
    ∃ t, exec (.eyeletLineReturn line words) s = .next t ∧
      mget t.fe.lines line = some { l with valid := true, words := words.take 8, snooped := false, fresh := [] })

/-- A doorbell write, and an announcement of a near ring, publish an index that lies within the ring; an announcement of a near
completion ring publishes a consumer index that is not ahead of its producer index, and the announcement's credit returns.
A visibility read-back answers the ring's DONE_SEQ, state and enable, and makes its completed results visible. -/
def Obligations.IndicesArePublished : Prop :=
  (∀ (off size : Nat) (val : Word64) (s : State), s.barUp = true → bar2Carries s.fuses.member off size = true →
    (s.ring (off / 8)).typ = .hostDesc → (s.ring (off / 8)).dbMode = true →
    ((s.ring (off / 8)).state = .active ∨ (s.ring (off / 8)).state = .paused) →
    (wordIdx val - (s.ring (off / 8)).idx).toNat ≤ Ring.size (s.ring (off / 8)) →
    ∃ t, exec (.bar2DoorbellWrite off size val) s = .next t ∧ (t.ring (off / 8)).pub = wordIdx val) ∧
  (∀ (port k : Nat) (v : BitVec 32) (s : State), s.fabUp port = true → k < Member.rings s.fuses.member → (s.ring k).typ = .nearDesc →
    ((s.ring k).state = .active ∨ (s.ring k).state = .paused) → (v - (s.ring k).idx).toNat ≤ Ring.size (s.ring k) →
    ∃ t, exec (.nearRingAnnouncement ⟨port, k⟩ v) s = .next t ∧ (t.ring k).pub = v ∧ t.out = .credit port false 1 :: s.out) ∧
  (∀ (port k : Nat) (v : BitVec 32) (s : State), s.fabUp port = true → k < Member.rings s.fuses.member → (s.ring k).typ = .nearCpl →
    (s.ring k).state ≠ .disabled → consAhead (s.ring k).idx v = false →
    ∃ t, exec (.nearRingAnnouncement ⟨port, k⟩ v) s = .next t ∧ (t.ring k).pub = v ∧ t.out = .credit port false 1 :: s.out) ∧
  (∀ (off : Nat) (s : State), s.barUp = true → bar2Reads s.fuses.member off 8 = true →
    ∃ t, exec (.bar2ReadBack off 8) s = .next t ∧ (t.ring (off / 8)).unseen = 0 ∧
      t.out = .backValue (off / 8) (Ring.backWord (s.ring (off / 8))) :: s.out)

/-! ## Front end (R46, R52 to R58, R67 to R85, R450 to R452) -/

/-- The first announced ring that may turn takes its turn, reading up to its WEIGHT in slots, on its home port or over the fabric, by
reads of at most 512 bytes that do not wrap; the slots of a returned read are queued in order, and CONS_IDX and the expected SEQ
advance, over a picot's two slots at once; a turn that ends between a picot's slots reads the second one too. A SEQ that is not the
expected one stops the ring with SEQ_MISMATCH. -/
def Obligations.RingsTakeTurnsAndQueueDescriptors : Prop :=
  (∀ (k : Nat) (s : State), s.fe.announced.find? (fun j => s.mayTurn j) = some k →
    ∃ t, exec (.ringTurn k) s = .next t ∧ (t.ring k).turn = min (max 1 (s.ring k).weight) (Ring.ahead (s.ring k)) ∧
      t.fe.announced = s.fe.announced.erase k ∧
      ∀ q ∈ readsOf (Ring.size (s.ring k)) (turnSlots (s.ring k)) (s.ring k).idx.toNat (turnSlots (s.ring k)),
        t.carried (!(Ring.isHost (s.ring k))) (s.readOut k q.1 q.2)) ∧
  (∀ (size n i : Nat), 0 < size → (∀ q ∈ readsOf size n i n, 1 ≤ q.2 ∧ q.2 ≤ 8 ∧ q.1 % size + q.2 ≤ size) ∧
    ((readsOf size n i n).map (·.2)).sum = n) ∧
  (∀ (k : Nat) (xs : List Slot) (s : State), (s.ring k).turn ≠ 0 → (s.ring k).state = .active → Ring.isCpl (s.ring k) = false →
    (s.ring k).half = none → xs.length ≤ (s.ring k).turn → xs.length ≤ Ring.ahead (s.ring k) → (∀ x ∈ xs, slotPicot x = false) →
    (∀ i x, xs[i]? = some x → BitVec.ofNat 32 (field (slice x.raw 0 64) 4 4) = (s.ring k).nextSeq + BitVec.ofNat 32 i) →
    s.exchanging = false → ∃ t, exec (.descriptorReadReturn k xs) s = .next t ∧ (t.ring k).idx = (s.ring k).idx + BitVec.ofNat 32 xs.length ∧
      (t.ring k).nextSeq = (s.ring k).nextSeq + BitVec.ofNat 32 xs.length ∧ (t.ring k).turn = 0 ∧ t.fe.nextId = s.fe.nextId + xs.length ∧
      ∀ i x, xs[i]? = some x → ∃ d ∈ t.fe.descs, d.id = s.fe.nextId + i ∧
        ((∀ e ∈ s.fe.descs, e.id ≠ d.id) → d.ring = k ∧ d.raw = slice x.raw 0 64)) ∧
  (∀ (k : Nat) (x y : Slot) (s : State), 2 ≤ (s.ring k).turn → (s.ring k).state = .active → Ring.isCpl (s.ring k) = false →
    (s.ring k).half = none → 2 ≤ Ring.ahead (s.ring k) → slotPicot x = true →
    (s.ring k).idx.toNat % Ring.size (s.ring k) ≠ Ring.size (s.ring k) - 1 →
    BitVec.ofNat 32 (field (slice x.raw 0 64) 4 4) = (s.ring k).nextSeq →
    s.exchanging = false → ∃ t, exec (.descriptorReadReturn k [x, y]) s = .next t ∧ (t.ring k).idx = (s.ring k).idx + 2 ∧
      (t.ring k).nextSeq = (s.ring k).nextSeq + 1 ∧ (t.ring k).turn = 0 ∧
      ∃ d ∈ t.fe.descs, d.id = s.fe.nextId ∧
        ((∀ e ∈ s.fe.descs, e.id ≠ d.id) → d.ring = k ∧ d.raw = slice x.raw 0 64 ++ slice y.raw 0 64)) ∧
  (∀ (k : Nat) (x : Slot) (s : State), (s.ring k).turn ≠ 0 → (s.ring k).state = .active → (s.ring k).half = none →
    2 ≤ Ring.ahead (s.ring k) → slotPicot x = true → (s.ring k).idx.toNat % Ring.size (s.ring k) ≠ Ring.size (s.ring k) - 1 →
    s.exchanging = false → ∃ t, exec (.descriptorReadReturn k [x]) s = .next t ∧ (t.ring k).turn = 1 ∧ (t.ring k).idx = (s.ring k).idx ∧
      (t.ring k).half = some (slice x.raw 0 64, x.ext) ∧
      t.carried (!(Ring.isHost (s.ring k))) (s.readOut k ((s.ring k).idx.toNat + 1) 1)) ∧
  (∀ (k : Nat) (x : Slot) (s : State), (s.ring k).turn ≠ 0 → (s.ring k).state = .active → Ring.isCpl (s.ring k) = false →
    (s.ring k).half = none → 1 ≤ Ring.ahead (s.ring k) → slotPicot x = false →
    BitVec.ofNat 32 (field (slice x.raw 0 64) 4 4) ≠ (s.ring k).nextSeq →
    s.exchanging = false → ∃ t, exec (.descriptorReadReturn k [x]) s = .next t ∧ (t.ring k).state = .error ∧ (t.ring k).errStatus = St.seqMismatch ∧
      (t.ring k).errSeq = BitVec.ofNat 32 (field (slice x.raw 0 64) 4 4))

/-- A queued descriptor reserves its completion slots when its completion ring has room; a finished descriptor's record is written
and the descriptor leaves, or its record is held while the completion ring cannot take it; a moderated interrupt is raised at MOD_TIME.
A held RING_OVERRUN record is written to the next slot of its completion ring once a slot is free, and is held no more. -/
def Obligations.CompletionSpaceAndRecords : Prop :=
  (∀ (c : Nat) (d : Desc) (s : State), s.fe.descs = [d] → d.stage = .queued → d.resv = 0 → s.passing = true →
    (s.ring d.ring).cplRing = c → (s.ring d.ring).state ≠ .pausedHost → Ring.isCpl (s.ring c) = true → d.cplNeed ≤ s.freeFor c →
    ∃ t, exec (.completionReserve c) s = .next t ∧ (t.ring c).resv = (s.ring c).resv + d.cplNeed) ∧
  (∀ (d : Desc) (s : State), s.desc d.id = some d → d.stage = .finished → s.recordTurn d = true →
    s.writesWait d = false → s.cplLive (s.ring d.ring).cplRing = true → d.needsRecord = true → d.inl = [] →
    s.exchanging = false → ∃ t, exec (.completionRecordWrite d.id) s = .next t ∧ (∀ e ∈ t.fe.descs, e.id ≠ d.id) ∧
      t.carried ((s.ring (s.ring d.ring).cplRing).typ == .nearCpl) (s.recOut (s.ring d.ring).cplRing
        ((s.ring (s.ring d.ring).cplRing).idx.toNat % Ring.size (s.ring (s.ring d.ring).cplRing)) (s.ring d.ring).ord
        (recBytes d.seq.toNat d.ring
          (phaseAt (s.ring (s.ring d.ring).cplRing).idx.toNat (Ring.size (s.ring (s.ring d.ring).cplRing)))
          Kind.normal d.status d.flags d.ver d.digest d.done d.detail d.info))) ∧
  (∀ (d : Desc) (s : State), s.desc d.id = some d → d.stage = .finished → s.recordTurn d = true →
    s.writesWait d = false → s.drvFails (3 + (s.ring d.ring).cplRing) = false → s.cplLive (s.ring d.ring).cplRing = false →
    s.exchanging = false → ∃ t, exec (.completionRecordWrite d.id) s = .next t ∧ t.desc d.id = some { d with stage := .heldRec } ∧ t.out = s.out) ∧
  (∀ (k : Nat) (s : State), (s.ring k).typ = .hostCpl → (s.ring k).irqEn = true → (s.ring k).modTime ≠ 0 → (s.ring k).unsig ≠ 0 →
    s.cplLive k = true → ∃ t, exec (.modTimeExpiry k) s = .next t ∧ (t.ring k).unsig = 0 ∧
      t.out = .msix (s.ring k).home (s.ring k).vector (mgetD (s.hostFn (s.ring k).home).msix (s.ring k).vector (0, 0)).1
        (mgetD (s.hostFn (s.ring k).home).msix (s.ring k).vector (0, 0)).2 :: s.out) ∧
  (∀ (c k : Nat) (l : List Nat) (s : State), s.heldFor c = k :: l → k ≠ c → s.cplLive c = true → 1 ≤ Ring.space (s.ring c) →
    ∃ t, exec (.ringOverrunRecordWrite c) s = .next t ∧ t.fe.overruns = s.fe.overruns.erase k ∧
      (t.ring c).idx = (s.ring c).idx + 1 ∧
      t.carried ((s.ring c).typ == .nearCpl) (s.recOut c ((s.ring c).idx.toNat % Ring.size (s.ring c)) (s.ring k).ord
        (recBytes (s.ring k).errSeq.toNat k (phaseAt (s.ring c).idx.toNat (Ring.size (s.ring c))) Kind.normal St.ringOverrun 0 0 0 0 0 0)))

/-- NOP and MARKER complete with OK, MARKER with its trace point where its group is traced, counted where the collector cannot
take it; a FENCE completes once every earlier descriptor of its ring has left, MODE VISIBLE also making the ring's results
visible; a WAIT completes once DONE_SEQ has reached its SEQ, or with WAIT_TIMEOUT at its timeout. -/
def Obligations.FrontEndDescriptorsComplete : Prop :=
  (∀ (d : Desc) (s : State), s.readyDesc d 0x00 → ∃ t, exec (.nop d.id) s = .next t ∧ t.ended d.id St.ok ∧ t.out = s.out) ∧
  (∀ (d : Desc) (taken : Bool) (s : State), s.readyDesc d 0x32 → ∃ t, exec (.marker ⟨d.id, taken⟩) s = .next t ∧ t.ended d.id St.ok ∧
    (bitb (s.cfg Reg.traceEn) ((Sys2Proof.Config.logCode 2).toNat / 1024) = true →
      (taken = true → t.out = .trace (traceHead s.tel.ts (Sys2Proof.Config.logCode 2))
        (Sys2Proof.Config.markerArg d.ring d.seq (BitVec.ofNat 32 d.count)) :: s.out) ∧
      (taken = false → t.out = s.out ∧
        t.tel.countOf Ctr.traceDropped = (s.tel.countOf Ctr.traceDropped).plus 1))) ∧
  (∀ (d : Desc) (s : State), s.desc d.id = some d → d.stage = .waiting → d.opc = 0x30 → d.mode = 0 → s.fenceOpen d = true →
    ∃ t, exec (.fenceOrder d.id) s = .next t ∧ t.ended d.id St.ok) ∧
  (∀ (d : Desc) (s : State), s.desc d.id = some d → d.stage = .waiting → d.opc = 0x30 → d.mode = 1 → s.fenceOpen d = true →
    ∃ t, exec (.fenceVisible d.id) s = .next t ∧ t.ended d.id St.ok ∧ (t.ring d.ring).unseen = 0) ∧
  (∀ (d : Desc) (s : State), s.desc d.id = some d → d.stage = .waiting → d.opc = 0x31 →
    seqReached (s.ring d.waitRing).doneSeq d.waitSeq = true → ∃ t, exec (.wait d.id) s = .next t ∧ t.ended d.id St.ok) ∧
  (∀ (d : Desc) (s : State), s.desc d.id = some d → d.stage = .waiting → d.opc = 0x31 →
    seqReached (s.ring d.waitRing).doneSeq d.waitSeq = false → d.count ≠ 0 →
    ∃ t, exec (.waitTimeout d.id) s = .next t ∧ t.ended d.id St.waitTimeout)

/-! ## Bobbinet (chapter 6) -/

/-- A gather that nothing ahead of it holds back, and whose named tile holds nothing, enters a window, or is pooled at once with
COUNT 0; so does PREFETCH ROW_LIST, which ends with OK at COUNT 0. -/
def Obligations.LookupsEnterTheBobbinet : Prop :=
  (∀ (d : Desc) (s : State), s.readyDesc d 0x01 → s.switchAhead d = false → s.earlierTile d = false → s.verGone d = false →
    (∀ t, mget s.sp.tiles d.tile = some t → t.broken = false ∧ t.held = false) → s.sp.room = true →
    ∃ t e, exec (.gatherPool d.id) s = .next t ∧ t.desc d.id = some e ∧ e.stage = (if d.count = 0 then .pooling else .window)) ∧
  (∀ (d : Desc) (s : State), s.readyDesc d 0x02 → s.switchAhead d = false → s.verGone d = false → s.sp.room = true →
    ∃ t e, exec (.gatherSeq d.id) s = .next t ∧ t.desc d.id = some e ∧ e.stage = (if d.count = 0 then .pooling else .window)) ∧
  (∀ (d : Desc) (s : State), s.readyDesc d 0x18 → d.mode = 0 → s.switchAhead d = false → s.sp.room = true → d.count ≠ 0 →
    ∃ t e, exec (.rowList d.id) s = .next t ∧ t.desc d.id = some e ∧ e.stage = .window)

/-- A reserved head window whose key lists are translated starts on the free sorter, or all its descriptors end at intake; the
open packed window closes into the queue; a head window that waits is told once; a sorted window frees its sorter and its lookups go on
to be pooled; a parity error restarts it once, from its key lists, which WINDOW_START takes in again, and a second one ends its
descriptors with DATA_ERROR. -/
def Obligations.WindowsAreSorted : Prop :=
  (∀ (feeds : List (Nat × WinFeed)) (w : Window) (l : List Window) (k : Nat) (s : State), s.sp.queue = w :: l → w.reserved = true →
    (∀ e ∈ s.sp.sorters, e.2.retake = false) → s.freeSorter = some k → (∀ e ∈ s.descsOf w.members, s.inputsIn e.1 = true) →
    ∃ t, exec (.windowStart feeds) s = .next t ∧ (t.sp.queue.map (·.wid)).Sublist (l.map (·.wid)) ∧
      ((∃ v, mget t.sp.sorters k = some v ∧ v.wid = w.wid) ∨
        ∀ m ∈ w.members, ∀ d ∈ t.fe.descs, d.id = m.id → d.stage = .finished)) ∧
  (∀ (w : Window) (s : State), s.freeSorter.isSome = true → s.sp.open' = some w →
    ∃ t, exec .packWaitExpiry s = .next t ∧ t.sp.open' = none ∧ w ∈ t.sp.queue) ∧
  (∀ (w : Window) (l : List Window) (s : State), s.sp.queue = w :: l → w.reserved = false → w.told = false → w.waited = true →
    ∃ t, exec .imapFull s = .next t ∧ (t.sp.queue.head?.map (·.told)) = some true ∧ State.raised s t 0x601) ∧
  (∀ (k : Nat) (w : Window) (s : State), mget s.sp.sorters k = some w → w.retake = false →
    ∃ t, exec (.windowComplete k false) s = .next t ∧ mget t.sp.sorters k = none ∧
      ∀ m ∈ w.members, ∀ d, s.desc m.id = some d → d.opc ≠ 3 →
        ∃ e, t.desc m.id = some e ∧ (e.stage = .pooling ∨ e.stage = .finished)) ∧
  (∀ (k : Nat) (w : Window) (a b : List (Nat × Window)) (s : State), s.sp.sorters = a ++ (k, w) :: b → (∀ e ∈ a, e.1 < k) →
    (∀ e ∈ b, k < e.1) → w.retake = false → w.restarted = false →
    ∃ t, exec (.windowComplete k true) s = .next t ∧
      t.tel.countOf Ctr.sortRestart = (s.tel.countOf Ctr.sortRestart).plus 1 ∧
      ∀ v, mget t.sp.sorters k = some v → v.wid = w.wid ∧ v.restarted = true ∧ v.retake = true) ∧
  (∀ (feeds : List (Nat × WinFeed)) (k : Nat) (w : Window) (s : State), s.sp.sorters = [(k, w)] → s.sp.queue = [] → w.retake = true →
    (∀ e ∈ s.descsOf w.members, s.inputsIn e.1 = true) →
    ∃ t, exec (.windowStart feeds) s = .next t ∧ ∀ v, mget t.sp.sorters k = some v → v.wid = w.wid ∧ v.retake = false) ∧
  (∀ (k : Nat) (w : Window) (s : State), mget s.sp.sorters k = some w → w.retake = false → w.restarted = true →
    ∃ t, exec (.windowComplete k true) s = .next t ∧ mget t.sp.sorters k = none ∧
      ∀ m ∈ w.members, ∀ d ∈ t.fe.descs, d.id = m.id → d.stage = .finished ∧ d.status = St.dataError)

/-- The run-ahead scan, descriptor by descriptor in the order of the window queue, puts a key it scans at the front of the keys most
recently scanned; IMAP_REL releases the kept lists it names, those that a scatter has claimed once it is done. -/
def Obligations.KeptListsAndRunAhead : Prop :=
  (∀ (d : Desc) (m : Member') (k : Key) (keys : Feed) (rows : List (Key × RowSrc)) (fails : WbFails)
      (s : State), s.desc d.id = some d → s.sp.nextScan = some m → m.id = d.id →
    bitb (s.cfg Reg.xlateCtl) 21 = true → s.raKeys ≠ 0 → d.count = 1 →
    rawKeys d ⟨keys, { data := [] }, { data := [] }⟩ = [some k] →
    ∃ t, exec (.runAheadScan d.id keys rows fails) s = .next t ∧ t.sp.scanned = (k :: s.sp.scanned.erase k).take 4096 ∧
      ∀ w ∈ t.sp.queue, ∀ x ∈ w.members, x.id = d.id → x.seen = true) ∧
  (∀ (p : Path) (val : Word64) (s : State), s.starts p Reg.imapRel 31 1 false none = true →
    ∃ t, exec (.imapRel p val) s = .next t ∧
      ∀ k ∈ t.sp.kept, k.ring = bitf val 0 17 → seqReached (BitVec.ofNat 32 (bitf val 32 32)) k.seq = true →
        k.claimed.isSome = true ∧ k.release = true)

/-! ## Flow and counters (chapter 13) -/

/-- A descriptor that has waited STALL_MS is told of once at its wait point, of several that a ring has at CPL_SPACE the first; CLEAR sets a
counter, or all of them, to 0; SUBTRACT
takes what software read off a counter that holds as much. -/
def Obligations.FlowAndCounters : Prop :=
  (∀ (d : Desc) (s : State), s.desc d.id = some d → s.stallMs ≠ 0 → s.waitPoint d ≠ 0 → d.stalled ≠ s.waitPoint d →
    s.firstStalled d (s.waitPoint d) = true →
    ∃ t e, exec (.flowStall d.id) s = .next t ∧ t.desc d.id = some e ∧ e.stalled = s.waitPoint d ∧ State.raised s t 0xD03) ∧
  (∀ (p : Path) (val : Word64) (s : State), s.starts p Reg.cntCmd 31 1 false none = true → bitb val 13 = false →
    Ctr.isCounter (0xD0000 + 8 * bitf val 0 13) = true →
    ∃ t, exec (.counterClear p val) s = .next t ∧ t.tel.countOf (0xD0000 + 8 * bitf val 0 13) = {}) ∧
  (∀ (p : Path) (val : Word64) (s : State), s.starts p Reg.cntCmd 31 1 false none = true → bitb val 13 = true →
    ∃ t, exec (.counterClear p val) s = .next t ∧ ∀ off, t.tel.countOf off = {}) ∧
  (∀ (p : Path) (val : Word64) (s : State), s.starts p Reg.cntCmd 31 1 false none = true → bitb val 13 = false →
    Ctr.isCounter (0xD0000 + 8 * bitf val 0 13) = true →
    (p ≠ .dbg ∨ [Ctr.auditRecords, Ctr.logRecords, Ctr.logDropped, Ctr.evtDropped].contains (0xD0000 + 8 * bitf val 0 13) = false) →
    bitf (s.own p Reg.cntData) 0 48 ≤ s.counter (0xD0000 + 8 * bitf val 0 13) →
    ∃ t, exec (.subtract p val) s = .next t ∧
      t.counter (0xD0000 + 8 * bitf val 0 13) = s.counter (0xD0000 + 8 * bitf val 0 13) - bitf (s.own p Reg.cntData) 0 48)

/-! ## Fetching and pooling (chapter 7) -/

/-- The head of the waiting windows takes its spool where it fits; a window that waits for spool is told of once; the next round of a
granted window begins once the rows of the round before it have come, its row blocks are admitted, the tier-2 blocks of its rows have come,
and the windows that have begun leave it staging and bobbins. -/
def Obligations.WindowsFetchInRounds : Prop :=
  (∀ (h : PWin) (l : List PWin) (s : State), s.spoolQueue = h :: l → s.spoolFits h = true →
    ∃ t, exec .spoolGrant s = .next t ∧ ∀ w ∈ t.sp.pwins, w.wid = h.wid → w.granted = true) ∧
  (∀ (h : PWin) (l : List PWin) (s : State), s.spoolQueue = h :: l → h.told = false →
    ∃ t, exec .spoolFull s = .next t ∧ (∀ w ∈ t.sp.pwins, w.wid = h.wid → w.told = true) ∧ State.raised s t 0x701) ∧
  (∀ (w : PWin) (l : List Need) (bad : List (Key × Nat)) (s : State), s.pwin w.wid = some w → w.plan[w.round]? = some l → w.granted = true →
    w.asked = [] → w.capped = [] → s.letTiles.blocksIn w = true → s.letTiles.slicesBusy w = false →
    s.letTiles.readsIn w l = true →
    (∀ x ∈ s.sp.pwins, x.wid = w.wid → x = w) →
    ∃ t, exec (.roundStart ⟨w.wid, bad⟩) s = .next t ∧ ∀ x ∈ t.sp.pwins, x.wid = w.wid → x.round = w.round + 1)

/-- A named tile that begins a chain takes the lowest free positions; CRH_TILE_REL releases a tile that no descriptor wants, and
waits for the descriptor of its chain that is pooling. -/
def Obligations.NamedTilesAreGrantedAndReleased : Prop :=
  (∀ (w : PWin) (p : Pooled) (d : Desc) (q : Nat) (s : State), s.desc d.id = some d → p.mem.id = d.id →
    s.sp.pwins.find? (fun v => v.members.any fun p => p.mem.id == d.id && p.pos0.isNone) = some w →
    w.members.find? (fun p => p.mem.id == d.id) = some p → p.pos0 = none → d.opc = 1 → d.tile ≠ 0 →
    (mgetD s.sp.tiles d.tile { owner := d.ring }).held = false → s.freePos (ceilDiv d.bags (bptOf (p.mem.dim d))) = some q →
    ∃ t n, exec (.tilePositionsGrant d.id) s = .next t ∧ mget t.sp.tiles d.tile = some n ∧ n.pos = some q) ∧
  (∀ (p : Path) (val : Word64) (n : NamedTile) (s : State), s.starts p Reg.tileRel 31 1 false none = true → bitf val 0 12 ≠ 0 →
    mget s.sp.tiles (bitf val 0 12) = some n → s.chainPooling n.owner (bitf val 0 12) = false →
    s.tileWanted n.owner (bitf val 0 12) s.fe.nextId = false →
    ∃ t, exec (.tileRel p val) s = .next t ∧ mget t.sp.tiles (bitf val 0 12) = none) ∧
  (∀ (p : Path) (val : Word64) (n : NamedTile) (s : State), s.starts p Reg.tileRel 31 1 false none = true → bitf val 0 12 ≠ 0 →
    mget s.sp.tiles (bitf val 0 12) = some n → s.chainPooling n.owner (bitf val 0 12) = true →
    ∃ t, exec (.tileRel p val) s = .next t ∧ mget t.sp.tiles (bitf val 0 12) = some { n with release := true })

/-- A row that waits for a bobbin takes one once its caps and its slice's grant allow; a row that a bobbin read from Ground store is
staged with the bytes read, unless its beats have been resent twice, whereupon it is read again, or its staging fails on both reads,
whereupon it is fetched again and its slice is retired, once: then it is fetched no more; a closed tile whose turn it is at its slice drains, unless
what it computes
fails for good. -/
def Obligations.RowsAreDeliveredAndTilesDrain : Prop :=
  (∀ (w : PWin) (a : Ask) (l : List Ask) (on : Wait) (s : State),
    s.pwin w.wid = some w → w.capped = a :: l → s.rowWaitIn w.wid a.key a.ver = .inl on → on ≠ .drive →
    s.capOf on (s.cappedAll.takeWhile fun b => b != (w.wid, a)) = 0 →
    s.grantFree w (((w.plan.drop (w.round - 1)).head?.bind fun l => l.find? (sameRow a.key a.ver)).getD
      { key := a.key, ver := a.ver, poss := [a.pos], size := 0 }) = true →
    (s.table (keyTbl a.key)).isSome = true → (∀ x ∈ s.sp.pwins, x.wid = w.wid → x = w) →
    ∃ t, exec (.bobbinGrant w.wid a.key a.ver) s = .next t ∧
      ∀ x ∈ t.sp.pwins, x.wid = w.wid → x.capped = l ∧ ∃ b, x.asked = w.asked ++ [b] ∧ b.key = a.key ∧ b.ver = a.ver) ∧
  (∀ (w : PWin) (a : Ask) (l : List Ask) (g : Grade) (b : Bytes) (src : RowSrc) (fails : WbFails) (errs : Errs) (s : State),
    s.pwin w.wid = some w → w.asked = a :: l → a.got = some (g, b) → errs.crc < 3 → errs.store < 2 →
    (∀ x ∈ s.sp.pwins, x.wid = w.wid → x = w) →
    ∃ t, exec (.rowDelivery w.wid a.key a.ver ⟨src, errs⟩ fails) s = .next t ∧
      ∀ x ∈ t.sp.pwins, x.wid = w.wid → x.asked = l ∧ x.staged = w.staged ++ [{ key := a.key, ver := a.ver, grade := g, data := b }]) ∧
  (∀ (w : PWin) (a : Ask) (l : List Ask) (src : RowSrc) (fails : WbFails) (errs : Errs) (s : State), s.pwin w.wid = some w →
    w.asked = a :: l → 3 ≤ errs.crc ∨ errs.store = 2 ∨ errs.store = 3 → (∀ x ∈ s.sp.pwins, x.wid = w.wid → x = w) →
    ∃ t, exec (.rowDelivery w.wid a.key a.ver ⟨src, errs⟩ fails) s = .next t ∧
      (∀ x ∈ t.sp.pwins, x.wid = w.wid → (a.again = 0 → { a with again := 1 } ∈ x.asked) ∧ (a.again ≠ 0 → x.asked = l)) ∧
      (3 ≤ errs.crc → t.tel.countOf Ctr.recReread = (s.tel.countOf Ctr.recReread).plus 1) ∧
      (errs.store = 2 ∨ errs.store = 3 → t.tel.countOf Ctr.recCopy = (s.tel.countOf Ctr.recCopy).plus 1 ∧ a.pos ∈ t.rl.retiring)) ∧
  (∀ (w : PWin) (p : Pooled) (d : Desc) (q : TileRef) (fault : Option (Nat × BitVec 8)) (errs : Errs) (s : State),
    s.pwin w.wid = some w → s.desc d.id = some d → w.members.find? (fun p => p.mem.id == d.id) = some p → p.mem.id = d.id →
    (p.tiles d w.slices).find? (fun t => t.pos == q.pos && t.tile == q.tile) = some q →
    s.letTiles.mayDrain w p d (p.tiles d w.slices) q = true → errs.lane < 2 → errs.out < 2 →
    errs.store < (if (s.letTiles.heldTile d).isSome then 2 else 4) →
    ∃ t, exec (.tileDrain w.wid d.id q.pos q.tile ⟨fault, errs⟩) s = .next t ∧
      ∀ x ∈ t.sp.pwins, x.wid = w.wid → ∀ y ∈ x.members, y.mem.id = d.id → (q.pos, q.tile) ∈ y.drained)

/-! ## Rescale banks (chapter 8) -/

/-- LOAD of a table of normal numbers fills the shadow bank, where no descriptor is bound to it; a table with another entry is
refused whole; SWAP exchanges the banks after a LOAD. -/
def Obligations.RescaleBanksLoadAndSwap : Prop :=
  (∀ (p : Path) (img : Feed) (s : State), s.starts p Reg.rscCmd 31 1 false none = true → img.status = St.ok →
    (∀ x ∈ rscEntries (slice img.data 0 4096), fNormal x = true) → s.shadowRefs = 0 →
    ∃ t, exec (.load p img) s = .next t ∧ t.qz.shadowOk = true ∧ t.qz.active = s.qz.active ∧ t.qz.loading = none ∧
      (if s.qz.active then t.qz.bankA else t.qz.bankB) = rscEntries (slice img.data 0 4096) ∧
      (if s.qz.active then t.qz.bankB else t.qz.bankA) = (if s.qz.active then s.qz.bankB else s.qz.bankA)) ∧
  (∀ (p : Path) (img : Feed) (x : F32) (s : State), s.starts p Reg.rscCmd 31 1 false none = true → img.status = St.ok →
    x ∈ rscEntries (slice img.data 0 4096) → fNormal x = false →
    ∃ t, exec (.load p img) s = .next t ∧ t.qz.shadowOk = false ∧ t.qz.bankA = s.qz.bankA ∧ t.qz.bankB = s.qz.bankB) ∧
  (∀ (p : Path) (s : State), s.starts p Reg.rscCmd 31 1 false none = true → s.qz.shadowOk = true →
    ∃ t, exec (.swap p) s = .next t ∧ t.qz.active = !s.qz.active ∧ t.qz.shadowOk = false ∧ t.qz.bankA = s.qz.bankA ∧
      t.qz.bankB = s.qz.bankB)

/-! ## Updates (chapter 9) -/

/-- A scatter that holds its reservation reads its gradient, its contributions are accepted and it completes, with OK, or STRAGGLER
where some were dropped; a ROWS-form scatter first enters a window. -/
def Obligations.ScattersAreAccepted : Prop :=
  (∀ (d : Desc) (k : Kept) (grad : Feed) (s : State), s.desc d.id = some d → d.stage = .scatter → d.opc = 3 → d.rowsForm = false →
    s.inputsIn d = true →
    s.claimedBy d.id = some k → scatterStop (d.count * gradStride d k.dim) (d.clip .input 0 grad) = none →
    ((s.listContribs d k (d.clip .input 0 grad).data).any fun c => tooFarAhead (s.epochOf (keyTbl c.key)) k.epoch) = false →
    (∀ b ∈ s.up.outb, b.id ≠ d.id) →
    ∃ t e, exec (.scatterGradLists d.id grad) s = .next t ∧ t.desc d.id = some e ∧ e.stage = .finished ∧
      e.status = (if e.detail = 0 then St.ok else St.straggler) ∧
      e.done + e.detail = (s.listContribs d k (d.clip .input 0 grad).data).length) ∧
  (∀ (d : Desc) (grad : Feed) (s : State), s.readyDesc d 0x03 → d.rowsForm = true → s.switchAhead d = false → s.verGone d = false →
    s.sp.room = true → ∃ t e, exec (.scatterGradRows d.id grad) s = .next t ∧ t.desc d.id = some e ∧ e.stage = .window) ∧
  (∀ (d : Desc) (m : Member') (grad : Feed) (s : State), s.desc d.id = some d → d.stage = .scatter → d.opc = 3 → d.rowsForm = true →
    s.inputsIn d = true →
    s.up.sorted.find? (fun m => m.id == d.id) = some m → m.fwd = [] →
    scatterStop (d.count * gradStride d (m.dim d)) (d.clip .input 1 grad) = none →
    ((rowContribs d m (m.dim d) (d.clip .input 1 grad).data).any fun c => tooFarAhead (s.epochOf (keyTbl c.key)) d.epoch) = false →
    (∀ b ∈ s.up.outb, b.id ≠ d.id) →
    ∃ t e, exec (.scatterGradRows d.id grad) s = .next t ∧ t.desc d.id = some e ∧ e.stage = .finished ∧
      e.status = (if e.detail = 0 then St.ok else St.straggler) ∧
      e.done + e.detail = (rowContribs d m (m.dim d) (d.clip .input 1 grad).data).length)

/-- The scatter at the head of the intake queue reserves once its pillow space is there; a scatter that waits for it is told of once;
MERGE_EVICT takes the oldest entry of a group to the pillow. -/
def Obligations.PillowSpaceIsReserved : Prop :=
  (∀ (d : Desc) (l : List Nat) (s : State), s.up.intake = d.id :: l → d.id ∉ l → s.desc d.id = some d →
    granules (s.scatterNeed d) * 4096 ≤ s.pillowShare → s.pillowRoom (granules (s.scatterNeed d) * 4096) = true →
    s.exchanging = false → ∃ t e, exec .pillowReserve s = .next t ∧ t.desc d.id = some e ∧ e.stage = .scatter ∧
      mget t.up.resv d.id = some (granules (s.scatterNeed d) * 4096) ∧ d.id ∉ t.up.intake) ∧
  (∀ (d : Desc) (s : State), s.desc d.id = some d → d.stage = .reserve → s.up.intake.contains d.id = true → d.told = false →
    ∃ t e, exec (.pillowFull d.id) s = .next t ∧ t.desc d.id = some e ∧ e.told = true ∧ State.raised s t 0x901) ∧
  (∀ (g : Nat) (e : Entry) (s : State), s.up.merge.find? (fun x => s.entryGroup x == g) = some e →
    s.up.pillow.any (Entry.same e) = false →
    ∃ t, exec (.mergeEvict g) s = .next t ∧ t.up.pillow = s.up.pillow ++ [e] ∧ t.up.merge = delFirst (Entry.same e) s.up.merge)

/-- A batch of one message that arrives whole is taken and acknowledged, as soon as its port holds a response credit, a refused
contribution with the refusal; one that stays incomplete is discarded; an acknowledgement counts in its scatter, which ends once
all its batches are accounted for, UNRECOVERABLE where one timed out. -/
def Obligations.BatchesAreAccounted : Prop :=
  (∀ (port : Nat) (m : ContribMsg) (s : State), s.fabUp port = true → s.up.inb = [] → s.up.inq = [] → m.last = true → m.msgs = 1 →
    s.refusesRemote (m.key, m.epoch, 0) = true → s.pillowRoom 0 = true →
    s.exchanging = false → ∃ t, exec (.remoteContribution port m) s = .next t ∧ t.up.inb = [] ∧
      Output.ack port m.sender m.batch 0 0 0 1 (ackBytes m.batch 0 0 0 1) ∈ (if (s.fabPort port).orsp = 0 then t.pw.fabRsp else t.out)) ∧
  (∀ (port : Nat) (m : ContribMsg) (s : State), s.fabUp port = true → s.up.inb = [] → s.up.inq = [] → m.last = true → m.msgs = 1 →
    s.refusesRemote (m.key, m.epoch, 0) = false →
    s.pillowRoom (granules (s.remoteNeed { sender := m.sender, batch := m.batch, msgs := [m], whole := 1, port := port }) * 4096) = true →
    s.exchanging = false → ∃ t a l r, exec (.remoteContribution port m) s = .next t ∧ t.up.inb = [] ∧ a + r = 1 ∧
      Output.ack port m.sender m.batch a l r 0 (ackBytes m.batch a l r 0) ∈ (if (s.fabPort port).orsp = 0 then t.pw.fabRsp else t.out)) ∧
  (∀ (sender : BitVec 16) (batch : BitVec 32) (b : InBatch) (s : State), s.up.inb.find? (fun x => x.is sender batch) = some b →
    b.bad = false → b.complete = false →
    s.exchanging = false → ∃ t, exec (.batchDiscard sender batch) s = .next t ∧ (∀ x ∈ t.up.inb, x.is sender batch = false) ∧
      (∀ q ∈ t.up.inq, q ≠ (sender, batch)) ∧
      ((∀ q ∈ s.up.inq, q = (sender, batch)) → t.up.inb = s.up.inb.filter fun x => !(x.is sender batch))) ∧
  (∀ (port : Nat) (batch : BitVec 32) (a l r x : Nat) (b : OutBatch) (d : Desc) (s : State), s.fabAnswers port = true →
    s.up.outb.find? (fun y => y.batch == batch) = some b → s.desc b.id = some d → d.stage = .remote →
    s.exchanging = false → ∃ t e, exec (.batchAck ⟨port, batch⟩ a l r x) s = .next t ∧ t.desc b.id = some e ∧ e.done = d.done + a ∧
      e.stage = (if s.up.outb.any (fun y => y.id == b.id && y.batch != batch) then .remote else .finished) ∧
      t.up.outb = s.up.outb.filter fun y => y.batch != batch) ∧
  (∀ (batch : BitVec 32) (b : OutBatch) (d : Desc) (s : State), s.up.outb.find? (fun y => y.batch == batch) = some b →
    s.desc b.id = some d → d.stage = .remote → b.count ≠ 0 → s.up.outb.any (fun y => y.id == b.id && y.batch != batch) = false →
    s.exchanging = false → ∃ t e, exec (.remoteAckTimeout batch) s = .next t ∧ t.desc b.id = some e ∧ e.stage = .finished ∧
      e.status = St.unrecoverable)

/-- APPLY of epoch A advances A; APPLY of another epoch ends with BAD_FORMAT; SET_EPOCH of a table with no contributions sets A; FLUSH
of a table with nothing dirty completes; CRH_OPT_SEL.COMMIT copies the path's staged values into the parameter set. -/
def Obligations.EpochsAndParameterSets : Prop :=
  (∀ (d : Desc) (b : Table) (s : State), s.readyDesc d 0x04 → d.mode = 0 → s.table d.tbl = some b → s.scatterAhead d = false →
    d.epoch = s.epochOf d.tbl →
    ∃ t, exec (.apply d.id) s = .next t ∧ t.epochOf d.tbl = s.epochOf d.tbl + 1 ∧
      ∀ h, h ≠ d.tbl → t.epochOf h = s.epochOf h) ∧
  (∀ (d : Desc) (b : Table) (s : State), s.readyDesc d 0x04 → d.mode = 0 → s.table d.tbl = some b → s.scatterAhead d = false →
    d.epoch ≠ s.epochOf d.tbl → ∃ t, exec (.apply d.id) s = .next t ∧ t.ended d.id St.badFormat ∧ t.tb = s.tb) ∧
  (∀ (d : Desc) (b : Table) (s : State), s.readyDesc d 0x04 → d.mode = 1 → s.table d.tbl = some b → s.entriesOf d.tbl = [] →
    ∃ t, exec (.setEpoch d.id) s = .next t ∧ t.ended d.id St.ok ∧ t.epochOf d.tbl = d.epoch ∧ t.up = s.up) ∧
  (∀ (d : Desc) (b : Table) (fails : List RowFail) (s : State), s.readyDesc d 0x04 → d.mode = 2 → s.table d.tbl = some b →
    (∀ v ∈ b.versions, s.dirtyRows d.tbl v.ver = []) → s.cmdOut (.desc d.id) = false →
    ∃ t, exec (.flush d.id fails) s = .next t ∧ t.ended d.id St.ok ∧ t.tb = s.tb ∧ t.up = s.up) ∧
  (∀ (p : Path) (val : Word64) (s : State), s.writable p Reg.optSel 1 = true →
    ∃ t, exec (.commit p val) s = .next t ∧
      mget t.up.psets (bitf val 0 8) = some
        { lr := BitVec.ofNat 32 (bitf (s.own p Reg.optA) 0 32), wd := BitVec.ofNat 32 (bitf (s.own p Reg.optA) 32 32),
          b1 := BitVec.ofNat 32 (bitf (s.own p Reg.optB) 0 32), b2 := BitVec.ofNat 32 (bitf (s.own p Reg.optB) 32 32),
          eps := BitVec.ofNat 32 (bitf (s.own p Reg.optC) 0 32) })

/-- The row of an apply is read, changed under its table's rule and written, from Ground store or from its backing; a row whose backing
stays unreadable past its time loses its contributions, with UPDATE_LOST; a row that waited for twin space or for a way is written once
it has it, and one whose record has gone meanwhile is read from its backing again; a row whose channel is FAILED is written to its backing
(log entry 42: the model's choice); a wait for twin space is told of. A residue mismatch, or an entry that fails its check, once, changes nothing of
this, nor do
beats resent up to twice. -/
def Obligations.AppliedRowsAreWritten : Prop :=
  (∀ (tbl ver row : Nat) (src : RowSrc) (fails : WbFails) (errs : Errs) (a : Apply) (b : Table) (v : Version) (old : Bytes) (e : Entry)
      (s : State), errs.crc < 3 → errs.store < 2 → errs.land < 2 →
    s.applies tbl ver row a b v → s.rmwWaiting tbl ver row = none → s.masterBytes b (keyOf tbl row) ver = some old →
    s.mergedOf a ver row = some e → e.n ≠ 0 → (s.isDirty (keyOf tbl row) ver = true ∨ s.twinRoom old.length = true) →
    ∃ t, exec (.couchingRmw tbl ver row ⟨src, errs⟩ fails) s = .next t ∧ t.rowHolds a tbl ver row (a.record b old e.sums)) ∧
  (∀ (tbl ver row : Nat) (src : RowSrc) (expired : Bool) (fails : WbFails) (a : Apply) (b : Table) (v : Version) (e : Entry) (x s : State),
    s.applies tbl ver row a b v → s.rmwWaiting tbl ver row = none → s.masterBytes b (keyOf tbl row) ver = none →
    s.backStatus b v = St.ok → src.status = St.ok → s.mergedOf a ver row = some e → e.n ≠ 0 →
    x = (s.rmwErrs a ver row {}).fetchBacking b v (keyOf tbl row) { status := src.status, tries := src.tries } →
    (x.homeless (keyOf tbl row) = false ∨ (x.extentOf tbl ver row).isSome = true) →
    x.twinRoom (slice src.data 0 b.srcBytes).length = true →
    ((x.mend b (keyOf tbl row) ver (a.record b (slice src.data 0 b.srcBytes) e.sums)).2 = true ∨
      (x.bringIn b (keyOf tbl row) ver (a.record b (slice src.data 0 b.srcBytes) e.sums) .forced fails).2 = true) →
    ∃ t, exec (.tier2RmwRetry tbl ver row src expired fails) s = .next t ∧
      t.rowHolds a tbl ver row (a.record b (slice src.data 0 b.srcBytes) e.sums)) ∧
  (∀ (tbl ver row : Nat) (src : RowSrc) (fails : WbFails) (a : Apply) (b : Table) (v : Version) (e : Entry) (s : State),
    s.applies tbl ver row a b v → s.rmwWaiting tbl ver row = none → s.masterBytes b (keyOf tbl row) ver = none →
    src.status ≠ St.ok → s.mergedOf a ver row = some e → e.n ≠ 0 →
    ∃ t, exec (.tier2RmwRetry tbl ver row src true fails) s = .next t ∧ t.rowDone a ver row ∧ State.raised s t 0x902) ∧
  (∀ (tbl ver row : Nat) (fails : WbFails) (w : RmwWait) (a : Apply) (b : Table) (v : Version) (old : Bytes) (e : Entry) (s : State),
    s.applies tbl ver row a b v → s.rmwWaiting tbl ver row = some w → w.way = false →
    s.masterBytes b (keyOf tbl row) ver = some old → s.mergedOf a ver row = some e → e.n ≠ 0 → s.twinRoom old.length = true →
    ∃ t, exec (.twinSpaceGrant tbl ver row fails) s = .next t ∧ t.rowHolds a tbl ver row (a.record b old e.sums)) ∧
  (∀ (tbl ver row : Nat) (src : RowSrc) (expired : Bool) (fails : WbFails) (a : Apply) (b : Table) (v : Version) (e : Entry) (s : State),
    s.applies tbl ver row a b v → s.rmwWaiting tbl ver row = none → s.masterBytes b (keyOf tbl row) ver = none → b.backTier = 1 →
    s.backStatus b v = St.ok → src.status = St.ok → s.mergedOf a ver row = some e → e.n ≠ 0 →
    s.homeless (keyOf tbl row) = true → s.extentOf tbl ver row = none → (failOf fails (keyOf tbl row)).status = St.ok →
    b.ver? ver = some v →
    ∃ t, exec (.tier2RmwRetry tbl ver row src expired fails) s = .next t ∧ t.rowDone a ver row ∧
      Output.rowWrite (keyOf tbl row) v.ver (b.rowAddr v row) (a.record b (slice src.data 0 b.srcBytes) e.sums) (s.rowRoute b) ∈ t.out) ∧
  (∀ (tbl ver row : Nat) (fails : WbFails) (w : RmwWait) (a : Apply) (b : Table) (v : Version) (s : State),
    s.applies tbl ver row a b v → s.rmwWaiting tbl ver row = some w → w.way = false → w.data = [] →
    s.masterBytes b (keyOf tbl row) ver = none →
    ∃ t, exec (.twinSpaceGrant tbl ver row fails) s = .next t ∧ t.rmwWaiting tbl ver row = none) ∧
  (∀ (tbl ver row : Nat) (fails : WbFails) (w : RmwWait) (a : Apply) (b : Table) (v : Version) (e : Entry) (s : State),
    s.applies tbl ver row a b v → s.rmwWaiting tbl ver row = some w → w.way = true → w.data ≠ [] →
    (s.homeless (keyOf tbl row) = false ∨ (s.extentOf tbl ver row).isSome = true) →
    s.masterBytes b (keyOf tbl row) ver = none → s.mergedOf a ver row = some e → e.n ≠ 0 → s.twinRoom w.data.length = true →
    ((s.mend b (keyOf tbl row) ver (a.record b w.data e.sums)).2 = true ∨
      (s.bringIn b (keyOf tbl row) ver (a.record b w.data e.sums) .forced fails).2 = true) →
    ∃ t, exec (.cacheWayGrant tbl ver row fails) s = .next t ∧ t.rowHolds a tbl ver row (a.record b w.data e.sums)) ∧
  (∀ (tbl ver row : Nat) (w : RmwWait) (s : State), s.rmwWaiting tbl ver row = some w → w.way = false → w.told = false →
    ∃ t, exec (.twinFull tbl ver row) s = .next t ∧ w ∉ t.up.waits ∧ State.raised s t 0x904)

/-- A dirty record is written to its tier-1 backing at its row's address, untranslated, or with its whole block by an NVMe Write to its
tier-2 backing, and its twin is released; a write-back that fails leaves it dirty and twinned. WB_AGE_EXPIRY and, where one is due,
WRITE_BACK act alike. -/
def Obligations.DirtyRecordsAreWrittenBack : Prop :=
  (∀ (tbl ver row : Nat) (res : Tried) (b : Table) (v : Version) (c : Instr) (s : State), res.status = St.ok →
    c = .wbAgeExpiry tbl ver row res ∨ (c = .writeBack tbl ver row res ∧ s.wbDue (keyOf tbl row) ver = true) →
    s.version tbl ver = some (b, v) → keyTbl (keyOf tbl row) = tbl → keyRow (keyOf tbl row) = row →
    s.mayWrite (keyOf tbl row) ver = true → b.backTier = 1 → (s.cxlUp 0 = true ∨ s.cxlUp 1 = true) →
    ∃ t, exec c s = .next t ∧
      t.out = .rowWrite (keyOf tbl row) ver (b.rowAddr v row) ((s.masterBytes b (keyOf tbl row) ver).getD []) (s.rowRoute b) :: s.out ∧
      ∀ x ∈ t.up.twins, ¬(x.key = keyOf tbl row ∧ x.ver = ver)) ∧
  (∀ (tbl ver row : Nat) (res : Tried) (b : Table) (v : Version) (c : Instr) (s : State), res.status = St.ok →
    c = .wbAgeExpiry tbl ver row res ∨ (c = .writeBack tbl ver row res ∧ s.wbDue (keyOf tbl row) ver = true) →
    s.version tbl ver = some (b, v) → keyTbl (keyOf tbl row) = tbl → keyRow (keyOf tbl row) = row →
    s.mayWrite (keyOf tbl row) ver = true → b.backTier = 2 → s.nsReady v.nsid = true →
    ∃ t w, exec c s = .next t ∧
      Output.blockWrite (s.driveOf v.nsid) w v.nsid (b.rowBlock v.base row).1 (s.blockData b v (keyOf tbl row) fun _ => none) ∈ t.out ∧
      ∀ x ∈ t.up.twins, ¬(x.key = keyOf tbl row ∧ x.ver = ver)) ∧
  (∀ (tbl ver row : Nat) (res : Tried) (b : Table) (v : Version) (c : Instr) (s : State), res.status ≠ St.ok →
    c = .wbAgeExpiry tbl ver row res ∨ (c = .writeBack tbl ver row res ∧ s.wbDue (keyOf tbl row) ver = true) →
    s.version tbl ver = some (b, v) → s.mayWrite (keyOf tbl row) ver = true →
    ∃ t, exec c s = .next t ∧ (b.backTier ≠ 2 → t.out = s.out) ∧ t.up.twins = s.up.twins ∧ t.tb = s.tb ∧ (keyOf tbl row, ver) ∈ t.up.wbFailed)

/-! ## Tables (chapter 5) -/

/-- TABLE_LOAD OPEN adds a STAGED version, on each tier; FILL writes its records and answers their number in DONE, to a tier-2 backing by
an NVMe Write of each block, for which it waits. -/
def Obligations.LoadsOpenAndFill : Prop :=
  (∀ (d : Desc) (b : Table) (s : State), s.readyDesc d 0x11 → d.mode = 0 → s.table d.tbl = some b → b.ver? d.verField = none →
    b.versions.length < 4 → b.staged = none → b.backTier = 0 ∨ b.backTier = 3 →
    ∃ t, exec (.tableLoadOpen d.id) s = .next t ∧ t.ended d.id St.ok ∧
      t.table d.tbl = some { b with versions := b.versions ++ [{ ver := d.verField, state := .staged }] }) ∧
  (∀ (d : Desc) (b : Table) (iova : Nat) (s : State), s.readyDesc d 0x11 → d.mode = 0 → s.table d.tbl = some b →
    b.ver? d.verField = none → b.versions.length < 4 → b.staged = none → b.backTier = 1 →
    s.backingSeg (d.seen && d.ctx == b.ctx) b d.src = some (St.ok, 0, iova) →
    ∃ t, exec (.tableLoadOpen d.id) s = .next t ∧ t.ended d.id St.ok ∧
      t.table d.tbl = some { b with versions := b.versions ++ [{ ver := d.verField, state := .staged, base := iova }] }) ∧
  (∀ (d : Desc) (b : Table) (s : State), s.readyDesc d 0x11 → d.mode = 0 → s.table d.tbl = some b →
    b.ver? d.verField = none → b.versions.length < 4 → b.staged = none → b.backTier = 2 → s.nsReady d.byte56 = true → d.byte56 ≤ 63 →
    d.row0 + b.blocks ≤ ((mget s.fl.nss d.byte56).map (·.blocks)).getD 0 →
    ∃ t, exec (.tableLoadOpen d.id) s = .next t ∧ t.ended d.id St.ok ∧
      t.table d.tbl = some { b with versions := b.versions ++ [{ ver := d.verField, state := .staged, base := d.row0, nsid := d.byte56 }] }) ∧
  (∀ (d : Desc) (src : Feed) (b : Table) (v : Version) (s : State), s.readyTable d 0x11 1 b v → v.state = .staged →
    s.inputsIn d = true → d.row0 + d.count ≤ b.rows → (b.backTier = 2 → s.nsReady v.nsid = true) →
    d.count ≤ (d.clip .bulkSrc 0 src).data.length / b.bstride →
    ∃ t e, exec (.tableLoadFill d.id src) s = .next t ∧ t.desc d.id = some e ∧ e.status = St.ok ∧ e.done = d.count ∧
      e.stage = (if t.cmdOut (.desc d.id) then .filling else .finished) ∧
      (b.backTier = 2 → ∀ r ∈ b.blockLeads d.row0 d.count, ∃ c ∈ t.fl.cmds,
        c.own = .desc d.id ∧ c.kind = 1 ∧ c.ns = v.nsid ∧ c.lba = (b.rowBlock v.base r).1))

/-- TABLE_PIN that passes its checks makes its extent and places every row, from the backing or from its source.
TABLE_EVICT of what is clean: ROWS leaves no copy of its rows in the cache, UNPIN releases the extent, VERSION makes the version
RETIRING. -/
def Obligations.RowsArePinnedAndEvicted : Prop :=
  (∀ (d : Desc) (rows : List RowFetch) (b : Table) (v : Version) (s : State), s.readyTable d 0x12 0 b v → s.pinCheck d b v = none →
    s.backStatus b v = St.ok → (∀ i, i < d.count → (fetchOf rows (d.row0 + i)).status = St.ok) →
    ∃ t, exec (.tablePinFromBacking d.id rows) s = .next t ∧ t.ended d.id St.ok ∧
      ∃ e ∈ t.tb.extents, e.tbl = d.tbl ∧ e.ver = d.verField ∧ e.first = d.row0 ∧ e.count = d.count ∧ e.off = d.dst ∧
        e.placed = (List.range d.count).map (d.row0 + ·)) ∧
  (∀ (d : Desc) (src : Feed) (b : Table) (v : Version) (s : State), s.readyTable d 0x12 1 b v → s.inputsIn d = true →
    s.pinCheck d b v = none →
    d.count ≤ (d.clip .bulkSrc 0 src).data.length / b.bstride →
    ∃ t, exec (.tablePinFromSrc d.id src) s = .next t ∧ t.ended d.id St.ok ∧
      ∃ e ∈ t.tb.extents, e.tbl = d.tbl ∧ e.ver = d.verField ∧ e.first = d.row0 ∧ e.count = d.count ∧ e.off = d.dst ∧
        e.placed = (List.range d.count).map (d.row0 + ·)) ∧
  (∀ (d : Desc) (fails : List RowFail) (b : Table) (v : Version) (s : State), s.readyTable d 0x13 0 b v → d.row0 + d.count ≤ b.rows →
    (∀ r, s.mayWrite (keyOf d.tbl r) v.ver = false) →
    ∃ t, exec (.tableEvictRows d.id fails) s = .next t ∧ t.ended d.id St.ok ∧
      ∀ w ∈ t.ch.ways, w.live = true → w.leaving = 0 → w.repl = 0 → keyTbl w.key = d.tbl → w.ver = v.ver → d.row0 ≤ keyRow w.key →
        keyRow w.key < d.row0 + d.count → s.rowPoisoned d.tbl v.ver (keyRow w.key) = true) ∧
  (∀ (d : Desc) (fails : List RowFail) (b : Table) (v : Version) (e : Extent) (s : State), s.readyTable d 0x13 1 b v →
    s.extentOf d.tbl v.ver d.row0 = some e → ¬(b.backTier = 0 ∧ v.state = .current) → e.dirty = [] →
    ∃ t, exec (.tableEvictUnpin d.id fails) s = .next t ∧ t.ended d.id St.ok ∧
      t.tb.extents = s.tb.extents.filter fun x => !(x.tbl == e.tbl && x.ver == e.ver && x.first == e.first)) ∧
  (∀ (d : Desc) (b : Table) (v : Version) (s : State), s.readyTable d 0x13 2 b v → v.state ≠ .current → v.begun = false →
    ∃ t, exec (.tableEvictVersion d.id) s = .next t ∧ t.ended d.id St.ok ∧
      (t.version d.tbl d.verField).map (·.2.state) = some VerState.retiring)

/-- TABLE_SWITCH that passes its checks, with no load of its version in flight and its ring's earlier lookups admitted, makes its
version CURRENT and the version that was CURRENT RETIRING. -/
def Obligations.SwitchesChangeTheCurrentVersion : Prop :=
  ∀ (d : Desc) (b : Table) (v : Version) (any : Bool) (s : State), s.readyTable d 0x10 (if any then 1 else 0) b v →
    s.loading d.tbl v.ver = false → s.unadmitted d = false → s.switchCheck d.tbl b v any = none →
    ∃ t, exec (if any then .tableSwitchAny d.id else .tableSwitchForward d.id) s = .next t ∧ t.ended d.id St.ok ∧
      (t.version d.tbl d.verField).map (·.2.state) = some VerState.current ∧
      ∀ o, b.current = some o → o.ver ≠ d.verField → (t.version d.tbl o.ver).map (·.2.state) = some VerState.retiring

/-- PREFETCH ROW_RANGE of readable rows completes them all, PREFETCH XLATE completes its pages; ADVISE records or removes an advised
range, brings rows into free room, or marks rows as those to go first. -/
def Obligations.PrefetchAndAdviseComplete : Prop :=
  (∀ (d : Desc) (rows : List RowFetch) (fails : WbFails) (b : Table) (v : Version) (s : State), s.readyDesc d 0x18 → d.mode = 1 →
    s.table d.tbl = some b → d.srcRow + d.count ≤ b.rows → b.current = some v → v.poisoned = false → s.backStatus b v = St.ok →
    (∀ r, s.rowPoisoned d.tbl v.ver r = false) → d.tbl < 65536 → b.rows ≤ 281474976710656 →
    (∀ i, i < d.count → (fetchOf rows (d.srcRow + i)).status = St.ok) →
    ∃ t e, exec (.rowRange d.id rows fails) s = .next t ∧ t.desc d.id = some e ∧ e.stage = .finished ∧ e.status = St.ok ∧ e.done = d.count) ∧
  (∀ (d : Desc) (s : State), s.readyDesc d 0x18 → d.mode = 2 →
    ∃ t e, exec (.xlate d.id) s = .next t ∧ t.desc d.id = some e ∧ e.stage = .finished ∧ e.status = St.ok ∧ e.done = d.count) ∧
  (∀ (d : Desc) (s : State), s.readyDesc d 0x19 → d.mode = 0 →
    ∃ t, exec (.sequential d.id) s = .next t ∧ t.ended d.id St.ok ∧ t.xl.advised.length ≤ max 64 s.xl.advised.length ∧
      ∃ g ∈ t.xl.advised, g.ctx = d.ctx ∧ g.va = d.src ∧ g.len = min d.count d.advRoom) ∧
  (∀ (d : Desc) (s : State), s.readyDesc d 0x19 → d.mode = 1 →
    ∃ t, exec (.normal d.id) s = .next t ∧ t.ended d.id St.ok ∧
      ∀ g ∈ t.xl.advised, ¬(g.ctx = d.ctx ∧ g.va < d.src + d.count ∧ d.src < g.va + g.len)) ∧
  (∀ (d : Desc) (rows : List RowFetch) (b : Table) (v : Version) (s : State), s.readyDesc d 0x19 → d.mode = 2 → s.table d.tbl = some b →
    b.current = some v → ∃ t, exec (.willneed d.id rows) s = .next t ∧ t.ended d.id St.ok) ∧
  (∀ (d : Desc) (fails : List RowFail) (b : Table) (s : State), s.readyDesc d 0x19 → d.mode = 3 → s.table d.tbl = some b →
    ∃ t, exec (.dontneed d.id fails) s = .next t ∧ t.ended d.id St.ok ∧
      ∀ w ∈ t.ch.ways, keyTbl w.key = d.tbl → d.srcRow ≤ keyRow w.key → keyRow w.key < min (d.srcRow + d.count) b.rows →
        w.dn = true ∧ w.freq = 0)

/-- DEFINE of an image that passes its checks makes the table, and of one that fails names the first byte that fails; DELETE of a table
with no live version removes it; BANDS changes its bands alone, from the next aging period on; CRH_PART_CFG takes a write only while it fits. -/
def Obligations.TableRegistersDefine : Prop :=
  (∀ (p : Path) (img : Feed) (s : State), s.starts p Reg.tblCmd 31 1 false none = true →
    s.table (bitf (s.own p Reg.tblSel) 0 16) = none → img.status = St.ok → firstBad (defineBads (slice img.data 0 128)) = none →
    ∃ t, exec (.define p img) s = .next t ∧ t.doneAt p Reg.tblCmd 0 ∧
      t.table (bitf (s.own p Reg.tblSel) 0 16) = some (tableOf (slice img.data 0 128)) ∧
      ∀ h, h ≠ bitf (s.own p Reg.tblSel) 0 16 → t.table h = s.table h) ∧
  (∀ (p : Path) (img : Feed) (off : Nat) (s : State), s.starts p Reg.tblCmd 31 1 false none = true →
    s.table (bitf (s.own p Reg.tblSel) 0 16) = none → img.status = St.ok → firstBad (defineBads (slice img.data 0 128)) = some off →
    ∃ t, exec (.define p img) s = .next t ∧ t.doneAt p Reg.tblCmd 3 ∧ bitf (regGet t p Reg.tblCmd) 40 8 = off ∧ t.tb = s.tb) ∧
  (∀ (p : Path) (b : Table) (s : State), s.starts p Reg.tblCmd 31 1 false none = true →
    s.table (bitf (s.own p Reg.tblSel) 0 16) = some b → b.versions = [] →
    ∃ t, exec (.delete p) s = .next t ∧ t.doneAt p Reg.tblCmd 0 ∧ t.table (bitf (s.own p Reg.tblSel) 0 16) = none) ∧
  (∀ (p : Path) (img : Feed) (b : Table) (s : State), s.starts p Reg.tblCmd 31 1 false none = true →
    s.table (bitf (s.own p Reg.tblSel) 0 16) = some b → img.status = St.ok →
    firstBad (bandBads (slice img.data 0 128) (some b.grade) b.backTier (img_nbands (slice img.data 0 128)) 0 none) = none →
    ∃ t, exec (.bands p img) s = .next t ∧ t.doneAt p Reg.tblCmd 0 ∧
      t.table (bitf (s.own p Reg.tblSel) 0 16) = some { b with next := some (img_bands (slice img.data 0 128)) }) ∧
  (∀ (p : Path) (off size : Nat) (val : Word64) (s : State), s.hits p Reg.partCfg 1 off size →
    ∃ t, exec (.partCfgWrite p off size val) s = .next t ∧
      t.cfg Reg.partCfg = (if s.partFits (s.taken p Reg.partCfg off size val) then s.taken p Reg.partCfg off size val
        else s.cfg Reg.partCfg))

/-- A RETIRING version with no reference and nothing dirty retires: its number is free and its extents are gone; its sweep drops its
copies; a retry writes a dirty record back; a stalled retirement is told of once; a regrade to a DIRECT band drops the row's copies. -/
def Obligations.VersionsRetire : Prop :=
  (∀ (tbl ver : Nat) (fails : List RowFail) (b : Table) (v : Version) (s : State), s.version tbl ver = some (b, v) →
    v.state = .retiring → (v.begun = true ∨ s.refs tbl ver = 0) → s.dirtyRows tbl ver = [] → v.flush = false →
    s.verMoving tbl ver = false →
    ∃ t, exec (.retirement tbl ver fails) s = .next t ∧ t.version tbl ver = none ∧
      (∀ e ∈ t.tb.extents, ¬(e.tbl = tbl ∧ e.ver = ver)) ∧ (v.begun = true → v.swept = true → State.raised s t 0x501)) ∧
  (∀ (tbl ver : Nat) (b : Table) (v : Version) (s : State), s.version tbl ver = some (b, v) → v.begun = true → v.swept = false →
    s.dirtyRows tbl ver = [] → v.flush = false → s.verMoving tbl ver = false →
    ∃ t, exec (.retirementSweep tbl ver) s = .next t ∧ (t.version tbl ver).map (·.2.swept) = some true ∧
      ∀ w ∈ t.ch.ways, w.live = true → w.leaving = 0 → w.repl = 0 → ¬(keyTbl w.key = tbl ∧ w.ver = ver)) ∧
  (∀ (tbl ver row : Nat) (b : Table) (v : Version) (s : State), s.version tbl ver = some (b, v) → v.begun = true →
    s.dirtyRows tbl ver = [row] → keyTbl (keyOf tbl row) = tbl → keyRow (keyOf tbl row) = row → s.mayWrite (keyOf tbl row) ver = true →
    b.backTier = 1 → (s.cxlUp 0 = true ∨ s.cxlUp 1 = true) → s.cmdOut (.retire tbl ver) = false →
    ∃ t, exec (.retireRetry tbl ver []) s = .next t ∧
      t.out = .rowWrite (keyOf tbl row) ver (b.rowAddr v row) ((s.masterBytes b (keyOf tbl row) ver).getD []) (s.rowRoute b) :: s.out) ∧
  (∀ (tbl ver : Nat) (b : Table) (v : Version) (s : State), s.version tbl ver = some (b, v) → v.begun = true → v.stalled = false →
    s.dirtyRows tbl ver ≠ [] →
    ∃ t, exec (.retireStalled tbl ver) s = .next t ∧ (t.version tbl ver).map (·.2.stalled) = some true ∧ State.raised s t 0x502) ∧
  (∀ (tbl ver row : Nat) (src : RowSrc) (fails : WbFails) (q : Regrade) (b : Table) (v : Version) (w : Way) (s : State),
    s.tb.regrades.find? (fun r => r.key == keyOf tbl row && r.ver == ver) = some q → bitb (s.cfg Reg.regradeCtl) 0 = true →
    keyTbl (keyOf tbl row) = tbl → keyRow (keyOf tbl row) = row → s.version tbl ver = some (b, v) → s.mainWay (keyOf tbl row) ver = some w →
    v.begun = false → s.placed tbl ver row = none → (bandAt b q.band).direct = true → s.mayWrite (keyOf tbl row) ver = false →
    s.rowPoisoned tbl ver row = false →
    ∃ t, exec (.regrade tbl ver row src fails) s = .next t ∧
      (∀ x ∈ t.ch.ways, x.live = true → x.leaving = 0 → ¬(x.key = keyOf tbl row ∧ x.ver = ver)) ∧
      ∀ r ∈ t.tb.regrades, ¬(r.key = keyOf tbl row ∧ r.ver = ver))

/-! ## Contexts and translation (chapter 4) -/

/-- CRH_CTX_CFG of the selected context takes a write, but CLASS, PRI_EN and PASID only while EN is 0, and setting EN drops the
context's segments; INVAL drops the segments of its mask; INVAL_DRAIN also waits for the descriptors pricked against them; a returned
mirror block makes the context's segments those of its valid entries, and one that was read before an INVAL is discarded. -/
def Obligations.ContextsAndSegments : Prop :=
  (∀ (p : Path) (off size : Nat) (val : Word64) (s : State), s.hits p Reg.ctxCfg 1 off size →
    ∃ t, exec (.ctxCfgWrite p off size val) s = .next t ∧
      t.ctx (bitf (s.own p Reg.ctxSel) 0 12) =
        (ctxTake (s.ctx (bitf (s.own p Reg.ctxSel) 0 12)) (s.taken p Reg.ctxCfg off size val)).1 ∧
      (∀ c, c ≠ bitf (s.own p Reg.ctxSel) 0 12 → t.ctx c = s.ctx c) ∧
      (s.ctxEn (bitf (s.own p Reg.ctxSel) 0 12) = false → t.ctxEn (bitf (s.own p Reg.ctxSel) 0 12) = true →
        ∀ e ∈ t.xl.segs, e.ctx ≠ bitf (s.own p Reg.ctxSel) 0 12)) ∧
  (∀ (p : Path) (val : Word64) (s : State), s.starts p Reg.segInval 39 1 false none = true → s.ctxEn (bitf val 0 12) = true →
    ∃ t, exec (.inval p val) s = .next t ∧ bitb (regGet t p Reg.segInval) 39 = false ∧ bitf (regGet t p Reg.segInval) 40 8 = 0 ∧
      ∀ e ∈ t.xl.segs, e.ctx = bitf val 0 12 → bitf val 16 16 / 2 ^ e.seg % 2 = 0) ∧
  (∀ (p : Path) (val : Word64) (s : State), s.starts p Reg.segInval 39 1 false none = true → s.ctxEn (bitf val 0 12) = true →
    ∃ t, exec (.invalDrain p val) s = .next t ∧
      bitb (regGet t p Reg.segInval) 39 = !(s.pricked (bitf val 0 12) (bitf val 16 16)).isEmpty ∧
      (s.pricked (bitf val 0 12) (bitf val 16 16) ≠ [] →
        t.xl.drain = some (bitf val 0 12, bitf val 16 16, s.pricked (bitf val 0 12) (bitf val 16 16))) ∧
      ∀ e ∈ t.xl.segs, e.ctx = bitf val 0 12 → bitf val 16 16 / 2 ^ e.seg % 2 = 0) ∧
  (∀ (c : Nat) (block : Bytes) (s : State), s.mirrorOut c = true → (∀ m ∈ s.xl.mirrorOld, m.1 ≠ c) →
    (∀ d ∈ s.fe.descs, d.mirror = true → d.ctx ≠ c) →
    ∃ t, exec (.mirrorReadReturn c block) s = .next t ∧ t.mirrorOut c = false ∧
      (∀ i, i < 16 → ∀ g, (mirrorEntry c i block).1 = some g → ∃ e ∈ t.xl.segs, { e with beneath := g.beneath } = g) ∧
      ∀ e ∈ t.xl.segs, e.ctx = c → ∃ i g, i < 16 ∧ (mirrorEntry c i block).1 = some g ∧ { e with beneath := g.beneath } = g) ∧
  (∀ (c : Nat) (block : Bytes) (m : Nat × Nat) (s : State), m ∈ s.xl.mirrorOld → m.1 = c →
    ∃ t, exec (.mirrorReadReturn c block) s = .next t ∧ t.xl.segs = s.xl.segs ∧ t.fe = s.fe ∧
      t.xl.mirrorOld.length + 1 = s.xl.mirrorOld.length)

/-- A page that a run-ahead asked for is usable once translated, in a page of 4 KiB, 2 MiB or 1 GiB; a page request is outstanding
no more once it is answered, and its access faults where the answer is no; a Response Failure stops the function's page requests
until its PRI capability is enabled again; a freed park entry takes the descriptor at a ring's head. -/
def Obligations.PageRequestsAndPark : Prop :=
  (∀ (id : Nat) (x : Xlate) (a : Ahead) (s : State), s.xl.ahead.find? (fun a => a.id == id) = some a → a.pages = 1 → x.port = a.port →
    (∀ g ∈ s.xl.advised, g.ended = false) →
    pageLog x.log2 = true → x.iova / 2 ^ x.log2 = a.iova / 2 ^ x.log2 → (a.needR = true → x.r = true) → (a.needW = true → x.w = true) →
    ∃ t, exec (.atsTranslationCompletion id [x]) s = .next t ∧ (∀ b ∈ t.xl.ahead, b.id ≠ id) ∧
      (t.xl.xc.any fun e => e.suffices a.pasid { off := 0, port := a.port, iova := a.iova, r := a.needR, w := a.needW, pinned := true }) = true) ∧
  (∀ (d : Desc) (r : Range) (xs : List Xlate) (s : State), s.fe.descs = [d] → d.stage = .parked → d.ranges = [r] → r.seg = true →
    r.known = false → ((r.pages (s.portFor d r)).map (·.off)).Nodup → (∀ o ∈ r.lack, o ∈ r.pri) → d.mirror = false → d.ats = false →
      (s.xl.pri.any fun e => e.1 == d.id) = true →
    ∃ t, exec (.pageResponse d.id .success xs) s = .next t ∧ ∀ e ∈ t.xl.pri, e.1 ≠ d.id) ∧
  (∀ (d : Desc) (r : Range) (xs : List Xlate) (code : PageResp) (s : State), s.fe.descs = [d] → d.stage = .parked → d.opc ≠ 0x12 →
    d.isBulk = false → d.ranges = [r] → r.kind = .input → r.seg = true → r.known = false → (∃ o ∈ r.lack, o ∈ r.pri) → d.mirror = false →
      d.ats = false →
    (s.xl.pri.any fun e => e.1 == d.id) = true → code ≠ .success →
    ∃ t, exec (.pageResponse d.id code xs) s = .next t ∧ t.ended d.id St.pageFault ∧
      (code = .failure → (s.ring d.ring).home ∈ t.xl.priStop ∧ State.raised s t 0x402)) ∧
  (∀ (d : Desc) (r : Range) (s : State), s.fe.descs = [d] → d.stage = .parked → d.opc ≠ 0x12 →
    d.isBulk = false → d.ranges = [r] → r.kind = .input →
    r.seg = true → r.known = false → (∃ o ∈ r.lack, o ∈ r.pri) → d.mirror = false → d.ats = false →
    (s.xl.pri.any fun e => e.1 == d.id) = true →
    ∃ t, exec (.pageResponseTimeout d.id) s = .next t ∧ t.ended d.id St.pageFault) ∧
  (∀ (port : Nat) (s : State),
    ∃ t, exec (.priCapabilityEnable port) s = .next t ∧ port ∉ t.xl.priStop) ∧
  (∀ (d : Desc) (s : State), s.fe.descs = [d] → d.stage = .headWait → s.fe.park.length < 256 →
    ∃ t e, exec (.parkEntryFree d.ring) s = .next t ∧ t.desc d.id = some e ∧ e.stage = .parked ∧ t.fe.park = s.fe.park ++ [d.id])

/-- An Invalidate Request on a port that is up marks the entries it names stale; once they have drained, or have been stopped with XLATE_ABORT, its
completion
is sent. A driver structure that cannot be translated is told of once; a host read that times out ends its descriptor. -/
def Obligations.InvalidationsComplete : Prop :=
  (∀ (port tag pasid iova len : Nat) (s : State), s.xl.invals.length < 32 → s.cxlUp port = true → s.pw.selvedge = false →
    ∃ t, exec (.invalidateRequest port tag pasid iova len) s = .next t ∧
      (∀ e ∈ t.xl.xc, e.overlaps port pasid iova len = true → e.stale = true) ∧
      ∃ v ∈ t.xl.invals, v.port = port ∧ v.tag = tag ∧ v.pasid = pasid ∧ v.iova = iova ∧ v.len = len) ∧
  (∀ (port tag : Nat) (v : Inval) (s : State), s.xl.invals.find? (fun i => i.port == port && i.tag == tag) = some v →
    ∃ t, exec (.invalidateDrained port tag) s = .next t ∧ Output.invalDone port tag ∈ t.out) ∧
  (∀ (port tag : Nat) (v : Inval) (s : State), s.xl.invals.find? (fun i => i.port == port && i.tag == tag) = some v → v.waits ≠ [] →
    ∃ t, exec (.invalAbort port tag) s = .next t ∧ Output.invalDone port tag ∈ t.out ∧
      (∀ i ∈ t.xl.invals, ¬(i.port = port ∧ i.tag = tag)) ∧ State.raised s t 0x403 ∧
      ∀ i ∈ v.waits, ∀ d ∈ t.fe.descs, d.id = i → d.stage = .finished ∧ d.status = St.xlateAbort) ∧
  (∀ (which port : Nat) (iova : Word64) (s : State), s.xl.drvFault.contains which = false →
    ∃ t, exec (.xlateDriverRetry which port iova false) s = .next t ∧ which ∈ t.xl.drvFault ∧ State.raised s t 0x401) ∧
  (∀ (which port : Nat) (iova : Word64) (s : State),
    ∃ t, exec (.xlateDriverRetry which port iova true) s = .next t ∧ t.xl.drvFault = s.xl.drvFault.filter fun w => w != which) ∧
  (∀ (d : Desc) (done : Nat) (addr : Word64) (s : State), s.desc d.id = some d → d.reads = true →
    ∃ t, exec (.dmaTimeout d.id done addr) s = .next t ∧ t.ended d.id St.dmaTimeout)

/-! ## Ports (chapter 2) -/

/-- A host port that is lost, or whose function is reset, pauses its rings; a port that trains is up with what it reached, where that is
256-byte flit mode at 16 GT/s or above; a fabric port that trains is PRESENT once its outbound credits are initialised, and the first one
gives the block its NODE; one that is drained shows DRAINING, and ABSENT with no response outstanding; Larlyn's credits add up, and let
the messages and responses leave that wait for them. -/
def Obligations.PortsComeAndGo : Prop :=
  (∀ (port : Nat) (s : State), s.cxlUp port = true →
    s.exchanging = false → ∃ t, exec (.hostLinkDown port) s = .next t ∧ t.cxlUp port = false ∧
      ∀ k, s.losesRing port k = true → (t.ring k).state = .pausedHost) ∧
  (∀ (port : Nat) (f : FnSetup) (s : State), s.cxlUp port = true →
    s.exchanging = false → ∃ t, exec (.functionLevelReset ⟨port, f⟩) s = .next t ∧ t.cxlUp port = true ∧
      pget t.st.sessions (if port = 0 then .fn0 else .fn1) = none ∧ mget t.pw.fns port = some (fnMade f) ∧
      ∀ k, s.losesRing port k = true → (t.ring k).state = .pausedHost) ∧
  (∀ (port : Nat) (res : LinkRes) (s : State), s.pw.selvedge = false → s.cxlUp port = false → port < Member.cxlPorts s.fuses.member →
    ∃ t, exec (.hostPortTraining port res) s = .next t ∧ mget t.pw.cxl port = some (portOf res) ∧
      (res.up = true → res.width ≠ 0 → 2 ≤ res.rate → res.flit = true → t.cxlUp port = true ∧ t.pw.cxlEnum = true)) ∧
  (∀ (port oreq orsp : Nat) (node : BitVec 16) (s : State), s.pw.selvedge = false → port < Member.fabPorts s.fuses.member →
    (s.fabPort port).status = .absent →
    ∃ t, exec (.fabricPortTraining port ⟨node, oreq, orsp⟩) s = .next t ∧ t.pw.node = s.pw.node.or (some node) ∧
      (t.fabPort port).status = (if 0 < oreq ∧ 0 < orsp then .present else .training)) ∧
  (∀ (port : Nat) (s : State), s.fabUp port = true → port < Member.fabPorts s.fuses.member →
    ∃ t, exec (.fabricPortDrain port) s = .next t ∧ (t.fabPort port).status = (if s.fabBusy port then .draining else .absent) ∧
      ∀ j, j ≠ port → (s.fabPort j).status ≠ .draining → t.fabPort j = s.fabPort j) ∧
  (∀ (port k : Nat) (resp : Bool) (s : State), s.fabUp port = true → s.pw.fabOut = [] → s.pw.fabRsp = [] →
    s.exchanging = false → ∃ t, exec (.fabricCreditReturn port resp k) s = .next t ∧
      (t.fabPort port).oreq = (s.fabPort port).oreq + (if resp then 0 else k) ∧
      (t.fabPort port).orsp = (s.fabPort port).orsp + (if resp then k else 0)) ∧
  (∀ (port k : Nat) (resp : Bool) (s : State), (s.fabPort port).status = .training →
    0 < (s.fabPort port).oreq + (if resp then 0 else k) → 0 < (s.fabPort port).orsp + (if resp then k else 0) →
    s.exchanging = false → ∃ t, exec (.fabricCreditReturn port resp k) s = .next t ∧ t.fabUp port = true) ∧
  (∀ (port k : Nat) (o : Output) (l : List Output) (s : State), s.fabUp port = true → port < Member.fabPorts s.fuses.member → 0 < k →
    s.pw.fabOut = o :: l → s.fabFirst = none →
    s.exchanging = false → ∃ t, exec (.fabricCreditReturn port false k) s = .next t ∧ o.onPort port ∈ t.out) ∧
  (∀ (port k : Nat) (o : Output) (l : List Output) (s : State), s.fabUp port = true → 0 < k → s.pw.fabRsp = o :: l →
    o.ackPort = some port → s.exchanging = false → ∃ t, exec (.fabricCreditReturn port true k) s = .next t ∧ o ∈ t.out)

/-! ## Bulk mover (chapter 12) -/

/-- A spill or fill that is past the front end is handed to the bulk mover while it holds fewer than 64, STRIPED in its record where its
ring lets it stripe; the first burst in the round whose host pages are translated, and whose bytes all move, advances its descriptor and sends
it to the end of the round, and its last burst completes it. -/
def Obligations.BulkMovesInBursts : Prop :=
  (∀ (d : Desc) (s : State), s.readyDesc d 0x20 → s.fl.bulk.length < 64 →
    ∃ t e, exec (.bulkSpill d.id) s = .next t ∧ t.desc d.id = some e ∧ e.stage = .bulk ∧
      e.flags = withFlag d.flags Fl.striped (d.stripe && (s.ring d.ring).stripeOk) ∧
      t.fl.bulk = s.fl.bulk ++ [{ id := d.id, burst := s.burstBytes }]) ∧
  (∀ (d : Desc) (s : State), s.readyDesc d 0x21 → s.fl.bulk.length < 64 →
    ∃ t e, exec (.bulkFill d.id) s = .next t ∧ t.desc d.id = some e ∧ e.stage = .bulk ∧
      e.flags = withFlag d.flags Fl.striped (d.stripe && (s.ring d.ring).stripeOk) ∧
      t.fl.bulk = s.fl.bulk ++ [{ id := d.id, burst := s.burstBytes }]) ∧
  (∀ (b : Bulk) (d : Desc) (src : Feed) (f : Option Nat) (s : State), s.fl.bulk.find? s.burstMay = some b → s.desc b.id = some d →
    b.next d ≤ src.data.length → d.bulkCut b.moved (b.next d) src f = none → b.moved + b.next d < d.count → d.stage = .bulk →
    (∀ r ∈ d.ranges, r.seg = true ∧ r.fault = none ∧ r.lack = []) → (∀ e ∈ s.fe.descs, e.pricking = false) →
    ∃ t, exec (.bulkBurst b.id src f) s = .next t ∧
      t.fl.bulk = (s.fl.bulk.filter fun x => x.id != b.id) ++ [{ b with moved := b.moved + b.next d }]) ∧
  (∀ (b : Bulk) (d : Desc) (src : Feed) (f : Option Nat) (s : State), s.fl.bulk.find? s.burstMay = some b → s.desc b.id = some d →
    b.next d ≤ src.data.length → d.bulkCut b.moved (b.next d) src f = none → d.count ≤ b.moved + b.next d →
    ∃ t, exec (.bulkBurst b.id src f) s = .next t ∧ t.ended b.id St.ok)

/-! ## Cache upkeep and skew (chapters 7 and 8) -/

/-- An aging sweep halves the popularity of ghosts and of every row's replica 0, and every sketch count, dropping those that
become 0, and puts the bands that BANDS has given in force. At an interval's end each channel's figures are taken and counting starts anew. The
settings of CRH_CACHE_CTL and
CRH_SKEW_CTL come into force there. A published migration or replication names its row in the redirect table. -/
def Obligations.LoadIsMeasuredAndMoved : Prop :=
  (∀ s : State, ∃ t, exec .agingSweep s = .next t ∧ t.ch.ways = s.ch.ways.filterMap Way.halve ∧
    t.ch.sketch = (s.ch.sketch.map fun e => (e.1, e.2 / 2)).filter (fun e => e.2 != 0) ∧ t.ch.fullTold = false ∧
    t.ch.ctlNow = s.cfg Reg.cacheCtl ∧ ∀ h b, s.table h = some b → t.table h = some (Table.newBands b)) ∧
  (∀ s : State, ∃ t, exec .loadIntervalEnd s = .next t ∧ t.ch.tracker = [] ∧ t.ch.skewNow = s.cfg Reg.skewCtl ∧ ∀ c, c < s.chans →
    ((∀ r ∈ s.ch.redir, r.isRepl = false) → (t.loadOf c).lines = 0) ∧
    (t.loadOf c).lastLines = (s.loadOf c).lines ∧ (t.loadOf c).lastBusy = (s.loadOf c).busy s.intClocks ∧
    (t.loadOf c).hot = (decide (s.bankHot ≤ (s.loadOf c).busy s.intClocks) ||
      decide (s.hotPct * s.allLines ≤ (s.loadOf c).lines * 100 * s.chans))) ∧
  (∀ (tbl ver row c : Nat) (fails : WbFails) (m : Move) (w : Way) (s : State), s.moveOf (keyOf tbl row) ver false = some m →
    m.kind = .migrated c → (s.endMove (keyOf tbl row) ver).mainWay (keyOf tbl row) ver = some w →
    (((s.endMove (keyOf tbl row) ver).touchHead w.ch w.set false).copyWays c fails
      (((s.endMove (keyOf tbl row) ver).copiesOf (keyOf tbl row) ver).filter fun x => x.repl == 0)).2 = true →
    ∃ t, exec (.migrationPublish tbl ver row fails) s = .next t ∧
      (∃ r ∈ t.ch.redir, r.key = keyOf tbl row ∧ r.ver = ver ∧ r.kind = .migrated c) ∧
      ∀ x ∈ t.ch.moves, ¬(x.key = keyOf tbl row ∧ x.ver = ver)) ∧
  (∀ (tbl ver row h n : Nat) (fails : WbFails) (m : Move) (b : Table) (g : Grade) (bytes : Bytes) (s1 s : State),
    s.moveOf (keyOf tbl row) ver true = some m → m.kind = .replicated h n → s.table (keyTbl (keyOf tbl row)) = some b →
    (s.endMove (keyOf tbl row) ver).replicaData b (keyOf tbl row) ver = (s1, some (g, bytes)) →
    (s1.addReplicas (keyOf tbl row) ver h g bytes fails ((List.range n).filter fun i =>
      i != 0 && !((((s.endMove (keyOf tbl row) ver).replicasOf (keyOf tbl row) ver).map (·.repl)).contains i))).2 = true →
    ∃ t, exec (.replicationPublish tbl ver row fails) s = .next t ∧
      (∃ r ∈ t.ch.redir, r.key = keyOf tbl row ∧ r.ver = ver ∧ r.kind = .replicated h n) ∧
      ∀ x ∈ t.ch.moves, ¬(x.key = keyOf tbl row ∧ x.ver = ver))

/-! ## Ground store (chapter 9) -/

/-- A channel's store clock issues its one waiting request where nothing bars it. A due refresh burst takes its channel for 16 clocks and
moves on to the next of the 384 array rows, at the interval of the band then in force; a channel that serves no logical channel is refreshed
too, by a clock of its own (the model's choice). An aged write-combining entry is retired by a read and a write of its line, and is in use
until the write has issued. -/
def Obligations.BanksAreScheduled : Prop :=
  (∀ (ch p : Nat) (r : Req) (s : State), s.pchOf ch = some p → (s.gs.queues.filter fun x => x.ch == ch) = [r] →
    r.write = (s.sched ch).writing → r.bank / 30 = (s.sched ch).tier → mgetD (s.sched ch).busy r.bank 0 ≤ (s.sched ch).clock + 1 →
    (s.sched ch).free ≤ (s.sched ch).clock + 1 → (s.sched ch).clock + 1 < (s.sched ch).burst + (s.sched ch).ival →
    (s.phys p).throttle = 0 → s.emergLevel = 0 → (∀ e ∈ s.gs.wcWait, e.ch ≠ ch) → s.gs.copies = [] →
    ∃ t, exec (.bankAccess ch) s = .next t ∧ t.gs.queues = delFirst (fun x => x == r) s.gs.queues ∧
      (t.sched ch).clock = (s.sched ch).clock + 1 ∧ mgetD (t.sched ch).busy r.bank 0 = (s.sched ch).clock + 17) ∧
  (∀ (p l : Nat) (s : State), (s.phys p).state ≠ .absent → (s.phys p).state ≠ .failed → (s.phys p).state ≠ .training →
    s.lchOf p = some l → (s.sched l).burst + (s.sched l).ival ≤ (s.sched l).clock →
    ∃ t, exec (.refreshBurst p) s = .next t ∧ (t.sched l).free = max (s.sched l).clock (s.sched l).free + 16 ∧
      (t.sched l).burst = (s.sched l).clock ∧ (t.sched l).ival = s.burstInt p ∧ (t.phys p).row = ((s.phys p).row + 1) % 384) ∧
  (∀ (p : Nat) (s : State), (s.phys p).state ≠ .absent → (s.phys p).state ≠ .failed → (s.phys p).state ≠ .training →
    s.lchOf p = none →
    ∃ t, exec (.refreshBurst p) s = .next t ∧ (t.sched (256 + p)).burst = (s.sched (256 + p)).burst + (s.sched (256 + p)).ival ∧
      (t.sched (256 + p)).ival = s.burstInt p ∧ (t.phys p).row = ((s.phys p).row + 1) % 384) ∧
  (∀ (ch : Nat) (e : WcEntry) (s : State), s.oldestWc ch = some e →
    e.born + max 1 (bitf (s.cfg Reg.gsCtl) 16 12) ≤ s.clockOf ch →
    s.gs.lostBanks.contains (e.ch * 256 + e.bank) = false → s.gs.copies = [] → (∀ x ∈ s.gs.wcWait, x.ch ≠ ch) →
    ∃ t, exec (.wcRetire ch) s = .next t ∧ t.gs.wc = (s.gs.wc.map fun x => if x = e then { x with out := true } else x) ∧ ∃ a b : Req,
      t.gs.queues = s.gs.queues ++ [a, b] ∧ a.ch = e.ch ∧ a.bank = e.bank ∧ a.line = e.line ∧ a.write = false ∧
      b.ch = e.ch ∧ b.bank = e.bank ∧ b.line = e.line ∧ b.write = true)

/-- A row is repaired onto its bank's next spare row, a bank onto its tier's next spare bank, and a stuck bank is mapped away; the
scrubber counts its pass, an error that a second read clears, and marks a table whose directory entry fails in both copies. -/
def Obligations.SparesReplaceRowsAndBanks : Prop :=
  (∀ (ch tier bank row p : Nat) (s : State), s.bankThere ch tier bank = some p → row < 384 →
    mgetD s.gs.rowUsed (bankKey p tier (s.physBank p tier bank)) 0 < 15 →
    ∃ t, exec (.rowRepair ch tier bank row) s = .next t ∧
      mget t.gs.rowMap (bankKey p tier (s.physBank p tier bank) * 512 + row) =
        some (mgetD s.gs.rowUsed (bankKey p tier (s.physBank p tier bank)) 0) ∧
      mget t.gs.rowUsed (bankKey p tier (s.physBank p tier bank)) =
        some (mgetD s.gs.rowUsed (bankKey p tier (s.physBank p tier bank)) 0 + 1) ∧ State.raised s t 0xB04) ∧
  (∀ (ch tier bank p : Nat) (gone : Bool) (s : State), s.bankThere ch tier bank = some p → mgetD s.gs.bankUsed (tierKey p tier) 0 < 2 →
    ∃ t, exec (.bankRepair ch tier ⟨bank, gone⟩) s = .next t ∧
      mget t.gs.bankMap (bankKey p tier bank) = some (30 + mgetD s.gs.bankUsed (tierKey p tier) 0) ∧
      mget t.gs.bankUsed (tierKey p tier) = some (mgetD s.gs.bankUsed (tierKey p tier) 0 + 1) ∧ State.raised s t 0xB04) ∧
  (∀ (ch tier bank p : Nat) (s : State), s.bankThere ch tier bank = some p → mgetD s.gs.bankUsed (tierKey p tier) 0 < 2 →
    (s.gs.queues.any fun r => r.ch == ch && r.bank == tier * 30 + bank) = true →
    ∃ t, exec (.bankStuck ch tier bank) s = .next t ∧
      mget t.gs.bankMap (bankKey p tier bank) = some (30 + mgetD s.gs.bankUsed (tierKey p tier) 0) ∧
      State.raised s t 0xB03) ∧
  (∀ (ch p : Nat) (s : State), s.pchOf ch = some p → bitf (s.cfg Reg.gsCtl) 40 8 ≠ 0 → s.roleUp 3 = true →
    ∃ t, exec (.scrub ch []) s = .next t ∧ t.gs = s.gs ∧ t.tel.countOf Ctr.scrubPasses = (s.tel.countOf Ctr.scrubPasses).plus 1) ∧
  (∀ (ch tier bank line p : Nat) (s : State), s.bankThere ch tier bank = some p → line < 3072 → bitf (s.cfg Reg.gsCtl) 40 8 ≠ 0 →
    s.roleUp 3 = true →
    ∃ t, exec (.scrub ch [.line tier bank line false]) s = .next t ∧ t.gs = s.gs ∧
      t.tel.countOf Ctr.recReread = (s.tel.countOf Ctr.recReread).plus 1) ∧
  (∀ (ch h p : Nat) (b : Table) (s : State), s.pchOf ch = some p → bitf (s.cfg Reg.gsCtl) 40 8 ≠ 0 → s.roleUp 3 = true →
    s.table h = some b →
    ∃ t, exec (.scrub ch [.directory h true]) s = .next t ∧ t.gs = s.gs ∧ t.table h = some { b with dirBad := true })

/-- REPLACE, FOLD and UNFOLD of CRH_GS_CMD start their action on a channel that is fit for it, and so does a margin below its limit under
AUTO_REPAIR; a channel that cannot be read is replaced at once, and a copy of it goes on without reading it; RETRAIN, TEST and RETIRE act on an idle
channel at once. -/
def Obligations.ChannelCommandsStart : Prop :=
  (∀ (p : Path) (f q r : Nat) (l : List Nat) (s : State), s.starts p Reg.gsCmd 31 1 true (some 3) = true → (p = .dbg ∨ 2 ≤ s.rights p) →
    f < 256 → s.pchOf f = some r → s.acting f = false → s.spareChs = q :: l →
    ∃ t, exec (.replace p f true) s = .next t ∧ (∃ c ∈ t.gs.copies, c.lch = f ∧ c.op = 1 ∧ c.pch = q) ∧
      (q ≠ r → (t.phys q).state = .copyIn) ∧ (t.phys r).state = .copyOut ∧ bitb (regGet t p Reg.gsCmd) 31 = true) ∧
  (∀ (p : Path) (f r : Nat) (s : State), s.starts p Reg.gsCmd 31 1 true (some 3) = true → (p = .dbg ∨ 2 ≤ s.rights p) →
    f < 256 → s.pchOf f = some r → s.acting f = false → s.donor f = false → 2 * s.foldSets ≤ s.cachePockets → s.ch.ways = [] →
    ∃ t, exec (.fold p f true []) s = .next t ∧ (∃ c ∈ t.gs.copies, c.lch = f ∧ c.op = 2) ∧ (t.phys r).state = .copyOut ∧
      bitb (regGet t p Reg.gsCmd) 31 = true) ∧
  (∀ (p : Path) (f q : Nat) (l : List Nat) (s : State), s.starts p Reg.gsCmd 31 1 true (some 3) = true → (p = .dbg ∨ 2 ≤ s.rights p) →
    f < 256 → f < s.chans → s.foldedCh f = true → s.acting f = false → s.spareChs = q :: l →
    ∃ t, exec (.unfold p f) s = .next t ∧ (∃ c ∈ t.gs.copies, c.lch = f ∧ c.op = 3 ∧ c.pch = q) ∧ (t.phys q).state = .copyIn ∧
      bitb (regGet t p Reg.gsCmd) 31 = true) ∧
  (∀ (p : Path) (q : Nat) (res : Option TgRes) (s : State), s.starts p Reg.gsCmd 31 1 true (some 3) = true → (p = .dbg ∨ 2 ≤ s.rights p) →
    q < 256 → q < Member.phys s.fuses.member → ((s.phys q).state = .spare ∨ (s.phys q).state = .offline) →
    ∃ t, exec (.retrain p q res) s = .next t ∧
      ((res = none ∨ ∃ r, res = some r ∧ r.errors ≠ 0) → (t.phys q).state = .failed ∧ t.doneAt p Reg.gsCmd 6) ∧
      (∀ r, res = some r → (t.phys q).tgDone = true ∧ (t.phys q).tgPass = (r.errors == 0)) ∧
      ((∃ r, res = some r ∧ r.errors = 0) → (t.phys q).state = .spare ∧ t.doneAt p Reg.gsCmd 0)) ∧
  (∀ (p : Path) (q errors tier bank line : Nat) (s : State), s.starts p Reg.gsCmd 31 1 false (some 3) = true →
    q < 256 → q < Member.phys s.fuses.member → ((s.phys q).state = .spare ∨ (s.phys q).state = .offline) →
    (bitf (s.own p Reg.gsTgCfg) 2 2 = 3 ∨
      bitf (s.own p Reg.gsTgCfg) 2 2 ≠ 1 ∧ (s.phys q).fill = some (testFill (s.own p Reg.gsTgCfg))) →
    ∃ t, exec (.test p q errors tier bank line) s = .next t ∧ (t.phys q).tgDone = true ∧ (t.phys q).tgPass = (errors == 0) ∧
      (t.phys q).state = (if errors = 0 then (s.phys q).state else .failed) ∧ t.doneAt p Reg.gsCmd (if errors = 0 then 0 else 6)) ∧
  (∀ (p : Path) (q errors tier bank line : Nat) (s : State), s.starts p Reg.gsCmd 31 1 false (some 3) = true →
    q < 256 → q < Member.phys s.fuses.member → ((s.phys q).state = .spare ∨ (s.phys q).state = .offline) → errors ≠ 0 →
    (bitf (s.own p Reg.gsTgCfg) 2 2 = 0 ∨ bitf (s.own p Reg.gsTgCfg) 2 2 = 2) →
    ∃ t, exec (.test p q errors tier bank line) s = .next t ∧ (t.phys q).tgDone = true ∧ (t.phys q).tgPass = false ∧
      (t.phys q).state = .failed ∧ t.doneAt p Reg.gsCmd 6) ∧
  (∀ (p : Path) (q errors tier bank line : Nat) (s : State), s.starts p Reg.gsCmd 31 1 false (some 3) = true →
    q < 256 → q < Member.phys s.fuses.member → ((s.phys q).state = .spare ∨ (s.phys q).state = .offline) →
    bitf (s.own p Reg.gsTgCfg) 2 2 = 1 →
    ∃ t, exec (.test p q errors tier bank line) s = .next t ∧ (t.phys q).tgDone = true ∧ (t.phys q).tgPass = true ∧
      (t.phys q).state = (s.phys q).state ∧ t.doneAt p Reg.gsCmd 0) ∧
  (∀ (p : Path) (q : Nat) (s : State), s.starts p Reg.gsCmd 31 1 true (some 3) = true → (p = .dbg ∨ 2 ≤ s.rights p) →
    q < 256 → q < Member.phys s.fuses.member → ((s.phys q).state = .spare ∨ (s.phys q).state = .offline) →
    ∃ t, exec (.retire p q) s = .next t ∧ (t.phys q).state = .failed ∧ t.doneAt p Reg.gsCmd 0) ∧
  (∀ (f q r : Nat) (l : List Nat) (s : State), s.roleUp 3 = true → s.autoRepair = true → s.pchOf f = some r → s.acting f = false →
    s.spareChs = q :: l →
    ∃ t, exec (.marginCheck f .low) s = .next t ∧ ∃ c ∈ t.gs.copies, c.lch = f ∧ c.op = 1 ∧ c.pch = q) ∧
  (∀ (f q r : Nat) (l : List Nat) (s : State), s.roleUp 3 = true → s.autoRepair = true → s.pchOf f = some r → s.acting f = false →
    s.spareChs = q :: l →
    ∃ t, exec (.marginCheck f .unreadable) s = .next t ∧ mget t.gs.lmap f = some q ∧ t.acting f = false) ∧
  (∀ (f : Nat) (c : ChCopy) (s : State), s.gs.copies.find? (fun c => c.lch == f) = some c → c.op = 2 →
    ∃ t, exec (.marginCheck f .unreadable) s = .next t ∧ ∃ x ∈ t.gs.copies, x = { c with readable := false })

/-- When an action has copied its last line, a replaced channel's new physical channel serves it, a folded channel is folded, and an
unfolded one is served again; the channel that a REPLACE with no copy left OFFLINE is retrained and tested then. -/
def Obligations.ChannelsSwitch : Prop :=
  (∀ (f : Nat) (res : Option TgRes) (c : ChCopy) (s : State), s.gs.copies.find? (fun c => c.lch == f) = some c → s.roleUp 3 = true →
    c.op = 1 → c.readable = true →
    ∃ t, exec (.channelSwitch f res) s = .next t ∧ mget t.gs.lmap f = some c.pch ∧ t.acting f = false ∧
      (mgetD s.gs.lmap f f ≠ c.pch → (t.phys c.pch).state = .active ∧
        ((res = none ∨ ∃ r, res = some r ∧ r.errors ≠ 0) → (t.phys (mgetD s.gs.lmap f f)).state = .failed) ∧
        ((∃ r, res = some r ∧ r.errors = 0) → (t.phys (mgetD s.gs.lmap f f)).state = .spare)) ∧ State.raised s t 0xB04) ∧
  (∀ (f : Nat) (res : Option TgRes) (c : ChCopy) (s : State), s.gs.copies.find? (fun c => c.lch == f) = some c → s.roleUp 3 = true →
    c.op = 2 → c.readable = true → s.ch.ways = [] →
    ∃ t, exec (.channelSwitch f res) s = .next t ∧ t.foldedCh f = true ∧ t.acting f = false ∧
      (t.phys (mgetD s.gs.lmap f f)).state = .offline ∧ State.raised s t 0xB06) ∧
  (∀ (f : Nat) (res : Option TgRes) (c : ChCopy) (s : State), s.gs.copies.find? (fun c => c.lch == f) = some c → s.roleUp 3 = true →
    c.op = 3 → c.readable = true → s.ch.ways = [] →
    ∃ t, exec (.channelSwitch f res) s = .next t ∧ t.foldedCh f = false ∧ mget t.gs.lmap f = some c.pch ∧ t.acting f = false ∧
      State.raised s t 0xB04) ∧
  (∀ (f q : Nat) (r : TgRes) (s : State), s.acting f = false → s.roleUp 3 = true → mget s.gs.retests f = some q →
    (s.phys q).state = .offline →
    ∃ t, exec (.channelSwitch f (some r)) s = .next t ∧ mget t.gs.retests f = none ∧
      (t.phys q).state = if r.errors = 0 then .spare else .failed)

/-- A retention step raises a channel's refresh by one band until it ends. A sample of four sensors sets its group's band by the highest
of them, and one at 115 °C or above, like a trip, resets the block with THERMAL as the cause; the block starts again once all read below
100 °C. -/
def Obligations.TemperatureSetsBands : Prop :=
  (∀ (q : Nat) (s : State), (s.phys q).state ≠ .absent → (s.phys q).eff < 4 →
    ∃ t, exec (.retentionStep q) s = .next t ∧ t.phys q = { s.phys q with step := true } ∧ State.raised s t 0xB02) ∧
  (∀ (q : Nat) (s : State), (s.phys q).step = true →
    ∃ t, exec (.retentionStepEnd q) s = .next t ∧ t.phys q = { s.phys q with step := false }) ∧
  (∀ (a b c d p : Nat) (l : List Nat) (su : Startup) (s : State), s.awake = true → s.groupChs 0 = p :: l →
    a < 460 → b < 460 → c < 460 → d < 460 → 1 ≤ Member.groups s.fuses.member →
    ∃ t, exec (.thermalSample [a, b, c, d] su) s = .next t ∧ (t.phys p).band = nextBand (s.phys p).band (max (max (max a b) c) d) ∧
      (t.phys p).temp = max (max (max a b) c) d) ∧
  (∀ (temps : List Nat) (su : Startup) (s : State), s.awake = true → (temps.any fun x => decide (460 ≤ x)) = true →
    ∃ t, exec (.thermalSample temps su) s = .next t ∧ t.pw.tripped = true ∧ t.pw.lastReset = 2 ∧ t.pw.ready = false ∧ t.fe = {}) ∧
  (∀ s : State, s.awake = true →
    ∃ t, exec .thermalTrip s = .next t ∧ t.pw.tripped = true ∧ t.pw.lastReset = 2 ∧ t.pw.ready = false ∧ t.fe = {})

/-! ## Flash (chapter 12) -/

/-- Under AUTO_ATTACH a drive that passes its checks becomes READY with its queues, and one that fails one is REFUSED with the reason.
A command that waits takes a free slot, and a Read its landing blocks, and goes to its drive, a Write with its data; a successful
completion frees the slot, a window's Read lands its rows, and with a descriptor's last command the descriptor is done, or a Flush is queued
where the drive asks for one; a timeout sends an Abort; an Abort that times out resets the controller, whose commands
keep their slots until the reset ends; a drive that goes away is DOWN; a controller that has been reset is READY again, with its queues
created anew and every slot free. -/
def Obligations.DrivesAttachAndRunCommands : Prop :=
  (∀ (d : Nat) (i : DriveInfo) (s : State), s.autoAttach = true → s.mayAttach d i = true → s.attachCheck d i = none →
    ∃ t, exec (.autoAttach d i) s = .next t ∧ (t.drive d).state = .ready ∧ (t.drive d).queues = s.drvNq d ∧
      (i.nss = [] → State.raised s t 0xC01)) ∧
  (∀ (d r : Nat) (i : DriveInfo) (s : State), s.autoAttach = true → s.mayAttach d i = true → s.attachCheck d i = some r →
    ∃ t, exec (.autoAttach d i) s = .next t ∧ (t.drive d).state = .refused ∧ (t.drive d).reason = r ∧ State.raised s t 0xC02) ∧
  (∀ (d : Nat) (c : NvCmd) (s : State), s.fl.cmds.find? (fun c => c.drive == d && !c.issued) = some c → (s.drive d).state = .ready →
    s.slotFree d = true → s.landingFree c = true →
    ∃ t, exec (.nvmeSlotGrant d) s = .next t ∧ (t.drive d).used = (s.drive d).used + 1 ∧
      (c.kind ≠ 1 → t.out =
        .flash c.drive c.tag c.kind c.ns c.lba c.blocks ((s.drive c.drive).nextQ % max 1 (s.drive c.drive).queues + 1) (s.prpList c) :: s.out) ∧
      (c.kind = 1 → t.out = .blockWrite c.drive c.tag c.ns c.lba c.data ::
        .flash c.drive c.tag c.kind c.ns c.lba c.blocks ((s.drive c.drive).nextQ % max 1 (s.drive c.drive).queues + 1) (s.prpList c) :: s.out) ∧
      (t.drive c.drive).nextQ = ((s.drive c.drive).nextQ + 1) % max 1 (s.drive c.drive).queues) ∧
  (∀ (d tag w : Nat) (c : NvCmd) (data : Bytes) (s : State), s.nvCmd d tag = some c → (s.drive d).state = .ready → c.issued = true →
    c.aborting = false → c.own = .window w →
    ∃ t, exec (.nvmeCompletion d tag .success data) s = .next t ∧ t.nvCmd d tag = none ∧ (t.drive d).used = (s.drive d).used - 1 ∧
      ∀ (win : PWin) (i : Nat), s.pwin w = some win → i < c.blocks →
        (∃ e ∈ win.needsLanding, (s.landsOf e.1 e.2).1 = c.ns ∧ c.lba + i ∈ (s.landsOf e.1 e.2).2.map (·.1)) →
        ({ wid := w, ns := c.ns, lba := c.lba + i, data := slice data (i * 4096) 4096 } : Landed) ∈ t.fl.landed) ∧
  (∀ (d tag id : Nat) (c : NvCmd) (data : Bytes) (e : Desc) (s : State), s.nvCmd d tag = some c → (s.drive d).state = .ready →
    c.issued = true → c.aborting = false → c.own = .desc id → s.desc id = some e → e.stage = .filling → (∀ x ∈ s.fl.cmds, x.own = .desc id →
      x.tag = tag) →
    ∃ t, exec (.nvmeCompletion d tag .success data) s = .next t ∧ (t.drive d).used = (s.drive d).used - 1 ∧
      ((c.kind ≠ 1 ∨ s.volatile c.ns = false) → t.nvCmd d tag = none ∧ t.desc id = some { e with stage := .finished }) ∧
      (c.kind = 1 → s.volatile c.ns = true → t.desc id = some e ∧
        ∃ f ∈ t.fl.cmds, f.own = .desc id ∧ f.kind = 2 ∧ f.ns = c.ns ∧ f.issued = false)) ∧
  (∀ (d tag : Nat) (c : NvCmd) (s : State), s.nvCmd d tag = some c → c.issued = true → c.aborting = false →
    ∃ t, exec (.nvmeCmdTimeout d tag) s = .next t ∧ Output.flash d tag 3 c.ns c.lba c.blocks 0 [] ∈ t.out ∧
      (t.drive d).used = (s.drive d).used) ∧
  (∀ (d tag : Nat) (c : NvCmd) (s : State), s.nvCmd d tag = some c → c.aborting = true → (s.drive d).state = .ready →
    ∃ t, exec (.abortTimeout d tag) s = .next t ∧ (t.drive d).state = .resetting ∧ (t.drive d).used = (s.drive d).used ∧
      ∀ x ∈ t.fl.cmds, x.drive = d → x.issued = true → x.aborting = true) ∧
  (∀ (d : Nat) (s : State), (s.drive d).state = .ready →
    ∃ t, exec (.driveRemoval d) s = .next t ∧ (t.drive d).state = .down ∧ (∀ x ∈ t.fl.cmds, x.drive = d → x.issued = false) ∧
      ((∀ x ∈ s.fl.cmds, x.drive = d → ∀ id, x.own ≠ .desc id) → ∀ x ∈ t.fl.cmds, x.drive ≠ d) ∧ State.raised s t 0xC03) ∧
  (∀ (d : Nat) (s : State), (s.drive d).state = .resetting → s.roleUp 4 = true →
    ∃ t, exec (.controllerResetComplete d true) s = .next t ∧ (t.drive d).state = .ready ∧ (t.drive d).used = 0 ∧
      (∀ x ∈ t.fl.cmds, x.drive = d → x.aborting = false) ∧
      (∀ i, i < (s.drive d).queues → Output.admin d (.createSq (i + 1) (s.drive d).qsize) ∈ t.out) ∧ State.raised s t 0xC01)


/-! ## Placement (chapter 6) -/

/-- k is the largest power of two not above S over B, P over SPLIT_PAIRS and 128, and 1 where splitting is off or there is none; with k
of 1 the slice at position s takes bags from s × B / S on, in tiles of at most BPT bags, every bag in one tile; with a larger k every
bag is split over k positions, whose parts together hold the bag's pairs in order, each once. -/
def Obligations.GathersArePlaced : Prop :=
  (∀ (S B P : Nat) (s : State), bitb (s.cfg Reg.poolCtl) 0 = false → s.splitLog S B P = 0) ∧
  (∀ (S B P : Nat) (s : State), s.splitLog S B P ≠ 0 → 2 ^ s.splitLog S B P ≤ S / B ∧ 2 ^ s.splitLog S B P ≤ 128 ∧
    2 ^ s.splitLog S B P ≤ P / max 1 (bitf (s.cfg Reg.poolCtl) 32 16)) ∧
  (∀ (S B P j : Nat) (s : State), bitb (s.cfg Reg.poolCtl) 0 = true → 0 < B → 2 ^ j ≤ S / B →
    2 ^ j ≤ P / max 1 (bitf (s.cfg Reg.poolCtl) 32 16) → 2 ^ j ≤ 128 → j ≤ s.splitLog S B P) ∧
  (∀ (p : Pooled) (d : Desc) (S b : Nat), (d.opc = 1 → d.tile = 0) → p.log2k = 0 → p.rot = 0 → 0 < S → 0 < bptOf (p.mem.dim d) →
    b < d.bags → ((p.tiles d S).filter fun x => decide (x.lo ≤ b ∧ b < x.hi)).length = 1) ∧
  (∀ (p : Pooled) (d : Desc) (S : Nat), (d.opc = 1 → d.tile = 0) → p.log2k = 0 → p.rot = 0 → 0 < S →
    ∀ x ∈ p.tiles d S, x.pos < S ∧ x.pos * d.bags / S ≤ x.lo ∧ x.hi ≤ (x.pos + 1) * d.bags / S ∧ x.hi ≤ x.lo + bptOf (p.mem.dim d)) ∧
  (∀ (p : Pooled) (d : Desc) (S : Nat), (d.opc = 1 → d.tile = 0) → p.log2k ≠ 0 → p.rot = 0 → d.bags * 2 ^ p.log2k ≤ S →
    ∀ x ∈ p.tiles d S, x.pos = x.lo * 2 ^ p.log2k + x.part ∧ x.hi = x.lo + 1 ∧ x.lo < d.bags ∧ x.part < 2 ^ p.log2k ∧ x.k = 2 ^ p.log2k) ∧
  (∀ (b k : Nat) (ps : List Pair), 1 < k →
    ((List.range k).flatMap fun j => TileRef.pairs { pos := 0, tile := 0, lo := b, hi := b + 1, part := j, k := k } ps) =
      TileRef.pairs { pos := 0, tile := 0, lo := b, hi := b + 1 } ps)

/-! ## Service life, events (chapters 15 and 16) -/

/-- A dirty row's failed master record is taken from its twin and counted, and where it is the row's only copy its slot then holds the
twin's bytes; a read copy is written again from another copy; a clean row is taken from its backing, and one whose table has none is
poisoned: all this while the banks have spare rows for the array rows that are repaired. A failed slice is replaced by the next spare, or its
position is lost; a failed queue engine hands over to the standby, which
starts with no segments and takes every held eyelet line again, and descriptors past the front end are not affected. A contribution batch
with a bad message is discarded; the poison list is queried and cleared; the oldest event goes to the event ring. -/
def Obligations.FailuresAreRecovered : Prop :=
  (∀ (tbl ver row : Nat) (src : RowSrc) (b : Table) (v : Version) (x : Twin) (s : State), s.version tbl ver = some (b, v) →
    s.rowPoisoned tbl ver row = false → s.inStore (keyOf tbl row) ver = true → s.twinOf (keyOf tbl row) ver = some x →
    (∀ q, mgetD s.gs.rowUsed q 0 < 15) →
    ∃ t, exec (.rowRecovery tbl ver row true false src) s = .next t ∧ t.rl = s.rl ∧ t.up = s.up ∧ t.tb = s.tb ∧
      t.tel.countOf Ctr.recCopy = (s.tel.countOf Ctr.recCopy).plus 1 ∧
      ∀ w : Way, s.placed (keyTbl (keyOf tbl row)) ver (keyRow (keyOf tbl row)) = none → b.upd = true →
        s.copiesOf (keyOf tbl row) ver = [w] → w.kind = .master → x.data.length = b.srcBytes → Memory.wf s.gs.mem = true →
        t.readSlot w b.srcBytes = x.data) ∧
  (∀ (tbl ver row : Nat) (twinBad : Bool) (src : RowSrc) (b : Table) (v : Version) (s : State), s.version tbl ver = some (b, v) →
    s.rowPoisoned tbl ver row = false → s.inStore (keyOf tbl row) ver = true → (∀ q, mgetD s.gs.rowUsed q 0 < 15) →
    ∃ t, exec (.rowRecovery tbl ver row false twinBad src) s = .next t ∧ t.rl = s.rl ∧ t.up = s.up ∧ t.tb = s.tb ∧
      t.tel.countOf Ctr.recCopy = (s.tel.countOf Ctr.recCopy).plus 1) ∧
  (∀ (tbl ver row : Nat) (twinBad : Bool) (src : RowSrc) (b : Table) (v : Version) (s : State), s.version tbl ver = some (b, v) →
    s.rowPoisoned tbl ver row = false → s.inStore (keyOf tbl row) ver = true → s.twinOf (keyOf tbl row) ver = none →
    s.isDirty (keyOf tbl row) ver = false → b.backTier ≠ 0 → (s.readBacking b v (keyOf tbl row) src false).2.status = St.ok →
    (∀ q, mgetD s.gs.rowUsed q 0 < 15) →
    ∃ t, exec (.rowRecovery tbl ver row true twinBad src) s = .next t ∧ t.rl = s.rl ∧
      t.tel.countOf Ctr.recBacking = (s.tel.countOf Ctr.recBacking).plus 1) ∧
  (∀ (tbl ver row : Nat) (src : RowSrc) (b : Table) (v : Version) (s : State), s.version tbl ver = some (b, v) →
    keyTbl (keyOf tbl row) = tbl → keyRow (keyOf tbl row) = row → s.rowPoisoned tbl ver row = false →
    s.inStore (keyOf tbl row) ver = true → s.twinOf (keyOf tbl row) ver = none → s.isDirty (keyOf tbl row) ver = false →
    b.backTier = 0 → s.rl.poison.length < poisonCap → (∀ q, mgetD s.gs.rowUsed q 0 < 15) →
    ∃ t, exec (.rowRecovery tbl ver row true false src) s = .next t ∧ t.rowPoisoned tbl ver row = true ∧ State.raised s t 0x1001) ∧
  (∀ (pos : Nat) (s : State), s.rl.retiring.contains pos = true → s.rl.lostPos.contains pos = false →
    Member.slices s.fuses.member + s.rl.sliceUsed < Member.phys s.fuses.member →
    ∃ t, exec (.sliceSpared pos) s = .next t ∧ mget t.rl.sliceMap pos = some (Member.slices s.fuses.member + s.rl.sliceUsed) ∧
      t.rl.sliceUsed = s.rl.sliceUsed + 1 ∧ t.rl.lostPos = s.rl.lostPos ∧ State.raised s t 0x1002) ∧
  (∀ (pos : Nat) (s : State), s.rl.retiring.contains pos = true → s.rl.lostPos.contains pos = false →
    Member.phys s.fuses.member ≤ Member.slices s.fuses.member + s.rl.sliceUsed → s.blocksOn pos = [] →
    ∃ t, exec (.sliceSpared pos) s = .next t ∧ t.rl.lostPos = s.rl.lostPos ++ [pos] ∧ t.rl.sliceMap = s.rl.sliceMap ∧
      State.raised s t 0x1004) ∧
  (∀ (us : Nat) (lost : List Nat) (passes : Bool) (su : Startup) (s : State), s.awake = true → s.pw.ready = true → s.rl.standby = true →
    ∃ t, exec (.qxHandover us ⟨passes, lost⟩ su) s = .next t ∧ t.rl.engine = !s.rl.engine ∧ t.rl.standby = passes ∧
      (lost = [] → (∀ d ∈ s.fe.descs, d.stage ≠ .parked ∧ d.stage ≠ .headWait) →
        t.fe.descs = s.fe.descs ∧ t.fe.rings = s.fe.rings ∧ (∀ e ∈ t.fe.lines, e.2.valid = false) ∧
        t.fe.lines.map (·.1) = s.fe.lines.map (·.1) ∧ t.xl.segs = [] ∧ (∀ e ∈ t.xl.xc, e.pins ≠ [] ∧ e.stale = true) ∧ State.raised s t 0x1003)) ∧
  (∀ (port : Nat) (m : ContribMsg) (s : State), s.fabUp port = true → (s.up.inb.any fun b => b.is m.sender m.batch && b.bad) = false →
    s.exchanging = false → ∃ t, exec (.inboundFabricError port (.contrib m)) s = .next t ∧
      ∃ b ∈ t.up.inb, b.sender = m.sender ∧ b.batch = m.batch ∧ b.bad = true ∧ b.msgs = []) ∧
  (∀ (port : Nat) (b : BadMsg) (s : State), b = .request ∨ b = .response → s.exchanging = false →
    ∃ t, exec (.inboundFabricError port b) s = .next t ∧ t.up = s.up ∧ t.fe = s.fe) ∧
  (∀ (p : Path) (val : Word64) (s : State), s.starts p Reg.poisonCmd 31 1 false none = true →
    ∃ t, exec (.query p val) s = .next t ∧ t.doneAt p Reg.poisonCmd 0 ∧ bitb (regGet t p Reg.poisonCmd) 40 =
      (s.rowPoisoned (keyTbl (s.own p Reg.poisonKey)) (bitf val 0 16) (keyRow (s.own p Reg.poisonKey)) ||
        s.verPoisoned (keyTbl (s.own p Reg.poisonKey)) (bitf val 0 16))) ∧
  (∀ (p : Path) (val : Word64) (b : Table) (s : State), s.starts p Reg.poisonCmd 31 1 true none = true →
    s.table (keyTbl (s.own p Reg.poisonKey)) = some b → b.backTier ≠ 0 →
    s.rowPoisoned (keyTbl (s.own p Reg.poisonKey)) (bitf val 0 16) (keyRow (s.own p Reg.poisonKey)) = true →
    ∃ t, exec (.poisonClear p val) s = .next t ∧ t.doneAt p Reg.poisonCmd 0 ∧
      t.rowPoisoned (keyTbl (s.own p Reg.poisonKey)) (bitf val 0 16) (keyRow (s.own p Reg.poisonKey)) = false) ∧
  (∀ (e : Event) (l : List Event) (s : State), s.tel.evq = e :: l → s.evtOpen = true →
    ∃ t, exec .eventWrite s = .next t ∧ t.tel.evq = l ∧ (t.ring s.evtRing).idx = (s.ring s.evtRing).idx + 1 ∧
      t.carried ((s.ring s.evtRing).typ == .nearCpl) (s.recOut s.evtRing
        ((s.ring s.evtRing).idx.toNat % Ring.size (s.ring s.evtRing)) false
        (eventBytes e (phaseAt (s.ring s.evtRing).idx.toNat (Ring.size (s.ring s.evtRing))))))

/-- When a counter sets HALF it writes a COUNTER_HALF event, and when it sets SAT a COUNTER_SAT event; a counter whose bit is set already
writes none again, and the bit stays set. -/
def Obligations.CountersTellOnce : Prop :=
  ∀ (off n : Nat) (s : State), n ≠ 0 →
    ((s.tel.countOf off).half = false → 2 ^ 47 ≤ (s.tel.countOf off).count + n →
      ((s.tell [.count off n]).tel.countOf off).half = true ∧ State.raised s (s.tell [.count off n]) 0xD01) ∧
    ((s.tel.countOf off).sat = false → 2 ^ 48 - 1 < (s.tel.countOf off).count + n →
      ((s.tell [.count off n]).tel.countOf off).sat = true ∧ State.raised s (s.tell [.count off n]) 0xD02) ∧
    ((s.tel.countOf off).half = true ∨ (s.tel.countOf off).count + n < 2 ^ 47 →
      (s.tel.countOf off).sat = true ∨ (s.tel.countOf off).count + n ≤ 2 ^ 48 - 1 →
      (s.tell [.count off n]).tel.evq = s.tel.evq ∧
      ((s.tell [.count off n]).tel.countOf off).count = min ((s.tel.countOf off).count + n) (2 ^ 48 - 1)) ∧
    ((s.tel.countOf off).half = true → ((s.tell [.count off n]).tel.countOf off).half = true) ∧
    ((s.tel.countOf off).sat = true → ((s.tell [.count off n]).tel.countOf off).sat = true)

/-! ## Registers (chapter 17) -/

/-- A write that is made puts the RW fields it covers into a plain register, into a command register whose GO it does not set,
into CRH_SORT_AREA while it fits, into CRH_EYELET_BASE and into the authority block, where CRH_AUTH_POLICY goes to flash as well;
a read of a counter's lower half latches the upper half for the path's next read of it. -/
def Obligations.RegistersTakeWrites : Prop :=
  (∀ (p : Path) (off size : Nat) (val : Word64) (r : RegRow) (s : State), regAt (off / 8 * 8) = some r → r.kind ≠ .stat →
    cmdFormAt (off / 8 * 8) = none →
    off / 8 * 8 ∉ [Reg.ctxCfg, Reg.partCfg, Reg.optSel, Reg.eyeletBase, Reg.authPolicy, Reg.makerCtl, Reg.resetCmd, Reg.sortArea,
      Reg.poolCtl, Reg.logIdx] →
    s.hits p (off / 8 * 8) 1 off size →
    ∃ t, exec (.registerWrite p off size val) s = .next t ∧ regGet t p (off / 8 * 8) = s.taken p (off / 8 * 8) off size val) ∧
  (∀ (p : Path) (off size : Nat) (val : Word64) (f : CmdForm) (s : State), cmdFormAt (off / 8 * 8) = some f →
    bitb (regGet s p f.off) f.go = false → (covers off size f.go && carried off size val f.go) = false →
    s.hits p (off / 8 * 8) 1 off size →
    ∃ t, exec (.registerWrite p off size val) s = .next t ∧ regGet t p (off / 8 * 8) = s.taken p (off / 8 * 8) off size val) ∧
  (∀ (p : Path) (off size : Nat) (val : Word64) (s : State), s.hits p Reg.logIdx 1 off size →
    ∃ t, exec (.registerWrite p off size val) s = .next t ∧
      t.tel.logCons = BitVec.ofNat 32 ((s.taken p Reg.logIdx off size val).toNat / 2 ^ 32)) ∧
  (∀ (p : Path) (off size : Nat) (val : Word64) (s : State), s.hits p Reg.sortArea 1 off size →
    ∃ t, exec (.registerWrite p off size val) s = .next t ∧ regGet t p Reg.sortArea =
      (if s.anyTable || bitf (s.taken p Reg.sortArea off size val) 0 12 < 2 ||
          bitf (s.cfg Reg.partCfg) 16 12 < 2 * bitf (s.taken p Reg.sortArea off size val) 0 12
        then s.cfg Reg.sortArea else s.taken p Reg.sortArea off size val)) ∧
  (∀ (p : Path) (off size : Nat) (val : Word64) (s : State), s.hits p Reg.eyeletBase 1 off size →
    ∃ t, exec (.eyeletBaseWrite p off size val) s = .next t ∧ regGet t p Reg.eyeletBase = s.taken p Reg.eyeletBase off size val) ∧
  (∀ (p : Path) (off size : Nat) (val : Word64) (s : State), s.roleUp 0 = true → s.hits p Reg.authPolicy 2 off size → s.auditFull = false →
    ∃ t, exec (.authorityWrite p off size val) s = .next t ∧ t.st.policy = s.taken p Reg.authPolicy off size val ∧
      t.st.flashPol = s.taken p Reg.authPolicy off size val) ∧
  (∀ (p : Path) (off size : Nat) (val : Word64) (s : State), s.roleUp 0 = true → s.hits p Reg.makerCtl 3 off size → s.auditFull = false →
    ∃ t, exec (.authorityWrite p off size val) s = .next t ∧ t.st.makerCtl = s.taken p Reg.makerCtl off size val) ∧
  (∀ (p : Path) (off : Nat) (s : State), s.mayRead p = true → Ctr.isCounter off = true → off % 8 = 0 →
    ∃ t, exec (.counterLowRead p off) s = .next t ∧
      t.out = .regValue off (((s.readReg p off).setWidth 32).setWidth 64) :: s.out ∧
      t.tel.latched p off = some (BitVec.ofNat 32 ((s.readReg p off).toNat / 2 ^ 32))) ∧
  (∀ (p : Path) (off : Nat) (v : BitVec 32) (s : State), s.mayRead p = true → off % 8 = 0 → s.tel.latched p off = some v →
    ∃ t, exec (.counterLowRead p (off + 4)) s = .next t ∧ t.out = .regValue (off + 4) (v.setWidth 64) :: s.out ∧
      t.tel.latched p off = none)

/-- Between enumeration and READY writes reach the mailbox and the authority block alone: every other register write, on a host
function or on an open debug path, and every register command outside those blocks, is ignored and counted in REG_IGNORED; reads
are answered from enumeration on. -/
def Obligations.WritesBeforeReadyAreIgnored : Prop :=
  (∀ (p : Path) (off size : Nat) (val : Word64) (s : State), s.mayRead p = true → s.pw.ready = false →
    off / 0x10000 ≠ 0xE → off / 0x10000 ≠ 0xF →
    (off / 8 * 8 = Reg.resetCmd → (covers off size 0 && carried off size val 0) = false) →
    exec (.registerWrite p off size val) s = .next (s.count Ctr.regIgnored)) ∧
  (∀ (p : Path) (k off size : Nat) (entry : Bytes) (val : Word64) (img : Feed) (su : Startup) (c : Instr) (s : State),
    s.mayRead p = true → s.pw.ready = false →
    c ∈ [.enable p k entry, .disable p k, .pause p k, .resume p k entry, .reset p k, .dumpAll ⟨p, k⟩, .dumpOne p k, .inval p val,
      .invalDrain p val, .define p img, .delete p, .bands p img, .imapRel p val, .tileRel p val, .load p img, .swap p, .commit p val,
      .replace p k true, .fold p k true [], .unfold p k, .retrain p k none, .test p k 0 0 0 0, .retire p k, .counterClear p val,
      .subtract p val, .query p val, .poisonClear p val, .blockResetCmd p su, .ctxCfgWrite p (Reg.ctxCfg + off % 8) size val,
      .partCfgWrite p (Reg.partCfg + off % 8) size val, .eyeletBaseWrite p (Reg.eyeletBase + off % 8) size val] →
    exec c s = .next (s.count Ctr.regIgnored)) ∧
  (∀ (p : Path) (off : Nat) (s : State), p = .fn0 ∨ p = .fn1 → s.fnUp p = true → off / 0x10000 = 0xE ∨ off / 0x10000 = 0xF →
    s.gate p off 1 = .open') ∧
  (∀ (p : Path) (off : Nat) (s : State), s.mayRead p = true →
    ∃ t v, exec (.counterLowRead p off) s = .next t ∧ t.out = .regValue off v :: s.out)

/-- At reset no ring runs, no table is defined and no port is up, Ground store's bytes are in canonical form, and the registers read the
values of their Reset columns. -/
def Obligations.ResetHoldsTheSpecsValues : Prop :=
  Memory.wf State.reset.gs.mem = true ∧ State.reset.pending = [] ∧ State.reset.pw.ready = false ∧ State.reset.tb.tables = [] ∧
  (∀ k, (State.reset.ring k).state = .disabled) ∧ (∀ p, State.reset.cxlUp p = false) ∧ (∀ p, State.reset.fabUp p = false) ∧
  State.reset.readReg .fn0 Reg.bootStat = 0x1 ∧ State.reset.readReg .fn0 Reg.pwrCtl = 0x80064 ∧
  State.reset.readReg .fn0 Reg.pwrStat = 0xFFFF00 ∧ State.reset.readReg .fn0 Reg.clkStat = 0xFFFF00 ∧
  State.reset.readReg .fn0 Reg.hostArb = 0x22468 ∧ State.reset.readReg .fn0 Reg.xlateCtl = 0x3003E8 ∧
  State.reset.readReg .fn0 Reg.regradeCtl = 0x41001 ∧ State.reset.readReg .fn0 Reg.gsCtl = 0x183204002020 ∧
  State.reset.readReg .fn0 Reg.cacheCtl = 0x640021 ∧ State.reset.readReg .fn0 Reg.skewCtl = 0x410324B960A01 ∧
  State.reset.readReg .fn0 Reg.poolCtl = 0x10000003C01 ∧ State.reset.readReg .fn0 Reg.flCtl = 0x1810032 ∧
  State.reset.readReg .fn0 Reg.logBase = 0x18 ∧ State.reset.readReg .fn0 Reg.logCtl = 0x11 ∧
  State.reset.readReg .fn0 Reg.authPolicy = 0x98 ∧ State.reset.readReg .fn0 Reg.stetaStat = 0xE00000

/-! ## Clocks and power (chapter 14) -/

/-- A failed PLL's domain moves to the first spare; the reference's stop and return, and PLL_AON's, are recorded; the handshake enters
the states it is asked for up to MAX_PSTATE and acknowledges them, a reserved one with no change; OFF is reached once no fabric port has an
outstanding response, and STANDBY with the last descriptor; PMH_EMERG is followed; slice groups are un-gated one grant at a time, with the
last of a start-up's grants the block is READY, and a quiet group is gated. -/
def Obligations.ClocksAndPowerStates : Prop :=
  (∀ (d : Nat) (su : Startup) (s : State), s.awake = true → s.hasPll d = true → s.pw.sp0 = none →
    ∃ t, exec (.pllFault d su) s = .next t ∧ t.pw.sp0 = some d ∧ State.raised s t 0xE02) ∧
  (∀ (stopped : Bool) (s : State), s.awake = true → s.pw.refGone = false →
    ∃ t, exec (.referenceFault stopped) s = .next t ∧ t.pw.refOk = false ∧ t.pw.refDrift = true ∧ t.pw.refGone = stopped ∧
      t.pw.aonOsc = (s.pw.aonOsc || stopped)) ∧
  (∀ (us : Nat) (s : State), s.awake = true → s.pw.refGone = true → s.pw.step ≠ 3 → us ≤ 1000 →
    ∃ t, exec (.referenceReturn us) s = .next t ∧ t.pw.refOk = true ∧ t.pw.refGone = false ∧ t.pw.aonOsc = s.pw.aonBad ∧
      State.raised s t 0xE01) ∧
  (∀ (us : Nat) (su : Startup) (s : State), s.awake = true → s.pw.refGone = false → s.pw.aonBad = false →
    ∃ t, exec (.pllAonFault true us su) s = .next t ∧ t.pw = s.pw ∧ (∀ k c, mget s.gs.scheds k = some c →
      mget t.gs.scheds k = some { c with ival := c.ival * 7 / 8 }) ∧ State.raised s t 0xE01) ∧
  (∀ (c : Instr) (target : Nat) (su : Startup) (s : State), s.awake = true → s.pw.ready = true → s.exchanging = false →
    s.pw.emerg = false → s.pw.held = [] → target ≤ s.maxPstate →
    (c = .pmhRaise target su ∧ 2 ≤ s.pw.pstate.num ∧ s.pw.pstate.num < target) ∨
      (c = .pmhLower target ∧ 2 ≤ target ∧ target < s.pw.pstate.num) ∨
      (c = .pmhEnterStandby ∧ target = 1 ∧ 2 ≤ s.pw.pstate.num ∧ s.inFlight = false) ∨
      (c = .pmhLeaveStandby target ∧ 2 ≤ target ∧ s.pw.pstate.num = 1) →
    ∃ t, exec c s = .next t ∧ t.pw.pstate = pstateOf target ∧ t.out = .pmhAck target :: s.out ∧ State.raised s t 0xE04) ∧
  (∀ (target : Nat) (s : State), s.awake = true → s.pw.ready = true → s.exchanging = false → s.pw.held = [] → 5 ≤ target → target ≤ 7 →
    ∃ t, exec (.reservedStateRequest target) s = .next t ∧ t.pw = s.pw ∧ t.out = .pmhAck s.pw.pstate.num :: s.out) ∧
  (∀ (fails : WbFails) (s : State), s.awake = true → s.pw.ready = true → s.exchanging = false →
    (∀ n, n < Member.fabPorts s.fuses.member → (s.fabPort n).status ≠ .draining ∧ s.fabBusy n = false) →
    ∃ t, exec (.pmhOff fails) s = .next t ∧ t.pw.byOff = true ∧ t.pw.ready = false ∧ Output.pmhAck 0 ∈ t.out ∧ t.fe = {}) ∧
  (∀ (n : Nat) (fails : WbFails) (s : State), s.awake = true → s.pw.ready = true → s.exchanging = false →
    n < Member.fabPorts s.fuses.member → s.fabUp n = true → s.fabBusy n = true →
    ∃ t, exec (.pmhOff fails) s = .next t ∧ t.pw.off = some fails ∧ t.pw.byOff = false ∧ (t.fabPort n).status = .draining) ∧
  (∀ (id : Nat) (s : State), s.pw.closing = true → s.pw.off = none → s.pw.held = [] → (s.recordWrite id).inFlight = false →
    ∃ t, exec (.completionRecordWrite id) s = .next t ∧ t.pw.pstate = .standby ∧ t.pw.closing = false ∧ Output.pmhAck 1 ∈ t.out) ∧
  (∀ s : State, s.pw.ready = true → s.pw.emerg = false →
    ∃ t, exec .pmhEmergAssert s = .next t ∧ t.pw.emerg = true ∧ State.raised s t 0xE03) ∧
  (∀ s : State, s.pw.ready = true → s.pw.emerg = true → s.pw.held = [] →
    ∃ t, exec .pmhEmergRelease s = .next t ∧ t.pw = { s.pw with emerg := false } ∧ State.raised s t 0xE03) ∧
  (∀ (g : Nat) (l : List Nat) (s : State), s.pw.stepReq = true → s.pw.gated = g :: l → (l ≠ [] ∨ s.pw.waits = none) →
    ∃ t, exec .pmhStepGnt s = .next t ∧ t.pw.gated = l ∧ t.pw.stepReq = !l.isEmpty) ∧
  (∀ (g : Nat) (q : Startup × Bool) (s : State), s.pw.stepReq = true → s.pw.gated = [g] → s.pw.waits = some q → s.pw.held = [] →
    ∃ t, exec .pmhStepGnt s = .next t ∧ t.pw.ready = true ∧ t.pw.step = 9 ∧ t.pw.pstate = .p0 ∧ t.pw.gated = []) ∧
  (∀ (g : Nat) (s : State), s.passing = true → bitf (s.cfg Reg.pwrCtl) 0 16 ≠ 0 → s.groupWork g = false →
    g < Member.groups s.fuses.member → g ∉ s.pw.gated →
    ∃ t, exec (.sliceGroupGate g) s = .next t ∧ g ∈ t.pw.gated ∧ ∀ x ∈ s.pw.gated, x ∈ t.pw.gated)

/-- Power-good with a verified image, trained Ground store and ports, and the grants of its slice groups, brings the block to READY in
ACTIVE_P0; it waits for the grants in step 8 and for PLL_AON in step 2; a block reset clears what Table 102 does not keep, with its cause; the JTAG
port is reset alone; when power goes, nothing volatile stays. -/
def Obligations.ResetsAndStartUp : Prop :=
  (∀ (su : Startup) (s : State), s.pw.rails = false → s.fuses.absent = false → su.aonLock = true → s.pw.refGone = false →
    su.cores = true → su.gsOk = true → su.portsOk = true → su.grants = true →
    (if (romRecord (s.st.governing su.bcrBad)).2.1 then s.fuses.accepts s.st.imgB su.sigB else s.fuses.accepts s.st.imgA su.sigA) = true →
    ∃ t, exec (.powerGood su) s = .next t ∧ t.pw.ready = true ∧ t.pw.step = 9 ∧ t.pw.pstate = .p0 ∧ t.pw.lastReset = 0 ∧
      t.st.slotB = (romRecord (s.st.governing su.bcrBad)).2.1 ∧ t.tel.ts = 0 ∧ t.fe = {}) ∧
  (∀ (su : Startup) (s : State), s.pw.rails = false → s.fuses.absent = false → su.aonLock = true → s.pw.refGone = false →
    su.cores = true → su.gsOk = true → su.portsOk = true → su.grants = false → Member.gated0 s.fuses.member ≠ [] →
    (if (romRecord (s.st.governing su.bcrBad)).2.1 then s.fuses.accepts s.st.imgB su.sigB else s.fuses.accepts s.st.imgA su.sigA) = true →
    ∃ t, exec (.powerGood su) s = .next t ∧ t.pw.ready = false ∧ t.pw.step = 8 ∧ t.pw.stepReq = true ∧ Output.stepReq ∈ t.out) ∧
  (∀ (su : Startup) (s : State), s.pw.rails = false → s.fuses.absent = false → su.aonLock = false →
    ∃ t, exec (.powerGood su) s = .next t ∧ t.pw.ready = false ∧ t.pw.step = 2 ∧ t.pw.selvedge = true) ∧
  (∀ (su : Startup) (s : State), s.pw.rails = false → s.fuses.absent = false → su.aonLock = true → s.pw.refGone = false →
    s.fuses.accepts s.st.imgA su.sigA = false →
    s.fuses.accepts s.st.imgB su.sigB = false → s.fuses.accepts s.st.imgR su.sigR = false →
    ∃ t, exec (.powerGood su) s = .next t ∧ t.pw.ready = false ∧ t.pw.step = 3 ∧ t.pw.fail = 1) ∧
  (∀ (p : Path) (su : Startup) (s : State), s.gate p Reg.resetCmd 2 = .open' → s.auditFull = false →
    ∃ t, exec (.blockResetCmd p su) s = .next t ∧ t.pw.lastReset = 1 ∧ t.fe = {} ∧ t.tb = {} ∧ t.regs = [] ∧ t.st.sessions = [] ∧
      t.fuses = s.fuses) ∧
  (∀ (su : Startup) (s : State), s.awake = true → s.pw.refGone = true →
    ∃ t, exec (.refLossTimeout su) s = .next t ∧ t.pw.lastReset = 3 ∧ t.fe = {} ∧ t.tb = {} ∧ t.pw.ready = false ∧
      (s.pw.aonBad = false → t.pw.step = 3)) ∧
  (∀ (us : Nat) (su : Startup) (s : State), s.awake = true → s.pw.refGone = false → s.pw.aonBad = false →
    ∃ t, exec (.pllAonFault false us su) s = .next t ∧ t.pw.lastReset = 4 ∧ t.pw.step = 2 ∧ t.pw.ready = false ∧ t.fe = {}) ∧
  (∀ s : State, ∃ t, exec .tapReset s = .next t ∧ t = { s with pw := { s.pw with tap := s.pw.tap.reset } }) ∧
  (∀ s : State, ∃ t, exec .powerLoss s = .next t ∧ t.pw.rails = false ∧ t.pw.ready = false ∧ t.fe = {} ∧ t.tb = {} ∧ t.regs = [] ∧
    t.st.flashPol = s.st.flashPol ∧ t.tel.plog = s.tel.plog ∧ t.gs.lmap = s.gs.lmap)

/-! ## Steta (chapter 15) -/

/-- A core that stops answering, breaks its MPU's bounds or faults twice restarts, with a crash record and a CORE_RESTARTED event; voltages
are sampled; the persistent log is programmed; an activated image that is healthy after its watch stays, any other is reverted; what an
emergency held starts when the emergency is over; sessions time out and lockouts end. -/
def Obligations.CoresAreWatched : Prop :=
  (∀ (k : Nat) (pc : Word64) (a : MpuAccess) (restarted : Bool) (su : Startup) (c : Instr × Nat) (s : State), s.coreRuns k = true →
    mpuLets k (s.roleOf k) a = false → (k ≠ 0 → s.recentRestarts k < 2) → (k = 0 → restarted = true) →
    c ∈ [(.coreWatchdogExpiry k pc restarted su, Cause.watchdog), (.mpuFault k ⟨pc, a⟩ restarted su, Cause.mpu),
      (.doubleFault k pc restarted su, Cause.double)] →
    ∃ t, exec c.1 s = .next t ∧ t.coreState k = .run ∧ t.st.crashes = (k, pc, c.2) :: s.st.crashes ∧ State.raised s t 0xF01) ∧
  (∀ (mv : List Nat) (s : State), s.awake = true → s.roleUp 1 = true →
    ∃ t, exec (.voltageSample mv) s = .next t ∧ t.st.volts = mv.take 16 ∧
      ((∀ i, i < min 16 mv.length → railOk s.pw.pstate.coreMv i ((mv[i]?).getD 0) = true) → t.st.lowRail = [])) ∧
  (∀ s : State, s.awake = true → s.roleUp 5 = true →
    ∃ t, exec .plogProgram s = .next t ∧ t.tel.plogWait = [] ∧ t.tel.plog = keepPages (s.tel.plogWait.reverse ++ s.tel.plog)) ∧
  (∀ s : State, s.awake = true → s.st.watch = true →
    ∃ t, exec (.activationHealthWatch true) s = .next t ∧ t.st.watch = false ∧ t.st.slotB = s.st.slotB ∧ State.raised s t 0xF06) ∧
  (∀ (b : Bcr) (s : State), s.awake = true → s.st.watch = true → s.st.bcr = some b →
    ∃ t, exec (.activationHealthWatch false) s = .next t ∧ t.st.watch = false ∧ t.st.trial = false ∧ t.st.slotB = b.prev) ∧
  (∀ (d : Deferred) (s : State), s.awake = true → s.st.deferred = some d → s.emergency = false → s.auditFull = false →
    d.kind = 1 →
    ∃ t, exec (.activationDeferEnd true) s = .next t ∧ t.st.trial = false ∧ t.st.deferred = none ∧
      t.fuses.svn = max s.fuses.svn (min (s.st.slot s.st.slotB).svn 64)) ∧
  (∀ (d : Deferred) (sigOk : Bool) (s : State), s.awake = true → s.st.deferred = some d → s.emergency = true →
    ∃ t, exec (.activationDeferEnd sigOk) s = .next t ∧ t.st.deferred = none ∧ t.fuses = s.fuses ∧ State.raised s t 0xF05) ∧
  (∀ (p : Path) (s : State), ∃ t, exec (.sessionTimeout p) s = .next t ∧ pget t.st.sessions p = none) ∧
  (∀ (p : Path) (s : State), ∃ t, exec (.lockoutEnd p) s = .next t ∧ t.st.lockout = s.st.lockout.erase p)

/-- A reading mailbox command ends with DONE and what it reads; CORE_RESTART restarts the core; a challenge gives a fresh nonce, a good
response opens the session, a bad one does not, and AUTH_END closes it. -/
def Obligations.MailboxReadsAndSessions : Prop :=
  (∀ (p : Path) (req : Feed) (s : State), s.mails p { opc := 0x01, least := 1, core := 1, inRec := true, audited := false } req = true →
    ∃ t, exec (.getHealth p req) s = .next t ∧ t.replied p 0 (.health ((List.range 7).map s.coreState) s.st.spareRole s.pw.step
      s.sliceSpares s.spareChs.length (2 - s.pllsUsed) s.emergency)) ∧
  (∀ (p : Path) (req : Feed) (s : State), s.mails p { opc := 0x02, least := 1, core := 1, inRec := true, audited := false } req = true →
    ∃ t, exec (.readSensors p req) s = .next t ∧ t.replied p 0 (.sensors s.st.temps s.st.volts s.pw.refOk
      (s.pw.sp0.toList ++ s.pw.sp1.toList) ((List.range (Member.phys s.fuses.member)).filter fun q => (s.phys q).step))) ∧
  (∀ (p : Path) (req : Feed) (r : MbxRow) (s u : State), r = { opc := 0x03, least := 1, core := 5, inRec := true, audited := false } →
    s.mails p r req = true → s.heard p r req = u →
    ∃ t, exec (.logPos p req) s = .next t ∧
      t.replied p 0 (.logPos u.tel.logProd u.tel.logCons (u.counter Ctr.logDropped) u.tel.newestPage)) ∧
  (∀ (p : Path) (req : Feed) (page : Nat) (r : MbxRow) (s u : State),
    r = { opc := 0x04, least := 1, core := 5, inRec := true, audited := false } → s.mails p r req = true → s.heard p r req = u →
    ∃ t, exec (.plogRead p req page) s = .next t ∧ t.replied p 0 (.pages ((u.tel.plog.reverse.drop (64 * page)).take 64))) ∧
  (∀ (p : Path) (req : Feed) (aseq : Nat) (r : MbxRow) (s u : State),
    r = { opc := 0x05, least := 1, core := 0, inRec := true, audited := false } → s.mails p r req = true → s.heard p r req = u →
    ∃ t, exec (.auditRead p req aseq) s = .next t ∧
      t.replied p 0 (.audits ((u.st.audit.reverse.filter fun a => decide (aseq ≤ a.aseq)).take 32))) ∧
  (∀ (p : Path) (req : Feed) (a : Audit) (l : List Audit) (r : MbxRow) (s u : State),
    r = { opc := 0x06, least := 1, core := 0, inRec := true, audited := false } → s.mails p r req = true → s.heard p r req = u →
    u.st.audit = a :: l →
    ∃ t, exec (.auditHead p req) s = .next t ∧ t.replied p 0 (.head a.aseq (Sys2Proof.Config.sha384 a.bytes))) ∧
  (∀ (p : Path) (req : Feed) (s : State), s.mails p { opc := 0x51, least := 3, core := 1, inRec := true, audited := false } req = true →
    ∃ t, exec (.returnDiag p req) s = .next t ∧
      t.replied p 0 (.diag s.st.crashes ((List.range 7).filter fun k => s.coreState k == .retired) s.gs.rowMap s.gs.bankMap s.gs.lmap)) ∧
  (∀ (p : Path) (req : Feed) (k : Nat) (su : Startup) (s : State),
    s.mails p { opc := 0x08, least := 1, core := 1, inRec := false, audited := true } req = true → s.coreRuns k = true →
    (k ≠ 0 → s.recentRestarts k < 2) →
    ∃ t, exec (.coreRestart p req k true su) s = .next t ∧ t.replied p 0 .nothing ∧ t.coreState k = .run ∧
      ∃ pc, t.st.crashes = (k, pc, Cause.command) :: s.st.crashes) ∧
  (∀ (p : Path) (req : Feed) (s : State), s.mails p (mbxAuth 0x10 0 true) req = true → s.st.lockout.contains p = false →
    ∃ t, exec (.authChallenge p req) s = .next t ∧ t.replied p 0 (.nonce (Sys2Proof.Config.nonce s.st.nonces)) ∧ p ∈ t.st.asked ∧
      t.st.nonces = s.st.nonces + 1) ∧
  (∀ (p : Path) (req : Feed) (role : Role) (k : Nat) (s : State), s.mails p (mbxAuth 0x11 0 true) req = true → s.st.asked.contains p = true →
    (p = .i3c → role = .operator → bitb s.st.policy 7 = true) → s.keyHeld role k = true →
    ∃ t, exec (.authResponse p req role k true) s = .next t ∧ t.replied p 0 .nothing ∧
      ∃ e, pget t.st.sessions p = some e ∧ e.role = role ∧ e.key = k) ∧
  (∀ (p : Path) (req : Feed) (role : Role) (k : Nat) (s : State), s.mails p (mbxAuth 0x11 0 true) req = true → s.st.asked.contains p = true →
    (p = .i3c → role = .operator → bitb s.st.policy 7 = true) →
    ∃ t, exec (.authResponse p req role k false) s = .next t ∧ t.replied p 6 .nothing ∧ t.st.sessions = s.st.sessions) ∧
  (∀ (p : Path) (req : Feed) (s : State), s.mails p (mbxAuth 0x12 1 true) req = true → (pget s.st.sessions p).isSome = true →
    ∃ t, exec (.authEnd p req) s = .next t ∧ t.replied p 0 .nothing ∧ pget t.st.sessions p = none)

/-- A staged image is programmed into the slot that is not in use, activated on trial, committed with the anti-rollback counter raised, or
reverted; in an emergency activation and commit are deferred; drives are attached and detached. -/
def Obligations.MailboxMovesImagesAndDrives : Prop :=
  (∀ (p : Path) (req : Feed) (off : Nat) (chunk : Bytes) (s : State), s.mails p (mbxAuth 0x20 2 true) req = true → s.st.watch = false →
    s.st.deferred = none → chunk.length ≤ 4032 → off + chunk.length ≤ 0x1000000 →
    ∃ t, exec (.imgStage p req off chunk false) s = .next t ∧ t.replied p 0 .nothing ∧ mget t.st.staging off = some chunk) ∧
  (∀ (p : Path) (req : Feed) (off : Nat) (chunk : Bytes) (i : Image) (s : State), s.mails p (mbxAuth 0x20 2 true) req = true →
    s.st.watch = false → s.st.deferred = none → chunk.length ≤ 4032 → off + chunk.length ≤ 0x1000000 →
    imageOf s.fuses (mset s.st.staging off chunk) = i → i.svn ≤ 64 → s.fuses.svn ≤ i.svn →
    ∃ t, exec (.imgStage p req off chunk true) s = .next t ∧ t.replied p 0 .nothing ∧ t.st.slot s.st.inactive = i ∧ t.st.staged = true ∧
      t.st.slot (!s.st.inactive) = s.st.slot (!s.st.inactive)) ∧
  (∀ (p : Path) (req : Feed) (off : Nat) (chunk : Bytes) (s : State), s.mails p (mbxAuth 0x20 2 true) req = true → s.st.watch = false →
    s.st.deferred = none → chunk.length ≤ 4032 → off + chunk.length ≤ 0x1000000 →
    (imageOf s.fuses (mset s.st.staging off chunk)).svn < s.fuses.svn →
    ∃ t, exec (.imgStage p req off chunk true) s = .next t ∧ t.replied p 7 .nothing ∧ t.st.imgA = s.st.imgA ∧ t.st.imgB = s.st.imgB) ∧
  (∀ (p : Path) (req : Feed) (s : State), s.mails p (mbxAuth 0x21 2 true) req = true → s.st.watch = false → s.st.deferred = none →
    s.st.staged = true → s.emergency = false → s.fuses.accepts (s.st.slot s.st.inactive) true = true →
    ∃ t, exec (.imgActivate p req true) s = .next t ∧ t.replied p 0 .nothing ∧ t.st.slotB = s.st.inactive ∧ t.st.trial = true ∧
      t.st.watch = true ∧ ∃ b, t.st.bcr = some b ∧ b.active = s.st.inactive ∧ b.trial = true ∧ b.prev = !s.st.inactive) ∧
  (∀ (p : Path) (req : Feed) (sigOk : Bool) (s : State), s.mails p (mbxAuth 0x21 2 true) req = true → s.st.watch = false →
    s.st.deferred = none → s.st.staged = true → s.emergency = true →
    ∃ t, exec (.imgActivate p req sigOk) s = .next t ∧ t.replied p 10 .nothing ∧ (∃ d, t.st.deferred = some d ∧ d.kind = 0) ∧
      t.st.slotB = s.st.slotB) ∧
  (∀ (p : Path) (req : Feed) (s : State), s.mails p (mbxAuth 0x22 2 false) req = true → s.st.watch = false → s.st.deferred = none →
    s.st.trial = true → s.emergency = false →
    ∃ t, exec (.imgCommit p req) s = .next t ∧ t.replied p 0 .nothing ∧ t.st.trial = false ∧
      t.fuses.svn = max s.fuses.svn (min (s.st.slot s.st.slotB).svn 64)) ∧
  (∀ (p : Path) (req : Feed) (b : Bcr) (s : State), s.mails p (mbxAuth 0x23 2 false) req = true → s.st.trial = true → s.st.bcr = some b →
    ∃ t, exec (.imgRevert p req) s = .next t ∧ t.replied p 0 .nothing ∧ t.st.trial = false ∧ t.st.slotB = b.prev) ∧
  (∀ (p : Path) (req : Feed) (d : Nat) (i : DriveInfo) (s : State),
    s.mails p { opc := 0x30, least := 2, core := 4, inRec := false, audited := true } req = true → s.mayAttach d i = true →
    s.attachCheck d i = none →
    ∃ t, exec (.driveAttach p req d i) s = .next t ∧ t.replied p 0 .nothing ∧ (t.drive d).state = .ready) ∧
  (∀ (p : Path) (req : Feed) (d : Nat) (s : State),
    s.mails p { opc := 0x31, least := 2, core := 4, inRec := false, audited := true } req = true → Drive.attached (s.drive d) = true →
    s.onDriveVersions d = [] →
    ∃ t, exec (.driveDetach p req d []) s = .next t ∧ t.replied p 0 .nothing ∧ t.drive d = {})

/-- Keys are enrolled and revoked, limits are stored, the debug access bus is opened at the lower of the session's and DEBUG_ALLOWED's
level and closed, and maker keys are revoked. -/
def Obligations.MailboxSetsKeysAndLimits : Prop :=
  (∀ (p : Path) (req : Feed) (off : Nat) (chunk key : Bytes) (count : BitVec 32) (s : State), s.mails p (mbxAuth 0x38 0 true) req = true →
    (∀ c, s.st.tokenCnt = some c → c.toNat < count.toNat) → s.keyHeld .maker s.st.image.keyIdx = true →
    ∃ t, exec (.enrolInstaller p req off chunk true key count true) s = .next t ∧ t.replied p 0 .nothing ∧ t.st.instKey = some key ∧
      t.st.tokenCnt = some count) ∧
  (∀ (p : Path) (req : Feed) (idx : Nat) (key : Bytes) (s : State), s.mails p (mbxAuth 0x39 2 false) req = true → idx < 16 →
    ∃ t, exec (.enrolOperator p req idx key) s = .next t ∧ t.replied p 0 .nothing ∧ mget t.st.opKeys idx = some key) ∧
  (∀ (p : Path) (req : Feed) (idx : Nat) (s : State), s.mails p (mbxAuth 0x3A 2 false) req = true → (mget s.st.opKeys idx).isSome = true →
    ∃ t, exec (.revokeOperator p req idx) s = .next t ∧ t.replied p 0 .nothing ∧ mget t.st.opKeys idx = none) ∧
  (∀ (p : Path) (req : Feed) (limits : BitVec 8) (s : State), s.mails p (mbxAuth 0x3B 2 false) req = true →
    ∃ t, exec (.setLimit p req limits) s = .next t ∧ t.replied p 0 .nothing ∧
      t.st.policy = putf s.st.policy 0 7 (limits.toNat % 128) ∧ t.st.flashPol = t.st.policy) ∧
  (∀ (p : Path) (req : Feed) (s : State), s.mails p (mbxAuth 0x40 2 false) req = true → min (s.rights p - 1) (debugAllowed s.st.policy) ≠ 0 →
    ∃ t, exec (.debugOpen p req) s = .next t ∧ t.replied p 0 .nothing ∧ t.st.debug = min (s.rights p - 1) (debugAllowed s.st.policy)) ∧
  (∀ (p : Path) (req : Feed) (s : State), s.mails p (mbxAuth 0x41 1 true) req = true →
    ∃ t, exec (.debugClose p req) s = .next t ∧ t.replied p 0 .nothing ∧ t.st.debug = 0) ∧
  (∀ (p : Path) (req : Feed) (revoke : BitVec 4) (s : State), s.mails p (mbxAuth 0x50 3 false) req = true →
    ∃ t, exec (.fuseProgram p req revoke) s = .next t ∧ t.replied p 0 .nothing ∧ t.fuses.revoked = s.fuses.revoked ||| revoke)

/-- The I3C target takes and gives up its dynamic address, enables and disables its in-band interrupts, by a broadcast command or a direct
one to that address, answers what it is asked for there, and takes what it is told; a private read, at either address, returns the response
that is ready. What the spec does not give of its values is free. -/
def Obligations.I3cCommandsAct : Prop :=
  (∀ (a : BitVec 7) (s : State), s.i3cAnswers = true → s.i3.dyn = none →
    ∃ t, exec (.entdaa a) s = .next t ∧ t.i3.dyn = some a ∧ t.out = .i3c i3cIdent :: s.out) ∧
  (∀ (a : BitVec 7) (s : State), s.i3cAnswers = true → s.i3.dyn = none → ∃ t, exec (.setdasa a) s = .next t ∧ t.i3.dyn = some a) ∧
  (∀ (s : State), s.i3cHears false = true → ∃ t, exec .rstdaa s = .next t ∧ t.i3.dyn = none ∧ t.tel.ibiOn = false) ∧
  (∀ (d : Bool) (e : BitVec 8) (s : State), s.i3cHears d = true →
    ∃ t, exec (.enec ⟨d, e⟩) s = .next t ∧ t.i3 = { s.i3 with ibi := s.i3.ibi ||| e }) ∧
  (∀ (d : Bool) (e : BitVec 8) (s : State), s.i3cHears d = true →
    ∃ t, exec (.disec ⟨d, e⟩) s = .next t ∧ t.i3 = { s.i3 with ibi := s.i3.ibi &&& ~~~e }) ∧
  (∀ s : State, s.i3cHears true = true →
    ∃ t, exec .getpid s = .next t ∧ t.out = .i3c (beBytes 6 (Sys2Proof.Config.i3cValue 0).toNat) :: s.out) ∧
  (∀ s : State, s.i3cHears true = true →
    ∃ t, exec .getbcr s = .next t ∧ t.out = .i3c (beBytes 1 (Sys2Proof.Config.i3cValue 1).toNat) :: s.out) ∧
  (∀ s : State, s.i3cHears true = true →
    ∃ t, exec .getdcr s = .next t ∧ t.out = .i3c (beBytes 1 (Sys2Proof.Config.i3cValue 2).toNat) :: s.out) ∧
  (∀ s : State, s.i3cHears true = true → ∃ t a b, exec .getstatus s = .next t ∧ t.out = .i3c [a, b] :: s.out) ∧
  (∀ s : State, s.i3cHears true = true → ∃ t, exec .getmwl s = .next t ∧ t.out = .i3c (beBytes 2 s.i3.mwl.toNat) :: s.out) ∧
  (∀ s : State, s.i3cHears true = true → ∃ t, exec .getmrl s = .next t ∧ t.out = .i3c (beBytes 2 s.i3.mrl.toNat) :: s.out) ∧
  (∀ (d : Bool) (n : BitVec 16) (s : State), s.i3cHears d = true → ∃ t, exec (.setmwl ⟨d, n⟩) s = .next t ∧ t.i3 = { s.i3 with mwl := n }) ∧
  (∀ (d : Bool) (n : BitVec 16) (s : State), s.i3cHears d = true → ∃ t, exec (.setmrl ⟨d, n⟩) s = .next t ∧ t.i3 = { s.i3 with mrl := n }) ∧
  (∀ (d : Bool) (a : BitVec 8) (s : State), s.i3cHears d = true → ∃ t, exec (.rstact ⟨d, a⟩) s = .next t ∧ t.i3 = { s.i3 with rst := a }) ∧
  (∀ (r : Reply) (s : State), s.i3cAnswers = true → pget s.st.replies .i3c = some r →
    ∃ t, exec .i3cPrivateRead s = .next t ∧ t.out = .i3c r.wire :: s.out)
end

