-- ==== Sys2Proof/Laws/Hide.lean ====
section
/-!
SUPPORT. The frame calculus: `State.hide M` blanks the parts that M names; a function that keeps `hide M` changes no other part.
-/

namespace Sys2Proof.Laws

open Sys2Proof.Machine

/-- Which parts may change. -/
abbrev Mask := Zone → Bool

/-- The Ground store state with its bytes, the rest, or both blanked. -/
def hideGs (rest mem : Bool) (g : Ground) : Ground :=
  { (if rest then {} else g) with mem := if mem then [] else g.mem }

/-- The state with the parts that M names blanked. -/
def hide (M : Mask) (s : State) : State :=
  { pending := if M .pending then [] else s.pending
    fuses := if M .fuses then {} else s.fuses
    regs := if M .regs then [] else s.regs
    pregs := if M .pregs then [] else s.pregs
    lows := if M .lows then [] else s.lows
    ctxCfg := if M .ctxCfg then [] else s.ctxCfg
    updCfg := if M .updCfg then [] else s.updCfg
    fwdCfg := if M .fwdCfg then [] else s.fwdCfg
    drvCfg := if M .drvCfg then [] else s.drvCfg
    fe := if M .fe then {} else s.fe
    xl := if M .xl then {} else s.xl
    tb := if M .tb then {} else s.tb
    sp := if M .sp then {} else s.sp
    qz := if M .qz then {} else s.qz
    up := if M .up then {} else s.up
    ch := if M .ch then {} else s.ch
    gs := hideGs (M .gs) (M .mem) s.gs
    fl := if M .fl then {} else s.fl
    tel := if M .tel then {} else s.tel
    pw := if M .pw then {} else s.pw
    st := if M .st then {} else s.st
    i3 := if M .i3 then {} else s.i3
    rl := if M .rl then {} else s.rl
    free := if M .free then 0 else s.free
    out := if M .out then [] else s.out }

/-- Two states that agree once M's parts are blanked agree on every part outside M. -/
theorem same_of_hide {M : Mask} {s t : State} (h : hide M t = hide M s) (p : Zone) (hp : M p = false) : p.same s t := by
  have hg : hideGs (M .gs) (M .mem) t.gs = hideGs (M .gs) (M .mem) s.gs := congrArg State.gs h
  have pick : ∀ {α : Type} (m : Bool) (d x y : α), m = false → (if m then d else x) = (if m then d else y) → x = y := by
    intro α m d x y hm hxy; subst hm; exact hxy
  cases p with
  | pending => exact pick _ _ _ _ hp (congrArg State.pending h)
  | fuses => exact pick _ _ _ _ hp (congrArg State.fuses h)
  | regs => exact pick _ _ _ _ hp (congrArg State.regs h)
  | pregs => exact pick _ _ _ _ hp (congrArg State.pregs h)
  | lows => exact pick _ _ _ _ hp (congrArg State.lows h)
  | ctxCfg => exact pick _ _ _ _ hp (congrArg State.ctxCfg h)
  | updCfg => exact pick _ _ _ _ hp (congrArg State.updCfg h)
  | fwdCfg => exact pick _ _ _ _ hp (congrArg State.fwdCfg h)
  | drvCfg => exact pick _ _ _ _ hp (congrArg State.drvCfg h)
  | fe => exact pick _ _ _ _ hp (congrArg State.fe h)
  | xl => exact pick _ _ _ _ hp (congrArg State.xl h)
  | tb => exact pick _ _ _ _ hp (congrArg State.tb h)
  | sp => exact pick _ _ _ _ hp (congrArg State.sp h)
  | qz => exact pick _ _ _ _ hp (congrArg State.qz h)
  | up => exact pick _ _ _ _ hp (congrArg State.up h)
  | ch => exact pick _ _ _ _ hp (congrArg State.ch h)
  | fl => exact pick _ _ _ _ hp (congrArg State.fl h)
  | tel => exact pick _ _ _ _ hp (congrArg State.tel h)
  | pw => exact pick _ _ _ _ hp (congrArg State.pw h)
  | st => exact pick _ _ _ _ hp (congrArg State.st h)
  | i3 => exact pick _ _ _ _ hp (congrArg State.i3 h)
  | rl => exact pick _ _ _ _ hp (congrArg State.rl h)
  | free => exact pick _ _ _ _ hp (congrArg State.free h)
  | out => exact pick _ _ _ _ hp (congrArg State.out h)
  | gs =>
    have h2 : ({ (if M .gs then {} else t.gs) with mem := [] } : Ground) = { (if M .gs then {} else s.gs) with mem := [] } :=
      congrArg (fun g : Ground => { g with mem := [] }) hg
    rw [hp] at h2
    exact h2
  | mem => exact pick _ _ _ _ hp (congrArg Ground.mem hg)

/-- The mask of a list of parts. -/
def maskOfZones (l : List Zone) : Mask := fun p => l.contains p

theorem sameBut_of_hide {l : List Zone} {s t : State} (h : hide (maskOfZones l) t = hide (maskOfZones l) s) :
    State.sameBut l s t := fun p hp => same_of_hide h p hp

variable {M : Mask}

theorem hide_ite (c : Prop) [Decidable c] (a b : State) : hide M (if c then a else b) = if c then hide M a else hide M b := by
  split <;> rfl

theorem hide_if {c : Prop} [Decidable c] {a b s : State} (ha : hide M a = hide M s) (hb : hide M b = hide M s) :
    hide M (if c then a else b) = hide M s := by
  split
  · exact ha
  · exact hb

theorem hide_if1 {α : Type} {c : Prop} [Decidable c] {a b : State × α} {s : State} (ha : hide M a.1 = hide M s)
    (hb : hide M b.1 = hide M s) : hide M (if c then a else b).1 = hide M s := by
  split
  · exact ha
  · exact hb

theorem ite_fst {α : Type} (c : Prop) [Decidable c] (a b : State × α) : (if c then a else b).1 = if c then a.1 else b.1 := by
  split <;> rfl

theorem onFe_hide (h : M .fe = true) (s : State) (f : FrontEnd → FrontEnd) : hide M (s.onFe f) = hide M s := by
  unfold hide State.onFe; simp only [h, if_true]

theorem onXl_hide (h : M .xl = true) (s : State) (f : Translation → Translation) : hide M (s.onXl f) = hide M s := by
  unfold hide State.onXl; simp only [h, if_true]

theorem onTb_hide (h : M .tb = true) (s : State) (f : Tables → Tables) : hide M (s.onTb f) = hide M s := by
  unfold hide State.onTb; simp only [h, if_true]

theorem onSp_hide (h : M .sp = true) (s : State) (f : SortPool → SortPool) : hide M (s.onSp f) = hide M s := by
  unfold hide State.onSp; simp only [h, if_true]

theorem onQz_hide (h : M .qz = true) (s : State) (f : Quant → Quant) : hide M (s.onQz f) = hide M s := by
  unfold hide State.onQz; simp only [h, if_true]

theorem onUp_hide (h : M .up = true) (s : State) (f : Updates → Updates) : hide M (s.onUp f) = hide M s := by
  unfold hide State.onUp; simp only [h, if_true]

theorem onCh_hide (h : M .ch = true) (s : State) (f : Cache → Cache) : hide M (s.onCh f) = hide M s := by
  unfold hide State.onCh; simp only [h, if_true]

theorem onGs_hide (h : M .gs = true) (s : State) (f : Ground → Ground) (hf : ∀ g, (f g).mem = g.mem) :
    hide M (s.onGs f) = hide M s := by
  unfold hide hideGs State.onGs; simp only [h, if_true, hf]

theorem onGs_mem_hide (h : M .mem = true) (s : State) (f : Ground → Ground)
    (hf : ∀ g, ({ f g with mem := [] } : Ground) = { g with mem := [] }) : hide M (s.onGs f) = hide M s := by
  unfold hide State.onGs
  have e : hideGs (M .gs) (M .mem) (f s.gs) = hideGs (M .gs) (M .mem) s.gs := by
    unfold hideGs
    rw [h]
    cases M .gs
    · exact hf s.gs
    · rfl
  rw [e]

theorem onFl_hide (h : M .fl = true) (s : State) (f : Flash → Flash) : hide M (s.onFl f) = hide M s := by
  unfold hide State.onFl; simp only [h, if_true]

theorem onTel_hide (h : M .tel = true) (s : State) (f : Telem → Telem) : hide M (s.onTel f) = hide M s := by
  unfold hide State.onTel; simp only [h, if_true]

theorem onPw_hide (h : M .pw = true) (s : State) (f : Power → Power) : hide M (s.onPw f) = hide M s := by
  unfold hide State.onPw; simp only [h, if_true]

theorem onSt_hide (h : M .st = true) (s : State) (f : Steta → Steta) : hide M (s.onSt f) = hide M s := by
  unfold hide State.onSt; simp only [h, if_true]

theorem onI3_hide (h : M .i3 = true) (s : State) (f : I3c → I3c) : hide M (s.onI3 f) = hide M s := by
  unfold hide State.onI3; simp only [h, if_true]

theorem onRl_hide (h : M .rl = true) (s : State) (f : Rel → Rel) : hide M (s.onRl f) = hide M s := by
  unfold hide State.onRl; simp only [h, if_true]

theorem onFuses_hide (h : M .fuses = true) (s : State) (f : Fuses → Fuses) : hide M (s.onFuses f) = hide M s := by
  unfold hide State.onFuses; simp only [h, if_true]

theorem set_regs_hide (h : M .regs = true) (s : State) (x : SMap Word64) : hide M { s with regs := x } = hide M s := by
  unfold hide; simp only [h, if_true]

theorem set_pregs_hide (h : M .pregs = true) (s : State) (x : SMap Word64) : hide M { s with pregs := x } = hide M s := by
  unfold hide; simp only [h, if_true]

theorem set_lows_hide (h : M .lows = true) (s : State) (x : SMap (BitVec 32)) : hide M { s with lows := x } = hide M s := by
  unfold hide; simp only [h, if_true]

theorem set_ctxCfg_hide (h : M .ctxCfg = true) (s : State) (x : SMap Word64) : hide M { s with ctxCfg := x } = hide M s := by
  unfold hide; simp only [h, if_true]

theorem set_updCfg_hide (h : M .updCfg = true) (s : State) (x : SMap Word64) : hide M { s with updCfg := x } = hide M s := by
  unfold hide; simp only [h, if_true]

theorem set_fwdCfg_hide (h : M .fwdCfg = true) (s : State) (x : SMap Word64) : hide M { s with fwdCfg := x } = hide M s := by
  unfold hide; simp only [h, if_true]

theorem set_drvCfg_hide (h : M .drvCfg = true) (s : State) (x : SMap Word64) : hide M { s with drvCfg := x } = hide M s := by
  unfold hide; simp only [h, if_true]

theorem set_tb_hide (h : M .tb = true) (s : State) (x : Tables) : hide M { s with tb := x } = hide M s := by
  unfold hide; simp only [h, if_true]

theorem set_sp_hide (h : M .sp = true) (s : State) (x : SortPool) : hide M { s with sp := x } = hide M s := by
  unfold hide; simp only [h, if_true]

theorem set_qz_hide (h : M .qz = true) (s : State) (x : Quant) : hide M { s with qz := x } = hide M s := by
  unfold hide; simp only [h, if_true]

theorem set_tel_hide (h : M .tel = true) (s : State) (x : Telem) : hide M { s with tel := x } = hide M s := by
  unfold hide; simp only [h, if_true]

theorem set_st_hide (h : M .st = true) (s : State) (x : Steta) : hide M { s with st := x } = hide M s := by
  unfold hide; simp only [h, if_true]

theorem set_free_hide (h : M .free = true) (s : State) (x : Nat) : hide M { s with free := x } = hide M s := by
  unfold hide; simp only [h, if_true]

theorem set_out_hide (h : M .out = true) (s : State) (x : List Output) : hide M { s with out := x } = hide M s := by
  unfold hide; simp only [h, if_true]

theorem forEach_hide {α : Type} (f : State → α → State) (h : ∀ s a, hide M (f s a) = hide M s) (l : List α) (s : State) :
    hide M (State.forEach f l s) = hide M s := by
  induction l generalizing s with
  | nil => rfl
  | cons a t ih => rw [State.forEach, ih, h]

theorem foldl_hide {α β : Type} (f : State × β → α → State × β) (h : ∀ q a, hide M (f q a).1 = hide M q.1) (l : List α)
    (q : State × β) : hide M (l.foldl f q).1 = hide M q.1 := by
  induction l generalizing q with
  | nil => rfl
  | cons a t ih => rw [List.foldl_cons, ih, h]

theorem foldlS_hide {α : Type} (f : State → α → State) (h : ∀ s a, hide M (f s a) = hide M s) (l : List α) (s : State) :
    hide M (l.foldl f s) = hide M s := by
  induction l generalizing s with
  | nil => rfl
  | cons a t ih => rw [List.foldl_cons, ih, h]

theorem next_hide {F R : Type} {a t s : State} (e : (Host.Outcome.next a : Host.Outcome State F R) = .next t) (h : hide M a = hide M s) :
    hide M t = hide M s := by
  cases e
  exact h

end Sys2Proof.Laws
end

