-- ==== Sys2Proof/Laws/Memory.lean ====
section
/-!
SUPPORT. Laws of the byte operations over Ground store's cells: what a read after a write gives, and the canonical form.
-/

namespace Sys2Proof.Laws

open Sys2Proof.Machine

theorem above_mono {m : List Host.Cell} {a b : Nat} (h : Memory.above b m = true) (hab : a ≤ b) : Memory.above a m = true := by
  induction m with
  | nil => rfl
  | cons c t ih =>
    simp only [Memory.above, Bool.and_eq_true, decide_eq_true_eq] at h ⊢
    exact ⟨by omega, ih h.2⟩

theorem read_above {m : List Host.Cell} {a k : Nat} (h : Memory.above a m = true) (hk : k ≤ a) : Memory.read m k = Memory.empty := by
  induction m with
  | nil => rfl
  | cons c t ih =>
    simp only [Memory.above, Bool.and_eq_true, decide_eq_true_eq] at h
    rw [Memory.read, if_neg (by omega)]
    exact ih h.2

theorem write_above {m : List Host.Cell} {a k : Nat} (v : Byte) (h : Memory.above a m = true) (hk : a < k) :
    Memory.above a (Memory.write m k v) = true := by
  induction m with
  | nil => rw [Memory.write]; split <;> simp [Memory.above, hk]
  | cons c t ih =>
    have h2 := h
    simp only [Memory.above, Bool.and_eq_true, decide_eq_true_eq] at h
    rw [Memory.write]
    split
    · split <;> simp [Memory.above, h, hk]
    · split
      · split <;> simp [Memory.above, h, hk]
      · simp [Memory.above, h, ih h.2]

/-- A write keeps the canonical form. -/
theorem write_wf {m : List Host.Cell} (h : Memory.wf m = true) (k : Nat) (v : Byte) : Memory.wf (Memory.write m k v) = true := by
  induction m with
  | nil => rw [Memory.write]; split <;> simp_all [Memory.wf, Memory.above]
  | cons c t ih =>
    have h2 := h
    simp only [Memory.wf, Bool.and_eq_true] at h
    obtain ⟨⟨hv, ha⟩, ht⟩ := h
    rw [Memory.write]
    split
    · rename_i e
      subst e
      split <;> simp_all [Memory.wf]
    · split
      · rename_i hlt
        split
        · exact h2
        · simp_all [Memory.wf, Memory.above, above_mono ha (Nat.le_of_lt hlt)]
      · simp only [Memory.wf, Bool.and_eq_true]
        exact ⟨⟨hv, write_above v ha (by omega)⟩, ih ht⟩

/-- A read after a write: the byte written at its address, every other address as before. -/
theorem read_write {m : List Host.Cell} (h : Memory.wf m = true) (k : Nat) (v : Byte) (a : Nat) :
    Memory.read (Memory.write m k v) a = if a = k then v else Memory.read m a := by
  induction m with
  | nil =>
    rw [Memory.write]
    split <;> rename_i e
    · split <;> simp_all [Memory.read]
    · simp only [Memory.read, eq_comm (a := k)]
  | cons c t ih =>
    obtain ⟨b, w⟩ := c
    simp only [Memory.wf, Bool.and_eq_true] at h
    obtain ⟨⟨hv, ha⟩, ht⟩ := h
    rw [Memory.write]
    by_cases e1 : b = k
    · subst e1
      rw [if_pos rfl]
      by_cases e2 : v = Memory.empty
      · rw [if_pos e2]
        by_cases e3 : a = b
        · subst e3
          rw [if_pos rfl, read_above ha (Nat.le_refl _), e2]
        · rw [if_neg e3, Memory.read, if_neg (fun e => e3 e.symm)]
      · rw [if_neg e2, Memory.read]
        by_cases e3 : a = b
        · subst e3; simp
        · rw [if_neg (fun e => e3 e.symm), if_neg e3, Memory.read, if_neg (fun e => e3 e.symm)]
    · rw [if_neg e1]
      by_cases e2 : k < b
      · rw [if_pos e2]
        by_cases e3 : v = Memory.empty
        · rw [if_pos e3]
          by_cases e4 : a = k
          · subst e4
            rw [if_pos rfl, Memory.read, if_neg (by omega), read_above ha (by omega), e3]
          · rw [if_neg e4]
        · rw [if_neg e3, Memory.read]
          by_cases e4 : a = k
          · subst e4; simp
          · rw [if_neg (fun e => e4 e.symm), if_neg e4]
      · rw [if_neg e2, Memory.read, ih ht]
        by_cases e3 : b = a
        · subst e3
          rw [if_pos rfl, if_neg e1, Memory.read, if_pos rfl]
        · rw [if_neg e3, Memory.read, if_neg e3]

end Sys2Proof.Laws
end

