-- ==== Sys2Proof/Laws/Canon.lean ====
section
/-!
SUPPORT. Ground store's bytes keep their canonical form: `Canon` of a state with every part but its bytes blanked, so that the
frame lemmas of a function that writes no byte carry it over.
-/

namespace Sys2Proof.Laws

open Sys2Proof.Machine

/-- Every part but Ground store's bytes. -/
def butMem : Mask := fun z => z != .mem

/-- Ground store's bytes are in canonical form. -/
def Canon (s : State) : Prop := Memory.wf s.gs.mem = true

theorem canon_iff (s : State) : Canon (hide butMem s) ↔ Memory.wf s.gs.mem = true := Iff.rfl

theorem write_canon (s : State) (k : Nat) (v : Byte) (hs : Canon (hide butMem s)) :
    Canon (hide butMem (s.onGs fun g => { g with mem := Memory.write g.mem k v })) := by
  rw [canon_iff] at hs ⊢
  exact write_wf hs k v

theorem forEach_canon {α : Type} (f : State → α → State) (h : ∀ s a, Canon (hide butMem s) → Canon (hide butMem (f s a))) (l : List α)
    (s : State) (hs : Canon (hide butMem s)) : Canon (hide butMem (State.forEach f l s)) := by
  induction l generalizing s with
  | nil => exact hs
  | cons a t ih => exact ih _ (h s a hs)

theorem foldl_canon {α β : Type} (f : State × β → α → State × β)
    (h : ∀ q a, Canon (hide butMem q.1) → Canon (hide butMem (f q a).1)) (l : List α) (q : State × β)
    (hq : Canon (hide butMem q.1)) : Canon (hide butMem (l.foldl f q).1) := by
  induction l generalizing q with
  | nil => exact hq
  | cons a t ih => exact ih _ (h q a hq)

theorem next_canon {F R : Type} {a t : State} (e : (Host.Outcome.next a : Host.Outcome State F R) = .next t)
    (h : Canon (hide butMem a)) : Canon (hide butMem t) := by
  cases e
  exact h

end Sys2Proof.Laws
end

