-- ==== Sys2Proof/Laws/FrameTele.lean ====
section
/-!
SUPPORT. Frames of what Machine/Tele.lean defines: the parts of the state that each may change.
-/

namespace Sys2Proof.Laws

open Sys2Proof.Machine

variable {M : Mask}

theorem tell_hide (h_tel : M .tel = true) (s : State) (ops : List TelOp) : hide M (State.tell s ops) = hide M s := by
  unfold State.tell
  simp only [set_tel_hide, hide_ite, ite_self, ite_fst, implies_true, eq_self, h_tel]

theorem count_hide (h_tel : M .tel = true) (s : State) (off : Nat) : hide M (State.count s off) = hide M s := by
  unfold State.count
  simp only [hide_ite, ite_self, ite_fst, implies_true, eq_self, h_tel, tell_hide]

theorem countN_hide (h_tel : M .tel = true) (s : State) (off n : Nat) : hide M (State.countN s off n) = hide M s := by
  unfold State.countN
  simp only [hide_ite, ite_self, ite_fst, implies_true, eq_self, h_tel, count_hide, tell_hide]

theorem send_hide (h_out : M .out = true) (s : State) (o : Output) : hide M (State.send s o) = hide M s := by
  unfold State.send
  simp only [set_out_hide, hide_ite, ite_self, ite_fst, implies_true, eq_self, h_out]

theorem sendAll_hide (h_out : M .out = true) (s : State) (os : List Output) : hide M (State.sendAll s os) = hide M s := by
  unfold State.sendAll
  simp only [set_out_hide, hide_ite, ite_self, ite_fst, implies_true, eq_self, h_out]

end Sys2Proof.Laws
end

