-- ==== Sys2Proof/Laws/FrameStore.lean ====
section
/-!
SUPPORT. Frames of what Machine/Store.lean defines: the parts of the state that each may change.
-/

namespace Sys2Proof.Laws

open Sys2Proof.Machine

variable {M : Mask}

theorem writePin_hide (h_mem : M .mem = true) (s : State) (o : Nat) (y0 : Bytes) : hide M (State.writePin s o y0) = hide M s := by
  fun_induction State.writePin s o y0
  · rfl
  · rename_i ih
    exact ih.trans (onGs_mem_hide h_mem _ _ (fun _ => rfl))

theorem setWays_hide (h_ch : M .ch = true) (s : State) (ws : List Way) : hide M (State.setWays s ws) = hide M s := by
  unfold State.setWays
  simp only [eq_self, h_ch, onCh_hide]

theorem putWay_hide (h_ch : M .ch = true) (s : State) (w : Way) : hide M (State.putWay s w) = hide M s := by
  unfold State.putWay
  simp only [eq_self, h_ch, setWays_hide]

theorem dropWay_hide (h_ch : M .ch = true) (s : State) (w : Way) : hide M (State.dropWay s w) = hide M s := by
  unfold State.dropWay
  try dsimp only
  repeat' first
    | with_reducible rfl
    | (simp only [hide_ite, ite_self, ite_fst, implies_true, eq_self, h_ch, setWays_hide]; done)
    | with_reducible apply hide_if
    | with_reducible apply hide_if1
    | split
    | (rw [forEach_hide])
    | (rw [foldl_hide])
    | (rw [foldlS_hide])
    | (intro; intros; try dsimp only)
    | (simp only [hide_ite, ite_self, ite_fst, implies_true, eq_self, h_ch, setWays_hide])

theorem freeWay_hide (h_ch : M .ch = true) (s : State) (w : Way) : hide M (State.freeWay s w) = hide M s := by
  unfold State.freeWay
  try dsimp only
  repeat' first
    | with_reducible rfl
    | (simp only [hide_ite, ite_self, ite_fst, implies_true, eq_self, h_ch, dropWay_hide, putWay_hide]; done)
    | with_reducible apply hide_if
    | with_reducible apply hide_if1
    | split
    | (rw [forEach_hide])
    | (rw [foldl_hide])
    | (rw [foldlS_hide])
    | (intro; intros; try dsimp only)
    | (simp only [hide_ite, ite_self, ite_fst, implies_true, eq_self, h_ch, dropWay_hide, putWay_hide])

theorem onWays_hide (h_ch : M .ch = true) (s : State) (p : Way → Bool) (f : Way → Way) : hide M (State.onWays s p f) = hide M s := by
  unfold State.onWays
  simp only [eq_self, h_ch, setWays_hide]

theorem writeSlotAt_hide (h_mem : M .mem = true) (s : State) (w : Way) (j : Nat) (y0 : Bytes) : hide M (State.writeSlotAt s w j y0) = hide M s := by
  fun_induction State.writeSlotAt s w j y0
  · rfl
  · rename_i ih
    exact ih.trans (onGs_mem_hide h_mem _ _ (fun _ => rfl))

theorem askRaw_hide (h_gs : M .gs = true) (h_tel : M .tel = true) (s : State) (ch bank line : Nat) (write bobbin : Bool) : hide M (State.askRaw s ch bank line write bobbin) = hide M s := by
  unfold State.askRaw
  try dsimp only
  repeat' first
    | with_reducible rfl
    | (simp only [hide_ite, ite_self, ite_fst, implies_true, eq_self, h_gs, h_tel, countN_hide, onGs_hide]; done)
    | with_reducible apply hide_if
    | with_reducible apply hide_if1
    | split
    | (rw [forEach_hide])
    | (rw [foldl_hide])
    | (rw [foldlS_hide])
    | (intro; intros; try dsimp only)
    | (simp only [hide_ite, ite_self, ite_fst, implies_true, eq_self, h_gs, h_tel, countN_hide, onGs_hide])

theorem writeTo_hide (h_gs : M .gs = true) (h_tel : M .tel = true) (s : State) (c : ChCopy) (x : Nat) : hide M (State.writeTo s c x) = hide M s := by
  unfold State.writeTo
  try dsimp only
  repeat' first
    | with_reducible rfl
    | (simp only [hide_ite, ite_self, ite_fst, implies_true, eq_self, h_gs, h_tel, askRaw_hide, count_hide]; done)
    | with_reducible apply hide_if
    | with_reducible apply hide_if1
    | split
    | (rw [forEach_hide])
    | (rw [foldl_hide])
    | (rw [foldlS_hide])
    | (intro; intros; try dsimp only)
    | (simp only [hide_ite, ite_self, ite_fst, implies_true, eq_self, h_gs, h_tel, askRaw_hide, count_hide])

theorem dualWrite_hide (h_gs : M .gs = true) (h_tel : M .tel = true) (s : State) (ch bank line : Nat) : hide M (State.dualWrite s ch bank line) = hide M s := by
  unfold State.dualWrite
  try dsimp only
  repeat' first
    | with_reducible rfl
    | (simp only [hide_ite, ite_self, ite_fst, implies_true, eq_self, h_gs, h_tel, forEach_hide, writeTo_hide]; done)
    | with_reducible apply hide_if
    | with_reducible apply hide_if1
    | split
    | (rw [forEach_hide])
    | (rw [foldl_hide])
    | (rw [foldlS_hide])
    | (intro; intros; try dsimp only)
    | (simp only [hide_ite, ite_self, ite_fst, implies_true, eq_self, h_gs, h_tel, forEach_hide, writeTo_hide])

theorem askBank_hide (h_gs : M .gs = true) (h_tel : M .tel = true) (s : State) (ch bank line : Nat) (write bobbin : Bool) : hide M (State.askBank s ch bank line write bobbin) = hide M s := by
  unfold State.askBank
  try dsimp only
  repeat' first
    | with_reducible rfl
    | (simp only [hide_ite, ite_self, ite_fst, implies_true, eq_self, h_gs, h_tel, askRaw_hide, dualWrite_hide]; done)
    | with_reducible apply hide_if
    | with_reducible apply hide_if1
    | split
    | (rw [forEach_hide])
    | (rw [foldl_hide])
    | (rw [foldlS_hide])
    | (intro; intros; try dsimp only)
    | (simp only [hide_ite, ite_self, ite_fst, implies_true, eq_self, h_gs, h_tel, askRaw_hide, dualWrite_hide])

theorem ask_hide (h_gs : M .gs = true) (h_tel : M .tel = true) (s : State) (ch pocket i : Nat) (write bobbin : Bool) : hide M (State.ask s ch pocket i write bobbin) = hide M s := by
  unfold State.ask
  try dsimp only
  repeat' first
    | with_reducible rfl
    | (simp only [hide_ite, ite_self, ite_fst, implies_true, eq_self, h_gs, h_tel, askBank_hide]; done)
    | with_reducible apply hide_if
    | with_reducible apply hide_if1
    | split
    | (rw [forEach_hide])
    | (rw [foldl_hide])
    | (rw [foldlS_hide])
    | (intro; intros; try dsimp only)
    | (simp only [hide_ite, ite_self, ite_fst, implies_true, eq_self, h_gs, h_tel, askBank_hide])

theorem retireWc_hide (h_gs : M .gs = true) (h_tel : M .tel = true) (s : State) (e : WcEntry) : hide M (State.retireWc s e) = hide M s := by
  unfold State.retireWc
  try dsimp only
  repeat' first
    | with_reducible rfl
    | (simp only [set_out_hide, hide_ite, ite_self, ite_fst, implies_true, eq_self, h_gs, h_tel, askBank_hide, count_hide, onGs_hide]; done)
    | with_reducible apply hide_if
    | with_reducible apply hide_if1
    | split
    | (rw [forEach_hide])
    | (rw [foldl_hide])
    | (rw [foldlS_hide])
    | (intro; intros; try dsimp only)
    | (simp only [set_out_hide, hide_ite, ite_self, ite_fst, implies_true, eq_self, h_gs, h_tel, askBank_hide, count_hide, onGs_hide])

theorem trimWc_hide (h_gs : M .gs = true) (h_tel : M .tel = true) (s : State) (ch : Nat) : hide M (State.trimWc s ch) = hide M s := by
  unfold State.trimWc
  try dsimp only
  repeat' first
    | with_reducible rfl
    | (simp only [hide_ite, ite_self, ite_fst, implies_true, eq_self, h_gs, h_tel, retireWc_hide]; done)
    | with_reducible apply hide_if
    | with_reducible apply hide_if1
    | split
    | (rw [forEach_hide])
    | (rw [foldl_hide])
    | (rw [foldlS_hide])
    | (intro; intros; try dsimp only)
    | (simp only [hide_ite, ite_self, ite_fst, implies_true, eq_self, h_gs, h_tel, retireWc_hide])

theorem combine_hide (h_gs : M .gs = true) (h_tel : M .tel = true) (s : State) (ch bank line : Nat) (mask : BitVec 32) : hide M (State.combine s ch bank line mask) = hide M s := by
  unfold State.combine
  try dsimp only
  repeat' first
    | with_reducible rfl
    | (simp only [hide_ite, ite_self, ite_fst, implies_true, eq_self, h_gs, h_tel, askBank_hide, count_hide, onGs_hide, trimWc_hide]; done)
    | with_reducible apply hide_if
    | with_reducible apply hide_if1
    | split
    | (rw [forEach_hide])
    | (rw [foldl_hide])
    | (rw [foldlS_hide])
    | (intro; intros; try dsimp only)
    | (simp only [hide_ite, ite_self, ite_fst, implies_true, eq_self, h_gs, h_tel, askBank_hide, count_hide, onGs_hide, trimWc_hide])

theorem wcNext_hide (h_gs : M .gs = true) (h_tel : M .tel = true) (s : State) (ch : Nat) : hide M (State.wcNext s ch) = hide M s := by
  unfold State.wcNext
  try dsimp only
  repeat' first
    | with_reducible rfl
    | (simp only [hide_ite, ite_self, ite_fst, implies_true, eq_self, h_gs, h_tel, combine_hide, onGs_hide]; done)
    | with_reducible apply hide_if
    | with_reducible apply hide_if1
    | split
    | (rw [forEach_hide])
    | (rw [foldl_hide])
    | (rw [foldlS_hide])
    | (intro; intros; try dsimp only)
    | (simp only [hide_ite, ite_self, ite_fst, implies_true, eq_self, h_gs, h_tel, combine_hide, onGs_hide])

theorem wcFree_hide (h_gs : M .gs = true) (h_tel : M .tel = true) (s : State) (r : Req) : hide M (State.wcFree s r) = hide M s := by
  unfold State.wcFree
  try dsimp only
  repeat' first
    | with_reducible rfl
    | (simp only [hide_ite, ite_self, ite_fst, implies_true, eq_self, h_gs, h_tel, onGs_hide, wcNext_hide]; done)
    | with_reducible apply hide_if
    | with_reducible apply hide_if1
    | split
    | (rw [forEach_hide])
    | (rw [foldl_hide])
    | (rw [foldlS_hide])
    | (intro; intros; try dsimp only)
    | (simp only [hide_ite, ite_self, ite_fst, implies_true, eq_self, h_gs, h_tel, onGs_hide, wcNext_hide])

theorem noteWrite_hide (h_gs : M .gs = true) (h_tel : M .tel = true) (s : State) (ch pocket a b : Nat) : hide M (State.noteWrite s ch pocket a b) = hide M s := by
  unfold State.noteWrite
  try dsimp only
  repeat' first
    | with_reducible rfl
    | (simp only [hide_ite, ite_self, ite_fst, implies_true, eq_self, h_gs, h_tel, forEach_hide, askBank_hide, combine_hide, onGs_hide]; done)
    | with_reducible apply hide_if
    | with_reducible apply hide_if1
    | split
    | (rw [forEach_hide])
    | (rw [foldl_hide])
    | (rw [foldlS_hide])
    | (intro; intros; try dsimp only)
    | (simp only [hide_ite, ite_self, ite_fst, implies_true, eq_self, h_gs, h_tel, forEach_hide, askBank_hide, combine_hide, onGs_hide])

theorem noteRead_hide (h_gs : M .gs = true) (h_tel : M .tel = true) (s : State) (ch pocket a b : Nat) (bobbin : Bool) : hide M (State.noteRead s ch pocket a b bobbin) = hide M s := by
  unfold State.noteRead
  try dsimp only
  repeat' first
    | with_reducible rfl
    | (simp only [hide_ite, ite_self, ite_fst, implies_true, eq_self, h_gs, h_tel, forEach_hide, ask_hide]; done)
    | with_reducible apply hide_if
    | with_reducible apply hide_if1
    | split
    | (rw [forEach_hide])
    | (rw [foldl_hide])
    | (rw [foldlS_hide])
    | (intro; intros; try dsimp only)
    | (simp only [hide_ite, ite_self, ite_fst, implies_true, eq_self, h_gs, h_tel, forEach_hide, ask_hide])

theorem track_hide (h_ch : M .ch = true) (s : State) (ch : Nat) (k : Key) (ver lines : Nat) : hide M (State.track s ch k ver lines) = hide M s := by
  unfold State.track
  simp only [eq_self, h_ch, onCh_hide]

theorem readCopy_hide (h_ch : M .ch = true) (h_gs : M .gs = true) (h_tel : M .tel = true) (s : State) (w : Way) (n : Nat) (bobbin : Bool) : hide M (State.readCopy s w n bobbin) = hide M s := by
  unfold State.readCopy
  try dsimp only
  repeat' first
    | with_reducible rfl
    | (simp only [hide_ite, ite_self, ite_fst, implies_true, eq_self, h_ch, h_gs, h_tel, forEach_hide, noteRead_hide, track_hide]; done)
    | with_reducible apply hide_if
    | with_reducible apply hide_if1
    | split
    | (rw [forEach_hide])
    | (rw [foldl_hide])
    | (rw [foldlS_hide])
    | (intro; intros; try dsimp only)
    | (simp only [hide_ite, ite_self, ite_fst, implies_true, eq_self, h_ch, h_gs, h_tel, forEach_hide, noteRead_hide, track_hide])

theorem writeSlot_hide (h_gs : M .gs = true) (h_mem : M .mem = true) (h_tel : M .tel = true) (s : State) (w : Way) (b : Bytes) : hide M (State.writeSlot s w b) = hide M s := by
  unfold State.writeSlot
  simp only [implies_true, eq_self, h_gs, h_mem, h_tel, forEach_hide, noteWrite_hide, writeSlotAt_hide]

theorem writePinned_hide (h_gs : M .gs = true) (h_mem : M .mem = true) (h_tel : M .tel = true) (s : State) (o : Nat) (b : Bytes) : hide M (State.writePinned s o b) = hide M s := by
  unfold State.writePinned
  simp only [implies_true, eq_self, h_gs, h_mem, h_tel, forEach_hide, noteWrite_hide, writePin_hide]

theorem notePinned_hide (h_gs : M .gs = true) (h_tel : M .tel = true) (s : State) (o n : Nat) (bobbin : Bool) : hide M (State.notePinned s o n bobbin) = hide M s := by
  unfold State.notePinned
  try dsimp only
  repeat' first
    | with_reducible rfl
    | (simp only [hide_ite, ite_self, ite_fst, implies_true, eq_self, h_gs, h_tel, forEach_hide, noteRead_hide]; done)
    | with_reducible apply hide_if
    | with_reducible apply hide_if1
    | split
    | (rw [forEach_hide])
    | (rw [foldl_hide])
    | (rw [foldlS_hide])
    | (intro; intros; try dsimp only)
    | (simp only [hide_ite, ite_self, ite_fst, implies_true, eq_self, h_gs, h_tel, forEach_hide, noteRead_hide])

theorem noteScratch_hide (h_gs : M .gs = true) (h_tel : M .tel = true) (s : State) (area x n : Nat) (write : Bool) : hide M (State.noteScratch s area x n write) = hide M s := by
  unfold State.noteScratch
  try dsimp only
  repeat' first
    | with_reducible rfl
    | (simp only [hide_ite, ite_self, ite_fst, implies_true, eq_self, h_gs, h_tel, forEach_hide, noteRead_hide, noteWrite_hide]; done)
    | with_reducible apply hide_if
    | with_reducible apply hide_if1
    | split
    | (rw [forEach_hide])
    | (rw [foldl_hide])
    | (rw [foldlS_hide])
    | (intro; intros; try dsimp only)
    | (simp only [hide_ite, ite_self, ite_fst, implies_true, eq_self, h_gs, h_tel, forEach_hide, noteRead_hide, noteWrite_hide])

theorem cacheTable_hide (h_tb : M .tb = true) (s : State) (h : Nat) : hide M (State.cacheTable s h) = hide M s := by
  unfold State.cacheTable
  try dsimp only
  repeat' first
    | with_reducible rfl
    | (simp only [hide_ite, ite_self, ite_fst, implies_true, eq_self, h_tb, onTb_hide]; done)
    | with_reducible apply hide_if
    | with_reducible apply hide_if1
    | split
    | (rw [forEach_hide])
    | (rw [foldl_hide])
    | (rw [foldlS_hide])
    | (intro; intros; try dsimp only)
    | (simp only [hide_ite, ite_self, ite_fst, implies_true, eq_self, h_tb, onTb_hide])

theorem seeTable_hide (h_tb : M .tb = true) (h_gs : M .gs = true) (h_tel : M .tel = true) (s : State) (h : Nat) : hide M (State.seeTable s h) = hide M s := by
  unfold State.seeTable
  try dsimp only
  repeat' first
    | with_reducible rfl
    | (simp only [hide_ite, ite_self, ite_fst, implies_true, eq_self, h_tb, h_gs, h_tel, cacheTable_hide, noteScratch_hide]; done)
    | with_reducible apply hide_if
    | with_reducible apply hide_if1
    | split
    | (rw [forEach_hide])
    | (rw [foldl_hide])
    | (rw [foldlS_hide])
    | (intro; intros; try dsimp only)
    | (simp only [hide_ite, ite_self, ite_fst, implies_true, eq_self, h_tb, h_gs, h_tel, cacheTable_hide, noteScratch_hide])

theorem writeTable_hide (h_tb : M .tb = true) (h_gs : M .gs = true) (h_tel : M .tel = true) (s : State) (h : Nat) : hide M (State.writeTable s h) = hide M s := by
  unfold State.writeTable
  try dsimp only
  repeat' first
    | with_reducible rfl
    | (simp only [hide_ite, ite_self, ite_fst, implies_true, eq_self, h_tb, h_gs, h_tel, cacheTable_hide, noteScratch_hide]; done)
    | with_reducible apply hide_if
    | with_reducible apply hide_if1
    | split
    | (rw [forEach_hide])
    | (rw [foldl_hide])
    | (rw [foldlS_hide])
    | (intro; intros; try dsimp only)
    | (simp only [hide_ite, ite_self, ite_fst, implies_true, eq_self, h_tb, h_gs, h_tel, cacheTable_hide, noteScratch_hide])

theorem noteTwin_hide (h_gs : M .gs = true) (h_tel : M .tel = true) (s : State) (k : Key) (ch n : Nat) (write : Bool) : hide M (State.noteTwin s k ch n write) = hide M s := by
  unfold State.noteTwin
  try dsimp only
  repeat' first
    | with_reducible rfl
    | (simp only [hide_ite, ite_self, ite_fst, implies_true, eq_self, h_gs, h_tel, forEach_hide, noteRead_hide, noteWrite_hide]; done)
    | with_reducible apply hide_if
    | with_reducible apply hide_if1
    | split
    | (rw [forEach_hide])
    | (rw [foldl_hide])
    | (rw [foldlS_hide])
    | (intro; intros; try dsimp only)
    | (simp only [hide_ite, ite_self, ite_fst, implies_true, eq_self, h_gs, h_tel, forEach_hide, noteRead_hide, noteWrite_hide])

theorem addLoad_hide (h_ch : M .ch = true) (s : State) (ch : Nat) (l : List (Nat × Nat)) : hide M (State.addLoad s ch l) = hide M s := by
  unfold State.addLoad
  try dsimp only
  repeat' first
    | with_reducible rfl
    | (simp only [hide_ite, ite_self, ite_fst, implies_true, eq_self, h_ch, onCh_hide]; done)
    | with_reducible apply hide_if
    | with_reducible apply hide_if1
    | split
    | (rw [forEach_hide])
    | (rw [foldl_hide])
    | (rw [foldlS_hide])
    | (intro; intros; try dsimp only)
    | (simp only [hide_ite, ite_self, ite_fst, implies_true, eq_self, h_ch, onCh_hide])

theorem touchHead_hide (h_ch : M .ch = true) (h_gs : M .gs = true) (h_tel : M .tel = true) (s : State) (ch set : Nat) (changed : Bool) : hide M (State.touchHead s ch set changed) = hide M s := by
  unfold State.touchHead
  try dsimp only
  repeat' first
    | with_reducible rfl
    | (simp only [hide_ite, ite_self, ite_fst, implies_true, eq_self, h_ch, h_gs, h_tel, count_hide, noteRead_hide, noteWrite_hide, onCh_hide]; done)
    | with_reducible apply hide_if
    | with_reducible apply hide_if1
    | split
    | (rw [forEach_hide])
    | (rw [foldl_hide])
    | (rw [foldlS_hide])
    | (intro; intros; try dsimp only)
    | (simp only [hide_ite, ite_self, ite_fst, implies_true, eq_self, h_ch, h_gs, h_tel, count_hide, noteRead_hide, noteWrite_hide, onCh_hide])

theorem markHead_hide (h_ch : M .ch = true) (h_gs : M .gs = true) (h_tel : M .tel = true) (s : State) (ch set : Nat) : hide M (State.markHead s ch set) = hide M s := by
  unfold State.markHead
  try dsimp only
  repeat' first
    | with_reducible rfl
    | (simp only [hide_ite, ite_self, ite_fst, implies_true, eq_self, h_ch, h_gs, h_tel, onCh_hide, touchHead_hide]; done)
    | with_reducible apply hide_if
    | with_reducible apply hide_if1
    | split
    | (rw [forEach_hide])
    | (rw [foldl_hide])
    | (rw [foldlS_hide])
    | (intro; intros; try dsimp only)
    | (simp only [hide_ite, ite_self, ite_fst, implies_true, eq_self, h_ch, h_gs, h_tel, onCh_hide, touchHead_hide])

theorem seeHead_hide (h_ch : M .ch = true) (h_gs : M .gs = true) (h_tel : M .tel = true) (s : State) (ch set : Nat) : hide M (State.seeHead s ch set) = hide M s := by
  unfold State.seeHead
  try dsimp only
  repeat' first
    | with_reducible rfl
    | (simp only [hide_ite, ite_self, ite_fst, implies_true, eq_self, h_ch, h_gs, h_tel, touchHead_hide]; done)
    | with_reducible apply hide_if
    | with_reducible apply hide_if1
    | split
    | (rw [forEach_hide])
    | (rw [foldl_hide])
    | (rw [foldlS_hide])
    | (intro; intros; try dsimp only)
    | (simp only [hide_ite, ite_self, ite_fst, implies_true, eq_self, h_ch, h_gs, h_tel, touchHead_hide])

theorem sweepHeads_hide (h_ch : M .ch = true) (h_tel : M .tel = true) (s : State) (skip : List (Nat × Nat)) (ch : Nat) : hide M (State.sweepHeads s skip ch) = hide M s := by
  unfold State.sweepHeads
  try dsimp only
  repeat' first
    | with_reducible rfl
    | (simp only [hide_ite, ite_self, ite_fst, implies_true, eq_self, h_ch, h_tel, count_hide, onCh_hide, tell_hide]; done)
    | with_reducible apply hide_if
    | with_reducible apply hide_if1
    | split
    | (rw [forEach_hide])
    | (rw [foldl_hide])
    | (rw [foldlS_hide])
    | (intro; intros; try dsimp only)
    | (simp only [hide_ite, ite_self, ite_fst, implies_true, eq_self, h_ch, h_tel, count_hide, onCh_hide, tell_hide])

theorem bumpSketch_hide (h_ch : M .ch = true) (s : State) (k : Key) : hide M (State.bumpSketch s k) = hide M s := by
  unfold State.bumpSketch
  simp only [eq_self, h_ch, onCh_hide]

theorem bump_hide (h_ch : M .ch = true) (h_gs : M .gs = true) (h_tel : M .tel = true) (s : State) (k : Key) : hide M (State.bump s k) = hide M s := by
  unfold State.bump
  try dsimp only
  repeat' first
    | with_reducible rfl
    | (simp only [hide_ite, ite_self, ite_fst, implies_true, eq_self, h_ch, h_gs, h_tel, bumpSketch_hide, markHead_hide, putWay_hide]; done)
    | with_reducible apply hide_if
    | with_reducible apply hide_if1
    | split
    | (rw [forEach_hide])
    | (rw [foldl_hide])
    | (rw [foldlS_hide])
    | (intro; intros; try dsimp only)
    | (simp only [hide_ite, ite_self, ite_fst, implies_true, eq_self, h_ch, h_gs, h_tel, bumpSketch_hide, markHead_hide, putWay_hide])

theorem onExtent_hide (h_tb : M .tb = true) (s : State) (e : Extent) (f : Extent → Extent) : hide M (State.onExtent s e f) = hide M s := by
  unfold State.onExtent
  simp only [eq_self, h_tb, onTb_hide]

theorem noteMaster_hide (h_ch : M .ch = true) (h_gs : M .gs = true) (h_tel : M .tel = true) (s : State) (t : Table) (k : Key) (ver : Nat) : hide M (State.noteMaster s t k ver) = hide M s := by
  unfold State.noteMaster
  try dsimp only
  repeat' first
    | with_reducible rfl
    | (simp only [hide_ite, ite_self, ite_fst, implies_true, eq_self, h_ch, h_gs, h_tel, notePinned_hide, readCopy_hide, touchHead_hide]; done)
    | with_reducible apply hide_if
    | with_reducible apply hide_if1
    | split
    | (rw [forEach_hide])
    | (rw [foldl_hide])
    | (rw [foldlS_hide])
    | (intro; intros; try dsimp only)
    | (simp only [hide_ite, ite_self, ite_fst, implies_true, eq_self, h_ch, h_gs, h_tel, notePinned_hide, readCopy_hide, touchHead_hide])

end Sys2Proof.Laws
end

