-- ==== Sys2Proof/Laws/CanonStore.lean ====
section
/-!
SUPPORT. What Machine/Store.lean defines keeps Ground store's bytes in canonical form.
-/

namespace Sys2Proof.Laws

open Sys2Proof.Machine

theorem writePin_canon (s : State) (o : Nat) (y0 : Bytes) (hs : Canon (hide butMem s)) : Canon (hide butMem (State.writePin s o y0)) := by
  induction y0 generalizing s o with
  | nil => exact hs
  | cons b t ih => exact ih _ _ (write_canon s (s.pinAddr o) b hs)

theorem writeSlotAt_canon (s : State) (w : Way) (j : Nat) (y0 : Bytes) (hs : Canon (hide butMem s)) : Canon (hide butMem (State.writeSlotAt s w j y0)) := by
  induction y0 generalizing s j with
  | nil => exact hs
  | cons b t ih => exact ih _ _ (write_canon s (s.slotAddr w j) b hs)

theorem writeSlot_canon (s : State) (w : Way) (b : Bytes) (hs : Canon (hide butMem s)) : Canon (hide butMem (State.writeSlot s w b)) := by
  unfold State.writeSlot
  try dsimp only
  repeat' first
    | with_reducible assumption
    | split
    | (with_reducible apply writeSlotAt_canon)
    | with_reducible apply forEach_canon
    | with_reducible apply foldl_canon
    | (intro; intros; try dsimp only)
    | (simp only [noteWrite_hide (M := butMem) rfl rfl])

theorem writePinned_canon (s : State) (o : Nat) (b : Bytes) (hs : Canon (hide butMem s)) : Canon (hide butMem (State.writePinned s o b)) := by
  unfold State.writePinned
  try dsimp only
  repeat' first
    | with_reducible assumption
    | split
    | (with_reducible apply writePin_canon)
    | with_reducible apply forEach_canon
    | with_reducible apply foldl_canon
    | (intro; intros; try dsimp only)
    | (simp only [noteWrite_hide (M := butMem) rfl rfl])

end Sys2Proof.Laws
end

