-- ==== Sys2Proof/Laws/FrameNvme.lean ====
section
/-!
SUPPORT. Frames of what Machine/Nvme.lean defines: the parts of the state that each may change.
-/

namespace Sys2Proof.Laws

open Sys2Proof.Machine

variable {M : Mask}

theorem onDrive_hide (h_fl : M .fl = true) (s : State) (d : Nat) (f : Drive → Drive) : hide M (State.onDrive s d f) = hide M s := by
  unfold State.onDrive
  simp only [eq_self, h_fl, onFl_hide]

theorem noteLand_hide (h_gs : M .gs = true) (h_tel : M .tel = true) (s : State) (ns lba a b : Nat) (write bobbin : Bool) : hide M (State.noteLand s ns lba a b write bobbin) = hide M s := by
  unfold State.noteLand
  try dsimp only
  repeat' first
    | with_reducible rfl
    | (simp only [hide_ite, ite_self, ite_fst, implies_true, eq_self, h_gs, h_tel, forEach_hide, noteRead_hide, noteWrite_hide]; done)
    | with_reducible apply hide_if
    | with_reducible apply hide_if1
    | split
    | (rw [forEach_hide])
    | (rw [foldl_hide])
    | (rw [foldlS_hide])
    | (intro; intros; try dsimp only)
    | (simp only [hide_ite, ite_self, ite_fst, implies_true, eq_self, h_gs, h_tel, forEach_hide, noteRead_hide, noteWrite_hide])

theorem stageWrite_hide (h_gs : M .gs = true) (h_tel : M .tel = true) (s : State) (c : NvCmd) : hide M (State.stageWrite s c) = hide M s := by
  unfold State.stageWrite
  try dsimp only
  repeat' first
    | with_reducible rfl
    | (simp only [hide_ite, ite_self, ite_fst, implies_true, eq_self, h_gs, h_tel, forEach_hide, noteLand_hide]; done)
    | with_reducible apply hide_if
    | with_reducible apply hide_if1
    | split
    | (rw [forEach_hide])
    | (rw [foldl_hide])
    | (rw [foldlS_hide])
    | (intro; intros; try dsimp only)
    | (simp only [hide_ite, ite_self, ite_fst, implies_true, eq_self, h_gs, h_tel, forEach_hide, noteLand_hide])

theorem queueCmd_hide (h_fl : M .fl = true) (s : State) (c : NvCmd) : hide M (State.queueCmd s c) = hide M s := by
  unfold State.queueCmd
  try dsimp only
  repeat' first
    | with_reducible rfl
    | (simp only [hide_ite, ite_self, ite_fst, implies_true, eq_self, h_fl, onFl_hide]; done)
    | with_reducible apply hide_if
    | with_reducible apply hide_if1
    | split
    | (rw [forEach_hide])
    | (rw [foldl_hide])
    | (rw [foldlS_hide])
    | (intro; intros; try dsimp only)
    | (simp only [hide_ite, ite_self, ite_fst, implies_true, eq_self, h_fl, onFl_hide])

theorem flushNs_hide (h_fl : M .fl = true) (s : State) (nsid : Nat) (o : CmdFor) : hide M (State.flushNs s nsid o) = hide M s := by
  unfold State.flushNs
  try dsimp only
  repeat' first
    | with_reducible rfl
    | (simp only [hide_ite, ite_self, ite_fst, implies_true, eq_self, h_fl, queueCmd_hide]; done)
    | with_reducible apply hide_if
    | with_reducible apply hide_if1
    | split
    | (rw [forEach_hide])
    | (rw [foldl_hide])
    | (rw [foldlS_hide])
    | (intro; intros; try dsimp only)
    | (simp only [hide_ite, ite_self, ite_fst, implies_true, eq_self, h_fl, queueCmd_hide])

theorem sendCmd_hide (h_fl : M .fl = true) (h_out : M .out = true) (s : State) (c : NvCmd) : hide M (State.sendCmd s c) = hide M s := by
  unfold State.sendCmd
  try dsimp only
  repeat' first
    | with_reducible rfl
    | (simp only [hide_ite, ite_self, ite_fst, implies_true, eq_self, h_fl, h_out, onDrive_hide, send_hide]; done)
    | with_reducible apply hide_if
    | with_reducible apply hide_if1
    | split
    | (rw [forEach_hide])
    | (rw [foldl_hide])
    | (rw [foldlS_hide])
    | (intro; intros; try dsimp only)
    | (simp only [hide_ite, ite_self, ite_fst, implies_true, eq_self, h_fl, h_out, onDrive_hide, send_hide])

theorem submit_hide (h_gs : M .gs = true) (h_fl : M .fl = true) (h_tel : M .tel = true) (h_out : M .out = true) (s : State) (c : NvCmd) : hide M (State.submit s c) = hide M s := by
  unfold State.submit
  try dsimp only
  repeat' first
    | with_reducible rfl
    | (simp only [hide_ite, ite_self, ite_fst, implies_true, eq_self, h_gs, h_fl, h_tel, h_out, sendCmd_hide, send_hide, stageWrite_hide]; done)
    | with_reducible apply hide_if
    | with_reducible apply hide_if1
    | split
    | (rw [forEach_hide])
    | (rw [foldl_hide])
    | (rw [foldlS_hide])
    | (intro; intros; try dsimp only)
    | (simp only [hide_ite, ite_self, ite_fst, implies_true, eq_self, h_gs, h_fl, h_tel, h_out, sendCmd_hide, send_hide, stageWrite_hide])

theorem sendAbort_hide (h_out : M .out = true) (s : State) (c : NvCmd) : hide M (State.sendAbort s c) = hide M s := by
  unfold State.sendAbort
  try dsimp only
  repeat' first
    | with_reducible rfl
    | (simp only [hide_ite, ite_self, ite_fst, implies_true, eq_self, h_out, send_hide]; done)
    | with_reducible apply hide_if
    | with_reducible apply hide_if1
    | split
    | (rw [forEach_hide])
    | (rw [foldl_hide])
    | (rw [foldlS_hide])
    | (intro; intros; try dsimp only)
    | (simp only [hide_ite, ite_self, ite_fst, implies_true, eq_self, h_out, send_hide])

theorem wholeCmd_hide (h_gs : M .gs = true) (h_fl : M .fl = true) (h_tel : M .tel = true) (h_out : M .out = true) (s : State) (c : NvCmd) (r : Tried) : hide M (State.wholeCmd s c r) = hide M s := by
  unfold State.wholeCmd
  try dsimp only
  repeat' first
    | with_reducible rfl
    | (simp only [hide_ite, ite_self, ite_fst, implies_true, eq_self, h_gs, h_fl, h_tel, h_out, forEach_hide, countN_hide, count_hide, onDrive_hide, onFl_hide, sendAbort_hide, submit_hide, tell_hide]; done)
    | with_reducible apply hide_if
    | with_reducible apply hide_if1
    | split
    | (rw [forEach_hide])
    | (rw [foldl_hide])
    | (rw [foldlS_hide])
    | (intro; intros; try dsimp only)
    | (simp only [hide_ite, ite_self, ite_fst, implies_true, eq_self, h_gs, h_fl, h_tel, h_out, forEach_hide, countN_hide, count_hide, onDrive_hide, onFl_hide, sendAbort_hide, submit_hide, tell_hide])

end Sys2Proof.Laws
end

