-- ==== Sys2Proof/Laws/FramePlace.lean ====
section
/-!
SUPPORT. Frames of what Machine/Place.lean defines: the parts of the state that each may change.
-/

namespace Sys2Proof.Laws

open Sys2Proof.Machine

variable {M : Mask}

theorem fetchBacking_hide (h_gs : M .gs = true) (h_fl : M .fl = true) (h_tel : M .tel = true) (h_out : M .out = true) (s : State) (t : Table) (v : Version) (k : Key) (r : Tried) : hide M (State.fetchBacking s t v k r) = hide M s := by
  unfold State.fetchBacking
  try dsimp only
  repeat' first
    | with_reducible rfl
    | (simp only [hide_ite, ite_self, ite_fst, implies_true, eq_self, h_gs, h_fl, h_tel, h_out, send_hide, wholeCmd_hide]; done)
    | with_reducible apply hide_if
    | with_reducible apply hide_if1
    | split
    | (rw [forEach_hide])
    | (rw [foldl_hide])
    | (rw [foldlS_hide])
    | (intro; intros; try dsimp only)
    | (simp only [hide_ite, ite_self, ite_fst, implies_true, eq_self, h_gs, h_fl, h_tel, h_out, send_hide, wholeCmd_hide])

theorem readBacking_hide (h_gs : M .gs = true) (h_fl : M .fl = true) (h_tel : M .tel = true) (h_out : M .out = true) (s : State) (t : Table) (v : Version) (k : Key) (src : RowSrc) (asked : Bool) : hide M (State.readBacking s t v k src asked).1 = hide M s := by
  unfold State.readBacking
  try dsimp only
  repeat' first
    | with_reducible rfl
    | (simp only [hide_ite, ite_self, ite_fst, implies_true, eq_self, h_gs, h_fl, h_tel, h_out, countN_hide, count_hide, fetchBacking_hide]; done)
    | with_reducible apply hide_if
    | with_reducible apply hide_if1
    | split
    | (rw [forEach_hide])
    | (rw [foldl_hide])
    | (rw [foldlS_hide])
    | (intro; intros; try dsimp only)
    | (simp only [hide_ite, ite_self, ite_fst, implies_true, eq_self, h_gs, h_fl, h_tel, h_out, countN_hide, count_hide, fetchBacking_hide])

theorem encCopy_hide (h_tel : M .tel = true) (s : State) (t : Table) (record : Bytes) (g : Grade) : hide M (State.encCopy s t record g).1 = hide M s := by
  unfold State.encCopy
  try dsimp only
  repeat' first
    | with_reducible rfl
    | (simp only [hide_ite, ite_self, ite_fst, implies_true, eq_self, h_tel, count_hide, tell_hide]; done)
    | with_reducible apply hide_if
    | with_reducible apply hide_if1
    | split
    | (rw [forEach_hide])
    | (rw [foldl_hide])
    | (rw [foldlS_hide])
    | (intro; intros; try dsimp only)
    | (simp only [hide_ite, ite_self, ite_fst, implies_true, eq_self, h_tel, count_hide, tell_hide])

theorem dropRedir_hide (h_ch : M .ch = true) (s : State) (k : Key) (ver : Nat) : hide M (State.dropRedir s k ver) = hide M s := by
  unfold State.dropRedir
  simp only [eq_self, h_ch, onCh_hide]

theorem dropWays_hide (h_ch : M .ch = true) (h_gs : M .gs = true) (h_tel : M .tel = true) (s : State) (l : List Way) : hide M (State.dropWays s l) = hide M s := by
  unfold State.dropWays
  try dsimp only
  repeat' first
    | with_reducible rfl
    | (simp only [hide_ite, ite_self, ite_fst, implies_true, eq_self, h_ch, h_gs, h_tel, forEach_hide, freeWay_hide, markHead_hide]; done)
    | with_reducible apply hide_if
    | with_reducible apply hide_if1
    | split
    | (rw [forEach_hide])
    | (rw [foldl_hide])
    | (rw [foldlS_hide])
    | (intro; intros; try dsimp only)
    | (simp only [hide_ite, ite_self, ite_fst, implies_true, eq_self, h_ch, h_gs, h_tel, forEach_hide, freeWay_hide, markHead_hide])

theorem leaveGhost_hide (h_ch : M .ch = true) (s : State) (w : Way) : hide M (State.leaveGhost s w) = hide M s := by
  unfold State.leaveGhost
  try dsimp only
  repeat' first
    | with_reducible rfl
    | (simp only [hide_ite, ite_self, ite_fst, implies_true, eq_self, h_ch, putWay_hide]; done)
    | with_reducible apply hide_if
    | with_reducible apply hide_if1
    | split
    | (rw [forEach_hide])
    | (rw [foldl_hide])
    | (rw [foldlS_hide])
    | (intro; intros; try dsimp only)
    | (simp only [hide_ite, ite_self, ite_fst, implies_true, eq_self, h_ch, putWay_hide])

theorem dropRegrade_hide (h_tb : M .tb = true) (h_tel : M .tel = true) (s : State) (p : Regrade → Bool) : hide M (State.dropRegrade s p) = hide M s := by
  unfold State.dropRegrade
  try dsimp only
  repeat' first
    | with_reducible rfl
    | (simp only [hide_ite, ite_self, ite_fst, implies_true, eq_self, h_tb, h_tel, countN_hide, onTb_hide]; done)
    | with_reducible apply hide_if
    | with_reducible apply hide_if1
    | split
    | (rw [forEach_hide])
    | (rw [foldl_hide])
    | (rw [foldlS_hide])
    | (intro; intros; try dsimp only)
    | (simp only [hide_ite, ite_self, ite_fst, implies_true, eq_self, h_tb, h_tel, countN_hide, onTb_hide])

theorem dropRow_hide (h_tb : M .tb = true) (h_up : M .up = true) (h_ch : M .ch = true) (h_gs : M .gs = true) (h_tel : M .tel = true) (s : State) (k : Key) (ver : Nat) (ghost : Bool) : hide M (State.dropRow s k ver ghost) = hide M s := by
  unfold State.dropRow
  try dsimp only
  repeat' first
    | with_reducible rfl
    | (simp only [hide_ite, ite_self, ite_fst, implies_true, eq_self, h_tb, h_up, h_ch, h_gs, h_tel, countN_hide, dropRedir_hide, dropRegrade_hide, dropWays_hide, leaveGhost_hide, onUp_hide]; done)
    | with_reducible apply hide_if
    | with_reducible apply hide_if1
    | split
    | (rw [forEach_hide])
    | (rw [foldl_hide])
    | (rw [foldlS_hide])
    | (intro; intros; try dsimp only)
    | (simp only [hide_ite, ite_self, ite_fst, implies_true, eq_self, h_tb, h_up, h_ch, h_gs, h_tel, countN_hide, dropRedir_hide, dropRegrade_hide, dropWays_hide, leaveGhost_hide, onUp_hide])

theorem dropReplicas_hide (h_ch : M .ch = true) (h_gs : M .gs = true) (h_tel : M .tel = true) (s : State) (k : Key) (ver n : Nat) : hide M (State.dropReplicas s k ver n) = hide M s := by
  unfold State.dropReplicas
  try dsimp only
  repeat' first
    | with_reducible rfl
    | (simp only [hide_ite, ite_self, ite_fst, implies_true, eq_self, h_ch, h_gs, h_tel, countN_hide, dropWays_hide, onCh_hide]; done)
    | with_reducible apply hide_if
    | with_reducible apply hide_if1
    | split
    | (rw [forEach_hide])
    | (rw [foldl_hide])
    | (rw [foldlS_hide])
    | (intro; intros; try dsimp only)
    | (simp only [hide_ite, ite_self, ite_fst, implies_true, eq_self, h_ch, h_gs, h_tel, countN_hide, dropWays_hide, onCh_hide])

theorem setDirty_hide (h_ch : M .ch = true) (h_gs : M .gs = true) (h_tel : M .tel = true) (s : State) (k : Key) (ver : Nat) (on : Bool) : hide M (State.setDirty s k ver on) = hide M s := by
  unfold State.setDirty
  try dsimp only
  repeat' first
    | with_reducible rfl
    | (simp only [hide_ite, ite_self, ite_fst, implies_true, eq_self, h_ch, h_gs, h_tel, markHead_hide, putWay_hide]; done)
    | with_reducible apply hide_if
    | with_reducible apply hide_if1
    | split
    | (rw [forEach_hide])
    | (rw [foldl_hide])
    | (rw [foldlS_hide])
    | (intro; intros; try dsimp only)
    | (simp only [hide_ite, ite_self, ite_fst, implies_true, eq_self, h_ch, h_gs, h_tel, markHead_hide, putWay_hide])

theorem clean_hide (h_tb : M .tb = true) (h_up : M .up = true) (h_ch : M .ch = true) (h_gs : M .gs = true) (h_tel : M .tel = true) (s : State) (k : Key) (ver : Nat) : hide M (State.clean s k ver) = hide M s := by
  unfold State.clean
  try dsimp only
  repeat' first
    | with_reducible rfl
    | (simp only [hide_ite, ite_self, ite_fst, implies_true, eq_self, h_tb, h_up, h_ch, h_gs, h_tel, onExtent_hide, onUp_hide, setDirty_hide]; done)
    | with_reducible apply hide_if
    | with_reducible apply hide_if1
    | split
    | (rw [forEach_hide])
    | (rw [foldl_hide])
    | (rw [foldlS_hide])
    | (intro; intros; try dsimp only)
    | (simp only [hide_ite, ite_self, ite_fst, implies_true, eq_self, h_tb, h_up, h_ch, h_gs, h_tel, onExtent_hide, onUp_hide, setDirty_hide])

theorem setBand_hide (h_ch : M .ch = true) (s : State) (k : Key) (ver b : Nat) : hide M (State.setBand s k ver b) = hide M s := by
  unfold State.setBand
  try dsimp only
  repeat' first
    | with_reducible rfl
    | (simp only [hide_ite, ite_self, ite_fst, implies_true, eq_self, h_ch, onWays_hide]; done)
    | with_reducible apply hide_if
    | with_reducible apply hide_if1
    | split
    | (rw [forEach_hide])
    | (rw [foldl_hide])
    | (rw [foldlS_hide])
    | (intro; intros; try dsimp only)
    | (simp only [hide_ite, ite_self, ite_fst, implies_true, eq_self, h_ch, onWays_hide])

theorem dropDirect_hide (h_tb : M .tb = true) (h_up : M .up = true) (h_ch : M .ch = true) (h_gs : M .gs = true) (h_tel : M .tel = true) (s : State) (t : Table) (k : Key) (ver : Nat) : hide M (State.dropDirect s t k ver) = hide M s := by
  unfold State.dropDirect
  try dsimp only
  repeat' first
    | with_reducible rfl
    | (simp only [hide_ite, ite_self, ite_fst, implies_true, eq_self, h_tb, h_up, h_ch, h_gs, h_tel, dropRow_hide]; done)
    | with_reducible apply hide_if
    | with_reducible apply hide_if1
    | split
    | (rw [forEach_hide])
    | (rw [foldl_hide])
    | (rw [foldlS_hide])
    | (intro; intros; try dsimp only)
    | (simp only [hide_ite, ite_self, ite_fst, implies_true, eq_self, h_tb, h_up, h_ch, h_gs, h_tel, dropRow_hide])

theorem failWrite_hide (h_up : M .up = true) (h_tel : M .tel = true) (s : State) (t : Table) (v : Version) (k : Key) (status : BitVec 8) (tried : Bool) : hide M (State.failWrite s t v k status tried) = hide M s := by
  unfold State.failWrite
  try dsimp only
  repeat' first
    | with_reducible rfl
    | (simp only [hide_ite, ite_self, ite_fst, implies_true, eq_self, h_up, h_tel, count_hide, onUp_hide, tell_hide]; done)
    | with_reducible apply hide_if
    | with_reducible apply hide_if1
    | split
    | (rw [forEach_hide])
    | (rw [foldl_hide])
    | (rw [foldlS_hide])
    | (intro; intros; try dsimp only)
    | (simp only [hide_ite, ite_self, ite_fst, implies_true, eq_self, h_up, h_tel, count_hide, onUp_hide, tell_hide])

theorem readBlock_hide (h_gs : M .gs = true) (h_fl : M .fl = true) (h_tel : M .tel = true) (h_out : M .out = true) (s : State) (t : Table) (v : Version) (lba : Nat) (rows : List (Nat × Option Bytes)) : hide M (State.readBlock s t v lba rows) = hide M s := by
  unfold State.readBlock
  try dsimp only
  repeat' first
    | with_reducible rfl
    | (simp only [hide_ite, ite_self, ite_fst, implies_true, eq_self, h_gs, h_fl, h_tel, h_out, wholeCmd_hide]; done)
    | with_reducible apply hide_if
    | with_reducible apply hide_if1
    | split
    | (rw [forEach_hide])
    | (rw [foldl_hide])
    | (rw [foldlS_hide])
    | (intro; intros; try dsimp only)
    | (simp only [hide_ite, ite_self, ite_fst, implies_true, eq_self, h_gs, h_fl, h_tel, h_out, wholeCmd_hide])

theorem writeBlock_hide (h_ch : M .ch = true) (h_gs : M .gs = true) (h_fl : M .fl = true) (h_tel : M .tel = true) (h_out : M .out = true) (s : State) (t : Table) (v : Version) (k : Key) (r : Tried) : hide M (State.writeBlock s t v k r) = hide M s := by
  unfold State.writeBlock
  try dsimp only
  repeat' first
    | with_reducible rfl
    | (simp only [hide_ite, ite_self, ite_fst, implies_true, eq_self, h_ch, h_gs, h_fl, h_tel, h_out, forEach_hide, noteMaster_hide, readBlock_hide, wholeCmd_hide]; done)
    | with_reducible apply hide_if
    | with_reducible apply hide_if1
    | split
    | (rw [forEach_hide])
    | (rw [foldl_hide])
    | (rw [foldlS_hide])
    | (intro; intros; try dsimp only)
    | (simp only [hide_ite, ite_self, ite_fst, implies_true, eq_self, h_ch, h_gs, h_fl, h_tel, h_out, forEach_hide, noteMaster_hide, readBlock_hide, wholeCmd_hide])

theorem writeBackRow_hide (h_tb : M .tb = true) (h_up : M .up = true) (h_ch : M .ch = true) (h_gs : M .gs = true) (h_fl : M .fl = true) (h_tel : M .tel = true) (h_out : M .out = true) (s : State) (t : Table) (v : Version) (k : Key) (res : Tried) : hide M (State.writeBackRow s t v k res).1 = hide M s := by
  unfold State.writeBackRow
  try dsimp only
  repeat' first
    | with_reducible rfl
    | (simp only [hide_ite, ite_self, ite_fst, implies_true, eq_self, h_tb, h_up, h_ch, h_gs, h_fl, h_tel, h_out, forEach_hide, clean_hide, count_hide, dropDirect_hide, failWrite_hide, noteMaster_hide, send_hide, writeBlock_hide]; done)
    | with_reducible apply hide_if
    | with_reducible apply hide_if1
    | split
    | (rw [forEach_hide])
    | (rw [foldl_hide])
    | (rw [foldlS_hide])
    | (intro; intros; try dsimp only)
    | (simp only [hide_ite, ite_self, ite_fst, implies_true, eq_self, h_tb, h_up, h_ch, h_gs, h_fl, h_tel, h_out, forEach_hide, clean_hide, count_hide, dropDirect_hide, failWrite_hide, noteMaster_hide, send_hide, writeBlock_hide])

theorem evictWay_hide (h_tb : M .tb = true) (h_up : M .up = true) (h_ch : M .ch = true) (h_gs : M .gs = true) (h_fl : M .fl = true) (h_tel : M .tel = true) (h_out : M .out = true) (s : State) (w : Way) (fails : WbFails) (ghost : Bool) : hide M (State.evictWay s w fails ghost).1 = hide M s := by
  unfold State.evictWay
  try dsimp only
  repeat' first
    | with_reducible rfl
    | (simp only [hide_ite, ite_self, ite_fst, implies_true, eq_self, h_tb, h_up, h_ch, h_gs, h_fl, h_tel, h_out, count_hide, dropRow_hide, dropWay_hide, markHead_hide, putWay_hide, tell_hide, writeBackRow_hide]; done)
    | with_reducible apply hide_if
    | with_reducible apply hide_if1
    | split
    | (rw [forEach_hide])
    | (rw [foldl_hide])
    | (rw [foldlS_hide])
    | (intro; intros; try dsimp only)
    | (simp only [hide_ite, ite_self, ite_fst, implies_true, eq_self, h_tb, h_up, h_ch, h_gs, h_fl, h_tel, h_out, count_hide, dropRow_hide, dropWay_hide, markHead_hide, putWay_hide, tell_hide, writeBackRow_hide])

theorem emptyArea_hide (h_tb : M .tb = true) (h_up : M .up = true) (h_ch : M .ch = true) (h_gs : M .gs = true) (h_fl : M .fl = true) (h_tel : M .tel = true) (h_out : M .out = true) (s : State) (l : List Way) (fails : WbFails) : hide M (State.emptyArea s l fails).1 = hide M s := by
  fun_induction State.emptyArea s l fails
  all_goals
    repeat' first
      | with_reducible rfl
      | assumption
      | (simp +zetaDelta only [*, hide_ite, ite_self, ite_fst, implies_true, eq_self, h_tb, h_up, h_ch, h_gs, h_fl, h_tel, h_out, evictWay_hide]; done)
      | with_reducible apply hide_if
      | with_reducible apply hide_if1
      | split
      | (rw [forEach_hide])
      | (rw [foldl_hide])
      | (rw [foldlS_hide])
      | (intro; intros; try dsimp only)
      | (simp +zetaDelta only [*, hide_ite, ite_self, ite_fst, implies_true, eq_self, h_tb, h_up, h_ch, h_gs, h_fl, h_tel, h_out, evictWay_hide])

theorem reclaimFrom_hide (h_tb : M .tb = true) (h_up : M .up = true) (h_ch : M .ch = true) (h_gs : M .gs = true) (h_fl : M .fl = true) (h_tel : M .tel = true) (h_out : M .out = true) (s : State) (ch n : Nat) (pop : Option Nat) (k : Key) (ver : Nat) (fails : WbFails) (y0 : Nat) (y1 : Nat) : hide M (State.reclaimFrom s ch n pop k ver fails y0 y1).1 = hide M s := by
  fun_induction State.reclaimFrom s ch n pop k ver fails y0 y1
  all_goals
    repeat' first
      | with_reducible rfl
      | assumption
      | (simp +zetaDelta only [*, hide_ite, ite_self, ite_fst, implies_true, eq_self, h_tb, h_up, h_ch, h_gs, h_fl, h_tel, h_out, countN_hide, emptyArea_hide, onCh_hide]; done)
      | with_reducible apply hide_if
      | with_reducible apply hide_if1
      | split
      | (rw [forEach_hide])
      | (rw [foldl_hide])
      | (rw [foldlS_hide])
      | (intro; intros; try dsimp only)
      | (simp +zetaDelta only [*, hide_ite, ite_self, ite_fst, implies_true, eq_self, h_tb, h_up, h_ch, h_gs, h_fl, h_tel, h_out, countN_hide, emptyArea_hide, onCh_hide])

theorem takeSlot_hide (h_tb : M .tb = true) (h_up : M .up = true) (h_ch : M .ch = true) (h_gs : M .gs = true) (h_fl : M .fl = true) (h_tel : M .tel = true) (h_out : M .out = true) (s : State) (ch size : Nat) (reclaim : Bool) (pop : Option Nat) (k : Key) (ver : Nat) (fails : WbFails) : hide M (State.takeSlot s ch size reclaim pop k ver fails).1 = hide M s := by
  unfold State.takeSlot
  try dsimp only
  repeat' first
    | with_reducible rfl
    | (simp only [hide_ite, ite_self, ite_fst, implies_true, eq_self, h_tb, h_up, h_ch, h_gs, h_fl, h_tel, h_out, reclaimFrom_hide]; done)
    | with_reducible apply hide_if
    | with_reducible apply hide_if1
    | split
    | (rw [forEach_hide])
    | (rw [foldl_hide])
    | (rw [foldlS_hide])
    | (intro; intros; try dsimp only)
    | (simp only [hide_ite, ite_self, ite_fst, implies_true, eq_self, h_tb, h_up, h_ch, h_gs, h_fl, h_tel, h_out, reclaimFrom_hide])

theorem takeWay_hide (h_tb : M .tb = true) (h_up : M .up = true) (h_ch : M .ch = true) (h_gs : M .gs = true) (h_fl : M .fl = true) (h_tel : M .tel = true) (h_out : M .out = true) (s : State) (ch set : Nat) (k : Key) (ver : Nat) (e : Entry') (fails : WbFails) (y0 : Nat) : hide M (State.takeWay s ch set k ver e fails y0).1 = hide M s := by
  fun_induction State.takeWay s ch set k ver e fails y0
  all_goals
    repeat' first
      | with_reducible rfl
      | assumption
      | (simp +zetaDelta only [*, hide_ite, ite_self, ite_fst, implies_true, eq_self, h_tb, h_up, h_ch, h_gs, h_fl, h_tel, h_out, evictWay_hide]; done)
      | with_reducible apply hide_if
      | with_reducible apply hide_if1
      | split
      | (rw [forEach_hide])
      | (rw [foldl_hide])
      | (rw [foldlS_hide])
      | (intro; intros; try dsimp only)
      | (simp +zetaDelta only [*, hide_ite, ite_self, ite_fst, implies_true, eq_self, h_tb, h_up, h_ch, h_gs, h_fl, h_tel, h_out, evictWay_hide])

theorem placeCopy_hide (h_tb : M .tb = true) (h_up : M .up = true) (h_ch : M .ch = true) (h_gs : M .gs = true) (h_mem : M .mem = true) (h_fl : M .fl = true) (h_tel : M .tel = true) (h_out : M .out = true) (s : State) (ch : Nat) (k : Key) (ver : Nat) (kind : WayKind) (g : Grade) (b : Bytes) (freq repl : Nat) (e : Entry') (fails : WbFails) : hide M (State.placeCopy s ch k ver kind g b freq repl e fails).1 = hide M s := by
  unfold State.placeCopy
  try dsimp only
  repeat' first
    | with_reducible rfl
    | (simp only [hide_ite, ite_self, ite_fst, implies_true, eq_self, h_tb, h_up, h_ch, h_gs, h_mem, h_fl, h_tel, h_out, markHead_hide, putWay_hide, takeSlot_hide, takeWay_hide, touchHead_hide, writeSlot_hide]; done)
    | with_reducible apply hide_if
    | with_reducible apply hide_if1
    | split
    | (rw [forEach_hide])
    | (rw [foldl_hide])
    | (rw [foldlS_hide])
    | (intro; intros; try dsimp only)
    | (simp only [hide_ite, ite_self, ite_fst, implies_true, eq_self, h_tb, h_up, h_ch, h_gs, h_mem, h_fl, h_tel, h_out, markHead_hide, putWay_hide, takeSlot_hide, takeWay_hide, touchHead_hide, writeSlot_hide])

theorem bringIn_hide (h_tb : M .tb = true) (h_up : M .up = true) (h_ch : M .ch = true) (h_gs : M .gs = true) (h_mem : M .mem = true) (h_fl : M .fl = true) (h_tel : M .tel = true) (h_out : M .out = true) (s : State) (t : Table) (k : Key) (ver : Nat) (record : Bytes) (e : Entry') (fails : WbFails) : hide M (State.bringIn s t k ver record e fails).1 = hide M s := by
  unfold State.bringIn
  try dsimp only
  repeat' first
    | with_reducible rfl
    | (simp only [hide_ite, ite_self, ite_fst, implies_true, eq_self, h_tb, h_up, h_ch, h_gs, h_mem, h_fl, h_tel, h_out, dropWays_hide, encCopy_hide, placeCopy_hide, setBand_hide]; done)
    | with_reducible apply hide_if
    | with_reducible apply hide_if1
    | split
    | (rw [forEach_hide])
    | (rw [foldl_hide])
    | (rw [foldlS_hide])
    | (intro; intros; try dsimp only)
    | (simp only [hide_ite, ite_self, ite_fst, implies_true, eq_self, h_tb, h_up, h_ch, h_gs, h_mem, h_fl, h_tel, h_out, dropWays_hide, encCopy_hide, placeCopy_hide, setBand_hide])

theorem admitLookup_hide (h_tb : M .tb = true) (h_up : M .up = true) (h_ch : M .ch = true) (h_gs : M .gs = true) (h_mem : M .mem = true) (h_fl : M .fl = true) (h_tel : M .tel = true) (h_out : M .out = true) (s : State) (t : Table) (k : Key) (ver : Nat) (record : Bytes) (fails : WbFails) : hide M (State.admitLookup s t k ver record fails) = hide M s := by
  unfold State.admitLookup
  try dsimp only
  repeat' first
    | with_reducible rfl
    | (simp only [hide_ite, ite_self, ite_fst, implies_true, eq_self, h_tb, h_up, h_ch, h_gs, h_mem, h_fl, h_tel, h_out, bringIn_hide, count_hide]; done)
    | with_reducible apply hide_if
    | with_reducible apply hide_if1
    | split
    | (rw [forEach_hide])
    | (rw [foldl_hide])
    | (rw [foldlS_hide])
    | (intro; intros; try dsimp only)
    | (simp only [hide_ite, ite_self, ite_fst, implies_true, eq_self, h_tb, h_up, h_ch, h_gs, h_mem, h_fl, h_tel, h_out, bringIn_hide, count_hide])

theorem admitForced_hide (h_tb : M .tb = true) (h_up : M .up = true) (h_ch : M .ch = true) (h_gs : M .gs = true) (h_mem : M .mem = true) (h_fl : M .fl = true) (h_tel : M .tel = true) (h_out : M .out = true) (s : State) (t : Table) (k : Key) (ver : Nat) (record : Bytes) (fails : WbFails) : hide M (State.admitForced s t k ver record fails) = hide M s := by
  unfold State.admitForced
  try dsimp only
  repeat' first
    | with_reducible rfl
    | (simp only [hide_ite, ite_self, ite_fst, implies_true, eq_self, h_tb, h_up, h_ch, h_gs, h_mem, h_fl, h_tel, h_out, bringIn_hide, count_hide]; done)
    | with_reducible apply hide_if
    | with_reducible apply hide_if1
    | split
    | (rw [forEach_hide])
    | (rw [foldl_hide])
    | (rw [foldlS_hide])
    | (intro; intros; try dsimp only)
    | (simp only [hide_ite, ite_self, ite_fst, implies_true, eq_self, h_tb, h_up, h_ch, h_gs, h_mem, h_fl, h_tel, h_out, bringIn_hide, count_hide])

theorem tidyTwins_hide (h_up : M .up = true) (s : State) (k : Key) (ver : Nat) : hide M (State.tidyTwins s k ver) = hide M s := by
  unfold State.tidyTwins
  try dsimp only
  repeat' first
    | with_reducible rfl
    | (simp only [hide_ite, ite_self, ite_fst, implies_true, eq_self, h_up, onUp_hide]; done)
    | with_reducible apply hide_if
    | with_reducible apply hide_if1
    | split
    | (rw [forEach_hide])
    | (rw [foldl_hide])
    | (rw [foldlS_hide])
    | (intro; intros; try dsimp only)
    | (simp only [hide_ite, ite_self, ite_fst, implies_true, eq_self, h_up, onUp_hide])

theorem putTwin_hide (h_up : M .up = true) (h_gs : M .gs = true) (h_tel : M .tel = true) (s : State) (k : Key) (ver ch : Nat) (b : Bytes) : hide M (State.putTwin s k ver ch b) = hide M s := by
  unfold State.putTwin
  try dsimp only
  repeat' first
    | with_reducible rfl
    | (simp only [hide_ite, ite_self, ite_fst, implies_true, eq_self, h_up, h_gs, h_tel, noteTwin_hide, onUp_hide]; done)
    | with_reducible apply hide_if
    | with_reducible apply hide_if1
    | split
    | (rw [forEach_hide])
    | (rw [foldl_hide])
    | (rw [foldlS_hide])
    | (intro; intros; try dsimp only)
    | (simp only [hide_ite, ite_self, ite_fst, implies_true, eq_self, h_up, h_gs, h_tel, noteTwin_hide, onUp_hide])

theorem addTwinN_hide (h_up : M .up = true) (s : State) (k : Key) (ver n : Nat) : hide M (State.addTwinN s k ver n) = hide M s := by
  unfold State.addTwinN
  try dsimp only
  repeat' first
    | with_reducible rfl
    | (simp only [hide_ite, ite_self, ite_fst, implies_true, eq_self, h_up, onUp_hide]; done)
    | with_reducible apply hide_if
    | with_reducible apply hide_if1
    | split
    | (rw [forEach_hide])
    | (rw [foldl_hide])
    | (rw [foldlS_hide])
    | (intro; intros; try dsimp only)
    | (simp only [hide_ite, ite_self, ite_fst, implies_true, eq_self, h_up, onUp_hide])

end Sys2Proof.Laws
end

