-- ==== Sys2Proof/Laws/CanonPlace.lean ====
section
/-!
SUPPORT. What Machine/Place.lean defines keeps Ground store's bytes in canonical form.
-/

namespace Sys2Proof.Laws

open Sys2Proof.Machine

theorem placeCopy_canon (s : State) (ch : Nat) (k : Key) (ver : Nat) (kind : WayKind) (g : Grade) (b : Bytes) (freq repl : Nat) (e : Entry') (fails : WbFails) (hs : Canon (hide butMem s)) : Canon (hide butMem (State.placeCopy s ch k ver kind g b freq repl e fails).1) := by
  unfold State.placeCopy
  try dsimp only
  repeat' first
    | with_reducible assumption
    | split
    | (with_reducible apply writeSlot_canon)
    | with_reducible apply forEach_canon
    | with_reducible apply foldl_canon
    | (intro; intros; try dsimp only)
    | (simp only [markHead_hide (M := butMem) rfl rfl rfl, putWay_hide (M := butMem) rfl, takeSlot_hide (M := butMem) rfl rfl rfl rfl rfl rfl rfl, takeWay_hide (M := butMem) rfl rfl rfl rfl rfl rfl rfl, touchHead_hide (M := butMem) rfl rfl rfl, implies_true, eq_self])

theorem bringIn_canon (s : State) (t : Table) (k : Key) (ver : Nat) (record : Bytes) (e : Entry') (fails : WbFails) (hs : Canon (hide butMem s)) : Canon (hide butMem (State.bringIn s t k ver record e fails).1) := by
  unfold State.bringIn
  try dsimp only
  repeat' first
    | with_reducible assumption
    | split
    | (with_reducible apply placeCopy_canon)
    | with_reducible apply forEach_canon
    | with_reducible apply foldl_canon
    | (intro; intros; try dsimp only)
    | (simp only [dropWays_hide (M := butMem) rfl rfl rfl, encCopy_hide (M := butMem) rfl, setBand_hide (M := butMem) rfl, implies_true, eq_self])

theorem admitLookup_canon (s : State) (t : Table) (k : Key) (ver : Nat) (record : Bytes) (fails : WbFails) (hs : Canon (hide butMem s)) : Canon (hide butMem (State.admitLookup s t k ver record fails)) := by
  unfold State.admitLookup
  try dsimp only
  repeat' first
    | with_reducible assumption
    | split
    | (with_reducible apply bringIn_canon)
    | with_reducible apply forEach_canon
    | with_reducible apply foldl_canon
    | (intro; intros; try dsimp only)
    | (simp only [count_hide (M := butMem) rfl, implies_true, eq_self])

theorem admitForced_canon (s : State) (t : Table) (k : Key) (ver : Nat) (record : Bytes) (fails : WbFails) (hs : Canon (hide butMem s)) : Canon (hide butMem (State.admitForced s t k ver record fails)) := by
  unfold State.admitForced
  try dsimp only
  repeat' first
    | with_reducible assumption
    | split
    | (with_reducible apply bringIn_canon)
    | with_reducible apply forEach_canon
    | with_reducible apply foldl_canon
    | (intro; intros; try dsimp only)
    | (simp only [count_hide (M := butMem) rfl, implies_true, eq_self])

end Sys2Proof.Laws
end

