-- ==== Sys2Proof/Laws/FrameFront.lean ====
section
/-!
SUPPORT. Frames of what Machine/Front.lean defines: the parts of the state that each may change.
-/

namespace Sys2Proof.Laws

open Sys2Proof.Machine

variable {M : Mask}

theorem setRing_hide (h_fe : M .fe = true) (s : State) (k : Nat) (r : Ring) : hide M (State.setRing s k r) = hide M s := by
  unfold State.setRing
  simp only [hide_ite, ite_self, ite_fst, implies_true, eq_self, h_fe, onFe_hide]

theorem onRing_hide (h_fe : M .fe = true) (s : State) (k : Nat) (f : Ring → Ring) : hide M (State.onRing s k f) = hide M s := by
  unfold State.onRing
  simp only [hide_ite, ite_self, ite_fst, implies_true, eq_self, h_fe, setRing_hide]

theorem setDesc_hide (h_fe : M .fe = true) (s : State) (d : Desc) : hide M (State.setDesc s d) = hide M s := by
  unfold State.setDesc
  simp only [hide_ite, ite_self, ite_fst, implies_true, eq_self, h_fe, onFe_hide]

theorem onDesc_hide (h_fe : M .fe = true) (s : State) (id : Nat) (f : Desc → Desc) : hide M (State.onDesc s id f) = hide M s := by
  unfold State.onDesc
  simp only [hide_ite, ite_self, ite_fst, implies_true, eq_self, h_fe, onFe_hide]

theorem noteLeave_hide (h_fe : M .fe = true) (h_up : M .up = true) (h_out : M .out = true) (s : State) (p : Nat) (y0 : Output) : hide M (State.noteLeave s p y0) = hide M s := by
  unfold State.noteLeave
  try dsimp only
  repeat' first
    | with_reducible rfl
    | (simp only [hide_ite, ite_self, ite_fst, implies_true, eq_self, h_fe, h_up, h_out, onFe_hide, onUp_hide, send_hide]; done)
    | with_reducible apply hide_if
    | with_reducible apply hide_if1
    | split
    | (rw [forEach_hide])
    | (rw [foldl_hide])
    | (rw [foldlS_hide])
    | (intro; intros; try dsimp only)
    | (simp only [hide_ite, ite_self, ite_fst, implies_true, eq_self, h_fe, h_up, h_out, onFe_hide, onUp_hide, send_hide])

theorem fabLeave_hide (h_fe : M .fe = true) (h_up : M .up = true) (h_pw : M .pw = true) (h_out : M .out = true) (s : State) (p : Nat) (o : Output) : hide M (State.fabLeave s p o) = hide M s := by
  unfold State.fabLeave
  try dsimp only
  repeat' first
    | with_reducible rfl
    | (simp only [hide_ite, ite_self, ite_fst, implies_true, eq_self, h_fe, h_up, h_pw, h_out, noteLeave_hide, onPw_hide, send_hide]; done)
    | with_reducible apply hide_if
    | with_reducible apply hide_if1
    | split
    | (rw [forEach_hide])
    | (rw [foldl_hide])
    | (rw [foldlS_hide])
    | (intro; intros; try dsimp only)
    | (simp only [hide_ite, ite_self, ite_fst, implies_true, eq_self, h_fe, h_up, h_pw, h_out, noteLeave_hide, onPw_hide, send_hide])

theorem fabSend_hide (h_fe : M .fe = true) (h_up : M .up = true) (h_pw : M .pw = true) (h_out : M .out = true) (s : State) (o : Output) : hide M (State.fabSend s o) = hide M s := by
  unfold State.fabSend
  try dsimp only
  repeat' first
    | with_reducible rfl
    | (simp only [hide_ite, ite_self, ite_fst, implies_true, eq_self, h_fe, h_up, h_pw, h_out, fabLeave_hide, onPw_hide]; done)
    | with_reducible apply hide_if
    | with_reducible apply hide_if1
    | split
    | (rw [forEach_hide])
    | (rw [foldl_hide])
    | (rw [foldlS_hide])
    | (intro; intros; try dsimp only)
    | (simp only [hide_ite, ite_self, ite_fst, implies_true, eq_self, h_fe, h_up, h_pw, h_out, fabLeave_hide, onPw_hide])

theorem fabSendAll_hide (h_fe : M .fe = true) (h_up : M .up = true) (h_pw : M .pw = true) (h_out : M .out = true) (s : State) (l : List Output) : hide M (State.fabSendAll s l) = hide M s := by
  unfold State.fabSendAll
  try dsimp only
  repeat' first
    | with_reducible rfl
    | (simp only [hide_ite, ite_self, ite_fst, implies_true, eq_self, h_fe, h_up, h_pw, h_out, forEach_hide, fabSend_hide]; done)
    | with_reducible apply hide_if
    | with_reducible apply hide_if1
    | split
    | (rw [forEach_hide])
    | (rw [foldl_hide])
    | (rw [foldlS_hide])
    | (intro; intros; try dsimp only)
    | (simp only [hide_ite, ite_self, ite_fst, implies_true, eq_self, h_fe, h_up, h_pw, h_out, forEach_hide, fabSend_hide])

theorem fabPump_hide (h_fe : M .fe = true) (h_up : M .up = true) (h_pw : M .pw = true) (h_out : M .out = true) (y0 : Nat) (y1 : State) : hide M (State.fabPump y0 y1) = hide M y1 := by
  fun_induction State.fabPump y0 y1
  all_goals
    repeat' first
      | with_reducible rfl
      | assumption
      | (simp +zetaDelta only [*, hide_ite, ite_self, ite_fst, implies_true, eq_self, h_fe, h_up, h_pw, h_out, fabLeave_hide, onPw_hide]; done)
      | with_reducible apply hide_if
      | with_reducible apply hide_if1
      | split
      | (rw [forEach_hide])
      | (rw [foldl_hide])
      | (rw [foldlS_hide])
      | (intro; intros; try dsimp only)
      | (simp +zetaDelta only [*, hide_ite, ite_self, ite_fst, implies_true, eq_self, h_fe, h_up, h_pw, h_out, fabLeave_hide, onPw_hide])

theorem rspSend_hide (h_pw : M .pw = true) (h_out : M .out = true) (s : State) (p : Nat) (o : Output) : hide M (State.rspSend s p o) = hide M s := by
  unfold State.rspSend
  try dsimp only
  repeat' first
    | with_reducible rfl
    | (simp only [hide_ite, ite_self, ite_fst, implies_true, eq_self, h_pw, h_out, onPw_hide, send_hide]; done)
    | with_reducible apply hide_if
    | with_reducible apply hide_if1
    | split
    | (rw [forEach_hide])
    | (rw [foldl_hide])
    | (rw [foldlS_hide])
    | (intro; intros; try dsimp only)
    | (simp only [hide_ite, ite_self, ite_fst, implies_true, eq_self, h_pw, h_out, onPw_hide, send_hide])

theorem rspPump_hide (h_pw : M .pw = true) (h_out : M .out = true) (s : State) : hide M (State.rspPump s) = hide M s := by
  unfold State.rspPump
  try dsimp only
  repeat' first
    | with_reducible rfl
    | (simp only [hide_ite, ite_self, ite_fst, implies_true, eq_self, h_pw, h_out, forEach_hide, onPw_hide, rspSend_hide]; done)
    | with_reducible apply hide_if
    | with_reducible apply hide_if1
    | split
    | (rw [forEach_hide])
    | (rw [foldl_hide])
    | (rw [foldlS_hide])
    | (intro; intros; try dsimp only)
    | (simp only [hide_ite, ite_self, ite_fst, implies_true, eq_self, h_pw, h_out, forEach_hide, onPw_hide, rspSend_hide])

theorem fabRest_hide (h_pw : M .pw = true) (h_out : M .out = true) (s : State) (p : Nat) : hide M (State.fabRest s p) = hide M s := by
  unfold State.fabRest
  try dsimp only
  repeat' first
    | with_reducible rfl
    | (simp only [hide_ite, ite_self, ite_fst, implies_true, eq_self, h_pw, h_out, onPw_hide, send_hide]; done)
    | with_reducible apply hide_if
    | with_reducible apply hide_if1
    | split
    | (rw [forEach_hide])
    | (rw [foldl_hide])
    | (rw [foldlS_hide])
    | (intro; intros; try dsimp only)
    | (simp only [hide_ite, ite_self, ite_fst, implies_true, eq_self, h_pw, h_out, onPw_hide, send_hide])

theorem fabSettle_hide (h_pw : M .pw = true) (h_out : M .out = true) (s : State) : hide M (State.fabSettle s) = hide M s := by
  unfold State.fabSettle
  try dsimp only
  repeat' first
    | with_reducible rfl
    | (simp only [hide_ite, ite_self, ite_fst, implies_true, eq_self, h_pw, h_out, forEach_hide, fabRest_hide]; done)
    | with_reducible apply hide_if
    | with_reducible apply hide_if1
    | split
    | (rw [forEach_hide])
    | (rw [foldl_hide])
    | (rw [foldlS_hide])
    | (intro; intros; try dsimp only)
    | (simp only [hide_ite, ite_self, ite_fst, implies_true, eq_self, h_pw, h_out, forEach_hide, fabRest_hide])

theorem readLine_hide (h_out : M .out = true) (s : State) (line : Nat) (l : EyeLine) : hide M (State.readLine s line l) = hide M s := by
  unfold State.readLine
  try dsimp only
  repeat' first
    | with_reducible rfl
    | (simp only [hide_ite, ite_self, ite_fst, implies_true, eq_self, h_out, send_hide]; done)
    | with_reducible apply hide_if
    | with_reducible apply hide_if1
    | split
    | (rw [forEach_hide])
    | (rw [foldl_hide])
    | (rw [foldlS_hide])
    | (intro; intros; try dsimp only)
    | (simp only [hide_ite, ite_self, ite_fst, implies_true, eq_self, h_out, send_hide])

theorem takeLine_hide (h_fe : M .fe = true) (h_out : M .out = true) (s : State) (line p : Nat) (ws : List Word64) : hide M (State.takeLine s line p ws) = hide M s := by
  unfold State.takeLine
  try dsimp only
  repeat' first
    | with_reducible rfl
    | (simp only [hide_ite, ite_self, ite_fst, implies_true, eq_self, h_fe, h_out, onFe_hide, readLine_hide]; done)
    | with_reducible apply hide_if
    | with_reducible apply hide_if1
    | split
    | (rw [forEach_hide])
    | (rw [foldl_hide])
    | (rw [foldlS_hide])
    | (intro; intros; try dsimp only)
    | (simp only [hide_ite, ite_self, ite_fst, implies_true, eq_self, h_fe, h_out, onFe_hide, readLine_hide])

theorem fitLine_hide (h_fe : M .fe = true) (h_out : M .out = true) (s : State) (line : Nat) : hide M (State.fitLine s line) = hide M s := by
  unfold State.fitLine
  try dsimp only
  repeat' first
    | with_reducible rfl
    | (simp only [hide_ite, ite_self, ite_fst, implies_true, eq_self, h_fe, h_out, onFe_hide, send_hide, takeLine_hide]; done)
    | with_reducible apply hide_if
    | with_reducible apply hide_if1
    | split
    | (rw [forEach_hide])
    | (rw [foldl_hide])
    | (rw [foldlS_hide])
    | (intro; intros; try dsimp only)
    | (simp only [hide_ite, ite_self, ite_fst, implies_true, eq_self, h_fe, h_out, onFe_hide, send_hide, takeLine_hide])

theorem fitRing_hide (h_fe : M .fe = true) (h_out : M .out = true) (s : State) (k : Nat) : hide M (State.fitRing s k) = hide M s := by
  unfold State.fitRing
  simp only [hide_ite, ite_self, ite_fst, implies_true, eq_self, h_fe, h_out, fitLine_hide]

theorem ringSend_hide (h_fe : M .fe = true) (h_up : M .up = true) (h_pw : M .pw = true) (h_out : M .out = true) (s : State) (near : Bool) (o : Output) : hide M (State.ringSend s near o) = hide M s := by
  unfold State.ringSend
  try dsimp only
  repeat' first
    | with_reducible rfl
    | (simp only [hide_ite, ite_self, ite_fst, implies_true, eq_self, h_fe, h_up, h_pw, h_out, fabSend_hide, send_hide]; done)
    | with_reducible apply hide_if
    | with_reducible apply hide_if1
    | split
    | (rw [forEach_hide])
    | (rw [foldl_hide])
    | (rw [foldlS_hide])
    | (intro; intros; try dsimp only)
    | (simp only [hide_ite, ite_self, ite_fst, implies_true, eq_self, h_fe, h_up, h_pw, h_out, fabSend_hide, send_hide])

theorem putSlot_hide (h_fe : M .fe = true) (h_up : M .up = true) (h_pw : M .pw = true) (h_out : M .out = true) (s : State) (c : Nat) (ord : Bool) (b : Bool → Bytes) : hide M (State.putSlot s c ord b) = hide M s := by
  unfold State.putSlot
  try dsimp only
  repeat' first
    | with_reducible rfl
    | (simp only [hide_ite, ite_self, ite_fst, implies_true, eq_self, h_fe, h_up, h_pw, h_out, ringSend_hide, setRing_hide]; done)
    | with_reducible apply hide_if
    | with_reducible apply hide_if1
    | split
    | (rw [forEach_hide])
    | (rw [foldl_hide])
    | (rw [foldlS_hide])
    | (intro; intros; try dsimp only)
    | (simp only [hide_ite, ite_self, ite_fst, implies_true, eq_self, h_fe, h_up, h_pw, h_out, ringSend_hide, setRing_hide])

theorem irq_hide (h_fe : M .fe = true) (h_out : M .out = true) (s : State) (c : Nat) : hide M (State.irq s c) = hide M s := by
  unfold State.irq
  try dsimp only
  repeat' first
    | with_reducible rfl
    | (simp only [hide_ite, ite_self, ite_fst, implies_true, eq_self, h_fe, h_out, send_hide, setRing_hide]; done)
    | with_reducible apply hide_if
    | with_reducible apply hide_if1
    | split
    | (rw [forEach_hide])
    | (rw [foldl_hide])
    | (rw [foldlS_hide])
    | (intro; intros; try dsimp only)
    | (simp only [hide_ite, ite_self, ite_fst, implies_true, eq_self, h_fe, h_out, send_hide, setRing_hide])

theorem signal_hide (h_fe : M .fe = true) (h_out : M .out = true) (s : State) (c : Nat) (now : Bool) : hide M (State.signal s c now) = hide M s := by
  unfold State.signal
  simp only [hide_ite, ite_self, ite_fst, implies_true, eq_self, h_fe, h_out, irq_hide, setRing_hide]

theorem putPads_hide (h_fe : M .fe = true) (h_up : M .up = true) (h_pw : M .pw = true) (h_out : M .out = true) (s : State) (c : Nat) (ord : Bool) (y0 : Nat) : hide M (State.putPads s c ord y0) = hide M s := by
  fun_induction State.putPads s c ord y0
  all_goals
    repeat' first
      | with_reducible rfl
      | assumption
      | (simp +zetaDelta only [*, hide_ite, ite_self, ite_fst, implies_true, eq_self, h_fe, h_up, h_pw, h_out, putSlot_hide]; done)
      | with_reducible apply hide_if
      | with_reducible apply hide_if1
      | split
      | (rw [forEach_hide])
      | (rw [foldl_hide])
      | (rw [foldlS_hide])
      | (intro; intros; try dsimp only)
      | (simp +zetaDelta only [*, hide_ite, ite_self, ite_fst, implies_true, eq_self, h_fe, h_up, h_pw, h_out, putSlot_hide])

theorem putInline_hide (h_fe : M .fe = true) (h_up : M .up = true) (h_pw : M .pw = true) (h_out : M .out = true) (s : State) (c : Nat) (ord : Bool) (payload : Bytes) (b : Bool → Bytes) : hide M (State.putInline s c ord payload b) = hide M s := by
  unfold State.putInline
  try dsimp only
  repeat' first
    | with_reducible rfl
    | (simp only [hide_ite, ite_self, ite_fst, implies_true, eq_self, h_fe, h_up, h_pw, h_out, putPads_hide, ringSend_hide, setRing_hide]; done)
    | with_reducible apply hide_if
    | with_reducible apply hide_if1
    | split
    | (rw [forEach_hide])
    | (rw [foldl_hide])
    | (rw [foldlS_hide])
    | (intro; intros; try dsimp only)
    | (simp only [hide_ite, ite_self, ite_fst, implies_true, eq_self, h_fe, h_up, h_pw, h_out, putPads_hide, ringSend_hide, setRing_hide])

theorem writeOverrun_hide (h_fe : M .fe = true) (h_up : M .up = true) (h_pw : M .pw = true) (h_out : M .out = true) (s : State) (k : Nat) : hide M (State.writeOverrun s k) = hide M s := by
  unfold State.writeOverrun
  try dsimp only
  repeat' first
    | with_reducible rfl
    | (simp only [hide_ite, ite_self, ite_fst, implies_true, eq_self, h_fe, h_up, h_pw, h_out, putSlot_hide, signal_hide]; done)
    | with_reducible apply hide_if
    | with_reducible apply hide_if1
    | split
    | (rw [forEach_hide])
    | (rw [foldl_hide])
    | (rw [foldlS_hide])
    | (intro; intros; try dsimp only)
    | (simp only [hide_ite, ite_self, ite_fst, implies_true, eq_self, h_fe, h_up, h_pw, h_out, putSlot_hide, signal_hide])

theorem raiseOverrun_hide (h_fe : M .fe = true) (h_up : M .up = true) (h_pw : M .pw = true) (h_out : M .out = true) (s : State) (k : Nat) : hide M (State.raiseOverrun s k) = hide M s := by
  unfold State.raiseOverrun
  try dsimp only
  repeat' first
    | with_reducible rfl
    | (simp only [hide_ite, ite_self, ite_fst, implies_true, eq_self, h_fe, h_up, h_pw, h_out, onFe_hide, setRing_hide, writeOverrun_hide]; done)
    | with_reducible apply hide_if
    | with_reducible apply hide_if1
    | split
    | (rw [forEach_hide])
    | (rw [foldl_hide])
    | (rw [foldlS_hide])
    | (intro; intros; try dsimp only)
    | (simp only [hide_ite, ite_self, ite_fst, implies_true, eq_self, h_fe, h_up, h_pw, h_out, onFe_hide, setRing_hide, writeOverrun_hide])

theorem announce_hide (h_fe : M .fe = true) (s : State) (k : Nat) : hide M (State.announce s k) = hide M s := by
  unfold State.announce
  simp only [hide_ite, ite_self, ite_fst, implies_true, eq_self, h_fe, onFe_hide]

theorem newIndex_hide (h_fe : M .fe = true) (h_up : M .up = true) (h_tel : M .tel = true) (h_pw : M .pw = true) (h_out : M .out = true) (s : State) (k : Nat) (v : BitVec 32) : hide M (State.newIndex s k v) = hide M s := by
  unfold State.newIndex
  try dsimp only
  repeat' first
    | with_reducible rfl
    | (simp only [hide_ite, ite_self, ite_fst, implies_true, eq_self, h_fe, h_up, h_tel, h_pw, h_out, announce_hide, count_hide, raiseOverrun_hide, setRing_hide]; done)
    | with_reducible apply hide_if
    | with_reducible apply hide_if1
    | split
    | (rw [forEach_hide])
    | (rw [foldl_hide])
    | (rw [foldlS_hide])
    | (intro; intros; try dsimp only)
    | (simp only [hide_ite, ite_self, ite_fst, implies_true, eq_self, h_fe, h_up, h_tel, h_pw, h_out, announce_hide, count_hide, raiseOverrun_hide, setRing_hide])

theorem adoptWord_hide (h_fe : M .fe = true) (h_up : M .up = true) (h_tel : M .tel = true) (h_pw : M .pw = true) (h_out : M .out = true) (s : State) (k : Nat) : hide M (State.adoptWord s k) = hide M s := by
  unfold State.adoptWord
  try dsimp only
  repeat' first
    | with_reducible rfl
    | (simp only [hide_ite, ite_self, ite_fst, implies_true, eq_self, h_fe, h_up, h_tel, h_pw, h_out, newIndex_hide, onFe_hide]; done)
    | with_reducible apply hide_if
    | with_reducible apply hide_if1
    | split
    | (rw [forEach_hide])
    | (rw [foldl_hide])
    | (rw [foldlS_hide])
    | (intro; intros; try dsimp only)
    | (simp only [hide_ite, ite_self, ite_fst, implies_true, eq_self, h_fe, h_up, h_tel, h_pw, h_out, newIndex_hide, onFe_hide])

theorem writeCons_hide (h_fe : M .fe = true) (h_up : M .up = true) (h_pw : M .pw = true) (h_out : M .out = true) (s : State) (k : Nat) : hide M (State.writeCons s k) = hide M s := by
  unfold State.writeCons
  try dsimp only
  repeat' first
    | with_reducible rfl
    | (simp only [hide_ite, ite_self, ite_fst, implies_true, eq_self, h_fe, h_up, h_pw, h_out, ringSend_hide, setRing_hide]; done)
    | with_reducible apply hide_if
    | with_reducible apply hide_if1
    | split
    | (rw [forEach_hide])
    | (rw [foldl_hide])
    | (rw [foldlS_hide])
    | (intro; intros; try dsimp only)
    | (simp only [hide_ite, ite_self, ite_fst, implies_true, eq_self, h_fe, h_up, h_pw, h_out, ringSend_hide, setRing_hide])

theorem consume_hide (h_fe : M .fe = true) (h_up : M .up = true) (h_pw : M .pw = true) (h_out : M .out = true) (s : State) (k n : Nat) : hide M (State.consume s k n) = hide M s := by
  unfold State.consume
  try dsimp only
  repeat' first
    | with_reducible rfl
    | (simp only [hide_ite, ite_self, ite_fst, implies_true, eq_self, h_fe, h_up, h_pw, h_out, setRing_hide, writeCons_hide]; done)
    | with_reducible apply hide_if
    | with_reducible apply hide_if1
    | split
    | (rw [forEach_hide])
    | (rw [foldl_hide])
    | (rw [foldlS_hide])
    | (intro; intros; try dsimp only)
    | (simp only [hide_ite, ite_self, ite_fst, implies_true, eq_self, h_fe, h_up, h_pw, h_out, setRing_hide, writeCons_hide])

theorem settle_hide (h_fe : M .fe = true) (s : State) (id : Nat) (f : Desc → Desc) : hide M (State.settle s id f) = hide M s := by
  unfold State.settle
  simp only [hide_ite, ite_self, ite_fst, implies_true, eq_self, h_fe, onDesc_hide, onFe_hide]

theorem endDesc_hide (h_fe : M .fe = true) (s : State) (id : Nat) (st : BitVec 8) (detail done : Nat) (info : Word64) : hide M (State.endDesc s id st detail done info) = hide M s := by
  unfold State.endDesc
  simp only [hide_ite, ite_self, ite_fst, implies_true, eq_self, h_fe, settle_hide]

theorem endOk_hide (h_fe : M .fe = true) (s : State) (id done : Nat) : hide M (State.endOk s id done) = hide M s := by
  unfold State.endOk
  simp only [hide_ite, ite_self, ite_fst, implies_true, eq_self, h_fe, endDesc_hide]

end Sys2Proof.Laws
end

