-- ==== Sys2Proof/Laws/FrameTabs.lean ====
section
/-!
SUPPORT. Frames of what Machine/Tabs.lean defines: the parts of the state that each may change.
-/

namespace Sys2Proof.Laws

open Sys2Proof.Machine

variable {M : Mask}

theorem setTable_hide (h_tb : M .tb = true) (s : State) (h : Nat) (t : Table) : hide M (State.setTable s h t) = hide M s := by
  unfold State.setTable
  simp only [set_tb_hide, eq_self, h_tb]

end Sys2Proof.Laws
end

