-- ==== Sys2Proof/Laws/FramePoison.lean ====
section
/-!
SUPPORT. Frames of what Machine/Poison.lean defines: the parts of the state that each may change.
-/

namespace Sys2Proof.Laws

open Sys2Proof.Machine

variable {M : Mask}

theorem poisonRow_hide (h_tb : M .tb = true) (h_tel : M .tel = true) (h_rl : M .rl = true) (s : State) (h ver row : Nat) : hide M (State.poisonRow s h ver row) = hide M s := by
  unfold State.poisonRow
  try dsimp only
  repeat' first
    | with_reducible rfl
    | (simp only [hide_ite, ite_self, ite_fst, implies_true, eq_self, h_tb, h_tel, h_rl, count_hide, onRl_hide, setTable_hide, tell_hide]; done)
    | with_reducible apply hide_if
    | with_reducible apply hide_if1
    | split
    | (rw [forEach_hide])
    | (rw [foldl_hide])
    | (rw [foldlS_hide])
    | (intro; intros; try dsimp only)
    | (simp only [hide_ite, ite_self, ite_fst, implies_true, eq_self, h_tb, h_tel, h_rl, count_hide, onRl_hide, setTable_hide, tell_hide])

theorem readRow_hide (h_tb : M .tb = true) (h_gs : M .gs = true) (h_fl : M .fl = true) (h_tel : M .tel = true) (h_rl : M .rl = true) (h_out : M .out = true) (s : State) (t : Table) (v : Version) (k : Key) (src : RowSrc) (asked : Bool) : hide M (State.readRow s t v k src asked).1 = hide M s := by
  unfold State.readRow
  try dsimp only
  repeat' first
    | with_reducible rfl
    | (simp only [hide_ite, ite_self, ite_fst, implies_true, eq_self, h_tb, h_gs, h_fl, h_tel, h_rl, h_out, poisonRow_hide, readBacking_hide]; done)
    | with_reducible apply hide_if
    | with_reducible apply hide_if1
    | split
    | (rw [forEach_hide])
    | (rw [foldl_hide])
    | (rw [foldlS_hide])
    | (intro; intros; try dsimp only)
    | (simp only [hide_ite, ite_self, ite_fst, implies_true, eq_self, h_tb, h_gs, h_fl, h_tel, h_rl, h_out, poisonRow_hide, readBacking_hide])

end Sys2Proof.Laws
end

