-- ==== Sys2Proof/Laws/FramePrick.lean ====
section
/-!
SUPPORT. Frames of what Machine/Prick.lean defines: the parts of the state that each may change.
-/

namespace Sys2Proof.Laws

open Sys2Proof.Machine

variable {M : Mask}

/-- The state that pricking a range leaves. -/
def prickedAt : Pricked → State
  | .done s _ => s
  | .wait s _ => s

theorem sendAts_hide (h_tel : M .tel = true) (h_out : M .out = true) (s : State) (id pasid : Nat) (miss : List PageRef) : hide M (State.sendAts s id pasid miss) = hide M s := by
  unfold State.sendAts
  simp only [eq_self, h_tel, h_out, countN_hide, sendAll_hide]

theorem park_hide (h_fe : M .fe = true) (h_tel : M .tel = true) (s : State) (d : Desc) : hide M (State.park s d) = hide M s := by
  unfold State.park
  simp only [hide_ite, ite_self, eq_self, h_fe, h_tel, count_hide, onFe_hide, setDesc_hide]

theorem pass_hide (h_fe : M .fe = true) (s : State) (d : Desc) : hide M (State.pass s d) = hide M s := by
  unfold State.pass
  simp only [eq_self, h_fe, onFe_hide, setDesc_hide]

theorem tidyWins_hide (h_sp : M .sp = true) (h_fl : M .fl = true) (s : State) : hide M (State.tidyWins s) = hide M s := by
  unfold State.tidyWins
  try dsimp only
  repeat' first
    | with_reducible rfl
    | (simp only [hide_ite, ite_self, ite_fst, implies_true, eq_self, h_sp, h_fl, onFl_hide, onSp_hide]; done)
    | with_reducible apply hide_if
    | with_reducible apply hide_if1
    | split
    | (rw [forEach_hide])
    | (rw [foldl_hide])
    | (rw [foldlS_hide])
    | (intro; intros; try dsimp only)
    | (simp only [hide_ite, ite_self, ite_fst, implies_true, eq_self, h_sp, h_fl, onFl_hide, onSp_hide])

theorem abandon_hide (h_sp : M .sp = true) (h_up : M .up = true) (h_fl : M .fl = true) (s : State) (id : Nat) : hide M (State.abandon s id) = hide M s := by
  unfold State.abandon
  try dsimp only
  repeat' first
    | with_reducible rfl
    | (simp only [hide_ite, ite_self, ite_fst, implies_true, eq_self, h_sp, h_up, h_fl, onFl_hide, onSp_hide, onUp_hide, tidyWins_hide]; done)
    | with_reducible apply hide_if
    | with_reducible apply hide_if1
    | split
    | (rw [forEach_hide])
    | (rw [foldl_hide])
    | (rw [foldlS_hide])
    | (intro; intros; try dsimp only)
    | (simp only [hide_ite, ite_self, ite_fst, implies_true, eq_self, h_sp, h_up, h_fl, onFl_hide, onSp_hide, onUp_hide, tidyWins_hide])

theorem stopFault_hide (h_fe : M .fe = true) (s : State) (d : Desc) : hide M (State.stopFault s d) = hide M s := by
  unfold State.stopFault
  (repeat' split) <;> simp only [eq_self, h_fe, endDesc_hide, setDesc_hide]

theorem runAhead_hide (h_fe : M .fe = true) (h_xl : M .xl = true) (h_tel : M .tel = true) (h_out : M .out = true) (s : State) (d : Desc) (r : Range) : hide M (State.runAhead s d r) = hide M s := by
  unfold State.runAhead
  try dsimp only
  repeat' first
    | with_reducible rfl
    | (simp only [hide_ite, ite_self, ite_fst, implies_true, eq_self, h_fe, h_xl, h_tel, h_out, count_hide, onFe_hide, onXl_hide, send_hide]; done)
    | with_reducible apply hide_if
    | with_reducible apply hide_if1
    | split
    | (rw [forEach_hide])
    | (rw [foldl_hide])
    | (rw [foldlS_hide])
    | (intro; intros; try dsimp only)
    | (simp only [hide_ite, ite_self, ite_fst, implies_true, eq_self, h_fe, h_xl, h_tel, h_out, count_hide, onFe_hide, onXl_hide, send_hide])

theorem readMirror_hide (h_out : M .out = true) (s : State) (c port : Nat) : hide M (State.readMirror s c port) = hide M s := by
  unfold State.readMirror
  try dsimp only
  repeat' first
    | with_reducible rfl
    | (simp only [hide_ite, ite_self, ite_fst, implies_true, eq_self, h_out, send_hide]; done)
    | with_reducible apply hide_if
    | with_reducible apply hide_if1
    | split
    | (rw [forEach_hide])
    | (rw [foldl_hide])
    | (rw [foldlS_hide])
    | (intro; intros; try dsimp only)
    | (simp only [hide_ite, ite_self, ite_fst, implies_true, eq_self, h_out, send_hide])

theorem askMirror_hide (h_xl : M .xl = true) (h_out : M .out = true) (s : State) (c port : Nat) : hide M (State.askMirror s c port) = hide M s := by
  unfold State.askMirror
  try dsimp only
  repeat' first
    | with_reducible rfl
    | (simp only [hide_ite, ite_self, ite_fst, implies_true, eq_self, h_xl, h_out, onXl_hide, readMirror_hide]; done)
    | with_reducible apply hide_if
    | with_reducible apply hide_if1
    | split
    | (rw [forEach_hide])
    | (rw [foldl_hide])
    | (rw [foldlS_hide])
    | (intro; intros; try dsimp only)
    | (simp only [hide_ite, ite_self, ite_fst, implies_true, eq_self, h_xl, h_out, onXl_hide, readMirror_hide])

theorem prickSeg_hide (h_xl : M .xl = true) (h_tel : M .tel = true) (h_out : M .out = true) (s : State) (d : Desc) (i : Nat) (r : Range) : hide M (prickedAt (State.prickSeg s d i r)) = hide M s := by
  unfold State.prickSeg
  try dsimp only
  repeat' first
    | with_reducible rfl
    | (simp only [hide_ite, ite_self, ite_fst, implies_true, eq_self, h_xl, h_tel, h_out, prickedAt, askMirror_hide, countN_hide, count_hide, onXl_hide]; done)
    | with_reducible apply hide_if
    | with_reducible apply hide_if1
    | split
    | (rw [forEach_hide])
    | (rw [foldl_hide])
    | (rw [foldlS_hide])
    | (intro; intros; try dsimp only)
    | (simp only [hide_ite, ite_self, ite_fst, implies_true, eq_self, h_xl, h_tel, h_out, prickedAt, askMirror_hide, countN_hide, count_hide, onXl_hide])

theorem prickLack_hide (h_xl : M .xl = true) (h_tel : M .tel = true) (h_out : M .out = true) (s : State) (d : Desc) (i : Nat) (r : Range) : hide M (prickedAt (State.prickLack s d i r)) = hide M s := by
  unfold State.prickLack
  try dsimp only
  repeat' first
    | with_reducible rfl
    | (simp only [hide_ite, ite_self, ite_fst, implies_true, eq_self, h_xl, h_tel, h_out, prickedAt, countN_hide, onXl_hide, send_hide]; done)
    | with_reducible apply hide_if
    | with_reducible apply hide_if1
    | split
    | (rw [forEach_hide])
    | (rw [foldl_hide])
    | (rw [foldlS_hide])
    | (intro; intros; try dsimp only)
    | (simp only [hide_ite, ite_self, ite_fst, implies_true, eq_self, h_xl, h_tel, h_out, prickedAt, countN_hide, onXl_hide, send_hide])

theorem askPages_hide (h_tel : M .tel = true) (h_out : M .out = true) (s : State) (d : Desc) (i : Nat) (r : Range) (miss : List PageRef) : hide M (prickedAt (State.askPages s d i r miss)) = hide M s := by
  unfold State.askPages
  try dsimp only
  repeat' first
    | with_reducible rfl
    | (simp only [hide_ite, ite_self, ite_fst, implies_true, eq_self, h_tel, h_out, prickedAt, countN_hide, sendAts_hide]; done)
    | with_reducible apply hide_if
    | with_reducible apply hide_if1
    | split
    | (rw [forEach_hide])
    | (rw [foldl_hide])
    | (rw [foldlS_hide])
    | (intro; intros; try dsimp only)
    | (simp only [hide_ite, ite_self, ite_fst, implies_true, eq_self, h_tel, h_out, prickedAt, countN_hide, sendAts_hide])

theorem prickXlate_hide (h_xl : M .xl = true) (h_tel : M .tel = true) (h_out : M .out = true) (s : State) (d : Desc) (i : Nat) (r : Range) : hide M (prickedAt (State.prickXlate s d i r)) = hide M s := by
  have h1 : ∀ (s : State) (f : Translation → Translation) (m : Nat), hide M ((s.onXl f).countN Ctr.xcHit m) = hide M s :=
    fun s f m => (countN_hide (M := M) h_tel _ _ _).trans (onXl_hide h_xl s f)
  have h2 : ∀ (s : State) (f : Translation → Translation) (m : Nat), hide M ((s.countN Ctr.xcHit m).onXl f) = hide M s :=
    fun s f m => (onXl_hide h_xl _ f).trans (countN_hide (M := M) h_tel _ _ _)
  have h3 := fun (s1 : State) (d : Desc) (i : Nat) (r : Range) (m : List PageRef) (e : hide M s1 = hide M s) =>
    (askPages_hide (M := M) h_tel h_out s1 d i r m).trans e
  unfold State.prickXlate
  dsimp only
  repeat' first
    | with_reducible rfl
    | exact prickLack_hide (M := M) h_xl h_tel h_out s d i r
    | (dsimp only [prickedAt]; with_reducible exact h1 _ _ _)
    | (dsimp only [prickedAt]; with_reducible exact h2 _ _ _)
    | with_reducible exact h3 _ _ _ _ _ (h1 _ _ _)
    | with_reducible exact h3 _ _ _ _ _ (h2 _ _ _)
    | split
    | rfl

theorem prickRange_hide (h_xl : M .xl = true) (h_tel : M .tel = true) (h_out : M .out = true) (s : State) (d : Desc) (i : Nat) (r : Range) : hide M (prickedAt (State.prickRange s d i r)) = hide M s := by
  have h1 := prickSeg_hide (M := M) h_xl h_tel h_out s d i r
  unfold State.prickRange
  split
  · rename_i e
    rw [e] at h1
    exact h1
  · rename_i s1 r1 e
    rw [e] at h1
    exact (prickXlate_hide (M := M) h_xl h_tel h_out s1 d i r1).trans h1

theorem prickFrom_hide (h_fe : M .fe = true) (h_xl : M .xl = true) (h_sp : M .sp = true) (h_up : M .up = true) (h_fl : M .fl = true) (h_tel : M .tel = true) (h_out : M .out = true) (s : State) (d : Desc) (y0 : Nat) (y1 : Nat) : hide M (State.prickFrom s d y0 y1) = hide M s := by
  have key : ∀ (s s1 : State) (d : Desc) (i : Nat) (r r1 : Range), s.prickRange d i r = Pricked.done s1 r1 → hide M s1 = hide M s := by
    intro s s1 d i r r1 e
    have h1 := prickRange_hide (M := M) h_xl h_tel h_out s d i r
    rw [e] at h1
    exact h1
  induction y0 generalizing s d y1 with
  | zero => exact pass_hide (M := M) h_fe _ _
  | succ fuel ih =>
    rw [State.prickFrom]
    split
    · exact pass_hide (M := M) h_fe _ _
    split
    · split
      · exact stopFault_hide (M := M) h_fe _ _
      · exact ih _ _ _
    split
    · rename_i e
      have h1 := prickRange_hide (M := M) h_xl h_tel h_out s d y1 (by assumption)
      rw [e] at h1
      exact (park_hide (M := M) h_fe h_tel _ _).trans h1
    · rename_i e
      have h1 := key _ _ _ _ _ _ e
      dsimp only
      split
      · exact (endDesc_hide (M := M) h_fe _ _ _ _ _ _).trans ((setDesc_hide (M := M) h_fe _ _).trans h1)
      split
      · refine (stopFault_hide (M := M) h_fe _ _).trans ?_
        split
        · exact h1
        · exact (abandon_hide (M := M) h_sp h_up h_fl _ _).trans h1
      · refine (ih _ _ _).trans ?_
        split
        · exact (runAhead_hide (M := M) h_fe h_xl h_tel h_out _ _ _).trans h1
        · exact h1

theorem bulkSeg_hide (h_xl : M .xl = true) (h_tel : M .tel = true) (h_out : M .out = true) (s : State) (d : Desc) (i : Nat) : hide M (State.bulkSeg s d i).1 = hide M s := by
  unfold State.bulkSeg
  split
  · rfl
  · rename_i r _
    have h1 := prickSeg_hide (M := M) h_xl h_tel h_out s d i r
    split
    · rename_i e
      rw [e] at h1
      exact h1
    · rename_i e
      rw [e] at h1
      exact h1

theorem prickAll_hide (h_fe : M .fe = true) (h_xl : M .xl = true) (h_sp : M .sp = true) (h_up : M .up = true) (h_fl : M .fl = true) (h_tel : M .tel = true) (h_out : M .out = true) (s : State) (d : Desc) : hide M (State.prickAll s d) = hide M s := by
  have two : ∀ (s : State) (d : Desc), hide M (if (s.bulkSeg d 0).2.2 then s.bulkSeg d 0 else (s.bulkSeg d 0).1.bulkSeg (s.bulkSeg d 0).2.1 1).1 = hide M s := by
    intro s d
    split
    · exact bulkSeg_hide (M := M) h_xl h_tel h_out _ _ _
    · exact (bulkSeg_hide (M := M) h_xl h_tel h_out _ _ _).trans (bulkSeg_hide (M := M) h_xl h_tel h_out _ _ _)
  unfold State.prickAll
  split
  · extract_lets a b
    have h : hide M b.1 = hide M s := two s d
    clear_value b
    split
    · exact (endDesc_hide (M := M) h_fe _ _ _ _ _ _).trans ((setDesc_hide (M := M) h_fe _ _).trans h)
    split
    · exact (park_hide (M := M) h_fe h_tel _ _).trans h
    · exact (prickFrom_hide (M := M) h_fe h_xl h_sp h_up h_fl h_tel h_out _ _ _ _).trans h
  · exact prickFrom_hide (M := M) h_fe h_xl h_sp h_up h_fl h_tel h_out _ _ _ _

theorem prick_hide (h_fe : M .fe = true) (h_xl : M .xl = true) (h_sp : M .sp = true) (h_up : M .up = true) (h_fl : M .fl = true) (h_tel : M .tel = true) (h_out : M .out = true) (s : State) (id : Nat) : hide M (State.prick s id) = hide M s := by
  unfold State.prick
  try dsimp only
  repeat' first
    | with_reducible rfl
    | (simp only [hide_ite, ite_self, ite_fst, implies_true, eq_self, h_fe, h_xl, h_sp, h_up, h_fl, h_tel, h_out, prickAll_hide]; done)
    | with_reducible apply hide_if
    | with_reducible apply hide_if1
    | split
    | (rw [forEach_hide])
    | (rw [foldl_hide])
    | (rw [foldlS_hide])
    | (intro; intros; try dsimp only)
    | (simp only [hide_ite, ite_self, ite_fst, implies_true, eq_self, h_fe, h_xl, h_sp, h_up, h_fl, h_tel, h_out, prickAll_hide])

theorem retryParked_hide (h_fe : M .fe = true) (h_xl : M .xl = true) (h_sp : M .sp = true) (h_up : M .up = true) (h_fl : M .fl = true) (h_tel : M .tel = true) (h_out : M .out = true) (s : State) : hide M (State.retryParked s) = hide M s := by
  unfold State.retryParked
  try dsimp only
  repeat' first
    | with_reducible rfl
    | (simp only [hide_ite, ite_self, ite_fst, implies_true, eq_self, h_fe, h_xl, h_sp, h_up, h_fl, h_tel, h_out, forEach_hide, prick_hide]; done)
    | with_reducible apply hide_if
    | with_reducible apply hide_if1
    | split
    | (rw [forEach_hide])
    | (rw [foldl_hide])
    | (rw [foldlS_hide])
    | (intro; intros; try dsimp only)
    | (simp only [hide_ite, ite_self, ite_fst, implies_true, eq_self, h_fe, h_xl, h_sp, h_up, h_fl, h_tel, h_out, forEach_hide, prick_hide])

theorem takeXlates_hide (h_fe : M .fe = true) (h_xl : M .xl = true) (s : State) (d : Desc) (xs : List Xlate) : hide M (State.takeXlates s d xs) = hide M s := by
  unfold State.takeXlates
  try dsimp only
  repeat' first
    | with_reducible rfl
    | (simp only [hide_ite, ite_self, ite_fst, implies_true, eq_self, h_fe, h_xl, forEach_hide, onXl_hide, setDesc_hide]; done)
    | with_reducible apply hide_if
    | with_reducible apply hide_if1
    | split
    | (rw [forEach_hide])
    | (rw [foldl_hide])
    | (rw [foldlS_hide])
    | (intro; intros; try dsimp only)
    | (simp only [hide_ite, ite_self, ite_fst, implies_true, eq_self, h_fe, h_xl, forEach_hide, onXl_hide, setDesc_hide])

theorem passBytes_hide (h_fe : M .fe = true) (h_xl : M .xl = true) (h_sp : M .sp = true) (h_up : M .up = true) (h_fl : M .fl = true) (h_tel : M .tel = true) (h_out : M .out = true) (s : State) (id : Nat) (upTo : Desc → Range → Option Nat) : hide M (State.passBytes s id upTo) = hide M s := by
  unfold State.passBytes
  try dsimp only
  repeat' first
    | with_reducible rfl
    | (simp only [hide_ite, ite_self, ite_fst, implies_true, eq_self, h_fe, h_xl, h_sp, h_up, h_fl, h_tel, h_out, onXl_hide, prick_hide, retryParked_hide, sendAll_hide, setDesc_hide]; done)
    | with_reducible apply hide_if
    | with_reducible apply hide_if1
    | split
    | (rw [forEach_hide])
    | (rw [foldl_hide])
    | (rw [foldlS_hide])
    | (intro; intros; try dsimp only)
    | (simp only [hide_ite, ite_self, ite_fst, implies_true, eq_self, h_fe, h_xl, h_sp, h_up, h_fl, h_tel, h_out, onXl_hide, prick_hide, retryParked_hide, sendAll_hide, setDesc_hide])

theorem readAnew_hide (h_fe : M .fe = true) (h_xl : M .xl = true) (h_sp : M .sp = true) (h_up : M .up = true) (h_fl : M .fl = true) (h_tel : M .tel = true) (h_out : M .out = true) (s : State) (id : Nat) : hide M (State.readAnew s id) = hide M s := by
  unfold State.readAnew
  try dsimp only
  repeat' first
    | with_reducible rfl
    | (simp only [hide_ite, ite_self, ite_fst, implies_true, eq_self, h_fe, h_xl, h_sp, h_up, h_fl, h_tel, h_out, onDesc_hide, prick_hide]; done)
    | with_reducible apply hide_if
    | with_reducible apply hide_if1
    | split
    | (rw [forEach_hide])
    | (rw [foldl_hide])
    | (rw [foldlS_hide])
    | (intro; intros; try dsimp only)
    | (simp only [hide_ite, ite_self, ite_fst, implies_true, eq_self, h_fe, h_xl, h_sp, h_up, h_fl, h_tel, h_out, onDesc_hide, prick_hide])

theorem readOn_hide (h_fe : M .fe = true) (h_xl : M .xl = true) (h_sp : M .sp = true) (h_up : M .up = true) (h_fl : M .fl = true) (h_tel : M .tel = true) (h_out : M .out = true) (s : State) (id : Nat) : hide M (State.readOn s id) = hide M s := by
  unfold State.readOn
  try dsimp only
  repeat' first
    | with_reducible rfl
    | (simp only [hide_ite, ite_self, ite_fst, implies_true, eq_self, h_fe, h_xl, h_sp, h_up, h_fl, h_tel, h_out, passBytes_hide]; done)
    | with_reducible apply hide_if
    | with_reducible apply hide_if1
    | split
    | (rw [forEach_hide])
    | (rw [foldl_hide])
    | (rw [foldlS_hide])
    | (intro; intros; try dsimp only)
    | (simp only [hide_ite, ite_self, ite_fst, implies_true, eq_self, h_fe, h_xl, h_sp, h_up, h_fl, h_tel, h_out, passBytes_hide])

theorem inputsDone_hide (h_fe : M .fe = true) (h_xl : M .xl = true) (h_sp : M .sp = true) (h_up : M .up = true) (h_fl : M .fl = true) (h_tel : M .tel = true) (h_pw : M .pw = true) (h_out : M .out = true) (s : State) (id : Nat) : hide M (State.inputsDone s id) = hide M s := by
  unfold State.inputsDone
  try dsimp only
  repeat' first
    | with_reducible rfl
    | (simp only [hide_ite, ite_self, ite_fst, implies_true, eq_self, h_fe, h_xl, h_sp, h_up, h_fl, h_tel, h_pw, h_out, fabSendAll_hide, passBytes_hide]; done)
    | with_reducible apply hide_if
    | with_reducible apply hide_if1
    | split
    | (rw [forEach_hide])
    | (rw [foldl_hide])
    | (rw [foldlS_hide])
    | (intro; intros; try dsimp only)
    | (simp only [hide_ite, ite_self, ite_fst, implies_true, eq_self, h_fe, h_xl, h_sp, h_up, h_fl, h_tel, h_pw, h_out, fabSendAll_hide, passBytes_hide])

end Sys2Proof.Laws
end

