-- ==== Sys2Proof/Laws/FrameTableOps.lean ====
section
/-!
SUPPORT. Frames of what Machine/TableOps.lean defines: the parts of the state that each may change.
-/

namespace Sys2Proof.Laws

open Sys2Proof.Machine

variable {M : Mask}

theorem tblFail_hide (h_fe : M .fe = true) (s : State) (d : Desc) (detail : Nat) : hide M (State.tblFail s d detail) = hide M s := by
  unfold State.tblFail
  simp only [eq_self, h_fe, endDesc_hide]

theorem tblEnd_hide (h_fe : M .fe = true) (s : State) (d : Desc) (st : BitVec 8) (detail done : Nat) (info : Word64) (cut : Bool) : hide M (State.tblEnd s d st detail done info cut) = hide M s := by
  unfold State.tblEnd
  simp only [eq_self, h_fe, settle_hide]

theorem tableOp_hide (h_fe : M .fe = true) (s : State) (id opc mode : Nat) (run : State → Desc → Table → Version → State) (h_run : ∀ (x0 : State) (x1 : Desc) (x2 : Table) (x3 : Version), hide M (run x0 x1 x2 x3) = hide M x0) : hide M (State.tableOp s id opc mode run) = hide M s := by
  unfold State.tableOp
  (repeat' split) <;> simp only [eq_self, h_fe, h_run, endDesc_hide]

theorem addVersion_hide (h_tb : M .tb = true) (s : State) (h : Nat) (t : Table) (v : Version) : hide M (State.addVersion s h t v) = hide M s := by
  unfold State.addVersion
  simp only [eq_self, h_tb, setTable_hide]

theorem loadOpen_hide (h_fe : M .fe = true) (h_xl : M .xl = true) (h_tb : M .tb = true) (h_out : M .out = true) (s : State) (d : Desc) (t : Table) : hide M (State.loadOpen s d t) = hide M s := by
  unfold State.loadOpen
  try dsimp only
  repeat' first
    | with_reducible rfl
    | (simp only [hide_ite, ite_self, ite_fst, implies_true, eq_self, h_fe, h_xl, h_tb, h_out, addVersion_hide, askMirror_hide, endDesc_hide, setDesc_hide, tblEnd_hide, tblFail_hide]; done)
    | with_reducible apply hide_if
    | with_reducible apply hide_if1
    | split
    | (rw [forEach_hide])
    | (rw [foldl_hide])
    | (rw [foldlS_hide])
    | (intro; intros; try dsimp only)
    | (simp only [hide_ite, ite_self, ite_fst, implies_true, eq_self, h_fe, h_xl, h_tb, h_out, addVersion_hide, askMirror_hide, endDesc_hide, setDesc_hide, tblEnd_hide, tblFail_hide])

theorem execTableLoadOpen_hide (h_fe : M .fe = true) (h_xl : M .xl = true) (h_tb : M .tb = true) (h_out : M .out = true) (id : Nat) (s : State) (t : State) (e : execTableLoadOpen id s = .next t) : hide M t = hide M s := by
  refine next_hide e ?_
  (repeat' split) <;> simp only [eq_self, h_fe, h_xl, h_tb, h_out, endDesc_hide, loadOpen_hide]

theorem unpoison_hide (h_rl : M .rl = true) (s : State) (tbl ver row : Nat) : hide M (State.unpoison s tbl ver row) = hide M s := by
  unfold State.unpoison
  simp only [eq_self, h_rl, onRl_hide]

theorem storeRow_hide (h_gs : M .gs = true) (h_mem : M .mem = true) (h_tel : M .tel = true) (s : State) (t : Table) (e : Extent) (row : Nat) (record : Bytes) : hide M (State.storeRow s t e row record) = hide M s := by
  unfold State.storeRow
  simp only [hide_ite, ite_self, eq_self, h_gs, h_mem, h_tel, encCopy_hide, writePinned_hide]

theorem mend_hide (h_tb : M .tb = true) (h_gs : M .gs = true) (h_mem : M .mem = true) (h_tel : M .tel = true) (s : State) (t : Table) (k : Key) (ver : Nat) (record : Bytes) : hide M (State.mend s t k ver record).1 = hide M s := by
  unfold State.mend
  try dsimp only
  repeat' first
    | with_reducible rfl
    | (simp only [hide_ite, ite_self, ite_fst, implies_true, eq_self, h_tb, h_gs, h_mem, h_tel, count_hide, onExtent_hide, storeRow_hide]; done)
    | with_reducible apply hide_if
    | with_reducible apply hide_if1
    | split
    | (rw [forEach_hide])
    | (rw [foldl_hide])
    | (rw [foldlS_hide])
    | (intro; intros; try dsimp only)
    | (simp only [hide_ite, ite_self, ite_fst, implies_true, eq_self, h_tb, h_gs, h_mem, h_tel, count_hide, onExtent_hide, storeRow_hide])

theorem placeRow_hide (h_tb : M .tb = true) (h_up : M .up = true) (h_ch : M .ch = true) (h_gs : M .gs = true) (h_mem : M .mem = true) (h_tel : M .tel = true) (s : State) (t : Table) (e : Extent) (row : Nat) (record : Bytes) : hide M (State.placeRow s t e row record) = hide M s := by
  unfold State.placeRow
  try dsimp only
  repeat' first
    | with_reducible rfl
    | (simp only [hide_ite, ite_self, ite_fst, implies_true, eq_self, h_tb, h_up, h_ch, h_gs, h_mem, h_tel, addTwinN_hide, count_hide, dropRow_hide, onExtent_hide, putTwin_hide, storeRow_hide]; done)
    | with_reducible apply hide_if
    | with_reducible apply hide_if1
    | split
    | (rw [forEach_hide])
    | (rw [foldl_hide])
    | (rw [foldlS_hide])
    | (intro; intros; try dsimp only)
    | (simp only [hide_ite, ite_self, ite_fst, implies_true, eq_self, h_tb, h_up, h_ch, h_gs, h_mem, h_tel, addTwinN_hide, count_hide, dropRow_hide, onExtent_hide, putTwin_hide, storeRow_hide])

theorem fillRow_hide (h_tb : M .tb = true) (h_up : M .up = true) (h_ch : M .ch = true) (h_gs : M .gs = true) (h_mem : M .mem = true) (h_tel : M .tel = true) (h_rl : M .rl = true) (s : State) (t : Table) (v : Version) (h row : Nat) (record : Bytes) : hide M (State.fillRow s t v h row record) = hide M s := by
  unfold State.fillRow
  try dsimp only
  repeat' first
    | with_reducible rfl
    | (simp only [hide_ite, ite_self, ite_fst, implies_true, eq_self, h_tb, h_up, h_ch, h_gs, h_mem, h_tel, h_rl, clean_hide, dropRow_hide, placeRow_hide, putTwin_hide, storeRow_hide, unpoison_hide]; done)
    | with_reducible apply hide_if
    | with_reducible apply hide_if1
    | split
    | (rw [forEach_hide])
    | (rw [foldl_hide])
    | (rw [foldlS_hide])
    | (intro; intros; try dsimp only)
    | (simp only [hide_ite, ite_self, ite_fst, implies_true, eq_self, h_tb, h_up, h_ch, h_gs, h_mem, h_tel, h_rl, clean_hide, dropRow_hide, placeRow_hide, putTwin_hide, storeRow_hide, unpoison_hide])

theorem fillBlock_hide (h_gs : M .gs = true) (h_fl : M .fl = true) (h_tel : M .tel = true) (h_out : M .out = true) (s : State) (d : Desc) (t : Table) (v : Version) (first n : Nat) (src : Bytes) (lead : Nat) : hide M (State.fillBlock s d t v first n src lead) = hide M s := by
  unfold State.fillBlock
  try dsimp only
  repeat' first
    | with_reducible rfl
    | (simp only [hide_ite, ite_self, ite_fst, implies_true, eq_self, h_gs, h_fl, h_tel, h_out, queueCmd_hide, readBlock_hide]; done)
    | with_reducible apply hide_if
    | with_reducible apply hide_if1
    | split
    | (rw [forEach_hide])
    | (rw [foldl_hide])
    | (rw [foldlS_hide])
    | (intro; intros; try dsimp only)
    | (simp only [hide_ite, ite_self, ite_fst, implies_true, eq_self, h_gs, h_fl, h_tel, h_out, queueCmd_hide, readBlock_hide])

theorem fillWait_hide (h_fe : M .fe = true) (s : State) (id : Nat) : hide M (State.fillWait s id) = hide M s := by
  unfold State.fillWait
  try dsimp only
  repeat' first
    | with_reducible rfl
    | (simp only [hide_ite, ite_self, ite_fst, implies_true, eq_self, h_fe, onDesc_hide]; done)
    | with_reducible apply hide_if
    | with_reducible apply hide_if1
    | split
    | (rw [forEach_hide])
    | (rw [foldl_hide])
    | (rw [foldlS_hide])
    | (intro; intros; try dsimp only)
    | (simp only [hide_ite, ite_self, ite_fst, implies_true, eq_self, h_fe, onDesc_hide])

theorem loadFill_hide (h_fe : M .fe = true) (h_xl : M .xl = true) (h_tb : M .tb = true) (h_sp : M .sp = true) (h_up : M .up = true) (h_ch : M .ch = true) (h_gs : M .gs = true) (h_mem : M .mem = true) (h_fl : M .fl = true) (h_tel : M .tel = true) (h_pw : M .pw = true) (h_rl : M .rl = true) (h_out : M .out = true) (s : State) (d : Desc) (t : Table) (v : Version) (src : Feed) : hide M (State.loadFill s d t v src) = hide M s := by
  unfold State.loadFill
  try dsimp only
  repeat' first
    | with_reducible rfl
    | (simp only [hide_ite, ite_self, ite_fst, implies_true, eq_self, h_fe, h_xl, h_tb, h_sp, h_up, h_ch, h_gs, h_mem, h_fl, h_tel, h_pw, h_rl, h_out, forEach_hide, countN_hide, count_hide, endDesc_hide, fillBlock_hide, fillRow_hide, fillWait_hide, inputsDone_hide, tblEnd_hide, tblFail_hide]; done)
    | with_reducible apply hide_if
    | with_reducible apply hide_if1
    | split
    | (rw [forEach_hide])
    | (rw [foldl_hide])
    | (rw [foldlS_hide])
    | (intro; intros; try dsimp only)
    | (simp only [hide_ite, ite_self, ite_fst, implies_true, eq_self, h_fe, h_xl, h_tb, h_sp, h_up, h_ch, h_gs, h_mem, h_fl, h_tel, h_pw, h_rl, h_out, forEach_hide, countN_hide, count_hide, endDesc_hide, fillBlock_hide, fillRow_hide, fillWait_hide, inputsDone_hide, tblEnd_hide, tblFail_hide])

theorem execTableLoadFill_hide (h_fe : M .fe = true) (h_xl : M .xl = true) (h_tb : M .tb = true) (h_sp : M .sp = true) (h_up : M .up = true) (h_ch : M .ch = true) (h_gs : M .gs = true) (h_mem : M .mem = true) (h_fl : M .fl = true) (h_tel : M .tel = true) (h_pw : M .pw = true) (h_rl : M .rl = true) (h_out : M .out = true) (id : Nat) (src : Feed) (s : State) (t : State) (e : execTableLoadFill id src s = .next t) : hide M t = hide M s := by
  simp only [execTableLoadFill, Host.Outcome.next.injEq] at e
  subst e
  repeat' first
    | with_reducible rfl
    | (simp only [hide_ite, ite_self, ite_fst, implies_true, eq_self, h_fe, h_xl, h_tb, h_sp, h_up, h_ch, h_gs, h_mem, h_fl, h_tel, h_pw, h_rl, h_out, loadFill_hide, readOn_hide, tableOp_hide]; done)
    | with_reducible apply hide_if
    | with_reducible apply hide_if1
    | split
    | (rw [forEach_hide])
    | (rw [foldl_hide])
    | (rw [foldlS_hide])
    | (rw [tableOp_hide])
    | assumption
    | (intro; intros; try dsimp only)
    | (simp only [hide_ite, ite_self, ite_fst, implies_true, eq_self, h_fe, h_xl, h_tb, h_sp, h_up, h_ch, h_gs, h_mem, h_fl, h_tel, h_pw, h_rl, h_out, loadFill_hide, readOn_hide, tableOp_hide])

theorem addExtent_hide (h_tb : M .tb = true) (s : State) (e : Extent) : hide M (State.addExtent s e) = hide M s := by
  unfold State.addExtent
  simp only [eq_self, h_tb, onTb_hide]

theorem pinBacking_hide (h_tb : M .tb = true) (h_up : M .up = true) (h_ch : M .ch = true) (h_gs : M .gs = true) (h_mem : M .mem = true) (h_fl : M .fl = true) (h_tel : M .tel = true) (h_rl : M .rl = true) (h_out : M .out = true) (s : State) (t : Table) (v : Version) (e : Extent) (rows : List RowFetch) (y0 : List Nat) : hide M (State.pinBacking s t v e rows y0).1 = hide M s := by
  fun_induction State.pinBacking s t v e rows y0
  all_goals
    repeat' first
      | with_reducible rfl
      | assumption
      | (simp +zetaDelta only [*, hide_ite, ite_self, ite_fst, implies_true, eq_self, h_tb, h_up, h_ch, h_gs, h_mem, h_fl, h_tel, h_rl, h_out, placeRow_hide, readRow_hide]; done)
      | with_reducible apply hide_if
      | with_reducible apply hide_if1
      | split
      | (rw [forEach_hide])
      | (rw [foldl_hide])
      | (rw [foldlS_hide])
      | (intro; intros; try dsimp only)
      | (simp +zetaDelta only [*, hide_ite, ite_self, ite_fst, implies_true, eq_self, h_tb, h_up, h_ch, h_gs, h_mem, h_fl, h_tel, h_rl, h_out, placeRow_hide, readRow_hide])

theorem pinFromBacking_hide (h_fe : M .fe = true) (h_tb : M .tb = true) (h_up : M .up = true) (h_ch : M .ch = true) (h_gs : M .gs = true) (h_mem : M .mem = true) (h_fl : M .fl = true) (h_tel : M .tel = true) (h_rl : M .rl = true) (h_out : M .out = true) (s : State) (d : Desc) (t : Table) (v : Version) (rows : List RowFetch) : hide M (State.pinFromBacking s d t v rows) = hide M s := by
  unfold State.pinFromBacking
  try dsimp only
  repeat' first
    | with_reducible rfl
    | (simp only [hide_ite, ite_self, ite_fst, implies_true, eq_self, h_fe, h_tb, h_up, h_ch, h_gs, h_mem, h_fl, h_tel, h_rl, h_out, addExtent_hide, count_hide, pinBacking_hide, tblEnd_hide, tblFail_hide]; done)
    | with_reducible apply hide_if
    | with_reducible apply hide_if1
    | split
    | (rw [forEach_hide])
    | (rw [foldl_hide])
    | (rw [foldlS_hide])
    | (intro; intros; try dsimp only)
    | (simp only [hide_ite, ite_self, ite_fst, implies_true, eq_self, h_fe, h_tb, h_up, h_ch, h_gs, h_mem, h_fl, h_tel, h_rl, h_out, addExtent_hide, count_hide, pinBacking_hide, tblEnd_hide, tblFail_hide])

theorem execTablePinFromBacking_hide (h_fe : M .fe = true) (h_tb : M .tb = true) (h_up : M .up = true) (h_ch : M .ch = true) (h_gs : M .gs = true) (h_mem : M .mem = true) (h_fl : M .fl = true) (h_tel : M .tel = true) (h_rl : M .rl = true) (h_out : M .out = true) (id : Nat) (rows : List RowFetch) (s : State) (t : State) (e : execTablePinFromBacking id rows s = .next t) : hide M t = hide M s := by
  simp only [execTablePinFromBacking, Host.Outcome.next.injEq] at e
  subst e
  repeat' first
    | with_reducible rfl
    | (simp only [hide_ite, ite_self, ite_fst, implies_true, eq_self, h_fe, h_tb, h_up, h_ch, h_gs, h_mem, h_fl, h_tel, h_rl, h_out, pinFromBacking_hide, tableOp_hide]; done)
    | with_reducible apply hide_if
    | with_reducible apply hide_if1
    | split
    | (rw [forEach_hide])
    | (rw [foldl_hide])
    | (rw [foldlS_hide])
    | (rw [tableOp_hide])
    | assumption
    | (intro; intros; try dsimp only)
    | (simp only [hide_ite, ite_self, ite_fst, implies_true, eq_self, h_fe, h_tb, h_up, h_ch, h_gs, h_mem, h_fl, h_tel, h_rl, h_out, pinFromBacking_hide, tableOp_hide])

theorem pinFromSrc_hide (h_fe : M .fe = true) (h_xl : M .xl = true) (h_tb : M .tb = true) (h_sp : M .sp = true) (h_up : M .up = true) (h_ch : M .ch = true) (h_gs : M .gs = true) (h_mem : M .mem = true) (h_fl : M .fl = true) (h_tel : M .tel = true) (h_pw : M .pw = true) (h_rl : M .rl = true) (h_out : M .out = true) (s : State) (d : Desc) (t : Table) (v : Version) (src : Feed) : hide M (State.pinFromSrc s d t v src) = hide M s := by
  unfold State.pinFromSrc
  try dsimp only
  repeat' first
    | with_reducible rfl
    | (simp only [hide_ite, ite_self, ite_fst, implies_true, eq_self, h_fe, h_xl, h_tb, h_sp, h_up, h_ch, h_gs, h_mem, h_fl, h_tel, h_pw, h_rl, h_out, forEach_hide, addExtent_hide, count_hide, inputsDone_hide, placeRow_hide, tblEnd_hide, tblFail_hide, unpoison_hide, countN_hide]; done)
    | with_reducible apply hide_if
    | with_reducible apply hide_if1
    | split
    | (rw [forEach_hide])
    | (rw [foldl_hide])
    | (rw [foldlS_hide])
    | (intro; intros; try dsimp only)
    | (simp only [hide_ite, ite_self, ite_fst, implies_true, eq_self, h_fe, h_xl, h_tb, h_sp, h_up, h_ch, h_gs, h_mem, h_fl, h_tel, h_pw, h_rl, h_out, forEach_hide, addExtent_hide, count_hide, inputsDone_hide, placeRow_hide, tblEnd_hide, tblFail_hide, unpoison_hide, countN_hide])

theorem execTablePinFromSrc_hide (h_fe : M .fe = true) (h_xl : M .xl = true) (h_tb : M .tb = true) (h_sp : M .sp = true) (h_up : M .up = true) (h_ch : M .ch = true) (h_gs : M .gs = true) (h_mem : M .mem = true) (h_fl : M .fl = true) (h_tel : M .tel = true) (h_pw : M .pw = true) (h_rl : M .rl = true) (h_out : M .out = true) (id : Nat) (src : Feed) (s : State) (t : State) (e : execTablePinFromSrc id src s = .next t) : hide M t = hide M s := by
  simp only [execTablePinFromSrc, Host.Outcome.next.injEq] at e
  subst e
  repeat' first
    | with_reducible rfl
    | (simp only [hide_ite, ite_self, ite_fst, implies_true, eq_self, h_fe, h_xl, h_tb, h_sp, h_up, h_ch, h_gs, h_mem, h_fl, h_tel, h_pw, h_rl, h_out, pinFromSrc_hide, readOn_hide, tableOp_hide]; done)
    | with_reducible apply hide_if
    | with_reducible apply hide_if1
    | split
    | (rw [forEach_hide])
    | (rw [foldl_hide])
    | (rw [foldlS_hide])
    | (rw [tableOp_hide])
    | assumption
    | (intro; intros; try dsimp only)
    | (simp only [hide_ite, ite_self, ite_fst, implies_true, eq_self, h_fe, h_xl, h_tb, h_sp, h_up, h_ch, h_gs, h_mem, h_fl, h_tel, h_pw, h_rl, h_out, pinFromSrc_hide, readOn_hide, tableOp_hide])

theorem flushRows_hide (h_tb : M .tb = true) (h_up : M .up = true) (h_ch : M .ch = true) (h_gs : M .gs = true) (h_fl : M .fl = true) (h_tel : M .tel = true) (h_out : M .out = true) (s : State) (t : Table) (v : Version) (h : Nat) (fails : List RowFail) (y0 : List Nat) : hide M (State.flushRows s t v h fails y0).1 = hide M s := by
  fun_induction State.flushRows s t v h fails y0
  all_goals
    repeat' first
      | with_reducible rfl
      | assumption
      | (simp +zetaDelta only [*, hide_ite, ite_self, ite_fst, implies_true, eq_self, h_tb, h_up, h_ch, h_gs, h_fl, h_tel, h_out, writeBackRow_hide]; done)
      | with_reducible apply hide_if
      | with_reducible apply hide_if1
      | split
      | (rw [forEach_hide])
      | (rw [foldl_hide])
      | (rw [foldlS_hide])
      | (intro; intros; try dsimp only)
      | (simp +zetaDelta only [*, hide_ite, ite_self, ite_fst, implies_true, eq_self, h_tb, h_up, h_ch, h_gs, h_fl, h_tel, h_out, writeBackRow_hide])

theorem countEvict_hide (h_tel : M .tel = true) (s s0 : State) : hide M (State.countEvict s s0) = hide M s := by
  unfold State.countEvict
  simp only [eq_self, h_tel, countN_hide]

theorem evictEnd_hide (h_fe : M .fe = true) (s : State) (d : Desc) (t : Table) (failed : List (Nat × BitVec 8)) : hide M (State.evictEnd s d t failed) = hide M s := by
  unfold State.evictEnd
  try dsimp only
  repeat' first
    | with_reducible rfl
    | (simp only [hide_ite, ite_self, ite_fst, implies_true, eq_self, h_fe, tblEnd_hide]; done)
    | with_reducible apply hide_if
    | with_reducible apply hide_if1
    | split
    | (rw [forEach_hide])
    | (rw [foldl_hide])
    | (rw [foldlS_hide])
    | (intro; intros; try dsimp only)
    | (simp only [hide_ite, ite_self, ite_fst, implies_true, eq_self, h_fe, tblEnd_hide])

theorem evictRows_hide (h_fe : M .fe = true) (h_tb : M .tb = true) (h_up : M .up = true) (h_ch : M .ch = true) (h_gs : M .gs = true) (h_fl : M .fl = true) (h_tel : M .tel = true) (h_out : M .out = true) (s : State) (d : Desc) (t : Table) (v : Version) (fails : List RowFail) : hide M (State.evictRows s d t v fails) = hide M s := by
  unfold State.evictRows
  try dsimp only
  repeat' first
    | with_reducible rfl
    | (simp only [hide_ite, ite_self, ite_fst, implies_true, eq_self, h_fe, h_tb, h_up, h_ch, h_gs, h_fl, h_tel, h_out, forEach_hide, countEvict_hide, count_hide, dropRow_hide, evictEnd_hide, flushRows_hide, tblFail_hide]; done)
    | with_reducible apply hide_if
    | with_reducible apply hide_if1
    | split
    | (rw [forEach_hide])
    | (rw [foldl_hide])
    | (rw [foldlS_hide])
    | (intro; intros; try dsimp only)
    | (simp only [hide_ite, ite_self, ite_fst, implies_true, eq_self, h_fe, h_tb, h_up, h_ch, h_gs, h_fl, h_tel, h_out, forEach_hide, countEvict_hide, count_hide, dropRow_hide, evictEnd_hide, flushRows_hide, tblFail_hide])

theorem execTableEvictRows_hide (h_fe : M .fe = true) (h_tb : M .tb = true) (h_up : M .up = true) (h_ch : M .ch = true) (h_gs : M .gs = true) (h_fl : M .fl = true) (h_tel : M .tel = true) (h_out : M .out = true) (id : Nat) (fails : List RowFail) (s : State) (t : State) (e : execTableEvictRows id fails s = .next t) : hide M t = hide M s := by
  simp only [execTableEvictRows, Host.Outcome.next.injEq] at e
  subst e
  repeat' first
    | with_reducible rfl
    | (simp only [hide_ite, ite_self, ite_fst, implies_true, eq_self, h_fe, h_tb, h_up, h_ch, h_gs, h_fl, h_tel, h_out, evictRows_hide, tableOp_hide]; done)
    | with_reducible apply hide_if
    | with_reducible apply hide_if1
    | split
    | (rw [forEach_hide])
    | (rw [foldl_hide])
    | (rw [foldlS_hide])
    | (rw [tableOp_hide])
    | assumption
    | (intro; intros; try dsimp only)
    | (simp only [hide_ite, ite_self, ite_fst, implies_true, eq_self, h_fe, h_tb, h_up, h_ch, h_gs, h_fl, h_tel, h_out, evictRows_hide, tableOp_hide])

theorem dropExtent_hide (h_tb : M .tb = true) (h_up : M .up = true) (s : State) (e : Extent) : hide M (State.dropExtent s e) = hide M s := by
  unfold State.dropExtent
  simp only [eq_self, h_tb, h_up, onTb_hide, onUp_hide]

theorem evictUnpin_hide (h_fe : M .fe = true) (h_tb : M .tb = true) (h_up : M .up = true) (h_ch : M .ch = true) (h_gs : M .gs = true) (h_fl : M .fl = true) (h_tel : M .tel = true) (h_out : M .out = true) (s : State) (d : Desc) (t : Table) (v : Version) (fails : List RowFail) : hide M (State.evictUnpin s d t v fails) = hide M s := by
  unfold State.evictUnpin
  try dsimp only
  repeat' first
    | with_reducible rfl
    | (simp only [hide_ite, ite_self, ite_fst, implies_true, eq_self, h_fe, h_tb, h_up, h_ch, h_gs, h_fl, h_tel, h_out, countEvict_hide, dropExtent_hide, evictEnd_hide, flushRows_hide, tblFail_hide]; done)
    | with_reducible apply hide_if
    | with_reducible apply hide_if1
    | split
    | (rw [forEach_hide])
    | (rw [foldl_hide])
    | (rw [foldlS_hide])
    | (intro; intros; try dsimp only)
    | (simp only [hide_ite, ite_self, ite_fst, implies_true, eq_self, h_fe, h_tb, h_up, h_ch, h_gs, h_fl, h_tel, h_out, countEvict_hide, dropExtent_hide, evictEnd_hide, flushRows_hide, tblFail_hide])

theorem execTableEvictUnpin_hide (h_fe : M .fe = true) (h_tb : M .tb = true) (h_up : M .up = true) (h_ch : M .ch = true) (h_gs : M .gs = true) (h_fl : M .fl = true) (h_tel : M .tel = true) (h_out : M .out = true) (id : Nat) (fails : List RowFail) (s : State) (t : State) (e : execTableEvictUnpin id fails s = .next t) : hide M t = hide M s := by
  simp only [execTableEvictUnpin, Host.Outcome.next.injEq] at e
  subst e
  repeat' first
    | with_reducible rfl
    | (simp only [hide_ite, ite_self, ite_fst, implies_true, eq_self, h_fe, h_tb, h_up, h_ch, h_gs, h_fl, h_tel, h_out, evictUnpin_hide, tableOp_hide]; done)
    | with_reducible apply hide_if
    | with_reducible apply hide_if1
    | split
    | (rw [forEach_hide])
    | (rw [foldl_hide])
    | (rw [foldlS_hide])
    | (rw [tableOp_hide])
    | assumption
    | (intro; intros; try dsimp only)
    | (simp only [hide_ite, ite_self, ite_fst, implies_true, eq_self, h_fe, h_tb, h_up, h_ch, h_gs, h_fl, h_tel, h_out, evictUnpin_hide, tableOp_hide])

theorem onVersion_hide (h_tb : M .tb = true) (s : State) (h ver : Nat) (f : Version → Version) : hide M (State.onVersion s h ver f) = hide M s := by
  unfold State.onVersion
  (repeat' split) <;> simp only [eq_self, h_tb, setTable_hide]

theorem execTableEvictVersion_hide (h_fe : M .fe = true) (h_tb : M .tb = true) (id : Nat) (s : State) (t : State) (e : execTableEvictVersion id s = .next t) : hide M t = hide M s := by
  refine next_hide e ?_
  simp only [hide_ite, ite_self, implies_true, eq_self, h_fe, h_tb, onVersion_hide, tableOp_hide, tblEnd_hide, tblFail_hide]

theorem switchTo_hide (h_fe : M .fe = true) (h_tb : M .tb = true) (h_tel : M .tel = true) (s : State) (d : Desc) (t : Table) (v : Version) (any : Bool) : hide M (State.switchTo s d t v any) = hide M s := by
  unfold State.switchTo
  (repeat' split) <;> simp only [eq_self, h_fe, h_tb, h_tel, count_hide, setTable_hide, tblEnd_hide, tblFail_hide]

theorem execTableSwitchForward_hide (h_fe : M .fe = true) (h_tb : M .tb = true) (h_tel : M .tel = true) (id : Nat) (s : State) (t : State) (e : execTableSwitchForward id s = .next t) : hide M t = hide M s := by
  refine next_hide e ?_
  simp only [implies_true, eq_self, h_fe, h_tb, h_tel, switchTo_hide, tableOp_hide]

theorem execTableSwitchAny_hide (h_fe : M .fe = true) (h_tb : M .tb = true) (h_tel : M .tel = true) (id : Nat) (s : State) (t : State) (e : execTableSwitchAny id s = .next t) : hide M t = hide M s := by
  refine next_hide e ?_
  simp only [implies_true, eq_self, h_fe, h_tb, h_tel, switchTo_hide, tableOp_hide]

end Sys2Proof.Laws
end

