-- ==== Sys2Proof/Laws/FrameAdvice.lean ====
section
/-!
SUPPORT. Frames of what Machine/Advice.lean defines: the parts of the state that each may change.
-/

namespace Sys2Proof.Laws

open Sys2Proof.Machine

variable {M : Mask}

theorem bringRow_hide (h_tb : M .tb = true) (h_up : M .up = true) (h_ch : M .ch = true) (h_gs : M .gs = true) (h_mem : M .mem = true) (h_fl : M .fl = true) (h_tel : M .tel = true) (h_rl : M .rl = true) (h_out : M .out = true) (s : State) (t : Table) (v : Version) (k : Key) (src : RowSrc) (fails : WbFails) : hide M (State.bringRow s t v k src fails).1 = hide M s := by
  unfold State.bringRow
  try dsimp only
  repeat' first
    | with_reducible rfl
    | (simp only [hide_ite, ite_self, ite_fst, implies_true, eq_self, h_tb, h_up, h_ch, h_gs, h_mem, h_fl, h_tel, h_rl, h_out, admitForced_hide, bump_hide, count_hide, readRow_hide]; done)
    | with_reducible apply hide_if
    | with_reducible apply hide_if1
    | split
    | (rw [forEach_hide])
    | (rw [foldl_hide])
    | (rw [foldlS_hide])
    | (intro; intros; try dsimp only)
    | (simp only [hide_ite, ite_self, ite_fst, implies_true, eq_self, h_tb, h_up, h_ch, h_gs, h_mem, h_fl, h_tel, h_rl, h_out, admitForced_hide, bump_hide, count_hide, readRow_hide])

theorem bringRows_hide (h_tb : M .tb = true) (h_up : M .up = true) (h_ch : M .ch = true) (h_gs : M .gs = true) (h_mem : M .mem = true) (h_fl : M .fl = true) (h_tel : M .tel = true) (h_rl : M .rl = true) (h_out : M .out = true) (s : State) (t : Table) (v : Version) (rows : List RowFetch) (fails : WbFails) (y0 : List Key) : hide M (State.bringRows s t v rows fails y0).1 = hide M s := by
  fun_induction State.bringRows s t v rows fails y0
  all_goals
    repeat' first
      | with_reducible rfl
      | assumption
      | (simp +zetaDelta only [*, hide_ite, ite_self, ite_fst, implies_true, eq_self, h_tb, h_up, h_ch, h_gs, h_mem, h_fl, h_tel, h_rl, h_out, bringRow_hide]; done)
      | with_reducible apply hide_if
      | with_reducible apply hide_if1
      | split
      | (rw [forEach_hide])
      | (rw [foldl_hide])
      | (rw [foldlS_hide])
      | (intro; intros; try dsimp only)
      | (simp +zetaDelta only [*, hide_ite, ite_self, ite_fst, implies_true, eq_self, h_tb, h_up, h_ch, h_gs, h_mem, h_fl, h_tel, h_rl, h_out, bringRow_hide])

theorem prefetchEnd_hide (h_fe : M .fe = true) (s : State) (id n : Nat) (bad : List (Key × BitVec 8)) : hide M (State.prefetchEnd s id n bad) = hide M s := by
  unfold State.prefetchEnd
  (repeat' split) <;> simp only [eq_self, h_fe, endDesc_hide, endOk_hide]

theorem rowRange_hide (h_fe : M .fe = true) (h_tb : M .tb = true) (h_up : M .up = true) (h_ch : M .ch = true) (h_gs : M .gs = true) (h_mem : M .mem = true) (h_fl : M .fl = true) (h_tel : M .tel = true) (h_rl : M .rl = true) (h_out : M .out = true) (s : State) (d : Desc) (rows : List RowFetch) (fails : WbFails) : hide M (State.rowRange s d rows fails) = hide M s := by
  unfold State.rowRange
  try dsimp only
  repeat' first
    | with_reducible rfl
    | (simp only [hide_ite, ite_self, ite_fst, implies_true, eq_self, h_fe, h_tb, h_up, h_ch, h_gs, h_mem, h_fl, h_tel, h_rl, h_out, bringRows_hide, count_hide, endDesc_hide, prefetchEnd_hide]; done)
    | with_reducible apply hide_if
    | with_reducible apply hide_if1
    | split
    | (rw [forEach_hide])
    | (rw [foldl_hide])
    | (rw [foldlS_hide])
    | (intro; intros; try dsimp only)
    | (simp only [hide_ite, ite_self, ite_fst, implies_true, eq_self, h_fe, h_tb, h_up, h_ch, h_gs, h_mem, h_fl, h_tel, h_rl, h_out, bringRows_hide, count_hide, endDesc_hide, prefetchEnd_hide])

theorem execRowRange_hide (h_fe : M .fe = true) (h_tb : M .tb = true) (h_up : M .up = true) (h_ch : M .ch = true) (h_gs : M .gs = true) (h_mem : M .mem = true) (h_fl : M .fl = true) (h_tel : M .tel = true) (h_rl : M .rl = true) (h_out : M .out = true) (id : Nat) (rows : List RowFetch) (fails : WbFails) (s : State) (t : State) (e : execRowRange id rows fails s = .next t) : hide M t = hide M s := by
  simp only [execRowRange, Host.Outcome.next.injEq] at e
  subst e
  repeat' first
    | with_reducible rfl
    | (simp only [hide_ite, ite_self, ite_fst, implies_true, eq_self, h_fe, h_tb, h_up, h_ch, h_gs, h_mem, h_fl, h_tel, h_rl, h_out, rowRange_hide]; done)
    | with_reducible apply hide_if
    | with_reducible apply hide_if1
    | split
    | (rw [forEach_hide])
    | (rw [foldl_hide])
    | (rw [foldlS_hide])
    | (intro; intros; try dsimp only)
    | (simp only [hide_ite, ite_self, ite_fst, implies_true, eq_self, h_fe, h_tb, h_up, h_ch, h_gs, h_mem, h_fl, h_tel, h_rl, h_out, rowRange_hide])

theorem execXlate_hide (h_fe : M .fe = true) (h_tel : M .tel = true) (id : Nat) (s : State) (t : State) (e : execXlate id s = .next t) : hide M t = hide M s := by
  refine next_hide e ?_
  (repeat' split) <;> simp only [eq_self, h_fe, endOk_hide]

theorem execSequential_hide (h_fe : M .fe = true) (h_xl : M .xl = true) (h_tel : M .tel = true) (id : Nat) (s : State) (t : State) (e : execSequential id s = .next t) : hide M t = hide M s := by
  refine next_hide e ?_
  (repeat' split) <;> simp only [eq_self, h_fe, h_xl, endOk_hide, onXl_hide]

theorem execNormal_hide (h_fe : M .fe = true) (h_xl : M .xl = true) (h_tel : M .tel = true) (id : Nat) (s : State) (t : State) (e : execNormal id s = .next t) : hide M t = hide M s := by
  refine next_hide e ?_
  (repeat' split) <;> simp only [eq_self, h_fe, h_xl, endOk_hide, onXl_hide]

theorem spareRow_hide (h_tb : M .tb = true) (h_up : M .up = true) (h_ch : M .ch = true) (h_gs : M .gs = true) (h_mem : M .mem = true) (h_fl : M .fl = true) (h_tel : M .tel = true) (h_rl : M .rl = true) (h_out : M .out = true) (s : State) (t : Table) (v : Version) (k : Key) (src : RowSrc) : hide M (State.spareRow s t v k src) = hide M s := by
  unfold State.spareRow
  try dsimp only
  repeat' first
    | with_reducible rfl
    | (simp only [hide_ite, ite_self, ite_fst, implies_true, eq_self, h_tb, h_up, h_ch, h_gs, h_mem, h_fl, h_tel, h_rl, h_out, admitForced_hide, bringIn_hide, count_hide, readRow_hide]; done)
    | with_reducible apply hide_if
    | with_reducible apply hide_if1
    | split
    | (rw [forEach_hide])
    | (rw [foldl_hide])
    | (rw [foldlS_hide])
    | (intro; intros; try dsimp only)
    | (simp only [hide_ite, ite_self, ite_fst, implies_true, eq_self, h_tb, h_up, h_ch, h_gs, h_mem, h_fl, h_tel, h_rl, h_out, admitForced_hide, bringIn_hide, count_hide, readRow_hide])

theorem execWillneed_hide (h_fe : M .fe = true) (h_tb : M .tb = true) (h_up : M .up = true) (h_ch : M .ch = true) (h_gs : M .gs = true) (h_mem : M .mem = true) (h_fl : M .fl = true) (h_tel : M .tel = true) (h_rl : M .rl = true) (h_out : M .out = true) (id : Nat) (rows : List RowFetch) (s : State) (t : State) (e : execWillneed id rows s = .next t) : hide M t = hide M s := by
  simp only [execWillneed, Host.Outcome.next.injEq] at e
  subst e
  repeat' first
    | with_reducible rfl
    | (simp only [hide_ite, ite_self, ite_fst, implies_true, eq_self, h_fe, h_tb, h_up, h_ch, h_gs, h_mem, h_fl, h_tel, h_rl, h_out, forEach_hide, endDesc_hide, endOk_hide, spareRow_hide]; done)
    | with_reducible apply hide_if
    | with_reducible apply hide_if1
    | split
    | (rw [forEach_hide])
    | (rw [foldl_hide])
    | (rw [foldlS_hide])
    | (intro; intros; try dsimp only)
    | (simp only [hide_ite, ite_self, ite_fst, implies_true, eq_self, h_fe, h_tb, h_up, h_ch, h_gs, h_mem, h_fl, h_tel, h_rl, h_out, forEach_hide, endDesc_hide, endOk_hide, spareRow_hide])

theorem dontneedVer_hide (h_tb : M .tb = true) (h_up : M .up = true) (h_ch : M .ch = true) (h_gs : M .gs = true) (h_fl : M .fl = true) (h_tel : M .tel = true) (h_out : M .out = true) (s : State) (h : Nat) (t : Table) (v : Version) (first last : Nat) (fails : List RowFail) : hide M (State.dontneedVer s h t v first last fails) = hide M s := by
  unfold State.dontneedVer
  try dsimp only
  repeat' first
    | with_reducible rfl
    | (simp only [hide_ite, ite_self, ite_fst, implies_true, eq_self, h_tb, h_up, h_ch, h_gs, h_fl, h_tel, h_out, forEach_hide, dropReplicas_hide, flushRows_hide]; done)
    | with_reducible apply hide_if
    | with_reducible apply hide_if1
    | split
    | (rw [forEach_hide])
    | (rw [foldl_hide])
    | (rw [foldlS_hide])
    | (intro; intros; try dsimp only)
    | (simp only [hide_ite, ite_self, ite_fst, implies_true, eq_self, h_tb, h_up, h_ch, h_gs, h_fl, h_tel, h_out, forEach_hide, dropReplicas_hide, flushRows_hide])

theorem execDontneed_hide (h_fe : M .fe = true) (h_tb : M .tb = true) (h_up : M .up = true) (h_ch : M .ch = true) (h_gs : M .gs = true) (h_fl : M .fl = true) (h_tel : M .tel = true) (h_out : M .out = true) (id : Nat) (fails : List RowFail) (s : State) (t : State) (e : execDontneed id fails s = .next t) : hide M t = hide M s := by
  simp only [execDontneed, Host.Outcome.next.injEq] at e
  subst e
  repeat' first
    | with_reducible rfl
    | (simp only [hide_ite, ite_self, ite_fst, implies_true, eq_self, h_fe, h_tb, h_up, h_ch, h_gs, h_fl, h_tel, h_out, forEach_hide, dontneedVer_hide, endDesc_hide, endOk_hide, markHead_hide, onWays_hide]; done)
    | with_reducible apply hide_if
    | with_reducible apply hide_if1
    | split
    | (rw [forEach_hide])
    | (rw [foldl_hide])
    | (rw [foldlS_hide])
    | (intro; intros; try dsimp only)
    | (simp only [hide_ite, ite_self, ite_fst, implies_true, eq_self, h_fe, h_tb, h_up, h_ch, h_gs, h_fl, h_tel, h_out, forEach_hide, dontneedVer_hide, endDesc_hide, endOk_hide, markHead_hide, onWays_hide])

end Sys2Proof.Laws
end

