-- ==== Sys2Proof/Laws/CanonAdvice.lean ====
section
/-!
SUPPORT. What Machine/Advice.lean defines keeps Ground store's bytes in canonical form.
-/

namespace Sys2Proof.Laws

open Sys2Proof.Machine

theorem bringRow_canon (s : State) (t : Table) (v : Version) (k : Key) (src : RowSrc) (fails : WbFails) (hs : Canon (hide butMem s)) : Canon (hide butMem (State.bringRow s t v k src fails).1) := by
  unfold State.bringRow
  try dsimp only
  repeat' first
    | with_reducible assumption
    | split
    | (with_reducible apply admitForced_canon)
    | with_reducible apply forEach_canon
    | with_reducible apply foldl_canon
    | (intro; intros; try dsimp only)
    | (simp only [bump_hide (M := butMem) rfl rfl rfl, count_hide (M := butMem) rfl, readRow_hide (M := butMem) rfl rfl rfl rfl rfl rfl, implies_true, eq_self])

theorem bringRows_canon (s : State) (t : Table) (v : Version) (rows : List RowFetch) (fails : WbFails) (y0 : List Key) (hs : Canon (hide butMem s)) : Canon (hide butMem (State.bringRows s t v rows fails y0).1) := by
  fun_induction State.bringRows s t v rows fails y0
  all_goals
    repeat' first
      | with_reducible assumption
      | split
      | (with_reducible apply bringRow_canon)
      | (with_reducible apply_assumption)
      | with_reducible apply forEach_canon
      | with_reducible apply foldl_canon
      | (intro; intros; try dsimp only)
      | (simp +zetaDelta only [implies_true, eq_self])

theorem rowRange_canon (s : State) (d : Desc) (rows : List RowFetch) (fails : WbFails) (hs : Canon (hide butMem s)) : Canon (hide butMem (State.rowRange s d rows fails)) := by
  unfold State.rowRange
  try dsimp only
  repeat' first
    | with_reducible assumption
    | split
    | (with_reducible apply bringRows_canon)
    | with_reducible apply forEach_canon
    | with_reducible apply foldl_canon
    | (intro; intros; try dsimp only)
    | (simp only [count_hide (M := butMem) rfl, endDesc_hide (M := butMem) rfl, prefetchEnd_hide (M := butMem) rfl, implies_true, eq_self])

theorem execRowRange_canon (id : Nat) (rows : List RowFetch) (fails : WbFails) (s : State) (t : State) (e : execRowRange id rows fails s = .next t) (hs : Canon (hide butMem s)) : Canon (hide butMem t) := by
  refine next_canon e ?_
  repeat' first
    | with_reducible assumption
    | split
    | (with_reducible apply rowRange_canon)
    | with_reducible apply forEach_canon
    | with_reducible apply foldl_canon
    | (intro; intros; try dsimp only)
    | (simp only [implies_true, eq_self])

theorem spareRow_canon (s : State) (t : Table) (v : Version) (k : Key) (src : RowSrc) (hs : Canon (hide butMem s)) : Canon (hide butMem (State.spareRow s t v k src)) := by
  unfold State.spareRow
  try dsimp only
  repeat' first
    | with_reducible assumption
    | split
    | (with_reducible apply admitForced_canon)
    | (with_reducible apply bringIn_canon)
    | with_reducible apply forEach_canon
    | with_reducible apply foldl_canon
    | (intro; intros; try dsimp only)
    | (simp only [count_hide (M := butMem) rfl, readRow_hide (M := butMem) rfl rfl rfl rfl rfl rfl, implies_true, eq_self])

theorem execWillneed_canon (id : Nat) (rows : List RowFetch) (s : State) (t : State) (e : execWillneed id rows s = .next t) (hs : Canon (hide butMem s)) : Canon (hide butMem t) := by
  refine next_canon e ?_
  repeat' first
    | with_reducible assumption
    | split
    | (with_reducible apply spareRow_canon)
    | with_reducible apply forEach_canon
    | with_reducible apply foldl_canon
    | (intro; intros; try dsimp only)
    | (simp only [endDesc_hide (M := butMem) rfl, endOk_hide (M := butMem) rfl, forEach_hide, implies_true, eq_self])

end Sys2Proof.Laws
end

