-- ==== Sys2Proof/Laws/FrameAuth.lean ====
section
/-!
SUPPORT. Frames of what Machine/Auth.lean defines: the parts of the state that each may change.
-/

namespace Sys2Proof.Laws

open Sys2Proof.Machine

variable {M : Mask}

theorem auditAdd_hide (h_tel : M .tel = true) (h_st : M .st = true) (s : State) (role path key result action target : Nat) (data : Bytes) : hide M (State.auditAdd s role path key result action target data) = hide M s := by
  unfold State.auditAdd
  simp only [set_st_hide, hide_ite, ite_self, eq_self, h_tel, h_st, tell_hide]

theorem handAudits_hide (h_tel : M .tel = true) (h_st : M .st = true) (s : State) : hide M (State.handAudits s) = hide M s := by
  unfold State.handAudits
  try dsimp only
  repeat' first
    | with_reducible rfl
    | (simp only [hide_ite, ite_self, ite_fst, implies_true, eq_self, h_tel, h_st, forEach_hide, onSt_hide, tell_hide]; done)
    | with_reducible apply hide_if
    | with_reducible apply hide_if1
    | split
    | (rw [forEach_hide])
    | (rw [foldl_hide])
    | (rw [foldlS_hide])
    | (intro; intros; try dsimp only)
    | (simp only [hide_ite, ite_self, ite_fst, implies_true, eq_self, h_tel, h_st, forEach_hide, onSt_hide, tell_hide])

theorem auditReg_hide (h_tel : M .tel = true) (h_st : M .st = true) (s : State) (p : Path) (off result : Nat) (val : Word64) : hide M (State.auditReg s p off result val) = hide M s := by
  unfold State.auditReg
  simp only [eq_self, h_tel, h_st, auditAdd_hide]

theorem auditHw_hide (h_tel : M .tel = true) (h_st : M .st = true) (s : State) (action target : Nat) : hide M (State.auditHw s action target) = hide M s := by
  unfold State.auditHw
  simp only [eq_self, h_tel, h_st, auditAdd_hide]

theorem endSession_hide (h_tel : M .tel = true) (h_st : M .st = true) (s : State) (p : Path) : hide M (State.endSession s p) = hide M s := by
  unfold State.endSession
  (repeat' split) <;> simp only [set_st_hide, eq_self, h_tel, h_st, auditAdd_hide]

theorem shutOut_hide (h_out : M .out = true) (s : State) : hide M (State.shutOut s) = hide M s := by
  unfold State.shutOut
  try dsimp only
  repeat' first
    | with_reducible rfl
    | (simp only [hide_ite, ite_self, ite_fst, implies_true, eq_self, h_out, send_hide]; done)
    | with_reducible apply hide_if
    | with_reducible apply hide_if1
    | split
    | (rw [forEach_hide])
    | (rw [foldl_hide])
    | (rw [foldlS_hide])
    | (intro; intros; try dsimp only)
    | (simp only [hide_ite, ite_self, ite_fst, implies_true, eq_self, h_out, send_hide])

theorem ignoreWrite_hide (h_tel : M .tel = true) (s : State) : hide M (State.ignoreWrite s) = hide M s := by
  unfold State.ignoreWrite
  simp only [eq_self, h_tel, count_hide]

theorem denyWrite_hide (h_tel : M .tel = true) (h_st : M .st = true) (s : State) (p : Path) (off : Nat) (val : Word64) : hide M (State.denyWrite s p off val) = hide M s := by
  unfold State.denyWrite
  simp only [eq_self, h_tel, h_st, auditReg_hide, count_hide]

theorem logSensor_hide (h_tel : M .tel = true) (s : State) (code i v : Nat) : hide M (State.logSensor s code i v) = hide M s := by
  unfold State.logSensor
  try dsimp only
  repeat' first
    | with_reducible rfl
    | (simp only [hide_ite, ite_self, ite_fst, implies_true, eq_self, h_tel, tell_hide]; done)
    | with_reducible apply hide_if
    | with_reducible apply hide_if1
    | split
    | (rw [forEach_hide])
    | (rw [foldl_hide])
    | (rw [foldlS_hide])
    | (intro; intros; try dsimp only)
    | (simp only [hide_ite, ite_self, ite_fst, implies_true, eq_self, h_tel, tell_hide])

theorem finish_hide (s : State) (p : Path) (off result : Nat) (h_put : ∀ (s : State) (v : Word64), hide M (regPut s p off v) = hide M s) : hide M (State.finish s p off result) = hide M s := by
  unfold State.finish
  simp only [eq_self, h_put]

theorem cmdField_hide (s : State) (p : Path) (off lo n x : Nat) (h_put : ∀ (s : State) (v : Word64), hide M (regPut s p off v) = hide M s) : hide M (State.cmdField s p off lo n x) = hide M s := by
  unfold State.cmdField
  simp only [eq_self, h_put]

theorem command_hide (h_tel : M .tel = true) (h_st : M .st = true) (h_out : M .out = true) (s : State) (p : Path) (off go least : Nat) (audited : Bool) (core : Option Nat) (val : Word64) (run : State → State) (h_run : ∀ (x0 : State), hide M (run x0) = hide M x0) (h_put : ∀ (s : State) (v : Word64), hide M (regPut s p off v) = hide M s) : hide M (State.command s p off go least audited core val run) = hide M s := by
  unfold State.command
  try dsimp only
  repeat' first
    | with_reducible rfl
    | (simp only [set_st_hide, hide_ite, ite_self, ite_fst, implies_true, eq_self, h_tel, h_st, h_out, h_run, h_put, auditReg_hide, denyWrite_hide, ignoreWrite_hide, shutOut_hide]; done)
    | with_reducible apply hide_if
    | with_reducible apply hide_if1
    | split
    | (rw [forEach_hide])
    | (rw [foldl_hide])
    | (rw [foldlS_hide])
    | (intro; intros; try dsimp only)
    | (simp only [set_st_hide, hide_ite, ite_self, ite_fst, implies_true, eq_self, h_tel, h_st, h_out, h_run, h_put, auditReg_hide, denyWrite_hide, ignoreWrite_hide, shutOut_hide])

theorem regWrite_hide (h_lows : M .lows = true) (h_tel : M .tel = true) (h_st : M .st = true) (h_out : M .out = true) (s : State) (p : Path) (off size : Nat) (val : Word64) (reg least : Nat) (apply : State → Word64 → Word64 → State) (h_apply : ∀ (x0 : State) (x1 : Word64) (x2 : Word64), hide M (apply x0 x1 x2) = hide M x0) : hide M (State.regWrite s p off size val reg least apply) = hide M s := by
  unfold State.regWrite
  try dsimp only
  repeat' first
    | with_reducible rfl
    | (simp only [set_lows_hide, hide_ite, ite_self, ite_fst, implies_true, eq_self, h_lows, h_tel, h_st, h_out, h_apply, auditReg_hide, denyWrite_hide, ignoreWrite_hide, shutOut_hide]; done)
    | with_reducible apply hide_if
    | with_reducible apply hide_if1
    | split
    | (rw [forEach_hide])
    | (rw [foldl_hide])
    | (rw [foldlS_hide])
    | (intro; intros; try dsimp only)
    | (simp only [set_lows_hide, hide_ite, ite_self, ite_fst, implies_true, eq_self, h_lows, h_tel, h_st, h_out, h_apply, auditReg_hide, denyWrite_hide, ignoreWrite_hide, shutOut_hide])

end Sys2Proof.Laws
end

