-- ==== Sys2Proof/Laws/FrameRegs.lean ====
section
/-!
SUPPORT. Frames of what Machine/Regs.lean defines: the parts of the state that each may change.
-/

namespace Sys2Proof.Laws

open Sys2Proof.Machine

variable {M : Mask}

theorem regPut_hide (h_regs : M .regs = true) (h_pregs : M .pregs = true) (h_ctxCfg : M .ctxCfg = true) (h_updCfg : M .updCfg = true) (h_fwdCfg : M .fwdCfg = true) (h_drvCfg : M .drvCfg = true) (h_tel : M .tel = true) (h_st : M .st = true) (s : State) (p : Path) (off : Nat) (v : Word64) : hide M (regPut s p off v) = hide M s := by
  unfold regPut
  try dsimp only
  repeat' first
    | with_reducible rfl
    | (simp only [set_regs_hide, set_pregs_hide, set_ctxCfg_hide, set_updCfg_hide, set_fwdCfg_hide, set_drvCfg_hide, set_tel_hide, set_st_hide, hide_ite, ite_self, ite_fst, implies_true, eq_self, h_regs, h_pregs, h_ctxCfg, h_updCfg, h_fwdCfg, h_drvCfg, h_tel, h_st]; done)
    | with_reducible apply hide_if
    | with_reducible apply hide_if1
    | split
    | (rw [forEach_hide])
    | (rw [foldl_hide])
    | (rw [foldlS_hide])
    | (intro; intros; try dsimp only)

theorem put_cntCmd_hide (h : M .regs = true) (s : State) (p : Path) (v : Word64) : hide M (regPut s p Reg.cntCmd v) = hide M s :=
  set_regs_hide h s _

theorem put_eyeletBase_hide (h : M .regs = true) (s : State) (p : Path) (v : Word64) : hide M (regPut s p Reg.eyeletBase v) = hide M s :=
  set_regs_hide h s _

theorem put_gsCmd_hide (h : M .regs = true) (s : State) (p : Path) (v : Word64) : hide M (regPut s p Reg.gsCmd v) = hide M s :=
  set_regs_hide h s _

theorem put_imapRel_hide (h : M .regs = true) (s : State) (p : Path) (v : Word64) : hide M (regPut s p Reg.imapRel v) = hide M s :=
  set_regs_hide h s _

theorem put_makerCtl_hide (h : M .st = true) (s : State) (p : Path) (v : Word64) : hide M (regPut s p Reg.makerCtl v) = hide M s :=
  set_st_hide h s _

theorem put_mbxCmd_hide (h : M .pregs = true) (s : State) (p : Path) (v : Word64) : hide M (regPut s p Reg.mbxCmd v) = hide M s :=
  set_pregs_hide h s _

theorem put_optSel_hide (h : M .pregs = true) (s : State) (p : Path) (v : Word64) : hide M (regPut s p Reg.optSel v) = hide M s :=
  set_pregs_hide h s _

theorem put_partCfg_hide (h : M .regs = true) (s : State) (p : Path) (v : Word64) : hide M (regPut s p Reg.partCfg v) = hide M s :=
  set_regs_hide h s _

theorem put_poisonCmd_hide (h : M .regs = true) (s : State) (p : Path) (v : Word64) : hide M (regPut s p Reg.poisonCmd v) = hide M s :=
  set_regs_hide h s _

theorem put_poolCtl_hide (h : M .regs = true) (s : State) (p : Path) (v : Word64) : hide M (regPut s p Reg.poolCtl v) = hide M s :=
  set_regs_hide h s _

theorem put_ringCmd_hide (h : M .regs = true) (s : State) (p : Path) (v : Word64) : hide M (regPut s p Reg.ringCmd v) = hide M s :=
  set_regs_hide h s _

theorem put_rscCmd_hide (h : M .regs = true) (s : State) (p : Path) (v : Word64) : hide M (regPut s p Reg.rscCmd v) = hide M s :=
  set_regs_hide h s _

theorem put_segInval_hide (h : M .regs = true) (s : State) (p : Path) (v : Word64) : hide M (regPut s p Reg.segInval v) = hide M s :=
  set_regs_hide h s _

theorem put_sortArea_hide (h : M .regs = true) (s : State) (p : Path) (v : Word64) : hide M (regPut s p Reg.sortArea v) = hide M s :=
  set_regs_hide h s _

theorem put_tblCmd_hide (h : M .regs = true) (s : State) (p : Path) (v : Word64) : hide M (regPut s p Reg.tblCmd v) = hide M s :=
  set_regs_hide h s _

theorem put_tileRel_hide (h : M .regs = true) (s : State) (p : Path) (v : Word64) : hide M (regPut s p Reg.tileRel v) = hide M s :=
  set_regs_hide h s _

end Sys2Proof.Laws
end

