-- ==== Sys2Proof/Laws/CanonAuth.lean ====
section
/-!
SUPPORT. What Machine/Auth.lean defines keeps Ground store's bytes in canonical form.
-/

namespace Sys2Proof.Laws

open Sys2Proof.Machine

theorem command_canon (s : State) (p : Path) (off go least : Nat) (audited : Bool) (core : Option Nat) (val : Word64) (run : State → State) (h_run : ∀ (x0 : State), Canon (hide butMem x0) → Canon (hide butMem (run x0))) (hs : Canon (hide butMem s)) : Canon (hide butMem (State.command s p off go least audited core val run)) := by
  unfold State.command
  try dsimp only
  repeat' first
    | with_reducible assumption
    | split
    | (with_reducible apply h_run)
    | with_reducible apply forEach_canon
    | with_reducible apply foldl_canon
    | (intro; intros; try dsimp only)
    | (simp only [auditReg_hide (M := butMem) rfl rfl, denyWrite_hide (M := butMem) rfl rfl, ignoreWrite_hide (M := butMem) rfl, shutOut_hide (M := butMem) rfl, regPut_hide (M := butMem) rfl rfl rfl rfl rfl rfl rfl rfl, set_st_hide (M := butMem) rfl, implies_true, eq_self])

end Sys2Proof.Laws
end

