-- ==== Sys2Proof/Laws/FrameBanks.lean ====
section
/-!
SUPPORT. Frames of what Machine/Banks.lean defines: the parts of the state that each may change.
-/

namespace Sys2Proof.Laws

open Sys2Proof.Machine

variable {M : Mask}

theorem onPhys_hide (h_gs : M .gs = true) (s : State) (p : Nat) (f : Phys → Phys) : hide M (State.onPhys s p f) = hide M s := by
  unfold State.onPhys
  simp only [implies_true, eq_self, h_gs, onGs_hide]

theorem auditSpare_hide (h_tel : M .tel = true) (h_st : M .st = true) (s : State) (target : Nat) : hide M (State.auditSpare s target) = hide M s := by
  unfold State.auditSpare
  simp only [eq_self, h_tel, h_st, auditHw_hide]

theorem setSched_hide (h_gs : M .gs = true) (s : State) (ch : Nat) (c : Sched) : hide M (State.setSched s ch c) = hide M s := by
  unfold State.setSched
  simp only [implies_true, eq_self, h_gs, onGs_hide]

theorem issueReq_hide (h_ch : M .ch = true) (h_gs : M .gs = true) (h_tel : M .tel = true) (s : State) (c : Sched) (r : Req) : hide M (State.issueReq s c r) = hide M s := by
  unfold State.issueReq
  try dsimp only
  repeat' first
    | with_reducible rfl
    | (simp only [hide_ite, ite_self, ite_fst, implies_true, eq_self, h_ch, h_gs, h_tel, count_hide, onCh_hide, onGs_hide, setSched_hide, wcFree_hide]; done)
    | with_reducible apply hide_if
    | with_reducible apply hide_if1
    | split
    | (rw [forEach_hide])
    | (rw [foldl_hide])
    | (rw [foldlS_hide])
    | (intro; intros; try dsimp only)
    | (simp only [hide_ite, ite_self, ite_fst, implies_true, eq_self, h_ch, h_gs, h_tel, count_hide, onCh_hide, onGs_hide, setSched_hide, wcFree_hide])

theorem takeReq_hide (h_ch : M .ch = true) (h_gs : M .gs = true) (h_tel : M .tel = true) (h_free : M .free = true) (s : State) (c : Sched) (r : Req) (aged : Bool) : hide M (State.takeReq s c r aged) = hide M s := by
  unfold State.takeReq
  simp only [hide_ite, ite_self, eq_self, h_ch, h_gs, h_tel, countN_hide, issueReq_hide, setSched_hide]

theorem schedule_hide (h_ch : M .ch = true) (h_gs : M .gs = true) (h_tel : M .tel = true) (h_free : M .free = true) (s : State) (ch : Nat) (c : Sched) : hide M (State.schedule s ch c) = hide M s := by
  unfold State.schedule
  try dsimp only
  repeat' first
    | with_reducible rfl
    | (simp only [set_free_hide, hide_ite, ite_self, ite_fst, implies_true, eq_self, h_ch, h_gs, h_tel, h_free, setSched_hide, takeReq_hide]; done)
    | with_reducible apply hide_if
    | with_reducible apply hide_if1
    | split
    | (rw [forEach_hide])
    | (rw [foldl_hide])
    | (rw [foldlS_hide])
    | (intro; intros; try dsimp only)
    | (simp only [set_free_hide, hide_ite, ite_self, ite_fst, implies_true, eq_self, h_ch, h_gs, h_tel, h_free, setSched_hide, takeReq_hide])

theorem copyStep_hide (h_gs : M .gs = true) (h_tel : M .tel = true) (s : State) (ch clock : Nat) : hide M (State.copyStep s ch clock) = hide M s := by
  unfold State.copyStep
  try dsimp only
  repeat' first
    | with_reducible rfl
    | (simp only [hide_ite, ite_self, ite_fst, implies_true, eq_self, h_gs, h_tel, askRaw_hide, onGs_hide, writeTo_hide]; done)
    | with_reducible apply hide_if
    | with_reducible apply hide_if1
    | split
    | (rw [forEach_hide])
    | (rw [foldl_hide])
    | (rw [foldlS_hide])
    | (intro; intros; try dsimp only)
    | (simp only [hide_ite, ite_self, ite_fst, implies_true, eq_self, h_gs, h_tel, askRaw_hide, onGs_hide, writeTo_hide])

theorem bankClock_hide (h_ch : M .ch = true) (h_gs : M .gs = true) (h_tel : M .tel = true) (h_free : M .free = true) (s : State) (ch p : Nat) : hide M (State.bankClock s ch p) = hide M s := by
  unfold State.bankClock
  try dsimp only
  repeat' first
    | with_reducible rfl
    | (simp only [hide_ite, ite_self, ite_fst, implies_true, eq_self, h_ch, h_gs, h_tel, h_free, copyStep_hide, countN_hide, schedule_hide, setSched_hide]; done)
    | with_reducible apply hide_if
    | with_reducible apply hide_if1
    | split
    | (rw [forEach_hide])
    | (rw [foldl_hide])
    | (rw [foldlS_hide])
    | (intro; intros; try dsimp only)
    | (simp only [hide_ite, ite_self, ite_fst, implies_true, eq_self, h_ch, h_gs, h_tel, h_free, copyStep_hide, countN_hide, schedule_hide, setSched_hide])

theorem execBankAccess_hide (h_ch : M .ch = true) (h_gs : M .gs = true) (h_tel : M .tel = true) (h_free : M .free = true) (ch : Nat) (s : State) (t : State) (e : execBankAccess ch s = .next t) : hide M t = hide M s := by
  refine next_hide e ?_
  (repeat' split) <;> simp only [eq_self, h_ch, h_gs, h_tel, h_free, bankClock_hide]

theorem refresh_hide (h_gs : M .gs = true) (h_tel : M .tel = true) (h_free : M .free = true) (s : State) (k p : Nat) : hide M (State.refresh s k p) = hide M s := by
  unfold State.refresh
  try dsimp only
  repeat' first
    | with_reducible rfl
    | (simp only [set_free_hide, hide_ite, ite_self, ite_fst, implies_true, eq_self, h_gs, h_tel, h_free, count_hide, onPhys_hide, setSched_hide]; done)
    | with_reducible apply hide_if
    | with_reducible apply hide_if1
    | split
    | (rw [forEach_hide])
    | (rw [foldl_hide])
    | (rw [foldlS_hide])
    | (intro; intros; try dsimp only)
    | (simp only [set_free_hide, hide_ite, ite_self, ite_fst, implies_true, eq_self, h_gs, h_tel, h_free, count_hide, onPhys_hide, setSched_hide])

theorem refreshDue_hide (h_gs : M .gs = true) (h_tel : M .tel = true) (h_free : M .free = true) (s : State) (p : Nat) : hide M (State.refreshDue s p) = hide M s := by
  unfold State.refreshDue
  try dsimp only
  repeat' first
    | with_reducible rfl
    | (simp only [hide_ite, ite_self, ite_fst, implies_true, eq_self, h_gs, h_tel, h_free, refresh_hide, setSched_hide]; done)
    | with_reducible apply hide_if
    | with_reducible apply hide_if1
    | split
    | (rw [forEach_hide])
    | (rw [foldl_hide])
    | (rw [foldlS_hide])
    | (intro; intros; try dsimp only)
    | (simp only [hide_ite, ite_self, ite_fst, implies_true, eq_self, h_gs, h_tel, h_free, refresh_hide, setSched_hide])

theorem execRefreshBurst_hide (h_gs : M .gs = true) (h_tel : M .tel = true) (h_free : M .free = true) (pch : Nat) (s : State) (t : State) (e : execRefreshBurst pch s = .next t) : hide M t = hide M s := by
  simp only [execRefreshBurst, Host.Outcome.next.injEq] at e
  subst e
  repeat' first
    | with_reducible rfl
    | (simp only [hide_ite, ite_self, ite_fst, implies_true, eq_self, h_gs, h_tel, h_free, refreshDue_hide]; done)
    | with_reducible apply hide_if
    | with_reducible apply hide_if1
    | split
    | (rw [forEach_hide])
    | (rw [foldl_hide])
    | (rw [foldlS_hide])
    | (intro; intros; try dsimp only)
    | (simp only [hide_ite, ite_self, ite_fst, implies_true, eq_self, h_gs, h_tel, h_free, refreshDue_hide])

theorem wcRetire_hide (h_gs : M .gs = true) (h_tel : M .tel = true) (s : State) (ch : Nat) : hide M (State.wcRetire s ch) = hide M s := by
  unfold State.wcRetire
  try dsimp only
  repeat' first
    | with_reducible rfl
    | (simp only [hide_ite, ite_self, ite_fst, implies_true, eq_self, h_gs, h_tel, retireWc_hide, wcNext_hide]; done)
    | with_reducible apply hide_if
    | with_reducible apply hide_if1
    | split
    | (rw [forEach_hide])
    | (rw [foldl_hide])
    | (rw [foldlS_hide])
    | (intro; intros; try dsimp only)
    | (simp only [hide_ite, ite_self, ite_fst, implies_true, eq_self, h_gs, h_tel, retireWc_hide, wcNext_hide])

theorem execWcRetire_hide (h_gs : M .gs = true) (h_tel : M .tel = true) (ch : Nat) (s : State) (t : State) (e : execWcRetire ch s = .next t) : hide M t = hide M s := by
  refine next_hide e ?_
  simp only [eq_self, h_gs, h_tel, wcRetire_hide]

theorem spareLow_hide (h_tel : M .tel = true) (s : State) (lch : Nat) (p kind left : Nat) : hide M (State.spareLow s lch p kind left) = hide M s := by
  unfold State.spareLow
  try dsimp only
  repeat' first
    | with_reducible rfl
    | (simp only [hide_ite, ite_self, ite_fst, implies_true, eq_self, h_tel, tell_hide]; done)
    | with_reducible apply hide_if
    | with_reducible apply hide_if1
    | split
    | (rw [forEach_hide])
    | (rw [foldl_hide])
    | (rw [foldlS_hide])
    | (intro; intros; try dsimp only)
    | (simp only [hide_ite, ite_self, ite_fst, implies_true, eq_self, h_tel, tell_hide])

end Sys2Proof.Laws
end

