-- ==== Sys2Proof/Laws/FramePillow.lean ====
section
/-!
SUPPORT. Frames of what Machine/Pillow.lean defines: the parts of the state that each may change.
-/

namespace Sys2Proof.Laws

open Sys2Proof.Machine

variable {M : Mask}

theorem notePillow_hide (h_gs : M .gs = true) (h_tel : M .tel = true) (s : State) (e : Entry) (write : Bool) : hide M (State.notePillow s e write) = hide M s := by
  unfold State.notePillow
  try dsimp only
  repeat' first
    | with_reducible rfl
    | (simp only [hide_ite, ite_self, ite_fst, implies_true, eq_self, h_gs, h_tel, noteScratch_hide]; done)
    | with_reducible apply hide_if
    | with_reducible apply hide_if1
    | split
    | (rw [forEach_hide])
    | (rw [foldl_hide])
    | (rw [foldlS_hide])
    | (intro; intros; try dsimp only)
    | (simp only [hide_ite, ite_self, ite_fst, implies_true, eq_self, h_gs, h_tel, noteScratch_hide])

theorem mergeEvict_hide (h_up : M .up = true) (h_gs : M .gs = true) (h_tel : M .tel = true) (s : State) (group : Nat) : hide M (State.mergeEvict s group) = hide M s := by
  unfold State.mergeEvict
  try dsimp only
  repeat' first
    | with_reducible rfl
    | (simp only [hide_ite, ite_self, ite_fst, implies_true, eq_self, h_up, h_gs, h_tel, count_hide, notePillow_hide, onUp_hide]; done)
    | with_reducible apply hide_if
    | with_reducible apply hide_if1
    | split
    | (rw [forEach_hide])
    | (rw [foldl_hide])
    | (rw [foldlS_hide])
    | (intro; intros; try dsimp only)
    | (simp only [hide_ite, ite_self, ite_fst, implies_true, eq_self, h_up, h_gs, h_tel, count_hide, notePillow_hide, onUp_hide])

theorem execMergeEvict_hide (h_up : M .up = true) (h_gs : M .gs = true) (h_tel : M .tel = true) (group : Nat) (s : State) (t : State) (e : execMergeEvict group s = .next t) : hide M t = hide M s := by
  simp only [execMergeEvict, Host.Outcome.next.injEq] at e
  subst e
  repeat' first
    | with_reducible rfl
    | (simp only [hide_ite, ite_self, ite_fst, implies_true, eq_self, h_up, h_gs, h_tel, mergeEvict_hide]; done)
    | with_reducible apply hide_if
    | with_reducible apply hide_if1
    | split
    | (rw [forEach_hide])
    | (rw [foldl_hide])
    | (rw [foldlS_hide])
    | (intro; intros; try dsimp only)
    | (simp only [hide_ite, ite_self, ite_fst, implies_true, eq_self, h_up, h_gs, h_tel, mergeEvict_hide])

theorem mergeIn_hide (h_up : M .up = true) (h_gs : M .gs = true) (h_tel : M .tel = true) (s : State) (e : Entry) : hide M (State.mergeIn s e) = hide M s := by
  unfold State.mergeIn
  try dsimp only
  repeat' first
    | with_reducible rfl
    | (simp only [hide_ite, ite_self, ite_fst, implies_true, eq_self, h_up, h_gs, h_tel, mergeEvict_hide, onUp_hide]; done)
    | with_reducible apply hide_if
    | with_reducible apply hide_if1
    | split
    | (rw [forEach_hide])
    | (rw [foldl_hide])
    | (rw [foldlS_hide])
    | (intro; intros; try dsimp only)
    | (simp only [hide_ite, ite_self, ite_fst, implies_true, eq_self, h_up, h_gs, h_tel, mergeEvict_hide, onUp_hide])

theorem acceptOne_hide (h_up : M .up = true) (h_gs : M .gs = true) (h_tel : M .tel = true) (s : State) (k : Key) (ver : Nat) (epoch : BitVec 32) (v : List F32) : hide M (State.acceptOne s k ver epoch v).1 = hide M s := by
  unfold State.acceptOne
  try dsimp only
  repeat' first
    | with_reducible rfl
    | (simp only [hide_ite, ite_self, ite_fst, implies_true, eq_self, h_up, h_gs, h_tel, count_hide, mergeIn_hide]; done)
    | with_reducible apply hide_if
    | with_reducible apply hide_if1
    | split
    | (rw [forEach_hide])
    | (rw [foldl_hide])
    | (rw [foldlS_hide])
    | (intro; intros; try dsimp only)
    | (simp only [hide_ite, ite_self, ite_fst, implies_true, eq_self, h_up, h_gs, h_tel, count_hide, mergeIn_hide])

theorem acceptAll_hide (h_up : M .up = true) (h_gs : M .gs = true) (h_tel : M .tel = true) (s : State) (epoch : BitVec 32) (t : Tally) (y0 : List Contrib) : hide M (State.acceptAll s epoch t y0).1 = hide M s := by
  fun_induction State.acceptAll s epoch t y0
  all_goals
    repeat' first
      | with_reducible rfl
      | assumption
      | (simp +zetaDelta only [*, hide_ite, ite_self, ite_fst, implies_true, eq_self, h_up, h_gs, h_tel, acceptOne_hide]; done)
      | with_reducible apply hide_if
      | with_reducible apply hide_if1
      | split
      | (rw [forEach_hide])
      | (rw [foldl_hide])
      | (rw [foldlS_hide])
      | (intro; intros; try dsimp only)
      | (simp +zetaDelta only [*, hide_ite, ite_self, ite_fst, implies_true, eq_self, h_up, h_gs, h_tel, acceptOne_hide])

theorem reserveHead_hide (h_fe : M .fe = true) (h_up : M .up = true) (s : State) : hide M (State.reserveHead s).1 = hide M s := by
  unfold State.reserveHead
  try dsimp only
  repeat' first
    | with_reducible rfl
    | (simp only [hide_ite, ite_self, ite_fst, eq_self, h_fe, h_up, endDesc_hide, onDesc_hide, onUp_hide]; done)
    | with_reducible apply hide_if
    | with_reducible apply hide_if1
    | split
    | (rw [forEach_hide])
    | (rw [foldl_hide])
    | (rw [foldlS_hide])
    | (intro; intros; try dsimp only)

theorem reserveScatters_hide (h_fe : M .fe = true) (h_up : M .up = true) (s : State) (y0 : Nat) : hide M (State.reserveScatters s y0) = hide M s := by
  fun_induction State.reserveScatters s y0
  all_goals
    simp +zetaDelta only [*, eq_self, reserveHead_hide]

theorem noteWaits_hide (h_fe : M .fe = true) (h_tel : M .tel = true) (s : State) : hide M (State.noteWaits s) = hide M s := by
  unfold State.noteWaits
  try dsimp only
  repeat' first
    | with_reducible rfl
    | (simp only [eq_self, h_fe, h_tel, count_hide, onDesc_hide]; done)
    | with_reducible apply hide_if
    | with_reducible apply hide_if1
    | split
    | (rw [forEach_hide])
    | (rw [foldl_hide])
    | (rw [foldlS_hide])
    | (intro; intros; try dsimp only)

theorem enterIntake_hide (h_fe : M .fe = true) (h_up : M .up = true) (h_tel : M .tel = true) (s : State) (id : Nat) : hide M (State.enterIntake s id) = hide M s := by
  unfold State.enterIntake
  simp only [eq_self, h_fe, h_up, h_tel, noteWaits_hide, onDesc_hide, onUp_hide, reserveScatters_hide]

theorem pillowFull_hide (h_fe : M .fe = true) (h_tel : M .tel = true) (s : State) (id : Nat) : hide M (State.pillowFull s id) = hide M s := by
  unfold State.pillowFull
  (repeat' split) <;> simp only [eq_self, h_fe, h_tel, onDesc_hide, tell_hide]

theorem execPillowFull_hide (h_fe : M .fe = true) (h_tel : M .tel = true) (id : Nat) (s : State) (t : State) (e : execPillowFull id s = .next t) : hide M t = hide M s := by
  refine next_hide e ?_
  simp only [eq_self, h_fe, h_tel, pillowFull_hide]

end Sys2Proof.Laws
end

