-- ==== Sys2Proof/Laws/FrameCouch.lean ====
section
/-!
SUPPORT. Frames of what Machine/Couch.lean defines: the parts of the state that each may change.
-/

namespace Sys2Proof.Laws

open Sys2Proof.Machine

variable {M : Mask}

theorem onApply_hide (h_up : M .up = true) (s : State) (id : Nat) (f : Apply → Apply) : hide M (State.onApply s id f) = hide M s := by
  unfold State.onApply
  simp only [eq_self, h_up, onUp_hide]

theorem endApply_hide (h_fe : M .fe = true) (h_up : M .up = true) (s : State) (id : Nat) : hide M (State.endApply s id) = hide M s := by
  unfold State.endApply
  (repeat' split) <;> simp only [eq_self, h_fe, h_up, onUp_hide, settle_hide]

theorem startApply_hide (h_fe : M .fe = true) (h_tb : M .tb = true) (h_up : M .up = true) (s : State) (d : Desc) (t : Table) : hide M (State.startApply s d t) = hide M s := by
  unfold State.startApply
  simp only [eq_self, h_fe, h_tb, h_up, endApply_hide, onDesc_hide, onTb_hide, onUp_hide]

theorem update_hide (h_fe : M .fe = true) (s : State) (id mode : Nat) (run : State → Desc → Table → State) (h_run : ∀ (x0 : State) (x1 : Desc) (x2 : Table), hide M (run x0 x1 x2) = hide M x0) : hide M (State.update s id mode run) = hide M s := by
  unfold State.update
  (repeat' split) <;> simp only [eq_self, h_fe, h_run, endDesc_hide]

theorem execApply_hide (h_fe : M .fe = true) (h_tb : M .tb = true) (h_up : M .up = true) (id : Nat) (s : State) (t : State) (e : execApply id s = .next t) : hide M t = hide M s := by
  refine next_hide e ?_
  simp only [hide_ite, ite_self, implies_true, eq_self, h_fe, h_tb, h_up, endDesc_hide, startApply_hide, update_hide]

theorem execSetEpoch_hide (h_fe : M .fe = true) (h_tb : M .tb = true) (id : Nat) (s : State) (t : State) (e : execSetEpoch id s = .next t) : hide M t = hide M s := by
  refine next_hide e ?_
  simp only [hide_ite, ite_self, implies_true, eq_self, h_fe, h_tb, endDesc_hide, endOk_hide, onTb_hide, update_hide]

theorem flushVers_hide (h_tb : M .tb = true) (h_up : M .up = true) (h_ch : M .ch = true) (h_gs : M .gs = true) (h_fl : M .fl = true) (h_tel : M .tel = true) (h_out : M .out = true) (s : State) (id h : Nat) (t : Table) (fails : List RowFail) (y0 : List Version) : hide M (State.flushVers s id h t fails y0).1 = hide M s := by
  fun_induction State.flushVers s id h t fails y0
  all_goals
    repeat' first
      | with_reducible rfl
      | assumption
      | (simp +zetaDelta only [*, hide_ite, ite_self, ite_fst, implies_true, eq_self, h_tb, h_up, h_ch, h_gs, h_fl, h_tel, h_out, flushNs_hide, flushRows_hide]; done)
      | with_reducible apply hide_if
      | with_reducible apply hide_if1
      | split
      | (rw [forEach_hide])
      | (rw [foldl_hide])
      | (rw [foldlS_hide])
      | (intro; intros; try dsimp only)
      | (simp +zetaDelta only [*, hide_ite, ite_self, ite_fst, implies_true, eq_self, h_tb, h_up, h_ch, h_gs, h_fl, h_tel, h_out, flushNs_hide, flushRows_hide])

theorem flushTable_hide (h_fe : M .fe = true) (h_tb : M .tb = true) (h_up : M .up = true) (h_ch : M .ch = true) (h_gs : M .gs = true) (h_fl : M .fl = true) (h_tel : M .tel = true) (h_out : M .out = true) (s : State) (d : Desc) (t : Table) (fails : List RowFail) : hide M (State.flushTable s d t fails) = hide M s := by
  unfold State.flushTable
  try dsimp only
  repeat' first
    | with_reducible rfl
    | (simp only [hide_ite, ite_self, ite_fst, implies_true, eq_self, h_fe, h_tb, h_up, h_ch, h_gs, h_fl, h_tel, h_out, endDesc_hide, endOk_hide, fillWait_hide, flushVers_hide]; done)
    | with_reducible apply hide_if
    | with_reducible apply hide_if1
    | split
    | (rw [forEach_hide])
    | (rw [foldl_hide])
    | (rw [foldlS_hide])
    | (intro; intros; try dsimp only)
    | (simp only [hide_ite, ite_self, ite_fst, implies_true, eq_self, h_fe, h_tb, h_up, h_ch, h_gs, h_fl, h_tel, h_out, endDesc_hide, endOk_hide, fillWait_hide, flushVers_hide])

theorem execFlush_hide (h_fe : M .fe = true) (h_tb : M .tb = true) (h_up : M .up = true) (h_ch : M .ch = true) (h_gs : M .gs = true) (h_fl : M .fl = true) (h_tel : M .tel = true) (h_out : M .out = true) (id : Nat) (fails : List RowFail) (s : State) (t : State) (e : execFlush id fails s = .next t) : hide M t = hide M s := by
  simp only [execFlush, Host.Outcome.next.injEq] at e
  subst e
  repeat' first
    | with_reducible rfl
    | (simp only [hide_ite, ite_self, ite_fst, implies_true, eq_self, h_fe, h_tb, h_up, h_ch, h_gs, h_fl, h_tel, h_out, flushTable_hide, update_hide]; done)
    | with_reducible apply hide_if
    | with_reducible apply hide_if1
    | split
    | (rw [forEach_hide])
    | (rw [foldl_hide])
    | (rw [foldlS_hide])
    | (rw [update_hide])
    | assumption
    | (intro; intros; try dsimp only)
    | (simp only [hide_ite, ite_self, ite_fst, implies_true, eq_self, h_fe, h_tb, h_up, h_ch, h_gs, h_fl, h_tel, h_out, flushTable_hide, update_hide])

theorem rowLeaves_hide (h_fe : M .fe = true) (h_up : M .up = true) (s : State) (a : Apply) (ver row : Nat) (f : Apply → Apply) : hide M (State.rowLeaves s a ver row f) = hide M s := by
  unfold State.rowLeaves
  simp only [eq_self, h_fe, h_up, endApply_hide, onApply_hide, onUp_hide]

theorem tellLost_hide (h_tel : M .tel = true) (s : State) (h ver row n : Nat) : hide M (State.tellLost s h ver row n) = hide M s := by
  unfold State.tellLost
  simp only [hide_ite, ite_self, eq_self, h_tel, tell_hide]

theorem loseRow_hide (h_fe : M .fe = true) (h_up : M .up = true) (h_tel : M .tel = true) (s : State) (a : Apply) (ver row : Nat) : hide M (State.loseRow s a ver row) = hide M s := by
  unfold State.loseRow
  simp only [eq_self, h_fe, h_up, h_tel, rowLeaves_hide, tellLost_hide]

theorem markDirty_hide (h_tb : M .tb = true) (h_ch : M .ch = true) (h_gs : M .gs = true) (h_tel : M .tel = true) (s : State) (k : Key) (ver : Nat) : hide M (State.markDirty s k ver) = hide M s := by
  unfold State.markDirty
  try dsimp only
  repeat' first
    | with_reducible rfl
    | (simp only [hide_ite, ite_self, ite_fst, implies_true, eq_self, h_tb, h_ch, h_gs, h_tel, onExtent_hide, setDirty_hide]; done)
    | with_reducible apply hide_if
    | with_reducible apply hide_if1
    | split
    | (rw [forEach_hide])
    | (rw [foldl_hide])
    | (rw [foldlS_hide])
    | (intro; intros; try dsimp only)
    | (simp only [hide_ite, ite_self, ite_fst, implies_true, eq_self, h_tb, h_ch, h_gs, h_tel, onExtent_hide, setDirty_hide])

theorem writeMaster_hide (h_ch : M .ch = true) (h_gs : M .gs = true) (h_mem : M .mem = true) (h_tel : M .tel = true) (s : State) (t : Table) (k : Key) (ver : Nat) (b : Bytes) : hide M (State.writeMaster s t k ver b) = hide M s := by
  unfold State.writeMaster
  try dsimp only
  repeat' first
    | with_reducible rfl
    | (simp only [hide_ite, ite_self, ite_fst, implies_true, eq_self, h_ch, h_gs, h_mem, h_tel, seeHead_hide, writePinned_hide, writeSlot_hide]; done)
    | with_reducible apply hide_if
    | with_reducible apply hide_if1
    | split
    | (rw [forEach_hide])
    | (rw [foldl_hide])
    | (rw [foldlS_hide])
    | (intro; intros; try dsimp only)
    | (simp only [hide_ite, ite_self, ite_fst, implies_true, eq_self, h_ch, h_gs, h_mem, h_tel, seeHead_hide, writePinned_hide, writeSlot_hide])

theorem writeReads_hide (h_ch : M .ch = true) (h_gs : M .gs = true) (h_mem : M .mem = true) (h_tel : M .tel = true) (s : State) (t : Table) (k : Key) (ver : Nat) (b : Bytes) : hide M (State.writeReads s t k ver b) = hide M s := by
  unfold State.writeReads
  try dsimp only
  repeat' first
    | with_reducible rfl
    | (simp only [hide_ite, ite_self, ite_fst, implies_true, eq_self, h_ch, h_gs, h_mem, h_tel, forEach_hide, encCopy_hide, seeHead_hide, writeSlot_hide]; done)
    | with_reducible apply hide_if
    | with_reducible apply hide_if1
    | split
    | (rw [forEach_hide])
    | (rw [foldl_hide])
    | (rw [foldlS_hide])
    | (intro; intros; try dsimp only)
    | (simp only [hide_ite, ite_self, ite_fst, implies_true, eq_self, h_ch, h_gs, h_mem, h_tel, forEach_hide, encCopy_hide, seeHead_hide, writeSlot_hide])

theorem rowWritten_hide (h_fe : M .fe = true) (h_up : M .up = true) (h_tel : M .tel = true) (s : State) (a : Apply) (t : Table) (ver row : Nat) (e : Entry) (b : Bytes) : hide M (State.rowWritten s a t ver row e b) = hide M s := by
  unfold State.rowWritten
  simp only [eq_self, h_fe, h_up, h_tel, rowLeaves_hide, tell_hide]

theorem rmwWaits_hide (h_up : M .up = true) (h_tel : M .tel = true) (s : State) (h ver row : Nat) (data : Bytes) (way : Bool) : hide M (State.rmwWaits s h ver row data way) = hide M s := by
  unfold State.rmwWaits
  simp only [hide_ite, ite_self, eq_self, h_up, h_tel, count_hide, onUp_hide]

theorem writeThrough_hide (h_gs : M .gs = true) (h_fl : M .fl = true) (h_tel : M .tel = true) (h_out : M .out = true) (s : State) (t : Table) (v : Version) (k : Key) (b : Bytes) (res : Tried) : hide M (State.writeThrough s t v k b res).1 = hide M s := by
  unfold State.writeThrough
  try dsimp only
  repeat' first
    | with_reducible rfl
    | (simp only [hide_ite, ite_self, ite_fst, implies_true, eq_self, h_gs, h_fl, h_tel, h_out, countN_hide, count_hide, readBlock_hide, send_hide, wholeCmd_hide]; done)
    | with_reducible apply hide_if
    | with_reducible apply hide_if1
    | split
    | (rw [forEach_hide])
    | (rw [foldl_hide])
    | (rw [foldlS_hide])
    | (intro; intros; try dsimp only)
    | (simp only [hide_ite, ite_self, ite_fst, implies_true, eq_self, h_gs, h_fl, h_tel, h_out, countN_hide, count_hide, readBlock_hide, send_hide, wholeCmd_hide])

theorem rmwThrough_hide (h_fe : M .fe = true) (h_up : M .up = true) (h_gs : M .gs = true) (h_fl : M .fl = true) (h_tel : M .tel = true) (h_out : M .out = true) (s : State) (a : Apply) (t : Table) (k : Key) (ver : Nat) (e : Entry) (old : Bytes) (fails : WbFails) : hide M (State.rmwThrough s a t k ver e old fails) = hide M s := by
  unfold State.rmwThrough
  try dsimp only
  repeat' first
    | with_reducible rfl
    | (simp only [hide_ite, ite_self, ite_fst, implies_true, eq_self, h_fe, h_up, h_gs, h_fl, h_tel, h_out, forEach_hide, notePillow_hide, rmwWaits_hide, rowWritten_hide, writeThrough_hide]; done)
    | with_reducible apply hide_if
    | with_reducible apply hide_if1
    | split
    | (rw [forEach_hide])
    | (rw [foldl_hide])
    | (rw [foldlS_hide])
    | (intro; intros; try dsimp only)
    | (simp only [hide_ite, ite_self, ite_fst, implies_true, eq_self, h_fe, h_up, h_gs, h_fl, h_tel, h_out, forEach_hide, notePillow_hide, rmwWaits_hide, rowWritten_hide, writeThrough_hide])

theorem rmwWrite_hide (h_fe : M .fe = true) (h_tb : M .tb = true) (h_up : M .up = true) (h_ch : M .ch = true) (h_gs : M .gs = true) (h_mem : M .mem = true) (h_fl : M .fl = true) (h_tel : M .tel = true) (h_out : M .out = true) (s : State) (a : Apply) (t : Table) (k : Key) (ver : Nat) (old : Bytes) (fails : WbFails) : hide M (State.rmwWrite s a t k ver old fails) = hide M s := by
  unfold State.rmwWrite
  try dsimp only
  repeat' first
    | with_reducible rfl
    | (simp only [hide_ite, ite_self, ite_fst, implies_true, eq_self, h_fe, h_tb, h_up, h_ch, h_gs, h_mem, h_fl, h_tel, h_out, forEach_hide, addTwinN_hide, admitForced_hide, bringIn_hide, count_hide, loseRow_hide, markDirty_hide, mend_hide, noteMaster_hide, notePillow_hide, putTwin_hide, rmwThrough_hide, rmwWaits_hide, rowLeaves_hide, rowWritten_hide, writeMaster_hide, writeReads_hide]; done)
    | with_reducible apply hide_if
    | with_reducible apply hide_if1
    | split
    | (rw [forEach_hide])
    | (rw [foldl_hide])
    | (rw [foldlS_hide])
    | (intro; intros; try dsimp only)
    | (simp only [hide_ite, ite_self, ite_fst, implies_true, eq_self, h_fe, h_tb, h_up, h_ch, h_gs, h_mem, h_fl, h_tel, h_out, forEach_hide, addTwinN_hide, admitForced_hide, bringIn_hide, count_hide, loseRow_hide, markDirty_hide, mend_hide, noteMaster_hide, notePillow_hide, putTwin_hide, rmwThrough_hide, rmwWaits_hide, rowLeaves_hide, rowWritten_hide, writeMaster_hide, writeReads_hide])

theorem rmwRow_hide (h_fe : M .fe = true) (h_tb : M .tb = true) (h_up : M .up = true) (h_ch : M .ch = true) (h_gs : M .gs = true) (h_mem : M .mem = true) (h_fl : M .fl = true) (h_tel : M .tel = true) (h_rl : M .rl = true) (h_out : M .out = true) (s : State) (a : Apply) (t : Table) (v : Version) (k : Key) (src : RowSrc) (expired : Bool) (fails : WbFails) : hide M (State.rmwRow s a t v k src expired fails) = hide M s := by
  unfold State.rmwRow
  try dsimp only
  repeat' first
    | with_reducible rfl
    | (simp only [hide_ite, ite_self, ite_fst, implies_true, eq_self, h_fe, h_tb, h_up, h_ch, h_gs, h_mem, h_fl, h_tel, h_rl, h_out, loseRow_hide, readBacking_hide, readRow_hide, rmwWrite_hide]; done)
    | with_reducible apply hide_if
    | with_reducible apply hide_if1
    | split
    | (rw [forEach_hide])
    | (rw [foldl_hide])
    | (rw [foldlS_hide])
    | (intro; intros; try dsimp only)
    | (simp only [hide_ite, ite_self, ite_fst, implies_true, eq_self, h_fe, h_tb, h_up, h_ch, h_gs, h_mem, h_fl, h_tel, h_rl, h_out, loseRow_hide, readBacking_hide, readRow_hide, rmwWrite_hide])

theorem losePillow_hide (h_up : M .up = true) (h_tel : M .tel = true) (s : State) (a : Apply) (ver row : Nat) : hide M (State.losePillow s a ver row) = hide M s := by
  unfold State.losePillow
  try dsimp only
  repeat' first
    | with_reducible rfl
    | (simp only [hide_ite, ite_self, ite_fst, implies_true, eq_self, h_up, h_tel, onUp_hide, tellLost_hide]; done)
    | with_reducible apply hide_if
    | with_reducible apply hide_if1
    | split
    | (rw [forEach_hide])
    | (rw [foldl_hide])
    | (rw [foldlS_hide])
    | (intro; intros; try dsimp only)
    | (simp only [hide_ite, ite_self, ite_fst, implies_true, eq_self, h_up, h_tel, onUp_hide, tellLost_hide])

theorem loseMerge_hide (h_up : M .up = true) (h_tel : M .tel = true) (s : State) (a : Apply) (ver row : Nat) : hide M (State.loseMerge s a ver row) = hide M s := by
  unfold State.loseMerge
  try dsimp only
  repeat' first
    | with_reducible rfl
    | (simp only [hide_ite, ite_self, ite_fst, implies_true, eq_self, h_up, h_tel, onUp_hide, tellLost_hide]; done)
    | with_reducible apply hide_if
    | with_reducible apply hide_if1
    | split
    | (rw [forEach_hide])
    | (rw [foldl_hide])
    | (rw [foldlS_hide])
    | (intro; intros; try dsimp only)
    | (simp only [hide_ite, ite_self, ite_fst, implies_true, eq_self, h_up, h_tel, onUp_hide, tellLost_hide])

theorem rmwErrs_hide (h_up : M .up = true) (h_tel : M .tel = true) (s : State) (a : Apply) (ver row : Nat) (e : Errs) : hide M (State.rmwErrs s a ver row e) = hide M s := by
  unfold State.rmwErrs
  try dsimp only
  repeat' first
    | with_reducible rfl
    | (simp only [hide_ite, ite_self, ite_fst, implies_true, eq_self, h_up, h_tel, count_hide, loseMerge_hide, losePillow_hide, tell_hide]; done)
    | with_reducible apply hide_if
    | with_reducible apply hide_if1
    | split
    | (rw [forEach_hide])
    | (rw [foldl_hide])
    | (rw [foldlS_hide])
    | (intro; intros; try dsimp only)
    | (simp only [hide_ite, ite_self, ite_fst, implies_true, eq_self, h_up, h_tel, count_hide, loseMerge_hide, losePillow_hide, tell_hide])

theorem couchingRmw_hide (h_fe : M .fe = true) (h_tb : M .tb = true) (h_up : M .up = true) (h_ch : M .ch = true) (h_gs : M .gs = true) (h_mem : M .mem = true) (h_fl : M .fl = true) (h_tel : M .tel = true) (h_rl : M .rl = true) (h_out : M .out = true) (s : State) (h ver row : Nat) (src : RowSrc) (expired : Bool) (fails : WbFails) (errs : Errs) : hide M (State.couchingRmw s h ver row src expired fails errs) = hide M s := by
  unfold State.couchingRmw
  try dsimp only
  repeat' first
    | with_reducible rfl
    | (simp only [hide_ite, ite_self, ite_fst, implies_true, eq_self, h_fe, h_tb, h_up, h_ch, h_gs, h_mem, h_fl, h_tel, h_rl, h_out, rmwErrs_hide, rmwRow_hide]; done)
    | with_reducible apply hide_if
    | with_reducible apply hide_if1
    | split
    | (rw [forEach_hide])
    | (rw [foldl_hide])
    | (rw [foldlS_hide])
    | (intro; intros; try dsimp only)
    | (simp only [hide_ite, ite_self, ite_fst, implies_true, eq_self, h_fe, h_tb, h_up, h_ch, h_gs, h_mem, h_fl, h_tel, h_rl, h_out, rmwErrs_hide, rmwRow_hide])

theorem execCouchingRmw_hide (h_fe : M .fe = true) (h_tb : M .tb = true) (h_up : M .up = true) (h_ch : M .ch = true) (h_gs : M .gs = true) (h_mem : M .mem = true) (h_fl : M .fl = true) (h_tel : M .tel = true) (h_rl : M .rl = true) (h_out : M .out = true) (tbl ver row : Nat) (src : Arrival) (fails : WbFails) (s : State) (t : State) (e : execCouchingRmw tbl ver row src fails s = .next t) : hide M t = hide M s := by
  simp only [execCouchingRmw, Host.Outcome.next.injEq] at e
  subst e
  repeat' first
    | with_reducible rfl
    | (simp only [hide_ite, ite_self, ite_fst, implies_true, eq_self, h_fe, h_tb, h_up, h_ch, h_gs, h_mem, h_fl, h_tel, h_rl, h_out, couchingRmw_hide]; done)
    | with_reducible apply hide_if
    | with_reducible apply hide_if1
    | split
    | (rw [forEach_hide])
    | (rw [foldl_hide])
    | (rw [foldlS_hide])
    | (intro; intros; try dsimp only)
    | (simp only [hide_ite, ite_self, ite_fst, implies_true, eq_self, h_fe, h_tb, h_up, h_ch, h_gs, h_mem, h_fl, h_tel, h_rl, h_out, couchingRmw_hide])

theorem execTier2RmwRetry_hide (h_fe : M .fe = true) (h_tb : M .tb = true) (h_up : M .up = true) (h_ch : M .ch = true) (h_gs : M .gs = true) (h_mem : M .mem = true) (h_fl : M .fl = true) (h_tel : M .tel = true) (h_rl : M .rl = true) (h_out : M .out = true) (tbl ver row : Nat) (src : RowSrc) (expired : Bool) (fails : WbFails) (s : State) (t : State) (e : execTier2RmwRetry tbl ver row src expired fails s = .next t) : hide M t = hide M s := by
  simp only [execTier2RmwRetry, Host.Outcome.next.injEq] at e
  subst e
  repeat' first
    | with_reducible rfl
    | (simp only [hide_ite, ite_self, ite_fst, implies_true, eq_self, h_fe, h_tb, h_up, h_ch, h_gs, h_mem, h_fl, h_tel, h_rl, h_out, couchingRmw_hide]; done)
    | with_reducible apply hide_if
    | with_reducible apply hide_if1
    | split
    | (rw [forEach_hide])
    | (rw [foldl_hide])
    | (rw [foldlS_hide])
    | (intro; intros; try dsimp only)
    | (simp only [hide_ite, ite_self, ite_fst, implies_true, eq_self, h_fe, h_tb, h_up, h_ch, h_gs, h_mem, h_fl, h_tel, h_rl, h_out, couchingRmw_hide])

theorem endRmwWait_hide (h_up : M .up = true) (s : State) (h ver row : Nat) : hide M (State.endRmwWait s h ver row) = hide M s := by
  unfold State.endRmwWait
  try dsimp only
  repeat' first
    | with_reducible rfl
    | (simp only [hide_ite, ite_self, ite_fst, implies_true, eq_self, h_up, onUp_hide]; done)
    | with_reducible apply hide_if
    | with_reducible apply hide_if1
    | split
    | (rw [forEach_hide])
    | (rw [foldl_hide])
    | (rw [foldlS_hide])
    | (intro; intros; try dsimp only)
    | (simp only [hide_ite, ite_self, ite_fst, implies_true, eq_self, h_up, onUp_hide])

theorem rmwAgain_hide (h_fe : M .fe = true) (h_tb : M .tb = true) (h_up : M .up = true) (h_ch : M .ch = true) (h_gs : M .gs = true) (h_mem : M .mem = true) (h_fl : M .fl = true) (h_tel : M .tel = true) (h_out : M .out = true) (s : State) (h ver row : Nat) (way : Bool) (fails : WbFails) : hide M (State.rmwAgain s h ver row way fails) = hide M s := by
  unfold State.rmwAgain
  try dsimp only
  repeat' first
    | with_reducible rfl
    | (simp only [hide_ite, ite_self, ite_fst, implies_true, eq_self, h_fe, h_tb, h_up, h_ch, h_gs, h_mem, h_fl, h_tel, h_out, endRmwWait_hide, loseRow_hide, rmwWrite_hide]; done)
    | with_reducible apply hide_if
    | with_reducible apply hide_if1
    | split
    | (rw [forEach_hide])
    | (rw [foldl_hide])
    | (rw [foldlS_hide])
    | (intro; intros; try dsimp only)
    | (simp only [hide_ite, ite_self, ite_fst, implies_true, eq_self, h_fe, h_tb, h_up, h_ch, h_gs, h_mem, h_fl, h_tel, h_out, endRmwWait_hide, loseRow_hide, rmwWrite_hide])

theorem execTwinSpaceGrant_hide (h_fe : M .fe = true) (h_tb : M .tb = true) (h_up : M .up = true) (h_ch : M .ch = true) (h_gs : M .gs = true) (h_mem : M .mem = true) (h_fl : M .fl = true) (h_tel : M .tel = true) (h_out : M .out = true) (tbl ver row : Nat) (fails : WbFails) (s : State) (t : State) (e : execTwinSpaceGrant tbl ver row fails s = .next t) : hide M t = hide M s := by
  simp only [execTwinSpaceGrant, Host.Outcome.next.injEq] at e
  subst e
  repeat' first
    | with_reducible rfl
    | (simp only [hide_ite, ite_self, ite_fst, implies_true, eq_self, h_fe, h_tb, h_up, h_ch, h_gs, h_mem, h_fl, h_tel, h_out, rmwAgain_hide]; done)
    | with_reducible apply hide_if
    | with_reducible apply hide_if1
    | split
    | (rw [forEach_hide])
    | (rw [foldl_hide])
    | (rw [foldlS_hide])
    | (intro; intros; try dsimp only)
    | (simp only [hide_ite, ite_self, ite_fst, implies_true, eq_self, h_fe, h_tb, h_up, h_ch, h_gs, h_mem, h_fl, h_tel, h_out, rmwAgain_hide])

theorem execCacheWayGrant_hide (h_fe : M .fe = true) (h_tb : M .tb = true) (h_up : M .up = true) (h_ch : M .ch = true) (h_gs : M .gs = true) (h_mem : M .mem = true) (h_fl : M .fl = true) (h_tel : M .tel = true) (h_out : M .out = true) (tbl ver row : Nat) (fails : WbFails) (s : State) (t : State) (e : execCacheWayGrant tbl ver row fails s = .next t) : hide M t = hide M s := by
  simp only [execCacheWayGrant, Host.Outcome.next.injEq] at e
  subst e
  repeat' first
    | with_reducible rfl
    | (simp only [hide_ite, ite_self, ite_fst, implies_true, eq_self, h_fe, h_tb, h_up, h_ch, h_gs, h_mem, h_fl, h_tel, h_out, rmwAgain_hide]; done)
    | with_reducible apply hide_if
    | with_reducible apply hide_if1
    | split
    | (rw [forEach_hide])
    | (rw [foldl_hide])
    | (rw [foldlS_hide])
    | (intro; intros; try dsimp only)
    | (simp only [hide_ite, ite_self, ite_fst, implies_true, eq_self, h_fe, h_tb, h_up, h_ch, h_gs, h_mem, h_fl, h_tel, h_out, rmwAgain_hide])

theorem twinFull_hide (h_up : M .up = true) (h_tel : M .tel = true) (s : State) (h ver row : Nat) : hide M (State.twinFull s h ver row) = hide M s := by
  unfold State.twinFull
  (repeat' split) <;> simp only [eq_self, h_up, h_tel, onUp_hide, tell_hide]

theorem execTwinFull_hide (h_up : M .up = true) (h_tel : M .tel = true) (tbl ver row : Nat) (s : State) (t : State) (e : execTwinFull tbl ver row s = .next t) : hide M t = hide M s := by
  refine next_hide e ?_
  simp only [eq_self, h_up, h_tel, twinFull_hide]

theorem writeBackOne_hide (h_tb : M .tb = true) (h_up : M .up = true) (h_ch : M .ch = true) (h_gs : M .gs = true) (h_fl : M .fl = true) (h_tel : M .tel = true) (h_out : M .out = true) (s : State) (h ver row : Nat) (res : Tried) : hide M (State.writeBackOne s h ver row res) = hide M s := by
  unfold State.writeBackOne
  try dsimp only
  repeat' first
    | with_reducible rfl
    | (simp only [hide_ite, ite_self, ite_fst, implies_true, eq_self, h_tb, h_up, h_ch, h_gs, h_fl, h_tel, h_out, writeBackRow_hide]; done)
    | with_reducible apply hide_if
    | with_reducible apply hide_if1
    | split
    | (rw [forEach_hide])
    | (rw [foldl_hide])
    | (rw [foldlS_hide])
    | (intro; intros; try dsimp only)
    | (simp only [hide_ite, ite_self, ite_fst, implies_true, eq_self, h_tb, h_up, h_ch, h_gs, h_fl, h_tel, h_out, writeBackRow_hide])

theorem execWbAgeExpiry_hide (h_tb : M .tb = true) (h_up : M .up = true) (h_ch : M .ch = true) (h_gs : M .gs = true) (h_fl : M .fl = true) (h_tel : M .tel = true) (h_out : M .out = true) (tbl ver row : Nat) (res : Tried) (s : State) (t : State) (e : execWbAgeExpiry tbl ver row res s = .next t) : hide M t = hide M s := by
  simp only [execWbAgeExpiry, Host.Outcome.next.injEq] at e
  subst e
  repeat' first
    | with_reducible rfl
    | (simp only [hide_ite, ite_self, ite_fst, implies_true, eq_self, h_tb, h_up, h_ch, h_gs, h_fl, h_tel, h_out, writeBackOne_hide]; done)
    | with_reducible apply hide_if
    | with_reducible apply hide_if1
    | split
    | (rw [forEach_hide])
    | (rw [foldl_hide])
    | (rw [foldlS_hide])
    | (intro; intros; try dsimp only)
    | (simp only [hide_ite, ite_self, ite_fst, implies_true, eq_self, h_tb, h_up, h_ch, h_gs, h_fl, h_tel, h_out, writeBackOne_hide])

theorem execWriteBack_hide (h_tb : M .tb = true) (h_up : M .up = true) (h_ch : M .ch = true) (h_gs : M .gs = true) (h_fl : M .fl = true) (h_tel : M .tel = true) (h_out : M .out = true) (tbl ver row : Nat) (res : Tried) (s : State) (t : State) (e : execWriteBack tbl ver row res s = .next t) : hide M t = hide M s := by
  simp only [execWriteBack, Host.Outcome.next.injEq] at e
  subst e
  repeat' first
    | with_reducible rfl
    | (simp only [hide_ite, ite_self, ite_fst, implies_true, eq_self, h_tb, h_up, h_ch, h_gs, h_fl, h_tel, h_out, writeBackOne_hide]; done)
    | with_reducible apply hide_if
    | with_reducible apply hide_if1
    | split
    | (rw [forEach_hide])
    | (rw [foldl_hide])
    | (rw [foldlS_hide])
    | (intro; intros; try dsimp only)
    | (simp only [hide_ite, ite_self, ite_fst, implies_true, eq_self, h_tb, h_up, h_ch, h_gs, h_fl, h_tel, h_out, writeBackOne_hide])

theorem optSel_hide (h_pregs : M .pregs = true) (h_lows : M .lows = true) (h_up : M .up = true) (h_tel : M .tel = true) (h_st : M .st = true) (h_out : M .out = true) (s : State) (p : Path) (off size : Nat) (val : Word64) : hide M (State.optSel s p off size val) = hide M s := by
  unfold State.optSel
  try dsimp only
  repeat' first
    | with_reducible rfl
    | (simp only [hide_ite, ite_self, ite_fst, implies_true, eq_self, h_pregs, h_lows, h_up, h_tel, h_st, h_out, onUp_hide, regWrite_hide, put_optSel_hide]; done)
    | with_reducible apply hide_if
    | with_reducible apply hide_if1
    | split
    | (rw [forEach_hide])
    | (rw [foldl_hide])
    | (rw [foldlS_hide])
    | (rw [regWrite_hide])
    | assumption
    | (intro; intros; try dsimp only)
    | (simp only [hide_ite, ite_self, ite_fst, implies_true, eq_self, h_pregs, h_lows, h_up, h_tel, h_st, h_out, onUp_hide, regWrite_hide, put_optSel_hide])

theorem execCommit_hide (h_pregs : M .pregs = true) (h_lows : M .lows = true) (h_up : M .up = true) (h_tel : M .tel = true) (h_st : M .st = true) (h_out : M .out = true) (p : Path) (val : Word64) (s : State) (t : State) (e : execCommit p val s = .next t) : hide M t = hide M s := by
  simp only [execCommit, Host.Outcome.next.injEq] at e
  subst e
  repeat' first
    | with_reducible rfl
    | (simp only [hide_ite, ite_self, ite_fst, implies_true, eq_self, h_pregs, h_lows, h_up, h_tel, h_st, h_out, optSel_hide]; done)
    | with_reducible apply hide_if
    | with_reducible apply hide_if1
    | split
    | (rw [forEach_hide])
    | (rw [foldl_hide])
    | (rw [foldlS_hide])
    | (intro; intros; try dsimp only)
    | (simp only [hide_ite, ite_self, ite_fst, implies_true, eq_self, h_pregs, h_lows, h_up, h_tel, h_st, h_out, optSel_hide])

end Sys2Proof.Laws
end

