-- ==== Sys2Proof/Laws/FrameQueue.lean ====
section
/-!
SUPPORT. Frames of what Machine/Queue.lean defines: the parts of the state that each may change.
-/

namespace Sys2Proof.Laws

open Sys2Proof.Machine

variable {M : Mask}

theorem letIn_hide (h_fe : M .fe = true) (h_xl : M .xl = true) (h_sp : M .sp = true) (h_up : M .up = true) (h_fl : M .fl = true) (h_tel : M .tel = true) (h_out : M .out = true) (s : State) (id : Nat) : hide M (State.letIn s id) = hide M s := by
  unfold State.letIn
  try dsimp only
  repeat' first
    | with_reducible rfl
    | (simp only [hide_ite, ite_self, ite_fst, implies_true, eq_self, h_fe, h_xl, h_sp, h_up, h_fl, h_tel, h_out, onDesc_hide, prick_hide, settle_hide]; done)
    | with_reducible apply hide_if
    | with_reducible apply hide_if1
    | split
    | (rw [forEach_hide])
    | (rw [foldl_hide])
    | (rw [foldlS_hide])
    | (intro; intros; try dsimp only)
    | (simp only [hide_ite, ite_self, ite_fst, implies_true, eq_self, h_fe, h_xl, h_sp, h_up, h_fl, h_tel, h_out, onDesc_hide, prick_hide, settle_hide])

theorem reserveOne_hide (h_fe : M .fe = true) (h_xl : M .xl = true) (h_sp : M .sp = true) (h_up : M .up = true) (h_fl : M .fl = true) (h_tel : M .tel = true) (h_out : M .out = true) (s : State) (id : Nat) : hide M (State.reserveOne s id) = hide M s := by
  unfold State.reserveOne
  try dsimp only
  repeat' first
    | with_reducible rfl
    | (simp only [hide_ite, ite_self, ite_fst, implies_true, eq_self, h_fe, h_xl, h_sp, h_up, h_fl, h_tel, h_out, count_hide, letIn_hide, onDesc_hide, onRing_hide]; done)
    | with_reducible apply hide_if
    | with_reducible apply hide_if1
    | split
    | (rw [forEach_hide])
    | (rw [foldl_hide])
    | (rw [foldlS_hide])
    | (intro; intros; try dsimp only)
    | (simp only [hide_ite, ite_self, ite_fst, implies_true, eq_self, h_fe, h_xl, h_sp, h_up, h_fl, h_tel, h_out, count_hide, letIn_hide, onDesc_hide, onRing_hide])

theorem reserveAll_hide (h_fe : M .fe = true) (h_xl : M .xl = true) (h_sp : M .sp = true) (h_up : M .up = true) (h_fl : M .fl = true) (h_tel : M .tel = true) (h_out : M .out = true) (s : State) (c : Nat) : hide M (State.reserveAll s c) = hide M s := by
  unfold State.reserveAll
  try dsimp only
  repeat' first
    | with_reducible rfl
    | (simp only [hide_ite, ite_self, ite_fst, implies_true, eq_self, h_fe, h_xl, h_sp, h_up, h_fl, h_tel, h_out, forEach_hide, reserveOne_hide]; done)
    | with_reducible apply hide_if
    | with_reducible apply hide_if1
    | split
    | (rw [forEach_hide])
    | (rw [foldl_hide])
    | (rw [foldlS_hide])
    | (intro; intros; try dsimp only)
    | (simp only [hide_ite, ite_self, ite_fst, implies_true, eq_self, h_fe, h_xl, h_sp, h_up, h_fl, h_tel, h_out, forEach_hide, reserveOne_hide])

theorem endWait_hide (h_fe : M .fe = true) (h_xl : M .xl = true) (h_sp : M .sp = true) (h_up : M .up = true) (h_fl : M .fl = true) (h_tel : M .tel = true) (h_out : M .out = true) (s : State) (id : Nat) (st : BitVec 8) : hide M (State.endWait s id st) = hide M s := by
  unfold State.endWait
  try dsimp only
  repeat' first
    | with_reducible rfl
    | (simp only [hide_ite, ite_self, ite_fst, implies_true, eq_self, h_fe, h_xl, h_sp, h_up, h_fl, h_tel, h_out, endDesc_hide, reserveAll_hide]; done)
    | with_reducible apply hide_if
    | with_reducible apply hide_if1
    | split
    | (rw [forEach_hide])
    | (rw [foldl_hide])
    | (rw [foldlS_hide])
    | (intro; intros; try dsimp only)
    | (simp only [hide_ite, ite_self, ite_fst, implies_true, eq_self, h_fe, h_xl, h_sp, h_up, h_fl, h_tel, h_out, endDesc_hide, reserveAll_hide])

theorem wakeWaits_hide (h_fe : M .fe = true) (h_xl : M .xl = true) (h_sp : M .sp = true) (h_up : M .up = true) (h_fl : M .fl = true) (h_tel : M .tel = true) (h_out : M .out = true) (s : State) (k : Nat) : hide M (State.wakeWaits s k) = hide M s := by
  unfold State.wakeWaits
  try dsimp only
  repeat' first
    | with_reducible rfl
    | (simp only [hide_ite, ite_self, ite_fst, implies_true, eq_self, h_fe, h_xl, h_sp, h_up, h_fl, h_tel, h_out, forEach_hide, endWait_hide]; done)
    | with_reducible apply hide_if
    | with_reducible apply hide_if1
    | split
    | (rw [forEach_hide])
    | (rw [foldl_hide])
    | (rw [foldlS_hide])
    | (intro; intros; try dsimp only)
    | (simp only [hide_ite, ite_self, ite_fst, implies_true, eq_self, h_fe, h_xl, h_sp, h_up, h_fl, h_tel, h_out, forEach_hide, endWait_hide])

theorem abortWaits_hide (h_fe : M .fe = true) (h_xl : M .xl = true) (h_sp : M .sp = true) (h_up : M .up = true) (h_fl : M .fl = true) (h_tel : M .tel = true) (h_out : M .out = true) (s : State) (k : Nat) : hide M (State.abortWaits s k) = hide M s := by
  unfold State.abortWaits
  try dsimp only
  repeat' first
    | with_reducible rfl
    | (simp only [hide_ite, ite_self, ite_fst, implies_true, eq_self, h_fe, h_xl, h_sp, h_up, h_fl, h_tel, h_out, forEach_hide, endWait_hide, onDesc_hide]; done)
    | with_reducible apply hide_if
    | with_reducible apply hide_if1
    | split
    | (rw [forEach_hide])
    | (rw [foldl_hide])
    | (rw [foldlS_hide])
    | (intro; intros; try dsimp only)
    | (simp only [hide_ite, ite_self, ite_fst, implies_true, eq_self, h_fe, h_xl, h_sp, h_up, h_fl, h_tel, h_out, forEach_hide, endWait_hide, onDesc_hide])

theorem dropKept_hide (h_sp : M .sp = true) (s : State) (p : Kept → Bool) : hide M (State.dropKept s p) = hide M s := by
  unfold State.dropKept
  simp only [eq_self, h_sp, onSp_hide]

theorem freeKept_hide (h_sp : M .sp = true) (s : State) (p : Kept → Bool) : hide M (State.freeKept s p) = hide M s := by
  unfold State.freeKept
  try dsimp only
  repeat' first
    | with_reducible rfl
    | (simp only [hide_ite, ite_self, ite_fst, implies_true, eq_self, h_sp, dropKept_hide, onSp_hide]; done)
    | with_reducible apply hide_if
    | with_reducible apply hide_if1
    | split
    | (rw [forEach_hide])
    | (rw [foldl_hide])
    | (rw [foldlS_hide])
    | (intro; intros; try dsimp only)
    | (simp only [hide_ite, ite_self, ite_fst, implies_true, eq_self, h_sp, dropKept_hide, onSp_hide])

theorem endTile_hide (h_sp : M .sp = true) (s : State) (tile except : Nat) : hide M (State.endTile s tile except) = hide M s := by
  unfold State.endTile
  (repeat' split) <;> simp only [eq_self, h_sp, onSp_hide]

theorem tileDone_hide (h_regs : M .regs = true) (h_sp : M .sp = true) (s : State) (d : Desc) : hide M (State.tileDone s d) = hide M s := by
  unfold State.tileDone
  try dsimp only
  repeat' first
    | with_reducible rfl
    | (simp only [hide_ite, ite_self, ite_fst, implies_true, eq_self, h_regs, h_sp, endTile_hide, finish_hide, onSp_hide, put_tileRel_hide]; done)
    | with_reducible apply hide_if
    | with_reducible apply hide_if1
    | split
    | (rw [forEach_hide])
    | (rw [foldl_hide])
    | (rw [foldlS_hide])
    | (rw [finish_hide])
    | assumption
    | (intro; intros; try dsimp only)
    | (simp only [hide_ite, ite_self, ite_fst, implies_true, eq_self, h_regs, h_sp, endTile_hide, finish_hide, onSp_hide, put_tileRel_hide])

theorem endLoad_hide (h_regs : M .regs = true) (h_qz : M .qz = true) (s : State) : hide M (State.endLoad s) = hide M s := by
  unfold State.endLoad
  (repeat' split) <;> simp only [set_qz_hide, implies_true, eq_self, h_regs, h_qz, finish_hide, put_rscCmd_hide]

theorem disableRing_hide (h_regs : M .regs = true) (h_fe : M .fe = true) (h_xl : M .xl = true) (h_sp : M .sp = true) (h_up : M .up = true) (h_fl : M .fl = true) (h_tel : M .tel = true) (h_out : M .out = true) (s : State) (k : Nat) : hide M (State.disableRing s k) = hide M s := by
  unfold State.disableRing
  try dsimp only
  repeat' first
    | with_reducible rfl
    | (simp only [hide_ite, ite_self, ite_fst, implies_true, eq_self, h_regs, h_fe, h_xl, h_sp, h_up, h_fl, h_tel, h_out, abortWaits_hide, dropKept_hide, finish_hide, fitRing_hide, onFe_hide, onRing_hide, onSp_hide, put_tileRel_hide]; done)
    | with_reducible apply hide_if
    | with_reducible apply hide_if1
    | split
    | (rw [forEach_hide])
    | (rw [foldl_hide])
    | (rw [foldlS_hide])
    | (rw [finish_hide])
    | assumption
    | (intro; intros; try dsimp only)
    | (simp only [hide_ite, ite_self, ite_fst, implies_true, eq_self, h_regs, h_fe, h_xl, h_sp, h_up, h_fl, h_tel, h_out, abortWaits_hide, dropKept_hide, finish_hide, fitRing_hide, onFe_hide, onRing_hide, onSp_hide, put_tileRel_hide])

theorem drained_hide (h_regs : M .regs = true) (h_fe : M .fe = true) (h_xl : M .xl = true) (h_sp : M .sp = true) (h_up : M .up = true) (h_fl : M .fl = true) (h_tel : M .tel = true) (h_out : M .out = true) (s : State) (k : Nat) : hide M (State.drained s k) = hide M s := by
  unfold State.drained
  try dsimp only
  repeat' first
    | with_reducible rfl
    | (simp only [hide_ite, ite_self, ite_fst, implies_true, eq_self, h_regs, h_fe, h_xl, h_sp, h_up, h_fl, h_tel, h_out, disableRing_hide, finish_hide, put_ringCmd_hide]; done)
    | with_reducible apply hide_if
    | with_reducible apply hide_if1
    | split
    | (rw [forEach_hide])
    | (rw [foldl_hide])
    | (rw [foldlS_hide])
    | (rw [finish_hide])
    | assumption
    | (intro; intros; try dsimp only)
    | (simp only [hide_ite, ite_self, ite_fst, implies_true, eq_self, h_regs, h_fe, h_xl, h_sp, h_up, h_fl, h_tel, h_out, disableRing_hide, finish_hide, put_ringCmd_hide])

theorem drainInval_hide (h_regs : M .regs = true) (h_xl : M .xl = true) (s : State) (id : Nat) : hide M (State.drainInval s id) = hide M s := by
  unfold State.drainInval
  (repeat' split) <;> simp only [hide_ite, ite_self, eq_self, h_regs, h_xl, onXl_hide, put_segInval_hide]

theorem leave_hide (h_regs : M .regs = true) (h_fe : M .fe = true) (h_xl : M .xl = true) (h_sp : M .sp = true) (h_qz : M .qz = true) (h_up : M .up = true) (s : State) (d : Desc) : hide M (State.leave s d) = hide M s := by
  unfold State.leave
  simp only [eq_self, h_regs, h_fe, h_xl, h_sp, h_qz, h_up, drainInval_hide, dropKept_hide, endLoad_hide, onFe_hide, onRing_hide, onSp_hide, onUp_hide, onXl_hide, tileDone_hide]

theorem goOn_hide (h_regs : M .regs = true) (h_fe : M .fe = true) (h_xl : M .xl = true) (h_sp : M .sp = true) (h_up : M .up = true) (h_fl : M .fl = true) (h_tel : M .tel = true) (h_out : M .out = true) (s : State) (d : Desc) : hide M (State.goOn s d) = hide M s := by
  unfold State.goOn
  try dsimp only
  repeat' first
    | with_reducible rfl
    | (simp only [hide_ite, ite_self, ite_fst, implies_true, eq_self, h_regs, h_fe, h_xl, h_sp, h_up, h_fl, h_tel, h_out, drained_hide, reserveAll_hide, retryParked_hide]; done)
    | with_reducible apply hide_if
    | with_reducible apply hide_if1
    | split
    | (rw [forEach_hide])
    | (rw [foldl_hide])
    | (rw [foldlS_hide])
    | (intro; intros; try dsimp only)
    | (simp only [hide_ite, ite_self, ite_fst, implies_true, eq_self, h_regs, h_fe, h_xl, h_sp, h_up, h_fl, h_tel, h_out, drained_hide, reserveAll_hide, retryParked_hide])

theorem putRecord_hide (h_fe : M .fe = true) (h_up : M .up = true) (h_pw : M .pw = true) (h_out : M .out = true) (s : State) (d : Desc) : hide M (State.putRecord s d) = hide M s := by
  unfold State.putRecord
  try dsimp only
  repeat' first
    | with_reducible rfl
    | (simp only [hide_ite, ite_self, ite_fst, implies_true, eq_self, h_fe, h_up, h_pw, h_out, irq_hide, putInline_hide, putSlot_hide, signal_hide]; done)
    | with_reducible apply hide_if
    | with_reducible apply hide_if1
    | split
    | (rw [forEach_hide])
    | (rw [foldl_hide])
    | (rw [foldlS_hide])
    | (intro; intros; try dsimp only)
    | (simp only [hide_ite, ite_self, ite_fst, implies_true, eq_self, h_fe, h_up, h_pw, h_out, irq_hide, putInline_hide, putSlot_hide, signal_hide])

theorem doneSeq_hide (h_fe : M .fe = true) (h_xl : M .xl = true) (h_sp : M .sp = true) (h_up : M .up = true) (h_fl : M .fl = true) (h_tel : M .tel = true) (h_out : M .out = true) (s : State) (d : Desc) : hide M (State.doneSeq s d) = hide M s := by
  unfold State.doneSeq
  try dsimp only
  repeat' first
    | with_reducible rfl
    | (simp only [hide_ite, ite_self, ite_fst, implies_true, eq_self, h_fe, h_xl, h_sp, h_up, h_fl, h_tel, h_out, onRing_hide, wakeWaits_hide]; done)
    | with_reducible apply hide_if
    | with_reducible apply hide_if1
    | split
    | (rw [forEach_hide])
    | (rw [foldl_hide])
    | (rw [foldlS_hide])
    | (intro; intros; try dsimp only)
    | (simp only [hide_ite, ite_self, ite_fst, implies_true, eq_self, h_fe, h_xl, h_sp, h_up, h_fl, h_tel, h_out, onRing_hide, wakeWaits_hide])

theorem noteUnseen_hide (h_fe : M .fe = true) (s : State) (d : Desc) : hide M (State.noteUnseen s d) = hide M s := by
  unfold State.noteUnseen
  simp only [hide_ite, ite_self, eq_self, h_fe, onRing_hide]

theorem countDone_hide (h_tel : M .tel = true) (s : State) (d : Desc) : hide M (State.countDone s d) = hide M s := by
  unfold State.countDone
  try dsimp only
  repeat' first
    | with_reducible rfl
    | (simp only [hide_ite, ite_self, ite_fst, implies_true, eq_self, h_tel, count_hide, tell_hide]; done)
    | with_reducible apply hide_if
    | with_reducible apply hide_if1
    | split
    | (rw [forEach_hide])
    | (rw [foldl_hide])
    | (rw [foldlS_hide])
    | (intro; intros; try dsimp only)
    | (simp only [hide_ite, ite_self, ite_fst, implies_true, eq_self, h_tel, count_hide, tell_hide])

theorem flushOther_hide (h_out : M .out = true) (s : State) (d : Desc) : hide M (State.flushOther s d) = hide M s := by
  unfold State.flushOther
  try dsimp only
  repeat' first
    | with_reducible rfl
    | (simp only [hide_ite, ite_self, ite_fst, implies_true, eq_self, h_out, send_hide]; done)
    | with_reducible apply hide_if
    | with_reducible apply hide_if1
    | split
    | (rw [forEach_hide])
    | (rw [foldl_hide])
    | (rw [foldlS_hide])
    | (intro; intros; try dsimp only)
    | (simp only [hide_ite, ite_self, ite_fst, implies_true, eq_self, h_out, send_hide])

theorem finishRecord_hide (h_regs : M .regs = true) (h_fe : M .fe = true) (h_xl : M .xl = true) (h_sp : M .sp = true) (h_qz : M .qz = true) (h_up : M .up = true) (h_fl : M .fl = true) (h_tel : M .tel = true) (h_pw : M .pw = true) (h_out : M .out = true) (s : State) (d : Desc) : hide M (State.finishRecord s d) = hide M s := by
  unfold State.finishRecord
  try dsimp only
  repeat' first
    | with_reducible rfl
    | (simp only [hide_ite, ite_self, ite_fst, implies_true, eq_self, h_regs, h_fe, h_xl, h_sp, h_qz, h_up, h_fl, h_tel, h_pw, h_out, countDone_hide, count_hide, doneSeq_hide, flushOther_hide, goOn_hide, leave_hide, noteUnseen_hide, putRecord_hide, tell_hide]; done)
    | with_reducible apply hide_if
    | with_reducible apply hide_if1
    | split
    | (rw [forEach_hide])
    | (rw [foldl_hide])
    | (rw [foldlS_hide])
    | (intro; intros; try dsimp only)
    | (simp only [hide_ite, ite_self, ite_fst, implies_true, eq_self, h_regs, h_fe, h_xl, h_sp, h_qz, h_up, h_fl, h_tel, h_pw, h_out, countDone_hide, count_hide, doneSeq_hide, flushOther_hide, goOn_hide, leave_hide, noteUnseen_hide, putRecord_hide, tell_hide])

theorem abortOne_hide (h_regs : M .regs = true) (h_fe : M .fe = true) (h_xl : M .xl = true) (h_sp : M .sp = true) (h_qz : M .qz = true) (h_up : M .up = true) (h_tel : M .tel = true) (h_pw : M .pw = true) (h_out : M .out = true) (s : State) (d : Desc) : hide M (State.abortOne s d) = hide M s := by
  unfold State.abortOne
  try dsimp only
  repeat' first
    | with_reducible rfl
    | (simp only [hide_ite, ite_self, ite_fst, implies_true, eq_self, h_regs, h_fe, h_xl, h_sp, h_qz, h_up, h_tel, h_pw, h_out, countDone_hide, leave_hide, onRing_hide, putRecord_hide]; done)
    | with_reducible apply hide_if
    | with_reducible apply hide_if1
    | split
    | (rw [forEach_hide])
    | (rw [foldl_hide])
    | (rw [foldlS_hide])
    | (intro; intros; try dsimp only)
    | (simp only [hide_ite, ite_self, ite_fst, implies_true, eq_self, h_regs, h_fe, h_xl, h_sp, h_qz, h_up, h_tel, h_pw, h_out, countDone_hide, leave_hide, onRing_hide, putRecord_hide])

theorem resetRing_hide (h_regs : M .regs = true) (h_fe : M .fe = true) (h_xl : M .xl = true) (h_sp : M .sp = true) (h_qz : M .qz = true) (h_up : M .up = true) (h_fl : M .fl = true) (h_tel : M .tel = true) (h_pw : M .pw = true) (h_out : M .out = true) (s : State) (k : Nat) : hide M (State.resetRing s k) = hide M s := by
  unfold State.resetRing
  try dsimp only
  repeat' first
    | with_reducible rfl
    | (simp only [hide_ite, ite_self, ite_fst, implies_true, eq_self, h_regs, h_fe, h_xl, h_sp, h_qz, h_up, h_fl, h_tel, h_pw, h_out, forEach_hide, abandon_hide, abortOne_hide, disableRing_hide, reserveAll_hide, retryParked_hide]; done)
    | with_reducible apply hide_if
    | with_reducible apply hide_if1
    | split
    | (rw [forEach_hide])
    | (rw [foldl_hide])
    | (rw [foldlS_hide])
    | (intro; intros; try dsimp only)
    | (simp only [hide_ite, ite_self, ite_fst, implies_true, eq_self, h_regs, h_fe, h_xl, h_sp, h_qz, h_up, h_fl, h_tel, h_pw, h_out, forEach_hide, abandon_hide, abortOne_hide, disableRing_hide, reserveAll_hide, retryParked_hide])

end Sys2Proof.Laws
end

