-- ==== Sys2Proof/Laws/FrameChannels.lean ====
section
/-!
SUPPORT. Frames of what Machine/Channels.lean defines: the parts of the state that each may change.
-/

namespace Sys2Proof.Laws

open Sys2Proof.Machine

variable {M : Mask}

theorem loseMaster_hide (h_tel : M .tel = true) (s : State) (k : Key) (ver : Nat) : hide M (State.loseMaster s k ver) = hide M s := by
  unfold State.loseMaster
  simp only [eq_self, h_tel, tellLost_hide]

theorem dropFor_hide (h_tb : M .tb = true) (h_up : M .up = true) (h_ch : M .ch = true) (h_gs : M .gs = true) (h_fl : M .fl = true) (h_tel : M .tel = true) (h_out : M .out = true) (s : State) (w : Way) (fails : WbFails) : hide M (State.dropFor s w fails).1 = hide M s := by
  unfold State.dropFor
  try dsimp only
  repeat' first
    | with_reducible rfl
    | (simp only [hide_ite, ite_self, ite_fst, implies_true, eq_self, h_tb, h_up, h_ch, h_gs, h_fl, h_tel, h_out, dropReplicas_hide, dropRow_hide, dropWay_hide, markHead_hide, writeBackRow_hide]; done)
    | with_reducible apply hide_if
    | with_reducible apply hide_if1
    | split
    | (rw [forEach_hide])
    | (rw [foldl_hide])
    | (rw [foldlS_hide])
    | (intro; intros; try dsimp only)
    | (simp only [hide_ite, ite_self, ite_fst, implies_true, eq_self, h_tb, h_up, h_ch, h_gs, h_fl, h_tel, h_out, dropReplicas_hide, dropRow_hide, dropWay_hide, markHead_hide, writeBackRow_hide])

theorem dropEach_hide (h_tb : M .tb = true) (h_up : M .up = true) (h_ch : M .ch = true) (h_gs : M .gs = true) (h_fl : M .fl = true) (h_tel : M .tel = true) (h_out : M .out = true) (s : State) (fails : WbFails) (y0 : List Way) : hide M (State.dropEach s fails y0).1 = hide M s := by
  fun_induction State.dropEach s fails y0
  all_goals
    repeat' first
      | with_reducible rfl
      | assumption
      | (simp +zetaDelta only [*, hide_ite, ite_self, ite_fst, implies_true, eq_self, h_tb, h_up, h_ch, h_gs, h_fl, h_tel, h_out, dropFor_hide]; done)
      | with_reducible apply hide_if
      | with_reducible apply hide_if1
      | split
      | (rw [forEach_hide])
      | (rw [foldl_hide])
      | (rw [foldlS_hide])
      | (intro; intros; try dsimp only)
      | (simp +zetaDelta only [*, hide_ite, ite_self, ite_fst, implies_true, eq_self, h_tb, h_up, h_ch, h_gs, h_fl, h_tel, h_out, dropFor_hide])

theorem dropOrLose_hide (h_tb : M .tb = true) (h_up : M .up = true) (h_ch : M .ch = true) (h_gs : M .gs = true) (h_fl : M .fl = true) (h_tel : M .tel = true) (h_out : M .out = true) (s : State) (w : Way) : hide M (State.dropOrLose s w) = hide M s := by
  unfold State.dropOrLose
  try dsimp only
  repeat' first
    | with_reducible rfl
    | (simp only [hide_ite, ite_self, ite_fst, implies_true, eq_self, h_tb, h_up, h_ch, h_gs, h_fl, h_tel, h_out, dropFor_hide, dropRow_hide, loseMaster_hide]; done)
    | with_reducible apply hide_if
    | with_reducible apply hide_if1
    | split
    | (rw [forEach_hide])
    | (rw [foldl_hide])
    | (rw [foldlS_hide])
    | (intro; intros; try dsimp only)
    | (simp only [hide_ite, ite_self, ite_fst, implies_true, eq_self, h_tb, h_up, h_ch, h_gs, h_fl, h_tel, h_out, dropFor_hide, dropRow_hide, loseMaster_hide])

theorem moveMaster_hide (h_tb : M .tb = true) (h_up : M .up = true) (h_ch : M .ch = true) (h_gs : M .gs = true) (h_mem : M .mem = true) (h_fl : M .fl = true) (h_tel : M .tel = true) (h_out : M .out = true) (s : State) (w : Way) (t : Table) : hide M (State.moveMaster s w t) = hide M s := by
  unfold State.moveMaster
  try dsimp only
  repeat' first
    | with_reducible rfl
    | (simp only [hide_ite, ite_self, ite_fst, implies_true, eq_self, h_tb, h_up, h_ch, h_gs, h_mem, h_fl, h_tel, h_out, dropOrLose_hide, dropWays_hide, onWays_hide, placeCopy_hide, readCopy_hide]; done)
    | with_reducible apply hide_if
    | with_reducible apply hide_if1
    | split
    | (rw [forEach_hide])
    | (rw [foldl_hide])
    | (rw [foldlS_hide])
    | (intro; intros; try dsimp only)
    | (simp only [hide_ite, ite_self, ite_fst, implies_true, eq_self, h_tb, h_up, h_ch, h_gs, h_mem, h_fl, h_tel, h_out, dropOrLose_hide, dropWays_hide, onWays_hide, placeCopy_hide, readCopy_hide])

theorem rehouse_hide (h_tb : M .tb = true) (h_up : M .up = true) (h_ch : M .ch = true) (h_gs : M .gs = true) (h_mem : M .mem = true) (h_fl : M .fl = true) (h_tel : M .tel = true) (h_out : M .out = true) (s : State) (all : Bool) (w : Way) : hide M (State.rehouse s all w) = hide M s := by
  unfold State.rehouse
  try dsimp only
  repeat' first
    | with_reducible rfl
    | (simp only [hide_ite, ite_self, ite_fst, implies_true, eq_self, h_tb, h_up, h_ch, h_gs, h_mem, h_fl, h_tel, h_out, dropOrLose_hide, dropReplicas_hide, dropWay_hide, moveMaster_hide]; done)
    | with_reducible apply hide_if
    | with_reducible apply hide_if1
    | split
    | (rw [forEach_hide])
    | (rw [foldl_hide])
    | (rw [foldlS_hide])
    | (intro; intros; try dsimp only)
    | (simp only [hide_ite, ite_self, ite_fst, implies_true, eq_self, h_tb, h_up, h_ch, h_gs, h_mem, h_fl, h_tel, h_out, dropOrLose_hide, dropReplicas_hide, dropWay_hide, moveMaster_hide])

theorem settleTwins_hide (h_up : M .up = true) (s : State) : hide M (State.settleTwins s) = hide M s := by
  unfold State.settleTwins
  simp only [eq_self, h_up, onUp_hide]

theorem rehouseAll_hide (h_tb : M .tb = true) (h_up : M .up = true) (h_ch : M .ch = true) (h_gs : M .gs = true) (h_mem : M .mem = true) (h_fl : M .fl = true) (h_tel : M .tel = true) (h_out : M .out = true) (s : State) (all : Bool) : hide M (State.rehouseAll s all) = hide M s := by
  unfold State.rehouseAll
  try dsimp only
  repeat' first
    | with_reducible rfl
    | (simp only [hide_ite, ite_self, ite_fst, implies_true, eq_self, h_tb, h_up, h_ch, h_gs, h_mem, h_fl, h_tel, h_out, forEach_hide, rehouse_hide, settleTwins_hide]; done)
    | with_reducible apply hide_if
    | with_reducible apply hide_if1
    | split
    | (rw [forEach_hide])
    | (rw [foldl_hide])
    | (rw [foldlS_hide])
    | (intro; intros; try dsimp only)
    | (simp only [hide_ite, ite_self, ite_fst, implies_true, eq_self, h_tb, h_up, h_ch, h_gs, h_mem, h_fl, h_tel, h_out, forEach_hide, rehouse_hide, settleTwins_hide])

theorem masterFromTwin_hide (h_tb : M .tb = true) (h_up : M .up = true) (h_ch : M .ch = true) (h_gs : M .gs = true) (h_mem : M .mem = true) (h_fl : M .fl = true) (h_tel : M .tel = true) (h_out : M .out = true) (s : State) (w : Way) (stay : Bool) : hide M (State.masterFromTwin s w stay) = hide M s := by
  unfold State.masterFromTwin
  try dsimp only
  repeat' first
    | with_reducible rfl
    | (simp only [hide_ite, ite_self, ite_fst, implies_true, eq_self, h_tb, h_up, h_ch, h_gs, h_mem, h_fl, h_tel, h_out, count_hide, dropWay_hide, moveMaster_hide]; done)
    | with_reducible apply hide_if
    | with_reducible apply hide_if1
    | split
    | (rw [forEach_hide])
    | (rw [foldl_hide])
    | (rw [foldlS_hide])
    | (intro; intros; try dsimp only)
    | (simp only [hide_ite, ite_self, ite_fst, implies_true, eq_self, h_tb, h_up, h_ch, h_gs, h_mem, h_fl, h_tel, h_out, count_hide, dropWay_hide, moveMaster_hide])

theorem wayGone_hide (h_tb : M .tb = true) (h_up : M .up = true) (h_ch : M .ch = true) (h_gs : M .gs = true) (h_mem : M .mem = true) (h_fl : M .fl = true) (h_tel : M .tel = true) (h_out : M .out = true) (s : State) (hit : Nat → Nat → Bool) (spared : Bool) (w : Way) : hide M (State.wayGone s hit spared w) = hide M s := by
  unfold State.wayGone
  try dsimp only
  repeat' first
    | with_reducible rfl
    | (simp only [hide_ite, ite_self, ite_fst, implies_true, eq_self, h_tb, h_up, h_ch, h_gs, h_mem, h_fl, h_tel, h_out, count_hide, dropReplicas_hide, dropRow_hide, dropWay_hide, markHead_hide, masterFromTwin_hide]; done)
    | with_reducible apply hide_if
    | with_reducible apply hide_if1
    | split
    | (rw [forEach_hide])
    | (rw [foldl_hide])
    | (rw [foldlS_hide])
    | (intro; intros; try dsimp only)
    | (simp only [hide_ite, ite_self, ite_fst, implies_true, eq_self, h_tb, h_up, h_ch, h_gs, h_mem, h_fl, h_tel, h_out, count_hide, dropReplicas_hide, dropRow_hide, dropWay_hide, markHead_hide, masterFromTwin_hide])

theorem pinGone_hide (h_tb : M .tb = true) (h_tel : M .tel = true) (h_rl : M .rl = true) (s : State) (e : Extent) (r : Nat) : hide M (State.pinGone s e r) = hide M s := by
  unfold State.pinGone
  try dsimp only
  repeat' first
    | with_reducible rfl
    | (simp only [hide_ite, ite_self, ite_fst, implies_true, eq_self, h_tb, h_tel, h_rl, count_hide, onExtent_hide, poisonRow_hide]; done)
    | with_reducible apply hide_if
    | with_reducible apply hide_if1
    | split
    | (rw [forEach_hide])
    | (rw [foldl_hide])
    | (rw [foldlS_hide])
    | (intro; intros; try dsimp only)
    | (simp only [hide_ite, ite_self, ite_fst, implies_true, eq_self, h_tb, h_tel, h_rl, count_hide, onExtent_hide, poisonRow_hide])

theorem rebuild_hide (h_tb : M .tb = true) (h_up : M .up = true) (h_ch : M .ch = true) (h_gs : M .gs = true) (h_mem : M .mem = true) (h_fl : M .fl = true) (h_tel : M .tel = true) (h_rl : M .rl = true) (h_out : M .out = true) (s : State) (ch : Nat) (hit : Nat → Nat → Bool) (spared : Bool) : hide M (State.rebuild s ch hit spared) = hide M s := by
  unfold State.rebuild
  try dsimp only
  repeat' first
    | with_reducible rfl
    | (simp only [hide_ite, ite_self, ite_fst, implies_true, eq_self, h_tb, h_up, h_ch, h_gs, h_mem, h_fl, h_tel, h_rl, h_out, forEach_hide, pinGone_hide, wayGone_hide]; done)
    | with_reducible apply hide_if
    | with_reducible apply hide_if1
    | split
    | (rw [forEach_hide])
    | (rw [foldl_hide])
    | (rw [foldlS_hide])
    | (intro; intros; try dsimp only)
    | (simp only [hide_ite, ite_self, ite_fst, implies_true, eq_self, h_tb, h_up, h_ch, h_gs, h_mem, h_fl, h_tel, h_rl, h_out, forEach_hide, pinGone_hide, wayGone_hide])

theorem bankRepairOn_hide (h_tb : M .tb = true) (h_up : M .up = true) (h_ch : M .ch = true) (h_gs : M .gs = true) (h_mem : M .mem = true) (h_fl : M .fl = true) (h_tel : M .tel = true) (h_st : M .st = true) (h_rl : M .rl = true) (h_out : M .out = true) (s : State) (lch p tier bank : Nat) (copied : Bool) : hide M (State.bankRepairOn s lch p tier bank copied).1 = hide M s := by
  unfold State.bankRepairOn
  try dsimp only
  repeat' first
    | with_reducible rfl
    | (simp only [hide_ite, ite_self, ite_fst, implies_true, eq_self, h_tb, h_up, h_ch, h_gs, h_mem, h_fl, h_tel, h_st, h_rl, h_out, addLoad_hide, auditSpare_hide, count_hide, onGs_hide, rebuild_hide, spareLow_hide, tell_hide]; done)
    | with_reducible apply hide_if
    | with_reducible apply hide_if1
    | split
    | (rw [forEach_hide])
    | (rw [foldl_hide])
    | (rw [foldlS_hide])
    | (intro; intros; try dsimp only)
    | (simp only [hide_ite, ite_self, ite_fst, implies_true, eq_self, h_tb, h_up, h_ch, h_gs, h_mem, h_fl, h_tel, h_st, h_rl, h_out, addLoad_hide, auditSpare_hide, count_hide, onGs_hide, rebuild_hide, spareLow_hide, tell_hide])

theorem hold_hide (h_ch : M .ch = true) (h_gs : M .gs = true) (h_tel : M .tel = true) (s : State) (c : ChCopy) : hide M (State.hold s c) = hide M s := by
  unfold State.hold
  try dsimp only
  repeat' first
    | with_reducible rfl
    | (simp only [hide_ite, ite_self, ite_fst, implies_true, eq_self, h_ch, h_gs, h_tel, forEach_hide, addLoad_hide, count_hide, dualWrite_hide, onGs_hide, tell_hide]; done)
    | with_reducible apply hide_if
    | with_reducible apply hide_if1
    | split
    | (rw [forEach_hide])
    | (rw [foldl_hide])
    | (rw [foldlS_hide])
    | (intro; intros; try dsimp only)
    | (simp only [hide_ite, ite_self, ite_fst, implies_true, eq_self, h_ch, h_gs, h_tel, forEach_hide, addLoad_hide, count_hide, dualWrite_hide, onGs_hide, tell_hide])

theorem replay_hide (h_gs : M .gs = true) (h_tel : M .tel = true) (s : State) (c : ChCopy) (waits : List WcEntry) : hide M (State.replay s c waits) = hide M s := by
  unfold State.replay
  try dsimp only
  repeat' first
    | with_reducible rfl
    | (simp only [hide_ite, ite_self, ite_fst, implies_true, eq_self, h_gs, h_tel, forEach_hide, onGs_hide, wcNext_hide]; done)
    | with_reducible apply hide_if
    | with_reducible apply hide_if1
    | split
    | (rw [forEach_hide])
    | (rw [foldl_hide])
    | (rw [foldlS_hide])
    | (intro; intros; try dsimp only)
    | (simp only [hide_ite, ite_self, ite_fst, implies_true, eq_self, h_gs, h_tel, forEach_hide, onGs_hide, wcNext_hide])

theorem gsEnd_hide (h_regs : M .regs = true) (s : State) (lch op res : Nat) : hide M (State.gsEnd s lch op res) = hide M s := by
  unfold State.gsEnd
  try dsimp only
  repeat' first
    | with_reducible rfl
    | (simp only [hide_ite, ite_self, ite_fst, implies_true, eq_self, h_regs, finish_hide, put_gsCmd_hide]; done)
    | with_reducible apply hide_if
    | with_reducible apply hide_if1
    | split
    | (rw [forEach_hide])
    | (rw [foldl_hide])
    | (rw [foldlS_hide])
    | (rw [finish_hide])
    | assumption
    | (intro; intros; try dsimp only)
    | (simp only [hide_ite, ite_self, ite_fst, implies_true, eq_self, h_regs, finish_hide, put_gsCmd_hide])

theorem gsDone_hide (h_regs : M .regs = true) (s : State) (lch op : Nat) : hide M (State.gsDone s lch op) = hide M s := by
  unfold State.gsDone
  simp only [hide_ite, ite_self, implies_true, eq_self, h_regs, gsEnd_hide]

theorem endCopy_hide (h_gs : M .gs = true) (s : State) (lch : Nat) : hide M (State.endCopy s lch) = hide M s := by
  unfold State.endCopy
  simp only [implies_true, eq_self, h_gs, onGs_hide]

theorem copyLoad_hide (h_ch : M .ch = true) (s : State) (c : ChCopy) : hide M (State.copyLoad s c) = hide M s := by
  unfold State.copyLoad
  try dsimp only
  repeat' first
    | with_reducible rfl
    | (simp only [hide_ite, ite_self, ite_fst, implies_true, eq_self, h_ch, forEach_hide, addLoad_hide]; done)
    | with_reducible apply hide_if
    | with_reducible apply hide_if1
    | split
    | (rw [forEach_hide])
    | (rw [foldl_hide])
    | (rw [foldlS_hide])
    | (intro; intros; try dsimp only)
    | (simp only [hide_ite, ite_self, ite_fst, implies_true, eq_self, h_ch, forEach_hide, addLoad_hide])

theorem copyRest_hide (h_ch : M .ch = true) (h_gs : M .gs = true) (h_tel : M .tel = true) (s : State) (c : ChCopy) : hide M (State.copyRest s c).1 = hide M s := by
  unfold State.copyRest
  try dsimp only
  repeat' first
    | with_reducible rfl
    | (simp only [hide_ite, ite_self, ite_fst, implies_true, eq_self, h_ch, h_gs, h_tel, copyLoad_hide, count_hide, onGs_hide, tell_hide]; done)
    | with_reducible apply hide_if
    | with_reducible apply hide_if1
    | split
    | (rw [forEach_hide])
    | (rw [foldl_hide])
    | (rw [foldlS_hide])
    | (intro; intros; try dsimp only)
    | (simp only [hide_ite, ite_self, ite_fst, implies_true, eq_self, h_ch, h_gs, h_tel, copyLoad_hide, count_hide, onGs_hide, tell_hide])

theorem tellTested_hide (h_tel : M .tel = true) (s : State) (y0 : Option TgRes) : hide M (State.tellTested s y0) = hide M s := by
  unfold State.tellTested
  try dsimp only
  repeat' first
    | with_reducible rfl
    | (simp only [hide_ite, ite_self, ite_fst, implies_true, eq_self, h_tel, count_hide, tell_hide]; done)
    | with_reducible apply hide_if
    | with_reducible apply hide_if1
    | split
    | (rw [forEach_hide])
    | (rw [foldl_hide])
    | (rw [foldlS_hide])
    | (intro; intros; try dsimp only)
    | (simp only [hide_ite, ite_self, ite_fst, implies_true, eq_self, h_tel, count_hide, tell_hide])

theorem reduce_hide (h_tel : M .tel = true) (h_rl : M .rl = true) (s : State) (kind lost : Nat) : hide M (State.reduce s kind lost) = hide M s := by
  unfold State.reduce
  simp only [eq_self, h_tel, h_rl, onRl_hide, tell_hide]

theorem foldReduces_hide (h_tel : M .tel = true) (h_rl : M .rl = true) (s : State) : hide M (State.foldReduces s) = hide M s := by
  unfold State.foldReduces
  try dsimp only
  repeat' first
    | with_reducible rfl
    | (simp only [hide_ite, ite_self, ite_fst, implies_true, eq_self, h_tel, h_rl, reduce_hide]; done)
    | with_reducible apply hide_if
    | with_reducible apply hide_if1
    | split
    | (rw [forEach_hide])
    | (rw [foldl_hide])
    | (rw [foldlS_hide])
    | (intro; intros; try dsimp only)
    | (simp only [hide_ite, ite_self, ite_fst, implies_true, eq_self, h_tel, h_rl, reduce_hide])

theorem unfoldRestores_hide (h_rl : M .rl = true) (s : State) : hide M (State.unfoldRestores s) = hide M s := by
  unfold State.unfoldRestores
  try dsimp only
  repeat' first
    | with_reducible rfl
    | (simp only [hide_ite, ite_self, ite_fst, implies_true, eq_self, h_rl, onRl_hide]; done)
    | with_reducible apply hide_if
    | with_reducible apply hide_if1
    | split
    | (rw [forEach_hide])
    | (rw [foldl_hide])
    | (rw [foldlS_hide])
    | (intro; intros; try dsimp only)
    | (simp only [hide_ite, ite_self, ite_fst, implies_true, eq_self, h_rl, onRl_hide])

theorem enterService_hide (h_gs : M .gs = true) (h_tel : M .tel = true) (h_st : M .st = true) (s : State) (lch pch kind : Nat) (spare : Bool) : hide M (State.enterService s lch pch kind spare) = hide M s := by
  unfold State.enterService
  try dsimp only
  repeat' first
    | with_reducible rfl
    | (simp only [hide_ite, ite_self, ite_fst, implies_true, eq_self, h_gs, h_tel, h_st, auditSpare_hide, onPhys_hide, spareLow_hide, tell_hide]; done)
    | with_reducible apply hide_if
    | with_reducible apply hide_if1
    | split
    | (rw [forEach_hide])
    | (rw [foldl_hide])
    | (rw [foldlS_hide])
    | (intro; intros; try dsimp only)
    | (simp only [hide_ite, ite_self, ite_fst, implies_true, eq_self, h_gs, h_tel, h_st, auditSpare_hide, onPhys_hide, spareLow_hide, tell_hide])

theorem joinGroup_hide (h_gs : M .gs = true) (s : State) (pch old : Nat) : hide M (State.joinGroup s pch old) = hide M s := by
  unfold State.joinGroup
  simp only [eq_self, h_gs, onPhys_hide]

theorem switchReplace_hide (h_regs : M .regs = true) (h_gs : M .gs = true) (h_tel : M .tel = true) (h_st : M .st = true) (s : State) (c : ChCopy) (old : Nat) (pass : Option (Option TgRes)) : hide M (State.switchReplace s c old pass) = hide M s := by
  unfold State.switchReplace
  try dsimp only
  repeat' first
    | with_reducible rfl
    | (simp only [hide_ite, ite_self, ite_fst, implies_true, eq_self, h_regs, h_gs, h_tel, h_st, count_hide, enterService_hide, gsDone_hide, joinGroup_hide, onGs_hide, onPhys_hide, tellTested_hide]; done)
    | with_reducible apply hide_if
    | with_reducible apply hide_if1
    | split
    | (rw [forEach_hide])
    | (rw [foldl_hide])
    | (rw [foldlS_hide])
    | (intro; intros; try dsimp only)
    | (simp only [hide_ite, ite_self, ite_fst, implies_true, eq_self, h_regs, h_gs, h_tel, h_st, count_hide, enterService_hide, gsDone_hide, joinGroup_hide, onGs_hide, onPhys_hide, tellTested_hide])

theorem switchFold_hide (h_regs : M .regs = true) (h_tb : M .tb = true) (h_up : M .up = true) (h_ch : M .ch = true) (h_gs : M .gs = true) (h_mem : M .mem = true) (h_fl : M .fl = true) (h_tel : M .tel = true) (h_rl : M .rl = true) (h_out : M .out = true) (s : State) (c : ChCopy) (old : Nat) (waits : List WcEntry) : hide M (State.switchFold s c old waits) = hide M s := by
  unfold State.switchFold
  try dsimp only
  repeat' first
    | with_reducible rfl
    | (simp only [hide_ite, ite_self, ite_fst, implies_true, eq_self, h_regs, h_tb, h_up, h_ch, h_gs, h_mem, h_fl, h_tel, h_rl, h_out, count_hide, foldReduces_hide, gsDone_hide, onGs_hide, onPhys_hide, rehouseAll_hide, replay_hide, tell_hide]; done)
    | with_reducible apply hide_if
    | with_reducible apply hide_if1
    | split
    | (rw [forEach_hide])
    | (rw [foldl_hide])
    | (rw [foldlS_hide])
    | (intro; intros; try dsimp only)
    | (simp only [hide_ite, ite_self, ite_fst, implies_true, eq_self, h_regs, h_tb, h_up, h_ch, h_gs, h_mem, h_fl, h_tel, h_rl, h_out, count_hide, foldReduces_hide, gsDone_hide, onGs_hide, onPhys_hide, rehouseAll_hide, replay_hide, tell_hide])

theorem switchUnfold_hide (h_regs : M .regs = true) (h_tb : M .tb = true) (h_up : M .up = true) (h_ch : M .ch = true) (h_gs : M .gs = true) (h_mem : M .mem = true) (h_fl : M .fl = true) (h_tel : M .tel = true) (h_st : M .st = true) (h_rl : M .rl = true) (h_out : M .out = true) (s : State) (c : ChCopy) (old : Nat) (waits : List WcEntry) : hide M (State.switchUnfold s c old waits) = hide M s := by
  unfold State.switchUnfold
  try dsimp only
  repeat' first
    | with_reducible rfl
    | (simp only [hide_ite, ite_self, ite_fst, implies_true, eq_self, h_regs, h_tb, h_up, h_ch, h_gs, h_mem, h_fl, h_tel, h_st, h_rl, h_out, enterService_hide, gsDone_hide, joinGroup_hide, onGs_hide, rehouseAll_hide, replay_hide, unfoldRestores_hide]; done)
    | with_reducible apply hide_if
    | with_reducible apply hide_if1
    | split
    | (rw [forEach_hide])
    | (rw [foldl_hide])
    | (rw [foldlS_hide])
    | (intro; intros; try dsimp only)
    | (simp only [hide_ite, ite_self, ite_fst, implies_true, eq_self, h_regs, h_tb, h_up, h_ch, h_gs, h_mem, h_fl, h_tel, h_st, h_rl, h_out, enterService_hide, gsDone_hide, joinGroup_hide, onGs_hide, rehouseAll_hide, replay_hide, unfoldRestores_hide])

theorem switchCh_hide (h_regs : M .regs = true) (h_tb : M .tb = true) (h_up : M .up = true) (h_ch : M .ch = true) (h_gs : M .gs = true) (h_mem : M .mem = true) (h_fl : M .fl = true) (h_tel : M .tel = true) (h_st : M .st = true) (h_rl : M .rl = true) (h_free : M .free = true) (h_out : M .out = true) (s : State) (c0 : ChCopy) (pass : Option (Option TgRes)) : hide M (State.switchCh s c0 pass) = hide M s := by
  unfold State.switchCh
  try dsimp only
  repeat' first
    | with_reducible rfl
    | (simp only [hide_ite, ite_self, ite_fst, implies_true, eq_self, h_regs, h_tb, h_up, h_ch, h_gs, h_mem, h_fl, h_tel, h_st, h_rl, h_free, h_out, copyRest_hide, endCopy_hide, hold_hide, rebuild_hide, refreshDue_hide, replay_hide, switchFold_hide, switchReplace_hide, switchUnfold_hide]; done)
    | with_reducible apply hide_if
    | with_reducible apply hide_if1
    | split
    | (rw [forEach_hide])
    | (rw [foldl_hide])
    | (rw [foldlS_hide])
    | (intro; intros; try dsimp only)
    | (simp only [hide_ite, ite_self, ite_fst, implies_true, eq_self, h_regs, h_tb, h_up, h_ch, h_gs, h_mem, h_fl, h_tel, h_st, h_rl, h_free, h_out, copyRest_hide, endCopy_hide, hold_hide, rebuild_hide, refreshDue_hide, replay_hide, switchFold_hide, switchReplace_hide, switchUnfold_hide])

theorem retestOld_hide (h_gs : M .gs = true) (h_tel : M .tel = true) (s : State) (f : Nat) (res : Option TgRes) : hide M (State.retestOld s f res) = hide M s := by
  unfold State.retestOld
  try dsimp only
  repeat' first
    | with_reducible rfl
    | (simp only [hide_ite, ite_self, ite_fst, implies_true, eq_self, h_gs, h_tel, onGs_hide, onPhys_hide, tellTested_hide]; done)
    | with_reducible apply hide_if
    | with_reducible apply hide_if1
    | split
    | (rw [forEach_hide])
    | (rw [foldl_hide])
    | (rw [foldlS_hide])
    | (intro; intros; try dsimp only)
    | (simp only [hide_ite, ite_self, ite_fst, implies_true, eq_self, h_gs, h_tel, onGs_hide, onPhys_hide, tellTested_hide])

theorem execChannelSwitch_hide (h_regs : M .regs = true) (h_tb : M .tb = true) (h_up : M .up = true) (h_ch : M .ch = true) (h_gs : M .gs = true) (h_mem : M .mem = true) (h_fl : M .fl = true) (h_tel : M .tel = true) (h_st : M .st = true) (h_rl : M .rl = true) (h_free : M .free = true) (h_out : M .out = true) (lch : Nat) (res : Option TgRes) (s : State) (t : State) (e : execChannelSwitch lch res s = .next t) : hide M t = hide M s := by
  simp only [execChannelSwitch, Host.Outcome.next.injEq] at e
  subst e
  repeat' first
    | with_reducible rfl
    | (simp only [hide_ite, ite_self, ite_fst, implies_true, eq_self, h_regs, h_tb, h_up, h_ch, h_gs, h_mem, h_fl, h_tel, h_st, h_rl, h_free, h_out, retestOld_hide, switchCh_hide]; done)
    | with_reducible apply hide_if
    | with_reducible apply hide_if1
    | split
    | (rw [forEach_hide])
    | (rw [foldl_hide])
    | (rw [foldlS_hide])
    | (intro; intros; try dsimp only)
    | (simp only [hide_ite, ite_self, ite_fst, implies_true, eq_self, h_regs, h_tb, h_up, h_ch, h_gs, h_mem, h_fl, h_tel, h_st, h_rl, h_free, h_out, retestOld_hide, switchCh_hide])

theorem startCopy_hide (h_gs : M .gs = true) (s : State) (c : ChCopy) (old : Option Nat) : hide M (State.startCopy s c old) = hide M s := by
  unfold State.startCopy
  (repeat' split) <;> simp only [implies_true, eq_self, h_gs, onGs_hide, onPhys_hide]

theorem replaceCh_hide (h_regs : M .regs = true) (h_tb : M .tb = true) (h_up : M .up = true) (h_ch : M .ch = true) (h_gs : M .gs = true) (h_mem : M .mem = true) (h_fl : M .fl = true) (h_tel : M .tel = true) (h_st : M .st = true) (h_rl : M .rl = true) (h_free : M .free = true) (h_out : M .out = true) (s : State) (f : Nat) (readable : Bool) : hide M (State.replaceCh s f readable).1 = hide M s := by
  unfold State.replaceCh
  try dsimp only
  repeat' first
    | with_reducible rfl
    | (simp only [hide_ite, ite_self, ite_fst, implies_true, eq_self, h_regs, h_tb, h_up, h_ch, h_gs, h_mem, h_fl, h_tel, h_st, h_rl, h_free, h_out, startCopy_hide, switchCh_hide]; done)
    | with_reducible apply hide_if
    | with_reducible apply hide_if1
    | split
    | (rw [forEach_hide])
    | (rw [foldl_hide])
    | (rw [foldlS_hide])
    | (intro; intros; try dsimp only)
    | (simp only [hide_ite, ite_self, ite_fst, implies_true, eq_self, h_regs, h_tb, h_up, h_ch, h_gs, h_mem, h_fl, h_tel, h_st, h_rl, h_free, h_out, startCopy_hide, switchCh_hide])

theorem foldCh_hide (h_tb : M .tb = true) (h_up : M .up = true) (h_ch : M .ch = true) (h_gs : M .gs = true) (h_fl : M .fl = true) (h_tel : M .tel = true) (h_out : M .out = true) (s : State) (f : Nat) (readable : Bool) (fails : WbFails) : hide M (State.foldCh s f readable fails).1 = hide M s := by
  unfold State.foldCh
  try dsimp only
  repeat' first
    | with_reducible rfl
    | (simp only [hide_ite, ite_self, ite_fst, implies_true, eq_self, h_tb, h_up, h_ch, h_gs, h_fl, h_tel, h_out, dropEach_hide, startCopy_hide]; done)
    | with_reducible apply hide_if
    | with_reducible apply hide_if1
    | split
    | (rw [forEach_hide])
    | (rw [foldl_hide])
    | (rw [foldlS_hide])
    | (intro; intros; try dsimp only)
    | (simp only [hide_ite, ite_self, ite_fst, implies_true, eq_self, h_tb, h_up, h_ch, h_gs, h_fl, h_tel, h_out, dropEach_hide, startCopy_hide])

theorem unfoldCh_hide (h_gs : M .gs = true) (s : State) (f : Nat) : hide M (State.unfoldCh s f).1 = hide M s := by
  unfold State.unfoldCh
  (repeat' split) <;> simp only [eq_self, h_gs, startCopy_hide]

theorem losePinned_hide (h_tb : M .tb = true) (h_up : M .up = true) (h_ch : M .ch = true) (h_gs : M .gs = true) (h_fl : M .fl = true) (h_tel : M .tel = true) (h_rl : M .rl = true) (h_out : M .out = true) (s : State) (f : Nat) (e : Extent) : hide M (State.losePinned s f e) = hide M s := by
  unfold State.losePinned
  try dsimp only
  repeat' first
    | with_reducible rfl
    | (simp only [hide_ite, ite_self, ite_fst, implies_true, eq_self, h_tb, h_up, h_ch, h_gs, h_fl, h_tel, h_rl, h_out, forEach_hide, clean_hide, loseMaster_hide, onExtent_hide, poisonRow_hide, writeBackRow_hide]; done)
    | with_reducible apply hide_if
    | with_reducible apply hide_if1
    | split
    | (rw [forEach_hide])
    | (rw [foldl_hide])
    | (rw [foldlS_hide])
    | (intro; intros; try dsimp only)
    | (simp only [hide_ite, ite_self, ite_fst, implies_true, eq_self, h_tb, h_up, h_ch, h_gs, h_fl, h_tel, h_rl, h_out, forEach_hide, clean_hide, loseMaster_hide, onExtent_hide, poisonRow_hide, writeBackRow_hide])

theorem loseEntries_hide (h_up : M .up = true) (h_tel : M .tel = true) (s : State) (f : Nat) : hide M (State.loseEntries s f) = hide M s := by
  unfold State.loseEntries
  simp only [implies_true, eq_self, h_up, h_tel, forEach_hide, onUp_hide, tellLost_hide]

theorem loseChannel_hide (h_fe : M .fe = true) (h_tb : M .tb = true) (h_sp : M .sp = true) (h_up : M .up = true) (h_ch : M .ch = true) (h_gs : M .gs = true) (h_fl : M .fl = true) (h_tel : M .tel = true) (h_rl : M .rl = true) (h_out : M .out = true) (s : State) (f : Nat) : hide M (State.loseChannel s f) = hide M s := by
  unfold State.loseChannel
  try dsimp only
  repeat' first
    | with_reducible rfl
    | (simp only [hide_ite, ite_self, ite_fst, implies_true, eq_self, h_fe, h_tb, h_sp, h_up, h_ch, h_gs, h_fl, h_tel, h_rl, h_out, forEach_hide, abandon_hide, dropKept_hide, dropOrLose_hide, endCopy_hide, endDesc_hide, loseEntries_hide, losePinned_hide, onGs_hide, onPhys_hide, reduce_hide, settleTwins_hide]; done)
    | with_reducible apply hide_if
    | with_reducible apply hide_if1
    | split
    | (rw [forEach_hide])
    | (rw [foldl_hide])
    | (rw [foldlS_hide])
    | (intro; intros; try dsimp only)
    | (simp only [hide_ite, ite_self, ite_fst, implies_true, eq_self, h_fe, h_tb, h_sp, h_up, h_ch, h_gs, h_fl, h_tel, h_rl, h_out, forEach_hide, abandon_hide, dropKept_hide, dropOrLose_hide, endCopy_hide, endDesc_hide, loseEntries_hide, losePinned_hide, onGs_hide, onPhys_hide, reduce_hide, settleTwins_hide])

theorem autoAction_hide (h_regs : M .regs = true) (h_fe : M .fe = true) (h_tb : M .tb = true) (h_sp : M .sp = true) (h_up : M .up = true) (h_ch : M .ch = true) (h_gs : M .gs = true) (h_mem : M .mem = true) (h_fl : M .fl = true) (h_tel : M .tel = true) (h_st : M .st = true) (h_rl : M .rl = true) (h_free : M .free = true) (h_out : M .out = true) (s : State) (f : Nat) (readable : Bool) : hide M (State.autoAction s f readable) = hide M s := by
  unfold State.autoAction
  try dsimp only
  repeat' first
    | with_reducible rfl
    | (simp only [hide_ite, ite_self, ite_fst, implies_true, eq_self, h_regs, h_fe, h_tb, h_sp, h_up, h_ch, h_gs, h_mem, h_fl, h_tel, h_st, h_rl, h_free, h_out, foldCh_hide, loseChannel_hide, replaceCh_hide]; done)
    | with_reducible apply hide_if
    | with_reducible apply hide_if1
    | split
    | (rw [forEach_hide])
    | (rw [foldl_hide])
    | (rw [foldlS_hide])
    | (intro; intros; try dsimp only)
    | (simp only [hide_ite, ite_self, ite_fst, implies_true, eq_self, h_regs, h_fe, h_tb, h_sp, h_up, h_ch, h_gs, h_mem, h_fl, h_tel, h_st, h_rl, h_free, h_out, foldCh_hide, loseChannel_hide, replaceCh_hide])

theorem channelAction_hide (h_regs : M .regs = true) (h_fe : M .fe = true) (h_tb : M .tb = true) (h_sp : M .sp = true) (h_up : M .up = true) (h_ch : M .ch = true) (h_gs : M .gs = true) (h_mem : M .mem = true) (h_fl : M .fl = true) (h_tel : M .tel = true) (h_st : M .st = true) (h_rl : M .rl = true) (h_free : M .free = true) (h_out : M .out = true) (s : State) (f : Nat) (readable : Bool) : hide M (State.channelAction s f readable) = hide M s := by
  unfold State.channelAction
  try dsimp only
  repeat' first
    | with_reducible rfl
    | (simp only [hide_ite, ite_self, ite_fst, implies_true, eq_self, h_regs, h_fe, h_tb, h_sp, h_up, h_ch, h_gs, h_mem, h_fl, h_tel, h_st, h_rl, h_free, h_out, autoAction_hide, onGs_hide, tell_hide]; done)
    | with_reducible apply hide_if
    | with_reducible apply hide_if1
    | split
    | (rw [forEach_hide])
    | (rw [foldl_hide])
    | (rw [foldlS_hide])
    | (intro; intros; try dsimp only)
    | (simp only [hide_ite, ite_self, ite_fst, implies_true, eq_self, h_regs, h_fe, h_tb, h_sp, h_up, h_ch, h_gs, h_mem, h_fl, h_tel, h_st, h_rl, h_free, h_out, autoAction_hide, onGs_hide, tell_hide])

theorem runDue_hide (h_regs : M .regs = true) (h_fe : M .fe = true) (h_tb : M .tb = true) (h_sp : M .sp = true) (h_up : M .up = true) (h_ch : M .ch = true) (h_gs : M .gs = true) (h_mem : M .mem = true) (h_fl : M .fl = true) (h_tel : M .tel = true) (h_st : M .st = true) (h_rl : M .rl = true) (h_free : M .free = true) (h_out : M .out = true) (s : State) : hide M (State.runDue s) = hide M s := by
  unfold State.runDue
  try dsimp only
  repeat' first
    | with_reducible rfl
    | (simp only [hide_ite, ite_self, ite_fst, implies_true, eq_self, h_regs, h_fe, h_tb, h_sp, h_up, h_ch, h_gs, h_mem, h_fl, h_tel, h_st, h_rl, h_free, h_out, forEach_hide, channelAction_hide, onGs_hide, switchCh_hide]; done)
    | with_reducible apply hide_if
    | with_reducible apply hide_if1
    | split
    | (rw [forEach_hide])
    | (rw [foldl_hide])
    | (rw [foldlS_hide])
    | (intro; intros; try dsimp only)
    | (simp only [hide_ite, ite_self, ite_fst, implies_true, eq_self, h_regs, h_fe, h_tb, h_sp, h_up, h_ch, h_gs, h_mem, h_fl, h_tel, h_st, h_rl, h_free, h_out, forEach_hide, channelAction_hide, onGs_hide, switchCh_hide])

theorem channelFails_hide (h_regs : M .regs = true) (h_fe : M .fe = true) (h_tb : M .tb = true) (h_sp : M .sp = true) (h_up : M .up = true) (h_ch : M .ch = true) (h_gs : M .gs = true) (h_mem : M .mem = true) (h_fl : M .fl = true) (h_tel : M .tel = true) (h_st : M .st = true) (h_rl : M .rl = true) (h_free : M .free = true) (h_out : M .out = true) (s : State) (f : Nat) : hide M (State.channelFails s f) = hide M s := by
  unfold State.channelFails
  try dsimp only
  repeat' first
    | with_reducible rfl
    | (simp only [hide_ite, ite_self, ite_fst, implies_true, eq_self, h_regs, h_fe, h_tb, h_sp, h_up, h_ch, h_gs, h_mem, h_fl, h_tel, h_st, h_rl, h_free, h_out, channelAction_hide, onGs_hide, switchCh_hide]; done)
    | with_reducible apply hide_if
    | with_reducible apply hide_if1
    | split
    | (rw [forEach_hide])
    | (rw [foldl_hide])
    | (rw [foldlS_hide])
    | (intro; intros; try dsimp only)
    | (simp only [hide_ite, ite_self, ite_fst, implies_true, eq_self, h_regs, h_fe, h_tb, h_sp, h_up, h_ch, h_gs, h_mem, h_fl, h_tel, h_st, h_rl, h_free, h_out, channelAction_hide, onGs_hide, switchCh_hide])

theorem spareFails_hide (h_regs : M .regs = true) (h_fe : M .fe = true) (h_tb : M .tb = true) (h_sp : M .sp = true) (h_up : M .up = true) (h_ch : M .ch = true) (h_gs : M .gs = true) (h_mem : M .mem = true) (h_fl : M .fl = true) (h_tel : M .tel = true) (h_st : M .st = true) (h_rl : M .rl = true) (h_free : M .free = true) (h_out : M .out = true) (s : State) (f : Nat) : hide M (State.spareFails s f) = hide M s := by
  unfold State.spareFails
  try dsimp only
  repeat' first
    | with_reducible rfl
    | (simp only [hide_ite, ite_self, ite_fst, implies_true, eq_self, h_regs, h_fe, h_tb, h_sp, h_up, h_ch, h_gs, h_mem, h_fl, h_tel, h_st, h_rl, h_free, h_out, channelAction_hide, endCopy_hide, gsEnd_hide, onGs_hide, onPhys_hide]; done)
    | with_reducible apply hide_if
    | with_reducible apply hide_if1
    | split
    | (rw [forEach_hide])
    | (rw [foldl_hide])
    | (rw [foldlS_hide])
    | (intro; intros; try dsimp only)
    | (simp only [hide_ite, ite_self, ite_fst, implies_true, eq_self, h_regs, h_fe, h_tb, h_sp, h_up, h_ch, h_gs, h_mem, h_fl, h_tel, h_st, h_rl, h_free, h_out, channelAction_hide, endCopy_hide, gsEnd_hide, onGs_hide, onPhys_hide])

theorem bankRepair_hide (h_regs : M .regs = true) (h_fe : M .fe = true) (h_tb : M .tb = true) (h_sp : M .sp = true) (h_up : M .up = true) (h_ch : M .ch = true) (h_gs : M .gs = true) (h_mem : M .mem = true) (h_fl : M .fl = true) (h_tel : M .tel = true) (h_st : M .st = true) (h_rl : M .rl = true) (h_free : M .free = true) (h_out : M .out = true) (s : State) (lch p tier bank : Nat) (copied : Bool) : hide M (State.bankRepair s lch p tier bank copied) = hide M s := by
  unfold State.bankRepair
  try dsimp only
  repeat' first
    | with_reducible rfl
    | (simp only [hide_ite, ite_self, ite_fst, implies_true, eq_self, h_regs, h_fe, h_tb, h_sp, h_up, h_ch, h_gs, h_mem, h_fl, h_tel, h_st, h_rl, h_free, h_out, bankRepairOn_hide, channelAction_hide]; done)
    | with_reducible apply hide_if
    | with_reducible apply hide_if1
    | split
    | (rw [forEach_hide])
    | (rw [foldl_hide])
    | (rw [foldlS_hide])
    | (intro; intros; try dsimp only)
    | (simp only [hide_ite, ite_self, ite_fst, implies_true, eq_self, h_regs, h_fe, h_tb, h_sp, h_up, h_ch, h_gs, h_mem, h_fl, h_tel, h_st, h_rl, h_free, h_out, bankRepairOn_hide, channelAction_hide])

theorem execBankRepair_hide (h_regs : M .regs = true) (h_fe : M .fe = true) (h_tb : M .tb = true) (h_sp : M .sp = true) (h_up : M .up = true) (h_ch : M .ch = true) (h_gs : M .gs = true) (h_mem : M .mem = true) (h_fl : M .fl = true) (h_tel : M .tel = true) (h_st : M .st = true) (h_rl : M .rl = true) (h_free : M .free = true) (h_out : M .out = true) (ch tier : Nat) (bank : BankAim) (s : State) (t : State) (e : execBankRepair ch tier bank s = .next t) : hide M t = hide M s := by
  simp only [execBankRepair, Host.Outcome.next.injEq] at e
  subst e
  repeat' first
    | with_reducible rfl
    | (simp only [hide_ite, ite_self, ite_fst, implies_true, eq_self, h_regs, h_fe, h_tb, h_sp, h_up, h_ch, h_gs, h_mem, h_fl, h_tel, h_st, h_rl, h_free, h_out, bankRepair_hide]; done)
    | with_reducible apply hide_if
    | with_reducible apply hide_if1
    | split
    | (rw [forEach_hide])
    | (rw [foldl_hide])
    | (rw [foldlS_hide])
    | (intro; intros; try dsimp only)
    | (simp only [hide_ite, ite_self, ite_fst, implies_true, eq_self, h_regs, h_fe, h_tb, h_sp, h_up, h_ch, h_gs, h_mem, h_fl, h_tel, h_st, h_rl, h_free, h_out, bankRepair_hide])

theorem rowRepair_hide (h_regs : M .regs = true) (h_fe : M .fe = true) (h_tb : M .tb = true) (h_sp : M .sp = true) (h_up : M .up = true) (h_ch : M .ch = true) (h_gs : M .gs = true) (h_mem : M .mem = true) (h_fl : M .fl = true) (h_tel : M .tel = true) (h_st : M .st = true) (h_rl : M .rl = true) (h_free : M .free = true) (h_out : M .out = true) (s : State) (lch p tier bank row : Nat) : hide M (State.rowRepair s lch p tier bank row) = hide M s := by
  unfold State.rowRepair
  try dsimp only
  repeat' first
    | with_reducible rfl
    | (simp only [hide_ite, ite_self, ite_fst, implies_true, eq_self, h_regs, h_fe, h_tb, h_sp, h_up, h_ch, h_gs, h_mem, h_fl, h_tel, h_st, h_rl, h_free, h_out, addLoad_hide, auditSpare_hide, bankRepair_hide, count_hide, onGs_hide, spareLow_hide, tell_hide]; done)
    | with_reducible apply hide_if
    | with_reducible apply hide_if1
    | split
    | (rw [forEach_hide])
    | (rw [foldl_hide])
    | (rw [foldlS_hide])
    | (intro; intros; try dsimp only)
    | (simp only [hide_ite, ite_self, ite_fst, implies_true, eq_self, h_regs, h_fe, h_tb, h_sp, h_up, h_ch, h_gs, h_mem, h_fl, h_tel, h_st, h_rl, h_free, h_out, addLoad_hide, auditSpare_hide, bankRepair_hide, count_hide, onGs_hide, spareLow_hide, tell_hide])

theorem execRowRepair_hide (h_regs : M .regs = true) (h_fe : M .fe = true) (h_tb : M .tb = true) (h_sp : M .sp = true) (h_up : M .up = true) (h_ch : M .ch = true) (h_gs : M .gs = true) (h_mem : M .mem = true) (h_fl : M .fl = true) (h_tel : M .tel = true) (h_st : M .st = true) (h_rl : M .rl = true) (h_free : M .free = true) (h_out : M .out = true) (ch tier bank row : Nat) (s : State) (t : State) (e : execRowRepair ch tier bank row s = .next t) : hide M t = hide M s := by
  simp only [execRowRepair, Host.Outcome.next.injEq] at e
  subst e
  repeat' first
    | with_reducible rfl
    | (simp only [hide_ite, ite_self, ite_fst, implies_true, eq_self, h_regs, h_fe, h_tb, h_sp, h_up, h_ch, h_gs, h_mem, h_fl, h_tel, h_st, h_rl, h_free, h_out, rowRepair_hide]; done)
    | with_reducible apply hide_if
    | with_reducible apply hide_if1
    | split
    | (rw [forEach_hide])
    | (rw [foldl_hide])
    | (rw [foldlS_hide])
    | (intro; intros; try dsimp only)
    | (simp only [hide_ite, ite_self, ite_fst, implies_true, eq_self, h_regs, h_fe, h_tb, h_sp, h_up, h_ch, h_gs, h_mem, h_fl, h_tel, h_st, h_rl, h_free, h_out, rowRepair_hide])

theorem markLost_hide (h_gs : M .gs = true) (h_tel : M .tel = true) (s : State) (ch b : Nat) : hide M (State.markLost s ch b) = hide M s := by
  unfold State.markLost
  try dsimp only
  repeat' first
    | with_reducible rfl
    | (simp only [hide_ite, ite_self, ite_fst, implies_true, eq_self, h_gs, h_tel, forEach_hide, countN_hide, onGs_hide, wcNext_hide]; done)
    | with_reducible apply hide_if
    | with_reducible apply hide_if1
    | split
    | (rw [forEach_hide])
    | (rw [foldl_hide])
    | (rw [foldlS_hide])
    | (intro; intros; try dsimp only)
    | (simp only [hide_ite, ite_self, ite_fst, implies_true, eq_self, h_gs, h_tel, forEach_hide, countN_hide, onGs_hide, wcNext_hide])

theorem bankStuck_hide (h_regs : M .regs = true) (h_fe : M .fe = true) (h_tb : M .tb = true) (h_sp : M .sp = true) (h_up : M .up = true) (h_ch : M .ch = true) (h_gs : M .gs = true) (h_mem : M .mem = true) (h_fl : M .fl = true) (h_tel : M .tel = true) (h_st : M .st = true) (h_rl : M .rl = true) (h_free : M .free = true) (h_out : M .out = true) (s : State) (ch p tier bank : Nat) : hide M (State.bankStuck s ch p tier bank) = hide M s := by
  unfold State.bankStuck
  try dsimp only
  repeat' first
    | with_reducible rfl
    | (simp only [hide_ite, ite_self, ite_fst, implies_true, eq_self, h_regs, h_fe, h_tb, h_sp, h_up, h_ch, h_gs, h_mem, h_fl, h_tel, h_st, h_rl, h_free, h_out, bankRepairOn_hide, channelAction_hide, count_hide, markLost_hide, rebuild_hide, tell_hide]; done)
    | with_reducible apply hide_if
    | with_reducible apply hide_if1
    | split
    | (rw [forEach_hide])
    | (rw [foldl_hide])
    | (rw [foldlS_hide])
    | (intro; intros; try dsimp only)
    | (simp only [hide_ite, ite_self, ite_fst, implies_true, eq_self, h_regs, h_fe, h_tb, h_sp, h_up, h_ch, h_gs, h_mem, h_fl, h_tel, h_st, h_rl, h_free, h_out, bankRepairOn_hide, channelAction_hide, count_hide, markLost_hide, rebuild_hide, tell_hide])

theorem execBankStuck_hide (h_regs : M .regs = true) (h_fe : M .fe = true) (h_tb : M .tb = true) (h_sp : M .sp = true) (h_up : M .up = true) (h_ch : M .ch = true) (h_gs : M .gs = true) (h_mem : M .mem = true) (h_fl : M .fl = true) (h_tel : M .tel = true) (h_st : M .st = true) (h_rl : M .rl = true) (h_free : M .free = true) (h_out : M .out = true) (ch tier bank : Nat) (s : State) (t : State) (e : execBankStuck ch tier bank s = .next t) : hide M t = hide M s := by
  simp only [execBankStuck, Host.Outcome.next.injEq] at e
  subst e
  repeat' first
    | with_reducible rfl
    | (simp only [hide_ite, ite_self, ite_fst, implies_true, eq_self, h_regs, h_fe, h_tb, h_sp, h_up, h_ch, h_gs, h_mem, h_fl, h_tel, h_st, h_rl, h_free, h_out, bankStuck_hide]; done)
    | with_reducible apply hide_if
    | with_reducible apply hide_if1
    | split
    | (rw [forEach_hide])
    | (rw [foldl_hide])
    | (rw [foldlS_hide])
    | (intro; intros; try dsimp only)
    | (simp only [hide_ite, ite_self, ite_fst, implies_true, eq_self, h_regs, h_fe, h_tb, h_sp, h_up, h_ch, h_gs, h_mem, h_fl, h_tel, h_st, h_rl, h_free, h_out, bankStuck_hide])

theorem marginFound_hide (h_regs : M .regs = true) (h_fe : M .fe = true) (h_tb : M .tb = true) (h_sp : M .sp = true) (h_up : M .up = true) (h_ch : M .ch = true) (h_gs : M .gs = true) (h_mem : M .mem = true) (h_fl : M .fl = true) (h_tel : M .tel = true) (h_st : M .st = true) (h_rl : M .rl = true) (h_free : M .free = true) (h_out : M .out = true) (s : State) (lch : Nat) (y0 : ChanFinding) : hide M (State.marginFound s lch y0) = hide M s := by
  unfold State.marginFound
  try dsimp only
  repeat' first
    | with_reducible rfl
    | (simp only [hide_ite, ite_self, ite_fst, implies_true, eq_self, h_regs, h_fe, h_tb, h_sp, h_up, h_ch, h_gs, h_mem, h_fl, h_tel, h_st, h_rl, h_free, h_out, channelAction_hide, channelFails_hide, spareFails_hide]; done)
    | with_reducible apply hide_if
    | with_reducible apply hide_if1
    | split
    | (rw [forEach_hide])
    | (rw [foldl_hide])
    | (rw [foldlS_hide])
    | (intro; intros; try dsimp only)
    | (simp only [hide_ite, ite_self, ite_fst, implies_true, eq_self, h_regs, h_fe, h_tb, h_sp, h_up, h_ch, h_gs, h_mem, h_fl, h_tel, h_st, h_rl, h_free, h_out, channelAction_hide, channelFails_hide, spareFails_hide])

theorem execMarginCheck_hide (h_regs : M .regs = true) (h_fe : M .fe = true) (h_tb : M .tb = true) (h_sp : M .sp = true) (h_up : M .up = true) (h_ch : M .ch = true) (h_gs : M .gs = true) (h_mem : M .mem = true) (h_fl : M .fl = true) (h_tel : M .tel = true) (h_st : M .st = true) (h_rl : M .rl = true) (h_free : M .free = true) (h_out : M .out = true) (lch : Nat) (found : ChanFinding) (s : State) (t : State) (e : execMarginCheck lch found s = .next t) : hide M t = hide M s := by
  simp only [execMarginCheck, Host.Outcome.next.injEq] at e
  subst e
  repeat' first
    | with_reducible rfl
    | (simp only [hide_ite, ite_self, ite_fst, implies_true, eq_self, h_regs, h_fe, h_tb, h_sp, h_up, h_ch, h_gs, h_mem, h_fl, h_tel, h_st, h_rl, h_free, h_out, marginFound_hide]; done)
    | with_reducible apply hide_if
    | with_reducible apply hide_if1
    | split
    | (rw [forEach_hide])
    | (rw [foldl_hide])
    | (rw [foldlS_hide])
    | (intro; intros; try dsimp only)
    | (simp only [hide_ite, ite_self, ite_fst, implies_true, eq_self, h_regs, h_fe, h_tb, h_sp, h_up, h_ch, h_gs, h_mem, h_fl, h_tel, h_st, h_rl, h_free, h_out, marginFound_hide])

theorem scrubLine_hide (h_regs : M .regs = true) (h_fe : M .fe = true) (h_tb : M .tb = true) (h_sp : M .sp = true) (h_up : M .up = true) (h_ch : M .ch = true) (h_gs : M .gs = true) (h_mem : M .mem = true) (h_fl : M .fl = true) (h_tel : M .tel = true) (h_st : M .st = true) (h_rl : M .rl = true) (h_free : M .free = true) (h_out : M .out = true) (s : State) (ch p tier bank line : Nat) (persists : Bool) : hide M (State.scrubLine s ch p tier bank line persists) = hide M s := by
  unfold State.scrubLine
  try dsimp only
  repeat' first
    | with_reducible rfl
    | (simp only [hide_ite, ite_self, ite_fst, implies_true, eq_self, h_regs, h_fe, h_tb, h_sp, h_up, h_ch, h_gs, h_mem, h_fl, h_tel, h_st, h_rl, h_free, h_out, count_hide, rebuild_hide, rowRepair_hide]; done)
    | with_reducible apply hide_if
    | with_reducible apply hide_if1
    | split
    | (rw [forEach_hide])
    | (rw [foldl_hide])
    | (rw [foldlS_hide])
    | (intro; intros; try dsimp only)
    | (simp only [hide_ite, ite_self, ite_fst, implies_true, eq_self, h_regs, h_fe, h_tb, h_sp, h_up, h_ch, h_gs, h_mem, h_fl, h_tel, h_st, h_rl, h_free, h_out, count_hide, rebuild_hide, rowRepair_hide])

theorem scrubTwin_hide (h_ch : M .ch = true) (h_gs : M .gs = true) (h_tel : M .tel = true) (s : State) (ch : Nat) (k : Key) (ver : Nat) : hide M (State.scrubTwin s ch k ver) = hide M s := by
  unfold State.scrubTwin
  try dsimp only
  repeat' first
    | with_reducible rfl
    | (simp only [hide_ite, ite_self, ite_fst, implies_true, eq_self, h_ch, h_gs, h_tel, countN_hide, count_hide, notePinned_hide, noteTwin_hide, readCopy_hide]; done)
    | with_reducible apply hide_if
    | with_reducible apply hide_if1
    | split
    | (rw [forEach_hide])
    | (rw [foldl_hide])
    | (rw [foldlS_hide])
    | (intro; intros; try dsimp only)
    | (simp only [hide_ite, ite_self, ite_fst, implies_true, eq_self, h_ch, h_gs, h_tel, countN_hide, count_hide, notePinned_hide, noteTwin_hide, readCopy_hide])

theorem scrubDir_hide (h_tb : M .tb = true) (h_tel : M .tel = true) (s : State) (h : Nat) (second : Bool) : hide M (State.scrubDir s h second) = hide M s := by
  unfold State.scrubDir
  try dsimp only
  repeat' first
    | with_reducible rfl
    | (simp only [hide_ite, ite_self, ite_fst, implies_true, eq_self, h_tb, h_tel, countN_hide, count_hide, setTable_hide]; done)
    | with_reducible apply hide_if
    | with_reducible apply hide_if1
    | split
    | (rw [forEach_hide])
    | (rw [foldl_hide])
    | (rw [foldlS_hide])
    | (intro; intros; try dsimp only)
    | (simp only [hide_ite, ite_self, ite_fst, implies_true, eq_self, h_tb, h_tel, countN_hide, count_hide, setTable_hide])

theorem scrubFound_hide (h_regs : M .regs = true) (h_fe : M .fe = true) (h_tb : M .tb = true) (h_sp : M .sp = true) (h_up : M .up = true) (h_ch : M .ch = true) (h_gs : M .gs = true) (h_mem : M .mem = true) (h_fl : M .fl = true) (h_tel : M .tel = true) (h_st : M .st = true) (h_rl : M .rl = true) (h_free : M .free = true) (h_out : M .out = true) (s : State) (ch p : Nat) (y0 : ScrubFind) : hide M (State.scrubFound s ch p y0) = hide M s := by
  unfold State.scrubFound
  try dsimp only
  repeat' first
    | with_reducible rfl
    | (simp only [hide_ite, ite_self, ite_fst, implies_true, eq_self, h_regs, h_fe, h_tb, h_sp, h_up, h_ch, h_gs, h_mem, h_fl, h_tel, h_st, h_rl, h_free, h_out, scrubDir_hide, scrubLine_hide, scrubTwin_hide]; done)
    | with_reducible apply hide_if
    | with_reducible apply hide_if1
    | split
    | (rw [forEach_hide])
    | (rw [foldl_hide])
    | (rw [foldlS_hide])
    | (intro; intros; try dsimp only)
    | (simp only [hide_ite, ite_self, ite_fst, implies_true, eq_self, h_regs, h_fe, h_tb, h_sp, h_up, h_ch, h_gs, h_mem, h_fl, h_tel, h_st, h_rl, h_free, h_out, scrubDir_hide, scrubLine_hide, scrubTwin_hide])

theorem scrub_hide (h_regs : M .regs = true) (h_fe : M .fe = true) (h_tb : M .tb = true) (h_sp : M .sp = true) (h_up : M .up = true) (h_ch : M .ch = true) (h_gs : M .gs = true) (h_mem : M .mem = true) (h_fl : M .fl = true) (h_tel : M .tel = true) (h_st : M .st = true) (h_rl : M .rl = true) (h_free : M .free = true) (h_out : M .out = true) (s : State) (ch p : Nat) (found : List ScrubFind) : hide M (State.scrub s ch p found) = hide M s := by
  unfold State.scrub
  try dsimp only
  repeat' first
    | with_reducible rfl
    | (simp only [hide_ite, ite_self, ite_fst, implies_true, eq_self, h_regs, h_fe, h_tb, h_sp, h_up, h_ch, h_gs, h_mem, h_fl, h_tel, h_st, h_rl, h_free, h_out, forEach_hide, addLoad_hide, count_hide, scrubFound_hide, tell_hide]; done)
    | with_reducible apply hide_if
    | with_reducible apply hide_if1
    | split
    | (rw [forEach_hide])
    | (rw [foldl_hide])
    | (rw [foldlS_hide])
    | (intro; intros; try dsimp only)
    | (simp only [hide_ite, ite_self, ite_fst, implies_true, eq_self, h_regs, h_fe, h_tb, h_sp, h_up, h_ch, h_gs, h_mem, h_fl, h_tel, h_st, h_rl, h_free, h_out, forEach_hide, addLoad_hide, count_hide, scrubFound_hide, tell_hide])

theorem execScrub_hide (h_regs : M .regs = true) (h_fe : M .fe = true) (h_tb : M .tb = true) (h_sp : M .sp = true) (h_up : M .up = true) (h_ch : M .ch = true) (h_gs : M .gs = true) (h_mem : M .mem = true) (h_fl : M .fl = true) (h_tel : M .tel = true) (h_st : M .st = true) (h_rl : M .rl = true) (h_free : M .free = true) (h_out : M .out = true) (ch : Nat) (found : List ScrubFind) (s : State) (t : State) (e : execScrub ch found s = .next t) : hide M t = hide M s := by
  simp only [execScrub, Host.Outcome.next.injEq] at e
  subst e
  repeat' first
    | with_reducible rfl
    | (simp only [hide_ite, ite_self, ite_fst, implies_true, eq_self, h_regs, h_fe, h_tb, h_sp, h_up, h_ch, h_gs, h_mem, h_fl, h_tel, h_st, h_rl, h_free, h_out, scrub_hide]; done)
    | with_reducible apply hide_if
    | with_reducible apply hide_if1
    | split
    | (rw [forEach_hide])
    | (rw [foldl_hide])
    | (rw [foldlS_hide])
    | (intro; intros; try dsimp only)
    | (simp only [hide_ite, ite_self, ite_fst, implies_true, eq_self, h_regs, h_fe, h_tb, h_sp, h_up, h_ch, h_gs, h_mem, h_fl, h_tel, h_st, h_rl, h_free, h_out, scrub_hide])

theorem raiseStep_hide (h_regs : M .regs = true) (h_fe : M .fe = true) (h_tb : M .tb = true) (h_sp : M .sp = true) (h_up : M .up = true) (h_ch : M .ch = true) (h_gs : M .gs = true) (h_mem : M .mem = true) (h_fl : M .fl = true) (h_tel : M .tel = true) (h_st : M .st = true) (h_rl : M .rl = true) (h_free : M .free = true) (h_out : M .out = true) (s : State) (p : Nat) : hide M (State.raiseStep s p) = hide M s := by
  unfold State.raiseStep
  try dsimp only
  repeat' first
    | with_reducible rfl
    | (simp only [hide_ite, ite_self, ite_fst, implies_true, eq_self, h_regs, h_fe, h_tb, h_sp, h_up, h_ch, h_gs, h_mem, h_fl, h_tel, h_st, h_rl, h_free, h_out, channelAction_hide, count_hide, onPhys_hide, tell_hide]; done)
    | with_reducible apply hide_if
    | with_reducible apply hide_if1
    | split
    | (rw [forEach_hide])
    | (rw [foldl_hide])
    | (rw [foldlS_hide])
    | (intro; intros; try dsimp only)
    | (simp only [hide_ite, ite_self, ite_fst, implies_true, eq_self, h_regs, h_fe, h_tb, h_sp, h_up, h_ch, h_gs, h_mem, h_fl, h_tel, h_st, h_rl, h_free, h_out, channelAction_hide, count_hide, onPhys_hide, tell_hide])

theorem execRetentionStep_hide (h_regs : M .regs = true) (h_fe : M .fe = true) (h_tb : M .tb = true) (h_sp : M .sp = true) (h_up : M .up = true) (h_ch : M .ch = true) (h_gs : M .gs = true) (h_mem : M .mem = true) (h_fl : M .fl = true) (h_tel : M .tel = true) (h_st : M .st = true) (h_rl : M .rl = true) (h_free : M .free = true) (h_out : M .out = true) (pch : Nat) (s : State) (t : State) (e : execRetentionStep pch s = .next t) : hide M t = hide M s := by
  simp only [execRetentionStep, Host.Outcome.next.injEq] at e
  subst e
  repeat' first
    | with_reducible rfl
    | (simp only [hide_ite, ite_self, ite_fst, implies_true, eq_self, h_regs, h_fe, h_tb, h_sp, h_up, h_ch, h_gs, h_mem, h_fl, h_tel, h_st, h_rl, h_free, h_out, logSensor_hide, raiseStep_hide]; done)
    | with_reducible apply hide_if
    | with_reducible apply hide_if1
    | split
    | (rw [forEach_hide])
    | (rw [foldl_hide])
    | (rw [foldlS_hide])
    | (intro; intros; try dsimp only)
    | (simp only [hide_ite, ite_self, ite_fst, implies_true, eq_self, h_regs, h_fe, h_tb, h_sp, h_up, h_ch, h_gs, h_mem, h_fl, h_tel, h_st, h_rl, h_free, h_out, logSensor_hide, raiseStep_hide])

theorem execRetentionStepEnd_hide (h_gs : M .gs = true) (pch : Nat) (s : State) (t : State) (e : execRetentionStepEnd pch s = .next t) : hide M t = hide M s := by
  refine next_hide e ?_
  simp only [hide_ite, ite_self, eq_self, h_gs, onPhys_hide]

theorem gsCommand_hide (h_regs : M .regs = true) (h_tel : M .tel = true) (h_st : M .st = true) (h_out : M .out = true) (s : State) (p : Path) (op ch : Nat) (run : State → State × Option Nat) (h_run : ∀ (x0 : State), hide M (run x0).1 = hide M x0) : hide M (State.gsCommand s p op ch run) = hide M s := by
  unfold State.gsCommand
  try dsimp only
  repeat' first
    | with_reducible rfl
    | (simp only [hide_ite, ite_self, ite_fst, implies_true, eq_self, h_regs, h_tel, h_st, h_out, h_run, command_hide, denyWrite_hide, finish_hide, put_gsCmd_hide]; done)
    | with_reducible apply hide_if
    | with_reducible apply hide_if1
    | split
    | (rw [forEach_hide])
    | (rw [foldl_hide])
    | (rw [foldlS_hide])
    | (rw [command_hide])
    | (rw [finish_hide])
    | assumption
    | (intro; intros; try dsimp only)
    | (simp only [hide_ite, ite_self, ite_fst, implies_true, eq_self, h_regs, h_tel, h_st, h_out, h_run, command_hide, denyWrite_hide, finish_hide, put_gsCmd_hide])

theorem execReplace_hide (h_regs : M .regs = true) (h_tb : M .tb = true) (h_up : M .up = true) (h_ch : M .ch = true) (h_gs : M .gs = true) (h_mem : M .mem = true) (h_fl : M .fl = true) (h_tel : M .tel = true) (h_st : M .st = true) (h_rl : M .rl = true) (h_free : M .free = true) (h_out : M .out = true) (p : Path) (lch : Nat) (readable : Bool) (s : State) (t : State) (e : execReplace p lch readable s = .next t) : hide M t = hide M s := by
  simp only [execReplace, Host.Outcome.next.injEq] at e
  subst e
  repeat' first
    | with_reducible rfl
    | (simp only [hide_ite, ite_self, ite_fst, implies_true, eq_self, h_regs, h_tb, h_up, h_ch, h_gs, h_mem, h_fl, h_tel, h_st, h_rl, h_free, h_out, gsCommand_hide, replaceCh_hide]; done)
    | with_reducible apply hide_if
    | with_reducible apply hide_if1
    | split
    | (rw [forEach_hide])
    | (rw [foldl_hide])
    | (rw [foldlS_hide])
    | (rw [gsCommand_hide])
    | assumption
    | (intro; intros; try dsimp only)
    | (simp only [hide_ite, ite_self, ite_fst, implies_true, eq_self, h_regs, h_tb, h_up, h_ch, h_gs, h_mem, h_fl, h_tel, h_st, h_rl, h_free, h_out, gsCommand_hide, replaceCh_hide])

theorem execFold_hide (h_regs : M .regs = true) (h_tb : M .tb = true) (h_up : M .up = true) (h_ch : M .ch = true) (h_gs : M .gs = true) (h_fl : M .fl = true) (h_tel : M .tel = true) (h_st : M .st = true) (h_out : M .out = true) (p : Path) (lch : Nat) (readable : Bool) (fails : WbFails) (s : State) (t : State) (e : execFold p lch readable fails s = .next t) : hide M t = hide M s := by
  simp only [execFold, Host.Outcome.next.injEq] at e
  subst e
  repeat' first
    | with_reducible rfl
    | (simp only [hide_ite, ite_self, ite_fst, implies_true, eq_self, h_regs, h_tb, h_up, h_ch, h_gs, h_fl, h_tel, h_st, h_out, foldCh_hide, gsCommand_hide]; done)
    | with_reducible apply hide_if
    | with_reducible apply hide_if1
    | split
    | (rw [forEach_hide])
    | (rw [foldl_hide])
    | (rw [foldlS_hide])
    | (rw [gsCommand_hide])
    | assumption
    | (intro; intros; try dsimp only)
    | (simp only [hide_ite, ite_self, ite_fst, implies_true, eq_self, h_regs, h_tb, h_up, h_ch, h_gs, h_fl, h_tel, h_st, h_out, foldCh_hide, gsCommand_hide])

theorem execUnfold_hide (h_regs : M .regs = true) (h_gs : M .gs = true) (h_tel : M .tel = true) (h_st : M .st = true) (h_out : M .out = true) (p : Path) (lch : Nat) (s : State) (t : State) (e : execUnfold p lch s = .next t) : hide M t = hide M s := by
  simp only [execUnfold, Host.Outcome.next.injEq] at e
  subst e
  repeat' first
    | with_reducible rfl
    | (simp only [hide_ite, ite_self, ite_fst, implies_true, eq_self, h_regs, h_gs, h_tel, h_st, h_out, gsCommand_hide, unfoldCh_hide]; done)
    | with_reducible apply hide_if
    | with_reducible apply hide_if1
    | split
    | (rw [forEach_hide])
    | (rw [foldl_hide])
    | (rw [foldlS_hide])
    | (rw [gsCommand_hide])
    | assumption
    | (intro; intros; try dsimp only)
    | (simp only [hide_ite, ite_self, ite_fst, implies_true, eq_self, h_regs, h_gs, h_tel, h_st, h_out, gsCommand_hide, unfoldCh_hide])

theorem idlePhys_hide (s : State) (pch : Nat) (act : State × Option Nat) (h_act : hide M act.1 = hide M s) : hide M (State.idlePhys s pch act).1 = hide M s := by
  unfold State.idlePhys
  simp only [hide_ite, ite_self, ite_fst, eq_self, h_act]

theorem execRetrain_hide (h_regs : M .regs = true) (h_gs : M .gs = true) (h_tel : M .tel = true) (h_st : M .st = true) (h_out : M .out = true) (p : Path) (pch : Nat) (res : Option TgRes) (s : State) (t : State) (e : execRetrain p pch res s = .next t) : hide M t = hide M s := by
  simp only [execRetrain, Host.Outcome.next.injEq] at e
  subst e
  repeat' first
    | with_reducible rfl
    | (simp only [hide_ite, ite_self, ite_fst, implies_true, eq_self, h_regs, h_gs, h_tel, h_st, h_out, gsCommand_hide, idlePhys_hide, onPhys_hide, tellTested_hide]; done)
    | with_reducible apply hide_if
    | with_reducible apply hide_if1
    | split
    | (rw [forEach_hide])
    | (rw [foldl_hide])
    | (rw [foldlS_hide])
    | (rw [gsCommand_hide])
    | assumption
    | (intro; intros; try dsimp only)
    | (simp only [hide_ite, ite_self, ite_fst, implies_true, eq_self, h_regs, h_gs, h_tel, h_st, h_out, gsCommand_hide, idlePhys_hide, onPhys_hide, tellTested_hide])

theorem testCh_hide (h_gs : M .gs = true) (h_tel : M .tel = true) (s : State) (cfg : Word64) (pch : Nat) (r : TgRes) : hide M (State.testCh s cfg pch r) = hide M s := by
  unfold State.testCh
  try dsimp only
  repeat' first
    | with_reducible rfl
    | (simp only [hide_ite, ite_self, ite_fst, implies_true, eq_self, h_gs, h_tel, count_hide, onPhys_hide, tell_hide]; done)
    | with_reducible apply hide_if
    | with_reducible apply hide_if1
    | split
    | (rw [forEach_hide])
    | (rw [foldl_hide])
    | (rw [foldlS_hide])
    | (intro; intros; try dsimp only)
    | (simp only [hide_ite, ite_self, ite_fst, implies_true, eq_self, h_gs, h_tel, count_hide, onPhys_hide, tell_hide])

theorem execTest_hide (h_regs : M .regs = true) (h_gs : M .gs = true) (h_tel : M .tel = true) (h_st : M .st = true) (h_out : M .out = true) (p : Path) (pch errors tier bank line : Nat) (s : State) (t : State) (e : execTest p pch errors tier bank line s = .next t) : hide M t = hide M s := by
  simp only [execTest, Host.Outcome.next.injEq] at e
  subst e
  repeat' first
    | with_reducible rfl
    | (simp only [hide_ite, ite_self, ite_fst, implies_true, eq_self, h_regs, h_gs, h_tel, h_st, h_out, gsCommand_hide, idlePhys_hide, testCh_hide]; done)
    | with_reducible apply hide_if
    | with_reducible apply hide_if1
    | split
    | (rw [forEach_hide])
    | (rw [foldl_hide])
    | (rw [foldlS_hide])
    | (rw [gsCommand_hide])
    | assumption
    | (intro; intros; try dsimp only)
    | (simp only [hide_ite, ite_self, ite_fst, implies_true, eq_self, h_regs, h_gs, h_tel, h_st, h_out, gsCommand_hide, idlePhys_hide, testCh_hide])

theorem execRetire_hide (h_regs : M .regs = true) (h_gs : M .gs = true) (h_tel : M .tel = true) (h_st : M .st = true) (h_out : M .out = true) (p : Path) (pch : Nat) (s : State) (t : State) (e : execRetire p pch s = .next t) : hide M t = hide M s := by
  simp only [execRetire, Host.Outcome.next.injEq] at e
  subst e
  repeat' first
    | with_reducible rfl
    | (simp only [hide_ite, ite_self, ite_fst, implies_true, eq_self, h_regs, h_gs, h_tel, h_st, h_out, gsCommand_hide, idlePhys_hide, onPhys_hide]; done)
    | with_reducible apply hide_if
    | with_reducible apply hide_if1
    | split
    | (rw [forEach_hide])
    | (rw [foldl_hide])
    | (rw [foldlS_hide])
    | (rw [gsCommand_hide])
    | assumption
    | (intro; intros; try dsimp only)
    | (simp only [hide_ite, ite_self, ite_fst, implies_true, eq_self, h_regs, h_gs, h_tel, h_st, h_out, gsCommand_hide, idlePhys_hide, onPhys_hide])

end Sys2Proof.Laws
end

