-- ==== Sys2Proof/Laws/CanonChannels.lean ====
section
/-!
SUPPORT. What Machine/Channels.lean defines keeps Ground store's bytes in canonical form.
-/

namespace Sys2Proof.Laws

open Sys2Proof.Machine

theorem moveMaster_canon (s : State) (w : Way) (t : Table) (hs : Canon (hide butMem s)) : Canon (hide butMem (State.moveMaster s w t)) := by
  unfold State.moveMaster
  try dsimp only
  repeat' first
    | with_reducible assumption
    | split
    | (with_reducible apply placeCopy_canon)
    | with_reducible apply forEach_canon
    | with_reducible apply foldl_canon
    | (intro; intros; try dsimp only)
    | (simp only [dropOrLose_hide (M := butMem) rfl rfl rfl rfl rfl rfl rfl, dropWays_hide (M := butMem) rfl rfl rfl, onWays_hide (M := butMem) rfl, readCopy_hide (M := butMem) rfl rfl rfl, implies_true, eq_self])

theorem rehouse_canon (s : State) (all : Bool) (w : Way) (hs : Canon (hide butMem s)) : Canon (hide butMem (State.rehouse s all w)) := by
  unfold State.rehouse
  try dsimp only
  repeat' first
    | with_reducible assumption
    | split
    | (with_reducible apply moveMaster_canon)
    | with_reducible apply forEach_canon
    | with_reducible apply foldl_canon
    | (intro; intros; try dsimp only)
    | (simp only [dropOrLose_hide (M := butMem) rfl rfl rfl rfl rfl rfl rfl, dropReplicas_hide (M := butMem) rfl rfl rfl, dropWay_hide (M := butMem) rfl, implies_true, eq_self])

theorem rehouseAll_canon (s : State) (all : Bool) (hs : Canon (hide butMem s)) : Canon (hide butMem (State.rehouseAll s all)) := by
  unfold State.rehouseAll
  try dsimp only
  repeat' first
    | with_reducible assumption
    | split
    | (with_reducible apply rehouse_canon)
    | with_reducible apply forEach_canon
    | with_reducible apply foldl_canon
    | (intro; intros; try dsimp only)
    | (simp only [settleTwins_hide (M := butMem) rfl, forEach_hide, implies_true, eq_self])

theorem masterFromTwin_canon (s : State) (w : Way) (stay : Bool) (hs : Canon (hide butMem s)) : Canon (hide butMem (State.masterFromTwin s w stay)) := by
  unfold State.masterFromTwin
  try dsimp only
  repeat' first
    | with_reducible assumption
    | split
    | (with_reducible apply moveMaster_canon)
    | with_reducible apply forEach_canon
    | with_reducible apply foldl_canon
    | (intro; intros; try dsimp only)
    | (simp only [count_hide (M := butMem) rfl, dropWay_hide (M := butMem) rfl, implies_true, eq_self])

theorem wayGone_canon (s : State) (hit : Nat → Nat → Bool) (spared : Bool) (w : Way) (hs : Canon (hide butMem s)) : Canon (hide butMem (State.wayGone s hit spared w)) := by
  unfold State.wayGone
  try dsimp only
  repeat' first
    | with_reducible assumption
    | split
    | (with_reducible apply masterFromTwin_canon)
    | with_reducible apply forEach_canon
    | with_reducible apply foldl_canon
    | (intro; intros; try dsimp only)
    | (simp only [count_hide (M := butMem) rfl, dropReplicas_hide (M := butMem) rfl rfl rfl, dropRow_hide (M := butMem) rfl rfl rfl rfl rfl, dropWay_hide (M := butMem) rfl, markHead_hide (M := butMem) rfl rfl rfl, implies_true, eq_self])

theorem rebuild_canon (s : State) (ch : Nat) (hit : Nat → Nat → Bool) (spared : Bool) (hs : Canon (hide butMem s)) : Canon (hide butMem (State.rebuild s ch hit spared)) := by
  unfold State.rebuild
  try dsimp only
  repeat' first
    | with_reducible assumption
    | split
    | (with_reducible apply wayGone_canon)
    | with_reducible apply forEach_canon
    | with_reducible apply foldl_canon
    | (intro; intros; try dsimp only)
    | (simp only [pinGone_hide (M := butMem) rfl rfl rfl, forEach_hide, implies_true, eq_self])

theorem bankRepairOn_canon (s : State) (lch p tier bank : Nat) (copied : Bool) (hs : Canon (hide butMem s)) : Canon (hide butMem (State.bankRepairOn s lch p tier bank copied).1) := by
  unfold State.bankRepairOn
  try dsimp only
  repeat' first
    | with_reducible assumption
    | split
    | (with_reducible apply rebuild_canon)
    | with_reducible apply forEach_canon
    | with_reducible apply foldl_canon
    | (intro; intros; try dsimp only)
    | (simp only [addLoad_hide (M := butMem) rfl, auditSpare_hide (M := butMem) rfl rfl, count_hide (M := butMem) rfl, spareLow_hide (M := butMem) rfl, tell_hide (M := butMem) rfl, onGs_hide (M := butMem) rfl, implies_true, eq_self])

theorem switchFold_canon (s : State) (c : ChCopy) (old : Nat) (waits : List WcEntry) (hs : Canon (hide butMem s)) : Canon (hide butMem (State.switchFold s c old waits)) := by
  unfold State.switchFold
  try dsimp only
  repeat' first
    | with_reducible assumption
    | split
    | (with_reducible apply rehouseAll_canon)
    | with_reducible apply forEach_canon
    | with_reducible apply foldl_canon
    | (intro; intros; try dsimp only)
    | (simp only [count_hide (M := butMem) rfl, foldReduces_hide (M := butMem) rfl rfl, gsDone_hide (M := butMem) rfl, onPhys_hide (M := butMem) rfl, replay_hide (M := butMem) rfl rfl, tell_hide (M := butMem) rfl, onGs_hide (M := butMem) rfl, implies_true, eq_self])

theorem switchUnfold_canon (s : State) (c : ChCopy) (old : Nat) (waits : List WcEntry) (hs : Canon (hide butMem s)) : Canon (hide butMem (State.switchUnfold s c old waits)) := by
  unfold State.switchUnfold
  try dsimp only
  repeat' first
    | with_reducible assumption
    | split
    | (with_reducible apply rehouseAll_canon)
    | with_reducible apply forEach_canon
    | with_reducible apply foldl_canon
    | (intro; intros; try dsimp only)
    | (simp only [enterService_hide (M := butMem) rfl rfl rfl, gsDone_hide (M := butMem) rfl, joinGroup_hide (M := butMem) rfl, replay_hide (M := butMem) rfl rfl, unfoldRestores_hide (M := butMem) rfl, onGs_hide (M := butMem) rfl, implies_true, eq_self])

theorem switchCh_canon (s : State) (c0 : ChCopy) (pass : Option (Option TgRes)) (hs : Canon (hide butMem s)) : Canon (hide butMem (State.switchCh s c0 pass)) := by
  unfold State.switchCh
  try dsimp only
  repeat' first
    | with_reducible assumption
    | split
    | (with_reducible apply rebuild_canon)
    | (with_reducible apply switchFold_canon)
    | (with_reducible apply switchUnfold_canon)
    | with_reducible apply forEach_canon
    | with_reducible apply foldl_canon
    | (intro; intros; try dsimp only)
    | (simp only [copyRest_hide (M := butMem) rfl rfl rfl, endCopy_hide (M := butMem) rfl, hold_hide (M := butMem) rfl rfl rfl, refreshDue_hide (M := butMem) rfl rfl rfl, replay_hide (M := butMem) rfl rfl, switchReplace_hide (M := butMem) rfl rfl rfl rfl, implies_true, eq_self])

theorem execChannelSwitch_canon (lch : Nat) (res : Option TgRes) (s : State) (t : State) (e : execChannelSwitch lch res s = .next t) (hs : Canon (hide butMem s)) : Canon (hide butMem t) := by
  refine next_canon e ?_
  repeat' first
    | with_reducible assumption
    | split
    | (with_reducible apply switchCh_canon)
    | with_reducible apply forEach_canon
    | with_reducible apply foldl_canon
    | (intro; intros; try dsimp only)
    | (simp only [retestOld_hide (M := butMem) rfl rfl, implies_true, eq_self])

theorem replaceCh_canon (s : State) (f : Nat) (readable : Bool) (hs : Canon (hide butMem s)) : Canon (hide butMem (State.replaceCh s f readable).1) := by
  unfold State.replaceCh
  try dsimp only
  repeat' first
    | with_reducible assumption
    | split
    | (with_reducible apply switchCh_canon)
    | with_reducible apply forEach_canon
    | with_reducible apply foldl_canon
    | (intro; intros; try dsimp only)
    | (simp only [startCopy_hide (M := butMem) rfl, implies_true, eq_self])

theorem autoAction_canon (s : State) (f : Nat) (readable : Bool) (hs : Canon (hide butMem s)) : Canon (hide butMem (State.autoAction s f readable)) := by
  unfold State.autoAction
  try dsimp only
  repeat' first
    | with_reducible assumption
    | split
    | (with_reducible apply replaceCh_canon)
    | with_reducible apply forEach_canon
    | with_reducible apply foldl_canon
    | (intro; intros; try dsimp only)
    | (simp only [foldCh_hide (M := butMem) rfl rfl rfl rfl rfl rfl rfl, loseChannel_hide (M := butMem) rfl rfl rfl rfl rfl rfl rfl rfl rfl rfl, implies_true, eq_self])

theorem channelAction_canon (s : State) (f : Nat) (readable : Bool) (hs : Canon (hide butMem s)) : Canon (hide butMem (State.channelAction s f readable)) := by
  unfold State.channelAction
  try dsimp only
  repeat' first
    | with_reducible assumption
    | split
    | (with_reducible apply autoAction_canon)
    | with_reducible apply forEach_canon
    | with_reducible apply foldl_canon
    | (intro; intros; try dsimp only)
    | (simp only [tell_hide (M := butMem) rfl, onGs_hide (M := butMem) rfl, implies_true, eq_self])

theorem runDue_canon (s : State) (hs : Canon (hide butMem s)) : Canon (hide butMem (State.runDue s)) := by
  unfold State.runDue
  try dsimp only
  repeat' first
    | with_reducible assumption
    | split
    | (with_reducible apply channelAction_canon)
    | (with_reducible apply switchCh_canon)
    | with_reducible apply forEach_canon
    | with_reducible apply foldl_canon
    | (intro; intros; try dsimp only)
    | (simp only [onGs_hide (M := butMem) rfl, forEach_hide, implies_true, eq_self])

theorem channelFails_canon (s : State) (f : Nat) (hs : Canon (hide butMem s)) : Canon (hide butMem (State.channelFails s f)) := by
  unfold State.channelFails
  try dsimp only
  repeat' first
    | with_reducible assumption
    | split
    | (with_reducible apply channelAction_canon)
    | (with_reducible apply switchCh_canon)
    | with_reducible apply forEach_canon
    | with_reducible apply foldl_canon
    | (intro; intros; try dsimp only)
    | (simp only [onGs_hide (M := butMem) rfl, implies_true, eq_self])

theorem spareFails_canon (s : State) (f : Nat) (hs : Canon (hide butMem s)) : Canon (hide butMem (State.spareFails s f)) := by
  unfold State.spareFails
  try dsimp only
  repeat' first
    | with_reducible assumption
    | split
    | (with_reducible apply channelAction_canon)
    | with_reducible apply forEach_canon
    | with_reducible apply foldl_canon
    | (intro; intros; try dsimp only)
    | (simp only [endCopy_hide (M := butMem) rfl, gsEnd_hide (M := butMem) rfl, onPhys_hide (M := butMem) rfl, onGs_hide (M := butMem) rfl, implies_true, eq_self])

theorem bankRepair_canon (s : State) (lch p tier bank : Nat) (copied : Bool) (hs : Canon (hide butMem s)) : Canon (hide butMem (State.bankRepair s lch p tier bank copied)) := by
  unfold State.bankRepair
  try dsimp only
  repeat' first
    | with_reducible assumption
    | split
    | (with_reducible apply bankRepairOn_canon)
    | (with_reducible apply channelAction_canon)
    | with_reducible apply forEach_canon
    | with_reducible apply foldl_canon
    | (intro; intros; try dsimp only)
    | (simp only [implies_true, eq_self])

theorem execBankRepair_canon (ch tier : Nat) (bank : BankAim) (s : State) (t : State) (e : execBankRepair ch tier bank s = .next t) (hs : Canon (hide butMem s)) : Canon (hide butMem t) := by
  refine next_canon e ?_
  repeat' first
    | with_reducible assumption
    | split
    | (with_reducible apply bankRepair_canon)
    | with_reducible apply forEach_canon
    | with_reducible apply foldl_canon
    | (intro; intros; try dsimp only)
    | (simp only [implies_true, eq_self])

theorem rowRepair_canon (s : State) (lch p tier bank row : Nat) (hs : Canon (hide butMem s)) : Canon (hide butMem (State.rowRepair s lch p tier bank row)) := by
  unfold State.rowRepair
  try dsimp only
  repeat' first
    | with_reducible assumption
    | split
    | (with_reducible apply bankRepair_canon)
    | with_reducible apply forEach_canon
    | with_reducible apply foldl_canon
    | (intro; intros; try dsimp only)
    | (simp only [addLoad_hide (M := butMem) rfl, auditSpare_hide (M := butMem) rfl rfl, count_hide (M := butMem) rfl, spareLow_hide (M := butMem) rfl, tell_hide (M := butMem) rfl, onGs_hide (M := butMem) rfl, implies_true, eq_self])

theorem execRowRepair_canon (ch tier bank row : Nat) (s : State) (t : State) (e : execRowRepair ch tier bank row s = .next t) (hs : Canon (hide butMem s)) : Canon (hide butMem t) := by
  refine next_canon e ?_
  repeat' first
    | with_reducible assumption
    | split
    | (with_reducible apply rowRepair_canon)
    | with_reducible apply forEach_canon
    | with_reducible apply foldl_canon
    | (intro; intros; try dsimp only)
    | (simp only [implies_true, eq_self])

theorem bankStuck_canon (s : State) (ch p tier bank : Nat) (hs : Canon (hide butMem s)) : Canon (hide butMem (State.bankStuck s ch p tier bank)) := by
  unfold State.bankStuck
  try dsimp only
  repeat' first
    | with_reducible assumption
    | split
    | (with_reducible apply bankRepairOn_canon)
    | (with_reducible apply channelAction_canon)
    | (with_reducible apply rebuild_canon)
    | with_reducible apply forEach_canon
    | with_reducible apply foldl_canon
    | (intro; intros; try dsimp only)
    | (simp only [count_hide (M := butMem) rfl, markLost_hide (M := butMem) rfl rfl, tell_hide (M := butMem) rfl, implies_true, eq_self])

theorem execBankStuck_canon (ch tier bank : Nat) (s : State) (t : State) (e : execBankStuck ch tier bank s = .next t) (hs : Canon (hide butMem s)) : Canon (hide butMem t) := by
  refine next_canon e ?_
  repeat' first
    | with_reducible assumption
    | split
    | (with_reducible apply bankStuck_canon)
    | with_reducible apply forEach_canon
    | with_reducible apply foldl_canon
    | (intro; intros; try dsimp only)
    | (simp only [implies_true, eq_self])

theorem marginFound_canon (s : State) (lch : Nat) (y0 : ChanFinding) (hs : Canon (hide butMem s)) : Canon (hide butMem (State.marginFound s lch y0)) := by
  unfold State.marginFound
  try dsimp only
  repeat' first
    | with_reducible assumption
    | split
    | (with_reducible apply channelAction_canon)
    | (with_reducible apply channelFails_canon)
    | (with_reducible apply spareFails_canon)
    | with_reducible apply forEach_canon
    | with_reducible apply foldl_canon
    | (intro; intros; try dsimp only)
    | (simp only [implies_true, eq_self])

theorem execMarginCheck_canon (lch : Nat) (found : ChanFinding) (s : State) (t : State) (e : execMarginCheck lch found s = .next t) (hs : Canon (hide butMem s)) : Canon (hide butMem t) := by
  refine next_canon e ?_
  repeat' first
    | with_reducible assumption
    | split
    | (with_reducible apply marginFound_canon)
    | with_reducible apply forEach_canon
    | with_reducible apply foldl_canon
    | (intro; intros; try dsimp only)
    | (simp only [implies_true, eq_self])

theorem scrubLine_canon (s : State) (ch p tier bank line : Nat) (persists : Bool) (hs : Canon (hide butMem s)) : Canon (hide butMem (State.scrubLine s ch p tier bank line persists)) := by
  unfold State.scrubLine
  try dsimp only
  repeat' first
    | with_reducible assumption
    | split
    | (with_reducible apply rebuild_canon)
    | (with_reducible apply rowRepair_canon)
    | with_reducible apply forEach_canon
    | with_reducible apply foldl_canon
    | (intro; intros; try dsimp only)
    | (simp only [count_hide (M := butMem) rfl, implies_true, eq_self])

theorem scrubFound_canon (s : State) (ch p : Nat) (y0 : ScrubFind) (hs : Canon (hide butMem s)) : Canon (hide butMem (State.scrubFound s ch p y0)) := by
  unfold State.scrubFound
  try dsimp only
  repeat' first
    | with_reducible assumption
    | split
    | (with_reducible apply scrubLine_canon)
    | with_reducible apply forEach_canon
    | with_reducible apply foldl_canon
    | (intro; intros; try dsimp only)
    | (simp only [scrubDir_hide (M := butMem) rfl rfl, scrubTwin_hide (M := butMem) rfl rfl rfl, implies_true, eq_self])

theorem scrub_canon (s : State) (ch p : Nat) (found : List ScrubFind) (hs : Canon (hide butMem s)) : Canon (hide butMem (State.scrub s ch p found)) := by
  unfold State.scrub
  try dsimp only
  repeat' first
    | with_reducible assumption
    | split
    | (with_reducible apply scrubFound_canon)
    | with_reducible apply forEach_canon
    | with_reducible apply foldl_canon
    | (intro; intros; try dsimp only)
    | (simp only [addLoad_hide (M := butMem) rfl, count_hide (M := butMem) rfl, tell_hide (M := butMem) rfl, forEach_hide, implies_true, eq_self])

theorem execScrub_canon (ch : Nat) (found : List ScrubFind) (s : State) (t : State) (e : execScrub ch found s = .next t) (hs : Canon (hide butMem s)) : Canon (hide butMem t) := by
  refine next_canon e ?_
  repeat' first
    | with_reducible assumption
    | split
    | (with_reducible apply scrub_canon)
    | with_reducible apply forEach_canon
    | with_reducible apply foldl_canon
    | (intro; intros; try dsimp only)
    | (simp only [implies_true, eq_self])

theorem raiseStep_canon (s : State) (p : Nat) (hs : Canon (hide butMem s)) : Canon (hide butMem (State.raiseStep s p)) := by
  unfold State.raiseStep
  try dsimp only
  repeat' first
    | with_reducible assumption
    | split
    | (with_reducible apply channelAction_canon)
    | with_reducible apply forEach_canon
    | with_reducible apply foldl_canon
    | (intro; intros; try dsimp only)
    | (simp only [count_hide (M := butMem) rfl, onPhys_hide (M := butMem) rfl, tell_hide (M := butMem) rfl, implies_true, eq_self])

theorem execRetentionStep_canon (pch : Nat) (s : State) (t : State) (e : execRetentionStep pch s = .next t) (hs : Canon (hide butMem s)) : Canon (hide butMem t) := by
  refine next_canon e ?_
  repeat' first
    | with_reducible assumption
    | split
    | (with_reducible apply raiseStep_canon)
    | with_reducible apply forEach_canon
    | with_reducible apply foldl_canon
    | (intro; intros; try dsimp only)
    | (simp only [logSensor_hide (M := butMem) rfl, implies_true, eq_self])

theorem gsCommand_canon (s : State) (p : Path) (op ch : Nat) (run : State → State × Option Nat) (h_run : ∀ (x0 : State), Canon (hide butMem x0) → Canon (hide butMem (run x0).1)) (hs : Canon (hide butMem s)) : Canon (hide butMem (State.gsCommand s p op ch run)) := by
  unfold State.gsCommand
  try dsimp only
  repeat' first
    | with_reducible assumption
    | split
    | (with_reducible apply command_canon)
    | (with_reducible apply h_run)
    | with_reducible apply forEach_canon
    | with_reducible apply foldl_canon
    | (intro; intros; try dsimp only)
    | (simp only [denyWrite_hide (M := butMem) rfl rfl, finish_hide (M := butMem), put_gsCmd_hide (M := butMem) rfl, implies_true, eq_self])

theorem execReplace_canon (p : Path) (lch : Nat) (readable : Bool) (s : State) (t : State) (e : execReplace p lch readable s = .next t) (hs : Canon (hide butMem s)) : Canon (hide butMem t) := by
  refine next_canon e ?_
  repeat' first
    | with_reducible assumption
    | split
    | (with_reducible apply gsCommand_canon)
    | (with_reducible apply replaceCh_canon)
    | with_reducible apply forEach_canon
    | with_reducible apply foldl_canon
    | (intro; intros; try dsimp only)
    | (simp only [implies_true, eq_self])

end Sys2Proof.Laws
end

