-- ==== Sys2Proof/Laws/FrameRounds.lean ====
section
/-!
SUPPORT. Frames of what Machine/Rounds.lean defines: the parts of the state that each may change.
-/

namespace Sys2Proof.Laws

open Sys2Proof.Machine

variable {M : Mask}

theorem onPwin_hide (h_sp : M .sp = true) (s : State) (wid : Nat) (f : PWin → PWin) : hide M (State.onPwin s wid f) = hide M s := by
  unfold State.onPwin
  simp only [eq_self, h_sp, onSp_hide]

theorem onPooled_hide (h_sp : M .sp = true) (s : State) (wid id : Nat) (f : Pooled → Pooled) : hide M (State.onPooled s wid id f) = hide M s := by
  unfold State.onPooled
  simp only [eq_self, h_sp, onPwin_hide]

theorem readRows_hide (h_fl : M .fl = true) (h_tel : M .tel = true) (s : State) (wid : Nat) (rows : List (Key × Nat)) : hide M (State.readRows s wid rows) = hide M s := by
  unfold State.readRows
  try dsimp only
  repeat' first
    | with_reducible rfl
    | (simp only [hide_ite, ite_self, ite_fst, implies_true, eq_self, h_fl, h_tel, forEach_hide, countN_hide, queueCmd_hide]; done)
    | with_reducible apply hide_if
    | with_reducible apply hide_if1
    | split
    | (rw [forEach_hide])
    | (rw [foldl_hide])
    | (rw [foldlS_hide])
    | (intro; intros; try dsimp only)
    | (simp only [hide_ite, ite_self, ite_fst, implies_true, eq_self, h_fl, h_tel, forEach_hide, countN_hide, queueCmd_hide])

theorem askTier2_hide (h_fl : M .fl = true) (h_tel : M .tel = true) (s : State) (w : PWin) : hide M (State.askTier2 s w) = hide M s := by
  unfold State.askTier2
  try dsimp only
  repeat' first
    | with_reducible rfl
    | (simp only [hide_ite, ite_self, ite_fst, implies_true, eq_self, h_fl, h_tel, readRows_hide]; done)
    | with_reducible apply hide_if
    | with_reducible apply hide_if1
    | split
    | (rw [forEach_hide])
    | (rw [foldl_hide])
    | (rw [foldlS_hide])
    | (intro; intros; try dsimp only)
    | (simp only [hide_ite, ite_self, ite_fst, implies_true, eq_self, h_fl, h_tel, readRows_hide])

theorem softStart_hide (h_tel : M .tel = true) (s : State) (wid : Nat) (poss : List Nat) (n : Nat) : hide M (State.softStart s wid poss n) = hide M s := by
  unfold State.softStart
  try dsimp only
  repeat' first
    | with_reducible rfl
    | (simp only [hide_ite, ite_self, ite_fst, implies_true, eq_self, h_tel, countN_hide]; done)
    | with_reducible apply hide_if
    | with_reducible apply hide_if1
    | split
    | (rw [forEach_hide])
    | (rw [foldl_hide])
    | (rw [foldlS_hide])
    | (intro; intros; try dsimp only)
    | (simp only [hide_ite, ite_self, ite_fst, implies_true, eq_self, h_tel, countN_hide])

theorem readLanding_hide (h_gs : M .gs = true) (h_tel : M .tel = true) (s : State) (k : Key) (ver : Nat) : hide M (State.readLanding s k ver) = hide M s := by
  unfold State.readLanding
  try dsimp only
  repeat' first
    | with_reducible rfl
    | (simp only [hide_ite, ite_self, ite_fst, implies_true, eq_self, h_gs, h_tel, forEach_hide, noteLand_hide]; done)
    | with_reducible apply hide_if
    | with_reducible apply hide_if1
    | split
    | (rw [forEach_hide])
    | (rw [foldl_hide])
    | (rw [foldlS_hide])
    | (intro; intros; try dsimp only)
    | (simp only [hide_ite, ite_self, ite_fst, implies_true, eq_self, h_gs, h_tel, forEach_hide, noteLand_hide])

theorem rowFails_hide (h_sp : M .sp = true) (s : State) (wid : Nat) (k : Key) (ver : Nat) (st : BitVec 8) : hide M (State.rowFails s wid k ver st) = hide M s := by
  unfold State.rowFails
  simp only [eq_self, h_sp, onPwin_hide]

theorem noteReplica_hide (h_tel : M .tel = true) (s : State) (w : Way) : hide M (State.noteReplica s w) = hide M s := by
  unfold State.noteReplica
  simp only [eq_self, h_tel, countN_hide]

theorem noteFetch_hide (h_sp : M .sp = true) (h_ch : M .ch = true) (h_gs : M .gs = true) (h_tel : M .tel = true) (s : State) (k : Key) (ver : Nat) : hide M (State.noteFetch s k ver) = hide M s := by
  unfold State.noteFetch
  try dsimp only
  repeat' first
    | with_reducible rfl
    | (simp only [hide_ite, ite_self, ite_fst, implies_true, eq_self, h_sp, h_ch, h_gs, h_tel, bump_hide, count_hide, onSp_hide]; done)
    | with_reducible apply hide_if
    | with_reducible apply hide_if1
    | split
    | (rw [forEach_hide])
    | (rw [foldl_hide])
    | (rw [foldlS_hide])
    | (intro; intros; try dsimp only)
    | (simp only [hide_ite, ite_self, ite_fst, implies_true, eq_self, h_sp, h_ch, h_gs, h_tel, bump_hide, count_hide, onSp_hide])

theorem issue_hide (h_sp : M .sp = true) (h_ch : M .ch = true) (h_gs : M .gs = true) (h_tel : M .tel = true) (h_out : M .out = true) (s : State) (w : PWin) (a : Ask) : hide M (State.issue s w a) = hide M s := by
  unfold State.issue
  try dsimp only
  repeat' first
    | with_reducible rfl
    | (simp only [hide_ite, ite_self, ite_fst, implies_true, eq_self, h_sp, h_ch, h_gs, h_tel, h_out, countN_hide, noteFetch_hide, notePinned_hide, noteReplica_hide, onPwin_hide, onWays_hide, readCopy_hide, readLanding_hide, send_hide, touchHead_hide]; done)
    | with_reducible apply hide_if
    | with_reducible apply hide_if1
    | split
    | (rw [forEach_hide])
    | (rw [foldl_hide])
    | (rw [foldlS_hide])
    | (intro; intros; try dsimp only)
    | (simp only [hide_ite, ite_self, ite_fst, implies_true, eq_self, h_sp, h_ch, h_gs, h_tel, h_out, countN_hide, noteFetch_hide, notePinned_hide, noteReplica_hide, onPwin_hide, onWays_hide, readCopy_hide, readLanding_hide, send_hide, touchHead_hide])

theorem freeLanded_hide (h_fl : M .fl = true) (s : State) (wid : Nat) : hide M (State.freeLanded s wid) = hide M s := by
  unfold State.freeLanded
  try dsimp only
  repeat' first
    | with_reducible rfl
    | (simp only [hide_ite, ite_self, ite_fst, implies_true, eq_self, h_fl, onFl_hide]; done)
    | with_reducible apply hide_if
    | with_reducible apply hide_if1
    | split
    | (rw [forEach_hide])
    | (rw [foldl_hide])
    | (rw [foldlS_hide])
    | (intro; intros; try dsimp only)
    | (simp only [hide_ite, ite_self, ite_fst, implies_true, eq_self, h_fl, onFl_hide])

theorem noteCap_hide (h_tel : M .tel = true) (s : State) (c : Nat) : hide M (State.noteCap s c) = hide M s := by
  unfold State.noteCap
  try dsimp only
  repeat' first
    | with_reducible rfl
    | (simp only [hide_ite, ite_self, ite_fst, implies_true, eq_self, h_tel, count_hide, tell_hide]; done)
    | with_reducible apply hide_if
    | with_reducible apply hide_if1
    | split
    | (rw [forEach_hide])
    | (rw [foldl_hide])
    | (rw [foldlS_hide])
    | (intro; intros; try dsimp only)
    | (simp only [hide_ite, ite_self, ite_fst, implies_true, eq_self, h_tel, count_hide, tell_hide])

theorem askRow_hide (h_sp : M .sp = true) (h_ch : M .ch = true) (h_gs : M .gs = true) (h_fl : M .fl = true) (h_tel : M .tel = true) (h_out : M .out = true) (s : State) (wid : Nat) (need : Need) (again : Nat) : hide M (State.askRow s wid need again) = hide M s := by
  unfold State.askRow
  try dsimp only
  repeat' first
    | with_reducible rfl
    | (simp only [hide_ite, ite_self, ite_fst, implies_true, eq_self, h_sp, h_ch, h_gs, h_fl, h_tel, h_out, issue_hide, noteCap_hide, onPwin_hide, readRows_hide, rowFails_hide]; done)
    | with_reducible apply hide_if
    | with_reducible apply hide_if1
    | split
    | (rw [forEach_hide])
    | (rw [foldl_hide])
    | (rw [foldlS_hide])
    | (intro; intros; try dsimp only)
    | (simp only [hide_ite, ite_self, ite_fst, implies_true, eq_self, h_sp, h_ch, h_gs, h_fl, h_tel, h_out, issue_hide, noteCap_hide, onPwin_hide, readRows_hide, rowFails_hide])

end Sys2Proof.Laws
end

