-- ==== Sys2Proof/Laws/FrameDrain.lean ====
section
/-!
SUPPORT. Frames of what Machine/Drain.lean defines: the parts of the state that each may change.
-/

namespace Sys2Proof.Laws

open Sys2Proof.Machine

variable {M : Mask}

theorem driftRow_hide (h_qz : M .qz = true) (h_tel : M .tel = true) (s : State) (d : Desc) (f : OutFmt) (r : OutRow) (n : Nat) : hide M (State.driftRow s d f r n) = hide M s := by
  unfold State.driftRow
  try dsimp only
  repeat' first
    | with_reducible rfl
    | (simp only [hide_ite, ite_self, ite_fst, implies_true, eq_self, h_qz, h_tel, count_hide, onQz_hide, tell_hide]; done)
    | with_reducible apply hide_if
    | with_reducible apply hide_if1
    | split
    | (rw [forEach_hide])
    | (rw [foldl_hide])
    | (rw [foldlS_hide])
    | (intro; intros; try dsimp only)
    | (simp only [hide_ite, ite_self, ite_fst, implies_true, eq_self, h_qz, h_tel, count_hide, onQz_hide, tell_hide])

theorem putBytes_hide (h_fe : M .fe = true) (h_up : M .up = true) (h_pw : M .pw = true) (h_out : M .out = true) (s : State) (d : Desc) (r : Range) (off : Nat) (b : Bytes) : hide M (State.putBytes s d r off b) = hide M s := by
  unfold State.putBytes
  try dsimp only
  repeat' first
    | with_reducible rfl
    | (simp only [hide_ite, ite_self, ite_fst, implies_true, eq_self, h_fe, h_up, h_pw, h_out, fabSendAll_hide, onDesc_hide, sendAll_hide]; done)
    | with_reducible apply hide_if
    | with_reducible apply hide_if1
    | split
    | (rw [forEach_hide])
    | (rw [foldl_hide])
    | (rw [foldlS_hide])
    | (intro; intros; try dsimp only)
    | (simp only [hide_ite, ite_self, ite_fst, implies_true, eq_self, h_fe, h_up, h_pw, h_out, fabSendAll_hide, onDesc_hide, sendAll_hide])

theorem writeResult_hide (h_fe : M .fe = true) (h_up : M .up = true) (h_pw : M .pw = true) (h_out : M .out = true) (s : State) (d : Desc) (dim : Nat) (cut : Option (Nat × BitVec 8)) (off : Nat) (b : Bytes) : hide M (State.writeResult s d dim cut off b) = hide M s := by
  unfold State.writeResult
  try dsimp only
  repeat' first
    | with_reducible rfl
    | (simp only [hide_ite, ite_self, ite_fst, implies_true, eq_self, h_fe, h_up, h_pw, h_out, onDesc_hide, putBytes_hide]; done)
    | with_reducible apply hide_if
    | with_reducible apply hide_if1
    | split
    | (rw [forEach_hide])
    | (rw [foldl_hide])
    | (rw [foldlS_hide])
    | (intro; intros; try dsimp only)
    | (simp only [hide_ite, ite_self, ite_fst, implies_true, eq_self, h_fe, h_up, h_pw, h_out, onDesc_hide, putBytes_hide])

theorem putBag_hide (h_fe : M .fe = true) (h_qz : M .qz = true) (h_up : M .up = true) (h_tel : M .tel = true) (h_pw : M .pw = true) (h_out : M .out = true) (s : State) (p : Pooled) (d : Desc) (cut : Option (Nat × BitVec 8)) (b : Nat) (sum : Acc) : hide M (State.putBag s p d cut b sum) = hide M s := by
  unfold State.putBag
  try dsimp only
  repeat' first
    | with_reducible rfl
    | (simp only [hide_ite, ite_self, ite_fst, implies_true, eq_self, h_fe, h_qz, h_up, h_tel, h_pw, h_out, count_hide, driftRow_hide, onDesc_hide, tell_hide, writeResult_hide]; done)
    | with_reducible apply hide_if
    | with_reducible apply hide_if1
    | split
    | (rw [forEach_hide])
    | (rw [foldl_hide])
    | (rw [foldlS_hide])
    | (intro; intros; try dsimp only)
    | (simp only [hide_ite, ite_self, ite_fst, implies_true, eq_self, h_fe, h_qz, h_up, h_tel, h_pw, h_out, count_hide, driftRow_hide, onDesc_hide, tell_hide, writeResult_hide])

theorem endGather_hide (h_fe : M .fe = true) (s : State) (p : Pooled) (d : Desc) : hide M (State.endGather s p d) = hide M s := by
  unfold State.endGather
  simp only [eq_self, h_fe, settle_hide]

theorem sliceFound_hide (h_rl : M .rl = true) (s : State) (pos n : Nat) (atOnce : Bool) : hide M (State.sliceFound s pos n atOnce) = hide M s := by
  unfold State.sliceFound
  try dsimp only
  repeat' first
    | with_reducible rfl
    | (simp only [set_out_hide, hide_ite, ite_self, ite_fst, implies_true, eq_self, h_rl, onRl_hide]; done)
    | with_reducible apply hide_if
    | with_reducible apply hide_if1
    | split
    | (rw [forEach_hide])
    | (rw [foldl_hide])
    | (rw [foldlS_hide])
    | (intro; intros; try dsimp only)
    | (simp only [set_out_hide, hide_ite, ite_self, ite_fst, implies_true, eq_self, h_rl, onRl_hide])

theorem freeHoop_hide (h_sp : M .sp = true) (s : State) (h : Hoop) : hide M (State.freeHoop s h) = hide M s := by
  unfold State.freeHoop
  try dsimp only
  repeat' first
    | with_reducible rfl
    | (simp only [hide_ite, ite_self, ite_fst, implies_true, eq_self, h_sp, onSp_hide]; done)
    | with_reducible apply hide_if
    | with_reducible apply hide_if1
    | split
    | (rw [forEach_hide])
    | (rw [foldl_hide])
    | (rw [foldlS_hide])
    | (intro; intros; try dsimp only)
    | (simp only [hide_ite, ite_self, ite_fst, implies_true, eq_self, h_sp, onSp_hide])

theorem drainTile_hide (h_regs : M .regs = true) (h_fe : M .fe = true) (h_xl : M .xl = true) (h_sp : M .sp = true) (h_qz : M .qz = true) (h_up : M .up = true) (h_fl : M .fl = true) (h_tel : M .tel = true) (h_pw : M .pw = true) (h_out : M .out = true) (s : State) (w : PWin) (p : Pooled) (d : Desc) (tiles : List TileRef) (t : TileRef) (fault : Option (Nat × BitVec 8)) : hide M (State.drainTile s w p d tiles t fault) = hide M s := by
  unfold State.drainTile
  try dsimp only
  repeat' first
    | with_reducible rfl
    | (simp only [hide_ite, ite_self, ite_fst, implies_true, eq_self, h_regs, h_fe, h_xl, h_sp, h_qz, h_up, h_fl, h_tel, h_pw, h_out, forEach_hide, count_hide, drained_hide, freeHoop_hide, onDesc_hide, onPooled_hide, passBytes_hide, putBag_hide, tell_hide]; done)
    | with_reducible apply hide_if
    | with_reducible apply hide_if1
    | split
    | (rw [forEach_hide])
    | (rw [foldl_hide])
    | (rw [foldlS_hide])
    | (intro; intros; try dsimp only)
    | (simp only [hide_ite, ite_self, ite_fst, implies_true, eq_self, h_regs, h_fe, h_xl, h_sp, h_qz, h_up, h_fl, h_tel, h_pw, h_out, forEach_hide, count_hide, drained_hide, freeHoop_hide, onDesc_hide, onPooled_hide, passBytes_hide, putBag_hide, tell_hide])

end Sys2Proof.Laws
end

