-- ==== Sys2Proof/Laws/FrameSettle.lean ====
section
/-!
SUPPORT. Frames of what Machine/Settle.lean defines: the parts of the state that each may change.
-/

namespace Sys2Proof.Laws

open Sys2Proof.Machine

variable {M : Mask}

theorem failGather_hide (h_fe : M .fe = true) (s : State) (d : Desc) (p : Pooled) : hide M (State.failGather s d p) = hide M s := by
  unfold State.failGather
  (repeat' split) <;> simp only [eq_self, h_fe, endDesc_hide]

theorem holdDone_hide (h_fe : M .fe = true) (h_sp : M .sp = true) (h_tel : M .tel = true) (s : State) (w : PWin) (p : Pooled) (d : Desc) : hide M (State.holdDone s w p d) = hide M s := by
  unfold State.holdDone
  try dsimp only
  repeat' first
    | with_reducible rfl
    | (simp only [hide_ite, ite_self, ite_fst, implies_true, eq_self, h_fe, h_sp, h_tel, count_hide, onSp_hide, settle_hide, tell_hide]; done)
    | with_reducible apply hide_if
    | with_reducible apply hide_if1
    | split
    | (rw [forEach_hide])
    | (rw [foldl_hide])
    | (rw [foldlS_hide])
    | (intro; intros; try dsimp only)
    | (simp only [hide_ite, ite_self, ite_fst, implies_true, eq_self, h_fe, h_sp, h_tel, count_hide, onSp_hide, settle_hide, tell_hide])

theorem openBlock_hide (h_sp : M .sp = true) (h_tel : M .tel = true) (w : PWin) (s : State) (b : Block) : hide M (State.openBlock w s b) = hide M s := by
  unfold State.openBlock
  try dsimp only
  repeat' first
    | with_reducible rfl
    | (simp only [hide_ite, ite_self, ite_fst, implies_true, eq_self, h_sp, h_tel, onSp_hide, softStart_hide]; done)
    | with_reducible apply hide_if
    | with_reducible apply hide_if1
    | split
    | (rw [forEach_hide])
    | (rw [foldl_hide])
    | (rw [foldlS_hide])
    | (intro; intros; try dsimp only)
    | (simp only [hide_ite, ite_self, ite_fst, implies_true, eq_self, h_sp, h_tel, onSp_hide, softStart_hide])

theorem letTiles_hide (h_sp : M .sp = true) (h_tel : M .tel = true) (s : State) : hide M (State.letTiles s) = hide M s := by
  unfold State.letTiles
  try dsimp only
  repeat' first
    | with_reducible rfl
    | (simp only [hide_ite, ite_self, ite_fst, implies_true, eq_self, h_sp, h_tel, forEach_hide, onSp_hide, openBlock_hide]; done)
    | with_reducible apply hide_if
    | with_reducible apply hide_if1
    | split
    | (rw [forEach_hide])
    | (rw [foldl_hide])
    | (rw [foldlS_hide])
    | (intro; intros; try dsimp only)
    | (simp only [hide_ite, ite_self, ite_fst, implies_true, eq_self, h_sp, h_tel, forEach_hide, onSp_hide, openBlock_hide])

theorem settleMember_hide (h_regs : M .regs = true) (h_fe : M .fe = true) (h_xl : M .xl = true) (h_sp : M .sp = true) (h_up : M .up = true) (h_fl : M .fl = true) (h_tel : M .tel = true) (h_out : M .out = true) (s : State) (w : PWin) (p : Pooled) : hide M (State.settleMember s w p).1 = hide M s := by
  unfold State.settleMember
  try dsimp only
  repeat' first
    | with_reducible rfl
    | (simp only [hide_ite, ite_self, ite_fst, implies_true, eq_self, h_regs, h_fe, h_xl, h_sp, h_up, h_fl, h_tel, h_out, drained_hide, endGather_hide, failGather_hide, holdDone_hide, prefetchEnd_hide]; done)
    | with_reducible apply hide_if
    | with_reducible apply hide_if1
    | split
    | (rw [forEach_hide])
    | (rw [foldl_hide])
    | (rw [foldlS_hide])
    | (intro; intros; try dsimp only)
    | (simp only [hide_ite, ite_self, ite_fst, implies_true, eq_self, h_regs, h_fe, h_xl, h_sp, h_up, h_fl, h_tel, h_out, drained_hide, endGather_hide, failGather_hide, holdDone_hide, prefetchEnd_hide])

theorem settleWin_hide (h_regs : M .regs = true) (h_fe : M .fe = true) (h_xl : M .xl = true) (h_sp : M .sp = true) (h_up : M .up = true) (h_fl : M .fl = true) (h_tel : M .tel = true) (h_out : M .out = true) (s : State) (wid : Nat) : hide M (State.settleWin s wid) = hide M s := by
  unfold State.settleWin
  try dsimp only
  repeat' first
    | with_reducible rfl
    | (simp only [hide_ite, ite_self, ite_fst, implies_true, eq_self, h_regs, h_fe, h_xl, h_sp, h_up, h_fl, h_tel, h_out, forEach_hide, onPwin_hide, settleMember_hide, tidyWins_hide]; done)
    | with_reducible apply hide_if
    | with_reducible apply hide_if1
    | split
    | (rw [forEach_hide])
    | (rw [foldl_hide])
    | (rw [foldlS_hide])
    | (intro; intros; try dsimp only)
    | (simp only [hide_ite, ite_self, ite_fst, implies_true, eq_self, h_regs, h_fe, h_xl, h_sp, h_up, h_fl, h_tel, h_out, forEach_hide, onPwin_hide, settleMember_hide, tidyWins_hide])

theorem settleAll_hide (h_regs : M .regs = true) (h_fe : M .fe = true) (h_xl : M .xl = true) (h_sp : M .sp = true) (h_up : M .up = true) (h_fl : M .fl = true) (h_tel : M .tel = true) (h_out : M .out = true) (s : State) : hide M (State.settleAll s) = hide M s := by
  unfold State.settleAll
  try dsimp only
  repeat' first
    | with_reducible rfl
    | (simp only [hide_ite, ite_self, ite_fst, implies_true, eq_self, h_regs, h_fe, h_xl, h_sp, h_up, h_fl, h_tel, h_out, forEach_hide, settleWin_hide]; done)
    | with_reducible apply hide_if
    | with_reducible apply hide_if1
    | split
    | (rw [forEach_hide])
    | (rw [foldl_hide])
    | (rw [foldlS_hide])
    | (intro; intros; try dsimp only)
    | (simp only [hide_ite, ite_self, ite_fst, implies_true, eq_self, h_regs, h_fe, h_xl, h_sp, h_up, h_fl, h_tel, h_out, forEach_hide, settleWin_hide])

theorem tellErrs_hide (h_tel : M .tel = true) (h_rl : M .rl = true) (s : State) (pos : Nat) (e : Errs) : hide M (State.tellErrs s pos e) = hide M s := by
  unfold State.tellErrs
  try dsimp only
  repeat' first
    | with_reducible rfl
    | (simp only [hide_ite, ite_self, ite_fst, implies_true, eq_self, h_tel, h_rl, count_hide, sliceFound_hide, tell_hide]; done)
    | with_reducible apply hide_if
    | with_reducible apply hide_if1
    | split
    | (rw [forEach_hide])
    | (rw [foldl_hide])
    | (rw [foldlS_hide])
    | (intro; intros; try dsimp only)
    | (simp only [hide_ite, ite_self, ite_fst, implies_true, eq_self, h_tel, h_rl, count_hide, sliceFound_hide, tell_hide])

theorem spoilt_hide (h_fe : M .fe = true) (h_sp : M .sp = true) (h_up : M .up = true) (h_fl : M .fl = true) (s : State) (id : Nat) : hide M (State.spoilt s id) = hide M s := by
  unfold State.spoilt
  try dsimp only
  repeat' first
    | with_reducible rfl
    | (simp only [hide_ite, ite_self, ite_fst, implies_true, eq_self, h_fe, h_sp, h_up, h_fl, abandon_hide, endDesc_hide]; done)
    | with_reducible apply hide_if
    | with_reducible apply hide_if1
    | split
    | (rw [forEach_hide])
    | (rw [foldl_hide])
    | (rw [foldlS_hide])
    | (intro; intros; try dsimp only)
    | (simp only [hide_ite, ite_self, ite_fst, implies_true, eq_self, h_fe, h_sp, h_up, h_fl, abandon_hide, endDesc_hide])

theorem tileDrain_hide (h_regs : M .regs = true) (h_fe : M .fe = true) (h_xl : M .xl = true) (h_sp : M .sp = true) (h_qz : M .qz = true) (h_up : M .up = true) (h_fl : M .fl = true) (h_tel : M .tel = true) (h_pw : M .pw = true) (h_rl : M .rl = true) (h_out : M .out = true) (s : State) (wid id pos tile : Nat) (fault : Option (Nat × BitVec 8)) (errs : Errs) : hide M (State.tileDrain s wid id pos tile fault errs) = hide M s := by
  unfold State.tileDrain
  try dsimp only
  repeat' first
    | with_reducible rfl
    | (simp only [hide_ite, ite_self, ite_fst, implies_true, eq_self, h_regs, h_fe, h_xl, h_sp, h_qz, h_up, h_fl, h_tel, h_pw, h_rl, h_out, drainTile_hide, letTiles_hide, settleAll_hide, spoilt_hide, tellErrs_hide]; done)
    | with_reducible apply hide_if
    | with_reducible apply hide_if1
    | split
    | (rw [forEach_hide])
    | (rw [foldl_hide])
    | (rw [foldlS_hide])
    | (intro; intros; try dsimp only)
    | (simp only [hide_ite, ite_self, ite_fst, implies_true, eq_self, h_regs, h_fe, h_xl, h_sp, h_qz, h_up, h_fl, h_tel, h_pw, h_rl, h_out, drainTile_hide, letTiles_hide, settleAll_hide, spoilt_hide, tellErrs_hide])

theorem execTileDrain_hide (h_regs : M .regs = true) (h_fe : M .fe = true) (h_xl : M .xl = true) (h_sp : M .sp = true) (h_qz : M .qz = true) (h_up : M .up = true) (h_fl : M .fl = true) (h_tel : M .tel = true) (h_pw : M .pw = true) (h_rl : M .rl = true) (h_out : M .out = true) (win id pos tile : Nat) (drain : TileEnd) (s : State) (t : State) (e : execTileDrain win id pos tile drain s = .next t) : hide M t = hide M s := by
  simp only [execTileDrain, Host.Outcome.next.injEq] at e
  subst e
  repeat' first
    | with_reducible rfl
    | (simp only [hide_ite, ite_self, ite_fst, implies_true, eq_self, h_regs, h_fe, h_xl, h_sp, h_qz, h_up, h_fl, h_tel, h_pw, h_rl, h_out, tileDrain_hide]; done)
    | with_reducible apply hide_if
    | with_reducible apply hide_if1
    | split
    | (rw [forEach_hide])
    | (rw [foldl_hide])
    | (rw [foldlS_hide])
    | (intro; intros; try dsimp only)
    | (simp only [hide_ite, ite_self, ite_fst, implies_true, eq_self, h_regs, h_fe, h_xl, h_sp, h_qz, h_up, h_fl, h_tel, h_pw, h_rl, h_out, tileDrain_hide])

end Sys2Proof.Laws
end

