-- ==== Sys2Proof/Laws/FramePorts.lean ====
section
/-!
SUPPORT. Frames of what Machine/Ports.lean defines: the parts of the state that each may change.
-/

namespace Sys2Proof.Laws

open Sys2Proof.Machine

variable {M : Mask}

theorem forgetAsks_hide (h_fe : M .fe = true) (h_xl : M .xl = true) (s : State) (p : Nat) : hide M (State.forgetAsks s p) = hide M s := by
  unfold State.forgetAsks
  try dsimp only
  repeat' first
    | with_reducible rfl
    | (simp only [hide_ite, ite_self, ite_fst, implies_true, eq_self, h_fe, h_xl, forEach_hide, onXl_hide, setDesc_hide]; done)
    | with_reducible apply hide_if
    | with_reducible apply hide_if1
    | split
    | (rw [forEach_hide])
    | (rw [foldl_hide])
    | (rw [foldlS_hide])
    | (intro; intros; try dsimp only)
    | (simp only [hide_ite, ite_self, ite_fst, implies_true, eq_self, h_fe, h_xl, forEach_hide, onXl_hide, setDesc_hide])

theorem markReplay_hide (h_fe : M .fe = true) (h_xl : M .xl = true) (h_sp : M .sp = true) (h_up : M .up = true) (h_gs : M .gs = true) (h_fl : M .fl = true) (h_tel : M .tel = true) (s : State) (d : Desc) : hide M (State.markReplay s d) = hide M s := by
  unfold State.markReplay
  try dsimp only
  repeat' first
    | with_reducible rfl
    | (simp only [hide_ite, ite_self, ite_fst, implies_true, eq_self, h_fe, h_xl, h_sp, h_up, h_gs, h_fl, h_tel, abandon_hide, onDesc_hide, onFe_hide, onSp_hide, onUp_hide, onXl_hide, replay_hide]; done)
    | with_reducible apply hide_if
    | with_reducible apply hide_if1
    | split
    | (rw [forEach_hide])
    | (rw [foldl_hide])
    | (rw [foldlS_hide])
    | (intro; intros; try dsimp only)
    | (simp only [hide_ite, ite_self, ite_fst, implies_true, eq_self, h_fe, h_xl, h_sp, h_up, h_gs, h_fl, h_tel, abandon_hide, onDesc_hide, onFe_hide, onSp_hide, onUp_hide, onXl_hide, replay_hide])

theorem freeRingCmd_hide (h_regs : M .regs = true) (s : State) (p : Nat) : hide M (State.freeRingCmd s p) = hide M s := by
  unfold State.freeRingCmd
  simp only [hide_ite, ite_self, implies_true, eq_self, h_regs, finish_hide, put_ringCmd_hide]

theorem loseFetch_hide (h_sp : M .sp = true) (h_ch : M .ch = true) (h_gs : M .gs = true) (h_fl : M .fl = true) (h_tel : M .tel = true) (h_out : M .out = true) (s : State) (wid : Nat) (a : Ask) : hide M (State.loseFetch s wid a) = hide M s := by
  unfold State.loseFetch
  try dsimp only
  repeat' first
    | with_reducible rfl
    | (simp only [hide_ite, ite_self, ite_fst, implies_true, eq_self, h_sp, h_ch, h_gs, h_fl, h_tel, h_out, askRow_hide, onPwin_hide, rowFails_hide]; done)
    | with_reducible apply hide_if
    | with_reducible apply hide_if1
    | split
    | (rw [forEach_hide])
    | (rw [foldl_hide])
    | (rw [foldlS_hide])
    | (intro; intros; try dsimp only)
    | (simp only [hide_ite, ite_self, ite_fst, implies_true, eq_self, h_sp, h_ch, h_gs, h_fl, h_tel, h_out, askRow_hide, onPwin_hide, rowFails_hide])

theorem loseRows_hide (h_regs : M .regs = true) (h_fe : M .fe = true) (h_xl : M .xl = true) (h_sp : M .sp = true) (h_up : M .up = true) (h_ch : M .ch = true) (h_gs : M .gs = true) (h_fl : M .fl = true) (h_tel : M .tel = true) (h_out : M .out = true) (s : State) (p : Nat) : hide M (State.loseRows s p) = hide M s := by
  unfold State.loseRows
  try dsimp only
  repeat' first
    | with_reducible rfl
    | (simp only [hide_ite, ite_self, ite_fst, implies_true, eq_self, h_regs, h_fe, h_xl, h_sp, h_up, h_ch, h_gs, h_fl, h_tel, h_out, forEach_hide, loseFetch_hide, settleWin_hide]; done)
    | with_reducible apply hide_if
    | with_reducible apply hide_if1
    | split
    | (rw [forEach_hide])
    | (rw [foldl_hide])
    | (rw [foldlS_hide])
    | (intro; intros; try dsimp only)
    | (simp only [hide_ite, ite_self, ite_fst, implies_true, eq_self, h_regs, h_fe, h_xl, h_sp, h_up, h_ch, h_gs, h_fl, h_tel, h_out, forEach_hide, loseFetch_hide, settleWin_hide])

theorem replayFree_hide (h_regs : M .regs = true) (h_fe : M .fe = true) (h_xl : M .xl = true) (h_sp : M .sp = true) (h_qz : M .qz = true) (h_up : M .up = true) (h_gs : M .gs = true) (h_fl : M .fl = true) (h_tel : M .tel = true) (h_out : M .out = true) (s : State) : hide M (State.replayFree s) = hide M s := by
  unfold State.replayFree
  try dsimp only
  repeat' first
    | with_reducible rfl
    | (simp only [hide_ite, ite_self, ite_fst, implies_true, eq_self, h_regs, h_fe, h_xl, h_sp, h_qz, h_up, h_gs, h_fl, h_tel, h_out, forEach_hide, endLoad_hide, letIn_hide, replay_hide, setDesc_hide]; done)
    | with_reducible apply hide_if
    | with_reducible apply hide_if1
    | split
    | (rw [forEach_hide])
    | (rw [foldl_hide])
    | (rw [foldlS_hide])
    | (intro; intros; try dsimp only)
    | (simp only [hide_ite, ite_self, ite_fst, implies_true, eq_self, h_regs, h_fe, h_xl, h_sp, h_qz, h_up, h_gs, h_fl, h_tel, h_out, forEach_hide, endLoad_hide, letIn_hide, replay_hide, setDesc_hide])

theorem losePort_hide (h_regs : M .regs = true) (h_fe : M .fe = true) (h_xl : M .xl = true) (h_sp : M .sp = true) (h_up : M .up = true) (h_ch : M .ch = true) (h_gs : M .gs = true) (h_fl : M .fl = true) (h_tel : M .tel = true) (h_out : M .out = true) (s : State) (p : Nat) : hide M (State.losePort s p) = hide M s := by
  unfold State.losePort
  try dsimp only
  repeat' first
    | with_reducible rfl
    | (simp only [hide_ite, ite_self, ite_fst, implies_true, eq_self, h_regs, h_fe, h_xl, h_sp, h_up, h_ch, h_gs, h_fl, h_tel, h_out, forEach_hide, forgetAsks_hide, freeRingCmd_hide, loseRows_hide, markReplay_hide, onFe_hide, onRing_hide, onXl_hide]; done)
    | with_reducible apply hide_if
    | with_reducible apply hide_if1
    | split
    | (rw [forEach_hide])
    | (rw [foldl_hide])
    | (rw [foldlS_hide])
    | (intro; intros; try dsimp only)
    | (simp only [hide_ite, ite_self, ite_fst, implies_true, eq_self, h_regs, h_fe, h_xl, h_sp, h_up, h_ch, h_gs, h_fl, h_tel, h_out, forEach_hide, forgetAsks_hide, freeRingCmd_hide, loseRows_hide, markReplay_hide, onFe_hide, onRing_hide, onXl_hide])

theorem linkDown_hide (h_regs : M .regs = true) (h_fe : M .fe = true) (h_xl : M .xl = true) (h_sp : M .sp = true) (h_qz : M .qz = true) (h_up : M .up = true) (h_ch : M .ch = true) (h_gs : M .gs = true) (h_fl : M .fl = true) (h_tel : M .tel = true) (h_pw : M .pw = true) (h_out : M .out = true) (s : State) (p : Nat) : hide M (State.linkDown s p) = hide M s := by
  unfold State.linkDown
  try dsimp only
  repeat' first
    | with_reducible rfl
    | (simp only [hide_ite, ite_self, ite_fst, implies_true, eq_self, h_regs, h_fe, h_xl, h_sp, h_qz, h_up, h_ch, h_gs, h_fl, h_tel, h_pw, h_out, losePort_hide, onPw_hide, replayFree_hide, retryParked_hide]; done)
    | with_reducible apply hide_if
    | with_reducible apply hide_if1
    | split
    | (rw [forEach_hide])
    | (rw [foldl_hide])
    | (rw [foldlS_hide])
    | (intro; intros; try dsimp only)
    | (simp only [hide_ite, ite_self, ite_fst, implies_true, eq_self, h_regs, h_fe, h_xl, h_sp, h_qz, h_up, h_ch, h_gs, h_fl, h_tel, h_pw, h_out, losePort_hide, onPw_hide, replayFree_hide, retryParked_hide])

theorem funcReset_hide (h_regs : M .regs = true) (h_fe : M .fe = true) (h_xl : M .xl = true) (h_sp : M .sp = true) (h_qz : M .qz = true) (h_up : M .up = true) (h_ch : M .ch = true) (h_gs : M .gs = true) (h_fl : M .fl = true) (h_tel : M .tel = true) (h_pw : M .pw = true) (h_st : M .st = true) (h_out : M .out = true) (s : State) (p : Nat) (f : FnSetup) : hide M (State.funcReset s p f) = hide M s := by
  unfold State.funcReset
  try dsimp only
  repeat' first
    | with_reducible rfl
    | (simp only [hide_ite, ite_self, ite_fst, implies_true, eq_self, h_regs, h_fe, h_xl, h_sp, h_qz, h_up, h_ch, h_gs, h_fl, h_tel, h_pw, h_st, h_out, endSession_hide, losePort_hide, onPw_hide, replayFree_hide, retryParked_hide]; done)
    | with_reducible apply hide_if
    | with_reducible apply hide_if1
    | split
    | (rw [forEach_hide])
    | (rw [foldl_hide])
    | (rw [foldlS_hide])
    | (intro; intros; try dsimp only)
    | (simp only [hide_ite, ite_self, ite_fst, implies_true, eq_self, h_regs, h_fe, h_xl, h_sp, h_qz, h_up, h_ch, h_gs, h_fl, h_tel, h_pw, h_st, h_out, endSession_hide, losePort_hide, onPw_hide, replayFree_hide, retryParked_hide])

theorem noteTraining_hide (h_tel : M .tel = true) (s : State) (port : Nat) (q : Port) : hide M (State.noteTraining s port q) = hide M s := by
  unfold State.noteTraining
  simp only [hide_ite, ite_self, eq_self, h_tel, tell_hide]

theorem hostRetrain_hide (h_regs : M .regs = true) (h_fe : M .fe = true) (h_xl : M .xl = true) (h_sp : M .sp = true) (h_qz : M .qz = true) (h_up : M .up = true) (h_ch : M .ch = true) (h_gs : M .gs = true) (h_fl : M .fl = true) (h_tel : M .tel = true) (h_pw : M .pw = true) (h_out : M .out = true) (s : State) (p : Nat) (q : Port) : hide M (State.hostRetrain s p q) = hide M s := by
  unfold State.hostRetrain
  try dsimp only
  repeat' first
    | with_reducible rfl
    | (simp only [hide_ite, ite_self, ite_fst, implies_true, eq_self, h_regs, h_fe, h_xl, h_sp, h_qz, h_up, h_ch, h_gs, h_fl, h_tel, h_pw, h_out, linkDown_hide, noteTraining_hide, onPw_hide]; done)
    | with_reducible apply hide_if
    | with_reducible apply hide_if1
    | split
    | (rw [forEach_hide])
    | (rw [foldl_hide])
    | (rw [foldlS_hide])
    | (intro; intros; try dsimp only)
    | (simp only [hide_ite, ite_self, ite_fst, implies_true, eq_self, h_regs, h_fe, h_xl, h_sp, h_qz, h_up, h_ch, h_gs, h_fl, h_tel, h_pw, h_out, linkDown_hide, noteTraining_hide, onPw_hide])

theorem hostTrain_hide (h_regs : M .regs = true) (h_fe : M .fe = true) (h_xl : M .xl = true) (h_sp : M .sp = true) (h_qz : M .qz = true) (h_up : M .up = true) (h_ch : M .ch = true) (h_gs : M .gs = true) (h_fl : M .fl = true) (h_tel : M .tel = true) (h_pw : M .pw = true) (h_out : M .out = true) (s : State) (p : Nat) (res : LinkRes) : hide M (State.hostTrain s p res) = hide M s := by
  unfold State.hostTrain
  try dsimp only
  repeat' first
    | with_reducible rfl
    | (simp only [hide_ite, ite_self, ite_fst, implies_true, eq_self, h_regs, h_fe, h_xl, h_sp, h_qz, h_up, h_ch, h_gs, h_fl, h_tel, h_pw, h_out, hostRetrain_hide, noteTraining_hide, onPw_hide, replayFree_hide, retryParked_hide]; done)
    | with_reducible apply hide_if
    | with_reducible apply hide_if1
    | split
    | (rw [forEach_hide])
    | (rw [foldl_hide])
    | (rw [foldlS_hide])
    | (intro; intros; try dsimp only)
    | (simp only [hide_ite, ite_self, ite_fst, implies_true, eq_self, h_regs, h_fe, h_xl, h_sp, h_qz, h_up, h_ch, h_gs, h_fl, h_tel, h_pw, h_out, hostRetrain_hide, noteTraining_hide, onPw_hide, replayFree_hide, retryParked_hide])

theorem execHostPortTraining_hide (h_regs : M .regs = true) (h_fe : M .fe = true) (h_xl : M .xl = true) (h_sp : M .sp = true) (h_qz : M .qz = true) (h_up : M .up = true) (h_ch : M .ch = true) (h_gs : M .gs = true) (h_fl : M .fl = true) (h_tel : M .tel = true) (h_pw : M .pw = true) (h_out : M .out = true) (port : Nat) (res : LinkRes) (s : State) (t : State) (e : execHostPortTraining port res s = .next t) : hide M t = hide M s := by
  simp only [execHostPortTraining, Host.Outcome.next.injEq] at e
  subst e
  repeat' first
    | with_reducible rfl
    | (simp only [hide_ite, ite_self, ite_fst, implies_true, eq_self, h_regs, h_fe, h_xl, h_sp, h_qz, h_up, h_ch, h_gs, h_fl, h_tel, h_pw, h_out, hostTrain_hide]; done)
    | with_reducible apply hide_if
    | with_reducible apply hide_if1
    | split
    | (rw [forEach_hide])
    | (rw [foldl_hide])
    | (rw [foldlS_hide])
    | (intro; intros; try dsimp only)
    | (simp only [hide_ite, ite_self, ite_fst, implies_true, eq_self, h_regs, h_fe, h_xl, h_sp, h_qz, h_up, h_ch, h_gs, h_fl, h_tel, h_pw, h_out, hostTrain_hide])

theorem fabGrant_hide (h_out : M .out = true) (s : State) (n : Nat) : hide M (State.fabGrant s n) = hide M s := by
  unfold State.fabGrant
  try dsimp only
  repeat' first
    | with_reducible rfl
    | (simp only [hide_ite, ite_self, ite_fst, implies_true, eq_self, h_out, sendAll_hide]; done)
    | with_reducible apply hide_if
    | with_reducible apply hide_if1
    | split
    | (rw [forEach_hide])
    | (rw [foldl_hide])
    | (rw [foldlS_hide])
    | (intro; intros; try dsimp only)
    | (simp only [hide_ite, ite_self, ite_fst, implies_true, eq_self, h_out, sendAll_hide])

theorem fabPresent_hide (h_fe : M .fe = true) (h_up : M .up = true) (h_pw : M .pw = true) (h_out : M .out = true) (s : State) (n : Nat) : hide M (State.fabPresent s n) = hide M s := by
  unfold State.fabPresent
  try dsimp only
  repeat' first
    | with_reducible rfl
    | (simp only [hide_ite, ite_self, ite_fst, implies_true, eq_self, h_fe, h_up, h_pw, h_out, forEach_hide, announce_hide, fabGrant_hide, fabPump_hide, onPw_hide, send_hide]; done)
    | with_reducible apply hide_if
    | with_reducible apply hide_if1
    | split
    | (rw [forEach_hide])
    | (rw [foldl_hide])
    | (rw [foldlS_hide])
    | (intro; intros; try dsimp only)
    | (simp only [hide_ite, ite_self, ite_fst, implies_true, eq_self, h_fe, h_up, h_pw, h_out, forEach_hide, announce_hide, fabGrant_hide, fabPump_hide, onPw_hide, send_hide])

theorem fabBegin_hide (h_fe : M .fe = true) (h_up : M .up = true) (h_pw : M .pw = true) (h_out : M .out = true) (s : State) (n oreq orsp : Nat) : hide M (State.fabBegin s n oreq orsp) = hide M s := by
  unfold State.fabBegin
  try dsimp only
  repeat' first
    | with_reducible rfl
    | (simp only [hide_ite, ite_self, ite_fst, implies_true, eq_self, h_fe, h_up, h_pw, h_out, fabPresent_hide, onPw_hide, send_hide]; done)
    | with_reducible apply hide_if
    | with_reducible apply hide_if1
    | split
    | (rw [forEach_hide])
    | (rw [foldl_hide])
    | (rw [foldlS_hide])
    | (intro; intros; try dsimp only)
    | (simp only [hide_ite, ite_self, ite_fst, implies_true, eq_self, h_fe, h_up, h_pw, h_out, fabPresent_hide, onPw_hide, send_hide])

theorem fabTrain_hide (h_fe : M .fe = true) (h_up : M .up = true) (h_pw : M .pw = true) (h_out : M .out = true) (s : State) (n : Nat) (node : BitVec 16) (oreq orsp : Nat) : hide M (State.fabTrain s n node oreq orsp) = hide M s := by
  unfold State.fabTrain
  try dsimp only
  repeat' first
    | with_reducible rfl
    | (simp only [hide_ite, ite_self, ite_fst, implies_true, eq_self, h_fe, h_up, h_pw, h_out, fabBegin_hide, onPw_hide]; done)
    | with_reducible apply hide_if
    | with_reducible apply hide_if1
    | split
    | (rw [forEach_hide])
    | (rw [foldl_hide])
    | (rw [foldlS_hide])
    | (intro; intros; try dsimp only)
    | (simp only [hide_ite, ite_self, ite_fst, implies_true, eq_self, h_fe, h_up, h_pw, h_out, fabBegin_hide, onPw_hide])

theorem execFabricPortTraining_hide (h_fe : M .fe = true) (h_up : M .up = true) (h_pw : M .pw = true) (h_out : M .out = true) (port : Nat) (link : FabLink) (s : State) (t : State) (e : execFabricPortTraining port link s = .next t) : hide M t = hide M s := by
  simp only [execFabricPortTraining, Host.Outcome.next.injEq] at e
  subst e
  repeat' first
    | with_reducible rfl
    | (simp only [hide_ite, ite_self, ite_fst, implies_true, eq_self, h_fe, h_up, h_pw, h_out, fabTrain_hide]; done)
    | with_reducible apply hide_if
    | with_reducible apply hide_if1
    | split
    | (rw [forEach_hide])
    | (rw [foldl_hide])
    | (rw [foldlS_hide])
    | (intro; intros; try dsimp only)
    | (simp only [hide_ite, ite_self, ite_fst, implies_true, eq_self, h_fe, h_up, h_pw, h_out, fabTrain_hide])

theorem fabDrain_hide (h_pw : M .pw = true) (h_out : M .out = true) (s : State) (n : Nat) : hide M (State.fabDrain s n) = hide M s := by
  unfold State.fabDrain
  try dsimp only
  repeat' first
    | with_reducible rfl
    | (simp only [hide_ite, ite_self, ite_fst, implies_true, eq_self, h_pw, h_out, fabSettle_hide, onPw_hide, send_hide]; done)
    | with_reducible apply hide_if
    | with_reducible apply hide_if1
    | split
    | (rw [forEach_hide])
    | (rw [foldl_hide])
    | (rw [foldlS_hide])
    | (intro; intros; try dsimp only)
    | (simp only [hide_ite, ite_self, ite_fst, implies_true, eq_self, h_pw, h_out, fabSettle_hide, onPw_hide, send_hide])

theorem execFabricPortDrain_hide (h_pw : M .pw = true) (h_out : M .out = true) (port : Nat) (s : State) (t : State) (e : execFabricPortDrain port s = .next t) : hide M t = hide M s := by
  simp only [execFabricPortDrain, Host.Outcome.next.injEq] at e
  subst e
  repeat' first
    | with_reducible rfl
    | (simp only [hide_ite, ite_self, ite_fst, implies_true, eq_self, h_pw, h_out, fabDrain_hide]; done)
    | with_reducible apply hide_if
    | with_reducible apply hide_if1
    | split
    | (rw [forEach_hide])
    | (rw [foldl_hide])
    | (rw [foldlS_hide])
    | (intro; intros; try dsimp only)
    | (simp only [hide_ite, ite_self, ite_fst, implies_true, eq_self, h_pw, h_out, fabDrain_hide])

theorem creditReturn_hide (h_fe : M .fe = true) (h_up : M .up = true) (h_pw : M .pw = true) (h_out : M .out = true) (s : State) (n : Nat) (resp : Bool) (k : Nat) : hide M (State.creditReturn s n resp k) = hide M s := by
  unfold State.creditReturn
  try dsimp only
  repeat' first
    | with_reducible rfl
    | (simp only [hide_ite, ite_self, ite_fst, implies_true, eq_self, h_fe, h_up, h_pw, h_out, fabPresent_hide, fabPump_hide, fabSettle_hide, onPw_hide, rspPump_hide]; done)
    | with_reducible apply hide_if
    | with_reducible apply hide_if1
    | split
    | (rw [forEach_hide])
    | (rw [foldl_hide])
    | (rw [foldlS_hide])
    | (intro; intros; try dsimp only)
    | (simp only [hide_ite, ite_self, ite_fst, implies_true, eq_self, h_fe, h_up, h_pw, h_out, fabPresent_hide, fabPump_hide, fabSettle_hide, onPw_hide, rspPump_hide])

end Sys2Proof.Laws
end

