-- ==== Sys2Proof/Laws/FrameReset.lean ====
section
/-!
SUPPORT. Frames of what Machine/Reset.lean defines: the parts of the state that each may change.
-/

namespace Sys2Proof.Laws

open Sys2Proof.Machine

variable {M : Mask}

theorem cleared_hide (h_regs : M .regs = true) (h_pregs : M .pregs = true) (h_lows : M .lows = true) (h_ctxCfg : M .ctxCfg = true) (h_updCfg : M .updCfg = true) (h_fwdCfg : M .fwdCfg = true) (h_drvCfg : M .drvCfg = true) (h_fe : M .fe = true) (h_xl : M .xl = true) (h_tb : M .tb = true) (h_sp : M .sp = true) (h_qz : M .qz = true) (h_up : M .up = true) (h_ch : M .ch = true) (h_gs : M .gs = true) (h_mem : M .mem = true) (h_fl : M .fl = true) (h_tel : M .tel = true) (h_pw : M .pw = true) (h_st : M .st = true) (h_i3 : M .i3 = true) (h_rl : M .rl = true) (s : State) : hide M (State.cleared s) = hide M s := by
  unfold State.cleared hide hideGs
  simp only [h_regs, h_pregs, h_lows, h_ctxCfg, h_updCfg, h_fwdCfg, h_drvCfg, h_fe, h_xl, h_tb, h_sp, h_qz, h_up, h_ch, h_gs, h_mem, h_fl, h_tel, h_pw, h_st, h_i3, h_rl, if_true]

theorem startCores_hide (h_tel : M .tel = true) (h_st : M .st = true) (s : State) : hide M (State.startCores s) = hide M s := by
  unfold State.startCores
  try dsimp only
  repeat' first
    | with_reducible rfl
    | (simp only [hide_ite, ite_self, ite_fst, implies_true, eq_self, h_tel, h_st, handAudits_hide, onSt_hide, onTel_hide]; done)
    | with_reducible apply hide_if
    | with_reducible apply hide_if1
    | split
    | (rw [forEach_hide])
    | (rw [foldl_hide])
    | (rw [foldlS_hide])
    | (intro; intros; try dsimp only)
    | (simp only [hide_ite, ite_self, ite_fst, implies_true, eq_self, h_tel, h_st, handAudits_hide, onSt_hide, onTel_hide])

theorem serveCh_hide (h_regs : M .regs = true) (h_fe : M .fe = true) (h_tb : M .tb = true) (h_sp : M .sp = true) (h_up : M .up = true) (h_ch : M .ch = true) (h_gs : M .gs = true) (h_mem : M .mem = true) (h_fl : M .fl = true) (h_tel : M .tel = true) (h_st : M .st = true) (h_rl : M .rl = true) (h_free : M .free = true) (h_out : M .out = true) (s : State) (f : Nat) : hide M (State.serveCh s f) = hide M s := by
  unfold State.serveCh
  try dsimp only
  repeat' first
    | with_reducible rfl
    | (simp only [hide_ite, ite_self, ite_fst, implies_true, eq_self, h_regs, h_fe, h_tb, h_sp, h_up, h_ch, h_gs, h_mem, h_fl, h_tel, h_st, h_rl, h_free, h_out, channelAction_hide, loseChannel_hide, onPhys_hide, switchCh_hide]; done)
    | with_reducible apply hide_if
    | with_reducible apply hide_if1
    | split
    | (rw [forEach_hide])
    | (rw [foldl_hide])
    | (rw [foldlS_hide])
    | (intro; intros; try dsimp only)
    | (simp only [hide_ite, ite_self, ite_fst, implies_true, eq_self, h_regs, h_fe, h_tb, h_sp, h_up, h_ch, h_gs, h_mem, h_fl, h_tel, h_st, h_rl, h_free, h_out, channelAction_hide, loseChannel_hide, onPhys_hide, switchCh_hide])

theorem tellLines_hide (h_tel : M .tel = true) (s : State) (n : Nat) : hide M (State.tellLines s n) = hide M s := by
  unfold State.tellLines
  try dsimp only
  repeat' first
    | with_reducible rfl
    | (simp only [hide_ite, ite_self, ite_fst, implies_true, eq_self, h_tel, count_hide, tell_hide]; done)
    | with_reducible apply hide_if
    | with_reducible apply hide_if1
    | split
    | (rw [forEach_hide])
    | (rw [foldl_hide])
    | (rw [foldlS_hide])
    | (intro; intros; try dsimp only)
    | (simp only [hide_ite, ite_self, ite_fst, implies_true, eq_self, h_tel, count_hide, tell_hide])

theorem trainGs_hide (h_gs : M .gs = true) (h_tel : M .tel = true) (s : State) (bad : List (Nat × TgRes)) : hide M (State.trainGs s bad) = hide M s := by
  unfold State.trainGs
  try dsimp only
  repeat' first
    | with_reducible rfl
    | (simp only [hide_ite, ite_self, ite_fst, implies_true, eq_self, h_gs, h_tel, onGs_hide, tellLines_hide]; done)
    | with_reducible apply hide_if
    | with_reducible apply hide_if1
    | split
    | (rw [forEach_hide])
    | (rw [foldl_hide])
    | (rw [foldlS_hide])
    | (intro; intros; try dsimp only)
    | (simp only [hide_ite, ite_self, ite_fst, implies_true, eq_self, h_gs, h_tel, onGs_hide, tellLines_hide])

theorem trainSpares_hide (h_regs : M .regs = true) (h_fe : M .fe = true) (h_tb : M .tb = true) (h_sp : M .sp = true) (h_up : M .up = true) (h_ch : M .ch = true) (h_gs : M .gs = true) (h_mem : M .mem = true) (h_fl : M .fl = true) (h_tel : M .tel = true) (h_st : M .st = true) (h_rl : M .rl = true) (h_free : M .free = true) (h_out : M .out = true) (s : State) (bad : List (Nat × TgRes)) : hide M (State.trainSpares s bad) = hide M s := by
  unfold State.trainSpares
  try dsimp only
  repeat' first
    | with_reducible rfl
    | (simp only [hide_ite, ite_self, ite_fst, implies_true, eq_self, h_regs, h_fe, h_tb, h_sp, h_up, h_ch, h_gs, h_mem, h_fl, h_tel, h_st, h_rl, h_free, h_out, forEach_hide, onGs_hide, serveCh_hide, tellLines_hide]; done)
    | with_reducible apply hide_if
    | with_reducible apply hide_if1
    | split
    | (rw [forEach_hide])
    | (rw [foldl_hide])
    | (rw [foldlS_hide])
    | (intro; intros; try dsimp only)
    | (simp only [hide_ite, ite_self, ite_fst, implies_true, eq_self, h_regs, h_fe, h_tb, h_sp, h_up, h_ch, h_gs, h_mem, h_fl, h_tel, h_st, h_rl, h_free, h_out, forEach_hide, onGs_hide, serveCh_hide, tellLines_hide])

theorem trainFab_hide (h_fe : M .fe = true) (h_up : M .up = true) (h_pw : M .pw = true) (h_out : M .out = true) (s : State) (su : Startup) : hide M (State.trainFab s su) = hide M s := by
  unfold State.trainFab
  try dsimp only
  repeat' first
    | with_reducible rfl
    | (simp only [hide_ite, ite_self, ite_fst, implies_true, eq_self, h_fe, h_up, h_pw, h_out, forEach_hide, fabBegin_hide, onPw_hide]; done)
    | with_reducible apply hide_if
    | with_reducible apply hide_if1
    | split
    | (rw [forEach_hide])
    | (rw [foldl_hide])
    | (rw [foldlS_hide])
    | (intro; intros; try dsimp only)
    | (simp only [hide_ite, ite_self, ite_fst, implies_true, eq_self, h_fe, h_up, h_pw, h_out, forEach_hide, fabBegin_hide, onPw_hide])

theorem trainPorts_hide (h_fe : M .fe = true) (h_up : M .up = true) (h_tel : M .tel = true) (h_pw : M .pw = true) (h_out : M .out = true) (s : State) (su : Startup) : hide M (State.trainPorts s su) = hide M s := by
  unfold State.trainPorts
  try dsimp only
  repeat' first
    | with_reducible rfl
    | (simp only [hide_ite, ite_self, ite_fst, implies_true, eq_self, h_fe, h_up, h_tel, h_pw, h_out, forEach_hide, noteTraining_hide, onPw_hide, trainFab_hide]; done)
    | with_reducible apply hide_if
    | with_reducible apply hide_if1
    | split
    | (rw [forEach_hide])
    | (rw [foldl_hide])
    | (rw [foldlS_hide])
    | (intro; intros; try dsimp only)
    | (simp only [hide_ite, ite_self, ite_fst, implies_true, eq_self, h_fe, h_up, h_tel, h_pw, h_out, forEach_hide, noteTraining_hide, onPw_hide, trainFab_hide])

theorem stuck_hide (h_pw : M .pw = true) (s : State) (step fail : Nat) : hide M (State.stuck s step fail) = hide M s := by
  unfold State.stuck
  simp only [eq_self, h_pw, onPw_hide]

theorem enterEmerg_hide (h_tel : M .tel = true) (s : State) : hide M (State.enterEmerg s) = hide M s := by
  unfold State.enterEmerg
  try dsimp only
  repeat' first
    | with_reducible rfl
    | (simp only [hide_ite, ite_self, ite_fst, implies_true, eq_self, h_tel, count_hide, tell_hide]; done)
    | with_reducible apply hide_if
    | with_reducible apply hide_if1
    | split
    | (rw [forEach_hide])
    | (rw [foldl_hide])
    | (rw [foldlS_hide])
    | (intro; intros; try dsimp only)
    | (simp only [hide_ite, ite_self, ite_fst, implies_true, eq_self, h_tel, count_hide, tell_hide])

theorem goReady_hide (h_regs : M .regs = true) (h_fe : M .fe = true) (h_tb : M .tb = true) (h_sp : M .sp = true) (h_up : M .up = true) (h_ch : M .ch = true) (h_gs : M .gs = true) (h_mem : M .mem = true) (h_fl : M .fl = true) (h_tel : M .tel = true) (h_pw : M .pw = true) (h_st : M .st = true) (h_rl : M .rl = true) (h_free : M .free = true) (h_out : M .out = true) (s : State) (su : Startup) : hide M (State.goReady s su) = hide M s := by
  unfold State.goReady
  try dsimp only
  repeat' first
    | with_reducible rfl
    | (simp only [hide_ite, ite_self, ite_fst, implies_true, eq_self, h_regs, h_fe, h_tb, h_sp, h_up, h_ch, h_gs, h_mem, h_fl, h_tel, h_pw, h_st, h_rl, h_free, h_out, enterEmerg_hide, onPw_hide, trainSpares_hide]; done)
    | with_reducible apply hide_if
    | with_reducible apply hide_if1
    | split
    | (rw [forEach_hide])
    | (rw [foldl_hide])
    | (rw [foldlS_hide])
    | (intro; intros; try dsimp only)
    | (simp only [hide_ite, ite_self, ite_fst, implies_true, eq_self, h_regs, h_fe, h_tb, h_sp, h_up, h_ch, h_gs, h_mem, h_fl, h_tel, h_pw, h_st, h_rl, h_free, h_out, enterEmerg_hide, onPw_hide, trainSpares_hide])

theorem stepEight_hide (h_regs : M .regs = true) (h_fe : M .fe = true) (h_tb : M .tb = true) (h_sp : M .sp = true) (h_up : M .up = true) (h_ch : M .ch = true) (h_gs : M .gs = true) (h_mem : M .mem = true) (h_fl : M .fl = true) (h_tel : M .tel = true) (h_pw : M .pw = true) (h_st : M .st = true) (h_rl : M .rl = true) (h_free : M .free = true) (h_out : M .out = true) (s : State) (su : Startup) : hide M (State.stepEight s su) = hide M s := by
  unfold State.stepEight
  try dsimp only
  repeat' first
    | with_reducible rfl
    | (simp only [hide_ite, ite_self, ite_fst, implies_true, eq_self, h_regs, h_fe, h_tb, h_sp, h_up, h_ch, h_gs, h_mem, h_fl, h_tel, h_pw, h_st, h_rl, h_free, h_out, countN_hide, goReady_hide, onPw_hide, sendAll_hide, send_hide, stuck_hide]; done)
    | with_reducible apply hide_if
    | with_reducible apply hide_if1
    | split
    | (rw [forEach_hide])
    | (rw [foldl_hide])
    | (rw [foldlS_hide])
    | (intro; intros; try dsimp only)
    | (simp only [hide_ite, ite_self, ite_fst, implies_true, eq_self, h_regs, h_fe, h_tb, h_sp, h_up, h_ch, h_gs, h_mem, h_fl, h_tel, h_pw, h_st, h_rl, h_free, h_out, countN_hide, goReady_hide, onPw_hide, sendAll_hide, send_hide, stuck_hide])

theorem startRest_hide (h_regs : M .regs = true) (h_fe : M .fe = true) (h_tb : M .tb = true) (h_sp : M .sp = true) (h_up : M .up = true) (h_ch : M .ch = true) (h_gs : M .gs = true) (h_mem : M .mem = true) (h_fl : M .fl = true) (h_tel : M .tel = true) (h_pw : M .pw = true) (h_st : M .st = true) (h_rl : M .rl = true) (h_free : M .free = true) (h_out : M .out = true) (s : State) (su : Startup) : hide M (State.startRest s su) = hide M s := by
  unfold State.startRest
  try dsimp only
  repeat' first
    | with_reducible rfl
    | (simp only [hide_ite, ite_self, ite_fst, implies_true, eq_self, h_regs, h_fe, h_tb, h_sp, h_up, h_ch, h_gs, h_mem, h_fl, h_tel, h_pw, h_st, h_rl, h_free, h_out, stepEight_hide, stuck_hide, trainGs_hide, trainPorts_hide]; done)
    | with_reducible apply hide_if
    | with_reducible apply hide_if1
    | split
    | (rw [forEach_hide])
    | (rw [foldl_hide])
    | (rw [foldlS_hide])
    | (intro; intros; try dsimp only)
    | (simp only [hide_ite, ite_self, ite_fst, implies_true, eq_self, h_regs, h_fe, h_tb, h_sp, h_up, h_ch, h_gs, h_mem, h_fl, h_tel, h_pw, h_st, h_rl, h_free, h_out, stepEight_hide, stuck_hide, trainGs_hide, trainPorts_hide])

theorem bootFlash_hide (h_tel : M .tel = true) (h_pw : M .pw = true) (s : State) (ok : Bool) : hide M (State.bootFlash s ok) = hide M s := by
  unfold State.bootFlash
  try dsimp only
  repeat' first
    | with_reducible rfl
    | (simp only [hide_ite, ite_self, ite_fst, implies_true, eq_self, h_tel, h_pw, onPw_hide, tell_hide]; done)
    | with_reducible apply hide_if
    | with_reducible apply hide_if1
    | split
    | (rw [forEach_hide])
    | (rw [foldl_hide])
    | (rw [foldlS_hide])
    | (intro; intros; try dsimp only)
    | (simp only [hide_ite, ite_self, ite_fst, implies_true, eq_self, h_tel, h_pw, onPw_hide, tell_hide])

theorem startOn_hide (h_regs : M .regs = true) (h_fe : M .fe = true) (h_tb : M .tb = true) (h_sp : M .sp = true) (h_up : M .up = true) (h_ch : M .ch = true) (h_gs : M .gs = true) (h_mem : M .mem = true) (h_fl : M .fl = true) (h_tel : M .tel = true) (h_pw : M .pw = true) (h_st : M .st = true) (h_rl : M .rl = true) (h_free : M .free = true) (h_out : M .out = true) (s : State) (su : Startup) (hold : Bool) : hide M (State.startOn s su hold) = hide M s := by
  unfold State.startOn
  try dsimp only
  repeat' first
    | with_reducible rfl
    | (simp only [hide_ite, ite_self, ite_fst, implies_true, eq_self, h_regs, h_fe, h_tb, h_sp, h_up, h_ch, h_gs, h_mem, h_fl, h_tel, h_pw, h_st, h_rl, h_free, h_out, bootFlash_hide, onPw_hide, onSt_hide, startCores_hide, startRest_hide, stuck_hide]; done)
    | with_reducible apply hide_if
    | with_reducible apply hide_if1
    | split
    | (rw [forEach_hide])
    | (rw [foldl_hide])
    | (rw [foldlS_hide])
    | (intro; intros; try dsimp only)
    | (simp only [hide_ite, ite_self, ite_fst, implies_true, eq_self, h_regs, h_fe, h_tb, h_sp, h_up, h_ch, h_gs, h_mem, h_fl, h_tel, h_pw, h_st, h_rl, h_free, h_out, bootFlash_hide, onPw_hide, onSt_hide, startCores_hide, startRest_hide, stuck_hide])

theorem startUp_hide (h_regs : M .regs = true) (h_fe : M .fe = true) (h_tb : M .tb = true) (h_sp : M .sp = true) (h_up : M .up = true) (h_ch : M .ch = true) (h_gs : M .gs = true) (h_mem : M .mem = true) (h_fl : M .fl = true) (h_tel : M .tel = true) (h_pw : M .pw = true) (h_st : M .st = true) (h_rl : M .rl = true) (h_free : M .free = true) (h_out : M .out = true) (s : State) (su : Startup) (hold : Bool) : hide M (State.startUp s su hold) = hide M s := by
  unfold State.startUp
  try dsimp only
  repeat' first
    | with_reducible rfl
    | (simp only [hide_ite, ite_self, ite_fst, implies_true, eq_self, h_regs, h_fe, h_tb, h_sp, h_up, h_ch, h_gs, h_mem, h_fl, h_tel, h_pw, h_st, h_rl, h_free, h_out, onPw_hide, startOn_hide, stuck_hide]; done)
    | with_reducible apply hide_if
    | with_reducible apply hide_if1
    | split
    | (rw [forEach_hide])
    | (rw [foldl_hide])
    | (rw [foldlS_hide])
    | (intro; intros; try dsimp only)
    | (simp only [hide_ite, ite_self, ite_fst, implies_true, eq_self, h_regs, h_fe, h_tb, h_sp, h_up, h_ch, h_gs, h_mem, h_fl, h_tel, h_pw, h_st, h_rl, h_free, h_out, onPw_hide, startOn_hide, stuck_hide])

theorem blockReset_hide (h_regs : M .regs = true) (h_pregs : M .pregs = true) (h_lows : M .lows = true) (h_ctxCfg : M .ctxCfg = true) (h_updCfg : M .updCfg = true) (h_fwdCfg : M .fwdCfg = true) (h_drvCfg : M .drvCfg = true) (h_fe : M .fe = true) (h_xl : M .xl = true) (h_tb : M .tb = true) (h_sp : M .sp = true) (h_qz : M .qz = true) (h_up : M .up = true) (h_ch : M .ch = true) (h_gs : M .gs = true) (h_mem : M .mem = true) (h_fl : M .fl = true) (h_tel : M .tel = true) (h_pw : M .pw = true) (h_st : M .st = true) (h_i3 : M .i3 = true) (h_rl : M .rl = true) (h_free : M .free = true) (h_out : M .out = true) (s : State) (cause : Nat) (firmware : Bool) (su : Startup) : hide M (State.blockReset s cause firmware su) = hide M s := by
  unfold State.blockReset
  try dsimp only
  repeat' first
    | with_reducible rfl
    | (simp only [hide_ite, ite_self, ite_fst, implies_true, eq_self, h_regs, h_pregs, h_lows, h_ctxCfg, h_updCfg, h_fwdCfg, h_drvCfg, h_fe, h_xl, h_tb, h_sp, h_qz, h_up, h_ch, h_gs, h_mem, h_fl, h_tel, h_pw, h_st, h_i3, h_rl, h_free, h_out, cleared_hide, onPw_hide, onTel_hide, startUp_hide]; done)
    | with_reducible apply hide_if
    | with_reducible apply hide_if1
    | split
    | (rw [forEach_hide])
    | (rw [foldl_hide])
    | (rw [foldlS_hide])
    | (intro; intros; try dsimp only)
    | (simp only [hide_ite, ite_self, ite_fst, implies_true, eq_self, h_regs, h_pregs, h_lows, h_ctxCfg, h_updCfg, h_fwdCfg, h_drvCfg, h_fe, h_xl, h_tb, h_sp, h_qz, h_up, h_ch, h_gs, h_mem, h_fl, h_tel, h_pw, h_st, h_i3, h_rl, h_free, h_out, cleared_hide, onPw_hide, onTel_hide, startUp_hide])

theorem powerOn_hide (h_regs : M .regs = true) (h_pregs : M .pregs = true) (h_lows : M .lows = true) (h_ctxCfg : M .ctxCfg = true) (h_updCfg : M .updCfg = true) (h_fwdCfg : M .fwdCfg = true) (h_drvCfg : M .drvCfg = true) (h_fe : M .fe = true) (h_xl : M .xl = true) (h_tb : M .tb = true) (h_sp : M .sp = true) (h_qz : M .qz = true) (h_up : M .up = true) (h_ch : M .ch = true) (h_gs : M .gs = true) (h_mem : M .mem = true) (h_fl : M .fl = true) (h_tel : M .tel = true) (h_pw : M .pw = true) (h_st : M .st = true) (h_i3 : M .i3 = true) (h_rl : M .rl = true) (h_free : M .free = true) (h_out : M .out = true) (s : State) (su : Startup) : hide M (State.powerOn s su) = hide M s := by
  unfold State.powerOn
  try dsimp only
  repeat' first
    | with_reducible rfl
    | (simp only [hide_ite, ite_self, ite_fst, implies_true, eq_self, h_regs, h_pregs, h_lows, h_ctxCfg, h_updCfg, h_fwdCfg, h_drvCfg, h_fe, h_xl, h_tb, h_sp, h_qz, h_up, h_ch, h_gs, h_mem, h_fl, h_tel, h_pw, h_st, h_i3, h_rl, h_free, h_out, cleared_hide, onPw_hide, onTel_hide, startUp_hide]; done)
    | with_reducible apply hide_if
    | with_reducible apply hide_if1
    | split
    | (rw [forEach_hide])
    | (rw [foldl_hide])
    | (rw [foldlS_hide])
    | (intro; intros; try dsimp only)
    | (simp only [hide_ite, ite_self, ite_fst, implies_true, eq_self, h_regs, h_pregs, h_lows, h_ctxCfg, h_updCfg, h_fwdCfg, h_drvCfg, h_fe, h_xl, h_tb, h_sp, h_qz, h_up, h_ch, h_gs, h_mem, h_fl, h_tel, h_pw, h_st, h_i3, h_rl, h_free, h_out, cleared_hide, onPw_hide, onTel_hide, startUp_hide])

end Sys2Proof.Laws
end

