-- ==== Sys2Proof/Laws/CanonReset.lean ====
section
/-!
SUPPORT. What Machine/Reset.lean defines keeps Ground store's bytes in canonical form.
-/

namespace Sys2Proof.Laws

open Sys2Proof.Machine

theorem cleared_canon (s : State) (hs : Canon (hide butMem s)) : Canon (hide butMem (State.cleared s)) := rfl

theorem serveCh_canon (s : State) (f : Nat) (hs : Canon (hide butMem s)) : Canon (hide butMem (State.serveCh s f)) := by
  unfold State.serveCh
  try dsimp only
  repeat' first
    | with_reducible assumption
    | split
    | (with_reducible apply channelAction_canon)
    | (with_reducible apply switchCh_canon)
    | with_reducible apply forEach_canon
    | with_reducible apply foldl_canon
    | (intro; intros; try dsimp only)
    | (simp only [loseChannel_hide (M := butMem) rfl rfl rfl rfl rfl rfl rfl rfl rfl rfl, onPhys_hide (M := butMem) rfl, implies_true, eq_self])

theorem trainSpares_canon (s : State) (bad : List (Nat × TgRes)) (hs : Canon (hide butMem s)) : Canon (hide butMem (State.trainSpares s bad)) := by
  unfold State.trainSpares
  try dsimp only
  repeat' first
    | with_reducible assumption
    | split
    | (with_reducible apply serveCh_canon)
    | with_reducible apply forEach_canon
    | with_reducible apply foldl_canon
    | (intro; intros; try dsimp only)
    | (simp only [tellLines_hide (M := butMem) rfl, onGs_hide (M := butMem) rfl, forEach_hide, implies_true, eq_self])

theorem goReady_canon (s : State) (su : Startup) (hs : Canon (hide butMem s)) : Canon (hide butMem (State.goReady s su)) := by
  unfold State.goReady
  try dsimp only
  repeat' first
    | with_reducible assumption
    | split
    | (with_reducible apply trainSpares_canon)
    | with_reducible apply forEach_canon
    | with_reducible apply foldl_canon
    | (intro; intros; try dsimp only)
    | (simp only [enterEmerg_hide (M := butMem) rfl, onPw_hide (M := butMem) rfl, implies_true, eq_self])

theorem stepEight_canon (s : State) (su : Startup) (hs : Canon (hide butMem s)) : Canon (hide butMem (State.stepEight s su)) := by
  unfold State.stepEight
  try dsimp only
  repeat' first
    | with_reducible assumption
    | split
    | (with_reducible apply goReady_canon)
    | with_reducible apply forEach_canon
    | with_reducible apply foldl_canon
    | (intro; intros; try dsimp only)
    | (simp only [countN_hide (M := butMem) rfl, send_hide (M := butMem) rfl, sendAll_hide (M := butMem) rfl, stuck_hide (M := butMem) rfl, onPw_hide (M := butMem) rfl, implies_true, eq_self])

theorem startRest_canon (s : State) (su : Startup) (hs : Canon (hide butMem s)) : Canon (hide butMem (State.startRest s su)) := by
  unfold State.startRest
  try dsimp only
  repeat' first
    | with_reducible assumption
    | split
    | (with_reducible apply stepEight_canon)
    | with_reducible apply forEach_canon
    | with_reducible apply foldl_canon
    | (intro; intros; try dsimp only)
    | (simp only [stuck_hide (M := butMem) rfl, trainGs_hide (M := butMem) rfl rfl, trainPorts_hide (M := butMem) rfl rfl rfl rfl rfl, implies_true, eq_self])

theorem startOn_canon (s : State) (su : Startup) (hold : Bool) (hs : Canon (hide butMem s)) : Canon (hide butMem (State.startOn s su hold)) := by
  unfold State.startOn
  try dsimp only
  repeat' first
    | with_reducible assumption
    | split
    | (with_reducible apply startRest_canon)
    | with_reducible apply forEach_canon
    | with_reducible apply foldl_canon
    | (intro; intros; try dsimp only)
    | (simp only [bootFlash_hide (M := butMem) rfl rfl, startCores_hide (M := butMem) rfl rfl, stuck_hide (M := butMem) rfl, onPw_hide (M := butMem) rfl, onSt_hide (M := butMem) rfl, implies_true, eq_self])

theorem startUp_canon (s : State) (su : Startup) (hold : Bool) (hs : Canon (hide butMem s)) : Canon (hide butMem (State.startUp s su hold)) := by
  unfold State.startUp
  try dsimp only
  repeat' first
    | with_reducible assumption
    | split
    | (with_reducible apply startOn_canon)
    | with_reducible apply forEach_canon
    | with_reducible apply foldl_canon
    | (intro; intros; try dsimp only)
    | (simp only [stuck_hide (M := butMem) rfl, onPw_hide (M := butMem) rfl, implies_true, eq_self])

theorem blockReset_canon (s : State) (cause : Nat) (firmware : Bool) (su : Startup) (hs : Canon (hide butMem s)) : Canon (hide butMem (State.blockReset s cause firmware su)) := by
  unfold State.blockReset
  try dsimp only
  repeat' first
    | with_reducible assumption
    | split
    | (with_reducible apply cleared_canon)
    | (with_reducible apply startUp_canon)
    | with_reducible apply forEach_canon
    | with_reducible apply foldl_canon
    | (intro; intros; try dsimp only)
    | (simp only [onTel_hide (M := butMem) rfl, onPw_hide (M := butMem) rfl, implies_true, eq_self])

theorem powerOn_canon (s : State) (su : Startup) (hs : Canon (hide butMem s)) : Canon (hide butMem (State.powerOn s su)) := by
  unfold State.powerOn
  try dsimp only
  repeat' first
    | with_reducible assumption
    | split
    | (with_reducible apply cleared_canon)
    | (with_reducible apply startUp_canon)
    | with_reducible apply forEach_canon
    | with_reducible apply foldl_canon
    | (intro; intros; try dsimp only)
    | (simp only [onTel_hide (M := butMem) rfl, onPw_hide (M := butMem) rfl, implies_true, eq_self])

end Sys2Proof.Laws
end

