-- ==== Sys2Proof/Laws/FramePower.lean ====
section
/-!
SUPPORT. Frames of what Machine/Power.lean defines: the parts of the state that each may change.
-/

namespace Sys2Proof.Laws

open Sys2Proof.Machine

variable {M : Mask}

theorem enterState_hide (h_tel : M .tel = true) (h_pw : M .pw = true) (h_out : M .out = true) (s : State) (t : Nat) : hide M (State.enterState s t) = hide M s := by
  unfold State.enterState
  simp only [eq_self, h_tel, h_pw, h_out, onPw_hide, send_hide, tell_hide]

theorem reservedReq_hide (h_tel : M .tel = true) (h_out : M .out = true) (s : State) : hide M (State.reservedReq s) = hide M s := by
  unfold State.reservedReq
  simp only [eq_self, h_tel, h_out, count_hide, send_hide]

theorem serveState_hide (h_tel : M .tel = true) (h_pw : M .pw = true) (h_out : M .out = true) (s : State) (target : Nat) : hide M (State.serveState s target) = hide M s := by
  unfold State.serveState
  simp only [hide_ite, ite_self, eq_self, h_tel, h_pw, h_out, count_hide, enterState_hide, onPw_hide]

theorem writeAll_hide (h_tb : M .tb = true) (h_up : M .up = true) (h_ch : M .ch = true) (h_gs : M .gs = true) (h_fl : M .fl = true) (h_tel : M .tel = true) (h_out : M .out = true) (s : State) (fails : WbFails) : hide M (State.writeAll s fails) = hide M s := by
  unfold State.writeAll
  try dsimp only
  repeat' first
    | with_reducible rfl
    | (simp only [hide_ite, ite_self, ite_fst, implies_true, eq_self, h_tb, h_up, h_ch, h_gs, h_fl, h_tel, h_out, forEach_hide, writeBackRow_hide]; done)
    | with_reducible apply hide_if
    | with_reducible apply hide_if1
    | split
    | (rw [forEach_hide])
    | (rw [foldl_hide])
    | (rw [foldlS_hide])
    | (intro; intros; try dsimp only)
    | (simp only [hide_ite, ite_self, ite_fst, implies_true, eq_self, h_tb, h_up, h_ch, h_gs, h_fl, h_tel, h_out, forEach_hide, writeBackRow_hide])

theorem logLost_hide (h_tel : M .tel = true) (s : State) (n : Nat) : hide M (State.logLost s n) = hide M s := by
  unfold State.logLost
  simp only [hide_ite, ite_self, eq_self, h_tel, onTel_hide]

theorem enterOff_hide (h_regs : M .regs = true) (h_pregs : M .pregs = true) (h_lows : M .lows = true) (h_ctxCfg : M .ctxCfg = true) (h_updCfg : M .updCfg = true) (h_fwdCfg : M .fwdCfg = true) (h_drvCfg : M .drvCfg = true) (h_fe : M .fe = true) (h_xl : M .xl = true) (h_tb : M .tb = true) (h_sp : M .sp = true) (h_qz : M .qz = true) (h_up : M .up = true) (h_ch : M .ch = true) (h_gs : M .gs = true) (h_mem : M .mem = true) (h_fl : M .fl = true) (h_tel : M .tel = true) (h_pw : M .pw = true) (h_st : M .st = true) (h_i3 : M .i3 = true) (h_rl : M .rl = true) (h_out : M .out = true) (s : State) (fails : WbFails) : hide M (State.enterOff s fails) = hide M s := by
  unfold State.enterOff
  try dsimp only
  repeat' first
    | with_reducible rfl
    | (simp only [hide_ite, ite_self, ite_fst, implies_true, eq_self, h_regs, h_pregs, h_lows, h_ctxCfg, h_updCfg, h_fwdCfg, h_drvCfg, h_fe, h_xl, h_tb, h_sp, h_qz, h_up, h_ch, h_gs, h_mem, h_fl, h_tel, h_pw, h_st, h_i3, h_rl, h_out, cleared_hide, count_hide, logLost_hide, onPw_hide, onTel_hide, sendAll_hide, send_hide, tell_hide, writeAll_hide]; done)
    | with_reducible apply hide_if
    | with_reducible apply hide_if1
    | split
    | (rw [forEach_hide])
    | (rw [foldl_hide])
    | (rw [foldlS_hide])
    | (intro; intros; try dsimp only)
    | (simp only [hide_ite, ite_self, ite_fst, implies_true, eq_self, h_regs, h_pregs, h_lows, h_ctxCfg, h_updCfg, h_fwdCfg, h_drvCfg, h_fe, h_xl, h_tb, h_sp, h_qz, h_up, h_ch, h_gs, h_mem, h_fl, h_tel, h_pw, h_st, h_i3, h_rl, h_out, cleared_hide, count_hide, logLost_hide, onPw_hide, onTel_hide, sendAll_hide, send_hide, tell_hide, writeAll_hide])

theorem offEnd_hide (h_regs : M .regs = true) (h_pregs : M .pregs = true) (h_lows : M .lows = true) (h_ctxCfg : M .ctxCfg = true) (h_updCfg : M .updCfg = true) (h_fwdCfg : M .fwdCfg = true) (h_drvCfg : M .drvCfg = true) (h_fe : M .fe = true) (h_xl : M .xl = true) (h_tb : M .tb = true) (h_sp : M .sp = true) (h_qz : M .qz = true) (h_up : M .up = true) (h_ch : M .ch = true) (h_gs : M .gs = true) (h_mem : M .mem = true) (h_fl : M .fl = true) (h_tel : M .tel = true) (h_pw : M .pw = true) (h_st : M .st = true) (h_i3 : M .i3 = true) (h_rl : M .rl = true) (h_out : M .out = true) (s : State) : hide M (State.offEnd s) = hide M s := by
  unfold State.offEnd
  try dsimp only
  repeat' first
    | with_reducible rfl
    | (simp only [hide_ite, ite_self, ite_fst, implies_true, eq_self, h_regs, h_pregs, h_lows, h_ctxCfg, h_updCfg, h_fwdCfg, h_drvCfg, h_fe, h_xl, h_tb, h_sp, h_qz, h_up, h_ch, h_gs, h_mem, h_fl, h_tel, h_pw, h_st, h_i3, h_rl, h_out, enterOff_hide]; done)
    | with_reducible apply hide_if
    | with_reducible apply hide_if1
    | split
    | (rw [forEach_hide])
    | (rw [foldl_hide])
    | (rw [foldlS_hide])
    | (intro; intros; try dsimp only)
    | (simp only [hide_ite, ite_self, ite_fst, implies_true, eq_self, h_regs, h_pregs, h_lows, h_ctxCfg, h_updCfg, h_fwdCfg, h_drvCfg, h_fe, h_xl, h_tb, h_sp, h_qz, h_up, h_ch, h_gs, h_mem, h_fl, h_tel, h_pw, h_st, h_i3, h_rl, h_out, enterOff_hide])

theorem goOff_hide (h_regs : M .regs = true) (h_pregs : M .pregs = true) (h_lows : M .lows = true) (h_ctxCfg : M .ctxCfg = true) (h_updCfg : M .updCfg = true) (h_fwdCfg : M .fwdCfg = true) (h_drvCfg : M .drvCfg = true) (h_fe : M .fe = true) (h_xl : M .xl = true) (h_tb : M .tb = true) (h_sp : M .sp = true) (h_qz : M .qz = true) (h_up : M .up = true) (h_ch : M .ch = true) (h_gs : M .gs = true) (h_mem : M .mem = true) (h_fl : M .fl = true) (h_tel : M .tel = true) (h_pw : M .pw = true) (h_st : M .st = true) (h_i3 : M .i3 = true) (h_rl : M .rl = true) (h_out : M .out = true) (s : State) (fails : WbFails) : hide M (State.goOff s fails) = hide M s := by
  unfold State.goOff
  try dsimp only
  repeat' first
    | with_reducible rfl
    | (simp only [hide_ite, ite_self, ite_fst, implies_true, eq_self, h_regs, h_pregs, h_lows, h_ctxCfg, h_updCfg, h_fwdCfg, h_drvCfg, h_fe, h_xl, h_tb, h_sp, h_qz, h_up, h_ch, h_gs, h_mem, h_fl, h_tel, h_pw, h_st, h_i3, h_rl, h_out, forEach_hide, fabDrain_hide, offEnd_hide, onPw_hide]; done)
    | with_reducible apply hide_if
    | with_reducible apply hide_if1
    | split
    | (rw [forEach_hide])
    | (rw [foldl_hide])
    | (rw [foldlS_hide])
    | (intro; intros; try dsimp only)
    | (simp only [hide_ite, ite_self, ite_fst, implies_true, eq_self, h_regs, h_pregs, h_lows, h_ctxCfg, h_updCfg, h_fwdCfg, h_drvCfg, h_fe, h_xl, h_tb, h_sp, h_qz, h_up, h_ch, h_gs, h_mem, h_fl, h_tel, h_pw, h_st, h_i3, h_rl, h_out, forEach_hide, fabDrain_hide, offEnd_hide, onPw_hide])

theorem pmhRequest_hide (h_regs : M .regs = true) (h_pregs : M .pregs = true) (h_lows : M .lows = true) (h_ctxCfg : M .ctxCfg = true) (h_updCfg : M .updCfg = true) (h_fwdCfg : M .fwdCfg = true) (h_drvCfg : M .drvCfg = true) (h_fe : M .fe = true) (h_xl : M .xl = true) (h_tb : M .tb = true) (h_sp : M .sp = true) (h_qz : M .qz = true) (h_up : M .up = true) (h_ch : M .ch = true) (h_gs : M .gs = true) (h_mem : M .mem = true) (h_fl : M .fl = true) (h_tel : M .tel = true) (h_pw : M .pw = true) (h_st : M .st = true) (h_i3 : M .i3 = true) (h_rl : M .rl = true) (h_out : M .out = true) (s : State) (target : Nat) (fails : WbFails) : hide M (State.pmhRequest s target fails) = hide M s := by
  unfold State.pmhRequest
  try dsimp only
  repeat' first
    | with_reducible rfl
    | (simp only [hide_ite, ite_self, ite_fst, implies_true, eq_self, h_regs, h_pregs, h_lows, h_ctxCfg, h_updCfg, h_fwdCfg, h_drvCfg, h_fe, h_xl, h_tb, h_sp, h_qz, h_up, h_ch, h_gs, h_mem, h_fl, h_tel, h_pw, h_st, h_i3, h_rl, h_out, goOff_hide, onPw_hide, reservedReq_hide, serveState_hide]; done)
    | with_reducible apply hide_if
    | with_reducible apply hide_if1
    | split
    | (rw [forEach_hide])
    | (rw [foldl_hide])
    | (rw [foldlS_hide])
    | (intro; intros; try dsimp only)
    | (simp only [hide_ite, ite_self, ite_fst, implies_true, eq_self, h_regs, h_pregs, h_lows, h_ctxCfg, h_updCfg, h_fwdCfg, h_drvCfg, h_fe, h_xl, h_tb, h_sp, h_qz, h_up, h_ch, h_gs, h_mem, h_fl, h_tel, h_pw, h_st, h_i3, h_rl, h_out, goOff_hide, onPw_hide, reservedReq_hide, serveState_hide])

theorem serveHeld_hide (h_regs : M .regs = true) (h_pregs : M .pregs = true) (h_lows : M .lows = true) (h_ctxCfg : M .ctxCfg = true) (h_updCfg : M .updCfg = true) (h_fwdCfg : M .fwdCfg = true) (h_drvCfg : M .drvCfg = true) (h_fe : M .fe = true) (h_xl : M .xl = true) (h_tb : M .tb = true) (h_sp : M .sp = true) (h_qz : M .qz = true) (h_up : M .up = true) (h_ch : M .ch = true) (h_gs : M .gs = true) (h_mem : M .mem = true) (h_fl : M .fl = true) (h_tel : M .tel = true) (h_pw : M .pw = true) (h_st : M .st = true) (h_i3 : M .i3 = true) (h_rl : M .rl = true) (h_out : M .out = true) (s : State) : hide M (State.serveHeld s) = hide M s := by
  unfold State.serveHeld
  simp only [implies_true, eq_self, h_regs, h_pregs, h_lows, h_ctxCfg, h_updCfg, h_fwdCfg, h_drvCfg, h_fe, h_xl, h_tb, h_sp, h_qz, h_up, h_ch, h_gs, h_mem, h_fl, h_tel, h_pw, h_st, h_i3, h_rl, h_out, forEach_hide, onPw_hide, pmhRequest_hide]

theorem afterStart_hide (h_regs : M .regs = true) (h_pregs : M .pregs = true) (h_lows : M .lows = true) (h_ctxCfg : M .ctxCfg = true) (h_updCfg : M .updCfg = true) (h_fwdCfg : M .fwdCfg = true) (h_drvCfg : M .drvCfg = true) (h_fe : M .fe = true) (h_xl : M .xl = true) (h_tb : M .tb = true) (h_sp : M .sp = true) (h_qz : M .qz = true) (h_up : M .up = true) (h_ch : M .ch = true) (h_gs : M .gs = true) (h_mem : M .mem = true) (h_fl : M .fl = true) (h_tel : M .tel = true) (h_pw : M .pw = true) (h_st : M .st = true) (h_i3 : M .i3 = true) (h_rl : M .rl = true) (h_out : M .out = true) (s : State) : hide M (State.afterStart s) = hide M s := by
  unfold State.afterStart
  try dsimp only
  repeat' first
    | with_reducible rfl
    | (simp only [hide_ite, ite_self, ite_fst, implies_true, eq_self, h_regs, h_pregs, h_lows, h_ctxCfg, h_updCfg, h_fwdCfg, h_drvCfg, h_fe, h_xl, h_tb, h_sp, h_qz, h_up, h_ch, h_gs, h_mem, h_fl, h_tel, h_pw, h_st, h_i3, h_rl, h_out, serveHeld_hide]; done)
    | with_reducible apply hide_if
    | with_reducible apply hide_if1
    | split
    | (rw [forEach_hide])
    | (rw [foldl_hide])
    | (rw [foldlS_hide])
    | (intro; intros; try dsimp only)
    | (simp only [hide_ite, ite_self, ite_fst, implies_true, eq_self, h_regs, h_pregs, h_lows, h_ctxCfg, h_updCfg, h_fwdCfg, h_drvCfg, h_fe, h_xl, h_tb, h_sp, h_qz, h_up, h_ch, h_gs, h_mem, h_fl, h_tel, h_pw, h_st, h_i3, h_rl, h_out, serveHeld_hide])

theorem endExchange_hide (h_regs : M .regs = true) (h_pregs : M .pregs = true) (h_lows : M .lows = true) (h_ctxCfg : M .ctxCfg = true) (h_updCfg : M .updCfg = true) (h_fwdCfg : M .fwdCfg = true) (h_drvCfg : M .drvCfg = true) (h_fe : M .fe = true) (h_xl : M .xl = true) (h_tb : M .tb = true) (h_sp : M .sp = true) (h_qz : M .qz = true) (h_up : M .up = true) (h_ch : M .ch = true) (h_gs : M .gs = true) (h_mem : M .mem = true) (h_fl : M .fl = true) (h_tel : M .tel = true) (h_pw : M .pw = true) (h_st : M .st = true) (h_i3 : M .i3 = true) (h_rl : M .rl = true) (h_out : M .out = true) (s : State) : hide M (State.endExchange s) = hide M s := by
  unfold State.endExchange
  try dsimp only
  repeat' first
    | with_reducible rfl
    | (simp only [hide_ite, ite_self, ite_fst, implies_true, eq_self, h_regs, h_pregs, h_lows, h_ctxCfg, h_updCfg, h_fwdCfg, h_drvCfg, h_fe, h_xl, h_tb, h_sp, h_qz, h_up, h_ch, h_gs, h_mem, h_fl, h_tel, h_pw, h_st, h_i3, h_rl, h_out, enterState_hide, fabSettle_hide, offEnd_hide, serveHeld_hide]; done)
    | with_reducible apply hide_if
    | with_reducible apply hide_if1
    | split
    | (rw [forEach_hide])
    | (rw [foldl_hide])
    | (rw [foldlS_hide])
    | (intro; intros; try dsimp only)
    | (simp only [hide_ite, ite_self, ite_fst, implies_true, eq_self, h_regs, h_pregs, h_lows, h_ctxCfg, h_updCfg, h_fwdCfg, h_drvCfg, h_fe, h_xl, h_tb, h_sp, h_qz, h_up, h_ch, h_gs, h_mem, h_fl, h_tel, h_pw, h_st, h_i3, h_rl, h_out, enterState_hide, fabSettle_hide, offEnd_hide, serveHeld_hide])

theorem rest_hide (h_regs : M .regs = true) (h_pregs : M .pregs = true) (h_lows : M .lows = true) (h_ctxCfg : M .ctxCfg = true) (h_updCfg : M .updCfg = true) (h_fwdCfg : M .fwdCfg = true) (h_drvCfg : M .drvCfg = true) (h_fe : M .fe = true) (h_xl : M .xl = true) (h_tb : M .tb = true) (h_sp : M .sp = true) (h_qz : M .qz = true) (h_up : M .up = true) (h_ch : M .ch = true) (h_gs : M .gs = true) (h_mem : M .mem = true) (h_fl : M .fl = true) (h_tel : M .tel = true) (h_pw : M .pw = true) (h_st : M .st = true) (h_i3 : M .i3 = true) (h_rl : M .rl = true) (h_out : M .out = true) (isOpen : Bool) (s : State) : hide M (State.rest isOpen s) = hide M s := by
  unfold State.rest
  try dsimp only
  repeat' first
    | with_reducible rfl
    | (simp only [hide_ite, ite_self, ite_fst, implies_true, eq_self, h_regs, h_pregs, h_lows, h_ctxCfg, h_updCfg, h_fwdCfg, h_drvCfg, h_fe, h_xl, h_tb, h_sp, h_qz, h_up, h_ch, h_gs, h_mem, h_fl, h_tel, h_pw, h_st, h_i3, h_rl, h_out, endExchange_hide]; done)
    | with_reducible apply hide_if
    | with_reducible apply hide_if1
    | split
    | (rw [forEach_hide])
    | (rw [foldl_hide])
    | (rw [foldlS_hide])
    | (intro; intros; try dsimp only)
    | (simp only [hide_ite, ite_self, ite_fst, implies_true, eq_self, h_regs, h_pregs, h_lows, h_ctxCfg, h_updCfg, h_fwdCfg, h_drvCfg, h_fe, h_xl, h_tb, h_sp, h_qz, h_up, h_ch, h_gs, h_mem, h_fl, h_tel, h_pw, h_st, h_i3, h_rl, h_out, endExchange_hide])

/-- With no exchange open, nothing ends with the last descriptor or response. -/
theorem rest_off (s : State) : State.rest false s = s := rfl

theorem spared_hide (h_tel : M .tel = true) (h_st : M .st = true) (s : State) (d : Nat) : hide M (State.spared s d) = hide M s := by
  unfold State.spared
  simp only [eq_self, h_tel, h_st, auditHw_hide, tell_hide]

theorem pllFault_hide (h_regs : M .regs = true) (h_pregs : M .pregs = true) (h_lows : M .lows = true) (h_ctxCfg : M .ctxCfg = true) (h_updCfg : M .updCfg = true) (h_fwdCfg : M .fwdCfg = true) (h_drvCfg : M .drvCfg = true) (h_fe : M .fe = true) (h_xl : M .xl = true) (h_tb : M .tb = true) (h_sp : M .sp = true) (h_qz : M .qz = true) (h_up : M .up = true) (h_ch : M .ch = true) (h_gs : M .gs = true) (h_mem : M .mem = true) (h_fl : M .fl = true) (h_tel : M .tel = true) (h_pw : M .pw = true) (h_st : M .st = true) (h_i3 : M .i3 = true) (h_rl : M .rl = true) (h_free : M .free = true) (h_out : M .out = true) (s : State) (d : Nat) (su : Startup) : hide M (State.pllFault s d su) = hide M s := by
  unfold State.pllFault
  try dsimp only
  repeat' first
    | with_reducible rfl
    | (simp only [hide_ite, ite_self, ite_fst, implies_true, eq_self, h_regs, h_pregs, h_lows, h_ctxCfg, h_updCfg, h_fwdCfg, h_drvCfg, h_fe, h_xl, h_tb, h_sp, h_qz, h_up, h_ch, h_gs, h_mem, h_fl, h_tel, h_pw, h_st, h_i3, h_rl, h_free, h_out, afterStart_hide, blockReset_hide, logSensor_hide, onPw_hide, spared_hide]; done)
    | with_reducible apply hide_if
    | with_reducible apply hide_if1
    | split
    | (rw [forEach_hide])
    | (rw [foldl_hide])
    | (rw [foldlS_hide])
    | (intro; intros; try dsimp only)
    | (simp only [hide_ite, ite_self, ite_fst, implies_true, eq_self, h_regs, h_pregs, h_lows, h_ctxCfg, h_updCfg, h_fwdCfg, h_drvCfg, h_fe, h_xl, h_tb, h_sp, h_qz, h_up, h_ch, h_gs, h_mem, h_fl, h_tel, h_pw, h_st, h_i3, h_rl, h_free, h_out, afterStart_hide, blockReset_hide, logSensor_hide, onPw_hide, spared_hide])

theorem execPllFault_hide (h_regs : M .regs = true) (h_pregs : M .pregs = true) (h_lows : M .lows = true) (h_ctxCfg : M .ctxCfg = true) (h_updCfg : M .updCfg = true) (h_fwdCfg : M .fwdCfg = true) (h_drvCfg : M .drvCfg = true) (h_fe : M .fe = true) (h_xl : M .xl = true) (h_tb : M .tb = true) (h_sp : M .sp = true) (h_qz : M .qz = true) (h_up : M .up = true) (h_ch : M .ch = true) (h_gs : M .gs = true) (h_mem : M .mem = true) (h_fl : M .fl = true) (h_tel : M .tel = true) (h_pw : M .pw = true) (h_st : M .st = true) (h_i3 : M .i3 = true) (h_rl : M .rl = true) (h_free : M .free = true) (h_out : M .out = true) (domain : Nat) (su : Startup) (s : State) (t : State) (e : execPllFault domain su s = .next t) : hide M t = hide M s := by
  simp only [execPllFault, Host.Outcome.next.injEq] at e
  subst e
  repeat' first
    | with_reducible rfl
    | (simp only [hide_ite, ite_self, ite_fst, implies_true, eq_self, h_regs, h_pregs, h_lows, h_ctxCfg, h_updCfg, h_fwdCfg, h_drvCfg, h_fe, h_xl, h_tb, h_sp, h_qz, h_up, h_ch, h_gs, h_mem, h_fl, h_tel, h_pw, h_st, h_i3, h_rl, h_free, h_out, pllFault_hide]; done)
    | with_reducible apply hide_if
    | with_reducible apply hide_if1
    | split
    | (rw [forEach_hide])
    | (rw [foldl_hide])
    | (rw [foldlS_hide])
    | (intro; intros; try dsimp only)
    | (simp only [hide_ite, ite_self, ite_fst, implies_true, eq_self, h_regs, h_pregs, h_lows, h_ctxCfg, h_updCfg, h_fwdCfg, h_drvCfg, h_fe, h_xl, h_tb, h_sp, h_qz, h_up, h_ch, h_gs, h_mem, h_fl, h_tel, h_pw, h_st, h_i3, h_rl, h_free, h_out, pllFault_hide])

theorem referenceFault_hide (h_tel : M .tel = true) (h_pw : M .pw = true) (s : State) (stopped : Bool) : hide M (State.referenceFault s stopped) = hide M s := by
  unfold State.referenceFault
  try dsimp only
  repeat' first
    | with_reducible rfl
    | (simp only [hide_ite, ite_self, ite_fst, implies_true, eq_self, h_tel, h_pw, count_hide, logSensor_hide, onPw_hide, tell_hide]; done)
    | with_reducible apply hide_if
    | with_reducible apply hide_if1
    | split
    | (rw [forEach_hide])
    | (rw [foldl_hide])
    | (rw [foldlS_hide])
    | (intro; intros; try dsimp only)
    | (simp only [hide_ite, ite_self, ite_fst, implies_true, eq_self, h_tel, h_pw, count_hide, logSensor_hide, onPw_hide, tell_hide])

theorem execReferenceFault_hide (h_tel : M .tel = true) (h_pw : M .pw = true) (stopped : Bool) (s : State) (t : State) (e : execReferenceFault stopped s = .next t) : hide M t = hide M s := by
  refine next_hide e ?_
  simp only [eq_self, h_tel, h_pw, referenceFault_hide]

theorem refGood_hide (h_pw : M .pw = true) (s : State) : hide M (State.refGood s) = hide M s := by
  unfold State.refGood
  try dsimp only
  repeat' first
    | with_reducible rfl
    | (simp only [hide_ite, ite_self, ite_fst, implies_true, eq_self, h_pw, onPw_hide]; done)
    | with_reducible apply hide_if
    | with_reducible apply hide_if1
    | split
    | (rw [forEach_hide])
    | (rw [foldl_hide])
    | (rw [foldlS_hide])
    | (intro; intros; try dsimp only)
    | (simp only [hide_ite, ite_self, ite_fst, implies_true, eq_self, h_pw, onPw_hide])

theorem referenceReturn_hide (h_regs : M .regs = true) (h_pregs : M .pregs = true) (h_lows : M .lows = true) (h_ctxCfg : M .ctxCfg = true) (h_updCfg : M .updCfg = true) (h_fwdCfg : M .fwdCfg = true) (h_drvCfg : M .drvCfg = true) (h_fe : M .fe = true) (h_xl : M .xl = true) (h_tb : M .tb = true) (h_sp : M .sp = true) (h_qz : M .qz = true) (h_up : M .up = true) (h_ch : M .ch = true) (h_gs : M .gs = true) (h_mem : M .mem = true) (h_fl : M .fl = true) (h_tel : M .tel = true) (h_pw : M .pw = true) (h_st : M .st = true) (h_i3 : M .i3 = true) (h_rl : M .rl = true) (h_free : M .free = true) (h_out : M .out = true) (s : State) (us : Nat) : hide M (State.referenceReturn s us) = hide M s := by
  unfold State.referenceReturn
  try dsimp only
  repeat' first
    | with_reducible rfl
    | (simp only [hide_ite, ite_self, ite_fst, implies_true, eq_self, h_regs, h_pregs, h_lows, h_ctxCfg, h_updCfg, h_fwdCfg, h_drvCfg, h_fe, h_xl, h_tb, h_sp, h_qz, h_up, h_ch, h_gs, h_mem, h_fl, h_tel, h_pw, h_st, h_i3, h_rl, h_free, h_out, afterStart_hide, onPw_hide, refGood_hide, startOn_hide, tell_hide]; done)
    | with_reducible apply hide_if
    | with_reducible apply hide_if1
    | split
    | (rw [forEach_hide])
    | (rw [foldl_hide])
    | (rw [foldlS_hide])
    | (intro; intros; try dsimp only)
    | (simp only [hide_ite, ite_self, ite_fst, implies_true, eq_self, h_regs, h_pregs, h_lows, h_ctxCfg, h_updCfg, h_fwdCfg, h_drvCfg, h_fe, h_xl, h_tb, h_sp, h_qz, h_up, h_ch, h_gs, h_mem, h_fl, h_tel, h_pw, h_st, h_i3, h_rl, h_free, h_out, afterStart_hide, onPw_hide, refGood_hide, startOn_hide, tell_hide])

theorem execReferenceReturn_hide (h_regs : M .regs = true) (h_pregs : M .pregs = true) (h_lows : M .lows = true) (h_ctxCfg : M .ctxCfg = true) (h_updCfg : M .updCfg = true) (h_fwdCfg : M .fwdCfg = true) (h_drvCfg : M .drvCfg = true) (h_fe : M .fe = true) (h_xl : M .xl = true) (h_tb : M .tb = true) (h_sp : M .sp = true) (h_qz : M .qz = true) (h_up : M .up = true) (h_ch : M .ch = true) (h_gs : M .gs = true) (h_mem : M .mem = true) (h_fl : M .fl = true) (h_tel : M .tel = true) (h_pw : M .pw = true) (h_st : M .st = true) (h_i3 : M .i3 = true) (h_rl : M .rl = true) (h_free : M .free = true) (h_out : M .out = true) (us : Nat) (s : State) (t : State) (e : execReferenceReturn us s = .next t) : hide M t = hide M s := by
  simp only [execReferenceReturn, Host.Outcome.next.injEq] at e
  subst e
  repeat' first
    | with_reducible rfl
    | (simp only [hide_ite, ite_self, ite_fst, implies_true, eq_self, h_regs, h_pregs, h_lows, h_ctxCfg, h_updCfg, h_fwdCfg, h_drvCfg, h_fe, h_xl, h_tb, h_sp, h_qz, h_up, h_ch, h_gs, h_mem, h_fl, h_tel, h_pw, h_st, h_i3, h_rl, h_free, h_out, referenceReturn_hide]; done)
    | with_reducible apply hide_if
    | with_reducible apply hide_if1
    | split
    | (rw [forEach_hide])
    | (rw [foldl_hide])
    | (rw [foldlS_hide])
    | (intro; intros; try dsimp only)
    | (simp only [hide_ite, ite_self, ite_fst, implies_true, eq_self, h_regs, h_pregs, h_lows, h_ctxCfg, h_updCfg, h_fwdCfg, h_drvCfg, h_fe, h_xl, h_tb, h_sp, h_qz, h_up, h_ch, h_gs, h_mem, h_fl, h_tel, h_pw, h_st, h_i3, h_rl, h_free, h_out, referenceReturn_hide])

theorem refLoss_hide (h_regs : M .regs = true) (h_pregs : M .pregs = true) (h_lows : M .lows = true) (h_ctxCfg : M .ctxCfg = true) (h_updCfg : M .updCfg = true) (h_fwdCfg : M .fwdCfg = true) (h_drvCfg : M .drvCfg = true) (h_fe : M .fe = true) (h_xl : M .xl = true) (h_tb : M .tb = true) (h_sp : M .sp = true) (h_qz : M .qz = true) (h_up : M .up = true) (h_ch : M .ch = true) (h_gs : M .gs = true) (h_mem : M .mem = true) (h_fl : M .fl = true) (h_tel : M .tel = true) (h_pw : M .pw = true) (h_st : M .st = true) (h_i3 : M .i3 = true) (h_rl : M .rl = true) (h_free : M .free = true) (h_out : M .out = true) (s : State) (su : Startup) : hide M (State.refLoss s su) = hide M s := by
  unfold State.refLoss
  try dsimp only
  repeat' first
    | with_reducible rfl
    | (simp only [hide_ite, ite_self, ite_fst, implies_true, eq_self, h_regs, h_pregs, h_lows, h_ctxCfg, h_updCfg, h_fwdCfg, h_drvCfg, h_fe, h_xl, h_tb, h_sp, h_qz, h_up, h_ch, h_gs, h_mem, h_fl, h_tel, h_pw, h_st, h_i3, h_rl, h_free, h_out, afterStart_hide, blockReset_hide]; done)
    | with_reducible apply hide_if
    | with_reducible apply hide_if1
    | split
    | (rw [forEach_hide])
    | (rw [foldl_hide])
    | (rw [foldlS_hide])
    | (intro; intros; try dsimp only)
    | (simp only [hide_ite, ite_self, ite_fst, implies_true, eq_self, h_regs, h_pregs, h_lows, h_ctxCfg, h_updCfg, h_fwdCfg, h_drvCfg, h_fe, h_xl, h_tb, h_sp, h_qz, h_up, h_ch, h_gs, h_mem, h_fl, h_tel, h_pw, h_st, h_i3, h_rl, h_free, h_out, afterStart_hide, blockReset_hide])

theorem execRefLossTimeout_hide (h_regs : M .regs = true) (h_pregs : M .pregs = true) (h_lows : M .lows = true) (h_ctxCfg : M .ctxCfg = true) (h_updCfg : M .updCfg = true) (h_fwdCfg : M .fwdCfg = true) (h_drvCfg : M .drvCfg = true) (h_fe : M .fe = true) (h_xl : M .xl = true) (h_tb : M .tb = true) (h_sp : M .sp = true) (h_qz : M .qz = true) (h_up : M .up = true) (h_ch : M .ch = true) (h_gs : M .gs = true) (h_mem : M .mem = true) (h_fl : M .fl = true) (h_tel : M .tel = true) (h_pw : M .pw = true) (h_st : M .st = true) (h_i3 : M .i3 = true) (h_rl : M .rl = true) (h_free : M .free = true) (h_out : M .out = true) (su : Startup) (s : State) (t : State) (e : execRefLossTimeout su s = .next t) : hide M t = hide M s := by
  simp only [execRefLossTimeout, Host.Outcome.next.injEq] at e
  subst e
  repeat' first
    | with_reducible rfl
    | (simp only [hide_ite, ite_self, ite_fst, implies_true, eq_self, h_regs, h_pregs, h_lows, h_ctxCfg, h_updCfg, h_fwdCfg, h_drvCfg, h_fe, h_xl, h_tb, h_sp, h_qz, h_up, h_ch, h_gs, h_mem, h_fl, h_tel, h_pw, h_st, h_i3, h_rl, h_free, h_out, refLoss_hide]; done)
    | with_reducible apply hide_if
    | with_reducible apply hide_if1
    | split
    | (rw [forEach_hide])
    | (rw [foldl_hide])
    | (rw [foldlS_hide])
    | (intro; intros; try dsimp only)
    | (simp only [hide_ite, ite_self, ite_fst, implies_true, eq_self, h_regs, h_pregs, h_lows, h_ctxCfg, h_updCfg, h_fwdCfg, h_drvCfg, h_fe, h_xl, h_tb, h_sp, h_qz, h_up, h_ch, h_gs, h_mem, h_fl, h_tel, h_pw, h_st, h_i3, h_rl, h_free, h_out, refLoss_hide])

theorem shortBursts_hide (h_gs : M .gs = true) (s : State) : hide M (State.shortBursts s) = hide M s := by
  unfold State.shortBursts
  try dsimp only
  repeat' first
    | with_reducible rfl
    | (simp only [hide_ite, ite_self, ite_fst, implies_true, eq_self, h_gs, onGs_hide]; done)
    | with_reducible apply hide_if
    | with_reducible apply hide_if1
    | split
    | (rw [forEach_hide])
    | (rw [foldl_hide])
    | (rw [foldlS_hide])
    | (intro; intros; try dsimp only)
    | (simp only [hide_ite, ite_self, ite_fst, implies_true, eq_self, h_gs, onGs_hide])

theorem pllAon_hide (h_regs : M .regs = true) (h_pregs : M .pregs = true) (h_lows : M .lows = true) (h_ctxCfg : M .ctxCfg = true) (h_updCfg : M .updCfg = true) (h_fwdCfg : M .fwdCfg = true) (h_drvCfg : M .drvCfg = true) (h_fe : M .fe = true) (h_xl : M .xl = true) (h_tb : M .tb = true) (h_sp : M .sp = true) (h_qz : M .qz = true) (h_up : M .up = true) (h_ch : M .ch = true) (h_gs : M .gs = true) (h_mem : M .mem = true) (h_fl : M .fl = true) (h_tel : M .tel = true) (h_pw : M .pw = true) (h_st : M .st = true) (h_i3 : M .i3 = true) (h_rl : M .rl = true) (h_free : M .free = true) (h_out : M .out = true) (s : State) (locked : Bool) (us : Nat) (su : Startup) : hide M (State.pllAon s locked us su) = hide M s := by
  unfold State.pllAon
  try dsimp only
  repeat' first
    | with_reducible rfl
    | (simp only [hide_ite, ite_self, ite_fst, implies_true, eq_self, h_regs, h_pregs, h_lows, h_ctxCfg, h_updCfg, h_fwdCfg, h_drvCfg, h_fe, h_xl, h_tb, h_sp, h_qz, h_up, h_ch, h_gs, h_mem, h_fl, h_tel, h_pw, h_st, h_i3, h_rl, h_free, h_out, afterStart_hide, cleared_hide, onPw_hide, shortBursts_hide, startUp_hide, stuck_hide, tell_hide]; done)
    | with_reducible apply hide_if
    | with_reducible apply hide_if1
    | split
    | (rw [forEach_hide])
    | (rw [foldl_hide])
    | (rw [foldlS_hide])
    | (intro; intros; try dsimp only)
    | (simp only [hide_ite, ite_self, ite_fst, implies_true, eq_self, h_regs, h_pregs, h_lows, h_ctxCfg, h_updCfg, h_fwdCfg, h_drvCfg, h_fe, h_xl, h_tb, h_sp, h_qz, h_up, h_ch, h_gs, h_mem, h_fl, h_tel, h_pw, h_st, h_i3, h_rl, h_free, h_out, afterStart_hide, cleared_hide, onPw_hide, shortBursts_hide, startUp_hide, stuck_hide, tell_hide])

theorem execPllAonFault_hide (h_regs : M .regs = true) (h_pregs : M .pregs = true) (h_lows : M .lows = true) (h_ctxCfg : M .ctxCfg = true) (h_updCfg : M .updCfg = true) (h_fwdCfg : M .fwdCfg = true) (h_drvCfg : M .drvCfg = true) (h_fe : M .fe = true) (h_xl : M .xl = true) (h_tb : M .tb = true) (h_sp : M .sp = true) (h_qz : M .qz = true) (h_up : M .up = true) (h_ch : M .ch = true) (h_gs : M .gs = true) (h_mem : M .mem = true) (h_fl : M .fl = true) (h_tel : M .tel = true) (h_pw : M .pw = true) (h_st : M .st = true) (h_i3 : M .i3 = true) (h_rl : M .rl = true) (h_free : M .free = true) (h_out : M .out = true) (locked : Bool) (us : Nat) (su : Startup) (s : State) (t : State) (e : execPllAonFault locked us su s = .next t) : hide M t = hide M s := by
  simp only [execPllAonFault, Host.Outcome.next.injEq] at e
  subst e
  repeat' first
    | with_reducible rfl
    | (simp only [hide_ite, ite_self, ite_fst, implies_true, eq_self, h_regs, h_pregs, h_lows, h_ctxCfg, h_updCfg, h_fwdCfg, h_drvCfg, h_fe, h_xl, h_tb, h_sp, h_qz, h_up, h_ch, h_gs, h_mem, h_fl, h_tel, h_pw, h_st, h_i3, h_rl, h_free, h_out, pllAon_hide]; done)
    | with_reducible apply hide_if
    | with_reducible apply hide_if1
    | split
    | (rw [forEach_hide])
    | (rw [foldl_hide])
    | (rw [foldlS_hide])
    | (intro; intros; try dsimp only)
    | (simp only [hide_ite, ite_self, ite_fst, implies_true, eq_self, h_regs, h_pregs, h_lows, h_ctxCfg, h_updCfg, h_fwdCfg, h_drvCfg, h_fe, h_xl, h_tb, h_sp, h_qz, h_up, h_ch, h_gs, h_mem, h_fl, h_tel, h_pw, h_st, h_i3, h_rl, h_free, h_out, pllAon_hide])

theorem pmh_hide (h_regs : M .regs = true) (h_pregs : M .pregs = true) (h_lows : M .lows = true) (h_ctxCfg : M .ctxCfg = true) (h_updCfg : M .updCfg = true) (h_fwdCfg : M .fwdCfg = true) (h_drvCfg : M .drvCfg = true) (h_fe : M .fe = true) (h_xl : M .xl = true) (h_tb : M .tb = true) (h_sp : M .sp = true) (h_qz : M .qz = true) (h_up : M .up = true) (h_ch : M .ch = true) (h_gs : M .gs = true) (h_mem : M .mem = true) (h_fl : M .fl = true) (h_tel : M .tel = true) (h_pw : M .pw = true) (h_st : M .st = true) (h_i3 : M .i3 = true) (h_rl : M .rl = true) (h_out : M .out = true) (s : State) (target : Nat) (fails : WbFails) (may : Nat → Bool) : hide M (State.pmh s target fails may) = hide M s := by
  unfold State.pmh
  try dsimp only
  repeat' first
    | with_reducible rfl
    | (simp only [hide_ite, ite_self, ite_fst, implies_true, eq_self, h_regs, h_pregs, h_lows, h_ctxCfg, h_updCfg, h_fwdCfg, h_drvCfg, h_fe, h_xl, h_tb, h_sp, h_qz, h_up, h_ch, h_gs, h_mem, h_fl, h_tel, h_pw, h_st, h_i3, h_rl, h_out, onPw_hide, pmhRequest_hide, serveHeld_hide]; done)
    | with_reducible apply hide_if
    | with_reducible apply hide_if1
    | split
    | (rw [forEach_hide])
    | (rw [foldl_hide])
    | (rw [foldlS_hide])
    | (intro; intros; try dsimp only)
    | (simp only [hide_ite, ite_self, ite_fst, implies_true, eq_self, h_regs, h_pregs, h_lows, h_ctxCfg, h_updCfg, h_fwdCfg, h_drvCfg, h_fe, h_xl, h_tb, h_sp, h_qz, h_up, h_ch, h_gs, h_mem, h_fl, h_tel, h_pw, h_st, h_i3, h_rl, h_out, onPw_hide, pmhRequest_hide, serveHeld_hide])

theorem leaveOff_hide (h_regs : M .regs = true) (h_pregs : M .pregs = true) (h_lows : M .lows = true) (h_ctxCfg : M .ctxCfg = true) (h_updCfg : M .updCfg = true) (h_fwdCfg : M .fwdCfg = true) (h_drvCfg : M .drvCfg = true) (h_fe : M .fe = true) (h_xl : M .xl = true) (h_tb : M .tb = true) (h_sp : M .sp = true) (h_qz : M .qz = true) (h_up : M .up = true) (h_ch : M .ch = true) (h_gs : M .gs = true) (h_mem : M .mem = true) (h_fl : M .fl = true) (h_tel : M .tel = true) (h_pw : M .pw = true) (h_st : M .st = true) (h_i3 : M .i3 = true) (h_rl : M .rl = true) (h_free : M .free = true) (h_out : M .out = true) (s : State) (target : Nat) (su : Startup) : hide M (State.leaveOff s target su) = hide M s := by
  unfold State.leaveOff
  try dsimp only
  repeat' first
    | with_reducible rfl
    | (simp only [hide_ite, ite_self, ite_fst, implies_true, eq_self, h_regs, h_pregs, h_lows, h_ctxCfg, h_updCfg, h_fwdCfg, h_drvCfg, h_fe, h_xl, h_tb, h_sp, h_qz, h_up, h_ch, h_gs, h_mem, h_fl, h_tel, h_pw, h_st, h_i3, h_rl, h_free, h_out, afterStart_hide, blockReset_hide, onPw_hide, pmhRequest_hide]; done)
    | with_reducible apply hide_if
    | with_reducible apply hide_if1
    | split
    | (rw [forEach_hide])
    | (rw [foldl_hide])
    | (rw [foldlS_hide])
    | (intro; intros; try dsimp only)
    | (simp only [hide_ite, ite_self, ite_fst, implies_true, eq_self, h_regs, h_pregs, h_lows, h_ctxCfg, h_updCfg, h_fwdCfg, h_drvCfg, h_fe, h_xl, h_tb, h_sp, h_qz, h_up, h_ch, h_gs, h_mem, h_fl, h_tel, h_pw, h_st, h_i3, h_rl, h_free, h_out, afterStart_hide, blockReset_hide, onPw_hide, pmhRequest_hide])

theorem raiseOff_hide (h_regs : M .regs = true) (h_pregs : M .pregs = true) (h_lows : M .lows = true) (h_ctxCfg : M .ctxCfg = true) (h_updCfg : M .updCfg = true) (h_fwdCfg : M .fwdCfg = true) (h_drvCfg : M .drvCfg = true) (h_fe : M .fe = true) (h_xl : M .xl = true) (h_tb : M .tb = true) (h_sp : M .sp = true) (h_qz : M .qz = true) (h_up : M .up = true) (h_ch : M .ch = true) (h_gs : M .gs = true) (h_mem : M .mem = true) (h_fl : M .fl = true) (h_tel : M .tel = true) (h_pw : M .pw = true) (h_st : M .st = true) (h_i3 : M .i3 = true) (h_rl : M .rl = true) (h_free : M .free = true) (h_out : M .out = true) (s : State) (target : Nat) (su : Startup) : hide M (State.raiseOff s target su) = hide M s := by
  unfold State.raiseOff
  try dsimp only
  repeat' first
    | with_reducible rfl
    | (simp only [hide_ite, ite_self, ite_fst, implies_true, eq_self, h_regs, h_pregs, h_lows, h_ctxCfg, h_updCfg, h_fwdCfg, h_drvCfg, h_fe, h_xl, h_tb, h_sp, h_qz, h_up, h_ch, h_gs, h_mem, h_fl, h_tel, h_pw, h_st, h_i3, h_rl, h_free, h_out, leaveOff_hide, onPw_hide]; done)
    | with_reducible apply hide_if
    | with_reducible apply hide_if1
    | split
    | (rw [forEach_hide])
    | (rw [foldl_hide])
    | (rw [foldlS_hide])
    | (intro; intros; try dsimp only)
    | (simp only [hide_ite, ite_self, ite_fst, implies_true, eq_self, h_regs, h_pregs, h_lows, h_ctxCfg, h_updCfg, h_fwdCfg, h_drvCfg, h_fe, h_xl, h_tb, h_sp, h_qz, h_up, h_ch, h_gs, h_mem, h_fl, h_tel, h_pw, h_st, h_i3, h_rl, h_free, h_out, leaveOff_hide, onPw_hide])

theorem execPmhRaise_hide (h_regs : M .regs = true) (h_pregs : M .pregs = true) (h_lows : M .lows = true) (h_ctxCfg : M .ctxCfg = true) (h_updCfg : M .updCfg = true) (h_fwdCfg : M .fwdCfg = true) (h_drvCfg : M .drvCfg = true) (h_fe : M .fe = true) (h_xl : M .xl = true) (h_tb : M .tb = true) (h_sp : M .sp = true) (h_qz : M .qz = true) (h_up : M .up = true) (h_ch : M .ch = true) (h_gs : M .gs = true) (h_mem : M .mem = true) (h_fl : M .fl = true) (h_tel : M .tel = true) (h_pw : M .pw = true) (h_st : M .st = true) (h_i3 : M .i3 = true) (h_rl : M .rl = true) (h_free : M .free = true) (h_out : M .out = true) (target : Nat) (su : Startup) (s : State) (t : State) (e : execPmhRaise target su s = .next t) : hide M t = hide M s := by
  simp only [execPmhRaise, Host.Outcome.next.injEq] at e
  subst e
  repeat' first
    | with_reducible rfl
    | (simp only [hide_ite, ite_self, ite_fst, implies_true, eq_self, h_regs, h_pregs, h_lows, h_ctxCfg, h_updCfg, h_fwdCfg, h_drvCfg, h_fe, h_xl, h_tb, h_sp, h_qz, h_up, h_ch, h_gs, h_mem, h_fl, h_tel, h_pw, h_st, h_i3, h_rl, h_free, h_out, pmh_hide, raiseOff_hide]; done)
    | with_reducible apply hide_if
    | with_reducible apply hide_if1
    | split
    | (rw [forEach_hide])
    | (rw [foldl_hide])
    | (rw [foldlS_hide])
    | (intro; intros; try dsimp only)
    | (simp only [hide_ite, ite_self, ite_fst, implies_true, eq_self, h_regs, h_pregs, h_lows, h_ctxCfg, h_updCfg, h_fwdCfg, h_drvCfg, h_fe, h_xl, h_tb, h_sp, h_qz, h_up, h_ch, h_gs, h_mem, h_fl, h_tel, h_pw, h_st, h_i3, h_rl, h_free, h_out, pmh_hide, raiseOff_hide])

theorem execPmhLower_hide (h_regs : M .regs = true) (h_pregs : M .pregs = true) (h_lows : M .lows = true) (h_ctxCfg : M .ctxCfg = true) (h_updCfg : M .updCfg = true) (h_fwdCfg : M .fwdCfg = true) (h_drvCfg : M .drvCfg = true) (h_fe : M .fe = true) (h_xl : M .xl = true) (h_tb : M .tb = true) (h_sp : M .sp = true) (h_qz : M .qz = true) (h_up : M .up = true) (h_ch : M .ch = true) (h_gs : M .gs = true) (h_mem : M .mem = true) (h_fl : M .fl = true) (h_tel : M .tel = true) (h_pw : M .pw = true) (h_st : M .st = true) (h_i3 : M .i3 = true) (h_rl : M .rl = true) (h_out : M .out = true) (target : Nat) (s : State) (t : State) (e : execPmhLower target s = .next t) : hide M t = hide M s := by
  refine next_hide e ?_
  simp only [eq_self, h_regs, h_pregs, h_lows, h_ctxCfg, h_updCfg, h_fwdCfg, h_drvCfg, h_fe, h_xl, h_tb, h_sp, h_qz, h_up, h_ch, h_gs, h_mem, h_fl, h_tel, h_pw, h_st, h_i3, h_rl, h_out, pmh_hide]

theorem execPmhEnterStandby_hide (h_regs : M .regs = true) (h_pregs : M .pregs = true) (h_lows : M .lows = true) (h_ctxCfg : M .ctxCfg = true) (h_updCfg : M .updCfg = true) (h_fwdCfg : M .fwdCfg = true) (h_drvCfg : M .drvCfg = true) (h_fe : M .fe = true) (h_xl : M .xl = true) (h_tb : M .tb = true) (h_sp : M .sp = true) (h_qz : M .qz = true) (h_up : M .up = true) (h_ch : M .ch = true) (h_gs : M .gs = true) (h_mem : M .mem = true) (h_fl : M .fl = true) (h_tel : M .tel = true) (h_pw : M .pw = true) (h_st : M .st = true) (h_i3 : M .i3 = true) (h_rl : M .rl = true) (h_out : M .out = true) (s : State) (t : State) (e : execPmhEnterStandby s = .next t) : hide M t = hide M s := by
  refine next_hide e ?_
  simp only [eq_self, h_regs, h_pregs, h_lows, h_ctxCfg, h_updCfg, h_fwdCfg, h_drvCfg, h_fe, h_xl, h_tb, h_sp, h_qz, h_up, h_ch, h_gs, h_mem, h_fl, h_tel, h_pw, h_st, h_i3, h_rl, h_out, pmh_hide]

theorem execPmhLeaveStandby_hide (h_regs : M .regs = true) (h_pregs : M .pregs = true) (h_lows : M .lows = true) (h_ctxCfg : M .ctxCfg = true) (h_updCfg : M .updCfg = true) (h_fwdCfg : M .fwdCfg = true) (h_drvCfg : M .drvCfg = true) (h_fe : M .fe = true) (h_xl : M .xl = true) (h_tb : M .tb = true) (h_sp : M .sp = true) (h_qz : M .qz = true) (h_up : M .up = true) (h_ch : M .ch = true) (h_gs : M .gs = true) (h_mem : M .mem = true) (h_fl : M .fl = true) (h_tel : M .tel = true) (h_pw : M .pw = true) (h_st : M .st = true) (h_i3 : M .i3 = true) (h_rl : M .rl = true) (h_out : M .out = true) (target : Nat) (s : State) (t : State) (e : execPmhLeaveStandby target s = .next t) : hide M t = hide M s := by
  refine next_hide e ?_
  simp only [eq_self, h_regs, h_pregs, h_lows, h_ctxCfg, h_updCfg, h_fwdCfg, h_drvCfg, h_fe, h_xl, h_tb, h_sp, h_qz, h_up, h_ch, h_gs, h_mem, h_fl, h_tel, h_pw, h_st, h_i3, h_rl, h_out, pmh_hide]

theorem execPmhOff_hide (h_regs : M .regs = true) (h_pregs : M .pregs = true) (h_lows : M .lows = true) (h_ctxCfg : M .ctxCfg = true) (h_updCfg : M .updCfg = true) (h_fwdCfg : M .fwdCfg = true) (h_drvCfg : M .drvCfg = true) (h_fe : M .fe = true) (h_xl : M .xl = true) (h_tb : M .tb = true) (h_sp : M .sp = true) (h_qz : M .qz = true) (h_up : M .up = true) (h_ch : M .ch = true) (h_gs : M .gs = true) (h_mem : M .mem = true) (h_fl : M .fl = true) (h_tel : M .tel = true) (h_pw : M .pw = true) (h_st : M .st = true) (h_i3 : M .i3 = true) (h_rl : M .rl = true) (h_out : M .out = true) (fails : WbFails) (s : State) (t : State) (e : execPmhOff fails s = .next t) : hide M t = hide M s := by
  simp only [execPmhOff, Host.Outcome.next.injEq] at e
  subst e
  repeat' first
    | with_reducible rfl
    | (simp only [hide_ite, ite_self, ite_fst, implies_true, eq_self, h_regs, h_pregs, h_lows, h_ctxCfg, h_updCfg, h_fwdCfg, h_drvCfg, h_fe, h_xl, h_tb, h_sp, h_qz, h_up, h_ch, h_gs, h_mem, h_fl, h_tel, h_pw, h_st, h_i3, h_rl, h_out, pmh_hide]; done)
    | with_reducible apply hide_if
    | with_reducible apply hide_if1
    | split
    | (rw [forEach_hide])
    | (rw [foldl_hide])
    | (rw [foldlS_hide])
    | (intro; intros; try dsimp only)
    | (simp only [hide_ite, ite_self, ite_fst, implies_true, eq_self, h_regs, h_pregs, h_lows, h_ctxCfg, h_updCfg, h_fwdCfg, h_drvCfg, h_fe, h_xl, h_tb, h_sp, h_qz, h_up, h_ch, h_gs, h_mem, h_fl, h_tel, h_pw, h_st, h_i3, h_rl, h_out, pmh_hide])

theorem execReservedStateRequest_hide (h_regs : M .regs = true) (h_pregs : M .pregs = true) (h_lows : M .lows = true) (h_ctxCfg : M .ctxCfg = true) (h_updCfg : M .updCfg = true) (h_fwdCfg : M .fwdCfg = true) (h_drvCfg : M .drvCfg = true) (h_fe : M .fe = true) (h_xl : M .xl = true) (h_tb : M .tb = true) (h_sp : M .sp = true) (h_qz : M .qz = true) (h_up : M .up = true) (h_ch : M .ch = true) (h_gs : M .gs = true) (h_mem : M .mem = true) (h_fl : M .fl = true) (h_tel : M .tel = true) (h_pw : M .pw = true) (h_st : M .st = true) (h_i3 : M .i3 = true) (h_rl : M .rl = true) (h_out : M .out = true) (target : Nat) (s : State) (t : State) (e : execReservedStateRequest target s = .next t) : hide M t = hide M s := by
  refine next_hide e ?_
  simp only [eq_self, h_regs, h_pregs, h_lows, h_ctxCfg, h_updCfg, h_fwdCfg, h_drvCfg, h_fe, h_xl, h_tb, h_sp, h_qz, h_up, h_ch, h_gs, h_mem, h_fl, h_tel, h_pw, h_st, h_i3, h_rl, h_out, pmh_hide]

theorem emergAssert_hide (h_tel : M .tel = true) (h_pw : M .pw = true) (s : State) : hide M (State.emergAssert s) = hide M s := by
  unfold State.emergAssert
  try dsimp only
  repeat' first
    | with_reducible rfl
    | (simp only [hide_ite, ite_self, ite_fst, implies_true, eq_self, h_tel, h_pw, enterEmerg_hide, onPw_hide]; done)
    | with_reducible apply hide_if
    | with_reducible apply hide_if1
    | split
    | (rw [forEach_hide])
    | (rw [foldl_hide])
    | (rw [foldlS_hide])
    | (intro; intros; try dsimp only)
    | (simp only [hide_ite, ite_self, ite_fst, implies_true, eq_self, h_tel, h_pw, enterEmerg_hide, onPw_hide])

theorem execPmhEmergAssert_hide (h_tel : M .tel = true) (h_pw : M .pw = true) (s : State) (t : State) (e : execPmhEmergAssert s = .next t) : hide M t = hide M s := by
  refine next_hide e ?_
  simp only [eq_self, h_tel, h_pw, emergAssert_hide]

theorem emergRelease_hide (h_regs : M .regs = true) (h_pregs : M .pregs = true) (h_lows : M .lows = true) (h_ctxCfg : M .ctxCfg = true) (h_updCfg : M .updCfg = true) (h_fwdCfg : M .fwdCfg = true) (h_drvCfg : M .drvCfg = true) (h_fe : M .fe = true) (h_xl : M .xl = true) (h_tb : M .tb = true) (h_sp : M .sp = true) (h_qz : M .qz = true) (h_up : M .up = true) (h_ch : M .ch = true) (h_gs : M .gs = true) (h_mem : M .mem = true) (h_fl : M .fl = true) (h_tel : M .tel = true) (h_pw : M .pw = true) (h_st : M .st = true) (h_i3 : M .i3 = true) (h_rl : M .rl = true) (h_free : M .free = true) (h_out : M .out = true) (s : State) : hide M (State.emergRelease s) = hide M s := by
  unfold State.emergRelease
  try dsimp only
  repeat' first
    | with_reducible rfl
    | (simp only [hide_ite, ite_self, ite_fst, implies_true, eq_self, h_regs, h_pregs, h_lows, h_ctxCfg, h_updCfg, h_fwdCfg, h_drvCfg, h_fe, h_xl, h_tb, h_sp, h_qz, h_up, h_ch, h_gs, h_mem, h_fl, h_tel, h_pw, h_st, h_i3, h_rl, h_free, h_out, afterStart_hide, leaveOff_hide, onPw_hide, tell_hide]; done)
    | with_reducible apply hide_if
    | with_reducible apply hide_if1
    | split
    | (rw [forEach_hide])
    | (rw [foldl_hide])
    | (rw [foldlS_hide])
    | (intro; intros; try dsimp only)
    | (simp only [hide_ite, ite_self, ite_fst, implies_true, eq_self, h_regs, h_pregs, h_lows, h_ctxCfg, h_updCfg, h_fwdCfg, h_drvCfg, h_fe, h_xl, h_tb, h_sp, h_qz, h_up, h_ch, h_gs, h_mem, h_fl, h_tel, h_pw, h_st, h_i3, h_rl, h_free, h_out, afterStart_hide, leaveOff_hide, onPw_hide, tell_hide])

theorem execPmhEmergRelease_hide (h_regs : M .regs = true) (h_pregs : M .pregs = true) (h_lows : M .lows = true) (h_ctxCfg : M .ctxCfg = true) (h_updCfg : M .updCfg = true) (h_fwdCfg : M .fwdCfg = true) (h_drvCfg : M .drvCfg = true) (h_fe : M .fe = true) (h_xl : M .xl = true) (h_tb : M .tb = true) (h_sp : M .sp = true) (h_qz : M .qz = true) (h_up : M .up = true) (h_ch : M .ch = true) (h_gs : M .gs = true) (h_mem : M .mem = true) (h_fl : M .fl = true) (h_tel : M .tel = true) (h_pw : M .pw = true) (h_st : M .st = true) (h_i3 : M .i3 = true) (h_rl : M .rl = true) (h_free : M .free = true) (h_out : M .out = true) (s : State) (t : State) (e : execPmhEmergRelease s = .next t) : hide M t = hide M s := by
  simp only [execPmhEmergRelease, Host.Outcome.next.injEq] at e
  subst e
  repeat' first
    | with_reducible rfl
    | (simp only [hide_ite, ite_self, ite_fst, implies_true, eq_self, h_regs, h_pregs, h_lows, h_ctxCfg, h_updCfg, h_fwdCfg, h_drvCfg, h_fe, h_xl, h_tb, h_sp, h_qz, h_up, h_ch, h_gs, h_mem, h_fl, h_tel, h_pw, h_st, h_i3, h_rl, h_free, h_out, emergRelease_hide]; done)
    | with_reducible apply hide_if
    | with_reducible apply hide_if1
    | split
    | (rw [forEach_hide])
    | (rw [foldl_hide])
    | (rw [foldlS_hide])
    | (intro; intros; try dsimp only)
    | (simp only [hide_ite, ite_self, ite_fst, implies_true, eq_self, h_regs, h_pregs, h_lows, h_ctxCfg, h_updCfg, h_fwdCfg, h_drvCfg, h_fe, h_xl, h_tb, h_sp, h_qz, h_up, h_ch, h_gs, h_mem, h_fl, h_tel, h_pw, h_st, h_i3, h_rl, h_free, h_out, emergRelease_hide])

theorem stepGrant_hide (h_regs : M .regs = true) (h_pregs : M .pregs = true) (h_lows : M .lows = true) (h_ctxCfg : M .ctxCfg = true) (h_updCfg : M .updCfg = true) (h_fwdCfg : M .fwdCfg = true) (h_drvCfg : M .drvCfg = true) (h_fe : M .fe = true) (h_xl : M .xl = true) (h_tb : M .tb = true) (h_sp : M .sp = true) (h_qz : M .qz = true) (h_up : M .up = true) (h_ch : M .ch = true) (h_gs : M .gs = true) (h_mem : M .mem = true) (h_fl : M .fl = true) (h_tel : M .tel = true) (h_pw : M .pw = true) (h_st : M .st = true) (h_i3 : M .i3 = true) (h_rl : M .rl = true) (h_free : M .free = true) (h_out : M .out = true) (s : State) : hide M (State.stepGrant s) = hide M s := by
  unfold State.stepGrant
  try dsimp only
  repeat' first
    | with_reducible rfl
    | (simp only [hide_ite, ite_self, ite_fst, implies_true, eq_self, h_regs, h_pregs, h_lows, h_ctxCfg, h_updCfg, h_fwdCfg, h_drvCfg, h_fe, h_xl, h_tb, h_sp, h_qz, h_up, h_ch, h_gs, h_mem, h_fl, h_tel, h_pw, h_st, h_i3, h_rl, h_free, h_out, afterStart_hide, count_hide, goReady_hide, onPw_hide, send_hide]; done)
    | with_reducible apply hide_if
    | with_reducible apply hide_if1
    | split
    | (rw [forEach_hide])
    | (rw [foldl_hide])
    | (rw [foldlS_hide])
    | (intro; intros; try dsimp only)
    | (simp only [hide_ite, ite_self, ite_fst, implies_true, eq_self, h_regs, h_pregs, h_lows, h_ctxCfg, h_updCfg, h_fwdCfg, h_drvCfg, h_fe, h_xl, h_tb, h_sp, h_qz, h_up, h_ch, h_gs, h_mem, h_fl, h_tel, h_pw, h_st, h_i3, h_rl, h_free, h_out, afterStart_hide, count_hide, goReady_hide, onPw_hide, send_hide])

theorem execPmhStepGnt_hide (h_regs : M .regs = true) (h_pregs : M .pregs = true) (h_lows : M .lows = true) (h_ctxCfg : M .ctxCfg = true) (h_updCfg : M .updCfg = true) (h_fwdCfg : M .fwdCfg = true) (h_drvCfg : M .drvCfg = true) (h_fe : M .fe = true) (h_xl : M .xl = true) (h_tb : M .tb = true) (h_sp : M .sp = true) (h_qz : M .qz = true) (h_up : M .up = true) (h_ch : M .ch = true) (h_gs : M .gs = true) (h_mem : M .mem = true) (h_fl : M .fl = true) (h_tel : M .tel = true) (h_pw : M .pw = true) (h_st : M .st = true) (h_i3 : M .i3 = true) (h_rl : M .rl = true) (h_free : M .free = true) (h_out : M .out = true) (s : State) (t : State) (e : execPmhStepGnt s = .next t) : hide M t = hide M s := by
  simp only [execPmhStepGnt, Host.Outcome.next.injEq] at e
  subst e
  repeat' first
    | with_reducible rfl
    | (simp only [hide_ite, ite_self, ite_fst, implies_true, eq_self, h_regs, h_pregs, h_lows, h_ctxCfg, h_updCfg, h_fwdCfg, h_drvCfg, h_fe, h_xl, h_tb, h_sp, h_qz, h_up, h_ch, h_gs, h_mem, h_fl, h_tel, h_pw, h_st, h_i3, h_rl, h_free, h_out, stepGrant_hide]; done)
    | with_reducible apply hide_if
    | with_reducible apply hide_if1
    | split
    | (rw [forEach_hide])
    | (rw [foldl_hide])
    | (rw [foldlS_hide])
    | (intro; intros; try dsimp only)
    | (simp only [hide_ite, ite_self, ite_fst, implies_true, eq_self, h_regs, h_pregs, h_lows, h_ctxCfg, h_updCfg, h_fwdCfg, h_drvCfg, h_fe, h_xl, h_tb, h_sp, h_qz, h_up, h_ch, h_gs, h_mem, h_fl, h_tel, h_pw, h_st, h_i3, h_rl, h_free, h_out, stepGrant_hide])

theorem gateGroup_hide (h_pw : M .pw = true) (s : State) (g : Nat) : hide M (State.gateGroup s g) = hide M s := by
  unfold State.gateGroup
  try dsimp only
  repeat' first
    | with_reducible rfl
    | (simp only [hide_ite, ite_self, ite_fst, implies_true, eq_self, h_pw, onPw_hide]; done)
    | with_reducible apply hide_if
    | with_reducible apply hide_if1
    | split
    | (rw [forEach_hide])
    | (rw [foldl_hide])
    | (rw [foldlS_hide])
    | (intro; intros; try dsimp only)
    | (simp only [hide_ite, ite_self, ite_fst, implies_true, eq_self, h_pw, onPw_hide])

theorem execSliceGroupGate_hide (h_pw : M .pw = true) (group : Nat) (s : State) (t : State) (e : execSliceGroupGate group s = .next t) : hide M t = hide M s := by
  refine next_hide e ?_
  simp only [eq_self, h_pw, gateGroup_hide]

theorem execPowerGood_hide (h_regs : M .regs = true) (h_pregs : M .pregs = true) (h_lows : M .lows = true) (h_ctxCfg : M .ctxCfg = true) (h_updCfg : M .updCfg = true) (h_fwdCfg : M .fwdCfg = true) (h_drvCfg : M .drvCfg = true) (h_fe : M .fe = true) (h_xl : M .xl = true) (h_tb : M .tb = true) (h_sp : M .sp = true) (h_qz : M .qz = true) (h_up : M .up = true) (h_ch : M .ch = true) (h_gs : M .gs = true) (h_mem : M .mem = true) (h_fl : M .fl = true) (h_tel : M .tel = true) (h_pw : M .pw = true) (h_st : M .st = true) (h_i3 : M .i3 = true) (h_rl : M .rl = true) (h_free : M .free = true) (h_out : M .out = true) (su : Startup) (s : State) (t : State) (e : execPowerGood su s = .next t) : hide M t = hide M s := by
  simp only [execPowerGood, Host.Outcome.next.injEq] at e
  subst e
  repeat' first
    | with_reducible rfl
    | (simp only [hide_ite, ite_self, ite_fst, implies_true, eq_self, h_regs, h_pregs, h_lows, h_ctxCfg, h_updCfg, h_fwdCfg, h_drvCfg, h_fe, h_xl, h_tb, h_sp, h_qz, h_up, h_ch, h_gs, h_mem, h_fl, h_tel, h_pw, h_st, h_i3, h_rl, h_free, h_out, afterStart_hide, onPw_hide, powerOn_hide]; done)
    | with_reducible apply hide_if
    | with_reducible apply hide_if1
    | split
    | (rw [forEach_hide])
    | (rw [foldl_hide])
    | (rw [foldlS_hide])
    | (intro; intros; try dsimp only)
    | (simp only [hide_ite, ite_self, ite_fst, implies_true, eq_self, h_regs, h_pregs, h_lows, h_ctxCfg, h_updCfg, h_fwdCfg, h_drvCfg, h_fe, h_xl, h_tb, h_sp, h_qz, h_up, h_ch, h_gs, h_mem, h_fl, h_tel, h_pw, h_st, h_i3, h_rl, h_free, h_out, afterStart_hide, onPw_hide, powerOn_hide])

theorem resetBlock_hide (h_regs : M .regs = true) (h_pregs : M .pregs = true) (h_lows : M .lows = true) (h_ctxCfg : M .ctxCfg = true) (h_updCfg : M .updCfg = true) (h_fwdCfg : M .fwdCfg = true) (h_drvCfg : M .drvCfg = true) (h_fe : M .fe = true) (h_xl : M .xl = true) (h_tb : M .tb = true) (h_sp : M .sp = true) (h_qz : M .qz = true) (h_up : M .up = true) (h_ch : M .ch = true) (h_gs : M .gs = true) (h_mem : M .mem = true) (h_fl : M .fl = true) (h_tel : M .tel = true) (h_pw : M .pw = true) (h_st : M .st = true) (h_i3 : M .i3 = true) (h_rl : M .rl = true) (h_free : M .free = true) (h_out : M .out = true) (s : State) (p : Path) (su : Startup) : hide M (State.resetBlock s p su) = hide M s := by
  unfold State.resetBlock
  try dsimp only
  repeat' first
    | with_reducible rfl
    | (simp only [hide_ite, ite_self, ite_fst, implies_true, eq_self, h_regs, h_pregs, h_lows, h_ctxCfg, h_updCfg, h_fwdCfg, h_drvCfg, h_fe, h_xl, h_tb, h_sp, h_qz, h_up, h_ch, h_gs, h_mem, h_fl, h_tel, h_pw, h_st, h_i3, h_rl, h_free, h_out, afterStart_hide, auditReg_hide, blockReset_hide, denyWrite_hide, ignoreWrite_hide, shutOut_hide]; done)
    | with_reducible apply hide_if
    | with_reducible apply hide_if1
    | split
    | (rw [forEach_hide])
    | (rw [foldl_hide])
    | (rw [foldlS_hide])
    | (intro; intros; try dsimp only)
    | (simp only [hide_ite, ite_self, ite_fst, implies_true, eq_self, h_regs, h_pregs, h_lows, h_ctxCfg, h_updCfg, h_fwdCfg, h_drvCfg, h_fe, h_xl, h_tb, h_sp, h_qz, h_up, h_ch, h_gs, h_mem, h_fl, h_tel, h_pw, h_st, h_i3, h_rl, h_free, h_out, afterStart_hide, auditReg_hide, blockReset_hide, denyWrite_hide, ignoreWrite_hide, shutOut_hide])

theorem execBlockResetCmd_hide (h_regs : M .regs = true) (h_pregs : M .pregs = true) (h_lows : M .lows = true) (h_ctxCfg : M .ctxCfg = true) (h_updCfg : M .updCfg = true) (h_fwdCfg : M .fwdCfg = true) (h_drvCfg : M .drvCfg = true) (h_fe : M .fe = true) (h_xl : M .xl = true) (h_tb : M .tb = true) (h_sp : M .sp = true) (h_qz : M .qz = true) (h_up : M .up = true) (h_ch : M .ch = true) (h_gs : M .gs = true) (h_mem : M .mem = true) (h_fl : M .fl = true) (h_tel : M .tel = true) (h_pw : M .pw = true) (h_st : M .st = true) (h_i3 : M .i3 = true) (h_rl : M .rl = true) (h_free : M .free = true) (h_out : M .out = true) (p : Path) (su : Startup) (s : State) (t : State) (e : execBlockResetCmd p su s = .next t) : hide M t = hide M s := by
  simp only [execBlockResetCmd, Host.Outcome.next.injEq] at e
  subst e
  repeat' first
    | with_reducible rfl
    | (simp only [hide_ite, ite_self, ite_fst, implies_true, eq_self, h_regs, h_pregs, h_lows, h_ctxCfg, h_updCfg, h_fwdCfg, h_drvCfg, h_fe, h_xl, h_tb, h_sp, h_qz, h_up, h_ch, h_gs, h_mem, h_fl, h_tel, h_pw, h_st, h_i3, h_rl, h_free, h_out, resetBlock_hide]; done)
    | with_reducible apply hide_if
    | with_reducible apply hide_if1
    | split
    | (rw [forEach_hide])
    | (rw [foldl_hide])
    | (rw [foldlS_hide])
    | (intro; intros; try dsimp only)
    | (simp only [hide_ite, ite_self, ite_fst, implies_true, eq_self, h_regs, h_pregs, h_lows, h_ctxCfg, h_updCfg, h_fwdCfg, h_drvCfg, h_fe, h_xl, h_tb, h_sp, h_qz, h_up, h_ch, h_gs, h_mem, h_fl, h_tel, h_pw, h_st, h_i3, h_rl, h_free, h_out, resetBlock_hide])

theorem execTapReset_hide (h_pw : M .pw = true) (s : State) (t : State) (e : execTapReset s = .next t) : hide M t = hide M s := by
  simp only [execTapReset, Host.Outcome.next.injEq] at e
  subst e
  repeat' first
    | with_reducible rfl
    | (simp only [hide_ite, ite_self, ite_fst, implies_true, eq_self, h_pw, onPw_hide]; done)
    | with_reducible apply hide_if
    | with_reducible apply hide_if1
    | split
    | (rw [forEach_hide])
    | (rw [foldl_hide])
    | (rw [foldlS_hide])
    | (intro; intros; try dsimp only)
    | (simp only [hide_ite, ite_self, ite_fst, implies_true, eq_self, h_pw, onPw_hide])

theorem execPowerLoss_hide (h_regs : M .regs = true) (h_pregs : M .pregs = true) (h_lows : M .lows = true) (h_ctxCfg : M .ctxCfg = true) (h_updCfg : M .updCfg = true) (h_fwdCfg : M .fwdCfg = true) (h_drvCfg : M .drvCfg = true) (h_fe : M .fe = true) (h_xl : M .xl = true) (h_tb : M .tb = true) (h_sp : M .sp = true) (h_qz : M .qz = true) (h_up : M .up = true) (h_ch : M .ch = true) (h_gs : M .gs = true) (h_mem : M .mem = true) (h_fl : M .fl = true) (h_tel : M .tel = true) (h_pw : M .pw = true) (h_st : M .st = true) (h_i3 : M .i3 = true) (h_rl : M .rl = true) (s : State) (t : State) (e : execPowerLoss s = .next t) : hide M t = hide M s := by
  simp only [execPowerLoss, Host.Outcome.next.injEq] at e
  subst e
  repeat' first
    | with_reducible rfl
    | (simp only [hide_ite, ite_self, ite_fst, implies_true, eq_self, h_regs, h_pregs, h_lows, h_ctxCfg, h_updCfg, h_fwdCfg, h_drvCfg, h_fe, h_xl, h_tb, h_sp, h_qz, h_up, h_ch, h_gs, h_mem, h_fl, h_tel, h_pw, h_st, h_i3, h_rl, cleared_hide, onPw_hide]; done)
    | with_reducible apply hide_if
    | with_reducible apply hide_if1
    | split
    | (rw [forEach_hide])
    | (rw [foldl_hide])
    | (rw [foldlS_hide])
    | (intro; intros; try dsimp only)
    | (simp only [hide_ite, ite_self, ite_fst, implies_true, eq_self, h_regs, h_pregs, h_lows, h_ctxCfg, h_updCfg, h_fwdCfg, h_drvCfg, h_fe, h_xl, h_tb, h_sp, h_qz, h_up, h_ch, h_gs, h_mem, h_fl, h_tel, h_pw, h_st, h_i3, h_rl, cleared_hide, onPw_hide])

theorem groupSample_hide (h_gs : M .gs = true) (h_tel : M .tel = true) (s : State) (g t : Nat) : hide M (State.groupSample s g t) = hide M s := by
  unfold State.groupSample
  (repeat' split) <;> simp only [implies_true, eq_self, h_gs, h_tel, forEach_hide, onPhys_hide, tell_hide]

theorem trip_hide (h_regs : M .regs = true) (h_pregs : M .pregs = true) (h_lows : M .lows = true) (h_ctxCfg : M .ctxCfg = true) (h_updCfg : M .updCfg = true) (h_fwdCfg : M .fwdCfg = true) (h_drvCfg : M .drvCfg = true) (h_fe : M .fe = true) (h_xl : M .xl = true) (h_tb : M .tb = true) (h_sp : M .sp = true) (h_qz : M .qz = true) (h_up : M .up = true) (h_ch : M .ch = true) (h_gs : M .gs = true) (h_mem : M .mem = true) (h_fl : M .fl = true) (h_tel : M .tel = true) (h_pw : M .pw = true) (h_st : M .st = true) (h_i3 : M .i3 = true) (h_rl : M .rl = true) (s : State) : hide M (State.trip s) = hide M s := by
  unfold State.trip
  simp only [eq_self, h_regs, h_pregs, h_lows, h_ctxCfg, h_updCfg, h_fwdCfg, h_drvCfg, h_fe, h_xl, h_tb, h_sp, h_qz, h_up, h_ch, h_gs, h_mem, h_fl, h_tel, h_pw, h_st, h_i3, h_rl, cleared_hide, onPw_hide]

theorem thermalSample_hide (h_regs : M .regs = true) (h_pregs : M .pregs = true) (h_lows : M .lows = true) (h_ctxCfg : M .ctxCfg = true) (h_updCfg : M .updCfg = true) (h_fwdCfg : M .fwdCfg = true) (h_drvCfg : M .drvCfg = true) (h_fe : M .fe = true) (h_xl : M .xl = true) (h_tb : M .tb = true) (h_sp : M .sp = true) (h_qz : M .qz = true) (h_up : M .up = true) (h_ch : M .ch = true) (h_gs : M .gs = true) (h_mem : M .mem = true) (h_fl : M .fl = true) (h_tel : M .tel = true) (h_pw : M .pw = true) (h_st : M .st = true) (h_i3 : M .i3 = true) (h_rl : M .rl = true) (h_free : M .free = true) (h_out : M .out = true) (s : State) (temps : List Nat) (su : Startup) : hide M (State.thermalSample s temps su) = hide M s := by
  unfold State.thermalSample
  try dsimp only
  repeat' first
    | with_reducible rfl
    | (simp only [hide_ite, ite_self, ite_fst, implies_true, eq_self, h_regs, h_pregs, h_lows, h_ctxCfg, h_updCfg, h_fwdCfg, h_drvCfg, h_fe, h_xl, h_tb, h_sp, h_qz, h_up, h_ch, h_gs, h_mem, h_fl, h_tel, h_pw, h_st, h_i3, h_rl, h_free, h_out, forEach_hide, afterStart_hide, groupSample_hide, logSensor_hide, onPw_hide, onSt_hide, startUp_hide, trip_hide]; done)
    | with_reducible apply hide_if
    | with_reducible apply hide_if1
    | split
    | (rw [forEach_hide])
    | (rw [foldl_hide])
    | (rw [foldlS_hide])
    | (intro; intros; try dsimp only)
    | (simp only [hide_ite, ite_self, ite_fst, implies_true, eq_self, h_regs, h_pregs, h_lows, h_ctxCfg, h_updCfg, h_fwdCfg, h_drvCfg, h_fe, h_xl, h_tb, h_sp, h_qz, h_up, h_ch, h_gs, h_mem, h_fl, h_tel, h_pw, h_st, h_i3, h_rl, h_free, h_out, forEach_hide, afterStart_hide, groupSample_hide, logSensor_hide, onPw_hide, onSt_hide, startUp_hide, trip_hide])

theorem execThermalSample_hide (h_regs : M .regs = true) (h_pregs : M .pregs = true) (h_lows : M .lows = true) (h_ctxCfg : M .ctxCfg = true) (h_updCfg : M .updCfg = true) (h_fwdCfg : M .fwdCfg = true) (h_drvCfg : M .drvCfg = true) (h_fe : M .fe = true) (h_xl : M .xl = true) (h_tb : M .tb = true) (h_sp : M .sp = true) (h_qz : M .qz = true) (h_up : M .up = true) (h_ch : M .ch = true) (h_gs : M .gs = true) (h_mem : M .mem = true) (h_fl : M .fl = true) (h_tel : M .tel = true) (h_pw : M .pw = true) (h_st : M .st = true) (h_i3 : M .i3 = true) (h_rl : M .rl = true) (h_free : M .free = true) (h_out : M .out = true) (temps : List Nat) (su : Startup) (s : State) (t : State) (e : execThermalSample temps su s = .next t) : hide M t = hide M s := by
  simp only [execThermalSample, Host.Outcome.next.injEq] at e
  subst e
  repeat' first
    | with_reducible rfl
    | (simp only [hide_ite, ite_self, ite_fst, implies_true, eq_self, h_regs, h_pregs, h_lows, h_ctxCfg, h_updCfg, h_fwdCfg, h_drvCfg, h_fe, h_xl, h_tb, h_sp, h_qz, h_up, h_ch, h_gs, h_mem, h_fl, h_tel, h_pw, h_st, h_i3, h_rl, h_free, h_out, thermalSample_hide]; done)
    | with_reducible apply hide_if
    | with_reducible apply hide_if1
    | split
    | (rw [forEach_hide])
    | (rw [foldl_hide])
    | (rw [foldlS_hide])
    | (intro; intros; try dsimp only)
    | (simp only [hide_ite, ite_self, ite_fst, implies_true, eq_self, h_regs, h_pregs, h_lows, h_ctxCfg, h_updCfg, h_fwdCfg, h_drvCfg, h_fe, h_xl, h_tb, h_sp, h_qz, h_up, h_ch, h_gs, h_mem, h_fl, h_tel, h_pw, h_st, h_i3, h_rl, h_free, h_out, thermalSample_hide])

theorem execThermalTrip_hide (h_regs : M .regs = true) (h_pregs : M .pregs = true) (h_lows : M .lows = true) (h_ctxCfg : M .ctxCfg = true) (h_updCfg : M .updCfg = true) (h_fwdCfg : M .fwdCfg = true) (h_drvCfg : M .drvCfg = true) (h_fe : M .fe = true) (h_xl : M .xl = true) (h_tb : M .tb = true) (h_sp : M .sp = true) (h_qz : M .qz = true) (h_up : M .up = true) (h_ch : M .ch = true) (h_gs : M .gs = true) (h_mem : M .mem = true) (h_fl : M .fl = true) (h_tel : M .tel = true) (h_pw : M .pw = true) (h_st : M .st = true) (h_i3 : M .i3 = true) (h_rl : M .rl = true) (s : State) (t : State) (e : execThermalTrip s = .next t) : hide M t = hide M s := by
  refine next_hide e ?_
  simp only [hide_ite, ite_self, eq_self, h_regs, h_pregs, h_lows, h_ctxCfg, h_updCfg, h_fwdCfg, h_drvCfg, h_fe, h_xl, h_tb, h_sp, h_qz, h_up, h_ch, h_gs, h_mem, h_fl, h_tel, h_pw, h_st, h_i3, h_rl, trip_hide]

end Sys2Proof.Laws
end

