-- ==== Sys2Proof/Laws/CanonPower.lean ====
section
/-!
SUPPORT. What Machine/Power.lean defines keeps Ground store's bytes in canonical form.
-/

namespace Sys2Proof.Laws

open Sys2Proof.Machine

theorem enterOff_canon (s : State) (fails : WbFails) (hs : Canon (hide butMem s)) : Canon (hide butMem (State.enterOff s fails)) := by
  unfold State.enterOff
  try dsimp only
  repeat' first
    | with_reducible assumption
    | split
    | (with_reducible apply cleared_canon)
    | with_reducible apply forEach_canon
    | with_reducible apply foldl_canon
    | (intro; intros; try dsimp only)
    | (simp only [count_hide (M := butMem) rfl, logLost_hide (M := butMem) rfl, send_hide (M := butMem) rfl, sendAll_hide (M := butMem) rfl, tell_hide (M := butMem) rfl, writeAll_hide (M := butMem) rfl rfl rfl rfl rfl rfl rfl, onTel_hide (M := butMem) rfl, onPw_hide (M := butMem) rfl, implies_true, eq_self])

theorem offEnd_canon (s : State) (hs : Canon (hide butMem s)) : Canon (hide butMem (State.offEnd s)) := by
  unfold State.offEnd
  try dsimp only
  repeat' first
    | with_reducible assumption
    | split
    | (with_reducible apply enterOff_canon)
    | with_reducible apply forEach_canon
    | with_reducible apply foldl_canon
    | (intro; intros; try dsimp only)
    | (simp only [implies_true, eq_self])

theorem goOff_canon (s : State) (fails : WbFails) (hs : Canon (hide butMem s)) : Canon (hide butMem (State.goOff s fails)) := by
  unfold State.goOff
  try dsimp only
  repeat' first
    | with_reducible assumption
    | split
    | (with_reducible apply offEnd_canon)
    | with_reducible apply forEach_canon
    | with_reducible apply foldl_canon
    | (intro; intros; try dsimp only)
    | (simp only [fabDrain_hide (M := butMem) rfl rfl, onPw_hide (M := butMem) rfl, forEach_hide, implies_true, eq_self])

theorem pmhRequest_canon (s : State) (target : Nat) (fails : WbFails) (hs : Canon (hide butMem s)) : Canon (hide butMem (State.pmhRequest s target fails)) := by
  unfold State.pmhRequest
  try dsimp only
  repeat' first
    | with_reducible assumption
    | split
    | (with_reducible apply goOff_canon)
    | with_reducible apply forEach_canon
    | with_reducible apply foldl_canon
    | (intro; intros; try dsimp only)
    | (simp only [reservedReq_hide (M := butMem) rfl rfl, serveState_hide (M := butMem) rfl rfl rfl, onPw_hide (M := butMem) rfl, implies_true, eq_self])

theorem serveHeld_canon (s : State) (hs : Canon (hide butMem s)) : Canon (hide butMem (State.serveHeld s)) := by
  unfold State.serveHeld
  try dsimp only
  repeat' first
    | with_reducible assumption
    | split
    | (with_reducible apply pmhRequest_canon)
    | with_reducible apply forEach_canon
    | with_reducible apply foldl_canon
    | (intro; intros; try dsimp only)
    | (simp only [onPw_hide (M := butMem) rfl])

theorem afterStart_canon (s : State) (hs : Canon (hide butMem s)) : Canon (hide butMem (State.afterStart s)) := by
  unfold State.afterStart
  try dsimp only
  repeat' first
    | with_reducible assumption
    | split
    | (with_reducible apply serveHeld_canon)
    | with_reducible apply forEach_canon
    | with_reducible apply foldl_canon
    | (intro; intros; try dsimp only)
    | (simp only [implies_true, eq_self])

theorem endExchange_canon (s : State) (hs : Canon (hide butMem s)) : Canon (hide butMem (State.endExchange s)) := by
  unfold State.endExchange
  try dsimp only
  repeat' first
    | with_reducible assumption
    | split
    | (with_reducible apply offEnd_canon)
    | (with_reducible apply serveHeld_canon)
    | with_reducible apply forEach_canon
    | with_reducible apply foldl_canon
    | (intro; intros; try dsimp only)
    | (simp only [enterState_hide (M := butMem) rfl rfl rfl, fabSettle_hide (M := butMem) rfl rfl, implies_true, eq_self])

theorem rest_canon (isOpen : Bool) (s : State) (hs : Canon (hide butMem s)) : Canon (hide butMem (State.rest isOpen s)) := by
  unfold State.rest
  try dsimp only
  repeat' first
    | with_reducible assumption
    | split
    | (with_reducible apply endExchange_canon)
    | with_reducible apply forEach_canon
    | with_reducible apply foldl_canon
    | (intro; intros; try dsimp only)
    | (simp only [implies_true, eq_self])

theorem pllFault_canon (s : State) (d : Nat) (su : Startup) (hs : Canon (hide butMem s)) : Canon (hide butMem (State.pllFault s d su)) := by
  unfold State.pllFault
  try dsimp only
  repeat' first
    | with_reducible assumption
    | split
    | (with_reducible apply afterStart_canon)
    | (with_reducible apply blockReset_canon)
    | with_reducible apply forEach_canon
    | with_reducible apply foldl_canon
    | (intro; intros; try dsimp only)
    | (simp only [logSensor_hide (M := butMem) rfl, spared_hide (M := butMem) rfl rfl, onPw_hide (M := butMem) rfl, implies_true, eq_self])

theorem execPllFault_canon (domain : Nat) (su : Startup) (s : State) (t : State) (e : execPllFault domain su s = .next t) (hs : Canon (hide butMem s)) : Canon (hide butMem t) := by
  refine next_canon e ?_
  repeat' first
    | with_reducible assumption
    | split
    | (with_reducible apply pllFault_canon)
    | with_reducible apply forEach_canon
    | with_reducible apply foldl_canon
    | (intro; intros; try dsimp only)
    | (simp only [implies_true, eq_self])

theorem referenceReturn_canon (s : State) (us : Nat) (hs : Canon (hide butMem s)) : Canon (hide butMem (State.referenceReturn s us)) := by
  unfold State.referenceReturn
  try dsimp only
  repeat' first
    | with_reducible assumption
    | split
    | (with_reducible apply afterStart_canon)
    | (with_reducible apply startOn_canon)
    | with_reducible apply forEach_canon
    | with_reducible apply foldl_canon
    | (intro; intros; try dsimp only)
    | (simp only [refGood_hide (M := butMem) rfl, tell_hide (M := butMem) rfl, onPw_hide (M := butMem) rfl, implies_true, eq_self])

theorem execReferenceReturn_canon (us : Nat) (s : State) (t : State) (e : execReferenceReturn us s = .next t) (hs : Canon (hide butMem s)) : Canon (hide butMem t) := by
  refine next_canon e ?_
  repeat' first
    | with_reducible assumption
    | split
    | (with_reducible apply referenceReturn_canon)
    | with_reducible apply forEach_canon
    | with_reducible apply foldl_canon
    | (intro; intros; try dsimp only)
    | (simp only [implies_true, eq_self])

theorem refLoss_canon (s : State) (su : Startup) (hs : Canon (hide butMem s)) : Canon (hide butMem (State.refLoss s su)) := by
  unfold State.refLoss
  try dsimp only
  repeat' first
    | with_reducible assumption
    | split
    | (with_reducible apply afterStart_canon)
    | (with_reducible apply blockReset_canon)
    | with_reducible apply forEach_canon
    | with_reducible apply foldl_canon
    | (intro; intros; try dsimp only)
    | (simp only [implies_true, eq_self])

theorem execRefLossTimeout_canon (su : Startup) (s : State) (t : State) (e : execRefLossTimeout su s = .next t) (hs : Canon (hide butMem s)) : Canon (hide butMem t) := by
  refine next_canon e ?_
  repeat' first
    | with_reducible assumption
    | split
    | (with_reducible apply refLoss_canon)
    | with_reducible apply forEach_canon
    | with_reducible apply foldl_canon
    | (intro; intros; try dsimp only)
    | (simp only [implies_true, eq_self])

theorem pllAon_canon (s : State) (locked : Bool) (us : Nat) (su : Startup) (hs : Canon (hide butMem s)) : Canon (hide butMem (State.pllAon s locked us su)) := by
  unfold State.pllAon
  try dsimp only
  repeat' first
    | with_reducible assumption
    | split
    | (with_reducible apply afterStart_canon)
    | (with_reducible apply cleared_canon)
    | (with_reducible apply startUp_canon)
    | with_reducible apply forEach_canon
    | with_reducible apply foldl_canon
    | (intro; intros; try dsimp only)
    | (simp only [shortBursts_hide (M := butMem) rfl, stuck_hide (M := butMem) rfl, tell_hide (M := butMem) rfl, onPw_hide (M := butMem) rfl, implies_true, eq_self])

theorem execPllAonFault_canon (locked : Bool) (us : Nat) (su : Startup) (s : State) (t : State) (e : execPllAonFault locked us su s = .next t) (hs : Canon (hide butMem s)) : Canon (hide butMem t) := by
  refine next_canon e ?_
  repeat' first
    | with_reducible assumption
    | split
    | (with_reducible apply pllAon_canon)
    | with_reducible apply forEach_canon
    | with_reducible apply foldl_canon
    | (intro; intros; try dsimp only)
    | (simp only [implies_true, eq_self])

theorem pmh_canon (s : State) (target : Nat) (fails : WbFails) (may : Nat → Bool) (hs : Canon (hide butMem s)) : Canon (hide butMem (State.pmh s target fails may)) := by
  unfold State.pmh
  try dsimp only
  repeat' first
    | with_reducible assumption
    | split
    | (with_reducible apply pmhRequest_canon)
    | (with_reducible apply serveHeld_canon)
    | with_reducible apply forEach_canon
    | with_reducible apply foldl_canon
    | (intro; intros; try dsimp only)
    | (simp only [onPw_hide (M := butMem) rfl, implies_true, eq_self])

theorem leaveOff_canon (s : State) (target : Nat) (su : Startup) (hs : Canon (hide butMem s)) : Canon (hide butMem (State.leaveOff s target su)) := by
  unfold State.leaveOff
  try dsimp only
  repeat' first
    | with_reducible assumption
    | split
    | (with_reducible apply afterStart_canon)
    | (with_reducible apply blockReset_canon)
    | (with_reducible apply pmhRequest_canon)
    | with_reducible apply forEach_canon
    | with_reducible apply foldl_canon
    | (intro; intros; try dsimp only)
    | (simp only [onPw_hide (M := butMem) rfl, implies_true, eq_self])

theorem raiseOff_canon (s : State) (target : Nat) (su : Startup) (hs : Canon (hide butMem s)) : Canon (hide butMem (State.raiseOff s target su)) := by
  unfold State.raiseOff
  try dsimp only
  repeat' first
    | with_reducible assumption
    | split
    | (with_reducible apply leaveOff_canon)
    | with_reducible apply forEach_canon
    | with_reducible apply foldl_canon
    | (intro; intros; try dsimp only)
    | (simp only [onPw_hide (M := butMem) rfl, implies_true, eq_self])

theorem execPmhRaise_canon (target : Nat) (su : Startup) (s : State) (t : State) (e : execPmhRaise target su s = .next t) (hs : Canon (hide butMem s)) : Canon (hide butMem t) := by
  refine next_canon e ?_
  repeat' first
    | with_reducible assumption
    | split
    | (with_reducible apply pmh_canon)
    | (with_reducible apply raiseOff_canon)
    | with_reducible apply forEach_canon
    | with_reducible apply foldl_canon
    | (intro; intros; try dsimp only)
    | (simp only [implies_true, eq_self])

theorem execPmhLower_canon (target : Nat) (s : State) (t : State) (e : execPmhLower target s = .next t) (hs : Canon (hide butMem s)) : Canon (hide butMem t) := by
  refine next_canon e ?_
  repeat' first
    | with_reducible assumption
    | split
    | (with_reducible apply pmh_canon)
    | with_reducible apply forEach_canon
    | with_reducible apply foldl_canon
    | (intro; intros; try dsimp only)

theorem execPmhEnterStandby_canon (s : State) (t : State) (e : execPmhEnterStandby s = .next t) (hs : Canon (hide butMem s)) : Canon (hide butMem t) := by
  refine next_canon e ?_
  repeat' first
    | with_reducible assumption
    | split
    | (with_reducible apply pmh_canon)
    | with_reducible apply forEach_canon
    | with_reducible apply foldl_canon
    | (intro; intros; try dsimp only)

theorem execPmhLeaveStandby_canon (target : Nat) (s : State) (t : State) (e : execPmhLeaveStandby target s = .next t) (hs : Canon (hide butMem s)) : Canon (hide butMem t) := by
  refine next_canon e ?_
  repeat' first
    | with_reducible assumption
    | split
    | (with_reducible apply pmh_canon)
    | with_reducible apply forEach_canon
    | with_reducible apply foldl_canon
    | (intro; intros; try dsimp only)

theorem execPmhOff_canon (fails : WbFails) (s : State) (t : State) (e : execPmhOff fails s = .next t) (hs : Canon (hide butMem s)) : Canon (hide butMem t) := by
  refine next_canon e ?_
  repeat' first
    | with_reducible assumption
    | split
    | (with_reducible apply pmh_canon)
    | with_reducible apply forEach_canon
    | with_reducible apply foldl_canon
    | (intro; intros; try dsimp only)
    | (simp only [implies_true, eq_self])

theorem execReservedStateRequest_canon (target : Nat) (s : State) (t : State) (e : execReservedStateRequest target s = .next t) (hs : Canon (hide butMem s)) : Canon (hide butMem t) := by
  refine next_canon e ?_
  repeat' first
    | with_reducible assumption
    | split
    | (with_reducible apply pmh_canon)
    | with_reducible apply forEach_canon
    | with_reducible apply foldl_canon
    | (intro; intros; try dsimp only)

theorem emergRelease_canon (s : State) (hs : Canon (hide butMem s)) : Canon (hide butMem (State.emergRelease s)) := by
  unfold State.emergRelease
  try dsimp only
  repeat' first
    | with_reducible assumption
    | split
    | (with_reducible apply afterStart_canon)
    | (with_reducible apply leaveOff_canon)
    | with_reducible apply forEach_canon
    | with_reducible apply foldl_canon
    | (intro; intros; try dsimp only)
    | (simp only [tell_hide (M := butMem) rfl, onPw_hide (M := butMem) rfl, implies_true, eq_self])

theorem execPmhEmergRelease_canon (s : State) (t : State) (e : execPmhEmergRelease s = .next t) (hs : Canon (hide butMem s)) : Canon (hide butMem t) := by
  refine next_canon e ?_
  repeat' first
    | with_reducible assumption
    | split
    | (with_reducible apply emergRelease_canon)
    | with_reducible apply forEach_canon
    | with_reducible apply foldl_canon
    | (intro; intros; try dsimp only)
    | (simp only [implies_true, eq_self])

theorem stepGrant_canon (s : State) (hs : Canon (hide butMem s)) : Canon (hide butMem (State.stepGrant s)) := by
  unfold State.stepGrant
  try dsimp only
  repeat' first
    | with_reducible assumption
    | split
    | (with_reducible apply afterStart_canon)
    | (with_reducible apply goReady_canon)
    | with_reducible apply forEach_canon
    | with_reducible apply foldl_canon
    | (intro; intros; try dsimp only)
    | (simp only [count_hide (M := butMem) rfl, send_hide (M := butMem) rfl, onPw_hide (M := butMem) rfl, implies_true, eq_self])

theorem execPmhStepGnt_canon (s : State) (t : State) (e : execPmhStepGnt s = .next t) (hs : Canon (hide butMem s)) : Canon (hide butMem t) := by
  refine next_canon e ?_
  repeat' first
    | with_reducible assumption
    | split
    | (with_reducible apply stepGrant_canon)
    | with_reducible apply forEach_canon
    | with_reducible apply foldl_canon
    | (intro; intros; try dsimp only)
    | (simp only [implies_true, eq_self])

theorem execPowerGood_canon (su : Startup) (s : State) (t : State) (e : execPowerGood su s = .next t) (hs : Canon (hide butMem s)) : Canon (hide butMem t) := by
  refine next_canon e ?_
  repeat' first
    | with_reducible assumption
    | split
    | (with_reducible apply afterStart_canon)
    | (with_reducible apply powerOn_canon)
    | with_reducible apply forEach_canon
    | with_reducible apply foldl_canon
    | (intro; intros; try dsimp only)
    | (simp only [onPw_hide (M := butMem) rfl, implies_true, eq_self])

theorem resetBlock_canon (s : State) (p : Path) (su : Startup) (hs : Canon (hide butMem s)) : Canon (hide butMem (State.resetBlock s p su)) := by
  unfold State.resetBlock
  try dsimp only
  repeat' first
    | with_reducible assumption
    | split
    | (with_reducible apply afterStart_canon)
    | (with_reducible apply blockReset_canon)
    | with_reducible apply forEach_canon
    | with_reducible apply foldl_canon
    | (intro; intros; try dsimp only)
    | (simp only [auditReg_hide (M := butMem) rfl rfl, denyWrite_hide (M := butMem) rfl rfl, ignoreWrite_hide (M := butMem) rfl, shutOut_hide (M := butMem) rfl, implies_true, eq_self])

theorem execBlockResetCmd_canon (p : Path) (su : Startup) (s : State) (t : State) (e : execBlockResetCmd p su s = .next t) (hs : Canon (hide butMem s)) : Canon (hide butMem t) := by
  refine next_canon e ?_
  repeat' first
    | with_reducible assumption
    | split
    | (with_reducible apply resetBlock_canon)
    | with_reducible apply forEach_canon
    | with_reducible apply foldl_canon
    | (intro; intros; try dsimp only)
    | (simp only [implies_true, eq_self])

theorem execPowerLoss_canon (s : State) (t : State) (e : execPowerLoss s = .next t) (hs : Canon (hide butMem s)) : Canon (hide butMem t) := by
  refine next_canon e ?_
  repeat' first
    | with_reducible assumption
    | split
    | (with_reducible apply cleared_canon)
    | with_reducible apply forEach_canon
    | with_reducible apply foldl_canon
    | (intro; intros; try dsimp only)
    | (simp only [onPw_hide (M := butMem) rfl, implies_true, eq_self])

theorem trip_canon (s : State) (hs : Canon (hide butMem s)) : Canon (hide butMem (State.trip s)) := by
  unfold State.trip
  try dsimp only
  repeat' first
    | with_reducible assumption
    | split
    | (with_reducible apply cleared_canon)
    | with_reducible apply forEach_canon
    | with_reducible apply foldl_canon
    | (intro; intros; try dsimp only)
    | (simp only [onPw_hide (M := butMem) rfl])

theorem thermalSample_canon (s : State) (temps : List Nat) (su : Startup) (hs : Canon (hide butMem s)) : Canon (hide butMem (State.thermalSample s temps su)) := by
  unfold State.thermalSample
  try dsimp only
  repeat' first
    | with_reducible assumption
    | split
    | (with_reducible apply afterStart_canon)
    | (with_reducible apply startUp_canon)
    | (with_reducible apply trip_canon)
    | with_reducible apply forEach_canon
    | with_reducible apply foldl_canon
    | (intro; intros; try dsimp only)
    | (simp only [groupSample_hide (M := butMem) rfl rfl, logSensor_hide (M := butMem) rfl, onPw_hide (M := butMem) rfl, onSt_hide (M := butMem) rfl, forEach_hide, implies_true, eq_self])

theorem execThermalSample_canon (temps : List Nat) (su : Startup) (s : State) (t : State) (e : execThermalSample temps su s = .next t) (hs : Canon (hide butMem s)) : Canon (hide butMem t) := by
  refine next_canon e ?_
  repeat' first
    | with_reducible assumption
    | split
    | (with_reducible apply thermalSample_canon)
    | with_reducible apply forEach_canon
    | with_reducible apply foldl_canon
    | (intro; intros; try dsimp only)
    | (simp only [implies_true, eq_self])

theorem execThermalTrip_canon (s : State) (t : State) (e : execThermalTrip s = .next t) (hs : Canon (hide butMem s)) : Canon (hide butMem t) := by
  refine next_canon e ?_
  repeat' first
    | with_reducible assumption
    | split
    | (with_reducible apply trip_canon)
    | with_reducible apply forEach_canon
    | with_reducible apply foldl_canon
    | (intro; intros; try dsimp only)

end Sys2Proof.Laws
end

