-- ==== Sys2Proof/Laws/FrameAuthority.lean ====
section
/-!
SUPPORT. Frames of what Machine/Authority.lean defines: the parts of the state that each may change.
-/

namespace Sys2Proof.Laws

open Sys2Proof.Machine

variable {M : Mask}

theorem moveLines_hide (h_fe : M .fe = true) (h_out : M .out = true) (s : State) : hide M (State.moveLines s) = hide M s := by
  unfold State.moveLines
  try dsimp only
  repeat' first
    | with_reducible rfl
    | (simp only [hide_ite, ite_self, ite_fst, implies_true, eq_self, h_fe, h_out, forEach_hide, sendAll_hide, takeLine_hide]; done)
    | with_reducible apply hide_if
    | with_reducible apply hide_if1
    | split
    | (rw [forEach_hide])
    | (rw [foldl_hide])
    | (rw [foldlS_hide])
    | (intro; intros; try dsimp only)
    | (simp only [hide_ite, ite_self, ite_fst, implies_true, eq_self, h_fe, h_out, forEach_hide, sendAll_hide, takeLine_hide])

theorem eyeletWrite_hide (h_regs : M .regs = true) (h_lows : M .lows = true) (h_fe : M .fe = true) (h_tel : M .tel = true) (h_st : M .st = true) (h_out : M .out = true) (s : State) (p : Path) (off size : Nat) (val : Word64) : hide M (State.eyeletWrite s p off size val) = hide M s := by
  unfold State.eyeletWrite
  try dsimp only
  repeat' first
    | with_reducible rfl
    | (simp only [hide_ite, ite_self, ite_fst, implies_true, eq_self, h_regs, h_lows, h_fe, h_tel, h_st, h_out, forEach_hide, fitLine_hide, moveLines_hide, regWrite_hide, put_eyeletBase_hide]; done)
    | with_reducible apply hide_if
    | with_reducible apply hide_if1
    | split
    | (rw [forEach_hide])
    | (rw [foldl_hide])
    | (rw [foldlS_hide])
    | (rw [regWrite_hide])
    | assumption
    | (intro; intros; try dsimp only)
    | (simp only [hide_ite, ite_self, ite_fst, implies_true, eq_self, h_regs, h_lows, h_fe, h_tel, h_st, h_out, forEach_hide, fitLine_hide, moveLines_hide, regWrite_hide, put_eyeletBase_hide])

theorem execEyeletBaseWrite_hide (h_regs : M .regs = true) (h_lows : M .lows = true) (h_fe : M .fe = true) (h_tel : M .tel = true) (h_st : M .st = true) (h_out : M .out = true) (p : Path) (off size : Nat) (val : Word64) (s : State) (t : State) (e : execEyeletBaseWrite p off size val s = .next t) : hide M t = hide M s := by
  refine next_hide e ?_
  simp only [eq_self, h_regs, h_lows, h_fe, h_tel, h_st, h_out, eyeletWrite_hide]

theorem closeDebug_hide (h_tel : M .tel = true) (h_st : M .st = true) (s : State) : hide M (State.closeDebug s) = hide M s := by
  unfold State.closeDebug
  simp only [eq_self, h_tel, h_st, auditHw_hide, onSt_hide]

theorem setPolicy_hide (h_tel : M .tel = true) (h_st : M .st = true) (s : State) (v : Word64) : hide M (State.setPolicy s v) = hide M s := by
  unfold State.setPolicy
  simp only [hide_ite, ite_self, eq_self, h_tel, h_st, closeDebug_hide, onSt_hide]

theorem tapFit_hide (h_pw : M .pw = true) (s : State) : hide M (State.tapFit s) = hide M s := by
  unfold State.tapFit
  try dsimp only
  repeat' first
    | with_reducible rfl
    | (simp only [hide_ite, ite_self, ite_fst, implies_true, eq_self, h_pw, onPw_hide]; done)
    | with_reducible apply hide_if
    | with_reducible apply hide_if1
    | split
    | (rw [forEach_hide])
    | (rw [foldl_hide])
    | (rw [foldlS_hide])
    | (intro; intros; try dsimp only)
    | (simp only [hide_ite, ite_self, ite_fst, implies_true, eq_self, h_pw, onPw_hide])

theorem authApply_hide (h_tel : M .tel = true) (h_st : M .st = true) (s : State) (p : Path) (reg : Nat) (val : Word64) (run : State → State) (h_run : ∀ (x0 : State), hide M (run x0) = hide M x0) : hide M (State.authApply s p reg val run) = hide M s := by
  unfold State.authApply
  simp only [hide_ite, ite_self, eq_self, h_tel, h_st, h_run, auditReg_hide]

theorem authRun_hide (h_lows : M .lows = true) (h_tel : M .tel = true) (h_pw : M .pw = true) (h_st : M .st = true) (h_out : M .out = true) (s : State) (p : Path) (off size : Nat) (val : Word64) : hide M (State.authRun s p off size val) = hide M s := by
  unfold State.authRun
  try dsimp only
  repeat' first
    | with_reducible rfl
    | (simp only [hide_ite, ite_self, ite_fst, implies_true, eq_self, h_lows, h_tel, h_pw, h_st, h_out, authApply_hide, regWrite_hide, setPolicy_hide, tapFit_hide, put_makerCtl_hide]; done)
    | with_reducible apply hide_if
    | with_reducible apply hide_if1
    | split
    | (rw [forEach_hide])
    | (rw [foldl_hide])
    | (rw [foldlS_hide])
    | (rw [authApply_hide])
    | (rw [regWrite_hide])
    | assumption
    | (intro; intros; try dsimp only)
    | (simp only [hide_ite, ite_self, ite_fst, implies_true, eq_self, h_lows, h_tel, h_pw, h_st, h_out, authApply_hide, regWrite_hide, setPolicy_hide, tapFit_hide, put_makerCtl_hide])

theorem authWrite_hide (h_lows : M .lows = true) (h_tel : M .tel = true) (h_pw : M .pw = true) (h_st : M .st = true) (h_out : M .out = true) (s : State) (p : Path) (off size : Nat) (val : Word64) : hide M (State.authWrite s p off size val) = hide M s := by
  unfold State.authWrite
  try dsimp only
  repeat' first
    | with_reducible rfl
    | (simp only [hide_ite, ite_self, ite_fst, implies_true, eq_self, h_lows, h_tel, h_pw, h_st, h_out, authRun_hide, ignoreWrite_hide, onSt_hide, shutOut_hide]; done)
    | with_reducible apply hide_if
    | with_reducible apply hide_if1
    | split
    | (rw [forEach_hide])
    | (rw [foldl_hide])
    | (rw [foldlS_hide])
    | (intro; intros; try dsimp only)
    | (simp only [hide_ite, ite_self, ite_fst, implies_true, eq_self, h_lows, h_tel, h_pw, h_st, h_out, authRun_hide, ignoreWrite_hide, onSt_hide, shutOut_hide])

theorem authDrain_hide (h_lows : M .lows = true) (h_tel : M .tel = true) (h_pw : M .pw = true) (h_st : M .st = true) (h_out : M .out = true) (s : State) : hide M (State.authDrain s) = hide M s := by
  unfold State.authDrain
  try dsimp only
  repeat' first
    | with_reducible rfl
    | (simp only [hide_ite, ite_self, ite_fst, implies_true, eq_self, h_lows, h_tel, h_pw, h_st, h_out, forEach_hide, authRun_hide, onSt_hide]; done)
    | with_reducible apply hide_if
    | with_reducible apply hide_if1
    | split
    | (rw [forEach_hide])
    | (rw [foldl_hide])
    | (rw [foldlS_hide])
    | (intro; intros; try dsimp only)
    | (simp only [hide_ite, ite_self, ite_fst, implies_true, eq_self, h_lows, h_tel, h_pw, h_st, h_out, forEach_hide, authRun_hide, onSt_hide])

theorem execAuthorityWrite_hide (h_lows : M .lows = true) (h_tel : M .tel = true) (h_pw : M .pw = true) (h_st : M .st = true) (h_out : M .out = true) (p : Path) (off size : Nat) (val : Word64) (s : State) (t : State) (e : execAuthorityWrite p off size val s = .next t) : hide M t = hide M s := by
  simp only [execAuthorityWrite, Host.Outcome.next.injEq] at e
  subst e
  repeat' first
    | with_reducible rfl
    | (simp only [hide_ite, ite_self, ite_fst, implies_true, eq_self, h_lows, h_tel, h_pw, h_st, h_out, authWrite_hide]; done)
    | with_reducible apply hide_if
    | with_reducible apply hide_if1
    | split
    | (rw [forEach_hide])
    | (rw [foldl_hide])
    | (rw [foldlS_hide])
    | (intro; intros; try dsimp only)
    | (simp only [hide_ite, ite_self, ite_fst, implies_true, eq_self, h_lows, h_tel, h_pw, h_st, h_out, authWrite_hide])

end Sys2Proof.Laws
end

