-- ==== Sys2Proof/Laws/FrameCores.lean ====
section
/-!
SUPPORT. Frames of what Machine/Cores.lean defines: the parts of the state that each may change.
-/

namespace Sys2Proof.Laws

open Sys2Proof.Machine

variable {M : Mask}

theorem setCore_hide (h_st : M .st = true) (s : State) (k : Nat) (c : CoreState) : hide M (State.setCore s k c) = hide M s := by
  unfold State.setCore
  simp only [eq_self, h_st, onSt_hide]

theorem haltCore_hide (h_tel : M .tel = true) (h_st : M .st = true) (s : State) (k cause : Nat) (pc : Word64) : hide M (State.haltCore s k cause pc) = hide M s := by
  unfold State.haltCore
  simp only [hide_ite, ite_self, eq_self, h_tel, h_st, onSt_hide, onTel_hide, setCore_hide, tell_hide]

theorem roleBack_hide (h_regs : M .regs = true) (h_lows : M .lows = true) (h_fe : M .fe = true) (h_tb : M .tb = true) (h_sp : M .sp = true) (h_up : M .up = true) (h_ch : M .ch = true) (h_gs : M .gs = true) (h_mem : M .mem = true) (h_fl : M .fl = true) (h_tel : M .tel = true) (h_pw : M .pw = true) (h_st : M .st = true) (h_rl : M .rl = true) (h_free : M .free = true) (h_out : M .out = true) (s : State) (r : Nat) : hide M (State.roleBack s r) = hide M s := by
  unfold State.roleBack
  try dsimp only
  repeat' first
    | with_reducible rfl
    | (simp only [hide_ite, ite_self, ite_fst, implies_true, eq_self, h_regs, h_lows, h_fe, h_tb, h_sp, h_up, h_ch, h_gs, h_mem, h_fl, h_tel, h_pw, h_st, h_rl, h_free, h_out, authDrain_hide, handAudits_hide, onTel_hide, runDue_hide, tell_hide]; done)
    | with_reducible apply hide_if
    | with_reducible apply hide_if1
    | split
    | (rw [forEach_hide])
    | (rw [foldl_hide])
    | (rw [foldlS_hide])
    | (intro; intros; try dsimp only)
    | (simp only [hide_ite, ite_self, ite_fst, implies_true, eq_self, h_regs, h_lows, h_fe, h_tb, h_sp, h_up, h_ch, h_gs, h_mem, h_fl, h_tel, h_pw, h_st, h_rl, h_free, h_out, authDrain_hide, handAudits_hide, onTel_hide, runDue_hide, tell_hide])

theorem resumeCore_hide (h_regs : M .regs = true) (h_lows : M .lows = true) (h_fe : M .fe = true) (h_tb : M .tb = true) (h_sp : M .sp = true) (h_up : M .up = true) (h_ch : M .ch = true) (h_gs : M .gs = true) (h_mem : M .mem = true) (h_fl : M .fl = true) (h_tel : M .tel = true) (h_pw : M .pw = true) (h_st : M .st = true) (h_rl : M .rl = true) (h_free : M .free = true) (h_out : M .out = true) (s : State) (k cause : Nat) : hide M (State.resumeCore s k cause) = hide M s := by
  unfold State.resumeCore
  try dsimp only
  repeat' first
    | with_reducible rfl
    | (simp only [hide_ite, ite_self, ite_fst, implies_true, eq_self, h_regs, h_lows, h_fe, h_tb, h_sp, h_up, h_ch, h_gs, h_mem, h_fl, h_tel, h_pw, h_st, h_rl, h_free, h_out, roleBack_hide, setCore_hide, tell_hide]; done)
    | with_reducible apply hide_if
    | with_reducible apply hide_if1
    | split
    | (rw [forEach_hide])
    | (rw [foldl_hide])
    | (rw [foldlS_hide])
    | (intro; intros; try dsimp only)
    | (simp only [hide_ite, ite_self, ite_fst, implies_true, eq_self, h_regs, h_lows, h_fe, h_tb, h_sp, h_up, h_ch, h_gs, h_mem, h_fl, h_tel, h_pw, h_st, h_rl, h_free, h_out, roleBack_hide, setCore_hide, tell_hide])

theorem logRetired_hide (h_tel : M .tel = true) (s : State) (k : Nat) : hide M (State.logRetired s k) = hide M s := by
  unfold State.logRetired
  simp only [eq_self, h_tel, onTel_hide]

theorem spareCore_hide (h_regs : M .regs = true) (h_lows : M .lows = true) (h_fe : M .fe = true) (h_tb : M .tb = true) (h_sp : M .sp = true) (h_up : M .up = true) (h_ch : M .ch = true) (h_gs : M .gs = true) (h_mem : M .mem = true) (h_fl : M .fl = true) (h_tel : M .tel = true) (h_pw : M .pw = true) (h_st : M .st = true) (h_rl : M .rl = true) (h_free : M .free = true) (h_out : M .out = true) (s : State) (k r cause : Nat) : hide M (State.spareCore s k r cause) = hide M s := by
  unfold State.spareCore
  try dsimp only
  repeat' first
    | with_reducible rfl
    | (simp only [hide_ite, ite_self, ite_fst, implies_true, eq_self, h_regs, h_lows, h_fe, h_tb, h_sp, h_up, h_ch, h_gs, h_mem, h_fl, h_tel, h_pw, h_st, h_rl, h_free, h_out, auditHw_hide, onSt_hide, roleBack_hide, setCore_hide, tell_hide]; done)
    | with_reducible apply hide_if
    | with_reducible apply hide_if1
    | split
    | (rw [forEach_hide])
    | (rw [foldl_hide])
    | (rw [foldlS_hide])
    | (intro; intros; try dsimp only)
    | (simp only [hide_ite, ite_self, ite_fst, implies_true, eq_self, h_regs, h_lows, h_fe, h_tb, h_sp, h_up, h_ch, h_gs, h_mem, h_fl, h_tel, h_pw, h_st, h_rl, h_free, h_out, auditHw_hide, onSt_hide, roleBack_hide, setCore_hide, tell_hide])

theorem dropRole_hide (h_tel : M .tel = true) (h_st : M .st = true) (h_rl : M .rl = true) (s : State) (k r cause : Nat) : hide M (State.dropRole s k r cause) = hide M s := by
  unfold State.dropRole
  simp only [eq_self, h_tel, h_st, h_rl, onSt_hide, reduce_hide, tell_hide]

theorem retireCore_hide (h_regs : M .regs = true) (h_lows : M .lows = true) (h_fe : M .fe = true) (h_tb : M .tb = true) (h_sp : M .sp = true) (h_up : M .up = true) (h_ch : M .ch = true) (h_gs : M .gs = true) (h_mem : M .mem = true) (h_fl : M .fl = true) (h_tel : M .tel = true) (h_pw : M .pw = true) (h_st : M .st = true) (h_rl : M .rl = true) (h_free : M .free = true) (h_out : M .out = true) (s : State) (k cause : Nat) : hide M (State.retireCore s k cause) = hide M s := by
  unfold State.retireCore
  try dsimp only
  repeat' first
    | with_reducible rfl
    | (simp only [hide_ite, ite_self, ite_fst, implies_true, eq_self, h_regs, h_lows, h_fe, h_tb, h_sp, h_up, h_ch, h_gs, h_mem, h_fl, h_tel, h_pw, h_st, h_rl, h_free, h_out, dropRole_hide, logRetired_hide, setCore_hide, spareCore_hide]; done)
    | with_reducible apply hide_if
    | with_reducible apply hide_if1
    | split
    | (rw [forEach_hide])
    | (rw [foldl_hide])
    | (rw [foldlS_hide])
    | (intro; intros; try dsimp only)
    | (simp only [hide_ite, ite_self, ite_fst, implies_true, eq_self, h_regs, h_lows, h_fe, h_tb, h_sp, h_up, h_ch, h_gs, h_mem, h_fl, h_tel, h_pw, h_st, h_rl, h_free, h_out, dropRole_hide, logRetired_hide, setCore_hide, spareCore_hide])

theorem cycleCore_hide (h_regs : M .regs = true) (h_lows : M .lows = true) (h_fe : M .fe = true) (h_tb : M .tb = true) (h_sp : M .sp = true) (h_up : M .up = true) (h_ch : M .ch = true) (h_gs : M .gs = true) (h_mem : M .mem = true) (h_fl : M .fl = true) (h_tel : M .tel = true) (h_pw : M .pw = true) (h_st : M .st = true) (h_rl : M .rl = true) (h_free : M .free = true) (h_out : M .out = true) (s : State) (k cause : Nat) (pc : Word64) : hide M (State.cycleCore s k cause pc) = hide M s := by
  unfold State.cycleCore
  try dsimp only
  repeat' first
    | with_reducible rfl
    | (simp only [hide_ite, ite_self, ite_fst, implies_true, eq_self, h_regs, h_lows, h_fe, h_tb, h_sp, h_up, h_ch, h_gs, h_mem, h_fl, h_tel, h_pw, h_st, h_rl, h_free, h_out, haltCore_hide, resumeCore_hide, retireCore_hide]; done)
    | with_reducible apply hide_if
    | with_reducible apply hide_if1
    | split
    | (rw [forEach_hide])
    | (rw [foldl_hide])
    | (rw [foldlS_hide])
    | (intro; intros; try dsimp only)
    | (simp only [hide_ite, ite_self, ite_fst, implies_true, eq_self, h_regs, h_lows, h_fe, h_tb, h_sp, h_up, h_ch, h_gs, h_mem, h_fl, h_tel, h_pw, h_st, h_rl, h_free, h_out, haltCore_hide, resumeCore_hide, retireCore_hide])

theorem restartCore_hide (h_regs : M .regs = true) (h_pregs : M .pregs = true) (h_lows : M .lows = true) (h_ctxCfg : M .ctxCfg = true) (h_updCfg : M .updCfg = true) (h_fwdCfg : M .fwdCfg = true) (h_drvCfg : M .drvCfg = true) (h_fe : M .fe = true) (h_xl : M .xl = true) (h_tb : M .tb = true) (h_sp : M .sp = true) (h_qz : M .qz = true) (h_up : M .up = true) (h_ch : M .ch = true) (h_gs : M .gs = true) (h_mem : M .mem = true) (h_fl : M .fl = true) (h_tel : M .tel = true) (h_pw : M .pw = true) (h_st : M .st = true) (h_i3 : M .i3 = true) (h_rl : M .rl = true) (h_free : M .free = true) (h_out : M .out = true) (s : State) (k cause : Nat) (pc : Word64) (restarted : Bool) (su : Startup) : hide M (State.restartCore s k cause pc restarted su) = hide M s := by
  unfold State.restartCore
  try dsimp only
  repeat' first
    | with_reducible rfl
    | (simp only [hide_ite, ite_self, ite_fst, implies_true, eq_self, h_regs, h_pregs, h_lows, h_ctxCfg, h_updCfg, h_fwdCfg, h_drvCfg, h_fe, h_xl, h_tb, h_sp, h_qz, h_up, h_ch, h_gs, h_mem, h_fl, h_tel, h_pw, h_st, h_i3, h_rl, h_free, h_out, afterStart_hide, blockReset_hide, cycleCore_hide, haltCore_hide]; done)
    | with_reducible apply hide_if
    | with_reducible apply hide_if1
    | split
    | (rw [forEach_hide])
    | (rw [foldl_hide])
    | (rw [foldlS_hide])
    | (intro; intros; try dsimp only)
    | (simp only [hide_ite, ite_self, ite_fst, implies_true, eq_self, h_regs, h_pregs, h_lows, h_ctxCfg, h_updCfg, h_fwdCfg, h_drvCfg, h_fe, h_xl, h_tb, h_sp, h_qz, h_up, h_ch, h_gs, h_mem, h_fl, h_tel, h_pw, h_st, h_i3, h_rl, h_free, h_out, afterStart_hide, blockReset_hide, cycleCore_hide, haltCore_hide])

theorem execCoreWatchdogExpiry_hide (h_regs : M .regs = true) (h_pregs : M .pregs = true) (h_lows : M .lows = true) (h_ctxCfg : M .ctxCfg = true) (h_updCfg : M .updCfg = true) (h_fwdCfg : M .fwdCfg = true) (h_drvCfg : M .drvCfg = true) (h_fe : M .fe = true) (h_xl : M .xl = true) (h_tb : M .tb = true) (h_sp : M .sp = true) (h_qz : M .qz = true) (h_up : M .up = true) (h_ch : M .ch = true) (h_gs : M .gs = true) (h_mem : M .mem = true) (h_fl : M .fl = true) (h_tel : M .tel = true) (h_pw : M .pw = true) (h_st : M .st = true) (h_i3 : M .i3 = true) (h_rl : M .rl = true) (h_free : M .free = true) (h_out : M .out = true) (core : Nat) (pc : Word64) (restarted : Bool) (su : Startup) (s : State) (t : State) (e : execCoreWatchdogExpiry core pc restarted su s = .next t) : hide M t = hide M s := by
  simp only [execCoreWatchdogExpiry, Host.Outcome.next.injEq] at e
  subst e
  repeat' first
    | with_reducible rfl
    | (simp only [hide_ite, ite_self, ite_fst, implies_true, eq_self, h_regs, h_pregs, h_lows, h_ctxCfg, h_updCfg, h_fwdCfg, h_drvCfg, h_fe, h_xl, h_tb, h_sp, h_qz, h_up, h_ch, h_gs, h_mem, h_fl, h_tel, h_pw, h_st, h_i3, h_rl, h_free, h_out, restartCore_hide]; done)
    | with_reducible apply hide_if
    | with_reducible apply hide_if1
    | split
    | (rw [forEach_hide])
    | (rw [foldl_hide])
    | (rw [foldlS_hide])
    | (intro; intros; try dsimp only)
    | (simp only [hide_ite, ite_self, ite_fst, implies_true, eq_self, h_regs, h_pregs, h_lows, h_ctxCfg, h_updCfg, h_fwdCfg, h_drvCfg, h_fe, h_xl, h_tb, h_sp, h_qz, h_up, h_ch, h_gs, h_mem, h_fl, h_tel, h_pw, h_st, h_i3, h_rl, h_free, h_out, restartCore_hide])

theorem execMpuFault_hide (h_regs : M .regs = true) (h_pregs : M .pregs = true) (h_lows : M .lows = true) (h_ctxCfg : M .ctxCfg = true) (h_updCfg : M .updCfg = true) (h_fwdCfg : M .fwdCfg = true) (h_drvCfg : M .drvCfg = true) (h_fe : M .fe = true) (h_xl : M .xl = true) (h_tb : M .tb = true) (h_sp : M .sp = true) (h_qz : M .qz = true) (h_up : M .up = true) (h_ch : M .ch = true) (h_gs : M .gs = true) (h_mem : M .mem = true) (h_fl : M .fl = true) (h_tel : M .tel = true) (h_pw : M .pw = true) (h_st : M .st = true) (h_i3 : M .i3 = true) (h_rl : M .rl = true) (h_free : M .free = true) (h_out : M .out = true) (core : Nat) (hit : MpuHit) (restarted : Bool) (su : Startup) (s : State) (t : State) (e : execMpuFault core hit restarted su s = .next t) : hide M t = hide M s := by
  simp only [execMpuFault, Host.Outcome.next.injEq] at e
  subst e
  repeat' first
    | with_reducible rfl
    | (simp only [hide_ite, ite_self, ite_fst, implies_true, eq_self, h_regs, h_pregs, h_lows, h_ctxCfg, h_updCfg, h_fwdCfg, h_drvCfg, h_fe, h_xl, h_tb, h_sp, h_qz, h_up, h_ch, h_gs, h_mem, h_fl, h_tel, h_pw, h_st, h_i3, h_rl, h_free, h_out, count_hide, restartCore_hide]; done)
    | with_reducible apply hide_if
    | with_reducible apply hide_if1
    | split
    | (rw [forEach_hide])
    | (rw [foldl_hide])
    | (rw [foldlS_hide])
    | (intro; intros; try dsimp only)
    | (simp only [hide_ite, ite_self, ite_fst, implies_true, eq_self, h_regs, h_pregs, h_lows, h_ctxCfg, h_updCfg, h_fwdCfg, h_drvCfg, h_fe, h_xl, h_tb, h_sp, h_qz, h_up, h_ch, h_gs, h_mem, h_fl, h_tel, h_pw, h_st, h_i3, h_rl, h_free, h_out, count_hide, restartCore_hide])

theorem execDoubleFault_hide (h_regs : M .regs = true) (h_pregs : M .pregs = true) (h_lows : M .lows = true) (h_ctxCfg : M .ctxCfg = true) (h_updCfg : M .updCfg = true) (h_fwdCfg : M .fwdCfg = true) (h_drvCfg : M .drvCfg = true) (h_fe : M .fe = true) (h_xl : M .xl = true) (h_tb : M .tb = true) (h_sp : M .sp = true) (h_qz : M .qz = true) (h_up : M .up = true) (h_ch : M .ch = true) (h_gs : M .gs = true) (h_mem : M .mem = true) (h_fl : M .fl = true) (h_tel : M .tel = true) (h_pw : M .pw = true) (h_st : M .st = true) (h_i3 : M .i3 = true) (h_rl : M .rl = true) (h_free : M .free = true) (h_out : M .out = true) (core : Nat) (pc : Word64) (restarted : Bool) (su : Startup) (s : State) (t : State) (e : execDoubleFault core pc restarted su s = .next t) : hide M t = hide M s := by
  simp only [execDoubleFault, Host.Outcome.next.injEq] at e
  subst e
  repeat' first
    | with_reducible rfl
    | (simp only [hide_ite, ite_self, ite_fst, implies_true, eq_self, h_regs, h_pregs, h_lows, h_ctxCfg, h_updCfg, h_fwdCfg, h_drvCfg, h_fe, h_xl, h_tb, h_sp, h_qz, h_up, h_ch, h_gs, h_mem, h_fl, h_tel, h_pw, h_st, h_i3, h_rl, h_free, h_out, restartCore_hide]; done)
    | with_reducible apply hide_if
    | with_reducible apply hide_if1
    | split
    | (rw [forEach_hide])
    | (rw [foldl_hide])
    | (rw [foldlS_hide])
    | (intro; intros; try dsimp only)
    | (simp only [hide_ite, ite_self, ite_fst, implies_true, eq_self, h_regs, h_pregs, h_lows, h_ctxCfg, h_updCfg, h_fwdCfg, h_drvCfg, h_fe, h_xl, h_tb, h_sp, h_qz, h_up, h_ch, h_gs, h_mem, h_fl, h_tel, h_pw, h_st, h_i3, h_rl, h_free, h_out, restartCore_hide])

theorem voltageSample_hide (h_tel : M .tel = true) (h_st : M .st = true) (s : State) (mv : List Nat) : hide M (State.voltageSample s mv) = hide M s := by
  unfold State.voltageSample
  try dsimp only
  repeat' first
    | with_reducible rfl
    | (simp only [hide_ite, ite_self, ite_fst, implies_true, eq_self, h_tel, h_st, onSt_hide, tell_hide]; done)
    | with_reducible apply hide_if
    | with_reducible apply hide_if1
    | split
    | (rw [forEach_hide])
    | (rw [foldl_hide])
    | (rw [foldlS_hide])
    | (intro; intros; try dsimp only)
    | (simp only [hide_ite, ite_self, ite_fst, implies_true, eq_self, h_tel, h_st, onSt_hide, tell_hide])

theorem execVoltageSample_hide (h_tel : M .tel = true) (h_st : M .st = true) (mv : List Nat) (s : State) (t : State) (e : execVoltageSample mv s = .next t) : hide M t = hide M s := by
  refine next_hide e ?_
  simp only [eq_self, h_tel, h_st, voltageSample_hide]

theorem execPlogProgram_hide (h_tel : M .tel = true) (s : State) (t : State) (e : execPlogProgram s = .next t) : hide M t = hide M s := by
  refine next_hide e ?_
  simp only [hide_ite, ite_self, eq_self, h_tel, onTel_hide]

end Sys2Proof.Laws
end

