-- ==== Sys2Proof/Laws/CanonCores.lean ====
section
/-!
SUPPORT. What Machine/Cores.lean defines keeps Ground store's bytes in canonical form.
-/

namespace Sys2Proof.Laws

open Sys2Proof.Machine

theorem roleBack_canon (s : State) (r : Nat) (hs : Canon (hide butMem s)) : Canon (hide butMem (State.roleBack s r)) := by
  unfold State.roleBack
  try dsimp only
  repeat' first
    | with_reducible assumption
    | split
    | (with_reducible apply runDue_canon)
    | with_reducible apply forEach_canon
    | with_reducible apply foldl_canon
    | (intro; intros; try dsimp only)
    | (simp only [authDrain_hide (M := butMem) rfl rfl rfl rfl rfl, handAudits_hide (M := butMem) rfl rfl, tell_hide (M := butMem) rfl, onTel_hide (M := butMem) rfl, implies_true, eq_self])

theorem resumeCore_canon (s : State) (k cause : Nat) (hs : Canon (hide butMem s)) : Canon (hide butMem (State.resumeCore s k cause)) := by
  unfold State.resumeCore
  try dsimp only
  repeat' first
    | with_reducible assumption
    | split
    | (with_reducible apply roleBack_canon)
    | with_reducible apply forEach_canon
    | with_reducible apply foldl_canon
    | (intro; intros; try dsimp only)
    | (simp only [setCore_hide (M := butMem) rfl, tell_hide (M := butMem) rfl, implies_true, eq_self])

theorem spareCore_canon (s : State) (k r cause : Nat) (hs : Canon (hide butMem s)) : Canon (hide butMem (State.spareCore s k r cause)) := by
  unfold State.spareCore
  try dsimp only
  repeat' first
    | with_reducible assumption
    | split
    | (with_reducible apply roleBack_canon)
    | with_reducible apply forEach_canon
    | with_reducible apply foldl_canon
    | (intro; intros; try dsimp only)
    | (simp only [auditHw_hide (M := butMem) rfl rfl, setCore_hide (M := butMem) rfl, tell_hide (M := butMem) rfl, onSt_hide (M := butMem) rfl, implies_true, eq_self])

theorem retireCore_canon (s : State) (k cause : Nat) (hs : Canon (hide butMem s)) : Canon (hide butMem (State.retireCore s k cause)) := by
  unfold State.retireCore
  try dsimp only
  repeat' first
    | with_reducible assumption
    | split
    | (with_reducible apply spareCore_canon)
    | with_reducible apply forEach_canon
    | with_reducible apply foldl_canon
    | (intro; intros; try dsimp only)
    | (simp only [dropRole_hide (M := butMem) rfl rfl rfl, logRetired_hide (M := butMem) rfl, setCore_hide (M := butMem) rfl, implies_true, eq_self])

theorem cycleCore_canon (s : State) (k cause : Nat) (pc : Word64) (hs : Canon (hide butMem s)) : Canon (hide butMem (State.cycleCore s k cause pc)) := by
  unfold State.cycleCore
  try dsimp only
  repeat' first
    | with_reducible assumption
    | split
    | (with_reducible apply resumeCore_canon)
    | (with_reducible apply retireCore_canon)
    | with_reducible apply forEach_canon
    | with_reducible apply foldl_canon
    | (intro; intros; try dsimp only)
    | (simp only [haltCore_hide (M := butMem) rfl rfl, implies_true, eq_self])

theorem restartCore_canon (s : State) (k cause : Nat) (pc : Word64) (restarted : Bool) (su : Startup) (hs : Canon (hide butMem s)) : Canon (hide butMem (State.restartCore s k cause pc restarted su)) := by
  unfold State.restartCore
  try dsimp only
  repeat' first
    | with_reducible assumption
    | split
    | (with_reducible apply afterStart_canon)
    | (with_reducible apply blockReset_canon)
    | (with_reducible apply cycleCore_canon)
    | with_reducible apply forEach_canon
    | with_reducible apply foldl_canon
    | (intro; intros; try dsimp only)
    | (simp only [haltCore_hide (M := butMem) rfl rfl, implies_true, eq_self])

theorem execCoreWatchdogExpiry_canon (core : Nat) (pc : Word64) (restarted : Bool) (su : Startup) (s : State) (t : State) (e : execCoreWatchdogExpiry core pc restarted su s = .next t) (hs : Canon (hide butMem s)) : Canon (hide butMem t) := by
  refine next_canon e ?_
  repeat' first
    | with_reducible assumption
    | split
    | (with_reducible apply restartCore_canon)
    | with_reducible apply forEach_canon
    | with_reducible apply foldl_canon
    | (intro; intros; try dsimp only)
    | (simp only [implies_true, eq_self])

theorem execMpuFault_canon (core : Nat) (hit : MpuHit) (restarted : Bool) (su : Startup) (s : State) (t : State) (e : execMpuFault core hit restarted su s = .next t) (hs : Canon (hide butMem s)) : Canon (hide butMem t) := by
  refine next_canon e ?_
  repeat' first
    | with_reducible assumption
    | split
    | (with_reducible apply restartCore_canon)
    | with_reducible apply forEach_canon
    | with_reducible apply foldl_canon
    | (intro; intros; try dsimp only)
    | (simp only [count_hide (M := butMem) rfl, implies_true, eq_self])

theorem execDoubleFault_canon (core : Nat) (pc : Word64) (restarted : Bool) (su : Startup) (s : State) (t : State) (e : execDoubleFault core pc restarted su s = .next t) (hs : Canon (hide butMem s)) : Canon (hide butMem t) := by
  refine next_canon e ?_
  repeat' first
    | with_reducible assumption
    | split
    | (with_reducible apply restartCore_canon)
    | with_reducible apply forEach_canon
    | with_reducible apply foldl_canon
    | (intro; intros; try dsimp only)
    | (simp only [implies_true, eq_self])

end Sys2Proof.Laws
end

