-- ==== Sys2Proof/Laws/CanonTableOps.lean ====
section
/-!
SUPPORT. What Machine/TableOps.lean defines keeps Ground store's bytes in canonical form.
-/

namespace Sys2Proof.Laws

open Sys2Proof.Machine

theorem tableOp_canon (s : State) (id opc mode : Nat) (run : State → Desc → Table → Version → State) (h_run : ∀ (x0 : State) (x1 : Desc) (x2 : Table) (x3 : Version), Canon (hide butMem x0) → Canon (hide butMem (run x0 x1 x2 x3))) (hs : Canon (hide butMem s)) : Canon (hide butMem (State.tableOp s id opc mode run)) := by
  unfold State.tableOp
  try dsimp only
  repeat' first
    | with_reducible assumption
    | split
    | (with_reducible apply h_run)
    | with_reducible apply forEach_canon
    | with_reducible apply foldl_canon
    | (intro; intros; try dsimp only)
    | (simp only [endDesc_hide (M := butMem) rfl])

theorem storeRow_canon (s : State) (t : Table) (e : Extent) (row : Nat) (record : Bytes) (hs : Canon (hide butMem s)) : Canon (hide butMem (State.storeRow s t e row record)) := by
  unfold State.storeRow
  try dsimp only
  repeat' first
    | with_reducible assumption
    | split
    | (with_reducible apply writePinned_canon)
    | with_reducible apply forEach_canon
    | with_reducible apply foldl_canon
    | (intro; intros; try dsimp only)
    | (simp only [encCopy_hide (M := butMem) rfl])

theorem mend_canon (s : State) (t : Table) (k : Key) (ver : Nat) (record : Bytes) (hs : Canon (hide butMem s)) : Canon (hide butMem (State.mend s t k ver record).1) := by
  unfold State.mend
  try dsimp only
  repeat' first
    | with_reducible assumption
    | split
    | (with_reducible apply storeRow_canon)
    | with_reducible apply forEach_canon
    | with_reducible apply foldl_canon
    | (intro; intros; try dsimp only)
    | (simp only [count_hide (M := butMem) rfl, onExtent_hide (M := butMem) rfl, implies_true, eq_self])

theorem placeRow_canon (s : State) (t : Table) (e : Extent) (row : Nat) (record : Bytes) (hs : Canon (hide butMem s)) : Canon (hide butMem (State.placeRow s t e row record)) := by
  unfold State.placeRow
  try dsimp only
  repeat' first
    | with_reducible assumption
    | split
    | (with_reducible apply storeRow_canon)
    | with_reducible apply forEach_canon
    | with_reducible apply foldl_canon
    | (intro; intros; try dsimp only)
    | (simp only [addTwinN_hide (M := butMem) rfl, count_hide (M := butMem) rfl, dropRow_hide (M := butMem) rfl rfl rfl rfl rfl, onExtent_hide (M := butMem) rfl, putTwin_hide (M := butMem) rfl rfl rfl, implies_true, eq_self])

theorem fillRow_canon (s : State) (t : Table) (v : Version) (h row : Nat) (record : Bytes) (hs : Canon (hide butMem s)) : Canon (hide butMem (State.fillRow s t v h row record)) := by
  unfold State.fillRow
  try dsimp only
  repeat' first
    | with_reducible assumption
    | split
    | (with_reducible apply placeRow_canon)
    | (with_reducible apply storeRow_canon)
    | with_reducible apply forEach_canon
    | with_reducible apply foldl_canon
    | (intro; intros; try dsimp only)
    | (simp only [clean_hide (M := butMem) rfl rfl rfl rfl rfl, dropRow_hide (M := butMem) rfl rfl rfl rfl rfl, putTwin_hide (M := butMem) rfl rfl rfl, unpoison_hide (M := butMem) rfl, implies_true, eq_self])

theorem loadFill_canon (s : State) (d : Desc) (t : Table) (v : Version) (src : Feed) (hs : Canon (hide butMem s)) : Canon (hide butMem (State.loadFill s d t v src)) := by
  unfold State.loadFill
  try dsimp only
  repeat' first
    | with_reducible assumption
    | split
    | (with_reducible apply fillRow_canon)
    | with_reducible apply forEach_canon
    | with_reducible apply foldl_canon
    | (intro; intros; try dsimp only)
    | (simp only [count_hide (M := butMem) rfl, countN_hide (M := butMem) rfl, endDesc_hide (M := butMem) rfl, fillBlock_hide (M := butMem) rfl rfl rfl rfl, fillWait_hide (M := butMem) rfl, inputsDone_hide (M := butMem) rfl rfl rfl rfl rfl rfl rfl rfl, tblEnd_hide (M := butMem) rfl, tblFail_hide (M := butMem) rfl, forEach_hide, implies_true, eq_self])

theorem execTableLoadFill_canon (id : Nat) (src : Feed) (s : State) (t : State) (e : execTableLoadFill id src s = .next t) (hs : Canon (hide butMem s)) : Canon (hide butMem t) := by
  refine next_canon e ?_
  repeat' first
    | with_reducible assumption
    | split
    | (with_reducible apply loadFill_canon)
    | (with_reducible apply tableOp_canon)
    | with_reducible apply forEach_canon
    | with_reducible apply foldl_canon
    | (intro; intros; try dsimp only)
    | (simp only [readOn_hide (M := butMem) rfl rfl rfl rfl rfl rfl rfl, implies_true, eq_self])

theorem pinBacking_canon (s : State) (t : Table) (v : Version) (e : Extent) (rows : List RowFetch) (y0 : List Nat) (hs : Canon (hide butMem s)) : Canon (hide butMem (State.pinBacking s t v e rows y0).1) := by
  have key : ∀ s : State, Canon (hide butMem s) → ∀ (k : Key) (x : RowSrc), Canon (hide butMem (s.readRow t v k x).1) := by
    intro s hs k x
    rw [readRow_hide (M := butMem) rfl rfl rfl rfl rfl rfl]
    exact hs
  induction y0 generalizing s with
  | nil => exact hs
  | cons r l ih =>
    rw [State.pinBacking]
    split
    · exact ih _ (placeRow_canon _ _ _ _ _ hs)
    dsimp only
    split
    · exact ih _ (placeRow_canon _ _ _ _ _ (key s hs _ _))
    · exact ih _ (key s hs _ _)

theorem pinFromBacking_canon (s : State) (d : Desc) (t : Table) (v : Version) (rows : List RowFetch) (hs : Canon (hide butMem s)) : Canon (hide butMem (State.pinFromBacking s d t v rows)) := by
  unfold State.pinFromBacking
  try dsimp only
  repeat' first
    | with_reducible assumption
    | split
    | (with_reducible apply pinBacking_canon)
    | with_reducible apply forEach_canon
    | with_reducible apply foldl_canon
    | (intro; intros; try dsimp only)
    | (simp only [addExtent_hide (M := butMem) rfl, count_hide (M := butMem) rfl, tblEnd_hide (M := butMem) rfl, tblFail_hide (M := butMem) rfl, implies_true, eq_self])

theorem execTablePinFromBacking_canon (id : Nat) (rows : List RowFetch) (s : State) (t : State) (e : execTablePinFromBacking id rows s = .next t) (hs : Canon (hide butMem s)) : Canon (hide butMem t) := by
  refine next_canon e ?_
  repeat' first
    | with_reducible assumption
    | split
    | (with_reducible apply pinFromBacking_canon)
    | (with_reducible apply tableOp_canon)
    | with_reducible apply forEach_canon
    | with_reducible apply foldl_canon
    | (intro; intros; try dsimp only)
    | (simp only [implies_true, eq_self])

theorem pinFromSrc_canon (s : State) (d : Desc) (t : Table) (v : Version) (src : Feed) (hs : Canon (hide butMem s)) : Canon (hide butMem (State.pinFromSrc s d t v src)) := by
  unfold State.pinFromSrc
  try dsimp only
  repeat' first
    | with_reducible assumption
    | split
    | (with_reducible apply placeRow_canon)
    | with_reducible apply forEach_canon
    | with_reducible apply foldl_canon
    | (intro; intros; try dsimp only)
    | (simp only [countN_hide (M := butMem) rfl, addExtent_hide (M := butMem) rfl, count_hide (M := butMem) rfl, inputsDone_hide (M := butMem) rfl rfl rfl rfl rfl rfl rfl rfl, tblEnd_hide (M := butMem) rfl, tblFail_hide (M := butMem) rfl, unpoison_hide (M := butMem) rfl, forEach_hide, implies_true, eq_self])

theorem execTablePinFromSrc_canon (id : Nat) (src : Feed) (s : State) (t : State) (e : execTablePinFromSrc id src s = .next t) (hs : Canon (hide butMem s)) : Canon (hide butMem t) := by
  refine next_canon e ?_
  repeat' first
    | with_reducible assumption
    | split
    | (with_reducible apply pinFromSrc_canon)
    | (with_reducible apply tableOp_canon)
    | with_reducible apply forEach_canon
    | with_reducible apply foldl_canon
    | (intro; intros; try dsimp only)
    | (simp only [readOn_hide (M := butMem) rfl rfl rfl rfl rfl rfl rfl, implies_true, eq_self])

end Sys2Proof.Laws
end

