-- ==== Sys2Proof/Laws/CanonCouch.lean ====
section
/-!
SUPPORT. What Machine/Couch.lean defines keeps Ground store's bytes in canonical form.
-/

namespace Sys2Proof.Laws

open Sys2Proof.Machine

theorem writeMaster_canon (s : State) (t : Table) (k : Key) (ver : Nat) (b : Bytes) (hs : Canon (hide butMem s)) : Canon (hide butMem (State.writeMaster s t k ver b)) := by
  unfold State.writeMaster
  try dsimp only
  repeat' first
    | with_reducible assumption
    | split
    | (with_reducible apply writePinned_canon)
    | (with_reducible apply writeSlot_canon)
    | with_reducible apply forEach_canon
    | with_reducible apply foldl_canon
    | (intro; intros; try dsimp only)
    | (simp only [seeHead_hide (M := butMem) rfl rfl rfl, implies_true, eq_self])

theorem writeReads_canon (s : State) (t : Table) (k : Key) (ver : Nat) (b : Bytes) (hs : Canon (hide butMem s)) : Canon (hide butMem (State.writeReads s t k ver b)) := by
  unfold State.writeReads
  try dsimp only
  repeat' first
    | with_reducible assumption
    | split
    | (with_reducible apply writeSlot_canon)
    | with_reducible apply forEach_canon
    | with_reducible apply foldl_canon
    | (intro; intros; try dsimp only)
    | (simp only [encCopy_hide (M := butMem) rfl, seeHead_hide (M := butMem) rfl rfl rfl, forEach_hide, implies_true, eq_self])

theorem rmwWrite_canon (s : State) (a : Apply) (t : Table) (k : Key) (ver : Nat) (old : Bytes) (fails : WbFails) (hs : Canon (hide butMem s)) : Canon (hide butMem (State.rmwWrite s a t k ver old fails)) := by
  unfold State.rmwWrite
  try dsimp only
  repeat' first
    | with_reducible assumption
    | split
    | (with_reducible apply admitForced_canon)
    | (with_reducible apply bringIn_canon)
    | (with_reducible apply mend_canon)
    | (with_reducible apply writeMaster_canon)
    | (with_reducible apply writeReads_canon)
    | with_reducible apply forEach_canon
    | with_reducible apply foldl_canon
    | (intro; intros; try dsimp only)
    | (simp only [addTwinN_hide (M := butMem) rfl, count_hide (M := butMem) rfl, loseRow_hide (M := butMem) rfl rfl rfl, markDirty_hide (M := butMem) rfl rfl rfl rfl, noteMaster_hide (M := butMem) rfl rfl rfl, notePillow_hide (M := butMem) rfl rfl, putTwin_hide (M := butMem) rfl rfl rfl, rmwThrough_hide (M := butMem) rfl rfl rfl rfl rfl rfl, rmwWaits_hide (M := butMem) rfl rfl, rowLeaves_hide (M := butMem) rfl rfl, rowWritten_hide (M := butMem) rfl rfl rfl, forEach_hide, implies_true, eq_self])

theorem rmwRow_canon (s : State) (a : Apply) (t : Table) (v : Version) (k : Key) (src : RowSrc) (expired : Bool) (fails : WbFails) (hs : Canon (hide butMem s)) : Canon (hide butMem (State.rmwRow s a t v k src expired fails)) := by
  unfold State.rmwRow
  try dsimp only
  repeat' first
    | with_reducible assumption
    | split
    | (with_reducible apply rmwWrite_canon)
    | with_reducible apply forEach_canon
    | with_reducible apply foldl_canon
    | (intro; intros; try dsimp only)
    | (simp only [loseRow_hide (M := butMem) rfl rfl rfl, readBacking_hide (M := butMem) rfl rfl rfl rfl, readRow_hide (M := butMem) rfl rfl rfl rfl rfl rfl, implies_true, eq_self])

theorem couchingRmw_canon (s : State) (h ver row : Nat) (src : RowSrc) (expired : Bool) (fails : WbFails) (errs : Errs) (hs : Canon (hide butMem s)) : Canon (hide butMem (State.couchingRmw s h ver row src expired fails errs)) := by
  unfold State.couchingRmw
  try dsimp only
  repeat' first
    | with_reducible assumption
    | split
    | (with_reducible apply rmwRow_canon)
    | with_reducible apply forEach_canon
    | with_reducible apply foldl_canon
    | (intro; intros; try dsimp only)
    | (simp only [rmwErrs_hide (M := butMem) rfl rfl, implies_true, eq_self])

theorem execCouchingRmw_canon (tbl ver row : Nat) (src : Arrival) (fails : WbFails) (s : State) (t : State) (e : execCouchingRmw tbl ver row src fails s = .next t) (hs : Canon (hide butMem s)) : Canon (hide butMem t) := by
  refine next_canon e ?_
  repeat' first
    | with_reducible assumption
    | split
    | (with_reducible apply couchingRmw_canon)
    | with_reducible apply forEach_canon
    | with_reducible apply foldl_canon
    | (intro; intros; try dsimp only)
    | (simp only [implies_true, eq_self])

theorem execTier2RmwRetry_canon (tbl ver row : Nat) (src : RowSrc) (expired : Bool) (fails : WbFails) (s : State) (t : State) (e : execTier2RmwRetry tbl ver row src expired fails s = .next t) (hs : Canon (hide butMem s)) : Canon (hide butMem t) := by
  refine next_canon e ?_
  repeat' first
    | with_reducible assumption
    | split
    | (with_reducible apply couchingRmw_canon)
    | with_reducible apply forEach_canon
    | with_reducible apply foldl_canon
    | (intro; intros; try dsimp only)
    | (simp only [implies_true, eq_self])

theorem rmwAgain_canon (s : State) (h ver row : Nat) (way : Bool) (fails : WbFails) (hs : Canon (hide butMem s)) : Canon (hide butMem (State.rmwAgain s h ver row way fails)) := by
  unfold State.rmwAgain
  try dsimp only
  repeat' first
    | with_reducible assumption
    | split
    | (with_reducible apply rmwWrite_canon)
    | with_reducible apply forEach_canon
    | with_reducible apply foldl_canon
    | (intro; intros; try dsimp only)
    | (simp only [endRmwWait_hide (M := butMem) rfl, loseRow_hide (M := butMem) rfl rfl rfl, implies_true, eq_self])

theorem execTwinSpaceGrant_canon (tbl ver row : Nat) (fails : WbFails) (s : State) (t : State) (e : execTwinSpaceGrant tbl ver row fails s = .next t) (hs : Canon (hide butMem s)) : Canon (hide butMem t) := by
  refine next_canon e ?_
  repeat' first
    | with_reducible assumption
    | split
    | (with_reducible apply rmwAgain_canon)
    | with_reducible apply forEach_canon
    | with_reducible apply foldl_canon
    | (intro; intros; try dsimp only)
    | (simp only [implies_true, eq_self])

theorem execCacheWayGrant_canon (tbl ver row : Nat) (fails : WbFails) (s : State) (t : State) (e : execCacheWayGrant tbl ver row fails s = .next t) (hs : Canon (hide butMem s)) : Canon (hide butMem t) := by
  refine next_canon e ?_
  repeat' first
    | with_reducible assumption
    | split
    | (with_reducible apply rmwAgain_canon)
    | with_reducible apply forEach_canon
    | with_reducible apply foldl_canon
    | (intro; intros; try dsimp only)
    | (simp only [implies_true, eq_self])

end Sys2Proof.Laws
end

