-- ==== Sys2Proof/Laws/FrameVersions.lean ====
section
/-!
SUPPORT. Frames of what Machine/Versions.lean defines: the parts of the state that each may change.
-/

namespace Sys2Proof.Laws

open Sys2Proof.Machine

variable {M : Mask}

theorem retireWrite_hide (h_tb : M .tb = true) (h_up : M .up = true) (h_ch : M .ch = true) (h_gs : M .gs = true) (h_fl : M .fl = true) (h_tel : M .tel = true) (h_out : M .out = true) (s : State) (h : Nat) (t : Table) (v : Version) (fails : List RowFail) : hide M (State.retireWrite s h t v fails) = hide M s := by
  unfold State.retireWrite
  try dsimp only
  repeat' first
    | with_reducible rfl
    | (simp only [hide_ite, ite_self, ite_fst, implies_true, eq_self, h_tb, h_up, h_ch, h_gs, h_fl, h_tel, h_out, countEvict_hide, flushNs_hide, flushRows_hide, onVersion_hide]; done)
    | with_reducible apply hide_if
    | with_reducible apply hide_if1
    | split
    | (rw [forEach_hide])
    | (rw [foldl_hide])
    | (rw [foldlS_hide])
    | (intro; intros; try dsimp only)
    | (simp only [hide_ite, ite_self, ite_fst, implies_true, eq_self, h_tb, h_up, h_ch, h_gs, h_fl, h_tel, h_out, countEvict_hide, flushNs_hide, flushRows_hide, onVersion_hide])

theorem sweep_hide (h_tb : M .tb = true) (h_up : M .up = true) (h_ch : M .ch = true) (h_gs : M .gs = true) (h_tel : M .tel = true) (s : State) (h ver : Nat) : hide M (State.sweep s h ver) = hide M s := by
  unfold State.sweep
  try dsimp only
  repeat' first
    | with_reducible rfl
    | (simp only [hide_ite, ite_self, ite_fst, implies_true, eq_self, h_tb, h_up, h_ch, h_gs, h_tel, forEach_hide, countN_hide, dropRow_hide, onCh_hide, onVersion_hide, sweepHeads_hide]; done)
    | with_reducible apply hide_if
    | with_reducible apply hide_if1
    | split
    | (rw [forEach_hide])
    | (rw [foldl_hide])
    | (rw [foldlS_hide])
    | (intro; intros; try dsimp only)
    | (simp only [hide_ite, ite_self, ite_fst, implies_true, eq_self, h_tb, h_up, h_ch, h_gs, h_tel, forEach_hide, countN_hide, dropRow_hide, onCh_hide, onVersion_hide, sweepHeads_hide])

theorem retireEnd_hide (h_tb : M .tb = true) (h_up : M .up = true) (h_tel : M .tel = true) (h_rl : M .rl = true) (s : State) (h : Nat) (v : Version) : hide M (State.retireEnd s h v) = hide M s := by
  unfold State.retireEnd
  try dsimp only
  repeat' first
    | with_reducible rfl
    | (simp only [hide_ite, ite_self, ite_fst, implies_true, eq_self, h_tb, h_up, h_tel, h_rl, forEach_hide, count_hide, dropExtent_hide, dropRegrade_hide, onRl_hide, setTable_hide, tell_hide]; done)
    | with_reducible apply hide_if
    | with_reducible apply hide_if1
    | split
    | (rw [forEach_hide])
    | (rw [foldl_hide])
    | (rw [foldlS_hide])
    | (intro; intros; try dsimp only)
    | (simp only [hide_ite, ite_self, ite_fst, implies_true, eq_self, h_tb, h_up, h_tel, h_rl, forEach_hide, count_hide, dropExtent_hide, dropRegrade_hide, onRl_hide, setTable_hide, tell_hide])

theorem retire_hide (h_tb : M .tb = true) (h_up : M .up = true) (h_ch : M .ch = true) (h_gs : M .gs = true) (h_fl : M .fl = true) (h_tel : M .tel = true) (h_rl : M .rl = true) (h_out : M .out = true) (s : State) (h ver : Nat) (fails : List RowFail) : hide M (State.retire s h ver fails) = hide M s := by
  unfold State.retire
  try dsimp only
  repeat' first
    | with_reducible rfl
    | (simp only [hide_ite, ite_self, ite_fst, implies_true, eq_self, h_tb, h_up, h_ch, h_gs, h_fl, h_tel, h_rl, h_out, onVersion_hide, retireEnd_hide, retireWrite_hide, sweep_hide]; done)
    | with_reducible apply hide_if
    | with_reducible apply hide_if1
    | split
    | (rw [forEach_hide])
    | (rw [foldl_hide])
    | (rw [foldlS_hide])
    | (intro; intros; try dsimp only)
    | (simp only [hide_ite, ite_self, ite_fst, implies_true, eq_self, h_tb, h_up, h_ch, h_gs, h_fl, h_tel, h_rl, h_out, onVersion_hide, retireEnd_hide, retireWrite_hide, sweep_hide])

theorem execRetirement_hide (h_tb : M .tb = true) (h_up : M .up = true) (h_ch : M .ch = true) (h_gs : M .gs = true) (h_fl : M .fl = true) (h_tel : M .tel = true) (h_rl : M .rl = true) (h_out : M .out = true) (tbl ver : Nat) (fails : List RowFail) (s : State) (t : State) (e : execRetirement tbl ver fails s = .next t) : hide M t = hide M s := by
  simp only [execRetirement, Host.Outcome.next.injEq] at e
  subst e
  repeat' first
    | with_reducible rfl
    | (simp only [hide_ite, ite_self, ite_fst, implies_true, eq_self, h_tb, h_up, h_ch, h_gs, h_fl, h_tel, h_rl, h_out, retire_hide]; done)
    | with_reducible apply hide_if
    | with_reducible apply hide_if1
    | split
    | (rw [forEach_hide])
    | (rw [foldl_hide])
    | (rw [foldlS_hide])
    | (intro; intros; try dsimp only)
    | (simp only [hide_ite, ite_self, ite_fst, implies_true, eq_self, h_tb, h_up, h_ch, h_gs, h_fl, h_tel, h_rl, h_out, retire_hide])

theorem execRetirementSweep_hide (h_tb : M .tb = true) (h_up : M .up = true) (h_ch : M .ch = true) (h_gs : M .gs = true) (h_tel : M .tel = true) (tbl ver : Nat) (s : State) (t : State) (e : execRetirementSweep tbl ver s = .next t) : hide M t = hide M s := by
  simp only [execRetirementSweep, Host.Outcome.next.injEq] at e
  subst e
  repeat' first
    | with_reducible rfl
    | (simp only [hide_ite, ite_self, ite_fst, implies_true, eq_self, h_tb, h_up, h_ch, h_gs, h_tel, sweep_hide]; done)
    | with_reducible apply hide_if
    | with_reducible apply hide_if1
    | split
    | (rw [forEach_hide])
    | (rw [foldl_hide])
    | (rw [foldlS_hide])
    | (intro; intros; try dsimp only)
    | (simp only [hide_ite, ite_self, ite_fst, implies_true, eq_self, h_tb, h_up, h_ch, h_gs, h_tel, sweep_hide])

theorem execRetireRetry_hide (h_tb : M .tb = true) (h_up : M .up = true) (h_ch : M .ch = true) (h_gs : M .gs = true) (h_fl : M .fl = true) (h_tel : M .tel = true) (h_rl : M .rl = true) (h_out : M .out = true) (tbl ver : Nat) (fails : List RowFail) (s : State) (t : State) (e : execRetireRetry tbl ver fails s = .next t) : hide M t = hide M s := by
  simp only [execRetireRetry, Host.Outcome.next.injEq] at e
  subst e
  repeat' first
    | with_reducible rfl
    | (simp only [hide_ite, ite_self, ite_fst, implies_true, eq_self, h_tb, h_up, h_ch, h_gs, h_fl, h_tel, h_rl, h_out, retireWrite_hide, retire_hide]; done)
    | with_reducible apply hide_if
    | with_reducible apply hide_if1
    | split
    | (rw [forEach_hide])
    | (rw [foldl_hide])
    | (rw [foldlS_hide])
    | (intro; intros; try dsimp only)
    | (simp only [hide_ite, ite_self, ite_fst, implies_true, eq_self, h_tb, h_up, h_ch, h_gs, h_fl, h_tel, h_rl, h_out, retireWrite_hide, retire_hide])

theorem execRetireStalled_hide (h_tb : M .tb = true) (h_tel : M .tel = true) (tbl ver : Nat) (s : State) (t : State) (e : execRetireStalled tbl ver s = .next t) : hide M t = hide M s := by
  refine next_hide e ?_
  (repeat' split) <;> simp only [hide_ite, ite_self, eq_self, h_tb, h_tel, onVersion_hide, tell_hide]

theorem rewriteWay_hide (h_tb : M .tb = true) (h_up : M .up = true) (h_ch : M .ch = true) (h_gs : M .gs = true) (h_mem : M .mem = true) (h_fl : M .fl = true) (h_tel : M .tel = true) (h_out : M .out = true) (s : State) (w : Way) (g : Grade) (b : Bytes) (fails : WbFails) : hide M (State.rewriteWay s w g b fails).1 = hide M s := by
  unfold State.rewriteWay
  try dsimp only
  repeat' first
    | with_reducible rfl
    | (simp only [hide_ite, ite_self, ite_fst, implies_true, eq_self, h_tb, h_up, h_ch, h_gs, h_mem, h_fl, h_tel, h_out, markHead_hide, putWay_hide, takeSlot_hide, writeSlot_hide]; done)
    | with_reducible apply hide_if
    | with_reducible apply hide_if1
    | split
    | (rw [forEach_hide])
    | (rw [foldl_hide])
    | (rw [foldlS_hide])
    | (intro; intros; try dsimp only)
    | (simp only [hide_ite, ite_self, ite_fst, implies_true, eq_self, h_tb, h_up, h_ch, h_gs, h_mem, h_fl, h_tel, h_out, markHead_hide, putWay_hide, takeSlot_hide, writeSlot_hide])

theorem rewriteWays_hide (h_tb : M .tb = true) (h_up : M .up = true) (h_ch : M .ch = true) (h_gs : M .gs = true) (h_mem : M .mem = true) (h_fl : M .fl = true) (h_tel : M .tel = true) (h_out : M .out = true) (s : State) (g : Grade) (b : Bytes) (fails : WbFails) (y0 : List Way) : hide M (State.rewriteWays s g b fails y0).1 = hide M s := by
  fun_induction State.rewriteWays s g b fails y0
  all_goals
    repeat' first
      | with_reducible rfl
      | assumption
      | (simp +zetaDelta only [*, hide_ite, ite_self, ite_fst, implies_true, eq_self, h_tb, h_up, h_ch, h_gs, h_mem, h_fl, h_tel, h_out, rewriteWay_hide]; done)
      | with_reducible apply hide_if
      | with_reducible apply hide_if1
      | split
      | (rw [forEach_hide])
      | (rw [foldl_hide])
      | (rw [foldlS_hide])
      | (intro; intros; try dsimp only)
      | (simp +zetaDelta only [*, hide_ite, ite_self, ite_fst, implies_true, eq_self, h_tb, h_up, h_ch, h_gs, h_mem, h_fl, h_tel, h_out, rewriteWay_hide])

theorem regradeStop_hide (h_tel : M .tel = true) (s : State) : hide M (State.regradeStop s) = hide M s := by
  unfold State.regradeStop
  simp only [eq_self, h_tel, count_hide]

theorem regradeSrc_hide (h_tb : M .tb = true) (h_ch : M .ch = true) (h_gs : M .gs = true) (h_fl : M .fl = true) (h_tel : M .tel = true) (h_rl : M .rl = true) (h_out : M .out = true) (s : State) (t : Table) (v : Version) (k : Key) (w : Way) (src : RowSrc) : hide M (State.regradeSrc s t v k w src).1 = hide M s := by
  unfold State.regradeSrc
  try dsimp only
  repeat' first
    | with_reducible rfl
    | (simp only [hide_ite, ite_self, ite_fst, implies_true, eq_self, h_tb, h_ch, h_gs, h_fl, h_tel, h_rl, h_out, noteMaster_hide, readCopy_hide, readRow_hide, touchHead_hide]; done)
    | with_reducible apply hide_if
    | with_reducible apply hide_if1
    | split
    | (rw [forEach_hide])
    | (rw [foldl_hide])
    | (rw [foldlS_hide])
    | (intro; intros; try dsimp only)
    | (simp only [hide_ite, ite_self, ite_fst, implies_true, eq_self, h_tb, h_ch, h_gs, h_fl, h_tel, h_rl, h_out, noteMaster_hide, readCopy_hide, readRow_hide, touchHead_hide])

theorem regradeTo_hide (h_tb : M .tb = true) (h_up : M .up = true) (h_ch : M .ch = true) (h_gs : M .gs = true) (h_mem : M .mem = true) (h_fl : M .fl = true) (h_tel : M .tel = true) (h_out : M .out = true) (s : State) (t : Table) (k : Key) (ver : Nat) (g old : Grade) (record : Bytes) (fails : WbFails) : hide M (State.regradeTo s t k ver g old record fails) = hide M s := by
  unfold State.regradeTo
  try dsimp only
  repeat' first
    | with_reducible rfl
    | (simp only [hide_ite, ite_self, ite_fst, implies_true, eq_self, h_tb, h_up, h_ch, h_gs, h_mem, h_fl, h_tel, h_out, count_hide, dropWays_hide, encCopy_hide, placeCopy_hide, regradeStop_hide, rewriteWays_hide]; done)
    | with_reducible apply hide_if
    | with_reducible apply hide_if1
    | split
    | (rw [forEach_hide])
    | (rw [foldl_hide])
    | (rw [foldlS_hide])
    | (intro; intros; try dsimp only)
    | (simp only [hide_ite, ite_self, ite_fst, implies_true, eq_self, h_tb, h_up, h_ch, h_gs, h_mem, h_fl, h_tel, h_out, count_hide, dropWays_hide, encCopy_hide, placeCopy_hide, regradeStop_hide, rewriteWays_hide])

theorem intoBand_hide (h_ch : M .ch = true) (s : State) (stops : Nat) (k : Key) (ver b : Nat) : hide M (State.intoBand s stops k ver b) = hide M s := by
  unfold State.intoBand
  try dsimp only
  repeat' first
    | with_reducible rfl
    | (simp only [hide_ite, ite_self, ite_fst, implies_true, eq_self, h_ch, setBand_hide]; done)
    | with_reducible apply hide_if
    | with_reducible apply hide_if1
    | split
    | (rw [forEach_hide])
    | (rw [foldl_hide])
    | (rw [foldlS_hide])
    | (intro; intros; try dsimp only)
    | (simp only [hide_ite, ite_self, ite_fst, implies_true, eq_self, h_ch, setBand_hide])

theorem regradeRow_hide (h_tb : M .tb = true) (h_up : M .up = true) (h_ch : M .ch = true) (h_gs : M .gs = true) (h_mem : M .mem = true) (h_fl : M .fl = true) (h_tel : M .tel = true) (h_rl : M .rl = true) (h_out : M .out = true) (s : State) (k : Key) (ver : Nat) (src : RowSrc) (fails : WbFails) : hide M (State.regradeRow s k ver src fails) = hide M s := by
  unfold State.regradeRow
  try dsimp only
  repeat' first
    | with_reducible rfl
    | (simp only [hide_ite, ite_self, ite_fst, implies_true, eq_self, h_tb, h_up, h_ch, h_gs, h_mem, h_fl, h_tel, h_rl, h_out, count_hide, dropRow_hide, intoBand_hide, onTb_hide, regradeSrc_hide, regradeStop_hide, regradeTo_hide, setBand_hide, writeBackRow_hide]; done)
    | with_reducible apply hide_if
    | with_reducible apply hide_if1
    | split
    | (rw [forEach_hide])
    | (rw [foldl_hide])
    | (rw [foldlS_hide])
    | (intro; intros; try dsimp only)
    | (simp only [hide_ite, ite_self, ite_fst, implies_true, eq_self, h_tb, h_up, h_ch, h_gs, h_mem, h_fl, h_tel, h_rl, h_out, count_hide, dropRow_hide, intoBand_hide, onTb_hide, regradeSrc_hide, regradeStop_hide, regradeTo_hide, setBand_hide, writeBackRow_hide])

theorem execRegrade_hide (h_tb : M .tb = true) (h_up : M .up = true) (h_ch : M .ch = true) (h_gs : M .gs = true) (h_mem : M .mem = true) (h_fl : M .fl = true) (h_tel : M .tel = true) (h_rl : M .rl = true) (h_out : M .out = true) (tbl ver row : Nat) (src : RowSrc) (fails : WbFails) (s : State) (t : State) (e : execRegrade tbl ver row src fails s = .next t) : hide M t = hide M s := by
  simp only [execRegrade, Host.Outcome.next.injEq] at e
  subst e
  repeat' first
    | with_reducible rfl
    | (simp only [hide_ite, ite_self, ite_fst, implies_true, eq_self, h_tb, h_up, h_ch, h_gs, h_mem, h_fl, h_tel, h_rl, h_out, regradeRow_hide]; done)
    | with_reducible apply hide_if
    | with_reducible apply hide_if1
    | split
    | (rw [forEach_hide])
    | (rw [foldl_hide])
    | (rw [foldlS_hide])
    | (intro; intros; try dsimp only)
    | (simp only [hide_ite, ite_self, ite_fst, implies_true, eq_self, h_tb, h_up, h_ch, h_gs, h_mem, h_fl, h_tel, h_rl, h_out, regradeRow_hide])

end Sys2Proof.Laws
end

