-- ==== Sys2Proof/Laws/FrameDrives.lean ====
section
/-!
SUPPORT. Frames of what Machine/Drives.lean defines: the parts of the state that each may change.
-/

namespace Sys2Proof.Laws

open Sys2Proof.Machine

variable {M : Mask}

theorem onCmd_hide (h_fl : M .fl = true) (s : State) (c : NvCmd) (f : NvCmd → NvCmd) : hide M (State.onCmd s c f) = hide M s := by
  unfold State.onCmd
  simp only [eq_self, h_fl, onFl_hide]

theorem endCmd_hide (h_fl : M .fl = true) (s : State) (c : NvCmd) : hide M (State.endCmd s c) = hide M s := by
  unfold State.endCmd
  simp only [hide_ite, ite_self, eq_self, h_fl, onDrive_hide, onFl_hide]

theorem slotGrant_hide (h_gs : M .gs = true) (h_fl : M .fl = true) (h_tel : M .tel = true) (h_out : M .out = true) (s : State) (d : Nat) : hide M (State.slotGrant s d) = hide M s := by
  unfold State.slotGrant
  try dsimp only
  repeat' first
    | with_reducible rfl
    | (simp only [hide_ite, ite_self, ite_fst, implies_true, eq_self, h_gs, h_fl, h_tel, h_out, count_hide, onCmd_hide, onDrive_hide, submit_hide]; done)
    | with_reducible apply hide_if
    | with_reducible apply hide_if1
    | split
    | (rw [forEach_hide])
    | (rw [foldl_hide])
    | (rw [foldlS_hide])
    | (intro; intros; try dsimp only)
    | (simp only [hide_ite, ite_self, ite_fst, implies_true, eq_self, h_gs, h_fl, h_tel, h_out, count_hide, onCmd_hide, onDrive_hide, submit_hide])

theorem execNvmeSlotGrant_hide (h_gs : M .gs = true) (h_fl : M .fl = true) (h_tel : M .tel = true) (h_out : M .out = true) (drive : Nat) (s : State) (t : State) (e : execNvmeSlotGrant drive s = .next t) : hide M t = hide M s := by
  simp only [execNvmeSlotGrant, Host.Outcome.next.injEq] at e
  subst e
  repeat' first
    | with_reducible rfl
    | (simp only [hide_ite, ite_self, ite_fst, implies_true, eq_self, h_gs, h_fl, h_tel, h_out, slotGrant_hide]; done)
    | with_reducible apply hide_if
    | with_reducible apply hide_if1
    | split
    | (rw [forEach_hide])
    | (rw [foldl_hide])
    | (rw [foldlS_hide])
    | (intro; intros; try dsimp only)
    | (simp only [hide_ite, ite_self, ite_fst, implies_true, eq_self, h_gs, h_fl, h_tel, h_out, slotGrant_hide])

theorem failRow_hide (h_tb : M .tb = true) (h_sp : M .sp = true) (h_tel : M .tel = true) (h_rl : M .rl = true) (s : State) (wid : Nat) (st : BitVec 8) (r : Key × Nat) : hide M (State.failRow s wid st r) = hide M s := by
  unfold State.failRow
  simp only [hide_ite, ite_self, eq_self, h_tb, h_sp, h_tel, h_rl, onPwin_hide, poisonRow_hide, rowFails_hide]

theorem cmdEnds_hide (h_fe : M .fe = true) (h_fl : M .fl = true) (s : State) (c : NvCmd) (id : Nat) : hide M (State.cmdEnds s c id) = hide M s := by
  unfold State.cmdEnds
  try dsimp only
  repeat' first
    | with_reducible rfl
    | (simp only [hide_ite, ite_self, ite_fst, implies_true, eq_self, h_fe, h_fl, flushNs_hide, onDesc_hide]; done)
    | with_reducible apply hide_if
    | with_reducible apply hide_if1
    | split
    | (rw [forEach_hide])
    | (rw [foldl_hide])
    | (rw [foldlS_hide])
    | (intro; intros; try dsimp only)
    | (simp only [hide_ite, ite_self, ite_fst, implies_true, eq_self, h_fe, h_fl, flushNs_hide, onDesc_hide])

theorem dropCmd_hide (h_fe : M .fe = true) (h_fl : M .fl = true) (s : State) (c : NvCmd) : hide M (State.dropCmd s c) = hide M s := by
  unfold State.dropCmd
  try dsimp only
  repeat' first
    | with_reducible rfl
    | (simp only [hide_ite, ite_self, ite_fst, implies_true, eq_self, h_fe, h_fl, cmdEnds_hide, endCmd_hide]; done)
    | with_reducible apply hide_if
    | with_reducible apply hide_if1
    | split
    | (rw [forEach_hide])
    | (rw [foldl_hide])
    | (rw [foldlS_hide])
    | (intro; intros; try dsimp only)
    | (simp only [hide_ite, ite_self, ite_fst, implies_true, eq_self, h_fe, h_fl, cmdEnds_hide, endCmd_hide])

theorem failRows_hide (h_regs : M .regs = true) (h_fe : M .fe = true) (h_xl : M .xl = true) (h_tb : M .tb = true) (h_sp : M .sp = true) (h_up : M .up = true) (h_ch : M .ch = true) (h_gs : M .gs = true) (h_fl : M .fl = true) (h_tel : M .tel = true) (h_rl : M .rl = true) (h_out : M .out = true) (s : State) (c : NvCmd) (st : BitVec 8) : hide M (State.failRows s c st) = hide M s := by
  unfold State.failRows
  try dsimp only
  repeat' first
    | with_reducible rfl
    | (simp only [hide_ite, ite_self, ite_fst, implies_true, eq_self, h_regs, h_fe, h_xl, h_tb, h_sp, h_up, h_ch, h_gs, h_fl, h_tel, h_rl, h_out, forEach_hide, cmdEnds_hide, failRow_hide, freeLanded_hide, onDesc_hide, retire_hide, settleWin_hide]; done)
    | with_reducible apply hide_if
    | with_reducible apply hide_if1
    | split
    | (rw [forEach_hide])
    | (rw [foldl_hide])
    | (rw [foldlS_hide])
    | (intro; intros; try dsimp only)
    | (simp only [hide_ite, ite_self, ite_fst, implies_true, eq_self, h_regs, h_fe, h_xl, h_tb, h_sp, h_up, h_ch, h_gs, h_fl, h_tel, h_rl, h_out, forEach_hide, cmdEnds_hide, failRow_hide, freeLanded_hide, onDesc_hide, retire_hide, settleWin_hide])

theorem landBlocks_hide (h_gs : M .gs = true) (h_fl : M .fl = true) (h_tel : M .tel = true) (s : State) (wid : Nat) (c : NvCmd) (data : Bytes) : hide M (State.landBlocks s wid c data) = hide M s := by
  unfold State.landBlocks
  try dsimp only
  repeat' first
    | with_reducible rfl
    | (simp only [hide_ite, ite_self, ite_fst, implies_true, eq_self, h_gs, h_fl, h_tel, forEach_hide, noteLand_hide, onFl_hide]; done)
    | with_reducible apply hide_if
    | with_reducible apply hide_if1
    | split
    | (rw [forEach_hide])
    | (rw [foldl_hide])
    | (rw [foldlS_hide])
    | (intro; intros; try dsimp only)
    | (simp only [hide_ite, ite_self, ite_fst, implies_true, eq_self, h_gs, h_fl, h_tel, forEach_hide, noteLand_hide, onFl_hide])

theorem writeDone_hide (h_fe : M .fe = true) (h_fl : M .fl = true) (h_tel : M .tel = true) (h_rl : M .rl = true) (s : State) (c : NvCmd) (id : Nat) : hide M (State.writeDone s c id) = hide M s := by
  unfold State.writeDone
  try dsimp only
  repeat' first
    | with_reducible rfl
    | (simp only [hide_ite, ite_self, ite_fst, implies_true, eq_self, h_fe, h_fl, h_tel, h_rl, forEach_hide, cmdEnds_hide, endCmd_hide, tell_hide, unpoison_hide]; done)
    | with_reducible apply hide_if
    | with_reducible apply hide_if1
    | split
    | (rw [forEach_hide])
    | (rw [foldl_hide])
    | (rw [foldlS_hide])
    | (intro; intros; try dsimp only)
    | (simp only [hide_ite, ite_self, ite_fst, implies_true, eq_self, h_fe, h_fl, h_tel, h_rl, forEach_hide, cmdEnds_hide, endCmd_hide, tell_hide, unpoison_hide])

theorem readDone_hide (h_fe : M .fe = true) (h_tb : M .tb = true) (h_up : M .up = true) (h_ch : M .ch = true) (h_gs : M .gs = true) (h_fl : M .fl = true) (h_tel : M .tel = true) (h_rl : M .rl = true) (h_out : M .out = true) (s : State) (c : NvCmd) (data : Bytes) : hide M (State.readDone s c data) = hide M s := by
  unfold State.readDone
  try dsimp only
  repeat' first
    | with_reducible rfl
    | (simp only [hide_ite, ite_self, ite_fst, implies_true, eq_self, h_fe, h_tb, h_up, h_ch, h_gs, h_fl, h_tel, h_rl, h_out, endCmd_hide, freeLanded_hide, landBlocks_hide, onVersion_hide, retire_hide, tell_hide, writeDone_hide]; done)
    | with_reducible apply hide_if
    | with_reducible apply hide_if1
    | split
    | (rw [forEach_hide])
    | (rw [foldl_hide])
    | (rw [foldlS_hide])
    | (intro; intros; try dsimp only)
    | (simp only [hide_ite, ite_self, ite_fst, implies_true, eq_self, h_fe, h_tb, h_up, h_ch, h_gs, h_fl, h_tel, h_rl, h_out, endCmd_hide, freeLanded_hide, landBlocks_hide, onVersion_hide, retire_hide, tell_hide, writeDone_hide])

theorem readFail_hide (h_regs : M .regs = true) (h_fe : M .fe = true) (h_xl : M .xl = true) (h_tb : M .tb = true) (h_sp : M .sp = true) (h_up : M .up = true) (h_ch : M .ch = true) (h_gs : M .gs = true) (h_fl : M .fl = true) (h_tel : M .tel = true) (h_rl : M .rl = true) (h_out : M .out = true) (s : State) (c : NvCmd) : hide M (State.readFail s c) = hide M s := by
  unfold State.readFail
  try dsimp only
  repeat' first
    | with_reducible rfl
    | (simp only [hide_ite, ite_self, ite_fst, implies_true, eq_self, h_regs, h_fe, h_xl, h_tb, h_sp, h_up, h_ch, h_gs, h_fl, h_tel, h_rl, h_out, endCmd_hide, failRows_hide, tell_hide]; done)
    | with_reducible apply hide_if
    | with_reducible apply hide_if1
    | split
    | (rw [forEach_hide])
    | (rw [foldl_hide])
    | (rw [foldlS_hide])
    | (intro; intros; try dsimp only)
    | (simp only [hide_ite, ite_self, ite_fst, implies_true, eq_self, h_regs, h_fe, h_xl, h_tb, h_sp, h_up, h_ch, h_gs, h_fl, h_tel, h_rl, h_out, endCmd_hide, failRows_hide, tell_hide])

theorem createQueues_hide (h_out : M .out = true) (s : State) (d n size : Nat) : hide M (State.createQueues s d n size) = hide M s := by
  unfold State.createQueues
  try dsimp only
  repeat' first
    | with_reducible rfl
    | (simp only [hide_ite, ite_self, ite_fst, implies_true, eq_self, h_out, sendAll_hide, send_hide]; done)
    | with_reducible apply hide_if
    | with_reducible apply hide_if1
    | split
    | (rw [forEach_hide])
    | (rw [foldl_hide])
    | (rw [foldlS_hide])
    | (intro; intros; try dsimp only)
    | (simp only [hide_ite, ite_self, ite_fst, implies_true, eq_self, h_out, sendAll_hide, send_hide])

theorem deleteQueues_hide (h_out : M .out = true) (s : State) (d : Nat) : hide M (State.deleteQueues s d) = hide M s := by
  unfold State.deleteQueues
  try dsimp only
  repeat' first
    | with_reducible rfl
    | (simp only [hide_ite, ite_self, ite_fst, implies_true, eq_self, h_out, sendAll_hide]; done)
    | with_reducible apply hide_if
    | with_reducible apply hide_if1
    | split
    | (rw [forEach_hide])
    | (rw [foldl_hide])
    | (rw [foldlS_hide])
    | (intro; intros; try dsimp only)
    | (simp only [hide_ite, ite_self, ite_fst, implies_true, eq_self, h_out, sendAll_hide])

theorem failDrive_hide (h_regs : M .regs = true) (h_fe : M .fe = true) (h_xl : M .xl = true) (h_tb : M .tb = true) (h_sp : M .sp = true) (h_up : M .up = true) (h_ch : M .ch = true) (h_gs : M .gs = true) (h_fl : M .fl = true) (h_tel : M .tel = true) (h_rl : M .rl = true) (h_out : M .out = true) (s : State) (d : Nat) : hide M (State.failDrive s d) = hide M s := by
  unfold State.failDrive
  try dsimp only
  repeat' first
    | with_reducible rfl
    | (simp only [hide_ite, ite_self, ite_fst, implies_true, eq_self, h_regs, h_fe, h_xl, h_tb, h_sp, h_up, h_ch, h_gs, h_fl, h_tel, h_rl, h_out, forEach_hide, dropCmd_hide, endCmd_hide, failRows_hide, tell_hide]; done)
    | with_reducible apply hide_if
    | with_reducible apply hide_if1
    | split
    | (rw [forEach_hide])
    | (rw [foldl_hide])
    | (rw [foldlS_hide])
    | (intro; intros; try dsimp only)
    | (simp only [hide_ite, ite_self, ite_fst, implies_true, eq_self, h_regs, h_fe, h_xl, h_tb, h_sp, h_up, h_ch, h_gs, h_fl, h_tel, h_rl, h_out, forEach_hide, dropCmd_hide, endCmd_hide, failRows_hide, tell_hide])

theorem failOut_hide (h_regs : M .regs = true) (h_fe : M .fe = true) (h_xl : M .xl = true) (h_tb : M .tb = true) (h_sp : M .sp = true) (h_up : M .up = true) (h_ch : M .ch = true) (h_gs : M .gs = true) (h_fl : M .fl = true) (h_tel : M .tel = true) (h_rl : M .rl = true) (h_out : M .out = true) (s : State) (d : Nat) : hide M (State.failOut s d) = hide M s := by
  unfold State.failOut
  try dsimp only
  repeat' first
    | with_reducible rfl
    | (simp only [hide_ite, ite_self, ite_fst, implies_true, eq_self, h_regs, h_fe, h_xl, h_tb, h_sp, h_up, h_ch, h_gs, h_fl, h_tel, h_rl, h_out, forEach_hide, endCmd_hide, failRows_hide, onCmd_hide, tell_hide]; done)
    | with_reducible apply hide_if
    | with_reducible apply hide_if1
    | split
    | (rw [forEach_hide])
    | (rw [foldl_hide])
    | (rw [foldlS_hide])
    | (intro; intros; try dsimp only)
    | (simp only [hide_ite, ite_self, ite_fst, implies_true, eq_self, h_regs, h_fe, h_xl, h_tb, h_sp, h_up, h_ch, h_gs, h_fl, h_tel, h_rl, h_out, forEach_hide, endCmd_hide, failRows_hide, onCmd_hide, tell_hide])

theorem resetDrive_hide (h_regs : M .regs = true) (h_fe : M .fe = true) (h_xl : M .xl = true) (h_tb : M .tb = true) (h_sp : M .sp = true) (h_up : M .up = true) (h_ch : M .ch = true) (h_gs : M .gs = true) (h_fl : M .fl = true) (h_tel : M .tel = true) (h_rl : M .rl = true) (h_out : M .out = true) (s : State) (d : Nat) : hide M (State.resetDrive s d) = hide M s := by
  unfold State.resetDrive
  try dsimp only
  repeat' first
    | with_reducible rfl
    | (simp only [hide_ite, ite_self, ite_fst, implies_true, eq_self, h_regs, h_fe, h_xl, h_tb, h_sp, h_up, h_ch, h_gs, h_fl, h_tel, h_rl, h_out, count_hide, failOut_hide, onDrive_hide]; done)
    | with_reducible apply hide_if
    | with_reducible apply hide_if1
    | split
    | (rw [forEach_hide])
    | (rw [foldl_hide])
    | (rw [foldlS_hide])
    | (intro; intros; try dsimp only)
    | (simp only [hide_ite, ite_self, ite_fst, implies_true, eq_self, h_regs, h_fe, h_xl, h_tb, h_sp, h_up, h_ch, h_gs, h_fl, h_tel, h_rl, h_out, count_hide, failOut_hide, onDrive_hide])

theorem dropOut_hide (h_fe : M .fe = true) (h_fl : M .fl = true) (s : State) (d : Nat) : hide M (State.dropOut s d) = hide M s := by
  unfold State.dropOut
  try dsimp only
  repeat' first
    | with_reducible rfl
    | (simp only [hide_ite, ite_self, ite_fst, implies_true, eq_self, h_fe, h_fl, forEach_hide, dropCmd_hide]; done)
    | with_reducible apply hide_if
    | with_reducible apply hide_if1
    | split
    | (rw [forEach_hide])
    | (rw [foldl_hide])
    | (rw [foldlS_hide])
    | (intro; intros; try dsimp only)
    | (simp only [hide_ite, ite_self, ite_fst, implies_true, eq_self, h_fe, h_fl, forEach_hide, dropCmd_hide])

theorem driveDown_hide (h_regs : M .regs = true) (h_fe : M .fe = true) (h_xl : M .xl = true) (h_tb : M .tb = true) (h_sp : M .sp = true) (h_up : M .up = true) (h_ch : M .ch = true) (h_gs : M .gs = true) (h_fl : M .fl = true) (h_tel : M .tel = true) (h_rl : M .rl = true) (h_out : M .out = true) (s : State) (d : Nat) : hide M (State.driveDown s d) = hide M s := by
  unfold State.driveDown
  try dsimp only
  repeat' first
    | with_reducible rfl
    | (simp only [hide_ite, ite_self, ite_fst, implies_true, eq_self, h_regs, h_fe, h_xl, h_tb, h_sp, h_up, h_ch, h_gs, h_fl, h_tel, h_rl, h_out, failDrive_hide, onDrive_hide, tell_hide]; done)
    | with_reducible apply hide_if
    | with_reducible apply hide_if1
    | split
    | (rw [forEach_hide])
    | (rw [foldl_hide])
    | (rw [foldlS_hide])
    | (intro; intros; try dsimp only)
    | (simp only [hide_ite, ite_self, ite_fst, implies_true, eq_self, h_regs, h_fe, h_xl, h_tb, h_sp, h_up, h_ch, h_gs, h_fl, h_tel, h_rl, h_out, failDrive_hide, onDrive_hide, tell_hide])

theorem execDriveRemoval_hide (h_regs : M .regs = true) (h_fe : M .fe = true) (h_xl : M .xl = true) (h_tb : M .tb = true) (h_sp : M .sp = true) (h_up : M .up = true) (h_ch : M .ch = true) (h_gs : M .gs = true) (h_fl : M .fl = true) (h_tel : M .tel = true) (h_rl : M .rl = true) (h_out : M .out = true) (drive : Nat) (s : State) (t : State) (e : execDriveRemoval drive s = .next t) : hide M t = hide M s := by
  simp only [execDriveRemoval, Host.Outcome.next.injEq] at e
  subst e
  repeat' first
    | with_reducible rfl
    | (simp only [hide_ite, ite_self, ite_fst, implies_true, eq_self, h_regs, h_fe, h_xl, h_tb, h_sp, h_up, h_ch, h_gs, h_fl, h_tel, h_rl, h_out, driveDown_hide]; done)
    | with_reducible apply hide_if
    | with_reducible apply hide_if1
    | split
    | (rw [forEach_hide])
    | (rw [foldl_hide])
    | (rw [foldlS_hide])
    | (intro; intros; try dsimp only)
    | (simp only [hide_ite, ite_self, ite_fst, implies_true, eq_self, h_regs, h_fe, h_xl, h_tb, h_sp, h_up, h_ch, h_gs, h_fl, h_tel, h_rl, h_out, driveDown_hide])

theorem resetDone_hide (h_regs : M .regs = true) (h_fe : M .fe = true) (h_xl : M .xl = true) (h_tb : M .tb = true) (h_sp : M .sp = true) (h_up : M .up = true) (h_ch : M .ch = true) (h_gs : M .gs = true) (h_fl : M .fl = true) (h_tel : M .tel = true) (h_rl : M .rl = true) (h_out : M .out = true) (s : State) (d : Nat) (ok : Bool) : hide M (State.resetDone s d ok) = hide M s := by
  unfold State.resetDone
  try dsimp only
  repeat' first
    | with_reducible rfl
    | (simp only [hide_ite, ite_self, ite_fst, implies_true, eq_self, h_regs, h_fe, h_xl, h_tb, h_sp, h_up, h_ch, h_gs, h_fl, h_tel, h_rl, h_out, count_hide, createQueues_hide, driveDown_hide, dropOut_hide, onDrive_hide, tell_hide]; done)
    | with_reducible apply hide_if
    | with_reducible apply hide_if1
    | split
    | (rw [forEach_hide])
    | (rw [foldl_hide])
    | (rw [foldlS_hide])
    | (intro; intros; try dsimp only)
    | (simp only [hide_ite, ite_self, ite_fst, implies_true, eq_self, h_regs, h_fe, h_xl, h_tb, h_sp, h_up, h_ch, h_gs, h_fl, h_tel, h_rl, h_out, count_hide, createQueues_hide, driveDown_hide, dropOut_hide, onDrive_hide, tell_hide])

theorem execControllerResetComplete_hide (h_regs : M .regs = true) (h_fe : M .fe = true) (h_xl : M .xl = true) (h_tb : M .tb = true) (h_sp : M .sp = true) (h_up : M .up = true) (h_ch : M .ch = true) (h_gs : M .gs = true) (h_fl : M .fl = true) (h_tel : M .tel = true) (h_rl : M .rl = true) (h_out : M .out = true) (drive : Nat) (ok : Bool) (s : State) (t : State) (e : execControllerResetComplete drive ok s = .next t) : hide M t = hide M s := by
  simp only [execControllerResetComplete, Host.Outcome.next.injEq] at e
  subst e
  repeat' first
    | with_reducible rfl
    | (simp only [hide_ite, ite_self, ite_fst, implies_true, eq_self, h_regs, h_fe, h_xl, h_tb, h_sp, h_up, h_ch, h_gs, h_fl, h_tel, h_rl, h_out, resetDone_hide]; done)
    | with_reducible apply hide_if
    | with_reducible apply hide_if1
    | split
    | (rw [forEach_hide])
    | (rw [foldl_hide])
    | (rw [foldlS_hide])
    | (intro; intros; try dsimp only)
    | (simp only [hide_ite, ite_self, ite_fst, implies_true, eq_self, h_regs, h_fe, h_xl, h_tb, h_sp, h_up, h_ch, h_gs, h_fl, h_tel, h_rl, h_out, resetDone_hide])

theorem nvmeDone_hide (h_regs : M .regs = true) (h_fe : M .fe = true) (h_xl : M .xl = true) (h_tb : M .tb = true) (h_sp : M .sp = true) (h_up : M .up = true) (h_ch : M .ch = true) (h_gs : M .gs = true) (h_fl : M .fl = true) (h_tel : M .tel = true) (h_rl : M .rl = true) (h_out : M .out = true) (s : State) (d tag : Nat) (res : NvmeOutcome) (data : Bytes) : hide M (State.nvmeDone s d tag res data) = hide M s := by
  unfold State.nvmeDone
  try dsimp only
  repeat' first
    | with_reducible rfl
    | (simp only [hide_ite, ite_self, ite_fst, implies_true, eq_self, h_regs, h_fe, h_xl, h_tb, h_sp, h_up, h_ch, h_gs, h_fl, h_tel, h_rl, h_out, count_hide, dropCmd_hide, onCmd_hide, readDone_hide, readFail_hide, resetDrive_hide, submit_hide]; done)
    | with_reducible apply hide_if
    | with_reducible apply hide_if1
    | split
    | (rw [forEach_hide])
    | (rw [foldl_hide])
    | (rw [foldlS_hide])
    | (intro; intros; try dsimp only)
    | (simp only [hide_ite, ite_self, ite_fst, implies_true, eq_self, h_regs, h_fe, h_xl, h_tb, h_sp, h_up, h_ch, h_gs, h_fl, h_tel, h_rl, h_out, count_hide, dropCmd_hide, onCmd_hide, readDone_hide, readFail_hide, resetDrive_hide, submit_hide])

theorem execNvmeCompletion_hide (h_regs : M .regs = true) (h_fe : M .fe = true) (h_xl : M .xl = true) (h_tb : M .tb = true) (h_sp : M .sp = true) (h_up : M .up = true) (h_ch : M .ch = true) (h_gs : M .gs = true) (h_fl : M .fl = true) (h_tel : M .tel = true) (h_rl : M .rl = true) (h_out : M .out = true) (drive tag : Nat) (res : NvmeOutcome) (data : Bytes) (s : State) (t : State) (e : execNvmeCompletion drive tag res data s = .next t) : hide M t = hide M s := by
  simp only [execNvmeCompletion, Host.Outcome.next.injEq] at e
  subst e
  repeat' first
    | with_reducible rfl
    | (simp only [hide_ite, ite_self, ite_fst, implies_true, eq_self, h_regs, h_fe, h_xl, h_tb, h_sp, h_up, h_ch, h_gs, h_fl, h_tel, h_rl, h_out, nvmeDone_hide]; done)
    | with_reducible apply hide_if
    | with_reducible apply hide_if1
    | split
    | (rw [forEach_hide])
    | (rw [foldl_hide])
    | (rw [foldlS_hide])
    | (intro; intros; try dsimp only)
    | (simp only [hide_ite, ite_self, ite_fst, implies_true, eq_self, h_regs, h_fe, h_xl, h_tb, h_sp, h_up, h_ch, h_gs, h_fl, h_tel, h_rl, h_out, nvmeDone_hide])

theorem cmdTimeout_hide (h_regs : M .regs = true) (h_fe : M .fe = true) (h_xl : M .xl = true) (h_tb : M .tb = true) (h_sp : M .sp = true) (h_up : M .up = true) (h_ch : M .ch = true) (h_gs : M .gs = true) (h_fl : M .fl = true) (h_tel : M .tel = true) (h_rl : M .rl = true) (h_out : M .out = true) (s : State) (d tag : Nat) : hide M (State.cmdTimeout s d tag) = hide M s := by
  unfold State.cmdTimeout
  try dsimp only
  repeat' first
    | with_reducible rfl
    | (simp only [hide_ite, ite_self, ite_fst, implies_true, eq_self, h_regs, h_fe, h_xl, h_tb, h_sp, h_up, h_ch, h_gs, h_fl, h_tel, h_rl, h_out, count_hide, failRows_hide, onCmd_hide, sendAbort_hide, tell_hide]; done)
    | with_reducible apply hide_if
    | with_reducible apply hide_if1
    | split
    | (rw [forEach_hide])
    | (rw [foldl_hide])
    | (rw [foldlS_hide])
    | (intro; intros; try dsimp only)
    | (simp only [hide_ite, ite_self, ite_fst, implies_true, eq_self, h_regs, h_fe, h_xl, h_tb, h_sp, h_up, h_ch, h_gs, h_fl, h_tel, h_rl, h_out, count_hide, failRows_hide, onCmd_hide, sendAbort_hide, tell_hide])

theorem execNvmeCmdTimeout_hide (h_regs : M .regs = true) (h_fe : M .fe = true) (h_xl : M .xl = true) (h_tb : M .tb = true) (h_sp : M .sp = true) (h_up : M .up = true) (h_ch : M .ch = true) (h_gs : M .gs = true) (h_fl : M .fl = true) (h_tel : M .tel = true) (h_rl : M .rl = true) (h_out : M .out = true) (drive tag : Nat) (s : State) (t : State) (e : execNvmeCmdTimeout drive tag s = .next t) : hide M t = hide M s := by
  simp only [execNvmeCmdTimeout, Host.Outcome.next.injEq] at e
  subst e
  repeat' first
    | with_reducible rfl
    | (simp only [hide_ite, ite_self, ite_fst, implies_true, eq_self, h_regs, h_fe, h_xl, h_tb, h_sp, h_up, h_ch, h_gs, h_fl, h_tel, h_rl, h_out, cmdTimeout_hide]; done)
    | with_reducible apply hide_if
    | with_reducible apply hide_if1
    | split
    | (rw [forEach_hide])
    | (rw [foldl_hide])
    | (rw [foldlS_hide])
    | (intro; intros; try dsimp only)
    | (simp only [hide_ite, ite_self, ite_fst, implies_true, eq_self, h_regs, h_fe, h_xl, h_tb, h_sp, h_up, h_ch, h_gs, h_fl, h_tel, h_rl, h_out, cmdTimeout_hide])

theorem abortTimeout_hide (h_regs : M .regs = true) (h_fe : M .fe = true) (h_xl : M .xl = true) (h_tb : M .tb = true) (h_sp : M .sp = true) (h_up : M .up = true) (h_ch : M .ch = true) (h_gs : M .gs = true) (h_fl : M .fl = true) (h_tel : M .tel = true) (h_rl : M .rl = true) (h_out : M .out = true) (s : State) (d tag : Nat) : hide M (State.abortTimeout s d tag) = hide M s := by
  unfold State.abortTimeout
  try dsimp only
  repeat' first
    | with_reducible rfl
    | (simp only [hide_ite, ite_self, ite_fst, implies_true, eq_self, h_regs, h_fe, h_xl, h_tb, h_sp, h_up, h_ch, h_gs, h_fl, h_tel, h_rl, h_out, resetDrive_hide]; done)
    | with_reducible apply hide_if
    | with_reducible apply hide_if1
    | split
    | (rw [forEach_hide])
    | (rw [foldl_hide])
    | (rw [foldlS_hide])
    | (intro; intros; try dsimp only)
    | (simp only [hide_ite, ite_self, ite_fst, implies_true, eq_self, h_regs, h_fe, h_xl, h_tb, h_sp, h_up, h_ch, h_gs, h_fl, h_tel, h_rl, h_out, resetDrive_hide])

theorem execAbortTimeout_hide (h_regs : M .regs = true) (h_fe : M .fe = true) (h_xl : M .xl = true) (h_tb : M .tb = true) (h_sp : M .sp = true) (h_up : M .up = true) (h_ch : M .ch = true) (h_gs : M .gs = true) (h_fl : M .fl = true) (h_tel : M .tel = true) (h_rl : M .rl = true) (h_out : M .out = true) (drive tag : Nat) (s : State) (t : State) (e : execAbortTimeout drive tag s = .next t) : hide M t = hide M s := by
  simp only [execAbortTimeout, Host.Outcome.next.injEq] at e
  subst e
  repeat' first
    | with_reducible rfl
    | (simp only [hide_ite, ite_self, ite_fst, implies_true, eq_self, h_regs, h_fe, h_xl, h_tb, h_sp, h_up, h_ch, h_gs, h_fl, h_tel, h_rl, h_out, abortTimeout_hide]; done)
    | with_reducible apply hide_if
    | with_reducible apply hide_if1
    | split
    | (rw [forEach_hide])
    | (rw [foldl_hide])
    | (rw [foldlS_hide])
    | (intro; intros; try dsimp only)
    | (simp only [hide_ite, ite_self, ite_fst, implies_true, eq_self, h_regs, h_fe, h_xl, h_tb, h_sp, h_up, h_ch, h_gs, h_fl, h_tel, h_rl, h_out, abortTimeout_hide])

theorem attachNs_hide (h_fl : M .fl = true) (h_tel : M .tel = true) (s : State) (d : Nat) (n : NsInfo) : hide M (State.attachNs s d n) = hide M s := by
  unfold State.attachNs
  (repeat' split) <;> simp only [eq_self, h_fl, h_tel, onDrive_hide, onFl_hide, tell_hide]

theorem identify_hide (h_out : M .out = true) (s : State) (d : Nat) (i : DriveInfo) : hide M (State.identify s d i) = hide M s := by
  unfold State.identify
  try dsimp only
  repeat' first
    | with_reducible rfl
    | (simp only [hide_ite, ite_self, ite_fst, implies_true, eq_self, h_out, sendAll_hide, send_hide]; done)
    | with_reducible apply hide_if
    | with_reducible apply hide_if1
    | split
    | (rw [forEach_hide])
    | (rw [foldl_hide])
    | (rw [foldlS_hide])
    | (intro; intros; try dsimp only)
    | (simp only [hide_ite, ite_self, ite_fst, implies_true, eq_self, h_out, sendAll_hide, send_hide])

theorem attach_hide (h_fl : M .fl = true) (h_tel : M .tel = true) (h_out : M .out = true) (s0 : State) (d : Nat) (i : DriveInfo) : hide M (State.attach s0 d i) = hide M s0 := by
  unfold State.attach
  try dsimp only
  repeat' first
    | with_reducible rfl
    | (simp only [hide_ite, ite_self, ite_fst, implies_true, eq_self, h_fl, h_tel, h_out, forEach_hide, attachNs_hide, createQueues_hide, identify_hide, onDrive_hide, tell_hide]; done)
    | with_reducible apply hide_if
    | with_reducible apply hide_if1
    | split
    | (rw [forEach_hide])
    | (rw [foldl_hide])
    | (rw [foldlS_hide])
    | (intro; intros; try dsimp only)
    | (simp only [hide_ite, ite_self, ite_fst, implies_true, eq_self, h_fl, h_tel, h_out, forEach_hide, attachNs_hide, createQueues_hide, identify_hide, onDrive_hide, tell_hide])

theorem execAutoAttach_hide (h_fl : M .fl = true) (h_tel : M .tel = true) (h_out : M .out = true) (drive : Nat) (info : DriveInfo) (s : State) (t : State) (e : execAutoAttach drive info s = .next t) : hide M t = hide M s := by
  simp only [execAutoAttach, Host.Outcome.next.injEq] at e
  subst e
  repeat' first
    | with_reducible rfl
    | (simp only [hide_ite, ite_self, ite_fst, implies_true, eq_self, h_fl, h_tel, h_out, attach_hide]; done)
    | with_reducible apply hide_if
    | with_reducible apply hide_if1
    | split
    | (rw [forEach_hide])
    | (rw [foldl_hide])
    | (rw [foldlS_hide])
    | (intro; intros; try dsimp only)
    | (simp only [hide_ite, ite_self, ite_fst, implies_true, eq_self, h_fl, h_tel, h_out, attach_hide])

end Sys2Proof.Laws
end

