-- ==== Sys2Proof/Laws/FrameFetch.lean ====
section
/-!
SUPPORT. Frames of what Machine/Fetch.lean defines: the parts of the state that each may change.
-/

namespace Sys2Proof.Laws

open Sys2Proof.Machine

variable {M : Mask}

theorem needRow_hide (h_sp : M .sp = true) (h_ch : M .ch = true) (h_gs : M .gs = true) (h_fl : M .fl = true) (h_tel : M .tel = true) (h_out : M .out = true) (s : State) (wid : Nat) (bad : List (Key × Nat)) (n : Need) : hide M (State.needRow s wid bad n) = hide M s := by
  unfold State.needRow
  try dsimp only
  repeat' first
    | with_reducible rfl
    | (simp only [hide_ite, ite_self, ite_fst, implies_true, eq_self, h_sp, h_ch, h_gs, h_fl, h_tel, h_out, askRow_hide, count_hide, noteScratch_hide, tell_hide]; done)
    | with_reducible apply hide_if
    | with_reducible apply hide_if1
    | split
    | (rw [forEach_hide])
    | (rw [foldl_hide])
    | (rw [foldlS_hide])
    | (intro; intros; try dsimp only)
    | (simp only [hide_ite, ite_self, ite_fst, implies_true, eq_self, h_sp, h_ch, h_gs, h_fl, h_tel, h_out, askRow_hide, count_hide, noteScratch_hide, tell_hide])

theorem spoolBad_hide (h_sp : M .sp = true) (h_tel : M .tel = true) (s : State) (wid : Nat) (r : Key × Nat) : hide M (State.spoolBad s wid r) = hide M s := by
  unfold State.spoolBad
  try dsimp only
  repeat' first
    | with_reducible rfl
    | (simp only [hide_ite, ite_self, ite_fst, implies_true, eq_self, h_sp, h_tel, count_hide, onPwin_hide]; done)
    | with_reducible apply hide_if
    | with_reducible apply hide_if1
    | split
    | (rw [forEach_hide])
    | (rw [foldl_hide])
    | (rw [foldlS_hide])
    | (intro; intros; try dsimp only)
    | (simp only [hide_ite, ite_self, ite_fst, implies_true, eq_self, h_sp, h_tel, count_hide, onPwin_hide])

theorem roundStart_hide (h_regs : M .regs = true) (h_fe : M .fe = true) (h_xl : M .xl = true) (h_sp : M .sp = true) (h_up : M .up = true) (h_ch : M .ch = true) (h_gs : M .gs = true) (h_fl : M .fl = true) (h_tel : M .tel = true) (h_out : M .out = true) (s : State) (wid : Nat) (bad : List (Key × Nat)) : hide M (State.roundStart s wid bad) = hide M s := by
  unfold State.roundStart
  try dsimp only
  repeat' first
    | with_reducible rfl
    | (simp only [hide_ite, ite_self, ite_fst, implies_true, eq_self, h_regs, h_fe, h_xl, h_sp, h_up, h_ch, h_gs, h_fl, h_tel, h_out, forEach_hide, countN_hide, letTiles_hide, needRow_hide, onPwin_hide, settleWin_hide, spoolBad_hide]; done)
    | with_reducible apply hide_if
    | with_reducible apply hide_if1
    | split
    | (rw [forEach_hide])
    | (rw [foldl_hide])
    | (rw [foldlS_hide])
    | (intro; intros; try dsimp only)
    | (simp only [hide_ite, ite_self, ite_fst, implies_true, eq_self, h_regs, h_fe, h_xl, h_sp, h_up, h_ch, h_gs, h_fl, h_tel, h_out, forEach_hide, countN_hide, letTiles_hide, needRow_hide, onPwin_hide, settleWin_hide, spoolBad_hide])

theorem execRoundStart_hide (h_regs : M .regs = true) (h_fe : M .fe = true) (h_xl : M .xl = true) (h_sp : M .sp = true) (h_up : M .up = true) (h_ch : M .ch = true) (h_gs : M .gs = true) (h_fl : M .fl = true) (h_tel : M .tel = true) (h_out : M .out = true) (r : RoundBegin) (s : State) (t : State) (e : execRoundStart r s = .next t) : hide M t = hide M s := by
  simp only [execRoundStart, Host.Outcome.next.injEq] at e
  subst e
  repeat' first
    | with_reducible rfl
    | (simp only [hide_ite, ite_self, ite_fst, implies_true, eq_self, h_regs, h_fe, h_xl, h_sp, h_up, h_ch, h_gs, h_fl, h_tel, h_out, roundStart_hide]; done)
    | with_reducible apply hide_if
    | with_reducible apply hide_if1
    | split
    | (rw [forEach_hide])
    | (rw [foldl_hide])
    | (rw [foldlS_hide])
    | (intro; intros; try dsimp only)
    | (simp only [hide_ite, ite_self, ite_fst, implies_true, eq_self, h_regs, h_fe, h_xl, h_sp, h_up, h_ch, h_gs, h_fl, h_tel, h_out, roundStart_hide])

theorem bobbinGrant_hide (h_regs : M .regs = true) (h_fe : M .fe = true) (h_xl : M .xl = true) (h_sp : M .sp = true) (h_up : M .up = true) (h_ch : M .ch = true) (h_gs : M .gs = true) (h_fl : M .fl = true) (h_tel : M .tel = true) (h_out : M .out = true) (s : State) (wid : Nat) (k : Key) (ver : Nat) : hide M (State.bobbinGrant s wid k ver) = hide M s := by
  unfold State.bobbinGrant
  try dsimp only
  repeat' first
    | with_reducible rfl
    | (simp only [hide_ite, ite_self, ite_fst, implies_true, eq_self, h_regs, h_fe, h_xl, h_sp, h_up, h_ch, h_gs, h_fl, h_tel, h_out, issue_hide, noteCap_hide, onPwin_hide, rowFails_hide, settleWin_hide]; done)
    | with_reducible apply hide_if
    | with_reducible apply hide_if1
    | split
    | (rw [forEach_hide])
    | (rw [foldl_hide])
    | (rw [foldlS_hide])
    | (intro; intros; try dsimp only)
    | (simp only [hide_ite, ite_self, ite_fst, implies_true, eq_self, h_regs, h_fe, h_xl, h_sp, h_up, h_ch, h_gs, h_fl, h_tel, h_out, issue_hide, noteCap_hide, onPwin_hide, rowFails_hide, settleWin_hide])

theorem execBobbinGrant_hide (h_regs : M .regs = true) (h_fe : M .fe = true) (h_xl : M .xl = true) (h_sp : M .sp = true) (h_up : M .up = true) (h_ch : M .ch = true) (h_gs : M .gs = true) (h_fl : M .fl = true) (h_tel : M .tel = true) (h_out : M .out = true) (win : Nat) (key : Key) (ver : Nat) (s : State) (t : State) (e : execBobbinGrant win key ver s = .next t) : hide M t = hide M s := by
  simp only [execBobbinGrant, Host.Outcome.next.injEq] at e
  subst e
  repeat' first
    | with_reducible rfl
    | (simp only [hide_ite, ite_self, ite_fst, implies_true, eq_self, h_regs, h_fe, h_xl, h_sp, h_up, h_ch, h_gs, h_fl, h_tel, h_out, bobbinGrant_hide]; done)
    | with_reducible apply hide_if
    | with_reducible apply hide_if1
    | split
    | (rw [forEach_hide])
    | (rw [foldl_hide])
    | (rw [foldlS_hide])
    | (intro; intros; try dsimp only)
    | (simp only [hide_ite, ite_self, ite_fst, implies_true, eq_self, h_regs, h_fe, h_xl, h_sp, h_up, h_ch, h_gs, h_fl, h_tel, h_out, bobbinGrant_hide])

theorem endRead_hide (h_up : M .up = true) (h_ch : M .ch = true) (h_gs : M .gs = true) (h_tel : M .tel = true) (s : State) (a : Ask) : hide M (State.endRead s a) = hide M s := by
  unfold State.endRead
  try dsimp only
  repeat' first
    | with_reducible rfl
    | (simp only [hide_ite, ite_self, ite_fst, implies_true, eq_self, h_up, h_ch, h_gs, h_tel, dropWay_hide, leaveGhost_hide, markHead_hide, putWay_hide, tidyTwins_hide]; done)
    | with_reducible apply hide_if
    | with_reducible apply hide_if1
    | split
    | (rw [forEach_hide])
    | (rw [foldl_hide])
    | (rw [foldlS_hide])
    | (intro; intros; try dsimp only)
    | (simp only [hide_ite, ite_self, ite_fst, implies_true, eq_self, h_up, h_ch, h_gs, h_tel, dropWay_hide, leaveGhost_hide, markHead_hide, putWay_hide, tidyTwins_hide])

theorem admitRow_hide (h_tb : M .tb = true) (h_up : M .up = true) (h_ch : M .ch = true) (h_gs : M .gs = true) (h_mem : M .mem = true) (h_fl : M .fl = true) (h_tel : M .tel = true) (h_out : M .out = true) (s : State) (t : Table) (w : PWin) (a : Ask) (record : Bytes) (fails : WbFails) : hide M (State.admitRow s t w a record fails) = hide M s := by
  unfold State.admitRow
  try dsimp only
  repeat' first
    | with_reducible rfl
    | (simp only [hide_ite, ite_self, ite_fst, implies_true, eq_self, h_tb, h_up, h_ch, h_gs, h_mem, h_fl, h_tel, h_out, admitForced_hide, admitLookup_hide, mend_hide]; done)
    | with_reducible apply hide_if
    | with_reducible apply hide_if1
    | split
    | (rw [forEach_hide])
    | (rw [foldl_hide])
    | (rw [foldlS_hide])
    | (intro; intros; try dsimp only)
    | (simp only [hide_ite, ite_self, ite_fst, implies_true, eq_self, h_tb, h_up, h_ch, h_gs, h_mem, h_fl, h_tel, h_out, admitForced_hide, admitLookup_hide, mend_hide])

theorem stageRow_hide (h_sp : M .sp = true) (h_gs : M .gs = true) (h_tel : M .tel = true) (s : State) (w : PWin) (a : Ask) (g : Grade) (b : Bytes) : hide M (State.stageRow s w a g b) = hide M s := by
  unfold State.stageRow
  try dsimp only
  repeat' first
    | with_reducible rfl
    | (simp only [hide_ite, ite_self, ite_fst, implies_true, eq_self, h_sp, h_gs, h_tel, count_hide, noteScratch_hide, onPwin_hide, softStart_hide, tell_hide]; done)
    | with_reducible apply hide_if
    | with_reducible apply hide_if1
    | split
    | (rw [forEach_hide])
    | (rw [foldl_hide])
    | (rw [foldlS_hide])
    | (intro; intros; try dsimp only)
    | (simp only [hide_ite, ite_self, ite_fst, implies_true, eq_self, h_sp, h_gs, h_tel, count_hide, noteScratch_hide, onPwin_hide, softStart_hide, tell_hide])

theorem backingRow_hide (h_tb : M .tb = true) (h_gs : M .gs = true) (h_fl : M .fl = true) (h_tel : M .tel = true) (h_rl : M .rl = true) (h_out : M .out = true) (s : State) (wid : Nat) (t : Table) (v : Version) (k : Key) (src : RowSrc) : hide M (State.backingRow s wid t v k src).1 = hide M s := by
  unfold State.backingRow
  try dsimp only
  repeat' first
    | with_reducible rfl
    | (simp only [hide_ite, ite_self, ite_fst, implies_true, eq_self, h_tb, h_gs, h_fl, h_tel, h_rl, h_out, readRow_hide]; done)
    | with_reducible apply hide_if
    | with_reducible apply hide_if1
    | split
    | (rw [forEach_hide])
    | (rw [foldl_hide])
    | (rw [foldlS_hide])
    | (intro; intros; try dsimp only)
    | (simp only [hide_ite, ite_self, ite_fst, implies_true, eq_self, h_tb, h_gs, h_fl, h_tel, h_rl, h_out, readRow_hide])

theorem beatErrs_hide (h_tel : M .tel = true) (h_rl : M .rl = true) (s : State) (pos : Nat) (e : Errs) : hide M (State.beatErrs s pos e).1 = hide M s := by
  unfold State.beatErrs
  try dsimp only
  repeat' first
    | with_reducible rfl
    | (simp only [hide_ite, ite_self, ite_fst, implies_true, eq_self, h_tel, h_rl, count_hide, sliceFound_hide, tell_hide]; done)
    | with_reducible apply hide_if
    | with_reducible apply hide_if1
    | split
    | (rw [forEach_hide])
    | (rw [foldl_hide])
    | (rw [foldlS_hide])
    | (intro; intros; try dsimp only)
    | (simp only [hide_ite, ite_self, ite_fst, implies_true, eq_self, h_tel, h_rl, count_hide, sliceFound_hide, tell_hide])

theorem fetchAgain_hide (h_sp : M .sp = true) (s : State) (wid : Nat) (a : Ask) : hide M (State.fetchAgain s wid a) = hide M s := by
  unfold State.fetchAgain
  try dsimp only
  repeat' first
    | with_reducible rfl
    | (simp only [hide_ite, ite_self, ite_fst, implies_true, eq_self, h_sp, onPwin_hide]; done)
    | with_reducible apply hide_if
    | with_reducible apply hide_if1
    | split
    | (rw [forEach_hide])
    | (rw [foldl_hide])
    | (rw [foldlS_hide])
    | (intro; intros; try dsimp only)
    | (simp only [hide_ite, ite_self, ite_fst, implies_true, eq_self, h_sp, onPwin_hide])

theorem landErrs_hide (h_sp : M .sp = true) (h_fl : M .fl = true) (h_tel : M .tel = true) (s : State) (wid : Nat) (a : Ask) (e : Errs) : hide M (State.landErrs s wid a e).1 = hide M s := by
  unfold State.landErrs
  try dsimp only
  repeat' first
    | with_reducible rfl
    | (simp only [hide_ite, ite_self, ite_fst, implies_true, eq_self, h_sp, h_fl, h_tel, count_hide, onFl_hide, onPwin_hide, readRows_hide, tell_hide]; done)
    | with_reducible apply hide_if
    | with_reducible apply hide_if1
    | split
    | (rw [forEach_hide])
    | (rw [foldl_hide])
    | (rw [foldlS_hide])
    | (intro; intros; try dsimp only)
    | (simp only [hide_ite, ite_self, ite_fst, implies_true, eq_self, h_sp, h_fl, h_tel, count_hide, onFl_hide, onPwin_hide, readRows_hide, tell_hide])

theorem rowDelivery_hide (h_regs : M .regs = true) (h_fe : M .fe = true) (h_xl : M .xl = true) (h_tb : M .tb = true) (h_sp : M .sp = true) (h_up : M .up = true) (h_ch : M .ch = true) (h_gs : M .gs = true) (h_mem : M .mem = true) (h_fl : M .fl = true) (h_tel : M .tel = true) (h_rl : M .rl = true) (h_out : M .out = true) (s : State) (wid : Nat) (k : Key) (ver : Nat) (src : RowSrc) (fails : WbFails) (errs : Errs) : hide M (State.rowDelivery s wid k ver src fails errs) = hide M s := by
  unfold State.rowDelivery
  try dsimp only
  repeat' first
    | with_reducible rfl
    | (simp only [hide_ite, ite_self, ite_fst, implies_true, eq_self, h_regs, h_fe, h_xl, h_tb, h_sp, h_up, h_ch, h_gs, h_mem, h_fl, h_tel, h_rl, h_out, admitRow_hide, backingRow_hide, beatErrs_hide, endRead_hide, failRow_hide, fetchAgain_hide, freeLanded_hide, landErrs_hide, onPwin_hide, rowFails_hide, settleWin_hide, stageRow_hide]; done)
    | with_reducible apply hide_if
    | with_reducible apply hide_if1
    | split
    | (rw [forEach_hide])
    | (rw [foldl_hide])
    | (rw [foldlS_hide])
    | (intro; intros; try dsimp only)
    | (simp only [hide_ite, ite_self, ite_fst, implies_true, eq_self, h_regs, h_fe, h_xl, h_tb, h_sp, h_up, h_ch, h_gs, h_mem, h_fl, h_tel, h_rl, h_out, admitRow_hide, backingRow_hide, beatErrs_hide, endRead_hide, failRow_hide, fetchAgain_hide, freeLanded_hide, landErrs_hide, onPwin_hide, rowFails_hide, settleWin_hide, stageRow_hide])

theorem execRowDelivery_hide (h_regs : M .regs = true) (h_fe : M .fe = true) (h_xl : M .xl = true) (h_tb : M .tb = true) (h_sp : M .sp = true) (h_up : M .up = true) (h_ch : M .ch = true) (h_gs : M .gs = true) (h_mem : M .mem = true) (h_fl : M .fl = true) (h_tel : M .tel = true) (h_rl : M .rl = true) (h_out : M .out = true) (win : Nat) (key : Key) (ver : Nat) (src : Arrival) (fails : WbFails) (s : State) (t : State) (e : execRowDelivery win key ver src fails s = .next t) : hide M t = hide M s := by
  simp only [execRowDelivery, Host.Outcome.next.injEq] at e
  subst e
  repeat' first
    | with_reducible rfl
    | (simp only [hide_ite, ite_self, ite_fst, implies_true, eq_self, h_regs, h_fe, h_xl, h_tb, h_sp, h_up, h_ch, h_gs, h_mem, h_fl, h_tel, h_rl, h_out, rowDelivery_hide]; done)
    | with_reducible apply hide_if
    | with_reducible apply hide_if1
    | split
    | (rw [forEach_hide])
    | (rw [foldl_hide])
    | (rw [foldlS_hide])
    | (intro; intros; try dsimp only)
    | (simp only [hide_ite, ite_self, ite_fst, implies_true, eq_self, h_regs, h_fe, h_xl, h_tb, h_sp, h_up, h_ch, h_gs, h_mem, h_fl, h_tel, h_rl, h_out, rowDelivery_hide])

end Sys2Proof.Laws
end

