-- ==== Sys2Proof/Laws/CanonFetch.lean ====
section
/-!
SUPPORT. What Machine/Fetch.lean defines keeps Ground store's bytes in canonical form.
-/

namespace Sys2Proof.Laws

open Sys2Proof.Machine

theorem admitRow_canon (s : State) (t : Table) (w : PWin) (a : Ask) (record : Bytes) (fails : WbFails) (hs : Canon (hide butMem s)) : Canon (hide butMem (State.admitRow s t w a record fails)) := by
  unfold State.admitRow
  try dsimp only
  repeat' first
    | with_reducible assumption
    | split
    | (with_reducible apply admitForced_canon)
    | (with_reducible apply admitLookup_canon)
    | (with_reducible apply mend_canon)
    | with_reducible apply forEach_canon
    | with_reducible apply foldl_canon
    | (intro; intros; try dsimp only)
    | (simp only [implies_true, eq_self])

theorem rowDelivery_canon (s : State) (wid : Nat) (k : Key) (ver : Nat) (src : RowSrc) (fails : WbFails) (errs : Errs) (hs : Canon (hide butMem s)) : Canon (hide butMem (State.rowDelivery s wid k ver src fails errs)) := by
  unfold State.rowDelivery
  try dsimp only
  repeat' first
    | with_reducible assumption
    | split
    | (with_reducible apply admitRow_canon)
    | with_reducible apply forEach_canon
    | with_reducible apply foldl_canon
    | (intro; intros; try dsimp only)
    | (simp only [backingRow_hide (M := butMem) rfl rfl rfl rfl rfl rfl, beatErrs_hide (M := butMem) rfl rfl, endRead_hide (M := butMem) rfl rfl rfl rfl, failRow_hide (M := butMem) rfl rfl rfl rfl, fetchAgain_hide (M := butMem) rfl, freeLanded_hide (M := butMem) rfl, landErrs_hide (M := butMem) rfl rfl rfl, onPwin_hide (M := butMem) rfl, rowFails_hide (M := butMem) rfl, settleWin_hide (M := butMem) rfl rfl rfl rfl rfl rfl rfl rfl, stageRow_hide (M := butMem) rfl rfl rfl, implies_true, eq_self])

theorem execRowDelivery_canon (win : Nat) (key : Key) (ver : Nat) (src : Arrival) (fails : WbFails) (s : State) (t : State) (e : execRowDelivery win key ver src fails s = .next t) (hs : Canon (hide butMem s)) : Canon (hide butMem t) := by
  refine next_canon e ?_
  repeat' first
    | with_reducible assumption
    | split
    | (with_reducible apply rowDelivery_canon)
    | with_reducible apply forEach_canon
    | with_reducible apply foldl_canon
    | (intro; intros; try dsimp only)
    | (simp only [implies_true, eq_self])

end Sys2Proof.Laws
end

