-- ==== Sys2Proof/Laws/FrameFirmware.lean ====
section
/-!
SUPPORT. Frames of what Machine/Firmware.lean defines: the parts of the state that each may change.
-/

namespace Sys2Proof.Laws

open Sys2Proof.Machine

variable {M : Mask}

theorem programSlot_hide (h_st : M .st = true) (s : State) : hide M (State.programSlot s).1 = hide M s := by
  unfold State.programSlot
  simp only [hide_ite, ite_self, ite_fst, eq_self, h_st, onSt_hide]

theorem freePc_hide (h_free : M .free = true) (s : State) : hide M (State.freePc s).1 = hide M s := by
  unfold State.freePc
  simp only [set_free_hide, eq_self, h_free]

theorem moveCore_hide (h_regs : M .regs = true) (h_lows : M .lows = true) (h_fe : M .fe = true) (h_tb : M .tb = true) (h_sp : M .sp = true) (h_up : M .up = true) (h_ch : M .ch = true) (h_gs : M .gs = true) (h_mem : M .mem = true) (h_fl : M .fl = true) (h_tel : M .tel = true) (h_pw : M .pw = true) (h_st : M .st = true) (h_rl : M .rl = true) (h_free : M .free = true) (h_out : M .out = true) (s : State) (k : Nat) : hide M (State.moveCore s k) = hide M s := by
  unfold State.moveCore
  try dsimp only
  repeat' first
    | with_reducible rfl
    | (simp only [hide_ite, ite_self, ite_fst, implies_true, eq_self, h_regs, h_lows, h_fe, h_tb, h_sp, h_up, h_ch, h_gs, h_mem, h_fl, h_tel, h_pw, h_st, h_rl, h_free, h_out, cycleCore_hide, freePc_hide]; done)
    | with_reducible apply hide_if
    | with_reducible apply hide_if1
    | split
    | (rw [forEach_hide])
    | (rw [foldl_hide])
    | (rw [foldlS_hide])
    | (intro; intros; try dsimp only)
    | (simp only [hide_ite, ite_self, ite_fst, implies_true, eq_self, h_regs, h_lows, h_fe, h_tb, h_sp, h_up, h_ch, h_gs, h_mem, h_fl, h_tel, h_pw, h_st, h_rl, h_free, h_out, cycleCore_hide, freePc_hide])

theorem moveCores_hide (h_regs : M .regs = true) (h_lows : M .lows = true) (h_fe : M .fe = true) (h_tb : M .tb = true) (h_sp : M .sp = true) (h_up : M .up = true) (h_ch : M .ch = true) (h_gs : M .gs = true) (h_mem : M .mem = true) (h_fl : M .fl = true) (h_tel : M .tel = true) (h_pw : M .pw = true) (h_st : M .st = true) (h_rl : M .rl = true) (h_free : M .free = true) (h_out : M .out = true) (s : State) : hide M (State.moveCores s) = hide M s := by
  unfold State.moveCores
  try dsimp only
  repeat' first
    | with_reducible rfl
    | (simp only [hide_ite, ite_self, ite_fst, implies_true, eq_self, h_regs, h_lows, h_fe, h_tb, h_sp, h_up, h_ch, h_gs, h_mem, h_fl, h_tel, h_pw, h_st, h_rl, h_free, h_out, forEach_hide, moveCore_hide]; done)
    | with_reducible apply hide_if
    | with_reducible apply hide_if1
    | split
    | (rw [forEach_hide])
    | (rw [foldl_hide])
    | (rw [foldlS_hide])
    | (intro; intros; try dsimp only)
    | (simp only [hide_ite, ite_self, ite_fst, implies_true, eq_self, h_regs, h_lows, h_fe, h_tb, h_sp, h_up, h_ch, h_gs, h_mem, h_fl, h_tel, h_pw, h_st, h_rl, h_free, h_out, forEach_hide, moveCore_hide])

theorem runActivation_hide (h_regs : M .regs = true) (h_lows : M .lows = true) (h_fe : M .fe = true) (h_tb : M .tb = true) (h_sp : M .sp = true) (h_up : M .up = true) (h_ch : M .ch = true) (h_gs : M .gs = true) (h_mem : M .mem = true) (h_fl : M .fl = true) (h_tel : M .tel = true) (h_pw : M .pw = true) (h_st : M .st = true) (h_rl : M .rl = true) (h_free : M .free = true) (h_out : M .out = true) (s : State) : hide M (State.runActivation s) = hide M s := by
  unfold State.runActivation
  try dsimp only
  repeat' first
    | with_reducible rfl
    | (simp only [hide_ite, ite_self, ite_fst, implies_true, eq_self, h_regs, h_lows, h_fe, h_tb, h_sp, h_up, h_ch, h_gs, h_mem, h_fl, h_tel, h_pw, h_st, h_rl, h_free, h_out, moveCores_hide, onSt_hide]; done)
    | with_reducible apply hide_if
    | with_reducible apply hide_if1
    | split
    | (rw [forEach_hide])
    | (rw [foldl_hide])
    | (rw [foldlS_hide])
    | (intro; intros; try dsimp only)
    | (simp only [hide_ite, ite_self, ite_fst, implies_true, eq_self, h_regs, h_lows, h_fe, h_tb, h_sp, h_up, h_ch, h_gs, h_mem, h_fl, h_tel, h_pw, h_st, h_rl, h_free, h_out, moveCores_hide, onSt_hide])

theorem activate_hide (h_regs : M .regs = true) (h_lows : M .lows = true) (h_fe : M .fe = true) (h_tb : M .tb = true) (h_sp : M .sp = true) (h_up : M .up = true) (h_ch : M .ch = true) (h_gs : M .gs = true) (h_mem : M .mem = true) (h_fl : M .fl = true) (h_tel : M .tel = true) (h_pw : M .pw = true) (h_st : M .st = true) (h_rl : M .rl = true) (h_free : M .free = true) (h_out : M .out = true) (s : State) (sigOk : Bool) : hide M (State.activate s sigOk).1 = hide M s := by
  unfold State.activate
  try dsimp only
  repeat' first
    | with_reducible rfl
    | (simp only [hide_ite, ite_self, ite_fst, implies_true, eq_self, h_regs, h_lows, h_fe, h_tb, h_sp, h_up, h_ch, h_gs, h_mem, h_fl, h_tel, h_pw, h_st, h_rl, h_free, h_out, onSt_hide, runActivation_hide]; done)
    | with_reducible apply hide_if
    | with_reducible apply hide_if1
    | split
    | (rw [forEach_hide])
    | (rw [foldl_hide])
    | (rw [foldlS_hide])
    | (intro; intros; try dsimp only)
    | (simp only [hide_ite, ite_self, ite_fst, implies_true, eq_self, h_regs, h_lows, h_fe, h_tb, h_sp, h_up, h_ch, h_gs, h_mem, h_fl, h_tel, h_pw, h_st, h_rl, h_free, h_out, onSt_hide, runActivation_hide])

theorem revert_hide (h_regs : M .regs = true) (h_lows : M .lows = true) (h_fe : M .fe = true) (h_tb : M .tb = true) (h_sp : M .sp = true) (h_up : M .up = true) (h_ch : M .ch = true) (h_gs : M .gs = true) (h_mem : M .mem = true) (h_fl : M .fl = true) (h_tel : M .tel = true) (h_pw : M .pw = true) (h_st : M .st = true) (h_rl : M .rl = true) (h_free : M .free = true) (h_out : M .out = true) (s : State) (aseq : Option Nat) : hide M (State.revert s aseq) = hide M s := by
  unfold State.revert
  try dsimp only
  repeat' first
    | with_reducible rfl
    | (simp only [hide_ite, ite_self, ite_fst, implies_true, eq_self, h_regs, h_lows, h_fe, h_tb, h_sp, h_up, h_ch, h_gs, h_mem, h_fl, h_tel, h_pw, h_st, h_rl, h_free, h_out, moveCores_hide, onSt_hide, tell_hide]; done)
    | with_reducible apply hide_if
    | with_reducible apply hide_if1
    | split
    | (rw [forEach_hide])
    | (rw [foldl_hide])
    | (rw [foldlS_hide])
    | (intro; intros; try dsimp only)
    | (simp only [hide_ite, ite_self, ite_fst, implies_true, eq_self, h_regs, h_lows, h_fe, h_tb, h_sp, h_up, h_ch, h_gs, h_mem, h_fl, h_tel, h_pw, h_st, h_rl, h_free, h_out, moveCores_hide, onSt_hide, tell_hide])

theorem healthWatch_hide (h_regs : M .regs = true) (h_lows : M .lows = true) (h_fe : M .fe = true) (h_tb : M .tb = true) (h_sp : M .sp = true) (h_up : M .up = true) (h_ch : M .ch = true) (h_gs : M .gs = true) (h_mem : M .mem = true) (h_fl : M .fl = true) (h_tel : M .tel = true) (h_pw : M .pw = true) (h_st : M .st = true) (h_rl : M .rl = true) (h_free : M .free = true) (h_out : M .out = true) (s : State) (healthy : Bool) : hide M (State.healthWatch s healthy) = hide M s := by
  unfold State.healthWatch
  try dsimp only
  repeat' first
    | with_reducible rfl
    | (simp only [hide_ite, ite_self, ite_fst, implies_true, eq_self, h_regs, h_lows, h_fe, h_tb, h_sp, h_up, h_ch, h_gs, h_mem, h_fl, h_tel, h_pw, h_st, h_rl, h_free, h_out, auditHw_hide, onSt_hide, revert_hide, tell_hide]; done)
    | with_reducible apply hide_if
    | with_reducible apply hide_if1
    | split
    | (rw [forEach_hide])
    | (rw [foldl_hide])
    | (rw [foldlS_hide])
    | (intro; intros; try dsimp only)
    | (simp only [hide_ite, ite_self, ite_fst, implies_true, eq_self, h_regs, h_lows, h_fe, h_tb, h_sp, h_up, h_ch, h_gs, h_mem, h_fl, h_tel, h_pw, h_st, h_rl, h_free, h_out, auditHw_hide, onSt_hide, revert_hide, tell_hide])

theorem execActivationHealthWatch_hide (h_regs : M .regs = true) (h_lows : M .lows = true) (h_fe : M .fe = true) (h_tb : M .tb = true) (h_sp : M .sp = true) (h_up : M .up = true) (h_ch : M .ch = true) (h_gs : M .gs = true) (h_mem : M .mem = true) (h_fl : M .fl = true) (h_tel : M .tel = true) (h_pw : M .pw = true) (h_st : M .st = true) (h_rl : M .rl = true) (h_free : M .free = true) (h_out : M .out = true) (healthy : Bool) (s : State) (t : State) (e : execActivationHealthWatch healthy s = .next t) : hide M t = hide M s := by
  simp only [execActivationHealthWatch, Host.Outcome.next.injEq] at e
  subst e
  repeat' first
    | with_reducible rfl
    | (simp only [hide_ite, ite_self, ite_fst, implies_true, eq_self, h_regs, h_lows, h_fe, h_tb, h_sp, h_up, h_ch, h_gs, h_mem, h_fl, h_tel, h_pw, h_st, h_rl, h_free, h_out, healthWatch_hide]; done)
    | with_reducible apply hide_if
    | with_reducible apply hide_if1
    | split
    | (rw [forEach_hide])
    | (rw [foldl_hide])
    | (rw [foldlS_hide])
    | (intro; intros; try dsimp only)
    | (simp only [hide_ite, ite_self, ite_fst, implies_true, eq_self, h_regs, h_lows, h_fe, h_tb, h_sp, h_up, h_ch, h_gs, h_mem, h_fl, h_tel, h_pw, h_st, h_rl, h_free, h_out, healthWatch_hide])

theorem commitTrial_hide (h_fuses : M .fuses = true) (h_st : M .st = true) (s : State) : hide M (State.commitTrial s) = hide M s := by
  unfold State.commitTrial
  simp only [eq_self, h_fuses, h_st, onFuses_hide, onSt_hide]

theorem defer_hide (h_tel : M .tel = true) (h_st : M .st = true) (s : State) (kind : Nat) : hide M (State.defer s kind) = hide M s := by
  unfold State.defer
  simp only [eq_self, h_tel, h_st, onSt_hide, tell_hide]

theorem abandonFw_hide (h_tel : M .tel = true) (h_st : M .st = true) (s : State) (kind : Nat) : hide M (State.abandonFw s kind) = hide M s := by
  unfold State.abandonFw
  simp only [eq_self, h_tel, h_st, auditHw_hide, onSt_hide, tell_hide]

theorem startHeld_hide (h_fuses : M .fuses = true) (h_regs : M .regs = true) (h_lows : M .lows = true) (h_fe : M .fe = true) (h_tb : M .tb = true) (h_sp : M .sp = true) (h_up : M .up = true) (h_ch : M .ch = true) (h_gs : M .gs = true) (h_mem : M .mem = true) (h_fl : M .fl = true) (h_tel : M .tel = true) (h_pw : M .pw = true) (h_st : M .st = true) (h_rl : M .rl = true) (h_free : M .free = true) (h_out : M .out = true) (s : State) (kind : Nat) (sigOk : Bool) : hide M (State.startHeld s kind sigOk) = hide M s := by
  unfold State.startHeld
  try dsimp only
  repeat' first
    | with_reducible rfl
    | (simp only [hide_ite, ite_self, ite_fst, implies_true, eq_self, h_fuses, h_regs, h_lows, h_fe, h_tb, h_sp, h_up, h_ch, h_gs, h_mem, h_fl, h_tel, h_pw, h_st, h_rl, h_free, h_out, activate_hide, auditAdd_hide, auditHw_hide, commitTrial_hide]; done)
    | with_reducible apply hide_if
    | with_reducible apply hide_if1
    | split
    | (rw [forEach_hide])
    | (rw [foldl_hide])
    | (rw [foldlS_hide])
    | (intro; intros; try dsimp only)
    | (simp only [hide_ite, ite_self, ite_fst, implies_true, eq_self, h_fuses, h_regs, h_lows, h_fe, h_tb, h_sp, h_up, h_ch, h_gs, h_mem, h_fl, h_tel, h_pw, h_st, h_rl, h_free, h_out, activate_hide, auditAdd_hide, auditHw_hide, commitTrial_hide])

theorem deferEnd_hide (h_fuses : M .fuses = true) (h_regs : M .regs = true) (h_lows : M .lows = true) (h_fe : M .fe = true) (h_tb : M .tb = true) (h_sp : M .sp = true) (h_up : M .up = true) (h_ch : M .ch = true) (h_gs : M .gs = true) (h_mem : M .mem = true) (h_fl : M .fl = true) (h_tel : M .tel = true) (h_pw : M .pw = true) (h_st : M .st = true) (h_rl : M .rl = true) (h_free : M .free = true) (h_out : M .out = true) (s : State) (sigOk : Bool) : hide M (State.deferEnd s sigOk) = hide M s := by
  unfold State.deferEnd
  try dsimp only
  repeat' first
    | with_reducible rfl
    | (simp only [hide_ite, ite_self, ite_fst, implies_true, eq_self, h_fuses, h_regs, h_lows, h_fe, h_tb, h_sp, h_up, h_ch, h_gs, h_mem, h_fl, h_tel, h_pw, h_st, h_rl, h_free, h_out, abandonFw_hide, startHeld_hide]; done)
    | with_reducible apply hide_if
    | with_reducible apply hide_if1
    | split
    | (rw [forEach_hide])
    | (rw [foldl_hide])
    | (rw [foldlS_hide])
    | (intro; intros; try dsimp only)
    | (simp only [hide_ite, ite_self, ite_fst, implies_true, eq_self, h_fuses, h_regs, h_lows, h_fe, h_tb, h_sp, h_up, h_ch, h_gs, h_mem, h_fl, h_tel, h_pw, h_st, h_rl, h_free, h_out, abandonFw_hide, startHeld_hide])

theorem execActivationDeferEnd_hide (h_fuses : M .fuses = true) (h_regs : M .regs = true) (h_lows : M .lows = true) (h_fe : M .fe = true) (h_tb : M .tb = true) (h_sp : M .sp = true) (h_up : M .up = true) (h_ch : M .ch = true) (h_gs : M .gs = true) (h_mem : M .mem = true) (h_fl : M .fl = true) (h_tel : M .tel = true) (h_pw : M .pw = true) (h_st : M .st = true) (h_rl : M .rl = true) (h_free : M .free = true) (h_out : M .out = true) (sigOk : Bool) (s : State) (t : State) (e : execActivationDeferEnd sigOk s = .next t) : hide M t = hide M s := by
  simp only [execActivationDeferEnd, Host.Outcome.next.injEq] at e
  subst e
  repeat' first
    | with_reducible rfl
    | (simp only [hide_ite, ite_self, ite_fst, implies_true, eq_self, h_fuses, h_regs, h_lows, h_fe, h_tb, h_sp, h_up, h_ch, h_gs, h_mem, h_fl, h_tel, h_pw, h_st, h_rl, h_free, h_out, deferEnd_hide]; done)
    | with_reducible apply hide_if
    | with_reducible apply hide_if1
    | split
    | (rw [forEach_hide])
    | (rw [foldl_hide])
    | (rw [foldlS_hide])
    | (intro; intros; try dsimp only)
    | (simp only [hide_ite, ite_self, ite_fst, implies_true, eq_self, h_fuses, h_regs, h_lows, h_fe, h_tb, h_sp, h_up, h_ch, h_gs, h_mem, h_fl, h_tel, h_pw, h_st, h_rl, h_free, h_out, deferEnd_hide])

end Sys2Proof.Laws
end

