-- ==== Sys2Proof/Laws/CanonFirmware.lean ====
section
/-!
SUPPORT. What Machine/Firmware.lean defines keeps Ground store's bytes in canonical form.
-/

namespace Sys2Proof.Laws

open Sys2Proof.Machine

theorem moveCore_canon (s : State) (k : Nat) (hs : Canon (hide butMem s)) : Canon (hide butMem (State.moveCore s k)) := by
  unfold State.moveCore
  try dsimp only
  repeat' first
    | with_reducible assumption
    | split
    | (with_reducible apply cycleCore_canon)
    | with_reducible apply forEach_canon
    | with_reducible apply foldl_canon
    | (intro; intros; try dsimp only)
    | (simp only [freePc_hide (M := butMem) rfl, implies_true, eq_self])

theorem moveCores_canon (s : State) (hs : Canon (hide butMem s)) : Canon (hide butMem (State.moveCores s)) := by
  unfold State.moveCores
  try dsimp only
  repeat' first
    | with_reducible assumption
    | split
    | (with_reducible apply moveCore_canon)
    | with_reducible apply forEach_canon
    | with_reducible apply foldl_canon
    | (intro; intros; try dsimp only)
    | (simp only [forEach_hide, implies_true, eq_self])

theorem runActivation_canon (s : State) (hs : Canon (hide butMem s)) : Canon (hide butMem (State.runActivation s)) := by
  unfold State.runActivation
  try dsimp only
  repeat' first
    | with_reducible assumption
    | split
    | (with_reducible apply moveCores_canon)
    | with_reducible apply forEach_canon
    | with_reducible apply foldl_canon
    | (intro; intros; try dsimp only)
    | (simp only [onSt_hide (M := butMem) rfl, implies_true, eq_self])

theorem activate_canon (s : State) (sigOk : Bool) (hs : Canon (hide butMem s)) : Canon (hide butMem (State.activate s sigOk).1) := by
  unfold State.activate
  try dsimp only
  repeat' first
    | with_reducible assumption
    | split
    | (with_reducible apply runActivation_canon)
    | with_reducible apply forEach_canon
    | with_reducible apply foldl_canon
    | (intro; intros; try dsimp only)
    | (simp only [onSt_hide (M := butMem) rfl, implies_true, eq_self])

theorem revert_canon (s : State) (aseq : Option Nat) (hs : Canon (hide butMem s)) : Canon (hide butMem (State.revert s aseq)) := by
  unfold State.revert
  try dsimp only
  repeat' first
    | with_reducible assumption
    | split
    | (with_reducible apply moveCores_canon)
    | with_reducible apply forEach_canon
    | with_reducible apply foldl_canon
    | (intro; intros; try dsimp only)
    | (simp only [tell_hide (M := butMem) rfl, onSt_hide (M := butMem) rfl, implies_true, eq_self])

theorem healthWatch_canon (s : State) (healthy : Bool) (hs : Canon (hide butMem s)) : Canon (hide butMem (State.healthWatch s healthy)) := by
  unfold State.healthWatch
  try dsimp only
  repeat' first
    | with_reducible assumption
    | split
    | (with_reducible apply revert_canon)
    | with_reducible apply forEach_canon
    | with_reducible apply foldl_canon
    | (intro; intros; try dsimp only)
    | (simp only [auditHw_hide (M := butMem) rfl rfl, tell_hide (M := butMem) rfl, onSt_hide (M := butMem) rfl, implies_true, eq_self])

theorem execActivationHealthWatch_canon (healthy : Bool) (s : State) (t : State) (e : execActivationHealthWatch healthy s = .next t) (hs : Canon (hide butMem s)) : Canon (hide butMem t) := by
  refine next_canon e ?_
  repeat' first
    | with_reducible assumption
    | split
    | (with_reducible apply healthWatch_canon)
    | with_reducible apply forEach_canon
    | with_reducible apply foldl_canon
    | (intro; intros; try dsimp only)
    | (simp only [implies_true, eq_self])

theorem startHeld_canon (s : State) (kind : Nat) (sigOk : Bool) (hs : Canon (hide butMem s)) : Canon (hide butMem (State.startHeld s kind sigOk)) := by
  unfold State.startHeld
  try dsimp only
  repeat' first
    | with_reducible assumption
    | split
    | (with_reducible apply activate_canon)
    | with_reducible apply forEach_canon
    | with_reducible apply foldl_canon
    | (intro; intros; try dsimp only)
    | (simp only [auditAdd_hide (M := butMem) rfl rfl, auditHw_hide (M := butMem) rfl rfl, commitTrial_hide (M := butMem) rfl rfl, implies_true, eq_self])

theorem deferEnd_canon (s : State) (sigOk : Bool) (hs : Canon (hide butMem s)) : Canon (hide butMem (State.deferEnd s sigOk)) := by
  unfold State.deferEnd
  try dsimp only
  repeat' first
    | with_reducible assumption
    | split
    | (with_reducible apply startHeld_canon)
    | with_reducible apply forEach_canon
    | with_reducible apply foldl_canon
    | (intro; intros; try dsimp only)
    | (simp only [abandonFw_hide (M := butMem) rfl rfl, implies_true, eq_self])

theorem execActivationDeferEnd_canon (sigOk : Bool) (s : State) (t : State) (e : execActivationDeferEnd sigOk s = .next t) (hs : Canon (hide butMem s)) : Canon (hide butMem t) := by
  refine next_canon e ?_
  repeat' first
    | with_reducible assumption
    | split
    | (with_reducible apply deferEnd_canon)
    | with_reducible apply forEach_canon
    | with_reducible apply foldl_canon
    | (intro; intros; try dsimp only)
    | (simp only [implies_true, eq_self])

end Sys2Proof.Laws
end

