-- ==== Sys2Proof/Laws/FrameHandover.lean ====
section
/-!
SUPPORT. Frames of what Machine/Handover.lean defines: the parts of the state that each may change.
-/

namespace Sys2Proof.Laws

open Sys2Proof.Machine

variable {M : Mask}

theorem retakeLines_hide (h_fe : M .fe = true) (h_out : M .out = true) (s : State) : hide M (State.retakeLines s) = hide M s := by
  unfold State.retakeLines
  try dsimp only
  repeat' first
    | with_reducible rfl
    | (simp only [hide_ite, ite_self, ite_fst, implies_true, eq_self, h_fe, h_out, forEach_hide, onFe_hide, readLine_hide]; done)
    | with_reducible apply hide_if
    | with_reducible apply hide_if1
    | split
    | (rw [forEach_hide])
    | (rw [foldl_hide])
    | (rw [foldlS_hide])
    | (intro; intros; try dsimp only)
    | (simp only [hide_ite, ite_self, ite_fst, implies_true, eq_self, h_fe, h_out, forEach_hide, onFe_hide, readLine_hide])

theorem holdInvals_hide (h_xl : M .xl = true) (s : State) : hide M (State.holdInvals s) = hide M s := by
  unfold State.holdInvals
  simp only [eq_self, h_xl, onXl_hide]

theorem loseQueued_hide (h_fe : M .fe = true) (h_sp : M .sp = true) (h_up : M .up = true) (h_fl : M .fl = true) (h_tel : M .tel = true) (s : State) (lost : List Nat) : hide M (State.loseQueued s lost) = hide M s := by
  unfold State.loseQueued
  try dsimp only
  repeat' first
    | with_reducible rfl
    | (simp only [hide_ite, ite_self, ite_fst, implies_true, eq_self, h_fe, h_sp, h_up, h_fl, h_tel, forEach_hide, abandon_hide, countN_hide, endDesc_hide, onDesc_hide]; done)
    | with_reducible apply hide_if
    | with_reducible apply hide_if1
    | split
    | (rw [forEach_hide])
    | (rw [foldl_hide])
    | (rw [foldlS_hide])
    | (intro; intros; try dsimp only)
    | (simp only [hide_ite, ite_self, ite_fst, implies_true, eq_self, h_fe, h_sp, h_up, h_fl, h_tel, forEach_hide, abandon_hide, countN_hide, endDesc_hide, onDesc_hide])

theorem handover_hide (h_fe : M .fe = true) (h_xl : M .xl = true) (h_sp : M .sp = true) (h_up : M .up = true) (h_fl : M .fl = true) (h_tel : M .tel = true) (h_st : M .st = true) (h_rl : M .rl = true) (h_out : M .out = true) (s : State) (us : Nat) (passes : Bool) : hide M (State.handover s us passes) = hide M s := by
  unfold State.handover
  try dsimp only
  repeat' first
    | with_reducible rfl
    | (simp only [hide_ite, ite_self, ite_fst, implies_true, eq_self, h_fe, h_xl, h_sp, h_up, h_fl, h_tel, h_st, h_rl, h_out, forEach_hide, auditHw_hide, count_hide, holdInvals_hide, onFe_hide, onRl_hide, onXl_hide, prick_hide, reduce_hide, retakeLines_hide, tell_hide]; done)
    | with_reducible apply hide_if
    | with_reducible apply hide_if1
    | split
    | (rw [forEach_hide])
    | (rw [foldl_hide])
    | (rw [foldlS_hide])
    | (intro; intros; try dsimp only)
    | (simp only [hide_ite, ite_self, ite_fst, implies_true, eq_self, h_fe, h_xl, h_sp, h_up, h_fl, h_tel, h_st, h_rl, h_out, forEach_hide, auditHw_hide, count_hide, holdInvals_hide, onFe_hide, onRl_hide, onXl_hide, prick_hide, reduce_hide, retakeLines_hide, tell_hide])

theorem qxFault_hide (h_regs : M .regs = true) (h_pregs : M .pregs = true) (h_lows : M .lows = true) (h_ctxCfg : M .ctxCfg = true) (h_updCfg : M .updCfg = true) (h_fwdCfg : M .fwdCfg = true) (h_drvCfg : M .drvCfg = true) (h_fe : M .fe = true) (h_xl : M .xl = true) (h_tb : M .tb = true) (h_sp : M .sp = true) (h_qz : M .qz = true) (h_up : M .up = true) (h_ch : M .ch = true) (h_gs : M .gs = true) (h_mem : M .mem = true) (h_fl : M .fl = true) (h_tel : M .tel = true) (h_pw : M .pw = true) (h_st : M .st = true) (h_i3 : M .i3 = true) (h_rl : M .rl = true) (h_free : M .free = true) (h_out : M .out = true) (s : State) (us : Nat) (lost : List Nat) (passes : Bool) (su : Startup) : hide M (State.qxFault s us lost passes su) = hide M s := by
  unfold State.qxFault
  try dsimp only
  repeat' first
    | with_reducible rfl
    | (simp only [hide_ite, ite_self, ite_fst, implies_true, eq_self, h_regs, h_pregs, h_lows, h_ctxCfg, h_updCfg, h_fwdCfg, h_drvCfg, h_fe, h_xl, h_tb, h_sp, h_qz, h_up, h_ch, h_gs, h_mem, h_fl, h_tel, h_pw, h_st, h_i3, h_rl, h_free, h_out, afterStart_hide, blockReset_hide, handover_hide, loseQueued_hide]; done)
    | with_reducible apply hide_if
    | with_reducible apply hide_if1
    | split
    | (rw [forEach_hide])
    | (rw [foldl_hide])
    | (rw [foldlS_hide])
    | (intro; intros; try dsimp only)
    | (simp only [hide_ite, ite_self, ite_fst, implies_true, eq_self, h_regs, h_pregs, h_lows, h_ctxCfg, h_updCfg, h_fwdCfg, h_drvCfg, h_fe, h_xl, h_tb, h_sp, h_qz, h_up, h_ch, h_gs, h_mem, h_fl, h_tel, h_pw, h_st, h_i3, h_rl, h_free, h_out, afterStart_hide, blockReset_hide, handover_hide, loseQueued_hide])

theorem execQxHandover_hide (h_regs : M .regs = true) (h_pregs : M .pregs = true) (h_lows : M .lows = true) (h_ctxCfg : M .ctxCfg = true) (h_updCfg : M .updCfg = true) (h_fwdCfg : M .fwdCfg = true) (h_drvCfg : M .drvCfg = true) (h_fe : M .fe = true) (h_xl : M .xl = true) (h_tb : M .tb = true) (h_sp : M .sp = true) (h_qz : M .qz = true) (h_up : M .up = true) (h_ch : M .ch = true) (h_gs : M .gs = true) (h_mem : M .mem = true) (h_fl : M .fl = true) (h_tel : M .tel = true) (h_pw : M .pw = true) (h_st : M .st = true) (h_i3 : M .i3 = true) (h_rl : M .rl = true) (h_free : M .free = true) (h_out : M .out = true) (us : Nat) (take : Takeover) (su : Startup) (s : State) (t : State) (e : execQxHandover us take su s = .next t) : hide M t = hide M s := by
  simp only [execQxHandover, Host.Outcome.next.injEq] at e
  subst e
  repeat' first
    | with_reducible rfl
    | (simp only [hide_ite, ite_self, ite_fst, implies_true, eq_self, h_regs, h_pregs, h_lows, h_ctxCfg, h_updCfg, h_fwdCfg, h_drvCfg, h_fe, h_xl, h_tb, h_sp, h_qz, h_up, h_ch, h_gs, h_mem, h_fl, h_tel, h_pw, h_st, h_i3, h_rl, h_free, h_out, qxFault_hide]; done)
    | with_reducible apply hide_if
    | with_reducible apply hide_if1
    | split
    | (rw [forEach_hide])
    | (rw [foldl_hide])
    | (rw [foldlS_hide])
    | (intro; intros; try dsimp only)
    | (simp only [hide_ite, ite_self, ite_fst, implies_true, eq_self, h_regs, h_pregs, h_lows, h_ctxCfg, h_updCfg, h_fwdCfg, h_drvCfg, h_fe, h_xl, h_tb, h_sp, h_qz, h_up, h_ch, h_gs, h_mem, h_fl, h_tel, h_pw, h_st, h_i3, h_rl, h_free, h_out, qxFault_hide])

end Sys2Proof.Laws
end

