-- ==== Sys2Proof/Laws/CanonHandover.lean ====
section
/-!
SUPPORT. What Machine/Handover.lean defines keeps Ground store's bytes in canonical form.
-/

namespace Sys2Proof.Laws

open Sys2Proof.Machine

theorem qxFault_canon (s : State) (us : Nat) (lost : List Nat) (passes : Bool) (su : Startup) (hs : Canon (hide butMem s)) : Canon (hide butMem (State.qxFault s us lost passes su)) := by
  unfold State.qxFault
  try dsimp only
  repeat' first
    | with_reducible assumption
    | split
    | (with_reducible apply afterStart_canon)
    | (with_reducible apply blockReset_canon)
    | with_reducible apply forEach_canon
    | with_reducible apply foldl_canon
    | (intro; intros; try dsimp only)
    | (simp only [handover_hide (M := butMem) rfl rfl rfl rfl rfl rfl rfl rfl rfl, loseQueued_hide (M := butMem) rfl rfl rfl rfl rfl, implies_true, eq_self])

theorem execQxHandover_canon (us : Nat) (take : Takeover) (su : Startup) (s : State) (t : State) (e : execQxHandover us take su s = .next t) (hs : Canon (hide butMem s)) : Canon (hide butMem t) := by
  refine next_canon e ?_
  repeat' first
    | with_reducible assumption
    | split
    | (with_reducible apply qxFault_canon)
    | with_reducible apply forEach_canon
    | with_reducible apply foldl_canon
    | (intro; intros; try dsimp only)
    | (simp only [implies_true, eq_self])

end Sys2Proof.Laws
end

