-- ==== Sys2Proof/Laws/FrameMailbox.lean ====
section
/-!
SUPPORT. Frames of what Machine/Mailbox.lean defines: the parts of the state that each may change.
-/

namespace Sys2Proof.Laws

open Sys2Proof.Machine

variable {M : Mask}

theorem freeReply_hide (h_free : M .free = true) (s : State) : hide M (State.freeReply s).1 = hide M s := by
  unfold State.freeReply
  simp only [set_free_hide, eq_self, h_free]

theorem sayBytes_hide (h_free : M .free = true) (s : State) (y0 : Says) : hide M (State.sayBytes s y0).1 = hide M s := by
  unfold State.sayBytes
  (repeat' split) <;> simp only [eq_self, h_free, freeReply_hide]

theorem mbxOut_hide (h_out : M .out = true) (s : State) (p : Path) (b : Bytes) : hide M (State.mbxOut s p b) = hide M s := by
  unfold State.mbxOut
  try dsimp only
  repeat' first
    | with_reducible rfl
    | (simp only [hide_ite, ite_self, ite_fst, implies_true, eq_self, h_out, send_hide]; done)
    | with_reducible apply hide_if
    | with_reducible apply hide_if1
    | split
    | (rw [forEach_hide])
    | (rw [foldl_hide])
    | (rw [foldlS_hide])
    | (intro; intros; try dsimp only)
    | (simp only [hide_ite, ite_self, ite_fst, implies_true, eq_self, h_out, send_hide])

theorem reply_hide (h_pregs : M .pregs = true) (h_tel : M .tel = true) (h_st : M .st = true) (h_free : M .free = true) (h_out : M .out = true) (s : State) (p : Path) (result : Nat) (body : Says) : hide M (State.reply s p result body) = hide M s := by
  unfold State.reply
  simp only [implies_true, eq_self, h_pregs, h_tel, h_st, h_free, h_out, cmdField_hide, count_hide, finish_hide, mbxOut_hide, onSt_hide, sayBytes_hide, put_mbxCmd_hide]

theorem i3cStart_hide (h_pregs : M .pregs = true) (h_st : M .st = true) (h_out : M .out = true) (s : State) (core : Nat) (val : Word64) (run : State → State) (h_run : ∀ (x0 : State), hide M (run x0) = hide M x0) : hide M (State.i3cStart s core val run) = hide M s := by
  unfold State.i3cStart
  simp only [hide_ite, ite_self, eq_self, h_pregs, h_st, h_out, h_run, onSt_hide, send_hide, put_mbxCmd_hide]

theorem mbxStart_hide (h_pregs : M .pregs = true) (h_tel : M .tel = true) (h_st : M .st = true) (h_out : M .out = true) (s : State) (p : Path) (row : MbxRow) (len : Nat) (run : State → State) (h_run : ∀ (x0 : State), hide M (run x0) = hide M x0) : hide M (State.mbxStart s p row len run) = hide M s := by
  unfold State.mbxStart
  try dsimp only
  repeat' first
    | with_reducible rfl
    | (simp only [hide_ite, ite_self, ite_fst, implies_true, eq_self, h_pregs, h_tel, h_st, h_out, h_run, command_hide, i3cStart_hide, put_mbxCmd_hide]; done)
    | with_reducible apply hide_if
    | with_reducible apply hide_if1
    | split
    | (rw [forEach_hide])
    | (rw [foldl_hide])
    | (rw [foldlS_hide])
    | (rw [command_hide])
    | (rw [i3cStart_hide])
    | assumption
    | (intro; intros; try dsimp only)
    | (simp only [hide_ite, ite_self, ite_fst, implies_true, eq_self, h_pregs, h_tel, h_st, h_out, h_run, command_hide, i3cStart_hide, put_mbxCmd_hide])

theorem auditMbx_hide (h_tel : M .tel = true) (h_st : M .st = true) (s before : State) (p : Path) (row : MbxRow) (result target : Nat) (req : Feed) : hide M (State.auditMbx s before p row result target req) = hide M s := by
  unfold State.auditMbx
  simp only [eq_self, h_tel, h_st, auditAdd_hide]

theorem mailbox_hide (h_pregs : M .pregs = true) (h_tel : M .tel = true) (h_st : M .st = true) (h_free : M .free = true) (h_out : M .out = true) (s : State) (p : Path) (row : MbxRow) (req : Feed) (target : Nat) (run : State → State × Nat × Says) (h_run : ∀ (x0 : State), hide M (run x0).1 = hide M x0) : hide M (State.mailbox s p row req target run) = hide M s := by
  unfold State.mailbox
  try dsimp only
  repeat' first
    | with_reducible rfl
    | (simp only [hide_ite, ite_self, eq_self, h_pregs, h_tel, h_st, h_free, h_out, h_run, auditMbx_hide, reply_hide, countN_hide]; done)
    | with_reducible apply hide_if
    | with_reducible apply hide_if1
    | split
    | (rw [forEach_hide])
    | (rw [foldl_hide])
    | (rw [foldlS_hide])
    | (rw [mbxStart_hide])
    | assumption
    | (intro; intros; try dsimp only)

theorem mbxRead_hide (h_pregs : M .pregs = true) (h_tel : M .tel = true) (h_st : M .st = true) (h_free : M .free = true) (h_out : M .out = true) (s : State) (p : Path) (opc core : Nat) (req : Feed) (body : State → Says) : hide M (State.mbxRead s p opc core req body) = hide M s := by
  unfold State.mbxRead
  simp only [implies_true, eq_self, h_pregs, h_tel, h_st, h_free, h_out, mailbox_hide]

theorem execGetHealth_hide (h_pregs : M .pregs = true) (h_tel : M .tel = true) (h_st : M .st = true) (h_free : M .free = true) (h_out : M .out = true) (p : Path) (req : Feed) (s : State) (t : State) (e : execGetHealth p req s = .next t) : hide M t = hide M s := by
  refine next_hide e ?_
  simp only [eq_self, h_pregs, h_tel, h_st, h_free, h_out, mbxRead_hide]

theorem execReadSensors_hide (h_pregs : M .pregs = true) (h_tel : M .tel = true) (h_st : M .st = true) (h_free : M .free = true) (h_out : M .out = true) (p : Path) (req : Feed) (s : State) (t : State) (e : execReadSensors p req s = .next t) : hide M t = hide M s := by
  refine next_hide e ?_
  simp only [eq_self, h_pregs, h_tel, h_st, h_free, h_out, mbxRead_hide]

theorem execLogPos_hide (h_pregs : M .pregs = true) (h_tel : M .tel = true) (h_st : M .st = true) (h_free : M .free = true) (h_out : M .out = true) (p : Path) (req : Feed) (s : State) (t : State) (e : execLogPos p req s = .next t) : hide M t = hide M s := by
  refine next_hide e ?_
  simp only [eq_self, h_pregs, h_tel, h_st, h_free, h_out, mbxRead_hide]

theorem execPlogRead_hide (h_pregs : M .pregs = true) (h_tel : M .tel = true) (h_st : M .st = true) (h_free : M .free = true) (h_out : M .out = true) (p : Path) (req : Feed) (page : Nat) (s : State) (t : State) (e : execPlogRead p req page s = .next t) : hide M t = hide M s := by
  refine next_hide e ?_
  simp only [eq_self, h_pregs, h_tel, h_st, h_free, h_out, mbxRead_hide]

theorem execAuditRead_hide (h_pregs : M .pregs = true) (h_tel : M .tel = true) (h_st : M .st = true) (h_free : M .free = true) (h_out : M .out = true) (p : Path) (req : Feed) (aseq : Nat) (s : State) (t : State) (e : execAuditRead p req aseq s = .next t) : hide M t = hide M s := by
  refine next_hide e ?_
  simp only [eq_self, h_pregs, h_tel, h_st, h_free, h_out, mbxRead_hide]

theorem execAuditHead_hide (h_pregs : M .pregs = true) (h_tel : M .tel = true) (h_st : M .st = true) (h_free : M .free = true) (h_out : M .out = true) (p : Path) (req : Feed) (s : State) (t : State) (e : execAuditHead p req s = .next t) : hide M t = hide M s := by
  refine next_hide e ?_
  simp only [eq_self, h_pregs, h_tel, h_st, h_free, h_out, mbxRead_hide]

theorem execReturnDiag_hide (h_pregs : M .pregs = true) (h_tel : M .tel = true) (h_st : M .st = true) (h_free : M .free = true) (h_out : M .out = true) (p : Path) (req : Feed) (s : State) (t : State) (e : execReturnDiag p req s = .next t) : hide M t = hide M s := by
  refine next_hide e ?_
  simp only [implies_true, eq_self, h_pregs, h_tel, h_st, h_free, h_out, mailbox_hide]

theorem mbxRestart_hide (h_regs : M .regs = true) (h_lows : M .lows = true) (h_fe : M .fe = true) (h_tb : M .tb = true) (h_sp : M .sp = true) (h_up : M .up = true) (h_ch : M .ch = true) (h_gs : M .gs = true) (h_mem : M .mem = true) (h_fl : M .fl = true) (h_tel : M .tel = true) (h_pw : M .pw = true) (h_st : M .st = true) (h_rl : M .rl = true) (h_free : M .free = true) (h_out : M .out = true) (s : State) (core : Nat) : hide M (State.mbxRestart s core).1 = hide M s := by
  unfold State.mbxRestart
  try dsimp only
  repeat' first
    | with_reducible rfl
    | (simp only [hide_ite, ite_self, ite_fst, implies_true, eq_self, h_regs, h_lows, h_fe, h_tb, h_sp, h_up, h_ch, h_gs, h_mem, h_fl, h_tel, h_pw, h_st, h_rl, h_free, h_out, cycleCore_hide, freePc_hide]; done)
    | with_reducible apply hide_if
    | with_reducible apply hide_if1
    | split
    | (rw [forEach_hide])
    | (rw [foldl_hide])
    | (rw [foldlS_hide])
    | (intro; intros; try dsimp only)
    | (simp only [hide_ite, ite_self, ite_fst, implies_true, eq_self, h_regs, h_lows, h_fe, h_tb, h_sp, h_up, h_ch, h_gs, h_mem, h_fl, h_tel, h_pw, h_st, h_rl, h_free, h_out, cycleCore_hide, freePc_hide])

theorem mbxReset_hide (h_regs : M .regs = true) (h_pregs : M .pregs = true) (h_lows : M .lows = true) (h_ctxCfg : M .ctxCfg = true) (h_updCfg : M .updCfg = true) (h_fwdCfg : M .fwdCfg = true) (h_drvCfg : M .drvCfg = true) (h_fe : M .fe = true) (h_xl : M .xl = true) (h_tb : M .tb = true) (h_sp : M .sp = true) (h_qz : M .qz = true) (h_up : M .up = true) (h_ch : M .ch = true) (h_gs : M .gs = true) (h_mem : M .mem = true) (h_fl : M .fl = true) (h_tel : M .tel = true) (h_pw : M .pw = true) (h_st : M .st = true) (h_i3 : M .i3 = true) (h_rl : M .rl = true) (h_free : M .free = true) (h_out : M .out = true) (s : State) (p : Path) (row : MbxRow) (req : Feed) (su : Startup) : hide M (State.mbxReset s p row req su) = hide M s := by
  unfold State.mbxReset
  try dsimp only
  repeat' first
    | with_reducible rfl
    | (simp only [hide_ite, ite_self, ite_fst, implies_true, eq_self, h_regs, h_pregs, h_lows, h_ctxCfg, h_updCfg, h_fwdCfg, h_drvCfg, h_fe, h_xl, h_tb, h_sp, h_qz, h_up, h_ch, h_gs, h_mem, h_fl, h_tel, h_pw, h_st, h_i3, h_rl, h_free, h_out, auditMbx_hide, freePc_hide, mbxStart_hide, reply_hide, restartCore_hide, countN_hide]; done)
    | with_reducible apply hide_if
    | with_reducible apply hide_if1
    | split
    | (rw [forEach_hide])
    | (rw [foldl_hide])
    | (rw [foldlS_hide])
    | (rw [mbxStart_hide])
    | assumption
    | (intro; intros; try dsimp only)
    | (simp only [hide_ite, ite_self, ite_fst, implies_true, eq_self, h_regs, h_pregs, h_lows, h_ctxCfg, h_updCfg, h_fwdCfg, h_drvCfg, h_fe, h_xl, h_tb, h_sp, h_qz, h_up, h_ch, h_gs, h_mem, h_fl, h_tel, h_pw, h_st, h_i3, h_rl, h_free, h_out, auditMbx_hide, freePc_hide, mbxStart_hide, reply_hide, restartCore_hide, countN_hide])

theorem execCoreRestart_hide (h_regs : M .regs = true) (h_pregs : M .pregs = true) (h_lows : M .lows = true) (h_ctxCfg : M .ctxCfg = true) (h_updCfg : M .updCfg = true) (h_fwdCfg : M .fwdCfg = true) (h_drvCfg : M .drvCfg = true) (h_fe : M .fe = true) (h_xl : M .xl = true) (h_tb : M .tb = true) (h_sp : M .sp = true) (h_qz : M .qz = true) (h_up : M .up = true) (h_ch : M .ch = true) (h_gs : M .gs = true) (h_mem : M .mem = true) (h_fl : M .fl = true) (h_tel : M .tel = true) (h_pw : M .pw = true) (h_st : M .st = true) (h_i3 : M .i3 = true) (h_rl : M .rl = true) (h_free : M .free = true) (h_out : M .out = true) (p : Path) (req : Feed) (core : Nat) (restarted : Bool) (su : Startup) (s : State) (t : State) (e : execCoreRestart p req core restarted su s = .next t) : hide M t = hide M s := by
  simp only [execCoreRestart, Host.Outcome.next.injEq] at e
  subst e
  repeat' first
    | with_reducible rfl
    | (simp only [hide_ite, ite_self, ite_fst, implies_true, eq_self, h_regs, h_pregs, h_lows, h_ctxCfg, h_updCfg, h_fwdCfg, h_drvCfg, h_fe, h_xl, h_tb, h_sp, h_qz, h_up, h_ch, h_gs, h_mem, h_fl, h_tel, h_pw, h_st, h_i3, h_rl, h_free, h_out, mailbox_hide, mbxReset_hide, mbxRestart_hide]; done)
    | with_reducible apply hide_if
    | with_reducible apply hide_if1
    | split
    | (rw [forEach_hide])
    | (rw [foldl_hide])
    | (rw [foldlS_hide])
    | (rw [mailbox_hide])
    | assumption
    | (intro; intros; try dsimp only)
    | (simp only [hide_ite, ite_self, ite_fst, implies_true, eq_self, h_regs, h_pregs, h_lows, h_ctxCfg, h_updCfg, h_fwdCfg, h_drvCfg, h_fe, h_xl, h_tb, h_sp, h_qz, h_up, h_ch, h_gs, h_mem, h_fl, h_tel, h_pw, h_st, h_i3, h_rl, h_free, h_out, mailbox_hide, mbxReset_hide, mbxRestart_hide])

theorem challenge_hide (h_st : M .st = true) (s : State) (p : Path) : hide M (State.challenge s p).1 = hide M s := by
  unfold State.challenge
  simp only [hide_ite, ite_self, ite_fst, eq_self, h_st, onSt_hide]

theorem execAuthChallenge_hide (h_pregs : M .pregs = true) (h_tel : M .tel = true) (h_st : M .st = true) (h_free : M .free = true) (h_out : M .out = true) (p : Path) (req : Feed) (s : State) (t : State) (e : execAuthChallenge p req s = .next t) : hide M t = hide M s := by
  refine next_hide e ?_
  simp only [implies_true, eq_self, h_pregs, h_tel, h_st, h_free, h_out, challenge_hide, mailbox_hide]

theorem refuseSession_hide (h_tel : M .tel = true) (h_st : M .st = true) (s : State) (p : Path) : hide M (State.refuseSession s p) = hide M s := by
  unfold State.refuseSession
  simp only [hide_ite, ite_self, eq_self, h_tel, h_st, count_hide, onSt_hide, tell_hide]

theorem openSession_hide (h_tel : M .tel = true) (h_st : M .st = true) (s : State) (p : Path) (role : Role) (keyIdx : Nat) (sigOk : Bool) : hide M (State.openSession s p role keyIdx sigOk).1 = hide M s := by
  unfold State.openSession
  simp only [hide_ite, ite_self, ite_fst, eq_self, h_tel, h_st, onSt_hide, refuseSession_hide]

theorem execAuthResponse_hide (h_pregs : M .pregs = true) (h_tel : M .tel = true) (h_st : M .st = true) (h_free : M .free = true) (h_out : M .out = true) (p : Path) (req : Feed) (role : Role) (keyIdx : Nat) (sigOk : Bool) (s : State) (t : State) (e : execAuthResponse p req role keyIdx sigOk s = .next t) : hide M t = hide M s := by
  refine next_hide e ?_
  simp only [implies_true, eq_self, h_pregs, h_tel, h_st, h_free, h_out, mailbox_hide, openSession_hide]

theorem mbxEnd_hide (h_st : M .st = true) (s : State) (p : Path) : hide M (State.mbxEnd s p).1 = hide M s := by
  unfold State.mbxEnd
  simp only [hide_ite, ite_self, ite_fst, eq_self, h_st, onSt_hide]

theorem execAuthEnd_hide (h_pregs : M .pregs = true) (h_tel : M .tel = true) (h_st : M .st = true) (h_free : M .free = true) (h_out : M .out = true) (p : Path) (req : Feed) (s : State) (t : State) (e : execAuthEnd p req s = .next t) : hide M t = hide M s := by
  refine next_hide e ?_
  simp only [implies_true, eq_self, h_pregs, h_tel, h_st, h_free, h_out, mailbox_hide, mbxEnd_hide]

theorem execSessionTimeout_hide (h_tel : M .tel = true) (h_st : M .st = true) (p : Path) (s : State) (t : State) (e : execSessionTimeout p s = .next t) : hide M t = hide M s := by
  refine next_hide e ?_
  simp only [eq_self, h_tel, h_st, endSession_hide]

theorem execLockoutEnd_hide (h_st : M .st = true) (p : Path) (s : State) (t : State) (e : execLockoutEnd p s = .next t) : hide M t = hide M s := by
  refine next_hide e ?_
  simp only [eq_self, h_st, onSt_hide]

theorem stage_hide (h_st : M .st = true) (s : State) (off : Nat) (chunk : Bytes) (last : Bool) : hide M (State.stage s off chunk last).1 = hide M s := by
  unfold State.stage
  simp only [hide_ite, ite_self, ite_fst, eq_self, h_st, onSt_hide, programSlot_hide]

theorem execImgStage_hide (h_pregs : M .pregs = true) (h_tel : M .tel = true) (h_st : M .st = true) (h_free : M .free = true) (h_out : M .out = true) (p : Path) (req : Feed) (off : Nat) (chunk : Bytes) (last : Bool) (s : State) (t : State) (e : execImgStage p req off chunk last s = .next t) : hide M t = hide M s := by
  refine next_hide e ?_
  simp only [implies_true, eq_self, h_pregs, h_tel, h_st, h_free, h_out, mailbox_hide, stage_hide]

theorem mbxActivate_hide (h_regs : M .regs = true) (h_lows : M .lows = true) (h_fe : M .fe = true) (h_tb : M .tb = true) (h_sp : M .sp = true) (h_up : M .up = true) (h_ch : M .ch = true) (h_gs : M .gs = true) (h_mem : M .mem = true) (h_fl : M .fl = true) (h_tel : M .tel = true) (h_pw : M .pw = true) (h_st : M .st = true) (h_rl : M .rl = true) (h_free : M .free = true) (h_out : M .out = true) (s : State) (sigOk : Bool) : hide M (State.mbxActivate s sigOk).1 = hide M s := by
  unfold State.mbxActivate
  try dsimp only
  repeat' first
    | with_reducible rfl
    | (simp only [hide_ite, ite_self, ite_fst, implies_true, eq_self, h_regs, h_lows, h_fe, h_tb, h_sp, h_up, h_ch, h_gs, h_mem, h_fl, h_tel, h_pw, h_st, h_rl, h_free, h_out, activate_hide, defer_hide]; done)
    | with_reducible apply hide_if
    | with_reducible apply hide_if1
    | split
    | (rw [forEach_hide])
    | (rw [foldl_hide])
    | (rw [foldlS_hide])
    | (intro; intros; try dsimp only)
    | (simp only [hide_ite, ite_self, ite_fst, implies_true, eq_self, h_regs, h_lows, h_fe, h_tb, h_sp, h_up, h_ch, h_gs, h_mem, h_fl, h_tel, h_pw, h_st, h_rl, h_free, h_out, activate_hide, defer_hide])

theorem execImgActivate_hide (h_regs : M .regs = true) (h_pregs : M .pregs = true) (h_lows : M .lows = true) (h_fe : M .fe = true) (h_tb : M .tb = true) (h_sp : M .sp = true) (h_up : M .up = true) (h_ch : M .ch = true) (h_gs : M .gs = true) (h_mem : M .mem = true) (h_fl : M .fl = true) (h_tel : M .tel = true) (h_pw : M .pw = true) (h_st : M .st = true) (h_rl : M .rl = true) (h_free : M .free = true) (h_out : M .out = true) (p : Path) (req : Feed) (sigOk : Bool) (s : State) (t : State) (e : execImgActivate p req sigOk s = .next t) : hide M t = hide M s := by
  simp only [execImgActivate, Host.Outcome.next.injEq] at e
  subst e
  repeat' first
    | with_reducible rfl
    | (simp only [hide_ite, ite_self, ite_fst, implies_true, eq_self, h_regs, h_pregs, h_lows, h_fe, h_tb, h_sp, h_up, h_ch, h_gs, h_mem, h_fl, h_tel, h_pw, h_st, h_rl, h_free, h_out, mailbox_hide, mbxActivate_hide]; done)
    | with_reducible apply hide_if
    | with_reducible apply hide_if1
    | split
    | (rw [forEach_hide])
    | (rw [foldl_hide])
    | (rw [foldlS_hide])
    | (rw [mailbox_hide])
    | assumption
    | (intro; intros; try dsimp only)
    | (simp only [hide_ite, ite_self, ite_fst, implies_true, eq_self, h_regs, h_pregs, h_lows, h_fe, h_tb, h_sp, h_up, h_ch, h_gs, h_mem, h_fl, h_tel, h_pw, h_st, h_rl, h_free, h_out, mailbox_hide, mbxActivate_hide])

theorem mbxCommit_hide (h_fuses : M .fuses = true) (h_tel : M .tel = true) (h_st : M .st = true) (s : State) : hide M (State.mbxCommit s).1 = hide M s := by
  unfold State.mbxCommit
  simp only [hide_ite, ite_self, ite_fst, eq_self, h_fuses, h_tel, h_st, commitTrial_hide, defer_hide]

theorem execImgCommit_hide (h_fuses : M .fuses = true) (h_pregs : M .pregs = true) (h_tel : M .tel = true) (h_st : M .st = true) (h_free : M .free = true) (h_out : M .out = true) (p : Path) (req : Feed) (s : State) (t : State) (e : execImgCommit p req s = .next t) : hide M t = hide M s := by
  refine next_hide e ?_
  simp only [implies_true, eq_self, h_fuses, h_pregs, h_tel, h_st, h_free, h_out, mailbox_hide, mbxCommit_hide]

theorem mbxRevert_hide (h_regs : M .regs = true) (h_lows : M .lows = true) (h_fe : M .fe = true) (h_tb : M .tb = true) (h_sp : M .sp = true) (h_up : M .up = true) (h_ch : M .ch = true) (h_gs : M .gs = true) (h_mem : M .mem = true) (h_fl : M .fl = true) (h_tel : M .tel = true) (h_pw : M .pw = true) (h_st : M .st = true) (h_rl : M .rl = true) (h_free : M .free = true) (h_out : M .out = true) (s : State) : hide M (State.mbxRevert s).1 = hide M s := by
  unfold State.mbxRevert
  try dsimp only
  repeat' first
    | with_reducible rfl
    | (simp only [hide_ite, ite_self, ite_fst, implies_true, eq_self, h_regs, h_lows, h_fe, h_tb, h_sp, h_up, h_ch, h_gs, h_mem, h_fl, h_tel, h_pw, h_st, h_rl, h_free, h_out, revert_hide]; done)
    | with_reducible apply hide_if
    | with_reducible apply hide_if1
    | split
    | (rw [forEach_hide])
    | (rw [foldl_hide])
    | (rw [foldlS_hide])
    | (intro; intros; try dsimp only)
    | (simp only [hide_ite, ite_self, ite_fst, implies_true, eq_self, h_regs, h_lows, h_fe, h_tb, h_sp, h_up, h_ch, h_gs, h_mem, h_fl, h_tel, h_pw, h_st, h_rl, h_free, h_out, revert_hide])

theorem execImgRevert_hide (h_regs : M .regs = true) (h_pregs : M .pregs = true) (h_lows : M .lows = true) (h_fe : M .fe = true) (h_tb : M .tb = true) (h_sp : M .sp = true) (h_up : M .up = true) (h_ch : M .ch = true) (h_gs : M .gs = true) (h_mem : M .mem = true) (h_fl : M .fl = true) (h_tel : M .tel = true) (h_pw : M .pw = true) (h_st : M .st = true) (h_rl : M .rl = true) (h_free : M .free = true) (h_out : M .out = true) (p : Path) (req : Feed) (s : State) (t : State) (e : execImgRevert p req s = .next t) : hide M t = hide M s := by
  simp only [execImgRevert, Host.Outcome.next.injEq] at e
  subst e
  repeat' first
    | with_reducible rfl
    | (simp only [hide_ite, ite_self, ite_fst, implies_true, eq_self, h_regs, h_pregs, h_lows, h_fe, h_tb, h_sp, h_up, h_ch, h_gs, h_mem, h_fl, h_tel, h_pw, h_st, h_rl, h_free, h_out, mailbox_hide, mbxRevert_hide]; done)
    | with_reducible apply hide_if
    | with_reducible apply hide_if1
    | split
    | (rw [forEach_hide])
    | (rw [foldl_hide])
    | (rw [foldlS_hide])
    | (rw [mailbox_hide])
    | assumption
    | (intro; intros; try dsimp only)
    | (simp only [hide_ite, ite_self, ite_fst, implies_true, eq_self, h_regs, h_pregs, h_lows, h_fe, h_tb, h_sp, h_up, h_ch, h_gs, h_mem, h_fl, h_tel, h_pw, h_st, h_rl, h_free, h_out, mailbox_hide, mbxRevert_hide])

theorem mbxAttach_hide (h_fl : M .fl = true) (h_tel : M .tel = true) (h_out : M .out = true) (s : State) (d : Nat) (i : DriveInfo) : hide M (State.mbxAttach s d i).1 = hide M s := by
  unfold State.mbxAttach
  try dsimp only
  repeat' first
    | with_reducible rfl
    | (simp only [hide_ite, ite_self, ite_fst, implies_true, eq_self, h_fl, h_tel, h_out, attach_hide]; done)
    | with_reducible apply hide_if
    | with_reducible apply hide_if1
    | split
    | (rw [forEach_hide])
    | (rw [foldl_hide])
    | (rw [foldlS_hide])
    | (intro; intros; try dsimp only)
    | (simp only [hide_ite, ite_self, ite_fst, implies_true, eq_self, h_fl, h_tel, h_out, attach_hide])

theorem execDriveAttach_hide (h_pregs : M .pregs = true) (h_fl : M .fl = true) (h_tel : M .tel = true) (h_st : M .st = true) (h_free : M .free = true) (h_out : M .out = true) (p : Path) (req : Feed) (drive : Nat) (info : DriveInfo) (s : State) (t : State) (e : execDriveAttach p req drive info s = .next t) : hide M t = hide M s := by
  simp only [execDriveAttach, Host.Outcome.next.injEq] at e
  subst e
  repeat' first
    | with_reducible rfl
    | (simp only [hide_ite, ite_self, ite_fst, implies_true, eq_self, h_pregs, h_fl, h_tel, h_st, h_free, h_out, mailbox_hide, mbxAttach_hide]; done)
    | with_reducible apply hide_if
    | with_reducible apply hide_if1
    | split
    | (rw [forEach_hide])
    | (rw [foldl_hide])
    | (rw [foldlS_hide])
    | (rw [mailbox_hide])
    | assumption
    | (intro; intros; try dsimp only)
    | (simp only [hide_ite, ite_self, ite_fst, implies_true, eq_self, h_pregs, h_fl, h_tel, h_st, h_free, h_out, mailbox_hide, mbxAttach_hide])

theorem saveDrive_hide (h_tb : M .tb = true) (h_up : M .up = true) (h_ch : M .ch = true) (h_gs : M .gs = true) (h_fl : M .fl = true) (h_tel : M .tel = true) (h_out : M .out = true) (s : State) (fails : WbFails) (y0 : List (Nat × Nat)) : hide M (State.saveDrive s fails y0).1 = hide M s := by
  fun_induction State.saveDrive s fails y0
  all_goals
    repeat' first
      | with_reducible rfl
      | assumption
      | (simp +zetaDelta only [*, hide_ite, ite_self, ite_fst, implies_true, eq_self, h_tb, h_up, h_ch, h_gs, h_fl, h_tel, h_out, writeBackRow_hide]; done)
      | with_reducible apply hide_if
      | with_reducible apply hide_if1
      | split
      | (rw [forEach_hide])
      | (rw [foldl_hide])
      | (rw [foldlS_hide])
      | (intro; intros; try dsimp only)
      | (simp +zetaDelta only [*, hide_ite, ite_self, ite_fst, implies_true, eq_self, h_tb, h_up, h_ch, h_gs, h_fl, h_tel, h_out, writeBackRow_hide])

theorem dropVersions_hide (h_tb : M .tb = true) (h_up : M .up = true) (h_ch : M .ch = true) (h_gs : M .gs = true) (h_tel : M .tel = true) (s : State) (l : List (Nat × Nat)) : hide M (State.dropVersions s l) = hide M s := by
  unfold State.dropVersions
  try dsimp only
  repeat' first
    | with_reducible rfl
    | (simp only [hide_ite, ite_self, ite_fst, implies_true, eq_self, h_tb, h_up, h_ch, h_gs, h_tel, forEach_hide, dropRow_hide]; done)
    | with_reducible apply hide_if
    | with_reducible apply hide_if1
    | split
    | (rw [forEach_hide])
    | (rw [foldl_hide])
    | (rw [foldlS_hide])
    | (intro; intros; try dsimp only)
    | (simp only [hide_ite, ite_self, ite_fst, implies_true, eq_self, h_tb, h_up, h_ch, h_gs, h_tel, forEach_hide, dropRow_hide])

theorem mbxDetach_hide (h_regs : M .regs = true) (h_fe : M .fe = true) (h_xl : M .xl = true) (h_tb : M .tb = true) (h_sp : M .sp = true) (h_up : M .up = true) (h_ch : M .ch = true) (h_gs : M .gs = true) (h_fl : M .fl = true) (h_tel : M .tel = true) (h_rl : M .rl = true) (h_out : M .out = true) (s : State) (d : Nat) (fails : WbFails) : hide M (State.mbxDetach s d fails).1 = hide M s := by
  unfold State.mbxDetach
  try dsimp only
  repeat' first
    | with_reducible rfl
    | (simp only [hide_ite, ite_self, ite_fst, implies_true, eq_self, h_regs, h_fe, h_xl, h_tb, h_sp, h_up, h_ch, h_gs, h_fl, h_tel, h_rl, h_out, deleteQueues_hide, dropVersions_hide, failDrive_hide, onDrive_hide, saveDrive_hide]; done)
    | with_reducible apply hide_if
    | with_reducible apply hide_if1
    | split
    | (rw [forEach_hide])
    | (rw [foldl_hide])
    | (rw [foldlS_hide])
    | (intro; intros; try dsimp only)
    | (simp only [hide_ite, ite_self, ite_fst, implies_true, eq_self, h_regs, h_fe, h_xl, h_tb, h_sp, h_up, h_ch, h_gs, h_fl, h_tel, h_rl, h_out, deleteQueues_hide, dropVersions_hide, failDrive_hide, onDrive_hide, saveDrive_hide])

theorem execDriveDetach_hide (h_regs : M .regs = true) (h_pregs : M .pregs = true) (h_fe : M .fe = true) (h_xl : M .xl = true) (h_tb : M .tb = true) (h_sp : M .sp = true) (h_up : M .up = true) (h_ch : M .ch = true) (h_gs : M .gs = true) (h_fl : M .fl = true) (h_tel : M .tel = true) (h_st : M .st = true) (h_rl : M .rl = true) (h_free : M .free = true) (h_out : M .out = true) (p : Path) (req : Feed) (drive : Nat) (fails : WbFails) (s : State) (t : State) (e : execDriveDetach p req drive fails s = .next t) : hide M t = hide M s := by
  simp only [execDriveDetach, Host.Outcome.next.injEq] at e
  subst e
  repeat' first
    | with_reducible rfl
    | (simp only [hide_ite, ite_self, ite_fst, implies_true, eq_self, h_regs, h_pregs, h_fe, h_xl, h_tb, h_sp, h_up, h_ch, h_gs, h_fl, h_tel, h_st, h_rl, h_free, h_out, mailbox_hide, mbxDetach_hide]; done)
    | with_reducible apply hide_if
    | with_reducible apply hide_if1
    | split
    | (rw [forEach_hide])
    | (rw [foldl_hide])
    | (rw [foldlS_hide])
    | (rw [mailbox_hide])
    | assumption
    | (intro; intros; try dsimp only)
    | (simp only [hide_ite, ite_self, ite_fst, implies_true, eq_self, h_regs, h_pregs, h_fe, h_xl, h_tb, h_sp, h_up, h_ch, h_gs, h_fl, h_tel, h_st, h_rl, h_free, h_out, mailbox_hide, mbxDetach_hide])

theorem enrol_hide (h_st : M .st = true) (s : State) (off : Nat) (chunk : Bytes) (last : Bool) (key : Bytes) (count : BitVec 32) (tokenOk : Bool) : hide M (State.enrol s off chunk last key count tokenOk).1 = hide M s := by
  unfold State.enrol
  simp only [hide_ite, ite_self, ite_fst, eq_self, h_st, onSt_hide]

theorem execEnrolInstaller_hide (h_pregs : M .pregs = true) (h_tel : M .tel = true) (h_st : M .st = true) (h_free : M .free = true) (h_out : M .out = true) (p : Path) (req : Feed) (off : Nat) (chunk : Bytes) (last : Bool) (key : Bytes) (count : BitVec 32) (tokenOk : Bool) (s : State) (t : State) (e : execEnrolInstaller p req off chunk last key count tokenOk s = .next t) : hide M t = hide M s := by
  refine next_hide e ?_
  simp only [implies_true, eq_self, h_pregs, h_tel, h_st, h_free, h_out, enrol_hide, mailbox_hide]

theorem execEnrolOperator_hide (h_pregs : M .pregs = true) (h_tel : M .tel = true) (h_st : M .st = true) (h_free : M .free = true) (h_out : M .out = true) (p : Path) (req : Feed) (idx : Nat) (key : Bytes) (s : State) (t : State) (e : execEnrolOperator p req idx key s = .next t) : hide M t = hide M s := by
  refine next_hide e ?_
  simp only [hide_ite, ite_self, ite_fst, implies_true, eq_self, h_pregs, h_tel, h_st, h_free, h_out, mailbox_hide, onSt_hide]

theorem execRevokeOperator_hide (h_pregs : M .pregs = true) (h_tel : M .tel = true) (h_st : M .st = true) (h_free : M .free = true) (h_out : M .out = true) (p : Path) (req : Feed) (idx : Nat) (s : State) (t : State) (e : execRevokeOperator p req idx s = .next t) : hide M t = hide M s := by
  refine next_hide e ?_
  simp only [hide_ite, ite_self, ite_fst, implies_true, eq_self, h_pregs, h_tel, h_st, h_free, h_out, mailbox_hide, onSt_hide]

theorem execSetLimit_hide (h_pregs : M .pregs = true) (h_tel : M .tel = true) (h_st : M .st = true) (h_free : M .free = true) (h_out : M .out = true) (p : Path) (req : Feed) (limits : BitVec 8) (s : State) (t : State) (e : execSetLimit p req limits s = .next t) : hide M t = hide M s := by
  refine next_hide e ?_
  simp only [implies_true, eq_self, h_pregs, h_tel, h_st, h_free, h_out, mailbox_hide, setPolicy_hide]

theorem openDebug_hide (h_st : M .st = true) (s : State) (p : Path) : hide M (State.openDebug s p).1 = hide M s := by
  unfold State.openDebug
  simp only [hide_ite, ite_self, ite_fst, eq_self, h_st, onSt_hide]

theorem execDebugOpen_hide (h_pregs : M .pregs = true) (h_tel : M .tel = true) (h_st : M .st = true) (h_free : M .free = true) (h_out : M .out = true) (p : Path) (req : Feed) (s : State) (t : State) (e : execDebugOpen p req s = .next t) : hide M t = hide M s := by
  refine next_hide e ?_
  simp only [implies_true, eq_self, h_pregs, h_tel, h_st, h_free, h_out, mailbox_hide, openDebug_hide]

theorem execDebugClose_hide (h_pregs : M .pregs = true) (h_tel : M .tel = true) (h_st : M .st = true) (h_free : M .free = true) (h_out : M .out = true) (p : Path) (req : Feed) (s : State) (t : State) (e : execDebugClose p req s = .next t) : hide M t = hide M s := by
  refine next_hide e ?_
  simp only [implies_true, eq_self, h_pregs, h_tel, h_st, h_free, h_out, mailbox_hide, onSt_hide]

theorem execFuseProgram_hide (h_fuses : M .fuses = true) (h_pregs : M .pregs = true) (h_tel : M .tel = true) (h_st : M .st = true) (h_free : M .free = true) (h_out : M .out = true) (p : Path) (req : Feed) (revoke : BitVec 4) (s : State) (t : State) (e : execFuseProgram p req revoke s = .next t) : hide M t = hide M s := by
  refine next_hide e ?_
  simp only [implies_true, eq_self, h_fuses, h_pregs, h_tel, h_st, h_free, h_out, mailbox_hide, onFuses_hide]

end Sys2Proof.Laws
end

