-- ==== Sys2Proof/Laws/CanonMailbox.lean ====
section
/-!
SUPPORT. What Machine/Mailbox.lean defines keeps Ground store's bytes in canonical form.
-/

namespace Sys2Proof.Laws

open Sys2Proof.Machine

theorem i3cStart_canon (s : State) (core : Nat) (val : Word64) (run : State → State) (h_run : ∀ (x0 : State), Canon (hide butMem x0) → Canon (hide butMem (run x0))) (hs : Canon (hide butMem s)) : Canon (hide butMem (State.i3cStart s core val run)) := by
  unfold State.i3cStart
  try dsimp only
  repeat' first
    | with_reducible assumption
    | split
    | (with_reducible apply h_run)
    | with_reducible apply forEach_canon
    | with_reducible apply foldl_canon
    | (intro; intros; try dsimp only)
    | (simp only [send_hide (M := butMem) rfl, onSt_hide (M := butMem) rfl, put_mbxCmd_hide (M := butMem) rfl])

theorem mbxStart_canon (s : State) (p : Path) (row : MbxRow) (len : Nat) (run : State → State) (h_run : ∀ (x0 : State), Canon (hide butMem x0) → Canon (hide butMem (run x0))) (hs : Canon (hide butMem s)) : Canon (hide butMem (State.mbxStart s p row len run)) := by
  unfold State.mbxStart
  try dsimp only
  repeat' first
    | with_reducible assumption
    | split
    | (with_reducible apply command_canon)
    | (with_reducible apply i3cStart_canon)
    | (with_reducible apply h_run)
    | with_reducible apply forEach_canon
    | with_reducible apply foldl_canon
    | (intro; intros; try dsimp only)
    | (simp only [put_mbxCmd_hide (M := butMem) rfl, implies_true, eq_self])

theorem mailbox_canon (s : State) (p : Path) (row : MbxRow) (req : Feed) (target : Nat) (run : State → State × Nat × Says) (h_run : ∀ (x0 : State), Canon (hide butMem x0) → Canon (hide butMem (run x0).1)) (hs : Canon (hide butMem s)) : Canon (hide butMem (State.mailbox s p row req target run)) := by
  unfold State.mailbox
  try dsimp only
  repeat' first
    | with_reducible assumption
    | split
    | (with_reducible apply mbxStart_canon)
    | (with_reducible apply h_run)
    | with_reducible apply forEach_canon
    | with_reducible apply foldl_canon
    | (intro; intros; try dsimp only)
    | (simp only [countN_hide (M := butMem) rfl, auditMbx_hide (M := butMem) rfl rfl, reply_hide (M := butMem) rfl rfl rfl rfl rfl])

theorem mbxRestart_canon (s : State) (core : Nat) (hs : Canon (hide butMem s)) : Canon (hide butMem (State.mbxRestart s core).1) := by
  unfold State.mbxRestart
  try dsimp only
  repeat' first
    | with_reducible assumption
    | split
    | (with_reducible apply cycleCore_canon)
    | with_reducible apply forEach_canon
    | with_reducible apply foldl_canon
    | (intro; intros; try dsimp only)
    | (simp only [freePc_hide (M := butMem) rfl, implies_true, eq_self])

theorem mbxReset_canon (s : State) (p : Path) (row : MbxRow) (req : Feed) (su : Startup) (hs : Canon (hide butMem s)) : Canon (hide butMem (State.mbxReset s p row req su)) := by
  unfold State.mbxReset
  try dsimp only
  repeat' first
    | with_reducible assumption
    | split
    | (with_reducible apply mbxStart_canon)
    | (with_reducible apply restartCore_canon)
    | with_reducible apply forEach_canon
    | with_reducible apply foldl_canon
    | (intro; intros; try dsimp only)
    | (simp only [countN_hide (M := butMem) rfl, auditMbx_hide (M := butMem) rfl rfl, freePc_hide (M := butMem) rfl, reply_hide (M := butMem) rfl rfl rfl rfl rfl, implies_true, eq_self])

theorem execCoreRestart_canon (p : Path) (req : Feed) (core : Nat) (restarted : Bool) (su : Startup) (s : State) (t : State) (e : execCoreRestart p req core restarted su s = .next t) (hs : Canon (hide butMem s)) : Canon (hide butMem t) := by
  refine next_canon e ?_
  repeat' first
    | with_reducible assumption
    | split
    | (with_reducible apply mailbox_canon)
    | (with_reducible apply mbxReset_canon)
    | (with_reducible apply mbxRestart_canon)
    | with_reducible apply forEach_canon
    | with_reducible apply foldl_canon
    | (intro; intros; try dsimp only)
    | (simp only [implies_true, eq_self])

theorem mbxActivate_canon (s : State) (sigOk : Bool) (hs : Canon (hide butMem s)) : Canon (hide butMem (State.mbxActivate s sigOk).1) := by
  unfold State.mbxActivate
  try dsimp only
  repeat' first
    | with_reducible assumption
    | split
    | (with_reducible apply activate_canon)
    | with_reducible apply forEach_canon
    | with_reducible apply foldl_canon
    | (intro; intros; try dsimp only)
    | (simp only [defer_hide (M := butMem) rfl rfl, implies_true, eq_self])

theorem execImgActivate_canon (p : Path) (req : Feed) (sigOk : Bool) (s : State) (t : State) (e : execImgActivate p req sigOk s = .next t) (hs : Canon (hide butMem s)) : Canon (hide butMem t) := by
  refine next_canon e ?_
  repeat' first
    | with_reducible assumption
    | split
    | (with_reducible apply mailbox_canon)
    | (with_reducible apply mbxActivate_canon)
    | with_reducible apply forEach_canon
    | with_reducible apply foldl_canon
    | (intro; intros; try dsimp only)
    | (simp only [implies_true, eq_self])

theorem mbxRevert_canon (s : State) (hs : Canon (hide butMem s)) : Canon (hide butMem (State.mbxRevert s).1) := by
  unfold State.mbxRevert
  try dsimp only
  repeat' first
    | with_reducible assumption
    | split
    | (with_reducible apply revert_canon)
    | with_reducible apply forEach_canon
    | with_reducible apply foldl_canon
    | (intro; intros; try dsimp only)
    | (simp only [implies_true, eq_self])

theorem execImgRevert_canon (p : Path) (req : Feed) (s : State) (t : State) (e : execImgRevert p req s = .next t) (hs : Canon (hide butMem s)) : Canon (hide butMem t) := by
  refine next_canon e ?_
  repeat' first
    | with_reducible assumption
    | split
    | (with_reducible apply mailbox_canon)
    | (with_reducible apply mbxRevert_canon)
    | with_reducible apply forEach_canon
    | with_reducible apply foldl_canon
    | (intro; intros; try dsimp only)
    | (simp only [implies_true, eq_self])

end Sys2Proof.Laws
end

