-- ==== Sys2Proof/Laws/FrameRemote.lean ====
section
/-!
SUPPORT. Frames of what Machine/Remote.lean defines: the parts of the state that each may change.
-/

namespace Sys2Proof.Laws

open Sys2Proof.Machine

variable {M : Mask}

theorem remoteVal_hide (h_free : M .free = true) (s : State) (b : InBatch) (n : Key × BitVec 32 × Nat) : hide M (State.remoteVal s b n).1 = hide M s := by
  unfold State.remoteVal
  try dsimp only
  repeat' first
    | with_reducible rfl
    | (simp only [set_free_hide, hide_ite, ite_self, ite_fst, implies_true, eq_self, h_free]; done)
    | with_reducible apply hide_if
    | with_reducible apply hide_if1
    | split
    | (rw [forEach_hide])
    | (rw [foldl_hide])
    | (rw [foldlS_hide])
    | (intro; intros; try dsimp only)
    | (simp only [set_free_hide, hide_ite, ite_self, ite_fst, implies_true, eq_self, h_free])

theorem takeRemote_hide (h_up : M .up = true) (h_gs : M .gs = true) (h_tel : M .tel = true) (h_free : M .free = true) (s : State) (b : InBatch) (n : Key × BitVec 32 × Nat) : hide M (State.takeRemote s b n).1 = hide M s := by
  unfold State.takeRemote
  try dsimp only
  repeat' first
    | with_reducible rfl
    | (simp only [hide_ite, ite_self, ite_fst, implies_true, eq_self, h_up, h_gs, h_tel, h_free, acceptOne_hide, remoteVal_hide]; done)
    | with_reducible apply hide_if
    | with_reducible apply hide_if1
    | split
    | (rw [forEach_hide])
    | (rw [foldl_hide])
    | (rw [foldlS_hide])
    | (intro; intros; try dsimp only)
    | (simp only [hide_ite, ite_self, ite_fst, implies_true, eq_self, h_up, h_gs, h_tel, h_free, acceptOne_hide, remoteVal_hide])

theorem takeAll_hide (h_up : M .up = true) (h_gs : M .gs = true) (h_tel : M .tel = true) (h_free : M .free = true) (s : State) (b : InBatch) (y0 : List (Key × BitVec 32 × Nat)) (y1 : Tally) (y2 : Nat) : hide M (State.takeAll s b y0 y1 y2).1 = hide M s := by
  fun_induction State.takeAll s b y0 y1 y2
  all_goals
    repeat' first
      | with_reducible rfl
      | assumption
      | (simp +zetaDelta only [*, hide_ite, ite_self, ite_fst, implies_true, eq_self, h_up, h_gs, h_tel, h_free, takeRemote_hide]; done)
      | with_reducible apply hide_if
      | with_reducible apply hide_if1
      | split
      | (rw [forEach_hide])
      | (rw [foldl_hide])
      | (rw [foldlS_hide])
      | (intro; intros; try dsimp only)
      | (simp +zetaDelta only [*, hide_ite, ite_self, ite_fst, implies_true, eq_self, h_up, h_gs, h_tel, h_free, takeRemote_hide])

theorem oweCredit_hide (h_tel : M .tel = true) (h_pw : M .pw = true) (h_out : M .out = true) (s : State) (port : Nat) (before : Bool) : hide M (State.oweCredit s port before) = hide M s := by
  unfold State.oweCredit
  try dsimp only
  repeat' first
    | with_reducible rfl
    | (simp only [hide_ite, ite_self, ite_fst, implies_true, eq_self, h_tel, h_pw, h_out, countN_hide, onPw_hide, send_hide]; done)
    | with_reducible apply hide_if
    | with_reducible apply hide_if1
    | split
    | (rw [forEach_hide])
    | (rw [foldl_hide])
    | (rw [foldlS_hide])
    | (intro; intros; try dsimp only)
    | (simp only [hide_ite, ite_self, ite_fst, implies_true, eq_self, h_tel, h_pw, h_out, countN_hide, onPw_hide, send_hide])

theorem payCredit_hide (h_pw : M .pw = true) (h_out : M .out = true) (s : State) (port : Nat) : hide M (State.payCredit s port) = hide M s := by
  unfold State.payCredit
  try dsimp only
  repeat' first
    | with_reducible rfl
    | (simp only [hide_ite, ite_self, ite_fst, implies_true, eq_self, h_pw, h_out, onPw_hide, send_hide]; done)
    | with_reducible apply hide_if
    | with_reducible apply hide_if1
    | split
    | (rw [forEach_hide])
    | (rw [foldl_hide])
    | (rw [foldlS_hide])
    | (intro; intros; try dsimp only)
    | (simp only [hide_ite, ite_self, ite_fst, implies_true, eq_self, h_pw, h_out, onPw_hide, send_hide])

theorem payCredits_hide (h_pw : M .pw = true) (h_out : M .out = true) (s : State) : hide M (State.payCredits s) = hide M s := by
  unfold State.payCredits
  try dsimp only
  repeat' first
    | with_reducible rfl
    | (simp only [hide_ite, ite_self, ite_fst, implies_true, eq_self, h_pw, h_out, forEach_hide, payCredit_hide]; done)
    | with_reducible apply hide_if
    | with_reducible apply hide_if1
    | split
    | (rw [forEach_hide])
    | (rw [foldl_hide])
    | (rw [foldlS_hide])
    | (intro; intros; try dsimp only)
    | (simp only [hide_ite, ite_self, ite_fst, implies_true, eq_self, h_pw, h_out, forEach_hide, payCredit_hide])

theorem acceptBatch_hide (h_up : M .up = true) (h_gs : M .gs = true) (h_tel : M .tel = true) (h_pw : M .pw = true) (h_free : M .free = true) (h_out : M .out = true) (s : State) (b : InBatch) : hide M (State.acceptBatch s b) = hide M s := by
  unfold State.acceptBatch
  try dsimp only
  repeat' first
    | with_reducible rfl
    | (simp only [hide_ite, ite_self, ite_fst, implies_true, eq_self, h_up, h_gs, h_tel, h_pw, h_free, h_out, countN_hide, fabSettle_hide, onUp_hide, payCredits_hide, rspSend_hide, takeAll_hide]; done)
    | with_reducible apply hide_if
    | with_reducible apply hide_if1
    | split
    | (rw [forEach_hide])
    | (rw [foldl_hide])
    | (rw [foldlS_hide])
    | (intro; intros; try dsimp only)
    | (simp only [hide_ite, ite_self, ite_fst, implies_true, eq_self, h_up, h_gs, h_tel, h_pw, h_free, h_out, countN_hide, fabSettle_hide, onUp_hide, payCredits_hide, rspSend_hide, takeAll_hide])

theorem takeHead_hide (h_up : M .up = true) (h_gs : M .gs = true) (h_tel : M .tel = true) (h_pw : M .pw = true) (h_free : M .free = true) (h_out : M .out = true) (s : State) : hide M (State.takeHead s) = hide M s := by
  unfold State.takeHead
  try dsimp only
  repeat' first
    | with_reducible rfl
    | (simp only [hide_ite, ite_self, ite_fst, implies_true, eq_self, h_up, h_gs, h_tel, h_pw, h_free, h_out, acceptBatch_hide, onUp_hide, payCredits_hide]; done)
    | with_reducible apply hide_if
    | with_reducible apply hide_if1
    | split
    | (rw [forEach_hide])
    | (rw [foldl_hide])
    | (rw [foldlS_hide])
    | (intro; intros; try dsimp only)
    | (simp only [hide_ite, ite_self, ite_fst, implies_true, eq_self, h_up, h_gs, h_tel, h_pw, h_free, h_out, acceptBatch_hide, onUp_hide, payCredits_hide])

theorem drainIntake_hide (h_up : M .up = true) (h_gs : M .gs = true) (h_tel : M .tel = true) (h_pw : M .pw = true) (h_free : M .free = true) (h_out : M .out = true) (s : State) : hide M (State.drainIntake s) = hide M s := by
  unfold State.drainIntake
  try dsimp only
  repeat' first
    | with_reducible rfl
    | (simp only [hide_ite, ite_self, ite_fst, implies_true, eq_self, h_up, h_gs, h_tel, h_pw, h_free, h_out, forEach_hide, takeHead_hide]; done)
    | with_reducible apply hide_if
    | with_reducible apply hide_if1
    | split
    | (rw [forEach_hide])
    | (rw [foldl_hide])
    | (rw [foldlS_hide])
    | (intro; intros; try dsimp only)
    | (simp only [hide_ite, ite_self, ite_fst, implies_true, eq_self, h_up, h_gs, h_tel, h_pw, h_free, h_out, forEach_hide, takeHead_hide])

theorem pillowReserve_hide (h_fe : M .fe = true) (h_up : M .up = true) (h_gs : M .gs = true) (h_tel : M .tel = true) (h_pw : M .pw = true) (h_free : M .free = true) (h_out : M .out = true) (s : State) : hide M (State.pillowReserve s) = hide M s := by
  unfold State.pillowReserve
  try dsimp only
  repeat' first
    | with_reducible rfl
    | (simp only [hide_ite, ite_self, ite_fst, implies_true, eq_self, h_fe, h_up, h_gs, h_tel, h_pw, h_free, h_out, drainIntake_hide, reserveScatters_hide]; done)
    | with_reducible apply hide_if
    | with_reducible apply hide_if1
    | split
    | (rw [forEach_hide])
    | (rw [foldl_hide])
    | (rw [foldlS_hide])
    | (intro; intros; try dsimp only)
    | (simp only [hide_ite, ite_self, ite_fst, implies_true, eq_self, h_fe, h_up, h_gs, h_tel, h_pw, h_free, h_out, drainIntake_hide, reserveScatters_hide])

theorem addMsg_hide (h_up : M .up = true) (s : State) (port : Nat) (m : ContribMsg) : hide M (State.addMsg s port m) = hide M s := by
  unfold State.addMsg
  try dsimp only
  repeat' first
    | with_reducible rfl
    | (simp only [hide_ite, ite_self, ite_fst, implies_true, eq_self, h_up, onUp_hide]; done)
    | with_reducible apply hide_if
    | with_reducible apply hide_if1
    | split
    | (rw [forEach_hide])
    | (rw [foldl_hide])
    | (rw [foldlS_hide])
    | (intro; intros; try dsimp only)
    | (simp only [hide_ite, ite_self, ite_fst, implies_true, eq_self, h_up, onUp_hide])

theorem discardBatch_hide (h_up : M .up = true) (h_gs : M .gs = true) (h_tel : M .tel = true) (h_pw : M .pw = true) (h_free : M .free = true) (h_out : M .out = true) (s : State) (sender : BitVec 16) (batch : BitVec 32) : hide M (State.discardBatch s sender batch) = hide M s := by
  unfold State.discardBatch
  try dsimp only
  repeat' first
    | with_reducible rfl
    | (simp only [hide_ite, ite_self, ite_fst, implies_true, eq_self, h_up, h_gs, h_tel, h_pw, h_free, h_out, count_hide, drainIntake_hide, onUp_hide, payCredits_hide]; done)
    | with_reducible apply hide_if
    | with_reducible apply hide_if1
    | split
    | (rw [forEach_hide])
    | (rw [foldl_hide])
    | (rw [foldlS_hide])
    | (intro; intros; try dsimp only)
    | (simp only [hide_ite, ite_self, ite_fst, implies_true, eq_self, h_up, h_gs, h_tel, h_pw, h_free, h_out, count_hide, drainIntake_hide, onUp_hide, payCredits_hide])

theorem remoteMsg_hide (h_up : M .up = true) (h_gs : M .gs = true) (h_tel : M .tel = true) (h_pw : M .pw = true) (h_free : M .free = true) (h_out : M .out = true) (s : State) (port : Nat) (m : ContribMsg) : hide M (State.remoteMsg s port m) = hide M s := by
  unfold State.remoteMsg
  try dsimp only
  repeat' first
    | with_reducible rfl
    | (simp only [hide_ite, ite_self, ite_fst, implies_true, eq_self, h_up, h_gs, h_tel, h_pw, h_free, h_out, addMsg_hide, drainIntake_hide, oweCredit_hide]; done)
    | with_reducible apply hide_if
    | with_reducible apply hide_if1
    | split
    | (rw [forEach_hide])
    | (rw [foldl_hide])
    | (rw [foldlS_hide])
    | (intro; intros; try dsimp only)
    | (simp only [hide_ite, ite_self, ite_fst, implies_true, eq_self, h_up, h_gs, h_tel, h_pw, h_free, h_out, addMsg_hide, drainIntake_hide, oweCredit_hide])

theorem batchDiscard_hide (h_up : M .up = true) (h_gs : M .gs = true) (h_tel : M .tel = true) (h_pw : M .pw = true) (h_free : M .free = true) (h_out : M .out = true) (s : State) (sender : BitVec 16) (batch : BitVec 32) : hide M (State.batchDiscard s sender batch) = hide M s := by
  unfold State.batchDiscard
  try dsimp only
  repeat' first
    | with_reducible rfl
    | (simp only [hide_ite, ite_self, ite_fst, implies_true, eq_self, h_up, h_gs, h_tel, h_pw, h_free, h_out, discardBatch_hide, onUp_hide]; done)
    | with_reducible apply hide_if
    | with_reducible apply hide_if1
    | split
    | (rw [forEach_hide])
    | (rw [foldl_hide])
    | (rw [foldlS_hide])
    | (intro; intros; try dsimp only)
    | (simp only [hide_ite, ite_self, ite_fst, implies_true, eq_self, h_up, h_gs, h_tel, h_pw, h_free, h_out, discardBatch_hide, onUp_hide])

end Sys2Proof.Laws
end

