-- ==== Sys2Proof/Laws/FrameRecovery.lean ====
section
/-!
SUPPORT. Frames of what Machine/Recovery.lean defines: the parts of the state that each may change.
-/

namespace Sys2Proof.Laws

open Sys2Proof.Machine

variable {M : Mask}

theorem rowGone_hide (h_tb : M .tb = true) (h_up : M .up = true) (h_ch : M .ch = true) (h_gs : M .gs = true) (h_tel : M .tel = true) (h_rl : M .rl = true) (s : State) (t : Table) (k : Key) (ver : Nat) : hide M (State.rowGone s t k ver) = hide M s := by
  unfold State.rowGone
  try dsimp only
  repeat' first
    | with_reducible rfl
    | (simp only [hide_ite, ite_self, ite_fst, implies_true, eq_self, h_tb, h_up, h_ch, h_gs, h_tel, h_rl, clean_hide, dropRow_hide, loseMaster_hide, onExtent_hide, poisonRow_hide]; done)
    | with_reducible apply hide_if
    | with_reducible apply hide_if1
    | split
    | (rw [forEach_hide])
    | (rw [foldl_hide])
    | (rw [foldlS_hide])
    | (intro; intros; try dsimp only)
    | (simp only [hide_ite, ite_self, ite_fst, implies_true, eq_self, h_tb, h_up, h_ch, h_gs, h_tel, h_rl, clean_hide, dropRow_hide, loseMaster_hide, onExtent_hide, poisonRow_hide])

theorem writeCopies_hide (h_ch : M .ch = true) (h_gs : M .gs = true) (h_mem : M .mem = true) (h_tel : M .tel = true) (s : State) (t : Table) (k : Key) (ver : Nat) (record : Bytes) : hide M (State.writeCopies s t k ver record) = hide M s := by
  unfold State.writeCopies
  try dsimp only
  repeat' first
    | with_reducible rfl
    | (simp only [hide_ite, ite_self, ite_fst, implies_true, eq_self, h_ch, h_gs, h_mem, h_tel, storeRow_hide, writeMaster_hide, writeReads_hide]; done)
    | with_reducible apply hide_if
    | with_reducible apply hide_if1
    | split
    | (rw [forEach_hide])
    | (rw [foldl_hide])
    | (rw [foldlS_hide])
    | (intro; intros; try dsimp only)
    | (simp only [hide_ite, ite_self, ite_fst, implies_true, eq_self, h_ch, h_gs, h_mem, h_tel, storeRow_hide, writeMaster_hide, writeReads_hide])

theorem recoverBacking_hide (h_tb : M .tb = true) (h_up : M .up = true) (h_ch : M .ch = true) (h_gs : M .gs = true) (h_mem : M .mem = true) (h_fl : M .fl = true) (h_tel : M .tel = true) (h_rl : M .rl = true) (h_out : M .out = true) (s : State) (t : Table) (v : Version) (k : Key) (src : RowSrc) : hide M (State.recoverBacking s t v k src) = hide M s := by
  unfold State.recoverBacking
  try dsimp only
  repeat' first
    | with_reducible rfl
    | (simp only [hide_ite, ite_self, ite_fst, implies_true, eq_self, h_tb, h_up, h_ch, h_gs, h_mem, h_fl, h_tel, h_rl, h_out, clean_hide, count_hide, loseMaster_hide, readBacking_hide, rowGone_hide, writeCopies_hide]; done)
    | with_reducible apply hide_if
    | with_reducible apply hide_if1
    | split
    | (rw [forEach_hide])
    | (rw [foldl_hide])
    | (rw [foldlS_hide])
    | (intro; intros; try dsimp only)
    | (simp only [hide_ite, ite_self, ite_fst, implies_true, eq_self, h_tb, h_up, h_ch, h_gs, h_mem, h_fl, h_tel, h_rl, h_out, clean_hide, count_hide, loseMaster_hide, readBacking_hide, rowGone_hide, writeCopies_hide])

theorem recoverTwin_hide (h_ch : M .ch = true) (h_gs : M .gs = true) (h_mem : M .mem = true) (h_tel : M .tel = true) (s : State) (t : Table) (k : Key) (ver : Nat) (b : Bytes) : hide M (State.recoverTwin s t k ver b) = hide M s := by
  unfold State.recoverTwin
  try dsimp only
  repeat' first
    | with_reducible rfl
    | (simp only [hide_ite, ite_self, ite_fst, implies_true, eq_self, h_ch, h_gs, h_mem, h_tel, count_hide, noteTwin_hide, writeCopies_hide]; done)
    | with_reducible apply hide_if
    | with_reducible apply hide_if1
    | split
    | (rw [forEach_hide])
    | (rw [foldl_hide])
    | (rw [foldlS_hide])
    | (intro; intros; try dsimp only)
    | (simp only [hide_ite, ite_self, ite_fst, implies_true, eq_self, h_ch, h_gs, h_mem, h_tel, count_hide, noteTwin_hide, writeCopies_hide])

theorem recoverRead_hide (h_ch : M .ch = true) (h_gs : M .gs = true) (h_mem : M .mem = true) (h_tel : M .tel = true) (s : State) (t : Table) (k : Key) (ver : Nat) : hide M (State.recoverRead s t k ver) = hide M s := by
  unfold State.recoverRead
  try dsimp only
  repeat' first
    | with_reducible rfl
    | (simp only [hide_ite, ite_self, ite_fst, implies_true, eq_self, h_ch, h_gs, h_mem, h_tel, count_hide, writeReads_hide]; done)
    | with_reducible apply hide_if
    | with_reducible apply hide_if1
    | split
    | (rw [forEach_hide])
    | (rw [foldl_hide])
    | (rw [foldlS_hide])
    | (intro; intros; try dsimp only)
    | (simp only [hide_ite, ite_self, ite_fst, implies_true, eq_self, h_ch, h_gs, h_mem, h_tel, count_hide, writeReads_hide])

theorem repairLine_hide (h_regs : M .regs = true) (h_fe : M .fe = true) (h_tb : M .tb = true) (h_sp : M .sp = true) (h_up : M .up = true) (h_ch : M .ch = true) (h_gs : M .gs = true) (h_mem : M .mem = true) (h_fl : M .fl = true) (h_tel : M .tel = true) (h_st : M .st = true) (h_rl : M .rl = true) (h_free : M .free = true) (h_out : M .out = true) (s : State) (x : Option (Nat × Nat × Nat)) : hide M (State.repairLine s x) = hide M s := by
  unfold State.repairLine
  try dsimp only
  repeat' first
    | with_reducible rfl
    | (simp only [hide_ite, ite_self, ite_fst, implies_true, eq_self, h_regs, h_fe, h_tb, h_sp, h_up, h_ch, h_gs, h_mem, h_fl, h_tel, h_st, h_rl, h_free, h_out, rowRepair_hide]; done)
    | with_reducible apply hide_if
    | with_reducible apply hide_if1
    | split
    | (rw [forEach_hide])
    | (rw [foldl_hide])
    | (rw [foldlS_hide])
    | (intro; intros; try dsimp only)
    | (simp only [hide_ite, ite_self, ite_fst, implies_true, eq_self, h_regs, h_fe, h_tb, h_sp, h_up, h_ch, h_gs, h_mem, h_fl, h_tel, h_st, h_rl, h_free, h_out, rowRepair_hide])

theorem rowRecovery_hide (h_regs : M .regs = true) (h_fe : M .fe = true) (h_tb : M .tb = true) (h_sp : M .sp = true) (h_up : M .up = true) (h_ch : M .ch = true) (h_gs : M .gs = true) (h_mem : M .mem = true) (h_fl : M .fl = true) (h_tel : M .tel = true) (h_st : M .st = true) (h_rl : M .rl = true) (h_free : M .free = true) (h_out : M .out = true) (s : State) (h ver row : Nat) (masterBad twinBad : Bool) (src : RowSrc) : hide M (State.rowRecovery s h ver row masterBad twinBad src) = hide M s := by
  unfold State.rowRecovery
  try dsimp only
  repeat' first
    | with_reducible rfl
    | (simp only [hide_ite, ite_self, ite_fst, implies_true, eq_self, h_regs, h_fe, h_tb, h_sp, h_up, h_ch, h_gs, h_mem, h_fl, h_tel, h_st, h_rl, h_free, h_out, count_hide, recoverBacking_hide, recoverRead_hide, recoverTwin_hide, repairLine_hide, countN_hide]; done)
    | with_reducible apply hide_if
    | with_reducible apply hide_if1
    | split
    | (rw [forEach_hide])
    | (rw [foldl_hide])
    | (rw [foldlS_hide])
    | (intro; intros; try dsimp only)
    | (simp only [hide_ite, ite_self, ite_fst, implies_true, eq_self, h_regs, h_fe, h_tb, h_sp, h_up, h_ch, h_gs, h_mem, h_fl, h_tel, h_st, h_rl, h_free, h_out, count_hide, recoverBacking_hide, recoverRead_hide, recoverTwin_hide, repairLine_hide, countN_hide])

theorem execRowRecovery_hide (h_regs : M .regs = true) (h_fe : M .fe = true) (h_tb : M .tb = true) (h_sp : M .sp = true) (h_up : M .up = true) (h_ch : M .ch = true) (h_gs : M .gs = true) (h_mem : M .mem = true) (h_fl : M .fl = true) (h_tel : M .tel = true) (h_st : M .st = true) (h_rl : M .rl = true) (h_free : M .free = true) (h_out : M .out = true) (tbl ver row : Nat) (masterBad twinBad : Bool) (src : RowSrc) (s : State) (t : State) (e : execRowRecovery tbl ver row masterBad twinBad src s = .next t) : hide M t = hide M s := by
  simp only [execRowRecovery, Host.Outcome.next.injEq] at e
  subst e
  repeat' first
    | with_reducible rfl
    | (simp only [hide_ite, ite_self, ite_fst, implies_true, eq_self, h_regs, h_fe, h_tb, h_sp, h_up, h_ch, h_gs, h_mem, h_fl, h_tel, h_st, h_rl, h_free, h_out, rowRecovery_hide]; done)
    | with_reducible apply hide_if
    | with_reducible apply hide_if1
    | split
    | (rw [forEach_hide])
    | (rw [foldl_hide])
    | (rw [foldlS_hide])
    | (intro; intros; try dsimp only)
    | (simp only [hide_ite, ite_self, ite_fst, implies_true, eq_self, h_regs, h_fe, h_tb, h_sp, h_up, h_ch, h_gs, h_mem, h_fl, h_tel, h_st, h_rl, h_free, h_out, rowRecovery_hide])

theorem loseSlice_hide (h_fe : M .fe = true) (h_sp : M .sp = true) (h_up : M .up = true) (h_fl : M .fl = true) (h_tel : M .tel = true) (h_rl : M .rl = true) (s : State) (pos : Nat) : hide M (State.loseSlice s pos) = hide M s := by
  unfold State.loseSlice
  simp only [implies_true, eq_self, h_fe, h_sp, h_up, h_fl, h_tel, h_rl, forEach_hide, abandon_hide, endDesc_hide, onRl_hide, onSp_hide, reduce_hide]

theorem sliceSpared_hide (h_fe : M .fe = true) (h_sp : M .sp = true) (h_up : M .up = true) (h_fl : M .fl = true) (h_tel : M .tel = true) (h_st : M .st = true) (h_rl : M .rl = true) (s : State) (pos : Nat) : hide M (State.sliceSpared s pos) = hide M s := by
  unfold State.sliceSpared
  simp only [hide_ite, ite_self, eq_self, h_fe, h_sp, h_up, h_fl, h_tel, h_st, h_rl, auditHw_hide, loseSlice_hide, onRl_hide, tell_hide]

theorem execSliceSpared_hide (h_fe : M .fe = true) (h_sp : M .sp = true) (h_up : M .up = true) (h_fl : M .fl = true) (h_tel : M .tel = true) (h_st : M .st = true) (h_rl : M .rl = true) (pos : Nat) (s : State) (t : State) (e : execSliceSpared pos s = .next t) : hide M t = hide M s := by
  refine next_hide e ?_
  simp only [eq_self, h_fe, h_sp, h_up, h_fl, h_tel, h_st, h_rl, sliceSpared_hide]

theorem markBad_hide (h_up : M .up = true) (h_gs : M .gs = true) (h_tel : M .tel = true) (h_pw : M .pw = true) (h_free : M .free = true) (h_out : M .out = true) (s : State) (port : Nat) (m : ContribMsg) : hide M (State.markBad s port m) = hide M s := by
  unfold State.markBad
  try dsimp only
  repeat' first
    | with_reducible rfl
    | (simp only [hide_ite, ite_self, ite_fst, implies_true, eq_self, h_up, h_gs, h_tel, h_pw, h_free, h_out, drainIntake_hide, onUp_hide, payCredits_hide]; done)
    | with_reducible apply hide_if
    | with_reducible apply hide_if1
    | split
    | (rw [forEach_hide])
    | (rw [foldl_hide])
    | (rw [foldlS_hide])
    | (intro; intros; try dsimp only)
    | (simp only [hide_ite, ite_self, ite_fst, implies_true, eq_self, h_up, h_gs, h_tel, h_pw, h_free, h_out, drainIntake_hide, onUp_hide, payCredits_hide])

theorem inboundBad_hide (h_up : M .up = true) (h_gs : M .gs = true) (h_tel : M .tel = true) (h_pw : M .pw = true) (h_free : M .free = true) (h_out : M .out = true) (s : State) (port : Nat) (msg : BadMsg) : hide M (State.inboundBad s port msg) = hide M s := by
  unfold State.inboundBad
  try dsimp only
  repeat' first
    | with_reducible rfl
    | (simp only [hide_ite, ite_self, ite_fst, implies_true, eq_self, h_up, h_gs, h_tel, h_pw, h_free, h_out, count_hide, markBad_hide, oweCredit_hide, send_hide]; done)
    | with_reducible apply hide_if
    | with_reducible apply hide_if1
    | split
    | (rw [forEach_hide])
    | (rw [foldl_hide])
    | (rw [foldlS_hide])
    | (intro; intros; try dsimp only)
    | (simp only [hide_ite, ite_self, ite_fst, implies_true, eq_self, h_up, h_gs, h_tel, h_pw, h_free, h_out, count_hide, markBad_hide, oweCredit_hide, send_hide])

theorem poisonCmd_hide (h_regs : M .regs = true) (h_tel : M .tel = true) (h_st : M .st = true) (h_out : M .out = true) (s : State) (p : Path) (op : Nat) (audited : Bool) (val : Word64) (run : State → Nat → Nat → Nat → State) (h_run : ∀ (x0 : State) (x1 : Nat) (x2 : Nat) (x3 : Nat), hide M (run x0 x1 x2 x3) = hide M x0) : hide M (State.poisonCmd s p op audited val run) = hide M s := by
  unfold State.poisonCmd
  try dsimp only
  repeat' first
    | with_reducible rfl
    | (simp only [hide_ite, ite_self, ite_fst, implies_true, eq_self, h_regs, h_tel, h_st, h_out, h_run, command_hide, put_poisonCmd_hide]; done)
    | with_reducible apply hide_if
    | with_reducible apply hide_if1
    | split
    | (rw [forEach_hide])
    | (rw [foldl_hide])
    | (rw [foldlS_hide])
    | (rw [command_hide])
    | assumption
    | (intro; intros; try dsimp only)
    | (simp only [hide_ite, ite_self, ite_fst, implies_true, eq_self, h_regs, h_tel, h_st, h_out, h_run, command_hide, put_poisonCmd_hide])

theorem poisonQuery_hide (h_regs : M .regs = true) (h_tel : M .tel = true) (h_st : M .st = true) (h_out : M .out = true) (s : State) (p : Path) (val : Word64) : hide M (State.poisonQuery s p val) = hide M s := by
  unfold State.poisonQuery
  try dsimp only
  repeat' first
    | with_reducible rfl
    | (simp only [hide_ite, ite_self, ite_fst, implies_true, eq_self, h_regs, h_tel, h_st, h_out, cmdField_hide, finish_hide, poisonCmd_hide, put_poisonCmd_hide]; done)
    | with_reducible apply hide_if
    | with_reducible apply hide_if1
    | split
    | (rw [forEach_hide])
    | (rw [foldl_hide])
    | (rw [foldlS_hide])
    | (rw [cmdField_hide])
    | (rw [finish_hide])
    | (rw [poisonCmd_hide])
    | assumption
    | (intro; intros; try dsimp only)
    | (simp only [hide_ite, ite_self, ite_fst, implies_true, eq_self, h_regs, h_tel, h_st, h_out, cmdField_hide, finish_hide, poisonCmd_hide, put_poisonCmd_hide])

theorem execQuery_hide (h_regs : M .regs = true) (h_tel : M .tel = true) (h_st : M .st = true) (h_out : M .out = true) (p : Path) (val : Word64) (s : State) (t : State) (e : execQuery p val s = .next t) : hide M t = hide M s := by
  simp only [execQuery, Host.Outcome.next.injEq] at e
  subst e
  repeat' first
    | with_reducible rfl
    | (simp only [hide_ite, ite_self, ite_fst, implies_true, eq_self, h_regs, h_tel, h_st, h_out, poisonQuery_hide]; done)
    | with_reducible apply hide_if
    | with_reducible apply hide_if1
    | split
    | (rw [forEach_hide])
    | (rw [foldl_hide])
    | (rw [foldlS_hide])
    | (intro; intros; try dsimp only)
    | (simp only [hide_ite, ite_self, ite_fst, implies_true, eq_self, h_regs, h_tel, h_st, h_out, poisonQuery_hide])

theorem poisonClear_hide (h_regs : M .regs = true) (h_tel : M .tel = true) (h_st : M .st = true) (h_rl : M .rl = true) (h_out : M .out = true) (s : State) (p : Path) (val : Word64) : hide M (State.poisonClear s p val) = hide M s := by
  unfold State.poisonClear
  try dsimp only
  repeat' first
    | with_reducible rfl
    | (simp only [hide_ite, ite_self, ite_fst, implies_true, eq_self, h_regs, h_tel, h_st, h_rl, h_out, finish_hide, poisonCmd_hide, unpoison_hide, put_poisonCmd_hide]; done)
    | with_reducible apply hide_if
    | with_reducible apply hide_if1
    | split
    | (rw [forEach_hide])
    | (rw [foldl_hide])
    | (rw [foldlS_hide])
    | (rw [finish_hide])
    | (rw [poisonCmd_hide])
    | assumption
    | (intro; intros; try dsimp only)
    | (simp only [hide_ite, ite_self, ite_fst, implies_true, eq_self, h_regs, h_tel, h_st, h_rl, h_out, finish_hide, poisonCmd_hide, unpoison_hide, put_poisonCmd_hide])

theorem execPoisonClear_hide (h_regs : M .regs = true) (h_tel : M .tel = true) (h_st : M .st = true) (h_rl : M .rl = true) (h_out : M .out = true) (p : Path) (val : Word64) (s : State) (t : State) (e : execPoisonClear p val s = .next t) : hide M t = hide M s := by
  simp only [execPoisonClear, Host.Outcome.next.injEq] at e
  subst e
  repeat' first
    | with_reducible rfl
    | (simp only [hide_ite, ite_self, ite_fst, implies_true, eq_self, h_regs, h_tel, h_st, h_rl, h_out, poisonClear_hide]; done)
    | with_reducible apply hide_if
    | with_reducible apply hide_if1
    | split
    | (rw [forEach_hide])
    | (rw [foldl_hide])
    | (rw [foldlS_hide])
    | (intro; intros; try dsimp only)
    | (simp only [hide_ite, ite_self, ite_fst, implies_true, eq_self, h_regs, h_tel, h_st, h_rl, h_out, poisonClear_hide])

theorem eventWrite_hide (h_fe : M .fe = true) (h_up : M .up = true) (h_tel : M .tel = true) (h_pw : M .pw = true) (h_out : M .out = true) (s : State) : hide M (State.eventWrite s) = hide M s := by
  unfold State.eventWrite
  try dsimp only
  repeat' first
    | with_reducible rfl
    | (simp only [hide_ite, ite_self, ite_fst, implies_true, eq_self, h_fe, h_up, h_tel, h_pw, h_out, onTel_hide, putSlot_hide, signal_hide]; done)
    | with_reducible apply hide_if
    | with_reducible apply hide_if1
    | split
    | (rw [forEach_hide])
    | (rw [foldl_hide])
    | (rw [foldlS_hide])
    | (intro; intros; try dsimp only)
    | (simp only [hide_ite, ite_self, ite_fst, implies_true, eq_self, h_fe, h_up, h_tel, h_pw, h_out, onTel_hide, putSlot_hide, signal_hide])

theorem execEventWrite_hide (h_fe : M .fe = true) (h_up : M .up = true) (h_tel : M .tel = true) (h_pw : M .pw = true) (h_out : M .out = true) (s : State) (t : State) (e : execEventWrite s = .next t) : hide M t = hide M s := by
  simp only [execEventWrite, Host.Outcome.next.injEq] at e
  subst e
  repeat' first
    | with_reducible rfl
    | (simp only [hide_ite, ite_self, ite_fst, implies_true, eq_self, h_fe, h_up, h_tel, h_pw, h_out, eventWrite_hide]; done)
    | with_reducible apply hide_if
    | with_reducible apply hide_if1
    | split
    | (rw [forEach_hide])
    | (rw [foldl_hide])
    | (rw [foldlS_hide])
    | (intro; intros; try dsimp only)
    | (simp only [hide_ite, ite_self, ite_fst, implies_true, eq_self, h_fe, h_up, h_tel, h_pw, h_out, eventWrite_hide])

end Sys2Proof.Laws
end

