-- ==== Sys2Proof/Laws/CanonRecovery.lean ====
section
/-!
SUPPORT. What Machine/Recovery.lean defines keeps Ground store's bytes in canonical form.
-/

namespace Sys2Proof.Laws

open Sys2Proof.Machine

theorem writeCopies_canon (s : State) (t : Table) (k : Key) (ver : Nat) (record : Bytes) (hs : Canon (hide butMem s)) : Canon (hide butMem (State.writeCopies s t k ver record)) := by
  unfold State.writeCopies
  try dsimp only
  repeat' first
    | with_reducible assumption
    | split
    | (with_reducible apply storeRow_canon)
    | (with_reducible apply writeMaster_canon)
    | (with_reducible apply writeReads_canon)
    | with_reducible apply forEach_canon
    | with_reducible apply foldl_canon
    | (intro; intros; try dsimp only)
    | (simp only [implies_true, eq_self])

theorem recoverBacking_canon (s : State) (t : Table) (v : Version) (k : Key) (src : RowSrc) (hs : Canon (hide butMem s)) : Canon (hide butMem (State.recoverBacking s t v k src)) := by
  unfold State.recoverBacking
  try dsimp only
  repeat' first
    | with_reducible assumption
    | split
    | (with_reducible apply writeCopies_canon)
    | with_reducible apply forEach_canon
    | with_reducible apply foldl_canon
    | (intro; intros; try dsimp only)
    | (simp only [clean_hide (M := butMem) rfl rfl rfl rfl rfl, count_hide (M := butMem) rfl, loseMaster_hide (M := butMem) rfl, readBacking_hide (M := butMem) rfl rfl rfl rfl, rowGone_hide (M := butMem) rfl rfl rfl rfl rfl rfl, implies_true, eq_self])

theorem recoverTwin_canon (s : State) (t : Table) (k : Key) (ver : Nat) (b : Bytes) (hs : Canon (hide butMem s)) : Canon (hide butMem (State.recoverTwin s t k ver b)) := by
  unfold State.recoverTwin
  try dsimp only
  repeat' first
    | with_reducible assumption
    | split
    | (with_reducible apply writeCopies_canon)
    | with_reducible apply forEach_canon
    | with_reducible apply foldl_canon
    | (intro; intros; try dsimp only)
    | (simp only [count_hide (M := butMem) rfl, noteTwin_hide (M := butMem) rfl rfl, implies_true, eq_self])

theorem recoverRead_canon (s : State) (t : Table) (k : Key) (ver : Nat) (hs : Canon (hide butMem s)) : Canon (hide butMem (State.recoverRead s t k ver)) := by
  unfold State.recoverRead
  try dsimp only
  repeat' first
    | with_reducible assumption
    | split
    | (with_reducible apply writeReads_canon)
    | with_reducible apply forEach_canon
    | with_reducible apply foldl_canon
    | (intro; intros; try dsimp only)
    | (simp only [count_hide (M := butMem) rfl, implies_true, eq_self])

theorem repairLine_canon (s : State) (x : Option (Nat × Nat × Nat)) (hs : Canon (hide butMem s)) : Canon (hide butMem (State.repairLine s x)) := by
  unfold State.repairLine
  try dsimp only
  repeat' first
    | with_reducible assumption
    | split
    | (with_reducible apply rowRepair_canon)
    | with_reducible apply forEach_canon
    | with_reducible apply foldl_canon
    | (intro; intros; try dsimp only)
    | (simp only [implies_true, eq_self])

theorem rowRecovery_canon (s : State) (h ver row : Nat) (masterBad twinBad : Bool) (src : RowSrc) (hs : Canon (hide butMem s)) : Canon (hide butMem (State.rowRecovery s h ver row masterBad twinBad src)) := by
  unfold State.rowRecovery
  try dsimp only
  repeat' first
    | with_reducible assumption
    | split
    | (with_reducible apply recoverBacking_canon)
    | (with_reducible apply recoverRead_canon)
    | (with_reducible apply recoverTwin_canon)
    | (with_reducible apply repairLine_canon)
    | with_reducible apply forEach_canon
    | with_reducible apply foldl_canon
    | (intro; intros; try dsimp only)
    | (simp only [countN_hide (M := butMem) rfl, count_hide (M := butMem) rfl, implies_true, eq_self])

theorem execRowRecovery_canon (tbl ver row : Nat) (masterBad twinBad : Bool) (src : RowSrc) (s : State) (t : State) (e : execRowRecovery tbl ver row masterBad twinBad src s = .next t) (hs : Canon (hide butMem s)) : Canon (hide butMem t) := by
  refine next_canon e ?_
  repeat' first
    | with_reducible assumption
    | split
    | (with_reducible apply rowRecovery_canon)
    | with_reducible apply forEach_canon
    | with_reducible apply foldl_canon
    | (intro; intros; try dsimp only)
    | (simp only [implies_true, eq_self])

end Sys2Proof.Laws
end

