-- ==== Sys2Proof/Laws/FrameFrontEnd.lean ====
section
/-!
SUPPORT. Frames of what Machine/FrontEnd.lean defines: the parts of the state that each may change.
-/

namespace Sys2Proof.Laws

open Sys2Proof.Machine

variable {M : Mask}

theorem readSlots_hide (h_fe : M .fe = true) (h_up : M .up = true) (h_pw : M .pw = true) (h_out : M .out = true) (s : State) (k i n : Nat) : hide M (State.readSlots s k i n) = hide M s := by
  unfold State.readSlots
  try dsimp only
  repeat' first
    | with_reducible rfl
    | (simp only [hide_ite, ite_self, ite_fst, implies_true, eq_self, h_fe, h_up, h_pw, h_out, fabSendAll_hide, sendAll_hide]; done)
    | with_reducible apply hide_if
    | with_reducible apply hide_if1
    | split
    | (rw [forEach_hide])
    | (rw [foldl_hide])
    | (rw [foldlS_hide])
    | (intro; intros; try dsimp only)
    | (simp only [hide_ite, ite_self, ite_fst, implies_true, eq_self, h_fe, h_up, h_pw, h_out, fabSendAll_hide, sendAll_hide])

theorem ringTurn_hide (h_fe : M .fe = true) (h_up : M .up = true) (h_pw : M .pw = true) (h_out : M .out = true) (s : State) (k : Nat) : hide M (State.ringTurn s k) = hide M s := by
  unfold State.ringTurn
  try dsimp only
  repeat' first
    | with_reducible rfl
    | (simp only [hide_ite, ite_self, ite_fst, implies_true, eq_self, h_fe, h_up, h_pw, h_out, onFe_hide, readSlots_hide, setRing_hide]; done)
    | with_reducible apply hide_if
    | with_reducible apply hide_if1
    | split
    | (rw [forEach_hide])
    | (rw [foldl_hide])
    | (rw [foldlS_hide])
    | (intro; intros; try dsimp only)
    | (simp only [hide_ite, ite_self, ite_fst, implies_true, eq_self, h_fe, h_up, h_pw, h_out, onFe_hide, readSlots_hide, setRing_hide])

theorem execRingTurn_hide (h_fe : M .fe = true) (h_up : M .up = true) (h_pw : M .pw = true) (h_out : M .out = true) (ring : Nat) (s : State) (t : State) (e : execRingTurn ring s = .next t) : hide M t = hide M s := by
  simp only [execRingTurn, Host.Outcome.next.injEq] at e
  subst e
  repeat' first
    | with_reducible rfl
    | (simp only [hide_ite, ite_self, ite_fst, implies_true, eq_self, h_fe, h_up, h_pw, h_out, ringTurn_hide]; done)
    | with_reducible apply hide_if
    | with_reducible apply hide_if1
    | split
    | (rw [forEach_hide])
    | (rw [foldl_hide])
    | (rw [foldlS_hide])
    | (intro; intros; try dsimp only)
    | (simp only [hide_ite, ite_self, ite_fst, implies_true, eq_self, h_fe, h_up, h_pw, h_out, ringTurn_hide])

theorem keptWrap_hide (h_sp : M .sp = true) (h_tel : M .tel = true) (s : State) (k : Nat) (q : BitVec 32) : hide M (State.keptWrap s k q) = hide M s := by
  unfold State.keptWrap
  try dsimp only
  repeat' first
    | with_reducible rfl
    | (simp only [hide_ite, ite_self, ite_fst, implies_true, eq_self, h_sp, h_tel, countN_hide, dropKept_hide]; done)
    | with_reducible apply hide_if
    | with_reducible apply hide_if1
    | split
    | (rw [forEach_hide])
    | (rw [foldl_hide])
    | (rw [foldlS_hide])
    | (intro; intros; try dsimp only)
    | (simp only [hide_ite, ite_self, ite_fst, implies_true, eq_self, h_sp, h_tel, countN_hide, dropKept_hide])

theorem claimLists_hide (h_sp : M .sp = true) (s : State) (d : Desc) : hide M (State.claimLists s d) = hide M s := by
  unfold State.claimLists
  try dsimp only
  repeat' first
    | with_reducible rfl
    | (simp only [hide_ite, ite_self, ite_fst, implies_true, eq_self, h_sp, onSp_hide]; done)
    | with_reducible apply hide_if
    | with_reducible apply hide_if1
    | split
    | (rw [forEach_hide])
    | (rw [foldl_hide])
    | (rw [foldlS_hide])
    | (intro; intros; try dsimp only)
    | (simp only [hide_ite, ite_self, ite_fst, implies_true, eq_self, h_sp, onSp_hide])

theorem takeOn_hide (h_fe : M .fe = true) (h_sp : M .sp = true) (s : State) (d : Desc) : hide M (State.takeOn s d) = hide M s := by
  unfold State.takeOn
  try dsimp only
  repeat' first
    | with_reducible rfl
    | (simp only [hide_ite, ite_self, ite_fst, implies_true, eq_self, h_fe, h_sp, claimLists_hide, onFe_hide, onSp_hide]; done)
    | with_reducible apply hide_if
    | with_reducible apply hide_if1
    | split
    | (rw [forEach_hide])
    | (rw [foldl_hide])
    | (rw [foldlS_hide])
    | (intro; intros; try dsimp only)
    | (simp only [hide_ite, ite_self, ite_fst, implies_true, eq_self, h_fe, h_sp, claimLists_hide, onFe_hide, onSp_hide])

theorem queueOne_hide (h_fe : M .fe = true) (h_tb : M .tb = true) (h_sp : M .sp = true) (h_gs : M .gs = true) (h_tel : M .tel = true) (h_out : M .out = true) (s : State) (k : Nat) (raw ext : Bytes) (last : Bool) : hide M (State.queueOne s k raw ext last) = hide M s := by
  unfold State.queueOne
  try dsimp only
  repeat' first
    | with_reducible rfl
    | (simp only [hide_ite, ite_self, ite_fst, implies_true, eq_self, h_fe, h_tb, h_sp, h_gs, h_tel, h_out, claimLists_hide, fitRing_hide, keptWrap_hide, onFe_hide, seeTable_hide, setRing_hide, takeOn_hide]; done)
    | with_reducible apply hide_if
    | with_reducible apply hide_if1
    | split
    | (rw [forEach_hide])
    | (rw [foldl_hide])
    | (rw [foldlS_hide])
    | (intro; intros; try dsimp only)
    | (simp only [hide_ite, ite_self, ite_fst, implies_true, eq_self, h_fe, h_tb, h_sp, h_gs, h_tel, h_out, claimLists_hide, fitRing_hide, keptWrap_hide, onFe_hide, seeTable_hide, setRing_hide, takeOn_hide])

theorem takeRead_hide (h_fe : M .fe = true) (h_tb : M .tb = true) (h_sp : M .sp = true) (h_up : M .up = true) (h_gs : M .gs = true) (h_tel : M .tel = true) (h_pw : M .pw = true) (h_out : M .out = true) (s : State) (k : Nat) (x : Slot) : hide M (State.takeRead s k x) = hide M s := by
  unfold State.takeRead
  try dsimp only
  repeat' first
    | with_reducible rfl
    | (simp only [hide_ite, ite_self, ite_fst, implies_true, eq_self, h_fe, h_tb, h_sp, h_up, h_gs, h_tel, h_pw, h_out, consume_hide, queueOne_hide, setRing_hide]; done)
    | with_reducible apply hide_if
    | with_reducible apply hide_if1
    | split
    | (rw [forEach_hide])
    | (rw [foldl_hide])
    | (rw [foldlS_hide])
    | (intro; intros; try dsimp only)
    | (simp only [hide_ite, ite_self, ite_fst, implies_true, eq_self, h_fe, h_tb, h_sp, h_up, h_gs, h_tel, h_pw, h_out, consume_hide, queueOne_hide, setRing_hide])

theorem endTurn_hide (h_fe : M .fe = true) (h_up : M .up = true) (h_pw : M .pw = true) (h_out : M .out = true) (s : State) (k : Nat) : hide M (State.endTurn s k) = hide M s := by
  unfold State.endTurn
  try dsimp only
  repeat' first
    | with_reducible rfl
    | (simp only [hide_ite, ite_self, ite_fst, implies_true, eq_self, h_fe, h_up, h_pw, h_out, announce_hide, readSlots_hide, setRing_hide]; done)
    | with_reducible apply hide_if
    | with_reducible apply hide_if1
    | split
    | (rw [forEach_hide])
    | (rw [foldl_hide])
    | (rw [foldlS_hide])
    | (intro; intros; try dsimp only)
    | (simp only [hide_ite, ite_self, ite_fst, implies_true, eq_self, h_fe, h_up, h_pw, h_out, announce_hide, readSlots_hide, setRing_hide])

theorem grantReads_hide (h_out : M .out = true) (s : State) (k : Nat) : hide M (State.grantReads s k) = hide M s := by
  unfold State.grantReads
  try dsimp only
  repeat' first
    | with_reducible rfl
    | (simp only [hide_ite, ite_self, ite_fst, implies_true, eq_self, h_out, sendAll_hide]; done)
    | with_reducible apply hide_if
    | with_reducible apply hide_if1
    | split
    | (rw [forEach_hide])
    | (rw [foldl_hide])
    | (rw [foldlS_hide])
    | (intro; intros; try dsimp only)
    | (simp only [hide_ite, ite_self, ite_fst, implies_true, eq_self, h_out, sendAll_hide])

theorem readReturn_hide (h_fe : M .fe = true) (h_xl : M .xl = true) (h_tb : M .tb = true) (h_sp : M .sp = true) (h_up : M .up = true) (h_gs : M .gs = true) (h_fl : M .fl = true) (h_tel : M .tel = true) (h_pw : M .pw = true) (h_out : M .out = true) (s : State) (k : Nat) (slots : List Slot) : hide M (State.readReturn s k slots) = hide M s := by
  unfold State.readReturn
  try dsimp only
  repeat' first
    | with_reducible rfl
    | (simp only [hide_ite, ite_self, ite_fst, implies_true, eq_self, h_fe, h_xl, h_tb, h_sp, h_up, h_gs, h_fl, h_tel, h_pw, h_out, forEach_hide, endTurn_hide, fabSettle_hide, grantReads_hide, reserveAll_hide, takeRead_hide]; done)
    | with_reducible apply hide_if
    | with_reducible apply hide_if1
    | split
    | (rw [forEach_hide])
    | (rw [foldl_hide])
    | (rw [foldlS_hide])
    | (intro; intros; try dsimp only)
    | (simp only [hide_ite, ite_self, ite_fst, implies_true, eq_self, h_fe, h_xl, h_tb, h_sp, h_up, h_gs, h_fl, h_tel, h_pw, h_out, forEach_hide, endTurn_hide, fabSettle_hide, grantReads_hide, reserveAll_hide, takeRead_hide])

theorem execCompletionReserve_hide (h_fe : M .fe = true) (h_xl : M .xl = true) (h_sp : M .sp = true) (h_up : M .up = true) (h_fl : M .fl = true) (h_tel : M .tel = true) (h_out : M .out = true) (cpl : Nat) (s : State) (t : State) (e : execCompletionReserve cpl s = .next t) : hide M t = hide M s := by
  simp only [execCompletionReserve, Host.Outcome.next.injEq] at e
  subst e
  repeat' first
    | with_reducible rfl
    | (simp only [hide_ite, ite_self, ite_fst, implies_true, eq_self, h_fe, h_xl, h_sp, h_up, h_fl, h_tel, h_out, reserveAll_hide]; done)
    | with_reducible apply hide_if
    | with_reducible apply hide_if1
    | split
    | (rw [forEach_hide])
    | (rw [foldl_hide])
    | (rw [foldlS_hide])
    | (intro; intros; try dsimp only)
    | (simp only [hide_ite, ite_self, ite_fst, implies_true, eq_self, h_fe, h_xl, h_sp, h_up, h_fl, h_tel, h_out, reserveAll_hide])

theorem recordWrite_hide (h_regs : M .regs = true) (h_fe : M .fe = true) (h_xl : M .xl = true) (h_sp : M .sp = true) (h_qz : M .qz = true) (h_up : M .up = true) (h_fl : M .fl = true) (h_tel : M .tel = true) (h_pw : M .pw = true) (h_out : M .out = true) (s : State) (id : Nat) : hide M (State.recordWrite s id) = hide M s := by
  unfold State.recordWrite
  try dsimp only
  repeat' first
    | with_reducible rfl
    | (simp only [hide_ite, ite_self, ite_fst, implies_true, eq_self, h_regs, h_fe, h_xl, h_sp, h_qz, h_up, h_fl, h_tel, h_pw, h_out, finishRecord_hide, setDesc_hide]; done)
    | with_reducible apply hide_if
    | with_reducible apply hide_if1
    | split
    | (rw [forEach_hide])
    | (rw [foldl_hide])
    | (rw [foldlS_hide])
    | (intro; intros; try dsimp only)
    | (simp only [hide_ite, ite_self, ite_fst, implies_true, eq_self, h_regs, h_fe, h_xl, h_sp, h_qz, h_up, h_fl, h_tel, h_pw, h_out, finishRecord_hide, setDesc_hide])

theorem modTime_hide (h_fe : M .fe = true) (h_out : M .out = true) (s : State) (k : Nat) : hide M (State.modTime s k) = hide M s := by
  unfold State.modTime
  simp only [hide_ite, ite_self, eq_self, h_fe, h_out, irq_hide]

theorem execModTimeExpiry_hide (h_fe : M .fe = true) (h_out : M .out = true) (ring : Nat) (s : State) (t : State) (e : execModTimeExpiry ring s = .next t) : hide M t = hide M s := by
  refine next_hide e ?_
  simp only [eq_self, h_fe, h_out, modTime_hide]

theorem execNop_hide (h_fe : M .fe = true) (id : Nat) (s : State) (t : State) (e : execNop id s = .next t) : hide M t = hide M s := by
  refine next_hide e ?_
  (repeat' split) <;> simp only [eq_self, h_fe, endOk_hide]

theorem markerPoint_hide (h_tel : M .tel = true) (h_out : M .out = true) (s : State) (d : Desc) (taken : Bool) : hide M (State.markerPoint s d taken) = hide M s := by
  unfold State.markerPoint
  try dsimp only
  repeat' first
    | with_reducible rfl
    | (simp only [hide_ite, ite_self, ite_fst, implies_true, eq_self, h_tel, h_out, count_hide, send_hide, tell_hide]; done)
    | with_reducible apply hide_if
    | with_reducible apply hide_if1
    | split
    | (rw [forEach_hide])
    | (rw [foldl_hide])
    | (rw [foldlS_hide])
    | (intro; intros; try dsimp only)
    | (simp only [hide_ite, ite_self, ite_fst, implies_true, eq_self, h_tel, h_out, count_hide, send_hide, tell_hide])

theorem execMarker_hide (h_fe : M .fe = true) (h_tel : M .tel = true) (h_out : M .out = true) (id : Traced) (s : State) (t : State) (e : execMarker id s = .next t) : hide M t = hide M s := by
  simp only [execMarker, Host.Outcome.next.injEq] at e
  subst e
  repeat' first
    | with_reducible rfl
    | (simp only [hide_ite, ite_self, ite_fst, implies_true, eq_self, h_fe, h_tel, h_out, endOk_hide, markerPoint_hide]; done)
    | with_reducible apply hide_if
    | with_reducible apply hide_if1
    | split
    | (rw [forEach_hide])
    | (rw [foldl_hide])
    | (rw [foldlS_hide])
    | (intro; intros; try dsimp only)
    | (simp only [hide_ite, ite_self, ite_fst, implies_true, eq_self, h_fe, h_tel, h_out, endOk_hide, markerPoint_hide])

theorem execFenceOrder_hide (h_fe : M .fe = true) (h_xl : M .xl = true) (h_sp : M .sp = true) (h_up : M .up = true) (h_fl : M .fl = true) (h_tel : M .tel = true) (h_out : M .out = true) (id : Nat) (s : State) (t : State) (e : execFenceOrder id s = .next t) : hide M t = hide M s := by
  simp only [execFenceOrder, Host.Outcome.next.injEq] at e
  subst e
  repeat' first
    | with_reducible rfl
    | (simp only [hide_ite, ite_self, ite_fst, implies_true, eq_self, h_fe, h_xl, h_sp, h_up, h_fl, h_tel, h_out, endWait_hide]; done)
    | with_reducible apply hide_if
    | with_reducible apply hide_if1
    | split
    | (rw [forEach_hide])
    | (rw [foldl_hide])
    | (rw [foldlS_hide])
    | (intro; intros; try dsimp only)
    | (simp only [hide_ite, ite_self, ite_fst, implies_true, eq_self, h_fe, h_xl, h_sp, h_up, h_fl, h_tel, h_out, endWait_hide])

theorem execFenceVisible_hide (h_fe : M .fe = true) (h_xl : M .xl = true) (h_sp : M .sp = true) (h_up : M .up = true) (h_fl : M .fl = true) (h_tel : M .tel = true) (h_out : M .out = true) (id : Nat) (s : State) (t : State) (e : execFenceVisible id s = .next t) : hide M t = hide M s := by
  simp only [execFenceVisible, Host.Outcome.next.injEq] at e
  subst e
  repeat' first
    | with_reducible rfl
    | (simp only [hide_ite, ite_self, ite_fst, implies_true, eq_self, h_fe, h_xl, h_sp, h_up, h_fl, h_tel, h_out, endWait_hide, onRing_hide]; done)
    | with_reducible apply hide_if
    | with_reducible apply hide_if1
    | split
    | (rw [forEach_hide])
    | (rw [foldl_hide])
    | (rw [foldlS_hide])
    | (intro; intros; try dsimp only)
    | (simp only [hide_ite, ite_self, ite_fst, implies_true, eq_self, h_fe, h_xl, h_sp, h_up, h_fl, h_tel, h_out, endWait_hide, onRing_hide])

theorem execWait_hide (h_fe : M .fe = true) (h_xl : M .xl = true) (h_sp : M .sp = true) (h_up : M .up = true) (h_fl : M .fl = true) (h_tel : M .tel = true) (h_out : M .out = true) (id : Nat) (s : State) (t : State) (e : execWait id s = .next t) : hide M t = hide M s := by
  simp only [execWait, Host.Outcome.next.injEq] at e
  subst e
  repeat' first
    | with_reducible rfl
    | (simp only [hide_ite, ite_self, ite_fst, implies_true, eq_self, h_fe, h_xl, h_sp, h_up, h_fl, h_tel, h_out, doneSeq_hide, endWait_hide]; done)
    | with_reducible apply hide_if
    | with_reducible apply hide_if1
    | split
    | (rw [forEach_hide])
    | (rw [foldl_hide])
    | (rw [foldlS_hide])
    | (intro; intros; try dsimp only)
    | (simp only [hide_ite, ite_self, ite_fst, implies_true, eq_self, h_fe, h_xl, h_sp, h_up, h_fl, h_tel, h_out, doneSeq_hide, endWait_hide])

theorem execWaitTimeout_hide (h_fe : M .fe = true) (h_xl : M .xl = true) (h_sp : M .sp = true) (h_up : M .up = true) (h_fl : M .fl = true) (h_tel : M .tel = true) (h_out : M .out = true) (id : Nat) (s : State) (t : State) (e : execWaitTimeout id s = .next t) : hide M t = hide M s := by
  simp only [execWaitTimeout, Host.Outcome.next.injEq] at e
  subst e
  repeat' first
    | with_reducible rfl
    | (simp only [hide_ite, ite_self, ite_fst, implies_true, eq_self, h_fe, h_xl, h_sp, h_up, h_fl, h_tel, h_out, count_hide, doneSeq_hide, endWait_hide]; done)
    | with_reducible apply hide_if
    | with_reducible apply hide_if1
    | split
    | (rw [forEach_hide])
    | (rw [foldl_hide])
    | (rw [foldlS_hide])
    | (intro; intros; try dsimp only)
    | (simp only [hide_ite, ite_self, ite_fst, implies_true, eq_self, h_fe, h_xl, h_sp, h_up, h_fl, h_tel, h_out, count_hide, doneSeq_hide, endWait_hide])

end Sys2Proof.Laws
end

