-- ==== Sys2Proof/Laws/FrameRings.lean ====
section
/-!
SUPPORT. Frames of what Machine/Rings.lean defines: the parts of the state that each may change.
-/

namespace Sys2Proof.Laws

open Sys2Proof.Machine

variable {M : Mask}

theorem ringCmd_hide (h_regs : M .regs = true) (h_tel : M .tel = true) (h_st : M .st = true) (h_out : M .out = true) (s : State) (p : Path) (ring op : Nat) (run : State → State) (h_run : ∀ (x0 : State), hide M (run x0) = hide M x0) : hide M (State.ringCmd s p ring op run) = hide M s := by
  unfold State.ringCmd
  try dsimp only
  repeat' first
    | with_reducible rfl
    | (simp only [hide_ite, ite_self, ite_fst, implies_true, eq_self, h_regs, h_tel, h_st, h_out, h_run, command_hide, onSt_hide, put_ringCmd_hide]; done)
    | with_reducible apply hide_if
    | with_reducible apply hide_if1
    | split
    | (rw [forEach_hide])
    | (rw [foldl_hide])
    | (rw [foldlS_hide])
    | (rw [command_hide])
    | assumption
    | (intro; intros; try dsimp only)
    | (simp only [hide_ite, ite_self, ite_fst, implies_true, eq_self, h_regs, h_tel, h_st, h_out, h_run, command_hide, onSt_hide, put_ringCmd_hide])

theorem ringDone_hide (h_regs : M .regs = true) (h_tel : M .tel = true) (h_st : M .st = true) (h_out : M .out = true) (s : State) (p : Path) (result : Nat) : hide M (State.ringDone s p result) = hide M s := by
  unfold State.ringDone
  try dsimp only
  repeat' first
    | with_reducible rfl
    | (simp only [hide_ite, ite_self, ite_fst, implies_true, eq_self, h_regs, h_tel, h_st, h_out, finish_hide, ringCmd_hide, put_ringCmd_hide]; done)
    | with_reducible apply hide_if
    | with_reducible apply hide_if1
    | split
    | (rw [forEach_hide])
    | (rw [foldl_hide])
    | (rw [foldlS_hide])
    | (rw [finish_hide])
    | (rw [ringCmd_hide])
    | assumption
    | (intro; intros; try dsimp only)
    | (simp only [hide_ite, ite_self, ite_fst, implies_true, eq_self, h_regs, h_tel, h_st, h_out, finish_hide, ringCmd_hide, put_ringCmd_hide])

theorem enableRing_hide (h_regs : M .regs = true) (h_fe : M .fe = true) (h_up : M .up = true) (h_tel : M .tel = true) (h_pw : M .pw = true) (h_st : M .st = true) (h_out : M .out = true) (s : State) (p : Path) (k : Nat) (entry : Bytes) : hide M (State.enableRing s p k entry) = hide M s := by
  unfold State.enableRing
  try dsimp only
  repeat' first
    | with_reducible rfl
    | (simp only [hide_ite, ite_self, ite_fst, implies_true, eq_self, h_regs, h_fe, h_up, h_tel, h_pw, h_st, h_out, adoptWord_hide, fitRing_hide, ringDone_hide, setRing_hide]; done)
    | with_reducible apply hide_if
    | with_reducible apply hide_if1
    | split
    | (rw [forEach_hide])
    | (rw [foldl_hide])
    | (rw [foldlS_hide])
    | (intro; intros; try dsimp only)
    | (simp only [hide_ite, ite_self, ite_fst, implies_true, eq_self, h_regs, h_fe, h_up, h_tel, h_pw, h_st, h_out, adoptWord_hide, fitRing_hide, ringDone_hide, setRing_hide])

theorem execEnable_hide (h_regs : M .regs = true) (h_fe : M .fe = true) (h_up : M .up = true) (h_tel : M .tel = true) (h_pw : M .pw = true) (h_st : M .st = true) (h_out : M .out = true) (p : Path) (ring : Nat) (entry : Bytes) (s : State) (t : State) (e : execEnable p ring entry s = .next t) : hide M t = hide M s := by
  simp only [execEnable, Host.Outcome.next.injEq] at e
  subst e
  repeat' first
    | with_reducible rfl
    | (simp only [hide_ite, ite_self, ite_fst, implies_true, eq_self, h_regs, h_fe, h_up, h_tel, h_pw, h_st, h_out, enableRing_hide, ringCmd_hide]; done)
    | with_reducible apply hide_if
    | with_reducible apply hide_if1
    | split
    | (rw [forEach_hide])
    | (rw [foldl_hide])
    | (rw [foldlS_hide])
    | (rw [ringCmd_hide])
    | assumption
    | (intro; intros; try dsimp only)
    | (simp only [hide_ite, ite_self, ite_fst, implies_true, eq_self, h_regs, h_fe, h_up, h_tel, h_pw, h_st, h_out, enableRing_hide, ringCmd_hide])

theorem discardQueued_hide (h_regs : M .regs = true) (h_fe : M .fe = true) (h_sp : M .sp = true) (h_qz : M .qz = true) (s : State) (k : Nat) : hide M (State.discardQueued s k) = hide M s := by
  unfold State.discardQueued
  simp only [eq_self, h_regs, h_fe, h_sp, h_qz, dropKept_hide, endLoad_hide, onFe_hide, onSp_hide]

theorem abandonSorting_hide (h_fe : M .fe = true) (h_sp : M .sp = true) (h_up : M .up = true) (h_fl : M .fl = true) (s : State) (k : Nat) : hide M (State.abandonSorting s k) = hide M s := by
  unfold State.abandonSorting
  try dsimp only
  repeat' first
    | with_reducible rfl
    | (simp only [hide_ite, ite_self, ite_fst, implies_true, eq_self, h_fe, h_sp, h_up, h_fl, forEach_hide, abandon_hide, endDesc_hide]; done)
    | with_reducible apply hide_if
    | with_reducible apply hide_if1
    | split
    | (rw [forEach_hide])
    | (rw [foldl_hide])
    | (rw [foldlS_hide])
    | (intro; intros; try dsimp only)
    | (simp only [hide_ite, ite_self, ite_fst, implies_true, eq_self, h_fe, h_sp, h_up, h_fl, forEach_hide, abandon_hide, endDesc_hide])

theorem stopRing_hide (h_regs : M .regs = true) (h_fe : M .fe = true) (h_xl : M .xl = true) (h_sp : M .sp = true) (h_qz : M .qz = true) (h_up : M .up = true) (h_fl : M .fl = true) (h_tel : M .tel = true) (h_st : M .st = true) (h_out : M .out = true) (s : State) (p : Path) (k : Nat) : hide M (State.stopRing s p k) = hide M s := by
  unfold State.stopRing
  try dsimp only
  repeat' first
    | with_reducible rfl
    | (simp only [hide_ite, ite_self, ite_fst, implies_true, eq_self, h_regs, h_fe, h_xl, h_sp, h_qz, h_up, h_fl, h_tel, h_st, h_out, abandonSorting_hide, discardQueued_hide, drained_hide, fitRing_hide, onFe_hide, ringDone_hide, setRing_hide]; done)
    | with_reducible apply hide_if
    | with_reducible apply hide_if1
    | split
    | (rw [forEach_hide])
    | (rw [foldl_hide])
    | (rw [foldlS_hide])
    | (intro; intros; try dsimp only)
    | (simp only [hide_ite, ite_self, ite_fst, implies_true, eq_self, h_regs, h_fe, h_xl, h_sp, h_qz, h_up, h_fl, h_tel, h_st, h_out, abandonSorting_hide, discardQueued_hide, drained_hide, fitRing_hide, onFe_hide, ringDone_hide, setRing_hide])

theorem pauseRing_hide (h_regs : M .regs = true) (h_fe : M .fe = true) (h_tel : M .tel = true) (h_st : M .st = true) (h_out : M .out = true) (s : State) (p : Path) (k : Nat) : hide M (State.pauseRing s p k) = hide M s := by
  unfold State.pauseRing
  try dsimp only
  repeat' first
    | with_reducible rfl
    | (simp only [hide_ite, ite_self, ite_fst, implies_true, eq_self, h_regs, h_fe, h_tel, h_st, h_out, onFe_hide, onRing_hide, ringDone_hide]; done)
    | with_reducible apply hide_if
    | with_reducible apply hide_if1
    | split
    | (rw [forEach_hide])
    | (rw [foldl_hide])
    | (rw [foldlS_hide])
    | (intro; intros; try dsimp only)
    | (simp only [hide_ite, ite_self, ite_fst, implies_true, eq_self, h_regs, h_fe, h_tel, h_st, h_out, onFe_hide, onRing_hide, ringDone_hide])

theorem flushHeld_hide (h_regs : M .regs = true) (h_fe : M .fe = true) (h_xl : M .xl = true) (h_sp : M .sp = true) (h_qz : M .qz = true) (h_up : M .up = true) (h_fl : M .fl = true) (h_tel : M .tel = true) (h_pw : M .pw = true) (h_out : M .out = true) (s : State) : hide M (State.flushHeld s) = hide M s := by
  unfold State.flushHeld
  try dsimp only
  repeat' first
    | with_reducible rfl
    | (simp only [hide_ite, ite_self, ite_fst, implies_true, eq_self, h_regs, h_fe, h_xl, h_sp, h_qz, h_up, h_fl, h_tel, h_pw, h_out, forEach_hide, finishRecord_hide]; done)
    | with_reducible apply hide_if
    | with_reducible apply hide_if1
    | split
    | (rw [forEach_hide])
    | (rw [foldl_hide])
    | (rw [foldlS_hide])
    | (intro; intros; try dsimp only)
    | (simp only [hide_ite, ite_self, ite_fst, implies_true, eq_self, h_regs, h_fe, h_xl, h_sp, h_qz, h_up, h_fl, h_tel, h_pw, h_out, forEach_hide, finishRecord_hide])

theorem replayAll_hide (h_regs : M .regs = true) (h_fe : M .fe = true) (h_xl : M .xl = true) (h_sp : M .sp = true) (h_qz : M .qz = true) (h_up : M .up = true) (h_gs : M .gs = true) (h_fl : M .fl = true) (h_tel : M .tel = true) (h_out : M .out = true) (s : State) (k : Nat) : hide M (State.replayAll s k) = hide M s := by
  unfold State.replayAll
  try dsimp only
  repeat' first
    | with_reducible rfl
    | (simp only [hide_ite, ite_self, ite_fst, implies_true, eq_self, h_regs, h_fe, h_xl, h_sp, h_qz, h_up, h_gs, h_fl, h_tel, h_out, forEach_hide, endLoad_hide, letIn_hide, replay_hide, setDesc_hide]; done)
    | with_reducible apply hide_if
    | with_reducible apply hide_if1
    | split
    | (rw [forEach_hide])
    | (rw [foldl_hide])
    | (rw [foldlS_hide])
    | (intro; intros; try dsimp only)
    | (simp only [hide_ite, ite_self, ite_fst, implies_true, eq_self, h_regs, h_fe, h_xl, h_sp, h_qz, h_up, h_gs, h_fl, h_tel, h_out, forEach_hide, endLoad_hide, letIn_hide, replay_hide, setDesc_hide])

theorem resumeRing_hide (h_regs : M .regs = true) (h_fe : M .fe = true) (h_xl : M .xl = true) (h_sp : M .sp = true) (h_qz : M .qz = true) (h_up : M .up = true) (h_gs : M .gs = true) (h_fl : M .fl = true) (h_tel : M .tel = true) (h_pw : M .pw = true) (h_st : M .st = true) (h_out : M .out = true) (s : State) (p : Path) (k : Nat) (entry : Bytes) : hide M (State.resumeRing s p k entry) = hide M s := by
  unfold State.resumeRing
  try dsimp only
  repeat' first
    | with_reducible rfl
    | (simp only [hide_ite, ite_self, ite_fst, implies_true, eq_self, h_regs, h_fe, h_xl, h_sp, h_qz, h_up, h_gs, h_fl, h_tel, h_pw, h_st, h_out, adoptWord_hide, announce_hide, drained_hide, fitRing_hide, flushHeld_hide, replayAll_hide, reserveAll_hide, ringDone_hide, setRing_hide]; done)
    | with_reducible apply hide_if
    | with_reducible apply hide_if1
    | split
    | (rw [forEach_hide])
    | (rw [foldl_hide])
    | (rw [foldlS_hide])
    | (intro; intros; try dsimp only)
    | (simp only [hide_ite, ite_self, ite_fst, implies_true, eq_self, h_regs, h_fe, h_xl, h_sp, h_qz, h_up, h_gs, h_fl, h_tel, h_pw, h_st, h_out, adoptWord_hide, announce_hide, drained_hide, fitRing_hide, flushHeld_hide, replayAll_hide, reserveAll_hide, ringDone_hide, setRing_hide])

theorem execResume_hide (h_regs : M .regs = true) (h_fe : M .fe = true) (h_xl : M .xl = true) (h_sp : M .sp = true) (h_qz : M .qz = true) (h_up : M .up = true) (h_gs : M .gs = true) (h_fl : M .fl = true) (h_tel : M .tel = true) (h_pw : M .pw = true) (h_st : M .st = true) (h_out : M .out = true) (p : Path) (ring : Nat) (entry : Bytes) (s : State) (t : State) (e : execResume p ring entry s = .next t) : hide M t = hide M s := by
  simp only [execResume, Host.Outcome.next.injEq] at e
  subst e
  repeat' first
    | with_reducible rfl
    | (simp only [hide_ite, ite_self, ite_fst, implies_true, eq_self, h_regs, h_fe, h_xl, h_sp, h_qz, h_up, h_gs, h_fl, h_tel, h_pw, h_st, h_out, resumeRing_hide, ringCmd_hide]; done)
    | with_reducible apply hide_if
    | with_reducible apply hide_if1
    | split
    | (rw [forEach_hide])
    | (rw [foldl_hide])
    | (rw [foldlS_hide])
    | (rw [ringCmd_hide])
    | assumption
    | (intro; intros; try dsimp only)
    | (simp only [hide_ite, ite_self, ite_fst, implies_true, eq_self, h_regs, h_fe, h_xl, h_sp, h_qz, h_up, h_gs, h_fl, h_tel, h_pw, h_st, h_out, resumeRing_hide, ringCmd_hide])

theorem resetCmd_hide (h_regs : M .regs = true) (h_fe : M .fe = true) (h_xl : M .xl = true) (h_sp : M .sp = true) (h_qz : M .qz = true) (h_up : M .up = true) (h_fl : M .fl = true) (h_tel : M .tel = true) (h_pw : M .pw = true) (h_st : M .st = true) (h_out : M .out = true) (s : State) (p : Path) (k : Nat) : hide M (State.resetCmd s p k) = hide M s := by
  unfold State.resetCmd
  try dsimp only
  repeat' first
    | with_reducible rfl
    | (simp only [hide_ite, ite_self, ite_fst, implies_true, eq_self, h_regs, h_fe, h_xl, h_sp, h_qz, h_up, h_fl, h_tel, h_pw, h_st, h_out, resetRing_hide, ringDone_hide]; done)
    | with_reducible apply hide_if
    | with_reducible apply hide_if1
    | split
    | (rw [forEach_hide])
    | (rw [foldl_hide])
    | (rw [foldlS_hide])
    | (intro; intros; try dsimp only)
    | (simp only [hide_ite, ite_self, ite_fst, implies_true, eq_self, h_regs, h_fe, h_xl, h_sp, h_qz, h_up, h_fl, h_tel, h_pw, h_st, h_out, resetRing_hide, ringDone_hide])

theorem execDumpAll_hide (h_regs : M .regs = true) (h_tel : M .tel = true) (h_st : M .st = true) (h_out : M .out = true) (p : RingWrite) (s : State) (t : State) (e : execDumpAll p s = .next t) : hide M t = hide M s := by
  simp only [execDumpAll, Host.Outcome.next.injEq] at e
  subst e
  repeat' first
    | with_reducible rfl
    | (simp only [hide_ite, ite_self, ite_fst, implies_true, eq_self, h_regs, h_tel, h_st, h_out, ringCmd_hide, ringDone_hide, sendAll_hide]; done)
    | with_reducible apply hide_if
    | with_reducible apply hide_if1
    | split
    | (rw [forEach_hide])
    | (rw [foldl_hide])
    | (rw [foldlS_hide])
    | (rw [ringCmd_hide])
    | assumption
    | (intro; intros; try dsimp only)
    | (simp only [hide_ite, ite_self, ite_fst, implies_true, eq_self, h_regs, h_tel, h_st, h_out, ringCmd_hide, ringDone_hide, sendAll_hide])

theorem execDumpOne_hide (h_regs : M .regs = true) (h_tel : M .tel = true) (h_st : M .st = true) (h_out : M .out = true) (p : Path) (ring : Nat) (s : State) (t : State) (e : execDumpOne p ring s = .next t) : hide M t = hide M s := by
  simp only [execDumpOne, Host.Outcome.next.injEq] at e
  subst e
  repeat' first
    | with_reducible rfl
    | (simp only [hide_ite, ite_self, ite_fst, implies_true, eq_self, h_regs, h_tel, h_st, h_out, ringCmd_hide, ringDone_hide, send_hide]; done)
    | with_reducible apply hide_if
    | with_reducible apply hide_if1
    | split
    | (rw [forEach_hide])
    | (rw [foldl_hide])
    | (rw [foldlS_hide])
    | (rw [ringCmd_hide])
    | assumption
    | (intro; intros; try dsimp only)
    | (simp only [hide_ite, ite_self, ite_fst, implies_true, eq_self, h_regs, h_tel, h_st, h_out, ringCmd_hide, ringDone_hide, send_hide])

end Sys2Proof.Laws
end

