-- ==== Sys2Proof/Laws/FrameWindows.lean ====
section
/-!
SUPPORT. Frames of what Machine/Windows.lean defines: the parts of the state that each may change.
-/

namespace Sys2Proof.Laws

open Sys2Proof.Machine

variable {M : Mask}

theorem enterWindow_hide (h_sp : M .sp = true) (h_tel : M .tel = true) (s : State) (m : Member') (pack : Bool) : hide M (State.enterWindow s m pack).1 = hide M s := by
  unfold State.enterWindow
  try dsimp only
  repeat' first
    | with_reducible rfl
    | (simp only [set_sp_hide, hide_ite, ite_self, ite_fst, implies_true, eq_self, h_sp, h_tel, count_hide]; done)
    | with_reducible apply hide_if
    | with_reducible apply hide_if1
    | split
    | (rw [forEach_hide])
    | (rw [foldl_hide])
    | (rw [foldlS_hide])
    | (intro; intros; try dsimp only)
    | (simp only [set_sp_hide, hide_ite, ite_self, ite_fst, implies_true, eq_self, h_sp, h_tel, count_hide])

theorem bindBank_hide (h_fe : M .fe = true) (s : State) (id : Nat) : hide M (State.bindBank s id) = hide M s := by
  unfold State.bindBank
  simp only [eq_self, h_fe, onDesc_hide]

theorem wakeSlices_hide (h_pw : M .pw = true) (h_out : M .out = true) (s : State) (d : Desc) : hide M (State.wakeSlices s d) = hide M s := by
  unfold State.wakeSlices
  simp only [hide_ite, ite_self, eq_self, h_pw, h_out, onPw_hide, send_hide]

theorem admitWindow_hide (h_fe : M .fe = true) (h_sp : M .sp = true) (h_tel : M .tel = true) (h_pw : M .pw = true) (h_out : M .out = true) (s : State) (d : Desc) : hide M (State.admitWindow s d) = hide M s := by
  unfold State.admitWindow
  simp only [hide_ite, ite_self, eq_self, h_fe, h_sp, h_tel, h_pw, h_out, bindBank_hide, enterWindow_hide, onDesc_hide, onFe_hide, wakeSlices_hide]

theorem reserveWindow_hide (h_sp : M .sp = true) (s : State) (w : Window) : hide M (State.reserveWindow s w) = hide M s := by
  unfold State.reserveWindow
  simp only [eq_self, h_sp, onSp_hide]

theorem intakeFail_hide (h_fe : M .fe = true) (h_tel : M .tel = true) (s : State) (d : Desc) (st : Stop) : hide M (State.intakeFail s d st) = hide M s := by
  unfold State.intakeFail
  simp only [eq_self, h_fe, h_tel, countN_hide, endDesc_hide]

theorem intakeOne_hide (h_fe : M .fe = true) (h_tb : M .tb = true) (h_gs : M .gs = true) (h_tel : M .tel = true) (s : State) (d : Desc) (m : Member') (f : WinFeed) : hide M (State.intakeOne s d m f).1 = hide M s := by
  unfold State.intakeOne
  try dsimp only
  repeat' first
    | with_reducible rfl
    | (simp only [hide_ite, ite_self, ite_fst, implies_true, eq_self, h_fe, h_tb, h_gs, h_tel, forEach_hide, countN_hide, intakeFail_hide, onDesc_hide, seeTable_hide]; done)
    | with_reducible apply hide_if
    | with_reducible apply hide_if1
    | split
    | (rw [forEach_hide])
    | (rw [foldl_hide])
    | (rw [foldlS_hide])
    | (intro; intros; try dsimp only)
    | (simp only [hide_ite, ite_self, ite_fst, implies_true, eq_self, h_fe, h_tb, h_gs, h_tel, forEach_hide, countN_hide, intakeFail_hide, onDesc_hide, seeTable_hide])

theorem intakeAll_hide (h_fe : M .fe = true) (h_xl : M .xl = true) (h_tb : M .tb = true) (h_sp : M .sp = true) (h_up : M .up = true) (h_gs : M .gs = true) (h_fl : M .fl = true) (h_tel : M .tel = true) (h_pw : M .pw = true) (h_out : M .out = true) (s : State) (feeds : List (Nat × WinFeed)) (y0 : List Member') : hide M (State.intakeAll s feeds y0).1 = hide M s := by
  fun_induction State.intakeAll s feeds y0
  all_goals
    repeat' first
      | with_reducible rfl
      | assumption
      | (simp +zetaDelta only [*, hide_ite, ite_self, ite_fst, implies_true, eq_self, h_fe, h_xl, h_tb, h_sp, h_up, h_gs, h_fl, h_tel, h_pw, h_out, inputsDone_hide, intakeOne_hide]; done)
      | with_reducible apply hide_if
      | with_reducible apply hide_if1
      | split
      | (rw [forEach_hide])
      | (rw [foldl_hide])
      | (rw [foldlS_hide])
      | (intro; intros; try dsimp only)
      | (simp +zetaDelta only [*, hide_ite, ite_self, ite_fst, implies_true, eq_self, h_fe, h_xl, h_tb, h_sp, h_up, h_gs, h_fl, h_tel, h_pw, h_out, inputsDone_hide, intakeOne_hide])

theorem startWindow_hide (h_fe : M .fe = true) (h_xl : M .xl = true) (h_tb : M .tb = true) (h_sp : M .sp = true) (h_up : M .up = true) (h_gs : M .gs = true) (h_fl : M .fl = true) (h_tel : M .tel = true) (h_pw : M .pw = true) (h_out : M .out = true) (s : State) (w : Window) (sorter : Nat) (feeds : List (Nat × WinFeed)) : hide M (State.startWindow s w sorter feeds) = hide M s := by
  unfold State.startWindow
  try dsimp only
  repeat' first
    | with_reducible rfl
    | (simp only [hide_ite, ite_self, ite_fst, implies_true, eq_self, h_fe, h_xl, h_tb, h_sp, h_up, h_gs, h_fl, h_tel, h_pw, h_out, count_hide, intakeAll_hide, onSp_hide, reserveWindow_hide, tell_hide]; done)
    | with_reducible apply hide_if
    | with_reducible apply hide_if1
    | split
    | (rw [forEach_hide])
    | (rw [foldl_hide])
    | (rw [foldlS_hide])
    | (intro; intros; try dsimp only)
    | (simp only [hide_ite, ite_self, ite_fst, implies_true, eq_self, h_fe, h_xl, h_tb, h_sp, h_up, h_gs, h_fl, h_tel, h_pw, h_out, count_hide, intakeAll_hide, onSp_hide, reserveWindow_hide, tell_hide])

theorem takeAgain_hide (h_fe : M .fe = true) (h_xl : M .xl = true) (h_tb : M .tb = true) (h_sp : M .sp = true) (h_up : M .up = true) (h_gs : M .gs = true) (h_fl : M .fl = true) (h_tel : M .tel = true) (h_pw : M .pw = true) (h_out : M .out = true) (s : State) (k : Nat) (feeds : List (Nat × WinFeed)) : hide M (State.takeAgain s k feeds) = hide M s := by
  unfold State.takeAgain
  try dsimp only
  repeat' first
    | with_reducible rfl
    | (simp only [hide_ite, ite_self, ite_fst, implies_true, eq_self, h_fe, h_xl, h_tb, h_sp, h_up, h_gs, h_fl, h_tel, h_pw, h_out, forEach_hide, intakeAll_hide, onSp_hide, readOn_hide]; done)
    | with_reducible apply hide_if
    | with_reducible apply hide_if1
    | split
    | (rw [forEach_hide])
    | (rw [foldl_hide])
    | (rw [foldlS_hide])
    | (intro; intros; try dsimp only)
    | (simp only [hide_ite, ite_self, ite_fst, implies_true, eq_self, h_fe, h_xl, h_tb, h_sp, h_up, h_gs, h_fl, h_tel, h_pw, h_out, forEach_hide, intakeAll_hide, onSp_hide, readOn_hide])

theorem startNext_hide (h_fe : M .fe = true) (h_xl : M .xl = true) (h_tb : M .tb = true) (h_sp : M .sp = true) (h_up : M .up = true) (h_gs : M .gs = true) (h_fl : M .fl = true) (h_tel : M .tel = true) (h_pw : M .pw = true) (h_out : M .out = true) (s : State) (w : Window) (sorter : Nat) (feeds : List (Nat × WinFeed)) : hide M (State.startNext s w sorter feeds) = hide M s := by
  unfold State.startNext
  try dsimp only
  repeat' first
    | with_reducible rfl
    | (simp only [hide_ite, ite_self, ite_fst, implies_true, eq_self, h_fe, h_xl, h_tb, h_sp, h_up, h_gs, h_fl, h_tel, h_pw, h_out, forEach_hide, readOn_hide, startWindow_hide]; done)
    | with_reducible apply hide_if
    | with_reducible apply hide_if1
    | split
    | (rw [forEach_hide])
    | (rw [foldl_hide])
    | (rw [foldlS_hide])
    | (intro; intros; try dsimp only)
    | (simp only [hide_ite, ite_self, ite_fst, implies_true, eq_self, h_fe, h_xl, h_tb, h_sp, h_up, h_gs, h_fl, h_tel, h_pw, h_out, forEach_hide, readOn_hide, startWindow_hide])

theorem startHead_hide (h_fe : M .fe = true) (h_xl : M .xl = true) (h_tb : M .tb = true) (h_sp : M .sp = true) (h_up : M .up = true) (h_gs : M .gs = true) (h_fl : M .fl = true) (h_tel : M .tel = true) (h_pw : M .pw = true) (h_out : M .out = true) (s : State) (feeds : List (Nat × WinFeed)) : hide M (State.startHead s feeds) = hide M s := by
  unfold State.startHead
  try dsimp only
  repeat' first
    | with_reducible rfl
    | (simp only [hide_ite, ite_self, ite_fst, implies_true, eq_self, h_fe, h_xl, h_tb, h_sp, h_up, h_gs, h_fl, h_tel, h_pw, h_out, count_hide, onSp_hide, reserveWindow_hide, startNext_hide]; done)
    | with_reducible apply hide_if
    | with_reducible apply hide_if1
    | split
    | (rw [forEach_hide])
    | (rw [foldl_hide])
    | (rw [foldlS_hide])
    | (intro; intros; try dsimp only)
    | (simp only [hide_ite, ite_self, ite_fst, implies_true, eq_self, h_fe, h_xl, h_tb, h_sp, h_up, h_gs, h_fl, h_tel, h_pw, h_out, count_hide, onSp_hide, reserveWindow_hide, startNext_hide])

theorem windowStart_hide (h_fe : M .fe = true) (h_xl : M .xl = true) (h_tb : M .tb = true) (h_sp : M .sp = true) (h_up : M .up = true) (h_gs : M .gs = true) (h_fl : M .fl = true) (h_tel : M .tel = true) (h_pw : M .pw = true) (h_out : M .out = true) (s : State) (feeds : List (Nat × WinFeed)) : hide M (State.windowStart s feeds) = hide M s := by
  unfold State.windowStart
  try dsimp only
  repeat' first
    | with_reducible rfl
    | (simp only [hide_ite, ite_self, ite_fst, implies_true, eq_self, h_fe, h_xl, h_tb, h_sp, h_up, h_gs, h_fl, h_tel, h_pw, h_out, forEach_hide, startHead_hide, takeAgain_hide]; done)
    | with_reducible apply hide_if
    | with_reducible apply hide_if1
    | split
    | (rw [forEach_hide])
    | (rw [foldl_hide])
    | (rw [foldlS_hide])
    | (intro; intros; try dsimp only)
    | (simp only [hide_ite, ite_self, ite_fst, implies_true, eq_self, h_fe, h_xl, h_tb, h_sp, h_up, h_gs, h_fl, h_tel, h_pw, h_out, forEach_hide, startHead_hide, takeAgain_hide])

theorem execWindowStart_hide (h_fe : M .fe = true) (h_xl : M .xl = true) (h_tb : M .tb = true) (h_sp : M .sp = true) (h_up : M .up = true) (h_gs : M .gs = true) (h_fl : M .fl = true) (h_tel : M .tel = true) (h_pw : M .pw = true) (h_out : M .out = true) (feeds : List (Nat × WinFeed)) (s : State) (t : State) (e : execWindowStart feeds s = .next t) : hide M t = hide M s := by
  simp only [execWindowStart, Host.Outcome.next.injEq] at e
  subst e
  repeat' first
    | with_reducible rfl
    | (simp only [hide_ite, ite_self, ite_fst, implies_true, eq_self, h_fe, h_xl, h_tb, h_sp, h_up, h_gs, h_fl, h_tel, h_pw, h_out, windowStart_hide]; done)
    | with_reducible apply hide_if
    | with_reducible apply hide_if1
    | split
    | (rw [forEach_hide])
    | (rw [foldl_hide])
    | (rw [foldlS_hide])
    | (intro; intros; try dsimp only)
    | (simp only [hide_ite, ite_self, ite_fst, implies_true, eq_self, h_fe, h_xl, h_tb, h_sp, h_up, h_gs, h_fl, h_tel, h_pw, h_out, windowStart_hide])

theorem execPackWaitExpiry_hide (h_sp : M .sp = true) (s : State) (t : State) (e : execPackWaitExpiry s = .next t) : hide M t = hide M s := by
  refine next_hide e ?_
  simp only [hide_ite, ite_self, eq_self, h_sp, onSp_hide]

theorem imapFull_hide (h_sp : M .sp = true) (h_tel : M .tel = true) (s : State) : hide M (State.imapFull s) = hide M s := by
  unfold State.imapFull
  (repeat' split) <;> simp only [eq_self, h_sp, h_tel, onSp_hide, tell_hide]

theorem execImapFull_hide (h_sp : M .sp = true) (h_tel : M .tel = true) (s : State) (t : State) (e : execImapFull s = .next t) : hide M t = hide M s := by
  refine next_hide e ?_
  simp only [eq_self, h_sp, h_tel, imapFull_hide]

end Sys2Proof.Laws
end

