-- ==== Sys2Proof/Laws/FrameScatter.lean ====
section
/-!
SUPPORT. Frames of what Machine/Scatter.lean defines: the parts of the state that each may change.
-/

namespace Sys2Proof.Laws

open Sys2Proof.Machine

variable {M : Mask}

theorem fitAll_hide (h_free : M .free = true) (s : State) (y0 : List Contrib) : hide M (State.fitAll s y0).1 = hide M s := by
  fun_induction State.fitAll s y0
  all_goals
    simp +zetaDelta only [*, set_free_hide, eq_self]

theorem sendBatch_hide (h_fe : M .fe = true) (h_up : M .up = true) (h_tel : M .tel = true) (h_pw : M .pw = true) (h_out : M .out = true) (s : State) (id : Nat) (epoch : BitVec 32) (node : BitVec 16) (cs : List Contrib) : hide M (State.sendBatch s id epoch node cs) = hide M s := by
  unfold State.sendBatch
  try dsimp only
  repeat' first
    | with_reducible rfl
    | (simp only [hide_ite, ite_self, ite_fst, implies_true, eq_self, h_fe, h_up, h_tel, h_pw, h_out, countN_hide, fabSendAll_hide, onUp_hide]; done)
    | with_reducible apply hide_if
    | with_reducible apply hide_if1
    | split
    | (rw [forEach_hide])
    | (rw [foldl_hide])
    | (rw [foldlS_hide])
    | (intro; intros; try dsimp only)
    | (simp only [hide_ite, ite_self, ite_fst, implies_true, eq_self, h_fe, h_up, h_tel, h_pw, h_out, countN_hide, fabSendAll_hide, onUp_hide])

theorem sendForwards_hide (h_fe : M .fe = true) (h_up : M .up = true) (h_tel : M .tel = true) (h_pw : M .pw = true) (h_out : M .out = true) (s : State) (id : Nat) (epoch : BitVec 32) (fs : List (BitVec 16 × Contrib)) : hide M (State.sendForwards s id epoch fs) = hide M s := by
  unfold State.sendForwards
  try dsimp only
  repeat' first
    | with_reducible rfl
    | (simp only [hide_ite, ite_self, ite_fst, implies_true, eq_self, h_fe, h_up, h_tel, h_pw, h_out, forEach_hide, sendBatch_hide]; done)
    | with_reducible apply hide_if
    | with_reducible apply hide_if1
    | split
    | (rw [forEach_hide])
    | (rw [foldl_hide])
    | (rw [foldlS_hide])
    | (intro; intros; try dsimp only)
    | (simp only [hide_ite, ite_self, ite_fst, implies_true, eq_self, h_fe, h_up, h_tel, h_pw, h_out, forEach_hide, sendBatch_hide])

theorem endScatter_hide (h_fe : M .fe = true) (s : State) (id : Nat) : hide M (State.endScatter s id) = hide M s := by
  unfold State.endScatter
  (repeat' split) <;> simp only [eq_self, h_fe, onDesc_hide, settle_hide]

theorem endReserve_hide (h_up : M .up = true) (s : State) (id : Nat) : hide M (State.endReserve s id) = hide M s := by
  unfold State.endReserve
  simp only [eq_self, h_up, onUp_hide]

theorem accept_hide (h_fe : M .fe = true) (h_up : M .up = true) (h_gs : M .gs = true) (h_tel : M .tel = true) (h_pw : M .pw = true) (h_free : M .free = true) (h_out : M .out = true) (s : State) (d : Desc) (epoch : BitVec 32) (own : List Contrib) (fs : List (BitVec 16 × Contrib)) : hide M (State.accept s d epoch own fs) = hide M s := by
  unfold State.accept
  try dsimp only
  repeat' first
    | with_reducible rfl
    | (simp only [hide_ite, ite_self, ite_fst, implies_true, eq_self, h_fe, h_up, h_gs, h_tel, h_pw, h_free, h_out, acceptAll_hide, endDesc_hide, endReserve_hide, endScatter_hide, fitAll_hide, onDesc_hide, sendForwards_hide]; done)
    | with_reducible apply hide_if
    | with_reducible apply hide_if1
    | split
    | (rw [forEach_hide])
    | (rw [foldl_hide])
    | (rw [foldlS_hide])
    | (intro; intros; try dsimp only)
    | (simp only [hide_ite, ite_self, ite_fst, implies_true, eq_self, h_fe, h_up, h_gs, h_tel, h_pw, h_free, h_out, acceptAll_hide, endDesc_hide, endReserve_hide, endScatter_hide, fitAll_hide, onDesc_hide, sendForwards_hide])

theorem scatterFault_hide (h_fe : M .fe = true) (h_up : M .up = true) (h_tel : M .tel = true) (s : State) (d : Desc) (st : Stop) : hide M (State.scatterFault s d st) = hide M s := by
  unfold State.scatterFault
  simp only [eq_self, h_fe, h_up, h_tel, endDesc_hide, endReserve_hide, countN_hide]

theorem runScatter_hide (h_fe : M .fe = true) (h_xl : M .xl = true) (h_sp : M .sp = true) (h_up : M .up = true) (h_gs : M .gs = true) (h_fl : M .fl = true) (h_tel : M .tel = true) (h_pw : M .pw = true) (h_free : M .free = true) (h_out : M .out = true) (s : State) (d : Desc) (grad : Feed) : hide M (State.runScatter s d grad) = hide M s := by
  unfold State.runScatter
  try dsimp only
  repeat' first
    | with_reducible rfl
    | (simp only [hide_ite, ite_self, ite_fst, implies_true, eq_self, h_fe, h_xl, h_sp, h_up, h_gs, h_fl, h_tel, h_pw, h_free, h_out, accept_hide, count_hide, inputsDone_hide, readOn_hide, scatterFault_hide]; done)
    | with_reducible apply hide_if
    | with_reducible apply hide_if1
    | split
    | (rw [forEach_hide])
    | (rw [foldl_hide])
    | (rw [foldlS_hide])
    | (intro; intros; try dsimp only)
    | (simp only [hide_ite, ite_self, ite_fst, implies_true, eq_self, h_fe, h_xl, h_sp, h_up, h_gs, h_fl, h_tel, h_pw, h_free, h_out, accept_hide, count_hide, inputsDone_hide, readOn_hide, scatterFault_hide])

theorem scatterLists_hide (h_fe : M .fe = true) (h_xl : M .xl = true) (h_sp : M .sp = true) (h_up : M .up = true) (h_gs : M .gs = true) (h_fl : M .fl = true) (h_tel : M .tel = true) (h_pw : M .pw = true) (h_free : M .free = true) (h_out : M .out = true) (s : State) (id : Nat) (grad : Feed) : hide M (State.scatterLists s id grad) = hide M s := by
  unfold State.scatterLists
  try dsimp only
  repeat' first
    | with_reducible rfl
    | (simp only [hide_ite, ite_self, ite_fst, implies_true, eq_self, h_fe, h_xl, h_sp, h_up, h_gs, h_fl, h_tel, h_pw, h_free, h_out, enterIntake_hide, runScatter_hide]; done)
    | with_reducible apply hide_if
    | with_reducible apply hide_if1
    | split
    | (rw [forEach_hide])
    | (rw [foldl_hide])
    | (rw [foldlS_hide])
    | (intro; intros; try dsimp only)
    | (simp only [hide_ite, ite_self, ite_fst, implies_true, eq_self, h_fe, h_xl, h_sp, h_up, h_gs, h_fl, h_tel, h_pw, h_free, h_out, enterIntake_hide, runScatter_hide])

theorem execScatterGradLists_hide (h_fe : M .fe = true) (h_xl : M .xl = true) (h_sp : M .sp = true) (h_up : M .up = true) (h_gs : M .gs = true) (h_fl : M .fl = true) (h_tel : M .tel = true) (h_pw : M .pw = true) (h_free : M .free = true) (h_out : M .out = true) (id : Nat) (grad : Feed) (s : State) (t : State) (e : execScatterGradLists id grad s = .next t) : hide M t = hide M s := by
  simp only [execScatterGradLists, Host.Outcome.next.injEq] at e
  subst e
  repeat' first
    | with_reducible rfl
    | (simp only [hide_ite, ite_self, ite_fst, implies_true, eq_self, h_fe, h_xl, h_sp, h_up, h_gs, h_fl, h_tel, h_pw, h_free, h_out, scatterLists_hide]; done)
    | with_reducible apply hide_if
    | with_reducible apply hide_if1
    | split
    | (rw [forEach_hide])
    | (rw [foldl_hide])
    | (rw [foldlS_hide])
    | (intro; intros; try dsimp only)
    | (simp only [hide_ite, ite_self, ite_fst, implies_true, eq_self, h_fe, h_xl, h_sp, h_up, h_gs, h_fl, h_tel, h_pw, h_free, h_out, scatterLists_hide])

theorem scatterRows_hide (h_fe : M .fe = true) (h_xl : M .xl = true) (h_sp : M .sp = true) (h_up : M .up = true) (h_gs : M .gs = true) (h_fl : M .fl = true) (h_tel : M .tel = true) (h_pw : M .pw = true) (h_free : M .free = true) (h_out : M .out = true) (s : State) (id : Nat) (grad : Feed) : hide M (State.scatterRows s id grad) = hide M s := by
  unfold State.scatterRows
  try dsimp only
  repeat' first
    | with_reducible rfl
    | (simp only [hide_ite, ite_self, ite_fst, implies_true, eq_self, h_fe, h_xl, h_sp, h_up, h_gs, h_fl, h_tel, h_pw, h_free, h_out, admitWindow_hide, endDesc_hide, runScatter_hide]; done)
    | with_reducible apply hide_if
    | with_reducible apply hide_if1
    | split
    | (rw [forEach_hide])
    | (rw [foldl_hide])
    | (rw [foldlS_hide])
    | (intro; intros; try dsimp only)
    | (simp only [hide_ite, ite_self, ite_fst, implies_true, eq_self, h_fe, h_xl, h_sp, h_up, h_gs, h_fl, h_tel, h_pw, h_free, h_out, admitWindow_hide, endDesc_hide, runScatter_hide])

theorem execScatterGradRows_hide (h_fe : M .fe = true) (h_xl : M .xl = true) (h_sp : M .sp = true) (h_up : M .up = true) (h_gs : M .gs = true) (h_fl : M .fl = true) (h_tel : M .tel = true) (h_pw : M .pw = true) (h_free : M .free = true) (h_out : M .out = true) (id : Nat) (grad : Feed) (s : State) (t : State) (e : execScatterGradRows id grad s = .next t) : hide M t = hide M s := by
  simp only [execScatterGradRows, Host.Outcome.next.injEq] at e
  subst e
  repeat' first
    | with_reducible rfl
    | (simp only [hide_ite, ite_self, ite_fst, implies_true, eq_self, h_fe, h_xl, h_sp, h_up, h_gs, h_fl, h_tel, h_pw, h_free, h_out, scatterRows_hide]; done)
    | with_reducible apply hide_if
    | with_reducible apply hide_if1
    | split
    | (rw [forEach_hide])
    | (rw [foldl_hide])
    | (rw [foldlS_hide])
    | (intro; intros; try dsimp only)
    | (simp only [hide_ite, ite_self, ite_fst, implies_true, eq_self, h_fe, h_xl, h_sp, h_up, h_gs, h_fl, h_tel, h_pw, h_free, h_out, scatterRows_hide])

theorem takeAck_hide (h_fe : M .fe = true) (h_up : M .up = true) (h_tel : M .tel = true) (h_pw : M .pw = true) (h_out : M .out = true) (s : State) (batch : BitVec 32) (accepted late dropped rejected : Nat) : hide M (State.takeAck s batch accepted late dropped rejected) = hide M s := by
  unfold State.takeAck
  try dsimp only
  repeat' first
    | with_reducible rfl
    | (simp only [hide_ite, ite_self, ite_fst, implies_true, eq_self, h_fe, h_up, h_tel, h_pw, h_out, countN_hide, endScatter_hide, fabSettle_hide, onDesc_hide, onUp_hide]; done)
    | with_reducible apply hide_if
    | with_reducible apply hide_if1
    | split
    | (rw [forEach_hide])
    | (rw [foldl_hide])
    | (rw [foldlS_hide])
    | (intro; intros; try dsimp only)
    | (simp only [hide_ite, ite_self, ite_fst, implies_true, eq_self, h_fe, h_up, h_tel, h_pw, h_out, countN_hide, endScatter_hide, fabSettle_hide, onDesc_hide, onUp_hide])

theorem batchAck_hide (h_fe : M .fe = true) (h_up : M .up = true) (h_tel : M .tel = true) (h_pw : M .pw = true) (h_out : M .out = true) (s : State) (port : Nat) (batch : BitVec 32) (accepted late dropped rejected : Nat) : hide M (State.batchAck s port batch accepted late dropped rejected) = hide M s := by
  unfold State.batchAck
  try dsimp only
  repeat' first
    | with_reducible rfl
    | (simp only [hide_ite, ite_self, ite_fst, implies_true, eq_self, h_fe, h_up, h_tel, h_pw, h_out, send_hide, takeAck_hide]; done)
    | with_reducible apply hide_if
    | with_reducible apply hide_if1
    | split
    | (rw [forEach_hide])
    | (rw [foldl_hide])
    | (rw [foldlS_hide])
    | (intro; intros; try dsimp only)
    | (simp only [hide_ite, ite_self, ite_fst, implies_true, eq_self, h_fe, h_up, h_tel, h_pw, h_out, send_hide, takeAck_hide])

theorem ackTimeout_hide (h_fe : M .fe = true) (h_up : M .up = true) (h_tel : M .tel = true) (h_pw : M .pw = true) (h_out : M .out = true) (s : State) (batch : BitVec 32) : hide M (State.ackTimeout s batch) = hide M s := by
  unfold State.ackTimeout
  try dsimp only
  repeat' first
    | with_reducible rfl
    | (simp only [hide_ite, ite_self, ite_fst, implies_true, eq_self, h_fe, h_up, h_tel, h_pw, h_out, countN_hide, count_hide, endScatter_hide, fabSettle_hide, onDesc_hide, onUp_hide]; done)
    | with_reducible apply hide_if
    | with_reducible apply hide_if1
    | split
    | (rw [forEach_hide])
    | (rw [foldl_hide])
    | (rw [foldlS_hide])
    | (intro; intros; try dsimp only)
    | (simp only [hide_ite, ite_self, ite_fst, implies_true, eq_self, h_fe, h_up, h_tel, h_pw, h_out, countN_hide, count_hide, endScatter_hide, fabSettle_hide, onDesc_hide, onUp_hide])

end Sys2Proof.Laws
end

