-- ==== Sys2Proof/Laws/CanonRest.lean ====
section
/-!
SUPPORT. What Machine/Rest.lean defines keeps Ground store's bytes in canonical form.
-/

namespace Sys2Proof.Laws

open Sys2Proof.Machine

theorem execDescriptorReadReturn_canon (ring : Nat) (slots : List Slot) (s : State) (t : State) (e : execDescriptorReadReturn ring slots s = .next t) (hs : Canon (hide butMem s)) : Canon (hide butMem t) := by
  refine next_canon e ?_
  repeat' first
    | with_reducible assumption
    | split
    | (with_reducible apply rest_canon)
    | with_reducible apply forEach_canon
    | with_reducible apply foldl_canon
    | (intro; intros; try dsimp only)
    | (simp only [readReturn_hide (M := butMem) rfl rfl rfl rfl rfl rfl rfl rfl rfl rfl, implies_true, eq_self])

theorem execCompletionRecordWrite_canon (id : Nat) (s : State) (t : State) (e : execCompletionRecordWrite id s = .next t) (hs : Canon (hide butMem s)) : Canon (hide butMem t) := by
  refine next_canon e ?_
  repeat' first
    | with_reducible assumption
    | split
    | (with_reducible apply rest_canon)
    | with_reducible apply forEach_canon
    | with_reducible apply foldl_canon
    | (intro; intros; try dsimp only)
    | (simp only [recordWrite_hide (M := butMem) rfl rfl rfl rfl rfl rfl rfl rfl rfl rfl, implies_true, eq_self])

theorem execDisable_canon (p : Path) (ring : Nat) (s : State) (t : State) (e : execDisable p ring s = .next t) (hs : Canon (hide butMem s)) : Canon (hide butMem t) := by
  refine next_canon e ?_
  repeat' first
    | with_reducible assumption
    | split
    | (with_reducible apply rest_canon)
    | with_reducible apply forEach_canon
    | with_reducible apply foldl_canon
    | (intro; intros; try dsimp only)
    | (simp only [ringCmd_hide (M := butMem) rfl rfl rfl rfl, stopRing_hide (M := butMem) rfl rfl rfl rfl rfl rfl rfl rfl rfl rfl, implies_true, eq_self])

theorem execPause_canon (p : Path) (ring : Nat) (s : State) (t : State) (e : execPause p ring s = .next t) (hs : Canon (hide butMem s)) : Canon (hide butMem t) := by
  refine next_canon e ?_
  repeat' first
    | with_reducible assumption
    | split
    | (with_reducible apply rest_canon)
    | with_reducible apply forEach_canon
    | with_reducible apply foldl_canon
    | (intro; intros; try dsimp only)
    | (simp only [pauseRing_hide (M := butMem) rfl rfl rfl rfl rfl, ringCmd_hide (M := butMem) rfl rfl rfl rfl, implies_true, eq_self])

theorem execReset_canon (p : Path) (ring : Nat) (s : State) (t : State) (e : execReset p ring s = .next t) (hs : Canon (hide butMem s)) : Canon (hide butMem t) := by
  refine next_canon e ?_
  repeat' first
    | with_reducible assumption
    | split
    | (with_reducible apply rest_canon)
    | with_reducible apply forEach_canon
    | with_reducible apply foldl_canon
    | (intro; intros; try dsimp only)
    | (simp only [resetCmd_hide (M := butMem) rfl rfl rfl rfl rfl rfl rfl rfl rfl rfl rfl, ringCmd_hide (M := butMem) rfl rfl rfl rfl, implies_true, eq_self])

theorem execHostLinkDown_canon (port : Nat) (s : State) (t : State) (e : execHostLinkDown port s = .next t) (hs : Canon (hide butMem s)) : Canon (hide butMem t) := by
  refine next_canon e ?_
  repeat' first
    | with_reducible assumption
    | split
    | (with_reducible apply rest_canon)
    | with_reducible apply forEach_canon
    | with_reducible apply foldl_canon
    | (intro; intros; try dsimp only)
    | (simp only [linkDown_hide (M := butMem) rfl rfl rfl rfl rfl rfl rfl rfl rfl rfl rfl rfl, implies_true, eq_self])

theorem execFunctionLevelReset_canon (port : FnReset) (s : State) (t : State) (e : execFunctionLevelReset port s = .next t) (hs : Canon (hide butMem s)) : Canon (hide butMem t) := by
  refine next_canon e ?_
  repeat' first
    | with_reducible assumption
    | split
    | (with_reducible apply rest_canon)
    | with_reducible apply forEach_canon
    | with_reducible apply foldl_canon
    | (intro; intros; try dsimp only)
    | (simp only [funcReset_hide (M := butMem) rfl rfl rfl rfl rfl rfl rfl rfl rfl rfl rfl rfl rfl, implies_true, eq_self])

theorem execFabricCreditReturn_canon (port : Nat) (resp : Bool) (n : Nat) (s : State) (t : State) (e : execFabricCreditReturn port resp n s = .next t) (hs : Canon (hide butMem s)) : Canon (hide butMem t) := by
  refine next_canon e ?_
  repeat' first
    | with_reducible assumption
    | split
    | (with_reducible apply rest_canon)
    | with_reducible apply forEach_canon
    | with_reducible apply foldl_canon
    | (intro; intros; try dsimp only)
    | (simp only [creditReturn_hide (M := butMem) rfl rfl rfl rfl, implies_true, eq_self])

theorem execBatchAck_canon (batch : OnPort (BitVec 32)) (accepted late dropped rejected : Nat) (s : State) (t : State) (e : execBatchAck batch accepted late dropped rejected s = .next t) (hs : Canon (hide butMem s)) : Canon (hide butMem t) := by
  refine next_canon e ?_
  repeat' first
    | with_reducible assumption
    | split
    | (with_reducible apply rest_canon)
    | with_reducible apply forEach_canon
    | with_reducible apply foldl_canon
    | (intro; intros; try dsimp only)
    | (simp only [batchAck_hide (M := butMem) rfl rfl rfl rfl rfl, implies_true, eq_self])

theorem execRemoteAckTimeout_canon (batch : BitVec 32) (s : State) (t : State) (e : execRemoteAckTimeout batch s = .next t) (hs : Canon (hide butMem s)) : Canon (hide butMem t) := by
  refine next_canon e ?_
  repeat' first
    | with_reducible assumption
    | split
    | (with_reducible apply rest_canon)
    | with_reducible apply forEach_canon
    | with_reducible apply foldl_canon
    | (intro; intros; try dsimp only)
    | (simp only [ackTimeout_hide (M := butMem) rfl rfl rfl rfl rfl, implies_true, eq_self])

theorem execPillowReserve_canon (s : State) (t : State) (e : execPillowReserve s = .next t) (hs : Canon (hide butMem s)) : Canon (hide butMem t) := by
  refine next_canon e ?_
  repeat' first
    | with_reducible assumption
    | split
    | (with_reducible apply rest_canon)
    | with_reducible apply forEach_canon
    | with_reducible apply foldl_canon
    | (intro; intros; try dsimp only)
    | (simp only [pillowReserve_hide (M := butMem) rfl rfl rfl rfl rfl rfl rfl, implies_true, eq_self])

theorem execRemoteContribution_canon (port : Nat) (msg : ContribMsg) (s : State) (t : State) (e : execRemoteContribution port msg s = .next t) (hs : Canon (hide butMem s)) : Canon (hide butMem t) := by
  refine next_canon e ?_
  repeat' first
    | with_reducible assumption
    | split
    | (with_reducible apply rest_canon)
    | with_reducible apply forEach_canon
    | with_reducible apply foldl_canon
    | (intro; intros; try dsimp only)
    | (simp only [remoteMsg_hide (M := butMem) rfl rfl rfl rfl rfl rfl, implies_true, eq_self])

theorem execBatchDiscard_canon (sender : BitVec 16) (batch : BitVec 32) (s : State) (t : State) (e : execBatchDiscard sender batch s = .next t) (hs : Canon (hide butMem s)) : Canon (hide butMem t) := by
  refine next_canon e ?_
  repeat' first
    | with_reducible assumption
    | split
    | (with_reducible apply rest_canon)
    | with_reducible apply forEach_canon
    | with_reducible apply foldl_canon
    | (intro; intros; try dsimp only)
    | (simp only [batchDiscard_hide (M := butMem) rfl rfl rfl rfl rfl rfl, implies_true, eq_self])

theorem execInboundFabricError_canon (port : Nat) (msg : BadMsg) (s : State) (t : State) (e : execInboundFabricError port msg s = .next t) (hs : Canon (hide butMem s)) : Canon (hide butMem t) := by
  refine next_canon e ?_
  repeat' first
    | with_reducible assumption
    | split
    | (with_reducible apply rest_canon)
    | with_reducible apply forEach_canon
    | with_reducible apply foldl_canon
    | (intro; intros; try dsimp only)
    | (simp only [inboundBad_hide (M := butMem) rfl rfl rfl rfl rfl rfl, implies_true, eq_self])

end Sys2Proof.Laws
end

