-- ==== Sys2Proof/Laws/FrameSkew.lean ====
section
/-!
SUPPORT. Frames of what Machine/Skew.lean defines: the parts of the state that each may change.
-/

namespace Sys2Proof.Laws

open Sys2Proof.Machine

variable {M : Mask}

theorem ageRow_hide (h_tb : M .tb = true) (s : State) (w : Way) : hide M (State.ageRow s w) = hide M s := by
  unfold State.ageRow
  try dsimp only
  repeat' first
    | with_reducible rfl
    | (simp only [hide_ite, ite_self, ite_fst, implies_true, eq_self, h_tb, onTb_hide]; done)
    | with_reducible apply hide_if
    | with_reducible apply hide_if1
    | split
    | (rw [forEach_hide])
    | (rw [foldl_hide])
    | (rw [foldlS_hide])
    | (intro; intros; try dsimp only)
    | (simp only [hide_ite, ite_self, ite_fst, implies_true, eq_self, h_tb, onTb_hide])

theorem writeHeads_hide (h_ch : M .ch = true) (h_gs : M .gs = true) (h_tel : M .tel = true) (s : State) (passed : List (Nat × Nat)) : hide M (State.writeHeads s passed) = hide M s := by
  unfold State.writeHeads
  try dsimp only
  repeat' first
    | with_reducible rfl
    | (simp only [hide_ite, ite_self, ite_fst, implies_true, eq_self, h_ch, h_gs, h_tel, forEach_hide, noteWrite_hide, onCh_hide]; done)
    | with_reducible apply hide_if
    | with_reducible apply hide_if1
    | split
    | (rw [forEach_hide])
    | (rw [foldl_hide])
    | (rw [foldlS_hide])
    | (intro; intros; try dsimp only)
    | (simp only [hide_ite, ite_self, ite_fst, implies_true, eq_self, h_ch, h_gs, h_tel, forEach_hide, noteWrite_hide, onCh_hide])

theorem agingSweep_hide (h_tb : M .tb = true) (h_ch : M .ch = true) (h_gs : M .gs = true) (h_tel : M .tel = true) (s0 : State) : hide M (State.agingSweep s0) = hide M s0 := by
  unfold State.agingSweep
  try dsimp only
  repeat' first
    | with_reducible rfl
    | (simp only [hide_ite, ite_self, ite_fst, implies_true, eq_self, h_tb, h_ch, h_gs, h_tel, forEach_hide, ageRow_hide, count_hide, onCh_hide, onTb_hide, sweepHeads_hide, writeHeads_hide]; done)
    | with_reducible apply hide_if
    | with_reducible apply hide_if1
    | split
    | (rw [forEach_hide])
    | (rw [foldl_hide])
    | (rw [foldlS_hide])
    | (intro; intros; try dsimp only)
    | (simp only [hide_ite, ite_self, ite_fst, implies_true, eq_self, h_tb, h_ch, h_gs, h_tel, forEach_hide, ageRow_hide, count_hide, onCh_hide, onTb_hide, sweepHeads_hide, writeHeads_hide])

theorem execAgingSweep_hide (h_tb : M .tb = true) (h_ch : M .ch = true) (h_gs : M .gs = true) (h_tel : M .tel = true) (s : State) (t : State) (e : execAgingSweep s = .next t) : hide M t = hide M s := by
  simp only [execAgingSweep, Host.Outcome.next.injEq] at e
  subst e
  repeat' first
    | with_reducible rfl
    | (simp only [hide_ite, ite_self, ite_fst, implies_true, eq_self, h_tb, h_ch, h_gs, h_tel, agingSweep_hide]; done)
    | with_reducible apply hide_if
    | with_reducible apply hide_if1
    | split
    | (rw [forEach_hide])
    | (rw [foldl_hide])
    | (rw [foldlS_hide])
    | (intro; intros; try dsimp only)
    | (simp only [hide_ite, ite_self, ite_fst, implies_true, eq_self, h_tb, h_ch, h_gs, h_tel, agingSweep_hide])

theorem measure_hide (h_ch : M .ch = true) (h_tel : M .tel = true) (s : State) (total ch : Nat) : hide M (State.measure s total ch) = hide M s := by
  unfold State.measure
  simp only [hide_ite, ite_self, eq_self, h_ch, h_tel, countN_hide, onCh_hide, tell_hide]

theorem redirRefuse_hide (h_ch : M .ch = true) (h_tel : M .tel = true) (s : State) : hide M (State.redirRefuse s) = hide M s := by
  unfold State.redirRefuse
  simp only [hide_ite, ite_self, eq_self, h_ch, h_tel, count_hide, onCh_hide, tell_hide]

theorem beginMove_hide (h_ch : M .ch = true) (h_tel : M .tel = true) (s : State) (k : Key) (ver : Nat) (kind : RedirKind) : hide M (State.beginMove s k ver kind).1 = hide M s := by
  unfold State.beginMove
  simp only [hide_ite, ite_self, ite_fst, eq_self, h_ch, h_tel, onCh_hide, redirRefuse_hide]

theorem actOn_hide (h_ch : M .ch = true) (h_tel : M .tel = true) (s : State) (given : Given) (src : Nat) (x : Track) : hide M (State.actOn s given src x).1 = hide M s := by
  unfold State.actOn
  (repeat' split) <;> simp only [hide_ite, ite_self, ite_fst, eq_self, h_ch, h_tel, beginMove_hide]

theorem actAll_hide (h_ch : M .ch = true) (h_tel : M .tel = true) (s : State) (given : Given) (src : Nat) (y0 : Nat) (y1 : List Track) : hide M (State.actAll s given src y0 y1).1 = hide M s := by
  fun_induction State.actAll s given src y0 y1
  all_goals
    simp +zetaDelta only [*, eq_self, actOn_hide]

theorem actHot_hide (h_ch : M .ch = true) (h_tel : M .tel = true) (s : State) (given : Given) (y0 : List Nat) : hide M (State.actHot s given y0) = hide M s := by
  fun_induction State.actHot s given y0
  all_goals
    simp +zetaDelta only [*, eq_self, actAll_hide]

theorem adjust_hide (h_ch : M .ch = true) (h_gs : M .gs = true) (h_tel : M .tel = true) (s : State) (r : Redir) : hide M (State.adjust s r) = hide M s := by
  unfold State.adjust
  try dsimp only
  repeat' first
    | with_reducible rfl
    | (simp only [hide_ite, ite_self, ite_fst, implies_true, eq_self, h_ch, h_gs, h_tel, beginMove_hide, dropReplicas_hide, onCh_hide]; done)
    | with_reducible apply hide_if
    | with_reducible apply hide_if1
    | split
    | (rw [forEach_hide])
    | (rw [foldl_hide])
    | (rw [foldlS_hide])
    | (intro; intros; try dsimp only)
    | (simp only [hide_ite, ite_self, ite_fst, implies_true, eq_self, h_ch, h_gs, h_tel, beginMove_hide, dropReplicas_hide, onCh_hide])

theorem intervalEnd_hide (h_ch : M .ch = true) (h_gs : M .gs = true) (h_tel : M .tel = true) (s : State) : hide M (State.intervalEnd s) = hide M s := by
  unfold State.intervalEnd
  try dsimp only
  repeat' first
    | with_reducible rfl
    | (simp only [hide_ite, ite_self, ite_fst, implies_true, eq_self, h_ch, h_gs, h_tel, forEach_hide, actHot_hide, adjust_hide, measure_hide, onCh_hide]; done)
    | with_reducible apply hide_if
    | with_reducible apply hide_if1
    | split
    | (rw [forEach_hide])
    | (rw [foldl_hide])
    | (rw [foldlS_hide])
    | (intro; intros; try dsimp only)
    | (simp only [hide_ite, ite_self, ite_fst, implies_true, eq_self, h_ch, h_gs, h_tel, forEach_hide, actHot_hide, adjust_hide, measure_hide, onCh_hide])

theorem execLoadIntervalEnd_hide (h_ch : M .ch = true) (h_gs : M .gs = true) (h_tel : M .tel = true) (s : State) (t : State) (e : execLoadIntervalEnd s = .next t) : hide M t = hide M s := by
  simp only [execLoadIntervalEnd, Host.Outcome.next.injEq] at e
  subst e
  repeat' first
    | with_reducible rfl
    | (simp only [hide_ite, ite_self, ite_fst, implies_true, eq_self, h_ch, h_gs, h_tel, intervalEnd_hide]; done)
    | with_reducible apply hide_if
    | with_reducible apply hide_if1
    | split
    | (rw [forEach_hide])
    | (rw [foldl_hide])
    | (rw [foldlS_hide])
    | (intro; intros; try dsimp only)
    | (simp only [hide_ite, ite_self, ite_fst, implies_true, eq_self, h_ch, h_gs, h_tel, intervalEnd_hide])

theorem endMove_hide (h_ch : M .ch = true) (s : State) (k : Key) (ver : Nat) : hide M (State.endMove s k ver) = hide M s := by
  unfold State.endMove
  simp only [eq_self, h_ch, onCh_hide]

theorem putRedir_hide (h_ch : M .ch = true) (s : State) (k : Key) (ver : Nat) (kind : RedirKind) : hide M (State.putRedir s k ver kind) = hide M s := by
  unfold State.putRedir
  simp only [eq_self, h_ch, onCh_hide]

theorem copyWays_hide (h_tb : M .tb = true) (h_up : M .up = true) (h_ch : M .ch = true) (h_gs : M .gs = true) (h_mem : M .mem = true) (h_fl : M .fl = true) (h_tel : M .tel = true) (h_out : M .out = true) (s : State) (ch : Nat) (fails : WbFails) (y0 : List Way) : hide M (State.copyWays s ch fails y0).1 = hide M s := by
  fun_induction State.copyWays s ch fails y0
  all_goals
    repeat' first
      | with_reducible rfl
      | assumption
      | (simp +zetaDelta only [*, hide_ite, ite_self, ite_fst, implies_true, eq_self, h_tb, h_up, h_ch, h_gs, h_mem, h_fl, h_tel, h_out, placeCopy_hide, readCopy_hide, seeHead_hide]; done)
      | with_reducible apply hide_if
      | with_reducible apply hide_if1
      | split
      | (rw [forEach_hide])
      | (rw [foldl_hide])
      | (rw [foldlS_hide])
      | (intro; intros; try dsimp only)
      | (simp +zetaDelta only [*, hide_ite, ite_self, ite_fst, implies_true, eq_self, h_tb, h_up, h_ch, h_gs, h_mem, h_fl, h_tel, h_out, placeCopy_hide, readCopy_hide, seeHead_hide])

theorem migrate_hide (h_tb : M .tb = true) (h_up : M .up = true) (h_ch : M .ch = true) (h_gs : M .gs = true) (h_mem : M .mem = true) (h_fl : M .fl = true) (h_tel : M .tel = true) (h_out : M .out = true) (s : State) (k : Key) (ver : Nat) (fails : WbFails) : hide M (State.migrate s k ver fails) = hide M s := by
  unfold State.migrate
  try dsimp only
  repeat' first
    | with_reducible rfl
    | (simp only [hide_ite, ite_self, ite_fst, implies_true, eq_self, h_tb, h_up, h_ch, h_gs, h_mem, h_fl, h_tel, h_out, admitForced_hide, copyWays_hide, count_hide, dropWays_hide, endMove_hide, onUp_hide, onWays_hide, putRedir_hide, putTwin_hide, setBand_hide, tell_hide, touchHead_hide]; done)
    | with_reducible apply hide_if
    | with_reducible apply hide_if1
    | split
    | (rw [forEach_hide])
    | (rw [foldl_hide])
    | (rw [foldlS_hide])
    | (intro; intros; try dsimp only)
    | (simp only [hide_ite, ite_self, ite_fst, implies_true, eq_self, h_tb, h_up, h_ch, h_gs, h_mem, h_fl, h_tel, h_out, admitForced_hide, copyWays_hide, count_hide, dropWays_hide, endMove_hide, onUp_hide, onWays_hide, putRedir_hide, putTwin_hide, setBand_hide, tell_hide, touchHead_hide])

theorem execMigrationPublish_hide (h_tb : M .tb = true) (h_up : M .up = true) (h_ch : M .ch = true) (h_gs : M .gs = true) (h_mem : M .mem = true) (h_fl : M .fl = true) (h_tel : M .tel = true) (h_out : M .out = true) (tbl ver row : Nat) (fails : WbFails) (s : State) (t : State) (e : execMigrationPublish tbl ver row fails s = .next t) : hide M t = hide M s := by
  simp only [execMigrationPublish, Host.Outcome.next.injEq] at e
  subst e
  repeat' first
    | with_reducible rfl
    | (simp only [hide_ite, ite_self, ite_fst, implies_true, eq_self, h_tb, h_up, h_ch, h_gs, h_mem, h_fl, h_tel, h_out, migrate_hide]; done)
    | with_reducible apply hide_if
    | with_reducible apply hide_if1
    | split
    | (rw [forEach_hide])
    | (rw [foldl_hide])
    | (rw [foldlS_hide])
    | (intro; intros; try dsimp only)
    | (simp only [hide_ite, ite_self, ite_fst, implies_true, eq_self, h_tb, h_up, h_ch, h_gs, h_mem, h_fl, h_tel, h_out, migrate_hide])

theorem addReplicas_hide (h_tb : M .tb = true) (h_up : M .up = true) (h_ch : M .ch = true) (h_gs : M .gs = true) (h_mem : M .mem = true) (h_fl : M .fl = true) (h_tel : M .tel = true) (h_out : M .out = true) (s : State) (k : Key) (ver h : Nat) (g : Grade) (b : Bytes) (fails : WbFails) (y0 : List Nat) : hide M (State.addReplicas s k ver h g b fails y0).1 = hide M s := by
  fun_induction State.addReplicas s k ver h g b fails y0
  all_goals
    repeat' first
      | with_reducible rfl
      | assumption
      | (simp +zetaDelta only [*, hide_ite, ite_self, ite_fst, implies_true, eq_self, h_tb, h_up, h_ch, h_gs, h_mem, h_fl, h_tel, h_out, placeCopy_hide]; done)
      | with_reducible apply hide_if
      | with_reducible apply hide_if1
      | split
      | (rw [forEach_hide])
      | (rw [foldl_hide])
      | (rw [foldlS_hide])
      | (intro; intros; try dsimp only)
      | (simp +zetaDelta only [*, hide_ite, ite_self, ite_fst, implies_true, eq_self, h_tb, h_up, h_ch, h_gs, h_mem, h_fl, h_tel, h_out, placeCopy_hide])

theorem replicaData_hide (h_ch : M .ch = true) (h_gs : M .gs = true) (h_tel : M .tel = true) (s : State) (t : Table) (k : Key) (ver : Nat) : hide M (State.replicaData s t k ver).1 = hide M s := by
  unfold State.replicaData
  try dsimp only
  repeat' first
    | with_reducible rfl
    | (simp only [hide_ite, ite_self, ite_fst, implies_true, eq_self, h_ch, h_gs, h_tel, encCopy_hide, noteMaster_hide, readCopy_hide, touchHead_hide]; done)
    | with_reducible apply hide_if
    | with_reducible apply hide_if1
    | split
    | (rw [forEach_hide])
    | (rw [foldl_hide])
    | (rw [foldlS_hide])
    | (intro; intros; try dsimp only)
    | (simp only [hide_ite, ite_self, ite_fst, implies_true, eq_self, h_ch, h_gs, h_tel, encCopy_hide, noteMaster_hide, readCopy_hide, touchHead_hide])

theorem replicate_hide (h_tb : M .tb = true) (h_up : M .up = true) (h_ch : M .ch = true) (h_gs : M .gs = true) (h_mem : M .mem = true) (h_fl : M .fl = true) (h_tel : M .tel = true) (h_out : M .out = true) (s : State) (k : Key) (ver : Nat) (fails : WbFails) : hide M (State.replicate s k ver fails) = hide M s := by
  unfold State.replicate
  try dsimp only
  repeat' first
    | with_reducible rfl
    | (simp only [hide_ite, ite_self, ite_fst, implies_true, eq_self, h_tb, h_up, h_ch, h_gs, h_mem, h_fl, h_tel, h_out, addReplicas_hide, admitForced_hide, count_hide, dropWays_hide, endMove_hide, putRedir_hide, replicaData_hide, tell_hide]; done)
    | with_reducible apply hide_if
    | with_reducible apply hide_if1
    | split
    | (rw [forEach_hide])
    | (rw [foldl_hide])
    | (rw [foldlS_hide])
    | (intro; intros; try dsimp only)
    | (simp only [hide_ite, ite_self, ite_fst, implies_true, eq_self, h_tb, h_up, h_ch, h_gs, h_mem, h_fl, h_tel, h_out, addReplicas_hide, admitForced_hide, count_hide, dropWays_hide, endMove_hide, putRedir_hide, replicaData_hide, tell_hide])

theorem execReplicationPublish_hide (h_tb : M .tb = true) (h_up : M .up = true) (h_ch : M .ch = true) (h_gs : M .gs = true) (h_mem : M .mem = true) (h_fl : M .fl = true) (h_tel : M .tel = true) (h_out : M .out = true) (tbl ver row : Nat) (fails : WbFails) (s : State) (t : State) (e : execReplicationPublish tbl ver row fails s = .next t) : hide M t = hide M s := by
  simp only [execReplicationPublish, Host.Outcome.next.injEq] at e
  subst e
  repeat' first
    | with_reducible rfl
    | (simp only [hide_ite, ite_self, ite_fst, implies_true, eq_self, h_tb, h_up, h_ch, h_gs, h_mem, h_fl, h_tel, h_out, replicate_hide]; done)
    | with_reducible apply hide_if
    | with_reducible apply hide_if1
    | split
    | (rw [forEach_hide])
    | (rw [foldl_hide])
    | (rw [foldlS_hide])
    | (intro; intros; try dsimp only)
    | (simp only [hide_ite, ite_self, ite_fst, implies_true, eq_self, h_tb, h_up, h_ch, h_gs, h_mem, h_fl, h_tel, h_out, replicate_hide])

end Sys2Proof.Laws
end

