-- ==== Sys2Proof/Laws/CanonSkew.lean ====
section
/-!
SUPPORT. What Machine/Skew.lean defines keeps Ground store's bytes in canonical form.
-/

namespace Sys2Proof.Laws

open Sys2Proof.Machine

theorem copyWays_canon (s : State) (ch : Nat) (fails : WbFails) (y0 : List Way) (hs : Canon (hide butMem s)) : Canon (hide butMem (State.copyWays s ch fails y0).1) := by
  have key : ∀ (s : State) (w : Way) (n : Nat) (b : Bytes), Canon (hide butMem s) →
      Canon (hide butMem (((s.seeHead w.ch w.set).readCopy w n false).placeCopy ch w.key w.ver w.kind w.grade b w.freq 0 .forced fails).1) := by
    intro s w n b hs
    refine placeCopy_canon _ _ _ _ _ _ _ _ _ _ _ ?_
    rw [readCopy_hide (M := butMem) rfl rfl rfl, seeHead_hide (M := butMem) rfl rfl rfl]
    exact hs
  induction y0 generalizing s with
  | nil => exact hs
  | cons w l ih =>
    rw [State.copyWays]
    split
    · exact ih _ (key _ _ _ _ hs)
    · exact key _ _ _ _ hs

theorem migrate_canon (s : State) (k : Key) (ver : Nat) (fails : WbFails) (hs : Canon (hide butMem s)) : Canon (hide butMem (State.migrate s k ver fails)) := by
  unfold State.migrate
  try dsimp only
  repeat' first
    | with_reducible assumption
    | split
    | (with_reducible apply admitForced_canon)
    | (with_reducible apply copyWays_canon)
    | with_reducible apply forEach_canon
    | with_reducible apply foldl_canon
    | (intro; intros; try dsimp only)
    | (simp only [count_hide (M := butMem) rfl, dropWays_hide (M := butMem) rfl rfl rfl, endMove_hide (M := butMem) rfl, onWays_hide (M := butMem) rfl, putRedir_hide (M := butMem) rfl, putTwin_hide (M := butMem) rfl rfl rfl, setBand_hide (M := butMem) rfl, tell_hide (M := butMem) rfl, touchHead_hide (M := butMem) rfl rfl rfl, onUp_hide (M := butMem) rfl, implies_true, eq_self])

theorem execMigrationPublish_canon (tbl ver row : Nat) (fails : WbFails) (s : State) (t : State) (e : execMigrationPublish tbl ver row fails s = .next t) (hs : Canon (hide butMem s)) : Canon (hide butMem t) := by
  refine next_canon e ?_
  repeat' first
    | with_reducible assumption
    | split
    | (with_reducible apply migrate_canon)
    | with_reducible apply forEach_canon
    | with_reducible apply foldl_canon
    | (intro; intros; try dsimp only)
    | (simp only [implies_true, eq_self])

theorem addReplicas_canon (s : State) (k : Key) (ver h : Nat) (g : Grade) (b : Bytes) (fails : WbFails) (y0 : List Nat) (hs : Canon (hide butMem s)) : Canon (hide butMem (State.addReplicas s k ver h g b fails y0).1) := by
  fun_induction State.addReplicas s k ver h g b fails y0
  all_goals
    repeat' first
      | with_reducible assumption
      | split
      | (with_reducible apply placeCopy_canon)
      | (with_reducible apply_assumption)
      | with_reducible apply forEach_canon
      | with_reducible apply foldl_canon
      | (intro; intros; try dsimp only)
      | (simp +zetaDelta only [implies_true, eq_self])

theorem replicate_canon (s : State) (k : Key) (ver : Nat) (fails : WbFails) (hs : Canon (hide butMem s)) : Canon (hide butMem (State.replicate s k ver fails)) := by
  unfold State.replicate
  try dsimp only
  repeat' first
    | with_reducible assumption
    | split
    | (with_reducible apply addReplicas_canon)
    | (with_reducible apply admitForced_canon)
    | with_reducible apply forEach_canon
    | with_reducible apply foldl_canon
    | (intro; intros; try dsimp only)
    | (simp only [count_hide (M := butMem) rfl, dropWays_hide (M := butMem) rfl rfl rfl, endMove_hide (M := butMem) rfl, putRedir_hide (M := butMem) rfl, replicaData_hide (M := butMem) rfl rfl rfl, tell_hide (M := butMem) rfl, implies_true, eq_self])

theorem execReplicationPublish_canon (tbl ver row : Nat) (fails : WbFails) (s : State) (t : State) (e : execReplicationPublish tbl ver row fails s = .next t) (hs : Canon (hide butMem s)) : Canon (hide butMem t) := by
  refine next_canon e ?_
  repeat' first
    | with_reducible assumption
    | split
    | (with_reducible apply replicate_canon)
    | with_reducible apply forEach_canon
    | with_reducible apply foldl_canon
    | (intro; intros; try dsimp only)
    | (simp only [implies_true, eq_self])

end Sys2Proof.Laws
end

