-- ==== Sys2Proof/Laws/FrameSpool.lean ====
section
/-!
SUPPORT. Frames of what Machine/Spool.lean defines: the parts of the state that each may change.
-/

namespace Sys2Proof.Laws

open Sys2Proof.Machine

variable {M : Mask}

theorem grantTile_hide (h_sp : M .sp = true) (s : State) (wid : Nat) (p : Pooled) : hide M (State.grantTile s wid p) = hide M s := by
  unfold State.grantTile
  try dsimp only
  repeat' first
    | with_reducible rfl
    | (simp only [hide_ite, eq_self, h_sp, onPooled_hide, onSp_hide]; done)
    | with_reducible apply hide_if
    | with_reducible apply hide_if1
    | split
    | (rw [forEach_hide])
    | (rw [foldl_hide])
    | (rw [foldlS_hide])
    | (intro; intros; try dsimp only)

theorem wakeGroups_hide (h_pw : M .pw = true) (h_out : M .out = true) (s : State) (w : PWin) : hide M (State.wakeGroups s w) = hide M s := by
  unfold State.wakeGroups
  try dsimp only
  repeat' first
    | with_reducible rfl
    | (simp only [hide_ite, ite_self, ite_fst, implies_true, eq_self, h_pw, h_out, onPw_hide, send_hide]; done)
    | with_reducible apply hide_if
    | with_reducible apply hide_if1
    | split
    | (rw [forEach_hide])
    | (rw [foldl_hide])
    | (rw [foldlS_hide])
    | (intro; intros; try dsimp only)
    | (simp only [hide_ite, ite_self, ite_fst, implies_true, eq_self, h_pw, h_out, onPw_hide, send_hide])

theorem grantSpool_hide (h_regs : M .regs = true) (h_fe : M .fe = true) (h_xl : M .xl = true) (h_sp : M .sp = true) (h_up : M .up = true) (h_fl : M .fl = true) (h_tel : M .tel = true) (h_pw : M .pw = true) (h_out : M .out = true) (s : State) (wid : Nat) : hide M (State.grantSpool s wid) = hide M s := by
  unfold State.grantSpool
  try dsimp only
  repeat' first
    | with_reducible rfl
    | (simp only [hide_ite, ite_self, ite_fst, implies_true, eq_self, h_regs, h_fe, h_xl, h_sp, h_up, h_fl, h_tel, h_pw, h_out, askTier2_hide, onPwin_hide, settleWin_hide, wakeGroups_hide]; done)
    | with_reducible apply hide_if
    | with_reducible apply hide_if1
    | split
    | (rw [forEach_hide])
    | (rw [foldl_hide])
    | (rw [foldlS_hide])
    | (intro; intros; try dsimp only)
    | (simp only [hide_ite, ite_self, ite_fst, implies_true, eq_self, h_regs, h_fe, h_xl, h_sp, h_up, h_fl, h_tel, h_pw, h_out, askTier2_hide, onPwin_hide, settleWin_hide, wakeGroups_hide])

theorem trySpool_hide (h_regs : M .regs = true) (h_fe : M .fe = true) (h_xl : M .xl = true) (h_sp : M .sp = true) (h_up : M .up = true) (h_fl : M .fl = true) (h_tel : M .tel = true) (h_pw : M .pw = true) (h_out : M .out = true) (s : State) (wid : Nat) : hide M (State.trySpool s wid) = hide M s := by
  unfold State.trySpool
  try dsimp only
  repeat' first
    | with_reducible rfl
    | (simp only [hide_ite, ite_self, ite_fst, implies_true, eq_self, h_regs, h_fe, h_xl, h_sp, h_up, h_fl, h_tel, h_pw, h_out, count_hide, grantSpool_hide, onPwin_hide]; done)
    | with_reducible apply hide_if
    | with_reducible apply hide_if1
    | split
    | (rw [forEach_hide])
    | (rw [foldl_hide])
    | (rw [foldlS_hide])
    | (intro; intros; try dsimp only)
    | (simp only [hide_ite, ite_self, ite_fst, implies_true, eq_self, h_regs, h_fe, h_xl, h_sp, h_up, h_fl, h_tel, h_pw, h_out, count_hide, grantSpool_hide, onPwin_hide])

theorem placeOne_hide (h_regs : M .regs = true) (h_fe : M .fe = true) (h_xl : M .xl = true) (h_sp : M .sp = true) (h_up : M .up = true) (h_fl : M .fl = true) (h_tel : M .tel = true) (h_pw : M .pw = true) (h_out : M .out = true) (s : State) (wid : Nat) : hide M (State.placeOne s wid) = hide M s := by
  unfold State.placeOne
  try dsimp only
  repeat' first
    | with_reducible rfl
    | (simp only [hide_ite, ite_self, ite_fst, implies_true, eq_self, h_regs, h_fe, h_xl, h_sp, h_up, h_fl, h_tel, h_pw, h_out, abandon_hide, endDesc_hide, onPwin_hide, trySpool_hide]; done)
    | with_reducible apply hide_if
    | with_reducible apply hide_if1
    | split
    | (rw [forEach_hide])
    | (rw [foldl_hide])
    | (rw [foldlS_hide])
    | (intro; intros; try dsimp only)
    | (simp only [hide_ite, ite_self, ite_fst, implies_true, eq_self, h_regs, h_fe, h_xl, h_sp, h_up, h_fl, h_tel, h_pw, h_out, abandon_hide, endDesc_hide, onPwin_hide, trySpool_hide])

theorem partChains_hide (h_sp : M .sp = true) (s : State) (wid : Nat) : hide M (State.partChains s wid) = hide M s := by
  unfold State.partChains
  try dsimp only
  repeat' first
    | with_reducible rfl
    | (simp only [hide_ite, ite_self, ite_fst, implies_true, eq_self, h_sp, onSp_hide]; done)
    | with_reducible apply hide_if
    | with_reducible apply hide_if1
    | split
    | (rw [forEach_hide])
    | (rw [foldl_hide])
    | (rw [foldlS_hide])
    | (intro; intros; try dsimp only)
    | (simp only [hide_ite, ite_self, ite_fst, implies_true, eq_self, h_sp, onSp_hide])

theorem placeWin_hide (h_regs : M .regs = true) (h_fe : M .fe = true) (h_xl : M .xl = true) (h_sp : M .sp = true) (h_up : M .up = true) (h_fl : M .fl = true) (h_tel : M .tel = true) (h_pw : M .pw = true) (h_out : M .out = true) (s : State) (wid : Nat) : hide M (State.placeWin s wid) = hide M s := by
  unfold State.placeWin
  try dsimp only
  repeat' first
    | with_reducible rfl
    | (simp only [hide_ite, ite_self, ite_fst, implies_true, eq_self, h_regs, h_fe, h_xl, h_sp, h_up, h_fl, h_tel, h_pw, h_out, forEach_hide, count_hide, onPwin_hide, onSp_hide, placeOne_hide, trySpool_hide]; done)
    | with_reducible apply hide_if
    | with_reducible apply hide_if1
    | split
    | (rw [forEach_hide])
    | (rw [foldl_hide])
    | (rw [foldlS_hide])
    | (intro; intros; try dsimp only)
    | (simp only [hide_ite, ite_self, ite_fst, implies_true, eq_self, h_regs, h_fe, h_xl, h_sp, h_up, h_fl, h_tel, h_pw, h_out, forEach_hide, count_hide, onPwin_hide, onSp_hide, placeOne_hide, trySpool_hide])

theorem addPwin_hide (h_regs : M .regs = true) (h_fe : M .fe = true) (h_xl : M .xl = true) (h_sp : M .sp = true) (h_up : M .up = true) (h_fl : M .fl = true) (h_tel : M .tel = true) (h_pw : M .pw = true) (h_out : M .out = true) (s : State) (w : PWin) : hide M (State.addPwin s w) = hide M s := by
  unfold State.addPwin
  try dsimp only
  repeat' first
    | with_reducible rfl
    | (simp only [hide_ite, ite_self, ite_fst, implies_true, eq_self, h_regs, h_fe, h_xl, h_sp, h_up, h_fl, h_tel, h_pw, h_out, forEach_hide, grantTile_hide, onSp_hide, partChains_hide, placeWin_hide]; done)
    | with_reducible apply hide_if
    | with_reducible apply hide_if1
    | split
    | (rw [forEach_hide])
    | (rw [foldl_hide])
    | (rw [foldlS_hide])
    | (intro; intros; try dsimp only)
    | (simp only [hide_ite, ite_self, ite_fst, implies_true, eq_self, h_regs, h_fe, h_xl, h_sp, h_up, h_fl, h_tel, h_pw, h_out, forEach_hide, grantTile_hide, onSp_hide, partChains_hide, placeWin_hide])

theorem spoolGrant_hide (h_regs : M .regs = true) (h_fe : M .fe = true) (h_xl : M .xl = true) (h_sp : M .sp = true) (h_up : M .up = true) (h_fl : M .fl = true) (h_tel : M .tel = true) (h_pw : M .pw = true) (h_out : M .out = true) (s : State) : hide M (State.spoolGrant s) = hide M s := by
  unfold State.spoolGrant
  try dsimp only
  repeat' first
    | with_reducible rfl
    | (simp only [hide_ite, ite_self, ite_fst, implies_true, eq_self, h_regs, h_fe, h_xl, h_sp, h_up, h_fl, h_tel, h_pw, h_out, grantSpool_hide, onPwin_hide]; done)
    | with_reducible apply hide_if
    | with_reducible apply hide_if1
    | split
    | (rw [forEach_hide])
    | (rw [foldl_hide])
    | (rw [foldlS_hide])
    | (intro; intros; try dsimp only)
    | (simp only [hide_ite, ite_self, ite_fst, implies_true, eq_self, h_regs, h_fe, h_xl, h_sp, h_up, h_fl, h_tel, h_pw, h_out, grantSpool_hide, onPwin_hide])

theorem execSpoolGrant_hide (h_regs : M .regs = true) (h_fe : M .fe = true) (h_xl : M .xl = true) (h_sp : M .sp = true) (h_up : M .up = true) (h_fl : M .fl = true) (h_tel : M .tel = true) (h_pw : M .pw = true) (h_out : M .out = true) (s : State) (t : State) (e : execSpoolGrant s = .next t) : hide M t = hide M s := by
  simp only [execSpoolGrant, Host.Outcome.next.injEq] at e
  subst e
  repeat' first
    | with_reducible rfl
    | (simp only [hide_ite, ite_self, ite_fst, implies_true, eq_self, h_regs, h_fe, h_xl, h_sp, h_up, h_fl, h_tel, h_pw, h_out, spoolGrant_hide]; done)
    | with_reducible apply hide_if
    | with_reducible apply hide_if1
    | split
    | (rw [forEach_hide])
    | (rw [foldl_hide])
    | (rw [foldlS_hide])
    | (intro; intros; try dsimp only)
    | (simp only [hide_ite, ite_self, ite_fst, implies_true, eq_self, h_regs, h_fe, h_xl, h_sp, h_up, h_fl, h_tel, h_pw, h_out, spoolGrant_hide])

theorem spoolFull_hide (h_sp : M .sp = true) (h_tel : M .tel = true) (s : State) : hide M (State.spoolFull s) = hide M s := by
  unfold State.spoolFull
  (repeat' split) <;> simp only [eq_self, h_sp, h_tel, onPwin_hide, tell_hide]

theorem execSpoolFull_hide (h_sp : M .sp = true) (h_tel : M .tel = true) (s : State) (t : State) (e : execSpoolFull s = .next t) : hide M t = hide M s := by
  refine next_hide e ?_
  simp only [eq_self, h_sp, h_tel, spoolFull_hide]

theorem tileGrant_hide (h_regs : M .regs = true) (h_fe : M .fe = true) (h_xl : M .xl = true) (h_sp : M .sp = true) (h_up : M .up = true) (h_fl : M .fl = true) (h_tel : M .tel = true) (h_pw : M .pw = true) (h_out : M .out = true) (s : State) (id : Nat) : hide M (State.tileGrant s id) = hide M s := by
  unfold State.tileGrant
  try dsimp only
  repeat' first
    | with_reducible rfl
    | (simp only [hide_ite, ite_self, ite_fst, implies_true, eq_self, h_regs, h_fe, h_xl, h_sp, h_up, h_fl, h_tel, h_pw, h_out, grantTile_hide, placeWin_hide]; done)
    | with_reducible apply hide_if
    | with_reducible apply hide_if1
    | split
    | (rw [forEach_hide])
    | (rw [foldl_hide])
    | (rw [foldlS_hide])
    | (intro; intros; try dsimp only)
    | (simp only [hide_ite, ite_self, ite_fst, implies_true, eq_self, h_regs, h_fe, h_xl, h_sp, h_up, h_fl, h_tel, h_pw, h_out, grantTile_hide, placeWin_hide])

theorem execTilePositionsGrant_hide (h_regs : M .regs = true) (h_fe : M .fe = true) (h_xl : M .xl = true) (h_sp : M .sp = true) (h_up : M .up = true) (h_fl : M .fl = true) (h_tel : M .tel = true) (h_pw : M .pw = true) (h_out : M .out = true) (id : Nat) (s : State) (t : State) (e : execTilePositionsGrant id s = .next t) : hide M t = hide M s := by
  simp only [execTilePositionsGrant, Host.Outcome.next.injEq] at e
  subst e
  repeat' first
    | with_reducible rfl
    | (simp only [hide_ite, ite_self, ite_fst, implies_true, eq_self, h_regs, h_fe, h_xl, h_sp, h_up, h_fl, h_tel, h_pw, h_out, tileGrant_hide]; done)
    | with_reducible apply hide_if
    | with_reducible apply hide_if1
    | split
    | (rw [forEach_hide])
    | (rw [foldl_hide])
    | (rw [foldlS_hide])
    | (intro; intros; try dsimp only)
    | (simp only [hide_ite, ite_self, ite_fst, implies_true, eq_self, h_regs, h_fe, h_xl, h_sp, h_up, h_fl, h_tel, h_pw, h_out, tileGrant_hide])

theorem tileRel_hide (h_regs : M .regs = true) (h_sp : M .sp = true) (h_tel : M .tel = true) (h_st : M .st = true) (h_out : M .out = true) (s : State) (p : Path) (val : Word64) : hide M (State.tileRel s p val) = hide M s := by
  unfold State.tileRel
  try dsimp only
  repeat' first
    | with_reducible rfl
    | (simp only [hide_ite, ite_self, ite_fst, implies_true, eq_self, h_regs, h_sp, h_tel, h_st, h_out, command_hide, endTile_hide, finish_hide, onSp_hide, put_tileRel_hide]; done)
    | with_reducible apply hide_if
    | with_reducible apply hide_if1
    | split
    | (rw [forEach_hide])
    | (rw [foldl_hide])
    | (rw [foldlS_hide])
    | (rw [command_hide])
    | (rw [finish_hide])
    | assumption
    | (intro; intros; try dsimp only)
    | (simp only [hide_ite, ite_self, ite_fst, implies_true, eq_self, h_regs, h_sp, h_tel, h_st, h_out, command_hide, endTile_hide, finish_hide, onSp_hide, put_tileRel_hide])

theorem execTileRel_hide (h_regs : M .regs = true) (h_sp : M .sp = true) (h_tel : M .tel = true) (h_st : M .st = true) (h_out : M .out = true) (p : Path) (val : Word64) (s : State) (t : State) (e : execTileRel p val s = .next t) : hide M t = hide M s := by
  simp only [execTileRel, Host.Outcome.next.injEq] at e
  subst e
  repeat' first
    | with_reducible rfl
    | (simp only [hide_ite, ite_self, ite_fst, implies_true, eq_self, h_regs, h_sp, h_tel, h_st, h_out, tileRel_hide]; done)
    | with_reducible apply hide_if
    | with_reducible apply hide_if1
    | split
    | (rw [forEach_hide])
    | (rw [foldl_hide])
    | (rw [foldlS_hide])
    | (intro; intros; try dsimp only)
    | (simp only [hide_ite, ite_self, ite_fst, implies_true, eq_self, h_regs, h_sp, h_tel, h_st, h_out, tileRel_hide])

end Sys2Proof.Laws
end

