-- ==== Sys2Proof/Laws/FrameSorting.lean ====
section
/-!
SUPPORT. Frames of what Machine/Sorting.lean defines: the parts of the state that each may change.
-/

namespace Sys2Proof.Laws

open Sys2Proof.Machine

variable {M : Mask}

theorem startPooling_hide (h_fe : M .fe = true) (s : State) (id dim : Nat) : hide M (State.startPooling s id dim) = hide M s := by
  unfold State.startPooling
  simp only [eq_self, h_fe, onDesc_hide]

theorem emptyGather_hide (h_regs : M .regs = true) (h_fe : M .fe = true) (h_xl : M .xl = true) (h_sp : M .sp = true) (h_up : M .up = true) (h_fl : M .fl = true) (h_tel : M .tel = true) (h_pw : M .pw = true) (h_out : M .out = true) (s : State) (d : Desc) : hide M (State.emptyGather s d) = hide M s := by
  unfold State.emptyGather
  try dsimp only
  repeat' first
    | with_reducible rfl
    | (simp only [hide_ite, ite_self, ite_fst, implies_true, eq_self, h_regs, h_fe, h_xl, h_sp, h_up, h_fl, h_tel, h_pw, h_out, addPwin_hide, bindBank_hide, inputsDone_hide, onDesc_hide, onSp_hide, startPooling_hide, wakeSlices_hide]; done)
    | with_reducible apply hide_if
    | with_reducible apply hide_if1
    | split
    | (rw [forEach_hide])
    | (rw [foldl_hide])
    | (rw [foldlS_hide])
    | (intro; intros; try dsimp only)
    | (simp only [hide_ite, ite_self, ite_fst, implies_true, eq_self, h_regs, h_fe, h_xl, h_sp, h_up, h_fl, h_tel, h_pw, h_out, addPwin_hide, bindBank_hide, inputsDone_hide, onDesc_hide, onSp_hide, startPooling_hide, wakeSlices_hide])

theorem gather_hide (h_regs : M .regs = true) (h_fe : M .fe = true) (h_xl : M .xl = true) (h_sp : M .sp = true) (h_up : M .up = true) (h_fl : M .fl = true) (h_tel : M .tel = true) (h_pw : M .pw = true) (h_out : M .out = true) (s : State) (d : Desc) : hide M (State.gather s d) = hide M s := by
  unfold State.gather
  simp only [hide_ite, ite_self, eq_self, h_regs, h_fe, h_xl, h_sp, h_up, h_fl, h_tel, h_pw, h_out, admitWindow_hide, emptyGather_hide, endDesc_hide, onSp_hide]

theorem execGatherPool_hide (h_regs : M .regs = true) (h_fe : M .fe = true) (h_xl : M .xl = true) (h_sp : M .sp = true) (h_up : M .up = true) (h_fl : M .fl = true) (h_tel : M .tel = true) (h_pw : M .pw = true) (h_out : M .out = true) (id : Nat) (s : State) (t : State) (e : execGatherPool id s = .next t) : hide M t = hide M s := by
  refine next_hide e ?_
  (repeat' split) <;> simp only [eq_self, h_regs, h_fe, h_xl, h_sp, h_up, h_fl, h_tel, h_pw, h_out, gather_hide]

theorem execGatherSeq_hide (h_regs : M .regs = true) (h_fe : M .fe = true) (h_xl : M .xl = true) (h_sp : M .sp = true) (h_up : M .up = true) (h_fl : M .fl = true) (h_tel : M .tel = true) (h_pw : M .pw = true) (h_out : M .out = true) (id : Nat) (s : State) (t : State) (e : execGatherSeq id s = .next t) : hide M t = hide M s := by
  refine next_hide e ?_
  (repeat' split) <;> simp only [eq_self, h_regs, h_fe, h_xl, h_sp, h_up, h_fl, h_tel, h_pw, h_out, gather_hide]

theorem execRowList_hide (h_fe : M .fe = true) (h_sp : M .sp = true) (h_tel : M .tel = true) (h_pw : M .pw = true) (h_out : M .out = true) (id : Nat) (s : State) (t : State) (e : execRowList id s = .next t) : hide M t = hide M s := by
  refine next_hide e ?_
  (repeat' split) <;> simp only [eq_self, h_fe, h_sp, h_tel, h_pw, h_out, admitWindow_hide, endOk_hide]

theorem sortOne_hide (h_fe : M .fe = true) (h_sp : M .sp = true) (h_up : M .up = true) (h_tel : M .tel = true) (s : State) (d : Desc) (m0 : Member') (rot : Nat) : hide M (State.sortOne s d m0 rot).1 = hide M s := by
  unfold State.sortOne
  try dsimp only
  repeat' first
    | with_reducible rfl
    | (simp only [hide_ite, ite_self, ite_fst, implies_true, eq_self, h_fe, h_sp, h_up, h_tel, countN_hide, enterIntake_hide, onDesc_hide, onSp_hide, onUp_hide, startPooling_hide]; done)
    | with_reducible apply hide_if
    | with_reducible apply hide_if1
    | split
    | (rw [forEach_hide])
    | (rw [foldl_hide])
    | (rw [foldlS_hide])
    | (intro; intros; try dsimp only)
    | (simp only [hide_ite, ite_self, ite_fst, implies_true, eq_self, h_fe, h_sp, h_up, h_tel, countN_hide, enterIntake_hide, onDesc_hide, onSp_hide, onUp_hide, startPooling_hide])

theorem sortAll_hide (h_fe : M .fe = true) (h_sp : M .sp = true) (h_up : M .up = true) (h_tel : M .tel = true) (s : State) (packed : Bool) (y0 : List Member') : hide M (State.sortAll s packed y0).1 = hide M s := by
  fun_induction State.sortAll s packed y0
  all_goals
    repeat' first
      | with_reducible rfl
      | assumption
      | (simp +zetaDelta only [*, hide_ite, ite_self, ite_fst, implies_true, eq_self, h_fe, h_sp, h_up, h_tel, sortOne_hide]; done)
      | with_reducible apply hide_if
      | with_reducible apply hide_if1
      | split
      | (rw [forEach_hide])
      | (rw [foldl_hide])
      | (rw [foldlS_hide])
      | (intro; intros; try dsimp only)
      | (simp +zetaDelta only [*, hide_ite, ite_self, ite_fst, implies_true, eq_self, h_fe, h_sp, h_up, h_tel, sortOne_hide])

theorem sortParity_hide (h_fe : M .fe = true) (h_xl : M .xl = true) (h_sp : M .sp = true) (h_up : M .up = true) (h_fl : M .fl = true) (h_tel : M .tel = true) (h_out : M .out = true) (s : State) (k : Nat) (w : Window) : hide M (State.sortParity s k w) = hide M s := by
  unfold State.sortParity
  try dsimp only
  repeat' first
    | with_reducible rfl
    | (simp only [hide_ite, ite_self, ite_fst, implies_true, eq_self, h_fe, h_xl, h_sp, h_up, h_fl, h_tel, h_out, forEach_hide, count_hide, endDesc_hide, onSp_hide, readAnew_hide, tell_hide]; done)
    | with_reducible apply hide_if
    | with_reducible apply hide_if1
    | split
    | (rw [forEach_hide])
    | (rw [foldl_hide])
    | (rw [foldlS_hide])
    | (intro; intros; try dsimp only)
    | (simp only [hide_ite, ite_self, ite_fst, implies_true, eq_self, h_fe, h_xl, h_sp, h_up, h_fl, h_tel, h_out, forEach_hide, count_hide, endDesc_hide, onSp_hide, readAnew_hide, tell_hide])

theorem noteLists_hide (h_gs : M .gs = true) (h_tel : M .tel = true) (s : State) (spills : Bool) (m : Member') : hide M (State.noteLists s spills m) = hide M s := by
  unfold State.noteLists
  try dsimp only
  repeat' first
    | with_reducible rfl
    | (simp only [hide_ite, ite_self, ite_fst, implies_true, eq_self, h_gs, h_tel, count_hide, noteScratch_hide]; done)
    | with_reducible apply hide_if
    | with_reducible apply hide_if1
    | split
    | (rw [forEach_hide])
    | (rw [foldl_hide])
    | (rw [foldlS_hide])
    | (intro; intros; try dsimp only)
    | (simp only [hide_ite, ite_self, ite_fst, implies_true, eq_self, h_gs, h_tel, count_hide, noteScratch_hide])

theorem sortDone_hide (h_regs : M .regs = true) (h_fe : M .fe = true) (h_xl : M .xl = true) (h_sp : M .sp = true) (h_up : M .up = true) (h_gs : M .gs = true) (h_fl : M .fl = true) (h_tel : M .tel = true) (h_pw : M .pw = true) (h_out : M .out = true) (s : State) (k : Nat) (parity : Bool) : hide M (State.sortDone s k parity) = hide M s := by
  unfold State.sortDone
  try dsimp only
  repeat' first
    | with_reducible rfl
    | (simp only [hide_ite, ite_self, ite_fst, implies_true, eq_self, h_regs, h_fe, h_xl, h_sp, h_up, h_gs, h_fl, h_tel, h_pw, h_out, forEach_hide, addPwin_hide, noteLists_hide, onSp_hide, sortAll_hide, sortParity_hide]; done)
    | with_reducible apply hide_if
    | with_reducible apply hide_if1
    | split
    | (rw [forEach_hide])
    | (rw [foldl_hide])
    | (rw [foldlS_hide])
    | (intro; intros; try dsimp only)
    | (simp only [hide_ite, ite_self, ite_fst, implies_true, eq_self, h_regs, h_fe, h_xl, h_sp, h_up, h_gs, h_fl, h_tel, h_pw, h_out, forEach_hide, addPwin_hide, noteLists_hide, onSp_hide, sortAll_hide, sortParity_hide])

theorem execWindowComplete_hide (h_regs : M .regs = true) (h_fe : M .fe = true) (h_xl : M .xl = true) (h_sp : M .sp = true) (h_up : M .up = true) (h_gs : M .gs = true) (h_fl : M .fl = true) (h_tel : M .tel = true) (h_pw : M .pw = true) (h_out : M .out = true) (sorter : Nat) (parity : Bool) (s : State) (t : State) (e : execWindowComplete sorter parity s = .next t) : hide M t = hide M s := by
  simp only [execWindowComplete, Host.Outcome.next.injEq] at e
  subst e
  repeat' first
    | with_reducible rfl
    | (simp only [hide_ite, ite_self, ite_fst, implies_true, eq_self, h_regs, h_fe, h_xl, h_sp, h_up, h_gs, h_fl, h_tel, h_pw, h_out, sortDone_hide]; done)
    | with_reducible apply hide_if
    | with_reducible apply hide_if1
    | split
    | (rw [forEach_hide])
    | (rw [foldl_hide])
    | (rw [foldlS_hide])
    | (intro; intros; try dsimp only)
    | (simp only [hide_ite, ite_self, ite_fst, implies_true, eq_self, h_regs, h_fe, h_xl, h_sp, h_up, h_gs, h_fl, h_tel, h_pw, h_out, sortDone_hide])

theorem raDrop_hide (h_tel : M .tel = true) (s : State) (st : BitVec 8) : hide M (State.raDrop s st) = hide M s := by
  unfold State.raDrop
  simp only [eq_self, h_tel, count_hide]

theorem scanKey_hide (h_tb : M .tb = true) (h_sp : M .sp = true) (h_up : M .up = true) (h_ch : M .ch = true) (h_gs : M .gs = true) (h_mem : M .mem = true) (h_fl : M .fl = true) (h_tel : M .tel = true) (h_rl : M .rl = true) (h_out : M .out = true) (s : State) (d : Desc) (m : Member') (rows : List (Key × RowSrc)) (fails : WbFails) (k : Key) : hide M (State.scanKey s d m rows fails k).1 = hide M s := by
  unfold State.scanKey
  try dsimp only
  repeat' first
    | with_reducible rfl
    | (simp only [hide_ite, ite_self, ite_fst, implies_true, eq_self, h_tb, h_sp, h_up, h_ch, h_gs, h_mem, h_fl, h_tel, h_rl, h_out, admitForced_hide, count_hide, onSp_hide, raDrop_hide, readRow_hide]; done)
    | with_reducible apply hide_if
    | with_reducible apply hide_if1
    | split
    | (rw [forEach_hide])
    | (rw [foldl_hide])
    | (rw [foldlS_hide])
    | (intro; intros; try dsimp only)
    | (simp only [hide_ite, ite_self, ite_fst, implies_true, eq_self, h_tb, h_sp, h_up, h_ch, h_gs, h_mem, h_fl, h_tel, h_rl, h_out, admitForced_hide, count_hide, onSp_hide, raDrop_hide, readRow_hide])

theorem scanKeys_hide (h_tb : M .tb = true) (h_sp : M .sp = true) (h_up : M .up = true) (h_ch : M .ch = true) (h_gs : M .gs = true) (h_mem : M .mem = true) (h_fl : M .fl = true) (h_tel : M .tel = true) (h_rl : M .rl = true) (h_out : M .out = true) (s : State) (d : Desc) (m : Member') (rows : List (Key × RowSrc)) (fails : WbFails) (y0 : List (Option Key)) : hide M (State.scanKeys s d m rows fails y0) = hide M s := by
  fun_induction State.scanKeys s d m rows fails y0
  all_goals
    repeat' first
      | with_reducible rfl
      | assumption
      | (simp +zetaDelta only [*, hide_ite, ite_self, ite_fst, implies_true, eq_self, h_tb, h_sp, h_up, h_ch, h_gs, h_mem, h_fl, h_tel, h_rl, h_out, scanKey_hide]; done)
      | with_reducible apply hide_if
      | with_reducible apply hide_if1
      | split
      | (rw [forEach_hide])
      | (rw [foldl_hide])
      | (rw [foldlS_hide])
      | (intro; intros; try dsimp only)
      | (simp +zetaDelta only [*, hide_ite, ite_self, ite_fst, implies_true, eq_self, h_tb, h_sp, h_up, h_ch, h_gs, h_mem, h_fl, h_tel, h_rl, h_out, scanKey_hide])

theorem runAheadScan_hide (h_tb : M .tb = true) (h_sp : M .sp = true) (h_up : M .up = true) (h_ch : M .ch = true) (h_gs : M .gs = true) (h_mem : M .mem = true) (h_fl : M .fl = true) (h_tel : M .tel = true) (h_rl : M .rl = true) (h_out : M .out = true) (s : State) (id : Nat) (keys : Feed) (rows : List (Key × RowSrc)) (fails : WbFails) : hide M (State.runAheadScan s id keys rows fails) = hide M s := by
  unfold State.runAheadScan
  try dsimp only
  repeat' first
    | with_reducible rfl
    | (simp only [hide_ite, ite_self, ite_fst, implies_true, eq_self, h_tb, h_sp, h_up, h_ch, h_gs, h_mem, h_fl, h_tel, h_rl, h_out, count_hide, onSp_hide, raDrop_hide, scanKeys_hide, countN_hide]; done)
    | with_reducible apply hide_if
    | with_reducible apply hide_if1
    | split
    | (rw [forEach_hide])
    | (rw [foldl_hide])
    | (rw [foldlS_hide])
    | (intro; intros; try dsimp only)
    | (simp only [hide_ite, ite_self, ite_fst, implies_true, eq_self, h_tb, h_sp, h_up, h_ch, h_gs, h_mem, h_fl, h_tel, h_rl, h_out, count_hide, onSp_hide, raDrop_hide, scanKeys_hide, countN_hide])

theorem execRunAheadScan_hide (h_tb : M .tb = true) (h_sp : M .sp = true) (h_up : M .up = true) (h_ch : M .ch = true) (h_gs : M .gs = true) (h_mem : M .mem = true) (h_fl : M .fl = true) (h_tel : M .tel = true) (h_rl : M .rl = true) (h_out : M .out = true) (id : Nat) (keys : Feed) (rows : List (Key × RowSrc)) (fails : WbFails) (s : State) (t : State) (e : execRunAheadScan id keys rows fails s = .next t) : hide M t = hide M s := by
  simp only [execRunAheadScan, Host.Outcome.next.injEq] at e
  subst e
  repeat' first
    | with_reducible rfl
    | (simp only [hide_ite, ite_self, ite_fst, implies_true, eq_self, h_tb, h_sp, h_up, h_ch, h_gs, h_mem, h_fl, h_tel, h_rl, h_out, runAheadScan_hide]; done)
    | with_reducible apply hide_if
    | with_reducible apply hide_if1
    | split
    | (rw [forEach_hide])
    | (rw [foldl_hide])
    | (rw [foldlS_hide])
    | (intro; intros; try dsimp only)
    | (simp only [hide_ite, ite_self, ite_fst, implies_true, eq_self, h_tb, h_sp, h_up, h_ch, h_gs, h_mem, h_fl, h_tel, h_rl, h_out, runAheadScan_hide])

theorem imapRel_hide (h_regs : M .regs = true) (h_sp : M .sp = true) (h_tel : M .tel = true) (h_st : M .st = true) (h_out : M .out = true) (s : State) (p : Path) (val : Word64) : hide M (State.imapRel s p val) = hide M s := by
  unfold State.imapRel
  try dsimp only
  repeat' first
    | with_reducible rfl
    | (simp only [hide_ite, ite_self, ite_fst, implies_true, eq_self, h_regs, h_sp, h_tel, h_st, h_out, cmdField_hide, command_hide, freeKept_hide, put_imapRel_hide]; done)
    | with_reducible apply hide_if
    | with_reducible apply hide_if1
    | split
    | (rw [forEach_hide])
    | (rw [foldl_hide])
    | (rw [foldlS_hide])
    | (rw [cmdField_hide])
    | (rw [command_hide])
    | assumption
    | (intro; intros; try dsimp only)
    | (simp only [hide_ite, ite_self, ite_fst, implies_true, eq_self, h_regs, h_sp, h_tel, h_st, h_out, cmdField_hide, command_hide, freeKept_hide, put_imapRel_hide])

theorem execImapRel_hide (h_regs : M .regs = true) (h_sp : M .sp = true) (h_tel : M .tel = true) (h_st : M .st = true) (h_out : M .out = true) (p : Path) (val : Word64) (s : State) (t : State) (e : execImapRel p val s = .next t) : hide M t = hide M s := by
  simp only [execImapRel, Host.Outcome.next.injEq] at e
  subst e
  repeat' first
    | with_reducible rfl
    | (simp only [hide_ite, ite_self, ite_fst, implies_true, eq_self, h_regs, h_sp, h_tel, h_st, h_out, imapRel_hide]; done)
    | with_reducible apply hide_if
    | with_reducible apply hide_if1
    | split
    | (rw [forEach_hide])
    | (rw [foldl_hide])
    | (rw [foldlS_hide])
    | (intro; intros; try dsimp only)
    | (simp only [hide_ite, ite_self, ite_fst, implies_true, eq_self, h_regs, h_sp, h_tel, h_st, h_out, imapRel_hide])

end Sys2Proof.Laws
end

