-- ==== Sys2Proof/Laws/CanonSorting.lean ====
section
/-!
SUPPORT. What Machine/Sorting.lean defines keeps Ground store's bytes in canonical form.
-/

namespace Sys2Proof.Laws

open Sys2Proof.Machine

theorem scanKey_canon (s : State) (d : Desc) (m : Member') (rows : List (Key × RowSrc)) (fails : WbFails) (k : Key) (hs : Canon (hide butMem s)) : Canon (hide butMem (State.scanKey s d m rows fails k).1) := by
  unfold State.scanKey
  try dsimp only
  repeat' first
    | with_reducible assumption
    | split
    | (with_reducible apply admitForced_canon)
    | with_reducible apply forEach_canon
    | with_reducible apply foldl_canon
    | (intro; intros; try dsimp only)
    | (simp only [count_hide (M := butMem) rfl, raDrop_hide (M := butMem) rfl, readRow_hide (M := butMem) rfl rfl rfl rfl rfl rfl, onSp_hide (M := butMem) rfl, implies_true, eq_self])

theorem scanKeys_canon (s : State) (d : Desc) (m : Member') (rows : List (Key × RowSrc)) (fails : WbFails) (y0 : List (Option Key)) (hs : Canon (hide butMem s)) : Canon (hide butMem (State.scanKeys s d m rows fails y0)) := by
  fun_induction State.scanKeys s d m rows fails y0
  all_goals
    repeat' first
      | with_reducible assumption
      | split
      | (with_reducible apply scanKey_canon)
      | (with_reducible apply_assumption)
      | with_reducible apply forEach_canon
      | with_reducible apply foldl_canon
      | (intro; intros; try dsimp only)
      | (simp +zetaDelta only [implies_true, eq_self])

theorem runAheadScan_canon (s : State) (id : Nat) (keys : Feed) (rows : List (Key × RowSrc)) (fails : WbFails) (hs : Canon (hide butMem s)) : Canon (hide butMem (State.runAheadScan s id keys rows fails)) := by
  unfold State.runAheadScan
  try dsimp only
  repeat' first
    | with_reducible assumption
    | split
    | (with_reducible apply scanKeys_canon)
    | with_reducible apply forEach_canon
    | with_reducible apply foldl_canon
    | (intro; intros; try dsimp only)
    | (simp only [countN_hide (M := butMem) rfl, count_hide (M := butMem) rfl, raDrop_hide (M := butMem) rfl, onSp_hide (M := butMem) rfl, implies_true, eq_self])

theorem execRunAheadScan_canon (id : Nat) (keys : Feed) (rows : List (Key × RowSrc)) (fails : WbFails) (s : State) (t : State) (e : execRunAheadScan id keys rows fails s = .next t) (hs : Canon (hide butMem s)) : Canon (hide butMem t) := by
  refine next_canon e ?_
  repeat' first
    | with_reducible assumption
    | split
    | (with_reducible apply runAheadScan_canon)
    | with_reducible apply forEach_canon
    | with_reducible apply foldl_canon
    | (intro; intros; try dsimp only)
    | (simp only [implies_true, eq_self])

end Sys2Proof.Laws
end

