-- ==== Sys2Proof/Laws/CanonVersions.lean ====
section
/-!
SUPPORT. What Machine/Versions.lean defines keeps Ground store's bytes in canonical form.
-/

namespace Sys2Proof.Laws

open Sys2Proof.Machine

theorem rewriteWay_canon (s : State) (w : Way) (g : Grade) (b : Bytes) (fails : WbFails) (hs : Canon (hide butMem s)) : Canon (hide butMem (State.rewriteWay s w g b fails).1) := by
  unfold State.rewriteWay
  try dsimp only
  repeat' first
    | with_reducible assumption
    | split
    | (with_reducible apply writeSlot_canon)
    | with_reducible apply forEach_canon
    | with_reducible apply foldl_canon
    | (intro; intros; try dsimp only)
    | (simp only [markHead_hide (M := butMem) rfl rfl rfl, putWay_hide (M := butMem) rfl, takeSlot_hide (M := butMem) rfl rfl rfl rfl rfl rfl rfl, implies_true, eq_self])

theorem rewriteWays_canon (s : State) (g : Grade) (b : Bytes) (fails : WbFails) (y0 : List Way) (hs : Canon (hide butMem s)) : Canon (hide butMem (State.rewriteWays s g b fails y0).1) := by
  fun_induction State.rewriteWays s g b fails y0
  all_goals
    repeat' first
      | with_reducible assumption
      | split
      | (with_reducible apply rewriteWay_canon)
      | (with_reducible apply_assumption)
      | with_reducible apply forEach_canon
      | with_reducible apply foldl_canon
      | (intro; intros; try dsimp only)
      | (simp +zetaDelta only [implies_true, eq_self])

theorem regradeTo_canon (s : State) (t : Table) (k : Key) (ver : Nat) (g old : Grade) (record : Bytes) (fails : WbFails) (hs : Canon (hide butMem s)) : Canon (hide butMem (State.regradeTo s t k ver g old record fails)) := by
  unfold State.regradeTo
  try dsimp only
  repeat' first
    | with_reducible assumption
    | split
    | (with_reducible apply placeCopy_canon)
    | (with_reducible apply rewriteWays_canon)
    | with_reducible apply forEach_canon
    | with_reducible apply foldl_canon
    | (intro; intros; try dsimp only)
    | (simp only [count_hide (M := butMem) rfl, dropWays_hide (M := butMem) rfl rfl rfl, encCopy_hide (M := butMem) rfl, regradeStop_hide (M := butMem) rfl, implies_true, eq_self])

theorem regradeRow_canon (s : State) (k : Key) (ver : Nat) (src : RowSrc) (fails : WbFails) (hs : Canon (hide butMem s)) : Canon (hide butMem (State.regradeRow s k ver src fails)) := by
  unfold State.regradeRow
  try dsimp only
  repeat' first
    | with_reducible assumption
    | split
    | (with_reducible apply regradeTo_canon)
    | with_reducible apply forEach_canon
    | with_reducible apply foldl_canon
    | (intro; intros; try dsimp only)
    | (simp only [count_hide (M := butMem) rfl, dropRow_hide (M := butMem) rfl rfl rfl rfl rfl, intoBand_hide (M := butMem) rfl, regradeSrc_hide (M := butMem) rfl rfl rfl rfl rfl rfl rfl, regradeStop_hide (M := butMem) rfl, setBand_hide (M := butMem) rfl, writeBackRow_hide (M := butMem) rfl rfl rfl rfl rfl rfl rfl, onTb_hide (M := butMem) rfl, implies_true, eq_self])

theorem execRegrade_canon (tbl ver row : Nat) (src : RowSrc) (fails : WbFails) (s : State) (t : State) (e : execRegrade tbl ver row src fails s = .next t) (hs : Canon (hide butMem s)) : Canon (hide butMem t) := by
  refine next_canon e ?_
  repeat' first
    | with_reducible assumption
    | split
    | (with_reducible apply regradeRow_canon)
    | with_reducible apply forEach_canon
    | with_reducible apply foldl_canon
    | (intro; intros; try dsimp only)
    | (simp only [implies_true, eq_self])

end Sys2Proof.Laws
end

