-- ==== Sys2Proof/Laws/Maps.lean ====
section
/-!
SUPPORT. Laws of sparse maps.
-/

namespace Sys2Proof.Laws

open Sys2Proof.Machine

theorem mget_mset {α : Type} (m : SMap α) (k : Nat) (v : α) (j : Nat) : mget (mset m k v) j = if k = j then some v else mget m j := by
  induction m with
  | nil => rfl
  | cons e t ih =>
    obtain ⟨i, w⟩ := e
    rw [mset]
    split
    · rename_i h; subst h; rw [mget, mget]; split <;> rfl
    · split
      · rw [mget]
      · rw [mget, ih, mget]
        split
        · rename_i h1 _ h2; subst h2; rw [if_neg (fun e => h1 e.symm)]
        · rfl

@[simp] theorem mget_mset_self {α : Type} (m : SMap α) (k : Nat) (v : α) : mget (mset m k v) k = some v := by
  rw [mget_mset, if_pos rfl]

theorem mget_mset_ne {α : Type} (m : SMap α) (k : Nat) (v : α) (j : Nat) (h : k ≠ j) : mget (mset m k v) j = mget m j := by
  rw [mget_mset, if_neg h]

theorem mget_mdel {α : Type} (m : SMap α) (k j : Nat) : mget (mdel m k) j = if k = j then none else mget m j := by
  induction m with
  | nil => rw [mdel, mget, ite_self]
  | cons e t ih =>
    obtain ⟨i, w⟩ := e
    rw [mdel]
    split
    · rename_i h; subst h; rw [ih, mget]; split <;> rfl
    · rw [mget, ih, mget]
      split
      · rename_i h1 h2; subst h2; rw [if_neg (fun e => h1 e.symm)]
      · rfl

@[simp] theorem mgetD_mset_self {α : Type} (m : SMap α) (k : Nat) (v d : α) : mgetD (mset m k v) k d = v := by
  unfold mgetD; rw [mget_mset_self]; rfl

theorem mgetD_mset_ne {α : Type} (m : SMap α) (k : Nat) (v : α) (j : Nat) (d : α) (h : k ≠ j) : mgetD (mset m k v) j d = mgetD m j d := by
  unfold mgetD; rw [mget_mset_ne _ _ _ _ h]

end Sys2Proof.Laws
end

