-- ==== Sys2Proof/Laws/Command.lean ====
section
/-!
SUPPORT. What a register command does where it starts: it runs on a state that differs only in registers, telemetry and what Steta
keeps of authority.
-/

namespace Sys2Proof.Laws

open Sys2Proof.Machine

/-- What the start of a register command may change. -/
def startMask : Mask := fun z => [Zone.regs, .pregs, .ctxCfg, .updCfg, .fwdCfg, .drvCfg, .tel, .st].contains z

theorem command_runs {s : State} {p : Path} {off go least : Nat} {audited : Bool} {core : Option Nat}
    (h : s.starts p off go least audited core = true) (val : Word64) (run : State → State) :
    ∃ s1, s.command p off go least audited core val run = run s1 ∧ hide startMask s1 = hide startMask s := by
  simp only [State.starts, Bool.and_eq_true, beq_iff_eq, Bool.not_eq_true'] at h
  obtain ⟨⟨⟨hg, h0⟩, hc⟩, ha⟩ := h
  unfold State.command
  rw [hg]
  dsimp only
  rw [h0]
  rw [Bool.false_and, if_neg Bool.false_ne_true, ha, if_neg Bool.false_ne_true]
  cases core with
  | none =>
    dsimp only
    rw [Bool.not_true, if_neg Bool.false_ne_true]
    refine ⟨_, rfl, ?_⟩
    rw [regPut_hide (M := startMask) rfl rfl rfl rfl rfl rfl rfl rfl]
    split
    · rw [auditReg_hide (M := startMask) rfl rfl, set_st_hide (M := startMask) rfl]
    · rw [set_st_hide (M := startMask) rfl]
  | some r =>
    have hr : s.roleUp r = true := hc
    dsimp only
    rw [if_neg (by rw [hr]; decide)]
    refine ⟨_, rfl, ?_⟩
    rw [regPut_hide (M := startMask) rfl rfl rfl rfl rfl rfl rfl rfl]
    split
    · rw [auditReg_hide (M := startMask) rfl rfl, set_st_hide (M := startMask) rfl]
    · rw [set_st_hide (M := startMask) rfl]

end Sys2Proof.Laws
end

