-- ==== Sys2Proof/Laws/State.lean ====
section
/-!
SUPPORT. Each part of the state after each update of a part: no later proof unfolds a record update.
-/

namespace Sys2Proof.Laws

open Sys2Proof.Machine

@[simp] theorem onFe_pending (s : State) (f : FrontEnd → FrontEnd) : (s.onFe f).pending = s.pending := rfl
@[simp] theorem onFe_fuses (s : State) (f : FrontEnd → FrontEnd) : (s.onFe f).fuses = s.fuses := rfl
@[simp] theorem onFe_regs (s : State) (f : FrontEnd → FrontEnd) : (s.onFe f).regs = s.regs := rfl
@[simp] theorem onFe_pregs (s : State) (f : FrontEnd → FrontEnd) : (s.onFe f).pregs = s.pregs := rfl
@[simp] theorem onFe_lows (s : State) (f : FrontEnd → FrontEnd) : (s.onFe f).lows = s.lows := rfl
@[simp] theorem onFe_ctxCfg (s : State) (f : FrontEnd → FrontEnd) : (s.onFe f).ctxCfg = s.ctxCfg := rfl
@[simp] theorem onFe_updCfg (s : State) (f : FrontEnd → FrontEnd) : (s.onFe f).updCfg = s.updCfg := rfl
@[simp] theorem onFe_fwdCfg (s : State) (f : FrontEnd → FrontEnd) : (s.onFe f).fwdCfg = s.fwdCfg := rfl
@[simp] theorem onFe_drvCfg (s : State) (f : FrontEnd → FrontEnd) : (s.onFe f).drvCfg = s.drvCfg := rfl
@[simp] theorem onFe_fe (s : State) (f : FrontEnd → FrontEnd) : (s.onFe f).fe = f s.fe := rfl
@[simp] theorem onFe_xl (s : State) (f : FrontEnd → FrontEnd) : (s.onFe f).xl = s.xl := rfl
@[simp] theorem onFe_tb (s : State) (f : FrontEnd → FrontEnd) : (s.onFe f).tb = s.tb := rfl
@[simp] theorem onFe_sp (s : State) (f : FrontEnd → FrontEnd) : (s.onFe f).sp = s.sp := rfl
@[simp] theorem onFe_qz (s : State) (f : FrontEnd → FrontEnd) : (s.onFe f).qz = s.qz := rfl
@[simp] theorem onFe_up (s : State) (f : FrontEnd → FrontEnd) : (s.onFe f).up = s.up := rfl
@[simp] theorem onFe_ch (s : State) (f : FrontEnd → FrontEnd) : (s.onFe f).ch = s.ch := rfl
@[simp] theorem onFe_gs (s : State) (f : FrontEnd → FrontEnd) : (s.onFe f).gs = s.gs := rfl
@[simp] theorem onFe_fl (s : State) (f : FrontEnd → FrontEnd) : (s.onFe f).fl = s.fl := rfl
@[simp] theorem onFe_tel (s : State) (f : FrontEnd → FrontEnd) : (s.onFe f).tel = s.tel := rfl
@[simp] theorem onFe_pw (s : State) (f : FrontEnd → FrontEnd) : (s.onFe f).pw = s.pw := rfl
@[simp] theorem onFe_st (s : State) (f : FrontEnd → FrontEnd) : (s.onFe f).st = s.st := rfl
@[simp] theorem onFe_i3 (s : State) (f : FrontEnd → FrontEnd) : (s.onFe f).i3 = s.i3 := rfl
@[simp] theorem onFe_rl (s : State) (f : FrontEnd → FrontEnd) : (s.onFe f).rl = s.rl := rfl
@[simp] theorem onFe_free (s : State) (f : FrontEnd → FrontEnd) : (s.onFe f).free = s.free := rfl
@[simp] theorem onFe_out (s : State) (f : FrontEnd → FrontEnd) : (s.onFe f).out = s.out := rfl

@[simp] theorem onXl_pending (s : State) (f : Translation → Translation) : (s.onXl f).pending = s.pending := rfl
@[simp] theorem onXl_fuses (s : State) (f : Translation → Translation) : (s.onXl f).fuses = s.fuses := rfl
@[simp] theorem onXl_regs (s : State) (f : Translation → Translation) : (s.onXl f).regs = s.regs := rfl
@[simp] theorem onXl_pregs (s : State) (f : Translation → Translation) : (s.onXl f).pregs = s.pregs := rfl
@[simp] theorem onXl_lows (s : State) (f : Translation → Translation) : (s.onXl f).lows = s.lows := rfl
@[simp] theorem onXl_ctxCfg (s : State) (f : Translation → Translation) : (s.onXl f).ctxCfg = s.ctxCfg := rfl
@[simp] theorem onXl_updCfg (s : State) (f : Translation → Translation) : (s.onXl f).updCfg = s.updCfg := rfl
@[simp] theorem onXl_fwdCfg (s : State) (f : Translation → Translation) : (s.onXl f).fwdCfg = s.fwdCfg := rfl
@[simp] theorem onXl_drvCfg (s : State) (f : Translation → Translation) : (s.onXl f).drvCfg = s.drvCfg := rfl
@[simp] theorem onXl_fe (s : State) (f : Translation → Translation) : (s.onXl f).fe = s.fe := rfl
@[simp] theorem onXl_xl (s : State) (f : Translation → Translation) : (s.onXl f).xl = f s.xl := rfl
@[simp] theorem onXl_tb (s : State) (f : Translation → Translation) : (s.onXl f).tb = s.tb := rfl
@[simp] theorem onXl_sp (s : State) (f : Translation → Translation) : (s.onXl f).sp = s.sp := rfl
@[simp] theorem onXl_qz (s : State) (f : Translation → Translation) : (s.onXl f).qz = s.qz := rfl
@[simp] theorem onXl_up (s : State) (f : Translation → Translation) : (s.onXl f).up = s.up := rfl
@[simp] theorem onXl_ch (s : State) (f : Translation → Translation) : (s.onXl f).ch = s.ch := rfl
@[simp] theorem onXl_gs (s : State) (f : Translation → Translation) : (s.onXl f).gs = s.gs := rfl
@[simp] theorem onXl_fl (s : State) (f : Translation → Translation) : (s.onXl f).fl = s.fl := rfl
@[simp] theorem onXl_tel (s : State) (f : Translation → Translation) : (s.onXl f).tel = s.tel := rfl
@[simp] theorem onXl_pw (s : State) (f : Translation → Translation) : (s.onXl f).pw = s.pw := rfl
@[simp] theorem onXl_st (s : State) (f : Translation → Translation) : (s.onXl f).st = s.st := rfl
@[simp] theorem onXl_i3 (s : State) (f : Translation → Translation) : (s.onXl f).i3 = s.i3 := rfl
@[simp] theorem onXl_rl (s : State) (f : Translation → Translation) : (s.onXl f).rl = s.rl := rfl
@[simp] theorem onXl_free (s : State) (f : Translation → Translation) : (s.onXl f).free = s.free := rfl
@[simp] theorem onXl_out (s : State) (f : Translation → Translation) : (s.onXl f).out = s.out := rfl

@[simp] theorem onTb_pending (s : State) (f : Tables → Tables) : (s.onTb f).pending = s.pending := rfl
@[simp] theorem onTb_fuses (s : State) (f : Tables → Tables) : (s.onTb f).fuses = s.fuses := rfl
@[simp] theorem onTb_regs (s : State) (f : Tables → Tables) : (s.onTb f).regs = s.regs := rfl
@[simp] theorem onTb_pregs (s : State) (f : Tables → Tables) : (s.onTb f).pregs = s.pregs := rfl
@[simp] theorem onTb_lows (s : State) (f : Tables → Tables) : (s.onTb f).lows = s.lows := rfl
@[simp] theorem onTb_ctxCfg (s : State) (f : Tables → Tables) : (s.onTb f).ctxCfg = s.ctxCfg := rfl
@[simp] theorem onTb_updCfg (s : State) (f : Tables → Tables) : (s.onTb f).updCfg = s.updCfg := rfl
@[simp] theorem onTb_fwdCfg (s : State) (f : Tables → Tables) : (s.onTb f).fwdCfg = s.fwdCfg := rfl
@[simp] theorem onTb_drvCfg (s : State) (f : Tables → Tables) : (s.onTb f).drvCfg = s.drvCfg := rfl
@[simp] theorem onTb_fe (s : State) (f : Tables → Tables) : (s.onTb f).fe = s.fe := rfl
@[simp] theorem onTb_xl (s : State) (f : Tables → Tables) : (s.onTb f).xl = s.xl := rfl
@[simp] theorem onTb_tb (s : State) (f : Tables → Tables) : (s.onTb f).tb = f s.tb := rfl
@[simp] theorem onTb_sp (s : State) (f : Tables → Tables) : (s.onTb f).sp = s.sp := rfl
@[simp] theorem onTb_qz (s : State) (f : Tables → Tables) : (s.onTb f).qz = s.qz := rfl
@[simp] theorem onTb_up (s : State) (f : Tables → Tables) : (s.onTb f).up = s.up := rfl
@[simp] theorem onTb_ch (s : State) (f : Tables → Tables) : (s.onTb f).ch = s.ch := rfl
@[simp] theorem onTb_gs (s : State) (f : Tables → Tables) : (s.onTb f).gs = s.gs := rfl
@[simp] theorem onTb_fl (s : State) (f : Tables → Tables) : (s.onTb f).fl = s.fl := rfl
@[simp] theorem onTb_tel (s : State) (f : Tables → Tables) : (s.onTb f).tel = s.tel := rfl
@[simp] theorem onTb_pw (s : State) (f : Tables → Tables) : (s.onTb f).pw = s.pw := rfl
@[simp] theorem onTb_st (s : State) (f : Tables → Tables) : (s.onTb f).st = s.st := rfl
@[simp] theorem onTb_i3 (s : State) (f : Tables → Tables) : (s.onTb f).i3 = s.i3 := rfl
@[simp] theorem onTb_rl (s : State) (f : Tables → Tables) : (s.onTb f).rl = s.rl := rfl
@[simp] theorem onTb_free (s : State) (f : Tables → Tables) : (s.onTb f).free = s.free := rfl
@[simp] theorem onTb_out (s : State) (f : Tables → Tables) : (s.onTb f).out = s.out := rfl

@[simp] theorem onSp_pending (s : State) (f : SortPool → SortPool) : (s.onSp f).pending = s.pending := rfl
@[simp] theorem onSp_fuses (s : State) (f : SortPool → SortPool) : (s.onSp f).fuses = s.fuses := rfl
@[simp] theorem onSp_regs (s : State) (f : SortPool → SortPool) : (s.onSp f).regs = s.regs := rfl
@[simp] theorem onSp_pregs (s : State) (f : SortPool → SortPool) : (s.onSp f).pregs = s.pregs := rfl
@[simp] theorem onSp_lows (s : State) (f : SortPool → SortPool) : (s.onSp f).lows = s.lows := rfl
@[simp] theorem onSp_ctxCfg (s : State) (f : SortPool → SortPool) : (s.onSp f).ctxCfg = s.ctxCfg := rfl
@[simp] theorem onSp_updCfg (s : State) (f : SortPool → SortPool) : (s.onSp f).updCfg = s.updCfg := rfl
@[simp] theorem onSp_fwdCfg (s : State) (f : SortPool → SortPool) : (s.onSp f).fwdCfg = s.fwdCfg := rfl
@[simp] theorem onSp_drvCfg (s : State) (f : SortPool → SortPool) : (s.onSp f).drvCfg = s.drvCfg := rfl
@[simp] theorem onSp_fe (s : State) (f : SortPool → SortPool) : (s.onSp f).fe = s.fe := rfl
@[simp] theorem onSp_xl (s : State) (f : SortPool → SortPool) : (s.onSp f).xl = s.xl := rfl
@[simp] theorem onSp_tb (s : State) (f : SortPool → SortPool) : (s.onSp f).tb = s.tb := rfl
@[simp] theorem onSp_sp (s : State) (f : SortPool → SortPool) : (s.onSp f).sp = f s.sp := rfl
@[simp] theorem onSp_qz (s : State) (f : SortPool → SortPool) : (s.onSp f).qz = s.qz := rfl
@[simp] theorem onSp_up (s : State) (f : SortPool → SortPool) : (s.onSp f).up = s.up := rfl
@[simp] theorem onSp_ch (s : State) (f : SortPool → SortPool) : (s.onSp f).ch = s.ch := rfl
@[simp] theorem onSp_gs (s : State) (f : SortPool → SortPool) : (s.onSp f).gs = s.gs := rfl
@[simp] theorem onSp_fl (s : State) (f : SortPool → SortPool) : (s.onSp f).fl = s.fl := rfl
@[simp] theorem onSp_tel (s : State) (f : SortPool → SortPool) : (s.onSp f).tel = s.tel := rfl
@[simp] theorem onSp_pw (s : State) (f : SortPool → SortPool) : (s.onSp f).pw = s.pw := rfl
@[simp] theorem onSp_st (s : State) (f : SortPool → SortPool) : (s.onSp f).st = s.st := rfl
@[simp] theorem onSp_i3 (s : State) (f : SortPool → SortPool) : (s.onSp f).i3 = s.i3 := rfl
@[simp] theorem onSp_rl (s : State) (f : SortPool → SortPool) : (s.onSp f).rl = s.rl := rfl
@[simp] theorem onSp_free (s : State) (f : SortPool → SortPool) : (s.onSp f).free = s.free := rfl
@[simp] theorem onSp_out (s : State) (f : SortPool → SortPool) : (s.onSp f).out = s.out := rfl

@[simp] theorem onQz_pending (s : State) (f : Quant → Quant) : (s.onQz f).pending = s.pending := rfl
@[simp] theorem onQz_fuses (s : State) (f : Quant → Quant) : (s.onQz f).fuses = s.fuses := rfl
@[simp] theorem onQz_regs (s : State) (f : Quant → Quant) : (s.onQz f).regs = s.regs := rfl
@[simp] theorem onQz_pregs (s : State) (f : Quant → Quant) : (s.onQz f).pregs = s.pregs := rfl
@[simp] theorem onQz_lows (s : State) (f : Quant → Quant) : (s.onQz f).lows = s.lows := rfl
@[simp] theorem onQz_ctxCfg (s : State) (f : Quant → Quant) : (s.onQz f).ctxCfg = s.ctxCfg := rfl
@[simp] theorem onQz_updCfg (s : State) (f : Quant → Quant) : (s.onQz f).updCfg = s.updCfg := rfl
@[simp] theorem onQz_fwdCfg (s : State) (f : Quant → Quant) : (s.onQz f).fwdCfg = s.fwdCfg := rfl
@[simp] theorem onQz_drvCfg (s : State) (f : Quant → Quant) : (s.onQz f).drvCfg = s.drvCfg := rfl
@[simp] theorem onQz_fe (s : State) (f : Quant → Quant) : (s.onQz f).fe = s.fe := rfl
@[simp] theorem onQz_xl (s : State) (f : Quant → Quant) : (s.onQz f).xl = s.xl := rfl
@[simp] theorem onQz_tb (s : State) (f : Quant → Quant) : (s.onQz f).tb = s.tb := rfl
@[simp] theorem onQz_sp (s : State) (f : Quant → Quant) : (s.onQz f).sp = s.sp := rfl
@[simp] theorem onQz_qz (s : State) (f : Quant → Quant) : (s.onQz f).qz = f s.qz := rfl
@[simp] theorem onQz_up (s : State) (f : Quant → Quant) : (s.onQz f).up = s.up := rfl
@[simp] theorem onQz_ch (s : State) (f : Quant → Quant) : (s.onQz f).ch = s.ch := rfl
@[simp] theorem onQz_gs (s : State) (f : Quant → Quant) : (s.onQz f).gs = s.gs := rfl
@[simp] theorem onQz_fl (s : State) (f : Quant → Quant) : (s.onQz f).fl = s.fl := rfl
@[simp] theorem onQz_tel (s : State) (f : Quant → Quant) : (s.onQz f).tel = s.tel := rfl
@[simp] theorem onQz_pw (s : State) (f : Quant → Quant) : (s.onQz f).pw = s.pw := rfl
@[simp] theorem onQz_st (s : State) (f : Quant → Quant) : (s.onQz f).st = s.st := rfl
@[simp] theorem onQz_i3 (s : State) (f : Quant → Quant) : (s.onQz f).i3 = s.i3 := rfl
@[simp] theorem onQz_rl (s : State) (f : Quant → Quant) : (s.onQz f).rl = s.rl := rfl
@[simp] theorem onQz_free (s : State) (f : Quant → Quant) : (s.onQz f).free = s.free := rfl
@[simp] theorem onQz_out (s : State) (f : Quant → Quant) : (s.onQz f).out = s.out := rfl

@[simp] theorem onUp_pending (s : State) (f : Updates → Updates) : (s.onUp f).pending = s.pending := rfl
@[simp] theorem onUp_fuses (s : State) (f : Updates → Updates) : (s.onUp f).fuses = s.fuses := rfl
@[simp] theorem onUp_regs (s : State) (f : Updates → Updates) : (s.onUp f).regs = s.regs := rfl
@[simp] theorem onUp_pregs (s : State) (f : Updates → Updates) : (s.onUp f).pregs = s.pregs := rfl
@[simp] theorem onUp_lows (s : State) (f : Updates → Updates) : (s.onUp f).lows = s.lows := rfl
@[simp] theorem onUp_ctxCfg (s : State) (f : Updates → Updates) : (s.onUp f).ctxCfg = s.ctxCfg := rfl
@[simp] theorem onUp_updCfg (s : State) (f : Updates → Updates) : (s.onUp f).updCfg = s.updCfg := rfl
@[simp] theorem onUp_fwdCfg (s : State) (f : Updates → Updates) : (s.onUp f).fwdCfg = s.fwdCfg := rfl
@[simp] theorem onUp_drvCfg (s : State) (f : Updates → Updates) : (s.onUp f).drvCfg = s.drvCfg := rfl
@[simp] theorem onUp_fe (s : State) (f : Updates → Updates) : (s.onUp f).fe = s.fe := rfl
@[simp] theorem onUp_xl (s : State) (f : Updates → Updates) : (s.onUp f).xl = s.xl := rfl
@[simp] theorem onUp_tb (s : State) (f : Updates → Updates) : (s.onUp f).tb = s.tb := rfl
@[simp] theorem onUp_sp (s : State) (f : Updates → Updates) : (s.onUp f).sp = s.sp := rfl
@[simp] theorem onUp_qz (s : State) (f : Updates → Updates) : (s.onUp f).qz = s.qz := rfl
@[simp] theorem onUp_up (s : State) (f : Updates → Updates) : (s.onUp f).up = f s.up := rfl
@[simp] theorem onUp_ch (s : State) (f : Updates → Updates) : (s.onUp f).ch = s.ch := rfl
@[simp] theorem onUp_gs (s : State) (f : Updates → Updates) : (s.onUp f).gs = s.gs := rfl
@[simp] theorem onUp_fl (s : State) (f : Updates → Updates) : (s.onUp f).fl = s.fl := rfl
@[simp] theorem onUp_tel (s : State) (f : Updates → Updates) : (s.onUp f).tel = s.tel := rfl
@[simp] theorem onUp_pw (s : State) (f : Updates → Updates) : (s.onUp f).pw = s.pw := rfl
@[simp] theorem onUp_st (s : State) (f : Updates → Updates) : (s.onUp f).st = s.st := rfl
@[simp] theorem onUp_i3 (s : State) (f : Updates → Updates) : (s.onUp f).i3 = s.i3 := rfl
@[simp] theorem onUp_rl (s : State) (f : Updates → Updates) : (s.onUp f).rl = s.rl := rfl
@[simp] theorem onUp_free (s : State) (f : Updates → Updates) : (s.onUp f).free = s.free := rfl
@[simp] theorem onUp_out (s : State) (f : Updates → Updates) : (s.onUp f).out = s.out := rfl

@[simp] theorem onCh_pending (s : State) (f : Cache → Cache) : (s.onCh f).pending = s.pending := rfl
@[simp] theorem onCh_fuses (s : State) (f : Cache → Cache) : (s.onCh f).fuses = s.fuses := rfl
@[simp] theorem onCh_regs (s : State) (f : Cache → Cache) : (s.onCh f).regs = s.regs := rfl
@[simp] theorem onCh_pregs (s : State) (f : Cache → Cache) : (s.onCh f).pregs = s.pregs := rfl
@[simp] theorem onCh_lows (s : State) (f : Cache → Cache) : (s.onCh f).lows = s.lows := rfl
@[simp] theorem onCh_ctxCfg (s : State) (f : Cache → Cache) : (s.onCh f).ctxCfg = s.ctxCfg := rfl
@[simp] theorem onCh_updCfg (s : State) (f : Cache → Cache) : (s.onCh f).updCfg = s.updCfg := rfl
@[simp] theorem onCh_fwdCfg (s : State) (f : Cache → Cache) : (s.onCh f).fwdCfg = s.fwdCfg := rfl
@[simp] theorem onCh_drvCfg (s : State) (f : Cache → Cache) : (s.onCh f).drvCfg = s.drvCfg := rfl
@[simp] theorem onCh_fe (s : State) (f : Cache → Cache) : (s.onCh f).fe = s.fe := rfl
@[simp] theorem onCh_xl (s : State) (f : Cache → Cache) : (s.onCh f).xl = s.xl := rfl
@[simp] theorem onCh_tb (s : State) (f : Cache → Cache) : (s.onCh f).tb = s.tb := rfl
@[simp] theorem onCh_sp (s : State) (f : Cache → Cache) : (s.onCh f).sp = s.sp := rfl
@[simp] theorem onCh_qz (s : State) (f : Cache → Cache) : (s.onCh f).qz = s.qz := rfl
@[simp] theorem onCh_up (s : State) (f : Cache → Cache) : (s.onCh f).up = s.up := rfl
@[simp] theorem onCh_ch (s : State) (f : Cache → Cache) : (s.onCh f).ch = f s.ch := rfl
@[simp] theorem onCh_gs (s : State) (f : Cache → Cache) : (s.onCh f).gs = s.gs := rfl
@[simp] theorem onCh_fl (s : State) (f : Cache → Cache) : (s.onCh f).fl = s.fl := rfl
@[simp] theorem onCh_tel (s : State) (f : Cache → Cache) : (s.onCh f).tel = s.tel := rfl
@[simp] theorem onCh_pw (s : State) (f : Cache → Cache) : (s.onCh f).pw = s.pw := rfl
@[simp] theorem onCh_st (s : State) (f : Cache → Cache) : (s.onCh f).st = s.st := rfl
@[simp] theorem onCh_i3 (s : State) (f : Cache → Cache) : (s.onCh f).i3 = s.i3 := rfl
@[simp] theorem onCh_rl (s : State) (f : Cache → Cache) : (s.onCh f).rl = s.rl := rfl
@[simp] theorem onCh_free (s : State) (f : Cache → Cache) : (s.onCh f).free = s.free := rfl
@[simp] theorem onCh_out (s : State) (f : Cache → Cache) : (s.onCh f).out = s.out := rfl

@[simp] theorem onGs_pending (s : State) (f : Ground → Ground) : (s.onGs f).pending = s.pending := rfl
@[simp] theorem onGs_fuses (s : State) (f : Ground → Ground) : (s.onGs f).fuses = s.fuses := rfl
@[simp] theorem onGs_regs (s : State) (f : Ground → Ground) : (s.onGs f).regs = s.regs := rfl
@[simp] theorem onGs_pregs (s : State) (f : Ground → Ground) : (s.onGs f).pregs = s.pregs := rfl
@[simp] theorem onGs_lows (s : State) (f : Ground → Ground) : (s.onGs f).lows = s.lows := rfl
@[simp] theorem onGs_ctxCfg (s : State) (f : Ground → Ground) : (s.onGs f).ctxCfg = s.ctxCfg := rfl
@[simp] theorem onGs_updCfg (s : State) (f : Ground → Ground) : (s.onGs f).updCfg = s.updCfg := rfl
@[simp] theorem onGs_fwdCfg (s : State) (f : Ground → Ground) : (s.onGs f).fwdCfg = s.fwdCfg := rfl
@[simp] theorem onGs_drvCfg (s : State) (f : Ground → Ground) : (s.onGs f).drvCfg = s.drvCfg := rfl
@[simp] theorem onGs_fe (s : State) (f : Ground → Ground) : (s.onGs f).fe = s.fe := rfl
@[simp] theorem onGs_xl (s : State) (f : Ground → Ground) : (s.onGs f).xl = s.xl := rfl
@[simp] theorem onGs_tb (s : State) (f : Ground → Ground) : (s.onGs f).tb = s.tb := rfl
@[simp] theorem onGs_sp (s : State) (f : Ground → Ground) : (s.onGs f).sp = s.sp := rfl
@[simp] theorem onGs_qz (s : State) (f : Ground → Ground) : (s.onGs f).qz = s.qz := rfl
@[simp] theorem onGs_up (s : State) (f : Ground → Ground) : (s.onGs f).up = s.up := rfl
@[simp] theorem onGs_ch (s : State) (f : Ground → Ground) : (s.onGs f).ch = s.ch := rfl
@[simp] theorem onGs_gs (s : State) (f : Ground → Ground) : (s.onGs f).gs = f s.gs := rfl
@[simp] theorem onGs_fl (s : State) (f : Ground → Ground) : (s.onGs f).fl = s.fl := rfl
@[simp] theorem onGs_tel (s : State) (f : Ground → Ground) : (s.onGs f).tel = s.tel := rfl
@[simp] theorem onGs_pw (s : State) (f : Ground → Ground) : (s.onGs f).pw = s.pw := rfl
@[simp] theorem onGs_st (s : State) (f : Ground → Ground) : (s.onGs f).st = s.st := rfl
@[simp] theorem onGs_i3 (s : State) (f : Ground → Ground) : (s.onGs f).i3 = s.i3 := rfl
@[simp] theorem onGs_rl (s : State) (f : Ground → Ground) : (s.onGs f).rl = s.rl := rfl
@[simp] theorem onGs_free (s : State) (f : Ground → Ground) : (s.onGs f).free = s.free := rfl
@[simp] theorem onGs_out (s : State) (f : Ground → Ground) : (s.onGs f).out = s.out := rfl

@[simp] theorem onFl_pending (s : State) (f : Flash → Flash) : (s.onFl f).pending = s.pending := rfl
@[simp] theorem onFl_fuses (s : State) (f : Flash → Flash) : (s.onFl f).fuses = s.fuses := rfl
@[simp] theorem onFl_regs (s : State) (f : Flash → Flash) : (s.onFl f).regs = s.regs := rfl
@[simp] theorem onFl_pregs (s : State) (f : Flash → Flash) : (s.onFl f).pregs = s.pregs := rfl
@[simp] theorem onFl_lows (s : State) (f : Flash → Flash) : (s.onFl f).lows = s.lows := rfl
@[simp] theorem onFl_ctxCfg (s : State) (f : Flash → Flash) : (s.onFl f).ctxCfg = s.ctxCfg := rfl
@[simp] theorem onFl_updCfg (s : State) (f : Flash → Flash) : (s.onFl f).updCfg = s.updCfg := rfl
@[simp] theorem onFl_fwdCfg (s : State) (f : Flash → Flash) : (s.onFl f).fwdCfg = s.fwdCfg := rfl
@[simp] theorem onFl_drvCfg (s : State) (f : Flash → Flash) : (s.onFl f).drvCfg = s.drvCfg := rfl
@[simp] theorem onFl_fe (s : State) (f : Flash → Flash) : (s.onFl f).fe = s.fe := rfl
@[simp] theorem onFl_xl (s : State) (f : Flash → Flash) : (s.onFl f).xl = s.xl := rfl
@[simp] theorem onFl_tb (s : State) (f : Flash → Flash) : (s.onFl f).tb = s.tb := rfl
@[simp] theorem onFl_sp (s : State) (f : Flash → Flash) : (s.onFl f).sp = s.sp := rfl
@[simp] theorem onFl_qz (s : State) (f : Flash → Flash) : (s.onFl f).qz = s.qz := rfl
@[simp] theorem onFl_up (s : State) (f : Flash → Flash) : (s.onFl f).up = s.up := rfl
@[simp] theorem onFl_ch (s : State) (f : Flash → Flash) : (s.onFl f).ch = s.ch := rfl
@[simp] theorem onFl_gs (s : State) (f : Flash → Flash) : (s.onFl f).gs = s.gs := rfl
@[simp] theorem onFl_fl (s : State) (f : Flash → Flash) : (s.onFl f).fl = f s.fl := rfl
@[simp] theorem onFl_tel (s : State) (f : Flash → Flash) : (s.onFl f).tel = s.tel := rfl
@[simp] theorem onFl_pw (s : State) (f : Flash → Flash) : (s.onFl f).pw = s.pw := rfl
@[simp] theorem onFl_st (s : State) (f : Flash → Flash) : (s.onFl f).st = s.st := rfl
@[simp] theorem onFl_i3 (s : State) (f : Flash → Flash) : (s.onFl f).i3 = s.i3 := rfl
@[simp] theorem onFl_rl (s : State) (f : Flash → Flash) : (s.onFl f).rl = s.rl := rfl
@[simp] theorem onFl_free (s : State) (f : Flash → Flash) : (s.onFl f).free = s.free := rfl
@[simp] theorem onFl_out (s : State) (f : Flash → Flash) : (s.onFl f).out = s.out := rfl

@[simp] theorem onTel_pending (s : State) (f : Telem → Telem) : (s.onTel f).pending = s.pending := rfl
@[simp] theorem onTel_fuses (s : State) (f : Telem → Telem) : (s.onTel f).fuses = s.fuses := rfl
@[simp] theorem onTel_regs (s : State) (f : Telem → Telem) : (s.onTel f).regs = s.regs := rfl
@[simp] theorem onTel_pregs (s : State) (f : Telem → Telem) : (s.onTel f).pregs = s.pregs := rfl
@[simp] theorem onTel_lows (s : State) (f : Telem → Telem) : (s.onTel f).lows = s.lows := rfl
@[simp] theorem onTel_ctxCfg (s : State) (f : Telem → Telem) : (s.onTel f).ctxCfg = s.ctxCfg := rfl
@[simp] theorem onTel_updCfg (s : State) (f : Telem → Telem) : (s.onTel f).updCfg = s.updCfg := rfl
@[simp] theorem onTel_fwdCfg (s : State) (f : Telem → Telem) : (s.onTel f).fwdCfg = s.fwdCfg := rfl
@[simp] theorem onTel_drvCfg (s : State) (f : Telem → Telem) : (s.onTel f).drvCfg = s.drvCfg := rfl
@[simp] theorem onTel_fe (s : State) (f : Telem → Telem) : (s.onTel f).fe = s.fe := rfl
@[simp] theorem onTel_xl (s : State) (f : Telem → Telem) : (s.onTel f).xl = s.xl := rfl
@[simp] theorem onTel_tb (s : State) (f : Telem → Telem) : (s.onTel f).tb = s.tb := rfl
@[simp] theorem onTel_sp (s : State) (f : Telem → Telem) : (s.onTel f).sp = s.sp := rfl
@[simp] theorem onTel_qz (s : State) (f : Telem → Telem) : (s.onTel f).qz = s.qz := rfl
@[simp] theorem onTel_up (s : State) (f : Telem → Telem) : (s.onTel f).up = s.up := rfl
@[simp] theorem onTel_ch (s : State) (f : Telem → Telem) : (s.onTel f).ch = s.ch := rfl
@[simp] theorem onTel_gs (s : State) (f : Telem → Telem) : (s.onTel f).gs = s.gs := rfl
@[simp] theorem onTel_fl (s : State) (f : Telem → Telem) : (s.onTel f).fl = s.fl := rfl
@[simp] theorem onTel_tel (s : State) (f : Telem → Telem) : (s.onTel f).tel = f s.tel := rfl
@[simp] theorem onTel_pw (s : State) (f : Telem → Telem) : (s.onTel f).pw = s.pw := rfl
@[simp] theorem onTel_st (s : State) (f : Telem → Telem) : (s.onTel f).st = s.st := rfl
@[simp] theorem onTel_i3 (s : State) (f : Telem → Telem) : (s.onTel f).i3 = s.i3 := rfl
@[simp] theorem onTel_rl (s : State) (f : Telem → Telem) : (s.onTel f).rl = s.rl := rfl
@[simp] theorem onTel_free (s : State) (f : Telem → Telem) : (s.onTel f).free = s.free := rfl
@[simp] theorem onTel_out (s : State) (f : Telem → Telem) : (s.onTel f).out = s.out := rfl

@[simp] theorem onPw_pending (s : State) (f : Power → Power) : (s.onPw f).pending = s.pending := rfl
@[simp] theorem onPw_fuses (s : State) (f : Power → Power) : (s.onPw f).fuses = s.fuses := rfl
@[simp] theorem onPw_regs (s : State) (f : Power → Power) : (s.onPw f).regs = s.regs := rfl
@[simp] theorem onPw_pregs (s : State) (f : Power → Power) : (s.onPw f).pregs = s.pregs := rfl
@[simp] theorem onPw_lows (s : State) (f : Power → Power) : (s.onPw f).lows = s.lows := rfl
@[simp] theorem onPw_ctxCfg (s : State) (f : Power → Power) : (s.onPw f).ctxCfg = s.ctxCfg := rfl
@[simp] theorem onPw_updCfg (s : State) (f : Power → Power) : (s.onPw f).updCfg = s.updCfg := rfl
@[simp] theorem onPw_fwdCfg (s : State) (f : Power → Power) : (s.onPw f).fwdCfg = s.fwdCfg := rfl
@[simp] theorem onPw_drvCfg (s : State) (f : Power → Power) : (s.onPw f).drvCfg = s.drvCfg := rfl
@[simp] theorem onPw_fe (s : State) (f : Power → Power) : (s.onPw f).fe = s.fe := rfl
@[simp] theorem onPw_xl (s : State) (f : Power → Power) : (s.onPw f).xl = s.xl := rfl
@[simp] theorem onPw_tb (s : State) (f : Power → Power) : (s.onPw f).tb = s.tb := rfl
@[simp] theorem onPw_sp (s : State) (f : Power → Power) : (s.onPw f).sp = s.sp := rfl
@[simp] theorem onPw_qz (s : State) (f : Power → Power) : (s.onPw f).qz = s.qz := rfl
@[simp] theorem onPw_up (s : State) (f : Power → Power) : (s.onPw f).up = s.up := rfl
@[simp] theorem onPw_ch (s : State) (f : Power → Power) : (s.onPw f).ch = s.ch := rfl
@[simp] theorem onPw_gs (s : State) (f : Power → Power) : (s.onPw f).gs = s.gs := rfl
@[simp] theorem onPw_fl (s : State) (f : Power → Power) : (s.onPw f).fl = s.fl := rfl
@[simp] theorem onPw_tel (s : State) (f : Power → Power) : (s.onPw f).tel = s.tel := rfl
@[simp] theorem onPw_pw (s : State) (f : Power → Power) : (s.onPw f).pw = f s.pw := rfl
@[simp] theorem onPw_st (s : State) (f : Power → Power) : (s.onPw f).st = s.st := rfl
@[simp] theorem onPw_i3 (s : State) (f : Power → Power) : (s.onPw f).i3 = s.i3 := rfl
@[simp] theorem onPw_rl (s : State) (f : Power → Power) : (s.onPw f).rl = s.rl := rfl
@[simp] theorem onPw_free (s : State) (f : Power → Power) : (s.onPw f).free = s.free := rfl
@[simp] theorem onPw_out (s : State) (f : Power → Power) : (s.onPw f).out = s.out := rfl

@[simp] theorem onSt_pending (s : State) (f : Steta → Steta) : (s.onSt f).pending = s.pending := rfl
@[simp] theorem onSt_fuses (s : State) (f : Steta → Steta) : (s.onSt f).fuses = s.fuses := rfl
@[simp] theorem onSt_regs (s : State) (f : Steta → Steta) : (s.onSt f).regs = s.regs := rfl
@[simp] theorem onSt_pregs (s : State) (f : Steta → Steta) : (s.onSt f).pregs = s.pregs := rfl
@[simp] theorem onSt_lows (s : State) (f : Steta → Steta) : (s.onSt f).lows = s.lows := rfl
@[simp] theorem onSt_ctxCfg (s : State) (f : Steta → Steta) : (s.onSt f).ctxCfg = s.ctxCfg := rfl
@[simp] theorem onSt_updCfg (s : State) (f : Steta → Steta) : (s.onSt f).updCfg = s.updCfg := rfl
@[simp] theorem onSt_fwdCfg (s : State) (f : Steta → Steta) : (s.onSt f).fwdCfg = s.fwdCfg := rfl
@[simp] theorem onSt_drvCfg (s : State) (f : Steta → Steta) : (s.onSt f).drvCfg = s.drvCfg := rfl
@[simp] theorem onSt_fe (s : State) (f : Steta → Steta) : (s.onSt f).fe = s.fe := rfl
@[simp] theorem onSt_xl (s : State) (f : Steta → Steta) : (s.onSt f).xl = s.xl := rfl
@[simp] theorem onSt_tb (s : State) (f : Steta → Steta) : (s.onSt f).tb = s.tb := rfl
@[simp] theorem onSt_sp (s : State) (f : Steta → Steta) : (s.onSt f).sp = s.sp := rfl
@[simp] theorem onSt_qz (s : State) (f : Steta → Steta) : (s.onSt f).qz = s.qz := rfl
@[simp] theorem onSt_up (s : State) (f : Steta → Steta) : (s.onSt f).up = s.up := rfl
@[simp] theorem onSt_ch (s : State) (f : Steta → Steta) : (s.onSt f).ch = s.ch := rfl
@[simp] theorem onSt_gs (s : State) (f : Steta → Steta) : (s.onSt f).gs = s.gs := rfl
@[simp] theorem onSt_fl (s : State) (f : Steta → Steta) : (s.onSt f).fl = s.fl := rfl
@[simp] theorem onSt_tel (s : State) (f : Steta → Steta) : (s.onSt f).tel = s.tel := rfl
@[simp] theorem onSt_pw (s : State) (f : Steta → Steta) : (s.onSt f).pw = s.pw := rfl
@[simp] theorem onSt_st (s : State) (f : Steta → Steta) : (s.onSt f).st = f s.st := rfl
@[simp] theorem onSt_i3 (s : State) (f : Steta → Steta) : (s.onSt f).i3 = s.i3 := rfl
@[simp] theorem onSt_rl (s : State) (f : Steta → Steta) : (s.onSt f).rl = s.rl := rfl
@[simp] theorem onSt_free (s : State) (f : Steta → Steta) : (s.onSt f).free = s.free := rfl
@[simp] theorem onSt_out (s : State) (f : Steta → Steta) : (s.onSt f).out = s.out := rfl

@[simp] theorem onI3_pending (s : State) (f : I3c → I3c) : (s.onI3 f).pending = s.pending := rfl
@[simp] theorem onI3_fuses (s : State) (f : I3c → I3c) : (s.onI3 f).fuses = s.fuses := rfl
@[simp] theorem onI3_regs (s : State) (f : I3c → I3c) : (s.onI3 f).regs = s.regs := rfl
@[simp] theorem onI3_pregs (s : State) (f : I3c → I3c) : (s.onI3 f).pregs = s.pregs := rfl
@[simp] theorem onI3_lows (s : State) (f : I3c → I3c) : (s.onI3 f).lows = s.lows := rfl
@[simp] theorem onI3_ctxCfg (s : State) (f : I3c → I3c) : (s.onI3 f).ctxCfg = s.ctxCfg := rfl
@[simp] theorem onI3_updCfg (s : State) (f : I3c → I3c) : (s.onI3 f).updCfg = s.updCfg := rfl
@[simp] theorem onI3_fwdCfg (s : State) (f : I3c → I3c) : (s.onI3 f).fwdCfg = s.fwdCfg := rfl
@[simp] theorem onI3_drvCfg (s : State) (f : I3c → I3c) : (s.onI3 f).drvCfg = s.drvCfg := rfl
@[simp] theorem onI3_fe (s : State) (f : I3c → I3c) : (s.onI3 f).fe = s.fe := rfl
@[simp] theorem onI3_xl (s : State) (f : I3c → I3c) : (s.onI3 f).xl = s.xl := rfl
@[simp] theorem onI3_tb (s : State) (f : I3c → I3c) : (s.onI3 f).tb = s.tb := rfl
@[simp] theorem onI3_sp (s : State) (f : I3c → I3c) : (s.onI3 f).sp = s.sp := rfl
@[simp] theorem onI3_qz (s : State) (f : I3c → I3c) : (s.onI3 f).qz = s.qz := rfl
@[simp] theorem onI3_up (s : State) (f : I3c → I3c) : (s.onI3 f).up = s.up := rfl
@[simp] theorem onI3_ch (s : State) (f : I3c → I3c) : (s.onI3 f).ch = s.ch := rfl
@[simp] theorem onI3_gs (s : State) (f : I3c → I3c) : (s.onI3 f).gs = s.gs := rfl
@[simp] theorem onI3_fl (s : State) (f : I3c → I3c) : (s.onI3 f).fl = s.fl := rfl
@[simp] theorem onI3_tel (s : State) (f : I3c → I3c) : (s.onI3 f).tel = s.tel := rfl
@[simp] theorem onI3_pw (s : State) (f : I3c → I3c) : (s.onI3 f).pw = s.pw := rfl
@[simp] theorem onI3_st (s : State) (f : I3c → I3c) : (s.onI3 f).st = s.st := rfl
@[simp] theorem onI3_i3 (s : State) (f : I3c → I3c) : (s.onI3 f).i3 = f s.i3 := rfl
@[simp] theorem onI3_rl (s : State) (f : I3c → I3c) : (s.onI3 f).rl = s.rl := rfl
@[simp] theorem onI3_free (s : State) (f : I3c → I3c) : (s.onI3 f).free = s.free := rfl
@[simp] theorem onI3_out (s : State) (f : I3c → I3c) : (s.onI3 f).out = s.out := rfl

@[simp] theorem onRl_pending (s : State) (f : Rel → Rel) : (s.onRl f).pending = s.pending := rfl
@[simp] theorem onRl_fuses (s : State) (f : Rel → Rel) : (s.onRl f).fuses = s.fuses := rfl
@[simp] theorem onRl_regs (s : State) (f : Rel → Rel) : (s.onRl f).regs = s.regs := rfl
@[simp] theorem onRl_pregs (s : State) (f : Rel → Rel) : (s.onRl f).pregs = s.pregs := rfl
@[simp] theorem onRl_lows (s : State) (f : Rel → Rel) : (s.onRl f).lows = s.lows := rfl
@[simp] theorem onRl_ctxCfg (s : State) (f : Rel → Rel) : (s.onRl f).ctxCfg = s.ctxCfg := rfl
@[simp] theorem onRl_updCfg (s : State) (f : Rel → Rel) : (s.onRl f).updCfg = s.updCfg := rfl
@[simp] theorem onRl_fwdCfg (s : State) (f : Rel → Rel) : (s.onRl f).fwdCfg = s.fwdCfg := rfl
@[simp] theorem onRl_drvCfg (s : State) (f : Rel → Rel) : (s.onRl f).drvCfg = s.drvCfg := rfl
@[simp] theorem onRl_fe (s : State) (f : Rel → Rel) : (s.onRl f).fe = s.fe := rfl
@[simp] theorem onRl_xl (s : State) (f : Rel → Rel) : (s.onRl f).xl = s.xl := rfl
@[simp] theorem onRl_tb (s : State) (f : Rel → Rel) : (s.onRl f).tb = s.tb := rfl
@[simp] theorem onRl_sp (s : State) (f : Rel → Rel) : (s.onRl f).sp = s.sp := rfl
@[simp] theorem onRl_qz (s : State) (f : Rel → Rel) : (s.onRl f).qz = s.qz := rfl
@[simp] theorem onRl_up (s : State) (f : Rel → Rel) : (s.onRl f).up = s.up := rfl
@[simp] theorem onRl_ch (s : State) (f : Rel → Rel) : (s.onRl f).ch = s.ch := rfl
@[simp] theorem onRl_gs (s : State) (f : Rel → Rel) : (s.onRl f).gs = s.gs := rfl
@[simp] theorem onRl_fl (s : State) (f : Rel → Rel) : (s.onRl f).fl = s.fl := rfl
@[simp] theorem onRl_tel (s : State) (f : Rel → Rel) : (s.onRl f).tel = s.tel := rfl
@[simp] theorem onRl_pw (s : State) (f : Rel → Rel) : (s.onRl f).pw = s.pw := rfl
@[simp] theorem onRl_st (s : State) (f : Rel → Rel) : (s.onRl f).st = s.st := rfl
@[simp] theorem onRl_i3 (s : State) (f : Rel → Rel) : (s.onRl f).i3 = s.i3 := rfl
@[simp] theorem onRl_rl (s : State) (f : Rel → Rel) : (s.onRl f).rl = f s.rl := rfl
@[simp] theorem onRl_free (s : State) (f : Rel → Rel) : (s.onRl f).free = s.free := rfl
@[simp] theorem onRl_out (s : State) (f : Rel → Rel) : (s.onRl f).out = s.out := rfl

@[simp] theorem onFuses_pending (s : State) (f : Fuses → Fuses) : (s.onFuses f).pending = s.pending := rfl
@[simp] theorem onFuses_fuses (s : State) (f : Fuses → Fuses) : (s.onFuses f).fuses = f s.fuses := rfl
@[simp] theorem onFuses_regs (s : State) (f : Fuses → Fuses) : (s.onFuses f).regs = s.regs := rfl
@[simp] theorem onFuses_pregs (s : State) (f : Fuses → Fuses) : (s.onFuses f).pregs = s.pregs := rfl
@[simp] theorem onFuses_lows (s : State) (f : Fuses → Fuses) : (s.onFuses f).lows = s.lows := rfl
@[simp] theorem onFuses_ctxCfg (s : State) (f : Fuses → Fuses) : (s.onFuses f).ctxCfg = s.ctxCfg := rfl
@[simp] theorem onFuses_updCfg (s : State) (f : Fuses → Fuses) : (s.onFuses f).updCfg = s.updCfg := rfl
@[simp] theorem onFuses_fwdCfg (s : State) (f : Fuses → Fuses) : (s.onFuses f).fwdCfg = s.fwdCfg := rfl
@[simp] theorem onFuses_drvCfg (s : State) (f : Fuses → Fuses) : (s.onFuses f).drvCfg = s.drvCfg := rfl
@[simp] theorem onFuses_fe (s : State) (f : Fuses → Fuses) : (s.onFuses f).fe = s.fe := rfl
@[simp] theorem onFuses_xl (s : State) (f : Fuses → Fuses) : (s.onFuses f).xl = s.xl := rfl
@[simp] theorem onFuses_tb (s : State) (f : Fuses → Fuses) : (s.onFuses f).tb = s.tb := rfl
@[simp] theorem onFuses_sp (s : State) (f : Fuses → Fuses) : (s.onFuses f).sp = s.sp := rfl
@[simp] theorem onFuses_qz (s : State) (f : Fuses → Fuses) : (s.onFuses f).qz = s.qz := rfl
@[simp] theorem onFuses_up (s : State) (f : Fuses → Fuses) : (s.onFuses f).up = s.up := rfl
@[simp] theorem onFuses_ch (s : State) (f : Fuses → Fuses) : (s.onFuses f).ch = s.ch := rfl
@[simp] theorem onFuses_gs (s : State) (f : Fuses → Fuses) : (s.onFuses f).gs = s.gs := rfl
@[simp] theorem onFuses_fl (s : State) (f : Fuses → Fuses) : (s.onFuses f).fl = s.fl := rfl
@[simp] theorem onFuses_tel (s : State) (f : Fuses → Fuses) : (s.onFuses f).tel = s.tel := rfl
@[simp] theorem onFuses_pw (s : State) (f : Fuses → Fuses) : (s.onFuses f).pw = s.pw := rfl
@[simp] theorem onFuses_st (s : State) (f : Fuses → Fuses) : (s.onFuses f).st = s.st := rfl
@[simp] theorem onFuses_i3 (s : State) (f : Fuses → Fuses) : (s.onFuses f).i3 = s.i3 := rfl
@[simp] theorem onFuses_rl (s : State) (f : Fuses → Fuses) : (s.onFuses f).rl = s.rl := rfl
@[simp] theorem onFuses_free (s : State) (f : Fuses → Fuses) : (s.onFuses f).free = s.free := rfl
@[simp] theorem onFuses_out (s : State) (f : Fuses → Fuses) : (s.onFuses f).out = s.out := rfl

end Sys2Proof.Laws
end

