-- ==== Sys2Proof/Laws/Fields.lean ====
section
/-!
SUPPORT. Each part of the state after the shared operations: telemetry, output, register values, ring and descriptor updates.
-/

namespace Sys2Proof.Laws

open Sys2Proof.Machine

@[simp] theorem tell_pending (s : State) (ops : List TelOp) : (s.tell ops).pending = s.pending := rfl
@[simp] theorem tell_fuses (s : State) (ops : List TelOp) : (s.tell ops).fuses = s.fuses := rfl
@[simp] theorem tell_regs (s : State) (ops : List TelOp) : (s.tell ops).regs = s.regs := rfl
@[simp] theorem tell_pregs (s : State) (ops : List TelOp) : (s.tell ops).pregs = s.pregs := rfl
@[simp] theorem tell_lows (s : State) (ops : List TelOp) : (s.tell ops).lows = s.lows := rfl
@[simp] theorem tell_ctxCfg (s : State) (ops : List TelOp) : (s.tell ops).ctxCfg = s.ctxCfg := rfl
@[simp] theorem tell_updCfg (s : State) (ops : List TelOp) : (s.tell ops).updCfg = s.updCfg := rfl
@[simp] theorem tell_fwdCfg (s : State) (ops : List TelOp) : (s.tell ops).fwdCfg = s.fwdCfg := rfl
@[simp] theorem tell_drvCfg (s : State) (ops : List TelOp) : (s.tell ops).drvCfg = s.drvCfg := rfl
@[simp] theorem tell_fe (s : State) (ops : List TelOp) : (s.tell ops).fe = s.fe := rfl
@[simp] theorem tell_xl (s : State) (ops : List TelOp) : (s.tell ops).xl = s.xl := rfl
@[simp] theorem tell_tb (s : State) (ops : List TelOp) : (s.tell ops).tb = s.tb := rfl
@[simp] theorem tell_sp (s : State) (ops : List TelOp) : (s.tell ops).sp = s.sp := rfl
@[simp] theorem tell_qz (s : State) (ops : List TelOp) : (s.tell ops).qz = s.qz := rfl
@[simp] theorem tell_up (s : State) (ops : List TelOp) : (s.tell ops).up = s.up := rfl
@[simp] theorem tell_ch (s : State) (ops : List TelOp) : (s.tell ops).ch = s.ch := rfl
@[simp] theorem tell_gs (s : State) (ops : List TelOp) : (s.tell ops).gs = s.gs := rfl
@[simp] theorem tell_fl (s : State) (ops : List TelOp) : (s.tell ops).fl = s.fl := rfl
@[simp] theorem tell_pw (s : State) (ops : List TelOp) : (s.tell ops).pw = s.pw := rfl
@[simp] theorem tell_st (s : State) (ops : List TelOp) : (s.tell ops).st = s.st := rfl
@[simp] theorem tell_i3 (s : State) (ops : List TelOp) : (s.tell ops).i3 = s.i3 := rfl
@[simp] theorem tell_rl (s : State) (ops : List TelOp) : (s.tell ops).rl = s.rl := rfl
@[simp] theorem tell_free (s : State) (ops : List TelOp) : (s.tell ops).free = s.free := rfl
@[simp] theorem tell_out (s : State) (ops : List TelOp) : (s.tell ops).out = s.out := rfl

@[simp] theorem count_pending (s : State) (off : Nat) : (s.count off).pending = s.pending := rfl
@[simp] theorem count_fuses (s : State) (off : Nat) : (s.count off).fuses = s.fuses := rfl
@[simp] theorem count_regs (s : State) (off : Nat) : (s.count off).regs = s.regs := rfl
@[simp] theorem count_pregs (s : State) (off : Nat) : (s.count off).pregs = s.pregs := rfl
@[simp] theorem count_lows (s : State) (off : Nat) : (s.count off).lows = s.lows := rfl
@[simp] theorem count_ctxCfg (s : State) (off : Nat) : (s.count off).ctxCfg = s.ctxCfg := rfl
@[simp] theorem count_updCfg (s : State) (off : Nat) : (s.count off).updCfg = s.updCfg := rfl
@[simp] theorem count_fwdCfg (s : State) (off : Nat) : (s.count off).fwdCfg = s.fwdCfg := rfl
@[simp] theorem count_drvCfg (s : State) (off : Nat) : (s.count off).drvCfg = s.drvCfg := rfl
@[simp] theorem count_fe (s : State) (off : Nat) : (s.count off).fe = s.fe := rfl
@[simp] theorem count_xl (s : State) (off : Nat) : (s.count off).xl = s.xl := rfl
@[simp] theorem count_tb (s : State) (off : Nat) : (s.count off).tb = s.tb := rfl
@[simp] theorem count_sp (s : State) (off : Nat) : (s.count off).sp = s.sp := rfl
@[simp] theorem count_qz (s : State) (off : Nat) : (s.count off).qz = s.qz := rfl
@[simp] theorem count_up (s : State) (off : Nat) : (s.count off).up = s.up := rfl
@[simp] theorem count_ch (s : State) (off : Nat) : (s.count off).ch = s.ch := rfl
@[simp] theorem count_gs (s : State) (off : Nat) : (s.count off).gs = s.gs := rfl
@[simp] theorem count_fl (s : State) (off : Nat) : (s.count off).fl = s.fl := rfl
@[simp] theorem count_pw (s : State) (off : Nat) : (s.count off).pw = s.pw := rfl
@[simp] theorem count_st (s : State) (off : Nat) : (s.count off).st = s.st := rfl
@[simp] theorem count_i3 (s : State) (off : Nat) : (s.count off).i3 = s.i3 := rfl
@[simp] theorem count_rl (s : State) (off : Nat) : (s.count off).rl = s.rl := rfl
@[simp] theorem count_free (s : State) (off : Nat) : (s.count off).free = s.free := rfl
@[simp] theorem count_out (s : State) (off : Nat) : (s.count off).out = s.out := rfl

@[simp] theorem countN_pending (s : State) (off n : Nat) : (s.countN off n).pending = s.pending := rfl
@[simp] theorem countN_fuses (s : State) (off n : Nat) : (s.countN off n).fuses = s.fuses := rfl
@[simp] theorem countN_regs (s : State) (off n : Nat) : (s.countN off n).regs = s.regs := rfl
@[simp] theorem countN_pregs (s : State) (off n : Nat) : (s.countN off n).pregs = s.pregs := rfl
@[simp] theorem countN_lows (s : State) (off n : Nat) : (s.countN off n).lows = s.lows := rfl
@[simp] theorem countN_ctxCfg (s : State) (off n : Nat) : (s.countN off n).ctxCfg = s.ctxCfg := rfl
@[simp] theorem countN_updCfg (s : State) (off n : Nat) : (s.countN off n).updCfg = s.updCfg := rfl
@[simp] theorem countN_fwdCfg (s : State) (off n : Nat) : (s.countN off n).fwdCfg = s.fwdCfg := rfl
@[simp] theorem countN_drvCfg (s : State) (off n : Nat) : (s.countN off n).drvCfg = s.drvCfg := rfl
@[simp] theorem countN_fe (s : State) (off n : Nat) : (s.countN off n).fe = s.fe := rfl
@[simp] theorem countN_xl (s : State) (off n : Nat) : (s.countN off n).xl = s.xl := rfl
@[simp] theorem countN_tb (s : State) (off n : Nat) : (s.countN off n).tb = s.tb := rfl
@[simp] theorem countN_sp (s : State) (off n : Nat) : (s.countN off n).sp = s.sp := rfl
@[simp] theorem countN_qz (s : State) (off n : Nat) : (s.countN off n).qz = s.qz := rfl
@[simp] theorem countN_up (s : State) (off n : Nat) : (s.countN off n).up = s.up := rfl
@[simp] theorem countN_ch (s : State) (off n : Nat) : (s.countN off n).ch = s.ch := rfl
@[simp] theorem countN_gs (s : State) (off n : Nat) : (s.countN off n).gs = s.gs := rfl
@[simp] theorem countN_fl (s : State) (off n : Nat) : (s.countN off n).fl = s.fl := rfl
@[simp] theorem countN_pw (s : State) (off n : Nat) : (s.countN off n).pw = s.pw := rfl
@[simp] theorem countN_st (s : State) (off n : Nat) : (s.countN off n).st = s.st := rfl
@[simp] theorem countN_i3 (s : State) (off n : Nat) : (s.countN off n).i3 = s.i3 := rfl
@[simp] theorem countN_rl (s : State) (off n : Nat) : (s.countN off n).rl = s.rl := rfl
@[simp] theorem countN_free (s : State) (off n : Nat) : (s.countN off n).free = s.free := rfl
@[simp] theorem countN_out (s : State) (off n : Nat) : (s.countN off n).out = s.out := rfl

@[simp] theorem send_pending (s : State) (x : Output) : (s.send x).pending = s.pending := rfl
@[simp] theorem send_fuses (s : State) (x : Output) : (s.send x).fuses = s.fuses := rfl
@[simp] theorem send_regs (s : State) (x : Output) : (s.send x).regs = s.regs := rfl
@[simp] theorem send_pregs (s : State) (x : Output) : (s.send x).pregs = s.pregs := rfl
@[simp] theorem send_lows (s : State) (x : Output) : (s.send x).lows = s.lows := rfl
@[simp] theorem send_ctxCfg (s : State) (x : Output) : (s.send x).ctxCfg = s.ctxCfg := rfl
@[simp] theorem send_updCfg (s : State) (x : Output) : (s.send x).updCfg = s.updCfg := rfl
@[simp] theorem send_fwdCfg (s : State) (x : Output) : (s.send x).fwdCfg = s.fwdCfg := rfl
@[simp] theorem send_drvCfg (s : State) (x : Output) : (s.send x).drvCfg = s.drvCfg := rfl
@[simp] theorem send_fe (s : State) (x : Output) : (s.send x).fe = s.fe := rfl
@[simp] theorem send_xl (s : State) (x : Output) : (s.send x).xl = s.xl := rfl
@[simp] theorem send_tb (s : State) (x : Output) : (s.send x).tb = s.tb := rfl
@[simp] theorem send_sp (s : State) (x : Output) : (s.send x).sp = s.sp := rfl
@[simp] theorem send_qz (s : State) (x : Output) : (s.send x).qz = s.qz := rfl
@[simp] theorem send_up (s : State) (x : Output) : (s.send x).up = s.up := rfl
@[simp] theorem send_ch (s : State) (x : Output) : (s.send x).ch = s.ch := rfl
@[simp] theorem send_gs (s : State) (x : Output) : (s.send x).gs = s.gs := rfl
@[simp] theorem send_fl (s : State) (x : Output) : (s.send x).fl = s.fl := rfl
@[simp] theorem send_tel (s : State) (x : Output) : (s.send x).tel = s.tel := rfl
@[simp] theorem send_pw (s : State) (x : Output) : (s.send x).pw = s.pw := rfl
@[simp] theorem send_st (s : State) (x : Output) : (s.send x).st = s.st := rfl
@[simp] theorem send_i3 (s : State) (x : Output) : (s.send x).i3 = s.i3 := rfl
@[simp] theorem send_rl (s : State) (x : Output) : (s.send x).rl = s.rl := rfl
@[simp] theorem send_free (s : State) (x : Output) : (s.send x).free = s.free := rfl

@[simp] theorem sendAll_pending (s : State) (xs : List Output) : (s.sendAll xs).pending = s.pending := rfl
@[simp] theorem sendAll_fuses (s : State) (xs : List Output) : (s.sendAll xs).fuses = s.fuses := rfl
@[simp] theorem sendAll_regs (s : State) (xs : List Output) : (s.sendAll xs).regs = s.regs := rfl
@[simp] theorem sendAll_pregs (s : State) (xs : List Output) : (s.sendAll xs).pregs = s.pregs := rfl
@[simp] theorem sendAll_lows (s : State) (xs : List Output) : (s.sendAll xs).lows = s.lows := rfl
@[simp] theorem sendAll_ctxCfg (s : State) (xs : List Output) : (s.sendAll xs).ctxCfg = s.ctxCfg := rfl
@[simp] theorem sendAll_updCfg (s : State) (xs : List Output) : (s.sendAll xs).updCfg = s.updCfg := rfl
@[simp] theorem sendAll_fwdCfg (s : State) (xs : List Output) : (s.sendAll xs).fwdCfg = s.fwdCfg := rfl
@[simp] theorem sendAll_drvCfg (s : State) (xs : List Output) : (s.sendAll xs).drvCfg = s.drvCfg := rfl
@[simp] theorem sendAll_fe (s : State) (xs : List Output) : (s.sendAll xs).fe = s.fe := rfl
@[simp] theorem sendAll_xl (s : State) (xs : List Output) : (s.sendAll xs).xl = s.xl := rfl
@[simp] theorem sendAll_tb (s : State) (xs : List Output) : (s.sendAll xs).tb = s.tb := rfl
@[simp] theorem sendAll_sp (s : State) (xs : List Output) : (s.sendAll xs).sp = s.sp := rfl
@[simp] theorem sendAll_qz (s : State) (xs : List Output) : (s.sendAll xs).qz = s.qz := rfl
@[simp] theorem sendAll_up (s : State) (xs : List Output) : (s.sendAll xs).up = s.up := rfl
@[simp] theorem sendAll_ch (s : State) (xs : List Output) : (s.sendAll xs).ch = s.ch := rfl
@[simp] theorem sendAll_gs (s : State) (xs : List Output) : (s.sendAll xs).gs = s.gs := rfl
@[simp] theorem sendAll_fl (s : State) (xs : List Output) : (s.sendAll xs).fl = s.fl := rfl
@[simp] theorem sendAll_tel (s : State) (xs : List Output) : (s.sendAll xs).tel = s.tel := rfl
@[simp] theorem sendAll_pw (s : State) (xs : List Output) : (s.sendAll xs).pw = s.pw := rfl
@[simp] theorem sendAll_st (s : State) (xs : List Output) : (s.sendAll xs).st = s.st := rfl
@[simp] theorem sendAll_i3 (s : State) (xs : List Output) : (s.sendAll xs).i3 = s.i3 := rfl
@[simp] theorem sendAll_rl (s : State) (xs : List Output) : (s.sendAll xs).rl = s.rl := rfl
@[simp] theorem sendAll_free (s : State) (xs : List Output) : (s.sendAll xs).free = s.free := rfl

@[simp] theorem setRing_pending (s : State) (k : Nat) (r : Ring) : (s.setRing k r).pending = s.pending := rfl
@[simp] theorem setRing_fuses (s : State) (k : Nat) (r : Ring) : (s.setRing k r).fuses = s.fuses := rfl
@[simp] theorem setRing_regs (s : State) (k : Nat) (r : Ring) : (s.setRing k r).regs = s.regs := rfl
@[simp] theorem setRing_pregs (s : State) (k : Nat) (r : Ring) : (s.setRing k r).pregs = s.pregs := rfl
@[simp] theorem setRing_lows (s : State) (k : Nat) (r : Ring) : (s.setRing k r).lows = s.lows := rfl
@[simp] theorem setRing_ctxCfg (s : State) (k : Nat) (r : Ring) : (s.setRing k r).ctxCfg = s.ctxCfg := rfl
@[simp] theorem setRing_updCfg (s : State) (k : Nat) (r : Ring) : (s.setRing k r).updCfg = s.updCfg := rfl
@[simp] theorem setRing_fwdCfg (s : State) (k : Nat) (r : Ring) : (s.setRing k r).fwdCfg = s.fwdCfg := rfl
@[simp] theorem setRing_drvCfg (s : State) (k : Nat) (r : Ring) : (s.setRing k r).drvCfg = s.drvCfg := rfl
@[simp] theorem setRing_xl (s : State) (k : Nat) (r : Ring) : (s.setRing k r).xl = s.xl := rfl
@[simp] theorem setRing_tb (s : State) (k : Nat) (r : Ring) : (s.setRing k r).tb = s.tb := rfl
@[simp] theorem setRing_sp (s : State) (k : Nat) (r : Ring) : (s.setRing k r).sp = s.sp := rfl
@[simp] theorem setRing_qz (s : State) (k : Nat) (r : Ring) : (s.setRing k r).qz = s.qz := rfl
@[simp] theorem setRing_up (s : State) (k : Nat) (r : Ring) : (s.setRing k r).up = s.up := rfl
@[simp] theorem setRing_ch (s : State) (k : Nat) (r : Ring) : (s.setRing k r).ch = s.ch := rfl
@[simp] theorem setRing_gs (s : State) (k : Nat) (r : Ring) : (s.setRing k r).gs = s.gs := rfl
@[simp] theorem setRing_fl (s : State) (k : Nat) (r : Ring) : (s.setRing k r).fl = s.fl := rfl
@[simp] theorem setRing_tel (s : State) (k : Nat) (r : Ring) : (s.setRing k r).tel = s.tel := rfl
@[simp] theorem setRing_pw (s : State) (k : Nat) (r : Ring) : (s.setRing k r).pw = s.pw := rfl
@[simp] theorem setRing_st (s : State) (k : Nat) (r : Ring) : (s.setRing k r).st = s.st := rfl
@[simp] theorem setRing_i3 (s : State) (k : Nat) (r : Ring) : (s.setRing k r).i3 = s.i3 := rfl
@[simp] theorem setRing_rl (s : State) (k : Nat) (r : Ring) : (s.setRing k r).rl = s.rl := rfl
@[simp] theorem setRing_free (s : State) (k : Nat) (r : Ring) : (s.setRing k r).free = s.free := rfl
@[simp] theorem setRing_out (s : State) (k : Nat) (r : Ring) : (s.setRing k r).out = s.out := rfl

@[simp] theorem onRing_pending (s : State) (k : Nat) (f : Ring → Ring) : (s.onRing k f).pending = s.pending := rfl
@[simp] theorem onRing_fuses (s : State) (k : Nat) (f : Ring → Ring) : (s.onRing k f).fuses = s.fuses := rfl
@[simp] theorem onRing_regs (s : State) (k : Nat) (f : Ring → Ring) : (s.onRing k f).regs = s.regs := rfl
@[simp] theorem onRing_pregs (s : State) (k : Nat) (f : Ring → Ring) : (s.onRing k f).pregs = s.pregs := rfl
@[simp] theorem onRing_lows (s : State) (k : Nat) (f : Ring → Ring) : (s.onRing k f).lows = s.lows := rfl
@[simp] theorem onRing_ctxCfg (s : State) (k : Nat) (f : Ring → Ring) : (s.onRing k f).ctxCfg = s.ctxCfg := rfl
@[simp] theorem onRing_updCfg (s : State) (k : Nat) (f : Ring → Ring) : (s.onRing k f).updCfg = s.updCfg := rfl
@[simp] theorem onRing_fwdCfg (s : State) (k : Nat) (f : Ring → Ring) : (s.onRing k f).fwdCfg = s.fwdCfg := rfl
@[simp] theorem onRing_drvCfg (s : State) (k : Nat) (f : Ring → Ring) : (s.onRing k f).drvCfg = s.drvCfg := rfl
@[simp] theorem onRing_xl (s : State) (k : Nat) (f : Ring → Ring) : (s.onRing k f).xl = s.xl := rfl
@[simp] theorem onRing_tb (s : State) (k : Nat) (f : Ring → Ring) : (s.onRing k f).tb = s.tb := rfl
@[simp] theorem onRing_sp (s : State) (k : Nat) (f : Ring → Ring) : (s.onRing k f).sp = s.sp := rfl
@[simp] theorem onRing_qz (s : State) (k : Nat) (f : Ring → Ring) : (s.onRing k f).qz = s.qz := rfl
@[simp] theorem onRing_up (s : State) (k : Nat) (f : Ring → Ring) : (s.onRing k f).up = s.up := rfl
@[simp] theorem onRing_ch (s : State) (k : Nat) (f : Ring → Ring) : (s.onRing k f).ch = s.ch := rfl
@[simp] theorem onRing_gs (s : State) (k : Nat) (f : Ring → Ring) : (s.onRing k f).gs = s.gs := rfl
@[simp] theorem onRing_fl (s : State) (k : Nat) (f : Ring → Ring) : (s.onRing k f).fl = s.fl := rfl
@[simp] theorem onRing_tel (s : State) (k : Nat) (f : Ring → Ring) : (s.onRing k f).tel = s.tel := rfl
@[simp] theorem onRing_pw (s : State) (k : Nat) (f : Ring → Ring) : (s.onRing k f).pw = s.pw := rfl
@[simp] theorem onRing_st (s : State) (k : Nat) (f : Ring → Ring) : (s.onRing k f).st = s.st := rfl
@[simp] theorem onRing_i3 (s : State) (k : Nat) (f : Ring → Ring) : (s.onRing k f).i3 = s.i3 := rfl
@[simp] theorem onRing_rl (s : State) (k : Nat) (f : Ring → Ring) : (s.onRing k f).rl = s.rl := rfl
@[simp] theorem onRing_free (s : State) (k : Nat) (f : Ring → Ring) : (s.onRing k f).free = s.free := rfl
@[simp] theorem onRing_out (s : State) (k : Nat) (f : Ring → Ring) : (s.onRing k f).out = s.out := rfl

@[simp] theorem setDesc_pending (s : State) (d : Desc) : (s.setDesc d).pending = s.pending := rfl
@[simp] theorem setDesc_fuses (s : State) (d : Desc) : (s.setDesc d).fuses = s.fuses := rfl
@[simp] theorem setDesc_regs (s : State) (d : Desc) : (s.setDesc d).regs = s.regs := rfl
@[simp] theorem setDesc_pregs (s : State) (d : Desc) : (s.setDesc d).pregs = s.pregs := rfl
@[simp] theorem setDesc_lows (s : State) (d : Desc) : (s.setDesc d).lows = s.lows := rfl
@[simp] theorem setDesc_ctxCfg (s : State) (d : Desc) : (s.setDesc d).ctxCfg = s.ctxCfg := rfl
@[simp] theorem setDesc_updCfg (s : State) (d : Desc) : (s.setDesc d).updCfg = s.updCfg := rfl
@[simp] theorem setDesc_fwdCfg (s : State) (d : Desc) : (s.setDesc d).fwdCfg = s.fwdCfg := rfl
@[simp] theorem setDesc_drvCfg (s : State) (d : Desc) : (s.setDesc d).drvCfg = s.drvCfg := rfl
@[simp] theorem setDesc_xl (s : State) (d : Desc) : (s.setDesc d).xl = s.xl := rfl
@[simp] theorem setDesc_tb (s : State) (d : Desc) : (s.setDesc d).tb = s.tb := rfl
@[simp] theorem setDesc_sp (s : State) (d : Desc) : (s.setDesc d).sp = s.sp := rfl
@[simp] theorem setDesc_qz (s : State) (d : Desc) : (s.setDesc d).qz = s.qz := rfl
@[simp] theorem setDesc_up (s : State) (d : Desc) : (s.setDesc d).up = s.up := rfl
@[simp] theorem setDesc_ch (s : State) (d : Desc) : (s.setDesc d).ch = s.ch := rfl
@[simp] theorem setDesc_gs (s : State) (d : Desc) : (s.setDesc d).gs = s.gs := rfl
@[simp] theorem setDesc_fl (s : State) (d : Desc) : (s.setDesc d).fl = s.fl := rfl
@[simp] theorem setDesc_tel (s : State) (d : Desc) : (s.setDesc d).tel = s.tel := rfl
@[simp] theorem setDesc_pw (s : State) (d : Desc) : (s.setDesc d).pw = s.pw := rfl
@[simp] theorem setDesc_st (s : State) (d : Desc) : (s.setDesc d).st = s.st := rfl
@[simp] theorem setDesc_i3 (s : State) (d : Desc) : (s.setDesc d).i3 = s.i3 := rfl
@[simp] theorem setDesc_rl (s : State) (d : Desc) : (s.setDesc d).rl = s.rl := rfl
@[simp] theorem setDesc_free (s : State) (d : Desc) : (s.setDesc d).free = s.free := rfl
@[simp] theorem setDesc_out (s : State) (d : Desc) : (s.setDesc d).out = s.out := rfl

@[simp] theorem onDesc_pending (s : State) (id : Nat) (f : Desc → Desc) : (s.onDesc id f).pending = s.pending := rfl
@[simp] theorem onDesc_fuses (s : State) (id : Nat) (f : Desc → Desc) : (s.onDesc id f).fuses = s.fuses := rfl
@[simp] theorem onDesc_regs (s : State) (id : Nat) (f : Desc → Desc) : (s.onDesc id f).regs = s.regs := rfl
@[simp] theorem onDesc_pregs (s : State) (id : Nat) (f : Desc → Desc) : (s.onDesc id f).pregs = s.pregs := rfl
@[simp] theorem onDesc_lows (s : State) (id : Nat) (f : Desc → Desc) : (s.onDesc id f).lows = s.lows := rfl
@[simp] theorem onDesc_ctxCfg (s : State) (id : Nat) (f : Desc → Desc) : (s.onDesc id f).ctxCfg = s.ctxCfg := rfl
@[simp] theorem onDesc_updCfg (s : State) (id : Nat) (f : Desc → Desc) : (s.onDesc id f).updCfg = s.updCfg := rfl
@[simp] theorem onDesc_fwdCfg (s : State) (id : Nat) (f : Desc → Desc) : (s.onDesc id f).fwdCfg = s.fwdCfg := rfl
@[simp] theorem onDesc_drvCfg (s : State) (id : Nat) (f : Desc → Desc) : (s.onDesc id f).drvCfg = s.drvCfg := rfl
@[simp] theorem onDesc_xl (s : State) (id : Nat) (f : Desc → Desc) : (s.onDesc id f).xl = s.xl := rfl
@[simp] theorem onDesc_tb (s : State) (id : Nat) (f : Desc → Desc) : (s.onDesc id f).tb = s.tb := rfl
@[simp] theorem onDesc_sp (s : State) (id : Nat) (f : Desc → Desc) : (s.onDesc id f).sp = s.sp := rfl
@[simp] theorem onDesc_qz (s : State) (id : Nat) (f : Desc → Desc) : (s.onDesc id f).qz = s.qz := rfl
@[simp] theorem onDesc_up (s : State) (id : Nat) (f : Desc → Desc) : (s.onDesc id f).up = s.up := rfl
@[simp] theorem onDesc_ch (s : State) (id : Nat) (f : Desc → Desc) : (s.onDesc id f).ch = s.ch := rfl
@[simp] theorem onDesc_gs (s : State) (id : Nat) (f : Desc → Desc) : (s.onDesc id f).gs = s.gs := rfl
@[simp] theorem onDesc_fl (s : State) (id : Nat) (f : Desc → Desc) : (s.onDesc id f).fl = s.fl := rfl
@[simp] theorem onDesc_tel (s : State) (id : Nat) (f : Desc → Desc) : (s.onDesc id f).tel = s.tel := rfl
@[simp] theorem onDesc_pw (s : State) (id : Nat) (f : Desc → Desc) : (s.onDesc id f).pw = s.pw := rfl
@[simp] theorem onDesc_st (s : State) (id : Nat) (f : Desc → Desc) : (s.onDesc id f).st = s.st := rfl
@[simp] theorem onDesc_i3 (s : State) (id : Nat) (f : Desc → Desc) : (s.onDesc id f).i3 = s.i3 := rfl
@[simp] theorem onDesc_rl (s : State) (id : Nat) (f : Desc → Desc) : (s.onDesc id f).rl = s.rl := rfl
@[simp] theorem onDesc_free (s : State) (id : Nat) (f : Desc → Desc) : (s.onDesc id f).free = s.free := rfl
@[simp] theorem onDesc_out (s : State) (id : Nat) (f : Desc → Desc) : (s.onDesc id f).out = s.out := rfl

@[simp] theorem settle_pending (s : State) (id : Nat) (f : Desc → Desc) : (s.settle id f).pending = s.pending := rfl
@[simp] theorem settle_fuses (s : State) (id : Nat) (f : Desc → Desc) : (s.settle id f).fuses = s.fuses := rfl
@[simp] theorem settle_regs (s : State) (id : Nat) (f : Desc → Desc) : (s.settle id f).regs = s.regs := rfl
@[simp] theorem settle_pregs (s : State) (id : Nat) (f : Desc → Desc) : (s.settle id f).pregs = s.pregs := rfl
@[simp] theorem settle_lows (s : State) (id : Nat) (f : Desc → Desc) : (s.settle id f).lows = s.lows := rfl
@[simp] theorem settle_ctxCfg (s : State) (id : Nat) (f : Desc → Desc) : (s.settle id f).ctxCfg = s.ctxCfg := rfl
@[simp] theorem settle_updCfg (s : State) (id : Nat) (f : Desc → Desc) : (s.settle id f).updCfg = s.updCfg := rfl
@[simp] theorem settle_fwdCfg (s : State) (id : Nat) (f : Desc → Desc) : (s.settle id f).fwdCfg = s.fwdCfg := rfl
@[simp] theorem settle_drvCfg (s : State) (id : Nat) (f : Desc → Desc) : (s.settle id f).drvCfg = s.drvCfg := rfl
@[simp] theorem settle_xl (s : State) (id : Nat) (f : Desc → Desc) : (s.settle id f).xl = s.xl := rfl
@[simp] theorem settle_tb (s : State) (id : Nat) (f : Desc → Desc) : (s.settle id f).tb = s.tb := rfl
@[simp] theorem settle_sp (s : State) (id : Nat) (f : Desc → Desc) : (s.settle id f).sp = s.sp := rfl
@[simp] theorem settle_qz (s : State) (id : Nat) (f : Desc → Desc) : (s.settle id f).qz = s.qz := rfl
@[simp] theorem settle_up (s : State) (id : Nat) (f : Desc → Desc) : (s.settle id f).up = s.up := rfl
@[simp] theorem settle_ch (s : State) (id : Nat) (f : Desc → Desc) : (s.settle id f).ch = s.ch := rfl
@[simp] theorem settle_gs (s : State) (id : Nat) (f : Desc → Desc) : (s.settle id f).gs = s.gs := rfl
@[simp] theorem settle_fl (s : State) (id : Nat) (f : Desc → Desc) : (s.settle id f).fl = s.fl := rfl
@[simp] theorem settle_tel (s : State) (id : Nat) (f : Desc → Desc) : (s.settle id f).tel = s.tel := rfl
@[simp] theorem settle_pw (s : State) (id : Nat) (f : Desc → Desc) : (s.settle id f).pw = s.pw := rfl
@[simp] theorem settle_st (s : State) (id : Nat) (f : Desc → Desc) : (s.settle id f).st = s.st := rfl
@[simp] theorem settle_i3 (s : State) (id : Nat) (f : Desc → Desc) : (s.settle id f).i3 = s.i3 := rfl
@[simp] theorem settle_rl (s : State) (id : Nat) (f : Desc → Desc) : (s.settle id f).rl = s.rl := rfl
@[simp] theorem settle_free (s : State) (id : Nat) (f : Desc → Desc) : (s.settle id f).free = s.free := rfl
@[simp] theorem settle_out (s : State) (id : Nat) (f : Desc → Desc) : (s.settle id f).out = s.out := rfl

@[simp] theorem endDesc_pending (s : State) (id : Nat) (st : BitVec 8) (a b : Nat) (c : Word64) : (s.endDesc id st a b c).pending = s.pending := rfl
@[simp] theorem endDesc_fuses (s : State) (id : Nat) (st : BitVec 8) (a b : Nat) (c : Word64) : (s.endDesc id st a b c).fuses = s.fuses := rfl
@[simp] theorem endDesc_regs (s : State) (id : Nat) (st : BitVec 8) (a b : Nat) (c : Word64) : (s.endDesc id st a b c).regs = s.regs := rfl
@[simp] theorem endDesc_pregs (s : State) (id : Nat) (st : BitVec 8) (a b : Nat) (c : Word64) : (s.endDesc id st a b c).pregs = s.pregs := rfl
@[simp] theorem endDesc_lows (s : State) (id : Nat) (st : BitVec 8) (a b : Nat) (c : Word64) : (s.endDesc id st a b c).lows = s.lows := rfl
@[simp] theorem endDesc_ctxCfg (s : State) (id : Nat) (st : BitVec 8) (a b : Nat) (c : Word64) : (s.endDesc id st a b c).ctxCfg = s.ctxCfg := rfl
@[simp] theorem endDesc_updCfg (s : State) (id : Nat) (st : BitVec 8) (a b : Nat) (c : Word64) : (s.endDesc id st a b c).updCfg = s.updCfg := rfl
@[simp] theorem endDesc_fwdCfg (s : State) (id : Nat) (st : BitVec 8) (a b : Nat) (c : Word64) : (s.endDesc id st a b c).fwdCfg = s.fwdCfg := rfl
@[simp] theorem endDesc_drvCfg (s : State) (id : Nat) (st : BitVec 8) (a b : Nat) (c : Word64) : (s.endDesc id st a b c).drvCfg = s.drvCfg := rfl
@[simp] theorem endDesc_xl (s : State) (id : Nat) (st : BitVec 8) (a b : Nat) (c : Word64) : (s.endDesc id st a b c).xl = s.xl := rfl
@[simp] theorem endDesc_tb (s : State) (id : Nat) (st : BitVec 8) (a b : Nat) (c : Word64) : (s.endDesc id st a b c).tb = s.tb := rfl
@[simp] theorem endDesc_sp (s : State) (id : Nat) (st : BitVec 8) (a b : Nat) (c : Word64) : (s.endDesc id st a b c).sp = s.sp := rfl
@[simp] theorem endDesc_qz (s : State) (id : Nat) (st : BitVec 8) (a b : Nat) (c : Word64) : (s.endDesc id st a b c).qz = s.qz := rfl
@[simp] theorem endDesc_up (s : State) (id : Nat) (st : BitVec 8) (a b : Nat) (c : Word64) : (s.endDesc id st a b c).up = s.up := rfl
@[simp] theorem endDesc_ch (s : State) (id : Nat) (st : BitVec 8) (a b : Nat) (c : Word64) : (s.endDesc id st a b c).ch = s.ch := rfl
@[simp] theorem endDesc_gs (s : State) (id : Nat) (st : BitVec 8) (a b : Nat) (c : Word64) : (s.endDesc id st a b c).gs = s.gs := rfl
@[simp] theorem endDesc_fl (s : State) (id : Nat) (st : BitVec 8) (a b : Nat) (c : Word64) : (s.endDesc id st a b c).fl = s.fl := rfl
@[simp] theorem endDesc_tel (s : State) (id : Nat) (st : BitVec 8) (a b : Nat) (c : Word64) : (s.endDesc id st a b c).tel = s.tel := rfl
@[simp] theorem endDesc_pw (s : State) (id : Nat) (st : BitVec 8) (a b : Nat) (c : Word64) : (s.endDesc id st a b c).pw = s.pw := rfl
@[simp] theorem endDesc_st (s : State) (id : Nat) (st : BitVec 8) (a b : Nat) (c : Word64) : (s.endDesc id st a b c).st = s.st := rfl
@[simp] theorem endDesc_i3 (s : State) (id : Nat) (st : BitVec 8) (a b : Nat) (c : Word64) : (s.endDesc id st a b c).i3 = s.i3 := rfl
@[simp] theorem endDesc_rl (s : State) (id : Nat) (st : BitVec 8) (a b : Nat) (c : Word64) : (s.endDesc id st a b c).rl = s.rl := rfl
@[simp] theorem endDesc_free (s : State) (id : Nat) (st : BitVec 8) (a b : Nat) (c : Word64) : (s.endDesc id st a b c).free = s.free := rfl
@[simp] theorem endDesc_out (s : State) (id : Nat) (st : BitVec 8) (a b : Nat) (c : Word64) : (s.endDesc id st a b c).out = s.out := rfl

/-- The parts in which registers keep their values. -/
def regMask : Mask := fun z => [Zone.regs, .pregs, .ctxCfg, .updCfg, .fwdCfg, .drvCfg, .tel, .st].contains z

theorem regPut_keeps (s : State) (p : Path) (off : Nat) (v : Word64) : hide regMask (regPut s p off v) = hide regMask s :=
  regPut_hide rfl rfl rfl rfl rfl rfl rfl rfl s p off v

@[simp] theorem regPut_pending (s : State) (p : Path) (off : Nat) (v : Word64) : (regPut s p off v).pending = s.pending := same_of_hide (regPut_keeps s p off v) .pending rfl
@[simp] theorem regPut_fuses (s : State) (p : Path) (off : Nat) (v : Word64) : (regPut s p off v).fuses = s.fuses := same_of_hide (regPut_keeps s p off v) .fuses rfl
@[simp] theorem regPut_lows (s : State) (p : Path) (off : Nat) (v : Word64) : (regPut s p off v).lows = s.lows := same_of_hide (regPut_keeps s p off v) .lows rfl
@[simp] theorem regPut_fe (s : State) (p : Path) (off : Nat) (v : Word64) : (regPut s p off v).fe = s.fe := same_of_hide (regPut_keeps s p off v) .fe rfl
@[simp] theorem regPut_xl (s : State) (p : Path) (off : Nat) (v : Word64) : (regPut s p off v).xl = s.xl := same_of_hide (regPut_keeps s p off v) .xl rfl
@[simp] theorem regPut_tb (s : State) (p : Path) (off : Nat) (v : Word64) : (regPut s p off v).tb = s.tb := same_of_hide (regPut_keeps s p off v) .tb rfl
@[simp] theorem regPut_sp (s : State) (p : Path) (off : Nat) (v : Word64) : (regPut s p off v).sp = s.sp := same_of_hide (regPut_keeps s p off v) .sp rfl
@[simp] theorem regPut_qz (s : State) (p : Path) (off : Nat) (v : Word64) : (regPut s p off v).qz = s.qz := same_of_hide (regPut_keeps s p off v) .qz rfl
@[simp] theorem regPut_up (s : State) (p : Path) (off : Nat) (v : Word64) : (regPut s p off v).up = s.up := same_of_hide (regPut_keeps s p off v) .up rfl
@[simp] theorem regPut_ch (s : State) (p : Path) (off : Nat) (v : Word64) : (regPut s p off v).ch = s.ch := same_of_hide (regPut_keeps s p off v) .ch rfl
@[simp] theorem regPut_gs (s : State) (p : Path) (off : Nat) (v : Word64) : (regPut s p off v).gs = s.gs := by
  have h := congrArg State.gs (regPut_keeps s p off v)
  exact h
@[simp] theorem regPut_fl (s : State) (p : Path) (off : Nat) (v : Word64) : (regPut s p off v).fl = s.fl := same_of_hide (regPut_keeps s p off v) .fl rfl
@[simp] theorem regPut_pw (s : State) (p : Path) (off : Nat) (v : Word64) : (regPut s p off v).pw = s.pw := same_of_hide (regPut_keeps s p off v) .pw rfl
@[simp] theorem regPut_i3 (s : State) (p : Path) (off : Nat) (v : Word64) : (regPut s p off v).i3 = s.i3 := same_of_hide (regPut_keeps s p off v) .i3 rfl
@[simp] theorem regPut_rl (s : State) (p : Path) (off : Nat) (v : Word64) : (regPut s p off v).rl = s.rl := same_of_hide (regPut_keeps s p off v) .rl rfl
@[simp] theorem regPut_free (s : State) (p : Path) (off : Nat) (v : Word64) : (regPut s p off v).free = s.free := same_of_hide (regPut_keeps s p off v) .free rfl
@[simp] theorem regPut_out (s : State) (p : Path) (off : Nat) (v : Word64) : (regPut s p off v).out = s.out := same_of_hide (regPut_keeps s p off v) .out rfl

@[simp] theorem finish_pending (s : State) (p : Path) (off r : Nat) : (s.finish p off r).pending = s.pending := same_of_hide (regPut_keeps s p off _) .pending rfl
@[simp] theorem finish_fuses (s : State) (p : Path) (off r : Nat) : (s.finish p off r).fuses = s.fuses := same_of_hide (regPut_keeps s p off _) .fuses rfl
@[simp] theorem finish_lows (s : State) (p : Path) (off r : Nat) : (s.finish p off r).lows = s.lows := same_of_hide (regPut_keeps s p off _) .lows rfl
@[simp] theorem finish_fe (s : State) (p : Path) (off r : Nat) : (s.finish p off r).fe = s.fe := same_of_hide (regPut_keeps s p off _) .fe rfl
@[simp] theorem finish_xl (s : State) (p : Path) (off r : Nat) : (s.finish p off r).xl = s.xl := same_of_hide (regPut_keeps s p off _) .xl rfl
@[simp] theorem finish_tb (s : State) (p : Path) (off r : Nat) : (s.finish p off r).tb = s.tb := same_of_hide (regPut_keeps s p off _) .tb rfl
@[simp] theorem finish_sp (s : State) (p : Path) (off r : Nat) : (s.finish p off r).sp = s.sp := same_of_hide (regPut_keeps s p off _) .sp rfl
@[simp] theorem finish_qz (s : State) (p : Path) (off r : Nat) : (s.finish p off r).qz = s.qz := same_of_hide (regPut_keeps s p off _) .qz rfl
@[simp] theorem finish_up (s : State) (p : Path) (off r : Nat) : (s.finish p off r).up = s.up := same_of_hide (regPut_keeps s p off _) .up rfl
@[simp] theorem finish_ch (s : State) (p : Path) (off r : Nat) : (s.finish p off r).ch = s.ch := same_of_hide (regPut_keeps s p off _) .ch rfl
@[simp] theorem finish_gs (s : State) (p : Path) (off r : Nat) : (s.finish p off r).gs = s.gs := by
  unfold State.finish
  exact regPut_gs _ _ _ _
@[simp] theorem finish_fl (s : State) (p : Path) (off r : Nat) : (s.finish p off r).fl = s.fl := same_of_hide (regPut_keeps s p off _) .fl rfl
@[simp] theorem finish_pw (s : State) (p : Path) (off r : Nat) : (s.finish p off r).pw = s.pw := same_of_hide (regPut_keeps s p off _) .pw rfl
@[simp] theorem finish_i3 (s : State) (p : Path) (off r : Nat) : (s.finish p off r).i3 = s.i3 := same_of_hide (regPut_keeps s p off _) .i3 rfl
@[simp] theorem finish_rl (s : State) (p : Path) (off r : Nat) : (s.finish p off r).rl = s.rl := same_of_hide (regPut_keeps s p off _) .rl rfl
@[simp] theorem finish_free (s : State) (p : Path) (off r : Nat) : (s.finish p off r).free = s.free := same_of_hide (regPut_keeps s p off _) .free rfl
@[simp] theorem finish_out (s : State) (p : Path) (off r : Nat) : (s.finish p off r).out = s.out := same_of_hide (regPut_keeps s p off _) .out rfl

@[simp] theorem cmdField_pending (s : State) (p : Path) (off lo n x : Nat) : (s.cmdField p off lo n x).pending = s.pending := same_of_hide (regPut_keeps s p off _) .pending rfl
@[simp] theorem cmdField_fuses (s : State) (p : Path) (off lo n x : Nat) : (s.cmdField p off lo n x).fuses = s.fuses := same_of_hide (regPut_keeps s p off _) .fuses rfl
@[simp] theorem cmdField_lows (s : State) (p : Path) (off lo n x : Nat) : (s.cmdField p off lo n x).lows = s.lows := same_of_hide (regPut_keeps s p off _) .lows rfl
@[simp] theorem cmdField_fe (s : State) (p : Path) (off lo n x : Nat) : (s.cmdField p off lo n x).fe = s.fe := same_of_hide (regPut_keeps s p off _) .fe rfl
@[simp] theorem cmdField_xl (s : State) (p : Path) (off lo n x : Nat) : (s.cmdField p off lo n x).xl = s.xl := same_of_hide (regPut_keeps s p off _) .xl rfl
@[simp] theorem cmdField_tb (s : State) (p : Path) (off lo n x : Nat) : (s.cmdField p off lo n x).tb = s.tb := same_of_hide (regPut_keeps s p off _) .tb rfl
@[simp] theorem cmdField_sp (s : State) (p : Path) (off lo n x : Nat) : (s.cmdField p off lo n x).sp = s.sp := same_of_hide (regPut_keeps s p off _) .sp rfl
@[simp] theorem cmdField_qz (s : State) (p : Path) (off lo n x : Nat) : (s.cmdField p off lo n x).qz = s.qz := same_of_hide (regPut_keeps s p off _) .qz rfl
@[simp] theorem cmdField_up (s : State) (p : Path) (off lo n x : Nat) : (s.cmdField p off lo n x).up = s.up := same_of_hide (regPut_keeps s p off _) .up rfl
@[simp] theorem cmdField_ch (s : State) (p : Path) (off lo n x : Nat) : (s.cmdField p off lo n x).ch = s.ch := same_of_hide (regPut_keeps s p off _) .ch rfl
@[simp] theorem cmdField_gs (s : State) (p : Path) (off lo n x : Nat) : (s.cmdField p off lo n x).gs = s.gs := by
  unfold State.cmdField
  exact regPut_gs _ _ _ _
@[simp] theorem cmdField_fl (s : State) (p : Path) (off lo n x : Nat) : (s.cmdField p off lo n x).fl = s.fl := same_of_hide (regPut_keeps s p off _) .fl rfl
@[simp] theorem cmdField_pw (s : State) (p : Path) (off lo n x : Nat) : (s.cmdField p off lo n x).pw = s.pw := same_of_hide (regPut_keeps s p off _) .pw rfl
@[simp] theorem cmdField_i3 (s : State) (p : Path) (off lo n x : Nat) : (s.cmdField p off lo n x).i3 = s.i3 := same_of_hide (regPut_keeps s p off _) .i3 rfl
@[simp] theorem cmdField_rl (s : State) (p : Path) (off lo n x : Nat) : (s.cmdField p off lo n x).rl = s.rl := same_of_hide (regPut_keeps s p off _) .rl rfl
@[simp] theorem cmdField_free (s : State) (p : Path) (off lo n x : Nat) : (s.cmdField p off lo n x).free = s.free := same_of_hide (regPut_keeps s p off _) .free rfl
@[simp] theorem cmdField_out (s : State) (p : Path) (off lo n x : Nat) : (s.cmdField p off lo n x).out = s.out := same_of_hide (regPut_keeps s p off _) .out rfl

@[simp] theorem tell_nil (s : State) : s.tell [] = s := rfl

theorem send_out (s : State) (x : Output) : (s.send x).out = x :: s.out := rfl

theorem sendAll_out (s : State) (xs : List Output) : (s.sendAll xs).out = xs.reverse ++ s.out := rfl

/-! ## Rings -/

@[simp] theorem ring_setRing (s : State) (k : Nat) (r : Ring) : (s.setRing k r).ring k = r := by
  unfold State.ring State.setRing State.onFe
  exact mgetD_mset_self _ _ _ _

theorem ring_setRing_ne (s : State) (k j : Nat) (r : Ring) (h : k ≠ j) : (s.setRing k r).ring j = s.ring j := by
  unfold State.ring State.setRing State.onFe
  exact mgetD_mset_ne _ _ _ _ _ h

@[simp] theorem ring_onRing (s : State) (k : Nat) (f : Ring → Ring) : (s.onRing k f).ring k = f (s.ring k) := ring_setRing _ _ _

theorem ring_onRing_ne (s : State) (k j : Nat) (f : Ring → Ring) (h : k ≠ j) : (s.onRing k f).ring j = s.ring j :=
  ring_setRing_ne _ _ _ _ h

theorem ring_of_rings {s t : State} (h : t.fe.rings = s.fe.rings) (k : Nat) : t.ring k = s.ring k := by
  unfold State.ring; rw [h]

theorem ring_of_fe {s t : State} (h : t.fe = s.fe) (k : Nat) : t.ring k = s.ring k := by
  unfold State.ring; rw [h]

end Sys2Proof.Laws
end

