-- ==== Sys2Proof/Laws/FrameAnnounce.lean ====
section
/-!
SUPPORT. Frames of what Machine/Announce.lean defines: the parts of the state that each may change.
-/

namespace Sys2Proof.Laws

open Sys2Proof.Machine

variable {M : Mask}

theorem snoop_hide (h_fe : M .fe = true) (h_out : M .out = true) (s : State) (port line : Nat) : hide M (State.snoop s port line) = hide M s := by
  unfold State.snoop
  try dsimp only
  repeat' first
    | with_reducible rfl
    | (simp only [hide_ite, ite_self, ite_fst, implies_true, eq_self, h_fe, h_out, onFe_hide, readLine_hide, send_hide]; done)
    | with_reducible apply hide_if
    | with_reducible apply hide_if1
    | split
    | (rw [forEach_hide])
    | (rw [foldl_hide])
    | (rw [foldlS_hide])
    | (intro; intros; try dsimp only)
    | (simp only [hide_ite, ite_self, ite_fst, implies_true, eq_self, h_fe, h_out, onFe_hide, readLine_hide, send_hide])

theorem execEyeletSnoop_hide (h_fe : M .fe = true) (h_out : M .out = true) (port line : Nat) (s : State) (t : State) (e : execEyeletSnoop port line s = .next t) : hide M t = hide M s := by
  refine next_hide e ?_
  simp only [eq_self, h_fe, h_out, snoop_hide]

theorem takeWord_hide (h_fe : M .fe = true) (h_up : M .up = true) (h_tel : M .tel = true) (h_pw : M .pw = true) (h_out : M .out = true) (s : State) (line : Nat) (l : EyeLine) (new : List Word64) (i : Nat) : hide M (State.takeWord s line l new i) = hide M s := by
  unfold State.takeWord
  try dsimp only
  repeat' first
    | with_reducible rfl
    | (simp only [hide_ite, ite_self, ite_fst, implies_true, eq_self, h_fe, h_up, h_tel, h_pw, h_out, newIndex_hide]; done)
    | with_reducible apply hide_if
    | with_reducible apply hide_if1
    | split
    | (rw [forEach_hide])
    | (rw [foldl_hide])
    | (rw [foldlS_hide])
    | (intro; intros; try dsimp only)
    | (simp only [hide_ite, ite_self, ite_fst, implies_true, eq_self, h_fe, h_up, h_tel, h_pw, h_out, newIndex_hide])

theorem lineReturn_hide (h_fe : M .fe = true) (h_up : M .up = true) (h_tel : M .tel = true) (h_pw : M .pw = true) (h_out : M .out = true) (s : State) (line : Nat) (words : List Word64) : hide M (State.lineReturn s line words) = hide M s := by
  unfold State.lineReturn
  try dsimp only
  repeat' first
    | with_reducible rfl
    | (simp only [hide_ite, ite_self, ite_fst, implies_true, eq_self, h_fe, h_up, h_tel, h_pw, h_out, forEach_hide, count_hide, onFe_hide, takeWord_hide]; done)
    | with_reducible apply hide_if
    | with_reducible apply hide_if1
    | split
    | (rw [forEach_hide])
    | (rw [foldl_hide])
    | (rw [foldlS_hide])
    | (intro; intros; try dsimp only)
    | (simp only [hide_ite, ite_self, ite_fst, implies_true, eq_self, h_fe, h_up, h_tel, h_pw, h_out, forEach_hide, count_hide, onFe_hide, takeWord_hide])

theorem execEyeletLineReturn_hide (h_fe : M .fe = true) (h_up : M .up = true) (h_tel : M .tel = true) (h_pw : M .pw = true) (h_out : M .out = true) (line : Nat) (words : List Word64) (s : State) (t : State) (e : execEyeletLineReturn line words s = .next t) : hide M t = hide M s := by
  simp only [execEyeletLineReturn, Host.Outcome.next.injEq] at e
  subst e
  repeat' first
    | with_reducible rfl
    | (simp only [hide_ite, ite_self, ite_fst, implies_true, eq_self, h_fe, h_up, h_tel, h_pw, h_out, lineReturn_hide]; done)
    | with_reducible apply hide_if
    | with_reducible apply hide_if1
    | split
    | (rw [forEach_hide])
    | (rw [foldl_hide])
    | (rw [foldlS_hide])
    | (intro; intros; try dsimp only)
    | (simp only [hide_ite, ite_self, ite_fst, implies_true, eq_self, h_fe, h_up, h_tel, h_pw, h_out, lineReturn_hide])

theorem overrunRecord_hide (h_fe : M .fe = true) (h_up : M .up = true) (h_pw : M .pw = true) (h_out : M .out = true) (s : State) (c : Nat) : hide M (State.overrunRecord s c) = hide M s := by
  unfold State.overrunRecord
  try dsimp only
  repeat' first
    | with_reducible rfl
    | (simp only [hide_ite, ite_self, ite_fst, implies_true, eq_self, h_fe, h_up, h_pw, h_out, onFe_hide, writeOverrun_hide]; done)
    | with_reducible apply hide_if
    | with_reducible apply hide_if1
    | split
    | (rw [forEach_hide])
    | (rw [foldl_hide])
    | (rw [foldlS_hide])
    | (intro; intros; try dsimp only)
    | (simp only [hide_ite, ite_self, ite_fst, implies_true, eq_self, h_fe, h_up, h_pw, h_out, onFe_hide, writeOverrun_hide])

theorem execRingOverrunRecordWrite_hide (h_fe : M .fe = true) (h_up : M .up = true) (h_pw : M .pw = true) (h_out : M .out = true) (cpl : Nat) (s : State) (t : State) (e : execRingOverrunRecordWrite cpl s = .next t) : hide M t = hide M s := by
  simp only [execRingOverrunRecordWrite, Host.Outcome.next.injEq] at e
  subst e
  repeat' first
    | with_reducible rfl
    | (simp only [hide_ite, ite_self, ite_fst, implies_true, eq_self, h_fe, h_up, h_pw, h_out, overrunRecord_hide]; done)
    | with_reducible apply hide_if
    | with_reducible apply hide_if1
    | split
    | (rw [forEach_hide])
    | (rw [foldl_hide])
    | (rw [foldlS_hide])
    | (intro; intros; try dsimp only)
    | (simp only [hide_ite, ite_self, ite_fst, implies_true, eq_self, h_fe, h_up, h_pw, h_out, overrunRecord_hide])

theorem doorbell_hide (h_fe : M .fe = true) (h_up : M .up = true) (h_tel : M .tel = true) (h_pw : M .pw = true) (h_out : M .out = true) (s : State) (off size : Nat) (val : Word64) : hide M (State.doorbell s off size val) = hide M s := by
  unfold State.doorbell
  try dsimp only
  repeat' first
    | with_reducible rfl
    | (simp only [hide_ite, ite_self, ite_fst, implies_true, eq_self, h_fe, h_up, h_tel, h_pw, h_out, count_hide, newIndex_hide]; done)
    | with_reducible apply hide_if
    | with_reducible apply hide_if1
    | split
    | (rw [forEach_hide])
    | (rw [foldl_hide])
    | (rw [foldlS_hide])
    | (intro; intros; try dsimp only)
    | (simp only [hide_ite, ite_self, ite_fst, implies_true, eq_self, h_fe, h_up, h_tel, h_pw, h_out, count_hide, newIndex_hide])

theorem execBar2DoorbellWrite_hide (h_fe : M .fe = true) (h_up : M .up = true) (h_tel : M .tel = true) (h_pw : M .pw = true) (h_out : M .out = true) (off size : Nat) (val : Word64) (s : State) (t : State) (e : execBar2DoorbellWrite off size val s = .next t) : hide M t = hide M s := by
  simp only [execBar2DoorbellWrite, Host.Outcome.next.injEq] at e
  subst e
  repeat' first
    | with_reducible rfl
    | (simp only [hide_ite, ite_self, ite_fst, implies_true, eq_self, h_fe, h_up, h_tel, h_pw, h_out, doorbell_hide]; done)
    | with_reducible apply hide_if
    | with_reducible apply hide_if1
    | split
    | (rw [forEach_hide])
    | (rw [foldl_hide])
    | (rw [foldlS_hide])
    | (intro; intros; try dsimp only)
    | (simp only [hide_ite, ite_self, ite_fst, implies_true, eq_self, h_fe, h_up, h_tel, h_pw, h_out, doorbell_hide])

theorem readBack_hide (h_fe : M .fe = true) (h_out : M .out = true) (s : State) (off size : Nat) : hide M (State.readBack s off size) = hide M s := by
  unfold State.readBack
  try dsimp only
  repeat' first
    | with_reducible rfl
    | (simp only [hide_ite, ite_self, ite_fst, implies_true, eq_self, h_fe, h_out, send_hide, setRing_hide]; done)
    | with_reducible apply hide_if
    | with_reducible apply hide_if1
    | split
    | (rw [forEach_hide])
    | (rw [foldl_hide])
    | (rw [foldlS_hide])
    | (intro; intros; try dsimp only)
    | (simp only [hide_ite, ite_self, ite_fst, implies_true, eq_self, h_fe, h_out, send_hide, setRing_hide])

theorem execBar2ReadBack_hide (h_fe : M .fe = true) (h_out : M .out = true) (off size : Nat) (s : State) (t : State) (e : execBar2ReadBack off size s = .next t) : hide M t = hide M s := by
  refine next_hide e ?_
  simp only [eq_self, h_fe, h_out, readBack_hide]

theorem nearAnnounce_hide (h_fe : M .fe = true) (h_up : M .up = true) (h_tel : M .tel = true) (h_pw : M .pw = true) (h_out : M .out = true) (s0 : State) (port k : Nat) (v : BitVec 32) : hide M (State.nearAnnounce s0 port k v) = hide M s0 := by
  unfold State.nearAnnounce
  try dsimp only
  repeat' first
    | with_reducible rfl
    | (simp only [hide_ite, ite_self, ite_fst, implies_true, eq_self, h_fe, h_up, h_tel, h_pw, h_out, count_hide, newIndex_hide, send_hide]; done)
    | with_reducible apply hide_if
    | with_reducible apply hide_if1
    | split
    | (rw [forEach_hide])
    | (rw [foldl_hide])
    | (rw [foldlS_hide])
    | (intro; intros; try dsimp only)
    | (simp only [hide_ite, ite_self, ite_fst, implies_true, eq_self, h_fe, h_up, h_tel, h_pw, h_out, count_hide, newIndex_hide, send_hide])

theorem execNearRingAnnouncement_hide (h_fe : M .fe = true) (h_up : M .up = true) (h_tel : M .tel = true) (h_pw : M .pw = true) (h_out : M .out = true) (ring : OnPort Nat) (idx : BitVec 32) (s : State) (t : State) (e : execNearRingAnnouncement ring idx s = .next t) : hide M t = hide M s := by
  simp only [execNearRingAnnouncement, Host.Outcome.next.injEq] at e
  subst e
  repeat' first
    | with_reducible rfl
    | (simp only [hide_ite, ite_self, ite_fst, implies_true, eq_self, h_fe, h_up, h_tel, h_pw, h_out, nearAnnounce_hide]; done)
    | with_reducible apply hide_if
    | with_reducible apply hide_if1
    | split
    | (rw [forEach_hide])
    | (rw [foldl_hide])
    | (rw [foldlS_hide])
    | (intro; intros; try dsimp only)
    | (simp only [hide_ite, ite_self, ite_fst, implies_true, eq_self, h_fe, h_up, h_tel, h_pw, h_out, nearAnnounce_hide])

end Sys2Proof.Laws
end

