-- ==== Sys2Proof/Laws/FrameContexts.lean ====
section
/-!
SUPPORT. Frames of what Machine/Contexts.lean defines: the parts of the state that each may change.
-/

namespace Sys2Proof.Laws

open Sys2Proof.Machine

variable {M : Mask}

theorem enterCtx_hide (h_xl : M .xl = true) (h_qz : M .qz = true) (s : State) (c : Nat) : hide M (State.enterCtx s c) = hide M s := by
  unfold State.enterCtx
  try dsimp only
  repeat' first
    | with_reducible rfl
    | (simp only [hide_ite, ite_self, ite_fst, implies_true, eq_self, h_xl, h_qz, onQz_hide, onXl_hide]; done)
    | with_reducible apply hide_if
    | with_reducible apply hide_if1
    | split
    | (rw [forEach_hide])
    | (rw [foldl_hide])
    | (rw [foldlS_hide])
    | (intro; intros; try dsimp only)
    | (simp only [hide_ite, ite_self, ite_fst, implies_true, eq_self, h_xl, h_qz, onQz_hide, onXl_hide])

theorem ctxWrite_hide (h_lows : M .lows = true) (h_ctxCfg : M .ctxCfg = true) (h_xl : M .xl = true) (h_qz : M .qz = true) (h_tel : M .tel = true) (h_st : M .st = true) (h_out : M .out = true) (s : State) (p : Path) (off size : Nat) (val : Word64) : hide M (State.ctxWrite s p off size val) = hide M s := by
  unfold State.ctxWrite
  try dsimp only
  repeat' first
    | with_reducible rfl
    | (simp only [set_ctxCfg_hide, hide_ite, ite_self, ite_fst, implies_true, eq_self, h_lows, h_ctxCfg, h_xl, h_qz, h_tel, h_st, h_out, count_hide, enterCtx_hide, regWrite_hide]; done)
    | with_reducible apply hide_if
    | with_reducible apply hide_if1
    | split
    | (rw [forEach_hide])
    | (rw [foldl_hide])
    | (rw [foldlS_hide])
    | (rw [regWrite_hide])
    | assumption
    | (intro; intros; try dsimp only)
    | (simp only [set_ctxCfg_hide, hide_ite, ite_self, ite_fst, implies_true, eq_self, h_lows, h_ctxCfg, h_xl, h_qz, h_tel, h_st, h_out, count_hide, enterCtx_hide, regWrite_hide])

theorem execCtxCfgWrite_hide (h_lows : M .lows = true) (h_ctxCfg : M .ctxCfg = true) (h_xl : M .xl = true) (h_qz : M .qz = true) (h_tel : M .tel = true) (h_st : M .st = true) (h_out : M .out = true) (p : Path) (off size : Nat) (val : Word64) (s : State) (t : State) (e : execCtxCfgWrite p off size val s = .next t) : hide M t = hide M s := by
  simp only [execCtxCfgWrite, Host.Outcome.next.injEq] at e
  subst e
  repeat' first
    | with_reducible rfl
    | (simp only [hide_ite, ite_self, ite_fst, implies_true, eq_self, h_lows, h_ctxCfg, h_xl, h_qz, h_tel, h_st, h_out, ctxWrite_hide]; done)
    | with_reducible apply hide_if
    | with_reducible apply hide_if1
    | split
    | (rw [forEach_hide])
    | (rw [foldl_hide])
    | (rw [foldlS_hide])
    | (intro; intros; try dsimp only)
    | (simp only [hide_ite, ite_self, ite_fst, implies_true, eq_self, h_lows, h_ctxCfg, h_xl, h_qz, h_tel, h_st, h_out, ctxWrite_hide])

theorem invalDone_hide (h_regs : M .regs = true) (s : State) (p : Path) (result : Nat) : hide M (State.invalDone s p result) = hide M s := by
  unfold State.invalDone
  simp only [eq_self, h_regs, put_segInval_hide]

theorem dropSegs_hide (h_xl : M .xl = true) (h_out : M .out = true) (s : State) (c mask : Nat) : hide M (State.dropSegs s c mask) = hide M s := by
  unfold State.dropSegs
  try dsimp only
  repeat' first
    | with_reducible rfl
    | (simp only [hide_ite, ite_self, ite_fst, implies_true, eq_self, h_xl, h_out, onXl_hide, readMirror_hide]; done)
    | with_reducible apply hide_if
    | with_reducible apply hide_if1
    | split
    | (rw [forEach_hide])
    | (rw [foldl_hide])
    | (rw [foldlS_hide])
    | (intro; intros; try dsimp only)
    | (simp only [hide_ite, ite_self, ite_fst, implies_true, eq_self, h_xl, h_out, onXl_hide, readMirror_hide])

theorem segCmd_hide (h_regs : M .regs = true) (h_tel : M .tel = true) (h_st : M .st = true) (h_out : M .out = true) (s : State) (p : Path) (op : Nat) (val : Word64) (run : State → Nat → Nat → State) (h_run : ∀ (x0 : State) (x1 : Nat) (x2 : Nat), hide M (run x0 x1 x2) = hide M x0) : hide M (State.segCmd s p op val run) = hide M s := by
  unfold State.segCmd
  try dsimp only
  repeat' first
    | with_reducible rfl
    | (simp only [hide_ite, ite_self, ite_fst, implies_true, eq_self, h_regs, h_tel, h_st, h_out, h_run, command_hide, invalDone_hide, put_segInval_hide]; done)
    | with_reducible apply hide_if
    | with_reducible apply hide_if1
    | split
    | (rw [forEach_hide])
    | (rw [foldl_hide])
    | (rw [foldlS_hide])
    | (rw [command_hide])
    | assumption
    | (intro; intros; try dsimp only)
    | (simp only [hide_ite, ite_self, ite_fst, implies_true, eq_self, h_regs, h_tel, h_st, h_out, h_run, command_hide, invalDone_hide, put_segInval_hide])

theorem execInval_hide (h_regs : M .regs = true) (h_xl : M .xl = true) (h_tel : M .tel = true) (h_st : M .st = true) (h_out : M .out = true) (p : Path) (val : Word64) (s : State) (t : State) (e : execInval p val s = .next t) : hide M t = hide M s := by
  simp only [execInval, Host.Outcome.next.injEq] at e
  subst e
  repeat' first
    | with_reducible rfl
    | (simp only [hide_ite, ite_self, ite_fst, implies_true, eq_self, h_regs, h_xl, h_tel, h_st, h_out, dropSegs_hide, invalDone_hide, segCmd_hide]; done)
    | with_reducible apply hide_if
    | with_reducible apply hide_if1
    | split
    | (rw [forEach_hide])
    | (rw [foldl_hide])
    | (rw [foldlS_hide])
    | (rw [segCmd_hide])
    | assumption
    | (intro; intros; try dsimp only)
    | (simp only [hide_ite, ite_self, ite_fst, implies_true, eq_self, h_regs, h_xl, h_tel, h_st, h_out, dropSegs_hide, invalDone_hide, segCmd_hide])

theorem execInvalDrain_hide (h_regs : M .regs = true) (h_xl : M .xl = true) (h_tel : M .tel = true) (h_st : M .st = true) (h_out : M .out = true) (p : Path) (val : Word64) (s : State) (t : State) (e : execInvalDrain p val s = .next t) : hide M t = hide M s := by
  simp only [execInvalDrain, Host.Outcome.next.injEq] at e
  subst e
  repeat' first
    | with_reducible rfl
    | (simp only [hide_ite, ite_self, ite_fst, implies_true, eq_self, h_regs, h_xl, h_tel, h_st, h_out, dropSegs_hide, invalDone_hide, onXl_hide, segCmd_hide]; done)
    | with_reducible apply hide_if
    | with_reducible apply hide_if1
    | split
    | (rw [forEach_hide])
    | (rw [foldl_hide])
    | (rw [foldlS_hide])
    | (rw [segCmd_hide])
    | assumption
    | (intro; intros; try dsimp only)
    | (simp only [hide_ite, ite_self, ite_fst, implies_true, eq_self, h_regs, h_xl, h_tel, h_st, h_out, dropSegs_hide, invalDone_hide, onXl_hide, segCmd_hide])

theorem fillSegs_hide (h_xl : M .xl = true) (h_tel : M .tel = true) (s : State) (c : Nat) (block : Bytes) : hide M (State.fillSegs s c block) = hide M s := by
  unfold State.fillSegs
  try dsimp only
  repeat' first
    | with_reducible rfl
    | (simp only [hide_ite, ite_self, ite_fst, implies_true, eq_self, h_xl, h_tel, forEach_hide, countN_hide, onXl_hide]; done)
    | with_reducible apply hide_if
    | with_reducible apply hide_if1
    | split
    | (rw [forEach_hide])
    | (rw [foldl_hide])
    | (rw [foldlS_hide])
    | (intro; intros; try dsimp only)
    | (simp only [hide_ite, ite_self, ite_fst, implies_true, eq_self, h_xl, h_tel, forEach_hide, countN_hide, onXl_hide])

theorem mirrorReturn_hide (h_fe : M .fe = true) (h_xl : M .xl = true) (h_sp : M .sp = true) (h_up : M .up = true) (h_fl : M .fl = true) (h_tel : M .tel = true) (h_out : M .out = true) (s : State) (c : Nat) (block : Bytes) : hide M (State.mirrorReturn s c block) = hide M s := by
  unfold State.mirrorReturn
  try dsimp only
  repeat' first
    | with_reducible rfl
    | (simp only [hide_ite, ite_self, ite_fst, implies_true, eq_self, h_fe, h_xl, h_sp, h_up, h_fl, h_tel, h_out, forEach_hide, fillSegs_hide, onFe_hide, onXl_hide, prick_hide]; done)
    | with_reducible apply hide_if
    | with_reducible apply hide_if1
    | split
    | (rw [forEach_hide])
    | (rw [foldl_hide])
    | (rw [foldlS_hide])
    | (intro; intros; try dsimp only)
    | (simp only [hide_ite, ite_self, ite_fst, implies_true, eq_self, h_fe, h_xl, h_sp, h_up, h_fl, h_tel, h_out, forEach_hide, fillSegs_hide, onFe_hide, onXl_hide, prick_hide])

theorem execMirrorReadReturn_hide (h_fe : M .fe = true) (h_xl : M .xl = true) (h_sp : M .sp = true) (h_up : M .up = true) (h_fl : M .fl = true) (h_tel : M .tel = true) (h_out : M .out = true) (ctx : Nat) (block : Bytes) (s : State) (t : State) (e : execMirrorReadReturn ctx block s = .next t) : hide M t = hide M s := by
  simp only [execMirrorReadReturn, Host.Outcome.next.injEq] at e
  subst e
  repeat' first
    | with_reducible rfl
    | (simp only [hide_ite, ite_self, ite_fst, implies_true, eq_self, h_fe, h_xl, h_sp, h_up, h_fl, h_tel, h_out, mirrorReturn_hide]; done)
    | with_reducible apply hide_if
    | with_reducible apply hide_if1
    | split
    | (rw [forEach_hide])
    | (rw [foldl_hide])
    | (rw [foldlS_hide])
    | (intro; intros; try dsimp only)
    | (simp only [hide_ite, ite_self, ite_fst, implies_true, eq_self, h_fe, h_xl, h_sp, h_up, h_fl, h_tel, h_out, mirrorReturn_hide])

end Sys2Proof.Laws
end

