-- ==== Sys2Proof/Laws/FrameFlow.lean ====
section
/-!
SUPPORT. Frames of what Machine/Flow.lean defines: the parts of the state that each may change.
-/

namespace Sys2Proof.Laws

open Sys2Proof.Machine

variable {M : Mask}

theorem flowStall_hide (h_fe : M .fe = true) (h_tel : M .tel = true) (s : State) (id : Nat) : hide M (State.flowStall s id) = hide M s := by
  unfold State.flowStall
  (repeat' split) <;> simp only [hide_ite, ite_self, eq_self, h_fe, h_tel, onDesc_hide, tell_hide]

theorem execFlowStall_hide (h_fe : M .fe = true) (h_tel : M .tel = true) (id : Nat) (s : State) (t : State) (e : execFlowStall id s = .next t) : hide M t = hide M s := by
  refine next_hide e ?_
  simp only [eq_self, h_fe, h_tel, flowStall_hide]

theorem cntCmd_hide (h_regs : M .regs = true) (h_tel : M .tel = true) (h_st : M .st = true) (h_out : M .out = true) (s : State) (p : Path) (op : Nat) (val : Word64) (run : State → Bool → Nat → State) (h_run : ∀ (x0 : State) (x1 : Bool) (x2 : Nat), hide M (run x0 x1 x2) = hide M x0) : hide M (State.cntCmd s p op val run) = hide M s := by
  unfold State.cntCmd
  try dsimp only
  repeat' first
    | with_reducible rfl
    | (simp only [hide_ite, ite_self, ite_fst, implies_true, eq_self, h_regs, h_tel, h_st, h_out, h_run, command_hide, put_cntCmd_hide]; done)
    | with_reducible apply hide_if
    | with_reducible apply hide_if1
    | split
    | (rw [forEach_hide])
    | (rw [foldl_hide])
    | (rw [foldlS_hide])
    | (rw [command_hide])
    | assumption
    | (intro; intros; try dsimp only)
    | (simp only [hide_ite, ite_self, ite_fst, implies_true, eq_self, h_regs, h_tel, h_st, h_out, h_run, command_hide, put_cntCmd_hide])

theorem cntDone_hide (h_regs : M .regs = true) (h_tel : M .tel = true) (h_st : M .st = true) (h_out : M .out = true) (s : State) (p : Path) (result : Nat) : hide M (State.cntDone s p result) = hide M s := by
  unfold State.cntDone
  try dsimp only
  repeat' first
    | with_reducible rfl
    | (simp only [hide_ite, ite_self, ite_fst, implies_true, eq_self, h_regs, h_tel, h_st, h_out, cntCmd_hide, finish_hide, put_cntCmd_hide]; done)
    | with_reducible apply hide_if
    | with_reducible apply hide_if1
    | split
    | (rw [forEach_hide])
    | (rw [foldl_hide])
    | (rw [foldlS_hide])
    | (rw [cntCmd_hide])
    | (rw [finish_hide])
    | assumption
    | (intro; intros; try dsimp only)
    | (simp only [hide_ite, ite_self, ite_fst, implies_true, eq_self, h_regs, h_tel, h_st, h_out, cntCmd_hide, finish_hide, put_cntCmd_hide])

theorem setCounter_hide (h_tel : M .tel = true) (s : State) (off : Nat) (c : Counter) : hide M (State.setCounter s off c) = hide M s := by
  unfold State.setCounter
  simp only [eq_self, h_tel, onTel_hide]

theorem counterClear_hide (h_regs : M .regs = true) (h_tel : M .tel = true) (h_st : M .st = true) (h_out : M .out = true) (s : State) (p : Path) (val : Word64) : hide M (State.counterClear s p val) = hide M s := by
  unfold State.counterClear
  try dsimp only
  repeat' first
    | with_reducible rfl
    | (simp only [hide_ite, ite_self, ite_fst, implies_true, eq_self, h_regs, h_tel, h_st, h_out, cntCmd_hide, cntDone_hide, onTel_hide]; done)
    | with_reducible apply hide_if
    | with_reducible apply hide_if1
    | split
    | (rw [forEach_hide])
    | (rw [foldl_hide])
    | (rw [foldlS_hide])
    | (rw [cntCmd_hide])
    | assumption
    | (intro; intros; try dsimp only)
    | (simp only [hide_ite, ite_self, ite_fst, implies_true, eq_self, h_regs, h_tel, h_st, h_out, cntCmd_hide, cntDone_hide, onTel_hide])

theorem execCounterClear_hide (h_regs : M .regs = true) (h_tel : M .tel = true) (h_st : M .st = true) (h_out : M .out = true) (p : Path) (val : Word64) (s : State) (t : State) (e : execCounterClear p val s = .next t) : hide M t = hide M s := by
  simp only [execCounterClear, Host.Outcome.next.injEq] at e
  subst e
  repeat' first
    | with_reducible rfl
    | (simp only [hide_ite, ite_self, ite_fst, implies_true, eq_self, h_regs, h_tel, h_st, h_out, counterClear_hide]; done)
    | with_reducible apply hide_if
    | with_reducible apply hide_if1
    | split
    | (rw [forEach_hide])
    | (rw [foldl_hide])
    | (rw [foldlS_hide])
    | (intro; intros; try dsimp only)
    | (simp only [hide_ite, ite_self, ite_fst, implies_true, eq_self, h_regs, h_tel, h_st, h_out, counterClear_hide])

theorem counterSubtract_hide (h_regs : M .regs = true) (h_tel : M .tel = true) (h_st : M .st = true) (h_out : M .out = true) (s : State) (p : Path) (val : Word64) : hide M (State.counterSubtract s p val) = hide M s := by
  unfold State.counterSubtract
  try dsimp only
  repeat' first
    | with_reducible rfl
    | (simp only [hide_ite, ite_self, ite_fst, implies_true, eq_self, h_regs, h_tel, h_st, h_out, cntCmd_hide, cntDone_hide, setCounter_hide]; done)
    | with_reducible apply hide_if
    | with_reducible apply hide_if1
    | split
    | (rw [forEach_hide])
    | (rw [foldl_hide])
    | (rw [foldlS_hide])
    | (rw [cntCmd_hide])
    | assumption
    | (intro; intros; try dsimp only)
    | (simp only [hide_ite, ite_self, ite_fst, implies_true, eq_self, h_regs, h_tel, h_st, h_out, cntCmd_hide, cntDone_hide, setCounter_hide])

theorem execSubtract_hide (h_regs : M .regs = true) (h_tel : M .tel = true) (h_st : M .st = true) (h_out : M .out = true) (p : Path) (val : Word64) (s : State) (t : State) (e : execSubtract p val s = .next t) : hide M t = hide M s := by
  simp only [execSubtract, Host.Outcome.next.injEq] at e
  subst e
  repeat' first
    | with_reducible rfl
    | (simp only [hide_ite, ite_self, ite_fst, implies_true, eq_self, h_regs, h_tel, h_st, h_out, counterSubtract_hide]; done)
    | with_reducible apply hide_if
    | with_reducible apply hide_if1
    | split
    | (rw [forEach_hide])
    | (rw [foldl_hide])
    | (rw [foldlS_hide])
    | (intro; intros; try dsimp only)
    | (simp only [hide_ite, ite_self, ite_fst, implies_true, eq_self, h_regs, h_tel, h_st, h_out, counterSubtract_hide])

end Sys2Proof.Laws
end

