-- ==== Sys2Proof/Laws/FrameI3cBus.lean ====
section
/-!
SUPPORT. Frames of what Machine/I3cBus.lean defines: the parts of the state that each may change.
-/

namespace Sys2Proof.Laws

open Sys2Proof.Machine

variable {M : Mask}

theorem i3cSet_hide (h_tel : M .tel = true) (h_i3 : M .i3 = true) (s : State) (f : I3c → I3c) : hide M (State.i3cSet s f) = hide M s := by
  unfold State.i3cSet
  simp only [eq_self, h_tel, h_i3, onI3_hide, onTel_hide]

theorem i3cAll_hide (h_out : M .out = true) (s : State) (run : State → State) (h_run : ∀ (x0 : State), hide M (run x0) = hide M x0) : hide M (State.i3cAll s run) = hide M s := by
  unfold State.i3cAll
  try dsimp only
  repeat' first
    | with_reducible rfl
    | (simp only [hide_ite, ite_self, ite_fst, implies_true, eq_self, h_out, h_run, send_hide]; done)
    | with_reducible apply hide_if
    | with_reducible apply hide_if1
    | split
    | (rw [forEach_hide])
    | (rw [foldl_hide])
    | (rw [foldlS_hide])
    | (intro; intros; try dsimp only)
    | (simp only [hide_ite, ite_self, ite_fst, implies_true, eq_self, h_out, h_run, send_hide])

theorem i3cDirect_hide (h_out : M .out = true) (s : State) (run : State → State) (h_run : ∀ (x0 : State), hide M (run x0) = hide M x0) : hide M (State.i3cDirect s run) = hide M s := by
  unfold State.i3cDirect
  try dsimp only
  repeat' first
    | with_reducible rfl
    | (simp only [hide_ite, ite_self, ite_fst, implies_true, eq_self, h_out, h_run, send_hide]; done)
    | with_reducible apply hide_if
    | with_reducible apply hide_if1
    | split
    | (rw [forEach_hide])
    | (rw [foldl_hide])
    | (rw [foldlS_hide])
    | (intro; intros; try dsimp only)
    | (simp only [hide_ite, ite_self, ite_fst, implies_true, eq_self, h_out, h_run, send_hide])

theorem i3cCcc_hide (h_out : M .out = true) (s : State) (direct : Bool) (run : State → State) (h_run : ∀ (x0 : State), hide M (run x0) = hide M x0) : hide M (State.i3cCcc s direct run) = hide M s := by
  unfold State.i3cCcc
  try dsimp only
  repeat' first
    | with_reducible rfl
    | (simp only [hide_ite, ite_self, ite_fst, implies_true, eq_self, h_out, h_run, i3cAll_hide, i3cDirect_hide]; done)
    | with_reducible apply hide_if
    | with_reducible apply hide_if1
    | split
    | (rw [forEach_hide])
    | (rw [foldl_hide])
    | (rw [foldlS_hide])
    | (rw [i3cAll_hide])
    | (rw [i3cDirect_hide])
    | assumption
    | (intro; intros; try dsimp only)
    | (simp only [hide_ite, ite_self, ite_fst, implies_true, eq_self, h_out, h_run, i3cAll_hide, i3cDirect_hide])

theorem execEntdaa_hide (h_tel : M .tel = true) (h_i3 : M .i3 = true) (h_out : M .out = true) (addr : BitVec 7) (s : State) (t : State) (e : execEntdaa addr s = .next t) : hide M t = hide M s := by
  refine next_hide e ?_
  simp only [hide_ite, ite_self, implies_true, eq_self, h_tel, h_i3, h_out, i3cAll_hide, i3cSet_hide, send_hide]

theorem execSetdasa_hide (h_tel : M .tel = true) (h_i3 : M .i3 = true) (h_out : M .out = true) (addr : BitVec 7) (s : State) (t : State) (e : execSetdasa addr s = .next t) : hide M t = hide M s := by
  refine next_hide e ?_
  simp only [hide_ite, ite_self, implies_true, eq_self, h_tel, h_i3, h_out, i3cAll_hide, i3cSet_hide, send_hide]

theorem execRstdaa_hide (h_tel : M .tel = true) (h_i3 : M .i3 = true) (h_out : M .out = true) (s : State) (t : State) (e : execRstdaa s = .next t) : hide M t = hide M s := by
  simp only [execRstdaa, Host.Outcome.next.injEq] at e
  subst e
  repeat' first
    | with_reducible rfl
    | (simp only [hide_ite, ite_self, ite_fst, implies_true, eq_self, h_tel, h_i3, h_out, i3cAll_hide, i3cSet_hide]; done)
    | with_reducible apply hide_if
    | with_reducible apply hide_if1
    | split
    | (rw [forEach_hide])
    | (rw [foldl_hide])
    | (rw [foldlS_hide])
    | (rw [i3cAll_hide])
    | assumption
    | (intro; intros; try dsimp only)
    | (simp only [hide_ite, ite_self, ite_fst, implies_true, eq_self, h_tel, h_i3, h_out, i3cAll_hide, i3cSet_hide])

theorem execEnec_hide (h_tel : M .tel = true) (h_i3 : M .i3 = true) (h_out : M .out = true) (events : Ccc 8) (s : State) (t : State) (e : execEnec events s = .next t) : hide M t = hide M s := by
  simp only [execEnec, Host.Outcome.next.injEq] at e
  subst e
  repeat' first
    | with_reducible rfl
    | (simp only [hide_ite, ite_self, ite_fst, implies_true, eq_self, h_tel, h_i3, h_out, i3cCcc_hide, i3cSet_hide]; done)
    | with_reducible apply hide_if
    | with_reducible apply hide_if1
    | split
    | (rw [forEach_hide])
    | (rw [foldl_hide])
    | (rw [foldlS_hide])
    | (rw [i3cCcc_hide])
    | assumption
    | (intro; intros; try dsimp only)
    | (simp only [hide_ite, ite_self, ite_fst, implies_true, eq_self, h_tel, h_i3, h_out, i3cCcc_hide, i3cSet_hide])

theorem execDisec_hide (h_tel : M .tel = true) (h_i3 : M .i3 = true) (h_out : M .out = true) (events : Ccc 8) (s : State) (t : State) (e : execDisec events s = .next t) : hide M t = hide M s := by
  simp only [execDisec, Host.Outcome.next.injEq] at e
  subst e
  repeat' first
    | with_reducible rfl
    | (simp only [hide_ite, ite_self, ite_fst, implies_true, eq_self, h_tel, h_i3, h_out, i3cCcc_hide, i3cSet_hide]; done)
    | with_reducible apply hide_if
    | with_reducible apply hide_if1
    | split
    | (rw [forEach_hide])
    | (rw [foldl_hide])
    | (rw [foldlS_hide])
    | (rw [i3cCcc_hide])
    | assumption
    | (intro; intros; try dsimp only)
    | (simp only [hide_ite, ite_self, ite_fst, implies_true, eq_self, h_tel, h_i3, h_out, i3cCcc_hide, i3cSet_hide])

theorem execGetpid_hide (h_out : M .out = true) (s : State) (t : State) (e : execGetpid s = .next t) : hide M t = hide M s := by
  refine next_hide e ?_
  simp only [implies_true, eq_self, h_out, i3cDirect_hide, send_hide]

theorem execGetbcr_hide (h_out : M .out = true) (s : State) (t : State) (e : execGetbcr s = .next t) : hide M t = hide M s := by
  refine next_hide e ?_
  simp only [implies_true, eq_self, h_out, i3cDirect_hide, send_hide]

theorem execGetdcr_hide (h_out : M .out = true) (s : State) (t : State) (e : execGetdcr s = .next t) : hide M t = hide M s := by
  refine next_hide e ?_
  simp only [implies_true, eq_self, h_out, i3cDirect_hide, send_hide]

theorem execGetstatus_hide (h_free : M .free = true) (h_out : M .out = true) (s : State) (t : State) (e : execGetstatus s = .next t) : hide M t = hide M s := by
  refine next_hide e ?_
  simp only [set_free_hide, implies_true, eq_self, h_free, h_out, i3cDirect_hide, send_hide]

theorem execGetmwl_hide (h_out : M .out = true) (s : State) (t : State) (e : execGetmwl s = .next t) : hide M t = hide M s := by
  refine next_hide e ?_
  simp only [implies_true, eq_self, h_out, i3cDirect_hide, send_hide]

theorem execGetmrl_hide (h_out : M .out = true) (s : State) (t : State) (e : execGetmrl s = .next t) : hide M t = hide M s := by
  refine next_hide e ?_
  simp only [implies_true, eq_self, h_out, i3cDirect_hide, send_hide]

theorem execSetmwl_hide (h_tel : M .tel = true) (h_i3 : M .i3 = true) (h_out : M .out = true) (len : Ccc 16) (s : State) (t : State) (e : execSetmwl len s = .next t) : hide M t = hide M s := by
  simp only [execSetmwl, Host.Outcome.next.injEq] at e
  subst e
  repeat' first
    | with_reducible rfl
    | (simp only [hide_ite, ite_self, ite_fst, implies_true, eq_self, h_tel, h_i3, h_out, i3cCcc_hide, i3cSet_hide]; done)
    | with_reducible apply hide_if
    | with_reducible apply hide_if1
    | split
    | (rw [forEach_hide])
    | (rw [foldl_hide])
    | (rw [foldlS_hide])
    | (rw [i3cCcc_hide])
    | assumption
    | (intro; intros; try dsimp only)
    | (simp only [hide_ite, ite_self, ite_fst, implies_true, eq_self, h_tel, h_i3, h_out, i3cCcc_hide, i3cSet_hide])

theorem execSetmrl_hide (h_tel : M .tel = true) (h_i3 : M .i3 = true) (h_out : M .out = true) (len : Ccc 16) (s : State) (t : State) (e : execSetmrl len s = .next t) : hide M t = hide M s := by
  simp only [execSetmrl, Host.Outcome.next.injEq] at e
  subst e
  repeat' first
    | with_reducible rfl
    | (simp only [hide_ite, ite_self, ite_fst, implies_true, eq_self, h_tel, h_i3, h_out, i3cCcc_hide, i3cSet_hide]; done)
    | with_reducible apply hide_if
    | with_reducible apply hide_if1
    | split
    | (rw [forEach_hide])
    | (rw [foldl_hide])
    | (rw [foldlS_hide])
    | (rw [i3cCcc_hide])
    | assumption
    | (intro; intros; try dsimp only)
    | (simp only [hide_ite, ite_self, ite_fst, implies_true, eq_self, h_tel, h_i3, h_out, i3cCcc_hide, i3cSet_hide])

theorem execRstact_hide (h_tel : M .tel = true) (h_i3 : M .i3 = true) (h_out : M .out = true) (action : Ccc 8) (s : State) (t : State) (e : execRstact action s = .next t) : hide M t = hide M s := by
  simp only [execRstact, Host.Outcome.next.injEq] at e
  subst e
  repeat' first
    | with_reducible rfl
    | (simp only [hide_ite, ite_self, ite_fst, implies_true, eq_self, h_tel, h_i3, h_out, i3cCcc_hide, i3cSet_hide]; done)
    | with_reducible apply hide_if
    | with_reducible apply hide_if1
    | split
    | (rw [forEach_hide])
    | (rw [foldl_hide])
    | (rw [foldlS_hide])
    | (rw [i3cCcc_hide])
    | assumption
    | (intro; intros; try dsimp only)
    | (simp only [hide_ite, ite_self, ite_fst, implies_true, eq_self, h_tel, h_i3, h_out, i3cCcc_hide, i3cSet_hide])

theorem execI3cPrivateRead_hide (h_out : M .out = true) (s : State) (t : State) (e : execI3cPrivateRead s = .next t) : hide M t = hide M s := by
  simp only [execI3cPrivateRead, Host.Outcome.next.injEq] at e
  subst e
  repeat' first
    | with_reducible rfl
    | (simp only [hide_ite, ite_self, ite_fst, implies_true, eq_self, h_out, i3cAll_hide, send_hide]; done)
    | with_reducible apply hide_if
    | with_reducible apply hide_if1
    | split
    | (rw [forEach_hide])
    | (rw [foldl_hide])
    | (rw [foldlS_hide])
    | (rw [i3cAll_hide])
    | assumption
    | (intro; intros; try dsimp only)
    | (simp only [hide_ite, ite_self, ite_fst, implies_true, eq_self, h_out, i3cAll_hide, send_hide])

end Sys2Proof.Laws
end

