-- ==== Sys2Proof/Laws/FrameImages.lean ====
section
/-!
SUPPORT. Frames of what Machine/Images.lean defines: the parts of the state that each may change.
-/

namespace Sys2Proof.Laws

open Sys2Proof.Machine

variable {M : Mask}

theorem tblCmd_hide (h_regs : M .regs = true) (h_tel : M .tel = true) (h_st : M .st = true) (h_out : M .out = true) (s : State) (p : Path) (op : Nat) (run : State → Nat → State) (h_run : ∀ (x0 : State) (x1 : Nat), hide M (run x0 x1) = hide M x0) : hide M (State.tblCmd s p op run) = hide M s := by
  unfold State.tblCmd
  try dsimp only
  repeat' first
    | with_reducible rfl
    | (simp only [hide_ite, ite_self, ite_fst, implies_true, eq_self, h_regs, h_tel, h_st, h_out, h_run, command_hide, put_tblCmd_hide]; done)
    | with_reducible apply hide_if
    | with_reducible apply hide_if1
    | split
    | (rw [forEach_hide])
    | (rw [foldl_hide])
    | (rw [foldlS_hide])
    | (rw [command_hide])
    | assumption
    | (intro; intros; try dsimp only)
    | (simp only [hide_ite, ite_self, ite_fst, implies_true, eq_self, h_regs, h_tel, h_st, h_out, h_run, command_hide, put_tblCmd_hide])

theorem tblDone_hide (h_regs : M .regs = true) (h_tel : M .tel = true) (h_st : M .st = true) (h_out : M .out = true) (s : State) (p : Path) (result detail : Nat) : hide M (State.tblDone s p result detail) = hide M s := by
  unfold State.tblDone
  try dsimp only
  repeat' first
    | with_reducible rfl
    | (simp only [hide_ite, ite_self, ite_fst, implies_true, eq_self, h_regs, h_tel, h_st, h_out, cmdField_hide, finish_hide, tblCmd_hide, put_tblCmd_hide]; done)
    | with_reducible apply hide_if
    | with_reducible apply hide_if1
    | split
    | (rw [forEach_hide])
    | (rw [foldl_hide])
    | (rw [foldlS_hide])
    | (rw [cmdField_hide])
    | (rw [finish_hide])
    | (rw [tblCmd_hide])
    | assumption
    | (intro; intros; try dsimp only)
    | (simp only [hide_ite, ite_self, ite_fst, implies_true, eq_self, h_regs, h_tel, h_st, h_out, cmdField_hide, finish_hide, tblCmd_hide, put_tblCmd_hide])

theorem defineTable_hide (h_regs : M .regs = true) (h_tb : M .tb = true) (h_gs : M .gs = true) (h_tel : M .tel = true) (h_st : M .st = true) (h_out : M .out = true) (s : State) (p : Path) (h : Nat) (img : Feed) : hide M (State.defineTable s p h img) = hide M s := by
  unfold State.defineTable
  try dsimp only
  repeat' first
    | with_reducible rfl
    | (simp only [hide_ite, ite_self, ite_fst, implies_true, eq_self, h_regs, h_tb, h_gs, h_tel, h_st, h_out, setTable_hide, tblDone_hide, writeTable_hide, countN_hide]; done)
    | with_reducible apply hide_if
    | with_reducible apply hide_if1
    | split
    | (rw [forEach_hide])
    | (rw [foldl_hide])
    | (rw [foldlS_hide])
    | (intro; intros; try dsimp only)
    | (simp only [hide_ite, ite_self, ite_fst, implies_true, eq_self, h_regs, h_tb, h_gs, h_tel, h_st, h_out, setTable_hide, tblDone_hide, writeTable_hide, countN_hide])

theorem execDefine_hide (h_regs : M .regs = true) (h_tb : M .tb = true) (h_gs : M .gs = true) (h_tel : M .tel = true) (h_st : M .st = true) (h_out : M .out = true) (p : Path) (img : Feed) (s : State) (t : State) (e : execDefine p img s = .next t) : hide M t = hide M s := by
  simp only [execDefine, Host.Outcome.next.injEq] at e
  subst e
  repeat' first
    | with_reducible rfl
    | (simp only [hide_ite, ite_self, ite_fst, implies_true, eq_self, h_regs, h_tb, h_gs, h_tel, h_st, h_out, defineTable_hide, tblCmd_hide]; done)
    | with_reducible apply hide_if
    | with_reducible apply hide_if1
    | split
    | (rw [forEach_hide])
    | (rw [foldl_hide])
    | (rw [foldlS_hide])
    | (rw [tblCmd_hide])
    | assumption
    | (intro; intros; try dsimp only)
    | (simp only [hide_ite, ite_self, ite_fst, implies_true, eq_self, h_regs, h_tb, h_gs, h_tel, h_st, h_out, defineTable_hide, tblCmd_hide])

theorem scrapVersion_hide (h_tb : M .tb = true) (h_up : M .up = true) (h_ch : M .ch = true) (h_gs : M .gs = true) (h_tel : M .tel = true) (h_rl : M .rl = true) (s : State) (h : Nat) (v : Version) : hide M (State.scrapVersion s h v) = hide M s := by
  unfold State.scrapVersion
  try dsimp only
  repeat' first
    | with_reducible rfl
    | (simp only [hide_ite, ite_self, ite_fst, implies_true, eq_self, h_tb, h_up, h_ch, h_gs, h_tel, h_rl, forEach_hide, clean_hide, loseMaster_hide, retireEnd_hide, sweep_hide]; done)
    | with_reducible apply hide_if
    | with_reducible apply hide_if1
    | split
    | (rw [forEach_hide])
    | (rw [foldl_hide])
    | (rw [foldlS_hide])
    | (intro; intros; try dsimp only)
    | (simp only [hide_ite, ite_self, ite_fst, implies_true, eq_self, h_tb, h_up, h_ch, h_gs, h_tel, h_rl, forEach_hide, clean_hide, loseMaster_hide, retireEnd_hide, sweep_hide])

theorem deleteTable_hide (h_regs : M .regs = true) (h_tb : M .tb = true) (h_up : M .up = true) (h_ch : M .ch = true) (h_gs : M .gs = true) (h_tel : M .tel = true) (h_st : M .st = true) (h_rl : M .rl = true) (h_out : M .out = true) (s : State) (p : Path) (h : Nat) : hide M (State.deleteTable s p h) = hide M s := by
  unfold State.deleteTable
  try dsimp only
  repeat' first
    | with_reducible rfl
    | (simp only [hide_ite, ite_self, ite_fst, implies_true, eq_self, h_regs, h_tb, h_up, h_ch, h_gs, h_tel, h_st, h_rl, h_out, forEach_hide, noteScratch_hide, onTb_hide, scrapVersion_hide, tblDone_hide]; done)
    | with_reducible apply hide_if
    | with_reducible apply hide_if1
    | split
    | (rw [forEach_hide])
    | (rw [foldl_hide])
    | (rw [foldlS_hide])
    | (intro; intros; try dsimp only)
    | (simp only [hide_ite, ite_self, ite_fst, implies_true, eq_self, h_regs, h_tb, h_up, h_ch, h_gs, h_tel, h_st, h_rl, h_out, forEach_hide, noteScratch_hide, onTb_hide, scrapVersion_hide, tblDone_hide])

theorem execDelete_hide (h_regs : M .regs = true) (h_tb : M .tb = true) (h_up : M .up = true) (h_ch : M .ch = true) (h_gs : M .gs = true) (h_tel : M .tel = true) (h_st : M .st = true) (h_rl : M .rl = true) (h_out : M .out = true) (p : Path) (s : State) (t : State) (e : execDelete p s = .next t) : hide M t = hide M s := by
  simp only [execDelete, Host.Outcome.next.injEq] at e
  subst e
  repeat' first
    | with_reducible rfl
    | (simp only [hide_ite, ite_self, ite_fst, implies_true, eq_self, h_regs, h_tb, h_up, h_ch, h_gs, h_tel, h_st, h_rl, h_out, deleteTable_hide, tblCmd_hide]; done)
    | with_reducible apply hide_if
    | with_reducible apply hide_if1
    | split
    | (rw [forEach_hide])
    | (rw [foldl_hide])
    | (rw [foldlS_hide])
    | (rw [tblCmd_hide])
    | assumption
    | (intro; intros; try dsimp only)
    | (simp only [hide_ite, ite_self, ite_fst, implies_true, eq_self, h_regs, h_tb, h_up, h_ch, h_gs, h_tel, h_st, h_rl, h_out, deleteTable_hide, tblCmd_hide])

theorem bandsTable_hide (h_regs : M .regs = true) (h_tb : M .tb = true) (h_gs : M .gs = true) (h_tel : M .tel = true) (h_st : M .st = true) (h_out : M .out = true) (s : State) (p : Path) (h : Nat) (img : Feed) : hide M (State.bandsTable s p h img) = hide M s := by
  unfold State.bandsTable
  try dsimp only
  repeat' first
    | with_reducible rfl
    | (simp only [hide_ite, ite_self, ite_fst, implies_true, eq_self, h_regs, h_tb, h_gs, h_tel, h_st, h_out, setTable_hide, tblDone_hide, writeTable_hide, countN_hide]; done)
    | with_reducible apply hide_if
    | with_reducible apply hide_if1
    | split
    | (rw [forEach_hide])
    | (rw [foldl_hide])
    | (rw [foldlS_hide])
    | (intro; intros; try dsimp only)
    | (simp only [hide_ite, ite_self, ite_fst, implies_true, eq_self, h_regs, h_tb, h_gs, h_tel, h_st, h_out, setTable_hide, tblDone_hide, writeTable_hide, countN_hide])

theorem execBands_hide (h_regs : M .regs = true) (h_tb : M .tb = true) (h_gs : M .gs = true) (h_tel : M .tel = true) (h_st : M .st = true) (h_out : M .out = true) (p : Path) (img : Feed) (s : State) (t : State) (e : execBands p img s = .next t) : hide M t = hide M s := by
  simp only [execBands, Host.Outcome.next.injEq] at e
  subst e
  repeat' first
    | with_reducible rfl
    | (simp only [hide_ite, ite_self, ite_fst, implies_true, eq_self, h_regs, h_tb, h_gs, h_tel, h_st, h_out, bandsTable_hide, tblCmd_hide]; done)
    | with_reducible apply hide_if
    | with_reducible apply hide_if1
    | split
    | (rw [forEach_hide])
    | (rw [foldl_hide])
    | (rw [foldlS_hide])
    | (rw [tblCmd_hide])
    | assumption
    | (intro; intros; try dsimp only)
    | (simp only [hide_ite, ite_self, ite_fst, implies_true, eq_self, h_regs, h_tb, h_gs, h_tel, h_st, h_out, bandsTable_hide, tblCmd_hide])

theorem partWrite_hide (h_regs : M .regs = true) (h_lows : M .lows = true) (h_tel : M .tel = true) (h_st : M .st = true) (h_out : M .out = true) (s : State) (p : Path) (off size : Nat) (val : Word64) : hide M (State.partWrite s p off size val) = hide M s := by
  unfold State.partWrite
  try dsimp only
  repeat' first
    | with_reducible rfl
    | (simp only [hide_ite, ite_self, ite_fst, implies_true, eq_self, h_regs, h_lows, h_tel, h_st, h_out, count_hide, regWrite_hide, put_partCfg_hide]; done)
    | with_reducible apply hide_if
    | with_reducible apply hide_if1
    | split
    | (rw [forEach_hide])
    | (rw [foldl_hide])
    | (rw [foldlS_hide])
    | (rw [regWrite_hide])
    | assumption
    | (intro; intros; try dsimp only)
    | (simp only [hide_ite, ite_self, ite_fst, implies_true, eq_self, h_regs, h_lows, h_tel, h_st, h_out, count_hide, regWrite_hide, put_partCfg_hide])

theorem execPartCfgWrite_hide (h_regs : M .regs = true) (h_lows : M .lows = true) (h_tel : M .tel = true) (h_st : M .st = true) (h_out : M .out = true) (p : Path) (off size : Nat) (val : Word64) (s : State) (t : State) (e : execPartCfgWrite p off size val s = .next t) : hide M t = hide M s := by
  simp only [execPartCfgWrite, Host.Outcome.next.injEq] at e
  subst e
  repeat' first
    | with_reducible rfl
    | (simp only [hide_ite, ite_self, ite_fst, implies_true, eq_self, h_regs, h_lows, h_tel, h_st, h_out, partWrite_hide]; done)
    | with_reducible apply hide_if
    | with_reducible apply hide_if1
    | split
    | (rw [forEach_hide])
    | (rw [foldl_hide])
    | (rw [foldlS_hide])
    | (intro; intros; try dsimp only)
    | (simp only [hide_ite, ite_self, ite_fst, implies_true, eq_self, h_regs, h_lows, h_tel, h_st, h_out, partWrite_hide])

end Sys2Proof.Laws
end

