-- ==== Sys2Proof/Laws/FrameRegCmds.lean ====
section
/-!
SUPPORT. Frames of what Machine/RegCmds.lean defines: the parts of the state that each may change.
-/

namespace Sys2Proof.Laws

open Sys2Proof.Machine

variable {M : Mask}

theorem badOp_hide (h_regs : M .regs = true) (h_pregs : M .pregs = true) (h_ctxCfg : M .ctxCfg = true) (h_updCfg : M .updCfg = true) (h_fwdCfg : M .fwdCfg = true) (h_drvCfg : M .drvCfg = true) (h_tel : M .tel = true) (h_st : M .st = true) (s : State) (p : Path) (c : CmdForm) (new : Word64) : hide M (State.badOp s p c new) = hide M s := by
  unfold State.badOp
  simp only [hide_ite, ite_self, eq_self, h_regs, h_pregs, h_ctxCfg, h_updCfg, h_fwdCfg, h_drvCfg, h_tel, h_st, count_hide, regPut_hide]

theorem cmdWrite_hide (h_regs : M .regs = true) (h_pregs : M .pregs = true) (h_lows : M .lows = true) (h_ctxCfg : M .ctxCfg = true) (h_updCfg : M .updCfg = true) (h_fwdCfg : M .fwdCfg = true) (h_drvCfg : M .drvCfg = true) (h_tel : M .tel = true) (h_st : M .st = true) (h_out : M .out = true) (s : State) (p : Path) (off size : Nat) (val : Word64) (c : CmdForm) : hide M (State.cmdWrite s p off size val c) = hide M s := by
  have key : ∀ (o l : Nat) (f : State → Word64 → Word64 → State), (∀ x0 x1 x2, hide M x0 = hide M s → hide M (f x0 x1 x2) = hide M s) →
      hide M (State.regWrite s p off size val o l f) = hide M s := by
    intro o l f hf
    unfold State.regWrite
    split
    · rfl
    split
    · rfl
    · exact shutOut_hide h_out s
    · exact ignoreWrite_hide h_tel s
    · exact denyWrite_hide h_tel h_st s _ _ _
    split
    · exact ignoreWrite_hide h_tel s
    split
    · exact ignoreWrite_hide h_tel s
    split
    · exact auditReg_hide h_tel h_st s _ _ _ _
    apply hf
    split
    · refine (auditReg_hide h_tel h_st _ _ _ _ _).trans ?_
      split
      · rfl
      · exact set_lows_hide h_lows s _
    · split
      · rfl
      · exact set_lows_hide h_lows s _
  unfold State.cmdWrite
  apply key
  intro x0 x1 x2 e
  dsimp only
  split
  · exact (ignoreWrite_hide h_tel _).trans e
  split
  · exact (regPut_hide h_regs h_pregs h_ctxCfg h_updCfg h_fwdCfg h_drvCfg h_tel h_st _ _ _ _).trans e
  split
  · rfl
  · exact (badOp_hide h_regs h_pregs h_ctxCfg h_updCfg h_fwdCfg h_drvCfg h_tel h_st _ _ _ _).trans e

theorem sortArea_hide (h_regs : M .regs = true) (h_tel : M .tel = true) (s : State) (p : Path) (new : Word64) : hide M (State.sortArea s p new) = hide M s := by
  unfold State.sortArea
  simp only [hide_ite, ite_self, eq_self, h_regs, h_tel, count_hide, put_sortArea_hide]

theorem poolCtl_hide (h_regs : M .regs = true) (h_tel : M .tel = true) (s : State) (p : Path) (old new : Word64) : hide M (State.poolCtl s p old new) = hide M s := by
  unfold State.poolCtl
  try dsimp only
  repeat' first
    | with_reducible rfl
    | (simp only [hide_ite, ite_self, ite_fst, implies_true, eq_self, h_regs, h_tel, count_hide, sortArea_hide, put_poolCtl_hide]; done)
    | with_reducible apply hide_if
    | with_reducible apply hide_if1
    | split
    | (rw [forEach_hide])
    | (rw [foldl_hide])
    | (rw [foldlS_hide])
    | (intro; intros; try dsimp only)
    | (simp only [hide_ite, ite_self, ite_fst, implies_true, eq_self, h_regs, h_tel, count_hide, sortArea_hide, put_poolCtl_hide])

theorem shipAudits_hide (h_tel : M .tel = true) (h_st : M .st = true) (s : State) : hide M (State.shipAudits s) = hide M s := by
  unfold State.shipAudits
  simp only [hide_ite, ite_self, implies_true, eq_self, h_tel, h_st, forEach_hide, onSt_hide, tell_hide]

theorem regTake_hide (h_regs : M .regs = true) (h_pregs : M .pregs = true) (h_ctxCfg : M .ctxCfg = true) (h_updCfg : M .updCfg = true) (h_fwdCfg : M .fwdCfg = true) (h_drvCfg : M .drvCfg = true) (h_tel : M .tel = true) (h_st : M .st = true) (s : State) (p : Path) (reg : Nat) (old new : Word64) : hide M (State.regTake s p reg old new) = hide M s := by
  unfold State.regTake
  simp only [hide_ite, ite_self, eq_self, h_regs, h_pregs, h_ctxCfg, h_updCfg, h_fwdCfg, h_drvCfg, h_tel, h_st, poolCtl_hide, regPut_hide, shipAudits_hide, sortArea_hide]

theorem noReg_hide (h_tel : M .tel = true) (h_st : M .st = true) (h_out : M .out = true) (s : State) (p : Path) (off : Nat) (val : Word64) : hide M (State.noReg s p off val) = hide M s := by
  unfold State.noReg
  try dsimp only
  repeat' first
    | with_reducible rfl
    | (simp only [hide_ite, ite_self, ite_fst, implies_true, eq_self, h_tel, h_st, h_out, denyWrite_hide, ignoreWrite_hide, shutOut_hide]; done)
    | with_reducible apply hide_if
    | with_reducible apply hide_if1
    | split
    | (rw [forEach_hide])
    | (rw [foldl_hide])
    | (rw [foldlS_hide])
    | (intro; intros; try dsimp only)
    | (simp only [hide_ite, ite_self, ite_fst, implies_true, eq_self, h_tel, h_st, h_out, denyWrite_hide, ignoreWrite_hide, shutOut_hide])

theorem counterWrite_hide (h_tel : M .tel = true) (h_st : M .st = true) (h_out : M .out = true) (s : State) (p : Path) (off size : Nat) (val : Word64) : hide M (State.counterWrite s p off size val) = hide M s := by
  unfold State.counterWrite
  try dsimp only
  repeat' first
    | with_reducible rfl
    | (simp only [hide_ite, ite_self, ite_fst, implies_true, eq_self, h_tel, h_st, h_out, auditReg_hide, denyWrite_hide, ignoreWrite_hide, shutOut_hide]; done)
    | with_reducible apply hide_if
    | with_reducible apply hide_if1
    | split
    | (rw [forEach_hide])
    | (rw [foldl_hide])
    | (rw [foldlS_hide])
    | (intro; intros; try dsimp only)
    | (simp only [hide_ite, ite_self, ite_fst, implies_true, eq_self, h_tel, h_st, h_out, auditReg_hide, denyWrite_hide, ignoreWrite_hide, shutOut_hide])

theorem resetReg_hide (h_lows : M .lows = true) (h_tel : M .tel = true) (h_st : M .st = true) (h_out : M .out = true) (s : State) (p : Path) (off size : Nat) (val : Word64) : hide M (State.resetReg s p off size val) = hide M s := by
  unfold State.resetReg
  try dsimp only
  repeat' first
    | with_reducible rfl
    | (simp only [hide_ite, ite_self, ite_fst, implies_true, eq_self, h_lows, h_tel, h_st, h_out, auditReg_hide, regWrite_hide]; done)
    | with_reducible apply hide_if
    | with_reducible apply hide_if1
    | split
    | (rw [forEach_hide])
    | (rw [foldl_hide])
    | (rw [foldlS_hide])
    | (rw [regWrite_hide])
    | assumption
    | (intro; intros; try dsimp only)
    | (simp only [hide_ite, ite_self, ite_fst, implies_true, eq_self, h_lows, h_tel, h_st, h_out, auditReg_hide, regWrite_hide])

theorem registerWrite_hide (h_regs : M .regs = true) (h_pregs : M .pregs = true) (h_lows : M .lows = true) (h_ctxCfg : M .ctxCfg = true) (h_updCfg : M .updCfg = true) (h_fwdCfg : M .fwdCfg = true) (h_drvCfg : M .drvCfg = true) (h_fe : M .fe = true) (h_xl : M .xl = true) (h_qz : M .qz = true) (h_up : M .up = true) (h_tel : M .tel = true) (h_pw : M .pw = true) (h_st : M .st = true) (h_out : M .out = true) (s : State) (p : Path) (off size : Nat) (val : Word64) : hide M (State.registerWrite s p off size val) = hide M s := by
  unfold State.registerWrite
  try dsimp only
  repeat' first
    | with_reducible rfl
    | (simp only [hide_ite, ite_self, ite_fst, implies_true, eq_self, h_regs, h_pregs, h_lows, h_ctxCfg, h_updCfg, h_fwdCfg, h_drvCfg, h_fe, h_xl, h_qz, h_up, h_tel, h_pw, h_st, h_out, authWrite_hide, cmdWrite_hide, counterWrite_hide, ctxWrite_hide, eyeletWrite_hide, ignoreWrite_hide, noReg_hide, optSel_hide, partWrite_hide, regTake_hide, regWrite_hide, resetReg_hide, shutOut_hide]; done)
    | with_reducible apply hide_if
    | with_reducible apply hide_if1
    | split
    | (rw [forEach_hide])
    | (rw [foldl_hide])
    | (rw [foldlS_hide])
    | (rw [regWrite_hide])
    | assumption
    | (intro; intros; try dsimp only)
    | (simp only [hide_ite, ite_self, ite_fst, implies_true, eq_self, h_regs, h_pregs, h_lows, h_ctxCfg, h_updCfg, h_fwdCfg, h_drvCfg, h_fe, h_xl, h_qz, h_up, h_tel, h_pw, h_st, h_out, authWrite_hide, cmdWrite_hide, counterWrite_hide, ctxWrite_hide, eyeletWrite_hide, ignoreWrite_hide, noReg_hide, optSel_hide, partWrite_hide, regTake_hide, regWrite_hide, resetReg_hide, shutOut_hide])

theorem execRegisterWrite_hide (h_regs : M .regs = true) (h_pregs : M .pregs = true) (h_lows : M .lows = true) (h_ctxCfg : M .ctxCfg = true) (h_updCfg : M .updCfg = true) (h_fwdCfg : M .fwdCfg = true) (h_drvCfg : M .drvCfg = true) (h_fe : M .fe = true) (h_xl : M .xl = true) (h_qz : M .qz = true) (h_up : M .up = true) (h_tel : M .tel = true) (h_pw : M .pw = true) (h_st : M .st = true) (h_out : M .out = true) (p : Path) (off size : Nat) (val : Word64) (s : State) (t : State) (e : execRegisterWrite p off size val s = .next t) : hide M t = hide M s := by
  simp only [execRegisterWrite, Host.Outcome.next.injEq] at e
  subst e
  repeat' first
    | with_reducible rfl
    | (simp only [hide_ite, ite_self, ite_fst, implies_true, eq_self, h_regs, h_pregs, h_lows, h_ctxCfg, h_updCfg, h_fwdCfg, h_drvCfg, h_fe, h_xl, h_qz, h_up, h_tel, h_pw, h_st, h_out, registerWrite_hide]; done)
    | with_reducible apply hide_if
    | with_reducible apply hide_if1
    | split
    | (rw [forEach_hide])
    | (rw [foldl_hide])
    | (rw [foldlS_hide])
    | (intro; intros; try dsimp only)
    | (simp only [hide_ite, ite_self, ite_fst, implies_true, eq_self, h_regs, h_pregs, h_lows, h_ctxCfg, h_updCfg, h_fwdCfg, h_drvCfg, h_fe, h_xl, h_qz, h_up, h_tel, h_pw, h_st, h_out, registerWrite_hide])

end Sys2Proof.Laws
end

