-- ==== Sys2Proof/Laws/FrameRescale.lean ====
section
/-!
SUPPORT. Frames of what Machine/Rescale.lean defines: the parts of the state that each may change.
-/

namespace Sys2Proof.Laws

open Sys2Proof.Machine

variable {M : Mask}

theorem rscCmd_hide (h_regs : M .regs = true) (h_tel : M .tel = true) (h_st : M .st = true) (h_out : M .out = true) (s : State) (p : Path) (op : Nat) (run : State → State) (h_run : ∀ (x0 : State), hide M (run x0) = hide M x0) : hide M (State.rscCmd s p op run) = hide M s := by
  unfold State.rscCmd
  try dsimp only
  repeat' first
    | with_reducible rfl
    | (simp only [hide_ite, ite_self, ite_fst, implies_true, eq_self, h_regs, h_tel, h_st, h_out, h_run, command_hide, put_rscCmd_hide]; done)
    | with_reducible apply hide_if
    | with_reducible apply hide_if1
    | split
    | (rw [forEach_hide])
    | (rw [foldl_hide])
    | (rw [foldlS_hide])
    | (rw [command_hide])
    | assumption
    | (intro; intros; try dsimp only)
    | (simp only [hide_ite, ite_self, ite_fst, implies_true, eq_self, h_regs, h_tel, h_st, h_out, h_run, command_hide, put_rscCmd_hide])

theorem loadFails_hide (h_regs : M .regs = true) (h_qz : M .qz = true) (h_tel : M .tel = true) (h_st : M .st = true) (h_out : M .out = true) (s : State) (p : Path) (result index : Nat) : hide M (State.loadFails s p result index) = hide M s := by
  unfold State.loadFails
  try dsimp only
  repeat' first
    | with_reducible rfl
    | (simp only [hide_ite, ite_self, ite_fst, implies_true, eq_self, h_regs, h_qz, h_tel, h_st, h_out, cmdField_hide, finish_hide, onQz_hide, rscCmd_hide, put_rscCmd_hide]; done)
    | with_reducible apply hide_if
    | with_reducible apply hide_if1
    | split
    | (rw [forEach_hide])
    | (rw [foldl_hide])
    | (rw [foldlS_hide])
    | (rw [cmdField_hide])
    | (rw [finish_hide])
    | (rw [rscCmd_hide])
    | assumption
    | (intro; intros; try dsimp only)
    | (simp only [hide_ite, ite_self, ite_fst, implies_true, eq_self, h_regs, h_qz, h_tel, h_st, h_out, cmdField_hide, finish_hide, onQz_hide, rscCmd_hide, put_rscCmd_hide])

theorem rscLoad_hide (h_regs : M .regs = true) (h_qz : M .qz = true) (h_tel : M .tel = true) (h_st : M .st = true) (h_out : M .out = true) (s : State) (p : Path) (img : Feed) : hide M (State.rscLoad s p img) = hide M s := by
  unfold State.rscLoad
  try dsimp only
  repeat' first
    | with_reducible rfl
    | (simp only [hide_ite, ite_self, ite_fst, implies_true, eq_self, h_regs, h_qz, h_tel, h_st, h_out, endLoad_hide, loadFails_hide, onQz_hide, countN_hide]; done)
    | with_reducible apply hide_if
    | with_reducible apply hide_if1
    | split
    | (rw [forEach_hide])
    | (rw [foldl_hide])
    | (rw [foldlS_hide])
    | (intro; intros; try dsimp only)
    | (simp only [hide_ite, ite_self, ite_fst, implies_true, eq_self, h_regs, h_qz, h_tel, h_st, h_out, endLoad_hide, loadFails_hide, onQz_hide, countN_hide])

theorem execLoad_hide (h_regs : M .regs = true) (h_qz : M .qz = true) (h_tel : M .tel = true) (h_st : M .st = true) (h_out : M .out = true) (p : Path) (img : Feed) (s : State) (t : State) (e : execLoad p img s = .next t) : hide M t = hide M s := by
  simp only [execLoad, Host.Outcome.next.injEq] at e
  subst e
  repeat' first
    | with_reducible rfl
    | (simp only [hide_ite, ite_self, ite_fst, implies_true, eq_self, h_regs, h_qz, h_tel, h_st, h_out, rscCmd_hide, rscLoad_hide]; done)
    | with_reducible apply hide_if
    | with_reducible apply hide_if1
    | split
    | (rw [forEach_hide])
    | (rw [foldl_hide])
    | (rw [foldlS_hide])
    | (rw [rscCmd_hide])
    | assumption
    | (intro; intros; try dsimp only)
    | (simp only [hide_ite, ite_self, ite_fst, implies_true, eq_self, h_regs, h_qz, h_tel, h_st, h_out, rscCmd_hide, rscLoad_hide])

theorem rscSwap_hide (h_regs : M .regs = true) (h_qz : M .qz = true) (h_tel : M .tel = true) (h_st : M .st = true) (h_out : M .out = true) (s : State) (p : Path) : hide M (State.rscSwap s p) = hide M s := by
  unfold State.rscSwap
  try dsimp only
  repeat' first
    | with_reducible rfl
    | (simp only [hide_ite, ite_self, ite_fst, implies_true, eq_self, h_regs, h_qz, h_tel, h_st, h_out, count_hide, finish_hide, onQz_hide, rscCmd_hide, put_rscCmd_hide]; done)
    | with_reducible apply hide_if
    | with_reducible apply hide_if1
    | split
    | (rw [forEach_hide])
    | (rw [foldl_hide])
    | (rw [foldlS_hide])
    | (rw [finish_hide])
    | (rw [rscCmd_hide])
    | assumption
    | (intro; intros; try dsimp only)
    | (simp only [hide_ite, ite_self, ite_fst, implies_true, eq_self, h_regs, h_qz, h_tel, h_st, h_out, count_hide, finish_hide, onQz_hide, rscCmd_hide, put_rscCmd_hide])

theorem execSwap_hide (h_regs : M .regs = true) (h_qz : M .qz = true) (h_tel : M .tel = true) (h_st : M .st = true) (h_out : M .out = true) (p : Path) (s : State) (t : State) (e : execSwap p s = .next t) : hide M t = hide M s := by
  simp only [execSwap, Host.Outcome.next.injEq] at e
  subst e
  repeat' first
    | with_reducible rfl
    | (simp only [hide_ite, ite_self, ite_fst, implies_true, eq_self, h_regs, h_qz, h_tel, h_st, h_out, rscCmd_hide, rscSwap_hide]; done)
    | with_reducible apply hide_if
    | with_reducible apply hide_if1
    | split
    | (rw [forEach_hide])
    | (rw [foldl_hide])
    | (rw [foldlS_hide])
    | (rw [rscCmd_hide])
    | assumption
    | (intro; intros; try dsimp only)
    | (simp only [hide_ite, ite_self, ite_fst, implies_true, eq_self, h_regs, h_qz, h_tel, h_st, h_out, rscCmd_hide, rscSwap_hide])

end Sys2Proof.Laws
end

