-- ==== Sys2Proof/Laws/FrameViews.lean ====
section
/-!
SUPPORT. Frames of what Machine/Views.lean defines: the parts of the state that each may change.
-/

namespace Sys2Proof.Laws

open Sys2Proof.Machine

variable {M : Mask}

theorem answer_hide (h_out : M .out = true) (s : State) (off : Nat) (v : BitVec 32) : hide M (State.answer s off v) = hide M s := by
  unfold State.answer
  simp only [eq_self, h_out, send_hide]

theorem readHalf_hide (h_tel : M .tel = true) (h_out : M .out = true) (s : State) (p : Path) (off : Nat) : hide M (State.readHalf s p off) = hide M s := by
  unfold State.readHalf
  try dsimp only
  repeat' first
    | with_reducible rfl
    | (simp only [hide_ite, ite_self, ite_fst, implies_true, eq_self, h_tel, h_out, answer_hide, onTel_hide, shutOut_hide]; done)
    | with_reducible apply hide_if
    | with_reducible apply hide_if1
    | split
    | (rw [forEach_hide])
    | (rw [foldl_hide])
    | (rw [foldlS_hide])
    | (intro; intros; try dsimp only)
    | (simp only [hide_ite, ite_self, ite_fst, implies_true, eq_self, h_tel, h_out, answer_hide, onTel_hide, shutOut_hide])

theorem execCounterLowRead_hide (h_tel : M .tel = true) (h_out : M .out = true) (p : Path) (off : Nat) (s : State) (t : State) (e : execCounterLowRead p off s = .next t) : hide M t = hide M s := by
  refine next_hide e ?_
  simp only [eq_self, h_tel, h_out, readHalf_hide]

end Sys2Proof.Laws
end

