-- ==== Sys2Proof/Laws/Trace.lean ====
section
/-!
SUPPORT. What the block has sent out is never taken back: `Grew u` of a state with every part but its output blanked, so that the
frame lemmas of a function that sends nothing carry it over.
-/

namespace Sys2Proof.Laws

open Sys2Proof.Machine

/-- Every part but the output. -/
def butOut : Mask := fun z => z != .out

/-- The output of s begins, at its old end, with the output of u. -/
def Grew (u s : State) : Prop := u.out <:+ s.out

theorem grew_iff (u s : State) : Grew u (hide butOut s) ↔ u.out <:+ s.out := Iff.rfl

variable {u : State}

theorem send_grew (s : State) (o : Output) (hs : Grew u (hide butOut s)) : Grew u (hide butOut (s.send o)) := by
  rw [grew_iff] at hs ⊢
  exact hs.trans (List.suffix_cons o s.out)

theorem sendAll_grew (s : State) (os : List Output) (hs : Grew u (hide butOut s)) : Grew u (hide butOut (s.sendAll os)) := by
  rw [grew_iff] at hs ⊢
  exact hs.trans (List.suffix_append os.reverse s.out)

theorem forEach_grew {α : Type} (f : State → α → State)
    (h : ∀ s a, Grew u (hide butOut s) → Grew u (hide butOut (f s a))) (l : List α)
    (s : State) (hs : Grew u (hide butOut s)) : Grew u (hide butOut (State.forEach f l s)) := by
  induction l generalizing s with
  | nil => exact hs
  | cons a t ih => exact ih _ (h s a hs)

theorem foldl_grew {α β : Type} (f : State × β → α → State × β)
    (h : ∀ q a, Grew u (hide butOut q.1) → Grew u (hide butOut (f q a).1)) (l : List α) (q : State × β)
    (hq : Grew u (hide butOut q.1)) : Grew u (hide butOut (l.foldl f q).1) := by
  induction l generalizing q with
  | nil => exact hq
  | cons a t ih => exact ih _ (h q a hq)

theorem next_grew {F R : Type} {a t : State} (e : (Host.Outcome.next a : Host.Outcome State F R) = .next t)
    (h : Grew u (hide butOut a)) : Grew u (hide butOut t) := by
  cases e
  exact h

end Sys2Proof.Laws
end

