-- ==== Sys2Proof/Laws/TraceNvme.lean ====
section
/-!
SUPPORT. What Machine/Nvme.lean defines only adds to what the block has sent out.
-/

namespace Sys2Proof.Laws

open Sys2Proof.Machine

variable {u : State}

theorem sendCmd_grew (s : State) (c : NvCmd) (hs : Grew u (hide butOut s)) : Grew u (hide butOut (State.sendCmd s c)) := by
  unfold State.sendCmd
  try dsimp only
  repeat' first
    | with_reducible assumption
    | split
    | (with_reducible apply send_grew)
    | with_reducible apply forEach_grew
    | with_reducible apply foldl_grew
    | (intro; intros; try dsimp only)
    | (simp only [onDrive_hide (M := butOut) rfl, implies_true, eq_self])

theorem submit_grew (s : State) (c : NvCmd) (hs : Grew u (hide butOut s)) : Grew u (hide butOut (State.submit s c)) := by
  unfold State.submit
  try dsimp only
  repeat' first
    | with_reducible assumption
    | split
    | (with_reducible apply send_grew)
    | (with_reducible apply sendCmd_grew)
    | with_reducible apply forEach_grew
    | with_reducible apply foldl_grew
    | (intro; intros; try dsimp only)
    | (simp only [stageWrite_hide (M := butOut) rfl rfl, implies_true, eq_self])

theorem sendAbort_grew (s : State) (c : NvCmd) (hs : Grew u (hide butOut s)) : Grew u (hide butOut (State.sendAbort s c)) := by
  unfold State.sendAbort
  try dsimp only
  repeat' first
    | with_reducible assumption
    | split
    | (with_reducible apply send_grew)
    | with_reducible apply forEach_grew
    | with_reducible apply foldl_grew
    | (intro; intros; try dsimp only)
    | (simp only [implies_true, eq_self])

theorem wholeCmd_grew (s : State) (c : NvCmd) (r : Tried) (hs : Grew u (hide butOut s)) : Grew u (hide butOut (State.wholeCmd s c r)) := by
  unfold State.wholeCmd
  try dsimp only
  repeat' first
    | with_reducible assumption
    | split
    | (with_reducible apply sendAbort_grew)
    | (with_reducible apply submit_grew)
    | with_reducible apply forEach_grew
    | with_reducible apply foldl_grew
    | (intro; intros; try dsimp only)
    | (simp only [count_hide (M := butOut) rfl, countN_hide (M := butOut) rfl, onDrive_hide (M := butOut) rfl, tell_hide (M := butOut) rfl, onFl_hide (M := butOut) rfl, forEach_hide, implies_true, eq_self])

end Sys2Proof.Laws
end

