-- ==== Sys2Proof/Laws/TracePlace.lean ====
section
/-!
SUPPORT. What Machine/Place.lean defines only adds to what the block has sent out.
-/

namespace Sys2Proof.Laws

open Sys2Proof.Machine

variable {u : State}

theorem fetchBacking_grew (s : State) (t : Table) (v : Version) (k : Key) (r : Tried) (hs : Grew u (hide butOut s)) : Grew u (hide butOut (State.fetchBacking s t v k r)) := by
  unfold State.fetchBacking
  try dsimp only
  repeat' first
    | with_reducible assumption
    | split
    | (with_reducible apply send_grew)
    | (with_reducible apply wholeCmd_grew)
    | with_reducible apply forEach_grew
    | with_reducible apply foldl_grew
    | (intro; intros; try dsimp only)
    | (simp only [implies_true, eq_self])

theorem readBacking_grew (s : State) (t : Table) (v : Version) (k : Key) (src : RowSrc) (asked : Bool) (hs : Grew u (hide butOut s)) : Grew u (hide butOut (State.readBacking s t v k src asked).1) := by
  unfold State.readBacking
  try dsimp only
  repeat' first
    | with_reducible assumption
    | split
    | (with_reducible apply fetchBacking_grew)
    | with_reducible apply forEach_grew
    | with_reducible apply foldl_grew
    | (intro; intros; try dsimp only)
    | (simp only [count_hide (M := butOut) rfl, countN_hide (M := butOut) rfl, implies_true, eq_self])

theorem readBlock_grew (s : State) (t : Table) (v : Version) (lba : Nat) (rows : List (Nat × Option Bytes)) (hs : Grew u (hide butOut s)) : Grew u (hide butOut (State.readBlock s t v lba rows)) := by
  unfold State.readBlock
  try dsimp only
  repeat' first
    | with_reducible assumption
    | split
    | (with_reducible apply wholeCmd_grew)
    | with_reducible apply forEach_grew
    | with_reducible apply foldl_grew
    | (intro; intros; try dsimp only)
    | (simp only [implies_true, eq_self])

theorem writeBlock_grew (s : State) (t : Table) (v : Version) (k : Key) (r : Tried) (hs : Grew u (hide butOut s)) : Grew u (hide butOut (State.writeBlock s t v k r)) := by
  unfold State.writeBlock
  try dsimp only
  repeat' first
    | with_reducible assumption
    | split
    | (with_reducible apply readBlock_grew)
    | (with_reducible apply wholeCmd_grew)
    | with_reducible apply forEach_grew
    | with_reducible apply foldl_grew
    | (intro; intros; try dsimp only)
    | (simp only [noteMaster_hide (M := butOut) rfl rfl rfl, forEach_hide, implies_true, eq_self])

theorem writeBackRow_grew (s : State) (t : Table) (v : Version) (k : Key) (res : Tried) (hs : Grew u (hide butOut s)) : Grew u (hide butOut (State.writeBackRow s t v k res).1) := by
  unfold State.writeBackRow
  try dsimp only
  repeat' first
    | with_reducible assumption
    | split
    | (with_reducible apply send_grew)
    | (with_reducible apply writeBlock_grew)
    | with_reducible apply forEach_grew
    | with_reducible apply foldl_grew
    | (intro; intros; try dsimp only)
    | (simp only [clean_hide (M := butOut) rfl rfl rfl rfl rfl, count_hide (M := butOut) rfl, dropDirect_hide (M := butOut) rfl rfl rfl rfl rfl, failWrite_hide (M := butOut) rfl rfl, noteMaster_hide (M := butOut) rfl rfl rfl, forEach_hide, implies_true, eq_self])

theorem evictWay_grew (s : State) (w : Way) (fails : WbFails) (ghost : Bool) (hs : Grew u (hide butOut s)) : Grew u (hide butOut (State.evictWay s w fails ghost).1) := by
  unfold State.evictWay
  try dsimp only
  repeat' first
    | with_reducible assumption
    | split
    | (with_reducible apply writeBackRow_grew)
    | with_reducible apply forEach_grew
    | with_reducible apply foldl_grew
    | (intro; intros; try dsimp only)
    | (simp only [count_hide (M := butOut) rfl, dropRow_hide (M := butOut) rfl rfl rfl rfl rfl, dropWay_hide (M := butOut) rfl, markHead_hide (M := butOut) rfl rfl rfl, putWay_hide (M := butOut) rfl, tell_hide (M := butOut) rfl, implies_true, eq_self])

theorem emptyArea_grew (s : State) (l : List Way) (fails : WbFails) (hs : Grew u (hide butOut s)) : Grew u (hide butOut (State.emptyArea s l fails).1) := by
  revert hs
  fun_induction State.emptyArea s l fails
  all_goals
    intro hs
    repeat' first
      | with_reducible assumption
      | split
      | (with_reducible apply evictWay_grew)
      | (with_reducible apply_assumption)
      | with_reducible apply forEach_grew
      | with_reducible apply foldl_grew
      | (intro; intros; try dsimp only)
      | (simp +zetaDelta only [implies_true, eq_self])

theorem reclaimFrom_grew (s : State) (ch n : Nat) (pop : Option Nat) (k : Key) (ver : Nat) (fails : WbFails) (y0 : Nat) (y1 : Nat) (hs : Grew u (hide butOut s)) : Grew u (hide butOut (State.reclaimFrom s ch n pop k ver fails y0 y1).1) := by
  revert hs
  fun_induction State.reclaimFrom s ch n pop k ver fails y0 y1
  all_goals
    intro hs
    repeat' first
      | with_reducible assumption
      | split
      | (with_reducible apply emptyArea_grew)
      | (with_reducible apply_assumption)
      | with_reducible apply forEach_grew
      | with_reducible apply foldl_grew
      | (intro; intros; try dsimp only)
      | (simp +zetaDelta only [countN_hide (M := butOut) rfl, onCh_hide (M := butOut) rfl, implies_true, eq_self])

theorem takeSlot_grew (s : State) (ch size : Nat) (reclaim : Bool) (pop : Option Nat) (k : Key) (ver : Nat) (fails : WbFails) (hs : Grew u (hide butOut s)) : Grew u (hide butOut (State.takeSlot s ch size reclaim pop k ver fails).1) := by
  unfold State.takeSlot
  try dsimp only
  repeat' first
    | with_reducible assumption
    | split
    | (with_reducible apply reclaimFrom_grew)
    | with_reducible apply forEach_grew
    | with_reducible apply foldl_grew
    | (intro; intros; try dsimp only)
    | (simp only [implies_true, eq_self])

theorem takeWay_grew (s : State) (ch set : Nat) (k : Key) (ver : Nat) (e : Entry') (fails : WbFails) (y0 : Nat) (hs : Grew u (hide butOut s)) : Grew u (hide butOut (State.takeWay s ch set k ver e fails y0).1) := by
  revert hs
  fun_induction State.takeWay s ch set k ver e fails y0
  all_goals
    intro hs
    repeat' first
      | with_reducible assumption
      | split
      | (with_reducible apply evictWay_grew)
      | (with_reducible apply_assumption)
      | with_reducible apply forEach_grew
      | with_reducible apply foldl_grew
      | (intro; intros; try dsimp only)
      | (simp +zetaDelta only [implies_true, eq_self])

theorem placeCopy_grew (s : State) (ch : Nat) (k : Key) (ver : Nat) (kind : WayKind) (g : Grade) (b : Bytes) (freq repl : Nat) (e : Entry') (fails : WbFails) (hs : Grew u (hide butOut s)) : Grew u (hide butOut (State.placeCopy s ch k ver kind g b freq repl e fails).1) := by
  unfold State.placeCopy
  try dsimp only
  repeat' first
    | with_reducible assumption
    | split
    | (with_reducible apply takeSlot_grew)
    | (with_reducible apply takeWay_grew)
    | with_reducible apply forEach_grew
    | with_reducible apply foldl_grew
    | (intro; intros; try dsimp only)
    | (simp only [markHead_hide (M := butOut) rfl rfl rfl, putWay_hide (M := butOut) rfl, touchHead_hide (M := butOut) rfl rfl rfl, writeSlot_hide (M := butOut) rfl rfl rfl, implies_true, eq_self])

theorem bringIn_grew (s : State) (t : Table) (k : Key) (ver : Nat) (record : Bytes) (e : Entry') (fails : WbFails) (hs : Grew u (hide butOut s)) : Grew u (hide butOut (State.bringIn s t k ver record e fails).1) := by
  unfold State.bringIn
  try dsimp only
  repeat' first
    | with_reducible assumption
    | split
    | (with_reducible apply placeCopy_grew)
    | with_reducible apply forEach_grew
    | with_reducible apply foldl_grew
    | (intro; intros; try dsimp only)
    | (simp only [dropWays_hide (M := butOut) rfl rfl rfl, encCopy_hide (M := butOut) rfl, setBand_hide (M := butOut) rfl, implies_true, eq_self])

theorem admitLookup_grew (s : State) (t : Table) (k : Key) (ver : Nat) (record : Bytes) (fails : WbFails) (hs : Grew u (hide butOut s)) : Grew u (hide butOut (State.admitLookup s t k ver record fails)) := by
  unfold State.admitLookup
  try dsimp only
  repeat' first
    | with_reducible assumption
    | split
    | (with_reducible apply bringIn_grew)
    | with_reducible apply forEach_grew
    | with_reducible apply foldl_grew
    | (intro; intros; try dsimp only)
    | (simp only [count_hide (M := butOut) rfl, implies_true, eq_self])

theorem admitForced_grew (s : State) (t : Table) (k : Key) (ver : Nat) (record : Bytes) (fails : WbFails) (hs : Grew u (hide butOut s)) : Grew u (hide butOut (State.admitForced s t k ver record fails)) := by
  unfold State.admitForced
  try dsimp only
  repeat' first
    | with_reducible assumption
    | split
    | (with_reducible apply bringIn_grew)
    | with_reducible apply forEach_grew
    | with_reducible apply foldl_grew
    | (intro; intros; try dsimp only)
    | (simp only [count_hide (M := butOut) rfl, implies_true, eq_self])

end Sys2Proof.Laws
end

