-- ==== Sys2Proof/Laws/TracePoison.lean ====
section
/-!
SUPPORT. What Machine/Poison.lean defines only adds to what the block has sent out.
-/

namespace Sys2Proof.Laws

open Sys2Proof.Machine

variable {u : State}

theorem readRow_grew (s : State) (t : Table) (v : Version) (k : Key) (src : RowSrc) (asked : Bool) (hs : Grew u (hide butOut s)) : Grew u (hide butOut (State.readRow s t v k src asked).1) := by
  unfold State.readRow
  try dsimp only
  repeat' first
    | with_reducible assumption
    | split
    | (with_reducible apply readBacking_grew)
    | with_reducible apply forEach_grew
    | with_reducible apply foldl_grew
    | (intro; intros; try dsimp only)
    | (simp only [poisonRow_hide (M := butOut) rfl rfl rfl, implies_true, eq_self])

end Sys2Proof.Laws
end

