-- ==== Sys2Proof/Laws/TraceFront.lean ====
section
/-!
SUPPORT. What Machine/Front.lean defines only adds to what the block has sent out.
-/

namespace Sys2Proof.Laws

open Sys2Proof.Machine

variable {u : State}

theorem noteLeave_grew (s : State) (p : Nat) (y0 : Output) (hs : Grew u (hide butOut s)) : Grew u (hide butOut (State.noteLeave s p y0)) := by
  unfold State.noteLeave
  try dsimp only
  repeat' first
    | with_reducible assumption
    | split
    | (with_reducible apply send_grew)
    | with_reducible apply forEach_grew
    | with_reducible apply foldl_grew
    | (intro; intros; try dsimp only)
    | (simp only [onFe_hide (M := butOut) rfl, onUp_hide (M := butOut) rfl, implies_true, eq_self])

theorem fabLeave_grew (s : State) (p : Nat) (o : Output) (hs : Grew u (hide butOut s)) : Grew u (hide butOut (State.fabLeave s p o)) := by
  unfold State.fabLeave
  try dsimp only
  repeat' first
    | with_reducible assumption
    | split
    | (with_reducible apply noteLeave_grew)
    | (with_reducible apply send_grew)
    | with_reducible apply forEach_grew
    | with_reducible apply foldl_grew
    | (intro; intros; try dsimp only)
    | (simp only [onPw_hide (M := butOut) rfl, implies_true, eq_self])

theorem fabSend_grew (s : State) (o : Output) (hs : Grew u (hide butOut s)) : Grew u (hide butOut (State.fabSend s o)) := by
  unfold State.fabSend
  try dsimp only
  repeat' first
    | with_reducible assumption
    | split
    | (with_reducible apply fabLeave_grew)
    | with_reducible apply forEach_grew
    | with_reducible apply foldl_grew
    | (intro; intros; try dsimp only)
    | (simp only [onPw_hide (M := butOut) rfl, implies_true, eq_self])

theorem fabSendAll_grew (s : State) (l : List Output) (hs : Grew u (hide butOut s)) : Grew u (hide butOut (State.fabSendAll s l)) := by
  unfold State.fabSendAll
  try dsimp only
  repeat' first
    | with_reducible assumption
    | split
    | (with_reducible apply fabSend_grew)
    | with_reducible apply forEach_grew
    | with_reducible apply foldl_grew
    | (intro; intros; try dsimp only)
    | (simp only [forEach_hide, implies_true, eq_self])

theorem fabPump_grew (y0 : Nat) (y1 : State) (hs : Grew u (hide butOut y1)) : Grew u (hide butOut (State.fabPump y0 y1)) := by
  revert hs
  fun_induction State.fabPump y0 y1
  all_goals
    intro hs
    repeat' first
      | with_reducible assumption
      | split
      | (with_reducible apply fabLeave_grew)
      | (with_reducible apply_assumption)
      | with_reducible apply forEach_grew
      | with_reducible apply foldl_grew
      | (intro; intros; try dsimp only)
      | (simp +zetaDelta only [onPw_hide (M := butOut) rfl, implies_true, eq_self])

theorem rspSend_grew (s : State) (p : Nat) (o : Output) (hs : Grew u (hide butOut s)) : Grew u (hide butOut (State.rspSend s p o)) := by
  unfold State.rspSend
  try dsimp only
  repeat' first
    | with_reducible assumption
    | split
    | (with_reducible apply send_grew)
    | with_reducible apply forEach_grew
    | with_reducible apply foldl_grew
    | (intro; intros; try dsimp only)
    | (simp only [onPw_hide (M := butOut) rfl, implies_true, eq_self])

theorem rspPump_grew (s : State) (hs : Grew u (hide butOut s)) : Grew u (hide butOut (State.rspPump s)) := by
  unfold State.rspPump
  try dsimp only
  repeat' first
    | with_reducible assumption
    | split
    | (with_reducible apply rspSend_grew)
    | with_reducible apply forEach_grew
    | with_reducible apply foldl_grew
    | (intro; intros; try dsimp only)
    | (simp only [onPw_hide (M := butOut) rfl, forEach_hide, implies_true, eq_self])

theorem fabRest_grew (s : State) (p : Nat) (hs : Grew u (hide butOut s)) : Grew u (hide butOut (State.fabRest s p)) := by
  unfold State.fabRest
  try dsimp only
  repeat' first
    | with_reducible assumption
    | split
    | (with_reducible apply send_grew)
    | with_reducible apply forEach_grew
    | with_reducible apply foldl_grew
    | (intro; intros; try dsimp only)
    | (simp only [onPw_hide (M := butOut) rfl, implies_true, eq_self])

theorem fabSettle_grew (s : State) (hs : Grew u (hide butOut s)) : Grew u (hide butOut (State.fabSettle s)) := by
  unfold State.fabSettle
  try dsimp only
  repeat' first
    | with_reducible assumption
    | split
    | (with_reducible apply fabRest_grew)
    | with_reducible apply forEach_grew
    | with_reducible apply foldl_grew
    | (intro; intros; try dsimp only)
    | (simp only [forEach_hide, implies_true, eq_self])

theorem readLine_grew (s : State) (line : Nat) (l : EyeLine) (hs : Grew u (hide butOut s)) : Grew u (hide butOut (State.readLine s line l)) := by
  unfold State.readLine
  try dsimp only
  repeat' first
    | with_reducible assumption
    | split
    | (with_reducible apply send_grew)
    | with_reducible apply forEach_grew
    | with_reducible apply foldl_grew
    | (intro; intros; try dsimp only)
    | (simp only [implies_true, eq_self])

theorem takeLine_grew (s : State) (line p : Nat) (ws : List Word64) (hs : Grew u (hide butOut s)) : Grew u (hide butOut (State.takeLine s line p ws)) := by
  unfold State.takeLine
  try dsimp only
  repeat' first
    | with_reducible assumption
    | split
    | (with_reducible apply readLine_grew)
    | with_reducible apply forEach_grew
    | with_reducible apply foldl_grew
    | (intro; intros; try dsimp only)
    | (simp only [onFe_hide (M := butOut) rfl, implies_true, eq_self])

theorem fitLine_grew (s : State) (line : Nat) (hs : Grew u (hide butOut s)) : Grew u (hide butOut (State.fitLine s line)) := by
  unfold State.fitLine
  try dsimp only
  repeat' first
    | with_reducible assumption
    | split
    | (with_reducible apply send_grew)
    | (with_reducible apply takeLine_grew)
    | with_reducible apply forEach_grew
    | with_reducible apply foldl_grew
    | (intro; intros; try dsimp only)
    | (simp only [onFe_hide (M := butOut) rfl, implies_true, eq_self])

theorem fitRing_grew (s : State) (k : Nat) (hs : Grew u (hide butOut s)) : Grew u (hide butOut (State.fitRing s k)) := by
  unfold State.fitRing
  try dsimp only
  repeat' first
    | with_reducible assumption
    | split
    | (with_reducible apply fitLine_grew)
    | with_reducible apply forEach_grew
    | with_reducible apply foldl_grew
    | (intro; intros; try dsimp only)

theorem ringSend_grew (s : State) (near : Bool) (o : Output) (hs : Grew u (hide butOut s)) : Grew u (hide butOut (State.ringSend s near o)) := by
  unfold State.ringSend
  try dsimp only
  repeat' first
    | with_reducible assumption
    | split
    | (with_reducible apply fabSend_grew)
    | (with_reducible apply send_grew)
    | with_reducible apply forEach_grew
    | with_reducible apply foldl_grew
    | (intro; intros; try dsimp only)
    | (simp only [implies_true, eq_self])

theorem putSlot_grew (s : State) (c : Nat) (ord : Bool) (b : Bool → Bytes) (hs : Grew u (hide butOut s)) : Grew u (hide butOut (State.putSlot s c ord b)) := by
  unfold State.putSlot
  try dsimp only
  repeat' first
    | with_reducible assumption
    | split
    | (with_reducible apply ringSend_grew)
    | with_reducible apply forEach_grew
    | with_reducible apply foldl_grew
    | (intro; intros; try dsimp only)
    | (simp only [setRing_hide (M := butOut) rfl, implies_true, eq_self])

theorem irq_grew (s : State) (c : Nat) (hs : Grew u (hide butOut s)) : Grew u (hide butOut (State.irq s c)) := by
  unfold State.irq
  try dsimp only
  repeat' first
    | with_reducible assumption
    | split
    | (with_reducible apply send_grew)
    | with_reducible apply forEach_grew
    | with_reducible apply foldl_grew
    | (intro; intros; try dsimp only)
    | (simp only [setRing_hide (M := butOut) rfl, implies_true, eq_self])

theorem signal_grew (s : State) (c : Nat) (now : Bool) (hs : Grew u (hide butOut s)) : Grew u (hide butOut (State.signal s c now)) := by
  unfold State.signal
  try dsimp only
  repeat' first
    | with_reducible assumption
    | split
    | (with_reducible apply irq_grew)
    | with_reducible apply forEach_grew
    | with_reducible apply foldl_grew
    | (intro; intros; try dsimp only)
    | (simp only [setRing_hide (M := butOut) rfl])

theorem putPads_grew (s : State) (c : Nat) (ord : Bool) (y0 : Nat) (hs : Grew u (hide butOut s)) : Grew u (hide butOut (State.putPads s c ord y0)) := by
  revert hs
  fun_induction State.putPads s c ord y0
  all_goals
    intro hs
    repeat' first
      | with_reducible assumption
      | split
      | (with_reducible apply putSlot_grew)
      | (with_reducible apply_assumption)
      | with_reducible apply forEach_grew
      | with_reducible apply foldl_grew
      | (intro; intros; try dsimp only)
      | (simp +zetaDelta only [implies_true, eq_self])

theorem putInline_grew (s : State) (c : Nat) (ord : Bool) (payload : Bytes) (b : Bool → Bytes) (hs : Grew u (hide butOut s)) : Grew u (hide butOut (State.putInline s c ord payload b)) := by
  unfold State.putInline
  try dsimp only
  repeat' first
    | with_reducible assumption
    | split
    | (with_reducible apply putPads_grew)
    | (with_reducible apply ringSend_grew)
    | with_reducible apply forEach_grew
    | with_reducible apply foldl_grew
    | (intro; intros; try dsimp only)
    | (simp only [setRing_hide (M := butOut) rfl, implies_true, eq_self])

theorem writeOverrun_grew (s : State) (k : Nat) (hs : Grew u (hide butOut s)) : Grew u (hide butOut (State.writeOverrun s k)) := by
  unfold State.writeOverrun
  try dsimp only
  repeat' first
    | with_reducible assumption
    | split
    | (with_reducible apply putSlot_grew)
    | (with_reducible apply signal_grew)
    | with_reducible apply forEach_grew
    | with_reducible apply foldl_grew
    | (intro; intros; try dsimp only)
    | (simp only [implies_true, eq_self])

theorem raiseOverrun_grew (s : State) (k : Nat) (hs : Grew u (hide butOut s)) : Grew u (hide butOut (State.raiseOverrun s k)) := by
  unfold State.raiseOverrun
  try dsimp only
  repeat' first
    | with_reducible assumption
    | split
    | (with_reducible apply writeOverrun_grew)
    | with_reducible apply forEach_grew
    | with_reducible apply foldl_grew
    | (intro; intros; try dsimp only)
    | (simp only [setRing_hide (M := butOut) rfl, onFe_hide (M := butOut) rfl, implies_true, eq_self])

theorem newIndex_grew (s : State) (k : Nat) (v : BitVec 32) (hs : Grew u (hide butOut s)) : Grew u (hide butOut (State.newIndex s k v)) := by
  unfold State.newIndex
  try dsimp only
  repeat' first
    | with_reducible assumption
    | split
    | (with_reducible apply raiseOverrun_grew)
    | with_reducible apply forEach_grew
    | with_reducible apply foldl_grew
    | (intro; intros; try dsimp only)
    | (simp only [announce_hide (M := butOut) rfl, count_hide (M := butOut) rfl, setRing_hide (M := butOut) rfl, implies_true, eq_self])

theorem adoptWord_grew (s : State) (k : Nat) (hs : Grew u (hide butOut s)) : Grew u (hide butOut (State.adoptWord s k)) := by
  unfold State.adoptWord
  try dsimp only
  repeat' first
    | with_reducible assumption
    | split
    | (with_reducible apply newIndex_grew)
    | with_reducible apply forEach_grew
    | with_reducible apply foldl_grew
    | (intro; intros; try dsimp only)
    | (simp only [onFe_hide (M := butOut) rfl, implies_true, eq_self])

theorem writeCons_grew (s : State) (k : Nat) (hs : Grew u (hide butOut s)) : Grew u (hide butOut (State.writeCons s k)) := by
  unfold State.writeCons
  try dsimp only
  repeat' first
    | with_reducible assumption
    | split
    | (with_reducible apply ringSend_grew)
    | with_reducible apply forEach_grew
    | with_reducible apply foldl_grew
    | (intro; intros; try dsimp only)
    | (simp only [setRing_hide (M := butOut) rfl, implies_true, eq_self])

theorem consume_grew (s : State) (k n : Nat) (hs : Grew u (hide butOut s)) : Grew u (hide butOut (State.consume s k n)) := by
  unfold State.consume
  try dsimp only
  repeat' first
    | with_reducible assumption
    | split
    | (with_reducible apply writeCons_grew)
    | with_reducible apply forEach_grew
    | with_reducible apply foldl_grew
    | (intro; intros; try dsimp only)
    | (simp only [setRing_hide (M := butOut) rfl, implies_true, eq_self])

end Sys2Proof.Laws
end

