-- ==== Sys2Proof/Laws/TracePrick.lean ====
section
/-!
SUPPORT. What Machine/Prick.lean defines only adds to what the block has sent out.
-/

namespace Sys2Proof.Laws

open Sys2Proof.Machine

variable {u : State}

theorem sendAts_grew (s : State) (id pasid : Nat) (miss : List PageRef) (hs : Grew u (hide butOut s)) : Grew u (hide butOut (State.sendAts s id pasid miss)) := by
  unfold State.sendAts
  try dsimp only
  repeat' first
    | with_reducible assumption
    | split
    | (with_reducible apply sendAll_grew)
    | with_reducible apply forEach_grew
    | with_reducible apply foldl_grew
    | (intro; intros; try dsimp only)
    | (simp only [countN_hide (M := butOut) rfl])

theorem runAhead_grew (s : State) (d : Desc) (r : Range) (hs : Grew u (hide butOut s)) : Grew u (hide butOut (State.runAhead s d r)) := by
  unfold State.runAhead
  try dsimp only
  repeat' first
    | with_reducible assumption
    | split
    | (with_reducible apply send_grew)
    | with_reducible apply forEach_grew
    | with_reducible apply foldl_grew
    | (intro; intros; try dsimp only)
    | (simp only [count_hide (M := butOut) rfl, onFe_hide (M := butOut) rfl, onXl_hide (M := butOut) rfl, implies_true, eq_self])

theorem readMirror_grew (s : State) (c port : Nat) (hs : Grew u (hide butOut s)) : Grew u (hide butOut (State.readMirror s c port)) := by
  unfold State.readMirror
  try dsimp only
  repeat' first
    | with_reducible assumption
    | split
    | (with_reducible apply send_grew)
    | with_reducible apply forEach_grew
    | with_reducible apply foldl_grew
    | (intro; intros; try dsimp only)
    | (simp only [implies_true, eq_self])

theorem askMirror_grew (s : State) (c port : Nat) (hs : Grew u (hide butOut s)) : Grew u (hide butOut (State.askMirror s c port)) := by
  unfold State.askMirror
  try dsimp only
  repeat' first
    | with_reducible assumption
    | split
    | (with_reducible apply readMirror_grew)
    | with_reducible apply forEach_grew
    | with_reducible apply foldl_grew
    | (intro; intros; try dsimp only)
    | (simp only [onXl_hide (M := butOut) rfl, implies_true, eq_self])

theorem prickSeg_grew (s : State) (d : Desc) (i : Nat) (r : Range) (hs : Grew u (hide butOut s)) : Grew u (hide butOut (prickedAt (State.prickSeg s d i r))) := by
  unfold State.prickSeg
  try dsimp only
  repeat' first
    | with_reducible assumption
    | split
    | (with_reducible apply askMirror_grew)
    | dsimp only [prickedAt]
    | with_reducible apply forEach_grew
    | with_reducible apply foldl_grew
    | (intro; intros; try dsimp only)
    | (simp only [count_hide (M := butOut) rfl, countN_hide (M := butOut) rfl, onXl_hide (M := butOut) rfl, implies_true, eq_self])

theorem prickLack_grew (s : State) (d : Desc) (i : Nat) (r : Range) (hs : Grew u (hide butOut s)) : Grew u (hide butOut (prickedAt (State.prickLack s d i r))) := by
  unfold State.prickLack
  try dsimp only
  repeat' first
    | with_reducible assumption
    | split
    | (with_reducible apply send_grew)
    | dsimp only [prickedAt]
    | with_reducible apply forEach_grew
    | with_reducible apply foldl_grew
    | (intro; intros; try dsimp only)
    | (simp only [countN_hide (M := butOut) rfl, onXl_hide (M := butOut) rfl, implies_true, eq_self])

theorem askPages_grew (s : State) (d : Desc) (i : Nat) (r : Range) (miss : List PageRef) (hs : Grew u (hide butOut s)) : Grew u (hide butOut (prickedAt (State.askPages s d i r miss))) := by
  unfold State.askPages
  try dsimp only
  repeat' first
    | with_reducible assumption
    | split
    | (with_reducible apply sendAts_grew)
    | dsimp only [prickedAt]
    | with_reducible apply forEach_grew
    | with_reducible apply foldl_grew
    | (intro; intros; try dsimp only)
    | (simp only [countN_hide (M := butOut) rfl, implies_true, eq_self])

theorem prickXlate_grew (s : State) (d : Desc) (i : Nat) (r : Range) (hs : Grew u (hide butOut s)) : Grew u (hide butOut (prickedAt (State.prickXlate s d i r))) := by
  unfold State.prickXlate
  try dsimp only
  repeat' first
    | with_reducible assumption
    | split
    | (with_reducible apply askPages_grew)
    | (with_reducible apply prickLack_grew)
    | dsimp only [prickedAt]
    | with_reducible apply forEach_grew
    | with_reducible apply foldl_grew
    | (intro; intros; try dsimp only)
    | (simp only [countN_hide (M := butOut) rfl, onXl_hide (M := butOut) rfl, implies_true, eq_self])

theorem prickRange_grew (s : State) (d : Desc) (i : Nat) (r : Range) (hs : Grew u (hide butOut s)) : Grew u (hide butOut (prickedAt (State.prickRange s d i r))) := by
  have h1 := prickSeg_grew (u := u) s d i r hs
  unfold State.prickRange
  split
  · rename_i e
    rw [e] at h1
    exact h1
  · rename_i s1 r1 e
    rw [e] at h1
    exact prickXlate_grew s1 d i r1 h1

theorem prickFrom_grew (s : State) (d : Desc) (y0 : Nat) (y1 : Nat) (hs : Grew u (hide butOut s)) : Grew u (hide butOut (State.prickFrom s d y0 y1)) := by
  have key : ∀ (s s1 : State) (d : Desc) (i : Nat) (r r1 : Range), s.prickRange d i r = Pricked.done s1 r1 →
      Grew u (hide butOut s) → Grew u (hide butOut s1) := by
    intro s s1 d i r r1 e hs
    have h1 := prickRange_grew (u := u) s d i r hs
    rw [e] at h1
    exact h1
  have dn : ∀ (s : State) (d : Desc), Grew u (hide butOut s) → Grew u (hide butOut (s.setDesc d)) := by
    intro s d hs
    rw [setDesc_hide (M := butOut) rfl]
    exact hs
  have ps : ∀ (s : State) (d : Desc), Grew u (hide butOut s) → Grew u (hide butOut (s.pass d)) := by
    intro s d hs
    rw [pass_hide (M := butOut) rfl]
    exact hs
  have st : ∀ (s : State) (d : Desc), Grew u (hide butOut s) → Grew u (hide butOut (s.stopFault d)) := by
    intro s d hs
    rw [stopFault_hide (M := butOut) rfl]
    exact hs
  induction y0 generalizing s d y1 with
  | zero => exact ps s d hs
  | succ fuel ih =>
    rw [State.prickFrom]
    split
    · exact ps s d hs
    split
    · split
      · exact st s d hs
      · exact ih _ _ _ hs
    split
    · rename_i e
      rw [park_hide (M := butOut) rfl rfl]
      have h1 : Grew u (hide butOut (prickedAt (s.prickRange d y1 (by assumption)))) := prickRange_grew (u := u) s d y1 _ hs
      rw [e] at h1
      exact h1
    · rename_i e
      have h1 := key _ _ _ _ _ _ e hs
      dsimp only
      split
      · rw [endDesc_hide (M := butOut) rfl]
        exact dn _ _ h1
      split
      · refine st _ _ ?_
        split
        · exact h1
        · first
          | exact abandon_grew _ _ h1
          | (rw [abandon_hide (M := butOut) rfl rfl rfl]; exact h1)
      · refine ih _ _ _ ?_
        split
        · exact runAhead_grew _ _ _ h1
        · exact h1

theorem bulkSeg_grew (s : State) (d : Desc) (i : Nat) (hs : Grew u (hide butOut s)) : Grew u (hide butOut (State.bulkSeg s d i).1) := by
  unfold State.bulkSeg
  split
  · exact hs
  · rename_i r _
    have h1 := prickSeg_grew (u := u) s d i r hs
    split
    · rename_i e
      rw [e] at h1
      exact h1
    · rename_i e
      rw [e] at h1
      exact h1

theorem prickAll_grew (s : State) (d : Desc) (hs : Grew u (hide butOut s)) : Grew u (hide butOut (State.prickAll s d)) := by
  have two : ∀ (s : State) (d : Desc), Grew u (hide butOut s) →
      Grew u (hide butOut (if (s.bulkSeg d 0).2.2 then s.bulkSeg d 0 else (s.bulkSeg d 0).1.bulkSeg (s.bulkSeg d 0).2.1 1).1) := by
    intro s d hs
    split
    · exact bulkSeg_grew _ _ _ hs
    · exact bulkSeg_grew _ _ _ (bulkSeg_grew _ _ _ hs)
  unfold State.prickAll
  split
  · extract_lets a b
    have h : Grew u (hide butOut b.1) := two s d hs
    clear_value b
    split
    · rw [endDesc_hide (M := butOut) rfl, setDesc_hide (M := butOut) rfl]
      exact h
    split
    · rw [park_hide (M := butOut) rfl rfl]
      exact h
    · exact prickFrom_grew _ _ _ _ h
  · exact prickFrom_grew _ _ _ _ hs

theorem prick_grew (s : State) (id : Nat) (hs : Grew u (hide butOut s)) : Grew u (hide butOut (State.prick s id)) := by
  unfold State.prick
  try dsimp only
  repeat' first
    | with_reducible assumption
    | split
    | (with_reducible apply prickAll_grew)
    | with_reducible apply forEach_grew
    | with_reducible apply foldl_grew
    | (intro; intros; try dsimp only)
    | (simp only [implies_true, eq_self])

theorem retryParked_grew (s : State) (hs : Grew u (hide butOut s)) : Grew u (hide butOut (State.retryParked s)) := by
  unfold State.retryParked
  try dsimp only
  repeat' first
    | with_reducible assumption
    | split
    | (with_reducible apply prick_grew)
    | with_reducible apply forEach_grew
    | with_reducible apply foldl_grew
    | (intro; intros; try dsimp only)
    | (simp only [forEach_hide, implies_true, eq_self])

theorem passBytes_grew (s : State) (id : Nat) (upTo : Desc → Range → Option Nat) (hs : Grew u (hide butOut s)) : Grew u (hide butOut (State.passBytes s id upTo)) := by
  unfold State.passBytes
  try dsimp only
  repeat' first
    | with_reducible assumption
    | split
    | (with_reducible apply prick_grew)
    | (with_reducible apply retryParked_grew)
    | (with_reducible apply sendAll_grew)
    | with_reducible apply forEach_grew
    | with_reducible apply foldl_grew
    | (intro; intros; try dsimp only)
    | (simp only [setDesc_hide (M := butOut) rfl, onXl_hide (M := butOut) rfl, implies_true, eq_self])

theorem readAnew_grew (s : State) (id : Nat) (hs : Grew u (hide butOut s)) : Grew u (hide butOut (State.readAnew s id)) := by
  unfold State.readAnew
  try dsimp only
  repeat' first
    | with_reducible assumption
    | split
    | (with_reducible apply prick_grew)
    | with_reducible apply forEach_grew
    | with_reducible apply foldl_grew
    | (intro; intros; try dsimp only)
    | (simp only [onDesc_hide (M := butOut) rfl, implies_true, eq_self])

theorem readOn_grew (s : State) (id : Nat) (hs : Grew u (hide butOut s)) : Grew u (hide butOut (State.readOn s id)) := by
  unfold State.readOn
  try dsimp only
  repeat' first
    | with_reducible assumption
    | split
    | (with_reducible apply passBytes_grew)
    | with_reducible apply forEach_grew
    | with_reducible apply foldl_grew
    | (intro; intros; try dsimp only)
    | (simp only [implies_true, eq_self])

theorem inputsDone_grew (s : State) (id : Nat) (hs : Grew u (hide butOut s)) : Grew u (hide butOut (State.inputsDone s id)) := by
  unfold State.inputsDone
  try dsimp only
  repeat' first
    | with_reducible assumption
    | split
    | (with_reducible apply fabSendAll_grew)
    | (with_reducible apply passBytes_grew)
    | with_reducible apply forEach_grew
    | with_reducible apply foldl_grew
    | (intro; intros; try dsimp only)
    | (simp only [implies_true, eq_self])

end Sys2Proof.Laws
end

