-- ==== Sys2Proof/Laws/TraceTableOps.lean ====
section
/-!
SUPPORT. What Machine/TableOps.lean defines only adds to what the block has sent out.
-/

namespace Sys2Proof.Laws

open Sys2Proof.Machine

variable {u : State}

theorem tableOp_grew (s : State) (id opc mode : Nat) (run : State → Desc → Table → Version → State) (h_run : ∀ (x0 : State) (x1 : Desc) (x2 : Table) (x3 : Version), Grew u (hide butOut x0) → Grew u (hide butOut (run x0 x1 x2 x3))) (hs : Grew u (hide butOut s)) : Grew u (hide butOut (State.tableOp s id opc mode run)) := by
  unfold State.tableOp
  try dsimp only
  repeat' first
    | with_reducible assumption
    | split
    | (with_reducible apply h_run)
    | with_reducible apply forEach_grew
    | with_reducible apply foldl_grew
    | (intro; intros; try dsimp only)
    | (simp only [endDesc_hide (M := butOut) rfl])

theorem loadOpen_grew (s : State) (d : Desc) (t : Table) (hs : Grew u (hide butOut s)) : Grew u (hide butOut (State.loadOpen s d t)) := by
  unfold State.loadOpen
  try dsimp only
  repeat' first
    | with_reducible assumption
    | split
    | (with_reducible apply askMirror_grew)
    | with_reducible apply forEach_grew
    | with_reducible apply foldl_grew
    | (intro; intros; try dsimp only)
    | (simp only [addVersion_hide (M := butOut) rfl, endDesc_hide (M := butOut) rfl, setDesc_hide (M := butOut) rfl, tblEnd_hide (M := butOut) rfl, tblFail_hide (M := butOut) rfl, implies_true, eq_self])

theorem execTableLoadOpen_grew (id : Nat) (s : State) (t : State) (e : execTableLoadOpen id s = .next t) (hs : Grew u (hide butOut s)) : Grew u (hide butOut t) := by
  refine next_grew e ?_
  repeat' first
    | with_reducible assumption
    | split
    | (with_reducible apply loadOpen_grew)
    | with_reducible apply forEach_grew
    | with_reducible apply foldl_grew
    | (intro; intros; try dsimp only)
    | (simp only [endDesc_hide (M := butOut) rfl])

theorem fillBlock_grew (s : State) (d : Desc) (t : Table) (v : Version) (first n : Nat) (src : Bytes) (lead : Nat) (hs : Grew u (hide butOut s)) : Grew u (hide butOut (State.fillBlock s d t v first n src lead)) := by
  unfold State.fillBlock
  try dsimp only
  repeat' first
    | with_reducible assumption
    | split
    | (with_reducible apply readBlock_grew)
    | with_reducible apply forEach_grew
    | with_reducible apply foldl_grew
    | (intro; intros; try dsimp only)
    | (simp only [queueCmd_hide (M := butOut) rfl, implies_true, eq_self])

theorem loadFill_grew (s : State) (d : Desc) (t : Table) (v : Version) (src : Feed) (hs : Grew u (hide butOut s)) : Grew u (hide butOut (State.loadFill s d t v src)) := by
  unfold State.loadFill
  try dsimp only
  repeat' first
    | with_reducible assumption
    | split
    | (with_reducible apply fillBlock_grew)
    | (with_reducible apply inputsDone_grew)
    | with_reducible apply forEach_grew
    | with_reducible apply foldl_grew
    | (intro; intros; try dsimp only)
    | (simp only [count_hide (M := butOut) rfl, countN_hide (M := butOut) rfl, endDesc_hide (M := butOut) rfl, fillRow_hide (M := butOut) rfl rfl rfl rfl rfl rfl rfl, fillWait_hide (M := butOut) rfl, tblEnd_hide (M := butOut) rfl, tblFail_hide (M := butOut) rfl, forEach_hide, implies_true, eq_self])

theorem execTableLoadFill_grew (id : Nat) (src : Feed) (s : State) (t : State) (e : execTableLoadFill id src s = .next t) (hs : Grew u (hide butOut s)) : Grew u (hide butOut t) := by
  refine next_grew e ?_
  repeat' first
    | with_reducible assumption
    | split
    | (with_reducible apply loadFill_grew)
    | (with_reducible apply readOn_grew)
    | (with_reducible apply tableOp_grew)
    | with_reducible apply forEach_grew
    | with_reducible apply foldl_grew
    | (intro; intros; try dsimp only)
    | (simp only [implies_true, eq_self])

theorem pinBacking_grew (s : State) (t : Table) (v : Version) (e : Extent) (rows : List RowFetch) (y0 : List Nat) (hs : Grew u (hide butOut s)) : Grew u (hide butOut (State.pinBacking s t v e rows y0).1) := by
  have key : ∀ s : State, Grew u (hide butOut s) → ∀ (k : Key) (x : RowSrc), Grew u (hide butOut (s.readRow t v k x).1) :=
    fun s hs k x => readRow_grew s t v k x _ hs
  have put : ∀ s : State, Grew u (hide butOut s) → ∀ (r : Nat) (b : Bytes), Grew u (hide butOut (s.placeRow t e r b)) := by
    intro s hs r b
    rw [placeRow_hide (M := butOut) rfl rfl rfl rfl rfl rfl]
    exact hs
  induction y0 generalizing s with
  | nil => exact hs
  | cons r l ih =>
    rw [State.pinBacking]
    split
    · exact ih _ (put _ hs _ _)
    dsimp only
    split
    · exact ih _ (put _ (key s hs _ _) _ _)
    · exact ih _ (key s hs _ _)

theorem pinFromBacking_grew (s : State) (d : Desc) (t : Table) (v : Version) (rows : List RowFetch) (hs : Grew u (hide butOut s)) : Grew u (hide butOut (State.pinFromBacking s d t v rows)) := by
  unfold State.pinFromBacking
  try dsimp only
  repeat' first
    | with_reducible assumption
    | split
    | (with_reducible apply pinBacking_grew)
    | with_reducible apply forEach_grew
    | with_reducible apply foldl_grew
    | (intro; intros; try dsimp only)
    | (simp only [addExtent_hide (M := butOut) rfl, count_hide (M := butOut) rfl, tblEnd_hide (M := butOut) rfl, tblFail_hide (M := butOut) rfl, implies_true, eq_self])

theorem execTablePinFromBacking_grew (id : Nat) (rows : List RowFetch) (s : State) (t : State) (e : execTablePinFromBacking id rows s = .next t) (hs : Grew u (hide butOut s)) : Grew u (hide butOut t) := by
  refine next_grew e ?_
  repeat' first
    | with_reducible assumption
    | split
    | (with_reducible apply pinFromBacking_grew)
    | (with_reducible apply tableOp_grew)
    | with_reducible apply forEach_grew
    | with_reducible apply foldl_grew
    | (intro; intros; try dsimp only)
    | (simp only [implies_true, eq_self])

theorem pinFromSrc_grew (s : State) (d : Desc) (t : Table) (v : Version) (src : Feed) (hs : Grew u (hide butOut s)) : Grew u (hide butOut (State.pinFromSrc s d t v src)) := by
  unfold State.pinFromSrc
  try dsimp only
  repeat' first
    | with_reducible assumption
    | split
    | (with_reducible apply inputsDone_grew)
    | with_reducible apply forEach_grew
    | with_reducible apply foldl_grew
    | (intro; intros; try dsimp only)
    | (simp only [countN_hide (M := butOut) rfl, addExtent_hide (M := butOut) rfl, count_hide (M := butOut) rfl, placeRow_hide (M := butOut) rfl rfl rfl rfl rfl rfl, tblEnd_hide (M := butOut) rfl, tblFail_hide (M := butOut) rfl, unpoison_hide (M := butOut) rfl, forEach_hide, implies_true, eq_self])

theorem execTablePinFromSrc_grew (id : Nat) (src : Feed) (s : State) (t : State) (e : execTablePinFromSrc id src s = .next t) (hs : Grew u (hide butOut s)) : Grew u (hide butOut t) := by
  refine next_grew e ?_
  repeat' first
    | with_reducible assumption
    | split
    | (with_reducible apply pinFromSrc_grew)
    | (with_reducible apply readOn_grew)
    | (with_reducible apply tableOp_grew)
    | with_reducible apply forEach_grew
    | with_reducible apply foldl_grew
    | (intro; intros; try dsimp only)
    | (simp only [implies_true, eq_self])

theorem flushRows_grew (s : State) (t : Table) (v : Version) (h : Nat) (fails : List RowFail) (y0 : List Nat) (hs : Grew u (hide butOut s)) : Grew u (hide butOut (State.flushRows s t v h fails y0).1) := by
  revert hs
  fun_induction State.flushRows s t v h fails y0
  all_goals
    intro hs
    repeat' first
      | with_reducible assumption
      | split
      | (with_reducible apply writeBackRow_grew)
      | (with_reducible apply_assumption)
      | with_reducible apply forEach_grew
      | with_reducible apply foldl_grew
      | (intro; intros; try dsimp only)
      | (simp +zetaDelta only [implies_true, eq_self])

theorem evictRows_grew (s : State) (d : Desc) (t : Table) (v : Version) (fails : List RowFail) (hs : Grew u (hide butOut s)) : Grew u (hide butOut (State.evictRows s d t v fails)) := by
  unfold State.evictRows
  try dsimp only
  repeat' first
    | with_reducible assumption
    | split
    | (with_reducible apply flushRows_grew)
    | with_reducible apply forEach_grew
    | with_reducible apply foldl_grew
    | (intro; intros; try dsimp only)
    | (simp only [count_hide (M := butOut) rfl, countEvict_hide (M := butOut) rfl, dropRow_hide (M := butOut) rfl rfl rfl rfl rfl, evictEnd_hide (M := butOut) rfl, tblFail_hide (M := butOut) rfl, forEach_hide, implies_true, eq_self])

theorem execTableEvictRows_grew (id : Nat) (fails : List RowFail) (s : State) (t : State) (e : execTableEvictRows id fails s = .next t) (hs : Grew u (hide butOut s)) : Grew u (hide butOut t) := by
  refine next_grew e ?_
  repeat' first
    | with_reducible assumption
    | split
    | (with_reducible apply evictRows_grew)
    | (with_reducible apply tableOp_grew)
    | with_reducible apply forEach_grew
    | with_reducible apply foldl_grew
    | (intro; intros; try dsimp only)
    | (simp only [implies_true, eq_self])

theorem evictUnpin_grew (s : State) (d : Desc) (t : Table) (v : Version) (fails : List RowFail) (hs : Grew u (hide butOut s)) : Grew u (hide butOut (State.evictUnpin s d t v fails)) := by
  unfold State.evictUnpin
  try dsimp only
  repeat' first
    | with_reducible assumption
    | split
    | (with_reducible apply flushRows_grew)
    | with_reducible apply forEach_grew
    | with_reducible apply foldl_grew
    | (intro; intros; try dsimp only)
    | (simp only [countEvict_hide (M := butOut) rfl, dropExtent_hide (M := butOut) rfl rfl, evictEnd_hide (M := butOut) rfl, tblFail_hide (M := butOut) rfl, implies_true, eq_self])

theorem execTableEvictUnpin_grew (id : Nat) (fails : List RowFail) (s : State) (t : State) (e : execTableEvictUnpin id fails s = .next t) (hs : Grew u (hide butOut s)) : Grew u (hide butOut t) := by
  refine next_grew e ?_
  repeat' first
    | with_reducible assumption
    | split
    | (with_reducible apply evictUnpin_grew)
    | (with_reducible apply tableOp_grew)
    | with_reducible apply forEach_grew
    | with_reducible apply foldl_grew
    | (intro; intros; try dsimp only)
    | (simp only [implies_true, eq_self])

end Sys2Proof.Laws
end

