-- ==== Sys2Proof/Laws/TraceAdvice.lean ====
section
/-!
SUPPORT. What Machine/Advice.lean defines only adds to what the block has sent out.
-/

namespace Sys2Proof.Laws

open Sys2Proof.Machine

variable {u : State}

theorem bringRow_grew (s : State) (t : Table) (v : Version) (k : Key) (src : RowSrc) (fails : WbFails) (hs : Grew u (hide butOut s)) : Grew u (hide butOut (State.bringRow s t v k src fails).1) := by
  unfold State.bringRow
  try dsimp only
  repeat' first
    | with_reducible assumption
    | split
    | (with_reducible apply admitForced_grew)
    | (with_reducible apply readRow_grew)
    | with_reducible apply forEach_grew
    | with_reducible apply foldl_grew
    | (intro; intros; try dsimp only)
    | (simp only [bump_hide (M := butOut) rfl rfl rfl, count_hide (M := butOut) rfl, implies_true, eq_self])

theorem bringRows_grew (s : State) (t : Table) (v : Version) (rows : List RowFetch) (fails : WbFails) (y0 : List Key) (hs : Grew u (hide butOut s)) : Grew u (hide butOut (State.bringRows s t v rows fails y0).1) := by
  revert hs
  fun_induction State.bringRows s t v rows fails y0
  all_goals
    intro hs
    repeat' first
      | with_reducible assumption
      | split
      | (with_reducible apply bringRow_grew)
      | (with_reducible apply_assumption)
      | with_reducible apply forEach_grew
      | with_reducible apply foldl_grew
      | (intro; intros; try dsimp only)
      | (simp +zetaDelta only [implies_true, eq_self])

theorem rowRange_grew (s : State) (d : Desc) (rows : List RowFetch) (fails : WbFails) (hs : Grew u (hide butOut s)) : Grew u (hide butOut (State.rowRange s d rows fails)) := by
  unfold State.rowRange
  try dsimp only
  repeat' first
    | with_reducible assumption
    | split
    | (with_reducible apply bringRows_grew)
    | with_reducible apply forEach_grew
    | with_reducible apply foldl_grew
    | (intro; intros; try dsimp only)
    | (simp only [count_hide (M := butOut) rfl, endDesc_hide (M := butOut) rfl, prefetchEnd_hide (M := butOut) rfl, implies_true, eq_self])

theorem execRowRange_grew (id : Nat) (rows : List RowFetch) (fails : WbFails) (s : State) (t : State) (e : execRowRange id rows fails s = .next t) (hs : Grew u (hide butOut s)) : Grew u (hide butOut t) := by
  refine next_grew e ?_
  repeat' first
    | with_reducible assumption
    | split
    | (with_reducible apply rowRange_grew)
    | with_reducible apply forEach_grew
    | with_reducible apply foldl_grew
    | (intro; intros; try dsimp only)
    | (simp only [implies_true, eq_self])

theorem spareRow_grew (s : State) (t : Table) (v : Version) (k : Key) (src : RowSrc) (hs : Grew u (hide butOut s)) : Grew u (hide butOut (State.spareRow s t v k src)) := by
  unfold State.spareRow
  try dsimp only
  repeat' first
    | with_reducible assumption
    | split
    | (with_reducible apply admitForced_grew)
    | (with_reducible apply bringIn_grew)
    | (with_reducible apply readRow_grew)
    | with_reducible apply forEach_grew
    | with_reducible apply foldl_grew
    | (intro; intros; try dsimp only)
    | (simp only [count_hide (M := butOut) rfl, implies_true, eq_self])

theorem execWillneed_grew (id : Nat) (rows : List RowFetch) (s : State) (t : State) (e : execWillneed id rows s = .next t) (hs : Grew u (hide butOut s)) : Grew u (hide butOut t) := by
  refine next_grew e ?_
  repeat' first
    | with_reducible assumption
    | split
    | (with_reducible apply spareRow_grew)
    | with_reducible apply forEach_grew
    | with_reducible apply foldl_grew
    | (intro; intros; try dsimp only)
    | (simp only [endDesc_hide (M := butOut) rfl, endOk_hide (M := butOut) rfl, forEach_hide, implies_true, eq_self])

theorem dontneedVer_grew (s : State) (h : Nat) (t : Table) (v : Version) (first last : Nat) (fails : List RowFail) (hs : Grew u (hide butOut s)) : Grew u (hide butOut (State.dontneedVer s h t v first last fails)) := by
  unfold State.dontneedVer
  try dsimp only
  repeat' first
    | with_reducible assumption
    | split
    | (with_reducible apply flushRows_grew)
    | with_reducible apply forEach_grew
    | with_reducible apply foldl_grew
    | (intro; intros; try dsimp only)
    | (simp only [dropReplicas_hide (M := butOut) rfl rfl rfl, forEach_hide, implies_true, eq_self])

theorem execDontneed_grew (id : Nat) (fails : List RowFail) (s : State) (t : State) (e : execDontneed id fails s = .next t) (hs : Grew u (hide butOut s)) : Grew u (hide butOut t) := by
  refine next_grew e ?_
  repeat' first
    | with_reducible assumption
    | split
    | (with_reducible apply dontneedVer_grew)
    | with_reducible apply forEach_grew
    | with_reducible apply foldl_grew
    | (intro; intros; try dsimp only)
    | (simp only [endDesc_hide (M := butOut) rfl, endOk_hide (M := butOut) rfl, markHead_hide (M := butOut) rfl rfl rfl, onWays_hide (M := butOut) rfl, forEach_hide, implies_true, eq_self])

end Sys2Proof.Laws
end

