-- ==== Sys2Proof/Laws/TraceAnnounce.lean ====
section
/-!
SUPPORT. What Machine/Announce.lean defines only adds to what the block has sent out.
-/

namespace Sys2Proof.Laws

open Sys2Proof.Machine

variable {u : State}

theorem snoop_grew (s : State) (port line : Nat) (hs : Grew u (hide butOut s)) : Grew u (hide butOut (State.snoop s port line)) := by
  unfold State.snoop
  try dsimp only
  repeat' first
    | with_reducible assumption
    | split
    | (with_reducible apply readLine_grew)
    | (with_reducible apply send_grew)
    | with_reducible apply forEach_grew
    | with_reducible apply foldl_grew
    | (intro; intros; try dsimp only)
    | (simp only [onFe_hide (M := butOut) rfl, implies_true, eq_self])

theorem execEyeletSnoop_grew (port line : Nat) (s : State) (t : State) (e : execEyeletSnoop port line s = .next t) (hs : Grew u (hide butOut s)) : Grew u (hide butOut t) := by
  refine next_grew e ?_
  repeat' first
    | with_reducible assumption
    | split
    | (with_reducible apply snoop_grew)
    | with_reducible apply forEach_grew
    | with_reducible apply foldl_grew
    | (intro; intros; try dsimp only)

theorem takeWord_grew (s : State) (line : Nat) (l : EyeLine) (new : List Word64) (i : Nat) (hs : Grew u (hide butOut s)) : Grew u (hide butOut (State.takeWord s line l new i)) := by
  unfold State.takeWord
  try dsimp only
  repeat' first
    | with_reducible assumption
    | split
    | (with_reducible apply newIndex_grew)
    | with_reducible apply forEach_grew
    | with_reducible apply foldl_grew
    | (intro; intros; try dsimp only)
    | (simp only [implies_true, eq_self])

theorem lineReturn_grew (s : State) (line : Nat) (words : List Word64) (hs : Grew u (hide butOut s)) : Grew u (hide butOut (State.lineReturn s line words)) := by
  unfold State.lineReturn
  try dsimp only
  repeat' first
    | with_reducible assumption
    | split
    | (with_reducible apply takeWord_grew)
    | with_reducible apply forEach_grew
    | with_reducible apply foldl_grew
    | (intro; intros; try dsimp only)
    | (simp only [count_hide (M := butOut) rfl, onFe_hide (M := butOut) rfl, forEach_hide, implies_true, eq_self])

theorem execEyeletLineReturn_grew (line : Nat) (words : List Word64) (s : State) (t : State) (e : execEyeletLineReturn line words s = .next t) (hs : Grew u (hide butOut s)) : Grew u (hide butOut t) := by
  refine next_grew e ?_
  repeat' first
    | with_reducible assumption
    | split
    | (with_reducible apply lineReturn_grew)
    | with_reducible apply forEach_grew
    | with_reducible apply foldl_grew
    | (intro; intros; try dsimp only)
    | (simp only [implies_true, eq_self])

theorem overrunRecord_grew (s : State) (c : Nat) (hs : Grew u (hide butOut s)) : Grew u (hide butOut (State.overrunRecord s c)) := by
  unfold State.overrunRecord
  try dsimp only
  repeat' first
    | with_reducible assumption
    | split
    | (with_reducible apply writeOverrun_grew)
    | with_reducible apply forEach_grew
    | with_reducible apply foldl_grew
    | (intro; intros; try dsimp only)
    | (simp only [onFe_hide (M := butOut) rfl, implies_true, eq_self])

theorem execRingOverrunRecordWrite_grew (cpl : Nat) (s : State) (t : State) (e : execRingOverrunRecordWrite cpl s = .next t) (hs : Grew u (hide butOut s)) : Grew u (hide butOut t) := by
  refine next_grew e ?_
  repeat' first
    | with_reducible assumption
    | split
    | (with_reducible apply overrunRecord_grew)
    | with_reducible apply forEach_grew
    | with_reducible apply foldl_grew
    | (intro; intros; try dsimp only)
    | (simp only [implies_true, eq_self])

theorem doorbell_grew (s : State) (off size : Nat) (val : Word64) (hs : Grew u (hide butOut s)) : Grew u (hide butOut (State.doorbell s off size val)) := by
  unfold State.doorbell
  try dsimp only
  repeat' first
    | with_reducible assumption
    | split
    | (with_reducible apply newIndex_grew)
    | with_reducible apply forEach_grew
    | with_reducible apply foldl_grew
    | (intro; intros; try dsimp only)
    | (simp only [count_hide (M := butOut) rfl, implies_true, eq_self])

theorem execBar2DoorbellWrite_grew (off size : Nat) (val : Word64) (s : State) (t : State) (e : execBar2DoorbellWrite off size val s = .next t) (hs : Grew u (hide butOut s)) : Grew u (hide butOut t) := by
  refine next_grew e ?_
  repeat' first
    | with_reducible assumption
    | split
    | (with_reducible apply doorbell_grew)
    | with_reducible apply forEach_grew
    | with_reducible apply foldl_grew
    | (intro; intros; try dsimp only)
    | (simp only [implies_true, eq_self])

theorem readBack_grew (s : State) (off size : Nat) (hs : Grew u (hide butOut s)) : Grew u (hide butOut (State.readBack s off size)) := by
  unfold State.readBack
  try dsimp only
  repeat' first
    | with_reducible assumption
    | split
    | (with_reducible apply send_grew)
    | with_reducible apply forEach_grew
    | with_reducible apply foldl_grew
    | (intro; intros; try dsimp only)
    | (simp only [setRing_hide (M := butOut) rfl, implies_true, eq_self])

theorem execBar2ReadBack_grew (off size : Nat) (s : State) (t : State) (e : execBar2ReadBack off size s = .next t) (hs : Grew u (hide butOut s)) : Grew u (hide butOut t) := by
  refine next_grew e ?_
  repeat' first
    | with_reducible assumption
    | split
    | (with_reducible apply readBack_grew)
    | with_reducible apply forEach_grew
    | with_reducible apply foldl_grew
    | (intro; intros; try dsimp only)

theorem nearAnnounce_grew (s0 : State) (port k : Nat) (v : BitVec 32) (hs : Grew u (hide butOut s0)) : Grew u (hide butOut (State.nearAnnounce s0 port k v)) := by
  unfold State.nearAnnounce
  try dsimp only
  repeat' first
    | with_reducible assumption
    | split
    | (with_reducible apply newIndex_grew)
    | (with_reducible apply send_grew)
    | with_reducible apply forEach_grew
    | with_reducible apply foldl_grew
    | (intro; intros; try dsimp only)
    | (simp only [count_hide (M := butOut) rfl, implies_true, eq_self])

theorem execNearRingAnnouncement_grew (ring : OnPort Nat) (idx : BitVec 32) (s : State) (t : State) (e : execNearRingAnnouncement ring idx s = .next t) (hs : Grew u (hide butOut s)) : Grew u (hide butOut t) := by
  refine next_grew e ?_
  repeat' first
    | with_reducible assumption
    | split
    | (with_reducible apply nearAnnounce_grew)
    | with_reducible apply forEach_grew
    | with_reducible apply foldl_grew
    | (intro; intros; try dsimp only)
    | (simp only [implies_true, eq_self])

end Sys2Proof.Laws
end

