-- ==== Sys2Proof/Laws/TraceAuth.lean ====
section
/-!
SUPPORT. What Machine/Auth.lean defines only adds to what the block has sent out.
-/

namespace Sys2Proof.Laws

open Sys2Proof.Machine

variable {u : State}

theorem shutOut_grew (s : State) (hs : Grew u (hide butOut s)) : Grew u (hide butOut (State.shutOut s)) := by
  unfold State.shutOut
  try dsimp only
  repeat' first
    | with_reducible assumption
    | split
    | (with_reducible apply send_grew)
    | with_reducible apply forEach_grew
    | with_reducible apply foldl_grew
    | (intro; intros; try dsimp only)
    | (simp only [implies_true, eq_self])

theorem command_grew (s : State) (p : Path) (off go least : Nat) (audited : Bool) (core : Option Nat) (val : Word64) (run : State → State) (h_run : ∀ (x0 : State), Grew u (hide butOut x0) → Grew u (hide butOut (run x0))) (hs : Grew u (hide butOut s)) : Grew u (hide butOut (State.command s p off go least audited core val run)) := by
  unfold State.command
  try dsimp only
  repeat' first
    | with_reducible assumption
    | split
    | (with_reducible apply shutOut_grew)
    | (with_reducible apply h_run)
    | with_reducible apply forEach_grew
    | with_reducible apply foldl_grew
    | (intro; intros; try dsimp only)
    | (simp only [auditReg_hide (M := butOut) rfl rfl, denyWrite_hide (M := butOut) rfl rfl, ignoreWrite_hide (M := butOut) rfl, regPut_hide (M := butOut) rfl rfl rfl rfl rfl rfl rfl rfl, set_st_hide (M := butOut) rfl, implies_true, eq_self])

theorem regWrite_grew (s : State) (p : Path) (off size : Nat) (val : Word64) (reg least : Nat) (apply : State → Word64 → Word64 → State) (h_apply : ∀ (x0 : State) (x1 : Word64) (x2 : Word64), Grew u (hide butOut x0) → Grew u (hide butOut (apply x0 x1 x2))) (hs : Grew u (hide butOut s)) : Grew u (hide butOut (State.regWrite s p off size val reg least apply)) := by
  unfold State.regWrite
  try dsimp only
  repeat' first
    | with_reducible assumption
    | split
    | (with_reducible apply shutOut_grew)
    | (with_reducible apply h_apply)
    | with_reducible apply forEach_grew
    | with_reducible apply foldl_grew
    | (intro; intros; try dsimp only)
    | (simp only [auditReg_hide (M := butOut) rfl rfl, denyWrite_hide (M := butOut) rfl rfl, ignoreWrite_hide (M := butOut) rfl, set_lows_hide (M := butOut) rfl, implies_true, eq_self])

end Sys2Proof.Laws
end

