-- ==== Sys2Proof/Laws/TraceAuthority.lean ====
section
/-!
SUPPORT. What Machine/Authority.lean defines only adds to what the block has sent out.
-/

namespace Sys2Proof.Laws

open Sys2Proof.Machine

variable {u : State}

theorem moveLines_grew (s : State) (hs : Grew u (hide butOut s)) : Grew u (hide butOut (State.moveLines s)) := by
  unfold State.moveLines
  try dsimp only
  repeat' first
    | with_reducible assumption
    | split
    | (with_reducible apply sendAll_grew)
    | (with_reducible apply takeLine_grew)
    | with_reducible apply forEach_grew
    | with_reducible apply foldl_grew
    | (intro; intros; try dsimp only)
    | (simp only [forEach_hide, implies_true, eq_self])

theorem eyeletWrite_grew (s : State) (p : Path) (off size : Nat) (val : Word64) (hs : Grew u (hide butOut s)) : Grew u (hide butOut (State.eyeletWrite s p off size val)) := by
  unfold State.eyeletWrite
  try dsimp only
  repeat' first
    | with_reducible assumption
    | split
    | (with_reducible apply fitLine_grew)
    | (with_reducible apply moveLines_grew)
    | (with_reducible apply regWrite_grew)
    | with_reducible apply forEach_grew
    | with_reducible apply foldl_grew
    | (intro; intros; try dsimp only)
    | (simp only [put_eyeletBase_hide (M := butOut) rfl, forEach_hide, implies_true, eq_self])

theorem execEyeletBaseWrite_grew (p : Path) (off size : Nat) (val : Word64) (s : State) (t : State) (e : execEyeletBaseWrite p off size val s = .next t) (hs : Grew u (hide butOut s)) : Grew u (hide butOut t) := by
  refine next_grew e ?_
  repeat' first
    | with_reducible assumption
    | split
    | (with_reducible apply eyeletWrite_grew)
    | with_reducible apply forEach_grew
    | with_reducible apply foldl_grew
    | (intro; intros; try dsimp only)

theorem authApply_grew (s : State) (p : Path) (reg : Nat) (val : Word64) (run : State → State) (h_run : ∀ (x0 : State), Grew u (hide butOut x0) → Grew u (hide butOut (run x0))) (hs : Grew u (hide butOut s)) : Grew u (hide butOut (State.authApply s p reg val run)) := by
  unfold State.authApply
  try dsimp only
  repeat' first
    | with_reducible assumption
    | split
    | (with_reducible apply h_run)
    | with_reducible apply forEach_grew
    | with_reducible apply foldl_grew
    | (intro; intros; try dsimp only)
    | (simp only [auditReg_hide (M := butOut) rfl rfl])

theorem authRun_grew (s : State) (p : Path) (off size : Nat) (val : Word64) (hs : Grew u (hide butOut s)) : Grew u (hide butOut (State.authRun s p off size val)) := by
  unfold State.authRun
  try dsimp only
  repeat' first
    | with_reducible assumption
    | split
    | (with_reducible apply authApply_grew)
    | (with_reducible apply regWrite_grew)
    | with_reducible apply forEach_grew
    | with_reducible apply foldl_grew
    | (intro; intros; try dsimp only)
    | (simp only [setPolicy_hide (M := butOut) rfl rfl, tapFit_hide (M := butOut) rfl, put_makerCtl_hide (M := butOut) rfl, implies_true, eq_self])

theorem authWrite_grew (s : State) (p : Path) (off size : Nat) (val : Word64) (hs : Grew u (hide butOut s)) : Grew u (hide butOut (State.authWrite s p off size val)) := by
  unfold State.authWrite
  try dsimp only
  repeat' first
    | with_reducible assumption
    | split
    | (with_reducible apply authRun_grew)
    | (with_reducible apply shutOut_grew)
    | with_reducible apply forEach_grew
    | with_reducible apply foldl_grew
    | (intro; intros; try dsimp only)
    | (simp only [ignoreWrite_hide (M := butOut) rfl, onSt_hide (M := butOut) rfl, implies_true, eq_self])

theorem authDrain_grew (s : State) (hs : Grew u (hide butOut s)) : Grew u (hide butOut (State.authDrain s)) := by
  unfold State.authDrain
  try dsimp only
  repeat' first
    | with_reducible assumption
    | split
    | (with_reducible apply authRun_grew)
    | with_reducible apply forEach_grew
    | with_reducible apply foldl_grew
    | (intro; intros; try dsimp only)
    | (simp only [onSt_hide (M := butOut) rfl, forEach_hide, implies_true, eq_self])

theorem execAuthorityWrite_grew (p : Path) (off size : Nat) (val : Word64) (s : State) (t : State) (e : execAuthorityWrite p off size val s = .next t) (hs : Grew u (hide butOut s)) : Grew u (hide butOut t) := by
  refine next_grew e ?_
  repeat' first
    | with_reducible assumption
    | split
    | (with_reducible apply authWrite_grew)
    | with_reducible apply forEach_grew
    | with_reducible apply foldl_grew
    | (intro; intros; try dsimp only)
    | (simp only [implies_true, eq_self])

end Sys2Proof.Laws
end

