-- ==== Sys2Proof/Laws/TraceQueue.lean ====
section
/-!
SUPPORT. What Machine/Queue.lean defines only adds to what the block has sent out.
-/

namespace Sys2Proof.Laws

open Sys2Proof.Machine

variable {u : State}

theorem letIn_grew (s : State) (id : Nat) (hs : Grew u (hide butOut s)) : Grew u (hide butOut (State.letIn s id)) := by
  unfold State.letIn
  try dsimp only
  repeat' first
    | with_reducible assumption
    | split
    | (with_reducible apply prick_grew)
    | with_reducible apply forEach_grew
    | with_reducible apply foldl_grew
    | (intro; intros; try dsimp only)
    | (simp only [onDesc_hide (M := butOut) rfl, settle_hide (M := butOut) rfl, implies_true, eq_self])

theorem reserveOne_grew (s : State) (id : Nat) (hs : Grew u (hide butOut s)) : Grew u (hide butOut (State.reserveOne s id)) := by
  unfold State.reserveOne
  try dsimp only
  repeat' first
    | with_reducible assumption
    | split
    | (with_reducible apply letIn_grew)
    | with_reducible apply forEach_grew
    | with_reducible apply foldl_grew
    | (intro; intros; try dsimp only)
    | (simp only [count_hide (M := butOut) rfl, onDesc_hide (M := butOut) rfl, onRing_hide (M := butOut) rfl, implies_true, eq_self])

theorem reserveAll_grew (s : State) (c : Nat) (hs : Grew u (hide butOut s)) : Grew u (hide butOut (State.reserveAll s c)) := by
  unfold State.reserveAll
  try dsimp only
  repeat' first
    | with_reducible assumption
    | split
    | (with_reducible apply reserveOne_grew)
    | with_reducible apply forEach_grew
    | with_reducible apply foldl_grew
    | (intro; intros; try dsimp only)
    | (simp only [forEach_hide, implies_true, eq_self])

theorem endWait_grew (s : State) (id : Nat) (st : BitVec 8) (hs : Grew u (hide butOut s)) : Grew u (hide butOut (State.endWait s id st)) := by
  unfold State.endWait
  try dsimp only
  repeat' first
    | with_reducible assumption
    | split
    | (with_reducible apply reserveAll_grew)
    | with_reducible apply forEach_grew
    | with_reducible apply foldl_grew
    | (intro; intros; try dsimp only)
    | (simp only [endDesc_hide (M := butOut) rfl, implies_true, eq_self])

theorem wakeWaits_grew (s : State) (k : Nat) (hs : Grew u (hide butOut s)) : Grew u (hide butOut (State.wakeWaits s k)) := by
  unfold State.wakeWaits
  try dsimp only
  repeat' first
    | with_reducible assumption
    | split
    | (with_reducible apply endWait_grew)
    | with_reducible apply forEach_grew
    | with_reducible apply foldl_grew
    | (intro; intros; try dsimp only)
    | (simp only [forEach_hide, implies_true, eq_self])

theorem abortWaits_grew (s : State) (k : Nat) (hs : Grew u (hide butOut s)) : Grew u (hide butOut (State.abortWaits s k)) := by
  unfold State.abortWaits
  try dsimp only
  repeat' first
    | with_reducible assumption
    | split
    | (with_reducible apply endWait_grew)
    | with_reducible apply forEach_grew
    | with_reducible apply foldl_grew
    | (intro; intros; try dsimp only)
    | (simp only [onDesc_hide (M := butOut) rfl, forEach_hide, implies_true, eq_self])

theorem disableRing_grew (s : State) (k : Nat) (hs : Grew u (hide butOut s)) : Grew u (hide butOut (State.disableRing s k)) := by
  unfold State.disableRing
  try dsimp only
  repeat' first
    | with_reducible assumption
    | split
    | (with_reducible apply abortWaits_grew)
    | (with_reducible apply fitRing_grew)
    | with_reducible apply forEach_grew
    | with_reducible apply foldl_grew
    | (intro; intros; try dsimp only)
    | (simp only [dropKept_hide (M := butOut) rfl, finish_hide (M := butOut), onRing_hide (M := butOut) rfl, onFe_hide (M := butOut) rfl, onSp_hide (M := butOut) rfl, put_tileRel_hide (M := butOut) rfl, implies_true, eq_self])

theorem drained_grew (s : State) (k : Nat) (hs : Grew u (hide butOut s)) : Grew u (hide butOut (State.drained s k)) := by
  unfold State.drained
  try dsimp only
  repeat' first
    | with_reducible assumption
    | split
    | (with_reducible apply disableRing_grew)
    | with_reducible apply forEach_grew
    | with_reducible apply foldl_grew
    | (intro; intros; try dsimp only)
    | (simp only [finish_hide (M := butOut), put_ringCmd_hide (M := butOut) rfl, implies_true, eq_self])

theorem goOn_grew (s : State) (d : Desc) (hs : Grew u (hide butOut s)) : Grew u (hide butOut (State.goOn s d)) := by
  unfold State.goOn
  try dsimp only
  repeat' first
    | with_reducible assumption
    | split
    | (with_reducible apply drained_grew)
    | (with_reducible apply reserveAll_grew)
    | (with_reducible apply retryParked_grew)
    | with_reducible apply forEach_grew
    | with_reducible apply foldl_grew
    | (intro; intros; try dsimp only)
    | (simp only [implies_true, eq_self])

theorem putRecord_grew (s : State) (d : Desc) (hs : Grew u (hide butOut s)) : Grew u (hide butOut (State.putRecord s d)) := by
  unfold State.putRecord
  try dsimp only
  repeat' first
    | with_reducible assumption
    | split
    | (with_reducible apply irq_grew)
    | (with_reducible apply putInline_grew)
    | (with_reducible apply putSlot_grew)
    | (with_reducible apply signal_grew)
    | with_reducible apply forEach_grew
    | with_reducible apply foldl_grew
    | (intro; intros; try dsimp only)
    | (simp only [implies_true, eq_self])

theorem doneSeq_grew (s : State) (d : Desc) (hs : Grew u (hide butOut s)) : Grew u (hide butOut (State.doneSeq s d)) := by
  unfold State.doneSeq
  try dsimp only
  repeat' first
    | with_reducible assumption
    | split
    | (with_reducible apply wakeWaits_grew)
    | with_reducible apply forEach_grew
    | with_reducible apply foldl_grew
    | (intro; intros; try dsimp only)
    | (simp only [onRing_hide (M := butOut) rfl, implies_true, eq_self])

theorem flushOther_grew (s : State) (d : Desc) (hs : Grew u (hide butOut s)) : Grew u (hide butOut (State.flushOther s d)) := by
  unfold State.flushOther
  try dsimp only
  repeat' first
    | with_reducible assumption
    | split
    | (with_reducible apply send_grew)
    | with_reducible apply forEach_grew
    | with_reducible apply foldl_grew
    | (intro; intros; try dsimp only)
    | (simp only [implies_true, eq_self])

theorem finishRecord_grew (s : State) (d : Desc) (hs : Grew u (hide butOut s)) : Grew u (hide butOut (State.finishRecord s d)) := by
  unfold State.finishRecord
  try dsimp only
  repeat' first
    | with_reducible assumption
    | split
    | (with_reducible apply doneSeq_grew)
    | (with_reducible apply flushOther_grew)
    | (with_reducible apply goOn_grew)
    | (with_reducible apply putRecord_grew)
    | with_reducible apply forEach_grew
    | with_reducible apply foldl_grew
    | (intro; intros; try dsimp only)
    | (simp only [count_hide (M := butOut) rfl, countDone_hide (M := butOut) rfl, leave_hide (M := butOut) rfl rfl rfl rfl rfl rfl, noteUnseen_hide (M := butOut) rfl, tell_hide (M := butOut) rfl, implies_true, eq_self])

theorem abortOne_grew (s : State) (d : Desc) (hs : Grew u (hide butOut s)) : Grew u (hide butOut (State.abortOne s d)) := by
  unfold State.abortOne
  try dsimp only
  repeat' first
    | with_reducible assumption
    | split
    | (with_reducible apply putRecord_grew)
    | with_reducible apply forEach_grew
    | with_reducible apply foldl_grew
    | (intro; intros; try dsimp only)
    | (simp only [countDone_hide (M := butOut) rfl, leave_hide (M := butOut) rfl rfl rfl rfl rfl rfl, onRing_hide (M := butOut) rfl, implies_true, eq_self])

theorem resetRing_grew (s : State) (k : Nat) (hs : Grew u (hide butOut s)) : Grew u (hide butOut (State.resetRing s k)) := by
  unfold State.resetRing
  try dsimp only
  repeat' first
    | with_reducible assumption
    | split
    | (with_reducible apply abortOne_grew)
    | (with_reducible apply disableRing_grew)
    | (with_reducible apply reserveAll_grew)
    | (with_reducible apply retryParked_grew)
    | with_reducible apply forEach_grew
    | with_reducible apply foldl_grew
    | (intro; intros; try dsimp only)
    | (simp only [abandon_hide (M := butOut) rfl rfl rfl, forEach_hide, implies_true, eq_self])

end Sys2Proof.Laws
end

