-- ==== Sys2Proof/Laws/TraceDrain.lean ====
section
/-!
SUPPORT. What Machine/Drain.lean defines only adds to what the block has sent out.
-/

namespace Sys2Proof.Laws

open Sys2Proof.Machine

variable {u : State}

theorem putBytes_grew (s : State) (d : Desc) (r : Range) (off : Nat) (b : Bytes) (hs : Grew u (hide butOut s)) : Grew u (hide butOut (State.putBytes s d r off b)) := by
  unfold State.putBytes
  try dsimp only
  repeat' first
    | with_reducible assumption
    | split
    | (with_reducible apply fabSendAll_grew)
    | (with_reducible apply sendAll_grew)
    | with_reducible apply forEach_grew
    | with_reducible apply foldl_grew
    | (intro; intros; try dsimp only)
    | (simp only [onDesc_hide (M := butOut) rfl, implies_true, eq_self])

theorem writeResult_grew (s : State) (d : Desc) (dim : Nat) (cut : Option (Nat × BitVec 8)) (off : Nat) (b : Bytes) (hs : Grew u (hide butOut s)) : Grew u (hide butOut (State.writeResult s d dim cut off b)) := by
  unfold State.writeResult
  try dsimp only
  repeat' first
    | with_reducible assumption
    | split
    | (with_reducible apply putBytes_grew)
    | with_reducible apply forEach_grew
    | with_reducible apply foldl_grew
    | (intro; intros; try dsimp only)
    | (simp only [onDesc_hide (M := butOut) rfl, implies_true, eq_self])

theorem putBag_grew (s : State) (p : Pooled) (d : Desc) (cut : Option (Nat × BitVec 8)) (b : Nat) (sum : Acc) (hs : Grew u (hide butOut s)) : Grew u (hide butOut (State.putBag s p d cut b sum)) := by
  unfold State.putBag
  try dsimp only
  repeat' first
    | with_reducible assumption
    | split
    | (with_reducible apply writeResult_grew)
    | with_reducible apply forEach_grew
    | with_reducible apply foldl_grew
    | (intro; intros; try dsimp only)
    | (simp only [count_hide (M := butOut) rfl, driftRow_hide (M := butOut) rfl rfl, onDesc_hide (M := butOut) rfl, tell_hide (M := butOut) rfl, implies_true, eq_self])

theorem drainTile_grew (s : State) (w : PWin) (p : Pooled) (d : Desc) (tiles : List TileRef) (t : TileRef) (fault : Option (Nat × BitVec 8)) (hs : Grew u (hide butOut s)) : Grew u (hide butOut (State.drainTile s w p d tiles t fault)) := by
  unfold State.drainTile
  try dsimp only
  repeat' first
    | with_reducible assumption
    | split
    | (with_reducible apply drained_grew)
    | (with_reducible apply passBytes_grew)
    | (with_reducible apply putBag_grew)
    | with_reducible apply forEach_grew
    | with_reducible apply foldl_grew
    | (intro; intros; try dsimp only)
    | (simp only [count_hide (M := butOut) rfl, freeHoop_hide (M := butOut) rfl, onDesc_hide (M := butOut) rfl, onPooled_hide (M := butOut) rfl, tell_hide (M := butOut) rfl, forEach_hide, implies_true, eq_self])

end Sys2Proof.Laws
end

