-- ==== Sys2Proof/Laws/TraceBulk.lean ====
section
/-!
SUPPORT. What Machine/Bulk.lean defines only adds to what the block has sent out.
-/

namespace Sys2Proof.Laws

open Sys2Proof.Machine

variable {u : State}

theorem bulkPass_grew (s : State) (id m : Nat) (hs : Grew u (hide butOut s)) : Grew u (hide butOut (State.bulkPass s id m)) := by
  unfold State.bulkPass
  try dsimp only
  repeat' first
    | with_reducible assumption
    | split
    | (with_reducible apply passBytes_grew)
    | with_reducible apply forEach_grew
    | with_reducible apply foldl_grew
    | (intro; intros; try dsimp only)
    | (simp only [implies_true, eq_self])

theorem bulkWrite_grew (s : State) (d : Desc) (m : Nat) (b : Bytes) (hs : Grew u (hide butOut s)) : Grew u (hide butOut (State.bulkWrite s d m b)) := by
  unfold State.bulkWrite
  try dsimp only
  repeat' first
    | with_reducible assumption
    | split
    | (with_reducible apply putBytes_grew)
    | with_reducible apply forEach_grew
    | with_reducible apply foldl_grew
    | (intro; intros; try dsimp only)
    | (simp only [implies_true, eq_self])

theorem bulkEnd_grew (s : State) (d : Desc) (moved : Nat) (cut : Option (Nat × BitVec 8)) (hs : Grew u (hide butOut s)) : Grew u (hide butOut (State.bulkEnd s d moved cut)) := by
  unfold State.bulkEnd
  try dsimp only
  repeat' first
    | with_reducible assumption
    | split
    | (with_reducible apply send_grew)
    | with_reducible apply forEach_grew
    | with_reducible apply foldl_grew
    | (intro; intros; try dsimp only)
    | (simp only [countN_hide (M := butOut) rfl, count_hide (M := butOut) rfl, settle_hide (M := butOut) rfl, onFl_hide (M := butOut) rfl, implies_true, eq_self])

theorem bulkReads_grew (s : State) (d : Desc) (m n : Nat) (hs : Grew u (hide butOut s)) : Grew u (hide butOut (State.bulkReads s d m n)) := by
  unfold State.bulkReads
  try dsimp only
  repeat' first
    | with_reducible assumption
    | split
    | (with_reducible apply fabSendAll_grew)
    | (with_reducible apply sendAll_grew)
    | with_reducible apply forEach_grew
    | with_reducible apply foldl_grew
    | (intro; intros; try dsimp only)
    | (simp only [implies_true, eq_self])

theorem bulkBurst_grew (s : State) (id : Nat) (src : Feed) (dstFault : Option Nat) (hs : Grew u (hide butOut s)) : Grew u (hide butOut (State.bulkBurst s id src dstFault)) := by
  unfold State.bulkBurst
  try dsimp only
  repeat' first
    | with_reducible assumption
    | split
    | (with_reducible apply bulkEnd_grew)
    | (with_reducible apply bulkPass_grew)
    | (with_reducible apply bulkReads_grew)
    | (with_reducible apply bulkWrite_grew)
    | with_reducible apply forEach_grew
    | with_reducible apply foldl_grew
    | (intro; intros; try dsimp only)
    | (simp only [count_hide (M := butOut) rfl, countN_hide (M := butOut) rfl, onFl_hide (M := butOut) rfl, implies_true, eq_self])

theorem execBulkBurst_grew (id : Nat) (src : Feed) (dstFault : Option Nat) (s : State) (t : State) (e : execBulkBurst id src dstFault s = .next t) (hs : Grew u (hide butOut s)) : Grew u (hide butOut t) := by
  refine next_grew e ?_
  repeat' first
    | with_reducible assumption
    | split
    | (with_reducible apply bulkBurst_grew)
    | with_reducible apply forEach_grew
    | with_reducible apply foldl_grew
    | (intro; intros; try dsimp only)
    | (simp only [implies_true, eq_self])

end Sys2Proof.Laws
end

