-- ==== Sys2Proof/Laws/TraceChannels.lean ====
section
/-!
SUPPORT. What Machine/Channels.lean defines only adds to what the block has sent out.
-/

namespace Sys2Proof.Laws

open Sys2Proof.Machine

variable {u : State}

theorem dropFor_grew (s : State) (w : Way) (fails : WbFails) (hs : Grew u (hide butOut s)) : Grew u (hide butOut (State.dropFor s w fails).1) := by
  unfold State.dropFor
  try dsimp only
  repeat' first
    | with_reducible assumption
    | split
    | (with_reducible apply writeBackRow_grew)
    | with_reducible apply forEach_grew
    | with_reducible apply foldl_grew
    | (intro; intros; try dsimp only)
    | (simp only [dropReplicas_hide (M := butOut) rfl rfl rfl, dropRow_hide (M := butOut) rfl rfl rfl rfl rfl, dropWay_hide (M := butOut) rfl, markHead_hide (M := butOut) rfl rfl rfl, implies_true, eq_self])

theorem dropEach_grew (s : State) (fails : WbFails) (y0 : List Way) (hs : Grew u (hide butOut s)) : Grew u (hide butOut (State.dropEach s fails y0).1) := by
  revert hs
  fun_induction State.dropEach s fails y0
  all_goals
    intro hs
    repeat' first
      | with_reducible assumption
      | split
      | (with_reducible apply dropFor_grew)
      | (with_reducible apply_assumption)
      | with_reducible apply forEach_grew
      | with_reducible apply foldl_grew
      | (intro; intros; try dsimp only)
      | (simp +zetaDelta only [implies_true, eq_self])

theorem dropOrLose_grew (s : State) (w : Way) (hs : Grew u (hide butOut s)) : Grew u (hide butOut (State.dropOrLose s w)) := by
  unfold State.dropOrLose
  try dsimp only
  repeat' first
    | with_reducible assumption
    | split
    | (with_reducible apply dropFor_grew)
    | with_reducible apply forEach_grew
    | with_reducible apply foldl_grew
    | (intro; intros; try dsimp only)
    | (simp only [dropRow_hide (M := butOut) rfl rfl rfl rfl rfl, loseMaster_hide (M := butOut) rfl, implies_true, eq_self])

theorem moveMaster_grew (s : State) (w : Way) (t : Table) (hs : Grew u (hide butOut s)) : Grew u (hide butOut (State.moveMaster s w t)) := by
  unfold State.moveMaster
  try dsimp only
  repeat' first
    | with_reducible assumption
    | split
    | (with_reducible apply dropOrLose_grew)
    | (with_reducible apply placeCopy_grew)
    | with_reducible apply forEach_grew
    | with_reducible apply foldl_grew
    | (intro; intros; try dsimp only)
    | (simp only [dropWays_hide (M := butOut) rfl rfl rfl, onWays_hide (M := butOut) rfl, readCopy_hide (M := butOut) rfl rfl rfl, implies_true, eq_self])

theorem rehouse_grew (s : State) (all : Bool) (w : Way) (hs : Grew u (hide butOut s)) : Grew u (hide butOut (State.rehouse s all w)) := by
  unfold State.rehouse
  try dsimp only
  repeat' first
    | with_reducible assumption
    | split
    | (with_reducible apply dropOrLose_grew)
    | (with_reducible apply moveMaster_grew)
    | with_reducible apply forEach_grew
    | with_reducible apply foldl_grew
    | (intro; intros; try dsimp only)
    | (simp only [dropReplicas_hide (M := butOut) rfl rfl rfl, dropWay_hide (M := butOut) rfl, implies_true, eq_self])

theorem rehouseAll_grew (s : State) (all : Bool) (hs : Grew u (hide butOut s)) : Grew u (hide butOut (State.rehouseAll s all)) := by
  unfold State.rehouseAll
  try dsimp only
  repeat' first
    | with_reducible assumption
    | split
    | (with_reducible apply rehouse_grew)
    | with_reducible apply forEach_grew
    | with_reducible apply foldl_grew
    | (intro; intros; try dsimp only)
    | (simp only [settleTwins_hide (M := butOut) rfl, forEach_hide, implies_true, eq_self])

theorem masterFromTwin_grew (s : State) (w : Way) (stay : Bool) (hs : Grew u (hide butOut s)) : Grew u (hide butOut (State.masterFromTwin s w stay)) := by
  unfold State.masterFromTwin
  try dsimp only
  repeat' first
    | with_reducible assumption
    | split
    | (with_reducible apply moveMaster_grew)
    | with_reducible apply forEach_grew
    | with_reducible apply foldl_grew
    | (intro; intros; try dsimp only)
    | (simp only [count_hide (M := butOut) rfl, dropWay_hide (M := butOut) rfl, implies_true, eq_self])

theorem wayGone_grew (s : State) (hit : Nat → Nat → Bool) (spared : Bool) (w : Way) (hs : Grew u (hide butOut s)) : Grew u (hide butOut (State.wayGone s hit spared w)) := by
  unfold State.wayGone
  try dsimp only
  repeat' first
    | with_reducible assumption
    | split
    | (with_reducible apply masterFromTwin_grew)
    | with_reducible apply forEach_grew
    | with_reducible apply foldl_grew
    | (intro; intros; try dsimp only)
    | (simp only [count_hide (M := butOut) rfl, dropReplicas_hide (M := butOut) rfl rfl rfl, dropRow_hide (M := butOut) rfl rfl rfl rfl rfl, dropWay_hide (M := butOut) rfl, markHead_hide (M := butOut) rfl rfl rfl, implies_true, eq_self])

theorem rebuild_grew (s : State) (ch : Nat) (hit : Nat → Nat → Bool) (spared : Bool) (hs : Grew u (hide butOut s)) : Grew u (hide butOut (State.rebuild s ch hit spared)) := by
  unfold State.rebuild
  try dsimp only
  repeat' first
    | with_reducible assumption
    | split
    | (with_reducible apply wayGone_grew)
    | with_reducible apply forEach_grew
    | with_reducible apply foldl_grew
    | (intro; intros; try dsimp only)
    | (simp only [pinGone_hide (M := butOut) rfl rfl rfl, forEach_hide, implies_true, eq_self])

theorem bankRepairOn_grew (s : State) (lch p tier bank : Nat) (copied : Bool) (hs : Grew u (hide butOut s)) : Grew u (hide butOut (State.bankRepairOn s lch p tier bank copied).1) := by
  unfold State.bankRepairOn
  try dsimp only
  repeat' first
    | with_reducible assumption
    | split
    | (with_reducible apply rebuild_grew)
    | with_reducible apply forEach_grew
    | with_reducible apply foldl_grew
    | (intro; intros; try dsimp only)
    | (simp only [addLoad_hide (M := butOut) rfl, auditSpare_hide (M := butOut) rfl rfl, count_hide (M := butOut) rfl, spareLow_hide (M := butOut) rfl, tell_hide (M := butOut) rfl, onGs_hide (M := butOut) rfl, implies_true, eq_self])

theorem switchFold_grew (s : State) (c : ChCopy) (old : Nat) (waits : List WcEntry) (hs : Grew u (hide butOut s)) : Grew u (hide butOut (State.switchFold s c old waits)) := by
  unfold State.switchFold
  try dsimp only
  repeat' first
    | with_reducible assumption
    | split
    | (with_reducible apply rehouseAll_grew)
    | with_reducible apply forEach_grew
    | with_reducible apply foldl_grew
    | (intro; intros; try dsimp only)
    | (simp only [count_hide (M := butOut) rfl, foldReduces_hide (M := butOut) rfl rfl, gsDone_hide (M := butOut) rfl, onPhys_hide (M := butOut) rfl, replay_hide (M := butOut) rfl rfl, tell_hide (M := butOut) rfl, onGs_hide (M := butOut) rfl, implies_true, eq_self])

theorem switchUnfold_grew (s : State) (c : ChCopy) (old : Nat) (waits : List WcEntry) (hs : Grew u (hide butOut s)) : Grew u (hide butOut (State.switchUnfold s c old waits)) := by
  unfold State.switchUnfold
  try dsimp only
  repeat' first
    | with_reducible assumption
    | split
    | (with_reducible apply rehouseAll_grew)
    | with_reducible apply forEach_grew
    | with_reducible apply foldl_grew
    | (intro; intros; try dsimp only)
    | (simp only [enterService_hide (M := butOut) rfl rfl rfl, gsDone_hide (M := butOut) rfl, joinGroup_hide (M := butOut) rfl, replay_hide (M := butOut) rfl rfl, unfoldRestores_hide (M := butOut) rfl, onGs_hide (M := butOut) rfl, implies_true, eq_self])

theorem switchCh_grew (s : State) (c0 : ChCopy) (pass : Option (Option TgRes)) (hs : Grew u (hide butOut s)) : Grew u (hide butOut (State.switchCh s c0 pass)) := by
  unfold State.switchCh
  try dsimp only
  repeat' first
    | with_reducible assumption
    | split
    | (with_reducible apply rebuild_grew)
    | (with_reducible apply switchFold_grew)
    | (with_reducible apply switchUnfold_grew)
    | with_reducible apply forEach_grew
    | with_reducible apply foldl_grew
    | (intro; intros; try dsimp only)
    | (simp only [copyRest_hide (M := butOut) rfl rfl rfl, endCopy_hide (M := butOut) rfl, hold_hide (M := butOut) rfl rfl rfl, refreshDue_hide (M := butOut) rfl rfl rfl, replay_hide (M := butOut) rfl rfl, switchReplace_hide (M := butOut) rfl rfl rfl rfl, implies_true, eq_self])

theorem execChannelSwitch_grew (lch : Nat) (res : Option TgRes) (s : State) (t : State) (e : execChannelSwitch lch res s = .next t) (hs : Grew u (hide butOut s)) : Grew u (hide butOut t) := by
  refine next_grew e ?_
  repeat' first
    | with_reducible assumption
    | split
    | (with_reducible apply switchCh_grew)
    | with_reducible apply forEach_grew
    | with_reducible apply foldl_grew
    | (intro; intros; try dsimp only)
    | (simp only [retestOld_hide (M := butOut) rfl rfl, implies_true, eq_self])

theorem replaceCh_grew (s : State) (f : Nat) (readable : Bool) (hs : Grew u (hide butOut s)) : Grew u (hide butOut (State.replaceCh s f readable).1) := by
  unfold State.replaceCh
  try dsimp only
  repeat' first
    | with_reducible assumption
    | split
    | (with_reducible apply switchCh_grew)
    | with_reducible apply forEach_grew
    | with_reducible apply foldl_grew
    | (intro; intros; try dsimp only)
    | (simp only [startCopy_hide (M := butOut) rfl, implies_true, eq_self])

theorem foldCh_grew (s : State) (f : Nat) (readable : Bool) (fails : WbFails) (hs : Grew u (hide butOut s)) : Grew u (hide butOut (State.foldCh s f readable fails).1) := by
  unfold State.foldCh
  try dsimp only
  repeat' first
    | with_reducible assumption
    | split
    | (with_reducible apply dropEach_grew)
    | with_reducible apply forEach_grew
    | with_reducible apply foldl_grew
    | (intro; intros; try dsimp only)
    | (simp only [startCopy_hide (M := butOut) rfl, implies_true, eq_self])

theorem losePinned_grew (s : State) (f : Nat) (e : Extent) (hs : Grew u (hide butOut s)) : Grew u (hide butOut (State.losePinned s f e)) := by
  unfold State.losePinned
  try dsimp only
  repeat' first
    | with_reducible assumption
    | split
    | (with_reducible apply writeBackRow_grew)
    | with_reducible apply forEach_grew
    | with_reducible apply foldl_grew
    | (intro; intros; try dsimp only)
    | (simp only [clean_hide (M := butOut) rfl rfl rfl rfl rfl, loseMaster_hide (M := butOut) rfl, onExtent_hide (M := butOut) rfl, poisonRow_hide (M := butOut) rfl rfl rfl, forEach_hide, implies_true, eq_self])

theorem loseChannel_grew (s : State) (f : Nat) (hs : Grew u (hide butOut s)) : Grew u (hide butOut (State.loseChannel s f)) := by
  unfold State.loseChannel
  try dsimp only
  repeat' first
    | with_reducible assumption
    | split
    | (with_reducible apply dropOrLose_grew)
    | (with_reducible apply losePinned_grew)
    | with_reducible apply forEach_grew
    | with_reducible apply foldl_grew
    | (intro; intros; try dsimp only)
    | (simp only [abandon_hide (M := butOut) rfl rfl rfl, dropKept_hide (M := butOut) rfl, endCopy_hide (M := butOut) rfl, endDesc_hide (M := butOut) rfl, loseEntries_hide (M := butOut) rfl rfl, onPhys_hide (M := butOut) rfl, reduce_hide (M := butOut) rfl rfl, settleTwins_hide (M := butOut) rfl, onGs_hide (M := butOut) rfl, forEach_hide, implies_true, eq_self])

theorem autoAction_grew (s : State) (f : Nat) (readable : Bool) (hs : Grew u (hide butOut s)) : Grew u (hide butOut (State.autoAction s f readable)) := by
  unfold State.autoAction
  try dsimp only
  repeat' first
    | with_reducible assumption
    | split
    | (with_reducible apply foldCh_grew)
    | (with_reducible apply loseChannel_grew)
    | (with_reducible apply replaceCh_grew)
    | with_reducible apply forEach_grew
    | with_reducible apply foldl_grew
    | (intro; intros; try dsimp only)
    | (simp only [implies_true, eq_self])

theorem channelAction_grew (s : State) (f : Nat) (readable : Bool) (hs : Grew u (hide butOut s)) : Grew u (hide butOut (State.channelAction s f readable)) := by
  unfold State.channelAction
  try dsimp only
  repeat' first
    | with_reducible assumption
    | split
    | (with_reducible apply autoAction_grew)
    | with_reducible apply forEach_grew
    | with_reducible apply foldl_grew
    | (intro; intros; try dsimp only)
    | (simp only [tell_hide (M := butOut) rfl, onGs_hide (M := butOut) rfl, implies_true, eq_self])

theorem runDue_grew (s : State) (hs : Grew u (hide butOut s)) : Grew u (hide butOut (State.runDue s)) := by
  unfold State.runDue
  try dsimp only
  repeat' first
    | with_reducible assumption
    | split
    | (with_reducible apply channelAction_grew)
    | (with_reducible apply switchCh_grew)
    | with_reducible apply forEach_grew
    | with_reducible apply foldl_grew
    | (intro; intros; try dsimp only)
    | (simp only [onGs_hide (M := butOut) rfl, forEach_hide, implies_true, eq_self])

theorem channelFails_grew (s : State) (f : Nat) (hs : Grew u (hide butOut s)) : Grew u (hide butOut (State.channelFails s f)) := by
  unfold State.channelFails
  try dsimp only
  repeat' first
    | with_reducible assumption
    | split
    | (with_reducible apply channelAction_grew)
    | (with_reducible apply switchCh_grew)
    | with_reducible apply forEach_grew
    | with_reducible apply foldl_grew
    | (intro; intros; try dsimp only)
    | (simp only [onGs_hide (M := butOut) rfl, implies_true, eq_self])

theorem spareFails_grew (s : State) (f : Nat) (hs : Grew u (hide butOut s)) : Grew u (hide butOut (State.spareFails s f)) := by
  unfold State.spareFails
  try dsimp only
  repeat' first
    | with_reducible assumption
    | split
    | (with_reducible apply channelAction_grew)
    | with_reducible apply forEach_grew
    | with_reducible apply foldl_grew
    | (intro; intros; try dsimp only)
    | (simp only [endCopy_hide (M := butOut) rfl, gsEnd_hide (M := butOut) rfl, onPhys_hide (M := butOut) rfl, onGs_hide (M := butOut) rfl, implies_true, eq_self])

theorem bankRepair_grew (s : State) (lch p tier bank : Nat) (copied : Bool) (hs : Grew u (hide butOut s)) : Grew u (hide butOut (State.bankRepair s lch p tier bank copied)) := by
  unfold State.bankRepair
  try dsimp only
  repeat' first
    | with_reducible assumption
    | split
    | (with_reducible apply bankRepairOn_grew)
    | (with_reducible apply channelAction_grew)
    | with_reducible apply forEach_grew
    | with_reducible apply foldl_grew
    | (intro; intros; try dsimp only)
    | (simp only [implies_true, eq_self])

theorem execBankRepair_grew (ch tier : Nat) (bank : BankAim) (s : State) (t : State) (e : execBankRepair ch tier bank s = .next t) (hs : Grew u (hide butOut s)) : Grew u (hide butOut t) := by
  refine next_grew e ?_
  repeat' first
    | with_reducible assumption
    | split
    | (with_reducible apply bankRepair_grew)
    | with_reducible apply forEach_grew
    | with_reducible apply foldl_grew
    | (intro; intros; try dsimp only)
    | (simp only [implies_true, eq_self])

theorem rowRepair_grew (s : State) (lch p tier bank row : Nat) (hs : Grew u (hide butOut s)) : Grew u (hide butOut (State.rowRepair s lch p tier bank row)) := by
  unfold State.rowRepair
  try dsimp only
  repeat' first
    | with_reducible assumption
    | split
    | (with_reducible apply bankRepair_grew)
    | with_reducible apply forEach_grew
    | with_reducible apply foldl_grew
    | (intro; intros; try dsimp only)
    | (simp only [addLoad_hide (M := butOut) rfl, auditSpare_hide (M := butOut) rfl rfl, count_hide (M := butOut) rfl, spareLow_hide (M := butOut) rfl, tell_hide (M := butOut) rfl, onGs_hide (M := butOut) rfl, implies_true, eq_self])

theorem execRowRepair_grew (ch tier bank row : Nat) (s : State) (t : State) (e : execRowRepair ch tier bank row s = .next t) (hs : Grew u (hide butOut s)) : Grew u (hide butOut t) := by
  refine next_grew e ?_
  repeat' first
    | with_reducible assumption
    | split
    | (with_reducible apply rowRepair_grew)
    | with_reducible apply forEach_grew
    | with_reducible apply foldl_grew
    | (intro; intros; try dsimp only)
    | (simp only [implies_true, eq_self])

theorem bankStuck_grew (s : State) (ch p tier bank : Nat) (hs : Grew u (hide butOut s)) : Grew u (hide butOut (State.bankStuck s ch p tier bank)) := by
  unfold State.bankStuck
  try dsimp only
  repeat' first
    | with_reducible assumption
    | split
    | (with_reducible apply bankRepairOn_grew)
    | (with_reducible apply channelAction_grew)
    | (with_reducible apply rebuild_grew)
    | with_reducible apply forEach_grew
    | with_reducible apply foldl_grew
    | (intro; intros; try dsimp only)
    | (simp only [count_hide (M := butOut) rfl, markLost_hide (M := butOut) rfl rfl, tell_hide (M := butOut) rfl, implies_true, eq_self])

theorem execBankStuck_grew (ch tier bank : Nat) (s : State) (t : State) (e : execBankStuck ch tier bank s = .next t) (hs : Grew u (hide butOut s)) : Grew u (hide butOut t) := by
  refine next_grew e ?_
  repeat' first
    | with_reducible assumption
    | split
    | (with_reducible apply bankStuck_grew)
    | with_reducible apply forEach_grew
    | with_reducible apply foldl_grew
    | (intro; intros; try dsimp only)
    | (simp only [implies_true, eq_self])

theorem marginFound_grew (s : State) (lch : Nat) (y0 : ChanFinding) (hs : Grew u (hide butOut s)) : Grew u (hide butOut (State.marginFound s lch y0)) := by
  unfold State.marginFound
  try dsimp only
  repeat' first
    | with_reducible assumption
    | split
    | (with_reducible apply channelAction_grew)
    | (with_reducible apply channelFails_grew)
    | (with_reducible apply spareFails_grew)
    | with_reducible apply forEach_grew
    | with_reducible apply foldl_grew
    | (intro; intros; try dsimp only)
    | (simp only [implies_true, eq_self])

theorem execMarginCheck_grew (lch : Nat) (found : ChanFinding) (s : State) (t : State) (e : execMarginCheck lch found s = .next t) (hs : Grew u (hide butOut s)) : Grew u (hide butOut t) := by
  refine next_grew e ?_
  repeat' first
    | with_reducible assumption
    | split
    | (with_reducible apply marginFound_grew)
    | with_reducible apply forEach_grew
    | with_reducible apply foldl_grew
    | (intro; intros; try dsimp only)
    | (simp only [implies_true, eq_self])

theorem scrubLine_grew (s : State) (ch p tier bank line : Nat) (persists : Bool) (hs : Grew u (hide butOut s)) : Grew u (hide butOut (State.scrubLine s ch p tier bank line persists)) := by
  unfold State.scrubLine
  try dsimp only
  repeat' first
    | with_reducible assumption
    | split
    | (with_reducible apply rebuild_grew)
    | (with_reducible apply rowRepair_grew)
    | with_reducible apply forEach_grew
    | with_reducible apply foldl_grew
    | (intro; intros; try dsimp only)
    | (simp only [count_hide (M := butOut) rfl, implies_true, eq_self])

theorem scrubFound_grew (s : State) (ch p : Nat) (y0 : ScrubFind) (hs : Grew u (hide butOut s)) : Grew u (hide butOut (State.scrubFound s ch p y0)) := by
  unfold State.scrubFound
  try dsimp only
  repeat' first
    | with_reducible assumption
    | split
    | (with_reducible apply scrubLine_grew)
    | with_reducible apply forEach_grew
    | with_reducible apply foldl_grew
    | (intro; intros; try dsimp only)
    | (simp only [scrubDir_hide (M := butOut) rfl rfl, scrubTwin_hide (M := butOut) rfl rfl rfl, implies_true, eq_self])

theorem scrub_grew (s : State) (ch p : Nat) (found : List ScrubFind) (hs : Grew u (hide butOut s)) : Grew u (hide butOut (State.scrub s ch p found)) := by
  unfold State.scrub
  try dsimp only
  repeat' first
    | with_reducible assumption
    | split
    | (with_reducible apply scrubFound_grew)
    | with_reducible apply forEach_grew
    | with_reducible apply foldl_grew
    | (intro; intros; try dsimp only)
    | (simp only [addLoad_hide (M := butOut) rfl, count_hide (M := butOut) rfl, tell_hide (M := butOut) rfl, forEach_hide, implies_true, eq_self])

theorem execScrub_grew (ch : Nat) (found : List ScrubFind) (s : State) (t : State) (e : execScrub ch found s = .next t) (hs : Grew u (hide butOut s)) : Grew u (hide butOut t) := by
  refine next_grew e ?_
  repeat' first
    | with_reducible assumption
    | split
    | (with_reducible apply scrub_grew)
    | with_reducible apply forEach_grew
    | with_reducible apply foldl_grew
    | (intro; intros; try dsimp only)
    | (simp only [implies_true, eq_self])

theorem raiseStep_grew (s : State) (p : Nat) (hs : Grew u (hide butOut s)) : Grew u (hide butOut (State.raiseStep s p)) := by
  unfold State.raiseStep
  try dsimp only
  repeat' first
    | with_reducible assumption
    | split
    | (with_reducible apply channelAction_grew)
    | with_reducible apply forEach_grew
    | with_reducible apply foldl_grew
    | (intro; intros; try dsimp only)
    | (simp only [count_hide (M := butOut) rfl, onPhys_hide (M := butOut) rfl, tell_hide (M := butOut) rfl, implies_true, eq_self])

theorem execRetentionStep_grew (pch : Nat) (s : State) (t : State) (e : execRetentionStep pch s = .next t) (hs : Grew u (hide butOut s)) : Grew u (hide butOut t) := by
  refine next_grew e ?_
  repeat' first
    | with_reducible assumption
    | split
    | (with_reducible apply raiseStep_grew)
    | with_reducible apply forEach_grew
    | with_reducible apply foldl_grew
    | (intro; intros; try dsimp only)
    | (simp only [logSensor_hide (M := butOut) rfl, implies_true, eq_self])

theorem gsCommand_grew (s : State) (p : Path) (op ch : Nat) (run : State → State × Option Nat) (h_run : ∀ (x0 : State), Grew u (hide butOut x0) → Grew u (hide butOut (run x0).1)) (hs : Grew u (hide butOut s)) : Grew u (hide butOut (State.gsCommand s p op ch run)) := by
  unfold State.gsCommand
  try dsimp only
  repeat' first
    | with_reducible assumption
    | split
    | (with_reducible apply command_grew)
    | (with_reducible apply h_run)
    | with_reducible apply forEach_grew
    | with_reducible apply foldl_grew
    | (intro; intros; try dsimp only)
    | (simp only [denyWrite_hide (M := butOut) rfl rfl, finish_hide (M := butOut), put_gsCmd_hide (M := butOut) rfl, implies_true, eq_self])

theorem execReplace_grew (p : Path) (lch : Nat) (readable : Bool) (s : State) (t : State) (e : execReplace p lch readable s = .next t) (hs : Grew u (hide butOut s)) : Grew u (hide butOut t) := by
  refine next_grew e ?_
  repeat' first
    | with_reducible assumption
    | split
    | (with_reducible apply gsCommand_grew)
    | (with_reducible apply replaceCh_grew)
    | with_reducible apply forEach_grew
    | with_reducible apply foldl_grew
    | (intro; intros; try dsimp only)
    | (simp only [implies_true, eq_self])

theorem execFold_grew (p : Path) (lch : Nat) (readable : Bool) (fails : WbFails) (s : State) (t : State) (e : execFold p lch readable fails s = .next t) (hs : Grew u (hide butOut s)) : Grew u (hide butOut t) := by
  refine next_grew e ?_
  repeat' first
    | with_reducible assumption
    | split
    | (with_reducible apply foldCh_grew)
    | (with_reducible apply gsCommand_grew)
    | with_reducible apply forEach_grew
    | with_reducible apply foldl_grew
    | (intro; intros; try dsimp only)
    | (simp only [implies_true, eq_self])

theorem execUnfold_grew (p : Path) (lch : Nat) (s : State) (t : State) (e : execUnfold p lch s = .next t) (hs : Grew u (hide butOut s)) : Grew u (hide butOut t) := by
  refine next_grew e ?_
  repeat' first
    | with_reducible assumption
    | split
    | (with_reducible apply gsCommand_grew)
    | with_reducible apply forEach_grew
    | with_reducible apply foldl_grew
    | (intro; intros; try dsimp only)
    | (simp only [unfoldCh_hide (M := butOut) rfl, implies_true, eq_self])

theorem execRetrain_grew (p : Path) (pch : Nat) (res : Option TgRes) (s : State) (t : State) (e : execRetrain p pch res s = .next t) (hs : Grew u (hide butOut s)) : Grew u (hide butOut t) := by
  refine next_grew e ?_
  repeat' first
    | with_reducible assumption
    | split
    | (with_reducible apply gsCommand_grew)
    | with_reducible apply forEach_grew
    | with_reducible apply foldl_grew
    | (intro; intros; try dsimp only)
    | (simp only [idlePhys_hide (M := butOut), onPhys_hide (M := butOut) rfl, tellTested_hide (M := butOut) rfl, implies_true, eq_self])

theorem execTest_grew (p : Path) (pch errors tier bank line : Nat) (s : State) (t : State) (e : execTest p pch errors tier bank line s = .next t) (hs : Grew u (hide butOut s)) : Grew u (hide butOut t) := by
  refine next_grew e ?_
  repeat' first
    | with_reducible assumption
    | split
    | (with_reducible apply gsCommand_grew)
    | with_reducible apply forEach_grew
    | with_reducible apply foldl_grew
    | (intro; intros; try dsimp only)
    | (simp only [idlePhys_hide (M := butOut), testCh_hide (M := butOut) rfl rfl, implies_true, eq_self])

theorem execRetire_grew (p : Path) (pch : Nat) (s : State) (t : State) (e : execRetire p pch s = .next t) (hs : Grew u (hide butOut s)) : Grew u (hide butOut t) := by
  refine next_grew e ?_
  repeat' first
    | with_reducible assumption
    | split
    | (with_reducible apply gsCommand_grew)
    | with_reducible apply forEach_grew
    | with_reducible apply foldl_grew
    | (intro; intros; try dsimp only)
    | (simp only [idlePhys_hide (M := butOut), onPhys_hide (M := butOut) rfl, implies_true, eq_self])

end Sys2Proof.Laws
end

