-- ==== Sys2Proof/Laws/TraceContexts.lean ====
section
/-!
SUPPORT. What Machine/Contexts.lean defines only adds to what the block has sent out.
-/

namespace Sys2Proof.Laws

open Sys2Proof.Machine

variable {u : State}

theorem ctxWrite_grew (s : State) (p : Path) (off size : Nat) (val : Word64) (hs : Grew u (hide butOut s)) : Grew u (hide butOut (State.ctxWrite s p off size val)) := by
  unfold State.ctxWrite
  try dsimp only
  repeat' first
    | with_reducible assumption
    | split
    | (with_reducible apply regWrite_grew)
    | with_reducible apply forEach_grew
    | with_reducible apply foldl_grew
    | (intro; intros; try dsimp only)
    | (simp only [count_hide (M := butOut) rfl, enterCtx_hide (M := butOut) rfl rfl, set_ctxCfg_hide (M := butOut) rfl, implies_true, eq_self])

theorem execCtxCfgWrite_grew (p : Path) (off size : Nat) (val : Word64) (s : State) (t : State) (e : execCtxCfgWrite p off size val s = .next t) (hs : Grew u (hide butOut s)) : Grew u (hide butOut t) := by
  refine next_grew e ?_
  repeat' first
    | with_reducible assumption
    | split
    | (with_reducible apply ctxWrite_grew)
    | with_reducible apply forEach_grew
    | with_reducible apply foldl_grew
    | (intro; intros; try dsimp only)
    | (simp only [implies_true, eq_self])

theorem dropSegs_grew (s : State) (c mask : Nat) (hs : Grew u (hide butOut s)) : Grew u (hide butOut (State.dropSegs s c mask)) := by
  unfold State.dropSegs
  try dsimp only
  repeat' first
    | with_reducible assumption
    | split
    | (with_reducible apply readMirror_grew)
    | with_reducible apply forEach_grew
    | with_reducible apply foldl_grew
    | (intro; intros; try dsimp only)
    | (simp only [onXl_hide (M := butOut) rfl, implies_true, eq_self])

theorem segCmd_grew (s : State) (p : Path) (op : Nat) (val : Word64) (run : State → Nat → Nat → State) (h_run : ∀ (x0 : State) (x1 : Nat) (x2 : Nat), Grew u (hide butOut x0) → Grew u (hide butOut (run x0 x1 x2))) (hs : Grew u (hide butOut s)) : Grew u (hide butOut (State.segCmd s p op val run)) := by
  unfold State.segCmd
  try dsimp only
  repeat' first
    | with_reducible assumption
    | split
    | (with_reducible apply command_grew)
    | (with_reducible apply h_run)
    | with_reducible apply forEach_grew
    | with_reducible apply foldl_grew
    | (intro; intros; try dsimp only)
    | (simp only [invalDone_hide (M := butOut) rfl, put_segInval_hide (M := butOut) rfl, implies_true, eq_self])

theorem execInval_grew (p : Path) (val : Word64) (s : State) (t : State) (e : execInval p val s = .next t) (hs : Grew u (hide butOut s)) : Grew u (hide butOut t) := by
  refine next_grew e ?_
  repeat' first
    | with_reducible assumption
    | split
    | (with_reducible apply dropSegs_grew)
    | (with_reducible apply segCmd_grew)
    | with_reducible apply forEach_grew
    | with_reducible apply foldl_grew
    | (intro; intros; try dsimp only)
    | (simp only [invalDone_hide (M := butOut) rfl, implies_true, eq_self])

theorem execInvalDrain_grew (p : Path) (val : Word64) (s : State) (t : State) (e : execInvalDrain p val s = .next t) (hs : Grew u (hide butOut s)) : Grew u (hide butOut t) := by
  refine next_grew e ?_
  repeat' first
    | with_reducible assumption
    | split
    | (with_reducible apply dropSegs_grew)
    | (with_reducible apply segCmd_grew)
    | with_reducible apply forEach_grew
    | with_reducible apply foldl_grew
    | (intro; intros; try dsimp only)
    | (simp only [invalDone_hide (M := butOut) rfl, onXl_hide (M := butOut) rfl, implies_true, eq_self])

theorem mirrorReturn_grew (s : State) (c : Nat) (block : Bytes) (hs : Grew u (hide butOut s)) : Grew u (hide butOut (State.mirrorReturn s c block)) := by
  unfold State.mirrorReturn
  try dsimp only
  repeat' first
    | with_reducible assumption
    | split
    | (with_reducible apply prick_grew)
    | with_reducible apply forEach_grew
    | with_reducible apply foldl_grew
    | (intro; intros; try dsimp only)
    | (simp only [fillSegs_hide (M := butOut) rfl rfl, onFe_hide (M := butOut) rfl, onXl_hide (M := butOut) rfl, forEach_hide, implies_true, eq_self])

theorem execMirrorReadReturn_grew (ctx : Nat) (block : Bytes) (s : State) (t : State) (e : execMirrorReadReturn ctx block s = .next t) (hs : Grew u (hide butOut s)) : Grew u (hide butOut t) := by
  refine next_grew e ?_
  repeat' first
    | with_reducible assumption
    | split
    | (with_reducible apply mirrorReturn_grew)
    | with_reducible apply forEach_grew
    | with_reducible apply foldl_grew
    | (intro; intros; try dsimp only)
    | (simp only [implies_true, eq_self])

end Sys2Proof.Laws
end

