-- ==== Sys2Proof/Laws/TraceRounds.lean ====
section
/-!
SUPPORT. What Machine/Rounds.lean defines only adds to what the block has sent out.
-/

namespace Sys2Proof.Laws

open Sys2Proof.Machine

variable {u : State}

theorem issue_grew (s : State) (w : PWin) (a : Ask) (hs : Grew u (hide butOut s)) : Grew u (hide butOut (State.issue s w a)) := by
  unfold State.issue
  try dsimp only
  repeat' first
    | with_reducible assumption
    | split
    | (with_reducible apply send_grew)
    | with_reducible apply forEach_grew
    | with_reducible apply foldl_grew
    | (intro; intros; try dsimp only)
    | (simp only [countN_hide (M := butOut) rfl, noteFetch_hide (M := butOut) rfl rfl rfl rfl, notePinned_hide (M := butOut) rfl rfl, noteReplica_hide (M := butOut) rfl, onPwin_hide (M := butOut) rfl, onWays_hide (M := butOut) rfl, readCopy_hide (M := butOut) rfl rfl rfl, readLanding_hide (M := butOut) rfl rfl, touchHead_hide (M := butOut) rfl rfl rfl, implies_true, eq_self])

theorem askRow_grew (s : State) (wid : Nat) (need : Need) (again : Nat) (hs : Grew u (hide butOut s)) : Grew u (hide butOut (State.askRow s wid need again)) := by
  unfold State.askRow
  try dsimp only
  repeat' first
    | with_reducible assumption
    | split
    | (with_reducible apply issue_grew)
    | with_reducible apply forEach_grew
    | with_reducible apply foldl_grew
    | (intro; intros; try dsimp only)
    | (simp only [noteCap_hide (M := butOut) rfl, onPwin_hide (M := butOut) rfl, readRows_hide (M := butOut) rfl rfl, rowFails_hide (M := butOut) rfl, implies_true, eq_self])

end Sys2Proof.Laws
end

