-- ==== Sys2Proof/Laws/TraceSettle.lean ====
section
/-!
SUPPORT. What Machine/Settle.lean defines only adds to what the block has sent out.
-/

namespace Sys2Proof.Laws

open Sys2Proof.Machine

variable {u : State}

theorem settleMember_grew (s : State) (w : PWin) (p : Pooled) (hs : Grew u (hide butOut s)) : Grew u (hide butOut (State.settleMember s w p).1) := by
  unfold State.settleMember
  try dsimp only
  repeat' first
    | with_reducible assumption
    | split
    | (with_reducible apply drained_grew)
    | with_reducible apply forEach_grew
    | with_reducible apply foldl_grew
    | (intro; intros; try dsimp only)
    | (simp only [endGather_hide (M := butOut) rfl, failGather_hide (M := butOut) rfl, holdDone_hide (M := butOut) rfl rfl rfl, prefetchEnd_hide (M := butOut) rfl, implies_true, eq_self])

theorem settleWin_grew (s : State) (wid : Nat) (hs : Grew u (hide butOut s)) : Grew u (hide butOut (State.settleWin s wid)) := by
  unfold State.settleWin
  try dsimp only
  repeat' first
    | with_reducible assumption
    | split
    | (with_reducible apply settleMember_grew)
    | with_reducible apply forEach_grew
    | with_reducible apply foldl_grew
    | (intro; intros; try dsimp only)
    | (simp only [onPwin_hide (M := butOut) rfl, tidyWins_hide (M := butOut) rfl rfl, forEach_hide, implies_true, eq_self])

theorem settleAll_grew (s : State) (hs : Grew u (hide butOut s)) : Grew u (hide butOut (State.settleAll s)) := by
  unfold State.settleAll
  try dsimp only
  repeat' first
    | with_reducible assumption
    | split
    | (with_reducible apply settleWin_grew)
    | with_reducible apply forEach_grew
    | with_reducible apply foldl_grew
    | (intro; intros; try dsimp only)
    | (simp only [forEach_hide, implies_true, eq_self])

theorem tileDrain_grew (s : State) (wid id pos tile : Nat) (fault : Option (Nat × BitVec 8)) (errs : Errs) (hs : Grew u (hide butOut s)) : Grew u (hide butOut (State.tileDrain s wid id pos tile fault errs)) := by
  unfold State.tileDrain
  try dsimp only
  repeat' first
    | with_reducible assumption
    | split
    | (with_reducible apply drainTile_grew)
    | (with_reducible apply settleAll_grew)
    | with_reducible apply forEach_grew
    | with_reducible apply foldl_grew
    | (intro; intros; try dsimp only)
    | (simp only [letTiles_hide (M := butOut) rfl rfl, spoilt_hide (M := butOut) rfl rfl rfl rfl, tellErrs_hide (M := butOut) rfl rfl, implies_true, eq_self])

theorem execTileDrain_grew (win id pos tile : Nat) (drain : TileEnd) (s : State) (t : State) (e : execTileDrain win id pos tile drain s = .next t) (hs : Grew u (hide butOut s)) : Grew u (hide butOut t) := by
  refine next_grew e ?_
  repeat' first
    | with_reducible assumption
    | split
    | (with_reducible apply tileDrain_grew)
    | with_reducible apply forEach_grew
    | with_reducible apply foldl_grew
    | (intro; intros; try dsimp only)
    | (simp only [implies_true, eq_self])

end Sys2Proof.Laws
end

