-- ==== Sys2Proof/Laws/TracePorts.lean ====
section
/-!
SUPPORT. What Machine/Ports.lean defines only adds to what the block has sent out.
-/

namespace Sys2Proof.Laws

open Sys2Proof.Machine

variable {u : State}

theorem loseFetch_grew (s : State) (wid : Nat) (a : Ask) (hs : Grew u (hide butOut s)) : Grew u (hide butOut (State.loseFetch s wid a)) := by
  unfold State.loseFetch
  try dsimp only
  repeat' first
    | with_reducible assumption
    | split
    | (with_reducible apply askRow_grew)
    | with_reducible apply forEach_grew
    | with_reducible apply foldl_grew
    | (intro; intros; try dsimp only)
    | (simp only [onPwin_hide (M := butOut) rfl, rowFails_hide (M := butOut) rfl, implies_true, eq_self])

theorem loseRows_grew (s : State) (p : Nat) (hs : Grew u (hide butOut s)) : Grew u (hide butOut (State.loseRows s p)) := by
  unfold State.loseRows
  try dsimp only
  repeat' first
    | with_reducible assumption
    | split
    | (with_reducible apply loseFetch_grew)
    | (with_reducible apply settleWin_grew)
    | with_reducible apply forEach_grew
    | with_reducible apply foldl_grew
    | (intro; intros; try dsimp only)
    | (simp only [forEach_hide, implies_true, eq_self])

theorem replayFree_grew (s : State) (hs : Grew u (hide butOut s)) : Grew u (hide butOut (State.replayFree s)) := by
  unfold State.replayFree
  try dsimp only
  repeat' first
    | with_reducible assumption
    | split
    | (with_reducible apply letIn_grew)
    | with_reducible apply forEach_grew
    | with_reducible apply foldl_grew
    | (intro; intros; try dsimp only)
    | (simp only [endLoad_hide (M := butOut) rfl rfl, replay_hide (M := butOut) rfl rfl, setDesc_hide (M := butOut) rfl, forEach_hide, implies_true, eq_self])

theorem losePort_grew (s : State) (p : Nat) (hs : Grew u (hide butOut s)) : Grew u (hide butOut (State.losePort s p)) := by
  unfold State.losePort
  try dsimp only
  repeat' first
    | with_reducible assumption
    | split
    | (with_reducible apply loseRows_grew)
    | with_reducible apply forEach_grew
    | with_reducible apply foldl_grew
    | (intro; intros; try dsimp only)
    | (simp only [forgetAsks_hide (M := butOut) rfl rfl, freeRingCmd_hide (M := butOut) rfl, markReplay_hide (M := butOut) rfl rfl rfl rfl rfl rfl rfl, onRing_hide (M := butOut) rfl, onFe_hide (M := butOut) rfl, onXl_hide (M := butOut) rfl, forEach_hide, implies_true, eq_self])

theorem linkDown_grew (s : State) (p : Nat) (hs : Grew u (hide butOut s)) : Grew u (hide butOut (State.linkDown s p)) := by
  unfold State.linkDown
  try dsimp only
  repeat' first
    | with_reducible assumption
    | split
    | (with_reducible apply losePort_grew)
    | (with_reducible apply replayFree_grew)
    | (with_reducible apply retryParked_grew)
    | with_reducible apply forEach_grew
    | with_reducible apply foldl_grew
    | (intro; intros; try dsimp only)
    | (simp only [onPw_hide (M := butOut) rfl, implies_true, eq_self])

theorem funcReset_grew (s : State) (p : Nat) (f : FnSetup) (hs : Grew u (hide butOut s)) : Grew u (hide butOut (State.funcReset s p f)) := by
  unfold State.funcReset
  try dsimp only
  repeat' first
    | with_reducible assumption
    | split
    | (with_reducible apply losePort_grew)
    | (with_reducible apply replayFree_grew)
    | (with_reducible apply retryParked_grew)
    | with_reducible apply forEach_grew
    | with_reducible apply foldl_grew
    | (intro; intros; try dsimp only)
    | (simp only [endSession_hide (M := butOut) rfl rfl, onPw_hide (M := butOut) rfl, implies_true, eq_self])

theorem hostRetrain_grew (s : State) (p : Nat) (q : Port) (hs : Grew u (hide butOut s)) : Grew u (hide butOut (State.hostRetrain s p q)) := by
  unfold State.hostRetrain
  try dsimp only
  repeat' first
    | with_reducible assumption
    | split
    | (with_reducible apply linkDown_grew)
    | with_reducible apply forEach_grew
    | with_reducible apply foldl_grew
    | (intro; intros; try dsimp only)
    | (simp only [noteTraining_hide (M := butOut) rfl, onPw_hide (M := butOut) rfl, implies_true, eq_self])

theorem hostTrain_grew (s : State) (p : Nat) (res : LinkRes) (hs : Grew u (hide butOut s)) : Grew u (hide butOut (State.hostTrain s p res)) := by
  unfold State.hostTrain
  try dsimp only
  repeat' first
    | with_reducible assumption
    | split
    | (with_reducible apply hostRetrain_grew)
    | (with_reducible apply replayFree_grew)
    | (with_reducible apply retryParked_grew)
    | with_reducible apply forEach_grew
    | with_reducible apply foldl_grew
    | (intro; intros; try dsimp only)
    | (simp only [noteTraining_hide (M := butOut) rfl, onPw_hide (M := butOut) rfl, implies_true, eq_self])

theorem execHostPortTraining_grew (port : Nat) (res : LinkRes) (s : State) (t : State) (e : execHostPortTraining port res s = .next t) (hs : Grew u (hide butOut s)) : Grew u (hide butOut t) := by
  refine next_grew e ?_
  repeat' first
    | with_reducible assumption
    | split
    | (with_reducible apply hostTrain_grew)
    | with_reducible apply forEach_grew
    | with_reducible apply foldl_grew
    | (intro; intros; try dsimp only)
    | (simp only [implies_true, eq_self])

theorem fabGrant_grew (s : State) (n : Nat) (hs : Grew u (hide butOut s)) : Grew u (hide butOut (State.fabGrant s n)) := by
  unfold State.fabGrant
  try dsimp only
  repeat' first
    | with_reducible assumption
    | split
    | (with_reducible apply sendAll_grew)
    | with_reducible apply forEach_grew
    | with_reducible apply foldl_grew
    | (intro; intros; try dsimp only)
    | (simp only [implies_true, eq_self])

theorem fabPresent_grew (s : State) (n : Nat) (hs : Grew u (hide butOut s)) : Grew u (hide butOut (State.fabPresent s n)) := by
  unfold State.fabPresent
  try dsimp only
  repeat' first
    | with_reducible assumption
    | split
    | (with_reducible apply fabGrant_grew)
    | (with_reducible apply fabPump_grew)
    | (with_reducible apply send_grew)
    | with_reducible apply forEach_grew
    | with_reducible apply foldl_grew
    | (intro; intros; try dsimp only)
    | (simp only [announce_hide (M := butOut) rfl, onPw_hide (M := butOut) rfl, forEach_hide, implies_true, eq_self])

theorem fabBegin_grew (s : State) (n oreq orsp : Nat) (hs : Grew u (hide butOut s)) : Grew u (hide butOut (State.fabBegin s n oreq orsp)) := by
  unfold State.fabBegin
  try dsimp only
  repeat' first
    | with_reducible assumption
    | split
    | (with_reducible apply fabPresent_grew)
    | (with_reducible apply send_grew)
    | with_reducible apply forEach_grew
    | with_reducible apply foldl_grew
    | (intro; intros; try dsimp only)
    | (simp only [onPw_hide (M := butOut) rfl, implies_true, eq_self])

theorem fabTrain_grew (s : State) (n : Nat) (node : BitVec 16) (oreq orsp : Nat) (hs : Grew u (hide butOut s)) : Grew u (hide butOut (State.fabTrain s n node oreq orsp)) := by
  unfold State.fabTrain
  try dsimp only
  repeat' first
    | with_reducible assumption
    | split
    | (with_reducible apply fabBegin_grew)
    | with_reducible apply forEach_grew
    | with_reducible apply foldl_grew
    | (intro; intros; try dsimp only)
    | (simp only [onPw_hide (M := butOut) rfl, implies_true, eq_self])

theorem execFabricPortTraining_grew (port : Nat) (link : FabLink) (s : State) (t : State) (e : execFabricPortTraining port link s = .next t) (hs : Grew u (hide butOut s)) : Grew u (hide butOut t) := by
  refine next_grew e ?_
  repeat' first
    | with_reducible assumption
    | split
    | (with_reducible apply fabTrain_grew)
    | with_reducible apply forEach_grew
    | with_reducible apply foldl_grew
    | (intro; intros; try dsimp only)
    | (simp only [implies_true, eq_self])

theorem fabDrain_grew (s : State) (n : Nat) (hs : Grew u (hide butOut s)) : Grew u (hide butOut (State.fabDrain s n)) := by
  unfold State.fabDrain
  try dsimp only
  repeat' first
    | with_reducible assumption
    | split
    | (with_reducible apply fabSettle_grew)
    | (with_reducible apply send_grew)
    | with_reducible apply forEach_grew
    | with_reducible apply foldl_grew
    | (intro; intros; try dsimp only)
    | (simp only [onPw_hide (M := butOut) rfl, implies_true, eq_self])

theorem execFabricPortDrain_grew (port : Nat) (s : State) (t : State) (e : execFabricPortDrain port s = .next t) (hs : Grew u (hide butOut s)) : Grew u (hide butOut t) := by
  refine next_grew e ?_
  repeat' first
    | with_reducible assumption
    | split
    | (with_reducible apply fabDrain_grew)
    | with_reducible apply forEach_grew
    | with_reducible apply foldl_grew
    | (intro; intros; try dsimp only)
    | (simp only [implies_true, eq_self])

theorem creditReturn_grew (s : State) (n : Nat) (resp : Bool) (k : Nat) (hs : Grew u (hide butOut s)) : Grew u (hide butOut (State.creditReturn s n resp k)) := by
  unfold State.creditReturn
  try dsimp only
  repeat' first
    | with_reducible assumption
    | split
    | (with_reducible apply fabPresent_grew)
    | (with_reducible apply fabPump_grew)
    | (with_reducible apply fabSettle_grew)
    | (with_reducible apply rspPump_grew)
    | with_reducible apply forEach_grew
    | with_reducible apply foldl_grew
    | (intro; intros; try dsimp only)
    | (simp only [onPw_hide (M := butOut) rfl, implies_true, eq_self])

end Sys2Proof.Laws
end

