-- ==== Sys2Proof/Laws/TraceReset.lean ====
section
/-!
SUPPORT. What Machine/Reset.lean defines only adds to what the block has sent out.
-/

namespace Sys2Proof.Laws

open Sys2Proof.Machine

variable {u : State}

theorem serveCh_grew (s : State) (f : Nat) (hs : Grew u (hide butOut s)) : Grew u (hide butOut (State.serveCh s f)) := by
  unfold State.serveCh
  try dsimp only
  repeat' first
    | with_reducible assumption
    | split
    | (with_reducible apply channelAction_grew)
    | (with_reducible apply loseChannel_grew)
    | (with_reducible apply switchCh_grew)
    | with_reducible apply forEach_grew
    | with_reducible apply foldl_grew
    | (intro; intros; try dsimp only)
    | (simp only [onPhys_hide (M := butOut) rfl, implies_true, eq_self])

theorem trainSpares_grew (s : State) (bad : List (Nat × TgRes)) (hs : Grew u (hide butOut s)) : Grew u (hide butOut (State.trainSpares s bad)) := by
  unfold State.trainSpares
  try dsimp only
  repeat' first
    | with_reducible assumption
    | split
    | (with_reducible apply serveCh_grew)
    | with_reducible apply forEach_grew
    | with_reducible apply foldl_grew
    | (intro; intros; try dsimp only)
    | (simp only [tellLines_hide (M := butOut) rfl, onGs_hide (M := butOut) rfl, forEach_hide, implies_true, eq_self])

theorem trainFab_grew (s : State) (su : Startup) (hs : Grew u (hide butOut s)) : Grew u (hide butOut (State.trainFab s su)) := by
  unfold State.trainFab
  try dsimp only
  repeat' first
    | with_reducible assumption
    | split
    | (with_reducible apply fabBegin_grew)
    | with_reducible apply forEach_grew
    | with_reducible apply foldl_grew
    | (intro; intros; try dsimp only)
    | (simp only [onPw_hide (M := butOut) rfl, forEach_hide, implies_true, eq_self])

theorem trainPorts_grew (s : State) (su : Startup) (hs : Grew u (hide butOut s)) : Grew u (hide butOut (State.trainPorts s su)) := by
  unfold State.trainPorts
  try dsimp only
  repeat' first
    | with_reducible assumption
    | split
    | (with_reducible apply trainFab_grew)
    | with_reducible apply forEach_grew
    | with_reducible apply foldl_grew
    | (intro; intros; try dsimp only)
    | (simp only [noteTraining_hide (M := butOut) rfl, onPw_hide (M := butOut) rfl, forEach_hide, implies_true, eq_self])

theorem goReady_grew (s : State) (su : Startup) (hs : Grew u (hide butOut s)) : Grew u (hide butOut (State.goReady s su)) := by
  unfold State.goReady
  try dsimp only
  repeat' first
    | with_reducible assumption
    | split
    | (with_reducible apply trainSpares_grew)
    | with_reducible apply forEach_grew
    | with_reducible apply foldl_grew
    | (intro; intros; try dsimp only)
    | (simp only [enterEmerg_hide (M := butOut) rfl, onPw_hide (M := butOut) rfl, implies_true, eq_self])

theorem stepEight_grew (s : State) (su : Startup) (hs : Grew u (hide butOut s)) : Grew u (hide butOut (State.stepEight s su)) := by
  unfold State.stepEight
  try dsimp only
  repeat' first
    | with_reducible assumption
    | split
    | (with_reducible apply goReady_grew)
    | (with_reducible apply send_grew)
    | (with_reducible apply sendAll_grew)
    | with_reducible apply forEach_grew
    | with_reducible apply foldl_grew
    | (intro; intros; try dsimp only)
    | (simp only [countN_hide (M := butOut) rfl, stuck_hide (M := butOut) rfl, onPw_hide (M := butOut) rfl, implies_true, eq_self])

theorem startRest_grew (s : State) (su : Startup) (hs : Grew u (hide butOut s)) : Grew u (hide butOut (State.startRest s su)) := by
  unfold State.startRest
  try dsimp only
  repeat' first
    | with_reducible assumption
    | split
    | (with_reducible apply stepEight_grew)
    | (with_reducible apply trainPorts_grew)
    | with_reducible apply forEach_grew
    | with_reducible apply foldl_grew
    | (intro; intros; try dsimp only)
    | (simp only [stuck_hide (M := butOut) rfl, trainGs_hide (M := butOut) rfl rfl, implies_true, eq_self])

theorem startOn_grew (s : State) (su : Startup) (hold : Bool) (hs : Grew u (hide butOut s)) : Grew u (hide butOut (State.startOn s su hold)) := by
  unfold State.startOn
  try dsimp only
  repeat' first
    | with_reducible assumption
    | split
    | (with_reducible apply startRest_grew)
    | with_reducible apply forEach_grew
    | with_reducible apply foldl_grew
    | (intro; intros; try dsimp only)
    | (simp only [bootFlash_hide (M := butOut) rfl rfl, startCores_hide (M := butOut) rfl rfl, stuck_hide (M := butOut) rfl, onPw_hide (M := butOut) rfl, onSt_hide (M := butOut) rfl, implies_true, eq_self])

theorem startUp_grew (s : State) (su : Startup) (hold : Bool) (hs : Grew u (hide butOut s)) : Grew u (hide butOut (State.startUp s su hold)) := by
  unfold State.startUp
  try dsimp only
  repeat' first
    | with_reducible assumption
    | split
    | (with_reducible apply startOn_grew)
    | with_reducible apply forEach_grew
    | with_reducible apply foldl_grew
    | (intro; intros; try dsimp only)
    | (simp only [stuck_hide (M := butOut) rfl, onPw_hide (M := butOut) rfl, implies_true, eq_self])

theorem blockReset_grew (s : State) (cause : Nat) (firmware : Bool) (su : Startup) (hs : Grew u (hide butOut s)) : Grew u (hide butOut (State.blockReset s cause firmware su)) := by
  unfold State.blockReset
  try dsimp only
  repeat' first
    | with_reducible assumption
    | split
    | (with_reducible apply startUp_grew)
    | with_reducible apply forEach_grew
    | with_reducible apply foldl_grew
    | (intro; intros; try dsimp only)
    | (simp only [cleared_hide (M := butOut) rfl rfl rfl rfl rfl rfl rfl rfl rfl rfl rfl rfl rfl rfl rfl rfl rfl rfl rfl rfl rfl rfl, onTel_hide (M := butOut) rfl, onPw_hide (M := butOut) rfl, implies_true, eq_self])

theorem powerOn_grew (s : State) (su : Startup) (hs : Grew u (hide butOut s)) : Grew u (hide butOut (State.powerOn s su)) := by
  unfold State.powerOn
  try dsimp only
  repeat' first
    | with_reducible assumption
    | split
    | (with_reducible apply startUp_grew)
    | with_reducible apply forEach_grew
    | with_reducible apply foldl_grew
    | (intro; intros; try dsimp only)
    | (simp only [cleared_hide (M := butOut) rfl rfl rfl rfl rfl rfl rfl rfl rfl rfl rfl rfl rfl rfl rfl rfl rfl rfl rfl rfl rfl rfl, onTel_hide (M := butOut) rfl, onPw_hide (M := butOut) rfl, implies_true, eq_self])

end Sys2Proof.Laws
end

