-- ==== Sys2Proof/Laws/TracePower.lean ====
section
/-!
SUPPORT. What Machine/Power.lean defines only adds to what the block has sent out.
-/

namespace Sys2Proof.Laws

open Sys2Proof.Machine

variable {u : State}

theorem enterState_grew (s : State) (t : Nat) (hs : Grew u (hide butOut s)) : Grew u (hide butOut (State.enterState s t)) := by
  unfold State.enterState
  try dsimp only
  repeat' first
    | with_reducible assumption
    | split
    | (with_reducible apply send_grew)
    | with_reducible apply forEach_grew
    | with_reducible apply foldl_grew
    | (intro; intros; try dsimp only)
    | (simp only [tell_hide (M := butOut) rfl, onPw_hide (M := butOut) rfl])

theorem reservedReq_grew (s : State) (hs : Grew u (hide butOut s)) : Grew u (hide butOut (State.reservedReq s)) := by
  unfold State.reservedReq
  try dsimp only
  repeat' first
    | with_reducible assumption
    | split
    | (with_reducible apply send_grew)
    | with_reducible apply forEach_grew
    | with_reducible apply foldl_grew
    | (intro; intros; try dsimp only)
    | (simp only [count_hide (M := butOut) rfl])

theorem serveState_grew (s : State) (target : Nat) (hs : Grew u (hide butOut s)) : Grew u (hide butOut (State.serveState s target)) := by
  unfold State.serveState
  try dsimp only
  repeat' first
    | with_reducible assumption
    | split
    | (with_reducible apply enterState_grew)
    | with_reducible apply forEach_grew
    | with_reducible apply foldl_grew
    | (intro; intros; try dsimp only)
    | (simp only [count_hide (M := butOut) rfl, onPw_hide (M := butOut) rfl])

theorem writeAll_grew (s : State) (fails : WbFails) (hs : Grew u (hide butOut s)) : Grew u (hide butOut (State.writeAll s fails)) := by
  unfold State.writeAll
  try dsimp only
  repeat' first
    | with_reducible assumption
    | split
    | (with_reducible apply writeBackRow_grew)
    | with_reducible apply forEach_grew
    | with_reducible apply foldl_grew
    | (intro; intros; try dsimp only)
    | (simp only [forEach_hide, implies_true, eq_self])

theorem enterOff_grew (s : State) (fails : WbFails) (hs : Grew u (hide butOut s)) : Grew u (hide butOut (State.enterOff s fails)) := by
  unfold State.enterOff
  try dsimp only
  repeat' first
    | with_reducible assumption
    | split
    | (with_reducible apply send_grew)
    | (with_reducible apply sendAll_grew)
    | (with_reducible apply writeAll_grew)
    | with_reducible apply forEach_grew
    | with_reducible apply foldl_grew
    | (intro; intros; try dsimp only)
    | (simp only [cleared_hide (M := butOut) rfl rfl rfl rfl rfl rfl rfl rfl rfl rfl rfl rfl rfl rfl rfl rfl rfl rfl rfl rfl rfl rfl, count_hide (M := butOut) rfl, logLost_hide (M := butOut) rfl, tell_hide (M := butOut) rfl, onTel_hide (M := butOut) rfl, onPw_hide (M := butOut) rfl, implies_true, eq_self])

theorem offEnd_grew (s : State) (hs : Grew u (hide butOut s)) : Grew u (hide butOut (State.offEnd s)) := by
  unfold State.offEnd
  try dsimp only
  repeat' first
    | with_reducible assumption
    | split
    | (with_reducible apply enterOff_grew)
    | with_reducible apply forEach_grew
    | with_reducible apply foldl_grew
    | (intro; intros; try dsimp only)
    | (simp only [implies_true, eq_self])

theorem goOff_grew (s : State) (fails : WbFails) (hs : Grew u (hide butOut s)) : Grew u (hide butOut (State.goOff s fails)) := by
  unfold State.goOff
  try dsimp only
  repeat' first
    | with_reducible assumption
    | split
    | (with_reducible apply fabDrain_grew)
    | (with_reducible apply offEnd_grew)
    | with_reducible apply forEach_grew
    | with_reducible apply foldl_grew
    | (intro; intros; try dsimp only)
    | (simp only [onPw_hide (M := butOut) rfl, forEach_hide, implies_true, eq_self])

theorem pmhRequest_grew (s : State) (target : Nat) (fails : WbFails) (hs : Grew u (hide butOut s)) : Grew u (hide butOut (State.pmhRequest s target fails)) := by
  unfold State.pmhRequest
  try dsimp only
  repeat' first
    | with_reducible assumption
    | split
    | (with_reducible apply goOff_grew)
    | (with_reducible apply reservedReq_grew)
    | (with_reducible apply serveState_grew)
    | with_reducible apply forEach_grew
    | with_reducible apply foldl_grew
    | (intro; intros; try dsimp only)
    | (simp only [onPw_hide (M := butOut) rfl, implies_true, eq_self])

theorem serveHeld_grew (s : State) (hs : Grew u (hide butOut s)) : Grew u (hide butOut (State.serveHeld s)) := by
  unfold State.serveHeld
  try dsimp only
  repeat' first
    | with_reducible assumption
    | split
    | (with_reducible apply pmhRequest_grew)
    | with_reducible apply forEach_grew
    | with_reducible apply foldl_grew
    | (intro; intros; try dsimp only)
    | (simp only [onPw_hide (M := butOut) rfl])

theorem afterStart_grew (s : State) (hs : Grew u (hide butOut s)) : Grew u (hide butOut (State.afterStart s)) := by
  unfold State.afterStart
  try dsimp only
  repeat' first
    | with_reducible assumption
    | split
    | (with_reducible apply serveHeld_grew)
    | with_reducible apply forEach_grew
    | with_reducible apply foldl_grew
    | (intro; intros; try dsimp only)
    | (simp only [implies_true, eq_self])

theorem endExchange_grew (s : State) (hs : Grew u (hide butOut s)) : Grew u (hide butOut (State.endExchange s)) := by
  unfold State.endExchange
  try dsimp only
  repeat' first
    | with_reducible assumption
    | split
    | (with_reducible apply enterState_grew)
    | (with_reducible apply fabSettle_grew)
    | (with_reducible apply offEnd_grew)
    | (with_reducible apply serveHeld_grew)
    | with_reducible apply forEach_grew
    | with_reducible apply foldl_grew
    | (intro; intros; try dsimp only)
    | (simp only [implies_true, eq_self])

theorem rest_grew (isOpen : Bool) (s : State) (hs : Grew u (hide butOut s)) : Grew u (hide butOut (State.rest isOpen s)) := by
  unfold State.rest
  try dsimp only
  repeat' first
    | with_reducible assumption
    | split
    | (with_reducible apply endExchange_grew)
    | with_reducible apply forEach_grew
    | with_reducible apply foldl_grew
    | (intro; intros; try dsimp only)
    | (simp only [implies_true, eq_self])

theorem pllFault_grew (s : State) (d : Nat) (su : Startup) (hs : Grew u (hide butOut s)) : Grew u (hide butOut (State.pllFault s d su)) := by
  unfold State.pllFault
  try dsimp only
  repeat' first
    | with_reducible assumption
    | split
    | (with_reducible apply afterStart_grew)
    | (with_reducible apply blockReset_grew)
    | with_reducible apply forEach_grew
    | with_reducible apply foldl_grew
    | (intro; intros; try dsimp only)
    | (simp only [logSensor_hide (M := butOut) rfl, spared_hide (M := butOut) rfl rfl, onPw_hide (M := butOut) rfl, implies_true, eq_self])

theorem execPllFault_grew (domain : Nat) (su : Startup) (s : State) (t : State) (e : execPllFault domain su s = .next t) (hs : Grew u (hide butOut s)) : Grew u (hide butOut t) := by
  refine next_grew e ?_
  repeat' first
    | with_reducible assumption
    | split
    | (with_reducible apply pllFault_grew)
    | with_reducible apply forEach_grew
    | with_reducible apply foldl_grew
    | (intro; intros; try dsimp only)
    | (simp only [implies_true, eq_self])

theorem referenceReturn_grew (s : State) (us : Nat) (hs : Grew u (hide butOut s)) : Grew u (hide butOut (State.referenceReturn s us)) := by
  unfold State.referenceReturn
  try dsimp only
  repeat' first
    | with_reducible assumption
    | split
    | (with_reducible apply afterStart_grew)
    | (with_reducible apply startOn_grew)
    | with_reducible apply forEach_grew
    | with_reducible apply foldl_grew
    | (intro; intros; try dsimp only)
    | (simp only [refGood_hide (M := butOut) rfl, tell_hide (M := butOut) rfl, onPw_hide (M := butOut) rfl, implies_true, eq_self])

theorem execReferenceReturn_grew (us : Nat) (s : State) (t : State) (e : execReferenceReturn us s = .next t) (hs : Grew u (hide butOut s)) : Grew u (hide butOut t) := by
  refine next_grew e ?_
  repeat' first
    | with_reducible assumption
    | split
    | (with_reducible apply referenceReturn_grew)
    | with_reducible apply forEach_grew
    | with_reducible apply foldl_grew
    | (intro; intros; try dsimp only)
    | (simp only [implies_true, eq_self])

theorem refLoss_grew (s : State) (su : Startup) (hs : Grew u (hide butOut s)) : Grew u (hide butOut (State.refLoss s su)) := by
  unfold State.refLoss
  try dsimp only
  repeat' first
    | with_reducible assumption
    | split
    | (with_reducible apply afterStart_grew)
    | (with_reducible apply blockReset_grew)
    | with_reducible apply forEach_grew
    | with_reducible apply foldl_grew
    | (intro; intros; try dsimp only)
    | (simp only [implies_true, eq_self])

theorem execRefLossTimeout_grew (su : Startup) (s : State) (t : State) (e : execRefLossTimeout su s = .next t) (hs : Grew u (hide butOut s)) : Grew u (hide butOut t) := by
  refine next_grew e ?_
  repeat' first
    | with_reducible assumption
    | split
    | (with_reducible apply refLoss_grew)
    | with_reducible apply forEach_grew
    | with_reducible apply foldl_grew
    | (intro; intros; try dsimp only)
    | (simp only [implies_true, eq_self])

theorem pllAon_grew (s : State) (locked : Bool) (us : Nat) (su : Startup) (hs : Grew u (hide butOut s)) : Grew u (hide butOut (State.pllAon s locked us su)) := by
  unfold State.pllAon
  try dsimp only
  repeat' first
    | with_reducible assumption
    | split
    | (with_reducible apply afterStart_grew)
    | (with_reducible apply startUp_grew)
    | with_reducible apply forEach_grew
    | with_reducible apply foldl_grew
    | (intro; intros; try dsimp only)
    | (simp only [cleared_hide (M := butOut) rfl rfl rfl rfl rfl rfl rfl rfl rfl rfl rfl rfl rfl rfl rfl rfl rfl rfl rfl rfl rfl rfl, shortBursts_hide (M := butOut) rfl, stuck_hide (M := butOut) rfl, tell_hide (M := butOut) rfl, onPw_hide (M := butOut) rfl, implies_true, eq_self])

theorem execPllAonFault_grew (locked : Bool) (us : Nat) (su : Startup) (s : State) (t : State) (e : execPllAonFault locked us su s = .next t) (hs : Grew u (hide butOut s)) : Grew u (hide butOut t) := by
  refine next_grew e ?_
  repeat' first
    | with_reducible assumption
    | split
    | (with_reducible apply pllAon_grew)
    | with_reducible apply forEach_grew
    | with_reducible apply foldl_grew
    | (intro; intros; try dsimp only)
    | (simp only [implies_true, eq_self])

theorem pmh_grew (s : State) (target : Nat) (fails : WbFails) (may : Nat → Bool) (hs : Grew u (hide butOut s)) : Grew u (hide butOut (State.pmh s target fails may)) := by
  unfold State.pmh
  try dsimp only
  repeat' first
    | with_reducible assumption
    | split
    | (with_reducible apply pmhRequest_grew)
    | (with_reducible apply serveHeld_grew)
    | with_reducible apply forEach_grew
    | with_reducible apply foldl_grew
    | (intro; intros; try dsimp only)
    | (simp only [onPw_hide (M := butOut) rfl, implies_true, eq_self])

theorem leaveOff_grew (s : State) (target : Nat) (su : Startup) (hs : Grew u (hide butOut s)) : Grew u (hide butOut (State.leaveOff s target su)) := by
  unfold State.leaveOff
  try dsimp only
  repeat' first
    | with_reducible assumption
    | split
    | (with_reducible apply afterStart_grew)
    | (with_reducible apply blockReset_grew)
    | (with_reducible apply pmhRequest_grew)
    | with_reducible apply forEach_grew
    | with_reducible apply foldl_grew
    | (intro; intros; try dsimp only)
    | (simp only [onPw_hide (M := butOut) rfl, implies_true, eq_self])

theorem raiseOff_grew (s : State) (target : Nat) (su : Startup) (hs : Grew u (hide butOut s)) : Grew u (hide butOut (State.raiseOff s target su)) := by
  unfold State.raiseOff
  try dsimp only
  repeat' first
    | with_reducible assumption
    | split
    | (with_reducible apply leaveOff_grew)
    | with_reducible apply forEach_grew
    | with_reducible apply foldl_grew
    | (intro; intros; try dsimp only)
    | (simp only [onPw_hide (M := butOut) rfl, implies_true, eq_self])

theorem execPmhRaise_grew (target : Nat) (su : Startup) (s : State) (t : State) (e : execPmhRaise target su s = .next t) (hs : Grew u (hide butOut s)) : Grew u (hide butOut t) := by
  refine next_grew e ?_
  repeat' first
    | with_reducible assumption
    | split
    | (with_reducible apply pmh_grew)
    | (with_reducible apply raiseOff_grew)
    | with_reducible apply forEach_grew
    | with_reducible apply foldl_grew
    | (intro; intros; try dsimp only)
    | (simp only [implies_true, eq_self])

theorem execPmhLower_grew (target : Nat) (s : State) (t : State) (e : execPmhLower target s = .next t) (hs : Grew u (hide butOut s)) : Grew u (hide butOut t) := by
  refine next_grew e ?_
  repeat' first
    | with_reducible assumption
    | split
    | (with_reducible apply pmh_grew)
    | with_reducible apply forEach_grew
    | with_reducible apply foldl_grew
    | (intro; intros; try dsimp only)

theorem execPmhEnterStandby_grew (s : State) (t : State) (e : execPmhEnterStandby s = .next t) (hs : Grew u (hide butOut s)) : Grew u (hide butOut t) := by
  refine next_grew e ?_
  repeat' first
    | with_reducible assumption
    | split
    | (with_reducible apply pmh_grew)
    | with_reducible apply forEach_grew
    | with_reducible apply foldl_grew
    | (intro; intros; try dsimp only)

theorem execPmhLeaveStandby_grew (target : Nat) (s : State) (t : State) (e : execPmhLeaveStandby target s = .next t) (hs : Grew u (hide butOut s)) : Grew u (hide butOut t) := by
  refine next_grew e ?_
  repeat' first
    | with_reducible assumption
    | split
    | (with_reducible apply pmh_grew)
    | with_reducible apply forEach_grew
    | with_reducible apply foldl_grew
    | (intro; intros; try dsimp only)

theorem execPmhOff_grew (fails : WbFails) (s : State) (t : State) (e : execPmhOff fails s = .next t) (hs : Grew u (hide butOut s)) : Grew u (hide butOut t) := by
  refine next_grew e ?_
  repeat' first
    | with_reducible assumption
    | split
    | (with_reducible apply pmh_grew)
    | with_reducible apply forEach_grew
    | with_reducible apply foldl_grew
    | (intro; intros; try dsimp only)
    | (simp only [implies_true, eq_self])

theorem execReservedStateRequest_grew (target : Nat) (s : State) (t : State) (e : execReservedStateRequest target s = .next t) (hs : Grew u (hide butOut s)) : Grew u (hide butOut t) := by
  refine next_grew e ?_
  repeat' first
    | with_reducible assumption
    | split
    | (with_reducible apply pmh_grew)
    | with_reducible apply forEach_grew
    | with_reducible apply foldl_grew
    | (intro; intros; try dsimp only)

theorem emergRelease_grew (s : State) (hs : Grew u (hide butOut s)) : Grew u (hide butOut (State.emergRelease s)) := by
  unfold State.emergRelease
  try dsimp only
  repeat' first
    | with_reducible assumption
    | split
    | (with_reducible apply afterStart_grew)
    | (with_reducible apply leaveOff_grew)
    | with_reducible apply forEach_grew
    | with_reducible apply foldl_grew
    | (intro; intros; try dsimp only)
    | (simp only [tell_hide (M := butOut) rfl, onPw_hide (M := butOut) rfl, implies_true, eq_self])

theorem execPmhEmergRelease_grew (s : State) (t : State) (e : execPmhEmergRelease s = .next t) (hs : Grew u (hide butOut s)) : Grew u (hide butOut t) := by
  refine next_grew e ?_
  repeat' first
    | with_reducible assumption
    | split
    | (with_reducible apply emergRelease_grew)
    | with_reducible apply forEach_grew
    | with_reducible apply foldl_grew
    | (intro; intros; try dsimp only)
    | (simp only [implies_true, eq_self])

theorem stepGrant_grew (s : State) (hs : Grew u (hide butOut s)) : Grew u (hide butOut (State.stepGrant s)) := by
  unfold State.stepGrant
  try dsimp only
  repeat' first
    | with_reducible assumption
    | split
    | (with_reducible apply afterStart_grew)
    | (with_reducible apply goReady_grew)
    | (with_reducible apply send_grew)
    | with_reducible apply forEach_grew
    | with_reducible apply foldl_grew
    | (intro; intros; try dsimp only)
    | (simp only [count_hide (M := butOut) rfl, onPw_hide (M := butOut) rfl, implies_true, eq_self])

theorem execPmhStepGnt_grew (s : State) (t : State) (e : execPmhStepGnt s = .next t) (hs : Grew u (hide butOut s)) : Grew u (hide butOut t) := by
  refine next_grew e ?_
  repeat' first
    | with_reducible assumption
    | split
    | (with_reducible apply stepGrant_grew)
    | with_reducible apply forEach_grew
    | with_reducible apply foldl_grew
    | (intro; intros; try dsimp only)
    | (simp only [implies_true, eq_self])

theorem execPowerGood_grew (su : Startup) (s : State) (t : State) (e : execPowerGood su s = .next t) (hs : Grew u (hide butOut s)) : Grew u (hide butOut t) := by
  refine next_grew e ?_
  repeat' first
    | with_reducible assumption
    | split
    | (with_reducible apply afterStart_grew)
    | (with_reducible apply powerOn_grew)
    | with_reducible apply forEach_grew
    | with_reducible apply foldl_grew
    | (intro; intros; try dsimp only)
    | (simp only [onPw_hide (M := butOut) rfl, implies_true, eq_self])

theorem resetBlock_grew (s : State) (p : Path) (su : Startup) (hs : Grew u (hide butOut s)) : Grew u (hide butOut (State.resetBlock s p su)) := by
  unfold State.resetBlock
  try dsimp only
  repeat' first
    | with_reducible assumption
    | split
    | (with_reducible apply afterStart_grew)
    | (with_reducible apply blockReset_grew)
    | (with_reducible apply shutOut_grew)
    | with_reducible apply forEach_grew
    | with_reducible apply foldl_grew
    | (intro; intros; try dsimp only)
    | (simp only [auditReg_hide (M := butOut) rfl rfl, denyWrite_hide (M := butOut) rfl rfl, ignoreWrite_hide (M := butOut) rfl, implies_true, eq_self])

theorem execBlockResetCmd_grew (p : Path) (su : Startup) (s : State) (t : State) (e : execBlockResetCmd p su s = .next t) (hs : Grew u (hide butOut s)) : Grew u (hide butOut t) := by
  refine next_grew e ?_
  repeat' first
    | with_reducible assumption
    | split
    | (with_reducible apply resetBlock_grew)
    | with_reducible apply forEach_grew
    | with_reducible apply foldl_grew
    | (intro; intros; try dsimp only)
    | (simp only [implies_true, eq_self])

theorem thermalSample_grew (s : State) (temps : List Nat) (su : Startup) (hs : Grew u (hide butOut s)) : Grew u (hide butOut (State.thermalSample s temps su)) := by
  unfold State.thermalSample
  try dsimp only
  repeat' first
    | with_reducible assumption
    | split
    | (with_reducible apply afterStart_grew)
    | (with_reducible apply startUp_grew)
    | with_reducible apply forEach_grew
    | with_reducible apply foldl_grew
    | (intro; intros; try dsimp only)
    | (simp only [groupSample_hide (M := butOut) rfl rfl, logSensor_hide (M := butOut) rfl, trip_hide (M := butOut) rfl rfl rfl rfl rfl rfl rfl rfl rfl rfl rfl rfl rfl rfl rfl rfl rfl rfl rfl rfl rfl rfl, onPw_hide (M := butOut) rfl, onSt_hide (M := butOut) rfl, forEach_hide, implies_true, eq_self])

theorem execThermalSample_grew (temps : List Nat) (su : Startup) (s : State) (t : State) (e : execThermalSample temps su s = .next t) (hs : Grew u (hide butOut s)) : Grew u (hide butOut t) := by
  refine next_grew e ?_
  repeat' first
    | with_reducible assumption
    | split
    | (with_reducible apply thermalSample_grew)
    | with_reducible apply forEach_grew
    | with_reducible apply foldl_grew
    | (intro; intros; try dsimp only)
    | (simp only [implies_true, eq_self])

end Sys2Proof.Laws
end

