-- ==== Sys2Proof/Laws/TraceCores.lean ====
section
/-!
SUPPORT. What Machine/Cores.lean defines only adds to what the block has sent out.
-/

namespace Sys2Proof.Laws

open Sys2Proof.Machine

variable {u : State}

theorem roleBack_grew (s : State) (r : Nat) (hs : Grew u (hide butOut s)) : Grew u (hide butOut (State.roleBack s r)) := by
  unfold State.roleBack
  try dsimp only
  repeat' first
    | with_reducible assumption
    | split
    | (with_reducible apply authDrain_grew)
    | (with_reducible apply runDue_grew)
    | with_reducible apply forEach_grew
    | with_reducible apply foldl_grew
    | (intro; intros; try dsimp only)
    | (simp only [handAudits_hide (M := butOut) rfl rfl, tell_hide (M := butOut) rfl, onTel_hide (M := butOut) rfl, implies_true, eq_self])

theorem resumeCore_grew (s : State) (k cause : Nat) (hs : Grew u (hide butOut s)) : Grew u (hide butOut (State.resumeCore s k cause)) := by
  unfold State.resumeCore
  try dsimp only
  repeat' first
    | with_reducible assumption
    | split
    | (with_reducible apply roleBack_grew)
    | with_reducible apply forEach_grew
    | with_reducible apply foldl_grew
    | (intro; intros; try dsimp only)
    | (simp only [setCore_hide (M := butOut) rfl, tell_hide (M := butOut) rfl, implies_true, eq_self])

theorem spareCore_grew (s : State) (k r cause : Nat) (hs : Grew u (hide butOut s)) : Grew u (hide butOut (State.spareCore s k r cause)) := by
  unfold State.spareCore
  try dsimp only
  repeat' first
    | with_reducible assumption
    | split
    | (with_reducible apply roleBack_grew)
    | with_reducible apply forEach_grew
    | with_reducible apply foldl_grew
    | (intro; intros; try dsimp only)
    | (simp only [auditHw_hide (M := butOut) rfl rfl, setCore_hide (M := butOut) rfl, tell_hide (M := butOut) rfl, onSt_hide (M := butOut) rfl, implies_true, eq_self])

theorem retireCore_grew (s : State) (k cause : Nat) (hs : Grew u (hide butOut s)) : Grew u (hide butOut (State.retireCore s k cause)) := by
  unfold State.retireCore
  try dsimp only
  repeat' first
    | with_reducible assumption
    | split
    | (with_reducible apply spareCore_grew)
    | with_reducible apply forEach_grew
    | with_reducible apply foldl_grew
    | (intro; intros; try dsimp only)
    | (simp only [dropRole_hide (M := butOut) rfl rfl rfl, logRetired_hide (M := butOut) rfl, setCore_hide (M := butOut) rfl, implies_true, eq_self])

theorem cycleCore_grew (s : State) (k cause : Nat) (pc : Word64) (hs : Grew u (hide butOut s)) : Grew u (hide butOut (State.cycleCore s k cause pc)) := by
  unfold State.cycleCore
  try dsimp only
  repeat' first
    | with_reducible assumption
    | split
    | (with_reducible apply resumeCore_grew)
    | (with_reducible apply retireCore_grew)
    | with_reducible apply forEach_grew
    | with_reducible apply foldl_grew
    | (intro; intros; try dsimp only)
    | (simp only [haltCore_hide (M := butOut) rfl rfl, implies_true, eq_self])

theorem restartCore_grew (s : State) (k cause : Nat) (pc : Word64) (restarted : Bool) (su : Startup) (hs : Grew u (hide butOut s)) : Grew u (hide butOut (State.restartCore s k cause pc restarted su)) := by
  unfold State.restartCore
  try dsimp only
  repeat' first
    | with_reducible assumption
    | split
    | (with_reducible apply afterStart_grew)
    | (with_reducible apply blockReset_grew)
    | (with_reducible apply cycleCore_grew)
    | with_reducible apply forEach_grew
    | with_reducible apply foldl_grew
    | (intro; intros; try dsimp only)
    | (simp only [haltCore_hide (M := butOut) rfl rfl, implies_true, eq_self])

theorem execCoreWatchdogExpiry_grew (core : Nat) (pc : Word64) (restarted : Bool) (su : Startup) (s : State) (t : State) (e : execCoreWatchdogExpiry core pc restarted su s = .next t) (hs : Grew u (hide butOut s)) : Grew u (hide butOut t) := by
  refine next_grew e ?_
  repeat' first
    | with_reducible assumption
    | split
    | (with_reducible apply restartCore_grew)
    | with_reducible apply forEach_grew
    | with_reducible apply foldl_grew
    | (intro; intros; try dsimp only)
    | (simp only [implies_true, eq_self])

theorem execMpuFault_grew (core : Nat) (hit : MpuHit) (restarted : Bool) (su : Startup) (s : State) (t : State) (e : execMpuFault core hit restarted su s = .next t) (hs : Grew u (hide butOut s)) : Grew u (hide butOut t) := by
  refine next_grew e ?_
  repeat' first
    | with_reducible assumption
    | split
    | (with_reducible apply restartCore_grew)
    | with_reducible apply forEach_grew
    | with_reducible apply foldl_grew
    | (intro; intros; try dsimp only)
    | (simp only [count_hide (M := butOut) rfl, implies_true, eq_self])

theorem execDoubleFault_grew (core : Nat) (pc : Word64) (restarted : Bool) (su : Startup) (s : State) (t : State) (e : execDoubleFault core pc restarted su s = .next t) (hs : Grew u (hide butOut s)) : Grew u (hide butOut t) := by
  refine next_grew e ?_
  repeat' first
    | with_reducible assumption
    | split
    | (with_reducible apply restartCore_grew)
    | with_reducible apply forEach_grew
    | with_reducible apply foldl_grew
    | (intro; intros; try dsimp only)
    | (simp only [implies_true, eq_self])

end Sys2Proof.Laws
end

