-- ==== Sys2Proof/Laws/TraceCouch.lean ====
section
/-!
SUPPORT. What Machine/Couch.lean defines only adds to what the block has sent out.
-/

namespace Sys2Proof.Laws

open Sys2Proof.Machine

variable {u : State}

theorem update_grew (s : State) (id mode : Nat) (run : State → Desc → Table → State) (h_run : ∀ (x0 : State) (x1 : Desc) (x2 : Table), Grew u (hide butOut x0) → Grew u (hide butOut (run x0 x1 x2))) (hs : Grew u (hide butOut s)) : Grew u (hide butOut (State.update s id mode run)) := by
  unfold State.update
  try dsimp only
  repeat' first
    | with_reducible assumption
    | split
    | (with_reducible apply h_run)
    | with_reducible apply forEach_grew
    | with_reducible apply foldl_grew
    | (intro; intros; try dsimp only)
    | (simp only [endDesc_hide (M := butOut) rfl])

theorem flushVers_grew (s : State) (id h : Nat) (t : Table) (fails : List RowFail) (y0 : List Version) (hs : Grew u (hide butOut s)) : Grew u (hide butOut (State.flushVers s id h t fails y0).1) := by
  induction y0 generalizing s with
  | nil => exact hs
  | cons v l ih =>
    rw [State.flushVers]
    refine ih _ ?_
    split
    · rw [flushNs_hide (M := butOut) rfl]
      exact flushRows_grew _ _ _ _ _ _ hs
    · exact flushRows_grew _ _ _ _ _ _ hs

theorem flushTable_grew (s : State) (d : Desc) (t : Table) (fails : List RowFail) (hs : Grew u (hide butOut s)) : Grew u (hide butOut (State.flushTable s d t fails)) := by
  unfold State.flushTable
  try dsimp only
  repeat' first
    | with_reducible assumption
    | split
    | (with_reducible apply flushVers_grew)
    | with_reducible apply forEach_grew
    | with_reducible apply foldl_grew
    | (intro; intros; try dsimp only)
    | (simp only [endDesc_hide (M := butOut) rfl, endOk_hide (M := butOut) rfl, fillWait_hide (M := butOut) rfl, implies_true, eq_self])

theorem execFlush_grew (id : Nat) (fails : List RowFail) (s : State) (t : State) (e : execFlush id fails s = .next t) (hs : Grew u (hide butOut s)) : Grew u (hide butOut t) := by
  refine next_grew e ?_
  repeat' first
    | with_reducible assumption
    | split
    | (with_reducible apply flushTable_grew)
    | (with_reducible apply update_grew)
    | with_reducible apply forEach_grew
    | with_reducible apply foldl_grew
    | (intro; intros; try dsimp only)
    | (simp only [implies_true, eq_self])

theorem writeThrough_grew (s : State) (t : Table) (v : Version) (k : Key) (b : Bytes) (res : Tried) (hs : Grew u (hide butOut s)) : Grew u (hide butOut (State.writeThrough s t v k b res).1) := by
  unfold State.writeThrough
  try dsimp only
  repeat' first
    | with_reducible assumption
    | split
    | (with_reducible apply readBlock_grew)
    | (with_reducible apply send_grew)
    | (with_reducible apply wholeCmd_grew)
    | with_reducible apply forEach_grew
    | with_reducible apply foldl_grew
    | (intro; intros; try dsimp only)
    | (simp only [count_hide (M := butOut) rfl, countN_hide (M := butOut) rfl, implies_true, eq_self])

theorem rmwThrough_grew (s : State) (a : Apply) (t : Table) (k : Key) (ver : Nat) (e : Entry) (old : Bytes) (fails : WbFails) (hs : Grew u (hide butOut s)) : Grew u (hide butOut (State.rmwThrough s a t k ver e old fails)) := by
  unfold State.rmwThrough
  try dsimp only
  repeat' first
    | with_reducible assumption
    | split
    | (with_reducible apply writeThrough_grew)
    | with_reducible apply forEach_grew
    | with_reducible apply foldl_grew
    | (intro; intros; try dsimp only)
    | (simp only [notePillow_hide (M := butOut) rfl rfl, rmwWaits_hide (M := butOut) rfl rfl, rowWritten_hide (M := butOut) rfl rfl rfl, forEach_hide, implies_true, eq_self])

theorem rmwWrite_grew (s : State) (a : Apply) (t : Table) (k : Key) (ver : Nat) (old : Bytes) (fails : WbFails) (hs : Grew u (hide butOut s)) : Grew u (hide butOut (State.rmwWrite s a t k ver old fails)) := by
  unfold State.rmwWrite
  try dsimp only
  repeat' first
    | with_reducible assumption
    | split
    | (with_reducible apply admitForced_grew)
    | (with_reducible apply bringIn_grew)
    | (with_reducible apply rmwThrough_grew)
    | with_reducible apply forEach_grew
    | with_reducible apply foldl_grew
    | (intro; intros; try dsimp only)
    | (simp only [addTwinN_hide (M := butOut) rfl, count_hide (M := butOut) rfl, loseRow_hide (M := butOut) rfl rfl rfl, markDirty_hide (M := butOut) rfl rfl rfl rfl, mend_hide (M := butOut) rfl rfl rfl rfl, noteMaster_hide (M := butOut) rfl rfl rfl, notePillow_hide (M := butOut) rfl rfl, putTwin_hide (M := butOut) rfl rfl rfl, rmwWaits_hide (M := butOut) rfl rfl, rowLeaves_hide (M := butOut) rfl rfl, rowWritten_hide (M := butOut) rfl rfl rfl, writeMaster_hide (M := butOut) rfl rfl rfl rfl, writeReads_hide (M := butOut) rfl rfl rfl rfl, forEach_hide, implies_true, eq_self])

theorem rmwRow_grew (s : State) (a : Apply) (t : Table) (v : Version) (k : Key) (src : RowSrc) (expired : Bool) (fails : WbFails) (hs : Grew u (hide butOut s)) : Grew u (hide butOut (State.rmwRow s a t v k src expired fails)) := by
  unfold State.rmwRow
  try dsimp only
  repeat' first
    | with_reducible assumption
    | split
    | (with_reducible apply readBacking_grew)
    | (with_reducible apply readRow_grew)
    | (with_reducible apply rmwWrite_grew)
    | with_reducible apply forEach_grew
    | with_reducible apply foldl_grew
    | (intro; intros; try dsimp only)
    | (simp only [loseRow_hide (M := butOut) rfl rfl rfl, implies_true, eq_self])

theorem couchingRmw_grew (s : State) (h ver row : Nat) (src : RowSrc) (expired : Bool) (fails : WbFails) (errs : Errs) (hs : Grew u (hide butOut s)) : Grew u (hide butOut (State.couchingRmw s h ver row src expired fails errs)) := by
  unfold State.couchingRmw
  try dsimp only
  repeat' first
    | with_reducible assumption
    | split
    | (with_reducible apply rmwRow_grew)
    | with_reducible apply forEach_grew
    | with_reducible apply foldl_grew
    | (intro; intros; try dsimp only)
    | (simp only [rmwErrs_hide (M := butOut) rfl rfl, implies_true, eq_self])

theorem execCouchingRmw_grew (tbl ver row : Nat) (src : Arrival) (fails : WbFails) (s : State) (t : State) (e : execCouchingRmw tbl ver row src fails s = .next t) (hs : Grew u (hide butOut s)) : Grew u (hide butOut t) := by
  refine next_grew e ?_
  repeat' first
    | with_reducible assumption
    | split
    | (with_reducible apply couchingRmw_grew)
    | with_reducible apply forEach_grew
    | with_reducible apply foldl_grew
    | (intro; intros; try dsimp only)
    | (simp only [implies_true, eq_self])

theorem execTier2RmwRetry_grew (tbl ver row : Nat) (src : RowSrc) (expired : Bool) (fails : WbFails) (s : State) (t : State) (e : execTier2RmwRetry tbl ver row src expired fails s = .next t) (hs : Grew u (hide butOut s)) : Grew u (hide butOut t) := by
  refine next_grew e ?_
  repeat' first
    | with_reducible assumption
    | split
    | (with_reducible apply couchingRmw_grew)
    | with_reducible apply forEach_grew
    | with_reducible apply foldl_grew
    | (intro; intros; try dsimp only)
    | (simp only [implies_true, eq_self])

theorem rmwAgain_grew (s : State) (h ver row : Nat) (way : Bool) (fails : WbFails) (hs : Grew u (hide butOut s)) : Grew u (hide butOut (State.rmwAgain s h ver row way fails)) := by
  unfold State.rmwAgain
  try dsimp only
  repeat' first
    | with_reducible assumption
    | split
    | (with_reducible apply rmwWrite_grew)
    | with_reducible apply forEach_grew
    | with_reducible apply foldl_grew
    | (intro; intros; try dsimp only)
    | (simp only [endRmwWait_hide (M := butOut) rfl, loseRow_hide (M := butOut) rfl rfl rfl, implies_true, eq_self])

theorem execTwinSpaceGrant_grew (tbl ver row : Nat) (fails : WbFails) (s : State) (t : State) (e : execTwinSpaceGrant tbl ver row fails s = .next t) (hs : Grew u (hide butOut s)) : Grew u (hide butOut t) := by
  refine next_grew e ?_
  repeat' first
    | with_reducible assumption
    | split
    | (with_reducible apply rmwAgain_grew)
    | with_reducible apply forEach_grew
    | with_reducible apply foldl_grew
    | (intro; intros; try dsimp only)
    | (simp only [implies_true, eq_self])

theorem execCacheWayGrant_grew (tbl ver row : Nat) (fails : WbFails) (s : State) (t : State) (e : execCacheWayGrant tbl ver row fails s = .next t) (hs : Grew u (hide butOut s)) : Grew u (hide butOut t) := by
  refine next_grew e ?_
  repeat' first
    | with_reducible assumption
    | split
    | (with_reducible apply rmwAgain_grew)
    | with_reducible apply forEach_grew
    | with_reducible apply foldl_grew
    | (intro; intros; try dsimp only)
    | (simp only [implies_true, eq_self])

theorem writeBackOne_grew (s : State) (h ver row : Nat) (res : Tried) (hs : Grew u (hide butOut s)) : Grew u (hide butOut (State.writeBackOne s h ver row res)) := by
  unfold State.writeBackOne
  try dsimp only
  repeat' first
    | with_reducible assumption
    | split
    | (with_reducible apply writeBackRow_grew)
    | with_reducible apply forEach_grew
    | with_reducible apply foldl_grew
    | (intro; intros; try dsimp only)
    | (simp only [implies_true, eq_self])

theorem execWbAgeExpiry_grew (tbl ver row : Nat) (res : Tried) (s : State) (t : State) (e : execWbAgeExpiry tbl ver row res s = .next t) (hs : Grew u (hide butOut s)) : Grew u (hide butOut t) := by
  refine next_grew e ?_
  repeat' first
    | with_reducible assumption
    | split
    | (with_reducible apply writeBackOne_grew)
    | with_reducible apply forEach_grew
    | with_reducible apply foldl_grew
    | (intro; intros; try dsimp only)
    | (simp only [implies_true, eq_self])

theorem execWriteBack_grew (tbl ver row : Nat) (res : Tried) (s : State) (t : State) (e : execWriteBack tbl ver row res s = .next t) (hs : Grew u (hide butOut s)) : Grew u (hide butOut t) := by
  refine next_grew e ?_
  repeat' first
    | with_reducible assumption
    | split
    | (with_reducible apply writeBackOne_grew)
    | with_reducible apply forEach_grew
    | with_reducible apply foldl_grew
    | (intro; intros; try dsimp only)
    | (simp only [implies_true, eq_self])

theorem optSel_grew (s : State) (p : Path) (off size : Nat) (val : Word64) (hs : Grew u (hide butOut s)) : Grew u (hide butOut (State.optSel s p off size val)) := by
  unfold State.optSel
  try dsimp only
  repeat' first
    | with_reducible assumption
    | split
    | (with_reducible apply regWrite_grew)
    | with_reducible apply forEach_grew
    | with_reducible apply foldl_grew
    | (intro; intros; try dsimp only)
    | (simp only [onUp_hide (M := butOut) rfl, put_optSel_hide (M := butOut) rfl, implies_true, eq_self])

theorem execCommit_grew (p : Path) (val : Word64) (s : State) (t : State) (e : execCommit p val s = .next t) (hs : Grew u (hide butOut s)) : Grew u (hide butOut t) := by
  refine next_grew e ?_
  repeat' first
    | with_reducible assumption
    | split
    | (with_reducible apply optSel_grew)
    | with_reducible apply forEach_grew
    | with_reducible apply foldl_grew
    | (intro; intros; try dsimp only)
    | (simp only [implies_true, eq_self])

end Sys2Proof.Laws
end

