-- ==== Sys2Proof/Laws/TraceVersions.lean ====
section
/-!
SUPPORT. What Machine/Versions.lean defines only adds to what the block has sent out.
-/

namespace Sys2Proof.Laws

open Sys2Proof.Machine

variable {u : State}

theorem retireWrite_grew (s : State) (h : Nat) (t : Table) (v : Version) (fails : List RowFail) (hs : Grew u (hide butOut s)) : Grew u (hide butOut (State.retireWrite s h t v fails)) := by
  unfold State.retireWrite
  try dsimp only
  repeat' first
    | with_reducible assumption
    | split
    | (with_reducible apply flushRows_grew)
    | with_reducible apply forEach_grew
    | with_reducible apply foldl_grew
    | (intro; intros; try dsimp only)
    | (simp only [countEvict_hide (M := butOut) rfl, flushNs_hide (M := butOut) rfl, onVersion_hide (M := butOut) rfl, implies_true, eq_self])

theorem retire_grew (s : State) (h ver : Nat) (fails : List RowFail) (hs : Grew u (hide butOut s)) : Grew u (hide butOut (State.retire s h ver fails)) := by
  unfold State.retire
  try dsimp only
  repeat' first
    | with_reducible assumption
    | split
    | (with_reducible apply retireWrite_grew)
    | with_reducible apply forEach_grew
    | with_reducible apply foldl_grew
    | (intro; intros; try dsimp only)
    | (simp only [onVersion_hide (M := butOut) rfl, retireEnd_hide (M := butOut) rfl rfl rfl rfl, sweep_hide (M := butOut) rfl rfl rfl rfl rfl, implies_true, eq_self])

theorem execRetirement_grew (tbl ver : Nat) (fails : List RowFail) (s : State) (t : State) (e : execRetirement tbl ver fails s = .next t) (hs : Grew u (hide butOut s)) : Grew u (hide butOut t) := by
  refine next_grew e ?_
  repeat' first
    | with_reducible assumption
    | split
    | (with_reducible apply retire_grew)
    | with_reducible apply forEach_grew
    | with_reducible apply foldl_grew
    | (intro; intros; try dsimp only)
    | (simp only [implies_true, eq_self])

theorem execRetireRetry_grew (tbl ver : Nat) (fails : List RowFail) (s : State) (t : State) (e : execRetireRetry tbl ver fails s = .next t) (hs : Grew u (hide butOut s)) : Grew u (hide butOut t) := by
  refine next_grew e ?_
  repeat' first
    | with_reducible assumption
    | split
    | (with_reducible apply retire_grew)
    | (with_reducible apply retireWrite_grew)
    | with_reducible apply forEach_grew
    | with_reducible apply foldl_grew
    | (intro; intros; try dsimp only)
    | (simp only [implies_true, eq_self])

theorem rewriteWay_grew (s : State) (w : Way) (g : Grade) (b : Bytes) (fails : WbFails) (hs : Grew u (hide butOut s)) : Grew u (hide butOut (State.rewriteWay s w g b fails).1) := by
  unfold State.rewriteWay
  try dsimp only
  repeat' first
    | with_reducible assumption
    | split
    | (with_reducible apply takeSlot_grew)
    | with_reducible apply forEach_grew
    | with_reducible apply foldl_grew
    | (intro; intros; try dsimp only)
    | (simp only [markHead_hide (M := butOut) rfl rfl rfl, putWay_hide (M := butOut) rfl, writeSlot_hide (M := butOut) rfl rfl rfl, implies_true, eq_self])

theorem rewriteWays_grew (s : State) (g : Grade) (b : Bytes) (fails : WbFails) (y0 : List Way) (hs : Grew u (hide butOut s)) : Grew u (hide butOut (State.rewriteWays s g b fails y0).1) := by
  revert hs
  fun_induction State.rewriteWays s g b fails y0
  all_goals
    intro hs
    repeat' first
      | with_reducible assumption
      | split
      | (with_reducible apply rewriteWay_grew)
      | (with_reducible apply_assumption)
      | with_reducible apply forEach_grew
      | with_reducible apply foldl_grew
      | (intro; intros; try dsimp only)
      | (simp +zetaDelta only [implies_true, eq_self])

theorem regradeSrc_grew (s : State) (t : Table) (v : Version) (k : Key) (w : Way) (src : RowSrc) (hs : Grew u (hide butOut s)) : Grew u (hide butOut (State.regradeSrc s t v k w src).1) := by
  unfold State.regradeSrc
  try dsimp only
  repeat' first
    | with_reducible assumption
    | split
    | (with_reducible apply readRow_grew)
    | with_reducible apply forEach_grew
    | with_reducible apply foldl_grew
    | (intro; intros; try dsimp only)
    | (simp only [noteMaster_hide (M := butOut) rfl rfl rfl, readCopy_hide (M := butOut) rfl rfl rfl, touchHead_hide (M := butOut) rfl rfl rfl, implies_true, eq_self])

theorem regradeTo_grew (s : State) (t : Table) (k : Key) (ver : Nat) (g old : Grade) (record : Bytes) (fails : WbFails) (hs : Grew u (hide butOut s)) : Grew u (hide butOut (State.regradeTo s t k ver g old record fails)) := by
  unfold State.regradeTo
  try dsimp only
  repeat' first
    | with_reducible assumption
    | split
    | (with_reducible apply placeCopy_grew)
    | (with_reducible apply rewriteWays_grew)
    | with_reducible apply forEach_grew
    | with_reducible apply foldl_grew
    | (intro; intros; try dsimp only)
    | (simp only [count_hide (M := butOut) rfl, dropWays_hide (M := butOut) rfl rfl rfl, encCopy_hide (M := butOut) rfl, regradeStop_hide (M := butOut) rfl, implies_true, eq_self])

theorem regradeRow_grew (s : State) (k : Key) (ver : Nat) (src : RowSrc) (fails : WbFails) (hs : Grew u (hide butOut s)) : Grew u (hide butOut (State.regradeRow s k ver src fails)) := by
  unfold State.regradeRow
  try dsimp only
  repeat' first
    | with_reducible assumption
    | split
    | (with_reducible apply regradeSrc_grew)
    | (with_reducible apply regradeTo_grew)
    | (with_reducible apply writeBackRow_grew)
    | with_reducible apply forEach_grew
    | with_reducible apply foldl_grew
    | (intro; intros; try dsimp only)
    | (simp only [count_hide (M := butOut) rfl, dropRow_hide (M := butOut) rfl rfl rfl rfl rfl, intoBand_hide (M := butOut) rfl, regradeStop_hide (M := butOut) rfl, setBand_hide (M := butOut) rfl, onTb_hide (M := butOut) rfl, implies_true, eq_self])

theorem execRegrade_grew (tbl ver row : Nat) (src : RowSrc) (fails : WbFails) (s : State) (t : State) (e : execRegrade tbl ver row src fails s = .next t) (hs : Grew u (hide butOut s)) : Grew u (hide butOut t) := by
  refine next_grew e ?_
  repeat' first
    | with_reducible assumption
    | split
    | (with_reducible apply regradeRow_grew)
    | with_reducible apply forEach_grew
    | with_reducible apply foldl_grew
    | (intro; intros; try dsimp only)
    | (simp only [implies_true, eq_self])

end Sys2Proof.Laws
end

