-- ==== Sys2Proof/Laws/TraceDrives.lean ====
section
/-!
SUPPORT. What Machine/Drives.lean defines only adds to what the block has sent out.
-/

namespace Sys2Proof.Laws

open Sys2Proof.Machine

variable {u : State}

theorem slotGrant_grew (s : State) (d : Nat) (hs : Grew u (hide butOut s)) : Grew u (hide butOut (State.slotGrant s d)) := by
  unfold State.slotGrant
  try dsimp only
  repeat' first
    | with_reducible assumption
    | split
    | (with_reducible apply submit_grew)
    | with_reducible apply forEach_grew
    | with_reducible apply foldl_grew
    | (intro; intros; try dsimp only)
    | (simp only [count_hide (M := butOut) rfl, onCmd_hide (M := butOut) rfl, onDrive_hide (M := butOut) rfl, implies_true, eq_self])

theorem execNvmeSlotGrant_grew (drive : Nat) (s : State) (t : State) (e : execNvmeSlotGrant drive s = .next t) (hs : Grew u (hide butOut s)) : Grew u (hide butOut t) := by
  refine next_grew e ?_
  repeat' first
    | with_reducible assumption
    | split
    | (with_reducible apply slotGrant_grew)
    | with_reducible apply forEach_grew
    | with_reducible apply foldl_grew
    | (intro; intros; try dsimp only)
    | (simp only [implies_true, eq_self])

theorem failRows_grew (s : State) (c : NvCmd) (st : BitVec 8) (hs : Grew u (hide butOut s)) : Grew u (hide butOut (State.failRows s c st)) := by
  unfold State.failRows
  try dsimp only
  repeat' first
    | with_reducible assumption
    | split
    | (with_reducible apply retire_grew)
    | (with_reducible apply settleWin_grew)
    | with_reducible apply forEach_grew
    | with_reducible apply foldl_grew
    | (intro; intros; try dsimp only)
    | (simp only [cmdEnds_hide (M := butOut) rfl rfl, failRow_hide (M := butOut) rfl rfl rfl rfl, freeLanded_hide (M := butOut) rfl, onDesc_hide (M := butOut) rfl, forEach_hide, implies_true, eq_self])

theorem readDone_grew (s : State) (c : NvCmd) (data : Bytes) (hs : Grew u (hide butOut s)) : Grew u (hide butOut (State.readDone s c data)) := by
  unfold State.readDone
  try dsimp only
  repeat' first
    | with_reducible assumption
    | split
    | (with_reducible apply retire_grew)
    | with_reducible apply forEach_grew
    | with_reducible apply foldl_grew
    | (intro; intros; try dsimp only)
    | (simp only [endCmd_hide (M := butOut) rfl, freeLanded_hide (M := butOut) rfl, landBlocks_hide (M := butOut) rfl rfl rfl, onVersion_hide (M := butOut) rfl, tell_hide (M := butOut) rfl, writeDone_hide (M := butOut) rfl rfl rfl rfl, implies_true, eq_self])

theorem readFail_grew (s : State) (c : NvCmd) (hs : Grew u (hide butOut s)) : Grew u (hide butOut (State.readFail s c)) := by
  unfold State.readFail
  try dsimp only
  repeat' first
    | with_reducible assumption
    | split
    | (with_reducible apply failRows_grew)
    | with_reducible apply forEach_grew
    | with_reducible apply foldl_grew
    | (intro; intros; try dsimp only)
    | (simp only [endCmd_hide (M := butOut) rfl, tell_hide (M := butOut) rfl, implies_true, eq_self])

theorem createQueues_grew (s : State) (d n size : Nat) (hs : Grew u (hide butOut s)) : Grew u (hide butOut (State.createQueues s d n size)) := by
  unfold State.createQueues
  try dsimp only
  repeat' first
    | with_reducible assumption
    | split
    | (with_reducible apply send_grew)
    | (with_reducible apply sendAll_grew)
    | with_reducible apply forEach_grew
    | with_reducible apply foldl_grew
    | (intro; intros; try dsimp only)
    | (simp only [implies_true, eq_self])

theorem deleteQueues_grew (s : State) (d : Nat) (hs : Grew u (hide butOut s)) : Grew u (hide butOut (State.deleteQueues s d)) := by
  unfold State.deleteQueues
  try dsimp only
  repeat' first
    | with_reducible assumption
    | split
    | (with_reducible apply sendAll_grew)
    | with_reducible apply forEach_grew
    | with_reducible apply foldl_grew
    | (intro; intros; try dsimp only)
    | (simp only [implies_true, eq_self])

theorem failDrive_grew (s : State) (d : Nat) (hs : Grew u (hide butOut s)) : Grew u (hide butOut (State.failDrive s d)) := by
  unfold State.failDrive
  try dsimp only
  repeat' first
    | with_reducible assumption
    | split
    | (with_reducible apply failRows_grew)
    | with_reducible apply forEach_grew
    | with_reducible apply foldl_grew
    | (intro; intros; try dsimp only)
    | (simp only [dropCmd_hide (M := butOut) rfl rfl, endCmd_hide (M := butOut) rfl, tell_hide (M := butOut) rfl, forEach_hide, implies_true, eq_self])

theorem failOut_grew (s : State) (d : Nat) (hs : Grew u (hide butOut s)) : Grew u (hide butOut (State.failOut s d)) := by
  unfold State.failOut
  try dsimp only
  repeat' first
    | with_reducible assumption
    | split
    | (with_reducible apply failRows_grew)
    | with_reducible apply forEach_grew
    | with_reducible apply foldl_grew
    | (intro; intros; try dsimp only)
    | (simp only [endCmd_hide (M := butOut) rfl, onCmd_hide (M := butOut) rfl, tell_hide (M := butOut) rfl, forEach_hide, implies_true, eq_self])

theorem resetDrive_grew (s : State) (d : Nat) (hs : Grew u (hide butOut s)) : Grew u (hide butOut (State.resetDrive s d)) := by
  unfold State.resetDrive
  try dsimp only
  repeat' first
    | with_reducible assumption
    | split
    | (with_reducible apply failOut_grew)
    | with_reducible apply forEach_grew
    | with_reducible apply foldl_grew
    | (intro; intros; try dsimp only)
    | (simp only [count_hide (M := butOut) rfl, onDrive_hide (M := butOut) rfl, implies_true, eq_self])

theorem driveDown_grew (s : State) (d : Nat) (hs : Grew u (hide butOut s)) : Grew u (hide butOut (State.driveDown s d)) := by
  unfold State.driveDown
  try dsimp only
  repeat' first
    | with_reducible assumption
    | split
    | (with_reducible apply failDrive_grew)
    | with_reducible apply forEach_grew
    | with_reducible apply foldl_grew
    | (intro; intros; try dsimp only)
    | (simp only [onDrive_hide (M := butOut) rfl, tell_hide (M := butOut) rfl, implies_true, eq_self])

theorem execDriveRemoval_grew (drive : Nat) (s : State) (t : State) (e : execDriveRemoval drive s = .next t) (hs : Grew u (hide butOut s)) : Grew u (hide butOut t) := by
  refine next_grew e ?_
  repeat' first
    | with_reducible assumption
    | split
    | (with_reducible apply driveDown_grew)
    | with_reducible apply forEach_grew
    | with_reducible apply foldl_grew
    | (intro; intros; try dsimp only)
    | (simp only [implies_true, eq_self])

theorem resetDone_grew (s : State) (d : Nat) (ok : Bool) (hs : Grew u (hide butOut s)) : Grew u (hide butOut (State.resetDone s d ok)) := by
  unfold State.resetDone
  try dsimp only
  repeat' first
    | with_reducible assumption
    | split
    | (with_reducible apply createQueues_grew)
    | (with_reducible apply driveDown_grew)
    | with_reducible apply forEach_grew
    | with_reducible apply foldl_grew
    | (intro; intros; try dsimp only)
    | (simp only [count_hide (M := butOut) rfl, dropOut_hide (M := butOut) rfl rfl, onDrive_hide (M := butOut) rfl, tell_hide (M := butOut) rfl, implies_true, eq_self])

theorem execControllerResetComplete_grew (drive : Nat) (ok : Bool) (s : State) (t : State) (e : execControllerResetComplete drive ok s = .next t) (hs : Grew u (hide butOut s)) : Grew u (hide butOut t) := by
  refine next_grew e ?_
  repeat' first
    | with_reducible assumption
    | split
    | (with_reducible apply resetDone_grew)
    | with_reducible apply forEach_grew
    | with_reducible apply foldl_grew
    | (intro; intros; try dsimp only)
    | (simp only [implies_true, eq_self])

theorem nvmeDone_grew (s : State) (d tag : Nat) (res : NvmeOutcome) (data : Bytes) (hs : Grew u (hide butOut s)) : Grew u (hide butOut (State.nvmeDone s d tag res data)) := by
  unfold State.nvmeDone
  try dsimp only
  repeat' first
    | with_reducible assumption
    | split
    | (with_reducible apply readDone_grew)
    | (with_reducible apply readFail_grew)
    | (with_reducible apply resetDrive_grew)
    | (with_reducible apply submit_grew)
    | with_reducible apply forEach_grew
    | with_reducible apply foldl_grew
    | (intro; intros; try dsimp only)
    | (simp only [count_hide (M := butOut) rfl, dropCmd_hide (M := butOut) rfl rfl, onCmd_hide (M := butOut) rfl, implies_true, eq_self])

theorem execNvmeCompletion_grew (drive tag : Nat) (res : NvmeOutcome) (data : Bytes) (s : State) (t : State) (e : execNvmeCompletion drive tag res data s = .next t) (hs : Grew u (hide butOut s)) : Grew u (hide butOut t) := by
  refine next_grew e ?_
  repeat' first
    | with_reducible assumption
    | split
    | (with_reducible apply nvmeDone_grew)
    | with_reducible apply forEach_grew
    | with_reducible apply foldl_grew
    | (intro; intros; try dsimp only)
    | (simp only [implies_true, eq_self])

theorem cmdTimeout_grew (s : State) (d tag : Nat) (hs : Grew u (hide butOut s)) : Grew u (hide butOut (State.cmdTimeout s d tag)) := by
  unfold State.cmdTimeout
  try dsimp only
  repeat' first
    | with_reducible assumption
    | split
    | (with_reducible apply failRows_grew)
    | (with_reducible apply sendAbort_grew)
    | with_reducible apply forEach_grew
    | with_reducible apply foldl_grew
    | (intro; intros; try dsimp only)
    | (simp only [count_hide (M := butOut) rfl, onCmd_hide (M := butOut) rfl, tell_hide (M := butOut) rfl, implies_true, eq_self])

theorem execNvmeCmdTimeout_grew (drive tag : Nat) (s : State) (t : State) (e : execNvmeCmdTimeout drive tag s = .next t) (hs : Grew u (hide butOut s)) : Grew u (hide butOut t) := by
  refine next_grew e ?_
  repeat' first
    | with_reducible assumption
    | split
    | (with_reducible apply cmdTimeout_grew)
    | with_reducible apply forEach_grew
    | with_reducible apply foldl_grew
    | (intro; intros; try dsimp only)
    | (simp only [implies_true, eq_self])

theorem abortTimeout_grew (s : State) (d tag : Nat) (hs : Grew u (hide butOut s)) : Grew u (hide butOut (State.abortTimeout s d tag)) := by
  unfold State.abortTimeout
  try dsimp only
  repeat' first
    | with_reducible assumption
    | split
    | (with_reducible apply resetDrive_grew)
    | with_reducible apply forEach_grew
    | with_reducible apply foldl_grew
    | (intro; intros; try dsimp only)
    | (simp only [implies_true, eq_self])

theorem execAbortTimeout_grew (drive tag : Nat) (s : State) (t : State) (e : execAbortTimeout drive tag s = .next t) (hs : Grew u (hide butOut s)) : Grew u (hide butOut t) := by
  refine next_grew e ?_
  repeat' first
    | with_reducible assumption
    | split
    | (with_reducible apply abortTimeout_grew)
    | with_reducible apply forEach_grew
    | with_reducible apply foldl_grew
    | (intro; intros; try dsimp only)
    | (simp only [implies_true, eq_self])

theorem identify_grew (s : State) (d : Nat) (i : DriveInfo) (hs : Grew u (hide butOut s)) : Grew u (hide butOut (State.identify s d i)) := by
  unfold State.identify
  try dsimp only
  repeat' first
    | with_reducible assumption
    | split
    | (with_reducible apply send_grew)
    | (with_reducible apply sendAll_grew)
    | with_reducible apply forEach_grew
    | with_reducible apply foldl_grew
    | (intro; intros; try dsimp only)
    | (simp only [implies_true, eq_self])

theorem attach_grew (s0 : State) (d : Nat) (i : DriveInfo) (hs : Grew u (hide butOut s0)) : Grew u (hide butOut (State.attach s0 d i)) := by
  unfold State.attach
  try dsimp only
  repeat' first
    | with_reducible assumption
    | split
    | (with_reducible apply createQueues_grew)
    | (with_reducible apply identify_grew)
    | with_reducible apply forEach_grew
    | with_reducible apply foldl_grew
    | (intro; intros; try dsimp only)
    | (simp only [attachNs_hide (M := butOut) rfl rfl, onDrive_hide (M := butOut) rfl, tell_hide (M := butOut) rfl, forEach_hide, implies_true, eq_self])

theorem execAutoAttach_grew (drive : Nat) (info : DriveInfo) (s : State) (t : State) (e : execAutoAttach drive info s = .next t) (hs : Grew u (hide butOut s)) : Grew u (hide butOut t) := by
  refine next_grew e ?_
  repeat' first
    | with_reducible assumption
    | split
    | (with_reducible apply attach_grew)
    | with_reducible apply forEach_grew
    | with_reducible apply foldl_grew
    | (intro; intros; try dsimp only)
    | (simp only [implies_true, eq_self])

end Sys2Proof.Laws
end

