-- ==== Sys2Proof/Laws/TraceFetch.lean ====
section
/-!
SUPPORT. What Machine/Fetch.lean defines only adds to what the block has sent out.
-/

namespace Sys2Proof.Laws

open Sys2Proof.Machine

variable {u : State}

theorem needRow_grew (s : State) (wid : Nat) (bad : List (Key × Nat)) (n : Need) (hs : Grew u (hide butOut s)) : Grew u (hide butOut (State.needRow s wid bad n)) := by
  unfold State.needRow
  try dsimp only
  repeat' first
    | with_reducible assumption
    | split
    | (with_reducible apply askRow_grew)
    | with_reducible apply forEach_grew
    | with_reducible apply foldl_grew
    | (intro; intros; try dsimp only)
    | (simp only [count_hide (M := butOut) rfl, noteScratch_hide (M := butOut) rfl rfl, tell_hide (M := butOut) rfl, implies_true, eq_self])

theorem roundStart_grew (s : State) (wid : Nat) (bad : List (Key × Nat)) (hs : Grew u (hide butOut s)) : Grew u (hide butOut (State.roundStart s wid bad)) := by
  unfold State.roundStart
  try dsimp only
  repeat' first
    | with_reducible assumption
    | split
    | (with_reducible apply needRow_grew)
    | (with_reducible apply settleWin_grew)
    | with_reducible apply forEach_grew
    | with_reducible apply foldl_grew
    | (intro; intros; try dsimp only)
    | (simp only [countN_hide (M := butOut) rfl, letTiles_hide (M := butOut) rfl rfl, onPwin_hide (M := butOut) rfl, spoolBad_hide (M := butOut) rfl rfl, forEach_hide, implies_true, eq_self])

theorem execRoundStart_grew (r : RoundBegin) (s : State) (t : State) (e : execRoundStart r s = .next t) (hs : Grew u (hide butOut s)) : Grew u (hide butOut t) := by
  refine next_grew e ?_
  repeat' first
    | with_reducible assumption
    | split
    | (with_reducible apply roundStart_grew)
    | with_reducible apply forEach_grew
    | with_reducible apply foldl_grew
    | (intro; intros; try dsimp only)
    | (simp only [implies_true, eq_self])

theorem bobbinGrant_grew (s : State) (wid : Nat) (k : Key) (ver : Nat) (hs : Grew u (hide butOut s)) : Grew u (hide butOut (State.bobbinGrant s wid k ver)) := by
  unfold State.bobbinGrant
  try dsimp only
  repeat' first
    | with_reducible assumption
    | split
    | (with_reducible apply issue_grew)
    | (with_reducible apply settleWin_grew)
    | with_reducible apply forEach_grew
    | with_reducible apply foldl_grew
    | (intro; intros; try dsimp only)
    | (simp only [noteCap_hide (M := butOut) rfl, onPwin_hide (M := butOut) rfl, rowFails_hide (M := butOut) rfl, implies_true, eq_self])

theorem execBobbinGrant_grew (win : Nat) (key : Key) (ver : Nat) (s : State) (t : State) (e : execBobbinGrant win key ver s = .next t) (hs : Grew u (hide butOut s)) : Grew u (hide butOut t) := by
  refine next_grew e ?_
  repeat' first
    | with_reducible assumption
    | split
    | (with_reducible apply bobbinGrant_grew)
    | with_reducible apply forEach_grew
    | with_reducible apply foldl_grew
    | (intro; intros; try dsimp only)
    | (simp only [implies_true, eq_self])

theorem admitRow_grew (s : State) (t : Table) (w : PWin) (a : Ask) (record : Bytes) (fails : WbFails) (hs : Grew u (hide butOut s)) : Grew u (hide butOut (State.admitRow s t w a record fails)) := by
  unfold State.admitRow
  try dsimp only
  repeat' first
    | with_reducible assumption
    | split
    | (with_reducible apply admitForced_grew)
    | (with_reducible apply admitLookup_grew)
    | with_reducible apply forEach_grew
    | with_reducible apply foldl_grew
    | (intro; intros; try dsimp only)
    | (simp only [mend_hide (M := butOut) rfl rfl rfl rfl, implies_true, eq_self])

theorem backingRow_grew (s : State) (wid : Nat) (t : Table) (v : Version) (k : Key) (src : RowSrc) (hs : Grew u (hide butOut s)) : Grew u (hide butOut (State.backingRow s wid t v k src).1) := by
  unfold State.backingRow
  try dsimp only
  repeat' first
    | with_reducible assumption
    | split
    | (with_reducible apply readRow_grew)
    | with_reducible apply forEach_grew
    | with_reducible apply foldl_grew
    | (intro; intros; try dsimp only)
    | (simp only [implies_true, eq_self])

theorem rowDelivery_grew (s : State) (wid : Nat) (k : Key) (ver : Nat) (src : RowSrc) (fails : WbFails) (errs : Errs) (hs : Grew u (hide butOut s)) : Grew u (hide butOut (State.rowDelivery s wid k ver src fails errs)) := by
  unfold State.rowDelivery
  try dsimp only
  repeat' first
    | with_reducible assumption
    | split
    | (with_reducible apply admitRow_grew)
    | (with_reducible apply backingRow_grew)
    | (with_reducible apply settleWin_grew)
    | with_reducible apply forEach_grew
    | with_reducible apply foldl_grew
    | (intro; intros; try dsimp only)
    | (simp only [beatErrs_hide (M := butOut) rfl rfl, endRead_hide (M := butOut) rfl rfl rfl rfl, failRow_hide (M := butOut) rfl rfl rfl rfl, fetchAgain_hide (M := butOut) rfl, freeLanded_hide (M := butOut) rfl, landErrs_hide (M := butOut) rfl rfl rfl, onPwin_hide (M := butOut) rfl, rowFails_hide (M := butOut) rfl, stageRow_hide (M := butOut) rfl rfl rfl, implies_true, eq_self])

theorem execRowDelivery_grew (win : Nat) (key : Key) (ver : Nat) (src : Arrival) (fails : WbFails) (s : State) (t : State) (e : execRowDelivery win key ver src fails s = .next t) (hs : Grew u (hide butOut s)) : Grew u (hide butOut t) := by
  refine next_grew e ?_
  repeat' first
    | with_reducible assumption
    | split
    | (with_reducible apply rowDelivery_grew)
    | with_reducible apply forEach_grew
    | with_reducible apply foldl_grew
    | (intro; intros; try dsimp only)
    | (simp only [implies_true, eq_self])

end Sys2Proof.Laws
end

