-- ==== Sys2Proof/Laws/TraceFirmware.lean ====
section
/-!
SUPPORT. What Machine/Firmware.lean defines only adds to what the block has sent out.
-/

namespace Sys2Proof.Laws

open Sys2Proof.Machine

variable {u : State}

theorem moveCore_grew (s : State) (k : Nat) (hs : Grew u (hide butOut s)) : Grew u (hide butOut (State.moveCore s k)) := by
  unfold State.moveCore
  try dsimp only
  repeat' first
    | with_reducible assumption
    | split
    | (with_reducible apply cycleCore_grew)
    | with_reducible apply forEach_grew
    | with_reducible apply foldl_grew
    | (intro; intros; try dsimp only)
    | (simp only [freePc_hide (M := butOut) rfl, implies_true, eq_self])

theorem moveCores_grew (s : State) (hs : Grew u (hide butOut s)) : Grew u (hide butOut (State.moveCores s)) := by
  unfold State.moveCores
  try dsimp only
  repeat' first
    | with_reducible assumption
    | split
    | (with_reducible apply moveCore_grew)
    | with_reducible apply forEach_grew
    | with_reducible apply foldl_grew
    | (intro; intros; try dsimp only)
    | (simp only [forEach_hide, implies_true, eq_self])

theorem runActivation_grew (s : State) (hs : Grew u (hide butOut s)) : Grew u (hide butOut (State.runActivation s)) := by
  unfold State.runActivation
  try dsimp only
  repeat' first
    | with_reducible assumption
    | split
    | (with_reducible apply moveCores_grew)
    | with_reducible apply forEach_grew
    | with_reducible apply foldl_grew
    | (intro; intros; try dsimp only)
    | (simp only [onSt_hide (M := butOut) rfl, implies_true, eq_self])

theorem activate_grew (s : State) (sigOk : Bool) (hs : Grew u (hide butOut s)) : Grew u (hide butOut (State.activate s sigOk).1) := by
  unfold State.activate
  try dsimp only
  repeat' first
    | with_reducible assumption
    | split
    | (with_reducible apply runActivation_grew)
    | with_reducible apply forEach_grew
    | with_reducible apply foldl_grew
    | (intro; intros; try dsimp only)
    | (simp only [onSt_hide (M := butOut) rfl, implies_true, eq_self])

theorem revert_grew (s : State) (aseq : Option Nat) (hs : Grew u (hide butOut s)) : Grew u (hide butOut (State.revert s aseq)) := by
  unfold State.revert
  try dsimp only
  repeat' first
    | with_reducible assumption
    | split
    | (with_reducible apply moveCores_grew)
    | with_reducible apply forEach_grew
    | with_reducible apply foldl_grew
    | (intro; intros; try dsimp only)
    | (simp only [tell_hide (M := butOut) rfl, onSt_hide (M := butOut) rfl, implies_true, eq_self])

theorem healthWatch_grew (s : State) (healthy : Bool) (hs : Grew u (hide butOut s)) : Grew u (hide butOut (State.healthWatch s healthy)) := by
  unfold State.healthWatch
  try dsimp only
  repeat' first
    | with_reducible assumption
    | split
    | (with_reducible apply revert_grew)
    | with_reducible apply forEach_grew
    | with_reducible apply foldl_grew
    | (intro; intros; try dsimp only)
    | (simp only [auditHw_hide (M := butOut) rfl rfl, tell_hide (M := butOut) rfl, onSt_hide (M := butOut) rfl, implies_true, eq_self])

theorem execActivationHealthWatch_grew (healthy : Bool) (s : State) (t : State) (e : execActivationHealthWatch healthy s = .next t) (hs : Grew u (hide butOut s)) : Grew u (hide butOut t) := by
  refine next_grew e ?_
  repeat' first
    | with_reducible assumption
    | split
    | (with_reducible apply healthWatch_grew)
    | with_reducible apply forEach_grew
    | with_reducible apply foldl_grew
    | (intro; intros; try dsimp only)
    | (simp only [implies_true, eq_self])

theorem startHeld_grew (s : State) (kind : Nat) (sigOk : Bool) (hs : Grew u (hide butOut s)) : Grew u (hide butOut (State.startHeld s kind sigOk)) := by
  unfold State.startHeld
  try dsimp only
  repeat' first
    | with_reducible assumption
    | split
    | (with_reducible apply activate_grew)
    | with_reducible apply forEach_grew
    | with_reducible apply foldl_grew
    | (intro; intros; try dsimp only)
    | (simp only [auditAdd_hide (M := butOut) rfl rfl, auditHw_hide (M := butOut) rfl rfl, commitTrial_hide (M := butOut) rfl rfl, implies_true, eq_self])

theorem deferEnd_grew (s : State) (sigOk : Bool) (hs : Grew u (hide butOut s)) : Grew u (hide butOut (State.deferEnd s sigOk)) := by
  unfold State.deferEnd
  try dsimp only
  repeat' first
    | with_reducible assumption
    | split
    | (with_reducible apply startHeld_grew)
    | with_reducible apply forEach_grew
    | with_reducible apply foldl_grew
    | (intro; intros; try dsimp only)
    | (simp only [abandonFw_hide (M := butOut) rfl rfl, implies_true, eq_self])

theorem execActivationDeferEnd_grew (sigOk : Bool) (s : State) (t : State) (e : execActivationDeferEnd sigOk s = .next t) (hs : Grew u (hide butOut s)) : Grew u (hide butOut t) := by
  refine next_grew e ?_
  repeat' first
    | with_reducible assumption
    | split
    | (with_reducible apply deferEnd_grew)
    | with_reducible apply forEach_grew
    | with_reducible apply foldl_grew
    | (intro; intros; try dsimp only)
    | (simp only [implies_true, eq_self])

end Sys2Proof.Laws
end

