-- ==== Sys2Proof/Laws/TraceFlow.lean ====
section
/-!
SUPPORT. What Machine/Flow.lean defines only adds to what the block has sent out.
-/

namespace Sys2Proof.Laws

open Sys2Proof.Machine

variable {u : State}

theorem cntCmd_grew (s : State) (p : Path) (op : Nat) (val : Word64) (run : State → Bool → Nat → State) (h_run : ∀ (x0 : State) (x1 : Bool) (x2 : Nat), Grew u (hide butOut x0) → Grew u (hide butOut (run x0 x1 x2))) (hs : Grew u (hide butOut s)) : Grew u (hide butOut (State.cntCmd s p op val run)) := by
  unfold State.cntCmd
  try dsimp only
  repeat' first
    | with_reducible assumption
    | split
    | (with_reducible apply command_grew)
    | (with_reducible apply h_run)
    | with_reducible apply forEach_grew
    | with_reducible apply foldl_grew
    | (intro; intros; try dsimp only)
    | (simp only [put_cntCmd_hide (M := butOut) rfl, implies_true, eq_self])

theorem cntDone_grew (s : State) (p : Path) (result : Nat) (hs : Grew u (hide butOut s)) : Grew u (hide butOut (State.cntDone s p result)) := by
  unfold State.cntDone
  try dsimp only
  repeat' first
    | with_reducible assumption
    | split
    | (with_reducible apply cntCmd_grew)
    | with_reducible apply forEach_grew
    | with_reducible apply foldl_grew
    | (intro; intros; try dsimp only)
    | (simp only [finish_hide (M := butOut), put_cntCmd_hide (M := butOut) rfl, implies_true, eq_self])

theorem counterClear_grew (s : State) (p : Path) (val : Word64) (hs : Grew u (hide butOut s)) : Grew u (hide butOut (State.counterClear s p val)) := by
  unfold State.counterClear
  try dsimp only
  repeat' first
    | with_reducible assumption
    | split
    | (with_reducible apply cntCmd_grew)
    | (with_reducible apply cntDone_grew)
    | with_reducible apply forEach_grew
    | with_reducible apply foldl_grew
    | (intro; intros; try dsimp only)
    | (simp only [onTel_hide (M := butOut) rfl, implies_true, eq_self])

theorem execCounterClear_grew (p : Path) (val : Word64) (s : State) (t : State) (e : execCounterClear p val s = .next t) (hs : Grew u (hide butOut s)) : Grew u (hide butOut t) := by
  refine next_grew e ?_
  repeat' first
    | with_reducible assumption
    | split
    | (with_reducible apply counterClear_grew)
    | with_reducible apply forEach_grew
    | with_reducible apply foldl_grew
    | (intro; intros; try dsimp only)
    | (simp only [implies_true, eq_self])

theorem counterSubtract_grew (s : State) (p : Path) (val : Word64) (hs : Grew u (hide butOut s)) : Grew u (hide butOut (State.counterSubtract s p val)) := by
  unfold State.counterSubtract
  try dsimp only
  repeat' first
    | with_reducible assumption
    | split
    | (with_reducible apply cntCmd_grew)
    | (with_reducible apply cntDone_grew)
    | with_reducible apply forEach_grew
    | with_reducible apply foldl_grew
    | (intro; intros; try dsimp only)
    | (simp only [setCounter_hide (M := butOut) rfl, implies_true, eq_self])

theorem execSubtract_grew (p : Path) (val : Word64) (s : State) (t : State) (e : execSubtract p val s = .next t) (hs : Grew u (hide butOut s)) : Grew u (hide butOut t) := by
  refine next_grew e ?_
  repeat' first
    | with_reducible assumption
    | split
    | (with_reducible apply counterSubtract_grew)
    | with_reducible apply forEach_grew
    | with_reducible apply foldl_grew
    | (intro; intros; try dsimp only)
    | (simp only [implies_true, eq_self])

end Sys2Proof.Laws
end

