-- ==== Sys2Proof/Laws/TraceFrontEnd.lean ====
section
/-!
SUPPORT. What Machine/FrontEnd.lean defines only adds to what the block has sent out.
-/

namespace Sys2Proof.Laws

open Sys2Proof.Machine

variable {u : State}

theorem readSlots_grew (s : State) (k i n : Nat) (hs : Grew u (hide butOut s)) : Grew u (hide butOut (State.readSlots s k i n)) := by
  unfold State.readSlots
  try dsimp only
  repeat' first
    | with_reducible assumption
    | split
    | (with_reducible apply fabSendAll_grew)
    | (with_reducible apply sendAll_grew)
    | with_reducible apply forEach_grew
    | with_reducible apply foldl_grew
    | (intro; intros; try dsimp only)
    | (simp only [implies_true, eq_self])

theorem ringTurn_grew (s : State) (k : Nat) (hs : Grew u (hide butOut s)) : Grew u (hide butOut (State.ringTurn s k)) := by
  unfold State.ringTurn
  try dsimp only
  repeat' first
    | with_reducible assumption
    | split
    | (with_reducible apply readSlots_grew)
    | with_reducible apply forEach_grew
    | with_reducible apply foldl_grew
    | (intro; intros; try dsimp only)
    | (simp only [setRing_hide (M := butOut) rfl, onFe_hide (M := butOut) rfl, implies_true, eq_self])

theorem execRingTurn_grew (ring : Nat) (s : State) (t : State) (e : execRingTurn ring s = .next t) (hs : Grew u (hide butOut s)) : Grew u (hide butOut t) := by
  refine next_grew e ?_
  repeat' first
    | with_reducible assumption
    | split
    | (with_reducible apply ringTurn_grew)
    | with_reducible apply forEach_grew
    | with_reducible apply foldl_grew
    | (intro; intros; try dsimp only)
    | (simp only [implies_true, eq_self])

theorem queueOne_grew (s : State) (k : Nat) (raw ext : Bytes) (last : Bool) (hs : Grew u (hide butOut s)) : Grew u (hide butOut (State.queueOne s k raw ext last)) := by
  unfold State.queueOne
  try dsimp only
  repeat' first
    | with_reducible assumption
    | split
    | (with_reducible apply fitRing_grew)
    | with_reducible apply forEach_grew
    | with_reducible apply foldl_grew
    | (intro; intros; try dsimp only)
    | (simp only [claimLists_hide (M := butOut) rfl, keptWrap_hide (M := butOut) rfl rfl, seeTable_hide (M := butOut) rfl rfl rfl, setRing_hide (M := butOut) rfl, takeOn_hide (M := butOut) rfl rfl, onFe_hide (M := butOut) rfl, implies_true, eq_self])

theorem takeRead_grew (s : State) (k : Nat) (x : Slot) (hs : Grew u (hide butOut s)) : Grew u (hide butOut (State.takeRead s k x)) := by
  unfold State.takeRead
  try dsimp only
  repeat' first
    | with_reducible assumption
    | split
    | (with_reducible apply consume_grew)
    | (with_reducible apply queueOne_grew)
    | with_reducible apply forEach_grew
    | with_reducible apply foldl_grew
    | (intro; intros; try dsimp only)
    | (simp only [setRing_hide (M := butOut) rfl, implies_true, eq_self])

theorem endTurn_grew (s : State) (k : Nat) (hs : Grew u (hide butOut s)) : Grew u (hide butOut (State.endTurn s k)) := by
  unfold State.endTurn
  try dsimp only
  repeat' first
    | with_reducible assumption
    | split
    | (with_reducible apply readSlots_grew)
    | with_reducible apply forEach_grew
    | with_reducible apply foldl_grew
    | (intro; intros; try dsimp only)
    | (simp only [announce_hide (M := butOut) rfl, setRing_hide (M := butOut) rfl, implies_true, eq_self])

theorem grantReads_grew (s : State) (k : Nat) (hs : Grew u (hide butOut s)) : Grew u (hide butOut (State.grantReads s k)) := by
  unfold State.grantReads
  try dsimp only
  repeat' first
    | with_reducible assumption
    | split
    | (with_reducible apply sendAll_grew)
    | with_reducible apply forEach_grew
    | with_reducible apply foldl_grew
    | (intro; intros; try dsimp only)
    | (simp only [implies_true, eq_self])

theorem readReturn_grew (s : State) (k : Nat) (slots : List Slot) (hs : Grew u (hide butOut s)) : Grew u (hide butOut (State.readReturn s k slots)) := by
  unfold State.readReturn
  try dsimp only
  repeat' first
    | with_reducible assumption
    | split
    | (with_reducible apply endTurn_grew)
    | (with_reducible apply fabSettle_grew)
    | (with_reducible apply grantReads_grew)
    | (with_reducible apply reserveAll_grew)
    | (with_reducible apply takeRead_grew)
    | with_reducible apply forEach_grew
    | with_reducible apply foldl_grew
    | (intro; intros; try dsimp only)
    | (simp only [forEach_hide, implies_true, eq_self])

theorem execCompletionReserve_grew (cpl : Nat) (s : State) (t : State) (e : execCompletionReserve cpl s = .next t) (hs : Grew u (hide butOut s)) : Grew u (hide butOut t) := by
  refine next_grew e ?_
  repeat' first
    | with_reducible assumption
    | split
    | (with_reducible apply reserveAll_grew)
    | with_reducible apply forEach_grew
    | with_reducible apply foldl_grew
    | (intro; intros; try dsimp only)
    | (simp only [implies_true, eq_self])

theorem recordWrite_grew (s : State) (id : Nat) (hs : Grew u (hide butOut s)) : Grew u (hide butOut (State.recordWrite s id)) := by
  unfold State.recordWrite
  try dsimp only
  repeat' first
    | with_reducible assumption
    | split
    | (with_reducible apply finishRecord_grew)
    | with_reducible apply forEach_grew
    | with_reducible apply foldl_grew
    | (intro; intros; try dsimp only)
    | (simp only [setDesc_hide (M := butOut) rfl, implies_true, eq_self])

theorem modTime_grew (s : State) (k : Nat) (hs : Grew u (hide butOut s)) : Grew u (hide butOut (State.modTime s k)) := by
  unfold State.modTime
  try dsimp only
  repeat' first
    | with_reducible assumption
    | split
    | (with_reducible apply irq_grew)
    | with_reducible apply forEach_grew
    | with_reducible apply foldl_grew
    | (intro; intros; try dsimp only)

theorem execModTimeExpiry_grew (ring : Nat) (s : State) (t : State) (e : execModTimeExpiry ring s = .next t) (hs : Grew u (hide butOut s)) : Grew u (hide butOut t) := by
  refine next_grew e ?_
  repeat' first
    | with_reducible assumption
    | split
    | (with_reducible apply modTime_grew)
    | with_reducible apply forEach_grew
    | with_reducible apply foldl_grew
    | (intro; intros; try dsimp only)

theorem markerPoint_grew (s : State) (d : Desc) (taken : Bool) (hs : Grew u (hide butOut s)) : Grew u (hide butOut (State.markerPoint s d taken)) := by
  unfold State.markerPoint
  try dsimp only
  repeat' first
    | with_reducible assumption
    | split
    | (with_reducible apply send_grew)
    | with_reducible apply forEach_grew
    | with_reducible apply foldl_grew
    | (intro; intros; try dsimp only)
    | (simp only [count_hide (M := butOut) rfl, tell_hide (M := butOut) rfl, implies_true, eq_self])

theorem execMarker_grew (id : Traced) (s : State) (t : State) (e : execMarker id s = .next t) (hs : Grew u (hide butOut s)) : Grew u (hide butOut t) := by
  refine next_grew e ?_
  repeat' first
    | with_reducible assumption
    | split
    | (with_reducible apply markerPoint_grew)
    | with_reducible apply forEach_grew
    | with_reducible apply foldl_grew
    | (intro; intros; try dsimp only)
    | (simp only [endOk_hide (M := butOut) rfl, implies_true, eq_self])

theorem execFenceOrder_grew (id : Nat) (s : State) (t : State) (e : execFenceOrder id s = .next t) (hs : Grew u (hide butOut s)) : Grew u (hide butOut t) := by
  refine next_grew e ?_
  repeat' first
    | with_reducible assumption
    | split
    | (with_reducible apply endWait_grew)
    | with_reducible apply forEach_grew
    | with_reducible apply foldl_grew
    | (intro; intros; try dsimp only)
    | (simp only [implies_true, eq_self])

theorem execFenceVisible_grew (id : Nat) (s : State) (t : State) (e : execFenceVisible id s = .next t) (hs : Grew u (hide butOut s)) : Grew u (hide butOut t) := by
  refine next_grew e ?_
  repeat' first
    | with_reducible assumption
    | split
    | (with_reducible apply endWait_grew)
    | with_reducible apply forEach_grew
    | with_reducible apply foldl_grew
    | (intro; intros; try dsimp only)
    | (simp only [onRing_hide (M := butOut) rfl, implies_true, eq_self])

theorem execWait_grew (id : Nat) (s : State) (t : State) (e : execWait id s = .next t) (hs : Grew u (hide butOut s)) : Grew u (hide butOut t) := by
  refine next_grew e ?_
  repeat' first
    | with_reducible assumption
    | split
    | (with_reducible apply doneSeq_grew)
    | (with_reducible apply endWait_grew)
    | with_reducible apply forEach_grew
    | with_reducible apply foldl_grew
    | (intro; intros; try dsimp only)
    | (simp only [implies_true, eq_self])

theorem execWaitTimeout_grew (id : Nat) (s : State) (t : State) (e : execWaitTimeout id s = .next t) (hs : Grew u (hide butOut s)) : Grew u (hide butOut t) := by
  refine next_grew e ?_
  repeat' first
    | with_reducible assumption
    | split
    | (with_reducible apply doneSeq_grew)
    | (with_reducible apply endWait_grew)
    | with_reducible apply forEach_grew
    | with_reducible apply foldl_grew
    | (intro; intros; try dsimp only)
    | (simp only [count_hide (M := butOut) rfl, implies_true, eq_self])

end Sys2Proof.Laws
end

