-- ==== Sys2Proof/Laws/TraceHandover.lean ====
section
/-!
SUPPORT. What Machine/Handover.lean defines only adds to what the block has sent out.
-/

namespace Sys2Proof.Laws

open Sys2Proof.Machine

variable {u : State}

theorem retakeLines_grew (s : State) (hs : Grew u (hide butOut s)) : Grew u (hide butOut (State.retakeLines s)) := by
  unfold State.retakeLines
  try dsimp only
  repeat' first
    | with_reducible assumption
    | split
    | (with_reducible apply readLine_grew)
    | with_reducible apply forEach_grew
    | with_reducible apply foldl_grew
    | (intro; intros; try dsimp only)
    | (simp only [onFe_hide (M := butOut) rfl, forEach_hide, implies_true, eq_self])

theorem handover_grew (s : State) (us : Nat) (passes : Bool) (hs : Grew u (hide butOut s)) : Grew u (hide butOut (State.handover s us passes)) := by
  unfold State.handover
  try dsimp only
  repeat' first
    | with_reducible assumption
    | split
    | (with_reducible apply prick_grew)
    | (with_reducible apply retakeLines_grew)
    | with_reducible apply forEach_grew
    | with_reducible apply foldl_grew
    | (intro; intros; try dsimp only)
    | (simp only [auditHw_hide (M := butOut) rfl rfl, count_hide (M := butOut) rfl, holdInvals_hide (M := butOut) rfl, reduce_hide (M := butOut) rfl rfl, tell_hide (M := butOut) rfl, onFe_hide (M := butOut) rfl, onXl_hide (M := butOut) rfl, onRl_hide (M := butOut) rfl, forEach_hide, implies_true, eq_self])

theorem qxFault_grew (s : State) (us : Nat) (lost : List Nat) (passes : Bool) (su : Startup) (hs : Grew u (hide butOut s)) : Grew u (hide butOut (State.qxFault s us lost passes su)) := by
  unfold State.qxFault
  try dsimp only
  repeat' first
    | with_reducible assumption
    | split
    | (with_reducible apply afterStart_grew)
    | (with_reducible apply blockReset_grew)
    | (with_reducible apply handover_grew)
    | with_reducible apply forEach_grew
    | with_reducible apply foldl_grew
    | (intro; intros; try dsimp only)
    | (simp only [loseQueued_hide (M := butOut) rfl rfl rfl rfl rfl, implies_true, eq_self])

theorem execQxHandover_grew (us : Nat) (take : Takeover) (su : Startup) (s : State) (t : State) (e : execQxHandover us take su s = .next t) (hs : Grew u (hide butOut s)) : Grew u (hide butOut t) := by
  refine next_grew e ?_
  repeat' first
    | with_reducible assumption
    | split
    | (with_reducible apply qxFault_grew)
    | with_reducible apply forEach_grew
    | with_reducible apply foldl_grew
    | (intro; intros; try dsimp only)
    | (simp only [implies_true, eq_self])

end Sys2Proof.Laws
end

