-- ==== Sys2Proof/Laws/TraceI3cBus.lean ====
section
/-!
SUPPORT. What Machine/I3cBus.lean defines only adds to what the block has sent out.
-/

namespace Sys2Proof.Laws

open Sys2Proof.Machine

variable {u : State}

theorem i3cAll_grew (s : State) (run : State → State) (h_run : ∀ (x0 : State), Grew u (hide butOut x0) → Grew u (hide butOut (run x0))) (hs : Grew u (hide butOut s)) : Grew u (hide butOut (State.i3cAll s run)) := by
  unfold State.i3cAll
  try dsimp only
  repeat' first
    | with_reducible assumption
    | split
    | (with_reducible apply send_grew)
    | (with_reducible apply h_run)
    | with_reducible apply forEach_grew
    | with_reducible apply foldl_grew
    | (intro; intros; try dsimp only)
    | (simp only [implies_true, eq_self])

theorem i3cDirect_grew (s : State) (run : State → State) (h_run : ∀ (x0 : State), Grew u (hide butOut x0) → Grew u (hide butOut (run x0))) (hs : Grew u (hide butOut s)) : Grew u (hide butOut (State.i3cDirect s run)) := by
  unfold State.i3cDirect
  try dsimp only
  repeat' first
    | with_reducible assumption
    | split
    | (with_reducible apply send_grew)
    | (with_reducible apply h_run)
    | with_reducible apply forEach_grew
    | with_reducible apply foldl_grew
    | (intro; intros; try dsimp only)
    | (simp only [implies_true, eq_self])

theorem i3cCcc_grew (s : State) (direct : Bool) (run : State → State) (h_run : ∀ (x0 : State), Grew u (hide butOut x0) → Grew u (hide butOut (run x0))) (hs : Grew u (hide butOut s)) : Grew u (hide butOut (State.i3cCcc s direct run)) := by
  unfold State.i3cCcc
  try dsimp only
  repeat' first
    | with_reducible assumption
    | split
    | (with_reducible apply i3cAll_grew)
    | (with_reducible apply i3cDirect_grew)
    | (with_reducible apply h_run)
    | with_reducible apply forEach_grew
    | with_reducible apply foldl_grew
    | (intro; intros; try dsimp only)
    | (simp only [implies_true, eq_self])

theorem execEntdaa_grew (addr : BitVec 7) (s : State) (t : State) (e : execEntdaa addr s = .next t) (hs : Grew u (hide butOut s)) : Grew u (hide butOut t) := by
  refine next_grew e ?_
  repeat' first
    | with_reducible assumption
    | split
    | (with_reducible apply i3cAll_grew)
    | (with_reducible apply send_grew)
    | with_reducible apply forEach_grew
    | with_reducible apply foldl_grew
    | (intro; intros; try dsimp only)
    | (simp only [i3cSet_hide (M := butOut) rfl rfl])

theorem execSetdasa_grew (addr : BitVec 7) (s : State) (t : State) (e : execSetdasa addr s = .next t) (hs : Grew u (hide butOut s)) : Grew u (hide butOut t) := by
  refine next_grew e ?_
  repeat' first
    | with_reducible assumption
    | split
    | (with_reducible apply i3cAll_grew)
    | (with_reducible apply send_grew)
    | with_reducible apply forEach_grew
    | with_reducible apply foldl_grew
    | (intro; intros; try dsimp only)
    | (simp only [i3cSet_hide (M := butOut) rfl rfl])

theorem execRstdaa_grew (s : State) (t : State) (e : execRstdaa s = .next t) (hs : Grew u (hide butOut s)) : Grew u (hide butOut t) := by
  refine next_grew e ?_
  repeat' first
    | with_reducible assumption
    | split
    | (with_reducible apply i3cAll_grew)
    | with_reducible apply forEach_grew
    | with_reducible apply foldl_grew
    | (intro; intros; try dsimp only)
    | (simp only [i3cSet_hide (M := butOut) rfl rfl, implies_true, eq_self])

theorem execEnec_grew (events : Ccc 8) (s : State) (t : State) (e : execEnec events s = .next t) (hs : Grew u (hide butOut s)) : Grew u (hide butOut t) := by
  refine next_grew e ?_
  repeat' first
    | with_reducible assumption
    | split
    | (with_reducible apply i3cCcc_grew)
    | with_reducible apply forEach_grew
    | with_reducible apply foldl_grew
    | (intro; intros; try dsimp only)
    | (simp only [i3cSet_hide (M := butOut) rfl rfl, implies_true, eq_self])

theorem execDisec_grew (events : Ccc 8) (s : State) (t : State) (e : execDisec events s = .next t) (hs : Grew u (hide butOut s)) : Grew u (hide butOut t) := by
  refine next_grew e ?_
  repeat' first
    | with_reducible assumption
    | split
    | (with_reducible apply i3cCcc_grew)
    | with_reducible apply forEach_grew
    | with_reducible apply foldl_grew
    | (intro; intros; try dsimp only)
    | (simp only [i3cSet_hide (M := butOut) rfl rfl, implies_true, eq_self])

theorem execGetpid_grew (s : State) (t : State) (e : execGetpid s = .next t) (hs : Grew u (hide butOut s)) : Grew u (hide butOut t) := by
  refine next_grew e ?_
  repeat' first
    | with_reducible assumption
    | split
    | (with_reducible apply i3cDirect_grew)
    | (with_reducible apply send_grew)
    | with_reducible apply forEach_grew
    | with_reducible apply foldl_grew
    | (intro; intros; try dsimp only)

theorem execGetbcr_grew (s : State) (t : State) (e : execGetbcr s = .next t) (hs : Grew u (hide butOut s)) : Grew u (hide butOut t) := by
  refine next_grew e ?_
  repeat' first
    | with_reducible assumption
    | split
    | (with_reducible apply i3cDirect_grew)
    | (with_reducible apply send_grew)
    | with_reducible apply forEach_grew
    | with_reducible apply foldl_grew
    | (intro; intros; try dsimp only)

theorem execGetdcr_grew (s : State) (t : State) (e : execGetdcr s = .next t) (hs : Grew u (hide butOut s)) : Grew u (hide butOut t) := by
  refine next_grew e ?_
  repeat' first
    | with_reducible assumption
    | split
    | (with_reducible apply i3cDirect_grew)
    | (with_reducible apply send_grew)
    | with_reducible apply forEach_grew
    | with_reducible apply foldl_grew
    | (intro; intros; try dsimp only)

theorem execGetstatus_grew (s : State) (t : State) (e : execGetstatus s = .next t) (hs : Grew u (hide butOut s)) : Grew u (hide butOut t) := by
  refine next_grew e ?_
  repeat' first
    | with_reducible assumption
    | split
    | (with_reducible apply i3cDirect_grew)
    | (with_reducible apply send_grew)
    | with_reducible apply forEach_grew
    | with_reducible apply foldl_grew
    | (intro; intros; try dsimp only)
    | (simp only [set_free_hide (M := butOut) rfl])

theorem execGetmwl_grew (s : State) (t : State) (e : execGetmwl s = .next t) (hs : Grew u (hide butOut s)) : Grew u (hide butOut t) := by
  refine next_grew e ?_
  repeat' first
    | with_reducible assumption
    | split
    | (with_reducible apply i3cDirect_grew)
    | (with_reducible apply send_grew)
    | with_reducible apply forEach_grew
    | with_reducible apply foldl_grew
    | (intro; intros; try dsimp only)

theorem execGetmrl_grew (s : State) (t : State) (e : execGetmrl s = .next t) (hs : Grew u (hide butOut s)) : Grew u (hide butOut t) := by
  refine next_grew e ?_
  repeat' first
    | with_reducible assumption
    | split
    | (with_reducible apply i3cDirect_grew)
    | (with_reducible apply send_grew)
    | with_reducible apply forEach_grew
    | with_reducible apply foldl_grew
    | (intro; intros; try dsimp only)

theorem execSetmwl_grew (len : Ccc 16) (s : State) (t : State) (e : execSetmwl len s = .next t) (hs : Grew u (hide butOut s)) : Grew u (hide butOut t) := by
  refine next_grew e ?_
  repeat' first
    | with_reducible assumption
    | split
    | (with_reducible apply i3cCcc_grew)
    | with_reducible apply forEach_grew
    | with_reducible apply foldl_grew
    | (intro; intros; try dsimp only)
    | (simp only [i3cSet_hide (M := butOut) rfl rfl, implies_true, eq_self])

theorem execSetmrl_grew (len : Ccc 16) (s : State) (t : State) (e : execSetmrl len s = .next t) (hs : Grew u (hide butOut s)) : Grew u (hide butOut t) := by
  refine next_grew e ?_
  repeat' first
    | with_reducible assumption
    | split
    | (with_reducible apply i3cCcc_grew)
    | with_reducible apply forEach_grew
    | with_reducible apply foldl_grew
    | (intro; intros; try dsimp only)
    | (simp only [i3cSet_hide (M := butOut) rfl rfl, implies_true, eq_self])

theorem execRstact_grew (action : Ccc 8) (s : State) (t : State) (e : execRstact action s = .next t) (hs : Grew u (hide butOut s)) : Grew u (hide butOut t) := by
  refine next_grew e ?_
  repeat' first
    | with_reducible assumption
    | split
    | (with_reducible apply i3cCcc_grew)
    | with_reducible apply forEach_grew
    | with_reducible apply foldl_grew
    | (intro; intros; try dsimp only)
    | (simp only [i3cSet_hide (M := butOut) rfl rfl, implies_true, eq_self])

theorem execI3cPrivateRead_grew (s : State) (t : State) (e : execI3cPrivateRead s = .next t) (hs : Grew u (hide butOut s)) : Grew u (hide butOut t) := by
  refine next_grew e ?_
  repeat' first
    | with_reducible assumption
    | split
    | (with_reducible apply i3cAll_grew)
    | (with_reducible apply send_grew)
    | with_reducible apply forEach_grew
    | with_reducible apply foldl_grew
    | (intro; intros; try dsimp only)
    | (simp only [implies_true, eq_self])

end Sys2Proof.Laws
end

