-- ==== Sys2Proof/Laws/TraceImages.lean ====
section
/-!
SUPPORT. What Machine/Images.lean defines only adds to what the block has sent out.
-/

namespace Sys2Proof.Laws

open Sys2Proof.Machine

variable {u : State}

theorem tblCmd_grew (s : State) (p : Path) (op : Nat) (run : State → Nat → State) (h_run : ∀ (x0 : State) (x1 : Nat), Grew u (hide butOut x0) → Grew u (hide butOut (run x0 x1))) (hs : Grew u (hide butOut s)) : Grew u (hide butOut (State.tblCmd s p op run)) := by
  unfold State.tblCmd
  try dsimp only
  repeat' first
    | with_reducible assumption
    | split
    | (with_reducible apply command_grew)
    | (with_reducible apply h_run)
    | with_reducible apply forEach_grew
    | with_reducible apply foldl_grew
    | (intro; intros; try dsimp only)
    | (simp only [put_tblCmd_hide (M := butOut) rfl, implies_true, eq_self])

theorem tblDone_grew (s : State) (p : Path) (result detail : Nat) (hs : Grew u (hide butOut s)) : Grew u (hide butOut (State.tblDone s p result detail)) := by
  unfold State.tblDone
  try dsimp only
  repeat' first
    | with_reducible assumption
    | split
    | (with_reducible apply tblCmd_grew)
    | with_reducible apply forEach_grew
    | with_reducible apply foldl_grew
    | (intro; intros; try dsimp only)
    | (simp only [cmdField_hide (M := butOut), finish_hide (M := butOut), put_tblCmd_hide (M := butOut) rfl, implies_true, eq_self])

theorem defineTable_grew (s : State) (p : Path) (h : Nat) (img : Feed) (hs : Grew u (hide butOut s)) : Grew u (hide butOut (State.defineTable s p h img)) := by
  unfold State.defineTable
  try dsimp only
  repeat' first
    | with_reducible assumption
    | split
    | (with_reducible apply tblDone_grew)
    | with_reducible apply forEach_grew
    | with_reducible apply foldl_grew
    | (intro; intros; try dsimp only)
    | (simp only [countN_hide (M := butOut) rfl, setTable_hide (M := butOut) rfl, writeTable_hide (M := butOut) rfl rfl rfl, implies_true, eq_self])

theorem execDefine_grew (p : Path) (img : Feed) (s : State) (t : State) (e : execDefine p img s = .next t) (hs : Grew u (hide butOut s)) : Grew u (hide butOut t) := by
  refine next_grew e ?_
  repeat' first
    | with_reducible assumption
    | split
    | (with_reducible apply defineTable_grew)
    | (with_reducible apply tblCmd_grew)
    | with_reducible apply forEach_grew
    | with_reducible apply foldl_grew
    | (intro; intros; try dsimp only)
    | (simp only [implies_true, eq_self])

theorem deleteTable_grew (s : State) (p : Path) (h : Nat) (hs : Grew u (hide butOut s)) : Grew u (hide butOut (State.deleteTable s p h)) := by
  unfold State.deleteTable
  try dsimp only
  repeat' first
    | with_reducible assumption
    | split
    | (with_reducible apply tblDone_grew)
    | with_reducible apply forEach_grew
    | with_reducible apply foldl_grew
    | (intro; intros; try dsimp only)
    | (simp only [noteScratch_hide (M := butOut) rfl rfl, scrapVersion_hide (M := butOut) rfl rfl rfl rfl rfl rfl, onTb_hide (M := butOut) rfl, forEach_hide, implies_true, eq_self])

theorem execDelete_grew (p : Path) (s : State) (t : State) (e : execDelete p s = .next t) (hs : Grew u (hide butOut s)) : Grew u (hide butOut t) := by
  refine next_grew e ?_
  repeat' first
    | with_reducible assumption
    | split
    | (with_reducible apply deleteTable_grew)
    | (with_reducible apply tblCmd_grew)
    | with_reducible apply forEach_grew
    | with_reducible apply foldl_grew
    | (intro; intros; try dsimp only)
    | (simp only [implies_true, eq_self])

theorem bandsTable_grew (s : State) (p : Path) (h : Nat) (img : Feed) (hs : Grew u (hide butOut s)) : Grew u (hide butOut (State.bandsTable s p h img)) := by
  unfold State.bandsTable
  try dsimp only
  repeat' first
    | with_reducible assumption
    | split
    | (with_reducible apply tblDone_grew)
    | with_reducible apply forEach_grew
    | with_reducible apply foldl_grew
    | (intro; intros; try dsimp only)
    | (simp only [countN_hide (M := butOut) rfl, setTable_hide (M := butOut) rfl, writeTable_hide (M := butOut) rfl rfl rfl, implies_true, eq_self])

theorem execBands_grew (p : Path) (img : Feed) (s : State) (t : State) (e : execBands p img s = .next t) (hs : Grew u (hide butOut s)) : Grew u (hide butOut t) := by
  refine next_grew e ?_
  repeat' first
    | with_reducible assumption
    | split
    | (with_reducible apply bandsTable_grew)
    | (with_reducible apply tblCmd_grew)
    | with_reducible apply forEach_grew
    | with_reducible apply foldl_grew
    | (intro; intros; try dsimp only)
    | (simp only [implies_true, eq_self])

theorem partWrite_grew (s : State) (p : Path) (off size : Nat) (val : Word64) (hs : Grew u (hide butOut s)) : Grew u (hide butOut (State.partWrite s p off size val)) := by
  unfold State.partWrite
  try dsimp only
  repeat' first
    | with_reducible assumption
    | split
    | (with_reducible apply regWrite_grew)
    | with_reducible apply forEach_grew
    | with_reducible apply foldl_grew
    | (intro; intros; try dsimp only)
    | (simp only [count_hide (M := butOut) rfl, put_partCfg_hide (M := butOut) rfl, implies_true, eq_self])

theorem execPartCfgWrite_grew (p : Path) (off size : Nat) (val : Word64) (s : State) (t : State) (e : execPartCfgWrite p off size val s = .next t) (hs : Grew u (hide butOut s)) : Grew u (hide butOut t) := by
  refine next_grew e ?_
  repeat' first
    | with_reducible assumption
    | split
    | (with_reducible apply partWrite_grew)
    | with_reducible apply forEach_grew
    | with_reducible apply foldl_grew
    | (intro; intros; try dsimp only)
    | (simp only [implies_true, eq_self])

end Sys2Proof.Laws
end

