-- ==== Sys2Proof/Laws/TraceMailbox.lean ====
section
/-!
SUPPORT. What Machine/Mailbox.lean defines only adds to what the block has sent out.
-/

namespace Sys2Proof.Laws

open Sys2Proof.Machine

variable {u : State}

theorem mbxOut_grew (s : State) (p : Path) (b : Bytes) (hs : Grew u (hide butOut s)) : Grew u (hide butOut (State.mbxOut s p b)) := by
  unfold State.mbxOut
  try dsimp only
  repeat' first
    | with_reducible assumption
    | split
    | (with_reducible apply send_grew)
    | with_reducible apply forEach_grew
    | with_reducible apply foldl_grew
    | (intro; intros; try dsimp only)
    | (simp only [implies_true, eq_self])

theorem reply_grew (s : State) (p : Path) (result : Nat) (body : Says) (hs : Grew u (hide butOut s)) : Grew u (hide butOut (State.reply s p result body)) := by
  unfold State.reply
  try dsimp only
  repeat' first
    | with_reducible assumption
    | split
    | (with_reducible apply mbxOut_grew)
    | with_reducible apply forEach_grew
    | with_reducible apply foldl_grew
    | (intro; intros; try dsimp only)
    | (simp only [cmdField_hide (M := butOut), count_hide (M := butOut) rfl, finish_hide (M := butOut), sayBytes_hide (M := butOut) rfl, onSt_hide (M := butOut) rfl, put_mbxCmd_hide (M := butOut) rfl, implies_true, eq_self])

theorem i3cStart_grew (s : State) (core : Nat) (val : Word64) (run : State → State) (h_run : ∀ (x0 : State), Grew u (hide butOut x0) → Grew u (hide butOut (run x0))) (hs : Grew u (hide butOut s)) : Grew u (hide butOut (State.i3cStart s core val run)) := by
  unfold State.i3cStart
  try dsimp only
  repeat' first
    | with_reducible assumption
    | split
    | (with_reducible apply send_grew)
    | (with_reducible apply h_run)
    | with_reducible apply forEach_grew
    | with_reducible apply foldl_grew
    | (intro; intros; try dsimp only)
    | (simp only [onSt_hide (M := butOut) rfl, put_mbxCmd_hide (M := butOut) rfl])

theorem mbxStart_grew (s : State) (p : Path) (row : MbxRow) (len : Nat) (run : State → State) (h_run : ∀ (x0 : State), Grew u (hide butOut x0) → Grew u (hide butOut (run x0))) (hs : Grew u (hide butOut s)) : Grew u (hide butOut (State.mbxStart s p row len run)) := by
  unfold State.mbxStart
  try dsimp only
  repeat' first
    | with_reducible assumption
    | split
    | (with_reducible apply command_grew)
    | (with_reducible apply i3cStart_grew)
    | (with_reducible apply h_run)
    | with_reducible apply forEach_grew
    | with_reducible apply foldl_grew
    | (intro; intros; try dsimp only)
    | (simp only [put_mbxCmd_hide (M := butOut) rfl, implies_true, eq_self])

theorem mailbox_grew (s : State) (p : Path) (row : MbxRow) (req : Feed) (target : Nat) (run : State → State × Nat × Says) (h_run : ∀ (x0 : State), Grew u (hide butOut x0) → Grew u (hide butOut (run x0).1)) (hs : Grew u (hide butOut s)) : Grew u (hide butOut (State.mailbox s p row req target run)) := by
  unfold State.mailbox
  try dsimp only
  repeat' first
    | with_reducible assumption
    | split
    | (with_reducible apply mbxStart_grew)
    | (with_reducible apply reply_grew)
    | (with_reducible apply h_run)
    | with_reducible apply forEach_grew
    | with_reducible apply foldl_grew
    | (intro; intros; try dsimp only)
    | (simp only [countN_hide (M := butOut) rfl, auditMbx_hide (M := butOut) rfl rfl])

theorem mbxRead_grew (s : State) (p : Path) (opc core : Nat) (req : Feed) (body : State → Says) (hs : Grew u (hide butOut s)) : Grew u (hide butOut (State.mbxRead s p opc core req body)) := by
  unfold State.mbxRead
  try dsimp only
  repeat' first
    | with_reducible assumption
    | split
    | (with_reducible apply mailbox_grew)
    | with_reducible apply forEach_grew
    | with_reducible apply foldl_grew
    | (intro; intros; try dsimp only)

theorem execGetHealth_grew (p : Path) (req : Feed) (s : State) (t : State) (e : execGetHealth p req s = .next t) (hs : Grew u (hide butOut s)) : Grew u (hide butOut t) := by
  refine next_grew e ?_
  repeat' first
    | with_reducible assumption
    | split
    | (with_reducible apply mbxRead_grew)
    | with_reducible apply forEach_grew
    | with_reducible apply foldl_grew
    | (intro; intros; try dsimp only)

theorem execReadSensors_grew (p : Path) (req : Feed) (s : State) (t : State) (e : execReadSensors p req s = .next t) (hs : Grew u (hide butOut s)) : Grew u (hide butOut t) := by
  refine next_grew e ?_
  repeat' first
    | with_reducible assumption
    | split
    | (with_reducible apply mbxRead_grew)
    | with_reducible apply forEach_grew
    | with_reducible apply foldl_grew
    | (intro; intros; try dsimp only)

theorem execLogPos_grew (p : Path) (req : Feed) (s : State) (t : State) (e : execLogPos p req s = .next t) (hs : Grew u (hide butOut s)) : Grew u (hide butOut t) := by
  refine next_grew e ?_
  repeat' first
    | with_reducible assumption
    | split
    | (with_reducible apply mbxRead_grew)
    | with_reducible apply forEach_grew
    | with_reducible apply foldl_grew
    | (intro; intros; try dsimp only)

theorem execPlogRead_grew (p : Path) (req : Feed) (page : Nat) (s : State) (t : State) (e : execPlogRead p req page s = .next t) (hs : Grew u (hide butOut s)) : Grew u (hide butOut t) := by
  refine next_grew e ?_
  repeat' first
    | with_reducible assumption
    | split
    | (with_reducible apply mbxRead_grew)
    | with_reducible apply forEach_grew
    | with_reducible apply foldl_grew
    | (intro; intros; try dsimp only)

theorem execAuditRead_grew (p : Path) (req : Feed) (aseq : Nat) (s : State) (t : State) (e : execAuditRead p req aseq s = .next t) (hs : Grew u (hide butOut s)) : Grew u (hide butOut t) := by
  refine next_grew e ?_
  repeat' first
    | with_reducible assumption
    | split
    | (with_reducible apply mbxRead_grew)
    | with_reducible apply forEach_grew
    | with_reducible apply foldl_grew
    | (intro; intros; try dsimp only)

theorem execAuditHead_grew (p : Path) (req : Feed) (s : State) (t : State) (e : execAuditHead p req s = .next t) (hs : Grew u (hide butOut s)) : Grew u (hide butOut t) := by
  refine next_grew e ?_
  repeat' first
    | with_reducible assumption
    | split
    | (with_reducible apply mbxRead_grew)
    | with_reducible apply forEach_grew
    | with_reducible apply foldl_grew
    | (intro; intros; try dsimp only)

theorem execReturnDiag_grew (p : Path) (req : Feed) (s : State) (t : State) (e : execReturnDiag p req s = .next t) (hs : Grew u (hide butOut s)) : Grew u (hide butOut t) := by
  refine next_grew e ?_
  repeat' first
    | with_reducible assumption
    | split
    | (with_reducible apply mailbox_grew)
    | with_reducible apply forEach_grew
    | with_reducible apply foldl_grew
    | (intro; intros; try dsimp only)

theorem mbxRestart_grew (s : State) (core : Nat) (hs : Grew u (hide butOut s)) : Grew u (hide butOut (State.mbxRestart s core).1) := by
  unfold State.mbxRestart
  try dsimp only
  repeat' first
    | with_reducible assumption
    | split
    | (with_reducible apply cycleCore_grew)
    | with_reducible apply forEach_grew
    | with_reducible apply foldl_grew
    | (intro; intros; try dsimp only)
    | (simp only [freePc_hide (M := butOut) rfl, implies_true, eq_self])

theorem mbxReset_grew (s : State) (p : Path) (row : MbxRow) (req : Feed) (su : Startup) (hs : Grew u (hide butOut s)) : Grew u (hide butOut (State.mbxReset s p row req su)) := by
  unfold State.mbxReset
  try dsimp only
  repeat' first
    | with_reducible assumption
    | split
    | (with_reducible apply mbxStart_grew)
    | (with_reducible apply reply_grew)
    | (with_reducible apply restartCore_grew)
    | with_reducible apply forEach_grew
    | with_reducible apply foldl_grew
    | (intro; intros; try dsimp only)
    | (simp only [countN_hide (M := butOut) rfl, auditMbx_hide (M := butOut) rfl rfl, freePc_hide (M := butOut) rfl, implies_true, eq_self])

theorem execCoreRestart_grew (p : Path) (req : Feed) (core : Nat) (restarted : Bool) (su : Startup) (s : State) (t : State) (e : execCoreRestart p req core restarted su s = .next t) (hs : Grew u (hide butOut s)) : Grew u (hide butOut t) := by
  refine next_grew e ?_
  repeat' first
    | with_reducible assumption
    | split
    | (with_reducible apply mailbox_grew)
    | (with_reducible apply mbxReset_grew)
    | (with_reducible apply mbxRestart_grew)
    | with_reducible apply forEach_grew
    | with_reducible apply foldl_grew
    | (intro; intros; try dsimp only)
    | (simp only [implies_true, eq_self])

theorem execAuthChallenge_grew (p : Path) (req : Feed) (s : State) (t : State) (e : execAuthChallenge p req s = .next t) (hs : Grew u (hide butOut s)) : Grew u (hide butOut t) := by
  refine next_grew e ?_
  repeat' first
    | with_reducible assumption
    | split
    | (with_reducible apply mailbox_grew)
    | with_reducible apply forEach_grew
    | with_reducible apply foldl_grew
    | (intro; intros; try dsimp only)
    | (simp only [challenge_hide (M := butOut) rfl])

theorem execAuthResponse_grew (p : Path) (req : Feed) (role : Role) (keyIdx : Nat) (sigOk : Bool) (s : State) (t : State) (e : execAuthResponse p req role keyIdx sigOk s = .next t) (hs : Grew u (hide butOut s)) : Grew u (hide butOut t) := by
  refine next_grew e ?_
  repeat' first
    | with_reducible assumption
    | split
    | (with_reducible apply mailbox_grew)
    | with_reducible apply forEach_grew
    | with_reducible apply foldl_grew
    | (intro; intros; try dsimp only)
    | (simp only [openSession_hide (M := butOut) rfl rfl])

theorem execAuthEnd_grew (p : Path) (req : Feed) (s : State) (t : State) (e : execAuthEnd p req s = .next t) (hs : Grew u (hide butOut s)) : Grew u (hide butOut t) := by
  refine next_grew e ?_
  repeat' first
    | with_reducible assumption
    | split
    | (with_reducible apply mailbox_grew)
    | with_reducible apply forEach_grew
    | with_reducible apply foldl_grew
    | (intro; intros; try dsimp only)
    | (simp only [mbxEnd_hide (M := butOut) rfl])

theorem execImgStage_grew (p : Path) (req : Feed) (off : Nat) (chunk : Bytes) (last : Bool) (s : State) (t : State) (e : execImgStage p req off chunk last s = .next t) (hs : Grew u (hide butOut s)) : Grew u (hide butOut t) := by
  refine next_grew e ?_
  repeat' first
    | with_reducible assumption
    | split
    | (with_reducible apply mailbox_grew)
    | with_reducible apply forEach_grew
    | with_reducible apply foldl_grew
    | (intro; intros; try dsimp only)
    | (simp only [stage_hide (M := butOut) rfl])

theorem mbxActivate_grew (s : State) (sigOk : Bool) (hs : Grew u (hide butOut s)) : Grew u (hide butOut (State.mbxActivate s sigOk).1) := by
  unfold State.mbxActivate
  try dsimp only
  repeat' first
    | with_reducible assumption
    | split
    | (with_reducible apply activate_grew)
    | with_reducible apply forEach_grew
    | with_reducible apply foldl_grew
    | (intro; intros; try dsimp only)
    | (simp only [defer_hide (M := butOut) rfl rfl, implies_true, eq_self])

theorem execImgActivate_grew (p : Path) (req : Feed) (sigOk : Bool) (s : State) (t : State) (e : execImgActivate p req sigOk s = .next t) (hs : Grew u (hide butOut s)) : Grew u (hide butOut t) := by
  refine next_grew e ?_
  repeat' first
    | with_reducible assumption
    | split
    | (with_reducible apply mailbox_grew)
    | (with_reducible apply mbxActivate_grew)
    | with_reducible apply forEach_grew
    | with_reducible apply foldl_grew
    | (intro; intros; try dsimp only)
    | (simp only [implies_true, eq_self])

theorem execImgCommit_grew (p : Path) (req : Feed) (s : State) (t : State) (e : execImgCommit p req s = .next t) (hs : Grew u (hide butOut s)) : Grew u (hide butOut t) := by
  refine next_grew e ?_
  repeat' first
    | with_reducible assumption
    | split
    | (with_reducible apply mailbox_grew)
    | with_reducible apply forEach_grew
    | with_reducible apply foldl_grew
    | (intro; intros; try dsimp only)
    | (simp only [mbxCommit_hide (M := butOut) rfl rfl rfl])

theorem mbxRevert_grew (s : State) (hs : Grew u (hide butOut s)) : Grew u (hide butOut (State.mbxRevert s).1) := by
  unfold State.mbxRevert
  try dsimp only
  repeat' first
    | with_reducible assumption
    | split
    | (with_reducible apply revert_grew)
    | with_reducible apply forEach_grew
    | with_reducible apply foldl_grew
    | (intro; intros; try dsimp only)
    | (simp only [implies_true, eq_self])

theorem execImgRevert_grew (p : Path) (req : Feed) (s : State) (t : State) (e : execImgRevert p req s = .next t) (hs : Grew u (hide butOut s)) : Grew u (hide butOut t) := by
  refine next_grew e ?_
  repeat' first
    | with_reducible assumption
    | split
    | (with_reducible apply mailbox_grew)
    | (with_reducible apply mbxRevert_grew)
    | with_reducible apply forEach_grew
    | with_reducible apply foldl_grew
    | (intro; intros; try dsimp only)
    | (simp only [implies_true, eq_self])

theorem mbxAttach_grew (s : State) (d : Nat) (i : DriveInfo) (hs : Grew u (hide butOut s)) : Grew u (hide butOut (State.mbxAttach s d i).1) := by
  unfold State.mbxAttach
  try dsimp only
  repeat' first
    | with_reducible assumption
    | split
    | (with_reducible apply attach_grew)
    | with_reducible apply forEach_grew
    | with_reducible apply foldl_grew
    | (intro; intros; try dsimp only)
    | (simp only [implies_true, eq_self])

theorem execDriveAttach_grew (p : Path) (req : Feed) (drive : Nat) (info : DriveInfo) (s : State) (t : State) (e : execDriveAttach p req drive info s = .next t) (hs : Grew u (hide butOut s)) : Grew u (hide butOut t) := by
  refine next_grew e ?_
  repeat' first
    | with_reducible assumption
    | split
    | (with_reducible apply mailbox_grew)
    | (with_reducible apply mbxAttach_grew)
    | with_reducible apply forEach_grew
    | with_reducible apply foldl_grew
    | (intro; intros; try dsimp only)
    | (simp only [implies_true, eq_self])

theorem saveDrive_grew (s : State) (fails : WbFails) (y0 : List (Nat × Nat)) (hs : Grew u (hide butOut s)) : Grew u (hide butOut (State.saveDrive s fails y0).1) := by
  have step : ∀ (s : State) (h ver : Nat), Grew u (hide butOut s) → Grew u (hide butOut ((s.dirtyRows h ver).foldl
      (fun (q : State × Bool) (r : Nat) =>
        if !q.2 then q
        else match q.1.version h ver with
          | none => q
          | some (t, v) => q.1.writeBackRow t v (keyOf h r) (failOf fails (keyOf h r))) (s, true)).1) := by
    intro s h ver hs
    refine foldl_grew _ ?_ _ _ hs
    intro q r hq
    split
    · exact hq
    split
    · exact hq
    · exact writeBackRow_grew _ _ _ _ _ hq
  induction y0 generalizing s with
  | nil => exact hs
  | cons x l ih =>
    obtain ⟨h, ver⟩ := x
    rw [State.saveDrive]
    split
    · exact ih _ (step s h ver hs)
    · exact step s h ver hs

theorem mbxDetach_grew (s : State) (d : Nat) (fails : WbFails) (hs : Grew u (hide butOut s)) : Grew u (hide butOut (State.mbxDetach s d fails).1) := by
  unfold State.mbxDetach
  try dsimp only
  repeat' first
    | with_reducible assumption
    | split
    | (with_reducible apply deleteQueues_grew)
    | (with_reducible apply failDrive_grew)
    | (with_reducible apply saveDrive_grew)
    | with_reducible apply forEach_grew
    | with_reducible apply foldl_grew
    | (intro; intros; try dsimp only)
    | (simp only [dropVersions_hide (M := butOut) rfl rfl rfl rfl rfl, onDrive_hide (M := butOut) rfl, implies_true, eq_self])

theorem execDriveDetach_grew (p : Path) (req : Feed) (drive : Nat) (fails : WbFails) (s : State) (t : State) (e : execDriveDetach p req drive fails s = .next t) (hs : Grew u (hide butOut s)) : Grew u (hide butOut t) := by
  refine next_grew e ?_
  repeat' first
    | with_reducible assumption
    | split
    | (with_reducible apply mailbox_grew)
    | (with_reducible apply mbxDetach_grew)
    | with_reducible apply forEach_grew
    | with_reducible apply foldl_grew
    | (intro; intros; try dsimp only)
    | (simp only [implies_true, eq_self])

theorem execEnrolInstaller_grew (p : Path) (req : Feed) (off : Nat) (chunk : Bytes) (last : Bool) (key : Bytes) (count : BitVec 32) (tokenOk : Bool) (s : State) (t : State) (e : execEnrolInstaller p req off chunk last key count tokenOk s = .next t) (hs : Grew u (hide butOut s)) : Grew u (hide butOut t) := by
  refine next_grew e ?_
  repeat' first
    | with_reducible assumption
    | split
    | (with_reducible apply mailbox_grew)
    | with_reducible apply forEach_grew
    | with_reducible apply foldl_grew
    | (intro; intros; try dsimp only)
    | (simp only [enrol_hide (M := butOut) rfl])

theorem execEnrolOperator_grew (p : Path) (req : Feed) (idx : Nat) (key : Bytes) (s : State) (t : State) (e : execEnrolOperator p req idx key s = .next t) (hs : Grew u (hide butOut s)) : Grew u (hide butOut t) := by
  refine next_grew e ?_
  repeat' first
    | with_reducible assumption
    | split
    | (with_reducible apply mailbox_grew)
    | with_reducible apply forEach_grew
    | with_reducible apply foldl_grew
    | (intro; intros; try dsimp only)
    | (simp only [onSt_hide (M := butOut) rfl])

theorem execRevokeOperator_grew (p : Path) (req : Feed) (idx : Nat) (s : State) (t : State) (e : execRevokeOperator p req idx s = .next t) (hs : Grew u (hide butOut s)) : Grew u (hide butOut t) := by
  refine next_grew e ?_
  repeat' first
    | with_reducible assumption
    | split
    | (with_reducible apply mailbox_grew)
    | with_reducible apply forEach_grew
    | with_reducible apply foldl_grew
    | (intro; intros; try dsimp only)
    | (simp only [onSt_hide (M := butOut) rfl])

theorem execSetLimit_grew (p : Path) (req : Feed) (limits : BitVec 8) (s : State) (t : State) (e : execSetLimit p req limits s = .next t) (hs : Grew u (hide butOut s)) : Grew u (hide butOut t) := by
  refine next_grew e ?_
  repeat' first
    | with_reducible assumption
    | split
    | (with_reducible apply mailbox_grew)
    | with_reducible apply forEach_grew
    | with_reducible apply foldl_grew
    | (intro; intros; try dsimp only)
    | (simp only [setPolicy_hide (M := butOut) rfl rfl])

theorem execDebugOpen_grew (p : Path) (req : Feed) (s : State) (t : State) (e : execDebugOpen p req s = .next t) (hs : Grew u (hide butOut s)) : Grew u (hide butOut t) := by
  refine next_grew e ?_
  repeat' first
    | with_reducible assumption
    | split
    | (with_reducible apply mailbox_grew)
    | with_reducible apply forEach_grew
    | with_reducible apply foldl_grew
    | (intro; intros; try dsimp only)
    | (simp only [openDebug_hide (M := butOut) rfl])

theorem execDebugClose_grew (p : Path) (req : Feed) (s : State) (t : State) (e : execDebugClose p req s = .next t) (hs : Grew u (hide butOut s)) : Grew u (hide butOut t) := by
  refine next_grew e ?_
  repeat' first
    | with_reducible assumption
    | split
    | (with_reducible apply mailbox_grew)
    | with_reducible apply forEach_grew
    | with_reducible apply foldl_grew
    | (intro; intros; try dsimp only)
    | (simp only [onSt_hide (M := butOut) rfl])

theorem execFuseProgram_grew (p : Path) (req : Feed) (revoke : BitVec 4) (s : State) (t : State) (e : execFuseProgram p req revoke s = .next t) (hs : Grew u (hide butOut s)) : Grew u (hide butOut t) := by
  refine next_grew e ?_
  repeat' first
    | with_reducible assumption
    | split
    | (with_reducible apply mailbox_grew)
    | with_reducible apply forEach_grew
    | with_reducible apply foldl_grew
    | (intro; intros; try dsimp only)
    | (simp only [onFuses_hide (M := butOut) rfl])

end Sys2Proof.Laws
end

