-- ==== Sys2Proof/Laws/TraceRemote.lean ====
section
/-!
SUPPORT. What Machine/Remote.lean defines only adds to what the block has sent out.
-/

namespace Sys2Proof.Laws

open Sys2Proof.Machine

variable {u : State}

theorem oweCredit_grew (s : State) (port : Nat) (before : Bool) (hs : Grew u (hide butOut s)) : Grew u (hide butOut (State.oweCredit s port before)) := by
  unfold State.oweCredit
  try dsimp only
  repeat' first
    | with_reducible assumption
    | split
    | (with_reducible apply send_grew)
    | with_reducible apply forEach_grew
    | with_reducible apply foldl_grew
    | (intro; intros; try dsimp only)
    | (simp only [countN_hide (M := butOut) rfl, onPw_hide (M := butOut) rfl, implies_true, eq_self])

theorem payCredit_grew (s : State) (port : Nat) (hs : Grew u (hide butOut s)) : Grew u (hide butOut (State.payCredit s port)) := by
  unfold State.payCredit
  try dsimp only
  repeat' first
    | with_reducible assumption
    | split
    | (with_reducible apply send_grew)
    | with_reducible apply forEach_grew
    | with_reducible apply foldl_grew
    | (intro; intros; try dsimp only)
    | (simp only [onPw_hide (M := butOut) rfl, implies_true, eq_self])

theorem payCredits_grew (s : State) (hs : Grew u (hide butOut s)) : Grew u (hide butOut (State.payCredits s)) := by
  unfold State.payCredits
  try dsimp only
  repeat' first
    | with_reducible assumption
    | split
    | (with_reducible apply payCredit_grew)
    | with_reducible apply forEach_grew
    | with_reducible apply foldl_grew
    | (intro; intros; try dsimp only)
    | (simp only [forEach_hide, implies_true, eq_self])

theorem acceptBatch_grew (s : State) (b : InBatch) (hs : Grew u (hide butOut s)) : Grew u (hide butOut (State.acceptBatch s b)) := by
  unfold State.acceptBatch
  try dsimp only
  repeat' first
    | with_reducible assumption
    | split
    | (with_reducible apply fabSettle_grew)
    | (with_reducible apply payCredits_grew)
    | (with_reducible apply rspSend_grew)
    | with_reducible apply forEach_grew
    | with_reducible apply foldl_grew
    | (intro; intros; try dsimp only)
    | (simp only [countN_hide (M := butOut) rfl, takeAll_hide (M := butOut) rfl rfl rfl rfl, onUp_hide (M := butOut) rfl, implies_true, eq_self])

theorem takeHead_grew (s : State) (hs : Grew u (hide butOut s)) : Grew u (hide butOut (State.takeHead s)) := by
  unfold State.takeHead
  try dsimp only
  repeat' first
    | with_reducible assumption
    | split
    | (with_reducible apply acceptBatch_grew)
    | (with_reducible apply payCredits_grew)
    | with_reducible apply forEach_grew
    | with_reducible apply foldl_grew
    | (intro; intros; try dsimp only)
    | (simp only [onUp_hide (M := butOut) rfl, implies_true, eq_self])

theorem drainIntake_grew (s : State) (hs : Grew u (hide butOut s)) : Grew u (hide butOut (State.drainIntake s)) := by
  unfold State.drainIntake
  try dsimp only
  repeat' first
    | with_reducible assumption
    | split
    | (with_reducible apply takeHead_grew)
    | with_reducible apply forEach_grew
    | with_reducible apply foldl_grew
    | (intro; intros; try dsimp only)
    | (simp only [forEach_hide, implies_true, eq_self])

theorem pillowReserve_grew (s : State) (hs : Grew u (hide butOut s)) : Grew u (hide butOut (State.pillowReserve s)) := by
  unfold State.pillowReserve
  try dsimp only
  repeat' first
    | with_reducible assumption
    | split
    | (with_reducible apply drainIntake_grew)
    | with_reducible apply forEach_grew
    | with_reducible apply foldl_grew
    | (intro; intros; try dsimp only)
    | (simp only [reserveScatters_hide (M := butOut) rfl rfl, implies_true, eq_self])

theorem discardBatch_grew (s : State) (sender : BitVec 16) (batch : BitVec 32) (hs : Grew u (hide butOut s)) : Grew u (hide butOut (State.discardBatch s sender batch)) := by
  unfold State.discardBatch
  try dsimp only
  repeat' first
    | with_reducible assumption
    | split
    | (with_reducible apply drainIntake_grew)
    | (with_reducible apply payCredits_grew)
    | with_reducible apply forEach_grew
    | with_reducible apply foldl_grew
    | (intro; intros; try dsimp only)
    | (simp only [count_hide (M := butOut) rfl, onUp_hide (M := butOut) rfl, implies_true, eq_self])

theorem remoteMsg_grew (s : State) (port : Nat) (m : ContribMsg) (hs : Grew u (hide butOut s)) : Grew u (hide butOut (State.remoteMsg s port m)) := by
  unfold State.remoteMsg
  try dsimp only
  repeat' first
    | with_reducible assumption
    | split
    | (with_reducible apply drainIntake_grew)
    | (with_reducible apply oweCredit_grew)
    | with_reducible apply forEach_grew
    | with_reducible apply foldl_grew
    | (intro; intros; try dsimp only)
    | (simp only [addMsg_hide (M := butOut) rfl, implies_true, eq_self])

theorem batchDiscard_grew (s : State) (sender : BitVec 16) (batch : BitVec 32) (hs : Grew u (hide butOut s)) : Grew u (hide butOut (State.batchDiscard s sender batch)) := by
  unfold State.batchDiscard
  try dsimp only
  repeat' first
    | with_reducible assumption
    | split
    | (with_reducible apply discardBatch_grew)
    | with_reducible apply forEach_grew
    | with_reducible apply foldl_grew
    | (intro; intros; try dsimp only)
    | (simp only [onUp_hide (M := butOut) rfl, implies_true, eq_self])

end Sys2Proof.Laws
end

