-- ==== Sys2Proof/Laws/TraceRecovery.lean ====
section
/-!
SUPPORT. What Machine/Recovery.lean defines only adds to what the block has sent out.
-/

namespace Sys2Proof.Laws

open Sys2Proof.Machine

variable {u : State}

theorem recoverBacking_grew (s : State) (t : Table) (v : Version) (k : Key) (src : RowSrc) (hs : Grew u (hide butOut s)) : Grew u (hide butOut (State.recoverBacking s t v k src)) := by
  unfold State.recoverBacking
  try dsimp only
  repeat' first
    | with_reducible assumption
    | split
    | (with_reducible apply readBacking_grew)
    | with_reducible apply forEach_grew
    | with_reducible apply foldl_grew
    | (intro; intros; try dsimp only)
    | (simp only [clean_hide (M := butOut) rfl rfl rfl rfl rfl, count_hide (M := butOut) rfl, loseMaster_hide (M := butOut) rfl, rowGone_hide (M := butOut) rfl rfl rfl rfl rfl rfl, writeCopies_hide (M := butOut) rfl rfl rfl rfl, implies_true, eq_self])

theorem repairLine_grew (s : State) (x : Option (Nat × Nat × Nat)) (hs : Grew u (hide butOut s)) : Grew u (hide butOut (State.repairLine s x)) := by
  unfold State.repairLine
  try dsimp only
  repeat' first
    | with_reducible assumption
    | split
    | (with_reducible apply rowRepair_grew)
    | with_reducible apply forEach_grew
    | with_reducible apply foldl_grew
    | (intro; intros; try dsimp only)
    | (simp only [implies_true, eq_self])

theorem rowRecovery_grew (s : State) (h ver row : Nat) (masterBad twinBad : Bool) (src : RowSrc) (hs : Grew u (hide butOut s)) : Grew u (hide butOut (State.rowRecovery s h ver row masterBad twinBad src)) := by
  unfold State.rowRecovery
  try dsimp only
  repeat' first
    | with_reducible assumption
    | split
    | (with_reducible apply recoverBacking_grew)
    | (with_reducible apply repairLine_grew)
    | with_reducible apply forEach_grew
    | with_reducible apply foldl_grew
    | (intro; intros; try dsimp only)
    | (simp only [countN_hide (M := butOut) rfl, count_hide (M := butOut) rfl, recoverRead_hide (M := butOut) rfl rfl rfl rfl, recoverTwin_hide (M := butOut) rfl rfl rfl rfl, implies_true, eq_self])

theorem execRowRecovery_grew (tbl ver row : Nat) (masterBad twinBad : Bool) (src : RowSrc) (s : State) (t : State) (e : execRowRecovery tbl ver row masterBad twinBad src s = .next t) (hs : Grew u (hide butOut s)) : Grew u (hide butOut t) := by
  refine next_grew e ?_
  repeat' first
    | with_reducible assumption
    | split
    | (with_reducible apply rowRecovery_grew)
    | with_reducible apply forEach_grew
    | with_reducible apply foldl_grew
    | (intro; intros; try dsimp only)
    | (simp only [implies_true, eq_self])

theorem markBad_grew (s : State) (port : Nat) (m : ContribMsg) (hs : Grew u (hide butOut s)) : Grew u (hide butOut (State.markBad s port m)) := by
  unfold State.markBad
  try dsimp only
  repeat' first
    | with_reducible assumption
    | split
    | (with_reducible apply drainIntake_grew)
    | (with_reducible apply payCredits_grew)
    | with_reducible apply forEach_grew
    | with_reducible apply foldl_grew
    | (intro; intros; try dsimp only)
    | (simp only [onUp_hide (M := butOut) rfl, implies_true, eq_self])

theorem inboundBad_grew (s : State) (port : Nat) (msg : BadMsg) (hs : Grew u (hide butOut s)) : Grew u (hide butOut (State.inboundBad s port msg)) := by
  unfold State.inboundBad
  try dsimp only
  repeat' first
    | with_reducible assumption
    | split
    | (with_reducible apply markBad_grew)
    | (with_reducible apply send_grew)
    | (with_reducible apply oweCredit_grew)
    | with_reducible apply forEach_grew
    | with_reducible apply foldl_grew
    | (intro; intros; try dsimp only)
    | (simp only [count_hide (M := butOut) rfl, implies_true, eq_self])

theorem poisonCmd_grew (s : State) (p : Path) (op : Nat) (audited : Bool) (val : Word64) (run : State → Nat → Nat → Nat → State) (h_run : ∀ (x0 : State) (x1 : Nat) (x2 : Nat) (x3 : Nat), Grew u (hide butOut x0) → Grew u (hide butOut (run x0 x1 x2 x3))) (hs : Grew u (hide butOut s)) : Grew u (hide butOut (State.poisonCmd s p op audited val run)) := by
  unfold State.poisonCmd
  try dsimp only
  repeat' first
    | with_reducible assumption
    | split
    | (with_reducible apply command_grew)
    | (with_reducible apply h_run)
    | with_reducible apply forEach_grew
    | with_reducible apply foldl_grew
    | (intro; intros; try dsimp only)
    | (simp only [put_poisonCmd_hide (M := butOut) rfl, implies_true, eq_self])

theorem poisonQuery_grew (s : State) (p : Path) (val : Word64) (hs : Grew u (hide butOut s)) : Grew u (hide butOut (State.poisonQuery s p val)) := by
  unfold State.poisonQuery
  try dsimp only
  repeat' first
    | with_reducible assumption
    | split
    | (with_reducible apply poisonCmd_grew)
    | with_reducible apply forEach_grew
    | with_reducible apply foldl_grew
    | (intro; intros; try dsimp only)
    | (simp only [cmdField_hide (M := butOut), finish_hide (M := butOut), put_poisonCmd_hide (M := butOut) rfl, implies_true, eq_self])

theorem execQuery_grew (p : Path) (val : Word64) (s : State) (t : State) (e : execQuery p val s = .next t) (hs : Grew u (hide butOut s)) : Grew u (hide butOut t) := by
  refine next_grew e ?_
  repeat' first
    | with_reducible assumption
    | split
    | (with_reducible apply poisonQuery_grew)
    | with_reducible apply forEach_grew
    | with_reducible apply foldl_grew
    | (intro; intros; try dsimp only)
    | (simp only [implies_true, eq_self])

theorem poisonClear_grew (s : State) (p : Path) (val : Word64) (hs : Grew u (hide butOut s)) : Grew u (hide butOut (State.poisonClear s p val)) := by
  unfold State.poisonClear
  try dsimp only
  repeat' first
    | with_reducible assumption
    | split
    | (with_reducible apply poisonCmd_grew)
    | with_reducible apply forEach_grew
    | with_reducible apply foldl_grew
    | (intro; intros; try dsimp only)
    | (simp only [finish_hide (M := butOut), unpoison_hide (M := butOut) rfl, put_poisonCmd_hide (M := butOut) rfl, implies_true, eq_self])

theorem execPoisonClear_grew (p : Path) (val : Word64) (s : State) (t : State) (e : execPoisonClear p val s = .next t) (hs : Grew u (hide butOut s)) : Grew u (hide butOut t) := by
  refine next_grew e ?_
  repeat' first
    | with_reducible assumption
    | split
    | (with_reducible apply poisonClear_grew)
    | with_reducible apply forEach_grew
    | with_reducible apply foldl_grew
    | (intro; intros; try dsimp only)
    | (simp only [implies_true, eq_self])

theorem eventWrite_grew (s : State) (hs : Grew u (hide butOut s)) : Grew u (hide butOut (State.eventWrite s)) := by
  unfold State.eventWrite
  try dsimp only
  repeat' first
    | with_reducible assumption
    | split
    | (with_reducible apply putSlot_grew)
    | (with_reducible apply signal_grew)
    | with_reducible apply forEach_grew
    | with_reducible apply foldl_grew
    | (intro; intros; try dsimp only)
    | (simp only [onTel_hide (M := butOut) rfl, implies_true, eq_self])

theorem execEventWrite_grew (s : State) (t : State) (e : execEventWrite s = .next t) (hs : Grew u (hide butOut s)) : Grew u (hide butOut t) := by
  refine next_grew e ?_
  repeat' first
    | with_reducible assumption
    | split
    | (with_reducible apply eventWrite_grew)
    | with_reducible apply forEach_grew
    | with_reducible apply foldl_grew
    | (intro; intros; try dsimp only)
    | (simp only [implies_true, eq_self])

end Sys2Proof.Laws
end

