-- ==== Sys2Proof/Laws/TraceRegCmds.lean ====
section
/-!
SUPPORT. What Machine/RegCmds.lean defines only adds to what the block has sent out.
-/

namespace Sys2Proof.Laws

open Sys2Proof.Machine

variable {u : State}

theorem cmdWrite_grew (s : State) (p : Path) (off size : Nat) (val : Word64) (c : CmdForm) (hs : Grew u (hide butOut s)) : Grew u (hide butOut (State.cmdWrite s p off size val c)) := by
  unfold State.cmdWrite
  try dsimp only
  repeat' first
    | with_reducible assumption
    | split
    | (with_reducible apply regWrite_grew)
    | with_reducible apply forEach_grew
    | with_reducible apply foldl_grew
    | (intro; intros; try dsimp only)
    | (simp only [badOp_hide (M := butOut) rfl rfl rfl rfl rfl rfl rfl rfl, ignoreWrite_hide (M := butOut) rfl, regPut_hide (M := butOut) rfl rfl rfl rfl rfl rfl rfl rfl, implies_true, eq_self])

theorem noReg_grew (s : State) (p : Path) (off : Nat) (val : Word64) (hs : Grew u (hide butOut s)) : Grew u (hide butOut (State.noReg s p off val)) := by
  unfold State.noReg
  try dsimp only
  repeat' first
    | with_reducible assumption
    | split
    | (with_reducible apply shutOut_grew)
    | with_reducible apply forEach_grew
    | with_reducible apply foldl_grew
    | (intro; intros; try dsimp only)
    | (simp only [denyWrite_hide (M := butOut) rfl rfl, ignoreWrite_hide (M := butOut) rfl, implies_true, eq_self])

theorem counterWrite_grew (s : State) (p : Path) (off size : Nat) (val : Word64) (hs : Grew u (hide butOut s)) : Grew u (hide butOut (State.counterWrite s p off size val)) := by
  unfold State.counterWrite
  try dsimp only
  repeat' first
    | with_reducible assumption
    | split
    | (with_reducible apply shutOut_grew)
    | with_reducible apply forEach_grew
    | with_reducible apply foldl_grew
    | (intro; intros; try dsimp only)
    | (simp only [auditReg_hide (M := butOut) rfl rfl, denyWrite_hide (M := butOut) rfl rfl, ignoreWrite_hide (M := butOut) rfl, implies_true, eq_self])

theorem resetReg_grew (s : State) (p : Path) (off size : Nat) (val : Word64) (hs : Grew u (hide butOut s)) : Grew u (hide butOut (State.resetReg s p off size val)) := by
  unfold State.resetReg
  try dsimp only
  repeat' first
    | with_reducible assumption
    | split
    | (with_reducible apply regWrite_grew)
    | with_reducible apply forEach_grew
    | with_reducible apply foldl_grew
    | (intro; intros; try dsimp only)
    | (simp only [auditReg_hide (M := butOut) rfl rfl, implies_true, eq_self])

theorem registerWrite_grew (s : State) (p : Path) (off size : Nat) (val : Word64) (hs : Grew u (hide butOut s)) : Grew u (hide butOut (State.registerWrite s p off size val)) := by
  unfold State.registerWrite
  try dsimp only
  repeat' first
    | with_reducible assumption
    | split
    | (with_reducible apply authWrite_grew)
    | (with_reducible apply cmdWrite_grew)
    | (with_reducible apply counterWrite_grew)
    | (with_reducible apply ctxWrite_grew)
    | (with_reducible apply eyeletWrite_grew)
    | (with_reducible apply noReg_grew)
    | (with_reducible apply optSel_grew)
    | (with_reducible apply partWrite_grew)
    | (with_reducible apply regWrite_grew)
    | (with_reducible apply resetReg_grew)
    | (with_reducible apply shutOut_grew)
    | with_reducible apply forEach_grew
    | with_reducible apply foldl_grew
    | (intro; intros; try dsimp only)
    | (simp only [ignoreWrite_hide (M := butOut) rfl, regTake_hide (M := butOut) rfl rfl rfl rfl rfl rfl rfl rfl, implies_true, eq_self])

theorem execRegisterWrite_grew (p : Path) (off size : Nat) (val : Word64) (s : State) (t : State) (e : execRegisterWrite p off size val s = .next t) (hs : Grew u (hide butOut s)) : Grew u (hide butOut t) := by
  refine next_grew e ?_
  repeat' first
    | with_reducible assumption
    | split
    | (with_reducible apply registerWrite_grew)
    | with_reducible apply forEach_grew
    | with_reducible apply foldl_grew
    | (intro; intros; try dsimp only)
    | (simp only [implies_true, eq_self])

end Sys2Proof.Laws
end

