-- ==== Sys2Proof/Laws/TraceRescale.lean ====
section
/-!
SUPPORT. What Machine/Rescale.lean defines only adds to what the block has sent out.
-/

namespace Sys2Proof.Laws

open Sys2Proof.Machine

variable {u : State}

theorem rscCmd_grew (s : State) (p : Path) (op : Nat) (run : State → State) (h_run : ∀ (x0 : State), Grew u (hide butOut x0) → Grew u (hide butOut (run x0))) (hs : Grew u (hide butOut s)) : Grew u (hide butOut (State.rscCmd s p op run)) := by
  unfold State.rscCmd
  try dsimp only
  repeat' first
    | with_reducible assumption
    | split
    | (with_reducible apply command_grew)
    | (with_reducible apply h_run)
    | with_reducible apply forEach_grew
    | with_reducible apply foldl_grew
    | (intro; intros; try dsimp only)
    | (simp only [put_rscCmd_hide (M := butOut) rfl, implies_true, eq_self])

theorem loadFails_grew (s : State) (p : Path) (result index : Nat) (hs : Grew u (hide butOut s)) : Grew u (hide butOut (State.loadFails s p result index)) := by
  unfold State.loadFails
  try dsimp only
  repeat' first
    | with_reducible assumption
    | split
    | (with_reducible apply rscCmd_grew)
    | with_reducible apply forEach_grew
    | with_reducible apply foldl_grew
    | (intro; intros; try dsimp only)
    | (simp only [cmdField_hide (M := butOut), finish_hide (M := butOut), onQz_hide (M := butOut) rfl, put_rscCmd_hide (M := butOut) rfl, implies_true, eq_self])

theorem rscLoad_grew (s : State) (p : Path) (img : Feed) (hs : Grew u (hide butOut s)) : Grew u (hide butOut (State.rscLoad s p img)) := by
  unfold State.rscLoad
  try dsimp only
  repeat' first
    | with_reducible assumption
    | split
    | (with_reducible apply loadFails_grew)
    | with_reducible apply forEach_grew
    | with_reducible apply foldl_grew
    | (intro; intros; try dsimp only)
    | (simp only [countN_hide (M := butOut) rfl, endLoad_hide (M := butOut) rfl rfl, onQz_hide (M := butOut) rfl, implies_true, eq_self])

theorem execLoad_grew (p : Path) (img : Feed) (s : State) (t : State) (e : execLoad p img s = .next t) (hs : Grew u (hide butOut s)) : Grew u (hide butOut t) := by
  refine next_grew e ?_
  repeat' first
    | with_reducible assumption
    | split
    | (with_reducible apply rscCmd_grew)
    | (with_reducible apply rscLoad_grew)
    | with_reducible apply forEach_grew
    | with_reducible apply foldl_grew
    | (intro; intros; try dsimp only)
    | (simp only [implies_true, eq_self])

theorem rscSwap_grew (s : State) (p : Path) (hs : Grew u (hide butOut s)) : Grew u (hide butOut (State.rscSwap s p)) := by
  unfold State.rscSwap
  try dsimp only
  repeat' first
    | with_reducible assumption
    | split
    | (with_reducible apply rscCmd_grew)
    | with_reducible apply forEach_grew
    | with_reducible apply foldl_grew
    | (intro; intros; try dsimp only)
    | (simp only [count_hide (M := butOut) rfl, finish_hide (M := butOut), onQz_hide (M := butOut) rfl, put_rscCmd_hide (M := butOut) rfl, implies_true, eq_self])

theorem execSwap_grew (p : Path) (s : State) (t : State) (e : execSwap p s = .next t) (hs : Grew u (hide butOut s)) : Grew u (hide butOut t) := by
  refine next_grew e ?_
  repeat' first
    | with_reducible assumption
    | split
    | (with_reducible apply rscCmd_grew)
    | (with_reducible apply rscSwap_grew)
    | with_reducible apply forEach_grew
    | with_reducible apply foldl_grew
    | (intro; intros; try dsimp only)
    | (simp only [implies_true, eq_self])

end Sys2Proof.Laws
end

