-- ==== Sys2Proof/Laws/TraceRings.lean ====
section
/-!
SUPPORT. What Machine/Rings.lean defines only adds to what the block has sent out.
-/

namespace Sys2Proof.Laws

open Sys2Proof.Machine

variable {u : State}

theorem ringCmd_grew (s : State) (p : Path) (ring op : Nat) (run : State → State) (h_run : ∀ (x0 : State), Grew u (hide butOut x0) → Grew u (hide butOut (run x0))) (hs : Grew u (hide butOut s)) : Grew u (hide butOut (State.ringCmd s p ring op run)) := by
  unfold State.ringCmd
  try dsimp only
  repeat' first
    | with_reducible assumption
    | split
    | (with_reducible apply command_grew)
    | (with_reducible apply h_run)
    | with_reducible apply forEach_grew
    | with_reducible apply foldl_grew
    | (intro; intros; try dsimp only)
    | (simp only [onSt_hide (M := butOut) rfl, put_ringCmd_hide (M := butOut) rfl, implies_true, eq_self])

theorem ringDone_grew (s : State) (p : Path) (result : Nat) (hs : Grew u (hide butOut s)) : Grew u (hide butOut (State.ringDone s p result)) := by
  unfold State.ringDone
  try dsimp only
  repeat' first
    | with_reducible assumption
    | split
    | (with_reducible apply ringCmd_grew)
    | with_reducible apply forEach_grew
    | with_reducible apply foldl_grew
    | (intro; intros; try dsimp only)
    | (simp only [finish_hide (M := butOut), put_ringCmd_hide (M := butOut) rfl, implies_true, eq_self])

theorem enableRing_grew (s : State) (p : Path) (k : Nat) (entry : Bytes) (hs : Grew u (hide butOut s)) : Grew u (hide butOut (State.enableRing s p k entry)) := by
  unfold State.enableRing
  try dsimp only
  repeat' first
    | with_reducible assumption
    | split
    | (with_reducible apply adoptWord_grew)
    | (with_reducible apply fitRing_grew)
    | (with_reducible apply ringDone_grew)
    | with_reducible apply forEach_grew
    | with_reducible apply foldl_grew
    | (intro; intros; try dsimp only)
    | (simp only [setRing_hide (M := butOut) rfl, implies_true, eq_self])

theorem execEnable_grew (p : Path) (ring : Nat) (entry : Bytes) (s : State) (t : State) (e : execEnable p ring entry s = .next t) (hs : Grew u (hide butOut s)) : Grew u (hide butOut t) := by
  refine next_grew e ?_
  repeat' first
    | with_reducible assumption
    | split
    | (with_reducible apply enableRing_grew)
    | (with_reducible apply ringCmd_grew)
    | with_reducible apply forEach_grew
    | with_reducible apply foldl_grew
    | (intro; intros; try dsimp only)
    | (simp only [implies_true, eq_self])

theorem stopRing_grew (s : State) (p : Path) (k : Nat) (hs : Grew u (hide butOut s)) : Grew u (hide butOut (State.stopRing s p k)) := by
  unfold State.stopRing
  try dsimp only
  repeat' first
    | with_reducible assumption
    | split
    | (with_reducible apply drained_grew)
    | (with_reducible apply fitRing_grew)
    | (with_reducible apply ringDone_grew)
    | with_reducible apply forEach_grew
    | with_reducible apply foldl_grew
    | (intro; intros; try dsimp only)
    | (simp only [abandonSorting_hide (M := butOut) rfl rfl rfl rfl, discardQueued_hide (M := butOut) rfl rfl rfl rfl, setRing_hide (M := butOut) rfl, onFe_hide (M := butOut) rfl, implies_true, eq_self])

theorem pauseRing_grew (s : State) (p : Path) (k : Nat) (hs : Grew u (hide butOut s)) : Grew u (hide butOut (State.pauseRing s p k)) := by
  unfold State.pauseRing
  try dsimp only
  repeat' first
    | with_reducible assumption
    | split
    | (with_reducible apply ringDone_grew)
    | with_reducible apply forEach_grew
    | with_reducible apply foldl_grew
    | (intro; intros; try dsimp only)
    | (simp only [onRing_hide (M := butOut) rfl, onFe_hide (M := butOut) rfl, implies_true, eq_self])

theorem flushHeld_grew (s : State) (hs : Grew u (hide butOut s)) : Grew u (hide butOut (State.flushHeld s)) := by
  unfold State.flushHeld
  try dsimp only
  repeat' first
    | with_reducible assumption
    | split
    | (with_reducible apply finishRecord_grew)
    | with_reducible apply forEach_grew
    | with_reducible apply foldl_grew
    | (intro; intros; try dsimp only)
    | (simp only [forEach_hide, implies_true, eq_self])

theorem replayAll_grew (s : State) (k : Nat) (hs : Grew u (hide butOut s)) : Grew u (hide butOut (State.replayAll s k)) := by
  unfold State.replayAll
  try dsimp only
  repeat' first
    | with_reducible assumption
    | split
    | (with_reducible apply letIn_grew)
    | with_reducible apply forEach_grew
    | with_reducible apply foldl_grew
    | (intro; intros; try dsimp only)
    | (simp only [endLoad_hide (M := butOut) rfl rfl, replay_hide (M := butOut) rfl rfl, setDesc_hide (M := butOut) rfl, forEach_hide, implies_true, eq_self])

theorem resumeRing_grew (s : State) (p : Path) (k : Nat) (entry : Bytes) (hs : Grew u (hide butOut s)) : Grew u (hide butOut (State.resumeRing s p k entry)) := by
  unfold State.resumeRing
  try dsimp only
  repeat' first
    | with_reducible assumption
    | split
    | (with_reducible apply adoptWord_grew)
    | (with_reducible apply drained_grew)
    | (with_reducible apply fitRing_grew)
    | (with_reducible apply flushHeld_grew)
    | (with_reducible apply replayAll_grew)
    | (with_reducible apply reserveAll_grew)
    | (with_reducible apply ringDone_grew)
    | with_reducible apply forEach_grew
    | with_reducible apply foldl_grew
    | (intro; intros; try dsimp only)
    | (simp only [announce_hide (M := butOut) rfl, setRing_hide (M := butOut) rfl, implies_true, eq_self])

theorem execResume_grew (p : Path) (ring : Nat) (entry : Bytes) (s : State) (t : State) (e : execResume p ring entry s = .next t) (hs : Grew u (hide butOut s)) : Grew u (hide butOut t) := by
  refine next_grew e ?_
  repeat' first
    | with_reducible assumption
    | split
    | (with_reducible apply resumeRing_grew)
    | (with_reducible apply ringCmd_grew)
    | with_reducible apply forEach_grew
    | with_reducible apply foldl_grew
    | (intro; intros; try dsimp only)
    | (simp only [implies_true, eq_self])

theorem resetCmd_grew (s : State) (p : Path) (k : Nat) (hs : Grew u (hide butOut s)) : Grew u (hide butOut (State.resetCmd s p k)) := by
  unfold State.resetCmd
  try dsimp only
  repeat' first
    | with_reducible assumption
    | split
    | (with_reducible apply resetRing_grew)
    | (with_reducible apply ringDone_grew)
    | with_reducible apply forEach_grew
    | with_reducible apply foldl_grew
    | (intro; intros; try dsimp only)
    | (simp only [implies_true, eq_self])

theorem execDumpAll_grew (p : RingWrite) (s : State) (t : State) (e : execDumpAll p s = .next t) (hs : Grew u (hide butOut s)) : Grew u (hide butOut t) := by
  refine next_grew e ?_
  repeat' first
    | with_reducible assumption
    | split
    | (with_reducible apply ringCmd_grew)
    | (with_reducible apply ringDone_grew)
    | (with_reducible apply sendAll_grew)
    | with_reducible apply forEach_grew
    | with_reducible apply foldl_grew
    | (intro; intros; try dsimp only)
    | (simp only [implies_true, eq_self])

theorem execDumpOne_grew (p : Path) (ring : Nat) (s : State) (t : State) (e : execDumpOne p ring s = .next t) (hs : Grew u (hide butOut s)) : Grew u (hide butOut t) := by
  refine next_grew e ?_
  repeat' first
    | with_reducible assumption
    | split
    | (with_reducible apply ringCmd_grew)
    | (with_reducible apply ringDone_grew)
    | (with_reducible apply send_grew)
    | with_reducible apply forEach_grew
    | with_reducible apply foldl_grew
    | (intro; intros; try dsimp only)
    | (simp only [implies_true, eq_self])

end Sys2Proof.Laws
end

