-- ==== Sys2Proof/Laws/TraceWindows.lean ====
section
/-!
SUPPORT. What Machine/Windows.lean defines only adds to what the block has sent out.
-/

namespace Sys2Proof.Laws

open Sys2Proof.Machine

variable {u : State}

theorem wakeSlices_grew (s : State) (d : Desc) (hs : Grew u (hide butOut s)) : Grew u (hide butOut (State.wakeSlices s d)) := by
  unfold State.wakeSlices
  try dsimp only
  repeat' first
    | with_reducible assumption
    | split
    | (with_reducible apply send_grew)
    | with_reducible apply forEach_grew
    | with_reducible apply foldl_grew
    | (intro; intros; try dsimp only)
    | (simp only [onPw_hide (M := butOut) rfl])

theorem admitWindow_grew (s : State) (d : Desc) (hs : Grew u (hide butOut s)) : Grew u (hide butOut (State.admitWindow s d)) := by
  unfold State.admitWindow
  try dsimp only
  repeat' first
    | with_reducible assumption
    | split
    | (with_reducible apply wakeSlices_grew)
    | with_reducible apply forEach_grew
    | with_reducible apply foldl_grew
    | (intro; intros; try dsimp only)
    | (simp only [bindBank_hide (M := butOut) rfl, enterWindow_hide (M := butOut) rfl rfl, onDesc_hide (M := butOut) rfl, onFe_hide (M := butOut) rfl])

theorem intakeAll_grew (s : State) (feeds : List (Nat × WinFeed)) (y0 : List Member') (hs : Grew u (hide butOut s)) : Grew u (hide butOut (State.intakeAll s feeds y0).1) := by
  revert hs
  fun_induction State.intakeAll s feeds y0
  all_goals
    intro hs
    repeat' first
      | with_reducible assumption
      | split
      | (with_reducible apply inputsDone_grew)
      | (with_reducible apply_assumption)
      | with_reducible apply forEach_grew
      | with_reducible apply foldl_grew
      | (intro; intros; try dsimp only)
      | (simp +zetaDelta only [intakeOne_hide (M := butOut) rfl rfl rfl rfl, implies_true, eq_self])

theorem startWindow_grew (s : State) (w : Window) (sorter : Nat) (feeds : List (Nat × WinFeed)) (hs : Grew u (hide butOut s)) : Grew u (hide butOut (State.startWindow s w sorter feeds)) := by
  unfold State.startWindow
  try dsimp only
  repeat' first
    | with_reducible assumption
    | split
    | (with_reducible apply intakeAll_grew)
    | with_reducible apply forEach_grew
    | with_reducible apply foldl_grew
    | (intro; intros; try dsimp only)
    | (simp only [count_hide (M := butOut) rfl, reserveWindow_hide (M := butOut) rfl, tell_hide (M := butOut) rfl, onSp_hide (M := butOut) rfl, implies_true, eq_self])

theorem takeAgain_grew (s : State) (k : Nat) (feeds : List (Nat × WinFeed)) (hs : Grew u (hide butOut s)) : Grew u (hide butOut (State.takeAgain s k feeds)) := by
  unfold State.takeAgain
  try dsimp only
  repeat' first
    | with_reducible assumption
    | split
    | (with_reducible apply intakeAll_grew)
    | (with_reducible apply readOn_grew)
    | with_reducible apply forEach_grew
    | with_reducible apply foldl_grew
    | (intro; intros; try dsimp only)
    | (simp only [onSp_hide (M := butOut) rfl, forEach_hide, implies_true, eq_self])

theorem startNext_grew (s : State) (w : Window) (sorter : Nat) (feeds : List (Nat × WinFeed)) (hs : Grew u (hide butOut s)) : Grew u (hide butOut (State.startNext s w sorter feeds)) := by
  unfold State.startNext
  try dsimp only
  repeat' first
    | with_reducible assumption
    | split
    | (with_reducible apply readOn_grew)
    | (with_reducible apply startWindow_grew)
    | with_reducible apply forEach_grew
    | with_reducible apply foldl_grew
    | (intro; intros; try dsimp only)
    | (simp only [forEach_hide, implies_true, eq_self])

theorem startHead_grew (s : State) (feeds : List (Nat × WinFeed)) (hs : Grew u (hide butOut s)) : Grew u (hide butOut (State.startHead s feeds)) := by
  unfold State.startHead
  try dsimp only
  repeat' first
    | with_reducible assumption
    | split
    | (with_reducible apply startNext_grew)
    | with_reducible apply forEach_grew
    | with_reducible apply foldl_grew
    | (intro; intros; try dsimp only)
    | (simp only [count_hide (M := butOut) rfl, reserveWindow_hide (M := butOut) rfl, onSp_hide (M := butOut) rfl, implies_true, eq_self])

theorem windowStart_grew (s : State) (feeds : List (Nat × WinFeed)) (hs : Grew u (hide butOut s)) : Grew u (hide butOut (State.windowStart s feeds)) := by
  unfold State.windowStart
  try dsimp only
  repeat' first
    | with_reducible assumption
    | split
    | (with_reducible apply startHead_grew)
    | (with_reducible apply takeAgain_grew)
    | with_reducible apply forEach_grew
    | with_reducible apply foldl_grew
    | (intro; intros; try dsimp only)
    | (simp only [forEach_hide, implies_true, eq_self])

theorem execWindowStart_grew (feeds : List (Nat × WinFeed)) (s : State) (t : State) (e : execWindowStart feeds s = .next t) (hs : Grew u (hide butOut s)) : Grew u (hide butOut t) := by
  refine next_grew e ?_
  repeat' first
    | with_reducible assumption
    | split
    | (with_reducible apply windowStart_grew)
    | with_reducible apply forEach_grew
    | with_reducible apply foldl_grew
    | (intro; intros; try dsimp only)
    | (simp only [implies_true, eq_self])

end Sys2Proof.Laws
end

