-- ==== Sys2Proof/Laws/TraceScatter.lean ====
section
/-!
SUPPORT. What Machine/Scatter.lean defines only adds to what the block has sent out.
-/

namespace Sys2Proof.Laws

open Sys2Proof.Machine

variable {u : State}

theorem sendBatch_grew (s : State) (id : Nat) (epoch : BitVec 32) (node : BitVec 16) (cs : List Contrib) (hs : Grew u (hide butOut s)) : Grew u (hide butOut (State.sendBatch s id epoch node cs)) := by
  unfold State.sendBatch
  try dsimp only
  repeat' first
    | with_reducible assumption
    | split
    | (with_reducible apply fabSendAll_grew)
    | with_reducible apply forEach_grew
    | with_reducible apply foldl_grew
    | (intro; intros; try dsimp only)
    | (simp only [countN_hide (M := butOut) rfl, onUp_hide (M := butOut) rfl, implies_true, eq_self])

theorem sendForwards_grew (s : State) (id : Nat) (epoch : BitVec 32) (fs : List (BitVec 16 × Contrib)) (hs : Grew u (hide butOut s)) : Grew u (hide butOut (State.sendForwards s id epoch fs)) := by
  unfold State.sendForwards
  try dsimp only
  repeat' first
    | with_reducible assumption
    | split
    | (with_reducible apply sendBatch_grew)
    | with_reducible apply forEach_grew
    | with_reducible apply foldl_grew
    | (intro; intros; try dsimp only)
    | (simp only [forEach_hide, implies_true, eq_self])

theorem accept_grew (s : State) (d : Desc) (epoch : BitVec 32) (own : List Contrib) (fs : List (BitVec 16 × Contrib)) (hs : Grew u (hide butOut s)) : Grew u (hide butOut (State.accept s d epoch own fs)) := by
  unfold State.accept
  try dsimp only
  repeat' first
    | with_reducible assumption
    | split
    | (with_reducible apply sendForwards_grew)
    | with_reducible apply forEach_grew
    | with_reducible apply foldl_grew
    | (intro; intros; try dsimp only)
    | (simp only [acceptAll_hide (M := butOut) rfl rfl rfl, endDesc_hide (M := butOut) rfl, endReserve_hide (M := butOut) rfl, endScatter_hide (M := butOut) rfl, fitAll_hide (M := butOut) rfl, onDesc_hide (M := butOut) rfl, implies_true, eq_self])

theorem runScatter_grew (s : State) (d : Desc) (grad : Feed) (hs : Grew u (hide butOut s)) : Grew u (hide butOut (State.runScatter s d grad)) := by
  unfold State.runScatter
  try dsimp only
  repeat' first
    | with_reducible assumption
    | split
    | (with_reducible apply accept_grew)
    | (with_reducible apply inputsDone_grew)
    | (with_reducible apply readOn_grew)
    | with_reducible apply forEach_grew
    | with_reducible apply foldl_grew
    | (intro; intros; try dsimp only)
    | (simp only [count_hide (M := butOut) rfl, scatterFault_hide (M := butOut) rfl rfl rfl, implies_true, eq_self])

theorem scatterLists_grew (s : State) (id : Nat) (grad : Feed) (hs : Grew u (hide butOut s)) : Grew u (hide butOut (State.scatterLists s id grad)) := by
  unfold State.scatterLists
  try dsimp only
  repeat' first
    | with_reducible assumption
    | split
    | (with_reducible apply runScatter_grew)
    | with_reducible apply forEach_grew
    | with_reducible apply foldl_grew
    | (intro; intros; try dsimp only)
    | (simp only [enterIntake_hide (M := butOut) rfl rfl rfl, implies_true, eq_self])

theorem execScatterGradLists_grew (id : Nat) (grad : Feed) (s : State) (t : State) (e : execScatterGradLists id grad s = .next t) (hs : Grew u (hide butOut s)) : Grew u (hide butOut t) := by
  refine next_grew e ?_
  repeat' first
    | with_reducible assumption
    | split
    | (with_reducible apply scatterLists_grew)
    | with_reducible apply forEach_grew
    | with_reducible apply foldl_grew
    | (intro; intros; try dsimp only)
    | (simp only [implies_true, eq_self])

theorem scatterRows_grew (s : State) (id : Nat) (grad : Feed) (hs : Grew u (hide butOut s)) : Grew u (hide butOut (State.scatterRows s id grad)) := by
  unfold State.scatterRows
  try dsimp only
  repeat' first
    | with_reducible assumption
    | split
    | (with_reducible apply admitWindow_grew)
    | (with_reducible apply runScatter_grew)
    | with_reducible apply forEach_grew
    | with_reducible apply foldl_grew
    | (intro; intros; try dsimp only)
    | (simp only [endDesc_hide (M := butOut) rfl, implies_true, eq_self])

theorem execScatterGradRows_grew (id : Nat) (grad : Feed) (s : State) (t : State) (e : execScatterGradRows id grad s = .next t) (hs : Grew u (hide butOut s)) : Grew u (hide butOut t) := by
  refine next_grew e ?_
  repeat' first
    | with_reducible assumption
    | split
    | (with_reducible apply scatterRows_grew)
    | with_reducible apply forEach_grew
    | with_reducible apply foldl_grew
    | (intro; intros; try dsimp only)
    | (simp only [implies_true, eq_self])

theorem takeAck_grew (s : State) (batch : BitVec 32) (accepted late dropped rejected : Nat) (hs : Grew u (hide butOut s)) : Grew u (hide butOut (State.takeAck s batch accepted late dropped rejected)) := by
  unfold State.takeAck
  try dsimp only
  repeat' first
    | with_reducible assumption
    | split
    | (with_reducible apply fabSettle_grew)
    | with_reducible apply forEach_grew
    | with_reducible apply foldl_grew
    | (intro; intros; try dsimp only)
    | (simp only [countN_hide (M := butOut) rfl, endScatter_hide (M := butOut) rfl, onDesc_hide (M := butOut) rfl, onUp_hide (M := butOut) rfl, implies_true, eq_self])

theorem batchAck_grew (s : State) (port : Nat) (batch : BitVec 32) (accepted late dropped rejected : Nat) (hs : Grew u (hide butOut s)) : Grew u (hide butOut (State.batchAck s port batch accepted late dropped rejected)) := by
  unfold State.batchAck
  try dsimp only
  repeat' first
    | with_reducible assumption
    | split
    | (with_reducible apply send_grew)
    | (with_reducible apply takeAck_grew)
    | with_reducible apply forEach_grew
    | with_reducible apply foldl_grew
    | (intro; intros; try dsimp only)
    | (simp only [implies_true, eq_self])

theorem ackTimeout_grew (s : State) (batch : BitVec 32) (hs : Grew u (hide butOut s)) : Grew u (hide butOut (State.ackTimeout s batch)) := by
  unfold State.ackTimeout
  try dsimp only
  repeat' first
    | with_reducible assumption
    | split
    | (with_reducible apply fabSettle_grew)
    | with_reducible apply forEach_grew
    | with_reducible apply foldl_grew
    | (intro; intros; try dsimp only)
    | (simp only [count_hide (M := butOut) rfl, countN_hide (M := butOut) rfl, endScatter_hide (M := butOut) rfl, onDesc_hide (M := butOut) rfl, onUp_hide (M := butOut) rfl, implies_true, eq_self])

end Sys2Proof.Laws
end

