-- ==== Sys2Proof/Laws/TraceRest.lean ====
section
/-!
SUPPORT. What Machine/Rest.lean defines only adds to what the block has sent out.
-/

namespace Sys2Proof.Laws

open Sys2Proof.Machine

variable {u : State}

theorem execDescriptorReadReturn_grew (ring : Nat) (slots : List Slot) (s : State) (t : State) (e : execDescriptorReadReturn ring slots s = .next t) (hs : Grew u (hide butOut s)) : Grew u (hide butOut t) := by
  refine next_grew e ?_
  repeat' first
    | with_reducible assumption
    | split
    | (with_reducible apply readReturn_grew)
    | (with_reducible apply rest_grew)
    | with_reducible apply forEach_grew
    | with_reducible apply foldl_grew
    | (intro; intros; try dsimp only)
    | (simp only [implies_true, eq_self])

theorem execCompletionRecordWrite_grew (id : Nat) (s : State) (t : State) (e : execCompletionRecordWrite id s = .next t) (hs : Grew u (hide butOut s)) : Grew u (hide butOut t) := by
  refine next_grew e ?_
  repeat' first
    | with_reducible assumption
    | split
    | (with_reducible apply recordWrite_grew)
    | (with_reducible apply rest_grew)
    | with_reducible apply forEach_grew
    | with_reducible apply foldl_grew
    | (intro; intros; try dsimp only)
    | (simp only [implies_true, eq_self])

theorem execDisable_grew (p : Path) (ring : Nat) (s : State) (t : State) (e : execDisable p ring s = .next t) (hs : Grew u (hide butOut s)) : Grew u (hide butOut t) := by
  refine next_grew e ?_
  repeat' first
    | with_reducible assumption
    | split
    | (with_reducible apply rest_grew)
    | (with_reducible apply ringCmd_grew)
    | (with_reducible apply stopRing_grew)
    | with_reducible apply forEach_grew
    | with_reducible apply foldl_grew
    | (intro; intros; try dsimp only)
    | (simp only [implies_true, eq_self])

theorem execPause_grew (p : Path) (ring : Nat) (s : State) (t : State) (e : execPause p ring s = .next t) (hs : Grew u (hide butOut s)) : Grew u (hide butOut t) := by
  refine next_grew e ?_
  repeat' first
    | with_reducible assumption
    | split
    | (with_reducible apply pauseRing_grew)
    | (with_reducible apply rest_grew)
    | (with_reducible apply ringCmd_grew)
    | with_reducible apply forEach_grew
    | with_reducible apply foldl_grew
    | (intro; intros; try dsimp only)
    | (simp only [implies_true, eq_self])

theorem execReset_grew (p : Path) (ring : Nat) (s : State) (t : State) (e : execReset p ring s = .next t) (hs : Grew u (hide butOut s)) : Grew u (hide butOut t) := by
  refine next_grew e ?_
  repeat' first
    | with_reducible assumption
    | split
    | (with_reducible apply resetCmd_grew)
    | (with_reducible apply rest_grew)
    | (with_reducible apply ringCmd_grew)
    | with_reducible apply forEach_grew
    | with_reducible apply foldl_grew
    | (intro; intros; try dsimp only)
    | (simp only [implies_true, eq_self])

theorem execHostLinkDown_grew (port : Nat) (s : State) (t : State) (e : execHostLinkDown port s = .next t) (hs : Grew u (hide butOut s)) : Grew u (hide butOut t) := by
  refine next_grew e ?_
  repeat' first
    | with_reducible assumption
    | split
    | (with_reducible apply linkDown_grew)
    | (with_reducible apply rest_grew)
    | with_reducible apply forEach_grew
    | with_reducible apply foldl_grew
    | (intro; intros; try dsimp only)
    | (simp only [implies_true, eq_self])

theorem execFunctionLevelReset_grew (port : FnReset) (s : State) (t : State) (e : execFunctionLevelReset port s = .next t) (hs : Grew u (hide butOut s)) : Grew u (hide butOut t) := by
  refine next_grew e ?_
  repeat' first
    | with_reducible assumption
    | split
    | (with_reducible apply funcReset_grew)
    | (with_reducible apply rest_grew)
    | with_reducible apply forEach_grew
    | with_reducible apply foldl_grew
    | (intro; intros; try dsimp only)
    | (simp only [implies_true, eq_self])

theorem execFabricCreditReturn_grew (port : Nat) (resp : Bool) (n : Nat) (s : State) (t : State) (e : execFabricCreditReturn port resp n s = .next t) (hs : Grew u (hide butOut s)) : Grew u (hide butOut t) := by
  refine next_grew e ?_
  repeat' first
    | with_reducible assumption
    | split
    | (with_reducible apply creditReturn_grew)
    | (with_reducible apply rest_grew)
    | with_reducible apply forEach_grew
    | with_reducible apply foldl_grew
    | (intro; intros; try dsimp only)
    | (simp only [implies_true, eq_self])

theorem execBatchAck_grew (batch : OnPort (BitVec 32)) (accepted late dropped rejected : Nat) (s : State) (t : State) (e : execBatchAck batch accepted late dropped rejected s = .next t) (hs : Grew u (hide butOut s)) : Grew u (hide butOut t) := by
  refine next_grew e ?_
  repeat' first
    | with_reducible assumption
    | split
    | (with_reducible apply batchAck_grew)
    | (with_reducible apply rest_grew)
    | with_reducible apply forEach_grew
    | with_reducible apply foldl_grew
    | (intro; intros; try dsimp only)
    | (simp only [implies_true, eq_self])

theorem execRemoteAckTimeout_grew (batch : BitVec 32) (s : State) (t : State) (e : execRemoteAckTimeout batch s = .next t) (hs : Grew u (hide butOut s)) : Grew u (hide butOut t) := by
  refine next_grew e ?_
  repeat' first
    | with_reducible assumption
    | split
    | (with_reducible apply ackTimeout_grew)
    | (with_reducible apply rest_grew)
    | with_reducible apply forEach_grew
    | with_reducible apply foldl_grew
    | (intro; intros; try dsimp only)
    | (simp only [implies_true, eq_self])

theorem execPillowReserve_grew (s : State) (t : State) (e : execPillowReserve s = .next t) (hs : Grew u (hide butOut s)) : Grew u (hide butOut t) := by
  refine next_grew e ?_
  repeat' first
    | with_reducible assumption
    | split
    | (with_reducible apply pillowReserve_grew)
    | (with_reducible apply rest_grew)
    | with_reducible apply forEach_grew
    | with_reducible apply foldl_grew
    | (intro; intros; try dsimp only)
    | (simp only [implies_true, eq_self])

theorem execRemoteContribution_grew (port : Nat) (msg : ContribMsg) (s : State) (t : State) (e : execRemoteContribution port msg s = .next t) (hs : Grew u (hide butOut s)) : Grew u (hide butOut t) := by
  refine next_grew e ?_
  repeat' first
    | with_reducible assumption
    | split
    | (with_reducible apply remoteMsg_grew)
    | (with_reducible apply rest_grew)
    | with_reducible apply forEach_grew
    | with_reducible apply foldl_grew
    | (intro; intros; try dsimp only)
    | (simp only [implies_true, eq_self])

theorem execBatchDiscard_grew (sender : BitVec 16) (batch : BitVec 32) (s : State) (t : State) (e : execBatchDiscard sender batch s = .next t) (hs : Grew u (hide butOut s)) : Grew u (hide butOut t) := by
  refine next_grew e ?_
  repeat' first
    | with_reducible assumption
    | split
    | (with_reducible apply batchDiscard_grew)
    | (with_reducible apply rest_grew)
    | with_reducible apply forEach_grew
    | with_reducible apply foldl_grew
    | (intro; intros; try dsimp only)
    | (simp only [implies_true, eq_self])

theorem execInboundFabricError_grew (port : Nat) (msg : BadMsg) (s : State) (t : State) (e : execInboundFabricError port msg s = .next t) (hs : Grew u (hide butOut s)) : Grew u (hide butOut t) := by
  refine next_grew e ?_
  repeat' first
    | with_reducible assumption
    | split
    | (with_reducible apply inboundBad_grew)
    | (with_reducible apply rest_grew)
    | with_reducible apply forEach_grew
    | with_reducible apply foldl_grew
    | (intro; intros; try dsimp only)
    | (simp only [implies_true, eq_self])

end Sys2Proof.Laws
end

