-- ==== Sys2Proof/Laws/TraceSkew.lean ====
section
/-!
SUPPORT. What Machine/Skew.lean defines only adds to what the block has sent out.
-/

namespace Sys2Proof.Laws

open Sys2Proof.Machine

variable {u : State}

theorem copyWays_grew (s : State) (ch : Nat) (fails : WbFails) (y0 : List Way) (hs : Grew u (hide butOut s)) : Grew u (hide butOut (State.copyWays s ch fails y0).1) := by
  have key : ∀ (s : State) (w : Way) (n : Nat) (b : Bytes), Grew u (hide butOut s) →
      Grew u (hide butOut (((s.seeHead w.ch w.set).readCopy w n false).placeCopy ch w.key w.ver w.kind w.grade b w.freq 0 .forced fails).1) := by
    intro s w n b hs
    refine placeCopy_grew _ _ _ _ _ _ _ _ _ _ _ ?_
    rw [readCopy_hide (M := butOut) rfl rfl rfl, seeHead_hide (M := butOut) rfl rfl rfl]
    exact hs
  induction y0 generalizing s with
  | nil => exact hs
  | cons w l ih =>
    rw [State.copyWays]
    split
    · exact ih _ (key _ _ _ _ hs)
    · exact key _ _ _ _ hs

theorem migrate_grew (s : State) (k : Key) (ver : Nat) (fails : WbFails) (hs : Grew u (hide butOut s)) : Grew u (hide butOut (State.migrate s k ver fails)) := by
  unfold State.migrate
  try dsimp only
  repeat' first
    | with_reducible assumption
    | split
    | (with_reducible apply admitForced_grew)
    | (with_reducible apply copyWays_grew)
    | with_reducible apply forEach_grew
    | with_reducible apply foldl_grew
    | (intro; intros; try dsimp only)
    | (simp only [count_hide (M := butOut) rfl, dropWays_hide (M := butOut) rfl rfl rfl, endMove_hide (M := butOut) rfl, onWays_hide (M := butOut) rfl, putRedir_hide (M := butOut) rfl, putTwin_hide (M := butOut) rfl rfl rfl, setBand_hide (M := butOut) rfl, tell_hide (M := butOut) rfl, touchHead_hide (M := butOut) rfl rfl rfl, onUp_hide (M := butOut) rfl, implies_true, eq_self])

theorem execMigrationPublish_grew (tbl ver row : Nat) (fails : WbFails) (s : State) (t : State) (e : execMigrationPublish tbl ver row fails s = .next t) (hs : Grew u (hide butOut s)) : Grew u (hide butOut t) := by
  refine next_grew e ?_
  repeat' first
    | with_reducible assumption
    | split
    | (with_reducible apply migrate_grew)
    | with_reducible apply forEach_grew
    | with_reducible apply foldl_grew
    | (intro; intros; try dsimp only)
    | (simp only [implies_true, eq_self])

theorem addReplicas_grew (s : State) (k : Key) (ver h : Nat) (g : Grade) (b : Bytes) (fails : WbFails) (y0 : List Nat) (hs : Grew u (hide butOut s)) : Grew u (hide butOut (State.addReplicas s k ver h g b fails y0).1) := by
  revert hs
  fun_induction State.addReplicas s k ver h g b fails y0
  all_goals
    intro hs
    repeat' first
      | with_reducible assumption
      | split
      | (with_reducible apply placeCopy_grew)
      | (with_reducible apply_assumption)
      | with_reducible apply forEach_grew
      | with_reducible apply foldl_grew
      | (intro; intros; try dsimp only)
      | (simp +zetaDelta only [implies_true, eq_self])

theorem replicate_grew (s : State) (k : Key) (ver : Nat) (fails : WbFails) (hs : Grew u (hide butOut s)) : Grew u (hide butOut (State.replicate s k ver fails)) := by
  unfold State.replicate
  try dsimp only
  repeat' first
    | with_reducible assumption
    | split
    | (with_reducible apply addReplicas_grew)
    | (with_reducible apply admitForced_grew)
    | with_reducible apply forEach_grew
    | with_reducible apply foldl_grew
    | (intro; intros; try dsimp only)
    | (simp only [count_hide (M := butOut) rfl, dropWays_hide (M := butOut) rfl rfl rfl, endMove_hide (M := butOut) rfl, putRedir_hide (M := butOut) rfl, replicaData_hide (M := butOut) rfl rfl rfl, tell_hide (M := butOut) rfl, implies_true, eq_self])

theorem execReplicationPublish_grew (tbl ver row : Nat) (fails : WbFails) (s : State) (t : State) (e : execReplicationPublish tbl ver row fails s = .next t) (hs : Grew u (hide butOut s)) : Grew u (hide butOut t) := by
  refine next_grew e ?_
  repeat' first
    | with_reducible assumption
    | split
    | (with_reducible apply replicate_grew)
    | with_reducible apply forEach_grew
    | with_reducible apply foldl_grew
    | (intro; intros; try dsimp only)
    | (simp only [implies_true, eq_self])

end Sys2Proof.Laws
end

