-- ==== Sys2Proof/Laws/TraceSpool.lean ====
section
/-!
SUPPORT. What Machine/Spool.lean defines only adds to what the block has sent out.
-/

namespace Sys2Proof.Laws

open Sys2Proof.Machine

variable {u : State}

theorem wakeGroups_grew (s : State) (w : PWin) (hs : Grew u (hide butOut s)) : Grew u (hide butOut (State.wakeGroups s w)) := by
  unfold State.wakeGroups
  try dsimp only
  repeat' first
    | with_reducible assumption
    | split
    | (with_reducible apply send_grew)
    | with_reducible apply forEach_grew
    | with_reducible apply foldl_grew
    | (intro; intros; try dsimp only)
    | (simp only [onPw_hide (M := butOut) rfl, implies_true, eq_self])

theorem grantSpool_grew (s : State) (wid : Nat) (hs : Grew u (hide butOut s)) : Grew u (hide butOut (State.grantSpool s wid)) := by
  unfold State.grantSpool
  try dsimp only
  repeat' first
    | with_reducible assumption
    | split
    | (with_reducible apply settleWin_grew)
    | (with_reducible apply wakeGroups_grew)
    | with_reducible apply forEach_grew
    | with_reducible apply foldl_grew
    | (intro; intros; try dsimp only)
    | (simp only [askTier2_hide (M := butOut) rfl rfl, onPwin_hide (M := butOut) rfl, implies_true, eq_self])

theorem trySpool_grew (s : State) (wid : Nat) (hs : Grew u (hide butOut s)) : Grew u (hide butOut (State.trySpool s wid)) := by
  unfold State.trySpool
  try dsimp only
  repeat' first
    | with_reducible assumption
    | split
    | (with_reducible apply grantSpool_grew)
    | with_reducible apply forEach_grew
    | with_reducible apply foldl_grew
    | (intro; intros; try dsimp only)
    | (simp only [count_hide (M := butOut) rfl, onPwin_hide (M := butOut) rfl, implies_true, eq_self])

theorem placeOne_grew (s : State) (wid : Nat) (hs : Grew u (hide butOut s)) : Grew u (hide butOut (State.placeOne s wid)) := by
  unfold State.placeOne
  try dsimp only
  repeat' first
    | with_reducible assumption
    | split
    | (with_reducible apply trySpool_grew)
    | with_reducible apply forEach_grew
    | with_reducible apply foldl_grew
    | (intro; intros; try dsimp only)
    | (simp only [abandon_hide (M := butOut) rfl rfl rfl, endDesc_hide (M := butOut) rfl, onPwin_hide (M := butOut) rfl, implies_true, eq_self])

theorem placeWin_grew (s : State) (wid : Nat) (hs : Grew u (hide butOut s)) : Grew u (hide butOut (State.placeWin s wid)) := by
  unfold State.placeWin
  try dsimp only
  repeat' first
    | with_reducible assumption
    | split
    | (with_reducible apply placeOne_grew)
    | (with_reducible apply trySpool_grew)
    | with_reducible apply forEach_grew
    | with_reducible apply foldl_grew
    | (intro; intros; try dsimp only)
    | (simp only [count_hide (M := butOut) rfl, onPwin_hide (M := butOut) rfl, onSp_hide (M := butOut) rfl, forEach_hide, implies_true, eq_self])

theorem addPwin_grew (s : State) (w : PWin) (hs : Grew u (hide butOut s)) : Grew u (hide butOut (State.addPwin s w)) := by
  unfold State.addPwin
  try dsimp only
  repeat' first
    | with_reducible assumption
    | split
    | (with_reducible apply placeWin_grew)
    | with_reducible apply forEach_grew
    | with_reducible apply foldl_grew
    | (intro; intros; try dsimp only)
    | (simp only [grantTile_hide (M := butOut) rfl, partChains_hide (M := butOut) rfl, onSp_hide (M := butOut) rfl, forEach_hide, implies_true, eq_self])

theorem spoolGrant_grew (s : State) (hs : Grew u (hide butOut s)) : Grew u (hide butOut (State.spoolGrant s)) := by
  unfold State.spoolGrant
  try dsimp only
  repeat' first
    | with_reducible assumption
    | split
    | (with_reducible apply grantSpool_grew)
    | with_reducible apply forEach_grew
    | with_reducible apply foldl_grew
    | (intro; intros; try dsimp only)
    | (simp only [onPwin_hide (M := butOut) rfl, implies_true, eq_self])

theorem execSpoolGrant_grew (s : State) (t : State) (e : execSpoolGrant s = .next t) (hs : Grew u (hide butOut s)) : Grew u (hide butOut t) := by
  refine next_grew e ?_
  repeat' first
    | with_reducible assumption
    | split
    | (with_reducible apply spoolGrant_grew)
    | with_reducible apply forEach_grew
    | with_reducible apply foldl_grew
    | (intro; intros; try dsimp only)
    | (simp only [implies_true, eq_self])

theorem tileGrant_grew (s : State) (id : Nat) (hs : Grew u (hide butOut s)) : Grew u (hide butOut (State.tileGrant s id)) := by
  unfold State.tileGrant
  try dsimp only
  repeat' first
    | with_reducible assumption
    | split
    | (with_reducible apply placeWin_grew)
    | with_reducible apply forEach_grew
    | with_reducible apply foldl_grew
    | (intro; intros; try dsimp only)
    | (simp only [grantTile_hide (M := butOut) rfl, implies_true, eq_self])

theorem execTilePositionsGrant_grew (id : Nat) (s : State) (t : State) (e : execTilePositionsGrant id s = .next t) (hs : Grew u (hide butOut s)) : Grew u (hide butOut t) := by
  refine next_grew e ?_
  repeat' first
    | with_reducible assumption
    | split
    | (with_reducible apply tileGrant_grew)
    | with_reducible apply forEach_grew
    | with_reducible apply foldl_grew
    | (intro; intros; try dsimp only)
    | (simp only [implies_true, eq_self])

theorem tileRel_grew (s : State) (p : Path) (val : Word64) (hs : Grew u (hide butOut s)) : Grew u (hide butOut (State.tileRel s p val)) := by
  unfold State.tileRel
  try dsimp only
  repeat' first
    | with_reducible assumption
    | split
    | (with_reducible apply command_grew)
    | with_reducible apply forEach_grew
    | with_reducible apply foldl_grew
    | (intro; intros; try dsimp only)
    | (simp only [endTile_hide (M := butOut) rfl, finish_hide (M := butOut), onSp_hide (M := butOut) rfl, put_tileRel_hide (M := butOut) rfl, implies_true, eq_self])

theorem execTileRel_grew (p : Path) (val : Word64) (s : State) (t : State) (e : execTileRel p val s = .next t) (hs : Grew u (hide butOut s)) : Grew u (hide butOut t) := by
  refine next_grew e ?_
  repeat' first
    | with_reducible assumption
    | split
    | (with_reducible apply tileRel_grew)
    | with_reducible apply forEach_grew
    | with_reducible apply foldl_grew
    | (intro; intros; try dsimp only)
    | (simp only [implies_true, eq_self])

end Sys2Proof.Laws
end

