-- ==== Sys2Proof/Laws/TraceSorting.lean ====
section
/-!
SUPPORT. What Machine/Sorting.lean defines only adds to what the block has sent out.
-/

namespace Sys2Proof.Laws

open Sys2Proof.Machine

variable {u : State}

theorem emptyGather_grew (s : State) (d : Desc) (hs : Grew u (hide butOut s)) : Grew u (hide butOut (State.emptyGather s d)) := by
  unfold State.emptyGather
  try dsimp only
  repeat' first
    | with_reducible assumption
    | split
    | (with_reducible apply addPwin_grew)
    | (with_reducible apply inputsDone_grew)
    | (with_reducible apply wakeSlices_grew)
    | with_reducible apply forEach_grew
    | with_reducible apply foldl_grew
    | (intro; intros; try dsimp only)
    | (simp only [bindBank_hide (M := butOut) rfl, onDesc_hide (M := butOut) rfl, startPooling_hide (M := butOut) rfl, onSp_hide (M := butOut) rfl, implies_true, eq_self])

theorem gather_grew (s : State) (d : Desc) (hs : Grew u (hide butOut s)) : Grew u (hide butOut (State.gather s d)) := by
  unfold State.gather
  try dsimp only
  repeat' first
    | with_reducible assumption
    | split
    | (with_reducible apply admitWindow_grew)
    | (with_reducible apply emptyGather_grew)
    | with_reducible apply forEach_grew
    | with_reducible apply foldl_grew
    | (intro; intros; try dsimp only)
    | (simp only [endDesc_hide (M := butOut) rfl, onSp_hide (M := butOut) rfl])

theorem execGatherPool_grew (id : Nat) (s : State) (t : State) (e : execGatherPool id s = .next t) (hs : Grew u (hide butOut s)) : Grew u (hide butOut t) := by
  refine next_grew e ?_
  repeat' first
    | with_reducible assumption
    | split
    | (with_reducible apply gather_grew)
    | with_reducible apply forEach_grew
    | with_reducible apply foldl_grew
    | (intro; intros; try dsimp only)

theorem execGatherSeq_grew (id : Nat) (s : State) (t : State) (e : execGatherSeq id s = .next t) (hs : Grew u (hide butOut s)) : Grew u (hide butOut t) := by
  refine next_grew e ?_
  repeat' first
    | with_reducible assumption
    | split
    | (with_reducible apply gather_grew)
    | with_reducible apply forEach_grew
    | with_reducible apply foldl_grew
    | (intro; intros; try dsimp only)

theorem execRowList_grew (id : Nat) (s : State) (t : State) (e : execRowList id s = .next t) (hs : Grew u (hide butOut s)) : Grew u (hide butOut t) := by
  refine next_grew e ?_
  repeat' first
    | with_reducible assumption
    | split
    | (with_reducible apply admitWindow_grew)
    | with_reducible apply forEach_grew
    | with_reducible apply foldl_grew
    | (intro; intros; try dsimp only)
    | (simp only [endOk_hide (M := butOut) rfl])

theorem sortParity_grew (s : State) (k : Nat) (w : Window) (hs : Grew u (hide butOut s)) : Grew u (hide butOut (State.sortParity s k w)) := by
  unfold State.sortParity
  try dsimp only
  repeat' first
    | with_reducible assumption
    | split
    | (with_reducible apply readAnew_grew)
    | with_reducible apply forEach_grew
    | with_reducible apply foldl_grew
    | (intro; intros; try dsimp only)
    | (simp only [count_hide (M := butOut) rfl, endDesc_hide (M := butOut) rfl, tell_hide (M := butOut) rfl, onSp_hide (M := butOut) rfl, forEach_hide, implies_true, eq_self])

theorem sortDone_grew (s : State) (k : Nat) (parity : Bool) (hs : Grew u (hide butOut s)) : Grew u (hide butOut (State.sortDone s k parity)) := by
  unfold State.sortDone
  try dsimp only
  repeat' first
    | with_reducible assumption
    | split
    | (with_reducible apply addPwin_grew)
    | (with_reducible apply sortParity_grew)
    | with_reducible apply forEach_grew
    | with_reducible apply foldl_grew
    | (intro; intros; try dsimp only)
    | (simp only [noteLists_hide (M := butOut) rfl rfl, sortAll_hide (M := butOut) rfl rfl rfl rfl, onSp_hide (M := butOut) rfl, forEach_hide, implies_true, eq_self])

theorem execWindowComplete_grew (sorter : Nat) (parity : Bool) (s : State) (t : State) (e : execWindowComplete sorter parity s = .next t) (hs : Grew u (hide butOut s)) : Grew u (hide butOut t) := by
  refine next_grew e ?_
  repeat' first
    | with_reducible assumption
    | split
    | (with_reducible apply sortDone_grew)
    | with_reducible apply forEach_grew
    | with_reducible apply foldl_grew
    | (intro; intros; try dsimp only)
    | (simp only [implies_true, eq_self])

theorem scanKey_grew (s : State) (d : Desc) (m : Member') (rows : List (Key × RowSrc)) (fails : WbFails) (k : Key) (hs : Grew u (hide butOut s)) : Grew u (hide butOut (State.scanKey s d m rows fails k).1) := by
  unfold State.scanKey
  try dsimp only
  repeat' first
    | with_reducible assumption
    | split
    | (with_reducible apply admitForced_grew)
    | (with_reducible apply readRow_grew)
    | with_reducible apply forEach_grew
    | with_reducible apply foldl_grew
    | (intro; intros; try dsimp only)
    | (simp only [count_hide (M := butOut) rfl, raDrop_hide (M := butOut) rfl, onSp_hide (M := butOut) rfl, implies_true, eq_self])

theorem scanKeys_grew (s : State) (d : Desc) (m : Member') (rows : List (Key × RowSrc)) (fails : WbFails) (y0 : List (Option Key)) (hs : Grew u (hide butOut s)) : Grew u (hide butOut (State.scanKeys s d m rows fails y0)) := by
  revert hs
  fun_induction State.scanKeys s d m rows fails y0
  all_goals
    intro hs
    repeat' first
      | with_reducible assumption
      | split
      | (with_reducible apply scanKey_grew)
      | (with_reducible apply_assumption)
      | with_reducible apply forEach_grew
      | with_reducible apply foldl_grew
      | (intro; intros; try dsimp only)
      | (simp +zetaDelta only [implies_true, eq_self])

theorem runAheadScan_grew (s : State) (id : Nat) (keys : Feed) (rows : List (Key × RowSrc)) (fails : WbFails) (hs : Grew u (hide butOut s)) : Grew u (hide butOut (State.runAheadScan s id keys rows fails)) := by
  unfold State.runAheadScan
  try dsimp only
  repeat' first
    | with_reducible assumption
    | split
    | (with_reducible apply scanKeys_grew)
    | with_reducible apply forEach_grew
    | with_reducible apply foldl_grew
    | (intro; intros; try dsimp only)
    | (simp only [countN_hide (M := butOut) rfl, count_hide (M := butOut) rfl, raDrop_hide (M := butOut) rfl, onSp_hide (M := butOut) rfl, implies_true, eq_self])

theorem execRunAheadScan_grew (id : Nat) (keys : Feed) (rows : List (Key × RowSrc)) (fails : WbFails) (s : State) (t : State) (e : execRunAheadScan id keys rows fails s = .next t) (hs : Grew u (hide butOut s)) : Grew u (hide butOut t) := by
  refine next_grew e ?_
  repeat' first
    | with_reducible assumption
    | split
    | (with_reducible apply runAheadScan_grew)
    | with_reducible apply forEach_grew
    | with_reducible apply foldl_grew
    | (intro; intros; try dsimp only)
    | (simp only [implies_true, eq_self])

theorem imapRel_grew (s : State) (p : Path) (val : Word64) (hs : Grew u (hide butOut s)) : Grew u (hide butOut (State.imapRel s p val)) := by
  unfold State.imapRel
  try dsimp only
  repeat' first
    | with_reducible assumption
    | split
    | (with_reducible apply command_grew)
    | with_reducible apply forEach_grew
    | with_reducible apply foldl_grew
    | (intro; intros; try dsimp only)
    | (simp only [cmdField_hide (M := butOut), freeKept_hide (M := butOut) rfl, put_imapRel_hide (M := butOut) rfl, implies_true, eq_self])

theorem execImapRel_grew (p : Path) (val : Word64) (s : State) (t : State) (e : execImapRel p val s = .next t) (hs : Grew u (hide butOut s)) : Grew u (hide butOut t) := by
  refine next_grew e ?_
  repeat' first
    | with_reducible assumption
    | split
    | (with_reducible apply imapRel_grew)
    | with_reducible apply forEach_grew
    | with_reducible apply foldl_grew
    | (intro; intros; try dsimp only)
    | (simp only [implies_true, eq_self])

end Sys2Proof.Laws
end

