-- ==== Sys2Proof/Laws/TraceTranslate.lean ====
section
/-!
SUPPORT. What Machine/Translate.lean defines only adds to what the block has sent out.
-/

namespace Sys2Proof.Laws

open Sys2Proof.Machine

variable {u : State}

theorem atsDone_grew (s : State) (id : Nat) (xs : List Xlate) (hs : Grew u (hide butOut s)) : Grew u (hide butOut (State.atsDone s id xs)) := by
  unfold State.atsDone
  try dsimp only
  repeat' first
    | with_reducible assumption
    | split
    | (with_reducible apply prick_grew)
    | with_reducible apply forEach_grew
    | with_reducible apply foldl_grew
    | (intro; intros; try dsimp only)
    | (simp only [fillAhead_hide (M := butOut) rfl rfl, takeXlates_hide (M := butOut) rfl rfl, onXl_hide (M := butOut) rfl, implies_true, eq_self])

theorem execAtsTranslationCompletion_grew (id : Nat) (xs : List Xlate) (s : State) (t : State) (e : execAtsTranslationCompletion id xs s = .next t) (hs : Grew u (hide butOut s)) : Grew u (hide butOut t) := by
  refine next_grew e ?_
  repeat' first
    | with_reducible assumption
    | split
    | (with_reducible apply atsDone_grew)
    | with_reducible apply forEach_grew
    | with_reducible apply foldl_grew
    | (intro; intros; try dsimp only)
    | (simp only [implies_true, eq_self])

theorem priFault_grew (s : State) (id : Nat) (hs : Grew u (hide butOut s)) : Grew u (hide butOut (State.priFault s id)) := by
  unfold State.priFault
  try dsimp only
  repeat' first
    | with_reducible assumption
    | split
    | (with_reducible apply prick_grew)
    | with_reducible apply forEach_grew
    | with_reducible apply foldl_grew
    | (intro; intros; try dsimp only)
    | (simp only [implies_true, eq_self])

theorem priAgain_grew (s : State) (id : Nat) (xs : List Xlate) (hs : Grew u (hide butOut s)) : Grew u (hide butOut (State.priAgain s id xs)) := by
  unfold State.priAgain
  try dsimp only
  repeat' first
    | with_reducible assumption
    | split
    | (with_reducible apply prick_grew)
    | (with_reducible apply sendAts_grew)
    | with_reducible apply forEach_grew
    | with_reducible apply foldl_grew
    | (intro; intros; try dsimp only)
    | (simp only [countN_hide (M := butOut) rfl, setDesc_hide (M := butOut) rfl, takeXlates_hide (M := butOut) rfl rfl, implies_true, eq_self])

theorem pageResp_grew (s : State) (id : Nat) (code : PageResp) (xs : List Xlate) (hs : Grew u (hide butOut s)) : Grew u (hide butOut (State.pageResp s id code xs)) := by
  unfold State.pageResp
  try dsimp only
  repeat' first
    | with_reducible assumption
    | split
    | (with_reducible apply priAgain_grew)
    | (with_reducible apply priFault_grew)
    | (with_reducible apply retryParked_grew)
    | with_reducible apply forEach_grew
    | with_reducible apply foldl_grew
    | (intro; intros; try dsimp only)
    | (simp only [count_hide (M := butOut) rfl, priClose_hide (M := butOut) rfl, tell_hide (M := butOut) rfl, onXl_hide (M := butOut) rfl, implies_true, eq_self])

theorem execPageResponse_grew (id : Nat) (code : PageResp) (xs : List Xlate) (s : State) (t : State) (e : execPageResponse id code xs s = .next t) (hs : Grew u (hide butOut s)) : Grew u (hide butOut t) := by
  refine next_grew e ?_
  repeat' first
    | with_reducible assumption
    | split
    | (with_reducible apply pageResp_grew)
    | with_reducible apply forEach_grew
    | with_reducible apply foldl_grew
    | (intro; intros; try dsimp only)
    | (simp only [implies_true, eq_self])

theorem execPageResponseTimeout_grew (id : Nat) (s : State) (t : State) (e : execPageResponseTimeout id s = .next t) (hs : Grew u (hide butOut s)) : Grew u (hide butOut t) := by
  refine next_grew e ?_
  repeat' first
    | with_reducible assumption
    | split
    | (with_reducible apply priFault_grew)
    | (with_reducible apply retryParked_grew)
    | with_reducible apply forEach_grew
    | with_reducible apply foldl_grew
    | (intro; intros; try dsimp only)
    | (simp only [count_hide (M := butOut) rfl, priClose_hide (M := butOut) rfl, implies_true, eq_self])

theorem parkFree_grew (s : State) (k : Nat) (hs : Grew u (hide butOut s)) : Grew u (hide butOut (State.parkFree s k)) := by
  unfold State.parkFree
  try dsimp only
  repeat' first
    | with_reducible assumption
    | split
    | (with_reducible apply reserveAll_grew)
    | with_reducible apply forEach_grew
    | with_reducible apply foldl_grew
    | (intro; intros; try dsimp only)
    | (simp only [announce_hide (M := butOut) rfl, setDesc_hide (M := butOut) rfl, onFe_hide (M := butOut) rfl, implies_true, eq_self])

theorem execParkEntryFree_grew (ring : Nat) (s : State) (t : State) (e : execParkEntryFree ring s = .next t) (hs : Grew u (hide butOut s)) : Grew u (hide butOut t) := by
  refine next_grew e ?_
  repeat' first
    | with_reducible assumption
    | split
    | (with_reducible apply parkFree_grew)
    | with_reducible apply forEach_grew
    | with_reducible apply foldl_grew
    | (intro; intros; try dsimp only)
    | (simp only [implies_true, eq_self])

theorem translateAgain_grew (s : State) (id : Nat) (hs : Grew u (hide butOut s)) : Grew u (hide butOut (State.translateAgain s id)) := by
  unfold State.translateAgain
  try dsimp only
  repeat' first
    | with_reducible assumption
    | split
    | (with_reducible apply prick_grew)
    | with_reducible apply forEach_grew
    | with_reducible apply foldl_grew
    | (intro; intros; try dsimp only)
    | (simp only [onDesc_hide (M := butOut) rfl, implies_true, eq_self])

theorem invalRequest_grew (s : State) (port tag pasid iova len : Nat) (hs : Grew u (hide butOut s)) : Grew u (hide butOut (State.invalRequest s port tag pasid iova len)) := by
  unfold State.invalRequest
  try dsimp only
  repeat' first
    | with_reducible assumption
    | split
    | (with_reducible apply translateAgain_grew)
    | with_reducible apply forEach_grew
    | with_reducible apply foldl_grew
    | (intro; intros; try dsimp only)
    | (simp only [count_hide (M := butOut) rfl, onXl_hide (M := butOut) rfl, forEach_hide, implies_true, eq_self])

theorem execInvalidateRequest_grew (port tag pasid iova len : Nat) (s : State) (t : State) (e : execInvalidateRequest port tag pasid iova len s = .next t) (hs : Grew u (hide butOut s)) : Grew u (hide butOut t) := by
  refine next_grew e ?_
  repeat' first
    | with_reducible assumption
    | split
    | (with_reducible apply invalRequest_grew)
    | with_reducible apply forEach_grew
    | with_reducible apply foldl_grew
    | (intro; intros; try dsimp only)
    | (simp only [implies_true, eq_self])

theorem invalEnd_grew (s : State) (v : Inval) (hs : Grew u (hide butOut s)) : Grew u (hide butOut (State.invalEnd s v)) := by
  unfold State.invalEnd
  try dsimp only
  repeat' first
    | with_reducible assumption
    | split
    | (with_reducible apply send_grew)
    | (with_reducible apply translateAgain_grew)
    | with_reducible apply forEach_grew
    | with_reducible apply foldl_grew
    | (intro; intros; try dsimp only)
    | (simp only [invalDone_hide (M := butOut) rfl, onXl_hide (M := butOut) rfl, forEach_hide, implies_true, eq_self])

theorem invalDrained_grew (s : State) (port tag : Nat) (hs : Grew u (hide butOut s)) : Grew u (hide butOut (State.invalDrained s port tag)) := by
  unfold State.invalDrained
  try dsimp only
  repeat' first
    | with_reducible assumption
    | split
    | (with_reducible apply invalEnd_grew)
    | (with_reducible apply retryParked_grew)
    | with_reducible apply forEach_grew
    | with_reducible apply foldl_grew
    | (intro; intros; try dsimp only)
    | (simp only [implies_true, eq_self])

theorem execInvalidateDrained_grew (port tag : Nat) (s : State) (t : State) (e : execInvalidateDrained port tag s = .next t) (hs : Grew u (hide butOut s)) : Grew u (hide butOut t) := by
  refine next_grew e ?_
  repeat' first
    | with_reducible assumption
    | split
    | (with_reducible apply invalDrained_grew)
    | with_reducible apply forEach_grew
    | with_reducible apply foldl_grew
    | (intro; intros; try dsimp only)
    | (simp only [implies_true, eq_self])

theorem invalStop_grew (s : State) (port tag : Nat) (hs : Grew u (hide butOut s)) : Grew u (hide butOut (State.invalStop s port tag)) := by
  unfold State.invalStop
  try dsimp only
  repeat' first
    | with_reducible assumption
    | split
    | (with_reducible apply invalEnd_grew)
    | with_reducible apply forEach_grew
    | with_reducible apply foldl_grew
    | (intro; intros; try dsimp only)
    | (simp only [count_hide (M := butOut) rfl, invalDesc_hide (M := butOut) rfl rfl rfl rfl, tell_hide (M := butOut) rfl, forEach_hide, implies_true, eq_self])

theorem execInvalAbort_grew (port tag : Nat) (s : State) (t : State) (e : execInvalAbort port tag s = .next t) (hs : Grew u (hide butOut s)) : Grew u (hide butOut t) := by
  refine next_grew e ?_
  repeat' first
    | with_reducible assumption
    | split
    | (with_reducible apply invalStop_grew)
    | with_reducible apply forEach_grew
    | with_reducible apply foldl_grew
    | (intro; intros; try dsimp only)

theorem driverBack_grew (s : State) (which : Nat) (hs : Grew u (hide butOut s)) : Grew u (hide butOut (State.driverBack s which)) := by
  unfold State.driverBack
  try dsimp only
  repeat' first
    | with_reducible assumption
    | split
    | (with_reducible apply readLine_grew)
    | (with_reducible apply readMirror_grew)
    | (with_reducible apply writeCons_grew)
    | with_reducible apply forEach_grew
    | with_reducible apply foldl_grew
    | (intro; intros; try dsimp only)
    | (simp only [announce_hide (M := butOut) rfl, forEach_hide, implies_true, eq_self])

theorem driverRetry_grew (s : State) (which port : Nat) (iova : Word64) (ok : Bool) (hs : Grew u (hide butOut s)) : Grew u (hide butOut (State.driverRetry s which port iova ok)) := by
  unfold State.driverRetry
  try dsimp only
  repeat' first
    | with_reducible assumption
    | split
    | (with_reducible apply driverBack_grew)
    | with_reducible apply forEach_grew
    | with_reducible apply foldl_grew
    | (intro; intros; try dsimp only)
    | (simp only [tell_hide (M := butOut) rfl, onXl_hide (M := butOut) rfl, implies_true, eq_self])

theorem execXlateDriverRetry_grew (which port : Nat) (iova : Word64) (ok : Bool) (s : State) (t : State) (e : execXlateDriverRetry which port iova ok s = .next t) (hs : Grew u (hide butOut s)) : Grew u (hide butOut t) := by
  refine next_grew e ?_
  repeat' first
    | with_reducible assumption
    | split
    | (with_reducible apply driverRetry_grew)
    | with_reducible apply forEach_grew
    | with_reducible apply foldl_grew
    | (intro; intros; try dsimp only)
    | (simp only [implies_true, eq_self])

theorem execPriCapabilityEnable_grew (port : Nat) (s : State) (t : State) (e : execPriCapabilityEnable port s = .next t) (hs : Grew u (hide butOut s)) : Grew u (hide butOut t) := by
  refine next_grew e ?_
  repeat' first
    | with_reducible assumption
    | split
    | (with_reducible apply retryParked_grew)
    | with_reducible apply forEach_grew
    | with_reducible apply foldl_grew
    | (intro; intros; try dsimp only)
    | (simp only [onXl_hide (M := butOut) rfl, implies_true, eq_self])

end Sys2Proof.Laws
end

