-- ==== Sys2Proof/Laws/TraceViews.lean ====
section
/-!
SUPPORT. What Machine/Views.lean defines only adds to what the block has sent out.
-/

namespace Sys2Proof.Laws

open Sys2Proof.Machine

variable {u : State}

theorem answer_grew (s : State) (off : Nat) (v : BitVec 32) (hs : Grew u (hide butOut s)) : Grew u (hide butOut (State.answer s off v)) := by
  unfold State.answer
  try dsimp only
  repeat' first
    | with_reducible assumption
    | split
    | (with_reducible apply send_grew)
    | with_reducible apply forEach_grew
    | with_reducible apply foldl_grew
    | (intro; intros; try dsimp only)

theorem readHalf_grew (s : State) (p : Path) (off : Nat) (hs : Grew u (hide butOut s)) : Grew u (hide butOut (State.readHalf s p off)) := by
  unfold State.readHalf
  try dsimp only
  repeat' first
    | with_reducible assumption
    | split
    | (with_reducible apply answer_grew)
    | (with_reducible apply shutOut_grew)
    | with_reducible apply forEach_grew
    | with_reducible apply foldl_grew
    | (intro; intros; try dsimp only)
    | (simp only [onTel_hide (M := butOut) rfl, implies_true, eq_self])

theorem execCounterLowRead_grew (p : Path) (off : Nat) (s : State) (t : State) (e : execCounterLowRead p off s = .next t) (hs : Grew u (hide butOut s)) : Grew u (hide butOut t) := by
  refine next_grew e ?_
  repeat' first
    | with_reducible assumption
    | split
    | (with_reducible apply readHalf_grew)
    | with_reducible apply forEach_grew
    | with_reducible apply foldl_grew
    | (intro; intros; try dsimp only)

end Sys2Proof.Laws
end

