-- ==== Sys2Proof/Tests/Slice0.lean ====
section
/-!
SUPPORT. Tests: the checks of `Instr.wf` each refuse a term; the worked examples of the spec; and, for every clause of the
statements that has hypotheses, a small state and operands that meet them together.
-/

open Sys2Proof Sys2Proof.Machine

namespace Sys2Proof.Tests

set_option Elab.async false

/-! ## Helpers -/

/-- A run of bytes with a field of n bytes put at an offset. -/
def put (b : Bytes) (off n v : Nat) : Bytes := b.take off ++ leBytes n v ++ b.drop (off + n)

/-- 64 bytes with the given fields, the rest zero. -/
def raw (l : List (Nat × Nat × Nat)) : Bytes := l.foldl (fun b e => put b e.1 e.2.1 e.2.2) (List.replicate 64 0)

/-- A start-up in which all goes well, on image A. -/
def good : Startup :=
  { sigA := true, sigB := true, sigR := true, cores := true, gsOk := true, node := 7, portsOk := true, readyMs := 40,
    cxl := [⟨true, 2, 2, true, true, 1, {}⟩, ⟨true, 2, 2, true, true, 1, {}⟩], pcie := [⟨true, 1, 1, false, false, 1, {}⟩], credits := [(8, 8)] }

/-- A block of the largest member that is READY: both host ports up, a fabric port present, cores 0 to 5 running, maker rights
on function 0, physical channels 0 to 127 serving and 128 to 131 spare. -/
def live : State :=
  let r := State.reset
  { r with
    pw := { r.pw with step := 9, ready := true, selvedge := false, rails := true, pstate := .p0, refOk := true,
                      cxl := [(0, { up := true, width := 2, rate := 2, cache := true }), (1, { up := true, width := 2, rate := 2, cache := true })],
                      pcie := [(0, { up := true, width := 1, rate := 1 })], fab := [(0, { status := .present, oreq := 8, orsp := 8 })],
                      node := some 7, cxlEnum := true }
    gs := { r.gs with
      lmap := [(0, 0), (1, 1)],
      phys := [(0, { state := .active }), (1, { state := .active }), (2, { state := .active }), (128, { state := .spare }),
               (129, { state := .offline })] }
    st := { r.st with cores := [(0, .run), (1, .run), (2, .run), (3, .run), (4, .run), (5, .run)],
                      sessions := [(.fn0, { role := .maker, key := 0 })] } }

/-- The state after a command. -/
def after (c : Instr) (s : State) : State := match exec c s with | .next t => t | _ => s

/-- `live` with one ring. -/
def ringed (k : Nat) (r : Ring) (s : State) : State := { s with fe := { s.fe with rings := mset s.fe.rings k r } }

/-- A state with one descriptor. -/
def holding (d : Desc) (s : State) : State := { s with fe := { s.fe with descs := [d], nextId := 1 } }

/-- A descriptor of ring 5 that is past the front end, with the given fields. -/
def desc (l : List (Nat × Nat × Nat)) : Desc := { id := 0, ring := 5, raw := raw l, stage := .ready }

/-- A ring entry: base 0x1000, 64 slots, doorbell mode, completion ring 8. -/
def entry : Bytes := raw [(0, 8, 0x1000), (8, 1, 6), (9, 1, 0x10), (12, 4, 8), (32, 4, 5), (36, 4, 1)]

/-- A host completion ring of 64 slots with all of them free. -/
def cpl : Ring := { state := .active, typ := .hostCpl, dbMode := true, base := 0x2000 }

/-- An active host descriptor ring whose completion ring is ring 8. -/
def act : Ring := { state := .active, typ := .hostDesc, dbMode := true, base := 0x1000, cplRing := 8, weight := 4 }

/-- `live` with rings 5 and 8. -/
def two : State := ringed 5 act (ringed 8 cpl live)

/-! ## Rings -/

theorem test_enable_meets : two.drvFails 0 = false ∧ two.starts .fn0 Reg.ringCmd 31 1 false (some 2) = true ∧ 3 < Member.rings two.fuses.member ∧
    (two.ring 3).state = .disabled ∧ two.entryBad ((two.ring 3).configure entry) = false ∧
    two.cplBad 3 ((two.ring 3).configure entry) = RingRes.done ∧ two.lineClash 3 ((two.ring 3).configure entry) = false ∧
    mget two.fe.lines (3 / 8) = none := by decide

theorem test_enable : ((after (.enable .fn0 3 entry) two).ring 3).state = .active ∧ ((after (.enable .fn0 3 entry) two).ring 3).idx = 5 := by decide

/-- Ring 5 has a descriptor that holds completion space. -/
def busy5 : State := holding { desc [] with stage := .waiting, resv := 1 } two

theorem test_disable_draining : (two.starts .fn0 Reg.ringCmd 31 1 false (some 2) = true ∧ 5 < Member.rings two.fuses.member ∧
    (busy5.ring 5).state = .active ∧ (Ring.isCpl (busy5.ring 5) && busy5.named 5) = false ∧ ∃ d ∈ busy5.fe.descs, d.ring = 5 ∧ d.resv ≠ 0) ∧
    ((after (.disable .fn0 5) busy5).ring 5).state = .draining := by decide

theorem test_disable_at_once : (two.starts .fn0 Reg.ringCmd 31 1 false (some 2) = true ∧ (two.ring 5).state = .active ∧
    (Ring.isCpl (two.ring 5) && two.named 5) = false ∧ two.fe.descs = [] ∧ two.fe.overruns = []) ∧
    ((after (.disable .fn0 5) two).ring 5).state = .disabled := by decide

/-- `two` with ring 5 PAUSED. -/
def paused5 : State := ringed 5 { act with state := .paused } two

theorem test_pause : (two.ring 5).state = .active ∧ ((after (.pause .fn0 5) two).ring 5).state = .paused := by decide

theorem test_resume : (paused5.starts .fn0 Reg.ringCmd 31 1 false (some 2) = true ∧ (paused5.ring 5).state = .paused ∧
    paused5.entryBad ((paused5.ring 5).configure entry) = false ∧ paused5.fe.descs = [] ∧ mget paused5.fe.lines (5 / 8) = none) ∧
    ((after (.resume .fn0 5 entry) paused5).ring 5).state = .active := by decide

theorem test_reset_ring : ((two.ring 5).state ≠ .disabled ∧ (Ring.isCpl (two.ring 5) && two.named 5) = false ∧ two.fe.descs = []) ∧
    ((after (.reset .fn0 5) two).ring 5).state = .disabled := by decide

/-- R49: a completion ring that a live ring names is not reset. -/
theorem test_reset_named : ((after (.reset .fn0 8) two).ring 8).state = .active ∧
    bitf (regGet (after (.reset .fn0 8) two) .fn0 Reg.ringCmd) 32 8 = RingRes.wrongState := by decide

theorem test_dumpOne : two.drvFails 0 = false ∧ (after (.dumpOne .fn0 5) two).out = [.entry 5 (Ring.dump act) 0x160 (.host 0 0 false)] ∧ field (Ring.dump act) 12 1 = 1 := by decide

/-! ## Announcements -/

/-- Rings 0 to 7 share a held, valid line. -/
def lined : State := { two with fe := { two.fe with lines := [(0, { port := 0, valid := true, words := List.replicate 8 0 })] } }

theorem test_snoop : (lined.cxlCache 0 = true ∧ lined.drvFails 1 = false ∧ mget lined.fe.lines 0 = some { port := 0, valid := true, words := List.replicate 8 0 }) ∧
    (after (.eyeletSnoop 0 0) lined).out = [.rdShared 0 0 0, .snoopRsp 0 0] := by decide

theorem test_lineReturn : let s := after (.eyeletSnoop 0 0) lined
    mget s.fe.lines 0 = some { port := 0, valid := false, words := List.replicate 8 0, snooped := true } ∧
    ((mget (after (.eyeletLineReturn 0 [1, 2, 3, 4, 5, 6, 7, 8]) s).fe.lines 0).map (·.words)) = some [1, 2, 3, 4, 5, 6, 7, 8] := by decide

theorem test_doorbell : (two.barUp = true ∧ bar2Carries two.fuses.member 40 8 = true ∧ (two.ring 5).typ = .hostDesc ∧ (two.ring 5).dbMode = true ∧
    (two.ring 5).state = .active ∧ (wordIdx 3 - (two.ring 5).idx).toNat ≤ Ring.size (two.ring 5)) ∧
    ((after (.bar2DoorbellWrite 40 8 3) two).ring 5).pub = 3 := by decide

/-- An index further ahead than the ring is long is not taken (R63). -/
theorem test_doorbell_far : ((after (.bar2DoorbellWrite 40 8 65) two).ring 5).pub = 0 := by decide

/-- Near rings 6 and 9. -/
def near : State := ringed 6 { act with typ := .nearDesc, cplRing := 9 } (ringed 9 { cpl with typ := .nearCpl, idx := 4 } two)

theorem test_nearDesc : (near.fabAny = true ∧ (near.ring 6).typ = .nearDesc ∧ (near.ring 6).state = .active ∧ ((2 : BitVec 32) - (near.ring 6).idx).toNat ≤ Ring.size (near.ring 6)) ∧
    ((after (.nearRingAnnouncement ⟨0, 6⟩ 2) near).ring 6).pub = 2 := by decide

theorem test_nearCpl : ((near.ring 9).typ = .nearCpl ∧ (near.ring 9).state ≠ .disabled ∧ consAhead (near.ring 9).idx 4 = false) ∧
    ((after (.nearRingAnnouncement ⟨0, 9⟩ 4) near).ring 9).pub = 4 := by decide

/-- A consumer index ahead of the producer index is refused (R64). -/
theorem test_nearCpl_ahead : consAhead (near.ring 9).idx 5 = true ∧ ((after (.nearRingAnnouncement ⟨0, 9⟩ 5) near).ring 9).pub = 0 := by decide

theorem test_readBack : (two.barUp = true ∧ bar2Reads two.fuses.member 40 8 = true) ∧
    (after (.bar2ReadBack 40 8) two).out = [.backValue 5 (Ring.backWord act)] := by decide

/-! ## Front end -/

/-- Ring 5 announced with three slots. -/
def told5 : State :=
  let s := ringed 5 { act with pub := 3 } two
  { s with fe := { s.fe with announced := [5] } }

theorem test_turn : told5.fe.announced.find? (fun j => told5.mayTurn j) = some 5 ∧
    ((after (.ringTurn 5) told5).ring 5).turn = 3 ∧ (after (.ringTurn 5) told5).out = [.descRead 5 0 3 0x1000 (.host 0 0 false)] := by decide

/-- Ring 5 with the read of one slot in flight. -/
def turned : State := ringed 5 { act with pub := 3, turn := 1, nextSeq := 9 } two

/-- A NOP slot with a SEQ. -/
def nopSlot (n : Nat) : Slot := { raw := raw [(4, 4, n)] }

theorem test_readReturn : ((turned.ring 5).turn ≠ 0 ∧ (turned.ring 5).state = .active ∧ Ring.isCpl (turned.ring 5) = false ∧
    1 ≤ Ring.ahead (turned.ring 5) ∧ slotPicot (nopSlot 9) = false ∧
    BitVec.ofNat 32 (field (slice (nopSlot 9).raw 0 64) 4 4) = (turned.ring 5).nextSeq) ∧
    (let t := after (.descriptorReadReturn 5 [nopSlot 9]) turned
     (t.ring 5).idx = 1 ∧ (t.ring 5).nextSeq = 10 ∧ t.fe.descs.length = 1) := by decide

theorem test_readReturn_seq : BitVec.ofNat 32 (field (slice (nopSlot 8).raw 0 64) 4 4) ≠ (turned.ring 5).nextSeq ∧
    (let t := after (.descriptorReadReturn 5 [nopSlot 8]) turned
     (t.ring 5).state = .error ∧ (t.ring 5).errSeq = 8) := by decide

theorem test_reserve : (let s := holding { desc [] with stage := .queued } two
    s.passing = true ∧ (s.ring 5).cplRing = 8 ∧ (s.ring 5).state ≠ .pausedHost ∧ Ring.isCpl (s.ring 8) = true ∧
    ({ desc [] with stage := .queued } : Desc).cplNeed ≤ s.freeFor 8 ∧ ((after (.completionReserve 8) s).ring 8).resv = 1) := by decide

/-- A finished NOP with SEQ 9. -/
def nop9 : Desc := { desc [(4, 4, 9)] with stage := .finished, resv := 1 }

/-- Its completion slot is reserved. -/
def done5 : State := holding nop9 (ringed 8 { cpl with resv := 1 } two)

theorem test_record : (done5.desc 0 = some nop9 ∧ done5.recordTurn nop9 = true ∧ done5.writesWait nop9 = false ∧ done5.cplLive 8 = true ∧ nop9.needsRecord = true ∧ nop9.inl = []) ∧
    (let t := after (.completionRecordWrite 0) done5
     t.fe.descs = [] ∧ t.out.contains (.record 8 0 (recBytes 9 5 true Kind.normal St.ok 0 0 0 0 0 0) (.host 0 0 false) (.io false)) = true) := by decide

/-- Ring 8's host is lost. -/
def lost8 : State := ringed 8 { cpl with resv := 1, state := .pausedHost } done5

theorem test_record_held : (lost8.desc 0 = some nop9 ∧ lost8.recordTurn nop9 = true ∧ lost8.writesWait nop9 = false ∧ lost8.drvFails 11 = false ∧ lost8.cplLive 8 = false) ∧
    ((after (.completionRecordWrite 0) lost8).desc 0).map (·.stage) = some Stage.heldRec := by decide

theorem test_modTime : (let s := ringed 8 { cpl with irqEn := true, modTime := 4, unsig := 2, vector := 6 } two
    (s.ring 8).typ = .hostCpl ∧ (s.ring 8).irqEn = true ∧ (s.ring 8).modTime ≠ 0 ∧ (s.ring 8).unsig ≠ 0 ∧ s.cplLive 8 = true ∧
    (after (.modTimeExpiry 8) s).out = [.msix 0 6 0 0]) := by decide

/-- Ring 5 overran while ring 8 was full. -/
def over5 : State :=
  let s := ringed 5 { act with state := .error, errSeq := 7, errStatus := St.ringOverrun } two
  { s with fe := { s.fe with overruns := [5] } }

theorem test_overrun : (over5.heldFor 8 = [5] ∧ over5.cplLive 8 = true ∧ 1 ≤ Ring.space (over5.ring 8)) ∧
    (let t := after (.ringOverrunRecordWrite 8) over5
     t.fe.overruns = [] ∧ (t.ring 8).idx = 1 ∧
     t.out.contains (.record 8 0 (recBytes 7 5 true Kind.normal St.ringOverrun 0 0 0 0 0 0) (.host 0 0 false) (.io false)) = true) := by decide

theorem test_nop : (holding (desc []) two).readyDesc (desc []) 0x00 ∧
    (((after (.nop 0) (holding (desc []) two)).desc 0).map fun d => (d.stage, d.status)) = some (Stage.finished, St.ok) := by
  unfold State.readyDesc; decide

theorem test_marker : (holding (desc [(0, 1, 0x32)]) two).readyDesc (desc [(0, 1, 0x32)]) 0x32 := by unfold State.readyDesc; decide

/-- A FENCE, MODE VISIBLE where m is 1. -/
def fence (m : Nat) : Desc := { desc [(0, 1, 0x30), (3, 1, 16 * m)] with stage := .waiting }

theorem test_fence : (let s := holding (fence 0) two
    s.desc 0 = some (fence 0) ∧ (fence 0).opc = 0x30 ∧ (fence 0).mode = 0 ∧ s.fenceOpen (fence 0) = true ∧
    ((after (.fenceOrder 0) s).desc 0).map (·.stage) = some Stage.finished) := by decide

theorem test_fence_visible : (let s := holding (fence 1) (ringed 5 { act with unseen := 3 } two)
    s.desc 0 = some (fence 1) ∧ (fence 1).opc = 0x30 ∧ (fence 1).mode = 1 ∧ s.fenceOpen (fence 1) = true ∧
    ((after (.fenceVisible 0) s).ring 5).unseen = 0) := by decide

/-- A WAIT for SEQ 4 of ring 6, with a timeout. -/
def wait4 : Desc := { desc [(0, 1, 0x31), (16, 4, 6), (20, 4, 4), (32, 4, 100)] with stage := .waiting }

theorem test_wait : (let s := holding wait4 (ringed 6 { act with doneSeq := 4 } two)
    s.desc 0 = some wait4 ∧ wait4.opc = 0x31 ∧ seqReached (s.ring wait4.waitRing).doneSeq wait4.waitSeq = true ∧
    ((after (.wait 0) s).desc 0).map (·.status) = some St.ok) := by decide

theorem test_waitTimeout : (let s := holding wait4 (ringed 6 { act with doneSeq := 3 } two)
    s.desc 0 = some wait4 ∧ seqReached (s.ring wait4.waitRing).doneSeq wait4.waitSeq = false ∧ wait4.count ≠ 0 ∧
    ((after (.waitTimeout 0) s).desc 0).map (·.status) = some St.waitTimeout) := by decide

/-! ## Bobbinet -/

/-- A gather of two keys, pooled. -/
def gat : Desc := desc [(0, 1, 1), (32, 4, 2), (36, 4, 1)]

theorem test_gatherPool : ((holding gat two).readyDesc gat 0x01 ∧ (holding gat two).switchAhead gat = false ∧ (holding gat two).earlierTile gat = false ∧
    (holding gat two).verGone gat = false ∧ mget (holding gat two).sp.tiles gat.tile = none ∧ (holding gat two).sp.room = true) ∧
    ((after (.gatherPool 0) (holding gat two)).desc 0).map (·.stage) = some Stage.window := by unfold State.readyDesc; decide

theorem test_gatherPool_empty : (let d := desc [(0, 1, 1), (36, 4, 1)]
    ((after (.gatherPool 0) (holding d two)).desc 0).map (·.stage)) = some Stage.pooling := by decide +kernel

/-- A sequence gather. -/
def gseq : Desc := desc [(0, 1, 2), (32, 4, 2), (36, 4, 2)]

theorem test_gatherSeq : ((holding gseq two).readyDesc gseq 0x02 ∧ (holding gseq two).switchAhead gseq = false ∧
    (holding gseq two).verGone gseq = false ∧ (holding gseq two).sp.room = true) ∧
    ((after (.gatherSeq 0) (holding gseq two)).desc 0).map (·.stage) = some Stage.window := by unfold State.readyDesc; decide

/-- PREFETCH of a row list. -/
def rowl : Desc := desc [(0, 1, 0x18), (32, 4, 2)]

theorem test_rowList : ((holding rowl two).readyDesc rowl 0x18 ∧ rowl.mode = 0 ∧ (holding rowl two).switchAhead rowl = false ∧
    (holding rowl two).sp.room = true ∧ rowl.count ≠ 0) ∧
    ((after (.rowList 0) (holding rowl two)).desc 0).map (·.stage) = some Stage.window := by unfold State.readyDesc; decide

/-- A window of one gather. -/
def win0 : Window := { wid := 0, packed := false, members := [{ id := 0, count := 2 }], reserved := true }

/-- It heads the window queue. -/
def queued0 : State :=
  let s := holding { gat with stage := .window } two
  { s with sp := { s.sp with queue := [win0], nextWid := 1 } }

theorem test_windowStart : (queued0.sp.queue = [win0] ∧ win0.reserved = true ∧ queued0.freeSorter = some 0 ∧
    (∀ e ∈ queued0.descsOf win0.members, queued0.inputsIn e.1 = true)) ∧
    (after (.windowStart []) queued0).sp.queue = [] := by decide

theorem test_packWait : (let s := { two with sp := { two.sp with open' := some { win0 with packed := true } } }
    s.freeSorter.isSome = true ∧ s.sp.open' = some { win0 with packed := true } ∧
    (let t := after .packWaitExpiry s; t.sp.open' = none ∧ t.sp.queue.length = 1)) := by decide

/-- Its reservation waits. -/
def starved : State := { queued0 with sp := { queued0.sp with queue := [{ win0 with reserved := false, waited := true }] } }

theorem test_imapFull : (starved.sp.queue = [{ win0 with reserved := false, waited := true }]) ∧
    (after .imapFull starved).sp.queue = [{ win0 with reserved := false, waited := true, told := true }] := by decide

/-- The window is on sorter 0. -/
def sorting0 : State := { queued0 with sp := { queued0.sp with queue := [], sorters := [(0, win0)] } }

theorem test_windowComplete : (mget sorting0.sp.sorters 0 = some win0 ∧ ∃ m ∈ win0.members, ∃ d ∈ sorting0.fe.descs, d.id = m.id ∧ d.opc ≠ 3) ∧
    (let t := after (.windowComplete 0 false) sorting0
     t.sp.sorters = [] ∧ t.sp.pwins.map (·.wid) = [0]) := by decide +kernel

theorem test_windowComplete_parity : win0.restarted = false ∧
    mget (after (.windowComplete 0 true) sorting0).sp.sorters 0 = some { win0 with restarted := true, retake := true } := by decide

/-- Table 3 of 100 rows with tier-1 backing and its current version 1. -/
def tab : Table :=
  { rows := 100, dim := 8, grade := .fp32, upd := true, rule := .add, gimp32 := true, backTier := 1, readAny := true, skew := 0, ctx := 0,
    bands := [{ thresh := 0, grade := .fp32, direct := false }], versions := [{ ver := 1, state := .current, base := 0x100000 }] }

/-- A state with table 3. -/
def tabled (t : Table) (s : State) : State := { s with tb := { s.tb with tables := [(3, t)] } }

/-- Row 5 of table 3. -/
def key5 : Key := keyOf 3 5

/-- A gather of one key waits in the queue. -/
def ahead1 : State :=
  let d := { desc [(0, 1, 1), (32, 4, 1), (36, 4, 1), (48, 8, key5.toNat)] with stage := .window }
  let s := tabled tab (holding d two)
  { s with sp := { s.sp with queue := [{ win0 with members := [{ id := 0, count := 1, snap := [(3, tab)] }] }] } }

theorem test_runAhead : (∃ d ∈ ahead1.fe.descs, ∃ m ∈ ahead1.sp.queue.flatMap (·.members), d.id = 0 ∧ m.id = 0 ∧ ahead1.sp.nextScan = some m ∧
      bitb (ahead1.cfg Reg.xlateCtl) 21 = true ∧ ahead1.raKeys ≠ 0 ∧ d.count = 1 ∧
      rawKeys d ⟨{ data := [] }, { data := [] }, { data := [] }⟩ = [some key5] ∧ ahead1.table (keyTbl key5) = some tab ∧
      (tab.ver? (d.verOf m.snap (keyTbl key5))).isSome = true ∧ tab.backTier = 1 ∧ keyRow key5 < tab.rows ∧ tab.readable d.ctx = true ∧
      ahead1.sp.scanned.contains key5 = false) ∧
    (after (.runAheadScan 0 { data := [] } [(key5, { data := List.replicate 32 1 })] []) ahead1).sp.scanned = [key5] := by decide +kernel

/-- Kept lists of ring 5, SEQ 4; SEQ 6 is claimed. -/
def kept4 : Kept :=
  { ring := 5, seq := 4, ctx := 0, dim := 8, bags := 1, pool := 0, epoch := 0, chain := false, weighted := false, uniq := [], uver := [],
    pairs := [], nbag := [], coefs := [], bytes := 4096, inv := [] }

theorem test_imapRel : (let s := { two with sp := { two.sp with kept := [kept4, { kept4 with seq := 6, claimed := some 9 }, { kept4 with seq := 8 }] } }
    let v : Word64 := BitVec.ofNat 64 (5 + 6 * 2 ^ 32)
    s.starts .fn0 Reg.imapRel 31 1 false none = true ∧
    (after (.imapRel .fn0 v) s).sp.kept.map (fun k => (k.seq.toNat, k.release)) = [(6, true), (8, false)]) := by decide

/-! ## Flow and counters -/

theorem test_flowStall : (let s := holding wait4 two
    s.desc 0 = some wait4 ∧ s.stallMs ≠ 0 ∧ s.waitPoint wait4 ≠ 0 ∧ wait4.stalled ≠ s.waitPoint wait4 ∧
    s.firstStalled wait4 (s.waitPoint wait4) = true ∧ ((after (.flowStall 0) s).desc 0).map (·.stalled) = some 13) := by decide

/-- The scrub counter holds 70. -/
def counted : State := { two with tel := { two.tel with counters := [(Ctr.scrubPasses, { count := 70 })] } }

/-- Its index in CRH_CNT_CMD. -/
def ctrVal : Word64 := BitVec.ofNat 64 ((Ctr.scrubPasses - 0xD0000) / 8)

theorem test_counterClear : (counted.starts .fn0 Reg.cntCmd 31 1 false none = true ∧ bitb ctrVal 13 = false ∧
    0xD0000 + 8 * bitf ctrVal 0 13 = Ctr.scrubPasses ∧ Ctr.isCounter Ctr.scrubPasses = true) ∧
    (after (.counterClear .fn0 ctrVal) counted).tel.countOf Ctr.scrubPasses = {} := by decide

theorem test_counterClear_all : bitb 0x2000#64 13 = true ∧ (after (.counterClear .fn0 0x2000) counted).tel.counters = [] := by decide

/-- Software has read 30. -/
def read30 : State := { counted with pregs := mset counted.pregs (pkey .fn0 Reg.cntData) 30 }

theorem test_subtract : (read30.starts .fn0 Reg.cntCmd 31 1 false none = true ∧ Path.fn0 ≠ Path.dbg ∧
    bitf (read30.own .fn0 Reg.cntData) 0 48 = 30 ∧ read30.counter Ctr.scrubPasses = 70) ∧
    (after (.subtract .fn0 ctrVal) read30).counter Ctr.scrubPasses = 40 := by decide

/-! ## Fetching and pooling -/

/-- A gather of row 5 of table 3 into one bag, being pooled. -/
def g1 : Desc := { desc [(0, 1, 1), (8, 2, 3), (32, 4, 1), (36, 4, 1), (48, 8, key5.toNat)] with stage := .pooling, resv := 1 }

/-- Its lists. -/
def m1 : Member' :=
  { id := 0, snap := [(3, tab)], count := 1, keys := [some key5], bags := [0], uniq := [key5], uver := [1], pairs := [{ u := 0, bag := 0, mult := 1 }],
    inv := [some 0] }

/-- The row that its one round needs. -/
def need1 : Need := { key := key5, ver := 1, poss := [127], size := 32 }

/-- Its window, placed over 128 slices. -/
def w1 : PWin := { wid := 0, members := [{ mem := m1 }], slices := 128, placed := true, granted := true, plan := [[need1]] }

/-- A state with this window. -/
def pooling (w : PWin) : State :=
  let s := tabled tab (holding g1 two)
  { s with sp := { s.sp with pwins := [w], nextWid := 1 } }

/-- A DISABLE ends a gather whose window has begun to pool with RESET_ABORT, and leaves one whose window has not begun (Table 56). -/
theorem test_disable_pooling : (pooling w1).sorting g1.ring = [] ∧
    (let s := pooling { w1 with round := 1 }
     s.sorting g1.ring = [0] ∧ ((s.abandonSorting g1.ring).desc 0).map (fun d => (d.stage, d.status)) = some (Stage.finished, St.resetAbort)) := by
  decide +kernel

theorem test_spoolGrant : (let w := { w1 with granted := false, spool := 4096 }
    (pooling w).spoolQueue = [w] ∧ (pooling w).spoolFits w = true ∧
    ((after .spoolGrant (pooling w)).sp.pwins.map (·.granted)) = [true]) := by decide +kernel

theorem test_spoolFull : (let w := { w1 with granted := false, spool := 4096 }
    (pooling w).spoolQueue = [w] ∧ w.told = false ∧ ((after .spoolFull (pooling w)).sp.pwins.map (·.told)) = [true]) := by decide +kernel

theorem test_roundStart : ((pooling w1).pwin 0 = some w1 ∧ w1.plan[w1.round]? = some [need1] ∧ w1.granted = true ∧ w1.asked = [] ∧
    w1.capped = [] ∧ (pooling w1).letTiles.blocksIn w1 = true ∧ (pooling w1).letTiles.slicesBusy w1 = false ∧ ∀ x ∈ (pooling w1).sp.pwins, x.wid = w1.wid → x = w1) ∧
    (let t := after (.roundStart ⟨0, []⟩) (pooling w1)
     t.sp.pwins.map (·.round) = [1] ∧ t.out = [.rowRead key5 1 (0x100000 + 5 * 64) (.host 0 0 false)]) := by decide +kernel

/-- The row waits on host port 0. -/
def ask1 : Ask := { key := key5, ver := 1, on := .port 0, pos := 127 }

/-- The window with its row asked for. -/
def asked1 : PWin := { w1 with round := 1, asked := [ask1] }

theorem test_bobbinGrant : (let w := { w1 with round := 1, capped := [ask1] }
    let s := pooling w
    s.pwin 0 = some w ∧ s.rowWaitIn 0 key5 1 = .inl ask1.on ∧ ask1.on ≠ .drive ∧ s.overCap ask1.on = 0 ∧
    s.grantFree w (((w.plan.drop (w.round - 1)).head?.bind fun l => l.find? (sameRow ask1.key ask1.ver)).getD
      { key := ask1.key, ver := ask1.ver, poss := [ask1.pos], size := 0 }) = true ∧ (s.table (keyTbl ask1.key)).isSome = true ∧
    ((after (.bobbinGrant 0 key5 1) s).sp.pwins.map fun x => (x.capped.length, x.asked.length)) = [(0, 1)]) := by decide +kernel

/-- A bobbin that read the row from Ground store. -/
def got1 : PWin := { w1 with round := 1, asked := [{ ask1 with on := .bank [(0, 0)], got := some (.fp32, leBytes 4 0x40000000 ++ List.replicate 28 0) }] }

theorem test_rowDelivery : ((pooling got1).pwin 0 = some got1 ∧ ∃ a ∈ got1.asked, a.key = key5 ∧ a.ver = 1 ∧ a.got.isSome = true) ∧
    ((after (.rowDelivery 0 key5 1 ⟨{ data := [] }, {}⟩ []) (pooling got1)).sp.pwins.map fun x => (x.asked.length, x.staged.map (·.key))) =
      [(0, [key5])] := by decide +kernel

/-- The row is staged: 2.0 in element 0. -/
def staged1 : PWin :=
  { w1 with round := 1, staged := [{ key := key5, ver := 1, grade := .fp32, data := leBytes 4 0x40000000 ++ List.replicate 28 0 }] }

/-- The bag's tile. -/
def tile1 : TileRef := { pos := 127, tile := 0, lo := 0, hi := 1 }

theorem test_tileDrain_meets : (let s := pooling staged1
    let p : Pooled := { mem := m1 }
    s.pwin 0 = some staged1 ∧ s.desc 0 = some g1 ∧ staged1.members.find? (fun p => p.mem.id == 0) = some p ∧
    (p.tiles g1 staged1.slices).find? (fun t => t.pos == 127 && t.tile == 0) = some tile1 ∧ g1.opc ≠ 0x18 ∧ g1.hold = false ∧
    { s with pw := { s.pw with gated := [] } }.letTiles.mayDrain staged1 p g1 (p.tiles g1 staged1.slices) tile1 = true) := by decide +kernel

/-- A gather with COUNT 1 of one bag gives one result row of 32 bytes. -/
theorem test_tileDrain : (let s := pooling staged1
    (after (.tileDrain 0 0 127 0 ⟨none, {}⟩) { s with pw := { s.pw with gated := [] } }).fe.descs.map (fun d => (d.stage, d.status, d.done))) =
      [(.finished, St.ok, 32)] := by decide +kernel

/-- The same gather with a named tile. -/
def g2 : Desc := { g1 with raw := put g1.raw 40 2 9 }

/-- Its window waits for positions. -/
def named9 : State :=
  let w : PWin := { w1 with placed := false, granted := false, plan := [] }
  let s := tabled tab (holding g2 two)
  { s with sp := { s.sp with pwins := [w], tiles := [(9, { owner := 5 })], nextWid := 1 } }

theorem test_tilePositions : (let p : Pooled := { mem := m1 }
    named9.desc 0 = some g2 ∧ g2.opc = 1 ∧ g2.tile ≠ 0 ∧ p.pos0 = none ∧
    (named9.sp.pwins.find? (fun v => v.members.any fun p => p.mem.id == 0 && p.pos0.isNone)).isSome = true ∧
    (mgetD named9.sp.tiles 9 { owner := 5 }).held = false ∧ named9.freePos (ceilDiv g2.bags (bptOf (p.mem.dim g2))) = some 0 ∧
    ((mget (after (.tilePositionsGrant 0) named9).sp.tiles 9).bind (·.pos)) = some 0) := by decide +kernel

theorem test_tileRel : (let s := { two with sp := { two.sp with tiles := [(9, { owner := 5, held := true })] } }
    s.starts .fn0 Reg.tileRel 31 1 false none = true ∧ (mget s.sp.tiles (bitf 9#64 0 12)).isSome = true ∧ s.chainPooling 5 9 = false ∧
    s.tileWanted 5 9 s.fe.nextId = false ∧ (after (.tileRel .fn0 9) s).sp.tiles = []) := by decide +kernel

theorem test_tileRel_pooling : (let s := { holding g2 two with sp := { two.sp with tiles := [(9, { owner := 5, held := true })] } }
    s.starts .fn0 Reg.tileRel 31 1 false none = true ∧ s.chainPooling 5 9 = true ∧
    (mget (after (.tileRel .fn0 9) s).sp.tiles 9).map (·.release) = some true) := by decide +kernel

/-! ## Rescale banks -/

/-- 1,024 equal entries. -/
def fill : Feed := { data := List.replicate 4096 0x40 }

theorem slice_fill : slice fill.data 0 4096 = List.replicate 4096 0x40 := by
  simp only [slice, fill, List.drop_zero, List.take_replicate, List.length_replicate, Nat.min_self, Nat.sub_self, List.replicate_zero,
    List.append_nil]

theorem entries_fill : ∀ x ∈ rscEntries (slice fill.data 0 4096), x = 0x40404040 := by
  rw [slice_fill]
  intro x hx
  obtain ⟨i, hi, rfl⟩ := List.mem_map.1 hx
  have h := List.mem_range.1 hi
  have e : min 4 (4096 - 4 * i) = 4 := by omega
  simp only [field, List.drop_replicate, List.take_replicate, e]
  decide

theorem test_load : (two.starts .fn0 Reg.rscCmd 31 1 false none = true ∧ fill.status = St.ok ∧ two.shadowRefs = 0) ∧
    ∀ x ∈ rscEntries (slice fill.data 0 4096), fNormal x = true :=
  ⟨by decide, fun x h => by rw [entries_fill x h]; decide⟩

theorem test_load_bad : (0 : F32) ∈ rscEntries (slice [] 0 4096) ∧ fNormal 0 = false ∧
    (after (.load .fn0 { data := [] }) two).qz.shadowOk = false := by decide +kernel

theorem test_swap : (let s := { two with qz := { two.qz with shadowOk := true } }
    s.starts .fn0 Reg.rscCmd 31 1 false none = true ∧ (after (.swap .fn0) s).qz.active = true ∧ (after (.swap .fn0) two).qz.active = false) := by
  decide +kernel

/-! ## Updates -/

/-- Eight elements of 1.0 as bytes. -/
def ones : Bytes := (List.replicate 8 (leBytes 4 0x3F800000)).flatten

/-- A scatter by kept lists that holds its reservation. -/
def sl : Desc := { desc [(0, 1, 3), (8, 2, 3), (32, 4, 1), (36, 4, 1)] with stage := .scatter, resv := 1 }

/-- The kept lists that it claimed: row 5 in bag 0. -/
def keptC : Kept :=
  { kept4 with chain := false, uniq := [key5], uver := [1], pairs := [{ u := 0, bag := 0, mult := 1 }], nbag := [1], claimed := some 0 }

/-- The scatter holds 4 KiB of pillow. -/
def scat : State :=
  let s := tabled tab (holding sl two)
  { s with sp := { s.sp with kept := [keptC] }, up := { s.up with resv := [(0, 4096)] } }

theorem test_scatterLists : (scat.desc 0 = some sl ∧ sl.opc = 3 ∧ sl.rowsForm = false ∧ scat.inputsIn sl = true ∧ scat.claimedBy 0 = some keptC ∧
    scatterStop (sl.count * gradStride sl keptC.dim) (sl.clip .input 0 { data := ones }) = none ∧
    ((scat.listContribs sl keptC (sl.clip .input 0 { data := ones }).data).any fun c => tooFarAhead (scat.epochOf (keyTbl c.key)) keptC.epoch) = false ∧
    scat.up.outb = []) ∧
    (let t := after (.scatterGradLists 0 { data := ones }) scat
     (t.fe.descs.map fun d => (d.stage, d.status, d.done)) = [(.finished, St.ok, 1)] ∧
     (t.up.merge.map fun e => (e.tbl, e.row, e.n, e.sums)) = [(3, 5, 1, List.replicate 8 0x3F800000)]) := by decide +kernel

/-- A ROWS-form scatter past the front end. -/
def sr : Desc := desc [(0, 1, 3), (3, 1, 0x20), (8, 2, 3), (32, 4, 1), (48, 8, key5.toNat)]

theorem test_scatterRows_enters : ((holding sr two).readyDesc sr 0x03 ∧ sr.rowsForm = true ∧ (holding sr two).switchAhead sr = false ∧
    (holding sr two).verGone sr = false ∧ (holding sr two).sp.room = true) ∧
    ((after (.scatterGradRows 0 { data := [] }) (holding sr two)).desc 0).map (·.stage) = some Stage.window := by
  unfold State.readyDesc; decide +kernel

/-- Sorted and reserved. -/
def scatR : State :=
  let s := tabled tab (holding { sr with stage := .scatter, resv := 1 } two)
  { s with up := { s.up with resv := [(0, 4096)], sorted := [m1] } }

theorem test_scatterRows : (let d : Desc := { sr with stage := .scatter, resv := 1 }
    scatR.desc 0 = some d ∧ d.rowsForm = true ∧ scatR.inputsIn d = true ∧ scatR.up.sorted.find? (fun m => m.id == 0) = some m1 ∧ m1.fwd = [] ∧
    scatterStop (d.count * gradStride d (m1.dim d)) (d.clip .input 1 { data := ones }) = none ∧
    ((rowContribs d m1 (m1.dim d) (d.clip .input 1 { data := ones }).data).any fun c => tooFarAhead (scatR.epochOf (keyTbl c.key)) d.epoch) = false ∧
    scatR.up.outb = [] ∧
    ((after (.scatterGradRows 0 { data := ones }) scatR).fe.descs.map fun d => (d.stage, d.status, d.done)) = [(.finished, St.ok, 1)]) := by
  decide +kernel

/-- The scatter waits at the head of the intake queue. -/
def intake0 : State :=
  let s := tabled tab (holding { sl with stage := .reserve } two)
  { s with sp := { s.sp with kept := [keptC] }, up := { s.up with intake := [0] } }

theorem test_pillowReserve : (let d : Desc := { sl with stage := .reserve }
    intake0.up.intake = [0] ∧ intake0.desc 0 = some d ∧ granules (intake0.scatterNeed d) * 4096 ≤ intake0.pillowShare ∧
    intake0.pillowRoom (granules (intake0.scatterNeed d) * 4096) = true ∧
    (let t := after .pillowReserve intake0
     t.up.intake = [] ∧ mget t.up.resv 0 = some (granules (intake0.scatterNeed d) * 4096) ∧ (t.desc 0).map (·.stage) = some Stage.scatter)) := by
  decide +kernel

theorem test_pillowFull : ({ sl with stage := .reserve } : Desc).told = false ∧ intake0.up.intake.contains 0 = true ∧
    ((after (.pillowFull 0) intake0).desc 0).map (·.told) = some true := by decide +kernel

/-- The sum of row 5 for an epoch. -/
def ent5 (e : BitVec 32) : Entry := { tbl := 3, ver := 1, row := 5, epoch := e, sums := List.replicate 8 0x3F800000, n := 1, late := false }

/-- It is in the merge cache. -/
def merged : State := let s := tabled tab two; { s with up := { s.up with merge := [ent5 0] } }

theorem test_mergeEvict : merged.up.merge.find? (fun x => merged.entryGroup x == merged.entryGroup (ent5 0)) = some (ent5 0) ∧
    merged.up.pillow.any (Entry.same (ent5 0)) = false ∧
    (let t := after (.mergeEvict (merged.entryGroup (ent5 0))) merged; t.up.merge = [] ∧ t.up.pillow = [ent5 0]) := by decide +kernel

/-- A whole batch of one message for row 5. -/
def msg5 : ContribMsg :=
  { key := key5, epoch := 0, elem0 := 0, data := List.replicate 8 0x3F800000, last := true, batch := 4, sender := 9, msgs := 1 }

/-- Table 3 takes remote contributions. -/
def remote : State := { tabled tab two with updCfg := [(3, 0x200)] }

theorem test_remote_refused : (let s := tabled tab two
    s.fabUp 0 = true ∧ s.up.inb = [] ∧ s.refusesRemote (key5, 0, 0) = true ∧ s.pillowRoom 0 = true ∧
    (s.fabPort 0).orsp ≠ 0 ∧ (after (.remoteContribution 0 msg5) s).out.contains (.ack 0 9 4 0 0 0 1 (ackBytes 4 0 0 0 1)) = true) := by decide +kernel

theorem test_remote_taken : (remote.refusesRemote (key5, 0, 0) = false ∧
    remote.pillowRoom (granules (remote.remoteNeed { sender := 9, batch := 4, msgs := [msg5], whole := 1, port := 0 }) * 4096) = true) ∧
    (let t := after (.remoteContribution 0 msg5) remote; t.out.contains (.ack 0 9 4 1 0 0 0 (ackBytes 4 1 0 0 0)) = true ∧ (t.up.merge.map (·.sums)) = [msg5.data]) := by decide +kernel

theorem test_batchDiscard : (let b : InBatch := { sender := 9, batch := 4, msgs := [{ msg5 with last := false }] }
    let s := { two with up := { two.up with inb := [b] } }
    s.up.inb.find? (fun x => x.is 9 4) = some b ∧ b.bad = false ∧ b.complete = false ∧ (after (.batchDiscard 9 4) s).up.inb = []) := by decide +kernel

/-- A scatter waits for one batch of one contribution. -/
def sent1 : State :=
  let s := holding { sl with stage := .remote, done := 2 } two
  { s with up := { s.up with outb := [{ batch := 4, id := 0, count := 1, node := 9 }] } }

theorem test_batchAck : sent1.up.outb.find? (fun y => y.batch == 4) = some { batch := 4, id := 0, count := 1, node := 9 } ∧
    sent1.desc 0 = some { sl with stage := .remote, done := 2 } ∧
    (let t := after (.batchAck ⟨0, 4⟩ 1 0 0 0) sent1; (t.fe.descs.map fun d => (d.stage, d.status, d.done)) = [(.finished, St.ok, 3)] ∧ t.up.outb = []) := by
  decide +kernel

theorem test_remoteAckTimeout : sent1.up.outb.any (fun y => y.id == 0 && y.batch != 4) = false ∧
    ((after (.remoteAckTimeout 4) sent1).fe.descs.map fun d => (d.stage, d.status)) = [(.finished, St.unrecoverable)] := by decide +kernel

/-- APPLY of table 3, epoch e. -/
def ap (e : Nat) : Desc := desc [(0, 1, 4), (8, 2, 3), (12, 4, e)]

theorem test_apply : (let s := tabled tab (holding (ap 0) two)
    s.readyDesc (ap 0) 0x04 ∧ (ap 0).mode = 0 ∧ s.table (ap 0).tbl = some tab ∧ s.scatterAhead (ap 0) = false ∧ (ap 0).epoch = s.epochOf 3) ∧
    (after (.apply 0) (tabled tab (holding (ap 0) two))).epochOf 3 = 1 := by unfold State.readyDesc; decide +kernel

theorem test_apply_other : (let s := tabled tab (holding (ap 2) two)
    s.readyDesc (ap 2) 0x04 ∧ (ap 2).mode = 0 ∧ s.scatterAhead (ap 2) = false ∧ (ap 2).epoch ≠ s.epochOf 3) ∧
    ((after (.apply 0) (tabled tab (holding (ap 2) two))).desc 0).map (·.status) = some St.badFormat := by unfold State.readyDesc; decide +kernel

/-- SET_EPOCH to 9. -/
def se : Desc := desc [(0, 1, 4), (3, 1, 0x10), (8, 2, 3), (12, 4, 9)]

theorem test_setEpoch : (let s := tabled tab (holding se two)
    s.readyDesc se 0x04 ∧ se.mode = 1 ∧ s.table se.tbl = some tab ∧ s.entriesOf se.tbl = []) ∧
    (after (.setEpoch 0) (tabled tab (holding se two))).epochOf 3 = 9 := by unfold State.readyDesc; decide +kernel

/-- FLUSH. -/
def fl : Desc := desc [(0, 1, 4), (3, 1, 0x20), (8, 2, 3)]

theorem test_flush : (let s := tabled tab (holding fl two)
    s.readyDesc fl 0x04 ∧ fl.mode = 2 ∧ s.table fl.tbl = some tab ∧ ∀ v ∈ tab.versions, s.dirtyRows fl.tbl v.ver = []) ∧
    ((after (.flush 0 []) (tabled tab (holding fl two))).desc 0).map (·.status) = some St.ok := by unfold State.readyDesc; decide +kernel

theorem test_commit : (let s := { two with pregs := mset two.pregs (pkey .fn0 Reg.optA) 0x3F800000 }
    s.writable .fn0 Reg.optSel 1 = true ∧ (mget (after (.commit .fn0 0x80000000000000FF) s).up.psets 0xFF).map (·.lr) = some 0x3F800000) := by
  decide +kernel

/-! ## Applied rows -/

/-- An apply of epoch 0 that has row 5 left. -/
def app5 : Apply :=
  { id := 0, tbl := 3, epoch := 0, rows := [(1, 5)], lr := 0x3F800000, wdlr := 0, b1 := 0, b2 := 0, eps := 0, c1 := 0, c2 := 0, lrt := 0, ties := false }

/-- Version 1 of table 3. -/
def v1 : Version := { ver := 1, state := .current, base := 0x100000 }

/-- Row 5 of the version is pinned. -/
def pin5 : Extent := { tbl := 3, ver := 1, first := 0, count := 10, grade := .fp32, off := 0, placed := [5] }

/-- The apply at work; `x` are the pinned extents. -/
def applying (x : List Extent) : State :=
  let s := tabled tab (holding { ap 0 with stage := .applying } two)
  { s with tb := { s.tb with extents := x }, up := { s.up with merge := [ent5 0], applies := [app5] } }

theorem test_rmw : ((applying [pin5]).applies 3 1 5 app5 tab v1 ∧ (applying [pin5]).rmwWaiting 3 1 5 = none ∧
    (applying [pin5]).masterBytes tab (keyOf 3 5) 1 = some (List.replicate 32 0) ∧ (applying [pin5]).mergedOf app5 1 5 = some (ent5 0) ∧ (ent5 0).n ≠ 0 ∧
    (applying [pin5]).twinRoom 32 = true) ∧
    (let t := after (.couchingRmw 3 1 5 ⟨{ data := [] }, {}⟩ []) (applying [pin5])
     t.up.merge = [] ∧ (t.up.twins.map fun x => (x.key, x.data)) = [(key5, ones)]) := by unfold State.applies; decide +kernel

theorem test_rmw_tier1 : ((applying []).applies 3 1 5 app5 tab v1 ∧ (applying []).masterBytes tab (keyOf 3 5) 1 = none ∧
    (applying []).backStatus tab v1 = St.ok ∧ (applying []).mergedOf app5 1 5 = some (ent5 0) ∧
    (applying []).twinRoom (slice ones 0 tab.srcBytes).length = true) ∧
    ((applying []).bringIn tab (keyOf 3 5) 1 (app5.record tab (slice ones 0 tab.srcBytes) (ent5 0).sums) .forced []).2 = true := by
  unfold State.applies; decide +kernel

theorem test_rmw_tier1_runs : (let t := after (.tier2RmwRetry 3 1 5 { data := ones } false []) (applying [])
    t.up.merge = [] ∧ (t.up.twins.map fun x => (x.key, x.data)) = [(key5, (List.replicate 8 (leBytes 4 0x40000000)).flatten)]) := by decide +kernel

theorem test_rmw_lost : (({ data := [], status := St.pageFault } : RowSrc).status ≠ St.ok ∧ (applying []).rmwWaiting 3 1 5 = none) ∧
    (let t := after (.tier2RmwRetry 3 1 5 { data := [], status := St.pageFault } true []) (applying []); t.up.merge = [] ∧ t.up.twins = []) := by
  decide +kernel

/-- The row waits; `w` says whether for a way. -/
def waiting5 (w : Bool) (x : List Extent) : State :=
  let s := applying x
  { s with up := { s.up with waits := [{ tbl := 3, ver := 1, row := 5, data := ones, way := w }] } }

theorem test_twinSpace : ((waiting5 false [pin5]).applies 3 1 5 app5 tab v1 ∧
    (waiting5 false [pin5]).rmwWaiting 3 1 5 = some { tbl := 3, ver := 1, row := 5, data := ones, way := false } ∧
    (waiting5 false [pin5]).masterBytes tab (keyOf 3 5) 1 = some (List.replicate 32 0) ∧
    (waiting5 false [pin5]).mergedOf app5 1 5 = some (ent5 0) ∧ (waiting5 false [pin5]).twinRoom 32 = true) ∧
    (after (.twinSpaceGrant 3 1 5 []) (waiting5 false [pin5])).up.twins.length = 1 := by unfold State.applies; decide +kernel

theorem test_wayGrant : ((waiting5 true []).applies 3 1 5 app5 tab v1 ∧
    (waiting5 true []).rmwWaiting 3 1 5 = some { tbl := 3, ver := 1, row := 5, data := ones, way := true } ∧
    (waiting5 true []).masterBytes tab (keyOf 3 5) 1 = none ∧ (waiting5 true []).mergedOf app5 1 5 = some (ent5 0) ∧
    (waiting5 true []).twinRoom ones.length = true ∧
    ((waiting5 true []).bringIn tab (keyOf 3 5) 1 (app5.record tab ones (ent5 0).sums) .forced []).2 = true) ∧
    (after (.cacheWayGrant 3 1 5 []) (waiting5 true [])).up.twins.length = 1 := by unfold State.applies; decide +kernel

theorem test_twinFull : (waiting5 false [pin5]).rmwWaiting 3 1 5 = some { tbl := 3, ver := 1, row := 5, data := ones, way := false } ∧
    ((after (.twinFull 3 1 5) (waiting5 false [pin5])).up.waits.map (·.told)) = [true] := by decide +kernel

/-- Row 5 is dirty in its extent, with a twin. -/
def dirty5 : State :=
  let s := tabled tab two
  { s with tb := { s.tb with extents := [{ pin5 with dirty := [5] }] }
           up := { s.up with twins := [{ key := key5, ver := 1, ch := 0, data := ones }] } }

/-- A write-back of the row has failed before, so that one is due. -/
def due5 : State := { dirty5 with up := { dirty5.up with wbFailed := [(key5, 1)] } }

theorem test_writeBack : (due5.wbDue (keyOf 3 5) 1 = true ∧ dirty5.version 3 1 = some (tab, v1) ∧ keyTbl (keyOf 3 5) = 3 ∧ keyRow (keyOf 3 5) = 5 ∧ dirty5.mayWrite (keyOf 3 5) 1 = true ∧
    tab.backTier = 1 ∧ dirty5.cxlUp 0 = true) ∧
    (let t := after (.writeBack 3 1 5 {}) due5
     t.up.twins = [] ∧ t.out = [.rowWrite key5 1 (0x100000 + 5 * 64) (List.replicate 32 0) (.host 0 0 false)]) := by decide +kernel

theorem test_writeBack_fails : (let t := after (.wbAgeExpiry 3 1 5 { status := St.pageFault }) dirty5
    t.up.twins.length = 1 ∧ t.up.wbFailed = [(key5, 1)] ∧ t.out = []) := by decide +kernel

/-! ## Table operations -/

/-- Table 3 without versions. -/
def bare (tier : Nat) : Table := { tab with versions := [], backTier := tier }

/-- TABLE_LOAD OPEN of version 2. -/
def op : Desc := desc [(0, 1, 0x11), (8, 2, 3), (10, 2, 2), (16, 8, 0x4000)]

theorem test_open : (let s := tabled (bare 0) (holding op two)
    s.readyDesc op 0x11 ∧ op.mode = 0 ∧ s.table op.tbl = some (bare 0) ∧ (bare 0).ver? op.verField = none ∧ (bare 0).versions.length < 4 ∧
    (bare 0).staged = none ∧ (bare 0).backTier = 0) ∧
    ((mget (after (.tableLoadOpen 0) (tabled (bare 0) (holding op two))).tb.tables 3).map fun t => t.versions.map (·.ver)) = some [2] := by
  unfold State.readyDesc; decide +kernel

/-- A pinned, readable segment of context 0 that covers the source range. -/
def seg0 : SegEntry := { ctx := 0, seg := 0, start := 0, len := 0x100000, base := 0x800000, r := true, w := true, a := true, fabric := false, pinned := true }

/-- It is known. -/
def segged (s : State) : State := { s with xl := { s.xl with segs := [seg0] }, ctxCfg := [(0, 1)], regs := [(Reg.segmBase, 1)] }

theorem test_open_tier1 : (let s := segged (tabled (bare 1) (holding op two))
    s.readyDesc op 0x11 ∧ (bare 1).backTier = 1 ∧ s.backingSeg (op.seen && op.ctx == (bare 1).ctx) (bare 1) op.src = some (St.ok, 0, 0x804000)) ∧
    ((mget (after (.tableLoadOpen 0) (segged (tabled (bare 1) (holding op two)))).tb.tables 3).map fun t => t.versions.map (·.base)) =
      some [0x804000] := by unfold State.readyDesc; decide +kernel

/-- A drive is READY with namespace 4 of 1,000 blocks. -/
def flashed (s : State) : State :=
  { s with fl := { s.fl with drives := [(2, { state := .ready, nss := [4], queues := 1 })],
                             nss := [(4, { drive := 2, nguid := 77, nsid := 1, blocks := 1000, valid := true })] } }

/-- OPEN on namespace 4 from block 16. -/
def op2 : Desc := desc [(0, 1, 0x11), (8, 2, 3), (10, 2, 2), (48, 6, 16), (56, 1, 4)]

theorem test_open_tier2 : (let s := flashed (tabled (bare 2) (holding op2 two))
    s.readyDesc op2 0x11 ∧ s.nsReady op2.byte56 = true ∧ op2.byte56 ≤ 63 ∧
    op2.row0 + (bare 2).blocks ≤ ((mget s.fl.nss op2.byte56).map (·.blocks)).getD 0) ∧
    ((mget (after (.tableLoadOpen 0) (flashed (tabled (bare 2) (holding op2 two)))).tb.tables 3).map fun t => t.versions.map fun v => (v.base, v.nsid)) =
      some [(16, 4)] := by unfold State.readyDesc; decide +kernel

/-- Version 2, staged. -/
def v2 : Version := { ver := 2, state := .staged, base := 0x804000 }

/-- FILL of row 7 of version 2. -/
def fill7 : Desc := desc [(0, 1, 0x11), (3, 1, 0x10), (8, 2, 3), (10, 2, 2), (32, 4, 1), (48, 6, 7)]

theorem test_fill : (let b : Table := { tab with versions := [v1, v2] }
    let s := tabled b (holding fill7 two)
    s.readyTable fill7 0x11 1 b v2 ∧ v2.state = .staged ∧ fill7.row0 + fill7.count ≤ b.rows ∧
    fill7.count ≤ (fill7.clip .bulkSrc 0 { data := List.replicate 64 1 }).data.length / b.bstride) ∧
    ((after (.tableLoadFill 0 { data := List.replicate 64 1 }) (tabled { tab with versions := [v1, v2] } (holding fill7 two))).fe.descs.map fun d =>
      (d.status, d.done)) = [(St.ok, 1)] := by unfold State.readyTable State.readyDesc; decide +kernel

/-- TABLE_PIN of rows 4 and 5 of version 1, from the backing (mode 0) or SRC (mode 1). -/
def pn (m : Nat) : Desc := desc [(0, 1, 0x12), (3, 1, 16 * m), (8, 2, 3), (10, 2, 1), (32, 4, 2), (48, 6, 4)]

/-- One unit of 16 MiB is the pinned partition. -/
def unit1 (s : State) : State := { s with regs := [(Reg.partCfg, (regReset .ce128 Reg.partCfg) + 1)] }

theorem test_pin : (let s := unit1 (tabled tab (holding (pn 0) two))
    s.readyTable (pn 0) 0x12 0 tab v1 ∧ s.pinCheck (pn 0) tab v1 = none ∧ s.backStatus tab v1 = St.ok) ∧
    ((after (.tablePinFromBacking 0 [⟨4, { data := ones }⟩, ⟨5, { data := ones }⟩]) (unit1 (tabled tab (holding (pn 0) two)))).tb.extents.map fun e =>
      (e.first, e.placed)) = [(4, [4, 5])] := by unfold State.readyTable State.readyDesc; decide +kernel

theorem test_pin_src : (let s := unit1 (tabled tab (holding (pn 1) two))
    s.readyTable (pn 1) 0x12 1 tab v1 ∧ s.pinCheck (pn 1) tab v1 = none ∧
    (pn 1).count ≤ ((pn 1).clip .bulkSrc 0 { data := List.replicate 128 1 }).data.length / tab.bstride) ∧
    ((after (.tablePinFromSrc 0 { data := List.replicate 128 1 }) (unit1 (tabled tab (holding (pn 1) two)))).tb.extents.map fun e =>
      (e.first, e.placed)) = [(4, [4, 5])] := by unfold State.readyTable State.readyDesc; decide +kernel

/-- TABLE_EVICT of version 1 with a mode. -/
def ev (m : Nat) : Desc := desc [(0, 1, 0x13), (3, 1, 16 * m), (8, 2, 3), (10, 2, 1), (32, 4, 2), (48, 6, 0)]

theorem test_evictRows : (tabled tab (holding (ev 0) two)).readyTable (ev 0) 0x13 0 tab v1 ∧ (ev 0).row0 + (ev 0).count ≤ tab.rows ∧
    (∀ r, (tabled tab (holding (ev 0) two)).mayWrite (keyOf 3 r) 1 = false) ∧
    ((after (.tableEvictRows 0 []) (tabled tab (holding (ev 0) two))).desc 0).map (·.status) = some St.ok := by
  refine ⟨by unfold State.readyTable State.readyDesc; decide +kernel, by decide, fun r => rfl, by decide +kernel⟩

theorem test_evictUnpin : (let s0 := tabled tab (holding (ev 1) two)
    let s := { s0 with tb := { s0.tb with extents := [pin5] } }
    s.readyTable (ev 1) 0x13 1 tab v1 ∧ s.extentOf 3 1 0 = some pin5 ∧ ¬(tab.backTier = 0 ∧ v1.state = .current) ∧ pin5.dirty = [] ∧
    (after (.tableEvictUnpin 0 []) s).tb.extents = []) := by unfold State.readyTable State.readyDesc; decide +kernel

theorem test_evictVersion : (let b : Table := { tab with versions := [{ v1 with state := .staged }] }
    (tabled b (holding (ev 2) two)).readyTable (ev 2) 0x13 2 b { v1 with state := .staged } ∧
    ((after (.tableEvictVersion 0) (tabled b (holding (ev 2) two))).desc 0).map (·.status) = some St.ok) := by
  unfold State.readyTable State.readyDesc; decide +kernel

/-- TABLE_SWITCH to version 2. -/
def sw (m : Nat) : Desc := desc [(0, 1, 0x10), (3, 1, 16 * m), (8, 2, 3), (10, 2, 2)]

/-- Table 3 with version 1 CURRENT and version 2 in a state. -/
def pair (x : VerState) : Table := { tab with versions := [v1, { v2 with state := x }] }

theorem test_switch : (let s := tabled (pair .staged) (holding (sw 0) two)
    s.readyTable (sw 0) 0x10 0 (pair .staged) v2 ∧ s.loading 3 2 = false ∧ s.unadmitted (sw 0) = false ∧
    s.switchCheck 3 (pair .staged) v2 false = none ∧
    ((after (.tableSwitchForward 0) s).version 3 2).map (·.2.state) = some VerState.current) := by
  unfold State.readyTable State.readyDesc; decide +kernel

theorem test_switch_any : (let s := tabled (pair .retiring) (holding (sw 1) two)
    s.readyTable (sw 1) 0x10 1 (pair .retiring) { v2 with state := .retiring } ∧
    s.switchCheck 3 (pair .retiring) { v2 with state := .retiring } true = none ∧
    ((after (.tableSwitchAny 0) s).version 3 1).map (·.2.state) = some VerState.retiring) := by
  unfold State.readyTable State.readyDesc; decide +kernel

/-! ## Prefetch and advice -/

/-- PREFETCH of rows 5 and 6 of table 3. -/
def pf : Desc := desc [(0, 1, 0x18), (3, 1, 0x10), (8, 2, 3), (16, 6, 5), (32, 4, 2)]

theorem test_rowRange : (let s := tabled tab (holding pf two)
    s.readyDesc pf 0x18 ∧ pf.mode = 1 ∧ s.table pf.tbl = some tab ∧ pf.srcRow + pf.count ≤ tab.rows ∧ tab.current = some v1 ∧ v1.poisoned = false ∧
    s.backStatus tab v1 = St.ok ∧ s.rl.poison = [] ∧ pf.tbl < 65536 ∧ tab.rows ≤ 281474976710656 ∧
    (∀ i, i < pf.count → (fetchOf [⟨5, { data := ones }⟩, ⟨6, { data := ones }⟩] (pf.srcRow + i)).status = St.ok) ∧
    ((after (.rowRange 0 [⟨5, { data := ones }⟩, ⟨6, { data := ones }⟩] []) s).fe.descs.map fun d => (d.status, d.done)) = [(St.ok, 2)]) := by
  unfold State.readyDesc; decide +kernel

/-- No row of it is poisoned. -/
theorem test_rowRange_clean : ∀ r, (tabled tab (holding pf two)).rowPoisoned 3 1 r = false := fun _ => rfl

/-- PREFETCH of 64 bytes' translation. -/
def px : Desc := desc [(0, 1, 0x18), (3, 1, 0x20), (16, 8, 0x1000), (32, 4, 64)]

theorem test_xlate : (holding px two).readyDesc px 0x18 ∧ px.mode = 2 ∧
    ((after (.xlate 0) (holding px two)).fe.descs.map fun d => (d.status, d.done)) = [(St.ok, 64)] := by unfold State.readyDesc; decide +kernel

/-- ADVISE over 8 KiB from 0x1000. -/
def ad (m : Nat) : Desc := desc [(0, 1, 0x19), (3, 1, 16 * m), (16, 8, 0x1000), (32, 4, 8192)]

theorem test_sequential : (holding (ad 0) two).readyDesc (ad 0) 0x19 ∧ (ad 0).mode = 0 ∧
    (after (.sequential 0) (holding (ad 0) two)).xl.advised.length = 1 := by unfold State.readyDesc; decide +kernel

theorem test_normal : (let s0 := holding (ad 1) two
    let s := { s0 with xl := { s0.xl with advised := [{ ctx := 0, va := 0x1800, len := 64 }, { ctx := 0, va := 0x9000, len := 64 }] } }
    s.readyDesc (ad 1) 0x19 ∧ (ad 1).mode = 1 ∧ (after (.normal 0) s).xl.advised.map (·.va) = [0x9000]) := by
  unfold State.readyDesc; decide +kernel

/-- ADVISE WILLNEED or DONTNEED of rows 5 and 6. -/
def ar (m : Nat) : Desc := desc [(0, 1, 0x19), (3, 1, 16 * m), (8, 2, 3), (16, 6, 5), (32, 4, 2)]

theorem test_willneed : (let s := tabled tab (holding (ar 2) two)
    s.readyDesc (ar 2) 0x19 ∧ (ar 2).mode = 2 ∧ s.table 3 = some tab ∧ tab.current = some v1 ∧
    ((after (.willneed 0 [⟨5, { data := ones }⟩]) s).desc 0).map (·.status) = some St.ok) := by unfold State.readyDesc; decide +kernel

/-- A way that holds row 5. -/
def way5 : Way := { ch := 0, set := 0, way := 0, key := key5, ver := 1, freq := 9, kind := .read, size := 32 }

theorem test_dontneed : (let s0 := tabled tab (holding (ar 3) two)
    let s := { s0 with ch := { s0.ch with ways := [way5] } }
    s.readyDesc (ar 3) 0x19 ∧ (ar 3).mode = 3 ∧ s.table 3 = some tab ∧
    ((after (.dontneed 0 []) s).ch.ways.map fun w => (w.dn, w.freq)) = [(true, 0)]) := by unfold State.readyDesc; decide +kernel

/-! ## Tables -/

/-- A table image: 100 rows of 8 elements, FP32, no updates, tier 1, one band. -/
def img : Feed := { data := put (raw [(0, 8, 100), (8, 2, 8), (11, 1, 0x02)]) 64 1 0 ++ List.replicate 63 0 }

theorem test_define : (two.starts .fn0 Reg.tblCmd 31 1 false none = true ∧ two.table (bitf (two.own .fn0 Reg.tblSel) 0 16) = none ∧ img.status = St.ok ∧
    firstBad (defineBads (slice img.data 0 128)) = none) ∧
    ((after (.define .fn0 img) two).table 0).map (fun t => (t.rows, t.dim, t.backTier)) = some (100, 8, 1) := by decide +kernel

theorem test_define_bad : (firstBad (defineBads (slice [] 0 128))).isSome = true ∧
    (after (.define .fn0 { data := [] }) two).tb.tables = [] ∧ bitf (regGet (after (.define .fn0 { data := [] }) two) .fn0 Reg.tblCmd) 32 8 = 3 := by
  decide +kernel

/-- Table 0 without versions. -/
def table0 : State := { two with tb := { two.tb with tables := [(0, bare 1)] } }

theorem test_delete : (table0.starts .fn0 Reg.tblCmd 31 1 false none = true ∧ table0.table (bitf (table0.own .fn0 Reg.tblSel) 0 16) = some (bare 1) ∧
    (bare 1).versions = []) ∧ (after (.delete .fn0) table0).tb.tables = [] := by decide +kernel

theorem test_bands : (firstBad (bandBads (slice img.data 0 128) (some (bare 1).grade) (bare 1).backTier (img_nbands (slice img.data 0 128)) 0 none) = none) ∧
    bitf (regGet (after (.bands .fn0 img) table0) .fn0 Reg.tblCmd) 32 8 = 0 := by decide +kernel

theorem test_partCfg : (two.hits .fn0 Reg.partCfg 1 Reg.partCfg 8) ∧
    (let v : Word64 := BitVec.ofNat 64 (64 + 256 * 2 ^ 16)
     two.partFits (two.taken .fn0 Reg.partCfg Reg.partCfg 8 v) = true ∧ (after (.partCfgWrite .fn0 Reg.partCfg 8 v) two).cfg Reg.partCfg = v) ∧
    (after (.partCfgWrite .fn0 Reg.partCfg 8 0xFFF0FFF) two).cfg Reg.partCfg = two.cfg Reg.partCfg := by unfold State.hits; decide +kernel

/-! ## Versions -/

/-- Version 1 RETIRING, as far as `v` says. -/
def retiring (v : Version) (s : State) : State := tabled { tab with versions := [v] } s

/-- RETIRING and not begun. -/
def vr : Version := { v1 with state := .retiring }

theorem test_retirement : (let s := retiring { vr with begun := true, swept := true } two
    s.version 3 1 = some ({ tab with versions := [{ vr with begun := true, swept := true }] }, { vr with begun := true, swept := true }) ∧
    s.dirtyRows 3 1 = [] ∧ (after (.retirement 3 1 []) s).version 3 1 = none) := by decide +kernel

theorem test_retirement_refs : (retiring vr two).refs 3 1 = 0 ∧ (after (.retirement 3 1 []) (retiring vr two)).version 3 1 = none := by decide +kernel

theorem test_sweep : (let s0 := retiring { vr with begun := true } two
    let s := { s0 with ch := { s0.ch with ways := [way5] } }
    s.dirtyRows 3 1 = [] ∧ (let t := after (.retirementSweep 3 1) s
      (t.version 3 1).map (·.2.swept) = some true ∧ (t.ch.ways.filter fun w => w.live) = [])) := by decide +kernel

/-- It has begun, and row 5 is dirty. -/
def stuck5 : State :=
  let s := retiring { vr with begun := true } dirty5
  { s with tb := { s.tb with extents := [{ pin5 with dirty := [5] }] } }

theorem test_retireRetry : (stuck5.dirtyRows 3 1 = [5] ∧ keyTbl (keyOf 3 5) = 3 ∧ keyRow (keyOf 3 5) = 5 ∧ stuck5.mayWrite (keyOf 3 5) 1 = true ∧
    tab.backTier = 1 ∧ stuck5.cxlUp 0 = true) ∧
    (after (.retireRetry 3 1 []) stuck5).out = [.rowWrite key5 1 (0x100000 + 5 * 64) (List.replicate 32 0) (.host 0 0 false)] := by decide +kernel

theorem test_retireStalled : ((after (.retireStalled 3 1) stuck5).version 3 1).map (·.2.stalled) = some true := by decide +kernel

/-- Row 5 waits for a regrade to band 1, which is DIRECT. -/
def regr : State :=
  let s := tabled { tab with bands := [{ thresh := 0, grade := .fp32, direct := false }, { thresh := 8, grade := .fp32, direct := true }] } two
  { s with ch := { s.ch with ways := [way5] }, tb := { s.tb with regrades := [{ key := key5, ver := 1, band := 1 }] } }

theorem test_regrade : (regr.tb.regrades.find? (fun r => r.key == keyOf 3 5 && r.ver == 1) = some { key := key5, ver := 1, band := 1 } ∧
    bitb (regr.cfg Reg.regradeCtl) 0 = true ∧ regr.mainWay (keyOf 3 5) 1 = some way5 ∧ v1.begun = false ∧ regr.placed 3 1 5 = none ∧
    (regr.version 3 1).map (fun e => (bandAt e.1 1).direct) = some true ∧ regr.mayWrite (keyOf 3 5) 1 = false ∧ regr.rowPoisoned 3 1 5 = false) ∧
    (let t := after (.regrade 3 1 5 { data := ones } []) regr; (t.ch.ways.filter fun w => w.live) = [] ∧ t.tb.regrades = []) := by decide +kernel

/-! ## Contexts and translation -/

theorem test_ctxCfg : two.hits .fn0 Reg.ctxCfg 1 Reg.ctxCfg 8 ∧
    (let s := segged two
     let t := after (.ctxCfgWrite .fn0 Reg.ctxCfg 8 0) s; t.ctxEn 0 = false ∧ s.ctxEn 0 = true) ∧
    (let s := { two with xl := { two.xl with segs := [seg0] } }
     let t := after (.ctxCfgWrite .fn0 Reg.ctxCfg 8 1) s; t.ctxEn 0 = true ∧ t.xl.segs = []) := by unfold State.hits; decide +kernel

/-- Mask 1 of context 0. -/
def inv1 : Word64 := BitVec.ofNat 64 (2 ^ 16)

theorem test_inval : ((segged two).starts .fn0 Reg.segInval 39 1 false none = true ∧ (segged two).ctxEn 0 = true) ∧
    (after (.inval .fn0 inv1) (segged two)).xl.segs = [] ∧ (after (.invalDrain .fn0 inv1) (segged two)).xl.segs = [] := by decide +kernel

/-- A descriptor that was pricked against segment 0. -/
def inSeg : Desc :=
  { gat with stage := .window, resv := 1,
             ranges := [{ kind := .input, va := 0x100, len := 64, seg := true, pieces := [{ off := 0, len := 64, target := 0x800100, sg := 0, r := true, w := true, pinned := true }] }] }

theorem test_invalDrain : (segged (holding inSeg two)).pricked 0 1 = [0] ∧
    (let t := after (.invalDrain .fn0 inv1) (segged (holding inSeg two))
     t.xl.drain = some (0, 1, [0]) ∧ bitb (regGet t .fn0 Reg.segInval) 39 = true) := by decide +kernel

theorem test_mirror : (let s := { two with xl := { two.xl with mirror := [(0, 0)] } }
    s.mirrorOut 0 = true ∧ s.fe.descs = [] ∧
    (let t := after (.mirrorReadReturn 0 (raw [(8, 8, 0x1000), (16, 8, 0x40000), (24, 2, 7)] ++ List.replicate 448 0)) s
     t.xl.mirror = [] ∧ t.xl.segs.map (fun e => (e.seg, e.len, e.base)) = [(0, 0x1000, 0x40000)])) := by decide +kernel

/-- A run-ahead asks for one page. -/
def ra1 : Ahead := { id := 77, ctx := 0, port := 0, pasid := 3, va := 0x1000, iova := 0x5000, pages := 1, needR := true, needW := false }

/-- Its translation. -/
def xl1 : Xlate := { port := 0, iova := 0x5000, log2 := 12, r := true, w := false }

theorem test_ats : (let s := { two with xl := { two.xl with ahead := [ra1] } }
    s.xl.ahead.find? (fun a => a.id == 77) = some ra1 ∧ ra1.pages = 1 ∧ xl1.port = ra1.port ∧ pageLog xl1.log2 = true ∧ xl1.iova / 2 ^ xl1.log2 = ra1.iova / 2 ^ xl1.log2 ∧
    xl1.r = true ∧ ra1.needW = false ∧
    (let t := after (.atsTranslationCompletion 77 [xl1]) s; t.xl.ahead = [] ∧ t.xl.xc.map (fun e => (e.pasid, e.iova, e.ahead)) = [(3, 0x5000, true)])) := by
  decide +kernel

/-- A gather with one input range whose page request is outstanding. -/
def pr1 : Desc :=
  { gat with stage := .parked, resv := 1,
             ranges := [{ kind := .input, va := 0x100, len := 64, seg := true, pri := [0], lack := [0],
                          pieces := [{ off := 0, len := 64, target := 0x800100, sg := 0, r := true, w := true, pinned := false }] }] }

/-- It is parked. -/
def parked : State :=
  let s := segged (holding pr1 two)
  { s with fe := { s.fe with park := [0] }, xl := { s.xl with pri := [(0, 1)] } }

theorem test_pageResponse : (parked.fe.descs = [pr1] ∧ (∀ r ∈ pr1.ranges, r.seg = true ∧ r.known = false ∧ r.pri = r.lack ∧ r.lack = [0] ∧ r.kind = .input) ∧
    pr1.ranges.length = 1 ∧ pr1.opc ≠ 0x12 ∧ pr1.mirror = false ∧ pr1.ats = false ∧ (parked.xl.pri.any fun e => e.1 == 0) = true) ∧
    (after (.pageResponse 0 .success [{ port := 0, iova := 0x800000, log2 := 12, r := true, w := true }]) parked).xl.pri = [] := by decide +kernel

theorem test_pageResponse_failure : (let t := after (.pageResponse 0 .failure []) parked
    (t.desc 0).map (fun d => (d.stage, d.status)) = some (Stage.finished, St.pageFault) ∧ t.xl.priStop = [0]) ∧
    ((after (.pageResponseTimeout 0) parked).desc 0).map (·.status) = some St.pageFault := by decide +kernel

theorem test_priEnable : (∀ d ∈ two.fe.descs, d.stage ≠ .parked ∧ d.stage ≠ .headWait) ∧
    (after (.priCapabilityEnable 0) { two with xl := { two.xl with priStop := [0] } }).xl.priStop = [] := by decide +kernel

theorem test_parkEntryFree : (let s := holding { pr1 with stage := .headWait } two
    s.fe.park.length < 256 ∧ (let t := after (.parkEntryFree 5) s; t.fe.park = [0] ∧ (t.desc 0).map (·.stage) = some Stage.parked)) := by decide +kernel

/-- A cached translation that descriptor 0 pins. -/
def xe : XEntry := { port := 0, pasid := 3, iova := 0x5000, log2 := 12, r := true, w := true, pins := [0] }

/-- It is in use by a descriptor past the front end. -/
def pinned0 : State := { holding inSeg two with xl := { two.xl with xc := [xe] } }

theorem test_invalidate : (pinned0.xl.invals.length < 32 ∧
    ∀ e ∈ pinned0.xl.xc, e.overlaps 0 3 0x5000 4096 = true → ∀ i ∈ e.pins, ((pinned0.desc i).map Desc.moving).getD false = true) ∧
    (let t := after (.invalidateRequest 0 9 3 0x5000 4096) pinned0
     t.xl.xc.map (·.stale) = [true] ∧ t.xl.invals.map (fun v => (v.tag, v.waits)) = [(9, [0])]) := by decide +kernel

/-- It waits for descriptor 0. -/
def invaling : State := after (.invalidateRequest 0 9 3 0x5000 4096) pinned0

theorem test_invalAbort : (invaling.xl.invals.find? (fun i => i.port == 0 && i.tag == 9)).map (·.waits) = some [0] ∧
    (let t := after (.invalAbort 0 9) invaling
     t.out.contains (.invalDone 0 9) = true ∧ t.xl.invals = [] ∧ t.fe.descs.map (fun d => (d.stage, d.status)) = [(.finished, St.xlateAbort)]) := by
  decide +kernel

theorem test_invalDrained : (after (.invalidateDrained 0 9) invaling).out.contains (.invalDone 0 9) = true := by decide +kernel

theorem test_driverRetry : two.xl.drvFault.contains 2 = false ∧
    (let t := after (.xlateDriverRetry 2 0 0x1000 false) two; t.xl.drvFault = [2] ∧ (after (.xlateDriverRetry 2 0 0x1000 true) t).xl.drvFault = []) := by
  decide +kernel

theorem test_dmaTimeout : (holding inSeg two).desc 0 = some inSeg ∧ inSeg.reads = true ∧
    ((after (.dmaTimeout 0 0 0x100) (holding inSeg two)).desc 0).map (·.status) = some St.dmaTimeout := by decide +kernel

/-! ## Ports -/

theorem test_hostLinkDown : two.cxlUp 0 = true ∧ two.losesRing 0 5 = true ∧
    (let t := after (.hostLinkDown 0) two; t.cxlUp 0 = false ∧ (t.ring 5).state = .pausedHost ∧ (t.ring 5).hostFrom = .active) := by decide +kernel

theorem test_flr : (let t := after (.functionLevelReset ⟨0, {}⟩) two
    t.cxlUp 0 = true ∧ pget two.st.sessions .fn0 ≠ none ∧ pget t.st.sessions .fn0 = none ∧ (t.ring 5).state = .pausedHost) := by decide +kernel

theorem test_hostPortTraining : (let s := { two with pw := { two.pw with cxl := [], cxlEnum := false } }
    s.pw.selvedge = false ∧ s.cxlUp 1 = false ∧ 1 < Member.cxlPorts s.fuses.member ∧
    (let t := after (.hostPortTraining 1 ⟨true, 2, 3, true, true, 1, {}⟩) s
     mget t.pw.cxl 1 = some { up := true, width := 2, rate := 3, cache := true } ∧ t.pw.cxlEnum = true)) := by decide +kernel

theorem test_fabricTraining : (let s := { two with pw := { two.pw with fab := [], node := none } }
    s.pw.selvedge = false ∧ 2 < Member.fabPorts s.fuses.member ∧ (s.fabPort 2).status = .absent ∧
    (let t := after (.fabricPortTraining 2 ⟨12, 4, 4⟩) s; t.fabUp 2 = true ∧ t.pw.node = some 12) ∧
    (let t := after (.fabricPortTraining 2 ⟨12, 4, 0⟩) s
     (t.fabPort 2).status = .training ∧ (after (.fabricCreditReturn 2 true 3) t).fabUp 2 = true)) := by decide +kernel

theorem test_fabricDrain : two.fabUp 0 = true ∧ two.fabBusy 0 = false ∧
    ((after (.fabricPortDrain 0) two).fabPort 0).status = .absent := by decide +kernel

/-- An announced near ring is read by its port, which then drains until the data has come. -/
theorem test_fabricDrain_busy : (let s := ringed 6 { act with typ := .nearDesc, pub := 1 } two
    let t := after (.ringTurn 6) { s with fe := { s.fe with announced := [6] } }
    t.fabBusy 0 = true ∧ ((after (.fabricPortDrain 0) t).fabPort 0).status = .draining) := by decide +kernel

/-- A message and a response wait for credits of port 0. -/
theorem test_credit_waiting : (let o : Output := .descRead 6 0 1 0x1000 (.fabric 0)
    let a : Output := .ack 0 9 4 1 0 0 0 []
    let f : Fab := { status := .present, oreq := 0, orsp := 0 }
    let s := { two with pw := { two.pw with fab := [(0, f)], fabOut := [o], fabRsp := [a] } }
    s.fabUp 0 = true ∧ s.fabFirst = none ∧ a.ackPort = some 0 ∧
    (after (.fabricCreditReturn 0 false 1) s).out.contains (o.onPort 0) = true ∧
    (after (.fabricCreditReturn 0 true 1) s).out.contains a = true) := by decide +kernel

theorem test_credit : two.fabUp 0 = true ∧ two.pw.fabOut = [] ∧ two.pw.fabRsp = [] ∧
    (let t := after (.fabricCreditReturn 0 true 3) two; (t.fabPort 0).oreq = 8 ∧ (t.fabPort 0).orsp = 11) := by decide +kernel

/-! ## Bulk mover -/

/-- A host range and a fabric range of 600 bytes. -/
def hostR (k : RangeKind) : Range :=
  { kind := k, va := 0x100, len := 600, seg := true, known := true, pieces := [{ off := 0, len := 600, target := 0x800100, sg := 0, r := true, w := true, pinned := true }] }
def fabR (k : RangeKind) : Range :=
  { kind := k, va := 0x9000, len := 600, seg := true, known := true, fabric := true,
    pieces := [{ off := 0, len := 600, target := 0x40000, sg := 1, r := true, w := true, pinned := false }] }

/-- A spill, from fabric to host, and a fill. -/
def spill : Desc := { desc [(0, 1, 0x20), (16, 8, 0x9000), (24, 8, 0x100), (32, 4, 600)] with resv := 1, ranges := [fabR .bulkSrc, hostR .bulkDst] }
def bfill : Desc := { desc [(0, 1, 0x21), (16, 8, 0x100), (24, 8, 0x9000), (32, 4, 600)] with resv := 1, ranges := [hostR .bulkSrc, fabR .bulkDst] }

theorem test_bulkSpill : (holding spill two).readyDesc spill 0x20 ∧
    (after (.bulkSpill 0) (holding spill two)).fl.bulk.map (·.id) = [0] := by unfold State.readyDesc; decide +kernel

theorem test_bulkFill : (holding bfill two).readyDesc bfill 0x21 ∧
    (after (.bulkFill 0) (holding bfill two)).fl.bulk.map (·.id) = [0] := by unfold State.readyDesc; decide +kernel

/-- The fill is in the mover, with bursts of 512 bytes; n bytes have moved. -/
def moving (n : Nat) : State :=
  let s := holding { bfill with stage := .bulk } two
  { s with fl := { s.fl with bulk := [{ id := 0, moved := n, burst := 512 }] }
           xl := { s.xl with xc := [{ port := 0, pasid := 0, iova := 0x800000, log2 := 12, r := true, w := true, pins := [0] }] } }

theorem test_bulkBurst : (let d : Desc := { bfill with stage := .bulk }
    let b : Bulk := { id := 0, moved := 0, burst := 512 }
    (moving 0).fl.bulk.find? (moving 0).burstMay = some b ∧ (moving 0).desc 0 = some d ∧ b.next d = 256 ∧ d.stage = .bulk ∧
    (∀ r ∈ d.ranges, r.seg = true ∧ r.fault = none ∧ r.lack = []) ∧ (∀ e ∈ (moving 0).fe.descs, e.pricking = false) ∧ b.moved + b.next d < d.count ∧
    d.bulkCut 0 256 { data := List.replicate 256 1 } none = none ∧
    (after (.bulkBurst 0 { data := List.replicate 256 1 } none) (moving 0)).fl.bulk = [{ b with moved := 256 }]) := by decide +kernel

theorem test_bulkBurst_last : (let d : Desc := { bfill with stage := .bulk }
    let b : Bulk := { id := 0, moved := 256, burst := 512 }
    (moving 256).fl.bulk.find? (moving 256).burstMay = some b ∧ (moving 256).desc 0 = some d ∧
    d.count ≤ b.moved + b.next d ∧ d.bulkCut 256 344 { data := List.replicate 344 1 } none = none ∧
    ((after (.bulkBurst 0 { data := List.replicate 344 1 } none) (moving 256)).fe.descs.map fun d => (d.stage, d.status, d.done)) =
      [(.finished, St.ok, 600)]) := by decide +kernel

/-! ## Load -/

theorem test_aging : (let s := { two with ch := { two.ch with ways := [way5, { way5 with kind := .ghost, freq := 1, way := 1, size := 0 }] } }
    (after .agingSweep s).ch.ways.map (·.freq)) = [4] := by decide +kernel

theorem test_interval : (let s := { two with ch := { two.ch with loads := [(0, { lines := 500 })] } }
    (let t := after .loadIntervalEnd s; (t.loadOf 0).lines = 0 ∧ (t.loadOf 0).lastLines = 500 ∧ t.ch.tracker = [])) := by decide +kernel

/-- Row 5 lies on channel 0 and is to move to channel 3. -/
def migr : State :=
  let s := tabled tab two
  { s with ch := { s.ch with ways := [{ way5 with kind := .master }], moves := [{ key := key5, ver := 1, kind := .migrated 3 }] } }

theorem test_migration : migr.moveOf (keyOf 3 5) 1 false = some { key := key5, ver := 1, kind := .migrated 3 } ∧
    ((migr.endMove (keyOf 3 5) 1).mainWay (keyOf 3 5) 1).isSome = true ∧
    ((migr.endMove (keyOf 3 5) 1).copyWays 3 [] (((migr.endMove (keyOf 3 5) 1).copiesOf (keyOf 3 5) 1).filter fun x => x.repl == 0)).2 = true ∧
    (let t := after (.migrationPublish 3 1 5 []) migr; t.ch.redir.map (·.kind) = [.migrated 3] ∧ t.ch.moves = []) := by decide +kernel

/-- Row 5 is to have four copies from channel 0 on. -/
def repl : State := { migr with ch := { migr.ch with moves := [{ key := key5, ver := 1, kind := .replicated 0 2 }] } }

theorem test_replication : (let s := repl.endMove (keyOf 3 5) 1
    repl.moveOf (keyOf 3 5) 1 true = some { key := key5, ver := 1, kind := .replicated 0 2 } ∧ repl.table (keyTbl (keyOf 3 5)) = some tab ∧
    (let r := s.replicaData tab (keyOf 3 5) 1
     r.2 = some (.fp32, List.replicate 32 0) ∧
     (r.1.addReplicas (keyOf 3 5) 1 0 .fp32 (List.replicate 32 0) [] ((List.range 2).filter fun i =>
        i != 0 && !(((s.replicasOf (keyOf 3 5) 1).map (·.repl)).contains i))).2 = true) ∧
    (after (.replicationPublish 3 1 5 []) repl).ch.redir.map (·.kind) = [.replicated 0 2]) := by decide +kernel

/-! ## Ground store -/

/-- A read of bank 4 waits on channel 0. -/
def req4 : Req := { ch := 0, bank := 4, line := 9, write := false, born := 0, bobbin := false }

/-- It is the channel's one request. -/
def banked : State := { two with gs := { two.gs with queues := [req4] } }

theorem test_bankAccess : (banked.pchOf 0 = some 0 ∧ (banked.gs.queues.filter fun x => x.ch == 0) = [req4] ∧ req4.write = (banked.sched 0).writing ∧
    req4.bank / 30 = (banked.sched 0).tier ∧ mgetD (banked.sched 0).busy 4 0 ≤ 1 ∧ (banked.sched 0).free ≤ 1 ∧
    (banked.sched 0).clock + 1 < (banked.sched 0).burst + (banked.sched 0).ival ∧ (banked.phys 0).throttle = 0 ∧ banked.emergLevel = 0 ∧ banked.gs.wcWait = [] ∧ banked.gs.copies = []) ∧
    (let t := after (.bankAccess 0) banked; t.gs.queues = [] ∧ mgetD (t.sched 0).busy 4 0 = 17) := by decide +kernel

/-- Channel 0 has a burst due; channel 128 is a spare. -/
theorem test_refresh : (let s := { two with gs := { two.gs with scheds := [(0, { clock := 2000, burst := 900, ival := 1066 })] } }
    (s.phys 0).state = .active ∧ s.lchOf 0 = some 0 ∧ (s.sched 0).burst + (s.sched 0).ival ≤ (s.sched 0).clock ∧
    (let t := after (.refreshBurst 0) s
     (t.sched 0).free = 2016 ∧ (t.sched 0).burst = 2000 ∧ (t.sched 0).ival = 1066 ∧ (t.phys 0).row = 1)) := by decide +kernel

theorem test_refresh_spare : (two.phys 128).state = .spare ∧ two.lchOf 128 = none ∧
    (let t := after (.refreshBurst 128) two
     (t.sched 384).burst = (two.sched 384).ival ∧ (t.sched 384).ival = 1066 ∧ (t.phys 128).row = 1) := by decide +kernel

/-- A write-combining entry of line 9, old enough. -/
def wc9 : State := { two with gs := { two.gs with wc := [{ ch := 0, bank := 4, line := 9, mask := 1, born := 0 }], scheds := [(0, { clock := 70000 })] } }

theorem test_wcRetire : (wc9.oldestWc 0).isSome = true ∧ max 1 (bitf (wc9.cfg Reg.gsCtl) 16 12) ≤ wc9.clockOf 0 ∧
    wc9.gs.lostBanks.contains 4 = false ∧ wc9.gs.copies = [] ∧ wc9.gs.wcWait = [] ∧
    (let t := after (.wcRetire 0) wc9; t.gs.wc.map (·.out) = [true] ∧ t.gs.queues.map (fun r => (r.line, r.write)) = [(9, false), (9, true)]) := by decide +kernel

theorem test_rowRepair : two.bankThere 0 1 2 = some 0 ∧ mgetD two.gs.rowUsed (bankKey 0 1 (two.physBank 0 1 2)) 0 < 15 ∧
    (let t := after (.rowRepair 0 1 2 100) two
     mget t.gs.rowMap (bankKey 0 1 2 * 512 + 100) = some 0 ∧ mget t.gs.rowUsed (bankKey 0 1 2) = some 1) := by decide +kernel

theorem test_bankRepair : mgetD two.gs.bankUsed (tierKey 0 1) 0 < 2 ∧
    (let t := after (.bankRepair 0 1 ⟨2, false⟩) two; mget t.gs.bankMap (bankKey 0 1 2) = some 30 ∧ mget t.gs.bankUsed (tierKey 0 1) = some 1) := by decide +kernel

theorem test_bankStuck : banked.bankThere 0 0 4 = some 0 ∧ (banked.gs.queues.any fun r => r.ch == 0 && r.bank == 0 * 30 + 4) = true ∧
    mget (after (.bankStuck 0 0 4) banked).gs.bankMap (bankKey 0 0 4) = some 30 := by decide +kernel

theorem test_scrub : bitf (two.cfg Reg.gsCtl) 40 8 ≠ 0 ∧ two.roleUp 3 = true ∧
    ((after (.scrub 0 []) two).tel.countOf Ctr.scrubPasses).count = 1 := by decide +kernel

/-! ## Channel commands -/

theorem test_replace : (two.starts .fn0 Reg.gsCmd 31 1 true (some 3) = true ∧ 2 ≤ two.rights .fn0 ∧ two.pchOf 1 = some 1 ∧ two.acting 1 = false ∧
    two.spareChs = [128]) ∧
    (let t := after (.replace .fn0 1 true) two
     t.gs.copies.map (fun c => (c.lch, c.op, c.pch)) = [(1, 1, 128)] ∧ (t.phys 128).state = .copyIn ∧ (t.phys 1).state = .copyOut) := by decide +kernel

theorem test_fold : (two.donor 1 = false ∧ 2 * two.foldSets ≤ two.cachePockets ∧ two.ch.ways = []) ∧
    (let t := after (.fold .fn0 1 true []) two; t.gs.copies.map (fun c => (c.lch, c.op)) = [(1, 2)] ∧ (t.phys 1).state = .copyOut) := by decide +kernel

/-- Channel 1 is folded. -/
def folded1 : State := { two with gs := { two.gs with folded := [1] } }

theorem test_unfold : (1 < folded1.chans ∧ folded1.foldedCh 1 = true ∧ folded1.acting 1 = false ∧ folded1.spareChs = [128]) ∧
    (after (.unfold .fn0 1) folded1).gs.copies.map (fun c => (c.lch, c.op, c.pch)) = [(1, 3, 128)] := by decide +kernel

theorem test_retrain : (two.phys 129).state = .offline ∧ ((after (.retrain .fn0 129 (some {})) two).phys 129).state = .spare ∧
    ((after (.retrain .fn0 129 none) two).phys 129).state = .failed ∧
    ((after (.retrain .fn0 129 (some { errors := 2 })) two).phys 129).state = .failed := by decide +kernel

theorem test_test : (two.phys 128).state = .spare ∧ bitf (two.own .fn0 Reg.gsTgCfg) 2 2 = 0 ∧
    (let s := { two with pregs := mset two.pregs (pkey .fn0 Reg.gsTgCfg) 0xC }
     let t := after (.test .fn0 128 3 1 2 9) s
     bitf (s.own .fn0 Reg.gsTgCfg) 2 2 = 3 ∧ (t.phys 128).tgDone = true ∧ (t.phys 128).tgPass = false ∧ (t.phys 128).state = .failed ∧
     bitf (regGet t .fn0 Reg.gsCmd) 32 8 = 6) := by decide +kernel

/-- WRITE_CHECK, and a read under the configuration under which the channel was written, find what the test finds. -/
theorem test_test_checks : (let s := { two with pregs := mset two.pregs (pkey .fn0 Reg.gsTgCfg) 0xC }
    let u := { two with gs := { two.gs with phys := mset two.gs.phys 128 { state := .spare, fill := some 0x10000 } } }
    bitf (s.own .fn0 Reg.gsTgCfg) 2 2 = 3 ∧ ((after (.test .fn0 128 0 1 2 9) s).phys 128).tgPass = true ∧
    (u.phys 128).fill = some (testFill (u.own .fn0 Reg.gsTgCfg)) ∧ ((after (.test .fn0 128 0 1 2 9) u).phys 128).tgPass = true) := by
  decide +kernel

/-- A test that only writes finds nothing. -/
theorem test_test_writes : (let s := { two with pregs := mset two.pregs (pkey .fn0 Reg.gsTgCfg) 4 }
    bitf (s.own .fn0 Reg.gsTgCfg) 2 2 = 1 ∧
    (let t := after (.test .fn0 128 3 1 2 9) s; (t.phys 128).tgPass = true ∧ (t.phys 128).state = .spare)) := by decide +kernel

theorem test_retireCh : ((after (.retire .fn0 129) two).phys 129).state = .failed := by decide +kernel

/-- AUTO_REPAIR is on. -/
def auto : State := { two with st := { two.st with policy := 0x99 } }

theorem test_margin : auto.roleUp 3 = true ∧ auto.autoRepair = true ∧
    (after (.marginCheck 1 .low) auto).gs.copies.map (fun c => (c.lch, c.op, c.pch)) = [(1, 1, 128)] ∧
    (let t := after (.marginCheck 1 .unreadable) auto; mget t.gs.lmap 1 = some 128 ∧ t.acting 1 = false) := by decide +kernel

/-- A REPLACE, FOLD or UNFOLD of channel 1 at work. -/
def acting1 (op : Nat) : State := { two with gs := { two.gs with copies := [{ lch := 1, op := op, pch := 128 }], folded := if op = 3 then [1] else [] } }

theorem test_switch_replace : (acting1 1).gs.copies.find? (fun c => c.lch == 1) = some { lch := 1, op := 1, pch := 128 } ∧ (acting1 1).roleUp 3 = true ∧
    (let t := after (.channelSwitch 1 (some {})) (acting1 1)
     mget t.gs.lmap 1 = some 128 ∧ (t.phys 128).state = .active ∧ (t.phys 1).state = .spare ∧ t.gs.copies = []) ∧
    ((after (.channelSwitch 1 none) (acting1 1)).phys 1).state = .failed := by decide +kernel

theorem test_switch_fold : (acting1 2).ch.ways = [] ∧
    (let t := after (.channelSwitch 1 (some {})) (acting1 2); t.foldedCh 1 = true ∧ (t.phys 1).state = .offline) := by decide +kernel

theorem test_switch_unfold : (let t := after (.channelSwitch 1 (some {})) (acting1 3); t.foldedCh 1 = false ∧ mget t.gs.lmap 1 = some 128) := by decide +kernel

/-! ## Temperature -/

theorem test_retentionStep : (two.phys 0).state ≠ .absent ∧ (two.phys 0).eff < 4 ∧
    (let t := after (.retentionStep 0) two; (t.phys 0).step = true ∧ ((after (.retentionStepEnd 0) t).phys 0).step = false) := by decide +kernel

theorem test_sample : two.awake = true ∧ two.groupChs 0 = [0, 1, 2, 3, 4, 5, 6, 7] ∧ 1 ≤ Member.groups two.fuses.member ∧
    (let t := after (.thermalSample [300, 401, 200, 100] good) two; (t.phys 0).band = nextBand 0 401 ∧ (t.phys 0).temp = 401) := by decide +kernel

theorem test_sample_trip : (([460] : List Nat).any fun x => decide (460 ≤ x)) = true ∧
    (let t := after (.thermalSample [460] good) two; t.pw.tripped = true ∧ t.pw.lastReset = 2 ∧ t.pw.ready = false) := by decide +kernel

theorem test_trip : (let t := after .thermalTrip two; t.pw.tripped = true ∧ t.pw.lastReset = 2 ∧ t.pw.ready = false) := by decide +kernel

/-! ## Flash -/

/-- A drive on port 0 with one namespace. -/
def info : DriveInfo := { port := 0, nvmOk := true, qMax := 8, qFail := false, timeout := false, vwc := false, nss := [⟨1, 77, 1000, true⟩] }

theorem test_attach : two.autoAttach = true ∧ two.mayAttach 2 info = true ∧ two.attachCheck 2 info = none ∧
    (let t := after (.autoAttach 2 info) two; (t.drive 2).state = .ready ∧ (t.drive 2).nss = [0] ∧ (t.drive 2).queues = two.drvNq 2) := by decide +kernel

theorem test_attach_refused : two.attachCheck 2 { info with nvmOk := false } = some Refuse.noNvm ∧
    (let t := after (.autoAttach 2 { info with nvmOk := false }) two; (t.drive 2).state = .refused ∧ (t.drive 2).reason = Refuse.noNvm) := by decide +kernel

/-- A Read of drive 2 with tag 6. -/
def cmd6 : NvCmd := { tag := 6, drive := 2, kind := 0, ns := 4, lba := 16, blocks := 1, rows := [], own := .window 0 }

/-- It waits, or is issued, with its drive in a state. -/
def nvme (c : NvCmd) (x : DriveState) : State :=
  { two with fl := { two.fl with drives := [(2, { state := x, nss := [4], queues := 1, used := 3 })],
                                 nss := [(4, { drive := 2, nguid := 77, nsid := 1, blocks := 1000, valid := true })], cmds := [c] } }

theorem test_slotGrant : (let s := nvme cmd6 .ready
    s.fl.cmds.find? (fun c => c.drive == 2 && !c.issued) = some cmd6 ∧ (s.drive 2).state = .ready ∧ s.slotFree 2 = true ∧ s.landingFree cmd6 = true ∧
    (let t := after (.nvmeSlotGrant 2) s; (t.drive 2).used = 4 ∧ t.out = [.flash 2 6 0 4 16 1 1 (two.prpList cmd6)])) ∧
    (let w : NvCmd := { cmd6 with kind := 1, own := .desc 0, data := [(0, none)] }
     (nvme w .ready).slotFree 2 = true ∧
     (after (.nvmeSlotGrant 2) (nvme w .ready)).out = [.blockWrite 2 6 4 16 [(0, none)], .flash 2 6 1 4 16 1 1 (two.prpList cmd6)]) := by decide +kernel

theorem test_nvmeDone : (let s := nvme { cmd6 with issued := true } .ready
    (s.nvCmd 2 6).isSome = true ∧ (let t := after (.nvmeCompletion 2 6 .success []) s; t.fl.cmds = [] ∧ (t.drive 2).used = 2)) := by decide +kernel

theorem test_nvmeTimeout : (after (.nvmeCmdTimeout 2 6) (nvme { cmd6 with issued := true } .ready)).out.contains (.flash 2 6 3 4 16 1 0 []) = true := by
  decide +kernel

theorem test_abortTimeout : (let s := nvme { cmd6 with issued := true, aborting := true } .ready
    (s.nvCmd 2 6).map (·.aborting) = some true ∧ (s.drive 2).state = .ready ∧
    (let t := after (.abortTimeout 2 6) s; (t.drive 2).state = .resetting ∧ (t.drive 2).used = 3 ∧ t.fl.cmds.map (·.aborting) = [true])) := by
  decide +kernel

theorem test_removal : (let t := after (.driveRemoval 2) (nvme cmd6 .ready); (t.drive 2).state = .down ∧ t.fl.cmds = []) := by decide +kernel

theorem test_controllerReset : two.roleUp 4 = true ∧
    (let t := after (.controllerResetComplete 2 true) (nvme { cmd6 with issued := true, aborting := true } .resetting)
     (t.drive 2).state = .ready ∧ (t.drive 2).used = 0 ∧ t.fl.cmds = [] ∧ t.out.contains (.admin 2 (.createSq 1 0)) = true) := by decide +kernel

/-! ## Placement -/

/-- Splitting is on, from one pair on. -/
def splits : State := { two with regs := [(Reg.poolCtl, 0x100003C01)] }

theorem test_splitLog : bitb (splits.cfg Reg.poolCtl) 0 = true ∧ splits.splitLog 128 1 3 = 1 ∧ splits.splitLog 128 1 1000 = 7 ∧ splits.splitLog 128 100 1000 = 0 ∧
    ({ two with regs := [(Reg.poolCtl, 0x100003C00)] } : State).splitLog 128 1 1000 = 0 := by decide +kernel

/-- A gather of three bags over four slices, whole and split in two. -/
theorem test_tiles : (let d := desc [(0, 1, 1), (36, 4, 3)]
    let p : Pooled := { mem := { id := 0 } }
    (d.opc = 1 ∧ d.tile = 0 ∧ p.rot = 0 ∧ 0 < bptOf (p.mem.dim d) ∧ d.bags * 2 ≤ 6) ∧
    (p.tiles d 4).map (fun t => (t.pos, t.lo, t.hi)) = [(1, 0, 1), (2, 1, 2), (3, 2, 3)] ∧
    (({ p with log2k := 1 } : Pooled).tiles d 6).map (fun t => (t.pos, t.lo, t.part)) = [(0, 0, 0), (1, 0, 1), (2, 1, 0), (3, 1, 1), (4, 2, 0), (5, 2, 1)]) := by
  decide +kernel

/-! ## Reliability and events -/

/-- The dirty row's master record fails (R411). -/
theorem test_recovery_twin : dirty5.rowPoisoned 3 1 5 = false ∧ dirty5.inStore (keyOf 3 5) 1 = true ∧ (dirty5.twinOf (keyOf 3 5) 1).isSome = true ∧
    (let t := after (.rowRecovery 3 1 5 true false { data := [] }) dirty5
     t.rl.poison = [] ∧ t.masterBytes tab (keyOf 3 5) 1 = some ones) := by decide +kernel

/-- A clean pinned row of a table without backing. -/
def nobk : State := let s := tabled { tab with backTier := 0, upd := false } two; { s with tb := { s.tb with extents := [pin5] } }

theorem test_recovery_poison : nobk.inStore (keyOf 3 5) 1 = true ∧ nobk.twinOf (keyOf 3 5) 1 = none ∧ nobk.isDirty (keyOf 3 5) 1 = false ∧
    nobk.rl.poison.length < poisonCap ∧ (after (.rowRecovery 3 1 5 true false { data := [] }) nobk).rl.poison = [(3, 1, 5)] := by decide +kernel

/-- Slice position 9 is retired, and so many spare slices are used. -/
def retired9 (used : Nat) : State := { two with rl := { two.rl with retiring := [9], sliceUsed := used } }

theorem test_sliceSpared : (retired9 0).rl.retiring.contains 9 = true ∧ (retired9 0).rl.lostPos.contains 9 = false ∧
    Member.slices (retired9 0).fuses.member + (retired9 0).rl.sliceUsed < Member.phys (retired9 0).fuses.member ∧
    (let t := after (.sliceSpared 9) (retired9 0); mget t.rl.sliceMap 9 = some 128 ∧ t.rl.sliceUsed = 1) := by decide +kernel

theorem test_handover : two.awake = true ∧ two.pw.ready = true ∧ two.rl.standby = true ∧ two.fe.descs = [] ∧
    (let t := after (.qxHandover 100 ⟨true, []⟩ good) two; t.rl.engine = true ∧ t.rl.standby = true) := by decide +kernel

theorem test_inboundError : two.up.inb = [] ∧
    (after (.inboundFabricError 0 (.contrib msg5)) two).up.inb.map (fun b => (b.sender, b.batch, b.bad)) = [(9, 4, true)] := by decide +kernel

/-- Row 5 of table 3 is poisoned, and CRH_POISON_KEY names it. -/
def poisoned5 : State :=
  let s := tabled tab two
  { s with rl := { s.rl with poison := [(3, 1, 5)] }, pregs := mset s.pregs (pkey .fn0 Reg.poisonKey) key5 }

theorem test_query : poisoned5.starts .fn0 Reg.poisonCmd 31 1 false none = true ∧
    (let t := after (.query .fn0 1) poisoned5; bitb (regGet t .fn0 Reg.poisonCmd) 40 = true ∧ bitb (regGet t .fn0 Reg.poisonCmd) 31 = false) := by
  decide +kernel

theorem test_poisonClear : poisoned5.starts .fn0 Reg.poisonCmd 31 1 true none = true ∧ poisoned5.table (keyTbl (poisoned5.own .fn0 Reg.poisonKey)) = some tab ∧
    tab.backTier ≠ 0 ∧ poisoned5.rowPoisoned 3 1 5 = true ∧ (after (.poisonClear .fn0 1) poisoned5).rl.poison = [] := by decide +kernel

/-- Events go to ring 8; one waits. -/
def evented : State :=
  { two with tel := { two.tel with evtRing := BitVec.ofNat 64 (8 + 2 ^ 17), evq := [{ code := 0xB04, data := List.replicate 24 0 }] } }

theorem test_eventWrite : evented.evtOpen = true ∧
    (let t := after .eventWrite evented; t.tel.evq = [] ∧ (t.ring 8).idx = 1 ∧ t.out.length = 1) := by decide +kernel

/-- Events are on, with room. -/
theorem test_counters : (let x : Counter := { count := 2 ^ 47 - 1 }
    let s := { evented with tel := { evented.tel with evq := [], counters := [(Ctr.scrubPasses, x)] } }
    (s.tel.countOf Ctr.scrubPasses).half = false ∧ bitb s.tel.evtRing 17 = true ∧ s.tel.evq.length + 32 ≤ 256 ∧
    ((s.tell [.count Ctr.scrubPasses 1]).tel.countOf Ctr.scrubPasses).half = true) := by decide +kernel

theorem test_counters_sat : (let x : Counter := { count := 2 ^ 48 - 1, half := true }
    let s := { evented with tel := { evented.tel with evq := [], counters := [(Ctr.scrubPasses, x)] } }
    (s.tel.countOf Ctr.scrubPasses).sat = false ∧ 2 ^ 48 - 1 < (s.tel.countOf Ctr.scrubPasses).count + 1 ∧
    (let t := (s.tell [.count Ctr.scrubPasses 1]).tel.countOf Ctr.scrubPasses; t.sat = true ∧ t.half = true ∧ t.count = 2 ^ 48 - 1)) := by decide +kernel

theorem test_counters_quiet : (let s := two.tell [.count Ctr.scrubPasses 5]
    (two.tel.countOf Ctr.scrubPasses).count + 5 < 2 ^ 47 ∧ (s.tel.countOf Ctr.scrubPasses).count = 5 ∧ s.tel.evq = []) := by decide +kernel

/-! ## Registers -/

theorem test_plainWrite : (regAt (Reg.hostArb / 8 * 8)).map (·.kind) = some RegKind.cfg ∧ cmdFormAt Reg.hostArb = none ∧ two.hits .fn0 Reg.hostArb 1 Reg.hostArb 8 ∧
    regGet (after (.registerWrite .fn0 Reg.hostArb 8 0xFFFFFFFFFFFFFFFF) two) .fn0 Reg.hostArb = 0x3FFFF := by unfold State.hits; decide +kernel

/-- A command register's fields without GO (R430). -/
theorem test_commandWrite : (cmdFormAt Reg.gsCmd).map (fun f => (bitb (regGet two .fn0 f.off) f.go, covers Reg.gsCmd 8 f.go && carried Reg.gsCmd 8 0x123 f.go)) =
      some (false, false) ∧ two.hits .fn0 Reg.gsCmd 1 Reg.gsCmd 8 ∧ regGet (after (.registerWrite .fn0 Reg.gsCmd 8 0x123) two) .fn0 Reg.gsCmd = 0x123 := by
  unfold State.hits; decide +kernel

theorem test_logIdx : two.hits .fn0 Reg.logIdx 1 (Reg.logIdx + 4) 4 ∧ (after (.registerWrite .fn0 (Reg.logIdx + 4) 4 7) two).tel.logCons = 7 := by
  unfold State.hits; decide +kernel

theorem test_sortArea : two.hits .fn0 Reg.sortArea 1 Reg.sortArea 8 ∧
    regGet (after (.registerWrite .fn0 Reg.sortArea 8 20) two) .fn0 Reg.sortArea = 20 ∧
    regGet (after (.registerWrite .fn0 Reg.sortArea 8 1) two) .fn0 Reg.sortArea = two.cfg Reg.sortArea := by unfold State.hits; decide +kernel

theorem test_eyeletBase : two.hits .fn0 Reg.eyeletBase 1 Reg.eyeletBase 8 ∧
    regGet (after (.eyeletBaseWrite .fn0 Reg.eyeletBase 8 0x7001) two) .fn0 Reg.eyeletBase = 0x7001 := by unfold State.hits; decide +kernel

theorem test_authPolicy : two.roleUp 0 = true ∧ two.hits .fn0 Reg.authPolicy 2 Reg.authPolicy 8 ∧ two.auditFull = false ∧
    (let t := after (.authorityWrite .fn0 Reg.authPolicy 8 0x1A) two; t.st.policy = 0x1A ∧ t.st.flashPol = 0x1A) := by unfold State.hits; decide +kernel

theorem test_makerCtl : two.hits .fn0 Reg.makerCtl 3 Reg.makerCtl 8 ∧ (after (.authorityWrite .fn0 Reg.makerCtl 8 3) two).st.makerCtl = 3 := by
  unfold State.hits; decide +kernel

/-- R446: the lower half latches the upper one. -/
theorem test_latch : (let s := { two with tel := { two.tel with counters := [(Ctr.scrubPasses, { count := 2 ^ 32 * 3 + 9 })] } }
    let t := after (.counterLowRead .fn0 Ctr.scrubPasses) s
    let u := after (.counterLowRead .fn0 (Ctr.scrubPasses + 4)) t
    s.mayRead .fn0 = true ∧ Ctr.isCounter Ctr.scrubPasses = true ∧ Ctr.scrubPasses % 8 = 0 ∧ t.tel.latched .fn0 Ctr.scrubPasses = some 3 ∧
    u.out = [.regValue (Ctr.scrubPasses + 4) 3, .regValue Ctr.scrubPasses 9] ∧ u.tel.latched .fn0 Ctr.scrubPasses = none) := by decide +kernel

/-- Before READY (R431). -/
def early : State := { State.reset with pw := { State.reset.pw with cxlEnum := true, cxl := [(0, { up := true, width := 2, rate := 2, cache := true })] } }

theorem test_early : early.mayRead .fn0 = true ∧ early.fnUp .fn0 = true ∧ early.pw.ready = false ∧ Reg.hostArb / 0x10000 ≠ 0xE ∧ Reg.hostArb / 0x10000 ≠ 0xF ∧ Reg.hostArb / 8 * 8 ≠ Reg.resetCmd ∧
    early.gate .fn0 Reg.authPolicy 1 = .open' ∧
    (after (.registerWrite .fn0 Reg.hostArb 8 1) early).counter Ctr.regIgnored = 1 ∧ (after (.pause .fn0 3) early).counter Ctr.regIgnored = 1 ∧
    (after (.counterLowRead .fn0 Reg.hostArb) early).out = [.regValue Reg.hostArb 0x22468] := by decide +kernel

/-! ## Clocks and power -/

theorem test_pllFault : two.awake = true ∧ two.hasPll 7 = true ∧ two.pw.sp0 = none ∧ (after (.pllFault 7 good) two).pw.sp0 = some 7 := by decide +kernel

/-- The reference stops, and returns. -/
def noRef : State := after (.referenceFault true) two

theorem test_reference : two.pw.refGone = false ∧ noRef.pw.refGone = true ∧ noRef.pw.aonOsc = true ∧ noRef.awake = true ∧
    (let t := after (.referenceReturn 500) noRef; t.pw.refOk = true ∧ t.pw.refGone = false) ∧
    (after (.refLossTimeout good) noRef).pw.lastReset = 3 := by decide +kernel

theorem test_pllAon : two.pw.refGone = false ∧ two.pw.aonBad = false ∧ (after (.pllAonFault true 10 good) two).pw.step = 9 ∧
    (let t := after (.pllAonFault false 10 good) two; t.pw.lastReset = 4 ∧ t.pw.step = 2) := by decide +kernel

/-- The block in a power state. -/
def inState (x : PState) : State := { two with pw := { two.pw with pstate := x } }

theorem test_pmh : two.awake = true ∧ two.pw.ready = true ∧ two.exchanging = false ∧ two.pw.emerg = false ∧ two.pw.held = [] ∧ 4 ≤ two.maxPstate ∧ two.inFlight = false ∧
    (after (.pmhRaise 4 good) (inState .p2)).pw.pstate = .p0 ∧ (after (.pmhLower 2) two).pw.pstate = .p2 ∧
    (after .pmhEnterStandby two).pw.pstate = .standby ∧ (after (.pmhLeaveStandby 3) (inState .standby)).pw.pstate = .p1 ∧
    (after (.reservedStateRequest 6) two).out = [.pmhAck 4] := by decide +kernel

theorem test_off : ((List.range (Member.fabPorts two.fuses.member)).all fun n => (two.fabPort n).status != .draining && !(two.fabBusy n)) = true ∧
    (let t := after (.pmhOff []) two; t.pw.byOff = true ∧ t.pw.ready = false ∧ t.out.contains (.pmhAck 0) = true) := by decide +kernel

theorem test_emerg : (let t := after .pmhEmergAssert two
    t.pw.emerg = true ∧ t.pw.held = [] ∧ (after .pmhEmergRelease t).pw.emerg = false) := by decide +kernel

theorem test_stepGnt : (let s := { two with pw := { two.pw with stepReq := true, gated := [0, 1] } }
    (let t := after .pmhStepGnt s; t.pw.gated = [1] ∧ t.pw.stepReq = true)) := by decide +kernel

/-- All groups run. -/
def ungated : State := { two with pw := { two.pw with gated := [] } }

theorem test_gate : ungated.passing = true ∧ bitf (ungated.cfg Reg.pwrCtl) 0 16 ≠ 0 ∧ ungated.groupWork 15 = false ∧
    15 < Member.groups ungated.fuses.member ∧ (after (.sliceGroupGate 15) ungated).pw.gated = [15] := by decide +kernel

theorem test_powerGood : (State.reset.pw.rails = false ∧ State.reset.fuses.absent = false ∧ good.cores = true ∧ good.gsOk = true ∧ good.portsOk = true ∧
    good.aonLock = true ∧ good.grants = true ∧ State.reset.pw.refGone = false ∧ (romRecord State.reset.st.bcr).2.1 = false ∧ State.reset.fuses.accepts State.reset.st.imgA good.sigA = true) ∧
    (let t := after (.powerGood good) State.reset; t.pw.ready = true ∧ t.pw.step = 9 ∧ t.pw.pstate = .p0 ∧ t.cxlUp 0 = true) := by decide +kernel

/-- Start-up waits for PLL_AON in step 2, and for the grants of the slice groups in step 8; the last of them makes the block READY. -/
theorem test_powerGood_waits : (let t := after (.powerGood { good with aonLock := false }) State.reset
      t.pw.step = 2 ∧ t.pw.selvedge = true ∧ t.pw.ready = false) ∧ Member.gated0 State.reset.fuses.member ≠ [] ∧
    (let t := after (.powerGood { good with grants := false }) State.reset
     t.pw.step = 8 ∧ t.pw.stepReq = true ∧ t.pw.ready = false ∧ t.out.contains .stepReq = true ∧
     (let u := after .pmhStepGnt { t with pw := { t.pw with gated := [15] } }; u.pw.ready = true ∧ u.pw.pstate = .p0 ∧ u.pw.gated = [])) := by
  decide +kernel

theorem test_powerGood_fails : (let su := { good with sigA := false, sigB := false, sigR := false }
    let s := State.reset
    s.fuses.accepts s.st.imgA su.sigA = false ∧ s.fuses.accepts s.st.imgB su.sigB = false ∧ s.fuses.accepts s.st.imgR su.sigR = false ∧
    (let t := after (.powerGood su) s; t.pw.ready = false ∧ t.pw.step = 3 ∧ t.pw.fail = 1)) := by decide +kernel

theorem test_blockReset : two.gate .fn0 Reg.resetCmd 2 = .open' ∧ two.auditFull = false ∧
    (let t := after (.blockResetCmd .fn0 good) two; t.pw.lastReset = 1 ∧ t.fe.rings = [] ∧ t.st.sessions = [] ∧ t.pw.ready = true) := by decide +kernel

/-! ## Steta -/

theorem test_watchdog : two.coreRuns 4 = true ∧ two.recentRestarts 4 < 2 ∧ mpuLets 4 (two.roleOf 4) (.own 3) = false ∧
    (let t := after (.coreWatchdogExpiry 4 0x1234 true good) two
     t.coreState 4 = .run ∧ t.st.crashes = [(4, 0x1234, Cause.watchdog)]) := by decide +kernel

theorem test_voltage : (let s := inState .p0
    s.roleUp 1 = true ∧ (after (.voltageSample [1, 2]) s).st.lowRail = [(0, 1), (1, 1)]) := by decide +kernel

theorem test_plog : two.roleUp 5 = true ∧ (after .plogProgram two).tel.plogWait = [] := by decide +kernel

/-- A trial image on slot B under its watch. -/
def watched : State :=
  { two with st := { two.st with watch := true, trial := true, slotB := true,
                                 bcr := some { gen := 2, active := true, trial := true, tries := 0, prev := false } } }

theorem test_watch : watched.awake = true ∧ watched.st.watch = true ∧ (after (.activationHealthWatch true) watched).st.slotB = true ∧
    (let t := after (.activationHealthWatch false) watched; t.st.slotB = false ∧ t.st.trial = false ∧ t.st.watch = false) := by decide +kernel

/-- A commit is deferred; `e` says whether the emergency lasts. -/
def deferred (e : Bool) : State :=
  let s := { two with st := { two.st with trial := true, slotB := true, imgB := { svn := 5 }, deferred := some { kind := 1, since := 0 },
                                          bcr := some { gen := 2, active := true, trial := true, tries := 0, prev := false } } }
  { s with pw := { s.pw with emerg := e } }

theorem test_deferEnd : (deferred false).emergency = false ∧ (deferred false).auditFull = false ∧ (deferred true).emergency = true ∧
    (let t := after (.activationDeferEnd true) (deferred false); t.st.deferred = none ∧ t.fuses.svn = 5) ∧
    (let t := after (.activationDeferEnd true) (deferred true); t.st.deferred = none ∧ t.fuses.svn = 0) := by decide +kernel

theorem test_sessions : pget (after (.sessionTimeout .fn0) two).st.sessions .fn0 = none ∧
    (after (.lockoutEnd .fn1) { two with st := { two.st with lockout := [.fn1] } }).st.lockout = [] := by decide +kernel

/-- An empty request. -/
def req0 : Feed := { data := [] }

/-- A command in its recovery form of least rights 1. -/
def rowR (opc core : Nat) : MbxRow := { opc := opc, least := 1, core := core, inRec := true, audited := false }

theorem test_mails_read : two.mails .fn0 (rowR 0x01 1) req0 = true ∧ two.mails .fn0 (rowR 0x02 1) req0 = true ∧ two.mails .fn0 (rowR 0x03 5) req0 = true ∧
    two.mails .fn0 (rowR 0x04 5) req0 = true ∧ two.mails .fn0 (rowR 0x05 0) req0 = true ∧ two.mails .fn0 (rowR 0x06 0) req0 = true ∧
    two.mails .fn0 { rowR 0x51 1 with least := 3 } req0 = true ∧ two.heard .fn0 (rowR 0x06 0) req0 = two :=
  ⟨by decide +kernel, by decide +kernel, by decide +kernel, by decide +kernel, by decide +kernel, by decide +kernel, by decide +kernel, rfl⟩

/-- Two audit records have been made. -/
def audited : State := after (.authorityWrite .fn0 Reg.authPolicy 8 0x1A) (after (.authorityWrite .fn0 Reg.authPolicy 8 0x98) two)

theorem test_auditHead : audited.mails .fn0 (rowR 0x06 0) req0 = true ∧ audited.st.audit.length = 2 ∧ audited.st.audit.map (·.aseq) = [1, 0] := by decide +kernel

theorem test_coreRestart : two.mails .fn0 { rowR 0x08 1 with inRec := false, audited := true } req0 = true ∧ two.coreRuns 4 = true ∧ two.recentRestarts 4 < 2 ∧
    (after (.coreRestart .fn0 req0 4 true good) two).coreState 4 = .run := by decide +kernel

/-- Function 1 has a nonce. -/
def challenged : State := { two with st := { two.st with asked := [.fn1], opKeys := [(2, [1])] } }

theorem test_session : two.mails .fn1 (mbxAuth 0x10 0 true) req0 = true ∧ two.st.lockout.contains .fn1 = false ∧
    challenged.mails .fn1 (mbxAuth 0x11 0 true) req0 = true ∧ challenged.st.asked.contains .fn1 = true ∧ challenged.keyHeld .operator 2 = true ∧
    ((pget (after (.authResponse .fn1 req0 .operator 2 true) challenged).st.sessions .fn1).map fun e => (e.role, e.key)) = some (Role.operator, 2) ∧
    pget (after (.authResponse .fn1 req0 .operator 2 false) challenged).st.sessions .fn1 = none ∧
    two.mails .fn0 (mbxAuth 0x12 1 true) req0 = true ∧ (pget two.st.sessions .fn0).isSome = true ∧
    pget (after (.authEnd .fn0 req0) two).st.sessions .fn0 = none := by decide +kernel

/-! ## Images and drives -/

/-- The head of an image: MAGIC, format 1, SVN, length 12,288. -/
def head (svn : Nat) : Bytes := leBytes 4 0x475A4D4F ++ leBytes 2 1 ++ leBytes 2 0 ++ leBytes 1 svn ++ leBytes 7 0 ++ leBytes 4 12288

theorem test_stage : two.mails .fn0 (mbxAuth 0x20 2 true) req0 = true ∧ two.st.watch = false ∧ two.st.deferred = none ∧ (head 3).length ≤ 4032 ∧
    mget (after (.imgStage .fn0 req0 0 (head 3) false) two).st.staging 0 = some (head 3) := by decide +kernel

/-- The anti-rollback counter stands at 4. -/
def svn4 : State := { two with fuses := { two.fuses with svn := 4 } }

/-- A staged image on slot B, or a trial image. -/
def staged : State := { two with st := { two.st with staged := true, imgB := { svn := 5 } } }
def trial : State := { watched with st := { watched.st with watch := false, imgB := { svn := 5 } } }

theorem test_activate : staged.mails .fn0 (mbxAuth 0x21 2 true) req0 = true ∧ staged.st.staged = true ∧ staged.emergency = false ∧
    staged.fuses.accepts (staged.st.slot staged.st.inactive) true = true ∧
    (let t := after (.imgActivate .fn0 req0 true) staged; t.st.slotB = true ∧ t.st.trial = true ∧ t.st.watch = true) := by decide +kernel

theorem test_activate_deferred : (let s := { staged with pw := { staged.pw with emerg := true } }
    s.emergency = true ∧ s.mails .fn0 (mbxAuth 0x21 2 true) req0 = true ∧
    (let t := after (.imgActivate .fn0 req0 true) s; t.st.deferred.map (·.kind) = some 0 ∧ t.st.slotB = false)) := by decide +kernel

theorem test_commitImage : trial.mails .fn0 (mbxAuth 0x22 2 false) req0 = true ∧ trial.st.trial = true ∧ trial.emergency = false ∧
    (let t := after (.imgCommit .fn0 req0) trial; t.st.trial = false ∧ t.fuses.svn = 5) := by decide +kernel

theorem test_revert : trial.mails .fn0 (mbxAuth 0x23 2 false) req0 = true ∧ (after (.imgRevert .fn0 req0) trial).st.slotB = false := by decide +kernel

/-- The rows of Table 114 for drives. -/
def rowD (opc : Nat) : MbxRow := { opc := opc, least := 2, core := 4, inRec := false, audited := true }

theorem test_driveAttach : two.mails .fn0 (rowD 0x30) req0 = true ∧ ((after (.driveAttach .fn0 req0 2 info) two).drive 2).state = .ready ∧
    (nvme cmd6 .ready).mails .fn0 (rowD 0x31) req0 = true ∧ Drive.attached ((nvme cmd6 .ready).drive 2) = true ∧ (nvme cmd6 .ready).onDriveVersions 2 = [] ∧
    (after (.driveDetach .fn0 req0 2 []) (nvme cmd6 .ready)).drive 2 = {} := by decide +kernel

theorem test_keys : two.mails .fn0 (mbxAuth 0x38 0 true) req0 = true ∧ two.st.tokenCnt = none ∧
    two.keyHeld .maker two.st.image.keyIdx = true ∧
    (after (.enrolInstaller .fn0 req0 0 [1] true [7] 3 true) two).st.instKey = some [7] ∧
    two.mails .fn0 (mbxAuth 0x39 2 false) req0 = true ∧ mget (after (.enrolOperator .fn0 req0 3 [8]) two).st.opKeys 3 = some [8] ∧
    challenged.mails .fn0 (mbxAuth 0x3A 2 false) req0 = true ∧ (mget challenged.st.opKeys 2).isSome = true ∧
    mget (after (.revokeOperator .fn0 req0 2) challenged).st.opKeys 2 = none := by decide +kernel

theorem test_limits : two.mails .fn0 (mbxAuth 0x3B 2 false) req0 = true ∧ (after (.setLimit .fn0 req0 0x7F) two).st.policy = 0xFF := by decide +kernel

/-- DEBUG_ALLOWED is 2. -/
def dbgOk : State := { two with st := { two.st with policy := 0xC0 } }

theorem test_debug : dbgOk.mails .fn0 (mbxAuth 0x40 2 false) req0 = true ∧ min (dbgOk.rights .fn0 - 1) (debugAllowed dbgOk.st.policy) = 2 ∧
    (let t := after (.debugOpen .fn0 req0) dbgOk
     t.st.debug = 2 ∧ t.mails .fn0 (mbxAuth 0x41 1 true) req0 = true ∧ (after (.debugClose .fn0 req0) t).st.debug = 0) := by decide +kernel

theorem test_fuse : two.mails .fn0 (mbxAuth 0x50 3 false) req0 = true ∧ (after (.fuseProgram .fn0 req0 2) two).fuses.revoked = 2 := by decide +kernel

/-! ## I3C -/

/-- The target has an address, and a response waits. -/
def addressed : State :=
  { two with i3 := { two.i3 with dyn := some 9 }, st := { two.st with replies := [(.i3c, { result := 0, body := .nothing, data := [5] })] } }

theorem test_i3c : two.i3cAnswers = true ∧ two.i3cHears false = true ∧ two.i3.dyn = none ∧ (after (.entdaa 9) two).i3.dyn = some 9 ∧ (after (.setdasa 9) two).i3.dyn = some 9 ∧
    addressed.i3cHears true = true ∧ (after (.rstdaa) addressed).i3.dyn = none ∧ (after (.enec ⟨false, 3⟩) two).i3.ibi = 3 ∧
    (after (.enec ⟨true, 3⟩) addressed).i3.ibi = 3 ∧ (after (.enec ⟨true, 3⟩) two).out = [.i3cNak] ∧ (after (.disec ⟨false, 1⟩) { two with i3 := { two.i3 with ibi := 3 } }).i3.ibi = 2 ∧ (after .getmwl addressed).out = [.i3c [1, 0]] ∧
    (after (.setmrl ⟨false, 300⟩) two).i3.mrl = 300 := by decide +kernel

theorem test_i3cRead : (pget addressed.st.replies .i3c).isSome = true ∧ (after .i3cPrivateRead addressed).out.length = 1 := by decide +kernel

/-! ## Worked examples of the spec -/

/-- Bytes of FP32 words. -/
def words (l : List F32) : Bytes := l.flatMap fun x => leBytes 4 x.toNat

/-- Chapter 7, one bag: rows 17, 400 and 905 of table 0x31, lanes 0 and 1. -/
def grd (row : Nat) (a b : F32) : Staged :=
  { key := keyOf 0x31 row, ver := 1, grade := .fp32, data := words ([a, b] ++ List.replicate 6 0) }

/-- The gather of keys 905, 17, 400, 400 with POOL MEAN, inline. -/
def grdDesc (ties : Bool) : Desc :=
  { desc [(0, 1, 1), (1, 1, 4), (3, 1, 0x10), (8, 2, 0x31), (32, 4, 4), (36, 4, 1), (40, 2, 0x1000), (48, 4, 905), (52, 4, 17), (56, 4, 400), (60, 4, 400)]
    with stage := .pooling, resv := 5, ties := ties, inl := List.replicate 32 0 }

/-- Its lists. -/
def grdMem : Member' :=
  { id := 0, snap := [(0x31, { tab with grade := .fp32 })], count := 4,
    keys := [some (keyOf 0x31 905), some (keyOf 0x31 17), some (keyOf 0x31 400), some (keyOf 0x31 400)], bags := [0, 0, 0, 0],
    uniq := [keyOf 0x31 17, keyOf 0x31 400, keyOf 0x31 905], uver := [1, 1, 1],
    pairs := [⟨0, 0, 1⟩, ⟨1, 0, 2⟩, ⟨2, 0, 1⟩], inv := [some 2, some 0, some 1, some 1] }

/-- Pooled over one slice position, or split over two. -/
def grdRun (ties : Bool) (log2k : Nat) : State :=
  let w : PWin :=
    { wid := 0, members := [{ mem := grdMem, log2k := log2k }], slices := 128, placed := true, granted := true, plan := [[]], round := 1,
      staged := [grd 17 0x4B800000 0x40400000, grd 400 0x3F000000 0xBFA00000, grd 905 0x3F800000 0x3E800000] }
  let s := holding (grdDesc ties) two
  let s1 := { s with sp := { s.sp with pwins := [w], nextWid := 1 }, pw := { s.pw with gated := [] } }
  if log2k = 0 then after (.tileDrain 0 0 127 0 ⟨none, {}⟩) s1 else after (.tileDrain 0 0 1 0 ⟨none, {}⟩) (after (.tileDrain 0 0 0 0 ⟨none, {}⟩) s1)

/-- Lanes 0 and 1 of the inline result, DONE and DETAIL. -/
def grdGives (s : State) : List (Nat × Nat × Nat × Nat) := s.fe.descs.map fun d => (field d.inl 0 4, field d.inl 4 4, d.done, d.detail)

/-- Ties away: 4,194,305 and 0.1875. -/
theorem test_example7_away : grdGives (grdRun false 0) = [(0x4A800002, 0x3E400000, 32, 3)] := by decide +kernel

/-- Ties to even: 4,194,304. -/
theorem test_example7_even : grdGives (grdRun true 0) = [(0x4A800000, 0x3E400000, 32, 3)] := by decide +kernel

/-- Split in two: 4,194,304.5. -/
theorem test_example7_split : grdGives (grdRun false 1) = [(0x4A800001, 0x3E400000, 32, 3)] := by decide +kernel

/-- Chapter 8: rows 5 and 9 of table 0x44 as INT8 copies. -/
theorem test_example8_encode :
    (encodeRow false .int8 [0xBF800000, 0xBF000000, 0, 0x3E99999A, 0x3F000000, 0x3F800000, 0x40000000, 0x403F0000]).1 =
      [0x00, 0x20, 0x40, 0x53, 0x60, 0x80, 0xC0, 0xFF] ++ leBytes 4 0x3C800000 ++ leBytes 4 0x40 ∧
    (encodeRow false .int8 [0x3E800000, 0xBF000000, 0x3E000000, 0x3EFE0000, 0, 0xBE800000, 0x3EC00000, 0x3DCCCCCD]).1 =
      [0xC0, 0x00, 0xA0, 0xFF, 0x80, 0x40, 0xE0, 0x9A] ++ leBytes 4 0x3B800000 ++ leBytes 4 0x80 := by decide +kernel

/-- The pooled sum of chapter 8, rescaled by an entry. -/
def mkt (e : F32) : List F32 := [0xBFE00000, 0xBFC00000, 0x3E000000, 0x3F8B8000, 0x3F800000, 0x3FE00000, 0x408C0000, 0x40C24000].map fun v => fmul false v e

/-- Entries of 16.0: INT8_CAL codes E4 E8 02 11 10 1C 46 61, and no element saturates. -/
theorem test_example8_calibrated : (outRow (outFmtOf 5) false false (mkt 0x41800000)).bytes.drop 16 = [0xE4, 0xE8, 0x02, 0x11, 0x10, 0x1C, 0x46, 0x61] ∧
    (outRow (outFmtOf 5) false false (mkt 0x41800000)).sat = 0 := by decide +kernel

/-- Entries of 32.0: class T is written wide, class S saturates two elements. -/
theorem test_example8_too_large : (outRow (outFmtOf 5) false false (mkt 0x42000000)).wide = true ∧
    (let r := outRow (outFmtOf 5) false true (mkt 0x42000000)
     r.sat = 2 ∧ r.bytes.drop 16 = [0xC8, 0xD0, 0x04, 0x23, 0x20, 0x38, 0x7F, 0x7F] ∧ field r.bytes 4 4 = 2) := by decide +kernel

/-- Entries of 0.01: every code is 0 and the bag meets the scale-range condition. -/
theorem test_example8_too_small : (let r := outRow (outFmtOf 5) false true (mkt 0x3C23D70A)
    r.under = 8 ∧ r.range = true ∧ field r.bytes 4 4 = 0xC ∧ r.bytes.drop 16 = List.replicate 8 0) ∧
    (outRow (outFmtOf 5) false false (mkt 0x3C23D70A)).wide = true := by decide +kernel

/-- Chapter 9: a row under ADAM. -/
def stn : Table := { tab with grade := .bf16, rule := .adam }

/-- The apply with its derived values, LRT being 2^-7. -/
def stnApply : Apply :=
  { app5 with lr := 0x3C800000, b1 := 0x3F600000, b2 := 0x3F7F0000, eps := 0x30800000, c1 := 0x3E000000, c2 := 0x3B800000, lrt := 0x3C000000 }

/-- Row 7,001 before: 1.5 and −6.0, and its gimp words zero. -/
def stnRow : Bytes := leBytes 2 0x3FC0 ++ leBytes 2 0xC0C0 ++ List.replicate 76 0

theorem test_example9 : (let r := stnApply.record stn stnRow ([0x3F400000, 0xBF000000] ++ List.replicate 6 0)
    r.length = 80 ∧ field r 0 2 = 0x3FBE ∧ field r 2 2 = 0xC0C0 ∧ field r 4 2 = 0 ∧ field r 16 4 = 0x3DC00000 ∧ field r 20 4 = 0xBD800000 ∧
    field r 48 4 = 0x3B100000 ∧ field r 52 4 = 0x3A800000) := by decide +kernel

/-- Chapter 9: LISTS sums of row 7,001 over two bags: (1.0, −0.875). -/
theorem test_example9_lists : (let k : Kept := { kept4 with uniq := [key5], uver := [1], pairs := [⟨0, 0, 2⟩, ⟨0, 1, 1⟩], nbag := [3, 2], bags := 2 }
    let grad := words ([0x3E800000, 0xBF000000] ++ List.replicate 6 0 ++ [0x3F000000, 0x3E000000] ++ List.replicate 6 0)
    (k.rowSum false (gradRow false 8 grad) 0).take 2 = [0x3F800000, 0xBF600000]) := by decide +kernel

/-- Chapter 17: a CE-64 whose spare slices are used and one slice of which is lost, with one spare channel. -/
def wth : State :=
  { live with fuses := { live.fuses with member := .ce64 }, gs := { live.gs with phys := [(64, { state := .spare })] },
              rl := { live.rl with sliceUsed := 2, lostPos := [63] } }

theorem test_example17 : wth.readReg .fn0 Reg.id = 0x010003107C401EC4 ∧ wth.readReg .fn0 Reg.cap0 = 0x00A4280842404240 ∧
    wth.readReg .fn0 Reg.cap1 = 0x8000180020010000 ∧ wth.readReg .fn0 Reg.capLive = 0x000000000388403F := by decide +kernel

/-! ## What else the statements assume -/

theorem test_stage_last : (imageOf two.fuses (mset two.st.staging 0 (head 3))).svn = 3 ∧
    (imageOf svn4.fuses (mset svn4.st.staging 0 (head 3))).svn < svn4.fuses.svn ∧ svn4.mails .fn0 (mbxAuth 0x20 2 true) req0 = true ∧
    two.fuses.svn ≤ 3 := by decide +kernel

theorem test_reset_meets : State.reset.pending = [] ∧ Memory.wf State.reset.gs.mem = true ∧ State.reset.pw.rails = false := by decide +kernel

/-- A step takes the front command (log entry 2 for the idle step). -/
theorem test_step : ((match step { two with pending := [.pause .fn0 5, .dumpOne .fn0 5] } with
    | .next t => (t.pending.length, (t.ring 5).state)
    | _ => (9, .error)) = (1, .paused)) ∧
    ((match step two with
    | .next t => t.tel.ts.toNat
    | _ => 9) = 1) := by decide +kernel

/-! ## Well-formedness: each check refuses a term -/

theorem test_wf_refuses : ([.enable .fn0 131072 entry, .enable .fn0 1 [], .disable .fn0 131072, .eyeletSnoop 4 0, .eyeletLineReturn 16384 (List.replicate 8 0),
    .eyeletLineReturn 0 [], .bar2DoorbellWrite 1048576 8 0, .bar2ReadBack 0 0, .descriptorReadReturn 0 [{ raw := [] }],
    .descriptorReadReturn 0 [{ raw := raw [], ext := [0] }], .hostLinkDown 4, .ctxCfgWrite .fn0 0x20009 8 0, .partCfgWrite .fn0 0x50020 2 0,
    .registerWrite .fn0 16777216 8 0, .mirrorReadReturn 0 [], .atsTranslationCompletion 0 [⟨0, 0, 11, true, true, 0⟩], .invalidateRequest 0 32 0 0 0,
    .invalidateDrained 0 32, .invalAbort 0 32, .xlateDriverRetry 131075 0 0 true, .retirement 65536 1 [], .retirement 0 0 [], .regrade 0 1 (2 ^ 48) { data := [] } [],
    .windowComplete 128 false, .bobbinGrant 0 0 0, .rowDelivery 0 0 65536 ⟨{ data := [] }, {}⟩ [], .tileDrain 0 0 0 65536 ⟨none, {}⟩, .remoteContribution 4 msg5, .mergeEvict 32,
    .bankAccess 132, .bankStuck 0 8 0, .rowRepair 0 0 32 0, .replace .fn0 132 true, .autoAttach 16 info, .counterLowRead .fn0 2, .pmhRaise 8 good,
    .coreWatchdogExpiry 7 0 true good, .imgStage .fn0 req0 4294967296 [0] false, .driveAttach .fn0 req0 16 info, .reservedStateRequest 8] : List Instr).all
      (fun c => !c.wf) = true := by decide +kernel

theorem test_wf_accepts : ([.enable .fn0 131071 entry, .eyeletSnoop 3 16383, .eyeletLineReturn 0 (List.replicate 8 0), .bar2DoorbellWrite 8 64 0,
    .descriptorReadReturn 0 [nopSlot 1], .registerWrite .fn0 0x10008 8 0, .registerWrite .fn0 0x1000C 4 0, .retirement 65535 65535 [], .bankAccess 131,
    .mergeEvict 31, .autoAttach 15 info, .counterLowRead .fn0 4, .agingSweep] : List Instr).all (fun c => c.wf) = true := by decide +kernel

/-! ## Witnesses of the clauses that need states of their own -/

/-- A picot's first slot, with a SEQ. -/
def picotSlot (n : Nat) : Slot := { raw := raw [(1, 1, 1), (4, 4, n)] }

theorem test_readReturn_picot : (let s := ringed 5 { act with pub := 3, turn := 2, nextSeq := 9 } two
    2 ≤ (s.ring 5).turn ∧ (s.ring 5).half = none ∧ 2 ≤ Ring.ahead (s.ring 5) ∧ slotPicot (picotSlot 9) = true ∧
    (s.ring 5).idx.toNat % Ring.size (s.ring 5) ≠ Ring.size (s.ring 5) - 1 ∧
    (let t := after (.descriptorReadReturn 5 [picotSlot 9, { raw := raw [(0, 1, 7)] }]) s
     (t.ring 5).idx = 2 ∧ (t.ring 5).nextSeq = 10 ∧ t.fe.descs.map (fun d => (d.raw.length, d.raw[64]?)) = [(128, some 7)])) := by decide +kernel

theorem test_readReturn_half : 2 ≤ Ring.ahead (turned.ring 5) ∧
    (let t := after (.descriptorReadReturn 5 [picotSlot 9]) turned
     (t.ring 5).turn = 1 ∧ (t.ring 5).half.isSome = true ∧ t.out = [.descRead 5 1 1 0x1040 (.host 0 0 false)]) := by decide +kernel

/-- 12 slots from index 60 of a ring of 64: four up to its end, then eight. -/
theorem test_readsOf : readsOf 64 12 60 12 = [(60, 4), (64, 8)] := by decide +kernel

/-- Every trace source is on. -/
def traced : State := { two with regs := [(Reg.traceEn, 0xFFFFFFFFFFFFFFFF)] }

theorem test_marker_on : bitb (traced.cfg Reg.traceEn) ((Sys2Proof.Config.logCode 2).toNat / 1024) = true := by
  have h : ∀ i, i < 64 → bitb (traced.cfg Reg.traceEn) i = true := by decide +kernel
  exact h _ (by have := (Sys2Proof.Config.logCode 2).isLt; omega)

/-- A row whose beats fail three times is read again. -/
theorem test_rowDelivery_again : (pooling got1).pwin 0 = some got1 ∧ got1.asked.map (·.again) = [0] ∧ (let t := after (.rowDelivery 0 key5 1 ⟨{ data := [] }, { crc := 3 }⟩ []) (pooling got1)
    (t.sp.pwins.flatMap (·.asked)).map (fun a => (a.key, a.again)) = [(key5, 1)] ∧ (t.tel.countOf Ctr.recReread).count = 1) := by decide +kernel

/-- Table 3 on namespace 4, with version 1 from block 16. -/
def tab2 : Table := { tab with backTier := 2, versions := [{ v1 with base := 16, nsid := 4 }] }

/-- Row 5 is dirty in its extent, with a twin. -/
def dirtyT2 : State :=
  let s := flashed (tabled tab2 two)
  { s with tb := { s.tb with extents := [{ pin5 with dirty := [5] }] }
           up := { s.up with twins := [{ key := key5, ver := 1, ch := 0, data := ones }] } }

theorem test_writeBack_tier2 : dirtyT2.version 3 1 = some (tab2, { v1 with base := 16, nsid := 4 }) ∧ dirtyT2.mayWrite (keyOf 3 5) 1 = true ∧
    dirtyT2.nsReady 4 = true ∧
    (let t := after (.wbAgeExpiry 3 1 5 {}) dirtyT2
     t.up.twins = [] ∧ (t.out.any fun o => match o with
       | .blockWrite d _ ns lba rows => d == 2 && ns == 4 && lba == 16 && (rows.find? fun r => r.1 == 5) == some (5, some (List.replicate 32 0)) &&
           (rows.find? fun r => r.1 == 6) == some (6, none)
       | _ => false) = true) := by decide +kernel

/-- FILL of row 7 of version 2 of a table on namespace 4. -/
def filling2 : State := flashed (tabled { tab2 with versions := [v1, { v2 with base := 16, nsid := 4 }] } (holding fill7 two))

theorem test_fill_tier2 : filling2.readyTable fill7 0x11 1 { tab2 with versions := [v1, { v2 with base := 16, nsid := 4 }] } { v2 with base := 16, nsid := 4 } ∧
    filling2.nsReady 4 = true ∧ filling2.inputsIn fill7 = true ∧
    (let t := after (.tableLoadFill 0 { data := List.replicate 64 1 }) filling2
     t.fl.cmds.map (fun c => (c.own, c.kind, c.ns, c.lba)) = [(.desc 0, 1, 4, 16)] ∧ t.fe.descs.map (fun d => (d.stage, d.done)) = [(.filling, 1)]) := by
  unfold State.readyTable State.readyDesc; decide +kernel

/-- Its Write has a slot; the drive's cache is volatile or not. -/
def wrote (vwc : Bool) : State :=
  let s := after (.nvmeSlotGrant 2) (after (.tableLoadFill 0 { data := List.replicate 64 1 }) filling2)
  { s with fl := { s.fl with drives := [(2, { state := .ready, nss := [4], queues := 1, used := 1, vwc := vwc })] } }

theorem test_fill_done : (wrote false).volatile 4 = false ∧
    (let t := after (.nvmeCompletion 2 1 .success []) (wrote false)
     t.fl.cmds = [] ∧ (t.drive 2).used = 0 ∧ t.fe.descs.map (·.stage) = [.finished]) := by decide +kernel

theorem test_fill_flush : (wrote true).volatile 4 = true ∧ ((wrote true).nvCmd 2 1).map (fun c => (c.own, c.issued, c.kind)) = some (.desc 0, true, 1) ∧
    (let t := after (.nvmeCompletion 2 1 .success []) (wrote true)
     t.fl.cmds.map (fun c => (c.kind, c.ns, c.issued)) = [(2, 4, false)] ∧ t.fe.descs.map (·.stage) = [.filling]) := by decide +kernel

/-- Row 5's master record is cached alone, dirty and twinned, as an apply has left it; its bytes are gone. -/
def cached5 : State :=
  let s := after (.tier2RmwRetry 3 1 5 { data := ones } false []) (applying [])
  { s with gs := { s.gs with mem := [] } }

theorem test_recovery_cached : cached5.placed 3 1 5 = none ∧ tab.upd = true ∧ (cached5.copiesOf (keyOf 3 5) 1).map (·.kind) = [.master] ∧
    cached5.inStore (keyOf 3 5) 1 = true ∧ (cached5.twinOf (keyOf 3 5) 1).map (·.data.length) = some tab.srcBytes ∧
    (let t := after (.rowRecovery 3 1 5 true false { data := [] }) cached5
     (cached5.copiesOf (keyOf 3 5) 1).map (t.readSlot · 32) = [(List.replicate 8 (leBytes 4 0x40000000)).flatten] ∧
     (t.tel.countOf Ctr.recCopy).count = 1) := by decide +kernel

theorem test_recovery_read : ((after (.rowRecovery 3 1 5 false false { data := [] }) cached5).tel.countOf Ctr.recCopy).count = 1 := by decide +kernel

/-- A clean pinned row is read from tier 1. -/
theorem test_recovery_backing : (let s0 := tabled tab two
    let s := { s0 with tb := { s0.tb with extents := [pin5] } }
    s.inStore (keyOf 3 5) 1 = true ∧ s.twinOf (keyOf 3 5) 1 = none ∧ s.isDirty (keyOf 3 5) 1 = false ∧
    (s.readBacking tab v1 key5 { data := ones } false).2.status = St.ok ∧
    (let t := after (.rowRecovery 3 1 5 true false { data := ones }) s
     t.masterBytes tab (keyOf 3 5) 1 = some ones ∧ (t.tel.countOf Ctr.recBacking).count = 1)) := by decide +kernel

/-- Every spare slice is used. -/
theorem test_sliceLost : (let s := retired9 4
    s.rl.retiring.contains 9 = true ∧ s.rl.lostPos.contains 9 = false ∧ Member.phys s.fuses.member ≤ Member.slices s.fuses.member + s.rl.sliceUsed ∧ s.blocksOn 9 = [] ∧
    (after (.sliceSpared 9) s).rl.lostPos = [9]) := by decide +kernel

/-- A descriptor past the front end and a held line. -/
theorem test_handover_lines : (let s := holding { gat with stage := .window } lined
    (∀ d ∈ s.fe.descs, d.stage ≠ .parked ∧ d.stage ≠ .headWait) ∧
    (let t := after (.qxHandover 100 ⟨true, []⟩ good) s
     t.fe.lines.map (fun e => (e.1, e.2.valid)) = [(0, false)] ∧ t.out = [.rdShared 0 0 0])) := by decide +kernel

/-! ## Points of the spec that are easy to misread -/

/-- R119: with GIMP_FMT BF16 the ADAGRAD_ROW scalar is a BF16 value in bytes 0 and 1, and bytes 2 and 3 are zero. -/
theorem test_gimp_bf16 : (let t := { tab with rule := .adagradRow, gimp32 := false }
    (t.gimpBack false [0x3F810000]).take 4 = [0x81, 0x3F, 0, 0]) := by decide +kernel

/-- R63: an index that overruns its ring in PAUSED_HOST leaves the state, and HOST_FROM becomes ERROR (log entry 94). -/
theorem test_overrun_paused : (let s := ringed 5 { act with state := .pausedHost, hostFrom := .active } two
    let t := after (.bar2DoorbellWrite 40 8 65) s
    (t.ring 5).state = .pausedHost ∧ (t.ring 5).hostFrom = .error) := by decide +kernel

/-- R252: binary64 holds 0.875 squared, so no rounding of it is open. -/
theorem test_pow_exact : dPow 0x3F600000 2 = 0x3FE8800000000000 := by decide +kernel

/-! ## Findings and failed checks -/

/-- R408 and R418: a staged word that fails on both reads is fetched again from its copy, and its slice is retired. -/
theorem test_rowDelivery_staging : (let t := after (.rowDelivery 0 key5 1 ⟨{ data := [] }, { store := 2 }⟩ []) (pooling got1)
    (t.sp.pwins.flatMap (·.asked)).map (fun a => (a.key, a.again)) = [(key5, 1)] ∧ (t.tel.countOf Ctr.recCopy).count = 1 ∧ t.rl.retiring = [ask1.pos]) := by decide +kernel

/-- R418: with SLICE_LIM 1 the first residue mismatch retires a slice, though the row block is computed again and drains. -/
theorem test_sliceLim : (let s := pooling staged1
    let t := after (.tileDrain 0 0 127 0 ⟨none, { lane := 1 }⟩) { s with pw := { s.pw with gated := [] }, regs := [(Reg.errCtl, 1)] }
    t.fe.descs.map (fun d => d.status) = [St.ok] ∧ t.rl.retiring = [127]) := by decide +kernel

/-- A hoop that fails its check twice is pooled again from its tile's first pair; the tile drains. -/
theorem test_hoopAgain : (let s := pooling staged1
    let t := after (.tileDrain 0 0 127 0 ⟨none, { store := 3 }⟩) { s with pw := { s.pw with gated := [] } }
    t.fe.descs.map (fun d => d.status) = [St.ok] ∧
    (s.letTiles.heldTile g1).isSome = false) := by decide +kernel

/-- Table 118: the scrubber repairs the row of a line whose error persists, counts one that a second read clears, and marks a table
whose directory entry fails in both copies. -/
theorem test_scrub_finds : (let s := tabled tab two
    mget (after (.scrub 0 [.line 1 2 803 true]) s).gs.rowMap (bankKey 0 1 2 * 512 + 100) = some 0 ∧
    (s.bankThere 0 1 2 = some 0 ∧ ((after (.scrub 0 [.line 1 2 803 false]) s).tel.countOf Ctr.recReread).count = 1) ∧
    (s.table 3).isSome = true ∧ ((after (.scrub 0 [.directory 3 true]) s).table 3).map (·.dirBad) = some true) := by decide +kernel

/-- Table 84: a channel that is copied by FOLD cannot be read; its copy goes on without it. -/
theorem test_margin_fold : (let s := acting1 2
    (s.gs.copies.map fun c => c.readable) = [true] ∧
    ((after (.marginCheck 1 .unreadable) s).gs.copies.map fun c => c.readable) = [false]) := by decide +kernel

/-- Table 84: the spare that a REPLACE copies to fails, and the next takes its place. -/
theorem test_spareFails : (let s := { acting1 1 with gs := { (acting1 1).gs with phys := mset (mset (acting1 1).gs.phys 128 { state := .copyIn }) 129 { state := .spare } } }
    let t := after (.marginCheck 1 .spareFailed) s
    (t.gs.copies.map fun c => c.pch) = [129] ∧ (t.phys 128).state = .failed ∧ (t.phys 129).state = .copyIn) := by decide +kernel

/-- R333: commands go to a drive's I/O queues in turn. -/
theorem test_queueTurn : (let s := nvme cmd6 .ready
    let t := { s with fl := { s.fl with drives := mset s.fl.drives 2 { (s.drive 2) with queues := 3, nextQ := 2 } } }
    (after (.nvmeSlotGrant 2) t).out = [.flash 2 6 0 4 16 1 3 (two.prpList cmd6)] ∧ ((after (.nvmeSlotGrant 2) t).drive 2).nextQ = 0) := by decide +kernel

/-- Table 118: a queued descriptor whose store entry fails in both engines ends with DATA_ERROR; another goes on. -/
theorem test_handover_lost : (let s := holding { gat with stage := .ready } two
    gat.id = 0 ∧ ((after (.qxHandover 100 ⟨true, [0]⟩ good) s).fe.descs.map fun d => (d.stage, d.status)) = [(.finished, St.dataError)] ∧
    ((after (.qxHandover 100 ⟨true, []⟩ good) s).fe.descs.map fun d => d.status) = [St.ok]) := by decide +kernel

/-- R389: where the newer boot record fails its digest, the older one governs. -/
theorem test_olderRecord : (let t : Steta := { bcr := some { gen := 2, active := true, trial := false, tries := 0, prev := false },
                                               bcrOld := some { gen := 1, active := false, trial := false, tries := 0, prev := true } }
    (romRecord (t.governing false)).2.1 = true ∧ (romRecord (t.governing true)).2.1 = false) := by decide

/-- R369: a group with a tile that has not drained is not quiet; one whose slices no tile uses is. -/
theorem test_groupWork : (let s := (pooling staged1).letTiles; s.groupWork 15 = true ∧ s.groupWork 3 = false) := by decide +kernel

/-- R435: the header of a CE-128's functions; CRH_ID repeats vendor, device and revision. -/
theorem test_pciHeader : State.reset.pciHeader = [0x1EC4, 0x7C80, 0x10, 0x120000, 0x1EC4, 0x7C80] ∧
    State.reset.viewId % 0x10000000000 = 0x1EC4 + 0x7C80 * 2 ^ 16 + 0x10 * 2 ^ 32 := by decide

/-! ## Further clauses -/

/-- No power exchange is open in a state with `two`'s power registers: the premise of every statement that asks for none. -/
theorem test_notExchanging (s : State) (h : s.pw = two.pw) : s.exchanging = false := by
  unfold State.exchanging; rw [h]; decide

/-- Sorter 0 has its window, of one gather of a key of table 3, given inline; it may be to be taken in again, or to have been. -/
def retaking (again done : Bool) : State :=
  let s := tabled tab (holding { g1 with stage := .window } two)
  { s with sp := { s.sp with sorters := [(0, { win0 with members := [{ id := 0, count := 1, snap := [(3, tab)] }], retake := again, restarted := done })], nextWid := 1 } }

theorem test_windowRetake : queued0.sp.sorters = [] ∧ win0.retake = false ∧ (retaking true true).sp.queue = [] ∧
    (∀ e ∈ (retaking true true).descsOf win0.members, (retaking true true).inputsIn e.1 = true) ∧
    (mget (after (.windowStart []) (retaking true true)).sp.sorters 0).map (·.retake) = some false := by decide +kernel

theorem test_windowComplete_twice : mget (retaking false true).sp.sorters 0 = some { win0 with members := [{ id := 0, count := 1, snap := [(3, tab)] }], restarted := true } ∧
    (let t := after (.windowComplete 0 true) (retaking false true)
     t.sp.sorters = [] ∧ t.fe.descs.map (fun d => (d.stage, d.status)) = [(.finished, St.dataError)]) := by decide +kernel

/-- A row that has been read again once is read no more. -/
theorem test_rowDelivery_fails : (let a : Ask := { ask1 with again := 1 }
    let s := pooling { w1 with round := 1, asked := [a] }
    s.pwin 0 = some { w1 with round := 1, asked := [a] } ∧
    (after (.rowDelivery 0 key5 1 ⟨{ data := [] }, { crc := 3 }⟩ []) s).sp.pwins.flatMap (·.asked) = []) := by decide +kernel

theorem test_ackPort : two.fabAnswers 0 = true ∧ sent1.fabAnswers 0 = true ∧ two.up.inq = [] ∧ remote.up.inq = [] := by decide +kernel

/-- The row's channel, 89, is FAILED. -/
def homeless5 : State := { applying [] with gs := { (applying []).gs with lost := [89] } }

theorem test_homeless : (homeless5.applies 3 1 5 app5 tab v1 ∧ homeless5.rmwWaiting 3 1 5 = none ∧ homeless5.masterBytes tab (keyOf 3 5) 1 = none ∧
    homeless5.backStatus tab v1 = St.ok ∧ homeless5.mergedOf app5 1 5 = some (ent5 0) ∧ homeless5.homeless (keyOf 3 5) = true ∧
    homeless5.extentOf 3 1 5 = none ∧ (failOf [] (keyOf 3 5)).status = St.ok ∧ tab.ver? 1 = some v1 ∧ (applying []).homeless (keyOf 3 5) = false) ∧
    (after (.tier2RmwRetry 3 1 5 { data := ones } false []) homeless5).out =
      [.rowWrite key5 1 (0x100000 + 5 * 64) (List.replicate 8 (leBytes 4 0x40000000)).flatten (.host 0 0 false),
       .rowRead key5 1 (0x100000 + 5 * 64) (.host 0 0 false)] := by
  unfold State.applies; decide +kernel

/-- The record of a row that waits for twin space has gone. -/
def gone5 : State :=
  let s := applying []
  { s with up := { s.up with waits := [{ tbl := 3, ver := 1, row := 5, data := [], way := false }] } }

theorem test_twinSpace_gone : (gone5.applies 3 1 5 app5 tab v1 ∧ gone5.rmwWaiting 3 1 5 = some { tbl := 3, ver := 1, row := 5, data := [], way := false } ∧
    gone5.masterBytes tab (keyOf 3 5) 1 = none) ∧ (after (.twinSpaceGrant 3 1 5 []) gone5).rmwWaiting 3 1 5 = none := by
  unfold State.applies; decide +kernel

/-- A mirror block of context 0 that was read before an INVAL. -/
theorem test_mirror_old : (let s := { two with xl := { two.xl with mirror := [(0, 0)], mirrorOld := [(0, 0)] } }
    (0, 0) ∈ s.xl.mirrorOld ∧ (let t := after (.mirrorReadReturn 0 []) s; t.xl.segs = s.xl.segs ∧ t.xl.mirrorOld = [] ∧ t.xl.mirror = [(0, 0)])) := by
  decide +kernel

theorem test_pageResponse_pages : (∀ r ∈ pr1.ranges, ((r.pages (parked.portFor pr1 r)).map (·.off)).Nodup) ∧ pr1.isBulk = false ∧
    two.pw.selvedge = false ∧ pinned0.cxlUp 0 = true ∧ two.xl.advised = [] := by decide +kernel

theorem test_bands_pending : ((mget (after (.bands .fn0 img) table0).tb.tables 0).map fun t => (t.bands == (bare 1).bands, t.next.isSome)) = some (true, true) ∧
    ((mget (after .agingSweep (after (.bands .fn0 img) table0)).tb.tables 0).map fun t => t.next) = some none := by decide +kernel

theorem test_bankRepair_gone : (let t := after (.bankRepair 0 1 ⟨2, true⟩) two
    mget t.gs.bankMap (bankKey 0 1 2) = some 30 ∧ mget t.gs.bankUsed (tierKey 0 1) = some 1) := by decide +kernel

/-- Channel 1 has been moved off physical channel 129, which could not be read. -/
def retesting : State := { two with gs := { two.gs with retests := [(1, 129)] } }

theorem test_retest : retesting.acting 1 = false ∧ retesting.roleUp 3 = true ∧ (retesting.phys 129).state = .offline ∧
    (let t := after (.channelSwitch 1 (some {})) retesting; t.gs.retests = [] ∧ (t.phys 129).state = .spare) ∧
    ((after (.channelSwitch 1 (some { errors := 1 })) retesting).phys 129).state = .failed := by decide +kernel

/-- OFF is asked for while fabric port 0 owes a response: it drains first, and the block stays up. -/
theorem test_off_drains : (let s0 := ringed 6 { act with typ := .nearDesc, pub := 1 } two
    let s := after (.ringTurn 6) { s0 with fe := { s0.fe with announced := [6] } }
    s.awake = true ∧ s.pw.ready = true ∧ s.exchanging = false ∧ s.fabUp 0 = true ∧ s.fabBusy 0 = true ∧
    (let t := after (.pmhOff []) s; t.pw.off = some [] ∧ t.pw.byOff = false ∧ (t.fabPort 0).status = .draining)) := by decide +kernel

/-- The record of the last descriptor enters STANDBY. -/
def closing5 : State := { done5 with pw := { done5.pw with closing := true } }

theorem test_standby_end : closing5.pw.off = none ∧ closing5.pw.held = [] ∧ (closing5.recordWrite 0).inFlight = false ∧
    (let t := after (.completionRecordWrite 0) closing5; t.pw.pstate = .standby ∧ t.pw.closing = false ∧ t.out.contains (.pmhAck 1) = true) := by
  decide +kernel

/-- No row repair has been made, in the states that the statements of row recovery are shown on. -/
theorem test_rowUsed : (∀ q, mgetD dirty5.gs.rowUsed q 0 < 15) ∧ (∀ q, mgetD nobk.gs.rowUsed q 0 < 15) := by
  constructor <;> (intro q; show 0 < 15; omega)

/-- Window 0 waits for the block of a tier-2 row. -/
def landing0 : State :=
  let s := tabled tab2 (nvme { cmd6 with issued := true } .ready)
  { s with sp := { s.sp with pwins := [w1] } }

theorem test_nvmeLands : (landing0.drive 2).state = .ready ∧ landing0.nvCmd 2 6 = some { cmd6 with issued := true } ∧ landing0.pwin 0 = some w1 ∧
    (w1.needsLanding = [(key5, 1)] ∧ (landing0.landsOf key5 1).1 = 4 ∧ (landing0.landsOf key5 1).2.map (·.1) = [16]) ∧
    (after (.nvmeCompletion 2 6 .success (List.replicate 4096 7)) landing0).fl.landed.map (fun x => (x.wid, x.ns, x.lba, x.data.length)) =
      [(0, 4, 16, 4096)] := by decide +kernel

theorem test_inboundError_other : two.exchanging = false ∧ two.fabUp 0 = true ∧
    ((after (.inboundFabricError 0 .request) two).tel.countOf Ctr.inboundBad).count = 1 ∧
    (after (.inboundFabricError 0 .response) two).up = two.up := by decide +kernel

end Sys2Proof.Tests
end

section
/-!
PROOFS. O13 fails in one place: the slots of a returned read are queued, and then the reservation that follows pricks their descriptors,
which may start a translation run-ahead (R110, R111). A run-ahead request takes an identifier from the same counter as a descriptor, so
that the counter is not left at its old value plus the number of slots.
-/

namespace Sys2Proof.Proofs

open Sys2Proof Sys2Proof.Machine

/-! ## DESCRIPTOR_READ_RETURN with no exchange open -/

theorem exec_descriptorReadReturn {s : State} (h : s.exchanging = false) (k : Nat) (xs : List Slot) :
    exec (.descriptorReadReturn k xs) s = .next (s.readReturn k xs) := by
  change Host.Outcome.next (State.rest s.exchanging (s.readReturn k xs)) = _
  rw [h]
  rfl

/-! ## A ring whose next descriptor starts a run-ahead -/

/-- One slot with a PREFETCH ROW_LIST of context 0 with SEQ 0: COUNT 8 keys of 8 bytes at SRC 0x1000 (Table 18, R112). -/
def prefetchSlot : Slot :=
  { raw := leBytes 8 0x18 ++ leBytes 8 0 ++ leBytes 8 0x1000 ++ leBytes 8 0 ++ leBytes 8 8 ++ List.replicate 24 0 }

/-- An ACTIVE host descriptor ring with the read of its one published slot in flight; its records go to ring 8. -/
def readingRing : Ring :=
  { state := .active, dbMode := true, base := 0x1000, cplRing := 8, weight := 1, pub := 1, doneSeq := 0 - 1, turn := 1 }

/-- An ACTIVE host completion ring with all of its slots free. -/
def emptyCplRing : Ring := { state := .active, typ := .hostCpl, dbMode := true, base := 0x2000 }

/-- Segment 0 of context 0: 16 pages of host memory, readable. -/
def listSegment : SegEntry :=
  { ctx := 0, seg := 0, start := 0, len := 0x10000, base := 0x40000, r := true, w := false, a := false, fabric := false, pinned := false }

/-- The translation of the page that holds the slot's key list, IOVA 0x41000. -/
def listPage : XEntry := { port := 0, pasid := 0, iova := 0x41000, log2 := 12, r := true, w := false, hpa := 0x91000 }

/-- A block in P0 with host port 0 up. Context 0 is enabled, the page of the key list is translated, and the segment is advised as
sequential; CRH_XLATE_CTL holds its reset value, a run-ahead distance of 16 pages. -/
def advisedState : State :=
  { State.reset with
    regs := [(Reg.segmBase, 1)]
    ctxCfg := [(0, 1)]
    fe := { rings := [(5, readingRing), (8, emptyCplRing)] }
    xl := { segs := [listSegment], xc := [listPage], advised := [{ ctx := 0, va := 0, len := 0x10000 }] }
    pw := { State.reset.pw with
      ready := true, rails := true, pstate := .p0, cxl := [(0, { up := true, width := 2, rate := 2, cache := true })] } }

theorem advisedState_not_exchanging : advisedState.exchanging = false := by decide

theorem advisedState_turn : (advisedState.ring 5).turn ≠ 0 ∧ (advisedState.ring 5).state = .active ∧
    Ring.isCpl (advisedState.ring 5) = false ∧ (advisedState.ring 5).half = none ∧ 1 ≤ (advisedState.ring 5).turn ∧
    1 ≤ Ring.ahead (advisedState.ring 5) := by decide

theorem prefetchSlot_fits : slotPicot prefetchSlot = false ∧
    BitVec.ofNat 32 (field (slice prefetchSlot.raw 0 64) 4 4) = (advisedState.ring 5).nextSeq + BitVec.ofNat 32 0 := by decide

/-- The one descriptor takes identifier 0, and the run-ahead beyond its key list takes identifier 1. -/
theorem advisedState_readReturn : (advisedState.readReturn 5 [prefetchSlot]).fe.descs.map Desc.id = [0] ∧
    (advisedState.readReturn 5 [prefetchSlot]).xl.ahead.map Ahead.id = [1] ∧
    (advisedState.readReturn 5 [prefetchSlot]).fe.nextId = 2 := by decide

/-- Refutes O13: its third clause, of whole slots with the expected SEQ, says that the identifier counter grows by the number of slots
returned. In `advisedState` one slot returns and the counter grows by two, since the descriptor's run-ahead request takes the second. -/
theorem not_ringsTakeTurnsAndQueueDescriptors : ¬ Obligations.RingsTakeTurnsAndQueueDescriptors := by
  unfold Obligations.RingsTakeTurnsAndQueueDescriptors
  rintro ⟨-, -, whole, -⟩
  obtain ⟨hturn, hactive, hcpl, hhalf, hlen, hahead⟩ := advisedState_turn
  obtain ⟨hpicot, hseq⟩ := prefetchSlot_fits
  have hpicots : ∀ x ∈ [prefetchSlot], slotPicot x = false := by simpa using hpicot
  have hseqs : ∀ i x, [prefetchSlot][i]? = some x →
      BitVec.ofNat 32 (field (slice x.raw 0 64) 4 4) = (advisedState.ring 5).nextSeq + BitVec.ofNat 32 i
    | 0, _, rfl => hseq
  obtain ⟨t, hexec, -, -, -, hid, -⟩ := whole 5 [prefetchSlot] advisedState hturn hactive hcpl hhalf hlen hahead hpicots hseqs
    advisedState_not_exchanging
  rw [exec_descriptorReadReturn advisedState_not_exchanging] at hexec
  cases hexec
  obtain ⟨-, -, htwo⟩ := advisedState_readReturn
  rw [htwo] at hid
  exact absurd hid (by decide)

end Sys2Proof.Proofs
end

section
/-!
PROOFS. What a run of telemetry operations adds to the event queue (R353, R424). An event is queued and copied to the log; a count of the
log core or of a dropped event may raise at most the HALF and the SAT event of its counter, each once. So the events that a run can add are
bounded by the events it is told and the bits that are still clear.
-/

namespace Sys2Proof.Proofs

open Sys2Proof Sys2Proof.Machine Sys2Proof.Laws

/-! ## The bits of the counters that are still clear -/

/-- Bits of a counter that are still clear: the HALF and SAT events it may still raise. -/
def clearBits (t : Telem) (off : Nat) : Nat := b2n (!(t.countOf off).half) + b2n (!(t.countOf off).sat)

/-- Bits still clear over a list of counters. -/
def clearOn (cs : List Nat) (t : Telem) : Nat := sumBy (clearBits t) cs

theorem b2n_le_one (b : Bool) : b2n b ≤ 1 := by cases b <;> decide

theorem clearOn_le (cs : List Nat) (t : Telem) : clearOn cs t ≤ 2 * cs.length := by
  induction cs with
  | nil => exact Nat.le_refl 0
  | cons c cs ih =>
    have hh := b2n_le_one (!(t.countOf c).half)
    have hs := b2n_le_one (!(t.countOf c).sat)
    simp only [clearOn, sumBy, clearBits, List.length_cons] at ih ⊢
    omega

theorem sumBy_add_le {α : Type} {f g : α → Nat} {n : Nat} {a : α} {l : List α} (ha : a ∈ l) (hle : ∀ x, f x ≤ g x)
    (hlt : f a + n ≤ g a) : sumBy f l + n ≤ sumBy g l := by
  have hall : ∀ m : List α, sumBy f m ≤ sumBy g m := by
    intro m
    induction m with
    | nil => exact Nat.le_refl 0
    | cons x m ih => exact Nat.add_le_add (hle x) ih
  induction l with
  | nil => exact absurd ha List.not_mem_nil
  | cons x l ih =>
    simp only [sumBy]
    rcases List.mem_cons.mp ha with rfl | hmem
    · have := hall l
      omega
    · have := ih hmem
      have := hle x
      omega

/-- A count raises an event for each bit that it sets. -/
theorem events_length_add_clear (c : Counter) (off n : Nat) :
    (Counter.events off c (c.plus n)).length + (b2n (!(c.plus n).half) + b2n (!(c.plus n).sat)) ≤ b2n (!c.half) + b2n (!c.sat) := by
  have key : ∀ (old set : Bool) (o : TelOp), (if (old || set) && !old then [o] else []).length + b2n (!(old || set)) ≤ b2n (!old) := by
    intro old set o
    cases old <;> cases set <;> exact Nat.le_refl _
  have hhalf := key c.half (decide (c.count + n ≥ 2 ^ 47)) (mkEvent 0xD01 [(8, 4, off)])
  have hsat := key c.sat (decide (c.count + n > countMax)) (mkEvent 0xD02 [(8, 4, off)])
  unfold Counter.events
  rw [List.length_append]
  exact Nat.le_trans (Nat.le_of_eq (Nat.add_add_add_comm ..)) (Nat.add_le_add hhalf hsat)

theorem clearOn_congr (cs : List Nat) {t t' : Telem} (h : t'.counters = t.counters) : clearOn cs t' = clearOn cs t := by
  have : clearBits t' = clearBits t := by
    funext off
    simp only [clearBits, Telem.countOf, h]
  rw [clearOn, clearOn, this]

theorem countOf_mset (t : Telem) (off j : Nat) (c : Counter) :
    ({ t with counters := mset t.counters off c } : Telem).countOf j = if off = j then c else t.countOf j := by
  unfold Telem.countOf
  split
  · next h => subst h; exact mgetD_mset_self ..
  · next h => exact mgetD_mset_ne _ _ _ _ _ h

/-- What a count takes from the clear bits pays for the events it raises. -/
theorem clearOn_count {cs : List Nat} {off : Nat} (hoff : off ∈ cs) (t : Telem) (n : Nat) :
    clearOn cs { t with counters := mset t.counters off ((t.countOf off).plus n) } +
      (Counter.events off (t.countOf off) ((t.countOf off).plus n)).length ≤ clearOn cs t := by
  have hself := events_length_add_clear (t.countOf off) off n
  refine sumBy_add_le hoff (fun j => ?_) ?_
  · simp only [clearBits, countOf_mset]
    split
    · next h => subst h; omega
    · exact Nat.le_refl _
  · simp only [clearBits, countOf_mset, if_true]
    omega

/-! ## One operation -/

/-- An operation that only counts on counters of the list, or tells of events and records. -/
def Calm (cs : List Nat) : TelOp → Prop
  | .count off _ => off ∈ cs
  | .drain => False
  | _ => True

/-- Steps that an operation and what it leads to can take, apart from the events of counters. -/
def opWeight : TelOp → Nat
  | .count _ _ => 1
  | .event _ => 5
  | .log _ _ _ _ _ => 3
  | .put _ => 3
  | .drain => 1

/-- Events that an operation queues by itself. -/
def opEvents : TelOp → Nat
  | .event _ => 1
  | _ => 0

/-- Steps left in a run: those of its operations, and of each event that a counter may still raise. -/
def runCost (cs : List Nat) (ops : List TelOp) (t : Telem) : Nat := sumBy opWeight ops + 5 * clearOn cs t

/-- The length that the event queue can come to in a run. -/
def queueBound (cs : List Nat) (ops : List TelOp) (t : Telem) : Nat := sumBy opEvents ops + t.evq.length + clearOn cs t

/-- From one telemetry state with operations to do to another: the event queue has only grown, its settings are the same, and its bound
has not risen. -/
structure Queues (cs : List Nat) (ops : List TelOp) (t : Telem) (ops' : List TelOp) (t' : Telem) : Prop where
  ring  : t'.evtRing = t.evtRing
  grows : t.evq <+: t'.evq
  bound : queueBound cs ops' t' ≤ queueBound cs ops t

theorem sumBy_append {α : Type} (f : α → Nat) (l m : List α) : sumBy f (l ++ m) = sumBy f l + sumBy f m := by
  induction l with
  | nil => exact (Nat.zero_add _).symm
  | cons a l ih => simp only [List.cons_append, sumBy, ih]; omega

/-- The counters that telemetry itself counts on: log records and those it drops, and dropped events. -/
def ownCounters : List Nat := [Ctr.logRecords, Ctr.logDropped, Ctr.evtDropped]

/-- Operations that a log record leads to: at most two counts, on counters of the log. -/
def LogCounts (ops : List TelOp) : Prop := ops.length ≤ 2 ∧ ∀ o ∈ ops, ∃ off ∈ ownCounters, ∃ n, o = .count off n

theorem logCounts_nil : LogCounts [] := ⟨Nat.zero_le 2, fun _ h => absurd h List.not_mem_nil⟩

theorem logCounts_one {off : Nat} (h : off ∈ ownCounters) (n : Nat) : LogCounts [.count off n] :=
  ⟨Nat.le_succ 1, fun _ ho => ⟨off, h, n, List.mem_singleton.mp ho⟩⟩

theorem logCounts_two {a b : Nat} (ha : a ∈ ownCounters) (hb : b ∈ ownCounters) (m n : Nat) : LogCounts [.count a m, .count b n] := by
  refine ⟨Nat.le_refl 2, fun o ho => ?_⟩
  rcases List.mem_cons.mp ho with rfl | ho
  · exact ⟨a, ha, m, rfl⟩
  · exact ⟨b, hb, n, List.mem_singleton.mp ho⟩

theorem logRecords_own : Ctr.logRecords ∈ ownCounters := by decide

theorem logDropped_own : Ctr.logDropped ∈ ownCounters := by decide

theorem evtDropped_own : Ctr.evtDropped ∈ ownCounters := by decide

/-- The log core's intake of a record leaves the event queue and the counters alone. -/
theorem take_queue (t : Telem) (r : LogRec) :
    (t.take r).1.evq = t.evq ∧ (t.take r).1.evtRing = t.evtRing ∧ (t.take r).1.counters = t.counters ∧ LogCounts (t.take r).2 := by
  unfold Telem.take
  dsimp only
  split
  · exact ⟨rfl, rfl, rfl, logCounts_nil⟩
  split
  · exact ⟨rfl, rfl, rfl, logCounts_one logDropped_own 1⟩
  split
  · exact ⟨rfl, rfl, rfl, logCounts_one logRecords_own 1⟩
  split
  · exact ⟨rfl, rfl, rfl, logCounts_two logRecords_own logDropped_own 1 1⟩
  · exact ⟨rfl, rfl, rfl, logCounts_one logRecords_own 2⟩

theorem logCounts_weight {ops : List TelOp} (h : LogCounts ops) : sumBy opWeight ops ≤ 2 ∧ sumBy opEvents ops = 0 := by
  obtain ⟨hlen, hops⟩ := h
  have : sumBy opWeight ops = ops.length ∧ sumBy opEvents ops = 0 := by
    clear hlen
    induction ops with
    | nil => exact ⟨rfl, rfl⟩
    | cons o ops ih =>
      obtain ⟨off, -, n, rfl⟩ := hops o List.mem_cons_self
      obtain ⟨hw, he⟩ := ih fun x hx => hops x (List.mem_cons_of_mem _ hx)
      exact ⟨by simp only [sumBy, opWeight, hw, List.length_cons]; omega, by simp only [sumBy, opEvents, he]⟩
  omega

theorem logCounts_calm {cs : List Nat} (hcs : ∀ c ∈ ownCounters, c ∈ cs) {ops : List TelOp} (h : LogCounts ops) :
    ∀ o ∈ ops, Calm cs o := by
  intro o ho
  obtain ⟨off, hoff, n, rfl⟩ := h.2 o ho
  exact hcs off hoff

/-- An operation that leaves the counters alone, and leads to less than it is. -/
theorem queues_of_counters_eq {cs : List Nat} {o : TelOp} {t t' : Telem} {ops : List TelOp} (hring : t'.evtRing = t.evtRing)
    (hctrs : t'.counters = t.counters) (hgrows : t.evq <+: t'.evq) (hweight : sumBy opWeight ops + 1 ≤ opWeight o)
    (hevents : sumBy opEvents ops + t'.evq.length ≤ opEvents o + t.evq.length) :
    Queues cs [o] t ops t' ∧ runCost cs ops t' + 1 ≤ runCost cs [o] t := by
  have hclear := clearOn_congr cs hctrs
  refine ⟨⟨hring, hgrows, ?_⟩, ?_⟩
  · simp only [queueBound, hclear, sumBy]; omega
  · simp only [runCost, hclear, sumBy]; omega

theorem events_calm (cs : List Nat) (off : Nat) (c c' : Counter) : ∀ o ∈ Counter.events off c c', Calm cs o := by
  intro o ho
  unfold Counter.events at ho
  have key : ∃ e, o = .event e := by
    rcases List.mem_append.mp ho with h | h <;> (split at h <;> simp_all [mkEvent])
  obtain ⟨e, rfl⟩ := key
  trivial

theorem events_weight (off : Nat) (c c' : Counter) :
    sumBy opWeight (Counter.events off c c') = 5 * (Counter.events off c c').length ∧
      sumBy opEvents (Counter.events off c c') = (Counter.events off c c').length := by
  unfold Counter.events
  split <;> split <;> exact ⟨rfl, rfl⟩

theorem calm_nil (cs : List Nat) : ∀ o ∈ ([] : List TelOp), Calm cs o := fun _ h => absurd h List.not_mem_nil

theorem calm_cons {cs : List Nat} {a : TelOp} {ops : List TelOp} (ha : Calm cs a) (hops : ∀ o ∈ ops, Calm cs o) : ∀ o ∈ a :: ops, Calm cs o :=
  List.forall_mem_cons.mpr ⟨ha, hops⟩

theorem op_count {cs : List Nat} {off : Nat} (hoff : off ∈ cs) (n : Nat) (t : Telem) :
    (∀ o ∈ (t.op (.count off n)).2, Calm cs o) ∧ Queues cs [.count off n] t (t.op (.count off n)).2 (t.op (.count off n)).1 ∧
      runCost cs (t.op (.count off n)).2 (t.op (.count off n)).1 + 1 ≤ runCost cs [.count off n] t := by
  unfold Telem.op
  dsimp only
  split
  · refine ⟨calm_nil cs, ⟨rfl, List.prefix_rfl, Nat.le_refl _⟩, ?_⟩
    simp only [runCost, sumBy, opWeight]
    omega
  · have hpay := clearOn_count hoff t n
    obtain ⟨hw, he⟩ := events_weight off (t.countOf off) ((t.countOf off).plus n)
    refine ⟨events_calm cs off _ _, ⟨rfl, List.prefix_rfl, ?_⟩, ?_⟩
    · simp only [queueBound, sumBy, opEvents, he]
      omega
    · simp only [runCost, sumBy, opWeight, hw]
      omega

theorem op_event {cs : List Nat} (hcs : ∀ c ∈ ownCounters, c ∈ cs) (e : Event) (t : Telem) :
    (∀ o ∈ (t.op (.event e)).2, Calm cs o) ∧ Queues cs [.event e] t (t.op (.event e)).2 (t.op (.event e)).1 ∧
      runCost cs (t.op (.event e)).2 (t.op (.event e)).1 + 1 ≤ runCost cs [.event e] t := by
  have hdrop : Ctr.evtDropped ∈ cs := hcs _ evtDropped_own
  unfold Telem.op
  dsimp only
  by_cases hon : bitb t.evtRing 17 = true
  · by_cases hfull : t.evq.length ≥ 256
    · rw [if_pos hon, if_pos hfull]
      exact ⟨calm_cons trivial (calm_cons hdrop (calm_nil cs)), queues_of_counters_eq rfl rfl List.prefix_rfl (Nat.le_refl 5) (Nat.add_le_add_right (Nat.zero_le _) _)⟩
    · rw [if_pos hon, if_neg hfull]
      refine ⟨calm_cons trivial (calm_nil cs), queues_of_counters_eq rfl rfl (List.prefix_append t.evq [e]) (Nat.le_succ 4) ?_⟩
      simp only [sumBy, opEvents, List.length_append, List.length_singleton]
      omega
  · rw [if_neg hon]
    exact ⟨calm_cons trivial (calm_nil cs), queues_of_counters_eq rfl rfl List.prefix_rfl (Nat.le_succ 4) (Nat.add_le_add_right (Nat.zero_le _) _)⟩

/-- An operation that the log core answers. -/
theorem op_logCounts {cs : List Nat} (hcs : ∀ c ∈ ownCounters, c ∈ cs) {o : TelOp} (ho : 3 ≤ opWeight o) {t t' : Telem}
    {ops : List TelOp} (h : t'.evq = t.evq ∧ t'.evtRing = t.evtRing ∧ t'.counters = t.counters ∧ LogCounts ops) :
    (∀ x ∈ ops, Calm cs x) ∧ Queues cs [o] t ops t' ∧ runCost cs ops t' + 1 ≤ runCost cs [o] t := by
  obtain ⟨hevq, hring, hctrs, hops⟩ := h
  obtain ⟨hweight, hevents⟩ := logCounts_weight hops
  exact ⟨logCounts_calm hcs hops,
    queues_of_counters_eq hring hctrs (hevq ▸ List.prefix_rfl) (by omega) (by rw [hevents, hevq]; exact Nat.add_le_add_right (Nat.zero_le _) _)⟩

/-- What one operation leads to. -/
theorem op_calm {cs : List Nat} (hcs : ∀ c ∈ ownCounters, c ∈ cs) {o : TelOp} (ho : Calm cs o) (t : Telem) :
    (∀ x ∈ (t.op o).2, Calm cs x) ∧ Queues cs [o] t (t.op o).2 (t.op o).1 ∧
      runCost cs (t.op o).2 (t.op o).1 + 1 ≤ runCost cs [o] t := by
  cases o with
  | count off n => exact op_count ho n t
  | event e => exact op_event hcs e t
  | log core kind sev code args =>
    refine op_logCounts hcs (o := .log core kind sev code args) (Nat.le_refl 3) ?_
    unfold Telem.op
    dsimp only
    split
    · exact take_queue ..
    split
    · exact ⟨rfl, rfl, rfl, logCounts_one logDropped_own 1⟩
    · exact ⟨rfl, rfl, rfl, logCounts_nil⟩
  | put r => exact op_logCounts hcs (o := .put r) (Nat.le_refl 3) (take_queue t r)
  | drain => exact ho.elim

/-! ## A run -/

/-- With fuel enough, a run does its first operations, and all that they lead to, and goes on with the others. -/
theorem run_append {cs : List Nat} (hcs : ∀ c ∈ ownCounters, c ∈ cs) (f : Nat) (a b : List TelOp) (t : Telem)
    (ha : ∀ o ∈ a, Calm cs o) (hf : runCost cs a t ≤ f) :
    ∃ g u, f ≤ g + runCost cs a t ∧ Telem.run f (a ++ b) t = Telem.run g b u ∧ Queues cs a t [] u := by
  induction f generalizing a t with
  | zero =>
    cases a with
    | nil => exact ⟨0, t, Nat.zero_le _, rfl, rfl, List.prefix_rfl, Nat.le_refl _⟩
    | cons o a =>
      have : 1 ≤ opWeight o := by cases o <;> exact Nat.succ_le_succ (Nat.zero_le _)
      simp only [runCost, sumBy] at hf
      omega
  | succ n ih =>
    cases a with
    | nil => exact ⟨n + 1, t, Nat.le_add_right _ _, rfl, rfl, List.prefix_rfl, Nat.le_refl _⟩
    | cons o a =>
      obtain ⟨hcalm, hq, hcost⟩ := op_calm hcs (ha o List.mem_cons_self) t
      have hrest : ∀ x ∈ (t.op o).2 ++ a, Calm cs x := fun x hx =>
        (List.mem_append.mp hx).elim (hcalm x) fun h => ha x (List.mem_cons_of_mem _ h)
      have hle : runCost cs ((t.op o).2 ++ a) (t.op o).1 + 1 ≤ runCost cs (o :: a) t := by
        simp only [runCost, sumBy_append, sumBy] at hcost ⊢
        omega
      obtain ⟨g, u, hg, hrun, hring, hgrows, hbound⟩ := ih ((t.op o).2 ++ a) (t.op o).1 hrest (by omega)
      refine ⟨g, u, by omega, ?_, hring.trans hq.ring, hq.grows.trans hgrows, ?_⟩
      · rw [← hrun, List.append_assoc]
        rfl
      · have := hq.bound
        simp only [queueBound, sumBy_append, sumBy] at this hbound ⊢
        omega

/-- What telemetry is told at once is little: the fuel of a run is enough for it. -/
theorem tell_queues {cs : List Nat} (hcs : ∀ c ∈ ownCounters, c ∈ cs) (s : State) (ops : List TelOp) (hops : ∀ o ∈ ops, Calm cs o)
    (hfew : sumBy opWeight ops + 10 * cs.length ≤ 20000) : Queues cs ops s.tel [] (s.tell ops).tel := by
  have hclear := clearOn_le cs s.tel
  obtain ⟨g, u, -, hrun, hq⟩ := run_append hcs 20000 ops [] s.tel hops (by simp only [runCost]; omega)
  rw [List.append_nil] at hrun
  have : (s.tell ops).tel = u := by
    change Telem.run 20000 ops s.tel = u
    rw [hrun]
    cases g <;> rfl
  rw [this]
  exact hq

/-- An event that telemetry is told after other operations is queued, where there is room for what those can raise. -/
theorem tell_event_queued {cs : List Nat} (hcs : ∀ c ∈ ownCounters, c ∈ cs) (s : State) (ops : List TelOp) (e : Event)
    (hops : ∀ o ∈ ops, Calm cs o) (hfew : sumBy opWeight ops + 20 * cs.length ≤ 19990) (hon : bitb s.tel.evtRing 17 = true)
    (hroom : queueBound cs ops s.tel < 256) :
    ∃ l, (s.tell (ops ++ [.event e])).tel.evq = s.tel.evq ++ l ∧ e ∈ l := by
  have hclear := clearOn_le cs s.tel
  obtain ⟨g, u, hg, hrun, hring, ⟨l, hl⟩, hbound⟩ :=
    run_append hcs 20000 ops [.event e] s.tel hops (by simp only [runCost]; omega)
  have hclear' := clearOn_le cs u
  simp only [runCost] at hg
  obtain ⟨f, rfl⟩ : ∃ f, g = f + 1 := ⟨g - 1, by omega⟩
  have hspace : ¬ u.evq.length ≥ 256 := by
    simp only [queueBound, sumBy] at hbound hroom
    omega
  obtain ⟨hcalm, -, hcost⟩ := op_event hcs e u
  obtain ⟨g', v, -, hrun', -, ⟨m, hm⟩, -⟩ := run_append hcs f (u.op (.event e)).2 [] (u.op (.event e)).1 hcalm (by
    simp only [runCost, sumBy, opWeight] at hcost ⊢
    omega)
  have hv : (s.tell (ops ++ [.event e])).tel = v := by
    change Telem.run 20000 (ops ++ [.event e]) s.tel = v
    rw [hrun]
    change Telem.run f ((u.op (.event e)).2 ++ []) (u.op (.event e)).1 = v
    rw [hrun']
    cases g' <;> rfl
  have hput : (u.op (.event e)).1.evq = u.evq ++ [e] := by
    unfold Telem.op
    dsimp only
    rw [if_pos (hring ▸ hon), if_neg hspace]
  refine ⟨l ++ [e] ++ m, ?_, List.mem_append_left m (List.mem_append_right l List.mem_cons_self)⟩
  rw [hv, ← hm, hput, ← hl, List.append_assoc, List.append_assoc, List.append_assoc]

end Sys2Proof.Proofs
end

section
/-!
PROOFS. What pricking a descriptor can do to the state (R92 to R105): a chain of small steps. Each invariant of pricking is then one case
analysis of a step.
-/

namespace Sys2Proof.Proofs

open Sys2Proof Sys2Proof.Machine Sys2Proof.Laws

/-! ## The steps -/

/-- Counters on which pricking counts. -/
def prickCounters : List Nat :=
  [Ctr.segcMiss, Ctr.segcHit, Ctr.xcMiss, Ctr.xcHit, Ctr.atsReq, Ctr.priReq, Ctr.parkFull, Ctr.raDropNoseg, Ctr.raDropRights]

/-- An entry as use leaves it: its page and its marks are the same, but for its pins and its run-ahead mark. -/
def UsedFrom (e e0 : XEntry) : Prop := e = { e0 with pins := e.pins, ahead := e.ahead }

/-- What pricking keeps of the translations: the invalidations at work and the driver's faults, and no entry of the cache is new. -/
structure XlKept (x y : Translation) : Prop where
  invals   : y.invals = x.invals
  drvFault : y.drvFault = x.drvFault
  entries  : ∀ e ∈ y.xc, ∃ e0 ∈ x.xc, UsedFrom e e0

/-- One step of pricking descriptor id. -/
inductive PrickStep (id : Nat) : State → State → Prop
  | count (s : State) {off : Nat} (n : Nat) (h : off ∈ prickCounters) : PrickStep id s (s.countN off n)
  | send (s : State) (os : List Output) : PrickStep id s (s.sendAll os)
  | desc (s : State) (f : Desc → Desc) (h : ∀ d, d.id = id → (f d).id = id) : PrickStep id s (s.onDesc id f)
  | front (s : State) (f : FrontEnd → FrontEnd) (h : ∀ x, (f x).descs = x.descs ∧ (f x).rings = x.rings) : PrickStep id s (s.onFe f)
  | xl (s : State) (f : Translation → Translation) (h : XlKept s.xl (f s.xl)) : PrickStep id s (s.onXl f)
  | leave (s : State) : PrickStep id s (s.abandon id)

/-- A state that pricking of descriptor id leads to, step by step. -/
inductive Pricks (id : Nat) : State → State → Prop
  | refl {s : State} : Pricks id s s
  | tail {s t u : State} (h : Pricks id s t) (hstep : PrickStep id t u) : Pricks id s u

theorem Pricks.single {id : Nat} {s t : State} (h : PrickStep id s t) : Pricks id s t := .tail .refl h

theorem Pricks.trans {id : Nat} {s t u : State} (h : Pricks id s t) (h' : Pricks id t u) : Pricks id s u := by
  induction h' with
  | refl => exact h
  | tail _ hstep ih => exact ih.tail hstep

theorem Pricks.keeps {P : State → Prop} {id : Nat} (hstep : ∀ {a b}, PrickStep id a b → P a → P b) {s t : State} (h : Pricks id s t)
    (hs : P s) : P t := by
  induction h with
  | refl => exact hs
  | tail _ hbc ih => exact hstep hbc ih

theorem XlKept.of_xc {x y : Translation} (hi : y.invals = x.invals) (hd : y.drvFault = x.drvFault) (hxc : y.xc = x.xc) : XlKept x y :=
  ⟨hi, hd, fun e he => ⟨e, hxc ▸ he, rfl⟩⟩

variable {id : Nat}

theorem pricks_count {s : State} {off : Nat} (n : Nat) (h : off ∈ prickCounters) : Pricks id s (s.countN off n) :=
  .single (.count s n h)

theorem pricks_setDesc (s : State) {d : Desc} (hd : d.id = id) : Pricks id s (s.setDesc d) := by
  subst hd
  exact .single (.desc s (fun _ => d) fun _ _ => rfl)

theorem pricks_front (s : State) (f : FrontEnd → FrontEnd) (h : ∀ x, (f x).descs = x.descs ∧ (f x).rings = x.rings) :
    Pricks id s (s.onFe f) := .single (.front s f h)

theorem pricks_onXl (s : State) (f : Translation → Translation) (hi : (f s.xl).invals = s.xl.invals)
    (hd : (f s.xl).drvFault = s.xl.drvFault) (hxc : (f s.xl).xc = s.xl.xc) : Pricks id s (s.onXl f) :=
  .single (.xl s f (.of_xc hi hd hxc))

/-! ## The parts of pricking -/

theorem useX_kept (x : Translation) (hits : List XEntry) (pin : Option Nat) : XlKept x (x.useX hits pin) := by
  refine ⟨rfl, rfl, fun e he => ?_⟩
  rcases List.mem_append.mp he with h | h
  · obtain ⟨e0, he0, rfl⟩ := List.mem_map.mp h
    refine ⟨e0, (List.mem_filter.mp he0).1, ?_⟩
    cases pin <;> rfl
  · exact ⟨e, (List.mem_filter.mp h).1, rfl⟩

theorem pricks_useX (s : State) (hits : List XEntry) (pin : Option Nat) : Pricks id s (s.onXl fun x => x.useX hits pin) :=
  .single (.xl s _ (useX_kept s.xl hits pin))

theorem pricks_sendAts (s : State) (i pasid : Nat) (miss : List PageRef) : Pricks id s (s.sendAts i pasid miss) :=
  (Pricks.single (.send s _)).trans (pricks_count _ (by decide))

theorem pricks_park (s : State) {d : Desc} (hd : d.id = id) : Pricks id s (s.park d) := by
  unfold State.park
  split
  · exact pricks_setDesc s hd
  split
  · exact (pricks_setDesc s (d := { d with stage := .parked }) hd).trans (pricks_front _ _ fun _ => ⟨rfl, rfl⟩)
  · exact (pricks_setDesc s (d := { d with stage := .headWait }) hd).trans (pricks_count 1 (by decide))

theorem pricks_pass (s : State) {d : Desc} (hd : d.id = id) : Pricks id s (s.pass d) := by
  refine Pricks.trans (t := s.setDesc _) ?_ (pricks_front _ _ fun _ => ⟨rfl, rfl⟩)
  exact pricks_setDesc s hd

theorem pricks_settle (s : State) (f : Desc → Desc) (hf : ∀ d, (f d).id = d.id) : Pricks id s (s.settle id f) := by
  refine Pricks.trans (t := s.onDesc id _) ?_ (pricks_front _ _ fun _ => ⟨rfl, rfl⟩)
  exact .single (.desc s _ fun d hd => (hf d).trans hd)

theorem pricks_endDesc (s : State) (st : BitVec 8) (detail done : Nat) (info : Word64) :
    Pricks id s (s.endDesc id st detail done info) := pricks_settle s _ fun _ => rfl

theorem pricks_stopFault (s : State) {d : Desc} (hd : d.id = id) : Pricks id s (s.stopFault d) := by
  subst hd
  unfold State.stopFault
  split
  · exact (pricks_setDesc s rfl).trans (pricks_endDesc ..)
  · exact .refl

theorem pricks_runAhead (s : State) (d : Desc) (r : Range) : Pricks id s (s.runAhead d r) := by
  unfold State.runAhead
  dsimp only
  split
  · exact .refl
  split
  · exact .refl
  next g _ =>
    have hg : Pricks id s (s.onXl fun x => { x with advised := x.advised.map fun h => if h = g then { h with ended := false } else h }) :=
      pricks_onXl s _ rfl rfl rfl
    split
    · exact hg
    split
    · exact hg.trans (pricks_count 1 (by decide))
    split
    · exact hg
    split
    · exact hg.trans (pricks_count 1 (by decide))
    split
    · exact hg
    · refine hg.trans (Pricks.trans ?_ (pricks_count 1 (by decide)))
      refine Pricks.tail (t := (State.onFe _ _).onXl _) ?_ (.send _ [_])
      refine Pricks.tail (t := State.onFe _ _) ?_ (.xl _ _ (.of_xc rfl rfl rfl))
      exact pricks_front _ _ fun _ => ⟨rfl, rfl⟩

theorem pricks_askMirror (s : State) (c port : Nat) : Pricks id s (s.askMirror c port) := by
  unfold State.askMirror State.readMirror
  split
  · exact .refl
  have hout : Pricks id s (s.onXl fun x => { x with mirror := x.mirror ++ [(c, port)] }) := pricks_onXl s _ rfl rfl rfl
  split
  · exact hout
  · exact hout.trans (.single (.send _ [_]))

/-- What pricking one range of descriptor id led to is a state of its pricking, and the descriptor that waits is it. -/
def RangePricks (id : Nat) (s : State) : Pricked → Prop
  | .done s1 _ => Pricks id s s1
  | .wait s1 d => Pricks id s s1 ∧ d.id = id

theorem prickSeg_pricks (s : State) {d : Desc} (hd : d.id = id) (i : Nat) (r : Range) : RangePricks id s (s.prickSeg d i r) := by
  unfold State.prickSeg
  dsimp only
  split
  · exact Pricks.refl
  split
  · have hmiss : Pricks id s (s.countN Ctr.segcMiss (b2n !r.miss)) := pricks_count _ (by decide)
    split
    · exact ⟨hmiss.trans (pricks_askMirror ..), hd⟩
    · exact ⟨hmiss, hd⟩
  · have htouch : Pricks id s (s.onXl fun x => { x with segs := segTouch x.segs d.ctx r.va.toNat r.len }) := pricks_onXl s _ rfl rfl rfl
    change Pricks id s _
    split
    · exact htouch
    · split
      · exact htouch.trans (pricks_count 1 (by decide))
      · exact htouch.trans (pricks_count 1 (by decide))

theorem prickLack_pricks (s : State) {d : Desc} (hd : d.id = id) (i : Nat) (r : Range) : RangePricks id s (s.prickLack d i r) := by
  unfold State.prickLack
  dsimp only
  split
  · exact Pricks.refl
  split
  · exact ⟨.refl, hd⟩
  · exact ⟨(pricks_onXl s _ rfl rfl rfl).trans ((Pricks.single (.send _ [_])).trans (pricks_count _ (by decide))), hd⟩

theorem askPages_pricks (s : State) {d : Desc} (hd : d.id = id) (i : Nat) (r : Range) (miss : List PageRef) :
    RangePricks id s (s.askPages d i r miss) := by
  unfold State.askPages
  split
  · exact ⟨(pricks_count _ (by decide)).trans (pricks_sendAts ..), hd⟩
  · exact ⟨.refl, hd⟩

theorem RangePricks.after {s s1 : State} (h : Pricks id s s1) {p : Pricked} (hp : RangePricks id s1 p) : RangePricks id s p := by
  cases p with
  | done s2 r => exact h.trans hp
  | wait s2 d => exact ⟨h.trans hp.1, hp.2⟩

theorem prickXlate_pricks (s : State) {d : Desc} (hd : d.id = id) (i : Nat) (r : Range) : RangePricks id s (s.prickXlate d i r) := by
  unfold State.prickXlate
  dsimp only
  split
  · exact Pricks.refl
  split
  · exact prickLack_pricks s hd i r
  split
  · have hhit : ∀ hits n, Pricks id s ((s.onXl fun x => x.useX hits none).countN Ctr.xcHit n) := fun hits n =>
      (pricks_useX s hits none).trans (pricks_count n (by decide))
    split
    · exact hhit ..
    · exact .after (hhit ..) (askPages_pricks _ hd ..)
  · split
    · exact ⟨.refl, hd⟩
    · have hhit : ∀ hits n, Pricks id s ((s.countN Ctr.xcHit n).onXl fun x => x.useX hits (some d.id)) := fun hits n =>
        (pricks_count n (by decide)).trans (pricks_useX _ hits _)
      split
      · exact hhit ..
      · exact .after (hhit ..) (askPages_pricks _ hd ..)

theorem prickRange_pricks (s : State) {d : Desc} (hd : d.id = id) (i : Nat) (r : Range) : RangePricks id s (s.prickRange d i r) := by
  have hseg := prickSeg_pricks s hd i r
  unfold State.prickRange
  split
  · next h => rw [h] at hseg; exact hseg
  · next h => rw [h] at hseg; exact .after hseg (prickXlate_pricks _ hd ..)

/-! ## A descriptor -/

theorem pricks_prickFrom (s : State) {d : Desc} (hd : d.id = id) (fuel i : Nat) : Pricks id s (s.prickFrom d fuel i) := by
  induction fuel generalizing s d i with
  | zero => exact pricks_pass s hd
  | succ n ih =>
    unfold State.prickFrom
    split
    · exact pricks_pass s hd
    next r _ =>
    split
    · split
      · exact pricks_stopFault s hd
      · exact ih s hd (i + 1)
    have hrange := prickRange_pricks s hd i r
    split
    · next h =>
      rw [h] at hrange
      exact hrange.1.trans (pricks_park _ hrange.2)
    · next s1 r1 h =>
      rw [h] at hrange
      have hd1 : (d.setRange i r1).id = id := hd
      dsimp only
      split
      · subst hd
        exact hrange.trans ((pricks_setDesc _ hd1).trans (pricks_endDesc ..))
      split
      · refine hrange.trans (Pricks.trans ?_ (pricks_stopFault _ hd1))
        split
        · exact .refl
        · exact hd ▸ .single (.leave _)
      · refine hrange.trans (Pricks.trans ?_ (ih _ hd1 (i + 1)))
        split
        · exact pricks_runAhead ..
        · exact .refl

theorem bulkSeg_pricks (s : State) {d : Desc} (hd : d.id = id) (i : Nat) :
    Pricks id s (s.bulkSeg d i).1 ∧ (s.bulkSeg d i).2.1.id = id := by
  unfold State.bulkSeg
  split
  · exact ⟨.refl, hd⟩
  next r _ =>
    have hseg := prickSeg_pricks s hd i r
    split
    · next h => rw [h] at hseg; exact hseg
    · next h => rw [h] at hseg; exact ⟨hseg, hd⟩

theorem pricks_prickAll (s : State) {d : Desc} (hd : d.id = id) : Pricks id s (s.prickAll d) := by
  unfold State.prickAll
  split
  · have both : ∀ b : State × Desc × Bool, Pricks id s b.1 ∧ b.2.1.id = id →
        Pricks id s (if b.2.1.misdirected then (b.1.setDesc b.2.1).endDesc d.id St.badFormat 3 0 0
          else if b.2.2 then b.1.park { b.2.1 with seen := false } else b.1.prickFrom b.2.1 (d.ranges.length + 1) 0) := by
      rintro b ⟨hb, hbd⟩
      split
      · subst hd
        exact hb.trans ((pricks_setDesc _ hbd).trans (pricks_endDesc ..))
      split
      · exact hb.trans (pricks_park _ hbd)
      · exact hb.trans (pricks_prickFrom _ hbd ..)
    have h0 := bulkSeg_pricks s hd 0
    refine both _ ?_
    split
    · exact h0
    · have h1 := bulkSeg_pricks (s.bulkSeg d 0).1 h0.2 1
      exact ⟨h0.1.trans h1.1, h1.2⟩
  · exact pricks_prickFrom s hd ..

theorem desc_id {s : State} {d : Desc} (h : s.desc id = some d) : d.id = id := by
  have hid := List.find?_some h
  exact beq_iff_eq.mp hid

/-- Pricking a descriptor is a chain of steps of its pricking. -/
theorem pricks_prick (s : State) (id : Nat) : Pricks id s (s.prick id) := by
  unfold State.prick
  split
  · exact .refl
  next d h =>
    split
    · exact .refl
    · exact pricks_prickAll s (desc_id h)

theorem pricks_translateAgain (s : State) (id : Nat) : Pricks id s (s.translateAgain id) := by
  refine Pricks.trans (t := s.onDesc id _) ?_ (pricks_prick ..)
  exact .single (.desc s _ fun _ hd => hd)

/-! ## What pricking keeps -/

theorem forEach_keeps {α : Type} {P : State → Prop} {f : State → α → State} (l : List α) (h : ∀ s, ∀ a ∈ l, P s → P (f s a)) (s : State)
    (hs : P s) : P (State.forEach f l s) := by
  induction l generalizing s with
  | nil => exact hs
  | cons a l ih =>
    exact ih (fun s b hb => h s b (List.mem_cons_of_mem _ hb)) _ (h s a List.mem_cons_self hs)

theorem abandon_fe (s : State) (id : Nat) : (s.abandon id).fe = s.fe :=
  same_of_hide (abandon_hide (M := maskOfZones [.sp, .up, .fl]) rfl rfl rfl s id) .fe rfl

theorem abandon_xl (s : State) (id : Nat) : (s.abandon id).xl = s.xl :=
  same_of_hide (abandon_hide (M := maskOfZones [.sp, .up, .fl]) rfl rfl rfl s id) .xl rfl

theorem abandon_tel (s : State) (id : Nat) : (s.abandon id).tel = s.tel :=
  same_of_hide (abandon_hide (M := maskOfZones [.sp, .up, .fl]) rfl rfl rfl s id) .tel rfl

/-- Pricking changes no ring. -/
theorem PrickStep.rings {s t : State} (h : PrickStep id s t) : t.fe.rings = s.fe.rings := by
  cases h with
  | front f h => exact (h s.fe).2
  | leave => rw [abandon_fe]
  | count n h => rfl
  | send os => rfl
  | desc f h => rfl
  | xl f h => rfl

/-- Pricking keeps the invalidations at work, and makes no entry. -/
theorem PrickStep.xlKept {s t : State} (h : PrickStep id s t) : XlKept s.xl t.xl := by
  cases h with
  | xl f h => exact h
  | leave => exact .of_xc (by rw [abandon_xl]) (by rw [abandon_xl]) (by rw [abandon_xl])
  | front f h => exact .of_xc rfl rfl rfl
  | count n h => exact .of_xc rfl rfl rfl
  | send os => exact .of_xc rfl rfl rfl
  | desc f h => exact .of_xc rfl rfl rfl

/-- Pricking a descriptor leaves the others as they are. -/
theorem PrickStep.others {s t : State} (h : PrickStep id s t) : ∀ d ∈ t.fe.descs, d.id ≠ id → d ∈ s.fe.descs := by
  intro d hd hne
  cases h with
  | desc f h =>
    obtain ⟨d0, hd0, rfl⟩ := List.mem_map.mp hd
    by_cases h0 : d0.id = id
    · rw [if_pos h0] at hne
      exact absurd (h d0 h0) hne
    · rw [if_neg h0]
      exact hd0
  | front f h => exact (h s.fe).1 ▸ hd
  | leave => exact abandon_fe s id ▸ hd
  | count n h => exact hd
  | send os => exact hd
  | xl f h => exact hd

theorem XlKept.trans {x y z : Translation} (hxy : XlKept x y) (hyz : XlKept y z) : XlKept x z := by
  refine ⟨hyz.invals.trans hxy.invals, hyz.drvFault.trans hxy.drvFault, fun e he => ?_⟩
  obtain ⟨e1, he1, h1⟩ := hyz.entries e he
  obtain ⟨e0, he0, h0⟩ := hxy.entries e1 he1
  refine ⟨e0, he0, ?_⟩
  unfold UsedFrom at h0 h1 ⊢
  rw [h1, h0]

theorem Pricks.rings {s t : State} (h : Pricks id s t) : t.fe.rings = s.fe.rings :=
  h.keeps (P := fun u => u.fe.rings = s.fe.rings) (fun hstep hu => hstep.rings.trans hu) rfl

theorem Pricks.xlKept {s t : State} (h : Pricks id s t) : XlKept s.xl t.xl :=
  h.keeps (P := fun u => XlKept s.xl u.xl) (fun hstep hu => hu.trans hstep.xlKept) (.of_xc rfl rfl rfl)

theorem Pricks.others {s t : State} (h : Pricks id s t) : ∀ d ∈ t.fe.descs, d.id ≠ id → d ∈ s.fe.descs :=
  h.keeps (P := fun u => ∀ d ∈ u.fe.descs, d.id ≠ id → d ∈ s.fe.descs)
    (fun hstep hu d hd hne => hu d (hstep.others d hd hne) hne) fun _ hd _ => hd

end Sys2Proof.Proofs
end

section
/-!
PROOFS. O38: invalidations, driver structures and host reads that time out (R28, R107 to R109).
-/

namespace Sys2Proof.Proofs

open Sys2Proof Sys2Proof.Machine Sys2Proof.Laws

/-! ## Events while descriptors are pricked -/

/-- The counters on which an invalidation that is given up may count: 13, with 26 events between them. -/
def abortCounters : List Nat := Ctr.invalAbort :: ownCounters ++ prickCounters

theorem own_mem_abortCounters : ∀ c ∈ ownCounters, c ∈ abortCounters := by decide

theorem invalAbort_mem_abortCounters : Ctr.invalAbort ∈ abortCounters := by decide

theorem prick_mem_abortCounters : ∀ c ∈ prickCounters, c ∈ abortCounters := by decide

theorem Queues.refl (cs : List Nat) (t : Telem) : Queues cs [] t [] t := ⟨rfl, List.prefix_rfl, Nat.le_refl _⟩

theorem Queues.trans {cs : List Nat} {a b c : List TelOp} {t u v : Telem} (h : Queues cs a t b u) (h' : Queues cs b u c v) :
    Queues cs a t c v := ⟨h'.ring.trans h.ring, h.grows.trans h'.grows, Nat.le_trans h'.bound h.bound⟩

/-- Pricking only counts. -/
theorem PrickStep.queues {id : Nat} {s t : State} (h : PrickStep id s t) : Queues abortCounters [] s.tel [] t.tel := by
  cases h with
  | @count off n h =>
    have hcalm : ∀ o ∈ [TelOp.count off n], Calm abortCounters o := calm_cons (prick_mem_abortCounters off h) (calm_nil _)
    obtain ⟨hring, hgrows, hbound⟩ := tell_queues own_mem_abortCounters s [TelOp.count off n] hcalm (Nat.le_of_ble_eq_true rfl)
    exact ⟨hring, hgrows, hbound⟩
  | leave => rw [abandon_tel]; exact .refl ..
  | send os => exact .refl ..
  | desc f h => exact .refl ..
  | front f h => exact .refl ..
  | xl f h => exact .refl ..

theorem Pricks.queues {id : Nat} {s t : State} (h : Pricks id s t) : Queues abortCounters [] s.tel [] t.tel :=
  h.keeps (P := fun u => Queues abortCounters [] s.tel [] u.tel) (fun hstep hu => hu.trans hstep.queues) (.refl ..)

/-- An event that is told after counts, from a state reached by pricking, is raised. -/
theorem raised_of_tell {s u : State} (hq : Queues abortCounters [] s.tel [] u.tel) (ops : List TelOp)
    (hcalm : ∀ o ∈ ops, Calm abortCounters o) (hquiet : sumBy opEvents ops = 0) (hfew : sumBy opWeight ops ≤ 19000) (code ctx port addr : Nat) :
    State.raised s (u.tell (ops ++ [xlateEvent code ctx port addr])) code := by
  intro hon hroom
  obtain ⟨hring, ⟨l, hl⟩, hbound⟩ := hq
  have hclear := clearOn_le abortCounters s.tel
  have hlen : abortCounters.length = 13 := rfl
  have hspace : queueBound abortCounters ops u.tel < 256 := by
    simp only [queueBound, sumBy, hquiet] at hbound ⊢
    omega
  obtain ⟨m, hm, hmem⟩ := tell_event_queued own_mem_abortCounters u ops
    { code := BitVec.ofNat 32 code, ring := none, data := evData [(8, 4, ctx), (12, 4, port), (24, 8, addr)] } hcalm (by omega)
    (hring ▸ hon) hspace
  exact ⟨l ++ m, _, hm.trans (by rw [← hl, List.append_assoc]), List.mem_append_right l hmem, rfl⟩

/-! ## INVALIDATE_REQUEST -/

theorem overlaps_of_usedFrom {e e0 : XEntry} (h : UsedFrom e e0) (port pasid iova len : Nat) :
    e.overlaps port pasid iova len = e0.overlaps port pasid iova len ∧ e.stale = e0.stale := by
  rw [h]
  exact ⟨rfl, rfl⟩

theorem translateAll_xlKept (ids : List Nat) (s : State) : XlKept s.xl (State.forEach State.translateAgain ids s).xl :=
  forEach_keeps (P := fun u => XlKept s.xl u.xl) ids (fun u i _ hu => hu.trans (pricks_translateAgain u i).xlKept) s (.of_xc rfl rfl rfl)

/-- What an Invalidate Request makes of the cache and of the invalidations at work, before the descriptors translate again. -/
theorem invalRequest_marks (s : State) (port tag pasid iova len : Nat) (hroom : s.xl.invals.length < 32) (hup : s.cxlUp port = true)
    (hopen : s.pw.selvedge = false) :
    ∃ (ids : List Nat) (u : State) (waits : List Nat), s.invalRequest port tag pasid iova len = State.forEach State.translateAgain ids u ∧
      (∀ e ∈ u.xl.xc, e.overlaps port pasid iova len = true → e.stale = true) ∧
      u.xl.invals = s.xl.invals ++ [{ port := port, tag := tag, pasid := pasid, iova := iova, len := len, waits := waits }] := by
  unfold State.invalRequest
  rw [if_neg (by rw [decide_eq_false (Nat.not_le.mpr hroom), hup, hopen]; decide)]
  refine ⟨_, _, _, rfl, fun e he hov => ?_, rfl⟩
  obtain ⟨e0, -, rfl⟩ := List.mem_map.mp he
  split
  · rfl
  · next h => rw [if_neg h] at hov; exact absurd hov h

theorem invalRequest_stale (s : State) (port tag pasid iova len : Nat) (hroom : s.xl.invals.length < 32) (hup : s.cxlUp port = true)
    (hopen : s.pw.selvedge = false) :
    (∀ e ∈ (s.invalRequest port tag pasid iova len).xl.xc, e.overlaps port pasid iova len = true → e.stale = true) ∧
      ∃ v ∈ (s.invalRequest port tag pasid iova len).xl.invals,
        v.port = port ∧ v.tag = tag ∧ v.pasid = pasid ∧ v.iova = iova ∧ v.len = len := by
  obtain ⟨ids, u, waits, hreq, hstale, hinvals⟩ := invalRequest_marks s port tag pasid iova len hroom hup hopen
  have hkept := translateAll_xlKept ids u
  rw [hreq]
  constructor
  · intro e he hov
    obtain ⟨e0, he0, hused⟩ := hkept.entries e he
    obtain ⟨hsame, hmark⟩ := overlaps_of_usedFrom hused port pasid iova len
    exact hmark.trans (hstale e0 he0 (hsame ▸ hov))
  · exact ⟨_, by rw [hkept.invals, hinvals]; exact List.mem_append_right _ List.mem_cons_self, rfl, rfl, rfl, rfl, rfl⟩

/-! ## The Invalidate Completion -/

theorem inval_names {s : State} {port tag : Nat} {v : Inval}
    (h : s.xl.invals.find? (fun i => i.port == port && i.tag == tag) = some v) : v.port = port ∧ v.tag = tag := by
  have hboth := List.find?_some h
  obtain ⟨hport, htag⟩ := Bool.and_eq_true_iff.mp hboth
  exact ⟨beq_iff_eq.mp hport, beq_iff_eq.mp htag⟩

/-- The completion is sent, and the invalidation is at work no longer. -/
theorem invalEnd_done (s : State) (v : Inval) :
    Output.invalDone v.port v.tag ∈ (s.invalEnd v).out ∧ ∀ i ∈ (s.invalEnd v).xl.invals, ¬(i.port = v.port ∧ i.tag = v.tag) := by
  unfold State.invalEnd
  dsimp only
  constructor
  · have hgrew : ∀ (ids : List Nat) (u : State), u.out <:+ (State.forEach State.translateAgain ids u).out := fun ids u =>
      forEach_grew (u := u) _ (fun w i hw => translateAgain_grew w i hw) ids u (List.suffix_rfl)
    exact (hgrew _ _).subset List.mem_cons_self
  · rintro i hi ⟨hport, htag⟩
    rw [(translateAll_xlKept _ _).invals] at hi
    have hother : (!(i.port == v.port && i.tag == v.tag)) = true := (List.mem_filter.mp hi).2
    have hsame : (i.port == v.port && i.tag == v.tag) = true := Bool.and_eq_true_iff.mpr ⟨beq_iff_eq.mpr hport, beq_iff_eq.mpr htag⟩
    rw [hsame] at hother
    exact Bool.noConfusion hother

theorem invalDrained_out {s : State} {port tag : Nat} {v : Inval}
    (h : s.xl.invals.find? (fun i => i.port == port && i.tag == tag) = some v) :
    Output.invalDone port tag ∈ (s.invalDrained port tag).out := by
  obtain ⟨rfl, rfl⟩ := inval_names h
  unfold State.invalDrained
  rw [h]
  have hgrew : (s.invalEnd v).out <:+ (s.invalEnd v).retryParked.out := retryParked_grew (u := s.invalEnd v) _ List.suffix_rfl
  exact hgrew.subset (invalEnd_done s v).1

/-! ## INVAL_ABORT -/

/-- Every descriptor with this identifier has ended with this status. -/
def EndedWith (s : State) (i : Nat) (st : BitVec 8) : Prop := ∀ d ∈ s.fe.descs, d.id = i → d.stage = .finished ∧ d.status = st

theorem settle_descs (s : State) (id : Nat) (f : Desc → Desc) :
    (s.settle id f).fe.descs = s.fe.descs.map fun x => if x.id = id then { f x with stage := .finished } else x := rfl

/-- Stopping a descriptor's transfers ends it with the status. -/
theorem stopMoving_ends (s : State) (id : Nat) (st : BitVec 8) (done : Nat) (addr : Word64) (part : Bool) :
    EndedWith (s.stopMoving id st done addr part) id st := by
  intro d hd hid
  unfold State.stopMoving at hd
  rw [settle_descs] at hd
  obtain ⟨d0, -, rfl⟩ := List.mem_map.mp hd
  by_cases h : d0.id = id
  · rw [if_pos h]
    exact ⟨rfl, rfl⟩
  · rw [if_neg h] at hid
    exact absurd hid h

/-- Stopping one descriptor leaves the others as they are. -/
theorem stopMoving_others (s : State) (id : Nat) (st : BitVec 8) (done : Nat) (addr : Word64) (part : Bool) :
    ∀ d ∈ (s.stopMoving id st done addr part).fe.descs, d.id ≠ id → d ∈ s.fe.descs := by
  intro d hd hne
  unfold State.stopMoving at hd
  rw [settle_descs, abandon_fe] at hd
  obtain ⟨d0, hd0, rfl⟩ := List.mem_map.mp hd
  by_cases h : d0.id = id
  · rw [if_pos h] at hne
    exact absurd h hne
  · rw [if_neg h]
    exact hd0

theorem stopMoving_tel (s : State) (id : Nat) (st : BitVec 8) (done : Nat) (addr : Word64) (part : Bool) :
    (s.stopMoving id st done addr part).tel = s.tel := abandon_tel s id

/-- An invalidation that is given up stops each descriptor it waits for. -/
theorem invalDesc_ends (v : Inval) (s : State) (i : Nat) : EndedWith (State.invalDesc v s i) i St.xlateAbort := by
  unfold State.invalDesc
  split
  · next h =>
    intro d hd hid
    exact absurd (beq_iff_eq.mpr hid) (List.find?_eq_none.mp h d hd)
  · split <;> exact stopMoving_ends _ _ _ _ _ _

theorem invalDesc_others (v : Inval) (s : State) (i : Nat) : ∀ d ∈ (State.invalDesc v s i).fe.descs, d.id ≠ i → d ∈ s.fe.descs := by
  unfold State.invalDesc
  split
  · exact fun _ hd _ => hd
  · split <;> exact stopMoving_others _ _ _ _ _ _

theorem invalDesc_tel (v : Inval) (s : State) (i : Nat) : (State.invalDesc v s i).tel = s.tel := by
  unfold State.invalDesc
  split
  · rfl
  · split <;> exact stopMoving_tel ..

/-- Those stopped before stay so as another is. -/
theorem invalDesc_keeps (v : Inval) {s : State} {j : Nat} (h : EndedWith s j St.xlateAbort) (i : Nat) :
    EndedWith (State.invalDesc v s i) j St.xlateAbort := by
  by_cases hij : j = i
  · subst hij
    exact invalDesc_ends v s j
  · exact fun d hd hid => h d (invalDesc_others v s i d hd (hid ▸ hij)) hid

theorem invalDescs_end (v : Inval) (l : List Nat) (s : State) :
    ∀ j ∈ l, EndedWith (State.forEach (State.invalDesc v) l s) j St.xlateAbort := by
  induction l generalizing s with
  | nil => exact fun _ h => absurd h List.not_mem_nil
  | cons i l ih =>
    intro j hj
    rcases List.mem_cons.mp hj with rfl | hmem
    · exact forEach_keeps (P := fun u => EndedWith u j St.xlateAbort) l (fun u k _ hu => invalDesc_keeps v hu k) _ (invalDesc_ends v s j)
    · exact ih _ j hmem

theorem onDesc_keeps {s : State} {j : Nat} {st : BitVec 8} (h : EndedWith s j st) (i : Nat) {f : Desc → Desc}
    (hf : ∀ d, (f d).id = d.id ∧ (f d).stage = d.stage ∧ (f d).status = d.status) : EndedWith (s.onDesc i f) j st := by
  intro d hd hid
  obtain ⟨d0, hd0, rfl⟩ := List.mem_map.mp hd
  obtain ⟨hsame, hstage, hstatus⟩ := hf d0
  by_cases h0 : d0.id = i
  · rw [if_pos h0] at hid ⊢
    rw [hstage, hstatus]
    exact h d0 hd0 (hsame ▸ hid)
  · rw [if_neg h0] at hid ⊢
    exact h d0 hd0 hid

/-- A descriptor that has ended is pricked no more. -/
theorem prick_of_endedWith {s : State} {j : Nat} {st : BitVec 8} (h : EndedWith s j st) : s.prick j = s := by
  unfold State.prick
  split
  · rfl
  next d hd =>
    obtain ⟨hstage, -⟩ := h d (List.mem_of_find?_eq_some hd) (desc_id hd)
    rw [hstage]
    exact if_pos (Bool.or_true _)

theorem translateAgain_keeps {s : State} {j : Nat} {st : BitVec 8} (h : EndedWith s j st) (i : Nat) : EndedWith (s.translateAgain i) j st := by
  by_cases hij : j = i
  · subst hij
    unfold State.translateAgain
    have hopened := onDesc_keeps h j
      (f := fun d => { d with ranges := d.ranges.map fun r => if r.opens then { r with known := false } else r }) fun _ => ⟨rfl, rfl, rfl⟩
    rw [prick_of_endedWith hopened]
    exact hopened
  · exact fun d hd hid => h d ((pricks_translateAgain s i).others d hd (hid ▸ hij)) hid

theorem invalEnd_keeps {s : State} {j : Nat} {st : BitVec 8} (h : EndedWith s j st) (v : Inval) : EndedWith (s.invalEnd v) j st :=
  forEach_keeps (P := fun u => EndedWith u j st) _ (fun _ i _ hu => translateAgain_keeps hu i) _ h

theorem invalEnd_queues (s : State) (v : Inval) : Queues abortCounters [] s.tel [] (s.invalEnd v).tel :=
  forEach_keeps (P := fun u => Queues abortCounters [] s.tel [] u.tel) _ (fun u i _ hu => hu.trans (pricks_translateAgain u i).queues) _
    (.refl ..)

/-- INVAL_ABORT, where descriptors are still waited for. -/
theorem invalStop_eq {s : State} {port tag : Nat} {v : Inval} (h : s.xl.invals.find? (fun i => i.port == port && i.tag == tag) = some v)
    (hw : v.waits ≠ []) :
    ∃ ctx, s.invalStop port tag = ((State.forEach (State.invalDesc v) v.waits s).invalEnd v).tell
      ([.count Ctr.invalAbort 1] ++ [xlateEvent 0x403 ctx port v.iova]) := by
  unfold State.invalStop
  rw [h]
  exact ⟨_, if_neg fun hnone => hw (List.isEmpty_iff.mp hnone)⟩

theorem invalStop_done {s : State} {port tag : Nat} {v : Inval} (h : s.xl.invals.find? (fun i => i.port == port && i.tag == tag) = some v)
    (hw : v.waits ≠ []) :
    Output.invalDone port tag ∈ (s.invalStop port tag).out ∧ (∀ i ∈ (s.invalStop port tag).xl.invals, ¬(i.port = port ∧ i.tag = tag)) ∧
      State.raised s (s.invalStop port tag) 0x403 ∧ ∀ i ∈ v.waits, EndedWith (s.invalStop port tag) i St.xlateAbort := by
  obtain ⟨rfl, rfl⟩ := inval_names h
  obtain ⟨ctx, heq⟩ := invalStop_eq h hw
  have hstopped : (State.forEach (State.invalDesc v) v.waits s).tel = s.tel :=
    forEach_keeps (P := fun u => u.tel = s.tel) _ (fun u i _ hu => (invalDesc_tel v u i).trans hu) s rfl
  obtain ⟨hout, hgone⟩ := invalEnd_done (State.forEach (State.invalDesc v) v.waits s) v
  rw [heq]
  refine ⟨hout, hgone, ?_, fun i hi => invalEnd_keeps (invalDescs_end v v.waits s i hi) v⟩
  refine raised_of_tell (hstopped ▸ invalEnd_queues _ v) [.count Ctr.invalAbort 1] ?_ rfl (Nat.le_of_ble_eq_true rfl) _ _ _ _
  exact calm_cons invalAbort_mem_abortCounters (calm_nil _)

/-! ## Driver structures -/

theorem driverBack_xl (s : State) (which : Nat) : (s.driverBack which).xl = s.xl :=
  same_of_hide (driverBack_hide (M := maskOfZones [.fe, .up, .pw, .out]) rfl rfl rfl rfl s which) .xl rfl

theorem driverRetry_fails {s : State} {which : Nat} (h : s.xl.drvFault.contains which = false) (port : Nat) (iova : Word64) :
    which ∈ (s.driverRetry which port iova false).xl.drvFault ∧ State.raised s (s.driverRetry which port iova false) 0x401 := by
  have heq : s.driverRetry which port iova false = (s.onXl fun x => { x with drvFault := which :: x.drvFault }).tell
      ([] ++ [xlateEvent 0x401 0xFFFFFFFF port iova.toNat]) := by
    unfold State.driverRetry
    rw [h]
    rfl
  rw [heq]
  exact ⟨List.mem_cons_self, raised_of_tell (s := s) (.refl ..) [] (calm_nil _) rfl (Nat.zero_le _) _ _ _ _⟩

theorem driverRetry_succeeds (s : State) (which port : Nat) (iova : Word64) :
    (s.driverRetry which port iova true).xl.drvFault = s.xl.drvFault.filter fun w => w != which := by
  unfold State.driverRetry
  rw [if_pos rfl]
  split
  · rw [driverBack_xl]
    rfl
  · next h =>
    refine (List.filter_eq_self.mpr fun w hw => ?_).symm
    simp only [State.drvFails, List.contains_iff_mem] at h
    exact bne_iff_ne.mpr fun hwhich => h (hwhich ▸ hw)

/-! ## DMA_TIMEOUT -/

theorem stopMoving_ended {s : State} {d : Desc} (hd : d ∈ s.fe.descs) (st : BitVec 8) (done : Nat) (addr : Word64) (part : Bool) :
    (s.stopMoving d.id st done addr part).ended d.id st := by
  refine ⟨?_, stopMoving_ends _ _ _ _ _ _⟩
  unfold State.stopMoving
  rw [settle_descs, abandon_fe]
  refine ⟨_, List.mem_map_of_mem hd, ?_⟩
  rw [if_pos rfl]

theorem dmaTimeout_ended {s : State} {d : Desc} (h : s.desc d.id = some d) (hr : d.reads = true) (done : Nat) (addr : Word64) :
    (s.dmaTimeout d.id done addr).ended d.id St.dmaTimeout := by
  unfold State.dmaTimeout
  rw [h]
  dsimp only
  rw [if_pos hr]
  exact stopMoving_ended (s := s.aerSet _ 0) (List.mem_of_find?_eq_some h) ..

/-- Settles O38: the cache entries that a request names are stale, since pricking makes none; its completion is sent once, and nothing
that is sent is taken back; the descriptors it waits for end with XLATE_ABORT, and those are pricked no more. The event of an abort finds
room in a queue with 32 places: what else is told before it are counts on 13 counters, which raise two events each at most. -/
theorem invalidationsComplete : Obligations.InvalidationsComplete := by
  unfold Obligations.InvalidationsComplete
  refine ⟨?_, ?_, ?_, ?_, ?_, ?_⟩
  · exact fun port tag pasid iova len s hroom hup hopen => ⟨_, rfl, invalRequest_stale s port tag pasid iova len hroom hup hopen⟩
  · exact fun port tag v s h => ⟨_, rfl, invalDrained_out h⟩
  · exact fun port tag v s h hw => ⟨_, rfl, invalStop_done h hw⟩
  · exact fun which port iova s h => ⟨_, rfl, driverRetry_fails h port iova⟩
  · exact fun which port iova s => ⟨_, rfl, driverRetry_succeeds s which port iova⟩
  · exact fun d done addr s h hr => ⟨_, rfl, dmaTimeout_ended h hr done addr⟩

end Sys2Proof.Proofs
end

section
/-!
PROOFS. The rings when a host port is lost (R85): those it takes are paused, and what follows in the same command changes no ring.
-/

namespace Sys2Proof.Proofs

open Sys2Proof Sys2Proof.Machine Sys2Proof.Laws

/-! ## Operations that change no ring -/

theorem prick_rings (s : State) (id : Nat) : (s.prick id).fe.rings = s.fe.rings := (pricks_prick s id).rings

theorem forEach_rings {α : Type} {f : State → α → State} (h : ∀ s a, (f s a).fe.rings = s.fe.rings) (l : List α) (s : State) :
    (State.forEach f l s).fe.rings = s.fe.rings :=
  forEach_keeps (P := fun u => u.fe.rings = s.fe.rings) l (fun u a _ hu => (h u a).trans hu) s rfl

theorem retryParked_rings (s : State) : s.retryParked.fe.rings = s.fe.rings := forEach_rings prick_rings _ s

theorem letIn_rings (s : State) (id : Nat) : (s.letIn id).fe.rings = s.fe.rings := by
  unfold State.letIn
  split
  · rfl
  split
  · rfl
  split
  · rfl
  · exact prick_rings s id

theorem endLoad_fe (s : State) : s.endLoad.fe = s.fe :=
  same_of_hide (endLoad_hide (M := maskOfZones [.regs, .qz]) rfl rfl s) .fe rfl

theorem replayFree_rings (s : State) : s.replayFree.fe.rings = s.fe.rings := by
  unfold State.replayFree
  rw [endLoad_fe]
  exact forEach_rings (fun u (d : Desc) => letIn_rings (u.setDesc (d.again u)) d.id) _ s

theorem prefetchEnd_rings (s : State) (id n : Nat) (bad : List (Key × BitVec 8)) : (s.prefetchEnd id n bad).fe.rings = s.fe.rings := by
  unfold State.prefetchEnd
  split <;> rfl

theorem failGather_rings (s : State) (d : Desc) (p : Pooled) : (s.failGather d p).fe.rings = s.fe.rings := by
  unfold State.failGather
  split <;> rfl

theorem settleMember_rings (s : State) (w : PWin) (p : Pooled) : (s.settleMember w p).1.fe.rings = s.fe.rings := by
  unfold State.settleMember
  split
  · rfl
  split
  · split
    · exact prefetchEnd_rings ..
    · rfl
  split
  · rfl
  split
  · exact failGather_rings ..
  split
  · split <;> rfl
  split <;> rfl

theorem tidyWins_fe (s : State) : s.tidyWins.fe = s.fe := rfl

theorem settleWin_rings (s : State) (wid : Nat) : (s.settleWin wid).fe.rings = s.fe.rings := by
  unfold State.settleWin
  split
  · rfl
  · rw [tidyWins_fe]
    refine forEach_rings (fun u p => ?_) _ s
    dsimp only
    split
    · exact settleMember_rings u _ p
    · rfl

theorem loseFetch_fe (s : State) (wid : Nat) (a : Ask) : (s.loseFetch wid a).fe = s.fe :=
  same_of_hide (loseFetch_hide (M := maskOfZones [.sp, .ch, .gs, .fl, .tel, .out]) rfl rfl rfl rfl rfl rfl s wid a) .fe rfl

theorem loseRows_rings (s : State) (p : Nat) : (s.loseRows p).fe.rings = s.fe.rings := by
  unfold State.loseRows
  refine forEach_rings (fun u w => ?_) _ s
  rw [settleWin_rings]
  refine forEach_rings (fun v a => ?_) _ u
  rw [loseFetch_fe]

/-! ## The rings that a lost port takes -/

theorem mem_keys_of_mget {α : Type} {m : SMap α} {k : Nat} {v : α} (h : mget m k = some v) : k ∈ m.map (·.1) := by
  induction m with
  | nil => cases h
  | cons e m ih =>
    rw [mget] at h
    split at h
    · next hk => exact hk ▸ List.mem_cons_self
    · exact List.mem_cons_of_mem _ (ih h)

/-- A ring that is not DISABLED is one of those that are kept. -/
theorem mem_rings_of_losesRing {s : State} {p k : Nat} (h : s.losesRing p k = true) : k ∈ s.fe.rings.map (·.1) := by
  cases hk : mget s.fe.rings k with
  | some r => exact mem_keys_of_mget hk
  | none =>
    have hdef : s.ring k = {} := by
      unfold State.ring mgetD
      rw [hk]
      rfl
    have hno : s.losesRing p k = false := by
      unfold State.losesRing
      rw [hdef]
      rfl
    rw [hno] at h
    cases h

theorem onRing_pauses (s : State) (j k : Nat) (h : j = k ∨ (s.ring k).state = .pausedHost) :
    ((s.onRing j Ring.pauseHost).ring k).state = .pausedHost := by
  change (mgetD (mset s.fe.rings j (Ring.pauseHost (s.ring j))) k {}).state = .pausedHost
  by_cases hjk : j = k
  · subst hjk
    rw [mgetD_mset_self]
    rfl
  · rw [mgetD_mset_ne _ _ _ _ _ hjk]
    exact h.resolve_left hjk

theorem pauseAll_pauses (ks : List Nat) (s : State) (k : Nat) (h : k ∈ ks ∨ (s.ring k).state = .pausedHost) :
    ((State.forEach (fun s k => s.onRing k Ring.pauseHost) ks s).ring k).state = .pausedHost := by
  induction ks generalizing s with
  | nil => exact h.resolve_left List.not_mem_nil
  | cons j ks ih =>
    refine ih _ ?_
    rcases h with h | h
    · rcases List.mem_cons.mp h with rfl | h
      · exact .inr (onRing_pauses s k k (.inl rfl))
      · exact .inl h
    · exact .inr (onRing_pauses s j k (.inr h))

theorem ring_congr {s t : State} (h : t.fe.rings = s.fe.rings) (k : Nat) : t.ring k = s.ring k := by
  unfold State.ring
  rw [h]

theorem losesRing_congr {s t : State} (h : t.fe.rings = s.fe.rings) (p k : Nat) : t.losesRing p k = s.losesRing p k := by
  unfold State.losesRing State.ring
  rw [h]

theorem freeRingCmd_fe (s : State) (p : Nat) : (s.freeRingCmd p).fe = s.fe :=
  same_of_hide (freeRingCmd_hide (M := maskOfZones [.regs]) rfl s p) .fe rfl

/-- The rings that the loss of a port takes are paused. -/
theorem losePort_pauses {s : State} {p k : Nat} (h : s.losesRing p k = true) : ((s.losePort p).ring k).state = .pausedHost := by
  have hrings : (s.freeRingCmd p).fe.rings = s.fe.rings := congrArg FrontEnd.rings (freeRingCmd_fe s p)
  have hk : k ∈ ((s.freeRingCmd p).fe.rings.map (·.1)).filter fun k => (s.freeRingCmd p).losesRing p k := by
    refine List.mem_filter.mpr ⟨?_, ?_⟩
    · rw [hrings]
      exact mem_rings_of_losesRing h
    · rw [losesRing_congr hrings]
      exact h
  unfold State.losePort
  dsimp only
  rw [ring_congr (loseRows_rings _ p)]
  exact pauseAll_pauses _ _ k (.inl hk)

end Sys2Proof.Proofs
end

section
/-!
PROOFS. O39, the host ports: their loss, the reset of their function, and their training (R29, R41, R85, R374).
-/

namespace Sys2Proof.Proofs

open Sys2Proof Sys2Proof.Machine Sys2Proof.Laws

/-! ## What follows the loss of a port leaves the ports as they are -/

/-- Parts of the state that descriptors and rows touch as they go on or are lost: not the ports, nor what Steta keeps, nor the fuses. -/
def goOnZones : List Zone := [.regs, .fe, .xl, .sp, .qz, .up, .ch, .gs, .fl, .tel, .out]

theorem losePort_same (s : State) (p : Nat) : State.sameBut goOnZones s (s.losePort p) :=
  sameBut_of_hide (losePort_hide rfl rfl rfl rfl rfl rfl rfl rfl rfl rfl s p)

theorem goOn_same (s : State) : State.sameBut goOnZones s s.replayFree.retryParked :=
  sameBut_of_hide ((retryParked_hide rfl rfl rfl rfl rfl rfl rfl _).trans (replayFree_hide rfl rfl rfl rfl rfl rfl rfl rfl rfl rfl s))

theorem goOn_rings (s : State) : s.replayFree.retryParked.fe.rings = s.fe.rings := (retryParked_rings _).trans (replayFree_rings s)

theorem losePort_pw (s : State) (p : Nat) : (s.losePort p).pw = s.pw := losePort_same s p .pw rfl

theorem losePort_fuses (s : State) (p : Nat) : (s.losePort p).fuses = s.fuses := losePort_same s p .fuses rfl

theorem goOn_pw (s : State) : s.replayFree.retryParked.pw = s.pw := goOn_same s .pw rfl

theorem goOn_fuses (s : State) : s.replayFree.retryParked.fuses = s.fuses := goOn_same s .fuses rfl

theorem cxlUp_congr {s t : State} (hf : t.fuses = s.fuses) {p : Nat} (hp : mget t.pw.cxl p = mget s.pw.cxl p) : t.cxlUp p = s.cxlUp p := by
  unfold State.cxlUp State.cxlPort mgetD
  rw [hf, hp]

/-! ## HOST_LINK_DOWN -/

theorem exec_hostLinkDown {s : State} (h : s.exchanging = false) (port : Nat) : exec (.hostLinkDown port) s = .next (s.linkDown port) := by
  change Host.Outcome.next (State.rest s.exchanging (s.linkDown port)) = _
  rw [h]
  rfl

theorem linkDown_pw {s : State} {p : Nat} (h : s.cxlUp p = true) :
    (s.linkDown p).pw = { s.pw with cxl := mset s.pw.cxl p { cache := (s.cxlPort p).cache }, fns := mdel s.pw.fns p } := by
  unfold State.linkDown
  rw [if_pos h, goOn_pw, onPw_pw, losePort_pw]

theorem linkDown_down {s : State} {p : Nat} (h : s.cxlUp p = true) : (s.linkDown p).cxlUp p = false := by
  unfold State.cxlUp State.cxlPort
  rw [linkDown_pw h, mgetD_mset_self, Bool.and_false]

theorem linkDown_pauses {s : State} {p k : Nat} (h : s.cxlUp p = true) (hk : s.losesRing p k = true) :
    ((s.linkDown p).ring k).state = .pausedHost := by
  unfold State.linkDown
  rw [if_pos h, ring_congr (goOn_rings _)]
  exact losePort_pauses hk

/-! ## FUNCTION_LEVEL_RESET -/

theorem exec_functionLevelReset {s : State} (h : s.exchanging = false) (port : Nat) (f : FnSetup) :
    exec (.functionLevelReset ⟨port, f⟩) s = .next (s.funcReset port f) := by
  change Host.Outcome.next (State.rest s.exchanging (s.funcReset port f)) = _
  rw [h]
  rfl

theorem endSession_fe (s : State) (p : Path) : (s.endSession p).fe = s.fe :=
  same_of_hide (endSession_hide (M := maskOfZones [.tel, .st]) rfl rfl s p) .fe rfl

theorem goOn_endSession_same (s : State) (p : Path) : State.sameBut (.st :: goOnZones) s (s.replayFree.retryParked.endSession p) :=
  sameBut_of_hide ((endSession_hide rfl rfl _ p).trans
    ((retryParked_hide rfl rfl rfl rfl rfl rfl rfl _).trans (replayFree_hide rfl rfl rfl rfl rfl rfl rfl rfl rfl rfl s)))

theorem pget_pdel {α : Type} (l : List (Path × α)) (p : Path) : pget (pdel l p) p = none := by
  induction l with
  | nil => rfl
  | cons e l ih =>
    unfold pdel at ih ⊢
    rw [List.filter_cons]
    split
    · next h =>
      obtain ⟨q, v⟩ := e
      rw [pget, if_neg (of_decide_eq_true h)]
      exact ih
    · exact ih

theorem auditAdd_sessions (s : State) (role path key result action target : Nat) (data : Bytes) :
    (s.auditAdd role path key result action target data).st.sessions = s.st.sessions := by
  unfold State.auditAdd
  split
  · split <;> rfl
  · rfl

theorem endSession_ends (s : State) (p : Path) : pget (s.endSession p).st.sessions p = none := by
  unfold State.endSession
  split
  · next h => exact h
  · rw [auditAdd_sessions]
    exact pget_pdel s.st.sessions p

/-- A reset function: its port's rings pause, and the host sets it up anew. -/
theorem funcReset_eq {s : State} {p : Nat} (h : s.cxlUp p = true) (f : FnSetup) :
    s.funcReset p f = ((((s.losePort p).onPw fun w => { w with fns := mset w.fns p (fnMade f) }).replayFree).retryParked).endSession
      (if p = 0 then .fn0 else .fn1) := if_pos h

theorem funcReset_pw {s : State} {p : Nat} (h : s.cxlUp p = true) (f : FnSetup) :
    (s.funcReset p f).pw = { s.pw with fns := mset s.pw.fns p (fnMade f) } := by
  rw [funcReset_eq h]
  exact (goOn_endSession_same _ _ .pw rfl).trans (by rw [onPw_pw, losePort_pw])

theorem funcReset_fuses {s : State} {p : Nat} (h : s.cxlUp p = true) (f : FnSetup) : (s.funcReset p f).fuses = s.fuses := by
  rw [funcReset_eq h]
  exact (goOn_endSession_same _ _ .fuses rfl).trans (by rw [onPw_fuses, losePort_fuses])

theorem funcReset_pauses {s : State} {p k : Nat} (h : s.cxlUp p = true) (f : FnSetup) (hk : s.losesRing p k = true) :
    ((s.funcReset p f).ring k).state = .pausedHost := by
  rw [funcReset_eq h, ring_congr (congrArg FrontEnd.rings (endSession_fe ..)), ring_congr (goOn_rings _)]
  exact losePort_pauses hk

theorem funcReset_done {s : State} {p : Nat} (h : s.cxlUp p = true) (f : FnSetup) :
    (s.funcReset p f).cxlUp p = true ∧ pget (s.funcReset p f).st.sessions (if p = 0 then .fn0 else .fn1) = none ∧
      mget (s.funcReset p f).pw.fns p = some (fnMade f) ∧ ∀ k, s.losesRing p k = true → ((s.funcReset p f).ring k).state = .pausedHost := by
  refine ⟨?_, ?_, ?_, fun k hk => funcReset_pauses h f hk⟩
  · rw [cxlUp_congr (funcReset_fuses h f) (by rw [funcReset_pw h f]), h]
  · rw [funcReset_eq h]
    exact endSession_ends ..
  · rw [funcReset_pw h f]
    exact mget_mset_self ..

/-! ## HOST_PORT_TRAINING -/

theorem noteTraining_same (s : State) (port : Nat) (q : Port) : State.sameBut [.tel] s (s.noteTraining port q) :=
  sameBut_of_hide (noteTraining_hide rfl s port q)

theorem hostTrain_pw {s : State} {p : Nat} (hopen : s.pw.selvedge = false) (hdown : s.cxlUp p = false)
    (hp : p < Member.cxlPorts s.fuses.member) (res : LinkRes) :
    (s.hostTrain p res).pw = { s.pw with cxl := mset s.pw.cxl p (portOf res), cxlEnum := s.pw.cxlEnum || (portOf res).up,
                                         fns := mset s.pw.fns p (fnOf res) } ∧
      (s.hostTrain p res).fuses = s.fuses := by
  unfold State.hostTrain
  dsimp only
  have hreleased : s.released = true := congrArg not hopen
  rw [if_neg (by rw [hreleased, decide_eq_false (Nat.not_le.mpr hp)]; decide), if_neg (by rw [hdown]; decide)]
  have hnote := noteTraining_same (s.onPw fun w =>
    { w with cxl := mset w.cxl p (portOf res), cxlEnum := w.cxlEnum || (portOf res).up, fns := mset w.fns p (fnOf res) }) p (portOf res)
  have hpw := hnote .pw rfl
  have hfuses := hnote .fuses rfl
  split
  · exact ⟨(goOn_pw _).trans hpw, (goOn_fuses _).trans hfuses⟩
  · exact ⟨hpw, hfuses⟩

theorem portOf_up {res : LinkRes} (hup : res.up = true) (hw : res.width ≠ 0) (hr : 2 ≤ res.rate) (hf : res.flit = true) :
    (portOf res).up = true := by
  unfold portOf
  rw [if_pos (by rw [hup, hf, decide_eq_true hw, decide_eq_true hr]; decide)]

theorem hostTrain_done {s : State} {p : Nat} (hopen : s.pw.selvedge = false) (hdown : s.cxlUp p = false)
    (hp : p < Member.cxlPorts s.fuses.member) (res : LinkRes) :
    mget (s.hostTrain p res).pw.cxl p = some (portOf res) ∧
      (res.up = true → res.width ≠ 0 → 2 ≤ res.rate → res.flit = true →
        (s.hostTrain p res).cxlUp p = true ∧ (s.hostTrain p res).pw.cxlEnum = true) := by
  obtain ⟨hpw, hfuses⟩ := hostTrain_pw hopen hdown hp res
  refine ⟨by rw [hpw]; exact mget_mset_self .., fun hup hw hr hf => ?_⟩
  have hport := portOf_up hup hw hr hf
  constructor
  · unfold State.cxlUp State.cxlPort
    rw [hpw, hfuses, mgetD_mset_self, hport]
    exact Bool.and_eq_true_iff.mpr ⟨decide_eq_true hp, rfl⟩
  · rw [hpw, hport]
    exact Bool.or_true _

end Sys2Proof.Proofs
end

section
/-!
PROOFS. O39, the fabric ports: training, credits and drain (R23, R24, R41, R87); and O39 itself.
-/

namespace Sys2Proof.Proofs

open Sys2Proof Sys2Proof.Machine Sys2Proof.Laws

/-! ## Messages that leave -/

theorem mgetD_mmod {α : Type} (m : SMap α) (k j : Nat) (f : α → α) (d : α) :
    mgetD (mmod m k f) j d = if k = j ∧ (mget m k).isSome then f (mgetD m j d) else mgetD m j d := by
  unfold mmod
  cases hk : mget m k with
  | none => exact (if_neg fun h => Bool.false_ne_true h.2).symm
  | some v =>
    by_cases hkj : k = j
    · subst hkj
      rw [mgetD_mset_self, if_pos ⟨rfl, rfl⟩, mgetD, hk]
      rfl
    · rw [mgetD_mset_ne _ _ _ _ _ hkj, if_neg fun h => hkj h.1]

theorem noteLeave_pw (s : State) (p : Nat) (o : Output) : (s.noteLeave p o).pw = s.pw :=
  same_of_hide (noteLeave_hide (M := maskOfZones [.fe, .up, .out]) rfl rfl rfl s p o) .pw rfl

theorem fabLeave_pw (s : State) (p : Nat) (o : Output) :
    (s.fabLeave p o).pw = { s.pw with fab := mmod s.pw.fab p fun f => { f with oreq := f.oreq - 1 } } := by
  unfold State.fabLeave
  exact noteLeave_pw ..

/-- What messages that leave keep: NODE, and the ports' states. -/
def PortsKept (s t : State) : Prop := t.pw.node = s.pw.node ∧ ∀ j, (t.fabPort j).status = (s.fabPort j).status

theorem PortsKept.trans {s t u : State} (h : PortsKept s t) (h' : PortsKept t u) : PortsKept s u :=
  ⟨h'.1.trans h.1, fun j => (h'.2 j).trans (h.2 j)⟩

theorem PortsKept.of_pw {s t : State} (h : t.pw = s.pw) : PortsKept s t := by
  unfold PortsKept State.fabPort
  rw [h]
  exact ⟨rfl, fun _ => rfl⟩

theorem fabLeave_kept (s : State) (p : Nat) (o : Output) : PortsKept s (s.fabLeave p o) := by
  unfold PortsKept State.fabPort
  rw [fabLeave_pw]
  refine ⟨rfl, fun j => ?_⟩
  rw [mgetD_mmod]
  split <;> rfl

theorem fabPump_kept (n : Nat) (s : State) : PortsKept s (State.fabPump n s) := by
  induction n generalizing s with
  | zero => exact .of_pw rfl
  | succ n ih =>
    unfold State.fabPump
    split
    · next o l p _ _ =>
      have hout : PortsKept s (s.onPw fun w => { w with fabOut := l }) := ⟨rfl, fun _ => rfl⟩
      exact hout.trans ((fabLeave_kept _ p o).trans (ih _))
    · exact .of_pw rfl

/-! ## Training -/

theorem announce_pw (s : State) (k : Nat) : (s.announce k).pw = s.pw := by
  unfold State.announce
  dsimp only
  split <;> rfl

theorem fabPort_mset (s : State) (n : Nat) (f : Fab) (j : Nat) :
    (s.onPw fun w => { w with fab := mset w.fab n f }).fabPort j = if n = j then f else s.fabPort j := by
  unfold State.fabPort
  by_cases h : n = j
  · subst h
    rw [if_pos rfl]
    exact mgetD_mset_self ..
  · rw [if_neg h]
    exact mgetD_mset_ne _ _ _ _ _ h

theorem send_fabPort (s : State) (o : Output) (n : Nat) : (s.send o).fabPort n = s.fabPort n := rfl

/-- A training port shows PRESENT once it has credits of both channels, and keeps training until then. -/
theorem fabPresent_status {s : State} {n : Nat} {f : Fab} (hport : s.fabPort n = f) (h : f.status = .training) :
    (s.fabPresent n).pw.node = s.pw.node ∧
      ((s.fabPresent n).fabPort n).status = (if 0 < f.oreq ∧ 0 < f.orsp then .present else .training) := by
  subst hport
  unfold State.fabPresent
  dsimp only
  by_cases hcred : 0 < (s.fabPort n).oreq ∧ 0 < (s.fabPort n).orsp
  · rw [if_pos (Bool.and_eq_true_iff.mpr ⟨beq_iff_eq.mpr h, decide_eq_true hcred⟩), if_pos hcred]
    have hnear : ∀ (l : List (Nat × Ring)) (u : State), PortsKept u (State.forEach (fun s e => s.announce e.1) l u) := fun l u =>
      forEach_keeps (P := PortsKept u) l (fun v e _ hv => hv.trans (.of_pw (announce_pw v e.1))) u (.of_pw rfl)
    obtain ⟨hnode, hports⟩ := (hnear _ (((s.onPw fun w =>
      { w with fab := mset w.fab n { s.fabPort n with status := .present } }).send (.fabStatus n .present)).fabGrant n)).trans
        (fabPump_kept _ _)
    refine ⟨hnode, (hports n).trans ?_⟩
    exact congrArg Fab.status ((fabPort_mset s n { s.fabPort n with status := .present } n).trans (if_pos rfl))
  · rw [if_neg fun hc => hcred (of_decide_eq_true (Bool.and_eq_true_iff.mp hc).2), if_neg hcred]
    exact ⟨rfl, h⟩

theorem fabTrain_done {s : State} {n : Nat} (hopen : s.pw.selvedge = false) (hn : n < Member.fabPorts s.fuses.member)
    (habs : (s.fabPort n).status = .absent) (node : BitVec 16) (oreq orsp : Nat) :
    (s.fabTrain n node oreq orsp).pw.node = s.pw.node.or (some node) ∧
      ((s.fabTrain n node oreq orsp).fabPort n).status = (if 0 < oreq ∧ 0 < orsp then .present else .training) := by
  unfold State.fabTrain State.fabBegin
  have hreleased : s.released = true := congrArg not hopen
  rw [if_pos (Bool.and_eq_true_iff.mpr ⟨Bool.and_eq_true_iff.mpr ⟨hreleased, decide_eq_true hn⟩, beq_iff_eq.mpr habs⟩)]
  exact fabPresent_status ((send_fabPort ..).trans ((fabPort_mset ..).trans (if_pos rfl))) rfl

/-! ## Drain -/

theorem fabRest_busy (s : State) (p q : Nat) : (s.fabRest p).fabBusy q = s.fabBusy q := by
  unfold State.fabRest
  split <;> rfl

/-- A port that drains with no response outstanding. -/
theorem drained_iff (s : State) (p : Nat) :
    ((s.fabPort p).status == .draining && !(s.fabBusy p)) = true ↔ (s.fabPort p).status = .draining ∧ s.fabBusy p = false := by
  simp only [Bool.and_eq_true, beq_iff_eq, Bool.not_eq_true']

theorem fabRest_port (s : State) (p j : Nat) :
    (s.fabRest p).fabPort j = if p = j ∧ (s.fabPort j).status = .draining ∧ s.fabBusy j = false then {} else s.fabPort j := by
  unfold State.fabRest
  by_cases hrest : (s.fabPort p).status = .draining ∧ s.fabBusy p = false
  · rw [if_pos ((drained_iff s p).mpr hrest)]
    by_cases hpj : p = j
    · subst hpj
      rw [if_pos ⟨rfl, hrest⟩]
      exact (fabPort_mset s p {} p).trans (if_pos rfl)
    · rw [if_neg fun h => hpj h.1]
      exact (fabPort_mset s p {} j).trans (if_neg hpj)
  · rw [if_neg fun h => hrest ((drained_iff s p).mp h), if_neg]
    rintro ⟨rfl, h⟩
    exact hrest h

/-- Of the ports that are gone through, those that drain with no response outstanding show ABSENT; the others are as they were. -/
theorem fabRests_port (l : List Nat) (s : State) (j : Nat) :
    (State.forEach State.fabRest l s).fabPort j =
      if j ∈ l ∧ (s.fabPort j).status = .draining ∧ s.fabBusy j = false then {} else s.fabPort j := by
  induction l generalizing s with
  | nil => exact (if_neg fun h => List.not_mem_nil h.1).symm
  | cons p l ih =>
    have hstep := fabRest_port s p j
    rw [State.forEach, ih, fabRest_busy]
    by_cases hrest : (s.fabPort j).status = .draining ∧ s.fabBusy j = false
    · by_cases hpj : p = j
      · rw [if_pos ⟨hpj, hrest⟩] at hstep
        rw [hstep, ite_self, if_pos ⟨hpj ▸ List.mem_cons_self, hrest⟩]
      · rw [if_neg fun h => hpj h.1] at hstep
        rw [hstep]
        simp only [List.mem_cons, Ne.symm hpj, false_or]
    · rw [if_neg fun h => hrest h.2] at hstep
      rw [hstep, if_neg fun h => hrest h.2, if_neg fun h => hrest h.2]

theorem fabSettle_port {s : State} {j : Nat} (h : (s.fabPort j).status ≠ .draining) : s.fabSettle.fabPort j = s.fabPort j := by
  unfold State.fabSettle
  rw [fabRests_port, if_neg fun hj => h hj.2.1]

theorem fabUp_iff {s : State} {n : Nat} : s.fabUp n = true ↔ (s.fabPort n).status = .present := by
  unfold State.fabUp
  exact beq_iff_eq

theorem fabUp_listed {s : State} {n : Nat} (h : s.fabUp n = true) : (mget s.pw.fab n).isSome := by
  have hstatus := fabUp_iff.mp h
  unfold State.fabPort mgetD at hstatus
  cases hn : mget s.pw.fab n with
  | some f => rfl
  | none =>
    rw [hn] at hstatus
    cases hstatus

/-- A port begins to drain. -/
def drainBegun (s : State) (n : Nat) : State :=
  (s.onPw fun w => { w with fab := mmod w.fab n fun f => { f with status := .draining } }).send (.fabStatus n .draining)

theorem drainBegun_busy (s : State) (n j : Nat) : (drainBegun s n).fabBusy j = s.fabBusy j := rfl

theorem drainBegun_port {s : State} {n : Nat} (h : s.fabUp n = true) (j : Nat) :
    (drainBegun s n).fabPort j = if n = j then { s.fabPort j with status := .draining } else s.fabPort j := by
  refine (mgetD_mmod s.pw.fab n j _ {}).trans ?_
  simp only [fabUp_listed h, and_true]
  rfl

theorem fabDrain_eq {s : State} {n : Nat} (h : s.fabUp n = true) : s.fabDrain n = (drainBegun s n).fabSettle := if_pos h

theorem fabDrain_done {s : State} {n : Nat} (hup : s.fabUp n = true) (hn : n < Member.fabPorts s.fuses.member) :
    ((s.fabDrain n).fabPort n).status = (if s.fabBusy n then .draining else .absent) ∧
      ∀ j, j ≠ n → (s.fabPort j).status ≠ .draining → (s.fabDrain n).fabPort j = s.fabPort j := by
  rw [fabDrain_eq hup]
  constructor
  · have hmem : n ∈ List.range (Member.fabPorts (drainBegun s n).fuses.member) := List.mem_range.mpr hn
    unfold State.fabSettle
    rw [fabRests_port, drainBegun_port hup, if_pos rfl, drainBegun_busy]
    cases s.fabBusy n with
    | false => exact congrArg Fab.status (if_pos ⟨hmem, rfl, rfl⟩)
    | true => exact congrArg Fab.status (if_neg fun h => Bool.noConfusion h.2.2)
  · intro j hj hstatus
    have hsame := (drainBegun_port hup j).trans (if_neg (Ne.symm hj))
    exact (fabSettle_port (by rw [hsame]; exact hstatus)).trans hsame

/-! ## Credits -/

theorem exec_fabricCreditReturn {s : State} (h : s.exchanging = false) (port : Nat) (resp : Bool) (k : Nat) :
    exec (.fabricCreditReturn port resp k) s = .next (s.creditReturn port resp k) := by
  change Host.Outcome.next (State.rest s.exchanging (s.creditReturn port resp k)) = _
  rw [h]
  rfl

/-- A port's credits with k more, of the response channel or of the request channel. -/
def creditFab (f : Fab) (resp : Bool) (k : Nat) : Fab := if resp then { f with orsp := f.orsp + k } else { f with oreq := f.oreq + k }

/-- A port has its new credits. -/
def credited (s : State) (n : Nat) (resp : Bool) (k : Nat) : State :=
  s.onPw fun w => { w with fab := mset w.fab n (creditFab (s.fabPort n) resp k) }

theorem creditFab_fields (f : Fab) (resp : Bool) (k : Nat) :
    (creditFab f resp k).status = f.status ∧ (creditFab f resp k).oreq = f.oreq + (if resp then 0 else k) ∧
      (creditFab f resp k).orsp = f.orsp + (if resp then k else 0) := by
  cases resp <;> exact ⟨rfl, rfl, rfl⟩

theorem credited_port (s : State) (n : Nat) (resp : Bool) (k j : Nat) :
    (credited s n resp k).fabPort j = if n = j then creditFab (s.fabPort n) resp k else s.fabPort j := fabPort_mset ..

theorem credited_self (s : State) (n : Nat) (resp : Bool) (k : Nat) : (credited s n resp k).fabPort n = creditFab (s.fabPort n) resp k :=
  (credited_port ..).trans (if_pos rfl)

/-- Credits for a port that is in service let what waits for them leave. -/
theorem creditReturn_up {s : State} {n : Nat} (h : s.fabUp n = true) (resp : Bool) (k : Nat) :
    s.creditReturn n resp k = if resp then (credited s n resp k).rspPump.fabSettle else State.fabPump s.pw.fabOut.length (credited s n resp k) := by
  have hstatus := fabUp_iff.mp h
  unfold State.creditReturn
  dsimp only
  rw [if_neg (by rw [hstatus]; decide), if_neg (by rw [hstatus]; decide)]
  rfl

/-- Credits for a port that trains initialise it. -/
theorem creditReturn_training {s : State} {n : Nat} (h : (s.fabPort n).status = .training) (resp : Bool) (k : Nat) :
    s.creditReturn n resp k = (credited s n resp k).fabPresent n := by
  unfold State.creditReturn
  dsimp only
  rw [if_neg (by rw [h]; decide), if_pos h]
  rfl

theorem creditReturn_adds {s : State} {n : Nat} (h : s.fabUp n = true) (hout : s.pw.fabOut = []) (hrsp : s.pw.fabRsp = []) (resp : Bool)
    (k : Nat) : (s.creditReturn n resp k).fabPort n = creditFab (s.fabPort n) resp k := by
  have hself := credited_self s n resp k
  rw [creditReturn_up h]
  cases resp with
  | false =>
    rw [hout]
    exact hself
  | true =>
    have hpump : (credited s n true k).rspPump.fabPort n = creditFab (s.fabPort n) true k := by
      unfold State.rspPump
      rw [show (credited s n true k).pw.fabRsp = [] from hrsp]
      exact hself
    rw [if_pos rfl, fabSettle_port, hpump]
    rw [hpump, (creditFab_fields ..).1, fabUp_iff.mp h]
    decide

theorem creditReturn_present {s : State} {n : Nat} {resp : Bool} {k : Nat} (h : (s.fabPort n).status = .training)
    (hreq : 0 < (s.fabPort n).oreq + (if resp then 0 else k)) (hrsp : 0 < (s.fabPort n).orsp + (if resp then k else 0)) :
    (s.creditReturn n resp k).fabUp n = true := by
  obtain ⟨hstatus, horeq, horsp⟩ := creditFab_fields (s.fabPort n) resp k
  have hself := credited_self s n resp k
  rw [fabUp_iff, creditReturn_training h, (fabPresent_status hself (hstatus.trans h)).2]
  exact if_pos ⟨horeq ▸ hreq, horsp ▸ hrsp⟩

/-- Where no port had a credit, the port that gets one is the one a message is offered to. -/
theorem credited_fabFirst {s : State} {n k : Nat} (h : s.fabUp n = true) (hn : n < Member.fabPorts s.fuses.member) (hk : 0 < k)
    (hnone : s.fabFirst = none) : (credited s n false k).fabFirst = some n := by
  have hself := credited_self s n false k
  have hoffers : ((credited s n false k).fabUp n && decide (0 < ((credited s n false k).fabPort n).oreq)) = true := by
    have hcred : 0 < (creditFab (s.fabPort n) false k).oreq := Nat.lt_of_lt_of_le hk (Nat.le_add_left ..)
    unfold State.fabUp
    rw [hself, (creditFab_fields ..).1, fabUp_iff.mp h, decide_eq_true hcred]
    rfl
  cases hfirst : (credited s n false k).fabFirst with
  | none => exact absurd hoffers (List.find?_eq_none.mp hfirst n (List.mem_range.mpr hn))
  | some m =>
    have hm := List.find?_some hfirst
    by_cases hnm : n = m
    · rw [hnm]
    · have hsame : (credited s n false k).fabPort m = s.fabPort m := (credited_port ..).trans (if_neg hnm)
      unfold State.fabUp at hm
      rw [hsame] at hm
      exact absurd hm (List.find?_eq_none.mp hnone m (List.mem_of_find?_eq_some hfirst))

theorem creditReturn_message {s : State} {n k : Nat} {o : Output} {l : List Output} (h : s.fabUp n = true)
    (hn : n < Member.fabPorts s.fuses.member) (hk : 0 < k) (hwait : s.pw.fabOut = o :: l) (hnone : s.fabFirst = none) :
    o.onPort n ∈ (s.creditReturn n false k).out := by
  have hpump : State.fabPump (l.length + 1) (credited s n false k) =
      State.fabPump l.length (((credited s n false k).onPw fun w => { w with fabOut := l }).fabLeave n o) := by
    rw [State.fabPump, credited_fabFirst h hn hk hnone, show (credited s n false k).pw.fabOut = o :: l from hwait]
  rw [creditReturn_up h, hwait]
  change o.onPort n ∈ (State.fabPump (l.length + 1) (credited s n false k)).out
  rw [hpump]
  generalize (credited s n false k).onPw (fun w => { w with fabOut := l }) = u
  have hgrew : (u.fabLeave n o).out <:+ (State.fabPump l.length (u.fabLeave n o)).out :=
    fabPump_grew (u := u.fabLeave n o) l.length _ List.suffix_rfl
  exact hgrew.subset List.mem_cons_self

theorem rspSend_leaves {s : State} {p : Nat} (h : (s.fabPort p).orsp ≠ 0) (o : Output) : o ∈ (s.rspSend p o).out := by
  unfold State.rspSend
  rw [if_neg h]
  exact List.mem_cons_self

theorem creditReturn_response {s : State} {n k : Nat} {o : Output} {l : List Output} (h : s.fabUp n = true) (hk : 0 < k)
    (hwait : s.pw.fabRsp = o :: l) (hport : o.ackPort = some n) : o ∈ (s.creditReturn n true k).out := by
  rw [creditReturn_up h, if_pos rfl]
  unfold State.rspPump
  rw [show (credited s n true k).pw.fabRsp = o :: l from hwait, State.forEach, hport]
  have hcred : (((credited s n true k).onPw fun w => { w with fabRsp := [] }).fabPort n).orsp ≠ 0 := by
    change ((credited s n true k).fabPort n).orsp ≠ 0
    rw [credited_self]
    exact Nat.ne_of_gt (Nat.lt_of_lt_of_le hk (Nat.le_add_left ..))
  have hleaves := rspSend_leaves hcred o
  change o ∈ (State.forEach _ l (State.rspSend _ n o)).fabSettle.out
  generalize ((credited s n true k).onPw fun w => { w with fabRsp := [] }).rspSend n o = u at hleaves ⊢
  have hgrew : u.out <:+ (State.forEach (fun s o => s.rspSend ((Output.ackPort o).getD 0) o) l u).fabSettle.out :=
    fabSettle_grew (u := u) _ (forEach_grew _ (fun v a hv => rspSend_grew v _ a hv) l u List.suffix_rfl)
  exact hgrew.subset hleaves

/-- Settles O39: the rings that a lost or reset host port takes are paused, and what goes on in the same command changes no ring and no port;
a fabric port's state changes as it trains and drains, and messages that leave take only its credits. -/
theorem portsComeAndGo : Obligations.PortsComeAndGo := by
  unfold Obligations.PortsComeAndGo
  refine ⟨?_, ?_, ?_, ?_, ?_, ?_, ?_, ?_, ?_⟩
  · exact fun port s hup hno => ⟨_, exec_hostLinkDown hno port, linkDown_down hup, fun k hk => linkDown_pauses hup hk⟩
  · exact fun port f s hup hno => ⟨_, exec_functionLevelReset hno port f, funcReset_done hup f⟩
  · exact fun port res s hopen hdown hp => ⟨_, rfl, hostTrain_done hopen hdown hp res⟩
  · exact fun port oreq orsp node s hopen hp habs => ⟨_, rfl, fabTrain_done hopen hp habs node oreq orsp⟩
  · exact fun port s hup hp => ⟨_, rfl, fabDrain_done hup hp⟩
  · intro port k resp s hup hout hrsp hno
    obtain ⟨-, horeq, horsp⟩ := creditFab_fields (s.fabPort port) resp k
    exact ⟨_, exec_fabricCreditReturn hno port resp k, by rw [creditReturn_adds hup hout hrsp, horeq],
      by rw [creditReturn_adds hup hout hrsp, horsp]⟩
  · exact fun port k resp s htrain hreq hrsp hno => ⟨_, exec_fabricCreditReturn hno port resp k, creditReturn_present htrain hreq hrsp⟩
  · exact fun port k o l s hup hp hk hwait hnone hno =>
      ⟨_, exec_fabricCreditReturn hno port false k, creditReturn_message hup hp hk hwait hnone⟩
  · exact fun port k o l s hup hk hwait hport hno => ⟨_, exec_fabricCreditReturn hno port true k, creditReturn_response hup hk hwait hport⟩

end Sys2Proof.Proofs
end

section
/-!
PROOFS. What every command leaves as it was (O3), and that the output only grows (O5): each command's frame and each command's output, put
together over the commands.
-/

namespace Sys2Proof.Proofs

open Sys2Proof Sys2Proof.Machine Sys2Proof.Laws

/-! ## Frames -/

/-- A command keeps its own frame where it ends no exchange. -/
theorem exec_keeps {c : Instr} {s t : State} (hrest : (s.exchanging && mayRest c) = false) (h : exec c s = .next t) :
    hide (maskOfZones (zonesOf c)) t = hide (maskOfZones (zonesOf c)) s := by
  cases c with
  | enable => apply execEnable_hide (e := h) <;> rfl
  | disable => apply execDisable_hide (e := h) (hx := (Bool.and_true _).symm.trans hrest) <;> rfl
  | pause => apply execPause_hide (e := h) (hx := (Bool.and_true _).symm.trans hrest) <;> rfl
  | resume => apply execResume_hide (e := h) <;> rfl
  | reset => apply execReset_hide (e := h) (hx := (Bool.and_true _).symm.trans hrest) <;> rfl
  | dumpAll => apply execDumpAll_hide (e := h) <;> rfl
  | dumpOne => apply execDumpOne_hide (e := h) <;> rfl
  | eyeletSnoop => apply execEyeletSnoop_hide (e := h) <;> rfl
  | eyeletLineReturn => apply execEyeletLineReturn_hide (e := h) <;> rfl
  | ringOverrunRecordWrite => apply execRingOverrunRecordWrite_hide (e := h) <;> rfl
  | bar2DoorbellWrite => apply execBar2DoorbellWrite_hide (e := h) <;> rfl
  | bar2ReadBack => apply execBar2ReadBack_hide (e := h) <;> rfl
  | nearRingAnnouncement => apply execNearRingAnnouncement_hide (e := h) <;> rfl
  | ringTurn => apply execRingTurn_hide (e := h) <;> rfl
  | descriptorReadReturn => apply execDescriptorReadReturn_hide (e := h) (hx := (Bool.and_true _).symm.trans hrest) <;> rfl
  | completionReserve => apply execCompletionReserve_hide (e := h) <;> rfl
  | completionRecordWrite => apply execCompletionRecordWrite_hide (e := h) (hx := (Bool.and_true _).symm.trans hrest) <;> rfl
  | modTimeExpiry => apply execModTimeExpiry_hide (e := h) <;> rfl
  | nop => apply execNop_hide (e := h); rfl
  | marker => apply execMarker_hide (e := h) <;> rfl
  | fenceOrder => apply execFenceOrder_hide (e := h) <;> rfl
  | fenceVisible => apply execFenceVisible_hide (e := h) <;> rfl
  | wait => apply execWait_hide (e := h) <;> rfl
  | waitTimeout => apply execWaitTimeout_hide (e := h) <;> rfl
  | gatherPool => apply execGatherPool_hide (e := h) <;> rfl
  | gatherSeq => apply execGatherSeq_hide (e := h) <;> rfl
  | scatterGradLists => apply execScatterGradLists_hide (e := h) <;> rfl
  | scatterGradRows => apply execScatterGradRows_hide (e := h) <;> rfl
  | apply => apply execApply_hide (e := h) <;> rfl
  | setEpoch => apply execSetEpoch_hide (e := h) <;> rfl
  | flush => apply execFlush_hide (e := h) <;> rfl
  | tableLoadOpen => apply execTableLoadOpen_hide (e := h) <;> rfl
  | tableLoadFill => apply execTableLoadFill_hide (e := h) <;> rfl
  | tablePinFromBacking => apply execTablePinFromBacking_hide (e := h) <;> rfl
  | tablePinFromSrc => apply execTablePinFromSrc_hide (e := h) <;> rfl
  | tableEvictRows => apply execTableEvictRows_hide (e := h) <;> rfl
  | tableEvictUnpin => apply execTableEvictUnpin_hide (e := h) <;> rfl
  | tableEvictVersion => apply execTableEvictVersion_hide (e := h) <;> rfl
  | tableSwitchForward => apply execTableSwitchForward_hide (e := h) <;> rfl
  | tableSwitchAny => apply execTableSwitchAny_hide (e := h) <;> rfl
  | rowList => apply execRowList_hide (e := h) <;> rfl
  | rowRange => apply execRowRange_hide (e := h) <;> rfl
  | xlate => apply execXlate_hide (e := h) <;> rfl
  | sequential => apply execSequential_hide (e := h) <;> rfl
  | normal => apply execNormal_hide (e := h) <;> rfl
  | willneed => apply execWillneed_hide (e := h) <;> rfl
  | dontneed => apply execDontneed_hide (e := h) <;> rfl
  | bulkSpill => apply execBulkSpill_hide (e := h) <;> rfl
  | bulkFill => apply execBulkFill_hide (e := h) <;> rfl
  | bulkBurst => apply execBulkBurst_hide (e := h) <;> rfl
  | hostLinkDown => apply execHostLinkDown_hide (e := h) (hx := (Bool.and_true _).symm.trans hrest) <;> rfl
  | functionLevelReset => apply execFunctionLevelReset_hide (e := h) (hx := (Bool.and_true _).symm.trans hrest) <;> rfl
  | hostPortTraining => apply execHostPortTraining_hide (e := h) <;> rfl
  | fabricPortTraining => apply execFabricPortTraining_hide (e := h) <;> rfl
  | fabricPortDrain => apply execFabricPortDrain_hide (e := h) <;> rfl
  | ctxCfgWrite => apply execCtxCfgWrite_hide (e := h) <;> rfl
  | inval => apply execInval_hide (e := h) <;> rfl
  | invalDrain => apply execInvalDrain_hide (e := h) <;> rfl
  | mirrorReadReturn => apply execMirrorReadReturn_hide (e := h) <;> rfl
  | atsTranslationCompletion => apply execAtsTranslationCompletion_hide (e := h) <;> rfl
  | pageResponse => apply execPageResponse_hide (e := h) <;> rfl
  | pageResponseTimeout => apply execPageResponseTimeout_hide (e := h) <;> rfl
  | parkEntryFree => apply execParkEntryFree_hide (e := h) <;> rfl
  | invalidateRequest => apply execInvalidateRequest_hide (e := h) <;> rfl
  | invalidateDrained => apply execInvalidateDrained_hide (e := h) <;> rfl
  | invalAbort => apply execInvalAbort_hide (e := h) <;> rfl
  | xlateDriverRetry => apply execXlateDriverRetry_hide (e := h) <;> rfl
  | dmaTimeout => apply execDmaTimeout_hide (e := h) <;> rfl
  | define => apply execDefine_hide (e := h) <;> rfl
  | delete => apply execDelete_hide (e := h) <;> rfl
  | bands => apply execBands_hide (e := h) <;> rfl
  | partCfgWrite => apply execPartCfgWrite_hide (e := h) <;> rfl
  | retirement => apply execRetirement_hide (e := h) <;> rfl
  | retirementSweep => apply execRetirementSweep_hide (e := h) <;> rfl
  | retireRetry => apply execRetireRetry_hide (e := h) <;> rfl
  | retireStalled => apply execRetireStalled_hide (e := h) <;> rfl
  | regrade => apply execRegrade_hide (e := h) <;> rfl
  | windowStart => apply execWindowStart_hide (e := h) <;> rfl
  | packWaitExpiry => apply execPackWaitExpiry_hide (e := h); rfl
  | windowComplete => apply execWindowComplete_hide (e := h) <;> rfl
  | imapFull => apply execImapFull_hide (e := h) <;> rfl
  | runAheadScan => apply execRunAheadScan_hide (e := h) <;> rfl
  | imapRel => apply execImapRel_hide (e := h) <;> rfl
  | spoolGrant => apply execSpoolGrant_hide (e := h) <;> rfl
  | spoolFull => apply execSpoolFull_hide (e := h) <;> rfl
  | roundStart => apply execRoundStart_hide (e := h) <;> rfl
  | tilePositionsGrant => apply execTilePositionsGrant_hide (e := h) <;> rfl
  | bobbinGrant => apply execBobbinGrant_hide (e := h) <;> rfl
  | rowDelivery => apply execRowDelivery_hide (e := h) <;> rfl
  | tileDrain => apply execTileDrain_hide (e := h) <;> rfl
  | tileRel => apply execTileRel_hide (e := h) <;> rfl
  | load => apply execLoad_hide (e := h) <;> rfl
  | swap => apply execSwap_hide (e := h) <;> rfl
  | pillowReserve => apply execPillowReserve_hide (e := h) (hx := (Bool.and_true _).symm.trans hrest) <;> rfl
  | pillowFull => apply execPillowFull_hide (e := h) <;> rfl
  | remoteContribution => apply execRemoteContribution_hide (e := h) (hx := (Bool.and_true _).symm.trans hrest) <;> rfl
  | batchDiscard => apply execBatchDiscard_hide (e := h) (hx := (Bool.and_true _).symm.trans hrest) <;> rfl
  | batchAck => apply execBatchAck_hide (e := h) (hx := (Bool.and_true _).symm.trans hrest) <;> rfl
  | remoteAckTimeout => apply execRemoteAckTimeout_hide (e := h) (hx := (Bool.and_true _).symm.trans hrest) <;> rfl
  | mergeEvict => apply execMergeEvict_hide (e := h) <;> rfl
  | couchingRmw => apply execCouchingRmw_hide (e := h) <;> rfl
  | tier2RmwRetry => apply execTier2RmwRetry_hide (e := h) <;> rfl
  | wbAgeExpiry => apply execWbAgeExpiry_hide (e := h) <;> rfl
  | writeBack => apply execWriteBack_hide (e := h) <;> rfl
  | twinFull => apply execTwinFull_hide (e := h) <;> rfl
  | twinSpaceGrant => apply execTwinSpaceGrant_hide (e := h) <;> rfl
  | commit => apply execCommit_hide (e := h) <;> rfl
  | cacheWayGrant => apply execCacheWayGrant_hide (e := h) <;> rfl
  | agingSweep => apply execAgingSweep_hide (e := h) <;> rfl
  | loadIntervalEnd => apply execLoadIntervalEnd_hide (e := h) <;> rfl
  | migrationPublish => apply execMigrationPublish_hide (e := h) <;> rfl
  | replicationPublish => apply execReplicationPublish_hide (e := h) <;> rfl
  | bankAccess => apply execBankAccess_hide (e := h) <;> rfl
  | refreshBurst => apply execRefreshBurst_hide (e := h) <;> rfl
  | thermalSample => apply execThermalSample_hide (e := h) <;> rfl
  | retentionStep => apply execRetentionStep_hide (e := h) <;> rfl
  | retentionStepEnd => apply execRetentionStepEnd_hide (e := h); rfl
  | thermalTrip => apply execThermalTrip_hide (e := h) <;> rfl
  | bankStuck => apply execBankStuck_hide (e := h) <;> rfl
  | wcRetire => apply execWcRetire_hide (e := h) <;> rfl
  | rowRepair => apply execRowRepair_hide (e := h) <;> rfl
  | bankRepair => apply execBankRepair_hide (e := h) <;> rfl
  | replace => apply execReplace_hide (e := h) <;> rfl
  | fold => apply execFold_hide (e := h) <;> rfl
  | unfold => apply execUnfold_hide (e := h) <;> rfl
  | retrain => apply execRetrain_hide (e := h) <;> rfl
  | test => apply execTest_hide (e := h) <;> rfl
  | retire => apply execRetire_hide (e := h) <;> rfl
  | channelSwitch => apply execChannelSwitch_hide (e := h) <;> rfl
  | marginCheck => apply execMarginCheck_hide (e := h) <;> rfl
  | scrub => apply execScrub_hide (e := h) <;> rfl
  | autoAttach => apply execAutoAttach_hide (e := h) <;> rfl
  | nvmeSlotGrant => apply execNvmeSlotGrant_hide (e := h) <;> rfl
  | nvmeCompletion => apply execNvmeCompletion_hide (e := h) <;> rfl
  | nvmeCmdTimeout => apply execNvmeCmdTimeout_hide (e := h) <;> rfl
  | abortTimeout => apply execAbortTimeout_hide (e := h) <;> rfl
  | driveRemoval => apply execDriveRemoval_hide (e := h) <;> rfl
  | flowStall => apply execFlowStall_hide (e := h) <;> rfl
  | counterClear => apply execCounterClear_hide (e := h) <;> rfl
  | subtract => apply execSubtract_hide (e := h) <;> rfl
  | counterLowRead => apply execCounterLowRead_hide (e := h) <;> rfl
  | pllFault => apply execPllFault_hide (e := h) <;> rfl
  | referenceFault => apply execReferenceFault_hide (e := h) <;> rfl
  | refLossTimeout => apply execRefLossTimeout_hide (e := h) <;> rfl
  | pllAonFault => apply execPllAonFault_hide (e := h) <;> rfl
  | pmhRaise => apply execPmhRaise_hide (e := h) <;> rfl
  | pmhLower => apply execPmhLower_hide (e := h) <;> rfl
  | pmhEnterStandby => apply execPmhEnterStandby_hide (e := h) <;> rfl
  | pmhLeaveStandby => apply execPmhLeaveStandby_hide (e := h) <;> rfl
  | pmhOff => apply execPmhOff_hide (e := h) <;> rfl
  | pmhEmergAssert => apply execPmhEmergAssert_hide (e := h) <;> rfl
  | pmhEmergRelease => apply execPmhEmergRelease_hide (e := h) <;> rfl
  | pmhStepGnt => apply execPmhStepGnt_hide (e := h) <;> rfl
  | sliceGroupGate => apply execSliceGroupGate_hide (e := h); rfl
  | powerGood => apply execPowerGood_hide (e := h) <;> rfl
  | blockResetCmd => apply execBlockResetCmd_hide (e := h) <;> rfl
  | tapReset => apply execTapReset_hide (e := h); rfl
  | coreWatchdogExpiry => apply execCoreWatchdogExpiry_hide (e := h) <;> rfl
  | mpuFault => apply execMpuFault_hide (e := h) <;> rfl
  | voltageSample => apply execVoltageSample_hide (e := h) <;> rfl
  | plogProgram => apply execPlogProgram_hide (e := h); rfl
  | activationHealthWatch => apply execActivationHealthWatch_hide (e := h) <;> rfl
  | activationDeferEnd => apply execActivationDeferEnd_hide (e := h) <;> rfl
  | sessionTimeout => apply execSessionTimeout_hide (e := h) <;> rfl
  | lockoutEnd => apply execLockoutEnd_hide (e := h); rfl
  | getHealth => apply execGetHealth_hide (e := h) <;> rfl
  | readSensors => apply execReadSensors_hide (e := h) <;> rfl
  | logPos => apply execLogPos_hide (e := h) <;> rfl
  | plogRead => apply execPlogRead_hide (e := h) <;> rfl
  | auditRead => apply execAuditRead_hide (e := h) <;> rfl
  | auditHead => apply execAuditHead_hide (e := h) <;> rfl
  | coreRestart => apply execCoreRestart_hide (e := h) <;> rfl
  | authChallenge => apply execAuthChallenge_hide (e := h) <;> rfl
  | authResponse => apply execAuthResponse_hide (e := h) <;> rfl
  | authEnd => apply execAuthEnd_hide (e := h) <;> rfl
  | imgStage => apply execImgStage_hide (e := h) <;> rfl
  | imgActivate => apply execImgActivate_hide (e := h) <;> rfl
  | imgCommit => apply execImgCommit_hide (e := h) <;> rfl
  | imgRevert => apply execImgRevert_hide (e := h) <;> rfl
  | driveAttach => apply execDriveAttach_hide (e := h) <;> rfl
  | driveDetach => apply execDriveDetach_hide (e := h) <;> rfl
  | enrolInstaller => apply execEnrolInstaller_hide (e := h) <;> rfl
  | enrolOperator => apply execEnrolOperator_hide (e := h) <;> rfl
  | revokeOperator => apply execRevokeOperator_hide (e := h) <;> rfl
  | setLimit => apply execSetLimit_hide (e := h) <;> rfl
  | debugOpen => apply execDebugOpen_hide (e := h) <;> rfl
  | debugClose => apply execDebugClose_hide (e := h) <;> rfl
  | fuseProgram => apply execFuseProgram_hide (e := h) <;> rfl
  | returnDiag => apply execReturnDiag_hide (e := h) <;> rfl
  | entdaa => apply execEntdaa_hide (e := h) <;> rfl
  | setdasa => apply execSetdasa_hide (e := h) <;> rfl
  | rstdaa => apply execRstdaa_hide (e := h) <;> rfl
  | enec => apply execEnec_hide (e := h) <;> rfl
  | disec => apply execDisec_hide (e := h) <;> rfl
  | getpid => apply execGetpid_hide (e := h); rfl
  | getbcr => apply execGetbcr_hide (e := h); rfl
  | getdcr => apply execGetdcr_hide (e := h); rfl
  | getstatus => apply execGetstatus_hide (e := h) <;> rfl
  | getmwl => apply execGetmwl_hide (e := h); rfl
  | getmrl => apply execGetmrl_hide (e := h); rfl
  | setmwl => apply execSetmwl_hide (e := h) <;> rfl
  | setmrl => apply execSetmrl_hide (e := h) <;> rfl
  | rstact => apply execRstact_hide (e := h) <;> rfl
  | i3cPrivateRead => apply execI3cPrivateRead_hide (e := h); rfl
  | rowRecovery => apply execRowRecovery_hide (e := h) <;> rfl
  | sliceSpared => apply execSliceSpared_hide (e := h) <;> rfl
  | qxHandover => apply execQxHandover_hide (e := h) <;> rfl
  | inboundFabricError => apply execInboundFabricError_hide (e := h) (hx := (Bool.and_true _).symm.trans hrest) <;> rfl
  | query => apply execQuery_hide (e := h) <;> rfl
  | poisonClear => apply execPoisonClear_hide (e := h) <;> rfl
  | eventWrite => apply execEventWrite_hide (e := h) <;> rfl
  | eyeletBaseWrite => apply execEyeletBaseWrite_hide (e := h) <;> rfl
  | authorityWrite => apply execAuthorityWrite_hide (e := h) <;> rfl
  | registerWrite => apply execRegisterWrite_hide (e := h) <;> rfl
  | powerLoss => apply execPowerLoss_hide (e := h) <;> rfl
  | referenceReturn => apply execReferenceReturn_hide (e := h) <;> rfl
  | controllerResetComplete => apply execControllerResetComplete_hide (e := h) <;> rfl
  | fabricCreditReturn => apply execFabricCreditReturn_hide (e := h) (hx := (Bool.and_true _).symm.trans hrest) <;> rfl
  | priCapabilityEnable => apply execPriCapabilityEnable_hide (e := h) <;> rfl
  | reservedStateRequest => apply execReservedStateRequest_hide (e := h) <;> rfl
  | doubleFault => apply execDoubleFault_hide (e := h) <;> rfl

/-- A command with which an exchange may end keeps what no reset rebuilds. -/
theorem exec_keeps_of_mayRest {c : Instr} {s t : State} (hrest : mayRest c = true) (h : exec c s = .next t) :
    hide (maskOfZones ([.free, .out] ++ Zone.resets)) t = hide (maskOfZones ([.free, .out] ++ Zone.resets)) s := by
  cases c with
  | disable => apply execDisable_hideAll (e := h) <;> rfl
  | pause => apply execPause_hideAll (e := h) <;> rfl
  | reset => apply execReset_hideAll (e := h) <;> rfl
  | descriptorReadReturn => apply execDescriptorReadReturn_hideAll (e := h) <;> rfl
  | completionRecordWrite => apply execCompletionRecordWrite_hideAll (e := h) <;> rfl
  | hostLinkDown => apply execHostLinkDown_hideAll (e := h) <;> rfl
  | functionLevelReset => apply execFunctionLevelReset_hideAll (e := h) <;> rfl
  | pillowReserve => apply execPillowReserve_hideAll (e := h) <;> rfl
  | remoteContribution => apply execRemoteContribution_hideAll (e := h) <;> rfl
  | batchDiscard => apply execBatchDiscard_hideAll (e := h) <;> rfl
  | batchAck => apply execBatchAck_hideAll (e := h) <;> rfl
  | remoteAckTimeout => apply execRemoteAckTimeout_hideAll (e := h) <;> rfl
  | inboundFabricError => apply execInboundFabricError_hideAll (e := h) <;> rfl
  | fabricCreditReturn => apply execFabricCreditReturn_hideAll (e := h) <;> rfl
  | _ => exact absurd hrest Bool.false_ne_true

/-- Settles O3: a command with which an open exchange ends keeps what no reset rebuilds, and any other keeps its own frame. -/
theorem everyCommandKeepsItsFrame : Obligations.EveryCommandKeepsItsFrame := by
  unfold Obligations.EveryCommandKeepsItsFrame
  intro c s t h
  unfold zonesAt
  split
  · next hends => exact sameBut_of_hide (exec_keeps_of_mayRest (Bool.and_eq_true_iff.mp hends).2 h)
  · next hrest => exact sameBut_of_hide (exec_keeps (eq_false_of_ne_true hrest) h)

/-! ## The output -/

/-- A command whose frame leaves the output out sends nothing. -/
theorem exec_sends_nothing {c : Instr} {s t : State} (hrest : mayRest c = false) (hout : (zonesOf c).contains .out = false)
    (h : exec c s = .next t) : t.out = s.out :=
  same_of_hide (exec_keeps (by rw [hrest, Bool.and_false]) h) .out hout

/-- A command only adds to the output. -/
theorem exec_grew {c : Instr} {s t : State} (h : exec c s = .next t) : s.out <:+ t.out := by
  have hs : Grew s (hide butOut s) := List.suffix_rfl
  cases c with
  | enable => exact execEnable_grew (e := h) (hs := hs)
  | disable => exact execDisable_grew (e := h) (hs := hs)
  | pause => exact execPause_grew (e := h) (hs := hs)
  | resume => exact execResume_grew (e := h) (hs := hs)
  | reset => exact execReset_grew (e := h) (hs := hs)
  | dumpAll => exact execDumpAll_grew (e := h) (hs := hs)
  | dumpOne => exact execDumpOne_grew (e := h) (hs := hs)
  | eyeletSnoop => exact execEyeletSnoop_grew (e := h) (hs := hs)
  | eyeletLineReturn => exact execEyeletLineReturn_grew (e := h) (hs := hs)
  | ringOverrunRecordWrite => exact execRingOverrunRecordWrite_grew (e := h) (hs := hs)
  | bar2DoorbellWrite => exact execBar2DoorbellWrite_grew (e := h) (hs := hs)
  | bar2ReadBack => exact execBar2ReadBack_grew (e := h) (hs := hs)
  | nearRingAnnouncement => exact execNearRingAnnouncement_grew (e := h) (hs := hs)
  | ringTurn => exact execRingTurn_grew (e := h) (hs := hs)
  | descriptorReadReturn => exact execDescriptorReadReturn_grew (e := h) (hs := hs)
  | completionReserve => exact execCompletionReserve_grew (e := h) (hs := hs)
  | completionRecordWrite => exact execCompletionRecordWrite_grew (e := h) (hs := hs)
  | modTimeExpiry => exact execModTimeExpiry_grew (e := h) (hs := hs)
  | marker => exact execMarker_grew (e := h) (hs := hs)
  | fenceOrder => exact execFenceOrder_grew (e := h) (hs := hs)
  | fenceVisible => exact execFenceVisible_grew (e := h) (hs := hs)
  | wait => exact execWait_grew (e := h) (hs := hs)
  | waitTimeout => exact execWaitTimeout_grew (e := h) (hs := hs)
  | gatherPool => exact execGatherPool_grew (e := h) (hs := hs)
  | gatherSeq => exact execGatherSeq_grew (e := h) (hs := hs)
  | scatterGradLists => exact execScatterGradLists_grew (e := h) (hs := hs)
  | scatterGradRows => exact execScatterGradRows_grew (e := h) (hs := hs)
  | flush => exact execFlush_grew (e := h) (hs := hs)
  | tableLoadOpen => exact execTableLoadOpen_grew (e := h) (hs := hs)
  | tableLoadFill => exact execTableLoadFill_grew (e := h) (hs := hs)
  | tablePinFromBacking => exact execTablePinFromBacking_grew (e := h) (hs := hs)
  | tablePinFromSrc => exact execTablePinFromSrc_grew (e := h) (hs := hs)
  | tableEvictRows => exact execTableEvictRows_grew (e := h) (hs := hs)
  | tableEvictUnpin => exact execTableEvictUnpin_grew (e := h) (hs := hs)
  | rowList => exact execRowList_grew (e := h) (hs := hs)
  | rowRange => exact execRowRange_grew (e := h) (hs := hs)
  | willneed => exact execWillneed_grew (e := h) (hs := hs)
  | dontneed => exact execDontneed_grew (e := h) (hs := hs)
  | bulkBurst => exact execBulkBurst_grew (e := h) (hs := hs)
  | hostLinkDown => exact execHostLinkDown_grew (e := h) (hs := hs)
  | functionLevelReset => exact execFunctionLevelReset_grew (e := h) (hs := hs)
  | hostPortTraining => exact execHostPortTraining_grew (e := h) (hs := hs)
  | fabricPortTraining => exact execFabricPortTraining_grew (e := h) (hs := hs)
  | fabricPortDrain => exact execFabricPortDrain_grew (e := h) (hs := hs)
  | ctxCfgWrite => exact execCtxCfgWrite_grew (e := h) (hs := hs)
  | inval => exact execInval_grew (e := h) (hs := hs)
  | invalDrain => exact execInvalDrain_grew (e := h) (hs := hs)
  | mirrorReadReturn => exact execMirrorReadReturn_grew (e := h) (hs := hs)
  | atsTranslationCompletion => exact execAtsTranslationCompletion_grew (e := h) (hs := hs)
  | pageResponse => exact execPageResponse_grew (e := h) (hs := hs)
  | pageResponseTimeout => exact execPageResponseTimeout_grew (e := h) (hs := hs)
  | parkEntryFree => exact execParkEntryFree_grew (e := h) (hs := hs)
  | invalidateRequest => exact execInvalidateRequest_grew (e := h) (hs := hs)
  | invalidateDrained => exact execInvalidateDrained_grew (e := h) (hs := hs)
  | invalAbort => exact execInvalAbort_grew (e := h) (hs := hs)
  | xlateDriverRetry => exact execXlateDriverRetry_grew (e := h) (hs := hs)
  | define => exact execDefine_grew (e := h) (hs := hs)
  | delete => exact execDelete_grew (e := h) (hs := hs)
  | bands => exact execBands_grew (e := h) (hs := hs)
  | partCfgWrite => exact execPartCfgWrite_grew (e := h) (hs := hs)
  | retirement => exact execRetirement_grew (e := h) (hs := hs)
  | retireRetry => exact execRetireRetry_grew (e := h) (hs := hs)
  | regrade => exact execRegrade_grew (e := h) (hs := hs)
  | windowStart => exact execWindowStart_grew (e := h) (hs := hs)
  | windowComplete => exact execWindowComplete_grew (e := h) (hs := hs)
  | runAheadScan => exact execRunAheadScan_grew (e := h) (hs := hs)
  | imapRel => exact execImapRel_grew (e := h) (hs := hs)
  | spoolGrant => exact execSpoolGrant_grew (e := h) (hs := hs)
  | roundStart => exact execRoundStart_grew (e := h) (hs := hs)
  | tilePositionsGrant => exact execTilePositionsGrant_grew (e := h) (hs := hs)
  | bobbinGrant => exact execBobbinGrant_grew (e := h) (hs := hs)
  | rowDelivery => exact execRowDelivery_grew (e := h) (hs := hs)
  | tileDrain => exact execTileDrain_grew (e := h) (hs := hs)
  | tileRel => exact execTileRel_grew (e := h) (hs := hs)
  | load => exact execLoad_grew (e := h) (hs := hs)
  | swap => exact execSwap_grew (e := h) (hs := hs)
  | pillowReserve => exact execPillowReserve_grew (e := h) (hs := hs)
  | remoteContribution => exact execRemoteContribution_grew (e := h) (hs := hs)
  | batchDiscard => exact execBatchDiscard_grew (e := h) (hs := hs)
  | batchAck => exact execBatchAck_grew (e := h) (hs := hs)
  | remoteAckTimeout => exact execRemoteAckTimeout_grew (e := h) (hs := hs)
  | couchingRmw => exact execCouchingRmw_grew (e := h) (hs := hs)
  | tier2RmwRetry => exact execTier2RmwRetry_grew (e := h) (hs := hs)
  | wbAgeExpiry => exact execWbAgeExpiry_grew (e := h) (hs := hs)
  | writeBack => exact execWriteBack_grew (e := h) (hs := hs)
  | twinSpaceGrant => exact execTwinSpaceGrant_grew (e := h) (hs := hs)
  | commit => exact execCommit_grew (e := h) (hs := hs)
  | cacheWayGrant => exact execCacheWayGrant_grew (e := h) (hs := hs)
  | migrationPublish => exact execMigrationPublish_grew (e := h) (hs := hs)
  | replicationPublish => exact execReplicationPublish_grew (e := h) (hs := hs)
  | thermalSample => exact execThermalSample_grew (e := h) (hs := hs)
  | retentionStep => exact execRetentionStep_grew (e := h) (hs := hs)
  | bankStuck => exact execBankStuck_grew (e := h) (hs := hs)
  | rowRepair => exact execRowRepair_grew (e := h) (hs := hs)
  | bankRepair => exact execBankRepair_grew (e := h) (hs := hs)
  | replace => exact execReplace_grew (e := h) (hs := hs)
  | fold => exact execFold_grew (e := h) (hs := hs)
  | unfold => exact execUnfold_grew (e := h) (hs := hs)
  | retrain => exact execRetrain_grew (e := h) (hs := hs)
  | test => exact execTest_grew (e := h) (hs := hs)
  | retire => exact execRetire_grew (e := h) (hs := hs)
  | channelSwitch => exact execChannelSwitch_grew (e := h) (hs := hs)
  | marginCheck => exact execMarginCheck_grew (e := h) (hs := hs)
  | scrub => exact execScrub_grew (e := h) (hs := hs)
  | autoAttach => exact execAutoAttach_grew (e := h) (hs := hs)
  | nvmeSlotGrant => exact execNvmeSlotGrant_grew (e := h) (hs := hs)
  | nvmeCompletion => exact execNvmeCompletion_grew (e := h) (hs := hs)
  | nvmeCmdTimeout => exact execNvmeCmdTimeout_grew (e := h) (hs := hs)
  | abortTimeout => exact execAbortTimeout_grew (e := h) (hs := hs)
  | driveRemoval => exact execDriveRemoval_grew (e := h) (hs := hs)
  | counterClear => exact execCounterClear_grew (e := h) (hs := hs)
  | subtract => exact execSubtract_grew (e := h) (hs := hs)
  | counterLowRead => exact execCounterLowRead_grew (e := h) (hs := hs)
  | pllFault => exact execPllFault_grew (e := h) (hs := hs)
  | refLossTimeout => exact execRefLossTimeout_grew (e := h) (hs := hs)
  | pllAonFault => exact execPllAonFault_grew (e := h) (hs := hs)
  | pmhRaise => exact execPmhRaise_grew (e := h) (hs := hs)
  | pmhLower => exact execPmhLower_grew (e := h) (hs := hs)
  | pmhEnterStandby => exact execPmhEnterStandby_grew (e := h) (hs := hs)
  | pmhLeaveStandby => exact execPmhLeaveStandby_grew (e := h) (hs := hs)
  | pmhOff => exact execPmhOff_grew (e := h) (hs := hs)
  | pmhEmergRelease => exact execPmhEmergRelease_grew (e := h) (hs := hs)
  | pmhStepGnt => exact execPmhStepGnt_grew (e := h) (hs := hs)
  | powerGood => exact execPowerGood_grew (e := h) (hs := hs)
  | blockResetCmd => exact execBlockResetCmd_grew (e := h) (hs := hs)
  | coreWatchdogExpiry => exact execCoreWatchdogExpiry_grew (e := h) (hs := hs)
  | mpuFault => exact execMpuFault_grew (e := h) (hs := hs)
  | activationHealthWatch => exact execActivationHealthWatch_grew (e := h) (hs := hs)
  | activationDeferEnd => exact execActivationDeferEnd_grew (e := h) (hs := hs)
  | getHealth => exact execGetHealth_grew (e := h) (hs := hs)
  | readSensors => exact execReadSensors_grew (e := h) (hs := hs)
  | logPos => exact execLogPos_grew (e := h) (hs := hs)
  | plogRead => exact execPlogRead_grew (e := h) (hs := hs)
  | auditRead => exact execAuditRead_grew (e := h) (hs := hs)
  | auditHead => exact execAuditHead_grew (e := h) (hs := hs)
  | coreRestart => exact execCoreRestart_grew (e := h) (hs := hs)
  | authChallenge => exact execAuthChallenge_grew (e := h) (hs := hs)
  | authResponse => exact execAuthResponse_grew (e := h) (hs := hs)
  | authEnd => exact execAuthEnd_grew (e := h) (hs := hs)
  | imgStage => exact execImgStage_grew (e := h) (hs := hs)
  | imgActivate => exact execImgActivate_grew (e := h) (hs := hs)
  | imgCommit => exact execImgCommit_grew (e := h) (hs := hs)
  | imgRevert => exact execImgRevert_grew (e := h) (hs := hs)
  | driveAttach => exact execDriveAttach_grew (e := h) (hs := hs)
  | driveDetach => exact execDriveDetach_grew (e := h) (hs := hs)
  | enrolInstaller => exact execEnrolInstaller_grew (e := h) (hs := hs)
  | enrolOperator => exact execEnrolOperator_grew (e := h) (hs := hs)
  | revokeOperator => exact execRevokeOperator_grew (e := h) (hs := hs)
  | setLimit => exact execSetLimit_grew (e := h) (hs := hs)
  | debugOpen => exact execDebugOpen_grew (e := h) (hs := hs)
  | debugClose => exact execDebugClose_grew (e := h) (hs := hs)
  | fuseProgram => exact execFuseProgram_grew (e := h) (hs := hs)
  | returnDiag => exact execReturnDiag_grew (e := h) (hs := hs)
  | entdaa => exact execEntdaa_grew (e := h) (hs := hs)
  | setdasa => exact execSetdasa_grew (e := h) (hs := hs)
  | rstdaa => exact execRstdaa_grew (e := h) (hs := hs)
  | enec => exact execEnec_grew (e := h) (hs := hs)
  | disec => exact execDisec_grew (e := h) (hs := hs)
  | getpid => exact execGetpid_grew (e := h) (hs := hs)
  | getbcr => exact execGetbcr_grew (e := h) (hs := hs)
  | getdcr => exact execGetdcr_grew (e := h) (hs := hs)
  | getstatus => exact execGetstatus_grew (e := h) (hs := hs)
  | getmwl => exact execGetmwl_grew (e := h) (hs := hs)
  | getmrl => exact execGetmrl_grew (e := h) (hs := hs)
  | setmwl => exact execSetmwl_grew (e := h) (hs := hs)
  | setmrl => exact execSetmrl_grew (e := h) (hs := hs)
  | rstact => exact execRstact_grew (e := h) (hs := hs)
  | i3cPrivateRead => exact execI3cPrivateRead_grew (e := h) (hs := hs)
  | rowRecovery => exact execRowRecovery_grew (e := h) (hs := hs)
  | qxHandover => exact execQxHandover_grew (e := h) (hs := hs)
  | inboundFabricError => exact execInboundFabricError_grew (e := h) (hs := hs)
  | query => exact execQuery_grew (e := h) (hs := hs)
  | poisonClear => exact execPoisonClear_grew (e := h) (hs := hs)
  | eventWrite => exact execEventWrite_grew (e := h) (hs := hs)
  | eyeletBaseWrite => exact execEyeletBaseWrite_grew (e := h) (hs := hs)
  | authorityWrite => exact execAuthorityWrite_grew (e := h) (hs := hs)
  | registerWrite => exact execRegisterWrite_grew (e := h) (hs := hs)
  | referenceReturn => exact execReferenceReturn_grew (e := h) (hs := hs)
  | controllerResetComplete => exact execControllerResetComplete_grew (e := h) (hs := hs)
  | fabricCreditReturn => exact execFabricCreditReturn_grew (e := h) (hs := hs)
  | priCapabilityEnable => exact execPriCapabilityEnable_grew (e := h) (hs := hs)
  | reservedStateRequest => exact execReservedStateRequest_grew (e := h) (hs := hs)
  | doubleFault => exact execDoubleFault_grew (e := h) (hs := hs)
  | _ => exact (exec_sends_nothing rfl rfl h).symm ▸ List.suffix_rfl

/-- Settles O5: an idle step sends nothing, and every command only adds to the output. -/
theorem everyStepOnlyAddsToTheOutput : Obligations.EveryStepOnlyAddsToTheOutput := by
  unfold Obligations.EveryStepOnlyAddsToTheOutput
  intro s t h
  unfold step at h
  split at h
  · cases h
    exact List.suffix_rfl
  · have hgrew := exec_grew h
    exact hgrew

end Sys2Proof.Proofs
end

section
/-!
PROOFS. Announcements (O11, O12): the indices that doorbells and near rings publish, and the lines of the eyelet array.
-/

namespace Sys2Proof.Proofs

open Sys2Proof Sys2Proof.Machine Sys2Proof.Laws

/-! ## Messages, and the front end -/

/-- A record is no read: no response to it is to come, and its sending changes nothing of the front end. -/
theorem fabSend_record_fe (s : State) (c slot : Nat) (b : Bytes) (r : Route) (w : WKind) : (s.fabSend (.record c slot b r w)).fe = s.fe := by
  unfold State.fabSend
  split <;> rfl

theorem ringSend_record_fe (s : State) (near : Bool) (c slot : Nat) (b : Bytes) (r : Route) (w : WKind) :
    (s.ringSend near (.record c slot b r w)).fe = s.fe := by
  unfold State.ringSend
  split
  · exact fabSend_record_fe ..
  · rfl

/-- A record slot is written: the producer index of its ring goes on by one, and nothing else of the front end changes. -/
theorem putSlot_fe (s : State) (c : Nat) (ord : Bool) (b : Bool → Bytes) :
    (s.putSlot c ord b).fe = (s.setRing c { s.ring c with idx := (s.ring c).idx + 1 }).fe := ringSend_record_fe ..

/-- A record is told: of the front end, at most its ring's count of records not told of changes. -/
theorem signal_fe (s : State) (c : Nat) (now : Bool) :
    (s.signal c now).fe = s.fe ∨ ∃ n, (s.signal c now).fe = (s.setRing c { s.ring c with unsig := n }).fe := by
  unfold State.signal
  dsimp only
  split
  · split
    · exact .inr ⟨0, rfl⟩
    · exact .inr ⟨_, rfl⟩
  · exact .inl rfl

theorem signal_but_rings (s : State) (c : Nat) (now : Bool) : (s.signal c now).fe = { s.fe with rings := (s.signal c now).fe.rings } := by
  rcases signal_fe s c now with h | ⟨n, h⟩
  · rw [h]
  · rw [h]
    rfl

theorem writeOverrun_but_rings (s : State) (k : Nat) : (s.writeOverrun k).fe = { s.fe with rings := (s.writeOverrun k).fe.rings } := by
  unfold State.writeOverrun
  rw [signal_but_rings, putSlot_fe]
  rfl

/-! ## New indices -/

theorem announce_but_announced (s : State) (k : Nat) : s.announce k = s.onFe fun f => { f with announced := (s.announce k).fe.announced } := by
  unfold State.announce
  dsimp only
  split <;> rfl

theorem raiseOverrun_lines (s : State) (k : Nat) : (s.raiseOverrun k).fe.lines = s.fe.lines := by
  unfold State.raiseOverrun
  refine iteInduction (motive := fun u : State => u.fe.lines = s.fe.lines) (fun _ => ?_) fun _ => rfl
  rw [writeOverrun_but_rings]
  rfl

/-- No index that software publishes touches a line. -/
theorem newIndex_lines (s : State) (k : Nat) (v : BitVec 32) : (s.newIndex k v).fe.lines = s.fe.lines := by
  unfold State.newIndex
  dsimp only
  generalize (if (s.ring k).state = .pausedHost then (s.ring k).hostFrom else (s.ring k).state) = st
  split
  · split
    · rfl
    · split <;> rfl
  split
  · rfl
  split
  · exact raiseOverrun_lines ..
  · rw [announce_but_announced]
    rfl

theorem announce_ring (s : State) (k j : Nat) : (s.announce k).ring j = s.ring j := by
  rw [announce_but_announced]
  rfl

theorem announce_out (s : State) (k : Nat) : (s.announce k).out = s.out := by
  rw [announce_but_announced]
  rfl

/-- A descriptor ring that is ACTIVE or PAUSED takes an index within it. -/
theorem newIndex_desc {s : State} {k : Nat} {v : BitVec 32} (hcpl : Ring.isCpl (s.ring k) = false)
    (hstate : (s.ring k).state = .active ∨ (s.ring k).state = .paused) (hin : (v - (s.ring k).idx).toNat ≤ Ring.size (s.ring k)) :
    ((s.newIndex k v).ring k).pub = v ∧ (s.newIndex k v).out = s.out := by
  have heq : s.newIndex k v = (s.setRing k { s.ring k with pub := v }).announce k := by
    unfold State.newIndex
    dsimp only
    rw [if_neg (by rw [hcpl]; decide), if_neg (by rcases hstate with h | h <;> rw [h] <;> exact Bool.false_ne_true),
      if_neg (by rw [decide_eq_false (Nat.not_lt.mpr hin)]; decide)]
  rw [heq]
  exact ⟨by rw [announce_ring, ring_setRing], by rw [announce_out]; rfl⟩

/-- A live completion ring takes a consumer index that is not ahead of its producer index. -/
theorem newIndex_cpl {s : State} {k : Nat} {v : BitVec 32} (hcpl : Ring.isCpl (s.ring k) = true) (hstate : (s.ring k).state ≠ .disabled)
    (hahead : consAhead (s.ring k).idx v = false) : s.newIndex k v = s.setRing k { s.ring k with pub := v } := by
  unfold State.newIndex
  dsimp only
  rw [if_pos hcpl, if_neg hstate, if_neg (by rw [hahead]; decide)]

/-! ## Eyelet lines -/

theorem snoop_marks {s : State} {port line : Nat} {l : EyeLine} (hcache : s.cxlCache port = true) (hheld : mget s.fe.lines line = some l)
    (hport : l.port = port) (hvalid : l.valid = true) (hdrv : s.drvFails 1 = false) :
    mget (s.snoop port line).fe.lines line = some { l with valid := false, snooped := true } ∧
      (s.snoop port line).out = .rdShared port line l.addr :: .snoopRsp port line :: s.out := by
  subst hport
  have heq : s.snoop l.port line = (((s.send (.snoopRsp l.port line)).onFe fun f =>
      { f with lines := mset f.lines line { l with valid := false, snooped := true } }).send (.rdShared l.port line l.addr)) := by
    unfold State.snoop
    rw [if_neg (by rw [hcache]; decide), hheld]
    dsimp only
    rw [if_pos (by rw [hvalid, decide_eq_true rfl]; rfl)]
    unfold State.readLine
    exact if_neg (Bool.not_eq_true _ ▸ hdrv)
  rw [heq]
  exact ⟨mget_mset_self .., rfl⟩

theorem takeWord_lines (s : State) (line : Nat) (l : EyeLine) (ws : List Word64) (i : Nat) :
    (s.takeWord line l ws i).fe.lines = s.fe.lines := by
  unfold State.takeWord
  exact iteInduction (motive := fun u : State => u.fe.lines = s.fe.lines) (fun _ => newIndex_lines ..) fun _ => rfl

theorem lineReturn_holds {s : State} {line : Nat} {l : EyeLine} (hheld : mget s.fe.lines line = some l) (hvalid : l.valid = false)
    (words : List Word64) : mget (s.lineReturn line words).fe.lines line =
      some { l with valid := true, words := words.take 8, snooped := false, fresh := [] } := by
  have hwords : ∀ u : State, (State.forEach (fun s i => s.takeWord line l (words.take 8) i) (List.range 8) u).fe.lines = u.fe.lines := fun u =>
    forEach_keeps (P := fun v => v.fe.lines = u.fe.lines) _ (fun v i _ hv => (takeWord_lines v line l _ i).trans hv) u rfl
  unfold State.lineReturn
  rw [hheld]
  dsimp only
  rw [if_neg (by rw [hvalid]; decide), hwords]
  split <;> exact mget_mset_self ..

/-- Settles O11: a snoop marks the line and reads it again; what a returned line publishes touches no line. -/
theorem eyeletLinesFollowTheHost : Obligations.EyeletLinesFollowTheHost := by
  unfold Obligations.EyeletLinesFollowTheHost
  exact ⟨fun port line l s hcache hheld hport hvalid hdrv => ⟨_, rfl, snoop_marks hcache hheld hport hvalid hdrv⟩,
    fun line words l s hheld hvalid => ⟨_, rfl, lineReturn_holds hheld hvalid words⟩⟩

/-! ## Doorbells, near rings and read-backs -/

theorem doorbell_publishes {s : State} {off size : Nat} {val : Word64} (hbar : s.barUp = true)
    (hfit : bar2Carries s.fuses.member off size = true) (htyp : (s.ring (off / 8)).typ = .hostDesc) (hdb : (s.ring (off / 8)).dbMode = true)
    (hstate : (s.ring (off / 8)).state = .active ∨ (s.ring (off / 8)).state = .paused) :
    s.doorbell off size val = s.newIndex (off / 8) (wordIdx val) := by
  have hlive : ((s.ring (off / 8)).state != .disabled) = true := by rcases hstate with h | h <;> rw [h] <;> rfl
  unfold State.doorbell Ring.isHost
  dsimp only
  rw [if_neg (by rw [hbar]; decide), hfit, htyp, hdb, hlive]
  rfl

theorem nearAnnounce_publishes {s : State} {port k : Nat} (hup : s.fabUp port = true) (hk : k < Member.rings s.fuses.member)
    (hnear : Ring.isHost (s.ring k) = false) (hstate : (s.ring k).state ≠ .disabled) (v : BitVec 32) :
    s.nearAnnounce port k v = (s.send (.credit port false 1)).newIndex k v := by
  have hlive : ((s.ring k).state != .disabled) = true := bne_iff_ne.mpr hstate
  have hk' : decide (k < Member.rings (s.send (.credit port false 1)).fuses.member) = true := decide_eq_true hk
  unfold State.nearAnnounce
  dsimp only
  rw [if_neg (by rw [hup]; decide), hk', hnear, hlive]
  rfl

theorem readBack_answers {s : State} {off : Nat} (hbar : s.barUp = true) (hreads : bar2Reads s.fuses.member off 8 = true) :
    s.readBack off 8 = (s.setRing (off / 8) { s.ring (off / 8) with unseen := 0 }).send
      (.backValue (off / 8) (Ring.backWord (s.ring (off / 8)))) := by
  unfold State.readBack
  rw [if_neg (by rw [hbar]; decide), if_pos hreads]
  rfl

/-- Settles O12: each announcement reaches its ring as a new index, which the ring takes; a read-back answers the ring's word. -/
theorem indicesArePublished : Obligations.IndicesArePublished := by
  unfold Obligations.IndicesArePublished
  refine ⟨?_, ?_, ?_, ?_⟩
  · intro off size val s hbar hfit htyp hdb hstate hin
    have hcpl : Ring.isCpl (s.ring (off / 8)) = false := by unfold Ring.isCpl; rw [htyp]; rfl
    refine ⟨_, rfl, ?_⟩
    rw [doorbell_publishes hbar hfit htyp hdb hstate]
    exact (newIndex_desc hcpl hstate hin).1
  · intro port k v s hup hk htyp hstate hin
    have hcpl : Ring.isCpl (s.ring k) = false := by unfold Ring.isCpl; rw [htyp]; rfl
    have hnear : Ring.isHost (s.ring k) = false := by unfold Ring.isHost; rw [htyp]; rfl
    have hlive : (s.ring k).state ≠ .disabled := by rcases hstate with h | h <;> rw [h] <;> decide
    refine ⟨_, rfl, ?_⟩
    rw [nearAnnounce_publishes hup hk hnear hlive]
    exact newIndex_desc (s := s.send (.credit port false 1)) hcpl hstate hin
  · intro port k v s hup hk htyp hstate hahead
    have hcpl : Ring.isCpl (s.ring k) = true := by unfold Ring.isCpl; rw [htyp]; rfl
    have hnear : Ring.isHost (s.ring k) = false := by unfold Ring.isHost; rw [htyp]; rfl
    refine ⟨_, rfl, ?_⟩
    rw [nearAnnounce_publishes hup hk hnear hstate, newIndex_cpl (s := s.send (.credit port false 1)) hcpl hstate hahead]
    exact ⟨congrArg Ring.pub (ring_setRing ..), rfl⟩
  · intro off s hbar hreads
    refine ⟨_, rfl, ?_⟩
    rw [readBack_answers hbar hreads]
    exact ⟨congrArg Ring.unseen (ring_setRing ..), rfl⟩

end Sys2Proof.Proofs
end

section
/-!
PROOFS. Ring commands (O9, O10): ENABLE gives the ring its entry and takes its line; DISABLE of a ring does not always leave it DRAINING.
-/

namespace Sys2Proof.Proofs

open Sys2Proof Sys2Proof.Machine Sys2Proof.Laws

/-! ## Lines that are not held yet -/

/-- A line of the eyelet array is not held, or is being read. -/
def LineUnread (s : State) (line : Nat) : Prop := ∀ l, mget s.fe.lines line = some l → l.valid = false

theorem takeLine_fe (s : State) (line p : Nat) (ws : List Word64) : (s.takeLine line p ws).fe =
    { s.fe with lines := mset s.fe.lines line { port := p, valid := false, words := ws, addr := s.lineAddr line } } := by
  unfold State.takeLine State.readLine
  dsimp only
  split <;> rfl

theorem fitLine_but_lines (s : State) (line : Nat) : (s.fitLine line).fe = { s.fe with lines := (s.fitLine line).fe.lines } := by
  unfold State.fitLine
  split
  · rw [takeLine_fe]
  · split
    · rfl
    · rw [takeLine_fe]
      rfl
  · rfl
  · rfl

/-- A ring's line follows it: of the front end, only lines change. -/
theorem fitRing_but_lines (s : State) (k : Nat) : (s.fitRing k).fe = { s.fe with lines := (s.fitRing k).fe.lines } := by
  unfold State.fitRing
  split
  · exact fitLine_but_lines ..
  · rfl

/-- A line that is taken is to be read first. -/
theorem fitRing_unread {s : State} {k : Nat} (h : mget s.fe.lines (k / 8) = none) : LineUnread (s.fitRing k) (k / 8) := by
  have hnone : LineUnread s (k / 8) := fun l hl => by rw [h] at hl; cases hl
  unfold State.fitRing
  split
  · unfold State.fitLine
    rw [h]
    split
    · intro l hl
      rw [takeLine_fe, mget_mset_self] at hl
      cases hl
      rfl
    · next heq => cases heq
    · next heq => cases heq
    · exact hnone
  · exact hnone

/-- A word of a line that is yet to be read publishes nothing. -/
theorem adoptWord_rings {s : State} {k : Nat} (h : LineUnread s (k / 8)) : (s.adoptWord k).fe.rings = s.fe.rings := by
  unfold State.adoptWord
  split
  · rfl
  next l hl =>
    dsimp only
    split
    · rfl
    · rw [if_neg (by rw [h l hl]; decide)]
      rfl

/-! ## The start of a ring command -/

/-- A ring command that software starts now, and that does not lack the ring table, runs in a state that differs from this one only in what
the start of a command changes. -/
theorem ringCmd_runs {s : State} {p : Path} (hstart : s.starts p Reg.ringCmd 31 1 false (some 2) = true) (hdrv : s.drvFails 0 = false)
    (k op : Nat) (run : State → State) : ∃ s1, s.ringCmd p k op run = run s1 ∧ hide startMask s1 = hide startMask s := by
  unfold State.ringCmd
  obtain ⟨s1, heq, hs1⟩ := command_runs hstart (BitVec.ofNat 64 (atBit k 17 0 + atBit op 4 20 + 2 ^ 31)) fun s =>
    if usesTable op && s.drvFails 0 then s.onSt fun t => { t with waitCore := Reg.ringCmd :: t.waitCore.erase Reg.ringCmd } else run s
  have hxl : s1.drvFails 0 = false := by
    unfold State.drvFails at hdrv ⊢
    rw [show s1.xl = s.xl from same_of_hide hs1 .xl rfl]
    exact hdrv
  refine ⟨s1, heq.trans (if_neg ?_), hs1⟩
  rw [hxl, Bool.and_false]
  exact Bool.false_ne_true

/-! ## ENABLE -/

theorem entryBad_congr {s t : State} (hf : t.fuses = s.fuses) (hp : t.pw = s.pw) (r : Ring) : t.entryBad r = s.entryBad r := by
  unfold State.entryBad State.cxlCache State.cxlUp State.cxlPort
  rw [hf, hp]

theorem homeUp_congr {s t : State} (hf : t.fuses = s.fuses) (hp : t.pw = s.pw) (r : Ring) : t.homeUp r = s.homeUp r := by
  unfold State.homeUp State.cxlUp State.cxlPort
  rw [hf, hp]

theorem cplBad_congr {s t : State} (hf : t.fuses = s.fuses) (hr : t.fe = s.fe) (k : Nat) (r : Ring) : t.cplBad k r = s.cplBad k r := by
  unfold State.cplBad State.ring
  rw [hf, hr]

theorem lineClash_congr {s t : State} (hr : t.fe = s.fe) (k : Nat) (r : Ring) : t.lineClash k r = s.lineClash k r := by
  unfold State.lineClash State.ring
  rw [hr]

/-- The ring that ENABLE makes of a DISABLED one and its entry. -/
def enabledRing (s : State) (k : Nat) (entry : Bytes) : Ring :=
  { ((s.ring k).configure entry).start entry with
    state := if s.homeUp ((s.ring k).configure entry) then .active else .portDown, hostFrom := .disabled }

/-- ENABLE of an entry that passes its checks sets the one ring. -/
theorem enableRing_rings {s : State} {p : Path} {k : Nat} {entry : Bytes} (hk : k < Member.rings s.fuses.member)
    (hstate : (s.ring k).state = .disabled) (hentry : s.entryBad ((s.ring k).configure entry) = false)
    (hcpl : s.cplBad k ((s.ring k).configure entry) = RingRes.done) (hclash : s.lineClash k ((s.ring k).configure entry) = false)
    (hline : mget s.fe.lines (k / 8) = none) :
    (s.enableRing p k entry).fe.rings = (s.setRing k (enabledRing s k entry)).fe.rings := by
  have heq : s.enableRing p k entry = (((s.setRing k (enabledRing s k entry)).fitRing k).adoptWord k).ringDone p RingRes.done := by
    unfold State.enableRing
    dsimp only
    rw [if_neg (Nat.not_le.mpr hk), if_neg (not_not_intro hstate), hentry, if_neg Bool.false_ne_true, if_neg (not_not_intro hcpl), hclash,
      if_neg Bool.false_ne_true]
    rfl
  have hunread := fitRing_unread (s := s.setRing k (enabledRing s k entry)) hline
  rw [heq]
  unfold State.ringDone
  rw [finish_fe, adoptWord_rings hunread, fitRing_but_lines]

/-- Settles O9: what the start of the command changes no check looks at, and the line that the ring takes is still to be read, so that no word
of it publishes an index. -/
theorem enableStartsTheRing : Obligations.EnableStartsTheRing := by
  unfold Obligations.EnableStartsTheRing
  intro p k entry s hstart hdrv hk hstate hentry hcpl hclash hline
  obtain ⟨s1, heq, hs1⟩ := ringCmd_runs hstart hdrv k 1 fun s => s.enableRing p k entry
  have hfuses : s1.fuses = s.fuses := same_of_hide hs1 .fuses rfl
  have hpw : s1.pw = s.pw := same_of_hide hs1 .pw rfl
  have hfe : s1.fe = s.fe := same_of_hide hs1 .fe rfl
  have hring : ∀ j, s1.ring j = s.ring j := ring_of_fe hfe
  have hrings : (s1.enableRing p k entry).fe.rings = (s.setRing k (enabledRing s k entry)).fe.rings := by
    rw [← hring k, ← entryBad_congr hfuses hpw] at hentry
    rw [← hring k, ← cplBad_congr hfuses hfe] at hcpl
    rw [← hring k, ← lineClash_congr hfe] at hclash
    rw [enableRing_rings (hfuses ▸ hk) (hring k ▸ hstate) hentry hcpl hclash (hfe ▸ hline)]
    unfold enabledRing State.setRing
    rw [hring k, homeUp_congr hfuses hpw]
    exact congrArg (fun f : FrontEnd => mset f.rings k _) hfe
  have hself : (s1.enableRing p k entry).ring k = enabledRing s k entry := (ring_of_rings hrings k).trans (ring_setRing ..)
  refine ⟨s1.enableRing p k entry, congrArg Host.Outcome.next heq, ?_⟩
  rw [hself]
  exact ⟨rfl, rfl, rfl, rfl, rfl, fun j hj => (ring_of_rings hrings j).trans (ring_setRing_ne _ _ _ _ hj.symm)⟩

/-! ## DISABLE of a ring with two descriptors of one identifier -/

/-- A block in P0 with host port 0 up and Steta's queue core running. ACTIVE ring 5 has a descriptor in flight, and behind it a queued one of
the same identifier. -/
def sharedIdState : State :=
  { State.reset with
    fe := { rings := [(5, { state := .active, dbMode := true, base := 0x1000, cplRing := 8, weight := 1 })]
            descs := [{ id := 0, ring := 5, raw := [], stage := .waiting, resv := 1 }, { id := 0, ring := 5, raw := [] }] }
    pw := { State.reset.pw with
      ready := true, rails := true, pstate := .p0, cxlEnum := true, cxl := [(0, { up := true, width := 2, rate := 2, cache := true })] }
    st := { State.reset.st with cores := [(2, .run)] } }

theorem sharedIdState_starts : sharedIdState.starts .fn0 Reg.ringCmd 31 1 false (some 2) = true := by decide

theorem sharedIdState_ring : 5 < Member.rings sharedIdState.fuses.member ∧ (sharedIdState.ring 5).state = .active ∧
    (Ring.isCpl (sharedIdState.ring 5) && sharedIdState.named 5) = false ∧ (∃ d ∈ sharedIdState.fe.descs, d.ring = 5 ∧ d.resv ≠ 0) ∧
    sharedIdState.exchanging = false := by decide

theorem sharedIdState_disable : ((sharedIdState.ringCmd .fn0 5 2 fun s => s.stopRing .fn0 5).ring 5).state = .disabled := by decide

/-- Refutes O10: its first clause says that DISABLE makes a live ring DRAINING while a descriptor of it is in flight, in every state. DISABLE
discards the queued descriptors of the ring by their identifiers, so that in `sharedIdState`, where a queued descriptor has the identifier
of the one in flight, both go, and the ring is DISABLED at once. -/
theorem not_ringCommandsSetTheRingState : ¬ Obligations.RingCommandsSetTheRingState := by
  unfold Obligations.RingCommandsSetTheRingState
  rintro ⟨draining, -⟩
  obtain ⟨hk, hactive, hnamed, hflight, hopen⟩ := sharedIdState_ring
  obtain ⟨t, hexec, hstate⟩ := draining .fn0 5 sharedIdState sharedIdState_starts hk (.inl hactive) hnamed hflight hopen
  have hrun : exec (.disable .fn0 5) sharedIdState = .next (sharedIdState.ringCmd .fn0 5 2 fun s => s.stopRing .fn0 5) := by
    change Host.Outcome.next (State.rest sharedIdState.exchanging _) = _
    rw [hopen]
    rfl
  rw [hrun] at hexec
  cases hexec
  rw [sharedIdState_disable] at hstate
  cases hstate

end Sys2Proof.Proofs
end

section
/-!
PROOFS. What reservations and waits keep of the front end: no descriptor comes or goes, a ring changes in its reservations alone, and a
descriptor that has ended stays so.
-/

namespace Sys2Proof.Proofs

open Sys2Proof Sys2Proof.Machine Sys2Proof.Laws

/-! ## Identifiers -/

/-- The identifiers of the descriptors that the block holds. -/
def descIds (s : State) : List Nat := s.fe.descs.map (·.id)

theorem mem_descIds {s : State} {i : Nat} : i ∈ descIds s ↔ ∃ d ∈ s.fe.descs, d.id = i := List.mem_map

theorem descIds_of_fe {s t : State} (h : t.fe = s.fe) : descIds t = descIds s := by
  unfold descIds
  rw [h]

theorem descIds_onDesc (s : State) (id : Nat) {f : Desc → Desc} (hf : ∀ d, d.id = id → (f d).id = id) :
    descIds (s.onDesc id f) = descIds s := by
  change (s.fe.descs.map fun x => if x.id = id then f x else x).map (·.id) = s.fe.descs.map (·.id)
  rw [List.map_map]
  refine List.map_congr_left fun d _ => ?_
  change (if d.id = id then f d else d).id = d.id
  split
  · next h => exact (hf d h).trans h.symm
  · rfl

theorem descIds_endDesc (s : State) (id : Nat) (st : BitVec 8) (detail done : Nat) (info : Word64) :
    descIds (s.endDesc id st detail done info) = descIds s :=
  descIds_onDesc s id (f := fun d => { d with status := st, detail := detail, done := done, info := info, stage := .finished }) fun _ hd => hd

theorem PrickStep.ids {id : Nat} {s t : State} (h : PrickStep id s t) : descIds t = descIds s := by
  cases h with
  | desc f h => exact descIds_onDesc s id h
  | front f h => exact congrArg (List.map Desc.id) (h s.fe).1
  | leave => exact descIds_of_fe (abandon_fe s id)
  | count n h => rfl
  | send os => rfl
  | xl f h => rfl

theorem Pricks.ids {id : Nat} {s t : State} (h : Pricks id s t) : descIds t = descIds s :=
  h.keeps (P := fun u => descIds u = descIds s) (fun hstep hu => hstep.ids.trans hu) rfl

/-! ## Reservations -/

/-- From s to t descriptors have reserved and gone on. -/
structure Reserves (s t : State) : Prop where
  ids   : descIds t = descIds s
  rings : ∀ k, ∃ n, t.ring k = { s.ring k with resv := n }
  ended : ∀ i st, EndedWith s i st → EndedWith t i st

theorem Reserves.refl (s : State) : Reserves s s := ⟨rfl, fun k => ⟨(s.ring k).resv, rfl⟩, fun _ _ h => h⟩

theorem Reserves.trans {s t u : State} (h : Reserves s t) (h' : Reserves t u) : Reserves s u := by
  refine ⟨h'.ids.trans h.ids, fun k => ?_, fun i st hi => h'.ended i st (h.ended i st hi)⟩
  obtain ⟨n, ht⟩ := h.rings k
  obtain ⟨m, hu⟩ := h'.rings k
  exact ⟨m, by rw [hu, ht]⟩

theorem Reserves.ended_of {s t : State} (h : Reserves s t) {i : Nat} {st : BitVec 8} (hs : s.ended i st) : t.ended i st := by
  obtain ⟨hex, hall⟩ := hs
  exact ⟨mem_descIds.mp (h.ids ▸ mem_descIds.mpr hex), h.ended i st hall⟩

/-- Steps of one descriptor that has not ended, and its reservation. -/
theorem Reserves.of_pricks {s t : State} {d : Desc} (hd : d ∈ s.fe.descs) (hstage : d.stage ≠ .finished) (c n : Nat)
    (h : Pricks d.id (s.onRing c fun r => { r with resv := n }) t) : Reserves s t := by
  refine ⟨h.ids, fun k => ?_, fun i st hi e he hid => ?_⟩
  · rw [ring_congr h.rings]
    by_cases hck : c = k
    · subst hck
      exact ⟨n, ring_onRing ..⟩
    · exact ⟨(s.ring k).resv, ring_onRing_ne _ _ _ _ hck⟩
  · have hne : e.id ≠ d.id := fun heq => hstage (hi d hd (heq.symm.trans hid)).1
    exact hi e (h.others e he hne) hid

theorem pricks_letIn (s : State) (id : Nat) : Pricks id s (s.letIn id) := by
  unfold State.letIn
  split
  · exact .refl
  split
  · exact pricks_settle s _ fun _ => rfl
  split
  · exact .single (.desc s _ fun _ hd => hd)
  · exact pricks_prick s id

theorem reserveOne_reserves (s : State) (id : Nat) : Reserves s (s.reserveOne id) := by
  unfold State.reserveOne
  split
  · exact .refl s
  next d hd =>
    have hmem : d ∈ s.fe.descs := List.mem_of_find?_eq_some hd
    obtain rfl : d.id = id := desc_id hd
    dsimp only
    split
    · exact .refl s
    next hfree =>
      have hstage : d.stage ≠ .finished := by
        intro h
        rw [h] at hfree
        exact hfree rfl
      split
      · refine .of_pricks hmem hstage (s.ring d.ring).cplRing ((s.ring (s.ring d.ring).cplRing).resv + d.cplNeed)
          (Pricks.trans (t := State.onDesc _ d.id _) ?_ (pricks_letIn _ _))
        exact .single (.desc _ (fun x => { x with resv := d.cplNeed }) fun _ h => h)
      split
      · exact .refl s
      · have hwaits : Pricks d.id s (s.onDesc d.id fun x => { x with waited := true }) := .single (.desc s _ fun _ h => h)
        exact ⟨hwaits.ids, fun k => ⟨(s.ring k).resv, rfl⟩, fun i st hi e he hid =>
          hi e (hwaits.others e he fun heq => hstage (hi d hmem (heq.symm.trans hid)).1) hid⟩

theorem reserveAll_reserves (s : State) (c : Nat) : Reserves s (s.reserveAll c) :=
  forEach_keeps (P := Reserves s) _ (fun u id _ hu => hu.trans (reserveOne_reserves u id)) s (.refl s)

/-! ## Ends, and waits that end -/

theorem endDesc_ended {s : State} {d : Desc} (hd : d ∈ s.fe.descs) (st : BitVec 8) (detail done : Nat) (info : Word64) :
    (s.endDesc d.id st detail done info).ended d.id st := by
  have hids : d.id ∈ descIds (s.endDesc d.id st detail done info) := by
    rw [descIds_endDesc]
    exact mem_descIds.mpr ⟨d, hd, rfl⟩
  refine ⟨mem_descIds.mp hids, fun e he hid => ?_⟩
  unfold State.endDesc at he
  rw [settle_descs] at he
  obtain ⟨e0, -, rfl⟩ := List.mem_map.mp he
  split at hid
  · next h =>
    rw [if_pos h]
    exact ⟨rfl, rfl⟩
  · next h => exact absurd hid h

theorem endWait_eq {s : State} {d : Desc} (h : s.desc d.id = some d) (st : BitVec 8) :
    s.endWait d.id st = (s.endDesc d.id st 0 0 0).reserveAll (s.ring d.ring).cplRing := by
  unfold State.endWait
  rw [h]

/-- A FENCE or WAIT that completes has ended, whatever reserves behind it. -/
theorem endWait_ended {s : State} {d : Desc} (h : s.desc d.id = some d) (st : BitVec 8) : (s.endWait d.id st).ended d.id st := by
  rw [endWait_eq h]
  exact (reserveAll_reserves ..).ended_of (endDesc_ended (List.mem_of_find?_eq_some h) ..)

theorem endWait_ids (s : State) (id : Nat) (st : BitVec 8) : descIds (s.endWait id st) = descIds s := by
  unfold State.endWait
  split
  · rfl
  · exact (reserveAll_reserves ..).ids.trans (descIds_endDesc ..)

theorem forEach_ids {α : Type} {f : State → α → State} (h : ∀ s a, descIds (f s a) = descIds s) (l : List α) (s : State) :
    descIds (State.forEach f l s) = descIds s :=
  forEach_keeps (P := fun u => descIds u = descIds s) l (fun u a _ hu => (h u a).trans hu) s rfl

theorem wakeWaits_ids (s : State) (k : Nat) : descIds (s.wakeWaits k) = descIds s := by
  refine forEach_ids (fun u d => ?_) _ s
  split
  · exact endWait_ids ..
  · rfl

theorem abortWaits_ids (s : State) (k : Nat) : descIds (s.abortWaits k) = descIds s :=
  (forEach_ids (fun u (d : Desc) => endWait_ids u d.id _) _ _).trans
    (forEach_ids (fun u (d : Desc) => descIds_onDesc u d.id (f := fun x => { x with status := St.waitAborted }) fun _ h => h) _ s)

/-! ## A descriptor that leaves -/

theorem fitRing_ids (s : State) (k : Nat) : descIds (s.fitRing k) = descIds s := by
  unfold descIds
  rw [fitRing_but_lines]

theorem disableRing_ids (s : State) (k : Nat) : descIds (s.disableRing k) = descIds s := by
  unfold State.disableRing
  dsimp only
  rw [fitRing_ids, abortWaits_ids, descIds_of_fe (onSp_fe _ _)]
  split
  · rw [descIds_of_fe (finish_fe ..)]
    rfl
  · rfl

theorem drained_ids (s : State) (k : Nat) : descIds (s.drained k) = descIds s := by
  unfold State.drained
  dsimp only
  split
  · split
    · exact (descIds_of_fe (finish_fe ..)).trans (disableRing_ids ..)
    · exact disableRing_ids ..
  · rfl

theorem goOn_ids (s : State) (d : Desc) : descIds (s.goOn d) = descIds s := by
  unfold State.goOn
  rw [drained_ids]
  exact (forEach_ids (fun u id => (pricks_prick u id).ids) _ _).trans (reserveAll_reserves ..).ids

theorem doneSeq_ids (s : State) (d : Desc) : descIds (s.doneSeq d) = descIds s := by
  unfold State.doneSeq
  split
  · rfl
  · exact wakeWaits_ids ..

theorem tileDone_fe (s : State) (d : Desc) : (s.tileDone d).fe = s.fe :=
  same_of_hide (tileDone_hide (M := maskOfZones [.regs, .sp]) rfl rfl s d) .fe rfl

theorem drainInval_fe (s : State) (id : Nat) : (s.drainInval id).fe = s.fe :=
  same_of_hide (drainInval_hide (M := maskOfZones [.regs, .xl]) rfl rfl s id) .fe rfl

theorem leave_descs (s : State) (d : Desc) : (s.leave d).fe.descs = s.fe.descs.filter fun x => x.id != d.id := by
  unfold State.leave
  rw [endLoad_fe, drainInval_fe, tileDone_fe]
  rfl

theorem leave_gone (s : State) (d : Desc) : d.id ∉ descIds (s.leave d) := by
  intro h
  obtain ⟨e, he, hid⟩ := mem_descIds.mp h
  rw [leave_descs] at he
  exact bne_iff_ne.mp (List.mem_filter.mp he).2 hid

end Sys2Proof.Proofs
end

section
/-!
PROOFS. O15: the descriptors that the front end itself carries out (R56, R58, R83, R84, R385).
-/

namespace Sys2Proof.Proofs

open Sys2Proof Sys2Proof.Machine Sys2Proof.Laws

/-! ## Counters that telemetry does not count on by itself -/

/-- An operation leaves a counter that it is not told to count on. -/
theorem op_keeps_count {cs : List Nat} {off : Nat} (hoff : off ∉ cs) {o : TelOp} (ho : Calm cs o) (t : Telem) :
    (t.op o).1.countOf off = t.countOf off := by
  have hsame : ∀ {u : Telem}, u.counters = t.counters → u.countOf off = t.countOf off := fun h => by
    unfold Telem.countOf
    rw [h]
  have htake : ∀ r, (t.take r).1.countOf off = t.countOf off := fun r => by
    obtain ⟨-, -, hctrs, -⟩ := take_queue t r
    exact hsame hctrs
  cases o with
  | count j n =>
    have hne : j ≠ off := fun h => hoff (h ▸ ho)
    unfold Telem.op
    dsimp only
    split
    · rfl
    · rw [countOf_mset, if_neg hne]
  | event e =>
    unfold Telem.op
    dsimp only
    split
    · split <;> rfl
    · rfl
  | log core kind sev code args =>
    unfold Telem.op
    dsimp only
    split
    · exact htake _
    · split <;> rfl
  | put r => exact htake r
  | drain => exact ho.elim

theorem run_keeps_count {cs : List Nat} (hcs : ∀ c ∈ ownCounters, c ∈ cs) {off : Nat} (hoff : off ∉ cs) (f : Nat) (ops : List TelOp)
    (t : Telem) (hops : ∀ o ∈ ops, Calm cs o) : (Telem.run f ops t).countOf off = t.countOf off := by
  induction f generalizing ops t with
  | zero => rfl
  | succ f ih =>
    cases ops with
    | nil => rfl
    | cons o ops =>
      have ho := hops o List.mem_cons_self
      obtain ⟨hleads, -⟩ := op_calm hcs ho t
      refine (ih _ _ fun x hx => ?_).trans (op_keeps_count hoff ho t)
      exact (List.mem_append.mp hx).elim (hleads x) fun h => hops x (List.mem_cons_of_mem _ h)

theorem tell_keeps_count {off : Nat} (hoff : off ∉ ownCounters) (s : State) (ops : List TelOp) (hops : ∀ o ∈ ops, Calm ownCounters o) :
    (s.tell ops).tel.countOf off = s.tel.countOf off := run_keeps_count (fun _ h => h) hoff 20000 ops s.tel hops

/-- A count is made once: the events it raises and the records they leave count on other counters. -/
theorem count_counts {off : Nat} (hoff : off ∉ ownCounters) (s : State) : (s.count off).tel.countOf off = (s.tel.countOf off).plus 1 := by
  have hevents := events_calm ownCounters off (s.tel.countOf off) ((s.tel.countOf off).plus 1)
  change (Telem.run 19999 (Counter.events off (s.tel.countOf off) ((s.tel.countOf off).plus 1) ++ [])
    { s.tel with counters := mset s.tel.counters off ((s.tel.countOf off).plus 1) }).countOf off = _
  rw [List.append_nil, run_keeps_count (fun _ h => h) hoff _ _ _ hevents, countOf_mset, if_pos rfl]

/-! ## NOP and MARKER -/

theorem readyFor_ready {s : State} {d : Desc} {opc : Nat} (h : s.readyDesc d opc) : s.readyFor d.id opc (fun _ => true) = some d := by
  obtain ⟨hdesc, hstage, hopc, hask⟩ := h
  unfold State.readyFor
  rw [hdesc]
  dsimp only
  rw [hstage, hopc, hask]
  exact if_pos (by simp)

theorem readyDesc_mem {s : State} {d : Desc} {opc : Nat} (h : s.readyDesc d opc) : d ∈ s.fe.descs := List.mem_of_find?_eq_some h.1

theorem markerPoint_fe (s : State) (d : Desc) (taken : Bool) : (s.markerPoint d taken).fe = s.fe :=
  same_of_hide (markerPoint_hide (M := maskOfZones [.tel, .out]) rfl rfl s d taken) .fe rfl

/-- What a MARKER whose group is traced sends and counts: telemetry's own records do not come in between. -/
theorem markerPoint_traced {s : State} {d : Desc} (h : bitb (s.cfg Reg.traceEn) ((Sys2Proof.Config.logCode 2).toNat / 1024) = true)
    (taken : Bool) :
    (taken = true → (s.markerPoint d taken).out = .trace (traceHead s.tel.ts (Sys2Proof.Config.logCode 2))
      (Sys2Proof.Config.markerArg d.ring d.seq (BitVec.ofNat 32 d.count)) :: s.out) ∧
    (taken = false → (s.markerPoint d taken).out = s.out ∧
      (s.markerPoint d taken).tel.countOf Ctr.traceDropped = (s.tel.countOf Ctr.traceDropped).plus 1) := by
  have hown : Ctr.traceDropped ∉ ownCounters := by decide
  unfold State.markerPoint
  dsimp only
  rw [if_pos h]
  constructor
  · rintro rfl
    split <;> rfl
  · rintro rfl
    split
    · refine ⟨rfl, (tell_keeps_count hown _ _ ?_).trans (count_counts hown s)⟩
      exact calm_cons trivial (calm_nil _)
    · exact ⟨rfl, count_counts hown s⟩

/-! ## FENCE and WAIT -/

theorem waitingFor_waiting {s : State} {d : Desc} {opc : Nat} {mode : Nat → Bool} (hdesc : s.desc d.id = some d) (hstage : d.stage = .waiting)
    (hopc : d.opc = opc) (hmode : mode d.mode = true) : s.waitingFor d.id opc mode = some d := by
  unfold State.waitingFor
  rw [hdesc]
  dsimp only
  rw [hstage, hopc, hmode]
  exact if_pos (by simp)

/-- A wait that ends changes a ring in its reservations alone. -/
theorem endWait_ring {s : State} {d : Desc} (h : s.desc d.id = some d) (st : BitVec 8) (k : Nat) :
    ∃ n, (s.endWait d.id st).ring k = { s.ring k with resv := n } := by
  rw [endWait_eq h]
  exact (reserveAll_reserves (s.endDesc d.id st 0 0 0) _).rings k

/-- Settles O15: the descriptor ends with the status, and those that reserve behind a FENCE or WAIT leave it as it has ended. -/
theorem frontEndDescriptorsComplete : Obligations.FrontEndDescriptorsComplete := by
  unfold Obligations.FrontEndDescriptorsComplete
  refine ⟨?_, ?_, ?_, ?_, ?_, ?_⟩
  · intro d s h
    refine ⟨s.endOk d.id 0, ?_, endDesc_ended (readyDesc_mem h) .., rfl⟩
    change Host.Outcome.next _ = _
    rw [readyFor_ready h]
  · intro d taken s h
    refine ⟨(s.markerPoint d taken).endOk d.id 0, ?_, endDesc_ended ?_ .., fun hgroup => markerPoint_traced hgroup taken⟩
    · change Host.Outcome.next _ = _
      rw [readyFor_ready h]
    · rw [markerPoint_fe]
      exact readyDesc_mem h
  · intro d s hdesc hstage hopc hmode hopen
    refine ⟨s.endWait d.id St.ok, ?_, endWait_ended hdesc _⟩
    change Host.Outcome.next _ = _
    rw [waitingFor_waiting (mode := (· == 0)) hdesc hstage hopc (beq_iff_eq.mpr hmode)]
    exact congrArg _ (if_pos hopen)
  · intro d s hdesc hstage hopc hmode hopen
    have hdesc' : (s.onRing d.ring fun r => { r with unseen := 0 }).desc d.id = some d := hdesc
    obtain ⟨n, hring⟩ := endWait_ring hdesc' St.ok d.ring
    refine ⟨(s.onRing d.ring fun r => { r with unseen := 0 }).endWait d.id St.ok, ?_, endWait_ended hdesc' _, ?_⟩
    · change Host.Outcome.next _ = _
      rw [waitingFor_waiting (mode := (· == 1)) hdesc hstage hopc (beq_iff_eq.mpr hmode)]
      exact congrArg _ (if_pos hopen)
    · rw [hring, ring_onRing]
  · intro d s hdesc hstage hopc hreached
    refine ⟨s.endWait d.id St.ok, ?_, endWait_ended hdesc _⟩
    change Host.Outcome.next _ = _
    rw [waitingFor_waiting hdesc hstage hopc rfl]
    exact congrArg _ (if_pos hreached)
  · intro d s hdesc hstage hopc hreached hcount
    refine ⟨s.endWait d.id St.waitTimeout, ?_, endWait_ended hdesc _⟩
    change Host.Outcome.next _ = _
    rw [waitingFor_waiting hdesc hstage hopc rfl]
    dsimp only
    rw [hreached, if_neg Bool.false_ne_true, if_neg hcount]

end Sys2Proof.Proofs
end

section
/-!
PROOFS. O14: completion space, and the records that are written into it (R69, R71, R75, R451).
-/

namespace Sys2Proof.Proofs

open Sys2Proof Sys2Proof.Machine Sys2Proof.Laws

/-! ## Messages that are handed over -/

theorem ringSend_carried (s : State) (near : Bool) (o : Output) : (s.ringSend near o).carried near o := by
  cases near with
  | false => exact List.mem_cons_self
  | true =>
    change (State.fabSend s o).carried true o
    unfold State.fabSend
    split
    · next p _ _ => exact .inl ⟨p, List.mem_cons_self⟩
    · exact .inr (List.mem_append_right _ List.mem_cons_self)

/-- What was handed over stays so while more is sent and no port changes. -/
theorem carried_mono {s t : State} (hpw : t.pw = s.pw) (hout : s.out <:+ t.out) {near : Bool} {o : Output} (h : s.carried near o) :
    t.carried near o := by
  cases near with
  | false => exact hout.subset h
  | true =>
    rcases h with ⟨p, hp⟩ | h
    · exact .inl ⟨p, hout.subset hp⟩
    · refine .inr ?_
      rw [hpw]
      exact h

/-- One slot of a completion ring is written with what the bytes make of the ring's phase. -/
theorem putSlot_carried (s : State) (c : Nat) (ord : Bool) (b : Bool → Bytes) :
    (s.putSlot c ord b).carried ((s.ring c).typ == .nearCpl) (s.recOut c ((s.ring c).idx.toNat % Ring.size (s.ring c)) ord
      (b (phaseAt (s.ring c).idx.toNat (Ring.size (s.ring c))))) := ringSend_carried ..

theorem signal_pw (s : State) (c : Nat) (now : Bool) : (s.signal c now).pw = s.pw :=
  same_of_hide (signal_hide (M := maskOfZones [.fe, .out]) rfl rfl s c now) .pw rfl

theorem signal_idx (s : State) (c : Nat) (now : Bool) : ((s.signal c now).ring c).idx = (s.ring c).idx := by
  rcases signal_fe s c now with h | ⟨n, h⟩
  · rw [ring_of_fe h]
  · rw [ring_of_fe h, ring_setRing]

/-! ## COMPLETION_RESERVE -/

theorem reserveOne_reserved {s : State} {d : Desc} (h : s.desc d.id = some d) (hstage : d.stage = .queued) (hresv : d.resv = 0)
    (hheld : s.heldBack d = false) (hstate : (s.ring d.ring).state ≠ .pausedHost) (hpass : s.passing = true)
    (hroom : d.cplNeed ≤ s.freeFor (s.ring d.ring).cplRing) :
    ((s.reserveOne d.id).ring (s.ring d.ring).cplRing).resv = (s.ring (s.ring d.ring).cplRing).resv + d.cplNeed := by
  have heq : s.reserveOne d.id = ((s.onRing (s.ring d.ring).cplRing fun r => { r with resv := r.resv + d.cplNeed }).onDesc d.id
      fun x => { x with resv := d.cplNeed }).letIn d.id := by
    unfold State.reserveOne
    rw [h]
    dsimp only
    rw [hstage, hresv, hheld, hpass, beq_eq_false_iff_ne.mpr hstate, if_pos hroom]
    exact if_neg (by decide)
  rw [heq, ring_congr (letIn_rings ..)]
  exact congrArg Ring.resv (ring_onRing s (s.ring d.ring).cplRing fun r => { r with resv := r.resv + d.cplNeed })

/-- The one descriptor of the block is held back by none. -/
theorem heldBack_only {s : State} {d : Desc} (h : s.fe.descs = [d]) : s.heldBack d = false := by
  unfold State.heldBack State.ringDescs
  rw [h]
  refine List.any_eq_false.mpr fun e he => ?_
  obtain rfl : e = d := List.mem_singleton.mp (List.mem_filter.mp he).1
  rw [decide_eq_false (Nat.lt_irrefl _)]
  exact Bool.false_ne_true

theorem reserveAll_only {s : State} {d : Desc} (h : s.fe.descs = [d]) (hstage : d.stage = .queued) :
    s.reserveAll (s.ring d.ring).cplRing = s.reserveOne d.id := by
  unfold State.reserveAll
  rw [h, List.filter_cons_of_pos (by simp [hstage])]
  rfl

/-! ## COMPLETION_RECORD_WRITE -/

/-- The end of a descriptor whose record has been written, or is not needed: it leaves, and what waits for it goes on. -/
def afterRecord (s : State) (d : Desc) : State := ((((s.countDone d).noteUnseen d).leave d).doneSeq d).goOn d

theorem finishRecord_eq (s : State) (d : Desc) : ∃ o t, s.finishRecord d =
    afterRecord (if d.needsRecord then ({ s with out := o, tel := t } : State).putRecord d else { s with out := o, tel := t }) d := by
  unfold State.finishRecord State.flushOther
  split <;> exact ⟨_, _, rfl⟩

/-- The parts that the end of a descriptor touches: not the ports, nor the messages that wait for them. -/
def afterZones : List Zone := [.regs, .fe, .xl, .sp, .qz, .up, .fl, .tel, .out]

theorem afterRecord_pw (s : State) (d : Desc) : (afterRecord s d).pw = s.pw :=
  same_of_hide (M := maskOfZones afterZones) ((goOn_hide rfl rfl rfl rfl rfl rfl rfl rfl _ d).trans
    ((doneSeq_hide rfl rfl rfl rfl rfl rfl rfl _ d).trans ((leave_hide rfl rfl rfl rfl rfl rfl _ d).trans
      ((noteUnseen_hide rfl _ d).trans (countDone_hide rfl s d))))) .pw rfl

theorem afterRecord_grew (s : State) (d : Desc) : s.out <:+ (afterRecord s d).out := by
  have hquiet : hide butOut (((s.countDone d).noteUnseen d).leave d) = hide butOut s :=
    (leave_hide rfl rfl rfl rfl rfl rfl _ d).trans ((noteUnseen_hide rfl _ d).trans (countDone_hide rfl s d))
  have hleft : Grew s (hide butOut (((s.countDone d).noteUnseen d).leave d)) := by
    rw [hquiet]
    exact List.suffix_rfl
  unfold afterRecord
  exact (grew_iff s _).mp (goOn_grew _ d (doneSeq_grew _ d hleft))

theorem afterRecord_gone (s : State) (d : Desc) : ∀ e ∈ (afterRecord s d).fe.descs, e.id ≠ d.id := by
  intro e he hid
  have hmem : d.id ∈ descIds (afterRecord s d) := mem_descIds.mpr ⟨e, he, hid⟩
  unfold afterRecord at hmem
  rw [goOn_ids, doneSeq_ids] at hmem
  exact leave_gone _ d hmem

theorem putRecord_plain {s : State} {d : Desc} (h : d.inl = []) : s.putRecord d =
    (s.putSlot (s.ring d.ring).cplRing (s.ring d.ring).ord fun ph =>
      recBytes d.seq.toNat d.ring ph Kind.normal d.status d.flags d.ver d.digest d.done d.detail d.info).signal (s.ring d.ring).cplRing
        (d.irq || d.status != St.ok) := by
  unfold State.putRecord
  rw [h]
  rfl

/-- The message that writes the record of a descriptor without inline result. -/
def plainRecord (s : State) (d : Desc) : Output :=
  s.recOut (s.ring d.ring).cplRing ((s.ring (s.ring d.ring).cplRing).idx.toNat % Ring.size (s.ring (s.ring d.ring).cplRing))
    (s.ring d.ring).ord (recBytes d.seq.toNat d.ring
      (phaseAt (s.ring (s.ring d.ring).cplRing).idx.toNat (Ring.size (s.ring (s.ring d.ring).cplRing)))
      Kind.normal d.status d.flags d.ver d.digest d.done d.detail d.info)

theorem putRecord_carried {s : State} {d : Desc} (h : d.inl = []) :
    (s.putRecord d).carried ((s.ring (s.ring d.ring).cplRing).typ == .nearCpl) (plainRecord s d) := by
  rw [putRecord_plain h]
  exact carried_mono (signal_pw ..) (signal_grew (u := State.putSlot ..) _ _ _ List.suffix_rfl) (putSlot_carried ..)

theorem finishRecord_carried {s : State} {d : Desc} (hneeds : d.needsRecord = true) (hinl : d.inl = []) :
    (s.finishRecord d).carried ((s.ring (s.ring d.ring).cplRing).typ == .nearCpl) (plainRecord s d) := by
  obtain ⟨o, t, heq⟩ := finishRecord_eq s d
  rw [heq, if_pos hneeds]
  exact carried_mono (afterRecord_pw ..) (afterRecord_grew ..) (putRecord_carried (s := { s with out := o, tel := t }) hinl)

theorem finishRecord_gone (s : State) (d : Desc) : ∀ e ∈ (s.finishRecord d).fe.descs, e.id ≠ d.id := by
  obtain ⟨o, t, heq⟩ := finishRecord_eq s d
  rw [heq]
  exact afterRecord_gone _ d

/-- COMPLETION_RECORD_WRITE of a finished descriptor whose turn it is: its record is written where its completion ring can take it, and is
held where the ring's port is lost. -/
theorem recordWrite_finished {s : State} {d : Desc} (h : s.desc d.id = some d) (hstage : d.stage = .finished) (hturn : s.recordTurn d = true)
    (hwrites : s.writesWait d = false) (hdrv : s.drvFails (3 + (s.ring d.ring).cplRing) = false) :
    s.recordWrite d.id = if s.cplLive (s.ring d.ring).cplRing then s.finishRecord d else s.setDesc { d with stage := .heldRec } := by
  unfold State.recordWrite
  rw [h]
  dsimp only
  rw [hstage, hturn, hwrites, hdrv]
  exact if_neg (by decide)

theorem cplLive_drv {s : State} {c : Nat} (h : s.cplLive c = true) : s.drvFails (3 + c) = false := by
  unfold State.cplLive at h
  simpa using (Bool.and_eq_true_iff.mp h).2

theorem desc_setDesc {s : State} {d e : Desc} (h : s.desc d.id = some d) (hid : e.id = d.id) : (s.setDesc e).desc d.id = some e := by
  have hfind : ∀ l : List Desc, l.find? (fun x => x.id == d.id) = some d →
      (l.map fun x => if x.id = e.id then e else x).find? (fun x => x.id == d.id) = some e := by
    intro l hl
    induction l with
    | nil => cases hl
    | cons x l ih =>
      rw [List.find?_cons] at hl
      rw [List.map_cons, List.find?_cons]
      by_cases hx : x.id = d.id
      · rw [if_pos (hx.trans hid.symm), beq_iff_eq.mpr hid]
      · rw [if_neg fun heq => hx (heq.trans hid), beq_eq_false_iff_ne.mpr hx]
        rw [beq_eq_false_iff_ne.mpr hx] at hl
        exact ih hl
  exact hfind s.fe.descs h

theorem exec_completionRecordWrite {s : State} (h : s.exchanging = false) (id : Nat) :
    exec (.completionRecordWrite id) s = .next (s.recordWrite id) := by
  change Host.Outcome.next (State.rest s.exchanging (s.recordWrite id)) = _
  rw [h]
  rfl

/-! ## MOD_TIME_EXPIRY -/

theorem modTime_raises {s : State} {k : Nat} (htyp : (s.ring k).typ = .hostCpl) (hen : (s.ring k).irqEn = true)
    (hmod : (s.ring k).modTime ≠ 0) (hunsig : (s.ring k).unsig ≠ 0) (hlive : s.cplLive k = true) : s.modTime k = s.irq k := by
  unfold State.modTime
  dsimp only
  rw [htyp, hen, hlive, bne_iff_ne.mpr hmod, bne_iff_ne.mpr hunsig]
  rfl

/-! ## Held RING_OVERRUN records -/

theorem mem_heldFor {s : State} {c k : Nat} (h : k ∈ s.heldFor c) : (s.ring k).cplRing = c := beq_iff_eq.mp (List.mem_filter.mp h).2

/-- The first held record is written to the next slot of its completion ring. -/
theorem overrunRecord_writes {s : State} {c k : Nat} {l : List Nat} (h : s.heldFor c = k :: l) (hlive : s.cplLive c = true)
    (hspace : 1 ≤ Ring.space (s.ring c)) :
    (s.overrunRecord c).fe.overruns = s.fe.overruns.erase k ∧ ((s.overrunRecord c).ring c).idx = (s.ring c).idx + 1 ∧
      (s.overrunRecord c).carried ((s.ring c).typ == .nearCpl) (s.recOut c ((s.ring c).idx.toNat % Ring.size (s.ring c)) (s.ring k).ord
        (recBytes (s.ring k).errSeq.toNat k (phaseAt (s.ring c).idx.toNat (Ring.size (s.ring c))) Kind.normal St.ringOverrun 0 0 0 0 0 0)) := by
  obtain rfl : (s.ring k).cplRing = c := mem_heldFor (h ▸ List.mem_cons_self)
  have heq : s.overrunRecord (s.ring k).cplRing = (s.onFe fun f => { f with overruns := f.overruns.erase k }).writeOverrun k := by
    unfold State.overrunRecord
    rw [h]
    dsimp only
    rw [hlive, decide_eq_true hspace]
    rfl
  rw [heq]
  refine ⟨by rw [writeOverrun_but_rings]; rfl, ?_, ?_⟩
  · unfold State.writeOverrun
    exact (signal_idx ..).trans (congrArg Ring.idx ((ring_of_fe (putSlot_fe ..) _).trans (ring_setRing ..)))
  · unfold State.writeOverrun
    exact carried_mono (signal_pw ..) (signal_grew (u := State.putSlot ..) _ _ _ List.suffix_rfl)
      (putSlot_carried (s.onFe fun f => { f with overruns := f.overruns.erase k }) ..)

/-- Settles O14: a record that is handed over stays so, since what follows in the same command sends more and changes no port; the descriptor
leaves before anything else goes on, and no other brings its identifier back. -/
theorem completionSpaceAndRecords : Obligations.CompletionSpaceAndRecords := by
  unfold Obligations.CompletionSpaceAndRecords
  refine ⟨?_, ?_, ?_, ?_, ?_⟩
  · rintro c d s hdescs hstage hresv hpass rfl hstate hcpl hroom
    have hdesc : s.desc d.id = some d := by
      unfold State.desc
      rw [hdescs]
      exact List.find?_cons_of_pos (p := fun x : Desc => x.id == d.id) (beq_self_eq_true d.id)
    refine ⟨s.reserveAll (s.ring d.ring).cplRing, congrArg Host.Outcome.next (if_pos hcpl), ?_⟩
    rw [reserveAll_only hdescs hstage]
    exact reserveOne_reserved hdesc hstage hresv (heldBack_only hdescs) hstate hpass hroom
  · intro d s hdesc hstage hturn hwrites hlive hneeds hinl hopen
    refine ⟨s.finishRecord d, ?_, finishRecord_gone s d, finishRecord_carried hneeds hinl⟩
    rw [exec_completionRecordWrite hopen, recordWrite_finished hdesc hstage hturn hwrites (cplLive_drv hlive), if_pos hlive]
  · intro d s hdesc hstage hturn hwrites hdrv hlive hopen
    refine ⟨s.setDesc { d with stage := .heldRec }, ?_, desc_setDesc (e := { d with stage := .heldRec }) hdesc rfl, rfl⟩
    rw [exec_completionRecordWrite hopen, recordWrite_finished hdesc hstage hturn hwrites hdrv, hlive]
    rfl
  · intro k s htyp hen hmod hunsig hlive
    exact ⟨s.irq k, congrArg Host.Outcome.next (modTime_raises htyp hen hmod hunsig hlive), congrArg Ring.unsig (ring_setRing ..), rfl⟩
  · exact fun c k l s h _ hlive hspace => ⟨_, rfl, overrunRecord_writes h hlive hspace⟩

end Sys2Proof.Proofs
end

section
/-!
PROOFS. Bits of register words: what a field of a word is once another field has been put (R427), and what a register command's word
keeps of the value written (R430).
-/

namespace Sys2Proof.Proofs

open Sys2Proof Sys2Proof.Machine Sys2Proof.Laws

/-! ## Fields and bits -/

theorem testBit_bitf (v : Word64) (lo n i : Nat) : (bitf v lo n).testBit i = (decide (i < n) && v.getLsbD (lo + i)) := by
  unfold bitf
  rw [Nat.testBit_mod_two_pow, Nat.testBit_div_two_pow, Nat.add_comm i lo]
  rfl

/-- Words that agree on the bits of a field have the same field. -/
theorem bitf_eq_of_bits {v w : Word64} {lo n : Nat} (h : ∀ i, i < n → v.getLsbD (lo + i) = w.getLsbD (lo + i)) :
    bitf v lo n = bitf w lo n := by
  refine Nat.eq_of_testBit_eq fun i => ?_
  rw [testBit_bitf, testBit_bitf]
  by_cases hi : i < n
  · rw [h i hi]
  · rw [decide_eq_false hi, Bool.false_and, Bool.false_and]

/-- A number with the n bits from lo on replaced: those above, the new ones, those below. -/
theorem putf_toNat_parts (v x lo n : Nat) :
    v - v / 2 ^ lo % 2 ^ n * 2 ^ lo + x % 2 ^ n * 2 ^ lo = 2 ^ lo * (2 ^ n * (v / 2 ^ lo / 2 ^ n) + x % 2 ^ n) + v % 2 ^ lo := by
  have hv : v = 2 ^ lo * (2 ^ n * (v / 2 ^ lo / 2 ^ n) + v / 2 ^ lo % 2 ^ n) + v % 2 ^ lo := by
    rw [Nat.div_add_mod, Nat.div_add_mod]
  have replace : ∀ above old new below : Nat, v = above + old + below → v - old + new = above + new + below := by
    intro above old new below h
    omega
  rw [Nat.mul_add] at hv ⊢
  rw [Nat.mul_comm _ (2 ^ lo), Nat.mul_comm (x % 2 ^ n)]
  exact replace _ _ _ _ hv

/-- Bits of a word into which a field has been put. -/
theorem getLsbD_putf (v : Word64) (lo n x i : Nat) :
    (putf v lo n x).getLsbD i = (decide (i < 64) && if lo ≤ i ∧ i < lo + n then x.testBit (i - lo) else v.getLsbD i) := by
  unfold putf bitf
  rw [putf_toNat_parts, BitVec.getLsbD_ofNat, Nat.testBit_two_pow_mul_add _ (Nat.mod_lt _ (Nat.two_pow_pos lo)),
    Nat.testBit_two_pow_mul_add _ (Nat.mod_lt _ (Nat.two_pow_pos n)), Nat.testBit_mod_two_pow, Nat.testBit_mod_two_pow,
    Nat.testBit_div_two_pow, Nat.testBit_div_two_pow]
  congr 1
  by_cases hlo : i < lo
  · rw [if_pos hlo, if_neg (fun h => absurd h.1 (Nat.not_le.mpr hlo)), decide_eq_true hlo]
    rfl
  · rw [if_neg hlo]
    by_cases hn : i - lo < n
    · rw [if_pos hn, if_pos ⟨Nat.not_lt.mp hlo, by omega⟩, decide_eq_true hn]
      rfl
    · rw [if_neg hn, if_neg (fun h => by omega), show i - lo - n + n + lo = i by omega]
      rfl

/-- A field reads as what is put there. -/
theorem bitf_putf_self (v : Word64) {lo n : Nat} (h : lo + n ≤ 64) (x : Nat) : bitf (putf v lo n x) lo n = x % 2 ^ n := by
  refine Nat.eq_of_testBit_eq fun i => ?_
  rw [testBit_bitf, Nat.testBit_mod_two_pow, getLsbD_putf]
  by_cases hi : i < n
  · rw [if_pos ⟨Nat.le_add_right lo i, by omega⟩, decide_eq_true (show lo + i < 64 by omega), Nat.add_sub_cancel_left]
    rfl
  · rw [decide_eq_false hi, Bool.false_and, Bool.false_and]

theorem getLsbD_putf_of_outside (v : Word64) {lo n i : Nat} (h : i < lo ∨ lo + n ≤ i) (x : Nat) :
    (putf v lo n x).getLsbD i = v.getLsbD i := by
  rw [getLsbD_putf, if_neg (by omega)]
  by_cases hi : i < 64
  · rw [decide_eq_true hi, Bool.true_and]
  · rw [decide_eq_false hi, BitVec.getLsbD_of_ge v i (Nat.not_lt.mp hi), Bool.and_false]

/-- A bit reads as what is put there. -/
theorem bitb_putf_self (v : Word64) {i : Nat} (h : i < 64) (x : Nat) : bitb (putf v i 1 x) i = x.testBit 0 := by
  unfold bitb
  rw [getLsbD_putf, decide_eq_true h, if_pos ⟨Nat.le_refl i, Nat.lt_succ_self i⟩, Nat.sub_self, Bool.true_and]

/-! ## The word of a register command (R430) -/

/-- What a command register holds once a command starts: the RW bits of the value written, and of those and GO no others. -/
def commandWord (old val : Word64) (rw go : Nat) : Word64 := BitVec.ofNat 64 (mergeBits old.toNat val.toNat rw &&& (rw ||| 2 ^ go))

/-- Its RW bits are those written. -/
theorem getLsbD_commandWord (old val : Word64) {rw i : Nat} (go : Nat) (hi : i < 64) (h : rw.testBit i = true) :
    (commandWord old val rw go).getLsbD i = val.getLsbD i := by
  unfold commandWord mergeBits
  rw [BitVec.getLsbD_ofNat, decide_eq_true hi, Bool.true_and, Nat.testBit_and, Nat.testBit_or, Nat.testBit_or, Nat.testBit_and,
    Nat.testBit_and, Nat.testBit_xor, h, show (0xFFFFFFFFFFFFFFFF : Nat) = 2 ^ 64 - 1 from rfl, Nat.testBit_two_pow_sub_one,
    decide_eq_true hi]
  simp only [bne_self_eq_false, Bool.and_false, Bool.and_true, Bool.false_or, Bool.true_or, BitVec.getLsbD]

end Sys2Proof.Proofs
end

section
/-!
PROOFS. O36: contexts, the segment cache and its mirror (R88 to R97).
-/

namespace Sys2Proof.Proofs

open Sys2Proof Sys2Proof.Machine Sys2Proof.Laws

/-! ## CRH_CTX_CFG -/

theorem auditReg_keeps (s : State) (p : Path) (off result : Nat) (val : Word64) :
    hide (maskOfZones [.tel, .st]) (s.auditReg p off result val) = hide (maskOfZones [.tel, .st]) s :=
  auditReg_hide (M := maskOfZones [.tel, .st]) rfl rfl s p off result val

/-- A register write that is made applies the value that the register takes, in a state that differs only in what the path wrote last, in
telemetry and in what Steta keeps of authority. -/
theorem regWrite_applies {s : State} {p : Path} {off size reg least : Nat} (h : s.hits p reg least off size) {row : RegRow}
    (hrow : regAt reg = some row) (val : Word64) (apply : State → Word64 → Word64 → State) :
    ∃ s1, s.regWrite p off size val reg least apply = apply s1 (regGet s p reg) (s.taken p reg off size val) ∧
      hide (maskOfZones [.lows, .tel, .st]) s1 = hide (maskOfZones [.lows, .tel, .st]) s := by
  obtain ⟨hoff, hfits, hwr⟩ := h
  unfold State.writable at hwr
  obtain ⟨hgate, hroom⟩ := Bool.and_eq_true_iff.mp hwr
  have hroom : ¬ (decide (p = .dbg) && s.auditFull) = true := Bool.eq_false_iff.mp ((Bool.not_eq_true' _).mp hroom)
  unfold State.regWrite State.taken
  rw [if_neg (not_not_intro hoff), beq_iff_eq.mp hgate, hrow]
  dsimp only
  rw [hfits, Bool.not_true, if_neg Bool.false_ne_true, if_neg hroom]
  refine ⟨_, rfl, ?_⟩
  split
  · rw [auditReg_hide (M := maskOfZones [.lows, .tel, .st]) rfl rfl]
    split <;> rfl
  · split <;> rfl

/-- CRH_CTX_CFG holds its context's word. -/
theorem regGet_ctxCfg (s : State) (p : Path) : regGet s p Reg.ctxCfg = s.ctx (bitf (s.own p Reg.ctxSel) 0 12) := rfl

theorem enterCtx_ctxCfg (s : State) (c : Nat) : (s.enterCtx c).ctxCfg = s.ctxCfg := rfl

/-- A context that is entered has no segment in the cache. -/
theorem enterCtx_drops (s : State) (c : Nat) : ∀ e ∈ (s.enterCtx c).xl.segs, e.ctx ≠ c := fun _ he =>
  bne_iff_ne.mp (List.mem_filter.mp he).2

/-- What a write that is made does with the word that the context had and the one that its fields take. -/
def ctxApply (p : Path) (s : State) (old new : Word64) : State :=
  let c := bitf (s.own p Reg.ctxSel) 0 12
  let t := ctxTake old new
  let s1 := if t.2 then s.count Ctr.cfgIgnored else s
  let s2 := { s1 with ctxCfg := mset s1.ctxCfg c t.1 }
  if bitb t.1 0 && !(bitb old 0) then s2.enterCtx c else s2

theorem ctxWrite_eq (s : State) (p : Path) (off size : Nat) (val : Word64) :
    s.ctxWrite p off size val = s.regWrite p off size val Reg.ctxCfg 1 (ctxApply p) := rfl

theorem ctxApply_ctxCfg (p : Path) (s : State) (old new : Word64) :
    (ctxApply p s old new).ctxCfg = mset s.ctxCfg (bitf (s.own p Reg.ctxSel) 0 12) (ctxTake old new).1 := by
  unfold ctxApply
  dsimp only
  split
  · rw [enterCtx_ctxCfg]
    split <;> rfl
  · split <;> rfl

/-- Setting EN drops the context's segments. -/
theorem ctxApply_drops {p : Path} {s : State} {old new : Word64} (hon : bitb (ctxTake old new).1 0 = true) (hoff : bitb old 0 = false) :
    ∀ e ∈ (ctxApply p s old new).xl.segs, e.ctx ≠ bitf (s.own p Reg.ctxSel) 0 12 := by
  unfold ctxApply
  dsimp only
  rw [hon, hoff, Bool.not_false, Bool.and_self, if_pos rfl]
  exact enterCtx_drops _ _

theorem ctx_of_mset {s t : State} {c : Nat} {v : Word64} (h : t.ctxCfg = mset s.ctxCfg c v) :
    t.ctx c = v ∧ ∀ j, j ≠ c → t.ctx j = s.ctx j := by
  unfold State.ctx
  rw [h]
  exact ⟨mgetD_mset_self .., fun j hj => mgetD_mset_ne _ _ _ _ _ hj.symm⟩

/-- What a write that is made leaves of the contexts and their segments. -/
theorem ctxWrite_takes {s : State} {p : Path} {off size c : Nat} (h : s.hits p Reg.ctxCfg 1 off size)
    (hc : bitf (s.own p Reg.ctxSel) 0 12 = c) (val : Word64) :
    (s.ctxWrite p off size val).ctx c = (ctxTake (s.ctx c) (s.taken p Reg.ctxCfg off size val)).1 ∧
      (∀ j, j ≠ c → (s.ctxWrite p off size val).ctx j = s.ctx j) ∧
      (s.ctxEn c = false → (s.ctxWrite p off size val).ctxEn c = true → ∀ e ∈ (s.ctxWrite p off size val).xl.segs, e.ctx ≠ c) := by
  obtain ⟨s1, heq, hs1⟩ := regWrite_applies h (row := ⟨0x20008, .cfg, 0xFFFFF0000000F, 0x0, 0x0⟩) rfl val (ctxApply p)
  have hsel : bitf (s1.own p Reg.ctxSel) 0 12 = c := by
    unfold State.own at hc ⊢
    rw [show s1.pregs = s.pregs from same_of_hide hs1 .pregs rfl, show s1.fuses = s.fuses from same_of_hide hs1 .fuses rfl, hc]
  rw [regGet_ctxCfg, hc] at heq
  have hcfg := ctxApply_ctxCfg p s1 (s.ctx c) (s.taken p Reg.ctxCfg off size val)
  rw [hsel, show s1.ctxCfg = s.ctxCfg from same_of_hide hs1 .ctxCfg rfl] at hcfg
  obtain ⟨hself, hothers⟩ := ctx_of_mset hcfg
  rw [ctxWrite_eq, heq]
  refine ⟨hself, hothers, fun hoff hon => ?_⟩
  unfold State.ctxEn at hoff hon
  rw [hself] at hon
  have hdrops := ctxApply_drops (p := p) (s := s1) hon hoff
  rw [hsel] at hdrops
  exact hdrops

/-! ## CRH_SEG_INVAL -/

/-- A register command that no core serves and that makes no record of its own, where software starts it now, runs with its word in the
register, in a state that else differs only in telemetry and in what Steta keeps of authority. -/
theorem command_stores {s : State} {p : Path} {off go least : Nat} (h : s.starts p off go least false none = true) {row : RegRow}
    (hrow : regAt off = some row) (val : Word64) (run : State → State) :
    ∃ s1, s.command p off go least false none val run = run (regPut s1 p off (commandWord (regGet s p off) val row.rw go)) ∧
      hide (maskOfZones [.tel, .st]) s1 = hide (maskOfZones [.tel, .st]) s := by
  simp only [State.starts, Bool.and_eq_true, beq_iff_eq, Bool.not_eq_true'] at h
  obtain ⟨⟨⟨hgate, hidle⟩, -⟩, hroom⟩ := h
  unfold State.command
  rw [hgate, hrow]
  dsimp only
  rw [hidle, Bool.false_and, if_neg Bool.false_ne_true, Bool.not_true, if_neg Bool.false_ne_true, hroom, if_neg Bool.false_ne_true]
  refine ⟨_, rfl, ?_⟩
  split
  · exact auditReg_keeps ..
  · rfl

theorem regGet_segInval_put (s : State) (p q : Path) (v : Word64) : regGet (regPut s p Reg.segInval v) q Reg.segInval = v :=
  mgetD_mset_self ..

theorem regGet_segInval (s : State) (p : Path) :
    regGet s p Reg.segInval = mgetD s.regs Reg.segInval (regReset s.fuses.member Reg.segInval) := rfl

/-- CRH_SEG_INVAL reads as idle with RESULT 0. -/
def segIdle (s : State) (p : Path) : Prop := bitb (regGet s p Reg.segInval) 39 = false ∧ bitf (regGet s p Reg.segInval) 40 8 = 0

theorem invalDone_idle (s : State) (p : Path) : segIdle (s.invalDone p 0) p := by
  unfold segIdle State.invalDone
  rw [regGet_segInval_put]
  refine ⟨?_, bitf_putf_self _ (by decide) 0⟩
  unfold bitb
  rw [getLsbD_putf_of_outside _ (.inl (by decide))]
  exact bitb_putf_self _ (by decide) 0

/-- The cache holds no segment of a context that a mask names. -/
def noSegs (s : State) (c mask : Nat) : Prop := ∀ e ∈ s.xl.segs, e.ctx = c → mask / 2 ^ e.seg % 2 = 0

theorem readMirror_segs (s : State) (c port : Nat) : (s.readMirror c port).xl = s.xl := by
  unfold State.readMirror
  split <;> rfl

theorem dropSegs_segs (s : State) (c mask : Nat) :
    (s.dropSegs c mask).xl.segs = s.xl.segs.filter fun e => !(e.ctx == c && mask / 2 ^ e.seg % 2 == 1) := by
  unfold State.dropSegs
  dsimp only
  split
  · split
    · rfl
    · rw [readMirror_segs]
      rfl
  · rfl

theorem dropSegs_noSegs (s : State) (c mask : Nat) : noSegs (s.dropSegs c mask) c mask := by
  intro e he hctx
  rw [dropSegs_segs] at he
  have hkept := (List.mem_filter.mp he).2
  rw [hctx, beq_self_eq_true, Bool.true_and, Bool.not_eq_true', beq_eq_false_iff_ne] at hkept
  exact (Nat.mod_two_eq_zero_or_one _).resolve_right hkept

theorem dropSegs_keeps (s : State) (c mask : Nat) : hide (maskOfZones [.xl, .out]) (s.dropSegs c mask) = hide (maskOfZones [.xl, .out]) s :=
  dropSegs_hide (M := maskOfZones [.xl, .out]) rfl rfl s c mask

theorem pricked_congr {s t : State} (h : t.fe = s.fe) (c mask : Nat) : t.pricked c mask = s.pricked c mask := by
  unfold State.pricked
  rw [h]

/-- What CRH_SEG_INVAL holds as a command of it starts. -/
def segWord (s : State) (p : Path) (op : Nat) (val : Word64) : Word64 :=
  commandWord (regGet s p Reg.segInval) (putf (putf val 32 3 op) 39 1 1) 0x87FFFF0FFF 39

/-- Below OP, its RW bits are those that software writes. -/
theorem getLsbD_segWord (s : State) (p : Path) (op : Nat) (val : Word64) {i : Nat} (hi : i < 32)
    (hrw : Nat.testBit 0x87FFFF0FFF i = true) : (segWord s p op val).getLsbD i = val.getLsbD i := by
  unfold segWord
  rw [getLsbD_commandWord _ _ _ (by omega) hrw, getLsbD_putf_of_outside _ (.inl (by omega)), getLsbD_putf_of_outside _ (.inl hi)]

theorem segWord_ctx (s : State) (p : Path) (op : Nat) (val : Word64) : bitf (segWord s p op val) 0 12 = bitf val 0 12 := by
  have hrw : ∀ i < 12, Nat.testBit 0x87FFFF0FFF (0 + i) = true := by decide
  exact bitf_eq_of_bits fun i hi => getLsbD_segWord s p op val (by omega) (hrw i hi)

theorem segWord_mask (s : State) (p : Path) (op : Nat) (val : Word64) : bitf (segWord s p op val) 16 16 = bitf val 16 16 := by
  have hrw : ∀ i < 16, Nat.testBit 0x87FFFF0FFF (16 + i) = true := by decide
  exact bitf_eq_of_bits fun i hi => getLsbD_segWord s p op val (by omega) (hrw i hi)

theorem segWord_go (s : State) (p : Path) (op : Nat) (val : Word64) : bitb (segWord s p op val) 39 = true := by
  unfold bitb segWord
  rw [getLsbD_commandWord _ _ _ (by decide) (by decide)]
  exact bitb_putf_self _ (by decide) 1

/-- A command of CRH_SEG_INVAL that software starts now on a context whose EN is 1 runs with GO at 1 and with the context and the mask that
were written; descriptors are as they were. -/
theorem segCmd_runs {s : State} {p : Path} {val : Word64} (h : s.starts p Reg.segInval 39 1 false none = true)
    (hen : s.ctxEn (bitf val 0 12) = true) (op : Nat) (run : State → Nat → Nat → State) :
    ∃ s1, s.segCmd p op val run = run s1 (bitf val 0 12) (bitf val 16 16) ∧ s1.fe = s.fe ∧
      bitb (regGet s1 p Reg.segInval) 39 = true := by
  obtain ⟨s1, heq, hs1⟩ := command_stores h (row := ⟨0x40008, .cmd, 0x87FFFF0FFF, 0x0, 0x0⟩) rfl (putf (putf val 32 3 op) 39 1 1) fun s =>
    let v := regGet s p Reg.segInval
    let c := bitf v 0 12
    if !(s.ctxEn c) then s.invalDone p 2 else run s c (bitf v 16 16)
  change s.segCmd p op val run = _ at heq
  dsimp only at heq
  rw [← segWord, regGet_segInval_put, segWord_ctx, segWord_mask] at heq
  have hcfg : (regPut s1 p Reg.segInval (segWord s p op val)).ctxCfg = s.ctxCfg := same_of_hide hs1 .ctxCfg rfl
  refine ⟨_, heq.trans (if_neg ?_), ?_, ?_⟩
  · unfold State.ctxEn State.ctx at hen ⊢
    rw [hcfg, hen]
    exact Bool.false_ne_true
  · rw [regPut_fe]
    exact same_of_hide hs1 .fe rfl
  · rw [regGet_segInval_put]
    exact segWord_go ..

theorem inval_drops {s : State} {p : Path} {val : Word64} (h : s.starts p Reg.segInval 39 1 false none = true)
    (hen : s.ctxEn (bitf val 0 12) = true) :
    ∃ t, exec (.inval p val) s = .next t ∧ segIdle t p ∧ noSegs t (bitf val 0 12) (bitf val 16 16) := by
  obtain ⟨s1, heq, -, -⟩ := segCmd_runs h hen 1 fun s c mask => (s.dropSegs c mask).invalDone p 0
  exact ⟨_, congrArg Host.Outcome.next heq, invalDone_idle .., dropSegs_noSegs s1 _ _⟩

/-- What INVAL_DRAIN does once it has started. -/
def drainSegs (p : Path) (s : State) (c mask : Nat) : State :=
  let s1 := s.dropSegs c mask
  let w := s1.pricked c mask
  if w.isEmpty then s1.invalDone p 0 else s1.onXl fun x => { x with drain := some (c, mask, w) }

theorem exec_invalDrain (p : Path) (val : Word64) (s : State) : exec (.invalDrain p val) s = .next (s.segCmd p 2 val (drainSegs p)) := rfl

/-- It ends at once where no descriptor is pricked against the segments, and waits for those that are. -/
theorem drainSegs_waits (p : Path) (s : State) (c mask : Nat) (hgo : bitb (regGet s p Reg.segInval) 39 = true) :
    bitb (regGet (drainSegs p s c mask) p Reg.segInval) 39 = !(s.pricked c mask).isEmpty ∧
      (s.pricked c mask ≠ [] → (drainSegs p s c mask).xl.drain = some (c, mask, s.pricked c mask)) ∧
      noSegs (drainSegs p s c mask) c mask := by
  have hdrop := dropSegs_keeps s c mask
  have hno := dropSegs_noSegs s c mask
  unfold drainSegs
  dsimp only
  rw [pricked_congr (same_of_hide hdrop .fe rfl)]
  by_cases hw : s.pricked c mask = []
  · rw [hw, List.isEmpty_nil, if_pos rfl, Bool.not_true]
    exact ⟨(invalDone_idle _ p).1, fun h => absurd rfl h, hno⟩
  · rw [List.isEmpty_eq_false_iff.mpr hw, if_neg Bool.false_ne_true, Bool.not_false]
    refine ⟨?_, fun _ => rfl, hno⟩
    rw [regGet_segInval, onXl_regs, onXl_fuses, show (s.dropSegs c mask).regs = s.regs from same_of_hide hdrop .regs rfl,
      show (s.dropSegs c mask).fuses = s.fuses from same_of_hide hdrop .fuses rfl]
    exact hgo

theorem invalDrain_waits {s : State} {p : Path} {val : Word64} (h : s.starts p Reg.segInval 39 1 false none = true)
    (hen : s.ctxEn (bitf val 0 12) = true) :
    ∃ t, exec (.invalDrain p val) s = .next t ∧
      bitb (regGet t p Reg.segInval) 39 = !(s.pricked (bitf val 0 12) (bitf val 16 16)).isEmpty ∧
      (s.pricked (bitf val 0 12) (bitf val 16 16) ≠ [] →
        t.xl.drain = some (bitf val 0 12, bitf val 16 16, s.pricked (bitf val 0 12) (bitf val 16 16))) ∧
      noSegs t (bitf val 0 12) (bitf val 16 16) := by
  obtain ⟨s1, heq, hfe, hgo⟩ := segCmd_runs h hen 2 (drainSegs p)
  have hwaits := drainSegs_waits p s1 (bitf val 0 12) (bitf val 16 16) hgo
  rw [pricked_congr hfe] at hwaits
  rw [exec_invalDrain, heq]
  exact ⟨_, rfl, hwaits⟩

/-! ## The mirror block -/

/-- An entry of a block is its context's and bears its own number. -/
theorem mirrorEntry_names {c i : Nat} {block : Bytes} {g : SegEntry} (h : (mirrorEntry c i block).1 = some g) : g.ctx = c ∧ g.seg = i := by
  unfold mirrorEntry at h
  dsimp only at h
  split at h
  · cases h
  split at h
  · cases h
  · cases h
    exact ⟨rfl, rfl⟩

/-- What the fill of the segment cache does with one entry of the block. -/
def fillStep (s : State) (e : Option SegEntry × Bool) : State :=
  match e.1 with
  | some g => s.onXl fun x => x.putSeg g
  | none => s

/-- The valid entries of a block, each with the lower-numbered ones that overlap it. -/
def blockSegs (c : Nat) (block : Bytes) : List (Option SegEntry × Bool) :=
  let all := (List.range 16).map fun i => mirrorEntry c i block
  all.map fun e => (e.1.map fun g => g.under (all.filterMap (·.1)), e.2)

theorem fillSegs_eq (s : State) (c : Nat) (block : Bytes) : s.fillSegs c block =
    (State.forEach fillStep (blockSegs c block) (s.onXl fun x => { x with segs := x.segs.filter fun e => e.ctx != c })).countN Ctr.cfgIgnored
      ((blockSegs c block).filter (·.2)).length := rfl

/-- A segment that is put in the cache goes before those of its context that are there, under other numbers; where one gives way it is another
context's. -/
theorem putSeg_front {x : Translation} {c : Nat} {held rest : List SegEntry} {g : SegEntry} (hsegs : x.segs = held ++ rest)
    (hrest : ∀ e ∈ rest, e.ctx ≠ c) (hctx : g.ctx = c) (hnew : ∀ e ∈ held, e.seg ≠ g.seg) (hlen : held.length < 512) :
    ∃ rest', (x.putSeg g).segs = g :: held ++ rest' ∧ ∀ e ∈ rest', e.ctx ≠ c := by
  have hall : x.segs.filter (fun f => !(f.ctx == g.ctx && f.seg == g.seg)) = held ++ rest := by
    rw [hsegs]
    refine List.filter_eq_self.mpr fun e he => ?_
    rcases List.mem_append.mp he with h | h
    · rw [beq_eq_false_iff_ne.mpr (hnew e h), Bool.and_false, Bool.not_false]
    · rw [hctx, beq_eq_false_iff_ne.mpr (hrest e h), Bool.false_and, Bool.not_false]
  unfold Translation.putSeg
  rw [hall]
  dsimp only
  split
  next hfull =>
    have hne : rest ≠ [] := by
      rintro rfl
      rw [List.append_nil] at hfull
      omega
    exact ⟨rest.dropLast, by rw [List.dropLast_append_of_ne_nil hne, List.cons_append], fun e he => hrest e (List.dropLast_subset rest he)⟩
  · exact ⟨rest, rfl, hrest⟩

/-- The entries of a block stand at the front of the cache once they are filled, and no other entry there is of their context. -/
theorem fillSteps_front {c : Nat} (es : List (Option SegEntry × Bool)) {s : State} {held rest : List SegEntry}
    (hsegs : s.xl.segs = held ++ rest) (hrest : ∀ e ∈ rest, e.ctx ≠ c) (hctx : ∀ g ∈ es.filterMap (·.1), g.ctx = c)
    (hnodup : ((es.filterMap (·.1)).map SegEntry.seg).Nodup) (hnew : ∀ g ∈ es.filterMap (·.1), ∀ e ∈ held, e.seg ≠ g.seg)
    (hlen : es.length + held.length ≤ 512) :
    ∃ rest', (State.forEach fillStep es s).xl.segs = (es.filterMap (·.1)).reverse ++ held ++ rest' ∧ ∀ e ∈ rest', e.ctx ≠ c := by
  induction es generalizing s held rest with
  | nil => exact ⟨rest, hsegs, hrest⟩
  | cons e es ih =>
    obtain ⟨entry, bad⟩ := e
    rw [List.length_cons] at hlen
    cases entry with
    | none => exact ih hsegs hrest hctx hnodup hnew (by omega)
    | some g =>
      have hcons : ((some g, bad) :: es).filterMap (·.1) = g :: es.filterMap (·.1) := rfl
      rw [hcons] at hctx hnodup hnew ⊢
      obtain ⟨hg, hctx⟩ := List.forall_mem_cons.mp hctx
      obtain ⟨hgnew, hnew⟩ := List.forall_mem_cons.mp hnew
      rw [List.map_cons, List.nodup_cons] at hnodup
      obtain ⟨hfirst, hnodup⟩ := hnodup
      obtain ⟨rest1, hput, hrest1⟩ := putSeg_front hsegs hrest hg hgnew (by omega)
      have hnew1 : ∀ f ∈ es.filterMap (·.1), ∀ e ∈ g :: held, e.seg ≠ f.seg := fun f hf e he =>
        (List.mem_cons.mp he).elim (fun h heq => hfirst (List.mem_map.mpr ⟨f, hf, by rw [← heq, h]⟩)) (hnew f hf e)
      obtain ⟨rest2, hfill, hrest2⟩ := ih (s := s.onXl fun x => x.putSeg g) hput hrest1 hctx hnodup hnew1 (by rw [List.length_cons]; omega)
      exact ⟨rest2, by rw [List.reverse_cons, List.append_assoc, List.append_assoc]; exact hfill.trans (List.append_assoc ..), hrest2⟩

/-- The valid entries of a block, but for those that lie beneath them, are what the block names. -/
theorem mem_blockSegs {c : Nat} {block : Bytes} {e : SegEntry} : e ∈ (blockSegs c block).filterMap (·.1) ↔
    ∃ i g, i < 16 ∧ (mirrorEntry c i block).1 = some g ∧
      e = g.under (((List.range 16).map fun i => mirrorEntry c i block).filterMap (·.1)) := by
  unfold blockSegs
  simp only [List.filterMap_map, List.mem_filterMap, List.mem_range, Function.comp_apply, Option.map_eq_some_iff]
  constructor
  · rintro ⟨i, hi, g, hg, rfl⟩
    exact ⟨i, g, hi, hg, rfl⟩
  · rintro ⟨i, g, hi, hg, rfl⟩
    exact ⟨i, hi, g, hg, rfl⟩

theorem blockSegs_length (c : Nat) (block : Bytes) : (blockSegs c block).length = 16 := by
  unfold blockSegs
  rw [List.length_map, List.length_map, List.length_range]

theorem blockSegs_nodup (c : Nat) (block : Bytes) : (((blockSegs c block).filterMap (·.1)).map SegEntry.seg).Nodup := by
  unfold blockSegs
  simp only [List.filterMap_map, List.map_filterMap]
  refine List.Pairwise.filterMap _ (fun i j hij n hi m hj hnm => hij ?_) List.nodup_range
  have hseg : ∀ n k, n ∈ (((mirrorEntry c k block).1.map fun g => g.under (((List.range 16).filterMap
      ((·.1) ∘ fun i => mirrorEntry c i block)))).map SegEntry.seg) → n = k := by
    intro n k hk
    obtain ⟨e, he, rfl⟩ := Option.map_eq_some_iff.mp hk
    obtain ⟨g, hg, rfl⟩ := Option.map_eq_some_iff.mp he
    exact (mirrorEntry_names hg).2
  exact (hseg n i hi).symm.trans (hnm.trans (hseg m j hj))

/-- A block makes its context's segments those of its valid entries. -/
theorem fillSegs_segs (s : State) (c : Nat) (block : Bytes) :
    ∃ rest, (s.fillSegs c block).xl.segs = ((blockSegs c block).filterMap (·.1)).reverse ++ rest ∧ ∀ e ∈ rest, e.ctx ≠ c := by
  have hctx : ∀ g ∈ (blockSegs c block).filterMap (·.1), g.ctx = c := by
    intro e he
    obtain ⟨i, g, -, hg, rfl⟩ := mem_blockSegs.mp he
    exact (mirrorEntry_names hg).1
  obtain ⟨rest, hfill, hrest⟩ := fillSteps_front (c := c) (blockSegs c block)
    (s := s.onXl fun x => { x with segs := x.segs.filter fun e => e.ctx != c }) (held := []) rfl
    (fun e he => bne_iff_ne.mp (List.mem_filter.mp he).2) hctx (blockSegs_nodup c block) (fun _ _ _ h => absurd h List.not_mem_nil)
    (by rw [blockSegs_length]; decide)
  rw [List.append_nil] at hfill
  exact ⟨rest, hfill, hrest⟩

theorem fillSegs_mirror (s : State) (c : Nat) (block : Bytes) : (s.fillSegs c block).xl.mirror = s.xl.mirror :=
  forEach_keeps (P := fun u => u.xl.mirror = s.xl.mirror) (f := fillStep) _ (fun u e _ hu => by
    unfold fillStep
    split
    · exact hu
    · exact hu) _ rfl

theorem fillSegs_fe (s : State) (c : Nat) (block : Bytes) : (s.fillSegs c block).fe = s.fe :=
  forEach_keeps (P := fun u => u.fe = s.fe) (f := fillStep) _ (fun u e _ hu => by
    unfold fillStep
    split
    · exact hu
    · exact hu) _ rfl

/-- A block that no descriptor waits for fills the cache. -/
theorem mirrorReturn_fills {s : State} {c : Nat} {block : Bytes} (hout : s.mirrorOut c = true) (hold : ∀ m ∈ s.xl.mirrorOld, m.1 ≠ c)
    (hwait : ∀ d ∈ s.fe.descs, d.mirror = true → d.ctx ≠ c) :
    (s.mirrorReturn c block).xl = ((s.onXl fun x => { x with mirror := x.mirror.filter fun m => m.1 != c }).fillSegs c block).xl := by
  have hnew : (s.xl.mirrorOld.any fun m => m.1 == c) = false :=
    List.any_eq_false.mpr fun m hm => by simpa only [beq_iff_eq, ne_eq] using hold m hm
  have hnone : s.fe.descs.filter (fun d => d.mirror && d.ctx == c) = [] :=
    List.filter_eq_nil_iff.mpr fun d hd => by simpa only [Bool.and_eq_true, beq_iff_eq, not_and, ne_eq] using hwait d hd
  unfold State.mirrorReturn
  rw [hnew, if_neg Bool.false_ne_true, hout, Bool.not_true, if_neg Bool.false_ne_true]
  dsimp only
  rw [fillSegs_fe, onXl_fe, hnone]
  rfl

theorem mirrorReturn_segs {s : State} {c : Nat} {block : Bytes} (hout : s.mirrorOut c = true) (hold : ∀ m ∈ s.xl.mirrorOld, m.1 ≠ c)
    (hwait : ∀ d ∈ s.fe.descs, d.mirror = true → d.ctx ≠ c) :
    (s.mirrorReturn c block).mirrorOut c = false ∧
      (∀ i, i < 16 → ∀ g, (mirrorEntry c i block).1 = some g →
        ∃ e ∈ (s.mirrorReturn c block).xl.segs, { e with beneath := g.beneath } = g) ∧
      ∀ e ∈ (s.mirrorReturn c block).xl.segs, e.ctx = c →
        ∃ i g, i < 16 ∧ (mirrorEntry c i block).1 = some g ∧ { e with beneath := g.beneath } = g := by
  obtain ⟨rest, hsegs, hrest⟩ := fillSegs_segs (s.onXl fun x => { x with mirror := x.mirror.filter fun m => m.1 != c }) c block
  unfold State.mirrorOut
  rw [mirrorReturn_fills hout hold hwait, fillSegs_mirror, hsegs]
  refine ⟨?_, ?_, ?_⟩
  · exact List.any_eq_false.mpr fun m hm => by simpa only [beq_iff_eq, bne_iff_ne, ne_eq] using (List.mem_filter.mp hm).2
  · intro i hi g hg
    exact ⟨_, List.mem_append_left _ (List.mem_reverse.mpr (mem_blockSegs.mpr ⟨i, g, hi, hg, rfl⟩)), rfl⟩
  · intro e he hctx
    have hmem := (List.mem_append.mp he).resolve_right fun h => hrest e h hctx
    obtain ⟨i, g, hi, hg, rfl⟩ := mem_blockSegs.mp (List.mem_reverse.mp hmem)
    exact ⟨i, g, hi, hg, rfl⟩

/-- A block that was read before an INVAL is discarded. -/
theorem mirrorReturn_discards {s : State} {m : Nat × Nat} {c : Nat} (hm : m ∈ s.xl.mirrorOld) (hc : m.1 = c) (block : Bytes) :
    (s.mirrorReturn c block).xl.segs = s.xl.segs ∧ (s.mirrorReturn c block).fe = s.fe ∧
      (s.mirrorReturn c block).xl.mirrorOld.length + 1 = s.xl.mirrorOld.length := by
  have hmc : (m.1 == c) = true := beq_iff_eq.mpr hc
  have hold : (s.xl.mirrorOld.any fun m => m.1 == c) = true := List.any_eq_true.mpr ⟨m, hm, hmc⟩
  unfold State.mirrorReturn
  rw [hold, if_pos rfl]
  refine ⟨rfl, rfl, ?_⟩
  have hlen : (s.xl.mirrorOld.eraseP fun m => m.1 == c).length = s.xl.mirrorOld.length - 1 := List.length_eraseP_of_mem hm hmc
  have hpos := List.length_pos_of_mem hm
  change (s.xl.mirrorOld.eraseP fun m => m.1 == c).length + 1 = _
  omega

/-- Settles O36: a write that is made changes the one context; the word of a command keeps the context and the mask that are written, and
while INVAL_DRAIN waits its GO; the valid entries of a block go to the front of a cache that has room for them. -/
theorem contextsAndSegments : Obligations.ContextsAndSegments := by
  unfold Obligations.ContextsAndSegments
  refine ⟨?_, ?_, ?_, ?_, ?_⟩
  · exact fun p off size val s h => ⟨_, rfl, ctxWrite_takes h rfl val⟩
  · intro p val s h hen
    obtain ⟨t, hexec, ⟨hgo, hresult⟩, hsegs⟩ := inval_drops h hen
    exact ⟨t, hexec, hgo, hresult, hsegs⟩
  · exact fun p val s h hen => invalDrain_waits h hen
  · exact fun c block s hout hold hwait => ⟨_, rfl, mirrorReturn_segs hout hold hwait⟩
  · exact fun c block m s hm hc => ⟨_, rfl, mirrorReturn_discards hm hc block⟩

end Sys2Proof.Proofs
end

section
/-!
PROOFS. What pricking keeps of page requests (R103): it stops and starts none for a function, and it makes none for a range whose lacking
pages have all been named by one, since that range faults.
-/

namespace Sys2Proof.Proofs

open Sys2Proof Sys2Proof.Machine Sys2Proof.Laws

/-! ## Pages that page requests have named -/

/-- A page request has named every page that the range lacks. -/
def LackNamed (r : Range) : Prop := ∀ o ∈ r.lack, o ∈ r.pri

/-- So it is with every range of the descriptor. -/
def RangesNamed (d : Desc) : Prop := ∀ r ∈ d.ranges, LackNamed r

/-- So it is with every descriptor that the block holds. -/
def DescsNamed (s : State) : Prop := ∀ d ∈ s.fe.descs, RangesNamed d

/-- From s to t page requests are stopped for the same functions and, where N holds, none is made and no descriptor comes to lack a page that
none has named. -/
structure PriKept (N : Prop) (s t : State) : Prop where
  stop  : t.xl.priStop = s.xl.priStop
  pri   : N → t.xl.pri = s.xl.pri
  named : N → DescsNamed s → DescsNamed t

variable {N : Prop}

theorem PriKept.refl (s : State) : PriKept N s s := ⟨rfl, fun _ => rfl, fun _ h => h⟩

theorem PriKept.trans {s t u : State} (h : PriKept N s t) (h' : PriKept N t u) : PriKept N s u :=
  ⟨h'.stop.trans h.stop, fun n => (h'.pri n).trans (h.pri n), fun n hs => h'.named n (h.named n hs)⟩

theorem PriKept.mono {M : Prop} {s t : State} (h : PriKept N s t) (hM : M → N) : PriKept M s t :=
  ⟨h.stop, fun m => h.pri (hM m), fun m => h.named (hM m)⟩

/-- A change of other parts. -/
theorem PriKept.of_eq {s t : State} (hstop : t.xl.priStop = s.xl.priStop) (hpri : t.xl.pri = s.xl.pri) (hdescs : t.fe.descs = s.fe.descs) :
    PriKept N s t := by
  refine ⟨hstop, fun _ => hpri, fun _ hs => ?_⟩
  unfold DescsNamed at hs ⊢
  rw [hdescs]
  exact hs

theorem setDesc_priKept (s : State) {d : Desc} (hd : N → RangesNamed d) : PriKept N s (s.setDesc d) := by
  refine ⟨rfl, fun _ => rfl, fun n hs e he => ?_⟩
  obtain ⟨e0, he0, rfl⟩ := List.mem_map.mp he
  split
  · exact hd n
  · exact hs e0 he0

theorem endDesc_priKept (s : State) (id : Nat) (st : BitVec 8) (detail done : Nat) (info : Word64) :
    PriKept N s (s.endDesc id st detail done info) := by
  refine ⟨rfl, fun _ => rfl, fun _ hs e he => ?_⟩
  unfold State.endDesc at he
  rw [settle_descs] at he
  obtain ⟨e0, he0, rfl⟩ := List.mem_map.mp he
  split
  · exact hs e0 he0
  · exact hs e0 he0

theorem setRange_named {d : Desc} {r : Range} (hd : RangesNamed d) (hr : LackNamed r) (i : Nat) : RangesNamed (d.setRange i r) := by
  intro q hq
  rcases List.mem_or_eq_of_mem_set hq with h | rfl
  · exact hd q h
  · exact hr

/-! ## The parts of pricking -/

theorem abandon_priKept (s : State) (id : Nat) : PriKept N s (s.abandon id) :=
  .of_eq (by rw [abandon_xl]) (by rw [abandon_xl]) (by rw [abandon_fe])

theorem park_priKept (s : State) {d : Desc} (hd : N → RangesNamed d) : PriKept N s (s.park d) := by
  unfold State.park
  split
  · exact setDesc_priKept s hd
  split
  · exact (setDesc_priKept s (d := { d with stage := .parked }) hd).trans (.of_eq rfl rfl rfl)
  · exact (setDesc_priKept s (d := { d with stage := .headWait }) hd).trans (.of_eq rfl rfl rfl)

theorem pass_priKept (s : State) {d : Desc} (hd : N → RangesNamed d) : PriKept N s (s.pass d) := by
  unfold State.pass
  refine PriKept.trans (t := s.setDesc _) (setDesc_priKept s ?_) (.of_eq rfl rfl rfl)
  exact hd

theorem stopFault_priKept (s : State) {d : Desc} (hd : N → RangesNamed d) : PriKept N s (s.stopFault d) := by
  unfold State.stopFault
  split
  · exact (setDesc_priKept s hd).trans (endDesc_priKept ..)
  · exact .refl s

theorem runAhead_priKept (s : State) (d : Desc) (r : Range) : PriKept N s (s.runAhead d r) := by
  unfold State.runAhead
  dsimp only
  repeat' split
  all_goals exact .of_eq rfl rfl rfl

theorem askMirror_priKept (s : State) (c port : Nat) : PriKept N s (s.askMirror c port) := by
  unfold State.askMirror State.readMirror
  repeat' split
  all_goals exact .of_eq rfl rfl rfl

/-- What pricking one range led to keeps page requests, and leaves no page of the range or of the descriptor that none has named. -/
def RangeKept (N : Prop) (s : State) : Pricked → Prop
  | .done s1 r => PriKept N s s1 ∧ (N → LackNamed r)
  | .wait s1 d => PriKept N s s1 ∧ (N → RangesNamed d)

theorem RangeKept.after {s s1 : State} (h : PriKept N s s1) {p : Pricked} (hp : RangeKept N s1 p) : RangeKept N s p := by
  cases p with
  | done s2 r => exact ⟨h.trans hp.1, hp.2⟩
  | wait s2 d => exact ⟨h.trans hp.1, hp.2⟩

section
variable {d : Desc} {r : Range} (hd : N → RangesNamed d) (hr : N → LackNamed r)
include hd hr

theorem prickSeg_kept (s : State) (i : Nat) : RangeKept N s (s.prickSeg d i r) := by
  have hset : N → RangesNamed (d.setRange i { r with miss := true }) := fun n => setRange_named (hd n) (r := { r with miss := true }) (hr n) i
  unfold State.prickSeg
  dsimp only
  split
  · exact ⟨.refl s, hr⟩
  split
  · split
    · exact ⟨PriKept.trans (t := s.countN _ _) (.of_eq rfl rfl rfl) (askMirror_priKept ..), hset⟩
    · exact ⟨.of_eq rfl rfl rfl, hset⟩
  · refine ⟨?_, hr⟩
    repeat' split
    all_goals exact .of_eq rfl rfl rfl

/-- A range that lacks pages makes no page request where one has named them all: its access faults. -/
theorem prickLack_kept (s : State) (i : Nat) (hlack : r.lack ≠ []) : RangeKept N s (s.prickLack d i r) := by
  have hset : N → RangesNamed (d.setRange i r) := fun n => setRange_named (hd n) (hr n) i
  unfold State.prickLack
  dsimp only
  split
  · exact ⟨.refl s, hr⟩
  next hmay =>
    have hunnamed : ¬ N := by
      intro n
      refine hmay (Bool.or_eq_true_iff.mpr (.inr (List.any_eq_true.mpr ?_)))
      obtain ⟨o, ho⟩ := List.exists_mem_of_ne_nil _ hlack
      exact ⟨o, ho, List.contains_iff_mem.mpr (hr n o ho)⟩
    split
    · exact ⟨.refl s, hset⟩
    · exact ⟨⟨rfl, fun n => absurd n hunnamed, fun n => absurd n hunnamed⟩, fun n => absurd n hunnamed⟩

theorem askPages_kept (s : State) (i : Nat) (miss : List PageRef) : RangeKept N s (s.askPages d i r miss) := by
  unfold State.askPages
  split
  · exact ⟨.of_eq rfl rfl rfl, fun n => setRange_named (d := { d with ats := true, askR := i, askP := miss.map PageRef.off }) (hd n) (hr n) i⟩
  · exact ⟨.refl s, fun n => setRange_named (hd n) (hr n) i⟩

theorem prickXlate_kept (s : State) (i : Nat) : RangeKept N s (s.prickXlate d i r) := by
  unfold State.prickXlate
  dsimp only
  split
  · exact ⟨.refl s, hr⟩
  split
  · next h => exact prickLack_kept hd hr s i (by simpa only [ne_eq, Bool.not_eq_eq_eq_not, Bool.not_true, List.isEmpty_eq_false_iff] using h)
  split
  · split
    · exact ⟨.of_eq rfl rfl rfl, hr⟩
    · refine RangeKept.after ?_ (askPages_kept hd ?_ _ i _)
      · exact .of_eq rfl rfl rfl
      · exact hr
  · split
    · exact ⟨.refl s, fun n => setRange_named (hd n) (hr n) i⟩
    split
    · exact ⟨.of_eq rfl rfl rfl, hr⟩
    · refine RangeKept.after ?_ (askPages_kept hd hr _ i _)
      exact .of_eq rfl rfl rfl

theorem prickRange_kept (s : State) (i : Nat) : RangeKept N s (s.prickRange d i r) := by
  have hseg := prickSeg_kept hd hr s i
  unfold State.prickRange
  split
  · next h => rw [h] at hseg; exact hseg
  · next h =>
    rw [h] at hseg
    exact .after hseg.1 (prickXlate_kept hd hseg.2 _ i)

end

/-! ## A descriptor -/

theorem prickFrom_priKept (s : State) {d : Desc} (hd : N → RangesNamed d) (fuel i : Nat) : PriKept N s (s.prickFrom d fuel i) := by
  induction fuel generalizing s d i with
  | zero => exact pass_priKept s hd
  | succ n ih =>
    unfold State.prickFrom
    split
    · exact pass_priKept s hd
    next r hri =>
    split
    · split
      · exact stopFault_priKept s hd
      · exact ih s hd (i + 1)
    have hrange := prickRange_kept hd (fun n => hd n r (List.mem_of_getElem? hri)) s i
    split
    · next h =>
      rw [h] at hrange
      exact hrange.1.trans (park_priKept _ hrange.2)
    · next s1 r1 h =>
      rw [h] at hrange
      have hd1 : N → RangesNamed (d.setRange i r1) := fun n => setRange_named (hd n) (hrange.2 n) i
      dsimp only
      split
      · exact hrange.1.trans ((setDesc_priKept _ hd1).trans (endDesc_priKept ..))
      split
      · refine hrange.1.trans (PriKept.trans ?_ (stopFault_priKept _ hd1))
        split
        · exact .refl s1
        · exact abandon_priKept ..
      · refine hrange.1.trans (PriKept.trans ?_ (ih _ hd1 (i + 1)))
        split
        · exact runAhead_priKept ..
        · exact .refl s1

theorem bulkSeg_kept (s : State) {d : Desc} (hd : N → RangesNamed d) (i : Nat) :
    PriKept N s (s.bulkSeg d i).1 ∧ (N → RangesNamed (s.bulkSeg d i).2.1) := by
  unfold State.bulkSeg
  split
  · exact ⟨.refl s, hd⟩
  next r hri =>
    have hseg := prickSeg_kept hd (fun n => hd n r (List.mem_of_getElem? hri)) s i
    split
    · next h => rw [h] at hseg; exact hseg
    · next h => rw [h] at hseg; exact ⟨hseg.1, fun n => setRange_named (hd n) (hseg.2 n) i⟩

theorem prickAll_priKept (s : State) {d : Desc} (hd : N → RangesNamed d) : PriKept N s (s.prickAll d) := by
  unfold State.prickAll
  split
  · have both : ∀ b : State × Desc × Bool, PriKept N s b.1 ∧ (N → RangesNamed b.2.1) →
        PriKept N s (if b.2.1.misdirected then (b.1.setDesc b.2.1).endDesc d.id St.badFormat 3 0 0
          else if b.2.2 then b.1.park { b.2.1 with seen := false } else b.1.prickFrom b.2.1 (d.ranges.length + 1) 0) := by
      rintro b ⟨hb, hbd⟩
      split
      · exact hb.trans ((setDesc_priKept _ hbd).trans (endDesc_priKept ..))
      split
      · exact hb.trans (park_priKept _ hbd)
      · exact hb.trans (prickFrom_priKept _ hbd ..)
    have h0 := bulkSeg_kept s hd 0
    refine both _ ?_
    split
    · exact h0
    · have h1 := bulkSeg_kept (s.bulkSeg d 0).1 h0.2 1
      exact ⟨h0.1.trans h1.1, h1.2⟩
  · exact prickFrom_priKept s hd ..

theorem prick_priKept (s : State) (id : Nat) : PriKept (DescsNamed s) s (s.prick id) := by
  unfold State.prick
  split
  · exact .refl s
  next d h =>
    split
    · exact .refl s
    · exact prickAll_priKept s fun hs => hs d (List.mem_of_find?_eq_some h)

/-- Going on with the descriptors that wait makes no page request where every page that one lacks has been named. -/
theorem retryParked_priKept (s : State) : PriKept (DescsNamed s) s s.retryParked :=
  forEach_keeps (P := PriKept (DescsNamed s) s) _
    (fun u id _ hu => hu.trans ((prick_priKept u id).mono fun hs => hu.named hs hs)) s (.refl s)

end Sys2Proof.Proofs
end

section
/-!
PROOFS. O37: run-ahead translations, page requests and the fault park (R99 to R105, R110, R111).
-/

namespace Sys2Proof.Proofs

open Sys2Proof Sys2Proof.Machine Sys2Proof.Laws

/-! ## ATS_TRANSLATION_COMPLETION for a run-ahead -/

theorem exec_atsTranslationCompletion (id : Nat) (xs : List Xlate) (s : State) :
    exec (.atsTranslationCompletion id xs) s = .next (s.atsDone id xs) := rfl

/-- The page that a run-ahead of one page needs. -/
def aheadPage (a : Ahead) : PageRef := { off := 0, port := a.port, iova := a.iova, r := a.needR, w := a.needW, pinned := true }

/-- The entry that a run-ahead fills from a translation. -/
def aheadEntry (a : Ahead) (x : Xlate) : XEntry :=
  { port := x.port, pasid := a.pasid, iova := x.iova / 2 ^ x.log2 * 2 ^ x.log2, log2 := x.log2, r := x.r, w := x.w,
    hpa := x.hpa / 2 ^ x.log2 * 2 ^ x.log2, ahead := true }

/-- A translation answers a run-ahead of one page: its port, a page size that the block holds, its page, and the permissions needed. -/
structure Answers (x : Xlate) (a : Ahead) : Prop where
  port  : x.port = a.port
  size  : pageLog x.log2 = true
  page  : x.iova / 2 ^ x.log2 = a.iova / 2 ^ x.log2
  read  : a.needR = true → x.r = true
  write : a.needW = true → x.w = true

theorem or_not_of_imp {a b : Bool} (h : a = true → b = true) : (b || !a) = true := by
  cases a
  · exact Bool.or_true b
  · rw [h rfl]
    rfl

theorem and_not_of_imp {a b : Bool} (h : a = true → b = true) : (a && !b) = false := by
  cases a
  · rfl
  · rw [h rfl]
    rfl

/-- The entry suffices for the page, whoever pins it. -/
theorem entry_suffices {x : Xlate} {a : Ahead} (h : Answers x a) (pins : List Nat) :
    ({ aheadEntry a x with pins := pins } : XEntry).suffices a.pasid (aheadPage a) = true := by
  have hpage : x.iova / 2 ^ x.log2 * 2 ^ x.log2 / 2 ^ x.log2 = a.iova / 2 ^ x.log2 := by
    rw [Nat.mul_div_cancel _ (Nat.two_pow_pos _), h.page]
  unfold XEntry.suffices XEntry.covers aheadEntry aheadPage
  dsimp only
  rw [h.port, hpage, or_not_of_imp h.read, or_not_of_imp h.write, beq_self_eq_true, beq_self_eq_true, beq_self_eq_true]
  rfl

/-- A run-ahead of one page whose answer came fills its entry, unless the cache has one that suffices. -/
theorem fillAhead_page {s : State} {x : Xlate} {a : Ahead} (h : Answers x a) (hlive : ∀ g ∈ s.xl.advised, g.ended = false) :
    s.fillAhead a [x] 1 0 = if s.xl.xc.any fun y => y.suffices a.pasid (aheadPage a) then s else s.onXl fun t => t.fillX (aheadEntry a x) := by
  have hnone : (s.xl.advised.any fun g => (g.ctx == a.ctx && decide (g.va ≤ a.va ∧ a.va < g.va + g.len)) && g.ended) = false :=
    List.any_eq_false.mpr fun g hg => by rw [hlive g hg, Bool.and_false]; exact Bool.false_ne_true
  have hfind : [x].find? (fun x => x.port == a.port && pageLog x.log2 && x.iova / 2 ^ x.log2 == (a.iova + 4096 * 0) / 2 ^ x.log2) = some x := by
    refine List.find?_cons_of_pos ?_
    rw [h.port, h.size, h.page, beq_self_eq_true, Nat.mul_zero, Nat.add_zero, beq_self_eq_true]
    rfl
  unfold State.fillAhead
  dsimp only
  rw [hnone, if_neg Bool.false_ne_true, hfind]
  dsimp only
  rw [and_not_of_imp h.read, and_not_of_imp h.write, Bool.or_self, if_neg Bool.false_ne_true]
  unfold State.fillAhead
  rfl

/-- The page is usable then. -/
theorem fillAhead_usable {s : State} {x : Xlate} {a : Ahead} (h : Answers x a) (hlive : ∀ g ∈ s.xl.advised, g.ended = false) :
    ((s.fillAhead a [x] 1 0).xl.xc.any fun e => e.suffices a.pasid (aheadPage a)) = true ∧
      (s.fillAhead a [x] 1 0).xl.ahead = s.xl.ahead := by
  rw [fillAhead_page h hlive]
  split
  · next hheld => exact ⟨hheld, rfl⟩
  · exact ⟨List.any_eq_true.mpr ⟨_, List.mem_cons_self, entry_suffices h _⟩, rfl⟩

theorem atsDone_usable {s : State} {id : Nat} {x : Xlate} {a : Ahead} (hfind : s.xl.ahead.find? (fun a => a.id == id) = some a)
    (hone : a.pages = 1) (h : Answers x a) (hlive : ∀ g ∈ s.xl.advised, g.ended = false) :
    (∀ b ∈ (s.atsDone id [x]).xl.ahead, b.id ≠ id) ∧
      ((s.atsDone id [x]).xl.xc.any fun e => e.suffices a.pasid (aheadPage a)) = true := by
  obtain ⟨husable, hahead⟩ := fillAhead_usable (s := s.onXl fun x => { x with ahead := x.ahead.filter fun b => b.id != id }) h hlive
  unfold State.atsDone
  rw [hfind]
  dsimp only
  rw [hone, hahead]
  exact ⟨fun b hb => bne_iff_ne.mp (List.mem_filter.mp hb).2, husable⟩

/-! ## A Success response -/

theorem exec_pageResponse (id : Nat) (code : PageResp) (xs : List Xlate) (s : State) :
    exec (.pageResponse id code xs) s = .next (s.pageResp id code xs) := rfl

theorem priClose_gone (s : State) (id : Nat) : ∀ e ∈ (s.priClose id).xl.pri, e.1 ≠ id := fun _ he =>
  bne_iff_ne.mp (List.mem_filter.mp he).2

/-- Of a list whose values are all different, two elements of the same value are one. -/
theorem eq_of_nodup_map {α β : Type} {f : α → β} {l : List α} (h : (l.map f).Nodup) {a b : α} (ha : a ∈ l) (hb : b ∈ l) (hf : f a = f b) :
    a = b := by
  induction l with
  | nil => exact absurd ha List.not_mem_nil
  | cons c l ih =>
    rw [List.map_cons, List.nodup_cons] at h
    obtain ⟨hfirst, hrest⟩ := h
    rcases List.mem_cons.mp ha with rfl | hal
    · rcases List.mem_cons.mp hb with rfl | hbl
      · rfl
      · exact absurd (List.mem_map.mpr ⟨b, hbl, hf.symm⟩) hfirst
    · rcases List.mem_cons.mp hb with rfl | hbl
      · exact absurd (List.mem_map.mpr ⟨a, hal, hf⟩) hfirst
      · exact ih hrest hal hbl

/-- A page that an answer refuses is still named by its page request: of the pages that were asked for, those that the answer gave are others. -/
theorem refused_named {α : Type} {pages : List PageRef} {asked pri : List Nat} (give : PageRef → Option α)
    (hnodup : (pages.map PageRef.off).Nodup) (hasked : ∀ o ∈ asked, o ∈ pri) :
    ∀ o ∈ ((pages.filter fun g => asked.contains g.off).filter fun g => (give g).isNone).map PageRef.off,
      o ∈ pri.filter fun o => !((((pages.filter fun g => asked.contains g.off).filter fun g => (give g).isSome).map PageRef.off).contains o) := by
  intro o ho
  obtain ⟨g, hg, rfl⟩ := List.mem_map.mp ho
  obtain ⟨hasks, hnone⟩ := List.mem_filter.mp hg
  obtain ⟨hpage, hnames⟩ := List.mem_filter.mp hasks
  refine List.mem_filter.mpr ⟨hasked _ (List.contains_iff_mem.mp hnames), ?_⟩
  rw [Bool.not_eq_true', ← Bool.not_eq_true, List.contains_iff_mem]
  intro hgot
  obtain ⟨g', hg', hoff⟩ := List.mem_map.mp hgot
  obtain ⟨hasks', hsome⟩ := List.mem_filter.mp hg'
  obtain rfl : g' = g := eq_of_nodup_map hnodup (List.mem_filter.mp hasks').1 hpage hoff
  rw [Option.isNone_iff_eq_none.mp hnone] at hsome
  exact Bool.noConfusion hsome

/-- What an answer gives for the pages of a range that a page request has named leaves no page that none has. -/
theorem takeXlates_priKept {N : Prop} (s : State) {d : Desc} {r : Range} (xs : List Xlate) (hr : d.ranges[d.askR]? = some r)
    (hlack : r.lack = []) (hd : N → RangesNamed d) (hasked : N → ∀ o ∈ d.askP, o ∈ r.pri)
    (hnodup : ((r.pages (s.portFor d r)).map PageRef.off).Nodup) : PriKept N s (s.takeXlates d xs) := by
  unfold State.takeXlates
  rw [hr]
  dsimp only
  refine PriKept.trans (t := State.forEach _ _ s) ?_ (setDesc_priKept _ fun n => ?_)
  · refine forEach_keeps (P := PriKept N s) _ (fun u g _ hu => hu.trans ?_) s (.refl s)
    split
    · exact .of_eq rfl rfl rfl
    · exact .refl u
  · rw [hlack, List.nil_append]
    refine setRange_named (d := { d with ats := false, askP := [] }) (hd n) ?_ _
    exact refused_named _ hnodup (hasked n)

/-- The ports that carry a range's pages hang on its kind and on its descriptor's ring and bytes, and on the rings and ports. -/
theorem portFor_congr {s t : State} {d e : Desc} {r q : Range} (hf : t.fuses = s.fuses) (hp : t.pw = s.pw)
    (hrings : t.fe.rings = s.fe.rings) (hring : e.ring = d.ring) (hraw : e.raw = d.raw) (hkind : q.kind = r.kind) :
    t.portFor e q = s.portFor d r := by
  have hup : ∀ p, t.cxlUp p = s.cxlUp p := fun p => by
    unfold State.cxlUp State.cxlPort
    rw [hf, hp]
  have hport : ∀ p, t.cxlPort p = s.cxlPort p := fun p => by
    unfold State.cxlPort
    rw [hp]
  funext a
  unfold State.portFor State.bulkPort State.striped State.homeStripes Desc.isBulk Desc.opc Desc.stripe Desc.flag Desc.flg
  simp only [ring_congr hrings, hup, hport, hring, hraw, hkind]

/-- A descriptor whose page request was answered with Success: it asks for the pages of its range again. -/
def askedAgain (d : Desc) (r : Range) : Desc := { d.setRange d.askR { r with lack := [] } with askP := r.lack }

/-- What the answer is taken in by: the descriptor asks again, and its pages are counted and sent. -/
theorem priAgain_eq {s : State} {d : Desc} {r : Range} (xs : List Xlate) (hdesc : s.desc d.id = some d) (hr : d.ranges[d.askR]? = some r) :
    ∃ u : State, s.priAgain d.id xs = (u.takeXlates (askedAgain d r) xs).prick d.id ∧ u.xl = s.xl ∧
      u.fe = (s.setDesc (askedAgain d r)).fe ∧ u.fuses = s.fuses ∧ u.pw = s.pw := by
  unfold State.priAgain
  rw [hdesc]
  dsimp only
  rw [hr]
  exact ⟨State.sendAts _ _ _ _, rfl, rfl, rfl, rfl, rfl⟩

/-- The pages of a request that was answered with Success are translated again, and no further request is made for them. -/
theorem priAgain_priKept {s : State} {d : Desc} {r : Range} (xs : List Xlate) (hdesc : s.desc d.id = some d) (hranges : d.ranges = [r])
    (hnodup : ((r.pages (s.portFor d r)).map PageRef.off).Nodup) (hnamed : LackNamed r) : PriKept (DescsNamed s) s (s.priAgain d.id xs) := by
  cases hr : d.ranges[d.askR]? with
  | none =>
    unfold State.priAgain
    rw [hdesc]
    dsimp only
    rw [hr]
    exact .refl s
  | some q =>
    obtain ⟨hask, rfl⟩ : d.askR = 0 ∧ r = q := by
      simpa only [hranges, List.getElem?_singleton, Option.ite_none_right_eq_some, Option.some.injEq] using hr
    have hone : (askedAgain d r).ranges = [{ r with lack := [] }] := by
      unfold askedAgain Desc.setRange
      rw [hranges, hask]
      rfl
    have hnone : RangesNamed (askedAgain d r) := by
      unfold RangesNamed
      rw [hone]
      exact List.forall_mem_singleton.mpr fun _ h => absurd h List.not_mem_nil
    have hfirst : (askedAgain d r).ranges[(askedAgain d r).askR]? = some { r with lack := [] } := by
      rw [hone, show (askedAgain d r).askR = 0 from hask]
      rfl
    obtain ⟨u, heq, hxl, hfe, hfuses, hpw⟩ := priAgain_eq xs hdesc hr
    have hset : PriKept (DescsNamed s) s u := (setDesc_priKept s fun _ => hnone).trans (.of_eq (by rw [hxl]; rfl) (by rw [hxl]; rfl) (by rw [hfe]))
    have hports : u.portFor (askedAgain d r) { r with lack := [] } = s.portFor d r :=
      portFor_congr hfuses hpw (by rw [hfe]; rfl) rfl rfl rfl
    have htake := hset.trans (takeXlates_priKept u xs hfirst rfl (fun _ => hnone) (fun _ => hnamed) (by rw [hports]; exact hnodup))
    rw [heq]
    exact htake.trans ((prick_priKept _ _).mono fun hs => htake.named hs hs)

theorem desc_only {s : State} {d : Desc} (h : s.fe.descs = [d]) : s.desc d.id = some d := by
  unfold State.desc
  rw [h]
  exact List.find?_cons_of_pos (p := fun x : Desc => x.id == d.id) (beq_self_eq_true d.id)

theorem pageResp_open {s : State} {id : Nat} (h : (s.xl.pri.any fun e => e.1 == id) = true) (xs : List Xlate) :
    s.pageResp id .success xs = ((s.priClose id).priAgain id xs).retryParked := by
  unfold State.pageResp
  rw [h, Bool.not_true, if_neg Bool.false_ne_true]

/-- A page request is outstanding no more once it is answered with Success. -/
theorem success_closes {s : State} {d : Desc} {r : Range} (hdescs : s.fe.descs = [d]) (hranges : d.ranges = [r])
    (hnodup : ((r.pages (s.portFor d r)).map PageRef.off).Nodup) (hnamed : LackNamed r)
    (hpri : (s.xl.pri.any fun e => e.1 == d.id) = true) (xs : List Xlate) : ∀ e ∈ (s.pageResp d.id .success xs).xl.pri, e.1 ≠ d.id := by
  have hdescsNamed : DescsNamed (s.priClose d.id) := by
    have hfe : (s.priClose d.id).fe.descs = [d] := hdescs
    unfold DescsNamed RangesNamed
    rw [hfe, List.forall_mem_singleton, hranges, List.forall_mem_singleton]
    exact hnamed
  have hagain : PriKept (DescsNamed (s.priClose d.id)) (s.priClose d.id) ((s.priClose d.id).priAgain d.id xs) :=
    priAgain_priKept xs (desc_only (s := s.priClose d.id) hdescs) hranges hnodup hnamed
  have hall := hagain.trans ((retryParked_priKept _).mono fun hs => hagain.named hs hs)
  rw [pageResp_open hpri, hall.pri hdescsNamed]
  exact priClose_gone s d.id

/-! ## An answer that is no -/

/-- The access to a range that lacks a page which a page request has named faults. -/
theorem prickLack_faults {s : State} {d : Desc} {r : Range} (h : ∃ o ∈ r.lack, o ∈ r.pri) (i : Nat) :
    ∃ off, s.prickLack d i r = .done s { r with fault := some (off, St.pageFault), known := true } := by
  obtain ⟨o, hlack, hpri⟩ := h
  have hnamed : r.lack.any r.pri.contains = true := List.any_eq_true.mpr ⟨o, hlack, List.contains_iff_mem.mpr hpri⟩
  unfold State.prickLack
  dsimp only
  rw [hnamed, Bool.or_true, if_pos rfl]
  exact ⟨_, rfl⟩

/-- A parked descriptor with one input range, some of whose lacking pages a page request has named. -/
structure Refused (d : Desc) (r : Range) : Prop where
  stage  : d.stage = .parked
  opc    : d.opc ≠ 0x12
  bulk   : d.isBulk = false
  ranges : d.ranges = [r]
  kind   : r.kind = .input
  seg    : r.seg = true
  known  : r.known = false
  lacks  : ∃ o ∈ r.lack, o ∈ r.pri

theorem prickRange_faults {s : State} {d : Desc} {r : Range} (h : Refused d r) :
    ∃ off, s.prickRange d 0 r = .done s { r with fault := some (off, St.pageFault), known := true } := by
  obtain ⟨off, hoff⟩ := prickLack_faults (s := s) (d := d) h.lacks 0
  have hne : (!r.lack.isEmpty) = true := by
    obtain ⟨o, ho, -⟩ := h.lacks
    rw [List.isEmpty_eq_false_iff.mpr (List.ne_nil_of_mem ho)]
    rfl
  refine ⟨off, ?_⟩
  unfold State.prickRange State.prickSeg
  rw [if_pos h.seg]
  dsimp only
  unfold State.prickXlate
  dsimp only
  rw [h.known, if_neg Bool.false_ne_true, if_pos hne, hoff]

/-- A page fault in an input range keeps a descriptor from running; a TABLE_PIN FROM_SRC is left out, which makes its extent all the same. -/
theorem stopsAt_pageFault {d : Desc} {r : Range} {off : Nat} (hopc : d.opc ≠ 0x12) (hkind : r.kind = .input)
    (hfault : r.fault = some (off, St.pageFault)) : ∃ n, d.stopsAt r = some n := by
  unfold Desc.stopsAt Range.stops
  rw [decide_eq_false hopc, hfault, hkind]
  dsimp only
  split
  · next h => exact absurd h (by simp only [Bool.false_and, Option.map_some, Bool.false_eq_true, not_false_eq_true])
  · split
    · exact ⟨0, rfl⟩
    · exact ⟨off, rfl⟩

theorem stopFault_ends {s : State} {d : Desc} {r : Range} {n : Nat} {st : BitVec 8} {off : Nat} (hranges : d.ranges = [r])
    (hfault : r.fault = some (off, st)) (hstops : d.stopsAt r = some n) :
    s.stopFault d = (s.setDesc d).endDesc d.id st 0 n r.faultVa := by
  have hrange : d.stopRange = some r := by
    unfold Desc.stopRange
    rw [hranges]
    exact List.find?_cons_of_pos (by rw [hstops]; rfl)
  unfold State.stopFault
  rw [hrange]
  dsimp only
  rw [hfault, hstops]
  rfl

/-- Such a descriptor, as it is pricked again, ends with the fault. -/
theorem prick_faults {s : State} {d : Desc} {r : Range} (hdesc : s.desc d.id = some d) (h : Refused d r) (hask : s.asking d = false) :
    ∃ e done va, e.id = d.id ∧ s.prick d.id = (s.setDesc e).endDesc d.id St.pageFault 0 done va := by
  obtain ⟨off, hrange⟩ := prickRange_faults (s := s) h
  generalize hr1 : ({ r with fault := some (off, St.pageFault), known := true } : Range) = r1 at hrange
  have hfault : r1.fault = some (off, St.pageFault) := by rw [← hr1]
  have hkind : r1.kind = .input := by rw [← hr1]; exact h.kind
  obtain ⟨n, hstops⟩ := stopsAt_pageFault (d := d.setRange 0 r1) h.opc hkind hfault
  have hranges : (d.setRange 0 r1).ranges = [r1] := by
    unfold Desc.setRange
    rw [h.ranges]
    rfl
  have hext : d.extFails 0 r1 = false := by
    unfold Desc.extFails
    rw [hfault, Option.isNone_some, Bool.and_false, Bool.false_and, Bool.false_and]
  have hfront : d.inFront = true := by
    unfold Desc.inFront
    rw [h.stage]
    rfl
  have hgo : (s.asking d || d.stage == .finished) = false := by
    rw [hask, h.stage]
    rfl
  have hfrom : s.prickFrom d (d.ranges.length + 1) 0 = s.stopFault (d.setRange 0 r1) := by
    unfold State.prickFrom
    rw [h.ranges]
    dsimp only [List.length, List.getElem?_cons_zero]
    rw [h.known, if_neg Bool.false_ne_true, hrange]
    dsimp only
    rw [hext, if_neg Bool.false_ne_true, hstops, hfront]
    rfl
  refine ⟨d.setRange 0 r1, n, r1.faultVa, rfl, ?_⟩
  unfold State.prick State.prickAll
  rw [hdesc]
  dsimp only
  rw [hgo, if_neg Bool.false_ne_true, h.bulk, Bool.false_and, if_neg Bool.false_ne_true, hfrom]
  exact stopFault_ends hranges hfault hstops

/-- Going on finds nothing to do where no descriptor waits. -/
theorem retryParked_idle {s : State} (h : ∀ d ∈ s.fe.descs, d.pricking = false) : s.retryParked = s := by
  unfold State.retryParked
  rw [List.filter_eq_nil_iff.mpr fun d hd => Bool.eq_false_iff.mp (h d hd)]
  rfl

/-- The one descriptor of the block, as the access of its page request faults, ends with it; page requests stay stopped as they were, and no
event is queued. -/
theorem priFault_ends {s : State} {d : Desc} {r : Range} (hdescs : s.fe.descs = [d]) (h : Refused d r) (hask : s.asking d = false) :
    ((s.priFault d.id).retryParked).ended d.id St.pageFault ∧ (s.priFault d.id).retryParked.xl.priStop = s.xl.priStop ∧
      (s.priFault d.id).retryParked.tel = s.tel := by
  obtain ⟨e, done, va, hid, heq⟩ := prick_faults (desc_only hdescs) h hask
  have hset : (s.setDesc e).fe.descs = [e] := by
    change (s.fe.descs.map fun x => if x.id = e.id then e else x) = [e]
    rw [hdescs, List.map_singleton, if_pos hid.symm]
  have hended : (s.priFault d.id).ended d.id St.pageFault := by
    unfold State.priFault
    rw [heq, ← hid]
    exact endDesc_ended (hset ▸ List.mem_singleton_self e) ..
  have hidle : (s.priFault d.id).retryParked = s.priFault d.id := by
    refine retryParked_idle fun x hx => ?_
    have hids : x.id ∈ descIds s := (pricks_prick s d.id).ids ▸ mem_descIds.mpr ⟨x, hx, rfl⟩
    unfold descIds at hids
    rw [hdescs, List.map_singleton, List.mem_singleton] at hids
    obtain ⟨hstage, -⟩ := hended.2 x hx hids
    unfold Desc.pricking
    rw [hstage]
    rfl
  rw [hidle]
  refine ⟨hended, ?_, ?_⟩
  · unfold State.priFault
    rw [heq]
    rfl
  · unfold State.priFault
    rw [heq]
    rfl

/-! ## PAGE_RESPONSE -/

theorem asking_closed {s : State} {d : Desc} (hmirror : d.mirror = false) (hats : d.ats = false) (h : ∀ e ∈ s.xl.pri, e.1 ≠ d.id) :
    s.asking d = false := by
  unfold State.asking
  rw [hmirror, hats, Bool.false_or, Bool.false_or]
  exact List.any_eq_false.mpr fun e he => by simpa only [beq_iff_eq, ne_eq] using h e he

/-- A response other than Success to a request that is open: it is counted, and the access faults. -/
theorem pageResp_invalid {s : State} {id : Nat} (h : (s.xl.pri.any fun e => e.1 == id) = true) (xs : List Xlate) :
    s.pageResp id .invalid xs = (((s.priClose id).count Ctr.priRefused).priFault id).retryParked := by
  unfold State.pageResp
  rw [h, Bool.not_true, if_neg Bool.false_ne_true]

/-- Page requests of a function stop. -/
def stopPri (port : Nat) (x : Translation) : Translation :=
  { x with priStop := if x.priStop.contains port then x.priStop else port :: x.priStop }

theorem mem_stopPri (port : Nat) (x : Translation) : port ∈ (stopPri port x).priStop := by
  unfold stopPri
  dsimp only
  split
  · next h => exact List.contains_iff_mem.mp h
  · exact List.mem_cons_self

/-- A Response Failure stops the page requests of its function too, with an event. -/
theorem pageResp_failure {s : State} {d : Desc} (hdesc : s.desc d.id = some d) (h : (s.xl.pri.any fun e => e.1 == d.id) = true)
    (xs : List Xlate) :
    ∃ ctx addr, s.pageResp d.id .failure xs = (((((s.priClose d.id).count Ctr.priRefused).onXl (stopPri (s.ring d.ring).home)).tell
      [xlateEvent 0x402 ctx (s.ring d.ring).home addr]).priFault d.id).retryParked := by
  unfold State.pageResp
  rw [h, Bool.not_true, if_neg Bool.false_ne_true, hdesc]
  exact ⟨_, _, rfl⟩

/-- An event that is told after one count is raised: there is room for it and for the events that the count and the log lead to. -/
theorem raised_after_count {s u : State} {off : Nat} (h : u.tel = (s.count off).tel) (code ctx port addr : Nat) :
    State.raised s (u.tell [xlateEvent code ctx port addr]) code := by
  intro hon hroom
  have hown : ∀ c ∈ ownCounters, c ∈ off :: ownCounters := fun c hc => List.mem_cons_of_mem off hc
  have hcalm : ∀ o ∈ [TelOp.count off 1], Calm (off :: ownCounters) o := calm_cons List.mem_cons_self (calm_nil _)
  obtain ⟨hring, ⟨l, hl⟩, hbound⟩ := tell_queues hown s [.count off 1] hcalm (Nat.le_of_ble_eq_true rfl)
  have hclear := clearOn_le (off :: ownCounters) s.tel
  have hlen : (off :: ownCounters).length = 4 := rfl
  have htel : u.tel = (s.tell [.count off 1]).tel := h
  have hspace : queueBound (off :: ownCounters) [] u.tel < 256 := by
    rw [htel]
    simp only [queueBound, sumBy, opEvents] at hbound ⊢
    omega
  obtain ⟨m, hm, hmem⟩ := tell_event_queued hown u []
    { code := BitVec.ofNat 32 code, ring := none, data := evData [(8, 4, ctx), (12, 4, port), (24, 8, addr)] } (calm_nil _)
    (Nat.le_of_ble_eq_true rfl) (htel ▸ hring ▸ hon) hspace
  exact ⟨l ++ m, _, hm.trans (by rw [htel, ← hl, List.append_assoc]), List.mem_append_right l hmem, rfl⟩

/-- A response other than Success: the access faults; a Response Failure stops the page requests of the function, and is told of. -/
theorem refusal_faults {s : State} {d : Desc} {r : Range} {code : PageResp} (hdescs : s.fe.descs = [d]) (h : Refused d r)
    (hmirror : d.mirror = false) (hats : d.ats = false) (hpri : (s.xl.pri.any fun e => e.1 == d.id) = true) (hcode : code ≠ .success)
    (xs : List Xlate) :
    (s.pageResp d.id code xs).ended d.id St.pageFault ∧
      (code = .failure → (s.ring d.ring).home ∈ (s.pageResp d.id code xs).xl.priStop ∧ State.raised s (s.pageResp d.id code xs) 0x402) := by
  cases code with
  | success => exact absurd rfl hcode
  | invalid =>
    rw [pageResp_invalid hpri]
    obtain ⟨hended, -, -⟩ := priFault_ends (s := (s.priClose d.id).count Ctr.priRefused) hdescs h
      (asking_closed hmirror hats (priClose_gone s d.id))
    exact ⟨hended, fun hf => PageResp.noConfusion hf⟩
  | failure =>
    obtain ⟨ctx, addr, heq⟩ := pageResp_failure (desc_only hdescs) hpri xs
    obtain ⟨hended, hstop, htel⟩ := priFault_ends (s := (((s.priClose d.id).count Ctr.priRefused).onXl (stopPri (s.ring d.ring).home)).tell
      [xlateEvent 0x402 ctx (s.ring d.ring).home addr]) hdescs h (asking_closed hmirror hats (priClose_gone s d.id))
    rw [heq]
    refine ⟨hended, fun _ => ⟨hstop ▸ mem_stopPri .., ?_⟩⟩
    unfold State.raised
    rw [htel]
    exact raised_after_count (s := s) (u := ((s.priClose d.id).count Ctr.priRefused).onXl (stopPri (s.ring d.ring).home))
      (off := Ctr.priRefused) rfl _ _ _ _

/-! ## PAGE_RESPONSE_TIMEOUT -/

theorem timeout_faults {s : State} {d : Desc} {r : Range} (hdescs : s.fe.descs = [d]) (h : Refused d r) (hmirror : d.mirror = false)
    (hats : d.ats = false) (hpri : (s.xl.pri.any fun e => e.1 == d.id) = true) :
    ∃ t, exec (.pageResponseTimeout d.id) s = .next t ∧ t.ended d.id St.pageFault := by
  obtain ⟨hended, -, -⟩ := priFault_ends (s := (s.priClose d.id).count Ctr.priTimeout) hdescs h
    (asking_closed hmirror hats (priClose_gone s d.id))
  exact ⟨_, congrArg Host.Outcome.next (if_pos hpri), hended⟩

/-! ## PRI_CAPABILITY_ENABLE -/

theorem priEnable_resumes (port : Nat) (s : State) : ∃ t, exec (.priCapabilityEnable port) s = .next t ∧ port ∉ t.xl.priStop := by
  refine ⟨_, rfl, fun hmem => ?_⟩
  rw [(retryParked_priKept _).stop] at hmem
  exact bne_iff_ne.mp (List.mem_filter.mp hmem).2 rfl

/-! ## PARK_ENTRY_FREE -/

theorem exec_parkEntryFree (k : Nat) (s : State) : exec (.parkEntryFree k) s = .next (s.parkFree k) := rfl

/-- The descriptor at a ring's head, parked in the entry that is free. -/
def parkedState (s : State) (d : Desc) : State :=
  (s.setDesc { d with stage := .parked }).onFe fun f => { f with park := f.park ++ [d.id] }

theorem parkFree_parks {s : State} {d : Desc} (hdescs : s.fe.descs = [d]) (hstage : d.stage = .headWait) (hroom : s.fe.park.length < 256) :
    s.parkFree d.ring = ((parkedState s d).reserveAll (s.ring d.ring).cplRing).announce d.ring := by
  have hfind : (s.ringDescs d.ring).find? (fun d => d.stage == .headWait) = some d := by
    unfold State.ringDescs
    rw [hdescs, List.filter_cons_of_pos (by exact beq_self_eq_true d.ring)]
    exact List.find?_cons_of_pos (by rw [hstage]; rfl)
  unfold State.parkFree
  rw [hfind]
  dsimp only
  rw [if_neg (Nat.not_le.mpr hroom)]
  rfl

/-- No descriptor that is left reserves for the parked one. -/
theorem parkedState_reserves {s : State} {d : Desc} (hdescs : s.fe.descs = [d]) (c : Nat) :
    (parkedState s d).fe.descs = [{ d with stage := .parked }] ∧ (parkedState s d).reserveAll c = parkedState s d := by
  have hone : (parkedState s d).fe.descs = [{ d with stage := .parked }] := by
    change (s.fe.descs.map fun x => if x.id = d.id then { d with stage := .parked } else x) = _
    rw [hdescs, List.map_singleton, if_pos rfl]
  refine ⟨hone, ?_⟩
  unfold State.reserveAll
  rw [hone]
  rfl

theorem parkFree_enters {s : State} {d : Desc} (hdescs : s.fe.descs = [d]) (hstage : d.stage = .headWait) (hroom : s.fe.park.length < 256) :
    (s.parkFree d.ring).desc d.id = some { d with stage := .parked } ∧ (s.parkFree d.ring).fe.park = s.fe.park ++ [d.id] := by
  obtain ⟨hone, hreserve⟩ := parkedState_reserves hdescs (s.ring d.ring).cplRing
  rw [parkFree_parks hdescs hstage hroom, hreserve, announce_but_announced]
  exact ⟨desc_only (d := { d with stage := .parked }) hone, rfl⟩

/-- Settles O37: the entry that a translation fills suffices for the page of the run-ahead; a page that a Success response still refuses has been
named by a page request and faults, so that no second request names it; with any other answer the access faults as it is pricked again; pricking
stops no function's page requests and lets none go on; the one descriptor is parked before any reserves. -/
theorem pageRequestsAndPark : Obligations.PageRequestsAndPark := by
  unfold Obligations.PageRequestsAndPark
  refine ⟨?_, ?_, ?_, ?_, priEnable_resumes, ?_⟩
  · intro id x a s hfind hone hport hlive hsize hpage hread hwrite
    exact ⟨_, exec_atsTranslationCompletion .., atsDone_usable hfind hone ⟨hport, hsize, hpage, hread, hwrite⟩ hlive⟩
  · intro d r xs s hdescs _ hranges _ _ hnodup hnamed _ _ hpri
    exact ⟨_, exec_pageResponse .., success_closes hdescs hranges hnodup hnamed hpri xs⟩
  · intro d r xs code s hdescs hstage hopc hbulk hranges hkind hseg hknown hlacks hmirror hats hpri hcode
    have hrefused : Refused d r := ⟨hstage, hopc, hbulk, hranges, hkind, hseg, hknown, hlacks⟩
    exact ⟨_, exec_pageResponse .., refusal_faults hdescs hrefused hmirror hats hpri hcode xs⟩
  · intro d r s hdescs hstage hopc hbulk hranges hkind hseg hknown hlacks hmirror hats hpri
    exact timeout_faults hdescs ⟨hstage, hopc, hbulk, hranges, hkind, hseg, hknown, hlacks⟩ hmirror hats hpri
  · intro d s hdescs hstage hroom
    obtain ⟨hdesc, hpark⟩ := parkFree_enters hdescs hstage hroom
    exact ⟨_, _, exec_parkEntryFree .., hdesc, rfl, hpark⟩

end Sys2Proof.Proofs
end

section
/-!
PROOFS. O17 fails in its clause of the sorted window: a scatter of the window joins the couching intake queue (R243), and the descriptor at the
head of that queue reserves whatever its opcode is. A queue that names a lookup of the same window, sorted just before, takes the lookup on as
a scatter, so that it is not pooled.
-/

namespace Sys2Proof.Proofs

open Sys2Proof Sys2Proof.Machine

/-! ## A window whose lookup the couching intake queue names -/

theorem exec_windowComplete (k : Nat) (parity : Bool) (s : State) : exec (.windowComplete k parity) s = .next (s.sortDone k parity) := rfl

/-- A GATHER_POOL of one inline key, row 5 of table 3, into one bag, on a sorter. -/
def sortedGather : Desc :=
  { id := 0, ring := 5, raw := leBytes 32 1 ++ leBytes 4 1 ++ leBytes 4 1 ++ leBytes 8 0 ++ leBytes 16 (keyOf 3 5).toNat, stage := .window }

/-- A SCATTER_GRAD with COUNT 0, on a sorter. -/
def sortedScatter : Desc := { id := 1, ring := 5, raw := leBytes 64 3, stage := .window }

/-- The gather's part of the window, its one key taken in. -/
def gatherPart : Member' := { id := 0, count := 1, keys := [some (keyOf 3 5)], bags := [0] }

/-- The window of the two descriptors, the gather first. -/
def mixedWindow : Window := { wid := 0, packed := false, members := [gatherPart, { id := 1, count := 0 }], reserved := true }

/-- A block in which sorter 0 holds the window and the couching intake queue names the gather. -/
def strayIntakeState : State :=
  { State.reset with
    fe := { descs := [sortedGather, sortedScatter] }
    sp := { sorters := [(0, mixedWindow)] }
    up := { intake := [0] } }

theorem strayIntakeState_sorted : mget strayIntakeState.sp.sorters 0 = some mixedWindow ∧ mixedWindow.retake = false ∧
    gatherPart ∈ mixedWindow.members ∧ strayIntakeState.desc gatherPart.id = some sortedGather ∧ sortedGather.opc ≠ 3 := by decide

/-- The gather ends up as a scatter that holds its pillow reservation. -/
theorem strayIntakeState_complete : ((strayIntakeState.sortDone 0 false).desc gatherPart.id).map (·.stage) = some Stage.scatter := by
  decide +kernel

/-- Refutes O17: its fourth clause says that a sorted window's lookups go on to be pooled, in every state. In `strayIntakeState` the window
holds a scatter beside its gather, though R154 packs no scatter, and the couching intake queue names that gather; nothing in the clause leaves
such a state out. WINDOW_COMPLETE there gives the gather a pillow reservation, and it is neither pooling nor finished. -/
theorem not_windowsAreSorted : ¬ Obligations.WindowsAreSorted := by
  unfold Obligations.WindowsAreSorted
  rintro ⟨-, -, -, pooled, -⟩
  obtain ⟨hsorter, hretake, hmember, hdesc, hopc⟩ := strayIntakeState_sorted
  obtain ⟨t, hexec, -, hall⟩ := pooled 0 mixedWindow strayIntakeState hsorter hretake
  obtain ⟨e, he, hstage⟩ := hall gatherPart hmember sortedGather hdesc hopc
  have hscatter := strayIntakeState_complete
  rw [Host.Outcome.next.inj ((exec_windowComplete ..).symm.trans hexec), he] at hscatter
  rcases hstage with h | h <;> simp [h] at hscatter

end Sys2Proof.Proofs
end

section
/-!
PROOFS. O18: whatever becomes of the row of a key, its scan changes two lists of the bobbinet alone, the keys scanned and the rows brought in; and CRH_IMAP_REL leaves of the kept lists it names those that a scatter has claimed, marked for release.
-/

namespace Sys2Proof.Proofs

open Sys2Proof Sys2Proof.Machine Sys2Proof.Laws

/-! ## RUN_AHEAD_SCAN -/

theorem exec_runAheadScan (id : Nat) (keys : Feed) (rows : List (Key × RowSrc)) (fails : WbFails) (s : State) :
    exec (.runAheadScan id keys rows fails) s = .next (s.runAheadScan id keys rows fails) := rfl

/-- Every part of the state but the bobbinet's. -/
def butSp : Mask := fun z => z != .sp

theorem readRow_sp (s : State) (t : Table) (v : Version) (k : Key) (src : RowSrc) : (s.readRow t v k src).1.sp = s.sp :=
  same_of_hide (readRow_hide (M := butSp) rfl rfl rfl rfl rfl rfl ..) .sp rfl

theorem admitForced_sp (s : State) (t : Table) (k : Key) (ver : Nat) (record : Bytes) (fails : WbFails) :
    (s.admitForced t k ver record fails).sp = s.sp :=
  same_of_hide (admitForced_hide (M := butSp) rfl rfl rfl rfl rfl rfl rfl rfl ..) .sp rfl

/-- A row that run-ahead reads and admits to the cache leaves the bobbinet as it is. -/
theorem broughtRow_sp (s : State) (t : Table) (v : Version) (k : Key) (src : RowSrc) (ver : Nat) (record : Bytes) (fails : WbFails) :
    ((s.readRow t v k src).1.admitForced t k ver record fails).sp = s.sp :=
  (admitForced_sp ..).trans (readRow_sp ..)

/-- A key that is scanned goes to the front of the keys scanned; beside it at most the rows that run-ahead has brought in change. -/
theorem scanKey_sp (s : State) (d : Desc) (m : Member') (rows : List (Key × RowSrc)) (fails : WbFails) (k : Key) :
    ∃ brought, (s.scanKey d m rows fails k).1.sp = { s.sp.scan k with raRows := brought } := by
  unfold State.scanKey
  dsimp only
  split
  · exact ⟨_, rfl⟩
  split
  · exact ⟨_, rfl⟩
  split
  · exact ⟨_, rfl⟩
  split
  · exact ⟨_, rfl⟩
  split
  · exact ⟨_, rfl⟩
  split
  · exact ⟨_, rfl⟩
  split
  · exact ⟨_, readRow_sp ..⟩
  dsimp only
  split
  · rw [onSp_sp, broughtRow_sp]
    exact ⟨_, rfl⟩
  · exact ⟨_, broughtRow_sp ..⟩

/-- The scan of a descriptor with one key scans that key and marks the descriptor as read. -/
theorem runAheadScan_one {s : State} {d : Desc} {m : Member'} {k : Key} {keys : Feed} (hdesc : s.desc d.id = some d)
    (hnext : s.sp.nextScan = some m) (hid : m.id = d.id) (hon : bitb (s.cfg Reg.xlateCtl) 21 = true) (hra : s.raKeys ≠ 0) (hone : d.count = 1)
    (hkeys : rawKeys d ⟨keys, { data := [] }, { data := [] }⟩ = [some k]) (rows : List (Key × RowSrc)) (fails : WbFails) :
    s.runAheadScan d.id keys rows fails = ((s.onSp fun x => x.scanDone d.id).scanKey d m rows fails k).1 := by
  have hfilter : s.sp.nextScan.filter (fun m => m.id == d.id) = some m := by
    rw [hnext, Option.filter_some, if_pos (beq_iff_eq.mpr hid)]
  have hmin : min s.raKeys d.count = 1 := by omega
  unfold State.runAheadScan
  rw [hdesc, hfilter]
  dsimp only
  rw [hon, Bool.not_true, if_neg (by simpa using hra), hkeys, hmin, List.take_succ_cons, List.take_zero,
    if_neg (show ¬ [some k].length < 1 from Nat.lt_irrefl 1)]
  unfold State.scanKeys
  exact ite_self _

theorem scanDone_seen (x : SortPool) (id : Nat) : ∀ w ∈ (x.scanDone id).queue, ∀ m ∈ w.members, m.id = id → m.seen = true := by
  unfold SortPool.scanDone
  simp only [List.mem_map]
  rintro _ ⟨w, -, rfl⟩ _ hm hid
  obtain ⟨m, -, rfl⟩ := List.mem_map.mp hm
  split at hid
  · next h => rw [if_pos h]
  · next h => exact absurd hid h

/-! ## IMAP_REL -/

theorem exec_imapRel (p : Path) (val : Word64) (s : State) : exec (.imapRel p val) s = .next (s.imapRel p val) := rfl

/-- Of the kept lists that a release names, those are left that a scatter has claimed, and they are released with it. -/
theorem freeKept_kept (s : State) (named : Kept → Bool) :
    ∀ k ∈ (s.freeKept named).sp.kept, named k = true → k.claimed.isSome = true ∧ k.release = true := by
  intro k hk hnamed
  obtain ⟨k0, hk0, heq⟩ := List.mem_map.mp hk
  obtain ⟨-, hstays⟩ := List.mem_filter.mp hk0
  split at heq
  · next h =>
    dsimp only at hstays
    rw [h, Bool.true_and, Bool.not_eq_true', Option.isNone_eq_false_iff] at hstays
    subst heq
    exact ⟨hstays, rfl⟩
  · next h =>
    subst heq
    exact absurd hnamed h

/-- The kept lists that a write of CRH_IMAP_REL names (R168). -/
def namedBy (val : Word64) (k : Kept) : Bool := k.ring == bitf val 0 17 && seqReached (BitVec.ofNat 32 (bitf val 32 32)) k.seq

theorem imapRel_sp {s : State} {p : Path} (hstart : s.starts p Reg.imapRel 31 1 false none = true) (val : Word64) :
    ∃ s1 : State, (s.imapRel p val).sp = (s1.freeKept (namedBy val)).sp := by
  obtain ⟨s1, heq, -⟩ := command_runs hstart (BitVec.ofNat 64 (val.toNat ||| 2 ^ 31)) fun s =>
    (s.freeKept (namedBy val)).cmdField p Reg.imapRel 31 1 0
  exact ⟨s1, (congrArg State.sp heq).trans (regPut_sp ..)⟩

/-- Settles O18: the one key is scanned whatever becomes of its row, which touches neither the keys scanned nor the window queue; and a list that
CRH_IMAP_REL names goes unless a scatter has claimed it. -/
theorem keptListsAndRunAhead : Obligations.KeptListsAndRunAhead := by
  unfold Obligations.KeptListsAndRunAhead
  constructor
  · intro d m k keys rows fails s hdesc hnext hid hon hra hone hkeys
    obtain ⟨brought, hsp⟩ := scanKey_sp (s.onSp fun x => x.scanDone d.id) d m rows fails k
    refine ⟨_, exec_runAheadScan .., ?_⟩
    rw [runAheadScan_one hdesc hnext hid hon hra hone hkeys, hsp]
    exact ⟨rfl, scanDone_seen s.sp d.id⟩
  · intro p val s hstart
    obtain ⟨s1, hsp⟩ := imapRel_sp hstart val
    refine ⟨_, exec_imapRel .., ?_⟩
    rw [hsp]
    intro k hk hring hseq
    have hnamed : namedBy val k = true := by rw [namedBy, hring, hseq, beq_self_eq_true, Bool.and_true]
    exact freeKept_kept s1 (namedBy val) k hk hnamed

end Sys2Proof.Proofs
end

section
/-!
PROOFS. O48: the bags of a gather over the slices (R183, R184). Slices, the tiles of one slice, and the parts of a split bag are each a cut of
a range or list at rising bounds; what such a cut does is said once, and each of the three is read off it.
-/

namespace Sys2Proof.Proofs

open Sys2Proof Sys2Proof.Machine

/-! ## Cuts at rising bounds -/

/-- The bounds of a cut: piece i reaches from bound i to bound i + 1. -/
def Rising (a : Nat → Nat) : Prop := ∀ i, a i ≤ a (i + 1)

theorem Rising.first_le {a : Nat → Nat} (ha : Rising a) (n : Nat) : a 0 ≤ a n := by
  induction n with
  | zero => exact Nat.le_refl _
  | succ n ih => exact Nat.le_trans ih (ha n)

/-- A number between the first bound and the last lies in one piece, and any other in none. -/
theorem countP_pieces {a : Nat → Nat} (ha : Rising a) (b n : Nat) :
    (List.range n).countP (fun i => decide (a i ≤ b ∧ b < a (i + 1))) = if a 0 ≤ b ∧ b < a n then 1 else 0 := by
  induction n with
  | zero => exact (if_neg (by omega)).symm
  | succ n ih =>
    have hstep := ha n
    have hfirst := ha.first_le n
    rw [List.range_succ, List.countP_append, ih, List.countP_singleton]
    simp only [decide_eq_true_eq]
    split <;> split <;> split <;> omega

/-- The pieces of a list, one after the other, are the list up to the last bound. -/
theorem flatMap_pieces {α : Type} {a : Nat → Nat} (ha : Rising a) (hfirst : a 0 = 0) (l : List α) (n : Nat) :
    ((List.range n).flatMap fun i => (l.drop (a i)).take (a (i + 1) - a i)) = l.take (a n) := by
  induction n with
  | zero => rw [hfirst]; rfl
  | succ n ih =>
    rw [List.range_succ, List.flatMap_append, ih, List.flatMap_singleton, ← List.take_add, Nat.add_sub_cancel' (ha n)]

theorem rising_share (m k : Nat) : Rising fun i => i * m / k := fun i =>
  Nat.div_le_div_right (Nat.mul_le_mul_right m (Nat.le_succ i))

/-- k equal shares of a list, as far as its length allows, are the list. -/
theorem flatMap_shares {α : Type} {k : Nat} (hk : 0 < k) (l : List α) :
    ((List.range k).flatMap fun i => (l.drop (i * l.length / k)).take ((i + 1) * l.length / k - i * l.length / k)) = l := by
  have hfirst : 0 * l.length / k = 0 := by rw [Nat.zero_mul, Nat.zero_div]
  have hcut := flatMap_pieces (rising_share l.length k) hfirst l k
  rwa [Nat.mul_div_cancel_left _ hk, List.take_length] at hcut

/-- Where each list holds one entry that passes, or none, as its index passes or not. -/
theorem countP_flatMap_of_ite {α β : Type} {p : β → Bool} {c : α → Bool} {f : α → List β}
    (h : ∀ x, (f x).countP p = if c x = true then 1 else 0) (l : List α) : (l.flatMap f).countP p = l.countP c := by
  induction l with
  | nil => rfl
  | cons x l ih => rw [List.flatMap_cons, List.countP_append, ih, h, List.countP_cons, Nat.add_comm]

/-! ## k (R183) -/

/-- What k may not exceed. -/
def splitBound (s : State) (S B P : Nat) : Nat := min (S / B) (min (P / max 1 (bitf (s.cfg Reg.poolCtl) 32 16)) 128)

theorem splitLog_off {s : State} (h : bitb (s.cfg Reg.poolCtl) 0 = false) (S B P : Nat) : s.splitLog S B P = 0 := by
  unfold State.splitLog
  dsimp only
  rw [h]
  rfl

theorem splitLog_noBags (s : State) (S P : Nat) : s.splitLog S 0 P = 0 := by
  unfold State.splitLog
  dsimp only
  rw [decide_eq_true rfl, Bool.or_true]
  rfl

theorem splitLog_on {s : State} (h : bitb (s.cfg Reg.poolCtl) 0 = true) {B : Nat} (hB : B ≠ 0) (S P : Nat) :
    s.splitLog S B P = Nat.log2 (splitBound s S B P) := by
  unfold State.splitLog
  dsimp only
  rw [h, if_neg (by simpa using hB)]
  change (if splitBound s S B P = 0 then 0 else _) = _
  split
  · next hzero => rw [hzero]; rfl
  · rfl

theorem pow_splitLog_le {s : State} {S B P : Nat} (h : s.splitLog S B P ≠ 0) : 2 ^ s.splitLog S B P ≤ splitBound s S B P := by
  have hon : bitb (s.cfg Reg.poolCtl) 0 = true := Bool.of_not_eq_false fun hoff => h (splitLog_off hoff S B P)
  have hB : B ≠ 0 := fun hzero => h (hzero ▸ splitLog_noBags s S P)
  rw [splitLog_on hon hB] at h ⊢
  exact Nat.log2_self_le fun hzero => h (by rw [hzero]; rfl)

theorem le_splitLog {s : State} (hon : bitb (s.cfg Reg.poolCtl) 0 = true) {S B P j : Nat} (hB : B ≠ 0) (h : 2 ^ j ≤ splitBound s S B P) :
    j ≤ s.splitLog S B P := by
  rw [splitLog_on hon hB]
  exact (Nat.le_log2 (by have := Nat.two_pow_pos j; omega)).mpr h

/-! ## Whole bags: the tiles of a slice (R184) -/

theorem mem_tileRun {pos lo hi bpt : Nat} {x : TileRef} (h : x ∈ tileRun pos lo hi bpt) :
    x.pos = pos ∧ lo ≤ x.lo ∧ x.hi ≤ hi ∧ x.hi ≤ x.lo + bpt := by
  obtain ⟨t, -, rfl⟩ := List.mem_map.mp h
  refine ⟨rfl, Nat.le_add_right .., Nat.min_le_left .., Nat.le_trans (Nat.min_le_right ..) (Nat.le_of_eq ?_)⟩
  rw [Nat.succ_mul, Nat.add_assoc]

/-- Tiles of bpt bags reach to the end of what they cut. -/
theorem le_ceilDiv_mul {bpt : Nat} (h : 0 < bpt) (n : Nat) : n ≤ ceilDiv n bpt * bpt := by
  unfold ceilDiv
  rw [if_neg (Nat.pos_iff_ne_zero.mp h)]
  have hdiv := Nat.div_add_mod (n + bpt - 1) bpt
  have hmod := Nat.mod_lt (n + bpt - 1) h
  rw [Nat.mul_comm] at hdiv
  omega

/-- Of the tiles of bags [lo, hi) one has a bag that is among them, and none another bag. -/
theorem countP_tileRun {bpt : Nat} (hbpt : 0 < bpt) (pos lo hi b : Nat) :
    (tileRun pos lo hi bpt).countP (fun x => decide (x.lo ≤ b ∧ b < x.hi)) = if decide (lo ≤ b ∧ b < hi) = true then 1 else 0 := by
  have hrise : Rising fun t => min hi (lo + t * bpt) := fun t =>
    Nat.le_min.mpr ⟨Nat.min_le_left .., Nat.le_trans (Nat.min_le_right ..)
      (Nat.add_le_add_left (Nat.mul_le_mul_right bpt (Nat.le_succ t)) lo)⟩
  have hlast := le_ceilDiv_mul hbpt (hi - lo)
  have hcount := countP_pieces hrise b (ceilDiv (hi - lo) bpt)
  unfold tileRun
  rw [List.countP_map]
  refine Eq.trans (List.countP_congr fun t _ => ?_) (hcount.trans ?_)
  · simp only [Function.comp_apply, decide_eq_true_eq]
    omega
  · simp only [decide_eq_true_eq, Nat.zero_mul]
    split <;> split <;> omega

theorem tiles_whole {p : Pooled} {d : Desc} (hname : d.opc = 1 → d.tile = 0) (hk : p.log2k = 0) (hrot : p.rot = 0) (S : Nat) :
    p.tiles d S = (List.range S).flatMap fun s => tileRun (s % S) (s * d.bags / S) ((s + 1) * d.bags / S) (bptOf (p.mem.dim d)) := by
  unfold Pooled.tiles
  dsimp only
  rw [if_neg (by simpa using hname), if_pos hk, hrot]
  rfl

/-- Every bag is in one tile. -/
theorem tiles_whole_once {p : Pooled} {d : Desc} {S b : Nat} (hname : d.opc = 1 → d.tile = 0) (hk : p.log2k = 0) (hrot : p.rot = 0) (hS : 0 < S)
    (hbpt : 0 < bptOf (p.mem.dim d)) (hb : b < d.bags) : ((p.tiles d S).filter fun x => decide (x.lo ≤ b ∧ b < x.hi)).length = 1 := by
  rw [tiles_whole hname hk hrot, ← List.countP_eq_length_filter, countP_flatMap_of_ite fun s => countP_tileRun hbpt ..,
    countP_pieces (rising_share d.bags S), Nat.zero_mul, Nat.zero_div, Nat.mul_div_cancel_left _ hS, if_pos ⟨Nat.zero_le b, hb⟩]

theorem mem_tiles_whole {p : Pooled} {d : Desc} {S : Nat} (hname : d.opc = 1 → d.tile = 0) (hk : p.log2k = 0) (hrot : p.rot = 0) {x : TileRef}
    (h : x ∈ p.tiles d S) :
    x.pos < S ∧ x.pos * d.bags / S ≤ x.lo ∧ x.hi ≤ (x.pos + 1) * d.bags / S ∧ x.hi ≤ x.lo + bptOf (p.mem.dim d) := by
  rw [tiles_whole hname hk hrot] at h
  obtain ⟨s, hs, hx⟩ := List.mem_flatMap.mp h
  have hlt : s < S := List.mem_range.mp hs
  obtain ⟨hpos, hlo, hhi, hlen⟩ := mem_tileRun hx
  obtain rfl : x.pos = s := hpos.trans (Nat.mod_eq_of_lt hlt)
  exact ⟨hlt, hlo, hhi, hlen⟩

/-! ## Split bags: one part at each of k positions (R183) -/

theorem mem_tiles_split {p : Pooled} {d : Desc} {S : Nat} (hname : d.opc = 1 → d.tile = 0) (hk : p.log2k ≠ 0) (hrot : p.rot = 0)
    (hfit : d.bags * 2 ^ p.log2k ≤ S) {x : TileRef} (h : x ∈ p.tiles d S) :
    x.pos = x.lo * 2 ^ p.log2k + x.part ∧ x.hi = x.lo + 1 ∧ x.lo < d.bags ∧ x.part < 2 ^ p.log2k ∧ x.k = 2 ^ p.log2k := by
  unfold Pooled.tiles at h
  dsimp only at h
  rw [if_neg (by simpa using hname), if_neg hk, hrot] at h
  obtain ⟨b, hb, hx⟩ := List.mem_flatMap.mp h
  obtain ⟨j, hj, rfl⟩ := List.mem_map.mp hx
  have hb' : b < d.bags := List.mem_range.mp hb
  have hj' : j < 2 ^ p.log2k := List.mem_range.mp hj
  refine ⟨Nat.mod_eq_of_lt ?_, rfl, hb', hj', rfl⟩
  calc b * 2 ^ p.log2k + j < (b + 1) * 2 ^ p.log2k := by rw [Nat.succ_mul]; exact Nat.add_lt_add_left hj' _
    _ ≤ d.bags * 2 ^ p.log2k := Nat.mul_le_mul_right _ hb'
    _ ≤ S := hfit

/-- The pairs of bags [lo, hi), in pair-list order, each with its index in the pair list. -/
def pairsOf (lo hi : Nat) (ps : List Pair) : List (Nat × Pair) :=
  (List.zip (List.range ps.length) ps).filter fun e => decide (lo ≤ e.2.bag ∧ e.2.bag < hi)

theorem pairs_whole {t : TileRef} (h : t.k = 1) (ps : List Pair) : t.pairs ps = pairsOf t.lo t.hi ps := if_pos h

theorem pairs_part {t : TileRef} (h : t.k ≠ 1) (ps : List Pair) :
    t.pairs ps = ((pairsOf t.lo t.hi ps).drop (t.part * (pairsOf t.lo t.hi ps).length / t.k)).take
      ((t.part + 1) * (pairsOf t.lo t.hi ps).length / t.k - t.part * (pairsOf t.lo t.hi ps).length / t.k) := if_neg h

/-- The parts of a split bag together hold its pairs in order. -/
theorem flatMap_pairs_parts (b : Nat) {k : Nat} (hk : 1 < k) (ps : List Pair) :
    ((List.range k).flatMap fun j => TileRef.pairs { pos := 0, tile := 0, lo := b, hi := b + 1, part := j, k := k } ps) =
      TileRef.pairs { pos := 0, tile := 0, lo := b, hi := b + 1 } ps := by
  rw [pairs_whole rfl, ← flatMap_shares (Nat.zero_lt_of_lt hk) (pairsOf b (b + 1) ps)]
  exact congrArg (List.flatMap · (List.range k)) (funext fun j => pairs_part (Nat.ne_of_gt hk) ps)

/-- Settles O48: k is read off its bound, and whole bags, their tiles and the parts of a split bag off the cuts that they are. -/
theorem gathersArePlaced : Obligations.GathersArePlaced := by
  unfold Obligations.GathersArePlaced
  refine ⟨?_, ?_, ?_, ?_, ?_, ?_, ?_⟩
  · exact fun S B P s hoff => splitLog_off hoff S B P
  · intro S B P s hsplit
    have hle := pow_splitLog_le hsplit
    unfold splitBound at hle
    omega
  · intro S B P j s hon hB hslices hpairs hmost
    exact le_splitLog hon (Nat.pos_iff_ne_zero.mp hB) (Nat.le_min.mpr ⟨hslices, Nat.le_min.mpr ⟨hpairs, hmost⟩⟩)
  · exact fun p d S b hname hk hrot hS hbpt hb => tiles_whole_once hname hk hrot hS hbpt hb
  · exact fun p d S hname hk hrot _ x hx => mem_tiles_whole hname hk hrot hx
  · exact fun p d S hname hk hrot hfit x hx => mem_tiles_split hname hk hrot hfit hx
  · exact fun b k ps hk => flatMap_pairs_parts b hk ps

end Sys2Proof.Proofs
end

section
/-!
PROOFS. O20: spool and rounds (R185, R186, R188). Of what a command does after it has granted a window its spool, or begun a round of it,
nothing takes a grant back, begins a round or makes a window: every window that is left is one that was there, with its number, its grant
and its rounds.
-/

namespace Sys2Proof.Proofs

open Sys2Proof Sys2Proof.Machine Sys2Proof.Laws

/-! ## Windows that keep their grants and rounds -/

/-- Two windows have one number, and of both the spool is reserved or not, and as many rounds have begun. -/
structure SameStanding (v w : PWin) : Prop where
  wid     : v.wid = w.wid
  granted : v.granted = w.granted
  round   : v.round = w.round

/-- Every sorted window of t is one of s, with its number, its grant and its rounds; others may be gone. -/
structure WindowsStand (s t : State) : Prop where
  stands : ∀ v ∈ t.sp.pwins, ∃ w ∈ s.sp.pwins, SameStanding v w

theorem WindowsStand.of_pwins {s t : State} (h : t.sp.pwins = s.sp.pwins) : WindowsStand s t :=
  ⟨fun v hv => ⟨v, h ▸ hv, rfl, rfl, rfl⟩⟩

theorem WindowsStand.of_sp {s t : State} (h : t.sp = s.sp) : WindowsStand s t := .of_pwins (congrArg SortPool.pwins h)

theorem WindowsStand.refl (s : State) : WindowsStand s s := .of_pwins rfl

theorem WindowsStand.trans {s t u : State} (h : WindowsStand s t) (h' : WindowsStand t u) : WindowsStand s u := by
  refine ⟨fun v hv => ?_⟩
  obtain ⟨w, hw, hvw⟩ := h'.stands v hv
  obtain ⟨x, hx, hwx⟩ := h.stands w hw
  exact ⟨x, hx, hvw.wid.trans hwx.wid, hvw.granted.trans hwx.granted, hvw.round.trans hwx.round⟩

theorem WindowsStand.forEach {α : Type} {f : State → α → State} (h : ∀ s a, WindowsStand s (f s a)) (l : List α) (s : State) :
    WindowsStand s (State.forEach f l s) :=
  forEach_keeps (P := WindowsStand s) l (fun u a _ hu => hu.trans (h u a)) s (.refl s)

theorem onPwin_stands (s : State) (wid : Nat) {f : PWin → PWin} (hf : ∀ w, SameStanding (f w) w) : WindowsStand s (s.onPwin wid f) := by
  refine ⟨fun v hv => ?_⟩
  obtain ⟨w, hw, rfl⟩ := List.mem_map.mp hv
  refine ⟨w, hw, ?_⟩
  split
  · exact hf w
  · exact ⟨rfl, rfl, rfl⟩

/-- A window of the number that is changed is the change of one. -/
theorem mem_onPwin {s : State} {n : Nat} {f : PWin → PWin} {v : PWin} (hv : v ∈ (s.onPwin n f).sp.pwins) (hn : v.wid = n) :
    ∃ w ∈ s.sp.pwins, w.wid = n ∧ v = f w := by
  obtain ⟨w, hw, rfl⟩ := List.mem_map.mp hv
  split at hn
  · next heq => exact ⟨w, hw, heq, if_pos heq⟩
  · next hne => exact absurd hn hne

theorem WindowsStand.keeps_granted {s t : State} (h : WindowsStand s t) {n : Nat} (hs : ∀ w ∈ s.sp.pwins, w.wid = n → w.granted = true) :
    ∀ w ∈ t.sp.pwins, w.wid = n → w.granted = true := by
  intro v hv hn
  obtain ⟨w, hw, hwid, hgranted, -⟩ := h.stands v hv
  exact hgranted.trans (hs w hw (hwid.symm.trans hn))

theorem WindowsStand.keeps_round {s t : State} (h : WindowsStand s t) {n k : Nat} (hs : ∀ w ∈ s.sp.pwins, w.wid = n → w.round = k) :
    ∀ w ∈ t.sp.pwins, w.wid = n → w.round = k := by
  intro v hv hn
  obtain ⟨w, hw, hwid, -, hround⟩ := h.stands v hv
  exact hround.trans (hs w hw (hwid.symm.trans hn))

/-! ## Ends of members -/

theorem without_standing (w : PWin) (id : Nat) : SameStanding (w.without id) w := by
  unfold PWin.without
  dsimp only
  split <;> exact ⟨rfl, rfl, rfl⟩

theorem tidyWins_stands (s : State) : WindowsStand s s.tidyWins :=
  ⟨fun v hv => ⟨v, (List.mem_filter.mp hv).1, rfl, rfl, rfl⟩⟩

theorem failGather_sp (s : State) (d : Desc) (p : Pooled) : (s.failGather d p).sp = s.sp :=
  same_of_hide (failGather_hide (M := butSp) rfl ..) .sp rfl

theorem prefetchEnd_sp (s : State) (id n : Nat) (bad : List (Key × BitVec 8)) : (s.prefetchEnd id n bad).sp = s.sp :=
  same_of_hide (prefetchEnd_hide (M := butSp) rfl ..) .sp rfl

theorem endGather_sp (s : State) (p : Pooled) (d : Desc) : (s.endGather p d).sp = s.sp :=
  same_of_hide (endGather_hide (M := butSp) rfl ..) .sp rfl

theorem holdDone_pwins (s : State) (w : PWin) (p : Pooled) (d : Desc) : (s.holdDone w p d).sp.pwins = s.sp.pwins := rfl

/-- How a member ends concerns no window. -/
theorem settleMember_pwins (s : State) (w : PWin) (p : Pooled) : (s.settleMember w p).1.sp.pwins = s.sp.pwins := by
  unfold State.settleMember
  split
  · rfl
  split
  · split
    · exact congrArg SortPool.pwins (prefetchEnd_sp ..)
    · rfl
  split
  · rfl
  split
  · exact congrArg SortPool.pwins (failGather_sp ..)
  split
  · split
    · exact holdDone_pwins ..
    · rfl
  split
  · exact congrArg SortPool.pwins (endGather_sp ..)
  · rfl

theorem settleWin_stands (s : State) (wid : Nat) : WindowsStand s (s.settleWin wid) := by
  unfold State.settleWin
  split
  · exact tidyWins_stands s
  next w _ =>
    refine (WindowsStand.forEach (fun u p => ?_) w.members s).trans (tidyWins_stands _)
    dsimp only
    split
    · exact (WindowsStand.of_pwins (settleMember_pwins u w p)).trans (onPwin_stands _ wid fun x => without_standing x p.mem.id)
    · exact .refl u

/-! ## Spool -/

theorem wakeGroups_sp (s : State) (w : PWin) : (s.wakeGroups w).sp = s.sp := same_of_hide (wakeGroups_hide (M := butSp) rfl rfl ..) .sp rfl

theorem readRows_sp (s : State) (wid : Nat) (rows : List (Key × Nat)) : (s.readRows wid rows).sp = s.sp :=
  same_of_hide (readRows_hide (M := butSp) rfl rfl ..) .sp rfl

theorem grantSpool_grants {s : State} {n : Nat} (h : ∃ w ∈ s.sp.pwins, w.wid = n) :
    ∀ w ∈ (s.grantSpool n).sp.pwins, w.wid = n → w.granted = true := by
  unfold State.grantSpool State.pwin
  split
  · next hnone =>
    obtain ⟨w, hw, hn⟩ := h
    exact absurd (beq_iff_eq.mpr hn) (List.find?_eq_none.mp hnone w hw)
  next w _ =>
    refine WindowsStand.keeps_granted (s := s.onPwin n fun x => { x with granted := true }) ?_ ?_
    · exact (WindowsStand.of_sp ((readRows_sp ..).trans (wakeGroups_sp ..))).trans (settleWin_stands ..)
    · intro v hv hn
      obtain ⟨_, -, -, rfl⟩ := mem_onPwin hv hn
      rfl

theorem mem_of_spoolQueue {s : State} {h : PWin} {l : List PWin} (hq : s.spoolQueue = h :: l) : h ∈ s.sp.pwins :=
  (List.mem_filter.mp (hq ▸ List.mem_cons_self : h ∈ s.spoolQueue)).1

theorem spoolGrant_head {s : State} {h : PWin} {l : List PWin} (hq : s.spoolQueue = h :: l) (hfits : s.spoolFits h = true) :
    s.spoolGrant = s.grantSpool h.wid := by
  unfold State.spoolGrant
  rw [hq]
  exact if_pos hfits

/-- An event that telemetry is told is raised: there is room for it and for the events that its copy to the log leads to. -/
theorem raised_of_event {s u : State} (h : u.tel = s.tel) (e : Event) {code : Nat} (hcode : e.code = BitVec.ofNat 32 code) :
    State.raised s (u.tell [.event e]) code := by
  intro hon hroom
  have hclear := clearOn_le ownCounters s.tel
  have hlen : ownCounters.length = 3 := rfl
  obtain ⟨m, hm, hmem⟩ := tell_event_queued (fun _ hc => hc) u [] e (calm_nil ownCounters) (Nat.le_of_ble_eq_true rfl) (h ▸ hon) (by
    simp only [queueBound, sumBy, h]
    omega)
  exact ⟨m, e, h ▸ hm, hmem, hcode⟩

theorem spoolFull_tells {s : State} {h : PWin} {l : List PWin} (hq : s.spoolQueue = h :: l) (htold : h.told = false) :
    ∃ ring data, s.spoolFull = (s.onPwin h.wid fun x => { x with told := true }).tell
      [.event { code := 0x701, ring := ring, data := data }] := by
  unfold State.spoolFull
  rw [hq]
  dsimp only
  rw [htold, if_neg Bool.false_ne_true]
  exact ⟨_, _, rfl⟩

/-! ## Rounds -/

theorem openBlock_pwins (w : PWin) (s : State) (b : Block) : (State.openBlock w s b).sp.pwins = s.sp.pwins := by
  unfold State.openBlock
  split <;> rfl

theorem letTiles_pwins (s : State) : s.letTiles.sp.pwins = s.sp.pwins := by
  have hopen : ∀ (u : State) (w : PWin), (State.forEach (State.openBlock w) (u.blocks w) u).sp.pwins = u.sp.pwins := fun u w =>
    forEach_keeps (P := fun v => v.sp.pwins = u.sp.pwins) _ (fun v b _ hv => (openBlock_pwins w v b).trans hv) u rfl
  exact forEach_keeps (P := fun v => v.sp.pwins = s.sp.pwins) _ (fun v w _ hv => (hopen v w).trans hv) _ rfl

theorem noteScratch_sp (s : State) (area x n : Nat) (write : Bool) : (s.noteScratch area x n write).sp = s.sp :=
  same_of_hide (noteScratch_hide (M := butSp) rfl rfl ..) .sp rfl

theorem noteFetch_pwins (s : State) (k : Key) (ver : Nat) : (s.noteFetch k ver).sp.pwins = s.sp.pwins := by
  have hbump : (s.bump k).sp = s.sp := same_of_hide (bump_hide (M := butSp) rfl rfl rfl ..) .sp rfl
  unfold State.noteFetch
  dsimp only
  split
  · rw [count_sp, onSp_sp, hbump]
  · rw [hbump]

/-- A row that is fetched again after an error is no further fetch. -/
theorem fetched_pwins (s : State) (first : Bool) (k : Key) (ver : Nat) :
    (if first then s.noteFetch k ver else s).sp.pwins = s.sp.pwins := by
  split
  · exact noteFetch_pwins ..
  · rfl

/-- A row joins those that a window has asked for. -/
theorem asked_stands {s u : State} (h : u.sp.pwins = s.sp.pwins) (wid : Nat) (a : Ask) :
    WindowsStand s (u.onPwin wid fun x => { x with asked := x.asked ++ [a] }) :=
  .trans (.of_pwins h) (onPwin_stands u wid fun _ => ⟨rfl, rfl, rfl⟩)

theorem notePinned_sp (s : State) (o n : Nat) (bobbin : Bool) : (s.notePinned o n bobbin).sp = s.sp :=
  same_of_hide (notePinned_hide (M := butSp) rfl rfl ..) .sp rfl

theorem touchHead_sp (s : State) (ch set : Nat) (changed : Bool) : (s.touchHead ch set changed).sp = s.sp :=
  same_of_hide (touchHead_hide (M := butSp) rfl rfl rfl ..) .sp rfl

theorem readCopy_sp (s : State) (w : Way) (n : Nat) (bobbin : Bool) : (s.readCopy w n bobbin).sp = s.sp :=
  same_of_hide (readCopy_hide (M := butSp) rfl rfl rfl ..) .sp rfl

theorem noteReplica_sp (s : State) (w : Way) : (s.noteReplica w).sp = s.sp := same_of_hide (noteReplica_hide (M := butSp) rfl ..) .sp rfl

theorem onWays_sp (s : State) (p : Way → Bool) (f : Way → Way) : (s.onWays p f).sp = s.sp :=
  same_of_hide (onWays_hide (M := butSp) rfl ..) .sp rfl

theorem readLanding_sp (s : State) (k : Key) (ver : Nat) : (s.readLanding k ver).sp = s.sp :=
  same_of_hide (readLanding_hide (M := butSp) rfl rfl ..) .sp rfl

theorem issue_stands (s : State) (w : PWin) (a : Ask) : WindowsStand s (s.issue w a) := by
  unfold State.issue
  split
  · exact .refl s
  dsimp only
  split
  · refine asked_stands ?_ ..
    rw [fetched_pwins, notePinned_sp]
  · refine asked_stands ?_ ..
    rw [fetched_pwins, countN_sp, onWays_sp, noteReplica_sp, readCopy_sp, touchHead_sp]
  · refine asked_stands ?_ ..
    split
    · rw [readLanding_sp, fetched_pwins, countN_sp, touchHead_sp]
    split
    · rw [send_sp, fetched_pwins, countN_sp, touchHead_sp]
    · rw [fetched_pwins, countN_sp, touchHead_sp]

theorem rowFails_stands (s : State) (wid : Nat) (k : Key) (ver : Nat) (st : BitVec 8) : WindowsStand s (s.rowFails wid k ver st) :=
  onPwin_stands s wid fun _ => ⟨rfl, rfl, rfl⟩

theorem noteCap_sp (s : State) (c : Nat) : (s.noteCap c).sp = s.sp := same_of_hide (noteCap_hide (M := butSp) rfl ..) .sp rfl

theorem askRow_stands (s : State) (wid : Nat) (n : Need) (again : Nat) : WindowsStand s (s.askRow wid n again) := by
  unfold State.askRow
  split
  · exact .refl s
  dsimp only
  split
  · exact rowFails_stands ..
  split
  · exact rowFails_stands ..
  split
  · refine .trans (onPwin_stands s wid ?_) (.of_sp (readRows_sp ..))
    exact fun _ => ⟨rfl, rfl, rfl⟩
  split
  · exact issue_stands ..
  · refine .trans (.of_sp (noteCap_sp ..)) (onPwin_stands _ wid ?_)
    exact fun _ => ⟨rfl, rfl, rfl⟩

theorem needRow_stands (s : State) (wid : Nat) (bad : List (Key × Nat)) (n : Need) : WindowsStand s (s.needRow wid bad n) := by
  unfold State.needRow
  split
  · exact .refl s
  split
  · exact .of_sp ((tell_sp ..).trans (noteScratch_sp ..))
  split
  · exact .refl s
  dsimp only
  split
  · exact .refl s
  · exact askRow_stands ..

theorem spoolBad_stands (s : State) (wid : Nat) (r : Key × Nat) : WindowsStand s (s.spoolBad wid r) := by
  unfold State.spoolBad
  dsimp only
  split
  · exact .refl s
  split <;>
  · refine .trans (onPwin_stands s wid ?_) (.of_sp (count_sp ..))
    exact fun _ => ⟨rfl, rfl, rfl⟩

theorem pwin_of_pwins {s t : State} (h : t.sp.pwins = s.sp.pwins) (n : Nat) : t.pwin n = s.pwin n := by
  unfold State.pwin
  rw [h]

/-- A round begins, and then what it needs is asked for. -/
theorem roundStart_begins {w : PWin} {l : List Need} {s : State} (hwin : s.pwin w.wid = some w) (hplan : w.plan[w.round]? = some l)
    (hgranted : w.granted = true) (hasked : w.asked = []) (hcapped : w.capped = []) (hblocks : s.letTiles.blocksIn w = true)
    (hslices : s.letTiles.slicesBusy w = false) (hreads : s.letTiles.readsIn w l = true) (bad : List (Key × Nat)) :
    WindowsStand (s.letTiles.onPwin w.wid fun x => { x with round := x.round + 1 }) (s.roundStart w.wid bad) := by
  have hpwin : s.letTiles.pwin w.wid = some w := (pwin_of_pwins (letTiles_pwins s) _).trans hwin
  unfold State.roundStart
  dsimp only
  rw [hpwin]
  dsimp only
  rw [hplan]
  dsimp only
  rw [hgranted, hasked, hcapped, hblocks, hslices, hreads]
  rw [if_neg (by decide)]
  refine .trans ?_ (settleWin_stands ..)
  refine .trans ?_ (.of_pwins (letTiles_pwins _))
  refine .trans ?_ (.forEach (fun u n => needRow_stands u w.wid bad n) l _)
  exact .trans (.of_sp (countN_sp ..)) (.forEach (fun u r => spoolBad_stands u w.wid r) _ _)

/-- Settles O20: the command grants the spool, marks the window or begins the round, and the windows that are left at its end stand as they
did then. -/
theorem windowsFetchInRounds : Obligations.WindowsFetchInRounds := by
  unfold Obligations.WindowsFetchInRounds
  refine ⟨?_, ?_, ?_⟩
  · intro h l s hq hfits
    refine ⟨s.spoolGrant, rfl, ?_⟩
    rw [spoolGrant_head hq hfits]
    exact grantSpool_grants ⟨h, mem_of_spoolQueue hq, rfl⟩
  · intro h l s hq htold
    obtain ⟨ring, data, heq⟩ := spoolFull_tells hq htold
    refine ⟨s.spoolFull, rfl, ?_, ?_⟩
    · rw [heq, tell_sp]
      intro v hv hn
      obtain ⟨_, -, -, rfl⟩ := mem_onPwin hv hn
      rfl
    · rw [heq]
      exact raised_of_event rfl _ rfl
  · intro w l bad s hwin hplan hgranted hasked hcapped hblocks hslices hreads honly
    refine ⟨s.roundStart w.wid bad, rfl, (roundStart_begins hwin hplan hgranted hasked hcapped hblocks hslices hreads bad).keeps_round ?_⟩
    intro v hv hn
    obtain ⟨x, hx, hxn, rfl⟩ := mem_onPwin hv hn
    rw [letTiles_pwins] at hx
    rw [honly x hx hxn]

end Sys2Proof.Proofs
end

section
/-!
PROOFS. O21 fails in its clause of the grant: the window whose tile takes its positions is placed, and takes its spool where it needs none, in
the same command, and then its descriptors end that can end. One that ends holding the same tile writes its own positions into it.
-/

namespace Sys2Proof.Proofs

open Sys2Proof Sys2Proof.Machine

/-! ## A window with two descriptors of one chain -/

theorem exec_tilePositionsGrant (id : Nat) (s : State) : exec (.tilePositionsGrant id) s = .next (s.tileGrant id) := rfl

/-- A GATHER_POOL of ring 5 of one null key into one bag, in tile 9. -/
def chainGather (id flags : Nat) : Desc :=
  { id := id, ring := 5, stage := .pooling
    raw := leBytes 1 1 ++ leBytes 1 flags ++ leBytes 30 0 ++ leBytes 4 1 ++ leBytes 4 1 ++ leBytes 2 9 ++ leBytes 22 0 }

/-- The first of the chain, which holds the tile when it ends. -/
def holdingGather : Desc := chainGather 0 0x40

/-- The second of the chain. -/
def laterGather : Desc := chainGather 1 0

/-- What a sort makes of one null key: no row and no pair. -/
def nullPart (id : Nat) (pos0 : Option Nat) : Pooled :=
  { mem := { id := id, count := 1, keys := [none], bags := [0], inv := [none] }, pos0 := pos0 }

/-- The window of the two: the first has position 3 for the tile, the second waits for its positions. -/
def chainWindow : PWin := { wid := 0, members := [nullPart 0 (some 3), nullPart 1 none], slices := 128, packed := true }

/-- A block whose one sorted window waits for the positions of tile 9. -/
def chainState : State :=
  { State.reset with
    fe := { descs := [holdingGather, laterGather] }
    sp := { pwins := [chainWindow], tiles := [(9, { owner := 5, pos := some 3, bags := 1, dim := 8 })], nextWid := 1 } }

theorem chainState_waits : chainState.desc laterGather.id = some laterGather ∧ (nullPart 1 none).mem.id = laterGather.id ∧
    chainState.sp.pwins.find? (fun v => v.members.any fun p => p.mem.id == laterGather.id && p.pos0.isNone) = some chainWindow ∧
    chainWindow.members.find? (fun p => p.mem.id == laterGather.id) = some (nullPart 1 none) ∧ laterGather.opc = 1 ∧ laterGather.tile = 9 ∧
    (mgetD chainState.sp.tiles laterGather.tile { owner := laterGather.ring }).held = false ∧
    chainState.freePos (ceilDiv laterGather.bags (bptOf ((nullPart 1 none).mem.dim laterGather))) = some 0 := by decide +kernel

/-- The lowest free position is 0, and the tile ends up, held, at position 3. -/
theorem chainState_granted :
    (mget (chainState.tileGrant laterGather.id).sp.tiles laterGather.tile).map (fun n => (n.held, n.pos)) = some (true, some 3) := by
  decide +kernel

/-- Refutes O21: its first clause says that a named tile which begins a chain is at the lowest free positions after the grant, in every state.
In `chainState` the window holds a descriptor of the same ring and tile that has positions already and ends holding the tile, though R197 keeps
the later descriptor of a chain waiting until the earlier has completed; nothing in the clause leaves such a state out. TILE_POSITIONS_GRANT
there takes position 0 for the tile, places the window and ends that descriptor, which leaves the tile at its own position 3. -/
theorem not_namedTilesAreGrantedAndReleased : ¬ Obligations.NamedTilesAreGrantedAndReleased := by
  unfold Obligations.NamedTilesAreGrantedAndReleased
  rintro ⟨grant, -, -⟩
  obtain ⟨hdesc, hmem, hwin, hmember, hopc, htile, hheld, hfree⟩ := chainState_waits
  obtain ⟨t, n, hexec, hn, hpos⟩ :=
    grant chainWindow (nullPart 1 none) laterGather 0 chainState hdesc hmem hwin hmember rfl hopc (htile ▸ by decide) hheld hfree
  have hgranted := chainState_granted
  rw [Host.Outcome.next.inj ((exec_tilePositionsGrant ..).symm.trans hexec), hn] at hgranted
  simp [hpos] at hgranted

end Sys2Proof.Proofs
end

section
/-!
PROOFS. O23: the rescale banks (R215, R216). A command of CRH_RSC_CMD runs on the banks and the descriptors as they stood; what LOAD and SWAP
make of the banks is said here of any state.
-/

namespace Sys2Proof.Proofs

open Sys2Proof Sys2Proof.Machine Sys2Proof.Laws

/-! ## CRH_RSC_CMD -/

theorem exec_load (p : Path) (img : Feed) (s : State) : exec (.load p img) s = .next (s.rscCmd p 1 fun s => s.rscLoad p img) := rfl

theorem exec_swap (p : Path) (s : State) : exec (.swap p) s = .next (s.rscCmd p 2 fun s => s.rscSwap p) := rfl

theorem rscCmd_runs {s : State} {p : Path} (hstart : s.starts p Reg.rscCmd 31 1 false none = true) (op : Nat) (run : State → State) :
    ∃ s1, s.rscCmd p op run = run s1 ∧ s1.qz = s.qz ∧ s1.fe = s.fe := by
  obtain ⟨s1, heq, hkeeps⟩ := command_runs hstart (BitVec.ofNat 64 (op + 2 ^ 31)) run
  exact ⟨s1, heq, same_of_hide hkeeps .qz rfl, same_of_hide hkeeps .fe rfl⟩

/-! ## LOAD -/

theorem posOf_eq_none_iff {α : Type} {p : α → Bool} {l : List α} : posOf p l = none ↔ ∀ x ∈ l, p x = false := by
  induction l with
  | nil => exact iff_of_true rfl nofun
  | cons a l ih =>
    rw [List.forall_mem_cons, ← ih, posOf]
    cases p a with
    | true => exact iff_of_false nofun nofun
    | false => rw [if_neg Bool.false_ne_true, Option.map_eq_none_iff, eq_self, true_and]

/-- The banks once a table has been written to the shadow bank. -/
def shadowFilled (q : Quant) (t : List F32) : Quant :=
  if q.active then { q with bankA := t, loading := none, shadowOk := true } else { q with bankB := t, loading := none, shadowOk := true }

theorem shadowFilled_banks (q : Quant) (t : List F32) :
    (shadowFilled q t).shadowOk = true ∧ (shadowFilled q t).active = q.active ∧ (shadowFilled q t).loading = none ∧
      (if q.active then (shadowFilled q t).bankA else (shadowFilled q t).bankB) = t ∧
      (if q.active then (shadowFilled q t).bankB else (shadowFilled q t).bankA) = (if q.active then q.bankB else q.bankA) := by
  unfold shadowFilled
  cases q.active with
  | true => exact ⟨rfl, rfl, rfl, rfl, rfl⟩
  | false => exact ⟨rfl, rfl, rfl, rfl, rfl⟩

/-- No descriptor holds back a LOAD whose shadow bank none is bound to. -/
theorem endLoad_qz {s : State} {b : Bytes} (hload : s.qz.loading = some b) (hfree : s.shadowRefs = 0) :
    s.endLoad.qz = shadowFilled s.qz (rscEntries b) := by
  unfold State.endLoad
  rw [hload]
  dsimp only
  rw [if_neg (not_not_intro hfree), finish_qz]
  rfl

theorem loadFails_qz (s : State) (p : Path) (result index : Nat) : (s.loadFails p result index).qz = { s.qz with shadowOk := false } := by
  unfold State.loadFails
  rw [cmdField_qz, finish_qz, onQz_qz]

theorem rscLoad_qz_of_normal {s : State} {img : Feed} (p : Path) (hread : img.status = St.ok)
    (hnormal : ∀ x ∈ rscEntries (slice img.data 0 4096), fNormal x = true) (hfree : s.shadowRefs = 0) :
    (s.rscLoad p img).qz =
      shadowFilled { s.qz with loading := some (slice img.data 0 4096) } (rscEntries (slice img.data 0 4096)) := by
  have hgood : posOf (fun x => !fNormal x) (rscEntries (slice img.data 0 4096)) = none :=
    posOf_eq_none_iff.mpr fun x hx => congrArg not (hnormal x hx)
  unfold State.rscLoad
  rw [if_neg (not_not_intro hread)]
  dsimp only
  rw [hgood]
  exact endLoad_qz (s := s.onQz fun q => { q with loading := some (slice img.data 0 4096) }) rfl hfree

/-- One entry that is not a normal number fails the LOAD, and neither bank is written. -/
theorem rscLoad_qz_of_not_normal {s : State} {img : Feed} {x : F32} (p : Path) (hread : img.status = St.ok)
    (hx : x ∈ rscEntries (slice img.data 0 4096)) (hbad : fNormal x = false) :
    (s.rscLoad p img).qz = { s.qz with shadowOk := false } := by
  unfold State.rscLoad
  rw [if_neg (not_not_intro hread)]
  dsimp only
  split
  · exact loadFails_qz ..
  · next hgood => exact absurd (posOf_eq_none_iff.mp hgood x hx) (by rw [hbad]; decide)

/-! ## SWAP -/

theorem rscSwap_qz {s : State} (p : Path) (hloaded : s.qz.shadowOk = true) :
    (s.rscSwap p).qz = { s.qz with active := !s.qz.active, shadowOk := false } := by
  unfold State.rscSwap
  rw [if_pos hloaded, finish_qz, count_qz, onQz_qz]

/-- Settles O23: the start of the command leaves the banks and the bound descriptors as they stood, so that LOAD and SWAP make of them what
they make of any. -/
theorem rescaleBanksLoadAndSwap : Obligations.RescaleBanksLoadAndSwap := by
  unfold Obligations.RescaleBanksLoadAndSwap
  refine ⟨?_, ?_, ?_⟩
  · intro p img s hstart hread hnormal hfree
    obtain ⟨s1, heq, hqz, hfe⟩ := rscCmd_runs hstart 1 fun s => s.rscLoad p img
    have hfree1 : s1.shadowRefs = 0 := by
      rw [State.shadowRefs, hqz, hfe]
      exact hfree
    refine ⟨_, exec_load .., ?_⟩
    rw [heq, rscLoad_qz_of_normal p hread hnormal hfree1, hqz]
    exact shadowFilled_banks ..
  · intro p img x s hstart hread hx hbad
    obtain ⟨s1, heq, hqz, -⟩ := rscCmd_runs hstart 1 fun s => s.rscLoad p img
    refine ⟨_, exec_load .., ?_⟩
    rw [heq, rscLoad_qz_of_not_normal p hread hx hbad, hqz]
    exact ⟨rfl, rfl, rfl⟩
  · intro p s hstart hloaded
    obtain ⟨s1, heq, hqz, -⟩ := rscCmd_runs hstart 2 fun s => s.rscSwap p
    refine ⟨_, exec_swap .., ?_⟩
    rw [heq, rscSwap_qz p (hqz ▸ hloaded), hqz]
    exact ⟨rfl, rfl, rfl, rfl⟩

end Sys2Proof.Proofs
end

section
/-!
PROOFS. What the rules of chapter 9 share: commands that may end an exchange, where none is open; a descriptor after it has been changed; and
the parts of the update state that the taking in of contributions leaves as they are (R232, R244).
-/

namespace Sys2Proof.Proofs

open Sys2Proof Sys2Proof.Machine Sys2Proof.Laws

/-- Every part but one may change. -/
def butZone (z : Zone) : Mask := fun y => y != z

/-- A command that may end an exchange only acts, where none is open. -/
theorem rest_closed {s : State} (h : s.exchanging = false) (t : State) : State.rest s.exchanging t = t := by
  rw [h]
  rfl

/-! ## Descriptors -/

theorem desc_of_fe {s t : State} (h : t.fe = s.fe) (i : Nat) : t.desc i = s.desc i := by
  unfold State.desc
  rw [h]

theorem exists_desc_of_mem_descIds {s : State} {i : Nat} (h : i ∈ descIds s) : ∃ d, s.desc i = some d := by
  obtain ⟨d, hd, hid⟩ := mem_descIds.mp h
  exact Option.isSome_iff_exists.mp (List.find?_isSome.mpr ⟨d, hd, beq_iff_eq.mpr hid⟩)

theorem mem_descIds_of_desc {s : State} {i : Nat} {d : Desc} (h : s.desc i = some d) : i ∈ descIds s :=
  mem_descIds.mpr ⟨d, List.mem_of_find?_eq_some h, desc_id h⟩

/-- A change of a descriptor that keeps identifiers is found under its identifier, and under no other. -/
theorem desc_onDesc (s : State) (id i : Nat) {f : Desc → Desc} (hf : ∀ d, (f d).id = d.id) :
    (s.onDesc id f).desc i = (s.desc i).map fun d => if d.id = id then f d else d := by
  change (s.fe.descs.map fun d => if d.id = id then f d else d).find? (fun d => d.id == i) = _
  rw [List.find?_map]
  congr 1
  refine congrArg (fun p => s.fe.descs.find? p) (funext fun d => ?_)
  change ((if d.id = id then f d else d).id == i) = (d.id == i)
  split
  · rw [hf]
  · rfl

theorem desc_onDesc_self {s : State} {i : Nat} {d : Desc} (h : s.desc i = some d) {f : Desc → Desc} (hf : ∀ d, (f d).id = d.id) :
    (s.onDesc i f).desc i = some (f d) := by
  rw [desc_onDesc s i i hf, h, Option.map_some, if_pos (desc_id h)]

theorem desc_onDesc_ne (s : State) {id i : Nat} (hne : i ≠ id) {f : Desc → Desc} (hf : ∀ d, (f d).id = d.id) :
    (s.onDesc id f).desc i = s.desc i := by
  rw [desc_onDesc s id i hf]
  cases h : s.desc i with
  | none => rfl
  | some d => rw [Option.map_some, if_neg fun heq => hne ((desc_id h).symm.trans heq)]

theorem desc_settle_self {s : State} {i : Nat} {d : Desc} (h : s.desc i = some d) {f : Desc → Desc} (hf : ∀ d, (f d).id = d.id) :
    (s.settle i f).desc i = some { f d with stage := .finished } :=
  desc_onDesc_self (f := fun d => { f d with stage := .finished }) h hf

theorem desc_endDesc_ne (s : State) {id i : Nat} (hne : i ≠ id) (st : BitVec 8) (detail done : Nat) (info : Word64) :
    (s.endDesc id st detail done info).desc i = s.desc i :=
  desc_onDesc_ne (f := fun d => { d with status := st, detail := detail, done := done, info := info, stage := .finished }) s hne fun _ => rfl

/-- A descriptor that is past the front end runs under its opcode and a mode that it has. -/
theorem readyFor_of_readyDesc {s : State} {d : Desc} {opc : Nat} (h : s.readyDesc d opc) {mode : Nat → Bool} (hmode : mode d.mode = true) :
    s.readyFor d.id opc mode = some d := by
  obtain ⟨hdesc, hstage, hopc, hask⟩ := h
  unfold State.readyFor
  rw [hdesc]
  dsimp only
  rw [hstage, hopc, hask, hmode]
  exact if_pos (by simp)

/-- A descriptor in another stage is not ready. -/
theorem readyFor_eq_none {s : State} {i : Nat} {d : Desc} (h : s.desc i = some d) (hstage : d.stage ≠ .ready) (opc : Nat) (mode : Nat → Bool) :
    s.readyFor i opc mode = none := by
  unfold State.readyFor
  rw [h]
  dsimp only
  rw [beq_eq_false_iff_ne.mpr hstage]
  rfl

/-! ## What taking contributions in leaves of the updates -/

/-- The update state with its entries blanked. -/
def butEntries (u : Updates) : Updates := { u with merge := [], pillow := [] }

theorem notePillow_up (s : State) (e : Entry) (write : Bool) : (s.notePillow e write).up = s.up :=
  same_of_hide (notePillow_hide (M := butZone .up) rfl rfl ..) .up rfl

theorem mergeEvict_butEntries (s : State) (g : Nat) : butEntries (s.mergeEvict g).up = butEntries s.up := by
  unfold State.mergeEvict
  split
  · rfl
  · rw [count_up, onUp_up, notePillow_up]
    rfl

theorem mergeIn_butEntries (s : State) (e : Entry) : butEntries (s.mergeIn e).up = butEntries s.up := by
  unfold State.mergeIn
  dsimp only
  rw [onUp_up]
  split
  · exact mergeEvict_butEntries ..
  · rfl

theorem acceptOne_butEntries (s : State) (k : Key) (ver : Nat) (epoch : BitVec 32) (v : List F32) :
    butEntries (s.acceptOne k ver epoch v).1.up = butEntries s.up := by
  unfold State.acceptOne
  dsimp only
  split
  · exact mergeIn_butEntries ..
  · exact mergeIn_butEntries ..
  · exact mergeIn_butEntries ..
  · rfl

theorem acceptAll_butEntries (cs : List Contrib) (s : State) (epoch : BitVec 32) (t : Tally) :
    butEntries (s.acceptAll epoch t cs).1.up = butEntries s.up := by
  induction cs generalizing s t with
  | nil => rfl
  | cons c cs ih => exact (ih ..).trans (acceptOne_butEntries ..)

/-! ## Tallies -/

/-- Every contribution that is taken in counts once: as accepted or as dropped. -/
theorem tally_add_total (t : Tally) (w : Taken) : (t.add w).done + (t.add w).drop = t.done + t.drop + 1 := by
  cases w with
  | held => exact Nat.add_right_comm ..
  | folded => exact Nat.add_right_comm ..
  | late => exact Nat.add_right_comm ..
  | dropped => rfl

theorem acceptAll_total (cs : List Contrib) (s : State) (epoch : BitVec 32) (t : Tally) :
    (s.acceptAll epoch t cs).2.done + (s.acceptAll epoch t cs).2.drop = t.done + t.drop + cs.length := by
  induction cs generalizing s t with
  | nil => rfl
  | cons c cs ih =>
    rw [State.acceptAll, ih, tally_add_total, List.length_cons]
    omega

end Sys2Proof.Proofs
end

section
/-!
PROOFS. O27: epochs and parameter sets (R248, R250, R252, R263).
-/

namespace Sys2Proof.Proofs

open Sys2Proof Sys2Proof.Machine Sys2Proof.Laws

/-! ## UPDATE_APPLY -/

/-- An UPDATE_APPLY that is past the front end runs on its table. -/
theorem update_runs {s : State} {d : Desc} {b : Table} {mode : Nat} (hready : s.readyDesc d 0x04) (hmode : d.mode = mode)
    (htbl : s.table d.tbl = some b) (run : State → Desc → Table → State) : s.update d.id mode run = run s d b := by
  unfold State.update
  rw [readyFor_of_readyDesc hready (mode := fun x => x == mode) (beq_iff_eq.mpr hmode)]
  dsimp only
  rw [htbl]

theorem endApply_tb (s : State) (id : Nat) : (s.endApply id).tb = s.tb := same_of_hide (endApply_hide (M := butZone .tb) rfl rfl ..) .tb rfl

theorem startApply_epochs (s : State) (d : Desc) (b : Table) :
    (s.startApply d b).tb.epochs = mset s.tb.epochs d.tbl (s.epochOf d.tbl + 1) := by
  unfold State.startApply
  dsimp only
  rw [endApply_tb, onDesc_tb, onTb_tb, onUp_tb]

/-- The epochs of two states that differ in the epoch of one table. -/
theorem epochOf_of_mset {s t : State} {h : Nat} {a : BitVec 32} (heq : t.tb.epochs = mset s.tb.epochs h a) :
    t.epochOf h = a ∧ ∀ j, j ≠ h → t.epochOf j = s.epochOf j := by
  unfold State.epochOf
  rw [heq]
  exact ⟨mgetD_mset_self .., fun j hj => mgetD_mset_ne _ _ _ _ _ hj.symm⟩

/-! ## FLUSH -/

/-- Nothing is written where no version has a dirty record. -/
theorem flushVers_clean {s : State} {h : Nat} (id : Nat) (b : Table) (fails : List RowFail) {vs : List Version}
    (hclean : ∀ v ∈ vs, s.dirtyRows h v.ver = []) : s.flushVers id h b fails vs = (s, []) := by
  induction vs with
  | nil => rfl
  | cons v vs ih =>
    obtain ⟨hv, hvs⟩ := List.forall_mem_cons.mp hclean
    have hnone : s.flushRows b v h fails [] = (s, []) := rfl
    simp only [State.flushVers, hv, hnone, bne_self_eq_false, Bool.false_and, Bool.false_eq_true, if_false, ih hvs, List.map_nil, List.nil_append]

theorem flushTable_clean {s : State} {d : Desc} {b : Table} (fails : List RowFail) (hclean : ∀ v ∈ b.versions, s.dirtyRows d.tbl v.ver = [])
    (hidle : s.cmdOut (.desc d.id) = false) : s.flushTable d b fails = s.endOk d.id 0 := by
  unfold State.flushTable
  rw [flushVers_clean d.id b fails hclean]
  dsimp only
  exact if_neg (Bool.eq_false_iff.mp hidle)

/-! ## CRH_OPT_SEL -/

/-- What a write of CRH_OPT_SEL that is made does with the word that its fields take. -/
def optApply (p : Path) (off : Nat) (val : Word64) (s : State) (_ new : Word64) : State :=
  let s1 := regPut s p Reg.optSel new
  if off = Reg.optSel && bitb val 8 then s1.onUp fun u => { u with psets := mset u.psets (bitf new 0 8) (s1.stagedSet p) } else s1

theorem optSel_eq (s : State) (p : Path) (off size : Nat) (val : Word64) :
    s.optSel p off size val = s.regWrite p off size val Reg.optSel 1 (optApply p off val) := rfl

/-- CRH_OPT_SEL is none of the registers in which values are staged. -/
theorem stagedSet_put_optSel (s : State) (p : Path) (v : Word64) : (regPut s p Reg.optSel v).stagedSet p = s.stagedSet p := by
  have hown : ∀ off, pkey p Reg.optSel ≠ pkey p off → (regPut s p Reg.optSel v).own p off = s.own p off :=
    fun off hne => mgetD_mset_ne _ _ _ _ _ hne
  unfold State.stagedSet
  dsimp only
  rw [hown Reg.optA (by unfold pkey Reg.optSel Reg.optA; omega), hown Reg.optB (by unfold pkey Reg.optSel Reg.optB; omega),
    hown Reg.optC (by unfold pkey Reg.optSel Reg.optC; omega)]

theorem optApply_commits (p : Path) {val : Word64} (hcommit : bitb val 8 = true) (s : State) (old new : Word64) :
    mget (optApply p Reg.optSel val s old new).up.psets (bitf new 0 8) = some (s.stagedSet p) := by
  unfold optApply
  dsimp only
  rw [hcommit, if_pos (by decide), onUp_up, stagedSet_put_optSel]
  exact mget_mset_self ..

/-- The row of CRH_OPT_SEL in Table 125: PSET is its one RW field. -/
def optSelRow : RegRow := ⟨0xA0018, .sel, 0xFF, 0x0, 0x0⟩

theorem regAt_optSel : regAt Reg.optSel = some optSelRow := rfl

/-- PSET takes the value written. -/
theorem taken_optSel_pset (s : State) (p : Path) (val : Word64) : bitf (s.taken p Reg.optSel Reg.optSel 8 val) 0 8 = bitf val 0 8 := by
  unfold State.taken
  rw [regAt_optSel]
  refine bitf_eq_of_bits fun i hi => ?_
  change (BitVec.ofNat 64 (mergeBits _ val.toNat 0xFF)).getLsbD (0 + i) = _
  have hmask : Nat.testBit 0xFF (0 + i) = true := by
    rw [show (0xFF : Nat) = 2 ^ 8 - 1 from rfl, Nat.testBit_two_pow_sub_one]
    exact decide_eq_true (by omega)
  have hword : Nat.testBit 0xFFFFFFFFFFFFFFFF (0 + i) = true := by
    rw [show (0xFFFFFFFFFFFFFFFF : Nat) = 2 ^ 64 - 1 from rfl, Nat.testBit_two_pow_sub_one]
    exact decide_eq_true (by omega)
  rw [BitVec.getLsbD_ofNat, decide_eq_true (show 0 + i < 64 by omega), Bool.true_and, mergeBits, Nat.testBit_or, Nat.testBit_and,
    Nat.testBit_and, Nat.testBit_xor, hmask, hword, Bool.xor_self, Bool.and_false, Bool.false_or, Bool.and_true]
  rfl

/-- COMMIT does not change PSET. -/
theorem bitf_commit_pset (val : Word64) : bitf (val ||| 0x100) 0 8 = bitf val 0 8 := by
  refine bitf_eq_of_bits fun i hi => ?_
  have hbit : BitVec.getLsbD (0x100 : Word64) (0 + i) = false := by
    rw [show (0x100 : Word64) = BitVec.twoPow 64 8 from rfl, BitVec.getLsbD_twoPow, decide_eq_false (show ¬ 8 = 0 + i by omega), Bool.and_false]
  rw [BitVec.getLsbD_or, hbit, Bool.or_false]

theorem bitb_commit (val : Word64) : bitb (val ||| 0x100) 8 = true := by
  unfold bitb
  rw [BitVec.getLsbD_or]
  exact Bool.or_true _

theorem optSel_commits {s : State} {p : Path} (hwr : s.writable p Reg.optSel 1 = true) (val : Word64) :
    mget (s.optSel p Reg.optSel 8 (val ||| 0x100)).up.psets (bitf val 0 8) = some (s.stagedSet p) := by
  obtain ⟨s1, heq, hs1⟩ := regWrite_applies (reg := Reg.optSel) (off := Reg.optSel) (size := 8) ⟨rfl, rfl, hwr⟩ regAt_optSel (val ||| 0x100)
     (optApply p Reg.optSel (val ||| 0x100))
  have hstaged : s1.stagedSet p = s.stagedSet p := by
    unfold State.stagedSet State.own
    rw [show s1.pregs = s.pregs from same_of_hide hs1 .pregs rfl, show s1.fuses = s.fuses from same_of_hide hs1 .fuses rfl]
  have hput := optApply_commits p (bitb_commit val) s1 (regGet s p Reg.optSel) (s.taken p Reg.optSel Reg.optSel 8 (val ||| 0x100))
  rw [taken_optSel_pset, bitf_commit_pset, hstaged] at hput
  rw [optSel_eq, heq]
  exact hput

/-- Settles O27: an UPDATE_APPLY that is past the front end runs on its table; APPLY and SET_EPOCH set the epoch of that table alone, FLUSH has
nothing to write, and CRH_OPT_SEL holds none of the staged values. -/
theorem epochsAndParameterSets : Obligations.EpochsAndParameterSets := by
  unfold Obligations.EpochsAndParameterSets
  refine ⟨?_, ?_, ?_, ?_, ?_⟩
  · intro d b s hready hmode htbl hahead hepoch
    refine ⟨s.startApply d b, congrArg Host.Outcome.next ?_, epochOf_of_mset (startApply_epochs s d b)⟩
    rw [update_runs hready hmode htbl, hahead, if_neg Bool.false_ne_true, if_neg (not_not_intro hepoch)]
  · intro d b s hready hmode htbl hahead hepoch
    refine ⟨s.endDesc d.id St.badFormat 5 0 0, congrArg Host.Outcome.next ?_, endDesc_ended (readyDesc_mem hready) .., rfl⟩
    rw [update_runs hready hmode htbl, hahead, if_neg Bool.false_ne_true, if_pos hepoch]
  · intro d b s hready hmode htbl hempty
    refine ⟨(s.onTb fun x => { x with epochs := mset x.epochs d.tbl d.epoch }).endOk d.id 0, congrArg Host.Outcome.next ?_,
      endDesc_ended (s := s.onTb _) (readyDesc_mem hready) .., (epochOf_of_mset rfl).1, rfl⟩
    rw [update_runs hready hmode htbl, hempty]
    rfl
  · intro d b fails s hready hmode htbl hclean hidle
    refine ⟨s.endOk d.id 0, congrArg Host.Outcome.next ?_, endDesc_ended (readyDesc_mem hready) .., rfl, rfl⟩
    rw [update_runs hready hmode htbl, flushTable_clean fails hclean hidle]
  · exact fun p val s hwr => ⟨s.optSel p Reg.optSel 8 (val ||| 0x100), rfl, optSel_commits hwr val⟩

end Sys2Proof.Proofs
end

section
/-!
PROOFS. O29: dirty records are written back (R256, R257, R454). A write-back sends the record, or its block, and then makes the records written
clean, which takes twins away and brings none; one that fails changes of the updates the list of failed write-backs alone.
-/

namespace Sys2Proof.Proofs

open Sys2Proof Sys2Proof.Machine Sys2Proof.Laws

/-! ## A record that is clean -/

/-- No twin of a record is held. -/
def NoTwin (k : Key) (ver : Nat) (s : State) : Prop := ∀ x ∈ s.up.twins, ¬(x.key = k ∧ x.ver = ver)

theorem NoTwin.of_subset {k : Key} {ver : Nat} {s t : State} (h : NoTwin k ver s) (hsub : t.up.twins ⊆ s.up.twins) : NoTwin k ver t :=
  fun x hx => h x (hsub hx)

theorem setDirty_up (s : State) (k : Key) (ver : Nat) (on : Bool) : (s.setDirty k ver on).up = s.up :=
  same_of_hide (setDirty_hide (M := butZone .up) rfl rfl rfl ..) .up rfl

theorem clean_twins (s : State) (k : Key) (ver : Nat) :
    (s.clean k ver).up.twins = s.up.twins.filter fun x => !(x.key == k && x.ver == ver) := by
  unfold State.clean
  dsimp only
  rw [onUp_up]
  split
  · rfl
  · rw [setDirty_up]

theorem dropWays_up (s : State) (l : List Way) : (s.dropWays l).up = s.up :=
  same_of_hide (dropWays_hide (M := butZone .up) rfl rfl rfl ..) .up rfl

theorem leaveGhost_up (s : State) (w : Way) : (s.leaveGhost w).up = s.up :=
  same_of_hide (leaveGhost_hide (M := butZone .up) rfl ..) .up rfl

theorem dropRow_twins_subset (s : State) (k : Key) (ver : Nat) (ghost : Bool) : (s.dropRow k ver ghost).up.twins ⊆ s.up.twins := by
  unfold State.dropRow
  split
  · exact List.Subset.refl _
  next w _ =>
    have hdropped : (((s.dropWays (s.copiesOf k ver)).dropRedir k ver).countN Ctr.replDropped (s.replicasOf k ver).length).up = s.up :=
      dropWays_up ..
    dsimp only
    split
    · rw [leaveGhost_up, onUp_up]
      exact fun x hx => hdropped ▸ (List.mem_filter.mp hx).1
    · exact fun x hx => hdropped ▸ (List.mem_filter.mp hx).1

theorem dropDirect_twins_subset (s : State) (b : Table) (k : Key) (ver : Nat) : (s.dropDirect b k ver).up.twins ⊆ s.up.twins := by
  unfold State.dropDirect
  split
  · exact dropRow_twins_subset ..
  · exact List.Subset.refl _

/-- A record that has been written is clean, and goes where its band is DIRECT. -/
def writtenBack (b : Table) (ver : Nat) (s : State) (k : Key) : State := ((s.count Ctr.writebacks).clean k ver).dropDirect b k ver

theorem writtenBack_twins_subset (b : Table) (ver : Nat) (s : State) (k : Key) : (writtenBack b ver s k).up.twins ⊆ s.up.twins := by
  refine List.Subset.trans (dropDirect_twins_subset ..) ?_
  rw [clean_twins]
  exact fun x hx => (List.mem_filter.mp hx).1

theorem writtenBack_noTwin (b : Table) (ver : Nat) (s : State) (k : Key) : NoTwin k ver (writtenBack b ver s k) := by
  refine NoTwin.of_subset (s := (s.count Ctr.writebacks).clean k ver) (fun x hx => ?_) (dropDirect_twins_subset ..)
  rw [clean_twins] at hx
  rintro ⟨hk, hv⟩
  have hkept := (List.mem_filter.mp hx).2
  rw [hk, hv, beq_self_eq_true, beq_self_eq_true] at hkept
  cases hkept

theorem writtenBack_out (b : Table) (ver : Nat) (s : State) (k : Key) : (writtenBack b ver s k).out = s.out := by
  have hdrop : ∀ u : State, (u.dropDirect b k ver).out = u.out := fun u =>
    same_of_hide (dropDirect_hide (M := butZone .out) rfl rfl rfl rfl rfl ..) .out rfl
  have hclean : ∀ u : State, (u.clean k ver).out = u.out := fun u =>
    same_of_hide (clean_hide (M := butZone .out) rfl rfl rfl rfl rfl ..) .out rfl
  rw [writtenBack, hdrop, hclean, count_out]

/-- The records of some rows of a table, written back. -/
def rowsWrittenBack (b : Table) (ver h : Nat) (rows : List Nat) (s : State) : State :=
  State.forEach (fun s r => writtenBack b ver s (keyOf h r)) rows s

theorem rowsWrittenBack_out (b : Table) (ver h : Nat) (rows : List Nat) (s : State) : (rowsWrittenBack b ver h rows s).out = s.out :=
  forEach_keeps (P := fun u => u.out = s.out) rows (fun _ _ _ hu => (writtenBack_out ..).trans hu) s rfl

theorem rowsWrittenBack_noTwin (b : Table) (ver h : Nat) {rows : List Nat} {r : Nat} (hr : r ∈ rows) (s : State) :
    NoTwin (keyOf h r) ver (rowsWrittenBack b ver h rows s) := by
  induction rows generalizing s with
  | nil => cases hr
  | cons a rows ih =>
    rcases List.mem_cons.mp hr with rfl | hr
    · exact forEach_keeps (P := NoTwin (keyOf h r) ver) rows (fun _ _ _ hu => hu.of_subset (writtenBack_twins_subset ..))
        (writtenBack b ver s (keyOf h r)) (writtenBack_noTwin b ver s (keyOf h r))
    · exact ih hr _

/-! ## NVMe Writes -/

/-- A Write that is submitted sends its data. -/
theorem submit_write_sends (s : State) {c : NvCmd} (h : c.kind = 1) : Output.blockWrite c.drive c.tag c.ns c.lba c.data ∈ (s.submit c).out := by
  unfold State.submit
  dsimp only
  rw [if_pos h, send_out]
  exact List.mem_cons_self

/-- A whole Write sends its data under some tag, once at least, however it ends. -/
theorem wholeCmd_write_sends (s : State) {c : NvCmd} (h : c.kind = 1) (res : Tried) :
    ∃ w, Output.blockWrite c.drive w c.ns c.lba c.data ∈ (s.wholeCmd c res).out := by
  let sent : NvCmd := { c with tag := s.fl.nextTag, own := .step, rows := [], issued := true }
  have hsubmits : ∀ (n : Nat) (u : State),
      Output.blockWrite c.drive s.fl.nextTag c.ns c.lba c.data ∈ (State.forEach (fun v _ => v.submit sent) (List.range (n + 1)) u).out := by
    intro n u
    rw [List.range_succ_eq_map]
    refine forEach_keeps (P := fun v => Output.blockWrite c.drive s.fl.nextTag c.ns c.lba c.data ∈ v.out) ((List.range n).map Nat.succ)
      (fun v _ _ hv => ?_) (u.submit sent) (submit_write_sends u (c := sent) h)
    exact ((grew_iff v _).mp (submit_grew v sent ((grew_iff v v).mpr (List.suffix_refl _)))).subset hv
  refine ⟨s.fl.nextTag, ?_⟩
  unfold State.wholeCmd
  dsimp only
  split
  · exact hsubmits ..
  split
  · exact List.mem_cons_of_mem _ (hsubmits ..)
  · exact hsubmits ..

/-- The Write of a row's block carries the block's data (R256). -/
theorem writeBlock_sends (s : State) (b : Table) (v : Version) (k : Key) (res : Tried) :
    ∃ w, Output.blockWrite (s.driveOf v.nsid) w v.nsid (b.rowBlock v.base (keyRow k)).1 (s.blockData b v k fun _ => none) ∈
      (s.writeBlock b v k res).out := by
  unfold State.writeBlock
  exact wholeCmd_write_sends _ rfl res

/-! ## One write-back -/

theorem noteMaster_out (s : State) (b : Table) (k : Key) (ver : Nat) : (s.noteMaster b k ver).out = s.out :=
  same_of_hide (noteMaster_hide (M := butZone .out) rfl rfl rfl ..) .out rfl

/-- The record or block is sent, and the records written are clean. -/
theorem writeBackRow_ok {s : State} {b : Table} {v : Version} {k : Key} {res : Tried} (hmay : s.mayWrite k v.ver = true)
    (hback : s.backStatus b v = St.ok) (hres : res.status = St.ok) :
    (s.writeBackRow b v k res).1 = rowsWrittenBack b v.ver (keyTbl k) ((blockRows b (keyRow k)).filter fun r => s.mayWrite (keyOf (keyTbl k) r) v.ver)
      (if b.backTier = 2 then s.writeBlock b v k res else
        (s.noteMaster b k v.ver).send (.rowWrite k v.ver (b.rowAddr v (keyRow k)) ((s.masterBytes b k v.ver).getD []) (s.rowRoute b))) := by
  unfold State.writeBackRow
  rw [hmay, Bool.not_true, if_neg Bool.false_ne_true]
  dsimp only
  rw [if_neg (not_not_intro hback), if_neg (not_not_intro hres)]
  rfl

/-- A row is among those of its block. -/
theorem mem_blockRows (b : Table) (row : Nat) : row ∈ blockRows b row := by
  unfold blockRows
  split
  · next h =>
    have hrpb : 0 < b.rpb := Nat.lt_of_succ_lt (of_decide_eq_true (Bool.and_eq_true_iff.mp h).2)
    exact List.mem_map.mpr ⟨row % b.rpb, List.mem_range.mpr (Nat.mod_lt _ hrpb), by rw [Nat.mul_comm]; exact Nat.div_add_mod row b.rpb⟩
  · exact List.mem_singleton.mpr rfl

theorem writeBackRow_noTwin {s : State} {b : Table} {v : Version} {k : Key} {res : Tried} (hkey : keyOf (keyTbl k) (keyRow k) = k)
    (hmay : s.mayWrite k v.ver = true) (hback : s.backStatus b v = St.ok) (hres : res.status = St.ok) :
    NoTwin k v.ver (s.writeBackRow b v k res).1 := by
  rw [writeBackRow_ok hmay hback hres]
  have hmem : keyRow k ∈ (blockRows b (keyRow k)).filter fun r => s.mayWrite (keyOf (keyTbl k) r) v.ver :=
    List.mem_filter.mpr ⟨mem_blockRows .., by rw [hkey]; exact hmay⟩
  have hclean := rowsWrittenBack_noTwin b v.ver (keyTbl k) hmem
  rw [hkey] at hclean
  exact hclean _

theorem failWrite_out (s : State) (b : Table) (v : Version) (k : Key) (st : BitVec 8) (tried : Bool) : (s.failWrite b v k st tried).out = s.out :=
  same_of_hide (failWrite_hide (M := butZone .out) rfl rfl ..) .out rfl

theorem failWrite_tb (s : State) (b : Table) (v : Version) (k : Key) (st : BitVec 8) (tried : Bool) : (s.failWrite b v k st tried).tb = s.tb :=
  same_of_hide (failWrite_hide (M := butZone .tb) rfl rfl ..) .tb rfl

/-- A write-back that fails is noted among the failed ones, which is all that it changes of the updates (R454). -/
theorem failWrite_up (s : State) (b : Table) (v : Version) (k : Key) (st : BitVec 8) (tried : Bool) :
    (s.failWrite b v k st tried).up =
      { s.up with wbFailed := (k, v.ver) :: s.up.wbFailed.filter fun x => !(x.1 == k && x.2 == v.ver) } := by
  unfold State.failWrite
  dsimp only
  split
  · rfl
  split
  · rfl
  · split <;> rfl

/-- What a failed write-back leaves: nothing is cleaned, and nothing is sent but on tier 2. -/
theorem writeBackRow_fails {s : State} {b : Table} {v : Version} {k : Key} {res : Tried} (hmay : s.mayWrite k v.ver = true)
    (hres : res.status ≠ St.ok) :
    (b.backTier ≠ 2 → (s.writeBackRow b v k res).1.out = s.out) ∧ (s.writeBackRow b v k res).1.up.twins = s.up.twins ∧
      (s.writeBackRow b v k res).1.tb = s.tb ∧ (k, v.ver) ∈ (s.writeBackRow b v k res).1.up.wbFailed := by
  have hfails : ∀ (u : State) (st : BitVec 8) (tried : Bool), (b.backTier ≠ 2 → u.out = s.out) → u.up = s.up → u.tb = s.tb →
      (b.backTier ≠ 2 → (u.failWrite b v k st tried).out = s.out) ∧ (u.failWrite b v k st tried).up.twins = s.up.twins ∧
        (u.failWrite b v k st tried).tb = s.tb ∧ (k, v.ver) ∈ (u.failWrite b v k st tried).up.wbFailed := by
    intro u st tried hout hup htb
    rw [failWrite_out, failWrite_up, failWrite_tb]
    have htwins : u.up.twins = s.up.twins := congrArg Updates.twins hup
    exact ⟨hout, htwins, htb, List.mem_cons_self⟩
  unfold State.writeBackRow
  rw [hmay, Bool.not_true, if_neg Bool.false_ne_true]
  dsimp only
  split
  · exact hfails s _ _ (fun _ => rfl) rfl rfl
  · split
    · next htier =>
      refine hfails _ _ _ (fun h => absurd htier h) ?_ ?_
      · exact same_of_hide (writeBlock_hide (M := butZone .up) rfl rfl rfl rfl rfl ..) .up rfl
      · exact same_of_hide (writeBlock_hide (M := butZone .tb) rfl rfl rfl rfl rfl ..) .tb rfl
    · exact hfails s _ _ (fun _ => rfl) rfl rfl

/-! ## The commands -/

theorem version_ver {s : State} {h ver : Nat} {b : Table} {v : Version} (hver : s.version h ver = some (b, v)) : v.ver = ver := by
  unfold State.version at hver
  obtain ⟨b', -, hmap⟩ := Option.bind_eq_some_iff.mp hver
  obtain ⟨v', hfind, hpair⟩ := Option.map_eq_some_iff.mp hmap
  obtain ⟨-, rfl⟩ := Prod.mk.inj hpair
  have hkept := List.find?_some hfind
  exact beq_iff_eq.mp hkept

/-- WB_AGE_EXPIRY and, where one is due, WRITE_BACK write the record back. -/
theorem exec_writesBack {s : State} {tbl ver row : Nat} {res : Tried} {c : Instr} {b : Table} {v : Version}
    (hc : c = .wbAgeExpiry tbl ver row res ∨ (c = .writeBack tbl ver row res ∧ s.wbDue (keyOf tbl row) ver = true))
    (hver : s.version tbl ver = some (b, v)) : exec c s = .next (s.writeBackRow b v (keyOf tbl row) res).1 := by
  have hone : s.writeBackOne tbl ver row res = (s.writeBackRow b v (keyOf tbl row) res).1 := by
    unfold State.writeBackOne
    rw [hver]
  rcases hc with rfl | ⟨rfl, hdue⟩
  · exact congrArg Host.Outcome.next hone
  · exact congrArg Host.Outcome.next ((if_pos hdue).trans hone)

/-- Settles O29: each of the two commands writes the record back, which sends it and makes it clean, or fails and keeps it as it was. -/
theorem dirtyRecordsAreWrittenBack : Obligations.DirtyRecordsAreWrittenBack := by
  unfold Obligations.DirtyRecordsAreWrittenBack
  refine ⟨?_, ?_, ?_⟩
  · intro tbl ver row res b v c s hres hc hver htbl hrow hmay htier hup
    obtain rfl := version_ver hver
    have hback : s.backStatus b v = St.ok := by
      unfold State.backStatus
      rw [if_pos htier, if_pos (Bool.or_eq_true_iff.mpr hup)]
    have hkey : keyOf (keyTbl (keyOf tbl row)) (keyRow (keyOf tbl row)) = keyOf tbl row := by rw [htbl, hrow]
    refine ⟨_, exec_writesBack hc hver, ?_, writeBackRow_noTwin hkey hmay hback hres⟩
    rw [writeBackRow_ok hmay hback hres, rowsWrittenBack_out, if_neg (by rw [htier]; decide), send_out, noteMaster_out, hrow]
  · intro tbl ver row res b v c s hres hc hver htbl hrow hmay htier hready
    obtain rfl := version_ver hver
    have hback : s.backStatus b v = St.ok := by
      unfold State.backStatus
      rw [if_neg (by rw [htier]; decide), if_pos htier, if_pos hready]
    have hkey : keyOf (keyTbl (keyOf tbl row)) (keyRow (keyOf tbl row)) = keyOf tbl row := by rw [htbl, hrow]
    obtain ⟨w, hsent⟩ := writeBlock_sends s b v (keyOf tbl row) res
    rw [hrow] at hsent
    refine ⟨_, w, exec_writesBack hc hver, ?_, writeBackRow_noTwin hkey hmay hback hres⟩
    rw [writeBackRow_ok hmay hback hres, rowsWrittenBack_out, if_pos htier]
    exact hsent
  · intro tbl ver row res b v c s hres hc hver hmay
    obtain rfl := version_ver hver
    exact ⟨_, exec_writesBack hc hver, writeBackRow_fails hmay hres⟩

end Sys2Proof.Proofs
end

section
/-!
PROOFS. The remote intake (R241, R245, R345): of the updates, the batches that leave it change the entries, the messages and batches that are
arriving, and nothing else; it takes in no message and no batch of its own.
-/

namespace Sys2Proof.Proofs

open Sys2Proof Sys2Proof.Machine Sys2Proof.Laws

theorem takeAll_butEntries (ns : List (Key × BitVec 32 × Nat)) (s : State) (b : InBatch) (t : Tally) (r : Nat) :
    butEntries (s.takeAll b ns t r).1.up = butEntries s.up := by
  induction ns generalizing s t r with
  | nil => rfl
  | cons n ns ih =>
    rw [State.takeAll]
    split
    · exact ih ..
    · exact (ih ..).trans (acceptOne_butEntries (s.remoteVal b n).1 ..)

theorem payCredits_up (s : State) : s.payCredits.up = s.up := same_of_hide (payCredits_hide (M := butZone .up) rfl rfl ..) .up rfl

theorem fabSettle_up (s : State) : s.fabSettle.up = s.up := same_of_hide (fabSettle_hide (M := butZone .up) rfl rfl ..) .up rfl

theorem rspSend_up (s : State) (p : Nat) (o : Output) : (s.rspSend p o).up = s.up :=
  same_of_hide (rspSend_hide (M := butZone .up) rfl rfl ..) .up rfl

/-- A batch that is accepted leaves those that are arriving. -/
theorem acceptBatch_butEntries (s : State) (b : InBatch) :
    butEntries (s.acceptBatch b).up = butEntries { s.up with inb := s.up.inb.filter fun x => !(x.is b.sender b.batch) } := by
  unfold State.acceptBatch
  dsimp only
  rw [fabSettle_up, payCredits_up, rspSend_up, countN_up, takeAll_butEntries, countN_up, onUp_up]

/-! ## What leaves the intake -/

/-- From s to t messages have left the remote intake. -/
structure Drains (s t : State) : Prop where
  rest : butEntries t.up = butEntries { s.up with inb := t.up.inb, inq := t.up.inq }
  inq  : t.up.inq ⊆ s.up.inq
  inb  : ∀ x ∈ t.up.inb, ∃ y ∈ s.up.inb, x.sender = y.sender ∧ x.batch = y.batch

theorem Drains.refl (s : State) : Drains s s := ⟨rfl, List.Subset.refl _, fun x hx => ⟨x, hx, rfl, rfl⟩⟩

theorem Drains.trans {s t u : State} (h : Drains s t) (h' : Drains t u) : Drains s u := by
  refine ⟨?_, fun q hq => h.inq (h'.inq hq), fun x hx => ?_⟩
  · have hrest := congrArg (fun v : Updates => { v with inb := u.up.inb, inq := u.up.inq }) h.rest
    exact h'.rest.trans hrest
  · obtain ⟨y, hy, hxy⟩ := h'.inb x hx
    obtain ⟨z, hz, hyz⟩ := h.inb y hy
    exact ⟨z, hz, hxy.1.trans hyz.1, hxy.2.trans hyz.2⟩

theorem Drains.intake {s t : State} (h : Drains s t) : t.up.intake = s.up.intake := by
  have hintake := congrArg Updates.intake h.rest
  exact hintake

theorem Drains.resv {s t : State} (h : Drains s t) : t.up.resv = s.up.resv := by
  have hresv := congrArg Updates.resv h.rest
  exact hresv

/-- Messages and batches that are some of those that there were, the rest of the updates being the same. -/
theorem Drains.of_up {s t : State} {q : List (BitVec 16 × BitVec 32)} {l : List InBatch}
    (h : butEntries t.up = butEntries { s.up with inb := l, inq := q }) (hq : q ⊆ s.up.inq)
    (hl : ∀ x ∈ l, ∃ y ∈ s.up.inb, x.sender = y.sender ∧ x.batch = y.batch) : Drains s t := by
  have hinb : t.up.inb = l := congrArg Updates.inb h
  have hinq : t.up.inq = q := congrArg Updates.inq h
  exact ⟨by rw [hinb, hinq]; exact h, by rw [hinq]; exact hq, by rw [hinb]; exact hl⟩

theorem takeHead_drains (s : State) : Drains s s.takeHead := by
  unfold State.takeHead
  split
  · exact .refl s
  next q t hq =>
    have htail : t ⊆ s.up.inq := hq ▸ List.subset_cons_self q t
    split
    · exact .of_up (l := s.up.inb) rfl htail fun x hx => ⟨x, hx, rfl, rfl⟩
    next b hb =>
      have hmap : ∀ (taken n : Nat), ∀ x ∈ (s.up.inb.map fun x => if x.is q.1 q.2 then { b with taken := taken, resv := n } else x),
          ∃ y ∈ s.up.inb, x.sender = y.sender ∧ x.batch = y.batch := by
        intro taken n x hx
        obtain ⟨y, hy, rfl⟩ := List.mem_map.mp hx
        split
        · exact ⟨b, List.mem_of_find?_eq_some hb, rfl, rfl⟩
        · exact ⟨y, hy, rfl, rfl⟩
      dsimp only
      split
      · split
        · exact .of_up (acceptBatch_butEntries ..) htail fun x hx => hmap _ _ x (List.mem_filter.mp hx).1
        · exact .of_up (congrArg butEntries (payCredits_up _)) htail (hmap _ _)
      · exact .refl s

theorem drainIntake_drains (s : State) : Drains s s.drainIntake :=
  forEach_keeps (P := Drains s) _ (fun u _ _ hu => hu.trans (takeHead_drains u)) s (.refl s)

theorem drainIntake_fe (s : State) : s.drainIntake.fe = s.fe :=
  same_of_hide (drainIntake_hide (M := butZone .fe) rfl rfl rfl rfl rfl rfl ..) .fe rfl

end Sys2Proof.Proofs
end

section
/-!
PROOFS. O25: pillow space (R243, R245). A scatter that has left the intake queue with its reservation keeps it: what goes on in the same command
are the reservations of those behind it, and the remote intake, which touches no scatter.
-/

namespace Sys2Proof.Proofs

open Sys2Proof Sys2Proof.Machine Sys2Proof.Laws

/-! ## Reservations -/

/-- From s to t scatter i stays as it was, with its reservation, and none joins the intake queue. -/
structure KeepsScatter (i : Nat) (s t : State) : Prop where
  desc   : t.desc i = s.desc i
  resv   : mget t.up.resv i = mget s.up.resv i
  intake : t.up.intake ⊆ s.up.intake

theorem KeepsScatter.refl (i : Nat) (s : State) : KeepsScatter i s s := ⟨rfl, rfl, List.Subset.refl _⟩

theorem KeepsScatter.trans {i : Nat} {s t u : State} (h : KeepsScatter i s t) (h' : KeepsScatter i t u) : KeepsScatter i s u :=
  ⟨h'.desc.trans h.desc, h'.resv.trans h.resv, fun _ hx => h.intake (h'.intake hx)⟩

/-- The head of the queue is another scatter. -/
theorem reserveHead_keeps {i : Nat} {s : State} (hi : i ∉ s.up.intake) : KeepsScatter i s s.reserveHead.1 := by
  generalize hr : s.reserveHead = r
  unfold State.reserveHead at hr
  split at hr
  · exact hr ▸ .refl i s
  next id t hq =>
    have htail : t ⊆ s.up.intake := hq ▸ List.subset_cons_self id t
    have hne : i ≠ id := fun heq => hi (by rw [hq, heq]; exact List.mem_cons_self)
    split at hr
    · exact hr ▸ ⟨rfl, rfl, htail⟩
    dsimp only at hr
    split at hr
    · exact hr ▸ ⟨desc_endDesc_ne (s.onUp _) hne .., rfl, htail⟩
    split at hr
    · exact hr ▸ ⟨desc_onDesc_ne (s.onUp _) hne fun _ => rfl, mget_mset_ne _ _ _ _ hne.symm, htail⟩
    · exact hr ▸ .refl i s

theorem reserveScatters_keeps {i : Nat} (f : Nat) {s : State} (hi : i ∉ s.up.intake) : KeepsScatter i s (s.reserveScatters f) := by
  induction f generalizing s with
  | zero => exact .refl i s
  | succ f ih =>
    have hhead := reserveHead_keeps hi
    rw [State.reserveScatters]
    split
    · exact hhead.trans (ih fun hmem => hi (hhead.intake hmem))
    · exact hhead

theorem drainIntake_keeps (i : Nat) (s : State) : KeepsScatter i s s.drainIntake :=
  have hdrains := drainIntake_drains s
  ⟨desc_of_fe (drainIntake_fe s) i, congrArg (mget · i) hdrains.resv, fun _ hx => hdrains.intake ▸ hx⟩

/-- A scatter has left the queue behind which l waits, with n bytes reserved. -/
def leftIntake (s : State) (id : Nat) (l : List Nat) (n : Nat) : State :=
  (s.onUp fun u => { u with intake := l, resv := mset u.resv id n }).onDesc id fun x => { x with stage := .scatter, need := n }

theorem reserveHead_reserves {s : State} {d : Desc} {l : List Nat} (hq : s.up.intake = d.id :: l) (hdesc : s.desc d.id = some d)
    (hshare : granules (s.scatterNeed d) * 4096 ≤ s.pillowShare) (hroom : s.pillowRoom (granules (s.scatterNeed d) * 4096) = true) :
    s.reserveHead = (leftIntake s d.id l (granules (s.scatterNeed d) * 4096), true) := by
  unfold State.reserveHead
  rw [hq]
  dsimp only
  rw [hdesc]
  dsimp only
  rw [if_neg (Nat.not_lt.mpr hshare), if_pos hroom]
  rfl

theorem pillowReserve_reserves {s : State} {d : Desc} {l : List Nat} (hq : s.up.intake = d.id :: l) (hother : d.id ∉ l)
    (hdesc : s.desc d.id = some d) (hshare : granules (s.scatterNeed d) * 4096 ≤ s.pillowShare)
    (hroom : s.pillowRoom (granules (s.scatterNeed d) * 4096) = true) :
    KeepsScatter d.id (leftIntake s d.id l (granules (s.scatterNeed d) * 4096)) s.pillowReserve := by
  unfold State.pillowReserve
  rw [hq, List.length_cons, State.reserveScatters, reserveHead_reserves hq hdesc hshare hroom]
  exact (reserveScatters_keeps l.length hother).trans (drainIntake_keeps ..)

/-! ## A scatter that waits -/

theorem pillowFull_tells {s : State} {d : Desc} (hdesc : s.desc d.id = some d) (hstage : d.stage = .reserve)
    (hqueued : s.up.intake.contains d.id = true) (htold : d.told = false) :
    s.pillowFull d.id = (s.onDesc d.id fun x => { x with told := true }).tell
      [ringEvent 0x901 d.ring [(8, 4, d.ring), (12, 4, d.seq.toNat), (16, 8, d.need)]] := by
  unfold State.pillowFull
  rw [hdesc]
  dsimp only
  rw [hstage, hqueued, htold]
  rfl

/-! ## Merge entries -/

/-- An entry whose row and epoch are not among others joins them as it is. -/
theorem putEntry_new {e : Entry} {l : List Entry} (h : l.any (Entry.same e) = false) (ties : Bool) : putEntry ties e l = l ++ [e] := by
  unfold putEntry
  rw [h]
  rfl

theorem mergeEvict_moves {s : State} {g : Nat} {e : Entry} (hfind : s.up.merge.find? (fun x => s.entryGroup x == g) = some e)
    (hnew : s.up.pillow.any (Entry.same e) = false) :
    (s.mergeEvict g).up = { s.up with merge := delFirst (Entry.same e) s.up.merge, pillow := s.up.pillow ++ [e] } := by
  unfold State.mergeEvict
  rw [hfind]
  dsimp only
  rw [count_up, onUp_up, notePillow_up, putEntry_new hnew]

/-- Settles O25: the scatter leaves the queue with its reservation and keeps it; the wait is told of once, and the oldest entry moves. -/
theorem pillowSpaceIsReserved : Obligations.PillowSpaceIsReserved := by
  unfold Obligations.PillowSpaceIsReserved
  refine ⟨?_, ?_, ?_⟩
  · intro d l s hq hother hdesc hshare hroom hclosed
    obtain ⟨hkept, hresv, hintake⟩ := pillowReserve_reserves hq hother hdesc hshare hroom
    have hleft := hkept.trans (desc_onDesc_self (s := s.onUp _) hdesc fun _ => rfl)
    exact ⟨s.pillowReserve, _, congrArg Host.Outcome.next (rest_closed hclosed _), hleft, rfl, hresv.trans (mget_mset_self ..),
      fun hmem => hother (hintake hmem)⟩
  · intro d s hdesc hstage hqueued htold
    refine ⟨s.pillowFull d.id, { d with told := true }, rfl, ?_, rfl, ?_⟩
    · rw [pillowFull_tells hdesc hstage hqueued htold, desc_of_fe (tell_fe ..)]
      exact desc_onDesc_self hdesc fun _ => rfl
    · rw [pillowFull_tells hdesc hstage hqueued htold]
      exact raised_of_event rfl _ rfl
  · intro g e s hfind hnew
    have hup := mergeEvict_moves hfind hnew
    exact ⟨s.mergeEvict g, rfl, by rw [hup], by rw [hup]⟩

end Sys2Proof.Proofs
end

section
/-!
PROOFS. O24: SCATTER_GRAD (R235, R236, R239, R244). The gradient has been read once its translations are released, in which the descriptors stay
those that they were and no batch is sent; each contribution is then taken in once, as accepted or as dropped.
-/

namespace Sys2Proof.Proofs

open Sys2Proof Sys2Proof.Machine Sys2Proof.Laws

/-! ## What the reading of a gradient keeps -/

/-- From s to t the descriptors and the scatters that have batches outstanding are the same, by their identifiers. -/
structure SameScatters (s t : State) : Prop where
  descs : descIds t = descIds s
  outb  : t.up.outb.map (·.id) = s.up.outb.map (·.id)

theorem SameScatters.refl (s : State) : SameScatters s s := ⟨rfl, rfl⟩

theorem SameScatters.trans {s t u : State} (h : SameScatters s t) (h' : SameScatters t u) : SameScatters s u :=
  ⟨h'.descs.trans h.descs, h'.outb.trans h.outb⟩

theorem SameScatters.forEach {α : Type} {f : State → α → State} (h : ∀ s a, SameScatters s (f s a)) (l : List α) (s : State) :
    SameScatters s (State.forEach f l s) :=
  forEach_keeps (P := SameScatters s) l (fun u a _ hu => hu.trans (h u a)) s (.refl s)

theorem abandon_outb (s : State) (id : Nat) : (s.abandon id).up.outb = s.up.outb := rfl

theorem PrickStep.outb {id : Nat} {s t : State} (h : PrickStep id s t) : t.up.outb = s.up.outb := by
  cases h with
  | count n h => rfl
  | send os => rfl
  | desc f h => rfl
  | front f h => rfl
  | xl f h => rfl
  | leave => exact abandon_outb s id

theorem prick_sameScatters (s : State) (id : Nat) : SameScatters s (s.prick id) :=
  have hpricks := pricks_prick s id
  ⟨hpricks.ids, congrArg _ (hpricks.keeps (P := fun u => u.up.outb = s.up.outb) (fun hstep hu => hstep.outb.trans hu) rfl)⟩

theorem passBytes_sameScatters (s : State) (id : Nat) (upTo : Desc → Range → Option Nat) : SameScatters s (s.passBytes id upTo) := by
  unfold State.passBytes
  split
  · exact .refl s
  · dsimp only
    refine .trans ?_ ((prick_sameScatters _ _).trans (.forEach prick_sameScatters _ _))
    exact ⟨descIds_onDesc _ _ fun _ _ => rfl, rfl⟩

theorem noteLeave_sameScatters (s : State) (p : Nat) (o : Output) : SameScatters s (s.noteLeave p o) := by
  unfold State.noteLeave
  split
  · exact ⟨rfl, rfl⟩
  · next m _ =>
    refine ⟨rfl, (List.map_map ..).trans (List.map_congr_left fun b _ => ?_)⟩
    change (if b.batch = m.batch then { b with ports := p :: b.ports } else b).id = b.id
    split <;> rfl
  · exact ⟨rfl, rfl⟩
  · exact .refl s

theorem fabLeave_sameScatters (s : State) (p : Nat) (o : Output) : SameScatters s (s.fabLeave p o) := by
  unfold State.fabLeave
  exact .trans (t := s.onPw _) ⟨rfl, rfl⟩ ((noteLeave_sameScatters (s.onPw _) p o).trans ⟨rfl, rfl⟩)

theorem fabSend_sameScatters (s : State) (o : Output) : SameScatters s (s.fabSend o) := by
  unfold State.fabSend
  split
  · exact fabLeave_sameScatters ..
  · exact ⟨rfl, rfl⟩

theorem inputsDone_sameScatters (s : State) (id : Nat) : SameScatters s (s.inputsDone id) :=
  .trans (.forEach fabSend_sameScatters _ s) (passBytes_sameScatters _ _ _)

theorem inputsDone_tb (s : State) (id : Nat) : (s.inputsDone id).tb = s.tb :=
  same_of_hide (inputsDone_hide (M := butZone .tb) rfl rfl rfl rfl rfl rfl rfl rfl ..) .tb rfl

/-! ## The end of a scatter (R246) -/

/-- The status with which a scatter ends. -/
def scatterStatus (d : Desc) : BitVec 8 :=
  if d.lost ≠ 0 then St.unrecoverable else if d.detail ≠ 0 then St.straggler else if d.rejects ≠ 0 then St.badTable else St.ok

theorem scatterStatus_near {d : Desc} (hlost : d.lost = 0) (hrejects : d.rejects = 0) :
    scatterStatus d = if d.detail + d.lost = 0 then St.ok else St.straggler := by
  unfold scatterStatus
  simp only [hlost, hrejects, ne_eq, not_true_eq_false, if_false, Nat.add_zero, ite_not]

theorem endScatter_waits {s : State} {i : Nat} {d : Desc} (hdesc : s.desc i = some d) (hout : (s.up.outb.any fun b => b.id == i) = true) :
    (s.endScatter i).desc i = some { d with stage := .remote } := by
  unfold State.endScatter
  rw [hdesc]
  dsimp only
  rw [if_pos hout]
  exact desc_onDesc_self hdesc fun _ => rfl

theorem endScatter_ends {s : State} {i : Nat} {d : Desc} (hdesc : s.desc i = some d) (hout : (s.up.outb.any fun b => b.id == i) = false) :
    ∃ e, (s.endScatter i).desc i = some e ∧ e.stage = .finished ∧ e.status = scatterStatus d ∧ e.done = d.done ∧
      e.detail = d.detail + d.lost := by
  unfold State.endScatter
  rw [hdesc]
  dsimp only
  rw [if_neg (Bool.eq_false_iff.mp hout)]
  exact ⟨_, desc_settle_self hdesc fun _ => rfl, rfl, rfl, rfl, rfl⟩

theorem endScatter_up (s : State) (i : Nat) : (s.endScatter i).up = s.up :=
  same_of_hide (endScatter_hide (M := butZone .up) rfl ..) .up rfl

/-! ## Acceptance -/

theorem fitAll_length (cs : List Contrib) (s : State) : (s.fitAll cs).2.length = cs.length := by
  induction cs generalizing s with
  | nil => rfl
  | cons c cs ih => exact congrArg (· + 1) (ih _)

theorem fitAll_fe (cs : List Contrib) (s : State) : (s.fitAll cs).1.fe = s.fe :=
  same_of_hide (fitAll_hide (M := butZone .fe) rfl ..) .fe rfl

theorem fitAll_up (cs : List Contrib) (s : State) : (s.fitAll cs).1.up = s.up :=
  same_of_hide (fitAll_hide (M := butZone .up) rfl ..) .up rfl

theorem acceptAll_fe (cs : List Contrib) (s : State) (epoch : BitVec 32) (t : Tally) : (s.acceptAll epoch t cs).1.fe = s.fe :=
  same_of_hide (acceptAll_hide (M := butZone .fe) rfl rfl rfl ..) .fe rfl

/-- A scatter that forwards none of its contributions ends as they are taken in, each as accepted or as dropped. -/
theorem accept_ends {s : State} {d : Desc} {epoch : BitVec 32} {own : List Contrib} (hid : d.id ∈ descIds s)
    (hnear : (own.any fun c => tooFarAhead (s.epochOf (keyTbl c.key)) epoch) = false) (hout : ∀ b ∈ s.up.outb, b.id ≠ d.id) :
    ∃ e, (s.accept d epoch own []).desc d.id = some e ∧ e.stage = .finished ∧
      e.status = (if e.detail = 0 then St.ok else St.straggler) ∧ e.done + e.detail = own.length := by
  let q := (s.endReserve d.id).fitAll own
  let r := q.1.acceptAll epoch {} q.2
  have hfe : r.1.fe = s.fe := (acceptAll_fe ..).trans (fitAll_fe ..)
  have hup : butEntries r.1.up = butEntries (s.endReserve d.id).up := (acceptAll_butEntries ..).trans (congrArg butEntries (fitAll_up ..))
  have houtb := congrArg Updates.outb hup
  have htotal : r.2.done + r.2.drop = own.length := by
    rw [acceptAll_total, fitAll_length]
    exact Nat.zero_add _
  obtain ⟨d0, hdesc⟩ := exists_desc_of_mem_descIds hid
  have hcounted := desc_onDesc_self (s := r.1) ((desc_of_fe hfe d.id).trans hdesc)
    (f := fun x => { x with done := r.2.done, detail := r.2.drop, late := r.2.late, fwd := 0, lost := 0, rejects := 0 }) fun _ => rfl
  have hnone : (r.1.up.outb.any fun b => b.id == d.id) = false := by
    rw [show r.1.up.outb = s.up.outb from houtb, List.any_eq_false]
    exact fun b hb => Bool.eq_false_iff.mp (beq_eq_false_iff_ne.mpr (hout b hb))
  obtain ⟨e, hend, hstage, hstatus, hdone, hdetail⟩ := endScatter_ends hcounted hnone
  refine ⟨e, ?_, hstage, ?_, by rw [hdone, hdetail]; exact htotal⟩
  · unfold State.accept
    rw [hnear, if_neg Bool.false_ne_true]
    exact hend
  · rw [hstatus, hdetail]
    exact scatterStatus_near rfl rfl

/-- So it is once its gradient has been read. -/
theorem readGradient_ends {s : State} {d : Desc} {epoch : BitVec 32} {own : List Contrib} (hdesc : s.desc d.id = some d)
    (hnear : (own.any fun c => tooFarAhead (s.epochOf (keyTbl c.key)) epoch) = false) (hout : ∀ b ∈ s.up.outb, b.id ≠ d.id) :
    ∃ e, ((s.inputsDone d.id).accept d epoch own []).desc d.id = some e ∧ e.stage = .finished ∧
      e.status = (if e.detail = 0 then St.ok else St.straggler) ∧ e.done + e.detail = own.length := by
  obtain ⟨hdescs, houtb⟩ := inputsDone_sameScatters s d.id
  refine accept_ends (hdescs ▸ mem_descIds_of_desc hdesc) ?_ fun b hb heq => ?_
  · unfold State.epochOf
    rw [inputsDone_tb]
    exact hnear
  · have hmem : d.id ∈ s.up.outb.map (·.id) := houtb ▸ List.mem_map.mpr ⟨b, hb, heq⟩
    obtain ⟨b0, hb0, hid⟩ := List.mem_map.mp hmem
    exact hout b0 hb0 hid

/-! ## The forms of SCATTER_GRAD -/

theorem reservedFor_scatter {s : State} {d : Desc} (hdesc : s.desc d.id = some d) (hstage : d.stage = .scatter) (hopc : d.opc = 3) :
    s.reservedFor d.id d.rowsForm = some d := by
  unfold State.reservedFor
  rw [hdesc, Option.filter_some, hstage, hopc, beq_self_eq_true (d.rowsForm)]
  rfl

/-- A LISTS-form scatter that holds its reservation runs. -/
theorem scatterLists_runs {s : State} {d : Desc} (hdesc : s.desc d.id = some d) (hstage : d.stage = .scatter) (hopc : d.opc = 3)
    (hform : d.rowsForm = false) (grad : Feed) : s.scatterLists d.id grad = s.runScatter d grad := by
  have hreserved := reservedFor_scatter hdesc hstage hopc
  rw [hform] at hreserved
  unfold State.scatterLists
  rw [readyFor_eq_none hdesc (by rw [hstage]; decide)]
  dsimp only
  rw [hreserved]

/-- A ROWS-form scatter that holds its reservation runs. -/
theorem scatterRows_runs {s : State} {d : Desc} (hdesc : s.desc d.id = some d) (hstage : d.stage = .scatter) (hopc : d.opc = 3)
    (hform : d.rowsForm = true) (grad : Feed) : s.scatterRows d.id grad = s.runScatter d grad := by
  have hreserved := reservedFor_scatter hdesc hstage hopc
  rw [hform] at hreserved
  unfold State.scatterRows
  rw [readyFor_eq_none hdesc (by rw [hstage]; decide)]
  dsimp only
  rw [hreserved]

theorem runScatter_lists {s : State} {d : Desc} {k : Kept} {grad : Feed} (hin : s.inputsIn d = true) (hform : d.rowsForm = false)
    (hkept : s.claimedBy d.id = some k) (hread : scatterStop (d.count * gradStride d k.dim) (d.clip .input 0 grad) = none) :
    s.runScatter d grad = (s.inputsDone d.id).accept d k.epoch (s.listContribs d k (d.clip .input 0 grad).data) [] := by
  unfold State.runScatter
  rw [hin, hform, hkept]
  dsimp only
  rw [hread]
  rfl

/-- A scatter with no forward entries forwards nothing (R240). -/
theorem forwardOf_noEntries {m : Member'} (h : m.fwd = []) (cs : List Contrib) : cs.filterMap m.forwardOf = [] := by
  refine List.filterMap_eq_nil_iff.mpr fun c _ => ?_
  unfold Member'.forwardOf Member'.home
  rw [h]
  rfl

theorem forwards_noEntries {m : Member'} (h : m.fwd = []) (d : Desc) (cs : List Contrib) :
    (cs.filter fun c => !(m.forwards d (keyTbl c.key))) = cs := by
  refine List.filter_eq_self.mpr fun c _ => ?_
  unfold Member'.forwards
  rw [h, List.any_nil, Bool.and_false]
  rfl

theorem runScatter_rows {s : State} {d : Desc} {m : Member'} {grad : Feed} (hin : s.inputsIn d = true) (hform : d.rowsForm = true)
    (hsorted : s.up.sorted.find? (fun m => m.id == d.id) = some m) (hfwd : m.fwd = [])
    (hread : scatterStop (d.count * gradStride d (m.dim d)) (d.clip .input 1 grad) = none) :
    s.runScatter d grad = (s.inputsDone d.id).accept d d.epoch (rowContribs d m (m.dim d) (d.clip .input 1 grad).data) [] := by
  unfold State.runScatter
  rw [hin, hform, hsorted]
  dsimp only
  rw [hread]
  dsimp only
  rw [forwardOf_noEntries hfwd, forwards_noEntries hfwd]
  rfl

/-! ## A ROWS-form scatter enters the bobbinet -/

theorem enterWindow_entered {s : State} (hroom : s.sp.room = true) (m : Member') (pack : Bool) :
    (s.enterWindow m pack).2 = true ∧ (s.enterWindow m pack).1.fe = s.fe := by
  unfold State.enterWindow
  dsimp only
  rw [hroom, Bool.not_true, if_neg Bool.false_ne_true]
  split
  · exact ⟨rfl, rfl⟩
  split <;> exact ⟨rfl, rfl⟩

/-- The state after a scatter has entered a window. -/
def enteredWindow (s : State) (d : Desc) : State :=
  (s.enterWindow { id := d.id, snap := s.tb.tables, fwd := s.fwdCfg, count := d.count } (s.packable d)).1

/-- A scatter is admitted to a window that has room, and nothing else becomes of it. -/
theorem admitWindow_enters {s : State} {d : Desc} (hdesc : s.desc d.id = some d) (hopc : d.opc = 3) (hroom : s.sp.room = true) :
    ∃ e, (s.admitWindow d).desc d.id = some e ∧ e.stage = .window := by
  obtain ⟨hentered, hfe⟩ := enterWindow_entered hroom { id := d.id, snap := s.tb.tables, fwd := s.fwdCfg, count := d.count } (s.packable d)
  have hadmitted : s.admitWindow d = ((enteredWindow s d).onFe fun f => { f with stamp := s.fe.stamp + 1 }).onDesc d.id fun x =>
      { x with stage := .window, stamp := s.fe.stamp, binds := if d.namesVer then [(d.tbl, d.verField)] else [] } := by
    unfold State.admitWindow State.wakeSlices
    dsimp only
    rw [hentered, hopc]
    rfl
  have hdesc' : ((enteredWindow s d).onFe fun f => { f with stamp := s.fe.stamp + 1 }).desc d.id = some d := (desc_of_fe hfe d.id).trans hdesc
  rw [hadmitted]
  exact ⟨_, desc_onDesc_self hdesc' fun _ => rfl, rfl⟩

/-- Settles O24: a scatter that holds its reservation runs on its lists or its sorted rows, and ends as its contributions are taken in. -/
theorem scattersAreAccepted : Obligations.ScattersAreAccepted := by
  unfold Obligations.ScattersAreAccepted
  refine ⟨?_, ?_, ?_⟩
  · intro d k grad s hdesc hstage hopc hform hin hkept hread hnear hout
    obtain ⟨e, hend⟩ := readGradient_ends hdesc hnear hout
    refine ⟨_, e, congrArg Host.Outcome.next ?_, hend⟩
    rw [scatterLists_runs hdesc hstage hopc hform, runScatter_lists hin hform hkept hread]
  · intro d grad s hready hform hahead hgone hroom
    obtain ⟨e, hend⟩ := admitWindow_enters hready.1 hready.2.2.1 hroom
    refine ⟨_, e, congrArg Host.Outcome.next ?_, hend⟩
    unfold State.scatterRows
    rw [readyFor_of_readyDesc hready hform]
    dsimp only
    rw [hahead, hgone, if_neg Bool.false_ne_true, if_neg Bool.false_ne_true]
  · intro d m grad s hdesc hstage hopc hform hin hsorted hfwd hread hnear hout
    obtain ⟨e, hend⟩ := readGradient_ends hdesc hnear hout
    refine ⟨_, e, congrArg Host.Outcome.next ?_, hend⟩
    rw [scatterRows_runs hdesc hstage hopc hform, runScatter_rows hin hform hsorted hfwd hread]

end Sys2Proof.Proofs
end

section
/-!
PROOFS. O26: remote batches (R241, R242, R245, R247). A batch of one message leaves an empty intake as it arrives, and its acknowledgement stays
sent; the intake brings back no batch that has been discarded; an acknowledgement, and a batch that times out, count in their scatter, which ends
as its last batch is accounted for.
-/

namespace Sys2Proof.Proofs

open Sys2Proof Sys2Proof.Machine Sys2Proof.Laws

/-! ## The acknowledgement of a batch -/

/-- A response has been handed to port p: it waits where the port held no response credit in s, and has left where it held one. -/
def Responded (s t : State) (p : Nat) (o : Output) : Prop := o ∈ (if (s.fabPort p).orsp = 0 then t.pw.fabRsp else t.out)

theorem Responded.mono {s t u : State} {p : Nat} {o : Output} (h : Responded s t p o) (hwait : u.pw.fabRsp = t.pw.fabRsp)
    (hout : t.out <:+ u.out) : Responded s u p o := by
  unfold Responded at h ⊢
  split
  · next hcredit => rw [hwait]; rw [if_pos hcredit] at h; exact h
  · next hcredit => rw [if_neg hcredit] at h; exact hout.subset h

theorem rspSend_responded (s : State) (p : Nat) (o : Output) : Responded s (s.rspSend p o) p o := by
  unfold Responded
  split
  · next hcredit =>
    unfold State.rspSend
    rw [if_pos hcredit]
    exact List.mem_append_right _ List.mem_cons_self
  · next hcredit => exact rspSend_leaves hcredit o

theorem payCredits_fabRsp (s : State) : s.payCredits.pw.fabRsp = s.pw.fabRsp := by
  have hpay : ∀ (u : State) (p : Nat), (u.payCredit p).pw.fabRsp = u.pw.fabRsp := by
    intro u p
    unfold State.payCredit
    dsimp only
    split <;> rfl
  unfold State.payCredits
  split
  · rfl
  · exact forEach_keeps (P := fun u => u.pw.fabRsp = s.pw.fabRsp) _ (fun u p _ hu => (hpay u p).trans hu) s rfl

theorem fabSettle_fabRsp (s : State) : s.fabSettle.pw.fabRsp = s.pw.fabRsp := by
  have hrest : ∀ (u : State) (p : Nat), (u.fabRest p).pw.fabRsp = u.pw.fabRsp := by
    intro u p
    unfold State.fabRest
    split <;> rfl
  exact forEach_keeps (P := fun u => u.pw.fabRsp = s.pw.fabRsp) _ (fun u p _ hu => (hrest u p).trans hu) s rfl

/-- A batch that is accepted is arriving no more, and its contributions are counted. -/
def arrivedBatch (s : State) (b : InBatch) : State :=
  (s.onUp fun u => { u with inb := u.inb.filter fun x => !(x.is b.sender b.batch) }).countN Ctr.fwdIn b.names.length

/-- What becomes of a batch's contributions as it is accepted: their tally, and the number refused. -/
def takenBatch (s : State) (b : InBatch) : State × Tally × Nat := (arrivedBatch s b).takeAll b b.names {} 0

theorem takenBatch_pw (s : State) (b : InBatch) : (takenBatch s b).1.pw = s.pw :=
  same_of_hide (takeAll_hide (M := butZone .pw) rfl rfl rfl rfl ..) .pw rfl

/-- The acknowledgement of a batch with a tally and a number of refusals (Table 66). -/
def ackOf (b : InBatch) (t : Tally) (refused : Nat) : Output :=
  .ack b.port b.sender b.batch t.done t.late t.drop refused (ackBytes b.batch t.done t.late t.drop refused)

/-- A batch that came on a port in service is acknowledged there. -/
theorem acceptBatch_acks {s : State} {b : InBatch} (hup : s.fabUp b.port = true) :
    Responded s (s.acceptBatch b) b.port (ackOf b (takenBatch s b).2.1 (takenBatch s b).2.2) := by
  have hpw := takenBatch_pw s b
  have hport : (takenBatch s b).1.rspPort b.port = b.port := by
    have hup' : (takenBatch s b).1.fabUp b.port = true := by
      unfold State.fabUp State.fabPort
      rw [hpw]
      exact hup
    unfold State.rspPort State.fabAnswers
    rw [hup', Bool.true_or, if_pos rfl]
  have hsent := rspSend_responded ((takenBatch s b).1.countN Ctr.fwdRejected (takenBatch s b).2.2) b.port
    (ackOf b (takenBatch s b).2.1 (takenBatch s b).2.2)
  have hcredit : (((takenBatch s b).1.countN Ctr.fwdRejected (takenBatch s b).2.2).fabPort b.port).orsp = (s.fabPort b.port).orsp := by
    unfold State.fabPort
    rw [countN_pw, hpw]
  unfold Responded at hsent
  rw [hcredit] at hsent
  have hall : s.acceptBatch b = ((((takenBatch s b).1.countN Ctr.fwdRejected (takenBatch s b).2.2).rspSend b.port
      (ackOf b (takenBatch s b).2.1 (takenBatch s b).2.2)).payCredits).fabSettle := by
    unfold ackOf
    rw [← hport]
    unfold takenBatch arrivedBatch State.acceptBatch
    rfl
  rw [hall]
  exact Responded.mono (s := s) hsent ((fabSettle_fabRsp _).trans (payCredits_fabRsp _))
    (fabSettle_grew (u := State.rspSend _ _ _) _ (payCredits_grew _ List.suffix_rfl))

/-! ## A batch of one message -/

/-- The batch that one message makes, as it comes on a port. -/
def oneMessage (port : Nat) (m : ContribMsg) : InBatch := { sender := m.sender, batch := m.batch, msgs := [m], whole := 1, port := port }

/-- That batch with its message taken out of the intake, n bytes of pillow being reserved for it. -/
def oneTaken (port : Nat) (m : ContribMsg) (n : Nat) : InBatch := { oneMessage port m with taken := 1, resv := n }

/-- The batch is the one in the intake. -/
def oneArrived (s : State) (port : Nat) (m : ContribMsg) : State :=
  (s.onUp fun u => { u with inb := [oneMessage port m], inq := [(m.sender, m.batch)] }).send (.credit port false 1)

/-- The batch has left the intake. -/
def oneLeft (s : State) (port : Nat) (m : ContribMsg) (n : Nat) : State :=
  (oneArrived s port m).onUp fun u => { u with inb := [oneTaken port m n], inq := [] }

theorem is_self (b : InBatch) : b.is b.sender b.batch = true := by
  unfold InBatch.is
  rw [beq_self_eq_true, beq_self_eq_true]
  rfl

theorem granules_zero : granules 0 = 0 := by decide

theorem oneTaken_ripe (port : Nat) (m : ContribMsg) (n : Nat) : (oneTaken port m n).ripe = true := rfl

theorem oneTaken_names (port : Nat) (m : ContribMsg) (n : Nat) : (oneTaken port m n).names = [(m.key, m.epoch, 0)] := rfl

section
variable {s : State} {port : Nat} {m : ContribMsg} (hup : s.fabUp port = true) (hinb : s.up.inb = []) (hinq : s.up.inq = [])
  (hlast : m.last = true) (hmsgs : m.msgs = 1)

include hinb hinq hlast hmsgs in
theorem addMsg_one : s.addMsg port m = s.onUp fun u => { u with inb := [oneMessage port m], inq := [(m.sender, m.batch)] } := by
  unfold State.addMsg InBatch.put State.onUp
  simp only [hinb, hinq, hlast, hmsgs]
  rfl

include hup hinb hinq hlast hmsgs in
/-- A message that finds the intake empty is alone in it, and its credit returns (R245, R345). -/
theorem remoteMsg_one : s.remoteMsg port m = (oneArrived s port m).takeHead := by
  have hroom : s.intakeFull = false := by
    unfold State.intakeFull State.remoteHeld
    rw [hinq]
    rfl
  have hcredit : (s.addMsg port m).oweCredit port false = oneArrived s port m := by
    rw [addMsg_one hinb hinq hlast hmsgs]
    rfl
  have hdrain : (oneArrived s port m).drainIntake = (oneArrived s port m).takeHead := rfl
  unfold State.remoteMsg
  simp only [hup, hroom, hcredit, hinb, hdrain, Bool.not_true, List.any_nil, Bool.false_eq_true, if_false]

include hinb in
/-- A batch with nothing reserved takes no pillow space. -/
theorem oneArrived_pillowRoom (n : Nat) : (oneArrived s port m).pillowRoom n = s.pillowRoom n := by
  have hnone : sumBy (fun b : InBatch => granules b.resv * 4096) (oneArrived s port m).up.inb =
      sumBy (fun b : InBatch => granules b.resv * 4096) s.up.inb := by
    rw [hinb]
    change granules 0 * 4096 + 0 = 0
    rw [granules_zero]
  have hused : (oneArrived s port m).pillowUsed = s.pillowUsed := by
    unfold State.pillowUsed
    rw [hnone]
    exact congrArg (· + _) rfl
  unfold State.pillowRoom
  rw [hused]
  rfl

include hinb in
/-- The message leaves where the pillow has room for what it asks for, and its batch is accepted. -/
theorem takeHead_one (hroom : s.pillowRoom (granules (s.remoteNeed (oneMessage port m)) * 4096) = true) :
    (oneArrived s port m).takeHead =
      (oneLeft s port m (s.remoteNeed (oneMessage port m))).acceptBatch (oneTaken port m (s.remoteNeed (oneMessage port m))) := by
  have hself : (oneMessage port m).is m.sender m.batch = true := is_self _
  have hneed : (oneMessage port m).resv + (oneArrived s port m).remoteNeed (oneMessage port m) = s.remoteNeed (oneMessage port m) :=
    Nat.zero_add _
  have hfind : (oneArrived s port m).up.inb.find? (fun b => b.is m.sender m.batch && !b.bad) = some (oneMessage port m) := by
    change [oneMessage port m].find? _ = _
    rw [List.find?_cons, hself]
    rfl
  unfold State.takeHead
  rw [show (oneArrived s port m).up.inq = [(m.sender, m.batch)] from rfl]
  dsimp only
  rw [hfind]
  dsimp only
  rw [hneed, show granules (oneMessage port m).resv = 0 from granules_zero, Nat.sub_zero, oneArrived_pillowRoom hinb, if_pos hroom]
  have hmap : [oneMessage port m].map (fun x => if x.is m.sender m.batch = true then oneTaken port m (s.remoteNeed (oneMessage port m)) else x) =
      [oneTaken port m (s.remoteNeed (oneMessage port m))] := by
    rw [List.map_singleton, if_pos hself]
  refine (if_pos (oneTaken_ripe port m _)).trans ?_
  exact congrArg (fun l => State.acceptBatch ((oneArrived s port m).onUp fun u => { u with inb := l, inq := [] })
    (oneTaken port m (s.remoteNeed (oneMessage port m)))) hmap

end

/-- Nothing is arriving once the one batch is accepted. -/
theorem acceptBatch_one_inb (s : State) (port : Nat) (m : ContribMsg) (n : Nat) :
    ((oneLeft s port m n).acceptBatch (oneTaken port m n)).up.inb = [] := by
  have hinb : ((oneLeft s port m n).acceptBatch (oneTaken port m n)).up.inb =
      [oneTaken port m n].filter fun x => !(x.is (oneTaken port m n).sender (oneTaken port m n).batch) :=
    congrArg Updates.inb (acceptBatch_butEntries ..)
  rw [hinb, List.filter_cons, is_self, Bool.not_true, if_neg Bool.false_ne_true]
  exact List.filter_nil

/-- What is refused depends on the tables and their update settings alone. -/
theorem refusesRemote_congr {s t : State} (htb : t.tb = s.tb) (hcfg : t.updCfg = s.updCfg) (n : Key × BitVec 32 × Nat) :
    t.refusesRemote n = s.refusesRemote n := by
  unfold State.refusesRemote State.table State.updOf State.epochOf
  rw [htb, hcfg]

theorem arrivedBatch_refusesRemote (s : State) (port : Nat) (m : ContribMsg) (n : Nat) (k : Key × BitVec 32 × Nat) :
    (arrivedBatch (oneLeft s port m n) (oneTaken port m n)).refusesRemote k = s.refusesRemote k := by
  unfold arrivedBatch
  exact refusesRemote_congr ((countN_tb ..).trans rfl) ((countN_updCfg ..).trans rfl) k

/-- Its contribution is refused, -/
theorem takenBatch_refused {s : State} {m : ContribMsg} (hrefused : s.refusesRemote (m.key, m.epoch, 0) = true) (port n : Nat) :
    (takenBatch (oneLeft s port m n) (oneTaken port m n)).2 = ({}, 1) := by
  unfold takenBatch
  rw [oneTaken_names, State.takeAll, arrivedBatch_refusesRemote, if_pos hrefused, State.takeAll]

/-- or counts once in the tally. -/
theorem takenBatch_taken {s : State} {m : ContribMsg} (htaken : s.refusesRemote (m.key, m.epoch, 0) = false) (port n : Nat) :
    ∃ t : Tally, (takenBatch (oneLeft s port m n) (oneTaken port m n)).2 = (t, 0) ∧ t.done + t.drop = 1 := by
  unfold takenBatch
  rw [oneTaken_names, State.takeAll, arrivedBatch_refusesRemote, if_neg (Bool.eq_false_iff.mp htaken), State.takeAll]
  exact ⟨_, rfl, tally_add_total ..⟩

theorem remoteNeed_refused {s : State} {m : ContribMsg} (hrefused : s.refusesRemote (m.key, m.epoch, 0) = true) (port : Nat) :
    s.remoteNeed (oneMessage port m) = 0 := by
  have hrefused' : s.refusesRemote (m.key, m.epoch, ((([] : List ContribMsg).filter fun x =>
      x.key == m.key && x.epoch == m.epoch && x.elem0 == m.elem0).length)) = true := hrefused
  unfold State.remoteNeed
  exact if_pos (Bool.or_eq_true_iff.mpr (.inr hrefused'))

/-- What a message that finds the intake empty and room in the pillow comes to. -/
theorem remoteMsg_acked {s : State} {port : Nat} {m : ContribMsg} (hup : s.fabUp port = true) (hinb : s.up.inb = []) (hinq : s.up.inq = [])
    (hlast : m.last = true) (hmsgs : m.msgs = 1) (hroom : s.pillowRoom (granules (s.remoteNeed (oneMessage port m)) * 4096) = true) :
    (s.remoteMsg port m).up.inb = [] ∧ ∃ n, Responded s (s.remoteMsg port m) port
      (ackOf (oneMessage port m) (takenBatch (oneLeft s port m n) (oneTaken port m n)).2.1
        (takenBatch (oneLeft s port m n) (oneTaken port m n)).2.2) := by
  rw [remoteMsg_one hup hinb hinq hlast hmsgs, takeHead_one hinb hroom]
  exact ⟨acceptBatch_one_inb .., _, acceptBatch_acks (s := oneLeft s port m _) (b := oneTaken port m _) hup⟩

/-! ## A batch that is discarded -/

/-- The batch is arriving no more, and no message of it waits in the intake. -/
def forgottenBatch (s : State) (sender : BitVec 16) (batch : BitVec 32) : State :=
  s.onUp fun u => { u with inb := u.inb.filter (fun b => !(b.is sender batch)), inq := u.inq.filter (fun q => q != (sender, batch)) }

theorem discardBatch_up (s : State) (sender : BitVec 16) (batch : BitVec 32) :
    (s.discardBatch sender batch).up = (forgottenBatch s sender batch).drainIntake.up := by
  unfold State.discardBatch forgottenBatch
  rw [count_up, payCredits_up]

theorem batchDiscard_discards {s : State} {sender : BitVec 16} {batch : BitVec 32} {b : InBatch}
    (hfind : s.up.inb.find? (fun x => x.is sender batch) = some b) (hbad : b.bad = false) (hpart : b.complete = false) :
    s.batchDiscard sender batch = s.discardBatch sender batch := by
  unfold State.batchDiscard
  rw [hfind]
  dsimp only
  rw [hbad, hpart]
  rfl

/-- No batch of the name is arriving, and no message of it waits: what leaves the intake brings neither. -/
theorem discardBatch_gone (s : State) (sender : BitVec 16) (batch : BitVec 32) :
    (∀ x ∈ (s.discardBatch sender batch).up.inb, x.is sender batch = false) ∧
      ∀ q ∈ (s.discardBatch sender batch).up.inq, q ≠ (sender, batch) := by
  rw [discardBatch_up]
  obtain ⟨-, hinq, hinb⟩ := drainIntake_drains (forgottenBatch s sender batch)
  refine ⟨fun x hx => ?_, fun q hq => bne_iff_ne.mp (List.mem_filter.mp (hinq hq)).2⟩
  obtain ⟨y, hy, hsender, hbatch⟩ := hinb x hx
  have hy := (List.mem_filter.mp hy).2
  rw [Bool.not_eq_true'] at hy
  unfold InBatch.is at hy ⊢
  rw [hsender, hbatch]
  exact hy

/-- With no other message in the intake, the other batches stay as they are. -/
theorem discardBatch_others {s : State} {sender : BitVec 16} {batch : BitVec 32} (halone : ∀ q ∈ s.up.inq, q = (sender, batch)) :
    (s.discardBatch sender batch).up.inb = s.up.inb.filter fun x => !(x.is sender batch) := by
  have hempty : (s.up.inq.filter fun q => q != (sender, batch)) = [] :=
    List.filter_eq_nil_iff.mpr fun q hq => by rw [halone q hq, bne_self_eq_false]; decide
  rw [discardBatch_up]
  unfold State.drainIntake forgottenBatch
  rw [onUp_up]
  dsimp only
  rw [hempty]
  rfl

/-! ## Acknowledgements and timeouts -/

/-- A batch is accounted for: it is outstanding no more, and is counted. -/
def accounted (s : State) (batch : BitVec 32) (ctr n : Nat) : State :=
  ((s.onUp fun u => { u with outb := u.outb.filter fun x => x.batch != batch }).countN ctr n).fabSettle

theorem accounted_outb (s : State) (batch : BitVec 32) (ctr n : Nat) :
    (accounted s batch ctr n).up.outb = s.up.outb.filter fun x => x.batch != batch := congrArg Updates.outb (fabSettle_up _)

theorem accounted_fe (s : State) (batch : BitVec 32) (ctr n : Nat) : (accounted s batch ctr n).fe = s.fe :=
  same_of_hide (fabSettle_hide (M := butZone .fe) rfl rfl ..) .fe rfl

/-- A scatter that waits for its batches counts one, and ends if it was the last. -/
theorem endScatter_counted {s : State} {i : Nat} {d : Desc} (hdesc : s.desc i = some d) (hstage : d.stage = .remote) {f : Desc → Desc}
    (hid : ∀ x, (f x).id = x.id) (hkept : (f d).stage = d.stage) {batch : BitVec 32} (ctr n : Nat) :
    let s2 := (accounted s batch ctr n).onDesc i fun x => if x.stage == .remote then f x else x
    (if (s2.desc i).any fun d => d.stage == .remote then s2.endScatter i else s2) = s2.endScatter i ∧ s2.desc i = some (f d) := by
  have hdesc2 : ((accounted s batch ctr n).onDesc i fun x => if x.stage == .remote then f x else x).desc i = some (f d) := by
    rw [desc_onDesc_self ((desc_of_fe (accounted_fe ..) i).trans hdesc) fun x => ?_, hstage]
    · rfl
    · split
      · exact hid x
      · rfl
  refine ⟨if_pos ?_, hdesc2⟩
  rw [hdesc2, Option.any_some, hkept, hstage]
  rfl

/-- The scatter after an acknowledgement: the figures are added. -/
def withAck (a l dropped r : Nat) (x : Desc) : Desc :=
  { x with done := x.done + a, late := x.late + l, detail := x.detail + dropped, rejects := x.rejects + r }

theorem takeAck_eq {s : State} {batch : BitVec 32} {b : OutBatch} {d : Desc} (hfind : s.up.outb.find? (fun y => y.batch == batch) = some b)
    (hdesc : s.desc b.id = some d) (hstage : d.stage = .remote) (a l r x : Nat) :
    s.takeAck batch a l r x =
      ((accounted s batch Ctr.fwdRejected x).onDesc b.id fun y => if y.stage == .remote then withAck a l r x y else y).endScatter b.id := by
  unfold State.takeAck
  rw [hfind]
  exact (endScatter_counted (f := withAck a l r x) hdesc hstage (fun _ => rfl) rfl ..).1

/-- A scatter of which no other batch is outstanding ends. -/
theorem takeAck_counts {s : State} {batch : BitVec 32} {b : OutBatch} {d : Desc} (hfind : s.up.outb.find? (fun y => y.batch == batch) = some b)
    (hdesc : s.desc b.id = some d) (hstage : d.stage = .remote) (a l r x : Nat) :
    ∃ e, (s.takeAck batch a l r x).desc b.id = some e ∧ e.done = d.done + a ∧
      e.stage = (if s.up.outb.any (fun y => y.id == b.id && y.batch != batch) then .remote else .finished) ∧
      (s.takeAck batch a l r x).up.outb = s.up.outb.filter fun y => y.batch != batch := by
  rw [takeAck_eq hfind hdesc hstage, endScatter_up, onDesc_up, accounted_outb]
  obtain ⟨-, hdesc2⟩ := endScatter_counted (batch := batch) (f := withAck a l r x) hdesc hstage (fun _ => rfl) rfl Ctr.fwdRejected x
  have hothers : ((s.up.outb.filter fun y => y.batch != batch).any fun y => y.id == b.id) =
      s.up.outb.any fun y => y.id == b.id && y.batch != batch := by
    rw [List.any_filter]
    exact congrArg s.up.outb.any (funext fun y => Bool.and_comm ..)
  rw [← hothers]
  cases hout : (s.up.outb.filter fun y => y.batch != batch).any fun y => y.id == b.id with
  | false =>
    obtain ⟨e, hend, hfinished, -, hdone, -⟩ := endScatter_ends hdesc2 (by rw [onDesc_up, accounted_outb]; exact hout)
    exact ⟨e, hend, hdone, hfinished.trans (if_neg Bool.false_ne_true).symm, rfl⟩
  | true => exact ⟨_, endScatter_waits hdesc2 (by rw [onDesc_up, accounted_outb]; exact hout), rfl, (if_pos rfl).symm, rfl⟩

/-- The scatter after a batch of n contributions has timed out. -/
def withUnconfirmed (n : Nat) (x : Desc) : Desc := { x with lost := x.lost + n }

/-- The last batch of a scatter times out. -/
theorem ackTimeout_ends {s : State} {batch : BitVec 32} {b : OutBatch} {d : Desc}
    (hfind : s.up.outb.find? (fun y => y.batch == batch) = some b) (hdesc : s.desc b.id = some d) (hstage : d.stage = .remote)
    (hcount : b.count ≠ 0) (hlast : s.up.outb.any (fun y => y.id == b.id && y.batch != batch) = false) :
    ∃ e, (s.ackTimeout batch).desc b.id = some e ∧ e.stage = .finished ∧ e.status = St.unrecoverable := by
  obtain ⟨hends, hdesc2⟩ := endScatter_counted (batch := batch) (f := withUnconfirmed b.count) hdesc hstage (fun _ => rfl) rfl
    Ctr.contribLost b.count
  have hnone : ((accounted s batch Ctr.contribLost b.count).up.outb.any fun y => y.id == b.id) = false := by
    rw [accounted_outb, List.any_filter, ← hlast]
    exact congrArg s.up.outb.any (funext fun y => Bool.and_comm ..)
  obtain ⟨e, hend, hfinished, hstatus, -⟩ := endScatter_ends hdesc2 hnone
  have hlost : (withUnconfirmed b.count d).lost ≠ 0 := fun h => hcount (Nat.eq_zero_of_add_eq_zero_left h)
  refine ⟨e, ?_, hfinished, hstatus.trans (if_pos hlost)⟩
  unfold State.ackTimeout
  rw [hfind]
  exact (congrArg (State.desc · b.id) hends).trans hend

/-- Settles O26: a batch of one message leaves the intake as it comes, and one that is discarded is brought back by nothing; a batch that is
accounted for counts in its scatter, which ends with its last one. -/
theorem batchesAreAccounted : Obligations.BatchesAreAccounted := by
  unfold Obligations.BatchesAreAccounted
  refine ⟨?_, ?_, ?_, ?_, ?_⟩
  · intro port m s hup hinb hinq hlast hmsgs hrefused hroom hclosed
    have hspace : s.pillowRoom (granules (s.remoteNeed (oneMessage port m)) * 4096) = true := by
      rw [remoteNeed_refused hrefused]
      exact hroom
    obtain ⟨hnone, n, hacked⟩ := remoteMsg_acked hup hinb hinq hlast hmsgs hspace
    rw [takenBatch_refused hrefused] at hacked
    exact ⟨_, congrArg Host.Outcome.next (rest_closed hclosed _), hnone, hacked⟩
  · intro port m s hup hinb hinq hlast hmsgs htaken hroom hclosed
    obtain ⟨hnone, n, hacked⟩ := remoteMsg_acked hup hinb hinq hlast hmsgs hroom
    obtain ⟨t, htally, htotal⟩ := takenBatch_taken htaken port n
    rw [htally] at hacked
    exact ⟨_, t.done, t.late, t.drop, congrArg Host.Outcome.next (rest_closed hclosed _), hnone, htotal, hacked⟩
  · intro sender batch b s hfind hbad hpart hclosed
    obtain ⟨hinb, hinq⟩ := discardBatch_gone s sender batch
    refine ⟨s.discardBatch sender batch, congrArg Host.Outcome.next ?_, hinb, hinq, discardBatch_others⟩
    rw [rest_closed hclosed, batchDiscard_discards hfind hbad hpart]
  · intro port batch a l r x b d s hanswers hfind hdesc hstage hclosed
    obtain ⟨e, hcounted⟩ := takeAck_counts (s := s.send (.credit port true 1)) hfind hdesc hstage a l r x
    refine ⟨_, e, congrArg Host.Outcome.next ?_, hcounted⟩
    rw [rest_closed hclosed, State.batchAck, if_pos hanswers]
  · intro batch b d s hfind hdesc hstage hcount hlast hclosed
    obtain ⟨e, hend⟩ := ackTimeout_ends hfind hdesc hstage hcount hlast
    exact ⟨_, e, congrArg Host.Outcome.next (rest_closed hclosed _), hend⟩

end Sys2Proof.Proofs
end

section
/-!
PROOFS. What copies that are read, placed, written back and dropped leave of the skew unit: no move of a row begins or ends, and no channel's
load is counted (R269 to R280, R287). The commands of O41 do all of this around what they are for.
-/

namespace Sys2Proof.Proofs

open Sys2Proof Sys2Proof.Machine Sys2Proof.Laws

/-! ## Accesses, NVMe commands and encodings leave the cache as it is -/

@[simp] theorem noteRead_ch (s : State) (ch pocket a b : Nat) (bobbin : Bool) : (s.noteRead ch pocket a b bobbin).ch = s.ch :=
  same_of_hide (noteRead_hide (M := butZone .ch) rfl rfl ..) .ch rfl

@[simp] theorem noteWrite_ch (s : State) (ch pocket a b : Nat) : (s.noteWrite ch pocket a b).ch = s.ch :=
  same_of_hide (noteWrite_hide (M := butZone .ch) rfl rfl ..) .ch rfl

@[simp] theorem noteTwin_ch (s : State) (k : Key) (ch n : Nat) (write : Bool) : (s.noteTwin k ch n write).ch = s.ch :=
  same_of_hide (noteTwin_hide (M := butZone .ch) rfl rfl ..) .ch rfl

@[simp] theorem notePinned_ch (s : State) (o n : Nat) (bobbin : Bool) : (s.notePinned o n bobbin).ch = s.ch :=
  same_of_hide (notePinned_hide (M := butZone .ch) rfl rfl ..) .ch rfl

@[simp] theorem writeSlot_ch (s : State) (w : Way) (b : Bytes) : (s.writeSlot w b).ch = s.ch :=
  same_of_hide (writeSlot_hide (M := butZone .ch) rfl rfl rfl ..) .ch rfl

@[simp] theorem wholeCmd_ch (s : State) (c : NvCmd) (r : Tried) : (s.wholeCmd c r).ch = s.ch :=
  same_of_hide (wholeCmd_hide (M := butZone .ch) rfl rfl rfl rfl ..) .ch rfl

@[simp] theorem readBlock_ch (s : State) (t : Table) (v : Version) (lba : Nat) (rows : List (Nat × Option Bytes)) :
    (s.readBlock t v lba rows).ch = s.ch :=
  same_of_hide (readBlock_hide (M := butZone .ch) rfl rfl rfl rfl ..) .ch rfl

@[simp] theorem failWrite_ch (s : State) (t : Table) (v : Version) (k : Key) (status : BitVec 8) (tried : Bool) :
    (s.failWrite t v k status tried).ch = s.ch :=
  same_of_hide (failWrite_hide (M := butZone .ch) rfl rfl ..) .ch rfl

@[simp] theorem encCopy_ch (s : State) (t : Table) (record : Bytes) (g : Grade) : (s.encCopy t record g).1.ch = s.ch :=
  same_of_hide (encCopy_hide (M := butZone .ch) rfl ..) .ch rfl

@[simp] theorem dropRegrade_ch (s : State) (p : Regrade → Bool) : (s.dropRegrade p).ch = s.ch :=
  same_of_hide (dropRegrade_hide (M := butZone .ch) rfl rfl ..) .ch rfl

/-! ## The skew unit while copies come and go -/

/-- The moves in progress and each channel's load: no copy that is read, placed, written back or dropped changes them. -/
def skewOf (s : State) : List Move × SMap Load := (s.ch.moves, s.ch.loads)

theorem skewOf_of_ch {s t : State} (h : t.ch = s.ch) : skewOf t = skewOf s := by
  unfold skewOf
  rw [h]

theorem forEach_skewOf {α : Type} {f : State → α → State} (h : ∀ s a, skewOf (f s a) = skewOf s) (l : List α) (s : State) :
    skewOf (State.forEach f l s) = skewOf s :=
  forEach_keeps (P := fun u => skewOf u = skewOf s) l (fun u a _ hu => (h u a).trans hu) s rfl

theorem skewOf_if {α : Type} {c : Prop} [Decidable c] {a b : State × α} {s : State} (ha : skewOf a.1 = skewOf s)
    (hb : skewOf b.1 = skewOf s) : skewOf (if c then a else b).1 = skewOf s := by
  split
  · exact ha
  · exact hb

theorem onUp_skewOf (s : State) (f : Updates → Updates) : skewOf (s.onUp f) = skewOf s := rfl

theorem touchHead_skewOf (s : State) (ch set : Nat) (changed : Bool) : skewOf (s.touchHead ch set changed) = skewOf s := by
  have hread : ∀ (u : State) (was : Option Bool) (p : Nat),
      skewOf (match was with
        | some _ => u.count Ctr.headHit
        | none => (u.count Ctr.headMiss).noteRead ch p 0 256 false) = skewOf u := by
    intro u was p
    cases was with
    | some _ => rfl
    | none => exact skewOf_of_ch (noteRead_ch ..)
  unfold State.touchHead
  dsimp only
  split
  · split
    · exact (skewOf_of_ch (noteWrite_ch ..)).trans (hread ..)
    · exact hread ..
  · exact hread ..

theorem markHead_skewOf (s : State) (ch set : Nat) : skewOf (s.markHead ch set) = skewOf s := by
  unfold State.markHead
  dsimp only
  split
  · rfl
  · exact touchHead_skewOf ..

theorem seeHead_skewOf (s : State) (ch set : Nat) : skewOf (s.seeHead ch set) = skewOf s := by
  unfold State.seeHead
  split
  · rfl
  · exact touchHead_skewOf ..

theorem track_skewOf (s : State) (ch : Nat) (k : Key) (ver lines : Nat) : skewOf (s.track ch k ver lines) = skewOf s := by
  unfold State.track skewOf
  dsimp only
  rw [onCh_ch]
  split
  · rfl
  split <;> rfl

theorem readCopy_skewOf (s : State) (w : Way) (n : Nat) (bobbin : Bool) : skewOf (s.readCopy w n bobbin) = skewOf s := by
  unfold State.readCopy
  exact (track_skewOf ..).trans (forEach_skewOf (fun _ _ => skewOf_of_ch (noteRead_ch ..)) _ s)

/-! ## Copies that go (R276, R280, R287) -/

theorem freeWay_skewOf (s : State) (w : Way) : skewOf (s.freeWay w) = skewOf s := by
  unfold State.freeWay
  split <;> rfl

theorem dropWays_skewOf (s : State) (l : List Way) : skewOf (s.dropWays l) = skewOf s :=
  forEach_skewOf (fun u w => (markHead_skewOf ..).trans (freeWay_skewOf u w)) l s

theorem leaveGhost_skewOf (s : State) (w : Way) : skewOf (s.leaveGhost w) = skewOf s := by
  unfold State.leaveGhost
  split
  · rfl
  split <;> rfl

theorem dropRow_skewOf (s : State) (k : Key) (ver : Nat) (ghost : Bool) : skewOf (s.dropRow k ver ghost) = skewOf s := by
  unfold State.dropRow
  split
  · rfl
  · have hdropped : ∀ (n : Nat) (p : Regrade → Bool) (f : Updates → Updates),
        skewOf (((((s.dropWays (s.copiesOf k ver)).dropRedir k ver).countN Ctr.replDropped n).dropRegrade p).onUp f) = skewOf s :=
      fun n p _ => (skewOf_of_ch (dropRegrade_ch _ p)).trans (dropWays_skewOf s _)
    dsimp only
    split
    · exact (leaveGhost_skewOf ..).trans (hdropped ..)
    · exact hdropped ..

theorem dropReplicas_loads (s : State) (k : Key) (ver n : Nat) : (s.dropReplicas k ver n).ch.loads = s.ch.loads :=
  congrArg Prod.snd (dropWays_skewOf s ((s.replicasOf k ver).filter fun w => decide (n ≤ w.repl)))

/-! ## Write-back (R256, R257, R454) -/

theorem noteMaster_skewOf (s : State) (t : Table) (k : Key) (ver : Nat) : skewOf (s.noteMaster t k ver) = skewOf s := by
  unfold State.noteMaster
  split
  · exact skewOf_of_ch (notePinned_ch ..)
  split
  · exact (readCopy_skewOf ..).trans (touchHead_skewOf ..)
  · rfl

theorem clean_skewOf (s : State) (k : Key) (ver : Nat) : skewOf (s.clean k ver) = skewOf s := by
  have hdirty : ∀ on : Bool, skewOf (s.setDirty k ver on) = skewOf s := by
    intro on
    unfold State.setDirty
    split
    · split
      · rfl
      · exact markHead_skewOf ..
    · rfl
  unfold State.clean
  dsimp only
  rw [onUp_skewOf]
  split
  · rfl
  · exact hdirty false

theorem dropDirect_skewOf (s : State) (t : Table) (k : Key) (ver : Nat) : skewOf (s.dropDirect t k ver) = skewOf s := by
  unfold State.dropDirect
  split
  · exact dropRow_skewOf ..
  · rfl

theorem writeBlock_skewOf (s : State) (t : Table) (v : Version) (k : Key) (r : Tried) : skewOf (s.writeBlock t v k r) = skewOf s := by
  unfold State.writeBlock
  dsimp only
  exact (skewOf_of_ch ((wholeCmd_ch ..).trans (readBlock_ch ..))).trans (forEach_skewOf (fun _ _ => noteMaster_skewOf ..) _ s)

theorem writeBackRow_skewOf (s : State) (t : Table) (v : Version) (k : Key) (res : Tried) :
    skewOf (s.writeBackRow t v k res).1 = skewOf s := by
  unfold State.writeBackRow
  dsimp only
  refine skewOf_if rfl (skewOf_if (skewOf_of_ch (failWrite_ch ..)) (skewOf_if ?_ ?_))
  · refine (skewOf_of_ch (failWrite_ch ..)).trans ?_
    split
    · exact writeBlock_skewOf ..
    · rfl
  · refine (forEach_skewOf (fun u r => ?_) _ _).trans ?_
    · exact (dropDirect_skewOf ..).trans (clean_skewOf (u.count Ctr.writebacks) _ _)
    split
    · exact writeBlock_skewOf ..
    · exact noteMaster_skewOf ..

/-! ## Ways and slots (R269, R276, R277) -/

theorem evictWay_skewOf (s : State) (w : Way) (fails : WbFails) (ghost : Bool) : skewOf (s.evictWay w fails ghost).1 = skewOf s := by
  have hmark : ∀ u : State, skewOf (if ghost then u.putWay w.asGhost else u) = skewOf u := by
    intro u
    split <;> rfl
  have hfreed : skewOf ((s.dropWay w).markHead w.ch w.set) = skewOf s := markHead_skewOf ..
  have hback : ∀ (t : Table) (o : Option Version), skewOf (match o with
      | some v => s.writeBackRow t v w.key (failOf fails w.key)
      | none => (s, true)).1 = skewOf s := by
    intro t o
    cases o with
    | some v => exact writeBackRow_skewOf ..
    | none => rfl
  unfold State.evictWay
  dsimp only
  split
  · exact hfreed
  next t _ => exact skewOf_if ((hmark _).trans hfreed) (skewOf_if (hback t _) ((hmark _).trans ((dropRow_skewOf ..).trans (hback t _))))

theorem emptyArea_skewOf (s : State) (l : List Way) (fails : WbFails) : skewOf (s.emptyArea l fails).1 = skewOf s := by
  induction l generalizing s with
  | nil => rfl
  | cons w l ih =>
    unfold State.emptyArea
    exact skewOf_if (skewOf_if ((ih _).trans (evictWay_skewOf ..)) (evictWay_skewOf ..)) (ih s)

theorem reclaimFrom_skewOf (s : State) (ch n : Nat) (pop : Option Nat) (k : Key) (ver : Nat) (fails : WbFails) (f p : Nat) :
    skewOf (s.reclaimFrom ch n pop k ver fails f p).1 = skewOf s := by
  induction f generalizing s p with
  | zero => rfl
  | succ f ih =>
    unfold State.reclaimFrom
    exact skewOf_if (skewOf_if (emptyArea_skewOf ..) ((ih ..).trans (emptyArea_skewOf ..))) (ih ..)

theorem takeSlot_skewOf (s : State) (ch size : Nat) (reclaim : Bool) (pop : Option Nat) (k : Key) (ver : Nat) (fails : WbFails) :
    skewOf (s.takeSlot ch size reclaim pop k ver fails).1 = skewOf s := by
  unfold State.takeSlot
  split
  · rfl
  · exact skewOf_if rfl (reclaimFrom_skewOf ..)

theorem takeWay_skewOf (s : State) (ch set : Nat) (k : Key) (ver : Nat) (e : Entry') (fails : WbFails) (f : Nat) :
    skewOf (s.takeWay ch set k ver e fails f).1 = skewOf s := by
  induction f generalizing s with
  | zero => rfl
  | succ f ih =>
    unfold State.takeWay
    split
    · rfl
    · rfl
    · exact skewOf_if rfl (skewOf_if (evictWay_skewOf ..) ((ih _).trans (evictWay_skewOf ..)))

theorem placeCopy_skewOf (s : State) (ch : Nat) (k : Key) (ver : Nat) (kind : WayKind) (g : Grade) (b : Bytes) (freq repl : Nat)
    (e : Entry') (fails : WbFails) : skewOf (s.placeCopy ch k ver kind g b freq repl e fails).1 = skewOf s := by
  have hway := fun (c : Nat × Nat) => (takeWay_skewOf (s.touchHead c.1 c.2 false) c.1 c.2 k ver e fails 17).trans (touchHead_skewOf ..)
  unfold State.placeCopy
  refine skewOf_if rfl ?_
  dsimp only
  split
  · exact hway _
  · split
    · exact (takeSlot_skewOf ..).trans (hway _)
    · exact (markHead_skewOf ..).trans ((skewOf_of_ch (writeSlot_ch ..)).trans ((takeSlot_skewOf ..).trans (hway _)))

end Sys2Proof.Proofs
end

section
/-!
PROOFS. O41, publication (R284, R285, R289): the command ends the move first and puts the redirect entry last, and the copies that it writes
between begin no other move of the row.
-/

namespace Sys2Proof.Proofs

open Sys2Proof Sys2Proof.Machine Sys2Proof.Laws

/-! ## What a publication writes -/

theorem copyWays_skewOf (s : State) (ch : Nat) (fails : WbFails) (l : List Way) : skewOf (s.copyWays ch fails l).1 = skewOf s := by
  induction l generalizing s with
  | nil => rfl
  | cons w l ih =>
    have hplaced : ∀ (n : Nat) (b : Bytes), skewOf (((s.seeHead w.ch w.set).readCopy w n false).placeCopy ch w.key w.ver w.kind w.grade b
        w.freq 0 .forced fails).1 = skewOf s :=
      fun n b => (placeCopy_skewOf ..).trans ((readCopy_skewOf ..).trans (seeHead_skewOf ..))
    unfold State.copyWays
    exact skewOf_if ((ih _).trans (hplaced ..)) (hplaced ..)

theorem addReplicas_skewOf (s : State) (k : Key) (ver h : Nat) (g : Grade) (b : Bytes) (fails : WbFails) (l : List Nat) :
    skewOf (s.addReplicas k ver h g b fails l).1 = skewOf s := by
  induction l generalizing s with
  | nil => rfl
  | cons i l ih =>
    unfold State.addReplicas
    exact skewOf_if ((ih _).trans (placeCopy_skewOf ..)) (placeCopy_skewOf ..)

theorem replicaData_skewOf (s : State) (t : Table) (k : Key) (ver : Nat) : skewOf (s.replicaData t k ver).1 = skewOf s := by
  unfold State.replicaData
  dsimp only
  split
  · exact (skewOf_of_ch (encCopy_ch ..)).trans (noteMaster_skewOf ..)
  split
  · exact (readCopy_skewOf ..).trans (touchHead_skewOf ..)
  · rfl

/-! ## Published rows -/

/-- A row is published: its redirect entry names where it lies, and no move of it is in progress. -/
def Published (s : State) (k : Key) (ver : Nat) (kind : RedirKind) : Prop :=
  (∃ r ∈ s.ch.redir, r.key = k ∧ r.ver = ver ∧ r.kind = kind) ∧ ∀ x ∈ s.ch.moves, ¬(x.key = k ∧ x.ver = ver)

theorem Published.of_same {s t : State} {k : Key} {ver : Nat} {kind : RedirKind} (h : Published s k ver kind)
    (hredir : t.ch.redir = s.ch.redir) (hmoves : t.ch.moves = s.ch.moves) : Published t k ver kind := by
  unfold Published
  rw [hredir, hmoves]
  exact h

/-- A move that has ended is in progress no more. -/
theorem endMove_gone (s : State) (k : Key) (ver : Nat) : ∀ x ∈ (s.endMove k ver).ch.moves, ¬(x.key = k ∧ x.ver = ver) := by
  rintro x hx ⟨rfl, rfl⟩
  simpa using (List.mem_filter.mp hx).2

/-- The redirect entry of a row whose move has ended, put after copies were placed and dropped, publishes the row. -/
theorem putRedir_published {s u : State} {k : Key} {ver : Nat} (h : skewOf u = skewOf (s.endMove k ver)) (kind : RedirKind) :
    Published (u.putRedir k ver kind) k ver kind := by
  refine ⟨⟨_, List.mem_append_right _ (List.mem_singleton_self _), rfl, rfl, rfl⟩, ?_⟩
  have hmoves : (u.putRedir k ver kind).ch.moves = (s.endMove k ver).ch.moves := congrArg Prod.fst h
  rw [hmoves]
  exact endMove_gone s k ver

/-- The twin of a dirty record that has moved to channel c is written anew, and its old one stays until its slot is read no more (R284). -/
def twinMoved (s : State) (k : Key) (ver c : Nat) (dirty : Bool) : State :=
  match s.twinOf k ver with
  | some t =>
    if dirty then
      (s.putTwin k ver (s.twinCh c) t.data).onUp fun u => { u with oldTwins := t :: u.oldTwins.filter fun x => !(x.is k ver) }
    else s
  | none => s

theorem twinMoved_ch (s : State) (k : Key) (ver c : Nat) (dirty : Bool) : (twinMoved s k ver c dirty).ch = s.ch := by
  unfold twinMoved
  split
  · split
    · exact noteTwin_ch ..
    · rfl
  · rfl

theorem published_twinMoved {s : State} {k : Key} {ver : Nat} {kind : RedirKind} (h : Published s k ver kind) (p : Way → Bool) (f : Way → Way)
    (b c : Nat) (dirty : Bool) (ops : List TelOp) :
    Published ((twinMoved ((s.onWays p f).setBand k ver b) k ver c dirty).tell ops) k ver kind :=
  have hch := twinMoved_ch ((s.onWays p f).setBand k ver b) k ver c dirty
  h.of_same (congrArg Cache.redir hch :) (congrArg Cache.moves hch :)

/-! ## MIGRATION_PUBLISH and REPLICATION_PUBLISH -/

theorem migrate_publishes {s : State} {k : Key} {ver c : Nat} {fails : WbFails} {m : Move} {w : Way} (hmove : s.moveOf k ver false = some m)
    (hkind : m.kind = .migrated c) (hway : (s.endMove k ver).mainWay k ver = some w)
    (hcopied : (((s.endMove k ver).touchHead w.ch w.set false).copyWays c fails
      (((s.endMove k ver).copiesOf k ver).filter fun x => x.repl == 0)).2 = true) :
    Published (s.migrate k ver fails) k ver (.migrated c) := by
  unfold State.migrate
  rw [hmove]
  dsimp only
  rw [hkind, hway]
  dsimp only
  rw [hcopied, Bool.not_true, if_neg Bool.false_ne_true]
  refine published_twinMoved (putRedir_published (s := s) ?_ _) _ _ _ c ((s.endMove k ver).isDirty k ver) _
  exact (dropWays_skewOf ..).trans ((copyWays_skewOf ..).trans (touchHead_skewOf ..))

theorem replicate_publishes {s s1 : State} {k : Key} {ver h n : Nat} {fails : WbFails} {m : Move} {b : Table} {g : Grade} {bytes : Bytes}
    (hmove : s.moveOf k ver true = some m) (hkind : m.kind = .replicated h n) (htable : s.table (keyTbl k) = some b)
    (hdata : (s.endMove k ver).replicaData b k ver = (s1, some (g, bytes)))
    (hadded : (s1.addReplicas k ver h g bytes fails ((List.range n).filter fun i =>
      i != 0 && !((((s.endMove k ver).replicasOf k ver).map (·.repl)).contains i))).2 = true) :
    Published (s.replicate k ver fails) k ver (.replicated h n) := by
  have hkept : skewOf s1 = skewOf (s.endMove k ver) := by
    rw [← replicaData_skewOf (s.endMove k ver) b k ver, hdata]
  unfold State.replicate
  rw [hmove, htable]
  dsimp only
  rw [hkind]
  dsimp only
  rw [hdata]
  dsimp only
  rw [if_pos hadded]
  exact (putRedir_published ((addReplicas_skewOf ..).trans hkept) _).of_same rfl rfl

end Sys2Proof.Proofs
end

section
/-!
PROOFS. O41, aging and load (R279, R281 to R283, R288); and O41 itself. That CRH_CACHE_CTL and the bands of BANDS are in force from the sweep on,
and CRH_SKEW_CTL from the interval's end on, is R146 and R292 as log entry 113 (DEDUCED) reads them.
-/

namespace Sys2Proof.Proofs

open Sys2Proof Sys2Proof.Machine Sys2Proof.Laws

/-! ## AGING_SWEEP (R279, R146, R292) -/

theorem mget_map {α β : Type} (f : α → β) (m : SMap α) (k : Nat) : mget (m.map fun e => (e.1, f e.2)) k = (mget m k).map f := by
  induction m with
  | nil => rfl
  | cons e m ih =>
    rw [List.map_cons, mget, mget]
    split
    · rfl
    · exact ih

/-- What a sweep halves or puts in force: it reads every head, and queues regrades, before it changes any of this. -/
def agedOf (s : State) : List Way × SMap Nat × SMap Table := (s.ch.ways, s.ch.sketch, s.tb.tables)

theorem sweepHeads_agedOf (s : State) (skip : List (Nat × Nat)) (ch : Nat) : agedOf (s.sweepHeads skip ch) = agedOf s := by
  unfold State.sweepHeads
  dsimp only
  split <;> rfl

theorem ageRow_agedOf (s : State) (w : Way) : agedOf (s.ageRow w) = agedOf s := by
  unfold State.ageRow
  split
  · rfl
  · dsimp only
    split <;> rfl

/-- Of the cache, the heads that are written back change in the head caches alone, where they are changed no more. -/
theorem writeHeads_ch (s : State) (passed : List (Nat × Nat)) :
    (s.writeHeads passed).ch = { s.ch with heads := s.ch.heads.map fun h => (h.1, h.2.1, false) } :=
  congrArg (fun c : Cache => { c with heads := c.heads.map fun h : Nat × Nat × Bool => (h.1, h.2.1, false) })
    (forEach_keeps (P := fun u => u.ch = s.ch) _ (fun _ _ _ hu => (noteWrite_ch ..).trans hu) s rfl)

theorem writeHeads_tb (s : State) (passed : List (Nat × Nat)) : (s.writeHeads passed).tb = s.tb :=
  same_of_hide (writeHeads_hide (M := butZone .tb) rfl rfl rfl ..) .tb rfl

theorem agingSweep_ages (s : State) : s.agingSweep.ch.ways = s.ch.ways.filterMap Way.halve ∧
    s.agingSweep.ch.sketch = (s.ch.sketch.map fun e => (e.1, e.2 / 2)).filter (fun e => e.2 != 0) ∧ s.agingSweep.ch.fullTold = false ∧
    s.agingSweep.ch.ctlNow = s.cfg Reg.cacheCtl ∧ s.agingSweep.tb.tables = s.tb.tables.map fun e => (e.1, Table.newBands e.2) := by
  have hswept : ∀ (mains : List Way) (chs : List Nat) (u : State),
      agedOf (State.forEach State.ageRow mains (State.forEach (fun v c => v.sweepHeads [] c) chs u)) = agedOf u := fun mains chs u =>
    forEach_keeps (P := fun v => agedOf v = agedOf u) mains (fun _ _ _ hv => (ageRow_agedOf ..).trans hv) _
      (forEach_keeps (P := fun v => agedOf v = agedOf u) chs (fun _ _ _ hv => (sweepHeads_agedOf ..).trans hv) u rfl)
  unfold State.agingSweep
  dsimp only
  rw [count_ch, count_tb, writeHeads_ch, writeHeads_tb]
  refine ⟨congrArg (fun a => a.1.filterMap Way.halve) (hswept ..), ?_, rfl, rfl, congrArg (fun a => a.2.2) (hswept ..)⟩
  exact congrArg (fun a => (a.2.1.map fun e => (e.1, e.2 / 2)).filter fun e => e.2 != 0) (hswept ..)

theorem agingSweep_table {s : State} {h : Nat} {b : Table} (htable : s.table h = some b) :
    s.agingSweep.table h = some (Table.newBands b) := by
  obtain ⟨-, -, -, -, htables⟩ := agingSweep_ages s
  unfold State.table at htable ⊢
  rw [htables, mget_map, htable]
  rfl

/-! ## LOAD_INTERVAL_END (R281, R282, R283, R288, R292) -/

/-- A channel's figures for the interval that ends, of `total` lines over all channels. -/
def figures (s : State) (total ch : Nat) : Load :=
  let x := s.loadOf ch
  let busy := x.busy s.intClocks
  let hot := decide (s.bankHot ≤ busy) || decide (s.hotPct * total ≤ x.lines * 100 * s.chans)
  { lines := 0, banks := [], lastLines := x.lines, lastBusy := busy, hot := hot, run := if hot then x.run + 1 else 0 }

/-- To measure a channel is to put its figures in place of what was counted. -/
theorem measure_ch (s : State) (total ch : Nat) :
    (s.measure total ch).ch = { s.ch with loads := mset s.ch.loads ch (figures s total ch) } := by
  unfold State.measure
  dsimp only
  rw [apply_ite State.ch, tell_ch, ite_self]
  rfl

theorem measure_fuses (s : State) (total ch : Nat) : (s.measure total ch).fuses = s.fuses :=
  same_of_hide (measure_hide (M := butZone .fuses) rfl rfl ..) .fuses rfl

theorem loadOf_measure (s : State) (total ch c : Nat) :
    (s.measure total ch).loadOf c = if c = ch then figures s total ch else s.loadOf c := by
  unfold State.loadOf
  rw [measure_ch]
  split
  next h => rw [h, mgetD_mset_self]
  next h => rw [mgetD_mset_ne _ _ _ _ _ (Ne.symm h)]

/-- The figures of a channel are its own: those of another that is measured before it change nothing. -/
theorem figures_measure {ch c : Nat} (s : State) (total : Nat) (h : c ≠ ch) : figures (s.measure total ch) total c = figures s total c := by
  unfold figures State.intClocks State.bankHot State.hotPct State.chans
  rw [loadOf_measure, if_neg h, measure_ch, measure_fuses]

theorem loadOf_forEach_measure {l : List Nat} (hl : l.Nodup) (s : State) (total c : Nat) :
    (State.forEach (fun u ch => u.measure total ch) l s).loadOf c = if c ∈ l then figures s total c else s.loadOf c := by
  induction l generalizing s with
  | nil => rfl
  | cons a l ih =>
    obtain ⟨ha, hl⟩ := List.nodup_cons.mp hl
    rw [State.forEach, ih hl, loadOf_measure]
    by_cases hc : c = a
    · rw [hc, if_neg ha, if_pos rfl, if_pos List.mem_cons_self]
    · rw [figures_measure s total hc, if_neg hc]
      simp only [List.mem_cons, hc, false_or]

theorem beginMove_loads (s : State) (k : Key) (ver : Nat) (kind : RedirKind) : (s.beginMove k ver kind).1.ch.loads = s.ch.loads := by
  unfold State.beginMove State.redirRefuse
  dsimp only
  split
  · split <;> rfl
  · rfl

theorem adjust_loads (s : State) (r : Redir) : (s.adjust r).ch.loads = s.ch.loads := by
  unfold State.adjust
  split
  · rfl
  · dsimp only
    generalize (if r.lowN = _ then r.low + 1 else 1) = low
    split
    · rfl
    split
    · split
      · rfl
      · exact beginMove_loads ..
    split
    · exact dropReplicas_loads ..
    · rfl

theorem actOn_loads (s : State) (given : Given) (src : Nat) (x : Track) : (s.actOn given src x).1.ch.loads = s.ch.loads := by
  unfold State.actOn
  dsimp only
  split
  · rfl
  split
  · exact beginMove_loads ..
  split
  · rfl
  split
  · rfl
  · exact beginMove_loads ..

theorem actAll_loads (s : State) (given : Given) (src left : Nat) (l : List Track) :
    (s.actAll given src left l).1.ch.loads = s.ch.loads := by
  induction l generalizing s given left with
  | nil => cases left <;> rfl
  | cons x l ih =>
    cases left with
    | zero => rfl
    | succ left =>
      rw [State.actAll]
      exact (ih ..).trans (actOn_loads ..)

theorem actHot_loads (s : State) (given : Given) (l : List Nat) : (s.actHot given l).ch.loads = s.ch.loads := by
  induction l generalizing s given with
  | nil => rfl
  | cons c l ih =>
    rw [State.actHot]
    split
    · exact (ih ..).trans (actAll_loads ..)
    · exact ih ..

/-- After an interval's end each channel has its figures: what is done about them counts no line. -/
theorem intervalEnd_loadOf {s : State} {c : Nat} (hc : c < s.chans) : s.intervalEnd.loadOf c = figures s s.allLines c := by
  have hacted : s.intervalEnd.ch.loads = (State.forEach (fun u ch => u.measure s.allLines ch) (List.range s.chans) s).ch.loads := by
    unfold State.intervalEnd
    dsimp only
    rw [onCh_ch]
    split
    · exact (actHot_loads ..).trans
        (forEach_keeps (P := fun u => u.ch.loads = _) _ (fun _ _ _ hu => (adjust_loads ..).trans hu) _ rfl)
    · rfl
  have hmeasured := loadOf_forEach_measure (l := List.range s.chans) List.nodup_range s s.allLines c
  rw [if_pos (List.mem_range.mpr hc)] at hmeasured
  rw [← hmeasured]
  unfold State.loadOf
  rw [hacted]

/-- Settles O41: what a sweep and an interval's end do before and after they age or measure leaves ways, sketches, bands and figures alone, and
what a publication does before and after its redirect entry is put begins no move and takes no entry away. -/
theorem loadIsMeasuredAndMoved : Obligations.LoadIsMeasuredAndMoved := by
  unfold Obligations.LoadIsMeasuredAndMoved
  refine ⟨?_, ?_, ?_, ?_⟩
  · intro s
    obtain ⟨hways, hsketch, htold, hctl, -⟩ := agingSweep_ages s
    exact ⟨_, rfl, hways, hsketch, htold, hctl, fun h b => agingSweep_table⟩
  · intro s
    refine ⟨_, rfl, rfl, rfl, fun c hc => ?_⟩
    rw [intervalEnd_loadOf hc]
    exact ⟨fun _ => rfl, rfl, rfl, rfl⟩
  · intro tbl ver row c fails m w s hmove hkind hway hcopied
    exact ⟨_, rfl, migrate_publishes hmove hkind hway hcopied⟩
  · intro tbl ver row h n fails m b g bytes s1 s hmove hkind htable hdata hadded
    exact ⟨_, rfl, replicate_publishes hmove hkind htable hdata hadded⟩

end Sys2Proof.Proofs
end

section
/-!
PROOFS. Ground store's bytes stay in canonical form (O4): the form that each command with Ground store's bytes in its frame keeps, put
together over the commands.
-/

namespace Sys2Proof.Proofs

open Sys2Proof Sys2Proof.Machine Sys2Proof.Laws

/-- A command whose frame leaves Ground store's bytes out changes none of them. -/
theorem exec_mem {c : Instr} {s t : State} (hrest : mayRest c = false) (hmem : (zonesOf c).contains .mem = false)
    (h : exec c s = .next t) : t.gs.mem = s.gs.mem :=
  same_of_hide (exec_keeps (by rw [hrest, Bool.and_false]) h) .mem hmem

/-- A command keeps the canonical form: one that writes bytes by its own lemma, any other because it leaves the bytes as they were. -/
theorem exec_canon {c : Instr} {s t : State} (hs : Canon (hide butMem s)) (h : exec c s = .next t) : Canon (hide butMem t) := by
  cases c with
  | disable => exact execDisable_canon (e := h) (hs := hs)
  | pause => exact execPause_canon (e := h) (hs := hs)
  | reset => exact execReset_canon (e := h) (hs := hs)
  | descriptorReadReturn => exact execDescriptorReadReturn_canon (e := h) (hs := hs)
  | completionRecordWrite => exact execCompletionRecordWrite_canon (e := h) (hs := hs)
  | tableLoadFill => exact execTableLoadFill_canon (e := h) (hs := hs)
  | tablePinFromBacking => exact execTablePinFromBacking_canon (e := h) (hs := hs)
  | tablePinFromSrc => exact execTablePinFromSrc_canon (e := h) (hs := hs)
  | rowRange => exact execRowRange_canon (e := h) (hs := hs)
  | willneed => exact execWillneed_canon (e := h) (hs := hs)
  | hostLinkDown => exact execHostLinkDown_canon (e := h) (hs := hs)
  | functionLevelReset => exact execFunctionLevelReset_canon (e := h) (hs := hs)
  | regrade => exact execRegrade_canon (e := h) (hs := hs)
  | runAheadScan => exact execRunAheadScan_canon (e := h) (hs := hs)
  | rowDelivery => exact execRowDelivery_canon (e := h) (hs := hs)
  | pillowReserve => exact execPillowReserve_canon (e := h) (hs := hs)
  | remoteContribution => exact execRemoteContribution_canon (e := h) (hs := hs)
  | batchDiscard => exact execBatchDiscard_canon (e := h) (hs := hs)
  | batchAck => exact execBatchAck_canon (e := h) (hs := hs)
  | remoteAckTimeout => exact execRemoteAckTimeout_canon (e := h) (hs := hs)
  | couchingRmw => exact execCouchingRmw_canon (e := h) (hs := hs)
  | tier2RmwRetry => exact execTier2RmwRetry_canon (e := h) (hs := hs)
  | twinSpaceGrant => exact execTwinSpaceGrant_canon (e := h) (hs := hs)
  | cacheWayGrant => exact execCacheWayGrant_canon (e := h) (hs := hs)
  | migrationPublish => exact execMigrationPublish_canon (e := h) (hs := hs)
  | replicationPublish => exact execReplicationPublish_canon (e := h) (hs := hs)
  | thermalSample => exact execThermalSample_canon (e := h) (hs := hs)
  | retentionStep => exact execRetentionStep_canon (e := h) (hs := hs)
  | thermalTrip => exact execThermalTrip_canon (e := h) (hs := hs)
  | bankStuck => exact execBankStuck_canon (e := h) (hs := hs)
  | rowRepair => exact execRowRepair_canon (e := h) (hs := hs)
  | bankRepair => exact execBankRepair_canon (e := h) (hs := hs)
  | replace => exact execReplace_canon (e := h) (hs := hs)
  | channelSwitch => exact execChannelSwitch_canon (e := h) (hs := hs)
  | marginCheck => exact execMarginCheck_canon (e := h) (hs := hs)
  | scrub => exact execScrub_canon (e := h) (hs := hs)
  | pllFault => exact execPllFault_canon (e := h) (hs := hs)
  | refLossTimeout => exact execRefLossTimeout_canon (e := h) (hs := hs)
  | pllAonFault => exact execPllAonFault_canon (e := h) (hs := hs)
  | pmhRaise => exact execPmhRaise_canon (e := h) (hs := hs)
  | pmhLower => exact execPmhLower_canon (e := h) (hs := hs)
  | pmhEnterStandby => exact execPmhEnterStandby_canon (e := h) (hs := hs)
  | pmhLeaveStandby => exact execPmhLeaveStandby_canon (e := h) (hs := hs)
  | pmhOff => exact execPmhOff_canon (e := h) (hs := hs)
  | pmhEmergRelease => exact execPmhEmergRelease_canon (e := h) (hs := hs)
  | pmhStepGnt => exact execPmhStepGnt_canon (e := h) (hs := hs)
  | powerGood => exact execPowerGood_canon (e := h) (hs := hs)
  | blockResetCmd => exact execBlockResetCmd_canon (e := h) (hs := hs)
  | coreWatchdogExpiry => exact execCoreWatchdogExpiry_canon (e := h) (hs := hs)
  | mpuFault => exact execMpuFault_canon (e := h) (hs := hs)
  | activationHealthWatch => exact execActivationHealthWatch_canon (e := h) (hs := hs)
  | activationDeferEnd => exact execActivationDeferEnd_canon (e := h) (hs := hs)
  | coreRestart => exact execCoreRestart_canon (e := h) (hs := hs)
  | imgActivate => exact execImgActivate_canon (e := h) (hs := hs)
  | imgRevert => exact execImgRevert_canon (e := h) (hs := hs)
  | rowRecovery => exact execRowRecovery_canon (e := h) (hs := hs)
  | qxHandover => exact execQxHandover_canon (e := h) (hs := hs)
  | inboundFabricError => exact execInboundFabricError_canon (e := h) (hs := hs)
  | powerLoss => exact execPowerLoss_canon (e := h) (hs := hs)
  | referenceReturn => exact execReferenceReturn_canon (e := h) (hs := hs)
  | fabricCreditReturn => exact execFabricCreditReturn_canon (e := h) (hs := hs)
  | reservedStateRequest => exact execReservedStateRequest_canon (e := h) (hs := hs)
  | doubleFault => exact execDoubleFault_canon (e := h) (hs := hs)
  | _ => exact (canon_iff _).mpr ((exec_mem rfl rfl h).symm ▸ (canon_iff s).mp hs)

/-- Settles O4: an idle step advances the timestamp alone, and every command keeps the canonical form. -/
theorem everyStepKeepsGroundStoreCanonical : Obligations.EveryStepKeepsGroundStoreCanonical := by
  unfold Obligations.EveryStepKeepsGroundStoreCanonical
  intro s t hwf h
  unfold step at h
  split at h
  · cases h
    exact hwf
  · next c rest hpending =>
    have hcanon : Canon (hide butMem { s with pending := rest }) := hwf
    exact exec_canon hcanon h

end Sys2Proof.Proofs
end

section
/-!
PROOFS. What accesses to Ground store leave as it was. They queue requests and keep the write-combining buffer, and they count; every other
part of Ground store's state, its maps, channels and actions, stays. The event queue only grows, by no more events than the counters of these
accesses can still raise (R308, R309, R353).
-/

namespace Sys2Proof.Proofs

open Sys2Proof Sys2Proof.Machine Sys2Proof.Laws

/-! ## Telemetry -/

theorem op_grows (t : Telem) (o : TelOp) : t.evq <+: (t.op o).1.evq := by
  have htake : ∀ r, t.evq <+: (t.take r).1.evq := fun r => (take_queue t r).1 ▸ List.prefix_rfl
  cases o with
  | count off n =>
    unfold Telem.op
    dsimp only
    split <;> exact List.prefix_rfl
  | event e =>
    unfold Telem.op
    dsimp only
    split
    · split
      · exact List.prefix_rfl
      · exact List.prefix_append ..
    · exact List.prefix_rfl
  | log core kind sev code args =>
    unfold Telem.op
    dsimp only
    split
    · exact htake _
    · split <;> exact List.prefix_rfl
  | put r => exact htake r
  | drain => exact List.prefix_rfl

theorem run_grows (f : Nat) (ops : List TelOp) (t : Telem) : t.evq <+: (Telem.run f ops t).evq := by
  induction f generalizing ops t with
  | zero => exact List.prefix_rfl
  | succ f ih =>
    cases ops with
    | nil => exact List.prefix_rfl
    | cons o ops => exact (op_grows t o).trans (ih _ _)

/-- What telemetry is told only adds to the event queue. -/
theorem tell_grows (s : State) (ops : List TelOp) : s.tel.evq <+: (s.tell ops).tel.evq := run_grows 20000 ops s.tel

/-- The counters of accesses and of channel actions: 12, with 24 events between them. -/
def actionCounters : List Nat :=
  [Ctr.gsLinesRead, Ctr.gsLinesWritten, Ctr.parGs, Ctr.wcRmw, Ctr.wcMerges, Ctr.heldReplayed, Ctr.refreshBursts, Ctr.chFolded,
    Ctr.auditRecords] ++ ownCounters

theorem own_mem_actionCounters : ∀ c ∈ ownCounters, c ∈ actionCounters := by decide

/-- From one telemetry state to another, at most n events have been told of besides those of the counters of actions. -/
structure Tells (n : Nat) (t u : Telem) : Prop where
  ring  : u.evtRing = t.evtRing
  grows : t.evq <+: u.evq
  bound : u.evq.length + clearOn actionCounters u ≤ n + (t.evq.length + clearOn actionCounters t)

theorem Tells.refl (t : Telem) : Tells 0 t t := ⟨rfl, List.prefix_rfl, Nat.le_add_left _ _⟩

theorem Tells.trans {m n : Nat} {t u v : Telem} (h : Tells m t u) (h' : Tells n u v) : Tells (m + n) t v := by
  obtain ⟨hring, hgrows, hbound⟩ := h
  obtain ⟨hring', hgrows', hbound'⟩ := h'
  exact ⟨hring'.trans hring, hgrows.trans hgrows', by omega⟩

theorem tell_tells (s : State) (ops : List TelOp) (hcalm : ∀ o ∈ ops, Calm actionCounters o) (hfew : sumBy opWeight ops ≤ 19000) :
    Tells (sumBy opEvents ops) s.tel (s.tell ops).tel := by
  have hlen : actionCounters.length = 12 := rfl
  obtain ⟨hring, hgrows, hbound⟩ := tell_queues own_mem_actionCounters s ops hcalm (by omega)
  refine ⟨hring, hgrows, ?_⟩
  simp only [queueBound, sumBy] at hbound
  omega

/-! ## Ground store's state -/

/-- Ground store's state but its bytes, its requests and the write-combining buffer: what accesses leave as it was. -/
def storeMaps (s : State) : Ground := { s.gs with mem := [], queues := [], wc := [], wcWait := [] }

/-- Ground store's maps, channels and actions are the same, and the event queue has only grown. -/
structure Stays (s t : State) : Prop where
  maps  : storeMaps t = storeMaps s
  grows : s.tel.evq <+: t.tel.evq

/-- As `Stays`, with at most n events told of besides those of the counters of actions. -/
structure Works (n : Nat) (s t : State) : Prop where
  maps  : storeMaps t = storeMaps s
  tells : Tells n s.tel t.tel

theorem Works.stays {n : Nat} {s t : State} (h : Works n s t) : Stays s t := ⟨h.maps, h.tells.grows⟩

theorem Works.refl (s : State) : Works 0 s s := ⟨rfl, .refl _⟩

theorem Works.trans {m n : Nat} {s t u : State} (h : Works m s t) (h' : Works n t u) : Works (m + n) s u :=
  ⟨h'.maps.trans h.maps, h.tells.trans h'.tells⟩

theorem Works.of_maps {s t : State} (hmaps : storeMaps t = storeMaps s) (htel : t.tel = s.tel) : Works 0 s t :=
  ⟨hmaps, htel ▸ .refl _⟩

/-- Every part but Ground store and telemetry. -/
def butStoreTel : Mask := fun z => !([Zone.gs, .mem, .tel].contains z)

theorem Works.of_hide {s t : State} (h : hide butStoreTel t = hide butStoreTel s) : Works 0 s t := by
  have hstore := congrArg State.gs h
  have hgs : t.gs = s.gs := hstore
  exact .of_maps (by rw [storeMaps, storeMaps, hgs]) (same_of_hide h .tel rfl)

theorem Works.forEach {α : Type} {f : State → α → State} (h : ∀ s a, Works 0 s (f s a)) (l : List α) (s : State) :
    Works 0 s (State.forEach f l s) :=
  forEach_keeps (P := Works 0 s) l (fun u a _ hu => hu.trans (h u a)) s (.refl s)

theorem tell_works (s : State) (ops : List TelOp) (hcalm : ∀ o ∈ ops, Calm actionCounters o) (hfew : sumBy opWeight ops ≤ 19000) :
    Works (sumBy opEvents ops) s (s.tell ops) := ⟨rfl, tell_tells s ops hcalm hfew⟩

theorem countN_works (s : State) {off : Nat} (h : off ∈ actionCounters) (n : Nat) : Works 0 s (s.countN off n) :=
  tell_works s [.count off n] (calm_cons h (calm_nil _)) (Nat.le_of_ble_eq_true rfl)

theorem count_works (s : State) {off : Nat} (h : off ∈ actionCounters) : Works 0 s (s.count off) := countN_works s h 1

/-! ## Requests and the write-combining buffer -/

theorem askRaw_works (s : State) (ch bank line : Nat) (write bobbin : Bool) : Works 0 s (s.askRaw ch bank line write bobbin) := by
  unfold State.askRaw
  split
  · exact countN_works s (by decide) _
  · exact .of_maps rfl rfl

theorem writeTo_works (s : State) (c : ChCopy) (x : Nat) : Works 0 s (s.writeTo c x) := by
  unfold State.writeTo
  split
  · exact askRaw_works ..
  · exact count_works s (by decide)

theorem dualWrite_works (s : State) (ch bank line : Nat) : Works 0 s (s.dualWrite ch bank line) := by
  refine Works.forEach (fun u c => ?_) _ s
  split
  · split
    · exact writeTo_works ..
    · exact .refl u
  · exact .refl u

theorem askBank_works (s : State) (ch bank line : Nat) (write bobbin : Bool) : Works 0 s (s.askBank ch bank line write bobbin) := by
  unfold State.askBank
  dsimp only
  split
  · exact (askRaw_works ..).trans (dualWrite_works ..)
  · exact askRaw_works ..

theorem ask_works (s : State) (ch pocket i : Nat) (write bobbin : Bool) : Works 0 s (s.ask ch pocket i write bobbin) := askBank_works ..

theorem retireWc_works (s : State) (e : WcEntry) : Works 0 s (s.retireWc e) := by
  have hwc : ∀ f : List WcEntry → List WcEntry, Works 0 s (s.onGs fun g => { g with wc := f g.wc }) := fun _ => .of_maps rfl rfl
  unfold State.retireWc
  dsimp only
  refine (((hwc fun l => _).trans (askBank_works ..)).trans (askBank_works ..)).trans (count_works _ (by decide))

theorem trimWc_works (s : State) (ch : Nat) : Works 0 s (s.trimWc ch) := by
  unfold State.trimWc
  split
  · exact .refl s
  split
  · exact retireWc_works ..
  · exact .refl s

theorem combine_works (s : State) (ch bank line : Nat) (mask : BitVec 32) : Works 0 s (s.combine ch bank line mask) := by
  have hmerge : Works 0 s (s.count Ctr.wcMerges) := count_works s (by decide)
  have hwc : ∀ (u : State) (f : List WcEntry → List WcEntry), Works 0 u (u.onGs fun g => { g with wc := f g.wc }) :=
    fun _ _ => .of_maps rfl rfl
  unfold State.combine
  split
  · dsimp only
    split
    · exact (hmerge.trans (hwc _ fun l => l.filter _)).trans (askBank_works ..)
    · exact hmerge.trans (hwc _ fun l => l.map _)
  · dsimp only
    split
    · exact .of_maps rfl rfl
    · exact (hwc s fun l => l ++ _).trans (trimWc_works ..)

theorem wcNext_works (s : State) (ch : Nat) : Works 0 s (s.wcNext ch) := by
  unfold State.wcNext
  split
  · exact .refl s
  · next e _ =>
    split
    · exact .refl s
    · exact (Works.of_maps rfl rfl : Works 0 s (s.onGs fun g => { g with wcWait := g.wcWait.erase e })).trans (combine_works ..)

theorem noteWrite_works (s : State) (ch pocket a b : Nat) : Works 0 s (s.noteWrite ch pocket a b) := by
  have hwc : ∀ (u : State) (f h : List WcEntry → List WcEntry), Works 0 u (u.onGs fun g => { g with wc := f g.wc, wcWait := h g.wcWait }) :=
    fun _ _ _ => .of_maps rfl rfl
  refine Works.forEach (fun u i => ?_) _ s
  dsimp only
  split
  · exact .refl u
  split
  · exact (hwc u (fun l => l.filter _) fun l => l.filter _).trans (askBank_works ..)
  · exact combine_works ..

theorem noteRead_works (s : State) (ch pocket a b : Nat) (bobbin : Bool) : Works 0 s (s.noteRead ch pocket a b bobbin) := by
  refine Works.forEach (fun u i => ?_) _ s
  split
  · exact ask_works ..
  · exact .refl u

end Sys2Proof.Proofs
end

section
/-!
PROOFS. O42: a channel's scheduler, its refresh bursts, and the age limit of the write-combining buffer (R301, R303, R309).
-/

namespace Sys2Proof.Proofs

open Sys2Proof Sys2Proof.Machine Sys2Proof.Laws

/-! ## Schedulers and physical channels -/

@[simp] theorem sched_setSched (s : State) (ch : Nat) (c : Sched) : (s.setSched ch c).sched ch = c := mgetD_mset_self ..

theorem sched_of_scheds {s t : State} (h : t.gs.scheds = s.gs.scheds) (ch : Nat) : t.sched ch = s.sched ch := by
  unfold State.sched
  rw [h]

@[simp] theorem phys_onPhys (s : State) (p : Nat) (f : Phys → Phys) : (s.onPhys p f).phys p = f (s.phys p) := mgetD_mset_self ..

theorem phys_onPhys_ne (s : State) {p q : Nat} (h : p ≠ q) (f : Phys → Phys) : (s.onPhys p f).phys q = s.phys q :=
  mgetD_mset_ne _ _ _ _ _ h

theorem phys_of_phys {s t : State} (h : t.gs.phys = s.gs.phys) (p : Nat) : t.phys p = s.phys p := by
  unfold State.phys
  rw [h]

/-! ## One request -/

theorem wcNext_idle {s : State} {ch : Nat} (h : ∀ e ∈ s.gs.wcWait, e.ch ≠ ch) : s.wcNext ch = s := by
  have hnone : s.gs.wcWait.find? (fun e => e.ch == ch) = none :=
    List.find?_eq_none.mpr fun e he hch => h e he (beq_iff_eq.mp hch)
  unfold State.wcNext
  rw [hnone]

theorem copyStep_idle {s : State} (h : s.gs.copies = []) (ch clock : Nat) : s.copyStep ch clock = s := by
  have hnone : s.copyNow ch clock = none := by
    unfold State.copyNow
    rw [h]
    split <;> rfl
  unfold State.copyStep
  rw [hnone]

theorem throttleOpen_none (clock : Nat) : throttleOpen 0 clock = true := by
  unfold throttleOpen
  rw [Nat.sub_zero, Nat.mul_mod_left]
  rfl

/-- An access leaves its queue and makes its bank busy for 16 clocks; nothing waits for the buffer entry that it may free. -/
theorem issueReq_issues {s : State} {c : Sched} {r : Req} (hwait : ∀ e ∈ s.gs.wcWait, e.ch ≠ r.ch) :
    (s.issueReq c r).gs.queues = delFirst (fun x => x == r) s.gs.queues ∧
      (s.issueReq c r).sched r.ch =
        { c with batch := c.batch + 1, run := c.run + 1, busy := mset c.busy r.bank (c.clock + 16) } := by
  unfold State.issueReq State.wcFree
  dsimp only
  rw [wcNext_idle (by split <;> exact hwait)]
  split <;> exact ⟨rfl, sched_setSched ..⟩

/-- The one request of a channel, where its bank is free and it needs neither a turn nor another tier, issues: by its age, or in order. -/
theorem schedule_issues {s : State} {ch : Nat} {c : Sched} {r : Req} (hq : (s.gs.queues.filter fun x => x.ch == ch) = [r])
    (hdir : r.write = c.writing) (htier : r.bank / 30 = c.tier) (hfree : c.bankFree r.bank = true) :
    ∃ run aged, s.schedule ch c = (s.issueReq { c with run := run } r).countN Ctr.agePromoted aged := by
  have htake : ∀ run aged, s.takeReq { c with run := run } r aged =
      (s.issueReq { c with run := run } r).countN Ctr.agePromoted (b2n aged) := fun run aged => by
    unfold State.takeReq
    rw [if_neg (not_not_intro hdir), if_neg (not_not_intro htier)]
  have hheld : queueHeld [r] = [r] := rfl
  have hready : (lineHeads [r] []).filter (fun x => c.bankFree x.bank) = [r] := List.filter_cons_of_pos hfree
  have hhere : [r].filter (fun x => x.write == c.writing) = [r] := List.filter_cons_of_pos (beq_iff_eq.mpr hdir)
  have hsame : [r].filter (fun x => x.bank / 30 == c.tier) = [r] := List.filter_cons_of_pos (beq_iff_eq.mpr htier)
  have hother : [r].any (fun x => x.write != c.writing) = false := by
    rw [List.any_cons, hdir, bne_self_eq_false]
    rfl
  unfold State.schedule
  dsimp only
  rw [hq, hheld, hready, hhere, hsame, hother]
  split
  · next x hfind =>
    obtain rfl : x = r := List.mem_singleton.mp (List.mem_of_find?_eq_some hfind)
    exact ⟨c.run, _, htake c.run true⟩
  · rw [Bool.false_and, if_neg Bool.false_ne_true, List.isEmpty_cons, Bool.not_false, Bool.and_true, List.head?_cons, ite_self]
    dsimp only
    split
    · exact ⟨c.run, _, htake c.run false⟩
    · exact ⟨0, _, htake 0 false⟩

/-- The scheduler one store clock later. -/
def ticked (c : Sched) : Sched := { c with clock := c.clock + 1 }

/-- One store clock of a channel with one request, in which nothing bars it. -/
theorem bankClock_issues {s : State} {ch p : Nat} {r : Req} (hq : (s.gs.queues.filter fun x => x.ch == ch) = [r])
    (hdir : r.write = (s.sched ch).writing) (htier : r.bank / 30 = (s.sched ch).tier)
    (hbusy : mgetD (s.sched ch).busy r.bank 0 ≤ (s.sched ch).clock + 1) (hfree : (s.sched ch).free ≤ (s.sched ch).clock + 1)
    (hburst : (s.sched ch).clock + 1 < (s.sched ch).burst + (s.sched ch).ival) (hthrottle : (s.phys p).throttle = 0)
    (hemerg : s.emergLevel = 0) (hwait : ∀ e ∈ s.gs.wcWait, e.ch ≠ ch) (hcopies : s.gs.copies = []) :
    (s.bankClock ch p).gs.queues = delFirst (fun x => x == r) s.gs.queues ∧
      ((s.bankClock ch p).sched ch).clock = (s.sched ch).clock + 1 ∧
      mgetD ((s.bankClock ch p).sched ch).busy r.bank 0 = (s.sched ch).clock + 17 := by
  have hch : r.ch = ch := by
    have hmem : r ∈ s.gs.queues.filter fun x => x.ch == ch := hq ▸ List.mem_cons_self
    exact beq_iff_eq.mp (List.mem_filter.mp hmem).2
  have hlevel : max (s.phys p).level s.emergLevel = 0 := by
    unfold Phys.level
    rw [if_pos hthrottle, hemerg]
    rfl
  obtain ⟨run, aged, heq⟩ := schedule_issues (s := s.countN Ctr.throttleClocks 0) (c := ticked (s.sched ch)) hq hdir htier
    (decide_eq_true hbusy)
  have hclock : s.bankClock ch p = (s.countN Ctr.throttleClocks 0).schedule ch (ticked (s.sched ch)) := by
    unfold State.bankClock
    dsimp only
    rw [hlevel, throttleOpen_none, decide_eq_false (Nat.not_lt.mpr hfree), decide_eq_false (Nat.not_le.mpr hburst),
      copyStep_idle (by exact hcopies)]
    rfl
  subst hch
  obtain ⟨hqueues, hsched⟩ := issueReq_issues (s := s.countN Ctr.throttleClocks 0) (c := { ticked (s.sched r.ch) with run := run }) hwait
  rw [hclock, heq]
  refine ⟨hqueues, congrArg Sched.clock hsched, (congrArg (fun c => mgetD c.busy r.bank 0) hsched).trans ?_⟩
  exact mgetD_mset_self ..

/-! ## Refresh -/

/-- A burst takes its channel for 16 clocks, moves on to the next array row, and sets the interval of the band in force. -/
theorem refresh_takes (s : State) (k p : Nat) :
    (s.refresh k p).sched k =
        { s.sched k with free := max (s.sched k).clock (s.sched k).free + 16, burst := (s.sched k).clock, ival := s.burstInt p } ∧
      ((s.refresh k p).phys p).row = ((s.phys p).row + 1) % 384 := by
  refine ⟨sched_setSched .., ?_⟩
  change ((State.onPhys _ p fun x => { x with row := (x.row + 1) % 384 }).phys p).row = _
  rw [phys_onPhys]
  rfl

theorem refreshDue_served {s : State} {p l : Nat} (habsent : (s.phys p).state ≠ .absent) (hfailed : (s.phys p).state ≠ .failed)
    (htraining : (s.phys p).state ≠ .training) (hl : s.lchOf p = some l) (hdue : (s.sched l).burst + (s.sched l).ival ≤ (s.sched l).clock) :
    s.refreshDue p = s.refresh l p := by
  unfold State.refreshDue State.schedOf
  rw [hl]
  dsimp only [Option.getD_some]
  split
  · contradiction
  · contradiction
  · contradiction
  · exact if_pos hdue
  · contradiction

theorem refreshDue_unserved {s : State} {p : Nat} (habsent : (s.phys p).state ≠ .absent) (hfailed : (s.phys p).state ≠ .failed)
    (htraining : (s.phys p).state ≠ .training) (hl : s.lchOf p = none) :
    s.refreshDue p =
      (s.setSched (256 + p) { s.sched (256 + p) with clock := (s.sched (256 + p)).burst + (s.sched (256 + p)).ival }).refresh (256 + p) p := by
  unfold State.refreshDue State.schedOf
  rw [hl]
  dsimp only [Option.getD_none]
  split
  · contradiction
  · contradiction
  · contradiction
  · contradiction
  · rfl

/-! ## The age limit of the write-combining buffer -/

/-- A request at the end of the queues. -/
def enqueue (s : State) (r : Req) : State := s.onGs fun g => { g with queues := g.queues ++ [r] }

theorem askBank_queues {s : State} {ch bank : Nat} (hlost : s.gs.lostBanks.contains (ch * 256 + bank) = false) (hcopies : s.gs.copies = [])
    (line : Nat) (write bobbin : Bool) :
    s.askBank ch bank line write bobbin =
      enqueue s { ch := ch, bank := bank, line := line, write := write, born := s.clockOf ch, bobbin := bobbin } := by
  have hdual : ∀ u : State, u.gs.copies = [] → u.dualWrite ch bank line = u := fun u hu => by
    unfold State.dualWrite
    rw [hu]
    rfl
  unfold State.askBank State.askRaw
  rw [hlost, if_neg Bool.false_ne_true]
  dsimp only
  split
  · exact hdual _ hcopies
  · rfl

/-- The access to an entry's line, one of the two by which it retires. -/
def lineReq (s : State) (e : WcEntry) (write : Bool) : Req :=
  { ch := e.ch, bank := e.bank, line := e.line, write := write, born := s.clockOf e.ch, bobbin := false }

/-- An entry is in use from the start of its retirement. -/
def markOut (s : State) (e : WcEntry) : State :=
  s.onGs fun g => { g with wc := g.wc.map fun x => if x = e then { x with out := true } else x }

/-- An entry whose bank is not lost retires by a read and a write of its line. -/
theorem retireWc_queues {s : State} {e : WcEntry} (hlost : s.gs.lostBanks.contains (e.ch * 256 + e.bank) = false)
    (hcopies : s.gs.copies = []) : s.retireWc e = (s.onGs fun g => { g with
        wc := g.wc.map fun x => if x = e then { x with out := true } else x,
        queues := g.queues ++ [lineReq s e false, lineReq s e true] }).count Ctr.wcRmw := by
  have hask : ∀ (u : State) (write : Bool), u.gs.lostBanks = s.gs.lostBanks → u.gs.copies = [] → u.clockOf e.ch = s.clockOf e.ch →
      u.askBank e.ch e.bank e.line write false = enqueue u (lineReq s e write) :=
    fun u write hbanks hnone hclock => by
      rw [askBank_queues (by rw [hbanks]; exact hlost) hnone, hclock]
      rfl
  have hretire : s.retireWc e =
      (((markOut s e).askBank e.ch e.bank e.line false false).askBank e.ch e.bank e.line true false).count Ctr.wcRmw := by
    unfold State.retireWc
    dsimp only
    rw [hlost]
    rfl
  rw [hretire, hask (markOut s e) false rfl hcopies rfl, hask (enqueue (markOut s e) _) true rfl hcopies rfl]
  unfold enqueue State.onGs
  simp only [List.append_assoc, List.singleton_append]
  rfl

/-- Settles O42, part by part: the scheduler, the burst of a channel that serves and of one that does not, and the age limit. -/
theorem banksAreScheduled : Obligations.BanksAreScheduled := by
  unfold Obligations.BanksAreScheduled
  refine ⟨?_, ?_, ?_, ?_⟩
  · intro ch p r s hp hq hdir htier hbusy hfree hburst hthrottle hemerg hwait hcopies
    have hexec : exec (.bankAccess ch) s = .next (s.bankClock ch p) := by
      change Host.Outcome.next _ = _
      rw [hp]
    exact ⟨_, hexec, bankClock_issues hq hdir htier hbusy hfree hburst hthrottle hemerg hwait hcopies⟩
  · intro p l s habsent hfailed htraining hl hdue
    have hexec : exec (.refreshBurst p) s = .next (s.refresh l p) :=
      congrArg Host.Outcome.next (refreshDue_served habsent hfailed htraining hl hdue)
    obtain ⟨hsched, hrow⟩ := refresh_takes s l p
    exact ⟨_, hexec, by rw [hsched], by rw [hsched], by rw [hsched], hrow⟩
  · intro p s habsent hfailed htraining hl
    have hexec : exec (.refreshBurst p) s = .next _ := congrArg Host.Outcome.next (refreshDue_unserved habsent hfailed htraining hl)
    obtain ⟨hsched, hrow⟩ := refresh_takes
      (s.setSched (256 + p) { s.sched (256 + p) with clock := (s.sched (256 + p)).burst + (s.sched (256 + p)).ival }) (256 + p) p
    refine ⟨_, hexec, ?_, ?_, hrow⟩
    · rw [hsched, sched_setSched]
    · rw [hsched]
      rfl
  · intro ch e s hold haged hlost hcopies hwait
    have hretire := retireWc_queues hlost hcopies
    have hexec : s.wcRetire ch = s.retireWc e := by
      unfold State.wcRetire
      rw [hold]
      dsimp only
      rw [if_pos haged, hretire]
      exact wcNext_idle hwait
    exact ⟨_, congrArg Host.Outcome.next hexec, by rw [hretire]; rfl, lineReq s e false, lineReq s e true, by rw [hretire]; rfl,
      rfl, rfl, rfl, rfl, rfl, rfl, rfl, rfl⟩

end Sys2Proof.Proofs
end

section
/-!
PROOFS. What copies that are read, placed, written back, dropped and rebuilt leave of Ground store: its maps, channels and actions stay, and
the event queue only grows (R256, R269 to R280, R302, R317, R318, Tables 118 and 120).
-/

namespace Sys2Proof.Proofs

open Sys2Proof Sys2Proof.Machine Sys2Proof.Laws

/-! ## Steps that stay -/

theorem Stays.refl (s : State) : Stays s s := ⟨rfl, List.prefix_rfl⟩

theorem Stays.trans {s t u : State} (h : Stays s t) (h' : Stays t u) : Stays s u :=
  ⟨h'.maps.trans h.maps, h.grows.trans h'.grows⟩

/-- A step that changes nothing of Ground store and telemetry, or nothing but bytes and requests. -/
theorem Stays.same {s t : State} (hmaps : storeMaps t = storeMaps s) (htel : t.tel = s.tel) : Stays s t :=
  (Works.of_maps hmaps htel).stays

theorem Stays.forEach {α : Type} {f : State → α → State} (h : ∀ s a, Stays s (f s a)) (l : List α) (s : State) :
    Stays s (State.forEach f l s) :=
  forEach_keeps (P := Stays s) l (fun u a _ hu => hu.trans (h u a)) s (.refl s)

theorem Stays.ite {α : Type} {c : Prop} [Decidable c] {a b : State × α} {s : State} (ha : Stays s a.1) (hb : Stays s b.1) :
    Stays s (if c then a else b).1 := by
  split
  · exact ha
  · exact hb

theorem tell_stays (s : State) (ops : List TelOp) : Stays s (s.tell ops) := ⟨rfl, tell_grows s ops⟩

theorem countN_stays (s : State) (off n : Nat) : Stays s (s.countN off n) := tell_stays ..

theorem count_stays (s : State) (off : Nat) : Stays s (s.count off) := tell_stays ..

theorem auditHw_stays (s : State) (action target : Nat) : Stays s (s.auditHw action target) := by
  unfold State.auditHw State.auditAdd
  split
  · split
    · exact .refl s
    · refine Stays.trans ?_ (tell_stays ..)
      exact .same rfl rfl
  · refine Stays.trans ?_ (tell_stays ..)
    exact .same rfl rfl

theorem spareLow_stays (s : State) (lch p kind left : Nat) : Stays s (s.spareLow lch p kind left) := by
  unfold State.spareLow
  split
  · exact tell_stays ..
  · exact .refl s

/-! ## Reads, writes and heads -/

theorem noteTwin_stays (s : State) (k : Key) (ch n : Nat) (write : Bool) : Stays s (s.noteTwin k ch n write) := by
  refine Stays.forEach (fun u i => ?_) _ s
  dsimp only
  split
  · exact (noteWrite_works ..).stays
  · exact (noteRead_works ..).stays

theorem notePinned_stays (s : State) (o n : Nat) (bobbin : Bool) : Stays s (s.notePinned o n bobbin) :=
  Stays.forEach (fun _ _ => (noteRead_works ..).stays) _ s

theorem writeSlotAt_stays (s : State) (w : Way) (j : Nat) (l : Bytes) : Stays s (s.writeSlotAt w j l) := by
  induction l generalizing s j with
  | nil => exact .refl s
  | cons b l ih =>
    unfold State.writeSlotAt
    refine Stays.trans ?_ (ih _ _)
    exact .same rfl rfl

theorem writeSlot_stays (s : State) (w : Way) (b : Bytes) : Stays s (s.writeSlot w b) :=
  (writeSlotAt_stays s w 0 b).trans (Stays.forEach (fun _ _ => (noteWrite_works ..).stays) _ _)

theorem track_stays (s : State) (ch : Nat) (k : Key) (ver lines : Nat) : Stays s (s.track ch k ver lines) := .same rfl rfl

theorem readCopy_stays (s : State) (w : Way) (n : Nat) (bobbin : Bool) : Stays s (s.readCopy w n bobbin) :=
  (Stays.forEach (fun _ _ => (noteRead_works ..).stays) _ s).trans (track_stays ..)

theorem touchHead_stays (s : State) (ch set : Nat) (changed : Bool) : Stays s (s.touchHead ch set changed) := by
  have hheads : ∀ f : Cache → Cache, Stays s (s.onCh f) := fun _ => .same rfl rfl
  have hread : ∀ (u : State) (was : Option Bool) (p : Nat), Stays u (match was with
      | some _ => u.count Ctr.headHit
      | none => (u.count Ctr.headMiss).noteRead ch p 0 256 false) := by
    intro u was p
    cases was with
    | some _ => exact count_stays ..
    | none => exact (count_stays ..).trans (noteRead_works ..).stays
  unfold State.touchHead
  dsimp only
  split
  · split
    · exact ((hheads _).trans (hread ..)).trans (noteWrite_works ..).stays
    · exact (hheads _).trans (hread ..)
  · exact (hheads _).trans (hread ..)

theorem markHead_stays (s : State) (ch set : Nat) : Stays s (s.markHead ch set) := by
  unfold State.markHead
  dsimp only
  split
  · exact .same rfl rfl
  · exact touchHead_stays ..

/-! ## Copies that go -/

theorem setWays_stays (s : State) (l : List Way) : Stays s (s.setWays l) := .same rfl rfl

theorem dropWay_stays (s : State) (w : Way) : Stays s (s.dropWay w) := setWays_stays ..

theorem putWay_stays (s : State) (w : Way) : Stays s (s.putWay w) := setWays_stays ..

theorem dropHead_stays (s : State) (w : Way) : Stays s ((s.dropWay w).markHead w.ch w.set) :=
  (dropWay_stays s w).trans (markHead_stays ..)

theorem freeWay_stays (s : State) (w : Way) : Stays s (s.freeWay w) := by
  unfold State.freeWay
  split
  · exact dropWay_stays ..
  · exact putWay_stays ..

theorem dropWays_stays (s : State) (l : List Way) : Stays s (s.dropWays l) :=
  Stays.forEach (fun u w => (freeWay_stays u w).trans (markHead_stays ..)) l s

theorem leaveGhost_stays (s : State) (w : Way) : Stays s (s.leaveGhost w) := by
  unfold State.leaveGhost
  split
  · exact putWay_stays ..
  split
  · exact .refl s
  · exact putWay_stays ..

theorem onUp_stays (s : State) (f : Updates → Updates) : Stays s (s.onUp f) := .same rfl rfl

theorem dropRegrade_stays (s : State) (p : Regrade → Bool) : Stays s (s.dropRegrade p) := by
  have htb : ∀ f : Tables → Tables, Stays s (s.onTb f) := fun _ => .same rfl rfl
  exact (htb _).trans (countN_stays ..)

theorem dropRow_stays (s : State) (k : Key) (ver : Nat) (ghost : Bool) : Stays s (s.dropRow k ver ghost) := by
  have hredir : ∀ u : State, Stays u (u.dropRedir k ver) := fun _ => .same rfl rfl
  have hdropped : ∀ (n : Nat) (p : Regrade → Bool) (f : Updates → Updates),
      Stays s (((((s.dropWays (s.copiesOf k ver)).dropRedir k ver).countN Ctr.replDropped n).dropRegrade p).onUp f) := fun n p f =>
    ((((dropWays_stays ..).trans (hredir _)).trans (countN_stays ..)).trans (dropRegrade_stays ..)).trans (onUp_stays ..)
  unfold State.dropRow
  split
  · exact .refl s
  · dsimp only
    split
    · exact (hdropped ..).trans (leaveGhost_stays ..)
    · exact hdropped ..

theorem dropReplicas_stays (s : State) (k : Key) (ver n : Nat) : Stays s (s.dropReplicas k ver n) := by
  have hredir : ∀ (u : State) (f : Cache → Cache), Stays u (u.onCh f) := fun _ _ => .same rfl rfl
  unfold State.dropReplicas
  exact ((dropWays_stays ..).trans (countN_stays ..)).trans (hredir ..)

/-! ## Write-back -/

theorem setDirty_stays (s : State) (k : Key) (ver : Nat) (on : Bool) : Stays s (s.setDirty k ver on) := by
  unfold State.setDirty
  split
  · split
    · exact .refl s
    · exact (putWay_stays ..).trans (markHead_stays ..)
  · exact .refl s

theorem clean_stays (s : State) (k : Key) (ver : Nat) : Stays s (s.clean k ver) := by
  unfold State.clean
  dsimp only
  split
  · exact .same rfl rfl
  · exact (setDirty_stays ..).trans (onUp_stays ..)

theorem dropDirect_stays (s : State) (t : Table) (k : Key) (ver : Nat) : Stays s (s.dropDirect t k ver) := by
  unfold State.dropDirect
  split
  · exact dropRow_stays ..
  · exact .refl s

theorem failWrite_stays (s : State) (t : Table) (v : Version) (k : Key) (status : BitVec 8) (tried : Bool) :
    Stays s (s.failWrite t v k status tried) := by
  unfold State.failWrite
  dsimp only
  split
  · exact onUp_stays ..
  split
  · exact (onUp_stays ..).trans (tell_stays ..)
  split
  · exact (onUp_stays ..).trans (tell_stays ..)
  · exact onUp_stays ..

theorem noteMaster_stays (s : State) (t : Table) (k : Key) (ver : Nat) : Stays s (s.noteMaster t k ver) := by
  unfold State.noteMaster
  split
  · exact notePinned_stays ..
  split
  · exact (touchHead_stays ..).trans (readCopy_stays ..)
  · exact .refl s

theorem noteLand_stays (s : State) (ns lba a b : Nat) (write bobbin : Bool) : Stays s (s.noteLand ns lba a b write bobbin) := by
  refine Stays.forEach (fun u p => ?_) _ s
  split
  · exact (noteWrite_works ..).stays
  · exact (noteRead_works ..).stays

theorem submit_stays (s : State) (c : NvCmd) : Stays s (s.submit c) := by
  have hcmd : Stays s (s.sendCmd c) := .same rfl rfl
  have hsend : ∀ (u : State) (o : Output), Stays u (u.send o) := fun _ _ => .same rfl rfl
  unfold State.submit
  dsimp only
  split
  · exact (hcmd.trans (Stays.forEach (fun _ _ => (noteLand_stays ..).trans (noteLand_stays ..)) _ _)).trans (hsend ..)
  · exact hcmd

theorem wholeCmd_stays (s : State) (c : NvCmd) (r : Tried) : Stays s (s.wholeCmd c r) := by
  have hfl : ∀ (u : State) (f : Flash → Flash), Stays u (u.onFl f) := fun _ _ => .same rfl rfl
  have habort : ∀ (u : State) (c : NvCmd), Stays u (u.sendAbort c) := fun _ _ => .same rfl rfl
  have hsent : ∀ (c1 : NvCmd) (n k : Nat), Stays s ((State.forEach (fun u _ => u.submit c1) (List.range (n + 1))
      ((s.onFl fun f => { f with nextTag := f.nextTag + 1 }).countN Ctr.flSlotWait k)).countN Ctr.flRetries n) := fun c1 n k =>
    (((hfl s _).trans (countN_stays ..)).trans (Stays.forEach (fun _ _ => submit_stays ..) _ _)).trans (countN_stays ..)
  unfold State.wholeCmd
  dsimp only
  split
  · exact (hsent ..).trans (tell_stays ..)
  split
  · exact (((((hsent ..).trans (hfl ..)).trans (hfl ..)).trans (habort ..)).trans (count_stays ..)).trans (tell_stays ..)
  · exact (hsent ..).trans (tell_stays ..)

theorem readBlock_stays (s : State) (t : Table) (v : Version) (lba : Nat) (rows : List (Nat × Option Bytes)) :
    Stays s (s.readBlock t v lba rows) := by
  unfold State.readBlock
  split
  · exact wholeCmd_stays ..
  · exact .refl s

theorem writeBlock_stays (s : State) (t : Table) (v : Version) (k : Key) (r : Tried) : Stays s (s.writeBlock t v k r) :=
  ((Stays.forEach (fun _ _ => noteMaster_stays ..) _ s).trans (readBlock_stays ..)).trans (wholeCmd_stays ..)

theorem writeBackRow_stays (s : State) (t : Table) (v : Version) (k : Key) (res : Tried) : Stays s (s.writeBackRow t v k res).1 := by
  have hsend : ∀ (u : State) (o : Output), Stays u (u.send o) := fun _ _ => .same rfl rfl
  unfold State.writeBackRow
  dsimp only
  refine .ite (.refl s) (.ite ?_ (.ite ?_ ?_))
  · dsimp only
    exact failWrite_stays ..
  · dsimp only
    split
    · exact (writeBlock_stays ..).trans (failWrite_stays ..)
    · exact failWrite_stays ..
  · dsimp only
    have hcleaned : ∀ (u : State) (r : Nat), Stays u (((u.count Ctr.writebacks).clean (keyOf (keyTbl k) r) v.ver).dropDirect t
        (keyOf (keyTbl k) r) v.ver) := fun u r => ((count_stays u _).trans (clean_stays ..)).trans (dropDirect_stays ..)
    split
    · exact (writeBlock_stays ..).trans (Stays.forEach hcleaned _ _)
    · exact ((noteMaster_stays ..).trans (hsend ..)).trans (Stays.forEach hcleaned _ _)

/-! ## Ways and slots -/

theorem evictWay_stays (s : State) (w : Way) (fails : WbFails) (ghost : Bool) : Stays s (s.evictWay w fails ghost).1 := by
  have hmark : ∀ u : State, Stays u (if ghost then u.putWay w.asGhost else u) := by
    intro u
    split
    · exact putWay_stays ..
    · exact .refl u
  have hback : ∀ (t : Table) (o : Option Version), Stays s (match o with
      | some v => s.writeBackRow t v w.key (failOf fails w.key)
      | none => (s, true)).1 := by
    intro t o
    cases o with
    | some v => exact writeBackRow_stays ..
    | none => exact .refl s
  unfold State.evictWay
  dsimp only
  split
  · exact dropHead_stays ..
  · refine .ite (((dropHead_stays ..).trans (count_stays ..)).trans (hmark _)) (.ite (hback _ _) ?_)
    exact (((hback _ _).trans (dropRow_stays ..)).trans (tell_stays ..)).trans (hmark _)

theorem emptyArea_stays (s : State) (l : List Way) (fails : WbFails) : Stays s (s.emptyArea l fails).1 := by
  induction l generalizing s with
  | nil => exact .refl s
  | cons w l ih =>
    unfold State.emptyArea
    exact .ite (.ite ((evictWay_stays ..).trans (ih _)) (evictWay_stays ..)) (ih s)

theorem reclaimFrom_stays (s : State) (ch n : Nat) (pop : Option Nat) (k : Key) (ver : Nat) (fails : WbFails) (f p : Nat) :
    Stays s (s.reclaimFrom ch n pop k ver fails f p).1 := by
  have hcursor : ∀ (u : State) (g : Cache → Cache), Stays u (u.onCh g) := fun _ _ => .same rfl rfl
  induction f generalizing s p with
  | zero => exact .same rfl rfl
  | succ f ih =>
    unfold State.reclaimFrom
    refine .ite (.ite ?_ ((emptyArea_stays ..).trans (ih ..))) (ih ..)
    dsimp only
    exact ((emptyArea_stays ..).trans (hcursor ..)).trans (countN_stays ..)

theorem takeSlot_stays (s : State) (ch size : Nat) (reclaim : Bool) (pop : Option Nat) (k : Key) (ver : Nat) (fails : WbFails) :
    Stays s (s.takeSlot ch size reclaim pop k ver fails).1 := by
  unfold State.takeSlot
  split
  · exact .refl s
  · exact .ite (.refl s) (reclaimFrom_stays ..)

theorem takeWay_stays (s : State) (ch set : Nat) (k : Key) (ver : Nat) (e : Entry') (fails : WbFails) (f : Nat) :
    Stays s (s.takeWay ch set k ver e fails f).1 := by
  induction f generalizing s with
  | zero => exact .refl s
  | succ f ih =>
    unfold State.takeWay
    split
    · exact .refl s
    · exact .refl s
    · exact .ite (.refl s) (.ite (evictWay_stays ..) ((evictWay_stays ..).trans (ih _)))

theorem placeCopy_stays (s : State) (ch : Nat) (k : Key) (ver : Nat) (kind : WayKind) (g : Grade) (b : Bytes) (freq repl : Nat)
    (e : Entry') (fails : WbFails) : Stays s (s.placeCopy ch k ver kind g b freq repl e fails).1 := by
  have hway := fun (c : Nat × Nat) => (touchHead_stays s c.1 c.2 false).trans (takeWay_stays _ c.1 c.2 k ver e fails 17)
  unfold State.placeCopy
  refine .ite (.refl s) ?_
  dsimp only
  split
  · exact hway _
  · split
    · exact (hway _).trans (takeSlot_stays ..)
    · dsimp only
      refine Stays.trans (Stays.trans (Stays.trans ?_ (putWay_stays ..)) (writeSlot_stays ..)) (markHead_stays ..)
      exact (hway _).trans (takeSlot_stays ..)

/-! ## Contents that are moved, lost and rebuilt -/

theorem loseMaster_stays (s : State) (k : Key) (ver : Nat) : Stays s (s.loseMaster k ver) := by
  unfold State.loseMaster State.tellLost
  split
  · exact .refl s
  · exact tell_stays ..

theorem dropFor_stays (s : State) (w : Way) (fails : WbFails) : Stays s (s.dropFor w fails).1 := by
  unfold State.dropFor
  refine .ite (.refl s) (.ite (dropWay_stays ..) ?_)
  split
  · exact dropHead_stays ..
  · refine .ite (dropHead_stays ..) (.ite (dropReplicas_stays ..) (.ite (dropHead_stays ..) (.ite ?_ (writeBackRow_stays ..))))
    exact (writeBackRow_stays ..).trans (dropRow_stays ..)

theorem dropOrLose_stays (s : State) (w : Way) : Stays s (s.dropOrLose w) := by
  unfold State.dropOrLose
  dsimp only
  split
  · exact dropFor_stays ..
  · exact ((dropFor_stays ..).trans (loseMaster_stays ..)).trans (dropRow_stays ..)

theorem moveMaster_stays (s : State) (w : Way) (t : Table) : Stays s (s.moveMaster w t) := by
  unfold State.moveMaster
  dsimp only
  split
  · exact (((readCopy_stays ..).trans (dropWays_stays ..)).trans (placeCopy_stays ..)).trans (setWays_stays ..)
  · exact dropOrLose_stays ..

theorem masterFromTwin_stays (s : State) (w : Way) (stay : Bool) : Stays s (s.masterFromTwin w stay) := by
  unfold State.masterFromTwin
  dsimp only
  split
  · exact count_stays ..
  split
  · exact (count_stays ..).trans (moveMaster_stays ..)
  · exact (count_stays ..).trans (dropWay_stays ..)

theorem wayGone_stays (s : State) (hit : Nat → Nat → Bool) (spared : Bool) (w : Way) : Stays s (s.wayGone hit spared w) := by
  unfold State.wayGone
  dsimp only
  split
  · exact .refl s
  split
  · split
    · exact dropHead_stays ..
    · exact .refl s
  split
  · exact masterFromTwin_stays ..
  split
  · exact dropReplicas_stays ..
  split
  · split
    · exact dropHead_stays ..
    · exact count_stays ..
  · exact dropRow_stays ..

theorem poisonRow_stays (s : State) (h ver row : Nat) : Stays s (s.poisonRow h ver row) := by
  have hrl : ∀ f, Stays s (s.onRl f) := fun _ => .same rfl rfl
  have htable : ∀ t : Table, Stays s (s.setTable h t) := fun _ => .same rfl rfl
  unfold State.poisonRow
  split
  · exact .refl s
  split
  · exact (hrl _).trans (tell_stays ..)
  split
  · exact .refl s
  split
  · exact .refl s
  · exact (htable _).trans (tell_stays ..)

theorem pinGone_stays (s : State) (e : Extent) (r : Nat) : Stays s (s.pinGone e r) := by
  unfold State.pinGone
  split
  · exact count_stays ..
  split
  · exact poisonRow_stays ..
  · exact .same rfl rfl

/-- Contents that are gone change no map, no channel and no action. -/
theorem rebuild_stays (s : State) (ch : Nat) (hit : Nat → Nat → Bool) (spared : Bool) : Stays s (s.rebuild ch hit spared) :=
  (Stays.forEach (fun u w => wayGone_stays u hit spared w) _ s).trans
    (Stays.forEach (fun u e => Stays.forEach (fun v r => pinGone_stays v e r) _ u) _ _)

end Sys2Proof.Proofs
end

section
/-!
PROOFS. Telemetry told of several things at once: an event among them is raised where there is room for what the others can raise, and a count
among them is made once (R353, R424).
-/

namespace Sys2Proof.Proofs

open Sys2Proof Sys2Proof.Machine Sys2Proof.Laws

/-- An event that telemetry is told amid other operations is queued, where there is room for what those before it can raise. -/
theorem tell_queues_amid {cs : List Nat} (hcs : ∀ c ∈ ownCounters, c ∈ cs) (s : State) (ops rest : List TelOp) (e : Event)
    (hops : ∀ o ∈ ops, Calm cs o) (hfew : sumBy opWeight ops + 10 * cs.length ≤ 19990) (hon : bitb s.tel.evtRing 17 = true)
    (hroom : queueBound cs ops s.tel < 256) :
    ∃ l, s.tel.evq ++ l <+: (s.tell (ops ++ .event e :: rest)).tel.evq ∧ e ∈ l := by
  have hclear := clearOn_le cs s.tel
  obtain ⟨g, u, hg, hrun, hring, ⟨l, hl⟩, hbound⟩ :=
    run_append hcs 20000 ops (.event e :: rest) s.tel hops (by simp only [runCost]; omega)
  simp only [runCost] at hg
  obtain ⟨f, rfl⟩ : ∃ f, g = f + 1 := ⟨g - 1, by omega⟩
  have hspace : ¬ u.evq.length ≥ 256 := by
    simp only [queueBound, sumBy] at hbound hroom
    omega
  have hput : (u.op (.event e)).1.evq = u.evq ++ [e] := by
    unfold Telem.op
    dsimp only
    rw [if_pos (hring ▸ hon), if_neg hspace]
  refine ⟨l ++ [e], ?_, List.mem_append_right l List.mem_cons_self⟩
  rw [← List.append_assoc, hl, ← hput]
  change _ <+: (Telem.run 20000 (ops ++ .event e :: rest) s.tel).evq
  rw [hrun]
  exact run_grows f ((u.op (.event e)).2 ++ rest) (u.op (.event e)).1

/-- From s the event queue has grown to that of u, which is told of an event amid other operations, and then to that of t. -/
theorem raised_amid {cs : List Nat} (hcs : ∀ c ∈ ownCounters, c ∈ cs) {s u t : State} {ops rest : List TelOp} {e : Event} {code : Nat}
    (hcode : e.code = BitVec.ofNat 32 code) (hring : u.tel.evtRing = s.tel.evtRing) (hgrows : s.tel.evq <+: u.tel.evq)
    (hops : ∀ o ∈ ops, Calm cs o) (hfew : sumBy opWeight ops + 10 * cs.length ≤ 19990)
    (hroom : s.tel.evq.length + 32 ≤ 256 → queueBound cs ops u.tel < 256)
    (hafter : (u.tell (ops ++ .event e :: rest)).tel.evq <+: t.tel.evq) : State.raised s t code := by
  intro hon hspace
  obtain ⟨k, hk⟩ := hgrows
  obtain ⟨l, hl, he⟩ := tell_queues_amid hcs u ops rest e hops hfew (hring ▸ hon) (hroom hspace)
  obtain ⟨m, hm⟩ := hl.trans hafter
  refine ⟨k ++ l ++ m, e, ?_, List.mem_append_left m (List.mem_append_right k he), hcode⟩
  rw [← hm, ← hk, List.append_assoc, List.append_assoc, List.append_assoc]

/-- A count that telemetry is told after other operations is made once. -/
theorem run_counts {cs : List Nat} (hcs : ∀ c ∈ ownCounters, c ∈ cs) {off : Nat} (hoff : off ∉ cs) (f : Nat) (ops : List TelOp) (t : Telem)
    (hops : ∀ o ∈ ops, Calm cs o) (hf : runCost cs ops t < f) :
    (Telem.run f (ops ++ [.count off 1]) t).countOf off = (t.countOf off).plus 1 := by
  induction f generalizing ops t with
  | zero => exact absurd hf (Nat.not_lt_zero _)
  | succ f ih =>
    cases ops with
    | nil =>
      have hevents := events_calm ownCounters off (t.countOf off) ((t.countOf off).plus 1)
      change (Telem.run f (Counter.events off (t.countOf off) ((t.countOf off).plus 1) ++ [])
        { t with counters := mset t.counters off ((t.countOf off).plus 1) }).countOf off = _
      rw [List.append_nil, run_keeps_count (fun _ h => h) (fun h => hoff (hcs _ h)) _ _ _ hevents, countOf_mset, if_pos rfl]
    | cons o ops =>
      have ho := hops o List.mem_cons_self
      obtain ⟨hleads, -, hcost⟩ := op_calm hcs ho t
      have hless : runCost cs ((t.op o).2 ++ ops) (t.op o).1 < f := by
        simp only [runCost, sumBy_append, sumBy] at hcost hf ⊢
        omega
      have hnext := ih ((t.op o).2 ++ ops) (t.op o).1 (fun x hx =>
        (List.mem_append.mp hx).elim (hleads x) fun h => hops x (List.mem_cons_of_mem _ h)) hless
      rw [op_keeps_count hoff ho, List.append_assoc] at hnext
      exact hnext

theorem tell_counts {cs : List Nat} (hcs : ∀ c ∈ ownCounters, c ∈ cs) {off : Nat} (hoff : off ∉ cs) (s : State) (ops : List TelOp)
    (hops : ∀ o ∈ ops, Calm cs o) (hfew : sumBy opWeight ops + 10 * cs.length < 20000) :
    (s.tell (ops ++ [.count off 1])).tel.countOf off = (s.tel.countOf off).plus 1 := by
  have hclear := clearOn_le cs s.tel
  exact run_counts hcs hoff 20000 ops s.tel hops (by simp only [runCost]; omega)

end Sys2Proof.Proofs
end

section
/-!
PROOFS. O43: rows and banks are repaired onto spares, and the scrubber's findings (R302, R313, R314, R319).
-/

namespace Sys2Proof.Proofs

open Sys2Proof Sys2Proof.Machine Sys2Proof.Laws

/-! ## What repairs and scrubs count -/

/-- The counters of repairs and of the scrubber's reads: 9, with 18 events between them. -/
def repairCounters : List Nat :=
  [Ctr.gsLinesRead, Ctr.gsLinesWritten, Ctr.rowRepairs, Ctr.bankRepairs, Ctr.bankStuck, Ctr.parGs] ++ ownCounters

theorem own_mem_repairCounters : ∀ c ∈ ownCounters, c ∈ repairCounters := by decide

/-- Telemetry that is as it was has room for what a repair counts. -/
theorem repairs_room {s u : State} (h : u.tel = s.tel) {ops : List TelOp} (hops : sumBy opEvents ops = 0)
    (hspace : s.tel.evq.length + 32 ≤ 256) : queueBound repairCounters ops u.tel < 256 := by
  have hclear := clearOn_le repairCounters u.tel
  have hlen : repairCounters.length = 9 := rfl
  simp only [queueBound, hops, h] at hclear ⊢
  omega

/-! ## Spare rows and spare banks -/

theorem Stays.rowMap {s t : State} (h : Stays s t) : t.gs.rowMap = s.gs.rowMap := (congrArg Ground.rowMap h.maps :)

theorem Stays.rowUsed {s t : State} (h : Stays s t) : t.gs.rowUsed = s.gs.rowUsed := (congrArg Ground.rowUsed h.maps :)

theorem Stays.bankMap {s t : State} (h : Stays s t) : t.gs.bankMap = s.gs.bankMap := (congrArg Ground.bankMap h.maps :)

theorem Stays.bankUsed {s t : State} (h : Stays s t) : t.gs.bankUsed = s.gs.bankUsed := (congrArg Ground.bankUsed h.maps :)

/-- The record and the event of the last spare change no map. -/
theorem spareTold_stays (s : State) (target lch p kind left : Nat) : Stays s ((s.auditSpare target).spareLow lch p kind left) :=
  (auditHw_stays ..).trans (spareLow_stays ..)

/-- What a repair counts before its event. -/
def repairCounts (m : Nat) (a : Nat) : List TelOp := [.count Ctr.gsLinesRead m, .count Ctr.gsLinesWritten m, .count a 1]

theorem repairCounts_calm (m : Nat) {a : Nat} (h : a ∈ repairCounters) : ∀ o ∈ repairCounts m a, Calm repairCounters o := by
  refine calm_cons ?_ (calm_cons ?_ (calm_cons h (calm_nil _)))
  · change Ctr.gsLinesRead ∈ repairCounters
    decide
  · change Ctr.gsLinesWritten ∈ repairCounters
    decide

/-- A repair raises its event. -/
theorem repair_raises {s u t : State} {m a : Nat} {e : Event} (hcode : e.code = BitVec.ofNat 32 0xB04) (htel : u.tel = s.tel)
    (ha : a ∈ repairCounters) (hafter : Stays (u.tell (repairCounts m a ++ [.event e])) t) : State.raised s t 0xB04 :=
  raised_amid own_mem_repairCounters hcode (congrArg Telem.evtRing htel) (htel ▸ List.prefix_rfl) (repairCounts_calm m ha)
    (Nat.le_of_ble_eq_true rfl) (repairs_room htel rfl) hafter.grows

/-- An event of Ground store. -/
def storeEvent (s : State) (code : Nat) (lch : Option Nat) (pch kind tier bank row : Nat) : Event :=
  { code := BitVec.ofNat 32 code, ring := none, data := evData [(8, 4, lch.getD noCh), (12, 4, pch), (16, 4, kind),
      (20, 4, (s.phys pch).temp / 4), (24, 8, tier % 8 + bank % 32 * 8 + row % 512 * 256)] }

/-- A row has the bank's next spare row, and its lines have been copied. -/
def rowSpared (s : State) (lch tier bank row key used : Nat) : State :=
  (s.onGs fun g => { g with rowMap := mset g.rowMap (key * 512 + row) used, rowUsed := mset g.rowUsed key (used + 1) }).addLoad lch
    [(tier * 30 + bank, 16)]

/-- A bank has the tier's next spare bank. -/
def bankSpared (s : State) (lch p tier bank used : Nat) : State :=
  s.onGs fun g => { g with
    bankMap := mset g.bankMap (bankKey p tier bank) (30 + used)
    bankUsed := mset g.bankUsed (tierKey p tier) (used + 1)
    lostBanks := g.lostBanks.filter fun x => x != lch * 256 + (tier * 30 + bank) }

/-- A row is repaired onto its bank's next spare row, where that is not its last one. -/
theorem rowRepair_steps {s : State} {lch p tier bank row key used : Nat} (hkey : bankKey p tier (s.physBank p tier bank) = key)
    (hused : mgetD s.gs.rowUsed key 0 = used) (hfew : used < 15) :
    ∃ (u : State) (e : Event), u.tel = s.tel ∧ u.gs.rowMap = mset s.gs.rowMap (key * 512 + row) used ∧
      u.gs.rowUsed = mset s.gs.rowUsed key (used + 1) ∧ e.code = BitVec.ofNat 32 0xB04 ∧
      Stays (u.tell (repairCounts 8 Ctr.rowRepairs ++ [.event e])) (s.rowRepair lch p tier bank row) := by
  unfold State.rowRepair
  dsimp only
  rw [hkey, hused, if_neg (by omega), if_neg (by omega)]
  exact ⟨rowSpared s lch tier bank row key used, storeEvent (rowSpared s lch tier bank row key used) 0xB04 (some lch) p 0 tier _ row,
    rfl, rfl, rfl, rfl, spareTold_stays ..⟩

/-- A bank is repaired onto its tier's next spare bank. -/
theorem bankRepairOn_steps {s : State} {lch p tier bank used : Nat} (copied : Bool) (hused : mgetD s.gs.bankUsed (tierKey p tier) 0 = used)
    (hfew : used < 2) :
    (s.bankRepairOn lch p tier bank copied).2 = true ∧ ∃ (u : State) (n : Nat) (e : Event), u.tel = s.tel ∧
      u.gs.bankMap = mset s.gs.bankMap (bankKey p tier bank) (30 + used) ∧ u.gs.bankUsed = mset s.gs.bankUsed (tierKey p tier) (used + 1) ∧
      e.code = BitVec.ofNat 32 0xB04 ∧
      Stays (u.tell (repairCounts n Ctr.bankRepairs ++ [.event e])) (s.bankRepairOn lch p tier bank copied).1 := by
  unfold State.bankRepairOn
  dsimp only
  rw [hused, if_neg (by omega)]
  cases copied with
  | true =>
    refine ⟨rfl, (bankSpared s lch p tier bank used).addLoad lch [(tier * 30 + bank, 3072), (240 + 2 * tier + used, 3072)], 3072,
      storeEvent (bankSpared s lch p tier bank used) 0xB04 (some lch) p 1 tier (30 + used) 0, rfl, rfl, rfl, rfl, ?_⟩
    exact spareTold_stays ..
  | false =>
    refine ⟨rfl, bankSpared s lch p tier bank used, 0,
      storeEvent (bankSpared s lch p tier bank used) 0xB04 (some lch) p 1 tier (30 + used) 0, rfl, rfl, rfl, rfl, ?_⟩
    exact (rebuild_stays ..).trans (spareTold_stays ..)

/-- A stuck bank has been counted and told of. -/
def stuckTold (s : State) (ch p tier bank : Nat) : State :=
  s.tell ([.count Ctr.bankStuck 1] ++ [s.gsEvent 0xB03 (some ch) p 0 tier (s.physBank p tier bank) 0])

/-- A stuck bank with requests queued is repaired, where there is a spare bank. -/
theorem bankStuck_repairs {s : State} {ch p tier bank : Nat} (hqueued : (s.gs.queues.any fun r => r.ch == ch && r.bank == tier * 30 + bank) = true)
    (hdone : ((stuckTold s ch p tier bank).bankRepairOn ch p tier bank false).2 = true) :
    s.bankStuck ch p tier bank = ((stuckTold s ch p tier bank).bankRepairOn ch p tier bank false).1 := by
  unfold State.bankStuck
  dsimp only
  rw [hqueued, Bool.not_true, if_neg Bool.false_ne_true]
  exact if_pos hdone

/-! ## The scrubber -/

theorem pchOf_of_bankThere {s : State} {ch tier bank p : Nat} (h : s.bankThere ch tier bank = some p) : s.pchOf ch = some p := by
  unfold State.bankThere at h
  split at h
  · exact h
  · exact nomatch h

theorem exec_scrub {s : State} {ch p : Nat} (hp : s.pchOf ch = some p) (hon : bitf (s.cfg Reg.gsCtl) 40 8 ≠ 0) (hup : s.roleUp 3 = true)
    (found : List ScrubFind) : exec (.scrub ch found) s = .next (s.scrub ch p found) := by
  change Host.Outcome.next _ = _
  rw [hp]
  dsimp only
  rw [hup, decide_eq_false hon]
  rfl

/-- The pass over a channel has been counted. -/
def scrubRead (s : State) (ch : Nat) : State :=
  (s.addLoad ch (s.pocketLines 0 (Member.pockets s.fuses.member))).tell
    [.count Ctr.gsLinesRead (16 * Member.pockets s.fuses.member), .count Ctr.scrubPasses 1]

/-- The counters of a scrub pass and of its reads. -/
def scrubCounters : List Nat := [Ctr.gsLinesRead, Ctr.scrubPasses, Ctr.parGs] ++ ownCounters

/-- A pass and an error that it finds are counted on other counters than the errors that a second read clears. -/
theorem scrubRead_keeps_recReread (s : State) (ch : Nat) :
    ((scrubRead s ch).count Ctr.parGs).tel.countOf Ctr.recReread = s.tel.countOf Ctr.recReread := by
  have hown : ∀ c ∈ ownCounters, c ∈ scrubCounters := by decide
  have hoff : Ctr.recReread ∉ scrubCounters := by decide
  have hkeep := fun (u : State) (ops : List TelOp) => run_keeps_count hown hoff 20000 ops u.tel
  have hread : Ctr.gsLinesRead ∈ scrubCounters := by decide
  have hpass : Ctr.scrubPasses ∈ scrubCounters := by decide
  have herror : Ctr.parGs ∈ scrubCounters := by decide
  exact (hkeep (scrubRead s ch) [.count Ctr.parGs 1] (calm_cons herror (calm_nil _))).trans
    (hkeep (State.addLoad s ch _) _ (calm_cons hread (calm_cons hpass (calm_nil _))))

theorem scrub_one (s : State) (ch p : Nat) (f : ScrubFind) : s.scrub ch p [f] = (scrubRead s ch).scrubFound ch p f := rfl

theorem scrubFound_line {s : State} {ch tier bank line p : Nat} (hthere : s.bankThere ch tier bank = some p) (hline : line < 3072) :
    s.scrubFound ch p (.line tier bank line false) = (s.count Ctr.parGs).count Ctr.recReread := by
  refine if_pos ?_
  rw [decide_eq_true hthere, decide_eq_true hline]
  rfl

theorem scrubFound_directory {s : State} {h : Nat} {b : Table} (htable : s.table h = some b) (ch p : Nat) :
    s.scrubFound ch p (.directory h true) = (s.countN Ctr.parGs 4).setTable h { b with dirBad := true } := by
  unfold State.scrubFound State.scrubDir
  dsimp only
  rw [htable]
  rfl

/-- Settles O43, part by part: the repairs of a row and of a bank, a stuck bank, and the pass of the scrubber with two of its findings. -/
theorem sparesReplaceRowsAndBanks : Obligations.SparesReplaceRowsAndBanks := by
  unfold Obligations.SparesReplaceRowsAndBanks
  refine ⟨?_, ?_, ?_, ?_, ?_, ?_⟩
  · intro ch tier bank row p s hthere hrow hused
    have hexec : exec (.rowRepair ch tier bank row) s = .next (s.rowRepair ch p tier bank row) := by
      change Host.Outcome.next _ = _
      rw [hthere]
      dsimp only
      rw [if_pos hrow]
    obtain ⟨u, e, htel, hmap, hcount, hcode, hafter⟩ := rowRepair_steps (lch := ch) (row := row) rfl rfl hused
    refine ⟨_, hexec, ?_, ?_, repair_raises hcode htel (by decide) hafter⟩
    · rw [hafter.rowMap]
      exact (congrArg (mget · _) hmap).trans (mget_mset_self ..)
    · rw [hafter.rowUsed]
      exact (congrArg (mget · _) hcount).trans (mget_mset_self ..)
  · intro ch tier bank p gone s hthere hused
    obtain ⟨hdone, u, n, e, htel, hmap, hcount, hcode, hafter⟩ := bankRepairOn_steps (lch := ch) (bank := bank) (!gone) rfl hused
    have hexec : exec (.bankRepair ch tier ⟨bank, gone⟩) s = .next (s.bankRepairOn ch p tier bank (!gone)).1 := by
      change Host.Outcome.next _ = _
      rw [hthere]
      dsimp only
      unfold State.bankRepair
      dsimp only
      rw [if_pos hdone]
    refine ⟨_, hexec, ?_, ?_, repair_raises hcode htel (by decide) hafter⟩
    · rw [hafter.bankMap]
      exact (congrArg (mget · _) hmap).trans (mget_mset_self ..)
    · rw [hafter.bankUsed]
      exact (congrArg (mget · _) hcount).trans (mget_mset_self ..)
  · intro ch tier bank p s hthere hused hqueued
    obtain ⟨hdone, u, n, e, htel, hmap, -, -, hafter⟩ := bankRepairOn_steps (s := stuckTold s ch p tier bank) (lch := ch) (bank := bank)
      false rfl hused
    have hexec : exec (.bankStuck ch tier bank) s = .next ((stuckTold s ch p tier bank).bankRepairOn ch p tier bank false).1 := by
      change Host.Outcome.next _ = _
      rw [hthere]
      exact congrArg _ (bankStuck_repairs hqueued hdone)
    refine ⟨_, hexec, ?_, ?_⟩
    · rw [hafter.bankMap]
      exact (congrArg (mget · _) hmap).trans (mget_mset_self ..)
    · have hgrows : (stuckTold s ch p tier bank).tel.evq <+: _ := (htel ▸ tell_grows u _).trans hafter.grows
      exact raised_amid own_mem_repairCounters (ops := [.count Ctr.bankStuck 1]) (rest := []) rfl rfl List.prefix_rfl
        (calm_cons (by change Ctr.bankStuck ∈ repairCounters; decide) (calm_nil _)) (Nat.le_of_ble_eq_true rfl) (repairs_room rfl rfl) hgrows
  · intro ch p s hp hon hup
    refine ⟨_, exec_scrub hp hon hup [], rfl, ?_⟩
    exact tell_counts own_mem_repairCounters (by decide) (State.addLoad _ _ _) [.count Ctr.gsLinesRead _]
      (calm_cons (by change Ctr.gsLinesRead ∈ repairCounters; decide) (calm_nil _)) (Nat.le_of_ble_eq_true rfl)
  · intro ch tier bank line p s hthere hline hon hup
    have hexec := exec_scrub (pchOf_of_bankThere hthere) hon hup [.line tier bank line false]
    have hthere' : (scrubRead s ch).bankThere ch tier bank = some p := hthere
    rw [scrub_one, scrubFound_line hthere' hline] at hexec
    refine ⟨_, hexec, rfl, (count_counts (by decide) _).trans (congrArg (Counter.plus · 1) ?_)⟩
    exact scrubRead_keeps_recReread ..
  · intro ch h p b s hp hon hup htable
    have hexec := exec_scrub hp hon hup [.directory h true]
    have htable' : (scrubRead s ch).table h = some b := htable
    rw [scrub_one, scrubFound_directory htable'] at hexec
    exact ⟨_, hexec, rfl, mget_mset_self ..⟩

end Sys2Proof.Proofs
end

section
/-!
PROOFS. The switch of a channel action (R316): up to the change of the map nothing but counts is told, and after it no map changes again.
-/

namespace Sys2Proof.Proofs

open Sys2Proof Sys2Proof.Machine Sys2Proof.Laws

/-! ## Up to the change of the map -/

theorem copyLoad_works (s : State) (c : ChCopy) : Works 0 s (s.copyLoad c) := .of_hide (copyLoad_hide rfl s c)

/-- Counts on the counters of actions. -/
def countOps (l : List (Nat × Nat)) : List TelOp := l.map fun x => .count x.1 x.2

theorem countOps_works (s : State) (l : List (Nat × Nat)) (h : (l.all fun x => actionCounters.contains x.1) = true)
    (hfew : l.length ≤ 19000) : Works 0 s (s.tell (countOps l)) := by
  have hcalm : ∀ o ∈ countOps l, Calm actionCounters o := by
    intro o ho
    obtain ⟨x, hx, rfl⟩ := List.mem_map.mp ho
    exact List.contains_iff_mem.mp (List.all_eq_true.mp h x hx)
  have hsums : sumBy opWeight (countOps l) = l.length ∧ sumBy opEvents (countOps l) = 0 := by
    clear h hfew hcalm
    induction l with
    | nil => exact ⟨rfl, rfl⟩
    | cons x l ih =>
      obtain ⟨hweight, hevents⟩ := ih
      simp only [countOps, List.map_cons, sumBy, opWeight, opEvents, List.length_cons] at hweight hevents ⊢
      omega
  obtain ⟨hweight, hevents⟩ := hsums
  exact hevents ▸ tell_works s (countOps l) hcalm (hweight ▸ hfew)

theorem event_tells (s : State) (e : Event) : Tells 1 s.tel (s.tell [.event e]).tel := by
  have hcalm : Calm actionCounters (.event e) := trivial
  exact tell_tells s [.event e] (calm_cons hcalm (calm_nil _)) (Nat.le_of_ble_eq_true rfl)

theorem Tells.mono {m n : Nat} {t u : Telem} (h : Tells m t u) (hle : m ≤ n) : Tells n t u :=
  ⟨h.ring, h.grows, Nat.le_trans h.bound (Nat.add_le_add_right hle _)⟩

theorem copyRest_tells (s : State) (c : ChCopy) : Tells 0 s.tel (s.copyRest c).1.tel := by
  unfold State.copyRest
  dsimp only
  split
  · exact .refl _
  · exact (copyLoad_works s c).tells.trans (countOps_works _ [(Ctr.gsLinesRead, _), (Ctr.gsLinesWritten, _)] rfl (Nat.le_of_ble_eq_true rfl)).tells

theorem hold_works (s : State) (c : ChCopy) : Works 0 s (s.hold c) := by
  have hload : ∀ (u : State) (ch : Nat) (l : List (Nat × Nat)), Works 0 u (u.addLoad ch l) := fun _ _ _ => .of_maps rfl rfl
  have hgs : ∀ (q : List Req) (w : List WcEntry), Works 0 s (s.onGs fun g => { g with queues := q, wc := w }) := fun _ _ => .of_maps rfl rfl
  have htold : ∀ (u : State) (i j k n : Nat), Works 0 u (u.tell [.count Ctr.wcRmw i, .count Ctr.gsLinesRead j,
      .count Ctr.gsLinesWritten k, .count Ctr.heldReplayed n]) := fun u i j k n =>
    countOps_works u [(Ctr.wcRmw, i), (Ctr.gsLinesRead, j), (Ctr.gsLinesWritten, k), (Ctr.heldReplayed, n)] rfl (Nat.le_of_ble_eq_true rfl)
  unfold State.hold
  dsimp only
  refine Works.trans ?_ (htold _ _ _ _ _)
  refine Works.trans (Works.trans (hgs _ _) (Works.forEach (fun u r => hload u _ _) _ _)) (Works.forEach (fun u e => ?_) _ _)
  exact (hload u _ _).trans (dualWrite_works _ _ _ _)

theorem refreshDue_tells (s : State) (p : Nat) : Tells 0 s.tel (s.refreshDue p).tel := by
  have hburst : ∀ (u : State) (k : Nat), Tells 0 u.tel (u.refresh k p).tel := by
    intro u k
    unfold State.refresh
    exact (count_works _ (by decide)).tells
  unfold State.refreshDue
  dsimp only
  split
  · exact .refl _
  · exact .refl _
  · exact .refl _
  · split
    · exact hburst s _
    · exact .refl _
  · exact hburst (State.setSched ..) _

/-- The state in which the map changes: what is left of the copy is done, the requests are held, a due burst has run, and the copy has ended;
what a channel that cannot be read held has been rebuilt. -/
def atSwitch (s : State) (c : ChCopy) : State :=
  let r := s.copyRest c
  let s0 := r.1.hold r.2
  let s1 := (if r.2.op = 3 then s0 else s0.refreshDue (mgetD s.gs.lmap c.lch c.lch)).endCopy c.lch
  if r.2.readable then s1 else s1.rebuild c.lch (fun _ _ => true) true

theorem endCopy_acting (s : State) (f : Nat) : (s.endCopy f).acting f = false := by
  unfold State.acting
  refine List.any_eq_false.mpr fun c hc => ?_
  have hne := (List.mem_filter.mp hc).2
  exact fun heq => bne_iff_ne.mp hne (beq_iff_eq.mp heq)

theorem acting_of_copies {s t : State} (h : t.gs.copies = s.gs.copies) (f : Nat) : t.acting f = s.acting f := by
  unfold State.acting
  rw [h]

theorem Stays.copies {s t : State} (h : Stays s t) : t.gs.copies = s.gs.copies := (congrArg Ground.copies h.maps :)

theorem Stays.lmap {s t : State} (h : Stays s t) : t.gs.lmap = s.gs.lmap := (congrArg Ground.lmap h.maps :)

theorem Stays.folded {s t : State} (h : Stays s t) : t.gs.folded = s.gs.folded := (congrArg Ground.folded h.maps :)

theorem Stays.phys {s t : State} (h : Stays s t) (p : Nat) : t.phys p = s.phys p := phys_of_phys (congrArg Ground.phys h.maps :) p

theorem atSwitch_acting (s : State) (c : ChCopy) : (atSwitch s c).acting c.lch = false := by
  unfold atSwitch
  dsimp only
  split
  · exact endCopy_acting ..
  · exact (acting_of_copies (rebuild_stays ..).copies _).trans (endCopy_acting ..)

/-- Of a channel that can be read, no event but those of counters is told before the map changes. -/
theorem atSwitch_tells (s : State) {c : ChCopy} (h : c.readable = true) : Tells 0 s.tel (atSwitch s c).tel := by
  have hheld : ∀ d : ChCopy, Tells 0 s.tel ((s.copyRest c).1.hold d).tel := fun d => (copyRest_tells s c).trans (hold_works _ d).tells
  have hreadable : (s.copyRest c).2.readable = true := by
    unfold State.copyRest
    dsimp only
    split <;> exact h
  unfold atSwitch
  dsimp only
  rw [if_pos hreadable]
  split
  · exact hheld _
  · exact (hheld _).trans (refreshDue_tells ..)

/-! ## The ways of the cache up to a switch -/

theorem addLoads_ways {α : Type} {f : State → α → State} (h : ∀ s a, (f s a).ch.ways = s.ch.ways) (l : List α) (s : State) :
    (State.forEach f l s).ch.ways = s.ch.ways :=
  forEach_keeps (P := fun u => u.ch.ways = s.ch.ways) l (fun u a _ hu => (h u a).trans hu) s rfl

theorem addLoad_ways (s : State) (ch : Nat) (l : List (Nat × Nat)) : (s.addLoad ch l).ch.ways = s.ch.ways := rfl

theorem copyLoad_ways (s : State) (c : ChCopy) : (s.copyLoad c).ch.ways = s.ch.ways := by
  unfold State.copyLoad
  dsimp only
  split
  · exact addLoad_ways ..
  have hdonors : ∀ (u : State) (f : Nat → Nat) (g : State → Nat → List (Nat × Nat)),
      (State.forEach (fun v i => v.addLoad (f i) (g v i)) (List.range 7) u).ch.ways = u.ch.ways := fun u _ _ =>
    addLoads_ways (f := fun v i => v.addLoad _ _) (fun _ _ => addLoad_ways ..) _ u
  split
  · exact (addLoad_ways ..).trans ((hdonors ..).trans (addLoad_ways ..))
  · exact (hdonors ..).trans (addLoad_ways ..)

theorem copyRest_ways (s : State) (c : ChCopy) : (s.copyRest c).1.ch.ways = s.ch.ways := by
  unfold State.copyRest
  dsimp only
  split
  · rfl
  · exact copyLoad_ways s c

theorem dualWrite_ch (s : State) (ch bank line : Nat) : (s.dualWrite ch bank line).ch = s.ch :=
  same_of_hide (dualWrite_hide (M := butZone .ch) rfl rfl ..) .ch rfl

theorem hold_ways (s : State) (c : ChCopy) : (s.hold c).ch.ways = s.ch.ways := by
  have hissued : ∀ (u : State) (l : List Req), (State.forEach (fun v r => v.addLoad r.ch [(r.bank, 1)]) l u).ch.ways = u.ch.ways := fun u l =>
    addLoads_ways (f := fun v (r : Req) => v.addLoad r.ch [(r.bank, 1)]) (fun _ _ => addLoad_ways ..) l u
  unfold State.hold
  dsimp only
  refine (addLoads_ways (fun u e => ?_) _ _).trans (hissued ..)
  exact (congrArg Cache.ways (dualWrite_ch ..)).trans (addLoad_ways ..)

theorem refreshDue_ch (s : State) (p : Nat) : (s.refreshDue p).ch = s.ch := by
  unfold State.refreshDue
  dsimp only
  split
  · rfl
  · rfl
  · rfl
  · split <;> rfl
  · rfl

theorem atSwitch_ways (s : State) {c : ChCopy} (h : c.readable = true) : (atSwitch s c).ch.ways = s.ch.ways := by
  have hreadable : (s.copyRest c).2.readable = true := by
    unfold State.copyRest
    dsimp only
    split <;> exact h
  unfold atSwitch
  dsimp only
  rw [if_pos hreadable]
  split
  · exact (hold_ways ..).trans (copyRest_ways ..)
  · exact (congrArg Cache.ways (refreshDue_ch ..)).trans ((hold_ways ..).trans (copyRest_ways ..))

/-! ## After the change of the map -/

theorem tellTested_stays (s : State) (r : Option TgRes) : Stays s (s.tellTested r) := by
  cases r with
  | none => exact .refl s
  | some r => exact tell_stays ..

theorem gsDone_stays (s : State) (lch op : Nat) : Stays s (s.gsDone lch op) := (Works.of_hide (gsDone_hide rfl s lch op)).stays

theorem replay_works (s : State) (c : ChCopy) (waits : List WcEntry) : Works 0 s (s.replay c waits) := by
  have hmoved : ∀ (f : Req → Req) (h : WcEntry → WcEntry),
      Works 0 s (s.onGs fun g => { g with queues := g.queues.map f, wcWait := g.wcWait.map h }) := fun _ _ => .of_maps rfl rfl
  exact (hmoved _ _).trans (Works.forEach (fun u e => wcNext_works u _) _ _)

theorem onRl_stays (s : State) (f : Rel → Rel) : Stays s (s.onRl f) := .same rfl rfl

theorem foldReduces_stays (s : State) : Stays s s.foldReduces := by
  unfold State.foldReduces State.reduce
  split
  · exact (onRl_stays ..).trans (tell_stays ..)
  · exact .refl s

theorem unfoldRestores_stays (s : State) : Stays s s.unfoldRestores := by
  unfold State.unfoldRestores
  split
  · exact onRl_stays ..
  · exact .refl s

theorem settleTwins_works (s : State) : Works 0 s s.settleTwins := .of_maps rfl rfl

theorem rehouse_stays (s : State) (all : Bool) (w : Way) : Stays s (s.rehouse all w) := by
  have hdropped : ∀ u : State, Stays u (if all then u.dropReplicas w.key w.ver 1 else u) := by
    intro u
    split
    · exact dropReplicas_stays ..
    · exact .refl u
  unfold State.rehouse
  split
  · exact .refl s
  split
  · exact dropWay_stays ..
  split
  · exact dropWay_stays ..
  split
  · exact (hdropped s).trans (moveMaster_stays ..)
  · exact dropOrLose_stays ..

theorem rehouseAll_stays (s : State) (all : Bool) : Stays s (s.rehouseAll all) :=
  (Stays.forEach (fun u w => rehouse_stays u all w) _ s).trans (settleTwins_works _).stays

/-- With no copies in the cache, only the twins settle. -/
theorem rehouseAll_empty {s : State} (h : s.ch.ways = []) (all : Bool) : s.rehouseAll all = s.settleTwins := by
  unfold State.rehouseAll
  rw [h]
  rfl

theorem auditHw_tells (s : State) (action target : Nat) : Tells 1 s.tel (s.auditHw action target).tel := by
  have hrecord : ∀ (u : State) (up : Bool) (a : Audit),
      Tells 1 u.tel (u.tell ((if up then auditLogs a else []) ++ [.count Ctr.auditRecords 1])).tel := by
    intro u up a
    have hcount : Calm actionCounters (.count Ctr.auditRecords 1) := by
      change Ctr.auditRecords ∈ actionCounters
      decide
    have hlog : ∀ o ∈ auditLogs a, Calm actionCounters o := calm_cons trivial (calm_cons trivial (calm_cons trivial (calm_nil _)))
    cases up with
    | true =>
      exact (tell_tells u (auditLogs a ++ [.count Ctr.auditRecords 1]) (List.forall_mem_append.mpr ⟨hlog, calm_cons hcount (calm_nil _)⟩)
        (Nat.le_of_ble_eq_true rfl)).mono (Nat.zero_le 1)
    | false => exact (tell_tells u [.count Ctr.auditRecords 1] (calm_cons hcount (calm_nil _)) (Nat.le_of_ble_eq_true rfl)).mono (Nat.zero_le 1)
  unfold State.auditHw State.auditAdd
  split
  · split
    · exact (Tells.refl _).mono (Nat.zero_le 1)
    · exact event_tells _ _
  · exact hrecord _ _ _

theorem spareLow_tells (s : State) (lch p kind left : Nat) : Tells 1 s.tel (s.spareLow lch p kind left).tel := by
  unfold State.spareLow
  split
  · exact event_tells _ _
  · exact (Tells.refl _).mono (Nat.zero_le 1)

/-- A channel that is in service: ACTIVE, and its lines are no test's. -/
def active (s : State) (pch : Nat) : State := s.onPhys pch fun x => { x with state := .active, fill := none }

theorem enterService_stays (s : State) (lch pch kind : Nat) (spare : Bool) : Stays (active s pch) (s.enterService lch pch kind spare) := by
  unfold State.enterService
  dsimp only
  refine Stays.trans ?_ (tell_stays ..)
  split
  · exact spareTold_stays ..
  · exact .refl _

end Sys2Proof.Proofs
end

section
/-!
PROOFS. O45: what serves a channel once an action has switched it, and the retest of the channel that a REPLACE left (R315 to R318).
-/

namespace Sys2Proof.Proofs

open Sys2Proof Sys2Proof.Machine Sys2Proof.Laws

/-! ## The change of the map -/

/-- A switch changes the map in the state `atSwitch`, by what its action's own function does. -/
theorem switchCh_at (s : State) (c : ChCopy) (pass : Option (Option TgRes)) :
    ∃ (d : ChCopy) (waits : List WcEntry), d.lch = c.lch ∧ d.op = c.op ∧ d.pch = c.pch ∧ s.switchCh c pass =
      if d.op = 1 then ((atSwitch s c).switchReplace d (mgetD s.gs.lmap c.lch c.lch) pass).replay d waits
      else if d.op = 2 then (atSwitch s c).switchFold d (mgetD s.gs.lmap c.lch c.lch) waits
      else (atSwitch s c).switchUnfold d (mgetD s.gs.lmap c.lch c.lch) waits := by
  have hsame : (s.copyRest c).2.lch = c.lch ∧ (s.copyRest c).2.op = c.op ∧ (s.copyRest c).2.pch = c.pch := by
    unfold State.copyRest
    dsimp only
    split <;> exact ⟨rfl, rfl, rfl⟩
  obtain ⟨hlch, hop, hpch⟩ := hsame
  exact ⟨(s.copyRest c).2, _, hlch, hop, hpch, rfl⟩

theorem enterService_raises {s u t : State} {lch pch kind : Nat} {spare : Bool} (htells : Tells 0 s.tel u.tel)
    (hafter : (u.enterService lch pch kind spare).tel.evq <+: t.tel.evq) : State.raised s t 0xB04 := by
  have hspare : Tells 2 u.tel (if spare then ((active u pch).auditSpare pch).spareLow lch pch 2 (active u pch).spareChs.length
      else active u pch).tel := by
    split
    · exact (auditHw_tells (active u pch) 0x8006 pch).trans (spareLow_tells ..)
    · exact (Tells.refl u.tel).mono (Nat.zero_le 2)
  obtain ⟨hring, hgrows, hbound⟩ := htells.trans hspare
  refine raised_amid own_mem_actionCounters (ops := []) (rest := []) rfl hring hgrows (calm_nil _) (Nat.le_of_ble_eq_true rfl) ?_ hafter
  intro hspace
  have hclear := clearOn_le actionCounters s.tel
  have hlen : actionCounters.length = 12 := rfl
  simp only [queueBound, sumBy]
  omega

/-! ## REPLACE -/

theorem leaves_untested (x : Phys) : (x.leaves (some none)).state = .failed := rfl

theorem leaves_tested (x : Phys) (r : TgRes) : (x.leaves (some (some r))).state = if r.errors = 0 then .spare else .failed := by
  change (if (r.errors == 0) = true then PhysState.spare else .failed) = _
  simp only [beq_iff_eq]

/-- The new channel of a REPLACE serves f, in the group of the old one. -/
def replaceMap (s : State) (c : ChCopy) (old : Nat) (pass : Option (Option TgRes)) : State :=
  (s.joinGroup c.pch old).onGs fun g =>
    { g with lmap := mset g.lmap c.lch c.pch, retests := if pass.isNone then mset g.retests c.lch old else g.retests }

/-- The old channel of a REPLACE has left. -/
def replaceLeft (s : State) (c : ChCopy) (old : Nat) (pass : Option (Option TgRes)) : State :=
  ((replaceMap s c old pass).enterService c.lch c.pch 2 true).onPhys old fun x => x.leaves pass

theorem switchReplace_stays (s : State) (c : ChCopy) (old : Nat) (pass : Option (Option TgRes)) (waits : List WcEntry) :
    Stays (replaceLeft s c old pass) ((s.switchReplace c old pass).replay c waits) :=
  (((tellTested_stays (replaceLeft s c old pass) (pass.getD none)).trans (count_stays ..)).trans (gsDone_stays ..)).trans
    (replay_works ..).stays

theorem replaceMap_stays (s : State) (c : ChCopy) (old : Nat) (pass : Option (Option TgRes)) :
    Stays (active (replaceMap s c old pass) c.pch) ((replaceMap s c old pass).enterService c.lch c.pch 2 true) :=
  enterService_stays ..

theorem switchReplace_serves (s : State) (c : ChCopy) (old : Nat) (pass : Option (Option TgRes)) (waits : List WcEntry) :
    mget ((s.switchReplace c old pass).replay c waits).gs.lmap c.lch = some c.pch ∧
      ((s.switchReplace c old pass).replay c waits).gs.copies = s.gs.copies := by
  have hafter := switchReplace_stays s c old pass waits
  have hmap := replaceMap_stays s c old pass
  constructor
  · rw [hafter.lmap]
    exact (congrArg (mget · c.lch) hmap.lmap).trans (mget_mset_self ..)
  · exact hafter.copies.trans hmap.copies

theorem switchReplace_phys (s : State) {c : ChCopy} {old : Nat} (hne : old ≠ c.pch) (pass : Option (Option TgRes)) (waits : List WcEntry) :
    (((s.switchReplace c old pass).replay c waits).phys c.pch).state = .active ∧
      ∃ x : Phys, ((s.switchReplace c old pass).replay c waits).phys old = x.leaves pass := by
  have hafter := switchReplace_stays s c old pass waits
  constructor
  · rw [hafter.phys, replaceLeft, phys_onPhys_ne _ hne, (replaceMap_stays s c old pass).phys, active, phys_onPhys]
  · rw [hafter.phys, replaceLeft, phys_onPhys]
    exact ⟨_, rfl⟩

/-- A REPLACE that is switched leaves its channel served by the new one, and no action on it. -/
theorem switchCh_replaces (s : State) {c : ChCopy} (hop : c.op = 1) (pass : Option (Option TgRes)) :
    mget (s.switchCh c pass).gs.lmap c.lch = some c.pch ∧ (s.switchCh c pass).acting c.lch = false := by
  obtain ⟨d, waits, hlch, hdop, hpch, heq⟩ := switchCh_at s c pass
  rw [if_pos (hdop.trans hop)] at heq
  obtain ⟨hmap, hcopies⟩ := switchReplace_serves (atSwitch s c) d (mgetD s.gs.lmap c.lch c.lch) pass waits
  rw [heq, ← hpch]
  rw [hlch] at hmap
  exact ⟨hmap, (acting_of_copies hcopies _).trans (atSwitch_acting s c)⟩

/-! ## FOLD -/

theorem mem_insSorted_self {α : Type} (le : α → α → Bool) (a : α) (l : List α) : a ∈ insSorted le a l := by
  induction l with
  | nil => exact List.mem_cons_self
  | cons b l ih =>
    unfold insSorted
    split
    · exact List.mem_cons_of_mem b ih
    · exact List.mem_cons_self

/-- A channel is folded, and its physical channel is OFFLINE. -/
def foldMap (s : State) (c : ChCopy) (old : Nat) : State :=
  (s.onGs fun g => { g with folded := insSorted (fun a b => decide (a ≤ b)) c.lch g.folded }).onPhys old fun x =>
    { x.leaves none with tgDone := false, tgPass := false }

/-- What was held has gone to the donors, and the twins have settled. -/
def foldSettled (s : State) (c : ChCopy) (old : Nat) (waits : List WcEntry) : State := ((foldMap s c old).replay c waits).settleTwins

theorem foldSettled_works (s : State) (c : ChCopy) (old : Nat) (waits : List WcEntry) :
    Works 0 (foldMap s c old) (foldSettled s c old waits) :=
  (replay_works ..).trans (settleTwins_works _)

theorem switchFold_stays {s : State} (c : ChCopy) (old : Nat) (waits : List WcEntry) (hways : s.ch.ways = []) :
    ∃ e e' : Event, e.code = BitVec.ofNat 32 0xB06 ∧
      Stays ((foldSettled s c old waits).tell ([.count Ctr.chFolded 1] ++ .event e :: [.event e'])) (s.switchFold c old waits) := by
  have hnone : ((foldMap s c old).replay c waits).ch.ways = [] := by
    rw [show ((foldMap s c old).replay c waits).ch = s.ch from same_of_hide (replay_hide (M := butZone .ch) rfl rfl ..) .ch rfl]
    exact hways
  have hsettled : ((foldMap s c old).replay c waits).rehouseAll false = foldSettled s c old waits := rehouseAll_empty hnone false
  refine ⟨storeEvent ((foldMap s c old).replay c waits) 0xB06 (some c.lch) old 0 0 0 0,
    storeEvent ((foldMap s c old).replay c waits) 0xB04 (some c.lch) old 3 0 0 0, rfl, ?_⟩
  rw [← hsettled]
  exact (foldReduces_stays _).trans (gsDone_stays ..)

/-! ## UNFOLD -/

/-- A channel that was folded is served by its new channel. -/
def unfoldMap (s : State) (c : ChCopy) (waits : List WcEntry) : State :=
  ((s.joinGroup c.pch (mgetD s.gs.lmap (c.lch ^^^ 1) (c.lch ^^^ 1))).replay c waits).onGs fun g =>
    { g with folded := g.folded.filter (fun x => x != c.lch), lmap := mset g.lmap c.lch c.pch }

theorem unfoldMap_tel (s : State) (c : ChCopy) (waits : List WcEntry) : Tells 0 s.tel (unfoldMap s c waits).tel :=
  (replay_works (s.joinGroup c.pch _) c waits).tells

theorem switchUnfold_stays (s : State) (c : ChCopy) (old : Nat) (waits : List WcEntry) :
    Stays ((unfoldMap s c waits).enterService c.lch c.pch 4 (c.pch != old)) (s.switchUnfold c old waits) :=
  ((rehouseAll_stays _ true).trans (unfoldRestores_stays _)).trans (gsDone_stays ..)

theorem switchUnfold_serves (s : State) (c : ChCopy) (old : Nat) (waits : List WcEntry) :
    (s.switchUnfold c old waits).foldedCh c.lch = false ∧ mget (s.switchUnfold c old waits).gs.lmap c.lch = some c.pch ∧
      (s.switchUnfold c old waits).gs.copies = s.gs.copies := by
  have hafter : Stays (active (unfoldMap s c waits) c.pch) (s.switchUnfold c old waits) :=
    (enterService_stays ..).trans (switchUnfold_stays s c old waits)
  have hreplay : Stays (s.joinGroup c.pch (mgetD s.gs.lmap (c.lch ^^^ 1) (c.lch ^^^ 1))) (State.replay _ c waits) := (replay_works ..).stays
  refine ⟨?_, ?_, hafter.copies.trans hreplay.copies⟩
  · unfold State.foldedCh
    rw [hafter.folded]
    refine Bool.eq_false_iff.mpr fun h => ?_
    have hmem := List.mem_filter.mp (List.contains_iff_mem.mp h)
    exact bne_iff_ne.mp hmem.2 rfl
  · rw [hafter.lmap]
    exact mget_mset_self ..

/-! ## The commands -/

theorem lch_of_find {f : Nat} {c : ChCopy} {l : List ChCopy} (h : l.find? (fun c => c.lch == f) = some c) : c.lch = f := by
  have hhit := List.find?_some h
  exact beq_iff_eq.mp hhit

theorem find_none_of_idle {s : State} {f : Nat} (h : s.acting f = false) : s.gs.copies.find? (fun c => c.lch == f) = none :=
  List.find?_eq_none.mpr fun c hc hit => List.any_eq_false.mp h c hc hit

theorem exec_channelSwitch {f : Nat} {c : ChCopy} {s : State} (hfind : s.gs.copies.find? (fun c => c.lch == f) = some c)
    (hup : s.roleUp 3 = true) (res : Option TgRes) : exec (.channelSwitch f res) s = .next (s.switchCh c (some res)) := by
  change Host.Outcome.next _ = _
  rw [hup, hfind]
  rfl

theorem retestOld_tests {f q : Nat} {s : State} (hq : mget s.gs.retests f = some q) (hoff : (s.phys q).state = .offline) (res : Option TgRes) :
    Stays ((s.onGs fun g => { g with retests := mdel g.retests f }).onPhys q fun x => x.leaves (some res)) (s.retestOld f res) := by
  unfold State.retestOld
  rw [hq]
  dsimp only
  rw [if_pos hoff]
  exact tellTested_stays ..

/-- A replaced channel is served by its new channel; the old one has been retrained and tested. -/
theorem replace_switches {f : Nat} {c : ChCopy} {s : State} (res : Option TgRes) (hfind : s.gs.copies.find? (fun c => c.lch == f) = some c)
    (hup : s.roleUp 3 = true) (hop : c.op = 1) (hreadable : c.readable = true) :
    ∃ t, exec (.channelSwitch f res) s = .next t ∧ mget t.gs.lmap f = some c.pch ∧ t.acting f = false ∧
      (mgetD s.gs.lmap f f ≠ c.pch → (t.phys c.pch).state = .active ∧
        ((res = none ∨ ∃ r, res = some r ∧ r.errors ≠ 0) → (t.phys (mgetD s.gs.lmap f f)).state = .failed) ∧
        ((∃ r, res = some r ∧ r.errors = 0) → (t.phys (mgetD s.gs.lmap f f)).state = .spare)) ∧ State.raised s t 0xB04 := by
  obtain rfl := lch_of_find hfind
  obtain ⟨d, waits, hlch, hdop, hpch, heq⟩ := switchCh_at s c (some res)
  rw [if_pos (hdop.trans hop)] at heq
  obtain ⟨hmap, hacting⟩ := switchCh_replaces s hop (some res)
  refine ⟨_, exec_channelSwitch hfind hup res, hmap, hacting, ?_⟩
  rw [heq, ← hpch]
  refine ⟨fun hne => ?_, ?_⟩
  · obtain ⟨hactive, x, hold⟩ := switchReplace_phys (atSwitch s c) hne (some res) waits
    rw [hold]
    refine ⟨hactive, ?_, ?_⟩
    · rintro (rfl | ⟨r, rfl, herrors⟩)
      · exact leaves_untested x
      · rw [leaves_tested, if_neg herrors]
    · rintro ⟨r, rfl, herrors⟩
      rw [leaves_tested, if_pos herrors]
  · exact enterService_raises (u := replaceMap (atSwitch s c) d _ _) (atSwitch_tells s hreadable)
      (switchReplace_stays (atSwitch s c) d _ (some res) waits).grows

/-- A folded channel's physical channel is OFFLINE. -/
theorem fold_switches {f : Nat} {c : ChCopy} {s : State} (res : Option TgRes) (hfind : s.gs.copies.find? (fun c => c.lch == f) = some c)
    (hup : s.roleUp 3 = true) (hop : c.op = 2) (hreadable : c.readable = true) (hways : s.ch.ways = []) :
    ∃ t, exec (.channelSwitch f res) s = .next t ∧ t.foldedCh f = true ∧ t.acting f = false ∧
      (t.phys (mgetD s.gs.lmap f f)).state = .offline ∧ State.raised s t 0xB06 := by
  obtain rfl := lch_of_find hfind
  obtain ⟨d, waits, hlch, hdop, hpch, heq⟩ := switchCh_at s c (some res)
  rw [if_neg (by omega), if_pos (hdop.trans hop)] at heq
  refine ⟨_, exec_channelSwitch hfind hup res, ?_⟩
  rw [heq]
  obtain ⟨e, e', hcode, hlast⟩ := switchFold_stays d (mgetD s.gs.lmap c.lch c.lch) waits ((atSwitch_ways s hreadable).trans hways)
  have hsettled := foldSettled_works (atSwitch s c) d (mgetD s.gs.lmap c.lch c.lch) waits
  have hafter := (hsettled.stays.trans (tell_stays ..)).trans hlast
  refine ⟨?_, ?_, ?_, ?_⟩
  · unfold State.foldedCh
    rw [hafter.folded, ← hlch]
    exact List.contains_iff_mem.mpr (mem_insSorted_self _ d.lch _)
  · exact (acting_of_copies hafter.copies _).trans (atSwitch_acting s c)
  · rw [hafter.phys, foldMap, phys_onPhys]
    rfl
  · obtain ⟨hring, hgrows, hbound⟩ := (atSwitch_tells s hreadable).trans hsettled.tells
    have hfolded : Calm actionCounters (.count Ctr.chFolded 1) := by
      change Ctr.chFolded ∈ actionCounters
      decide
    refine raised_amid own_mem_actionCounters hcode hring hgrows (calm_cons hfolded (calm_nil _)) (Nat.le_of_ble_eq_true rfl) ?_ hlast.grows
    intro hspace
    have hclear := clearOn_le actionCounters s.tel
    have hlen : actionCounters.length = 12 := rfl
    simp only [queueBound, sumBy, opEvents]
    omega

/-- An unfolded channel is served by its new channel, whatever copies the cache holds. -/
theorem unfold_switches {f : Nat} {c : ChCopy} {s : State} (res : Option TgRes) (hfind : s.gs.copies.find? (fun c => c.lch == f) = some c)
    (hup : s.roleUp 3 = true) (hop : c.op = 3) (hreadable : c.readable = true) :
    ∃ t, exec (.channelSwitch f res) s = .next t ∧ t.foldedCh f = false ∧ mget t.gs.lmap f = some c.pch ∧ t.acting f = false ∧
      State.raised s t 0xB04 := by
  obtain rfl := lch_of_find hfind
  obtain ⟨d, waits, hlch, hdop, hpch, heq⟩ := switchCh_at s c (some res)
  rw [if_neg (by omega), if_neg (by omega)] at heq
  refine ⟨_, exec_channelSwitch hfind hup res, ?_⟩
  rw [heq, ← hpch]
  obtain ⟨hfolded, hmap, hcopies⟩ := switchUnfold_serves (atSwitch s c) d (mgetD s.gs.lmap c.lch c.lch) waits
  rw [hlch] at hfolded hmap
  refine ⟨hfolded, hmap, (acting_of_copies hcopies _).trans (atSwitch_acting s c), ?_⟩
  exact enterService_raises ((atSwitch_tells s hreadable).trans (unfoldMap_tel _ d waits)) (switchUnfold_stays ..).grows

/-- With no action on a channel, its switch retests what its last REPLACE left. -/
theorem channelSwitch_retests {f q : Nat} (r : TgRes) {s : State} (hidle : s.acting f = false) (hup : s.roleUp 3 = true)
    (hq : mget s.gs.retests f = some q) (hoff : (s.phys q).state = .offline) :
    ∃ t, exec (.channelSwitch f (some r)) s = .next t ∧ mget t.gs.retests f = none ∧
      (t.phys q).state = if r.errors = 0 then .spare else .failed := by
  have hexec : exec (.channelSwitch f (some r)) s = .next (s.retestOld f (some r)) := by
    change Host.Outcome.next _ = _
    rw [hup, find_none_of_idle hidle]
    rfl
  have hafter := retestOld_tests hq hoff (some r)
  refine ⟨_, hexec, ?_, ?_⟩
  · have hretests : (s.retestOld f (some r)).gs.retests = mdel s.gs.retests f := (congrArg Ground.retests hafter.maps :)
    rw [hretests, mget_mdel, if_pos rfl]
  · rw [hafter.phys, phys_onPhys]
    exact leaves_tested _ r

/-- Settles O45, part by part: REPLACE, FOLD and UNFOLD, each at the change of the map, and the retest. -/
theorem channelsSwitch : Obligations.ChannelsSwitch := by
  unfold Obligations.ChannelsSwitch
  refine ⟨?_, ?_, ?_, ?_⟩
  · exact fun _ res _ _ hfind hup hop hreadable => replace_switches res hfind hup hop hreadable
  · exact fun _ res _ _ hfind hup hop hreadable hways => fold_switches res hfind hup hop hreadable hways
  · exact fun _ res _ _ hfind hup hop hreadable _ => unfold_switches res hfind hup hop hreadable
  · exact fun _ _ r _ hidle hup hq hoff => channelSwitch_retests r hidle hup hq hoff

end Sys2Proof.Proofs
end

section
/-!
PROOFS. O44: the commands of CRH_GS_CMD, and what the check of a channel's margin starts (R311, R315, R317, R318, R321).
-/

namespace Sys2Proof.Proofs

open Sys2Proof Sys2Proof.Machine Sys2Proof.Laws

/-! ## A command of CRH_GS_CMD runs -/

/-- A register command that software starts now runs with its word in the register, in a state that else differs only in telemetry and in
what Steta keeps of authority. -/
theorem command_puts {s : State} {p : Path} {off go least r : Nat} {audited : Bool}
    (h : s.starts p off go least audited (some r) = true) {row : RegRow} (hrow : regAt off = some row) (val : Word64) (run : State → State) :
    ∃ s1, s.command p off go least audited (some r) val run = run (regPut s1 p off (commandWord (regGet s p off) val row.rw go)) ∧
      hide (maskOfZones [.tel, .st]) s1 = hide (maskOfZones [.tel, .st]) s := by
  simp only [State.starts, Bool.and_eq_true, beq_iff_eq, Bool.not_eq_true'] at h
  obtain ⟨⟨⟨hgate, hidle⟩, hcore⟩, hroom⟩ := h
  have hup : s.roleUp r = true := hcore
  unfold State.command
  rw [hgate, hrow]
  dsimp only
  rw [hidle, Bool.false_and, if_neg Bool.false_ne_true, hup, Bool.not_true, if_neg Bool.false_ne_true, hroom, if_neg Bool.false_ne_true]
  refine ⟨_, rfl, ?_⟩
  split
  · exact auditReg_keeps ..
  · rfl

/-- The state in which a command of CRH_GS_CMD runs: GO reads 1, and else only registers, telemetry and what Steta keeps of authority
differ. -/
structure Commanded (s : State) (p : Path) (u : State) : Prop where
  keeps : hide (maskOfZones [.regs, .tel, .st]) u = hide (maskOfZones [.regs, .tel, .st]) s
  cfg   : ∀ r, Reg.gsCmd ≠ r → u.cfg r = s.cfg r
  go    : bitb (regGet u p Reg.gsCmd) 31 = true

theorem regGet_gsCmd (s : State) (p : Path) : regGet s p Reg.gsCmd = mgetD s.regs Reg.gsCmd (regReset s.fuses.member Reg.gsCmd) := rfl

theorem regGet_gsCmd_put (s : State) (p : Path) (v : Word64) : regGet (regPut s p Reg.gsCmd v) p Reg.gsCmd = v := mgetD_mset_self ..

/-- A command ends at once with the result that there is. -/
def gsEnds (p : Path) (r : State × Option Nat) : State :=
  match r.2 with
  | some x => r.1.finish p Reg.gsCmd x
  | none => r.1

/-- What CRH_GS_CMD holds as a command of it starts. -/
def gsWord (s : State) (p : Path) (op ch : Nat) : Word64 :=
  commandWord (regGet s p Reg.gsCmd) (BitVec.ofNat 64 (ch % 256 + op * 256 + 2 ^ 31)) 0x80000FFF 31

theorem gsWord_go (s : State) (p : Path) {op : Nat} (hop : op < 16) (ch : Nat) : bitb (gsWord s p op ch) 31 = true := by
  have hlow : ch % 256 + op * 256 < 2 ^ 31 := by omega
  unfold bitb gsWord
  rw [getLsbD_commandWord _ _ _ (by decide) (by decide), BitVec.getLsbD_ofNat, Nat.add_comm, Nat.testBit_two_pow_add_eq,
    Nat.testBit_lt_two_pow hlow]
  rfl

/-- A command that the path may start now runs. -/
theorem gsCommand_runs {s : State} {p : Path} {op : Nat} (hop : op < 16) (hstarts : s.starts p Reg.gsCmd 31 1 (op != 5) (some 3) = true)
    (hmay : op = 5 ∨ p = .dbg ∨ 2 ≤ s.rights p) (ch : Nat) (run : State → State × Option Nat) :
    ∃ u, Commanded s p u ∧ s.gsCommand p op ch run = gsEnds p (run u) := by
  obtain ⟨s1, heq, hs1⟩ := command_puts hstarts (row := ⟨0x60020, .cmd, 0x80000FFF, 0x0, 0x0⟩) rfl
    (BitVec.ofNat 64 (ch % 256 + op * 256 + 2 ^ 31)) fun s => gsEnds p (run s)
  have hregs : s1.regs = s.regs := same_of_hide hs1 .regs rfl
  have hfuses : s1.fuses = s.fuses := same_of_hide hs1 .fuses rfl
  have hgate : s.gate p Reg.gsCmd 1 = .open' := by
    simp only [State.starts, Bool.and_eq_true, beq_iff_eq] at hstarts
    obtain ⟨⟨⟨hgate, -⟩, -⟩, -⟩ := hstarts
    exact hgate
  have hmade : ¬ (op != 5 && p != .dbg && decide (s.rights p < 2) && !(bitb (s.cfg Reg.gsCmd) 31)) = true := by
    simp only [Bool.and_eq_true, bne_iff_ne, decide_eq_true_eq]
    rintro ⟨⟨⟨hinst, hpath⟩, hrights⟩, -⟩
    rcases hmay with h | h | h
    · exact hinst h
    · exact hpath h
    · exact absurd hrights (Nat.not_lt.mpr h)
  refine ⟨regPut s1 p Reg.gsCmd (gsWord s p op ch), ⟨?_, fun r hr => ?_, ?_⟩, ?_⟩
  · rw [put_gsCmd_hide (M := maskOfZones [.regs, .tel, .st]) rfl]
    exact (congrArg (hide (maskOfZones [.regs, .tel, .st])) hs1 :)
  · change mgetD (mset s1.regs Reg.gsCmd _) r (regReset s1.fuses.member r) = mgetD s.regs r (regReset s.fuses.member r)
    rw [mgetD_mset_ne _ _ _ _ _ hr, hregs, hfuses]
  · rw [regGet_gsCmd_put]
    exact gsWord_go s p hop ch
  · unfold State.gsCommand
    rw [hgate]
    dsimp only
    rw [if_neg hmade]
    exact heq

/-- A command that runs to the same end wherever it may run. -/
theorem gsCommand_ends {s : State} {p : Path} {op : Nat} (hop : op < 16) (hstarts : s.starts p Reg.gsCmd 31 1 (op != 5) (some 3) = true)
    (hmay : op = 5 ∨ p = .dbg ∨ 2 ≤ s.rights p) (ch : Nat) {run r : State → State × Option Nat}
    (hrun : ∀ u, Commanded s p u → run u = r u) : ∃ u, Commanded s p u ∧ s.gsCommand p op ch run = gsEnds p (r u) := by
  obtain ⟨u, hu, heq⟩ := gsCommand_runs hop hstarts hmay ch run
  exact ⟨u, hu, heq.trans (congrArg (gsEnds p) (hrun u hu))⟩

theorem Commanded.gs {s u : State} {p : Path} (h : Commanded s p u) : u.gs = s.gs := by
  have hstore := congrArg State.gs h.keeps
  exact hstore

theorem Commanded.fuses {s u : State} {p : Path} (h : Commanded s p u) : u.fuses = s.fuses := same_of_hide h.keeps .fuses rfl

theorem Commanded.ch {s u : State} {p : Path} (h : Commanded s p u) : u.ch = s.ch := same_of_hide h.keeps .ch rfl

theorem Commanded.phys {s u : State} {p : Path} (h : Commanded s p u) (q : Nat) : u.phys q = s.phys q :=
  phys_of_phys (congrArg Ground.phys h.gs) q

theorem Commanded.own {s u : State} {p : Path} (h : Commanded s p u) (q : Path) (r : Nat) : u.own q r = s.own q r := by
  unfold State.own
  rw [show u.pregs = s.pregs from same_of_hide h.keeps .pregs rfl, h.fuses]

theorem Commanded.acting {s u : State} {p : Path} (h : Commanded s p u) (f : Nat) : u.acting f = s.acting f :=
  acting_of_copies (congrArg Ground.copies h.gs) f

theorem Commanded.chans {s u : State} {p : Path} (h : Commanded s p u) : u.chans = s.chans := by
  unfold State.chans
  rw [h.fuses]

theorem Commanded.pchOf {s u : State} {p : Path} (h : Commanded s p u) (f : Nat) : u.pchOf f = s.pchOf f := by
  unfold State.pchOf
  rw [h.chans, h.gs]

theorem Commanded.spareChs {s u : State} {p : Path} (h : Commanded s p u) : u.spareChs = s.spareChs := by
  unfold State.spareChs State.phys
  rw [h.fuses, h.gs]

theorem Commanded.donor {s u : State} {p : Path} (h : Commanded s p u) (f : Nat) : u.donor f = s.donor f := by
  unfold State.donor
  rw [h.gs]

theorem Commanded.foldedCh {s u : State} {p : Path} (h : Commanded s p u) (f : Nat) : u.foldedCh f = s.foldedCh f := by
  unfold State.foldedCh
  rw [h.gs]

theorem Commanded.pinPockets {s u : State} {p : Path} (h : Commanded s p u) : u.pinPockets = s.pinPockets := by
  unfold State.pinPockets State.pinUnits
  rw [h.cfg _ (by decide), h.chans]

theorem Commanded.scratchPockets {s u : State} {p : Path} (h : Commanded s p u) : u.scratchPockets = s.scratchPockets := by
  unfold State.scratchPockets State.scratchUnits
  rw [h.cfg _ (by decide), h.chans]

theorem Commanded.foldRoom {s u : State} {p : Path} (h : Commanded s p u) :
    2 * u.foldSets ≤ u.cachePockets ↔ 2 * s.foldSets ≤ s.cachePockets := by
  unfold State.foldSets State.cachePockets
  rw [h.pinPockets, h.scratchPockets, h.fuses]

theorem Commanded.testFinds {s u : State} {p : Path} (h : Commanded s p u) (cfg : Word64) (q : Nat) (r : TgRes) :
    u.testFinds cfg q r = s.testFinds cfg q r := by
  unfold State.testFinds State.testRun State.testLines
  rw [h.phys, h.fuses]

/-! ## The start of an action -/

theorem mem_startCopy (s : State) (c : ChCopy) (old : Option Nat) : c ∈ (s.startCopy c old).gs.copies := by
  have hmem : c ∈ s.gs.copies ++ [c] := List.mem_append_right _ List.mem_cons_self
  unfold State.startCopy
  dsimp only
  split
  · split <;> exact hmem
  · split <;> exact hmem

theorem startCopy_go (s : State) (c : ChCopy) (old : Option Nat) (p : Path) :
    regGet (s.startCopy c old) p Reg.gsCmd = regGet s p Reg.gsCmd := by
  rw [regGet_gsCmd, regGet_gsCmd]
  unfold State.startCopy
  dsimp only
  split
  · split <;> rfl
  · split <;> rfl

theorem startCopy_out (s : State) (c : ChCopy) (p : Nat) : ((s.startCopy c (some p)).phys p).state = .copyOut := by
  unfold State.startCopy
  dsimp only
  rw [phys_onPhys]

theorem startCopy_in {s : State} {c : ChCopy} {p : Nat} (hop : c.op ≠ 2) (hne : c.pch ≠ p) :
    ((s.startCopy c (some p)).phys c.pch).state = .copyIn := by
  unfold State.startCopy
  dsimp only
  rw [phys_onPhys_ne _ hne.symm, if_neg hop, phys_onPhys]

theorem startCopy_onto {s : State} {c : ChCopy} (hop : c.op ≠ 2) : ((s.startCopy c none).phys c.pch).state = .copyIn := by
  unfold State.startCopy
  dsimp only
  rw [if_neg hop, phys_onPhys]

theorem lt_chans_of_pchOf {s : State} {f r : Nat} (h : s.pchOf f = some r) : f < s.chans := by
  refine Nat.lt_of_not_le fun hge => ?_
  unfold State.pchOf at h
  rw [decide_eq_true hge] at h
  exact nomatch h

/-- REPLACE takes the lowest SPARE channel. -/
theorem replaceCh_starts {s : State} {f q r : Nat} {l : List Nat} (hr : s.pchOf f = some r) (hidle : s.acting f = false)
    (hspare : s.spareChs = q :: l) (readable : Bool) :
    s.replaceCh f readable = (if readable then s.startCopy { lch := f, op := 1, pch := q, readable := readable } (some r)
      else (s.startCopy { lch := f, op := 1, pch := q, readable := readable } (some r)).switchCh
        { lch := f, op := 1, pch := q, readable := readable } none, none) := by
  unfold State.replaceCh
  rw [if_neg (Nat.not_le.mpr (lt_chans_of_pchOf hr)), hr]
  dsimp only
  rw [hidle, hspare, if_neg Bool.false_ne_true]
  dsimp only
  cases readable <;> rfl

/-- FOLD starts at once where the cache holds nothing. -/
theorem foldCh_starts {s : State} {f r : Nat} (hr : s.pchOf f = some r) (hidle : s.acting f = false) (hdonor : s.donor f = false)
    (hroom : 2 * s.foldSets ≤ s.cachePockets) (hways : s.ch.ways = []) :
    s.foldCh f true [] = (s.startCopy { lch := f, op := 2, pch := r } (some r), none) := by
  have hnone : (s.startCopy { lch := f, op := 2, pch := r } (some r)).ch.ways = [] := hways
  unfold State.foldCh
  rw [if_neg (Nat.not_le.mpr (lt_chans_of_pchOf hr)), hr]
  dsimp only
  rw [hidle, hdonor, Bool.or_self, if_neg Bool.false_ne_true, if_neg (Nat.not_lt.mpr hroom), hnone]
  rfl

/-- UNFOLD takes the lowest SPARE channel. -/
theorem unfoldCh_starts {s : State} {f q : Nat} {l : List Nat} (hf : f < s.chans) (hfolded : s.foldedCh f = true) (hidle : s.acting f = false)
    (hspare : s.spareChs = q :: l) : s.unfoldCh f = (s.startCopy { lch := f, op := 3, pch := q } none, none) := by
  unfold State.unfoldCh State.unfoldOnto
  rw [if_neg (Nat.not_le.mpr hf), hfolded, hidle, hspare]
  rfl

/-- REPLACE starts a copy onto the lowest SPARE channel, with GO at 1. -/
theorem replace_starts {p : Path} {f q r : Nat} {l : List Nat} {s : State} (hstarts : s.starts p Reg.gsCmd 31 1 true (some 3) = true)
    (hmay : p = .dbg ∨ 2 ≤ s.rights p) (hbyte : f < 256) (hr : s.pchOf f = some r) (hidle : s.acting f = false) (hspare : s.spareChs = q :: l) :
    ∃ t, exec (.replace p f true) s = .next t ∧ (∃ c ∈ t.gs.copies, c.lch = f ∧ c.op = 1 ∧ c.pch = q) ∧
      (q ≠ r → (t.phys q).state = .copyIn) ∧ (t.phys r).state = .copyOut ∧ bitb (regGet t p Reg.gsCmd) 31 = true := by
  let c : ChCopy := { lch := f, op := 1, pch := q }
  obtain ⟨u, hu, heq⟩ := gsCommand_ends (op := 1) (by decide) hstarts (.inr hmay) f (run := fun s => s.replaceCh (f % 256) true)
    (r := fun u => (u.startCopy c (some r), none)) fun u hu => by
      rw [Nat.mod_eq_of_lt hbyte]
      exact replaceCh_starts ((hu.pchOf f).trans hr) ((hu.acting f).trans hidle) (hu.spareChs.trans hspare) true
  refine ⟨u.startCopy c (some r), congrArg Host.Outcome.next heq, ⟨c, mem_startCopy .., rfl, rfl, rfl⟩, fun hne => ?_, startCopy_out .., ?_⟩
  · exact startCopy_in (c := c) (show (1 : Nat) ≠ 2 by decide) hne
  · exact (congrArg (bitb · 31) (startCopy_go ..)).trans hu.go

/-- FOLD starts a copy, with GO at 1. -/
theorem fold_starts {p : Path} {f r : Nat} {s : State} (hstarts : s.starts p Reg.gsCmd 31 1 true (some 3) = true)
    (hmay : p = .dbg ∨ 2 ≤ s.rights p) (hbyte : f < 256) (hr : s.pchOf f = some r) (hidle : s.acting f = false) (hdonor : s.donor f = false)
    (hroom : 2 * s.foldSets ≤ s.cachePockets) (hways : s.ch.ways = []) :
    ∃ t, exec (.fold p f true []) s = .next t ∧ (∃ c ∈ t.gs.copies, c.lch = f ∧ c.op = 2) ∧ (t.phys r).state = .copyOut ∧
      bitb (regGet t p Reg.gsCmd) 31 = true := by
  let c : ChCopy := { lch := f, op := 2, pch := r }
  obtain ⟨u, hu, heq⟩ := gsCommand_ends (op := 2) (by decide) hstarts (.inr hmay) f (run := fun s => s.foldCh (f % 256) true [])
    (r := fun u => (u.startCopy c (some r), none)) fun u hu => by
      rw [Nat.mod_eq_of_lt hbyte]
      exact foldCh_starts ((hu.pchOf f).trans hr) ((hu.acting f).trans hidle) ((hu.donor f).trans hdonor) (hu.foldRoom.mpr hroom)
        ((congrArg Cache.ways hu.ch).trans hways)
  refine ⟨u.startCopy c (some r), congrArg Host.Outcome.next heq, ⟨c, mem_startCopy .., rfl, rfl⟩, startCopy_out .., ?_⟩
  exact (congrArg (bitb · 31) (startCopy_go ..)).trans hu.go

/-- UNFOLD starts a copy onto the lowest SPARE channel, with GO at 1. -/
theorem unfold_starts {p : Path} {f q : Nat} {l : List Nat} {s : State} (hstarts : s.starts p Reg.gsCmd 31 1 true (some 3) = true)
    (hmay : p = .dbg ∨ 2 ≤ s.rights p) (hbyte : f < 256) (hf : f < s.chans) (hfolded : s.foldedCh f = true) (hidle : s.acting f = false)
    (hspare : s.spareChs = q :: l) :
    ∃ t, exec (.unfold p f) s = .next t ∧ (∃ c ∈ t.gs.copies, c.lch = f ∧ c.op = 3 ∧ c.pch = q) ∧ (t.phys q).state = .copyIn ∧
      bitb (regGet t p Reg.gsCmd) 31 = true := by
  let c : ChCopy := { lch := f, op := 3, pch := q }
  obtain ⟨u, hu, heq⟩ := gsCommand_ends (op := 3) (by decide) hstarts (.inr hmay) f (run := fun s => s.unfoldCh (f % 256))
    (r := fun u => (u.startCopy c none, none)) fun u hu => by
      rw [Nat.mod_eq_of_lt hbyte]
      exact unfoldCh_starts (hu.chans.symm ▸ hf) ((hu.foldedCh f).trans hfolded) ((hu.acting f).trans hidle) (hu.spareChs.trans hspare)
  refine ⟨u.startCopy c none, congrArg Host.Outcome.next heq, ⟨c, mem_startCopy .., rfl, rfl, rfl⟩,
    startCopy_onto (c := c) (show (3 : Nat) ≠ 2 by decide), ?_⟩
  exact (congrArg (bitb · 31) (startCopy_go ..)).trans hu.go

/-! ## Commands on an idle channel -/

theorem idlePhys_acts {s : State} {q : Nat} (hq : q < Member.phys s.fuses.member)
    (hidle : (s.phys q).state = .spare ∨ (s.phys q).state = .offline) (act : State × Option Nat) : s.idlePhys q act = act := by
  unfold State.idlePhys
  rw [if_neg (Nat.not_le.mpr hq), if_pos]
  rcases hidle with h | h <;> rw [h] <;> rfl

theorem Commanded.idle {s u : State} {p : Path} (h : Commanded s p u) {q : Nat} (hq : q < Member.phys s.fuses.member)
    (hidle : (s.phys q).state = .spare ∨ (s.phys q).state = .offline) (act : State × Option Nat) : u.idlePhys q act = act :=
  idlePhys_acts (by rw [h.fuses]; exact hq) (by rw [h.phys]; exact hidle) act

/-- GO reads 0 with the result. -/
theorem finish_doneAt (s : State) (p : Path) {res : Nat} (hres : res < 256) : (s.finish p Reg.gsCmd res).doneAt p Reg.gsCmd res := by
  unfold State.doneAt State.finish
  rw [regGet_gsCmd_put]
  refine ⟨?_, (bitf_putf_self _ (by decide) res).trans (Nat.mod_eq_of_lt hres)⟩
  unfold bitb
  rw [getLsbD_putf_of_outside _ (.inl (by decide))]
  exact bitb_putf_self _ (by decide) 0

theorem finish_phys (s : State) (p : Path) (off res q : Nat) : (s.finish p off res).phys q = s.phys q :=
  phys_of_phys (congrArg Ground.phys (finish_gs s p off res)) q

theorem testLines_ge (s : State) (cfg : Word64) : 1024 ≤ s.testLines cfg := by
  unfold State.testLines
  dsimp only
  split
  · next h => exact Nat.pow_le_pow_right (n := 2) (by decide) h.1
  · cases s.fuses.member <;> decide

/-- A test reads lines, unless it only writes. -/
theorem testRun_reads (s : State) {cfg : Word64} (h : bitf cfg 2 2 ≠ 1) : (s.testRun cfg).1 ≠ 0 := by
  have hlines := testLines_ge s cfg
  unfold State.testRun
  dsimp only
  split
  · omega
  · contradiction
  · dsimp only
    omega
  · omega

/-- Lines that were written under the test's configuration, or that it writes itself, hold what it expects. -/
theorem testFinds_expected {s : State} {cfg : Word64} {q : Nat}
    (h : bitf cfg 2 2 = 3 ∨ bitf cfg 2 2 ≠ 1 ∧ (s.phys q).fill = some (testFill cfg)) (r : TgRes) : s.testFinds cfg q r = r := by
  have hdir : bitf cfg 2 2 ≠ 1 := by
    rcases h with h | ⟨h, -⟩
    · omega
    · exact h
  have hexpects : (bitf cfg 2 2 = 3 || (s.phys q).fill == some (testFill cfg)) = true := by
    rcases h with h | ⟨-, h⟩
    · rw [decide_eq_true h]
      rfl
    · rw [beq_iff_eq.mpr h, Bool.or_true]
  unfold State.testFinds
  dsimp only
  rw [if_neg (testRun_reads s hdir), if_pos hexpects]

theorem testFinds_errors {s : State} {cfg : Word64} {q : Nat} (hdir : bitf cfg 2 2 ≠ 1) {r : TgRes} (hr : r.errors ≠ 0) :
    (s.testFinds cfg q r).errors ≠ 0 := by
  unfold State.testFinds
  dsimp only
  rw [if_neg (testRun_reads s hdir)]
  split
  · exact hr
  · dsimp only
    omega

theorem testFinds_writes {s : State} {cfg : Word64} (hdir : bitf cfg 2 2 = 1) (q : Nat) (r : TgRes) : s.testFinds cfg q r = {} := by
  have hnone : (s.testRun cfg).1 = 0 := by
    unfold State.testRun
    dsimp only
    rw [hdir]
    rfl
  unfold State.testFinds
  dsimp only
  rw [if_pos hnone]

/-- A channel after a test of it. -/
def testedBy (s : State) (cfg : Word64) (q : Nat) (r : TgRes) (x : Phys) : Phys :=
  { x.tested (s.testFinds cfg q r) x.state with fill := if (s.testRun cfg).2 = 0 then x.fill else some (testFill cfg) }

theorem testCh_phys (s : State) (cfg : Word64) (q : Nat) (r : TgRes) : (s.testCh cfg q r).phys q = testedBy s cfg q r (s.phys q) :=
  phys_onPhys s q (testedBy s cfg q r)

theorem testedBy_state (s : State) (cfg : Word64) (q : Nat) (r : TgRes) (x : Phys) :
    (testedBy s cfg q r x).state = if (s.testFinds cfg q r).errors = 0 then x.state else .failed := by
  change (if ((s.testFinds cfg q r).errors == 0) = true then x.state else .failed) = _
  simp only [beq_iff_eq]

/-- The outcome of a test of an idle channel, by what it finds. -/
theorem test_outcome {s : State} {p : Path} {q : Nat} (hstarts : s.starts p Reg.gsCmd 31 1 false (some 3) = true) (hbyte : q < 256)
    (hq : q < Member.phys s.fuses.member) (hidle : (s.phys q).state = .spare ∨ (s.phys q).state = .offline) (errors tier bank line : Nat)
    {x : TgRes} (hx : s.testFinds (s.own p Reg.gsTgCfg) q { errors := errors, tier := tier, bank := bank, line := line } = x) :
    ∃ t, exec (.test p q errors tier bank line) s = .next t ∧ (t.phys q).tgDone = true ∧ (t.phys q).tgPass = (x.errors == 0) ∧
      (t.phys q).state = (if x.errors = 0 then (s.phys q).state else .failed) ∧ t.doneAt p Reg.gsCmd (if x.errors = 0 then 0 else 6) := by
  obtain ⟨u, hu, heq⟩ := gsCommand_ends (op := 5) (by decide) hstarts (.inl rfl) q
    (run := fun s =>
      let r : TgRes := { errors := errors, tier := tier, bank := bank, line := line }
      let cfg := s.own p Reg.gsTgCfg
      s.idlePhys (q % 256) (s.testCh cfg (q % 256) r, some (if (s.testFinds cfg (q % 256) r).errors = 0 then 0 else GsRes.testFail)))
    (r := fun u => (u.testCh (s.own p Reg.gsTgCfg) q { errors := errors, tier := tier, bank := bank, line := line },
      some (if x.errors = 0 then 0 else GsRes.testFail))) fun u hu => by
      dsimp only
      rw [Nat.mod_eq_of_lt hbyte, hu.idle hq hidle, hu.own, hu.testFinds, hx]
  have hphys := (finish_phys _ p Reg.gsCmd (if x.errors = 0 then 0 else GsRes.testFail) q).trans
    (testCh_phys u (s.own p Reg.gsTgCfg) q { errors := errors, tier := tier, bank := bank, line := line })
  have hfound := (hu.testFinds (s.own p Reg.gsTgCfg) q _).trans hx
  refine ⟨_, congrArg Host.Outcome.next heq, ?_, ?_, ?_, ?_⟩
  · exact congrArg Phys.tgDone hphys
  · exact (congrArg Phys.tgPass hphys).trans (congrArg (fun r : TgRes => r.errors == 0) hfound)
  · exact (congrArg Phys.state hphys).trans ((testedBy_state ..).trans (by rw [hfound, hu.phys]))
  · refine finish_doneAt _ p ?_
    split <;> decide

/-- The outcome of a retraining. -/
theorem retrained_state (x : Phys) (r : TgRes) : (x.retrained (some r)).state = if r.errors = 0 then .spare else .failed := by
  change (if (r.errors == 0) = true then PhysState.spare else .failed) = _
  simp only [beq_iff_eq]

/-- RETRAIN ends at once with the test that follows it. -/
theorem retrain_outcome {p : Path} {q : Nat} {s : State} (res : Option TgRes) (hstarts : s.starts p Reg.gsCmd 31 1 true (some 3) = true)
    (hmay : p = .dbg ∨ 2 ≤ s.rights p) (hbyte : q < 256) (hq : q < Member.phys s.fuses.member)
    (hidle : (s.phys q).state = .spare ∨ (s.phys q).state = .offline) :
    ∃ t, exec (.retrain p q res) s = .next t ∧
      ((res = none ∨ ∃ r, res = some r ∧ r.errors ≠ 0) → (t.phys q).state = .failed ∧ t.doneAt p Reg.gsCmd 6) ∧
      (∀ r, res = some r → (t.phys q).tgDone = true ∧ (t.phys q).tgPass = (r.errors == 0)) ∧
      ((∃ r, res = some r ∧ r.errors = 0) → (t.phys q).state = .spare ∧ t.doneAt p Reg.gsCmd 0) := by
  obtain ⟨u, hu, heq⟩ := gsCommand_ends (op := 4) (by decide) hstarts (.inr hmay) q
    (run := fun s => s.idlePhys (q % 256) ((s.onPhys (q % 256) (Phys.retrained · res)).tellTested res,
      some (if (s.phys (q % 256) |>.retrained res).state = .failed then GsRes.testFail else 0)))
    (r := fun u => ((u.onPhys q (Phys.retrained · res)).tellTested res,
      some (if ((s.phys q).retrained res).state = .failed then GsRes.testFail else 0))) fun u hu => by
      rw [Nat.mod_eq_of_lt hbyte, hu.idle hq hidle, hu.phys]
  have hphys : (gsEnds p ((u.onPhys q (Phys.retrained · res)).tellTested res,
      some (if ((s.phys q).retrained res).state = .failed then GsRes.testFail else 0))).phys q = (s.phys q).retrained res := by
    refine (finish_phys ..).trans (((tellTested_stays ..).phys q).trans ((phys_onPhys ..).trans ?_))
    rw [hu.phys]
  refine ⟨_, congrArg Host.Outcome.next heq, fun hbad => ?_, fun r hr => ?_, ?_⟩
  · have hfailed : ((s.phys q).retrained res).state = .failed := by
      rcases hbad with rfl | ⟨r, rfl, herrors⟩
      · rfl
      · rw [retrained_state, if_neg herrors]
    rw [hphys, hfailed, if_pos rfl]
    exact ⟨rfl, finish_doneAt _ p (by decide)⟩
  · subst hr
    rw [hphys]
    exact ⟨rfl, rfl⟩
  · rintro ⟨r, rfl, hgood⟩
    have hspare : ((s.phys q).retrained (some r)).state = .spare := by rw [retrained_state, if_pos hgood]
    rw [hphys, hspare, if_neg (by decide)]
    exact ⟨rfl, finish_doneAt _ p (by decide)⟩

/-- RETIRE ends at once. -/
theorem retire_outcome {p : Path} {q : Nat} {s : State} (hstarts : s.starts p Reg.gsCmd 31 1 true (some 3) = true)
    (hmay : p = .dbg ∨ 2 ≤ s.rights p) (hbyte : q < 256) (hq : q < Member.phys s.fuses.member)
    (hidle : (s.phys q).state = .spare ∨ (s.phys q).state = .offline) :
    ∃ t, exec (.retire p q) s = .next t ∧ (t.phys q).state = .failed ∧ t.doneAt p Reg.gsCmd 0 := by
  obtain ⟨u, -, heq⟩ := gsCommand_ends (op := 6) (by decide) hstarts (.inr hmay) q
    (run := fun s => s.idlePhys (q % 256) (s.onPhys (q % 256) fun x => { x with state := .failed }, some 0))
    (r := fun u => (u.onPhys q fun x => { x with state := .failed }, some 0)) fun u hu => by
      rw [Nat.mod_eq_of_lt hbyte, hu.idle hq hidle]
  refine ⟨_, congrArg Host.Outcome.next heq, ?_, finish_doneAt _ p (by decide)⟩
  exact congrArg Phys.state ((finish_phys ..).trans (phys_onPhys ..))

/-! ## Triggers of an action -/

/-- Under AUTO_REPAIR a trigger is answered with REPLACE, where that can start. -/
theorem channelAction_replaces {s : State} {f r : Nat} {readable : Bool} (hup : s.roleUp 3 = true) (hauto : s.autoRepair = true)
    (hr : s.pchOf f = some r) (hidle : s.acting f = false) (hstarts : (s.replaceCh f readable).2 = none) :
    s.channelAction f readable = (s.replaceCh f readable).1 := by
  unfold State.channelAction State.autoAction
  rw [hr]
  dsimp only
  rw [hidle, hup, hauto, hstarts]
  rfl

/-- A margin below its limit starts a REPLACE. -/
theorem lowMargin_starts {f q r : Nat} {l : List Nat} {s : State} (hup : s.roleUp 3 = true) (hauto : s.autoRepair = true)
    (hr : s.pchOf f = some r) (hidle : s.acting f = false) (hspare : s.spareChs = q :: l) :
    ∃ t, exec (.marginCheck f .low) s = .next t ∧ ∃ c ∈ t.gs.copies, c.lch = f ∧ c.op = 1 ∧ c.pch = q := by
  let c : ChCopy := { lch := f, op := 1, pch := q }
  have hstarts : s.replaceCh f true = (s.startCopy c (some r), none) := replaceCh_starts hr hidle hspare true
  have hexec := channelAction_replaces hup hauto hr hidle (congrArg Prod.snd hstarts)
  exact ⟨_, congrArg Host.Outcome.next (hexec.trans (congrArg Prod.fst hstarts)), c, mem_startCopy .., rfl, rfl, rfl⟩

/-- A channel that cannot be read is replaced at once. -/
theorem unreadable_switches {f q r : Nat} {l : List Nat} {s : State} (hup : s.roleUp 3 = true) (hauto : s.autoRepair = true)
    (hr : s.pchOf f = some r) (hidle : s.acting f = false) (hspare : s.spareChs = q :: l) :
    ∃ t, exec (.marginCheck f .unreadable) s = .next t ∧ mget t.gs.lmap f = some q ∧ t.acting f = false := by
  let c : ChCopy := { lch := f, op := 1, pch := q, readable := false }
  have hstarts : s.replaceCh f false = ((s.startCopy c (some r)).switchCh c none, none) := replaceCh_starts hr hidle hspare false
  have hexec : s.channelFails f = (s.startCopy c (some r)).switchCh c none := by
    unfold State.channelFails
    rw [find_none_of_idle hidle]
    exact (channelAction_replaces hup hauto hr hidle (congrArg Prod.snd hstarts)).trans (congrArg Prod.fst hstarts)
  refine ⟨_, congrArg Host.Outcome.next hexec, ?_⟩
  obtain ⟨hmap, hacting⟩ := switchCh_replaces (s.startCopy c (some r)) (c := c) rfl none
  exact ⟨hmap, hacting⟩

/-- A FOLD of a channel that can no longer be read goes on without reading it. -/
theorem unreadable_copyGoesOn {f : Nat} {c : ChCopy} {s : State} (hfind : s.gs.copies.find? (fun c => c.lch == f) = some c) (hop : c.op = 2) :
    ∃ t, exec (.marginCheck f .unreadable) s = .next t ∧ ∃ x ∈ t.gs.copies, x = { c with readable := false } := by
  have hexec : exec (.marginCheck f .unreadable) s = .next (s.onGs fun g =>
      { g with copies := g.copies.map fun x => if x.lch == f then { c with readable := false } else x }) := by
    change Host.Outcome.next (s.channelFails f) = _
    unfold State.channelFails
    rw [hfind]
    dsimp only
    rw [hop]
    rfl
  refine ⟨_, hexec, _, List.mem_map.mpr ⟨c, List.mem_of_find?_eq_some hfind, ?_⟩, rfl⟩
  rw [lch_of_find hfind, beq_self_eq_true, if_pos rfl]

/-- Settles O44, part by part: the starts of REPLACE, FOLD and UNFOLD, the commands on idle channels, and the checks of a margin. -/
theorem channelCommandsStart : Obligations.ChannelCommandsStart := by
  unfold Obligations.ChannelCommandsStart
  refine ⟨?_, ?_, ?_, ?_, ?_, ?_, ?_, ?_, ?_, ?_, ?_⟩
  · exact fun _ _ _ _ _ _ hstarts hmay hbyte hr hidle hspare => replace_starts hstarts hmay hbyte hr hidle hspare
  · exact fun _ _ _ _ hstarts hmay hbyte hr hidle hdonor hroom hways => fold_starts hstarts hmay hbyte hr hidle hdonor hroom hways
  · exact fun _ _ _ _ _ hstarts hmay hbyte hf hfolded hidle hspare => unfold_starts hstarts hmay hbyte hf hfolded hidle hspare
  · exact fun _ _ res _ hstarts hmay hbyte hq hidle => retrain_outcome res hstarts hmay hbyte hq hidle
  · intro p q errors tier bank line s hstarts hbyte hq hidle hcfg
    exact test_outcome hstarts hbyte hq hidle errors tier bank line (testFinds_expected hcfg _)
  · intro p q errors tier bank line s hstarts hbyte hq hidle herrors hdir
    obtain ⟨t, hexec, hdone, hpass, hstate, hend⟩ := test_outcome hstarts hbyte hq hidle errors tier bank line rfl
    have hfound := testFinds_errors (s := s) (cfg := s.own p Reg.gsTgCfg) (q := q) (by omega)
      (r := { errors := errors, tier := tier, bank := bank, line := line }) herrors
    rw [if_neg hfound] at hstate hend
    exact ⟨t, hexec, hdone, hpass.trans (beq_eq_false_iff_ne.mpr hfound), hstate, hend⟩
  · intro p q errors tier bank line s hstarts hbyte hq hidle hdir
    exact test_outcome hstarts hbyte hq hidle errors tier bank line (testFinds_writes hdir q _)
  · exact fun _ _ _ hstarts hmay hbyte hq hidle => retire_outcome hstarts hmay hbyte hq hidle
  · exact fun _ _ _ _ _ hup hauto hr hidle hspare => lowMargin_starts hup hauto hr hidle hspare
  · exact fun _ _ _ _ _ hup hauto hr hidle hspare => unreadable_switches hup hauto hr hidle hspare
  · exact fun _ _ _ hfind hop => unreadable_copyGoesOn hfind hop

end Sys2Proof.Proofs
end

section
/-!
PROOFS. O1, O2, O7, O8: what a step does with the queue, and that every command answers a next state (R430, R432; log entries 2 and 3).
-/

namespace Sys2Proof.Proofs

open Sys2Proof Sys2Proof.Machine Sys2Proof.Laws

/-- Settles O1: the queue's front command is what a step runs. -/
theorem stepRunsTheFrontCommand : Obligations.StepRunsTheFrontCommand := by
  unfold Obligations.StepRunsTheFrontCommand
  intro c rest s
  rfl

theorem step_of_pending_nil {s : State} (h : s.pending = []) : step s = .next s.idle := by
  unfold step
  rw [h]

theorem step_of_pending_cons {s : State} {c : Instr} {rest : List Instr} (h : s.pending = c :: rest) :
    step s = exec c { s with pending := rest } := by
  unfold step
  rw [h]

/-- Settles O2: an idle step changes the timestamp alone. -/
theorem idleStepAdvancesTheTimestamp : Obligations.IdleStepAdvancesTheTimestamp := by
  unfold Obligations.IdleStepAdvancesTheTimestamp
  intro s h
  exact ⟨s.idle, step_of_pending_nil h, rfl, rfl⟩

/-- No command's frame holds the queue. -/
theorem pending_not_mem_zonesAt (s : State) (c : Instr) : (zonesAt s c).contains .pending = false := by
  unfold zonesAt
  split
  · rfl
  · cases c <;> rfl

/-- Settles O7: a step takes the queue's front, and the command's frame leaves the rest of the queue as it was. -/
theorem everyStepTakesOneCommand : Obligations.EveryStepTakesOneCommand := by
  unfold Obligations.EveryStepTakesOneCommand
  intro s t h
  cases hpending : s.pending with
  | nil =>
    rw [step_of_pending_nil hpending] at h
    cases h
    exact hpending
  | cons c rest =>
    rw [step_of_pending_cons hpending] at h
    exact everyCommandKeepsItsFrame c _ t h .pending (pending_not_mem_zonesAt _ c)

/-- Settles O8: each command's meaning is a next state. -/
theorem noCommandStopsTheBlock : Obligations.NoCommandStopsTheBlock := by
  unfold Obligations.NoCommandStopsTheBlock
  intro c s
  cases c <;> exact ⟨_, rfl⟩

end Sys2Proof.Proofs
end

section
/-!
PROOFS. O6: the fuses. Only IMG_COMMIT, a commit that an emergency held, and FUSE_PROGRAM burn fuses; a mailbox command burns what its run
burns, and starting, auditing and answering it burn none (R388, R396).
-/

namespace Sys2Proof.Proofs

open Sys2Proof Sys2Proof.Machine Sys2Proof.Laws

/-- From f to g fuses have at most been burnt: C has not fallen and stays within 64, no revoked key is restored, and what identifies the part is
the same. -/
structure Burnt (f g : Fuses) : Prop where
  rises    : f.svn ≤ g.svn
  bounded  : f.svn ≤ 64 → g.svn ≤ 64
  revoked  : f.revoked &&& g.revoked = f.revoked
  member   : g.member = f.member
  keyHash  : g.keyHash = f.keyHash
  stepping : g.stepping = f.stepping
  serialLo : g.serialLo = f.serialLo
  serialHi : g.serialHi = f.serialHi

theorem Burnt.of_eq {f g : Fuses} (h : g = f) : Burnt f g := by
  subst h
  exact ⟨Nat.le_refl _, id, BitVec.and_self, rfl, rfl, rfl, rfl, rfl⟩

theorem Burnt.ite {f : Fuses} {c : Prop} [Decidable c] {a b : State} (ha : Burnt f a.fuses) (hb : Burnt f b.fuses) :
    Burnt f (if c then a else b).fuses := by
  split
  · exact ha
  · exact hb

theorem burnt_commit (f : Fuses) (svn : Nat) : Burnt f { f with svn := max f.svn (min svn 64) } :=
  ⟨Nat.le_max_left .., fun h => Nat.max_le.mpr ⟨h, Nat.min_le_right ..⟩, BitVec.and_self, rfl, rfl, rfl, rfl, rfl⟩

theorem burnt_revoke (f : Fuses) (keys : BitVec 4) : Burnt f { f with revoked := f.revoked ||| keys } := by
  refine ⟨Nat.le_refl _, id, ?_, rfl, rfl, rfl, rfl, rfl⟩
  exact BitVec.eq_of_getLsbD_eq fun i _ => by
    rw [BitVec.getLsbD_and, BitVec.getLsbD_or]
    cases f.revoked.getLsbD i <;> rfl

/-- Every part but the fuses. -/
def onlyFuses : Mask := fun z => z != .fuses

theorem fuses_of_hide {s t : State} (h : hide onlyFuses t = hide onlyFuses s) : t.fuses = s.fuses := same_of_hide h .fuses rfl

/-! ## Mailbox commands -/

/-- A state change that at most burns fuses. -/
def Burns (run : State → State) : Prop := ∀ u, Burnt u.fuses (run u).fuses

theorem Burns.after {run : State → State} (hrun : Burns run) {f : Fuses} {u : State} (h : u.fuses = f) : Burnt f (run u).fuses := h ▸ hrun u

/-- A register command, where it runs, runs in a state with the same fuses; else it burns none. -/
theorem command_burns {s : State} {p : Path} {off go least : Nat} {audited : Bool} {core : Option Nat} {val : Word64} {run : State → State}
    (hrun : Burns run) : Burnt s.fuses (s.command p off go least audited core val run).fuses := by
  have hkept : ∀ {t : State}, hide onlyFuses t = hide onlyFuses s → Burnt s.fuses t.fuses := fun h => .of_eq (fuses_of_hide h)
  unfold State.command
  cases s.gate p off least with
  | absent => exact .of_eq rfl
  | shut => exact hkept (shutOut_hide rfl s)
  | ignored => exact .of_eq rfl
  | denied => exact hkept (denyWrite_hide rfl rfl s p off val)
  | open' =>
    refine .ite (.of_eq rfl) (.ite (.of_eq (regPut_fuses ..)) (.ite (hkept (auditReg_hide rfl rfl s p off 8 val)) ?_))
    refine hrun.after ?_
    rw [regPut_fuses]
    split
    · exact fuses_of_hide (auditReg_hide rfl rfl _ p off 0 val)
    · rfl

theorem i3cStart_burns {s : State} {core : Nat} {val : Word64} {run : State → State} (hrun : Burns run) :
    Burnt s.fuses (s.i3cStart core val run).fuses := by
  unfold State.i3cStart
  dsimp only
  split
  · exact .of_eq rfl
  split
  · refine hrun.after ?_
    rw [onSt_fuses, regPut_fuses]
  · exact .of_eq (by rw [onSt_fuses, regPut_fuses])

theorem reply_fuses (s : State) (p : Path) (result : Nat) (body : Says) : (s.reply p result body).fuses = s.fuses :=
  fuses_of_hide (reply_hide rfl rfl rfl rfl rfl s p result body)

theorem auditMbx_fuses (s before : State) (p : Path) (row : MbxRow) (result target : Nat) (req : Feed) :
    (s.auditMbx before p row result target req).fuses = s.fuses :=
  fuses_of_hide (auditMbx_hide rfl rfl s before p row result target req)

/-- A mailbox command burns what its run burns. -/
theorem mailbox_burns {s : State} {p : Path} {row : MbxRow} {req : Feed} {target : Nat} {run : State → State × Nat × Says}
    (hrun : ∀ u, Burnt u.fuses (run u).1.fuses) : Burnt s.fuses (s.mailbox p row req target run).fuses := by
  have hstart : ∀ f : State → State, Burns f →
      Burnt s.fuses (s.mbxStart p row req.data.length f).fuses := by
    intro f hf
    unfold State.mbxStart
    split
    · exact i3cStart_burns hf
    · exact command_burns hf
  refine hstart _ fun u => ?_
  dsimp only
  split
  · rw [reply_fuses, countN_fuses]
    split
    · exact .of_eq (auditMbx_fuses ..)
    · exact .of_eq rfl
  · rw [reply_fuses]
    split
    · rw [auditMbx_fuses]
      exact hrun u
    · exact hrun u

theorem commitTrial_burns (s : State) : Burnt s.fuses s.commitTrial.fuses := burnt_commit ..

theorem mbxCommit_burns (s : State) : Burnt s.fuses s.mbxCommit.1.fuses := by
  unfold State.mbxCommit
  split
  · exact .of_eq rfl
  split
  · exact .of_eq rfl
  split
  · exact .of_eq rfl
  · exact commitTrial_burns s

/-! ## What an emergency held -/

theorem auditHw_fuses (s : State) (action target : Nat) : (s.auditHw action target).fuses = s.fuses :=
  fuses_of_hide (auditHw_hide rfl rfl s action target)

theorem deferEnd_burns (s : State) (sigOk : Bool) : Burnt s.fuses (s.deferEnd sigOk).fuses := by
  have habandon : ∀ kind, Burnt s.fuses (s.abandonFw kind).fuses := fun kind => .of_eq (auditHw_fuses ..)
  unfold State.deferEnd
  split
  · exact .of_eq rfl
  next d _ =>
    split
    · exact .of_eq rfl
    split
    · exact habandon d.kind
    split
    · exact habandon d.kind
    unfold State.startHeld
    dsimp only
    split
    · exact .of_eq (auditHw_fuses ..)
    split
    · refine .of_eq ((fuses_of_hide (auditAdd_hide rfl rfl ..)).trans (fuses_of_hide ?_))
      apply activate_hide <;> rfl
    · rw [auditHw_fuses]
      exact commitTrial_burns s

/-! ## Steps -/

/-- A command burns fuses only as far as `Burnt` says. -/
theorem exec_burns {c : Instr} {s t : State} (h : exec c s = .next t) : Burnt s.fuses t.fuses := by
  cases c with
  | imgCommit p req =>
    cases h
    exact mailbox_burns mbxCommit_burns
  | fuseProgram p req revoke =>
    cases h
    exact mailbox_burns fun u => burnt_revoke u.fuses revoke
  | activationDeferEnd sigOk =>
    cases h
    exact deferEnd_burns s sigOk
  | _ =>
    refine .of_eq (everyCommandKeepsItsFrame _ s t h .fuses ?_)
    unfold zonesAt
    split <;> rfl

/-- Settles O6: an idle step burns no fuse, and a command at most burns some. -/
theorem fusesOnlyBurn : Obligations.FusesOnlyBurn := by
  unfold Obligations.FusesOnlyBurn
  intro s t h
  have hburnt : Burnt s.fuses t.fuses := by
    cases hpending : s.pending with
    | nil =>
      rw [step_of_pending_nil hpending] at h
      cases h
      exact .of_eq rfl
    | cons c rest =>
      rw [step_of_pending_cons hpending] at h
      have hexec := exec_burns h
      exact hexec
  obtain ⟨hrises, hbounded, hrevoked, hmember, hkeys, hstepping, hlo, hhi⟩ := hburnt
  exact ⟨hrises, hbounded, hrevoked, hmember, hkeys, hstepping, hlo, hhi⟩

end Sys2Proof.Proofs
end

section
/-!
PROOFS. O50: a counter tells once of HALF and once of SAT (R352, R353).
-/

namespace Sys2Proof.Proofs

open Sys2Proof Sys2Proof.Machine Sys2Proof.Laws

/-- An event amid the operations of a run is queued, where the fuel reaches it and there is room for what those before it can raise. -/
theorem run_queues_amid {cs : List Nat} (hcs : ∀ c ∈ ownCounters, c ∈ cs) {f : Nat} {t : Telem} {ops : List TelOp} (rest : List TelOp)
    (e : Event) (hops : ∀ o ∈ ops, Calm cs o) (hf : runCost cs ops t + 1 ≤ f) (hon : bitb t.evtRing 17 = true)
    (hroom : queueBound cs ops t < 256) :
    ∃ l, (Telem.run f (ops ++ .event e :: rest) t).evq = t.evq ++ l ∧ e ∈ l := by
  obtain ⟨g, u, hg, hrun, hring, ⟨l, hl⟩, hbound⟩ := run_append hcs f ops (.event e :: rest) t hops (by omega)
  obtain ⟨k, rfl⟩ : ∃ k, g = k + 1 := ⟨g - 1, by omega⟩
  have hspace : ¬ u.evq.length ≥ 256 := by
    simp only [queueBound, sumBy] at hbound hroom
    omega
  have hput : (u.op (.event e)).1.evq = u.evq ++ [e] := by
    unfold Telem.op
    dsimp only
    rw [if_pos (hring ▸ hon), if_neg hspace]
  obtain ⟨m, hm⟩ := run_grows k ((u.op (.event e)).2 ++ rest) (u.op (.event e)).1
  refine ⟨l ++ [e] ++ m, ?_, List.mem_append_left m (List.mem_append_right l List.mem_cons_self)⟩
  rw [hrun]
  change (Telem.run k ((u.op (.event e)).2 ++ rest) (u.op (.event e)).1).evq = _
  rw [← hm, hput, ← hl, List.append_assoc, List.append_assoc, List.append_assoc]

/-- Telemetry with n more counted on a counter, and its events not told of yet. -/
def counted (t : Telem) (off n : Nat) : Telem := { t with counters := mset t.counters off ((t.countOf off).plus n) }

theorem countOf_counted (t : Telem) (off n : Nat) : (counted t off n).countOf off = (t.countOf off).plus n := mgetD_mset_self ..

/-- A count that is told counts, and then tells of the bits that it has set. -/
theorem tell_count_tel (s : State) (off : Nat) {n : Nat} (hn : n ≠ 0) : (s.tell [.count off n]).tel =
    Telem.run 19999 (Counter.events off (s.tel.countOf off) ((s.tel.countOf off).plus n)) (counted s.tel off n) := by
  change Telem.run 19999 ((s.tel.op (.count off n)).2 ++ []) (s.tel.op (.count off n)).1 = _
  unfold Telem.op
  dsimp only
  rw [if_neg hn, List.append_nil]
  rfl

/-! ## HALF and SAT stay set -/

/-- The bits that a counter has set in t are set in u. -/
structure BitsStay (off : Nat) (t u : Telem) : Prop where
  half : (t.countOf off).half = true → (u.countOf off).half = true
  sat  : (t.countOf off).sat = true → (u.countOf off).sat = true

theorem BitsStay.trans {off : Nat} {t u v : Telem} (h : BitsStay off t u) (h' : BitsStay off u v) : BitsStay off t v :=
  ⟨h'.half ∘ h.half, h'.sat ∘ h.sat⟩

theorem bitsStay_of_counters {off : Nat} {t u : Telem} (h : u.counters = t.counters) : BitsStay off t u := by
  constructor <;> (unfold Telem.countOf; rw [h]; exact id)

theorem bitsStay_counted (t : Telem) (off j n : Nat) : BitsStay off t (counted t j n) := by
  unfold counted
  constructor <;> (rw [countOf_mset]; split)
  · next h => subst h; exact fun hset => by rw [Counter.plus, hset, Bool.true_or]
  · exact id
  · next h => subst h; exact fun hset => by rw [Counter.plus, hset, Bool.true_or]
  · exact id

theorem op_bitsStay (off : Nat) (t : Telem) (o : TelOp) : BitsStay off t (t.op o).1 := by
  have htake : ∀ r, BitsStay off t (t.take r).1 := fun r => bitsStay_of_counters (take_queue t r).2.2.1
  unfold Telem.op
  cases o with
  | count j n =>
    dsimp only
    split
    · exact bitsStay_of_counters rfl
    · exact bitsStay_counted t off j n
  | event e =>
    dsimp only
    split
    · split <;> exact bitsStay_of_counters rfl
    · exact bitsStay_of_counters rfl
  | log core kind sev code args =>
    dsimp only
    split
    · exact htake _
    · split <;> exact bitsStay_of_counters rfl
  | put r => exact htake r
  | drain => exact bitsStay_of_counters rfl

theorem run_bitsStay (off f : Nat) (ops : List TelOp) (t : Telem) : BitsStay off t (Telem.run f ops t) := by
  induction f generalizing ops t with
  | zero => exact bitsStay_of_counters rfl
  | succ f ih =>
    cases ops with
    | nil => exact bitsStay_of_counters rfl
    | cons o ops => exact (op_bitsStay off t o).trans (ih ..)

/-! ## The events -/

theorem half_plus {c : Counter} {n : Nat} (h : 2 ^ 47 ≤ c.count + n) : (c.plus n).half = true := by
  unfold Counter.plus
  rw [decide_eq_true h, Bool.or_true]

theorem sat_plus {c : Counter} {n : Nat} (h : 2 ^ 48 - 1 < c.count + n) : (c.plus n).sat = true := by
  unfold Counter.plus
  rw [decide_eq_true (show c.count + n > countMax from h), Bool.or_true]

/-- An event of a count, at most one other before it, is raised. -/
theorem count_raises {s : State} {off n code : Nat} (hn : n ≠ 0) {before after : List TelOp} {e : Event} (hcode : e.code = BitVec.ofNat 32 code)
    (hevents : Counter.events off (s.tel.countOf off) ((s.tel.countOf off).plus n) = before ++ .event e :: after)
    (hbefore : before.length ≤ 1) : State.raised s (s.tell [.count off n]) code := by
  intro hon hspace
  have hcalm : ∀ o ∈ before, Calm ownCounters o := fun o ho =>
    events_calm ownCounters off _ _ o (hevents ▸ List.mem_append_left _ ho)
  have hclear := clearOn_le ownCounters (counted s.tel off n)
  have hlen : ownCounters.length = 3 := rfl
  have hfew : sumBy opWeight before ≤ 5 ∧ sumBy opEvents before ≤ 1 := by
    cases before with
    | nil => exact ⟨Nat.zero_le _, Nat.zero_le _⟩
    | cons o l =>
      obtain rfl := List.eq_nil_of_length_eq_zero (Nat.le_zero.mp (Nat.le_of_succ_le_succ hbefore))
      cases o <;> exact ⟨Nat.le_of_ble_eq_true rfl, Nat.le_of_ble_eq_true rfl⟩
  rw [tell_count_tel s off hn, hevents]
  have hroom : queueBound ownCounters before (counted s.tel off n) < 256 := by
    change sumBy opEvents before + s.tel.evq.length + clearOn ownCounters (counted s.tel off n) < 256
    omega
  obtain ⟨l, hl, he⟩ := run_queues_amid (t := counted s.tel off n) (f := 19999) (fun _ h => h) after e hcalm (by simp only [runCost]; omega) hon hroom
  exact ⟨l, e, hl, he, hcode⟩

/-- A count that sets HALF raises COUNTER_HALF. -/
theorem half_raises {s : State} {off n : Nat} (hn : n ≠ 0) (hclear : (s.tel.countOf off).half = false)
    (hreach : 2 ^ 47 ≤ (s.tel.countOf off).count + n) : State.raised s (s.tell [.count off n]) 0xD01 := by
  refine count_raises hn (before := []) (e := { code := 0xD01, ring := none, data := evData [(8, 4, off)] }) rfl ?_ (Nat.zero_le 1)
    (after := if ((s.tel.countOf off).plus n).sat && !(s.tel.countOf off).sat then [mkEvent 0xD02 [(8, 4, off)]] else [])
  unfold Counter.events
  rw [half_plus hreach, hclear, Bool.not_false, Bool.and_true, if_pos rfl]
  rfl

/-- A count that sets SAT raises COUNTER_SAT. -/
theorem sat_raises {s : State} {off n : Nat} (hn : n ≠ 0) (hclear : (s.tel.countOf off).sat = false)
    (hreach : 2 ^ 48 - 1 < (s.tel.countOf off).count + n) : State.raised s (s.tell [.count off n]) 0xD02 := by
  refine count_raises hn (e := { code := 0xD02, ring := none, data := evData [(8, 4, off)] }) (after := []) rfl ?_
    (before := if ((s.tel.countOf off).plus n).half && !(s.tel.countOf off).half then [mkEvent 0xD01 [(8, 4, off)]] else []) ?_
  · unfold Counter.events
    rw [sat_plus hreach, hclear, Bool.not_false, Bool.and_true, if_pos rfl]
    rfl
  · split
    · exact Nat.le_refl 1
    · exact Nat.zero_le 1

/-- A count that sets no bit raises none. -/
theorem count_silent {s : State} {off n : Nat} (hn : n ≠ 0)
    (hhalf : (s.tel.countOf off).half = true ∨ (s.tel.countOf off).count + n < 2 ^ 47)
    (hsat : (s.tel.countOf off).sat = true ∨ (s.tel.countOf off).count + n ≤ 2 ^ 48 - 1) :
    (s.tell [.count off n]).tel = counted s.tel off n := by
  have hkept : ∀ {old set : Bool}, old = true ∨ set = false → ((old || set) && !old) = false := by
    intro old set h
    rcases h with rfl | rfl
    · cases set <;> rfl
    · cases old <;> rfl
  have hevents : Counter.events off (s.tel.countOf off) ((s.tel.countOf off).plus n) = [] := by
    unfold Counter.events Counter.plus
    dsimp only
    rw [hkept (hhalf.imp id fun h => decide_eq_false (Nat.not_le.mpr h)),
      hkept (hsat.imp id fun h => decide_eq_false (show ¬ _ > countMax from Nat.not_lt.mpr h))]
    rfl
  rw [tell_count_tel s off hn, hevents]
  rfl

/-- Settles O50: a count raises an event for each bit that it sets, none for one that is set, and no operation clears a bit. -/
theorem countersTellOnce : Obligations.CountersTellOnce := by
  unfold Obligations.CountersTellOnce
  intro off n s hn
  have hstay : BitsStay off (counted s.tel off n) (s.tell [.count off n]).tel := tell_count_tel s off hn ▸ run_bitsStay ..
  have hstay' := (bitsStay_counted s.tel off off n).trans hstay
  refine ⟨fun hclear hreach => ⟨hstay.half ?_, half_raises hn hclear hreach⟩,
    fun hclear hreach => ⟨hstay.sat ?_, sat_raises hn hclear hreach⟩, fun hhalf hsat => ?_, hstay'.half, hstay'.sat⟩
  · rw [countOf_counted]
    exact half_plus hreach
  · rw [countOf_counted]
    exact sat_plus hreach
  · rw [count_silent hn hhalf hsat]
    exact ⟨rfl, congrArg Counter.count (countOf_counted ..)⟩

end Sys2Proof.Proofs
end

section
/-!
PROOFS. O19: the stall watchdog and the commands on the counters (R351, R354).
-/

namespace Sys2Proof.Proofs

open Sys2Proof Sys2Proof.Machine Sys2Proof.Laws

/-! ## FLOW_STALL -/

/-- A descriptor that has waited STALL_MS where it stands is told of there. -/
theorem flowStall_tells {d : Desc} {s : State} (hdesc : s.desc d.id = some d) (hms : s.stallMs ≠ 0) (hpoint : s.waitPoint d ≠ 0)
    (hnew : d.stalled ≠ s.waitPoint d) (hfirst : s.firstStalled d (s.waitPoint d) = true) :
    ∃ t e, exec (.flowStall d.id) s = .next t ∧ t.desc d.id = some e ∧ e.stalled = s.waitPoint d ∧ State.raised s t 0xD03 := by
  have hexec : s.flowStall d.id = (s.onDesc d.id fun x => { x with stalled := s.waitPoint d }).tell
      [ringEvent 0xD03 d.ring [(8, 4, d.ring), (12, 4, d.seq.toNat), (16, 4, s.waitPoint d), (20, 4, s.stallMs)], .count Ctr.flowStalls 1] := by
    unfold State.flowStall
    rw [hdesc]
    dsimp only
    rw [hfirst, decide_eq_false hms, decide_eq_false hpoint, decide_eq_false hnew]
    rfl
  refine ⟨_, { d with stalled := s.waitPoint d }, congrArg Host.Outcome.next hexec, desc_onDesc_self hdesc fun _ => rfl, rfl, ?_⟩
  exact raised_amid (cs := ownCounters) (fun _ h => h) (ops := []) rfl rfl List.prefix_rfl (calm_nil _) (Nat.le_of_ble_eq_true rfl)
    (fun hspace => by
      have hclear := clearOn_le ownCounters s.tel
      have hlen : ownCounters.length = 3 := rfl
      change 0 + s.tel.evq.length + clearOn ownCounters s.tel < 256
      omega)
    List.prefix_rfl

/-! ## Counters that the start of a command may count on -/

/-- The counters that an audit record, its log copies and their events may count on. -/
def auditCounters : List Nat := Ctr.auditRecords :: ownCounters

theorem own_mem_auditCounters : ∀ c ∈ ownCounters, c ∈ auditCounters := fun _ => List.mem_cons_of_mem _

theorem auditLogs_calm (cs : List Nat) (a : Audit) : ∀ o ∈ auditLogs a, Calm cs o :=
  calm_cons trivial (calm_cons trivial (calm_cons trivial (calm_nil cs)))

theorem auditAdd_countOf {off : Nat} (hoff : off ∉ auditCounters) (s : State) (role path key result action target : Nat) (data : Bytes) :
    (s.auditAdd role path key result action target data).tel.countOf off = s.tel.countOf off := by
  have htell : ∀ (u : State) (ops : List TelOp), (∀ o ∈ ops, Calm auditCounters o) → (u.tell ops).tel.countOf off = u.tel.countOf off :=
    fun u ops hops => run_keeps_count own_mem_auditCounters hoff 20000 ops u.tel hops
  unfold State.auditAdd
  split
  · split
    · rfl
    · exact htell _ _ (calm_cons trivial (calm_nil _))
  · refine htell _ _ fun o ho => ?_
    rcases List.mem_append.mp ho with h | h
    · split at h
      · exact auditLogs_calm _ _ o h
      · exact absurd h List.not_mem_nil
    · rw [List.mem_singleton.mp h]
      exact List.mem_cons_self

/-- A command of CRH_CNT_CMD that software starts now runs with the counters as they were, but for those that the audit record of the debug
path may count on. -/
theorem cntCmd_runs {s : State} {p : Path} (h : s.starts p Reg.cntCmd 31 1 false none = true) (op : Nat) (val : Word64)
    (run : State → Bool → Nat → State) :
    ∃ u, s.cntCmd p op val run = run u (bitb val 13) (0xD0000 + 8 * bitf val 0 13) ∧ u.pregs = s.pregs ∧ u.fuses = s.fuses ∧
      ∀ off, p ≠ .dbg ∨ off ∉ auditCounters → u.tel.countOf off = s.tel.countOf off := by
  simp only [State.starts, Bool.and_eq_true, beq_iff_eq, Bool.not_eq_true'] at h
  obtain ⟨⟨⟨hgate, hidle⟩, -⟩, hroom⟩ := h
  unfold State.cntCmd State.command
  rw [hgate]
  dsimp only
  rw [hidle, Bool.false_and, if_neg Bool.false_ne_true, Bool.not_true, if_neg Bool.false_ne_true, hroom, if_neg Bool.false_ne_true]
  refine ⟨_, rfl, ?_⟩
  have hput : ∀ (u : State) (v : Word64), (regPut u p Reg.cntCmd v).pregs = u.pregs ∧ (regPut u p Reg.cntCmd v).fuses = u.fuses ∧
      (regPut u p Reg.cntCmd v).tel = u.tel := fun _ _ => ⟨rfl, rfl, rfl⟩
  obtain ⟨hpregs, hfuses, htel⟩ := hput
    (if (false || decide (p = .dbg)) = true then
      ({ s with st := { s.st with waitCore := s.st.waitCore.erase (waitKey p Reg.cntCmd) } }).auditReg p Reg.cntCmd 0 _
    else { s with st := { s.st with waitCore := s.st.waitCore.erase (waitKey p Reg.cntCmd) } }) _
  rw [hpregs, hfuses, htel]
  split
  · next hdbg =>
    have hpath : p = .dbg := of_decide_eq_true hdbg
    have hkept := auditReg_keeps { s with st := { s.st with waitCore := s.st.waitCore.erase (waitKey p Reg.cntCmd) } } p Reg.cntCmd 0
    exact ⟨same_of_hide (hkept _) .pregs rfl, same_of_hide (hkept _) .fuses rfl,
      fun off hoff => auditAdd_countOf (hoff.resolve_left fun h => h hpath) ..⟩
  · exact ⟨rfl, rfl, fun _ _ => rfl⟩

theorem cntDone_tel (s : State) (p : Path) (result : Nat) : (s.cntDone p result).tel = s.tel := rfl

/-! ## CLEAR and SUBTRACT -/

theorem counterClear_one {p : Path} {val : Word64} {s : State} (h : s.starts p Reg.cntCmd 31 1 false none = true) (hone : bitb val 13 = false)
    (hctr : Ctr.isCounter (0xD0000 + 8 * bitf val 0 13) = true) :
    ∃ t, exec (.counterClear p val) s = .next t ∧ t.tel.countOf (0xD0000 + 8 * bitf val 0 13) = {} := by
  obtain ⟨u, hrun, -⟩ := cntCmd_runs h 1 val _
  refine ⟨_, congrArg Host.Outcome.next hrun, ?_⟩
  rw [hone, hctr, if_neg Bool.false_ne_true, Bool.not_true, if_neg Bool.false_ne_true, cntDone_tel]
  change (mget (mdel u.tel.counters _) _).getD {} = {}
  rw [mget_mdel, if_pos rfl]
  rfl

theorem counterClear_all {p : Path} {val : Word64} {s : State} (h : s.starts p Reg.cntCmd 31 1 false none = true) (hall : bitb val 13 = true) :
    ∃ t, exec (.counterClear p val) s = .next t ∧ ∀ off, t.tel.countOf off = {} := by
  obtain ⟨u, hrun, -⟩ := cntCmd_runs h 1 val _
  refine ⟨_, congrArg Host.Outcome.next hrun, fun off => ?_⟩
  rw [hall, if_pos rfl, cntDone_tel]
  rfl

theorem subtract_takes {p : Path} {val : Word64} {s : State} (h : s.starts p Reg.cntCmd 31 1 false none = true) (hone : bitb val 13 = false)
    (hctr : Ctr.isCounter (0xD0000 + 8 * bitf val 0 13) = true) (hpath : p ≠ .dbg ∨ (0xD0000 + 8 * bitf val 0 13) ∉ auditCounters)
    (hholds : bitf (s.own p Reg.cntData) 0 48 ≤ s.counter (0xD0000 + 8 * bitf val 0 13)) :
    ∃ t, exec (.subtract p val) s = .next t ∧ t.counter (0xD0000 + 8 * bitf val 0 13) =
      s.counter (0xD0000 + 8 * bitf val 0 13) - bitf (s.own p Reg.cntData) 0 48 := by
  obtain ⟨u, hrun, hpregs, hfuses, hcount⟩ := cntCmd_runs h 2 val _
  have hsame : u.counter (0xD0000 + 8 * bitf val 0 13) = s.counter (0xD0000 + 8 * bitf val 0 13) :=
    congrArg Counter.count (hcount _ hpath)
  have hdata : u.own p Reg.cntData = s.own p Reg.cntData := by
    unfold State.own
    rw [hpregs, hfuses]
  refine ⟨_, congrArg Host.Outcome.next hrun, ?_⟩
  rw [hone, hctr, if_neg Bool.false_ne_true, Bool.not_true, if_neg Bool.false_ne_true, hdata, hsame, if_neg (Nat.not_lt.mpr hholds), ← hsame]
  unfold State.counter
  rw [cntDone_tel]
  exact congrArg Counter.count (mgetD_mset_self ..)

/-- Settles O19, part by part. -/
theorem flowAndCounters : Obligations.FlowAndCounters := by
  unfold Obligations.FlowAndCounters
  refine ⟨fun _ _ hdesc hms hpoint hnew hfirst => flowStall_tells hdesc hms hpoint hnew hfirst, fun _ _ _ h hone hctr => counterClear_one h hone hctr,
    fun _ _ _ h hall => counterClear_all h hall, fun p val s h hone hctr hpath hholds => subtract_takes h hone hctr (hpath.imp id ?_) hholds⟩
  intro hnone hmem
  have hlisted : (0xD0000 + 8 * bitf val 0 13) ∈ [Ctr.auditRecords, Ctr.logRecords, Ctr.logDropped, Ctr.evtDropped] := hmem
  rw [List.contains_iff_mem.mpr hlisted] at hnone
  exact Bool.false_ne_true hnone.symm

end Sys2Proof.Proofs
end

section
/-!
PROOFS. O53: what reset holds (R433). O52: before READY (R431).
-/

namespace Sys2Proof.Proofs

open Sys2Proof Sys2Proof.Machine Sys2Proof.Laws

/-- Settles O53: no ring, table or port is there, and each register's value is computed from the reset state. -/
theorem resetHoldsTheSpecsValues : Obligations.ResetHoldsTheSpecsValues := by
  unfold Obligations.ResetHoldsTheSpecsValues
  refine ⟨rfl, rfl, rfl, rfl, fun k => rfl, fun p => Bool.and_false _, fun p => rfl,
    ?_, ?_, ?_, ?_, ?_, ?_, ?_, ?_, ?_, ?_, ?_, ?_, ?_, ?_, ?_, ?_⟩
  all_goals decide

/-- A start-up in which nothing answers. -/
def noStartup : Startup :=
  { sigA := false, sigB := false, sigR := false, cores := false, gsOk := false, node := 0, cxl := [], pcie := [], portsOk := false,
    readyMs := 0 }

/-- Function 0 has enumerated, the block is not READY, and an exchange to STANDBY is open with nothing in flight. -/
def closingEarly : State :=
  { State.reset with pw := { State.reset.pw with cxlEnum := true, cxl := [(0, { up := true })], closing := true } }

/-- DISABLE is ignored there, and all the same the exchange, which waits for nothing more, ends. -/
theorem disable_closingEarly : ∃ t, exec (.disable .fn0 0) closingEarly = .next t ∧ t.pw.closing = false := ⟨_, rfl, rfl⟩

/-- Refutes O52: RING_CMD's DISABLE, PAUSE and RESET look for the end of an open exchange even where the gate ignores them. In
`closingEarly`, before READY, a DISABLE ends the exchange to STANDBY, and does not only count in REG_IGNORED. -/
theorem not_writesBeforeReadyAreIgnored : ¬ Obligations.WritesBeforeReadyAreIgnored := by
  unfold Obligations.WritesBeforeReadyAreIgnored
  rintro ⟨-, hignored, -, -⟩
  have hcount : exec (.disable .fn0 0) closingEarly = .next (closingEarly.count Ctr.regIgnored) :=
    hignored .fn0 0 0 0 [] 0 ⟨[], 0, 0⟩ noStartup (.disable .fn0 0) closingEarly rfl rfl (by simp)
  obtain ⟨t, ht, hclosed⟩ := disable_closingEarly
  rw [hcount] at ht
  cases ht
  exact absurd hclosed (by decide)

end Sys2Proof.Proofs
end

section
/-!
PROOFS. O40: bulk descriptors move in bursts (R324 to R328).
-/

namespace Sys2Proof.Proofs

open Sys2Proof Sys2Proof.Machine Sys2Proof.Laws

/-! ## Pricking beside a transfer that meets no fault -/

/-- A range whose segments are found, with no fault and no page that came back without its permission. -/
structure Range.Sound (r : Range) : Prop where
  seg   : r.seg = true
  fault : r.fault = none
  lack  : r.lack = []

/-- A descriptor past the front end whose ranges are all sound. -/
structure Desc.Sound (d : Desc) : Prop where
  past   : d.inFront = false
  ranges : ∀ r ∈ d.ranges, Range.Sound r

/-- Every descriptor with this identifier is sound. -/
def SoundAt (id : Nat) (s : State) : Prop := ∀ e ∈ s.fe.descs, e.id = id → Desc.Sound e

theorem Range.Sound.stopsAt {r : Range} (h : Range.Sound r) (d : Desc) : d.stopsAt r = none := by
  unfold Desc.stopsAt Range.stops
  rw [h.fault]
  split <;> rfl

theorem Range.Sound.reopened {r : Range} (h : Range.Sound r) : Range.Sound (if r.opens then { r with known := false } else r) := by
  split
  · exact ⟨h.seg, h.fault, h.lack⟩
  · exact h

theorem Desc.Sound.setRange {d : Desc} (h : Desc.Sound d) (i : Nat) {r : Range} (hr : Range.Sound r) : Desc.Sound (d.setRange i r) :=
  ⟨h.past, fun q hq => (List.mem_or_eq_of_mem_set hq).elim (h.ranges q) (fun heq => heq ▸ hr)⟩

theorem soundAt_setDesc (s : State) {d : Desc} {id : Nat} (hid : d.id = id) (hd : Desc.Sound d) : SoundAt id (s.setDesc d) := by
  subst hid
  intro e he hid
  obtain ⟨e0, -, rfl⟩ := List.mem_map.mp he
  split
  · exact hd
  · next h => exact absurd (by rwa [if_neg h] at hid) h

theorem soundAt_of_fe {id : Nat} {s t : State} (h : t.fe = s.fe) (hs : SoundAt id s) : SoundAt id t := by
  unfold SoundAt
  rw [h]
  exact hs

/-- Pricking has left flash as it was, and the descriptors with this identifier sound. -/
def StaysSound (id : Nat) (s t : State) : Prop := t.fl = s.fl ∧ SoundAt id t

/-- What pricking a sound range led to is sound, and flash is as it was. -/
def RangeSound (id : Nat) (s : State) : Pricked → Prop
  | .done s1 r => s1.fl = s.fl ∧ Range.Sound r
  | .wait s1 d => s1.fl = s.fl ∧ Desc.Sound d ∧ d.id = id

theorem askPages_sound {s : State} {d : Desc} (hd : Desc.Sound d) (i : Nat) {r : Range} (hr : Range.Sound r) (miss : List PageRef) :
    RangeSound d.id s (s.askPages d i r miss) := by
  unfold State.askPages
  split
  · exact ⟨rfl, ⟨hd.past, (hd.setRange i hr).ranges⟩, rfl⟩
  · exact ⟨rfl, hd.setRange i hr, rfl⟩

theorem RangeSound.of_fl {id : Nat} {s s1 : State} {x : Pricked} (h : RangeSound id s1 x) (hfl : s1.fl = s.fl) : RangeSound id s x := by
  cases x with
  | done t r => exact ⟨h.1.trans hfl, h.2⟩
  | wait t d => exact ⟨h.1.trans hfl, h.2⟩

theorem prickXlate_sound (s : State) {d : Desc} (hd : Desc.Sound d) (i : Nat) {r : Range} (hr : Range.Sound r) :
    RangeSound d.id s (s.prickXlate d i r) := by
  have hknown : ∀ n, Range.Sound { r with upto := n, known := true } := fun _ => ⟨hr.seg, hr.fault, hr.lack⟩
  have hasked : ∀ n l, Range.Sound { r with upto := n, asked := l } := fun _ _ => ⟨hr.seg, hr.fault, hr.lack⟩
  unfold State.prickXlate
  dsimp only
  split
  · exact ⟨rfl, hr⟩
  rw [if_neg (show ¬ (!r.lack.isEmpty) = true by rw [hr.lack]; exact Bool.false_ne_true)]
  split
  · split
    · exact ⟨rfl, hknown _⟩
    · exact (askPages_sound hd i (hasked _ _) _).of_fl rfl
  · split
    · exact ⟨rfl, hd.setRange i hr, rfl⟩
    split
    · exact ⟨rfl, hknown _⟩
    · exact (askPages_sound hd i hr _).of_fl rfl

theorem prickRange_sound (s : State) {d : Desc} (hd : Desc.Sound d) (i : Nat) {r : Range} (hr : Range.Sound r) :
    RangeSound d.id s (s.prickRange d i r) := by
  unfold State.prickRange State.prickSeg
  rw [if_pos hr.seg]
  exact prickXlate_sound s hd i hr

theorem pass_sound (s : State) {d : Desc} (hd : Desc.Sound d) : StaysSound d.id s (s.pass d) := by
  refine ⟨rfl, ?_⟩
  unfold State.pass
  rw [if_neg (Bool.eq_false_iff.mp (show (decide (d.stage = .queued) || decide (d.stage = .parked) || decide (d.stage = .headWait)) = false
    from hd.past))]
  exact soundAt_setDesc s rfl hd

theorem park_sound (s : State) {d : Desc} (hd : Desc.Sound d) : StaysSound d.id s (s.park d) := by
  have hpast := hd.past
  unfold Desc.inFront at hpast
  simp only [Bool.or_eq_false_iff] at hpast
  obtain ⟨⟨hq, -⟩, -⟩ := hpast
  unfold State.park
  rw [bne, hq, Bool.not_false, if_pos rfl]
  exact ⟨rfl, soundAt_setDesc s rfl hd⟩

theorem endDesc_sound {s : State} {id : Nat} (hs : SoundAt id s) (st : BitVec 8) (detail done : Nat) (info : Word64) :
    StaysSound id s (s.endDesc id st detail done info) := by
  refine ⟨rfl, fun e he hid => ?_⟩
  unfold State.endDesc at he
  rw [settle_descs] at he
  obtain ⟨e0, he0, rfl⟩ := List.mem_map.mp he
  split
  · next h => exact ⟨rfl, (hs e0 he0 h).ranges⟩
  · next h => exact absurd (by rwa [if_neg h] at hid) h

theorem StaysSound.of_fl {id : Nat} {s s1 t : State} (h : StaysSound id s1 t) (hfl : s1.fl = s.fl) : StaysSound id s t :=
  ⟨h.1.trans hfl, h.2⟩

theorem prickFrom_sound (s : State) {d : Desc} (hd : Desc.Sound d) (fuel i : Nat) : StaysSound d.id s (s.prickFrom d fuel i) := by
  induction fuel generalizing s d i with
  | zero => exact pass_sound s hd
  | succ fuel ih =>
    unfold State.prickFrom
    split
    · exact pass_sound s hd
    next r hr =>
      have hsound : Range.Sound r := hd.ranges r (List.mem_of_getElem? hr)
      have hrange := prickRange_sound s hd i hsound
      split
      · rw [hsound.stopsAt, Option.isSome_none, Bool.false_and, if_neg Bool.false_ne_true]
        exact ih s hd (i + 1)
      split
      · next s1 d1 heq =>
        rw [heq] at hrange
        obtain ⟨hfl, hd1, hid⟩ := hrange
        rw [← hid]
        exact (park_sound s1 (d := { d1 with seen := false }) ⟨hd1.past, hd1.ranges⟩).of_fl hfl
      · next s1 r1 heq =>
        rw [heq] at hrange
        obtain ⟨hfl, hr1⟩ := hrange
        have hd1 := hd.setRange i hr1
        dsimp only
        split
        · exact (endDesc_sound (soundAt_setDesc s1 rfl hd1) ..).of_fl hfl
        rw [hr1.stopsAt, Option.isSome_none, if_neg Bool.false_ne_true, hd.past, if_neg Bool.false_ne_true]
        exact (ih s1 hd1 (i + 1)).of_fl hfl

theorem prick_sound {s : State} {id : Nat} (hs : SoundAt id s) : StaysSound id s (s.prick id) := by
  unfold State.prick
  split
  · exact ⟨rfl, hs⟩
  next d hdesc =>
    have hid := desc_id hdesc
    have hd : Desc.Sound d := hs d (List.mem_of_find?_eq_some hdesc) hid
    split
    · exact ⟨rfl, hs⟩
    · unfold State.prickAll
      rw [hd.past, Bool.and_false, if_neg Bool.false_ne_true, ← hid]
      exact prickFrom_sound s hd _ _

/-! ## The other descriptors wait for nothing -/

/-- Every descriptor with another identifier waits for no pins and no page requests. -/
def OthersIdle (id : Nat) (s : State) : Prop := ∀ e ∈ s.fe.descs, e.id ≠ id → e.pricking = false

theorem othersIdle_of_fe {id : Nat} {s t : State} (h : t.fe = s.fe) (hs : OthersIdle id s) : OthersIdle id t := by
  unfold OthersIdle
  rw [h]
  exact hs

theorem othersIdle_onDesc {id : Nat} {s : State} (hs : OthersIdle id s) {f : Desc → Desc} (hf : ∀ d, d.id = id → (f d).id = id) :
    OthersIdle id (s.onDesc id f) := by
  intro e he hne
  obtain ⟨e0, he0, rfl⟩ := List.mem_map.mp he
  split
  · next h => exact absurd (by rw [if_pos h]; exact hf e0 h) hne
  · next h => exact hs e0 he0 h

theorem PrickStep.othersIdle {id : Nat} {s t : State} (h : PrickStep id s t) (hs : OthersIdle id s) : OthersIdle id t := by
  cases h with
  | count n h => exact hs
  | send os => exact hs
  | desc f h => exact othersIdle_onDesc hs h
  | front f h =>
    unfold OthersIdle State.onFe
    dsimp only
    rw [(h s.fe).1]
    exact hs
  | xl f h => exact hs
  | leave => exact othersIdle_of_fe (abandon_fe s id) hs

theorem prick_othersIdle {s : State} {id : Nat} (hs : OthersIdle id s) : OthersIdle id (s.prick id) :=
  (pricks_prick s id).keeps (fun hstep => hstep.othersIdle) hs

/-- Going on with what waits then goes on with this descriptor alone. -/
theorem retryParked_sound {s : State} {id : Nat} (hs : SoundAt id s) (hidle : OthersIdle id s) : s.retryParked.fl = s.fl := by
  unfold State.retryParked
  refine (forEach_keeps (P := fun t => StaysSound id s t) _ (fun t j hj ht => ?_) s ⟨rfl, hs⟩).1
  obtain ⟨e, he, rfl⟩ := List.mem_map.mp hj
  obtain ⟨he, hpricking⟩ := List.mem_filter.mp he
  have hid : e.id = id := by
    by_contra hne
    rw [hidle e he hne] at hpricking
    cases hpricking
  rw [hid]
  exact (prick_sound ht.2).of_fl ht.1

/-- A transfer that passes bytes of a sound descriptor leaves flash as it was. -/
theorem passBytes_fl {s : State} {id : Nat} {d : Desc} (hdesc : s.desc id = some d) (hd : Desc.Sound d) (hidle : OthersIdle id s)
    (upTo : Desc → Range → Option Nat) : (s.passBytes id upTo).fl = s.fl := by
  obtain rfl := desc_id hdesc
  unfold State.passBytes
  rw [hdesc]
  dsimp only
  generalize hd1 : ({ d with ranges := d.ranges.map _ } : Desc) = d1
  have hid : d1.id = d.id := by rw [← hd1]
  have hsound : Desc.Sound d1 := by
    rw [← hd1]
    refine ⟨hd.past, fun r hr => ?_⟩
    obtain ⟨r0, hr0, rfl⟩ := List.mem_map.mp hr
    have hr0 := hd.ranges r0 hr0
    refine Range.Sound.reopened ?_
    split
    · exact ⟨hr0.seg, hr0.fault, hr0.lack⟩
    · exact hr0
  generalize hs1 : State.sendAll _ _ = s1
  have hfe : s1.fe = s.fe := by rw [← hs1]; rfl
  have hfl : s1.fl = s.fl := by rw [← hs1]; rfl
  have hput : SoundAt d.id (s1.setDesc d1) := soundAt_setDesc s1 hid hsound
  have hrest : OthersIdle d.id (s1.setDesc d1) :=
    hid ▸ othersIdle_onDesc (f := fun _ => d1) (hid.symm ▸ othersIdle_of_fe hfe hidle) fun _ _ => rfl
  generalize hu : State.onXl (s1.setDesc d1) _ = u
  have hufe : u.fe = (s1.setDesc d1).fe := by rw [← hu]; rfl
  have hufl : u.fl = s.fl := by rw [← hu]; exact hfl
  obtain ⟨hprickfl, hprick⟩ := prick_sound (soundAt_of_fe hufe hput)
  rw [retryParked_sound hprick (prick_othersIdle (othersIdle_of_fe hufe hrest)), hprickfl, hufl]

/-! ## A burst's reads and writes -/

/-- A descriptor without the mark that it has written on another port than its home. -/
def quiet (d : Desc) : Desc := { d with ioOther := false }

/-- From s to t descriptors differ in nothing but that mark, and flash is the same. -/
structure Moved (s t : State) : Prop where
  descs : t.fe.descs.map quiet = s.fe.descs.map quiet
  fl    : t.fl = s.fl

theorem Moved.trans {s t u : State} (h : Moved s t) (h' : Moved t u) : Moved s u := ⟨h'.descs.trans h.descs, h'.fl.trans h.fl⟩

theorem fabSend_moved (s : State) (o : Output) : Moved s (s.fabSend o) := by
  unfold State.fabSend
  split
  · unfold State.fabLeave State.noteLeave
    split <;> exact ⟨rfl, rfl⟩
  · exact ⟨rfl, rfl⟩

theorem fabSendAll_moved (s : State) (l : List Output) : Moved s (s.fabSendAll l) :=
  forEach_keeps (P := Moved s) l (fun u o _ hu => hu.trans (fabSend_moved u o)) s ⟨rfl, rfl⟩

theorem putBytes_moved (s : State) (d : Desc) (r : Range) (off : Nat) (b : Bytes) : Moved s (s.putBytes d r off b) := by
  unfold State.putBytes
  dsimp only
  split
  · exact fabSendAll_moved ..
  split
  · refine ⟨?_, rfl⟩
    change ((s.fe.descs.map fun x => if x.id = d.id then { x with ioOther := true } else x).map quiet) = _
    rw [List.map_map]
    refine List.map_congr_left fun x _ => ?_
    rw [Function.comp_apply]
    split <;> rfl
  · exact ⟨rfl, rfl⟩

theorem bulkReads_moved (s : State) (d : Desc) (m n : Nat) : Moved s (s.bulkReads d m n) := by
  unfold State.bulkReads
  split
  · exact ⟨rfl, rfl⟩
  split
  · exact fabSendAll_moved ..
  · exact ⟨rfl, rfl⟩

theorem bulkWrite_moved (s : State) (d : Desc) (m : Nat) (b : Bytes) : Moved s (s.bulkWrite d m b) := by
  unfold State.bulkWrite
  split
  · exact ⟨rfl, rfl⟩
  · exact putBytes_moved ..

theorem Moved.desc {s t : State} (h : Moved s t) {id : Nat} {d : Desc} (hd : s.desc id = some d) : ∃ e, t.desc id = some e ∧ quiet e = quiet d := by
  have hfind : ∀ u : State, (u.desc id).map quiet = (u.fe.descs.map quiet).find? fun x => x.id == id := by
    intro u
    rw [List.find?_map]
    rfl
  have heq : (t.desc id).map quiet = some (quiet d) := by
    rw [hfind, h.descs, ← hfind, hd]
    rfl
  exact Option.map_eq_some_iff.mp heq

theorem Moved.mem {s t : State} (h : Moved s t) {e : Desc} (he : e ∈ t.fe.descs) : ∃ e0 ∈ s.fe.descs, quiet e0 = quiet e :=
  List.mem_map.mp (h.descs ▸ List.mem_map_of_mem he)

theorem Desc.Sound.of_quiet {d e : Desc} (hd : Desc.Sound d) (h : quiet e = quiet d) : Desc.Sound e :=
  ⟨(congrArg Desc.inFront h).trans hd.past, fun r hr => hd.ranges r ((congrArg Desc.ranges h) ▸ hr)⟩

theorem Moved.othersIdle {s t : State} (h : Moved s t) (hidle : ∀ e ∈ s.fe.descs, e.pricking = false) (id : Nat) : OthersIdle id t := by
  intro e he _
  obtain ⟨e0, he0, heq⟩ := h.mem he
  exact (congrArg Desc.pricking heq).symm.trans (hidle e0 he0)

/-- The state in which a burst's bytes have moved and are counted. -/
def burstDone (s : State) (b : Bulk) (d : Desc) (src : Feed) : State :=
  ((s.bulkReads d b.moved (b.next d)).bulkWrite d b.moved (src.data.take (b.next d))).countN
    (if d.opc = 0x20 then Ctr.bulkSpillBytes else Ctr.bulkFillBytes) (b.next d)

theorem burstDone_moved (s : State) (b : Bulk) (d : Desc) (src : Feed) : Moved s (burstDone s b d src) :=
  (bulkReads_moved ..).trans ((bulkWrite_moved ..).trans ⟨rfl, rfl⟩)

/-- A burst whose bytes all move ends its descriptor, or goes to the end of the round. -/
theorem bulkBurst_eq {s : State} {b : Bulk} {d : Desc} {src : Feed} {f : Option Nat} (hfirst : s.fl.bulk.find? s.burstMay = some b)
    (hdesc : s.desc b.id = some d) (hbytes : b.next d ≤ src.data.length) (hcut : d.bulkCut b.moved (b.next d) src f = none) :
    s.bulkBurst b.id src f =
      if d.count ≤ b.moved + b.next d then (burstDone s b d src).bulkEnd d (b.moved + b.next d) none
      else ((burstDone s b d src).onFl fun f =>
        { f with bulk := (f.bulk.filter fun x => x.id != b.id) ++ [{ b with moved := b.moved + b.next d }] }).bulkPass b.id
          (b.moved + b.next d) := by
  have hall : ¬ (decide (b.id ≠ b.id) || (d.opc == 0x20 && decide (src.data.length < b.next d))) = true := by
    rw [decide_eq_false (not_not_intro rfl), decide_eq_false (Nat.not_lt.mpr hbytes), Bool.and_false, Bool.or_false]
    exact Bool.false_ne_true
  unfold State.bulkBurst
  rw [hfirst, hdesc]
  dsimp only
  rw [if_neg hall, hcut]
  simp only [Option.map_none, Option.getD_none, Option.isSome_none, Nat.min_self, Bool.false_or, decide_eq_true_eq]
  rfl

/-- A descriptor that is settled with a status has ended with it. -/
theorem settle_ended {s : State} {id : Nat} {f : Desc → Desc} {st : BitVec 8} (hd : ∃ d ∈ s.fe.descs, d.id = id)
    (hid : ∀ d, (f d).id = d.id) (hst : ∀ d, (f d).status = st) : (s.settle id f).ended id st := by
  unfold State.ended
  rw [settle_descs]
  refine ⟨?_, fun e he heq => ?_⟩
  · obtain ⟨d, hd, hdid⟩ := hd
    refine ⟨_, List.mem_map_of_mem hd, ?_⟩
    rw [if_pos hdid]
    exact (hid d).trans hdid
  · obtain ⟨e0, -, rfl⟩ := List.mem_map.mp he
    split at heq
    · next h =>
      rw [if_pos h]
      exact ⟨rfl, hst e0⟩
    · next h => exact absurd heq h

/-- A descriptor whose last bytes have moved has ended. -/
theorem bulkEnd_ended {s : State} {d : Desc} (hd : d.id ∈ descIds s) (moved : Nat) : (s.bulkEnd d moved none).ended d.id St.ok := by
  obtain ⟨e, he, hid⟩ := mem_descIds.mp hd
  unfold State.bulkEnd
  dsimp only
  rw [Option.isSome_none, if_neg Bool.false_ne_true]
  refine settle_ended ⟨e, he, hid⟩ (fun _ => rfl) fun _ => rfl

/-- Handing a descriptor to the mover. -/
theorem bulkStart_takes {d : Desc} {s : State} {opc : Nat} (h : s.readyDesc d opc) (hroom : s.fl.bulk.length < 64) :
    ∃ e, (s.bulkStart d.id opc).desc d.id = some e ∧ e.stage = .bulk ∧
      e.flags = withFlag d.flags Fl.striped (d.stripe && (s.ring d.ring).stripeOk) ∧
      (s.bulkStart d.id opc).fl.bulk = s.fl.bulk ++ [{ id := d.id, burst := s.burstBytes }] := by
  have hdesc := h.1
  unfold State.bulkStart
  rw [readyFor_of_readyDesc h rfl]
  dsimp only
  rw [if_neg (show ¬ bulkCap ≤ s.fl.bulk.length from Nat.not_le.mpr hroom)]
  exact ⟨_, desc_onDesc_self (s := s.onFl _) hdesc fun _ => rfl, rfl, rfl, rfl⟩

/-- Settles O40: the mover's round is followed burst by burst; as the bytes are passed, the descriptor's pricking goes on with no fault. -/
theorem bulkMovesInBursts : Obligations.BulkMovesInBursts := by
  unfold Obligations.BulkMovesInBursts
  refine ⟨fun d s h hroom => ?_, fun d s h hroom => ?_, fun b d src f s hfirst hdesc hbytes hcut hmore hstage hranges hidle => ?_,
    fun b d src f s hfirst hdesc hbytes hcut hlast => ?_⟩
  · obtain ⟨e, h⟩ := bulkStart_takes h hroom
    exact ⟨_, e, rfl, h⟩
  · obtain ⟨e, h⟩ := bulkStart_takes h hroom
    exact ⟨_, e, rfl, h⟩
  · refine ⟨_, rfl, ?_⟩
    rw [bulkBurst_eq hfirst hdesc hbytes hcut, if_neg (Nat.not_le.mpr hmore)]
    have hsound : Desc.Sound d := by
      refine ⟨?_, fun r hr => ?_⟩
      · unfold Desc.inFront
        rw [hstage]
        rfl
      · obtain ⟨hseg, hfault, hlack⟩ := hranges r hr
        exact ⟨hseg, hfault, hlack⟩
    have hmoved := burstDone_moved s b d src
    generalize burstDone s b d src = u at hmoved ⊢
    obtain ⟨e, he, hquiet⟩ := hmoved.desc hdesc
    unfold State.bulkPass
    rw [passBytes_fl (s := u.onFl _) he (hsound.of_quiet hquiet) (hmoved.othersIdle hidle b.id)]
    change (u.fl.bulk.filter _) ++ _ = _
    rw [hmoved.fl]
  · refine ⟨_, rfl, ?_⟩
    have hid := desc_id hdesc
    rw [bulkBurst_eq hfirst hdesc hbytes hcut, if_pos hlast, ← hid]
    obtain ⟨e, he, -⟩ := (burstDone_moved s b d src).desc hdesc
    exact bulkEnd_ended (mem_descIds.mpr ⟨e, List.mem_of_find?_eq_some he, (desc_id he).trans hid.symm⟩) _

end Sys2Proof.Proofs
end

section
/-!
PROOFS. The mailbox (R400 to R402): what telemetry and audit records leave of the state, and how a command that starts is carried out,
audited and answered.
-/

namespace Sys2Proof.Proofs

open Sys2Proof Sys2Proof.Machine Sys2Proof.Laws

/-! ## The timestamp -/

theorem take_ts (t : Telem) (r : LogRec) : (t.take r).1.ts = t.ts := by
  unfold Telem.take
  dsimp only
  split
  · rfl
  split
  · rfl
  split
  · rfl
  · split <;> rfl

theorem op_ts (t : Telem) (o : TelOp) : (t.op o).1.ts = t.ts := by
  cases o with
  | count j n =>
    unfold Telem.op
    dsimp only
    split <;> rfl
  | event e =>
    unfold Telem.op
    dsimp only
    split
    · split <;> rfl
    · rfl
  | log core kind sev code args =>
    unfold Telem.op
    dsimp only
    split
    · exact take_ts ..
    · split <;> rfl
  | put r => exact take_ts t r
  | drain => rfl

/-- Telling telemetry takes no time. -/
theorem run_ts (f : Nat) (ops : List TelOp) (t : Telem) : (Telem.run f ops t).ts = t.ts := by
  induction f generalizing ops t with
  | zero => rfl
  | succ f ih =>
    cases ops with
    | nil => rfl
    | cons o ops => exact (ih _ _).trans (op_ts t o)

theorem tell_ts (s : State) (ops : List TelOp) : (s.tell ops).tel.ts = s.tel.ts := run_ts ..

/-! ## What the mailbox itself changes -/

/-- What Steta keeps, apart from its audit log, the commands that wait and its responses. -/
def quietSt (t : Steta) : Steta := { t with audit := [], aseq := 0, auditTold := false, waitCore := [], replies := [] }

/-- A state without what the mailbox itself changes: path registers, telemetry but for its time, the audit log, the commands that wait, the
responses, free values and outputs. -/
def strip (s : State) : State := { s with pregs := [], tel := { ts := s.tel.ts }, st := quietSt s.st, free := 0, out := [] }

/-- From s to t at most that has changed. -/
def Amid (s t : State) : Prop := strip t = strip s

theorem Amid.refl (s : State) : Amid s s := rfl

theorem Amid.trans {s t u : State} (h : Amid s t) (h' : Amid t u) : Amid s u := Eq.trans h' h

/-- What reads nothing else reads the same. -/
theorem Amid.reads {s t : State} (h : Amid s t) {α : Sort*} (f : State → α) (hf : ∀ u, f (strip u) = f u) : f t = f s :=
  (hf t).symm.trans ((congrArg f h).trans (hf s))

/-- The parts that the mailbox itself changes. -/
def amidMask : Mask := maskOfZones [.pregs, .tel, .st, .free, .out]

theorem amid_of_hide {s t : State} (h : hide amidMask t = hide amidMask s) (hst : quietSt t.st = quietSt s.st)
    (hts : t.tel.ts = s.tel.ts) : Amid s t := by
  have hstrip : ∀ u : State, strip u = { hide amidMask u with st := quietSt u.st, tel := { ts := u.tel.ts } } := fun _ => rfl
  unfold Amid
  rw [hstrip t, hstrip s, h, hst, hts]

theorem auditAdd_amid (s : State) (role path key result action target : Nat) (data : Bytes) :
    Amid s (s.auditAdd role path key result action target data) := by
  refine amid_of_hide (auditAdd_hide rfl rfl ..) ?_ ?_
  · unfold State.auditAdd
    split
    · split <;> rfl
    · rfl
  · unfold State.auditAdd
    split
    · split
      · rfl
      · exact tell_ts ..
    · exact tell_ts ..

theorem auditReg_amid (s : State) (p : Path) (off result : Nat) (val : Word64) : Amid s (s.auditReg p off result val) := auditAdd_amid ..

theorem auditHw_amid (s : State) (action target : Nat) : Amid s (s.auditHw action target) := auditAdd_amid ..

theorem auditMbx_amid (s before : State) (p : Path) (row : MbxRow) (result target : Nat) (req : Feed) :
    Amid s (s.auditMbx before p row result target req) := auditAdd_amid ..

theorem sayBytes_st (s : State) (b : Says) : (s.sayBytes b).1.st = s.st := by
  cases b <;> rfl

theorem sayBytes_tel (s : State) (b : Says) : (s.sayBytes b).1.tel = s.tel := by
  cases b <;> rfl

theorem mbxOut_st (s : State) (p : Path) (b : Bytes) : (s.mbxOut p b).st = s.st := by
  unfold State.mbxOut
  split <;> rfl

theorem mbxOut_tel (s : State) (p : Path) (b : Bytes) : (s.mbxOut p b).tel = s.tel := by
  unfold State.mbxOut
  split <;> rfl

theorem reply_amid (s : State) (p : Path) (result : Nat) (body : Says) : Amid s (s.reply p result body) := by
  refine amid_of_hide (reply_hide rfl rfl rfl rfl rfl ..) ?_ ?_
  · have hst : ∀ u : State, quietSt u.st = quietSt (u.mbxOut p (s.sayBytes body).2).st := fun u => congrArg quietSt (mbxOut_st ..).symm
    exact ((congrArg quietSt (sayBytes_st s body)).symm.trans (hst _)).symm
  · refine (tell_ts ..).trans ?_
    exact (congrArg Telem.ts (mbxOut_tel ..)).trans (congrArg Telem.ts (sayBytes_tel s body))

theorem regGet_mbxCmd_put (s : State) (p : Path) (v : Word64) : regGet (regPut s p Reg.mbxCmd v) p Reg.mbxCmd = v := mgetD_mset_self ..

theorem pget_pset {α : Type} (l : List (Path × α)) (p : Path) (v : α) : pget (pset l p v) p = some v := if_pos rfl

theorem finish_mbxDone (s : State) (p : Path) {result : Nat} (hresult : result < 256) :
    (s.finish p Reg.mbxCmd result).doneAt p Reg.mbxCmd result := by
  unfold State.doneAt State.finish
  rw [regGet_mbxCmd_put]
  refine ⟨?_, (bitf_putf_self _ (by decide) result).trans (Nat.mod_eq_of_lt hresult)⟩
  unfold bitb
  rw [getLsbD_putf_of_outside _ (.inl (by decide))]
  exact bitb_putf_self _ (by decide) 0

theorem doneAt_of_pregs {s t : State} {p : Path} {result : Nat} (hfuses : t.fuses = s.fuses) (hpregs : t.pregs = s.pregs)
    (h : s.doneAt p Reg.mbxCmd result) : t.doneAt p Reg.mbxCmd result := by
  have hget : regGet t p Reg.mbxCmd = regGet s p Reg.mbxCmd := by
    change mgetD t.pregs _ (regReset t.fuses.member _) = mgetD s.pregs _ (regReset s.fuses.member _)
    rw [hfuses, hpregs]
  unfold State.doneAt
  rw [hget]
  exact h

/-- A command that has answered is done, and its response stands. -/
theorem reply_replied (s : State) (p : Path) {result : Nat} (body : Says) (hresult : result < 256) :
    (s.reply p result body).replied p result body := by
  unfold State.reply
  dsimp only
  generalize State.cmdField _ p Reg.mbxCmd _ _ _ = u
  have hdone := finish_mbxDone u p hresult
  generalize State.finish u p Reg.mbxCmd result = v at hdone ⊢
  refine ⟨doneAt_of_pregs ((count_fuses _ _).trans (onSt_fuses v _)) ((count_pregs _ _).trans (onSt_pregs v _)) hdone,
    { result := result, body := body, data := (s.sayBytes body).2 }, ?_, rfl, rfl⟩
  rw [count_st, onSt_st]
  exact pget_pset ..

/-! ## A command that is sent now -/

/-- The state in which a mailbox command that is sent now is carried out. -/
structure Begun (s : State) (p : Path) (row : MbxRow) (req : Feed) (u : State) : Prop where
  amid  : Amid s u
  tel   : u.tel = (s.heard p row req).tel
  audit : u.st.audit = (s.heard p row req).st.audit
  passes : u.mbxRefusal p row req = none

theorem heard_amid (s : State) (p : Path) (row : MbxRow) (req : Feed) : Amid s (s.heard p row req) := by
  unfold State.heard
  split
  · exact auditReg_amid ..
  · exact .refl s

theorem mbxRefusal_of {u v : State} (h : Amid v u) (haudit : u.st.audit = v.st.audit) (p : Path) (row : MbxRow) (req : Feed) :
    u.mbxRefusal p row req = v.mbxRefusal p row req := by
  have hfull : u.auditFull = v.auditFull := by
    unfold State.auditFull
    rw [haudit]
  unfold State.mbxRefusal
  rw [hfull, h.reads (fun s => s.pw.step) fun _ => rfl, h.reads (fun s => s.rights p) fun _ => rfl, h.reads (fun s => s.i3.mwl) fun _ => rfl]

/-- A state with these commands waiting for their cores. -/
def waiting (s : State) (w : List Nat) : State := { s with st := { s.st with waitCore := w } }

/-- An audit record is made alike whatever waits. -/
theorem auditAdd_waiting (s : State) (w : List Nat) (role path key result action target : Nat) (data : Bytes) :
    (waiting s w).auditAdd role path key result action target data = waiting (s.auditAdd role path key result action target data) w := by
  have hfull : (waiting s w).auditFull = s.auditFull := rfl
  have htold : (waiting s w).st.auditTold = s.st.auditTold := rfl
  unfold State.auditAdd
  rw [hfull, htold]
  split
  · split <;> rfl
  · rfl

theorem heard_waiting (s : State) (w : List Nat) (p : Path) (row : MbxRow) (req : Feed) :
    (waiting s w).heard p row req = waiting (s.heard p row req) w := by
  unfold State.heard
  split
  · exact auditAdd_waiting ..
  · rfl

/-- The state in which a command that comes in a register starts, but for that register. -/
def begunAt (s : State) (p : Path) (row : MbxRow) (req : Feed) : State :=
  (waiting s (s.st.waitCore.erase (waitKey p Reg.mbxCmd))).heard p row req

/-- A register command of the mailbox that software starts now runs in such a state. -/
theorem mbxStart_begun {s : State} {p : Path} {row : MbxRow} {req : Feed} (h : s.mails p row req = true) :
    ∃ u, Begun s p row req u ∧ ∀ run, s.mbxStart p row req.data.length run = run u := by
  unfold State.mails at h
  obtain ⟨hstarts, hpasses⟩ := Bool.and_eq_true_iff.mp h
  have hpasses : (s.heard p row req).mbxRefusal p row req = none := Option.isNone_iff_eq_none.mp hpasses
  by_cases hp : p = .i3c
  · subst hp
    rw [if_pos rfl] at hstarts
    obtain ⟨hstarts, hup⟩ := Bool.and_eq_true_iff.mp hstarts
    obtain ⟨hanswers, hidle⟩ := Bool.and_eq_true_iff.mp hstarts
    have hamid : Amid s ((regPut s .i3c Reg.mbxCmd (mbxWord row.opc req.data.length)).onSt fun t =>
        { t with waitCore := t.waitCore.erase (waitKey .i3c Reg.mbxCmd), replies := pdel t.replies .i3c }) := rfl
    refine ⟨_, ⟨hamid, rfl, rfl, (mbxRefusal_of hamid rfl ..).trans hpasses⟩, fun run => ?_⟩
    unfold State.mbxStart State.i3cStart
    rw [if_pos rfl]
    dsimp only
    rw [hanswers, (Bool.not_eq_true' _).mp hidle, Bool.not_true, Bool.false_and, Bool.or_false, if_neg Bool.false_ne_true, if_pos hup]
  · rw [if_neg hp] at hstarts
    simp only [State.starts, Bool.and_eq_true, beq_iff_eq, Bool.not_eq_true'] at hstarts
    obtain ⟨⟨⟨hgate, hidle⟩, hcore⟩, hroom⟩ := hstarts
    have hup : s.roleUp row.core = true := hcore
    have hrun : ∀ run, s.mbxStart p row req.data.length run = run (regPut (begunAt s p row req) p Reg.mbxCmd
        (commandWord (regGet s p Reg.mbxCmd) (mbxWord row.opc req.data.length) 0x801FFFFF 31)) := by
      intro run
      unfold State.mbxStart State.command
      rw [if_neg hp, hgate]
      dsimp only
      rw [hidle, Bool.false_and, if_neg Bool.false_ne_true, hup, Bool.not_true, if_neg Bool.false_ne_true, hroom,
        if_neg Bool.false_ne_true]
      rw [show regAt Reg.mbxCmd = some ⟨0xE0008, .path, 0x801FFFFF, 0x0, 0x0⟩ from rfl]
      unfold begunAt State.heard commandWord
      congr 2
      simp only [Bool.false_or, decide_eq_true_eq]
      rfl
    have hamid : Amid s (begunAt s p row req) := .trans (t := waiting s (s.st.waitCore.erase (waitKey p Reg.mbxCmd))) rfl (heard_amid ..)
    have hheard := heard_waiting s (s.st.waitCore.erase (waitKey p Reg.mbxCmd)) p row req
    have htel : (begunAt s p row req).tel = (s.heard p row req).tel := (congrArg State.tel hheard :)
    have haudit : (begunAt s p row req).st.audit = (s.heard p row req).st.audit := (congrArg (fun u : State => u.st.audit) hheard :)
    have hnear : Amid (s.heard p row req) (begunAt s p row req) := (congrArg strip hheard :)
    exact ⟨regPut (begunAt s p row req) p Reg.mbxCmd _,
      ⟨hamid.trans rfl, htel, haudit, (mbxRefusal_of (hnear.trans rfl) haudit ..).trans hpasses⟩, hrun⟩

/-- A mailbox command that is sent now is carried out, and answers what its run answers; after it at most its own audit record and its
response are added. -/
theorem mailbox_runs {s : State} {p : Path} {row : MbxRow} {req : Feed} (h : s.mails p row req = true) :
    ∃ u, Begun s p row req u ∧ ∀ {x : State} {result : Nat} {body : Says} (target : Nat) (run : State → State × Nat × Says),
      run u = (x, result, body) → result < 256 →
      ∃ t, s.mailbox p row req target run = t ∧ Amid x t ∧ t.replied p result body := by
  obtain ⟨u, hu, hrun⟩ := mbxStart_begun h
  refine ⟨u, hu, fun target run heq hresult => ⟨_, rfl, ?_⟩⟩
  unfold State.mailbox
  rw [hrun]
  dsimp only
  rw [hu.passes, heq]
  refine ⟨.trans ?_ (reply_amid ..), reply_replied _ _ _ hresult⟩
  split
  · exact auditMbx_amid ..
  · exact .refl _

end Sys2Proof.Proofs
end

section
/-!
PROOFS. O59: mailbox commands on keys, limits, debug and fuses (R388, R396, R437, R440).
-/

namespace Sys2Proof.Proofs

open Sys2Proof Sys2Proof.Machine Sys2Proof.Laws

/-- A token that is good and newer, under a maker key that stands, enrols its key. -/
theorem enrol_takes {s : State} {count : BitVec 32} (hnewer : ∀ c, s.st.tokenCnt = some c → c.toNat < count.toNat)
    (hkey : s.keyHeld .maker s.st.image.keyIdx = true) (off : Nat) (chunk key : Bytes) :
    ∃ x, s.enrol off chunk true key count true = (x, Mbx.done, .nothing) ∧ x.st.instKey = some key ∧ x.st.tokenCnt = some count := by
  unfold State.enrol
  dsimp only
  rw [Bool.not_true, if_neg Bool.false_ne_true, hkey]
  cases htok : s.st.tokenCnt with
  | none => exact ⟨_, rfl, rfl, rfl⟩
  | some c =>
    have hnew : (true && decide (c.toNat < count.toNat) && true) = true := by
      rw [decide_eq_true (hnewer c htok)]
      rfl
    dsimp only
    rw [if_pos hnew]
    exact ⟨_, rfl, rfl, rfl⟩

/-- A new policy is in force and in flash, whether or not the debug access bus closes. -/
theorem setPolicy_sets (s : State) (v : Word64) : (s.setPolicy v).st.policy = v ∧ (s.setPolicy v).st.flashPol = v := by
  unfold State.setPolicy
  dsimp only
  split
  · have hclosed := auditHw_amid ((s.onSt fun t => { t with policy := v, flashPol := v }).onSt fun t => { t with debug := 0 }) 0x800F Reg.authPolicy
    exact ⟨hclosed.reads (fun u => u.st.policy) fun _ => rfl, hclosed.reads (fun u => u.st.flashPol) fun _ => rfl⟩
  · exact ⟨rfl, rfl⟩

theorem openDebug_opens {s : State} {p : Path} (h : min (s.rights p - 1) (debugAllowed s.st.policy) ≠ 0) :
    s.openDebug p = (s.onSt fun t => { t with debug := min (s.rights p - 1) (debugAllowed s.st.policy) }, Mbx.done, .nothing) := by
  unfold State.openDebug
  dsimp only
  rw [if_neg h]

/-- What ENROL_OPERATOR does once it is carried out. -/
def enrolOp (idx : Nat) (key : Bytes) (s : State) : State × Nat × Says :=
  if 16 ≤ idx then (s, Mbx.wrongState, .nothing) else (s.onSt fun t => { t with opKeys := mset t.opKeys idx key }, Mbx.done, .nothing)

/-- What REVOKE_OPERATOR does once it is carried out. -/
def revokeOp (idx : Nat) (s : State) : State × Nat × Says :=
  if (mget s.st.opKeys idx).isNone then (s, Mbx.wrongState, .nothing)
  else (s.onSt fun t => { t with opKeys := mdel t.opKeys idx }, Mbx.done, .nothing)

/-- Settles O59: each command is carried out as its run says, and what it sets outlives its audit record and its answer. -/
theorem mailboxSetsKeysAndLimits : Obligations.MailboxSetsKeysAndLimits := by
  unfold Obligations.MailboxSetsKeysAndLimits
  refine ⟨fun p req off chunk key count s h hnewer hkey => ?_, fun p req idx key s h hidx => ?_, fun p req idx s h hkey => ?_,
    fun p req limits s h => ?_, fun p req s h hlevel => ?_, fun p req s h => ?_, fun p req revoke s h => ?_⟩
  · obtain ⟨u, hu, hrun⟩ := mailbox_runs h
    have hcnt : u.st.tokenCnt = s.st.tokenCnt := hu.amid.reads (fun v => v.st.tokenCnt) fun _ => rfl
    have hheld : u.keyHeld .maker u.st.image.keyIdx = true :=
      (hu.amid.reads (fun v => v.keyHeld .maker v.st.image.keyIdx) fun _ => rfl).trans hkey
    obtain ⟨x, hanswer, hinst, hcount⟩ := enrol_takes (s := u) (hcnt ▸ hnewer) hheld off chunk key
    obtain ⟨t, ht, hend, hreply⟩ := hrun 0 (fun s => s.enrol off chunk true key count true) hanswer (by decide)
    exact ⟨t, congrArg _ ht, hreply, (hend.reads (fun v => v.st.instKey) fun _ => rfl).trans hinst,
      (hend.reads (fun v => v.st.tokenCnt) fun _ => rfl).trans hcount⟩
  · obtain ⟨u, -, hrun⟩ := mailbox_runs h
    obtain ⟨t, ht, hend, hreply⟩ := hrun idx (enrolOp idx key) (if_neg (Nat.not_le.mpr hidx)) (by decide)
    refine ⟨t, congrArg _ ht, hreply, ?_⟩
    rw [hend.reads (fun v => v.st.opKeys) fun _ => rfl]
    exact mget_mset_self ..
  · obtain ⟨u, hu, hrun⟩ := mailbox_runs h
    have hkeys : u.st.opKeys = s.st.opKeys := hu.amid.reads (fun v => v.st.opKeys) fun _ => rfl
    have hthere : ¬ (mget u.st.opKeys idx).isNone = true := by
      rw [hkeys, Option.isNone_iff_eq_none]
      exact Option.isSome_iff_ne_none.mp hkey
    obtain ⟨t, ht, hend, hreply⟩ := hrun idx (revokeOp idx) (if_neg hthere) (by decide)
    refine ⟨t, congrArg _ ht, hreply, ?_⟩
    rw [hend.reads (fun v => v.st.opKeys) fun _ => rfl]
    exact (mget_mdel ..).trans (if_pos rfl)
  · obtain ⟨u, hu, hrun⟩ := mailbox_runs h
    obtain ⟨t, ht, hend, hreply⟩ := hrun Reg.authPolicy
      (fun s => (s.setPolicy (putf s.st.policy 0 7 (limits.toNat % 128)), Mbx.done, .nothing)) rfl (by decide)
    have hpolicy : u.st.policy = s.st.policy := hu.amid.reads (fun v => v.st.policy) fun _ => rfl
    obtain ⟨hset, hflash⟩ := setPolicy_sets u (putf u.st.policy 0 7 (limits.toNat % 128))
    have ht1 := (hend.reads (fun v => v.st.policy) fun _ => rfl).trans hset
    have ht2 := (hend.reads (fun v => v.st.flashPol) fun _ => rfl).trans hflash
    exact ⟨t, congrArg _ ht, hreply, hpolicy ▸ ht1, ht2.trans ht1.symm⟩
  · obtain ⟨u, hu, hrun⟩ := mailbox_runs h
    have hmin : min (u.rights p - 1) (debugAllowed u.st.policy) = min (s.rights p - 1) (debugAllowed s.st.policy) :=
      hu.amid.reads (fun v => min (v.rights p - 1) (debugAllowed v.st.policy)) fun _ => rfl
    obtain ⟨t, ht, hend, hreply⟩ := hrun 0 (fun s => s.openDebug p) (openDebug_opens (hmin ▸ hlevel)) (by decide)
    exact ⟨t, congrArg _ ht, hreply, (hend.reads (fun v => v.st.debug) fun _ => rfl).trans hmin⟩
  · obtain ⟨u, -, hrun⟩ := mailbox_runs h
    obtain ⟨t, ht, hend, hreply⟩ := hrun 0 (fun s => (s.onSt fun t => { t with debug := 0 }, Mbx.done, .nothing)) rfl (by decide)
    exact ⟨t, congrArg _ ht, hreply, hend.reads (fun v => v.st.debug) fun _ => rfl⟩
  · obtain ⟨u, hu, hrun⟩ := mailbox_runs h
    obtain ⟨t, ht, hend, hreply⟩ := hrun revoke.toNat
      (fun s => (s.onFuses fun f => { f with revoked := f.revoked ||| revoke }, Mbx.done, .nothing)) rfl (by decide)
    refine ⟨t, congrArg _ ht, hreply, (hend.reads (fun v => v.fuses.revoked) fun _ => rfl).trans ?_⟩
    exact congrArg (· ||| revoke) (hu.amid.reads (fun v => v.fuses.revoked) fun _ => rfl)

end Sys2Proof.Proofs
end

section
/-!
PROOFS. What a role's return, and with it a core's restart, leaves of what Steta keeps (R392 to R394).
-/

namespace Sys2Proof.Proofs

open Sys2Proof Sys2Proof.Machine Sys2Proof.Laws

/-! ## A role's return -/

/-- What Steta keeps, apart from its audit log, what waits, its responses, and what a write of the authority block sets. -/
def still (t : Steta) : Steta := { quietSt t with policy := 0, flashPol := 0, makerCtl := 0, authWait := [], debug := 0 }

/-- From s to t Steta keeps the rest. -/
def Still (s t : State) : Prop := still t.st = still s.st

theorem Still.refl (s : State) : Still s s := rfl

theorem Still.trans {s t u : State} (h : Still s t) (h' : Still t u) : Still s u := Eq.trans h' h

theorem Still.reads {s t : State} (h : Still s t) {α : Sort*} (f : Steta → α) (hf : ∀ u, f (still u) = f u) : f t.st = f s.st :=
  (hf t.st).symm.trans ((congrArg f h).trans (hf s.st))

theorem still_of_st {s t : State} (h : t.st = s.st) : Still s t := congrArg still h

theorem Amid.still {s t : State} (h : Amid s t) : Still s t := h.reads (fun u => Proofs.still u.st) fun _ => rfl

theorem still_of_hide {s t : State} (h : hide (butZone .st) t = hide (butZone .st) s) : Still s t := still_of_st (same_of_hide h .st rfl)

theorem Still.forEach {α : Type} {f : State → α → State} (h : ∀ s a, Still s (f s a)) (l : List α) (s : State) :
    Still s (State.forEach f l s) :=
  forEach_keeps (P := Still s) l (fun u a _ hu => hu.trans (h u a)) s (.refl s)

theorem handAudits_still (s : State) : Still s s.handAudits := by
  unfold State.handAudits
  refine Still.forEach (fun u a => ?_) _ s
  rfl

theorem setPolicy_still (s : State) (v : Word64) : Still s (s.setPolicy v) := by
  unfold State.setPolicy
  dsimp only
  split
  · refine Still.trans ?_ (auditHw_amid _ 0x800F Reg.authPolicy).still
    rfl
  · rfl

theorem authApply_still {run : State → State} (h : ∀ u, Still u (run u)) (s : State) (p : Path) (reg : Nat) (val : Word64) :
    Still s (s.authApply p reg val run) := by
  unfold State.authApply
  split
  · exact h s
  split
  · exact (auditReg_amid ..).still
  · exact (auditReg_amid ..).still.trans (h _)

theorem denyWrite_still (s : State) (p : Path) (off : Nat) (val : Word64) : Still s (s.denyWrite p off val) :=
  (auditReg_amid s p off 3 val).still

theorem shutOut_still (s : State) : Still s s.shutOut := by
  unfold State.shutOut
  split <;> rfl

theorem regWrite_still {apply : State → Word64 → Word64 → State} (h : ∀ u old new, Still u (apply u old new)) (s : State) (p : Path)
    (off size : Nat) (val : Word64) (reg least : Nat) : Still s (s.regWrite p off size val reg least apply) := by
  unfold State.regWrite
  split
  · rfl
  split
  · rfl
  · exact shutOut_still s
  · rfl
  · exact denyWrite_still ..
  split
  · rfl
  split
  · rfl
  split
  · exact (auditReg_amid ..).still
  · refine .trans (t := if p = .dbg then _ else _) ?_ (h _ _ _)
    split
    · split
      · exact (auditReg_amid ..).still
      · exact .trans (t := { s with lows := _ }) rfl (auditReg_amid ..).still
    · split <;> rfl

theorem makerPut_still (s : State) (p : Path) (v : Word64) : Still s (regPut s p Reg.makerCtl v).tapFit := rfl

theorem authRun_still (s : State) (p : Path) (off size : Nat) (val : Word64) : Still s (s.authRun p off size val) := by
  unfold State.authRun
  split
  · refine regWrite_still (fun u old new => ?_) ..
    exact authApply_still (fun v => setPolicy_still v new) u p Reg.authPolicy new
  split
  · refine regWrite_still (fun u old new => ?_) ..
    exact authApply_still (fun v => makerPut_still v p new) u p Reg.makerCtl new
  · rfl

theorem authDrain_still (s : State) : Still s s.authDrain :=
  .trans (t := s.onSt fun t => { t with authWait := [] }) rfl (.forEach (fun _ _ => authRun_still ..) ..)

/-! ### Channel actions -/

theorem enterService_still (s : State) (lch pch kind : Nat) (spare : Bool) : Still s (s.enterService lch pch kind spare) := by
  unfold State.enterService
  dsimp only
  generalize hu : s.onPhys pch _ = u
  have hus : Still s u := by rw [← hu]; rfl
  refine hus.trans (.trans (t := if spare then (u.auditSpare pch).spareLow lch pch 2 u.spareChs.length else u) ?_ (still_of_st (tell_st ..)))
  split
  · exact (auditHw_amid u 0x8006 pch).still.trans (still_of_hide (spareLow_hide rfl ..))
  · rfl

theorem switchReplace_still (s : State) (c : ChCopy) (old : Nat) (pass : Option (Option TgRes)) : Still s (s.switchReplace c old pass) := by
  unfold State.switchReplace
  dsimp only
  refine Still.trans ?_ (still_of_hide (gsDone_hide rfl _ c.lch 1))
  refine Still.trans ?_ (still_of_st (count_st ..))
  refine Still.trans ?_ (still_of_hide (tellTested_hide rfl _ _))
  generalize hu : State.onGs (s.joinGroup c.pch old) _ = u
  have hus : Still s u := by rw [← hu]; rfl
  exact hus.trans ((enterService_still u c.lch c.pch 2 true).trans (still_of_hide (onPhys_hide rfl ..)))

theorem switchUnfold_still (s : State) (c : ChCopy) (old : Nat) (waits : List WcEntry) : Still s (s.switchUnfold c old waits) := by
  unfold State.switchUnfold
  dsimp only
  refine Still.trans ?_ (still_of_hide (gsDone_hide rfl _ c.lch 3))
  refine Still.trans ?_ (still_of_hide (unfoldRestores_hide rfl _))
  refine Still.trans ?_ (still_of_hide (rehouseAll_hide rfl rfl rfl rfl rfl rfl rfl rfl _ true))
  refine Still.trans ?_ (enterService_still ..)
  refine Still.trans (t := (s.joinGroup c.pch (mgetD s.gs.lmap (c.lch ^^^ 1) (c.lch ^^^ 1))).replay c waits) ?_ rfl
  exact .trans (still_of_hide (joinGroup_hide rfl ..)) (still_of_hide (replay_hide rfl rfl ..))

theorem switchCh_still (s : State) (c0 : ChCopy) (pass : Option (Option TgRes)) : Still s (s.switchCh c0 pass) := by
  unfold State.switchCh
  dsimp only
  generalize hc : (s.copyRest c0).2 = c
  generalize hu : State.hold (s.copyRest c0).1 c = u
  have hus : Still s u := by
    rw [← hu]
    exact .trans (still_of_hide (copyRest_hide rfl rfl rfl ..)) (still_of_hide (hold_hide rfl rfl rfl ..))
  generalize hv : State.endCopy (if c.op = 3 then u else u.refreshDue (mgetD s.gs.lmap c0.lch c0.lch)) c0.lch = v
  have hvs : Still u v := by
    rw [← hv]
    refine Still.trans ?_ (still_of_hide (endCopy_hide rfl ..))
    split
    · rfl
    · exact still_of_hide (refreshDue_hide rfl rfl rfl ..)
  generalize hw : (if c.readable then v else v.rebuild c0.lch (fun _ _ => true) true) = w
  have hws : Still v w := by
    rw [← hw]
    split
    · rfl
    · exact still_of_hide (rebuild_hide rfl rfl rfl rfl rfl rfl rfl rfl rfl ..)
  refine (hus.trans (hvs.trans hws)).trans ?_
  split
  · exact .trans (switchReplace_still ..) (still_of_hide (replay_hide rfl rfl ..))
  split
  · exact still_of_hide (switchFold_hide rfl rfl rfl rfl rfl rfl rfl rfl rfl rfl ..)
  · exact switchUnfold_still ..

theorem replaceCh_still (s : State) (f : Nat) (readable : Bool) : Still s (s.replaceCh f readable).1 := by
  unfold State.replaceCh
  split
  · rfl
  split
  · rfl
  split
  · rfl
  split
  · rfl
  · have hstart : ∀ (c : ChCopy) (old : Option Nat), Still s (s.startCopy c old) := fun c old => still_of_hide (startCopy_hide rfl ..)
    dsimp only
    split
    · exact hstart _ _
    · exact (hstart _ _).trans (switchCh_still ..)

theorem autoAction_still (s : State) (f : Nat) (readable : Bool) : Still s (s.autoAction f readable) := by
  unfold State.autoAction
  dsimp only
  split
  · exact replaceCh_still ..
  split
  · exact still_of_hide (foldCh_hide rfl rfl rfl rfl rfl rfl rfl ..)
  · exact still_of_hide (loseChannel_hide rfl rfl rfl rfl rfl rfl rfl rfl rfl rfl ..)

theorem channelAction_still (s : State) (f : Nat) (readable : Bool) : Still s (s.channelAction f readable) := by
  unfold State.channelAction
  split
  · rfl
  split
  · rfl
  split
  · rfl
  split
  · exact still_of_st (tell_st ..)
  · exact autoAction_still ..

theorem runDue_still (s : State) : Still s s.runDue := by
  unfold State.runDue
  dsimp only
  generalize hu : State.forEach _ s.gs.copies s = u
  have hus : Still s u := by
    rw [← hu]
    refine Still.forEach (fun v c => ?_) s.gs.copies s
    split
    · exact switchCh_still ..
    · rfl
  refine hus.trans (Still.trans (t := u.onGs fun g => { g with due := [] }) rfl ?_)
  refine Still.forEach (fun v e => ?_) u.gs.due _
  exact channelAction_still ..

/-- A role that is back takes up what has waited for it, and no more. -/
theorem roleBack_still (s : State) (r : Nat) : Still s (s.roleBack r) := by
  unfold State.roleBack
  split
  · exact .trans (t := (s.onTel fun t => { t with logUp := true }).tell [.drain]) (still_of_st (tell_st ..)) (handAudits_still _)
  split
  · exact authDrain_still s
  split
  · exact runDue_still s
  · rfl

/-! ## A restart -/

theorem haltCore_st (s : State) (k cause : Nat) (pc : Word64) : (s.haltCore k cause pc).st =
    { s.st with
      cores := mset s.st.cores k .restart
      times := mset s.st.times k (s.tel.ts :: mgetD s.st.times k [])
      crashes := (k, pc, cause) :: s.st.crashes } := by
  unfold State.haltCore
  dsimp only
  rw [tell_st]
  split <;> rfl

theorem haltCore_ts (s : State) (k cause : Nat) (pc : Word64) : (s.haltCore k cause pc).tel.ts = s.tel.ts := by
  unfold State.haltCore
  dsimp only
  rw [tell_ts]
  split <;> rfl

theorem within_now (t : Telem) (n : Nat) : t.within t.ts n = true := by
  unfold Telem.within
  rw [BitVec.sub_self]
  exact decide_eq_true (Nat.zero_le n)

/-- A halt counts as one more restart. -/
theorem haltCore_recent (s : State) (k cause : Nat) (pc : Word64) :
    (s.haltCore k cause pc).recentRestarts k = s.recentRestarts k + 1 := by
  have hwithin : ∀ t n, (s.haltCore k cause pc).tel.within t n = s.tel.within t n := fun t n => by
    unfold Telem.within
    rw [haltCore_ts]
  unfold State.recentRestarts
  simp only [hwithin]
  rw [haltCore_st]
  dsimp only
  rw [mgetD_mset_self, List.filter_cons, if_pos (within_now s.tel minute10), List.length_cons]

/-- A core with fewer than two restarts behind it within ten minutes, or core 0, runs again. -/
theorem cycleCore_resumes {s : State} {k : Nat} (h : k ≠ 0 → s.recentRestarts k < 2) (cause : Nat) (pc : Word64) :
    s.cycleCore k cause pc = (s.haltCore k cause pc).resumeCore k cause := by
  unfold State.cycleCore
  dsimp only
  refine if_neg ?_
  rw [haltCore_recent, Bool.and_eq_true, decide_eq_true_eq, decide_eq_true_eq]
  rintro ⟨hk, hrecent⟩
  exact absurd (h hk) (by omega)

theorem resumeCore_still (s : State) (k cause : Nat) : Still (s.setCore k .run) (s.resumeCore k cause) := by
  unfold State.resumeCore
  dsimp only
  have htold : ∀ ops, Still (s.setCore k .run) ((s.setCore k .run).tell ops) := fun ops => still_of_st (tell_st ..)
  split
  · exact (htold _).trans (roleBack_still ..)
  · exact htold _

/-- What a core's restart leaves: the core runs, its crash record is the newest, and no further role is down. -/
theorem cycleCore_runs {s : State} {k : Nat} (h : k ≠ 0 → s.recentRestarts k < 2) (cause : Nat) (pc : Word64) :
    (s.cycleCore k cause pc).coreState k = .run ∧ (s.cycleCore k cause pc).st.crashes = (k, pc, cause) :: s.st.crashes ∧
      (s.cycleCore k cause pc).st.down = s.st.down := by
  have hstill := resumeCore_still (s.haltCore k cause pc) k cause
  rw [cycleCore_resumes h]
  refine ⟨?_, ?_, ?_⟩
  · unfold State.coreState
    rw [hstill.reads Steta.cores fun _ => rfl]
    exact mgetD_mset_self ..
  · rw [hstill.reads Steta.crashes fun _ => rfl]
    change (s.haltCore k cause pc).st.crashes = _
    rw [haltCore_st]
  · rw [hstill.reads Steta.down fun _ => rfl]
    change (s.haltCore k cause pc).st.down = _
    rw [haltCore_st]

end Sys2Proof.Proofs
end

section
/-!
PROOFS. O57: reading mailbox commands and sessions (R392, R395, R400, R401).
-/

namespace Sys2Proof.Proofs

open Sys2Proof Sys2Proof.Machine Sys2Proof.Laws

/-- A reading command answers what it reads in the state in which it is carried out. -/
theorem mbxRead_answers {s : State} {p : Path} {opc core : Nat} {req : Feed}
    (h : s.mails p { opc := opc, least := 1, core := core, inRec := true, audited := false } req = true) (body : State → Says) :
    ∃ u, Begun s p { opc := opc, least := 1, core := core, inRec := true, audited := false } req u ∧
      (s.mbxRead p opc core req body).replied p 0 (body u) := by
  obtain ⟨u, hu, hrun⟩ := mailbox_runs h
  obtain ⟨t, ht, -, hreply⟩ := hrun 0 (fun s => (s, Mbx.done, body s)) rfl (by decide)
  exact ⟨u, hu, (show s.mbxRead p opc core req body = t from ht) ▸ hreply⟩

/-- A restart by command of a core that runs, where it is not retired, is done. -/
theorem mbxRestart_done {s : State} {k : Nat} (hruns : s.coreRuns k = true) (hfew : k ≠ 0 → s.recentRestarts k < 2) :
    ∃ x pc, s.mbxRestart k = (x, Mbx.done, .nothing) ∧ x.coreState k = .run ∧ x.st.crashes = (k, pc, Cause.command) :: s.st.crashes := by
  obtain ⟨hrun, hcrash, hdown⟩ := cycleCore_runs (s := s.freePc.1) hfew Cause.command s.freePc.2
  refine ⟨s.freePc.1.cycleCore k Cause.command s.freePc.2, s.freePc.2, ?_, hrun, hcrash⟩
  unfold State.mbxRestart
  rw [hruns, Bool.not_true, if_neg Bool.false_ne_true]
  dsimp only
  rw [hdown]
  rw [if_pos (show s.freePc.1.st.down.length = s.st.down.length from rfl)]

/-- An operator's response over I3C is turned away only where the policy lets none in. -/
theorem operator_passes {s : State} {p : Path} {role : Role} (h : p = .i3c → role = .operator → bitb s.st.policy 7 = true) :
    ¬ (decide (p = .i3c) && role == .operator && !(bitb s.st.policy 7)) = true := by
  rw [Bool.and_eq_true, Bool.and_eq_true, decide_eq_true_eq, beq_iff_eq, Bool.not_eq_true']
  rintro ⟨⟨hp, hrole⟩, hoff⟩
  rw [h hp hrole] at hoff
  cases hoff

theorem openSession_opens {s : State} {p : Path} {role : Role} {k : Nat} (hasked : s.st.asked.contains p = true)
    (hpath : p = .i3c → role = .operator → bitb s.st.policy 7 = true) (hkey : s.keyHeld role k = true) :
    s.openSession p role k true =
      (s.onSt fun t => { t with sessions := pset t.sessions p { role := role, key := k }, asked := t.asked.erase p }, Mbx.done, .nothing) := by
  unfold State.openSession
  rw [hasked, Bool.not_true, if_neg Bool.false_ne_true, if_neg (operator_passes hpath), hkey, Bool.and_self, Bool.not_true,
    if_neg Bool.false_ne_true]

theorem refuseSession_sessions (s : State) (p : Path) : (s.refuseSession p).st.sessions = s.st.sessions := by
  unfold State.refuseSession
  dsimp only
  split
  · rfl
  · rfl

theorem openSession_refuses {s : State} {p : Path} {role : Role} {k : Nat} (hasked : s.st.asked.contains p = true)
    (hpath : p = .i3c → role = .operator → bitb s.st.policy 7 = true) :
    s.openSession p role k false = (s.refuseSession p, Mbx.verifyFail, .nothing) := by
  unfold State.openSession
  rw [hasked, Bool.not_true, if_neg Bool.false_ne_true, if_neg (operator_passes hpath), Bool.and_false, Bool.not_false, if_pos rfl]

/-- What AUDIT_HEAD says. -/
def headSays (s : State) : Says :=
  match s.st.audit with
  | [] => .nothing
  | a :: _ => .head a.aseq (Sys2Proof.Config.sha384 a.bytes)

/-- What RETURN_DIAG says. -/
def diagSays (s : State) : Says :=
  .diag s.st.crashes ((List.range 7).filter fun k => s.coreState k == .retired) s.gs.rowMap s.gs.bankMap s.gs.lmap

/-- Settles O57: each command is carried out as its run says; a restarted core runs again, and the rest reads or sets what it names. -/
theorem mailboxReadsAndSessions : Obligations.MailboxReadsAndSessions := by
  unfold Obligations.MailboxReadsAndSessions
  refine ⟨fun p req s h => ?_, fun p req s h => ?_, fun p req r s u hr h hu => ?_, fun p req page r s u hr h hu => ?_,
    fun p req aseq r s u hr h hu => ?_, fun p req a l r s u hr h hu hhead => ?_, fun p req s h => ?_,
    fun p req k su s h hruns hfew => ?_, fun p req s h hopen => ?_, fun p req role k s h hasked hpath hkey => ?_,
    fun p req role k s h hasked hpath => ?_, fun p req s h hthere => ?_⟩
  · obtain ⟨u, hu, hreply⟩ := mbxRead_answers h fun s =>
      .health ((List.range 7).map s.coreState) s.st.spareRole s.pw.step s.sliceSpares s.spareChs.length (2 - s.pllsUsed) s.emergency
    rw [hu.amid.reads (fun s => Says.health ((List.range 7).map s.coreState) s.st.spareRole s.pw.step s.sliceSpares s.spareChs.length
      (2 - s.pllsUsed) s.emergency) fun _ => rfl] at hreply
    exact ⟨_, rfl, hreply⟩
  · obtain ⟨u, hu, hreply⟩ := mbxRead_answers h fun s => .sensors s.st.temps s.st.volts s.pw.refOk
      (s.pw.sp0.toList ++ s.pw.sp1.toList) ((List.range (Member.phys s.fuses.member)).filter fun q => (s.phys q).step)
    rw [hu.amid.reads (fun s => Says.sensors s.st.temps s.st.volts s.pw.refOk (s.pw.sp0.toList ++ s.pw.sp1.toList)
      ((List.range (Member.phys s.fuses.member)).filter fun q => (s.phys q).step)) fun _ => rfl] at hreply
    exact ⟨_, rfl, hreply⟩
  · subst hr hu
    obtain ⟨v, hv, hreply⟩ := mbxRead_answers h fun s =>
      .logPos s.tel.logProd s.tel.logCons (s.counter Ctr.logDropped) s.tel.newestPage
    unfold State.counter at hreply
    rw [hv.tel] at hreply
    exact ⟨_, rfl, hreply⟩
  · subst hr hu
    obtain ⟨v, hv, hreply⟩ := mbxRead_answers h fun s => .pages ((s.tel.plog.reverse.drop (64 * page)).take 64)
    rw [hv.tel] at hreply
    exact ⟨_, rfl, hreply⟩
  · subst hr hu
    obtain ⟨v, hv, hreply⟩ := mbxRead_answers h fun s =>
      .audits ((s.st.audit.reverse.filter fun a => decide (aseq ≤ a.aseq)).take 32)
    rw [hv.audit] at hreply
    exact ⟨_, rfl, hreply⟩
  · subst hr hu
    obtain ⟨v, hv, hreply⟩ := mbxRead_answers h headSays
    unfold headSays at hreply
    rw [hv.audit, hhead] at hreply
    exact ⟨_, rfl, hreply⟩
  · obtain ⟨u, hu, hrun⟩ := mailbox_runs h
    obtain ⟨t, ht, -, hreply⟩ := hrun 0 (fun s => (s, Mbx.done, diagSays s)) rfl (by decide)
    rw [hu.amid.reads diagSays fun _ => rfl] at hreply
    exact ⟨t, congrArg _ ht, hreply⟩
  · obtain ⟨u, hu, hrun⟩ := mailbox_runs h
    have hruns' : u.coreRuns k = true := (hu.amid.reads (fun v => v.coreRuns k) fun _ => rfl).trans hruns
    have hrecent : u.recentRestarts k = s.recentRestarts k := hu.amid.reads (fun v => v.recentRestarts k) fun _ => rfl
    obtain ⟨x, pc, heq, hrun', hcrash⟩ := mbxRestart_done hruns' (hrecent ▸ hfew)
    obtain ⟨t, ht, hend, hreply⟩ := hrun k (fun s => s.mbxRestart k) heq (by decide)
    refine ⟨t, ?_, hreply, (hend.reads (fun v => v.coreState k) fun _ => rfl).trans hrun', pc, ?_⟩
    · change Host.Outcome.next (if (decide (k = 0) && !true) = true then _ else _) = _
      rw [Bool.not_true, Bool.and_false, if_neg Bool.false_ne_true]
      exact congrArg _ ht
    · rw [hend.reads (fun v => v.st.crashes) fun _ => rfl, hcrash, hu.amid.reads (fun v => v.st.crashes) fun _ => rfl]
  · obtain ⟨u, hu, hrun⟩ := mailbox_runs h
    have hopen' : ¬ u.st.lockout.contains p = true := by
      rw [hu.amid.reads (fun v => v.st.lockout) fun _ => rfl, hopen]
      exact Bool.false_ne_true
    obtain ⟨t, ht, hend, hreply⟩ := hrun (Path.num p) (fun s => s.challenge p) (if_neg hopen') (by decide)
    rw [hu.amid.reads (fun v => v.st.nonces) fun _ => rfl] at hreply
    refine ⟨t, congrArg _ ht, hreply, ?_, ?_⟩
    · rw [hend.reads (fun v => v.st.asked) fun _ => rfl]
      exact List.mem_cons_self
    · rw [hend.reads (fun v => v.st.nonces) fun _ => rfl]
      exact congrArg (· + 1) (hu.amid.reads (fun v => v.st.nonces) fun _ => rfl)
  · obtain ⟨u, hu, hrun⟩ := mailbox_runs h
    have hasked' : u.st.asked.contains p = true := (hu.amid.reads (fun v => v.st.asked.contains p) fun _ => rfl).trans hasked
    have hpolicy : u.st.policy = s.st.policy := hu.amid.reads (fun v => v.st.policy) fun _ => rfl
    have hkey' : u.keyHeld role k = true := (hu.amid.reads (fun v => v.keyHeld role k) fun _ => rfl).trans hkey
    obtain ⟨t, ht, hend, hreply⟩ := hrun k (fun s => s.openSession p role k true)
      (openSession_opens hasked' (hpolicy ▸ hpath) hkey') (by decide)
    refine ⟨t, congrArg _ ht, hreply, { role := role, key := k }, ?_, rfl, rfl⟩
    rw [hend.reads (fun v => v.st.sessions) fun _ => rfl]
    exact pget_pset ..
  · obtain ⟨u, hu, hrun⟩ := mailbox_runs h
    have hasked' : u.st.asked.contains p = true := (hu.amid.reads (fun v => v.st.asked.contains p) fun _ => rfl).trans hasked
    have hpolicy : u.st.policy = s.st.policy := hu.amid.reads (fun v => v.st.policy) fun _ => rfl
    obtain ⟨t, ht, hend, hreply⟩ := hrun k (fun s => s.openSession p role k false)
      (openSession_refuses hasked' (hpolicy ▸ hpath)) (by decide)
    refine ⟨t, congrArg _ ht, hreply, ?_⟩
    rw [hend.reads (fun v => v.st.sessions) fun _ => rfl, refuseSession_sessions, hu.amid.reads (fun v => v.st.sessions) fun _ => rfl]
  · obtain ⟨u, hu, hrun⟩ := mailbox_runs h
    have hthere' : ¬ (pget u.st.sessions p).isNone = true := by
      rw [hu.amid.reads (fun v => v.st.sessions) fun _ => rfl, Option.isNone_iff_eq_none]
      exact Option.isSome_iff_ne_none.mp hthere
    obtain ⟨t, ht, hend, hreply⟩ := hrun (Path.num p) (fun s => s.mbxEnd p) (if_neg hthere') (by decide)
    refine ⟨t, congrArg _ ht, hreply, ?_⟩
    rw [hend.reads (fun v => v.st.sessions) fun _ => rfl]
    exact pget_pdel ..

end Sys2Proof.Proofs
end

section
/-!
PROOFS. O58: mailbox commands on images and drives (R331, R386, R387, R390, R391).
-/

namespace Sys2Proof.Proofs

open Sys2Proof Sys2Proof.Machine Sys2Proof.Laws

/-- What reads nothing of the audit log, of what waits and of the responses reads the same of Steta. -/
theorem Amid.steta {s t : State} (h : Amid s t) {α : Sort*} (f : Steta → α) (hf : ∀ u, f (quietSt u) = f u := by exact fun _ => rfl) :
    f t.st = f s.st :=
  h.reads (fun u => f u.st) fun u => hf u.st

/-! ## Restarts and images -/

/-- What Steta keeps, apart also from what a restart of cores changes. -/
def posed (t : Steta) : Steta := { still t with cores := [], times := [], spareRole := 0, down := [], crashes := [] }

/-- From s to t Steta keeps the rest: its images and their state among it. -/
def Posed (s t : State) : Prop := posed t.st = posed s.st

theorem Posed.trans {s t u : State} (h : Posed s t) (h' : Posed t u) : Posed s u := Eq.trans h' h

theorem Posed.reads {s t : State} (h : Posed s t) {α : Sort*} (f : Steta → α) (hf : ∀ u, f (posed u) = f u) : f t.st = f s.st :=
  (hf t.st).symm.trans ((congrArg f h).trans (hf s.st))

theorem Still.posed {s t : State} (h : Still s t) : Posed s t := h.reads Proofs.posed fun _ => rfl

theorem posed_of_st {s t : State} (h : t.st = s.st) : Posed s t := congrArg Proofs.posed h

theorem setCore_posed (s : State) (k : Nat) (c : CoreState) : Posed s (s.setCore k c) := rfl

theorem haltCore_posed (s : State) (k cause : Nat) (pc : Word64) : Posed s (s.haltCore k cause pc) := by
  unfold Posed
  rw [haltCore_st]
  rfl

theorem spareCore_posed (s : State) (k r cause : Nat) : Posed s (s.spareCore k r cause) := by
  unfold State.spareCore
  dsimp only
  refine Posed.trans ?_ (posed_of_st (tell_st ..))
  refine Posed.trans ?_ (auditHw_amid _ 0x800E k).still.posed
  refine Posed.trans ?_ (roleBack_still _ r).posed
  rfl

theorem dropRole_posed (s : State) (k r cause : Nat) : Posed s (s.dropRole k r cause) := by
  unfold State.dropRole
  dsimp only
  refine Posed.trans ?_ (still_of_hide (reduce_hide rfl rfl ..)).posed
  refine Posed.trans ?_ (posed_of_st (tell_st ..))
  rfl

theorem retireCore_posed (s : State) (k cause : Nat) : Posed s (s.retireCore k cause) := by
  have hlogged : Posed s ((s.setCore k .retired).logRetired k) := rfl
  unfold State.retireCore
  dsimp only
  split
  · exact hlogged
  split
  · exact hlogged.trans (spareCore_posed ..)
  · exact hlogged.trans (dropRole_posed ..)

theorem cycleCore_posed (s : State) (k cause : Nat) (pc : Word64) : Posed s (s.cycleCore k cause pc) := by
  unfold State.cycleCore
  dsimp only
  split
  · exact (haltCore_posed ..).trans (retireCore_posed ..)
  · exact (haltCore_posed ..).trans ((setCore_posed ..).trans (resumeCore_still ..).posed)

theorem moveCore_posed (s : State) (k : Nat) : Posed s (s.moveCore k) := by
  unfold State.moveCore
  split
  · exact .trans (t := s.freePc.1) rfl (cycleCore_posed ..)
  · rfl

/-- However many cores are retired as they move, the images stay as they are. -/
theorem moveCores_posed (s : State) : Posed s s.moveCores :=
  forEach_keeps (P := Posed s) _ (fun u k _ hu => hu.trans (moveCore_posed u k)) s rfl

/-- A revert leaves the trial for the slot that was in use before. -/
theorem revert_leaves {s : State} {b : Bcr} (h : s.st.bcr = some b) (aseq : Option Nat) :
    (s.revert aseq).st.trial = false ∧ (s.revert aseq).st.watch = false ∧ (s.revert aseq).st.slotB = b.prev := by
  unfold State.revert
  dsimp only
  rw [h, tell_st]
  have hmoved := moveCores_posed (s.onSt fun t =>
    { t.writeBcr b.prev false b.prev with slotB := b.prev, trial := false, watch := false, deferred := none })
  exact ⟨hmoved.reads Steta.trial fun _ => rfl, hmoved.reads Steta.watch fun _ => rfl, hmoved.reads Steta.slotB fun _ => rfl⟩

/-- An activation of an image that is accepted starts its trial. -/
theorem activate_starts {s : State} (h : s.fuses.accepts (s.st.slot s.st.inactive) true = true) :
    ∃ x, s.activate true = (x, Mbx.done) ∧ x.st.slotB = s.st.inactive ∧ x.st.trial = true ∧ x.st.watch = true ∧
      ∃ b, x.st.bcr = some b ∧ b.active = s.st.inactive ∧ b.trial = true ∧ b.prev = !s.st.inactive := by
  have hmoved := moveCores_posed (s.onSt fun t =>
    { t.writeBcr s.st.inactive true (!s.st.inactive) with
      slotB := s.st.inactive, trial := true, recovery := false, watch := true, staged := false, deferred := none })
  refine ⟨s.runActivation, if_pos h, hmoved.reads Steta.slotB fun _ => rfl, hmoved.reads Steta.trial fun _ => rfl,
    hmoved.reads Steta.watch fun _ => rfl, _, hmoved.reads Steta.bcr fun _ => rfl, rfl, rfl, rfl⟩

/-! ## Drives -/

theorem drive_onDrive_self (s : State) (d : Nat) (f : Drive → Drive) : (s.onDrive d f).drive d = f (s.drive d) := mgetD_mset_self ..

theorem attachNs_ready {s : State} {d : Nat} (n : NsInfo) {q : Nat} (h : (s.drive d).state = .ready ∧ (s.drive d).queues = q) :
    ((s.attachNs d n).drive d).state = .ready ∧ ((s.attachNs d n).drive d).queues = q := by
  unfold State.attachNs
  split
  · exact h
  split
  · exact h
  · dsimp only
    rw [drive_onDrive_self]
    exact h

theorem identify_amid (s : State) (d : Nat) (i : DriveInfo) : Amid s (s.identify d i) := by
  unfold State.identify
  dsimp only
  split <;> rfl

/-- The drive that an attach makes of one that passes its checks, before its namespaces are attached. -/
def attachedDrive (s : State) (d : Nat) (i : DriveInfo) : Drive :=
  { state := .ready, port := i.port, queues := s.drvNq d, qsize := s.drvQsize d i.qMax, vwc := i.vwc, most := i.most }

theorem attach_eq {s : State} {d : Nat} {i : DriveInfo} (h : s.attachCheck d i = none) :
    ∃ ops, s.attach d i = (State.forEach (fun u n => u.attachNs d n) i.nss
      (((s.identify d i).createQueues d (s.drvNq d) (s.drvQsize d i.qMax)).onDrive d fun _ => attachedDrive s d i)).tell ops := by
  have hcheck : (s.identify d i).attachCheck d i = none := ((identify_amid s d i).reads (fun u => u.attachCheck d i) fun _ => rfl).trans h
  have hnq : (s.identify d i).drvNq d = s.drvNq d := (identify_amid s d i).reads (fun u => u.drvNq d) fun _ => rfl
  have hsize : (s.identify d i).drvQsize d i.qMax = s.drvQsize d i.qMax := (identify_amid s d i).reads (fun u => u.drvQsize d i.qMax) fun _ => rfl
  unfold State.attach
  dsimp only
  rw [hcheck, hnq, hsize]
  exact ⟨_, rfl⟩

/-- A drive that passes its checks is READY, with its queues. -/
theorem attach_ready {s : State} {d : Nat} {i : DriveInfo} (h : s.attachCheck d i = none) :
    ((s.attach d i).drive d).state = .ready ∧ ((s.attach d i).drive d).queues = s.drvNq d := by
  obtain ⟨ops, heq⟩ := attach_eq h
  rw [heq]
  refine forEach_keeps (P := fun u => (u.drive d).state = .ready ∧ (u.drive d).queues = s.drvNq d) i.nss
    (fun u n _ hu => attachNs_ready n hu) _ ?_
  rw [drive_onDrive_self]
  exact ⟨rfl, rfl⟩

/-- A drive that is attached, whose namespaces hold no version's backing, is detached. -/
theorem mbxDetach_detaches {s : State} {d : Nat} (hthere : Drive.attached (s.drive d) = true) (hnone : s.onDriveVersions d = []) :
    ∃ x, s.mbxDetach d [] = (x, Mbx.done, .nothing) ∧ x.drive d = {} := by
  unfold State.mbxDetach
  rw [hthere, Bool.not_true, if_neg Bool.false_ne_true, hnone]
  exact ⟨_, rfl, drive_onDrive_self ..⟩

/-! ## Images -/

theorem stage_takes {s : State} {off : Nat} {chunk : Bytes} (hwatch : s.st.watch = false) (hheld : s.st.deferred = none)
    (hlen : chunk.length ≤ 4032) (hend : off + chunk.length ≤ 0x1000000) (last : Bool) :
    s.stage off chunk last =
      let u := s.onSt fun t => { t with staging := mset t.staging off chunk }
      if last then (u.programSlot.1, u.programSlot.2, .nothing) else (u, Mbx.done, .nothing) := by
  unfold State.stage
  rw [hwatch, hheld, Option.isSome_none, Bool.or_self, if_neg Bool.false_ne_true]
  refine if_neg ?_
  rw [decide_eq_false (Nat.not_lt.mpr hlen), decide_eq_false (Nat.not_lt.mpr hend), Bool.or_self]
  exact Bool.false_ne_true

theorem slot_setSlot_self (t : Steta) (b : Bool) (i : Image) : (t.setSlot b i).slot b = i := by
  cases b <;> rfl

theorem slot_setSlot_not (t : Steta) (b : Bool) (i : Image) : (t.setSlot b i).slot (!b) = t.slot (!b) := by
  cases b <;> rfl

/-- A staged image whose SVN is neither above 64 nor below C goes into the slot that is not in use. -/
theorem programSlot_programs {s : State} (hmost : (imageOf s.fuses s.st.staging).svn ≤ 64)
    (hleast : s.fuses.svn ≤ (imageOf s.fuses s.st.staging).svn) :
    ∃ x, s.programSlot = (x, Mbx.done) ∧ x.st.slot s.st.inactive = imageOf s.fuses s.st.staging ∧ x.st.staged = true ∧
      x.st.slot (!s.st.inactive) = s.st.slot (!s.st.inactive) := by
  have hfits : ¬ (decide (64 < (imageOf s.fuses s.st.staging).svn) || decide ((imageOf s.fuses s.st.staging).svn < s.fuses.svn)) = true := by
    rw [decide_eq_false (Nat.not_lt.mpr hmost), decide_eq_false (Nat.not_lt.mpr hleast), Bool.or_self]
    exact Bool.false_ne_true
  refine ⟨_, if_neg hfits, ?_, rfl, ?_⟩
  · exact slot_setSlot_self _ s.st.inactive _
  · exact slot_setSlot_not _ s.st.inactive _

/-- One whose SVN is below C leaves both slots as they are. -/
theorem programSlot_rollback {s : State} (hbelow : (imageOf s.fuses s.st.staging).svn < s.fuses.svn) :
    s.programSlot = (s.onSt fun t => { t with staging := [] }, Mbx.rollback) := by
  refine if_pos ?_
  rw [decide_eq_true hbelow, Bool.or_true]

/-- A staged image, with no activation held or watched, is activated, or held in an emergency. -/
theorem mbxActivate_open {s : State} (hwatch : s.st.watch = false) (hheld : s.st.deferred = none) (hstaged : s.st.staged = true)
    (sigOk : Bool) : s.mbxActivate sigOk =
      if s.emergency then (s.defer 0, Mbx.deferred, .nothing) else ((s.activate sigOk).1, (s.activate sigOk).2, .nothing) := by
  unfold State.mbxActivate
  rw [hwatch, hheld, hstaged]
  rfl

/-- Settles O58: what a command's run does to images and drives outlives its audit record, its answer and the cores' restarts. -/
theorem mailboxMovesImagesAndDrives : Obligations.MailboxMovesImagesAndDrives := by
  unfold Obligations.MailboxMovesImagesAndDrives
  refine ⟨fun p req off chunk s h hwatch hheld hlen hend => ?_, fun p req off chunk i s h hwatch hheld hlen hend hi hmost hleast => ?_,
    fun p req off chunk s h hwatch hheld hlen hend hbelow => ?_, fun p req s h hwatch hheld hstaged hcalm haccepts => ?_,
    fun p req sigOk s h hwatch hheld hstaged hemergency => ?_, fun p req s h hwatch hheld htrial hcalm => ?_,
    fun p req b s h htrial hbcr => ?_, fun p req d i s h hmay hcheck => ?_, fun p req d s h hthere hnone => ?_⟩
  · obtain ⟨u, hu, hrun⟩ := mailbox_runs h
    obtain ⟨t, ht, hend, hreply⟩ := hrun (b2n s.st.inactive) (fun s => s.stage off chunk false)
      (stage_takes ((hu.amid.steta Steta.watch).trans hwatch) ((hu.amid.steta Steta.deferred).trans hheld) hlen hend false) (by decide)
    refine ⟨t, congrArg _ ht, hreply, ?_⟩
    rw [hend.reads (fun v => v.st.staging) fun _ => rfl]
    exact mget_mset_self ..
  · obtain ⟨u, hu, hrun⟩ := mailbox_runs h
    have hfuses : u.fuses = s.fuses := hu.amid.reads (fun v => v.fuses) fun _ => rfl
    have hchunks : u.st.staging = s.st.staging := hu.amid.steta Steta.staging
    have hslot : ∀ b, u.st.slot b = s.st.slot b := fun b => hu.amid.steta fun t => t.slot b
    have hinactive : u.st.inactive = s.st.inactive := hu.amid.steta Steta.inactive
    let v := u.onSt fun t => { t with staging := mset t.staging off chunk }
    have himage : imageOf v.fuses v.st.staging = i := by
      change imageOf u.fuses (mset u.st.staging off chunk) = i
      rw [hfuses, hchunks, hi]
    obtain ⟨x, hx, hnew, hstaged, hother⟩ := programSlot_programs (s := v) (himage ▸ hmost)
      (himage ▸ (show u.fuses.svn ≤ i.svn by rw [hfuses]; exact hleast))
    have hstage : u.stage off chunk true = (x, Mbx.done, .nothing) := by
      rw [stage_takes ((hu.amid.steta Steta.watch).trans hwatch) ((hu.amid.steta Steta.deferred).trans hheld) hlen hend true]
      dsimp only
      rw [if_pos rfl, hx]
    obtain ⟨t, ht, hend, hreply⟩ := hrun (b2n s.st.inactive) (fun s => s.stage off chunk true) hstage (by decide)
    have hxt : ∀ b, t.st.slot b = x.st.slot b := fun b => hend.reads (fun v => v.st.slot b) fun _ => rfl
    have hin : v.st.inactive = s.st.inactive := hinactive
    rw [hin] at hnew hother
    exact ⟨t, congrArg _ ht, hreply, (hxt _).trans (hnew.trans himage), (hend.reads (fun v => v.st.staged) fun _ => rfl).trans hstaged,
      (hxt _).trans (hother.trans (hslot _))⟩
  · obtain ⟨u, hu, hrun⟩ := mailbox_runs h
    have hfuses : u.fuses = s.fuses := hu.amid.reads (fun v => v.fuses) fun _ => rfl
    let v := u.onSt fun t => { t with staging := mset t.staging off chunk }
    have hbelow' : (imageOf v.fuses v.st.staging).svn < v.fuses.svn := by
      change (imageOf u.fuses (mset u.st.staging off chunk)).svn < u.fuses.svn
      rw [hfuses, hu.amid.steta Steta.staging]
      exact hbelow
    have hstage : u.stage off chunk true = (v.onSt fun t => { t with staging := [] }, Mbx.rollback, .nothing) := by
      rw [stage_takes ((hu.amid.steta Steta.watch).trans hwatch) ((hu.amid.steta Steta.deferred).trans hheld) hlen hend true]
      dsimp only
      rw [if_pos rfl, programSlot_rollback hbelow']
    obtain ⟨t, ht, hend, hreply⟩ := hrun (b2n s.st.inactive) (fun s => s.stage off chunk true) hstage (by decide)
    exact ⟨t, congrArg _ ht, hreply, (hend.reads (fun v => v.st.imgA) fun _ => rfl).trans (hu.amid.steta Steta.imgA),
      (hend.reads (fun v => v.st.imgB) fun _ => rfl).trans (hu.amid.steta Steta.imgB)⟩
  · obtain ⟨u, hu, hrun⟩ := mailbox_runs h
    have hcalm' : u.emergency = false := (hu.amid.reads (fun v => v.emergency) fun _ => rfl).trans hcalm
    have hinactive : u.st.inactive = s.st.inactive := hu.amid.steta Steta.inactive
    have haccepts' : u.fuses.accepts (u.st.slot u.st.inactive) true = true :=
      (hu.amid.reads (fun v => v.fuses.accepts (v.st.slot v.st.inactive) true) fun _ => rfl).trans haccepts
    obtain ⟨x, hx, hslot, htrial, hwatched, b, hbcr, hb⟩ := activate_starts haccepts'
    rw [hinactive] at hslot hb
    have hact : u.mbxActivate true = (x, Mbx.done, .nothing) := by
      rw [mbxActivate_open ((hu.amid.steta Steta.watch).trans hwatch) ((hu.amid.steta Steta.deferred).trans hheld)
        ((hu.amid.steta Steta.staged).trans hstaged), hcalm', if_neg Bool.false_ne_true, hx]
    obtain ⟨t, ht, hend, hreply⟩ := hrun (b2n s.st.inactive) (fun s => s.mbxActivate true) hact (by decide)
    exact ⟨t, congrArg _ ht, hreply, (hend.reads (fun v => v.st.slotB) fun _ => rfl).trans hslot,
      (hend.reads (fun v => v.st.trial) fun _ => rfl).trans htrial, (hend.reads (fun v => v.st.watch) fun _ => rfl).trans hwatched,
      b, (hend.reads (fun v => v.st.bcr) fun _ => rfl).trans hbcr, hb⟩
  · obtain ⟨u, hu, hrun⟩ := mailbox_runs h
    have hemergency' : u.emergency = true := (hu.amid.reads (fun v => v.emergency) fun _ => rfl).trans hemergency
    have hact : u.mbxActivate sigOk = (u.defer 0, Mbx.deferred, .nothing) := by
      rw [mbxActivate_open ((hu.amid.steta Steta.watch).trans hwatch) ((hu.amid.steta Steta.deferred).trans hheld)
        ((hu.amid.steta Steta.staged).trans hstaged), hemergency', if_pos rfl]
    obtain ⟨t, ht, hend, hreply⟩ := hrun (b2n s.st.inactive) (fun s => s.mbxActivate sigOk) hact (by decide)
    exact ⟨t, congrArg _ ht, hreply, ⟨{ kind := 0, since := u.tel.ts }, hend.reads (fun v => v.st.deferred) fun _ => rfl, rfl⟩,
      (hend.reads (fun v => v.st.slotB) fun _ => rfl).trans (hu.amid.steta Steta.slotB)⟩
  · obtain ⟨u, hu, hrun⟩ := mailbox_runs h
    have hcalm' : u.emergency = false := (hu.amid.reads (fun v => v.emergency) fun _ => rfl).trans hcalm
    have hcommit : u.mbxCommit = (u.commitTrial, Mbx.done, .nothing) := by
      unfold State.mbxCommit
      rw [(hu.amid.steta Steta.watch).trans hwatch, (hu.amid.steta Steta.deferred).trans hheld, (hu.amid.steta Steta.trial).trans htrial,
        hcalm']
      rfl
    obtain ⟨t, ht, hend, hreply⟩ := hrun (b2n s.st.slotB) (fun s => s.mbxCommit) hcommit (by decide)
    refine ⟨t, congrArg _ ht, hreply, hend.reads (fun v => v.st.trial) fun _ => rfl, ?_⟩
    refine (hend.reads (fun v => v.fuses.svn) fun _ => rfl).trans ?_
    exact hu.amid.reads (fun v => max v.fuses.svn (min (v.st.slot v.st.slotB).svn 64)) fun _ => rfl
  · obtain ⟨u, hu, hrun⟩ := mailbox_runs h
    have hrevert : u.mbxRevert = (u.revert (some u.st.aseq), Mbx.done, .nothing) := by
      unfold State.mbxRevert
      rw [(hu.amid.steta Steta.trial).trans htrial]
      rfl
    obtain ⟨hleft, -, hslot⟩ := revert_leaves (s := u) ((hu.amid.steta Steta.bcr).trans hbcr) (some u.st.aseq)
    obtain ⟨t, ht, hend, hreply⟩ := hrun (b2n s.st.slotB) (fun s => s.mbxRevert) hrevert (by decide)
    exact ⟨t, congrArg _ ht, hreply, (hend.reads (fun v => v.st.trial) fun _ => rfl).trans hleft,
      (hend.reads (fun v => v.st.slotB) fun _ => rfl).trans hslot⟩
  · obtain ⟨u, hu, hrun⟩ := mailbox_runs h
    have hmay' : u.mayAttach d i = true := (hu.amid.reads (fun v => v.mayAttach d i) fun _ => rfl).trans hmay
    have hcheck' : u.attachCheck d i = none := (hu.amid.reads (fun v => v.attachCheck d i) fun _ => rfl).trans hcheck
    obtain ⟨hready, -⟩ := attach_ready hcheck'
    have hattach : u.mbxAttach d i = (u.attach d i, Mbx.done, .nothing) := by
      unfold State.mbxAttach
      rw [hmay', Bool.not_true, if_neg Bool.false_ne_true]
      dsimp only
      rw [if_pos hready]
    obtain ⟨t, ht, hend, hreply⟩ := hrun d (fun s => s.mbxAttach d i) hattach (by decide)
    exact ⟨t, congrArg _ ht, hreply, (hend.reads (fun v => (v.drive d).state) fun _ => rfl).trans hready⟩
  · obtain ⟨u, hu, hrun⟩ := mailbox_runs h
    obtain ⟨x, hx, hgone⟩ := mbxDetach_detaches (s := u) ((hu.amid.reads (fun v => Drive.attached (v.drive d)) fun _ => rfl).trans hthere)
      ((hu.amid.reads (fun v => v.onDriveVersions d) fun _ => rfl).trans hnone)
    obtain ⟨t, ht, hend, hreply⟩ := hrun d (fun s => s.mbxDetach d []) hx (by decide)
    exact ⟨t, congrArg _ ht, hreply, (hend.reads (fun v => v.drive d) fun _ => rfl).trans hgone⟩

end Sys2Proof.Proofs
end

section
/-!
PROOFS. O51: registers take writes (R52, R428, R438, R446).
-/

namespace Sys2Proof.Proofs

open Sys2Proof Sys2Proof.Machine Sys2Proof.Laws

/-! ## A register's value -/

/-- A register holds what is put into it; of CRH_LOG_IDX one half is the block's own. -/
theorem regGet_regPut_self (s : State) (p : Path) {off : Nat} {r : RegRow} (hrow : regAt off = some r) (hidx : off ≠ Reg.logIdx)
    (v : Word64) : regGet (regPut s p off v) p off = v := by
  unfold regGet regPut
  dsimp only
  by_cases h : off = Reg.ctxCfg
  · rw [if_pos h, if_pos h]
    exact mgetD_mset_self ..
  rw [if_neg h, if_neg h]
  by_cases h : off = Reg.updCfg
  · rw [if_pos h, if_pos h]
    exact mgetD_mset_self ..
  rw [if_neg h, if_neg h]
  by_cases h : off = Reg.fwdCfg
  · rw [if_pos h, if_pos h]
    exact mgetD_mset_self ..
  rw [if_neg h, if_neg h]
  by_cases h : off = Reg.flDrvCfg
  · rw [if_pos h, if_pos h]
    exact mgetD_mset_self ..
  rw [if_neg h, if_neg h]
  by_cases h : off = Reg.evtRing
  · rw [if_pos h, if_pos h]
  rw [if_neg h, if_neg h]
  by_cases h : off = Reg.logBase
  · rw [if_pos h, if_pos h]
  rw [if_neg h, if_neg h, if_neg hidx, if_neg hidx]
  by_cases h : off = Reg.logCtl
  · rw [if_pos h, if_pos h]
  rw [if_neg h, if_neg h]
  by_cases h : off = Reg.authPolicy
  · rw [if_pos h, if_pos h]
  rw [if_neg h, if_neg h]
  by_cases h : off = Reg.makerCtl
  · rw [if_pos h, if_pos h]
  rw [if_neg h, if_neg h, hrow]
  dsimp only
  cases r.kind <;> exact mgetD_mset_self ..

/-! ## What telemetry leaves of the log's registers -/

/-- CRH_LOG_BASE and the consumer's half of CRH_LOG_IDX, which software alone sets. -/
def logSet (t : Telem) : Word64 × BitVec 32 := (t.logBase, t.logCons)

theorem take_logSet (t : Telem) (r : LogRec) : logSet (t.take r).1 = logSet t := by
  unfold Telem.take
  dsimp only
  split
  · rfl
  split
  · rfl
  split
  · rfl
  · split <;> rfl

theorem op_logSet (t : Telem) (o : TelOp) : logSet (t.op o).1 = logSet t := by
  cases o with
  | count j n =>
    unfold Telem.op
    dsimp only
    split <;> rfl
  | event e =>
    unfold Telem.op
    dsimp only
    split
    · split <;> rfl
    · rfl
  | log core kind sev code args =>
    unfold Telem.op
    dsimp only
    split
    · exact take_logSet ..
    · split <;> rfl
  | put r => exact take_logSet t r
  | drain => rfl

theorem run_logSet (f : Nat) (ops : List TelOp) (t : Telem) : logSet (Telem.run f ops t) = logSet t := by
  induction f generalizing ops t with
  | zero => rfl
  | succ f ih =>
    cases ops with
    | nil => rfl
    | cons o ops => exact (ih _ _).trans (op_logSet t o)

theorem shipAudits_logSet (s : State) : logSet s.shipAudits.tel = logSet s.tel := by
  unfold State.shipAudits
  refine forEach_keeps (P := fun u => logSet u.tel = logSet s.tel) _ (fun u a _ hu => ?_) s rfl
  split
  · exact (run_logSet ..).trans hu
  · exact hu

/-! ## The writes -/

theorem rights_reach {a b : Bool} {n least least' : Nat} (hle : least' ≤ least)
    (h : (if a then Gate.absent else if b then .ignored else if n < least then .denied else .open') = .open') :
    (if a then Gate.absent else if b then .ignored else if n < least' then .denied else .open') = .open' := by
  split at h
  · cases h
  split at h
  · cases h
  split at h
  · cases h
  · next ha hb hn => rw [if_neg ha, if_neg hb, if_neg (Nat.not_lt.mpr (hle.trans (Nat.not_lt.mp hn)))]

/-- A path that reaches a register with one role reaches it with a lesser. -/
theorem gate_open_of_le {s : State} {p : Path} {off least least' : Nat} (hle : least' ≤ least) (h : s.gate p off least = .open') :
    s.gate p off least' = .open' := by
  cases p with
  | fn0 => exact rights_reach hle h
  | fn1 => exact rights_reach hle h
  | i3c => cases h
  | dbg => exact h

theorem hits_gate {s : State} {p : Path} {reg least off size : Nat} (h : s.hits p reg least off size) : s.gate p reg least = .open' := by
  obtain ⟨-, -, hwritable⟩ := h
  exact beq_iff_eq.mp (Bool.and_eq_true_iff.mp hwritable).1

/-- What a write that is made does where it only puts the value in. -/
theorem regWrite_puts {s : State} {p : Path} {off size reg least : Nat} (h : s.hits p reg least off size) {r : RegRow}
    (hrow : regAt reg = some r) (hidx : reg ≠ Reg.logIdx) (val : Word64) {apply : State → Word64 → Word64 → State}
    (happly : ∀ u, apply u (regGet s p reg) (s.taken p reg off size val) = regPut u p reg (s.taken p reg off size val)) :
    regGet (s.regWrite p off size val reg least apply) p reg = s.taken p reg off size val := by
  obtain ⟨u, heq, -⟩ := regWrite_applies h hrow val apply
  rw [heq, happly]
  exact regGet_regPut_self u p hrow hidx _

/-- A plain register, CRH_LOG_BASE among them, takes the value. -/
theorem regTake_puts (s : State) (p : Path) {reg : Nat} {r : RegRow} (hrow : regAt reg = some r) (hstat : r.kind ≠ .stat)
    (hplain : reg ≠ Reg.sortArea ∧ reg ≠ Reg.poolCtl ∧ reg ≠ Reg.logIdx) (old new : Word64) :
    regGet (s.regTake p reg old new) p reg = new := by
  obtain ⟨hsort, hpool, hidx⟩ := hplain
  have hput : regGet (regPut s p reg new) p reg = new := regGet_regPut_self s p hrow hidx new
  unfold State.regTake
  rw [if_neg hsort, if_neg hpool, hrow]
  split
  · next h =>
    obtain rfl : reg = Reg.logBase := by
      simp only [Bool.or_eq_true, decide_eq_true_eq] at h
      exact h.resolve_left hidx
    exact (congrArg Prod.fst (shipAudits_logSet (regPut s p Reg.logBase new)) :)
  · rw [if_neg]
    · exact hput
    · rw [Option.any_some, beq_iff_eq]
      exact hstat

/-- The register of a command form is one of Table 125, and its own. -/
theorem cmdFormAt_spec {reg : Nat} {f : CmdForm} (h : cmdFormAt reg = some f) :
    f.off = reg ∧ (∃ r, regAt reg = some r) ∧ reg ∉ [Reg.ctxCfg, Reg.partCfg, Reg.optSel, Reg.eyeletBase, Reg.authPolicy, Reg.makerCtl,
      Reg.resetCmd, Reg.logIdx] := by
  have hmem := List.mem_of_find?_eq_some h
  have hfound : (f.off == reg) = true := by
    unfold cmdFormAt at h
    have := List.find?_some h
    exact this
  obtain rfl := beq_iff_eq.mp hfound
  have hall : ∀ f ∈ cmdForms, (regAt f.off).isSome = true ∧ f.off ∉ [Reg.ctxCfg, Reg.partCfg, Reg.optSel, Reg.eyeletBase, Reg.authPolicy,
      Reg.makerCtl, Reg.resetCmd, Reg.logIdx] := by decide
  obtain ⟨hrow, hother⟩ := hall f hmem
  exact ⟨rfl, Option.isSome_iff_exists.mp hrow, hother⟩

/-- The registers whose writes have a row of their own, or that a selector places. -/
def apartRegs : List Nat := [Reg.ctxCfg, Reg.partCfg, Reg.optSel, Reg.eyeletBase, Reg.authPolicy, Reg.makerCtl, Reg.resetCmd]

theorem registerWrite_cmd (s : State) (p : Path) {off : Nat} (size : Nat) (val : Word64) (h : off / 8 * 8 ∉ apartRegs) {f : CmdForm}
    (hform : cmdFormAt (off / 8 * 8) = some f) : s.registerWrite p off size val = s.cmdWrite p off size val f := by
  simp only [apartRegs, List.mem_cons, List.not_mem_nil, or_false, not_or] at h
  obtain ⟨h1, h2, h3, h4, h5, h6, h7⟩ := h
  unfold State.registerWrite
  simp only [if_neg h1, if_neg h2, if_neg h3, if_neg h4, h5, h6, if_neg h7, decide_false, Bool.or_self, Bool.false_eq_true, if_false, hform]

theorem registerWrite_plain (s : State) (p : Path) {off : Nat} (size : Nat) (val : Word64) (h : off / 8 * 8 ∉ apartRegs) {r : RegRow}
    (hrow : regAt (off / 8 * 8) = some r) (hform : cmdFormAt (off / 8 * 8) = none) : s.registerWrite p off size val =
      s.regWrite p off size val (off / 8 * 8) 1 fun s old new => s.regTake p (off / 8 * 8) old new := by
  simp only [apartRegs, List.mem_cons, List.not_mem_nil, or_false, not_or] at h
  obtain ⟨h1, h2, h3, h4, h5, h6, h7⟩ := h
  unfold State.registerWrite
  simp only [if_neg h1, if_neg h2, if_neg h3, if_neg h4, h5, h6, if_neg h7, decide_false, Bool.or_self, Bool.false_eq_true, if_false, hform,
    hrow, Option.isSome_some, if_true]

/-- A write of a plain register puts the value in. -/
theorem plain_takes {s : State} {p : Path} {off size : Nat} {r : RegRow} (hrow : regAt (off / 8 * 8) = some r) (hstat : r.kind ≠ .stat)
    (hform : cmdFormAt (off / 8 * 8) = none) (hapart : off / 8 * 8 ∉ apartRegs)
    (hplain : off / 8 * 8 ≠ Reg.sortArea ∧ off / 8 * 8 ≠ Reg.poolCtl ∧ off / 8 * 8 ≠ Reg.logIdx)
    (h : s.hits p (off / 8 * 8) 1 off size) (val : Word64) :
    regGet (s.registerWrite p off size val) p (off / 8 * 8) = s.taken p (off / 8 * 8) off size val := by
  rw [registerWrite_plain s p size val hapart hrow hform]
  obtain ⟨u, heq, -⟩ := regWrite_applies h hrow val fun s old new => s.regTake p (off / 8 * 8) old new
  rw [heq]
  exact regTake_puts u p hrow hstat hplain ..

/-- A write of a command register that does not set GO, and meets it at 0, puts the value in. -/
theorem cmd_takes {s : State} {p : Path} {off size : Nat} {val : Word64} {f : CmdForm} (hform : cmdFormAt (off / 8 * 8) = some f)
    (hidle : bitb (regGet s p f.off) f.go = false) (hsets : (covers off size f.go && carried off size val f.go) = false)
    (h : s.hits p (off / 8 * 8) 1 off size) :
    regGet (s.registerWrite p off size val) p (off / 8 * 8) = s.taken p (off / 8 * 8) off size val := by
  obtain ⟨hoff, ⟨r, hrow⟩, hother⟩ := cmdFormAt_spec hform
  have hapart : off / 8 * 8 ∉ apartRegs := fun hin => hother (List.mem_append_left [Reg.logIdx] hin)
  have hidx : off / 8 * 8 ≠ Reg.logIdx := fun heq => hother (heq ▸ List.mem_append_right apartRegs List.mem_cons_self)
  rw [registerWrite_cmd s p size val hapart hform]
  unfold State.cmdWrite
  dsimp only
  rw [hoff] at hidle ⊢
  refine regWrite_puts h hrow hidx val fun u => ?_
  rw [hidle, if_neg Bool.false_ne_true, Bool.and_assoc, hsets, Bool.and_false, Bool.not_false, if_pos rfl]

theorem logIdx_takes {s : State} {p : Path} {off size : Nat} (h : s.hits p Reg.logIdx 1 off size) (val : Word64) :
    (s.registerWrite p off size val).tel.logCons = BitVec.ofNat 32 ((s.taken p Reg.logIdx off size val).toNat / 2 ^ 32) := by
  have hoff : off / 8 * 8 = Reg.logIdx := h.1
  rw [registerWrite_plain s p size val (by rw [hoff]; decide) (r := ⟨0xE0018, .cfg, 0xFFFFFFFF00000000, 0x0, 0x0⟩) (by rw [hoff]; rfl)
    (by rw [hoff]; rfl), hoff]
  obtain ⟨u, heq, -⟩ := regWrite_applies h (row := ⟨0xE0018, .cfg, 0xFFFFFFFF00000000, 0x0, 0x0⟩) rfl val
    fun s old new => s.regTake p Reg.logIdx old new
  rw [heq]
  exact (congrArg Prod.snd (shipAudits_logSet (regPut u p Reg.logIdx (s.taken p Reg.logIdx off size val))) :)

theorem sortArea_takes {s : State} {p : Path} {off size : Nat} (h : s.hits p Reg.sortArea 1 off size) (val : Word64) :
    regGet (s.registerWrite p off size val) p Reg.sortArea =
      if s.anyTable || bitf (s.taken p Reg.sortArea off size val) 0 12 < 2 ||
          bitf (s.cfg Reg.partCfg) 16 12 < 2 * bitf (s.taken p Reg.sortArea off size val) 0 12
        then s.cfg Reg.sortArea else s.taken p Reg.sortArea off size val := by
  have hoff : off / 8 * 8 = Reg.sortArea := h.1
  rw [registerWrite_plain s p size val (by rw [hoff]; decide) (r := ⟨0x80008, .cfg, 0xFFF, 0x0, 0x0⟩) (by rw [hoff]; rfl)
    (by rw [hoff]; rfl), hoff]
  obtain ⟨u, heq, hu⟩ := regWrite_applies h (row := ⟨0x80008, .cfg, 0xFFF, 0x0, 0x0⟩) rfl val
    fun s old new => s.regTake p Reg.sortArea old new
  have hregs : u.regs = s.regs := same_of_hide hu .regs rfl
  have hfuses : u.fuses = s.fuses := same_of_hide hu .fuses rfl
  have htb : u.tb = s.tb := same_of_hide hu .tb rfl
  have hcfg : ∀ x, u.cfg x = s.cfg x := fun x => by
    unfold State.cfg
    rw [hregs, hfuses]
  have hany : u.anyTable = s.anyTable := by
    unfold State.anyTable
    rw [htb]
  rw [heq]
  unfold State.regTake
  rw [if_pos rfl]
  unfold State.sortArea
  dsimp only
  rw [hany, hcfg]
  split
  · exact hcfg Reg.sortArea
  · exact regGet_regPut_self u p (r := ⟨0x80008, .cfg, 0xFFF, 0x0, 0x0⟩) rfl (by decide) _

theorem regGet_eyeletBase_of_regs {s t : State} (hregs : t.regs = s.regs) (hfuses : t.fuses = s.fuses) (p : Path) :
    regGet t p Reg.eyeletBase = regGet s p Reg.eyeletBase := by
  change mgetD t.regs _ (regReset t.fuses.member _) = mgetD s.regs _ (regReset s.fuses.member _)
  rw [hregs, hfuses]

/-- Whatever becomes of the lines, CRH_EYELET_BASE holds what is written. -/
theorem eyeletBase_takes {s : State} {p : Path} {off size : Nat} (h : s.hits p Reg.eyeletBase 1 off size) (val : Word64) :
    regGet (s.eyeletWrite p off size val) p Reg.eyeletBase = s.taken p Reg.eyeletBase off size val := by
  unfold State.eyeletWrite
  obtain ⟨u, heq, -⟩ := regWrite_applies h (row := ⟨0x30008, .cfg, 0x1FFFFFFFFFFF001, 0x1FFFFFFFFFFF000, 0x0⟩) rfl val fun s old new =>
    let s1 := regPut s p Reg.eyeletBase new
    if bitb old 0 && bitb new 0 then (if old = new then s1 else s1.moveLines) else State.forEach State.fitLine s1.linesNamed s1
  rw [heq]
  dsimp only
  generalize hv : regPut u p Reg.eyeletBase (s.taken p Reg.eyeletBase off size val) = v
  have hput : regGet v p Reg.eyeletBase = s.taken p Reg.eyeletBase off size val := by
    rw [← hv]
    exact mgetD_mset_self ..
  split
  · split
    · exact hput
    · have hmoved := moveLines_hide (M := maskOfZones [.fe, .out]) rfl rfl v
      exact (regGet_eyeletBase_of_regs (same_of_hide hmoved .regs rfl) (same_of_hide hmoved .fuses rfl) p).trans hput
  · refine forEach_keeps (P := fun w => regGet w p Reg.eyeletBase = s.taken p Reg.eyeletBase off size val) _ (fun w l _ hw => ?_) v hput
    have hfit := fitLine_hide (M := maskOfZones [.fe, .out]) rfl rfl w l
    exact (regGet_eyeletBase_of_regs (same_of_hide hfit .regs rfl) (same_of_hide hfit .fuses rfl) p).trans hw

/-! ## The authority block -/

/-- A write of the authority block that is made, while core 0 runs and audit records can be made, is applied. -/
theorem authWrite_runs {s : State} {p : Path} {off size reg least : Nat} (hreg : reg = Reg.authPolicy ∨ reg = Reg.makerCtl)
    (hleast : 1 ≤ least) (hup : s.roleUp 0 = true) (h : s.hits p reg least off size) (val : Word64) :
    s.authWrite p off size val = s.authRun p off size val := by
  have hoff : off / 8 * 8 = reg := h.1
  have hgate : s.gate p reg 1 = .open' := gate_open_of_le hleast (hits_gate h)
  unfold State.authWrite
  dsimp only
  rw [hoff, hgate, hup]
  refine if_neg ?_
  rw [Bool.and_eq_true, decide_eq_true_eq, decide_eq_true_eq]
  rintro ⟨hpolicy, hmaker⟩
  exact hreg.elim hpolicy hmaker

/-- A register write on another path than the debug bus makes no record of its own. -/
theorem regWrite_applies_still {s : State} {p : Path} {off size reg least : Nat} (hp : p ≠ .dbg) (h : s.hits p reg least off size)
    {row : RegRow} (hrow : regAt reg = some row) (val : Word64) (apply : State → Word64 → Word64 → State) :
    ∃ u, s.regWrite p off size val reg least apply = apply u (regGet s p reg) (s.taken p reg off size val) ∧ u.st = s.st := by
  have hgate := hits_gate h
  obtain ⟨hoff, hfits, -⟩ := h
  unfold State.regWrite State.taken
  rw [if_neg (not_not_intro hoff), hgate, hrow]
  dsimp only
  rw [hfits, Bool.not_true, if_neg Bool.false_ne_true, decide_eq_false hp, Bool.false_and, if_neg Bool.false_ne_true, if_neg hp]
  refine ⟨_, rfl, ?_⟩
  split <;> rfl

/-- A write of the authority block is applied after its record, where one can be made. -/
theorem authApply_runs {s : State} {p : Path} {off size reg least : Nat} (h : s.hits p reg least off size) (hroom : s.auditFull = false)
    {row : RegRow} (hrow : regAt reg = some row) (val : Word64) (run : Word64 → State → State) :
    ∃ v, (s.regWrite p off size val reg least fun u _ new => u.authApply p reg new (run new)) = run (s.taken p reg off size val) v := by
  by_cases hp : p = .dbg
  · obtain ⟨u, heq, -⟩ := regWrite_applies h hrow val fun u _ new => u.authApply p reg new (run new)
    exact ⟨u, heq.trans (if_pos hp)⟩
  · obtain ⟨u, heq, hu⟩ := regWrite_applies_still hp h hrow val fun u _ new => u.authApply p reg new (run new)
    have hfull : u.auditFull = false := by
      unfold State.auditFull at hroom ⊢
      rw [hu]
      exact hroom
    refine ⟨u.auditReg p reg 0 (s.taken p reg off size val), heq.trans ((if_neg hp).trans ?_)⟩
    rw [hfull, if_neg Bool.false_ne_true]

theorem policy_takes {s : State} {p : Path} {off size : Nat} (h : s.hits p Reg.authPolicy 2 off size) (hroom : s.auditFull = false)
    (val : Word64) : (s.authRun p off size val).st.policy = s.taken p Reg.authPolicy off size val ∧
      (s.authRun p off size val).st.flashPol = s.taken p Reg.authPolicy off size val := by
  have hoff : off / 8 * 8 = Reg.authPolicy := h.1
  obtain ⟨v, heq⟩ := authApply_runs h hroom (row := ⟨0xF0008, .cfg, 0xFF, 0x0, 0x0⟩) rfl val fun new s => s.setPolicy new
  unfold State.authRun
  rw [if_pos hoff, heq]
  exact setPolicy_sets ..

theorem makerCtl_takes {s : State} {p : Path} {off size : Nat} (h : s.hits p Reg.makerCtl 3 off size) (hroom : s.auditFull = false)
    (val : Word64) : (s.authRun p off size val).st.makerCtl = s.taken p Reg.makerCtl off size val := by
  have hoff : off / 8 * 8 = Reg.makerCtl := h.1
  obtain ⟨v, heq⟩ := authApply_runs h hroom (row := ⟨0xF0010, .cfg, 0x3, 0x0, 0x0⟩) rfl val
    fun new s => (regPut s p Reg.makerCtl new).tapFit
  unfold State.authRun
  rw [if_neg (by rw [hoff]; decide), if_pos hoff, heq]
  rfl

/-! ## Reads of a counter -/

theorem latched_cons (t : Telem) (p : Path) (off : Nat) (v : BitVec 32) :
    ({ t with latch := (p, off, v) :: t.unlatch p off } : Telem).latched p off = some v := by
  unfold Telem.latched
  rw [List.find?_cons_of_pos (by simp)]
  rfl

theorem latched_unlatch (t : Telem) (p : Path) (off : Nat) : ({ t with latch := t.unlatch p off } : Telem).latched p off = none := by
  unfold Telem.latched Telem.unlatch
  rw [List.find?_eq_none.mpr, Option.map_none]
  intro e he hmatch
  have hkept := (List.mem_filter.mp he).2
  rw [hmatch] at hkept
  cases hkept

/-- A read of a counter's lower half answers it, and latches the upper half. -/
theorem readHalf_latches {s : State} {p : Path} {off : Nat} (hmay : s.mayRead p = true) (hctr : Ctr.isCounter off = true)
    (hoff : off % 8 = 0) : s.readHalf p off = (s.onTel fun t =>
      { t with latch := (p, off, BitVec.ofNat 32 ((s.readReg p off).toNat / 2 ^ 32)) :: t.unlatch p off }).answer off
        ((s.readReg p off).setWidth 32) := by
  have hreg : off / 8 * 8 = off := by omega
  unfold State.readHalf
  dsimp only
  rw [hmay, Bool.not_true, if_neg Bool.false_ne_true, if_neg (by omega), if_pos hoff, hreg, if_pos hctr]

/-- A read of an upper half that is latched answers the latch, and takes it. -/
theorem readHalf_takes {s : State} {p : Path} {off : Nat} {v : BitVec 32} (hmay : s.mayRead p = true) (hoff : off % 8 = 0)
    (hlatch : s.tel.latched p off = some v) :
    s.readHalf p (off + 4) = (s.onTel fun t => { t with latch := t.unlatch p off }).answer (off + 4) v := by
  have hreg : (off + 4) / 8 * 8 = off := by omega
  unfold State.readHalf
  dsimp only
  rw [hmay, Bool.not_true, if_neg Bool.false_ne_true, if_neg (by omega), if_neg (by omega), hreg, hlatch]

/-- Settles O51: a write that is made applies the value that its fields take, and each register's own rule says what is done with it. -/
theorem registersTakeWrites : Obligations.RegistersTakeWrites := by
  unfold Obligations.RegistersTakeWrites
  refine ⟨fun p off size val r s hrow hstat hform hother h => ?_, fun p off size val f s hform hidle hsets h => ?_,
    fun p off size val s h => ?_, fun p off size val s h => ?_, fun p off size val s h => ?_, fun p off size val s hup h hroom => ?_,
    fun p off size val s hup h hroom => ?_, fun p off s hmay hctr hoff => ?_, fun p off v s hmay hoff hlatch => ?_⟩
  · have hapart : off / 8 * 8 ∉ apartRegs := fun hin => hother (List.mem_append_left [Reg.sortArea, Reg.poolCtl, Reg.logIdx] hin)
    have hplain : ∀ x ∈ [Reg.sortArea, Reg.poolCtl, Reg.logIdx], off / 8 * 8 ≠ x := fun x hx heq =>
      hother (heq ▸ List.mem_append_right apartRegs hx)
    exact ⟨_, rfl, plain_takes hrow hstat hform hapart ⟨hplain _ (by simp), hplain _ (by simp), hplain _ (by simp)⟩ h val⟩
  · exact ⟨_, rfl, cmd_takes hform hidle hsets h⟩
  · exact ⟨_, rfl, logIdx_takes h val⟩
  · exact ⟨_, rfl, sortArea_takes h val⟩
  · exact ⟨_, rfl, eyeletBase_takes h val⟩
  · refine ⟨_, rfl, ?_⟩
    rw [authWrite_runs (.inl rfl) (by decide) hup h val]
    exact policy_takes h hroom val
  · refine ⟨_, rfl, ?_⟩
    rw [authWrite_runs (.inr rfl) (by decide) hup h val]
    exact makerCtl_takes h hroom val
  · refine ⟨_, rfl, ?_⟩
    rw [readHalf_latches hmay hctr hoff]
    exact ⟨rfl, latched_cons ..⟩
  · refine ⟨_, rfl, ?_⟩
    rw [readHalf_takes hmay hoff hlatch]
    exact ⟨rfl, latched_unlatch ..⟩

end Sys2Proof.Proofs
end

section
/-!
PROOFS. O56: the watch over Steta's cores (R380 to R384, R390 to R395). Between the event of a restart and the end of the command the role's
return only adds to the event queue, so the event stays in it.
-/

namespace Sys2Proof.Proofs

open Sys2Proof Sys2Proof.Machine Sys2Proof.Laws

/-! ## What only adds to the event queue -/

/-- From s to t the event queue has only grown. -/
def Grows (s t : State) : Prop := s.tel.evq <+: t.tel.evq

theorem Grows.refl (s : State) : Grows s s := List.prefix_rfl

theorem Grows.trans {s t u : State} (h : Grows s t) (h' : Grows t u) : Grows s u := List.IsPrefix.trans h h'

theorem grows_of_tel {s t : State} (h : t.tel = s.tel) : Grows s t := by
  unfold Grows
  rw [h]

theorem grows_of_hide {s t : State} (h : hide (butZone .tel) t = hide (butZone .tel) s) : Grows s t := grows_of_tel (same_of_hide h .tel rfl)

theorem Grows.forEach {α : Type} {f : State → α → State} (h : ∀ s a, Grows s (f s a)) (l : List α) (s : State) :
    Grows s (State.forEach f l s) :=
  forEach_keeps (P := Grows s) l (fun u a _ hu => hu.trans (h u a)) s (.refl s)

/-! ### The audit log and the writes that wait -/

theorem auditAdd_grows (s : State) (role path key result action target : Nat) (data : Bytes) :
    Grows s (s.auditAdd role path key result action target data) := by
  unfold State.auditAdd
  split
  · split
    · exact .refl s
    · exact tell_grows { s with st := { s.st with auditTold := true } } _
  · exact tell_grows { s with st := { s.st with audit := _, aseq := _, auditTold := false } } _

theorem auditReg_grows (s : State) (p : Path) (off result : Nat) (val : Word64) : Grows s (s.auditReg p off result val) :=
  auditAdd_grows ..

theorem setPolicy_grows (s : State) (v : Word64) : Grows s (s.setPolicy v) := by
  unfold State.setPolicy
  dsimp only
  split
  · exact .trans (t := s.onSt fun t => { t with policy := v, flashPol := v, debug := 0 }) (.refl s) (auditAdd_grows ..)
  · exact .refl s

theorem makerPut_grows (s : State) (p : Path) (v : Word64) : Grows s (regPut s p Reg.makerCtl v).tapFit := .refl s

theorem authApply_grows {run : State → State} (h : ∀ u, Grows u (run u)) (s : State) (p : Path) (reg : Nat) (val : Word64) :
    Grows s (s.authApply p reg val run) := by
  unfold State.authApply
  split
  · exact h s
  split
  · exact auditReg_grows ..
  · exact (auditReg_grows ..).trans (h _)

theorem regWrite_grows {apply : State → Word64 → Word64 → State} (h : ∀ u old new, Grows u (apply u old new)) (s : State) (p : Path)
    (off size : Nat) (val : Word64) (reg least : Nat) : Grows s (s.regWrite p off size val reg least apply) := by
  unfold State.regWrite
  split
  · exact .refl s
  split
  · exact .refl s
  · exact grows_of_hide (shutOut_hide rfl s)
  · exact tell_grows ..
  · exact (auditReg_grows ..).trans (tell_grows ..)
  split
  · exact tell_grows ..
  split
  · exact tell_grows ..
  split
  · exact auditReg_grows ..
  · refine .trans (t := if p = .dbg then _ else _) ?_ (h _ _ _)
    split
    · split
      · exact auditReg_grows ..
      · exact .trans (t := { s with lows := mset s.lows (pkey p reg) (BitVec.ofNat 32 val.toNat) }) (.refl s) (auditReg_grows ..)
    · split <;> exact .refl s

theorem authRun_grows (s : State) (p : Path) (off size : Nat) (val : Word64) : Grows s (s.authRun p off size val) := by
  unfold State.authRun
  split
  · refine regWrite_grows (fun u old new => ?_) ..
    exact authApply_grows (fun v => setPolicy_grows v new) u p Reg.authPolicy new
  split
  · refine regWrite_grows (fun u old new => ?_) ..
    exact authApply_grows (fun v => makerPut_grows v p new) u p Reg.makerCtl new
  · exact .refl s

theorem authDrain_grows (s : State) : Grows s s.authDrain := .forEach (fun _ _ => authRun_grows ..) _ (s.onSt fun t => { t with authWait := [] })

theorem handAudits_grows (s : State) : Grows s s.handAudits := by
  unfold State.handAudits
  refine .forEach (fun u a => ?_) _ s
  exact tell_grows (u.onSt fun t => { t with audit := _ }) _

/-! ### Channel actions -/

theorem copyRest_grows (s : State) (c : ChCopy) : Grows s (s.copyRest c).1 := by
  unfold State.copyRest
  dsimp only
  split
  · exact .refl s
  · exact .trans (copyLoad_works s c).stays.grows (tell_grows (s.copyLoad c) _)

theorem refreshDue_grows (s : State) (p : Nat) : Grows s (s.refreshDue p) := by
  have hrefresh : ∀ (u : State) (k : Nat), Grows u (u.refresh k p) := fun u k => tell_grows ..
  unfold State.refreshDue
  dsimp only
  split
  · exact .refl s
  · exact .refl s
  · exact .refl s
  · split
    · exact hrefresh ..
    · exact .refl s
  · exact hrefresh (s.setSched (s.schedOf p) _) (s.schedOf p)

theorem switchReplace_grows (s : State) (c : ChCopy) (old : Nat) (pass : Option (Option TgRes)) (waits : List WcEntry) :
    Grows s ((s.switchReplace c old pass).replay c waits) :=
  .trans (t := replaceLeft s c old pass) (enterService_stays (replaceMap s c old pass) c.lch c.pch 2 true).grows
    (switchReplace_stays s c old pass waits).grows

theorem switchFold_grows (s : State) (c : ChCopy) (old : Nat) (waits : List WcEntry) : Grows s (s.switchFold c old waits) := by
  unfold State.switchFold
  dsimp only
  generalize hu : State.replay _ c waits = u
  have hus : Grows s u := by
    rw [← hu]
    exact .trans (t := foldMap s c old) (.refl s) (replay_works ..).stays.grows
  refine hus.trans (.trans (rehouseAll_stays u false).grows ?_)
  exact ((tell_stays ..).trans ((foldReduces_stays _).trans (gsDone_stays ..))).grows

theorem switchUnfold_grows (s : State) (c : ChCopy) (old : Nat) (waits : List WcEntry) : Grows s (s.switchUnfold c old waits) :=
  .trans (t := unfoldMap s c waits) (unfoldMap_tel s c waits).grows
    ((enterService_stays (unfoldMap s c waits) c.lch c.pch 4 (c.pch != old)).grows.trans (switchUnfold_stays s c old waits).grows)

theorem switchCh_grows (s : State) (c0 : ChCopy) (pass : Option (Option TgRes)) : Grows s (s.switchCh c0 pass) := by
  unfold State.switchCh
  dsimp only
  generalize hc : (s.copyRest c0).2 = c
  generalize hu : State.hold (s.copyRest c0).1 c = u
  have hus : Grows s u := by
    rw [← hu]
    exact (copyRest_grows ..).trans (hold_works ..).stays.grows
  generalize hv : State.endCopy (if c.op = 3 then u else u.refreshDue (mgetD s.gs.lmap c0.lch c0.lch)) c0.lch = v
  have hvs : Grows u v := by
    rw [← hv]
    refine Grows.trans ?_ (grows_of_hide (endCopy_hide rfl ..))
    split
    · exact .refl u
    · exact refreshDue_grows ..
  generalize hw : (if c.readable then v else v.rebuild c0.lch (fun _ _ => true) true) = w
  have hws : Grows v w := by
    rw [← hw]
    split
    · exact .refl v
    · exact (rebuild_stays ..).grows
  refine (hus.trans (hvs.trans hws)).trans ?_
  split
  · exact switchReplace_grows ..
  split
  · exact switchFold_grows ..
  · exact switchUnfold_grows ..

theorem startCopy_grows (s : State) (c : ChCopy) (old : Option Nat) : Grows s (s.startCopy c old) := grows_of_hide (startCopy_hide rfl ..)

theorem replaceCh_grows (s : State) (f : Nat) (readable : Bool) : Grows s (s.replaceCh f readable).1 := by
  unfold State.replaceCh
  split
  · exact .refl s
  split
  · exact .refl s
  split
  · exact .refl s
  split
  · exact .refl s
  · dsimp only
    split
    · exact startCopy_grows ..
    · exact (startCopy_grows ..).trans (switchCh_grows ..)

theorem dropEach_grows (fails : WbFails) (l : List Way) (s : State) : Grows s (s.dropEach fails l).1 := by
  induction l generalizing s with
  | nil => exact .refl s
  | cons w l ih =>
    unfold State.dropEach
    dsimp only
    split
    · exact .trans (dropFor_stays s w fails).grows (ih _)
    · exact (dropFor_stays s w fails).grows

theorem foldCh_grows (s : State) (f : Nat) (readable : Bool) (fails : WbFails) : Grows s (s.foldCh f readable fails).1 := by
  unfold State.foldCh
  split
  · exact .refl s
  split
  · exact .refl s
  split
  · exact .refl s
  split
  · exact .refl s
  · dsimp only
    split
    · exact (startCopy_grows ..).trans (dropEach_grows ..)
    · exact .refl s

theorem loseEntries_grows (s : State) (f : Nat) : Grows s (s.loseEntries f) := by
  unfold State.loseEntries
  dsimp only
  refine .trans (t := s.onUp _) (.refl s) (.forEach (fun u e => ?_) ..)
  unfold State.tellLost
  split
  · exact .refl u
  · exact tell_grows ..

theorem losePinned_grows (s : State) (f : Nat) (e : Extent) : Grows s (s.losePinned f e) := by
  unfold State.losePinned
  split
  · exact .refl s
  next t _ =>
  dsimp only
  split
  · exact .forEach (fun u r => (poisonRow_stays u ..).grows) ..
  · refine .forEach (fun u r => ?_) ..
    generalize hq : (match t.ver? e.ver with | some v => u.writeBackRow t v (keyOf e.tbl r) {} | none => (u, true)) = q
    have hqs : Grows u q.1 := by
      rw [← hq]
      split
      · exact (writeBackRow_stays ..).grows
      · exact .refl u
    have hlost : Grows q.1 (if q.2 then q.1 else q.1.loseMaster (keyOf e.tbl r) e.ver) := by
      split
      · exact .refl _
      · exact (loseMaster_stays ..).grows
    subst hq
    exact (hqs.trans hlost).trans (.trans (clean_stays ..).grows (grows_of_hide (onExtent_hide rfl ..)))

theorem loseChannel_grows (s : State) (f : Nat) : Grows s (s.loseChannel f) := by
  unfold State.loseChannel
  split
  · exact .refl s
  next p _ =>
  dsimp only
  refine (loseEntries_grows s f).trans ?_
  generalize s.loseEntries f = u
  generalize hv : State.forEach State.dropOrLose _ u = v
  have hvs : Grows u v := by
    rw [← hv]
    exact .forEach (fun w x => (dropOrLose_stays w x).grows) ..
  generalize hw : State.forEach _ v.tb.extents v = w
  have hws : Grows v w := by
    rw [← hw]
    exact .forEach (fun x e => losePinned_grows x f e) ..
  refine (hvs.trans hws).trans ?_
  refine .trans ?_ (tell_grows ..)
  refine .trans ?_ (.forEach (fun x id => ?_) _ (State.settleTwins _))
  · exact .refl w
  · exact .trans (grows_of_hide (abandon_hide rfl rfl rfl x id)) (grows_of_hide (endDesc_hide rfl ..))

theorem autoAction_grows (s : State) (f : Nat) (readable : Bool) : Grows s (s.autoAction f readable) := by
  unfold State.autoAction
  dsimp only
  split
  · exact replaceCh_grows ..
  split
  · exact foldCh_grows ..
  · exact loseChannel_grows ..

theorem channelAction_grows (s : State) (f : Nat) (readable : Bool) : Grows s (s.channelAction f readable) := by
  unfold State.channelAction
  split
  · exact .refl s
  split
  · exact .refl s
  split
  · exact .refl s
  split
  · exact tell_grows ..
  · exact autoAction_grows ..

theorem runDue_grows (s : State) : Grows s s.runDue := by
  unfold State.runDue
  dsimp only
  generalize hu : State.forEach _ s.gs.copies s = u
  have hus : Grows s u := by
    rw [← hu]
    refine Grows.forEach (fun v c => ?_) s.gs.copies s
    split
    · exact switchCh_grows ..
    · exact .refl v
  refine hus.trans (.trans (t := u.onGs fun g => { g with due := [] }) (.refl u) ?_)
  exact .forEach (fun v e => channelAction_grows ..) ..

/-- A role that is back takes nothing from the event queue. -/
theorem roleBack_grows (s : State) (r : Nat) : Grows s (s.roleBack r) := by
  unfold State.roleBack
  split
  · exact .trans (t := (s.onTel fun t => { t with logUp := true }).tell [.drain])
      (tell_grows (s.onTel fun t => { t with logUp := true }) _) (handAudits_grows _)
  split
  · exact authDrain_grows s
  split
  · exact runDue_grows s
  · exact .refl s

/-! ## A restart's event -/

/-- What a restart counts on. -/
def restartCounters : List Nat := Ctr.mpuFaults :: Ctr.coreRestarts :: ownCounters

theorem own_mem_restartCounters : ∀ c ∈ ownCounters, c ∈ restartCounters := by decide

/-- From one telemetry state to another no event has been told of but those of the counters of restarts. -/
structure Quiet (t u : Telem) : Prop where
  ring  : u.evtRing = t.evtRing
  grows : t.evq <+: u.evq
  bound : u.evq.length + clearOn restartCounters u ≤ t.evq.length + clearOn restartCounters t

theorem Quiet.refl (t : Telem) : Quiet t t := ⟨rfl, List.prefix_rfl, Nat.le_refl _⟩

theorem Quiet.trans {t u v : Telem} (h : Quiet t u) (h' : Quiet u v) : Quiet t v :=
  ⟨h'.ring.trans h.ring, h.grows.trans h'.grows, h'.bound.trans h.bound⟩

theorem tell_quiet (s : State) {ops : List TelOp} (hcalm : ∀ o ∈ ops, Calm restartCounters o) (hnone : sumBy opEvents ops = 0)
    (hfew : sumBy opWeight ops ≤ 19000) : Quiet s.tel (s.tell ops).tel := by
  have hlen : restartCounters.length = 5 := rfl
  obtain ⟨hring, hgrows, hbound⟩ := tell_queues own_mem_restartCounters s ops hcalm (by omega)
  refine ⟨hring, hgrows, ?_⟩
  simp only [queueBound, sumBy, hnone] at hbound
  omega

theorem mpuFault_quiet (s : State) : Quiet s.tel (s.count Ctr.mpuFaults).tel :=
  tell_quiet s (calm_cons (by decide : Ctr.mpuFaults ∈ restartCounters) (calm_nil _)) rfl (Nat.le_of_ble_eq_true rfl)

theorem haltCore_quiet (s : State) (k cause : Nat) (pc : Word64) : Quiet s.tel (s.haltCore k cause pc).tel := by
  have hcount : Ctr.coreRestarts ∈ restartCounters := by decide
  unfold State.haltCore
  dsimp only
  refine Quiet.trans ?_ (tell_quiet _ (calm_cons hcount (calm_cons trivial (calm_nil _))) rfl (Nat.le_of_ble_eq_true rfl))
  split
  · exact ⟨rfl, List.prefix_rfl, Nat.le_refl _⟩
  · exact .refl _

/-- A core that runs again is told of, whatever its role takes up then. -/
theorem resumeCore_raises {s u : State} (h : Quiet s.tel u.tel) (k cause : Nat) : State.raised s (u.resumeCore k cause) 0xF01 := by
  obtain ⟨hring, hgrows, hbound⟩ := h
  have hclear := clearOn_le restartCounters s.tel
  have hlen : restartCounters.length = 5 := rfl
  refine raised_amid (u := u.setCore k .run) own_mem_restartCounters (ops := []) (rest := [])
    (e := { code := 0xF01, ring := none, data := evData [(8, 4, k), (12, 4, cause), (16, 8, u.restartSeq cause)] }) rfl hring hgrows
    (calm_nil _) (Nat.le_of_ble_eq_true rfl) (fun hspace => ?_) ?_
  · change 0 + u.tel.evq.length + clearOn restartCounters u.tel < 256
    omega
  · unfold State.resumeCore
    dsimp only
    split
    · exact roleBack_grows _ _
    · exact List.prefix_rfl

/-! ## Restarts -/

/-- What a restart by the hardware leaves, told of. -/
def restarted (s t : State) (k cause : Nat) (pc : Word64) : Prop :=
  t.coreState k = .run ∧ t.st.crashes = (k, pc, cause) :: s.st.crashes ∧ State.raised s t 0xF01

theorem restartCore_restarts {s u : State} {k : Nat} {restart : Bool} (hquiet : Quiet s.tel u.tel) (hst : u.st = s.st)
    (hruns : u.coreRuns k = true) (hrecent : k ≠ 0 → u.recentRestarts k < 2) (hzero : k = 0 → restart = true) (cause : Nat) (pc : Word64)
    (su : Startup) : restarted s (u.restartCore k cause pc restart su) k cause pc := by
  have hcycle : u.restartCore k cause pc restart su = u.cycleCore k cause pc := by
    unfold State.restartCore
    rw [hruns, Bool.not_true, if_neg Bool.false_ne_true]
    refine if_neg fun h => ?_
    obtain ⟨hk, hnot⟩ := Bool.and_eq_true_iff.mp h
    rw [hzero (of_decide_eq_true hk)] at hnot
    exact Bool.false_ne_true hnot
  obtain ⟨hrun, hcrash, -⟩ := cycleCore_runs hrecent cause pc
  rw [hcycle]
  refine ⟨hrun, hst ▸ hcrash, ?_⟩
  rw [cycleCore_resumes hrecent]
  exact resumeCore_raises (hquiet.trans (haltCore_quiet ..)) k cause

theorem recentRestarts_count (s : State) (off k : Nat) : (s.count off).recentRestarts k = s.recentRestarts k := by
  have hwithin : ∀ t n, (s.count off).tel.within t n = s.tel.within t n := fun t n => by
    unfold Telem.within
    rw [State.count, tell_ts]
  unfold State.recentRestarts
  simp only [hwithin]
  rw [count_st]

theorem coreWatched_restarts {k : Nat} {pc : Word64} {a : MpuAccess} {restart : Bool} {su : Startup} {s : State} {c : Instr × Nat}
    (hruns : s.coreRuns k = true) (hout : mpuLets k (s.roleOf k) a = false) (hrecent : k ≠ 0 → s.recentRestarts k < 2)
    (hzero : k = 0 → restart = true)
    (hc : c ∈ [(.coreWatchdogExpiry k pc restart su, Cause.watchdog), (.mpuFault k ⟨pc, a⟩ restart su, Cause.mpu),
      (.doubleFault k pc restart su, Cause.double)]) : ∃ t, exec c.1 s = .next t ∧ restarted s t k c.2 pc := by
  rcases List.mem_cons.mp hc with rfl | hc
  · exact ⟨_, rfl, restartCore_restarts (.refl _) rfl hruns hrecent hzero ..⟩
  rcases List.mem_cons.mp hc with rfl | hc
  · have hruns' : (s.count Ctr.mpuFaults).coreRuns k = true := hruns
    have hfault : exec (.mpuFault k ⟨pc, a⟩ restart su) s = .next ((s.count Ctr.mpuFaults).restartCore k Cause.mpu pc restart su) := by
      change execMpuFault k ⟨pc, a⟩ restart su s = _
      unfold execMpuFault
      rw [hruns, hout, Bool.not_false, Bool.and_true, if_pos rfl]
    refine ⟨_, hfault, restartCore_restarts (mpuFault_quiet s) (count_st ..) hruns' ?_ hzero ..⟩
    rw [recentRestarts_count]
    exact hrecent
  · obtain rfl := List.mem_singleton.mp hc
    exact ⟨_, rfl, restartCore_restarts (.refl _) rfl hruns hrecent hzero ..⟩

/-! ## Voltages -/

theorem lowRails_nil (was : SMap Nat) : lowRails was [] = [] := List.filterMap_eq_nil_iff.mpr fun _ _ => rfl

theorem voltageSample_samples {s : State} (hawake : s.awake = true) (hrole : s.roleUp 1 = true) (mv : List Nat) :
    (s.voltageSample mv).st.volts = mv.take 16 ∧
      ((∀ i, i < min 16 mv.length → railOk s.pw.pstate.coreMv i ((mv[i]?).getD 0) = true) → (s.voltageSample mv).st.lowRail = []) := by
  unfold State.voltageSample
  rw [hawake, hrole, Bool.not_true, Bool.or_false, if_neg Bool.false_ne_true]
  dsimp only
  refine ⟨congrArg Steta.volts (tell_st ..), fun hok => ?_⟩
  rw [tell_st, List.filter_eq_nil_iff.mpr fun i hi => by rw [hok i (List.mem_range.mp hi)]; exact Bool.false_ne_true]
  exact lowRails_nil s.st.lowRail

/-! ## Firmware images -/

theorem healthWatch_healthy {s : State} (hawake : s.awake = true) (hwatch : s.st.watch = true) :
    (s.healthWatch true).st.watch = false ∧ (s.healthWatch true).st.slotB = s.st.slotB ∧ State.raised s (s.healthWatch true) 0xF06 := by
  unfold State.healthWatch
  rw [hawake, hwatch, if_neg (by decide), if_pos rfl]
  dsimp only
  refine ⟨congrArg Steta.watch (tell_st ..), (congrArg Steta.slotB (tell_st ..)).trans rfl, ?_⟩
  exact raised_of_event (u := s.onSt fun t => { t with watch := false }) rfl _ rfl

theorem healthWatch_unhealthy {s : State} (hawake : s.awake = true) (hwatch : s.st.watch = true) {b : Bcr} (hb : s.st.bcr = some b) :
    (s.healthWatch false).st.trial = false ∧ (s.healthWatch false).st.watch = false ∧ (s.healthWatch false).st.slotB = b.prev := by
  have hbcr : (s.auditHw 0x23 (b2n s.st.slotB)).st.bcr = some b := ((auditHw_amid s _ _).reads (fun u => u.st.bcr) fun _ => rfl).trans hb
  unfold State.healthWatch
  rw [hawake, hwatch]
  exact revert_leaves hbcr _

/-- With no emergency and room in the audit log a commit that was held is done. -/
theorem deferEnd_commits {s : State} {d : Deferred} (hawake : s.awake = true) (hd : s.st.deferred = some d) (hcalm : s.emergency = false)
    (hroom : s.auditFull = false) (hkind : d.kind = 1) (sigOk : Bool) :
    s.deferEnd sigOk = s.commitTrial.auditHw 0x22 (b2n s.st.slotB) := by
  unfold State.deferEnd State.startHeld
  rw [hd]
  dsimp only
  rw [hawake, hcalm, hroom, hkind]
  rfl

theorem deferEnd_abandons {s : State} {d : Deferred} (hawake : s.awake = true) (hd : s.st.deferred = some d) (hemerg : s.emergency = true)
    (sigOk : Bool) : s.deferEnd sigOk = s.abandonFw d.kind := by
  unfold State.deferEnd
  rw [hd]
  dsimp only
  rw [hawake, hemerg]
  rfl

/-- An activation or a commit that an emergency outlasts is given up, and told of. -/
theorem abandonFw_abandons (s : State) (kind : Nat) :
    (s.abandonFw kind).st.deferred = none ∧ (s.abandonFw kind).fuses = s.fuses ∧ State.raised s (s.abandonFw kind) 0xF05 := by
  unfold State.abandonFw
  dsimp only
  generalize hv : s.onSt (fun t => { t with deferred := none }) = v
  generalize (if kind = 0 then 0x21 else 0x22) = action
  generalize (b2n (if kind = 0 then s.st.inactive else s.st.slotB)) = target
  have hvs : v.tel = s.tel ∧ v.fuses = s.fuses ∧ v.st.deferred = none := by
    rw [← hv]
    exact ⟨rfl, rfl, rfl⟩
  obtain ⟨htel, hfuses, hnone⟩ := hvs
  have hamid := auditHw_amid v action target
  refine ⟨?_, (hamid.reads (fun u => u.fuses) fun _ => rfl).trans hfuses, ?_⟩
  · rw [tell_st]
    exact (hamid.reads (fun u => u.st.deferred) fun _ => rfl).trans hnone
  · obtain ⟨hring, hgrows, hbound⟩ := htel ▸ auditHw_tells v action target
    have hclear := clearOn_le actionCounters s.tel
    have hlen : actionCounters.length = 12 := rfl
    refine raised_amid (u := v.auditHw action target) own_mem_actionCounters (ops := []) (rest := []) rfl hring hgrows (calm_nil _)
      (Nat.le_of_ble_eq_true rfl) (fun hspace => ?_) List.prefix_rfl
    simp only [queueBound, sumBy]
    omega

/-- Settles O56: a restart's event is queued before its role takes up what waited, and that only adds to the queue. -/
theorem coresAreWatched : Obligations.CoresAreWatched := by
  unfold Obligations.CoresAreWatched
  refine ⟨?_, ?_, ?_, ?_, ?_, ?_, ?_, ?_, ?_⟩
  · intro k pc a restart su c s hruns hout hrecent hzero hc
    exact coreWatched_restarts hruns hout hrecent hzero hc
  · intro mv s hawake hrole
    exact ⟨_, rfl, voltageSample_samples hawake hrole mv⟩
  · intro s hawake hrole
    have hprogram : exec .plogProgram s = .next (s.onTel Telem.program) := by
      change Host.Outcome.next _ = _
      rw [hawake, hrole, Bool.and_true, if_pos rfl]
    exact ⟨_, hprogram, rfl, rfl⟩
  · intro s hawake hwatch
    exact ⟨_, rfl, healthWatch_healthy hawake hwatch⟩
  · intro b s hawake hwatch hb
    obtain ⟨htrial, hover, hslot⟩ := healthWatch_unhealthy hawake hwatch hb
    exact ⟨_, rfl, hover, htrial, hslot⟩
  · intro d s hawake hd hcalm hroom hkind
    have hamid := auditHw_amid s.commitTrial 0x22 (b2n s.st.slotB)
    refine ⟨_, congrArg Host.Outcome.next (deferEnd_commits hawake hd hcalm hroom hkind true), ?_, ?_, ?_⟩
    · exact hamid.reads (fun u => u.st.trial) fun _ => rfl
    · exact hamid.reads (fun u => u.st.deferred) fun _ => rfl
    · exact hamid.reads (fun u => u.fuses.svn) fun _ => rfl
  · intro d sigOk s hawake hd hemerg
    exact ⟨_, congrArg Host.Outcome.next (deferEnd_abandons hawake hd hemerg sigOk), abandonFw_abandons s d.kind⟩
  · intro p s
    exact ⟨_, rfl, endSession_ends s p⟩
  · intro p s
    exact ⟨_, rfl, rfl⟩

end Sys2Proof.Proofs
end

section
/-!
PROOFS. O54: clocks, the handshake, emergencies and slice gating (R361 to R369).
-/

namespace Sys2Proof.Proofs

open Sys2Proof Sys2Proof.Machine Sys2Proof.Laws

/-! ## Power through what only tells -/

theorem auditHw_pw (s : State) (action target : Nat) : (s.auditHw action target).pw = s.pw :=
  (auditHw_amid s action target).reads (fun u => u.pw) fun _ => rfl

theorem logSensor_pw (s : State) (code i v : Nat) : (s.logSensor code i v).pw = s.pw := by
  unfold State.logSensor
  split <;> rfl

theorem logSensor_tells (s : State) (code i v : Nat) : Tells 0 s.tel (s.logSensor code i v).tel := by
  unfold State.logSensor
  split
  · exact tell_tells s [.log 1 0 4 (Sys2Proof.Config.logCode code) (leBytes 8 i ++ leBytes 8 v ++ List.replicate 32 0)]
      (calm_cons trivial (calm_nil _)) (Nat.le_of_ble_eq_true rfl)
  · exact .refl _

/-- An event is raised that is told of after others of its kind, of which there were few. -/
theorem raised_after_tells {n : Nat} {s u : State} (h : Tells n s.tel u.tel) (hn : n < 8) {e : Event} {code : Nat}
    (hcode : e.code = BitVec.ofNat 32 code) (rest : List TelOp) {t : State} (ht : t.tel = (u.tell (.event e :: rest)).tel) :
    State.raised s t code := by
  obtain ⟨hring, hgrows, hbound⟩ := h
  have hclear := clearOn_le actionCounters s.tel
  have hlen : actionCounters.length = 12 := rfl
  refine raised_amid (u := u) (t := t) own_mem_actionCounters (ops := []) (rest := rest) hcode hring hgrows (calm_nil _)
    (Nat.le_of_ble_eq_true rfl) (fun hspace => ?_) (ht ▸ List.prefix_rfl)
  simp only [queueBound, sumBy]
  omega

theorem raised_first {s u : State} (h : u.tel = s.tel) {e : Event} {code : Nat} (hcode : e.code = BitVec.ofNat 32 code)
    (rest : List TelOp) {t : State} (ht : t.tel = (u.tell (.event e :: rest)).tel) : State.raised s t code :=
  raised_after_tells (n := 0) (h ▸ Tells.refl _) (by decide) hcode rest ht

/-! ## Clock faults -/

theorem spared_pw (s : State) (d : Nat) : (s.spared d).pw = s.pw := auditHw_pw s 0x8001 d

theorem pllFault_spares {s : State} {d : Nat} (hawake : s.awake = true) (hpll : s.hasPll d = true) (hfree : s.pw.sp0 = none) (su : Startup) :
    (s.pllFault d su).pw.sp0 = some d ∧ State.raised s (s.pllFault d su) 0xE02 := by
  have heq : s.pllFault d su = ((s.logSensor 10 d 0).onPw fun w => { w with sp0 := some d }).spared d := by
    unfold State.pllFault
    rw [hawake, hpll, hfree]
    rfl
  rw [heq]
  constructor
  · rw [spared_pw]
    rfl
  · exact raised_after_tells ((logSensor_tells s 10 d 0).trans (auditHw_tells (State.onPw _ _) 0x8001 d)) (by decide) rfl _ rfl

theorem referenceFault_records {s : State} (hawake : s.awake = true) (hhere : s.pw.refGone = false) (stopped : Bool) :
    (s.referenceFault stopped).pw.refOk = false ∧ (s.referenceFault stopped).pw.refDrift = true ∧
      (s.referenceFault stopped).pw.refGone = stopped ∧ (s.referenceFault stopped).pw.aonOsc = (s.pw.aonOsc || stopped) := by
  unfold State.referenceFault
  dsimp only
  rw [hhere, if_neg Bool.false_ne_true, if_neg (by rw [hawake]; decide)]
  cases stopped with
  | true =>
    rw [if_pos rfl, logSensor_pw]
    exact ⟨rfl, rfl, rfl, rfl⟩
  | false => exact ⟨rfl, rfl, rfl, rfl⟩

theorem referenceReturn_records {s : State} {us : Nat} (hawake : s.awake = true) (hgone : s.pw.refGone = true) (hstep : s.pw.step ≠ 3)
    (hus : us ≤ 1000) :
    s.referenceReturn us = (s.refGood.onPw fun w => { w with refOk := true }).tell [s.pwrEvent 0xE01 us] := by
  unfold State.referenceReturn
  rw [hawake, hgone, if_neg hstep, if_neg (Nat.not_lt.mpr hus)]
  rfl

theorem pllAon_relocks {s : State} (hawake : s.awake = true) (hhere : s.pw.refGone = false) (hgood : s.pw.aonBad = false) (us : Nat)
    (su : Startup) : s.pllAon true us su = s.shortBursts.tell [s.pwrEvent 0xE01 us] := by
  unfold State.pllAon
  rw [hawake, hhere, hgood]
  rfl

theorem shortBursts_sched {s : State} {k : Nat} {c : Sched} (h : mget s.gs.scheds k = some c) :
    mget s.shortBursts.gs.scheds k = some { c with ival := c.ival * 7 / 8 } := by
  change mget (s.gs.scheds.map fun e => (e.1, { e.2 with ival := e.2.ival * 7 / 8 })) k = _
  exact (mget_map (fun c : Sched => { c with ival := c.ival * 7 / 8 }) s.gs.scheds k).trans (congrArg _ h)

/-! ## Requests on the handshake -/

theorem serveHeld_none {s : State} (h : s.pw.held = []) : s.serveHeld = s := by
  unfold State.serveHeld
  rw [h]
  have hpw : { s.pw with held := [] } = s.pw := by rw [← h]
  change { s with pw := { s.pw with held := [] } } = s
  rw [hpw]

theorem maxPstate_bounds (s : State) : 1 ≤ s.maxPstate ∧ s.maxPstate ≤ 4 := by
  unfold State.maxPstate
  dsimp only
  split
  · next h => exact h
  · exact ⟨by decide, Nat.le_refl 4⟩

/-- The block takes a request at once. -/
structure Takes (s : State) : Prop where
  awake : s.awake = true
  ready : s.pw.ready = true
  ended : s.exchanging = false

theorem Takes.byOff {s : State} (h : Takes s) : s.pw.byOff = false := by
  obtain ⟨-, hoff⟩ := Bool.and_eq_true_iff.mp h.awake
  exact (Bool.not_eq_true' _).mp hoff

theorem Takes.pmh {s : State} (h : Takes s) {target : Nat} {fails : WbFails} {may : Nat → Bool} (hmay : may s.pw.pstate.num = true)
    (hend : (s.pmhRequest target fails).exchanging = true ∨ (s.pmhRequest target fails).pw.byOff = true ∨ s.pw.held = []) :
    s.pmh target fails may = s.pmhRequest target fails := by
  have hoff := h.byOff
  have hrails : s.pw.rails = true ∧ s.fuses.absent = false := by
    have hawake := h.awake
    unfold State.awake at hawake
    simp only [Bool.and_eq_true, Bool.not_eq_true'] at hawake
    exact ⟨hawake.1.1.1, hawake.1.1.2⟩
  unfold State.pmh
  rw [hrails.1, hrails.2, hoff, h.ready, h.ended, hmay, if_neg (by decide), if_neg (by decide), if_pos rfl]
  refine if_pos ?_
  rcases hend with hend | hend | hend
  · rw [hend]
    rfl
  · rw [hend, Bool.or_true]
    rfl
  · rw [hend]
    exact Bool.or_true _

/-- An ACTIVE state, or STANDBY with nothing in flight, that the block may enter at once. -/
theorem pmhRequest_enters {s : State} {target : Nat} (h : Takes s) (hemerg : s.pw.emerg = false) (hlow : 1 ≤ target)
    (hcap : target ≤ s.maxPstate) (hidle : target = 1 → s.inFlight = false) (fails : WbFails) :
    s.pmhRequest target fails = s.enterState target := by
  obtain ⟨-, hmax⟩ := maxPstate_bounds s
  have hserve : s.serveState target = s.enterState target := by
    unfold State.serveState
    dsimp only
    rw [if_neg (Nat.not_lt.mpr hcap), Nat.min_eq_left hcap]
    refine if_neg fun hwait => ?_
    obtain ⟨hstandby, hflight⟩ := Bool.and_eq_true_iff.mp hwait
    rw [hidle (of_decide_eq_true hstandby)] at hflight
    exact Bool.false_ne_true hflight
  unfold State.pmhRequest
  dsimp only
  rw [h.ready, h.ended, hemerg, Bool.false_and, Bool.false_and, if_neg (by decide), if_neg Bool.false_ne_true, if_neg (by omega),
    if_neg (by omega), hserve]

theorem enterState_enters (s : State) (target : Nat) :
    (s.enterState target).pw.pstate = pstateOf target ∧ (s.enterState target).out = .pmhAck target :: s.out ∧
      State.raised s (s.enterState target) 0xE04 :=
  ⟨rfl, rfl, raised_first (u := s.onPw _) rfl rfl _ rfl⟩

theorem pmh_enters {s : State} {target : Nat} (h : Takes s) (hemerg : s.pw.emerg = false) (hheld : s.pw.held = []) (hlow : 1 ≤ target)
    (hcap : target ≤ s.maxPstate) (hidle : target = 1 → s.inFlight = false) {may : Nat → Bool} (hmay : may s.pw.pstate.num = true) :
    s.pmh target [] may = s.enterState target :=
  (h.pmh hmay (.inr (.inr hheld))).trans (pmhRequest_enters h hemerg hlow hcap hidle [])

/-- The four commands that ask for a state, each from a state in which it is the one to ask. -/
theorem handshake_enters {c : Instr} {target : Nat} {su : Startup} {s : State} (h : Takes s) (hemerg : s.pw.emerg = false)
    (hheld : s.pw.held = []) (hcap : target ≤ s.maxPstate)
    (hc : (c = .pmhRaise target su ∧ 2 ≤ s.pw.pstate.num ∧ s.pw.pstate.num < target) ∨
      (c = .pmhLower target ∧ 2 ≤ target ∧ target < s.pw.pstate.num) ∨
      (c = .pmhEnterStandby ∧ target = 1 ∧ 2 ≤ s.pw.pstate.num ∧ s.inFlight = false) ∨
      (c = .pmhLeaveStandby target ∧ 2 ≤ target ∧ s.pw.pstate.num = 1)) : exec c s = .next (s.enterState target) := by
  obtain ⟨-, hmax⟩ := maxPstate_bounds s
  rcases hc with ⟨rfl, hactive, hup⟩ | ⟨rfl, htwo, hdown⟩ | ⟨rfl, rfl, hactive, hidle⟩ | ⟨rfl, htwo, hstandby⟩
  · change Host.Outcome.next (if s.pw.byOff then _ else _) = _
    rw [h.byOff, if_neg Bool.false_ne_true]
    exact congrArg Host.Outcome.next (pmh_enters h hemerg hheld (by omega) hcap (by omega) (decide_eq_true ⟨hactive, hup, by omega⟩))
  · exact congrArg Host.Outcome.next (pmh_enters h hemerg hheld (by omega) hcap (by omega) (decide_eq_true ⟨htwo, hdown⟩))
  · exact congrArg Host.Outcome.next (pmh_enters h hemerg hheld (by omega) hcap (fun _ => hidle) (decide_eq_true hactive))
  · exact congrArg Host.Outcome.next (pmh_enters h hemerg hheld (by omega) hcap (by omega) (decide_eq_true ⟨hstandby, htwo, by omega⟩))

theorem reserved_acknowledged {s : State} {target : Nat} (h : Takes s) (hheld : s.pw.held = []) (hlow : 5 ≤ target) (hhigh : target ≤ 7) :
    exec (.reservedStateRequest target) s = .next s.reservedReq := by
  have hrequest : s.pmhRequest target [] = s.reservedReq := by
    unfold State.pmhRequest
    dsimp only
    rw [h.ready, h.ended, decide_eq_false (by omega : ¬ target ≤ 4), Bool.and_false, if_neg (by decide), if_neg Bool.false_ne_true,
      if_pos hlow]
  exact congrArg Host.Outcome.next
    ((h.pmh (decide_eq_true ⟨hlow, hhigh⟩) (.inr (.inr hheld))).trans hrequest)

/-! ## OFF -/

theorem pmhRequest_off {s : State} (h : Takes s) (fails : WbFails) : s.pmhRequest 0 fails = s.goOff fails := by
  unfold State.pmhRequest
  dsimp only
  rw [h.ready, h.ended, decide_eq_false (Nat.not_lt_zero _), Bool.and_false, Bool.false_and, if_neg (by decide),
    if_neg Bool.false_ne_true, if_neg (by decide), if_pos rfl]

theorem fabDrain_busy (s : State) (n j : Nat) : (s.fabDrain n).fabBusy j = s.fabBusy j := by
  have hrests : ∀ (l : List Nat) (u : State), (State.forEach State.fabRest l u).fabBusy j = u.fabBusy j := fun l u =>
    forEach_keeps (P := fun v => v.fabBusy j = u.fabBusy j) l (fun v p _ hv => (fabRest_busy v p j).trans hv) u rfl
  unfold State.fabDrain
  split
  · exact hrests _ _
  · rfl

theorem fabDrain_fuses (s : State) (n : Nat) : (s.fabDrain n).fuses = s.fuses :=
  same_of_hide (fabDrain_hide (M := butZone .fuses) rfl rfl ..) .fuses rfl

/-- No fabric port of the member drains, and none has an outstanding response. -/
def Drained (s : State) : Prop :=
  ∀ n, n < Member.fabPorts s.fuses.member → (s.fabPort n).status ≠ .draining ∧ s.fabBusy n = false

theorem fabDrain_drained {s : State} (h : Drained s) (n : Nat) : Drained (s.fabDrain n) := by
  intro j hj
  rw [fabDrain_fuses] at hj
  obtain ⟨hstatus, hbusy⟩ := h j hj
  refine ⟨?_, (fabDrain_busy ..).trans hbusy⟩
  by_cases hup : s.fabUp n = true
  · by_cases hjn : j = n
    · subst hjn
      rw [(fabDrain_done hup hj).1, hbusy]
      decide
    · by_cases hn : n < Member.fabPorts s.fuses.member
      · rw [(fabDrain_done hup hn).2 j hjn hstatus]
        exact hstatus
      · have hsame := (drainBegun_port hup j).trans (if_neg (Ne.symm hjn))
        rw [fabDrain_eq hup, fabSettle_port (by rw [hsame]; exact hstatus), hsame]
        exact hstatus
  · unfold State.fabDrain
    rw [if_neg hup]
    exact hstatus

theorem anyDraining_of_drained {s : State} (h : Drained s) : s.anyDraining = false := by
  unfold State.anyDraining
  rw [List.any_eq_false]
  intro n hn hdrains
  exact (h n (List.mem_range.mp hn)).1 (beq_iff_eq.mp hdrains)

/-- The fabric ports have begun to drain for OFF. -/
def offBegun (s : State) (fails : WbFails) : State :=
  (State.forEach State.fabDrain (List.range (Member.fabPorts s.fuses.member)) s).onPw fun w => { w with off := some fails }

theorem goOff_eq (s : State) (fails : WbFails) :
    s.goOff fails = if (offBegun s fails).anyDraining then offBegun s fails else (offBegun s fails).enterOff fails := rfl

theorem drains_drained {s : State} (h : Drained s) (l : List Nat) : Drained (State.forEach State.fabDrain l s) :=
  forEach_keeps (P := Drained) l (fun _ n _ hu => fabDrain_drained hu n) s h

theorem goOff_drained {s : State} (h : Drained s) (fails : WbFails) : s.goOff fails = (offBegun s fails).enterOff fails := by
  have hdrained : Drained (offBegun s fails) := drains_drained h _
  rw [goOff_eq, anyDraining_of_drained hdrained, if_neg Bool.false_ne_true]

theorem enterOff_off (s : State) (fails : WbFails) :
    (s.enterOff fails).pw.byOff = true ∧ (s.enterOff fails).pw.ready = false ∧ Output.pmhAck 0 ∈ (s.enterOff fails).out ∧
      (s.enterOff fails).fe = {} :=
  ⟨rfl, rfl, List.mem_cons_self, rfl⟩

/-- A busy port that is up, or drains, drains once it has been asked to. -/
theorem fabDrain_keeps_draining {s : State} {n : Nat} (hbusy : s.fabBusy n = true) (hstatus : (s.fabPort n).status = .draining) (m : Nat) :
    ((s.fabDrain m).fabPort n).status = .draining := by
  unfold State.fabDrain
  split
  · next hup =>
    have hne : m ≠ n := fun h => by
      rw [h, fabUp_iff, hstatus] at hup
      cases hup
    have hport : (drainBegun s m).fabPort n = s.fabPort n := (drainBegun_port hup n).trans (if_neg hne)
    change ((drainBegun s m).fabSettle.fabPort n).status = .draining
    unfold State.fabSettle
    rw [fabRests_port, drainBegun_busy, hbusy, if_neg fun h => Bool.noConfusion h.2.2, hport]
    exact hstatus
  · exact hstatus

theorem fabDrain_begins {s : State} {n : Nat} (hbusy : s.fabBusy n = true) (hup : s.fabUp n = true) (m : Nat) :
    ((s.fabDrain m).fabPort n).status = if m = n then .draining else .present := by
  have hstatus := fabUp_iff.mp hup
  by_cases hm : m = n
  · subst hm
    rw [if_pos rfl, fabDrain_eq hup]
    unfold State.fabSettle
    rw [fabRests_port, drainBegun_busy, hbusy, if_neg (fun h => Bool.noConfusion h.2.2), drainBegun_port hup, if_pos rfl]
  · rw [if_neg hm]
    unfold State.fabDrain
    split
    · next hupm =>
      have hport : (drainBegun s m).fabPort n = s.fabPort n := (drainBegun_port hupm n).trans (if_neg hm)
      change ((drainBegun s m).fabSettle.fabPort n).status = .present
      rw [fabSettle_port (by rw [hport, hstatus]; decide), hport]
      exact hstatus
    · exact hstatus

theorem drains_busy {s : State} {n : Nat} (hbusy : s.fabBusy n = true) (l : List Nat)
    (h : (s.fabPort n).status = .draining ∨ (s.fabPort n).status = .present ∧ n ∈ l) :
    ((State.forEach State.fabDrain l s).fabPort n).status = .draining := by
  induction l generalizing s with
  | nil => exact h.elim id fun hp => absurd hp.2 List.not_mem_nil
  | cons m l ih =>
    refine ih ((fabDrain_busy s m n).trans hbusy) ?_
    rcases h with h | ⟨hup, hmem⟩
    · exact .inl (fabDrain_keeps_draining hbusy h m)
    · have hnext := fabDrain_begins hbusy (fabUp_iff.mpr hup) m
      by_cases hm : m = n
      · exact .inl (hnext.trans (if_pos hm))
      · exact .inr ⟨hnext.trans (if_neg hm), (List.mem_cons.mp hmem).resolve_left (Ne.symm hm)⟩

theorem fabDrain_byOff (s : State) (n : Nat) : (s.fabDrain n).pw.byOff = s.pw.byOff := by
  have hrest : ∀ (u : State) (p : Nat), (u.fabRest p).pw.byOff = u.pw.byOff := fun u p => by
    unfold State.fabRest
    split <;> rfl
  unfold State.fabDrain
  split
  · exact forEach_keeps (P := fun v => v.pw.byOff = s.pw.byOff) _ (fun v p _ hv => (hrest v p).trans hv) (drainBegun s n) rfl
  · rfl

/-- With a response outstanding at a port, the exchange to OFF stays open. -/
theorem goOff_waits {s : State} {n : Nat} (hn : n < Member.fabPorts s.fuses.member) (hup : s.fabUp n = true) (hbusy : s.fabBusy n = true)
    (fails : WbFails) :
    s.goOff fails = offBegun s fails ∧ ((offBegun s fails).fabPort n).status = .draining ∧ (offBegun s fails).pw.off = some fails ∧
      (offBegun s fails).pw.byOff = s.pw.byOff := by
  have hdraining : ((offBegun s fails).fabPort n).status = .draining :=
    drains_busy hbusy _ (.inr ⟨fabUp_iff.mp hup, List.mem_range.mpr hn⟩)
  have hfuses : (offBegun s fails).fuses = s.fuses :=
    forEach_keeps (P := fun u => u.fuses = s.fuses) (List.range (Member.fabPorts s.fuses.member))
      (fun u m _ hu => (fabDrain_fuses u m).trans hu) s rfl
  have hany : (offBegun s fails).anyDraining = true := by
    unfold State.anyDraining
    rw [List.any_eq_true]
    exact ⟨n, List.mem_range.mpr (hfuses ▸ hn), beq_iff_eq.mpr hdraining⟩
  refine ⟨by rw [goOff_eq, hany, if_pos rfl], hdraining, rfl, ?_⟩
  exact forEach_keeps (P := fun u => u.pw.byOff = s.pw.byOff) (List.range (Member.fabPorts s.fuses.member))
    (fun u m _ hu => (fabDrain_byOff u m).trans hu) s rfl

/-! ## The end of an exchange to STANDBY -/

/-- The state of power but for the fabric ports' requests and credits. -/
def unported (w : Power) : Power := { w with fab := [], fabOut := [] }

/-- From s to t power differs in those alone. -/
def Ported (s t : State) : Prop := unported t.pw = unported s.pw

theorem Ported.trans {s t u : State} (h : Ported s t) (h' : Ported t u) : Ported s u := Eq.trans h' h

theorem Ported.reads {s t : State} (h : Ported s t) {α : Sort*} (f : Power → α) (hf : ∀ w, f (unported w) = f w) : f t.pw = f s.pw :=
  (hf t.pw).symm.trans ((congrArg f h).trans (hf s.pw))

theorem ported_of_pw {s t : State} (h : t.pw = s.pw) : Ported s t := congrArg unported h

theorem ported_of_hide {s t : State} (h : hide (butZone .pw) t = hide (butZone .pw) s) : Ported s t := ported_of_pw (same_of_hide h .pw rfl)

theorem fabSend_ported (s : State) (o : Output) : Ported s (s.fabSend o) := by
  unfold State.fabSend
  split
  · exact (congrArg unported (fabLeave_pw s _ o)).trans rfl
  · rfl

theorem ringSend_ported (s : State) (near : Bool) (o : Output) : Ported s (s.ringSend near o) := by
  unfold State.ringSend
  split
  · exact fabSend_ported ..
  · rfl

theorem putSlot_ported (s : State) (c : Nat) (ord : Bool) (b : Bool → Bytes) : Ported s (s.putSlot c ord b) :=
  .trans (t := s.setRing c _) rfl (ringSend_ported ..)

theorem putPads_ported (c : Nat) (ord : Bool) (n : Nat) (s : State) : Ported s (s.putPads c ord n) := by
  induction n generalizing s with
  | zero => rfl
  | succ n ih => exact (putSlot_ported ..).trans (ih _)

theorem putInline_ported (s : State) (c : Nat) (ord : Bool) (payload : Bytes) (b : Bool → Bytes) :
    Ported s (s.putInline c ord payload b) := by
  unfold State.putInline
  dsimp only
  refine Ported.trans ?_ (ringSend_ported ..)
  refine Ported.trans ?_ (ringSend_ported ..)
  refine .trans (t := if Ring.toEnd (s.ring c) < 3 then s.putPads c ord (Ring.toEnd (s.ring c)) else s) ?_ rfl
  split
  · exact putPads_ported ..
  · rfl

theorem putRecord_ported (s : State) (d : Desc) : Ported s (s.putRecord d) := by
  unfold State.putRecord
  dsimp only
  refine Ported.trans ?_ (ported_of_hide (signal_hide rfl rfl ..))
  split
  · exact putInline_ported ..
  · exact putSlot_ported ..

theorem finishRecord_ported (s : State) (d : Desc) : Ported s (s.finishRecord d) := by
  unfold State.finishRecord
  dsimp only
  refine Ported.trans ?_ (ported_of_hide (goOn_hide rfl rfl rfl rfl rfl rfl rfl rfl ..))
  refine Ported.trans ?_ (ported_of_hide (doneSeq_hide rfl rfl rfl rfl rfl rfl rfl ..))
  refine Ported.trans ?_ (ported_of_hide (leave_hide rfl rfl rfl rfl rfl rfl ..))
  refine Ported.trans ?_ (ported_of_hide (noteUnseen_hide rfl ..))
  refine Ported.trans ?_ (ported_of_hide (countDone_hide rfl ..))
  have hflush : Ported s ((s.flushOther d).tell
      [.count Ctr.dataErrors (b2n (d.status == St.dataError)), .count Ctr.poisonHits (b2n (d.status == St.poisoned)),
        .count Ctr.overflowDesc (b2n (bitb d.flags Fl.overflow)), .count Ctr.tileBusy (b2n (d.status == St.tileBusy))]) :=
    ported_of_hide (flushOther_hide rfl s d)
  refine hflush.trans ?_
  split
  · exact putRecord_ported ..
  · rfl

theorem recordWrite_ported (s : State) (id : Nat) : Ported s (s.recordWrite id) := by
  unfold State.recordWrite
  split
  · rfl
  split
  · rfl
  split
  · exact finishRecord_ported ..
  · rfl

theorem fabRest_ported (s : State) (p : Nat) : Ported s (s.fabRest p) := by
  unfold State.fabRest
  split <;> rfl

theorem fabSettle_ported (s : State) : Ported s s.fabSettle :=
  forEach_keeps (P := Ported s) _ (fun u p _ hu => hu.trans (fabRest_ported u p)) s rfl

/-- The last descriptor in flight ends the exchange to STANDBY. -/
theorem endExchange_standby {s : State} (hclosing : s.pw.closing = true) (hoff : s.pw.off = none) (hheld : s.pw.held = [])
    (hidle : s.inFlight = false) : s.endExchange = s.fabSettle.enterState 1 := by
  have hported := fabSettle_ported s
  have hfe : s.fabSettle.fe = s.fe := same_of_hide (fabSettle_hide (M := butZone .fe) rfl rfl ..) .fe rfl
  have hidle' : s.fabSettle.inFlight = false := by
    unfold State.inFlight
    rw [hfe]
    exact hidle
  unfold State.endExchange
  dsimp only
  rw [(hported.reads Power.off fun _ => rfl).trans hoff, (hported.reads Power.closing fun _ => rfl).trans hclosing, hidle']
  exact serveHeld_none ((hported.reads Power.held fun _ => rfl).trans hheld)

theorem recordWrite_standby {s : State} {id : Nat} (hclosing : s.pw.closing = true) (hoff : s.pw.off = none) (hheld : s.pw.held = [])
    (hidle : (s.recordWrite id).inFlight = false) :
    exec (.completionRecordWrite id) s = .next ((s.recordWrite id).fabSettle.enterState 1) := by
  have hported := recordWrite_ported s id
  have hopen : s.exchanging = true := by
    unfold State.exchanging
    rw [hclosing, Bool.true_or]
  change Host.Outcome.next (State.rest s.exchanging (s.recordWrite id)) = _
  rw [hopen]
  exact congrArg Host.Outcome.next (endExchange_standby ((hported.reads Power.closing fun _ => rfl).trans hclosing)
    ((hported.reads Power.off fun _ => rfl).trans hoff) ((hported.reads Power.held fun _ => rfl).trans hheld) hidle)

/-! ## Emergencies -/

theorem enterEmerg_raises {s u : State} (h : u.tel = s.tel) : State.raised s u.enterEmerg 0xE03 := by
  have hown : ∀ c ∈ ownCounters, c ∈ Ctr.emergEntries :: ownCounters := fun _ hc => List.mem_cons_of_mem _ hc
  have hclear := clearOn_le (Ctr.emergEntries :: ownCounters) u.tel
  have hlen : (Ctr.emergEntries :: ownCounters).length = 4 := rfl
  refine raised_amid (u := u) hown (ops := [.count Ctr.emergEntries 1]) (rest := [])
    (e := { code := 0xE03, ring := none, data := evData [(8, 4, 1), (12, 4, u.throttleLevel)] }) rfl
    (congrArg Telem.evtRing h) (h ▸ List.prefix_rfl) (calm_cons List.mem_cons_self (calm_nil _)) (Nat.le_of_ble_eq_true rfl)
    (fun hspace => ?_) List.prefix_rfl
  rw [← h] at hspace
  simp only [queueBound, sumBy, opEvents]
  omega

theorem emergAssert_enters {s : State} (hready : s.pw.ready = true) (hemerg : s.pw.emerg = false) :
    s.emergAssert = (s.onPw fun w => { w with emerg := true }).enterEmerg := by
  unfold State.emergAssert
  rw [hemerg, if_neg Bool.false_ne_true]
  exact if_pos hready

theorem emergRelease_leaves {s : State} (hready : s.pw.ready = true) (hemerg : s.pw.emerg = true) (hheld : s.pw.held = []) :
    s.emergRelease = (s.onPw fun w => { w with emerg := false }).tell
      [(s.onPw fun w => { w with emerg := false }).pwrEvent 0xE03 0] := by
  unfold State.emergRelease
  rw [hemerg, Bool.not_true, if_neg Bool.false_ne_true]
  refine (if_pos hready).trans ?_
  unfold State.afterStart
  exact (if_pos hready).trans (serveHeld_none hheld)

/-! ## Slice groups -/

theorem mem_insSorted_of_mem {α : Type} (le : α → α → Bool) (a : α) {x : α} {l : List α} (h : x ∈ l) : x ∈ insSorted le a l := by
  induction l with
  | nil => exact absurd h List.not_mem_nil
  | cons b l ih =>
    unfold insSorted
    split
    · exact (List.mem_cons.mp h).elim (fun hx => hx ▸ List.mem_cons_self) fun hx => List.mem_cons_of_mem b (ih hx)
    · exact List.mem_cons_of_mem a h

theorem trainSpares_pw (s : State) (bad : List (Nat × TgRes)) : (s.trainSpares bad).pw = s.pw :=
  same_of_hide (trainSpares_hide (M := butZone .pw) rfl rfl rfl rfl rfl rfl rfl rfl rfl rfl rfl rfl rfl rfl s bad) .pw rfl

theorem goReady_pw (s : State) (su : Startup) :
    (s.goReady su).pw = { s.pw with
      step := 9, ready := true, fail := 0, readyMs := su.readyMs, pstate := .p0, gated := [], stepReq := false, waits := none } := by
  unfold State.goReady
  dsimp only
  split
  · exact trainSpares_pw ..
  · exact trainSpares_pw ..

theorem afterStart_none {s : State} (h : s.pw.held = []) : s.afterStart = s := by
  unfold State.afterStart
  rw [serveHeld_none h, ite_self]

theorem stepGrant_ungates {s : State} {g : Nat} {l : List Nat} (hreq : s.pw.stepReq = true) (hgated : s.pw.gated = g :: l)
    (hmore : l ≠ [] ∨ s.pw.waits = none) : s.stepGrant.pw.gated = l ∧ s.stepGrant.pw.stepReq = !l.isEmpty := by
  unfold State.stepGrant
  rw [hreq, hgated, Bool.not_true, if_neg Bool.false_ne_true]
  dsimp only
  cases l with
  | cons x l => exact ⟨rfl, rfl⟩
  | nil =>
    have hwaits : s.pw.waits = none := hmore.resolve_left fun h => h rfl
    rw [hwaits]
    exact ⟨rfl, rfl⟩

/-- The last grant of step 8 makes the block READY. -/
theorem stepGrant_ready {s : State} {g : Nat} {q : Startup × Bool} (hreq : s.pw.stepReq = true) (hgated : s.pw.gated = [g])
    (hwaits : s.pw.waits = some q) (hheld : s.pw.held = []) :
    s.stepGrant.pw.ready = true ∧ s.stepGrant.pw.step = 9 ∧ s.stepGrant.pw.pstate = .p0 ∧ s.stepGrant.pw.gated = [] := by
  generalize hu : (s.onPw fun w => { w with gated := [], stepReq := false }).count Ctr.ungateSteps = u
  have hupw : u.pw = { s.pw with gated := [], stepReq := false } := hu ▸ rfl
  have heq : s.stepGrant = (u.goReady q.1).afterStart := by
    unfold State.stepGrant
    rw [hreq, hgated, Bool.not_true, if_neg Bool.false_ne_true]
    dsimp only
    rw [if_neg (by decide), hwaits, ← hu]
    rfl
  have hpw := goReady_pw u q.1
  have hnone : (u.goReady q.1).pw.held = [] := (congrArg Power.held hpw).trans ((congrArg Power.held hupw).trans hheld)
  rw [heq, afterStart_none hnone, hpw]
  exact ⟨rfl, rfl, rfl, rfl⟩

theorem gateGroup_gates {s : State} {g : Nat} (hpassing : s.passing = true) (hidle : bitf (s.cfg Reg.pwrCtl) 0 16 ≠ 0)
    (hquiet : s.groupWork g = false) (hhere : g < Member.groups s.fuses.member) (hopen : g ∉ s.pw.gated) :
    s.gateGroup g = s.onPw fun w => { w with gated := insSorted (fun a b => decide (a ≤ b)) g w.gated } := by
  have hnot : s.pw.gated.contains g = false := Bool.eq_false_iff.mpr fun h => hopen (List.contains_iff_mem.mp h)
  unfold State.gateGroup
  rw [hpassing, hquiet, hnot, decide_eq_false hidle, decide_eq_false (Nat.not_le.mpr hhere)]
  rfl

/-- Settles O54, command by command: what each does is said by the lemmas above. -/
theorem clocksAndPowerStates : Obligations.ClocksAndPowerStates := by
  unfold Obligations.ClocksAndPowerStates
  refine ⟨?_, ?_, ?_, ?_, ?_, ?_, ?_, ?_, ?_, ?_, ?_, ?_, ?_, ?_⟩
  · intro d su s hawake hpll hfree
    exact ⟨_, rfl, pllFault_spares hawake hpll hfree su⟩
  · intro stopped s hawake hhere
    exact ⟨_, rfl, referenceFault_records hawake hhere stopped⟩
  · intro us s hawake hgone hstep hus
    refine ⟨_, congrArg Host.Outcome.next (referenceReturn_records hawake hgone hstep hus), rfl, rfl, rfl, ?_⟩
    exact raised_first (u := s.refGood.onPw _) rfl rfl [] rfl
  · intro us su s hawake hhere hgood
    refine ⟨_, congrArg Host.Outcome.next (pllAon_relocks hawake hhere hgood us su), rfl, fun k c hc => shortBursts_sched hc, ?_⟩
    exact raised_first (u := s.shortBursts) rfl rfl [] rfl
  · intro c target su s hawake hready hended hemerg hheld hcap hc
    exact ⟨_, handshake_enters ⟨hawake, hready, hended⟩ hemerg hheld hcap hc, enterState_enters s target⟩
  · intro target s hawake hready hended hheld hlow hhigh
    exact ⟨_, reserved_acknowledged ⟨hawake, hready, hended⟩ hheld hlow hhigh, rfl, rfl⟩
  · intro fails s hawake hready hended hdrained
    have htakes : Takes s := ⟨hawake, hready, hended⟩
    have hoff : s.pmhRequest 0 fails = (offBegun s fails).enterOff fails :=
      (pmhRequest_off htakes fails).trans (goOff_drained hdrained fails)
    exact ⟨_, congrArg Host.Outcome.next (htakes.pmh rfl (.inr (.inl (by rw [hoff]; rfl)))), hoff ▸ enterOff_off _ fails⟩
  · intro n fails s hawake hready hended hn hup hbusy
    have htakes : Takes s := ⟨hawake, hready, hended⟩
    obtain ⟨heq, hdraining, hoff, hbyOff⟩ := goOff_waits hn hup hbusy fails
    have hrequest : s.pmhRequest 0 fails = offBegun s fails := (pmhRequest_off htakes fails).trans heq
    have hopen : (offBegun s fails).exchanging = true := by
      unfold State.exchanging
      rw [hoff]
      exact Bool.or_true _
    exact ⟨_, congrArg Host.Outcome.next (htakes.pmh rfl (.inl (by rw [hrequest]; exact hopen))),
      hrequest ▸ ⟨hoff, hbyOff.trans htakes.byOff, hdraining⟩⟩
  · intro id s hclosing hoff hheld hidle
    exact ⟨_, recordWrite_standby hclosing hoff hheld hidle, rfl, rfl, List.mem_cons_self⟩
  · intro s hready hemerg
    exact ⟨_, congrArg Host.Outcome.next (emergAssert_enters hready hemerg), rfl, enterEmerg_raises (u := s.onPw _) rfl⟩
  · intro s hready hemerg hheld
    exact ⟨_, congrArg Host.Outcome.next (emergRelease_leaves hready hemerg hheld), rfl, raised_first (u := s.onPw _) rfl rfl [] rfl⟩
  · intro g l s hreq hgated hmore
    exact ⟨_, rfl, stepGrant_ungates hreq hgated hmore⟩
  · intro g q s hreq hgated hwaits hheld
    exact ⟨_, rfl, stepGrant_ready hreq hgated hwaits hheld⟩
  · intro g s hpassing hidle hquiet hhere hopen
    exact ⟨_, congrArg Host.Outcome.next (gateGroup_gates hpassing hidle hquiet hhere hopen), mem_insSorted_self ..,
      fun x hx => mem_insSorted_of_mem _ g hx⟩

end Sys2Proof.Proofs
end

section
/-!
PROOFS. O55: resets and start-up (R372 to R376, R386 to R389, R40). A block that starts holds nothing in its volatile parts, and the actions of
its start leave them empty.
-/

namespace Sys2Proof.Proofs

open Sys2Proof Sys2Proof.Machine Sys2Proof.Laws

/-! ## The volatile parts of a block that starts -/

/-- What a start-up is followed by: the volatile parts that its channel actions read or might change, and what it keeps. -/
structure Core where
  fe        : FrontEnd := {}
  tb        : Tables := {}
  sp        : SortPool := {}
  regs      : SMap Word64 := []
  ways      : List Way := []
  queues    : List Req := []
  wc        : List WcEntry := []
  wcWait    : List WcEntry := []
  pillow    : List Entry := []
  fabOut    : List Output := []
  sessions  : List (Path × Session) := []
  ts        : BitVec 48
  fuses     : Fuses
  lastReset : Nat
  held      : List Nat

def core (s : State) : Core :=
  { fe := s.fe, tb := s.tb, sp := s.sp, regs := s.regs, ways := s.ch.ways, queues := s.gs.queues, wc := s.gs.wc, wcWait := s.gs.wcWait,
    pillow := s.up.pillow, fabOut := s.pw.fabOut, sessions := s.st.sessions, ts := s.tel.ts, fuses := s.fuses,
    lastReset := s.pw.lastReset, held := s.pw.held }

/-- The core of a block that starts, where it keeps what x has. -/
def blank (x : State) : Core := { ts := x.tel.ts, fuses := x.fuses, lastReset := x.pw.lastReset, held := x.pw.held }

/-- The state s holds nothing in the volatile parts, and keeps what x has. -/
def Bare (x s : State) : Prop := core s = blank x

theorem Bare.next {x s t : State} (h : Bare x s) (ht : core t = core s) : Bare x t := ht.trans h

theorem Amid.core {s t : State} (h : Amid s t) : core t = core s := h.reads Proofs.core fun _ => rfl

theorem Bare.forEach {α : Type} {x : State} {f : State → α → State} (hf : ∀ u a, Bare x u → Bare x (f u a)) (l : List α) {s : State}
    (h : Bare x s) : Bare x (State.forEach f l s) :=
  forEach_keeps (P := Bare x) l (fun u a _ hu => hf u a hu) s h

section
variable {x s : State} (h : Bare x s)
include h

theorem Bare.fe : s.fe = {} := congrArg Core.fe h
theorem Bare.tb : s.tb = {} := congrArg Core.tb h
theorem Bare.sp : s.sp = {} := congrArg Core.sp h
theorem Bare.regs : s.regs = [] := congrArg Core.regs h
theorem Bare.ways : s.ch.ways = [] := congrArg Core.ways h
theorem Bare.queues : s.gs.queues = [] := congrArg Core.queues h
theorem Bare.wc : s.gs.wc = [] := congrArg Core.wc h
theorem Bare.wcWait : s.gs.wcWait = [] := congrArg Core.wcWait h
theorem Bare.pillow : s.up.pillow = [] := congrArg Core.pillow h
theorem Bare.fabOut : s.pw.fabOut = [] := congrArg Core.fabOut h
theorem Bare.sessions : s.st.sessions = [] := congrArg Core.sessions h
theorem Bare.ts : s.tel.ts = x.tel.ts := congrArg Core.ts h
theorem Bare.fuses : s.fuses = x.fuses := congrArg Core.fuses h
theorem Bare.lastReset : s.pw.lastReset = x.pw.lastReset := congrArg Core.lastReset h
theorem Bare.held : s.pw.held = x.pw.held := congrArg Core.held h

end

theorem tell_amid (s : State) (ops : List TelOp) : Amid s (s.tell ops) := amid_of_hide (tell_hide rfl ..) rfl (tell_ts ..)

theorem tell_core (s : State) (ops : List TelOp) : core (s.tell ops) = core s := (tell_amid s ops).core

/-- A change of Ground store that leaves its requests and its buffer alone. -/
theorem onGs_core (s : State) (f : Ground → Ground) (hq : (f s.gs).queues = s.gs.queues) (hw : (f s.gs).wc = s.gs.wc)
    (hl : (f s.gs).wcWait = s.gs.wcWait) : core (s.onGs f) = core s := by
  unfold core
  rw [show (s.onGs f).gs = f s.gs from rfl, hq, hw, hl]
  rfl

/-- A change of Steta that opens no session. -/
theorem onSt_core (s : State) (f : Steta → Steta) (h : (f s.st).sessions = s.st.sessions) : core (s.onSt f) = core s := by
  unfold core
  rw [show (s.onSt f).st = f s.st from rfl, h]
  rfl

theorem onPhys_core (s : State) (p : Nat) (f : Phys → Phys) : core (s.onPhys p f) = core s := rfl

/-! ## Channel actions of a bare block -/

theorem gsDone_core {x s : State} (h : Bare x s) (lch op : Nat) : s.gsDone lch op = s := by
  have hreset : ∀ m : Member, bitb (regReset m Reg.gsCmd) 31 = false := fun m => by
    unfold regReset
    rw [if_neg (by decide), if_neg (by decide), if_neg (by decide)]
    decide
  unfold State.gsDone State.gsEnd State.gsRuns State.cfg
  dsimp only
  rw [h.regs]
  refine if_neg ?_
  change ¬(bitb (regReset s.fuses.member Reg.gsCmd) 31 && _ && _) = true
  rw [hreset]
  exact Bool.false_ne_true

theorem addLoad_core (s : State) (ch : Nat) (l : List (Nat × Nat)) : core (s.addLoad ch l) = core s := rfl

theorem copyLoad_core (s : State) (c : ChCopy) : core (s.copyLoad c) = core s := by
  have hdonors : ∀ (f : State → Nat → State) (hf : ∀ u i, core (f u i) = core u) (l : List Nat) (u : State),
      core (State.forEach f l u) = core u := fun f hf l u =>
    forEach_keeps (P := fun v => core v = core u) l (fun v i _ hv => (hf v i).trans hv) u rfl
  unfold State.copyLoad
  dsimp only
  split
  · exact addLoad_core ..
  split
  · refine (addLoad_core ..).trans ((hdonors _ (fun u i => addLoad_core ..) ..).trans (addLoad_core ..))
  · refine (hdonors _ (fun u i => addLoad_core ..) ..).trans (addLoad_core ..)

theorem copyRest_core (s : State) (c : ChCopy) : core (s.copyRest c).1 = core s := by
  unfold State.copyRest
  dsimp only
  split
  · rfl
  · exact (onGs_core _ _ rfl rfl rfl).trans ((tell_core ..).trans (copyLoad_core ..))

/-- With no request in a queue and nothing in the buffer, nothing is held. -/
theorem hold_core {x s : State} (h : Bare x s) (c : ChCopy) : core (s.hold c) = core s := by
  unfold State.hold
  rw [h.queues, h.wc, h.wcWait]
  refine (tell_core ..).trans ?_
  change ({ core s with queues := [], wc := s.gs.wc.filter _ } : Core) = core s
  unfold core
  rw [h.queues, h.wc]
  rfl

theorem replay_core {x s : State} (h : Bare x s) (c : ChCopy) : core (s.replay c []) = core s := by
  unfold State.replay
  refine onGs_core s _ ?_ rfl ?_
  · change s.gs.queues.map _ = _
    rw [h.queues]
    rfl
  · change s.gs.wcWait.map _ = _
    rw [h.wcWait]
    rfl

theorem refreshDue_core (s : State) (p : Nat) : core (s.refreshDue p) = core s := by
  have hrefresh : ∀ (u : State) (k : Nat), core (u.refresh k p) = core u := fun u k => tell_core ..
  unfold State.refreshDue
  dsimp only
  split
  · rfl
  · rfl
  · rfl
  · split
    · exact hrefresh ..
    · rfl
  · exact hrefresh (s.setSched (s.schedOf p) _) (s.schedOf p)

theorem rebuild_bare {x s : State} (h : Bare x s) (ch : Nat) (hit : Nat → Nat → Bool) (spared : Bool) : s.rebuild ch hit spared = s := by
  unfold State.rebuild
  rw [h.ways]
  change State.forEach _ s.tb.extents s = s
  rw [h.tb]
  rfl

theorem reduce_core (s : State) (kind lost : Nat) : core (s.reduce kind lost) = core s := tell_core (s.onRl _) _

theorem auditHw_core (s : State) (action target : Nat) : core (s.auditHw action target) = core s := (auditHw_amid s action target).core

theorem enterService_core (s : State) (lch pch kind : Nat) (spare : Bool) : core (s.enterService lch pch kind spare) = core s := by
  have hlow : ∀ (u : State) (left : Nat), core (u.spareLow lch pch 2 left) = core u := fun u left => by
    unfold State.spareLow
    split
    · exact tell_core ..
    · rfl
  unfold State.enterService
  dsimp only
  refine (tell_core ..).trans ?_
  split
  · exact (hlow ..).trans (auditHw_core (s.onPhys pch _) 0x8006 pch)
  · rfl

theorem switchReplace_core {x s : State} (h : Bare x s) (c : ChCopy) (old : Nat) (pass : Option (Option TgRes)) :
    core (s.switchReplace c old pass) = core s := by
  have htested : ∀ (u : State) (r : Option TgRes), core (u.tellTested r) = core u := fun u r => by
    unfold State.tellTested
    split
    · exact tell_core ..
    · rfl
  have hcount : core (((replaceLeft s c old pass).tellTested (pass.getD none)).count Ctr.chReplaced) = core s :=
    (tell_core ..).trans ((htested ..).trans (enterService_core (replaceMap s c old pass) c.lch c.pch 2 true))
  change core (State.gsDone (((replaceLeft s c old pass).tellTested (pass.getD none)).count Ctr.chReplaced) c.lch 1) = core s
  rw [gsDone_core (h.next hcount)]
  exact hcount

theorem settleTwins_core (s : State) : core s.settleTwins = core s := rfl

theorem switchFold_core {x s : State} (h : Bare x s) (c : ChCopy) (old : Nat) : core (s.switchFold c old []) = core s := by
  unfold State.switchFold
  dsimp only
  have hmap : Bare x (foldMap s c old) := h
  generalize hu : State.replay _ c [] = u
  have hucore : core u = core s := by
    rw [← hu]
    exact replay_core hmap c
  rw [rehouseAll_empty (h.next hucore).ways]
  have htold : ∀ ops, core ((u.settleTwins.tell ops).foldReduces) = core s := fun ops => by
    unfold State.foldReduces
    split
    · exact (reduce_core ..).trans ((tell_core ..).trans hucore)
    · exact (tell_core ..).trans hucore
  rw [gsDone_core (h.next (htold _))]
  exact htold _

theorem switchUnfold_core {x s : State} (h : Bare x s) (c : ChCopy) (old : Nat) : core (s.switchUnfold c old []) = core s := by
  have hmap : core (unfoldMap s c []) = core s := replay_core (s := s.joinGroup c.pch _) (h : Bare x _) c
  have hserve : core ((unfoldMap s c []).enterService c.lch c.pch 4 (c.pch != old)) = core s := (enterService_core ..).trans hmap
  change core (State.gsDone (State.unfoldRestores (((unfoldMap s c []).enterService c.lch c.pch 4 (c.pch != old)).rehouseAll true)) c.lch 3) = _
  rw [rehouseAll_empty (h.next hserve).ways]
  have hrestore : ∀ u : State, core u.unfoldRestores = core u := fun u => by
    unfold State.unfoldRestores
    split <;> rfl
  have hdone := (hrestore (State.settleTwins _)).trans ((settleTwins_core _).trans hserve)
  rw [gsDone_core (h.next hdone)]
  exact hdone

theorem switchCh_core {x s : State} (h : Bare x s) (c0 : ChCopy) (pass : Option (Option TgRes)) : core (s.switchCh c0 pass) = core s := by
  unfold State.switchCh
  dsimp only
  generalize (s.copyRest c0).2 = c
  generalize hu : State.hold (s.copyRest c0).1 c = u
  have hus : core u = core s := by
    rw [← hu]
    exact (hold_core (h.next (copyRest_core ..)) c).trans (copyRest_core ..)
  generalize hv : State.endCopy (if c.op = 3 then u else u.refreshDue (mgetD s.gs.lmap c0.lch c0.lch)) c0.lch = v
  have hvs : core v = core s := by
    rw [← hv]
    refine (onGs_core _ _ rfl rfl rfl).trans ?_
    split
    · exact hus
    · exact (refreshDue_core ..).trans hus
  rw [(h.next hus).wcWait, List.filter_nil, rebuild_bare (h.next hvs), ite_self]
  split
  · exact (replay_core (h.next ((switchReplace_core (h.next hvs) ..).trans hvs)) c).trans ((switchReplace_core (h.next hvs) ..).trans hvs)
  split
  · exact (switchFold_core (h.next hvs) ..).trans hvs
  · exact (switchUnfold_core (h.next hvs) ..).trans hvs

theorem startCopy_core (s : State) (c : ChCopy) (old : Option Nat) : core (s.startCopy c old) = core s := by
  unfold State.startCopy
  dsimp only
  split <;> split <;> rfl

theorem replaceCh_core {x s : State} (h : Bare x s) (f : Nat) (readable : Bool) : core (s.replaceCh f readable).1 = core s := by
  unfold State.replaceCh
  split
  · rfl
  split
  · rfl
  split
  · rfl
  split
  · rfl
  · dsimp only
    split
    · exact startCopy_core ..
    · exact (switchCh_core (h.next (startCopy_core ..)) ..).trans (startCopy_core ..)

theorem foldCh_core {x s : State} (h : Bare x s) (f : Nat) (readable : Bool) (fails : WbFails) :
    core (s.foldCh f readable fails).1 = core s := by
  unfold State.foldCh
  split
  · rfl
  split
  · rfl
  split
  · rfl
  split
  · rfl
  next p _ _ _ =>
  dsimp only
  have hstart := startCopy_core s { lch := f, op := 2, pch := p, readable := readable } (some p)
  rw [(h.next hstart).ways]
  exact hstart

theorem loseEntries_core {x s : State} (h : Bare x s) (f : Nat) : core (s.loseEntries f) = core s := by
  unfold State.loseEntries
  dsimp only
  rw [h.pillow]
  change ({ core s with pillow := s.up.pillow.map _ } : Core) = core s
  unfold core
  rw [h.pillow]
  rfl

theorem areaUsers_bare {x s : State} (h : Bare x s) : s.areaUsers = [] := by
  unfold State.areaUsers
  rw [h.sp]
  rfl

theorem loseChannel_core {x s : State} (h : Bare x s) (f : Nat) : core (s.loseChannel f) = core s := by
  unfold State.loseChannel
  split
  · rfl
  next p _ =>
  dsimp only
  have hentries := loseEntries_core h f
  generalize s.loseEntries f = u at hentries
  have hu := h.next hentries
  rw [hu.ways, List.filter_nil]
  simp only [State.forEach]
  rw [hu.tb]
  simp only [State.forEach]
  generalize hv : State.settleTwins _ = v
  have hvs : core v = core u := by
    rw [← hv]
    change ({ core u with queues := u.gs.queues.filter _, wc := u.gs.wc.filter _, wcWait := u.gs.wcWait.filter _ } : Core) = core u
    unfold core
    rw [hu.queues, hu.wc, hu.wcWait]
    rfl
  have hvb := hu.next hvs
  rw [areaUsers_bare hvb]
  simp only [State.forEach]
  refine (reduce_core ..).trans (Eq.trans ?_ (hvs.trans hentries))
  change ({ core v with sp := { v.sp with kept := v.sp.kept.filter _ } } : Core) = core v
  unfold core
  rw [hvb.sp]
  rfl

theorem autoAction_core {x s : State} (h : Bare x s) (f : Nat) (readable : Bool) : core (s.autoAction f readable) = core s := by
  unfold State.autoAction
  dsimp only
  split
  · exact replaceCh_core h ..
  split
  · exact foldCh_core h ..
  · exact loseChannel_core h f

theorem channelAction_core {x s : State} (h : Bare x s) (f : Nat) (readable : Bool) : core (s.channelAction f readable) = core s := by
  unfold State.channelAction
  split
  · rfl
  split
  · rfl
  split
  · rfl
  split
  · exact tell_core ..
  · exact autoAction_core h ..

theorem serveCh_core {x s : State} (h : Bare x s) (f : Nat) : core (s.serveCh f) = core s := by
  unfold State.serveCh
  split
  · rfl
  split
  · rfl
  dsimp only
  have haction := channelAction_core h f false
  split
  · exact (onPhys_core ..).trans ((switchCh_core (h.next haction) ..).trans haction)
  split
  · exact (loseChannel_core (h.next haction) f).trans haction
  · exact (onPhys_core ..).trans haction

/-! ## The steps of the start-up -/

theorem tellLines_core (s : State) (n : Nat) : core (s.tellLines n) = core s := tell_core ..

theorem trainSpares_bare {x s : State} (h : Bare x s) (bad : List (Nat × TgRes)) : Bare x (s.trainSpares bad) :=
  .forEach (fun _ f hu => hu.next (serveCh_core hu f)) _ (h.next ((onGs_core _ _ rfl rfl rfl).trans (tellLines_core ..)))

theorem goReady_bare {x s : State} (h : Bare x s) (su : Startup) : Bare x (s.goReady su) := by
  unfold State.goReady
  dsimp only
  have hspares : Bare x ((s.onPw fun w =>
      { w with step := 9, ready := true, fail := 0, readyMs := su.readyMs, pstate := .p0, gated := [], stepReq := false
               waits := none }).trainSpares su.badChs) := trainSpares_bare (s := s.onPw _) h su.badChs
  split
  · exact hspares.next (tell_core ..)
  · exact hspares

theorem stepEight_bare {x s : State} (h : Bare x s) (su : Startup) : Bare x (s.stepEight su) := by
  unfold State.stepEight
  split
  · exact goReady_bare (h.next (tell_core (s.sendAll _) _)) su
  · exact h

theorem trainGs_bare {x s : State} (h : Bare x s) (bad : List (Nat × TgRes)) : Bare x (s.trainGs bad) :=
  h.next ((onGs_core _ _ rfl rfl rfl).trans (tellLines_core ..))

theorem fabPresent_bare {x s : State} (h : Bare x s) (n : Nat) : Bare x (s.fabPresent n) := by
  unfold State.fabPresent
  dsimp only
  split
  · have hnear : (State.fabGrant ((s.onPw fun w => { w with fab := mset w.fab n { s.fabPort n with status := .present } }).send
        (.fabStatus n .present)) n).fe.rings = [] := congrArg FrontEnd.rings h.fe
    rw [hnear]
    have hout : (State.fabGrant ((s.onPw fun w => { w with fab := mset w.fab n { s.fabPort n with status := .present } }).send
        (.fabStatus n .present)) n).pw.fabOut = [] := h.fabOut
    simp only [List.filter_nil, State.forEach]
    rw [hout]
    exact h
  · exact h

theorem noteTraining_core (s : State) (port : Nat) (q : Port) : core (s.noteTraining port q) = core s := by
  unfold State.noteTraining
  split
  · exact tell_core ..
  · rfl

theorem trainFab_bare {x s : State} (h : Bare x s) (su : Startup) : Bare x (s.trainFab su) :=
  .forEach (fun _ n hu => fabPresent_bare (s := State.send (State.onPw _ _) _) hu n) _ (s := s.onPw _) h

theorem trainPorts_bare {x s : State} (h : Bare x s) (su : Startup) : Bare x (s.trainPorts su) :=
  .forEach (fun _ _ hu => hu.next (noteTraining_core ..)) _ (s := (s.trainFab su).onPw _) (trainFab_bare h su)

theorem startRest_bare {x s : State} (h : Bare x s) (su : Startup) : Bare x (s.startRest su) := by
  unfold State.startRest
  split
  · exact h
  · dsimp only
    have hports := trainPorts_bare (trainGs_bare h su.badChs) su
    split
    · exact stepEight_bare hports su
    · exact hports

theorem handAudits_bare {x s : State} (h : Bare x s) : Bare x s.handAudits := by
  unfold State.handAudits
  refine .forEach (fun u a hu => ?_) _ h
  exact hu.next (tell_core (u.onSt fun t => { t with audit := _ }) _)

/-- The cores' states as step 4 leaves them. -/
theorem startCores_cases (s : State) : ∃ (f : Steta → Steta) (up : Bool),
    (∀ t, (f t).sessions = t.sessions ∧ (f t).slotB = t.slotB) ∧
      (s.startCores = (s.onSt f).onTel (fun t => { t with logUp := up }) ∨
        s.startCores = ((s.onSt f).onTel fun t => { t with logUp := up }).handAudits) := by
  unfold State.startCores
  dsimp only
  refine ⟨_, _, ?_, ite_eq_or_eq ..⟩
  exact fun _ => ⟨rfl, rfl⟩

theorem startCores_bare {x s : State} (h : Bare x s) : Bare x s.startCores := by
  obtain ⟨f, up, hf, hcores⟩ := startCores_cases s
  have hstarted : Bare x ((s.onSt f).onTel fun t => { t with logUp := up }) := h.next (onSt_core s f (hf _).1)
  rcases hcores with hcores | hcores
  · exact hcores ▸ hstarted
  · exact hcores ▸ handAudits_bare hstarted

theorem bootFlash_core (s : State) (ok : Bool) : core (s.bootFlash ok) = core s := by
  unfold State.bootFlash
  dsimp only
  split
  · rfl
  · exact tell_core (s.onPw fun w => { w with octal := ok }) _

/-- The ROM has read the boot control record, and the boot flash has been switched. -/
def romRead (s : State) (su : Startup) : State :=
  ((s.onSt fun t => t.romWrites su.bcrBad (romRecord (s.st.governing su.bcrBad)).1).onPw fun w =>
    { w with refOk := !w.refOff, waits := none }).bootFlash su.octal

/-- The cores start on an image of a slot. -/
def slotBoots (s : State) (su : Startup) (b trial : Bool) : State :=
  (romRead s su).onSt fun t => { t with recovery := false, slotB := b, trial := trial }

theorem romRead_bare {x s : State} (h : Bare x s) (su : Startup) : Bare x (romRead s su) := h.next (bootFlash_core (State.onPw _ _) su.octal)

section
variable {s : State} {su : Startup}

theorem startOn_slot {b trial : Bool} (h : (romRead s su).romBoots su (romRecord (s.st.governing su.bcrBad)).2.1
    (romRecord (s.st.governing su.bcrBad)).2.2 = .slot b trial) (hold : Bool) :
    s.startOn su hold = if !su.cores then (slotBoots s su b trial).stuck 4 2
      else if hold then (slotBoots s su b trial).startCores.stuck 4 0 else (slotBoots s su b trial).startCores.startRest su := by
  unfold romRead at h
  unfold State.startOn slotBoots romRead
  dsimp only
  rw [h]

theorem startOn_recovery (h : (romRead s su).romBoots su (romRecord (s.st.governing su.bcrBad)).2.1
    (romRecord (s.st.governing su.bcrBad)).2.2 = .recovery) (hold : Bool) :
    s.startOn su hold =
      if su.cores then ((romRead s su).onSt fun t => { t with recovery := true, slotB := false, trial := false }).startCores.stuck 4 1
      else ((romRead s su).onSt fun t => { t with recovery := true, slotB := false, trial := false }).stuck 4 2 := by
  unfold romRead at h
  unfold State.startOn romRead
  dsimp only
  rw [h]

theorem startOn_none (h : (romRead s su).romBoots su (romRecord (s.st.governing su.bcrBad)).2.1
    (romRecord (s.st.governing su.bcrBad)).2.2 = .none) (hold : Bool) : s.startOn su hold = (romRead s su).stuck 3 1 := by
  unfold romRead at h
  unfold State.startOn romRead
  dsimp only
  rw [h]

end

theorem startOn_bare {x s : State} (h : Bare x s) (su : Startup) (hold : Bool) : Bare x (s.startOn su hold) := by
  have hrom := romRead_bare h su
  have hrecovery : Bare x ((romRead s su).onSt fun t => { t with recovery := true, slotB := false, trial := false }) :=
    hrom.next (onSt_core _ _ rfl)
  have hslot : ∀ b trial, Bare x (slotBoots s su b trial) := fun b trial => hrom.next (onSt_core _ _ rfl)
  rcases hboots : (romRead s su).romBoots su (romRecord (s.st.governing su.bcrBad)).2.1 (romRecord (s.st.governing su.bcrBad)).2.2 with
    ⟨b, trial⟩ | _ | _
  · rw [startOn_slot hboots]
    split
    · exact hslot b trial
    split
    · exact startCores_bare (hslot b trial)
    · exact startRest_bare (startCores_bare (hslot b trial)) su
  · rw [startOn_recovery hboots]
    split
    · exact startCores_bare hrecovery
    · exact hrecovery
  · rw [startOn_none hboots]
    exact hrom

theorem startUp_bare {x s : State} (h : Bare x s) (su : Startup) (hold : Bool) : Bare x (s.startUp su hold) := by
  unfold State.startUp
  split
  · exact h
  split
  · exact h
  · exact startOn_bare h su hold

end Sys2Proof.Proofs
end

section
/-!
PROOFS. O55, what a start-up that runs to its end leaves of power and of Steta, what the requests served then leave erased, and O55 itself.
-/

namespace Sys2Proof.Proofs

open Sys2Proof Sys2Proof.Machine Sys2Proof.Laws

/-! ## Power through the training of the ports -/

/-- The state of power but for the ports and what is known of them. -/
def unlinked (w : Power) : Power :=
  { unported w with node := none, selvedge := false, cxl := [], pcie := [], fns := [], cxlEnum := false }

/-- From s to t power differs in those alone. -/
def Links (s t : State) : Prop := unlinked t.pw = unlinked s.pw

theorem Links.trans {s t u : State} (h : Links s t) (h' : Links t u) : Links s u := Eq.trans h' h

theorem Links.reads {s t : State} (h : Links s t) {α : Sort*} (f : Power → α) (hf : ∀ w, f (unlinked w) = f w) : f t.pw = f s.pw :=
  (hf t.pw).symm.trans ((congrArg f h).trans (hf s.pw))

theorem Ported.links {s t : State} (h : Ported s t) : Links s t := by
  have hunlinked : ∀ u : State, unlinked u.pw =
      { unported u.pw with node := none, selvedge := false, cxl := [], pcie := [], fns := [], cxlEnum := false } := fun _ => rfl
  unfold Links
  rw [hunlinked t, hunlinked s, h]

theorem fabPump_ported (n : Nat) (s : State) : Ported s (State.fabPump n s) := by
  induction n generalizing s with
  | zero => rfl
  | succ n ih =>
    unfold State.fabPump
    split
    · next o l p _ _ =>
      refine .trans (t := s.onPw fun w => { w with fabOut := l }) rfl (.trans ?_ (ih _))
      exact (congrArg unported (fabLeave_pw (s.onPw fun w => { w with fabOut := l }) p o)).trans rfl
    · rfl

theorem fabPresent_ported (s : State) (n : Nat) : Ported s (s.fabPresent n) := by
  unfold State.fabPresent
  dsimp only
  split
  · refine .trans (t := ((s.onPw fun w => { w with fab := mset w.fab n { s.fabPort n with status := .present } }).send
      (.fabStatus n .present)).fabGrant n) rfl (.trans ?_ (fabPump_ported ..))
    exact forEach_keeps (P := Ported _) _ (fun u e _ hu => hu.trans (ported_of_pw (announce_pw u e.1))) _ rfl
  · rfl

theorem fabBegin_ported (s : State) (n oreq orsp : Nat) : Ported s (s.fabBegin n oreq orsp) :=
  .trans (t := (s.onPw fun w => { w with fab := mset w.fab n { status := .training, oreq := oreq, orsp := orsp } }).send
    (.fabStatus n .training)) rfl (fabPresent_ported ..)

theorem noteTraining_pw (s : State) (port : Nat) (q : Port) : (s.noteTraining port q).pw = s.pw := by
  unfold State.noteTraining
  split <;> rfl

theorem trainFab_links (s : State) (su : Startup) : Links s (s.trainFab su) := by
  unfold State.trainFab
  dsimp only
  refine .trans (t := s.onPw fun w => { w with selvedge := false, node := some su.node }) rfl ?_
  exact forEach_keeps (P := Links _) _ (fun u n _ hu => hu.trans (fabBegin_ported u n _ _).links) _ rfl

theorem trainPorts_links (s : State) (su : Startup) : Links s (s.trainPorts su) := by
  unfold State.trainPorts
  dsimp only
  refine (trainFab_links s su).trans ?_
  exact forEach_keeps (P := Links (s.trainFab su)) _ (fun u e _ hu => hu.trans (ported_of_pw (noteTraining_pw u e.1 e.2)).links) _ rfl

/-! ## Steta through the start-up -/

theorem serveCh_still (s : State) (f : Nat) : Still s (s.serveCh f) := by
  unfold State.serveCh
  split
  · rfl
  split
  · rfl
  dsimp only
  split
  · exact ((channelAction_still ..).trans (switchCh_still ..)).trans (still_of_hide (onPhys_hide rfl ..))
  split
  · exact (channelAction_still ..).trans (still_of_hide (loseChannel_hide rfl rfl rfl rfl rfl rfl rfl rfl rfl rfl ..))
  · exact (channelAction_still ..).trans (still_of_hide (onPhys_hide rfl ..))

theorem tellLines_still (s : State) (n : Nat) : Still s (s.tellLines n) := still_of_st (tell_st ..)

theorem trainSpares_still (s : State) (bad : List (Nat × TgRes)) : Still s (s.trainSpares bad) := by
  unfold State.trainSpares
  generalize List.length _ = n
  refine .trans ?_ (.forEach serveCh_still _ _)
  exact tellLines_still s n

theorem goReady_still (s : State) (su : Startup) : Still s (s.goReady su) := by
  unfold State.goReady
  dsimp only
  have hspares : Still s ((s.onPw fun w =>
      { w with step := 9, ready := true, fail := 0, readyMs := su.readyMs, pstate := .p0, gated := [], stepReq := false
               waits := none }).trainSpares su.badChs) := trainSpares_still (s.onPw _) su.badChs
  split
  · exact hspares.trans (still_of_st (tell_st ..))
  · exact hspares

theorem startCores_slotB (s : State) : s.startCores.st.slotB = s.st.slotB := by
  obtain ⟨f, up, hf, hcores⟩ := startCores_cases s
  have hslot : ((s.onSt f).onTel fun t => { t with logUp := up }).st.slotB = s.st.slotB := (hf s.st).2
  rcases hcores with hcores | hcores
  · exact hcores ▸ hslot
  · rw [hcores, (handAudits_still _).reads Steta.slotB fun _ => rfl]
    exact hslot

/-! ## A start-up that reaches step 8 -/

/-- Ground store and the ports have trained. -/
def portsTrained (s : State) (su : Startup) : State := (s.trainGs su.badChs).trainPorts su

theorem startCores_pw (s : State) : s.startCores.pw = s.pw :=
  same_of_hide (startCores_hide (M := butZone .pw) rfl rfl s) .pw rfl

theorem portsTrained_links (s : State) (su : Startup) : Links s (portsTrained s su) :=
  .trans (ported_of_pw (same_of_hide (trainGs_hide (M := butZone .pw) rfl rfl s su.badChs) .pw rfl)).links (trainPorts_links ..)

theorem portsTrained_st (s : State) (su : Startup) : (portsTrained s su).st = s.st :=
  (same_of_hide (trainPorts_hide (M := butZone .st) rfl rfl rfl rfl rfl ..) .st rfl).trans
    (same_of_hide (trainGs_hide (M := butZone .st) rfl rfl s su.badChs) .st rfl)

theorem startRest_eight {s : State} {su : Startup} (hgs : su.gsOk = true) (hports : su.portsOk = true) :
    s.startRest su = (portsTrained s su).stepEight su := by
  unfold State.startRest
  rw [hgs, hports]
  rfl

theorem bootFlash_pw (s : State) (ok : Bool) : (s.bootFlash ok).pw = { s.pw with octal := ok } := by
  unfold State.bootFlash
  dsimp only
  split <;> rfl

theorem bootFlash_st (s : State) (ok : Bool) : (s.bootFlash ok).st = s.st := by
  unfold State.bootFlash
  dsimp only
  split
  · rfl
  · exact tell_st ..

theorem romRead_pw (s : State) (su : Startup) :
    (romRead s su).pw = { s.pw with refOk := !s.pw.refOff, waits := none, octal := su.octal } := bootFlash_pw ..

theorem romRead_fuses (s : State) (su : Startup) : (romRead s su).fuses = s.fuses :=
  same_of_hide (bootFlash_hide (M := butZone .fuses) rfl rfl ..) .fuses rfl

theorem romRead_images (s : State) (su : Startup) :
    (romRead s su).st.imgA = s.st.imgA ∧ (romRead s su).st.imgB = s.st.imgB ∧ (romRead s su).st.imgR = s.st.imgR := by
  unfold romRead
  rw [bootFlash_st]
  exact ⟨rfl, rfl, rfl⟩

/-- The slot that the record chooses boots where its image verifies. -/
theorem romBoots_want {s : State} {su : Startup} {b trial : Bool}
    (h : (if b then s.fuses.accepts s.st.imgB su.sigB else s.fuses.accepts s.st.imgA su.sigA) = true) :
    (romRead s su).romBoots su b trial = .slot b trial := by
  obtain ⟨hA, hB, -⟩ := romRead_images s su
  unfold State.romBoots
  dsimp only
  rw [romRead_fuses, hA, hB]
  exact if_pos h

theorem romBoots_nothing {s : State} {su : Startup} {b trial : Bool} (hA : s.fuses.accepts s.st.imgA su.sigA = false)
    (hB : s.fuses.accepts s.st.imgB su.sigB = false) (hR : s.fuses.accepts s.st.imgR su.sigR = false) :
    (romRead s su).romBoots su b trial = .none := by
  obtain ⟨hA', hB', hR'⟩ := romRead_images s su
  unfold State.romBoots
  dsimp only
  rw [romRead_fuses, hA', hB', hR', hA, hB, hR]
  cases b <;> rfl

/-- A start-up in which everything verifies and trains reaches step 8 with the cores on the chosen slot. -/
theorem startUp_eight {s : State} {su : Startup} {b trial : Bool} (hlock : s.pw.aonBad = false) (hhere : s.pw.refGone = false)
    (hcores : su.cores = true) (hgs : su.gsOk = true) (hports : su.portsOk = true)
    (hboots : (romRead s su).romBoots su (romRecord (s.st.governing su.bcrBad)).2.1 (romRecord (s.st.governing su.bcrBad)).2.2 =
      .slot b trial) : s.startUp su false = (portsTrained (slotBoots s su b trial).startCores su).stepEight su := by
  unfold State.startUp
  rw [hlock, hhere, if_neg Bool.false_ne_true, if_neg Bool.false_ne_true, startOn_slot hboots, hcores, if_neg (by decide),
    if_neg Bool.false_ne_true, startRest_eight hgs hports]

/-- The block as step 8 begins. -/
def atEight (s : State) (su : Startup) (b trial : Bool) : State := portsTrained (slotBoots s su b trial).startCores su

theorem atEight_bare {x s : State} (h : Bare x s) (su : Startup) (b trial : Bool) : Bare x (atEight s su b trial) :=
  trainPorts_bare (trainGs_bare (startCores_bare ((romRead_bare h su).next (onSt_core _ _ rfl))) su.badChs) su

theorem atEight_reads (s : State) (su : Startup) (b trial : Bool) {α : Sort*} (f : Power → α) (hf : ∀ w, f (unlinked w) = f w)
    (hrom : ∀ w : Power, f { w with refOk := !w.refOff, waits := none, octal := su.octal } = f w) :
    f (atEight s su b trial).pw = f s.pw := by
  refine ((portsTrained_links _ su).reads f hf).trans ?_
  rw [startCores_pw]
  change f (romRead s su).pw = f s.pw
  rw [romRead_pw]
  exact hrom s.pw

theorem atEight_slotB (s : State) (su : Startup) (b trial : Bool) : (atEight s su b trial).st.slotB = b := by
  refine (congrArg Steta.slotB (portsTrained_st ..)).trans ((startCores_slotB _).trans ?_)
  rfl

/-- With its grants at once, step 8 is followed by READY. -/
theorem stepEight_granted {s : State} {su : Startup} (h : su.grants = true) :
    ∃ u, core u = core s ∧ u.st = s.st ∧ s.stepEight su = u.goReady su := by
  refine ⟨(s.sendAll (s.pw.gated.map fun _ => .stepReq)).countN Ctr.ungateSteps s.pw.gated.length, tell_core (s.sendAll _) _,
    tell_st (s.sendAll _) _, ?_⟩
  unfold State.stepEight
  rw [h]
  rfl

theorem stepEight_waits {s : State} {su : Startup} (h : su.grants = false) (hgated : s.pw.gated ≠ []) :
    s.stepEight su = ((s.onPw fun w => { w with stepReq := true, waits := some (su, false) }).send .stepReq).stuck 8 0 := by
  have hnot : s.pw.gated.isEmpty = false := Bool.eq_false_iff.mpr fun h => hgated (List.isEmpty_iff.mp h)
  unfold State.stepEight
  rw [h, hnot]
  rfl

/-! ## Power-good -/

/-- The block as power comes up. -/
def powered (s : State) (su : Startup) : State :=
  (s.cleared.onTel fun t => { t with ts := 0 }).onPw fun w =>
    { w with rails := true, lastReset := 0, held := [], aonBad := !su.aonLock, aonOsc := w.refGone || !su.aonLock }

theorem exec_powerGood {s : State} (hrails : s.pw.rails = false) (hhere : s.fuses.absent = false) (su : Startup) :
    exec (.powerGood su) s = .next ((powered s su).startUp su false).afterStart := by
  change Host.Outcome.next (if s.pw.rails then _ else _) = _
  rw [hrails, hhere]
  rfl

theorem powered_bare (s : State) (su : Startup) : Bare (powered s su) (powered s su) := rfl

theorem powered_readies {s : State} {su : Startup} (hlock : su.aonLock = true) (hhere : s.pw.refGone = false) (hcores : su.cores = true)
    (hgs : su.gsOk = true) (hports : su.portsOk = true) (hgrants : su.grants = true)
    (haccepts : (if (romRecord (s.st.governing su.bcrBad)).2.1 then s.fuses.accepts s.st.imgB su.sigB
      else s.fuses.accepts s.st.imgA su.sigA) = true) :
    let t := ((powered s su).startUp su false).afterStart
    t.pw.ready = true ∧ t.pw.step = 9 ∧ t.pw.pstate = .p0 ∧ t.pw.lastReset = 0 ∧
      t.st.slotB = (romRecord (s.st.governing su.bcrBad)).2.1 ∧ t.tel.ts = 0 ∧ t.fe = {} := by
  have hbad : (powered s su).pw.aonBad = false := congrArg not hlock
  rw [startUp_eight hbad hhere hcores hgs hports (romBoots_want (s := powered s su) haccepts)]
  have hbare := atEight_bare (powered_bare s su) su (romRecord ((powered s su).st.governing su.bcrBad)).2.1
    (romRecord ((powered s su).st.governing su.bcrBad)).2.2
  have hslot := atEight_slotB (powered s su) su (romRecord ((powered s su).st.governing su.bcrBad)).2.1
    (romRecord ((powered s su).st.governing su.bcrBad)).2.2
  unfold atEight at hbare hslot
  obtain ⟨u, hcore, hst, heq⟩ := stepEight_granted (s := portsTrained _ su) hgrants
  rw [heq]
  have hready : Bare (powered s su) (u.goReady su) := goReady_bare (hbare.next hcore) su
  have hpw := goReady_pw u su
  have hheld : (u.goReady su).pw.held = [] := hready.held
  intro t
  have ht : t = u.goReady su := afterStart_none hheld
  rw [ht]
  refine ⟨?_, ?_, ?_, hready.lastReset, ?_, hready.ts, hready.fe⟩
  · rw [hpw]
  · rw [hpw]
  · rw [hpw]
  · rw [(goReady_still u su).reads Steta.slotB fun _ => rfl, hst]
    exact hslot

theorem powered_waits {s : State} {su : Startup} (hlock : su.aonLock = true) (hhere : s.pw.refGone = false) (hcores : su.cores = true)
    (hgs : su.gsOk = true) (hports : su.portsOk = true) (hgrants : su.grants = false) (hgated : Member.gated0 s.fuses.member ≠ [])
    (haccepts : (if (romRecord (s.st.governing su.bcrBad)).2.1 then s.fuses.accepts s.st.imgB su.sigB
      else s.fuses.accepts s.st.imgA su.sigA) = true) :
    let t := ((powered s su).startUp su false).afterStart
    t.pw.ready = false ∧ t.pw.step = 8 ∧ t.pw.stepReq = true ∧ Output.stepReq ∈ t.out := by
  have hbad : (powered s su).pw.aonBad = false := congrArg not hlock
  rw [startUp_eight hbad hhere hcores hgs hports (romBoots_want (s := powered s su) haccepts)]
  have hreads := atEight_reads (powered s su) su (romRecord ((powered s su).st.governing su.bcrBad)).2.1
    (romRecord ((powered s su).st.governing su.bcrBad)).2.2 (fun w => (w.ready, w.gated)) (fun _ => rfl) fun _ => rfl
  unfold atEight at hreads
  generalize portsTrained _ su = u at hreads ⊢
  have hnot : u.pw.ready = false := congrArg Prod.fst hreads
  have hgated' : u.pw.gated ≠ [] := by
    rw [show u.pw.gated = Member.gated0 s.fuses.member from congrArg Prod.snd hreads]
    exact hgated
  rw [stepEight_waits hgrants hgated']
  intro t
  have ht : t = ((u.onPw fun w => { w with stepReq := true, waits := some (su, false) }).send .stepReq).stuck 8 0 := if_neg (by
    change ¬u.pw.ready = true
    rw [hnot]
    exact Bool.false_ne_true)
  rw [ht]
  exact ⟨hnot, rfl, rfl, List.mem_cons_self⟩

theorem afterStart_of_notReady {s : State} (h : s.pw.ready = false) : s.afterStart = s := by
  unfold State.afterStart
  exact if_neg (h ▸ Bool.false_ne_true)

theorem powered_unlocked {s : State} {su : Startup} (hlock : su.aonLock = false) :
    ((powered s su).startUp su false).afterStart = (powered s su).stuck 2 0 := by
  have hbad : (powered s su).pw.aonBad = true := congrArg not hlock
  have hstuck : (powered s su).startUp su false = (powered s su).stuck 2 0 := by
    unfold State.startUp
    exact if_pos hbad
  rw [hstuck]
  exact afterStart_of_notReady rfl

theorem powered_failed {s : State} {su : Startup} (hlock : su.aonLock = true) (hhere : s.pw.refGone = false)
    (hA : s.fuses.accepts s.st.imgA su.sigA = false) (hB : s.fuses.accepts s.st.imgB su.sigB = false)
    (hR : s.fuses.accepts s.st.imgR su.sigR = false) :
    ((powered s su).startUp su false).afterStart = (romRead (powered s su) su).stuck 3 1 ∧
      (romRead (powered s su) su).pw.ready = false := by
  have hbad : (powered s su).pw.aonBad = false := congrArg not hlock
  have hhere' : (powered s su).pw.refGone = false := hhere
  have hstuck : (powered s su).startUp su false = (romRead (powered s su) su).stuck 3 1 := by
    unfold State.startUp
    rw [hbad, hhere', if_neg Bool.false_ne_true, if_neg Bool.false_ne_true]
    exact startOn_none (romBoots_nothing (s := powered s su) hA hB hR) false
  have hready : (romRead (powered s su) su).pw.ready = false := by
    rw [romRead_pw]
    rfl
  rw [hstuck]
  exact ⟨afterStart_of_notReady hready, hready⟩

/-! ## What the requests that were held leave erased -/

/-- What a reset erases, or keeps as x has it, and the requests served after it leave so. -/
structure Erased (x s : State) : Prop where
  fe        : s.fe = {}
  tb        : s.tb = {}
  regs      : s.regs = []
  sessions  : s.st.sessions = []
  lastReset : s.pw.lastReset = x.pw.lastReset
  fuses     : s.fuses = x.fuses

theorem Bare.erased {x s : State} (h : Bare x s) : Erased x s := ⟨h.fe, h.tb, h.regs, h.sessions, h.lastReset, h.fuses⟩

theorem Erased.onPw {x s : State} (h : Erased x s) (f : Power → Power) (hf : (f s.pw).lastReset = s.pw.lastReset) :
    Erased x (s.onPw f) := ⟨h.fe, h.tb, h.regs, h.sessions, hf.trans h.lastReset, h.fuses⟩

theorem Erased.send {x s : State} (h : Erased x s) (o : Output) : Erased x (s.send o) :=
  ⟨h.fe, h.tb, h.regs, h.sessions, h.lastReset, h.fuses⟩

theorem Erased.amid {x s t : State} (h : Erased x s) (ht : Amid s t) : Erased x t := by
  refine ⟨(ht.reads (fun u => u.fe) fun _ => rfl).trans h.fe, (ht.reads (fun u => u.tb) fun _ => rfl).trans h.tb,
    (ht.reads (fun u => u.regs) fun _ => rfl).trans h.regs, (ht.reads (fun u => u.st.sessions) fun _ => rfl).trans h.sessions,
    (ht.reads (fun u => u.pw.lastReset) fun _ => rfl).trans h.lastReset, (ht.reads (fun u => u.fuses) fun _ => rfl).trans h.fuses⟩

theorem Erased.tell {x s : State} (h : Erased x s) (ops : List TelOp) : Erased x (s.tell ops) := h.amid (tell_amid s ops)

theorem Erased.forEach {α : Type} {x : State} {f : State → α → State} (hf : ∀ u a, Erased x u → Erased x (f u a)) (l : List α)
    {s : State} (h : Erased x s) : Erased x (State.forEach f l s) :=
  forEach_keeps (P := Erased x) l (fun u a _ hu => hf u a hu) s h

theorem enterState_erased {x s : State} (h : Erased x s) (target : Nat) : Erased x (s.enterState target) :=
  ((h.onPw _ rfl).tell _).send _

theorem fabDrain_erased {x s : State} (h : Erased x s) (n : Nat) : Erased x (s.fabDrain n) := by
  have hrest : ∀ (u : State) (p : Nat), Erased x u → Erased x (u.fabRest p) := fun u p hu => by
    unfold State.fabRest
    split
    · exact (hu.onPw _ rfl).send _
    · exact hu
  unfold State.fabDrain
  split
  · exact .forEach hrest _ ((h.onPw _ rfl).send _)
  · exact h

/-- OFF erases all that a reset erases. -/
theorem enterOff_erased {x s : State} (hreset : s.pw.lastReset = x.pw.lastReset) (hfuses : s.fuses = x.fuses) (fails : WbFails) :
    Erased x (s.enterOff fails) := by
  have hwritten : (s.writeAll fails).pw = s.pw ∧ (s.writeAll fails).fuses = s.fuses :=
    ⟨same_of_hide (writeAll_hide (M := butZone .pw) rfl rfl rfl rfl rfl rfl rfl s fails) .pw rfl,
      same_of_hide (writeAll_hide (M := butZone .fuses) rfl rfl rfl rfl rfl rfl rfl s fails) .fuses rfl⟩
  have hlogged : ∀ (u : State) (n : Nat), (u.logLost n).pw = u.pw ∧ (u.logLost n).fuses = u.fuses := fun u n => by
    unfold State.logLost
    split <;> exact ⟨rfl, rfl⟩
  obtain ⟨hpw, hfuse⟩ := hlogged (s.writeAll fails) (s.writeAll fails).dirtyCount
  unfold State.enterOff
  dsimp only
  generalize State.logLost _ _ = u at hpw hfuse ⊢
  refine ⟨rfl, rfl, rfl, rfl, ?_, ?_⟩
  · dsimp only [State.onPw, State.cleared, State.send, State.tell, State.sendAll, State.onTel]
    rw [hpw, hwritten.1, hreset]
  · dsimp only [State.onPw, State.cleared, State.send, State.tell, State.sendAll, State.onTel]
    rw [hfuse, hwritten.2, hfuses]

theorem goOff_erased {x s : State} (h : Erased x s) (fails : WbFails) : Erased x (s.goOff fails) := by
  have hbegun : Erased x (offBegun s fails) := .onPw (.forEach (fun _ n hu => fabDrain_erased hu n) _ h) _ rfl
  rw [goOff_eq]
  split
  · exact hbegun
  · exact enterOff_erased hbegun.lastReset hbegun.fuses fails

theorem serveState_erased {x s : State} (h : Erased x s) (target : Nat) : Erased x (s.serveState target) := by
  unfold State.serveState
  dsimp only
  have hcapped : Erased x (if s.maxPstate < target then s.count Ctr.pmhCapped else s) := by
    split
    · exact h.tell _
    · exact h
  generalize (if s.maxPstate < target then s.count Ctr.pmhCapped else s) = u at hcapped ⊢
  split
  · exact hcapped.onPw _ rfl
  · exact enterState_erased hcapped _

theorem pmhRequest_erased {x s : State} (h : Erased x s) (target : Nat) (fails : WbFails) : Erased x (s.pmhRequest target fails) := by
  unfold State.pmhRequest
  dsimp only
  split
  · exact h.onPw _ rfl
  split
  · exact h.onPw _ rfl
  split
  · exact (h.tell _).send _
  split
  · exact goOff_erased h fails
  · exact serveState_erased h target

theorem afterStart_erased {x s : State} (h : Erased x s) : Erased x s.afterStart := by
  unfold State.afterStart
  split
  · exact .forEach (fun _ t hu => pmhRequest_erased hu t []) _ (h.onPw _ rfl)
  · exact h

/-! ## Resets -/

/-- The block as a reset with a cause leaves it. -/
def resetBy (s : State) (cause : Nat) : State := s.cleared.onPw fun w => { w with lastReset := cause }

theorem blockReset_bare (s : State) (cause : Nat) (firmware : Bool) (su : Startup) :
    Bare (resetBy (if firmware then s.onTel Telem.program else s) cause) (s.blockReset cause firmware su) :=
  startUp_bare (rfl : Bare (resetBy _ cause) (resetBy _ cause)) su _

theorem resetBlock_erases {p : Path} {s : State} (hgate : s.gate p Reg.resetCmd 2 = .open') (hroom : s.auditFull = false) (su : Startup) :
    let t := s.resetBlock p su
    t.pw.lastReset = 1 ∧ t.fe = {} ∧ t.tb = {} ∧ t.regs = [] ∧ t.st.sessions = [] ∧ t.fuses = s.fuses := by
  have heq : s.resetBlock p su = ((s.auditReg p Reg.resetCmd 0 1).blockReset 1 true su).afterStart := by
    unfold State.resetBlock
    rw [hgate, hroom]
    rfl
  rw [heq]
  obtain ⟨hfe, htb, hregs, hsessions, hreset, hfuses⟩ := afterStart_erased (blockReset_bare (s.auditReg p Reg.resetCmd 0 1) 1 true su).erased
  exact ⟨hreset, hfe, htb, hregs, hsessions, hfuses.trans ((auditReg_amid s p Reg.resetCmd 0 1).reads (fun u => u.fuses) fun _ => rfl)⟩

/-- A reference that stays away resets the block, whose start-up waits: for PLL_AON in step 2, else for the reference in step 3. -/
theorem refLoss_resets {s : State} (hawake : s.awake = true) (hgone : s.pw.refGone = true) (su : Startup) :
    let t := s.refLoss su
    t.pw.lastReset = 3 ∧ t.fe = {} ∧ t.tb = {} ∧ t.pw.ready = false ∧ (s.pw.aonBad = false → t.pw.step = 3) := by
  have heq : s.refLoss su = (s.blockReset 3 false su).afterStart := by
    unfold State.refLoss
    rw [hawake, hgone]
    rfl
  have hreset : s.blockReset 3 false su = (resetBy s 3).startUp su (bitb s.st.makerCtl 1) := rfl
  have hgone' : (resetBy s 3).pw.refGone = true := hgone
  rw [heq, hreset]
  unfold State.startUp
  rw [hgone', if_pos rfl]
  cases hbad : s.pw.aonBad with
  | true =>
    rw [if_pos (show (resetBy s 3).pw.aonBad = true from hbad), afterStart_of_notReady rfl]
    exact ⟨rfl, rfl, rfl, rfl, fun h => Bool.noConfusion h⟩
  | false =>
    rw [if_neg (show ¬(resetBy s 3).pw.aonBad = true from fun h => Bool.false_ne_true (hbad.symm.trans h)), afterStart_of_notReady rfl]
    exact ⟨rfl, rfl, rfl, rfl, fun _ => rfl⟩

theorem pllAon_resets {s : State} (hawake : s.awake = true) (hhere : s.pw.refGone = false) (hgood : s.pw.aonBad = false) (us : Nat)
    (su : Startup) : s.pllAon false us su =
      (((s.onPw fun w => { w with aonBad := true, aonOsc := true }).cleared).onPw fun w => { w with lastReset := 4 }).stuck 2 0 := by
  unfold State.pllAon
  rw [hawake, hhere, hgood]
  rfl

/-- Settles O55, reset by reset: a block that starts holds nothing volatile, and stays so. -/
theorem resetsAndStartUp : Obligations.ResetsAndStartUp := by
  unfold Obligations.ResetsAndStartUp
  refine ⟨?_, ?_, ?_, ?_, ?_, ?_, ?_, ?_, ?_⟩
  · intro su s hrails hmade hlock hhere hcores hgs hports hgrants haccepts
    exact ⟨_, exec_powerGood hrails hmade su, powered_readies hlock hhere hcores hgs hports hgrants haccepts⟩
  · intro su s hrails hmade hlock hhere hcores hgs hports hgrants hgated haccepts
    exact ⟨_, exec_powerGood hrails hmade su, powered_waits hlock hhere hcores hgs hports hgrants hgated haccepts⟩
  · intro su s hrails hmade hlock
    exact ⟨_, (exec_powerGood hrails hmade su).trans (congrArg Host.Outcome.next (powered_unlocked hlock)), rfl, rfl, rfl⟩
  · intro su s hrails hmade hlock hhere hA hB hR
    obtain ⟨hstuck, hready⟩ := powered_failed hlock hhere hA hB hR
    exact ⟨_, (exec_powerGood hrails hmade su).trans (congrArg Host.Outcome.next hstuck), hready, rfl, rfl⟩
  · intro p su s hgate hroom
    exact ⟨_, rfl, resetBlock_erases hgate hroom su⟩
  · intro su s hawake hgone
    exact ⟨_, rfl, refLoss_resets hawake hgone su⟩
  · intro us su s hawake hhere hgood
    exact ⟨_, congrArg Host.Outcome.next (pllAon_resets hawake hhere hgood us su), rfl, rfl, rfl, rfl⟩
  · intro s
    exact ⟨_, rfl, rfl⟩
  · intro s
    exact ⟨_, rfl, rfl, rfl, rfl, rfl, rfl, rfl, rfl, rfl⟩

end Sys2Proof.Proofs
end

section
/-!
PROOFS. O47: drives that attach, their commands' slots and outcomes, and their loss (R331 to R337, R442).
-/

namespace Sys2Proof.Proofs

open Sys2Proof Sys2Proof.Machine Sys2Proof.Laws

/-! ## A drive's record -/

theorem drive_onDrive_ne (s : State) {d j : Nat} (h : d ≠ j) (f : Drive → Drive) : (s.onDrive d f).drive j = s.drive j :=
  mgetD_mset_ne _ _ _ _ _ h

theorem drive_of_drives {s t : State} (h : t.fl.drives = s.fl.drives) (d : Nat) : t.drive d = s.drive d := by
  unfold State.drive
  rw [h]

theorem nvCmd_drive {s : State} {d tag : Nat} {c : NvCmd} (h : s.nvCmd d tag = some c) : c.drive = d ∧ c.tag = tag := by
  have hit := List.find?_some h
  obtain ⟨hd, ht⟩ := Bool.and_eq_true_iff.mp hit
  exact ⟨beq_iff_eq.mp hd, beq_iff_eq.mp ht⟩

theorem endCmd_cmds (s : State) (c : NvCmd) : (s.endCmd c).fl.cmds = s.fl.cmds.filter fun e => e.tag != c.tag := by
  unfold State.endCmd
  dsimp only
  split <;> rfl

theorem endCmd_fe (s : State) (c : NvCmd) : (s.endCmd c).fe = s.fe := by
  unfold State.endCmd
  dsimp only
  split <;> rfl

theorem endCmd_tel (s : State) (c : NvCmd) : (s.endCmd c).tel = s.tel := by
  unfold State.endCmd
  dsimp only
  split <;> rfl

theorem nvCmd_none {s : State} (d : Nat) {c : NvCmd} (h : s.fl.cmds = s.fl.cmds.filter fun e => e.tag != c.tag) : s.nvCmd d c.tag = none := by
  unfold State.nvCmd
  rw [List.find?_eq_none]
  intro e he hit
  rw [h] at he
  have hne := (List.mem_filter.mp he).2
  exact (bne_iff_ne.mp hne) (beq_iff_eq.mp (Bool.and_eq_true_iff.mp hit).2)

/-- An issued command gives its drive one slot back. -/
theorem endCmd_issued {s : State} {c : NvCmd} (h : c.issued = true) :
    (s.endCmd c).drive c.drive = { s.drive c.drive with used := (s.drive c.drive).used - 1 } := by
  unfold State.endCmd
  dsimp only
  rw [h, if_pos rfl]
  exact drive_onDrive_self ..

theorem endCmd_waiting {s : State} {c : NvCmd} (h : c.issued = false) : (s.endCmd c).fl.drives = s.fl.drives := by
  unfold State.endCmd
  dsimp only
  rw [h]
  rfl

/-- From s to t the drives differ in the slots they hold, at most. -/
def SlotsOnly (s t : State) : Prop := ∀ j, ∃ n, t.drive j = { s.drive j with used := n }

theorem SlotsOnly.refl (s : State) : SlotsOnly s s := fun j => ⟨(s.drive j).used, rfl⟩

theorem SlotsOnly.trans {s t u : State} (h : SlotsOnly s t) (h' : SlotsOnly t u) : SlotsOnly s u := fun j => by
  obtain ⟨m, hm⟩ := h j
  obtain ⟨n, hn⟩ := h' j
  exact ⟨n, by rw [hn, hm]⟩

theorem slotsOnly_of_drives {s t : State} (h : t.fl.drives = s.fl.drives) : SlotsOnly s t := fun j =>
  ⟨(s.drive j).used, drive_of_drives h j⟩

theorem endCmd_slotsOnly (s : State) (c : NvCmd) : SlotsOnly s (s.endCmd c) := by
  cases hc : c.issued with
  | false => exact slotsOnly_of_drives (endCmd_waiting hc)
  | true =>
    intro j
    by_cases hj : c.drive = j
    · subst hj
      exact ⟨_, endCmd_issued hc⟩
    · refine ⟨(s.drive j).used, ?_⟩
      unfold State.endCmd
      dsimp only
      rw [hc, if_pos rfl]
      exact drive_onDrive_ne _ hj _

/-! ## What an end of a command may add -/

/-- A command that waits for its first slot, for a descriptor. -/
structure Queued (x : NvCmd) : Prop where
  issued   : x.issued = false
  aborting : x.aborting = false
  own      : ∃ id, x.own = .desc id

/-- From s to t no command has come but a descriptor's that waits, the drives are the same, and the event queue has only grown. -/
structure Adds (s t : State) : Prop where
  cmds   : ∀ x ∈ t.fl.cmds, x ∈ s.fl.cmds ∨ Queued x
  drives : t.fl.drives = s.fl.drives
  grows  : Grows s t

theorem Adds.refl (s : State) : Adds s s := ⟨fun _ h => .inl h, rfl, .refl s⟩

theorem Adds.trans {s t u : State} (h : Adds s t) (h' : Adds t u) : Adds s u :=
  ⟨fun x hx => (h'.cmds x hx).elim (h.cmds x) .inr, h'.drives.trans h.drives, h.grows.trans h'.grows⟩

theorem Adds.of_fl {s t : State} (hcmds : t.fl.cmds = s.fl.cmds) (hdrives : t.fl.drives = s.fl.drives) (htel : Grows s t) : Adds s t :=
  ⟨fun _ hx => .inl (hcmds ▸ hx), hdrives, htel⟩

theorem queueCmd_adds (s : State) {c : NvCmd} (h : Queued c) : Adds s (s.queueCmd c) := by
  refine ⟨fun x hx => ?_, rfl, .refl s⟩
  rcases List.mem_append.mp hx with hx | hx
  · exact .inl hx
  · rw [List.mem_singleton.mp hx]
    exact .inr ⟨h.issued, h.aborting, h.own⟩

theorem flushNs_adds (s : State) (nsid id : Nat) : Adds s (s.flushNs nsid (.desc id)) := by
  unfold State.flushNs
  split
  · exact queueCmd_adds s ⟨rfl, rfl, id, rfl⟩
  · exact .refl s

theorem cmdEnds_adds (s : State) (c : NvCmd) (id : Nat) : Adds s (s.cmdEnds c id) := by
  unfold State.cmdEnds
  split
  · exact .refl s
  · dsimp only
    have hflush : Adds s (if c.kind = 1 then s.flushNs c.ns (.desc id) else s) := by
      split
      · exact flushNs_adds ..
      · exact .refl s
    generalize (if c.kind = 1 then s.flushNs c.ns (.desc id) else s) = u at hflush ⊢
    split
    · exact hflush
    · exact hflush.trans (.of_fl rfl rfl (.refl u))

/-! ### A window that goes on -/

theorem settleMember_adds (s : State) (w : PWin) (p : Pooled) :
    Grows s (s.settleMember w p).1 ∧ (s.settleMember w p).1.fl = s.fl := by
  have hfe : ∀ {t : State}, (hide (maskOfZones [.fe]) t = hide (maskOfZones [.fe]) s) → Grows s t ∧ t.fl = s.fl := fun h =>
    ⟨grows_of_tel (same_of_hide h .tel rfl), same_of_hide h .fl rfl⟩
  unfold State.settleMember
  split
  · exact ⟨.refl s, rfl⟩
  next d _ =>
  split
  · split
    · exact hfe (prefetchEnd_hide rfl ..)
    · exact ⟨.refl s, rfl⟩
  split
  · exact ⟨.refl s, rfl⟩
  split
  · exact hfe (failGather_hide rfl ..)
  split
  · split
    · refine ⟨?_, same_of_hide (holdDone_hide (M := butZone .fl) rfl rfl rfl ..) .fl rfl⟩
      unfold State.holdDone
      exact tell_grows (s.onSp _) _
    · exact ⟨.refl s, rfl⟩
  split
  · exact hfe (endGather_hide rfl ..)
  · exact ⟨.refl s, rfl⟩

theorem tidyWins_adds (s : State) : Adds s s.tidyWins := .of_fl rfl rfl (.refl s)

theorem settleWin_adds (s : State) (wid : Nat) : Grows s (s.settleWin wid) ∧ (s.settleWin wid).fl.cmds = s.fl.cmds ∧
    (s.settleWin wid).fl.drives = s.fl.drives := by
  unfold State.settleWin
  split
  · exact ⟨.refl s, rfl, rfl⟩
  next w _ =>
  have hmembers : ∀ l : List Pooled, Grows s (State.forEach (fun s p =>
      let r := s.settleMember w p
      if r.2 then r.1.onPwin wid fun x => x.without p.mem.id else s) l s) ∧ (State.forEach (fun s p =>
      let r := s.settleMember w p
      if r.2 then r.1.onPwin wid fun x => x.without p.mem.id else s) l s).fl = s.fl := fun l =>
    forEach_keeps (P := fun u => Grows s u ∧ u.fl = s.fl) l (fun u p _ hu => by
      obtain ⟨hgrows, hfl⟩ := settleMember_adds u w p
      dsimp only
      split
      · exact ⟨hu.1.trans hgrows, hfl.trans hu.2⟩
      · exact hu) s ⟨.refl s, rfl⟩
  obtain ⟨hgrows, hfl⟩ := hmembers w.members
  have hcmds := congrArg Flash.cmds hfl
  have hdrives := congrArg Flash.drives hfl
  exact ⟨hgrows, hcmds, hdrives⟩

theorem failRow_adds (s : State) (wid : Nat) (st : BitVec 8) (r : Key × Nat) : Grows s (s.failRow wid st r) ∧ (s.failRow wid st r).fl = s.fl := by
  have hpoison : ∀ (u : State) (h ver row : Nat), Grows u (u.poisonRow h ver row) ∧ (u.poisonRow h ver row).fl = u.fl := fun u h ver row =>
    ⟨(poisonRow_stays u h ver row).grows, same_of_hide (poisonRow_hide (M := butZone .fl) rfl rfl rfl ..) .fl rfl⟩
  unfold State.failRow
  dsimp only
  split
  · obtain ⟨hgrows, hfl⟩ := hpoison ((s.rowFails wid r.1 r.2 st).onPwin wid fun w =>
      { w with capped := w.capped.filter fun a => !(a.key == r.1 && a.ver == r.2) }) (keyTbl r.1) r.2 (keyRow r.1)
    exact ⟨hgrows, hfl⟩
  · exact ⟨.refl s, rfl⟩

theorem freeLanded_fl (s : State) (wid : Nat) : (s.freeLanded wid).fl.cmds = s.fl.cmds ∧ (s.freeLanded wid).fl.drives = s.fl.drives ∧
    (s.freeLanded wid).tel = s.tel := by
  unfold State.freeLanded
  split <;> exact ⟨rfl, rfl, rfl⟩

/-- The rows of a window's Read fail. -/
theorem failWindow_adds (s : State) (wid : Nat) (st : BitVec 8) (rows : List (Key × Nat)) :
    Grows s (((State.forEach (fun s r => s.failRow wid st r) rows s).freeLanded wid).settleWin wid) ∧
      (((State.forEach (fun s r => s.failRow wid st r) rows s).freeLanded wid).settleWin wid).fl.cmds = s.fl.cmds ∧
        (((State.forEach (fun s r => s.failRow wid st r) rows s).freeLanded wid).settleWin wid).fl.drives = s.fl.drives := by
  have hrows : Grows s (State.forEach (fun s r => s.failRow wid st r) rows s) ∧
      (State.forEach (fun s r => s.failRow wid st r) rows s).fl = s.fl :=
    forEach_keeps (P := fun u => Grows s u ∧ u.fl = s.fl) rows (fun u r _ hu => by
      obtain ⟨hgrows, hfl⟩ := failRow_adds u wid st r
      exact ⟨hu.1.trans hgrows, hfl.trans hu.2⟩) s ⟨.refl s, rfl⟩
  generalize State.forEach (fun s r => s.failRow wid st r) rows s = u at hrows ⊢
  obtain ⟨hcmds, hdrives, htel⟩ := freeLanded_fl u wid
  obtain ⟨hgrows, hcmds', hdrives'⟩ := settleWin_adds (u.freeLanded wid) wid
  exact ⟨hrows.1.trans ((grows_of_tel htel).trans hgrows), hcmds'.trans (hcmds.trans (congrArg Flash.cmds hrows.2)),
    hdrives'.trans (hdrives.trans (congrArg Flash.drives hrows.2))⟩

theorem failRows_adds (s : State) (c : NvCmd) (st : BitVec 8) : Adds s (s.failRows c st) := by
  unfold State.failRows
  split
  · obtain ⟨hgrows, hcmds, hdrives⟩ := failWindow_adds s ‹_› st c.rows
    exact .of_fl hcmds hdrives hgrows
  · exact .trans (t := s.onDesc _ _) (.of_fl rfl rfl (.refl s)) (cmdEnds_adds ..)
  · exact .refl s
  · exact .refl s

/-- Only a descriptor's command may be followed by a Flush. -/
theorem failRows_cmds {s : State} {c : NvCmd} (h : ∀ id, c.own ≠ .desc id) (st : BitVec 8) : (s.failRows c st).fl.cmds = s.fl.cmds := by
  unfold State.failRows
  split
  · exact (failWindow_adds s _ st c.rows).2.1
  · next id hid => exact absurd hid (h id)
  · rfl
  · rfl

theorem tell_adds (s : State) (ops : List TelOp) : Adds s (s.tell ops) := .of_fl rfl rfl (tell_grows s ops)

/-! ## Attach -/

theorem exec_autoAttach {s : State} {d : Nat} {i : DriveInfo} (hauto : s.autoAttach = true) (hmay : s.mayAttach d i = true) :
    exec (.autoAttach d i) s = .next (s.attach d i) := by
  change Host.Outcome.next (if s.autoAttach && s.mayAttach d i then _ else _) = _
  rw [hauto, hmay]
  rfl

theorem attach_raises {s : State} {d : Nat} {i : DriveInfo} (hcheck : s.attachCheck d i = none) (hnone : i.nss = []) :
    State.raised s (s.attach d i) 0xC01 := by
  have htel : (s.identify d i).tel = s.tel := by
    unfold State.identify
    dsimp only
    split <;> rfl
  have hcheck' : (s.identify d i).attachCheck d i = none := ((identify_amid s d i).reads (fun u => u.attachCheck d i) fun _ => rfl).trans hcheck
  unfold State.attach
  dsimp only
  rw [hcheck', hnone]
  exact raised_first (u := State.onDrive (State.createQueues ..) _ _) htel rfl [] rfl

theorem attach_refuses {s : State} {d r : Nat} {i : DriveInfo} (hcheck : s.attachCheck d i = some r) :
    ((s.attach d i).drive d).state = .refused ∧ ((s.attach d i).drive d).reason = r ∧ State.raised s (s.attach d i) 0xC02 := by
  have htel : (s.identify d i).tel = s.tel := by
    unfold State.identify
    dsimp only
    split <;> rfl
  have hcheck' : (s.identify d i).attachCheck d i = some r :=
    ((identify_amid s d i).reads (fun u => u.attachCheck d i) fun _ => rfl).trans hcheck
  unfold State.attach
  dsimp only
  rw [hcheck']
  dsimp only
  generalize hv : (if r = Refuse.queueFail then State.createQueues (s.identify d i) d _ _ else s.identify d i) = v
  have hvtel : v.tel = s.tel := by
    rw [← hv]
    split
    · exact htel
    · exact htel
  have hdrive : (v.onDrive d fun _ => { state := .refused, port := i.port, reason := r }).drive d =
      { state := .refused, port := i.port, reason := r } := drive_onDrive_self ..
  refine ⟨congrArg Drive.state hdrive, congrArg Drive.reason hdrive, ?_⟩
  exact raised_first (u := v.onDrive d _) hvtel rfl [] rfl

/-! ## Slots -/

/-- A command goes to its drive, over the next of its queues, and a Write with its data. -/
theorem submit_submits (s : State) (c : NvCmd) :
    (s.submit c).fl = (s.onDrive c.drive fun y => { y with nextQ := (y.nextQ + 1) % max 1 (s.drive c.drive).queues }).fl ∧
      (s.submit c).out = (if c.kind = 1 then [.blockWrite c.drive c.tag c.ns c.lba c.data] else []) ++
        .flash c.drive c.tag c.kind c.ns c.lba c.blocks ((s.drive c.drive).nextQ % max 1 (s.drive c.drive).queues + 1) (s.prpList c) ::
          s.out := by
  unfold State.submit
  dsimp only
  split
  · have hfl : ((s.sendCmd c).stageWrite c).fl = (s.sendCmd c).fl := same_of_hide (stageWrite_hide (M := butZone .fl) rfl rfl ..) .fl rfl
    have hout : ((s.sendCmd c).stageWrite c).out = (s.sendCmd c).out := same_of_hide (stageWrite_hide (M := butZone .out) rfl rfl ..) .out rfl
    exact ⟨hfl, congrArg _ hout⟩
  · exact ⟨rfl, rfl⟩

/-- A command has taken a slot of its drive. -/
def slotTaken (s : State) (c : NvCmd) : State :=
  (s.onCmd c fun e => { e with issued := true }).onDrive c.drive fun x => { x with used := x.used + 1 }

theorem slotGrant_grants {s : State} {d : Nat} {c : NvCmd} (hfind : s.fl.cmds.find? (fun c => c.drive == d && !c.issued) = some c)
    (hready : (s.drive d).state = .ready) (hfree : s.slotFree d = true) (hland : s.landingFree c = true) :
    c.drive = d ∧ s.slotGrant d = (slotTaken s c).submit c := by
  have hd : c.drive = d := beq_iff_eq.mp (Bool.and_eq_true_iff.mp (List.find?_some (p := fun c : NvCmd => c.drive == d && !c.issued) hfind)).1
  refine ⟨hd, ?_⟩
  unfold State.slotGrant slotTaken
  rw [hfind]
  dsimp only
  rw [hready, hland, hfree, hd]
  rfl

theorem slotTaken_drive (s : State) (c : NvCmd) :
    (slotTaken s c).drive c.drive = { s.drive c.drive with used := (s.drive c.drive).used + 1 } := drive_onDrive_self ..

theorem granted_drive (s : State) (c : NvCmd) : ((slotTaken s c).submit c).drive c.drive =
    { s.drive c.drive with
      used := (s.drive c.drive).used + 1, nextQ := ((s.drive c.drive).nextQ + 1) % max 1 (s.drive c.drive).queues } := by
  refine (drive_of_drives (congrArg Flash.drives (submit_submits ..).1) c.drive).trans ?_
  rw [drive_onDrive_self, slotTaken_drive]

theorem granted_out (s : State) (c : NvCmd) : ((slotTaken s c).submit c).out =
    (if c.kind = 1 then [.blockWrite c.drive c.tag c.ns c.lba c.data] else []) ++
      .flash c.drive c.tag c.kind c.ns c.lba c.blocks ((s.drive c.drive).nextQ % max 1 (s.drive c.drive).queues + 1) (s.prpList c) ::
        s.out := by
  have hsub := (submit_submits (slotTaken s c) c).2
  rw [slotTaken_drive] at hsub
  exact hsub

/-! ## A command that succeeds -/

theorem nvmeDone_success {s : State} {d tag : Nat} {c : NvCmd} (hcmd : s.nvCmd d tag = some c) (hready : (s.drive d).state = .ready)
    (hissued : c.issued = true) (habort : c.aborting = false) (data : Bytes) :
    exec (.nvmeCompletion d tag .success data) s = .next (s.readDone c data) := by
  refine congrArg Host.Outcome.next ?_
  unfold State.nvmeDone
  rw [if_neg (not_not_intro hready), if_neg (by decide), hcmd]
  dsimp only
  rw [hissued, habort]
  rfl

/-- A block of a Read as it lands. -/
def landing (wid : Nat) (c : NvCmd) (data : Bytes) (i : Nat) : Landed :=
  { wid := wid, ns := c.ns, lba := c.lba + i, data := slice data (i * 4096) 4096 }

theorem landBlocks_lands (s : State) (wid : Nat) (c : NvCmd) (data : Bytes) :
    (s.landBlocks wid c data).fl.cmds = s.fl.cmds ∧ (s.landBlocks wid c data).fl.drives = s.fl.drives ∧
      ((s.pwin wid).isSome = true → ∀ i, i < c.blocks → landing wid c data i ∈ (s.landBlocks wid c data).fl.landed) := by
  have hnote : ∀ (u : State) (i : Nat), (u.noteLand c.ns (c.lba + i) 0 4096 true false).fl = u.fl := fun u i =>
    same_of_hide (noteLand_hide (M := butZone .fl) rfl rfl ..) .fl rfl
  have hstep : ∀ (l : List Nat) (u : State), (State.forEach (fun s i =>
      (s.noteLand c.ns (c.lba + i) 0 4096 true false).onFl fun f => { f with landed := f.landed ++ [landing wid c data i] }) l u).fl =
      { u.fl with landed := u.fl.landed ++ l.map (landing wid c data) } := fun l => by
    induction l with
    | nil =>
      intro u
      rw [List.map_nil, List.append_nil]
      rfl
    | cons i l ih =>
      intro u
      have hone : ((u.noteLand c.ns (c.lba + i) 0 4096 true false).onFl fun f =>
          { f with landed := f.landed ++ [landing wid c data i] }).fl = { u.fl with landed := u.fl.landed ++ [landing wid c data i] } :=
        congrArg (fun f : Flash => { f with landed := f.landed ++ [landing wid c data i] }) (hnote u i)
      rw [State.forEach, ih, hone]
      exact congrArg (fun l => ({ u.fl with landed := l } : Flash)) (List.append_assoc u.fl.landed [landing wid c data i] _)
  unfold State.landBlocks
  split
  · next hnone => exact ⟨rfl, rfl, fun h => by rw [Option.isSome_iff_ne_none] at h; exact absurd (Option.isNone_iff_eq_none.mp hnone) h⟩
  · have hfl := hstep (List.range c.blocks) s
    have hcmds := congrArg Flash.cmds hfl
    have hdrives := congrArg Flash.drives hfl
    have hlanded := congrArg Flash.landed hfl
    refine ⟨hcmds, hdrives, fun _ i hi => ?_⟩
    exact hlanded ▸ List.mem_append_right _ (List.mem_map.mpr ⟨i, List.mem_range.mpr hi, rfl⟩)

/-- A block that a row of its window still needs is kept. -/
theorem freeLanded_keeps {s : State} {win : PWin} {x : Landed} (hwin : s.pwin x.wid = some win) (hx : x ∈ s.fl.landed)
    (hneed : ∃ e ∈ win.needsLanding, (s.landsOf e.1 e.2).1 = x.ns ∧ x.lba ∈ (s.landsOf e.1 e.2).2.map (·.1)) :
    x ∈ (s.freeLanded x.wid).fl.landed := by
  obtain ⟨e, he, hns, hlba⟩ := hneed
  obtain ⟨b, hb, hblock⟩ := List.mem_map.mp hlba
  unfold State.freeLanded
  rw [hwin]
  dsimp only
  refine List.mem_filter.mpr ⟨hx, ?_⟩
  rw [Bool.or_eq_true, List.contains_iff_mem]
  refine .inr (List.mem_flatMap.mpr ⟨e, he, ?_⟩)
  rw [← hns, ← hblock]
  exact List.mem_map.mpr ⟨b, hb, rfl⟩

theorem landsOf_of_tb {s t : State} (h : t.tb = s.tb) (k : Key) (ver : Nat) : t.landsOf k ver = s.landsOf k ver := by
  unfold State.landsOf State.table
  rw [h]

theorem pwin_of_sp {s t : State} (h : t.sp = s.sp) (wid : Nat) : t.pwin wid = s.pwin wid := by
  unfold State.pwin
  rw [h]

/-- A window's Read that succeeds: its slot is free, and the blocks that rows still need have landed. -/
theorem readDone_lands {s : State} {d tag w : Nat} {c : NvCmd} (hcmd : s.nvCmd d tag = some c) (hissued : c.issued = true)
    (hown : c.own = .window w) (data : Bytes) :
    (s.readDone c data).nvCmd d tag = none ∧ ((s.readDone c data).drive d).used = (s.drive d).used - 1 ∧
      ∀ (win : PWin) (i : Nat), s.pwin w = some win → i < c.blocks →
        (∃ e ∈ win.needsLanding, (s.landsOf e.1 e.2).1 = c.ns ∧ c.lba + i ∈ (s.landsOf e.1 e.2).2.map (·.1)) →
        landing w c data i ∈ (s.readDone c data).fl.landed := by
  obtain ⟨rfl, rfl⟩ := nvCmd_drive hcmd
  obtain ⟨-, hdrives, hlanded⟩ := landBlocks_lands s w c data
  have heq : s.readDone c data = (((s.landBlocks w c data).endCmd c).tell c.counts).freeLanded w := by
    unfold State.readDone
    rw [hown]
  generalize hu : ((s.landBlocks w c data).endCmd c).tell c.counts = u at heq
  obtain ⟨hcmds, hdrives', -⟩ := freeLanded_fl u w
  have hucmds : u.fl.cmds = (s.landBlocks w c data).fl.cmds.filter fun e => e.tag != c.tag := hu ▸ endCmd_cmds (s.landBlocks w c data) c
  have hudrive : u.drive c.drive = { s.drive c.drive with used := (s.drive c.drive).used - 1 } := by
    rw [← hu]
    refine (endCmd_issued (s := s.landBlocks w c data) hissued).trans ?_
    rw [drive_of_drives hdrives]
  have hends : hide (maskOfZones [.gs, .fl, .tel]) u = hide (maskOfZones [.gs, .fl, .tel]) s := by
    rw [← hu]
    refine (tell_hide rfl _ _).trans ((endCmd_hide rfl _ _).trans (landBlocks_hide rfl rfl rfl ..))
  rw [heq]
  refine ⟨?_, ?_, fun win i hwin hi hneed => ?_⟩
  · refine nvCmd_none c.drive ?_
    rw [hcmds, hucmds, List.filter_filter]
    simp only [Bool.and_self]
  · rw [drive_of_drives hdrives', hudrive]
  · have hland : landing w c data i ∈ u.fl.landed := by
      have hkeep : u.fl.landed = (s.landBlocks w c data).fl.landed := by
        rw [← hu]
        change ((s.landBlocks w c data).endCmd c).fl.landed = _
        unfold State.endCmd
        dsimp only
        split <;> rfl
      rw [hkeep]
      exact hlanded (by rw [hwin]; rfl) i hi
    have hlands : ∀ k ver, u.landsOf k ver = s.landsOf k ver := landsOf_of_tb (same_of_hide hends .tb rfl)
    refine freeLanded_keeps (x := landing w c data i) ((pwin_of_sp (same_of_hide hends .sp rfl) w).trans hwin) hland ?_
    simp only [hlands]
    exact hneed

/-! ### A descriptor's Write or Flush -/

theorem unpoison_only (s : State) (tbl ver row : Nat) : (s.unpoison tbl ver row).fl = s.fl ∧ (s.unpoison tbl ver row).fe = s.fe := ⟨rfl, rfl⟩

/-- The command is gone, its counts are told and its rows are not poisoned. -/
def written (s : State) (c : NvCmd) : State :=
  State.forEach (fun s (r : Key × Nat) => s.unpoison (keyTbl r.1) r.2 (keyRow r.1)) c.rows ((s.endCmd c).tell c.counts)

theorem written_only (s : State) (c : NvCmd) : (written s c).fl = (s.endCmd c).fl ∧ (written s c).fe = s.fe := by
  unfold written
  refine forEach_keeps (P := fun u => u.fl = (s.endCmd c).fl ∧ u.fe = s.fe) c.rows ?_ _ ⟨rfl, endCmd_fe s c⟩
  exact fun _ _ _ hu => hu

theorem volatile_of_fl {s t : State} (hslots : SlotsOnly s t) (hnss : t.fl.nss = s.fl.nss) (ns : Nat) : t.volatile ns = s.volatile ns := by
  have hof : t.driveOf ns = s.driveOf ns := by
    unfold State.driveOf
    rw [hnss]
  unfold State.volatile
  rw [hof]
  obtain ⟨n, hn⟩ := hslots (s.driveOf ns)
  rw [hn]

theorem endCmd_nss (s : State) (c : NvCmd) : (s.endCmd c).fl.nss = s.fl.nss := by
  unfold State.endCmd
  dsimp only
  split <;> rfl

/-- The last command of a descriptor, where no Flush is due: the descriptor is done. -/
theorem cmdEnds_done {s : State} {c : NvCmd} {id : Nat} {e : Desc} (hout : s.cmdOut (.desc id) = false) (hdesc : s.desc id = some e)
    (hstage : e.stage = .filling) (hflush : c.kind ≠ 1 ∨ s.volatile c.ns = false) :
    s.cmdEnds c id = s.onDesc id fun x => { x with stage := .finished } := by
  have hsame : (if c.kind = 1 then s.flushNs c.ns (.desc id) else s) = s := by
    split
    · next hk =>
      unfold State.flushNs
      rw [hflush.resolve_left (not_not_intro hk), Bool.false_and]
      rfl
    · rfl
  unfold State.cmdEnds
  dsimp only
  rw [hsame, hout, hdesc, Option.any_some, hstage]
  rfl

/-- Else a Flush is queued for it. -/
theorem cmdEnds_flushes {s : State} {c : NvCmd} {id : Nat} {e : Desc} (hout : s.cmdOut (.desc id) = false) (hdesc : s.desc id = some e)
    (hstage : e.stage = .filling) (hkind : c.kind = 1) (hvol : s.volatile c.ns = true) :
    s.cmdEnds c id =
      s.queueCmd { drive := s.driveOf c.ns, kind := 2, ns := c.ns, lba := 0, blocks := 0, rows := [], own := .desc id } := by
  have hnone : (s.fl.cmds.any fun c' => c'.own == .desc id && c'.kind == 2 && c'.drive == s.driveOf c.ns) = false := by
    rw [List.any_eq_false]
    intro x hx hit
    have hown : x.own == .desc id := (Bool.and_eq_true_iff.mp (Bool.and_eq_true_iff.mp hit).1).1
    exact List.any_eq_false.mp hout x hx hown
  have hqueued : s.flushNs c.ns (.desc id) =
      s.queueCmd { drive := s.driveOf c.ns, kind := 2, ns := c.ns, lba := 0, blocks := 0, rows := [], own := .desc id } := by
    unfold State.flushNs
    rw [hvol, hnone]
    rfl
  have hmine : (s.queueCmd { drive := s.driveOf c.ns, kind := 2, ns := c.ns, lba := 0, blocks := 0, rows := [], own := .desc id }).cmdOut
      (.desc id) = true := List.any_eq_true.mpr ⟨_, List.mem_append_right _ List.mem_cons_self, beq_self_eq_true _⟩
  unfold State.cmdEnds
  dsimp only
  rw [if_pos hkind, hqueued, hout, hdesc, Option.any_some, hstage, hmine]
  rfl

/-- A descriptor's last command that succeeds. -/
theorem readDone_writes {s : State} {d tag id : Nat} {c : NvCmd} {e : Desc} (hcmd : s.nvCmd d tag = some c) (hissued : c.issued = true)
    (hown : c.own = .desc id) (hdesc : s.desc id = some e) (hstage : e.stage = .filling)
    (hlast : ∀ x ∈ s.fl.cmds, x.own = .desc id → x.tag = tag) (data : Bytes) :
    ((s.readDone c data).drive d).used = (s.drive d).used - 1 ∧
      ((c.kind ≠ 1 ∨ s.volatile c.ns = false) →
        (s.readDone c data).nvCmd d tag = none ∧ (s.readDone c data).desc id = some { e with stage := .finished }) ∧
      (c.kind = 1 → s.volatile c.ns = true → (s.readDone c data).desc id = some e ∧
        ∃ f ∈ (s.readDone c data).fl.cmds, f.own = .desc id ∧ f.kind = 2 ∧ f.ns = c.ns ∧ f.issued = false) := by
  obtain ⟨rfl, rfl⟩ := nvCmd_drive hcmd
  have heq : s.readDone c data = (written s c).cmdEnds c id := by
    unfold State.readDone
    rw [hown]
    rfl
  obtain ⟨hfl, hfe⟩ := written_only s c
  have hcmds : (written s c).fl.cmds = s.fl.cmds.filter fun e => e.tag != c.tag := (congrArg Flash.cmds hfl).trans (endCmd_cmds s c)
  have hdrive : (written s c).drive c.drive = { s.drive c.drive with used := (s.drive c.drive).used - 1 } :=
    (drive_of_drives (congrArg Flash.drives hfl) c.drive).trans (endCmd_issued hissued)
  have hslots : SlotsOnly s (written s c) := (endCmd_slotsOnly s c).trans (slotsOnly_of_drives (congrArg Flash.drives hfl))
  have hvol : ∀ ns, (written s c).volatile ns = s.volatile ns :=
    volatile_of_fl hslots ((congrArg Flash.nss hfl).trans (endCmd_nss s c))
  have hdesc' : (written s c).desc id = some e := (desc_of_fe hfe id).trans hdesc
  have hout : (written s c).cmdOut (.desc id) = false := by
    unfold State.cmdOut
    rw [hcmds, List.any_eq_false]
    intro x hx hit
    obtain ⟨hmem, hne⟩ := List.mem_filter.mp hx
    exact bne_iff_ne.mp hne (hlast x hmem (beq_iff_eq.mp hit))
  have hused := (cmdEnds_adds (written s c) c id).drives
  rw [heq]
  refine ⟨?_, fun hflush => ?_, fun hkind hv => ?_⟩
  · rw [drive_of_drives hused, hdrive]
  · rw [cmdEnds_done hout hdesc' hstage (hflush.imp_right fun h => (hvol _).trans h)]
    refine ⟨nvCmd_none c.drive ?_, desc_onDesc_self hdesc' fun _ => rfl⟩
    change (written s c).fl.cmds = (written s c).fl.cmds.filter fun e => e.tag != c.tag
    rw [hcmds, List.filter_filter]
    simp only [Bool.and_self]
  · rw [cmdEnds_flushes hout hdesc' hstage hkind ((hvol _).trans hv)]
    exact ⟨hdesc', _, List.mem_append_right _ List.mem_cons_self, rfl, rfl, rfl, rfl⟩

/-! ## Timeouts -/

/-- The Abort of a command is sent. -/
def abortSent (s : State) (c : NvCmd) : State := (s.onCmd c fun e => { e with aborting := true }).sendAbort c

theorem cmdTimeout_aborts {s : State} {d tag : Nat} {c : NvCmd} (hcmd : s.nvCmd d tag = some c) (hissued : c.issued = true)
    (habort : c.aborting = false) :
    s.cmdTimeout d tag = (((abortSent s c).count Ctr.flTimeout).tell c.failCounts).failRows c St.dmaTimeout := by
  unfold State.cmdTimeout
  rw [hcmd]
  dsimp only
  rw [hissued, habort]
  rfl

theorem cmdTimeout_keeps {s : State} {d tag : Nat} {c : NvCmd} (hcmd : s.nvCmd d tag = some c) (hissued : c.issued = true)
    (habort : c.aborting = false) :
    Output.flash d tag 3 c.ns c.lba c.blocks 0 [] ∈ (s.cmdTimeout d tag).out ∧ ((s.cmdTimeout d tag).drive d).used = (s.drive d).used := by
  rw [cmdTimeout_aborts hcmd hissued habort]
  obtain ⟨rfl, rfl⟩ := nvCmd_drive hcmd
  constructor
  · have hgrew : (abortSent s c).out <:+ ((((abortSent s c).count Ctr.flTimeout).tell c.failCounts).failRows c St.dmaTimeout).out :=
      failRows_grew (u := abortSent s c) _ c St.dmaTimeout List.suffix_rfl
    exact hgrew.subset List.mem_cons_self
  · rw [drive_of_drives (failRows_adds ..).drives]
    rfl

/-! ## A controller's reset -/

/-- One outstanding command fails as its drive's controller is reset. -/
def failOne (s : State) (c : NvCmd) : State :=
  if c.issued then ((s.onCmd c fun e => { e with aborting := true }).tell c.failCounts).failRows c St.dmaTimeout
  else ((s.endCmd c).tell c.failCounts).failRows c St.tierUnreachable

theorem failOne_drives (s : State) (c : NvCmd) : (failOne s c).fl.drives = s.fl.drives := by
  unfold failOne
  split
  · exact (failRows_adds ..).drives
  · next h => exact (failRows_adds ..).drives.trans (endCmd_waiting (Bool.eq_false_iff.mpr h))

/-- Each issued command of the drive d that has not timed out has its tag among those of the list's issued commands. -/
def Outstanding (d : Nat) (l : List NvCmd) (s : State) : Prop :=
  ∀ x ∈ s.fl.cmds, x.drive = d → x.issued = true → x.aborting = false → ∃ c ∈ l, c.issued = true ∧ c.tag = x.tag

theorem Outstanding.adds {d : Nat} {l : List NvCmd} {s t : State} (h : Outstanding d l s) (ht : Adds s t) : Outstanding d l t := by
  intro x hx hd hissued habort
  rcases ht.cmds x hx with hx | hx
  · exact h x hx hd hissued habort
  · exact absurd (hx.issued.symm.trans hissued) Bool.false_ne_true

theorem failOne_outstanding {d : Nat} {c : NvCmd} {l : List NvCmd} {s : State} (h : Outstanding d (c :: l) s) :
    Outstanding d l (failOne s c) := by
  unfold failOne
  split
  · refine Outstanding.adds (s := s.onCmd c fun e => { e with aborting := true }) ?_ ((tell_adds _ c.failCounts).trans (failRows_adds ..))
    intro x hx hd hissued habort
    obtain ⟨y, hy, rfl⟩ := List.mem_map.mp hx
    by_cases htag : y.tag = c.tag
    · rw [if_pos htag] at habort
      exact Bool.noConfusion habort
    · rw [if_neg htag] at hd hissued habort ⊢
      obtain ⟨e, he, heissued, hetag⟩ := h y hy hd hissued habort
      rcases List.mem_cons.mp he with rfl | he
      · exact absurd hetag.symm htag
      · exact ⟨e, he, heissued, hetag⟩
  · next hwaiting =>
    refine Outstanding.adds (s := s.endCmd c) ?_ ((tell_adds _ c.failCounts).trans (failRows_adds ..))
    intro x hx hd hissued habort
    rw [endCmd_cmds] at hx
    obtain ⟨e, he, heissued, hetag⟩ := h x (List.mem_filter.mp hx).1 hd hissued habort
    rcases List.mem_cons.mp he with rfl | he
    · exact absurd heissued hwaiting
    · exact ⟨e, he, heissued, hetag⟩

theorem failOut_fails (d : Nat) (l : List NvCmd) (s : State) (h : Outstanding d l s) :
    Outstanding d [] (State.forEach failOne l s) ∧ (State.forEach failOne l s).fl.drives = s.fl.drives := by
  induction l generalizing s with
  | nil => exact ⟨h, rfl⟩
  | cons c l ih =>
    obtain ⟨hnone, hdrives⟩ := ih (failOne s c) (failOne_outstanding h)
    exact ⟨hnone, hdrives.trans (failOne_drives s c)⟩

theorem resetDrive_resets (s : State) (d : Nat) : ((s.resetDrive d).drive d).state = .resetting ∧
    ((s.resetDrive d).drive d).used = (s.drive d).used ∧
      ∀ x ∈ (s.resetDrive d).fl.cmds, x.drive = d → x.issued = true → x.aborting = true := by
  generalize hu : (s.onDrive d fun x => { x with state := .resetting }).count Ctr.flCtrlReset = u
  have hdrive : u.drive d = { s.drive d with state := .resetting } := by
    rw [← hu]
    exact drive_onDrive_self s d fun x => { x with state := .resetting }
  have heq : s.resetDrive d = State.forEach failOne (u.fl.cmds.filter fun c => c.drive == d && !c.aborting) u := by
    rw [← hu]
    rfl
  have hstart : Outstanding d (u.fl.cmds.filter fun c => c.drive == d && !c.aborting) u := by
    intro x hx hd hissued habort
    refine ⟨x, List.mem_filter.mpr ⟨hx, ?_⟩, hissued, rfl⟩
    rw [hd, habort, beq_self_eq_true]
    rfl
  obtain ⟨hnone, hdrives⟩ := failOut_fails d _ u hstart
  rw [heq, drive_of_drives hdrives, hdrive]
  refine ⟨rfl, rfl, fun x hx hd hissued => ?_⟩
  cases habort : x.aborting with
  | true => rfl
  | false =>
    obtain ⟨c, hc, -⟩ := hnone x hx hd hissued habort
    exact absurd hc List.not_mem_nil

/-! ## A drive that is lost -/

/-- One command ends as its drive is lost. -/
def loseOne (s : State) (c : NvCmd) : State :=
  if c.aborting then s.dropCmd c else ((s.endCmd c).tell c.failCounts).failRows c St.tierUnreachable

theorem dropCmd_adds (s : State) (c : NvCmd) : Adds (s.endCmd c) (s.dropCmd c) := by
  unfold State.dropCmd
  split
  · exact cmdEnds_adds ..
  · exact .refl _

theorem loseOne_adds (s : State) (c : NvCmd) : Adds (s.endCmd c) (loseOne s c) := by
  unfold loseOne
  split
  · exact dropCmd_adds s c
  · exact (tell_adds _ c.failCounts).trans (failRows_adds ..)

theorem loseOne_cmds {s : State} {c : NvCmd} (h : ∀ id, c.own ≠ .desc id) : (loseOne s c).fl.cmds = s.fl.cmds.filter fun e => e.tag != c.tag := by
  unfold loseOne
  split
  · unfold State.dropCmd
    split
    · next id hid => exact absurd hid (h id)
    · exact endCmd_cmds s c
  · exact (failRows_cmds h _).trans (endCmd_cmds s c)

/-- Each command that P picks has its tag among those of the list. -/
def Listed (P : NvCmd → Prop) (l : List NvCmd) (s : State) : Prop := ∀ x ∈ s.fl.cmds, P x → ∃ c ∈ l, c.tag = x.tag

theorem listed_ended {P : NvCmd → Prop} {c : NvCmd} {l : List NvCmd} {s : State} (h : Listed P (c :: l) s) : Listed P l (s.endCmd c) := by
  intro x hx hp
  rw [endCmd_cmds] at hx
  obtain ⟨hmem, hne⟩ := List.mem_filter.mp hx
  obtain ⟨e, he, hetag⟩ := h x hmem hp
  rcases List.mem_cons.mp he with rfl | he
  · exact absurd hetag.symm (bne_iff_ne.mp hne)
  · exact ⟨e, he, hetag⟩

theorem Listed.adds {P : NvCmd → Prop} (hP : ∀ x, Queued x → ¬ P x) {l : List NvCmd} {s t : State} (h : Listed P l s) (ht : Adds s t) :
    Listed P l t := fun x hx hp => (ht.cmds x hx).elim (fun hx => h x hx hp) fun hq => absurd hp (hP x hq)

theorem listed_nil {P : NvCmd → Prop} {s : State} (h : Listed P [] s) : ∀ x ∈ s.fl.cmds, ¬ P x := fun x hx hp => by
  obtain ⟨c, hc, -⟩ := h x hx hp
  exact absurd hc List.not_mem_nil

/-- The commands of a list end, one by one, each followed at most by a Flush that waits. -/
theorem ends_all {f : State → NvCmd → State} (hf : ∀ s c, Adds (s.endCmd c) (f s c)) {P : NvCmd → Prop} (hP : ∀ x, Queued x → ¬ P x)
    (l : List NvCmd) (s : State) (h : Listed P l s) :
    Listed P [] (State.forEach f l s) ∧ SlotsOnly s (State.forEach f l s) ∧ Grows s (State.forEach f l s) := by
  induction l generalizing s with
  | nil => exact ⟨h, .refl s, .refl s⟩
  | cons c l ih =>
    have hstep := hf s c
    obtain ⟨hnone, hslots, hgrows⟩ := ih (f s c) ((listed_ended h).adds hP hstep)
    refine ⟨hnone, ((endCmd_slotsOnly s c).trans (slotsOnly_of_drives hstep.drives)).trans hslots, ?_⟩
    exact ((grows_of_tel (endCmd_tel s c)).trans hstep.grows).trans hgrows

theorem loses_all (P : NvCmd → Prop) (l : List NvCmd) (hl : ∀ c ∈ l, ∀ id, c.own ≠ .desc id) (s : State) (h : Listed P l s) :
    Listed P [] (State.forEach loseOne l s) := by
  induction l generalizing s with
  | nil => exact h
  | cons c l ih =>
    refine ih (fun e he => hl e (List.mem_cons_of_mem c he)) (loseOne s c) ?_
    intro x hx hp
    rw [loseOne_cmds (hl c List.mem_cons_self), ← endCmd_cmds] at hx
    exact listed_ended h x hx hp

theorem mine_listed {P : NvCmd → Prop} {d : Nat} (hP : ∀ x, P x → x.drive = d) (s : State) :
    Listed P (s.fl.cmds.filter fun c => c.drive == d) s := fun x hx hp =>
  ⟨x, List.mem_filter.mpr ⟨hx, beq_iff_eq.mpr (hP x hp)⟩, rfl⟩

theorem driveDown_loses (s : State) (d : Nat) : ((s.driveDown d).drive d).state = .down ∧
    (∀ x ∈ (s.driveDown d).fl.cmds, x.drive = d → x.issued = false) ∧
      ((∀ x ∈ s.fl.cmds, x.drive = d → ∀ id, x.own ≠ .desc id) → ∀ x ∈ (s.driveDown d).fl.cmds, x.drive ≠ d) ∧
        State.raised s (s.driveDown d) 0xC03 := by
  generalize hv : s.onDrive d (fun x => { x with state := .down, used := 0, fails := 0 }) = v
  generalize hu : v.tell [v.flEvent 0xC03 d 0 0] = u
  have hcmds : u.fl.cmds = s.fl.cmds := by
    rw [← hu, ← hv]
    rfl
  have hdown : (u.drive d).state = .down := by
    have hset := congrArg Drive.state (drive_onDrive_self s d fun x => { x with state := .down, used := 0, fails := 0 })
    rw [← hu, ← hv]
    exact hset
  have heq : s.driveDown d = State.forEach loseOne (u.fl.cmds.filter fun c => c.drive == d) u := by
    rw [← hu, ← hv]
    rfl
  obtain ⟨hnone, hslots, hgrows⟩ := ends_all (P := fun x => x.drive = d ∧ x.issued = true) loseOne_adds
    (fun x hq hp => Bool.false_ne_true (hq.issued.symm.trans hp.2)) _ u (mine_listed (fun _ hp => hp.1) u)
  rw [heq]
  refine ⟨?_, fun x hx hd => ?_, fun hwin x hx hd => ?_, ?_⟩
  · obtain ⟨n, hn⟩ := hslots d
    rw [hn]
    exact hdown
  · exact Bool.eq_false_iff.mpr fun hissued => listed_nil hnone x hx ⟨hd, hissued⟩
  · have hlist : ∀ c ∈ u.fl.cmds.filter (fun c => c.drive == d), ∀ id, c.own ≠ .desc id := fun c hc => by
      obtain ⟨hmem, hdrive⟩ := List.mem_filter.mp hc
      exact hwin c (hcmds ▸ hmem) (beq_iff_eq.mp hdrive)
    exact listed_nil (loses_all (fun x => x.drive = d) _ hlist u (mine_listed (fun _ hp => hp) u)) x hx hd
  · have hvtel : v.tel = s.tel := by
      rw [← hv]
      rfl
    rw [← hu] at hgrows ⊢
    refine raised_amid (u := v) own_mem_actionCounters (ops := []) (rest := [])
      (e := { code := 0xC03, ring := none, data := evData [(8, 4, d), (12, 4, (v.drive d).port), (16, 4, 0), (24, 8, 0)] }) rfl
      (congrArg Telem.evtRing hvtel) (hvtel ▸ List.prefix_rfl) (calm_nil _) (Nat.le_of_ble_eq_true rfl) (fun hspace => ?_) hgrows
    have hclear := clearOn_le actionCounters s.tel
    have hlen : actionCounters.length = 12 := rfl
    simp only [queueBound, sumBy, hvtel]
    omega

/-! ## The end of a reset -/

theorem createQueues_out (s : State) (d n size i : Nat) (h : i < n) :
    Output.admin d (.createSq (i + 1) size) ∈ (s.createQueues d n size).out := by
  refine List.mem_append_left _ (List.mem_reverse.mpr (List.mem_flatMap.mpr ⟨i, List.mem_range.mpr h, ?_⟩))
  exact List.mem_cons_of_mem _ List.mem_cons_self

theorem dropOut_drops (s : State) (d : Nat) : (∀ x ∈ (s.dropOut d).fl.cmds, x.drive = d → x.aborting = false) ∧ SlotsOnly s (s.dropOut d) ∧
    (s.dropOut d).tel = s.tel := by
  have hlisted : Listed (fun x => x.drive = d ∧ x.aborting = true) (s.fl.cmds.filter fun c => c.drive == d && c.aborting) s :=
    fun x hx hp => ⟨x, List.mem_filter.mpr ⟨hx, by rw [hp.1, hp.2, beq_self_eq_true]; rfl⟩, rfl⟩
  obtain ⟨hnone, hslots, -⟩ := ends_all dropCmd_adds (fun x hq hp => Bool.false_ne_true (hq.aborting.symm.trans hp.2)) _ s hlisted
  refine ⟨fun x hx hd => Bool.eq_false_iff.mpr fun h => listed_nil hnone x hx ⟨hd, h⟩, hslots, ?_⟩
  refine forEach_keeps (P := fun u => u.tel = s.tel) _ (fun u c _ hu => ?_) s rfl
  exact (same_of_hide (dropCmd_hide (M := butZone .tel) rfl rfl u c) .tel rfl).trans hu

/-- The queues of a drive whose reset has ended are created anew. -/
def resetOver (s : State) (d : Nat) : State :=
  (s.dropOut d).onDrive d fun x => { x with state := .ready, fails := 0, used := 0 }

theorem resetDone_readies {s : State} {d : Nat} (hreset : (s.drive d).state = .resetting) (hrole : s.roleUp 4 = true) :
    ∃ op : Event, op.code = BitVec.ofNat 32 0xC01 ∧ s.resetDone d true =
      ((resetOver s d).createQueues d (s.drive d).queues (s.drive d).qsize).tell [.event op] := by
  obtain ⟨-, hslots, -⟩ := dropOut_drops s d
  obtain ⟨n, hn⟩ := hslots d
  have hover : (resetOver s d).drive d = { (s.dropOut d).drive d with state := .ready, fails := 0, used := 0 } := drive_onDrive_self ..
  rw [hn] at hover
  have hqueues : ((resetOver s d).drive d).queues = (s.drive d).queues := by rw [hover]
  have hsize : ((resetOver s d).drive d).qsize = (s.drive d).qsize := by rw [hover]
  rw [← hqueues, ← hsize]
  unfold State.resetDone
  rw [hreset, hrole]
  exact ⟨_, rfl, rfl⟩

/-- Settles O47, command by command: whatever ends a command adds at most a Flush that waits. -/
theorem drivesAttachAndRunCommands : Obligations.DrivesAttachAndRunCommands := by
  unfold Obligations.DrivesAttachAndRunCommands
  refine ⟨?_, ?_, ?_, ?_, ?_, ?_, ?_, ?_, ?_⟩
  · intro d i s hauto hmay hcheck
    obtain ⟨hready, hqueues⟩ := attach_ready hcheck
    exact ⟨_, exec_autoAttach hauto hmay, hready, hqueues, attach_raises hcheck⟩
  · intro d r i s hauto hmay hcheck
    exact ⟨_, exec_autoAttach hauto hmay, attach_refuses hcheck⟩
  · intro d c s hfind hready hfree hland
    obtain ⟨rfl, heq⟩ := slotGrant_grants hfind hready hfree hland
    have hdrive := granted_drive s c
    have hout := granted_out s c
    refine ⟨_, congrArg Host.Outcome.next heq, congrArg Drive.used hdrive, fun hk => ?_, fun hk => ?_, congrArg Drive.nextQ hdrive⟩
    · rw [hout, if_neg hk]
      rfl
    · rw [hout, if_pos hk]
      rfl
  · intro d tag w c data s hcmd hready hissued habort hown
    exact ⟨_, nvmeDone_success hcmd hready hissued habort data, readDone_lands hcmd hissued hown data⟩
  · intro d tag id c data e s hcmd hready hissued habort hown hdesc hstage hlast
    exact ⟨_, nvmeDone_success hcmd hready hissued habort data, readDone_writes hcmd hissued hown hdesc hstage hlast data⟩
  · intro d tag c s hcmd hissued habort
    exact ⟨_, rfl, cmdTimeout_keeps hcmd hissued habort⟩
  · intro d tag c s hcmd habort hready
    have heq : s.abortTimeout d tag = s.resetDrive d := by
      unfold State.abortTimeout
      rw [hcmd]
      dsimp only
      rw [habort, hready]
      rfl
    exact ⟨_, congrArg Host.Outcome.next heq, resetDrive_resets s d⟩
  · intro d s hready
    have heq : exec (.driveRemoval d) s = .next (s.driveDown d) := by
      change execDriveRemoval d s = _
      unfold execDriveRemoval
      rw [hready]
    exact ⟨_, heq, driveDown_loses s d⟩
  · intro d s hreset hrole
    obtain ⟨e, hcode, heq⟩ := resetDone_readies hreset hrole
    obtain ⟨hcmds, -, htel⟩ := dropOut_drops s d
    have hover : (resetOver s d).drive d = { (s.dropOut d).drive d with state := .ready, fails := 0, used := 0 } := drive_onDrive_self ..
    refine ⟨_, congrArg Host.Outcome.next heq, congrArg Drive.state hover, congrArg Drive.used hover, hcmds,
      fun i hi => createQueues_out _ d _ _ i hi, ?_⟩
    exact raised_first (u := State.createQueues (resetOver s d) _ _ _) htel hcode [] rfl

end Sys2Proof.Proofs
end

section
/-!
PROOFS. O49: recovery from failures (Table 118, R409, R419). The hand-over to the standby engine keeps the translation-cache entries that
descriptors past the front end pin, and marks them `old` (R419): the mark `stale` stays what Invalidate Requests have made it (R108).
-/

namespace Sys2Proof.Proofs

open Sys2Proof Sys2Proof.Machine Sys2Proof.Laws

theorem retakeLines_xl (s : State) : s.retakeLines.xl = s.xl := same_of_hide (retakeLines_hide (M := butZone .xl) rfl rfl ..) .xl rfl

theorem auditHw_xl (s : State) (action target : Nat) : (s.auditHw action target).xl = s.xl :=
  same_of_hide (auditHw_hide (M := butZone .xl) rfl rfl ..) .xl rfl

theorem holdInvals_xc (s : State) : s.holdInvals.xl.xc = s.xl.xc := rfl

theorem reduce_xl (s : State) (kind lost : Nat) : (s.reduce kind lost).xl = s.xl :=
  tell_xl (s.onRl fun r => { r with reduced := true }) _

/-- The hand-over where no descriptor is in the front end: nothing is pricked again, and the caches are those of an emptied engine. -/
theorem handover_xc {s : State} (h : ∀ d ∈ s.fe.descs, d.stage ≠ .parked ∧ d.stage ≠ .headWait) (us : Nat) (passes : Bool) :
    (s.handover us passes).xl.xc = (s.xl.emptied []).xc := by
  have hagain : (s.fe.descs.filter fun d => d.stage == .parked || d.stage == .headWait) = [] :=
    List.filter_eq_nil_iff.mpr fun d hd hfront => by
      obtain ⟨hparked, hhead⟩ := h d hd
      rcases Bool.or_eq_true_iff.mp hfront with hp | hw
      · exact hparked (beq_iff_eq.mp hp)
      · exact hhead (beq_iff_eq.mp hw)
  unfold State.handover
  rw [hagain]
  dsimp only [List.map_nil]
  split
  · rw [tell_xl, auditHw_xl, onRl_xl, holdInvals_xc, retakeLines_xl]
    rfl
  · rw [reduce_xl, tell_xl, auditHw_xl, onRl_xl, holdInvals_xc, retakeLines_xl]
    rfl

/-- A page that descriptor 0 pins, and that no Invalidate Request has named. -/
def pinnedPage : XEntry := { port := 0, pasid := 0, iova := 0, log2 := 12, r := true, w := false, pins := [0] }

/-- A gather is in a window, and pins the page. -/
def pinnedWindow : State :=
  (Tests.holding { Tests.gat with stage := .window } Tests.two).onXl fun x => { x with xc := [pinnedPage] }

/-- The standby keeps the page, marked as dropped: it is not stale. -/
theorem emptied_pinnedWindow : (pinnedWindow.xl.emptied []).xc = [{ pinnedPage with old := true }] := by decide

theorem qxHandover_pinnedWindow : exec (.qxHandover 100 ⟨true, []⟩ Tests.good) pinnedWindow = .next (pinnedWindow.handover 100 true) := rfl

/-- Refutes O49: its hand-over clause wants every translation-cache entry that stays to be stale. In `pinnedWindow` a gather past the front
end pins a page that no Invalidate Request has named, and after the hand-over that page is there, `old` and not stale. -/
theorem not_failuresAreRecovered : ¬ Obligations.FailuresAreRecovered := by
  unfold Obligations.FailuresAreRecovered
  rintro ⟨-, -, -, -, -, -, hhandover, -⟩
  have hpast : ∀ d ∈ pinnedWindow.fe.descs, d.stage ≠ .parked ∧ d.stage ≠ .headWait := by decide
  obtain ⟨t, hexec, -, -, hstarts⟩ := hhandover 100 [] true Tests.good pinnedWindow rfl rfl rfl
  obtain ⟨-, -, -, -, -, hstale, -⟩ := hstarts rfl hpast
  rw [qxHandover_pinnedWindow] at hexec
  cases hexec
  rw [handover_xc hpast, emptied_pinnedWindow] at hstale
  obtain ⟨-, hmark⟩ := hstale _ List.mem_cons_self
  exact Bool.noConfusion hmark

end Sys2Proof.Proofs
end
